-- ==== Sys2Proof/Word.lean ====
section
/-! DEFINITION. The word types of the device: registers are 32 bits wide (R1), 64-bit values lie in two registers,
memory is counted in bytes. -/

namespace Sys2Proof

/-- A register or a table word (R1). -/
abbrev Word := BitVec 32

/-- A 64-bit value: two registers, or a host address (R1). -/
abbrev DWord := BitVec 64

/-- A byte of host memory, of a CAN frame or of a bank. -/
abbrev Byte := BitVec 8

end Sys2Proof
end

