-- ==== Sys2Proof/Kinds.lean ====
section
/-! DEFINITION. The small types that commands and the state share: the masters of the SETUP window and the
comparators. -/

namespace Sys2Proof

/-- The three masters that write the SETUP window (R22): host, safety controller, Imset. -/
inductive Master where
  | host | sc | imset
  deriving DecidableEq, Repr

/-- The code of a master in FAB_WRITE_ERR.master and in FLT_SEL[m]. -/
def Master.code : Master → Nat
  | .host => 0
  | .sc => 1
  | .imset => 2

/-- A comparator: a window monitor, a pod comparator or an edge-flag comparator (R12). -/
inductive Cmp where
  | wm (m : Fin 24)
  | pc (c : Fin 28)
  | ef (k : Fin 8)
  deriving DecidableEq, Repr

/-- The voltages at the eight lands of a position port, in mV (R124, R126). -/
structure Lands where
  ap : Int := 0
  an : Int := 0
  bp : Int := 0
  bn : Int := 0
  zp : Int := 0
  zn : Int := 0
  x : Int := 0
  y : Int := 0
  deriving DecidableEq, Repr

/-- What a driver senses at a switch of its port at plateau entry (R67): the gate's slope over the first 10 ns of segment 1 and its slope
now, both in the direction of the edge and in one unit, and its voltage in mV. -/
structure PlateauSense where
  hi : Bool
  first : Nat
  slope : Nat
  mv : Int
  deriving DecidableEq, Repr

/-- A switch of a port, high or low, and a voltage in mV seen there. -/
structure GateSense where
  hi : Bool
  mv : Int
  deriving DecidableEq, Repr

/-- A level of a land, and the device time since which it has stood. -/
structure HeldLevel where
  level : Bool
  since : Nat
  deriving DecidableEq, Repr

/-- A cause of the table of R127 and what the port sees of it: the voltage of a differential pair in mV, the current that the excitation
has to supply in mA, or the level of the SSI data line. -/
structure BreakSign where
  cause : Fin 7
  x : Int
  deriving DecidableEq, Repr

/-- Such a sign and the device time since which it has stood. -/
structure HeldSign where
  sign : BreakSign
  since : Nat
  deriving DecidableEq, Repr

/-- A half of a resolver's excitation period, the first or the second, with its middle (R136). -/
structure HalfPeriod where
  second : Bool
  stamp : Nat
  deriving DecidableEq, Repr

/-- What the SEC-DED check of a bank word finds (R294). -/
inductive Ecc where
  | ok | corrected | double | address
  deriving DecidableEq, Repr

/-- What has befallen a bank word since its last access (R287): which of its 32 data bits (0 to 31) and 7 check bits (32 to 38) have
flipped, and whether this access reached a wrong location, which its address bits in the code tell. -/
structure Upset where
  flips : BitVec 39 := 0
  wrong : Bool := false
  deriving DecidableEq, Repr


/-- The masters of the banks (R288): the two copies of the safety controller, the engines, the ring DMA engine, Imset, the CAN
controllers as one, the crypto engine. -/
inductive BankMaster where
  | copyA | copyB | engine (e : Fin 12) | ring | imset | can | crypto
  deriving DecidableEq, Repr

/-- What an access to a bank meets (R287, R290): what has befallen the word, and the masters whose accesses wait there. -/
structure BankTurn where
  upset : Upset := {}
  others : List BankMaster := []
  deriving DecidableEq, Repr

/-- The same, and how long the access has waited, in ns (R299). -/
structure BankWait where
  turn : BankTurn := {}
  wait : Nat := 0
  deriving DecidableEq, Repr

/-- Bytes that the ring DMA engine writes to a bank, and what its first access meets there; an access that waits, or meets another, begins a
command of its own. -/
structure MemBytes where
  bytes : List (BitVec 8)
  wait : BankWait := {}
  deriving DecidableEq, Repr

/-- The edges seen at the two lands WAKE_IN during sleep (R401). -/
structure WakeEdges where
  rise : BitVec 2
  fall : BitVec 2
  deriving DecidableEq, Repr

/-- What stands at the device when it boots: REF_CLK_IN, and the supplies VCAN and VREP (R389, R415). -/
structure BootInputs where
  ext : Bool := false
  vcan : Bool := true
  vrep : Bool := true
  deriving DecidableEq, Repr

/-- What the test of a unit meets at its end (R380): the outcome of the tests that leave no value, the supplies at a port's drivers and the
presence of an island's clock then, the codes of the low and high threshold DAC read on the anchor pod, those of the two REF entries, and
a sensor's reading in Q16.16 °C. -/
structure AdmitTest where
  pass : Bool
  hiMv : Nat := 0
  loMv : Nat := 0
  clock : Bool := false
  lo : Nat := 0
  hi : Nat := 0
  half : Nat := 0
  gnd : Nat := 0
  temp : Int := 0
  deriving DecidableEq, Repr

/-- Where a copy of the safety controller loads and stores: a byte of bank space, or an offset of the SETUP window, the IMS mailbox
and the validation-queue registers among them (R20, R270). -/
inductive ScPlace where
  | bank (a : BitVec 23) | setup (off : BitVec 21)
  deriving DecidableEq, Repr

/-- A load of a copy: the place of its first byte, and how many bytes it takes. -/
structure ScLoad where
  place : ScPlace
  bytes : Nat
  deriving DecidableEq, Repr

/-- A store as a delay register holds it (R269): the place of its first byte, data and the mask of the bytes from there on that it writes,
and the parity bits as the close of the window finds them, one for each data byte (0 to 3) and one for the address and mask together (4). -/
structure ScStore where
  place : ScPlace
  data : Word
  mask : BitVec 4
  parity : BitVec 5
  deriving DecidableEq, Repr

/-- What an instruction of the copies does. R267 names what enters the signature: the writeback of an integer or floating-point register,
the write of a CSR, a store, or an exception, taken at `pc`, with its cause and faulting address. The floating-point flags that an
operation raises and the return from a trap change the state besides. -/
inductive ScResult where
  | reg (float : Bool) (n : Fin 32) (v : Word)
  | csr (n : BitVec 12) (v : Word)
  | store (s : ScStore)
  | trap (pc cause address : Word)
  | flags (v : BitVec 5)
  | mret
  deriving DecidableEq, Repr

/-- An instruction that a copy has executed: its results, and whether it is a FENCE or WFI (R266), and which. -/
structure ScRetired where
  results : List ScResult := []
  fence : Bool := false
  wfi : Bool := false
  deriving DecidableEq, Repr

/-- What a copy has executed in a window: its instructions, first to last, and the program counter of the next one. -/
structure ScTrace where
  retired : List ScRetired
  pc : Word
  deriving DecidableEq, Repr

/-- What an agreed load of a copy meets: what its path adds to the value, and what both paths and the reference's add in the joint samples
where the agreement unit takes some (R270); how many bytes it takes; what it meets at a bank; and the stores of its present window before
it, where they are not those that its program makes (`ScRun.own`). -/
structure PathErr where
  err : Word := 0
  joint : List (Word × Word × Word) := []
  bytes : Nat := 4
  turn : BankWait := {}
  pending : List ScStore := []
  deriving DecidableEq, Repr

/-- The close of a window by copy A or copy B. `own` is what the copy executed where an upset or a defect, or a program that the model's
memory does not hold, makes that other than what its instructions compute; `waits` is what its stores meet at the banks, first to last;
`err` is what its path adds to the interrupt request that it samples, and `joint` what both paths and the reference's add in joint samples
of it (R271). -/
structure ScRun where
  copyA : Bool
  own : Option ScTrace := none
  waits : List BankWait := []
  err : Bool := false
  joint : List (Bool × Bool × Bool) := []
  deriving DecidableEq, Repr

/-- A 32-byte descriptor, by the fields of R308. -/
structure Descr where
  opcode : Nat
  flags : Nat := 0
  target : Nat := 0
  length : Nat := 0
  sequence : Nat := 0
  deadline : Nat := 0
  param1 : Nat := 0
  address : Nat := 0
  param2 : Nat := 0
  deriving DecidableEq, Repr

/-- How an attempt to transmit a CAN frame ends (R332). -/
inductive TxEnd where
  | ok | noAck | arbLost | bitError | formError | stuffError | crcError
  deriving DecidableEq, Repr

/-- An attempt to transmit a CAN frame: how it ends; whether a stuff error fell in arbitration on a recessive stuff bit that was read
dominant, which leaves TEC as it is; how often the controller found an error in its own error or overload flag after it (R327). -/
structure TxAttempt where
  ended : TxEnd
  inArb : Bool := false
  flags : Nat := 0
  deriving DecidableEq, Repr

/-- A bus error that a receiving controller detects (R327): one that raises REC by 1 or by 8, or one in an XL frame. -/
inductive RxError where
  | one | eight | xl
  deriving DecidableEq, Repr

/-- What a reference message of ISO 11898-4 carries: the cycle count, whether a gap follows the cycle (R340), the discontinuity bit, the
master reference mark. -/
structure RefMark where
  cycle : Nat
  disc : Bool
  mark : Nat
  gap : Bool := false
  deriving DecidableEq, Repr

/-- The data of a descriptor's buffer, and whether the flash write that follows fails at first (R368). -/
structure FlashInput where
  data : List Byte
  err : Bool := false
  deriving DecidableEq, Repr

/-- A burn of fuses: how many of them read back as blown (R347); and whether the flash write beside it fails at first (R368). -/
structure BurnInput where
  blown : Nat
  err : Bool := false
  deriving DecidableEq, Repr

/-- A step of the freshness journal: its flow, and whether the flash write fails at first (R361, R368). -/
structure JournalInput where
  flow : Fin 256
  err : Bool := false
  deriving DecidableEq, Repr

/-- How far a refresh of a flash sector gets: to its end, or one step further (R367); and whether a flash write of it fails at first
(R368). -/
structure RefreshInput where
  done : Bool
  err : Bool := false
  deriving DecidableEq, Repr

/-- A frame as it comes on SVC_RX, but for its CRC (R364): first byte, length field, payload. -/
structure UartInput where
  start : Byte
  length : Nat
  payload : List Byte
  deriving DecidableEq, Repr

/-- What becomes of the link and of the function (R301): it trains at a speed; it enters L1; host software puts the function in D3hot
or back in D0. -/
inductive LinkChange where
  | trains (speed : Fin 4)
  | l1 | d3hot | d0
  deriving DecidableEq, Repr

/-- A CAN frame on the bus, by the fields of R334: format 1 base, 2 extended, 3 XL; the length that a remote frame requests; the data
field on the bus; and the content of a reference message where it is one (R340, R343). -/
structure CanFrame where
  format : Nat
  ident : Nat
  fd : Bool := false
  brs : Bool := false
  esi : Bool := false
  rtr : Bool := false
  sec : Bool := false
  asked : Nat := 0
  sdt : Nat := 0
  vcid : Nat := 0
  af : Nat := 0
  data : List Byte := []
  ref : Option RefMark := none
  deriving DecidableEq, Repr

end Sys2Proof
end

