-- ==== Sys2Proof/Syntax.lean ====
section
/-! DEFINITION. The commands: one constructor per row of spec/opcode_table.json, in its order. The first operand of each, `t`, is the
device time in ticks at which the command reaches the block (log entry 2); the others are the row's own: the unit it names, the
values it carries, what the world outside the device shows at that instant. -/

namespace Sys2Proof

/-- A command of the block. -/
inductive Instr where
  /-- REGISTER_WRITE (R23): A master writes a SETUP register or LT word that has no row of its own; the write is checked, applied
  or rejected and recorded in FAB_WRITE_ERR. -/
  | registerWrite (t : Nat) (m : Master) (off bytes : Nat) (data : DWord)
  /-- LOW_HALF_READ_CAPTURE (R25): A low-half read of a 64-bit value captures the high half into the master's holding register. -/
  | lowHalfReadCapture (t : Nat) (m : Master) (off : Nat)
  /-- SEAL_REQUEST (R31): A write of DEV_SEAL_CTRL.seal requests seal and the device enters SEALING. -/
  | sealRequest (t : Nat) (m : Master)
  /-- SEAL_COMPLETE (R32): The seal checks finish; the device computes the digest and enters SEALED, or refuses and returns to
  SETUP. -/
  | sealComplete (t : Nat)
  /-- UNSEAL (R33): An authorised UNSEAL descriptor on QP0 returns an at-rest device to SETUP, or completes with NOT_STOPPED. -/
  | unseal (t i : Nat) (buf : List Byte)
  /-- GT_CAPTURE (R38): With global time valid and no GLOBAL stage running, G is captured (or recaptured) and the discipline
  enters LOCKED. -/
  | gtCapture (t gt : Nat)
  /-- UPDATE_POINT (R41): A stage carrier reaches an update point; the update number advances and committed shadows transfer
  atomically. -/
  | updatePoint (t : Nat) (k : Fin 21)
  /-- DEADLINE_INSTANT (R51): At the deadline instant of an update point the shadow set is locked, transfer or miss is decided,
  and the planner starts. -/
  | deadlineInstant (t : Nat) (k : Fin 21)
  /-- SAMPLING_PLAN (R90): The sampling planner finishes placing instants A and B of the coming beat. -/
  | samplingPlan (t : Nat) (k : Fin 21)
  /-- PG_SHADOW_WRITE (R50): A loop's tagged shadow write arrives at the TBI gate and is accepted or discarded as stale or fenced.
  -/
  | pgShadowWrite (t : Nat)
  /-- COMMIT_MARK (R51): A loop's commit mark passes the TBI gate, on time or late. -/
  | commitMark (t : Nat)
  /-- SC_SHADOW_WRITE (R52): The safety controller writes PG_SHD_A or PG_SHD_B, which is rejected on a LOOP stage. -/
  | scShadowWrite (t : Nat) (p : Fin 64) (isB : Bool) (v : Word)
  /-- SC_COMMIT (R52): The safety controller writes TB_STG_COMMIT for an SC stage. -/
  | scCommit (t : Nat) (k : Fin 21) (v : Word)
  /-- STAGE_START (R54): The safety controller writes TB_STG_RUN.run = 1; ports drive from the next successful transfer. -/
  | stageStart (t : Nat) (k : Fin 21)
  /-- STAGE_STOP (R55): The safety controller writes TB_STG_RUN.run = 0; every port of the stage turns off. -/
  | stageStop (t : Nat) (k : Fin 21)
  /-- COMPARE_MATCH (R43): The carrier reaches a compare and the H-command of a pulse generator changes. -/
  | compareMatch (t : Nat) (six : Fin 16) (p : Fin 64)
  /-- DEAD_TIME_EXPIRY (R46): A dead time elapses and the waiting switch is turned on. -/
  | deadTimeExpiry (t : Nat) (six : Fin 16) (p : Fin 64)
  /-- TRIGGER_FIRE (R60): A trigger unit fires at its position, planner instant or update point. -/
  | triggerFire (t : Nat) (six : Fin 16) (u : Fin 48)
  /-- DRIVER_INPUT_CHANGE (R77): A switch command reaches a driver input and the driver decides its gate by precedence. -/
  | driverInputChange (t : Nat) (p : Fin 64) (hiMv loMv : Nat)
  /-- GATE_EDGE_START (R69): The gate current of an edge starts after the driver delay. -/
  | gateEdgeStart (t : Nat) (p : Fin 64) (hi : Bool)
  /-- PLATEAU_ENTRY (R67): Plateau entry is detected and segment 2 begins. -/
  | plateauEntry (t : Nat) (p : Fin 64) (g : PlateauSense)
  /-- PLATEAU_EXIT (R67): Plateau exit is detected and segment 3 begins. -/
  | plateauExit (t : Nat) (p : Fin 64) (g : GateSense)
  /-- SEG_TIMEOUT (R67): A segment reaches s1_max or s2_max; SEG_TIMEOUT is flagged and the edge continues. -/
  | segTimeout (t : Nat) (p : Fin 64) (hi : Bool)
  /-- EDGE_COMPLETE (R70): The gate comes within 0.5 V of its final level; the edge is recorded and the Miller clamp engages. -/
  | edgeComplete (t : Nat) (p : Fin 64) (g : GateSense)
  /-- UVLO (R72): A driver supply falls below its falling threshold; the gate turns off and is held. -/
  | uvlo (t : Nat) (p : Fin 64) (hi : Bool) (mv : Nat)
  /-- GATE_MONITOR_CHECK (R74): The monitor window after an edge ends, and the gate state is compared with the command. -/
  | gateMonitorCheck (t : Nat) (p : Fin 64) (hi : Bool) (mv : Int)
  /-- GATE_MISMATCH (R74): The sensed gate state disagrees with the command while no edge is in progress. -/
  | gateMismatch (t : Nat) (p : Fin 64) (hi : Bool) (mv : Int)
  /-- LINK_DOWN (R75): A heavy pod receives no valid command frame for 200 ns and presents both switches off. -/
  | linkDown (t : Nat) (p : Fin 64)
  /-- TRIP_LANE_DOWN (R75): A heavy pod sees no valid trip-lane symbol for 200 ns and holds both switches off. -/
  | tripLaneDown (t : Nat) (p : Fin 64)
  /-- LINK_RESUME (R75): Valid frames or trip-lane symbols resume at a pod. -/
  | linkResume (t : Nat) (p : Fin 64) (lane : Bool) (hiMv loMv : Nat)
  /-- SUPPLY_HIGH (R76): A gate supply rises above its range and supply_high is set. -/
  | supplyHigh (t : Nat) (src : Fin 15) (mv : Nat)
  /-- SHUNT_CONVERSION_DONE (R93): A shunt conversion completes and is corrected, scaled and formed into a record. -/
  | shuntConversionDone (t : Nat) (k : Fin 21) (isB : Bool) (code : Int) (shift : Nat)
  /-- HOUSEKEEPING_START (R84): A housekeeping cycle starts on a 20,000-tick multiple while the carrier is disabled. -/
  | housekeepingStart (t : Nat) (k : Fin 14)
  /-- HOUSEKEEPING_RESULT (R84): A DV, PV, TN or readback conversion of the pod completes. -/
  | housekeepingResult (t : Nat) (k : Fin 14) (code : Nat)
  /-- CAL_OFFSET (R95): An OFFSET calibration is started through SH_CAL_CTRL. -/
  | calOffset (t : Nat) (k : Fin 21)
  /-- CAL_GAIN (R95): A GAIN calibration is started through SH_CAL_CTRL. -/
  | calGain (t : Nat) (k : Fin 21)
  /-- CAL_BOTH (R95): A BOTH calibration is started through SH_CAL_CTRL. -/
  | calBoth (t : Nat) (k : Fin 21)
  /-- CALIBRATION_DONE (R95): A calibration finishes with OK or BROKEN, or is abandoned with STAGE_RUNNING. -/
  | calibrationDone (t : Nat) (k : Fin 21) (zero plus minus : Int)
  /-- CONVERSION_DONE (R99): A logic-converter sequence conversion completes and advances the entry, its average and the pass. -/
  | conversionDone (t : Nat) (c : Fin 6) (code hold : Nat)
  /-- OW_SETTLE_EXPIRY (R106): The open-wire test current has been applied for ow_time, and the test conversion starts. -/
  | owSettleExpiry (t : Nat) (c : Fin 6)
  /-- CV_PASS_START (R102): A trigger firing arrives at a TRIGGERED converter and starts a pass, or is counted as overrun. -/
  | cvPassStart (t : Nat) (c : Fin 6)
  /-- URGENT_REQUEST (R103): The safety controller writes CV_URG and requests an urgent conversion. -/
  | urgentRequest (t : Nat) (c : Fin 6) (w : Word)
  /-- URGENT_CONVERSION_DONE (R104): An urgent conversion completes; the next urgent request is served or the sequence resumes. -/
  | urgentConversionDone (t : Nat) (c : Fin 6) (code : Nat)
  /-- COMPARATOR_CROSSING (R108): A comparator input crosses a switching level of a threshold. -/
  | comparatorCrossing (t : Nat) (c : Cmp) (x : Int)
  /-- FILTERED_OUTPUT_CHANGE (R110): A comparator output change persists for the filter time and passes to the latch, the report
  and stopwork. -/
  | filteredOutputChange (t : Nat) (c : Cmp) (hi : Bool)
  /-- LATCH_CLEAR (R111): The safety controller writes 1 to clear a latch, which stays set while the output is active. -/
  | latchClear (t : Nat) (c : Cmp) (lo hi : Bool)
  /-- EDGE_FLAG_EDGE (R114): An edge-flag comparator accepts an edge, stamps it and sends a record to the loop. -/
  | edgeFlagEdge (t : Nat) (k : Fin 8) (x : Int)
  /-- TRIP_IN_CHANGE (R115): A TRIP_IN land reaches its active level after its filter. -/
  | tripInChange (t : Nat) (n : Fin 4) (h : HeldLevel)
  /-- LOW_DELAY_EXPIRY (R118): low_delay elapses under LOW_ON and every low switch turns on. -/
  | lowDelayExpiry (t : Nat) (k : Fin 21)
  /-- FORCE_ACT (R116): The safety controller forces a trip with the stage action through WM_SW_CTRL. -/
  | forceAct (t : Nat) (k : Fin 21)
  /-- FORCE_OFF (R116): The safety controller forces an ALL_OFF trip through WM_SW_CTRL. -/
  | forceOff (t : Nat) (k : Fin 21)
  /-- RELEASE (R120): The safety controller releases a held stage trip, or is refused while a source remains active. -/
  | release (t : Nat) (k : Fin 21)
  /-- LINE_CHANGE (R126): A filtered position-port line changes, moving the count, halls or index, or giving ILLEGAL. -/
  | lineChange (t : Nat) (i : Fin 6) (l : Lands) (since stamp : Nat)
  /-- ILL_WINDOW_EXPIRY (R129): A fixed ILLEGAL counting window ends and its count restarts. -/
  | illWindowExpiry (t : Nat) (i : Fin 6)
  /-- BROKEN (R127): A broken-line condition of a position port is detected and reported. -/
  | broken (t : Nat) (i : Fin 6) (h : HeldSign)
  /-- PERIOD_TIMEOUT (R132): No hall edge arrives for 100 ms and the period speed reads zero. -/
  | periodTimeout (t : Nat) (i : Fin 6) (sec : Bool)
  /-- SSI_START (R133): An SSI read starts on a trigger or a period, or is ignored as overrun. -/
  | ssiStart (t : Nat) (i : Fin 6)
  /-- SSI_FRAME_DONE (R134): An SSI frame completes; it is checked and the count moves. -/
  | ssiFrameDone (t : Nat) (i : Fin 6) (bits : Nat)
  /-- RESOLVER_ENVELOPE (R136): A resolver half-period integration yields an envelope pair and an angle. -/
  | resolverEnvelope (t : Nat) (i : Fin 2) (sine cosine : List Int) (h : HalfPeriod) (phase : Nat)
  /-- PRESET (R137): The safety controller's PRESET command sets the count to PS_PRESET. -/
  | preset (t : Nat) (i : Fin 6)
  /-- OBSERVER_UPDATE (R138): A tracking observer runs its 200 ns update and lock check. -/
  | observerUpdate (t : Nat) (i : Fin 6)
  /-- OBSERVER_LATCH (R141): A trigger firing latches and propagates the observer state into a record. -/
  | observerLatch (t : Nat) (i : Fin 6)
  /-- COMPARE_ARM (R142): A write of PS_CMP_HI arms a position compare and checks BEHIND. -/
  | compareArm (t : Nat) (i : Fin 6) (n : Fin 2) (hi : Word)
  /-- REPEATER_EDGE (R144): An encoder repeater moves its output count one edge towards the target under its rate limit. -/
  | repeaterEdge (t : Nat) (j : Fin 2)
  /-- RECORD_ARRIVAL (R153): A shunt, housekeeping, latch or edge-flag record arrives at the engine pool for its loop. -/
  | recordArrival (t k : Nat)
  /-- START_LIMIT_EXPIRY (R153): start_limit passes and a PRIMARY loop becomes ready, with missing records late. -/
  | startLimitExpiry (t : Nat) (l : Fin 64)
  /-- LOAD (R161): LOAD operation: reads a variable, parameter, record, converter result, exchange, bank or constant. -/
  | load (t : Nat) (e : Fin 12) (u : BankTurn) (wait : Nat)
  /-- STORE (R162): STORE operation: writes a variable, exchange, bank word or pulse-generator shadow. -/
  | store (t : Nat) (e : Fin 12) (w : BankWait)
  /-- EMIT (R163): EMIT operation: sends values as a telemetry record. -/
  | emit (t : Nat) (e : Fin 12)
  /-- SECT (R185): SECT operation: evaluates one bounded biquad section. -/
  | sect (t : Nat) (e : Fin 12)
  /-- CASC (R186): CASC operation: evaluates a cascade of sections. -/
  | casc (t : Nat) (e : Fin 12)
  /-- CLARKE (R165): CLARKE operation: transforms three phases into alpha and beta. -/
  | clarke (t : Nat) (e : Fin 12)
  /-- PARK (R165): PARK operation: rotates alpha and beta into d and q. -/
  | park (t : Nat) (e : Fin 12)
  /-- IPARK (R165): IPARK operation: rotates d and q into alpha and beta. -/
  | ipark (t : Nat) (e : Fin 12)
  /-- SVM (R167): SVM operation: computes three compares, optionally keeping shunt windows open. -/
  | svm (t : Nat) (e : Fin 12)
  /-- DIAL (R166): DIAL operation: interpolates sin and cos from a dial table. -/
  | dial (t : Nat) (e : Fin 12)
  /-- POISE (R191): POISE operation: computes the cogging and friction feed-forward from a poise table. -/
  | poise (t : Nat) (e : Fin 12)
  /-- LIM (R168): LIM operation: clamps a value between bounds. -/
  | lim (t : Nat) (e : Fin 12)
  /-- SEL (R168): SEL operation: selects one of two values by a flag. -/
  | sel (t : Nat) (e : Fin 12)
  /-- CMP (R168): CMP operation: writes 1 or 0 by a condition. -/
  | cmp (t : Nat) (e : Fin 12)
  /-- RECON (R169): RECON operation: reconstructs three phase currents from the shunt records. -/
  | recon (t : Nat) (e : Fin 12)
  /-- FUSEE (R195): FUSEE operation: seeds or steps the jerk-limited profile generator. -/
  | fusee (t : Nat) (e : Fin 12)
  /-- LETDN (R199): LETDN operation: steps the let-down ramp within its gap. -/
  | letdn (t : Nat) (e : Fin 12)
  /-- PLAUS (R201): PLAUS operation: updates the plausibility model and residual, and reports PLAUS. -/
  | plaus (t : Nat) (e : Fin 12)
  /-- SLACK (R171): SLACK operation: writes the loop's slack as a fraction of the beat. -/
  | slack (t : Nat) (e : Fin 12)
  /-- ENGINE_STALL (R176): An engine retires no operation for the stall limit and is declared dead. -/
  | engineStall (t : Nat) (e : Fin 12)
  /-- RESIDUE_FAIL (R176): The residue check of an engine's datapath fails and the engine is declared dead. -/
  | residueFail (t : Nat) (e : Fin 12)
  /-- DECLARE_DEAD (R176): The safety controller declares an engine dead through BE_POOL_CTRL. -/
  | declareDead (t : Nat) (e : Fin 16)
  /-- TAKEOVER (R178): Once the fence is in force, or a spare becomes free, waiting loops are assigned to a spare. -/
  | takeover (t : Nat) (e : Fin 12)
  /-- ENGINE_ADMIT (R179): ENGINE_ADMIT descriptor: starts the self-test of a fenced engine. -/
  | engineAdmit (t : Nat) (q : Fin 64) (i : Nat)
  /-- ENGINE_SELF_TEST_DONE (R179): An engine self-test ends; the engine becomes a free spare or stays fenced. -/
  | engineSelfTestDone (t : Nat) (e : Fin 12) (pass : Bool)
  /-- COEFF_SWAP_REQUEST (R187): A write of BE_LP_SWAP requests or cancels a coefficient bank swap. -/
  | coeffSwapRequest (t : Nat) (l : Fin 64) (bank : Fin 2)
  /-- SLACK_MIN_RESTART (R175): A write of BE_LP_SLACK_MIN.restart resets the minimum slack. -/
  | slackMinRestart (t : Nat) (m : Master) (l : Fin 64)
  /-- TM_START (R216): A validated TM_START begins a catch of a traction machine. -/
  | tmStart (t : Nat) (q : Fin 64) (i : Nat)
  /-- TM_TARGET (R220): A validated TM_TARGET changes the target or mode, or starts a reversal. -/
  | tmTarget (t : Nat) (q : Fin 64) (i : Nat)
  /-- TM_STOP (R221): A validated TM_STOP stops every set stage and the machine coasts. -/
  | tmStop (t : Nat) (q : Fin 64) (i : Nat)
  /-- TM_CATCH_DECISION (R216): The machine speed becomes known in MEASURING and the sequencer decides precharge, catch or
  refusal. -/
  | tmCatchDecision (t : Nat) (m : Fin 2) (mv : List Nat)
  /-- CATCH_TIME_EXPIRY (R215): catch_time ends while the sequencer collects edges or waits for lock. -/
  | catchTimeExpiry (t : Nat) (m : Fin 2)
  /-- PRECHARGE_EXPIRY (R217): The precharge time ends and the machine enters CATCHING. -/
  | prechargeExpiry (t : Nat) (m : Fin 2)
  /-- SEQUENCER_STAGE_START (R218): A sequencer starts a stage after its loop has written two runs. -/
  | sequencerStageStart (t : Nat) (k : Fin 21)
  /-- CATCH_HOLD_DONE (R219): catch_hold update points pass; the machine enters RUNNING. -/
  | catchHoldDone (t : Nat) (m : Fin 2)
  /-- REENGAGE (R222): A reversing machine reaches the re-engage speed and enters MEASURING. -/
  | reengage (t : Nat) (m : Fin 2)
  /-- SPEED_REFRESH (R207): The sequencer refreshes SC_TM_SPEED and checks uncontrolled generation. -/
  | speedRefresh (t : Nat) (m : Fin 2)
  /-- TM_SET_LOSS (R224): The sequencer reacts to a set fenced or tripped, continuing on the rest or entering LOST. -/
  | tmSetLoss (t : Nat) (m : Fin 2)
  /-- CH_START (R240): A validated CH_START begins a charging or export session. -/
  | chStart (t : Nat) (q : Fin 64) (i : Nat)
  /-- CH_TARGET (R237): A validated CH_TARGET writes new charger limits. -/
  | chTarget (t : Nat) (q : Fin 64) (i : Nat)
  /-- CH_STOP (R242): A validated CH_STOP winds the charger down or stops a start. -/
  | chStop (t : Nat) (q : Fin 64) (i : Nat)
  /-- PILOT_WINDOW (R233): The pilot meter ends a window of 8 periods and updates the duty, the plateaux and cp. -/
  | pilotWindow (t : Nat)
  /-- PILOT_TIMEOUT (R233): No pilot transition arrives for 3 ms; osc clears and refreshes start. -/
  | pilotTimeout (t : Nat)
  /-- PILOT_REFRESH (R233): A 1 ms pilot refresh updates the plateaux and the allowed current. -/
  | pilotRefresh (t : Nat)
  /-- CH_WAIT_DONE (R240): The condition a charging start waits for is met: pilot C, a valid grid or bus voltage. -/
  | chWaitDone (t : Nat)
  /-- CH_WAIT_TIMEOUT (R240): c_wait or grid_wait passes and the start completes with its cause. -/
  | chWaitTimeout (t : Nat)
  /-- STOP_TIME_EXPIRY (R242): stop_time passes in STOPPING and the charger stages stop. -/
  | stopTimeExpiry (t : Nat)
  /-- GRID_LOSS_TIMEOUT (R244): The grid stays invalid for 20 ms during CHARGE. -/
  | gridLossTimeout (t : Nat)
  /-- CH_EVENT_REACTION (R244): The charging sequencer reacts to a connector, fence, trip or over-voltage event. -/
  | chEventReaction (t : Nat)
  /-- LV_START (R246): A validated LV_START starts the HV-to-LV converter in DIODE. -/
  | lvStart (t : Nat) (q : Fin 64) (i : Nat)
  /-- LV_TARGET (R246): A validated LV_TARGET writes new converter targets. -/
  | lvTarget (t : Nat) (q : Fin 64) (i : Nat)
  /-- LV_STOP (R247): A validated LV_STOP stops LS0 and then HS12. -/
  | lvStop (t : Nat) (q : Fin 64) (i : Nat)
  /-- LV_SYNC (R246): The output comes within v_tol and the converter moves to SYNC. -/
  | lvSync (t : Nat)
  /-- LV_START_TIMEOUT (R246): start_time passes without the output in tolerance; BUS_LOW. -/
  | lvStartTimeout (t : Nat)
  /-- LV_STAGE_LOSS (R247): A fence or trip on HS12 or LS0 stops the converter. -/
  | lvStageLoss (t : Nat)
  /-- DR_START (R256): A validated DR_START begins a drive start. -/
  | drStart (t : Nat) (q : Fin 64) (i : Nat)
  /-- DR_TARGET (R258): A validated DR_TARGET changes the target or mode, or starts a reversal. -/
  | drTarget (t : Nat) (q : Fin 64) (i : Nat)
  /-- DR_STOP (R259): A validated DR_STOP stops the drive, which coasts. -/
  | drStop (t : Nat) (q : Fin 64) (i : Nat)
  /-- DR_LOCK_TIMEOUT (R256): lock_wait passes without lock; NO_CATCH. -/
  | drLockTimeout (t : Nat) (a : Fin 6)
  /-- DR_TARGET_REACHED (R257): x[done_x] is nonzero for two written runs; AT_TARGET or HOLDING. -/
  | drTargetReached (t : Nat) (a : Fin 6)
  /-- DR_MOVE_TIMEOUT (R257): move_time passes without the target; the drive stops with DEADLINE. -/
  | drMoveTimeout (t : Nat) (a : Fin 6)
  /-- DR_REENGAGE (R258): A reversing drive reaches the re-engage speed and restarts. -/
  | drReengage (t : Nat) (a : Fin 6)
  /-- DR_MIRROR_UPDATE (R252): The sequencer mirrors the secondary hall state and speed into the loop. -/
  | drMirrorUpdate (t : Nat) (a : Fin 6)
  /-- DR_LOSS (R261): A drive's stage or loop is fenced or tripped; the drive goes LOST. -/
  | drLoss (t : Nat) (a : Fin 6)
  /-- WINDOW_CLOSE (R267): A comparison window closes in both copies and the checker compares them. -/
  | windowClose (t : Nat) (r : ScRun)
  /-- LAG_TIMEOUT (R268): One copy has not closed a window 2 µs after the other; LAG mismatch. -/
  | lagTimeout (t : Nat)
  /-- SC_SELF_TEST_DONE (R273): The copies' self-tests end: re-execute, go simplex or halt. -/
  | scSelfTestDone (t : Nat) (a b : Bool)
  /-- AGREED_LOAD (R270): Both copies' samples of an asynchronous input are reconciled. -/
  | agreedLoad (t : Nat) (copyA : Bool) (p : ScPlace) (e : PathErr)
  /-- CHECKER_FAULT (R276): An illegal verdict pair, delay-register parity error or broken input path causes a loss of redundancy.
  -/
  | checkerFault (t : Nat) (k : Fin 6)
  /-- TRANSIENT_PERIOD_EXPIRY (R274): A transient counting period ends and its count restarts. -/
  | transientPeriodExpiry (t : Nat)
  /-- GRACE_EXPIRY (R277): The simplex grace time ends and the device enters safe state. -/
  | graceExpiry (t : Nat)
  /-- INJECTION_TEST_DONE (R278): The start-up injection test ends and mode becomes DUPLEX or HALTED. -/
  | injectionTestDone (t : Nat) (steps : BitVec 7)
  /-- FW_READY (R279): Firmware sets SC_FW.ready and the first watchdog period starts. -/
  | fwReady (t : Nat)
  /-- WDOG_SERVICE (R279): A write of SC_WDOG restarts the watchdog period. -/
  | wdogService (t : Nat) (v : Word)
  /-- WDOG_EXPIRY (R279): The firmware watchdog expires; WATCHDOG and device safe state. -/
  | wdogExpiry (t : Nat)
  /-- VQ_ARRIVAL (R280): A validated-opcode descriptor enters the validation queue. -/
  | vqArrival (t : Nat) (q : Fin 64) (i : Nat)
  /-- ACCEPT (R282): The ACCEPT verdict on the head hands the command on and restarts absence timers. -/
  | accept (t : Nat) (seq : BitVec 16)
  /-- REFUSE (R282): The REFUSE verdict on the head completes it with REFUSED. -/
  | refuse (t : Nat) (seq : BitVec 16) (reason : BitVec 12)
  /-- VALIDATION_EXPIRY (R282): An entry's validation time or deadline passes; it completes with DEADLINE. -/
  | validationExpiry (t : Nat) (seq : BitVec 16)
  /-- KICK (R283): Safety firmware restarts a stage's absence timer. -/
  | kick (t : Nat) (k : Fin 21)
  /-- CONTINUE (R284): Safety firmware answers a NOTIFY by restarting the timer. -/
  | continueStage (t : Nat) (k : Fin 21)
  /-- STOP (R284): Safety firmware applies the STOP action to a stage at once. -/
  | stopStage (t : Nat) (k : Fin 21)
  /-- ABSENCE_EXPIRY (R284): An absence timer expires and its NOTIFY, STOP or TRIP action applies. -/
  | absenceExpiry (t : Nat) (k : Fin 21)
  /-- NOTIFY_TIMEOUT (R284): resp_time passes without a decision and STOP applies. -/
  | notifyTimeout (t : Nat) (k : Fin 21)
  /-- BANK_READ (R294): A master reads a bank word, with ECC correction and write-back. -/
  | bankRead (t : Nat) (m : BankMaster) (a n : Nat) (w : BankWait) (pending : List ScStore)
  /-- BANK_WRITE (R298): A master writes a bank word; non-owner writes are discarded. -/
  | bankWrite (t : Nat) (m : BankMaster) (a n : Nat) (v : Word) (w : BankWait)
  /-- SCRUB_READ (R295): A bank's scrubber reads and corrects its next word. -/
  | scrubRead (t : Nat) (b : Fin 16) (r : BankTurn)
  /-- BANK_HANDOVER (R297): The safety controller writes MB_BANK_CTRL and the bank starts to drain. -/
  | bankHandover (t : Nat) (b : Fin 16) (owner : Fin 8)
  /-- DRAIN_COMPLETE (R297): A bank drain ends and the new owner is admitted. -/
  | drainComplete (t : Nat) (b : Fin 16)
  /-- DRAIN_TIMEOUT (R297): A drain takes longer than 2 µs and the handover ends with DEADLINE. -/
  | drainTimeout (t : Nat) (b : Fin 16)
  /-- CONF_RESTART (R299): A write of MB_CONF_CTRL.restart zeroes the conflict counters. -/
  | confRestart (t : Nat)
  /-- PERST (R302): PERST resets the HLI island and disables every queue pair. -/
  | perst (t : Nat) (hli : Bool)
  /-- HOT_RESET (R302): A hot reset resets the HLI island and disables every queue pair. -/
  | hotReset (t : Nat) (hli : Bool)
  /-- FUNCTION_LEVEL_RESET (R302): A Function Level Reset resets the HLI island and disables every queue pair. -/
  | functionLevelReset (t : Nat) (hli : Bool)
  /-- DOORBELL (R306): Host software writes a doorbell, which is checked and accepted or rejected. -/
  | doorbell (t : Nat) (off : Fin 4096) (v : Word)
  /-- QP_ENABLE (R305): HI_QP_CTRL.enable is written to 1; the rings are checked and the indices reset. -/
  | qpEnable (t : Nat) (m : Master) (q : Fin 64)
  /-- QP_DISABLE (R318): HI_QP_CTRL.enable is written to 0 and the queue pair drains. -/
  | qpDisable (t : Nat) (q : Fin 64)
  /-- DESCRIPTOR_FETCH (R307): The ring DMA fetches the next announced descriptor when room and a completion entry allow. -/
  | descriptorFetch (t : Nat)
  /-- DESCRIPTOR_RECEIVE (R310): A fetched descriptor arrives and is checked in order. -/
  | descriptorReceive (t : Nat) (q : Fin 64) (i : Nat) (x : Descr)
  /-- COMPLETION_WRITE (R312): A completion is written in ring order with its phase. -/
  | completionWrite (t : Nat) (q : Fin 64)
  /-- MODERATION_TIMEOUT (R313): The oldest unsignalled completion reaches HI_QP_MOD.time and the vector is signalled. -/
  | moderationTimeout (t : Nat) (q : Fin 64)
  /-- DESCRIPTOR_DEADLINE (R311): A descriptor's deadline passes while it waits or runs. -/
  | descriptorDeadline (t : Nat) (q : Fin 64) (i : Nat) (sending : Bool)
  /-- HOST_ERROR (R318): A ring access draws a host error and the queue pair is fenced. -/
  | hostError (t : Nat) (q : Fin 64) (k : Fin 3)
  /-- NOP (R314): NOP descriptor: completes with OK. -/
  | nop (t : Nat) (q : Fin 64) (i : Nat)
  /-- FENCE (R316): FENCE descriptor: records the descriptors it awaits. -/
  | fenceItem (t : Nat) (q : Fin 64) (i : Nat)
  /-- FENCE_COMPLETE (R316): Every descriptor that a FENCE awaits has completed and the FENCE completes. -/
  | fenceComplete (t : Nat) (q : Fin 64) (i : Nat)
  /-- MEM_WRITE (R315): MEM_WRITE descriptor: moves host data into bank space owned by HST. -/
  | memWrite (t : Nat) (q : Fin 64) (i : Nat) (data : MemBytes)
  /-- MEM_READ (R315): MEM_READ descriptor: moves bank data to host memory. -/
  | memRead (t : Nat) (q : Fin 64) (i n : Nat) (w : BankWait)
  /-- DATA_TRANSFER_DONE (R315): A data transfer ends and its descriptor completes. -/
  | dataTransferDone (t : Nat) (q : Fin 64) (i : Nat)
  /-- SNAPSHOT (R322): SNAPSHOT descriptor: writes the state of every unit to a host buffer. -/
  | snapshot (t : Nat) (q : Fin 64) (i : Nat)
  /-- ADMIT (R380): ADMIT descriptor: checks the cause and starts the re-admission test of a fenced unit. -/
  | admitUnit (t : Nat) (q : Fin 64) (i hiMv loMv : Nat) (clock : Bool)
  /-- ADMIT_DONE (R380): The re-admission test ends; the unit is unfenced or ADMIT completes with BROKEN. -/
  | admitDone (t : Nat) (q : Fin 64) (i : Nat) (x : AdmitTest)
  /-- STREAM_BUF (R319): STREAM_BUF descriptor: lends a telemetry or event buffer. -/
  | streamBuf (t : Nat) (q : Fin 64) (i : Nat)
  /-- RECORD_WRITE (R320): A telemetry, event or LOST record is written into a lent buffer, or held or dropped. -/
  | recordWrite (t : Nat) (q : Fin 64)
  /-- BUFFER_FLUSH (R319): flush time passes since a buffer's first record and the buffer completes. -/
  | bufferFlush (t : Nat) (q : Fin 64)
  /-- CAN_TX (R331): CAN_TX descriptor: a frame for a transmit flow is checked and secured. -/
  | canTx (t : Nat) (q : Fin 64) (i : Nat) (data : List Byte)
  /-- CAN_RXBUF (R334): CAN_RXBUF descriptor: lends a receive buffer. -/
  | canRxbuf (t : Nat) (q : Fin 64) (i : Nat)
  /-- SLOT_LOAD (R332): A controller loads the next CAN_TX descriptor into a free transmit slot. -/
  | slotLoad (t : Nat) (c : Fin 8)
  /-- FRAME_TX_END (R332): A transmission attempt ends and its descriptor completes with the outcome. -/
  | frameTxEnd (t : Nat) (c : Fin 8) (a : TxAttempt) (sof : Nat)
  /-- FRAME_RECEIVE (R333): A received frame is matched to a flow, checked and delivered to a record or a mailbox. -/
  | frameReceive (t : Nat) (c : Fin 8) (f : CanFrame) (sof : Nat)
  /-- INTEGRATION_DONE (R327): An integrating controller sees 11 recessive bits and becomes ERROR_ACTIVE. -/
  | integrationDone (t : Nat) (c : Fin 8)
  /-- RECOVER (R329): Host software writes RECOVER in BUS_OFF and recovery starts. -/
  | recover (t : Nat) (m : Master) (c : Fin 8)
  /-- RECOVERY_COMPLETE (R327): 128 sequences of 11 recessive bits have been counted; ERROR_ACTIVE with zero counters. -/
  | recoveryComplete (t : Nat) (c : Fin 8)
  /-- FLOW_STALE (R336): An RX flow receives no accepted frame for max_age and becomes stale. -/
  | flowStale (t : Nat) (l : Fin 256)
  /-- TT_TRIGGER (R341): A time-triggered trigger fires at its mark. -/
  | ttTrigger (t : Nat) (c : Fin 8) (n : Fin 32)
  /-- MISSED_WINDOW (R341): A time-triggered frame has not started within tx_win and completes with MISSED_WINDOW. -/
  | missedWindow (t : Nat) (c : Fin 8) (k : Fin 3)
  /-- TT_REFERENCE_SEND (R342): A potential master sends its reference message at a basic cycle start. -/
  | ttReferenceSend (t : Nat) (c : Fin 8) (a : TxAttempt) (sof : Nat)
  /-- LISTEN_END (R342): A potential master's listening matrix cycle ends. -/
  | listenEnd (t : Nat) (c : Fin 8)
  /-- MASTER_LOST (R342): No reference message arrives within ref_watch; master_lost is set. -/
  | masterLost (t : Nat) (c : Fin 8)
  /-- SECURE_BOOT (R351): After reset release Imset reads, verifies and loads its images and applies the configuration. -/
  | secureBoot (t : Nat)
  /-- BOOT_SEAL_REQUEST (R352): Imset requests seal when SC_FW.ready is set or 150 ms after reset release. -/
  | bootSealRequest (t : Nat)
  /-- IDENTITY (R353): IDENTITY descriptor: returns the certified identity public key. -/
  | identity (t i : Nat)
  /-- ATTEST (R354): ATTEST descriptor: writes a signed attestation record. -/
  | attest (t i : Nat) (buf : List Byte)
  /-- SESSION_OPEN (R356): SESSION_OPEN descriptor: verifies and decapsulates, and opens a session. -/
  | sessionOpen (t i : Nat) (buf : List Byte)
  /-- SESSION_CLOSE (R356): SESSION_CLOSE descriptor: ends the channel's session. -/
  | sessionClose (t i : Nat)
  /-- SESSION_EXPIRY (R356): A session's lifetime ends. -/
  | sessionExpiry (t : Nat) (uart : Bool)
  /-- ENROLL (R355): ENROLL descriptor: writes an integrator public key into an OTP slot. -/
  | enroll (t i : Nat) (buf : List Byte) (blown : Nat)
  /-- REVOKE (R355): REVOKE descriptor: advances counter 3 to the next integrator slot. -/
  | revoke (t i : Nat) (buf : List Byte) (blown : Nat)
  /-- UPDATE_WRITE (R362): UPDATE_WRITE descriptor: writes data into the inactive slot of a kind. -/
  | updateWrite (t i : Nat) (buf : List Byte) (err : Bool)
  /-- UPDATE_VERIFY (R362): UPDATE_VERIFY descriptor: verifies the inactive slot. -/
  | updateVerify (t i : Nat)
  /-- UPDATE_ACTIVATE (R363): UPDATE_ACTIVATE descriptor: marks a trial slot or confirms a trial. -/
  | updateActivate (t i : Nat) (buf : List Byte) (burn : BurnInput)
  /-- ACTIVATE_RESET (R362): 1 ms after an UPDATE_ACTIVATE with reset, the device resets. -/
  | activateReset (t : Nat)
  /-- KEY_LOAD (R359): KEY_LOAD descriptor: decrypts and stores a CAN flow key. -/
  | keyLoad (t i : Nat) (buf : FlashInput)
  /-- KEY_ERASE (R359): KEY_ERASE descriptor: empties a key slot. -/
  | keyErase (t i : Nat) (buf : FlashInput)
  /-- RAISE_COUNTER (R350): RAISE_COUNTER descriptor: burns an anti-rollback counter upward. -/
  | raiseCounter (t i : Nat) (buf : List Byte) (blown : Nat)
  /-- LEDGER_READ (R365): LEDGER_READ descriptor: returns flash ledger entries and checks the chain. -/
  | ledgerRead (t i : Nat)
  /-- LIFETIME_READ (R366): LIFETIME_READ descriptor: returns lifetime records. -/
  | lifetimeRead (t i : Nat)
  /-- UART_FRAME (R364): A service UART frame arrives and is served as a management descriptor, or discarded. -/
  | uartFrame (t : Nat) (f : UartInput) (crc : Word) (blown : Nat) (err : Bool)
  /-- FRESHNESS_JOURNAL (R361): Imset journals a TX freshness mark or an RX freshness value. -/
  | freshnessJournal (t : Nat) (x : JournalInput)
  /-- LEDGER_FLUSH (R365): Imset writes a ledger entry with its chain tag to flash. -/
  | ledgerFlush (t : Nat) (k : Fin 1024) (err : Bool)
  /-- LIFETIME_RECORD (R366): Every operating hour Imset writes a lifetime record. -/
  | lifetimeRecord (t : Nat) (err : Bool)
  /-- LIFE_ACCUMULATE (R400): Each second Imset adds to the equivalent operating time and checks LIFE_LIMIT. -/
  | lifeAccumulate (t : Nat)
  /-- FLASH_REFRESH (R367): Imset refreshes one aged flash sector through the scratch. -/
  | flashRefresh (t sector : Nat) (x : RefreshInput)
  /-- FLT_FENCE (R371): Safety firmware fences a unit through FLT_ACT FENCE. -/
  | fltFence (t : Nat) (kind index : BitVec 8)
  /-- FLT_SAFE (R371): Safety firmware enters device safe state through FLT_ACT SAFE. -/
  | fltSafe (t : Nat) (kind index : BitVec 8)
  /-- ISLAND_LOST (R373): An island clock gives no edge within its limit and is recorded as lost. -/
  | islandLost (t : Nat) (i : Fin 12)
  /-- LEDGER_REPORT (R376): A unit posts a report into the ledger intake, or it is dropped. -/
  | ledgerReport (t : Nat) (kind index : BitVec 8) (cls : Fin 5) (code : BitVec 8) (sub : BitVec 4) (detail : Word)
  /-- LEDGER_ENTRY (R377): The front end takes a report and makes or coalesces an entry, setting the ledger request. -/
  | ledgerEntry (t : Nat)
  /-- ENTRY_CLOSE (R379): A coalescing window passes and an entry closes, sending event records if its count exceeds 1. -/
  | entryClose (t : Nat) (k : Fin 1024)
  /-- SLOT_CAPTURE (R418): A write of FLT_SEL copies a RAM ledger slot into FLT_REC. -/
  | slotCapture (t : Nat) (m : Master) (sel : Fin 3) (slot : Fin 1024)
  /-- POWER_ON_RESET (R386): VAO falls below 2.45 V; full reset including AOI. -/
  | powerOnReset (t : Nat)
  /-- BROWN_OUT_RESET (R386): VIN stays below 2.55 V for 10 µs and the device resets. -/
  | brownOutReset (t : Nat)
  /-- RAIL_RESET (R386): An internal rail leaves its range for 10 µs and the device resets. -/
  | railReset (t : Nat)
  /-- RESET_N (R386): RESET_N is held low for 1 µs and the device resets. -/
  | resetN (t : Nat)
  /-- SAFE_WDOG_EXPIRY (R387): The safe-state watchdog expires and resets the device unless a stage holds LOW_ON. -/
  | safeWdogExpiry (t : Nat)
  /-- COLD_BOOT (R388): Rails regulate, the reference qualifies and reset is released; device time starts. -/
  | coldBoot (t vin vfab : Nat) (x : BootInputs)
  /-- VIN_HIGH (R386): VIN rises above 5.6 V and SUPPLY is reported. -/
  | vinHigh (t vin : Nat)
  /-- SPEED_MONITOR (R392): A fabric speed monitor measures the speed factor k. -/
  | speedMonitor (t : Nat) (z : Fin 4) (k : BitVec 16)
  /-- VFAB_STEP (R392): The adaptive fabric rail controller steps VFAB by 10 mV. -/
  | vfabStep (t : Nat) (reached : Bool)
  /-- FQI_TC_UPDATE (R390): The temperature correction of the reference is renewed. -/
  | fqiTcUpdate (t : Nat)
  /-- SLEEP_REQUEST (R393): The safety controller requests sleep; the device enters sleep or refuses with NOT_STOPPED. -/
  | sleepRequest (t : Nat)
  /-- WAKE (R394): A wake source wakes the device and device time advances. -/
  | wake (t : Nat) (e : WakeEdges) (can : BitVec 8) (perst : Bool) (slept : Nat)
  /-- TEMP_READING (R395): A temperature sensor renews its reading; maxima and derating update. -/
  | tempReading (t : Nat) (n : Fin 57) (temp : Word)
  /-- TEMP_CROSS_CHECK (R396): Each sensor is compared with its neighbour median; disagreement is reported and fenced. -/
  | tempCrossCheck (t : Nat)
  /-- BROKEN_LIVE_CLEAR (R127): A broken-line condition of a position port ends, such as a differential pair regaining its
  magnitude or the excitation leaving current limit, and broken_live clears. -/
  | brokenLiveClear (t : Nat) (i : Fin 6) (b : BreakSign)
  /-- RECEIVE_ERROR (R327): A CAN controller detects a bus error while receiving; REC rises and the controller may become error-
  passive. -/
  | receiveError (t : Nat) (c : Fin 8) (e : RxError)
  /-- PCIE_LINK_UP (R394): The PCI Express link trains and comes up; HI_LINK.up sets and the device stops driving WAKE low. -/
  | pcieLinkUp (t : Nat) (x : LinkChange)
  /-- SLEEP_ENTRY_DONE (R393): Sleep entry completes after queue pairs drained, Imset flushed its journals and ledger, and the
  link entered L2, and the rails are lowered. -/
  | sleepEntryDone (t : Nat)
  deriving DecidableEq, Repr

end Sys2Proof
end

