-- ==== Sys2Proof/Decode.lean ====
section
/-! DEFINITION. The commands that a word spells. The rows of spec/opcode_table.json give no bits: a command is an event at the block's
edge, named by its row, and no word of bits stands for it. -/

namespace Sys2Proof

/-- The command whose bits are `w`: none, since no row of the table gives bits (log entry 3). -/
def decodeTableWord (_nbits _w : Nat) : Option Instr := none

end Sys2Proof
end

