-- ==== Sys2Proof/Config.lean ====
section
/-! DEFINITION. What an implementation fixes and the spec leaves open, and the free values: constants without a body, so
that no proof can see them and every claim holds whatever they are. -/

namespace Sys2Proof

/-- A value that the spec leaves open, taken by number (log entry 4). -/
opaque Config.freeWord : Nat → BitVec 32

/-- The build number of the running Imset firmware (DEV_VERSION.fw_build: "This manual does not fix its value"). -/
opaque Config.fwBuild : BitVec 16

/-- SHAKE256 of FIPS 202 (R32, R348, R353): byte n of the output for a message. The spec names it and does not define it. -/
opaque Config.shake256 : List Byte → Nat → Byte

/-- The bytes of the device's identity public key (R353: 64 bytes, per device). -/
opaque Config.identityKey : Nat → Byte

/-- The detail of a report of this unit kind and status word where no rule states one (R375). -/
opaque Config.reportDetail : Nat → Nat → BitVec 32

/-- The status word of a comparator's report, which R111 does not name. -/
opaque Config.crossingCode : BitVec 8

/-- The status word of a bank's uncorrectable read, which R294 does not name. -/
opaque Config.bankErrorCode : BitVec 8

/-- Where VCP lies within its 4 V (R65: 88 V ±2 V), as a number of millivolts modulo 4,001. -/
opaque Config.vcpTrim : BitVec 16

/-- Where the value that the observers use for 2π lies within one unit of its 36th decimal place (log entry 67). -/
opaque Config.piTail : Nat

/-- The value of 2π that the observers compute ωn with (R138): 2π to 36 decimal places, and open beyond them. -/
def Config.twoPi : Rat := (6283185307179586476925286766559005768 + (Config.piTail % 1000 : Nat) / 1000) / 10 ^ 36

/-- The status word of the event of a compare's crossing, which R142 does not name. -/
opaque Config.compareCode : BitVec 8

/-- Whether the resolver angle is rounded to 16 bits, or truncated (R136 does not say). -/
opaque Config.roundsAngle : Bool

/-- The status words that chapter 12 does not name: 0 the second mismatch of one window (R273), 1 the end of the grace time
(R277), 2 more transients than the limit (R274), 3 a failed injection test (R278). -/
opaque Config.safetyCode : Nat → BitVec 8

/-- KMAC256 of NIST SP 800-185: key, input, customisation string, output length in bytes; byte n of the output. The spec names it and
does not define it. -/
opaque Config.kmacByte : List Byte → List Byte → String → Nat → Nat → Byte

/-- AES-256-GCM: key, nonce, additional data, plaintext; byte n of the ciphertext followed by the 16-byte tag. -/
opaque Config.gcmSealByte : List Byte → List Byte → List Byte → List Byte → Nat → Byte

/-- AES-256-GCM: key, nonce, additional data, ciphertext followed by the tag: whether the tag checks. -/
opaque Config.gcmChecks : List Byte → List Byte → List Byte → List Byte → Bool

/-- AES-256-GCM: key, nonce, additional data, ciphertext followed by the tag: byte n of the plaintext. -/
opaque Config.gcmOpenByte : List Byte → List Byte → List Byte → List Byte → Nat → Byte

/-- The status word of the report that a CAN controller makes at its entry into ERROR_PASSIVE, which R327 does not name. -/
opaque Config.passiveCode : BitVec 8

/-- SLH-DSA-SHAKE-256s of FIPS 205: does a signature check for a key, a message and a context? -/
opaque Config.slhVerify : List Byte → List Byte → String → List Byte → Bool

/-- Worterno's public key, whose digest OTP holds (R347, R348). -/
opaque Config.worternoKey : List Byte

/-- The bytes of Worterno's signature over the identity (R353: 29,792 bytes). -/
opaque Config.identityCert : Nat → Byte

/-- The bytes of the device identity's signature (R354: 49,856 bytes) over a message with a context. -/
opaque Config.identitySign : List Byte → String → Nat → Byte

/-- The bytes of the ML-KEM-1024 encapsulation key that the entropy source gives at the boot of this count (R354). -/
opaque Config.kemKey : Nat → Nat → Byte

/-- Decapsulation with the key of the boot of this count (FIPS 203): the shared secret of a ciphertext. -/
opaque Config.kemDecaps : Nat → List Byte → List Byte

/-- The device storage key in OTP (R347). -/
opaque Config.storageKey : List Byte

/-- The wrapping of the key store (R346, R359), whose algorithm and format are not given: storage key, slot, key; byte n of the wrapped key. -/
opaque Config.keyWrap : List Byte → Nat → List Byte → Nat → Byte

/-- The ledger key in OTP (R347, R365). -/
opaque Config.ledgerKey : List Byte

/-- Status words that chapter 16 does not name. Of reports of Imset: 0 a flash write error, 1 a broken link of the ledger chain, 2 a
trial image that failed, 3 a rejected write of a configuration. Of completions: 4 an OTP burn that failed its read-back, 5 a write
where both slots of a kind are in use. -/
opaque Config.imsetCode : Nat → BitVec 8

/-- What makes up for the deviation of the device's own reference from global time, in parts in 10^9 (R37); its bound is R389's. -/
opaque Config.refDeviation : Int

/-- The age in seconds at which Imset refreshes a flash sector: 5 years (R367), whose length in seconds is not given. -/
opaque Config.refreshAge : Nat

/-- The 32-bit address by which the copies of the safety controller name a place (R267, R269); the spec gives no address map of theirs. -/
opaque Config.scAddress : ScPlace → BitVec 32

/-- The place that a 32-bit address of the copies names, if it names one. -/
opaque Config.scPlace : BitVec 32 → Option ScPlace

/-- Where the safety firmware starts (R278); the spec gives no address. -/
opaque Config.firmwareEntry : BitVec 32

end Sys2Proof
end

