-- ==== Sys2Proof/Machine/Bits.lean ====
section
/-! DEFINITION. Bit fields, signed readings, saturation and rounding, which every chapter uses. -/

namespace Sys2Proof.Machine

/-- The bits [lo + width − 1 : lo] of a word, as a number. -/
def getBits (w : Word) (lo width : Nat) : Nat := (w.extractLsb' lo width).toNat

/-- The mask of bits [lo + width − 1 : lo]. -/
def bitMask (lo width : Nat) : Word := BitVec.ofNat 32 ((2 ^ width - 1) * 2 ^ lo)

/-- A word with the low bits of `v` in bits [lo + width − 1 : lo] and every other bit as before. -/
def putBits (w : Word) (lo width v : Nat) : Word :=
  (w &&& ~~~(bitMask lo width)) ||| (BitVec.ofNat 32 (v % 2 ^ width * 2 ^ lo))

/-- A number of `width` bits read as two's complement. -/
def signed (width v : Nat) : Int := if 2 ^ (width - 1) ≤ v % 2 ^ width then (v % 2 ^ width : Int) - 2 ^ width else v % 2 ^ width

/-- The two's complement bits of an integer, as a number of `width` bits. -/
def unsigned (width : Nat) (v : Int) : Nat := (v % 2 ^ width).toNat

/-- The nearest limit of [lo, hi] where a value lies outside it (R5). -/
def clampInt (lo hi v : Int) : Int := if v < lo then lo else if hi < v then hi else v

/-- The quotient rounded to nearest, halves towards positive (R417). The divisor is positive. -/
def roundDiv (num den : Int) : Int := (2 * num + den) / (2 * den)

/-- Does a value lie outside the signed 32-bit range (R5)? -/
def outOf32 (v : Int) : Bool := v < -2147483648 || 2147483647 < v

/-- A signed value saturated to a 32-bit word, as R5 saturates Q16.16. -/
def sat32 (v : Int) : Word := BitVec.ofInt 32 (clampInt (-2147483648) 2147483647 v)

/-- Test bit `k` of a number. -/
def bitOf (v k : Nat) : Bool := v / 2 ^ k % 2 == 1

/-- 1 for true, 0 for false. -/
def b2n (b : Bool) : Nat := if b then 1 else 0

/-- The low half of a 64-bit value. -/
def lowWord (v : Nat) : Word := BitVec.ofNat 32 v

/-- The high half of a 64-bit value. -/
def highWord (v : Nat) : Word := BitVec.ofNat 32 (v / 2 ^ 32)

end Sys2Proof.Machine
end

