-- ==== Sys2Proof/Machine/Codes.lean ====
section
/-! DEFINITION. Status words (R10, R11 and the status-word tables of the chapters) and unit kind codes (R12), by name. -/

namespace Sys2Proof.Machine

namespace Code
def OK : Nat := 0x00
def LENGTH : Nat := 0x01
def RANGE : Nat := 0x02
def RANGE_VALUE : Nat := 0x03
def CLAIMED : Nat := 0x04
def FENCED : Nat := 0x05
def FENCED_WRITE : Nat := 0x06
def SEALED : Nat := 0x07
def DEADLINE : Nat := 0x08
def SPEED_HIGH : Nat := 0x09
def NO_ACK : Nat := 0x0A
def BUS_OFF : Nat := 0x0B
def ARB_LOST : Nat := 0x0C
def BIT_ERROR : Nat := 0x0D
def FORM_ERROR : Nat := 0x0E
def STUFF_ERROR : Nat := 0x0F
def CRC_ERROR : Nat := 0x10
def MISSED_WINDOW : Nat := 0x11
def AUTH : Nat := 0x12
def STALE : Nat := 0x13
def BEHIND : Nat := 0x14
def BAND_HOLD : Nat := 0x15
def WINDOW_SHORT : Nat := 0x16
def INTERLOCK : Nat := 0x17
def UVLO : Nat := 0x18
def GATE_MISMATCH : Nat := 0x19
def CHOPPER_OPEN : Nat := 0x1A
def PLAUS : Nat := 0x1B
def SAT : Nat := 0x1C
def SWAP_CLAMP : Nat := 0x1D
def ILLEGAL : Nat := 0x1E
def DRIFT : Nat := 0x1F
def REPEATER_LAG : Nat := 0x20
def BROKEN : Nat := 0x21
def OVERFLOW : Nat := 0x22
def LOST : Nat := 0x23
def TRANSIENT : Nat := 0x24
def INPUT_PATH : Nat := 0x25
def NOT_SEALED : Nat := 0x26
def NOT_STOPPED : Nat := 0x27
def LINK_DOWN : Nat := 0x28
def SEG_TIMEOUT : Nat := 0x29
def STAGE_RUNNING : Nat := 0x2A
def DAC_MISMATCH : Nat := 0x2B
def INPUT_LATE : Nat := 0x2C
def NO_CATCH : Nat := 0x2D
def UNCONTROLLED : Nat := 0x2E
def CONNECTOR : Nat := 0x2F
def NO_GRID : Nat := 0x30
def BUS_LOW : Nat := 0x31
def OVER_VOLTAGE : Nat := 0x32
def REFUSED : Nat := 0x33
def SIMPLEX : Nat := 0x34
def WATCHDOG : Nat := 0x35
def NOT_OWNER : Nat := 0x36
def NO_SESSION : Nat := 0x37
def VERSION_LOW : Nat := 0x38
def OTP_FULL : Nat := 0x39
def TRIPPED : Nat := 0x3A
def ISLAND_LOST : Nat := 0x3B
def SAFE_ENTRY : Nat := 0x3C
def OVER_TEMP : Nat := 0x3D
def SENSOR_DISAGREE : Nat := 0x3E
def LIFE_LIMIT : Nat := 0x3F
def SUPPLY : Nat := 0x40
/-- A status word where the spec names none for the event: open, and one of the words the spec assigns (0x00 to 0x40;
log entry 66): R11 leaves every other value unassigned. -/
def ofFree (c : BitVec 8) : Nat := c.toNat % 0x41
/-- Is it a status word R11 assigns? -/
def assigned (n : Nat) : Bool := Nat.ble n 0x40
end Code

/-! Unit kind codes (R12). -/
namespace Kind
def port : Nat := 0x01
def stage : Nat := 0x02
def pulseGen : Nat := 0x03
def carrier : Nat := 0x04
def podConv : Nat := 0x05
def logicConv : Nat := 0x06
def winMon : Nat := 0x07
def podCmp : Nat := 0x08
def edgeFlag : Nat := 0x09
def stopwork : Nat := 0x0A
def posPort : Nat := 0x0B
def repeater : Nat := 0x0C
def observer : Nat := 0x0D
def engine : Nat := 0x0E
def loop : Nat := 0x0F
def safety : Nat := 0x10
def bank : Nat := 0x11
def can : Nat := 0x12
def flow : Nat := 0x13
def queue : Nat := 0x14
def temp : Nat := 0x15
def island : Nat := 0x16
def imset : Nat := 0x17
def ringDma : Nat := 0x18
def crypto : Nat := 0x19
def trigger : Nat := 0x1A
def device : Nat := 0x1B
/-- Is it a unit kind R12 assigns? -/
def assigned (n : Nat) : Bool := Nat.ble 1 n && Nat.ble n 0x1B
end Kind

/-! Fault classes (R370). -/
namespace Cls
def state : Nat := 0
def report : Nat := 1
def c : Nat := 2
def s : Nat := 3
def d : Nat := 4
end Cls

/-! Device states (R30). -/
namespace DevSt
def boot : Nat := 1
def setup : Nat := 2
def sealing : Nat := 3
def sealed : Nat := 4
def safe : Nat := 5
end DevSt

/-! Rejection reasons of FAB_WRITE_ERR.reason (R23). -/
namespace Reason
def value : Nat := 1
def sealed : Nat := 2
def cls : Nat := 3
def unmapped : Nat := 4
def width : Nat := 5
def fenced : Nat := 6
end Reason

end Sys2Proof.Machine
end

