-- ==== Sys2Proof/Machine/Table.lean ====
section
/-! DEFINITION. Sparse tables: a list of (key, value) pairs in one canonical form. Keys rise strictly and no entry
equals what an unlisted key reads as, so that equal tables are equal data. Every register file, table memory, bank and
per-unit record of the state is one of these. -/

namespace Sys2Proof.Machine

/-- A table from numbers to values of a type: its entries, keys strictly rising. -/
abbrev Tbl (α : Type) := List (Nat × α)

variable {α : Type}

/-- What key `k` reads as: its entry, or the default of the key. -/
def Tbl.get (d : Nat → α) : Tbl α → Nat → α
  | [], k => d k
  | (j, v) :: r, k => if k = j then v else Tbl.get d r k

/-- Remove every entry of key `k`. -/
def Tbl.erase : Tbl α → Nat → Tbl α
  | [], _ => []
  | (j, v) :: r, k => if j = k then Tbl.erase r k else (j, v) :: Tbl.erase r k

/-- Insert an entry before the first larger key. -/
def Tbl.insert : Tbl α → Nat → α → Tbl α
  | [], k, v => [(k, v)]
  | (j, w) :: r, k, v => if k < j then (k, v) :: (j, w) :: r else (j, w) :: Tbl.insert r k v

/-- Make key `k` read `v`; a value equal to the default is not listed. -/
def Tbl.set [DecidableEq α] (d : Nat → α) (t : Tbl α) (k : Nat) (v : α) : Tbl α :=
  if v = d k then Tbl.erase t k else Tbl.insert (Tbl.erase t k) k v

/-- The canonical form: keys strictly rising, no entry equal to its key's default. -/
abbrev Tbl.Wf (d : Nat → α) (t : Tbl α) : Prop :=
  t.Pairwise (fun a b => a.1 < b.1) ∧ ∀ e ∈ t, e.2 ≠ d e.1

end Sys2Proof.Machine
end

