-- ==== Sys2Proof/Machine/Fields.lean ====
section
/-! DEFINITION. Every field of every SETUP register, by name: the byte offset of instance 0, the strides of its
indices, the number of its instances, its lowest bit and its width, as the field tables of the register summaries of spec/ give them (R1, R2).
`F.<REGISTER>_<field>` is the field and `F.<REGISTER>` the whole register. -/

namespace Sys2Proof.Machine

/-- A field of a register: where instance (i, j) of the register lies and which bits the field takes. -/
structure Fd where
  base : Nat
  n1 : Nat
  s1 : Nat
  n2 : Nat
  s2 : Nat
  lo : Nat
  width : Nat
  deriving DecidableEq, Repr

/-- The SETUP byte offset of instance (i, j) of the register a field belongs to. An index beyond the instances names none of
them and counts modulo their number, so that no access by a field leaves its register. -/
def Fd.off (f : Fd) (i j : Nat) : Nat := f.base + f.s1 * (i % f.n1) + f.s2 * (j % f.n2)

namespace F

/-! FAB_WRITE_ERR (spec/01_architecture.md, class V) -/
def FAB_WRITE_ERR : Fd := ⟨0x1000, 1, 0x0, 1, 0x0, 0, 32⟩
def FAB_WRITE_ERR_offset : Fd := ⟨0x1000, 1, 0x0, 1, 0x0, 0, 21⟩
def FAB_WRITE_ERR_reason : Fd := ⟨0x1000, 1, 0x0, 1, 0x0, 24, 4⟩
def FAB_WRITE_ERR_master : Fd := ⟨0x1000, 1, 0x0, 1, 0x0, 28, 2⟩
def FAB_WRITE_ERR_more : Fd := ⟨0x1000, 1, 0x0, 1, 0x0, 30, 1⟩
def FAB_WRITE_ERR_valid : Fd := ⟨0x1000, 1, 0x0, 1, 0x0, 31, 1⟩

/-! FAB_WRITE_DATA (spec/01_architecture.md, class V) -/
def FAB_WRITE_DATA : Fd := ⟨0x1004, 1, 0x0, 1, 0x0, 0, 32⟩

/-! FAB_WRITE_CNT (spec/01_architecture.md, class V) -/
def FAB_WRITE_CNT : Fd := ⟨0x1008, 1, 0x0, 1, 0x0, 0, 32⟩

/-! DEV_CLAIM_SEL (spec/01_architecture.md, class H) -/
def DEV_CLAIM_SEL : Fd := ⟨0x100, 1, 0x0, 1, 0x0, 0, 32⟩
def DEV_CLAIM_SEL_kind : Fd := ⟨0x100, 1, 0x0, 1, 0x0, 0, 4⟩
def DEV_CLAIM_SEL_index : Fd := ⟨0x100, 1, 0x0, 1, 0x0, 4, 12⟩

/-! DEV_CLAIM_HOLDER (spec/01_architecture.md, class V) -/
def DEV_CLAIM_HOLDER : Fd := ⟨0x104, 1, 0x0, 1, 0x0, 0, 32⟩
def DEV_CLAIM_HOLDER_unit_kind : Fd := ⟨0x104, 1, 0x0, 1, 0x0, 0, 8⟩
def DEV_CLAIM_HOLDER_unit_index : Fd := ⟨0x104, 1, 0x0, 1, 0x0, 8, 8⟩
def DEV_CLAIM_HOLDER_held : Fd := ⟨0x104, 1, 0x0, 1, 0x0, 16, 1⟩
def DEV_CLAIM_HOLDER_contested : Fd := ⟨0x104, 1, 0x0, 1, 0x0, 17, 1⟩

/-! DEV_CONFLICT_CNT (spec/01_architecture.md, class V) -/
def DEV_CONFLICT_CNT : Fd := ⟨0x108, 1, 0x0, 1, 0x0, 0, 32⟩
def DEV_CONFLICT_CNT_unresolved : Fd := ⟨0x108, 1, 0x0, 1, 0x0, 0, 16⟩
def DEV_CONFLICT_CNT_failed : Fd := ⟨0x108, 1, 0x0, 1, 0x0, 16, 16⟩

/-! DEV_CONFLICT (spec/01_architecture.md, class V) -/
def DEV_CONFLICT : Fd := ⟨0x110, 16, 0x4, 1, 0x0, 0, 32⟩
def DEV_CONFLICT_kind : Fd := ⟨0x110, 16, 0x4, 1, 0x0, 0, 4⟩
def DEV_CONFLICT_index : Fd := ⟨0x110, 16, 0x4, 1, 0x0, 4, 12⟩
def DEV_CONFLICT_unit_kind : Fd := ⟨0x110, 16, 0x4, 1, 0x0, 16, 8⟩
def DEV_CONFLICT_unit_index : Fd := ⟨0x110, 16, 0x4, 1, 0x0, 24, 8⟩

/-! DEV_ID (spec/01_architecture.md, class V) -/
def DEV_ID : Fd := ⟨0x0, 1, 0x0, 1, 0x0, 0, 32⟩
def DEV_ID_part : Fd := ⟨0x0, 1, 0x0, 1, 0x0, 0, 16⟩
def DEV_ID_vendor : Fd := ⟨0x0, 1, 0x0, 1, 0x0, 16, 16⟩

/-! DEV_VERSION (spec/01_architecture.md, class V) -/
def DEV_VERSION : Fd := ⟨0x4, 1, 0x0, 1, 0x0, 0, 32⟩
def DEV_VERSION_fw_build : Fd := ⟨0x4, 1, 0x0, 1, 0x0, 0, 16⟩
def DEV_VERSION_silicon_minor : Fd := ⟨0x4, 1, 0x0, 1, 0x0, 16, 8⟩
def DEV_VERSION_silicon_major : Fd := ⟨0x4, 1, 0x0, 1, 0x0, 24, 8⟩

/-! DEV_CAPS (spec/01_architecture.md, class V) -/
def DEV_CAPS : Fd := ⟨0x8, 1, 0x0, 1, 0x0, 0, 32⟩
def DEV_CAPS_ports : Fd := ⟨0x8, 1, 0x0, 1, 0x0, 0, 7⟩
def DEV_CAPS_stages : Fd := ⟨0x8, 1, 0x0, 1, 0x0, 7, 5⟩
def DEV_CAPS_engines : Fd := ⟨0x8, 1, 0x0, 1, 0x0, 12, 4⟩
def DEV_CAPS_can : Fd := ⟨0x8, 1, 0x0, 1, 0x0, 16, 4⟩
def DEV_CAPS_queue_pairs : Fd := ⟨0x8, 1, 0x0, 1, 0x0, 20, 7⟩

/-! DEV_STATE (spec/01_architecture.md, class V) -/
def DEV_STATE : Fd := ⟨0x10, 1, 0x0, 1, 0x0, 0, 32⟩
def DEV_STATE_state : Fd := ⟨0x10, 1, 0x0, 1, 0x0, 0, 4⟩

/-! DEV_SEAL_CTRL (spec/01_architecture.md, class H) -/
def DEV_SEAL_CTRL : Fd := ⟨0x14, 1, 0x0, 1, 0x0, 0, 32⟩
def DEV_SEAL_CTRL_seal : Fd := ⟨0x14, 1, 0x0, 1, 0x0, 0, 1⟩
def DEV_SEAL_CTRL_outcome : Fd := ⟨0x14, 1, 0x0, 1, 0x0, 8, 8⟩
def DEV_SEAL_CTRL_detail_kind : Fd := ⟨0x14, 1, 0x0, 1, 0x0, 16, 4⟩
def DEV_SEAL_CTRL_detail_index : Fd := ⟨0x14, 1, 0x0, 1, 0x0, 20, 12⟩

/-! DEV_MEASURE (spec/01_architecture.md, class V) -/
def DEV_MEASURE : Fd := ⟨0x40, 16, 0x4, 1, 0x0, 0, 32⟩

/-! TB_TIME_LO (spec/02_timebase_and_pulse_generators.md, class V) -/
def TB_TIME_LO : Fd := ⟨0x10000, 1, 0x0, 1, 0x0, 0, 32⟩

/-! TB_TIME_HI (spec/02_timebase_and_pulse_generators.md, class V) -/
def TB_TIME_HI : Fd := ⟨0x10004, 1, 0x0, 1, 0x0, 0, 32⟩

/-! TB_SYNC_CFG (spec/02_timebase_and_pulse_generators.md, class S) -/
def TB_SYNC_CFG : Fd := ⟨0x10008, 1, 0x0, 1, 0x0, 0, 32⟩
def TB_SYNC_CFG_sync : Fd := ⟨0x10008, 1, 0x0, 1, 0x0, 0, 2⟩
def TB_SYNC_CFG_slew_ppm : Fd := ⟨0x10008, 1, 0x0, 1, 0x0, 8, 8⟩
def TB_SYNC_CFG_step_limit : Fd := ⟨0x10008, 1, 0x0, 1, 0x0, 16, 16⟩

/-! TB_GT_STAT (spec/02_timebase_and_pulse_generators.md, class V) -/
def TB_GT_STAT : Fd := ⟨0x1000C, 1, 0x0, 1, 0x0, 0, 32⟩
def TB_GT_STAT_state : Fd := ⟨0x1000C, 1, 0x0, 1, 0x0, 0, 3⟩
def TB_GT_STAT_jump : Fd := ⟨0x1000C, 1, 0x0, 1, 0x0, 3, 1⟩
def TB_GT_STAT_gt_valid : Fd := ⟨0x1000C, 1, 0x0, 1, 0x0, 4, 1⟩

/-! TB_GT_OFFSET_LO (spec/02_timebase_and_pulse_generators.md, class V) -/
def TB_GT_OFFSET_LO : Fd := ⟨0x10010, 1, 0x0, 1, 0x0, 0, 32⟩

/-! TB_GT_OFFSET_HI (spec/02_timebase_and_pulse_generators.md, class V) -/
def TB_GT_OFFSET_HI : Fd := ⟨0x10014, 1, 0x0, 1, 0x0, 0, 32⟩

/-! TB_EPOCH_LO (spec/02_timebase_and_pulse_generators.md, class S) -/
def TB_EPOCH_LO : Fd := ⟨0x10018, 1, 0x0, 1, 0x0, 0, 32⟩

/-! TB_EPOCH_HI (spec/02_timebase_and_pulse_generators.md, class S) -/
def TB_EPOCH_HI : Fd := ⟨0x1001C, 1, 0x0, 1, 0x0, 0, 32⟩

/-! TB_GT_ERR (spec/02_timebase_and_pulse_generators.md, class V) -/
def TB_GT_ERR : Fd := ⟨0x10020, 1, 0x0, 1, 0x0, 0, 32⟩

/-! TB_RATE (spec/02_timebase_and_pulse_generators.md, class V) -/
def TB_RATE : Fd := ⟨0x10024, 1, 0x0, 1, 0x0, 0, 32⟩

/-! TB_STG_CFG (spec/02_timebase_and_pulse_generators.md, class S) -/
def TB_STG_CFG : Fd := ⟨0x10100, 21, 0x40, 1, 0x0, 0, 32⟩
def TB_STG_CFG_enable : Fd := ⟨0x10100, 21, 0x40, 1, 0x0, 0, 1⟩
def TB_STG_CFG_count_mode : Fd := ⟨0x10100, 21, 0x40, 1, 0x0, 1, 2⟩
def TB_STG_CFG_beat_div : Fd := ⟨0x10100, 21, 0x40, 1, 0x0, 3, 2⟩
def TB_STG_CFG_source : Fd := ⟨0x10100, 21, 0x40, 1, 0x0, 5, 2⟩
def TB_STG_CFG_sync : Fd := ⟨0x10100, 21, 0x40, 1, 0x0, 7, 2⟩

/-! TB_STG_PERIOD (spec/02_timebase_and_pulse_generators.md, class S) -/
def TB_STG_PERIOD : Fd := ⟨0x10104, 21, 0x40, 1, 0x0, 0, 32⟩
def TB_STG_PERIOD_period : Fd := ⟨0x10104, 21, 0x40, 1, 0x0, 0, 20⟩

/-! TB_STG_PHASE (spec/02_timebase_and_pulse_generators.md, class S) -/
def TB_STG_PHASE : Fd := ⟨0x10108, 21, 0x40, 1, 0x0, 0, 32⟩
def TB_STG_PHASE_phase : Fd := ⟨0x10108, 21, 0x40, 1, 0x0, 0, 20⟩

/-! TB_STG_LIMIT (spec/02_timebase_and_pulse_generators.md, class S) -/
def TB_STG_LIMIT : Fd := ⟨0x1010C, 21, 0x40, 1, 0x0, 0, 32⟩
def TB_STG_LIMIT_latest : Fd := ⟨0x1010C, 21, 0x40, 1, 0x0, 0, 20⟩
def TB_STG_LIMIT_guard : Fd := ⟨0x1010C, 21, 0x40, 1, 0x0, 20, 12⟩

/-! TB_STG_RUN (spec/02_timebase_and_pulse_generators.md, class T) -/
def TB_STG_RUN : Fd := ⟨0x10110, 21, 0x40, 1, 0x0, 0, 32⟩
def TB_STG_RUN_run : Fd := ⟨0x10110, 21, 0x40, 1, 0x0, 0, 1⟩

/-! TB_STG_COMMIT (spec/02_timebase_and_pulse_generators.md, class T) -/
def TB_STG_COMMIT : Fd := ⟨0x10114, 21, 0x40, 1, 0x0, 0, 32⟩
def TB_STG_COMMIT_update : Fd := ⟨0x10114, 21, 0x40, 1, 0x0, 0, 16⟩
def TB_STG_COMMIT_status : Fd := ⟨0x10114, 21, 0x40, 1, 0x0, 16, 8⟩
def TB_STG_COMMIT_pending : Fd := ⟨0x10114, 21, 0x40, 1, 0x0, 24, 1⟩

/-! TB_STG_UPD_LO (spec/02_timebase_and_pulse_generators.md, class V) -/
def TB_STG_UPD_LO : Fd := ⟨0x10118, 21, 0x40, 1, 0x0, 0, 32⟩

/-! TB_STG_UPD_HI (spec/02_timebase_and_pulse_generators.md, class V) -/
def TB_STG_UPD_HI : Fd := ⟨0x1011C, 21, 0x40, 1, 0x0, 0, 32⟩

/-! TB_STG_STAT (spec/02_timebase_and_pulse_generators.md, class V) -/
def TB_STG_STAT : Fd := ⟨0x10120, 21, 0x40, 1, 0x0, 0, 32⟩
def TB_STG_STAT_running : Fd := ⟨0x10120, 21, 0x40, 1, 0x0, 0, 1⟩
def TB_STG_STAT_tripped : Fd := ⟨0x10120, 21, 0x40, 1, 0x0, 1, 1⟩
def TB_STG_STAT_fenced : Fd := ⟨0x10120, 21, 0x40, 1, 0x0, 2, 1⟩
def TB_STG_STAT_deadline : Fd := ⟨0x10120, 21, 0x40, 1, 0x0, 3, 1⟩
def TB_STG_STAT_late : Fd := ⟨0x10120, 21, 0x40, 1, 0x0, 4, 1⟩
def TB_STG_STAT_stale : Fd := ⟨0x10120, 21, 0x40, 1, 0x0, 5, 1⟩
def TB_STG_STAT_stale_cnt : Fd := ⟨0x10120, 21, 0x40, 1, 0x0, 16, 16⟩

/-! TB_STG_PLAN_A (spec/02_timebase_and_pulse_generators.md, class V) -/
def TB_STG_PLAN_A : Fd := ⟨0x10124, 21, 0x40, 1, 0x0, 0, 32⟩
def TB_STG_PLAN_A_instant : Fd := ⟨0x10124, 21, 0x40, 1, 0x0, 0, 20⟩
def TB_STG_PLAN_A_placed : Fd := ⟨0x10124, 21, 0x40, 1, 0x0, 31, 1⟩

/-! TB_STG_PLAN_B (spec/02_timebase_and_pulse_generators.md, class V) -/
def TB_STG_PLAN_B : Fd := ⟨0x10128, 21, 0x40, 1, 0x0, 0, 32⟩
def TB_STG_PLAN_B_instant : Fd := ⟨0x10128, 21, 0x40, 1, 0x0, 0, 20⟩
def TB_STG_PLAN_B_placed : Fd := ⟨0x10128, 21, 0x40, 1, 0x0, 31, 1⟩

/-! TB_TRIG_CFG (spec/02_timebase_and_pulse_generators.md, class S) -/
def TB_TRIG_CFG : Fd := ⟨0x11000, 48, 0x10, 1, 0x0, 0, 32⟩
def TB_TRIG_CFG_enable : Fd := ⟨0x11000, 48, 0x10, 1, 0x0, 0, 1⟩
def TB_TRIG_CFG_stage : Fd := ⟨0x11000, 48, 0x10, 1, 0x0, 1, 5⟩
def TB_TRIG_CFG_mode : Fd := ⟨0x11000, 48, 0x10, 1, 0x0, 6, 3⟩
def TB_TRIG_CFG_dir : Fd := ⟨0x11000, 48, 0x10, 1, 0x0, 9, 2⟩

/-! TB_TRIG_POS (spec/02_timebase_and_pulse_generators.md, class S) -/
def TB_TRIG_POS : Fd := ⟨0x11004, 48, 0x10, 1, 0x0, 0, 32⟩
def TB_TRIG_POS_pos : Fd := ⟨0x11004, 48, 0x10, 1, 0x0, 0, 28⟩

/-! TB_TRIG_CNT (spec/02_timebase_and_pulse_generators.md, class V) -/
def TB_TRIG_CNT : Fd := ⟨0x11008, 48, 0x10, 1, 0x0, 0, 32⟩

/-! PG_CFG (spec/02_timebase_and_pulse_generators.md, class S) -/
def PG_CFG : Fd := ⟨0x14000, 64, 0x100, 1, 0x0, 0, 32⟩
def PG_CFG_mode : Fd := ⟨0x14000, 64, 0x100, 1, 0x0, 0, 3⟩

/-! PG_DT (spec/02_timebase_and_pulse_generators.md, class S) -/
def PG_DT : Fd := ⟨0x14004, 64, 0x100, 1, 0x0, 0, 32⟩
def PG_DT_dt_rise : Fd := ⟨0x14004, 64, 0x100, 1, 0x0, 0, 15⟩
def PG_DT_dt_fall : Fd := ⟨0x14004, 64, 0x100, 1, 0x0, 16, 15⟩

/-! PG_MINP (spec/02_timebase_and_pulse_generators.md, class S) -/
def PG_MINP : Fd := ⟨0x14008, 64, 0x100, 1, 0x0, 0, 32⟩
def PG_MINP_min_pulse : Fd := ⟨0x14008, 64, 0x100, 1, 0x0, 0, 16⟩

/-! PG_SHD_A (spec/02_timebase_and_pulse_generators.md, class T) -/
def PG_SHD_A : Fd := ⟨0x14010, 64, 0x100, 1, 0x0, 0, 32⟩
def PG_SHD_A_value : Fd := ⟨0x14010, 64, 0x100, 1, 0x0, 0, 28⟩

/-! PG_SHD_B (spec/02_timebase_and_pulse_generators.md, class T) -/
def PG_SHD_B : Fd := ⟨0x14014, 64, 0x100, 1, 0x0, 0, 32⟩
def PG_SHD_B_value : Fd := ⟨0x14014, 64, 0x100, 1, 0x0, 0, 28⟩

/-! PG_CMP_A (spec/02_timebase_and_pulse_generators.md, class V) -/
def PG_CMP_A : Fd := ⟨0x14018, 64, 0x100, 1, 0x0, 0, 32⟩
def PG_CMP_A_value : Fd := ⟨0x14018, 64, 0x100, 1, 0x0, 0, 28⟩

/-! PG_CMP_B (spec/02_timebase_and_pulse_generators.md, class V) -/
def PG_CMP_B : Fd := ⟨0x1401C, 64, 0x100, 1, 0x0, 0, 32⟩
def PG_CMP_B_value : Fd := ⟨0x1401C, 64, 0x100, 1, 0x0, 0, 28⟩

/-! PG_STAT (spec/02_timebase_and_pulse_generators.md, class V) -/
def PG_STAT : Fd := ⟨0x14020, 64, 0x100, 1, 0x0, 0, 32⟩
def PG_STAT_out_high : Fd := ⟨0x14020, 64, 0x100, 1, 0x0, 0, 1⟩
def PG_STAT_out_low : Fd := ⟨0x14020, 64, 0x100, 1, 0x0, 1, 1⟩
def PG_STAT_sat : Fd := ⟨0x14020, 64, 0x100, 1, 0x0, 2, 1⟩
def PG_STAT_minp : Fd := ⟨0x14020, 64, 0x100, 1, 0x0, 3, 1⟩
def PG_STAT_both_req : Fd := ⟨0x14020, 64, 0x100, 1, 0x0, 4, 1⟩
def PG_STAT_trip_hold : Fd := ⟨0x14020, 64, 0x100, 1, 0x0, 5, 1⟩

/-! PP_CFG (spec/03_power_ports.md, class S) -/
def PP_CFG : Fd := ⟨0x18000, 64, 0x100, 1, 0x0, 0, 32⟩
def PP_CFG_enable : Fd := ⟨0x18000, 64, 0x100, 1, 0x0, 0, 1⟩
def PP_CFG_von : Fd := ⟨0x18000, 64, 0x100, 1, 0x0, 1, 3⟩
def PP_CFG_voff : Fd := ⟨0x18000, 64, 0x100, 1, 0x0, 4, 2⟩
def PP_CFG_miller_clamp : Fd := ⟨0x18000, 64, 0x100, 1, 0x0, 6, 1⟩
def PP_CFG_uvlo : Fd := ⟨0x18000, 64, 0x100, 1, 0x0, 8, 5⟩
def PP_CFG_light : Fd := ⟨0x18000, 64, 0x100, 1, 0x0, 31, 1⟩

/-! PP_ON_SEG (spec/03_power_ports.md, class S) -/
def PP_ON_SEG : Fd := ⟨0x18004, 64, 0x100, 1, 0x0, 0, 32⟩
def PP_ON_SEG_i1 : Fd := ⟨0x18004, 64, 0x100, 1, 0x0, 0, 5⟩
def PP_ON_SEG_i2 : Fd := ⟨0x18004, 64, 0x100, 1, 0x0, 5, 5⟩
def PP_ON_SEG_i3 : Fd := ⟨0x18004, 64, 0x100, 1, 0x0, 10, 5⟩
def PP_ON_SEG_detect : Fd := ⟨0x18004, 64, 0x100, 1, 0x0, 16, 2⟩
def PP_ON_SEG_pd_ratio : Fd := ⟨0x18004, 64, 0x100, 1, 0x0, 18, 2⟩

/-! PP_OFF_SEG (spec/03_power_ports.md, class S) -/
def PP_OFF_SEG : Fd := ⟨0x18008, 64, 0x100, 1, 0x0, 0, 32⟩
def PP_OFF_SEG_i1 : Fd := ⟨0x18008, 64, 0x100, 1, 0x0, 0, 5⟩
def PP_OFF_SEG_i2 : Fd := ⟨0x18008, 64, 0x100, 1, 0x0, 5, 5⟩
def PP_OFF_SEG_i3 : Fd := ⟨0x18008, 64, 0x100, 1, 0x0, 10, 5⟩
def PP_OFF_SEG_detect : Fd := ⟨0x18008, 64, 0x100, 1, 0x0, 16, 2⟩
def PP_OFF_SEG_pd_ratio : Fd := ⟨0x18008, 64, 0x100, 1, 0x0, 18, 2⟩

/-! PP_SEG_TIME_ON (spec/03_power_ports.md, class S) -/
def PP_SEG_TIME_ON : Fd := ⟨0x1800C, 64, 0x100, 1, 0x0, 0, 32⟩
def PP_SEG_TIME_ON_s1_max : Fd := ⟨0x1800C, 64, 0x100, 1, 0x0, 0, 8⟩
def PP_SEG_TIME_ON_s2_max : Fd := ⟨0x1800C, 64, 0x100, 1, 0x0, 8, 10⟩

/-! PP_SEG_TIME_OFF (spec/03_power_ports.md, class S) -/
def PP_SEG_TIME_OFF : Fd := ⟨0x18010, 64, 0x100, 1, 0x0, 0, 32⟩
def PP_SEG_TIME_OFF_s1_max : Fd := ⟨0x18010, 64, 0x100, 1, 0x0, 0, 8⟩
def PP_SEG_TIME_OFF_s2_max : Fd := ⟨0x18010, 64, 0x100, 1, 0x0, 8, 10⟩

/-! PP_MON (spec/03_power_ports.md, class S) -/
def PP_MON : Fd := ⟨0x18014, 64, 0x100, 1, 0x0, 0, 32⟩
def PP_MON_window : Fd := ⟨0x18014, 64, 0x100, 1, 0x0, 0, 10⟩
def PP_MON_enable : Fd := ⟨0x18014, 64, 0x100, 1, 0x0, 10, 1⟩

/-! PP_CHOP (spec/03_power_ports.md, class S) -/
def PP_CHOP : Fd := ⟨0x18018, 64, 0x100, 1, 0x0, 0, 32⟩
def PP_CHOP_enable : Fd := ⟨0x18018, 64, 0x100, 1, 0x0, 0, 1⟩
def PP_CHOP_sw : Fd := ⟨0x18018, 64, 0x100, 1, 0x0, 1, 1⟩
def PP_CHOP_delay : Fd := ⟨0x18018, 64, 0x100, 1, 0x0, 2, 12⟩
def PP_CHOP_threshold : Fd := ⟨0x18018, 64, 0x100, 1, 0x0, 14, 12⟩

/-! PP_STAT (spec/03_power_ports.md, class V) -/
def PP_STAT : Fd := ⟨0x18020, 64, 0x100, 1, 0x0, 0, 32⟩
def PP_STAT_gate_hi : Fd := ⟨0x18020, 64, 0x100, 1, 0x0, 0, 1⟩
def PP_STAT_gate_lo : Fd := ⟨0x18020, 64, 0x100, 1, 0x0, 1, 1⟩
def PP_STAT_uvlo_hi_live : Fd := ⟨0x18020, 64, 0x100, 1, 0x0, 2, 1⟩
def PP_STAT_uvlo_lo_live : Fd := ⟨0x18020, 64, 0x100, 1, 0x0, 3, 1⟩
def PP_STAT_interlock_live : Fd := ⟨0x18020, 64, 0x100, 1, 0x0, 4, 1⟩
def PP_STAT_link_live : Fd := ⟨0x18020, 64, 0x100, 1, 0x0, 5, 1⟩
def PP_STAT_fenced : Fd := ⟨0x18020, 64, 0x100, 1, 0x0, 6, 1⟩
def PP_STAT_uvlo : Fd := ⟨0x18020, 64, 0x100, 1, 0x0, 8, 1⟩
def PP_STAT_interlock : Fd := ⟨0x18020, 64, 0x100, 1, 0x0, 9, 1⟩
def PP_STAT_gate_mismatch : Fd := ⟨0x18020, 64, 0x100, 1, 0x0, 10, 1⟩
def PP_STAT_seg_timeout : Fd := ⟨0x18020, 64, 0x100, 1, 0x0, 11, 1⟩
def PP_STAT_chopper_open : Fd := ⟨0x18020, 64, 0x100, 1, 0x0, 12, 1⟩
def PP_STAT_link_down : Fd := ⟨0x18020, 64, 0x100, 1, 0x0, 13, 1⟩
def PP_STAT_supply_high : Fd := ⟨0x18020, 64, 0x100, 1, 0x0, 14, 1⟩

/-! PP_CNT (spec/03_power_ports.md, class V) -/
def PP_CNT : Fd := ⟨0x18024, 64, 0x100, 1, 0x0, 0, 32⟩
def PP_CNT_uvlo : Fd := ⟨0x18024, 64, 0x100, 1, 0x0, 0, 8⟩
def PP_CNT_interlock : Fd := ⟨0x18024, 64, 0x100, 1, 0x0, 8, 8⟩
def PP_CNT_mismatch : Fd := ⟨0x18024, 64, 0x100, 1, 0x0, 16, 8⟩
def PP_CNT_chopper_open : Fd := ⟨0x18024, 64, 0x100, 1, 0x0, 24, 8⟩

/-! PP_SUPPLY (spec/03_power_ports.md, class V) -/
def PP_SUPPLY : Fd := ⟨0x18028, 64, 0x100, 1, 0x0, 0, 32⟩
def PP_SUPPLY_hi_supply : Fd := ⟨0x18028, 64, 0x100, 1, 0x0, 0, 12⟩
def PP_SUPPLY_lo_supply : Fd := ⟨0x18028, 64, 0x100, 1, 0x0, 16, 12⟩

/-! PP_EDGE_ON (spec/03_power_ports.md, class V) -/
def PP_EDGE_ON : Fd := ⟨0x1802C, 64, 0x100, 1, 0x0, 0, 32⟩
def PP_EDGE_ON_seg1 : Fd := ⟨0x1802C, 64, 0x100, 1, 0x0, 0, 8⟩
def PP_EDGE_ON_seg2 : Fd := ⟨0x1802C, 64, 0x100, 1, 0x0, 8, 10⟩
def PP_EDGE_ON_seg3 : Fd := ⟨0x1802C, 64, 0x100, 1, 0x0, 18, 8⟩
def PP_EDGE_ON_timeout : Fd := ⟨0x1802C, 64, 0x100, 1, 0x0, 26, 1⟩
def PP_EDGE_ON_switch : Fd := ⟨0x1802C, 64, 0x100, 1, 0x0, 27, 1⟩

/-! PP_EDGE_OFF (spec/03_power_ports.md, class V) -/
def PP_EDGE_OFF : Fd := ⟨0x18030, 64, 0x100, 1, 0x0, 0, 32⟩
def PP_EDGE_OFF_seg1 : Fd := ⟨0x18030, 64, 0x100, 1, 0x0, 0, 8⟩
def PP_EDGE_OFF_seg2 : Fd := ⟨0x18030, 64, 0x100, 1, 0x0, 8, 10⟩
def PP_EDGE_OFF_seg3 : Fd := ⟨0x18030, 64, 0x100, 1, 0x0, 18, 8⟩
def PP_EDGE_OFF_timeout : Fd := ⟨0x18030, 64, 0x100, 1, 0x0, 26, 1⟩
def PP_EDGE_OFF_switch : Fd := ⟨0x18030, 64, 0x100, 1, 0x0, 27, 1⟩

/-! SH_CFG (spec/04_shunt_sensing.md, class S) -/
def SH_CFG : Fd := ⟨0x1C000, 21, 0x200, 1, 0x0, 0, 32⟩
def SH_CFG_mode : Fd := ⟨0x1C000, 21, 0x200, 1, 0x0, 0, 3⟩
def SH_CFG_gain : Fd := ⟨0x1C000, 21, 0x200, 1, 0x0, 4, 2⟩
def SH_CFG_half : Fd := ⟨0x1C000, 21, 0x200, 1, 0x0, 8, 1⟩

/-! SH_WIN (spec/04_shunt_sensing.md, class S) -/
def SH_WIN : Fd := ⟨0x1C004, 21, 0x200, 1, 0x0, 0, 32⟩
def SH_WIN_blank : Fd := ⟨0x1C004, 21, 0x200, 1, 0x0, 0, 10⟩
def SH_WIN_settle : Fd := ⟨0x1C004, 21, 0x200, 1, 0x0, 10, 10⟩
def SH_WIN_accept : Fd := ⟨0x1C004, 21, 0x200, 1, 0x0, 20, 10⟩

/-! SH_FIX_A (spec/04_shunt_sensing.md, class S) -/
def SH_FIX_A : Fd := ⟨0x1C008, 21, 0x200, 1, 0x0, 0, 32⟩
def SH_FIX_A_offset : Fd := ⟨0x1C008, 21, 0x200, 1, 0x0, 0, 20⟩
def SH_FIX_A_enable : Fd := ⟨0x1C008, 21, 0x200, 1, 0x0, 31, 1⟩

/-! SH_FIX_B (spec/04_shunt_sensing.md, class S) -/
def SH_FIX_B : Fd := ⟨0x1C00C, 21, 0x200, 1, 0x0, 0, 32⟩
def SH_FIX_B_offset : Fd := ⟨0x1C00C, 21, 0x200, 1, 0x0, 0, 20⟩
def SH_FIX_B_enable : Fd := ⟨0x1C00C, 21, 0x200, 1, 0x0, 31, 1⟩

/-! SH_SCALE (spec/04_shunt_sensing.md, class S) -/
def SH_SCALE : Fd := ⟨0x1C010, 21, 0x200, 1, 0x0, 0, 32⟩

/-! SH_DV_SCALE (spec/04_shunt_sensing.md, class S) -/
def SH_DV_SCALE : Fd := ⟨0x1C014, 21, 0x200, 1, 0x0, 0, 32⟩

/-! SH_PV_SCALE (spec/04_shunt_sensing.md, class S) -/
def SH_PV_SCALE : Fd := ⟨0x1C018, 21, 0x200, 1, 0x0, 0, 32⟩

/-! SH_SHORT (spec/04_shunt_sensing.md, class S) -/
def SH_SHORT : Fd := ⟨0x1C01C, 21, 0x200, 1, 0x0, 0, 32⟩
def SH_SHORT_short_limit : Fd := ⟨0x1C01C, 21, 0x200, 1, 0x0, 0, 8⟩

/-! SH_CAL_CTRL (spec/04_shunt_sensing.md, class T) -/
def SH_CAL_CTRL : Fd := ⟨0x1C020, 21, 0x200, 1, 0x0, 0, 32⟩
def SH_CAL_CTRL_op : Fd := ⟨0x1C020, 21, 0x200, 1, 0x0, 0, 2⟩
def SH_CAL_CTRL_busy : Fd := ⟨0x1C020, 21, 0x200, 1, 0x0, 8, 1⟩
def SH_CAL_CTRL_status : Fd := ⟨0x1C020, 21, 0x200, 1, 0x0, 16, 8⟩

/-! SH_CAL_RES (spec/04_shunt_sensing.md, class V) -/
def SH_CAL_RES : Fd := ⟨0x1C024, 21, 0x200, 1, 0x0, 0, 32⟩
def SH_CAL_RES_offset : Fd := ⟨0x1C024, 21, 0x200, 1, 0x0, 0, 16⟩
def SH_CAL_RES_gain_err : Fd := ⟨0x1C024, 21, 0x200, 1, 0x0, 16, 16⟩

/-! SH_RES_A (spec/04_shunt_sensing.md, class V) -/
def SH_RES_A : Fd := ⟨0x1C030, 21, 0x200, 1, 0x0, 0, 32⟩

/-! SH_RES_B (spec/04_shunt_sensing.md, class V) -/
def SH_RES_B : Fd := ⟨0x1C040, 21, 0x200, 1, 0x0, 0, 32⟩

/-! SH_INFO_A (spec/04_shunt_sensing.md, class V) -/
def SH_INFO_A : Fd := ⟨0x1C034, 21, 0x200, 1, 0x0, 0, 32⟩
def SH_INFO_A_phase : Fd := ⟨0x1C034, 21, 0x200, 1, 0x0, 0, 2⟩
def SH_INFO_A_neg : Fd := ⟨0x1C034, 21, 0x200, 1, 0x0, 2, 1⟩
def SH_INFO_A_placed : Fd := ⟨0x1C034, 21, 0x200, 1, 0x0, 3, 1⟩
def SH_INFO_A_accepted : Fd := ⟨0x1C034, 21, 0x200, 1, 0x0, 4, 1⟩
def SH_INFO_A_sat : Fd := ⟨0x1C034, 21, 0x200, 1, 0x0, 5, 1⟩
def SH_INFO_A_trip : Fd := ⟨0x1C034, 21, 0x200, 1, 0x0, 6, 1⟩
def SH_INFO_A_shifted : Fd := ⟨0x1C034, 21, 0x200, 1, 0x0, 7, 1⟩
def SH_INFO_A_update : Fd := ⟨0x1C034, 21, 0x200, 1, 0x0, 16, 16⟩

/-! SH_INFO_B (spec/04_shunt_sensing.md, class V) -/
def SH_INFO_B : Fd := ⟨0x1C044, 21, 0x200, 1, 0x0, 0, 32⟩
def SH_INFO_B_phase : Fd := ⟨0x1C044, 21, 0x200, 1, 0x0, 0, 2⟩
def SH_INFO_B_neg : Fd := ⟨0x1C044, 21, 0x200, 1, 0x0, 2, 1⟩
def SH_INFO_B_placed : Fd := ⟨0x1C044, 21, 0x200, 1, 0x0, 3, 1⟩
def SH_INFO_B_accepted : Fd := ⟨0x1C044, 21, 0x200, 1, 0x0, 4, 1⟩
def SH_INFO_B_sat : Fd := ⟨0x1C044, 21, 0x200, 1, 0x0, 5, 1⟩
def SH_INFO_B_trip : Fd := ⟨0x1C044, 21, 0x200, 1, 0x0, 6, 1⟩
def SH_INFO_B_shifted : Fd := ⟨0x1C044, 21, 0x200, 1, 0x0, 7, 1⟩
def SH_INFO_B_update : Fd := ⟨0x1C044, 21, 0x200, 1, 0x0, 16, 16⟩

/-! SH_STAMP_A_LO (spec/04_shunt_sensing.md, class V) -/
def SH_STAMP_A_LO : Fd := ⟨0x1C038, 21, 0x200, 1, 0x0, 0, 32⟩

/-! SH_STAMP_A_HI (spec/04_shunt_sensing.md, class V) -/
def SH_STAMP_A_HI : Fd := ⟨0x1C03C, 21, 0x200, 1, 0x0, 0, 32⟩

/-! SH_STAMP_B_LO (spec/04_shunt_sensing.md, class V) -/
def SH_STAMP_B_LO : Fd := ⟨0x1C048, 21, 0x200, 1, 0x0, 0, 32⟩

/-! SH_STAMP_B_HI (spec/04_shunt_sensing.md, class V) -/
def SH_STAMP_B_HI : Fd := ⟨0x1C04C, 21, 0x200, 1, 0x0, 0, 32⟩

/-! SH_DV (spec/04_shunt_sensing.md, class V) -/
def SH_DV : Fd := ⟨0x1C050, 21, 0x200, 1, 0x0, 0, 32⟩

/-! SH_PV (spec/04_shunt_sensing.md, class V) -/
def SH_PV : Fd := ⟨0x1C054, 21, 0x200, 1, 0x0, 0, 32⟩

/-! SH_TN (spec/04_shunt_sensing.md, class V) -/
def SH_TN : Fd := ⟨0x1C058, 21, 0x200, 1, 0x0, 0, 32⟩
def SH_TN_code : Fd := ⟨0x1C058, 21, 0x200, 1, 0x0, 0, 14⟩

/-! SH_STAT (spec/04_shunt_sensing.md, class V) -/
def SH_STAT : Fd := ⟨0x1C05C, 21, 0x200, 1, 0x0, 0, 32⟩
def SH_STAT_short : Fd := ⟨0x1C05C, 21, 0x200, 1, 0x0, 0, 1⟩
def SH_STAT_accepted : Fd := ⟨0x1C05C, 21, 0x200, 1, 0x0, 1, 1⟩
def SH_STAT_sat : Fd := ⟨0x1C05C, 21, 0x200, 1, 0x0, 2, 1⟩
def SH_STAT_unplaced : Fd := ⟨0x1C05C, 21, 0x200, 1, 0x0, 3, 1⟩
def SH_STAT_short_run : Fd := ⟨0x1C05C, 21, 0x200, 1, 0x0, 4, 1⟩
def SH_STAT_run_len : Fd := ⟨0x1C05C, 21, 0x200, 1, 0x0, 8, 8⟩
def SH_STAT_short_cnt : Fd := ⟨0x1C05C, 21, 0x200, 1, 0x0, 16, 16⟩

/-! CV_CFG (spec/05_converters_and_window_monitors.md, class S) -/
def CV_CFG : Fd := ⟨0x20000, 6, 0x800, 1, 0x0, 0, 32⟩
def CV_CFG_mode : Fd := ⟨0x20000, 6, 0x800, 1, 0x0, 0, 2⟩
def CV_CFG_length : Fd := ⟨0x20000, 6, 0x800, 1, 0x0, 2, 5⟩
def CV_CFG_trigger : Fd := ⟨0x20000, 6, 0x800, 1, 0x0, 8, 6⟩
def CV_CFG_ow_every : Fd := ⟨0x20000, 6, 0x800, 1, 0x0, 16, 8⟩
def CV_CFG_ow_time : Fd := ⟨0x20000, 6, 0x800, 1, 0x0, 24, 8⟩

/-! CV_STAT (spec/05_converters_and_window_monitors.md, class V) -/
def CV_STAT : Fd := ⟨0x20004, 6, 0x800, 1, 0x0, 0, 32⟩
def CV_STAT_busy : Fd := ⟨0x20004, 6, 0x800, 1, 0x0, 0, 1⟩
def CV_STAT_urgent : Fd := ⟨0x20004, 6, 0x800, 1, 0x0, 1, 1⟩
def CV_STAT_entry : Fd := ⟨0x20004, 6, 0x800, 1, 0x0, 2, 4⟩
def CV_STAT_overrun : Fd := ⟨0x20004, 6, 0x800, 1, 0x0, 6, 1⟩
def CV_STAT_broken : Fd := ⟨0x20004, 6, 0x800, 1, 0x0, 7, 1⟩
def CV_STAT_dac_mismatch : Fd := ⟨0x20004, 6, 0x800, 1, 0x0, 8, 1⟩
def CV_STAT_overrun_cnt : Fd := ⟨0x20004, 6, 0x800, 1, 0x0, 16, 16⟩

/-! CV_URG (spec/05_converters_and_window_monitors.md, class T) -/
def CV_URG : Fd := ⟨0x20008, 6, 0x800, 1, 0x0, 0, 32⟩
def CV_URG_kind : Fd := ⟨0x20008, 6, 0x800, 1, 0x0, 0, 3⟩
def CV_URG_index : Fd := ⟨0x20008, 6, 0x800, 1, 0x0, 3, 6⟩
def CV_URG_busy : Fd := ⟨0x20008, 6, 0x800, 1, 0x0, 16, 1⟩
def CV_URG_status : Fd := ⟨0x20008, 6, 0x800, 1, 0x0, 24, 8⟩

/-! CV_URG_RES (spec/05_converters_and_window_monitors.md, class V) -/
def CV_URG_RES : Fd := ⟨0x2000C, 6, 0x800, 1, 0x0, 0, 32⟩
def CV_URG_RES_code : Fd := ⟨0x2000C, 6, 0x800, 1, 0x0, 0, 16⟩

/-! CV_ENT (spec/05_converters_and_window_monitors.md, class S) -/
def CV_ENT : Fd := ⟨0x20100, 6, 0x800, 16, 0x20, 0, 32⟩
def CV_ENT_kind : Fd := ⟨0x20100, 6, 0x800, 16, 0x20, 0, 3⟩
def CV_ENT_index : Fd := ⟨0x20100, 6, 0x800, 16, 0x20, 3, 6⟩
def CV_ENT_avg : Fd := ⟨0x20100, 6, 0x800, 16, 0x20, 9, 3⟩
def CV_ENT_ow : Fd := ⟨0x20100, 6, 0x800, 16, 0x20, 12, 3⟩
def CV_ENT_ow_limit : Fd := ⟨0x20100, 6, 0x800, 16, 0x20, 16, 10⟩

/-! CV_SCALE (spec/05_converters_and_window_monitors.md, class S) -/
def CV_SCALE : Fd := ⟨0x20104, 6, 0x800, 16, 0x20, 0, 32⟩

/-! CV_OFFS (spec/05_converters_and_window_monitors.md, class S) -/
def CV_OFFS : Fd := ⟨0x20108, 6, 0x800, 16, 0x20, 0, 32⟩
def CV_OFFS_offset : Fd := ⟨0x20108, 6, 0x800, 16, 0x20, 0, 18⟩

/-! CV_RES (spec/05_converters_and_window_monitors.md, class V) -/
def CV_RES : Fd := ⟨0x2010C, 6, 0x800, 16, 0x20, 0, 32⟩

/-! CV_RAW (spec/05_converters_and_window_monitors.md, class V) -/
def CV_RAW : Fd := ⟨0x20110, 6, 0x800, 16, 0x20, 0, 32⟩
def CV_RAW_code : Fd := ⟨0x20110, 6, 0x800, 16, 0x20, 0, 16⟩
def CV_RAW_valid : Fd := ⟨0x20110, 6, 0x800, 16, 0x20, 16, 1⟩
def CV_RAW_broken : Fd := ⟨0x20110, 6, 0x800, 16, 0x20, 17, 1⟩
def CV_RAW_sat : Fd := ⟨0x20110, 6, 0x800, 16, 0x20, 18, 1⟩
def CV_RAW_pass : Fd := ⟨0x20110, 6, 0x800, 16, 0x20, 24, 8⟩

/-! CV_STAMP (spec/05_converters_and_window_monitors.md, class V) -/
def CV_STAMP : Fd := ⟨0x20114, 6, 0x800, 16, 0x20, 0, 32⟩

/-! WM_CFG (spec/05_converters_and_window_monitors.md, class S) -/
def WM_CFG : Fd := ⟨0x24000, 24, 0x20, 1, 0x0, 0, 32⟩
def WM_CFG_input : Fd := ⟨0x24000, 24, 0x20, 1, 0x0, 0, 2⟩
def WM_CFG_index : Fd := ⟨0x24000, 24, 0x20, 1, 0x0, 2, 6⟩
def WM_CFG_latch : Fd := ⟨0x24000, 24, 0x20, 1, 0x0, 8, 2⟩
def WM_CFG_filt : Fd := ⟨0x24000, 24, 0x20, 1, 0x0, 10, 4⟩
def WM_CFG_hyst : Fd := ⟨0x24000, 24, 0x20, 1, 0x0, 14, 5⟩
def WM_CFG_en_lo : Fd := ⟨0x24000, 24, 0x20, 1, 0x0, 19, 1⟩
def WM_CFG_en_hi : Fd := ⟨0x24000, 24, 0x20, 1, 0x0, 20, 1⟩
def WM_CFG_route_lo : Fd := ⟨0x24000, 24, 0x20, 1, 0x0, 21, 1⟩
def WM_CFG_route_hi : Fd := ⟨0x24000, 24, 0x20, 1, 0x0, 22, 1⟩

/-! WM_THR (spec/05_converters_and_window_monitors.md, class S) -/
def WM_THR : Fd := ⟨0x24004, 24, 0x20, 1, 0x0, 0, 32⟩
def WM_THR_lo : Fd := ⟨0x24004, 24, 0x20, 1, 0x0, 0, 10⟩
def WM_THR_hi : Fd := ⟨0x24004, 24, 0x20, 1, 0x0, 16, 10⟩

/-! WM_PC_THR (spec/05_converters_and_window_monitors.md, class S) -/
def WM_PC_THR : Fd := ⟨0x24404, 28, 0x20, 1, 0x0, 0, 32⟩
def WM_PC_THR_lo : Fd := ⟨0x24404, 28, 0x20, 1, 0x0, 0, 10⟩
def WM_PC_THR_hi : Fd := ⟨0x24404, 28, 0x20, 1, 0x0, 16, 10⟩

/-! WM_LATCH (spec/05_converters_and_window_monitors.md, class T) -/
def WM_LATCH : Fd := ⟨0x24008, 24, 0x20, 1, 0x0, 0, 32⟩
def WM_LATCH_lo : Fd := ⟨0x24008, 24, 0x20, 1, 0x0, 0, 1⟩
def WM_LATCH_hi : Fd := ⟨0x24008, 24, 0x20, 1, 0x0, 1, 1⟩

/-! WM_PC_LATCH (spec/05_converters_and_window_monitors.md, class T) -/
def WM_PC_LATCH : Fd := ⟨0x24408, 28, 0x20, 1, 0x0, 0, 32⟩
def WM_PC_LATCH_lo : Fd := ⟨0x24408, 28, 0x20, 1, 0x0, 0, 1⟩
def WM_PC_LATCH_hi : Fd := ⟨0x24408, 28, 0x20, 1, 0x0, 1, 1⟩

/-! WM_STAT (spec/05_converters_and_window_monitors.md, class V) -/
def WM_STAT : Fd := ⟨0x2400C, 24, 0x20, 1, 0x0, 0, 32⟩
def WM_STAT_live_lo : Fd := ⟨0x2400C, 24, 0x20, 1, 0x0, 0, 1⟩
def WM_STAT_live_hi : Fd := ⟨0x2400C, 24, 0x20, 1, 0x0, 1, 1⟩
def WM_STAT_band_hold : Fd := ⟨0x2400C, 24, 0x20, 1, 0x0, 2, 1⟩
def WM_STAT_dac_err : Fd := ⟨0x2400C, 24, 0x20, 1, 0x0, 3, 1⟩
def WM_STAT_count : Fd := ⟨0x2400C, 24, 0x20, 1, 0x0, 16, 16⟩

/-! WM_PC_STAT (spec/05_converters_and_window_monitors.md, class V) -/
def WM_PC_STAT : Fd := ⟨0x2440C, 28, 0x20, 1, 0x0, 0, 32⟩
def WM_PC_STAT_live_lo : Fd := ⟨0x2440C, 28, 0x20, 1, 0x0, 0, 1⟩
def WM_PC_STAT_live_hi : Fd := ⟨0x2440C, 28, 0x20, 1, 0x0, 1, 1⟩
def WM_PC_STAT_band_hold : Fd := ⟨0x2440C, 28, 0x20, 1, 0x0, 2, 1⟩
def WM_PC_STAT_dac_err : Fd := ⟨0x2440C, 28, 0x20, 1, 0x0, 3, 1⟩
def WM_PC_STAT_count : Fd := ⟨0x2440C, 28, 0x20, 1, 0x0, 16, 16⟩

/-! WM_PC_CFG (spec/05_converters_and_window_monitors.md, class S) -/
def WM_PC_CFG : Fd := ⟨0x24400, 28, 0x20, 1, 0x0, 0, 32⟩
def WM_PC_CFG_latch : Fd := ⟨0x24400, 28, 0x20, 1, 0x0, 0, 2⟩
def WM_PC_CFG_filt : Fd := ⟨0x24400, 28, 0x20, 1, 0x0, 2, 4⟩
def WM_PC_CFG_hyst : Fd := ⟨0x24400, 28, 0x20, 1, 0x0, 6, 5⟩
def WM_PC_CFG_en_lo : Fd := ⟨0x24400, 28, 0x20, 1, 0x0, 11, 1⟩
def WM_PC_CFG_en_hi : Fd := ⟨0x24400, 28, 0x20, 1, 0x0, 12, 1⟩
def WM_PC_CFG_route_lo : Fd := ⟨0x24400, 28, 0x20, 1, 0x0, 13, 1⟩
def WM_PC_CFG_route_hi : Fd := ⟨0x24400, 28, 0x20, 1, 0x0, 14, 1⟩
def WM_PC_CFG_readback : Fd := ⟨0x24400, 28, 0x20, 1, 0x0, 15, 1⟩

/-! WM_EF_CFG (spec/05_converters_and_window_monitors.md, class S) -/
def WM_EF_CFG : Fd := ⟨0x24800, 8, 0x20, 1, 0x0, 0, 32⟩
def WM_EF_CFG_enable : Fd := ⟨0x24800, 8, 0x20, 1, 0x0, 0, 1⟩
def WM_EF_CFG_thr_mode : Fd := ⟨0x24800, 8, 0x20, 1, 0x0, 1, 2⟩
def WM_EF_CFG_thr : Fd := ⟨0x24800, 8, 0x20, 1, 0x0, 3, 10⟩
def WM_EF_CFG_hyst : Fd := ⟨0x24800, 8, 0x20, 1, 0x0, 13, 5⟩
def WM_EF_CFG_ratio : Fd := ⟨0x24800, 8, 0x20, 1, 0x0, 18, 10⟩

/-! WM_EF_GAP (spec/05_converters_and_window_monitors.md, class S) -/
def WM_EF_GAP : Fd := ⟨0x24804, 8, 0x20, 1, 0x0, 0, 32⟩
def WM_EF_GAP_gap : Fd := ⟨0x24804, 8, 0x20, 1, 0x0, 0, 16⟩

/-! WM_EF_RISE_LO (spec/05_converters_and_window_monitors.md, class V) -/
def WM_EF_RISE_LO : Fd := ⟨0x24808, 8, 0x20, 1, 0x0, 0, 32⟩

/-! WM_EF_RISE_HI (spec/05_converters_and_window_monitors.md, class V) -/
def WM_EF_RISE_HI : Fd := ⟨0x2480C, 8, 0x20, 1, 0x0, 0, 32⟩

/-! WM_EF_FALL_LO (spec/05_converters_and_window_monitors.md, class V) -/
def WM_EF_FALL_LO : Fd := ⟨0x24810, 8, 0x20, 1, 0x0, 0, 32⟩

/-! WM_EF_FALL_HI (spec/05_converters_and_window_monitors.md, class V) -/
def WM_EF_FALL_HI : Fd := ⟨0x24814, 8, 0x20, 1, 0x0, 0, 32⟩

/-! WM_EF_STAT (spec/05_converters_and_window_monitors.md, class V) -/
def WM_EF_STAT : Fd := ⟨0x24818, 8, 0x20, 1, 0x0, 0, 32⟩
def WM_EF_STAT_live : Fd := ⟨0x24818, 8, 0x20, 1, 0x0, 0, 1⟩
def WM_EF_STAT_band_hold : Fd := ⟨0x24818, 8, 0x20, 1, 0x0, 1, 1⟩
def WM_EF_STAT_rise : Fd := ⟨0x24818, 8, 0x20, 1, 0x0, 2, 1⟩
def WM_EF_STAT_fall : Fd := ⟨0x24818, 8, 0x20, 1, 0x0, 3, 1⟩
def WM_EF_STAT_blanked : Fd := ⟨0x24818, 8, 0x20, 1, 0x0, 4, 1⟩
def WM_EF_STAT_edges : Fd := ⟨0x24818, 8, 0x20, 1, 0x0, 16, 16⟩

/-! WM_SW_IN_CFG (spec/05_converters_and_window_monitors.md, class S) -/
def WM_SW_IN_CFG : Fd := ⟨0x24A00, 1, 0x0, 1, 0x0, 0, 32⟩
def WM_SW_IN_CFG_enable0 : Fd := ⟨0x24A00, 1, 0x0, 1, 0x0, 0, 1⟩
def WM_SW_IN_CFG_enable1 : Fd := ⟨0x24A00, 1, 0x0, 1, 0x0, 8, 1⟩
def WM_SW_IN_CFG_enable2 : Fd := ⟨0x24A00, 1, 0x0, 1, 0x0, 16, 1⟩
def WM_SW_IN_CFG_enable3 : Fd := ⟨0x24A00, 1, 0x0, 1, 0x0, 24, 1⟩
def WM_SW_IN_CFG_level0 : Fd := ⟨0x24A00, 1, 0x0, 1, 0x0, 1, 1⟩
def WM_SW_IN_CFG_level1 : Fd := ⟨0x24A00, 1, 0x0, 1, 0x0, 9, 1⟩
def WM_SW_IN_CFG_level2 : Fd := ⟨0x24A00, 1, 0x0, 1, 0x0, 17, 1⟩
def WM_SW_IN_CFG_level3 : Fd := ⟨0x24A00, 1, 0x0, 1, 0x0, 25, 1⟩
def WM_SW_IN_CFG_filt0 : Fd := ⟨0x24A00, 1, 0x0, 1, 0x0, 2, 4⟩
def WM_SW_IN_CFG_filt1 : Fd := ⟨0x24A00, 1, 0x0, 1, 0x0, 10, 4⟩
def WM_SW_IN_CFG_filt2 : Fd := ⟨0x24A00, 1, 0x0, 1, 0x0, 18, 4⟩
def WM_SW_IN_CFG_filt3 : Fd := ⟨0x24A00, 1, 0x0, 1, 0x0, 26, 4⟩

/-! WM_SW_IN_STAT (spec/05_converters_and_window_monitors.md, class V) -/
def WM_SW_IN_STAT : Fd := ⟨0x24A04, 1, 0x0, 1, 0x0, 0, 32⟩
def WM_SW_IN_STAT_live : Fd := ⟨0x24A04, 1, 0x0, 1, 0x0, 0, 4⟩
def WM_SW_IN_STAT_seen : Fd := ⟨0x24A04, 1, 0x0, 1, 0x0, 4, 4⟩

/-! WM_SW_HELD (spec/05_converters_and_window_monitors.md, class V) -/
def WM_SW_HELD : Fd := ⟨0x24A08, 1, 0x0, 1, 0x0, 0, 32⟩
def WM_SW_HELD_held : Fd := ⟨0x24A08, 1, 0x0, 1, 0x0, 0, 21⟩

/-! WM_SW_ACT (spec/05_converters_and_window_monitors.md, class S) -/
def WM_SW_ACT : Fd := ⟨0x24C00, 21, 0x40, 1, 0x0, 0, 32⟩
def WM_SW_ACT_action : Fd := ⟨0x24C00, 21, 0x40, 1, 0x0, 0, 2⟩
def WM_SW_ACT_low_delay : Fd := ⟨0x24C00, 21, 0x40, 1, 0x0, 2, 7⟩

/-! WM_SW_WM_ACT (spec/05_converters_and_window_monitors.md, class S) -/
def WM_SW_WM_ACT : Fd := ⟨0x24C04, 21, 0x40, 1, 0x0, 0, 32⟩
def WM_SW_WM_ACT_mask : Fd := ⟨0x24C04, 21, 0x40, 1, 0x0, 0, 24⟩

/-! WM_SW_WM_OFF (spec/05_converters_and_window_monitors.md, class S) -/
def WM_SW_WM_OFF : Fd := ⟨0x24C08, 21, 0x40, 1, 0x0, 0, 32⟩
def WM_SW_WM_OFF_mask : Fd := ⟨0x24C08, 21, 0x40, 1, 0x0, 0, 24⟩

/-! WM_SW_PC_ACT (spec/05_converters_and_window_monitors.md, class S) -/
def WM_SW_PC_ACT : Fd := ⟨0x24C0C, 21, 0x40, 1, 0x0, 0, 32⟩
def WM_SW_PC_ACT_mask : Fd := ⟨0x24C0C, 21, 0x40, 1, 0x0, 0, 28⟩

/-! WM_SW_PC_OFF (spec/05_converters_and_window_monitors.md, class S) -/
def WM_SW_PC_OFF : Fd := ⟨0x24C10, 21, 0x40, 1, 0x0, 0, 32⟩
def WM_SW_PC_OFF_mask : Fd := ⟨0x24C10, 21, 0x40, 1, 0x0, 0, 28⟩

/-! WM_SW_IN (spec/05_converters_and_window_monitors.md, class S) -/
def WM_SW_IN : Fd := ⟨0x24C14, 21, 0x40, 1, 0x0, 0, 32⟩
def WM_SW_IN_act : Fd := ⟨0x24C14, 21, 0x40, 1, 0x0, 0, 4⟩
def WM_SW_IN_off : Fd := ⟨0x24C14, 21, 0x40, 1, 0x0, 4, 4⟩

/-! WM_SW_CTRL (spec/05_converters_and_window_monitors.md, class T) -/
def WM_SW_CTRL : Fd := ⟨0x24C18, 21, 0x40, 1, 0x0, 0, 32⟩
def WM_SW_CTRL_cmd : Fd := ⟨0x24C18, 21, 0x40, 1, 0x0, 0, 2⟩
def WM_SW_CTRL_status : Fd := ⟨0x24C18, 21, 0x40, 1, 0x0, 8, 8⟩

/-! WM_SW_STAT (spec/05_converters_and_window_monitors.md, class V) -/
def WM_SW_STAT : Fd := ⟨0x24C1C, 21, 0x40, 1, 0x0, 0, 32⟩
def WM_SW_STAT_held : Fd := ⟨0x24C1C, 21, 0x40, 1, 0x0, 0, 1⟩
def WM_SW_STAT_action : Fd := ⟨0x24C1C, 21, 0x40, 1, 0x0, 1, 2⟩
def WM_SW_STAT_cause_kind : Fd := ⟨0x24C1C, 21, 0x40, 1, 0x0, 4, 4⟩
def WM_SW_STAT_cause_index : Fd := ⟨0x24C1C, 21, 0x40, 1, 0x0, 8, 8⟩
def WM_SW_STAT_count : Fd := ⟨0x24C1C, 21, 0x40, 1, 0x0, 16, 16⟩

/-! WM_SW_TIME_LO (spec/05_converters_and_window_monitors.md, class V) -/
def WM_SW_TIME_LO : Fd := ⟨0x24C20, 21, 0x40, 1, 0x0, 0, 32⟩

/-! WM_SW_TIME_HI (spec/05_converters_and_window_monitors.md, class V) -/
def WM_SW_TIME_HI : Fd := ⟨0x24C24, 21, 0x40, 1, 0x0, 0, 32⟩

/-! PS_CFG (spec/06_position_and_speed.md, class S) -/
def PS_CFG : Fd := ⟨0x28000, 6, 0x1000, 1, 0x0, 0, 32⟩
def PS_CFG_enable : Fd := ⟨0x28000, 6, 0x1000, 1, 0x0, 0, 1⟩
def PS_CFG_mode : Fd := ⟨0x28000, 6, 0x1000, 1, 0x0, 1, 3⟩
def PS_CFG_input : Fd := ⟨0x28000, 6, 0x1000, 1, 0x0, 4, 2⟩
def PS_CFG_invert : Fd := ⟨0x28000, 6, 0x1000, 1, 0x0, 6, 1⟩
def PS_CFG_filt : Fd := ⟨0x28000, 6, 0x1000, 1, 0x0, 8, 4⟩

/-! PS_CPR (spec/06_position_and_speed.md, class S) -/
def PS_CPR : Fd := ⟨0x28004, 6, 0x1000, 1, 0x0, 0, 32⟩
def PS_CPR_cpr : Fd := ⟨0x28004, 6, 0x1000, 1, 0x0, 0, 25⟩

/-! PS_IDX_CFG (spec/06_position_and_speed.md, class S) -/
def PS_IDX_CFG : Fd := ⟨0x28008, 6, 0x1000, 1, 0x0, 0, 32⟩
def PS_IDX_CFG_idx_en : Fd := ⟨0x28008, 6, 0x1000, 1, 0x0, 0, 1⟩
def PS_IDX_CFG_gate : Fd := ⟨0x28008, 6, 0x1000, 1, 0x0, 1, 2⟩
def PS_IDX_CFG_drift_tol : Fd := ⟨0x28008, 6, 0x1000, 1, 0x0, 8, 8⟩

/-! PS_ILL_CFG (spec/06_position_and_speed.md, class S) -/
def PS_ILL_CFG : Fd := ⟨0x2800C, 6, 0x1000, 1, 0x0, 0, 32⟩
def PS_ILL_CFG_ill_limit : Fd := ⟨0x2800C, 6, 0x1000, 1, 0x0, 0, 8⟩
def PS_ILL_CFG_ill_window : Fd := ⟨0x2800C, 6, 0x1000, 1, 0x0, 8, 16⟩

/-! PS_HALL_CFG (spec/06_position_and_speed.md, class S) -/
def PS_HALL_CFG : Fd := ⟨0x28010, 6, 0x1000, 1, 0x0, 0, 32⟩
def PS_HALL_CFG_hall_pairs : Fd := ⟨0x28010, 6, 0x1000, 1, 0x0, 0, 6⟩
def PS_HALL_CFG_rev : Fd := ⟨0x28010, 6, 0x1000, 1, 0x0, 6, 1⟩
def PS_HALL_CFG_sec_pairs : Fd := ⟨0x28010, 6, 0x1000, 1, 0x0, 8, 6⟩
def PS_HALL_CFG_sec_rev : Fd := ⟨0x28010, 6, 0x1000, 1, 0x0, 14, 1⟩

/-! PS_SSI_CFG (spec/06_position_and_speed.md, class S) -/
def PS_SSI_CFG : Fd := ⟨0x28014, 6, 0x1000, 1, 0x0, 0, 32⟩
def PS_SSI_CFG_frame : Fd := ⟨0x28014, 6, 0x1000, 1, 0x0, 0, 6⟩
def PS_SSI_CFG_st_bits : Fd := ⟨0x28014, 6, 0x1000, 1, 0x0, 6, 5⟩
def PS_SSI_CFG_mt_bits : Fd := ⟨0x28014, 6, 0x1000, 1, 0x0, 11, 5⟩
def PS_SSI_CFG_code : Fd := ⟨0x28014, 6, 0x1000, 1, 0x0, 16, 1⟩
def PS_SSI_CFG_parity : Fd := ⟨0x28014, 6, 0x1000, 1, 0x0, 17, 2⟩
def PS_SSI_CFG_err_en : Fd := ⟨0x28014, 6, 0x1000, 1, 0x0, 19, 1⟩
def PS_SSI_CFG_err_pos : Fd := ⟨0x28014, 6, 0x1000, 1, 0x0, 20, 6⟩
def PS_SSI_CFG_err_level : Fd := ⟨0x28014, 6, 0x1000, 1, 0x0, 26, 1⟩

/-! PS_SSI_TIM (spec/06_position_and_speed.md, class S) -/
def PS_SSI_TIM : Fd := ⟨0x28018, 6, 0x1000, 1, 0x0, 0, 32⟩
def PS_SSI_TIM_bit_time : Fd := ⟨0x28018, 6, 0x1000, 1, 0x0, 0, 11⟩
def PS_SSI_TIM_delay_comp : Fd := ⟨0x28018, 6, 0x1000, 1, 0x0, 11, 8⟩
def PS_SSI_TIM_recovery : Fd := ⟨0x28018, 6, 0x1000, 1, 0x0, 19, 8⟩

/-! PS_SSI_RUN (spec/06_position_and_speed.md, class S) -/
def PS_SSI_RUN : Fd := ⟨0x2801C, 6, 0x1000, 1, 0x0, 0, 32⟩
def PS_SSI_RUN_start : Fd := ⟨0x2801C, 6, 0x1000, 1, 0x0, 0, 2⟩
def PS_SSI_RUN_trigger : Fd := ⟨0x2801C, 6, 0x1000, 1, 0x0, 2, 6⟩
def PS_SSI_RUN_period : Fd := ⟨0x2801C, 6, 0x1000, 1, 0x0, 8, 16⟩

/-! PS_JUMP (spec/06_position_and_speed.md, class S) -/
def PS_JUMP : Fd := ⟨0x28020, 6, 0x1000, 1, 0x0, 0, 32⟩
def PS_JUMP_jump : Fd := ⟨0x28020, 6, 0x1000, 1, 0x0, 0, 24⟩

/-! PS_RES_CFG (spec/06_position_and_speed.md, class S) -/
def PS_RES_CFG : Fd := ⟨0x28024, 6, 0x1000, 1, 0x0, 0, 32⟩
def PS_RES_CFG_res_pairs : Fd := ⟨0x28024, 6, 0x1000, 1, 0x0, 0, 4⟩
def PS_RES_CFG_freq : Fd := ⟨0x28024, 6, 0x1000, 1, 0x0, 4, 8⟩
def PS_RES_CFG_amp : Fd := ⟨0x28024, 6, 0x1000, 1, 0x0, 12, 6⟩
def PS_RES_CFG_demod_phase : Fd := ⟨0x28024, 6, 0x1000, 1, 0x0, 18, 8⟩

/-! PS_RES_AMP (spec/06_position_and_speed.md, class S) -/
def PS_RES_AMP : Fd := ⟨0x28028, 6, 0x1000, 1, 0x0, 0, 32⟩
def PS_RES_AMP_amp_lo : Fd := ⟨0x28028, 6, 0x1000, 1, 0x0, 0, 8⟩
def PS_RES_AMP_amp_hi : Fd := ⟨0x28028, 6, 0x1000, 1, 0x0, 8, 8⟩

/-! PS_OBS_CFG (spec/06_position_and_speed.md, class S) -/
def PS_OBS_CFG : Fd := ⟨0x2802C, 6, 0x1000, 1, 0x0, 0, 32⟩
def PS_OBS_CFG_bw : Fd := ⟨0x2802C, 6, 0x1000, 1, 0x0, 0, 13⟩
def PS_OBS_CFG_pole_pairs : Fd := ⟨0x2802C, 6, 0x1000, 1, 0x0, 13, 6⟩
def PS_OBS_CFG_still : Fd := ⟨0x2802C, 6, 0x1000, 1, 0x0, 19, 12⟩

/-! PS_OBS_LOCK (spec/06_position_and_speed.md, class S) -/
def PS_OBS_LOCK : Fd := ⟨0x28030, 6, 0x1000, 1, 0x0, 0, 32⟩
def PS_OBS_LOCK_lock_tol : Fd := ⟨0x28030, 6, 0x1000, 1, 0x0, 0, 16⟩

/-! PS_LATCH_CFG (spec/06_position_and_speed.md, class S) -/
def PS_LATCH_CFG : Fd := ⟨0x28034, 6, 0x1000, 1, 0x0, 0, 32⟩
def PS_LATCH_CFG_enable : Fd := ⟨0x28034, 6, 0x1000, 1, 0x0, 0, 1⟩
def PS_LATCH_CFG_trigger : Fd := ⟨0x28034, 6, 0x1000, 1, 0x0, 1, 6⟩

/-! PS_OBS_EOFS (spec/06_position_and_speed.md, class T) -/
def PS_OBS_EOFS : Fd := ⟨0x28038, 6, 0x1000, 1, 0x0, 0, 32⟩

/-! PS_CTRL (spec/06_position_and_speed.md, class T) -/
def PS_CTRL : Fd := ⟨0x2803C, 6, 0x1000, 1, 0x0, 0, 32⟩
def PS_CTRL_cmd : Fd := ⟨0x2803C, 6, 0x1000, 1, 0x0, 0, 2⟩
def PS_CTRL_status : Fd := ⟨0x2803C, 6, 0x1000, 1, 0x0, 8, 8⟩
def PS_CTRL_pending : Fd := ⟨0x2803C, 6, 0x1000, 1, 0x0, 16, 1⟩

/-! PS_PRESET_LO (spec/06_position_and_speed.md, class T) -/
def PS_PRESET_LO : Fd := ⟨0x28040, 6, 0x1000, 1, 0x0, 0, 32⟩

/-! PS_PRESET_HI (spec/06_position_and_speed.md, class T) -/
def PS_PRESET_HI : Fd := ⟨0x28044, 6, 0x1000, 1, 0x0, 0, 32⟩

/-! PS_STAT (spec/06_position_and_speed.md, class V) -/
def PS_STAT : Fd := ⟨0x28048, 6, 0x1000, 1, 0x0, 0, 32⟩
def PS_STAT_running : Fd := ⟨0x28048, 6, 0x1000, 1, 0x0, 0, 1⟩
def PS_STAT_locked : Fd := ⟨0x28048, 6, 0x1000, 1, 0x0, 1, 1⟩
def PS_STAT_indexed : Fd := ⟨0x28048, 6, 0x1000, 1, 0x0, 2, 1⟩
def PS_STAT_fenced : Fd := ⟨0x28048, 6, 0x1000, 1, 0x0, 3, 1⟩
def PS_STAT_still : Fd := ⟨0x28048, 6, 0x1000, 1, 0x0, 4, 1⟩
def PS_STAT_broken_live : Fd := ⟨0x28048, 6, 0x1000, 1, 0x0, 5, 1⟩
def PS_STAT_illegal : Fd := ⟨0x28048, 6, 0x1000, 1, 0x0, 8, 1⟩
def PS_STAT_broken : Fd := ⟨0x28048, 6, 0x1000, 1, 0x0, 9, 1⟩
def PS_STAT_drift : Fd := ⟨0x28048, 6, 0x1000, 1, 0x0, 10, 1⟩
def PS_STAT_overrun : Fd := ⟨0x28048, 6, 0x1000, 1, 0x0, 11, 1⟩
def PS_STAT_hall : Fd := ⟨0x28048, 6, 0x1000, 1, 0x0, 16, 3⟩
def PS_STAT_sec_hall : Fd := ⟨0x28048, 6, 0x1000, 1, 0x0, 19, 3⟩

/-! PS_ILL_CNT (spec/06_position_and_speed.md, class V) -/
def PS_ILL_CNT : Fd := ⟨0x2804C, 6, 0x1000, 1, 0x0, 0, 32⟩
def PS_ILL_CNT_total : Fd := ⟨0x2804C, 6, 0x1000, 1, 0x0, 0, 16⟩
def PS_ILL_CNT_window : Fd := ⟨0x2804C, 6, 0x1000, 1, 0x0, 16, 8⟩

/-! PS_CNT_LO (spec/06_position_and_speed.md, class V) -/
def PS_CNT_LO : Fd := ⟨0x28050, 6, 0x1000, 1, 0x0, 0, 32⟩

/-! PS_CNT_HI (spec/06_position_and_speed.md, class V) -/
def PS_CNT_HI : Fd := ⟨0x28054, 6, 0x1000, 1, 0x0, 0, 32⟩

/-! PS_IDX_LO (spec/06_position_and_speed.md, class V) -/
def PS_IDX_LO : Fd := ⟨0x28058, 6, 0x1000, 1, 0x0, 0, 32⟩

/-! PS_IDX_HI (spec/06_position_and_speed.md, class V) -/
def PS_IDX_HI : Fd := ⟨0x2805C, 6, 0x1000, 1, 0x0, 0, 32⟩

/-! PS_IDX_TIME_LO (spec/06_position_and_speed.md, class V) -/
def PS_IDX_TIME_LO : Fd := ⟨0x28060, 6, 0x1000, 1, 0x0, 0, 32⟩

/-! PS_IDX_TIME_HI (spec/06_position_and_speed.md, class V) -/
def PS_IDX_TIME_HI : Fd := ⟨0x28064, 6, 0x1000, 1, 0x0, 0, 32⟩

/-! PS_EDGE_TIME_LO (spec/06_position_and_speed.md, class V) -/
def PS_EDGE_TIME_LO : Fd := ⟨0x28068, 6, 0x1000, 1, 0x0, 0, 32⟩

/-! PS_EDGE_TIME_HI (spec/06_position_and_speed.md, class V) -/
def PS_EDGE_TIME_HI : Fd := ⟨0x2806C, 6, 0x1000, 1, 0x0, 0, 32⟩

/-! PS_PERIOD (spec/06_position_and_speed.md, class V) -/
def PS_PERIOD : Fd := ⟨0x28070, 6, 0x1000, 1, 0x0, 0, 32⟩

/-! PS_SEC_CNT (spec/06_position_and_speed.md, class V) -/
def PS_SEC_CNT : Fd := ⟨0x28074, 6, 0x1000, 1, 0x0, 0, 32⟩

/-! PS_SEC_SPEED (spec/06_position_and_speed.md, class V) -/
def PS_SEC_SPEED : Fd := ⟨0x28078, 6, 0x1000, 1, 0x0, 0, 32⟩

/-! PS_RES_ENV (spec/06_position_and_speed.md, class V) -/
def PS_RES_ENV : Fd := ⟨0x2807C, 6, 0x1000, 1, 0x0, 0, 32⟩
def PS_RES_ENV_sine : Fd := ⟨0x2807C, 6, 0x1000, 1, 0x0, 0, 16⟩
def PS_RES_ENV_cosine : Fd := ⟨0x2807C, 6, 0x1000, 1, 0x0, 16, 16⟩

/-! PS_RES_MEAS (spec/06_position_and_speed.md, class V) -/
def PS_RES_MEAS : Fd := ⟨0x28080, 6, 0x1000, 1, 0x0, 0, 32⟩
def PS_RES_MEAS_amplitude : Fd := ⟨0x28080, 6, 0x1000, 1, 0x0, 0, 8⟩
def PS_RES_MEAS_exc_phase : Fd := ⟨0x28080, 6, 0x1000, 1, 0x0, 8, 8⟩

/-! PS_SSI_RAW_LO (spec/06_position_and_speed.md, class V) -/
def PS_SSI_RAW_LO : Fd := ⟨0x28084, 6, 0x1000, 1, 0x0, 0, 32⟩

/-! PS_SSI_RAW_HI (spec/06_position_and_speed.md, class V) -/
def PS_SSI_RAW_HI : Fd := ⟨0x28088, 6, 0x1000, 1, 0x0, 0, 32⟩

/-! PS_OBS_POS_LO (spec/06_position_and_speed.md, class V) -/
def PS_OBS_POS_LO : Fd := ⟨0x28090, 6, 0x1000, 1, 0x0, 0, 32⟩

/-! PS_OBS_POS_HI (spec/06_position_and_speed.md, class V) -/
def PS_OBS_POS_HI : Fd := ⟨0x28094, 6, 0x1000, 1, 0x0, 0, 32⟩

/-! PS_OBS_ANGLE (spec/06_position_and_speed.md, class V) -/
def PS_OBS_ANGLE : Fd := ⟨0x28098, 6, 0x1000, 1, 0x0, 0, 32⟩

/-! PS_OBS_EANGLE (spec/06_position_and_speed.md, class V) -/
def PS_OBS_EANGLE : Fd := ⟨0x2809C, 6, 0x1000, 1, 0x0, 0, 32⟩

/-! PS_OBS_SPEED (spec/06_position_and_speed.md, class V) -/
def PS_OBS_SPEED : Fd := ⟨0x280A0, 6, 0x1000, 1, 0x0, 0, 32⟩

/-! PS_OBS_ACCEL (spec/06_position_and_speed.md, class V) -/
def PS_OBS_ACCEL : Fd := ⟨0x280A4, 6, 0x1000, 1, 0x0, 0, 32⟩

/-! PS_OBS_ERR (spec/06_position_and_speed.md, class V) -/
def PS_OBS_ERR : Fd := ⟨0x280A8, 6, 0x1000, 1, 0x0, 0, 32⟩

/-! PS_LAT_ANGLE (spec/06_position_and_speed.md, class V) -/
def PS_LAT_ANGLE : Fd := ⟨0x280B0, 6, 0x1000, 1, 0x0, 0, 32⟩

/-! PS_LAT_EANGLE (spec/06_position_and_speed.md, class V) -/
def PS_LAT_EANGLE : Fd := ⟨0x280B4, 6, 0x1000, 1, 0x0, 0, 32⟩

/-! PS_LAT_SPEED (spec/06_position_and_speed.md, class V) -/
def PS_LAT_SPEED : Fd := ⟨0x280B8, 6, 0x1000, 1, 0x0, 0, 32⟩

/-! PS_LAT_INFO (spec/06_position_and_speed.md, class V) -/
def PS_LAT_INFO : Fd := ⟨0x280BC, 6, 0x1000, 1, 0x0, 0, 32⟩
def PS_LAT_INFO_valid : Fd := ⟨0x280BC, 6, 0x1000, 1, 0x0, 0, 1⟩
def PS_LAT_INFO_locked : Fd := ⟨0x280BC, 6, 0x1000, 1, 0x0, 1, 1⟩
def PS_LAT_INFO_fenced : Fd := ⟨0x280BC, 6, 0x1000, 1, 0x0, 2, 1⟩
def PS_LAT_INFO_illegal : Fd := ⟨0x280BC, 6, 0x1000, 1, 0x0, 3, 1⟩
def PS_LAT_INFO_broken : Fd := ⟨0x280BC, 6, 0x1000, 1, 0x0, 4, 1⟩
def PS_LAT_INFO_update : Fd := ⟨0x280BC, 6, 0x1000, 1, 0x0, 16, 16⟩

/-! PS_LAT_STAMP_LO (spec/06_position_and_speed.md, class V) -/
def PS_LAT_STAMP_LO : Fd := ⟨0x280C0, 6, 0x1000, 1, 0x0, 0, 32⟩

/-! PS_LAT_STAMP_HI (spec/06_position_and_speed.md, class V) -/
def PS_LAT_STAMP_HI : Fd := ⟨0x280C4, 6, 0x1000, 1, 0x0, 0, 32⟩

/-! PS_CMP_CFG (spec/06_position_and_speed.md, class S) -/
def PS_CMP_CFG : Fd := ⟨0x28100, 6, 0x1000, 2, 0x20, 0, 32⟩
def PS_CMP_CFG_enable : Fd := ⟨0x28100, 6, 0x1000, 2, 0x20, 0, 1⟩
def PS_CMP_CFG_dir : Fd := ⟨0x28100, 6, 0x1000, 2, 0x20, 1, 2⟩
def PS_CMP_CFG_once : Fd := ⟨0x28100, 6, 0x1000, 2, 0x20, 3, 1⟩

/-! PS_CMP_LO (spec/06_position_and_speed.md, class T) -/
def PS_CMP_LO : Fd := ⟨0x28104, 6, 0x1000, 2, 0x20, 0, 32⟩

/-! PS_CMP_HI (spec/06_position_and_speed.md, class T) -/
def PS_CMP_HI : Fd := ⟨0x28108, 6, 0x1000, 2, 0x20, 0, 32⟩

/-! PS_CMP_STAT (spec/06_position_and_speed.md, class V) -/
def PS_CMP_STAT : Fd := ⟨0x2810C, 6, 0x1000, 2, 0x20, 0, 32⟩
def PS_CMP_STAT_armed : Fd := ⟨0x2810C, 6, 0x1000, 2, 0x20, 0, 1⟩
def PS_CMP_STAT_fired : Fd := ⟨0x2810C, 6, 0x1000, 2, 0x20, 1, 1⟩
def PS_CMP_STAT_behind : Fd := ⟨0x2810C, 6, 0x1000, 2, 0x20, 2, 1⟩
def PS_CMP_STAT_status : Fd := ⟨0x2810C, 6, 0x1000, 2, 0x20, 8, 8⟩
def PS_CMP_STAT_count : Fd := ⟨0x2810C, 6, 0x1000, 2, 0x20, 16, 16⟩

/-! PS_CMP_TIME_LO (spec/06_position_and_speed.md, class V) -/
def PS_CMP_TIME_LO : Fd := ⟨0x28110, 6, 0x1000, 2, 0x20, 0, 32⟩

/-! PS_CMP_TIME_HI (spec/06_position_and_speed.md, class V) -/
def PS_CMP_TIME_HI : Fd := ⟨0x28114, 6, 0x1000, 2, 0x20, 0, 32⟩

/-! EP_CFG (spec/06_position_and_speed.md, class S) -/
def EP_CFG : Fd := ⟨0x2E000, 2, 0x800, 1, 0x0, 0, 32⟩
def EP_CFG_enable : Fd := ⟨0x2E000, 2, 0x800, 1, 0x0, 0, 1⟩
def EP_CFG_source : Fd := ⟨0x2E000, 2, 0x800, 1, 0x0, 1, 3⟩
def EP_CFG_lines : Fd := ⟨0x2E000, 2, 0x800, 1, 0x0, 4, 17⟩
def EP_CFG_invert : Fd := ⟨0x2E000, 2, 0x800, 1, 0x0, 21, 1⟩

/-! EP_LIM (spec/06_position_and_speed.md, class S) -/
def EP_LIM : Fd := ⟨0x2E004, 2, 0x800, 1, 0x0, 0, 32⟩
def EP_LIM_rate : Fd := ⟨0x2E004, 2, 0x800, 1, 0x0, 0, 10⟩
def EP_LIM_lag_limit : Fd := ⟨0x2E004, 2, 0x800, 1, 0x0, 10, 16⟩

/-! EP_OFFS (spec/06_position_and_speed.md, class S) -/
def EP_OFFS : Fd := ⟨0x2E008, 2, 0x800, 1, 0x0, 0, 32⟩

/-! EP_STAT (spec/06_position_and_speed.md, class V) -/
def EP_STAT : Fd := ⟨0x2E00C, 2, 0x800, 1, 0x0, 0, 32⟩
def EP_STAT_running : Fd := ⟨0x2E00C, 2, 0x800, 1, 0x0, 0, 1⟩
def EP_STAT_src_lost : Fd := ⟨0x2E00C, 2, 0x800, 1, 0x0, 1, 1⟩
def EP_STAT_lag : Fd := ⟨0x2E00C, 2, 0x800, 1, 0x0, 2, 1⟩
def EP_STAT_limited : Fd := ⟨0x2E00C, 2, 0x800, 1, 0x0, 3, 1⟩
def EP_STAT_lag_cnt : Fd := ⟨0x2E00C, 2, 0x800, 1, 0x0, 16, 16⟩

/-! EP_CNT_LO (spec/06_position_and_speed.md, class V) -/
def EP_CNT_LO : Fd := ⟨0x2E010, 2, 0x800, 1, 0x0, 0, 32⟩

/-! EP_CNT_HI (spec/06_position_and_speed.md, class V) -/
def EP_CNT_HI : Fd := ⟨0x2E014, 2, 0x800, 1, 0x0, 0, 32⟩

/-! EP_LAG (spec/06_position_and_speed.md, class V) -/
def EP_LAG : Fd := ⟨0x2E018, 2, 0x800, 1, 0x0, 0, 32⟩

/-! BE_ENG_STAT (spec/07_balance_engines.md, class V) -/
def BE_ENG_STAT : Fd := ⟨0x30000, 12, 0x1000, 1, 0x0, 0, 32⟩
def BE_ENG_STAT_state : Fd := ⟨0x30000, 12, 0x1000, 1, 0x0, 0, 3⟩
def BE_ENG_STAT_spare : Fd := ⟨0x30000, 12, 0x1000, 1, 0x0, 3, 1⟩
def BE_ENG_STAT_loop : Fd := ⟨0x30000, 12, 0x1000, 1, 0x0, 4, 6⟩
def BE_ENG_STAT_loops : Fd := ⟨0x30000, 12, 0x1000, 1, 0x0, 10, 4⟩
def BE_ENG_STAT_fenced_writes : Fd := ⟨0x30000, 12, 0x1000, 1, 0x0, 16, 16⟩

/-! BE_ENG_LOOPS_LO (spec/07_balance_engines.md, class V) -/
def BE_ENG_LOOPS_LO : Fd := ⟨0x30004, 12, 0x1000, 1, 0x0, 0, 32⟩

/-! BE_ENG_LOOPS_HI (spec/07_balance_engines.md, class V) -/
def BE_ENG_LOOPS_HI : Fd := ⟨0x30008, 12, 0x1000, 1, 0x0, 0, 32⟩

/-! BE_ENG_RUNS (spec/07_balance_engines.md, class V) -/
def BE_ENG_RUNS : Fd := ⟨0x3000C, 12, 0x1000, 1, 0x0, 0, 32⟩

/-! BE_ENG_DEAD (spec/07_balance_engines.md, class V) -/
def BE_ENG_DEAD : Fd := ⟨0x30010, 12, 0x1000, 1, 0x0, 0, 32⟩
def BE_ENG_DEAD_cause : Fd := ⟨0x30010, 12, 0x1000, 1, 0x0, 0, 4⟩
def BE_ENG_DEAD_loop : Fd := ⟨0x30010, 12, 0x1000, 1, 0x0, 4, 6⟩
def BE_ENG_DEAD_op : Fd := ⟨0x30010, 12, 0x1000, 1, 0x0, 10, 9⟩

/-! BE_ENG_DEAD_TIME_LO (spec/07_balance_engines.md, class V) -/
def BE_ENG_DEAD_TIME_LO : Fd := ⟨0x30014, 12, 0x1000, 1, 0x0, 0, 32⟩

/-! BE_ENG_DEAD_TIME_HI (spec/07_balance_engines.md, class V) -/
def BE_ENG_DEAD_TIME_HI : Fd := ⟨0x30018, 12, 0x1000, 1, 0x0, 0, 32⟩

/-! BE_LP_CFG (spec/07_balance_engines.md, class S) -/
def BE_LP_CFG : Fd := ⟨0x3C000, 64, 0x40, 1, 0x0, 0, 32⟩
def BE_LP_CFG_enable : Fd := ⟨0x3C000, 64, 0x40, 1, 0x0, 0, 1⟩
def BE_LP_CFG_role : Fd := ⟨0x3C000, 64, 0x40, 1, 0x0, 1, 1⟩
def BE_LP_CFG_home : Fd := ⟨0x3C000, 64, 0x40, 1, 0x0, 2, 5⟩
def BE_LP_CFG_link : Fd := ⟨0x3C000, 64, 0x40, 1, 0x0, 7, 5⟩
def BE_LP_CFG_link_en : Fd := ⟨0x3C000, 64, 0x40, 1, 0x0, 12, 1⟩
def BE_LP_CFG_engine : Fd := ⟨0x3C000, 64, 0x40, 1, 0x0, 13, 4⟩
def BE_LP_CFG_prio : Fd := ⟨0x3C000, 64, 0x40, 1, 0x0, 17, 3⟩
def BE_LP_CFG_miss_limit : Fd := ⟨0x3C000, 64, 0x40, 1, 0x0, 20, 4⟩
def BE_LP_CFG_div : Fd := ⟨0x3C000, 64, 0x40, 1, 0x0, 24, 8⟩

/-! BE_LP_IN (spec/07_balance_engines.md, class S) -/
def BE_LP_IN : Fd := ⟨0x3C004, 64, 0x40, 1, 0x0, 0, 32⟩
def BE_LP_IN_sh_a : Fd := ⟨0x3C004, 64, 0x40, 1, 0x0, 0, 1⟩
def BE_LP_IN_sh_b : Fd := ⟨0x3C004, 64, 0x40, 1, 0x0, 1, 1⟩
def BE_LP_IN_hk : Fd := ⟨0x3C004, 64, 0x40, 1, 0x0, 2, 1⟩
def BE_LP_IN_lat : Fd := ⟨0x3C004, 64, 0x40, 1, 0x0, 3, 1⟩
def BE_LP_IN_lat_port : Fd := ⟨0x3C004, 64, 0x40, 1, 0x0, 4, 3⟩
def BE_LP_IN_start_limit : Fd := ⟨0x3C004, 64, 0x40, 1, 0x0, 8, 20⟩

/-! BE_LP_PROG (spec/07_balance_engines.md, class S) -/
def BE_LP_PROG : Fd := ⟨0x3C008, 64, 0x40, 1, 0x0, 0, 32⟩
def BE_LP_PROG_length : Fd := ⟨0x3C008, 64, 0x40, 1, 0x0, 0, 10⟩
def BE_LP_PROG_slack_win : Fd := ⟨0x3C008, 64, 0x40, 1, 0x0, 10, 4⟩
def BE_LP_PROG_wcet : Fd := ⟨0x3C008, 64, 0x40, 1, 0x0, 16, 16⟩

/-! BE_LP_TEL (spec/07_balance_engines.md, class S) -/
def BE_LP_TEL : Fd := ⟨0x3C00C, 64, 0x40, 1, 0x0, 0, 32⟩
def BE_LP_TEL_enable : Fd := ⟨0x3C00C, 64, 0x40, 1, 0x0, 0, 1⟩
def BE_LP_TEL_queue_pair : Fd := ⟨0x3C00C, 64, 0x40, 1, 0x0, 1, 6⟩

/-! BE_LP_BANK (spec/07_balance_engines.md, class S) -/
def BE_LP_BANK : Fd := ⟨0x3C010, 64, 0x40, 1, 0x0, 0, 32⟩
def BE_LP_BANK_base : Fd := ⟨0x3C010, 64, 0x40, 1, 0x0, 0, 21⟩

/-! BE_LP_SWAP (spec/07_balance_engines.md, class T) -/
def BE_LP_SWAP : Fd := ⟨0x3C014, 64, 0x40, 1, 0x0, 0, 32⟩
def BE_LP_SWAP_bank : Fd := ⟨0x3C014, 64, 0x40, 1, 0x0, 0, 1⟩
def BE_LP_SWAP_active : Fd := ⟨0x3C014, 64, 0x40, 1, 0x0, 1, 1⟩
def BE_LP_SWAP_pending : Fd := ⟨0x3C014, 64, 0x40, 1, 0x0, 2, 1⟩
def BE_LP_SWAP_status : Fd := ⟨0x3C014, 64, 0x40, 1, 0x0, 8, 8⟩

/-! BE_LP_STAT (spec/07_balance_engines.md, class V) -/
def BE_LP_STAT : Fd := ⟨0x3C018, 64, 0x40, 1, 0x0, 0, 32⟩
def BE_LP_STAT_state : Fd := ⟨0x3C018, 64, 0x40, 1, 0x0, 0, 3⟩
def BE_LP_STAT_engine : Fd := ⟨0x3C018, 64, 0x40, 1, 0x0, 3, 4⟩
def BE_LP_STAT_consec : Fd := ⟨0x3C018, 64, 0x40, 1, 0x0, 7, 4⟩
def BE_LP_STAT_update : Fd := ⟨0x3C018, 64, 0x40, 1, 0x0, 16, 16⟩

/-! BE_LP_FLAGS (spec/07_balance_engines.md, class V) -/
def BE_LP_FLAGS : Fd := ⟨0x3C01C, 64, 0x40, 1, 0x0, 0, 32⟩
def BE_LP_FLAGS_sat : Fd := ⟨0x3C01C, 64, 0x40, 1, 0x0, 0, 1⟩
def BE_LP_FLAGS_window_short : Fd := ⟨0x3C01C, 64, 0x40, 1, 0x0, 1, 1⟩
def BE_LP_FLAGS_plaus : Fd := ⟨0x3C01C, 64, 0x40, 1, 0x0, 2, 1⟩
def BE_LP_FLAGS_swap_clamp : Fd := ⟨0x3C01C, 64, 0x40, 1, 0x0, 3, 1⟩
def BE_LP_FLAGS_input_late : Fd := ⟨0x3C01C, 64, 0x40, 1, 0x0, 4, 1⟩
def BE_LP_FLAGS_deadline : Fd := ⟨0x3C01C, 64, 0x40, 1, 0x0, 5, 1⟩

/-! BE_LP_MISS (spec/07_balance_engines.md, class V) -/
def BE_LP_MISS : Fd := ⟨0x3C020, 64, 0x40, 1, 0x0, 0, 32⟩
def BE_LP_MISS_misses : Fd := ⟨0x3C020, 64, 0x40, 1, 0x0, 0, 16⟩
def BE_LP_MISS_input_late : Fd := ⟨0x3C020, 64, 0x40, 1, 0x0, 16, 16⟩

/-! BE_LP_SLACK (spec/07_balance_engines.md, class V) -/
def BE_LP_SLACK : Fd := ⟨0x3C024, 64, 0x40, 1, 0x0, 0, 32⟩
def BE_LP_SLACK_last : Fd := ⟨0x3C024, 64, 0x40, 1, 0x0, 0, 16⟩
def BE_LP_SLACK_win_min : Fd := ⟨0x3C024, 64, 0x40, 1, 0x0, 16, 16⟩

/-! BE_LP_SLACK_MIN (spec/07_balance_engines.md, class H) -/
def BE_LP_SLACK_MIN : Fd := ⟨0x3C028, 64, 0x40, 1, 0x0, 0, 32⟩
def BE_LP_SLACK_MIN_min : Fd := ⟨0x3C028, 64, 0x40, 1, 0x0, 0, 16⟩
def BE_LP_SLACK_MIN_restart : Fd := ⟨0x3C028, 64, 0x40, 1, 0x0, 31, 1⟩

/-! BE_LP_DUR (spec/07_balance_engines.md, class V) -/
def BE_LP_DUR : Fd := ⟨0x3C02C, 64, 0x40, 1, 0x0, 0, 32⟩
def BE_LP_DUR_last : Fd := ⟨0x3C02C, 64, 0x40, 1, 0x0, 0, 16⟩
def BE_LP_DUR_max : Fd := ⟨0x3C02C, 64, 0x40, 1, 0x0, 16, 16⟩

/-! BE_LP_DONE_LO (spec/07_balance_engines.md, class V) -/
def BE_LP_DONE_LO : Fd := ⟨0x3C030, 64, 0x40, 1, 0x0, 0, 32⟩

/-! BE_LP_DONE_HI (spec/07_balance_engines.md, class V) -/
def BE_LP_DONE_HI : Fd := ⟨0x3C034, 64, 0x40, 1, 0x0, 0, 32⟩

/-! BE_POOL_CFG (spec/07_balance_engines.md, class S) -/
def BE_POOL_CFG : Fd := ⟨0x3F000, 1, 0x0, 1, 0x0, 0, 32⟩
def BE_POOL_CFG_spares : Fd := ⟨0x3F000, 1, 0x0, 1, 0x0, 0, 12⟩
def BE_POOL_CFG_stall_limit : Fd := ⟨0x3F000, 1, 0x0, 1, 0x0, 16, 8⟩

/-! BE_POOL_CTRL (spec/07_balance_engines.md, class T) -/
def BE_POOL_CTRL : Fd := ⟨0x3F004, 1, 0x0, 1, 0x0, 0, 32⟩
def BE_POOL_CTRL_cmd : Fd := ⟨0x3F004, 1, 0x0, 1, 0x0, 0, 2⟩
def BE_POOL_CTRL_engine : Fd := ⟨0x3F004, 1, 0x0, 1, 0x0, 4, 4⟩
def BE_POOL_CTRL_status : Fd := ⟨0x3F004, 1, 0x0, 1, 0x0, 8, 8⟩

/-! BE_POOL_STAT (spec/07_balance_engines.md, class V) -/
def BE_POOL_STAT : Fd := ⟨0x3F008, 1, 0x0, 1, 0x0, 0, 32⟩
def BE_POOL_STAT_fenced : Fd := ⟨0x3F008, 1, 0x0, 1, 0x0, 0, 12⟩
def BE_POOL_STAT_free : Fd := ⟨0x3F008, 1, 0x0, 1, 0x0, 12, 12⟩
def BE_POOL_STAT_takeovers : Fd := ⟨0x3F008, 1, 0x0, 1, 0x0, 24, 8⟩

/-! BE_POOL_CHECK (spec/07_balance_engines.md, class V) -/
def BE_POOL_CHECK : Fd := ⟨0x3F00C, 1, 0x0, 1, 0x0, 0, 32⟩
def BE_POOL_CHECK_loop : Fd := ⟨0x3F00C, 1, 0x0, 1, 0x0, 0, 6⟩
def BE_POOL_CHECK_reason : Fd := ⟨0x3F00C, 1, 0x0, 1, 0x0, 8, 4⟩
def BE_POOL_CHECK_valid : Fd := ⟨0x3F00C, 1, 0x0, 1, 0x0, 31, 1⟩

/-! BE_LT_PAGE (spec/07_balance_engines.md, class H) -/
def BE_LT_PAGE : Fd := ⟨0x3F010, 3, 0x4, 1, 0x0, 0, 32⟩
def BE_LT_PAGE_page : Fd := ⟨0x3F010, 3, 0x4, 1, 0x0, 0, 2⟩

/-! BE_POOL_ADMIT (spec/07_balance_engines.md, class V) -/
def BE_POOL_ADMIT : Fd := ⟨0x3F020, 1, 0x0, 1, 0x0, 0, 32⟩
def BE_POOL_ADMIT_engine : Fd := ⟨0x3F020, 1, 0x0, 1, 0x0, 0, 4⟩
def BE_POOL_ADMIT_busy : Fd := ⟨0x3F020, 1, 0x0, 1, 0x0, 4, 1⟩
def BE_POOL_ADMIT_status : Fd := ⟨0x3F020, 1, 0x0, 1, 0x0, 8, 8⟩

/-! SC_TM_CFG (spec/09_traction.md, class S) -/
def SC_TM_CFG : Fd := ⟨0x83000, 2, 0x100, 1, 0x0, 0, 32⟩
def SC_TM_CFG_enable : Fd := ⟨0x83000, 2, 0x100, 1, 0x0, 0, 1⟩
def SC_TM_CFG_sets : Fd := ⟨0x83000, 2, 0x100, 1, 0x0, 1, 4⟩
def SC_TM_CFG_pos_port : Fd := ⟨0x83000, 2, 0x100, 1, 0x0, 5, 3⟩
def SC_TM_CFG_sensorless : Fd := ⟨0x83000, 2, 0x100, 1, 0x0, 8, 1⟩
def SC_TM_CFG_min_sets : Fd := ⟨0x83000, 2, 0x100, 1, 0x0, 9, 3⟩
def SC_TM_CFG_pole_pairs : Fd := ⟨0x83000, 2, 0x100, 1, 0x0, 12, 6⟩
def SC_TM_CFG_fusee_loop : Fd := ⟨0x83000, 2, 0x100, 1, 0x0, 18, 6⟩
def SC_TM_CFG_fusee_en : Fd := ⟨0x83000, 2, 0x100, 1, 0x0, 24, 1⟩

/-! SC_TM_KE (spec/09_traction.md, class S) -/
def SC_TM_KE : Fd := ⟨0x83004, 2, 0x100, 1, 0x0, 0, 32⟩

/-! SC_TM_VMAX (spec/09_traction.md, class S) -/
def SC_TM_VMAX : Fd := ⟨0x83008, 2, 0x100, 1, 0x0, 0, 32⟩

/-! SC_TM_CATCH (spec/09_traction.md, class S) -/
def SC_TM_CATCH : Fd := ⟨0x8300C, 2, 0x100, 1, 0x0, 0, 32⟩

/-! SC_TM_REENGAGE (spec/09_traction.md, class S) -/
def SC_TM_REENGAGE : Fd := ⟨0x83010, 2, 0x100, 1, 0x0, 0, 32⟩

/-! SC_TM_TIMES (spec/09_traction.md, class S) -/
def SC_TM_TIMES : Fd := ⟨0x83014, 2, 0x100, 1, 0x0, 0, 32⟩
def SC_TM_TIMES_catch_time : Fd := ⟨0x83014, 2, 0x100, 1, 0x0, 0, 8⟩
def SC_TM_TIMES_catch_hold : Fd := ⟨0x83014, 2, 0x100, 1, 0x0, 8, 8⟩
def SC_TM_TIMES_precharge : Fd := ⟨0x83014, 2, 0x100, 1, 0x0, 16, 8⟩

/-! SC_TM_SETSTEP (spec/09_traction.md, class S) -/
def SC_TM_SETSTEP : Fd := ⟨0x83018, 2, 0x100, 1, 0x0, 0, 32⟩

/-! SC_TM_EFANG (spec/09_traction.md, class S) -/
def SC_TM_EFANG : Fd := ⟨0x8301C, 2, 0x100, 1, 0x0, 0, 32⟩

/-! SC_TM_STAT (spec/09_traction.md, class V) -/
def SC_TM_STAT : Fd := ⟨0x83020, 2, 0x100, 1, 0x0, 0, 32⟩
def SC_TM_STAT_state : Fd := ⟨0x83020, 2, 0x100, 1, 0x0, 0, 4⟩
def SC_TM_STAT_active : Fd := ⟨0x83020, 2, 0x100, 1, 0x0, 4, 4⟩
def SC_TM_STAT_lost : Fd := ⟨0x83020, 2, 0x100, 1, 0x0, 8, 4⟩
def SC_TM_STAT_ucg : Fd := ⟨0x83020, 2, 0x100, 1, 0x0, 12, 1⟩
def SC_TM_STAT_fresh : Fd := ⟨0x83020, 2, 0x100, 1, 0x0, 13, 1⟩
def SC_TM_STAT_last_status : Fd := ⟨0x83020, 2, 0x100, 1, 0x0, 16, 8⟩
def SC_TM_STAT_token : Fd := ⟨0x83020, 2, 0x100, 1, 0x0, 24, 8⟩

/-! SC_TM_SPEED (spec/09_traction.md, class V) -/
def SC_TM_SPEED : Fd := ⟨0x83024, 2, 0x100, 1, 0x0, 0, 32⟩

/-! SC_TM_CNT (spec/09_traction.md, class V) -/
def SC_TM_CNT : Fd := ⟨0x83028, 2, 0x100, 1, 0x0, 0, 32⟩
def SC_TM_CNT_catches : Fd := ⟨0x83028, 2, 0x100, 1, 0x0, 0, 8⟩
def SC_TM_CNT_refusals : Fd := ⟨0x83028, 2, 0x100, 1, 0x0, 8, 8⟩
def SC_TM_CNT_losses : Fd := ⟨0x83028, 2, 0x100, 1, 0x0, 16, 8⟩
def SC_TM_CNT_ucg : Fd := ⟨0x83028, 2, 0x100, 1, 0x0, 24, 8⟩

/-! SC_CH_CFG (spec/10_charging_and_conversion.md, class S) -/
def SC_CH_CFG : Fd := ⟨0x83200, 1, 0x0, 1, 0x0, 0, 32⟩
def SC_CH_CFG_enable : Fd := ⟨0x83200, 1, 0x0, 1, 0x0, 0, 1⟩
def SC_CH_CFG_export_en : Fd := ⟨0x83200, 1, 0x0, 1, 0x0, 1, 1⟩
def SC_CH_CFG_vent_ok : Fd := ⟨0x83200, 1, 0x0, 1, 0x0, 2, 1⟩
def SC_CH_CFG_grid_x : Fd := ⟨0x83200, 1, 0x0, 1, 0x0, 8, 8⟩

/-! SC_CH_IN (spec/10_charging_and_conversion.md, class S) -/
def SC_CH_IN : Fd := ⟨0x83204, 1, 0x0, 1, 0x0, 0, 32⟩
def SC_CH_IN_pilot_wm : Fd := ⟨0x83204, 1, 0x0, 1, 0x0, 0, 5⟩
def SC_CH_IN_pp_wm : Fd := ⟨0x83204, 1, 0x0, 1, 0x0, 5, 5⟩
def SC_CH_IN_cp_conv : Fd := ⟨0x83204, 1, 0x0, 1, 0x0, 10, 3⟩
def SC_CH_IN_cp_entry : Fd := ⟨0x83204, 1, 0x0, 1, 0x0, 13, 4⟩
def SC_CH_IN_pp_conv : Fd := ⟨0x83204, 1, 0x0, 1, 0x0, 17, 3⟩
def SC_CH_IN_pp_entry : Fd := ⟨0x83204, 1, 0x0, 1, 0x0, 20, 4⟩

/-! SC_CH_PP (spec/10_charging_and_conversion.md, class S) -/
def SC_CH_PP : Fd := ⟨0x83208, 1, 0x0, 1, 0x0, 0, 32⟩
def SC_CH_PP_r_pull : Fd := ⟨0x83208, 1, 0x0, 1, 0x0, 0, 12⟩
def SC_CH_PP_v_pull : Fd := ⟨0x83208, 1, 0x0, 1, 0x0, 12, 10⟩

/-! SC_CH_LIM (spec/10_charging_and_conversion.md, class S) -/
def SC_CH_LIM : Fd := ⟨0x8320C, 1, 0x0, 1, 0x0, 0, 32⟩
def SC_CH_LIM_imax : Fd := ⟨0x8320C, 1, 0x0, 1, 0x0, 0, 8⟩
def SC_CH_LIM_c_wait : Fd := ⟨0x8320C, 1, 0x0, 1, 0x0, 8, 8⟩
def SC_CH_LIM_grid_wait : Fd := ⟨0x8320C, 1, 0x0, 1, 0x0, 16, 8⟩
def SC_CH_LIM_stop_time : Fd := ⟨0x8320C, 1, 0x0, 1, 0x0, 24, 8⟩

/-! SC_CH_GRID (spec/10_charging_and_conversion.md, class S) -/
def SC_CH_GRID : Fd := ⟨0x83210, 1, 0x0, 1, 0x0, 0, 32⟩
def SC_CH_GRID_v_lo : Fd := ⟨0x83210, 1, 0x0, 1, 0x0, 0, 9⟩
def SC_CH_GRID_v_hi : Fd := ⟨0x83210, 1, 0x0, 1, 0x0, 9, 9⟩
def SC_CH_GRID_f_lo : Fd := ⟨0x83210, 1, 0x0, 1, 0x0, 18, 7⟩
def SC_CH_GRID_f_hi : Fd := ⟨0x83210, 1, 0x0, 1, 0x0, 25, 7⟩

/-! SC_CH_BUS (spec/10_charging_and_conversion.md, class S) -/
def SC_CH_BUS : Fd := ⟨0x83214, 1, 0x0, 1, 0x0, 0, 32⟩
def SC_CH_BUS_bus_target : Fd := ⟨0x83214, 1, 0x0, 1, 0x0, 0, 10⟩
def SC_CH_BUS_v_export : Fd := ⟨0x83214, 1, 0x0, 1, 0x0, 10, 10⟩
def SC_CH_BUS_f_export : Fd := ⟨0x83214, 1, 0x0, 1, 0x0, 20, 7⟩

/-! SC_CH_PMAX (spec/10_charging_and_conversion.md, class S) -/
def SC_CH_PMAX : Fd := ⟨0x83218, 1, 0x0, 1, 0x0, 0, 32⟩

/-! SC_CH_STAT (spec/10_charging_and_conversion.md, class V) -/
def SC_CH_STAT : Fd := ⟨0x83220, 1, 0x0, 1, 0x0, 0, 32⟩
def SC_CH_STAT_state : Fd := ⟨0x83220, 1, 0x0, 1, 0x0, 0, 4⟩
def SC_CH_STAT_cp : Fd := ⟨0x83220, 1, 0x0, 1, 0x0, 4, 4⟩
def SC_CH_STAT_cable : Fd := ⟨0x83220, 1, 0x0, 1, 0x0, 8, 4⟩
def SC_CH_STAT_active : Fd := ⟨0x83220, 1, 0x0, 1, 0x0, 12, 4⟩
def SC_CH_STAT_last_status : Fd := ⟨0x83220, 1, 0x0, 1, 0x0, 16, 8⟩
def SC_CH_STAT_i_allow : Fd := ⟨0x83220, 1, 0x0, 1, 0x0, 24, 8⟩

/-! SC_CH_PILOT (spec/10_charging_and_conversion.md, class V) -/
def SC_CH_PILOT : Fd := ⟨0x83224, 1, 0x0, 1, 0x0, 0, 32⟩
def SC_CH_PILOT_duty : Fd := ⟨0x83224, 1, 0x0, 1, 0x0, 0, 10⟩
def SC_CH_PILOT_osc : Fd := ⟨0x83224, 1, 0x0, 1, 0x0, 10, 1⟩
def SC_CH_PILOT_high : Fd := ⟨0x83224, 1, 0x0, 1, 0x0, 16, 8⟩
def SC_CH_PILOT_low : Fd := ⟨0x83224, 1, 0x0, 1, 0x0, 24, 8⟩

/-! SC_CH_PP_OHM (spec/10_charging_and_conversion.md, class V) -/
def SC_CH_PP_OHM : Fd := ⟨0x83228, 1, 0x0, 1, 0x0, 0, 32⟩
def SC_CH_PP_OHM_ohm : Fd := ⟨0x83228, 1, 0x0, 1, 0x0, 0, 16⟩

/-! SC_LV_CFG (spec/10_charging_and_conversion.md, class S) -/
def SC_LV_CFG : Fd := ⟨0x83300, 1, 0x0, 1, 0x0, 0, 32⟩
def SC_LV_CFG_enable : Fd := ⟨0x83300, 1, 0x0, 1, 0x0, 0, 1⟩
def SC_LV_CFG_out_conv : Fd := ⟨0x83300, 1, 0x0, 1, 0x0, 1, 3⟩
def SC_LV_CFG_out_entry : Fd := ⟨0x83300, 1, 0x0, 1, 0x0, 4, 4⟩
def SC_LV_CFG_start_time : Fd := ⟨0x83300, 1, 0x0, 1, 0x0, 8, 8⟩
def SC_LV_CFG_v_tol : Fd := ⟨0x83300, 1, 0x0, 1, 0x0, 16, 8⟩

/-! SC_LV_VRANGE (spec/10_charging_and_conversion.md, class S) -/
def SC_LV_VRANGE : Fd := ⟨0x83304, 1, 0x0, 1, 0x0, 0, 32⟩
def SC_LV_VRANGE_v_min : Fd := ⟨0x83304, 1, 0x0, 1, 0x0, 0, 16⟩
def SC_LV_VRANGE_v_max : Fd := ⟨0x83304, 1, 0x0, 1, 0x0, 16, 16⟩

/-! SC_LV_STAT (spec/10_charging_and_conversion.md, class V) -/
def SC_LV_STAT : Fd := ⟨0x83308, 1, 0x0, 1, 0x0, 0, 32⟩
def SC_LV_STAT_state : Fd := ⟨0x83308, 1, 0x0, 1, 0x0, 0, 4⟩
def SC_LV_STAT_active : Fd := ⟨0x83308, 1, 0x0, 1, 0x0, 4, 2⟩
def SC_LV_STAT_last_status : Fd := ⟨0x83308, 1, 0x0, 1, 0x0, 8, 8⟩

/-! SC_DR_CFG (spec/11_actuators.md, class S) -/
def SC_DR_CFG : Fd := ⟨0x83400, 6, 0x40, 1, 0x0, 0, 32⟩
def SC_DR_CFG_enable : Fd := ⟨0x83400, 6, 0x40, 1, 0x0, 0, 1⟩
def SC_DR_CFG_pos_port : Fd := ⟨0x83400, 6, 0x40, 1, 0x0, 1, 3⟩
def SC_DR_CFG_secondary : Fd := ⟨0x83400, 6, 0x40, 1, 0x0, 4, 1⟩
def SC_DR_CFG_done_x : Fd := ⟨0x83400, 6, 0x40, 1, 0x0, 11, 8⟩

/-! SC_DR_SPD (spec/11_actuators.md, class S) -/
def SC_DR_SPD : Fd := ⟨0x83404, 6, 0x40, 1, 0x0, 0, 32⟩
def SC_DR_SPD_catch : Fd := ⟨0x83404, 6, 0x40, 1, 0x0, 0, 16⟩
def SC_DR_SPD_reengage : Fd := ⟨0x83404, 6, 0x40, 1, 0x0, 16, 16⟩

/-! SC_DR_TIMES (spec/11_actuators.md, class S) -/
def SC_DR_TIMES : Fd := ⟨0x83408, 6, 0x40, 1, 0x0, 0, 32⟩
def SC_DR_TIMES_move_time : Fd := ⟨0x83408, 6, 0x40, 1, 0x0, 0, 8⟩
def SC_DR_TIMES_lock_wait : Fd := ⟨0x83408, 6, 0x40, 1, 0x0, 8, 8⟩

/-! SC_DR_STAT (spec/11_actuators.md, class V) -/
def SC_DR_STAT : Fd := ⟨0x8340C, 6, 0x40, 1, 0x0, 0, 32⟩
def SC_DR_STAT_state : Fd := ⟨0x8340C, 6, 0x40, 1, 0x0, 0, 4⟩
def SC_DR_STAT_last_status : Fd := ⟨0x8340C, 6, 0x40, 1, 0x0, 8, 8⟩
def SC_DR_STAT_token : Fd := ⟨0x8340C, 6, 0x40, 1, 0x0, 16, 8⟩

/-! SC_DR_SPEED (spec/11_actuators.md, class V) -/
def SC_DR_SPEED : Fd := ⟨0x83410, 6, 0x40, 1, 0x0, 0, 32⟩

/-! SC_STAT (spec/12_safety_controller.md, class V) -/
def SC_STAT : Fd := ⟨0x80000, 1, 0x0, 1, 0x0, 0, 32⟩
def SC_STAT_mode : Fd := ⟨0x80000, 1, 0x0, 1, 0x0, 0, 3⟩
def SC_STAT_fw_ready : Fd := ⟨0x80000, 1, 0x0, 1, 0x0, 3, 1⟩
def SC_STAT_grace : Fd := ⟨0x80000, 1, 0x0, 1, 0x0, 4, 1⟩
def SC_STAT_fenced_a : Fd := ⟨0x80000, 1, 0x0, 1, 0x0, 5, 1⟩
def SC_STAT_fenced_b : Fd := ⟨0x80000, 1, 0x0, 1, 0x0, 6, 1⟩
def SC_STAT_fenced_chk : Fd := ⟨0x80000, 1, 0x0, 1, 0x0, 7, 1⟩
def SC_STAT_grace_left : Fd := ⟨0x80000, 1, 0x0, 1, 0x0, 16, 16⟩

/-! SC_CFG (spec/12_safety_controller.md, class S) -/
def SC_CFG : Fd := ⟨0x80004, 1, 0x0, 1, 0x0, 0, 32⟩
def SC_CFG_grace : Fd := ⟨0x80004, 1, 0x0, 1, 0x0, 0, 10⟩
def SC_CFG_trans_limit : Fd := ⟨0x80004, 1, 0x0, 1, 0x0, 10, 8⟩
def SC_CFG_trans_period : Fd := ⟨0x80004, 1, 0x0, 1, 0x0, 18, 8⟩
def SC_CFG_agree_retries : Fd := ⟨0x80004, 1, 0x0, 1, 0x0, 26, 2⟩

/-! SC_CNT (spec/12_safety_controller.md, class V) -/
def SC_CNT : Fd := ⟨0x80008, 1, 0x0, 1, 0x0, 0, 32⟩
def SC_CNT_transients : Fd := ⟨0x80008, 1, 0x0, 1, 0x0, 0, 8⟩
def SC_CNT_period_trans : Fd := ⟨0x80008, 1, 0x0, 1, 0x0, 8, 8⟩
def SC_CNT_rollbacks : Fd := ⟨0x80008, 1, 0x0, 1, 0x0, 16, 8⟩
def SC_CNT_outvoted : Fd := ⟨0x80008, 1, 0x0, 1, 0x0, 24, 8⟩

/-! SC_LAST (spec/12_safety_controller.md, class V) -/
def SC_LAST : Fd := ⟨0x8000C, 1, 0x0, 1, 0x0, 0, 32⟩
def SC_LAST_cause : Fd := ⟨0x8000C, 1, 0x0, 1, 0x0, 0, 4⟩
def SC_LAST_outcome : Fd := ⟨0x8000C, 1, 0x0, 1, 0x0, 4, 4⟩
def SC_LAST_bist_a_fail : Fd := ⟨0x8000C, 1, 0x0, 1, 0x0, 8, 1⟩
def SC_LAST_bist_b_fail : Fd := ⟨0x8000C, 1, 0x0, 1, 0x0, 9, 1⟩
def SC_LAST_window : Fd := ⟨0x8000C, 1, 0x0, 1, 0x0, 16, 16⟩

/-! SC_LAST_TIME_LO (spec/12_safety_controller.md, class V) -/
def SC_LAST_TIME_LO : Fd := ⟨0x80010, 1, 0x0, 1, 0x0, 0, 32⟩

/-! SC_LAST_TIME_HI (spec/12_safety_controller.md, class V) -/
def SC_LAST_TIME_HI : Fd := ⟨0x80014, 1, 0x0, 1, 0x0, 0, 32⟩

/-! SC_WINDOWS_LO (spec/12_safety_controller.md, class V) -/
def SC_WINDOWS_LO : Fd := ⟨0x80018, 1, 0x0, 1, 0x0, 0, 32⟩

/-! SC_WINDOWS_HI (spec/12_safety_controller.md, class V) -/
def SC_WINDOWS_HI : Fd := ⟨0x8001C, 1, 0x0, 1, 0x0, 0, 32⟩

/-! SC_BOOT_TEST (spec/12_safety_controller.md, class V) -/
def SC_BOOT_TEST : Fd := ⟨0x80020, 1, 0x0, 1, 0x0, 0, 32⟩
def SC_BOOT_TEST_step : Fd := ⟨0x80020, 1, 0x0, 1, 0x0, 0, 7⟩
def SC_BOOT_TEST_done : Fd := ⟨0x80020, 1, 0x0, 1, 0x0, 7, 1⟩
def SC_BOOT_TEST_pass : Fd := ⟨0x80020, 1, 0x0, 1, 0x0, 8, 1⟩

/-! SC_AGREE (spec/12_safety_controller.md, class V) -/
def SC_AGREE : Fd := ⟨0x80024, 1, 0x0, 1, 0x0, 0, 32⟩
def SC_AGREE_joint : Fd := ⟨0x80024, 1, 0x0, 1, 0x0, 0, 16⟩
def SC_AGREE_agreed : Fd := ⟨0x80024, 1, 0x0, 1, 0x0, 16, 16⟩

/-! SC_WDOG_CFG (spec/12_safety_controller.md, class S) -/
def SC_WDOG_CFG : Fd := ⟨0x80028, 1, 0x0, 1, 0x0, 0, 32⟩
def SC_WDOG_CFG_period : Fd := ⟨0x80028, 1, 0x0, 1, 0x0, 0, 8⟩
def SC_WDOG_CFG_enable : Fd := ⟨0x80028, 1, 0x0, 1, 0x0, 8, 1⟩

/-! SC_WDOG (spec/12_safety_controller.md, class T) -/
def SC_WDOG : Fd := ⟨0x8002C, 1, 0x0, 1, 0x0, 0, 32⟩
def SC_WDOG_value : Fd := ⟨0x8002C, 1, 0x0, 1, 0x0, 0, 16⟩

/-! SC_FW (spec/12_safety_controller.md, class T) -/
def SC_FW : Fd := ⟨0x80030, 1, 0x0, 1, 0x0, 0, 32⟩
def SC_FW_ready : Fd := ⟨0x80030, 1, 0x0, 1, 0x0, 0, 1⟩

/-! SC_VAL_CFG (spec/12_safety_controller.md, class S) -/
def SC_VAL_CFG : Fd := ⟨0x80100, 1, 0x0, 1, 0x0, 0, 32⟩
def SC_VAL_CFG_val_time : Fd := ⟨0x80100, 1, 0x0, 1, 0x0, 0, 14⟩

/-! SC_VQ_STAT (spec/12_safety_controller.md, class V) -/
def SC_VQ_STAT : Fd := ⟨0x80104, 1, 0x0, 1, 0x0, 0, 32⟩
def SC_VQ_STAT_depth : Fd := ⟨0x80104, 1, 0x0, 1, 0x0, 0, 7⟩
def SC_VQ_STAT_head_valid : Fd := ⟨0x80104, 1, 0x0, 1, 0x0, 7, 1⟩
def SC_VQ_STAT_seq : Fd := ⟨0x80104, 1, 0x0, 1, 0x0, 8, 16⟩
def SC_VQ_STAT_opcode : Fd := ⟨0x80104, 1, 0x0, 1, 0x0, 24, 8⟩

/-! SC_VQ_SRC (spec/12_safety_controller.md, class V) -/
def SC_VQ_SRC : Fd := ⟨0x80108, 1, 0x0, 1, 0x0, 0, 32⟩
def SC_VQ_SRC_queue_pair : Fd := ⟨0x80108, 1, 0x0, 1, 0x0, 0, 6⟩
def SC_VQ_SRC_left : Fd := ⟨0x80108, 1, 0x0, 1, 0x0, 16, 14⟩

/-! SC_VQ_ARRIVE_LO (spec/12_safety_controller.md, class V) -/
def SC_VQ_ARRIVE_LO : Fd := ⟨0x8010C, 1, 0x0, 1, 0x0, 0, 32⟩

/-! SC_VQ_ARRIVE_HI (spec/12_safety_controller.md, class V) -/
def SC_VQ_ARRIVE_HI : Fd := ⟨0x80110, 1, 0x0, 1, 0x0, 0, 32⟩

/-! SC_VQ_DESC (spec/12_safety_controller.md, class V) -/
def SC_VQ_DESC : Fd := ⟨0x80120, 8, 0x4, 1, 0x0, 0, 32⟩

/-! SC_VQ_VERDICT (spec/12_safety_controller.md, class T) -/
def SC_VQ_VERDICT : Fd := ⟨0x80140, 1, 0x0, 1, 0x0, 0, 32⟩
def SC_VQ_VERDICT_verdict : Fd := ⟨0x80140, 1, 0x0, 1, 0x0, 0, 2⟩
def SC_VQ_VERDICT_reason : Fd := ⟨0x80140, 1, 0x0, 1, 0x0, 4, 12⟩
def SC_VQ_VERDICT_seq : Fd := ⟨0x80140, 1, 0x0, 1, 0x0, 16, 16⟩

/-! SC_VAL_CNT (spec/12_safety_controller.md, class V) -/
def SC_VAL_CNT : Fd := ⟨0x80144, 1, 0x0, 1, 0x0, 0, 32⟩
def SC_VAL_CNT_accepted : Fd := ⟨0x80144, 1, 0x0, 1, 0x0, 0, 16⟩
def SC_VAL_CNT_refused : Fd := ⟨0x80144, 1, 0x0, 1, 0x0, 16, 8⟩
def SC_VAL_CNT_expired : Fd := ⟨0x80144, 1, 0x0, 1, 0x0, 24, 8⟩

/-! SC_ABS_CFG (spec/12_safety_controller.md, class S) -/
def SC_ABS_CFG : Fd := ⟨0x80200, 21, 0x10, 1, 0x0, 0, 32⟩
def SC_ABS_CFG_enable : Fd := ⟨0x80200, 21, 0x10, 1, 0x0, 0, 1⟩
def SC_ABS_CFG_action : Fd := ⟨0x80200, 21, 0x10, 1, 0x0, 1, 2⟩
def SC_ABS_CFG_timeout : Fd := ⟨0x80200, 21, 0x10, 1, 0x0, 3, 16⟩
def SC_ABS_CFG_resp_time : Fd := ⟨0x80200, 21, 0x10, 1, 0x0, 19, 8⟩

/-! SC_ABS_CTRL (spec/12_safety_controller.md, class T) -/
def SC_ABS_CTRL : Fd := ⟨0x80204, 21, 0x10, 1, 0x0, 0, 32⟩
def SC_ABS_CTRL_cmd : Fd := ⟨0x80204, 21, 0x10, 1, 0x0, 0, 2⟩
def SC_ABS_CTRL_status : Fd := ⟨0x80204, 21, 0x10, 1, 0x0, 8, 8⟩

/-! SC_ABS_LEFT (spec/12_safety_controller.md, class V) -/
def SC_ABS_LEFT : Fd := ⟨0x80208, 21, 0x10, 1, 0x0, 0, 32⟩
def SC_ABS_LEFT_left : Fd := ⟨0x80208, 21, 0x10, 1, 0x0, 0, 16⟩
def SC_ABS_LEFT_expired : Fd := ⟨0x80208, 21, 0x10, 1, 0x0, 16, 1⟩
def SC_ABS_LEFT_awaiting : Fd := ⟨0x80208, 21, 0x10, 1, 0x0, 17, 1⟩

/-! SC_ABS_STAT (spec/12_safety_controller.md, class V) -/
def SC_ABS_STAT : Fd := ⟨0x80400, 1, 0x0, 1, 0x0, 0, 32⟩
def SC_ABS_STAT_expired : Fd := ⟨0x80400, 1, 0x0, 1, 0x0, 0, 21⟩

/-! MB_BANK_CFG (spec/13_memory_banks.md, class S) -/
def MB_BANK_CFG : Fd := ⟨0x84000, 16, 0x4, 1, 0x0, 0, 32⟩
def MB_BANK_CFG_owner : Fd := ⟨0x84000, 16, 0x4, 1, 0x0, 0, 3⟩

/-! MB_BANK_CTRL (spec/13_memory_banks.md, class T) -/
def MB_BANK_CTRL : Fd := ⟨0x84040, 16, 0x4, 1, 0x0, 0, 32⟩
def MB_BANK_CTRL_owner : Fd := ⟨0x84040, 16, 0x4, 1, 0x0, 0, 3⟩
def MB_BANK_CTRL_draining : Fd := ⟨0x84040, 16, 0x4, 1, 0x0, 8, 1⟩
def MB_BANK_CTRL_status : Fd := ⟨0x84040, 16, 0x4, 1, 0x0, 16, 8⟩

/-! MB_BANK_STAT (spec/13_memory_banks.md, class V) -/
def MB_BANK_STAT : Fd := ⟨0x84080, 16, 0x4, 1, 0x0, 0, 32⟩
def MB_BANK_STAT_owner : Fd := ⟨0x84080, 16, 0x4, 1, 0x0, 0, 3⟩
def MB_BANK_STAT_draining : Fd := ⟨0x84080, 16, 0x4, 1, 0x0, 3, 1⟩
def MB_BANK_STAT_ue : Fd := ⟨0x84080, 16, 0x4, 1, 0x0, 5, 1⟩
def MB_BANK_STAT_nonowner_wr : Fd := ⟨0x84080, 16, 0x4, 1, 0x0, 6, 1⟩
def MB_BANK_STAT_ce_cnt : Fd := ⟨0x84080, 16, 0x4, 1, 0x0, 8, 8⟩
def MB_BANK_STAT_ue_cnt : Fd := ⟨0x84080, 16, 0x4, 1, 0x0, 16, 8⟩
def MB_BANK_STAT_nonowner_cnt : Fd := ⟨0x84080, 16, 0x4, 1, 0x0, 24, 8⟩

/-! MB_UE_ADDR (spec/13_memory_banks.md, class V) -/
def MB_UE_ADDR : Fd := ⟨0x840C0, 16, 0x4, 1, 0x0, 0, 32⟩
def MB_UE_ADDR_word : Fd := ⟨0x840C0, 16, 0x4, 1, 0x0, 0, 17⟩
def MB_UE_ADDR_addr_fault : Fd := ⟨0x840C0, 16, 0x4, 1, 0x0, 17, 1⟩

/-! MB_SCRUB (spec/13_memory_banks.md, class S) -/
def MB_SCRUB : Fd := ⟨0x84100, 1, 0x0, 1, 0x0, 0, 32⟩
def MB_SCRUB_enable : Fd := ⟨0x84100, 1, 0x0, 1, 0x0, 0, 1⟩
def MB_SCRUB_interval : Fd := ⟨0x84100, 1, 0x0, 1, 0x0, 4, 8⟩

/-! MB_CONF (spec/13_memory_banks.md, class V) -/
def MB_CONF : Fd := ⟨0x84200, 17, 0x4, 1, 0x0, 0, 32⟩
def MB_CONF_waits : Fd := ⟨0x84200, 17, 0x4, 1, 0x0, 0, 24⟩
def MB_CONF_max_wait : Fd := ⟨0x84200, 17, 0x4, 1, 0x0, 24, 8⟩

/-! MB_CONF_CTRL (spec/13_memory_banks.md, class H) -/
def MB_CONF_CTRL : Fd := ⟨0x84300, 1, 0x0, 1, 0x0, 0, 32⟩
def MB_CONF_CTRL_restart : Fd := ⟨0x84300, 1, 0x0, 1, 0x0, 0, 1⟩

/-! HI_LINK (spec/14_host_rings.md, class V) -/
def HI_LINK : Fd := ⟨0x88000, 1, 0x0, 1, 0x0, 0, 32⟩
def HI_LINK_speed : Fd := ⟨0x88000, 1, 0x0, 1, 0x0, 0, 2⟩
def HI_LINK_up : Fd := ⟨0x88000, 1, 0x0, 1, 0x0, 2, 1⟩
def HI_LINK_resets : Fd := ⟨0x88000, 1, 0x0, 1, 0x0, 16, 16⟩

/-! HI_LINK_CFG (spec/14_host_rings.md, class S) -/
def HI_LINK_CFG : Fd := ⟨0x88004, 1, 0x0, 1, 0x0, 0, 32⟩
def HI_LINK_CFG_max_speed : Fd := ⟨0x88004, 1, 0x0, 1, 0x0, 0, 2⟩
def HI_LINK_CFG_aspm_l1 : Fd := ⟨0x88004, 1, 0x0, 1, 0x0, 2, 1⟩

/-! HI_ERR (spec/14_host_rings.md, class V) -/
def HI_ERR : Fd := ⟨0x88008, 1, 0x0, 1, 0x0, 0, 32⟩
def HI_ERR_ur_ca : Fd := ⟨0x88008, 1, 0x0, 1, 0x0, 0, 1⟩
def HI_ERR_poisoned : Fd := ⟨0x88008, 1, 0x0, 1, 0x0, 1, 1⟩
def HI_ERR_timeout : Fd := ⟨0x88008, 1, 0x0, 1, 0x0, 2, 1⟩
def HI_ERR_count : Fd := ⟨0x88008, 1, 0x0, 1, 0x0, 16, 16⟩

/-! HI_SNAP_SIZE (spec/14_host_rings.md, class V) -/
def HI_SNAP_SIZE : Fd := ⟨0x8800C, 1, 0x0, 1, 0x0, 0, 32⟩

/-! HI_WIN_LO (spec/14_host_rings.md, class H) -/
def HI_WIN_LO : Fd := ⟨0x88100, 32, 0x10, 1, 0x0, 0, 32⟩

/-! HI_WIN_HI (spec/14_host_rings.md, class H) -/
def HI_WIN_HI : Fd := ⟨0x88104, 32, 0x10, 1, 0x0, 0, 32⟩

/-! HI_WIN_SIZE (spec/14_host_rings.md, class H) -/
def HI_WIN_SIZE : Fd := ⟨0x88108, 32, 0x10, 1, 0x0, 0, 32⟩
def HI_WIN_SIZE_pages : Fd := ⟨0x88108, 32, 0x10, 1, 0x0, 0, 21⟩

/-! HI_WIN_CFG (spec/14_host_rings.md, class H) -/
def HI_WIN_CFG : Fd := ⟨0x8810C, 32, 0x10, 1, 0x0, 0, 32⟩
def HI_WIN_CFG_enable : Fd := ⟨0x8810C, 32, 0x10, 1, 0x0, 0, 1⟩
def HI_WIN_CFG_dev_read : Fd := ⟨0x8810C, 32, 0x10, 1, 0x0, 1, 1⟩
def HI_WIN_CFG_dev_write : Fd := ⟨0x8810C, 32, 0x10, 1, 0x0, 2, 1⟩

/-! HI_QP_CFG (spec/14_host_rings.md, class S) -/
def HI_QP_CFG : Fd := ⟨0x88400, 64, 0x40, 1, 0x0, 0, 32⟩
def HI_QP_CFG_kind : Fd := ⟨0x88400, 64, 0x40, 1, 0x0, 0, 3⟩
def HI_QP_CFG_size_log2 : Fd := ⟨0x88400, 64, 0x40, 1, 0x0, 3, 5⟩
def HI_QP_CFG_prio : Fd := ⟨0x88400, 64, 0x40, 1, 0x0, 8, 2⟩
def HI_QP_CFG_vector : Fd := ⟨0x88400, 64, 0x40, 1, 0x0, 10, 6⟩
def HI_QP_CFG_vec_en : Fd := ⟨0x88400, 64, 0x40, 1, 0x0, 16, 1⟩

/-! HI_QP_CTRL (spec/14_host_rings.md, class H) -/
def HI_QP_CTRL : Fd := ⟨0x88404, 64, 0x40, 1, 0x0, 0, 32⟩
def HI_QP_CTRL_enable : Fd := ⟨0x88404, 64, 0x40, 1, 0x0, 0, 1⟩
def HI_QP_CTRL_status : Fd := ⟨0x88404, 64, 0x40, 1, 0x0, 8, 8⟩
def HI_QP_CTRL_draining : Fd := ⟨0x88404, 64, 0x40, 1, 0x0, 16, 1⟩

/-! HI_QP_SQ_LO (spec/14_host_rings.md, class H) -/
def HI_QP_SQ_LO : Fd := ⟨0x88408, 64, 0x40, 1, 0x0, 0, 32⟩

/-! HI_QP_SQ_HI (spec/14_host_rings.md, class H) -/
def HI_QP_SQ_HI : Fd := ⟨0x8840C, 64, 0x40, 1, 0x0, 0, 32⟩

/-! HI_QP_CQ_LO (spec/14_host_rings.md, class H) -/
def HI_QP_CQ_LO : Fd := ⟨0x88410, 64, 0x40, 1, 0x0, 0, 32⟩

/-! HI_QP_CQ_HI (spec/14_host_rings.md, class H) -/
def HI_QP_CQ_HI : Fd := ⟨0x88414, 64, 0x40, 1, 0x0, 0, 32⟩

/-! HI_QP_MOD (spec/14_host_rings.md, class H) -/
def HI_QP_MOD : Fd := ⟨0x88418, 64, 0x40, 1, 0x0, 0, 32⟩
def HI_QP_MOD_count : Fd := ⟨0x88418, 64, 0x40, 1, 0x0, 0, 8⟩
def HI_QP_MOD_time : Fd := ⟨0x88418, 64, 0x40, 1, 0x0, 8, 16⟩
def HI_QP_MOD_flush : Fd := ⟨0x88418, 64, 0x40, 1, 0x0, 24, 8⟩

/-! HI_QP_EVMASK (spec/14_host_rings.md, class S) -/
def HI_QP_EVMASK : Fd := ⟨0x8841C, 64, 0x40, 1, 0x0, 0, 32⟩
def HI_QP_EVMASK_mask : Fd := ⟨0x8841C, 64, 0x40, 1, 0x0, 0, 28⟩

/-! HI_QP_STAT (spec/14_host_rings.md, class V) -/
def HI_QP_STAT : Fd := ⟨0x88420, 64, 0x40, 1, 0x0, 0, 32⟩
def HI_QP_STAT_sq_head : Fd := ⟨0x88420, 64, 0x40, 1, 0x0, 0, 16⟩
def HI_QP_STAT_cq_tail : Fd := ⟨0x88420, 64, 0x40, 1, 0x0, 16, 16⟩

/-! HI_QP_FLAGS (spec/14_host_rings.md, class V) -/
def HI_QP_FLAGS : Fd := ⟨0x88424, 64, 0x40, 1, 0x0, 0, 32⟩
def HI_QP_FLAGS_phase : Fd := ⟨0x88424, 64, 0x40, 1, 0x0, 0, 1⟩
def HI_QP_FLAGS_fenced : Fd := ⟨0x88424, 64, 0x40, 1, 0x0, 1, 1⟩
def HI_QP_FLAGS_bad_bell : Fd := ⟨0x88424, 64, 0x40, 1, 0x0, 2, 1⟩
def HI_QP_FLAGS_lost : Fd := ⟨0x88424, 64, 0x40, 1, 0x0, 3, 1⟩
def HI_QP_FLAGS_in_flight : Fd := ⟨0x88424, 64, 0x40, 1, 0x0, 8, 6⟩
def HI_QP_FLAGS_bell_err_cnt : Fd := ⟨0x88424, 64, 0x40, 1, 0x0, 16, 16⟩

/-! HI_QP_SEQ_LO (spec/14_host_rings.md, class V) -/
def HI_QP_SEQ_LO : Fd := ⟨0x88428, 64, 0x40, 1, 0x0, 0, 32⟩

/-! HI_QP_SEQ_HI (spec/14_host_rings.md, class V) -/
def HI_QP_SEQ_HI : Fd := ⟨0x8842C, 64, 0x40, 1, 0x0, 0, 32⟩

/-! HI_QP_LOST (spec/14_host_rings.md, class V) -/
def HI_QP_LOST : Fd := ⟨0x88430, 64, 0x40, 1, 0x0, 0, 32⟩

/-! CN_CFG (spec/15_can_network.md, class S) -/
def CN_CFG : Fd := ⟨0x90000, 8, 0x1000, 1, 0x0, 0, 32⟩
def CN_CFG_enable : Fd := ⟨0x90000, 8, 0x1000, 1, 0x0, 0, 1⟩
def CN_CFG_proto : Fd := ⟨0x90000, 8, 0x1000, 1, 0x0, 1, 2⟩
def CN_CFG_listen_only : Fd := ⟨0x90000, 8, 0x1000, 1, 0x0, 3, 1⟩
def CN_CFG_tx_order : Fd := ⟨0x90000, 8, 0x1000, 1, 0x0, 4, 2⟩
def CN_CFG_pex : Fd := ⟨0x90000, 8, 0x1000, 1, 0x0, 6, 1⟩
def CN_CFG_xl_pwm : Fd := ⟨0x90000, 8, 0x1000, 1, 0x0, 7, 1⟩
def CN_CFG_xl_es : Fd := ⟨0x90000, 8, 0x1000, 1, 0x0, 8, 1⟩
def CN_CFG_tt_en : Fd := ⟨0x90000, 8, 0x1000, 1, 0x0, 9, 1⟩
def CN_CFG_tx_qp : Fd := ⟨0x90000, 8, 0x1000, 1, 0x0, 10, 6⟩
def CN_CFG_rx_qp : Fd := ⟨0x90000, 8, 0x1000, 1, 0x0, 16, 6⟩

/-! CN_NBT (spec/15_can_network.md, class S) -/
def CN_NBT : Fd := ⟨0x90004, 8, 0x1000, 1, 0x0, 0, 32⟩
def CN_NBT_brp : Fd := ⟨0x90004, 8, 0x1000, 1, 0x0, 0, 5⟩
def CN_NBT_tseg1 : Fd := ⟨0x90004, 8, 0x1000, 1, 0x0, 5, 8⟩
def CN_NBT_tseg2 : Fd := ⟨0x90004, 8, 0x1000, 1, 0x0, 13, 7⟩
def CN_NBT_sjw : Fd := ⟨0x90004, 8, 0x1000, 1, 0x0, 20, 7⟩

/-! CN_DBT (spec/15_can_network.md, class S) -/
def CN_DBT : Fd := ⟨0x90008, 8, 0x1000, 1, 0x0, 0, 32⟩
def CN_DBT_brp : Fd := ⟨0x90008, 8, 0x1000, 1, 0x0, 0, 5⟩
def CN_DBT_tseg1 : Fd := ⟨0x90008, 8, 0x1000, 1, 0x0, 5, 8⟩
def CN_DBT_tseg2 : Fd := ⟨0x90008, 8, 0x1000, 1, 0x0, 13, 7⟩
def CN_DBT_sjw : Fd := ⟨0x90008, 8, 0x1000, 1, 0x0, 20, 7⟩

/-! CN_XBT (spec/15_can_network.md, class S) -/
def CN_XBT : Fd := ⟨0x9000C, 8, 0x1000, 1, 0x0, 0, 32⟩
def CN_XBT_brp : Fd := ⟨0x9000C, 8, 0x1000, 1, 0x0, 0, 5⟩
def CN_XBT_tseg1 : Fd := ⟨0x9000C, 8, 0x1000, 1, 0x0, 5, 8⟩
def CN_XBT_tseg2 : Fd := ⟨0x9000C, 8, 0x1000, 1, 0x0, 13, 7⟩
def CN_XBT_sjw : Fd := ⟨0x9000C, 8, 0x1000, 1, 0x0, 20, 7⟩

/-! CN_TDC (spec/15_can_network.md, class S) -/
def CN_TDC : Fd := ⟨0x90010, 8, 0x1000, 1, 0x0, 0, 32⟩
def CN_TDC_d_offset : Fd := ⟨0x90010, 8, 0x1000, 1, 0x0, 0, 8⟩
def CN_TDC_d_en : Fd := ⟨0x90010, 8, 0x1000, 1, 0x0, 8, 1⟩
def CN_TDC_x_offset : Fd := ⟨0x90010, 8, 0x1000, 1, 0x0, 16, 8⟩
def CN_TDC_x_en : Fd := ⟨0x90010, 8, 0x1000, 1, 0x0, 24, 1⟩

/-! CN_TT_CFG (spec/15_can_network.md, class S) -/
def CN_TT_CFG : Fd := ⟨0x90014, 8, 0x1000, 1, 0x0, 0, 32⟩
def CN_TT_CFG_role : Fd := ⟨0x90014, 8, 0x1000, 1, 0x0, 0, 2⟩
def CN_TT_CFG_prio : Fd := ⟨0x90014, 8, 0x1000, 1, 0x0, 2, 3⟩
def CN_TT_CFG_mc_log2 : Fd := ⟨0x90014, 8, 0x1000, 1, 0x0, 5, 3⟩
def CN_TT_CFG_ref_hi : Fd := ⟨0x90014, 8, 0x1000, 1, 0x0, 8, 8⟩
def CN_TT_CFG_tx_win : Fd := ⟨0x90014, 8, 0x1000, 1, 0x0, 16, 4⟩
def CN_TT_CFG_level2 : Fd := ⟨0x90014, 8, 0x1000, 1, 0x0, 20, 1⟩
def CN_TT_CFG_gt_src : Fd := ⟨0x90014, 8, 0x1000, 1, 0x0, 21, 1⟩
def CN_TT_CFG_excl_guard : Fd := ⟨0x90014, 8, 0x1000, 1, 0x0, 22, 8⟩

/-! CN_TT_NTU (spec/15_can_network.md, class S) -/
def CN_TT_NTU : Fd := ⟨0x90018, 8, 0x1000, 1, 0x0, 0, 32⟩

/-! CN_TT_CYCLE (spec/15_can_network.md, class S) -/
def CN_TT_CYCLE : Fd := ⟨0x9001C, 8, 0x1000, 1, 0x0, 0, 32⟩
def CN_TT_CYCLE_cycle : Fd := ⟨0x9001C, 8, 0x1000, 1, 0x0, 0, 16⟩
def CN_TT_CYCLE_ref_watch : Fd := ⟨0x9001C, 8, 0x1000, 1, 0x0, 16, 16⟩

/-! CN_CTRL (spec/15_can_network.md, class H) -/
def CN_CTRL : Fd := ⟨0x90020, 8, 0x1000, 1, 0x0, 0, 32⟩
def CN_CTRL_cmd : Fd := ⟨0x90020, 8, 0x1000, 1, 0x0, 0, 2⟩
def CN_CTRL_status : Fd := ⟨0x90020, 8, 0x1000, 1, 0x0, 8, 8⟩
def CN_CTRL_pending : Fd := ⟨0x90020, 8, 0x1000, 1, 0x0, 16, 1⟩

/-! CN_STAT (spec/15_can_network.md, class V) -/
def CN_STAT : Fd := ⟨0x90024, 8, 0x1000, 1, 0x0, 0, 32⟩
def CN_STAT_state : Fd := ⟨0x90024, 8, 0x1000, 1, 0x0, 0, 3⟩
def CN_STAT_fenced : Fd := ⟨0x90024, 8, 0x1000, 1, 0x0, 3, 1⟩
def CN_STAT_slots : Fd := ⟨0x90024, 8, 0x1000, 1, 0x0, 4, 3⟩
def CN_STAT_tec : Fd := ⟨0x90024, 8, 0x1000, 1, 0x0, 8, 9⟩
def CN_STAT_rec : Fd := ⟨0x90024, 8, 0x1000, 1, 0x0, 17, 8⟩

/-! CN_CNT (spec/15_can_network.md, class V) -/
def CN_CNT : Fd := ⟨0x90028, 8, 0x1000, 1, 0x0, 0, 32⟩
def CN_CNT_bus_off : Fd := ⟨0x90028, 8, 0x1000, 1, 0x0, 0, 8⟩
def CN_CNT_no_ack : Fd := ⟨0x90028, 8, 0x1000, 1, 0x0, 8, 8⟩
def CN_CNT_unmatched : Fd := ⟨0x90028, 8, 0x1000, 1, 0x0, 16, 16⟩

/-! CN_TT_STAT (spec/15_can_network.md, class V) -/
def CN_TT_STAT : Fd := ⟨0x9002C, 8, 0x1000, 1, 0x0, 0, 32⟩
def CN_TT_STAT_state : Fd := ⟨0x9002C, 8, 0x1000, 1, 0x0, 0, 3⟩
def CN_TT_STAT_gt_valid : Fd := ⟨0x9002C, 8, 0x1000, 1, 0x0, 3, 1⟩
def CN_TT_STAT_missed : Fd := ⟨0x9002C, 8, 0x1000, 1, 0x0, 4, 1⟩
def CN_TT_STAT_master_lost : Fd := ⟨0x9002C, 8, 0x1000, 1, 0x0, 5, 1⟩
def CN_TT_STAT_cycle_count : Fd := ⟨0x9002C, 8, 0x1000, 1, 0x0, 6, 6⟩
def CN_TT_STAT_master_prio : Fd := ⟨0x9002C, 8, 0x1000, 1, 0x0, 12, 3⟩
def CN_TT_STAT_cycle_time : Fd := ⟨0x9002C, 8, 0x1000, 1, 0x0, 16, 16⟩

/-! CN_TT_GT_LO (spec/15_can_network.md, class V) -/
def CN_TT_GT_LO : Fd := ⟨0x90030, 8, 0x1000, 1, 0x0, 0, 32⟩

/-! CN_TT_GT_HI (spec/15_can_network.md, class V) -/
def CN_TT_GT_HI : Fd := ⟨0x90034, 8, 0x1000, 1, 0x0, 0, 32⟩

/-! CN_TT_TRIG (spec/15_can_network.md, class S) -/
def CN_TT_TRIG : Fd := ⟨0x90200, 8, 0x1000, 32, 0x8, 0, 32⟩
def CN_TT_TRIG_type : Fd := ⟨0x90200, 8, 0x1000, 32, 0x8, 0, 3⟩
def CN_TT_TRIG_enable : Fd := ⟨0x90200, 8, 0x1000, 32, 0x8, 3, 1⟩
def CN_TT_TRIG_offset : Fd := ⟨0x90200, 8, 0x1000, 32, 0x8, 4, 6⟩
def CN_TT_TRIG_rep_log2 : Fd := ⟨0x90200, 8, 0x1000, 32, 0x8, 10, 3⟩
def CN_TT_TRIG_flow : Fd := ⟨0x90200, 8, 0x1000, 32, 0x8, 13, 8⟩

/-! CN_TT_MARK (spec/15_can_network.md, class S) -/
def CN_TT_MARK : Fd := ⟨0x90204, 8, 0x1000, 32, 0x8, 0, 32⟩
def CN_TT_MARK_mark : Fd := ⟨0x90204, 8, 0x1000, 32, 0x8, 0, 16⟩

/-! CN_FLT_ID (spec/15_can_network.md, class S) -/
def CN_FLT_ID : Fd := ⟨0x90800, 8, 0x1000, 256, 0x8, 0, 32⟩
def CN_FLT_ID_id : Fd := ⟨0x90800, 8, 0x1000, 256, 0x8, 0, 29⟩
def CN_FLT_ID_format : Fd := ⟨0x90800, 8, 0x1000, 256, 0x8, 29, 2⟩

/-! CN_FLT_MASK (spec/15_can_network.md, class S) -/
def CN_FLT_MASK : Fd := ⟨0x90804, 8, 0x1000, 256, 0x8, 0, 32⟩
def CN_FLT_MASK_mask : Fd := ⟨0x90804, 8, 0x1000, 256, 0x8, 0, 29⟩

/-! FL_CFG (spec/15_can_network.md, class S) -/
def FL_CFG : Fd := ⟨0x98000, 256, 0x40, 1, 0x0, 0, 32⟩
def FL_CFG_enable : Fd := ⟨0x98000, 256, 0x40, 1, 0x0, 0, 1⟩
def FL_CFG_dir : Fd := ⟨0x98000, 256, 0x40, 1, 0x0, 1, 2⟩
def FL_CFG_controller : Fd := ⟨0x98000, 256, 0x40, 1, 0x0, 3, 3⟩
def FL_CFG_filter : Fd := ⟨0x98000, 256, 0x40, 1, 0x0, 6, 8⟩
def FL_CFG_dest : Fd := ⟨0x98000, 256, 0x40, 1, 0x0, 14, 2⟩
def FL_CFG_profile : Fd := ⟨0x98000, 256, 0x40, 1, 0x0, 16, 2⟩
def FL_CFG_tt : Fd := ⟨0x98000, 256, 0x40, 1, 0x0, 18, 1⟩
def FL_CFG_age_en : Fd := ⟨0x98000, 256, 0x40, 1, 0x0, 19, 1⟩

/-! FL_ID (spec/15_can_network.md, class S) -/
def FL_ID : Fd := ⟨0x98004, 256, 0x40, 1, 0x0, 0, 32⟩
def FL_ID_id : Fd := ⟨0x98004, 256, 0x40, 1, 0x0, 0, 29⟩
def FL_ID_format : Fd := ⟨0x98004, 256, 0x40, 1, 0x0, 29, 2⟩

/-! FL_SEC (spec/15_can_network.md, class S) -/
def FL_SEC : Fd := ⟨0x98008, 256, 0x40, 1, 0x0, 0, 32⟩
def FL_SEC_key : Fd := ⟨0x98008, 256, 0x40, 1, 0x0, 0, 8⟩
def FL_SEC_tag : Fd := ⟨0x98008, 256, 0x40, 1, 0x0, 8, 2⟩
def FL_SEC_fv : Fd := ⟨0x98008, 256, 0x40, 1, 0x0, 10, 2⟩
def FL_SEC_fv_window : Fd := ⟨0x98008, 256, 0x40, 1, 0x0, 12, 16⟩

/-! FL_AGE (spec/15_can_network.md, class S) -/
def FL_AGE : Fd := ⟨0x9800C, 256, 0x40, 1, 0x0, 0, 32⟩
def FL_AGE_max_age : Fd := ⟨0x9800C, 256, 0x40, 1, 0x0, 0, 16⟩

/-! FL_SC_ADDR (spec/15_can_network.md, class S) -/
def FL_SC_ADDR : Fd := ⟨0x98010, 256, 0x40, 1, 0x0, 0, 32⟩
def FL_SC_ADDR_addr : Fd := ⟨0x98010, 256, 0x40, 1, 0x0, 0, 23⟩

/-! FL_FV_TX_LO (spec/15_can_network.md, class V) -/
def FL_FV_TX_LO : Fd := ⟨0x98018, 256, 0x40, 1, 0x0, 0, 32⟩

/-! FL_FV_TX_HI (spec/15_can_network.md, class V) -/
def FL_FV_TX_HI : Fd := ⟨0x9801C, 256, 0x40, 1, 0x0, 0, 32⟩

/-! FL_FV_RX_LO (spec/15_can_network.md, class V) -/
def FL_FV_RX_LO : Fd := ⟨0x98020, 256, 0x40, 1, 0x0, 0, 32⟩

/-! FL_FV_RX_HI (spec/15_can_network.md, class V) -/
def FL_FV_RX_HI : Fd := ⟨0x98024, 256, 0x40, 1, 0x0, 0, 32⟩

/-! FL_STAT (spec/15_can_network.md, class V) -/
def FL_STAT : Fd := ⟨0x98028, 256, 0x40, 1, 0x0, 0, 32⟩
def FL_STAT_stale : Fd := ⟨0x98028, 256, 0x40, 1, 0x0, 0, 1⟩
def FL_STAT_auth : Fd := ⟨0x98028, 256, 0x40, 1, 0x0, 1, 1⟩
def FL_STAT_replay : Fd := ⟨0x98028, 256, 0x40, 1, 0x0, 2, 1⟩
def FL_STAT_missed : Fd := ⟨0x98028, 256, 0x40, 1, 0x0, 3, 1⟩
def FL_STAT_fenced : Fd := ⟨0x98028, 256, 0x40, 1, 0x0, 4, 1⟩
def FL_STAT_last_status : Fd := ⟨0x98028, 256, 0x40, 1, 0x0, 8, 8⟩
def FL_STAT_frames : Fd := ⟨0x98028, 256, 0x40, 1, 0x0, 16, 16⟩

/-! FL_CNT (spec/15_can_network.md, class V) -/
def FL_CNT : Fd := ⟨0x9802C, 256, 0x40, 1, 0x0, 0, 32⟩
def FL_CNT_auth : Fd := ⟨0x9802C, 256, 0x40, 1, 0x0, 0, 16⟩
def FL_CNT_replay : Fd := ⟨0x9802C, 256, 0x40, 1, 0x0, 16, 16⟩

/-! FL_LAST_LO (spec/15_can_network.md, class V) -/
def FL_LAST_LO : Fd := ⟨0x98030, 256, 0x40, 1, 0x0, 0, 32⟩

/-! FL_LAST_HI (spec/15_can_network.md, class V) -/
def FL_LAST_HI : Fd := ⟨0x98034, 256, 0x40, 1, 0x0, 0, 32⟩

/-! SEC_CFG (spec/16_security_and_imset.md, class S) -/
def SEC_CFG : Fd := ⟨0xA0000, 1, 0x0, 1, 0x0, 0, 32⟩
def SEC_CFG_uart_sealed : Fd := ⟨0xA0000, 1, 0x0, 1, 0x0, 0, 1⟩
def SEC_CFG_uart_rate : Fd := ⟨0xA0000, 1, 0x0, 1, 0x0, 4, 4⟩
def SEC_CFG_session_max : Fd := ⟨0xA0000, 1, 0x0, 1, 0x0, 8, 16⟩

/-! SEC_STAT (spec/16_security_and_imset.md, class V) -/
def SEC_STAT : Fd := ⟨0xA0004, 1, 0x0, 1, 0x0, 0, 32⟩
def SEC_STAT_key_slot : Fd := ⟨0xA0004, 1, 0x0, 1, 0x0, 0, 2⟩
def SEC_STAT_enrolled : Fd := ⟨0xA0004, 1, 0x0, 1, 0x0, 2, 4⟩
def SEC_STAT_session_qp0 : Fd := ⟨0xA0004, 1, 0x0, 1, 0x0, 6, 1⟩
def SEC_STAT_session_uart : Fd := ⟨0xA0004, 1, 0x0, 1, 0x0, 7, 1⟩
def SEC_STAT_otp_err : Fd := ⟨0xA0004, 1, 0x0, 1, 0x0, 8, 1⟩

/-! SEC_CTR_SEL (spec/16_security_and_imset.md, class H) -/
def SEC_CTR_SEL : Fd := ⟨0xA0008, 1, 0x0, 1, 0x0, 0, 32⟩
def SEC_CTR_SEL_counter : Fd := ⟨0xA0008, 1, 0x0, 1, 0x0, 0, 6⟩

/-! SEC_CTR (spec/16_security_and_imset.md, class V) -/
def SEC_CTR : Fd := ⟨0xA000C, 1, 0x0, 1, 0x0, 0, 32⟩
def SEC_CTR_value : Fd := ⟨0xA000C, 1, 0x0, 1, 0x0, 0, 10⟩

/-! SEC_KEY_SEL (spec/16_security_and_imset.md, class H) -/
def SEC_KEY_SEL : Fd := ⟨0xA0010, 1, 0x0, 1, 0x0, 0, 32⟩
def SEC_KEY_SEL_slot : Fd := ⟨0xA0010, 1, 0x0, 1, 0x0, 0, 8⟩

/-! SEC_KEY_STAT (spec/16_security_and_imset.md, class V) -/
def SEC_KEY_STAT : Fd := ⟨0xA0014, 1, 0x0, 1, 0x0, 0, 32⟩
def SEC_KEY_STAT_loaded : Fd := ⟨0xA0014, 1, 0x0, 1, 0x0, 0, 1⟩
def SEC_KEY_STAT_loads : Fd := ⟨0xA0014, 1, 0x0, 1, 0x0, 16, 16⟩

/-! SEC_KEY_FP (spec/16_security_and_imset.md, class V) -/
def SEC_KEY_FP : Fd := ⟨0xA0020, 4, 0x4, 1, 0x0, 0, 32⟩

/-! SEC_ID_DIGEST (spec/16_security_and_imset.md, class V) -/
def SEC_ID_DIGEST : Fd := ⟨0xA0040, 16, 0x4, 1, 0x0, 0, 32⟩

/-! SEC_IMG (spec/16_security_and_imset.md, class V) -/
def SEC_IMG : Fd := ⟨0xA0100, 3, 0x4, 1, 0x0, 0, 32⟩
def SEC_IMG_active : Fd := ⟨0xA0100, 3, 0x4, 1, 0x0, 0, 1⟩
def SEC_IMG_trial : Fd := ⟨0xA0100, 3, 0x4, 1, 0x0, 1, 1⟩
def SEC_IMG_pending : Fd := ⟨0xA0100, 3, 0x4, 1, 0x0, 2, 1⟩
def SEC_IMG_other_valid : Fd := ⟨0xA0100, 3, 0x4, 1, 0x0, 3, 1⟩
def SEC_IMG_version : Fd := ⟨0xA0100, 3, 0x4, 1, 0x0, 4, 10⟩
def SEC_IMG_other_version : Fd := ⟨0xA0100, 3, 0x4, 1, 0x0, 14, 10⟩

/-! IMS_STAT (spec/16_security_and_imset.md, class V) -/
def IMS_STAT : Fd := ⟨0xA4000, 1, 0x0, 1, 0x0, 0, 32⟩
def IMS_STAT_state : Fd := ⟨0xA4000, 1, 0x0, 1, 0x0, 0, 3⟩
def IMS_STAT_busy : Fd := ⟨0xA4000, 1, 0x0, 1, 0x0, 3, 1⟩
def IMS_STAT_flash_err : Fd := ⟨0xA4000, 1, 0x0, 1, 0x0, 4, 1⟩
def IMS_STAT_refreshing : Fd := ⟨0xA4000, 1, 0x0, 1, 0x0, 5, 1⟩
def IMS_STAT_ledger_queue : Fd := ⟨0xA4000, 1, 0x0, 1, 0x0, 8, 8⟩

/-! IMS_BOOT (spec/16_security_and_imset.md, class V) -/
def IMS_BOOT : Fd := ⟨0xA4004, 1, 0x0, 1, 0x0, 0, 32⟩
def IMS_BOOT_count : Fd := ⟨0xA4004, 1, 0x0, 1, 0x0, 0, 24⟩
def IMS_BOOT_seal_ms : Fd := ⟨0xA4004, 1, 0x0, 1, 0x0, 24, 8⟩

/-! IMS_HOURS (spec/16_security_and_imset.md, class V) -/
def IMS_HOURS : Fd := ⟨0xA4008, 1, 0x0, 1, 0x0, 0, 32⟩
def IMS_HOURS_hours : Fd := ⟨0xA4008, 1, 0x0, 1, 0x0, 0, 24⟩

/-! IMS_REFRESH (spec/16_security_and_imset.md, class V) -/
def IMS_REFRESH : Fd := ⟨0xA400C, 1, 0x0, 1, 0x0, 0, 32⟩
def IMS_REFRESH_oldest_days : Fd := ⟨0xA400C, 1, 0x0, 1, 0x0, 0, 16⟩
def IMS_REFRESH_sectors : Fd := ⟨0xA400C, 1, 0x0, 1, 0x0, 16, 16⟩

/-! IMS_UART (spec/16_security_and_imset.md, class V) -/
def IMS_UART : Fd := ⟨0xA4010, 1, 0x0, 1, 0x0, 0, 32⟩
def IMS_UART_answering : Fd := ⟨0xA4010, 1, 0x0, 1, 0x0, 0, 1⟩
def IMS_UART_bad_frames : Fd := ⟨0xA4010, 1, 0x0, 1, 0x0, 16, 16⟩

/-! FLT_CFG (spec/17_faults_and_recovery.md, class S) -/
def FLT_CFG : Fd := ⟨0xA8000, 1, 0x0, 1, 0x0, 0, 32⟩
def FLT_CFG_window : Fd := ⟨0xA8000, 1, 0x0, 1, 0x0, 0, 8⟩
def FLT_CFG_alert_class : Fd := ⟨0xA8000, 1, 0x0, 1, 0x0, 8, 3⟩

/-! FLT_STAT (spec/17_faults_and_recovery.md, class V) -/
def FLT_STAT : Fd := ⟨0xA8004, 1, 0x0, 1, 0x0, 0, 32⟩
def FLT_STAT_alert : Fd := ⟨0xA8004, 1, 0x0, 1, 0x0, 0, 1⟩
def FLT_STAT_lost : Fd := ⟨0xA8004, 1, 0x0, 1, 0x0, 1, 1⟩
def FLT_STAT_safe : Fd := ⟨0xA8004, 1, 0x0, 1, 0x0, 2, 1⟩
def FLT_STAT_unflushed : Fd := ⟨0xA8004, 1, 0x0, 1, 0x0, 16, 11⟩

/-! FLT_HEAD_LO (spec/17_faults_and_recovery.md, class V) -/
def FLT_HEAD_LO : Fd := ⟨0xA8008, 1, 0x0, 1, 0x0, 0, 32⟩

/-! FLT_HEAD_HI (spec/17_faults_and_recovery.md, class V) -/
def FLT_HEAD_HI : Fd := ⟨0xA800C, 1, 0x0, 1, 0x0, 0, 32⟩

/-! FLT_LOST (spec/17_faults_and_recovery.md, class V) -/
def FLT_LOST : Fd := ⟨0xA8010, 1, 0x0, 1, 0x0, 0, 32⟩

/-! FLT_CLASS_CNT (spec/17_faults_and_recovery.md, class V) -/
def FLT_CLASS_CNT : Fd := ⟨0xA8014, 1, 0x0, 1, 0x0, 0, 32⟩
def FLT_CLASS_CNT_report : Fd := ⟨0xA8014, 1, 0x0, 1, 0x0, 0, 8⟩
def FLT_CLASS_CNT_c : Fd := ⟨0xA8014, 1, 0x0, 1, 0x0, 8, 8⟩
def FLT_CLASS_CNT_s : Fd := ⟨0xA8014, 1, 0x0, 1, 0x0, 16, 8⟩
def FLT_CLASS_CNT_d : Fd := ⟨0xA8014, 1, 0x0, 1, 0x0, 24, 8⟩

/-! FLT_ACT (spec/17_faults_and_recovery.md, class T) -/
def FLT_ACT : Fd := ⟨0xA8018, 1, 0x0, 1, 0x0, 0, 32⟩
def FLT_ACT_cmd : Fd := ⟨0xA8018, 1, 0x0, 1, 0x0, 0, 2⟩
def FLT_ACT_kind : Fd := ⟨0xA8018, 1, 0x0, 1, 0x0, 8, 8⟩
def FLT_ACT_index : Fd := ⟨0xA8018, 1, 0x0, 1, 0x0, 16, 8⟩
def FLT_ACT_status : Fd := ⟨0xA8018, 1, 0x0, 1, 0x0, 24, 8⟩

/-! FLT_SAFE (spec/17_faults_and_recovery.md, class V) -/
def FLT_SAFE : Fd := ⟨0xA801C, 1, 0x0, 1, 0x0, 0, 32⟩
def FLT_SAFE_safe : Fd := ⟨0xA801C, 1, 0x0, 1, 0x0, 0, 1⟩
def FLT_SAFE_out0 : Fd := ⟨0xA801C, 1, 0x0, 1, 0x0, 1, 1⟩
def FLT_SAFE_out1 : Fd := ⟨0xA801C, 1, 0x0, 1, 0x0, 2, 1⟩
def FLT_SAFE_kind : Fd := ⟨0xA801C, 1, 0x0, 1, 0x0, 8, 8⟩
def FLT_SAFE_index : Fd := ⟨0xA801C, 1, 0x0, 1, 0x0, 16, 8⟩
def FLT_SAFE_status : Fd := ⟨0xA801C, 1, 0x0, 1, 0x0, 24, 8⟩

/-! FLT_SAFE_TIME_LO (spec/17_faults_and_recovery.md, class V) -/
def FLT_SAFE_TIME_LO : Fd := ⟨0xA8020, 1, 0x0, 1, 0x0, 0, 32⟩

/-! FLT_SAFE_TIME_HI (spec/17_faults_and_recovery.md, class V) -/
def FLT_SAFE_TIME_HI : Fd := ⟨0xA8024, 1, 0x0, 1, 0x0, 0, 32⟩

/-! FLT_SEL (spec/17_faults_and_recovery.md, class H) -/
def FLT_SEL : Fd := ⟨0xA8100, 3, 0x40, 1, 0x0, 0, 32⟩
def FLT_SEL_slot : Fd := ⟨0xA8100, 3, 0x40, 1, 0x0, 0, 10⟩

/-! FLT_REC (spec/17_faults_and_recovery.md, class V) -/
def FLT_REC : Fd := ⟨0xA8104, 3, 0x40, 8, 0x4, 0, 32⟩

/-! FAB_SPEED (spec/18_power_clocks_thermal.md, class V) -/
def FAB_SPEED : Fd := ⟨0x1040, 4, 0x4, 1, 0x0, 0, 32⟩
def FAB_SPEED_k : Fd := ⟨0x1040, 4, 0x4, 1, 0x0, 0, 16⟩
def FAB_SPEED_k_max : Fd := ⟨0x1040, 4, 0x4, 1, 0x0, 16, 16⟩

/-! PWR_STAT (spec/18_power_clocks_thermal.md, class V) -/
def PWR_STAT : Fd := ⟨0x2000, 1, 0x0, 1, 0x0, 0, 32⟩
def PWR_STAT_vin : Fd := ⟨0x2000, 1, 0x0, 1, 0x0, 0, 10⟩
def PWR_STAT_vfab : Fd := ⟨0x2000, 1, 0x0, 1, 0x0, 10, 10⟩
def PWR_STAT_vin_high : Fd := ⟨0x2000, 1, 0x0, 1, 0x0, 20, 1⟩
def PWR_STAT_vfab_limit : Fd := ⟨0x2000, 1, 0x0, 1, 0x0, 21, 1⟩

/-! PWR_RESET_CAUSE (spec/18_power_clocks_thermal.md, class V) -/
def PWR_RESET_CAUSE : Fd := ⟨0x2004, 1, 0x0, 1, 0x0, 0, 32⟩
def PWR_RESET_CAUSE_cause : Fd := ⟨0x2004, 1, 0x0, 1, 0x0, 0, 5⟩

/-! PWR_FAB_CFG (spec/18_power_clocks_thermal.md, class S) -/
def PWR_FAB_CFG : Fd := ⟨0x2008, 1, 0x0, 1, 0x0, 0, 32⟩
def PWR_FAB_CFG_mode : Fd := ⟨0x2008, 1, 0x0, 1, 0x0, 0, 2⟩
def PWR_FAB_CFG_k_target : Fd := ⟨0x2008, 1, 0x0, 1, 0x0, 8, 8⟩
def PWR_FAB_CFG_vset : Fd := ⟨0x2008, 1, 0x0, 1, 0x0, 16, 8⟩

/-! PWR_CLK_STAT (spec/18_power_clocks_thermal.md, class V) -/
def PWR_CLK_STAT : Fd := ⟨0x200C, 1, 0x0, 1, 0x0, 0, 32⟩
def PWR_CLK_STAT_ext : Fd := ⟨0x200C, 1, 0x0, 1, 0x0, 0, 1⟩

/-! PWR_FQI_TC (spec/18_power_clocks_thermal.md, class S) -/
def PWR_FQI_TC : Fd := ⟨0x2010, 3, 0x4, 1, 0x0, 0, 32⟩

/-! PWR_SLEEP_CFG (spec/18_power_clocks_thermal.md, class S) -/
def PWR_SLEEP_CFG : Fd := ⟨0x2020, 1, 0x0, 1, 0x0, 0, 32⟩
def PWR_SLEEP_CFG_wake_in_en : Fd := ⟨0x2020, 1, 0x0, 1, 0x0, 0, 2⟩
def PWR_SLEEP_CFG_wake_in_pol : Fd := ⟨0x2020, 1, 0x0, 1, 0x0, 2, 2⟩
def PWR_SLEEP_CFG_perst_en : Fd := ⟨0x2020, 1, 0x0, 1, 0x0, 8, 1⟩
def PWR_SLEEP_CFG_can_en : Fd := ⟨0x2020, 1, 0x0, 1, 0x0, 9, 8⟩

/-! PWR_SLEEP_CTRL (spec/18_power_clocks_thermal.md, class T) -/
def PWR_SLEEP_CTRL : Fd := ⟨0x2024, 1, 0x0, 1, 0x0, 0, 32⟩
def PWR_SLEEP_CTRL_enter : Fd := ⟨0x2024, 1, 0x0, 1, 0x0, 0, 1⟩
def PWR_SLEEP_CTRL_status : Fd := ⟨0x2024, 1, 0x0, 1, 0x0, 8, 8⟩

/-! PWR_WAKE_STAT (spec/18_power_clocks_thermal.md, class V) -/
def PWR_WAKE_STAT : Fd := ⟨0x2028, 1, 0x0, 1, 0x0, 0, 32⟩
def PWR_WAKE_STAT_wake_in : Fd := ⟨0x2028, 1, 0x0, 1, 0x0, 0, 2⟩
def PWR_WAKE_STAT_perst : Fd := ⟨0x2028, 1, 0x0, 1, 0x0, 2, 1⟩
def PWR_WAKE_STAT_can : Fd := ⟨0x2028, 1, 0x0, 1, 0x0, 3, 8⟩
def PWR_WAKE_STAT_slept_s : Fd := ⟨0x2028, 1, 0x0, 1, 0x0, 11, 21⟩

/-! PWR_SAFE_WDOG (spec/18_power_clocks_thermal.md, class S) -/
def PWR_SAFE_WDOG : Fd := ⟨0x202C, 1, 0x0, 1, 0x0, 0, 32⟩
def PWR_SAFE_WDOG_delay : Fd := ⟨0x202C, 1, 0x0, 1, 0x0, 0, 16⟩
def PWR_SAFE_WDOG_enable : Fd := ⟨0x202C, 1, 0x0, 1, 0x0, 16, 1⟩

/-! PWR_CAL_LO (spec/18_power_clocks_thermal.md, class V) -/
def PWR_CAL_LO : Fd := ⟨0x2030, 1, 0x0, 1, 0x0, 0, 32⟩

/-! PWR_CAL_HI (spec/18_power_clocks_thermal.md, class V) -/
def PWR_CAL_HI : Fd := ⟨0x2034, 1, 0x0, 1, 0x0, 0, 32⟩

/-! THM_TS (spec/18_power_clocks_thermal.md, class V) -/
def THM_TS : Fd := ⟨0x3000, 57, 0x4, 1, 0x0, 0, 32⟩

/-! THM_FENCED_LO (spec/18_power_clocks_thermal.md, class V) -/
def THM_FENCED_LO : Fd := ⟨0x3100, 1, 0x0, 1, 0x0, 0, 32⟩

/-! THM_FENCED_HI (spec/18_power_clocks_thermal.md, class V) -/
def THM_FENCED_HI : Fd := ⟨0x3104, 1, 0x0, 1, 0x0, 0, 32⟩

/-! THM_CC_CFG (spec/18_power_clocks_thermal.md, class S) -/
def THM_CC_CFG : Fd := ⟨0x3108, 1, 0x0, 1, 0x0, 0, 32⟩
def THM_CC_CFG_tol_zone : Fd := ⟨0x3108, 1, 0x0, 1, 0x0, 0, 8⟩
def THM_CC_CFG_tol_pod : Fd := ⟨0x3108, 1, 0x0, 1, 0x0, 8, 8⟩
def THM_CC_CFG_tol_die : Fd := ⟨0x3108, 1, 0x0, 1, 0x0, 16, 8⟩
def THM_CC_CFG_cc_count : Fd := ⟨0x3108, 1, 0x0, 1, 0x0, 24, 8⟩

/-! THM_MAX (spec/18_power_clocks_thermal.md, class V) -/
def THM_MAX : Fd := ⟨0x310C, 1, 0x0, 1, 0x0, 0, 32⟩

/-! THM_DERATE_CFG (spec/18_power_clocks_thermal.md, class S) -/
def THM_DERATE_CFG : Fd := ⟨0x3110, 2, 0x4, 1, 0x0, 0, 32⟩
def THM_DERATE_CFG_t_start : Fd := ⟨0x3110, 2, 0x4, 1, 0x0, 0, 8⟩
def THM_DERATE_CFG_t_stop : Fd := ⟨0x3110, 2, 0x4, 1, 0x0, 8, 8⟩
def THM_DERATE_CFG_ext_en : Fd := ⟨0x3110, 2, 0x4, 1, 0x0, 16, 1⟩
def THM_DERATE_CFG_pv_mask : Fd := ⟨0x3110, 2, 0x4, 1, 0x0, 17, 6⟩

/-! THM_STAGE_MAX (spec/18_power_clocks_thermal.md, class V) -/
def THM_STAGE_MAX : Fd := ⟨0x3200, 21, 0x8, 1, 0x0, 0, 32⟩

/-! THM_DERATE (spec/18_power_clocks_thermal.md, class V) -/
def THM_DERATE : Fd := ⟨0x3204, 21, 0x8, 1, 0x0, 0, 32⟩

/-! THM_NTC (spec/18_power_clocks_thermal.md, class S) -/
def THM_NTC : Fd := ⟨0x3300, 14, 0x8, 1, 0x0, 0, 32⟩
def THM_NTC_r25 : Fd := ⟨0x3300, 14, 0x8, 1, 0x0, 0, 16⟩
def THM_NTC_beta : Fd := ⟨0x3300, 14, 0x8, 1, 0x0, 16, 16⟩

/-! THM_PV_CFG (spec/18_power_clocks_thermal.md, class S) -/
def THM_PV_CFG : Fd := ⟨0x3304, 14, 0x8, 1, 0x0, 0, 32⟩
def THM_PV_CFG_v0 : Fd := ⟨0x3304, 14, 0x8, 1, 0x0, 0, 16⟩
def THM_PV_CFG_slope : Fd := ⟨0x3304, 14, 0x8, 1, 0x0, 16, 16⟩

/-! THM_TN (spec/18_power_clocks_thermal.md, class V) -/
def THM_TN : Fd := ⟨0x3380, 14, 0x8, 1, 0x0, 0, 32⟩

/-! THM_PVT (spec/18_power_clocks_thermal.md, class V) -/
def THM_PVT : Fd := ⟨0x3384, 14, 0x8, 1, 0x0, 0, 32⟩

/-! THM_LIFE (spec/18_power_clocks_thermal.md, class V) -/
def THM_LIFE : Fd := ⟨0x3400, 1, 0x0, 1, 0x0, 0, 32⟩
def THM_LIFE_hours : Fd := ⟨0x3400, 1, 0x0, 1, 0x0, 0, 24⟩
def THM_LIFE_limit : Fd := ⟨0x3400, 1, 0x0, 1, 0x0, 24, 1⟩

end F
end Sys2Proof.Machine
end

