-- ==== Sys2Proof/Machine/State.lean ====
section
/-! DEFINITION. The state of the block, as plain data: device time, every SETUP register (sparse, by byte offset, each
register that is not listed reading its reset value), and per chapter of the spec what the device carries beside its
registers; and the queue of commands that wait. Also the reasons for which a step could stop. -/

namespace Sys2Proof.Machine

/-! ### 01 Architecture -/

/-- The holding register of one master for 64-bit reads (R25): the address of the high half it is tagged with, and the
captured value. -/
structure Holding where
  tag : Option Nat := none
  value : Word := 0
  deriving DecidableEq, Repr

/-- A failed claim that is still unresolved (R28, R29): the resource, and the unit whose claim failed. -/
structure Conflict where
  kind : Nat
  index : Nat
  unitKind : Nat
  unitIndex : Nat
  deriving DecidableEq, Repr

/-- Claims, holding registers, the seal in progress, and whether Imset applies a configuration image now (R31). Claims are keyed 4,096 × kind + index; an entry is
the holder's unit kind and index. -/
structure Sys where
  holding : Tbl Holding := []
  claims : Tbl (Option (Nat × Nat)) := []
  conflicts : List Conflict := []
  sealBy : Option Master := none
  applying : Bool := false
  unsealedMark : Bool := false
  deriving DecidableEq, Repr

/-! ### 02 Timebase and pulse generators -/

/-- A planned sampling instant (R90, R94): its place in sixteenths of a tick after the update point, and what it
measures. -/
structure Inst where
  placed : Bool := false
  at16 : Nat := 0
  phase : Nat := 0
  neg : Bool := false
  accepted : Bool := false
  deriving DecidableEq, Repr

/-- What a stage carries beside its registers (R41, R51 to R55, R90): whether the deadline instant of the next update
point has passed and what it decided, the commit mark, the writes locked for transfer, whether the ports are driven from
compares, when run was last written, when it last ended and the intervals of the last 4,096 ticks in which it was 0 before (R94), whether
SINGLE_SHUNT instants may be placed as it stood at the deadline instant (R87), the planned instants of the coming and of the present
beat, the update point of the first transfer after the last start (R54), and whether an update point passed since seal (R156). -/
structure StageT where
  decided : Bool := false
  planned : Bool := false
  transfer : Bool := false
  mark : Bool := false
  locked : List (Nat × Bool × Nat) := []
  driving : Bool := false
  startAt : Nat := 0
  stopAt : Nat := 0
  offs : List (Nat × Nat) := []
  maySample : Bool := false
  nextA : Inst := {}
  nextB : Inst := {}
  nowA : Inst := {}
  nowB : Inst := {}
  beatAt : Nat := 0
  firstBeat : Nat := 0
  droveAt : Nat := 0
  opened : Bool := false
  deriving DecidableEq, Repr

/-- What a pulse generator carries beside its registers (R46, R50): whether each shadow was written since the last
transfer, the H-command, and the switch that waits for its dead time (true: high) with its time in sixteenths. -/
structure PgT where
  wroteA : Bool := false
  wroteB : Bool := false
  h : Bool := false
  wait : Option (Bool × Nat) := none
  deriving DecidableEq, Repr

/-- A token of a loop on its way through the TBI escapement gate (R13, R50): a tagged shadow write or a commit mark,
with the engine and the loop that sent it. -/
inductive GateTok where
  | shadow (engine loop : Nat) (port : Nat) (isB : Bool) (value : Int) (tag : Nat)
  | commit (engine loop : Nat) (stage : Nat) (tag : Nat)
  deriving DecidableEq, Repr

/-- Timebase state (chapter 02): stages, pulse generators, the tokens at the TBI gate, per trigger unit the planned instants, in
sixteenths of a tick, of the firings on their way to its consumer (R49, R60), those for SSI reads under 64 + the unit's number (R133),
and since when the discipline is LOCKED (R37). -/
structure Tb where
  stg : Tbl StageT := []
  pg : Tbl PgT := []
  gate : List GateTok := []
  fired : Tbl (List Nat) := []
  lockedAt : Nat := 0
  deriving DecidableEq, Repr

/-! ### 03 Power ports -/

/-- One edge of a gate (R67 to R70): requested, or in progress with its direction (true: turn-on), present segment, start
of that segment, the segment durations so far in ticks, and whether a segment of it timed out; when it started, the gate's voltage at plateau
entry in millivolts, and whether the monitor window after it has ended (R74); while it is requested, the direction and the segment of
the edge that it abandons, whose current flows until its own starts. -/
structure Edge where
  requested : Bool := false
  active : Bool := false
  on : Bool := false
  seg : Nat := 0
  since : Nat := 0
  d1 : Nat := 0
  d2 : Nat := 0
  timeout : Bool := false
  startedAt : Nat := 0
  entryMv : Int := 0
  checked : Bool := true
  was : Option (Bool × Nat) := none
  deriving DecidableEq, Repr

/-- One driver of a port: the command at its input, since when it is on, and the intervals of the last 4,096 ticks in which it was
on before (R79); the gate state it drives towards, whether its gate lies at the off level, no turn-on edge having started since it came
there (R70), the level at which its rail holds the gate since its last completed edge (R66), and its edge; when it last turned on and off; its supply in millivolts as
measured last (R63), and since when that lies above the rising threshold (R65). -/
structure DriverT where
  cmd : Bool := false
  since : Nat := 0
  past : List (Nat × Nat) := []
  gate : Bool := false
  onAt : Option Nat := none
  offAt : Nat := 0
  settled : Bool := true
  held : Bool := false
  edge : Edge := {}
  mv : Nat := 0
  goodFrom : Option Nat := none
  deriving DecidableEq, Repr

/-- What a port carries beside its registers: its two drivers, the commands of its pulse generator on their way to the
driver input (R49; arrival in sixteenths of a tick, high, low), loss of its command link and of its trip lane (R75), whether it was
re-admitted and has driven nothing since (R77), and whether its stage was started since then; and of a heavy pod whether its trickle pump
supplies the bootstrap (R64). -/
structure PortT where
  hi : DriverT := {}
  lo : DriverT := {}
  flight : List (Nat × Bool × Bool) := []
  linkDown : Bool := false
  laneDown : Bool := false
  readmitted : Bool := false
  restarted : Bool := false
  pump : Bool := false
  deriving DecidableEq, Repr

/-! ### 04 Shunt sensing -/

/-- Calibration operations of SH_CAL_CTRL (R95). -/
inductive CalOp where
  | offset | gain | both
  deriving DecidableEq, Repr

/-- A placed instant of a beat whose sample is not yet converted (R94): A or B, the instant, the device time and the number of its
update point. -/
structure Samp where
  isB : Bool
  inst : Inst
  beatAt : Nat
  beat : Nat
  deriving DecidableEq, Repr

/-- What the sensing of a stage carries beside its registers: the samples that are not yet converted, oldest first; the suspension of
R96; the calibration in progress and, of a light one, the conversions taken and the sums of their codes with the input shorted, at +½ and
at −½ of the range (R95); and housekeeping (R84, R112): the running step (0 none, 1 DV, 2 PV, 3 TN, 4 DAC readback), the update number of
its beat, a cycle that waits for the running one, the cycle count, the readback rotation, the results of the set so far, and the last DV
code (R113). -/
structure ShuntT where
  due : List Samp := []
  suspended : Bool := false
  cal : Option CalOp := none
  calTaken : Nat := 0
  calZero : Int := 0
  calPlus : Int := 0
  calMinus : Int := 0
  hk : Nat := 0
  hkUpd : Nat := 0
  hkWaits : Option Nat := none
  hkCount : Nat := 0
  rotation : Nat := 0
  dv : Word := 0
  pv : Word := 0
  dvCode : Nat := 0
  deriving DecidableEq, Repr

/-! ### 05 Converters, comparators, stopwork -/

/-- The source of an urgent conversion (R103): a light stage's shunt sample by stage, instant and update number, a light stage's
calibration, the safety controller through CV_URG, or the re-admission of a window monitor, which reads its low or high DAC (R380). -/
inductive Urg where
  | shunt (stage : Nat) (isB : Bool) (beat : Nat)
  | cal (stage : Nat)
  | sc
  | dacTest (m : Nat) (hi : Bool)
  deriving DecidableEq, Repr

/-- What a logic converter carries beside its registers (R102 to R106): the phase of the present entry (0 normal, 1 test
current settling, 2 test conversion), codes accumulated for its average, whether one reached an end value, the pass
number, and whether this pass takes open-wire tests; since when the test current is applied; the urgent conversion that runs and since
when, those that wait with their arrival, oldest first, and when the last one ended. -/
structure ConvT where
  phase : Nat := 0
  sum : Int := 0
  taken : Nat := 0
  sat : Bool := false
  normal : Int := 0
  pass : Nat := 0
  testPass : Bool := false
  owAt : Nat := 0
  running : Option (Urg × Nat) := none
  waiting : List (Urg × Nat) := []
  freeAt : Nat := 0
  deriving DecidableEq, Repr

/-- One threshold output of a comparator (R108 to R110): raw output, held in its band since its start, and when the raw
output last changed. -/
structure ThrT where
  raw : Bool := false
  band : Bool := false
  changedAt : Nat := 0
  deriving DecidableEq, Repr

/-- A comparator: its two outputs and the present input, in 1/256 steps of its threshold scale (R107). An edge-flag
comparator uses `hi` alone, and `lastEdge` for its gap (R113). -/
structure CmpT where
  lo : ThrT := {}
  hi : ThrT := {}
  input : Int := 0
  lastEdge : Option Nat := none
  deriving DecidableEq, Repr

/-- What stopwork carries for a stage beside its registers (R115, R118): FORCE active (true: with ALL_OFF), DEVICE active,
and the low switches still waiting for low_delay. -/
structure StopT where
  force : Option Bool := none
  lowWait : Bool := false
  deriving DecidableEq, Repr

/-- Converters, comparators and stopwork (chapter 05). Comparators are keyed WMm at m, PCc at 32 + c, EFk at 64 + k. -/
structure Cv where
  conv : Tbl ConvT := []
  cmp : Tbl CmpT := []
  stop : Tbl StopT := []
  deriving DecidableEq, Repr

/-! ### 06 Position and speed -/

/-- What a position port and its observer carry beside their registers: filtered lines of the primary and secondary set
(R126), the stamps of the last edge up and down of each set (R132), the live causes of R127, the SSI frame in progress and the
end of its recovery (R133), the last accepted measurement (R134, R136), the observer's state (position in 2^-16 counts, speed and
acceleration in counts, when it was updated, whether it was seeded), the samples that wait for its next update (R138), an
ILLEGAL event since the last update and since the last latch, and the two counters of the lock check (R139); the beginning of the
present ILLEGAL window and its events (R129), when the next periodic SSI read is due (R133), the stamp of the last envelope pair
(R136) and its amplitude, and the values the two compares were armed with (R142). -/
structure PosT where
  prim : BitVec 3 := 0
  sec : BitVec 3 := 0
  lastUp : Option Nat := none
  lastDown : Option Nat := none
  secUp : Option Nat := none
  secDown : Option Nat := none
  secEdge : Nat := 0
  broken : List Nat := []
  ssiBusy : Bool := false
  ssiStamp : Nat := 0
  ssiReady : Nat := 0
  ssiIgnored : Nat := 0
  lastMeas : Int := 0
  seeded : Bool := false
  pos : Int := 0
  spd : Rat := 0
  acc : Rat := 0
  obsAt : Nat := 0
  edge : Option (Int × Nat) := none
  meas : Option (Int × Nat) := none
  ill : Bool := false
  illLatch : Bool := false
  within : Nat := 0
  beyond : Nat := 0
  winAt : Nat := 0
  winCnt : Nat := 0
  ssiDue : Nat := 0
  envAt : Option Nat := none
  amp : Nat := 0
  arm0 : Int := 0
  arm1 : Int := 0
  deriving DecidableEq, Repr

/-- What an encoder repeater carries beside its registers (R144, R145): when it moved last, whether its lag is reported, and the
levels of its A, B and Z outputs. -/
structure RepT where
  lastEdge : Nat := 0
  lagging : Bool := false
  a : Bool := false
  b : Bool := false
  z : Bool := false
  deriving DecidableEq, Repr

/-- Position and speed (chapter 06). -/
structure Ps where
  port : Tbl PosT := []
  rep : Tbl RepT := []
  deriving DecidableEq, Repr

/-! ### 07, 08 Balance engines and loops -/

/-- A shunt record as an engine holds it: the current and the SH_INFO word (R94). -/
structure ShRec where
  current : Word := 0
  info : Word := 0
  deriving DecidableEq, Repr

/-- A position-latch record (R141): mechanical angle, electrical angle, speed, PS_LAT_INFO word, stamp; at the pool, the beat it
belongs to (R152). -/
structure LatRec where
  beat : Option Nat := none
  angle : Word := 0
  eangle : Word := 0
  speed : Word := 0
  info : Word := 0
  stamp : Nat := 0
  deriving DecidableEq, Repr

/-- A record on its way to the engine pool (R153), with the update-point number of its beat where it has one. -/
inductive RecTok where
  | shunt (stage : Nat) (isB : Bool) (rec : ShRec) (beat : Nat)
  | house (stage : Nat) (dv pv tn : Word) (beat : Nat)
  | latch (port stage beat : Nat) (rec : LatRec)
  | edge (stage : Nat) (rising : Bool) (stamp count : Nat)
  deriving DecidableEq, Repr

/-- The records of a stage's present beat that have arrived, and those of the beat before (R152, R153); the last edge-flag
stamps and count. -/
structure StageRec where
  a : Option ShRec := none
  b : Option ShRec := none
  prevA : ShRec := {}
  prevB : ShRec := {}
  hk : Option (Word × Word × Word) := none
  prevHk : Word × Word × Word := (0, 0, 0)
  rise : Nat := 0
  fall : Nat := 0
  edges : Nat := 0
  deriving DecidableEq, Repr

/-- The records a run took when it started; they do not change within it (R152). -/
structure RunRecs where
  a : ShRec := {}
  b : ShRec := {}
  dv : Word := 0
  pv : Word := 0
  tn : Word := 0
  lat : LatRec := {}
  rise : Nat := 0
  fall : Nat := 0
  edges : Nat := 0
  beatAt : Nat := 0
  haveA : Bool := false
  haveB : Bool := false
  deriving DecidableEq, Repr

/-- A run in progress (R148, R151): its loop, its beat, the next operation, the working copies of variables and exchange
with the exchange words it stored, the parameters taken at readiness (R202), the records, when the loop became ready,
when the last operation retired, and whether it stops at its next operation boundary (R173). -/
structure Run where
  loop : Nat
  beat : Nat
  pc : Nat := 0
  vars : Tbl Word := []
  xch : Tbl Word := []
  stored : List Nat := []
  pars : Tbl Word := []
  recs : RunRecs := {}
  readyAt : Nat := 0
  lastAt : Nat := 0
  abort : Bool := false
  deriving DecidableEq, Repr

/-- A PRIMARY run that has retired its last operation and waits for the transfer of its target update point (R151); `lost` where its
engine has been fenced and re-admitted since. -/
structure Finished where
  engine : Nat
  beat : Nat
  vars : Tbl Word := []
  xch : Tbl Word := []
  stored : List Nat := []
  lost : Bool := false
  deriving DecidableEq, Repr

/-- What a loop carries beside its registers: whether it runs since seal (R156); the beat it was last opened for and that
beat's device time; whether it waits for records, and whether the position latch of the beat came; in which order and when
it became ready (R155); the beats whose run is neither written nor missed (R173), and those of them whose target transferred, with
the device time of that update point; the finished run; the target points at which home and linked stage transferred, and when the home
stage did; the device time of the last written run's update point (R182); the commit marks released for the beat and for the one before,
and when that one's run became ready (R175); the parameters taken at
readiness (R202); whether a home update point passed since the pending swap was written, the number of the first one, and whether the
swap waits for the run of this readiness (R188); runs written since seal (R218) and consecutive ones after which the drive's target flag was set (R257);
the slack window (R175), and the slack that SLACK reads in the present beat (R171). -/
structure LoopT where
  live : Bool := false
  beat : Nat := 0
  beatAt : Nat := 0
  waiting : Bool := false
  latHere : Bool := false
  ready : Option Nat := none
  readyAt : Nat := 0
  owed : List Nat := []
  moved : List (Nat × Nat) := []
  finished : Option Finished := none
  homeOk : Nat := 0
  homeAt : Nat := 0
  doneAt : Nat := 0
  linkOk : Nat := 0
  commits : Nat := 0
  prevCommits : Nat := 0
  prevReadyAt : Nat := 0
  pars : Tbl Word := []
  swapArmed : Bool := false
  swapBeat : Nat := 0
  swapDue : Bool := false
  wrote : Nat := 0
  met : Nat := 0
  winCount : Nat := 0
  winMin : Int := 32767
  slack : Int := 0
  lastSlack : Int := 0
  deriving DecidableEq, Repr

/-- What an engine carries beside its registers: its run, the order of its declaration as dead, whether the fence is in
force at every destination (R177), the ENGINE_ADMIT descriptors that its self-test answers (queue pair, ring index), and when it
began. -/
structure EngT where
  run : Option Run := none
  deadOrder : Nat := 0
  inForce : Bool := false
  testing : List (Nat × Nat) := []
  testAt : Nat := 0
  deriving DecidableEq, Repr

/-- A telemetry record that EMIT sends (R163), on its way to its queue pair: the loop, the update-point number of the beat,
the device time of the update point, and the values. -/
structure EmitRec where
  qp : Nat
  loop : Nat
  update : Nat
  stamp : Nat
  raw : Bool
  values : List Word
  deriving DecidableEq, Repr

/-- Engines (chapters 07, 08): table memory by table offset (R150), the records at the pool by stage and by position port and stage (32 × port + stage),
loops, engines, the records on their way, the order counter of readiness and declarations, and the telemetry records on their way. -/
structure Be where
  lt : Tbl Word := []
  recs : Tbl StageRec := []
  lat : Tbl LatRec := []
  loops : Tbl LoopT := []
  eng : Tbl EngT := []
  flight : List RecTok := []
  order : Nat := 0
  emitted : List EmitRec := []
  deriving DecidableEq, Repr

/-! ### 09 Traction machines -/

/-- What the traction sequencer of a machine carries beside its registers (R205 to R227): the descriptor in progress (queue
pair, ring index), the command's mode (1 TORQUE, 2 SPEED) and target, the mode it holds in p[48], since when it measures, the
seed speed p[51], K of each set (R208), the catch angle and its update point (p[56], p[57]), the edges collected (R215: rising
edges of the reference comparator, the last two of them, the edge of the other comparator, which set that is, and
whether a comparator was blanked when the measurement began), the last edge of the reference
comparator, the last rising edges of its sets' comparators, newest first, as (set, time) (R207, R215), the runs each loop had written at the block that opened a catch (R218), and when the speed was refreshed (R207). -/
structure TmT where
  job : Option (Nat × Nat) := none
  mode : Nat := 0
  target : Word := 0
  pmode : Nat := 0
  since : Nat := 0
  seed : Word := 0
  offsets : List Int := []
  angle : Word := 0
  angleUpd : Nat := 0
  edges : Nat := 0
  e1 : Nat := 0
  e2 : Nat := 0
  ej : Option Nat := none
  other : Option Nat := none
  hidden : Bool := false
  refEdge : Nat := 0
  rises : List (Nat × Nat) := []
  base : List (Nat × Nat) := []
  speedAt : Option Nat := none
  deriving DecidableEq, Repr


/-! ### 10 Charging and conversion -/

/-- The pilot meter (R233, R234): the transitions of the pilot monitor's output (last rise, last fall, last of
either), the window in progress (full periods so far, sum of the duties as high and period times, plateau sums and counts, the
results that a transition may still leave out), the results of the last 1 ms, the last refresh, the duty in force, and the
state that the last window gave. -/
structure Pilot where
  rise : Option Nat := none
  fall : Option Nat := none
  lastEdge : Nat := 0
  periods : Nat := 0
  dutySum : Rat := 0
  hiSum : Int := 0
  hiN : Nat := 0
  hiLast : Option Int := none
  loSum : Int := 0
  loN : Nat := 0
  loLast : Option Int := none
  recent : List (Nat × Int) := []
  refreshAt : Nat := 0
  duty : Rat := 0
  lastState : Nat := 0
  deriving DecidableEq, Repr

/-- What the charging and the conversion sequencer carry beside their registers (R237 to R247): the descriptor in progress and
the CH_STOPs in progress, mode (1 CHARGE, 2 EXPORT), power and voltage limits of the command, the mode in p[48], the values of p[49]
and p[51] last written, since when the present wait runs, the runs each loop had written at the last opening block, whether the second group of stages
may start, since when the grid is invalid, a connector or over-voltage event not yet reacted to; the same for the converter. -/
structure Ch where
  pilot : Pilot := {}
  job : Option (Nat × Nat) := none
  stopJobs : List (Nat × Nat) := []
  mode : Nat := 0
  power : Word := 0
  volt : Word := 0
  pmode : Nat := 0
  p49 : Word := 0
  p51 : Word := 0
  since : Nat := 0
  base : List (Nat × Nat) := []
  second : Bool := false
  gridBad : Option Nat := none
  plugEvent : Bool := false
  overEvent : Bool := false
  lvJob : Option (Nat × Nat) := none
  lvVolt : Word := 0
  lvAmp : Word := 0
  lvMode : Nat := 0
  lvSince : Nat := 0
  lvBase : List (Nat × Nat) := []
  lvSync : Bool := false
  deriving DecidableEq, Repr


/-! ### 11 Actuator and auxiliary drives -/

/-- What the drive sequencer carries for a drive beside its registers (R253 to R262): the descriptor in progress, mode
(1 POSITION, 2 SPEED), hold, target, the mode in p[48], since when it starts or moves, seed position and speed, the mirror last
written, and the runs its loop had written at the last opening block. -/
structure DrT where
  job : Option (Nat × Nat) := none
  mode : Nat := 0
  hold : Bool := false
  target : Word := 0
  pmode : Nat := 0
  since : Nat := 0
  seedPos : Word := 0
  seedSpd : Word := 0
  mirHall : Word := 0
  mirSpd : Word := 0
  base : Option Nat := none
  deriving DecidableEq, Repr


/-! ### 12 Safety controller -/

/-- An entry of the validation queue (R280): queue pair, ring index, arrival sequence and stamp; `done` once it expired. -/
structure VqEntry where
  qp : Nat
  index : Nat
  seq : Nat
  arrived : Nat
  done : Bool := false
  deriving DecidableEq, Repr

/-- What a fault of the controller makes it test (R272, R276): the mismatch of a window, the checker, or a delay register
of one copy (true: A). -/
inductive ScTest where
  | window | checker | parity (copyA : Bool)
  deriving DecidableEq, Repr

/-- The architectural state of a copy (R272): integer and floating-point registers, program counter, CSRs, and the agreed interrupt
request that it has not taken yet. -/
structure ScArch where
  x : Tbl Word := []
  f : Tbl Word := []
  csr : Tbl Word := []
  pc : Word := 0
  irq : Bool := false
  deriving DecidableEq, Repr

/-- What the checker compares of a window that a copy has closed (R267): the signature, the count of retired instructions, the next
program counter and the delay registers; the state the copy has reached, whether it waits for an interrupt, the interrupt request it
sampled (R271), and when. -/
structure ScClosed where
  sig : DWord
  count : Nat
  delay : List ScStore
  arch : ScArch
  wfi : Bool := false
  request : Bool
  at_ : Nat
  deriving DecidableEq, Repr

/-- A copy of the safety controller in its present window: the window once closed; the agreed load at which it waits for the other
copy (load, sample, since when); the loads that it has done, each with what it received, none of a word that could not be corrected
(R264); and what its delay registers held at the last of them (R269). -/
structure ScCopy where
  closed : Option ScClosed := none
  waiting : Option (ScLoad × Word × Nat) := none
  loads : List (ScLoad × Option Word) := []
  delay : List ScStore := []
  deriving DecidableEq, Repr

/-- What the safety controller carries beside its registers: the two copies, the checkpoint from which the present window started
(R266), whether the copies wait for an interrupt before it (R285), what the agreement unit last gave to both copies (R270), the number of the present window, whether it is re-executed after a
mismatch, whether a transient took the count above its limit (R274), the self-test in progress, the ends of the grace time and of the
watchdog period (and what is left of it during ROLLBACK, R279), the start of the transient period, the validation queue and its next
sequence, and per stage the ends of the absence timer and of the wait for a decision (R283, R284). -/
structure Sc where
  copyA : ScCopy := {}
  copyB : ScCopy := {}
  checkpoint : ScArch := {}
  wfi : Bool := false
  received : Option (ScPlace × Word) := none
  window : Nat := 0
  retry : Bool := false
  overLimit : Bool := false
  test : Option ScTest := none
  graceEnd : Option Nat := none
  wdogDue : Option Nat := none
  wdogLeft : Option Nat := none
  period : Nat := 0
  vq : List VqEntry := []
  nextSeq : Nat := 0
  absDue : Tbl (Option Nat) := []
  respDue : Tbl (Option Nat) := []
  deriving DecidableEq, Repr

/-! ### 13 Memory banks -/

/-- What a master receives of a bank access (R294, R298): the word, an error indication, a load-access exception, the end of a write, or
NOT_OWNER. -/
inductive BankAnswer where
  | word (v : Word) | error | exception | done | notOwner
  deriving DecidableEq, Repr

/-- The second part of an access that crosses a word boundary (R293): where it is, how many bytes, whether it writes, and its data, or
what the first part read; how many bytes that was, and whether it failed. -/
structure BankPart where
  addr : Nat
  bytes : Nat
  got : Nat
  bad : Bool
  write : Bool
  data : Word
  deriving DecidableEq, Repr

/-- An access that a master has issued and that waits for its bank (R290): a write of `bytes` bytes. -/
structure BankIssue where
  addr : Nat
  bytes : Nat
  data : Word
  deriving DecidableEq, Repr

/-- Memory banks (chapter 13): the bytes of bank space and, per word, which bits of its 39 have flipped since it was written (R287);
the drain in progress of each bank (the new owner and when it started, R297); the next word of each bank's scrubber and the instant of
its last read (R295); per bank the counter index served last on ports A and B (R290); per master the second part that a split access
still owes and the last answer; the writes that the CAN controllers have issued, in order (R335); and the set-up fields that place data in a bank (the unit and the bank, R296). -/
structure Mb where
  mem : Tbl Byte := []
  flips : Tbl (BitVec 39) := []
  drain : Tbl (Option (Nat × Nat)) := []
  scrub : Tbl Nat := []
  scrubAt : Tbl Nat := []
  last : Tbl (Nat × Nat) := []
  owed : Tbl (Option BankPart) := []
  answer : Tbl (Option BankAnswer) := []
  issued : List BankIssue := []
  placed : List (Nat × Nat × Nat) := []
  deriving DecidableEq, Repr

/-! ### 14 Host rings -/

/-- Where a descriptor of a queue pair stands (R307 to R312): its read is on the way; received and checked; in the validation
queue; accepted by it; started; ended, its completion held for its turn. -/
inductive Phase where
  | fetched | received | queued | handed | started
  | ended (status : Nat) (partly : Bool) (detail : Word)
  deriving DecidableEq, Repr

/-- A descriptor that a queue pair holds, by its submission-ring index: the descriptor once it was received, where it stands,
what a FENCE awaits (queue pair, descriptors announced), bytes moved, the byte at which a passed deadline stops the transfer,
and when a stream buffer took its first record. -/
structure Item where
  index : Nat
  desc : Option Descr := none
  phase : Phase := .fetched
  awaits : List (Nat × Nat) := []
  moved : Nat := 0
  stopAt : Option Nat := none
  firstAt : Nat := 0
  deriving DecidableEq, Repr

/-- A telemetry, event or LOST record (R320): type 1 TELEMETRY, 2 LOST, 3 EVENT. -/
structure StreamRec where
  seq : Nat := 0
  stamp : Nat := 0
  type : Nat
  loop : Nat := 0
  raw : Bool := false
  update : Nat := 0
  body : List Word
  deriving DecidableEq, Repr

/-- What a queue pair carries beside its registers: the descriptors it holds in ring order, the accepted doorbell indices, a
doorbell stored while disabled (R323), descriptors announced and ended since reset (R316), completions since the last signal and
the time of the oldest (R313), records held (R319), and whether its completion ring can no longer be written (R302, R318). -/
structure QpT where
  items : List Item := []
  sqTail : Nat := 0
  cqHead : Nat := 0
  bell : Option Word := none
  announced : Nat := 0
  done : Nat := 0
  unsignalled : Nat := 0
  unsigAt : Nat := 0
  held : List StreamRec := []
  silent : Bool := false
  deriving DecidableEq, Repr

/-- What the device puts on the PCI Express link: a read request for a descriptor, a write of words at a host address, a write
of bytes (MEM_READ, SNAPSHOT, a record, a management answer), a message-signalled interrupt, the message that reports a non-fatal error
of HI_ERR, by its bit (R301). -/
inductive LinkMsg where
  | fetch (qp index addr : Nat)
  | words (addr : Nat) (ws : List Word)
  | bytes (addr : Nat) (bs : List Byte)
  | msix (vector : Nat) (addr : Nat) (data : Word)
  | nonFatal (error : Nat)
  deriving DecidableEq, Repr

/-- Host rings (chapter 14): queue pairs, records on their way to them, the last queue pair served per priority (R307), what
went out on the link, the MSI-X table by word and the pending bits (R313); and of the PCI Express function whether it is in D3hot, and
whether the link is in L1 (R301). -/
structure Hi where
  qp : Tbl QpT := []
  records : List (Nat × StreamRec) := []
  served : Tbl Nat := []
  out : List LinkMsg := []
  msix : Tbl Word := []
  pba : Tbl Bool := []
  d3hot : Bool := false
  l1 : Bool := false
  deriving DecidableEq, Repr


/-! ### 15 CAN network and time -/

/-- A frame that a CAN_TX descriptor (queue pair, ring index) brought, checked and secured: its flow, and the frame as it goes on the bus
(R324, R331, R337). -/
structure TxFrame where
  qp : Nat
  index : Nat
  flow : Nat
  frame : CanFrame
  deriving DecidableEq, Repr

/-- A frame in a transmit slot (R332): the slot, when it was loaded, and for a time-triggered flow the mark at which it is offered
(R341). -/
structure TxSlot where
  slot : Nat
  frame : TxFrame
  loadedAt : Nat
  offer : Option Nat := none
  deriving DecidableEq, Repr

/-- An attempt of controller `ctl` on its bus (R332): its start of frame, the frame, how it ended. -/
structure SentFrame where
  ctl : Nat
  sof : Nat
  frame : CanFrame
  ended : TxEnd
  deriving DecidableEq, Repr

/-- A received-frame record (R334); a LOST record has status LOST and the frames lost as its identifier. -/
structure RxRec where
  time : Nat
  flow : Nat
  status : Nat
  format : Nat := 0
  ident : Nat := 0
  length : Nat := 0
  sdt : Nat := 0
  vcid : Nat := 0
  af : Nat := 0
  data : List Byte := []
  deriving DecidableEq, Repr

/-- What a CAN controller carries beside its registers: secured frames that wait for a slot, the slots in load order, received
records held without a buffer (R334); and of time-triggered operation: the device time of the present reference mark, since when
it listens, whether it saw a master of higher priority while listening, whether it sends its own reference message at the next
basic cycle, consecutive reference messages of one master with the discontinuity bit clear and that master's priority (R342, R343), the last
reference mark in extended NTU, whether a gap announced by the master follows the present basic cycle (R340), and the RX triggers whose
flow accepted a frame since they fired last (R341). -/
structure CnT where
  frames : List TxFrame := []
  slots : List TxSlot := []
  held : List RxRec := []
  cycleAt : Nat := 0
  listenAt : Nat := 0
  higherSeen : Bool := false
  contend : Bool := false
  goodRefs : Nat := 0
  lastPrio : Nat := 0
  lastMark : Nat := 0
  gap : Bool := false
  seen : List Nat := []
  deriving DecidableEq, Repr

/-- What a flow carries beside its registers: since when its age counts (R336), frames written to its mailbox (R335). -/
structure FlT where
  ageFrom : Nat := 0
  mails : Nat := 0
  deriving DecidableEq, Repr

/-- CAN controllers and flows (chapter 15), and what the controllers put on their buses, oldest first. -/
structure Cn where
  ctl : Tbl CnT := []
  flow : Tbl FlT := []
  sent : List SentFrame := []
  deriving DecidableEq, Repr


/-! ### 17 Faults and recovery -/

/-- A report in the ledger intake (R376), before it becomes an entry: source, class, status word, sub-code, detail and
the time of the event. `solo` marks the reports that never coalesce (R377). -/
structure Report where
  kind : Nat
  index : Nat
  cls : Nat
  code : Nat
  sub : Nat := 0
  detail : Nat := 0
  time : Nat := 0
  solo : Bool := false
  deriving DecidableEq, Repr

/-- A ledger entry in its RAM slot (R375): the report, the first occurrence, the count, the entry number, the chain tag
of its last flash write, whether its present contents are in flash, and whether it is still open for coalescing. -/
structure Entry where
  rep : Report
  first : Nat
  count : Nat
  number : Nat
  chain : Nat := 0
  flushed : Bool := false
  isOpen : Bool := true
  deriving DecidableEq, Repr

/-- A re-admission test in progress (R380): the unit, the descriptor that asked for it (queue pair, ring index), and the codes that the
urgent conversions of a window monitor's low and high DAC have given, with the instant of the last of them. -/
structure AdmitT where
  kind : Nat
  index : Nat
  qp : Nat
  ring : Nat
  startedAt : Nat
  lo : Option Nat := none
  hi : Option Nat := none
  readAt : Nat := 0
  deriving DecidableEq, Repr

/-- Faults (chapter 17): the intake, the RAM ledger by slot, losses not yet covered by a LOST entry, the fenced units
(keyed 256 × kind + index), the ledger request to the safety controller, and the re-admission tests in
progress. -/
structure Flt where
  intake : List Report := []
  slots : Tbl (Option Entry) := []
  lostCarry : Nat := 0
  lostDue : Bool := false
  fenced : Tbl Bool := []
  request : Bool := false
  admits : List AdmitT := []
  deriving DecidableEq, Repr

/-! ### 16 Security and Imset -/

/-- A session of a channel (R356): its number, key, last accepted counter, end. -/
structure Session where
  number : Nat
  key : List Byte
  counter : Nat := 0
  ends : Nat
  deriving DecidableEq, Repr

/-- A slot of the CAN key store (R359). -/
structure KeyT where
  key : Option (List Byte) := none
  loads : Nat := 0
  deriving DecidableEq, Repr

/-- What the flash directory says of the images of a kind (R351, R362, R363), slot A as false: the active slot, the slot marked as
trial for the next boot, and which slots have been active before. -/
structure ImgT where
  active : Bool := false
  trial : Option Bool := none
  beenA : Bool := false
  beenB : Bool := false
  deriving DecidableEq, Repr

/-- A refresh of flash cut short (R367), as its journal in the scratch has it: the sector copied there, and whether it is erased. -/
structure RefreshT where
  sector : Nat
  erased : Bool := false
  deriving DecidableEq, Repr

/-- A frame from the service UART that waits for the descriptors received on QP0 before it (R358): its payload, what its burn and its
flash write give, and their ring indices. -/
structure UartReq where
  payload : List Byte
  blown : Nat
  err : Bool
  behind : List Nat
  deriving DecidableEq, Repr

/-- A lifetime record (R366), by its fields: calendar seconds, operating hours, boot count, hours of the hottest logic zone and of
the hottest heavy pod per bin, transients of the safety controller. -/
structure LifeRec where
  calendar : Nat
  hours : Nat
  boots : Nat
  zones : List Nat
  pods : List Nat
  transients : Nat
  deriving DecidableEq, Repr

/-- An answer on the service UART (R364): the completion's four words, and the output data. -/
structure UartOut where
  completion : List Word
  data : List Byte
  deriving DecidableEq, Repr

/-- Security and Imset (chapter 16). One-time-programmable memory: enrolled integrator keys, anti-rollback counters. Flash: its bytes by
offset, in the layout of R346; and what Imset holds of its regions: the directory, the keys of the key store, the freshness marks
(transmit) and journalled values (receive) and the sector of the journal in use, the calendar offset, the entries of the ledger, how many
were written since manufacture and the place of the next, the lifetime records with their places, the place of the next and how many were
written, when each sector was written last and a refresh cut short. Of this boot: sessions and how many were opened, measurements of the
images in use, whether the configuration was applied and its seal is due, the reset due after an UPDATE_ACTIVATE, when each receive value
was journalled last, seconds towards the next operating hour and of equivalent operation, frames that wait on the UART and the answers on
it, whether the ledger chain was found intact, and when the last sector was refreshed. -/
structure Sec where
  enrolled : Tbl (Option (List Byte)) := []
  counters : Tbl Nat := []
  flash : Tbl Byte := []
  image : Tbl ImgT := []
  keys : Tbl KeyT := []
  txMark : Tbl Nat := []
  rxValue : Tbl Nat := []
  calOffset : Nat := 0
  ledger : List Entry := []
  flashed : Nat := 0
  ledgerNext : Nat := 0
  journalSector : Nat := 0
  life : List (Nat × LifeRec) := []
  lifeNext : Nat := 0
  lifeWritten : Nat := 0
  zoneBins : List Nat := []
  podBins : List Nat := []
  lifeSum : Rat := 0
  sectorAt : Tbl Nat := []
  refreshing : Option RefreshT := none
  refreshAt : Option Nat := none
  qpSession : Option Session := none
  uartSession : Option Session := none
  opened : Nat := 0
  measured : Tbl (List Byte) := []
  sealDue : Bool := false
  resetAt : Option Nat := none
  rxAt : Tbl Nat := []
  seconds : Nat := 0
  uartIn : List UartReq := []
  uart : List UartOut := []
  chainOk : Bool := true
  deriving DecidableEq, Repr


/-! ### 18 Power, clocks, sleep and temperature -/

/-- Power and temperature (chapter 18) beside the registers: whether a reset is in force (R386), whether the device enters sleep or
sleeps, with whether an enabled wake source was seen during entry, and PERST among those seen (R401), whether it drives WAKE low (R394), the start of
the delay of the safe-state watchdog (R387), the last step of VFAB (R392), the fabric rail's set value in millivolts, the temperature correction of the
reference (R390, parts per 10^9), per sensor its consecutive disagreements (R396), the stages whose OVER_TEMP is not yet re-armed (R399), and the
heavy stages whose TN is BROKEN (R398), and whether the supplies VCAN and VREP are present (R415). -/
structure Pw where
  held : Bool := false
  entering : Bool := false
  asleep : Bool := false
  wakeSeen : Option Bool := none
  wakeDriven : Bool := false
  safeFrom : Nat := 0
  steppedAt : Option Nat := none
  mv : Nat := 800
  correction : Rat := 0
  disagree : Tbl Nat := []
  hot : List Nat := []
  tnBroken : List Nat := []
  vcan : Bool := true
  vrep : Bool := true
  deriving DecidableEq, Repr


/-! ### The whole -/

/-- The device: everything the spec gives the block, but the queue of waiting commands. `time` is device time in ticks
(R9, R36) and `clockOn` says that the TBI clock counts it; `regs` holds the SETUP registers by byte offset, an unlisted one
reading its reset value; `fresh` is the model's own counter of the free values taken so far (log entry 4), no state of
the device. -/
structure Dev where
  time : Nat := 0
  clockOn : Bool := true
  regs : Tbl Word := []
  fresh : Nat := 0
  /-- Claims, holding registers and the seal (chapter 01) -/
  sys : Sys := {}
  /-- Timebase and pulse generators (chapter 02) -/
  tb : Tb := {}
  /-- Power ports, by port (chapter 03) -/
  pp : Tbl PortT := []
  /-- Shunt sensing, by stage (chapter 04) -/
  sh : Tbl ShuntT := []
  /-- Converters, comparators and stopwork (chapter 05) -/
  cv : Cv := {}
  /-- Position and speed (chapter 06) -/
  ps : Ps := {}
  /-- Balance engines, loops and table memory (chapters 07, 08) -/
  be : Be := {}
  /-- Traction machines, by machine (chapter 09) -/
  tm : Tbl TmT := []
  /-- Charging and conversion (chapter 10) -/
  ch : Ch := {}
  /-- Actuator and auxiliary drives, by drive (chapter 11) -/
  dr : Tbl DrT := []
  /-- Safety controller (chapter 12) -/
  sc : Sc := {}
  /-- Memory banks (chapter 13) -/
  mb : Mb := {}
  /-- Host rings (chapter 14) -/
  hi : Hi := {}
  /-- CAN controllers, flows and network time (chapter 15) -/
  cn : Cn := {}
  /-- Security and Imset (chapter 16) -/
  sec : Sec := {}
  /-- Faults, fences and the ledger (chapter 17) -/
  flt : Flt := {}
  /-- Power, sleep and temperature (chapter 18) -/
  pw : Pw := {}
  deriving DecidableEq, Repr

/-- The state of the block: the device, and the commands that wait, first in first out (log entry 1). -/
structure State extends Dev where
  pending : List Instr := []
  deriving DecidableEq, Repr

/-- The machine right after reset is released: every register at its reset value, every table empty, device time zero
(R36), no command waiting. Values the spec gives no reset for are named in log entry 5. -/
def State.reset : State := {}

/-- Why a step could stop with a fault. No meaning of this model raises one: the spec gives every command an effect. The
one constructor names the case that would be a stop of the device itself. -/
inductive Fault where
  /-- The device has stopped and takes no command. Raised by no command of this model; it would be safe. -/
  | halted
  deriving DecidableEq, Repr

/-- Why a command has no meaning. -/
inductive Refusal where
  /-- The command is not modelled yet, rejected by its mnemonic in Machine/Dispatch.lean; safe. -/
  | notModelled (mnemonic : String)
  deriving DecidableEq, Repr

end Sys2Proof.Machine
end

