-- ==== Sys2Proof/Machine/ScArch.lean ====
section
/-! DEFINITION. The architectural state of a copy of the safety controller (R263, R272): registers, CSRs, traps and interrupts, by the
RISC-V specification that R263 names (PRESUMED, log entry 71). -/

namespace Sys2Proof.Machine

/-- A CSR of a copy, as it is stored. -/
def ScArch.reg (s : ScArch) (n : Nat) : Word := Tbl.get (fun _ => 0) s.csr n
def ScArch.setCsr (s : ScArch) (n : Nat) (v : Word) : ScArch := { s with csr := Tbl.set (fun _ => 0) s.csr n v }

/-- An integer register; x0 reads zero. -/
def ScArch.xr (s : ScArch) (n : Nat) : Word := if n = 0 then 0 else Tbl.get (fun _ => 0) s.x n

/-- A floating-point register. -/
def ScArch.fr (s : ScArch) (n : Nat) : Word := Tbl.get (fun _ => 0) s.f n

/-- The counters that a machine-mode core has; the model does not count in them (log entry 71). -/
def isCounter (n : Nat) : Bool := [0xB00, 0xB02, 0xB80, 0xB82].contains n

/-- The CSRs that read zero and keep nothing: the identification registers, and the event counters and their selectors. -/
def isZeroCsr (n : Nat) : Bool :=
  (Nat.ble 0xF11 n && Nat.ble n 0xF14) || (Nat.ble 0xB03 n && Nat.ble n 0xB1F) || (Nat.ble 0xB83 n && Nat.ble n 0xB9F) ||
    (Nat.ble 0x323 n && Nat.ble n 0x33F)

/-- Does a copy have a CSR? -/
def hasCsr (n : Nat) : Bool :=
  [1, 2, 3, 0x300, 0x301, 0x304, 0x305, 0x340, 0x341, 0x342, 0x343, 0x344].contains n || isCounter n || isZeroCsr n

/-- What a CSR reads: fflags and frm are parts of fcsr; mstatus shows machine mode as the previous one and the floating-point unit as on;
misa shows RV32IMFC; mip shows the agreed interrupt request. -/
def ScArch.readCsr (s : ScArch) (n : Nat) : Word :=
  if n = 1 then BitVec.ofNat 32 (getBits (s.reg 3) 0 5)
  else if n = 2 then BitVec.ofNat 32 (getBits (s.reg 3) 5 3)
  else if n = 0x300 then (s.reg 0x300 &&& 0x88#32) ||| 0x80007800#32
  else if n = 0x301 then 0x40001124#32
  else if n = 0x344 then BitVec.ofNat 32 (2 ^ 11 * b2n s.irq)
  else if isZeroCsr n then 0
  else s.reg n

/-- What writing a CSR does. -/
def ScArch.writeCsr (s : ScArch) (n : Nat) (v : Word) : ScArch :=
  if n = 1 then s.setCsr 3 (putBits (s.reg 3) 0 5 v.toNat)
  else if n = 2 then s.setCsr 3 (putBits (s.reg 3) 5 3 v.toNat)
  else if n = 3 then s.setCsr 3 (v &&& 0xFF#32)
  else if n = 0x300 then s.setCsr 0x300 ((v &&& 0x88#32) ||| 0x1800#32)
  else if n = 0x301 || n = 0x344 || isZeroCsr n then s
  else if n = 0x341 then s.setCsr n (v &&& 0xFFFFFFFE#32)
  else s.setCsr n v

/-- A trap into machine mode: mepc, mcause and mtval are written, mstatus.MPIE takes MIE, MIE falls, and the program counter goes to the
base of mtvec, or for an interrupt in vectored mode to the entry of its cause. -/
def ScArch.trap (s : ScArch) (pc cause value : Word) : ScArch :=
  let status := s.reg 0x300
  let was := getBits status 3 1
  let s := ((s.setCsr 0x341 pc).setCsr 0x342 cause).setCsr 0x343 value
  let s := s.setCsr 0x300 (putBits (putBits (putBits status 3 1 0) 7 1 was) 11 2 3)
  let tvec := s.reg 0x305
  let base := tvec &&& 0xFFFFFFFC#32
  { s with pc := if cause.msb && getBits tvec 0 2 == 1 then base + ((cause &&& 0x7FFFFFFF#32) <<< 2) else base }

/-- The return from a trap: MIE takes MPIE, MPIE rises, and the program counter goes to mepc. -/
def ScArch.mret (s : ScArch) : ScArch :=
  let status := s.reg 0x300
  let s := s.setCsr 0x300 (putBits (putBits status 3 1 (getBits status 7 1)) 7 1 1)
  { s with pc := s.reg 0x341 }

/-- The pending interrupt request is entered where mstatus.MIE and mie.MEIE let it (R271). -/
def ScArch.interrupt (s : ScArch) : ScArch :=
  if s.irq && getBits (s.reg 0x300) 3 1 == 1 && getBits (s.reg 0x304) 11 1 == 1 then { s.trap s.pc 0x8000000B#32 0 with irq := false } else s

/-- What a result does to the architectural state; register x0 stays zero. -/
def ScArch.result (s : ScArch) : ScResult → ScArch
  | .reg false n v => if n = 0 then s else { s with x := Tbl.set (fun _ => 0) s.x n v }
  | .reg true n v => { s with f := Tbl.set (fun _ => 0) s.f n v }
  | .csr n v => s.writeCsr n.toNat v
  | .store _ => s
  | .trap pc cause value => s.trap pc cause value
  | .flags v => s.setCsr 3 (s.reg 3 ||| v.setWidth 32)
  | .mret => s.mret

/-- The state that a copy reaches at the end of a window. -/
def ScArch.run (s : ScArch) (r : ScTrace) : ScArch :=
  { (r.retired.flatMap fun i => i.results).foldl ScArch.result s with pc := r.pc }

end Sys2Proof.Machine
end

