-- ==== Sys2Proof/Machine/RegMap.lean ====
section
/-! DEFINITION. The register map of the SETUP window: one row per register of spec/ (a row per range of instances
where their resets or legal ranges differ), with its class (R4), its reset value, and each field's bits, access code
(R2) and legal range (R23). A field with no legal range listed takes every value; checks that depend on other
fields or registers stand in Machine/WriteChecks.lean. -/

namespace Sys2Proof.Machine

/-- Access code of a field (R2). -/
inductive Access where
  | ro | rw | w1c | w1s
  deriving DecidableEq, Repr

/-- Class of a register (R4): set-up, run-time of the safety controller, run-time of the host, status. -/
inductive RegClass where
  | S | T | H | V
  deriving DecidableEq, Repr

/-- One field of a register: its bits, its access code, and its legal values where the spec limits them. -/
structure FieldRow where
  name : String
  lo : Nat
  width : Nat
  acc : Access
  legal : Option (List (Nat × Nat))
  deriving DecidableEq, Repr

/-- One register: n1 × n2 instances from `base` with strides s1 and s2, class, reset value (instance i of the first
index resets to reset + rstep × i), fields. -/
structure RegRow where
  name : String
  base : Nat
  n1 : Nat
  s1 : Nat
  n2 : Nat
  s2 : Nat
  cls : RegClass
  reset : Nat
  rstep : Nat
  fields : List FieldRow
  deriving DecidableEq, Repr

/-- Registers of the Device page (spec/01_architecture.md). -/
def regDeviceA : List RegRow :=
  [⟨"FAB_WRITE_ERR", 0x1000, 1, 0x0, 1, 0x0, .V, 0x0, 0x0,
    [⟨"offset", 0, 21, .ro, none⟩,
     ⟨"reason", 24, 4, .ro, none⟩,
     ⟨"master", 28, 2, .ro, none⟩,
     ⟨"more", 30, 1, .ro, none⟩,
     ⟨"valid", 31, 1, .w1c, none⟩]⟩,
   ⟨"FAB_WRITE_DATA", 0x1004, 1, 0x0, 1, 0x0, .V, 0x0, 0x0,
    [⟨"data", 0, 32, .ro, none⟩]⟩,
   ⟨"FAB_WRITE_CNT", 0x1008, 1, 0x0, 1, 0x0, .V, 0x0, 0x0,
    [⟨"count", 0, 32, .ro, none⟩]⟩,
   ⟨"DEV_CLAIM_SEL", 0x100, 1, 0x0, 1, 0x0, .H, 0x0, 0x0,
    [⟨"kind", 0, 4, .rw, none⟩,
     ⟨"index", 4, 12, .rw, none⟩]⟩,
   ⟨"DEV_CLAIM_HOLDER", 0x104, 1, 0x0, 1, 0x0, .V, 0x0, 0x0,
    [⟨"unit_kind", 0, 8, .ro, none⟩,
     ⟨"unit_index", 8, 8, .ro, none⟩,
     ⟨"held", 16, 1, .ro, none⟩,
     ⟨"contested", 17, 1, .ro, none⟩]⟩,
   ⟨"DEV_CONFLICT_CNT", 0x108, 1, 0x0, 1, 0x0, .V, 0x0, 0x0,
    [⟨"unresolved", 0, 16, .ro, none⟩,
     ⟨"failed", 16, 16, .ro, none⟩]⟩,
   ⟨"DEV_CONFLICT", 0x110, 16, 0x4, 1, 0x0, .V, 0x0, 0x0,
    [⟨"kind", 0, 4, .ro, none⟩,
     ⟨"index", 4, 12, .ro, none⟩,
     ⟨"unit_kind", 16, 8, .ro, none⟩,
     ⟨"unit_index", 24, 8, .ro, none⟩]⟩,
   ⟨"DEV_ID", 0x0, 1, 0x0, 1, 0x0, .V, 0x1F7A6400, 0x0,
    [⟨"part", 0, 16, .ro, none⟩,
     ⟨"vendor", 16, 16, .ro, none⟩]⟩,
   ⟨"DEV_VERSION", 0x4, 1, 0x0, 1, 0x0, .V, 0x1000000, 0x0,
    [⟨"fw_build", 0, 16, .ro, none⟩,
     ⟨"silicon_minor", 16, 8, .ro, none⟩,
     ⟨"silicon_major", 24, 8, .ro, none⟩]⟩,
   ⟨"DEV_CAPS", 0x8, 1, 0x0, 1, 0x0, .V, 0x408CAC0, 0x0,
    [⟨"ports", 0, 7, .ro, none⟩,
     ⟨"stages", 7, 5, .ro, none⟩,
     ⟨"engines", 12, 4, .ro, none⟩,
     ⟨"can", 16, 4, .ro, none⟩,
     ⟨"queue_pairs", 20, 7, .ro, none⟩]⟩,
   ⟨"DEV_STATE", 0x10, 1, 0x0, 1, 0x0, .V, 0x1, 0x0,
    [⟨"state", 0, 4, .ro, none⟩]⟩,
   ⟨"DEV_SEAL_CTRL", 0x14, 1, 0x0, 1, 0x0, .H, 0x0, 0x0,
    [⟨"seal", 0, 1, .w1s, none⟩,
     ⟨"outcome", 8, 8, .ro, none⟩,
     ⟨"detail_kind", 16, 4, .ro, none⟩,
     ⟨"detail_index", 20, 12, .ro, none⟩]⟩]

/-- Registers of the Device page (spec/01_architecture.md). -/
def regDeviceB : List RegRow :=
  [⟨"DEV_MEASURE", 0x40, 16, 0x4, 1, 0x0, .V, 0x0, 0x0,
    [⟨"digest", 0, 32, .ro, none⟩]⟩,
   ⟨"FAB_SPEED", 0x1040, 4, 0x4, 1, 0x0, .V, 0x1000100, 0x0,
    [⟨"k", 0, 16, .ro, none⟩,
     ⟨"k_max", 16, 16, .ro, none⟩]⟩,
   ⟨"PWR_STAT", 0x2000, 1, 0x0, 1, 0x0, .V, 0x0, 0x0,
    [⟨"vin", 0, 10, .ro, none⟩,
     ⟨"vfab", 10, 10, .ro, none⟩,
     ⟨"vin_high", 20, 1, .w1c, none⟩,
     ⟨"vfab_limit", 21, 1, .w1c, none⟩]⟩,
   ⟨"PWR_RESET_CAUSE", 0x2004, 1, 0x0, 1, 0x0, .V, 0x1, 0x0,
    [⟨"cause", 0, 5, .ro, none⟩]⟩,
   ⟨"PWR_FAB_CFG", 0x2008, 1, 0x0, 1, 0x0, .S, 0x6401, 0x0,
    [⟨"mode", 0, 2, .rw, some [(1, 2)]⟩,
     ⟨"k_target", 8, 8, .rw, some [(90, 137)]⟩,
     ⟨"vset", 16, 8, .rw, some [(0, 16)]⟩]⟩,
   ⟨"PWR_CLK_STAT", 0x200C, 1, 0x0, 1, 0x0, .V, 0x0, 0x0,
    [⟨"ext", 0, 1, .ro, none⟩]⟩,
   ⟨"PWR_FQI_TC", 0x2010, 3, 0x4, 1, 0x0, .S, 0x0, 0x0,
    [⟨"coef", 0, 32, .rw, none⟩]⟩,
   ⟨"PWR_SLEEP_CFG", 0x2020, 1, 0x0, 1, 0x0, .S, 0x100, 0x0,
    [⟨"wake_in_en", 0, 2, .rw, none⟩,
     ⟨"wake_in_pol", 2, 2, .rw, none⟩,
     ⟨"perst_en", 8, 1, .rw, none⟩,
     ⟨"can_en", 9, 8, .rw, none⟩]⟩,
   ⟨"PWR_SLEEP_CTRL", 0x2024, 1, 0x0, 1, 0x0, .T, 0x0, 0x0,
    [⟨"enter", 0, 1, .w1s, none⟩,
     ⟨"status", 8, 8, .ro, none⟩]⟩,
   ⟨"PWR_WAKE_STAT", 0x2028, 1, 0x0, 1, 0x0, .V, 0x0, 0x0,
    [⟨"wake_in", 0, 2, .w1c, none⟩,
     ⟨"perst", 2, 1, .w1c, none⟩,
     ⟨"can", 3, 8, .w1c, none⟩,
     ⟨"slept_s", 11, 21, .ro, none⟩]⟩,
   ⟨"PWR_SAFE_WDOG", 0x202C, 1, 0x0, 1, 0x0, .S, 0x64, 0x0,
    [⟨"delay", 0, 16, .rw, some [(1, 65535)]⟩,
     ⟨"enable", 16, 1, .rw, none⟩]⟩,
   ⟨"PWR_CAL_LO", 0x2030, 1, 0x0, 1, 0x0, .V, 0x0, 0x0,
    [⟨"seconds", 0, 32, .ro, none⟩]⟩]

/-- Registers of the Device page (spec/18_power_clocks_thermal.md). -/
def regDeviceC : List RegRow :=
  [⟨"PWR_CAL_HI", 0x2034, 1, 0x0, 1, 0x0, .V, 0x0, 0x0,
    [⟨"seconds", 0, 32, .ro, none⟩]⟩,
   ⟨"THM_TS", 0x3000, 57, 0x4, 1, 0x0, .V, 0x0, 0x0,
    [⟨"temp", 0, 32, .ro, none⟩]⟩,
   ⟨"THM_FENCED_LO", 0x3100, 1, 0x0, 1, 0x0, .V, 0x0, 0x0,
    [⟨"mask", 0, 32, .ro, none⟩]⟩,
   ⟨"THM_FENCED_HI", 0x3104, 1, 0x0, 1, 0x0, .V, 0x0, 0x0,
    [⟨"mask", 0, 32, .ro, none⟩]⟩,
   ⟨"THM_CC_CFG", 0x3108, 1, 0x0, 1, 0x0, .S, 0x3141E0F, 0x0,
    [⟨"tol_zone", 0, 8, .rw, some [(1, 255)]⟩,
     ⟨"tol_pod", 8, 8, .rw, some [(1, 255)]⟩,
     ⟨"tol_die", 16, 8, .rw, some [(1, 255)]⟩,
     ⟨"cc_count", 24, 8, .rw, some [(1, 255)]⟩]⟩,
   ⟨"THM_MAX", 0x310C, 1, 0x0, 1, 0x0, .V, 0x0, 0x0,
    [⟨"temp", 0, 32, .ro, none⟩]⟩,
   ⟨"THM_DERATE_CFG", 0x3110, 1, 0x4, 1, 0x0, .S, 0x8C6E, 0x0,
    [⟨"t_start", 0, 8, .rw, none⟩,
     ⟨"t_stop", 8, 8, .rw, some [(0, 150)]⟩,
     ⟨"ext_en", 16, 1, .rw, none⟩,
     ⟨"pv_mask", 17, 6, .rw, none⟩]⟩,
   ⟨"THM_DERATE_CFG", 0x3114, 1, 0x4, 1, 0x0, .S, 0x8C6E, 0x0,
    [⟨"t_start", 0, 8, .rw, none⟩,
     ⟨"t_stop", 8, 8, .rw, some [(0, 150)]⟩,
     ⟨"ext_en", 16, 1, .rw, none⟩,
     ⟨"pv_mask", 17, 6, .rw, some [(0, 0)]⟩]⟩,
   ⟨"THM_STAGE_MAX", 0x3200, 21, 0x8, 1, 0x0, .V, 0x0, 0x0,
    [⟨"value", 0, 32, .ro, none⟩]⟩,
   ⟨"THM_DERATE", 0x3204, 21, 0x8, 1, 0x0, .V, 0x10000, 0x0,
    [⟨"value", 0, 32, .ro, none⟩]⟩,
   ⟨"THM_NTC", 0x3300, 14, 0x8, 1, 0x0, .S, 0xD6B03E8, 0x0,
    [⟨"r25", 0, 16, .rw, some [(1, 65535)]⟩,
     ⟨"beta", 16, 16, .rw, some [(1000, 65535)]⟩]⟩,
   ⟨"THM_PV_CFG", 0x3304, 14, 0x8, 1, 0x0, .S, 0x3E80000, 0x0,
    [⟨"v0", 0, 16, .rw, none⟩,
     ⟨"slope", 16, 16, .rw, some [(1, 65535)]⟩]⟩]

/-- Registers of the Device page (spec/18_power_clocks_thermal.md). -/
def regDeviceD : List RegRow :=
  [⟨"THM_TN", 0x3380, 14, 0x8, 1, 0x0, .V, 0x0, 0x0,
    [⟨"temp", 0, 32, .ro, none⟩]⟩,
   ⟨"THM_PVT", 0x3384, 14, 0x8, 1, 0x0, .V, 0x0, 0x0,
    [⟨"temp", 0, 32, .ro, none⟩]⟩,
   ⟨"THM_LIFE", 0x3400, 1, 0x0, 1, 0x0, .V, 0x0, 0x0,
    [⟨"hours", 0, 24, .ro, none⟩,
     ⟨"limit", 24, 1, .ro, none⟩]⟩]

/-- Registers of the Timebase page (spec/02_timebase_and_pulse_generators.md). -/
def regTimebaseA : List RegRow :=
  [⟨"TB_TIME_LO", 0x10000, 1, 0x0, 1, 0x0, .V, 0x0, 0x0,
    [⟨"time_lo", 0, 32, .ro, none⟩]⟩,
   ⟨"TB_TIME_HI", 0x10004, 1, 0x0, 1, 0x0, .V, 0x0, 0x0,
    [⟨"time_hi", 0, 32, .ro, none⟩]⟩,
   ⟨"TB_SYNC_CFG", 0x10008, 1, 0x0, 1, 0x0, .S, 0x86401, 0x0,
    [⟨"sync", 0, 2, .rw, some [(1, 2)]⟩,
     ⟨"slew_ppm", 8, 8, .rw, some [(1, 200)]⟩,
     ⟨"step_limit", 16, 16, .rw, some [(1, 65535)]⟩]⟩,
   ⟨"TB_GT_STAT", 0x1000C, 1, 0x0, 1, 0x0, .V, 0x1, 0x0,
    [⟨"state", 0, 3, .ro, none⟩,
     ⟨"jump", 3, 1, .w1c, none⟩,
     ⟨"gt_valid", 4, 1, .ro, none⟩]⟩,
   ⟨"TB_GT_OFFSET_LO", 0x10010, 1, 0x0, 1, 0x0, .V, 0x0, 0x0,
    [⟨"offset", 0, 32, .ro, none⟩]⟩,
   ⟨"TB_GT_OFFSET_HI", 0x10014, 1, 0x0, 1, 0x0, .V, 0x0, 0x0,
    [⟨"offset", 0, 32, .ro, none⟩]⟩,
   ⟨"TB_EPOCH_LO", 0x10018, 1, 0x0, 1, 0x0, .S, 0x0, 0x0,
    [⟨"epoch", 0, 32, .rw, none⟩]⟩,
   ⟨"TB_EPOCH_HI", 0x1001C, 1, 0x0, 1, 0x0, .S, 0x0, 0x0,
    [⟨"epoch", 0, 32, .rw, none⟩]⟩,
   ⟨"TB_GT_ERR", 0x10020, 1, 0x0, 1, 0x0, .V, 0x0, 0x0,
    [⟨"err", 0, 32, .ro, none⟩]⟩,
   ⟨"TB_RATE", 0x10024, 1, 0x0, 1, 0x0, .V, 0x0, 0x0,
    [⟨"ppb", 0, 32, .ro, none⟩]⟩,
   ⟨"TB_STG_CFG", 0x10100, 21, 0x40, 1, 0x0, .S, 0xB4, 0x0,
    [⟨"enable", 0, 1, .rw, none⟩,
     ⟨"count_mode", 1, 2, .rw, some [(1, 2)]⟩,
     ⟨"beat_div", 3, 2, .rw, some [(1, 2)]⟩,
     ⟨"source", 5, 2, .rw, some [(1, 2)]⟩,
     ⟨"sync", 7, 2, .rw, some [(1, 2)]⟩]⟩,
   ⟨"TB_STG_PERIOD", 0x10104, 21, 0x40, 1, 0x0, .S, 0x9C40, 0x0,
    [⟨"period", 0, 20, .rw, some [(1600, 800000)]⟩]⟩]

/-- Registers of the Timebase page (spec/02_timebase_and_pulse_generators.md). -/
def regTimebaseB : List RegRow :=
  [⟨"TB_STG_PHASE", 0x10108, 21, 0x40, 1, 0x0, .S, 0x0, 0x0,
    [⟨"phase", 0, 20, .rw, none⟩]⟩,
   ⟨"TB_STG_LIMIT", 0x1010C, 21, 0x40, 1, 0x0, .S, 0xA004D80, 0x0,
    [⟨"latest", 0, 20, .rw, none⟩,
     ⟨"guard", 20, 12, .rw, some [(80, 4095)]⟩]⟩,
   ⟨"TB_STG_RUN", 0x10110, 21, 0x40, 1, 0x0, .T, 0x0, 0x0,
    [⟨"run", 0, 1, .rw, none⟩]⟩,
   ⟨"TB_STG_COMMIT", 0x10114, 21, 0x40, 1, 0x0, .T, 0x0, 0x0,
    [⟨"update", 0, 16, .rw, none⟩,
     ⟨"status", 16, 8, .ro, none⟩,
     ⟨"pending", 24, 1, .ro, none⟩]⟩,
   ⟨"TB_STG_UPD_LO", 0x10118, 21, 0x40, 1, 0x0, .V, 0x0, 0x0,
    [⟨"count", 0, 32, .ro, none⟩]⟩,
   ⟨"TB_STG_UPD_HI", 0x1011C, 21, 0x40, 1, 0x0, .V, 0x0, 0x0,
    [⟨"count", 0, 32, .ro, none⟩]⟩,
   ⟨"TB_STG_STAT", 0x10120, 21, 0x40, 1, 0x0, .V, 0x0, 0x0,
    [⟨"running", 0, 1, .ro, none⟩,
     ⟨"tripped", 1, 1, .ro, none⟩,
     ⟨"fenced", 2, 1, .ro, none⟩,
     ⟨"deadline", 3, 1, .w1c, none⟩,
     ⟨"late", 4, 1, .w1c, none⟩,
     ⟨"stale", 5, 1, .w1c, none⟩,
     ⟨"stale_cnt", 16, 16, .ro, none⟩]⟩,
   ⟨"TB_STG_PLAN_A", 0x10124, 21, 0x40, 1, 0x0, .V, 0x0, 0x0,
    [⟨"instant", 0, 20, .ro, none⟩,
     ⟨"placed", 31, 1, .ro, none⟩]⟩,
   ⟨"TB_STG_PLAN_B", 0x10128, 21, 0x40, 1, 0x0, .V, 0x0, 0x0,
    [⟨"instant", 0, 20, .ro, none⟩,
     ⟨"placed", 31, 1, .ro, none⟩]⟩,
   ⟨"TB_TRIG_CFG", 0x11000, 48, 0x10, 1, 0x0, .S, 0x700, 0x0,
    [⟨"enable", 0, 1, .rw, none⟩,
     ⟨"stage", 1, 5, .rw, some [(0, 20)]⟩,
     ⟨"mode", 6, 3, .rw, some [(1, 4)]⟩,
     ⟨"dir", 9, 2, .rw, some [(1, 3)]⟩]⟩,
   ⟨"TB_TRIG_POS", 0x11004, 48, 0x10, 1, 0x0, .S, 0x0, 0x0,
    [⟨"pos", 0, 28, .rw, none⟩]⟩,
   ⟨"TB_TRIG_CNT", 0x11008, 48, 0x10, 1, 0x0, .V, 0x0, 0x0,
    [⟨"count", 0, 32, .ro, none⟩]⟩]

/-- Registers of the PulseGen page (spec/02_timebase_and_pulse_generators.md). -/
def regPulseGenA : List RegRow :=
  [⟨"PG_CFG", 0x14000, 64, 0x100, 1, 0x0, .S, 0x6, 0x0,
    [⟨"mode", 0, 3, .rw, some [(1, 6)]⟩]⟩,
   ⟨"PG_DT", 0x14004, 64, 0x100, 1, 0x0, .S, 0x0, 0x0,
    [⟨"dt_rise", 0, 15, .rw, none⟩,
     ⟨"dt_fall", 16, 15, .rw, none⟩]⟩,
   ⟨"PG_MINP", 0x14008, 64, 0x100, 1, 0x0, .S, 0x0, 0x0,
    [⟨"min_pulse", 0, 16, .rw, none⟩]⟩,
   ⟨"PG_SHD_A", 0x14010, 64, 0x100, 1, 0x0, .T, 0x0, 0x0,
    [⟨"value", 0, 28, .rw, none⟩]⟩,
   ⟨"PG_SHD_B", 0x14014, 64, 0x100, 1, 0x0, .T, 0x0, 0x0,
    [⟨"value", 0, 28, .rw, none⟩]⟩,
   ⟨"PG_CMP_A", 0x14018, 64, 0x100, 1, 0x0, .V, 0x0, 0x0,
    [⟨"value", 0, 28, .ro, none⟩]⟩,
   ⟨"PG_CMP_B", 0x1401C, 64, 0x100, 1, 0x0, .V, 0x0, 0x0,
    [⟨"value", 0, 28, .ro, none⟩]⟩,
   ⟨"PG_STAT", 0x14020, 64, 0x100, 1, 0x0, .V, 0x0, 0x0,
    [⟨"out_high", 0, 1, .ro, none⟩,
     ⟨"out_low", 1, 1, .ro, none⟩,
     ⟨"sat", 2, 1, .w1c, none⟩,
     ⟨"minp", 3, 1, .w1c, none⟩,
     ⟨"both_req", 4, 1, .w1c, none⟩,
     ⟨"trip_hold", 5, 1, .ro, none⟩]⟩]

/-- Registers of the Ports page (spec/03_power_ports.md). -/
def regPortsA : List RegRow :=
  [⟨"PP_CFG", 0x18000, 42, 0x100, 1, 0x0, .S, 0xC68, 0x0,
    [⟨"enable", 0, 1, .rw, none⟩,
     ⟨"von", 1, 3, .rw, some [(1, 6)]⟩,
     ⟨"voff", 4, 2, .rw, none⟩,
     ⟨"miller_clamp", 6, 1, .rw, none⟩,
     ⟨"uvlo", 8, 5, .rw, some [(0, 24)]⟩,
     ⟨"light", 31, 1, .ro, none⟩]⟩,
   ⟨"PP_CFG", 0x1AA00, 22, 0x100, 1, 0x0, .S, 0x80000040, 0x0,
    [⟨"enable", 0, 1, .rw, none⟩,
     ⟨"von", 1, 3, .rw, some [(0, 0)]⟩,
     ⟨"voff", 4, 2, .rw, some [(0, 0)]⟩,
     ⟨"miller_clamp", 6, 1, .rw, none⟩,
     ⟨"uvlo", 8, 5, .rw, some [(0, 0)]⟩,
     ⟨"light", 31, 1, .ro, none⟩]⟩,
   ⟨"PP_ON_SEG", 0x18004, 42, 0x100, 1, 0x0, .S, 0x90C63, 0x0,
    [⟨"i1", 0, 5, .rw, some [(1, 31)]⟩,
     ⟨"i2", 5, 5, .rw, some [(1, 31)]⟩,
     ⟨"i3", 10, 5, .rw, some [(1, 31)]⟩,
     ⟨"detect", 16, 2, .rw, some [(1, 2)]⟩,
     ⟨"pd_ratio", 18, 2, .rw, some [(1, 3)]⟩]⟩,
   ⟨"PP_ON_SEG", 0x1AA04, 22, 0x100, 1, 0x0, .S, 0x3, 0x0,
    [⟨"i1", 0, 5, .rw, some [(1, 15)]⟩,
     ⟨"i2", 5, 5, .rw, some [(0, 0)]⟩,
     ⟨"i3", 10, 5, .rw, some [(0, 0)]⟩,
     ⟨"detect", 16, 2, .rw, some [(0, 0)]⟩,
     ⟨"pd_ratio", 18, 2, .rw, some [(0, 0)]⟩]⟩,
   ⟨"PP_OFF_SEG", 0x18008, 42, 0x100, 1, 0x0, .S, 0x90C63, 0x0,
    [⟨"i1", 0, 5, .rw, some [(1, 31)]⟩,
     ⟨"i2", 5, 5, .rw, some [(1, 31)]⟩,
     ⟨"i3", 10, 5, .rw, some [(1, 31)]⟩,
     ⟨"detect", 16, 2, .rw, some [(1, 2)]⟩,
     ⟨"pd_ratio", 18, 2, .rw, some [(1, 3)]⟩]⟩,
   ⟨"PP_OFF_SEG", 0x1AA08, 22, 0x100, 1, 0x0, .S, 0x3, 0x0,
    [⟨"i1", 0, 5, .rw, some [(1, 15)]⟩,
     ⟨"i2", 5, 5, .rw, some [(0, 0)]⟩,
     ⟨"i3", 10, 5, .rw, some [(0, 0)]⟩,
     ⟨"detect", 16, 2, .rw, some [(0, 0)]⟩,
     ⟨"pd_ratio", 18, 2, .rw, some [(0, 0)]⟩]⟩,
   ⟨"PP_SEG_TIME_ON", 0x1800C, 42, 0x100, 1, 0x0, .S, 0x19028, 0x0,
    [⟨"s1_max", 0, 8, .rw, some [(1, 255)]⟩,
     ⟨"s2_max", 8, 10, .rw, some [(1, 1023)]⟩]⟩,
   ⟨"PP_SEG_TIME_ON", 0x1AA0C, 22, 0x100, 1, 0x0, .S, 0x0, 0x0,
    [⟨"s1_max", 0, 8, .rw, some [(0, 0)]⟩,
     ⟨"s2_max", 8, 10, .rw, some [(0, 0)]⟩]⟩,
   ⟨"PP_SEG_TIME_OFF", 0x18010, 42, 0x100, 1, 0x0, .S, 0x19028, 0x0,
    [⟨"s1_max", 0, 8, .rw, some [(1, 255)]⟩,
     ⟨"s2_max", 8, 10, .rw, some [(1, 1023)]⟩]⟩,
   ⟨"PP_SEG_TIME_OFF", 0x1AA10, 22, 0x100, 1, 0x0, .S, 0x0, 0x0,
    [⟨"s1_max", 0, 8, .rw, some [(0, 0)]⟩,
     ⟨"s2_max", 8, 10, .rw, some [(0, 0)]⟩]⟩,
   ⟨"PP_MON", 0x18014, 64, 0x100, 1, 0x0, .S, 0x4C8, 0x0,
    [⟨"window", 0, 10, .rw, some [(1, 1023)]⟩,
     ⟨"enable", 10, 1, .rw, none⟩]⟩,
   ⟨"PP_CHOP", 0x18018, 64, 0x100, 1, 0x0, .S, 0xA0064, 0x0,
    [⟨"enable", 0, 1, .rw, none⟩,
     ⟨"sw", 1, 1, .rw, none⟩,
     ⟨"delay", 2, 12, .rw, some [(1, 4095)]⟩,
     ⟨"threshold", 14, 12, .rw, some [(1, 4095)]⟩]⟩]

/-- Registers of the Ports page (spec/03_power_ports.md). -/
def regPortsB : List RegRow :=
  [⟨"PP_STAT", 0x18020, 64, 0x100, 1, 0x0, .V, 0x0, 0x0,
    [⟨"gate_hi", 0, 1, .ro, none⟩,
     ⟨"gate_lo", 1, 1, .ro, none⟩,
     ⟨"uvlo_hi_live", 2, 1, .ro, none⟩,
     ⟨"uvlo_lo_live", 3, 1, .ro, none⟩,
     ⟨"interlock_live", 4, 1, .ro, none⟩,
     ⟨"link_live", 5, 1, .ro, none⟩,
     ⟨"fenced", 6, 1, .ro, none⟩,
     ⟨"uvlo", 8, 1, .w1c, none⟩,
     ⟨"interlock", 9, 1, .w1c, none⟩,
     ⟨"gate_mismatch", 10, 1, .w1c, none⟩,
     ⟨"seg_timeout", 11, 1, .w1c, none⟩,
     ⟨"chopper_open", 12, 1, .w1c, none⟩,
     ⟨"link_down", 13, 1, .w1c, none⟩,
     ⟨"supply_high", 14, 1, .w1c, none⟩]⟩,
   ⟨"PP_CNT", 0x18024, 64, 0x100, 1, 0x0, .V, 0x0, 0x0,
    [⟨"uvlo", 0, 8, .ro, none⟩,
     ⟨"interlock", 8, 8, .ro, none⟩,
     ⟨"mismatch", 16, 8, .ro, none⟩,
     ⟨"chopper_open", 24, 8, .ro, none⟩]⟩,
   ⟨"PP_SUPPLY", 0x18028, 64, 0x100, 1, 0x0, .V, 0x0, 0x0,
    [⟨"hi_supply", 0, 12, .ro, none⟩,
     ⟨"lo_supply", 16, 12, .ro, none⟩]⟩,
   ⟨"PP_EDGE_ON", 0x1802C, 64, 0x100, 1, 0x0, .V, 0x0, 0x0,
    [⟨"seg1", 0, 8, .ro, none⟩,
     ⟨"seg2", 8, 10, .ro, none⟩,
     ⟨"seg3", 18, 8, .ro, none⟩,
     ⟨"timeout", 26, 1, .ro, none⟩,
     ⟨"switch", 27, 1, .ro, none⟩]⟩,
   ⟨"PP_EDGE_OFF", 0x18030, 64, 0x100, 1, 0x0, .V, 0x0, 0x0,
    [⟨"seg1", 0, 8, .ro, none⟩,
     ⟨"seg2", 8, 10, .ro, none⟩,
     ⟨"seg3", 18, 8, .ro, none⟩,
     ⟨"timeout", 26, 1, .ro, none⟩,
     ⟨"switch", 27, 1, .ro, none⟩]⟩]

/-- Registers of the Shunt page (spec/04_shunt_sensing.md). -/
def regShuntA : List RegRow :=
  [⟨"SH_CFG", 0x1C000, 21, 0x200, 1, 0x0, .S, 0x3, 0x0,
    [⟨"mode", 0, 3, .rw, some [(1, 3)]⟩,
     ⟨"gain", 4, 2, .rw, none⟩,
     ⟨"half", 8, 1, .rw, none⟩]⟩,
   ⟨"SH_WIN", 0x1C004, 21, 0x200, 1, 0x0, .S, 0x180C0, 0x0,
    [⟨"blank", 0, 10, .rw, none⟩,
     ⟨"settle", 10, 10, .rw, none⟩,
     ⟨"accept", 20, 10, .rw, none⟩]⟩,
   ⟨"SH_FIX_A", 0x1C008, 21, 0x200, 1, 0x0, .S, 0x0, 0x0,
    [⟨"offset", 0, 20, .rw, none⟩,
     ⟨"enable", 31, 1, .rw, none⟩]⟩,
   ⟨"SH_FIX_B", 0x1C00C, 21, 0x200, 1, 0x0, .S, 0x0, 0x0,
    [⟨"offset", 0, 20, .rw, none⟩,
     ⟨"enable", 31, 1, .rw, none⟩]⟩,
   ⟨"SH_SCALE", 0x1C010, 21, 0x200, 1, 0x0, .S, 0x1000000, 0x0,
    [⟨"scale", 0, 32, .rw, some [(1, 4294967295)]⟩]⟩,
   ⟨"SH_DV_SCALE", 0x1C014, 14, 0x200, 1, 0x0, .S, 0x1000000, 0x0,
    [⟨"scale", 0, 32, .rw, some [(1, 4294967295)]⟩]⟩,
   ⟨"SH_DV_SCALE", 0x1DC14, 7, 0x200, 1, 0x0, .S, 0x0, 0x0,
    [⟨"absent", 0, 32, .rw, some []⟩]⟩,
   ⟨"SH_PV_SCALE", 0x1C018, 14, 0x200, 1, 0x0, .S, 0x1000000, 0x0,
    [⟨"scale", 0, 32, .rw, some [(1, 4294967295)]⟩]⟩,
   ⟨"SH_PV_SCALE", 0x1DC18, 7, 0x200, 1, 0x0, .S, 0x0, 0x0,
    [⟨"absent", 0, 32, .rw, some []⟩]⟩,
   ⟨"SH_SHORT", 0x1C01C, 21, 0x200, 1, 0x0, .S, 0x4, 0x0,
    [⟨"short_limit", 0, 8, .rw, some [(1, 255)]⟩]⟩,
   ⟨"SH_CAL_CTRL", 0x1C020, 21, 0x200, 1, 0x0, .T, 0x0, 0x0,
    [⟨"op", 0, 2, .rw, some [(1, 3)]⟩,
     ⟨"busy", 8, 1, .ro, none⟩,
     ⟨"status", 16, 8, .ro, none⟩]⟩,
   ⟨"SH_CAL_RES", 0x1C024, 21, 0x200, 1, 0x0, .V, 0x0, 0x0,
    [⟨"offset", 0, 16, .ro, none⟩,
     ⟨"gain_err", 16, 16, .ro, none⟩]⟩]

/-- Registers of the Shunt page (spec/04_shunt_sensing.md). -/
def regShuntB : List RegRow :=
  [⟨"SH_RES_A", 0x1C030, 21, 0x200, 1, 0x0, .V, 0x0, 0x0,
    [⟨"current", 0, 32, .ro, none⟩]⟩,
   ⟨"SH_RES_B", 0x1C040, 21, 0x200, 1, 0x0, .V, 0x0, 0x0,
    [⟨"current", 0, 32, .ro, none⟩]⟩,
   ⟨"SH_INFO_A", 0x1C034, 21, 0x200, 1, 0x0, .V, 0x0, 0x0,
    [⟨"phase", 0, 2, .ro, none⟩,
     ⟨"neg", 2, 1, .ro, none⟩,
     ⟨"placed", 3, 1, .ro, none⟩,
     ⟨"accepted", 4, 1, .ro, none⟩,
     ⟨"sat", 5, 1, .ro, none⟩,
     ⟨"trip", 6, 1, .ro, none⟩,
     ⟨"shifted", 7, 1, .ro, none⟩,
     ⟨"update", 16, 16, .ro, none⟩]⟩,
   ⟨"SH_INFO_B", 0x1C044, 21, 0x200, 1, 0x0, .V, 0x0, 0x0,
    [⟨"phase", 0, 2, .ro, none⟩,
     ⟨"neg", 2, 1, .ro, none⟩,
     ⟨"placed", 3, 1, .ro, none⟩,
     ⟨"accepted", 4, 1, .ro, none⟩,
     ⟨"sat", 5, 1, .ro, none⟩,
     ⟨"trip", 6, 1, .ro, none⟩,
     ⟨"shifted", 7, 1, .ro, none⟩,
     ⟨"update", 16, 16, .ro, none⟩]⟩,
   ⟨"SH_STAMP_A_LO", 0x1C038, 21, 0x200, 1, 0x0, .V, 0x0, 0x0,
    [⟨"time", 0, 32, .ro, none⟩]⟩,
   ⟨"SH_STAMP_A_HI", 0x1C03C, 21, 0x200, 1, 0x0, .V, 0x0, 0x0,
    [⟨"time", 0, 32, .ro, none⟩]⟩,
   ⟨"SH_STAMP_B_LO", 0x1C048, 21, 0x200, 1, 0x0, .V, 0x0, 0x0,
    [⟨"time", 0, 32, .ro, none⟩]⟩,
   ⟨"SH_STAMP_B_HI", 0x1C04C, 21, 0x200, 1, 0x0, .V, 0x0, 0x0,
    [⟨"time", 0, 32, .ro, none⟩]⟩,
   ⟨"SH_DV", 0x1C050, 14, 0x200, 1, 0x0, .V, 0x0, 0x0,
    [⟨"volts", 0, 32, .ro, none⟩]⟩,
   ⟨"SH_DV", 0x1DC50, 7, 0x200, 1, 0x0, .V, 0x0, 0x0,
    [⟨"absent", 0, 32, .rw, some []⟩]⟩,
   ⟨"SH_PV", 0x1C054, 14, 0x200, 1, 0x0, .V, 0x0, 0x0,
    [⟨"value", 0, 32, .ro, none⟩]⟩,
   ⟨"SH_PV", 0x1DC54, 7, 0x200, 1, 0x0, .V, 0x0, 0x0,
    [⟨"absent", 0, 32, .rw, some []⟩]⟩]

/-- Registers of the Shunt page (spec/04_shunt_sensing.md). -/
def regShuntC : List RegRow :=
  [⟨"SH_TN", 0x1C058, 14, 0x200, 1, 0x0, .V, 0x0, 0x0,
    [⟨"code", 0, 14, .ro, none⟩]⟩,
   ⟨"SH_TN", 0x1DC58, 7, 0x200, 1, 0x0, .V, 0x0, 0x0,
    [⟨"absent", 0, 32, .rw, some []⟩]⟩,
   ⟨"SH_STAT", 0x1C05C, 21, 0x200, 1, 0x0, .V, 0x0, 0x0,
    [⟨"short", 0, 1, .w1c, none⟩,
     ⟨"accepted", 1, 1, .w1c, none⟩,
     ⟨"sat", 2, 1, .w1c, none⟩,
     ⟨"unplaced", 3, 1, .w1c, none⟩,
     ⟨"short_run", 4, 1, .ro, none⟩,
     ⟨"run_len", 8, 8, .ro, none⟩,
     ⟨"short_cnt", 16, 16, .ro, none⟩]⟩]

/-- Registers of the Converter page (spec/05_converters_and_window_monitors.md). -/
def regConverterA : List RegRow :=
  [⟨"CV_CFG", 0x20000, 6, 0x800, 1, 0x0, .S, 0x14100007, 0x0,
    [⟨"mode", 0, 2, .rw, some [(1, 3)]⟩,
     ⟨"length", 2, 5, .rw, some [(1, 16)]⟩,
     ⟨"trigger", 8, 6, .rw, some [(0, 47)]⟩,
     ⟨"ow_every", 16, 8, .rw, some [(1, 255)]⟩,
     ⟨"ow_time", 24, 8, .rw, some [(1, 255)]⟩]⟩,
   ⟨"CV_STAT", 0x20004, 6, 0x800, 1, 0x0, .V, 0x0, 0x0,
    [⟨"busy", 0, 1, .ro, none⟩,
     ⟨"urgent", 1, 1, .ro, none⟩,
     ⟨"entry", 2, 4, .ro, none⟩,
     ⟨"overrun", 6, 1, .w1c, none⟩,
     ⟨"broken", 7, 1, .w1c, none⟩,
     ⟨"dac_mismatch", 8, 1, .w1c, none⟩,
     ⟨"overrun_cnt", 16, 16, .ro, none⟩]⟩,
   ⟨"CV_URG", 0x20008, 6, 0x800, 1, 0x0, .T, 0x4, 0x0,
    [⟨"kind", 0, 3, .rw, some [(1, 4)]⟩,
     ⟨"index", 3, 6, .rw, none⟩,
     ⟨"busy", 16, 1, .ro, none⟩,
     ⟨"status", 24, 8, .ro, none⟩]⟩,
   ⟨"CV_URG_RES", 0x2000C, 6, 0x800, 1, 0x0, .V, 0x0, 0x0,
    [⟨"code", 0, 16, .ro, none⟩]⟩,
   ⟨"CV_ENT", 0x20100, 6, 0x800, 16, 0x20, .S, 0x101004, 0x0,
    [⟨"kind", 0, 3, .rw, some [(1, 4)]⟩,
     ⟨"index", 3, 6, .rw, none⟩,
     ⟨"avg", 9, 3, .rw, some [(0, 6)]⟩,
     ⟨"ow", 12, 3, .rw, some [(1, 5)]⟩,
     ⟨"ow_limit", 16, 10, .rw, some [(1, 1023)]⟩]⟩,
   ⟨"CV_SCALE", 0x20104, 6, 0x800, 16, 0x20, .S, 0x280, 0x0,
    [⟨"scale", 0, 32, .rw, some [(1, 4294967295)]⟩]⟩,
   ⟨"CV_OFFS", 0x20108, 6, 0x800, 16, 0x20, .S, 0x0, 0x0,
    [⟨"offset", 0, 18, .rw, none⟩]⟩,
   ⟨"CV_RES", 0x2010C, 6, 0x800, 16, 0x20, .V, 0x0, 0x0,
    [⟨"value", 0, 32, .ro, none⟩]⟩,
   ⟨"CV_RAW", 0x20110, 6, 0x800, 16, 0x20, .V, 0x0, 0x0,
    [⟨"code", 0, 16, .ro, none⟩,
     ⟨"valid", 16, 1, .ro, none⟩,
     ⟨"broken", 17, 1, .ro, none⟩,
     ⟨"sat", 18, 1, .ro, none⟩,
     ⟨"pass", 24, 8, .ro, none⟩]⟩,
   ⟨"CV_STAMP", 0x20114, 6, 0x800, 16, 0x20, .V, 0x0, 0x0,
    [⟨"time", 0, 32, .ro, none⟩]⟩]

/-- Registers of the Monitor page (spec/05_converters_and_window_monitors.md). -/
def regMonitorA : List RegRow :=
  [⟨"WM_CFG", 0x24000, 24, 0x20, 1, 0x0, .S, 0x201, 0x0,
    [⟨"input", 0, 2, .rw, some [(1, 2)]⟩,
     ⟨"index", 2, 6, .rw, some [(0, 47)]⟩,
     ⟨"latch", 8, 2, .rw, some [(1, 2)]⟩,
     ⟨"filt", 10, 4, .rw, none⟩,
     ⟨"hyst", 14, 5, .rw, none⟩,
     ⟨"en_lo", 19, 1, .rw, none⟩,
     ⟨"en_hi", 20, 1, .rw, none⟩,
     ⟨"route_lo", 21, 1, .rw, none⟩,
     ⟨"route_hi", 22, 1, .rw, none⟩]⟩,
   ⟨"WM_THR", 0x24004, 24, 0x20, 1, 0x0, .S, 0x3FF0000, 0x0,
    [⟨"lo", 0, 10, .rw, none⟩,
     ⟨"hi", 16, 10, .rw, none⟩]⟩,
   ⟨"WM_PC_THR", 0x24404, 28, 0x20, 1, 0x0, .S, 0x3FF0000, 0x0,
    [⟨"lo", 0, 10, .rw, none⟩,
     ⟨"hi", 16, 10, .rw, none⟩]⟩,
   ⟨"WM_LATCH", 0x24008, 24, 0x20, 1, 0x0, .T, 0x0, 0x0,
    [⟨"lo", 0, 1, .w1c, none⟩,
     ⟨"hi", 1, 1, .w1c, none⟩]⟩,
   ⟨"WM_PC_LATCH", 0x24408, 28, 0x20, 1, 0x0, .T, 0x0, 0x0,
    [⟨"lo", 0, 1, .w1c, none⟩,
     ⟨"hi", 1, 1, .w1c, none⟩]⟩,
   ⟨"WM_STAT", 0x2400C, 24, 0x20, 1, 0x0, .V, 0x0, 0x0,
    [⟨"live_lo", 0, 1, .ro, none⟩,
     ⟨"live_hi", 1, 1, .ro, none⟩,
     ⟨"band_hold", 2, 1, .ro, none⟩,
     ⟨"dac_err", 3, 1, .w1c, none⟩,
     ⟨"count", 16, 16, .ro, none⟩]⟩,
   ⟨"WM_PC_STAT", 0x2440C, 28, 0x20, 1, 0x0, .V, 0x0, 0x0,
    [⟨"live_lo", 0, 1, .ro, none⟩,
     ⟨"live_hi", 1, 1, .ro, none⟩,
     ⟨"band_hold", 2, 1, .ro, none⟩,
     ⟨"dac_err", 3, 1, .w1c, none⟩,
     ⟨"count", 16, 16, .ro, none⟩]⟩,
   ⟨"WM_PC_CFG", 0x24400, 28, 0x20, 1, 0x0, .S, 0x2, 0x0,
    [⟨"latch", 0, 2, .rw, some [(1, 2)]⟩,
     ⟨"filt", 2, 4, .rw, none⟩,
     ⟨"hyst", 6, 5, .rw, none⟩,
     ⟨"en_lo", 11, 1, .rw, none⟩,
     ⟨"en_hi", 12, 1, .rw, none⟩,
     ⟨"route_lo", 13, 1, .rw, none⟩,
     ⟨"route_hi", 14, 1, .rw, none⟩,
     ⟨"readback", 15, 1, .rw, none⟩]⟩,
   ⟨"WM_EF_CFG", 0x24800, 8, 0x20, 1, 0x0, .S, 0x8000002, 0x0,
    [⟨"enable", 0, 1, .rw, none⟩,
     ⟨"thr_mode", 1, 2, .rw, some [(1, 2)]⟩,
     ⟨"thr", 3, 10, .rw, none⟩,
     ⟨"hyst", 13, 5, .rw, none⟩,
     ⟨"ratio", 18, 10, .rw, some [(1, 1023)]⟩]⟩,
   ⟨"WM_EF_GAP", 0x24804, 8, 0x20, 1, 0x0, .S, 0x0, 0x0,
    [⟨"gap", 0, 16, .rw, none⟩]⟩,
   ⟨"WM_EF_RISE_LO", 0x24808, 8, 0x20, 1, 0x0, .V, 0x0, 0x0,
    [⟨"time", 0, 32, .ro, none⟩]⟩,
   ⟨"WM_EF_RISE_HI", 0x2480C, 8, 0x20, 1, 0x0, .V, 0x0, 0x0,
    [⟨"time", 0, 32, .ro, none⟩]⟩]

/-- Registers of the Monitor page (spec/05_converters_and_window_monitors.md). -/
def regMonitorB : List RegRow :=
  [⟨"WM_EF_FALL_LO", 0x24810, 8, 0x20, 1, 0x0, .V, 0x0, 0x0,
    [⟨"time", 0, 32, .ro, none⟩]⟩,
   ⟨"WM_EF_FALL_HI", 0x24814, 8, 0x20, 1, 0x0, .V, 0x0, 0x0,
    [⟨"time", 0, 32, .ro, none⟩]⟩,
   ⟨"WM_EF_STAT", 0x24818, 8, 0x20, 1, 0x0, .V, 0x0, 0x0,
    [⟨"live", 0, 1, .ro, none⟩,
     ⟨"band_hold", 1, 1, .ro, none⟩,
     ⟨"rise", 2, 1, .w1c, none⟩,
     ⟨"fall", 3, 1, .w1c, none⟩,
     ⟨"blanked", 4, 1, .ro, none⟩,
     ⟨"edges", 16, 16, .ro, none⟩]⟩,
   ⟨"WM_SW_IN_CFG", 0x24A00, 1, 0x0, 1, 0x0, .S, 0x0, 0x0,
    [⟨"enable0", 0, 1, .rw, none⟩,
     ⟨"enable1", 8, 1, .rw, none⟩,
     ⟨"enable2", 16, 1, .rw, none⟩,
     ⟨"enable3", 24, 1, .rw, none⟩,
     ⟨"level0", 1, 1, .rw, none⟩,
     ⟨"level1", 9, 1, .rw, none⟩,
     ⟨"level2", 17, 1, .rw, none⟩,
     ⟨"level3", 25, 1, .rw, none⟩,
     ⟨"filt0", 2, 4, .rw, none⟩,
     ⟨"filt1", 10, 4, .rw, none⟩,
     ⟨"filt2", 18, 4, .rw, none⟩,
     ⟨"filt3", 26, 4, .rw, none⟩]⟩,
   ⟨"WM_SW_IN_STAT", 0x24A04, 1, 0x0, 1, 0x0, .V, 0x0, 0x0,
    [⟨"live", 0, 4, .ro, none⟩,
     ⟨"seen", 4, 4, .w1c, none⟩]⟩,
   ⟨"WM_SW_HELD", 0x24A08, 1, 0x0, 1, 0x0, .V, 0x0, 0x0,
    [⟨"held", 0, 21, .ro, none⟩]⟩,
   ⟨"WM_SW_ACT", 0x24C00, 21, 0x40, 1, 0x0, .S, 0x79, 0x0,
    [⟨"action", 0, 2, .rw, some [(1, 2)]⟩,
     ⟨"low_delay", 2, 7, .rw, some [(5, 100)]⟩]⟩,
   ⟨"WM_SW_WM_ACT", 0x24C04, 21, 0x40, 1, 0x0, .S, 0x0, 0x0,
    [⟨"mask", 0, 24, .rw, none⟩]⟩,
   ⟨"WM_SW_WM_OFF", 0x24C08, 21, 0x40, 1, 0x0, .S, 0x0, 0x0,
    [⟨"mask", 0, 24, .rw, none⟩]⟩,
   ⟨"WM_SW_PC_ACT", 0x24C0C, 21, 0x40, 1, 0x0, .S, 0x0, 0x0,
    [⟨"mask", 0, 28, .rw, none⟩]⟩,
   ⟨"WM_SW_PC_OFF", 0x24C10, 21, 0x40, 1, 0x0, .S, 0x0, 0x0,
    [⟨"mask", 0, 28, .rw, none⟩]⟩,
   ⟨"WM_SW_IN", 0x24C14, 21, 0x40, 1, 0x0, .S, 0x0, 0x0,
    [⟨"act", 0, 4, .rw, none⟩,
     ⟨"off", 4, 4, .rw, none⟩]⟩]

/-- Registers of the Monitor page (spec/05_converters_and_window_monitors.md). -/
def regMonitorC : List RegRow :=
  [⟨"WM_SW_CTRL", 0x24C18, 21, 0x40, 1, 0x0, .T, 0x0, 0x0,
    [⟨"cmd", 0, 2, .rw, some [(1, 3)]⟩,
     ⟨"status", 8, 8, .ro, none⟩]⟩,
   ⟨"WM_SW_STAT", 0x24C1C, 21, 0x40, 1, 0x0, .V, 0x0, 0x0,
    [⟨"held", 0, 1, .ro, none⟩,
     ⟨"action", 1, 2, .ro, none⟩,
     ⟨"cause_kind", 4, 4, .ro, none⟩,
     ⟨"cause_index", 8, 8, .ro, none⟩,
     ⟨"count", 16, 16, .ro, none⟩]⟩,
   ⟨"WM_SW_TIME_LO", 0x24C20, 21, 0x40, 1, 0x0, .V, 0x0, 0x0,
    [⟨"time", 0, 32, .ro, none⟩]⟩,
   ⟨"WM_SW_TIME_HI", 0x24C24, 21, 0x40, 1, 0x0, .V, 0x0, 0x0,
    [⟨"time", 0, 32, .ro, none⟩]⟩]

/-- Registers of the Position page (spec/06_position_and_speed.md). -/
def regPositionA : List RegRow :=
  [⟨"PS_CFG", 0x28000, 6, 0x1000, 1, 0x0, .S, 0x212, 0x0,
    [⟨"enable", 0, 1, .rw, none⟩,
     ⟨"mode", 1, 3, .rw, some [(1, 5)]⟩,
     ⟨"input", 4, 2, .rw, some [(1, 2)]⟩,
     ⟨"invert", 6, 1, .rw, none⟩,
     ⟨"filt", 8, 4, .rw, none⟩]⟩,
   ⟨"PS_CPR", 0x28004, 6, 0x1000, 1, 0x0, .S, 0x1000, 0x0,
    [⟨"cpr", 0, 25, .rw, none⟩]⟩,
   ⟨"PS_IDX_CFG", 0x28008, 6, 0x1000, 1, 0x0, .S, 0x202, 0x0,
    [⟨"idx_en", 0, 1, .rw, none⟩,
     ⟨"gate", 1, 2, .rw, some [(1, 3)]⟩,
     ⟨"drift_tol", 8, 8, .rw, none⟩]⟩,
   ⟨"PS_ILL_CFG", 0x2800C, 6, 0x1000, 1, 0x0, .S, 0x6408, 0x0,
    [⟨"ill_limit", 0, 8, .rw, some [(1, 255)]⟩,
     ⟨"ill_window", 8, 16, .rw, some [(1, 65535)]⟩]⟩,
   ⟨"PS_HALL_CFG", 0x28010, 6, 0x1000, 1, 0x0, .S, 0x101, 0x0,
    [⟨"hall_pairs", 0, 6, .rw, some [(1, 63)]⟩,
     ⟨"rev", 6, 1, .rw, none⟩,
     ⟨"sec_pairs", 8, 6, .rw, some [(1, 63)]⟩,
     ⟨"sec_rev", 14, 1, .rw, none⟩]⟩,
   ⟨"PS_SSI_CFG", 0x28014, 6, 0x1000, 1, 0x0, .S, 0x36359, 0x0,
    [⟨"frame", 0, 6, .rw, some [(8, 40)]⟩,
     ⟨"st_bits", 6, 5, .rw, some [(8, 24)]⟩,
     ⟨"mt_bits", 11, 5, .rw, some [(0, 24)]⟩,
     ⟨"code", 16, 1, .rw, none⟩,
     ⟨"parity", 17, 2, .rw, some [(1, 3)]⟩,
     ⟨"err_en", 19, 1, .rw, none⟩,
     ⟨"err_pos", 20, 6, .rw, none⟩,
     ⟨"err_level", 26, 1, .rw, none⟩]⟩,
   ⟨"PS_SSI_TIM", 0x28018, 6, 0x1000, 1, 0x0, .S, 0xF00064, 0x0,
    [⟨"bit_time", 0, 11, .rw, some [(20, 2000)]⟩,
     ⟨"delay_comp", 11, 8, .rw, none⟩,
     ⟨"recovery", 19, 8, .rw, some [(1, 255)]⟩]⟩,
   ⟨"PS_SSI_RUN", 0x2801C, 6, 0x1000, 1, 0x0, .S, 0x3E802, 0x0,
    [⟨"start", 0, 2, .rw, some [(1, 2)]⟩,
     ⟨"trigger", 2, 6, .rw, some [(0, 47)]⟩,
     ⟨"period", 8, 16, .rw, some [(10, 65535)]⟩]⟩,
   ⟨"PS_JUMP", 0x28020, 6, 0x1000, 1, 0x0, .S, 0x1000, 0x0,
    [⟨"jump", 0, 24, .rw, some [(1, 16777215)]⟩]⟩,
   ⟨"PS_RES_CFG", 0x28024, 2, 0x1000, 1, 0x0, .S, 0x14641, 0x0,
    [⟨"res_pairs", 0, 4, .rw, some [(1, 8)]⟩,
     ⟨"freq", 4, 8, .rw, some [(40, 200)]⟩,
     ⟨"amp", 12, 6, .rw, some [(10, 40)]⟩,
     ⟨"demod_phase", 18, 8, .rw, none⟩]⟩,
   ⟨"PS_RES_CFG", 0x2A024, 4, 0x1000, 1, 0x0, .S, 0x0, 0x0,
    [⟨"absent", 0, 32, .rw, some []⟩]⟩,
   ⟨"PS_RES_AMP", 0x28028, 2, 0x1000, 1, 0x0, .S, 0xF040, 0x0,
    [⟨"amp_lo", 0, 8, .rw, none⟩,
     ⟨"amp_hi", 8, 8, .rw, none⟩]⟩]

/-- Registers of the Position page (spec/06_position_and_speed.md). -/
def regPositionB : List RegRow :=
  [⟨"PS_RES_AMP", 0x2A028, 4, 0x1000, 1, 0x0, .S, 0x0, 0x0,
    [⟨"absent", 0, 32, .rw, some []⟩]⟩,
   ⟨"PS_OBS_CFG", 0x2802C, 6, 0x1000, 1, 0x0, .S, 0x20020C8, 0x0,
    [⟨"bw", 0, 13, .rw, some [(10, 5000)]⟩,
     ⟨"pole_pairs", 13, 6, .rw, some [(1, 63)]⟩,
     ⟨"still", 19, 12, .rw, none⟩]⟩,
   ⟨"PS_OBS_LOCK", 0x28030, 6, 0x1000, 1, 0x0, .S, 0x10, 0x0,
    [⟨"lock_tol", 0, 16, .rw, some [(1, 65535)]⟩]⟩,
   ⟨"PS_LATCH_CFG", 0x28034, 6, 0x1000, 1, 0x0, .S, 0x0, 0x0,
    [⟨"enable", 0, 1, .rw, none⟩,
     ⟨"trigger", 1, 6, .rw, some [(0, 47)]⟩]⟩,
   ⟨"PS_OBS_EOFS", 0x28038, 6, 0x1000, 1, 0x0, .T, 0x0, 0x0,
    [⟨"offset", 0, 32, .rw, none⟩]⟩,
   ⟨"PS_CTRL", 0x2803C, 6, 0x1000, 1, 0x0, .T, 0x0, 0x0,
    [⟨"cmd", 0, 2, .rw, some [(1, 1)]⟩,
     ⟨"status", 8, 8, .ro, none⟩,
     ⟨"pending", 16, 1, .ro, none⟩]⟩,
   ⟨"PS_PRESET_LO", 0x28040, 6, 0x1000, 1, 0x0, .T, 0x0, 0x0,
    [⟨"value", 0, 32, .rw, none⟩]⟩,
   ⟨"PS_PRESET_HI", 0x28044, 6, 0x1000, 1, 0x0, .T, 0x0, 0x0,
    [⟨"value", 0, 32, .rw, none⟩]⟩,
   ⟨"PS_STAT", 0x28048, 6, 0x1000, 1, 0x0, .V, 0x0, 0x0,
    [⟨"running", 0, 1, .ro, none⟩,
     ⟨"locked", 1, 1, .ro, none⟩,
     ⟨"indexed", 2, 1, .ro, none⟩,
     ⟨"fenced", 3, 1, .ro, none⟩,
     ⟨"still", 4, 1, .ro, none⟩,
     ⟨"broken_live", 5, 1, .ro, none⟩,
     ⟨"illegal", 8, 1, .w1c, none⟩,
     ⟨"broken", 9, 1, .w1c, none⟩,
     ⟨"drift", 10, 1, .w1c, none⟩,
     ⟨"overrun", 11, 1, .w1c, none⟩,
     ⟨"hall", 16, 3, .ro, none⟩,
     ⟨"sec_hall", 19, 3, .ro, none⟩]⟩,
   ⟨"PS_ILL_CNT", 0x2804C, 6, 0x1000, 1, 0x0, .V, 0x0, 0x0,
    [⟨"total", 0, 16, .ro, none⟩,
     ⟨"window", 16, 8, .ro, none⟩]⟩,
   ⟨"PS_CNT_LO", 0x28050, 6, 0x1000, 1, 0x0, .V, 0x0, 0x0,
    [⟨"value", 0, 32, .ro, none⟩]⟩,
   ⟨"PS_CNT_HI", 0x28054, 6, 0x1000, 1, 0x0, .V, 0x0, 0x0,
    [⟨"value", 0, 32, .ro, none⟩]⟩]

/-- Registers of the Position page (spec/06_position_and_speed.md). -/
def regPositionC : List RegRow :=
  [⟨"PS_IDX_LO", 0x28058, 6, 0x1000, 1, 0x0, .V, 0x0, 0x0,
    [⟨"value", 0, 32, .ro, none⟩]⟩,
   ⟨"PS_IDX_HI", 0x2805C, 6, 0x1000, 1, 0x0, .V, 0x0, 0x0,
    [⟨"value", 0, 32, .ro, none⟩]⟩,
   ⟨"PS_IDX_TIME_LO", 0x28060, 6, 0x1000, 1, 0x0, .V, 0x0, 0x0,
    [⟨"value", 0, 32, .ro, none⟩]⟩,
   ⟨"PS_IDX_TIME_HI", 0x28064, 6, 0x1000, 1, 0x0, .V, 0x0, 0x0,
    [⟨"value", 0, 32, .ro, none⟩]⟩,
   ⟨"PS_EDGE_TIME_LO", 0x28068, 6, 0x1000, 1, 0x0, .V, 0x0, 0x0,
    [⟨"value", 0, 32, .ro, none⟩]⟩,
   ⟨"PS_EDGE_TIME_HI", 0x2806C, 6, 0x1000, 1, 0x0, .V, 0x0, 0x0,
    [⟨"value", 0, 32, .ro, none⟩]⟩,
   ⟨"PS_PERIOD", 0x28070, 6, 0x1000, 1, 0x0, .V, 0x0, 0x0,
    [⟨"value", 0, 32, .ro, none⟩]⟩,
   ⟨"PS_SEC_CNT", 0x28074, 6, 0x1000, 1, 0x0, .V, 0x0, 0x0,
    [⟨"value", 0, 32, .ro, none⟩]⟩,
   ⟨"PS_SEC_SPEED", 0x28078, 6, 0x1000, 1, 0x0, .V, 0x0, 0x0,
    [⟨"value", 0, 32, .ro, none⟩]⟩,
   ⟨"PS_RES_ENV", 0x2807C, 2, 0x1000, 1, 0x0, .V, 0x0, 0x0,
    [⟨"sine", 0, 16, .ro, none⟩,
     ⟨"cosine", 16, 16, .ro, none⟩]⟩,
   ⟨"PS_RES_ENV", 0x2A07C, 4, 0x1000, 1, 0x0, .V, 0x0, 0x0,
    [⟨"absent", 0, 32, .rw, some []⟩]⟩,
   ⟨"PS_RES_MEAS", 0x28080, 2, 0x1000, 1, 0x0, .V, 0x0, 0x0,
    [⟨"amplitude", 0, 8, .ro, none⟩,
     ⟨"exc_phase", 8, 8, .ro, none⟩]⟩]

/-- Registers of the Position page (spec/06_position_and_speed.md). -/
def regPositionD : List RegRow :=
  [⟨"PS_RES_MEAS", 0x2A080, 4, 0x1000, 1, 0x0, .V, 0x0, 0x0,
    [⟨"absent", 0, 32, .rw, some []⟩]⟩,
   ⟨"PS_SSI_RAW_LO", 0x28084, 6, 0x1000, 1, 0x0, .V, 0x0, 0x0,
    [⟨"bits", 0, 32, .ro, none⟩]⟩,
   ⟨"PS_SSI_RAW_HI", 0x28088, 6, 0x1000, 1, 0x0, .V, 0x0, 0x0,
    [⟨"bits", 0, 32, .ro, none⟩]⟩,
   ⟨"PS_OBS_POS_LO", 0x28090, 6, 0x1000, 1, 0x0, .V, 0x0, 0x0,
    [⟨"value", 0, 32, .ro, none⟩]⟩,
   ⟨"PS_OBS_POS_HI", 0x28094, 6, 0x1000, 1, 0x0, .V, 0x0, 0x0,
    [⟨"value", 0, 32, .ro, none⟩]⟩,
   ⟨"PS_OBS_ANGLE", 0x28098, 6, 0x1000, 1, 0x0, .V, 0x0, 0x0,
    [⟨"value", 0, 32, .ro, none⟩]⟩,
   ⟨"PS_OBS_EANGLE", 0x2809C, 6, 0x1000, 1, 0x0, .V, 0x0, 0x0,
    [⟨"value", 0, 32, .ro, none⟩]⟩,
   ⟨"PS_OBS_SPEED", 0x280A0, 6, 0x1000, 1, 0x0, .V, 0x0, 0x0,
    [⟨"value", 0, 32, .ro, none⟩]⟩,
   ⟨"PS_OBS_ACCEL", 0x280A4, 6, 0x1000, 1, 0x0, .V, 0x0, 0x0,
    [⟨"value", 0, 32, .ro, none⟩]⟩,
   ⟨"PS_OBS_ERR", 0x280A8, 6, 0x1000, 1, 0x0, .V, 0x0, 0x0,
    [⟨"value", 0, 32, .ro, none⟩]⟩,
   ⟨"PS_LAT_ANGLE", 0x280B0, 6, 0x1000, 1, 0x0, .V, 0x0, 0x0,
    [⟨"value", 0, 32, .ro, none⟩]⟩,
   ⟨"PS_LAT_EANGLE", 0x280B4, 6, 0x1000, 1, 0x0, .V, 0x0, 0x0,
    [⟨"value", 0, 32, .ro, none⟩]⟩]

/-- Registers of the Position page (spec/06_position_and_speed.md). -/
def regPositionE : List RegRow :=
  [⟨"PS_LAT_SPEED", 0x280B8, 6, 0x1000, 1, 0x0, .V, 0x0, 0x0,
    [⟨"value", 0, 32, .ro, none⟩]⟩,
   ⟨"PS_LAT_INFO", 0x280BC, 6, 0x1000, 1, 0x0, .V, 0x0, 0x0,
    [⟨"valid", 0, 1, .ro, none⟩,
     ⟨"locked", 1, 1, .ro, none⟩,
     ⟨"fenced", 2, 1, .ro, none⟩,
     ⟨"illegal", 3, 1, .ro, none⟩,
     ⟨"broken", 4, 1, .ro, none⟩,
     ⟨"update", 16, 16, .ro, none⟩]⟩,
   ⟨"PS_LAT_STAMP_LO", 0x280C0, 6, 0x1000, 1, 0x0, .V, 0x0, 0x0,
    [⟨"time", 0, 32, .ro, none⟩]⟩,
   ⟨"PS_LAT_STAMP_HI", 0x280C4, 6, 0x1000, 1, 0x0, .V, 0x0, 0x0,
    [⟨"time", 0, 32, .ro, none⟩]⟩,
   ⟨"PS_CMP_CFG", 0x28100, 6, 0x1000, 2, 0x20, .S, 0x6, 0x0,
    [⟨"enable", 0, 1, .rw, none⟩,
     ⟨"dir", 1, 2, .rw, some [(1, 3)]⟩,
     ⟨"once", 3, 1, .rw, none⟩]⟩,
   ⟨"PS_CMP_LO", 0x28104, 6, 0x1000, 2, 0x20, .T, 0x0, 0x0,
    [⟨"value", 0, 32, .rw, none⟩]⟩,
   ⟨"PS_CMP_HI", 0x28108, 6, 0x1000, 2, 0x20, .T, 0x0, 0x0,
    [⟨"value", 0, 32, .rw, none⟩]⟩,
   ⟨"PS_CMP_STAT", 0x2810C, 6, 0x1000, 2, 0x20, .V, 0x0, 0x0,
    [⟨"armed", 0, 1, .ro, none⟩,
     ⟨"fired", 1, 1, .w1c, none⟩,
     ⟨"behind", 2, 1, .w1c, none⟩,
     ⟨"status", 8, 8, .ro, none⟩,
     ⟨"count", 16, 16, .ro, none⟩]⟩,
   ⟨"PS_CMP_TIME_LO", 0x28110, 6, 0x1000, 2, 0x20, .V, 0x0, 0x0,
    [⟨"time", 0, 32, .ro, none⟩]⟩,
   ⟨"PS_CMP_TIME_HI", 0x28114, 6, 0x1000, 2, 0x20, .V, 0x0, 0x0,
    [⟨"time", 0, 32, .ro, none⟩]⟩,
   ⟨"EP_CFG", 0x2E000, 2, 0x800, 1, 0x0, .S, 0x4000, 0x0,
    [⟨"enable", 0, 1, .rw, none⟩,
     ⟨"source", 1, 3, .rw, some [(0, 5)]⟩,
     ⟨"lines", 4, 17, .rw, some [(1, 65536)]⟩,
     ⟨"invert", 21, 1, .rw, none⟩]⟩,
   ⟨"EP_LIM", 0x2E004, 2, 0x800, 1, 0x0, .S, 0x10320, 0x0,
    [⟨"rate", 0, 10, .rw, some [(1, 800)]⟩,
     ⟨"lag_limit", 10, 16, .rw, some [(1, 65535)]⟩]⟩]

/-- Registers of the Position page (spec/06_position_and_speed.md). -/
def regPositionF : List RegRow :=
  [⟨"EP_OFFS", 0x2E008, 2, 0x800, 1, 0x0, .S, 0x0, 0x0,
    [⟨"offset", 0, 32, .rw, none⟩]⟩,
   ⟨"EP_STAT", 0x2E00C, 2, 0x800, 1, 0x0, .V, 0x0, 0x0,
    [⟨"running", 0, 1, .ro, none⟩,
     ⟨"src_lost", 1, 1, .ro, none⟩,
     ⟨"lag", 2, 1, .w1c, none⟩,
     ⟨"limited", 3, 1, .ro, none⟩,
     ⟨"lag_cnt", 16, 16, .ro, none⟩]⟩,
   ⟨"EP_CNT_LO", 0x2E010, 2, 0x800, 1, 0x0, .V, 0x0, 0x0,
    [⟨"value", 0, 32, .ro, none⟩]⟩,
   ⟨"EP_CNT_HI", 0x2E014, 2, 0x800, 1, 0x0, .V, 0x0, 0x0,
    [⟨"value", 0, 32, .ro, none⟩]⟩,
   ⟨"EP_LAG", 0x2E018, 2, 0x800, 1, 0x0, .V, 0x0, 0x0,
    [⟨"value", 0, 32, .ro, none⟩]⟩]

/-- Registers of the Engine page (spec/07_balance_engines.md). -/
def regEngineA : List RegRow :=
  [⟨"BE_ENG_STAT", 0x30000, 12, 0x1000, 1, 0x0, .V, 0x1, 0x0,
    [⟨"state", 0, 3, .ro, none⟩,
     ⟨"spare", 3, 1, .ro, none⟩,
     ⟨"loop", 4, 6, .ro, none⟩,
     ⟨"loops", 10, 4, .ro, none⟩,
     ⟨"fenced_writes", 16, 16, .ro, none⟩]⟩,
   ⟨"BE_ENG_LOOPS_LO", 0x30004, 12, 0x1000, 1, 0x0, .V, 0x0, 0x0,
    [⟨"mask", 0, 32, .ro, none⟩]⟩,
   ⟨"BE_ENG_LOOPS_HI", 0x30008, 12, 0x1000, 1, 0x0, .V, 0x0, 0x0,
    [⟨"mask", 0, 32, .ro, none⟩]⟩,
   ⟨"BE_ENG_RUNS", 0x3000C, 12, 0x1000, 1, 0x0, .V, 0x0, 0x0,
    [⟨"count", 0, 32, .ro, none⟩]⟩,
   ⟨"BE_ENG_DEAD", 0x30010, 12, 0x1000, 1, 0x0, .V, 0x0, 0x0,
    [⟨"cause", 0, 4, .ro, none⟩,
     ⟨"loop", 4, 6, .ro, none⟩,
     ⟨"op", 10, 9, .ro, none⟩]⟩,
   ⟨"BE_ENG_DEAD_TIME_LO", 0x30014, 12, 0x1000, 1, 0x0, .V, 0x0, 0x0,
    [⟨"time", 0, 32, .ro, none⟩]⟩,
   ⟨"BE_ENG_DEAD_TIME_HI", 0x30018, 12, 0x1000, 1, 0x0, .V, 0x0, 0x0,
    [⟨"time", 0, 32, .ro, none⟩]⟩,
   ⟨"BE_LP_CFG", 0x3C000, 64, 0x40, 1, 0x0, .S, 0x1100000, 0x0,
    [⟨"enable", 0, 1, .rw, none⟩,
     ⟨"role", 1, 1, .rw, none⟩,
     ⟨"home", 2, 5, .rw, some [(0, 20)]⟩,
     ⟨"link", 7, 5, .rw, some [(0, 20)]⟩,
     ⟨"link_en", 12, 1, .rw, none⟩,
     ⟨"engine", 13, 4, .rw, some [(0, 11)]⟩,
     ⟨"prio", 17, 3, .rw, none⟩,
     ⟨"miss_limit", 20, 4, .rw, some [(1, 15)]⟩,
     ⟨"div", 24, 8, .rw, some [(1, 255)]⟩]⟩,
   ⟨"BE_LP_IN", 0x3C004, 64, 0x40, 1, 0x0, .S, 0x0, 0x0,
    [⟨"sh_a", 0, 1, .rw, none⟩,
     ⟨"sh_b", 1, 1, .rw, none⟩,
     ⟨"hk", 2, 1, .rw, none⟩,
     ⟨"lat", 3, 1, .rw, none⟩,
     ⟨"lat_port", 4, 3, .rw, some [(0, 5)]⟩,
     ⟨"start_limit", 8, 20, .rw, none⟩]⟩,
   ⟨"BE_LP_PROG", 0x3C008, 64, 0x40, 1, 0x0, .S, 0x12801, 0x0,
    [⟨"length", 0, 10, .rw, some [(1, 512)]⟩,
     ⟨"slack_win", 10, 4, .rw, none⟩,
     ⟨"wcet", 16, 16, .rw, some [(1, 65535)]⟩]⟩,
   ⟨"BE_LP_TEL", 0x3C00C, 64, 0x40, 1, 0x0, .S, 0x4, 0x0,
    [⟨"enable", 0, 1, .rw, none⟩,
     ⟨"queue_pair", 1, 6, .rw, some [(2, 63)]⟩]⟩,
   ⟨"BE_LP_BANK", 0x3C010, 64, 0x40, 1, 0x0, .S, 0x0, 0x0,
    [⟨"base", 0, 21, .rw, none⟩]⟩]

/-- Registers of the Engine page (spec/07_balance_engines.md). -/
def regEngineB : List RegRow :=
  [⟨"BE_LP_SWAP", 0x3C014, 64, 0x40, 1, 0x0, .T, 0x0, 0x0,
    [⟨"bank", 0, 1, .rw, none⟩,
     ⟨"active", 1, 1, .ro, none⟩,
     ⟨"pending", 2, 1, .ro, none⟩,
     ⟨"status", 8, 8, .ro, none⟩]⟩,
   ⟨"BE_LP_STAT", 0x3C018, 64, 0x40, 1, 0x0, .V, 0x5, 0x0,
    [⟨"state", 0, 3, .ro, none⟩,
     ⟨"engine", 3, 4, .ro, none⟩,
     ⟨"consec", 7, 4, .ro, none⟩,
     ⟨"update", 16, 16, .ro, none⟩]⟩,
   ⟨"BE_LP_FLAGS", 0x3C01C, 64, 0x40, 1, 0x0, .V, 0x0, 0x0,
    [⟨"sat", 0, 1, .w1c, none⟩,
     ⟨"window_short", 1, 1, .w1c, none⟩,
     ⟨"plaus", 2, 1, .w1c, none⟩,
     ⟨"swap_clamp", 3, 1, .w1c, none⟩,
     ⟨"input_late", 4, 1, .w1c, none⟩,
     ⟨"deadline", 5, 1, .w1c, none⟩]⟩,
   ⟨"BE_LP_MISS", 0x3C020, 64, 0x40, 1, 0x0, .V, 0x0, 0x0,
    [⟨"misses", 0, 16, .ro, none⟩,
     ⟨"input_late", 16, 16, .ro, none⟩]⟩,
   ⟨"BE_LP_SLACK", 0x3C024, 64, 0x40, 1, 0x0, .V, 0x0, 0x0,
    [⟨"last", 0, 16, .ro, none⟩,
     ⟨"win_min", 16, 16, .ro, none⟩]⟩,
   ⟨"BE_LP_SLACK_MIN", 0x3C028, 64, 0x40, 1, 0x0, .H, 0x7FFF, 0x0,
    [⟨"min", 0, 16, .ro, none⟩,
     ⟨"restart", 31, 1, .w1s, none⟩]⟩,
   ⟨"BE_LP_DUR", 0x3C02C, 64, 0x40, 1, 0x0, .V, 0x0, 0x0,
    [⟨"last", 0, 16, .ro, none⟩,
     ⟨"max", 16, 16, .ro, none⟩]⟩,
   ⟨"BE_LP_DONE_LO", 0x3C030, 64, 0x40, 1, 0x0, .V, 0x0, 0x0,
    [⟨"count", 0, 32, .ro, none⟩]⟩,
   ⟨"BE_LP_DONE_HI", 0x3C034, 64, 0x40, 1, 0x0, .V, 0x0, 0x0,
    [⟨"count", 0, 32, .ro, none⟩]⟩,
   ⟨"BE_POOL_CFG", 0x3F000, 1, 0x0, 1, 0x0, .S, 0x40000, 0x0,
    [⟨"spares", 0, 12, .rw, none⟩,
     ⟨"stall_limit", 16, 8, .rw, some [(1, 255)]⟩]⟩,
   ⟨"BE_POOL_CTRL", 0x3F004, 1, 0x0, 1, 0x0, .T, 0x0, 0x0,
    [⟨"cmd", 0, 2, .rw, some [(1, 1)]⟩,
     ⟨"engine", 4, 4, .rw, some [(0, 11)]⟩,
     ⟨"status", 8, 8, .ro, none⟩]⟩,
   ⟨"BE_POOL_STAT", 0x3F008, 1, 0x0, 1, 0x0, .V, 0x0, 0x0,
    [⟨"fenced", 0, 12, .ro, none⟩,
     ⟨"free", 12, 12, .ro, none⟩,
     ⟨"takeovers", 24, 8, .ro, none⟩]⟩]

/-- Registers of the Engine page (spec/07_balance_engines.md). -/
def regEngineC : List RegRow :=
  [⟨"BE_POOL_CHECK", 0x3F00C, 1, 0x0, 1, 0x0, .V, 0x0, 0x0,
    [⟨"loop", 0, 6, .ro, none⟩,
     ⟨"reason", 8, 4, .ro, none⟩,
     ⟨"valid", 31, 1, .ro, none⟩]⟩,
   ⟨"BE_LT_PAGE", 0x3F010, 3, 0x4, 1, 0x0, .H, 0x0, 0x0,
    [⟨"page", 0, 2, .rw, some [(0, 2)]⟩]⟩,
   ⟨"BE_POOL_ADMIT", 0x3F020, 1, 0x0, 1, 0x0, .V, 0x0, 0x0,
    [⟨"engine", 0, 4, .ro, none⟩,
     ⟨"busy", 4, 1, .ro, none⟩,
     ⟨"status", 8, 8, .ro, none⟩]⟩]

/-- Registers of the Safety page (spec/09_traction.md). -/
def regSafetyA : List RegRow :=
  [⟨"SC_TM_CFG", 0x83000, 2, 0x100, 1, 0x0, .S, 0x1200, 0x0,
    [⟨"enable", 0, 1, .rw, none⟩,
     ⟨"sets", 1, 4, .rw, none⟩,
     ⟨"pos_port", 5, 3, .rw, some [(0, 5)]⟩,
     ⟨"sensorless", 8, 1, .rw, none⟩,
     ⟨"min_sets", 9, 3, .rw, some [(1, 4)]⟩,
     ⟨"pole_pairs", 12, 6, .rw, some [(1, 63)]⟩,
     ⟨"fusee_loop", 18, 6, .rw, none⟩,
     ⟨"fusee_en", 24, 1, .rw, none⟩]⟩,
   ⟨"SC_TM_KE", 0x83004, 2, 0x100, 1, 0x0, .S, 0x10000, 0x0,
    [⟨"ke", 0, 32, .rw, some [(1, 2147483647)]⟩]⟩,
   ⟨"SC_TM_VMAX", 0x83008, 2, 0x100, 1, 0x0, .S, 0x3E80000, 0x0,
    [⟨"vmax", 0, 32, .rw, some [(65536, 65536000)]⟩]⟩,
   ⟨"SC_TM_CATCH", 0x8300C, 2, 0x100, 1, 0x0, .S, 0x0, 0x0,
    [⟨"limit", 0, 32, .rw, some [(0, 2147483647)]⟩]⟩,
   ⟨"SC_TM_REENGAGE", 0x83010, 2, 0x100, 1, 0x0, .S, 0x0, 0x0,
    [⟨"speed", 0, 32, .rw, some [(0, 2147483647)]⟩]⟩,
   ⟨"SC_TM_TIMES", 0x83014, 2, 0x100, 1, 0x0, .S, 0xA0414, 0x0,
    [⟨"catch_time", 0, 8, .rw, some [(1, 255)]⟩,
     ⟨"catch_hold", 8, 8, .rw, some [(1, 255)]⟩,
     ⟨"precharge", 16, 8, .rw, some [(1, 255)]⟩]⟩,
   ⟨"SC_TM_SETSTEP", 0x83018, 2, 0x100, 1, 0x0, .S, 0xAAAAAAB, 0x0,
    [⟨"step", 0, 32, .rw, some [(0, 1073741823)]⟩]⟩,
   ⟨"SC_TM_EFANG", 0x8301C, 2, 0x100, 1, 0x0, .S, 0x0, 0x0,
    [⟨"angle", 0, 32, .rw, none⟩]⟩,
   ⟨"SC_TM_STAT", 0x83020, 2, 0x100, 1, 0x0, .V, 0x1, 0x0,
    [⟨"state", 0, 4, .ro, none⟩,
     ⟨"active", 4, 4, .ro, none⟩,
     ⟨"lost", 8, 4, .ro, none⟩,
     ⟨"ucg", 12, 1, .ro, none⟩,
     ⟨"fresh", 13, 1, .ro, none⟩,
     ⟨"last_status", 16, 8, .ro, none⟩,
     ⟨"token", 24, 8, .ro, none⟩]⟩,
   ⟨"SC_TM_SPEED", 0x83024, 2, 0x100, 1, 0x0, .V, 0x0, 0x0,
    [⟨"speed", 0, 32, .ro, none⟩]⟩,
   ⟨"SC_TM_CNT", 0x83028, 2, 0x100, 1, 0x0, .V, 0x0, 0x0,
    [⟨"catches", 0, 8, .ro, none⟩,
     ⟨"refusals", 8, 8, .ro, none⟩,
     ⟨"losses", 16, 8, .ro, none⟩,
     ⟨"ucg", 24, 8, .ro, none⟩]⟩,
   ⟨"SC_CH_CFG", 0x83200, 1, 0x0, 1, 0x0, .S, 0x0, 0x0,
    [⟨"enable", 0, 1, .rw, none⟩,
     ⟨"export_en", 1, 1, .rw, none⟩,
     ⟨"vent_ok", 2, 1, .rw, none⟩,
     ⟨"grid_x", 8, 8, .rw, some [(0, 253)]⟩]⟩]

/-- Registers of the Safety page (spec/10_charging_and_conversion.md). -/
def regSafetyB : List RegRow :=
  [⟨"SC_CH_IN", 0x83204, 1, 0x0, 1, 0x0, .S, 0x0, 0x0,
    [⟨"pilot_wm", 0, 5, .rw, some [(0, 23)]⟩,
     ⟨"pp_wm", 5, 5, .rw, some [(0, 23)]⟩,
     ⟨"cp_conv", 10, 3, .rw, some [(0, 5)]⟩,
     ⟨"cp_entry", 13, 4, .rw, none⟩,
     ⟨"pp_conv", 17, 3, .rw, some [(0, 5)]⟩,
     ⟨"pp_entry", 20, 4, .rw, none⟩]⟩,
   ⟨"SC_CH_PP", 0x83208, 1, 0x0, 1, 0x0, .S, 0x1F414A, 0x0,
    [⟨"r_pull", 0, 12, .rw, some [(1, 4095)]⟩,
     ⟨"v_pull", 12, 10, .rw, some [(100, 1023)]⟩]⟩,
   ⟨"SC_CH_LIM", 0x8320C, 1, 0x0, 1, 0x0, .S, 0x14321E10, 0x0,
    [⟨"imax", 0, 8, .rw, some [(6, 80)]⟩,
     ⟨"c_wait", 8, 8, .rw, some [(1, 255)]⟩,
     ⟨"grid_wait", 16, 8, .rw, some [(1, 255)]⟩,
     ⟨"stop_time", 24, 8, .rw, some [(1, 255)]⟩]⟩,
   ⟨"SC_CH_GRID", 0x83210, 1, 0x0, 1, 0x0, .S, 0x6ABDB8B4, 0x0,
    [⟨"v_lo", 0, 9, .rw, none⟩,
     ⟨"v_hi", 9, 9, .rw, none⟩,
     ⟨"f_lo", 18, 7, .rw, some [(30, 70)]⟩,
     ⟨"f_hi", 25, 7, .rw, some [(30, 70)]⟩]⟩,
   ⟨"SC_CH_BUS", 0x83214, 1, 0x0, 1, 0x0, .S, 0x32642EE, 0x0,
    [⟨"bus_target", 0, 10, .rw, some [(400, 1000)]⟩,
     ⟨"v_export", 10, 10, .rw, some [(100, 480)]⟩,
     ⟨"f_export", 20, 7, .rw, some [(40, 70)]⟩]⟩,
   ⟨"SC_CH_PMAX", 0x83218, 1, 0x0, 1, 0x0, .S, 0xA0000, 0x0,
    [⟨"pmax", 0, 32, .rw, some [(1, 65536000)]⟩]⟩,
   ⟨"SC_CH_STAT", 0x83220, 1, 0x0, 1, 0x0, .V, 0x1, 0x0,
    [⟨"state", 0, 4, .ro, none⟩,
     ⟨"cp", 4, 4, .ro, none⟩,
     ⟨"cable", 8, 4, .ro, none⟩,
     ⟨"active", 12, 4, .ro, none⟩,
     ⟨"last_status", 16, 8, .ro, none⟩,
     ⟨"i_allow", 24, 8, .ro, none⟩]⟩,
   ⟨"SC_CH_PILOT", 0x83224, 1, 0x0, 1, 0x0, .V, 0x0, 0x0,
    [⟨"duty", 0, 10, .ro, none⟩,
     ⟨"osc", 10, 1, .ro, none⟩,
     ⟨"high", 16, 8, .ro, none⟩,
     ⟨"low", 24, 8, .ro, none⟩]⟩,
   ⟨"SC_CH_PP_OHM", 0x83228, 1, 0x0, 1, 0x0, .V, 0xFFFF, 0x0,
    [⟨"ohm", 0, 16, .ro, none⟩]⟩,
   ⟨"SC_LV_CFG", 0x83300, 1, 0x0, 1, 0x0, .S, 0xA3200, 0x0,
    [⟨"enable", 0, 1, .rw, none⟩,
     ⟨"out_conv", 1, 3, .rw, some [(0, 5)]⟩,
     ⟨"out_entry", 4, 4, .rw, none⟩,
     ⟨"start_time", 8, 8, .rw, some [(1, 255)]⟩,
     ⟨"v_tol", 16, 8, .rw, some [(1, 255)]⟩]⟩,
   ⟨"SC_LV_VRANGE", 0x83304, 1, 0x0, 1, 0x0, .S, 0x15E007D0, 0x0,
    [⟨"v_min", 0, 16, .rw, none⟩,
     ⟨"v_max", 16, 16, .rw, some [(0, 6000)]⟩]⟩,
   ⟨"SC_LV_STAT", 0x83308, 1, 0x0, 1, 0x0, .V, 0x1, 0x0,
    [⟨"state", 0, 4, .ro, none⟩,
     ⟨"active", 4, 2, .ro, none⟩,
     ⟨"last_status", 8, 8, .ro, none⟩]⟩]

/-- Registers of the Safety page (spec/11_actuators.md). -/
def regSafetyC : List RegRow :=
  [⟨"SC_DR_CFG", 0x83400, 6, 0x40, 1, 0x0, .S, 0x0, 0x0,
    [⟨"enable", 0, 1, .rw, none⟩,
     ⟨"pos_port", 1, 3, .rw, some [(0, 5)]⟩,
     ⟨"secondary", 4, 1, .rw, none⟩,
     ⟨"done_x", 11, 8, .rw, none⟩]⟩,
   ⟨"SC_DR_SPD", 0x83404, 6, 0x40, 1, 0x0, .S, 0x0, 0x0,
    [⟨"catch", 0, 16, .rw, none⟩,
     ⟨"reengage", 16, 16, .rw, none⟩]⟩,
   ⟨"SC_DR_TIMES", 0x83408, 6, 0x40, 1, 0x0, .S, 0x1464, 0x0,
    [⟨"move_time", 0, 8, .rw, some [(1, 255)]⟩,
     ⟨"lock_wait", 8, 8, .rw, some [(1, 255)]⟩]⟩,
   ⟨"SC_DR_STAT", 0x8340C, 6, 0x40, 1, 0x0, .V, 0x1, 0x0,
    [⟨"state", 0, 4, .ro, none⟩,
     ⟨"last_status", 8, 8, .ro, none⟩,
     ⟨"token", 16, 8, .ro, none⟩]⟩,
   ⟨"SC_DR_SPEED", 0x83410, 6, 0x40, 1, 0x0, .V, 0x0, 0x0,
    [⟨"speed", 0, 32, .ro, none⟩]⟩,
   ⟨"SC_STAT", 0x80000, 1, 0x0, 1, 0x0, .V, 0x1, 0x0,
    [⟨"mode", 0, 3, .ro, none⟩,
     ⟨"fw_ready", 3, 1, .ro, none⟩,
     ⟨"grace", 4, 1, .ro, none⟩,
     ⟨"fenced_a", 5, 1, .ro, none⟩,
     ⟨"fenced_b", 6, 1, .ro, none⟩,
     ⟨"fenced_chk", 7, 1, .ro, none⟩,
     ⟨"grace_left", 16, 16, .ro, none⟩]⟩,
   ⟨"SC_CFG", 0x80004, 1, 0x0, 1, 0x0, .S, 0x8F01064, 0x0,
    [⟨"grace", 0, 10, .rw, some [(1, 600)]⟩,
     ⟨"trans_limit", 10, 8, .rw, some [(1, 255)]⟩,
     ⟨"trans_period", 18, 8, .rw, some [(1, 255)]⟩,
     ⟨"agree_retries", 26, 2, .rw, some [(1, 3)]⟩]⟩,
   ⟨"SC_CNT", 0x80008, 1, 0x0, 1, 0x0, .V, 0x0, 0x0,
    [⟨"transients", 0, 8, .ro, none⟩,
     ⟨"period_trans", 8, 8, .ro, none⟩,
     ⟨"rollbacks", 16, 8, .ro, none⟩,
     ⟨"outvoted", 24, 8, .ro, none⟩]⟩,
   ⟨"SC_LAST", 0x8000C, 1, 0x0, 1, 0x0, .V, 0x0, 0x0,
    [⟨"cause", 0, 4, .ro, none⟩,
     ⟨"outcome", 4, 4, .ro, none⟩,
     ⟨"bist_a_fail", 8, 1, .ro, none⟩,
     ⟨"bist_b_fail", 9, 1, .ro, none⟩,
     ⟨"window", 16, 16, .ro, none⟩]⟩,
   ⟨"SC_LAST_TIME_LO", 0x80010, 1, 0x0, 1, 0x0, .V, 0x0, 0x0,
    [⟨"time", 0, 32, .ro, none⟩]⟩,
   ⟨"SC_LAST_TIME_HI", 0x80014, 1, 0x0, 1, 0x0, .V, 0x0, 0x0,
    [⟨"time", 0, 32, .ro, none⟩]⟩,
   ⟨"SC_WINDOWS_LO", 0x80018, 1, 0x0, 1, 0x0, .V, 0x0, 0x0,
    [⟨"count", 0, 32, .ro, none⟩]⟩]

/-- Registers of the Safety page (spec/12_safety_controller.md). -/
def regSafetyD : List RegRow :=
  [⟨"SC_WINDOWS_HI", 0x8001C, 1, 0x0, 1, 0x0, .V, 0x0, 0x0,
    [⟨"count", 0, 32, .ro, none⟩]⟩,
   ⟨"SC_BOOT_TEST", 0x80020, 1, 0x0, 1, 0x0, .V, 0x0, 0x0,
    [⟨"step", 0, 7, .ro, none⟩,
     ⟨"done", 7, 1, .ro, none⟩,
     ⟨"pass", 8, 1, .ro, none⟩]⟩,
   ⟨"SC_AGREE", 0x80024, 1, 0x0, 1, 0x0, .V, 0x0, 0x0,
    [⟨"joint", 0, 16, .ro, none⟩,
     ⟨"agreed", 16, 16, .ro, none⟩]⟩,
   ⟨"SC_WDOG_CFG", 0x80028, 1, 0x0, 1, 0x0, .S, 0x10A, 0x0,
    [⟨"period", 0, 8, .rw, some [(1, 255)]⟩,
     ⟨"enable", 8, 1, .rw, none⟩]⟩,
   ⟨"SC_WDOG", 0x8002C, 1, 0x0, 1, 0x0, .T, 0x0, 0x0,
    [⟨"value", 0, 16, .rw, none⟩]⟩,
   ⟨"SC_FW", 0x80030, 1, 0x0, 1, 0x0, .T, 0x0, 0x0,
    [⟨"ready", 0, 1, .w1s, none⟩]⟩,
   ⟨"SC_VAL_CFG", 0x80100, 1, 0x0, 1, 0x0, .S, 0x1F4, 0x0,
    [⟨"val_time", 0, 14, .rw, some [(200, 10000)]⟩]⟩,
   ⟨"SC_VQ_STAT", 0x80104, 1, 0x0, 1, 0x0, .V, 0x0, 0x0,
    [⟨"depth", 0, 7, .ro, none⟩,
     ⟨"head_valid", 7, 1, .ro, none⟩,
     ⟨"seq", 8, 16, .ro, none⟩,
     ⟨"opcode", 24, 8, .ro, none⟩]⟩,
   ⟨"SC_VQ_SRC", 0x80108, 1, 0x0, 1, 0x0, .V, 0x0, 0x0,
    [⟨"queue_pair", 0, 6, .ro, none⟩,
     ⟨"left", 16, 14, .ro, none⟩]⟩,
   ⟨"SC_VQ_ARRIVE_LO", 0x8010C, 1, 0x0, 1, 0x0, .V, 0x0, 0x0,
    [⟨"time", 0, 32, .ro, none⟩]⟩,
   ⟨"SC_VQ_ARRIVE_HI", 0x80110, 1, 0x0, 1, 0x0, .V, 0x0, 0x0,
    [⟨"time", 0, 32, .ro, none⟩]⟩,
   ⟨"SC_VQ_DESC", 0x80120, 8, 0x4, 1, 0x0, .V, 0x0, 0x0,
    [⟨"word", 0, 32, .ro, none⟩]⟩]

/-- Registers of the Safety page (spec/12_safety_controller.md). -/
def regSafetyE : List RegRow :=
  [⟨"SC_VQ_VERDICT", 0x80140, 1, 0x0, 1, 0x0, .T, 0x0, 0x0,
    [⟨"verdict", 0, 2, .rw, some [(1, 2)]⟩,
     ⟨"reason", 4, 12, .rw, none⟩,
     ⟨"seq", 16, 16, .rw, none⟩]⟩,
   ⟨"SC_VAL_CNT", 0x80144, 1, 0x0, 1, 0x0, .V, 0x0, 0x0,
    [⟨"accepted", 0, 16, .ro, none⟩,
     ⟨"refused", 16, 8, .ro, none⟩,
     ⟨"expired", 24, 8, .ro, none⟩]⟩,
   ⟨"SC_ABS_CFG", 0x80200, 21, 0x10, 1, 0x0, .S, 0x501F42, 0x0,
    [⟨"enable", 0, 1, .rw, none⟩,
     ⟨"action", 1, 2, .rw, some [(1, 3)]⟩,
     ⟨"timeout", 3, 16, .rw, some [(1, 65535)]⟩,
     ⟨"resp_time", 19, 8, .rw, some [(1, 255)]⟩]⟩,
   ⟨"SC_ABS_CTRL", 0x80204, 21, 0x10, 1, 0x0, .T, 0x0, 0x0,
    [⟨"cmd", 0, 2, .rw, some [(1, 3)]⟩,
     ⟨"status", 8, 8, .ro, none⟩]⟩,
   ⟨"SC_ABS_LEFT", 0x80208, 21, 0x10, 1, 0x0, .V, 0x0, 0x0,
    [⟨"left", 0, 16, .ro, none⟩,
     ⟨"expired", 16, 1, .ro, none⟩,
     ⟨"awaiting", 17, 1, .ro, none⟩]⟩,
   ⟨"SC_ABS_STAT", 0x80400, 1, 0x0, 1, 0x0, .V, 0x0, 0x0,
    [⟨"expired", 0, 21, .ro, none⟩]⟩]

/-- Registers of the Bank page (spec/13_memory_banks.md). -/
def regBankA : List RegRow :=
  [⟨"MB_BANK_CFG", 0x84000, 1, 0x4, 1, 0x0, .S, 0x1, 0x0,
    [⟨"owner", 0, 3, .rw, some [(0, 6)]⟩]⟩,
   ⟨"MB_BANK_CFG", 0x84004, 14, 0x4, 1, 0x0, .S, 0x0, 0x0,
    [⟨"owner", 0, 3, .rw, some [(0, 6)]⟩]⟩,
   ⟨"MB_BANK_CFG", 0x8403C, 1, 0x4, 1, 0x0, .S, 0x4, 0x0,
    [⟨"owner", 0, 3, .rw, some [(0, 6)]⟩]⟩,
   ⟨"MB_BANK_CTRL", 0x84040, 1, 0x4, 1, 0x0, .T, 0x1, 0x0,
    [⟨"owner", 0, 3, .rw, some [(0, 6)]⟩,
     ⟨"draining", 8, 1, .ro, none⟩,
     ⟨"status", 16, 8, .ro, none⟩]⟩,
   ⟨"MB_BANK_CTRL", 0x84044, 14, 0x4, 1, 0x0, .T, 0x0, 0x0,
    [⟨"owner", 0, 3, .rw, some [(0, 6)]⟩,
     ⟨"draining", 8, 1, .ro, none⟩,
     ⟨"status", 16, 8, .ro, none⟩]⟩,
   ⟨"MB_BANK_CTRL", 0x8407C, 1, 0x4, 1, 0x0, .T, 0x4, 0x0,
    [⟨"owner", 0, 3, .rw, some [(0, 6)]⟩,
     ⟨"draining", 8, 1, .ro, none⟩,
     ⟨"status", 16, 8, .ro, none⟩]⟩,
   ⟨"MB_BANK_STAT", 0x84080, 1, 0x4, 1, 0x0, .V, 0x1, 0x0,
    [⟨"owner", 0, 3, .ro, none⟩,
     ⟨"draining", 3, 1, .ro, none⟩,
     ⟨"ue", 5, 1, .w1c, none⟩,
     ⟨"nonowner_wr", 6, 1, .w1c, none⟩,
     ⟨"ce_cnt", 8, 8, .ro, none⟩,
     ⟨"ue_cnt", 16, 8, .ro, none⟩,
     ⟨"nonowner_cnt", 24, 8, .ro, none⟩]⟩,
   ⟨"MB_BANK_STAT", 0x84084, 14, 0x4, 1, 0x0, .V, 0x0, 0x0,
    [⟨"owner", 0, 3, .ro, none⟩,
     ⟨"draining", 3, 1, .ro, none⟩,
     ⟨"ue", 5, 1, .w1c, none⟩,
     ⟨"nonowner_wr", 6, 1, .w1c, none⟩,
     ⟨"ce_cnt", 8, 8, .ro, none⟩,
     ⟨"ue_cnt", 16, 8, .ro, none⟩,
     ⟨"nonowner_cnt", 24, 8, .ro, none⟩]⟩,
   ⟨"MB_BANK_STAT", 0x840BC, 1, 0x4, 1, 0x0, .V, 0x4, 0x0,
    [⟨"owner", 0, 3, .ro, none⟩,
     ⟨"draining", 3, 1, .ro, none⟩,
     ⟨"ue", 5, 1, .w1c, none⟩,
     ⟨"nonowner_wr", 6, 1, .w1c, none⟩,
     ⟨"ce_cnt", 8, 8, .ro, none⟩,
     ⟨"ue_cnt", 16, 8, .ro, none⟩,
     ⟨"nonowner_cnt", 24, 8, .ro, none⟩]⟩,
   ⟨"MB_UE_ADDR", 0x840C0, 16, 0x4, 1, 0x0, .V, 0x0, 0x0,
    [⟨"word", 0, 17, .ro, none⟩,
     ⟨"addr_fault", 17, 1, .ro, none⟩]⟩,
   ⟨"MB_SCRUB", 0x84100, 1, 0x0, 1, 0x0, .S, 0x11, 0x0,
    [⟨"enable", 0, 1, .rw, none⟩,
     ⟨"interval", 4, 8, .rw, some [(1, 255)]⟩]⟩,
   ⟨"MB_CONF", 0x84200, 17, 0x4, 1, 0x0, .V, 0x0, 0x0,
    [⟨"waits", 0, 24, .ro, none⟩,
     ⟨"max_wait", 24, 8, .ro, none⟩]⟩]

/-- Registers of the Bank page (spec/13_memory_banks.md). -/
def regBankB : List RegRow :=
  [⟨"MB_CONF_CTRL", 0x84300, 1, 0x0, 1, 0x0, .H, 0x0, 0x0,
    [⟨"restart", 0, 1, .w1s, none⟩]⟩]

/-- Registers of the Host page (spec/14_host_rings.md). -/
def regHostA : List RegRow :=
  [⟨"HI_LINK", 0x88000, 1, 0x0, 1, 0x0, .V, 0x0, 0x0,
    [⟨"speed", 0, 2, .ro, none⟩,
     ⟨"up", 2, 1, .ro, none⟩,
     ⟨"resets", 16, 16, .ro, none⟩]⟩,
   ⟨"HI_LINK_CFG", 0x88004, 1, 0x0, 1, 0x0, .S, 0x7, 0x0,
    [⟨"max_speed", 0, 2, .rw, some [(1, 3)]⟩,
     ⟨"aspm_l1", 2, 1, .rw, none⟩]⟩,
   ⟨"HI_ERR", 0x88008, 1, 0x0, 1, 0x0, .V, 0x0, 0x0,
    [⟨"ur_ca", 0, 1, .w1c, none⟩,
     ⟨"poisoned", 1, 1, .w1c, none⟩,
     ⟨"timeout", 2, 1, .w1c, none⟩,
     ⟨"count", 16, 16, .ro, none⟩]⟩,
   ⟨"HI_SNAP_SIZE", 0x8800C, 1, 0x0, 1, 0x0, .V, 0x0, 0x0,
    [⟨"bytes", 0, 32, .ro, none⟩]⟩,
   ⟨"HI_WIN_LO", 0x88100, 32, 0x10, 1, 0x0, .H, 0x0, 0x0,
    [⟨"base", 0, 32, .rw, none⟩]⟩,
   ⟨"HI_WIN_HI", 0x88104, 32, 0x10, 1, 0x0, .H, 0x0, 0x0,
    [⟨"base", 0, 32, .rw, none⟩]⟩,
   ⟨"HI_WIN_SIZE", 0x88108, 32, 0x10, 1, 0x0, .H, 0x1, 0x0,
    [⟨"pages", 0, 21, .rw, some [(1, 1048576)]⟩]⟩,
   ⟨"HI_WIN_CFG", 0x8810C, 32, 0x10, 1, 0x0, .H, 0x0, 0x0,
    [⟨"enable", 0, 1, .rw, none⟩,
     ⟨"dev_read", 1, 1, .rw, none⟩,
     ⟨"dev_write", 2, 1, .rw, none⟩]⟩,
   ⟨"HI_QP_CFG", 0x88400, 1, 0x40, 1, 0x0, .S, 0x10336, 0x0,
    [⟨"kind", 0, 3, .rw, some [(1, 6)]⟩,
     ⟨"size_log2", 3, 5, .rw, some [(4, 16)]⟩,
     ⟨"prio", 8, 2, .rw, none⟩,
     ⟨"vector", 10, 6, .rw, none⟩,
     ⟨"vec_en", 16, 1, .rw, none⟩]⟩,
   ⟨"HI_QP_CFG", 0x88440, 1, 0x40, 1, 0x0, .S, 0x10635, 0x0,
    [⟨"kind", 0, 3, .rw, some [(1, 6)]⟩,
     ⟨"size_log2", 3, 5, .rw, some [(4, 16)]⟩,
     ⟨"prio", 8, 2, .rw, none⟩,
     ⟨"vector", 10, 6, .rw, none⟩,
     ⟨"vec_en", 16, 1, .rw, none⟩]⟩,
   ⟨"HI_QP_CFG", 0x88480, 62, 0x40, 1, 0x0, .S, 0x931, 0x400,
    [⟨"kind", 0, 3, .rw, some [(1, 6)]⟩,
     ⟨"size_log2", 3, 5, .rw, some [(4, 16)]⟩,
     ⟨"prio", 8, 2, .rw, none⟩,
     ⟨"vector", 10, 6, .rw, none⟩,
     ⟨"vec_en", 16, 1, .rw, none⟩]⟩,
   ⟨"HI_QP_CTRL", 0x88404, 64, 0x40, 1, 0x0, .H, 0x0, 0x0,
    [⟨"enable", 0, 1, .rw, none⟩,
     ⟨"status", 8, 8, .ro, none⟩,
     ⟨"draining", 16, 1, .ro, none⟩]⟩]

/-- Registers of the Host page (spec/14_host_rings.md). -/
def regHostB : List RegRow :=
  [⟨"HI_QP_SQ_LO", 0x88408, 64, 0x40, 1, 0x0, .H, 0x0, 0x0,
    [⟨"base", 0, 32, .rw, none⟩]⟩,
   ⟨"HI_QP_SQ_HI", 0x8840C, 64, 0x40, 1, 0x0, .H, 0x0, 0x0,
    [⟨"base", 0, 32, .rw, none⟩]⟩,
   ⟨"HI_QP_CQ_LO", 0x88410, 64, 0x40, 1, 0x0, .H, 0x0, 0x0,
    [⟨"base", 0, 32, .rw, none⟩]⟩,
   ⟨"HI_QP_CQ_HI", 0x88414, 64, 0x40, 1, 0x0, .H, 0x0, 0x0,
    [⟨"base", 0, 32, .rw, none⟩]⟩,
   ⟨"HI_QP_MOD", 0x88418, 64, 0x40, 1, 0x0, .H, 0xA006401, 0x0,
    [⟨"count", 0, 8, .rw, some [(1, 255)]⟩,
     ⟨"time", 8, 16, .rw, some [(1, 65535)]⟩,
     ⟨"flush", 24, 8, .rw, some [(1, 255)]⟩]⟩,
   ⟨"HI_QP_EVMASK", 0x8841C, 1, 0x40, 1, 0x0, .S, 0x0, 0x0,
    [⟨"mask", 0, 28, .rw, none⟩]⟩,
   ⟨"HI_QP_EVMASK", 0x8845C, 1, 0x40, 1, 0x0, .S, 0xFFFFFFF, 0x0,
    [⟨"mask", 0, 28, .rw, none⟩]⟩,
   ⟨"HI_QP_EVMASK", 0x8849C, 62, 0x40, 1, 0x0, .S, 0x0, 0x0,
    [⟨"mask", 0, 28, .rw, none⟩]⟩,
   ⟨"HI_QP_STAT", 0x88420, 64, 0x40, 1, 0x0, .V, 0x0, 0x0,
    [⟨"sq_head", 0, 16, .ro, none⟩,
     ⟨"cq_tail", 16, 16, .ro, none⟩]⟩,
   ⟨"HI_QP_FLAGS", 0x88424, 64, 0x40, 1, 0x0, .V, 0x0, 0x0,
    [⟨"phase", 0, 1, .ro, none⟩,
     ⟨"fenced", 1, 1, .ro, none⟩,
     ⟨"bad_bell", 2, 1, .w1c, none⟩,
     ⟨"lost", 3, 1, .w1c, none⟩,
     ⟨"in_flight", 8, 6, .ro, none⟩,
     ⟨"bell_err_cnt", 16, 16, .ro, none⟩]⟩,
   ⟨"HI_QP_SEQ_LO", 0x88428, 64, 0x40, 1, 0x0, .V, 0x0, 0x0,
    [⟨"seq", 0, 32, .ro, none⟩]⟩,
   ⟨"HI_QP_SEQ_HI", 0x8842C, 64, 0x40, 1, 0x0, .V, 0x0, 0x0,
    [⟨"seq", 0, 32, .ro, none⟩]⟩]

/-- Registers of the Host page (spec/14_host_rings.md). -/
def regHostC : List RegRow :=
  [⟨"HI_QP_LOST", 0x88430, 64, 0x40, 1, 0x0, .V, 0x0, 0x0,
    [⟨"count", 0, 32, .ro, none⟩]⟩]

/-- Registers of the Can page (spec/15_can_network.md). -/
def regCanA : List RegRow :=
  [⟨"CN_CFG", 0x90000, 8, 0x1000, 1, 0x0, .S, 0x30914, 0x0,
    [⟨"enable", 0, 1, .rw, none⟩,
     ⟨"proto", 1, 2, .rw, some [(1, 3)]⟩,
     ⟨"listen_only", 3, 1, .rw, none⟩,
     ⟨"tx_order", 4, 2, .rw, some [(1, 2)]⟩,
     ⟨"pex", 6, 1, .rw, none⟩,
     ⟨"xl_pwm", 7, 1, .rw, none⟩,
     ⟨"xl_es", 8, 1, .rw, none⟩,
     ⟨"tt_en", 9, 1, .rw, none⟩,
     ⟨"tx_qp", 10, 6, .rw, some [(2, 63)]⟩,
     ⟨"rx_qp", 16, 6, .rw, some [(2, 63)]⟩]⟩,
   ⟨"CN_NBT", 0x90004, 8, 0x1000, 1, 0x0, .S, 0x2040FE2, 0x0,
    [⟨"brp", 0, 5, .rw, some [(1, 31)]⟩,
     ⟨"tseg1", 5, 8, .rw, some [(2, 255)]⟩,
     ⟨"tseg2", 13, 7, .rw, some [(1, 127)]⟩,
     ⟨"sjw", 20, 7, .rw, some [(1, 127)]⟩]⟩,
   ⟨"CN_DBT", 0x90008, 8, 0x1000, 1, 0x0, .S, 0x10207E1, 0x0,
    [⟨"brp", 0, 5, .rw, some [(1, 31)]⟩,
     ⟨"tseg1", 5, 8, .rw, some [(2, 255)]⟩,
     ⟨"tseg2", 13, 7, .rw, some [(1, 127)]⟩,
     ⟨"sjw", 20, 7, .rw, some [(1, 127)]⟩]⟩,
   ⟨"CN_XBT", 0x9000C, 8, 0x1000, 1, 0x0, .S, 0x408161, 0x0,
    [⟨"brp", 0, 5, .rw, some [(1, 31)]⟩,
     ⟨"tseg1", 5, 8, .rw, some [(2, 255)]⟩,
     ⟨"tseg2", 13, 7, .rw, some [(1, 127)]⟩,
     ⟨"sjw", 20, 7, .rw, some [(1, 127)]⟩]⟩,
   ⟨"CN_TDC", 0x90010, 8, 0x1000, 1, 0x0, .S, 0x1080128, 0x0,
    [⟨"d_offset", 0, 8, .rw, none⟩,
     ⟨"d_en", 8, 1, .rw, none⟩,
     ⟨"x_offset", 16, 8, .rw, none⟩,
     ⟨"x_en", 24, 1, .rw, none⟩]⟩,
   ⟨"CN_TT_CFG", 0x90014, 8, 0x1000, 1, 0x0, .S, 0x140061, 0x0,
    [⟨"role", 0, 2, .rw, some [(1, 2)]⟩,
     ⟨"prio", 2, 3, .rw, none⟩,
     ⟨"mc_log2", 5, 3, .rw, some [(0, 6)]⟩,
     ⟨"ref_hi", 8, 8, .rw, none⟩,
     ⟨"tx_win", 16, 4, .rw, some [(1, 15)]⟩,
     ⟨"level2", 20, 1, .rw, none⟩,
     ⟨"gt_src", 21, 1, .rw, none⟩,
     ⟨"excl_guard", 22, 8, .rw, none⟩]⟩,
   ⟨"CN_TT_NTU", 0x90018, 8, 0x1000, 1, 0x0, .S, 0x3200000, 0x0,
    [⟨"ntu", 0, 32, .rw, some [(5242880, 4294901760)]⟩]⟩,
   ⟨"CN_TT_CYCLE", 0x9001C, 8, 0x1000, 1, 0x0, .S, 0xBB803E8, 0x0,
    [⟨"cycle", 0, 16, .rw, some [(16, 65535)]⟩,
     ⟨"ref_watch", 16, 16, .rw, none⟩]⟩,
   ⟨"CN_CTRL", 0x90020, 8, 0x1000, 1, 0x0, .H, 0x0, 0x0,
    [⟨"cmd", 0, 2, .rw, some [(1, 1)]⟩,
     ⟨"status", 8, 8, .ro, none⟩,
     ⟨"pending", 16, 1, .ro, none⟩]⟩,
   ⟨"CN_STAT", 0x90024, 8, 0x1000, 1, 0x0, .V, 0x1, 0x0,
    [⟨"state", 0, 3, .ro, none⟩,
     ⟨"fenced", 3, 1, .ro, none⟩,
     ⟨"slots", 4, 3, .ro, none⟩,
     ⟨"tec", 8, 9, .ro, none⟩,
     ⟨"rec", 17, 8, .ro, none⟩]⟩,
   ⟨"CN_CNT", 0x90028, 8, 0x1000, 1, 0x0, .V, 0x0, 0x0,
    [⟨"bus_off", 0, 8, .ro, none⟩,
     ⟨"no_ack", 8, 8, .ro, none⟩,
     ⟨"unmatched", 16, 16, .ro, none⟩]⟩,
   ⟨"CN_TT_STAT", 0x9002C, 8, 0x1000, 1, 0x0, .V, 0x1, 0x0,
    [⟨"state", 0, 3, .ro, none⟩,
     ⟨"gt_valid", 3, 1, .ro, none⟩,
     ⟨"missed", 4, 1, .w1c, none⟩,
     ⟨"master_lost", 5, 1, .w1c, none⟩,
     ⟨"cycle_count", 6, 6, .ro, none⟩,
     ⟨"master_prio", 12, 3, .ro, none⟩,
     ⟨"cycle_time", 16, 16, .ro, none⟩]⟩]

/-- Registers of the Can page (spec/15_can_network.md). -/
def regCanB : List RegRow :=
  [⟨"CN_TT_GT_LO", 0x90030, 8, 0x1000, 1, 0x0, .V, 0x0, 0x0,
    [⟨"time", 0, 32, .ro, none⟩]⟩,
   ⟨"CN_TT_GT_HI", 0x90034, 8, 0x1000, 1, 0x0, .V, 0x0, 0x0,
    [⟨"time", 0, 32, .ro, none⟩]⟩,
   ⟨"CN_TT_TRIG", 0x90200, 8, 0x1000, 32, 0x8, .S, 0x0, 0x0,
    [⟨"type", 0, 3, .rw, none⟩,
     ⟨"enable", 3, 1, .rw, none⟩,
     ⟨"offset", 4, 6, .rw, none⟩,
     ⟨"rep_log2", 10, 3, .rw, some [(0, 6)]⟩,
     ⟨"flow", 13, 8, .rw, none⟩]⟩,
   ⟨"CN_TT_MARK", 0x90204, 8, 0x1000, 32, 0x8, .S, 0x0, 0x0,
    [⟨"mark", 0, 16, .rw, none⟩]⟩,
   ⟨"CN_FLT_ID", 0x90800, 8, 0x1000, 256, 0x8, .S, 0x20000000, 0x0,
    [⟨"id", 0, 29, .rw, none⟩,
     ⟨"format", 29, 2, .rw, some [(1, 3)]⟩]⟩,
   ⟨"CN_FLT_MASK", 0x90804, 8, 0x1000, 256, 0x8, .S, 0x0, 0x0,
    [⟨"mask", 0, 29, .rw, none⟩]⟩]

/-- Registers of the Flow page (spec/15_can_network.md). -/
def regFlowA : List RegRow :=
  [⟨"FL_CFG", 0x98000, 256, 0x40, 1, 0x0, .S, 0x14002, 0x0,
    [⟨"enable", 0, 1, .rw, none⟩,
     ⟨"dir", 1, 2, .rw, some [(1, 2)]⟩,
     ⟨"controller", 3, 3, .rw, none⟩,
     ⟨"filter", 6, 8, .rw, none⟩,
     ⟨"dest", 14, 2, .rw, some [(1, 3)]⟩,
     ⟨"profile", 16, 2, .rw, some [(1, 3)]⟩,
     ⟨"tt", 18, 1, .rw, none⟩,
     ⟨"age_en", 19, 1, .rw, none⟩]⟩,
   ⟨"FL_ID", 0x98004, 256, 0x40, 1, 0x0, .S, 0x20000000, 0x0,
    [⟨"id", 0, 29, .rw, none⟩,
     ⟨"format", 29, 2, .rw, some [(1, 3)]⟩]⟩,
   ⟨"FL_SEC", 0x98008, 256, 0x40, 1, 0x0, .S, 0x10600, 0x0,
    [⟨"key", 0, 8, .rw, none⟩,
     ⟨"tag", 8, 2, .rw, some [(1, 3)]⟩,
     ⟨"fv", 10, 2, .rw, none⟩,
     ⟨"fv_window", 12, 16, .rw, some [(1, 65535)]⟩]⟩,
   ⟨"FL_AGE", 0x9800C, 256, 0x40, 1, 0x0, .S, 0x64, 0x0,
    [⟨"max_age", 0, 16, .rw, some [(1, 65535)]⟩]⟩,
   ⟨"FL_SC_ADDR", 0x98010, 256, 0x40, 1, 0x0, .S, 0x0, 0x0,
    [⟨"addr", 0, 23, .rw, none⟩]⟩,
   ⟨"FL_FV_TX_LO", 0x98018, 256, 0x40, 1, 0x0, .V, 0x0, 0x0,
    [⟨"value", 0, 32, .ro, none⟩]⟩,
   ⟨"FL_FV_TX_HI", 0x9801C, 256, 0x40, 1, 0x0, .V, 0x0, 0x0,
    [⟨"value", 0, 32, .ro, none⟩]⟩,
   ⟨"FL_FV_RX_LO", 0x98020, 256, 0x40, 1, 0x0, .V, 0x0, 0x0,
    [⟨"value", 0, 32, .ro, none⟩]⟩,
   ⟨"FL_FV_RX_HI", 0x98024, 256, 0x40, 1, 0x0, .V, 0x0, 0x0,
    [⟨"value", 0, 32, .ro, none⟩]⟩,
   ⟨"FL_STAT", 0x98028, 256, 0x40, 1, 0x0, .V, 0x0, 0x0,
    [⟨"stale", 0, 1, .ro, none⟩,
     ⟨"auth", 1, 1, .w1c, none⟩,
     ⟨"replay", 2, 1, .w1c, none⟩,
     ⟨"missed", 3, 1, .w1c, none⟩,
     ⟨"fenced", 4, 1, .ro, none⟩,
     ⟨"last_status", 8, 8, .ro, none⟩,
     ⟨"frames", 16, 16, .ro, none⟩]⟩,
   ⟨"FL_CNT", 0x9802C, 256, 0x40, 1, 0x0, .V, 0x0, 0x0,
    [⟨"auth", 0, 16, .ro, none⟩,
     ⟨"replay", 16, 16, .ro, none⟩]⟩,
   ⟨"FL_LAST_LO", 0x98030, 256, 0x40, 1, 0x0, .V, 0x0, 0x0,
    [⟨"time", 0, 32, .ro, none⟩]⟩]

/-- Registers of the Flow page (spec/15_can_network.md). -/
def regFlowB : List RegRow :=
  [⟨"FL_LAST_HI", 0x98034, 256, 0x40, 1, 0x0, .V, 0x0, 0x0,
    [⟨"time", 0, 32, .ro, none⟩]⟩]

/-- Registers of the Security page (spec/16_security_and_imset.md). -/
def regSecurityA : List RegRow :=
  [⟨"SEC_CFG", 0xA0000, 1, 0x0, 1, 0x0, .S, 0x3C10, 0x0,
    [⟨"uart_sealed", 0, 1, .rw, none⟩,
     ⟨"uart_rate", 4, 4, .rw, some [(1, 3)]⟩,
     ⟨"session_max", 8, 16, .rw, some [(1, 65535)]⟩]⟩,
   ⟨"SEC_STAT", 0xA0004, 1, 0x0, 1, 0x0, .V, 0x0, 0x0,
    [⟨"key_slot", 0, 2, .ro, none⟩,
     ⟨"enrolled", 2, 4, .ro, none⟩,
     ⟨"session_qp0", 6, 1, .ro, none⟩,
     ⟨"session_uart", 7, 1, .ro, none⟩,
     ⟨"otp_err", 8, 1, .w1c, none⟩]⟩,
   ⟨"SEC_CTR_SEL", 0xA0008, 1, 0x0, 1, 0x0, .H, 0x0, 0x0,
    [⟨"counter", 0, 6, .rw, none⟩]⟩,
   ⟨"SEC_CTR", 0xA000C, 1, 0x0, 1, 0x0, .V, 0x0, 0x0,
    [⟨"value", 0, 10, .ro, none⟩]⟩,
   ⟨"SEC_KEY_SEL", 0xA0010, 1, 0x0, 1, 0x0, .H, 0x0, 0x0,
    [⟨"slot", 0, 8, .rw, none⟩]⟩,
   ⟨"SEC_KEY_STAT", 0xA0014, 1, 0x0, 1, 0x0, .V, 0x0, 0x0,
    [⟨"loaded", 0, 1, .ro, none⟩,
     ⟨"loads", 16, 16, .ro, none⟩]⟩,
   ⟨"SEC_KEY_FP", 0xA0020, 4, 0x4, 1, 0x0, .V, 0x0, 0x0,
    [⟨"fp", 0, 32, .ro, none⟩]⟩,
   ⟨"SEC_ID_DIGEST", 0xA0040, 16, 0x4, 1, 0x0, .V, 0x0, 0x0,
    [⟨"digest", 0, 32, .ro, none⟩]⟩,
   ⟨"SEC_IMG", 0xA0100, 3, 0x4, 1, 0x0, .V, 0x0, 0x0,
    [⟨"active", 0, 1, .ro, none⟩,
     ⟨"trial", 1, 1, .ro, none⟩,
     ⟨"pending", 2, 1, .ro, none⟩,
     ⟨"other_valid", 3, 1, .ro, none⟩,
     ⟨"version", 4, 10, .ro, none⟩,
     ⟨"other_version", 14, 10, .ro, none⟩]⟩]

/-- Registers of the Imset page (spec/16_security_and_imset.md). -/
def regImsetA : List RegRow :=
  [⟨"IMS_STAT", 0xA4000, 1, 0x0, 1, 0x0, .V, 0x1, 0x0,
    [⟨"state", 0, 3, .ro, none⟩,
     ⟨"busy", 3, 1, .ro, none⟩,
     ⟨"flash_err", 4, 1, .w1c, none⟩,
     ⟨"refreshing", 5, 1, .ro, none⟩,
     ⟨"ledger_queue", 8, 8, .ro, none⟩]⟩,
   ⟨"IMS_BOOT", 0xA4004, 1, 0x0, 1, 0x0, .V, 0x0, 0x0,
    [⟨"count", 0, 24, .ro, none⟩,
     ⟨"seal_ms", 24, 8, .ro, none⟩]⟩,
   ⟨"IMS_HOURS", 0xA4008, 1, 0x0, 1, 0x0, .V, 0x0, 0x0,
    [⟨"hours", 0, 24, .ro, none⟩]⟩,
   ⟨"IMS_REFRESH", 0xA400C, 1, 0x0, 1, 0x0, .V, 0x0, 0x0,
    [⟨"oldest_days", 0, 16, .ro, none⟩,
     ⟨"sectors", 16, 16, .ro, none⟩]⟩,
   ⟨"IMS_UART", 0xA4010, 1, 0x0, 1, 0x0, .V, 0x0, 0x0,
    [⟨"answering", 0, 1, .ro, none⟩,
     ⟨"bad_frames", 16, 16, .ro, none⟩]⟩]

/-- Registers of the Fault page (spec/17_faults_and_recovery.md). -/
def regFaultA : List RegRow :=
  [⟨"FLT_CFG", 0xA8000, 1, 0x0, 1, 0x0, .S, 0x30A, 0x0,
    [⟨"window", 0, 8, .rw, some [(1, 255)]⟩,
     ⟨"alert_class", 8, 3, .rw, some [(1, 4)]⟩]⟩,
   ⟨"FLT_STAT", 0xA8004, 1, 0x0, 1, 0x0, .V, 0x0, 0x0,
    [⟨"alert", 0, 1, .w1c, none⟩,
     ⟨"lost", 1, 1, .w1c, none⟩,
     ⟨"safe", 2, 1, .ro, none⟩,
     ⟨"unflushed", 16, 11, .ro, none⟩]⟩,
   ⟨"FLT_HEAD_LO", 0xA8008, 1, 0x0, 1, 0x0, .V, 0x0, 0x0,
    [⟨"entry", 0, 32, .ro, none⟩]⟩,
   ⟨"FLT_HEAD_HI", 0xA800C, 1, 0x0, 1, 0x0, .V, 0x0, 0x0,
    [⟨"entry", 0, 32, .ro, none⟩]⟩,
   ⟨"FLT_LOST", 0xA8010, 1, 0x0, 1, 0x0, .V, 0x0, 0x0,
    [⟨"count", 0, 32, .ro, none⟩]⟩,
   ⟨"FLT_CLASS_CNT", 0xA8014, 1, 0x0, 1, 0x0, .V, 0x0, 0x0,
    [⟨"report", 0, 8, .ro, none⟩,
     ⟨"c", 8, 8, .ro, none⟩,
     ⟨"s", 16, 8, .ro, none⟩,
     ⟨"d", 24, 8, .ro, none⟩]⟩,
   ⟨"FLT_ACT", 0xA8018, 1, 0x0, 1, 0x0, .T, 0x0, 0x0,
    [⟨"cmd", 0, 2, .rw, some [(1, 2)]⟩,
     ⟨"kind", 8, 8, .rw, none⟩,
     ⟨"index", 16, 8, .rw, none⟩,
     ⟨"status", 24, 8, .ro, none⟩]⟩,
   ⟨"FLT_SAFE", 0xA801C, 1, 0x0, 1, 0x0, .V, 0x0, 0x0,
    [⟨"safe", 0, 1, .ro, none⟩,
     ⟨"out0", 1, 1, .ro, none⟩,
     ⟨"out1", 2, 1, .ro, none⟩,
     ⟨"kind", 8, 8, .ro, none⟩,
     ⟨"index", 16, 8, .ro, none⟩,
     ⟨"status", 24, 8, .ro, none⟩]⟩,
   ⟨"FLT_SAFE_TIME_LO", 0xA8020, 1, 0x0, 1, 0x0, .V, 0x0, 0x0,
    [⟨"time", 0, 32, .ro, none⟩]⟩,
   ⟨"FLT_SAFE_TIME_HI", 0xA8024, 1, 0x0, 1, 0x0, .V, 0x0, 0x0,
    [⟨"time", 0, 32, .ro, none⟩]⟩,
   ⟨"FLT_SEL", 0xA8100, 3, 0x40, 1, 0x0, .H, 0x0, 0x0,
    [⟨"slot", 0, 10, .rw, none⟩]⟩,
   ⟨"FLT_REC", 0xA8104, 3, 0x40, 8, 0x4, .V, 0x0, 0x0,
    [⟨"word", 0, 32, .ro, none⟩]⟩]

/-- Every register of the SETUP window but the LT window, the MSI-X table and its pending bits. -/
def regMap : List RegRow :=
  regDeviceA ++
  regDeviceB ++
  regDeviceC ++
  regDeviceD ++
  regTimebaseA ++
  regTimebaseB ++
  regPulseGenA ++
  regPortsA ++
  regPortsB ++
  regShuntA ++
  regShuntB ++
  regShuntC ++
  regConverterA ++
  regMonitorA ++
  regMonitorB ++
  regMonitorC ++
  regPositionA ++
  regPositionB ++
  regPositionC ++
  regPositionD ++
  regPositionE ++
  regPositionF ++
  regEngineA ++
  regEngineB ++
  regEngineC ++
  regSafetyA ++
  regSafetyB ++
  regSafetyC ++
  regSafetyD ++
  regSafetyE ++
  regBankA ++
  regBankB ++
  regHostA ++
  regHostB ++
  regHostC ++
  regCanA ++
  regCanB ++
  regFlowA ++
  regFlowB ++
  regSecurityA ++
  regImsetA ++
  regFaultA

/-- Does byte offset `off` name an instance of this register? -/
def RegRow.covers (r : RegRow) (off : Nat) : Bool :=
  Nat.ble r.base off &&
    (let d := off - r.base
     if r.s1 == 0 then d == 0
     else Nat.blt (d / r.s1) r.n1 &&
       (if r.s2 == 0 then d % r.s1 == 0 else Nat.blt (d % r.s1 / r.s2) r.n2 && d % r.s1 % r.s2 == 0))

/-- The first index of the instance at byte offset `off`. -/
def RegRow.index (r : RegRow) (off : Nat) : Nat := if r.s1 == 0 then 0 else (off - r.base) / r.s1

/-- The registers that lie in one 16 KiB page of the SETUP window (R20). -/
def regPage (page : Nat) : List RegRow :=
  match page with
  | 0 => regDeviceA ++ regDeviceB ++ regDeviceC ++ regDeviceD
  | 4 => regTimebaseA ++ regTimebaseB
  | 5 => regPulseGenA
  | 6 => regPortsA ++ regPortsB
  | 7 => regShuntA ++ regShuntB ++ regShuntC
  | 8 => regConverterA
  | 9 => regMonitorA ++ regMonitorB ++ regMonitorC
  | 10 | 11 => regPositionA ++ regPositionB ++ regPositionC ++ regPositionD ++ regPositionE ++ regPositionF
  | 12 | 13 | 14 | 15 => regEngineA ++ regEngineB ++ regEngineC
  | 32 => regSafetyA ++ regSafetyB ++ regSafetyC ++ regSafetyD ++ regSafetyE
  | 33 => regBankA ++ regBankB
  | 34 => regHostA ++ regHostB ++ regHostC
  | 36 | 37 => regCanA ++ regCanB
  | 38 => regFlowA ++ regFlowB
  | 40 => regSecurityA
  | 41 => regImsetA
  | 42 => regFaultA
  | _ => []

/-- The register at a byte offset of the SETUP window, if there is one (R21). -/
def findReg (off : Nat) : Option RegRow := (regPage (off / 0x4000)).find? (fun r => r.covers off)

end Sys2Proof.Machine
end

