-- ==== Sys2Proof/Machine/SnapMap.lean ====
section
/-! DEFINITION. Which registers belong to which unit instance of R12 in a snapshot (R322): generated from the register map. A row is the
base of a register of the map, and the number of the unit that its first instance belongs to; of a kind with one unit, every instance
belongs to unit 0. The spec names no unit for some registers; where the model puts them is log entry 40. -/

namespace Sys2Proof.Machine

/-- Registers of the power ports (kind 0x01). -/
def snapRows01 : List (Nat × Nat) :=
  [(0x18000, 0), (0x18004, 0), (0x18008, 0), (0x1800C, 0), (0x18010, 0), (0x18014, 0), (0x18018, 0), (0x18020, 0), (0x18024,
   0), (0x18028, 0), (0x1802C, 0), (0x18030, 0), (0x1AA00, 42), (0x1AA04, 42), (0x1AA08, 42), (0x1AA0C, 42), (0x1AA10, 42)]

/-- Registers of the stages (kind 0x02). -/
def snapRows02 : List (Nat × Nat) :=
  [(0x3200, 0), (0x3204, 0), (0x3300, 0), (0x3304, 0), (0x3380, 0), (0x3384, 0), (0x1C000, 0), (0x1C004, 0), (0x1C008, 0),
   (0x1C00C, 0), (0x1C010, 0), (0x1C014, 0), (0x1C018, 0), (0x1C01C, 0), (0x1C020, 0), (0x1C024, 0), (0x1C030, 0), (0x1C034,
   0), (0x1C038, 0), (0x1C03C, 0), (0x1C040, 0), (0x1C044, 0), (0x1C048, 0), (0x1C04C, 0), (0x1C050, 0), (0x1C054, 0),
   (0x1C058, 0), (0x1C05C, 0), (0x1DC14, 14), (0x1DC18, 14), (0x1DC50, 14), (0x1DC54, 14), (0x1DC58, 14)]

/-- Registers of the pulse generators (kind 0x03). -/
def snapRows03 : List (Nat × Nat) :=
  [(0x14000, 0), (0x14004, 0), (0x14008, 0), (0x14010, 0), (0x14014, 0), (0x14018, 0), (0x1401C, 0), (0x14020, 0)]

/-- Registers of the stage carriers (kind 0x04). -/
def snapRows04 : List (Nat × Nat) :=
  [(0x10100, 0), (0x10104, 0), (0x10108, 0), (0x1010C, 0), (0x10110, 0), (0x10114, 0), (0x10118, 0), (0x1011C, 0), (0x10120,
   0), (0x10124, 0), (0x10128, 0)]

/-- Registers of the logic converters (kind 0x06). -/
def snapRows06 : List (Nat × Nat) :=
  [(0x20000, 0), (0x20004, 0), (0x20008, 0), (0x2000C, 0), (0x20100, 0), (0x20104, 0), (0x20108, 0), (0x2010C, 0), (0x20110,
   0), (0x20114, 0)]

/-- Registers of the window monitors (kind 0x07). -/
def snapRows07 : List (Nat × Nat) :=
  [(0x24000, 0), (0x24004, 0), (0x24008, 0), (0x2400C, 0)]

/-- Registers of the pod comparators (kind 0x08). -/
def snapRows08 : List (Nat × Nat) :=
  [(0x24400, 0), (0x24404, 0), (0x24408, 0), (0x2440C, 0)]

/-- Registers of the edge-flag comparators (kind 0x09). -/
def snapRows09 : List (Nat × Nat) :=
  [(0x24800, 0), (0x24804, 0), (0x24808, 0), (0x2480C, 0), (0x24810, 0), (0x24814, 0), (0x24818, 0)]

/-- Registers of the stopwork (kind 0x0A). -/
def snapRows0A : List (Nat × Nat) :=
  [(0x24A00, 0), (0x24A04, 0), (0x24A08, 0), (0x24C00, 0), (0x24C04, 0), (0x24C08, 0), (0x24C0C, 0), (0x24C10, 0), (0x24C14,
   0), (0x24C18, 0), (0x24C1C, 0), (0x24C20, 0), (0x24C24, 0)]

/-- Registers of the position ports (kind 0x0B). -/
def snapRows0B : List (Nat × Nat) :=
  [(0x28000, 0), (0x28004, 0), (0x28008, 0), (0x2800C, 0), (0x28010, 0), (0x28014, 0), (0x28018, 0), (0x2801C, 0), (0x28020,
   0), (0x28024, 0), (0x28028, 0), (0x2803C, 0), (0x28040, 0), (0x28044, 0), (0x28048, 0), (0x2804C, 0), (0x28050, 0),
   (0x28054, 0), (0x28058, 0), (0x2805C, 0), (0x28060, 0), (0x28064, 0), (0x28068, 0), (0x2806C, 0), (0x28070, 0), (0x28074,
   0), (0x28078, 0), (0x2807C, 0), (0x28080, 0), (0x28084, 0), (0x28088, 0), (0x28100, 0), (0x28104, 0), (0x28108, 0),
   (0x2810C, 0), (0x28110, 0), (0x28114, 0), (0x2A024, 2), (0x2A028, 2), (0x2A07C, 2), (0x2A080, 2)]

/-- Registers of the encoder repeaters (kind 0x0C). -/
def snapRows0C : List (Nat × Nat) :=
  [(0x2E000, 0), (0x2E004, 0), (0x2E008, 0), (0x2E00C, 0), (0x2E010, 0), (0x2E014, 0), (0x2E018, 0)]

/-- Registers of the tracking observers (kind 0x0D). -/
def snapRows0D : List (Nat × Nat) :=
  [(0x2802C, 0), (0x28030, 0), (0x28034, 0), (0x28038, 0), (0x28090, 0), (0x28094, 0), (0x28098, 0), (0x2809C, 0), (0x280A0,
   0), (0x280A4, 0), (0x280A8, 0), (0x280B0, 0), (0x280B4, 0), (0x280B8, 0), (0x280BC, 0), (0x280C0, 0), (0x280C4, 0)]

/-- Registers of the balance engines (kind 0x0E). -/
def snapRows0E : List (Nat × Nat) :=
  [(0x30000, 0), (0x30004, 0), (0x30008, 0), (0x3000C, 0), (0x30010, 0), (0x30014, 0), (0x30018, 0)]

/-- Registers of the loops (kind 0x0F). -/
def snapRows0F : List (Nat × Nat) :=
  [(0x3C000, 0), (0x3C004, 0), (0x3C008, 0), (0x3C00C, 0), (0x3C010, 0), (0x3C014, 0), (0x3C018, 0), (0x3C01C, 0), (0x3C020,
   0), (0x3C024, 0), (0x3C028, 0), (0x3C02C, 0), (0x3C030, 0), (0x3C034, 0)]

/-- Registers of the safety controller (kind 0x10). -/
def snapRows10 : List (Nat × Nat) :=
  [(0x80000, 0), (0x80004, 0), (0x80008, 0), (0x8000C, 0), (0x80010, 0), (0x80014, 0), (0x80018, 0), (0x8001C, 0), (0x80020,
   0), (0x80024, 0), (0x80028, 0), (0x8002C, 0), (0x80030, 0), (0x80100, 0), (0x80104, 0), (0x80108, 0), (0x8010C, 0),
   (0x80110, 0), (0x80120, 0), (0x80140, 0), (0x80144, 0), (0x80200, 0), (0x80204, 0), (0x80208, 0), (0x80400, 0), (0x83000,
   0), (0x83004, 0), (0x83008, 0), (0x8300C, 0), (0x83010, 0), (0x83014, 0), (0x83018, 0), (0x8301C, 0), (0x83020, 0),
   (0x83024, 0), (0x83028, 0), (0x83200, 0), (0x83204, 0), (0x83208, 0), (0x8320C, 0), (0x83210, 0), (0x83214, 0), (0x83218,
   0), (0x83220, 0), (0x83224, 0), (0x83228, 0), (0x83300, 0), (0x83304, 0), (0x83308, 0), (0x83400, 0), (0x83404, 0),
   (0x83408, 0), (0x8340C, 0), (0x83410, 0)]

/-- Registers of the memory banks (kind 0x11). -/
def snapRows11 : List (Nat × Nat) :=
  [(0x84000, 0), (0x84004, 1), (0x8403C, 15), (0x84040, 0), (0x84044, 1), (0x8407C, 15), (0x84080, 0), (0x84084, 1), (0x840BC,
   15), (0x840C0, 0)]

/-- Registers of the CAN controllers (kind 0x12). -/
def snapRows12 : List (Nat × Nat) :=
  [(0x90000, 0), (0x90004, 0), (0x90008, 0), (0x9000C, 0), (0x90010, 0), (0x90014, 0), (0x90018, 0), (0x9001C, 0), (0x90020,
   0), (0x90024, 0), (0x90028, 0), (0x9002C, 0), (0x90030, 0), (0x90034, 0), (0x90200, 0), (0x90204, 0), (0x90800, 0),
   (0x90804, 0)]

/-- Registers of the flows (kind 0x13). -/
def snapRows13 : List (Nat × Nat) :=
  [(0x98000, 0), (0x98004, 0), (0x98008, 0), (0x9800C, 0), (0x98010, 0), (0x98018, 0), (0x9801C, 0), (0x98020, 0), (0x98024,
   0), (0x98028, 0), (0x9802C, 0), (0x98030, 0), (0x98034, 0)]

/-- Registers of the queue pairs (kind 0x14). -/
def snapRows14 : List (Nat × Nat) :=
  [(0x88400, 0), (0x88404, 0), (0x88408, 0), (0x8840C, 0), (0x88410, 0), (0x88414, 0), (0x88418, 0), (0x8841C, 0), (0x88420,
   0), (0x88424, 0), (0x88428, 0), (0x8842C, 0), (0x88430, 0), (0x88440, 1), (0x8845C, 1), (0x88480, 2), (0x8849C, 2)]

/-- Registers of the temperature sensors (kind 0x15). -/
def snapRows15 : List (Nat × Nat) :=
  [(0x3000, 0)]

/-- Registers of the Imset (kind 0x17). -/
def snapRows17 : List (Nat × Nat) :=
  [(0xA4000, 0), (0xA4004, 0), (0xA4008, 0), (0xA400C, 0), (0xA4010, 0)]

/-- Registers of the ring DMA engine (kind 0x18). -/
def snapRows18 : List (Nat × Nat) :=
  [(0x88000, 0), (0x88004, 0), (0x88008, 0), (0x8800C, 0), (0x88100, 0), (0x88104, 0), (0x88108, 0), (0x8810C, 0)]

/-- Registers of the crypto engine (kind 0x19). -/
def snapRows19 : List (Nat × Nat) :=
  [(0xA0000, 0), (0xA0004, 0), (0xA0008, 0), (0xA000C, 0), (0xA0010, 0), (0xA0014, 0), (0xA0020, 0), (0xA0040, 0), (0xA0100,
   0)]

/-- Registers of the trigger units (kind 0x1A). -/
def snapRows1A : List (Nat × Nat) :=
  [(0x11000, 0), (0x11004, 0), (0x11008, 0)]

/-- Registers of the device (kind 0x1B). -/
def snapRows1B : List (Nat × Nat) :=
  [(0x0, 0), (0x4, 0), (0x8, 0), (0x10, 0), (0x14, 0), (0x40, 0), (0x100, 0), (0x104, 0), (0x108, 0), (0x110, 0), (0x1000, 0),
   (0x1004, 0), (0x1008, 0), (0x1040, 0), (0x2000, 0), (0x2004, 0), (0x2008, 0), (0x200C, 0), (0x2010, 0), (0x2020, 0),
   (0x2024, 0), (0x2028, 0), (0x202C, 0), (0x2030, 0), (0x2034, 0), (0x3100, 0), (0x3104, 0), (0x3108, 0), (0x310C, 0),
   (0x3110, 0), (0x3114, 0), (0x3400, 0), (0x10000, 0), (0x10004, 0), (0x10008, 0), (0x1000C, 0), (0x10010, 0), (0x10014, 0),
   (0x10018, 0), (0x1001C, 0), (0x10020, 0), (0x10024, 0), (0x3F000, 0), (0x3F004, 0), (0x3F008, 0), (0x3F00C, 0), (0x3F010,
   0), (0x3F020, 0), (0x84100, 0), (0x84200, 0), (0x84300, 0), (0xA8000, 0), (0xA8004, 0), (0xA8008, 0), (0xA800C, 0),
   (0xA8010, 0), (0xA8014, 0), (0xA8018, 0), (0xA801C, 0), (0xA8020, 0), (0xA8024, 0), (0xA8100, 0), (0xA8104, 0)]

/-- Per kind: its code, how many units have registers, whether each has its own instance of them, and the rows. -/
def snapKinds : List (Nat × Nat × Bool × List (Nat × Nat)) :=
  [(0x01, 64, true, snapRows01), (0x02, 21, true, snapRows02), (0x03, 64, true, snapRows03), (0x04, 21, true, snapRows04),
   (0x06, 6, true, snapRows06), (0x07, 24, true, snapRows07), (0x08, 28, true, snapRows08), (0x09, 8, true, snapRows09),
   (0x0A, 1, false, snapRows0A), (0x0B, 6, true, snapRows0B), (0x0C, 2, true, snapRows0C), (0x0D, 6, true, snapRows0D), (0x0E,
   12, true, snapRows0E), (0x0F, 64, true, snapRows0F), (0x10, 1, false, snapRows10), (0x11, 16, true, snapRows11), (0x12, 8,
   true, snapRows12), (0x13, 256, true, snapRows13), (0x14, 64, true, snapRows14), (0x15, 57, true, snapRows15), (0x17, 1,
   false, snapRows17), (0x18, 1, false, snapRows18), (0x19, 1, false, snapRows19), (0x1A, 48, true, snapRows1A), (0x1B, 1,
   false, snapRows1B)]

/-- Insert a number into a rising list. -/
def insertNat (x : Nat) : List Nat → List Nat
  | [] => [x]
  | y :: r => if x ≤ y then x :: y :: r else y :: insertNat x r

/-- The offsets of the words of register r that belong to unit i, where its first instance belongs to unit `first`. -/
def RegRow.wordsOf (r : RegRow) (each : Bool) (first i : Nat) : List Nat :=
  let own := if each then (if first ≤ i ∧ i < first + r.n1 then [i - first] else []) else List.range r.n1
  own.flatMap fun k => (List.range r.n2).map fun j => r.base + r.s1 * k + r.s2 * j

/-- The rising offsets of the registers of unit i of a kind. -/
def snapWords (each : Bool) (rows : List (Nat × Nat)) (i : Nat) : List Nat :=
  (rows.flatMap fun x => match findReg x.1 with
    | some r => r.wordsOf each x.2 i
    | none => []).foldr insertNat []

/-- Rising offsets as blocks of consecutive words: where each starts, and how many words it has. -/
def snapBlocks : List Nat → List (Nat × Nat)
  | [] => []
  | a :: rest =>
    match snapBlocks rest with
    | (b, n) :: more => if b = a + 4 then (a, n + 1) :: more else (a, 1) :: (b, n) :: more
    | [] => [(a, 1)]

/-- The unit instances that have registers, in ascending order of kind and then index, each with the blocks of its registers (R322). -/
def snapUnits : List (Nat × Nat × List (Nat × Nat)) :=
  snapKinds.flatMap fun k => (List.range k.2.1).map fun i => (k.1, i, snapBlocks (snapWords k.2.2.1 k.2.2.2 i))

/-- The bytes of the body of a section: 8 and 4 for each word for a block; a loop's adds its 256 variables and 64 parameters. -/
def snapBody (kind : Nat) (blocks : List (Nat × Nat)) : Nat :=
  blocks.foldl (fun n b => n + 8 + 4 * b.2) (if kind = 0x0F then 1280 else 0)

/-- The bytes of a snapshot: a preamble of 32, and per section a header of 16 and the body. -/
def snapSize : Nat := snapUnits.foldl (fun n u => n + 16 + snapBody u.1 u.2.2) 32

end Sys2Proof.Machine
end

