-- ==== Sys2Proof/Machine/Ops.lean ====
section
/-! DEFINITION. The named operations over registers, time, tables, fences and reports that every meaning is written in. -/

namespace Sys2Proof.Machine

/-! Setters of the fields of the device. -/

/-- The device with another `time`. -/
def Dev.withTime (d : Dev) (v : Nat) : Dev := { d with time := v }

/-- The device with another `clockOn`. -/
def Dev.withClockOn (d : Dev) (v : Bool) : Dev := { d with clockOn := v }

/-- The device with another `regs`. -/
def Dev.withRegs (d : Dev) (v : Tbl Word) : Dev := { d with regs := v }

/-- The device with another `fresh`. -/
def Dev.withFresh (d : Dev) (v : Nat) : Dev := { d with fresh := v }

/-- The device with another `sys`. -/
def Dev.withSys (d : Dev) (v : Sys) : Dev := { d with sys := v }

/-- The device with another `tb`. -/
def Dev.withTb (d : Dev) (v : Tb) : Dev := { d with tb := v }

/-- The device with another `pp`. -/
def Dev.withPp (d : Dev) (v : Tbl PortT) : Dev := { d with pp := v }

/-- The device with another `sh`. -/
def Dev.withSh (d : Dev) (v : Tbl ShuntT) : Dev := { d with sh := v }

/-- The device with another `cv`. -/
def Dev.withCv (d : Dev) (v : Cv) : Dev := { d with cv := v }

/-- The device with another `ps`. -/
def Dev.withPs (d : Dev) (v : Ps) : Dev := { d with ps := v }

/-- The device with another `be`. -/
def Dev.withBe (d : Dev) (v : Be) : Dev := { d with be := v }

/-- The device with another `tm`. -/
def Dev.withTm (d : Dev) (v : Tbl TmT) : Dev := { d with tm := v }

/-- The device with another `ch`. -/
def Dev.withCh (d : Dev) (v : Ch) : Dev := { d with ch := v }

/-- The device with another `dr`. -/
def Dev.withDr (d : Dev) (v : Tbl DrT) : Dev := { d with dr := v }

/-- The device with another `sc`. -/
def Dev.withSc (d : Dev) (v : Sc) : Dev := { d with sc := v }

/-- The device with another `mb`. -/
def Dev.withMb (d : Dev) (v : Mb) : Dev := { d with mb := v }

/-- The device with another `hi`. -/
def Dev.withHi (d : Dev) (v : Hi) : Dev := { d with hi := v }

/-- The device with another `cn`. -/
def Dev.withCn (d : Dev) (v : Cn) : Dev := { d with cn := v }

/-- The device with another `sec`. -/
def Dev.withSec (d : Dev) (v : Sec) : Dev := { d with sec := v }

/-- The device with another `flt`. -/
def Dev.withFlt (d : Dev) (v : Flt) : Dev := { d with flt := v }

/-- The device with another `pw`. -/
def Dev.withPw (d : Dev) (v : Pw) : Dev := { d with pw := v }

/-! ### Registers -/

/-- The bytes of the device's identity public key (R353). -/
def identityKey : List Byte := (List.range 64).map Config.identityKey

/-- The 512-bit SHAKE256 digest of a message. -/
def digest (m : List Byte) : List Byte := (List.range 64).map (Config.shake256 m)

/-- `n` bytes of KMAC256 over an input, with a key and a customisation string. -/
def kmac (key data : List Byte) (custom : String) (n : Nat) : List Byte := (List.range n).map (Config.kmacByte key data custom n)

/-- AES-256-GCM: the ciphertext of a plaintext, followed by the 16-byte tag. -/
def gcmSeal (key nonce extra data : List Byte) : List Byte := (List.range (data.length + 16)).map (Config.gcmSealByte key nonce extra data)

/-- AES-256-GCM: the plaintext of a ciphertext followed by its tag, where that checks. -/
def gcmOpen (key nonce extra data : List Byte) : Option (List Byte) :=
  if Config.gcmChecks key nonce extra data then some ((List.range (data.length - 16)).map (Config.gcmOpenByte key nonce extra data)) else none

/-- A word of four bytes, lowest first. -/
def byteWord (b : Nat → Byte) : Word := b 3 ++ b 2 ++ b 1 ++ b 0

/-- Word i of the device's identity digest (R353). -/
def idDigestWord (i : Nat) : Word := byteWord fun k => Config.shake256 identityKey (4 * i + k)

/-- What a register reads at its reset: its row's value, with DEV_VERSION's build number (R26 of the register's table) and
the per-device identity digest left to Config. -/
def resetWord (off : Nat) : Word :=
  match findReg off with
  | none => 0
  | some r =>
    if off = 0x4 then BitVec.ofNat 32 (r.reset + Config.fwBuild.toNat)
    else if 0xA0040 ≤ off ∧ off < 0xA0080 then idDigestWord ((off - 0xA0040) / 4)
    else if off = 0x8800C then BitVec.ofNat 32 snapSize
    else BitVec.ofNat 32 (r.reset + r.rstep * r.index off)

/-- The stored word of a register, by byte offset. -/
def Dev.word (d : Dev) (off : Nat) : Word := Tbl.get resetWord d.regs off

/-- Store a register word. -/
def Dev.setWord (d : Dev) (off : Nat) (w : Word) : Dev := d.withRegs (Tbl.set resetWord d.regs off w)

/-- Field `f` of instance (i, j). -/
def Dev.rd2 (d : Dev) (f : Fd) (i j : Nat) : Nat := getBits (d.word (f.off i j)) f.lo f.width

/-- Field `f` of instance i. -/
def Dev.rd (d : Dev) (f : Fd) (i : Nat) : Nat := d.rd2 f i 0

/-- Is the one-bit field `f` of instance i set? -/
def Dev.flag (d : Dev) (f : Fd) (i : Nat) : Bool := d.rd f i == 1

/-- Field `f` of instance i, read as two's complement. -/
def Dev.rdInt (d : Dev) (f : Fd) (i : Nat) : Int := signed f.width (d.rd f i)

/-- Write field `f` of instance (i, j). -/
def Dev.wr2 (d : Dev) (f : Fd) (i j v : Nat) : Dev :=
  d.setWord (f.off i j) (putBits (d.word (f.off i j)) f.lo f.width v)

/-- Write field `f` of instance i. -/
def Dev.wr (d : Dev) (f : Fd) (i v : Nat) : Dev := d.wr2 f i 0 v

/-- Set or clear the one-bit field `f` of instance i. -/
def Dev.put (d : Dev) (f : Fd) (i : Nat) (b : Bool) : Dev := d.wr f i (b2n b)

/-- Write a signed value into field `f` of instance i. -/
def Dev.wrInt (d : Dev) (f : Fd) (i : Nat) (v : Int) : Dev := d.wr f i (unsigned f.width v)

/-- Count one more in field `f` of instance i; the count holds at its largest value. -/
def Dev.bump (d : Dev) (f : Fd) (i : Nat) : Dev := d.wr f i (min (d.rd f i + 1) (2 ^ f.width - 1))

/-- A 64-bit value in two registers (R1). -/
def Dev.rd64 (d : Dev) (lo hi : Fd) (i : Nat) : Nat := d.rd lo i + 2 ^ 32 * d.rd hi i

/-- Write a 64-bit value into its two registers (R1). -/
def Dev.wr64 (d : Dev) (lo hi : Fd) (i v : Nat) : Dev := (d.wr lo i (v % 2 ^ 32)).wr hi i (v / 2 ^ 32 % 2 ^ 32)

/-! ### Time and free values -/

/-- Device time at a command's instant: the TBI clock has counted up to it (R36). Device time never decreases, stands
still while the clock is off, and is 64 bits wide (R9). -/
def Dev.arrive (d : Dev) (t : Nat) : Dev := if d.clockOn then d.withTime (max d.time (t % 2 ^ 64)) else d

/-- A value the spec leaves open: nothing constrains it, and the next one is another (log entry 4). -/
def Dev.free (d : Dev) : Word := Config.freeWord d.fresh

/-- The device after a free value was taken. -/
def Dev.tick (d : Dev) : Dev := d.withFresh (d.fresh + 1)

/-- The one shape of every meaning: the command's instant arrives, its effect follows, the queue is not touched. -/
def effect (t : Nat) (s : State) (f : Dev → Dev) : Host.Outcome State Fault Refusal :=
  .next { s with toDev := f (s.toDev.arrive t) }

/-! ### Tables of the state -/

/-- What stage `s` carries. -/
def Dev.stg (d : Dev) (s : Nat) : StageT := Tbl.get (fun _ => {}) d.tb.stg s
def Dev.setStg (d : Dev) (s : Nat) (v : StageT) : Dev := d.withTb { d.tb with stg := Tbl.set (fun _ => {}) d.tb.stg s v }

/-- What pulse generator `p` carries. -/
def Dev.pg (d : Dev) (p : Nat) : PgT := Tbl.get (fun _ => {}) d.tb.pg p
def Dev.setPg (d : Dev) (p : Nat) (v : PgT) : Dev := d.withTb { d.tb with pg := Tbl.set (fun _ => {}) d.tb.pg p v }

/-- The firings of trigger unit `u` on their way to its consumer, oldest first. -/
def Dev.fired (d : Dev) (u : Nat) : List Nat := Tbl.get (fun _ => []) d.tb.fired u
def Dev.setFired (d : Dev) (u : Nat) (v : List Nat) : Dev := d.withTb { d.tb with fired := Tbl.set (fun _ => []) d.tb.fired u v }

/-- What port `p` carries. -/
def Dev.port (d : Dev) (p : Nat) : PortT := Tbl.get (fun _ => {}) d.pp p
def Dev.setPort (d : Dev) (p : Nat) (v : PortT) : Dev := d.withPp (Tbl.set (fun _ => {}) d.pp p v)

/-- What the sensing of stage `s` carries. -/
def Dev.shunt (d : Dev) (s : Nat) : ShuntT := Tbl.get (fun _ => {}) d.sh s
def Dev.setShunt (d : Dev) (s : Nat) (v : ShuntT) : Dev := d.withSh (Tbl.set (fun _ => {}) d.sh s v)

/-- What logic converter `c` carries. -/
def Dev.conv (d : Dev) (c : Nat) : ConvT := Tbl.get (fun _ => {}) d.cv.conv c
def Dev.setConv (d : Dev) (c : Nat) (v : ConvT) : Dev := d.withCv { d.cv with conv := Tbl.set (fun _ => {}) d.cv.conv c v }

/-- What a comparator carries, by its key. -/
def Dev.cmp (d : Dev) (k : Nat) : CmpT := Tbl.get (fun _ => {}) d.cv.cmp k
def Dev.setCmp (d : Dev) (k : Nat) (v : CmpT) : Dev := d.withCv { d.cv with cmp := Tbl.set (fun _ => {}) d.cv.cmp k v }

/-- What stopwork carries for stage `s`. -/
def Dev.stop (d : Dev) (s : Nat) : StopT := Tbl.get (fun _ => {}) d.cv.stop s
def Dev.setStop (d : Dev) (s : Nat) (v : StopT) : Dev := d.withCv { d.cv with stop := Tbl.set (fun _ => {}) d.cv.stop s v }

/-- What a word of table memory reads after reset: a scale 1.0 (R158), any other word zero (log entry 6). -/
def ltReset (off : Nat) : Word := if 0x74000 ≤ off ∧ off < 0x74800 then 0x00010000 else 0

/-- A word of table memory, by table offset (R150). -/
def Dev.lt (d : Dev) (off : Nat) : Word := Tbl.get ltReset d.be.lt off
def Dev.setLt (d : Dev) (off : Nat) (v : Word) : Dev := d.withBe { d.be with lt := Tbl.set ltReset d.be.lt off v }

/-- The records of stage `s` at the engine pool. -/
def Dev.recs (d : Dev) (s : Nat) : StageRec := Tbl.get (fun _ => {}) d.be.recs s
def Dev.setRecs (d : Dev) (s : Nat) (v : StageRec) : Dev := d.withBe { d.be with recs := Tbl.set (fun _ => {}) d.be.recs s v }

/-- The last latch record of position port `i` at the engine pool. -/
def Dev.latRec (d : Dev) (i s : Nat) : LatRec := Tbl.get (fun _ => {}) d.be.lat (32 * i + s)
def Dev.setLatRec (d : Dev) (i s : Nat) (v : LatRec) : Dev := d.withBe { d.be with lat := Tbl.set (fun _ => {}) d.be.lat (32 * i + s) v }

/-- What loop `l` carries. -/
def Dev.loop (d : Dev) (l : Nat) : LoopT := Tbl.get (fun _ => {}) d.be.loops l
def Dev.setLoop (d : Dev) (l : Nat) (v : LoopT) : Dev := d.withBe { d.be with loops := Tbl.set (fun _ => {}) d.be.loops l v }

/-- What engine `e` carries. -/
def Dev.eng (d : Dev) (e : Nat) : EngT := Tbl.get (fun _ => {}) d.be.eng e
def Dev.setEng (d : Dev) (e : Nat) (v : EngT) : Dev := d.withBe { d.be with eng := Tbl.set (fun _ => {}) d.be.eng e v }

/-- A record leaves its unit for the engine pool (R153). -/
def Dev.sendRec (d : Dev) (r : RecTok) : Dev := d.withBe { d.be with flight := d.be.flight ++ [r] }

/-- What position port `i` carries. -/
def Dev.pos (d : Dev) (i : Nat) : PosT := Tbl.get (fun _ => {}) d.ps.port i
def Dev.setPos (d : Dev) (i : Nat) (v : PosT) : Dev := d.withPs { d.ps with port := Tbl.set (fun _ => {}) d.ps.port i v }

/-- What encoder repeater `j` carries. -/
def Dev.rep (d : Dev) (j : Nat) : RepT := Tbl.get (fun _ => {}) d.ps.rep j
def Dev.setRep (d : Dev) (j : Nat) (v : RepT) : Dev := d.withPs { d.ps with rep := Tbl.set (fun _ => {}) d.ps.rep j v }

/-- What the traction sequencer carries for machine `m`. -/
def Dev.tmOf (d : Dev) (m : Nat) : TmT := Tbl.get (fun _ => {}) d.tm m
def Dev.setTm (d : Dev) (m : Nat) (v : TmT) : Dev := d.withTm (Tbl.set (fun _ => {}) d.tm m v)

/-- What the drive sequencer carries for drive `a`. -/
def Dev.drive (d : Dev) (a : Nat) : DrT := Tbl.get (fun _ => {}) d.dr a
def Dev.setDrive (d : Dev) (a : Nat) (v : DrT) : Dev := d.withDr (Tbl.set (fun _ => {}) d.dr a v)

/-- What queue pair `q` carries. -/
def Dev.qp (d : Dev) (q : Nat) : QpT := Tbl.get (fun _ => {}) d.hi.qp q
def Dev.setQp (d : Dev) (q : Nat) (v : QpT) : Dev := d.withHi { d.hi with qp := Tbl.set (fun _ => {}) d.hi.qp q v }

/-- Something goes out on the PCI Express link, which leaves L1 for it. -/
def Dev.emit (d : Dev) (m : LinkMsg) : Dev := d.withHi { d.hi with out := d.hi.out ++ [m], l1 := false }

/-- What CAN controller `c` and flow `l` carry. -/
def Dev.can (d : Dev) (c : Nat) : CnT := Tbl.get (fun _ => {}) d.cn.ctl c
def Dev.setCan (d : Dev) (c : Nat) (v : CnT) : Dev := d.withCn { d.cn with ctl := Tbl.set (fun _ => {}) d.cn.ctl c v }
def Dev.flow (d : Dev) (l : Nat) : FlT := Tbl.get (fun _ => {}) d.cn.flow l
def Dev.setFlow (d : Dev) (l : Nat) (v : FlT) : Dev := d.withCn { d.cn with flow := Tbl.set (fun _ => {}) d.cn.flow l v }

/-- The ends of a stage's absence timer and of the wait for a decision on it (R283, R284). -/
def Dev.absDue (d : Dev) (s : Nat) : Option Nat := Tbl.get (fun _ => none) d.sc.absDue s
def Dev.setAbsDue (d : Dev) (s : Nat) (v : Option Nat) : Dev := d.withSc { d.sc with absDue := Tbl.set (fun _ => none) d.sc.absDue s v }
def Dev.respDue (d : Dev) (s : Nat) : Option Nat := Tbl.get (fun _ => none) d.sc.respDue s
def Dev.setRespDue (d : Dev) (s : Nat) (v : Option Nat) : Dev := d.withSc { d.sc with respDue := Tbl.set (fun _ => none) d.sc.respDue s v }

/-- The claims held at reset: the enabled vectors of QP0 and QP1 (HI_QP_CFG). -/
def claimReset (key : Nat) : Option (Nat × Nat) :=
  if key = 0x6000 then some (Kind.queue, 0) else if key = 0x6001 then some (Kind.queue, 1) else none

/-- The unit that holds a resource (R27), by kind and index. -/
def Dev.holderOf (d : Dev) (kind index : Nat) : Option (Nat × Nat) := Tbl.get claimReset d.sys.claims (4096 * kind + index)

/-! ### Fences and reports -/

/-- Is the unit of this kind and index fenced (R371)? -/
def Dev.fenced (d : Dev) (kind index : Nat) : Bool := Tbl.get (fun _ => false) d.flt.fenced (256 * kind + index)

/-- Mark a unit as fenced or not; what the fence does to it is its chapter's. -/
def Dev.markFenced (d : Dev) (kind index : Nat) (b : Bool) : Dev :=
  d.withFlt { d.flt with fenced := Tbl.set (fun _ => false) d.flt.fenced (256 * kind + index) b }

/-- Post a report into the 64-place intake; one that finds it full is dropped and counted (R376, R418). -/
def Dev.post (d : Dev) (r : Report) : Dev :=
  if d.flt.intake.length < 64 then d.withFlt { d.flt with intake := d.flt.intake ++ [r] }
  else ((d.withFlt { d.flt with lostCarry := d.flt.lostCarry + 1, lostDue := true }).bump F.FLT_LOST 0).put F.FLT_STAT_lost 0 true

/-- A unit reports (R418); a fenced unit reports nothing further (R383). -/
def Dev.report (d : Dev) (kind index cls code detail : Nat) (sub : Nat := 0) : Dev :=
  if d.fenced kind index then d
  else d.post { kind := kind, index := index, cls := cls, code := code, sub := sub, detail := detail, time := d.time }

/-- A unit reports with a detail that no rule states: a free value (log entry 4). -/
def Dev.reportOpen (d : Dev) (kind index cls code : Nat) : Dev :=
  d.report kind index cls code (Config.reportDetail kind code).toNat

/-- Pass the device on to an effect. -/
def Dev.pipe (d : Dev) (f : Dev → Dev) : Dev := f d

/-! ### Lists of units -/

/-- Apply an effect for each number of a list, in order. -/
def Dev.each (d : Dev) (l : List Nat) (f : Dev → Nat → Dev) : Dev := l.foldl f d

/-- The ports of a stage (the stage table of chapter 00): HS0 to HS11 three each, HS12 four, HS13 two, LS0 four, LS1 to
LS6 three each. -/
def stagePorts (s : Nat) : List Nat :=
  if s < 12 then [3 * s, 3 * s + 1, 3 * s + 2]
  else if s = 12 then [36, 37, 38, 39]
  else if s = 13 then [40, 41]
  else if s = 14 then [42, 43, 44, 45]
  else [3 * s + 1, 3 * s + 2, 3 * s + 3]

/-- The stage of a port. -/
def portStage (p : Nat) : Nat :=
  if p < 36 then p / 3
  else if p < 40 then 12
  else if p < 42 then 13
  else if p < 46 then 14
  else (p - 1) / 3

/-- The numbers of the 21 stages. -/
def stages : List Nat := List.range 21

/-- Is a stage heavy (HS0 to HS13)? -/
def heavyStage (s : Nat) : Bool := Nat.blt s 14

/-- Is a port heavy (PP0 to PP41)? -/
def heavyPort (p : Nat) : Bool := Nat.blt p 42

/-- The state of the device (R30). -/
def Dev.devState (d : Dev) : Nat := d.rd F.DEV_STATE_state 0

/-- Is the device sealed (R30)? -/
def Dev.isSealed (d : Dev) : Bool := d.devState == DevSt.sealed

/-! ### Modes of the safety controller -/

/-! Modes of SC_STAT. -/
namespace ScMode
def bootTest : Nat := 1
def duplex : Nat := 2
def rollback : Nat := 3
def simplexA : Nat := 4
def simplexB : Nat := 5
def halted : Nat := 6
end ScMode

/-- The mode of the controller. -/
def Dev.scMode (d : Dev) : Nat := d.rd F.SC_STAT_mode 0

/-- Does one copy execute alone (R277)? -/
def Dev.inSimplex (d : Dev) : Bool := d.scMode == ScMode.simplexA || d.scMode == ScMode.simplexB

/-- Does firmware execute, so that agreed windows, or those of the copy that is left, release its stores (R269, R277)? -/
def Dev.fwStores (d : Dev) : Bool := d.scMode == ScMode.duplex || d.inSimplex

/-- Copies that wait for an interrupt start their next window with a request that is there (R271, R285). -/
def Dev.wakeCopies (d : Dev) : Dev :=
  if d.sc.wfi && d.flt.request && d.fwStores then
    (d.withFlt { d.flt with request := false }).withSc
      { d.sc with wfi := false, checkpoint := { d.sc.checkpoint with irq := true }.interrupt }
  else d

/-- An interrupt is requested of the safety controller. -/
def Dev.raiseRequest (d : Dev) : Dev := (d.withFlt { d.flt with request := true }).wakeCopies

/-- The effect of a command that is a store of the firmware's. The command stands for its release: while no window releases stores it
cannot come (R281; log entry 70). -/
def fromFirmware (t : Nat) (s : State) (f : Dev → Dev) : Host.Outcome State Fault Refusal :=
  effect t s fun d => if d.fwStores then f d else d

/-- Does an access of master m reach the device: one of the host's does not while the function is in D3hot (R301)? -/
def Dev.reaches (d : Dev) (m : Master) : Bool := m != .host || !d.hi.d3hot

/-- May master m write now: for the safety controller, while a window releases its stores? -/
def Dev.mayStore (d : Dev) (m : Master) : Bool := (m != .sc || d.fwStores) && d.reaches m

/-- The effect of a command that is a write of master m. -/
def fromMaster (m : Master) (t : Nat) (s : State) (f : Dev → Dev) : Host.Outcome State Fault Refusal :=
  effect t s fun d => if d.mayStore m then f d else d

/-! ### Rejected writes -/

/-- A write is rejected (R23): counted, and recorded in FAB_WRITE_ERR and FAB_WRITE_DATA when no earlier one is held
there. -/
def Dev.reject (d : Dev) (m : Master) (off reason : Nat) (data : Word) : Dev :=
  let d := d.bump F.FAB_WRITE_CNT 0
  if d.flag F.FAB_WRITE_ERR_valid 0 then d.put F.FAB_WRITE_ERR_more 0 true
  else
    let d := d.wr F.FAB_WRITE_ERR 0 (off % 2 ^ 21 + 2 ^ 24 * reason + 2 ^ 28 * m.code + 2 ^ 31)
    d.wr F.FAB_WRITE_DATA 0 data.toNat

/-- A FENCED entry (R419): `cause` is the status word that the fencing rule names, `sub` tells hardware, firmware or
parent. It is posted by the fence itself, so the fence mark does not hold it back. -/
def Dev.postFenced (d : Dev) (kind index cls cause sub : Nat) : Dev :=
  d.post { kind := kind, index := index, cls := cls, code := Code.FENCED, sub := sub, detail := cause, time := d.time }

end Sys2Proof.Machine
end

