-- ==== Sys2Proof/Machine/SeqInputs.lean ====
section
/-! DEFINITION. What the sequencers of the safety controller take in from other units as it happens: edges of edge-flag
comparators (R215, R222), the pilot's transitions and the connector's conversion results (R233, R236), activations of
comparators (R244) and the validity of the grid (R239). -/

namespace Sys2Proof.Machine

/-! ### Traction: edges -/

/-- The reference set of a machine: the lowest-numbered set that it names (R205). -/
def Dev.refSet (d : Dev) (m : Nat) : Nat := ((List.range 4).find? fun k => bitOf (d.rd F.SC_TM_CFG_sets m) k).getD 0

/-- EFk accepted an edge: the machine of its stage notes it (R215, R222). -/
def Dev.noteEdge (d : Dev) (k : Nat) (rising : Bool) : Dev :=
  let m := k / 4
  let v := d.tmOf m
  let isRef := k % 4 == d.refSet m
  let v := if isRef && rising then { v with refEdge := d.time } else v
  let v := if rising then { v with rises := ((k % 4, d.time) :: v.rises).take 16 } else v
  let v := if d.rd F.SC_TM_STAT_state m = 3 ∧ rising ∧ v.ej = none then
      if isRef then { v with edges := v.edges + 1, e1 := v.e2, e2 := d.time }
      else if v.other = some (k % 4) ∧ 3 ≤ v.edges then { v with ej := some d.time }
      else v
    else v
  d.setTm m v

/-! ### Charging: pilot meter and proximity -/

/-- Is the charging sequencer in use? -/
def Dev.chOn (d : Dev) : Bool := d.flag F.SC_CH_CFG_enable 0

/-- Does the charger run a session that an event can end hard: RAMP, CHARGING, EXPORTING, STOPPING (R244)? -/
def Dev.chLive (d : Dev) : Bool := Nat.ble 5 (d.rd F.SC_CH_STAT_state 0)

/-- A window of the pilot meter opens (R233). -/
def Pilot.open (p : Pilot) : Pilot := { p with periods := 0, dutySum := 0, hiSum := 0, hiN := 0, loSum := 0, loN := 0, loLast := none }

/-- A transition of the pilot monitor's high output (R233): a rise ends a period, whose duty joins the window's; the first one opens the
window, and what came before it stays out. -/
def Pilot.edge (p : Pilot) (active : Bool) (now : Nat) : Pilot :=
  let p := { p with lastEdge := now }
  if active then
    let p := match p.rise, p.fall with
      | some r, some f =>
        if Nat.blt r f && Nat.blt p.periods 8 then
          { p with periods := p.periods + 1, dutySum := p.dutySum + ((f - r : Nat) : Rat) / ((now - r : Nat) : Rat) }
        else p
      | none, _ => p.open
      | _, _ => p
    { p with rise := some now, hiLast := none }
  else { p with fall := some now, loLast := none }

/-- A result of the pilot entry, held at `hold` (R233): it counts for a plateau when more than 20 µs (16,000 ticks) of its
phase had passed; the last one of a phase is left out. -/
def Pilot.result (p : Pilot) (level : Bool) (value : Int) (hold now : Nat) : Pilot :=
  let p := { p with recent := (p.recent.filter fun e => Nat.ble now (e.1 + 800000)) ++ [(hold, value)] }
  let high : Bool := if level then (match p.rise with | some r => Nat.blt r hold | none => false)
    else (match p.rise, p.fall with | some r, some f => Nat.blt r hold && Nat.ble hold f | _, _ => false)
  let start := if high then p.rise else p.fall
  match start with
  | none => p
  | some s =>
    if hold ≤ s + 16000 then p
    else if high then
      (match p.hiLast with
       | some v => { p with hiSum := p.hiSum + v, hiN := p.hiN + 1, hiLast := some value }
       | none => { p with hiLast := some value })
    else
      (match p.loLast with
       | some v => { p with loSum := p.loSum + v, loN := p.loN + 1, loLast := some value }
       | none => { p with loLast := some value })

/-- The pilot meter begins, with the charging sequencer or on another monitor (R233): no transition is known, and the 3 ms run from here
(DESIGN CHOICE, log entry 32). -/
def Dev.pilotStart (d : Dev) : Dev :=
  d.withCh { d.ch with pilot := { lastEdge := d.time, refreshAt := d.time, duty := d.ch.pilot.duty, lastState := d.ch.pilot.lastState } }

/-- The cable code of a proximity resistance in ohms, none for an open circuit (R236). -/
def cableCode (r : Option Rat) : Nat :=
  match r with
  | none => 0
  | some r => if 3300 ≤ r then 0 else if 1100 ≤ r then 1 else if 470 ≤ r then 2 else if 160 ≤ r then 3 else if 60 ≤ r then 4 else 5

/-- A result of the proximity entry becomes a resistance and a cable code (R236); a change of the code during a session is a
connector loss (R244). -/
def Dev.proximity (d : Dev) (value : Int) (broken : Bool) : Dev :=
  let v : Rat := (value : Rat) / 65536
  let vp : Rat := (d.rd F.SC_CH_PP_v_pull 0 : Rat) / 100
  let r : Option Rat := if broken || decide (vp ≤ v) then none else some ((d.rd F.SC_CH_PP_r_pull 0 : Rat) * v / (vp - v))
  let ohm := match r with
    | none => 0xFFFF
    | some x => (clampInt 0 0xFFFF (x + 1 / 2).floor).toNat
  let code := cableCode r
  let d := if d.rd F.SC_CH_STAT_cable 0 != code && d.chLive then d.withCh { d.ch with plugEvent := true } else d
  (d.wr F.SC_CH_PP_OHM_ohm 0 ohm).wr F.SC_CH_STAT_cable 0 code

/-- Does the pilot monitor's filtered high output stand active (R233)? -/
def Dev.pilotHigh (d : Dev) : Bool := d.flag F.WM_STAT_live_hi (d.rd F.SC_CH_IN_pilot_wm 0)

/-- Entry e of converter c delivered a result: the connector's entries feed the pilot meter and the proximity. -/
def Dev.noteResult (d : Dev) (c e : Nat) (value : Int) (hold : Nat) : Dev :=
  if !d.chOn then d
  else
    let d := if c = d.rd F.SC_CH_IN_cp_conv 0 ∧ e = d.rd F.SC_CH_IN_cp_entry 0 then
        d.withCh { d.ch with pilot := d.ch.pilot.result d.pilotHigh value hold d.time }
      else d
    if c = d.rd F.SC_CH_IN_pp_conv 0 ∧ e = d.rd F.SC_CH_IN_pp_entry 0 then
      d.proximity value (d.rd2 F.CV_RAW_broken c e == 1)
    else d

/-- A filtered output of window monitor m changed: the pilot monitor's high output times the pilot (R233). -/
def Dev.noteOutput (d : Dev) (m : Nat) (hi active : Bool) : Dev :=
  if d.chOn && hi && m == d.rd F.SC_CH_IN_pilot_wm 0 then
    d.withCh { d.ch with pilot := d.ch.pilot.edge active d.time }
  else d

/-- A latch set, or a LIVE output became active: of the proximity monitor, or the high one of PC17, PC19, PC21, PC23 or
PC27 (R244). -/
def Dev.noteActivation (d : Dev) (kind index : Nat) (hi : Bool) : Dev :=
  if !d.chOn || !d.chLive then d
  else if kind = Kind.winMon ∧ index = d.rd F.SC_CH_IN_pp_wm 0 then d.withCh { d.ch with plugEvent := true }
  else if kind = Kind.podCmp ∧ hi = true ∧ [17, 19, 21, 23, 27].contains index then d.withCh { d.ch with overEvent := true }
  else d

/-! ### Grid (R239) -/

/-- Exchange word k as a fraction of 1 (Q1.31). -/
def Dev.xchFrac (d : Dev) (k : Nat) : Rat := ((d.lt (0x74800 + 4 * (k % 256))).toInt : Rat) / 2147483648

/-- A Q16.16 register as a number. -/
def Dev.q16 (d : Dev) (f : Fd) (i : Nat) : Rat := ((d.word (f.off i 0)).toInt : Rat) / 65536

/-- The line voltage that the grid loops publish, in volts. -/
def Dev.lineVolts (d : Dev) : Rat := d.xchFrac (d.rd F.SC_CH_CFG_grid_x 0) * 1024

/-- Is the grid valid (R239)? -/
def Dev.gridValid (d : Dev) : Bool :=
  let x := d.rd F.SC_CH_CFG_grid_x 0
  let v := d.lineVolts
  let f := d.xchFrac (x + 1) * 128
  let busOk (s : Nat) : Bool :=
    let b := d.q16 F.SH_DV s
    decide (0 ≤ b) && decide (81 * 2 * v * v ≤ 100 * b * b)
  d.xchFrac (x + 2) != 0 && decide ((2 * d.rd F.SC_CH_GRID_v_lo 0 : Nat) ≤ v) && decide (v ≤ (2 * d.rd F.SC_CH_GRID_v_hi 0 : Nat)) &&
    decide ((d.rd F.SC_CH_GRID_f_lo 0 : Nat) ≤ f) && decide (f ≤ (d.rd F.SC_CH_GRID_f_hi 0 : Nat)) && busOk 8 && busOk 9

/-- The grid's words or bus voltages changed: note since when it is invalid in a session (R244). -/
def Dev.noteGrid (d : Dev) : Dev :=
  if !d.chOn || !d.chLive then d
  else if d.gridValid then d.withCh { d.ch with gridBad := none }
  else d.withCh { d.ch with gridBad := some (d.ch.gridBad.getD d.time) }

end Sys2Proof.Machine
end

