-- ==== Sys2Proof/Machine/Carriers.lean ====
section
/-! DEFINITION. Carriers and compares (chapter 02): where a carrier stands at a device time, what each pulse-generator
mode commands there, and the minimum-pulse rule. Compare values and positions inside a carrier period are counted in
sixteenths of a tick. -/

namespace Sys2Proof.Machine

/-- The offset G, signed (TB_GT_OFFSET). -/
def Dev.gtOffset (d : Dev) : Int := signed 64 (d.rd64 F.TB_GT_OFFSET_LO F.TB_GT_OFFSET_HI 0)

/-- The period of a stage's carrier in ticks. -/
def Dev.period (d : Dev) (s : Nat) : Nat := d.rd F.TB_STG_PERIOD_period s

/-- Half the period, H, in sixteenths of a tick. -/
def Dev.half16 (d : Dev) (s : Nat) : Nat := 8 * d.period s

/-- Is the count mode UPDOWN (R39)? -/
def Dev.upDown (d : Dev) (s : Nat) : Bool := d.rd F.TB_STG_CFG_count_mode s == 2

/-- Is the beat half the period (R41)? -/
def Dev.halfBeat (d : Dev) (s : Nat) : Bool := d.rd F.TB_STG_CFG_beat_div s == 2

/-- The beat in ticks. -/
def Dev.beat (d : Dev) (s : Nat) : Nat := if d.halfBeat s then d.period s / 2 else d.period s

/-- Is the stage's source the loop (R50)? -/
def Dev.loopStage (d : Dev) (s : Nat) : Bool := d.rd F.TB_STG_CFG_source s == 1

/-- Is the stage in GLOBAL sync (R37)? -/
def Dev.globalStage (d : Dev) (s : Nat) : Bool := d.rd F.TB_STG_CFG_sync s == 2

/-- The carrier position t of stage s at device time τ, in ticks: (τ − g − epoch − phase) mod period. -/
def Dev.carrier (d : Dev) (s τ : Nat) : Nat :=
  let g : Int := if d.globalStage s then d.gtOffset else 0
  let e : Int := d.rd64 F.TB_EPOCH_LO F.TB_EPOCH_HI 0
  (((τ : Int) - g - e - d.rd F.TB_STG_PHASE_phase s) % (d.period s : Int)).toNat

/-- Is τ an update point of stage s: t = 0, and also t = H when the beat is half the period (R41)? -/
def Dev.atUpdate (d : Dev) (s τ : Nat) : Bool :=
  d.carrier s τ == 0 || (d.halfBeat s && 2 * d.carrier s τ == d.period s)

/-- Is τ the deadline instant of an update point of stage s: the guard before it (R51)? -/
def Dev.atDeadline (d : Dev) (s τ : Nat) : Bool := d.atUpdate s (τ + d.rd F.TB_STG_LIMIT_guard s)

/-- The number of the stage's last update point (R41). -/
def Dev.upd (d : Dev) (s : Nat) : Nat := d.rd64 F.TB_STG_UPD_LO F.TB_STG_UPD_HI s

/-- The carrier value c in sixteenths at position pos16 (R39). -/
def Dev.carrierValue (d : Dev) (s pos16 : Nat) : Nat :=
  if d.upDown s && Nat.ble (d.half16 s) pos16 then 16 * d.period s - pos16 else pos16

/-- From position pos16 on, is the carrier value at or above a compare (R42, R43)? The level at the instant the carrier
reaches the compare is the one it has after that instant, so a falling carrier leaves the compare there: the high time is
2 × (H − CMP), a compare of 0 is high for the whole half and one of H is low. -/
def Dev.atOrAbove (d : Dev) (s pos16 cmp : Nat) : Bool :=
  if d.upDown s && Nat.ble (d.half16 s) pos16 then Nat.blt cmp (d.carrierValue s pos16)
  else Nat.ble cmp (d.carrierValue s pos16)

/-- The largest legal compare of the stage and mode, for compares A and B (R43): H in UPDOWN, the period in UP; in DOUBLE
H − 1/16 for A and H for B. -/
def Dev.compareMax (d : Dev) (p : Nat) (isB : Bool) : Nat :=
  let s := portStage p
  if d.rd F.PG_CFG_mode p = 5 then (if isB then d.half16 s else d.half16 s - 1)
  else if d.upDown s then d.half16 s else 16 * d.period s

/-- The minimum-pulse rule on one span (R47): none when the span stays as the compares give it, otherwise the level it is
made. `hi` and `lo` are the total high and low times. -/
def minPulse (hi lo min16 : Nat) : Option Bool :=
  if hi < min16 then some false else if lo < min16 then some true else none

/-- The high and low totals of the span at pos16 in the modes with an H-command (R43, R47). -/
def Dev.spanTotals (d : Dev) (p pos16 : Nat) : Nat × Nat :=
  let s := portStage p
  let a := d.rd F.PG_CMP_A_value p
  let b := d.rd F.PG_CMP_B_value p
  let H := d.half16 s
  let P := 16 * d.period s
  if d.rd F.PG_CFG_mode p = 5 then (min b H, H - b)
  else if d.upDown s then
    let c := if d.halfBeat s || Nat.blt pos16 H then a else b
    (H - c, min c H)
  else
    let hi := if a < b then b - a else if b < a then P - (a - b) else 0
    (hi, P - hi)

/-- The H-command the compares give at position pos16 (R42, R43). -/
def Dev.rawH (d : Dev) (p pos16 : Nat) : Bool :=
  let s := portStage p
  let a := d.rd F.PG_CMP_A_value p
  let b := d.rd F.PG_CMP_B_value p
  let H := d.half16 s
  let c := d.carrierValue s pos16
  if d.rd F.PG_CFG_mode p = 5 then Nat.blt ((pos16 + H - a) % H) b
  else if d.upDown s then d.atOrAbove s pos16 (if d.halfBeat s || Nat.blt pos16 H then a else b)
  else if a < b then Nat.ble a c && Nat.blt c b
  else if b < a then Nat.ble a c || Nat.blt c b
  else false

/-- The H-command after the minimum-pulse rule (R47). -/
def Dev.hCommand (d : Dev) (p pos16 : Nat) : Bool :=
  let (hi, lo) := d.spanTotals p pos16
  match minPulse hi lo (16 * d.rd F.PG_MINP_min_pulse p) with
  | some level => level
  | none => d.rawH p pos16

/-- The two switch commands of DIRECT, each after the minimum-pulse rule on its own (R42, R47). -/
def Dev.directCommand (d : Dev) (p pos16 : Nat) : Bool × Bool :=
  let s := portStage p
  let a := d.rd F.PG_CMP_A_value p
  let b := d.rd F.PG_CMP_B_value p
  let span := if d.upDown s then d.half16 s else 16 * d.period s
  let m := 16 * d.rd F.PG_MINP_min_pulse p
  let hi := (minPulse (span - a) (min a span) m).getD (d.atOrAbove s pos16 a)
  let lo := (minPulse (min b span) (span - b) m).getD (!d.atOrAbove s pos16 b)
  (hi, lo)

/-- Does the minimum-pulse rule make a span differ from the one the compares give (R47)? A span that is already entirely
low or entirely high is left as it is. -/
def minPulseActs (hi lo min16 : Nat) : Bool :=
  match minPulse hi lo min16 with
  | some false => hi != 0
  | some true => lo != 0
  | none => false

/-- Does the rule change a span that the new compares of port p govern, at the update point at pos16 (R47)? -/
def Dev.minPulseFlag (d : Dev) (p pos16 : Nat) : Bool :=
  let s := portStage p
  let m := 16 * d.rd F.PG_MINP_min_pulse p
  let mode := d.rd F.PG_CFG_mode p
  let span := if d.upDown s then d.half16 s else 16 * d.period s
  let a := d.rd F.PG_CMP_A_value p
  let b := d.rd F.PG_CMP_B_value p
  if mode = 4 then minPulseActs (span - a) (min a span) m || minPulseActs (min b span) (span - b) m
  else if mode = 6 then false
  else if d.upDown s && !d.halfBeat s && mode != 5 then
    (let u := d.spanTotals p 0
     let w := d.spanTotals p (d.half16 s)
     minPulseActs u.1 u.2 m || minPulseActs w.1 w.2 m)
  else
    let u := d.spanTotals p pos16
    minPulseActs u.1 u.2 m

end Sys2Proof.Machine
end

