-- ==== Sys2Proof/Machine/Drivers.lean ====
section
/-! DEFINITION. The drivers of the ports (chapter 03): commands at the driver input, precedence, edges, lockout,
interlock, links. -/

namespace Sys2Proof.Machine

/-- One driver of a port (true: the high one). -/
def PortT.drv (q : PortT) (hi : Bool) : DriverT := if hi then q.hi else q.lo
def PortT.setDrv (q : PortT) (hi : Bool) (v : DriverT) : PortT := if hi then { q with hi := v } else { q with lo := v }

/-- One driver of port p. -/
def Dev.drv (d : Dev) (p : Nat) (hi : Bool) : DriverT := (d.port p).drv hi
def Dev.setDrv (d : Dev) (p : Nat) (hi : Bool) (v : DriverT) : Dev := d.setPort p ((d.port p).setDrv hi v)

/-- The edge of one driver. -/
def Dev.edge (d : Dev) (p : Nat) (hi : Bool) : Edge := (d.drv p hi).edge
def Dev.setEdge (d : Dev) (p : Nat) (hi : Bool) (e : Edge) : Dev := d.setDrv p hi { d.drv p hi with edge := e }

/-- The live lockout bit of a driver (R72). -/
def uvloLive (hi : Bool) : Fd := if hi then F.PP_STAT_uvlo_hi_live else F.PP_STAT_uvlo_lo_live

/-- The sensed gate bit of a driver. -/
def gateSensed (hi : Bool) : Fd := if hi then F.PP_STAT_gate_hi else F.PP_STAT_gate_lo

/-- The falling lockout threshold of a driver of port p in millivolts (R71). -/
def Dev.uvloFall (d : Dev) (p : Nat) : Nat := if heavyPort p then 10000 + 500 * d.rd F.PP_CFG_uvlo p else 7000

/-- The rising lockout threshold (R71). -/
def Dev.uvloRise (d : Dev) (p : Nat) : Nat := if heavyPort p then d.uvloFall p + 1000 else 7600

/-- Renew what a port knows of a driver's supply of `mv` millivolts: since when it lies above its rising threshold, and, for a
bootstrap, whether the trickle pump supplies it, at and above that threshold only (R64). -/
def Dev.noteSupply (d : Dev) (p : Nat) (hi : Bool) (mv : Nat) : Dev :=
  let q := d.port p
  let v := q.drv hi
  let since := if Nat.ble (d.uvloRise p) mv then some (v.goodFrom.getD d.time) else none
  let q := q.setDrv hi { v with mv := mv, goodFrom := since }
  d.setPort p (if hi && heavyPort p then { q with pump := Nat.ble (d.uvloRise p) mv } else q)

/-- Renew the measured supply of a driver (PP_SUPPLY): 10 mV units, the light high driver in 25 mV units. -/
def Dev.measureSupply (d : Dev) (p : Nat) (hi : Bool) (mv : Nat) : Dev :=
  let d := d.noteSupply p hi mv
  if hi then d.wr F.PP_SUPPLY_hi_supply p (min 4095 (if heavyPort p then mv / 10 else mv / 25))
  else d.wr F.PP_SUPPLY_lo_supply p (min 4095 (mv / 10))

/-! ### Levels and currents of the gates (R62 to R66) -/

/-- The on level set in PP_CFG.von of a heavy port, in millivolts (R62). -/
def Dev.vonMv (d : Dev) (p : Nat) : Int := 14000 + 1000 * d.rd F.PP_CFG_von p

/-- The off level set in PP_CFG.voff of a heavy port, in millivolts (R62). -/
def Dev.voffMv (d : Dev) (p : Nat) : Int :=
  let k := d.rd F.PP_CFG_voff p
  if k = 1 then -2000 else if k = 2 then -4000 else if k = 3 then -5000 else 0

/-- The level above its Kelvin source, or above LSW, to which a driver drives a gate that is on or off, in millivolts: on a heavy
port von or voff, where the negative rail is held first and a supply below von + |voff| + 0.5 V leaves the rest of it, less 0.5 V, to
the on level (R62, R63); on a light port VGL, which the low driver's supply is, or 0 V (R65). -/
def Dev.levelMv (d : Dev) (p : Nat) (hi on : Bool) : Int :=
  if heavyPort p then
    let neg := -d.voffMv p
    let supply : Int := (d.drv p hi).mv
    if !on then d.voffMv p
    else if supply < d.vonMv p + neg + 500 then supply - neg - 500
    else d.vonMv p
  else if on then (d.drv p false).mv else 0

/-- The gate current of a segment in units of 0.1 A: sourced at turn-on, sunk at turn-off (R66, R68). -/
def Dev.segCurrent (d : Dev) (p seg : Nat) (on : Bool) : Nat :=
  let i (a b : Fd) := if on then d.rd a p else d.rd b p
  if heavyPort p then
    3 * (if seg = 1 then i F.PP_ON_SEG_i1 F.PP_OFF_SEG_i1 else if seg = 2 then i F.PP_ON_SEG_i2 F.PP_OFF_SEG_i2
      else i F.PP_ON_SEG_i3 F.PP_OFF_SEG_i3)
  else i F.PP_ON_SEG_i1 F.PP_OFF_SEG_i1

/-- What a driver does to its gate: it holds it to its Kelvin source by the 10 kΩ resistor where its supply is not present (R70),
sources or sinks a segment's current, in 0.1 A, or holds the gate through a rail at a level in millivolts. -/
inductive GateDrive where
  | kelvin
  | source (deciAmps : Nat)
  | sink (deciAmps : Nat)
  | hold (mv : Int)
  deriving DecidableEq, Repr

/-- What a driver does to its gate now: the current of the segment in progress, also of an edge that is abandoned and whose reverse has
not started, or the level of the last completed edge (R66, R68, R69). A supply that measures nothing is not present (R70 gives no voltage;
DESIGN CHOICE, log entry 66). From the start of a reset every gate is held off in the same way (R386, R415). -/
def Dev.gateDrive (d : Dev) (p : Nat) (hi : Bool) : GateDrive :=
  let v := d.drv p hi
  let e := v.edge
  let flow (on : Bool) (seg : Nat) : GateDrive := if on then .source (d.segCurrent p seg true) else .sink (d.segCurrent p seg false)
  if v.mv = 0 || d.pw.held then .kelvin
  else if e.active then flow e.on e.seg
  else match e.was with
    | some (on, seg) => flow on seg
    | none => .hold (d.levelMv p hi v.held)

/-- Is the clamp of a gate engaged: at the off level, with its supply present, while PP_CFG.miller_clamp is 1 (R70)? -/
def Dev.clamped (d : Dev) (p : Nat) (hi : Bool) : Bool :=
  (d.drv p hi).settled && (d.drv p hi).mv != 0 && d.flag F.PP_CFG_miller_clamp p

/-- Is the rail VCP of the light high drivers ready: 2 ms, 1,600,000 ticks, after VGL, the supply of the light low drivers, rose above
the light threshold (R65)? -/
def Dev.vcpReady (d : Dev) (p : Nat) : Bool :=
  match (d.drv p false).goodFrom with
  | some t => Nat.ble (t + 1600000) d.time
  | none => false

/-- VCP above GND in millivolts: regulated to 88 V, within 2 V of it (R65). -/
def vcpMv : Nat := 86000 + Config.vcpTrim.toNat % 4001

/-- Does the charging switch of a heavy port conduct with its switch node HK at `hk` millivolts over HN: while its low switch is on and
the node lies within 3 V (R64)? -/
def Dev.charges (d : Dev) (p : Nat) (hk : Int) : Bool := heavyPort p && d.flag F.PP_STAT_gate_lo p && Nat.ble hk.natAbs 3000

/-- The most that flows into the bootstrap of a heavy port, in microamperes: 1.0 A through the charging switch, 2.5 mA from the trickle
pump (R64). -/
def Dev.bootstrapMicroamps (d : Dev) (p : Nat) (hk : Int) : Nat :=
  (if d.charges p hk then 1000000 else 0) + if (d.port p).pump then 2500 else 0

/-! ### Decisions -/

/-- Does a driver's supply lie below its falling threshold, also where it has never been above it, so that no lockout began (R70, R72)? -/
def Dev.unsupplied (d : Dev) (p : Nat) (hi : Bool) : Bool := Nat.blt (d.drv p hi).mv (d.uvloFall p)

/-- Does one of the rows 1 to 4 of R77 hold a gate off: port fenced, re-admitted or not enabled, lockout, interlock, link down? While the
device sleeps, and while a reset holds it, every gate is off (R386, R393). -/
def Dev.gateBlocked (d : Dev) (p : Nat) (hi : Bool) : Bool :=
  let q := d.port p
  d.pw.asleep || d.pw.held || d.fenced Kind.port p || q.readmitted || !d.flag F.PP_CFG_enable p || d.flag (uvloLive hi) p || d.unsupplied p hi ||
    d.flag F.PP_STAT_interlock_live p || (heavyPort p && (q.linkDown || q.laneDown))

/-- Does no row before the last of R77 apply, so that the gate is as commanded? -/
def Dev.gateFree (d : Dev) (p : Nat) (hi : Bool) : Bool := !d.gateBlocked p hi && !d.flag F.WM_SW_STAT_held (portStage p)

/-- What a driver decides for its gate (R77): the first row that applies. -/
def Dev.gateWant (d : Dev) (p : Nat) (hi : Bool) : Bool :=
  let s := portStage p
  if d.gateBlocked p hi then false
  else if d.flag F.WM_SW_STAT_held s then !hi && d.rd F.WM_SW_STAT_action s == 2 && !(d.stop s).lowWait
  else (d.drv p hi).cmd

/-- Let a driver act on what it decides: a changed decision requests an edge, abandoning the one in progress. A command that
reverses while an edge is in progress starts the reverse edge at once from segment 1; any other edge starts its current after the
driver's delay (R69). Of an abandoned edge only the sticky PP_STAT.seg_timeout keeps a timeout: it has no record in PP_EDGE_ON or
PP_EDGE_OFF, which hold completed edges (R77; DESIGN CHOICE, log entry 66). -/
def Dev.driveGate (d : Dev) (p : Nat) (hi : Bool) : Dev :=
  let v := d.drv p hi
  let w := d.gateWant p hi
  let v' := if w then { v with onAt := some d.time } else { v with offAt := d.time }
  if w = v.gate then d
  else if v.edge.active && d.gateFree p hi then
    d.setDrv p hi { v' with gate := w, settled := false,
                            edge := { active := true, on := w, seg := 1, since := d.time, startedAt := d.time, checked := false } }
  else
    let was := if v.edge.active then some (v.edge.on, v.edge.seg) else v.edge.was
    d.setDrv p hi { v' with gate := w, edge := { requested := true, on := w, since := d.time, was := was } }

/-- Let both drivers of a port decide (R77). -/
def Dev.drivePort (d : Dev) (p : Nat) : Dev := (d.driveGate p true).driveGate p false

/-- A driver's supply falls below its falling threshold (R72, R78). -/
def Dev.lockout (d : Dev) (p : Nat) (hi : Bool) (mv : Nat) : Dev :=
  let d := d.measureSupply p hi mv
  if Nat.blt mv (d.uvloFall p) && !d.flag (uvloLive hi) p then
    let d := (d.put (uvloLive hi) p true).put F.PP_STAT_uvlo p true
    let d := (d.bump F.PP_CNT_uvlo p).reportOpen Kind.port p Cls.report Code.UVLO
    d.drivePort p
  else d

/-- A driver's supply stands at `mv`: one that has fallen below its falling threshold since it was last measured goes into lockout. -/
def Dev.supplyAt (d : Dev) (p : Nat) (hi : Bool) (mv : Nat) : Dev :=
  if d.unsupplied p hi then d.measureSupply p hi mv else d.lockout p hi mv

/-- A new command at one driver input: note when it comes on, and the interval that ends when it goes off. -/
def DriverT.command (v : DriverT) (on : Bool) (now : Nat) : DriverT :=
  if on && !v.cmd then { v with cmd := true, since := now }
  else if !on && v.cmd then { v with cmd := false, past := (v.since, now) :: v.past.filter fun x => Nat.ble now (x.2 + 4096) }
  else v

/-- The lockout of a driver ends at an input edge that commands it on while its supply lies above the rising threshold
(R72). -/
def Dev.endLockout (d : Dev) (p : Nat) (hi on : Bool) (mv : Nat) : Dev :=
  if on && !(d.drv p hi).cmd && d.flag (uvloLive hi) p && Nat.blt (d.uvloRise p) mv then d.put (uvloLive hi) p false else d

/-- A command of both switches on puts the port in interlock (R73): flagged, counted and recorded. -/
def Dev.interlock (d : Dev) (p : Nat) (hi lo : Bool) : Dev :=
  if hi && lo then
    let d := (d.put F.PP_STAT_interlock p true).put F.PP_STAT_interlock_live p true
    (d.bump F.PP_CNT_interlock p).reportOpen Kind.port p Cls.report Code.INTERLOCK
  else if hi || lo then d.put F.PP_STAT_interlock_live p false
  else d

/-- Switch commands reach the driver input of port p (R72, R73, R77), with the two supplies at that instant. -/
def Dev.driverInput (d : Dev) (p : Nat) (hi lo : Bool) (hiMv loMv : Nat) : Dev :=
  let d := (d.endLockout p true hi hiMv).endLockout p false lo loMv
  let d := d.interlock p hi lo
  let d := d.setDrv p true ((d.drv p true).command hi d.time)
  let d := d.setDrv p false ((d.drv p false).command lo d.time)
  d.drivePort p

/-- Was a driver commanded on at its input at instant h, and for at least `delay` ticks (R79)? -/
def DriverT.onFor (v : DriverT) (h delay : Nat) : Bool :=
  (v.cmd && Nat.ble (v.since + delay) h) || v.past.any fun x => Nat.ble (x.1 + delay) h && Nat.blt h x.2

/-- The chopper check on one result of the HS13 shunt (R79): `h` is its sampling instant, `amps` its Q16.16 value. Where two ports
whose thresholds differ are on, each is compared with n times its own threshold (R79 speaks of one threshold; DESIGN CHOICE, log
entry 66). -/
def Dev.chopperCheck (d : Dev) (h : Nat) (amps : Int) : Dev :=
  let named (p : Nat) : Bool := d.flag F.PP_CHOP_enable p &&
    (d.drv p (d.flag F.PP_CHOP_sw p)).onFor h (64 * d.rd F.PP_CHOP_delay p)
  let ps := (stagePorts 13).filter named
  let n := ps.length
  d.each ps fun d p =>
    if amps.natAbs < n * d.rd F.PP_CHOP_threshold p * 16384 then
      ((d.put F.PP_STAT_chopper_open p true).bump F.PP_CNT_chopper_open p).reportOpen Kind.port p Cls.report Code.CHOPPER_OPEN
    else d

/-- A gate voltage read as on, off, or neither, in millivolts relative to its Kelvin source (R74). -/
def gateLevel (p : Nat) (mv : Int) : Option Bool :=
  if heavyPort p then (if 10000 < mv then some true else if mv < 2000 then some false else none)
  else (if 5000 < mv then some true else if mv < 1500 then some false else none)

/-- The gate monitor compares a sensed gate with what its driver commands (R74). The monitor only reports. -/
def Dev.monitorGate (d : Dev) (p : Nat) (hi : Bool) (mv : Int) : Dev :=
  let d := d.put (gateSensed hi) p (gateLevel p mv == some true)
  if gateLevel p mv = some (d.drv p hi).gate then d
  else ((d.put F.PP_STAT_gate_mismatch p true).bump F.PP_CNT_mismatch p).reportOpen Kind.port p Cls.report Code.GATE_MISMATCH

end Sys2Proof.Machine
end

