-- ==== Sys2Proof/Machine/Urgents.lean ====
section
/-! DEFINITION. Urgent conversions of the logic converters (R85, R103, R104): which one runs, which wait, and how the sequence yields to
them and resumes. -/

namespace Sys2Proof.Machine

/-- The light stages whose shunt converter c converts (R85). -/
def lightStages (c : Nat) : List Nat := if c = 5 then [19, 20] else [14 + c]

/-- The converter of a light stage's shunt (R85). -/
def lightConv (s : Nat) : Nat := min (s - 14) 5

/-- When the trigger of a sample reaches its converter: 120 ticks after the planned instant (R49). -/
def Samp.arrival (x : Samp) : Nat := x.beatAt + x.inst.at16 / 16 + 120

/-- Precedence of the sources (R103). -/
def Urg.rank : Urg → Nat
  | .shunt _ _ _ => 0
  | .cal _ => 1
  | .sc => 2
  | .dacTest _ _ => 2

/-- Insert a request behind those that arrived no later. -/
def insertUrgent (x : Urg × Nat) : List (Urg × Nat) → List (Urg × Nat)
  | [] => [x]
  | y :: r => if x.2 < y.2 then x :: y :: r else y :: insertUrgent x r

/-- The request that is served next: the first source that waits, in arrival order (R103). -/
def ConvT.nextUrgent (v : ConvT) : Option (Urg × Nat) :=
  [0, 1, 2].findSome? fun k => v.waiting.find? fun x => x.1.rank == k

/-- An idle converter serves its next request; the hold follows its arrival, or the end of the conversion before. -/
def ConvT.serve (v : ConvT) : ConvT :=
  match v.running with
  | some _ => v
  | none =>
    match v.nextUrgent with
    | none => v
    | some x => { v with running := some (x.1, max x.2 v.freeAt), waiting := v.waiting.filter fun y => y.1 != x.1 }

/-- Is a request running or waiting? -/
def ConvT.holdsUrgent (v : ConvT) (u : Urg) : Bool :=
  v.waiting.any (fun x => x.1 == u) || (match v.running with | some x => x.1 == u | none => false)

/-- The shunt triggers that have reached converter c and are not yet requests of it. Of triggers of LS5 and LS6 that reach CV5 at the same
tick the lower stage's stands first: R85 and R103 order arrivals only (DESIGN CHOICE, log entry 66). -/
def Dev.newTriggers (d : Dev) (c : Nat) : List (Urg × Nat) :=
  (lightStages c).flatMap fun s => ((d.shunt s).due.filter fun x => Nat.ble x.arrival d.time).filterMap fun x =>
    let u := Urg.shunt s x.isB x.beat
    if (d.conv c).holdsUrgent u then none else some (u, x.arrival)

/-- Show whether an urgent conversion runs (CV_STAT.urgent). -/
def Dev.showUrgent (d : Dev) (c : Nat) : Dev := d.put F.CV_STAT_urgent c (d.conv c).running.isSome

/-- Requests reach converter c: an idle one starts at once (R103). A fenced converter serves none (R372): a light calibration on it gets no
conversion, and its SH_CAL_CTRL.busy stays 1 until the stage starts, or the calibration is requested anew; R95 gives it no status for a fence
(DESIGN CHOICE, log entry 66). -/
def Dev.requestUrgent (d : Dev) (c : Nat) (l : List (Urg × Nat)) : Dev :=
  if d.fenced Kind.logicConv c then d
  else
    let v := d.conv c
    (d.setConv c ({ v with waiting := l.foldl (fun w x => insertUrgent x w) v.waiting } : ConvT).serve).showUrgent c

/-- The shunt triggers of converter c that have arrived become requests (R85). -/
def Dev.takeTriggers (d : Dev) (c : Nat) : Dev := d.requestUrgent c (d.newTriggers c)

/-- With no urgent request left, the sequence resumes; an open-wire test that was interrupted settles anew (R104). -/
def ConvT.resume (v : ConvT) (now : Nat) : ConvT :=
  if v.running.isNone && v.phase != 0 then { v with phase := 1, owAt := now } else v

/-- The running urgent conversion of converter c ends, and the next request is served (R103, R104). -/
def Dev.endUrgentConv (d : Dev) (c : Nat) : Dev :=
  let v : ConvT := { d.conv c with running := none, freeAt := d.time }
  (d.setConv c (v.serve.resume d.time)).showUrgent c

/-- A request of converter c that is withdrawn: it no longer waits, and its conversion ends; the shunt triggers that have arrived are then
served before any other request (R103). -/
def Dev.dropUrgent (d : Dev) (c : Nat) (u : Urg) : Dev :=
  let d := d.takeTriggers c
  let v := d.conv c
  let d := d.setConv c { v with waiting := v.waiting.filter fun x => x.1 != u }
  if (match v.running with | some x => x.1 == u | none => false) then d.endUrgentConv c else d

/-- A fenced converter serves nothing: every request leaves (R372). -/
def Dev.clearUrgents (d : Dev) (c : Nat) : Dev :=
  (d.setConv c { d.conv c with running := none, waiting := [], freeAt := d.time }).showUrgent c

/-- Has the urgent conversion of converter c run for the shortest conversion time, 190 ns or 152 ticks (R99)? -/
def Dev.urgentRipe (d : Dev) (c : Nat) : Bool :=
  match (d.conv c).running with
  | some x => Nat.ble (x.2 + 152) d.time
  | none => false

end Sys2Proof.Machine
end

