-- ==== Sys2Proof/Machine/StageOps.lean ====
section
/-! DEFINITION. What acts on a whole stage (chapters 02, 05): commands presented to its ports, start, stop, the trip
action and stopwork. -/

namespace Sys2Proof.Machine

/-- Both switches requested on at this instant set both_req; a trip action at the port is no request (R48). -/
def Dev.noteBoth (d : Dev) (p : Nat) : Dev :=
  if d.flag F.PG_STAT_out_high p && d.flag F.PG_STAT_out_low p && !d.flag F.PG_STAT_trip_hold p then d.put F.PG_STAT_both_req p true
  else d

/-- A pulse generator presents switch commands planned for an instant in sixteenths of a tick: they reach the driver input 150 ns
(120 ticks) after that instant, so that edges keep their planned spacing (R49). A both-on command sets both_req (R48). -/
def Dev.present (d : Dev) (p at16 : Nat) (hi lo : Bool) : Dev :=
  let changed := d.flag F.PG_STAT_out_high p != hi || d.flag F.PG_STAT_out_low p != lo
  let d := ((d.put F.PG_STAT_out_high p hi).put F.PG_STAT_out_low p lo).noteBoth p
  if changed then
    let q := d.port p
    d.setPort p { q with flight := q.flight ++ [(at16 + 1920, hi, lo)] }
  else d

/-- The port of a stopped stage: what is on its way to the driver input and what waits for a dead time is cancelled, and both switches
turn off on the next TBI clock (R54, R55). -/
def Dev.portOff (d : Dev) (p : Nat) : Dev :=
  let d := d.setPg p { d.pg p with wait := none }
  let d := (d.put F.PG_STAT_out_high p false).put F.PG_STAT_out_low p false
  d.setPort p { d.port p with flight := if (d.drv p true).cmd || (d.drv p false).cmd then [(16 * (d.time + 1), false, false)] else [] }

/-- An H-command edge in a mode with dead time (R46): the switch that leaves turns off at the edge, the other waits for
its dead time. -/
def Dev.hEdge (d : Dev) (p now16 : Nat) (h : Bool) : Dev :=
  let dt := if h then d.rd F.PG_DT_dt_rise p else d.rd F.PG_DT_dt_fall p
  let d := d.setPg p { d.pg p with h := h, wait := if dt = 0 then none else some (h, now16 + dt) }
  if dt = 0 then d.present p now16 h (!h) else d.present p now16 false false

/-- Bring a driving pulse generator to what its mode commands at carrier position pos16 (R42, R46). `first` marks the
first transfer after a start, taken as an edge from both switches off (R54). -/
def Dev.pgStep (d : Dev) (p now16 pos16 : Nat) (first : Bool) : Dev :=
  let mode := d.rd F.PG_CFG_mode p
  if mode = 1 ∨ mode = 5 then
    let h := d.hCommand p pos16
    if first || h != (d.pg p).h then d.hEdge p now16 h else d
  else if mode = 2 then (d.setPg p { d.pg p with h := d.hCommand p pos16 }).present p now16 (d.hCommand p pos16) false
  else if mode = 3 then (d.setPg p { d.pg p with h := d.hCommand p pos16 }).present p now16 false (!d.hCommand p pos16)
  else if mode = 4 then d.present p now16 (d.directCommand p pos16).1 (d.directCommand p pos16).2
  else d.present p now16 false false

/-- Every port of a stage turns both switches off, without dead time; edges still pending are cancelled (R55). A port that
keeps a trip action keeps it (R56). -/
def Dev.silence (d : Dev) (s : Nat) : Dev :=
  d.each (stagePorts s) fun d p =>
    if d.flag F.PG_STAT_trip_hold p then d.setPg p { d.pg p with wait := none } else d.portOff p

/-- Forget which shadows were written. -/
def Dev.clearWritten (d : Dev) (s : Nat) : Dev :=
  d.each (stagePorts s) fun d p => d.setPg p { d.pg p with wroteA := false, wroteB := false }

/-- A fenced stage discards its shadow writes and its commit, also one that is decided but has not transferred (R57). -/
def Dev.discardShadows (d : Dev) (s : Nat) : Dev :=
  let d := (d.clearWritten s).setStg s { d.stg s with mark := false, transfer := false, locked := [] }
  d.put F.TB_STG_COMMIT_pending s false

/-- The absence timer of a stage starts from its full timeout, where it is enabled (R283): 100 µs are 80,000 ticks. -/
def Dev.absStart (d : Dev) (s : Nat) : Dev :=
  let d := ((d.setRespDue s none).put F.SC_ABS_LEFT_expired s false).put F.SC_ABS_LEFT_awaiting s false
  if d.flag F.SC_ABS_CFG_enable s then d.setAbsDue s (some (d.time + 80000 * d.rd F.SC_ABS_CFG_timeout s))
  else d.setAbsDue s none

/-- What is left of an absence timer, in 100 µs units, a part of one counted whole. -/
def Dev.absLeft (d : Dev) (s : Nat) : Nat :=
  match d.absDue s with
  | some t => min ((t - d.time + 79999) / 80000) 65535
  | none => d.rd F.SC_ABS_LEFT_left s

/-- The absence timer of a stage stops with its run. -/
def Dev.absStop (d : Dev) (s : Nat) : Dev :=
  let d := (d.wr F.SC_ABS_LEFT_left s (d.absLeft s)).put F.SC_ABS_LEFT_awaiting s false
  (d.setAbsDue s none).setRespDue s none

/-- run of a stage becomes 0: the ports are no longer driven from compares. -/
def Dev.endRun (d : Dev) (s : Nat) : Dev :=
  let d := if d.flag F.TB_STG_RUN_run s then (d.setStg s { d.stg s with stopAt := d.time }).absStop s else d
  let d := d.setStg s { d.stg s with driving := false }
  (d.put F.TB_STG_RUN_run s false).put F.TB_STG_STAT_running s false

/-- Stop a stage (R55). -/
def Dev.stopStage (d : Dev) (s : Nat) : Dev := (d.endRun s).silence s

/-- A light shunt or heavy stage whose start abandons a calibration (R96). No sample is taken until the next update point: the instants placed
for the present beat and the samples already held are dropped and yield no record, where R94 gives every instant one and R96 does not say
(DESIGN CHOICE, log entry 66). -/
def Dev.abandonCal (d : Dev) (s : Nat) : Dev :=
  match (d.shunt s).cal with
  | none => d
  | some _ =>
    let d := d.setShunt s { d.shunt s with cal := none, suspended := true, due := [] }
    let d := if heavyStage s then d else d.dropUrgent (lightConv s) (.cal s)
    (d.put F.SH_CAL_CTRL_busy s false).wr F.SH_CAL_CTRL_status s Code.STAGE_RUNNING

/-- Start a stage (R54): its ports stay off until its next successful transfer, and the trip action that was kept after a
release ends (R56). A port that was re-admitted before drives from that transfer on too (R77). -/
def Dev.startStage (d : Dev) (s : Nat) : Dev :=
  if d.flag F.TB_STG_RUN_run s || d.pw.asleep then d
  else
    let d := d.abandonCal s
    let d := (d.put F.TB_STG_RUN_run s true).absStart s
    let g := d.stg s
    let d := d.setStg s { g with startAt := d.time, driving := false,
                                 offs := (g.stopAt, d.time) :: g.offs.filter fun x => Nat.ble d.time (x.2 + 4096) }
    let d := d.setStop s { d.stop s with lowWait := false }
    d.each (stagePorts s) fun d p =>
      ((d.put F.PG_STAT_trip_hold p false).portOff p).pipe fun d => d.setPort p { d.port p with restarted := true }

/-- The trip action of a stage (R116): is it LOW_ON? -/
def Dev.lowOnAction (d : Dev) (s : Nat) : Bool := d.rd F.WM_SW_ACT_action s == 2

/-- The trip lanes bring the held action to a port at once, cancelling what is pending (R56, R58): both off, or the low
switch on when `low`. A low switch that LOW_ON turns on is no input edge: it ends neither a lockout of its driver nor the port's interlock
(R72, R73 speak of edges at the driver input; DESIGN CHOICE, log entry 66). -/
def Dev.actionAtPort (d : Dev) (p : Nat) (low : Bool) : Dev :=
  let d := d.setPg p { d.pg p with wait := none }
  let d := ((d.put F.PG_STAT_out_high p false).put F.PG_STAT_out_low p low).put F.PG_STAT_trip_hold p true
  let d := d.setPort p { d.port p with flight := [] }
  let d := d.setDrv p true ((d.drv p true).command false d.time)
  let d := d.setDrv p false ((d.drv p false).command low d.time)
  d.drivePort p

/-- The held action at every port of a stage. -/
def Dev.actionAtStage (d : Dev) (s : Nat) (low : Bool) : Dev := d.each (stagePorts s) fun d p => d.actionAtPort p low

/-- A new trip of a stage (R56, R118, R120): recorded with its first cause, run cleared, the action taken. Under LOW_ON
every switch turns off at once and the low ones wait for low_delay. -/
def Dev.tripStage (d : Dev) (s : Nat) (low : Bool) (causeKind causeIndex : Nat) : Dev :=
  let d := d.endRun s
  let d := d.put F.WM_SW_STAT_held s true
  let d := d.wr F.WM_SW_STAT_action s (if low then 2 else 1)
  let d := (d.wr F.WM_SW_STAT_cause_kind s causeKind).wr F.WM_SW_STAT_cause_index s causeIndex
  let d := d.bump F.WM_SW_STAT_count s
  let d := d.wr64 F.WM_SW_TIME_LO F.WM_SW_TIME_HI s d.time
  let d := d.wr F.WM_SW_HELD 0 (d.rd F.WM_SW_HELD 0 ||| 2 ^ s)
  let d := d.put F.TB_STG_STAT_tripped s true
  let d := d.setStop s { d.stop s with lowWait := low }
  let d := d.actionAtStage s false
  d.post { kind := Kind.stage, index := s, cls := Cls.s, code := Code.TRIPPED, time := d.time,
           detail := causeKind + 256 * causeIndex + 65536 * (if low then 2 else 1) }

/-- A stage holding LOW_ON changes to ALL_OFF (R117): not a new trip; the low switches turn off at once. -/
def Dev.toAllOff (d : Dev) (s : Nat) : Dev :=
  let d := d.wr F.WM_SW_STAT_action s 1
  let d := d.setStop s { d.stop s with lowWait := false }
  d.actionAtStage s false

/-- Is threshold output (hi or lo) of a comparator register group an active stopwork source: routed, and live in LIVE mode
or latched in LATCH mode (R111)? -/
def Dev.wmActive (d : Dev) (m : Nat) : Bool :=
  let latch := d.rd F.WM_CFG_latch m == 2
  let lo := if latch then d.flag F.WM_LATCH_lo m else d.flag F.WM_STAT_live_lo m
  let hi := if latch then d.flag F.WM_LATCH_hi m else d.flag F.WM_STAT_live_hi m
  let f := d.fenced Kind.winMon m
  (d.flag F.WM_CFG_route_lo m && (lo || f)) || (d.flag F.WM_CFG_route_hi m && (hi || f))

/-- As `wmActive`, of a pod comparator. -/
def Dev.pcActive (d : Dev) (c : Nat) : Bool :=
  let latch := d.rd F.WM_PC_CFG_latch c == 2
  let lo := if latch then d.flag F.WM_PC_LATCH_lo c else d.flag F.WM_PC_STAT_live_lo c
  let hi := if latch then d.flag F.WM_PC_LATCH_hi c else d.flag F.WM_PC_STAT_live_hi c
  let f := d.fenced Kind.podCmp c
  (d.flag F.WM_PC_CFG_route_lo c && (lo || f)) || (d.flag F.WM_PC_CFG_route_hi c && (hi || f))

/-- Is TRIP_IN[n] an active source (R115)? -/
def Dev.tripInActive (d : Dev) (n : Nat) : Bool :=
  bitOf (d.rd F.WM_SW_IN_CFG 0) (8 * n) && bitOf (d.rd F.WM_SW_IN_STAT_live 0) n

/-- The first source of a stage that is active in a mask, in rank order: kind code, then index (R115, R120). -/
def firstSet (n mask : Nat) (f : Nat → Bool) : Option Nat := (List.range n).find? fun k => bitOf mask k && f k

/-- The active sources of a stage as (cause kind of R115, index), first cause first: `off` selects the sources that
take ALL_OFF whatever the action, otherwise the ones with the stage action (R116). R115 states no index for FORCE, FENCE and DEVICE: the
model takes 0, the number of the stage and 0 (DESIGN CHOICE, log entry 66). -/
def Dev.source (d : Dev) (s : Nat) (off : Bool) : Option (Nat × Nat) :=
  let wm := if off then d.rd F.WM_SW_WM_OFF_mask s else d.rd F.WM_SW_WM_ACT_mask s
  let pc := if off then d.rd F.WM_SW_PC_OFF_mask s else d.rd F.WM_SW_PC_ACT_mask s
  let ti := if off then d.rd F.WM_SW_IN_off s else d.rd F.WM_SW_IN_act s
  match firstSet 24 wm d.wmActive with
  | some m => some (1, m)
  | none =>
  match firstSet 28 pc d.pcActive with
  | some c => some (2, c)
  | none =>
  match firstSet 4 ti d.tripInActive with
  | some n => some (3, n)
  | none =>
  if (d.stop s).force = some off then some (4, 0)
  else if off then none
  else if d.fenced Kind.stage s then some (5, s)
  else if d.flag F.FLT_SAFE_safe 0 then some (6, 0)
  else none

/-- Of two causes, the one of lower kind code, then of lower index (R120). -/
def earlierCause (a b : Option (Nat × Nat)) : Option (Nat × Nat) :=
  match a, b with
  | none, b => b
  | a, none => a
  | some x, some y => if x.1 < y.1 ∨ (x.1 = y.1 ∧ x.2 ≤ y.2) then some x else some y

/-- One stopwork arbitration of a stage (R115 to R121). R117 forbids a low switch after ALL_OFF within one held trip; a LOW_ON trip that
comes after a RELEASE, before the stage runs again, is a new trip and turns the low switches on (R117 can be read as forbidding that too;
DEDUCED, log entry 66). -/
def Dev.arbitrate (d : Dev) (s : Nat) : Dev :=
  let off := d.source s true
  let act := d.source s false
  if d.flag F.WM_SW_STAT_held s then
    (if off.isSome && d.rd F.WM_SW_STAT_action s == 2 then d.toAllOff s else d)
  else
    match earlierCause off act with
    | none => d
    | some (k, i) => d.tripStage s (off.isNone && d.lowOnAction s) k i

/-- Stopwork arbitration of every stage. -/
def Dev.stopwork (d : Dev) : Dev := d.each stages Dev.arbitrate

/-- May a held trip be released (R120)? -/
def Dev.mayRelease (d : Dev) (s : Nat) : Bool :=
  let quiet (o : Option (Nat × Nat)) : Bool :=
    match o with
    | none => true
    | some (k, _) => k == 4
  quiet (d.source s true) && quiet (d.source s false) && !d.fenced Kind.stage s && !d.flag F.FLT_SAFE_safe 0

end Sys2Proof.Machine
end

