-- ==== Sys2Proof/Machine/Comparators.lean ====
section
/-! DEFINITION. Comparators, edge flags and stopwork commands (chapter 05). -/

namespace Sys2Proof.Machine

/-! ### One view of a comparator's registers -/

/-- The key of a comparator in the state. -/
def cmpKey : Cmp → Nat
  | .wm m => m
  | .pc c => 32 + c
  | .ef k => 64 + k

/-- Unit kind and index of a comparator (R12). -/
def cmpUnit : Cmp → Nat × Nat
  | .wm m => (Kind.winMon, m)
  | .pc c => (Kind.podCmp, c)
  | .ef k => (Kind.edgeFlag, k)

/-- Is the threshold of a comparator enabled? An edge flag has one, counted as high. -/
def Dev.cmpEnabled (d : Dev) (c : Cmp) (hi : Bool) : Bool :=
  match c with
  | .wm m => if hi then d.flag F.WM_CFG_en_hi m else d.flag F.WM_CFG_en_lo m
  | .pc c => if hi then d.flag F.WM_PC_CFG_en_hi c else d.flag F.WM_PC_CFG_en_lo c
  | .ef k => hi && d.flag F.WM_EF_CFG_enable k

/-- The threshold of an edge flag: thr, or in TRACK mode the last DV code over 16 times ratio / 1,024, truncated (R113). -/
def Dev.efThreshold (d : Dev) (k : Nat) : Nat :=
  if d.rd F.WM_EF_CFG_thr_mode k = 2 then (d.shunt k).dvCode * d.rd F.WM_EF_CFG_ratio k / (16 * 1024)
  else d.rd F.WM_EF_CFG_thr k

/-- Threshold code and hysteresis in 1/256 steps. -/
def Dev.cmpLevels (d : Dev) (c : Cmp) (hi : Bool) : Int × Int :=
  match c with
  | .wm m => (256 * (if hi then d.rd F.WM_THR_hi m else d.rd F.WM_THR_lo m), 256 * d.rd F.WM_CFG_hyst m)
  | .pc c => (256 * (if hi then d.rd F.WM_PC_THR_hi c else d.rd F.WM_PC_THR_lo c), 256 * d.rd F.WM_PC_CFG_hyst c)
  | .ef k => (256 * d.efThreshold k, 256 * d.rd F.WM_EF_CFG_hyst k)

/-- Filter time in ticks: 5 ns is four ticks (R110). Edge flags have no filter. -/
def Dev.cmpFilter (d : Dev) (c : Cmp) : Nat :=
  match c with
  | .wm m => 4 * d.rd F.WM_CFG_filt m
  | .pc c => 4 * d.rd F.WM_PC_CFG_filt c
  | .ef _ => 0

/-- Is the comparator in LATCH mode (R111)? -/
def Dev.cmpLatches (d : Dev) (c : Cmp) : Bool :=
  match c with
  | .wm m => d.rd F.WM_CFG_latch m == 2
  | .pc c => d.rd F.WM_PC_CFG_latch c == 2
  | .ef _ => false

/-- The filtered output of a threshold. -/
def Dev.cmpLive (d : Dev) (c : Cmp) (hi : Bool) : Bool :=
  match c with
  | .wm m => if hi then d.flag F.WM_STAT_live_hi m else d.flag F.WM_STAT_live_lo m
  | .pc c => if hi then d.flag F.WM_PC_STAT_live_hi c else d.flag F.WM_PC_STAT_live_lo c
  | .ef k => d.flag F.WM_EF_STAT_live k

/-- Set the filtered output of a threshold. -/
def Dev.setLive (d : Dev) (c : Cmp) (hi v : Bool) : Dev :=
  match c with
  | .wm m => if hi then d.put F.WM_STAT_live_hi m v else d.put F.WM_STAT_live_lo m v
  | .pc c => if hi then d.put F.WM_PC_STAT_live_hi c v else d.put F.WM_PC_STAT_live_lo c v
  | .ef k => d.put F.WM_EF_STAT_live k v

/-- The latch bit of a threshold. -/
def Dev.cmpLatched (d : Dev) (c : Cmp) (hi : Bool) : Bool :=
  match c with
  | .wm m => if hi then d.flag F.WM_LATCH_hi m else d.flag F.WM_LATCH_lo m
  | .pc c => if hi then d.flag F.WM_PC_LATCH_hi c else d.flag F.WM_PC_LATCH_lo c
  | .ef _ => false

/-- Set or clear the latch bit of a threshold. -/
def Dev.setLatch (d : Dev) (c : Cmp) (hi v : Bool) : Dev :=
  match c with
  | .wm m => if hi then d.put F.WM_LATCH_hi m v else d.put F.WM_LATCH_lo m v
  | .pc c => if hi then d.put F.WM_PC_LATCH_hi c v else d.put F.WM_PC_LATCH_lo c v
  | .ef _ => d

/-- Show whether a comparator holds in a band (R109). -/
def Dev.showBand (d : Dev) (c : Cmp) : Dev :=
  let v := d.cmp (cmpKey c)
  let b := v.lo.band || v.hi.band
  match c with
  | .wm m => d.put F.WM_STAT_band_hold m b
  | .pc c => d.put F.WM_PC_STAT_band_hold c b
  | .ef k => d.put F.WM_EF_STAT_band_hold k b

/-- Count one activation of a comparator. -/
def Dev.countCmp (d : Dev) (c : Cmp) : Dev :=
  match c with
  | .wm m => d.bump F.WM_STAT_count m
  | .pc c => d.bump F.WM_PC_STAT_count c
  | .ef _ => d

/-! ### Outputs (R108 to R111) -/

/-- One threshold with input x: active beyond its level, inactive beyond level and hysteresis, unchanged in the band; an
output held in its band leaves it at the first exit. -/
def ThrT.follow (v : ThrT) (hi : Bool) (level hyst x now : Int) : ThrT :=
  let on := if hi then level < x else x < level
  let off := if hi then x < level - hyst else level + hyst < x
  let raw := if on then true else if off then false else v.raw
  { raw := raw, band := v.band && !on && !off, changedAt := if raw = v.raw then v.changedAt else now.toNat }

/-- One threshold starts (R109): inactive; held while the input lies in the band; active at once when the input already
lies beyond the active level. -/
def ThrT.start (hi : Bool) (level hyst x now : Int) : ThrT :=
  ({ raw := false, band := true, changedAt := now.toNat } : ThrT).follow hi level hyst x now

/-- Let the raw output of one threshold follow the input. -/
def Dev.followThr (d : Dev) (c : Cmp) (hi : Bool) (fresh : Bool) : Dev :=
  let k := cmpKey c
  let v := d.cmp k
  let (level, hyst) := d.cmpLevels c hi
  let q := if hi then v.hi else v.lo
  let q := if !d.cmpEnabled c hi then {}
    else if fresh then ThrT.start hi level hyst v.input d.time
    else q.follow hi level hyst v.input d.time
  d.setCmp k (if hi then { v with hi := q } else { v with lo := q })

/-- Let both thresholds of a comparator follow its input; `loFresh` and `hiFresh` start them anew. -/
def Dev.followCmp (d : Dev) (c : Cmp) (loFresh hiFresh : Bool) : Dev :=
  ((d.followThr c false loFresh).followThr c true hiFresh).showBand c

/-- A threshold's filtered output is active (R111): in LATCH mode it sets its latch. A latch bit that becomes set, and an activation in LIVE
mode, is counted and reported; edge flags are not. -/
def Dev.activate (d : Dev) (c : Cmp) (hi : Bool) : Dev :=
  let (kind, index) := cmpUnit c
  if d.cmpLatches c && d.cmpLatched c hi || kind == Kind.edgeFlag then d
  else
    let d := if d.cmpLatches c then d.setLatch c hi true else d
    ((d.countCmp c).reportOpen kind index Cls.report (Code.ofFree Config.crossingCode)).noteActivation kind index hi

/-- A threshold that was enabled or disabled has no active output (R109). -/
def Dev.quietThr (d : Dev) (c : Cmp) (hi : Bool) : Dev :=
  if d.cmpLive c hi then
    let d := d.setLive c hi false
    if (cmpUnit c).1 = Kind.winMon then d.noteOutput (cmpUnit c).2 hi false else d
  else d

/-- An output passes to the latch, the report and stopwork once it has lasted for the filter time (R110, R111). A fenced
comparator's outputs are frozen. -/
def Dev.passOutput (d : Dev) (c : Cmp) (hi : Bool) : Dev :=
  let v := d.cmp (cmpKey c)
  let q := if hi then v.hi else v.lo
  let (kind, index) := cmpUnit c
  if d.fenced kind index || q.raw == d.cmpLive c hi || Nat.blt d.time (q.changedAt + d.cmpFilter c) then d
  else
    let d := d.setLive c hi q.raw
    let d := if q.raw then d.activate c hi else d
    let d := if kind = Kind.winMon then d.noteOutput index hi q.raw else d
    d.stopwork

/-! ### Edge flags (R113, R114) -/

/-- Is the edge flag of stage k blanked: fenced, or a switch of the stage on? -/
def Dev.blanked (d : Dev) (k : Nat) : Bool :=
  d.fenced Kind.edgeFlag k || (stagePorts k).any fun p => (d.drv p true).gate || (d.drv p false).gate

/-- Did a switch of stage k turn on at or after device time `since`? -/
def Dev.turnedOnSince (d : Dev) (k since : Nat) : Bool :=
  (stagePorts k).any fun p => [true, false].any fun hi =>
    match (d.drv p hi).onAt with
    | some t => Nat.ble since t
    | none => false

/-- An edge of EFk: its input crossed a switching level. Accepted unless blanked or too soon after the last one, stamped and sent to the
loops of its stage. -/
def Dev.efEdge (d : Dev) (k : Nat) (rising : Bool) : Dev :=
  let v := d.cmp (64 + k)
  let gap := 64 * d.rd F.WM_EF_GAP_gap k
  let tooSoon := match v.lastEdge with
    | some e => Nat.blt d.time (e + gap)
    | none => false
  if !d.flag F.WM_EF_CFG_enable k || d.blanked k || tooSoon then d
  else
    let n := (d.rd F.WM_EF_STAT_edges k + 1) % 65536
    let d := d.setCmp (64 + k) { v with lastEdge := some d.time }
    let d := d.wr F.WM_EF_STAT_edges k n
    let d := if rising then (d.put F.WM_EF_STAT_rise k true).wr64 F.WM_EF_RISE_LO F.WM_EF_RISE_HI k d.time
      else (d.put F.WM_EF_STAT_fall k true).wr64 F.WM_EF_FALL_LO F.WM_EF_FALL_HI k d.time
    (d.sendRec (.edge k rising d.time n)).noteEdge k rising

/-- EFk compares its input with its threshold (R108, R113): a rising edge where the input rises above V(thr), a falling one where it falls
below V(thr − hyst). It has no filter, and `live` shows its output. -/
def Dev.efFollow (d : Dev) (k : Fin 8) : Dev :=
  let was := (d.cmp (64 + k)).hi.raw
  let d := d.followCmp (.ef k) false false
  let now := (d.cmp (64 + k)).hi.raw
  let d := d.put F.WM_EF_STAT_live k now
  if was = now then d else d.efEdge k now

/-- A comparator compares anew; `lo` and `hi` start its thresholds (R109). An edge flag's `live` follows at once; its start is no edge, since
its input crosses nothing (R108). -/
def Dev.compareAnew (d : Dev) (c : Cmp) (lo hi : Bool) : Dev :=
  match c with
  | .ef k =>
    if hi then
      let d := d.followCmp c lo hi
      d.put F.WM_EF_STAT_live k (d.cmp (64 + k)).hi.raw
    else d.efFollow k
  | _ => d.followCmp c lo hi

/-- The set-up of a comparator changed, whose thresholds were enabled as `lo` and `hi` tell and which latched or not: a threshold that is
newly enabled starts inactive, one that is disabled is inactive (R109), an active output sets its latch where LATCH is new (R111), and
stopwork sees the routes (R115). -/
def Dev.cmpChanged (d : Dev) (c : Cmp) (lo hi latched : Bool) : Dev :=
  let lo' := d.cmpEnabled c false
  let hi' := d.cmpEnabled c true
  let d := if lo == lo' then d else d.quietThr c false
  let d := if hi == hi' then d else d.quietThr c true
  let d := d.compareAnew c (!lo && lo') (!hi && hi')
  let take (d : Dev) (h : Bool) : Dev := if d.cmpLatches c && !latched && d.cmpLive c h then d.activate c h else d
  (take (take d false) true).stopwork

/-- The input of a comparator stands at x, in 1/256 steps of its threshold scale. -/
def Dev.cmpInput (d : Dev) (c : Cmp) (x : Int) : Dev :=
  let d := d.setCmp (cmpKey c) { d.cmp (cmpKey c) with input := x }
  match c with
  | .ef k => d.efFollow k
  | _ => d.followCmp c false false

/-! ### Stopwork -/

/-- A FORCE command of the safety controller (R115). -/
def Dev.force (d : Dev) (k : Nat) (off : Bool) : Dev :=
  let d := (d.wr F.WM_SW_CTRL_cmd k (if off then 2 else 1)).wr F.WM_SW_CTRL_status k Code.OK
  let v := d.stop k
  (d.setStop k { v with force := some (off || v.force == some true) }).arbitrate k

/-- RELEASE (R120). -/
def Dev.release (d : Dev) (k : Nat) : Dev :=
  if d.mayRelease k then
    let d := (d.wr F.WM_SW_CTRL_cmd k 3).wr F.WM_SW_CTRL_status k Code.OK
    let d := d.setStop k { d.stop k with force := none }
    let d := (d.put F.WM_SW_STAT_held k false).put F.TB_STG_STAT_tripped k false
    d.wr F.WM_SW_HELD 0 (d.rd F.WM_SW_HELD 0 &&& (2 ^ 21 - 1 - 2 ^ k))
  else d.reject .sc (F.WM_SW_CTRL.off k 0) Reason.value 3

/-- A land TRIP_IN[n] has stood at a level for its filter time (R115). -/
def Dev.tripIn (d : Dev) (n : Nat) (level : Bool) : Dev :=
  let active := level == bitOf (d.rd F.WM_SW_IN_CFG 0) (8 * n + 1)
  let live := d.rd F.WM_SW_IN_STAT_live 0
  let live := if active then live ||| 2 ^ n else live &&& (15 - 2 ^ n)
  let d := d.wr F.WM_SW_IN_STAT_live 0 live
  let d := if active then d.wr F.WM_SW_IN_STAT_seen 0 (d.rd F.WM_SW_IN_STAT_seen 0 ||| 2 ^ n) else d
  d.stopwork

/-! ### The commands -/

/-- COMPARATOR_CROSSING: the input of a comparator stands at x, in 1/256 steps of its threshold scale (R107 to R109). -/
def execComparatorCrossing (t : Nat) (c : Cmp) (x : Int) (s : State) : Host.Outcome State Fault Refusal :=
  effect t s fun d => d.cmpInput c x

/-- FILTERED_OUTPUT_CHANGE: the filter time of a threshold passes (R110, R111). -/
def execFilteredOutputChange (t : Nat) (c : Cmp) (hi : Bool) (s : State) : Host.Outcome State Fault Refusal :=
  effect t s fun d => d.passOutput c hi

/-- Writing 1 to latch bits of a comparator clears them; one whose output is active stays set (R111). -/
def Dev.clearLatch (d : Dev) (c : Cmp) (lo hi : Bool) : Dev :=
  let d := if lo && !d.cmpLive c false then d.setLatch c false false else d
  if hi && !d.cmpLive c true then d.setLatch c true false else d

/-- LATCH_CLEAR: the safety controller writes 1 to latch bits of a comparator. -/
def execLatchClear (t : Nat) (c : Cmp) (lo hi : Bool) (s : State) : Host.Outcome State Fault Refusal :=
  fromFirmware t s fun d =>
    let w := BitVec.ofNat 32 (b2n lo + 2 * b2n hi)
    let off := match c with
      | .wm m => F.WM_LATCH.off m 0
      | .pc k => F.WM_PC_LATCH.off k 0
      | .ef k => F.WM_EF_STAT.off k 0
    if d.fenced (cmpUnit c).1 (cmpUnit c).2 then d.reject .sc off Reason.fenced w else d.clearLatch c lo hi

/-- EDGE_FLAG_EDGE: the input of EFk stands at x, in 1/256 steps of its threshold scale, beyond a switching level (R113, R114). -/
def execEdgeFlagEdge (t : Nat) (k : Fin 8) (x : Int) (s : State) : Host.Outcome State Fault Refusal :=
  effect t s fun d => d.cmpInput (.ef k) x

/-- TRIP_IN_CHANGE: the land TRIP_IN[n] stands at a level since a device time; its change passes the filter of filt × 5 ns, which is
four ticks each (R115). -/
def execTripInChange (t : Nat) (n : Fin 4) (h : HeldLevel) (s : State) : Host.Outcome State Fault Refusal :=
  effect t s fun d =>
    if h.since + 4 * getBits (d.word (F.WM_SW_IN_CFG.off 0 0)) (8 * n + 2) 4 ≤ d.time then d.tripIn n h.level else d

/-- LOW_DELAY_EXPIRY: low_delay after a LOW_ON trip the low switches turn on (R118). -/
def execLowDelayExpiry (t : Nat) (k : Fin 21) (s : State) : Host.Outcome State Fault Refusal :=
  effect t s fun d =>
    let since := d.rd64 F.WM_SW_TIME_LO F.WM_SW_TIME_HI k
    if (d.stop k).lowWait && d.rd F.WM_SW_STAT_action k == 2 && Nat.ble (since + 8 * d.rd F.WM_SW_ACT_low_delay k) d.time then
      (d.setStop k { d.stop k with lowWait := false }).actionAtStage k true
    else d

/-- FORCE_ACT (R115). -/
def execForceAct (t : Nat) (k : Fin 21) (s : State) : Host.Outcome State Fault Refusal :=
  fromFirmware t s fun d => d.force k false

/-- FORCE_OFF (R115). -/
def execForceOff (t : Nat) (k : Fin 21) (s : State) : Host.Outcome State Fault Refusal :=
  fromFirmware t s fun d => d.force k true

/-- RELEASE (R120). -/
def execRelease (t : Nat) (k : Fin 21) (s : State) : Host.Outcome State Fault Refusal :=
  fromFirmware t s fun d => d.release k

end Sys2Proof.Machine
end

