-- ==== Sys2Proof/Machine/Banks.lean ====
section
/-! DEFINITION. Memory banks (chapter 13): bank space as bytes, ownership, handover, ECC events, conflict counters and the
commands of the family. -/

namespace Sys2Proof.Machine

/-- What a byte of bank space reads as that nothing has written: zero (log entry 7). -/
def memReset (_ : Nat) : Byte := 0

/-- The canonical form of bank memory: addresses strictly rising, no listed byte equal to what an unlisted one reads. -/
abbrev Memory.wf (m : Tbl Byte) : Prop := Tbl.Wf memReset m

/-- One byte of bank space, by byte address (R287). -/
def Dev.bankByte (d : Dev) (a : Nat) : Byte := Tbl.get memReset d.mb.mem a

/-- Store one byte of bank space. -/
def Dev.setBankByte (d : Dev) (a : Nat) (v : Byte) : Dev := d.withMb { d.mb with mem := Tbl.set memReset d.mb.mem a v }

/-- The bank of a byte address. -/
def bankOf (a : Nat) : Nat := a / 0x80000 % 16

/-- The word offset of a byte address within its bank. -/
def bankWordOf (a : Nat) : Nat := a % 0x80000 / 4

/-- The aligned word that holds byte address a. -/
def Dev.bankWord (d : Dev) (a : Nat) : Word :=
  let b := a / 4 * 4
  d.bankByte (b + 3) ++ d.bankByte (b + 2) ++ d.bankByte (b + 1) ++ d.bankByte b

/-- Store the low `n` bytes of a value from byte address a onwards, lowest first. -/
def Dev.setBankBytes (d : Dev) (a n : Nat) (v : DWord) : Dev :=
  d.each (List.range n) fun d i => d.setBankByte (a + i) (v.extractLsb' (8 * i) 8)

/-- The `n` bytes at byte address a, all of one word, lowest first. -/
def Dev.bankValue (d : Dev) (a n : Nat) : Word := BitVec.ofNat 32 ((d.bankWord a).toNat / 2 ^ (8 * (a % 4)) % 2 ^ (8 * n))

/-- Which bits of the word at byte address a, its check bits among them, have flipped since it was written (R287). Which SEC-DED
code covers them the spec does not say; only what its check finds shows. -/
def Dev.bankFlips (d : Dev) (a : Nat) : BitVec 39 := Tbl.get (fun _ => 0) d.mb.flips (a / 4)
def Dev.setBankFlips (d : Dev) (a : Nat) (v : BitVec 39) : Dev :=
  d.withMb { d.mb with flips := Tbl.set (fun _ => 0) d.mb.flips (a / 4) v }

/-- How many bits of a word and its check bits are set. -/
def ones39 (v : BitVec 39) : Nat := ((List.range 39).filter fun i => v.getLsbD i).length

/-- What the check of the word at byte address a finds (R294): the flips that it held and those that befell it since. More than two flips
are found as two are (log entry 69). -/
def Dev.bankFinds (d : Dev) (a : Nat) (u : Upset) : Ecc :=
  if u.wrong then .address
  else match ones39 (d.bankFlips a ^^^ u.flips) with
  | 0 => .ok
  | 1 => .corrected
  | _ => .double

/-- The counter index of a master (R288). -/
def masterIndex : BankMaster → Nat
  | .copyA => 0
  | .copyB => 0
  | .engine e => e + 1
  | .ring => 13
  | .imset => 14
  | .can => 15
  | .crypto => 16

/-- The owner code of a master, by its counter index (R288). -/
def ownerCode (m : Nat) : Nat := if m = 0 then 1 else if m ≤ 12 then 2 else m - 10

/-- May master m write bank b now (R288, R297, R298)? While the bank drains, its old class is no owner any more. -/
def Dev.bankOwned (d : Dev) (m b : Nat) : Bool :=
  d.rd F.MB_BANK_STAT_owner b == ownerCode m && !d.flag F.MB_BANK_STAT_draining b

/-- A master waited `ns` nanoseconds for a bank (R299); zero: it did not wait. -/
def Dev.bankWait (d : Dev) (m ns : Nat) : Dev :=
  if ns = 0 then d
  else (d.bump F.MB_CONF_waits m).wr F.MB_CONF_max_wait m (max (d.rd F.MB_CONF_max_wait m) (min ns 255))

/-- A read checks its word (R294): one flipped bit is corrected, written back and counted; a word that cannot be corrected is recorded
and reported, and its flips stay until it is overwritten. A fenced bank reads nothing (R372). -/
def Dev.bankCheck (d : Dev) (a : Nat) (u : Upset) : Dev :=
  let b := bankOf a
  if d.fenced Kind.bank b then d
  else
    let held := d.bankFlips a ^^^ u.flips
    match d.bankFinds a u with
    | .ok => d.setBankFlips a 0
    | .corrected => (d.setBankFlips a 0).bump F.MB_BANK_STAT_ce_cnt b
    | .double | .address =>
      let d := ((d.setBankFlips a held).put F.MB_BANK_STAT_ue b true).bump F.MB_BANK_STAT_ue_cnt b
      let d := d.wr F.MB_UE_ADDR b (bankWordOf a + 2 ^ 17 * b2n u.wrong)
      d.report Kind.bank b Cls.report (Code.ofFree Config.bankErrorCode) (bankWordOf a)

/-- Does a read deliver the word: its bank is not fenced, and the check finds nothing it cannot correct (R294, R372)? -/
def Dev.bankReads (d : Dev) (a : Nat) (u : Upset) : Bool :=
  !d.fenced Kind.bank (bankOf a) && (d.bankFinds a u == .ok || d.bankFinds a u == .corrected)

/-- A write by a non-owner is discarded, counted and reported (R298). -/
def Dev.bankRefuse (d : Dev) (m a : Nat) : Dev :=
  let b := bankOf a
  let d := (d.put F.MB_BANK_STAT_nonowner_wr b true).bump F.MB_BANK_STAT_nonowner_cnt b
  d.report Kind.bank b Cls.report Code.NOT_OWNER (bankWordOf a + 2 ^ 24 * m)

/-- One write access of `n` bytes within a word (R291, R292, R298): a fenced bank discards it (R372). A whole word is written over; a
partial write reads, merges and rechecks its word, and where that cannot be corrected the word stays so (log entry 69). -/
def Dev.bankWritePart (d : Dev) (m a n : Nat) (v : DWord) (u : Upset := {}) : Dev :=
  if d.fenced Kind.bank (bankOf a) then d
  else if d.bankOwned m (bankOf a) then
    (if n = 4 then d.setBankFlips a 0 else d.bankCheck a u).setBankBytes a n v
  else d.bankRefuse m a

/-- How many of `n` bytes from address a lie in its own word (R293). -/
def firstPart (a n : Nat) : Nat := min n (4 - a % 4)

/-! ### Ports (R290) -/

/-- Does a master's access use port A of bank b? The owner class does, but for copy B of the safety controller (R264). -/
def Dev.onPortA (d : Dev) (m : BankMaster) (b : Nat) : Bool := d.bankOwned (masterIndex m) b && m != .copyB

/-- The counter indices served last on ports A and B of bank b. The rotation starts at index 0 (log entry 69). -/
def Dev.lastServed (d : Dev) (b : Nat) : Nat × Nat := Tbl.get (fun _ => (16, 16)) d.mb.last b

/-- How far a counter index stands from its turn, after the one served last. -/
def turnsAway (last m : Nat) : Nat := (m + 16 - last % 17) % 17

/-- Is it the turn of m's access to bank b, while the accesses of `others` wait there (R290)? Port A goes first, and each port serves
its masters in counter-index order, round. -/
def Dev.itsTurn (d : Dev) (m : BankMaster) (b : Nat) (others : List BankMaster) : Bool :=
  let l := if d.onPortA m b then (d.lastServed b).1 else (d.lastServed b).2
  others.all fun o =>
    if d.onPortA o b == d.onPortA m b then Nat.ble (turnsAway l (masterIndex m)) (turnsAway l (masterIndex o)) else d.onPortA m b

/-- The access of m to bank b is served. -/
def Dev.bankServed (d : Dev) (m : BankMaster) (b : Nat) : Dev :=
  let l := d.lastServed b
  let l := if d.onPortA m b then ((masterIndex m), l.2) else (l.1, (masterIndex m))
  d.withMb { d.mb with last := Tbl.set (fun _ => (16, 16)) d.mb.last b l }

/-! ### Accesses of one, two or four bytes (R293) -/

/-- The tables of what split accesses owe and of answers know the copies apart. -/
def masterKey (m : BankMaster) : Nat := if m = .copyB then 17 else masterIndex m

/-- The second part that a split access of a master owes. -/
def Dev.owed (d : Dev) (m : BankMaster) : Option BankPart := Tbl.get (fun _ => none) d.mb.owed (masterKey m)
def Dev.setOwed (d : Dev) (m : BankMaster) (p : Option BankPart) : Dev :=
  d.withMb { d.mb with owed := Tbl.set (fun _ => none) d.mb.owed (masterKey m) p }

/-- What the last access of a master answered. -/
def Dev.bankAnswer (d : Dev) (m : BankMaster) : Option BankAnswer := Tbl.get (fun _ => none) d.mb.answer (masterKey m)
def Dev.answer (d : Dev) (m : BankMaster) (a : BankAnswer) : Dev :=
  d.withMb { d.mb with answer := Tbl.set (fun _ => none) d.mb.answer (masterKey m) (some a) }

/-- May this access of m be served now: it is its turn, and where the master owes the second part of a split access, it is that part,
since the accesses of one master to a bank complete in order (R290, R293)? -/
def Dev.mayAccess (d : Dev) (m : BankMaster) (a n : Nat) (write : Bool) (v : Word) (others : List BankMaster) : Bool :=
  d.itsTurn m (bankOf a) others &&
    match d.owed m with
    | none => true
    | some p => p.addr == a && p.bytes == n && p.write == write && (!write || p.data == v)

/-- What a read answers (R294): the word, zero to an engine, an exception to a copy of the safety controller, an error to the others. -/
def readAnswer (m : BankMaster) (good : Bool) (v : Word) : BankAnswer :=
  if good then .word v
  else match m with
  | .copyA | .copyB => .exception
  | .engine _ => .word 0
  | _ => .error

/-- What a write answers (R298): NOT_OWNER, but nothing of it to an engine, whose run goes on. -/
def Dev.writeAnswer (d : Dev) (m : BankMaster) (a : Nat) : BankAnswer :=
  match m with
  | .engine _ => .done
  | _ => if d.fenced Kind.bank (bankOf a) || d.bankOwned (masterIndex m) (bankOf a) then .done else .notOwner

/-- A read access of one to four bytes, served after a wait. One that crosses a word boundary reads its lower part and owes the rest,
before which another master's access may fall (R293); its last part answers for the whole. -/
def Dev.bankRead (d : Dev) (m : BankMaster) (a n : Nat) (u : Upset) (wait : Nat) : Dev :=
  let d := (d.bankWait (masterIndex m) wait).bankServed m (bankOf a)
  let p := (d.owed m).getD { addr := a, bytes := n, got := 0, bad := false, write := false, data := 0 }
  let k := firstPart a n
  let good := d.bankReads a u && !p.bad
  let v := p.data ||| BitVec.ofNat 32 ((d.bankValue a k).toNat * 2 ^ (8 * p.got))
  let d := d.bankCheck a u
  if k < n then d.setOwed m (some { addr := a + k, bytes := n - k, got := p.got + k, bad := !good, write := false, data := v })
  else (d.setOwed m none).answer m (readAnswer m good v)

/-- A write access of one to four bytes, split likewise; `u` befell the word of a partial write. -/
def Dev.bankWrite (d : Dev) (m : BankMaster) (a n : Nat) (v : Word) (u : Upset) (wait : Nat) : Dev :=
  let d := (d.bankWait (masterIndex m) wait).bankServed m (bankOf a)
  let k := firstPart a n
  let said := d.writeAnswer m a
  let said := match d.owed m with
    | some p => if p.bad then .notOwner else said
    | none => said
  let d := d.bankWritePart (masterIndex m) a k (v.setWidth 64) u
  if k < n then
    d.setOwed m (some { addr := a + k, bytes := n - k, got := k, bad := said == .notOwner, write := true, data := v >>> (8 * k) })
  else (d.setOwed m none).answer m said

/-- The CAN controllers write banks only as they have issued it, in order (R290, R335); the other masters' writes are issued where their
command comes. -/
def Dev.hasIssued (d : Dev) (m : BankMaster) (a n : Nat) (v : Word) : Bool :=
  m != .can || d.mb.issued.head? == some { addr := a, bytes := n, data := v }

/-- The write is done that a master had issued. -/
def Dev.takeIssued (d : Dev) (m : BankMaster) : Dev := if m = .can then d.withMb { d.mb with issued := d.mb.issued.drop 1 } else d

/-- The CAN controllers issue whole-word writes. -/
def Dev.issue (d : Dev) (l : List (Nat × Word)) : Dev :=
  d.withMb { d.mb with issued := d.mb.issued ++ l.map fun e => { addr := e.1, bytes := 4, data := e.2 } }

/-- Ownership is set at seal from MB_BANK_CFG, and MB_BANK_CTRL follows it (R296, R297). -/
def Dev.sealBanks (d : Dev) : Dev :=
  d.each (List.range 16) fun d b =>
    let o := d.rd F.MB_BANK_CFG_owner b
    (d.wr F.MB_BANK_STAT_owner b o).wr F.MB_BANK_CTRL b o

/-- Mark a drain of bank b as in progress or not, in both registers. -/
def Dev.setDrain (d : Dev) (b : Nat) (v : Option (Nat × Nat)) : Dev :=
  let d := d.withMb { d.mb with drain := Tbl.set (fun _ => none) d.mb.drain b v }
  (d.put F.MB_BANK_CTRL_draining b v.isSome).put F.MB_BANK_STAT_draining b v.isSome

/-- Back in SETUP MB_BANK_CTRL follows MB_BANK_CFG again (R297), and a drain in progress is given up. -/
def Dev.unsealBanks (d : Dev) : Dev :=
  d.each (List.range 16) fun d b => (d.setDrain b none).wr F.MB_BANK_CTRL_owner b (d.rd F.MB_BANK_CFG_owner b)

/-- The drain in progress of bank b. -/
def Dev.drainOf (d : Dev) (b : Nat) : Option (Nat × Nat) := Tbl.get (fun _ => none) d.mb.drain b

/-- The safety controller writes MB_BANK_CTRL[b].owner (R297). Before seal the register follows MB_BANK_CFG. -/
def Dev.handover (d : Dev) (b owner : Nat) : Dev :=
  let deny := d.reject .sc (F.MB_BANK_CTRL.off b 0) Reason.value (BitVec.ofNat 32 owner)
  if d.fenced Kind.bank b then d.reject .sc (F.MB_BANK_CTRL.off b 0) Reason.fenced (BitVec.ofNat 32 owner)
  else if b = 0 ∨ 15 ≤ b ∨ 6 < owner ∨ d.flag F.MB_BANK_CTRL_draining b then deny
  else if d.devState ≠ DevSt.sealed ∧ d.devState ≠ DevSt.safe then d
  else
    let d := d.wr F.MB_BANK_CTRL_owner b owner
    if owner = d.rd F.MB_BANK_STAT_owner b then d.wr F.MB_BANK_CTRL_status b Code.OK
    else d.setDrain b (some (owner, d.time))

/-- A drain ends: with the new owner and OK, or after more than 2 µs with the old one and DEADLINE (R297). -/
def Dev.drainEnd (d : Dev) (b : Nat) (inTime : Bool) : Dev :=
  match d.drainOf b with
  | none => d
  | some (owner, _) =>
    let d := d.setDrain b none
    if inTime then (d.wr F.MB_BANK_STAT_owner b owner).wr F.MB_BANK_CTRL_status b Code.OK
    else (d.wr F.MB_BANK_CTRL_status b Code.DEADLINE).reportOpen Kind.bank b Cls.report Code.DEADLINE

/-- SCRUB_READ: the scrubber of bank b reads its next word, in address order, one every interval of the set-up, 800 ticks a microsecond
(R295); its read has the lowest priority, so while other accesses wait there it is not served. -/
def execScrubRead (t : Nat) (b : Fin 16) (r : BankTurn) (s : State) : Host.Outcome State Fault Refusal :=
  effect t s fun d =>
    let w := Tbl.get (fun _ => 0) d.mb.scrub b
    let due := Tbl.get (fun _ => 0) d.mb.scrubAt b + 800 * d.rd F.MB_SCRUB_interval 0
    if d.flag F.MB_SCRUB_enable 0 && !d.fenced Kind.bank b && r.others.isEmpty && Nat.ble due d.time then
      (d.bankCheck (b * 0x80000 + 4 * w) r.upset).pipe fun d =>
        d.withMb { d.mb with scrub := Tbl.set (fun _ => 0) d.mb.scrub b ((w + 1) % 0x20000),
                             scrubAt := Tbl.set (fun _ => 0) d.mb.scrubAt b d.time }
    else d

/-- DRAIN_COMPLETE: every access that bank b had accepted is done, within 2 µs of the write (R297). -/
def execDrainComplete (t : Nat) (b : Fin 16) (s : State) : Host.Outcome State Fault Refusal :=
  effect t s fun d =>
    match d.drainOf b with
    | some (_, since) => d.drainEnd b (Nat.ble d.time (since + 1600))
    | none => d

/-- DRAIN_TIMEOUT: the drain of bank b has taken longer than 2 µs, 1,600 ticks (R297). -/
def execDrainTimeout (t : Nat) (b : Fin 16) (s : State) : Host.Outcome State Fault Refusal :=
  effect t s fun d =>
    match d.drainOf b with
    | some (_, since) => if since + 1600 < d.time then d.drainEnd b false else d
    | none => d

/-- CONF_RESTART: MB_CONF_CTRL.restart zeroes every conflict counter (R299). -/
def execConfRestart (t : Nat) (s : State) : Host.Outcome State Fault Refusal :=
  effect t s fun d => d.each (List.range 17) fun d m => d.wr F.MB_CONF m 0

end Sys2Proof.Machine
end

