-- ==== Sys2Proof/Machine/Quant.lean ====
section
/-! DEFINITION. Loop arithmetic (R157): Q1.31 values as integers in units of 2^-31, exact intermediates, one rounding at
writeback; and the exact roots that the operation set needs. -/

namespace Sys2Proof.Machine

/-- A Q1.31 word as an integer in units of 2^-31 (R8). -/
def q31 (w : Word) : Int := w.toInt

/-- 1.0 in units of 2^-31. -/
def one31 : Int := 2147483648

/-- Does a value leave the Q1.31 range, so that its writeback sets sat (R157)? -/
def qOver (v : Int) : Bool := v < -one31 || one31 - 1 < v

/-- Writeback of a rounded value: the nearer limit where it leaves the range (R157). -/
def qWord (v : Int) : Word := BitVec.ofInt 32 (clampInt (-one31) (one31 - 1) v)

/-- A rational rounded to nearest, halves towards positive (R157). -/
def ratRound (q : Rat) : Int := (q + 1 / 2).floor

/-- A boundary value in Q16.16 enters a loop: divided by F, in units of 2^-31 (R158). -/
def enterLoop (v f : Int) : Int := if f ≤ 0 then 0 else roundDiv (v * one31) f

/-- A Q1.31 value leaves a loop: times F, in Q16.16 (R158). -/
def leaveLoop (x f : Int) : Word := sat32 (roundDiv (x * f) one31)

/-- The largest number of `n` + 1 bits built from the top that a predicate, true below some bound, still accepts. -/
def rootBits (ok : Nat → Bool) : Nat → Nat → Nat
  | 0, r => if ok (r + 1) then r + 1 else r
  | n + 1, r => rootBits ok n (if ok (r + 2 ^ (n + 1)) then r + 2 ^ (n + 1) else r)

/-- The integer square root: the largest r with r·r ≤ x. -/
def isqrt (x : Nat) : Nat := rootBits (fun r => Nat.ble (r * r) x) (Nat.log2 x / 2 + 1) 0

/-- The integer cube root: the largest r with r·r·r ≤ x. -/
def icbrt (x : Nat) : Nat := rootBits (fun r => Nat.ble (r * r * r) x) (Nat.log2 x / 3 + 1) 0

/-- The first 25 significant bits of a number, the bits after them zero. -/
def top25 (n : Nat) : Nat := if n < 2 ^ 25 then n else n / 2 ^ (Nat.log2 n - 24) * 2 ^ (Nat.log2 n - 24)

/-- The square root of a nonnegative rational, truncated towards zero to 25 significant bits (R195). -/
def sqrt25 (x : Rat) : Rat :=
  let k := 26 + Nat.log2 x.den
  (top25 (isqrt (x.num.toNat * 4 ^ k / x.den)) : Int) / (2 ^ k : Int)

/-- The cube root of a natural number, truncated towards zero to 25 significant bits (R195). -/
def cbrt25 (x : Nat) : Rat := (top25 (icbrt (x * 8 ^ 26)) : Int) / (2 ^ 26 : Int)

/-- n / √3 rounded to nearest (R165): it is irrational but for zero, so no half arises. -/
def divRoot3 (n : Int) : Int :=
  let k : Int := ((isqrt (4 * n.natAbs * n.natAbs / 3) + 1) / 2 : Nat)
  if n < 0 then -k else k

/-! ### Logarithm and power of two (R398, R400) -/

/-- 2 · artanh y by its series, for |y| ≤ 1/3: what is left out is below 2^-80. -/
def twoArtanh (y : Rat) : Rat :=
  2 * y * (List.range 25).foldr (fun k r => 1 / ((2 * k + 1 : Nat) : Int) + y * y * r) 0

/-- The natural logarithm of a positive number, to 2^-70 or better: it lies within a factor of 2 of a power of two (log entry 11). -/
def ln (x : Rat) : Rat :=
  let up := Nat.log2 x.num.toNat
  let down := Nat.log2 x.den
  let m := x * ((2 ^ down : Nat) : Int) / ((2 ^ up : Nat) : Int)
  twoArtanh ((m - 1) / (m + 1)) + ((up : Int) - down : Int) * twoArtanh (1 / 3)

/-- A power of two: exact where the exponent is whole, and its fraction's part to 2^-64 otherwise (log entry 11). -/
def exp2 (x : Rat) : Rat :=
  let n := x.floor
  let f := x - n
  let z := f * twoArtanh (1 / 3)
  let e := (List.range 28).foldr (fun k (r : Rat) => 1 + z * r / ((k + 1 : Nat) : Int)) 1
  let e : Rat := (ratRound (e * ((2 ^ 64 : Nat) : Int)) : Rat) / ((2 ^ 64 : Nat) : Int)
  if n < 0 then e / ((2 ^ n.natAbs : Nat) : Int) else e * ((2 ^ n.natAbs : Nat) : Int)

/-! ### Numbers x + y·√3, which SVM computes with (R167) -/

/-- A number (x + y·√3) with rational x and y. -/
structure Surd where
  x : Rat
  y : Rat
  deriving DecidableEq, Repr

/-- A rational as a surd. -/
def Surd.ofRat (q : Rat) : Surd := ⟨q, 0⟩
def Surd.add (a b : Surd) : Surd := ⟨a.x + b.x, a.y + b.y⟩
def Surd.sub (a b : Surd) : Surd := ⟨a.x - b.x, a.y - b.y⟩
def Surd.scale (a : Surd) (k : Rat) : Surd := ⟨a.x * k, a.y * k⟩
def Surd.mul (a b : Surd) : Surd := ⟨a.x * b.x + 3 * a.y * b.y, a.x * b.y + a.y * b.x⟩

/-- The inverse of a nonzero surd. -/
def Surd.inv (a : Surd) : Surd :=
  let n := a.x * a.x - 3 * a.y * a.y
  ⟨a.x / n, -a.y / n⟩

/-- Is x + y·√3 below zero? -/
def Surd.neg (a : Surd) : Bool :=
  if a.x < 0 then (if a.y ≤ 0 then true else decide (3 * a.y * a.y < a.x * a.x))
  else (if a.y < 0 then decide (a.x * a.x < 3 * a.y * a.y) else false)

def Surd.lt (a b : Surd) : Bool := (a.sub b).neg
def Surd.max (a b : Surd) : Surd := if a.lt b then b else a
def Surd.min (a b : Surd) : Surd := if b.lt a then b else a

/-- The floor of q·√3 for an integer q. -/
def floorRoot3 (q : Int) : Int :=
  let r : Int := isqrt (3 * q.natAbs * q.natAbs)
  if q < 0 then -r - 1 else r

/-- A surd in units of 1.0 as a Q1.31 integer, rounded to nearest, halves towards positive (R157). -/
def Surd.round31 (a : Surd) : Int :=
  let n : Int := a.x.den * a.y.den
  let p : Int := a.x.num * a.y.den * one31 * 2 + n
  let q : Int := a.y.num * a.x.den * one31 * 2
  (p + floorRoot3 q) / (2 * n)

end Sys2Proof.Machine
end

