-- ==== Sys2Proof/Machine/Thermal.lean ====
section
/-! DEFINITION. Temperatures (chapter 18): live sensors, the external models, maxima and derating factors. -/

namespace Sys2Proof.Machine

/-- The sensors of a stage (R395): the pods of a heavy stage, the die of a light one. -/
def stageSensors (s : Nat) : List Nat := if s < 14 then stagePorts s else [28 + s]

/-- The neighbour group of a sensor (R395). -/
def sensorGroup (n : Nat) : List Nat :=
  if n < 42 then stagePorts (portStage n)
  else if n < 49 then (List.range 7).map (42 + ·)
  else (List.range 8).map (49 + ·)

/-- Is a sensor fenced? -/
def Dev.tempFenced (d : Dev) (n : Nat) : Bool := d.fenced Kind.temp n

/-- A sensor's reading in Q16.16 °C. -/
def Dev.temp (d : Dev) (n : Nat) : Int := d.rdInt F.THM_TS n

/-- The largest of some readings; `none` where there is none. -/
def largest (l : List Int) : Option Int :=
  l.foldl (init := none) fun best v =>
    match best with
    | none => some v
    | some b => some (if b < v then v else b)

/-- Insert a number into a rising list. -/
def insertInt (v : Int) : List Int → List Int
  | [] => [v]
  | x :: r => if v ≤ x then v :: x :: r else x :: insertInt v r

/-- Twice the median of some readings: the middle one, or the two in the middle of an even number. -/
def median2 (l : List Int) : Int :=
  let r := l.foldl (fun a v => insertInt v a) []
  r.getD ((r.length - 1) / 2) 0 + r.getD (r.length / 2) 0

/-- The tolerance of a sensor's group in °C. -/
def Dev.tempTol (d : Dev) (n : Nat) : Nat :=
  if n < 42 then d.rd F.THM_CC_CFG_tol_pod 0 else if n < 49 then d.rd F.THM_CC_CFG_tol_die 0 else d.rd F.THM_CC_CFG_tol_zone 0

/-- The live sensors of a sensor's group. -/
def Dev.liveGroup (d : Dev) (n : Nat) : List Nat := (sensorGroup n).filter fun k => !d.tempFenced k

/-- Does a reading x of sensor n deviate by more than the tolerance from its group, whose readings are `all`, its own among them? Of two each
deviates from the other; one alone has nothing to deviate from (R396). -/
def Dev.deviatesIn (d : Dev) (n : Nat) (x : Int) (all : List Int) : Bool :=
  let limit : Int := 2 * 65536 * d.tempTol n
  if all.length < 2 then false
  else if all.length = 2 then all.any fun v => decide (limit < (2 * (x - v)).natAbs)
  else decide (limit < (2 * x - median2 all).natAbs)

/-- Does a live sensor deviate from its group by more than the tolerance (R396)? -/
def Dev.deviates (d : Dev) (n : Nat) : Bool := !d.tempFenced n && d.deviatesIn n (d.temp n) ((d.liveGroup n).map d.temp)

/-- Would a fenced sensor that reads x now agree with its neighbours (R380)? -/
def Dev.agrees (d : Dev) (n : Nat) (x : Int) : Bool := !d.deviatesIn n x (x :: (d.liveGroup n).map d.temp)

/-- 150 °C in Q16.16: what a stage reads whose sensors are all fenced (R397). -/
def allFenced : Int := 150 * 65536

/-- The largest live reading of some sensors (R397). -/
def Dev.liveMax (d : Dev) (l : List Nat) : Option Int := largest ((l.filter fun n => !d.tempFenced n).map d.temp)

/-- The largest live reading of stage s, external ones included as THM_DERATE_CFG[0] says (R397). -/
def Dev.stageTemp (d : Dev) (s : Nat) : Int :=
  match d.liveMax (stageSensors s) with
  | none => allFenced
  | some v =>
    let tn := if s < 14 ∧ d.flag F.THM_DERATE_CFG_ext_en 0 = true then [d.rdInt F.THM_TN s] else []
    let pv := if 8 ≤ s ∧ s < 14 ∧ bitOf (d.rd F.THM_DERATE_CFG_pv_mask 0) (s - 8) = true then [d.rdInt F.THM_PVT s] else []
    (largest (v :: tn ++ pv)).getD v

/-- The derating factor of a temperature in Q16.16 (R399). -/
def derateFactor (t tStart tStop : Int) : Int :=
  clampInt 0 65536 (roundDiv (tStop * 65536 - t) (tStop - tStart))

/-- A stage's maximum, its factor and its OVER_TEMP report are renewed (R397, R399). -/
def Dev.derateStage (d : Dev) (s : Nat) : Dev :=
  let k := if s < 14 then 0 else 1
  let t := d.stageTemp s
  let d := d.wrInt F.THM_STAGE_MAX s t
  let f := derateFactor t (d.rd F.THM_DERATE_CFG_t_start k) (d.rd F.THM_DERATE_CFG_t_stop k)
  let d := d.wr F.THM_DERATE s f.toNat
  if f ≤ 0 then
    if d.pw.hot.contains s then d
    else (d.withPw { d.pw with hot := d.pw.hot ++ [s] }).reportOpen Kind.stage s Cls.report Code.OVER_TEMP
  else if 6553 < f then d.withPw { d.pw with hot := d.pw.hot.filter (· != s) }
  else d

/-- Every maximum and factor is renewed (R397, R399). -/
def Dev.derateAll (d : Dev) : Dev :=
  let d := match d.liveMax (List.range 57) with
    | some v => d.wrInt F.THM_MAX 0 v
    | none => d.wrInt F.THM_MAX 0 allFenced
  d.each stages Dev.derateStage

/-- The NTC model of R398, in Q16.16 °C, for a code within its range. -/
def ntcTemp (code r25 beta : Nat) : Int :=
  let r : Rat := (code * 10000 : Int) / (4096 : Int)
  let inv : Rat := 1 / (29815 / 100) + ln (r / ((10 * r25 : Nat) : Int)) / ((beta : Nat) : Int)
  ratRound ((1 / inv - 27315 / 100) * 65536)

/-- A TN code becomes a temperature (R398), and the stage's maximum and factor are renewed with it (R397, R399): the sensor is broken outside
16 to 16,000, and then the reading holds its last value. -/
def Dev.takeTn (d : Dev) (s code : Nat) : Dev :=
  let rest := d.pw.tnBroken.filter (· != s)
  if code < 16 ∨ 16000 < code then d.withPw { d.pw with tnBroken := rest ++ [s] }
  else ((d.withPw { d.pw with tnBroken := rest }).wr F.THM_TN s
    (sat32 (ntcTemp code (d.rd F.THM_NTC_r25 s) (d.rd F.THM_NTC_beta s))).toNat).derateStage s

/-- A PV code becomes a temperature on HS8 to HS13 (R398), and the stage's maximum and factor are renewed (R397, R399). -/
def Dev.takePv (d : Dev) (s code : Nat) : Dev :=
  if s < 8 then d
  else
    let mv : Int := d.rd F.THM_PV_CFG_v0 s
    let slope : Int := d.rd F.THM_PV_CFG_slope s
    let t := roundDiv ((2000 * code - 16384 * mv) * 1000 * 65536) (16384 * slope)
    (d.wr F.THM_PVT s (sat32 t).toNat).derateStage s

end Sys2Proof.Machine
end

