-- ==== Sys2Proof/Machine/Sampling.lean ====
section
/-! DEFINITION. The sampling planner, shunt records, housekeeping and calibration (chapters 02 and 04). -/

namespace Sys2Proof.Machine

/-- The compares that transfer: the writes locked at the deadline instant move into the active compares. With the beat
equal to half the period and outside DIRECT, only shadow A is used (R44, R53). -/
def Dev.applyLocked (d : Dev) (s : Nat) : Dev :=
  (d.stg s).locked.foldl (init := d) fun d w =>
    if w.2.1 then
      (if d.halfBeat s && d.rd F.PG_CFG_mode w.1 != 4 then d else d.wr F.PG_CMP_B_value w.1 w.2.2)
    else d.wr F.PG_CMP_A_value w.1 w.2.2

/-- Insert an edge before the first later one; ties keep their order. -/
def insertEdge (x : Nat × Nat) : List (Nat × Nat) → List (Nat × Nat)
  | [] => [x]
  | y :: r => if x.1 < y.1 then x :: y :: r else y :: insertEdge x r

/-- Edges (time in sixteenths, port of the set) in ascending order, ties by port number (R89). -/
def sortEdges (l : List (Nat × Nat)) : List (Nat × Nat) := l.foldl (fun r x => insertEdge x r) []

/-- One window of a span (R89, R90): it starts a dead time after its edge and ends at the next edge; `base` is added to the
instant. Gives the instant, and whether the window was short. -/
def planWindow (e1 : Nat × Nat) (e2 dt w accept base phase : Nat) (neg : Bool) : Inst × Bool :=
  let start := e1.1 + dt
  let blank : Inst := { phase := phase, neg := neg }
  if start + w ≤ e2 then ({ blank with placed := true, at16 := start + w + base }, false)
  else if start + w ≤ e2 + accept then ({ blank with placed := true, at16 := e2 + base, accepted := true }, false)
  else (blank, true)

/-- Keep an instant only when it lies no later than TB_STG_LIMIT.latest (R59). -/
def Dev.withinLatest (d : Dev) (s : Nat) (i : Inst) : Inst :=
  if i.placed && Nat.blt (16 * d.rd F.TB_STG_LIMIT_latest s) i.at16 then { i with placed := false, accepted := false } else i

/-- Is the half that the coming beat covers the up half: the coming update point, which may be now, lies at t = 0? -/
def Dev.comingUp (d : Dev) (s : Nat) : Bool :=
  !d.halfBeat s || d.carrier s d.time == 0 || Nat.blt (d.period s) (2 * d.carrier s d.time)

/-- The two SINGLE_SHUNT instants on the compares of `d` (R89, R90), with whether each window was short. Where count_mode was changed to UP
after SINGLE_SHUNT was set, which R87 does not refuse, the instants still follow the formulas of R89 with H half the period (no rule says
how they lie; DESIGN CHOICE, log entry 66). -/
def Dev.singleShunt (d : Dev) (s : Nat) : (Inst × Bool) × (Inst × Bool) :=
  let H := d.half16 s
  let up := if d.halfBeat s then d.comingUp s else !d.flag F.SH_CFG_half s
  let base := if !d.halfBeat s && !up then H else 0
  let p0 := (stagePorts s).headD 0
  let edge (k : Nat) : Nat × Nat :=
    let c := if !d.halfBeat s && !up then d.rd F.PG_CMP_B_value (p0 + k) else d.rd F.PG_CMP_A_value (p0 + k)
    (if up then c else H - c, k)
  let dead (k : Nat) : Nat := if up then d.rd F.PG_DT_dt_rise (p0 + k) else d.rd F.PG_DT_dt_fall (p0 + k)
  let w := 16 * (d.rd F.SH_WIN_blank s + d.rd F.SH_WIN_settle s)
  let acc := 16 * d.rd F.SH_WIN_accept s
  match sortEdges [edge 0, edge 1, edge 2] with
  | [e1, e2, e3] =>
    (planWindow e1 e2.1 (dead e1.2) w acc base e1.2 (!up), planWindow e2 e3.1 (dead e2.2) w acc base e3.2 up)
  | _ => (({}, true), ({}, true))

/-- One FIXED instant (R86, R88). -/
def Dev.fixedInst (d : Dev) (s : Nat) (isB : Bool) : Inst :=
  let on := if isB then d.flag F.SH_FIX_B_enable s else d.flag F.SH_FIX_A_enable s
  let off := if isB then d.rd F.SH_FIX_B_offset s else d.rd F.SH_FIX_A_offset s
  if on then { placed := true, at16 := 16 * off } else {}

/-- A span with a missing SINGLE_SHUNT instant extends run_len, and one with both resets it; at short_limit the stage
reports WINDOW_SHORT once (R92). It is done at the update point that opens the span, as 95_what_each_step_holds.md lists the report; R92
itself names no instant (DESIGN CHOICE, log entry 66). -/
def Dev.spanResult (d : Dev) (s : Nat) (both : Bool) : Dev :=
  if both then (d.wr F.SH_STAT_run_len s 0).put F.SH_STAT_short_run s false
  else
    let d := d.bump F.SH_STAT_run_len s
    if Nat.ble (d.rd F.SH_SHORT_short_limit s) (d.rd F.SH_STAT_run_len s) && !d.flag F.SH_STAT_short_run s then
      (d.put F.SH_STAT_short_run s true).report Kind.stage s Cls.report Code.WINDOW_SHORT (d.rd F.SH_STAT_run_len s)
    else d

/-- Note how one instant was planned in SH_STAT (R87, R88, R90): short, accepted or unplaced. -/
def Dev.noteInst (d : Dev) (s : Nat) (wanted short : Bool) (i : Inst) : Dev :=
  if short then (d.put F.SH_STAT_short s true).bump F.SH_STAT_short_cnt s
  else if i.placed then (if i.accepted then d.put F.SH_STAT_accepted s true else d)
  else if wanted then d.put F.SH_STAT_unplaced s true
  else d

/-- May SINGLE_SHUNT instants be placed as things stand (R87): all three generators COMPLEMENTARY, the stage running, not tripped, not
fenced? -/
def Dev.maySample (d : Dev) (s : Nat) : Bool :=
  (stagePorts s).all (fun p => d.rd F.PG_CFG_mode p == 1) && d.flag F.TB_STG_RUN_run s &&
    !d.flag F.TB_STG_STAT_tripped s && !d.fenced Kind.stage s

/-- The planner places instants A and B of the coming beat (R86 to R90), on the compares that will be active, by the conditions of R87
as they stood at the deadline instant. -/
def Dev.plan (d : Dev) (s : Nat) : Dev :=
  let v := if (d.stg s).transfer then d.applyLocked s else d
  let mode := d.rd F.SH_CFG_mode s
  let keep (d : Dev) (a b : Inst) : Dev := d.setStg s { d.stg s with planned := true, nextA := a, nextB := b }
  if mode = 1 then
    let (a, b) := v.singleShunt s
    if (d.stg s).maySample then
      let ia := d.withinLatest s a.1
      let ib := d.withinLatest s b.1
      keep ((d.noteInst s true a.2 ia).noteInst s true b.2 ib) ia ib
    else
      let ia := { a.1 with placed := false, accepted := false }
      let ib := { b.1 with placed := false, accepted := false }
      keep ((d.noteInst s true false ia).noteInst s true false ib) ia ib
  else if mode = 2 then
    let a := d.fixedInst s false
    let b := d.fixedInst s true
    let ia := d.withinLatest s a
    let ib := d.withinLatest s b
    keep ((d.noteInst s a.placed false ia).noteInst s b.placed false ib) ia ib
  else keep d {} {}

/-- The SH_INFO word of a record (R94). -/
def infoWord (i : Inst) (sat trip shifted : Bool) (beat : Nat) : Word :=
  BitVec.ofNat 32 (i.phase + 4 * b2n i.neg + 8 * b2n i.placed + 16 * b2n i.accepted + 32 * b2n sat + 64 * b2n trip +
    128 * b2n shifted + 65536 * (beat % 65536))

/-- A shunt record of the beat of update point `beat` goes to SH_RES, SH_INFO and SH_STAMP and to the engine pool (R94). -/
def Dev.shuntRecord (d : Dev) (s : Nat) (isB : Bool) (current info : Word) (stamp beat : Nat) : Dev :=
  let d := if isB then
      ((d.wr F.SH_RES_B s current.toNat).wr F.SH_INFO_B s info.toNat).wr64 F.SH_STAMP_B_LO F.SH_STAMP_B_HI s stamp
    else
      ((d.wr F.SH_RES_A s current.toNat).wr F.SH_INFO_A s info.toNat).wr64 F.SH_STAMP_A_LO F.SH_STAMP_A_HI s stamp
  d.sendRec (.shunt s isB { current := current, info := info } beat)

/-- The record of an instant that is not placed, at the update point (R94). -/
def Dev.unplacedRecord (d : Dev) (s : Nat) (isB : Bool) (i : Inst) : Dev :=
  if i.placed then d else d.shuntRecord s isB 0 (infoWord i false false false (d.upd s)) d.time (d.upd s)

/-- Were the stage's outputs held at a trip action, or its run 0, at instant h (R94)? A trip clears run, and what holds the outputs after
a release ends when run is written (R56), so that run tells both. -/
def Dev.offAt (d : Dev) (s h : Nat) : Bool :=
  let g := d.stg s
  (!d.flag F.TB_STG_RUN_run s && Nat.ble g.stopAt h) || g.offs.any fun x => Nat.ble x.1 h && Nat.blt h x.2

/-- A code as a shunt converter gives it: 14-bit two's complement on a heavy stage, 16-bit on a light one (R83). -/
def shuntCode (s : Nat) (code : Int) : Int := if heavyStage s then clampInt (-8192) 8191 code else clampInt (-32768) 32767 code

/-- The end values of a shunt converter (R93). -/
def endValue (s : Nat) (code : Int) : Bool :=
  if heavyStage s then code == -8192 || code == 8191 else code == -32768 || code == 32767

/-- A shunt code as Q16.16 amperes before saturation (R93). -/
def Dev.shuntAmps (d : Dev) (s : Nat) (code : Int) : Int :=
  roundDiv ((16 * code - d.rdInt F.SH_CAL_RES_offset s) * d.rd F.SH_SCALE s * 1000000)
    (4096 * (1000000 + d.rdInt F.SH_CAL_RES_gain_err s))

/-- The sample `x` of stage s is converted to `code` (R93, R94): corrected, scaled, formed into a record; `shift` is the delay of its hold
in ticks (R85). A current beyond the Q16.16 range sets sat like an end value: R5 has the unit set its SAT flag, and the record's is the
one there is (DEDUCED, log entry 66). -/
def Dev.sampleDone (d : Dev) (s : Nat) (x : Samp) (code : Int) (shift : Nat) : Dev :=
  let code := shuntCode s code
  let stamp := x.beatAt + x.inst.at16 / 16 + shift
  let amps := d.shuntAmps s code
  let sat := endValue s code || outOf32 amps
  let d := if sat then d.put F.SH_STAT_sat s true else d
  let d := d.setShunt s { d.shunt s with due := (d.shunt s).due.filter fun y => y != x }
  let trip := d.offAt s (stamp + 120)
  let d := d.shuntRecord s x.isB (sat32 amps) (infoWord x.inst sat trip (shift != 0) x.beat) stamp x.beat
  if s = 13 then d.chopperCheck (stamp + 120) (sat32 amps).toInt else d

/-- The oldest sample of instant A or B of stage s that is not yet converted. -/
def Dev.dueSample (d : Dev) (s : Nat) (isB : Bool) : Option Samp := (d.shunt s).due.find? fun x => x.isB == isB

/-- A heavy shunt conversion of instant A or B completes (R84): 100 ns, 80 ticks, after its hold. -/
def Dev.heavyDone (d : Dev) (s : Nat) (isB : Bool) (code : Int) : Dev :=
  match d.dueSample s isB with
  | some x => if x.arrival + 80 ≤ d.time then d.sampleDone s x code 0 else d
  | none => d

/-- The shunt conversion that runs on a light stage's converter completes (R85, R103). One that waited for another urgent conversion was
held late: `late` ticks, on the first CVI edge, 8 ticks at most, after that one ended; it is marked shifted. R85 says so of the other shunt
of CV5, and the model takes it for every wait (DESIGN CHOICE, log entry 66). -/
def Dev.lightDone (d : Dev) (s : Nat) (isB : Bool) (code : Int) (late : Nat) : Dev :=
  let c := lightConv s
  let d := d.takeTriggers c
  match (d.conv c).running with
  | some (.shunt k b n, since) =>
    if k = s ∧ b = isB ∧ d.urgentRipe c = true then
      let d := match (d.shunt s).due.find? fun x => x.isB == isB && x.beat == n with
        | some x =>
          let wait := since - x.arrival
          d.sampleDone s x code (if wait = 0 then 0 else max wait (min late (wait + 8)))
        | none => d
      d.endUrgentConv c
    else d
  | _ => d

/-- A shunt conversion of instant A or B completes (R93, R94). -/
def Dev.shuntDone (d : Dev) (s : Nat) (isB : Bool) (code : Int) (shift : Nat) : Dev :=
  if heavyStage s then d.heavyDone s isB code else d.lightDone s isB code shift

/-- Does a shunt conversion hold the pod converter of stage s now, so that a housekeeping conversion is abandoned and restarts when it
ends (R84)? -/
def Dev.shuntHolds (d : Dev) (s : Nat) : Bool := (d.shunt s).due.any fun x => Nat.ble x.arrival d.time

/-- A housekeeping cycle of beat n starts, or waits for the one in progress (R84). -/
def Dev.hkStart (d : Dev) (s n : Nat) : Dev :=
  let q := d.shunt s
  if q.hk = 0 then d.setShunt s { q with hk := 1, hkUpd := n } else d.setShunt s { q with hkWaits := some n }

/-- A housekeeping cycle ends; one that waits begins (R84). -/
def Dev.hkEnd (d : Dev) (s : Nat) : Dev :=
  let q := d.shunt s
  match q.hkWaits with
  | some n => d.setShunt s { q with hk := 1, hkUpd := n, hkWaits := none }
  | none => d.setShunt s { q with hk := 0 }

/-- A voltage code as Q16.16 volts before saturation (R93). -/
def volts (code scale : Nat) : Int := roundDiv ((code : Int) * scale) 256

/-- A voltage code as Q16.16 volts (R93). -/
def scaleVolts (code scale : Nat) : Word := sat32 (volts code scale)

/-- A voltage that saturates sets the SAT flag of the sensing (R5, R93): SH_STAT.sat is the one it has (DEDUCED, log entry 66). -/
def Dev.noteVolts (d : Dev) (s code scale : Nat) : Dev := if outOf32 (volts code scale) then d.put F.SH_STAT_sat s true else d

/-- A TRACK threshold follows the DV code that a housekeeping cycle renews, and its comparator compares anew (R113). -/
def Dev.trackFollow (d : Dev) (s : Nat) : Dev :=
  if h : s < 8 then (if d.rd F.WM_EF_CFG_thr_mode s = 2 then d.efFollow ⟨s, h⟩ else d) else d

/-- The DAC readback of a heavy stage's pod comparators, in rotation (R112): a wrong code sets dac_err and is reported. -/
def Dev.podReadback (d : Dev) (s code : Nat) : Dev :=
  let r := (d.shunt s).rotation
  let c := 2 * s + r / 2
  let dac := if r % 2 = 0 then d.rd F.WM_PC_THR_lo c else d.rd F.WM_PC_THR_hi c
  let d := d.setShunt s { d.shunt s with rotation := (r + 1) % 4 }
  if 64 < ((code : Int) - 16 * dac).natAbs then
    (d.put F.WM_PC_STAT_dac_err c true).reportOpen Kind.podCmp c Cls.report Code.DAC_MISMATCH
  else d

/-- A housekeeping conversion completes (R84, R93, R112, R398): DV, PV, TN in order, then the set goes to the loop; every 64th
cycle with readback on appends one DAC conversion. One that a shunt trigger met is abandoned and comes again. -/
def Dev.hkResult (d : Dev) (s code : Nat) : Dev :=
  let q := d.shunt s
  if d.shuntHolds s then d
  else if q.hk = 1 then
    let v := scaleVolts code (d.rd F.SH_DV_SCALE s)
    let d := (d.noteVolts s code (d.rd F.SH_DV_SCALE s)).wr F.SH_DV s v.toNat
    ((d.setShunt s { q with hk := 2, dv := v, dvCode := code }).noteGrid).trackFollow s
  else if q.hk = 2 then
    let v : Word := if s < 8 then scaleVolts code (d.rd F.SH_PV_SCALE s) else BitVec.ofNat 32 code
    let d := if s < 8 then d.noteVolts s code (d.rd F.SH_PV_SCALE s) else d
    ((d.wr F.SH_PV s v.toNat).setShunt s { q with hk := 3, pv := v }).takePv s code
  else if q.hk = 3 then
    let d := (d.wr F.SH_TN s code).takeTn s code
    let d := d.sendRec (.house s q.dv q.pv (BitVec.ofNat 32 code) q.hkUpd)
    let n := (q.hkCount + 1) % 64
    let back := d.flag F.WM_PC_CFG_readback (2 * s) || d.flag F.WM_PC_CFG_readback (2 * s + 1)
    let d := d.setShunt s { q with hkCount := n }
    if n = 0 && back then d.setShunt s { d.shunt s with hk := 4 } else d.hkEnd s
  else if q.hk = 4 then (d.podReadback s code).hkEnd s
  else d

/-- How many conversions a calibration takes (R95). -/
def CalOp.conversions : CalOp → Nat
  | .offset => 64
  | .gain => 128
  | .both => 192

/-- A calibration is requested (R95): refused at once on a running stage. The conversions of a light stage's are urgent requests on its
converter. One that comes while another runs starts anew, with its own op (R95 does not say; DESIGN CHOICE, log entry 66). -/
def Dev.calStart (d : Dev) (s : Nat) (op : CalOp) : Dev :=
  let d := d.wr F.SH_CAL_CTRL_op s (match op with | .offset => 1 | .gain => 2 | .both => 3)
  if d.flag F.TB_STG_RUN_run s then (d.put F.SH_CAL_CTRL_busy s false).wr F.SH_CAL_CTRL_status s Code.STAGE_RUNNING
  else
    let d := (d.setShunt s { d.shunt s with cal := some op, calTaken := 0, calZero := 0, calPlus := 0, calMinus := 0 }).put
      F.SH_CAL_CTRL_busy s true
    if heavyStage s || (d.conv (lightConv s)).holdsUrgent (.cal s) then d
    else (d.takeTriggers (lightConv s)).requestUrgent (lightConv s) [(.cal s, d.time)]

/-- One urgent conversion of a light stage's calibration ended with a code (R95): summed, and the next one requested. -/
def Dev.calConversion (d : Dev) (s : Nat) (code : Int) : Dev :=
  let q := d.shunt s
  match q.cal with
  | none => d
  | some op =>
    let n := q.calTaken
    let first := if op = .gain then 0 else 64
    let q := { q with calTaken := n + 1 }
    let q := if n < first then { q with calZero := q.calZero + code }
      else if n < first + 64 then { q with calPlus := q.calPlus + code }
      else { q with calMinus := q.calMinus + code }
    let d := d.setShunt s q
    if n + 1 < op.conversions then d.requestUrgent (lightConv s) [(.cal s, d.time)] else d

/-- The offset that a calibration finds, in 1/16 steps: the mean of 64 conversions with the input shorted (R95). -/
def calOffset16 (zero : Int) : Int := roundDiv zero 4

/-- The gain error in ppm from the sums of 64 conversions at +½ and −½ of the range, against the ideal codes (R95). -/
def calGainPpm (s : Nat) (plus minus : Int) : Int :=
  let ideal : Int := if heavyStage s then 4096 else 16384
  roundDiv ((plus - minus - 128 * ideal) * 1000000) (128 * ideal)

/-- The sum of 64 codes of a stage's converter (R83): no larger than the converter's range allows. -/
def calSum (s : Nat) (sum : Int) : Int :=
  if heavyStage s then clampInt (-524288) 524224 sum else clampInt (-2097152) 2097088 sum

/-- The values that a calibration found take force, or it completes with BROKEN and changes nothing (R95). The bounds are tested on the
values as SH_CAL_RES holds them, rounded to 1/16 step and to whole ppm (R95 does not say whether before or after; DESIGN CHOICE, log
entry 66). -/
def Dev.calValues (d : Dev) (s : Nat) (op : CalOp) (zero plus minus : Int) : Dev :=
  let d := (d.setShunt s { d.shunt s with cal := none }).put F.SH_CAL_CTRL_busy s false
  let off := calOffset16 zero
  let gain := calGainPpm s plus minus
  let offBad := op != .gain && (off < -1024 || 1024 < off)
  let gainBad := op != .offset && (gain < -20000 || 20000 < gain)
  if offBad || gainBad then d.wr F.SH_CAL_CTRL_status s Code.BROKEN
  else
    let d := if op != .gain then d.wrInt F.SH_CAL_RES_offset s off else d
    let d := if op != .offset then d.wrInt F.SH_CAL_RES_gain_err s gain else d
    d.wr F.SH_CAL_CTRL_status s Code.OK

/-- A calibration ends (R95). The sums are of 64 conversions each: input shorted, +½ and −½ of the range. A heavy pod gives them; those
of a light stage are of the urgent conversions that its converter has done, all of them. -/
def Dev.calDone (d : Dev) (s : Nat) (zero plus minus : Int) : Dev :=
  let q := d.shunt s
  match q.cal with
  | none => d
  | some op =>
    if heavyStage s then d.calValues s op (calSum s zero) (calSum s plus) (calSum s minus)
    else if q.calTaken = op.conversions then d.calValues s op q.calZero q.calPlus q.calMinus
    else d

end Sys2Proof.Machine
end

