-- ==== Sys2Proof/Machine/Engines.lean ====
section
/-! DEFINITION. The balance engines (chapter 07): readiness and dispatch of loops, the life of a run, deadline supervision,
coefficient swaps, fences of stages and engines, takeover. -/

namespace Sys2Proof.Machine

/-! ### Loops and their configuration -/

/-- The enabled loops, in number order. -/
def Dev.loops (d : Dev) : List Nat := (List.range 64).filter fun l => d.flag F.BE_LP_CFG_enable l

/-- The home stage of a loop (R152). -/
def Dev.home (d : Dev) (l : Nat) : Nat := d.rd F.BE_LP_CFG_home l

/-- Is the loop AUX (R152)? -/
def Dev.isAux (d : Dev) (l : Nat) : Bool := d.flag F.BE_LP_CFG_role l

/-- The linked stage of a PRIMARY loop, where it drives one (R152). -/
def Dev.linkOf (d : Dev) (l : Nat) : Option Nat :=
  if !d.isAux l && d.flag F.BE_LP_CFG_link_en l && d.rd F.BE_LP_CFG_link l != d.home l then some (d.rd F.BE_LP_CFG_link l)
  else none

/-- Home and linked stage. -/
def Dev.loopStages (d : Dev) (l : Nat) : List Nat := d.home l :: (d.linkOf l).toList

/-- Do loops run in this device state: since seal, and on in SAFE (R156, R374)? -/
def Dev.loopsOn (d : Dev) : Bool := d.devState == DevSt.sealed || d.devState == DevSt.safe

/-- Update a loop's record. -/
def Dev.onLoop (d : Dev) (l : Nat) (f : LoopT → LoopT) : Dev := d.setLoop l (f (d.loop l))

/-- The loops an engine holds, as a 64-bit mask. -/
def Dev.held (d : Dev) (e : Nat) : Nat := d.rd64 F.BE_ENG_LOOPS_LO F.BE_ENG_LOOPS_HI e

/-- The loops an engine holds. -/
def Dev.heldLoops (d : Dev) (e : Nat) : List Nat := (List.range 64).filter fun l => bitOf (d.held e) l

/-- Is a fence of engine e in force at every destination (R177): the pool said so, or 100 ns (80 ticks) have passed? -/
def Dev.fenceHolds (d : Dev) (e : Nat) : Bool :=
  d.fenced Kind.engine e &&
    ((d.eng e).inForce || Nat.ble (d.rd64 F.BE_ENG_DEAD_TIME_LO F.BE_ENG_DEAD_TIME_HI e + 80) d.time)

/-- Is loop l in a run on an engine that holds it? -/
def Dev.runningOn (d : Dev) (l : Nat) : Option Nat :=
  (List.range 12).find? fun e =>
    bitOf (d.held e) l && !d.fenced Kind.engine e && (match (d.eng e).run with | some r => r.loop == l | none => false)

/-- Show a loop's state in BE_LP_STAT: 1 IDLE, 2 WAITING, 3 RUNNING, 4 FENCED, 5 OFF. -/
def Dev.showLoop (d : Dev) (l : Nat) : Dev :=
  let v := d.loop l
  d.wr F.BE_LP_STAT_state l
    (if d.fenced Kind.loop l then 4
     else if !v.live then 5
     else if (d.runningOn l).isSome then 3
     else if v.waiting || v.ready.isSome then 2
     else 1)

/-- Show an engine's state in BE_ENG_STAT: 1 IDLE, 2 RUNNING, 3 SELF_TEST, 4 FENCED; its loops, and the pool's masks. -/
def Dev.showEngine (d : Dev) (e : Nat) : Dev :=
  let v := d.eng e
  let d := d.wr F.BE_ENG_STAT_state e
    (if !v.testing.isEmpty then 3 else if d.fenced Kind.engine e then 4 else if v.run.isSome then 2 else 1)
  let d := if d.fenced Kind.engine e then d else d.wr F.BE_ENG_STAT_loop e (match v.run with | some r => r.loop | none => 0)
  let d := d.wr F.BE_ENG_STAT_loops e (d.heldLoops e).length
  let mask (f : Nat → Bool) : Nat := (List.range 12).foldl (fun m k => m + (if f k then 2 ^ k else 0)) 0
  (d.wr F.BE_POOL_STAT_fenced 0 (mask fun k => d.fenced Kind.engine k)).wr F.BE_POOL_STAT_free 0
    (mask fun k => d.flag F.BE_ENG_STAT_spare k)

/-- Show every engine and every enabled loop. -/
def Dev.showPool (d : Dev) : Dev := (d.each (List.range 12) Dev.showEngine).each d.loops Dev.showLoop

/-! ### Table memory regions -/

/-- The words of a region of table memory, by word index. -/
def Dev.region (d : Dev) (base size : Nat) : Tbl Word :=
  (d.be.lt.filter fun e => Nat.ble base e.1 && Nat.blt e.1 (base + size)).map fun e => ((e.1 - base) / 4, e.2)

/-- Replace the words of a region of table memory, given by word index. -/
def Dev.setRegion (d : Dev) (base size : Nat) (t : Tbl Word) : Dev :=
  let below := d.be.lt.filter fun e => Nat.blt e.1 base
  let above := d.be.lt.filter fun e => Nat.ble (base + size) e.1
  d.withBe { d.be with lt := below ++ t.map (fun e => (base + 4 * e.1, e.2)) ++ above }

/-- Table offsets of a loop's regions (R150). -/
def varBase (l : Nat) : Nat := 0x60000 + 0x400 * l
def parBase (l : Nat) : Nat := 0x70000 + 0x100 * l
def scaleBase (l : Nat) : Nat := 0x74000 + 0x20 * l
def coefBase (l bank : Nat) : Nat := 0x40000 + 0x800 * l + 0x400 * bank
def xchBase : Nat := 0x74800

/-- Word k of a working copy; table words that nothing wrote read zero. -/
def wordOf (t : Tbl Word) (k : Nat) : Word := Tbl.get (fun _ => 0) t k
def setWordOf (t : Tbl Word) (k : Nat) (v : Word) : Tbl Word := Tbl.set (fun _ => 0) t k v

/-- Operation word i of loop l's program (R150, R159). -/
def Dev.opWord (d : Dev) (l i : Nat) : Nat := (d.lt (0x1000 * l + 8 * i)).toNat + 2 ^ 32 * (d.lt (0x1000 * l + 8 * i + 4)).toNat

/-! Fields of an operation word (R159). -/
def opCode (w : Nat) : Nat := w / 2 ^ 58 % 64
def opMod (w : Nat) : Nat := w / 2 ^ 52 % 64
def opDst (w : Nat) : Nat := w / 2 ^ 44 % 256
def opA (w : Nat) : Nat := w / 2 ^ 36 % 256
def opB (w : Nat) : Nat := w / 2 ^ 28 % 256
def opC (w : Nat) : Nat := w / 2 ^ 20 % 256
def opImm (w : Nat) : Nat := w % 2 ^ 20

/-- Word k of coefficient bank `bank` of loop l. -/
def Dev.coef (d : Dev) (l bank k : Nat) : Word := d.lt (coefBase l bank + 4 * k)

/-- The bank of coefficients in force (R187). -/
def Dev.activeBank (d : Dev) (l : Nat) : Nat := d.rd F.BE_LP_SWAP_active l

/-! ### Sections' bounds and coefficient swaps (R184, R185, R187 to R189) -/

/-- The bounds of a section block: its words, or the variables that var_bounds names. -/
def Dev.bounds (d : Dev) (l bank blk : Nat) (v : Nat → Word) : Int × Int :=
  let ctrl := (d.coef l bank (blk + 7)).toNat
  if bitOf ctrl 2 then (q31 (v (ctrl / 256 % 256)), q31 (v (ctrl / 65536 % 256)))
  else (q31 (d.coef l bank (blk + 5)), q31 (d.coef l bank (blk + 6)))

/-- Raise to at least lo, then lower to at most hi (R185): hi wins when they cross. -/
def bound (lo hi y : Int) : Int :=
  let y := if y < lo then lo else y
  if hi < y then hi else y

/-- Does `bound` clamp (R185)? With crossed bounds it does for every value. -/
def clamps (lo hi y : Int) : Bool := decide (y < lo) || decide (hi < if y < lo then lo else y)

/-- The sections of an operation, as (block offset, state variable): one for SECT, mod[5:3] + 1 for CASC. -/
def opSections (w : Nat) : List (Nat × Nat) :=
  if opCode w = 4 then [(opImm w % 256, opC w)]
  else if opCode w = 5 then (List.range (opMod w / 8 + 1)).map fun k => (opImm w % 256 + 8 * k, opC w + 4 * k)
  else []

/-- Clamp y1 and y2 of one section's written state into the bounds of a bank; notes the first operation that clamped. -/
def Dev.swapSection (l bank op : Nat) (x : Dev × Option Nat) (sec : Nat × Nat) : Dev × Option Nat :=
  let d := x.1
  let (lo, hi) := d.bounds l bank sec.1 fun k => d.lt (varBase l + 4 * k)
  [2, 3].foldl (init := x) fun x j =>
    let a := varBase l + 4 * (sec.2 + j)
    let y := q31 (x.1.lt a)
    if clamps lo hi y then (x.1.setLt a (qWord (bound lo hi y)), x.2.orElse fun _ => some op) else x

/-- A pending swap takes effect on the written state (R188, R189). -/
def Dev.applySwap (d : Dev) (l : Nat) : Dev :=
  let bank := d.rd F.BE_LP_SWAP_bank l
  let (d, first) := (List.range (d.rd F.BE_LP_PROG_length l)).foldl (init := (d, none)) fun x i =>
    (opSections (x.1.opWord l i)).foldl (Dev.swapSection l bank i) x
  let d := (d.wr F.BE_LP_SWAP_active l bank).put F.BE_LP_SWAP_pending l false
  let d := (d.wr F.BE_LP_SWAP_status l Code.OK).onLoop l fun v => { v with swapArmed := false, swapDue := false }
  match first with
  | none => d
  | some i =>
    let d := (d.put F.BE_LP_FLAGS_sat l true).put F.BE_LP_FLAGS_swap_clamp l true
    d.report Kind.loop l Cls.report Code.SWAP_CLAMP i

/-- A write of BE_LP_SWAP.bank requests, repeats or cancels a swap (R187). -/
def Dev.requestSwap (d : Dev) (l bank : Nat) : Dev :=
  if d.fenced Kind.loop l then d.wr F.BE_LP_SWAP_status l Code.FENCED
  else
    let d := d.wr F.BE_LP_SWAP_bank l bank
    if bank = d.activeBank l then
      if d.flag F.BE_LP_SWAP_pending l then (d.put F.BE_LP_SWAP_pending l false).wr F.BE_LP_SWAP_status l Code.OK else d
    else if d.flag F.BE_LP_SWAP_pending l then d
    else (d.put F.BE_LP_SWAP_pending l true).onLoop l fun v => { v with swapArmed := false, swapDue := false }

/-! ### Slack and duration (R175) -/

/-- Note the slack of a run, −32,768 for a miss, in the last, window and restart minima. -/
def Dev.noteSlack (d : Dev) (l : Nat) (slack : Int) : Dev :=
  let v := d.loop l
  let s16 := clampInt (-32768) 32767 slack
  let d := d.wrInt F.BE_LP_SLACK_last l s16
  let d := (d.wrInt F.BE_LP_SLACK_MIN_min l (min (d.rdInt F.BE_LP_SLACK_MIN_min l) s16)).put F.BE_LP_SLACK_MIN_restart l false
  let low := min v.winMin s16
  let n := v.winCount + d.rd F.BE_LP_CFG_div l
  if 2 ^ d.rd F.BE_LP_PROG_slack_win l ≤ n then
    (d.wrInt F.BE_LP_SLACK_win_min l low).setLoop l { v with slack := slack, winMin := 32767, winCount := 0 }
  else d.setLoop l { v with slack := slack, winMin := low, winCount := n }

/-- Note the duration of a run in ticks. -/
def Dev.noteDur (d : Dev) (l ticks : Nat) : Dev :=
  let n := min ticks 65535
  (d.wr F.BE_LP_DUR_last l n).wr F.BE_LP_DUR_max l (max n (d.rd F.BE_LP_DUR_max l))

/-- Ticks from now to the next update point of a stage. -/
def Dev.toUpdate (d : Dev) (s : Nat) : Nat :=
  let b := d.beat s
  b - d.carrier s d.time % b

/-! ### Fences of stages and loops (R57, R156, R372) -/

/-- A loop is fenced with its stage (R156, R187): its run leaves no trace, and a pending swap ends with FENCED. -/
def Dev.fenceLoop (d : Dev) (l : Nat) : Dev :=
  if d.fenced Kind.loop l then d
  else
    let d := d.markFenced Kind.loop l true
    let d := d.onLoop l fun v =>
      { v with waiting := false, ready := none, owed := [], moved := [], finished := none, swapArmed := false, swapDue := false }
    let d := d.each (List.range 12) fun d e =>
      match (d.eng e).run with
      | some r => if r.loop = l ∧ d.fenceHolds e = false then d.setEng e { d.eng e with run := some { r with abort := true } } else d
      | none => d
    let d := if d.flag F.BE_LP_SWAP_pending l then
        (d.put F.BE_LP_SWAP_pending l false).wr F.BE_LP_SWAP_status l Code.FENCED
      else d
    (d.postFenced Kind.loop l Cls.c Code.FENCED 2).showLoop l

/-- A stage is fenced with class S (R57, R372): run cleared, the trip action held, its loops fenced with it. -/
def Dev.fenceStage (d : Dev) (s cause sub : Nat) : Dev :=
  if d.fenced Kind.stage s then d
  else
    let d := (d.markFenced Kind.stage s true).put F.TB_STG_STAT_fenced s true
    let d := d.postFenced Kind.stage s Cls.s cause sub
    let d := ((d.endRun s).discardShadows s).arbitrate s
    d.each (d.loops.filter fun l => (d.loopStages l).contains s) Dev.fenceLoop

/-! ### Readiness and dispatch (R153 to R155) -/

/-- Has every record that the loop waits for arrived for the beat? -/
def Dev.allHere (d : Dev) (l : Nat) : Bool :=
  let r := d.recs (d.home l)
  let lat := !d.flag F.BE_LP_IN_lat l || (d.loop l).latHere
  if d.isAux l then lat
  else
    (!d.flag F.BE_LP_IN_sh_a l || r.a.isSome) && (!d.flag F.BE_LP_IN_sh_b l || r.b.isSome) &&
      (!d.flag F.BE_LP_IN_hk l || r.hk.isSome) && lat

/-- Does the pending swap of a loop that becomes ready take effect (R188)? An update point of its home stage has followed the write;
an AUX loop's ready update point is a later one than that. -/
def Dev.swapsNow (d : Dev) (l : Nat) : Bool :=
  let v := d.loop l
  d.flag F.BE_LP_SWAP_pending l && v.swapArmed && (!d.isAux l || Nat.blt v.swapBeat v.beat)

/-- Is a run of loop l in progress whose state can still be written? -/
def Dev.runCounts (d : Dev) (l : Nat) : Bool :=
  match d.runningOn l with
  | some e => (match (d.eng e).run with | some r => !r.abort | none => false)
  | none => false

/-- A loop becomes ready (R153, R154): its parameters are taken (R202) and a swap that an update point followed is applied,
at once when the written state is complete (R188). -/
def Dev.becomeReady (d : Dev) (l : Nat) : Dev :=
  let pars := d.region (parBase l) 0x100
  let swap := d.swapsNow l
  let d := d.onLoop l fun v =>
    { v with waiting := false, ready := some d.be.order, readyAt := d.time, pars := pars, swapDue := swap }
  if swap && (d.loop l).finished.isNone && !d.runCounts l then d.applySwap l else d

/-- The loops of a list that wait and have all their records become ready, on one token. -/
def Dev.wake (d : Dev) (ls : List Nat) : Dev :=
  let d := d.each ls fun d l => if (d.loop l).waiting && d.allHere l then d.becomeReady l else d
  d.withBe { d.be with order := d.be.order + 1 }

/-- May loop l start on engine e now (R151, R155)? -/
def Dev.mayStart (d : Dev) (e l : Nat) : Bool :=
  let v := d.loop l
  bitOf (d.held e) l && v.ready.isSome && v.finished.isNone && !d.fenced Kind.loop l && (d.runningOn l).isNone

/-- Of two ready loops, is x to start before y: the higher priority, then the earlier readiness, then the lower number? -/
def Dev.before (d : Dev) (x y : Nat) : Bool :=
  let p := d.rd F.BE_LP_CFG_prio x
  let q := d.rd F.BE_LP_CFG_prio y
  let a := (d.loop x).ready.getD 0
  let b := (d.loop y).ready.getD 0
  Nat.blt q p || (p == q && (Nat.blt a b || (a == b && Nat.blt x y)))

/-- The loop an idle engine starts (R155). -/
def Dev.pick (d : Dev) (e : Nat) : Option Nat :=
  (d.loops.filter (d.mayStart e)).foldl (init := none) fun best l =>
    match best with
    | none => some l
    | some m => if d.before l m then some l else some m

/-- Clear bits of a word. -/
def clearBits (w : Word) (lo width : Nat) : Word := putBits w lo width 0

/-- A SH_INFO word with its placed bit cleared (R94, R153). -/
def unplaced (r : ShRec) : ShRec := { r with info := clearBits r.info 3 1 }

/-- The records a run takes when it starts (R152): those of its home stage's present beat that have arrived, and for the others the
previous beat's values with placed or valid cleared. -/
def Dev.takeRecs (d : Dev) (l : Nat) : RunRecs :=
  let r := d.recs (d.home l)
  let hk := r.hk.getD r.prevHk
  let lat := d.latRec (d.rd F.BE_LP_IN_lat_port l) (d.home l)
  { a := r.a.getD (unplaced r.prevA), b := r.b.getD (unplaced r.prevB), dv := hk.1, pv := hk.2.1, tn := hk.2.2,
    lat := if lat.beat = some (d.upd (d.home l)) then lat else { lat with info := clearBits lat.info 0 1 },
    rise := r.rise, fall := r.fall, edges := r.edges, beatAt := (d.loop l).beatAt, haveA := r.a.isSome, haveB := r.b.isSome }

/-- Engine e starts loop l. -/
def Dev.startRun (d : Dev) (e l : Nat) : Dev :=
  let d := if (d.loop l).swapDue && d.flag F.BE_LP_SWAP_pending l then d.applySwap l else d
  let v := d.loop l
  let r : Run :=
    { loop := l, beat := v.beat, vars := d.region (varBase l) 0x400, xch := d.region xchBase 0x400, pars := v.pars,
      recs := d.takeRecs l, readyAt := v.readyAt, lastAt := d.time }
  (d.setLoop l { v with ready := none }).setEng e { d.eng e with run := some r }

/-- An idle engine starts its next ready loop (R155). -/
def Dev.dispatch (d : Dev) (e : Nat) : Dev :=
  let v := d.eng e
  if d.fenced Kind.engine e || !v.testing.isEmpty || v.run.isSome then d
  else match d.pick e with
    | none => d
    | some l => d.startRun e l

/-- Every idle engine starts what it can, and the pool's registers follow. -/
def Dev.dispatchAll (d : Dev) : Dev := (d.each (List.range 12) Dev.dispatch).showPool

/-! ### The end of a run (R151, R173, R177) -/

/-- A write of a fenced engine is discarded at its destination (R177): 1 gate, 2 table memory, 3 bank, 4 telemetry. -/
def Dev.fencedWrite (d : Dev) (e l dest bank : Nat) : Dev :=
  let d := d.bump F.BE_ENG_STAT_fenced_writes e
  d.post { kind := Kind.engine, index := e, cls := Cls.report, code := Code.FENCED_WRITE, time := d.time,
           detail := dest + 16 * bank + 256 * l }

/-- Write a run's working copy to table memory (R151) and note the update point of the written run, by number and by device time; count it, and whether
it left the target flag of its stage's drive set (R257). -/
def Dev.writeState (d : Dev) (e l upd stamp : Nat) (vars xch : Tbl Word) (stored : List Nat) : Dev :=
  if d.fenceHolds e then d.fencedWrite e l 2 0
  else
    let d := d.setRegion (varBase l) 0x400 vars
    let d := d.each stored fun d k => d.setLt (xchBase + 4 * k) (wordOf xch k)
    let s := d.home l
    let reached := Nat.ble 15 s && d.lt (xchBase + 4 * d.rd F.SC_DR_CFG_done_x (s - 15)) != 0
    let d := d.onLoop l fun v => { v with wrote := v.wrote + 1, doneAt := stamp, met := if reached then v.met + 1 else 0 }
    let d := d.wr64 F.BE_LP_DONE_LO F.BE_LP_DONE_HI l upd
    (d.wr F.BE_LP_STAT_update l (upd % 65536)).noteGrid

/-- Did every stage the loop drives transfer the target of beat n, as things stand at the later one's update point? -/
def Dev.transferred (d : Dev) (l n : Nat) : Bool :=
  let v := d.loop l
  v.homeOk == n + 1 && ((d.linkOf l).isNone || v.linkOk == n + 1)

/-- The target of beat n of loop l transferred at every stage that the loop drives: its run is no miss, however long it goes on, and its
state is written once it has ended (R151, R173); consec restarts (R174). -/
def Dev.noteTransfer (d : Dev) (l n : Nat) : Dev :=
  if d.transferred l n then
    (d.wr F.BE_LP_STAT_consec l 0).onLoop l fun v =>
      if v.owed.contains n then { v with moved := v.moved ++ [(n, v.homeAt)] } else v
  else d

/-- A finished PRIMARY run is written once its target transferred, and discarded once it was missed (R151). The write of one whose engine
has been fenced since, also if it was re-admitted, is discarded. -/
def Dev.settle (d : Dev) (l : Nat) : Dev :=
  match (d.loop l).finished with
  | none => d
  | some f =>
    match (d.loop l).moved.find? fun x => x.1 == f.beat with
    | some (n, at') =>
      let d := d.onLoop l fun v => { v with finished := none, owed := v.owed.erase n, moved := v.moved.erase (n, at') }
      if f.lost then d.fencedWrite f.engine l 2 0 else d.writeState f.engine l (n + 1) at' f.vars f.xch f.stored
    | none =>
      if (d.loop l).owed.contains f.beat then d
      else d.onLoop l fun v => { v with finished := none }

/-- A missed run counts with a slack of −32,768 (R175). One that is missed after its beat, at a linked stage of later phase, is the
previous beat's for SLACK (R171). -/
def Dev.missSlack (d : Dev) (l beat : Nat) : Dev :=
  let v := d.loop l
  let d := d.noteSlack l (-32768)
  if v.beat = beat then d else d.onLoop l fun w => { w with slack := v.slack, lastSlack := -32768 }

/-- A run of loop l for a beat missed its deadline (R173, R174). A swap that waited for this run stands (R188). -/
def Dev.miss (d : Dev) (l beat detail : Nat) : Dev :=
  let d := if (d.loop l).swapDue && (d.loop l).beat == beat && d.flag F.BE_LP_SWAP_pending l then d.applySwap l else d
  let d := d.onLoop l fun v =>
    let v := { v with owed := v.owed.erase beat, moved := v.moved.filter fun x => x.1 != beat }
    let v := match v.finished with | some f => if f.beat = beat then { v with finished := none } else v | none => v
    if v.beat = beat then { v with waiting := false, ready := none } else v
  let d := d.each (List.range 12) fun d e =>
    match (d.eng e).run with
    | some r =>
      if r.loop = l ∧ r.beat = beat ∧ d.fenceHolds e = false then d.setEng e { d.eng e with run := some { r with abort := true } } else d
    | none => d
  let d := (d.put F.BE_LP_FLAGS_deadline l true).bump F.BE_LP_MISS_misses l
  let d := (d.bump F.BE_LP_STAT_consec l).missSlack l beat
  let d := d.report Kind.loop l Cls.report Code.DEADLINE (detail % 2 ^ 32)
  if d.rd F.BE_LP_CFG_miss_limit l ≤ d.rd F.BE_LP_STAT_consec l then
    d.each (d.loopStages l) fun d s => d.fenceStage s Code.DEADLINE 0
  else d

/-- The deadline instant of update point m of stage s (R51, R173): runs that its transfer should have served are missed
when it will not transfer, and so are AUX runs that have not completed when their loop next becomes ready. -/
def Dev.loopDeadline (d : Dev) (s m : Nat) (transfer : Bool) : Dev :=
  let d := if transfer then d else
    d.each d.loops fun d l =>
      if !d.isAux l && (d.loopStages l).contains s && (d.loop l).owed.contains (m - 1) then d.miss l (m - 1) m else d
  let d := d.each d.loops fun d l =>
    if d.isAux l && d.home l == s && m % d.rd F.BE_LP_CFG_div l == 0 then
      d.each ((d.loop l).owed.filter fun b => Nat.blt b m) fun d b => d.miss l b b
    else d
  d.dispatchAll

/-- The records of a stage's new beat: what arrived becomes the previous beat's (R153). -/
def StageRec.roll (r : StageRec) : StageRec :=
  { r with prevA := r.a.getD r.prevA, prevB := r.b.getD r.prevB, prevHk := r.hk.getD r.prevHk, a := none, b := none, hk := none }

/-- Open beat n for a loop homed on the stage that reached update point n (R152 to R156, R178). -/
def Dev.openBeat (d : Dev) (n l : Nat) : Dev :=
  let d := d.onLoop l fun v =>
    { v with live := true, swapArmed := d.flag F.BE_LP_SWAP_pending l, swapBeat := if v.swapArmed then v.swapBeat else n }
  if d.fenced Kind.loop l || (d.isAux l && n % d.rd F.BE_LP_CFG_div l != 0) then d
  else
    let runs := !d.fenced Kind.engine (d.rd F.BE_LP_STAT_engine l)
    d.onLoop l fun v =>
      { v with beat := n, beatAt := d.time, latHere := false, waiting := runs, ready := none, commits := 0, prevCommits := v.commits,
               prevReadyAt := v.readyAt, lastSlack := v.slack, owed := v.owed ++ [n] }

/-- Update point n of stage s at the engine pool: transferred runs are written, and loops homed there open their beat. -/
def Dev.loopUpdate (d : Dev) (s n : Nat) (transfer : Bool) : Dev :=
  let d := if transfer then
      d.each (d.loops.filter fun l => !d.isAux l && (d.loopStages l).contains s && (d.loop l).live) fun d l =>
        let d := d.onLoop l fun v => if d.home l = s then { v with homeOk := n, homeAt := d.time } else { v with linkOk := n }
        (d.noteTransfer l (n - 1)).settle l
    else d
  let d := d.setRecs s (d.recs s).roll
  if d.loopsOn then
    let ls := d.loops.filter fun l => d.home l == s
    ((d.each ls fun d l => d.openBeat n l).wake ls).dispatchAll
  else d

/-- A commit mark of loop l with the tag of its run's target is released by the TBI gate (R160, R175): at the last one of the run its
slack and duration are noted. That of a linked stage of later phase may come after the home stage's update point: it is the previous
beat's run whose commit it completes. -/
def Dev.commitReleased (d : Dev) (l tag : Nat) : Dev :=
  let s := d.home l
  let n := (d.loopStages l).length
  let guard : Int := d.rd F.TB_STG_LIMIT_guard s
  if tag % 65536 = (d.loop l).beat % 65536 then
    let d := d.onLoop l fun v => { v with prevCommits := v.prevCommits + 1 }
    let v := d.loop l
    if v.prevCommits = n then
      ((d.noteSlack l (v.beatAt - d.time - guard)).onLoop l fun v => { v with lastSlack := v.slack }).noteDur l (d.time - v.prevReadyAt)
    else d
  else
    let d := d.onLoop l fun v => { v with commits := v.commits + 1 }
    let v := d.loop l
    if v.commits = n then (d.noteSlack l (d.toUpdate s - guard)).noteDur l (d.time - v.readyAt) else d

/-- Engine e retires the last operation of its run. -/
def Dev.endOfRun (d : Dev) (e : Nat) (r : Run) : Dev :=
  let d := d.setEng e { d.eng e with run := none }
  let l := r.loop
  if d.fenceHolds e then d.fencedWrite e l 2 0
  else if r.abort then d
  else if d.isAux l then
    let v := d.loop l
    let d := d.bump F.BE_ENG_RUNS e
    if v.owed.contains r.beat then
      let s := d.home l
      let due : Int := d.toUpdate s + (d.rd F.BE_LP_CFG_div l - 1 - (d.upd s - r.beat)) * d.beat s
      let d := (d.noteSlack l (due - d.rd F.TB_STG_LIMIT_guard s)).noteDur l (d.time - r.readyAt)
      let d := (d.onLoop l fun v => { v with owed := v.owed.erase r.beat }).wr F.BE_LP_STAT_consec l 0
      d.writeState e l r.beat r.recs.beatAt r.vars r.xch r.stored
    else d
  else
    let d := d.bump F.BE_ENG_RUNS e
    let f : Finished := { engine := e, beat := r.beat, vars := r.vars, xch := r.xch, stored := r.stored }
    (d.onLoop l fun v => { v with finished := some f }).settle l

/-- An operation of a run retires: the next one follows, or the run ends, or it stops here because it was missed or fenced
(R173, R156). -/
def Dev.retire (d : Dev) (e : Nat) (r : Run) : Dev :=
  let r := { r with pc := r.pc + 1, lastAt := d.time }
  if d.rd F.BE_LP_PROG_length r.loop ≤ r.pc then (d.endOfRun e r).dispatchAll
  else if r.abort then (d.setEng e { d.eng e with run := none }).dispatchAll
  else d.setEng e { d.eng e with run := some r }

/-! ### Dead engines and spares (R176 to R180) -/

/-- The spares that hold no loops, in number order. -/
def Dev.freeSpares (d : Dev) : List Nat := (List.range 12).filter fun e => d.flag F.BE_ENG_STAT_spare e

/-- Do loops of the fenced engine e wait for a spare (R178)? -/
def Dev.loopsWait (d : Dev) (e : Nat) : Bool := d.fenced Kind.engine e && d.held e != 0

/-- The fenced engine that one of n free spares is for (R178, R180): of those whose loops wait, the one declared first whose fence is in
force, where no more than n − 1 were declared before it. -/
def Dev.waitingEngine (d : Dev) (n : Nat) : Option Nat :=
  let ls := (List.range 12).filter d.loopsWait
  let earlier (e : Nat) : Nat := (ls.filter fun x => Nat.blt (d.eng x).deadOrder (d.eng e).deadOrder).length
  (ls.filter fun e => d.fenceHolds e && Nat.blt (earlier e) n).foldl (init := none) fun best e =>
    match best with
    | none => some e
    | some b => if (d.eng e).deadOrder < (d.eng b).deadOrder then some e else some b

/-- Assign all loops of engine e to spare s (R178): they run from their home stages' next update points. -/
def Dev.takeOver (d : Dev) (e s : Nat) : Dev :=
  let ls := d.heldLoops e
  let m := d.held e
  let d := (d.wr64 F.BE_ENG_LOOPS_LO F.BE_ENG_LOOPS_HI e 0).wr64 F.BE_ENG_LOOPS_LO F.BE_ENG_LOOPS_HI s m
  let d := (d.put F.BE_ENG_STAT_spare s false).bump F.BE_POOL_STAT_takeovers 0
  d.each ls fun d l => d.wr F.BE_LP_STAT_engine l s

/-- The pool assigns waiting loops to free spares, the earliest declaration first (R178). -/
def Dev.assignWaiting (d : Dev) : Dev :=
  (d.each (List.range 12) fun d _ =>
    match d.waitingEngine d.freeSpares.length, d.freeSpares with
    | some e, s :: _ => d.takeOver e s
    | _, _ => d).showPool

/-- The pool declares an engine dead (R176): fenced with class C, its run and what its loops waited for lost. Cause: 1
STALL, 2 RESIDUE, 3 DECLARED, 4 SELF_TEST. -/
def Dev.declareDead (d : Dev) (e cause : Nat) : Dev :=
  if d.fenced Kind.engine e then d
  else
    let d := d.markFenced Kind.engine e true
    let v := d.eng e
    let d := (d.wr F.BE_ENG_DEAD e 0).wr F.BE_ENG_DEAD_cause e cause
    let d := match v.run with
      | some r => (d.wr F.BE_ENG_DEAD_loop e r.loop).wr F.BE_ENG_DEAD_op e (r.pc - 1)
      | none => d
    let d := d.wr64 F.BE_ENG_DEAD_TIME_LO F.BE_ENG_DEAD_TIME_HI e d.time
    let d := d.put F.BE_ENG_STAT_spare e false
    let d := d.withBe { d.be with order := d.be.order + 1 }
    let d := d.setEng e { v with deadOrder := d.be.order, inForce := false }
    let d := d.each (d.heldLoops e) fun d l => d.onLoop l fun v => { v with waiting := false, ready := none }
    let word := if cause = 1 then Code.DEADLINE else if cause = 3 then 0 else Code.BROKEN
    (d.postFenced Kind.engine e Cls.c word (if cause = 3 then 1 else 0)).showPool

/-! ### Seal (R156, R178) -/

/-- A loop starts anew; the update point of its last written run stays (R182), like BE_LP_DONE. -/
def Dev.freshLoop (d : Dev) (l : Nat) : Dev := d.setLoop l { doneAt := (d.loop l).doneAt }

/-- At seal each enabled loop is assigned to the engine its configuration names, and the spares are those of BE_POOL_CFG;
fences are kept. -/
def Dev.sealPool (d : Dev) : Dev :=
  let d := d.each (List.range 12) fun d e =>
    let m := d.loops.foldl (fun m l => m + (if d.rd F.BE_LP_CFG_engine l = e then 2 ^ l else 0)) 0
    let d := d.wr64 F.BE_ENG_LOOPS_LO F.BE_ENG_LOOPS_HI e m
    d.put F.BE_ENG_STAT_spare e (bitOf (d.rd F.BE_POOL_CFG_spares 0) e && !d.fenced Kind.engine e)
  let d := d.each d.loops fun d l =>
    let d := (d.wr F.BE_LP_STAT_engine l (d.rd F.BE_LP_CFG_engine l)).freshLoop l
    if (d.loopStages l).any fun s => d.fenced Kind.stage s then d.fenceLoop l else d.markFenced Kind.loop l false
  d.showPool

/-- At unseal loops stop: a run in progress leaves no trace. -/
def Dev.unsealPool (d : Dev) : Dev :=
  let d := d.each (List.range 12) fun d e => d.setEng e { d.eng e with run := none }
  (d.each d.loops Dev.freshLoop).showPool

/-- A stage is re-admitted (R380): its loops are unfenced with consec 0 and run from their written state. -/
def Dev.admitStage (d : Dev) (s : Nat) : Dev :=
  let d := (d.markFenced Kind.stage s false).put F.TB_STG_STAT_fenced s false
  d.each (d.loops.filter fun l => (d.loopStages l).contains s) fun d l =>
    if (d.loopStages l).any fun k => d.fenced Kind.stage k then d
    else ((d.markFenced Kind.loop l false).wr F.BE_LP_STAT_consec l 0).showLoop l

end Sys2Proof.Machine
end

