-- ==== Sys2Proof/Machine/SafeState.lean ====
section
/-! DEFINITION. Device safe state (chapter 17): a class D reaction, which every chapter that decides one calls. -/

namespace Sys2Proof.Machine

/-- A class D decision (R374, R375, R383): the cause's own entry; then, unless the device is in SAFE already, DEV_STATE becomes
SAFE, FLT_SAFE keeps the first cause, stopwork DEVICE acts on every stage, and the SAFE_ENTRY entry names the cause. -/
def Dev.enterSafe (d : Dev) (kind index code detail sub : Nat) : Dev :=
  let d := d.post { kind := kind, index := index, cls := Cls.d, code := code, sub := sub, detail := detail, time := d.time }
  if d.flag F.FLT_SAFE_safe 0 then d
  else
    let d := ((d.wr F.FLT_SAFE_kind 0 kind).wr F.FLT_SAFE_index 0 index).wr F.FLT_SAFE_status 0 code
    let d := (d.put F.FLT_SAFE_safe 0 true).put F.FLT_STAT_safe 0 true
    let d := (d.wr F.DEV_STATE_state 0 DevSt.safe).wr64 F.FLT_SAFE_TIME_LO F.FLT_SAFE_TIME_HI 0 d.time
    let d := d.post { kind := Kind.device, index := 0, cls := Cls.d, code := Code.SAFE_ENTRY, time := d.time,
                      detail := kind + 256 * index + 65536 * code }
    d.stopwork

end Sys2Proof.Machine
end

