-- ==== Sys2Proof/Machine/HostOps.lean ====
section
/-! DEFINITION. Queue pairs (chapter 14): windows, the descriptors a queue pair holds, their end and their order, interrupts,
records; and the device events that sequencers post. -/

namespace Sys2Proof.Machine

/-! ### Descriptors (R308, R309, R311) -/

namespace Op
def NOP : Nat := 0x01
def FENCE : Nat := 0x02
def MEM_WRITE : Nat := 0x03
def MEM_READ : Nat := 0x04
def SNAPSHOT : Nat := 0x05
def ENGINE_ADMIT : Nat := 0x06
def ADMIT : Nat := 0x07
def TM_START : Nat := 0x10
def TM_TARGET : Nat := 0x11
def TM_STOP : Nat := 0x12
def CH_START : Nat := 0x14
def CH_TARGET : Nat := 0x15
def CH_STOP : Nat := 0x16
def LV_START : Nat := 0x18
def LV_TARGET : Nat := 0x19
def LV_STOP : Nat := 0x1A
def DR_START : Nat := 0x1C
def DR_TARGET : Nat := 0x1D
def DR_STOP : Nat := 0x1E
def STREAM_BUF : Nat := 0x20
def CAN_TX : Nat := 0x30
def CAN_RXBUF : Nat := 0x31
def UNSEAL : Nat := 0x40
def IDENTITY : Nat := 0x41
def ATTEST : Nat := 0x42
def SESSION_OPEN : Nat := 0x43
def SESSION_CLOSE : Nat := 0x44
def ENROLL : Nat := 0x45
def REVOKE : Nat := 0x46
def UPDATE_WRITE : Nat := 0x47
def UPDATE_VERIFY : Nat := 0x48
def UPDATE_ACTIVATE : Nat := 0x49
def KEY_LOAD : Nat := 0x4A
def KEY_ERASE : Nat := 0x4B
def RAISE_COUNTER : Nat := 0x4C
def LEDGER_READ : Nat := 0x4D
def LIFETIME_READ : Nat := 0x4E
end Op

/-- Is the deadline of a descriptor binding (R309)? -/
def isTimed (x : Descr) : Bool := bitOf x.flags 0

/-- Does a descriptor start only after every earlier one has completed (R309)? -/
def isSerial (x : Descr) : Bool := bitOf x.flags 1

/-- Does its completion signal at once (R309)? -/
def isUrgent (x : Descr) : Bool := bitOf x.flags 2

/-- The opcodes that pass the validation queue (R314). -/
def validated (op : Nat) : Bool := op == Op.ADMIT || (Nat.ble 0x10 op && Nat.ble op 0x1E && op % 4 != 3)

/-- Device time in units of 1,024 ticks, low 32 bits (R311, R312). -/
def Dev.unit1024 (d : Dev) : Nat := d.time / 1024 % 2 ^ 32

/-- Has a deadline passed: (now − deadline) mod 2^32, read as signed, is zero or more (R311)? -/
def Dev.passed (d : Dev) (deadline : Nat) : Bool := Nat.blt ((d.unit1024 + 2 ^ 32 - deadline % 2 ^ 32) % 2 ^ 32) (2 ^ 31)

/-! ### Windows (R303) -/

/-- First address of a window and the address after its last. -/
def Dev.window (d : Dev) (w : Nat) : Nat × Nat :=
  let b := d.rd64 F.HI_WIN_LO F.HI_WIN_HI w
  (b, b + 4096 * d.rd F.HI_WIN_SIZE_pages w)

/-- Does an enabled window w permit the access? -/
def Dev.windowPermits (d : Dev) (w : Nat) (write : Bool) : Bool :=
  d.flag F.HI_WIN_CFG_enable w && (if write then d.flag F.HI_WIN_CFG_dev_write w else d.flag F.HI_WIN_CFG_dev_read w)

/-- The check of a host address range (R303): RANGE where no enabled window that permits the access holds the start,
LENGTH where the transfer runs past its end, otherwise none. -/
def Dev.checkHost (d : Dev) (addr n : Nat) (write : Bool) : Option Nat :=
  let ws := (List.range 32).filter fun w =>
    d.windowPermits w write && Nat.ble (d.window w).1 addr && Nat.blt addr (d.window w).2
  if ws.isEmpty then some Code.RANGE
  else if ws.any fun w => Nat.ble (addr + n) (d.window w).2 then none
  else some Code.LENGTH

/-- Does a CAN_TX descriptor ask for a remote frame (R331)? -/
def isRtr (x : Descr) : Bool := bitOf x.param1 3

/-- Host bytes that a descriptor reads and those it writes, as lengths to check (R303). -/
def hostReads (x : Descr) : Option Nat :=
  if x.opcode = Op.MEM_WRITE then some x.length
  else if x.opcode = Op.CAN_TX then (if isRtr x then none else some x.length)
  else if [Op.UNSEAL, Op.ATTEST, Op.SESSION_OPEN, Op.ENROLL, Op.REVOKE, Op.UPDATE_WRITE, Op.UPDATE_ACTIVATE, Op.KEY_LOAD,
           Op.KEY_ERASE, Op.RAISE_COUNTER].contains x.opcode then some x.length
  else none

def hostWrites (x : Descr) : Option Nat :=
  if x.opcode = Op.SNAPSHOT then some (4096 * x.length)
  else if [Op.MEM_READ, Op.STREAM_BUF, Op.CAN_RXBUF, Op.IDENTITY, Op.ATTEST, Op.LEDGER_READ, Op.LIFETIME_READ].contains x.opcode then
    some x.length
  else none

/-- The host address range of a descriptor against the windows (R303): a range that is read, then one that is written. -/
def Dev.windowCheck (d : Dev) (x : Descr) : Option Nat :=
  let r := (hostReads x).bind fun n => d.checkHost x.address n false
  if r.isSome then r else (hostWrites x).bind fun n => d.checkHost x.address n true

/-! ### A queue pair and what it holds -/

/-- Kind of a queue pair (R304): 1 COMMAND, 2 TELEMETRY, 3 CAN_TX, 4 CAN_RX, 5 EVENT, 6 MANAGEMENT. -/
def Dev.qpKind (d : Dev) (q : Nat) : Nat := d.rd F.HI_QP_CFG_kind q

/-- Entries of its rings (R305). -/
def Dev.ringSize (d : Dev) (q : Nat) : Nat := 2 ^ d.rd F.HI_QP_CFG_size_log2 q

/-- Is it enabled? -/
def Dev.qpOn (d : Dev) (q : Nat) : Bool := d.flag F.HI_QP_CTRL_enable q

/-- Bases of its rings. -/
def Dev.sqBase (d : Dev) (q : Nat) : Nat := d.rd64 F.HI_QP_SQ_LO F.HI_QP_SQ_HI q
def Dev.cqBase (d : Dev) (q : Nat) : Nat := d.rd64 F.HI_QP_CQ_LO F.HI_QP_CQ_HI q

/-- The numbers of the 64 queue pairs. -/
def queuePairs : List Nat := List.range 64

/-- Has an item ended? -/
def Item.hasEnded (it : Item) : Bool :=
  match it.phase with
  | .ended _ _ _ => true
  | _ => false

/-- Has an item started (it may have ended)? -/
def Item.begun (it : Item) : Bool :=
  match it.phase with
  | .fetched | .received => false
  | _ => true

/-- The opcode of an item, 0 before it was received. -/
def Item.op (it : Item) : Nat :=
  match it.desc with
  | some x => x.opcode
  | none => 0

/-- The item of ring index i. -/
def QpT.item (v : QpT) (i : Nat) : Option Item := v.items.find? fun it => it.index == i

/-- The items ahead of ring index i. -/
def QpT.ahead (v : QpT) (i : Nat) : List Item := v.items.takeWhile fun it => it.index != i

/-- Is it the turn of item i to start: every earlier one has started, no FENCE ahead is still open, and a SERIAL one is alone
(R309, R316, R317)? -/
def QpT.mayStart (v : QpT) (i : Nat) (serial : Bool) : Bool :=
  let a := v.ahead i
  a.all (fun it => it.begun && (it.hasEnded || it.op != Op.FENCE)) && (!serial || a.isEmpty)

/-- The items with f applied to the first one that p picks. -/
def onFirst (p : Item → Bool) (f : Item → Item) : List Item → List Item
  | [] => []
  | it :: r => if p it then f it :: r else it :: onFirst p f r

/-- Items that count as started and not completed (R307): also a read on its way; not one held for its turn. -/
def QpT.inFlight (v : QpT) : Nat :=
  (v.items.filter fun it =>
    it.phase != .received || v.mayStart it.index (match it.desc with | some x => isSerial x | none => false)).length

/-- Update the item of ring index i: the first one, where a queue pair that ends holds an ended one of the ring's next pass behind it
(R318). -/
def Dev.onItem (d : Dev) (q i : Nat) (f : Item → Item) : Dev :=
  d.setQp q { d.qp q with items := onFirst (fun it => it.index == i) f (d.qp q).items }

/-- Show started and not completed descriptors in HI_QP_FLAGS, and whether the queue pair still drains (R318). -/
def Dev.showQp (d : Dev) (q : Nat) : Dev :=
  let v := d.qp q
  let d := d.wr F.HI_QP_FLAGS_in_flight q (min v.inFlight 32)
  if v.items.isEmpty && d.rd F.HI_QP_STAT_sq_head q == v.sqTail then d.put F.HI_QP_CTRL_draining q false else d

/-- A descriptor that ends without a completion leaves a ledger entry of its own (R317). -/
def Dev.ledgerItem (d : Dev) (q : Nat) (it : Item) : Dev :=
  match it.phase with
  | .ended st _ _ =>
    d.post { kind := Kind.queue, index := q, cls := Cls.report, code := st, detail := it.index % 65536 + 65536 * st,
             time := d.time, solo := true }
  | _ => d

/-- On a queue pair whose completion ring can no longer be written, ended descriptors leave in ring order (R317). -/
def Dev.drainItems (d : Dev) (q : Nat) : Dev :=
  let v := d.qp q
  if v.silent then
    let gone := v.items.takeWhile Item.hasEnded
    let d := gone.foldl (fun d it => d.ledgerItem q it) d
    (d.setQp q { v with items := v.items.dropWhile Item.hasEnded, done := v.done + gone.length }).showQp q
  else d.showQp q

/-- The status word of the last completed descriptor of a sequencer's family, and a traction machine's refusals. -/
def Dev.noteLast (d : Dev) (x : Descr) (st : Nat) : Dev :=
  if x.opcode / 4 = 4 ∧ x.target < 2 then
    let d := d.wr F.SC_TM_STAT_last_status x.target st
    if st = Code.SPEED_HIGH ∨ st = Code.NO_CATCH ∨ st = Code.UVLO ∨ st = Code.FENCED then d.bump F.SC_TM_CNT_refusals x.target else d
  else if x.opcode / 4 = 5 then d.wr F.SC_CH_STAT_last_status 0 st
  else if x.opcode / 4 = 6 then d.wr F.SC_LV_STAT_last_status 0 st
  else if x.opcode / 4 = 7 ∧ x.target < 6 then d.wr F.SC_DR_STAT_last_status x.target st
  else d

/-- Show which transmit slots of a controller hold a frame (R332). -/
def Dev.showSlots (d : Dev) (c : Nat) : Dev :=
  d.wr F.CN_STAT_slots c ((d.can c).slots.foldl (fun n k => n ||| 2 ^ k.slot) 0)

/-- The frame of a CAN_TX descriptor leaves its controller: from its slot, or from those that wait for one (R332). -/
def Dev.dropFrame (d : Dev) (q i : Nat) : Dev :=
  let other (f : TxFrame) : Bool := !(f.qp == q && f.index == i)
  d.each (List.range 8) fun d c =>
    let v := d.can c
    if v.frames.all other && v.slots.all (fun k => other k.frame) then d
    else (d.setCan c { v with frames := v.frames.filter other, slots := v.slots.filter fun k => other k.frame }).showSlots c

/-- A descriptor ends: its completion waits for its turn in ring order (R317). One that has ended stays as it is. -/
def Dev.finish (d : Dev) (q i st : Nat) (partly : Bool := false) (detail : Nat := 0) : Dev :=
  match (d.qp q).item i with
  | none => d
  | some it =>
    if it.hasEnded then d
    else
      let d := d.onItem q i fun it => { it with phase := .ended st partly (BitVec.ofNat 32 detail) }
      let d := match it.desc with
        | some x => if x.opcode = 0x30 then d.dropFrame q i else d.noteLast x st
        | none => d
      d.drainItems q

/-- End the descriptor that a sequencer holds as in progress, if any. -/
def Dev.finishJob (d : Dev) (job : Option (Nat × Nat)) (st : Nat) (detail : Nat := 0) : Dev :=
  match job with
  | none => d
  | some (q, i) => d.finish q i st false detail

/-- A descriptor whose opcode is `op` and that stands in phase `ph` starts, when it is its turn: run an effect on it. Windows may have
been disabled since it was received: its host range is held against them again (R303). -/
def Dev.startItem (d : Dev) (q i op : Nat) (ph : Phase) (f : Dev → Descr → Dev) : Dev :=
  match (d.qp q).item i with
  | none => d
  | some it =>
    match it.desc with
    | none => d
    | some x =>
      if it.phase = ph ∧ x.opcode = op ∧ (ph = .handed ∨ (d.qp q).mayStart i (isSerial x) = true) then
        match d.windowCheck x with
        | some st => d.finish q i st
        | none => f ((d.onItem q i fun it => { it with phase := .started }).showQp q) x
      else d

/-! ### Interrupts (R313) -/

/-- A word of the MSI-X table: after reset every vector is masked, as the PCI Express specification has it (log entry 5). -/
def msixReset (k : Nat) : Word := if k % 4 = 3 then 1 else 0
def Dev.msixWord (d : Dev) (k : Nat) : Word := Tbl.get msixReset d.hi.msix k

/-- Deliver a vector: the message, or the pending bit while it is masked. -/
def Dev.deliverVector (d : Dev) (v : Nat) : Dev :=
  if (d.msixWord (4 * v + 3)).getLsbD 0 then
    d.withHi { d.hi with pba := Tbl.set (fun _ => false) d.hi.pba v true }
  else
    let d := d.withHi { d.hi with pba := Tbl.set (fun _ => false) d.hi.pba v false }
    d.emit (.msix v ((d.msixWord (4 * v)).toNat + 2 ^ 32 * (d.msixWord (4 * v + 1)).toNat) (d.msixWord (4 * v + 2)))

/-- A write of the MSI-X table (word k): an unmasked vector that is pending is delivered. -/
def Dev.writeMsix (d : Dev) (k : Nat) (w : Word) : Dev :=
  let d := d.withHi { d.hi with msix := Tbl.set msixReset d.hi.msix k w }
  if k % 4 = 3 && !w.getLsbD 0 && Tbl.get (fun _ => false) d.hi.pba (k / 4) then d.deliverVector (k / 4) else d

/-- Queue pair q signals its vector, if it has claimed one (R313). -/
def Dev.signal (d : Dev) (q : Nat) : Dev :=
  let d := d.setQp q { d.qp q with unsignalled := 0 }
  let v := d.rd F.HI_QP_CFG_vector q
  if d.flag F.HI_QP_CFG_vec_en q && d.holderOf 6 v == some (Kind.queue, q) then d.deliverVector v else d

/-- A completion was written (R313): the vector is signalled at the count, or at once for an URGENT one. -/
def Dev.moderate (d : Dev) (q : Nat) (urgent : Bool) : Dev :=
  let v := d.qp q
  let d := d.setQp q { v with unsignalled := v.unsignalled + 1, unsigAt := if v.unsignalled = 0 then d.time else v.unsigAt }
  if urgent || Nat.ble (d.rd F.HI_QP_MOD_count q) (v.unsignalled + 1) then d.signal q else d

/-! ### Records (R319 to R321) -/

/-- A record sets out for queue pair q. -/
def Dev.sendRecord (d : Dev) (q : Nat) (r : StreamRec) : Dev := d.withHi { d.hi with records := d.hi.records ++ [(q, r)] }

/-- An EVENT record for QP1, and for every other EVENT queue pair whose mask has bit `bit` set (R321, R379). -/
def Dev.sendEvent (d : Dev) (bit : Nat) (body : List Word) : Dev :=
  d.each (queuePairs.filter fun q => q == 1 || d.qpKind q == 5 && bitOf (d.rd F.HI_QP_EVMASK_mask q) bit) fun d q =>
    d.sendRecord q { stamp := d.time, type := 3, body := body }

/-- A sequencer state change (R321): code 1 traction, 2 charging, 3 conversion, 4 drive. -/
def Dev.stateEvent (d : Dev) (code unit old new : Nat) : Dev :=
  d.sendEvent 0
    [lowWord d.time, highWord d.time, BitVec.ofNat 32 (Kind.safety + 65536 * (16 * code)),
     BitVec.ofNat 32 (unit + 256 * old + 65536 * new), lowWord d.time, 1, 0, 0]

end Sys2Proof.Machine
end

