-- ==== Sys2Proof/Machine/Traction.lean ====
section
/-! DEFINITION. The traction sequencer (chapter 09): parameter blocks, the catch, targets, reversal, loss of sets; and what
the four sequencers share. -/

namespace Sys2Proof.Machine

/-! ### Shared by the sequencers -/

/-- The enabled PRIMARY loop homed on a stage (R205). -/
def Dev.primaryLoop (d : Dev) (s : Nat) : Option Nat := d.loops.find? fun l => !d.isAux l && d.home l == s

/-- The enabled PRIMARY loops that drive a stage, as home or as linked stage (R229). -/
def Dev.driving (d : Dev) (s : Nat) : List Nat := d.loops.filter fun l => !d.isAux l && (d.loopStages l).contains s

/-- Is a stage fit to run: enabled with source LOOP, neither fenced nor holding a trip (R205, R229)? -/
def Dev.stageFit (d : Dev) (s : Nat) : Bool :=
  d.flag F.TB_STG_CFG_enable s && d.loopStage s && !d.fenced Kind.stage s && !d.flag F.TB_STG_STAT_tripped s

/-- Has a stage been fenced or tripped, or one of its loops been fenced (R224, R244, R261)? -/
def Dev.stageLost (d : Dev) (s : Nat) : Bool :=
  d.flag F.TB_STG_STAT_fenced s || d.flag F.TB_STG_STAT_tripped s || (d.driving s).any fun l => d.fenced Kind.loop l

/-- Write parameter k of loop l (R208). -/
def Dev.setPar (d : Dev) (l k : Nat) (v : Word) : Dev := d.setLt (parBase l + 4 * k) v

/-- Write several parameters of one loop. -/
def Dev.setPars (d : Dev) (l : Nat) (vs : List (Nat × Word)) : Dev := vs.foldl (fun d e => d.setPar l e.1 e.2) d

/-- An integer as a whole Q16.16 number (R208). -/
def wholeQ (n : Int) : Word := sat32 (n * 65536)

/-- A rational as Q16.16, rounded to nearest (R417), saturating as R5 states. -/
def ratQ (x : Rat) : Word := sat32 (ratRound (x * 65536))

/-- How many runs the loops of a list have written. -/
def Dev.written (d : Dev) (ls : List Nat) : List (Nat × Nat) := ls.map fun l => (l, (d.loop l).wrote)

/-- Has a loop written two runs since the counts of a block were taken (R218)? -/
def Dev.twoRuns (d : Dev) (base : List (Nat × Nat)) (l : Nat) : Bool :=
  base.any fun e => e.1 == l && Nat.ble (e.2 + 2) (d.loop l).wrote

/-- The sign of a Q16.16 value: is it negative? -/
def negQ (w : Word) : Bool := w.msb

/-- Write run = 0 to every stage of a list. -/
def Dev.stopStages (d : Dev) (ss : List Nat) : Dev := d.each ss Dev.stopStage

/-! ### Machines and sets (R205, R207) -/

/-- The sets a machine names. -/
def Dev.tmSets (d : Dev) (m : Nat) : List Nat := (List.range 4).filter fun k => bitOf (d.rd F.SC_TM_CFG_sets m) k

/-- The stages of the sets a machine names. -/
def Dev.tmStages (d : Dev) (m : Nat) : List Nat := (d.tmSets m).map fun k => 4 * m + k

/-- Is set k of machine m available (R205)? -/
def Dev.setAvailable (d : Dev) (m k : Nat) : Bool :=
  d.stageFit (4 * m + k) && (match d.primaryLoop (4 * m + k) with | some l => !d.fenced Kind.loop l | none => false)

/-- The available sets of a machine. -/
def Dev.availableSets (d : Dev) (m : Nat) : List Nat := (d.tmSets m).filter (d.setAvailable m)

/-- The DC-link voltage of a machine: SH_DV of its lowest-numbered available set, else of the reference set (R207). -/
def Dev.linkVolts (d : Dev) (m : Nat) : Rat := d.q16 F.SH_DV (4 * m + ((d.availableSets m).head?.getD (d.refSet m)))

/-- State of a machine (R212). -/
def Dev.tmState (d : Dev) (m : Nat) : Nat := d.rd F.SC_TM_STAT_state m

/-- A machine changes its state, which is posted as a device event (R212, R321). -/
def Dev.tmGo (d : Dev) (m new : Nat) : Dev :=
  let old := d.tmState m
  if old = new then d else (d.wr F.SC_TM_STAT_state m new).stateEvent 1 m old new

/-- Does back-EMF at speed n (Q16.16) exceed a voltage? -/
def Dev.emfAbove (d : Dev) (m : Nat) (n : Int) (volts : Rat) : Bool :=
  decide (volts < ((n.natAbs : Int) : Rat) / 65536 * d.q16 F.SC_TM_KE m)

/-! ### The parameter block (R208, R209) -/

/-- The loops a machine's sequencer serves, in loop-number order. -/
def Dev.tmLoops (d : Dev) (m : Nat) : List Nat :=
  let sets := (d.tmStages m).filterMap d.primaryLoop
  (List.range 64).filter fun l => sets.contains l || (d.flag F.SC_TM_CFG_fusee_en m && l == d.rd F.SC_TM_CFG_fusee_loop m)

/-- K of set k (R208): update point u + K of the reference set is the last one at or before update point u of set k. -/
def Dev.angleOffset (d : Dev) (m k : Nat) : Int :=
  let s := 4 * m + k
  let r := 4 * m + d.refSet m
  let span : Int := (((d.stg s).beatAt : Int) - (d.stg r).beatAt) / (max 1 (d.beat r) : Nat)
  signed 16 (unsigned 16 ((d.upd r : Int) + span - d.upd s))

/-- Number of set bits of the low four. -/
def count4 (n : Nat) : Nat := ((List.range 4).filter fun k => bitOf n k).length

/-- The set that a loop serves, if any. -/
def Dev.setOfLoop (d : Dev) (m l : Nat) : Option Nat := (d.tmSets m).find? fun k => d.primaryLoop (4 * m + k) == some l

/-- Write the whole block of a machine to every loop it serves. -/
def Dev.tmBlock (d : Dev) (m : Nat) : Dev :=
  let v := d.tmOf m
  d.each (d.tmLoops m) fun d l =>
    let set := d.setOfLoop m l
    let lag := match set with
      | some k => sat32 (roundDiv ((k * d.rd F.SC_TM_SETSTEP m : Nat) : Int) 65536)
      | none => 0
    let off := match set with
      | some k => wholeQ (v.offsets.getD k 0)
      | none => 0
    d.setPars l
      [(48, wholeQ v.pmode), (49, if v.pmode = 3 then v.target else 0), (50, if v.pmode = 4 then v.target else 0),
       (51, v.seed), (52, wholeQ (d.rd F.SC_TM_STAT_token m)), (53, wholeQ (count4 (d.rd F.SC_TM_STAT_active m))),
       (54, lag), (55, off), (56, v.angle), (57, wholeQ (signed 16 (v.angleUpd % 65536))),
       (58, wholeQ (d.tmSets m).length)]

/-- Note a change of what the sequencer carries. -/
def Dev.onTm (d : Dev) (m : Nat) (f : TmT → TmT) : Dev := d.setTm m (f (d.tmOf m))

/-- A seed (R208, R216, R220): the seed speed, an advanced token, and K of every set computed anew. -/
def Dev.tmSeed (d : Dev) (m : Nat) (speed : Word) : Dev :=
  let d := d.wr F.SC_TM_STAT_token m ((d.rd F.SC_TM_STAT_token m + 1) % 256)
  d.onTm m fun v => { v with seed := speed, offsets := (List.range 4).map (d.angleOffset m) }

/-- The descriptor in progress of a machine ends. -/
def Dev.tmFinish (d : Dev) (m st : Nat) : Dev := (d.finishJob (d.tmOf m).job st).onTm m fun v => { v with job := none }

/-- Another descriptor comes into progress with its mode and target; the one it supersedes ends with STALE first (R213). -/
def Dev.tmSupersede (d : Dev) (m : Nat) (job : Nat × Nat) (mode : Nat) (target : Word) : Dev :=
  (d.tmFinish m Code.STALE).onTm m fun v => { v with job := some job, mode := mode, target := target }

/-- Every set stage stops and the loops read STOPPED (R221). -/
def Dev.tmRest (d : Dev) (m : Nat) : Dev :=
  let d := (d.stopStages (d.tmStages m)).wr F.SC_TM_STAT_active m 0
  (d.onTm m fun v => { v with pmode := 0 }).tmBlock m

/-! ### Start, target, stop (R210 to R213, R216, R219 to R222, R227) -/

/-- Does a stage hold LOW_ON? -/
def Dev.holdsLowOn (d : Dev) (s : Nat) : Bool := d.flag F.WM_SW_STAT_held s && d.rd F.WM_SW_STAT_action s == 2

/-- Has an edge-flag comparator of the measurement been blanked since it began, or does a set of the machine hold LOW_ON (R215,
R227)? -/
def Dev.tmHidden (d : Dev) (m : Nat) : Bool :=
  let v := d.tmOf m
  (d.tmStages m).any d.holdsLowOn ||
    (d.refSet m :: v.other.toList).any fun k => d.blanked (4 * m + k) || d.turnedOnSince (4 * m + k) v.since

/-- The machine begins to measure its speed (R214, R215). With one available set there is no other comparator. -/
def Dev.tmMeasure (d : Dev) (m : Nat) : Dev :=
  let r := d.refSet m
  let sets := d.availableSets m
  let other := if sets.length ≤ 1 then none else sets.find? fun k => Nat.blt r k
  let d := d.onTm m fun v => { v with since := d.time, edges := 0, e1 := 0, e2 := 0, ej := none, other := other }
  (d.onTm m fun v => { v with hidden := d.tmHidden m }).tmGo m 3

/-- A target for a machine that is on its way or runs (R213, R220, R222). -/
def Dev.tmTarget (d : Dev) (m q i mode : Nat) (target : Word) : Dev :=
  let v := d.tmOf m
  let st := d.tmState m
  let speed := d.word (F.SC_TM_SPEED.off m 0)
  let same := v.mode == mode && v.target == target
  if st = 2 ∨ st = 8 then d.finish q i Code.OK
  else if st = 6 then
    if v.pmode = 4 ∧ mode = 2 ∧ negQ target ≠ negQ speed ∧ target ≠ 0 ∧ d.rd F.SC_TM_REENGAGE m < speed.toInt.natAbs then
      let d := d.onTm m fun v => { v with job := some (q, i), mode := mode, target := target, since := d.time }
      (d.tmRest m).tmGo m 7
    else
      let d := if v.pmode = 3 ∧ mode = 2 then d.tmSeed m speed else d
      let d := d.onTm m fun v => { v with mode := mode, target := target, pmode := mode + 2 }
      (d.tmBlock m).finish q i Code.OK
  else if same then d.finish q i Code.OK
  else
    let d := d.tmSupersede m (q, i) mode target
    if st = 7 ∧ ¬(mode = 2 ∧ negQ target = negQ v.target) then d.tmMeasure m else d

/-- TM_START, handed on by the validation queue. -/
def Dev.tmStart (d : Dev) (q i : Nat) (x : Descr) : Dev :=
  let m := x.target
  let target := lowWord (x.param2 % 2 ^ 32)
  if 2 ≤ m then d.finish q i Code.RANGE_VALUE
  else if !d.flag F.SC_TM_CFG_enable m then d.finish q i Code.FENCED
  else if !d.isSealed then d.finish q i Code.NOT_SEALED
  else if d.tmState m = 1 then d.finish q i Code.FENCED
  else if d.tmState m = 2 ∨ d.tmState m = 8 then
    if (d.availableSets m).length < d.rd F.SC_TM_CFG_min_sets m then d.finish q i Code.FENCED
    else
      let d := d.wr F.SC_TM_STAT_lost m 0
      (d.tmSupersede m (q, i) (x.param1 % 4) target).tmMeasure m
  else d.tmTarget m q i (x.param1 % 4) target

/-- The machine stops and coasts (R221, R227); the descriptor in progress ends with `word` first. -/
def Dev.tmStop (d : Dev) (m word : Nat) : Dev := ((d.tmFinish m word).tmRest m).tmGo m 2

/-- TM_START: the descriptor at ring index i of queue pair q, accepted by validation. -/
def execTmStart (t : Nat) (q : Fin 64) (i : Nat) (s : State) : Host.Outcome State Fault Refusal :=
  effect t s fun d => d.startItem q i Op.TM_START .handed fun d x => d.tmStart q i x

/-- TM_TARGET, accepted by validation. -/
def execTmTarget (t : Nat) (q : Fin 64) (i : Nat) (s : State) : Host.Outcome State Fault Refusal :=
  effect t s fun d => d.startItem q i Op.TM_TARGET .handed fun d x =>
    if 2 ≤ x.target then d.finish q i Code.RANGE_VALUE
    else if d.tmState x.target = 1 then d.finish q i Code.FENCED
    else d.tmTarget x.target q i (x.param1 % 4) (lowWord (x.param2 % 2 ^ 32))

/-- TM_STOP, accepted by validation: every set stage stops and the machine coasts. -/
def execTmStop (t : Nat) (q : Fin 64) (i : Nat) (s : State) : Host.Outcome State Fault Refusal :=
  effect t s fun d => d.startItem q i Op.TM_STOP .handed fun d x =>
    if 2 ≤ x.target then d.finish q i Code.RANGE_VALUE
    else if d.tmState x.target = 1 then d.finish q i Code.FENCED
    else (d.tmStop x.target Code.STALE).finish q i Code.OK

/-! ### The catch (R214 to R219) -/

/-- A start is refused: the descriptor ends, the machine stays stopped and coasts (R216). -/
def Dev.tmRefuse (d : Dev) (m st : Nat) : Dev := (d.tmFinish m st).tmGo m 2

/-- The mask of a list of sets. -/
def setMask (ks : List Nat) : Nat := ks.foldl (fun n k => n + 2 ^ k) 0

/-- A catch opens with mode `pmode` in the block; the runs written so far are noted for R218. -/
def Dev.tmOpen (d : Dev) (m pmode new : Nat) : Dev :=
  let ls := (d.tmStages m).filterMap d.primaryLoop
  let d := (d.onTm m fun v => { v with pmode := pmode }).tmBlock m
  (d.onTm m fun v => { v with base := d.written ls }).tmGo m new

/-- The sets that a catch takes: the available ones, but for those lost since the last TM_START (R226). -/
def Dev.tmJoining (d : Dev) (m : Nat) : List Nat :=
  (d.availableSets m).filter fun k => !bitOf (d.rd F.SC_TM_STAT_lost m) k

/-- The speed is known: none for a standstill, otherwise Q16.16 turns/s (R216). -/
def Dev.tmDecide (d : Dev) (m : Nat) (speed : Option Int) : Dev :=
  let sets := d.tmJoining m
  if sets.length < max 1 (d.rd F.SC_TM_CFG_min_sets m) then d.tmRefuse m Code.FENCED
  else
    match speed with
    | none => (d.wr F.SC_TM_STAT_active m (setMask sets)).tmOpen m 1 4
    | some n =>
      if d.rd F.SC_TM_CATCH m < n.natAbs ∨ d.emfAbove m n (d.linkVolts m) = true then d.tmRefuse m Code.SPEED_HIGH
      else if (sets.flatMap fun k => stagePorts (4 * m + k)).any fun p =>
          Nat.blt (10 * d.rd F.PP_SUPPLY_hi_supply p) (d.uvloRise p) then d.tmRefuse m Code.UVLO
      else
        let d := d.wr F.SC_TM_STAT_active m (setMask sets)
        (d.tmSeed m (sat32 n)).tmOpen m 2 5

/-- The speed that two successive rising edges of the reference comparator and the first one of the other comparator after them
give, Q16.16 (R215). -/
def Dev.edgesSpeed (d : Dev) (m t1 t2 tj : Nat) : Int :=
  let dt := max 1 (t2 - t1)
  let n : Rat := 800000000 / ((d.rd F.SC_TM_CFG_pole_pairs m * dt : Nat) : Rat)
  (ratQ (if 2 * (tj - t2) < dt then n else -n)).toInt

/-- The result of a sensorless measurement (R215): speed and sign from the last two edges and the other comparator's. -/
def Dev.sensorlessSpeed (d : Dev) (m : Nat) (tj : Nat) : Int :=
  let v := d.tmOf m
  d.edgesSpeed m v.e1 v.e2 tj

/-- Since when no switch of a stage has been on. -/
def Dev.quietFrom (d : Dev) (s : Nat) : Nat :=
  (stagePorts s).foldl (fun n p => max n (max (d.drv p true).offAt (d.drv p false).offAt)) (d.stg s).stopAt

/-- The speed of a coasting sensorless machine, from the last rising edges since its ports were last on, where three edges of the
reference set r and one of the next available set j give one; zero where none came on r for catch_time (R207, R215, R222). There is none
while a held LOW_ON or a blanked comparator hides the back-EMF. -/
def Dev.coastSpeed (d : Dev) (m : Nat) : Option Int :=
  let v := d.tmOf m
  let ss := d.tmStages m
  let r := d.refSet m
  let other := (d.availableSets m).find? fun k => Nat.blt r k
  if ss.any (fun s => d.flag F.TB_STG_RUN_run s || d.holdsLowOn s) || (r :: other.toList).any fun k => d.blanked (4 * m + k) then none
  else
    let from_ := ss.foldl (fun n s => max n (d.quietFrom s)) 0
    if max v.refEdge from_ + 800000 * d.rd F.SC_TM_TIMES_catch_time m ≤ d.time then some 0
    else
      let of (k : Nat) : List Nat := (v.rises.filter fun e => e.1 == k && Nat.ble from_ e.2).map Prod.snd
      match other with
      | none => none
      | some j =>
        let after (t : Nat) : Option Nat := (of j).reverse.find? fun x => Nat.blt t x
        match of r with
        | t3 :: t2 :: t1 :: rest =>
          (match after t3, rest with
           | some tj, _ => some (d.edgesSpeed m t2 t3 tj)
           | none, _ :: _ => (after t2).map fun tj => d.edgesSpeed m t1 t2 tj
           | none, [] => none)
        | _ => none

/-- The catch angle of a sensorless machine and the update point it is given for (R215): p[56] and p[57]. -/
def Dev.catchAngle (d : Dev) (m : Nat) (n : Int) : Dev :=
  let v := d.tmOf m
  let r := 4 * m + d.refSet m
  let tu := d.time + d.toUpdate r
  let turn : Rat := ((tu - v.e2 : Nat) : Rat) / ((max 1 (v.e2 - v.e1) : Nat) : Rat)
  let start : Rat := (d.rd F.SC_TM_EFANG m : Rat) / 4294967296
  d.onTm m fun v => { v with angle := ratQ (if n < 0 then start - turn else start + turn), angleUpd := (d.upd r + 1) % 65536 }

/-- Is the machine sensorless? -/
def Dev.sensorless (d : Dev) (m : Nat) : Bool := d.flag F.SC_TM_CFG_sensorless m

/-- The position port of a machine runs and is locked (R214). -/
def Dev.portLocked (d : Dev) (i : Nat) : Bool := d.flag F.PS_STAT_running i && d.flag F.PS_STAT_locked i

/-- Refresh SC_TM_SPEED with a value of now (R207). -/
def Dev.tmSpeed (d : Dev) (m : Nat) (n : Word) : Dev :=
  (d.wr F.SC_TM_SPEED m n.toNat).onTm m fun v => { v with speedAt := some d.time }

/-- TM_CATCH_DECISION: the speed becomes known in MEASURING. `mv` are the high-side supplies of the machine's twelve
ports, in millivolts, as PP_SUPPLY then shows them. -/
def execTmCatchDecision (t : Nat) (m : Fin 2) (mv : List Nat) (s : State) : Host.Outcome State Fault Refusal :=
  effect t s fun d =>
    if d.tmState m ≠ 3 then d
    else
      let d := d.each (List.range (min 12 mv.length)) fun d k => d.supplyAt (12 * m + k) true (mv.getD k 0)
      if d.sensorless m then
        match (d.tmOf m).ej with
        | none => d
        | some tj =>
          if (d.tmOf m).hidden || d.tmHidden m then d.tmRefuse m Code.NO_CATCH
          else
            let n := d.sensorlessSpeed m tj
            ((d.tmSpeed m (sat32 n)).catchAngle m n).tmDecide m (some n)
      else
        let p := d.rd F.SC_TM_CFG_pos_port m
        if d.portLocked p then
          let n := d.word (F.PS_OBS_SPEED.off p 0)
          let d := (d.tmSpeed m n).onTm m fun v => { v with angle := 0, angleUpd := 0 }
          d.tmDecide m (if d.flag F.PS_STAT_still p then none else some n.toInt)
        else d

/-- REVERSING reaches the re-engage speed, or a sensorless machine saw no edge for catch_time (R222). -/
def Dev.tmReengage (d : Dev) (m : Nat) : Dev :=
  let v := d.tmOf m
  let slow := if d.sensorless m then
      Nat.ble (max v.refEdge v.since + 800000 * d.rd F.SC_TM_TIMES_catch_time m) d.time
    else Nat.ble (d.word (F.SC_TM_SPEED.off m 0)).toInt.natAbs (d.rd F.SC_TM_REENGAGE m)
  if d.tmState m = 7 ∧ slow = true then d.tmMeasure m else d

/-- CATCH_TIME_EXPIRY: catch_time ends while the sequencer collects edges or waits for lock (R214, R215), or a sensorless
machine coasts towards a reversal (R222). -/
def execCatchTimeExpiry (t : Nat) (m : Fin 2) (s : State) : Host.Outcome State Fault Refusal :=
  effect t s fun d =>
    let v := d.tmOf m
    if d.tmState m = 7 ∧ d.sensorless m = true then d.tmReengage m
    else if d.tmState m ≠ 3 ∨ d.time < v.since + 800000 * d.rd F.SC_TM_TIMES_catch_time m then d
    else if d.sensorless m then
      if v.hidden || d.tmHidden m then d.tmRefuse m Code.NO_CATCH
      else if v.edges = 0 then (d.onTm m fun v => { v with angle := 0, angleUpd := 0 }).tmDecide m none
      else if v.ej.isNone then d.tmRefuse m Code.NO_CATCH
      else d
    else if d.portLocked (d.rd F.SC_TM_CFG_pos_port m) then d
    else d.tmRefuse m Code.NO_CATCH

/-- The stages of a machine's active sets. -/
def Dev.activeStages (d : Dev) (m : Nat) : List Nat :=
  ((List.range 4).filter fun k => bitOf (d.rd F.SC_TM_STAT_active m) k).map fun k => 4 * m + k

/-- PRECHARGE_EXPIRY: precharge × 10 µs after the last set has started, the machine enters CATCHING from standstill (R217). -/
def execPrechargeExpiry (t : Nat) (m : Fin 2) (s : State) : Host.Outcome State Fault Refusal :=
  effect t s fun d =>
    let ss := d.activeStages m
    let last := ss.foldl (fun n k => max n (d.stg k).startAt) 0
    if d.tmState m = 4 ∧ (ss.all fun k => d.flag F.TB_STG_RUN_run k) = true ∧
        last + 8000 * d.rd F.SC_TM_TIMES_precharge m ≤ d.time then
      (d.tmSeed m 0).tmOpen m 2 5
    else d

/-- A sequencer starts a set's stage once its loop has written two runs (R218). -/
def Dev.tmStartSet (d : Dev) (s : Nat) : Dev :=
  let m := s / 4
  if (d.tmState m = 4 ∨ d.tmState m = 5) ∧ (d.activeStages m).contains s = true ∧ d.stageFit s = true then
    match d.primaryLoop s with
    | some l => if d.twoRuns (d.tmOf m).base l then d.startStage s else d
    | none => d
  else d

/-- Update points of stage s after time `since`, up to its present beat. -/
def Dev.updatesSince (d : Dev) (s since : Nat) : Nat :=
  ((d.stg s).beatAt - since + (d.beat s - 1)) / max 1 (d.beat s)

/-- CATCH_HOLD_DONE: every available set runs and catch_hold update points of the reference set have passed (R219). -/
def execCatchHoldDone (t : Nat) (m : Fin 2) (s : State) : Host.Outcome State Fault Refusal :=
  effect t s fun d =>
    let ss := d.activeStages m
    let last := ss.foldl (fun n k => max n (d.stg k).droveAt) 0
    if d.tmState m = 5 ∧ (ss.all fun k => d.flag F.TB_STG_STAT_running k) = true ∧
        d.rd F.SC_TM_TIMES_catch_hold m ≤ d.updatesSince (4 * m + d.refSet m) last then
      let d := (d.onTm m fun v => { v with pmode := v.mode + 2 }).tmBlock m
      ((d.tmGo m 6).bump F.SC_TM_CNT_catches m).tmFinish m Code.OK
    else d

/-- REENGAGE: a reversing machine reaches the re-engage speed. -/
def execReengage (t : Nat) (m : Fin 2) (s : State) : Host.Outcome State Fault Refusal :=
  effect t s fun d => d.tmReengage m

/-! ### Speed and uncontrolled generation (R207, R223) -/

/-- Is SC_TM_SPEED no older than 100 µs (R207)? -/
def Dev.tmFresh (d : Dev) (m : Nat) : Bool :=
  match (d.tmOf m).speedAt with
  | some t => Nat.ble d.time (t + 80000)
  | none => false

/-- The check for uncontrolled generation, while no set runs and the speed is fresh (R223). -/
def Dev.ucgCheck (d : Dev) (m : Nat) : Dev :=
  if ((d.tmStages m).any fun s => d.flag F.TB_STG_RUN_run s) || !d.tmFresh m then d
  else
    let n := (d.word (F.SC_TM_SPEED.off m 0)).toInt
    let v := d.linkVolts m
    if d.emfAbove m n v then
      if d.flag F.SC_TM_STAT_ucg m then d
      else ((d.put F.SC_TM_STAT_ucg m true).bump F.SC_TM_CNT_ucg m).post
        { kind := Kind.stage, index := 4 * m + d.refSet m, cls := Cls.report, code := Code.UNCONTROLLED,
          detail := unsigned 32 n, time := d.time }
    else if ((n.natAbs : Int) : Rat) / 65536 * d.q16 F.SC_TM_KE m < v * 98 / 100 then d.put F.SC_TM_STAT_ucg m false
    else d

/-- SPEED_REFRESH: the sequencer of an enabled machine refreshes SC_TM_SPEED; that of a sensorless one from the edges of its
comparators, and it keeps its last value while its ports switch (R207, R215). -/
def execSpeedRefresh (t : Nat) (m : Fin 2) (s : State) : Host.Outcome State Fault Refusal :=
  effect t s fun d =>
    if d.tmState m = 1 then d
    else
      let d := if d.sensorless m then (match d.coastSpeed m with | some n => d.tmSpeed m (sat32 n) | none => d)
        else d.tmSpeed m (d.word (F.PS_OBS_SPEED.off (d.rd F.SC_TM_CFG_pos_port m) 0))
      d.ucgCheck m

/-! ### Losing a set (R224, R225) -/

/-- The sets of a machine that are lost now. -/
def Dev.tmLost (d : Dev) (m : Nat) : List Nat :=
  (List.range 4).filter fun k => bitOf (d.rd F.SC_TM_STAT_active m) k && d.stageLost (4 * m + k)

/-- One lost set leaves the machine (R224). -/
def Dev.tmDrop (d : Dev) (m k : Nat) : Dev :=
  let d := d.wr F.SC_TM_STAT_active m (d.rd F.SC_TM_STAT_active m - 2 ^ k)
  let d := (d.wr F.SC_TM_STAT_lost m (d.rd F.SC_TM_STAT_lost m ||| 2 ^ k)).bump F.SC_TM_CNT_losses m
  d.post { kind := Kind.stage, index := 4 * m + k, cls := Cls.report, code := Code.FENCED, detail := m, time := d.time }

/-- The machine goes on without a set: a LOW_ON it holds is turned off below the uncontrolled-generation speed (R225). -/
def Dev.tmIdleSet (d : Dev) (m k : Nat) : Dev :=
  let s := 4 * m + k
  let n := (d.word (F.SC_TM_SPEED.off m 0)).toInt
  if d.holdsLowOn s && !d.emfAbove m n (d.linkVolts m) then d.force s true else d

/-- The reaction to sets lost in PRECHARGE, CATCHING and RUNNING (R224). -/
def Dev.tmSetLoss (d : Dev) (m : Nat) : Dev :=
  let st := d.tmState m
  let lost := d.tmLost m
  if ¬(st = 4 ∨ st = 5 ∨ st = 6) ∨ lost = [] then d
  else
    let r := d.refSet m
    let rs := 4 * m + r
    let refGone := lost.contains r &&
      (d.flag F.TB_STG_STAT_fenced rs || (d.driving rs).any fun l => d.fenced Kind.loop l)
    let d := d.each lost fun d k => d.tmDrop m k
    if d.rd F.SC_TM_CFG_min_sets m ≤ count4 (d.rd F.SC_TM_STAT_active m) ∧ refGone = false then
      (d.tmBlock m).each lost fun d k => d.tmIdleSet m k
    else ((d.tmRest m).tmGo m 8).tmFinish m Code.FENCED

/-- TM_SET_LOSS: the sequencer reacts to a set fenced or tripped. -/
def execTmSetLoss (t : Nat) (m : Fin 2) (s : State) : Host.Outcome State Fault Refusal :=
  effect t s fun d => d.tmSetLoss m

end Sys2Proof.Machine
end

