-- ==== Sys2Proof/Machine/Charging.lean ====
section
/-! DEFINITION. The charging and the conversion sequencer (chapter 10): pilot evaluation, charging sessions, hard stops, the
HV-to-LV converter. -/

namespace Sys2Proof.Machine

/-! ### Charger -/

/-- Is a stage available to a sequencer (R229)? -/
def Dev.stageAvailable (d : Dev) (s : Nat) : Bool := d.stageFit s && (d.driving s).any fun l => !d.fenced Kind.loop l

/-- The charger's stages. -/
def chStages : List Nat := [8, 9, 10, 11]

/-- The loops the charging sequencer serves, in loop-number order (R230): the PRIMARY loops that drive its stages, as home or as linked
stage (R152). -/
def Dev.chLoops (d : Dev) : List Nat := d.loops.filter fun l => chStages.any fun s => (d.driving s).contains l

/-- State of the charger (R238). -/
def Dev.chState (d : Dev) : Nat := d.rd F.SC_CH_STAT_state 0

/-- The charger changes its state, which is posted as a device event. -/
def Dev.chGo (d : Dev) (new : Nat) : Dev :=
  let old := d.chState
  if old = new then d else (d.wr F.SC_CH_STAT_state 0 new).stateEvent 2 0 old new

/-- Change what the sequencer carries. -/
def Dev.onCh (d : Dev) (f : Ch → Ch) : Dev := d.withCh (f d.ch)

/-- Does the pilot show C, or D where it is accepted (R240)? -/
def Dev.cpReady (d : Dev) : Bool :=
  let cp := d.rd F.SC_CH_STAT_cp 0
  cp == 3 || (cp == 4 && d.flag F.SC_CH_CFG_vent_ok 0)

/-- √3 × a / b rounded to nearest, b positive. -/
def root3Round (a : Int) (b : Nat) : Int :=
  let r : Int := (((isqrt (12 * a.natAbs * a.natAbs)) + b) / (2 * b) : Nat)
  if a < 0 then -r else r

/-- The power that √3 × line voltage × allowed current gives, in Q16.16 kW (R240). -/
def Dev.supplyPower (d : Dev) : Int :=
  let v := d.lineVolts * (d.rd F.SC_CH_STAT_i_allow 0 : Nat) * 65536 / 1000
  clampInt (-2147483648) 2147483647 (root3Round v.num v.den)

/-- The power limit p[49] (R240, R241). -/
def Dev.chPower (d : Dev) : Word :=
  let cmd : Int := d.ch.power.toNat
  let top : Int := d.rd F.SC_CH_PMAX 0
  if d.ch.mode = 2 then sat32 (min cmd top)
  else if d.rd F.SC_CH_STAT_i_allow 0 < 6 then 0
  else sat32 (min (min cmd top) d.supplyPower)

/-- The current p[51] (R240, R241). -/
def Dev.chAmps (d : Dev) : Word :=
  if d.ch.mode = 2 then wholeQ (d.rd F.SC_CH_LIM_imax 0) else wholeQ (d.rd F.SC_CH_STAT_i_allow 0)

/-- The running stages of the charger as a mask. -/
def Dev.chActive (d : Dev) : Nat := setMask ((List.range 4).filter fun k => d.flag F.TB_STG_STAT_running (8 + k))

/-- Write the charger block to every loop served (R230, R240, R241). -/
def Dev.chBlock (d : Dev) : Dev :=
  let d := d.wr F.SC_CH_STAT_active 0 d.chActive
  let d := d.onCh fun c => { c with p49 := d.chPower, p51 := d.chAmps }
  let c := d.ch
  d.each d.chLoops fun d l => d.setPars l
    [(48, wholeQ c.pmode), (49, c.p49), (50, c.volt), (51, c.p51), (52, wholeQ (d.rd F.SC_CH_BUS_bus_target 0)),
     (53, wholeQ (d.rd F.SC_CH_BUS_v_export 0)), (54, wholeQ (d.rd F.SC_CH_BUS_f_export 0)),
     (55, wholeQ (d.rd F.SC_CH_STAT_active 0))]

/-- All four stages stop, the loops read STOPPED, the charger is IDLE. -/
def Dev.chRest (d : Dev) : Dev :=
  let d := d.stopStages [10, 11, 8, 9]
  (((d.onCh fun c => { c with pmode := 0, second := false, gridBad := none, plugEvent := false, overEvent := false }).chBlock).chGo 2)

/-- The CH_START in progress ends. -/
def Dev.chFinish (d : Dev) (st : Nat) : Dev := (d.finishJob d.ch.job st).onCh fun c => { c with job := none }

/-- The CH_STOPs in progress end with OK. -/
def Dev.chStopped (d : Dev) : Dev :=
  (d.ch.stopJobs.foldl (fun d j => d.finish j.1 j.2 Code.OK) d).onCh fun c => { c with stopJobs := [] }

/-- A hard stop (R243, R249): a CH_START in progress ends with the cause, otherwise the cause is reported. -/
def Dev.hardStop (d : Dev) (cause : Nat) : Dev :=
  let had := d.ch.job.isSome
  let d := d.chRest
  let d := if had then d.chFinish cause
    else d.post { kind := Kind.stage, index := 8, cls := Cls.report, code := cause, detail := cause, time := d.time }
  d.chStopped

/-- The cause of a hard stop that stands now, in the order of R244's table. -/
def Dev.chCause (d : Dev) : Option Nat :=
  let noGrid := d.ch.mode == 1 && (match d.ch.gridBad with | some b => Nat.blt (b + 16000000) d.time | none => false)
  if !d.chLive then none
  else if (d.ch.mode = 1 ∧ d.cpReady = false) ∨ (d.ch.mode = 2 ∧ d.rd F.SC_CH_STAT_cp 0 ≠ 1) ∨ d.ch.plugEvent = true then some Code.CONNECTOR
  else if noGrid then some Code.NO_GRID
  else if chStages.any d.stageLost then some Code.FENCED
  else if d.ch.overEvent then some Code.OVER_VOLTAGE
  else none

/-- A CH_STOP as R242 stops the charger; `job` is its descriptor, if any, and `word` what a start in progress ends with. A hard-stop
event that the same reaction finds goes first (R249). -/
def Dev.chStop (d : Dev) (job : List (Nat × Nat)) (word : Nat) : Dev :=
  let st := d.chState
  let d := d.onCh fun c => { c with stopJobs := c.stopJobs ++ job }
  match d.chCause with
  | some c => d.hardStop c
  | none =>
  if st = 6 ∨ st = 7 then ((d.onCh fun c => { c with pmode := 3, since := d.time }).chBlock).chGo 8
  else if st = 3 ∨ st = 4 ∨ st = 5 then ((d.chFinish word).chRest).chStopped
  else if st = 8 then d
  else d.chStopped

/-- A session begins to start its first group of stages (R240, R241): block with its mode, RAMP. -/
def Dev.chRamp (d : Dev) : Dev :=
  let d := (d.onCh fun c => { c with pmode := c.mode, second := false, since := d.time, gridBad := none, plugEvent := false, overEvent := false }).chBlock
  (d.onCh fun c => { c with base := d.written d.chLoops }).chGo 5

/-- CH_START, accepted by validation (R34, R237, R240, R241). -/
def Dev.chStart (d : Dev) (q i : Nat) (x : Descr) : Dev :=
  let mode := x.param1 % 4
  let cp := d.rd F.SC_CH_STAT_cp 0
  let cable := d.rd F.SC_CH_STAT_cable 0
  if !d.chOn then d.finish q i Code.FENCED
  else if !d.isSealed then d.finish q i Code.NOT_SEALED
  else if d.chState = 1 then d.finish q i Code.FENCED
  else if d.chState ≠ 2 ∨ (mode = 2 ∧ d.flag F.SC_CH_CFG_export_en 0 = false) then d.finish q i Code.RANGE_VALUE
  else if (chStages.all d.stageAvailable) = false then d.finish q i Code.FENCED
  else
    let take (d : Dev) : Dev := d.onCh fun c =>
      { c with job := some (q, i), mode := mode, power := lowWord x.param2, volt := highWord x.param2, since := d.time }
    if mode = 1 then
      if cable = 0 ∨ cable = 5 ∨ ¬(cp = 2 ∨ d.cpReady = true) ∨ d.rd F.SC_CH_STAT_i_allow 0 < 6 then d.finish q i Code.CONNECTOR
      else ((take d).onCh fun c => { c with pmode := 0 }).chBlock.chGo 3
    else if cp ≠ 1 ∨ ¬(10 * d.lineVolts < (2 * d.rd F.SC_CH_GRID_v_lo 0 : Nat)) then d.finish q i Code.CONNECTOR
    else (take d).chRamp

/-- CH_START: the accepted descriptor at ring index i of queue pair q. -/
def execChStart (t : Nat) (q : Fin 64) (i : Nat) (s : State) : Host.Outcome State Fault Refusal :=
  effect t s fun d => d.startItem q i Op.CH_START .handed fun d x => d.chStart q i x

/-- CH_TARGET (R237): new limits for the session. -/
def execChTarget (t : Nat) (q : Fin 64) (i : Nat) (s : State) : Host.Outcome State Fault Refusal :=
  effect t s fun d => d.startItem q i Op.CH_TARGET .handed fun d x =>
    let mode := x.param1 % 4
    if !d.chOn || d.chState == 1 then d.finish q i Code.FENCED
    else if mode = 2 ∧ d.flag F.SC_CH_CFG_export_en 0 = false then d.finish q i Code.RANGE_VALUE
    else if d.chState = 2 then d.finish q i Code.OK
    else if mode ≠ d.ch.mode then d.finish q i Code.RANGE_VALUE
    else ((d.onCh fun c => { c with power := lowWord x.param2, volt := highWord x.param2 }).chBlock).finish q i Code.OK

/-- CH_STOP (R242). -/
def execChStop (t : Nat) (q : Fin 64) (i : Nat) (s : State) : Host.Outcome State Fault Refusal :=
  effect t s fun d => d.startItem q i Op.CH_STOP .handed fun d _ =>
    if !d.chOn || d.chState == 1 then d.finish q i Code.FENCED else d.chStop [(q, i)] Code.STALE

/-! ### Pilot meter (R233 to R235) -/

/-- The pilot state from the plateaux in volts (R234). -/
def pilotState (osc broken : Bool) (high low : Rat) : Nat :=
  if (osc && decide (-21 / 2 < low)) || broken then 7
  else if 21 / 2 ≤ high then 1
  else if 15 / 2 ≤ high then 2
  else if 9 / 2 ≤ high then 3
  else if 3 / 2 ≤ high then 4
  else if -3 / 2 < high then 5
  else if high ≤ -21 / 2 ∧ osc = false then 6
  else 7

/-- The pilot current of a duty in per cent (R235). -/
def pilotAmps (osc : Bool) (p : Rat) : Rat :=
  if !osc || p < 8 then 0
  else if p < 10 then 6
  else if p ≤ 85 then 6 / 10 * p
  else if p ≤ 96 then 25 / 10 * (p - 64)
  else if p ≤ 97 then 80
  else 0

/-- The rating of a cable code (R236). -/
def cableAmps (code : Nat) : Nat := if code = 1 then 13 else if code = 2 then 20 else if code = 3 then 32 else if code = 4 then 63 else 0

/-- A mean of n results, in volts; of none it is a free value (log entry 4). -/
def Dev.plateauOf (d : Dev) (sum : Int) (n : Nat) : Rat × Dev :=
  if n = 0 then ((d.free.toInt : Rat) / 65536, d.tick) else ((sum : Rat) / ((65536 * n : Nat) : Rat), d)

/-- The meter ends a window or refresh (R233 to R235, R240): registers, pilot state, allowed current, and new limits of a
session in CHARGE. -/
def Dev.pilotDone (d : Dev) (osc : Bool) (duty high low : Rat) : Dev :=
  let tenth (x : Rat) : Int := clampInt (-128) 127 (ratRound (x * 10))
  let d := (d.wr F.SC_CH_PILOT_duty 0 (ratRound (duty * 1000)).toNat).put F.SC_CH_PILOT_osc 0 osc
  let d := (d.wrInt F.SC_CH_PILOT_high 0 (tenth high)).wrInt F.SC_CH_PILOT_low 0 (tenth low)
  let broken := d.rd2 F.CV_RAW_broken (d.rd F.SC_CH_IN_cp_conv 0) (d.rd F.SC_CH_IN_cp_entry 0) == 1
  let st := pilotState osc broken high low
  let d := if st = d.ch.pilot.lastState then d.wr F.SC_CH_STAT_cp 0 st else d
  let d := d.onCh fun c => { c with pilot := { c.pilot with lastState := st, duty := duty } }
  let amps := (pilotAmps osc (duty * 100)).floor.toNat
  let allow := min (min amps (cableAmps (d.rd F.SC_CH_STAT_cable 0))) (d.rd F.SC_CH_LIM_imax 0)
  let d := d.wr F.SC_CH_STAT_i_allow 0 allow
  if d.ch.mode = 1 ∧ (d.chState = 5 ∨ d.chState = 6) ∧ (d.chPower ≠ d.ch.p49 ∨ d.chAmps ≠ d.ch.p51) then d.chBlock else d

/-- PILOT_WINDOW: eight periods of the pilot have passed (R233). -/
def execPilotWindow (t : Nat) (s : State) : Host.Outcome State Fault Refusal :=
  effect t s fun d =>
    let p := d.ch.pilot
    if !d.chOn || p.periods != 8 then d
    else
      let (high, d) := d.plateauOf p.hiSum p.hiN
      let (low, d) := d.plateauOf p.loSum p.loN
      let d := d.onCh fun c => { c with pilot := c.pilot.open }
      d.pilotDone true (p.dutySum / 8) high low

/-- A refresh without transitions (R233): duty 0 or 100 %, both plateaux the mean of the last 1 ms. -/
def Dev.pilotRefresh (d : Dev) : Dev :=
  let p := d.ch.pilot
  let l := p.recent.filter fun e => Nat.ble d.time (e.1 + 800000)
  let (v, d) := d.plateauOf (l.foldl (fun n e => n + e.2) 0) l.length
  let d := d.onCh fun c => { c with pilot := { c.pilot.open with hiLast := none, rise := none, fall := none, refreshAt := d.time } }
  d.pilotDone false (if d.pilotHigh then 1 else 0) v v

/-- PILOT_TIMEOUT: no transition has arrived for 3 ms (R233): the first refresh; the ones after it follow every 1 ms. -/
def execPilotTimeout (t : Nat) (s : State) : Host.Outcome State Fault Refusal :=
  effect t s fun d =>
    let p := d.ch.pilot
    if d.chOn && Nat.ble (p.lastEdge + 2400000) d.time && Nat.blt p.refreshAt (p.lastEdge + 2400000) then d.pilotRefresh else d

/-- PILOT_REFRESH: 1 ms after the last refresh, still without transitions (R233). -/
def execPilotRefresh (t : Nat) (s : State) : Host.Outcome State Fault Refusal :=
  effect t s fun d =>
    let p := d.ch.pilot
    if d.chOn && Nat.ble (p.lastEdge + 2400000) d.time && Nat.ble (p.refreshAt + 800000) d.time then d.pilotRefresh else d

/-! ### Waits and events (R240 to R244) -/

/-- The two stages a session starts first, and the two it starts then (R240, R241). -/
def Dev.chFirst (d : Dev) : List Nat := if d.ch.mode = 2 then [10, 11] else [8, 9]
def Dev.chSecond (d : Dev) : List Nat := if d.ch.mode = 2 then [8, 9] else [10, 11]

/-- Does every stage of a list have run 1? -/
def Dev.allRun (d : Dev) (ss : List Nat) : Bool := ss.all fun s => d.flag F.TB_STG_RUN_run s

/-- Has the bus reached 98 % of its target (R240, R241)? -/
def Dev.busUp (d : Dev) : Bool :=
  let s := if d.ch.mode = 2 then 10 else 8
  decide ((98 * d.rd F.SC_CH_BUS_bus_target 0 : Nat) ≤ 100 * d.q16 F.SH_DV s)

/-- CH_WAIT_DONE: the condition that a charging start waits for is met. -/
def execChWaitDone (t : Nat) (s : State) : Host.Outcome State Fault Refusal :=
  effect t s fun d =>
    let st := d.chState
    if st = 3 ∧ d.cpReady = true then (d.onCh fun c => { c with since := d.time }).chGo 4
    else if st = 4 ∧ d.gridValid = true then d.chRamp
    else if st = 5 ∧ d.ch.second = false ∧ d.allRun d.chFirst = true ∧ d.busUp = true then d.onCh fun c => { c with second := true }
    else d

/-- CH_WAIT_TIMEOUT: c_wait or grid_wait (in 100 ms) passes, and the start ends with its cause. -/
def execChWaitTimeout (t : Nat) (s : State) : Host.Outcome State Fault Refusal :=
  effect t s fun d =>
    let st := d.chState
    let over_ (n : Nat) : Bool := Nat.ble (d.ch.since + 80000000 * n) d.time
    let grid := d.rd F.SC_CH_LIM_grid_wait 0
    if st = 3 ∧ over_ (d.rd F.SC_CH_LIM_c_wait 0) = true ∧ d.cpReady = false then (d.chFinish Code.CONNECTOR).chGo 2
    else if st = 4 ∧ over_ grid = true ∧ d.gridValid = false then (d.chFinish Code.NO_GRID).chGo 2
    else if st = 5 ∧ d.ch.second = false ∧ d.allRun d.chFirst = true ∧ over_ grid = true ∧ d.busUp = false then d.hardStop Code.BUS_LOW
    else d

/-- A sequencer starts a stage of the charger (R218, R240, R241) once the PRIMARY loop that drives it has written two runs: with the
last of the four the start is done. -/
def Dev.chStartStage (d : Dev) (s : Nat) : Dev :=
  let due := d.chState == 5 && d.stageFit s && !d.flag F.TB_STG_RUN_run s &&
    (d.chFirst.contains s || (d.ch.second && d.chSecond.contains s))
  match (d.driving s).head? with
  | none => d
  | some l =>
    if due && d.twoRuns d.ch.base l then
      let d := (d.startStage s).chBlock
      let d := if d.allRun d.chFirst && !d.ch.second then d.onCh fun c => { c with since := d.time } else d
      if d.allRun chStages then (d.chGo (if d.ch.mode = 2 then 7 else 6)).chFinish Code.OK else d
    else d

/-- STOP_TIME_EXPIRY: stop_time (in 10 ms) has passed in STOPPING (R242); a hard-stop event that stands is reported (R249). -/
def execStopTimeExpiry (t : Nat) (s : State) : Host.Outcome State Fault Refusal :=
  effect t s fun d =>
    if d.chState = 8 ∧ d.ch.since + 8000000 * d.rd F.SC_CH_LIM_stop_time 0 ≤ d.time then
      match d.chCause with
      | some c => d.hardStop c
      | none => d.chRest.chStopped
    else d

/-- GRID_LOSS_TIMEOUT: in CHARGE the grid has been invalid for longer than 20 ms (R244). -/
def execGridLossTimeout (t : Nat) (s : State) : Host.Outcome State Fault Refusal :=
  effect t s fun d =>
    let d := d.noteGrid
    match d.ch.gridBad with
    | some b => if d.chLive && d.ch.mode == 1 && Nat.blt (b + 16000000) d.time then d.hardStop Code.NO_GRID else d
    | none => d

/-- CH_EVENT_REACTION: the sequencer reacts to a connector, fence, trip or over-voltage event (R244); to another change in TB_STG_STAT
of its stages by writing the block with the stages that now run (R230, R231). -/
def execChEventReaction (t : Nat) (s : State) : Host.Outcome State Fault Refusal :=
  effect t s fun d =>
    match d.chCause with
    | some c => d.hardStop c
    | none => if d.chOn && d.chState != 1 && d.chActive != d.rd F.SC_CH_STAT_active 0 then d.chBlock else d

/-! ### HV-to-LV converter (R245 to R247) -/

/-- Is the conversion sequencer in use? -/
def Dev.lvOn (d : Dev) : Bool := d.flag F.SC_LV_CFG_enable 0

/-- State of the converter: 1 OFF, 2 IDLE, 3 DIODE, 4 SYNC. -/
def Dev.lvState (d : Dev) : Nat := d.rd F.SC_LV_STAT_state 0

def Dev.lvGo (d : Dev) (new : Nat) : Dev :=
  let old := d.lvState
  if old = new then d else (d.wr F.SC_LV_STAT_state 0 new).stateEvent 3 0 old new

/-- The loops the conversion sequencer serves: the PRIMARY loop of LS0 and the AUX loops homed on HS12 (R230). -/
def Dev.lvLoops (d : Dev) : List Nat :=
  d.loops.filter fun l => (!d.isAux l && d.home l == 14) || (d.isAux l && d.home l == 12)

/-- The running stages of the converter as a mask. -/
def Dev.lvActive (d : Dev) : Nat := b2n (d.flag F.TB_STG_STAT_running 12) + 2 * b2n (d.flag F.TB_STG_STAT_running 14)

/-- Write the converter block (R230). -/
def Dev.lvBlock (d : Dev) : Dev :=
  let d := d.wr F.SC_LV_STAT_active 0 d.lvActive
  let c := d.ch
  d.each d.lvLoops fun d l => d.setPars l
    [(48, wholeQ c.lvMode), (49, c.lvVolt), (50, c.lvAmp), (55, wholeQ (d.rd F.SC_LV_STAT_active 0))]

/-- The LV_START in progress ends. -/
def Dev.lvFinish (d : Dev) (st : Nat) : Dev := (d.finishJob d.ch.lvJob st).onCh fun c => { c with lvJob := none }

/-- The converter stops: LS0 first, then HS12 (R247). -/
def Dev.lvRest (d : Dev) : Dev :=
  (((d.stopStages [14, 12]).onCh fun c => { c with lvMode := 0, lvSync := false }).lvBlock).lvGo 2

/-- Is an LV_START under way, or the converter running? -/
def Dev.lvLive (d : Dev) : Bool := d.lvState == 3 || d.lvState == 4 || (d.lvState == 2 && d.ch.lvMode != 0)

/-- New targets for the converter. -/
def Dev.lvTargets (d : Dev) (x : Descr) : Dev := d.onCh fun c => { c with lvVolt := lowWord x.param2, lvAmp := highWord x.param2 }

/-- LV_START (R34, R245, R246). -/
def execLvStart (t : Nat) (q : Fin 64) (i : Nat) (s : State) : Host.Outcome State Fault Refusal :=
  effect t s fun d => d.startItem q i Op.LV_START .handed fun d x =>
    if !d.lvOn then d.finish q i Code.FENCED
    else if !d.isSealed then d.finish q i Code.NOT_SEALED
    else if d.lvState = 1 then d.finish q i Code.FENCED
    else if d.lvLive then ((d.lvTargets x).lvBlock).finish q i Code.OK
    else if !d.stageAvailable 12 || !d.stageAvailable 14 then d.finish q i Code.FENCED
    else
      let d := ((d.lvTargets x).onCh fun c => { c with lvJob := some (q.val, i), lvMode := 1, lvSync := false }).lvBlock
      d.onCh fun c => { c with lvBase := d.written d.lvLoops }

/-- LV_TARGET (R246); in IDLE it changes nothing. -/
def execLvTarget (t : Nat) (q : Fin 64) (i : Nat) (s : State) : Host.Outcome State Fault Refusal :=
  effect t s fun d => d.startItem q i Op.LV_TARGET .handed fun d x =>
    if !d.lvOn || d.lvState == 1 then d.finish q i Code.FENCED
    else if d.lvLive then ((d.lvTargets x).lvBlock).finish q i Code.OK
    else d.finish q i Code.OK

/-- The converter stops as for LV_STOP; a start in progress ends with `word` first. -/
def Dev.lvStop (d : Dev) (word : Nat) : Dev := (d.lvFinish word).lvRest

/-- LV_STOP (R247). -/
def execLvStop (t : Nat) (q : Fin 64) (i : Nat) (s : State) : Host.Outcome State Fault Refusal :=
  effect t s fun d => d.startItem q i Op.LV_STOP .handed fun d _ =>
    if !d.lvOn || d.lvState == 1 then d.finish q i Code.FENCED else (d.lvStop Code.STALE).finish q i Code.OK

/-- A sequencer starts HS12 (with it the converter enters DIODE) or LS0 (SYNC) after two written runs (R246). -/
def Dev.lvStartStage (d : Dev) (s : Nat) : Dev :=
  match d.primaryLoop 14 with
  | none => d
  | some l =>
    if !d.twoRuns d.ch.lvBase l || !d.stageFit s then d
    else if s = 12 ∧ d.lvState = 2 ∧ d.ch.lvMode = 1 then
      let d := (d.startStage 12).onCh fun c => { c with lvSince := d.time }
      d.lvBlock.lvGo 3
    else if s = 14 ∧ d.lvState = 3 ∧ d.ch.lvSync = true then (((d.startStage 14).lvBlock).lvGo 4).lvFinish Code.OK
    else d

/-- Is the output within v_tol (0.1 V) of the target (R246)? -/
def Dev.lvInTol (d : Dev) : Bool :=
  let v := (BitVec.ofNat 32 (d.rd2 F.CV_RES (d.rd F.SC_LV_CFG_out_conv 0) (d.rd F.SC_LV_CFG_out_entry 0))).toInt
  Nat.ble (10 * (v - d.ch.lvVolt.toNat).natAbs) (65536 * d.rd F.SC_LV_CFG_v_tol 0)

/-- LV_SYNC: the output comes within v_tol and the loops read SYNC (R246). -/
def execLvSync (t : Nat) (s : State) : Host.Outcome State Fault Refusal :=
  effect t s fun d =>
    if d.lvState = 3 ∧ d.ch.lvSync = false ∧ d.lvInTol = true ∧ d.time ≤ d.ch.lvSince + 800000 * d.rd F.SC_LV_CFG_start_time 0 then
      let d := (d.onCh fun c => { c with lvMode := 2, lvSync := true }).lvBlock
      d.onCh fun c => { c with lvBase := d.written d.lvLoops }
    else d

/-- LV_START_TIMEOUT: start_time passes without the output in tolerance (R246). -/
def execLvStartTimeout (t : Nat) (s : State) : Host.Outcome State Fault Refusal :=
  effect t s fun d =>
    if d.lvState = 3 ∧ d.ch.lvSync = false ∧ d.ch.lvSince + 800000 * d.rd F.SC_LV_CFG_start_time 0 ≤ d.time then d.lvStop Code.BUS_LOW else d

/-- LV_STAGE_LOSS: a fence or trip on HS12 or LS0 stops the converter (R247): a start in progress ends with FENCED, otherwise
FENCED is reported against HS12. To another change in TB_STG_STAT of its stages the sequencer reacts by writing the block with the
stages that now run (R230, R231). -/
def execLvStageLoss (t : Nat) (s : State) : Host.Outcome State Fault Refusal :=
  effect t s fun d =>
    if d.lvLive && (d.stageLost 12 || d.stageLost 14) then
      let had := d.ch.lvJob.isSome
      let d := d.lvStop Code.FENCED
      if had then d
      else d.post { kind := Kind.stage, index := 12, cls := Cls.report, code := Code.FENCED, detail := Code.FENCED, time := d.time }
    else if d.lvOn && d.lvState != 1 && d.lvActive != d.rd F.SC_LV_STAT_active 0 then d.lvBlock
    else d

end Sys2Proof.Machine
end

