-- ==== Sys2Proof/Machine/Actuators.lean ====
section
/-! DEFINITION. The drive sequencer (chapter 11): the six light drives; and the start of a stage by any sequencer (R218). -/

namespace Sys2Proof.Machine

/-- The stage of drive a (R12): LS(a + 1). -/
def drStage (a : Nat) : Nat := 15 + a

/-- State of a drive (R255). -/
def Dev.drState (d : Dev) (a : Nat) : Nat := d.rd F.SC_DR_STAT_state a

/-- A drive changes its state, which is posted as a device event. -/
def Dev.drGo (d : Dev) (a new : Nat) : Dev :=
  let old := d.drState a
  if old = new then d else (d.wr F.SC_DR_STAT_state a new).stateEvent 4 a old new

/-- Change what the sequencer carries for a drive. -/
def Dev.onDr (d : Dev) (a : Nat) (f : DrT → DrT) : Dev := d.setDrive a (f (d.drive a))

/-- The position port of a drive, and whether it reads the secondary hall set (R251, R252). -/
def Dev.drPort (d : Dev) (a : Nat) : Nat := d.rd F.SC_DR_CFG_pos_port a
def Dev.drSecondary (d : Dev) (a : Nat) : Bool := d.flag F.SC_DR_CFG_secondary a

/-- The speed of a drive, Q16.16 (R256): SC_DR_SPEED shows it. -/
def Dev.drSpeed (d : Dev) (a : Nat) : Word :=
  if d.drSecondary a then d.word (F.PS_SEC_SPEED.off (d.drPort a) 0) else d.word (F.PS_OBS_SPEED.off (d.drPort a) 0)

/-- The seed position: the count over PS_CPR in Q16.16 turns; 0 with secondary feedback (R253). -/
def Dev.drPosition (d : Dev) (a : Nat) : Word :=
  if d.drSecondary a then 0
  else
    let n := signed 64 (d.rd64 F.PS_CNT_LO F.PS_CNT_HI (d.drPort a))
    ratQ ((n : Rat) / ((max 1 (d.rd F.PS_CPR_cpr (d.drPort a)) : Nat) : Rat))

/-- Write the block of a drive (R253). -/
def Dev.drBlock (d : Dev) (a : Nat) : Dev :=
  let v := d.drive a
  match d.primaryLoop (drStage a) with
  | none => d
  | some l => d.setPars l
      [(48, wholeQ v.pmode), (49, v.target), (50, wholeQ (d.rd F.SC_DR_STAT_token a)), (51, v.seedPos), (52, v.seedSpd),
       (55, if d.drSecondary a then v.mirHall else 0), (56, if d.drSecondary a then v.mirSpd else 0)]

/-- A seed (R256, R258): token advanced, position and speed of now, mode and target in force. -/
def Dev.drSeed (d : Dev) (a : Nat) : Dev :=
  let d := d.wr F.SC_DR_STAT_token a ((d.rd F.SC_DR_STAT_token a + 1) % 256)
  (d.onDr a fun v => { v with pmode := v.mode, seedPos := d.drPosition a, seedSpd := d.drSpeed a }).drBlock a

/-- The descriptor in progress of a drive ends. -/
def Dev.drFinish (d : Dev) (a st : Nat) : Dev := (d.finishJob (d.drive a).job st).onDr a fun v => { v with job := none }

/-- Run 0, mode STOPPED. -/
def Dev.drRest (d : Dev) (a : Nat) : Dev :=
  ((d.stopStage (drStage a)).onDr a fun v => { v with pmode := 0, base := none }).drBlock a

/-- Is the speed of a drive known: its observer runs and is locked, or it reads secondary halls (R256)? -/
def Dev.drKnown (d : Dev) (a : Nat) : Bool := d.drSecondary a || d.portLocked (d.drPort a)

/-- The seeded block opens a start: its stage waits for two runs after it (R256). -/
def Dev.drOpen (d : Dev) (a : Nat) : Dev :=
  let d := d.drSeed a
  let n := match d.primaryLoop (drStage a) with
    | some l => (d.loop l).wrote
    | none => 0
  d.onDr a fun v => { v with base := some n }

/-- In STARTING, once the speed is known: refusal above the catch limit, or the seeded block (R256). -/
def Dev.drTry (d : Dev) (a : Nat) : Dev :=
  if d.drState a = 3 ∧ (d.drive a).base = none ∧ d.drKnown a = true then
    if 65536 * d.rd F.SC_DR_SPD_catch a < (d.drSpeed a).toInt.natAbs then (d.drFinish a Code.SPEED_HIGH).drGo a 2
    else d.drOpen a
  else d

/-- A start of a drive begins. -/
def Dev.drBegin (d : Dev) (a : Nat) : Dev := ((d.onDr a fun v => { v with since := d.time, base := none }).drGo a 3).drTry a

/-- A drive starts to move towards its target (R257); one that moves already goes on within the same move_time. -/
def Dev.drMove (d : Dev) (a : Nat) : Dev :=
  let d := match d.primaryLoop (drStage a) with
    | some l => d.onLoop l fun v => { v with met := 0 }
    | none => d
  (if d.drState a = 4 then d else d.onDr a fun v => { v with since := d.time }).drGo a 4

/-- A descriptor comes into progress with its mode and target; one that it supersedes ends with STALE first (R213). -/
def Dev.drTake (d : Dev) (a q i mode : Nat) (hold : Bool) (target : Word) : Dev :=
  (d.drFinish a Code.STALE).onDr a fun v => { v with job := some (q, i), mode := mode, hold := hold, target := target }

/-- A target for a drive on its way or running (R258, R262). -/
def Dev.drTarget (d : Dev) (a q i mode : Nat) (hold : Bool) (target : Word) : Dev :=
  let v := d.drive a
  let st := d.drState a
  let same := v.mode == mode && v.hold == hold && v.target == target
  let speed := d.drSpeed a
  if st = 2 ∨ st = 9 then d.finish q i Code.OK
  else if st = 3 then
    if same then d.finish q i Code.OK
    else
      let d := d.drTake a q i mode hold target
      if v.base.isNone then d else if mode = v.mode then d.drBlock a else d.drOpen a
  else if st = 8 then
    if same then d.finish q i Code.OK else d.drTake a q i mode hold target
  else if st = 7 ∧ mode = 2 then
    if negQ target ≠ negQ speed ∧ target ≠ 0 ∧ 65536 * d.rd F.SC_DR_SPD_reengage a < speed.toInt.natAbs then
      ((d.drTake a q i mode hold target).drRest a).drGo a 8
    else ((d.onDr a fun v => { v with target := target, hold := hold }).drBlock a).finish q i Code.OK
  else if st = 4 ∧ same = true then d.finish q i Code.OK
  else
    let seeded := mode != v.mode || st == 6
    let d := d.drTake a q i mode hold target
    let d := if seeded then d.drSeed a else d.drBlock a
    if mode = 1 then d.drMove a else (d.drGo a 7).drFinish a Code.OK

/-- DR_START, accepted by validation (R34, R254, R256). -/
def Dev.drStart (d : Dev) (q i : Nat) (x : Descr) : Dev :=
  let a := x.target
  let mode := x.param1 % 4
  let hold := bitOf x.param1 2
  let target := lowWord x.param2
  if 6 ≤ a then d.finish q i Code.RANGE_VALUE
  else if !d.flag F.SC_DR_CFG_enable a then d.finish q i Code.FENCED
  else if !d.isSealed then d.finish q i Code.NOT_SEALED
  else if d.drState a = 1 then d.finish q i Code.FENCED
  else if d.drState a = 2 ∨ d.drState a = 9 then (d.drTake a q i mode hold target).drBegin a
  else d.drTarget a q i mode hold target

/-- DR_START: the accepted descriptor at ring index i of queue pair q. -/
def execDrStart (t : Nat) (q : Fin 64) (i : Nat) (s : State) : Host.Outcome State Fault Refusal :=
  effect t s fun d => d.startItem q i Op.DR_START .handed fun d x => d.drStart q i x

/-- DR_TARGET. -/
def execDrTarget (t : Nat) (q : Fin 64) (i : Nat) (s : State) : Host.Outcome State Fault Refusal :=
  effect t s fun d => d.startItem q i Op.DR_TARGET .handed fun d x =>
    if 6 ≤ x.target then d.finish q i Code.RANGE_VALUE
    else if !d.flag F.SC_DR_CFG_enable x.target || d.drState x.target == 1 then d.finish q i Code.FENCED
    else d.drTarget x.target q i (x.param1 % 4) (bitOf x.param1 2) (lowWord x.param2)

/-- The drive stops and coasts (R259); a descriptor in progress ends with `word` first. -/
def Dev.drStop (d : Dev) (a word : Nat) : Dev := ((d.drFinish a word).drRest a).drGo a 2

/-- DR_STOP. -/
def execDrStop (t : Nat) (q : Fin 64) (i : Nat) (s : State) : Host.Outcome State Fault Refusal :=
  effect t s fun d => d.startItem q i Op.DR_STOP .handed fun d x =>
    if 6 ≤ x.target then d.finish q i Code.RANGE_VALUE
    else if !d.flag F.SC_DR_CFG_enable x.target || d.drState x.target == 1 then d.finish q i Code.FENCED
    else (d.drStop x.target Code.STALE).finish q i Code.OK

/-- DR_LOCK_TIMEOUT: lock_wait passes without lock (R256). -/
def execDrLockTimeout (t : Nat) (a : Fin 6) (s : State) : Host.Outcome State Fault Refusal :=
  effect t s fun d =>
    let v := d.drive a
    if d.drState a = 3 ∧ v.base = none ∧ v.since + 800000 * d.rd F.SC_DR_TIMES_lock_wait a ≤ d.time then
      if d.drKnown a then d.drTry a else (d.drFinish a Code.NO_CATCH).drGo a 2
    else d

/-- Has the loop of a drive written two consecutive runs with the target flag set (R257)? -/
def Dev.drReached (d : Dev) (a : Nat) : Bool :=
  match d.primaryLoop (drStage a) with
  | some l => Nat.ble 2 (d.loop l).met
  | none => false

/-- DR_TARGET_REACHED: AT_TARGET, or HOLDING with mode HOLD (R257, R260). -/
def execDrTargetReached (t : Nat) (a : Fin 6) (s : State) : Host.Outcome State Fault Refusal :=
  effect t s fun d =>
    if d.drState a = 4 ∧ d.drReached a = true then
      let d := if (d.drive a).hold then ((d.onDr a fun v => { v with pmode := 3 }).drBlock a).drGo a 6 else d.drGo a 5
      d.drFinish a Code.OK
    else d

/-- DR_MOVE_TIMEOUT: move_time (in 10 ms) passes without the target; reached wins (R257, R262). -/
def execDrMoveTimeout (t : Nat) (a : Fin 6) (s : State) : Host.Outcome State Fault Refusal :=
  effect t s fun d =>
    if d.drState a = 4 ∧ (d.drive a).since + 8000000 * d.rd F.SC_DR_TIMES_move_time a ≤ d.time ∧ d.drReached a = false then
      ((d.drFinish a Code.DEADLINE).drRest a).drGo a 2
    else d

/-- DR_REENGAGE: a reversing drive reaches the re-engage speed and starts again (R258). -/
def execDrReengage (t : Nat) (a : Fin 6) (s : State) : Host.Outcome State Fault Refusal :=
  effect t s fun d =>
    if d.drState a = 8 ∧ (d.drSpeed a).toInt.natAbs ≤ 65536 * d.rd F.SC_DR_SPD_reengage a then d.drBegin a else d

/-- DR_MIRROR_UPDATE: the secondary hall state and speed go into the loop's parameters (R252); a start that waits for its
speed takes it. -/
def execDrMirrorUpdate (t : Nat) (a : Fin 6) (s : State) : Host.Outcome State Fault Refusal :=
  effect t s fun d =>
    if d.drState a = 1 then d
    else
      let p := d.drPort a
      let d := if d.drSecondary a then
          (d.onDr a fun v => { v with mirHall := wholeQ (d.rd F.PS_STAT_sec_hall p), mirSpd := d.word (F.PS_SEC_SPEED.off p 0) }).drBlock a
        else d
      d.drTry a

/-- DR_LOSS: the drive's stage or loop is fenced or tripped (R261). -/
def execDrLoss (t : Nat) (a : Fin 6) (s : State) : Host.Outcome State Fault Refusal :=
  effect t s fun d =>
    let st := d.drState a
    if 3 ≤ st ∧ st ≤ 7 ∧ d.stageLost (drStage a) = true then
      let d := (((d.drRest a).drGo a 9).drFinish a Code.FENCED)
      d.post { kind := Kind.stage, index := drStage a, cls := Cls.report, code := Code.FENCED, detail := a, time := d.time }
    else d

/-- A drive's stage starts once its loop has written two runs after the block (R256). -/
def Dev.drStartStage (d : Dev) (s : Nat) : Dev :=
  let a := s - 15
  let d := d.drTry a
  match (d.drive a).base, d.primaryLoop s with
  | some b, some l =>
    if d.drState a = 3 ∧ b + 2 ≤ (d.loop l).wrote ∧ d.stageFit s = true then
      let d := (d.startStage s).onDr a fun v => { v with base := none }
      if (d.drive a).mode = 1 then d.drMove a else (d.drGo a 7).drFinish a Code.OK
    else d
  | _, _ => d

/-- SEQUENCER_STAGE_START: the sequencer that owns stage k writes its run to 1 once its loop has written two runs since the
block that opened the start (R218, R240, R241, R246, R256). -/
def execSequencerStageStart (t : Nat) (k : Fin 21) (s : State) : Host.Outcome State Fault Refusal :=
  effect t s fun d =>
    if k.val < 8 then d.tmStartSet k
    else if k.val < 12 then d.chStartStage k
    else if k.val = 12 ∨ k.val = 14 then d.lvStartStage k
    else if 15 ≤ k.val then d.drStartStage k
    else d

end Sys2Proof.Machine
end

