-- ==== Sys2Proof/Machine/SafetyController.lean ====
section
/-! DEFINITION. The safety controller (chapter 12): comparison windows, rollback and loss of redundancy, the watchdog, the
validation queue and the absence timers. -/

namespace Sys2Proof.Machine

/-! ### Copies and checker -/

/-- Update what the safety controller carries beside its registers. -/
def Dev.onSc (d : Dev) (f : Sc → Sc) : Dev := d.withSc (f d.sc)

/-- The low 16 bits of the window number. -/
def Dev.windowLow (d : Dev) : Nat := d.sc.window % 65536

/-- SC_LAST records a mismatch or fault: cause, window, time; the outcome is not known yet. -/
def Dev.scNote (d : Dev) (cause : Nat) : Dev :=
  (d.wr F.SC_LAST 0 (cause + 65536 * d.windowLow)).wr64 F.SC_LAST_TIME_LO F.SC_LAST_TIME_HI 0 d.time

/-- A report of the controller itself, with the window number as detail (R273). -/
def Dev.scReport (d : Dev) (cls code : Nat) : Dev :=
  d.post { kind := Kind.safety, index := 0, cls := cls, code := code, detail := d.windowLow, time := d.time }

/-- Device safe state by a decision of the controller that R274, R277 or R273 gives no status word. -/
def Dev.scSafe (d : Dev) (k : Nat) : Dev :=
  (d.wr F.SC_LAST_outcome 0 4).enterSafe Kind.safety 0 (Code.ofFree (Config.safetyCode k)) d.windowLow 0

/-- The watchdog counts on after a rollback (R279). -/
def Dev.wdogResume (d : Dev) : Dev :=
  match d.sc.wdogLeft with
  | some n => d.onSc fun c => { c with wdogDue := some (d.time + n), wdogLeft := none }
  | none => d

/-- Copy A (0), copy B (1) or the checker (2) is fenced with class C until reset (R276, R419). -/
def Dev.fenceCopy (d : Dev) (k cause : Nat) (sub : Nat := 0) : Dev :=
  if d.fenced Kind.safety k then d
  else
    let d := if k = 0 then d.put F.SC_STAT_fenced_a 0 true else if k = 1 then d.put F.SC_STAT_fenced_b 0 true
      else d.put F.SC_STAT_fenced_chk 0 true
    (d.markFenced Kind.safety k true).postFenced Kind.safety k Cls.c cause sub

/-- One copy goes on alone (R273, R276, R277): the grace time starts, and a transient limit that was exceeded takes effect at
once (R285). -/
def Dev.goSimplex (d : Dev) (copyA : Bool) : Dev :=
  let d := d.scReport Cls.c Code.SIMPLEX
  let d := d.wr F.SC_STAT_mode 0 (if copyA then ScMode.simplexA else ScMode.simplexB)
  let d := d.wr F.SC_LAST_outcome 0 (if copyA then 2 else 3)
  let g := d.rd F.SC_CFG_grace 0
  let d := (d.put F.SC_STAT_grace 0 true).wr F.SC_STAT_grace_left 0 g
  let d := (d.onSc fun c => { c with graceEnd := some (d.time + 80000000 * g), retry := false, test := none }).wdogResume
  (if d.sc.overLimit then (d.onSc fun c => { c with overLimit := false }).scSafe 2 else d).wakeCopies

/-- No copy is left (R273, R276): HALTED and device safe state. -/
def Dev.scHalt (d : Dev) : Dev :=
  let d := (d.wr F.SC_STAT_mode 0 ScMode.halted).wr F.SC_LAST_outcome 0 4
  let d := (d.onSc fun c => { c with retry := false, test := none }).wdogResume
  d.enterSafe Kind.safety 0 Code.SIMPLEX d.windowLow 0

/-- The present window of both copies is discarded (R269, R272): its delay registers, the loads that wait, and the exceptions taken in
it. The checkpoint is what both copies hold again. -/
def Dev.dropWindow (d : Dev) : Dev := d.onSc fun c => { c with copyA := {}, copyB := {}, received := none }

/-- Rollback (R272): the window is discarded, the checkpoint restored, the self-tests start; the watchdog does not count. -/
def Dev.rollBack (d : Dev) (test : ScTest) : Dev :=
  let d := d.dropWindow
  let d := (d.bump F.SC_CNT_rollbacks 0).wr F.SC_STAT_mode 0 ScMode.rollback
  let left := d.sc.wdogDue.map fun due => due - d.time
  d.onSc fun c => { c with test := some test, wdogDue := none, wdogLeft := left }

/-- A mismatch of the present window (R272, R273): the second one of a window that is re-executed is class D. -/
def Dev.scMismatch (d : Dev) (cause : Nat) : Dev :=
  let d := d.scNote cause
  if d.sc.retry then ((d.dropWindow.bump F.SC_CNT_rollbacks 0).onSc fun c => { c with retry := false }).scSafe 0
  else d.rollBack .window

/-- A transient (R273, R274). -/
def Dev.transient (d : Dev) : Dev :=
  let n := d.rd F.SC_CNT_period_trans 0 + 1
  let d := (d.bump F.SC_CNT_transients 0).bump F.SC_CNT_period_trans 0
  let d := (d.wr F.SC_LAST_outcome 0 1).wr F.SC_STAT_mode 0 ScMode.duplex
  let tooMany := Nat.blt (d.rd F.SC_CFG_trans_limit 0) n
  let d := d.onSc fun c => { c with retry := true, test := none, overLimit := c.overLimit || tooMany }
  (d.wdogResume.scReport Cls.report Code.TRANSIENT).wakeCopies

/-- The self-tests end (R273, R276). -/
def Dev.selfTested (d : Dev) (test : ScTest) (a b : Bool) : Dev :=
  let failA (d : Dev) : Dev := (d.put F.SC_LAST_bist_a_fail 0 true).fenceCopy 0 Code.SIMPLEX
  let failB (d : Dev) : Dev := (d.put F.SC_LAST_bist_b_fail 0 true).fenceCopy 1 Code.SIMPLEX
  match test with
  | .window =>
    match a, b with
    | true, true => d.transient
    | true, false => (failB d).goSimplex true
    | false, true => (failA d).goSimplex false
    | false, false => (failB (failA d)).scHalt
  | .checker =>
    let d := d.fenceCopy 2 Code.SIMPLEX
    let d := if a then d else failA d
    let d := if b then d else failB d
    if a then d.goSimplex true else if b then d.goSimplex false else d.scHalt
  | .parity true =>
    let d := d.fenceCopy 0 Code.SIMPLEX
    if b then d.goSimplex false else (failB d).scHalt
  | .parity false =>
    let d := d.fenceCopy 1 Code.SIMPLEX
    if a then d.goSimplex true else (failA d).scHalt

/-- SC_SELF_TEST_DONE: the self-tests of a rollback end, each copy's with pass or fail. -/
def execScSelfTestDone (t : Nat) (a b : Bool) (s : State) : Host.Outcome State Fault Refusal :=
  effect t s fun d =>
    match d.sc.test with
    | some test => if d.scMode = ScMode.rollback then d.selfTested test a b else d
    | none => d

/-- TRANSIENT_PERIOD_EXPIRY: a counting period of trans_period minutes ends (R274). -/
def execTransientPeriodExpiry (t : Nat) (s : State) : Host.Outcome State Fault Refusal :=
  effect t s fun d =>
    let due := d.sc.period + 48000000000 * d.rd F.SC_CFG_trans_period 0
    if due ≤ d.time then (d.onSc fun c => { c with period := due }).wr F.SC_CNT_period_trans 0 0 else d

/-- What is left of the grace time, in 100 ms units, a part of one counted whole. -/
def Dev.graceLeft (d : Dev) : Nat :=
  match d.sc.graceEnd with
  | some e => (e - d.time + 79999999) / 80000000
  | none => d.rd F.SC_STAT_grace_left 0

/-- GRACE_EXPIRY: the simplex grace time ends (R277); the surviving copy goes on. -/
def execGraceExpiry (t : Nat) (s : State) : Host.Outcome State Fault Refusal :=
  effect t s fun d =>
    match d.sc.graceEnd with
    | some e =>
      if e ≤ d.time then
        (((d.onSc fun c => { c with graceEnd := none }).put F.SC_STAT_grace 0 false).wr F.SC_STAT_grace_left 0 0).scSafe 1
      else d
    | none => d

/-- INJECTION_TEST_DONE: the start-up injection test ends, bit i of `steps` telling whether step i + 1 passed (R278). -/
def execInjectionTestDone (t : Nat) (steps : BitVec 7) (s : State) : Host.Outcome State Fault Refusal :=
  effect t s fun d =>
    if d.scMode = ScMode.bootTest ∧ d.flag F.SC_BOOT_TEST_done 0 = false ∧ (Tbl.get (fun _ => []) d.sec.measured 1).isEmpty = false then
      let pass := steps.toNat == 127
      let d := ((d.wr F.SC_BOOT_TEST_step 0 steps.toNat).put F.SC_BOOT_TEST_done 0 true).put F.SC_BOOT_TEST_pass 0 pass
      if pass then (d.wr F.SC_STAT_mode 0 ScMode.duplex).onSc fun c => { c with checkpoint := { pc := Config.firmwareEntry } }
      else
        let code := (Code.ofFree (Config.safetyCode 3))
        (d.wr F.SC_STAT_mode 0 ScMode.halted).post
          { kind := Kind.safety, index := 0, cls := Cls.report, code := code, time := d.time,
            detail := (Config.reportDetail Kind.safety code).toNat }
    else d

/-! ### Firmware readiness and watchdog (R279) -/

/-- A new watchdog period starts, once firmware is ready and while the watchdog is enabled. -/
def Dev.wdogRestart (d : Dev) : Dev :=
  let n := 800000 * d.rd F.SC_WDOG_CFG_period 0
  if !d.flag F.SC_FW_ready 0 || !d.flag F.SC_WDOG_CFG_enable 0 then d.onSc fun c => { c with wdogDue := none, wdogLeft := none }
  else if d.scMode = ScMode.rollback then d.onSc fun c => { c with wdogDue := none, wdogLeft := some n }
  else d.onSc fun c => { c with wdogDue := some (d.time + n), wdogLeft := none }

/-- Firmware sets SC_FW.ready: once; the first watchdog period starts. -/
def Dev.fwReady (d : Dev) : Dev :=
  if d.flag F.SC_FW_ready 0 then d else ((d.put F.SC_FW_ready 0 true).put F.SC_STAT_fw_ready 0 true).wdogRestart

/-- FW_READY: the firmware writes 1 to SC_FW.ready. -/
def execFwReady (t : Nat) (s : State) : Host.Outcome State Fault Refusal := fromFirmware t s Dev.fwReady

/-- A write of SC_WDOG. -/
def Dev.serviceWdog (d : Dev) (v : Word) : Dev := (d.wr F.SC_WDOG_value 0 v.toNat).wdogRestart

/-- WDOG_SERVICE: the firmware writes v to SC_WDOG. -/
def execWdogService (t : Nat) (v : Word) (s : State) : Host.Outcome State Fault Refusal := fromFirmware t s fun d => d.serviceWdog v

/-- WDOG_EXPIRY: a whole period has passed without service: class D; the watchdog stops until the next service. -/
def execWdogExpiry (t : Nat) (s : State) : Host.Outcome State Fault Refusal :=
  effect t s fun d =>
    match d.sc.wdogDue with
    | some due =>
      if due ≤ d.time then
        let d := ((d.onSc fun c => { c with wdogDue := none }).scNote 7).wr F.SC_LAST_outcome 0 4
        d.enterSafe Kind.safety 0 Code.WATCHDOG (Config.reportDetail Kind.safety Code.WATCHDOG).toNat 0
      else d
    | none => d

/-! ### Validation queue (R280 to R282) -/

/-- The eight words of a descriptor (R308). -/
def descrWords (x : Descr) : List Word :=
  [BitVec.ofNat 32 (x.opcode % 256 + 256 * (x.flags % 256) + 65536 * (x.target % 65536)),
   BitVec.ofNat 32 (x.length % 65536 + 65536 * (x.sequence % 65536)), lowWord x.deadline, lowWord x.param1,
   lowWord x.address, highWord x.address, lowWord x.param2, highWord x.param2]

/-- Show the head of the validation queue in its registers. -/
def Dev.showVq (d : Dev) : Dev :=
  match d.sc.vq with
  | [] => d.wr F.SC_VQ_STAT 0 0
  | h :: _ =>
    match ((d.qp h.qp).item h.index).bind Item.desc with
    | none => d
    | some x =>
      let d := d.wr F.SC_VQ_STAT 0 (min d.sc.vq.length 64 + 128 + 256 * (h.seq % 65536) + 2 ^ 24 * (x.opcode % 256))
      let d := (d.wr F.SC_VQ_SRC_queue_pair 0 h.qp).wr64 F.SC_VQ_ARRIVE_LO F.SC_VQ_ARRIVE_HI 0 h.arrived
      d.each (List.range 8) fun d i => d.wr F.SC_VQ_DESC i (((descrWords x).getD i 0).toNat)

/-- The instant at which the validation time of an entry ends; 10 µs are 8,000 ticks (R282). -/
def Dev.vqEnd (d : Dev) (e : VqEntry) : Nat := e.arrived + 8000 * d.rd F.SC_VAL_CFG_val_time 0

/-- Validation time left of the head, in 10 µs units (SC_VQ_SRC.left). -/
def Dev.vqLeft (d : Dev) : Nat :=
  match d.sc.vq with
  | [] => 0
  | h :: _ => (d.vqEnd h - d.time + 7999) / 8000

/-- Entries that have expired leave at the head (R282). -/
def Dev.vqPop (d : Dev) : Dev := (d.onSc fun c => { c with vq := c.vq.dropWhile VqEntry.done }).showVq

/-- VQ_ARRIVAL: the descriptor at ring index i of queue pair q, received and at its turn, enters the validation queue, while
that has room (R16, R280). -/
def execVqArrival (t : Nat) (q : Fin 64) (i : Nat) (s : State) : Host.Outcome State Fault Refusal :=
  effect t s fun d =>
    match (d.qp q).item i with
    | none => d
    | some it =>
      match it.desc with
      | none => d
      | some x =>
        if it.phase = .received ∧ validated x.opcode = true ∧ (d.qp q).mayStart i (isSerial x) = true ∧ d.sc.vq.length < 64 then
          let d := (d.onItem q i fun it => { it with phase := .queued }).showQp q
          (d.onSc fun c => { c with vq := c.vq ++ [{ qp := q, index := i, seq := c.nextSeq, arrived := d.time }],
                                    nextSeq := (c.nextSeq + 1) % 65536 }).showVq
        else d

/-- The stages of the owner a command is addressed to (R283). -/
def Dev.ownerStages (d : Dev) (x : Descr) : List Nat :=
  if x.opcode / 4 = 4 ∧ x.target < 2 then d.tmStages x.target
  else if x.opcode / 4 = 5 then chStages
  else if x.opcode / 4 = 6 then [12, 14]
  else if x.opcode / 4 = 7 ∧ x.target < 6 then [15 + x.target]
  else []

/-- The absence timers of stages that run start again from their full timeout. -/
def Dev.absRestart (d : Dev) (ss : List Nat) : Dev :=
  d.each (ss.filter fun k => d.flag F.TB_STG_RUN_run k) Dev.absStart

/-- A write of SC_VQ_VERDICT (R281, R282): verdict 1 ACCEPT, 2 REFUSE. -/
def Dev.verdict (d : Dev) (v reason seq : Nat) : Dev :=
  let bad := d.reject .sc (F.SC_VQ_VERDICT.off 0 0) Reason.value (BitVec.ofNat 32 (v % 4 + 16 * (reason % 4096) + 65536 * (seq % 65536)))
  match d.sc.vq with
  | [] => bad
  | h :: _ =>
    if seq % 65536 ≠ h.seq ∨ (v ≠ 1 ∧ v ≠ 2) then bad
    else
      let d := d.wr F.SC_VQ_VERDICT 0 (v + 16 * (reason % 4096) + 65536 * h.seq)
      let x := ((d.qp h.qp).item h.index).bind Item.desc
      let d := (d.onSc fun c => { c with vq := c.vq.drop 1 })
      let d :=
        if v = 1 then
          let d := (d.onItem h.qp h.index fun it => { it with phase := .handed }).bump F.SC_VAL_CNT_accepted 0
          match x with
          | some x => d.absRestart (d.ownerStages x)
          | none => d
        else (d.bump F.SC_VAL_CNT_refused 0).finish h.qp h.index Code.REFUSED false (reason % 4096)
      d.vqPop

/-- ACCEPT: the firmware accepts the head, naming arrival sequence seq. -/
def execAccept (t : Nat) (seq : BitVec 16) (s : State) : Host.Outcome State Fault Refusal :=
  fromFirmware t s fun d => d.verdict 1 0 seq.toNat

/-- REFUSE: the firmware refuses the head with a reason. -/
def execRefuse (t : Nat) (seq : BitVec 16) (reason : BitVec 12) (s : State) : Host.Outcome State Fault Refusal :=
  fromFirmware t s fun d => d.verdict 2 reason.toNat seq.toNat

/-- An entry of the validation queue expires (R282): its completion is made at once, and it leaves at the head. -/
def Dev.vqExpire (d : Dev) (e : VqEntry) (byTime : Bool) : Dev :=
  let d := d.onSc fun c => { c with vq := c.vq.map fun f => if f.seq = e.seq then { f with done := true } else f }
  let d := if byTime then d.reportOpen Kind.queue e.qp Cls.report Code.DEADLINE else d
  ((d.bump F.SC_VAL_CNT_expired 0).finish e.qp e.index Code.DEADLINE).vqPop

/-- Does an entry's descriptor deadline bind and has it passed (R311)? -/
def Dev.vqLate (d : Dev) (e : VqEntry) : Bool :=
  match ((d.qp e.qp).item e.index).bind Item.desc with
  | some x => isTimed x && d.passed x.deadline
  | none => false

/-- VALIDATION_EXPIRY: the validation time or the descriptor deadline of the entry with arrival sequence seq passes. -/
def execValidationExpiry (t : Nat) (seq : BitVec 16) (s : State) : Host.Outcome State Fault Refusal :=
  effect t s fun d =>
    match d.sc.vq.find? fun e => e.seq == seq.toNat && !e.done with
    | none => d
    | some e =>
      let byTime := Nat.ble (d.vqEnd e) d.time
      if byTime || d.vqLate e then d.vqExpire e byTime else d

/-! ### Absence policy (R283, R284) -/

/-- The STOP action of a stage (R284). -/
def Dev.stopAction (d : Dev) (k : Nat) : Dev :=
  let d := (d.put F.SC_ABS_LEFT_awaiting k false).setRespDue k none
  if k < 8 ∧ bitOf (d.rd F.SC_TM_CFG_sets (k / 4)) (k % 4) = true ∧ d.tmState (k / 4) ≠ 1 then d.tmStop (k / 4) Code.STALE
  else if 8 ≤ k ∧ k < 12 ∧ d.chOn = true ∧ d.chState ≠ 1 then d.hardStop Code.STALE
  else if (k = 12 ∨ k = 14) ∧ d.lvOn = true ∧ d.lvState ≠ 1 then d.lvStop Code.STALE
  else if 15 ≤ k ∧ d.flag F.SC_DR_CFG_enable (k - 15) = true ∧ d.drState (k - 15) ≠ 1 then d.drStop (k - 15) Code.STALE
  else d.stopStage k

/-- A write of SC_ABS_CTRL[k].cmd by the safety controller (R283, R284, R285): 1 KICK, 2 CONTINUE, 3 STOP. -/
def Dev.absCommand (d : Dev) (k cmd : Nat) : Dev :=
  if cmd = 0 ∨ (cmd = 1 ∧ d.flag F.SC_ABS_CFG_enable k = false) ∨ (cmd = 2 ∧ d.flag F.SC_ABS_LEFT_awaiting k = false) then
    d.reject .sc (F.SC_ABS_CTRL.off k 0) Reason.value (BitVec.ofNat 32 cmd)
  else
    let d := (d.wr F.SC_ABS_CTRL_cmd k cmd).wr F.SC_ABS_CTRL_status k Code.OK
    if cmd = 3 then d.stopAction k else d.absRestart [k]

/-- KICK: the firmware restarts the absence timer of stage k. -/
def execKick (t : Nat) (k : Fin 21) (s : State) : Host.Outcome State Fault Refusal := fromFirmware t s fun d => d.absCommand k 1

/-- CONTINUE: the firmware answers a NOTIFY by restarting the timer. -/
def execContinue (t : Nat) (k : Fin 21) (s : State) : Host.Outcome State Fault Refusal := fromFirmware t s fun d => d.absCommand k 2

/-- STOP: the firmware applies the STOP action to a stage. -/
def execStop (t : Nat) (k : Fin 21) (s : State) : Host.Outcome State Fault Refusal := fromFirmware t s fun d => d.absCommand k 3

/-- ABSENCE_EXPIRY: the absence timer of stage k expires, and its action applies; NOTIFY interrupts the firmware (R284). -/
def execAbsenceExpiry (t : Nat) (k : Fin 21) (s : State) : Host.Outcome State Fault Refusal :=
  effect t s fun d =>
    match d.absDue k with
    | none => d
    | some due =>
      if due ≤ d.time then
        let d := ((d.setAbsDue k none).wr F.SC_ABS_LEFT_left k 0).put F.SC_ABS_LEFT_expired k true
        let d := d.reportOpen Kind.stage k Cls.report Code.STALE
        let action := d.rd F.SC_ABS_CFG_action k
        if action = 1 then
          ((d.put F.SC_ABS_LEFT_awaiting k true).setRespDue k (some (d.time + 80000 * d.rd F.SC_ABS_CFG_resp_time k))).raiseRequest
        else if action = 2 then d.stopAction k
        else d.force k false
      else d

/-- NOTIFY_TIMEOUT: resp_time passes without a decision, and STOP applies. -/
def execNotifyTimeout (t : Nat) (k : Fin 21) (s : State) : Host.Outcome State Fault Refusal :=
  effect t s fun d =>
    match d.respDue k with
    | some due => if due ≤ d.time then d.stopAction k else d
    | none => d

end Sys2Proof.Machine
end

