-- ==== Sys2Proof/Machine/DescrCheck.lean ====
section
/-! DEFINITION. The checks of a fetched descriptor (R310) for every opcode of the catalogue (R314, R331, R334, R358). -/

namespace Sys2Proof.Machine

/-- Is an opcode defined and allowed on a queue pair of this kind (R314)? -/
def opAllowed (kind op : Nat) : Bool :=
  if op = Op.NOP then kind != 4
  else if op = Op.FENCE then kind == 1 || kind == 6
  else if (Op.MEM_WRITE ≤ op ∧ op ≤ Op.ADMIT) ∨ (0x10 ≤ op ∧ op ≤ 0x1E ∧ op % 4 ≠ 3) then kind == 1
  else if op = Op.STREAM_BUF then kind == 2 || kind == 5
  else if op = Op.CAN_TX then kind == 3
  else if op = Op.CAN_RXBUF then kind == 4
  else 0x40 ≤ op && op ≤ 0x4E && kind == 6

/-- The units that ADMIT serves (R314, R380): kind and index. -/
def admitServes (kind index : Nat) : Bool :=
  match kind with
  | 0x01 => index < 64
  | 0x02 => index < 21
  | 0x06 => index < 6
  | 0x07 => index < 24
  | 0x08 => index < 28
  | 0x09 => index < 8
  | 0x0B => index < 6
  | 0x0C => index < 2
  | 0x11 => 1 ≤ index && index ≤ 14
  | 0x12 => index < 8
  | 0x13 => index < 256
  | 0x15 => index < 57
  | 0x16 => [3, 4, 5, 7, 8].contains index
  | 0x17 => index == 0
  | 0x19 => index == 0
  | _ => false

/-- The fields of a descriptor that an opcode does not use are zero: whether it uses target, length, param1, address,
param2. -/
def unusedZero (x : Descr) (target length param1 address param2 : Bool) : Bool :=
  (target || x.target == 0) && (length || x.length == 0) && (param1 || x.param1 == 0) && (address || x.address == 0) &&
    (param2 || x.param2 == 0)

/-- Is the motion target of a TM or DR descriptor legal: only the low 32 bits of param2? -/
def lowTarget (x : Descr) : Bool := x.param2 < 2 ^ 32

/-- The fields that a sequencer's descriptor does not use are zero, and its target is in range (R210, R237, R245, R254). -/
def sequencerFields (x : Descr) : Bool :=
  let stops := x.opcode % 4 == 2
  if x.opcode / 4 = 4 then
    unusedZero x true false (!stops) false (!stops) && x.target < 2 && x.param1 < 4 && lowTarget x
  else if x.opcode / 4 = 5 then unusedZero x false false (!stops) false (!stops) && x.param1 < 4
  else if x.opcode / 4 = 6 then unusedZero x false false false false (!stops)
  else unusedZero x true false (!stops) false (!stops) && x.target < 6 && x.param1 < 8 && lowTarget x

/-- The values that the opcode's own chapter requires of the fields of a start or a target (R210, R237, R245, R254), and of the lifetime
of a session (R356). -/
def Dev.rangesOk (d : Dev) (x : Descr) : Bool :=
  let mode := x.param1 % 4
  let lo := x.param2 % 2 ^ 32
  let hi := x.param2 / 2 ^ 32
  let f := x.opcode / 4
  if x.opcode = Op.SESSION_OPEN then 1 ≤ x.param1 && x.param1 ≤ d.rd F.SEC_CFG_session_max 0
  else if x.opcode % 4 = 2 then true
  else if f = 4 then mode == 1 || mode == 2
  else if f = 5 then
    0 < lo && lo < 2 ^ 31 && ((mode == 1 && 65536 ≤ hi && hi ≤ 65536000) || (mode == 2 && hi == 0))
  else if f = 6 then
    65536 * d.rd F.SC_LV_VRANGE_v_min 0 ≤ 100 * lo && 100 * lo ≤ 65536 * d.rd F.SC_LV_VRANGE_v_max 0 && 0 < hi && hi < 2 ^ 31
  else if f = 7 then (mode == 1 || mode == 2) && (!bitOf x.param1 2 || mode == 1)
  else true

/-- The fields that a management descriptor does not use are zero, and its target is in range (R358). -/
def managementFields (x : Descr) : Bool :=
  let buffer := unusedZero x false true false true false
  let op := x.opcode
  if op = Op.UNSEAL ∨ op = Op.IDENTITY ∨ op = Op.ATTEST ∨ op = Op.REVOKE then buffer
  else if op = Op.SESSION_OPEN then
    unusedZero x false true true true false && x.param1 < 65536
  else if op = Op.SESSION_CLOSE then unusedZero x false false false false false
  else if op = Op.ENROLL then unusedZero x true true false true false && x.target < 4
  else if op = Op.UPDATE_WRITE then unusedZero x true true false true true && x.target < 3 && lowTarget x
  else if op = Op.UPDATE_VERIFY then unusedZero x true false false false false && x.target < 3
  else if op = Op.UPDATE_ACTIVATE then unusedZero x true true true true false && x.target < 3 && x.param1 < 4
  else if op = Op.KEY_LOAD ∨ op = Op.KEY_ERASE then unusedZero x true true false true false && x.target < 256
  else if op = Op.RAISE_COUNTER then unusedZero x true true true true false && 8 ≤ x.target && x.target < 64
  else unusedZero x false true true true false

/-- Order 1 of R310: opcode, flags, unused fields, target. -/
def fieldsOk (kind : Nat) (x : Descr) : Bool :=
  let op := x.opcode
  opAllowed kind op && x.flags < 8 &&
    (if op = Op.NOP ∨ op = Op.FENCE then unusedZero x false false false false false
     else if op = Op.MEM_WRITE ∨ op = Op.MEM_READ then unusedZero x false true false true true && x.param2 < 2 ^ 23
     else if op = Op.SNAPSHOT ∨ op = Op.STREAM_BUF ∨ op = Op.CAN_RXBUF then unusedZero x false true false true false
     else if op = Op.ENGINE_ADMIT then unusedZero x true false false false false && x.target < 12
     else if op = Op.ADMIT then unusedZero x true false false false false && admitServes (x.target / 256) (x.target % 256)
     else if op = Op.CAN_TX then x.target < 256 && x.param1 < 2 ^ 21 && lowTarget x
     else if 0x40 ≤ op then managementFields x
     else sequencerFields x)

/-- Order 3 of R310: is the target of a descriptor fenced? ADMIT and ENGINE_ADMIT are for fenced units. Every descriptor of QP0 is
Imset's, which in RECOVERY takes only updates of its own firmware (R351, R372). -/
def Dev.targetFenced (d : Dev) (q : Nat) (x : Descr) : Bool :=
  if x.opcode = Op.CAN_TX then
    d.fenced Kind.flow x.target || d.fenced Kind.can (d.rd F.FL_CFG_controller x.target)
  else if q = 0 then
    d.fenced Kind.imset 0 ||
      (d.rd F.IMS_STAT_state 0 == 3 &&
        !([Op.UPDATE_WRITE, Op.UPDATE_VERIFY, Op.UPDATE_ACTIVATE].contains x.opcode && x.target == 0))
  else false

/-! ### CAN frames (R331, R337) -/

/-- The frame type of a CAN_TX descriptor. -/
def isFd (x : Descr) : Bool := bitOf x.param1 0
def isXl (x : Descr) : Bool := bitOf x.param1 2

/-- Bytes of an AUTH tag and of the freshness value on the bus. -/
def Dev.tagBytes (d : Dev) (l : Nat) : Nat := 2 ^ (d.rd F.FL_SEC_tag l + 1)
def Dev.fvBytes (d : Dev) (l : Nat) : Nat := d.rd F.FL_SEC_fv l + 1

/-- Security bytes that the profile of a flow adds: freshness value and tag (R337). -/
def Dev.securityBytes (d : Dev) (l : Nat) : Nat :=
  let p := d.rd F.FL_CFG_profile l
  if p = 1 then 0 else d.fvBytes l + (if p = 2 then d.tagBytes l else 16)

/-- Order 5 of R310 for a CAN_TX descriptor (R331). An XL data field is of 1 to 2,048 bytes (R324); one of none ends with LENGTH (DEDUCED,
log entry 42). -/
def Dev.canTxRule (d : Dev) (q : Nat) (x : Descr) : Option Nat :=
  let l := x.target
  let c := d.rd F.FL_CFG_controller l
  let proto := d.rd F.CN_CFG_proto c
  let fd := isFd x
  let xl := isXl x
  let xlFields := x.param1 / 16 == 0 && x.param2 == 0
  let top := if xl then 2048 else if fd then 64 else 8
  if !d.flag F.FL_CFG_enable l || d.rd F.FL_CFG_dir l != 2 || d.rd F.CN_CFG_tx_qp c != q || !d.flag F.CN_CFG_enable c
    || (fd && xl) || (fd && proto == 1) || (xl && proto != 3) || (bitOf x.param1 1 && !fd) || (isRtr x && (fd || xl))
    || (!xl && !xlFields) || (d.rd F.FL_CFG_profile l == 3 && !fd && !xl)
  then some Code.RANGE_VALUE
  else
    let total := x.length + (if isRtr x then 0 else d.securityBytes l)
    if top < total ∨ (xl = true ∧ total = 0) then some Code.LENGTH else none

/-! ### Buffers -/

/-- The key in an integrator slot. -/
def Dev.enrolled (d : Dev) (slot : Nat) : Option (List Byte) := Tbl.get (fun _ => none) d.sec.enrolled slot

/-- Is the first key still to come: does an ENROLL of slot 0 need no authorisation (R355)? -/
def Dev.enrolsFirst (d : Dev) (slot : Nat) : Bool := slot == 0 && [0, 1, 2, 3].all fun k => (d.enrolled k).isNone

/-- The shortest buffer of a management descriptor (R358): that of ENROLL holds the authorisation where one is required, and the key. -/
def Dev.leastBuffer (d : Dev) (x : Descr) : Nat :=
  let op := x.opcode
  if op = Op.IDENTITY then 29856
  else if op = Op.ATTEST then 51952
  else if op = Op.SESSION_OPEN then 31360
  else if op = Op.ENROLL then (if d.enrolsFirst x.target then 64 else 128)
  else if op = Op.KEY_LOAD then 112
  else if [Op.UNSEAL, Op.REVOKE, Op.UPDATE_ACTIVATE, Op.KEY_ERASE, Op.RAISE_COUNTER].contains op then 64
  else 0

/-- Is the length of a stream or receive buffer legal (R319, R334)? -/
def bufferLength (x : Descr) : Bool :=
  (if x.opcode = Op.CAN_RXBUF then 128 ≤ x.length else 256 ≤ x.length) && x.length ≤ 65528 && x.length % 8 == 0

/-- Order 4 of R310: host address and length. -/
def Dev.hostCheck (d : Dev) (x : Descr) : Option Nat :=
  match d.windowCheck x with
  | some st => some st
  | none =>
    if x.length < d.leastBuffer x ∨ ((x.opcode = Op.STREAM_BUF ∨ x.opcode = Op.CAN_RXBUF) ∧ bufferLength x = false) then
      some Code.LENGTH
    else none

/-- Is the unit of a sequencer's descriptor not enabled (R210, R237, R245, R254)? -/
def Dev.notEnabled (d : Dev) (x : Descr) : Bool :=
  let f := x.opcode / 4
  if f = 4 then !d.flag F.SC_TM_CFG_enable x.target else if f = 5 then !d.chOn else if f = 6 then !d.lvOn
  else f == 7 && !d.flag F.SC_DR_CFG_enable x.target

/-- Is the unit of a sequencer's descriptor in OFF? -/
def Dev.unitOff (d : Dev) (x : Descr) : Bool :=
  let f := x.opcode / 4
  if f = 4 then d.tmState x.target == 1 else if f = 5 then d.chState == 1 else if f = 6 then d.lvState == 1
  else f == 7 && d.drState x.target == 1

/-- Order 5 of R310: the rules of the opcode's own chapter that a descriptor can fail on arrival. A field out of its range comes first,
with RANGE_VALUE (DESIGN CHOICE, log entry 38). A unit that is not enabled answers
FENCED. A start of an enabled one while the device is not sealed answers NOT_SEALED (R34), also where the machine is in OFF, for which
R210 says FENCED: the spec orders neither (DESIGN CHOICE, log entry 38). Any other command for an enabled unit in OFF answers FENCED. -/
def Dev.chapterRule (d : Dev) (q : Nat) (x : Descr) : Option Nat :=
  let op := x.opcode
  if d.rangesOk x = false then some Code.RANGE_VALUE
  else if 0x10 ≤ op ∧ op ≤ 0x1E then
    if d.notEnabled x then some Code.FENCED
    else if op % 4 = 0 ∧ d.isSealed = false then some Code.NOT_SEALED
    else if d.unitOff x then some Code.FENCED
    else none
  else if op = Op.MEM_WRITE ∨ op = Op.MEM_READ then
    if 0x800000 < x.param2 + x.length then some Code.LENGTH else none
  else if op = Op.SNAPSHOT then
    if 4096 * x.length < (d.word (F.HI_SNAP_SIZE.off 0 0)).toNat then some Code.LENGTH else none
  else if op = Op.CAN_TX then d.canTxRule q x
  else none

/-- The checks of R310 in their order: none, or the status of the first failure. -/
def Dev.checkDescr (d : Dev) (q : Nat) (x : Descr) : Option Nat :=
  if fieldsOk (d.qpKind q) x = false then some Code.RANGE_VALUE
  else if isTimed x = true ∧ d.passed x.deadline = true then some Code.DEADLINE
  else if d.targetFenced q x = true then some Code.FENCED
  else
    match d.hostCheck x with
    | some st => some st
    | none => d.chapterRule q x

end Sys2Proof.Machine
end

