-- ==== Sys2Proof/Machine/HostRings.lean ====
section
/-! DEFINITION. Host rings (chapter 14): link resets, doorbells, enable and disable, fetch and receive, completions, deadlines,
FENCE, data transfers, SNAPSHOT, stream buffers and records. -/

namespace Sys2Proof.Machine

/-! ### Ends (R317 to R319) -/

/-- Where a data transfer or a lent buffer stands: is it one that moves bytes? -/
def movesBytes (op : Nat) : Bool := [Op.MEM_WRITE, Op.MEM_READ, Op.STREAM_BUF, Op.CAN_RXBUF].contains op

/-- Finish an item with the bytes it moved in detail, and partial set where it moved some. -/
def Dev.finishMoved (d : Dev) (q : Nat) (it : Item) (st : Nat) : Dev :=
  d.finish q it.index st (st != Code.OK && it.moved != 0) it.moved

/-- Is an item a lent buffer in use (R319, R334)? -/
def Item.isBuffer (it : Item) : Bool := it.phase == .started && (it.op == Op.STREAM_BUF || it.op == Op.CAN_RXBUF)

/-- The buffer in use of a queue pair: the oldest one lent. -/
def QpT.buffer (v : QpT) : Option Item := v.items.find? Item.isBuffer

/-- The descriptor at ring index i, ended with FENCED before it was read. -/
def Item.unread (i : Nat) : Item := { index := i, phase := .ended Code.FENCED false 0 }

/-- What was announced to queue pair q and not fetched ends at once, its completion ring being written no more. -/
def Dev.endUnread (d : Dev) (q : Nat) : Dev :=
  let v := d.qp q
  let n := d.ringSize q
  let head := d.rd F.HI_QP_STAT_sq_head q
  let rest := (List.range ((v.sqTail + n - head) % n)).map fun k => Item.unread ((head + k) % n)
  (d.setQp q { v with items := v.items ++ rest }).wr F.HI_QP_STAT_sq_head q v.sqTail

/-- A disabled or fenced queue pair (R318, R319): no descriptor is fetched to be carried out, what has not started ends with FENCED in ring
order, and lent buffers complete with FENCED. Announced descriptors not fetched end so too: where their completion ring is written no
more at once, otherwise as each is read for the sequence field and the opcode of its completion (R312; log entry 38). -/
def Dev.endPending (d : Dev) (q : Nat) : Dev :=
  let d := d.put F.HI_QP_CTRL_enable q false
  let v := d.qp q
  let d := v.items.foldl (fun d it =>
    if it.begun then (if it.isBuffer then d.finishMoved q it Code.FENCED else d) else d.finish q it.index Code.FENCED) d
  let d := if v.silent then d.endUnread q else d
  (d.put F.HI_QP_CTRL_draining q true).drainItems q

/-- A queue pair is fenced (R318, R372): its completion ring is written no more. -/
def Dev.fenceQp (d : Dev) (q cause sub : Nat) : Dev :=
  if d.fenced Kind.queue q then d
  else
    let d := (d.put F.HI_QP_FLAGS_fenced q true).wr F.HI_QP_CTRL_status q Code.FENCED
    let d := (d.markFenced Kind.queue q true).postFenced Kind.queue q Cls.c cause sub
    let d := d.setQp q { d.qp q with silent := true }
    d.endPending q

/-! ### Doorbells, enable, disable (R305, R306, R318, R323) -/

/-- A doorbell on an enabled queue pair: checked, then accepted or rejected. -/
def Dev.ringBell (d : Dev) (q : Nat) (v : Word) : Dev :=
  let p := d.qp q
  let n := d.ringSize q
  let tail := getBits v 0 16
  let head := getBits v 16 16
  let sq := d.rd F.HI_QP_STAT_sq_head q
  let cq := d.rd F.HI_QP_STAT_cq_tail q
  if tail < n ∧ head < n ∧ (p.sqTail + n - sq) % n ≤ (tail + n - sq) % n ∧ (head + n - p.cqHead) % n ≤ (cq + n - p.cqHead) % n then
    d.setQp q { p with sqTail := tail, cqHead := head, announced := p.announced + (tail + n - p.sqTail) % n }
  else (d.put F.HI_QP_FLAGS_bad_bell q true).bump F.HI_QP_FLAGS_bell_err_cnt q

/-- The queue pair whose doorbell lies at an offset of the BELL window (R19): 0x40 × q; nothing lies elsewhere. -/
def bellPair (off : Nat) : Option Nat := if off % 0x40 = 0 then some (off / 0x40 % 64) else none

/-- What a read of an offset of the BELL window returns: the last accepted doorbell (R306). -/
def Dev.bellWord (d : Dev) (off : Nat) : Word :=
  match bellPair off with
  | some q => BitVec.ofNat 32 ((d.qp q).sqTail % 65536 + 65536 * (d.qp q).cqHead)
  | none => 0

/-- A doorbell write to queue pair q; on a disabled one it is stored. -/
def Dev.doorbell (d : Dev) (q : Nat) (v : Word) : Dev :=
  if d.qpOn q then d.ringBell q v else d.setQp q { d.qp q with bell := some v }

/-- DOORBELL: the host writes v to an offset of the BELL window of 4 KiB. -/
def execDoorbell (t : Nat) (off : Fin 4096) (v : Word) (s : State) : Host.Outcome State Fault Refusal :=
  effect t s fun d =>
    match bellPair off with
    | some q => if d.reaches .host then d.doorbell q v else d
    | none => d

/-- May the rings not be used at all: is the HLI island or the ring DMA engine fenced (R372, R373)? -/
def Dev.ringsFenced (d : Dev) : Bool := d.fenced Kind.ringDma 0 || d.fenced Kind.island 6

/-- HI_QP_CTRL.enable is written 1 (R305, R318). -/
def Dev.enableQp (d : Dev) (m : Master) (q : Nat) : Dev :=
  if d.flag F.HI_QP_CTRL_draining q then d.reject m (F.HI_QP_CTRL.off q 0) Reason.value 1
  else if d.ringsFenced then d.reject m (F.HI_QP_CTRL.off q 0) Reason.fenced 1
  else if d.qpOn q then d
  else
    let n := d.ringSize q
    let bad := match d.checkHost (d.sqBase q) (32 * n) false with
      | some st => some st
      | none => d.checkHost (d.cqBase q) (16 * n) true
    match bad with
    | some st => d.wr F.HI_QP_CTRL_status q st
    | none =>
      let d := (d.put F.HI_QP_CTRL_enable q true).wr F.HI_QP_CTRL_status q Code.OK
      let d := (d.wr F.HI_QP_STAT q 0).put F.HI_QP_FLAGS_phase q true
      let d := (d.markFenced Kind.queue q false).put F.HI_QP_FLAGS_fenced q false
      let v := d.qp q
      let d := d.setQp q { v with items := [], sqTail := 0, cqHead := 0, bell := none, unsignalled := 0, silent := false }
      match v.bell with
      | some w => d.ringBell q w
      | none => d

/-- QP_ENABLE: master m writes 1 to HI_QP_CTRL[q].enable. -/
def execQpEnable (t : Nat) (m : Master) (q : Fin 64) (s : State) : Host.Outcome State Fault Refusal :=
  fromMaster m t s fun d => d.enableQp m q

/-- HI_QP_CTRL.enable is written 0 (R318). -/
def Dev.disableQp (d : Dev) (q : Nat) : Dev := if d.qpOn q then d.endPending q else d

/-- QP_DISABLE: a master writes 0 to HI_QP_CTRL[q].enable. -/
def execQpDisable (t : Nat) (q : Fin 64) (s : State) : Host.Outcome State Fault Refusal :=
  effect t s fun d => d.disableQp q

/-! ### Resets of the link (R302) -/

/-- A link reset: the HLI island, HI_LINK, HI_ERR, BELL window, MSI-X table and pending bits; the function is in D0; every queue pair is
disabled and writes no completion. `hli` says that the clock of a lost HLI has been present for 1 ms (R380), `dma` that the reset re-admits the
ring DMA engine. -/
def Dev.linkReset (d : Dev) (hli dma : Bool) : Dev :=
  let n := d.rd F.HI_LINK_resets 0
  let d := (d.wr F.HI_LINK 0 0).wr F.HI_LINK_resets 0 (min (n + 1) 65535)
  let d := d.wr F.HI_ERR 0 0
  let d := d.withHi { d.hi with msix := [], pba := [], d3hot := false, l1 := false }
  let d := d.each queuePairs fun d q =>
    let d := (d.setQp q { d.qp q with silent := true, bell := none }).endPending q
    d.setQp q { d.qp q with sqTail := 0, cqHead := 0 }
  let d := if hli then d.markFenced Kind.island 6 false else d
  if dma then d.markFenced Kind.ringDma 0 false else d

/-- PERST is asserted and released. -/
def execPerst (t : Nat) (hli : Bool) (s : State) : Host.Outcome State Fault Refusal := effect t s fun d => d.linkReset hli true

/-- HOT_RESET: a hot reset on the link. -/
def execHotReset (t : Nat) (hli : Bool) (s : State) : Host.Outcome State Fault Refusal := effect t s fun d => d.linkReset hli false

/-- FUNCTION_LEVEL_RESET. -/
def execFunctionLevelReset (t : Nat) (hli : Bool) (s : State) : Host.Outcome State Fault Refusal :=
  effect t s fun d => d.linkReset hli true

/-- The bytes of a word, lowest first. -/
def wordBytes (w : Word) : List Byte := (List.range 4).map fun k => w.extractLsb' (8 * k) 8

/-- A list padded with zeros to a multiple of 8 bytes. -/
def pad8 (bs : List Byte) : List Byte := bs ++ List.replicate ((8 - bs.length % 8) % 8) 0

/-- The bytes of a number, lowest first. -/
def numBytes (n k : Nat) : List Byte := (List.range k).map fun j => BitVec.ofNat 8 (n / 256 ^ j)

/-! ### Received CAN frames (R334) -/

/-- Update what controller c carries. -/
def Dev.onCan (d : Dev) (c : Nat) (f : CnT → CnT) : Dev := d.setCan c (f (d.can c))

/-- The bytes of a receive record. -/
def RxRec.bytes (r : RxRec) : List Byte :=
  pad8 (numBytes r.time 8 ++ numBytes r.flow 2 ++ numBytes r.status 1 ++ numBytes r.format 1 ++ numBytes r.ident 4 ++
    numBytes r.length 2 ++ numBytes r.sdt 1 ++ numBytes r.vcid 1 ++ numBytes r.af 4 ++ r.data)

/-- Does controller c hold a received record that can be written? A LOST record waits for one that follows it. -/
def CnT.hasRx (v : CnT) : Bool := v.held.any fun r => r.status != Code.LOST

/-- The controller whose record queue pair q writes next: of the enabled ones that name it, that with the oldest record. -/
def Dev.rxSource (d : Dev) (q : Nat) : Option Nat :=
  let cs := (List.range 8).filter fun c => d.flag F.CN_CFG_enable c && d.rd F.CN_CFG_rx_qp c == q && (d.can c).hasRx
  let age (c : Nat) : Nat := ((d.can c).held.headD { time := 0, flow := 0, status := 0 }).time
  cs.find? fun c => cs.all fun k => Nat.ble (age c) (age k)

/-- One record that a controller holds goes into the buffer in use of its queue pair; where it does not fit, the buffer
completes. A LOST record waits for one that follows it. -/
def Dev.writeRx (d : Dev) (c q : Nat) : Dev :=
  match (d.qp q).buffer, (d.can c).held with
  | some it, r :: rest =>
    if r.status = Code.LOST ∧ rest = [] then d
    else
      match it.desc with
      | some x =>
        let bs := r.bytes
        if it.moved + bs.length ≤ x.length then
          let d := d.emit (.bytes (x.address + it.moved) bs)
          let d := d.onCan c fun v => { v with held := rest }
          d.onItem q it.index fun it =>
            { it with moved := it.moved + bs.length, firstAt := if it.moved = 0 then d.time else it.firstAt }
        else d.finishMoved q it Code.OK
      | none => d
  | _, _ => d

/-! ### Fetch, receive, completion (R307, R310, R312) -/

/-- The completion index up to which host software has consumed: that of the last accepted doorbell, or, while the queue pair drains, that of
the doorbell stored, where it meets R306 (log entry 38). -/
def Dev.cqConsumed (d : Dev) (q : Nat) : Nat :=
  let v := d.qp q
  let n := d.ringSize q
  match v.bell with
  | some w =>
    let h := getBits w 16 16
    if h < n ∧ (h + n - v.cqHead) % n ≤ (d.rd F.HI_QP_STAT_cq_tail q + n - v.cqHead) % n then h else v.cqHead
  | none => v.cqHead

/-- Completions of queue pair q written and not consumed. -/
def Dev.unconsumed (d : Dev) (q : Nat) : Nat :=
  (d.rd F.HI_QP_STAT_cq_tail q + d.ringSize q - d.cqConsumed q) % d.ringSize q

/-- May queue pair q fetch its next announced descriptor: to carry it out, or, while it drains, to end it? -/
def Dev.mayFetch (d : Dev) (q : Nat) : Bool :=
  let v := d.qp q
  (d.qpOn q || (d.flag F.HI_QP_CTRL_draining q && !v.silent)) && d.rd F.HI_QP_STAT_sq_head q != v.sqTail && Nat.blt v.inFlight 32 &&
    Nat.blt (d.unconsumed q + v.items.length) (d.ringSize q - 1)

/-- The queue pair served last at a priority. -/
def Dev.served (d : Dev) (prio : Nat) : Nat := Tbl.get (fun _ => 63) d.hi.served prio

/-- Has queue pair q a buffer in use and a record for it, held or on its way? A LOST record waits for one that follows it. -/
def Dev.mayRecord (d : Dev) (q : Nat) : Bool :=
  let v := d.qp q
  d.qpOn q && v.buffer.isSome &&
    (v.held.any (fun r => r.type != 2) || d.hi.records.any (fun e => e.1 == q) || (d.be.emitted.any fun e => e.qp == q) ||
      (d.rxSource q).isSome)

/-- The queue pair whose turn it is: of those with a descriptor to fetch or a record to write, highest priority first, round robin
within one (R307). A function in D3hot has none (R301). -/
def Dev.turn (d : Dev) : Option Nat :=
  let want := queuePairs.filter fun q => !d.hi.d3hot && (d.mayFetch q || d.mayRecord q)
  let top := want.foldl (fun p q => max p (d.rd F.HI_QP_CFG_prio q)) 0
  let ring := (queuePairs.map fun k => (d.served top + 1 + k) % 64)
  ring.find? fun q => want.contains q && d.rd F.HI_QP_CFG_prio q == top

/-- Queue pair q has had its turn. -/
def Dev.hadTurn (d : Dev) (q : Nat) : Dev :=
  d.withHi { d.hi with served := Tbl.set (fun _ => 63) d.hi.served (d.rd F.HI_QP_CFG_prio q) q }

/-- DESCRIPTOR_FETCH: the ring DMA engine reads the next announced descriptor of the queue pair whose turn it is. -/
def execDescriptorFetch (t : Nat) (s : State) : Host.Outcome State Fault Refusal :=
  effect t s fun d =>
    match d.turn with
    | none => d
    | some q =>
      if d.mayFetch q then
        let i := d.rd F.HI_QP_STAT_sq_head q
        let d := d.setQp q { d.qp q with items := (d.qp q).items ++ [if d.qpOn q then { index := i } else Item.unread i] }
        let d := (d.hadTurn q).wr F.HI_QP_STAT_sq_head q ((i + 1) % d.ringSize q)
        (d.emit (.fetch q i (d.sqBase q + 32 * i))).showQp q
      else d

/-- DESCRIPTOR_RECEIVE: the descriptor read from ring index i of queue pair q arrives and is checked (R310). One that has ended meanwhile
gives its completion the sequence field and the opcode (R312). -/
def execDescriptorReceive (t : Nat) (q : Fin 64) (i : Nat) (x : Descr) (s : State) : Host.Outcome State Fault Refusal :=
  effect t s fun d =>
    let unread (it : Item) : Bool := it.index == i && it.desc.isNone
    match (d.qp q).items.find? unread with
    | none => d
    | some it =>
      if it.phase = .fetched then
        let d := d.onItem q i fun it => { it with desc := some x, phase := .received }
        match d.checkDescr q x with
        | some st => d.finish q i st
        | none => d.showQp q
      else d.setQp q { d.qp q with items := onFirst unread (fun it => { it with desc := some x }) (d.qp q).items }

/-- The four words of a completion (R312). -/
def completionWords (sequence status phase index opcode : Nat) (partly : Bool) (detail : Word) (time : Nat) : List Word :=
  [BitVec.ofNat 32 (sequence % 65536 + 65536 * (status % 256) + 2 ^ 24 * (phase % 2 + 2 * b2n partly)),
   BitVec.ofNat 32 (index % 65536 + 65536 * (opcode % 256)), detail, BitVec.ofNat 32 time]

/-- May queue pair q write a completion: its ring can be written, has an entry that host software has consumed (R307, R323), and the
function is in D0? -/
def Dev.mayComplete (d : Dev) (q : Nat) : Bool :=
  !(d.qp q).silent && Nat.blt (d.unconsumed q) (d.ringSize q - 1) && !d.hi.d3hot

/-- COMPLETION_WRITE: the completion of the oldest descriptor of queue pair q, which has ended, is written (R312, R317). That of one that
ended before it was read waits for the read, whose sequence field and opcode it carries. -/
def execCompletionWrite (t : Nat) (q : Fin 64) (s : State) : Host.Outcome State Fault Refusal :=
  effect t s fun d =>
    let v := d.qp q
    match v.items with
    | [] => d
    | it :: rest =>
      match it.phase, it.desc with
      | .ended st partly detail, some x =>
        if d.mayComplete q then
          let c := d.rd F.HI_QP_STAT_cq_tail q
          let n := d.ringSize q
          let ws := completionWords x.sequence st (d.rd F.HI_QP_FLAGS_phase q) it.index x.opcode partly detail d.unit1024
          let d := d.emit (.words (d.cqBase q + 16 * c) ws)
          let d := d.wr F.HI_QP_STAT_cq_tail q ((c + 1) % n)
          let d := if c + 1 = n then d.put F.HI_QP_FLAGS_phase q (!d.flag F.HI_QP_FLAGS_phase q) else d
          let d := d.setQp q { d.qp q with items := rest, done := v.done + 1 }
          (d.moderate q (isUrgent x)).showQp q
        else d
      | _, _ => d

/-- MODERATION_TIMEOUT: the oldest unsignalled completion of queue pair q is HI_QP_MOD.time µs old (R313). -/
def execModerationTimeout (t : Nat) (q : Fin 64) (s : State) : Host.Outcome State Fault Refusal :=
  effect t s fun d =>
    let v := d.qp q
    if 0 < v.unsignalled ∧ v.unsigAt + 800 * d.rd F.HI_QP_MOD_time q ≤ d.time then d.signal q else d

/-! ### Deadlines and errors (R311, R318) -/

/-- The byte of a transfer at which a passed deadline stops it: the next 256-byte boundary of the host address. -/
def deadlineStop (addr moved : Nat) : Nat := moved + (256 - (addr + moved) % 256) % 256

/-- A sequencer's started command passes its deadline: it completes with DEADLINE, and its owner is stopped (R311). -/
def Dev.deadlineOwner (d : Dev) (q i : Nat) (x : Descr) : Dev :=
  let d := d.finish q i Code.DEADLINE
  let m := x.target
  if x.opcode / 4 = 4 then
    if (d.tmOf m).job = some (q, i) then (d.onTm m fun v => { v with job := none }).tmStop m Code.STALE else d
  else if x.opcode / 4 = 5 then
    if d.ch.job = some (q, i) then (d.onCh fun c => { c with job := none }).chStop [] Code.STALE
    else if d.ch.stopJobs.contains (q, i) then d.onCh fun c => { c with stopJobs := c.stopJobs.filter fun j => j != (q, i) }
    else d
  else if x.opcode / 4 = 6 then
    if d.ch.lvJob = some (q, i) then (d.onCh fun c => { c with lvJob := none }).lvStop Code.STALE else d
  else if x.opcode / 4 = 7 then
    if (d.drive m).job = some (q, i) then (d.onDr m fun v => { v with job := none }).drStop m Code.STALE else d
  else d

/-- DESCRIPTOR_DEADLINE: the deadline of the descriptor at ring index i of queue pair q passes (R311). `sending` says, of a CAN
frame in a slot, that its attempt has started (R332). -/
def execDescriptorDeadline (t : Nat) (q : Fin 64) (i : Nat) (sending : Bool) (s : State) : Host.Outcome State Fault Refusal :=
  effect t s fun d =>
    match (d.qp q).item i with
    | none => d
    | some it =>
      match it.desc with
      | none => d
      | some x =>
        if isTimed x = false ∨ d.passed x.deadline = false then d
        else match it.phase with
        | .received | .handed => d.finish q i Code.DEADLINE
        | .queued =>
          match d.sc.vq.find? fun e => e.qp == q.val && e.index == i && !e.done with
          | some e => d.vqExpire e false
          | none => d
        | .started =>
          if x.opcode = Op.MEM_WRITE ∨ x.opcode = Op.MEM_READ then
            d.onItem q i fun it => { it with stopAt := some (deadlineStop x.address it.moved) }
          else if x.opcode = Op.CAN_TX then
            if sending then d else d.finish q i Code.DEADLINE
          else if 4 ≤ x.opcode / 4 ∧ x.opcode / 4 ≤ 7 then d.deadlineOwner q i x
          else d
        | _ => d

/-- HOST_ERROR: a ring access of queue pair q draws an error from the host: Unsupported Request or Completer Abort (0), poisoned
data (1), a timeout (2). It is reported as a non-fatal error on the link (R301). -/
def execHostError (t : Nat) (q : Fin 64) (k : Fin 3) (s : State) : Host.Outcome State Fault Refusal :=
  effect t s fun d =>
    let d := d.put (if k.val = 0 then F.HI_ERR_ur_ca else if k.val = 1 then F.HI_ERR_poisoned else F.HI_ERR_timeout) 0 true
    ((d.bump F.HI_ERR_count 0).emit (.nonFatal k.val)).fenceQp q 0 0

/-! ### NOP and FENCE (R314, R316) -/

/-- NOP. -/
def execNop (t : Nat) (q : Fin 64) (i : Nat) (s : State) : Host.Outcome State Fault Refusal :=
  effect t s fun d => d.startItem q i Op.NOP .received fun d _ => d.finish q i Code.OK

/-- FENCE: records what it awaits: per queue pair the descriptors announced so far, on its own those ahead of it. -/
def execFence (t : Nat) (q : Fin 64) (i : Nat) (s : State) : Host.Outcome State Fault Refusal :=
  effect t s fun d => d.startItem q i Op.FENCE .received fun d _ =>
    let awaits := queuePairs.map fun p =>
      (p, if p = q.val then (d.qp p).done + ((d.qp p).ahead i).length else (d.qp p).announced)
    d.onItem q i fun it => { it with awaits := awaits }

/-- FENCE_COMPLETE: every descriptor that the FENCE at ring index i awaits has completed. -/
def execFenceComplete (t : Nat) (q : Fin 64) (i : Nat) (s : State) : Host.Outcome State Fault Refusal :=
  effect t s fun d =>
    match (d.qp q).item i with
    | some it =>
      if it.phase = .started ∧ it.op = Op.FENCE ∧ it.awaits.all (fun e => Nat.ble e.2 (d.qp e.1).done) = true then
        d.finish q i Code.OK
      else d
    | none => d

/-! ### Data transfers (R315) -/

/-- The counter index of the host DMA engine among the masters of the banks (R288). -/
def hstMaster : Nat := 13

/-- Does every bank that `n` bytes from address a touch belong to HST? -/
def Dev.hstOwns (d : Dev) (a n : Nat) : Bool :=
  n == 0 || ((List.range 16).filter fun b => Nat.ble (a / 0x80000) b && Nat.ble b ((a + n - 1) / 0x80000)).all
    fun b => d.bankOwned hstMaster b

/-- Start a data transfer that has not started (R315), or leave one that has. -/
def Dev.beginTransfer (d : Dev) (q i op : Nat) : Dev :=
  d.startItem q i op .received fun d x =>
    if op = Op.MEM_WRITE ∧ d.hstOwns x.param2 x.length = false then d.finish q i Code.NOT_OWNER else d

/-- How many bytes a transfer may still move. -/
def Item.left (it : Item) (x : Descr) : Nat :=
  (match it.stopAt with | some n => min n x.length | none => x.length) - it.moved

/-- A byte goes to bank space, with `left` bytes behind it: a word in one access, which the bank serves (R290), checked first where only a
part of it is written (R291). `first` tells the first byte of the command's, and what befell its word. -/
def Dev.storeByte (d : Dev) (a : Nat) (b : Byte) (left : Nat) (first : Option Upset) : Dev :=
  let d := if first.isSome || a % 4 == 0 then d.bankServed .ring (bankOf a) else d
  let d :=
    if d.fenced Kind.bank (bankOf a) then d
    else if a % 4 = 0 ∧ 3 ≤ left then d.setBankFlips a 0
    else if first.isSome || a % 4 == 0 then d.bankCheck a (first.getD {})
    else d
  if d.fenced Kind.bank (bankOf a) then d else d.setBankByte a b

/-- Bytes go to bank space; the first one that HST may not write ends the transfer (R298, R315). -/
def Dev.storeBytes (d : Dev) (q i a : Nat) (first : Option Upset) : List Byte → Dev
  | [] => d
  | b :: bs =>
    if d.bankOwned hstMaster (bankOf a) then
      let d := d.storeByte a b bs.length first
      Dev.storeBytes (d.onItem q i fun it => { it with moved := it.moved + 1 }) q i (a + 1) none bs
    else
      let d := (d.bankServed .ring (bankOf a)).bankRefuse hstMaster a
      match (d.qp q).item i with
      | some it => d.finishMoved q it Code.NOT_OWNER
      | none => d

/-- The next bytes of the MEM_WRITE at ring index i go to bank space, when it is the DMA engine's turn there (R290, R299). -/
def Dev.writeNext (d : Dev) (q i : Nat) (data : MemBytes) : Dev :=
  match (d.qp q).item i with
  | some it =>
    match it.desc with
    | some x =>
      let a := x.param2 + it.moved
      if it.phase = .started ∧ x.opcode = Op.MEM_WRITE ∧ d.itsTurn .ring (bankOf a) data.wait.turn.others = true then
        (d.bankWait hstMaster data.wait.wait).storeBytes q i a (some data.wait.turn.upset) (data.bytes.take (it.left x))
      else d
    | none => d
  | none => d

/-- MEM_WRITE: the next bytes of the transfer arrive from the host; the first event starts the descriptor. -/
def execMemWrite (t : Nat) (q : Fin 64) (i : Nat) (data : MemBytes) (s : State) : Host.Outcome State Fault Refusal :=
  effect t s fun d => (d.beginTransfer q i Op.MEM_WRITE).writeNext q i data

/-- The next n bytes of the transfer `x` leave the banks for host memory, up to the first word that does not read, which ends it; `u` befell
their first word. Each word read is served (R290) and checked (R294). -/
def Dev.sendBytes (d : Dev) (q i n : Nat) (it : Item) (x : Descr) (u : Upset) : Dev :=
  let a := x.param2 + it.moved
  let n := min n (it.left x)
  let fell (j : Nat) : Upset := if (a + j) / 4 = a / 4 then u else {}
  let k := ((List.range n).takeWhile fun j => d.bankReads (a + j) (fell j)).length
  let d := d.each ((List.range (min (k + 1) n)).filter fun j => j == 0 || (a + j) % 4 == 0) fun d j =>
    (d.bankServed .ring (bankOf (a + j))).bankCheck (a + j) (fell j)
  let d := if k = 0 then d else d.emit (.bytes (x.address + it.moved) ((List.range k).map fun j => d.bankByte (a + j)))
  let it := { it with moved := it.moved + k }
  let d := d.onItem q i fun _ => it
  if k < n then d.finishMoved q it Code.BROKEN else d

/-- The next n bytes of the MEM_READ at ring index i go to host memory, when it is the DMA engine's turn at their bank (R290, R299), each
word checked as it is read (R294). -/
def Dev.readNext (d : Dev) (q i n : Nat) (w : BankWait) : Dev :=
  match (d.qp q).item i with
  | some it =>
    match it.desc with
    | some x =>
      if it.phase = .started ∧ x.opcode = Op.MEM_READ ∧ d.itsTurn .ring (bankOf (x.param2 + it.moved)) w.turn.others = true then
        (d.bankWait hstMaster w.wait).sendBytes q i n it x w.turn.upset
      else d
    | none => d
  | none => d

/-- MEM_READ: the next n bytes of the transfer leave for the host; the first event starts the descriptor. -/
def execMemRead (t : Nat) (q : Fin 64) (i n : Nat) (w : BankWait) (s : State) : Host.Outcome State Fault Refusal :=
  effect t s fun d => (d.beginTransfer q i Op.MEM_READ).readNext q i n w

/-- DATA_TRANSFER_DONE: the transfer at ring index i has moved its last byte, or stands where a passed deadline stops it. -/
def execDataTransferDone (t : Nat) (q : Fin 64) (i : Nat) (s : State) : Host.Outcome State Fault Refusal :=
  effect t s fun d =>
    match (d.qp q).item i with
    | some it =>
      match it.desc with
      | some x =>
        if it.phase = .started ∧ (x.opcode = Op.MEM_WRITE ∨ x.opcode = Op.MEM_READ) ∧ it.left x = 0 then
          d.finishMoved q it (if it.moved < x.length then Code.DEADLINE else Code.OK)
        else d
      | none => d
    | none => d

/-- A host window was disabled (R303, R323): descriptors in progress whose data lies in it complete with RANGE. -/
def Dev.windowClosed (d : Dev) (w : Nat) : Dev :=
  d.each queuePairs fun d q =>
    (d.qp q).items.foldl (fun d it =>
      match it.desc with
      | some x =>
        if it.phase = .started ∧ movesBytes x.opcode = true ∧ (d.window w).1 ≤ x.address ∧ x.address < (d.window w).2 ∧
          d.checkHost x.address x.length (x.opcode != Op.MEM_WRITE) ≠ none then d.finishMoved q it Code.RANGE
        else d
      | none => d) d

/-! ### Stream buffers and records (R319, R320) -/

/-- STREAM_BUF: a buffer is lent. -/
def execStreamBuf (t : Nat) (q : Fin 64) (i : Nat) (s : State) : Host.Outcome State Fault Refusal :=
  effect t s fun d => d.startItem q i Op.STREAM_BUF .received fun d _ => d

/-- The bytes of a record (R320). -/
def StreamRec.bytes (r : StreamRec) : List Byte :=
  pad8 (numBytes r.seq 8 ++ numBytes r.stamp 8 ++ numBytes r.type 1 ++ numBytes r.loop 1 ++ numBytes r.body.length 1 ++
    numBytes (b2n r.raw) 1 ++ numBytes r.update 2 ++ numBytes 0 2 ++ r.body.flatMap wordBytes)

/-- A record is dropped (R319, R320): counted, its sequence number used up, and covered by the LOST record that ends the list of
records held. -/
def Dev.dropRecord (d : Dev) (q : Nat) : Dev :=
  let n := d.rd64 F.HI_QP_SEQ_LO F.HI_QP_SEQ_HI q
  let v := d.qp q
  let held := match v.held.getLast? with
    | some l =>
      if l.type = 2 then v.held.dropLast ++ [{ l with body := [l.body.headD 0 + 1, 0] }]
      else v.held ++ [{ seq := n, stamp := d.time, type := 2, body := [1, 0] }]
    | none => [{ seq := n, stamp := d.time, type := 2, body := [1, 0] }]
  let d := d.setQp q { v with held := held }
  ((d.bump F.HI_QP_LOST q).put F.HI_QP_FLAGS_lost q true).wr64 F.HI_QP_SEQ_LO F.HI_QP_SEQ_HI q (n + 1)

/-- A record reaches its queue pair: held with the next sequence number, or dropped. -/
def Dev.takeRecord (d : Dev) (q : Nat) (r : StreamRec) : Dev :=
  let v := d.qp q
  if d.qpOn q && Nat.blt (v.held.filter fun r => r.type != 2).length 256 then
    let n := d.rd64 F.HI_QP_SEQ_LO F.HI_QP_SEQ_HI q
    (d.setQp q { v with held := v.held ++ [{ r with seq := n }] }).wr64 F.HI_QP_SEQ_LO F.HI_QP_SEQ_HI q (n + 1)
  else d.dropRecord q

/-- The oldest record on its way to queue pair q, from its source. -/
def Dev.nextRecord (d : Dev) (q : Nat) : Option StreamRec × Dev :=
  match d.hi.records.find? fun e => e.1 == q with
  | some e => (some e.2, d.withHi { d.hi with records := d.hi.records.erase e })
  | none =>
    match d.be.emitted.find? fun e => e.qp == q with
    | some e =>
      (some { stamp := e.stamp, type := 1, loop := e.loop, raw := e.raw, update := e.update % 65536, body := e.values },
       d.withBe { d.be with emitted := d.be.emitted.erase e })
    | none => (none, d)

/-- The oldest record held is written into the buffer in use; where it does not fit, the buffer completes. A LOST record waits
for a record that follows it. -/
def Dev.writeHeld (d : Dev) (q : Nat) : Dev :=
  let v := d.qp q
  match v.buffer, v.held with
  | some it, r :: rest =>
    if r.type = 2 ∧ rest = [] then d
    else
      let bs := r.bytes
      match it.desc with
      | some x =>
        if it.moved + bs.length ≤ x.length then
          let d := d.emit (.bytes (x.address + it.moved) bs)
          let d := d.setQp q { v with held := rest }
          d.onItem q it.index fun it =>
            { it with moved := it.moved + bs.length, firstAt := if it.moved = 0 then d.time else it.firstAt }
        else d.finishMoved q it Code.OK
      | none => d
  | _, _ => d

/-- RECORD_WRITE: the next record on its way to queue pair q is taken, held or dropped, and at its turn (R307) the oldest one held, or that
of a CAN controller, is written where a buffer is lent. -/
def execRecordWrite (t : Nat) (q : Fin 64) (s : State) : Host.Outcome State Fault Refusal :=
  effect t s fun d =>
    let turn := d.turn
    let (r, d) := d.nextRecord q
    let d := match r with
      | some r => d.takeRecord q r
      | none => d
    if turn = some q.val then
      (match d.rxSource q with
       | some c => d.writeRx c q
       | none => d.writeHeld q).hadTurn q
    else d

/-- BUFFER_FLUSH: flush × 100 µs have passed since the first record of the buffer in use of queue pair q. -/
def execBufferFlush (t : Nat) (q : Fin 64) (s : State) : Host.Outcome State Fault Refusal :=
  effect t s fun d =>
    match (d.qp q).buffer with
    | some it =>
      if 0 < it.moved ∧ it.firstAt + 80000 * d.rd F.HI_QP_MOD_flush q ≤ d.time then d.finishMoved q it Code.OK else d
    | none => d

end Sys2Proof.Machine
end

