-- ==== Sys2Proof/Machine/Timebase.lean ====
section
/-! DEFINITION. Timebase and pulse generators (chapter 02): discipline to global time, update points and deadline instants,
the TBI gate, safety-controller shadows and commits, start and stop, compares, dead times and triggers. -/

namespace Sys2Proof.Machine

/-! ### Discipline (R37, R38) -/

/-- Is a stage with GLOBAL sync running? Its TB_STG_RUN.run tells; R38 does not say whether a stage whose ports are not yet driven counts
(DESIGN CHOICE, log entry 66). -/
def Dev.globalRuns (d : Dev) : Bool := stages.any fun s => d.globalStage s && d.flag F.TB_STG_RUN_run s

/-- The step limit in ticks. -/
def Dev.stepLimit (d : Dev) : Nat := 1024 * d.rd F.TB_SYNC_CFG_step_limit 0

/-- Write G, signed. -/
def Dev.setOffset (d : Dev) (g : Int) : Dev := d.wr64 F.TB_GT_OFFSET_LO F.TB_GT_OFFSET_HI 0 (unsigned 64 g)

/-- The discipline error at a global time of gt ticks. -/
def Dev.gtError (d : Dev) (gt : Nat) : Int := clampInt (-2147483648) 2147483647 ((d.time : Int) - (gt + d.gtOffset))

/-- G is captured as device time minus global time, and the state becomes LOCKED (R38). -/
def Dev.captureOffset (d : Dev) (gt : Nat) : Dev :=
  (((d.setOffset ((d.time : Int) - gt)).wr F.TB_GT_ERR 0 0).wr F.TB_GT_STAT_state 0 3).withTb { d.tb with lockedAt := d.time }

/-- A rate correction within slew_ppm, in parts in 10^9 (R37). -/
def Dev.setRate (d : Dev) (r : Int) : Dev :=
  let lim : Int := 1000 * d.rd F.TB_SYNC_CFG_slew_ppm 0
  d.wrInt F.TB_RATE 0 (clampInt (-lim) lim r)

/-- The rate correction drives the error towards zero with a time constant of 1 s, within slew_ppm (R37): an error of one tick, 1.25 ns,
asks for 1.25 parts in 10^9 against it, on top of what makes up for the deviation of the device's own reference, which lies within
100 ppm (R389) and is open. -/
def Dev.slew (d : Dev) (e : Int) : Dev := d.setRate (clampInt (-100000) 100000 Config.refDeviation - roundDiv (5 * e) 4)

/-- Does R37 rule out an error of a reference within the step limit: after 10 s, 8 × 10^9 ticks, in LOCKED it stays within ±40 ticks? -/
def Dev.ruledOut (d : Dev) (e : Int) : Bool :=
  d.rd F.TB_GT_STAT_state 0 == 3 && Nat.ble (d.tb.lockedAt + 8000000000) d.time && Nat.blt 40 e.natAbs

/-- A global reference arrives: the error is renewed and the state follows it (R38). One with an error that R37 rules out does not come
(log entry 17). -/
def Dev.gtReference (d : Dev) (gt : Nat) : Dev :=
  let st := d.rd F.TB_GT_STAT_state 0
  if st = 1 ∨ st = 2 ∨ !d.flag F.TB_GT_STAT_gt_valid 0 then d
  else
    let e := d.gtError gt
    if e.natAbs ≤ d.stepLimit then
      if d.ruledOut e then d
      else
      let since := if st = 3 then d.tb.lockedAt else d.time
      (((d.wrInt F.TB_GT_ERR 0 e).wr F.TB_GT_STAT_state 0 3).withTb { d.tb with lockedAt := since }).slew e
    else
      let d := d.wrInt F.TB_GT_ERR 0 e
      if st = 3 then (d.wr F.TB_GT_STAT_state 0 4).put F.TB_GT_STAT_jump 0 true else d

/-- NTI reports global time valid or not (R38). -/
def Dev.gtValidity (d : Dev) (v : Bool) : Dev :=
  let d := d.put F.TB_GT_STAT_gt_valid 0 v
  if !v && d.rd F.TB_GT_STAT_state 0 == 3 then d.wr F.TB_GT_STAT_state 0 4 else d

/-- The state follows the last error under a new step limit (R38). -/
def Dev.newStepLimit (d : Dev) : Dev :=
  let st := d.rd F.TB_GT_STAT_state 0
  let beyond := Nat.blt d.stepLimit (d.rdInt F.TB_GT_ERR 0).natAbs
  if st = 3 ∧ beyond = true then (d.wr F.TB_GT_STAT_state 0 4).put F.TB_GT_STAT_jump 0 true
  else if st = 4 ∧ beyond = false ∧ d.flag F.TB_GT_STAT_gt_valid 0 = true then
    (d.wr F.TB_GT_STAT_state 0 3).withTb { d.tb with lockedAt := d.time }
  else d

/-- TB_SYNC_CFG was written: FREE takes its rate from FQI with G zero; GLOBAL begins in ACQUIRE (R38). The correction obeys the new
slew_ppm at once (R37), the state the new step limit. -/
def Dev.syncWritten (d : Dev) : Dev :=
  if d.rd F.TB_SYNC_CFG_sync 0 = 1 then
    (((d.wr F.TB_GT_STAT_state 0 1).setOffset 0).wr F.TB_RATE 0 0)
  else if d.rd F.TB_GT_STAT_state 0 = 1 then d.wr F.TB_GT_STAT_state 0 2
  else (d.setRate (d.rdInt F.TB_RATE 0)).newStepLimit

/-! ### Update points (R41, R51 to R54) -/

/-- The shadows of a stage that were written since the last transfer, as locked writes (R53). -/
def Dev.writtenShadows (d : Dev) (s : Nat) : List (Nat × Bool × Nat) :=
  (stagePorts s).flatMap fun p =>
    (if (d.pg p).wroteA then [(p, false, d.rd F.PG_SHD_A_value p)] else []) ++
    (if (d.pg p).wroteB then [(p, true, d.rd F.PG_SHD_B_value p)] else [])

/-- The deadline instant of a stage's next update point (R51, R52): the shadow set is locked, transfer or miss decided, and
the engine pool told. A fenced stage discards every commit (R57). -/
def Dev.decideTransfer (d : Dev) (s : Nat) : Dev :=
  let n := d.upd s + 1
  let g := d.stg s
  let fenced := d.fenced Kind.stage s
  let commit := if d.loopStage s then g.mark
    else d.flag F.TB_STG_COMMIT_pending s && d.rd F.TB_STG_COMMIT_update s == n % 65536
  let ok := commit && !fenced
  let d := d.setStg s { g with decided := true, transfer := ok, locked := if ok then d.writtenShadows s else [],
                               maySample := d.maySample s }
  let d := if ok then d.clearWritten s else d
  let missed := d.loopStage s && !ok && !fenced && g.opened
  let d := if missed then d.put F.TB_STG_STAT_deadline s true else d
  let d := if fenced then d.put F.TB_STG_COMMIT_pending s false else d
  d.loopDeadline s n (!missed)

/-- Show the planned instants of the present beat; the instant of one that is not placed reads 0 (R59 does not say; DESIGN CHOICE, log
entry 66). -/
def Dev.showPlan (d : Dev) (s : Nat) (a b : Inst) : Dev :=
  let d := (d.wr F.TB_STG_PLAN_A_instant s (if a.placed then a.at16 / 16 else 0)).put F.TB_STG_PLAN_A_placed s a.placed
  (d.wr F.TB_STG_PLAN_B_instant s (if b.placed then b.at16 / 16 else 0)).put F.TB_STG_PLAN_B_placed s b.placed

/-- The compares of the transfer at update point n take effect, and a commit of the safety controller completes (R52, R53); one that it
has written since the deadline instant for a later update point goes on waiting. -/
def Dev.transferStage (d : Dev) (s n : Nat) : Dev :=
  let d := d.applyLocked s
  if d.loopStage s then d
  else
    let later := d.flag F.TB_STG_COMMIT_pending s && d.rd F.TB_STG_COMMIT_update s != n % 65536
    (d.put F.TB_STG_COMMIT_pending s later).wr F.TB_STG_COMMIT_status s Code.OK

/-- The ports of a stage at its update point n (R42, R47, R54): a stage that was started drives from its first successful
transfer on. -/
def Dev.drivePorts (d : Dev) (s n : Nat) (transfer : Bool) : Dev :=
  let pos16 := 16 * d.carrier s d.time
  let now16 := 16 * d.time
  let d := d.each (stagePorts s) fun d p => if d.minPulseFlag p pos16 then d.put F.PG_STAT_minp p true else d
  let g := d.stg s
  if d.flag F.TB_STG_RUN_run s && !g.driving && transfer && Nat.blt g.startAt d.time then
    let d := (d.setStg s { g with driving := true, firstBeat := n, droveAt := d.time }).put F.TB_STG_STAT_running s true
    d.each (stagePorts s) fun d p =>
      let q := d.port p
      (d.setPort p { q with readmitted := q.readmitted && !q.restarted }).pgStep p now16 pos16 true
  else if g.driving then d.each (stagePorts s) fun d p => d.pgStep p now16 pos16 false
  else d

/-- The beat of update point n opens: the planned instants become the present ones, and sensing begins (R59, R84, R94). The FIXED instants of
a stopped stage are taken, and their records delivered, while a calibration has its shunt input disconnected: R95 does not say otherwise
(DESIGN CHOICE, log entry 66). -/
def Dev.openSensing (d : Dev) (s n : Nat) : Dev :=
  let g := d.stg s
  let d := d.showPlan s g.nextA g.nextB
  let d := d.setStg s { g with decided := false, planned := false, transfer := false, mark := false, locked := [],
                               nowA := g.nextA, nowB := g.nextB, beatAt := d.time, opened := d.loopsOn }
  let samp (isB : Bool) (i : Inst) : List Samp := if i.placed then [{ isB := isB, inst := i, beatAt := d.time, beat := n }] else []
  let q := d.shunt s
  let d := d.setShunt s { q with suspended := false, due := (q.due.filter fun x => x.beat + 1 == n) ++ samp false g.nextA ++ samp true g.nextB }
  let d := if d.rd F.SH_CFG_mode s = 1 then d.spanResult s (g.nextA.placed && g.nextB.placed) else d
  let d := (d.unplacedRecord s false g.nextA).unplacedRecord s true g.nextB
  if heavyStage s then d.hkStart s n else d

/-- Stage s reaches an update point (R41, R53). One with no deadline instant before it, on a carrier enabled within the guard, is decided and
planned at the update point itself, on the conditions of R87 as they stand there (R87 names the deadline instant only; DESIGN CHOICE, log
entry 66). -/
def Dev.updatePoint (d : Dev) (s : Nat) : Dev :=
  if d.flag F.TB_STG_CFG_enable s && d.atUpdate s d.time then
    let d := if (d.stg s).decided then d else d.decideTransfer s
    let d := if (d.stg s).planned then d else d.plan s
    let n := d.upd s + 1
    let ok := (d.stg s).transfer
    let d := d.wr64 F.TB_STG_UPD_LO F.TB_STG_UPD_HI s n
    let d := if ok then d.transferStage s n else d
    let d := if d.loopStage s then d.clearWritten s else d
    ((d.drivePorts s n ok).openSensing s n).loopUpdate s n ok
  else d

/-! ### The TBI gate (R50, R51, R177) -/

/-- Is the deadline instant of the stage's next update point reached or past? It also is on the tick of that update point, before the
point itself. -/
def Dev.pastDeadline (d : Dev) (s : Nat) : Bool :=
  (d.stg s).decided || (d.atUpdate s d.time && d.time != (d.stg s).beatAt) || Nat.ble (d.toUpdate s) (d.rd F.TB_STG_LIMIT_guard s)

/-- A tagged write is stale. -/
def Dev.staleWrite (d : Dev) (s : Nat) : Dev := (d.put F.TB_STG_STAT_stale s true).bump F.TB_STG_STAT_stale_cnt s

/-- Is a shadow write discarded with the mark it carries: from a fenced engine, or for a tag ahead of the next update point (R50,
R177)? -/
def Dev.discardsMark (d : Dev) (e s tag : Nat) : Bool :=
  let diff := (tag + 65536 - (d.upd s + 1) % 65536) % 65536
  d.fenceHolds e || (diff != 0 && Nat.blt diff 32768)

/-- The gate without the commit mark at its head that a discarded write of this engine, loop, stage and tag carries. -/
def dropMark (e l s tag : Nat) : List GateTok → List GateTok
  | .commit e' l' s' tag' :: r => if e' = e ∧ l' = l ∧ s' = s ∧ tag' = tag then r else .commit e' l' s' tag' :: r
  | g => g

/-- A loop's tagged shadow write is released by the gate (R45, R50). A value outside the legal range is clamped before it is stored, so that
PG_SHD_A and PG_SHD_B show the clamped value (R45 says which value acts, PG_SHD the last one written; DESIGN CHOICE, log entry 66). -/
def Dev.shadowArrives (d : Dev) (e l p : Nat) (isB : Bool) (v : Int) (tag : Nat) : Dev :=
  let s := portStage p
  if d.fenceHolds e then d.fencedWrite e l 1 0
  else if d.fenced Kind.stage s then d
  else if tag ≠ (d.upd s + 1) % 65536 then d.staleWrite s
  else
    let c := clampInt 0 (d.compareMax p isB) v
    let d := if c = v then d else d.put F.PG_STAT_sat p true
    let q := d.pg p
    if isB then (d.wr F.PG_SHD_B_value p c.toNat).setPg p { q with wroteB := true }
    else (d.wr F.PG_SHD_A_value p c.toNat).setPg p { q with wroteA := true }

/-- A loop's commit mark is released by the gate (R51): late on the edge of its deadline instant and after it. One whose tag lies ahead
of the next update point is void: its write was discarded, and counted, for that tag (R50). -/
def Dev.commitArrives (d : Dev) (e l s tag : Nat) : Dev :=
  let diff := (tag + 65536 - (d.upd s + 1) % 65536) % 65536
  if d.fenceHolds e then d.fencedWrite e l 1 0
  else if d.fenced Kind.stage s then d
  else if diff = 0 then
    if d.pastDeadline s then d.put F.TB_STG_STAT_late s true
    else (d.setStg s { d.stg s with mark := true }).commitReleased l tag
  else if diff < 32768 then d
  else d.put F.TB_STG_STAT_late s true

/-! ### Safety-controller shadows, commits, start and stop (R45, R52, R54 to R56) -/

/-- The safety controller writes a shadow of pulse generator p. -/
def Dev.scShadow (d : Dev) (p : Nat) (isB : Bool) (v : Word) : Dev :=
  let s := portStage p
  let off := if isB then F.PG_SHD_B.off p 0 else F.PG_SHD_A.off p 0
  let n := v.toNat % 2 ^ 28
  if d.fenced Kind.stage s then d.reject .sc off Reason.fenced v
  else if d.loopStage s || Nat.blt (d.compareMax p isB) n then d.reject .sc off Reason.value v
  else if isB then (d.wr F.PG_SHD_B_value p n).setPg p { d.pg p with wroteB := true }
  else (d.wr F.PG_SHD_A_value p n).setPg p { d.pg p with wroteA := true }

/-- The safety controller writes TB_STG_COMMIT of stage s (R52). -/
def Dev.scCommit (d : Dev) (s : Nat) (v : Word) : Dev :=
  let tag := v.toNat % 65536
  let diff := (tag + 65536 - (d.upd s + 1) % 65536) % 65536
  if d.fenced Kind.stage s then d.reject .sc (F.TB_STG_COMMIT.off s 0) Reason.fenced v
  else if d.loopStage s then d.reject .sc (F.TB_STG_COMMIT.off s 0) Reason.value v
  else
    let d := d.wr F.TB_STG_COMMIT_update s tag
    if 32768 ≤ diff || (diff = 0 && d.pastDeadline s) then
      (d.put F.TB_STG_COMMIT_pending s false).wr F.TB_STG_COMMIT_status s Code.STALE
    else d.put F.TB_STG_COMMIT_pending s true

/-- The safety controller writes TB_STG_RUN.run of stage s (R54 to R56). -/
def Dev.writeRun (d : Dev) (s : Nat) (run : Bool) : Dev :=
  let v := BitVec.ofNat 32 (b2n run)
  if d.fenced Kind.stage s then d.reject .sc (F.TB_STG_RUN.off s 0) Reason.fenced v
  else if !run then d.stopStage s
  else if d.flag F.WM_SW_STAT_held s then d.reject .sc (F.TB_STG_RUN.off s 0) Reason.value v
  else d.startStage s

/-! ### Triggers (R60) -/

/-- Does trigger unit u fire at sixteenth `six` of the present tick? -/
def Dev.triggerHits (d : Dev) (u six : Nat) : Bool :=
  let s := d.rd F.TB_TRIG_CFG_stage u
  let mode := d.rd F.TB_TRIG_CFG_mode u
  let g := d.stg s
  let since := 16 * d.time + six - 16 * g.beatAt
  if !d.flag F.TB_TRIG_CFG_enable u || !d.flag F.TB_STG_CFG_enable s then false
  else if mode = 1 then
    let pos16 := 16 * d.carrier s d.time + six
    let dir := d.rd F.TB_TRIG_CFG_dir u
    let H := d.half16 s
    let rising := !d.upDown s || (Nat.blt 0 pos16 && Nat.ble pos16 H)
    d.carrierValue s pos16 == d.rd F.TB_TRIG_POS_pos u && ((rising && bitOf dir 0) || (!rising && bitOf dir 1))
  else if mode = 2 then g.nowA.placed && since == g.nowA.at16
  else if mode = 3 then g.nowB.placed && since == g.nowB.at16
  else mode == 4 && six == 0 && d.atUpdate s d.time

/-- Trigger unit u fires: counted, and on its way to its consumer with its planned instant, in sixteenths of a tick. The model holds
the last eight firings of a unit. -/
def Dev.triggerFire (d : Dev) (u six : Nat) : Dev :=
  if d.triggerHits u six then
    (d.bump F.TB_TRIG_CNT u).pipe fun d =>
      let push (d : Dev) (k : Nat) : Dev :=
        let l := d.fired k
        d.setFired k ((if 8 ≤ l.length then l.drop 1 else l) ++ [16 * d.time + six])
      (push d u).pipe fun d => push d (64 + u)
  else d

/-! ### The commands -/

/-- GT_CAPTURE: global time is gt ticks; with no GLOBAL stage running G is captured in ACQUIRE, and recaptured in HOLDOVER
when the error lies beyond the step limit (R38). -/
def execGtCapture (t gt : Nat) (s : State) : Host.Outcome State Fault Refusal :=
  effect t s fun d =>
    let st := d.rd F.TB_GT_STAT_state 0
    if d.rd F.TB_SYNC_CFG_sync 0 ≠ 2 ∨ !d.flag F.TB_GT_STAT_gt_valid 0 then d
    else if st = 4 ∧ (d.gtError gt).natAbs ≤ d.stepLimit then d.gtReference gt
    else if (st = 2 ∨ st = 4) ∧ !d.globalRuns then d.captureOffset gt
    else d

/-- UPDATE_POINT of stage k (R41, R53). -/
def execUpdatePoint (t : Nat) (k : Fin 21) (s : State) : Host.Outcome State Fault Refusal :=
  effect t s fun d => d.updatePoint k

/-- DEADLINE_INSTANT of stage k (R51). -/
def execDeadlineInstant (t : Nat) (k : Fin 21) (s : State) : Host.Outcome State Fault Refusal :=
  effect t s fun d =>
    if d.flag F.TB_STG_CFG_enable k && d.atDeadline k d.time && !(d.stg k).decided then d.decideTransfer k else d

/-- SAMPLING_PLAN: the planner of stage k finishes (R59, R90). -/
def execSamplingPlan (t : Nat) (k : Fin 21) (s : State) : Host.Outcome State Fault Refusal :=
  effect t s fun d => if (d.stg k).decided && !(d.stg k).planned then d.plan k else d

/-- PG_SHADOW_WRITE: the shadow write at the head of the TBI gate is released (R50). -/
def execPgShadowWrite (t : Nat) (s : State) : Host.Outcome State Fault Refusal :=
  effect t s fun d =>
    match d.tb.gate with
    | .shadow e l p isB v tag :: r =>
      let r := if d.discardsMark e (portStage p) tag then dropMark e l (portStage p) tag r else r
      (d.withTb { d.tb with gate := r }).shadowArrives e l p isB v tag
    | _ => d

/-- COMMIT_MARK: the commit mark at the head of the TBI gate is released (R51). -/
def execCommitMark (t : Nat) (s : State) : Host.Outcome State Fault Refusal :=
  effect t s fun d =>
    match d.tb.gate with
    | .commit e l k tag :: r => (d.withTb { d.tb with gate := r }).commitArrives e l k tag
    | _ => d

/-- SC_SHADOW_WRITE: the safety controller writes shadow A or B of pulse generator p (R52). -/
def execScShadowWrite (t : Nat) (p : Fin 64) (isB : Bool) (v : Word) (s : State) : Host.Outcome State Fault Refusal :=
  fromFirmware t s fun d => d.scShadow p isB v

/-- SC_COMMIT: the safety controller writes TB_STG_COMMIT (R52). -/
def execScCommit (t : Nat) (k : Fin 21) (v : Word) (s : State) : Host.Outcome State Fault Refusal :=
  fromFirmware t s fun d => d.scCommit k v

/-- STAGE_START: TB_STG_RUN.run is written 1 (R54). -/
def execStageStart (t : Nat) (k : Fin 21) (s : State) : Host.Outcome State Fault Refusal :=
  fromFirmware t s fun d => d.writeRun k true

/-- STAGE_STOP: TB_STG_RUN.run is written 0 (R55). -/
def execStageStop (t : Nat) (k : Fin 21) (s : State) : Host.Outcome State Fault Refusal :=
  fromFirmware t s fun d => d.writeRun k false

/-- COMPARE_MATCH: at sixteenth `six` of tick t the carrier reaches a compare of pulse generator p (R42). -/
def execCompareMatch (t : Nat) (six : Fin 16) (p : Fin 64) (s : State) : Host.Outcome State Fault Refusal :=
  effect t s fun d =>
    let k := portStage p
    if (d.stg k).driving then d.pgStep p (16 * d.time + six) (16 * d.carrier k d.time + six) false else d

/-- DEAD_TIME_EXPIRY: the switch of pulse generator p that waits for its dead time turns on (R46). -/
def execDeadTimeExpiry (t : Nat) (six : Fin 16) (p : Fin 64) (s : State) : Host.Outcome State Fault Refusal :=
  effect t s fun d =>
    match (d.pg p).wait with
    | some (hi, at16) =>
      if at16 ≤ 16 * d.time + six then (d.setPg p { d.pg p with wait := none }).present p at16 hi (!hi) else d
    | none => d

/-- TRIGGER_FIRE of trigger unit u (R60). -/
def execTriggerFire (t : Nat) (six : Fin 16) (u : Fin 48) (s : State) : Host.Outcome State Fault Refusal :=
  effect t s fun d => d.triggerFire u six

end Sys2Proof.Machine
end

