-- ==== Sys2Proof/Machine/CanOps.lean ====
section
/-! DEFINITION. Shared operations of the CAN network (chapter 15): security of frames, error counters and controller states,
receive records and mailboxes, global time. -/

namespace Sys2Proof.Machine

/-! ### Controllers -/

/-- States of CN_STAT (R327). -/
def canOff : Nat := 1
def canIntegrating : Nat := 2
def canActive : Nat := 3
def canPassive : Nat := 4
def canBusOff : Nat := 5
def canRecovering : Nat := 6

/-- The state of controller c. -/
def Dev.canState (d : Dev) (c : Nat) : Nat := d.rd F.CN_STAT_state c

/-- Does controller c take part in bus traffic: enabled, not fenced, error-active or error-passive? -/
def Dev.onBus (d : Dev) (c : Nat) : Bool :=
  d.flag F.CN_CFG_enable c && !d.fenced Kind.can c && (d.canState c == canActive || d.canState c == canPassive)

/-! ### Lands (R326) -/

/-- Where the frame on a controller's bus stands, which no command but its end shows: whether the controller transmits it, whether the
bus is in the fast mode of an XL frame, from the end of the arbitration-to-data to the start of the data-to-arbitration sequence, the
bit that ISO 11898-1 has a transmitter or acknowledging receiver drive (true: recessive), and the level at this instant of the PWM symbol
that stands for it. -/
structure BusPhase where
  transmits : Bool := false
  fast : Bool := false
  bit : Bool := true
  symbol : Bool := true
  deriving DecidableEq, Repr

/-- May controller c send: on the bus, and not in the restricted operation of CN_CFG.listen_only (R324; log entry 42)? -/
def Dev.maySend (d : Dev) (c : Nat) : Bool := d.onBus c && !d.flag F.CN_CFG_listen_only c

/-- Is controller c in the fast mode of an XL frame: one set for XL is, while its bus is (R324, R326)? -/
def Dev.inFast (d : Dev) (c : Nat) (b : BusPhase) : Bool := d.onBus c && d.rd F.CN_CFG_proto c == 3 && b.fast

/-- The level of a CAN land; none, high impedance, while VCAN is absent (R415). -/
def Dev.canLand (d : Dev) (level : Bool) : Option Bool := if d.pw.vcan then some level else none

/-- The level of CAN_TX[c]: recessive is high. A controller off its bus holds it recessive (R327), one that only listens too (R324), and
so does one that is not the transmitter in fast mode; the transmitter there sends PWM symbols where CN_CFG.xl_pwm selects them. -/
def Dev.canTxPin (d : Dev) (c : Nat) (b : BusPhase) : Option Bool :=
  d.canLand (if d.maySend c = false then true
    else if d.inFast c b then !b.transmits || (if d.flag F.CN_CFG_xl_pwm c then b.symbol else b.bit)
    else b.bit)

/-- Where the secondary sample point lies in a data phase, in CNI clocks after the bit's start as sent: the transmitter delay measured in
this frame and the offset of CN_TDC; none where compensation is off (R325). -/
def Dev.secondSample (d : Dev) (c delay : Nat) (xl : Bool) : Option Nat :=
  if d.flag (if xl then F.CN_TDC_x_en else F.CN_TDC_d_en) c then
    some (delay + d.rd (if xl then F.CN_TDC_x_offset else F.CN_TDC_d_offset) c)
  else none

/-- The level of CAN_MODE[c]: high in the fast mode of an XL frame. -/
def Dev.canModePin (d : Dev) (c : Nat) (b : BusPhase) : Option Bool := d.canLand (d.inFast c b)

/-- The level of CAN_STB: high while the device sleeps or while no controller is enabled. -/
def Dev.canStbPin (d : Dev) : Option Bool := d.canLand (d.pw.asleep || (List.range 8).all fun c => !d.flag F.CN_CFG_enable c)

/-- Device ticks of n network time units (R340). -/
def Dev.ntuTicks (d : Dev) (c n : Nat) : Nat := n * (d.word (F.CN_TT_NTU.off c 0)).toNat / 65536

/-! ### Global time (R340 to R343) -/

/-- States of CN_TT_STAT. -/
def ttOff : Nat := 1
def ttListening : Nat := 2
def ttFollowing : Nat := 3
def ttMaster : Nat := 4

/-- The time-triggered state of controller c. -/
def Dev.ttState (d : Dev) (c : Nat) : Nat := d.rd F.CN_TT_STAT_state c

/-- Is global time of controller c valid (R343)? -/
def Dev.ttValid (d : Dev) (c : Nat) : Bool :=
  d.flag F.CN_CFG_tt_en c && d.flag F.CN_TT_CFG_level2 c && d.onBus c && !d.flag F.CN_TT_STAT_master_lost c &&
    (d.ttState c == ttMaster || ((d.ttState c == ttFollowing || d.ttState c == ttListening) && Nat.ble 2 (d.can c).goodRefs))

/-- Does a controller supply NTI with valid global time: the one with gt_src, enabled, while NTI is there (R343, R373)? -/
def Dev.ttSupplied (d : Dev) : Bool :=
  !d.fenced Kind.island 5 && (List.range 8).any fun c =>
    d.flag F.CN_TT_CFG_gt_src c && d.flag F.CN_CFG_enable c && d.flag F.CN_TT_STAT_gt_valid c

/-- The validity of global time after a change of controller c, and of what reaches NTI (R343). -/
def Dev.ttCheck (d : Dev) (c : Nat) : Dev :=
  let d := d.put F.CN_TT_STAT_gt_valid c (d.ttValid c)
  if d.ttSupplied == d.flag F.TB_GT_STAT_gt_valid 0 then d else d.gtValidity d.ttSupplied

/-- The reference mark of the present basic cycle, captured at device time `sof` and extended to 64 bits (R343): it is converted to ticks,
and where the controller supplies global time it is a new reference of the discipline (R37). -/
def Dev.ttExtended (d : Dev) (c sof ext : Nat) : Dev :=
  let ticks := (roundDiv (ext * (d.word (F.CN_TT_NTU.off c 0)).toNat) 65536).toNat
  let d := (d.onCan c fun v => { v with lastMark := ext, cycleAt := sof }).wr64 F.CN_TT_GT_LO F.CN_TT_GT_HI c ticks
  let d := d.ttCheck c
  if d.flag F.CN_TT_CFG_gt_src c && d.flag F.TB_GT_STAT_gt_valid 0 then d.gtReference (ticks + (d.time - sof)) else d

/-- The reference mark of a reference message received, whose 16 bits continue the last one (R343). -/
def Dev.ttMark (d : Dev) (c sof mark : Nat) : Dev :=
  let last := (d.can c).lastMark
  d.ttExtended c sof (last + (mark % 65536 + 65536 - last % 65536) % 65536)

/-- The global time of controller c at device time `sof`, in NTU: the last reference mark and what has passed since (R342). -/
def Dev.ttNow (d : Dev) (c sof : Nat) : Nat :=
  (d.can c).lastMark + (roundDiv ((sof - (d.can c).cycleAt) * 65536) (max (d.word (F.CN_TT_NTU.off c 0)).toNat 1)).toNat

/-- A time-triggered controller starts to take part: a potential master listens for one whole matrix cycle (R342). -/
def Dev.ttStart (d : Dev) (c : Nat) : Dev :=
  if d.flag F.CN_CFG_tt_en c then
    let d := d.wr F.CN_TT_STAT_state c (if d.rd F.CN_TT_CFG_role c = 2 then ttListening else ttFollowing)
    let d := d.onCan c fun v => { v with listenAt := d.time, cycleAt := d.time, higherSeen := false, contend := false, goodRefs := 0, gap := false }
    d.ttCheck c
  else (d.wr F.CN_TT_STAT_state c ttOff).ttCheck c

/-! ### Error counters and states (R327 to R329) -/

/-- The frames in the transmit slots of a controller complete in load order. -/
def Dev.endSlots (d : Dev) (c st : Nat) : Dev :=
  (d.can c).slots.foldl (fun d k => d.finish k.frame.qp k.frame.index st) d

/-- BUS_OFF is entered (R329). -/
def Dev.busOff (d : Dev) (c : Nat) : Dev :=
  let d := d.wr F.CN_STAT_state c canBusOff
  let d := (d.bump F.CN_CNT_bus_off c).endSlots c Code.BUS_OFF
  let d := d.report Kind.can c Cls.report Code.BUS_OFF (d.rd F.CN_STAT_tec c)
  (d.wr F.CN_TT_STAT_state c ttOff).ttCheck c

/-- New error counters of a controller on the bus, and the state they give (R327). -/
def Dev.errorCounts (d : Dev) (c tec rec' : Nat) : Dev :=
  let d := (d.wr F.CN_STAT_tec c (min tec 256)).wr F.CN_STAT_rec c (min rec' 255)
  if 255 < tec then d.busOff c
  else if 127 < tec ∨ 127 < rec' then
    if d.canState c = canPassive then d
    else (d.wr F.CN_STAT_state c canPassive).reportOpen Kind.can c Cls.report (Code.ofFree Config.passiveCode)
  else d.wr F.CN_STAT_state c canActive

/-- Does an error in an XL frame go without error signalling: CN_CFG.xl_es is clear (R324)? -/
def Dev.xlSilent (d : Dev) (c : Nat) (xl : Bool) : Bool := xl && !d.flag F.CN_CFG_xl_es c

/-- A controller integrates on its bus once more: after a protocol exception, or an error without error signalling (R324). -/
def Dev.reintegrate (d : Dev) (c : Nat) : Dev := (d.wr F.CN_STAT_state c canIntegrating).ttCheck c

/-- TEC after an attempt (R327, R328; ISO 11898-1): 8 more for an error, and for each in its own flags after it; one less for a success. -/
def tecAfter (a : TxAttempt) (passive : Bool) (tec : Nat) : Nat :=
  8 * a.flags + match a.ended with
    | .ok => tec - 1
    | .arbLost => tec
    | .noAck => if passive then tec else tec + 8
    | .stuffError => if a.inArb then tec else tec + 8
    | _ => tec + 8

/-- An attempt ends: the frame is on record with its start of frame, the counts follow. An error in an XL frame without error signalling
leaves the counters and has the controller integrate (PRESUMED: ISO 11898-1; log entry 42). -/
def Dev.attempt (d : Dev) (c sof : Nat) (f : CanFrame) (a : TxAttempt) : Dev :=
  let d := d.withCn { d.cn with sent := d.cn.sent ++ [{ ctl := c, sof := sof, frame := f, ended := a.ended }] }
  let d := if a.ended = .noAck then d.bump F.CN_CNT_no_ack c else d
  if d.xlSilent c (f.format == 3) ∧ a.ended ≠ .ok ∧ a.ended ≠ .arbLost then d.reintegrate c
  else d.errorCounts c (tecAfter a (d.canState c == canPassive) (d.rd F.CN_STAT_tec c)) (d.rd F.CN_STAT_rec c)

/-- A controller is enabled (R327, R342): it integrates. -/
def Dev.canEnable (d : Dev) (c : Nat) : Dev :=
  let d := ((d.wr F.CN_STAT_state c canIntegrating).wr F.CN_STAT_tec c 0).wr F.CN_STAT_rec c 0
  let d := d.each (List.range 256) fun d l =>
    if d.rd F.FL_CFG_controller l = c then d.setFlow l { d.flow l with ageFrom := d.time } else d
  d.ttStart c

/-- A controller is disabled: OFF, lands recessive; frames in its slots end with FENCED. -/
def Dev.canDisable (d : Dev) (c : Nat) : Dev :=
  let d := (d.endSlots c Code.FENCED).wr F.CN_STAT_state c canOff
  ((d.wr F.CN_TT_STAT_state c ttOff).put F.CN_CTRL_pending c false).ttCheck c

/-- A controller is fenced (R345, R372): slot frames end with FENCED in load order, queued ones in ring order. -/
def Dev.canFence (d : Dev) (c cause sub : Nat) : Dev :=
  if d.fenced Kind.can c then d
  else
    let d := ((d.markFenced Kind.can c true).put F.CN_STAT_fenced c true).postFenced Kind.can c Cls.c cause sub
    let d := d.endSlots c Code.FENCED
    let d := d.each queuePairs fun d q =>
      (d.qp q).items.foldl (fun d it =>
        match it.desc with
        | some x =>
          if it.phase = .received ∧ x.opcode = Op.CAN_TX ∧ d.rd F.FL_CFG_controller x.target = c then d.finish q it.index Code.FENCED
          else d
        | none => d) d
    d.ttCheck c

/-- A flow is fenced (R372): its descriptors complete with FENCED. -/
def Dev.flowFence (d : Dev) (l cause sub : Nat) : Dev :=
  if d.fenced Kind.flow l then d
  else
    let d := ((d.markFenced Kind.flow l true).put F.FL_STAT_fenced l true).postFenced Kind.flow l Cls.c cause sub
    d.each queuePairs fun d q =>
      (d.qp q).items.foldl (fun d it =>
        match it.desc with
        | some x =>
          if (it.phase = .received ∨ it.phase = .started) ∧ x.opcode = Op.CAN_TX ∧ x.target = l then d.finish q it.index Code.FENCED
          else d
        | none => d) d

/-- A controller is re-admitted (R380): INTEGRATING with both counters zero. -/
def Dev.canAdmit (d : Dev) (c : Nat) : Dev :=
  let d := (d.markFenced Kind.can c false).put F.CN_STAT_fenced c false
  if d.flag F.CN_CFG_enable c then d.canEnable c else d

/-! ### Security of frames (R337 to R339) -/

/-- The key of a slot of the key store (R359). -/
def Dev.keyOf (d : Dev) (k : Nat) : Option (List Byte) := (Tbl.get (fun _ => ({} : KeyT)) d.sec.keys k).key

/-- Legal data lengths of an FD frame. -/
def fdLength (n : Nat) : Nat :=
  if n ≤ 8 then n else if n ≤ 12 then 12 else if n ≤ 16 then 16 else if n ≤ 20 then 20 else if n ≤ 24 then 24
  else if n ≤ 32 then 32 else if n ≤ 48 then 48 else 64

/-- Items 2 to 4 of the input of R337: identifier, format byte, data length. -/
def frameHead (ident format n : Nat) : List Byte := numBytes ident 4 ++ numBytes format 1 ++ numBytes n 2

/-- The AUTH tag (R337). -/
def Dev.authTag (d : Dev) (key : List Byte) (l ident format : Nat) (fv : Nat) (data : List Byte) : List Byte :=
  kmac key (numBytes l 2 ++ frameHead ident format data.length ++ numBytes fv 8 ++ data) "XV6400 CAN" (d.tagBytes l)

/-- The nonce of AUTH_ENC: flow, controller, full freshness value. -/
def gcmNonce (l c fv : Nat) : List Byte := numBytes l 2 ++ numBytes c 2 ++ numBytes fv 8

/-- The secured data field of a frame of flow l (R337); `format` is its format byte. -/
def Dev.secureData (d : Dev) (key : List Byte) (l format fv : Nat) (data : List Byte) : List Byte :=
  let ident := d.rd F.FL_ID_id l
  let low := numBytes fv (d.fvBytes l)
  if d.rd F.FL_CFG_profile l = 2 then data ++ low ++ d.authTag key l ident format fv data
  else
    let sealed := gcmSeal key (gcmNonce l (d.rd F.FL_CFG_controller l) fv) (frameHead ident format data.length) data
    sealed.take data.length ++ low ++ sealed.drop data.length

/-- The freshness value of the next frame of a transmit flow, and of the last one accepted of a receive flow. -/
def Dev.fvTx (d : Dev) (l : Nat) : Nat := d.rd64 F.FL_FV_TX_LO F.FL_FV_TX_HI l
def Dev.fvRx (d : Dev) (l : Nat) : Nat := d.rd64 F.FL_FV_RX_LO F.FL_FV_RX_HI l

/-- The full freshness value that a received frame gives (R339). -/
def Dev.fullFv (d : Dev) (l low : Nat) : Nat :=
  let m := 256 ^ d.fvBytes l
  let old := d.fvRx l
  let v := old / m * m + low % m
  if old < v then v else v + m

/-- The number that bytes spell, lowest first. -/
def bytesNum (bs : List Byte) : Nat := bs.foldr (fun b n => b.toNat + 256 * n) 0

/-- The outcome of the security check of a received frame (R339): the status, the data, the new freshness value. -/
def Dev.checkFrame (d : Dev) (l format ident : Nat) (raw : List Byte) : Nat × List Byte × Nat :=
  let p := d.rd F.FL_CFG_profile l
  let old := d.fvRx l
  if p = 1 then (Code.OK, raw, old)
  else
    let tag := if p = 2 then d.tagBytes l else 16
    let extra := d.fvBytes l + tag
    if raw.length < extra then (Code.AUTH, [], old)
    else
      let data := raw.take (raw.length - extra)
      let low := (raw.drop data.length).take (d.fvBytes l)
      let got := raw.drop (data.length + d.fvBytes l)
      let fv := d.fullFv l (bytesNum low)
      if old + d.rd F.FL_SEC_fv_window l < fv then (Code.STALE, [], old)
      else
        match d.keyOf (d.rd F.FL_SEC_key l) with
        | none => (Code.AUTH, [], old)
        | some key =>
          if d.fenced Kind.crypto 0 then (Code.AUTH, [], old)
          else if p = 2 then
            if got = d.authTag key l ident format fv data then (Code.OK, data, fv) else (Code.AUTH, [], old)
          else
            match gcmOpen key (gcmNonce l (d.rd F.FL_CFG_controller l) fv) (frameHead ident format data.length) (data ++ got) with
            | some plain => (Code.OK, plain, fv)
            | none => (Code.AUTH, [], old)

/-! ### Receive records and mailboxes (R334, R335) -/

/-- A record for the host (R334): held, or where 64 are held dropped and counted, as R319 counts a record dropped and in a LOST
record. -/
def Dev.pushRx (d : Dev) (c : Nat) (r : RxRec) : Dev :=
  let h := (d.can c).held
  if (h.filter fun r => r.status != Code.LOST).length < 64 then d.onCan c fun v => { v with held := h ++ [r] }
  else
    let lost : RxRec := { time := r.time, flow := 0, status := Code.LOST, ident := 1 }
    let new := match h.getLast? with
      | some l => if l.status = Code.LOST then h.dropLast ++ [{ l with ident := l.ident + 1 }] else h ++ [lost]
      | none => h ++ [lost]
    let q := d.rd F.CN_CFG_rx_qp c
    ((d.onCan c fun v => { v with held := new }).bump F.HI_QP_LOST q).put F.HI_QP_FLAGS_lost q true

/-- A frame is written to the mailbox of its flow (R335): words 1 to 23, then word 0, each an access of its own at the bank (R290). -/
def Dev.mailbox (d : Dev) (l : Nat) (r : RxRec) : Dev :=
  let v := d.flow l
  let a := d.rd F.FL_SC_ADDR_addr l
  let data := (List.range 16).map fun k => bytesNum ((r.data.drop (4 * k)).take 4)
  let ws := [r.ident, r.format + 256 * r.data.length, r.time % 2 ^ 32, r.time / 2 ^ 32 % 2 ^ 32, 0] ++ data ++ [0, 0]
  let d := d.issue ((ws.zipIdx 1).map (fun e => (a + 4 * e.2, BitVec.ofNat 32 e.1)) ++ [(a, BitVec.ofNat 32 (v.mails + 1))])
  d.setFlow l { v with mails := v.mails + 1 }

end Sys2Proof.Machine
end

