-- ==== Sys2Proof/Machine/Can.lean ====
section
/-! DEFINITION. Commands of the CAN network and of network time (chapter 15). -/

namespace Sys2Proof.Machine

/-! ### Transmission (R331, R332, R338) -/

/-- The frame that a CAN_TX descriptor asks for (R324, R331), with a data field. -/
def Dev.txFrame (d : Dev) (x : Descr) (data : List Byte) : CanFrame :=
  let l := x.target
  { format := if isXl x then 3 else d.rd F.FL_ID_format l, ident := d.rd F.FL_ID_id l, fd := isFd x, brs := bitOf x.param1 1,
    esi := isFd x && d.canState (d.rd F.FL_CFG_controller l) == canPassive, rtr := isRtr x, sec := bitOf x.param1 20,
    asked := if isRtr x then x.length else 0, sdt := x.param1 / 2 ^ 4 % 256, vcid := x.param1 / 2 ^ 12 % 256, af := x.param2 % 2 ^ 32,
    data := data }

/-- The format byte of a frame, in the layout of R334; bit 6 where `sec` says so. -/
def formatByte (f : CanFrame) (sec : Bool) : Nat :=
  f.format % 4 + 4 * b2n f.fd + 8 * b2n f.brs + 16 * b2n f.esi + 32 * b2n f.rtr + 64 * b2n (sec && f.sec)

/-- An FD data field padded with 0xCC to the next legal length (R331). -/
def padFrame (x : Descr) (bs : List Byte) : List Byte :=
  if isFd x then bs ++ List.replicate (fdLength bs.length - bs.length) 0xCC else bs

/-- Has every CAN_TX descriptor ahead of item i been secured, so that frames of a flow are secured in ring order? -/
def Dev.securesNext (d : Dev) (q i c : Nat) : Bool :=
  ((d.qp q).ahead i).all fun it => it.begun || (it.op == Op.CAN_TX && (d.can c).frames.any fun f => f.qp == q && f.index == it.index)

/-- A frame waits for a slot of its controller. -/
def Dev.awaitSlot (d : Dev) (q i : Nat) (x : Descr) (bs : List Byte) : Dev :=
  d.onCan (d.rd F.FL_CFG_controller x.target) fun v =>
    { v with frames := v.frames ++ [{ qp := q, index := i, flow := x.target, frame := d.txFrame x bs }] }

/-- The data of the CAN_TX descriptor at ring index i has arrived: the frame is secured and waits for a slot. Its window may have been
disabled since the descriptor was received (R303). -/
def Dev.canTx (d : Dev) (q i : Nat) (x : Descr) (data : List Byte) : Dev :=
  let l := x.target
  let wait (d : Dev) (bs : List Byte) : Dev := d.awaitSlot q i x bs
  let data := data.take x.length
  if isRtr x then wait d []
  else if d.rd F.FL_CFG_profile l = 1 then wait d (padFrame x data)
  else
    let fv := d.fvTx l
    if fv = 2 ^ 64 - 1 then d.finish q i Code.OVERFLOW
    else
      match d.keyOf (d.rd F.FL_SEC_key l) with
      | none => d.finish q i Code.AUTH
      | some key =>
        if d.fenced Kind.crypto 0 then d.finish q i Code.AUTH
        else
          let bs := d.secureData key l (formatByte (d.txFrame x []) false) fv data
          wait (d.wr64 F.FL_FV_TX_LO F.FL_FV_TX_HI l (fv + 1)) (padFrame x bs)

/-- CAN_TX: the frame of the descriptor at ring index i of queue pair q is read and secured. -/
def execCanTx (t : Nat) (q : Fin 64) (i : Nat) (data : List Byte) (s : State) : Host.Outcome State Fault Refusal :=
  effect t s fun d =>
    match (d.qp q).item i with
    | none => d
    | some it =>
      match it.desc with
      | none => d
      | some x =>
        let c := d.rd F.FL_CFG_controller x.target
        let known := (d.can c).frames.any fun f => f.qp == q.val && f.index == i
        if it.phase = .received ∧ x.opcode = Op.CAN_TX ∧ known = false ∧ d.securesNext q i c = true then
          match d.windowCheck x with
          | some st => d.finish q i st
          | none => d.canTx q i x data
        else d

/-- SLOT_LOAD: controller c loads the next descriptor of its CAN_TX ring into a free transmit slot (R329, R332). -/
def execSlotLoad (t : Nat) (c : Fin 8) (s : State) : Host.Outcome State Fault Refusal :=
  effect t s fun d =>
    let q := d.rd F.CN_CFG_tx_qp c
    let v := d.can c
    match (d.qp q).items.find? (fun it => !it.begun), (List.range 3).find? (fun k => !v.slots.any fun z => z.slot == k) with
    | some it, some k =>
      match v.frames.find? fun f => f.qp == q && f.index == it.index with
      | some f =>
        let serial := match it.desc with | some x => isSerial x | none => false
        if d.onBus c = true ∧ (d.qp q).mayStart it.index serial = true ∧ (v.slots.any fun z => z.frame.flow == f.flow) = false then
          let d := d.setCan c { v with frames := v.frames.erase f, slots := v.slots ++ [{ slot := k, frame := f, loadedAt := d.time }] }
          ((d.onItem q it.index fun it => { it with phase := .started }).showQp q).showSlots c
        else d
      | none => d
    | _, _ => d

/-- Does a frame of flow l wait for its trigger (R341)? -/
def Dev.triggered (d : Dev) (l : Nat) : Bool := d.flag F.FL_CFG_tt l

/-- The place of a frame in arbitration: the lower wins (PRESUMED: ISO 11898-1, log entry 42). The bits as they stand on the bus: the base or priority
identifier, RTR or SRR, IDE; then of a base frame FDF and XLF, of an extended one the rest of the identifier, RTR and FDF. -/
def arbKey (f : CanFrame) : Nat :=
  if f.format = 2 then
    (f.ident / 2 ^ 18 % 2048) * 2 ^ 22 + 2 ^ 21 + 2 ^ 20 + (f.ident % 2 ^ 18) * 4 + 2 * b2n f.rtr + b2n f.fd
  else (f.ident % 2048) * 2 ^ 22 + 2 ^ 21 * b2n f.rtr + 2 ^ 19 * b2n (f.fd || f.format == 3) + 2 ^ 18 * b2n (f.format == 3)

/-- The place of an instant in the basic cycle, in NTU (R340). -/
def Dev.cycleTime (d : Dev) (c at' : Nat) : Nat :=
  (at' - (d.can c).cycleAt) * 65536 / max (d.word (F.CN_TT_NTU.off c 0)).toNat 1

/-- Does trigger n of controller c fire in basic cycle k of the matrix cycle (R341)? -/
def Dev.trigCycle (d : Dev) (c n k : Nat) : Bool :=
  d.rd2 F.CN_TT_TRIG_enable c n == 1 &&
    k % 2 ^ d.rd F.CN_TT_CFG_mc_log2 c % 2 ^ d.rd2 F.CN_TT_TRIG_rep_log2 c n == d.rd2 F.CN_TT_TRIG_offset c n

/-- Is a start at `sof` of a frame of flow l kept off by the guard before the exclusive window of another flow, in this basic cycle or
early in the next (R341)? -/
def Dev.guarded (d : Dev) (c sof l : Nat) : Bool :=
  d.flag F.CN_CFG_tt_en c && (List.range 32).any fun n =>
    let at' := d.cycleTime c sof
    let near (mark : Nat) : Bool := Nat.blt at' mark && Nat.ble mark (at' + d.rd F.CN_TT_CFG_excl_guard c)
    let mark := d.rd2 F.CN_TT_MARK_mark c n
    let cycle := d.rd F.CN_TT_STAT_cycle_count c
    d.rd2 F.CN_TT_TRIG_type c n == 1 && d.rd2 F.CN_TT_TRIG_flow c n != l &&
      ((d.trigCycle c n cycle && near mark) || (d.trigCycle c n (cycle + 1) && !(d.can c).gap && near (mark + d.rd F.CN_TT_CYCLE_cycle c)))

/-- May slot frame k start at `sof`: loaded by then, and one of a triggered flow within its window (R341)? -/
def Dev.mayOffer (d : Dev) (c sof : Nat) (k : TxSlot) : Bool :=
  Nat.ble k.loadedAt sof && !d.guarded c sof k.frame.flow &&
    (!d.triggered k.frame.flow ||
       match k.offer with
       | some m => Nat.ble m sof && Nat.ble sof (m + d.ntuTicks c (d.rd F.CN_TT_CFG_tx_win c))
       | none => false)

/-- The slot frame that the controller offers at `sof` (R332): in SLOT order the first loaded, otherwise the one that wins
arbitration. -/
def Dev.offered (d : Dev) (c sof : Nat) : Option TxSlot :=
  let ks := (d.can c).slots.filter (d.mayOffer c sof)
  if d.rd F.CN_CFG_tx_order c = 2 then ks.head?
  else
    let key (k : TxSlot) : Nat := arbKey k.frame.frame
    ks.find? fun k => ks.all fun j => Nat.ble (key k) (key j)

/-- The status of an attempt (R332). -/
def txStatus : TxEnd → Nat
  | .ok => Code.OK
  | .noAck => Code.NO_ACK
  | .arbLost => Code.ARB_LOST
  | .bitError => Code.BIT_ERROR
  | .formError => Code.FORM_ERROR
  | .stuffError => Code.STUFF_ERROR
  | .crcError => Code.CRC_ERROR

/-- FRAME_TX_END: the attempt that started at device time `sof` ends (R328, R332): the frame offered completes with its outcome,
and the transmit error counter follows ISO 11898-1. -/
def execFrameTxEnd (t : Nat) (c : Fin 8) (a : TxAttempt) (sof : Nat) (s : State) : Host.Outcome State Fault Refusal :=
  effect t s fun d =>
    match d.offered c sof with
    | none => d
    | some k =>
      if d.maySend c = true ∧ sof ≤ d.time then
        let st := txStatus a.ended
        let l := k.frame.flow
        let d := d.finish k.frame.qp k.frame.index st false (sof % 2 ^ 32)
        let d := d.wr F.FL_STAT_last_status l st
        let d := if a.ended = .ok then d.wr F.FL_STAT_frames l (d.rd F.FL_STAT_frames l + 1) else d
        d.attempt c sof k.frame.frame a
      else d

/-! ### Reception (R333 to R339) -/

/-- CAN_RXBUF: a receive buffer is lent, into which the records held go at the turns of its queue pair. -/
def execCanRxbuf (t : Nat) (q : Fin 64) (i : Nat) (s : State) : Host.Outcome State Fault Refusal :=
  effect t s fun d => d.startItem q i Op.CAN_RXBUF .received fun d _ => d

/-- The enabled receive flow whose claimed filter a frame matches, lowest filter first (R333). -/
def Dev.matchFlow (d : Dev) (c : Nat) (f : CanFrame) : Option Nat :=
  (List.range 256).findSome? fun k =>
    match d.holderOf 5 (256 * c + k) with
    | some (kind, l) =>
      let mask := d.rd2 F.CN_FLT_MASK_mask c k
      if kind = Kind.flow ∧ d.flag F.FL_CFG_enable l = true ∧ d.rd F.FL_CFG_dir l = 1 ∧ d.rd2 F.CN_FLT_ID_format c k = f.format ∧
        f.ident &&& mask = d.rd2 F.CN_FLT_ID_id c k &&& mask then some l
      else none
    | none => none


/-- A frame of flow l is accepted (R333 to R336). -/
def Dev.acceptFrame (d : Dev) (c l sof : Nat) (f : CanFrame) (data : List Byte) (fv : Nat) : Dev :=
  let r : RxRec := { time := sof, flow := l, status := Code.OK, format := formatByte f true, ident := f.ident,
                     length := if f.rtr then f.asked else data.length, sdt := f.sdt, vcid := f.vcid, af := f.af, data := data }
  let dest := d.rd F.FL_CFG_dest l
  let long := Nat.blt 64 data.length
  let d := d.wr64 F.FL_FV_RX_LO F.FL_FV_RX_HI l fv
  let d := (d.put F.FL_STAT_stale l false).wr64 F.FL_LAST_LO F.FL_LAST_HI l sof
  let d := d.wr F.FL_STAT_frames l (d.rd F.FL_STAT_frames l + 1)
  let d := d.setFlow l { d.flow l with ageFrom := d.time }
  let d := d.onCan c fun v => { v with seen := v.seen ++ ((List.range 32).filter fun n => d.rd2 F.CN_TT_TRIG_flow c n == l && !v.seen.contains n) }
  let d := d.wr F.FL_STAT_last_status l (if dest ≠ 1 ∧ long = true then Code.LENGTH else Code.OK)
  let d := if dest = 1 then d
    else if long then d.reportOpen Kind.flow l Cls.report Code.LENGTH
    else d.mailbox l r
  if dest = 2 then d else d.pushRx c r

/-- A frame of flow l fails its check (R339): STALE or AUTH. -/
def Dev.failFrame (d : Dev) (c l sof st : Nat) (f : CanFrame) : Dev :=
  let d := d.wr F.FL_STAT_last_status l st
  let d := if st = Code.STALE then (d.put F.FL_STAT_replay l true).bump F.FL_CNT_replay l
    else (d.put F.FL_STAT_auth l true).bump F.FL_CNT_auth l
  let d := d.reportOpen Kind.flow l Cls.report st
  if d.rd F.FL_CFG_dest l = 2 then d
  else d.pushRx c { time := sof, flow := l, status := st, format := formatByte f true, ident := f.ident,
                    sdt := f.sdt, vcid := f.vcid, af := f.af }

/-- A reference message of the time-triggered network is received (R342, R343). -/
def Dev.reference (d : Dev) (c sof prio : Nat) (m : RefMark) : Dev :=
  let own := d.rd F.CN_TT_CFG_prio c
  let st := d.ttState c
  let v := d.can c
  let good := if m.disc then 0 else if prio = v.lastPrio then min (v.goodRefs + 1) 2 else 1
  let d := d.onCan c fun v =>
    { v with goodRefs := good, lastPrio := prio, higherSeen := v.higherSeen || (st == ttListening && Nat.blt prio own),
             contend := v.contend && !Nat.blt prio own, cycleAt := sof, gap := m.gap }
  let d := (d.wr F.CN_TT_STAT_cycle_count c m.cycle).wr F.CN_TT_STAT_master_prio c prio
  let d := if st = ttMaster then
      (d.wr F.CN_TT_STAT_state c ttListening).onCan c fun v => { v with listenAt := d.time, higherSeen := Nat.blt prio own, contend := false }
    else d
  if d.flag F.CN_TT_CFG_level2 c then d.ttMark c sof m.mark else d.ttCheck c

/-- May the controller take a frame of this format (R324, CN_CFG.proto)? -/
def Dev.protoTakes (d : Dev) (c : Nat) (f : CanFrame) : Bool :=
  let p := d.rd F.CN_CFG_proto c
  if f.format = 3 then p == 3 else if f.fd then p != 1 else true

/-- FRAME_RECEIVE: controller c has received a frame whose start of frame was at device time `sof`. -/
def execFrameReceive (t : Nat) (c : Fin 8) (f : CanFrame) (sof : Nat) (s : State) : Host.Outcome State Fault Refusal :=
  effect t s fun d =>
    if d.onBus c = false then d
    else if d.protoTakes c f = false then
      if d.flag F.CN_CFG_pex c then d.reintegrate c
      else d.errorCounts c (d.rd F.CN_STAT_tec c) (d.rd F.CN_STAT_rec c + 1)
    else
      let r := d.rd F.CN_STAT_rec c
      let d := d.errorCounts c (d.rd F.CN_STAT_tec c) (if 127 < r then 119 else r - 1)
      let d := match f.ref with
        | some m =>
          if d.flag F.CN_CFG_tt_en c = true ∧ f.format = 1 ∧ f.ident / 8 = d.rd F.CN_TT_CFG_ref_hi c then
            d.reference c sof (f.ident % 8) m
          else d
        | none => d
      match d.matchFlow c f with
      | none => d.bump F.CN_CNT_unmatched c
      | some l =>
        if d.fenced Kind.flow l then d
        else
          let (st, data, fv) := d.checkFrame l (formatByte f false) f.ident f.data
          if st = Code.OK then d.acceptFrame c l sof f data fv else d.failFrame c l sof st f

/-- FLOW_STALE: no accepted frame has arrived on an enabled RX flow for max_age × 100 µs (R336). -/
def execFlowStale (t : Nat) (l : Fin 256) (s : State) : Host.Outcome State Fault Refusal :=
  effect t s fun d =>
    if d.flag F.FL_CFG_enable l = true ∧ d.rd F.FL_CFG_dir l = 1 ∧ d.flag F.FL_CFG_age_en l = true ∧
      d.flag F.CN_CFG_enable (d.rd F.FL_CFG_controller l) = true ∧ d.flag F.FL_STAT_stale l = false ∧ d.fenced Kind.flow l = false ∧
      (d.flow l).ageFrom + 80000 * d.rd F.FL_AGE_max_age l ≤ d.time then
      (d.put F.FL_STAT_stale l true).reportOpen Kind.flow l Cls.report Code.STALE
    else d

/-! ### Controller states (R327, R329) -/

/-- INTEGRATION_DONE: an integrating controller has seen 11 recessive bits. -/
def execIntegrationDone (t : Nat) (c : Fin 8) (s : State) : Host.Outcome State Fault Refusal :=
  effect t s fun d =>
    if d.canState c = canIntegrating ∧ d.fenced Kind.can c = false then
      ((d.wr F.CN_STAT_state c canActive).errorCounts c (d.rd F.CN_STAT_tec c) (d.rd F.CN_STAT_rec c)).ttCheck c
    else d

/-- A write of CN_CTRL.cmd (R329, R345). -/
def Dev.canCommand (d : Dev) (m : Master) (c cmd : Nat) : Dev :=
  if d.fenced Kind.can c then d.reject m (F.CN_CTRL.off c 0) Reason.fenced (BitVec.ofNat 32 cmd)
  else if cmd ≠ 1 ∨ d.canState c ≠ canBusOff then d.reject m (F.CN_CTRL.off c 0) Reason.value (BitVec.ofNat 32 cmd)
  else ((d.wr F.CN_CTRL_cmd c 1).put F.CN_CTRL_pending c true).wr F.CN_STAT_state c canRecovering

/-- RECOVER: master m writes RECOVER to CN_CTRL[c]. -/
def execRecover (t : Nat) (m : Master) (c : Fin 8) (s : State) : Host.Outcome State Fault Refusal :=
  fromMaster m t s fun d => d.canCommand m c 1

/-- RECOVERY_COMPLETE: 128 sequences of 11 recessive bits have been counted; a fenced controller recovers no further (R372). -/
def execRecoveryComplete (t : Nat) (c : Fin 8) (s : State) : Host.Outcome State Fault Refusal :=
  effect t s fun d =>
    if d.canState c = canRecovering ∧ d.fenced Kind.can c = false then
      let d := ((d.wr F.CN_STAT_state c canActive).wr F.CN_STAT_tec c 0).wr F.CN_STAT_rec c 0
      ((d.put F.CN_CTRL_pending c false).wr F.CN_CTRL_status c Code.OK).ttStart c
    else d

/-- RECEIVE_ERROR: controller c detects a bus error while receiving; REC rises by 1 or by 8 as ISO 11898-1 has it. One in an XL frame without
error signalling has it integrate (PRESUMED: ISO 11898-1; log entry 42). -/
def execReceiveError (t : Nat) (c : Fin 8) (e : RxError) (s : State) : Host.Outcome State Fault Refusal :=
  effect t s fun d =>
    if d.onBus c = false then d
    else if d.xlSilent c (e == .xl) then d.reintegrate c
    else d.errorCounts c (d.rd F.CN_STAT_tec c) (d.rd F.CN_STAT_rec c + if e = .eight then 8 else 1)

/-! ### Time-triggered operation (R340 to R342) -/

/-- TT_TRIGGER: trigger n of controller c fires at its mark (R341). -/
def execTtTrigger (t : Nat) (c : Fin 8) (n : Fin 32) (s : State) : Host.Outcome State Fault Refusal :=
  effect t s fun d =>
    let st := d.ttState c
    let l := d.rd2 F.CN_TT_TRIG_flow c n
    let mark := (d.can c).cycleAt + d.ntuTicks c (d.rd2 F.CN_TT_MARK_mark c n)
    if (st = ttFollowing ∨ st = ttMaster) ∧ d.onBus c = true ∧ d.trigCycle c n (d.rd F.CN_TT_STAT_cycle_count c) = true ∧ mark ≤ d.time then
      if d.rd2 F.CN_TT_TRIG_type c n = 3 then
        let seen := (d.can c).seen
        let d := d.onCan c fun v => { v with seen := v.seen.filter fun k => k != n.val }
        if seen.contains n.val then d
        else ((d.put F.FL_STAT_missed l true).put F.CN_TT_STAT_missed c true).reportOpen Kind.flow l Cls.report Code.MISSED_WINDOW
      else
        d.onCan c fun v => { v with slots := v.slots.map fun k => if k.frame.flow = l ∧ k.offer = none then { k with offer := some mark } else k }
    else d

/-- MISSED_WINDOW: a time-triggered slot frame has not started within tx_win NTU of its mark (R341). -/
def execMissedWindow (t : Nat) (c : Fin 8) (k : Fin 3) (s : State) : Host.Outcome State Fault Refusal :=
  effect t s fun d =>
    match (d.can c).slots.find? fun z => z.slot == k.val with
    | none => d
    | some z =>
      match z.offer with
      | none => d
      | some m =>
        if m + d.ntuTicks c (d.rd F.CN_TT_CFG_tx_win c) < d.time then
          let d := (d.finish z.frame.qp z.frame.index Code.MISSED_WINDOW).put F.CN_TT_STAT_missed c true
          d.wr F.FL_STAT_last_status z.frame.flow Code.MISSED_WINDOW
        else d

/-- Ticks of a basic cycle of controller c. -/
def Dev.cycleTicks (d : Dev) (c : Nat) : Nat := d.ntuTicks c (d.rd F.CN_TT_CYCLE_cycle c)

/-- The basic cycle that a reference message of controller c begins (R340). -/
def Dev.nextCycle (d : Dev) (c : Nat) : Nat := (d.rd F.CN_TT_STAT_cycle_count c + 1) % 2 ^ d.rd F.CN_TT_CFG_mc_log2 c

/-- The reference message of controller c at device time `sof` (R340): the level 2 format carries its reference mark; no gap follows. -/
def Dev.referenceFrame (d : Dev) (c sof : Nat) : CanFrame :=
  { format := 1, ident := d.rd F.CN_TT_CFG_ref_hi c * 8 + d.rd F.CN_TT_CFG_prio c,
    ref := some { cycle := d.nextCycle c, disc := false,
                  mark := if d.flag F.CN_TT_CFG_level2 c then d.ttNow c sof % 65536 else 0 } }

/-- May controller c send a reference message whose start of frame is at `sof`: a master, or a potential one that has listened, at the start
of a basic cycle; a gap that the master announced has none (R340, R342)? -/
def Dev.mayLead (d : Dev) (c sof : Nat) : Bool :=
  let st := d.ttState c
  let v := d.can c
  d.maySend c && d.rd F.CN_TT_CFG_role c == 2 && (st == ttMaster || (st == ttFollowing && v.contend && !v.gap)) &&
    Nat.ble (v.cycleAt + d.cycleTicks c) sof && Nat.ble sof d.time

/-- Controller c leads the basic cycle that starts at `sof`; its global time goes on without a step (R342). -/
def Dev.lead (d : Dev) (c sof : Nat) : Dev :=
  let now := d.ttNow c sof
  let d := (d.wr F.CN_TT_STAT_state c ttMaster).wr F.CN_TT_STAT_cycle_count c (d.nextCycle c)
  let d := (d.wr F.CN_TT_STAT_master_prio c (d.rd F.CN_TT_CFG_prio c)).onCan c fun v => { v with contend := false, cycleAt := sof }
  if d.flag F.CN_TT_CFG_level2 c then d.ttExtended c sof now else d.ttCheck c

/-- Controller c lost the arbitration of reference messages: it follows, a master after listening again (R342, R345). -/
def Dev.yieldLead (d : Dev) (c : Nat) : Dev :=
  if d.ttState c = ttMaster then
    let d := d.wr F.CN_TT_STAT_state c ttListening
    (d.onCan c fun v => { v with listenAt := d.time, higherSeen := false, contend := false }).ttCheck c
  else d.onCan c fun v => { v with contend := false }

/-- TT_REFERENCE_SEND: a master, or a potential one that takes over, sends its reference message at the start of a basic cycle; `a` is how
the attempt ends, its counters as any attempt's (R327). One that fails otherwise than in arbitration leaves who leads as it was. -/
def execTtReferenceSend (t : Nat) (c : Fin 8) (a : TxAttempt) (sof : Nat) (s : State) : Host.Outcome State Fault Refusal :=
  effect t s fun d =>
    if d.mayLead c sof then
      let d := d.attempt c sof (d.referenceFrame c sof) a
      if d.onBus c = false then d
      else match a.ended with
      | .ok => d.lead c sof
      | .arbLost => d.yieldLead c
      | _ => d
    else d

/-- LISTEN_END: the listening matrix cycle of a potential master ends (R342). -/
def execListenEnd (t : Nat) (c : Fin 8) (s : State) : Host.Outcome State Fault Refusal :=
  effect t s fun d =>
    let v := d.can c
    if d.ttState c = ttListening ∧ v.listenAt + 2 ^ d.rd F.CN_TT_CFG_mc_log2 c * d.cycleTicks c ≤ d.time then
      ((d.wr F.CN_TT_STAT_state c ttFollowing).onCan c fun v => { v with contend := !v.higherSeen }).ttCheck c
    else d

/-- MASTER_LOST: no reference message within ref_watch NTU of the last reference mark (R342). In a gap that the master announced none is
expected (R340). -/
def execMasterLost (t : Nat) (c : Fin 8) (s : State) : Host.Outcome State Fault Refusal :=
  effect t s fun d =>
    let st := d.ttState c
    if (st = ttFollowing ∨ st = ttListening) ∧ (d.can c).gap = false ∧ (d.can c).cycleAt + d.ntuTicks c (d.rd F.CN_TT_CYCLE_ref_watch c) ≤ d.time then
      let d := d.put F.CN_TT_STAT_master_lost c true
      let take := st == ttFollowing && d.rd F.CN_TT_CFG_role c == 2
      (d.onCan c fun v => { v with goodRefs := 0, contend := v.contend || take }).ttCheck c
    else d

end Sys2Proof.Machine
end

