-- ==== Sys2Proof/Machine/Resources.lean ====
section
/-! DEFINITION. Resource claims (R27, R28): which resources the set-up registers of a unit select, and whether it holds them. -/

namespace Sys2Proof.Machine

/-! Resource kinds (R27). -/
namespace Res
def land : Nat := 1
def trigger : Nat := 2
def ain : Nat := 3
def bank : Nat := 4
def filter : Nat := 5
def vector : Nat := 6
end Res

/-- A range of resources of one kind. -/
def resRange (kind first n : Nat) : List (Nat × Nat) := (List.range n).map fun k => (kind, first + k)

/-- The lands and converter inputs of an enabled position port (R124, R405), and the trigger of its SSI reads (R133). -/
def Dev.posSelects (d : Dev) (i : Nat) : List (Nat × Nat) :=
  if !d.flag F.PS_CFG_enable i then []
  else
    let own := resRange Res.land (422 + 8 * i) 8
    let res := if d.rd F.PS_CFG_mode i = 5 ∧ i < 2 then resRange Res.land (470 + 2 * i) 2 ++ resRange Res.ain (40 + 4 * i) 4 else []
    let ssi := if d.rd F.PS_CFG_mode i = 4 ∧ d.rd F.PS_SSI_RUN_start i = 1 then [(Res.trigger, d.rd F.PS_SSI_RUN_trigger i)] else []
    own ++ res ++ ssi

/-- The trigger of an enabled observer latch (R141). -/
def Dev.latchSelects (d : Dev) (i : Nat) : List (Nat × Nat) :=
  if d.flag F.PS_LATCH_CFG_enable i then [(Res.trigger, d.rd F.PS_LATCH_CFG_trigger i)] else []

/-- The lands of an enabled repeater (R144, R405): EP0 its own, EP1 the A, B and Z pairs of PS5. -/
def Dev.repSelects (d : Dev) (j : Nat) : List (Nat × Nat) :=
  if !d.flag F.EP_CFG_enable j then []
  else if j = 0 then resRange Res.land 286 5 ++ [(Res.land, 308)]
  else resRange Res.land 462 6

/-- The inputs of entry e of a converter's sequence (R101), where the sequence reaches it. -/
def Dev.entrySelects (d : Dev) (c e : Nat) : List (Nat × Nat) :=
  let n := d.rd2 F.CV_ENT_index c e
  if d.rd F.CV_CFG_length c ≤ e then []
  else if d.rd2 F.CV_ENT_kind c e = 1 then [(Res.ain, n)]
  else if d.rd2 F.CV_ENT_kind c e = 2 then [(Res.ain, 2 * n), (Res.ain, 2 * n + 1)]
  else []

/-- The inputs of a converter's sequence, and its trigger in TRIGGERED mode (R102). -/
def Dev.convSelects (d : Dev) (c : Nat) : List (Nat × Nat) :=
  (List.range 16).flatMap (d.entrySelects c) ++
    (if d.rd F.CV_CFG_mode c = 2 then [(Res.trigger, d.rd F.CV_CFG_trigger c)] else [])

/-- The vector of a queue pair (R313). -/
def Dev.qpSelects (d : Dev) (q : Nat) : List (Nat × Nat) :=
  if d.flag F.HI_QP_CFG_vec_en q then [(Res.vector, d.rd F.HI_QP_CFG_vector q)] else []

/-- The filter of an enabled RX flow (R333). -/
def Dev.flowSelects (d : Dev) (l : Nat) : List (Nat × Nat) :=
  if d.flag F.FL_CFG_enable l && d.rd F.FL_CFG_dir l == 1 then
    [(Res.filter, 256 * d.rd F.FL_CFG_controller l + d.rd F.FL_CFG_filter l)]
  else []

/-- Every resource that the registers of a unit select. -/
def Dev.selects (d : Dev) (kind index : Nat) : List (Nat × Nat) :=
  if kind = Kind.posPort then d.posSelects index ++ d.latchSelects index
  else if kind = Kind.repeater then d.repSelects index
  else if kind = Kind.logicConv then d.convSelects index
  else if kind = Kind.queue then d.qpSelects index
  else if kind = Kind.flow then d.flowSelects index
  else []

/-- Does a unit hold each of some resources? A function that does not stays inactive (R28). -/
def Dev.holds (d : Dev) (kind index : Nat) (l : List (Nat × Nat)) : Bool := l.all fun r => d.holderOf r.1 r.2 == some (kind, index)

end Sys2Proof.Machine
end

