-- ==== Sys2Proof/Machine/Converters.lean ====
section
/-! DEFINITION. Logic converters (chapter 05): passes, results, open-wire tests, urgent requests. -/

namespace Sys2Proof.Machine

/-- A converter before the first conversion of an entry. -/
def ConvT.fresh (v : ConvT) : ConvT := { v with phase := 0, sum := 0, taken := 0, sat := false, normal := 0 }

/-- A pass starts (R102): its number decides whether it takes open-wire tests (R106). -/
def Dev.startPass (d : Dev) (c : Nat) : Dev :=
  if d.fenced Kind.logicConv c || !d.holds Kind.logicConv c (d.convSelects c) then d.put F.CV_STAT_busy c false
  else
    let n := (d.conv c).pass + 1
    let d := d.setConv c { (d.conv c).fresh with pass := n, testPass := n % d.rd F.CV_CFG_ow_every c == 0 }
    (d.put F.CV_STAT_busy c true).wr F.CV_STAT_entry c 0

/-- The present entry is done: the next one, or the end of the pass (R102). -/
def Dev.nextEntry (d : Dev) (c : Nat) : Dev :=
  let e := d.rd F.CV_STAT_entry c + 1
  let v := d.conv c
  if e < d.rd F.CV_CFG_length c then
    (d.setConv c v.fresh).wr F.CV_STAT_entry c e
  else if d.rd F.CV_CFG_mode c = 1 then d.startPass c
  else d.put F.CV_STAT_busy c false

/-- A code of an entry as a number: two's complement for a pair (R100). -/
def entryCode (kind code : Nat) : Int := if kind = 2 then signed 16 code else (code % 65536 : Nat)

/-- Is a code at either end of its kind's range (R105)? -/
def entryEnd (kind code : Nat) : Bool :=
  if kind = 2 then code % 65536 == 0x8000 || code % 65536 == 0x7FFF else code % 65536 == 0 || code % 65536 == 0xFFFF

/-- An entry delivers its result (R105); a DAC entry is checked against its threshold (R112). A value that saturates sets sat, as a code at
an end value does (R5). The source of DAC_MISMATCH is the window monitor, whose dac_err is set, not the converter; and that of a pod's
readback its comparator (R112 names no source; DESIGN CHOICE, log entry 66). -/
def Dev.deliver (d : Dev) (c e : Nat) (code : Int) (sat : Bool) (hold : Nat) : Dev :=
  let v := roundDiv ((code - signed 18 (d.rd2 F.CV_OFFS_offset c e)) * (BitVec.ofNat 32 (d.rd2 F.CV_SCALE c e)).toInt) 256
  let d := d.wr2 F.CV_RES c e (sat32 v).toNat
  let d := (d.wr2 F.CV_RAW_code c e (unsigned 16 code)).wr2 F.CV_RAW_valid c e 1
  let d := (d.wr2 F.CV_RAW_sat c e (b2n (sat || outOf32 v))).wr2 F.CV_RAW_pass c e ((d.conv c).pass % 256)
  let d := d.wr2 F.CV_STAMP c e (hold % 2 ^ 32)
  let n := d.rd2 F.CV_ENT_index c e
  let m := n / 2
  let dac : Int := 64 * (if n % 2 = 1 then d.rd F.WM_THR_hi m else d.rd F.WM_THR_lo m)
  if d.rd2 F.CV_ENT_kind c e = 3 ∧ 256 < (code - dac).natAbs then
    let d := (d.put F.CV_STAT_dac_mismatch c true).put F.WM_STAT_dac_err m true
    d.reportOpen Kind.winMon m Cls.report Code.DAC_MISMATCH
  else d.noteResult c e (sat32 v).toInt hold

/-- A sequence conversion that was held at device time `hold` completes: averaged, delivered, and followed by a test conversion in a test
pass (R102, R105, R106). It takes 190 ns, 152 ticks, at least (R99); one that an urgent conversion met was abandoned and is taken again
(R104). -/
def Dev.seqDone (d : Dev) (c code hold : Nat) : Dev :=
  let d := d.takeTriggers c
  let e := d.rd F.CV_STAT_entry c
  let kind := d.rd2 F.CV_ENT_kind c e
  let v := d.conv c
  if !d.flag F.CV_STAT_busy c || d.fenced Kind.logicConv c || v.running.isSome || Nat.blt hold v.freeAt || Nat.blt d.time (hold + 152) then d
  else if v.phase = 0 then
    let v := { v with sum := v.sum + entryCode kind code, taken := v.taken + 1, sat := v.sat || entryEnd kind code }
    let n := 2 ^ d.rd2 F.CV_ENT_avg c e
    if v.taken < n then d.setConv c v
    else
      let mean := roundDiv v.sum n
      let d := (d.setConv c { v with normal := mean }).deliver c e mean v.sat hold
      if v.testPass && d.rd2 F.CV_ENT_ow c e != 1 then d.setConv c { v with normal := mean, phase := 1, owAt := d.time }
      else d.nextEntry c
  else if v.phase = 2 then
    let bad := Nat.blt (64 * d.rd2 F.CV_ENT_ow_limit c e) (entryCode kind code - v.normal).natAbs
    let d := d.wr2 F.CV_RAW_broken c e (b2n bad)
    let d := if bad then (d.put F.CV_STAT_broken c true).report Kind.logicConv c Cls.report Code.BROKEN e else d
    d.nextEntry c
  else d

/-- May the safety controller name this input in CV_URG[c] (R103)? -/
def Dev.mayUrge (d : Dev) (c kind index : Nat) : Bool :=
  let mine (i : Nat) : Bool := d.holderOf 3 i == some (Kind.logicConv, c)
  if kind = 1 then mine index
  else if kind = 2 then mine (2 * index) && mine (2 * index + 1)
  else true

/-- The indices of an input kind (R100). -/
def inputRange (kind : Nat) : Nat := if kind = 1 then 48 else if kind = 2 then 24 else if kind = 3 then 48 else if kind = 4 then 2 else 0

/-- The safety controller writes CV_URG[c] (R103). -/
def Dev.urge (d : Dev) (c : Nat) (w : Word) : Dev :=
  let kind := getBits w 0 3
  let index := getBits w 3 6
  if d.fenced Kind.logicConv c then d.reject .sc (F.CV_URG.off c 0) Reason.fenced w
  else if d.flag F.CV_URG_busy c || inputRange kind ≤ index then d.reject .sc (F.CV_URG.off c 0) Reason.value w
  else
    let d := (d.wr F.CV_URG_kind c kind).wr F.CV_URG_index c index
    if !d.mayUrge c kind index then d.wr F.CV_URG_status c Code.CLAIMED
    else
      ((d.takeTriggers c).put F.CV_URG_busy c true).requestUrgent c [(.sc, d.time)]

/-- An urgent conversion of the low or high DAC of WMm, which the monitor's re-admission asked for, gives a code (R380). -/
def Dev.noteDac (d : Dev) (m : Nat) (hi : Bool) (code : Nat) : Dev :=
  let now := d.time
  d.withFlt { d.flt with admits := d.flt.admits.map fun a =>
    if a.kind == Kind.winMon && a.index == m then
      (if hi then { a with hi := some code, readAt := now } else { a with lo := some code, readAt := now })
    else a }

/-- The urgent conversion that runs on converter c completes, and the next request is served, or the sequence resumes (R103, R104). -/
def Dev.urgentDone (d : Dev) (c code : Nat) : Dev :=
  let d := d.takeTriggers c
  if !d.urgentRipe c then d
  else
    match (d.conv c).running with
    | some (.shunt s isB _, _) => d.lightDone s isB (signed 16 code) 0
    | some (.cal s, _) => (d.calConversion s (signed 16 code)).endUrgentConv c
    | some (.sc, _) =>
      let d := (d.wr F.CV_URG_RES_code c code).put F.CV_URG_busy c false
      (d.wr F.CV_URG_status c Code.OK).endUrgentConv c
    | some (.dacTest m hi, _) => (d.noteDac m hi code).endUrgentConv c
    | none => d

/-- CONVERSION_DONE: the sequence conversion of converter c that was held at device time `hold` completes (R102, R105). -/
def execConversionDone (t : Nat) (c : Fin 6) (code hold : Nat) (s : State) : Host.Outcome State Fault Refusal :=
  effect t s fun d => d.seqDone c code hold

/-- The test current has been applied for ow_time, in units of 100 ns, 80 ticks, without an urgent conversion meanwhile (R104, R106). -/
def Dev.owSettled (d : Dev) (c : Nat) : Dev :=
  let d := d.takeTriggers c
  let v := d.conv c
  if v.phase = 1 ∧ v.running = none ∧ v.owAt + 80 * d.rd F.CV_CFG_ow_time c ≤ d.time then d.setConv c { v with phase := 2 } else d

/-- OW_SETTLE_EXPIRY: the test current has been applied for ow_time (R106). -/
def execOwSettleExpiry (t : Nat) (c : Fin 6) (s : State) : Host.Outcome State Fault Refusal :=
  effect t s fun d => d.owSettled c

/-- CV_PASS_START: a firing of the converter's trigger unit arrives, 120 ticks after its planned time (R49, R102). -/
def execCvPassStart (t : Nat) (c : Fin 6) (s : State) : Host.Outcome State Fault Refusal :=
  effect t s fun d =>
    let u := d.rd F.CV_CFG_trigger c
    match d.fired u with
    | stamp :: r =>
      if d.rd F.CV_CFG_mode c = 2 ∧ stamp / 16 + 120 ≤ d.time ∧ d.holderOf 2 u = some (Kind.logicConv, c.val) ∧
          d.fenced Kind.logicConv c = false then
        let d := d.setFired u r
        if d.flag F.CV_STAT_busy c then (d.put F.CV_STAT_overrun c true).bump F.CV_STAT_overrun_cnt c else d.startPass c
      else d
    | [] => d

/-- URGENT_REQUEST: the safety controller writes CV_URG (R103). -/
def execUrgentRequest (t : Nat) (c : Fin 6) (w : Word) (s : State) : Host.Outcome State Fault Refusal :=
  fromFirmware t s fun d => d.urge c w

/-- URGENT_CONVERSION_DONE (R103, R104). -/
def execUrgentConversionDone (t : Nat) (c : Fin 6) (code : Nat) (s : State) : Host.Outcome State Fault Refusal :=
  effect t s fun d => d.urgentDone c (code % 65536)

end Sys2Proof.Machine
end

