-- ==== Sys2Proof/Machine/Ledger.lean ====
section
/-! DEFINITION. The fault ledger (chapter 17): the intake, entries in RAM, coalescing, losses, EVENT records and slot captures. -/

namespace Sys2Proof.Machine

/-! ### Entries (R375) -/

/-- The eight words of a fault record (R375). -/
def Entry.words (e : Entry) : List Word :=
  [lowWord e.rep.time, highWord e.rep.time,
   BitVec.ofNat 32 (e.rep.kind % 256 + 256 * (e.rep.index % 256) +
     65536 * (e.rep.cls % 16 + 16 * (e.rep.code % 256) + 4096 * (e.rep.sub % 16))),
   lowWord e.rep.detail, lowWord e.first, BitVec.ofNat 32 (e.count % 65536 + 65536 * (e.chain % 65536)),
   BitVec.ofNat 32 (e.chain / 65536), lowWord e.number]

/-- The entry in RAM slot k. -/
def Dev.slot (d : Dev) (k : Nat) : Option Entry := Tbl.get (fun _ => none) d.flt.slots k
def Dev.setSlot (d : Dev) (k : Nat) (e : Option Entry) : Dev :=
  d.withFlt { d.flt with slots := Tbl.set (fun _ => none) d.flt.slots k e }

/-- The number that the next entry takes (FLT_HEAD). -/
def Dev.nextNumber (d : Dev) : Nat := d.rd64 F.FLT_HEAD_LO F.FLT_HEAD_HI 0

/-- The slots whose present contents are not in flash. -/
def Dev.unflushed (d : Dev) : List (Nat × Entry) :=
  d.flt.slots.filterMap fun s => s.2.bind fun e => if e.flushed then none else some (s.1, e)

/-- Show how many entries await flash (FLT_STAT.unflushed, IMS_STAT.ledger_queue). -/
def Dev.showUnflushed (d : Dev) : Dev :=
  let n := d.unflushed.length
  (d.wr F.FLT_STAT_unflushed 0 n).wr F.IMS_STAT_ledger_queue 0 (min n 255)

/-- The slot of the entry made first among some of the slots. -/
def oldestSlot (l : List (Nat × Entry)) : Option Nat :=
  (l.foldl (init := none) fun best s =>
    match best with
    | none => some s
    | some b => if s.2.number < b.2.number then some s else some b).map Prod.fst

/-- An entry or a report is lost (R376, R378). -/
def Dev.countLost (d : Dev) : Dev :=
  ((d.withFlt { d.flt with lostCarry := d.flt.lostCarry + 1 }).bump F.FLT_LOST 0).put F.FLT_STAT_lost 0 true

/-- The slot that a new entry of a class takes (R378): its own one; where that holds an entry not in flash, nothing for class REPORT
or C, otherwise the oldest such entry of class REPORT or C, or the oldest of all. The flag tells whether an entry is displaced. -/
def Dev.slotFor (d : Dev) (cls : Nat) : Option (Nat × Bool) :=
  let k := d.nextNumber % 1024
  let busy : Bool := match d.slot k with
    | some e => !e.flushed
    | none => false
  if !busy then some (k, false)
  else if cls = Cls.report ∨ cls = Cls.c then none
  else
    let low := d.unflushed.filter fun s => s.2.rep.cls == Cls.report || s.2.rep.cls == Cls.c
    ((oldestSlot low).orElse fun _ => oldestSlot d.unflushed).map fun j => (j, true)

/-- The field of FLT_CLASS_CNT that counts entries of a class. -/
def classCount (cls : Nat) : Fd :=
  if cls = Cls.report then F.FLT_CLASS_CNT_report else if cls = Cls.c then F.FLT_CLASS_CNT_c
  else if cls = Cls.s then F.FLT_CLASS_CNT_s else F.FLT_CLASS_CNT_d

/-- An entry is made or updated: the EVENT queue pairs that select its source get a record (R379). -/
def Dev.eventOf (d : Dev) (e : Entry) : Dev := d.sendEvent e.rep.kind e.words

/-- An entry is made in a slot: numbered, counted, alerted, sent to the EVENT queue pairs, and requested of the safety controller
(R377, R379, R418). -/
def Dev.placeEntry (d : Dev) (k : Nat) (r : Report) : Dev :=
  let n := d.nextNumber
  let e : Entry := { rep := r, first := r.time, count := 1, number := n }
  let d := (d.setSlot k (some e)).wr64 F.FLT_HEAD_LO F.FLT_HEAD_HI 0 (n + 1)
  let d := d.bump (classCount r.cls) 0
  let d := if d.rd F.FLT_CFG_alert_class 0 ≤ r.cls then d.put F.FLT_STAT_alert 0 true else d
  let d := d.raiseRequest
  (d.eventOf e).showUnflushed

/-- A LOST entry covers what was lost, where a slot takes it (R376). -/
def Dev.makeLost (d : Dev) : Dev :=
  let d := d.withFlt { d.flt with lostDue := false }
  if d.flt.lostCarry = 0 then d
  else
    match d.slotFor Cls.report with
    | none => d
    | some (k, _) =>
      let r : Report :=
        { kind := Kind.device, index := 0, cls := Cls.report, code := Code.LOST, detail := d.flt.lostCarry, time := d.time, solo := true }
      (d.withFlt { d.flt with lostCarry := 0 }).placeEntry k r

/-- A report makes a new entry, or is lost (R376, R378). -/
def Dev.makeEntry (d : Dev) (r : Report) : Dev :=
  let d := d.makeLost
  match d.slotFor r.cls with
  | none => d.countLost
  | some (k, displaced) => (if displaced then d.countLost else d).placeEntry k r

/-- The coalescing window in ticks. -/
def Dev.coalesceWindow (d : Dev) : Nat := 800000 * d.rd F.FLT_CFG_window 0

/-- Does a report coalesce into an entry (R377)? -/
def Dev.coalesces (d : Dev) (r : Report) (e : Entry) : Bool :=
  e.isOpen && !r.solo && !e.rep.solo && e.rep.kind == r.kind && e.rep.index == r.index && e.rep.code == r.code &&
    Nat.ble r.time (e.rep.time + d.coalesceWindow) && Nat.blt e.count 65535

/-- The front end takes a report from the intake (R376, R377): a LOST entry that is due comes first; then the report goes into the newest
entry it coalesces with, or makes a new one. -/
def Dev.takeReport (d : Dev) (r : Report) : Dev :=
  let d := if d.flt.lostDue then d.makeLost else d
  let same := d.flt.slots.filterMap fun s => s.2.bind fun e => if d.coalesces r e then some (s.1, e) else none
  let newest := same.foldl (init := none) fun (best : Option (Nat × Entry)) s =>
    match best with
    | none => some s
    | some b => if b.2.number < s.2.number then some s else some b
  match newest with
  | some (k, e) =>
    let e := { e with rep := { e.rep with time := r.time, detail := r.detail }, count := e.count + 1, flushed := false }
    ((d.setSlot k (some e)).raiseRequest).showUnflushed
  | none => d.makeEntry r

/-! ### The commands -/

/-- May a unit that is not fenced post a report of this kind, index and class: is its class the reaction that the device has taken (R370)?
Class S is a stage's that holds its trip action, class D needs the device in safe state, and class C is that of a fenced unit, whose fence
makes its own entry. -/
def Dev.mayReport (d : Dev) (kind index cls : Nat) : Bool :=
  cls == Cls.report || (cls == Cls.s && kind == Kind.stage && d.flag F.WM_SW_STAT_held index) || (cls == Cls.d && d.devState == DevSt.safe)

/-- LEDGER_REPORT: a unit posts a report (R376, R418); a fenced unit reports nothing (R383). No unit posts class STATE, a class that does not
state the reaction taken (R370), an unassigned unit kind (R12) or a status word that no chapter assigns (R11): such a command changes
nothing. -/
def execLedgerReport (t : Nat) (kind index : BitVec 8) (cls : Fin 5) (code : BitVec 8) (sub : BitVec 4) (detail : Word) (s : State) :
    Host.Outcome State Fault Refusal :=
  effect t s fun d =>
    if d.mayReport kind.toNat index.toNat cls && Kind.assigned kind.toNat && Code.assigned code.toNat then
      d.report kind.toNat index.toNat cls code.toNat detail.toNat sub.toNat
    else d

/-- LEDGER_ENTRY: the front end takes the oldest report of the intake. -/
def execLedgerEntry (t : Nat) (s : State) : Host.Outcome State Fault Refusal :=
  effect t s fun d =>
    match d.flt.intake with
    | [] => d
    | r :: rest => (d.withFlt { d.flt with intake := rest }).takeReport r

/-- ENTRY_CLOSE: the coalescing window of the entry in RAM slot k passes (R377, R379). -/
def execEntryClose (t : Nat) (k : Fin 1024) (s : State) : Host.Outcome State Fault Refusal :=
  effect t s fun d =>
    match d.slot k with
    | none => d
    | some e =>
      if e.isOpen ∧ e.rep.time + d.coalesceWindow < d.time then
        let d := d.setSlot k (some { e with isOpen := false })
        if 1 < e.count then d.eventOf e else d
      else d

/-- A write of FLT_SEL[m]: the record of a RAM slot at one instant, an empty slot as zeros. -/
def Dev.captureSlot (d : Dev) (m : Master) (sel slot : Nat) : Dev :=
  if m.code ≠ sel then d.reject m (F.FLT_SEL.off sel 0) Reason.value (BitVec.ofNat 32 slot)
  else
    let d := d.wr F.FLT_SEL_slot sel slot
    let ws := match d.slot slot with
      | some e => e.words
      | none => []
    d.each (List.range 8) fun d i => d.wr2 F.FLT_REC sel i (ws.getD i 0).toNat

/-- SLOT_CAPTURE: master m writes FLT_SEL[sel] (R382, R383). -/
def execSlotCapture (t : Nat) (m : Master) (sel : Fin 3) (slot : Fin 1024) (s : State) : Host.Outcome State Fault Refusal :=
  fromMaster m t s fun d => d.captureSlot m sel slot

end Sys2Proof.Machine
end

