-- ==== Sys2Proof/Machine/ImsetOps.lean ====
section
/-! DEFINITION. What Imset keeps (chapter 16): counters, keys, sessions, images in flash, the flash ledger and its chain, the
freshness journal, the calendar offset and the lifetime records. -/

namespace Sys2Proof.Machine

/-- Update what security and Imset hold. -/
def Dev.onSec (d : Dev) (f : Sec → Sec) : Dev := d.withSec (f d.sec)

/-! ### Numbers and bytes -/

/-- The number of n bytes from byte k of a list. -/
def numAt (bs : List Byte) (k n : Nat) : Nat := bytesNum ((bs.drop k).take n)

/-- The bytes of a device's identity digest (R353). -/
def idDigest : List Byte := digest identityKey

/-! ### Anti-rollback counters and integrator keys (R347, R350, R355) -/

/-- A counter: consecutive blown fuses. -/
def Dev.counter (d : Dev) (c : Nat) : Nat := Tbl.get (fun _ => 0) d.sec.counters c
def Dev.setCounter (d : Dev) (c v : Nat) : Dev := d.onSec fun k => { k with counters := Tbl.set (fun _ => 0) k.counters c v }

/-- The active integrator key: the slot that counter 3 names. -/
def Dev.integratorKey (d : Dev) : Option (List Byte) := d.enrolled (d.counter 3)

/-- Show the security state that its status register holds. -/
def Dev.showSec (d : Dev) : Dev :=
  let d := d.wr F.SEC_STAT_key_slot 0 (d.counter 3)
  let d := d.wr F.SEC_STAT_enrolled 0 (((List.range 4).filter fun k => (d.enrolled k).isSome).foldl (fun n k => n + 2 ^ k) 0)
  (d.put F.SEC_STAT_session_qp0 0 d.sec.qpSession.isSome).put F.SEC_STAT_session_uart 0 d.sec.uartSession.isSome

/-- A counter is raised fuse by fuse (R347, R350); `blown` of the fuses it needs read back as blown. A burn that fails its
read-back sets otp_err. True where the counter stands at the value. -/
def Dev.raise (d : Dev) (c v blown : Nat) : Dev × Bool :=
  let now := d.counter c
  if v ≤ now then (d, true)
  else
    let d' := (d.setCounter c (min v (now + blown))).showSec
    if v ≤ now + blown then (d', true) else (d'.put F.SEC_STAT_otp_err 0 true, false)

/-! ### Sessions (R356) -/

/-- The session of a channel: QP0, or the service UART. -/
def Dev.session (d : Dev) (uart : Bool) : Option Session := if uart then d.sec.uartSession else d.sec.qpSession

/-- Replace the session of a channel. -/
def Dev.setSession (d : Dev) (uart : Bool) (v : Option Session) : Dev :=
  (d.onSec fun k => if uart then { k with uartSession := v } else { k with qpSession := v }).showSec

/-- The boot count (IMS_BOOT.count). -/
def Dev.boots (d : Dev) : Nat := d.rd F.IMS_BOOT_count 0

/-! ### Calendar and flash (R346, R367, R391) -/

/-- Calendar time in seconds. -/
def Dev.calendar (d : Dev) : Nat := d.rd64 F.PWR_CAL_LO F.PWR_CAL_HI 0

/-- Imset records the calendar in a lifetime record, a journal step or a refresh step (R391). -/
def Dev.recordCalendar (d : Dev) : Dev :=
  let c := d.calendar
  d.onSec fun k => { k with calOffset := max k.calOffset c }

/-- The 64 KiB sectors of the layout, but for the refresh scratch. -/
def flashSectors : Nat := 0x93

/-- A flash byte that nothing has written: erased (log entry 5). -/
def flashReset (_ : Nat) : Byte := 0xFF
def Dev.flashByte (d : Dev) (a : Nat) : Byte := Tbl.get flashReset d.sec.flash a

/-- A flash sector of 64 KiB is written now. -/
def Dev.touchSector (d : Dev) (sector : Nat) : Dev :=
  let c := d.calendar
  d.onSec fun k => { k with sectorAt := Tbl.set (fun _ => 0) k.sectorAt sector c }

/-- A flash write failed at first (R368): shown and reported; Imset retries it once at the next sector, where the region has one that the
data may lie in, and otherwise at its place (log entry 51). -/
def Dev.flashError (d : Dev) (err : Bool) : Dev :=
  if err then (d.put F.IMS_STAT_flash_err 0 true).report Kind.imset 0 Cls.report (Code.ofFree (Config.imsetCode 0)) 0 else d

/-- Store bytes in flash from an offset on. -/
def Dev.writeFlash (d : Dev) (a : Nat) (bs : List Byte) : Dev :=
  let d := d.onSec fun k =>
    { k with flash := (bs.foldl (fun (x : Tbl Byte × Nat) b => (Tbl.set flashReset x.1 x.2 b, x.2 + 1)) (k.flash, a)).1 }
  if bs.isEmpty then d
  else d.each ((List.range 256).filter fun n => Nat.ble (a / 65536) n && Nat.ble n ((a + bs.length - 1) / 65536)) Dev.touchSector

/-- A flash sector is erased. -/
def Dev.eraseSector (d : Dev) (n : Nat) : Dev := d.onSec fun k => { k with flash := k.flash.filter fun e => e.1 / 65536 != n }

/-- A flash sector takes the bytes of another. -/
def Dev.copySector (d : Dev) (n m : Nat) : Dev :=
  let from' := d.sec.flash.filter fun e => e.1 / 65536 == n
  (d.eraseSector m).onSec fun k =>
    { k with flash := from'.foldl (fun f e => Tbl.set flashReset f (65536 * m + e.1 % 65536) e.2) k.flash }

/-- The bytes of flash from an offset on. -/
def Dev.flashBytes (d : Dev) (a n : Nat) : List Byte := (List.range n).map fun j => d.flashByte (a + j)

/-! ### Images (R346, R348, R362, R363) -/

/-- Size of an image slot of a kind: 0 Imset firmware, 1 safety firmware, 2 configuration. -/
def slotSize (kind : Nat) : Nat := if kind = 0 then 0x200000 else 0x100000

/-- Flash offset of slot A (false) or B of a kind. -/
def slotBase (kind : Nat) (b : Bool) : Nat :=
  if kind = 0 then (if b then 0x210000 else 0x10000)
  else if kind = 1 then (if b then 0x510000 else 0x410000)
  else (if b then 0x710000 else 0x610000)

/-- The longest payload of a kind (R348). -/
def payloadLimit (kind : Nat) : Nat :=
  if kind = 0 then 0x200000 - 29856 else if kind = 1 then 0x80000 else 0x100000 - 29856

/-- The directory's words on a kind. -/
def Dev.image (d : Dev) (kind : Nat) : ImgT := Tbl.get (fun _ => {}) d.sec.image kind

/-- The directory's byte on a kind (log entry 51): active slot, a trial slot marked, which, and which slots have been active before. -/
def ImgT.byte (v : ImgT) : Byte :=
  BitVec.ofNat 8 (b2n v.active + 2 * b2n v.trial.isSome + 4 * b2n (v.trial == some true) + 8 * b2n v.beenA + 16 * b2n v.beenB)

/-- What a byte of the directory says. -/
def imgOf (b : Byte) : ImgT :=
  { active := b.getLsbD 0, trial := if b.getLsbD 1 then some (b.getLsbD 2) else none, beenA := b.getLsbD 3, beenB := b.getLsbD 4 }

/-- Where the two copies of the directory lie in its sector. -/
def directoryCopies : List Nat := [0, 0x8000]

/-- Both copies of the directory are written, one after the other, each with its SHAKE256 check (R346). -/
def Dev.storeDirectory (d : Dev) : Dev :=
  let bs := [0, 1, 2].map fun k => (d.image k).byte
  directoryCopies.foldl (fun d a => d.writeFlash a (bs ++ digest bs)) d

/-- The directory in the copy at an offset, where its check holds. -/
def Dev.directoryAt (d : Dev) (a : Nat) : Option (List ImgT) :=
  let bs := d.flashBytes a 3
  if bs.all (fun b => Nat.blt b.toNat 32) && d.flashBytes (a + 3) 64 == digest bs then some (bs.map imgOf) else none

/-- The directory is read (R351): the first copy that is sound, or none. -/
def Dev.readDirectory (d : Dev) : Dev :=
  let vs := (directoryCopies.findSome? d.directoryAt).getD []
  d.onSec fun k => { k with image := vs.zipIdx.foldl (fun m e => Tbl.set (fun _ => {}) m e.2 e.1) [] }

/-- The directory's words on a kind change. -/
def Dev.setImage (d : Dev) (kind : Nat) (v : ImgT) : Dev :=
  if v = d.image kind then d else (d.onSec fun k => { k with image := Tbl.set (fun _ => {}) k.image kind v }).storeDirectory

/-- The number of n bytes at byte k of the image in a slot. -/
def Dev.imgNum (d : Dev) (kind : Nat) (b : Bool) (k n : Nat) : Nat :=
  bytesNum ((List.range n).map fun j => d.flashByte (slotBase kind b + k + j))

/-- Bytes of the image in a slot. -/
def Dev.imgBytes (d : Dev) (kind : Nat) (b : Bool) (k n : Nat) : List Byte :=
  (List.range n).map fun j => d.flashByte (slotBase kind b + k + j)

/-- Payload length and version of the image in a slot. -/
def Dev.imgLength (d : Dev) (kind : Nat) (b : Bool) : Nat := d.imgNum kind b 12 4
def Dev.imgVersion (d : Dev) (kind : Nat) (b : Bool) : Nat := d.imgNum kind b 8 2

/-- Are the header fields of the image in a slot legal (R348)? -/
def Dev.headerLegal (d : Dev) (kind : Nat) (b : Bool) : Bool :=
  d.imgNum kind b 0 4 == 0x58566400 && d.imgNum kind b 4 1 == kind && d.imgNum kind b 5 1 == (if kind = 0 then 1 else 2) &&
    d.imgNum kind b 6 2 == 0x6400 && Nat.ble (d.imgVersion kind b) 1023 && d.imgNum kind b 10 2 == 0 &&
    Nat.ble (d.imgLength kind b) (payloadLimit kind) && d.imgNum kind b 16 48 == 0

/-- Header and payload of the image in a slot: what its signature and its measurement cover. -/
def Dev.signedPart (d : Dev) (kind : Nat) (b : Bool) : List Byte := d.imgBytes kind b 0 (64 + d.imgLength kind b)

/-- The key of the signer of a kind. -/
def Dev.signerKey (d : Dev) (kind : Nat) : Option (List Byte) := if kind = 0 then some Config.worternoKey else d.integratorKey

/-- Verify the image in a slot (R348): OK, AUTH or VERSION_LOW. -/
def Dev.verifyImage (d : Dev) (kind : Nat) (b : Bool) : Nat :=
  if d.headerLegal kind b = false then Code.AUTH
  else match d.signerKey kind with
    | none => Code.AUTH
    | some key =>
      if Config.slhVerify key (d.signedPart kind b) "XV6400 IMAGE" (d.imgBytes kind b (64 + d.imgLength kind b) 29792) = false then
        Code.AUTH
      else if d.imgVersion kind b < d.counter kind then Code.VERSION_LOW
      else Code.OK

/-- Is a trial slot of a kind in use, or marked for the next boot? -/
def Dev.onTrial (d : Dev) (kind : Nat) : Bool := d.flag F.SEC_IMG_trial kind
def Dev.trialMarked (d : Dev) (kind : Nat) : Bool := (d.image kind).trial.isSome

/-- The slot that UPDATE_WRITE fills (R362): neither active nor a trial slot. -/
def Dev.spareSlot (d : Dev) (kind : Nat) : Option Bool :=
  if d.onTrial kind ∨ d.trialMarked kind = true then none else some (!(d.image kind).active)

/-- Note what the check of the other slot of a kind gave (SEC_IMG). -/
def Dev.noteOther (d : Dev) (kind : Nat) (b : Bool) (st : Nat) : Dev :=
  (d.put F.SEC_IMG_other_valid kind (st == Code.OK)).wr F.SEC_IMG_other_version kind (if d.headerLegal kind b then d.imgVersion kind b else 0)

/-! ### Flash ledger (R365) -/

/-- The chain tag of an entry after one with tag `prev`: the low 48 bits of the KMAC. -/
def chainTag (e : Entry) (prev : Nat) : Nat :=
  let bs := e.words.flatMap wordBytes
  bytesNum ((kmac Config.ledgerKey (bs.take 22 ++ bs.drop 28 ++ numBytes prev 6) "XV6400 LEDGER" 32).take 6)

/-- The tag of the newest entry in flash, zero before the first. -/
def Dev.newestTag (d : Dev) : Nat :=
  match d.sec.ledger.getLast? with
  | some e => e.chain
  | none => 0

/-- The next place of a ring of records, `per` in a sector and `all` in its region: at the start of the next sector where the write at
`next` failed (R368). -/
def ringPlace (next per all : Nat) (err : Bool) : Nat := if err then (next / per + 1) * per % all else next

/-- A record goes to a place of a ring in flash; its sector is erased as the ring enters it. -/
def Dev.writeRing (d : Dev) (base place per : Nat) (bs : List Byte) : Dev :=
  let sector := base / 65536 + place / per
  let d := if place % per = 0 then d.eraseSector sector else d
  d.writeFlash (base + 65536 * (place / per) + 65536 / per * (place % per)) bs

/-- Write the entry of a RAM slot to flash as it stands, in the ring of the ledger's region; `err`: the write failed at first. -/
def Dev.flushSlot (d : Dev) (k : Nat) (err : Bool) : Dev :=
  match d.slot k with
  | none => d
  | some e =>
    if e.flushed then d
    else
      let e := { e with chain := chainTag e d.newestTag, flushed := true }
      let place := ringPlace d.sec.ledgerNext 2048 16384 err
      let d := (d.flashError err).setSlot k (some e)
      let d := d.onSec fun s =>
        { s with ledger := (if s.ledger.length < 4096 then s.ledger else s.ledger.drop 1) ++ [e], flashed := s.flashed + 1,
                 ledgerNext := (place + 1) % 16384 }
      (d.writeRing 0x810000 place 2048 (e.words.flatMap wordBytes)).showUnflushed

/-- Write every entry that awaits flash, oldest number first. -/
def Dev.flushLedger (d : Dev) : Dev :=
  (List.range d.unflushed.length).foldl (fun d _ =>
    match oldestSlot d.unflushed with
    | some k => d.flushSlot k false
    | none => d) d

/-- The number of the first entry whose tag does not follow from the one before. -/
def brokenLink : List Entry → Option Nat
  | a :: b :: r => if chainTag b a.chain = b.chain then brokenLink (b :: r) else some b.number
  | _ => none

/-- Check the chain (R365): its first broken link is reported. -/
def Dev.checkChain (d : Dev) : Dev :=
  match brokenLink d.sec.ledger with
  | none => d.onSec fun k => { k with chainOk := true }
  | some n => (d.onSec fun k => { k with chainOk := false }).report Kind.imset 0 Cls.report (Code.ofFree (Config.imsetCode 1)) n

/-! ### Freshness journal (R361) -/

/-- What the journal holds of a flow: its mark and its value. -/
def Dev.journalRecord (d : Dev) (l : Nat) : List Byte :=
  numBytes (Tbl.get (fun _ => 0) d.sec.txMark l) 8 ++ numBytes (Tbl.get (fun _ => 0) d.sec.rxValue l) 8

/-- The record of flow l is written in the journal's sector in use; where that failed, the whole journal in the next one (R368). -/
def Dev.writeJournal (d : Dev) (l : Nat) (err : Bool) : Dev :=
  let d := d.flashError err
  let d := if err then d.onSec fun k => { k with journalSector := (k.journalSector + 1) % 4 } else d
  let base := 0x8E0000 + 65536 * d.sec.journalSector
  (if err then d.writeFlash base ((List.range 256).flatMap d.journalRecord) else d.writeFlash (base + 16 * l) (d.journalRecord l)).recordCalendar

/-- The TX mark of a flow is renewed when its freshness value has reached it. -/
def Dev.journalTx (d : Dev) (l : Nat) (err : Bool) : Dev :=
  let m := Tbl.get (fun _ => 0) d.sec.txMark l
  if d.flag F.FL_CFG_enable l && d.rd F.FL_CFG_dir l == 2 && Nat.ble m (d.fvTx l) then
    (d.onSec fun k => { k with txMark := Tbl.set (fun _ => 0) k.txMark l (m + 2 ^ 24) }).writeJournal l err
  else d

/-- The RX value of a flow is journalled. -/
def Dev.journalRx (d : Dev) (l : Nat) (err : Bool) : Dev :=
  if d.flag F.FL_CFG_enable l && d.rd F.FL_CFG_dir l == 1 then
    let v := d.fvRx l
    let now := d.time
    (d.onSec fun k =>
      { k with rxValue := Tbl.set (fun _ => 0) k.rxValue l v, rxAt := Tbl.set (fun _ => 0) k.rxAt l now }).writeJournal l err
  else d

/-- Every RX value is journalled: at sleep entry, and before a reset that UPDATE_ACTIVATE causes. -/
def Dev.journalAll (d : Dev) : Dev := d.each (List.range 256) fun d l => d.journalRx l false

/-- Freshness values at boot start where the journal says. -/
def Dev.restoreFresh (d : Dev) : Dev :=
  d.each (List.range 256) fun d l =>
    (d.wr64 F.FL_FV_TX_LO F.FL_FV_TX_HI l (Tbl.get (fun _ => 0) d.sec.txMark l)).wr64 F.FL_FV_RX_LO F.FL_FV_RX_HI l
      (Tbl.get (fun _ => 0) d.sec.rxValue l)

/-- Does Imset's firmware run: not fenced, and past the ROM, which raises the calendar before anything is stored (R351, R372, R391)? -/
def Dev.imsetRuns (d : Dev) : Bool := !d.fenced Kind.imset 0 && d.rd F.IMS_STAT_state 0 == 2

/-! ### Reset (R386) -/

/-- What the AOI island holds (sleep, wake and calendar; R386), kept from device d by a reset that does not reset the island: the sleep and wake registers, the
calendar, and the island's own fence. A sleep entry in progress has ended (R401). -/
def Dev.keepAoi (n d : Dev) : Dev :=
  let n := (n.wr64 F.PWR_CAL_LO F.PWR_CAL_HI 0 d.calendar).markFenced Kind.island 8 (d.fenced Kind.island 8)
  [F.PWR_SLEEP_CFG, F.PWR_SLEEP_CTRL_status, F.PWR_WAKE_STAT].foldl (fun n f => n.wr f 0 (d.rd f 0)) n

/-- A reset: everything but OTP, flash, the record of what is in it, and, unless the AOI island is reset too, what that holds. The clock
stops until the device boots again. What went out on the link before stays gone out, and supplies stay. `cause` is PWR_RESET_CAUSE. -/
def Dev.deviceReset (d : Dev) (cause : Nat) (aoi : Bool) : Dev :=
  let k := d.sec
  let n : Dev :=
    { time := 0, clockOn := false, fresh := d.fresh, hi := { out := d.hi.out }, pw := { held := true, vcan := d.pw.vcan, vrep := d.pw.vrep },
      sec := { enrolled := k.enrolled, counters := k.counters, flash := k.flash, image := k.image,
               keys := k.keys, txMark := k.txMark, rxValue := k.rxValue, calOffset := k.calOffset, ledger := k.ledger,
               flashed := k.flashed, ledgerNext := k.ledgerNext, journalSector := k.journalSector, life := k.life,
               lifeNext := k.lifeNext, lifeWritten := k.lifeWritten, zoneBins := k.zoneBins, podBins := k.podBins,
               lifeSum := k.lifeSum, sectorAt := k.sectorAt, refreshing := k.refreshing, seconds := k.seconds } }
  let n := n.wr F.PWR_RESET_CAUSE_cause 0 cause
  let n := n.wr F.IMS_BOOT_count 0 d.boots
  let n := n.wr F.IMS_HOURS_hours 0 (d.rd F.IMS_HOURS_hours 0)
  let n := n.wr F.THM_LIFE 0 (d.rd F.THM_LIFE 0)
  if aoi then n else n.keepAoi d

end Sys2Proof.Machine
end

