-- ==== Sys2Proof/Machine/Pool.lean ====
section
/-! DEFINITION. Commands of the engine pool (chapter 07): records that arrive, start limits, declarations, takeover, swaps. -/

namespace Sys2Proof.Machine

/-- A record arrives at the engine pool (R152, R153): those of another beat than the present one are kept in their units'
registers only, but for a latch of the beat for which an AUX loop still waits (R154). -/
def Dev.arriveRec (d : Dev) (r : RecTok) : Dev :=
  match r with
  | .shunt k isB rec beat =>
    if beat = d.upd k then
      let v := d.recs k
      let d := d.setRecs k (if isB then { v with b := some rec } else { v with a := some rec })
      (d.wake (d.loops.filter fun l => d.home l == k)).dispatchAll
    else d
  | .house k dv pv tn beat =>
    if beat = d.upd k then
      let d := d.setRecs k { d.recs k with hk := some (dv, pv, tn) }
      (d.wake (d.loops.filter fun l => d.home l == k)).dispatchAll
    else d
  | .latch i k beat rec =>
    let ls := d.loops.filter fun l => d.rd F.BE_LP_IN_lat_port l == i && d.home l == k && (d.loop l).beat == beat
    if beat = d.upd k || ls.any fun l => (d.loop l).waiting then
      let d := d.setLatRec i k { rec with beat := some beat }
      let d := d.each ls fun d l => d.onLoop l fun v => { v with latHere := true }
      (d.wake ls).dispatchAll
    else d
  | .edge k rising stamp count =>
    let v := d.recs k
    d.setRecs k (if rising then { v with rise := stamp, edges := count } else { v with fall := stamp, edges := count })

/-- The escapement gate a record passes (R13): 0 that of PLI, for heavy shunts and housekeeping; 1 that of CVI, for light shunts and
edge flags; 2 that of PSI, for position latches. -/
def RecTok.gate : RecTok → Nat
  | .shunt k _ _ _ => if heavyStage k then 0 else 1
  | .house _ _ _ _ _ => 0
  | .edge _ _ _ _ => 1
  | .latch _ _ _ _ => 2

/-- Is the k-th of the records on their way the next one of its gate, which keeps their order (R13)? -/
def Dev.nextOfGate (d : Dev) (k : Nat) (r : RecTok) : Bool := (d.be.flight.take k).all fun x => x.gate != r.gate

/-- RECORD_ARRIVAL: the k-th of the records on their way arrives at the pool, where none is ahead of it at its gate. -/
def execRecordArrival (t k : Nat) (s : State) : Host.Outcome State Fault Refusal :=
  effect t s fun d =>
    match d.be.flight[k]? with
    | some r => if d.nextOfGate k r then (d.withBe { d.be with flight := d.be.flight.eraseIdx k }).arriveRec r else d
    | none => d

/-- Is a latch that was sent by device time `at'` still on its way through the PSI gate? The start-limit token passes it too, and the
gate keeps their order (R13, R153). -/
def Dev.latchAhead (d : Dev) (at' : Nat) : Bool :=
  d.be.flight.any fun r => match r with
    | .latch _ _ _ rec => Nat.ble rec.stamp at'
    | _ => false

/-- START_LIMIT_EXPIRY: start_limit ticks have passed since the update point, and a loop that still waits becomes ready; a
record that has not arrived is late (R153, R154). -/
def execStartLimitExpiry (t : Nat) (l : Fin 64) (s : State) : Host.Outcome State Fault Refusal :=
  effect t s fun d =>
    let v := d.loop l
    let due := v.beatAt + d.rd F.BE_LP_IN_start_limit l
    if v.waiting && Nat.ble due d.time && !d.latchAhead due then
      let d := if d.allHere l then d
        else ((d.put F.BE_LP_FLAGS_input_late l true).bump F.BE_LP_MISS_input_late l).reportOpen
          Kind.loop l Cls.report Code.INPUT_LATE
      let d := d.becomeReady l
      (d.withBe { d.be with order := d.be.order + 1 }).dispatchAll
    else d

/-- ENGINE_STALL: engine e has retired no operation for stall_limit × 64 ticks while a run is in progress (R176). -/
def execEngineStall (t : Nat) (e : Fin 12) (s : State) : Host.Outcome State Fault Refusal :=
  effect t s fun d =>
    match (d.eng e).run with
    | some r => if r.lastAt + 64 * d.rd F.BE_POOL_CFG_stall_limit 0 ≤ d.time then d.declareDead e 1 else d
    | none => d

/-- RESIDUE_FAIL: the residue check of engine e fails (R176). -/
def execResidueFail (t : Nat) (e : Fin 12) (s : State) : Host.Outcome State Fault Refusal :=
  effect t s fun d => d.declareDead e 2

/-- A write of DECLARE_DEAD to BE_POOL_CTRL (R176, R180). -/
def Dev.declareWrite (d : Dev) (e : Nat) : Dev :=
  if 11 < e then d.reject .sc (F.BE_POOL_CTRL.off 0 0) Reason.value (BitVec.ofNat 32 (1 + 16 * e))
  else
    let d := (d.wr F.BE_POOL_CTRL_cmd 0 1).wr F.BE_POOL_CTRL_engine 0 e
    if d.fenced Kind.engine e then d.wr F.BE_POOL_CTRL_status 0 Code.FENCED
    else (d.wr F.BE_POOL_CTRL_status 0 Code.OK).declareDead e 3

/-- DECLARE_DEAD: the safety controller names engine e in BE_POOL_CTRL. -/
def execDeclareDead (t : Nat) (e : Fin 16) (s : State) : Host.Outcome State Fault Refusal :=
  fromFirmware t s fun d => d.declareWrite e

/-- TAKEOVER: the fence of engine e is in force at every destination, and waiting loops go to free spares (R177, R178). -/
def execTakeover (t : Nat) (e : Fin 12) (s : State) : Host.Outcome State Fault Refusal :=
  effect t s fun d =>
    let d := if d.fenced Kind.engine e then d.setEng e { d.eng e with inForce := true } else d
    d.assignWaiting

/-- COEFF_SWAP_REQUEST: the safety controller writes BE_LP_SWAP[l].bank (R187). -/
def execCoeffSwapRequest (t : Nat) (l : Fin 64) (bank : Fin 2) (s : State) : Host.Outcome State Fault Refusal :=
  fromFirmware t s fun d => d.requestSwap l bank

/-- BE_LP_SLACK_MIN[l].restart is written 1 (R175); a fenced loop's register takes no write (R23). -/
def Dev.restartSlack (d : Dev) (m : Master) (l : Nat) : Dev :=
  if d.fenced Kind.loop l then d.reject m (F.BE_LP_SLACK_MIN.off l 0) Reason.fenced 0x80000000
  else (d.wr F.BE_LP_SLACK_MIN_min l 0x7FFF).put F.BE_LP_SLACK_MIN_restart l true

/-- SLACK_MIN_RESTART by master m. -/
def execSlackMinRestart (t : Nat) (m : Master) (l : Fin 64) (s : State) : Host.Outcome State Fault Refusal :=
  fromMaster m t s fun d => d.restartSlack m l

end Sys2Proof.Machine
end

