-- ==== Sys2Proof/Machine/Position.lean ====
section
/-! DEFINITION. Position and speed (chapter 06): counting, index, ILLEGAL events, SSI, resolver, observers, latches,
compares and encoder repeaters. -/

namespace Sys2Proof.Machine

/-! ### The count -/

/-- A signed 64-bit register pair. -/
def Dev.rdI64 (d : Dev) (lo hi : Fd) (i : Nat) : Int := signed 64 (d.rd64 lo hi i)
def Dev.wrI64 (d : Dev) (lo hi : Fd) (i : Nat) (v : Int) : Dev := d.wr64 lo hi i (unsigned 64 v)

/-- The count of port i (R137). -/
def Dev.count (d : Dev) (i : Nat) : Int := d.rdI64 F.PS_CNT_LO F.PS_CNT_HI i

/-- Counts per revolution. -/
def Dev.cpr (d : Dev) (i : Nat) : Nat := d.rd F.PS_CPR_cpr i

/-- The mode of port i (R123): 1 INCREMENTAL, 2 HALL, 3 DUAL_HALL, 4 SSI, 5 RESOLVER. -/
def Dev.psMode (d : Dev) (i : Nat) : Nat := d.rd F.PS_CFG_mode i

/-- The number of PSI clocks a line's new level must be seen on, in ticks (R126). -/
def Dev.filterTicks (d : Dev) (i : Nat) : Nat := 4 * (d.rd F.PS_CFG_filt i + 1)

/-- An RS-422 receiver: its output after its pair's voltage is mv, with a threshold of ±200 mV (R126). -/
def rxDiff (was : Bool) (mv : Int) : Bool := if 200 ≤ mv then true else if mv ≤ -200 then false else was

/-- A single-ended receiver: its output after its land's voltage is mv, with a threshold of 1.6 V and a hysteresis of 0.4 V, which
the model centres on the threshold (R126; log entry 67). -/
def rxSingle (was : Bool) (mv : Int) : Bool := if 1800 ≤ mv then true else if mv ≤ 1400 then false else was

/-- Three lines as A, B and Z or X in bits 0 to 2. -/
def lines3 (a b z : Bool) : BitVec 3 := BitVec.ofNat 3 (b2n a + 2 * b2n b + 4 * b2n z)

/-- The lines of port i, the primary and the secondary set, with these voltages at its lands (R123, R126): the three pairs where an
INCREMENTAL port takes DIFF input, otherwise single lands; the hall sets as R131 numbers them. -/
def Dev.linesOf (d : Dev) (i : Nat) (l : Lands) : BitVec 3 × BitVec 3 :=
  let p := (d.pos i).prim
  let q := (d.pos i).sec
  let sec := lines3 (rxSingle (q.getLsbD 0) l.an) (rxSingle (q.getLsbD 1) l.bn) (rxSingle (q.getLsbD 2) l.y)
  if d.psMode i = 1 then
    if d.rd F.PS_CFG_input i = 1 then
      (lines3 (rxDiff (p.getLsbD 0) (l.ap - l.an)) (rxDiff (p.getLsbD 1) (l.bp - l.bn)) (rxDiff (p.getLsbD 2) (l.zp - l.zn)), q)
    else (lines3 (rxSingle (p.getLsbD 0) l.ap) (rxSingle (p.getLsbD 1) l.bp) (rxSingle (p.getLsbD 2) l.zp), q)
  else (lines3 (rxSingle (p.getLsbD 0) l.ap) (rxSingle (p.getLsbD 1) l.bp) (rxSingle (p.getLsbD 2) l.x), sec)

/-- May a sample of lines that crossed their thresholds at device time `since` be stamped `stamp`, and have they passed the filter
(R126, R128)? The stamp lies within 5 ns, 4 ticks, of the crossing at the lands. -/
def Dev.filtered (d : Dev) (i since stamp : Nat) : Bool :=
  Nat.ble (since + d.filterTicks i) d.time && Nat.ble since (stamp + 4) && Nat.ble stamp (since + 4)

/-- Is cause c of R127 a broken line of the measurement of port i: pair A or B of an INCREMENTAL count, the amplitude or the
excitation of a resolver, the data of an SSI frame (log entry 67)? -/
def Dev.breaks (d : Dev) (i c : Nat) : Bool :=
  let m := d.psMode i
  (m == 1 && (c == 1 || c == 2)) || (m == 5 && (c == 4 || c == 5)) || (m == 4 && c == 6)

/-- Is the measurement of port i broken (R127)? -/
def Dev.measBroken (d : Dev) (i : Nat) : Bool := (d.pos i).broken.any (d.breaks i)

/-- Does the port take samples: enabled, holding what it claims (R28), and not fenced? -/
def Dev.psOn (d : Dev) (i : Nat) : Bool :=
  d.flag F.PS_CFG_enable i && !d.fenced Kind.posPort i && d.holds Kind.posPort i (d.posSelects i)

/-- Update what a port carries. -/
def Dev.onPos (d : Dev) (i : Nat) (f : PosT → PosT) : Dev := d.setPos i (f (d.pos i))

/-- The value in the registers of compare n of port i. -/
def Dev.cmpValue (d : Dev) (i n : Nat) : Int := signed 64 (d.rd2 F.PS_CMP_LO i n + 2 ^ 32 * d.rd2 F.PS_CMP_HI i n)

/-- The value that compare n of port i was armed with (R142). -/
def Dev.armedValue (d : Dev) (i n : Nat) : Int := if n = 0 then (d.pos i).arm0 else (d.pos i).arm1

/-- Does the count's change cross compare n in its direction (R142)? -/
def Dev.crosses (d : Dev) (i n : Nat) (old new : Int) : Bool :=
  let v := d.armedValue i n
  let dir := d.rd2 F.PS_CMP_CFG_dir i n
  (bitOf dir 0 && decide (old < v) && decide (v ≤ new)) || (bitOf dir 1 && decide (new ≤ v) && decide (v < old))

/-- Both compares look at a change of the count (R142). The event of a crossing is a report whose status word R142 leaves open. -/
def Dev.crossCompares (d : Dev) (i : Nat) (old new : Int) (stamp : Nat) : Dev :=
  d.each [0, 1] fun d n =>
    if d.rd2 F.PS_CMP_STAT_armed i n == 1 && d.crosses i n old new then
      let d := d.wr2 F.PS_CMP_STAT_fired i n 1
      let d := d.wr2 F.PS_CMP_STAT_count i n (min 65535 (d.rd2 F.PS_CMP_STAT_count i n + 1))
      let d := (d.wr2 F.PS_CMP_TIME_LO i n (stamp % 2 ^ 32)).wr2 F.PS_CMP_TIME_HI i n (stamp / 2 ^ 32 % 2 ^ 32)
      let d := d.reportOpen Kind.posPort i Cls.report (Code.ofFree Config.compareCode)
      if d.rd2 F.PS_CMP_CFG_once i n = 1 then d.wr2 F.PS_CMP_STAT_armed i n 0 else d
    else d

/-- The count moves by a measurement or an edge. -/
def Dev.moveCount (d : Dev) (i : Nat) (by_ : Int) (stamp : Nat) : Dev :=
  let old := d.count i
  (d.wrI64 F.PS_CNT_LO F.PS_CNT_HI i (old + by_)).crossCompares i old (old + by_) stamp

/-- Speed from the interval between two edges in ticks, signed Q16.16 turns per second (R132), rounded to nearest as R417 has every
rounding to nearest; that it is rounded so, R132 does not say (DESIGN CHOICE, log entry 67). -/
def edgeSpeed (cpr interval : Nat) (up : Bool) : Word :=
  let turns : Int := 800000000 * 65536
  sat32 (roundDiv (if up then turns else -turns) (max 1 (cpr * interval)))

/-- An edge of the count (R128, R131, R132). -/
def Dev.edgeAt (d : Dev) (i : Nat) (up : Bool) (stamp : Nat) : Dev :=
  let b := if up then d.count i + 1 else d.count i
  let v := d.pos i
  let last := if up then v.lastUp else v.lastDown
  let d := match last with
    | some e => d.wr F.PS_PERIOD i (edgeSpeed (d.cpr i) (stamp - e) up).toNat
    | none => d
  let v := if up then { v with lastUp := some stamp } else { v with lastDown := some stamp }
  let d := (d.setPos i { v with edge := some (b, stamp) }).wr64 F.PS_EDGE_TIME_LO F.PS_EDGE_TIME_HI i stamp
  d.moveCount i (if up then 1 else -1) stamp

/-! ### ILLEGAL events and the fence of a port (R129, R146) -/

/-- A repeater whose source is fenced or disabled holds its levels (R146). -/
def Dev.sourceLost (d : Dev) (j : Nat) : Dev :=
  if d.flag F.EP_CFG_enable j && d.holds Kind.repeater j (d.repSelects j) && !d.flag F.EP_STAT_src_lost j then
    let d := (d.put F.EP_STAT_src_lost j true).put F.EP_STAT_running j false
    d.report Kind.repeater j Cls.report Code.BROKEN 7
  else d

/-- The repeaters that follow port i. -/
def Dev.repeatersOf (d : Dev) (i : Nat) : List Nat := [0, 1].filter fun j => d.rd F.EP_CFG_source j == i

/-- A position port is fenced with class C, and its observer with it (R129, R372): compares disarmed, repeaters hold. `named` is the kind
of the one of them that the fence names; the other follows it (R419). -/
def Dev.fencePos (d : Dev) (i cause sub : Nat) (named : Nat := Kind.posPort) : Dev :=
  if d.fenced Kind.posPort i then d
  else
    let other := if named = Kind.posPort then Kind.observer else Kind.posPort
    let d := (d.markFenced Kind.posPort i true).markFenced Kind.observer i true
    let d := (d.put F.PS_STAT_fenced i true).put F.PS_STAT_running i false
    let d := (d.postFenced named i Cls.c cause sub).postFenced other i Cls.c Code.FENCED 2
    let d := d.each [0, 1] fun d n => d.wr2 F.PS_CMP_STAT_armed i n 0
    d.each (d.repeatersOf i) Dev.sourceLost

/-- An ILLEGAL event is counted and reported, and one too many in a window fences the port (R129). -/
def Dev.countIllegal (d : Dev) (i : Nat) : Dev :=
  let n := (d.pos i).winCnt + 1
  let d := d.onPos i fun v => { v with illLatch := true, winCnt := n }
  let d := ((d.put F.PS_STAT_illegal i true).bump F.PS_ILL_CNT_total i).wr F.PS_ILL_CNT_window i (min n 255)
  let d := d.report Kind.posPort i Cls.report Code.ILLEGAL n
  if d.rd F.PS_ILL_CFG_ill_limit i < n then d.fencePos i Code.ILLEGAL 0 else d

/-- An ILLEGAL event of what the observer follows: it takes no update for that sample (R129). -/
def Dev.illegal (d : Dev) (i : Nat) : Dev :=
  (d.onPos i fun v => { v with ill := true, edge := none, meas := none }).countIllegal i

/-- Does the port watch the conditions of R127: enabled, with what it claims? A fenced one does too: its broken_live must show whether
the condition has ended (R380; log entry 67). -/
def Dev.psWatches (d : Dev) (i : Nat) : Bool := d.flag F.PS_CFG_enable i && d.holds Kind.posPort i (d.posSelects i)

/-- A condition of R127 begins. -/
def Dev.breakLine (d : Dev) (i cause : Nat) : Dev :=
  let v := d.pos i
  if v.broken.contains cause then d
  else
    let d := d.setPos i { v with broken := v.broken ++ [cause] }
    let d := (d.put F.PS_STAT_broken_live i true).put F.PS_STAT_broken i (!d.fenced Kind.posPort i || d.flag F.PS_STAT_broken i)
    d.report Kind.posPort i Cls.report Code.BROKEN cause

/-- A condition of R127 ends. -/
def Dev.mendLine (d : Dev) (i cause : Nat) : Dev :=
  let v := d.pos i
  let l := v.broken.erase cause
  (d.setPos i { v with broken := l }).put F.PS_STAT_broken_live i (!l.isEmpty)

/-! ### Lines (R128, R130, R131) -/

/-- The place of an A and B pair in the order A leads B: 00, 10, 11, 01. -/
def quadPlace (l : BitVec 3) : Nat :=
  let a := l.getLsbD 0
  let b := l.getLsbD 1
  if a then (if b then 2 else 1) else (if b then 3 else 0)

/-- What a sample does to a count: no change, an edge up or down, or an ILLEGAL event. -/
inductive Step4 where
  | same | edge (up : Bool) | illegal
  deriving DecidableEq, Repr

/-- Incremental A and B (R128, R129). -/
def quadStep (old new : BitVec 3) : Step4 :=
  let m := (quadPlace new + 4 - quadPlace old) % 4
  if m = 0 then .same else if m = 1 then .edge true else if m = 3 then .edge false else .illegal

/-- The place of a hall state in the rising sequence of R131; none for 0b000 and 0b111. -/
def hallPlace (l : BitVec 3) : Option Nat := [1, 3, 2, 6, 4, 5].findIdx? (· == l.toNat)

/-- A move of hall states (R131). -/
def hallStep (rev : Bool) (old new : BitVec 3) : Step4 :=
  if old = new then .same
  else match hallPlace old, hallPlace new with
    | some p, some q =>
      let m := (q + 6 - p) % 6
      if m = 1 then .edge (!rev) else if m = 5 then .edge rev else .illegal
    | _, _ => .illegal

/-- The index latch (R130): `stamp` is the stamp of the Z edge. -/
def Dev.indexEdge (d : Dev) (i : Nat) (stamp : Nat) : Dev :=
  let c := d.count i
  let cpr : Int := d.cpr i
  let moved := c - d.rdI64 F.PS_IDX_LO F.PS_IDX_HI i
  let m := moved % cpr
  let dd := if cpr < 2 * m then m - cpr else m
  let known := d.flag F.PS_STAT_indexed i
  let d := (d.wrI64 F.PS_IDX_LO F.PS_IDX_HI i c).wr64 F.PS_IDX_TIME_LO F.PS_IDX_TIME_HI i stamp
  let d := d.put F.PS_STAT_indexed i true
  if known && Nat.blt (d.rd F.PS_IDX_CFG_drift_tol i) dd.natAbs then
    (d.put F.PS_STAT_drift i true).report Kind.posPort i Cls.report Code.DRIFT (unsigned 32 moved)
  else d

/-- May an index be latched with these A and B levels (R130)? -/
def Dev.indexGate (d : Dev) (i : Nat) (l : BitVec 3) : Bool :=
  let g := d.rd F.PS_IDX_CFG_gate i
  d.flag F.PS_IDX_CFG_idx_en i &&
    (g == 1 || (g == 2 && l.getLsbD 0 && l.getLsbD 1) || (g == 3 && !l.getLsbD 0 && !l.getLsbD 1))

/-- The secondary hall set of DUAL_HALL (R131); the observer follows the primary set only. -/
def Dev.secondary (d : Dev) (i : Nat) (sec : BitVec 3) (stamp : Nat) : Dev :=
  let v := d.pos i
  let st := hallStep (d.flag F.PS_HALL_CFG_sec_rev i) v.sec sec
  let d := (d.setPos i { v with sec := sec }).wr F.PS_STAT_sec_hall i sec.toNat
  match st with
  | .same => d
  | .illegal => d.countIllegal i
  | .edge up =>
    let last := if up then v.secUp else v.secDown
    let d := match last with
      | some e => d.wr F.PS_SEC_SPEED i (edgeSpeed (6 * d.rd F.PS_HALL_CFG_sec_pairs i) (stamp - e) up).toNat
      | none => d
    let d := d.onPos i fun v =>
      if up then { v with secUp := some stamp, secEdge := stamp } else { v with secDown := some stamp, secEdge := stamp }
    d.wr F.PS_SEC_CNT i ((d.rd F.PS_SEC_CNT i + (if up then 1 else 2 ^ 32 - 1)) % 2 ^ 32)

/-- A sample of filtered lines: A, B and Z or X of the primary set, and the secondary set; the stamp is back-dated to the
lands (R126 to R131). -/
def Dev.lineSample (d : Dev) (i : Nat) (prim sec : BitVec 3) (stamp : Nat) : Dev :=
  let v := d.pos i
  let mode := d.psMode i
  if !d.psOn i then d.setPos i { v with prim := prim, sec := sec }
  else if mode = 1 ∨ mode = 2 ∨ mode = 3 then
    let st := if mode = 1 then quadStep v.prim prim else hallStep (d.flag F.PS_HALL_CFG_rev i) v.prim prim
    let d := d.setPos i { v with prim := prim }
    let d := if mode = 1 then d else d.wr F.PS_STAT_hall i prim.toNat
    let d := match st with
      | .same => d
      | .edge up =>
        let n := d.edgeAt i (up != d.flag F.PS_CFG_invert i) stamp
        if d.measBroken i then n.onPos i fun v => { v with edge := none } else n
      | .illegal => d.illegal i
    let d := if mode = 1 && prim.getLsbD 2 && !v.prim.getLsbD 2 && d.indexGate i prim then d.indexEdge i stamp else d
    if mode = 3 then d.secondary i sec stamp else d
  else d.setPos i { v with prim := prim, sec := sec }

/-! ### Observer (R137 to R140) -/

/-- Seconds between two device times. -/
def seconds (t0 t1 : Nat) : Rat := (((t1 : Int) - t0 : Int) : Rat) / 800000000

/-- The observer's prediction of position (in counts) and speed after t seconds (R138). -/
def PosT.predict (v : PosT) (t : Rat) : Rat × Rat :=
  ((v.pos : Rat) / 65536 + v.spd * t + v.acc * t * t / 2, v.spd + v.acc * t)

/-- Mechanical angle of a position in counts (R140). -/
def Dev.angleOf (d : Dev) (i : Nat) (pos : Rat) : Nat :=
  let q := pos / (max 1 (d.cpr i) : Nat)
  (((q - q.floor) * 2 ^ 32).floor.toNat) % 2 ^ 32

/-- Electrical angle of a mechanical one (R140). -/
def Dev.eangleOf (d : Dev) (i angle : Nat) : Nat := (angle * d.rd F.PS_OBS_CFG_pole_pairs i + d.rd F.PS_OBS_EOFS i) % 2 ^ 32

/-- A quantity in counts as Q16.16 turns. -/
def Dev.turns16 (d : Dev) (i : Nat) (x : Rat) : Word := sat32 (ratRound (x * 65536 / (max 1 (d.cpr i) : Nat)))

/-- Show an observer's state (R140). -/
def Dev.showObserver (d : Dev) (i : Nat) : Dev :=
  let v := d.pos i
  let a := d.angleOf i ((v.pos : Rat) / 65536)
  let d := d.wrI64 F.PS_OBS_POS_LO F.PS_OBS_POS_HI i v.pos
  let d := (d.wr F.PS_OBS_ANGLE i a).wr F.PS_OBS_EANGLE i (d.eangleOf i a)
  let d := (d.wr F.PS_OBS_SPEED i (d.turns16 i v.spd).toNat).wr F.PS_OBS_ACCEL i (d.turns16 i v.acc).toNat
  let speed := (if v.spd < 0 then -v.spd else v.spd) / (max 1 (d.cpr i) : Nat)
  d.put F.PS_STAT_still i (decide (speed < (d.rd F.PS_OBS_CFG_still i : Rat) / 256))

/-- Seed the observer at a position in counts (R139). -/
def Dev.seedObserver (d : Dev) (i : Nat) (pos : Rat) : Dev :=
  let d := d.onPos i fun v =>
    { v with seeded := true, pos := ratRound (pos * 65536), spd := 0, acc := 0, obsAt := d.time, edge := none, meas := none,
             ill := false, within := 0, beyond := 0 }
  (d.put F.PS_STAT_locked i false).showObserver i

/-- The error of one update (R138), with the prediction (pp, ps). -/
def Dev.obsError (d : Dev) (i : Nat) (pp ps : Rat) : Rat :=
  let v := d.pos i
  let c : Rat := d.count i
  if v.ill || d.measBroken i then 0
  else match v.meas, v.edge with
    | some (m, tm), _ => m + ps * seconds tm d.time - pp
    | none, some (b, te) => b + ps * seconds te d.time - pp
    | none, none =>
      if 3 < d.psMode i then 0
      else if pp < c then c - pp else if c + 1 < pp then c + 1 - pp else 0

/-- The lock check on an error (R139). -/
def Dev.lockCheck (d : Dev) (i : Nat) (e : Rat) : Dev :=
  let tol : Rat := d.rd F.PS_OBS_LOCK_lock_tol i
  let good : Bool := decide (-tol ≤ e) && decide (e ≤ tol)
  let d := d.onPos i fun v =>
    if good then { v with within := min 64 (v.within + 1), beyond := 0 } else { v with within := 0, beyond := min 16 (v.beyond + 1) }
  if (d.pos i).within = 64 then d.put F.PS_STAT_locked i true
  else if (d.pos i).beyond = 16 then d.put F.PS_STAT_locked i false
  else d

/-- One update of an observer, T = 200 ns after the last (R138, R139). -/
def Dev.observe (d : Dev) (i : Nat) : Dev :=
  let v := d.pos i
  if !d.psOn i || !v.seeded then d
  else
    let T : Rat := 1 / 5000000
    let wn : Rat := Config.twoPi * (d.rd F.PS_OBS_CFG_bw i : Nat)
    let (pp, ps) := v.predict T
    let e := d.obsError i pp ps
    let d := d.setPos i
      { v with pos := ratRound ((pp + 3 * wn * T * e) * 65536), spd := ps + 3 * wn * wn * T * e, acc := v.acc + wn * wn * wn * T * e,
               obsAt := d.time, edge := none, meas := none, ill := false }
    let d := d.wr F.PS_OBS_ERR i (sat32 (ratRound (e * 65536))).toNat
    (d.lockCheck i e).showObserver i

/-! ### Repeaters (R144 to R146) -/

/-- The target count of repeater j at device time t, from the observer's last update and its prediction (R144). -/
def Dev.repTarget (d : Dev) (j t : Nat) : Int :=
  let i := d.rd F.EP_CFG_source j
  let v := d.pos i
  let pos := (v.predict (seconds v.obsAt t)).1
  ((pos / (max 1 (d.cpr i) : Nat) + (d.rd F.EP_OFFS j : Rat) / 2 ^ 32) * (4 * d.rd F.EP_CFG_lines j : Nat)).floor

/-- Show the lag of repeater j. -/
def Dev.showLag (d : Dev) (j : Nat) (lag : Int) : Dev := d.wrInt F.EP_LAG j (clampInt (-2147483648) 2147483647 lag)

/-- Is repeater j active: enabled, holding its lands, not fenced? -/
def Dev.repOn (d : Dev) (j : Nat) : Bool :=
  d.flag F.EP_CFG_enable j && d.holds Kind.repeater j (d.repSelects j) && !d.fenced Kind.repeater j

/-- The levels that output count n gives A, B and Z of repeater j (R144). -/
def Dev.repLevels (d : Dev) (j : Nat) (n : Int) (q : RepT) : RepT :=
  let m := n % 4
  let a := m == 1 || m == 2
  let b := m == 2 || m == 3
  let swap := d.flag F.EP_CFG_invert j
  { q with a := if swap then b else a, b := if swap then a else b, z := n % (4 * d.rd F.EP_CFG_lines j : Nat) == 0 }

/-- At enable, and when the source returns, the output count is the target, with no edges (R144); the last edge stays the one from which
the next keeps its distance (R145). -/
def Dev.startRepeater (d : Dev) (j : Nat) : Dev :=
  let i := d.rd F.EP_CFG_source j
  if !d.repOn j then d
  else if d.psOn i then
    let n := d.repTarget j d.time
    let d := d.wrI64 F.EP_CNT_LO F.EP_CNT_HI j n
    let d := (d.setRep j (d.repLevels j n { lastEdge := (d.rep j).lastEdge })).showLag j 0
    ((d.put F.EP_STAT_running j true).put F.EP_STAT_src_lost j false).put F.EP_STAT_limited j false
  else d.sourceLost j

/-- The least time between two edges of repeater j, in ticks: 1 / (rate × 10 kHz), rounded up (R145). -/
def Dev.repGap (d : Dev) (j : Nat) : Nat :=
  let r := max 1 (d.rd F.EP_LIM_rate j)
  (80000 + r - 1) / r

/-- The levels of A, B and Z at the lands of repeater j: low while VREP is absent (R415). -/
def Dev.repPins (d : Dev) (j : Nat) : Bool × Bool × Bool :=
  if d.pw.vrep then ((d.rep j).a, (d.rep j).b, (d.rep j).z) else (false, false, false)

/-- A repeater moves one edge towards its target, no sooner than its rate allows, and no sooner than 50 ns, 40 ticks, after the
target's crossing (R144, R145). `limited` shows that the rate alone holds an edge back. While VREP is absent the lands stay low, and nothing
is reported (R415; log entry 64). -/
def Dev.repeaterEdge (d : Dev) (j : Nat) : Dev :=
  let i := d.rd F.EP_CFG_source j
  if !d.repOn j || !d.psOn i then d
  else
    let goal := d.repTarget j (d.time - 40)
    let out := d.rdI64 F.EP_CNT_LO F.EP_CNT_HI j
    let q := d.rep j
    let ok := Nat.ble (q.lastEdge + d.repGap j) d.time
    let new := if !ok || goal = out then out else if out < goal then out + 1 else out - 1
    let lag := d.repTarget j d.time - new
    let d := (d.wrI64 F.EP_CNT_LO F.EP_CNT_HI j new).showLag j lag
    let d := d.put F.EP_STAT_limited j (goal != new)
    let far := Nat.blt (d.rd F.EP_LIM_lag_limit j) lag.natAbs
    let d := d.setRep j (d.repLevels j new { q with lastEdge := if new = out then q.lastEdge else d.time, lagging := far })
    if far && !q.lagging && d.pw.vrep then
      ((d.put F.EP_STAT_lag j true).bump F.EP_STAT_lag_cnt j).reportOpen Kind.repeater j Cls.report Code.REPEATER_LAG
    else d

/-- A port is enabled (R137, R139): the count is zero, an incremental or hall observer is seeded at once, its first ILLEGAL window
opens, and the repeaters that follow it return (R144). The first periodic SSI read is due a period later (log entry 67). -/
def Dev.enablePos (d : Dev) (i : Nat) : Dev :=
  let v := d.pos i
  let d := d.setPos i { prim := v.prim, sec := v.sec, broken := v.broken, ssiIgnored := v.ssiIgnored, arm0 := v.arm0, arm1 := v.arm1,
                        winAt := d.time, ssiDue := d.time + 80 * d.rd F.PS_SSI_RUN_period i }
  let d := d.wr F.PS_ILL_CNT_window i 0
  let d := (d.wrI64 F.PS_CNT_LO F.PS_CNT_HI i 0).wr F.PS_SEC_CNT i 0
  let d := (d.put F.PS_STAT_indexed i false).put F.PS_STAT_running i (d.psOn i)
  let d := if d.psMode i ≤ 3 then d.seedObserver i (1 / 2) else (d.put F.PS_STAT_locked i false).showObserver i
  d.each (d.repeatersOf i) Dev.startRepeater

/-- A port is disabled: repeaters that follow it hold (R146). -/
def Dev.disablePos (d : Dev) (i : Nat) : Dev := (d.put F.PS_STAT_running i false).each (d.repeatersOf i) Dev.sourceLost

/-! ### SSI and resolver (R133 to R136) -/

/-- Does a new position lie further from the prediction at its stamp than PS_JUMP (R134, R136)? -/
def Dev.jumps (d : Dev) (i : Nat) (count : Int) (stamp : Nat) : Bool :=
  let v := d.pos i
  let p := (v.predict (seconds v.obsAt stamp)).1
  let e : Rat := (count : Rat) - p
  v.seeded && decide ((d.rd F.PS_JUMP_jump i : Rat) < (if e < 0 then -e else e))

/-- A measurement `raw`, which wraps at `span`, moves the count unless it is ILLEGAL; the first one seeds the observer (R134,
R136, R139). One taken while a line of the measurement is broken moves the count too, and gives the observer nothing (R127). -/
def Dev.measured (d : Dev) (i : Nat) (raw span : Nat) (stamp : Nat) : Dev :=
  let v := d.pos i
  let m := ((raw : Int) - v.lastMeas) % span
  let delta := if (span : Int) ≤ 2 * m then m - span else m
  let c := d.count i + delta
  if d.jumps i c stamp then d.illegal i
  else
    let bad := d.measBroken i
    let d := (d.setPos i { v with lastMeas := raw, meas := if bad then none else some (c, stamp) }).moveCount i delta stamp
    if v.seeded || bad then d else d.seedObserver i c

/-- Gray code to binary. -/
def fromGray (width g : Nat) : Nat :=
  (List.range width).foldl (fun b k => b + (if (List.range width).foldl (fun x j => if k ≤ j then xor x (bitOf g j) else x) false then 2 ^ k else 0)) 0

/-- The number of set bits among the low `n` bits. -/
def popCount (n v : Nat) : Nat := (List.range n).foldl (fun c k => c + b2n (bitOf v k)) 0

/-- Does a frame of bits, the first bit highest, pass its checks (R134)? -/
def Dev.frameGood (d : Dev) (i bits : Nat) : Bool :=
  let n := d.rd F.PS_SSI_CFG_frame i
  let bit (k : Nat) : Bool := bitOf bits (n - 1 - k)
  let par := d.rd F.PS_SSI_CFG_parity i
  let err := d.flag F.PS_SSI_CFG_err_en i && bit (d.rd F.PS_SSI_CFG_err_pos i) == d.flag F.PS_SSI_CFG_err_level i
  let odd := popCount n bits % 2 == 1
  !err && (par == 1 || (par == 2 && !odd) || (par == 3 && odd))

/-- The position in a frame (R133): multi-turn bits, then single-turn bits. -/
def Dev.framePos (d : Dev) (i bits : Nat) : Nat :=
  let n := d.rd F.PS_SSI_CFG_frame i
  let st := d.rd F.PS_SSI_CFG_st_bits i
  let mt := d.rd F.PS_SSI_CFG_mt_bits i
  let word := bits / 2 ^ (n - st - mt) % 2 ^ (st + mt)
  let m := word / 2 ^ st
  let s := word % 2 ^ st
  if d.flag F.PS_SSI_CFG_code i then fromGray mt m * 2 ^ st + fromGray st s else word

/-- The shortest time from the first falling clock edge of an SSI frame to its last sample, in ticks (R133): frame + 1 falling edges
at bit_time, and the data of the last bit taken delay_comp after a rising edge, which follows the falling edge before it. -/
def Dev.frameTicks (d : Dev) (i : Nat) : Nat :=
  let n := d.rd F.PS_SSI_CFG_frame i
  let b := d.rd F.PS_SSI_TIM_bit_time i
  4 * max (n * b) ((n - 1) * b + d.rd F.PS_SSI_TIM_delay_comp i)

/-- An SSI read starts, or is ignored during a frame or its recovery (R133). -/
def Dev.ssiStart (d : Dev) (i : Nat) : Dev :=
  let v := d.pos i
  if v.ssiBusy || Nat.blt d.time v.ssiReady then
    (d.setPos i { v with ssiIgnored := v.ssiIgnored + 1 }).put F.PS_STAT_overrun i true
  else d.setPos i { v with ssiBusy := true, ssiStamp := d.time }

/-- The level of the clock that an SSI port drives on PS_X at the present instant (R133): frame + 1 falling edges, bit_time × 5 ns (4
ticks) apart, the first at the frame's stamp, each followed by its rising edge half a bit time later (DESIGN CHOICE, log entry 67: R133
places none); high after the last one, in recovery and between frames. -/
def Dev.ssiClock (d : Dev) (i : Nat) : Bool :=
  let v := d.pos i
  let bit := 4 * max 1 (d.rd F.PS_SSI_TIM_bit_time i)
  let at' := d.time - v.ssiStamp
  !v.ssiBusy || Nat.blt (d.rd F.PS_SSI_CFG_frame i) (at' / bit) || Nat.ble bit (2 * (at' % bit))

/-- An SSI frame completes (R133, R134); a fenced port's registers stay as they are (R372). -/
def Dev.ssiDone (d : Dev) (i bits : Nat) : Dev :=
  let v := d.pos i
  if !v.ssiBusy || Nat.blt d.time (v.ssiStamp + d.frameTicks i) then d
  else
    let d := d.setPos i { v with ssiBusy := false, ssiReady := d.time + 800 * d.rd F.PS_SSI_TIM_recovery i }
    let d := if d.fenced Kind.posPort i then d else d.wr64 F.PS_SSI_RAW_LO F.PS_SSI_RAW_HI i bits
    if !d.psOn i then d
    else if d.frameGood i bits then
      d.measured i (d.framePos i bits) (2 ^ (d.rd F.PS_SSI_CFG_st_bits i + d.rd F.PS_SSI_CFG_mt_bits i)) v.ssiStamp
    else d.illegal i

/-- The angle of the direction (c, s) in 2^-17 turns, truncated: each doubling of the angle gives one bit. -/
def angle17 : Nat → Int → Int → Nat
  | 0, _, _ => 0
  | n + 1, c, s =>
    let lower := s < 0 || (s == 0 && c < 0)
    let bit := if lower then 2 ^ n else 0
    bit + angle17 n (c * c - s * s) (2 * c * s)

/-- The angle atan2(s, c) to 16 bits of a turn (R136). -/
def resolverAngle (s c : Int) : Nat := (angle17 17 c s + b2n Config.roundsAngle) / 2 % 65536

/-- The integral of the sixteen samples of a half excitation period, each with the sign of the sensed excitation, whose phase is
`phase`, delayed by `demod`, in 256ths of a period (R136); `second` names the half. A sample has 14 bits; the model takes the sum of
sixteen samples at full scale as full scale of the 16-bit envelope (log entry 67). -/
def halfSum (phase demod : Nat) (second : Bool) (xs : List Int) : Int :=
  let sign (k : Nat) : Int := if (128 * b2n second + 8 * k + 512 - phase - demod) % 256 < 128 then 1 else -1
  clampInt (-32768) 32767
    (roundDiv ((xs.zipIdx.map fun x => sign x.2 * clampInt (-8192) 8191 x.1).foldl (· + ·) 0) 4)

/-- The sine that the EPI island drives on RES_EXC_P[i] and RES_EXC_N[i]: frequency in Hz and amplitude in mV rms, differential (R135). -/
def Dev.excitation (d : Dev) (i : Nat) : Nat × Nat := (100 * d.rd F.PS_RES_CFG_freq i, 100 * d.rd F.PS_RES_CFG_amp i)

/-- Half an excitation period in ticks (R135). -/
def Dev.halfExcitation (d : Dev) (i : Nat) : Nat := 4000000 / max 1 (d.rd F.PS_RES_CFG_freq i)

/-- May a half period with its middle at `stamp` have been integrated: it has ended, and it follows the last one? -/
def Dev.halfDone (d : Dev) (i stamp : Nat) : Bool :=
  let h := d.halfExcitation i
  Nat.ble (2 * stamp + h) (2 * d.time) &&
    (match (d.pos i).envAt with
      | some e => Nat.ble (e + h) stamp
      | none => true)

/-- Does an envelope amplitude lie outside the window of port i (R127, R136)? -/
def Dev.ampBad (d : Dev) (i amp : Nat) : Bool := Nat.blt amp (d.rd F.PS_RES_AMP_amp_lo i) || Nat.blt (d.rd F.PS_RES_AMP_amp_hi i) amp

/-- A resolver integration yields an envelope pair (R136). With its amplitude outside the window the count keeps its value (R147). A
fenced port only goes on looking at the amplitude: its registers stay as they are (R372). -/
def Dev.envelope (d : Dev) (i : Nat) (s c : Int) (stamp phase : Nat) : Dev :=
  let amp := isqrt ((s * s + c * c).natAbs) / 128
  let d := d.onPos i fun v => { v with envAt := some stamp, amp := amp }
  let d := if d.fenced Kind.posPort i then d
    else
      let d := (d.wrInt F.PS_RES_ENV_sine i s).wrInt F.PS_RES_ENV_cosine i c
      (d.wr F.PS_RES_MEAS_amplitude i (min 255 amp)).wr F.PS_RES_MEAS_exc_phase i phase
  if !d.psWatches i || d.psMode i != 5 then d
  else if d.ampBad i amp then d.breakLine i 4
  else
    let d := if (d.pos i).broken.contains 4 then d.mendLine i 4 else d
    if !d.psOn i then d
    else if s = 0 ∧ c = 0 then (d.measured i (d.free.toNat % 65536) 65536 stamp).tick
    else d.measured i (resolverAngle s c) 65536 stamp

/-! ### Latches (R141) -/

/-- The first firing of a trigger unit that has reached its consumer (R49), and the device without it. Each port may use one unit for its
latch and for its SSI reads at once, so that the firings for SSI reads are held apart, under 64 + the unit's number. -/
def Dev.takeFiring (d : Dev) (u : Nat) : Option (Nat × Dev) :=
  match d.fired u with
  | stamp16 :: r => if stamp16 / 16 + 120 ≤ d.time then some (stamp16 / 16, d.setFired u r) else none
  | [] => none

/-- The number of the last update point of stage s at device time t, which lies in its present beat or in the one before. -/
def Dev.updAt (d : Dev) (s t : Nat) : Nat := if t < (d.stg s).beatAt then d.upd s - 1 else d.upd s

/-- Latch the observer for a firing with its planned instant, and send the record to the loops, bound to the beat of that instant. -/
def Dev.latchObserver (d : Dev) (i stamp : Nat) : Dev :=
  let v := d.pos i
  let (pos, spd) := v.predict (seconds v.obsAt stamp)
  let a := d.angleOf i pos
  let stage := d.rd F.TB_TRIG_CFG_stage (d.rd F.PS_LATCH_CFG_trigger i)
  let beat := d.updAt stage stamp
  let upd := beat % 65536
  let valid := d.psOn i && v.seeded
  let info := b2n valid + 2 * d.rd F.PS_STAT_locked i + 4 * b2n (d.fenced Kind.posPort i) + 8 * b2n v.illLatch +
    16 * d.rd F.PS_STAT_broken_live i + 65536 * upd
  let d := (d.wr F.PS_LAT_ANGLE i a).wr F.PS_LAT_EANGLE i (d.eangleOf i a)
  let d := (d.wr F.PS_LAT_SPEED i (d.turns16 i spd).toNat).wr F.PS_LAT_INFO i info
  let d := (d.wr64 F.PS_LAT_STAMP_LO F.PS_LAT_STAMP_HI i stamp).onPos i fun v => { v with illLatch := false }
  d.sendRec (.latch i stage beat {
    angle := d.word (F.PS_LAT_ANGLE.off i 0), eangle := d.word (F.PS_LAT_EANGLE.off i 0),
    speed := d.word (F.PS_LAT_SPEED.off i 0), info := BitVec.ofNat 32 info, stamp := stamp })

/-! ### Preset and compares (R137, R142, R143) -/

/-- PRESET by the safety controller (R137): the count takes the preset value, and what the observer holds and what waits for its next
update move by the same offset. -/
def Dev.preset (d : Dev) (i : Nat) : Dev :=
  let d := d.wr F.PS_CTRL_cmd i 1
  if d.fenced Kind.posPort i then d.wr F.PS_CTRL_status i Code.FENCED
  else
    let p := d.rdI64 F.PS_PRESET_LO F.PS_PRESET_HI i
    let by_ := p - d.count i
    let d := (d.wrI64 F.PS_CNT_LO F.PS_CNT_HI i p).onPos i fun v =>
      { v with pos := v.pos + 65536 * by_, edge := v.edge.map fun e => (e.1 + by_, e.2), meas := v.meas.map fun e => (e.1 + by_, e.2) }
    (d.wr F.PS_CTRL_status i Code.OK).showObserver i

/-- A write of PS_CMP_HI arms compare n of port i (R142, R143). -/
def Dev.armCompare (d : Dev) (i n : Nat) (hi : Word) : Dev :=
  if d.fenced Kind.posPort i then d.reject .sc (F.PS_CMP_HI.off i n) Reason.fenced hi
  else
    let d := d.wr2 F.PS_CMP_HI i n hi.toNat
    let v := d.cmpValue i n
    let d := d.onPos i fun p => if n = 0 then { p with arm0 := v } else { p with arm1 := v }
    let c := d.count i
    let spd := (d.pos i).spd
    let behind := !d.flag F.PS_STAT_still i && ((decide (0 < spd) && decide (v ≤ c)) || (decide (spd < 0) && decide (c ≤ v)))
    let d := d.wr2 F.PS_CMP_STAT_armed i n (d.rd2 F.PS_CMP_CFG_enable i n)
    let d := if behind then d.wr2 F.PS_CMP_STAT_behind i n 1 else d
    d.wr2 F.PS_CMP_STAT_status i n (if behind then Code.BEHIND else Code.OK)

/-- A position port is re-admitted (R139, R380): observer seeded, window zero, compares disarmed, repeaters resume. -/
def Dev.admitPos (d : Dev) (i : Nat) : Dev :=
  let d := (d.markFenced Kind.posPort i false).markFenced Kind.observer i false
  let d := (d.put F.PS_STAT_fenced i false).put F.PS_STAT_running i (d.psOn i)
  let d := (d.wr F.PS_ILL_CNT_window i 0).onPos i fun v => { v with winAt := d.time, winCnt := 0, ssiDue := d.time + 80 * d.rd F.PS_SSI_RUN_period i }
  let d := if d.psMode i ≤ 3 then d.seedObserver i ((d.count i : Rat) + 1 / 2)
    else (d.onPos i fun v => { v with seeded := false }).put F.PS_STAT_locked i false
  d.each (d.repeatersOf i) Dev.startRepeater

/-! ### The commands -/

/-- LINE_CHANGE: the lands of port i have stood at these voltages since device time `since`, when a receiver crossed its threshold;
after the filter its lines change, stamped `stamp` (R126 to R131). -/
def execLineChange (t : Nat) (i : Fin 6) (l : Lands) (since stamp : Nat) (s : State) : Host.Outcome State Fault Refusal :=
  effect t s fun d =>
    let p := d.linesOf i l
    if d.filtered i since stamp then d.lineSample i p.1 p.2 stamp else d

/-- The end of the present ILLEGAL window of port i: ill_window × 10 µs, 8,000 ticks each, after its beginning (R129). -/
def Dev.illWindowEnd (d : Dev) (i : Nat) : Nat := (d.pos i).winAt + 8000 * d.rd F.PS_ILL_CFG_ill_window i

/-- ILL_WINDOW_EXPIRY: a fixed counting window of port i ends, and the next one begins (R129). -/
def execIllWindowExpiry (t : Nat) (i : Fin 6) (s : State) : Host.Outcome State Fault Refusal :=
  effect t s fun d =>
    if d.fenced Kind.posPort i || Nat.blt d.time (d.illWindowEnd i) then d
    else (d.wr F.PS_ILL_CNT_window i 0).onPos i fun v => { v with winAt := d.illWindowEnd i, winCnt := 0 }

/-- Does the last envelope amplitude of port i lie outside its window (R127, R136)? -/
def Dev.ampOutside (d : Dev) (i : Nat) : Bool := (d.pos i).envAt.isSome && d.ampBad i (d.pos i).amp

/-- Does cause c of R127 hold at port i? `x` is what the port sees of it: the voltage in mV of a differential pair, which has stayed
below 50 mV since device time `since` for 1 µs, 800 ticks; the current in mA that the excitation has to supply, above its 100 mA; the
level of the SSI data line, 0 for low, as a frame starts. -/
def Dev.brokenNow (d : Dev) (i c : Nat) (x : Int) (since : Nat) : Bool :=
  let m := d.psMode i
  if c = 0 then false
  else if c ≤ 3 then m == 1 && d.rd F.PS_CFG_input i == 1 && Nat.blt x.natAbs 50 && Nat.ble (since + 800) d.time
  else if c = 4 then m == 5 && d.ampOutside i
  else if c = 5 then m == 5 && decide (100 < x)
  else m == 4 && (d.pos i).ssiBusy && x == 0

/-- BROKEN: a condition of R127 begins; the cause is the detail of its table. -/
def execBroken (t : Nat) (i : Fin 6) (h : HeldSign) (s : State) : Host.Outcome State Fault Refusal :=
  effect t s fun d => if d.psWatches i && d.brokenNow i h.sign.cause h.sign.x h.since then d.breakLine i h.sign.cause else d

/-- BROKEN_LIVE_CLEAR: a condition of R127 has ended, as its sign shows. -/
def execBrokenLiveClear (t : Nat) (i : Fin 6) (b : BreakSign) (s : State) : Host.Outcome State Fault Refusal :=
  effect t s fun d => if d.psWatches i && d.brokenNow i b.cause b.x 0 then d else d.mendLine i b.cause

/-- PERIOD_TIMEOUT: no edge of the primary, or of the secondary set where `sec`, for 100 ms, 80,000,000 ticks (R132). What a fenced
port shows stays as it stood (R262). -/
def execPeriodTimeout (t : Nat) (i : Fin 6) (sec : Bool) (s : State) : Host.Outcome State Fault Refusal :=
  effect t s fun d =>
    let last := if sec then (d.pos i).secEdge else d.rd64 F.PS_EDGE_TIME_LO F.PS_EDGE_TIME_HI i
    if last + 80000000 ≤ d.time ∧ d.fenced Kind.posPort i = false then (if sec then d.wr F.PS_SEC_SPEED i 0 else d.wr F.PS_PERIOD i 0) else d

/-- SSI_START: a firing of the port's trigger unit arrives, or the period elapses (R133). -/
def execSsiStart (t : Nat) (i : Fin 6) (s : State) : Host.Outcome State Fault Refusal :=
  effect t s fun d =>
    if !d.psOn i || d.psMode i != 4 then d
    else if d.rd F.PS_SSI_RUN_start i = 2 then
      let due := (d.pos i).ssiDue
      if due ≤ d.time then (d.ssiStart i).onPos i fun v => { v with ssiDue := due + 80 * d.rd F.PS_SSI_RUN_period i } else d
    else match d.takeFiring (64 + d.rd F.PS_SSI_RUN_trigger i) with
      | some (_, d) => d.ssiStart i
      | none => d

/-- SSI_FRAME_DONE: the frame's bits, the first bit highest (R133, R134). -/
def execSsiFrameDone (t : Nat) (i : Fin 6) (bits : Nat) (s : State) : Host.Outcome State Fault Refusal :=
  effect t s fun d => d.ssiDone i (bits % 2 ^ d.rd F.PS_SSI_CFG_frame i)

/-- RESOLVER_ENVELOPE: PS0 or PS1 has taken sixteen samples of its sine and cosine pairs in one half excitation period, with
the sensed excitation at phase `phase` (R136). -/
def execResolverEnvelope (t : Nat) (i : Fin 2) (sine cosine : List Int) (h : HalfPeriod) (phase : Nat) (s : State) :
    Host.Outcome State Fault Refusal :=
  effect t s fun d =>
    if d.psMode i = 5 ∧ d.halfDone i h.stamp = true then
      let sum (xs : List Int) := halfSum (phase % 256) (d.rd F.PS_RES_CFG_demod_phase i) h.second (xs.take 16)
      d.envelope i (sum sine) (sum cosine) h.stamp (phase % 256)
    else d

/-- PRESET (R137). -/
def execPreset (t : Nat) (i : Fin 6) (s : State) : Host.Outcome State Fault Refusal :=
  fromFirmware t s fun d => d.preset i

/-- OBSERVER_UPDATE (R138, R139). -/
def execObserverUpdate (t : Nat) (i : Fin 6) (s : State) : Host.Outcome State Fault Refusal :=
  effect t s fun d => d.observe i

/-- OBSERVER_LATCH: a firing of the port's latch trigger arrives (R141). -/
def execObserverLatch (t : Nat) (i : Fin 6) (s : State) : Host.Outcome State Fault Refusal :=
  effect t s fun d =>
    if !d.flag F.PS_LATCH_CFG_enable i || !d.holds Kind.posPort i (d.latchSelects i) then d
    else match d.takeFiring (d.rd F.PS_LATCH_CFG_trigger i) with
      | some (stamp, d) => d.latchObserver i stamp
      | none => d

/-- COMPARE_ARM: the safety controller writes PS_CMP_HI of compare n (R142, R143). -/
def execCompareArm (t : Nat) (i : Fin 6) (n : Fin 2) (hi : Word) (s : State) : Host.Outcome State Fault Refusal :=
  fromFirmware t s fun d => d.armCompare i n hi

/-- REPEATER_EDGE (R144, R145). -/
def execRepeaterEdge (t : Nat) (j : Fin 2) (s : State) : Host.Outcome State Fault Refusal :=
  effect t s fun d => d.repeaterEdge j

end Sys2Proof.Machine
end

