-- ==== Sys2Proof/Machine/Fences.lean ====
section
/-! DEFINITION. Fences and re-admission (chapter 17): FLT_ACT, lost islands, ADMIT and ENGINE_ADMIT. -/

namespace Sys2Proof.Machine

/-! ### What a fence does (R372) -/

/-- The islands whose loss is class D: TBI, CVI, PSI, PLI, FQI (R373). -/
def islandStopsDevice (i : Nat) : Bool := [0, 1, 2, 9, 11].contains i

/-- The units that FLT_ACT FENCE can fence (R371, R372): kind and index. The islands whose loss is class D, DGI, banks B0 and
B15 and the kinds that are not fenced on their own are not among them. -/
def fenceable (kind index : Nat) : Bool :=
  match kind with
  | 0x01 => index < 64
  | 0x02 => index < 21
  | 0x05 => index < 14
  | 0x06 => index < 6
  | 0x07 => index < 24
  | 0x08 => index < 28
  | 0x09 => index < 8
  | 0x0B => index < 6
  | 0x0C => index < 2
  | 0x0D => index < 6
  | 0x10 => index < 3
  | 0x11 => 1 ≤ index && index ≤ 14
  | 0x12 => index < 8
  | 0x13 => index < 256
  | 0x14 => index < 64
  | 0x15 => index < 57
  | 0x16 => [3, 4, 5, 6, 7, 8].contains index
  | 0x17 => index == 0
  | 0x18 => index == 0
  | 0x19 => index == 0
  | _ => false

/-- Mark a unit as fenced with class C and make its FENCED entry (R419). -/
def Dev.fenceC (d : Dev) (kind index cause sub : Nat) : Dev :=
  (d.markFenced kind index true).postFenced kind index Cls.c cause sub

/-- Show the fence of temperature sensor n. -/
def Dev.showTempFence (d : Dev) (n : Nat) (b : Bool) : Dev :=
  let f := if n < 32 then F.THM_FENCED_LO else F.THM_FENCED_HI
  let m := d.rd f 0
  d.wr f 0 (if b then m ||| 2 ^ (n % 32) else m - (m &&& 2 ^ (n % 32)))

/-- Descriptors of a queue pair that have not started end with FENCED in ring order (R381). -/
def Dev.fencePending (d : Dev) (q : Nat) : Dev :=
  (d.qp q).items.foldl (fun d it => if it.phase = .received then d.finish q it.index Code.FENCED else d) d

/-- The urgent requests on a converter end with its fence, the safety controller's with FENCED (R372). -/
def Dev.endUrgent (d : Dev) (c : Nat) : Dev :=
  let d := d.clearUrgents c
  if d.flag F.CV_URG_busy c then (d.put F.CV_URG_busy c false).wr F.CV_URG_status c Code.FENCED else d

/-- The urgent conversions that the re-admission of WMm asked for are withdrawn. -/
def Dev.dropDacs (d : Dev) (m : Nat) : Dev :=
  d.each (List.range 6) fun d c => [false, true].foldl (fun d hi =>
    if (d.conv c).holdsUrgent (.dacTest m hi) then d.dropUrgent c (.dacTest m hi) else d) d

/-- A unit is fenced anew while it is fenced: its tests end, and their ADMIT completes with BROKEN (R383). -/
def Dev.endAdmits (d : Dev) (kind index : Nat) : Dev :=
  let here := d.flt.admits.filter fun a => a.kind == kind && a.index == index
  let d := d.withFlt { d.flt with admits := d.flt.admits.filter fun a => !(a.kind == kind && a.index == index) }
  let d := if kind = Kind.winMon then d.dropDacs index else d
  here.foldl (fun d a => d.finish a.qp a.ring Code.BROKEN) d

/-- An island is lost or fenced with class C: the island, and what runs on it (R373). -/
def Dev.fenceIsland (d : Dev) (i cause sub : Nat) : Dev :=
  let d := d.fenceC Kind.island i cause sub
  if i = 3 then
    let d := d.each [0, 1] fun d j =>
      if d.fenced Kind.repeater j then d
      else (d.fenceC Kind.repeater j Code.FENCED 2).put F.EP_STAT_running j false
    d.each [0, 1] fun d k => if d.psMode k = 5 ∧ d.psOn k = true then d.breakLine k 4 else d
  else if i = 4 then d.each (List.range 8) fun d c => d.canFence c Code.FENCED 2
  else if i = 5 then d.each (List.range 8) Dev.ttCheck
  else if i = 6 then d.each queuePairs fun d q => d.fenceQp q Code.FENCED 2
  else if i = 7 then
    if d.fenced Kind.imset 0 then d.endAdmits Kind.imset 0 else (d.fenceC Kind.imset 0 Code.FENCED 2).fencePending 0
  else d

/-- A copy of the safety controller or its checker is fenced: a loss of redundancy (R273, R276, R285). -/
def Dev.fenceSafety (d : Dev) (k cause sub : Nat) : Dev :=
  let alone := d.inSimplex
  let d := d.fenceCopy k cause sub
  if d.scMode = ScMode.halted ∨ d.scMode = ScMode.bootTest then d
  else if alone then d.scHalt
  else d.goSimplex (k != 0)

/-- A fence of one unit by its kind (R372); one that is fenced already stays so, and its re-admission tests end (R383). -/
def Dev.fenceUnit (d : Dev) (kind index cause sub : Nat) : Dev :=
  if d.fenced kind index then d.endAdmits kind index
  else
    match kind with
    | 0x01 => ((d.fenceC kind index cause sub).put F.PP_STAT_fenced index true).drivePort index
    | 0x02 => d.fenceStage index cause sub
    | 0x05 => (d.fenceC kind index cause sub).fenceStage index Code.FENCED 2
    | 0x06 =>
      let d := (d.fenceC kind index cause sub).put F.CV_STAT_busy index false
      (d.endUrgent index).each (lightStages index) fun d s => d.fenceStage s Code.FENCED 2
    | 0x07 => (d.fenceC kind index cause sub).stopwork
    | 0x08 => (d.fenceC kind index cause sub).stopwork
    | 0x0B => d.fencePos index cause sub
    | 0x0C => (d.fenceC kind index cause sub).put F.EP_STAT_running index false
    | 0x0D => d.fencePos index cause sub Kind.observer
    | 0x10 => d.fenceSafety index cause sub
    | 0x12 => d.canFence index cause sub
    | 0x13 => d.flowFence index cause sub
    | 0x14 => d.fenceQp index cause sub
    | 0x15 => (d.fenceC kind index cause sub).showTempFence index true
    | 0x16 => d.fenceIsland index cause sub
    | 0x17 => (d.fenceC kind index cause sub).fencePending 0
    | 0x18 => (d.fenceC kind index cause sub).each queuePairs fun d q => d.fenceQp q Code.FENCED 2
    | _ => d.fenceC kind index cause sub

/-! ### Re-admission (R380) -/

/-- Has the cause of a unit's fence ended (R380): none, or the status with which ADMIT completes? `hiMv` and `loMv` are the
supplies at a port's drivers, `clock` tells that an island's clock has been present for 1 ms. -/
def Dev.admitCause (d : Dev) (kind index hiMv loMv : Nat) (clock : Bool) : Option Nat :=
  let broken (b : Bool) : Option Nat := if b then some Code.BROKEN else none
  match kind with
  | 0x01 =>
    broken (Nat.ble hiMv (d.uvloRise index) || Nat.ble loMv (d.uvloRise index) ||
      (heavyPort index && ((d.port index).linkDown || (d.port index).laneDown)))
  | 0x02 =>
    if (d.driving index).any fun l => d.fenced Kind.engine (d.rd F.BE_LP_STAT_engine l) then some Code.FENCED
    else broken ((stagePorts index).any fun p => d.fenced Kind.port p)
  | 0x0B => broken (d.flag F.PS_STAT_broken_live index)
  | 0x0C =>
    let i := d.rd F.EP_CFG_source index
    broken (!(d.psOn i && d.flag F.PS_STAT_running i))
  | 0x13 => broken (d.fenced Kind.can (d.rd F.FL_CFG_controller index))
  | 0x16 => broken (!clock)
  | 0x17 => broken (d.fenced Kind.island 7)
  | _ => none

/-- Does R380 give a kind a test? -/
def admitTests (kind : Nat) : Bool := [0x01, 0x06, 0x07, 0x08, 0x09, 0x11, 0x15, 0x17, 0x19].contains kind

/-- A comparator is re-admitted: its outputs start as R109 says, its latches clear. -/
def Dev.admitCmp (d : Dev) (c : Cmp) : Dev :=
  let d := d.markFenced (cmpUnit c).1 (cmpUnit c).2 false
  let d := (((d.setLive c false false).setLive c true false).setLatch c false false).setLatch c true false
  d.compareAnew c true true

/-- Imset restarts from its active slot (R380): sessions have ended. -/
def Dev.restartImset (d : Dev) : Dev :=
  let d := (d.markFenced Kind.imset 0 false).withSec { d.sec with qpSession := none, uartSession := none }
  ((d.put F.SEC_STAT_session_qp0 0 false).put F.SEC_STAT_session_uart 0 false).wr F.IMS_STAT_state 0 2

/-- The units of an island resume (R380). -/
def Dev.admitIsland (d : Dev) (i : Nat) : Dev :=
  let d := d.markFenced Kind.island i false
  if i = 3 then
    let d := d.each [0, 1] fun d j => (d.markFenced Kind.repeater j false).startRepeater j
    d.each [0, 1] fun d k => d.mendLine k 4
  else if i = 4 then d.each (List.range 8) fun d c => if d.fenced Kind.can c then d.canAdmit c else d
  else if i = 5 then d.each (List.range 8) Dev.ttCheck
  else if i = 7 then d.restartImset
  else d

/-- A re-admitted bank holds zeros (R380). -/
def Dev.clearBank (d : Dev) (b : Nat) : Dev := d.withMb { d.mb with mem := d.mb.mem.filter fun e => bankOf e.1 != b, flips := d.mb.flips.filter fun e => bankOf (4 * e.1) != b }

/-- A unit is re-admitted, by its kind (the last column of R380). -/
def Dev.readmit (d : Dev) (kind index : Nat) : Dev :=
  match kind with
  | 0x01 =>
    let d := (d.markFenced kind index false).put F.PP_STAT_fenced index false
    (d.setPort index { d.port index with readmitted := true, restarted := false }).drivePort index
  | 0x02 => d.admitStage index
  | 0x06 =>
    let d := d.markFenced kind index false
    if d.rd F.CV_CFG_mode index = 1 then d.startPass index else d
  | 0x07 => if h : index < 24 then d.admitCmp (.wm ⟨index, h⟩) else d
  | 0x08 => if h : index < 28 then d.admitCmp (.pc ⟨index, h⟩) else d
  | 0x09 => if h : index < 8 then d.admitCmp (.ef ⟨index, h⟩) else d
  | 0x0B => d.admitPos index
  | 0x0C => (d.markFenced kind index false).startRepeater index
  | 0x11 => (d.markFenced kind index false).clearBank index
  | 0x12 => d.canAdmit index
  | 0x13 => (d.markFenced kind index false).put F.FL_STAT_fenced index false
  | 0x15 => (d.markFenced kind index false).showTempFence index false
  | 0x16 => d.admitIsland index
  | 0x17 => d.restartImset
  | _ => d.markFenced kind index false

/-! ### The commands -/

/-- A write of FLT_ACT with FENCE (R371). -/
def Dev.actFence (d : Dev) (kind index : Nat) : Dev :=
  if !fenceable kind index then d.reject .sc (F.FLT_ACT.off 0 0) Reason.value (BitVec.ofNat 32 (1 + 256 * kind + 65536 * index))
  else
    let d := ((d.wr F.FLT_ACT_cmd 0 1).wr F.FLT_ACT_kind 0 kind).wr F.FLT_ACT_index 0 index
    if d.fenced kind index then (d.wr F.FLT_ACT_status 0 Code.FENCED).endAdmits kind index
    else (d.wr F.FLT_ACT_status 0 Code.OK).fenceUnit kind index 0 1

/-- FLT_FENCE: the safety controller names a unit in FLT_ACT. -/
def execFltFence (t : Nat) (kind index : BitVec 8) (s : State) : Host.Outcome State Fault Refusal :=
  fromFirmware t s fun d => d.actFence kind.toNat index.toNat

/-- A write of FLT_ACT with SAFE, its kind and index fields as written (R371). -/
def Dev.actSafe (d : Dev) (kind index : Nat) : Dev :=
  let d := (((d.wr F.FLT_ACT_cmd 0 2).wr F.FLT_ACT_kind 0 kind).wr F.FLT_ACT_index 0 index).wr F.FLT_ACT_status 0 Code.OK
  d.enterSafe Kind.safety 0 Code.SAFE_ENTRY 0 1

/-- FLT_SAFE: the safety controller enters device safe state through FLT_ACT. -/
def execFltSafe (t : Nat) (kind index : BitVec 8) (s : State) : Host.Outcome State Fault Refusal :=
  fromFirmware t s fun d => d.actSafe kind.toNat index.toNat

/-- ISLAND_LOST: island i gives no clock edge within its limit (R373). DGI is not watched; without TBI's clock device time stands
still (R36). The ledger records the loss with the island as source, beside the entries of its fence or of SAFE. -/
def execIslandLost (t : Nat) (i : Fin 12) (s : State) : Host.Outcome State Fault Refusal :=
  effect t s fun d =>
    if i.val = 10 ∨ d.fenced Kind.island i = true then d
    else if islandStopsDevice i then
      (if i.val = 0 then d.withClockOn false else d).enterSafe Kind.island i Code.ISLAND_LOST 0 0
    else (d.report Kind.island i Cls.c Code.ISLAND_LOST 0).fenceIsland i Code.ISLAND_LOST 0

/-- The supplies at the drivers of a port that is to be re-admitted. -/
def Dev.admitSupplies (d : Dev) (kind index hiMv loMv : Nat) : Dev :=
  if kind = Kind.port then (d.supplyAt index true hiMv).supplyAt index false loMv else d

/-- The lowest-numbered logic converter that is not fenced, which reads the DACs of a window monitor (R380). -/
def Dev.admitConv (d : Dev) : Option Nat := (List.range 6).find? fun c => !d.fenced Kind.logicConv c

/-- A unit's test starts (R380): that of a window monitor asks converter c for two urgent conversions, of its low and its high DAC. -/
def Dev.startTest (d : Dev) (kind index q i : Nat) : Dev :=
  let a : AdmitT := { kind := kind, index := index, qp := q, ring := i, startedAt := d.time }
  let test (d : Dev) : Dev := d.withFlt { d.flt with admits := d.flt.admits ++ [a] }
  if kind = Kind.winMon then
    match d.admitConv with
    | none => d.finish q i Code.BROKEN
    | some c =>
      let d := (test d).takeTriggers c
      d.requestUrgent c ((([false, true].map fun hi => Urg.dacTest index hi).filter fun u => !(d.conv c).holdsUrgent u).map fun u => (u, d.time))
  else test d

/-- ADMIT: the validated ADMIT descriptor at ring index i of queue pair q starts (R380). -/
def execAdmit (t : Nat) (q : Fin 64) (i hiMv loMv : Nat) (clock : Bool) (s : State) : Host.Outcome State Fault Refusal :=
  effect t s fun d => d.startItem q i Op.ADMIT .handed fun d x =>
    let kind := x.target / 256
    let index := x.target % 256
    if !d.fenced kind index then d.finish q i Code.OK
    else
      let d := d.admitSupplies kind index hiMv loMv
      match d.admitCause kind index hiMv loMv clock with
      | some st => d.finish q i st
      | none => if admitTests kind then d.startTest kind index q i else (d.readmit kind index).finish q i Code.OK

/-- Does a DAC readback agree with a threshold code: `scale` steps of the converter are one of the DAC's, within `tol` steps (R112)? -/
def dacAgrees (scale tol code thr : Nat) : Bool := Nat.ble ((code : Int) - (scale * thr : Nat)).natAbs tol

/-- The threshold code of a comparator as its DAC holds it. -/
def Dev.dacCode (d : Dev) (c : Cmp) (hi : Bool) : Nat := ((d.cmpLevels c hi).1 / 256).toNat

/-- Was the readback of a DAC complete within 1 ms, 800,000 ticks? -/
def AdmitT.inTime (a : AdmitT) (now : Nat) : Bool := Nat.ble now (a.startedAt + 800000)

/-- Does the readback on the anchor pod agree with the thresholds of a pod comparator, or the one of an edge flag (R112)? -/
def Dev.podAgrees (d : Dev) (c : Cmp) (x : AdmitTest) : Bool :=
  dacAgrees 16 64 x.hi (d.dacCode c true) &&
    (match c with
      | .ef _ => true
      | _ => dacAgrees 16 64 x.lo (d.dacCode c false))

/-- Does a unit's test pass (the third column of R380)? -/
def Dev.testPasses (d : Dev) (a : AdmitT) (x : AdmitTest) : Bool :=
  match a.kind with
  | 0x01 => x.pass && !(d.drv a.index true).gate && !(d.drv a.index false).gate
  | 0x06 => Nat.ble ((x.half : Int) - 32768).natAbs 64 && Nat.ble x.gnd 64
  | 0x07 =>
    match a.lo, a.hi with
    | some lo, some hi => a.inTime a.readAt && dacAgrees 64 256 lo (d.rd F.WM_THR_lo a.index) && dacAgrees 64 256 hi (d.rd F.WM_THR_hi a.index)
    | _, _ => false
  | 0x08 => if h : a.index < 28 then a.inTime d.time && d.podAgrees (.pc ⟨a.index, h⟩) x else false
  | 0x09 => if h : a.index < 8 then a.inTime d.time && d.podAgrees (.ef ⟨a.index, h⟩) x else false
  | 0x15 => d.agrees a.index x.temp
  | 0x17 => d.verifyImage 0 (d.image 0).active == Code.OK
  | _ => x.pass

/-- Does the readback of a window monitor still run, within its 1 ms? -/
def Dev.dacsRun (d : Dev) (a : AdmitT) : Bool := a.kind == Kind.winMon && (a.lo.isNone || a.hi.isNone) && a.inTime d.time

/-- ADMIT_DONE: the test that the descriptor at ring index i of queue pair q started ends; the unit is re-admitted where it has passed within
15 ms, 12,000,000 ticks, and the cause of the fence has not come back (R380). -/
def execAdmitDone (t : Nat) (q : Fin 64) (i : Nat) (x : AdmitTest) (s : State) : Host.Outcome State Fault Refusal :=
  effect t s fun d =>
    match d.flt.admits.find? fun a => a.qp == q.val && a.ring == i with
    | none => d
    | some a =>
      if d.dacsRun a then d
      else
        let d := (d.withFlt { d.flt with admits := d.flt.admits.erase a }).admitSupplies a.kind a.index x.hiMv x.loMv
        let d := if a.kind = Kind.winMon then d.dropDacs a.index else d
        if d.testPasses a x && (d.admitCause a.kind a.index x.hiMv x.loMv x.clock).isNone && Nat.ble d.time (a.startedAt + 12000000) then
          (d.readmit a.kind a.index).finish q i Code.OK
        else d.finish q i Code.BROKEN

/-! ### Engines (R179) -/

/-- ENGINE_ADMIT: the descriptor at ring index i of queue pair q starts the self-test of a fenced engine; one that finds it running
is answered with it (log entry 68). -/
def execEngineAdmit (t : Nat) (q : Fin 64) (i : Nat) (s : State) : Host.Outcome State Fault Refusal :=
  effect t s fun d => d.startItem q i Op.ENGINE_ADMIT .received fun d x =>
    let e := x.target
    let d := d.wr F.BE_POOL_ADMIT_engine 0 e
    if !d.fenced Kind.engine e then (d.wr F.BE_POOL_ADMIT_status 0 Code.OK).finish q i Code.OK
    else
      let v := d.eng e
      let n : EngT := { v with testing := v.testing ++ [(q.val, i)], testAt := if v.testing.isEmpty then d.time else v.testAt }
      ((d.setEng e n).put F.BE_POOL_ADMIT_busy 0 true).showPool

/-- A re-admitted engine takes the loops of the earliest-declared fenced engine whose loops wait (R178, R179), its own among them;
without any it is a free spare. -/
def Dev.spareAgain (d : Dev) (e : Nat) : Dev :=
  let waiting := d.waitingEngine 1
  let d := d.each (List.range 64) fun d l => d.onLoop l fun v =>
    match v.finished with
    | some f => if f.engine = e then { v with finished := some { f with lost := true } } else v
    | none => v
  let d := (d.markFenced Kind.engine e false).setEng e { run := none }
  let mine := d.held e
  match waiting with
  | none => d.put F.BE_ENG_STAT_spare e true
  | some w =>
    let d := d.takeOver w e
    if w = e then d.wr64 F.BE_ENG_LOOPS_LO F.BE_ENG_LOOPS_HI e mine
    else
      let d := d.wr64 F.BE_ENG_LOOPS_LO F.BE_ENG_LOOPS_HI w mine
      d.each (d.heldLoops w) fun d l => d.wr F.BE_LP_STAT_engine l w

/-- ENGINE_SELF_TEST_DONE: the self-test of engine e ends (R176, R179); one that has not passed within 250 µs, 200,000 ticks, has
failed. The fence that stays after a failure is in force throughout. -/
def execEngineSelfTestDone (t : Nat) (e : Fin 12) (pass : Bool) (s : State) : Host.Outcome State Fault Refusal :=
  effect t s fun d =>
    let v := d.eng e
    if v.testing.isEmpty then d
    else
      let good := pass && Nat.ble d.time (v.testAt + 200000)
      let d := (d.setEng e { v with testing := [], inForce := true }).put F.BE_POOL_ADMIT_busy 0
        ((List.range 12).any fun k => k != e.val && !(d.eng k).testing.isEmpty)
      let d := d.wr F.BE_POOL_ADMIT_status 0 (if good then Code.OK else Code.BROKEN)
      let d := if good then d.spareAgain e
        else
          let d := (d.wr F.BE_ENG_DEAD_cause e 4).wr64 F.BE_ENG_DEAD_TIME_LO F.BE_ENG_DEAD_TIME_HI e d.time
          d.postFenced Kind.engine e Cls.c Code.BROKEN 0
      v.testing.foldl (fun d x => d.finish x.1 x.2 (if good then Code.OK else Code.BROKEN)) d.showPool

end Sys2Proof.Machine
end

