-- ==== Sys2Proof/Machine/Power.lean ====
section
/-! DEFINITION. Power, clocks, sleep and temperature (chapter 18): resets, cold boot, the fabric rail, sleep and wake, sensor
readings and their cross-check. -/

namespace Sys2Proof.Machine

/-- Update what the power chapter holds. -/
def Dev.onPw (d : Dev) (f : Pw → Pw) : Dev := d.withPw (f d.pw)

/-- Is every sequencer at rest (R33, R393): machines in STOPPED, OFF or LOST, charger and converter in IDLE or OFF, drives in
STOPPED, OFF or LOST? -/
def Dev.sequencersRest (d : Dev) : Bool :=
  [0, 1].all (fun m => [1, 2, 8].contains (d.tmState m)) && [1, 2].contains d.chState && [1, 2].contains d.lvState &&
    (List.range 6).all fun a => [1, 2, 9].contains (d.drState a)

/-- Does any stage run? -/
def Dev.anyRun (d : Dev) : Bool := stages.any fun s => d.flag F.TB_STG_RUN_run s

/-! ### Resets (R386, R387) -/

/-- AOI counts `ticks` of sleep into the calendar in whole seconds, unless its island is lost (R373, R391). -/
def Dev.countSlept (d : Dev) (ticks : Nat) : Dev :=
  if d.fenced Kind.island 8 then d else d.wr64 F.PWR_CAL_LO F.PWR_CAL_HI 0 (d.calendar + ticks / 800000000)

/-- A reset that comes at instant t, on the scale of device time: one that ends a sleep finds the seconds slept in the calendar, since AOI
counted them (R391; log entry 60). -/
def Dev.resetBy (d : Dev) (t cause : Nat) (aoi : Bool) : Dev :=
  (if d.pw.asleep then d.countSlept (t - d.time) else d).deviceReset cause aoi

/-- POWER_ON_RESET: VAO falls below 2.45 V; the calendar is lost. -/
def execPowerOnReset (t : Nat) (s : State) : Host.Outcome State Fault Refusal := effect t s fun d => d.resetBy t 1 true

/-- BROWN_OUT_RESET: VIN below 2.55 V for 10 µs. -/
def execBrownOutReset (t : Nat) (s : State) : Host.Outcome State Fault Refusal := effect t s fun d => d.resetBy t 2 false

/-- RAIL_RESET: an internal rail out of its range for 10 µs. -/
def execRailReset (t : Nat) (s : State) : Host.Outcome State Fault Refusal := effect t s fun d => d.resetBy t 4 false

/-- RESET_N: held low for 1 µs. -/
def execResetN (t : Nat) (s : State) : Host.Outcome State Fault Refusal := effect t s fun d => d.resetBy t 8 false

/-- Does a stage hold LOW_ON? -/
def Dev.anyLowOn (d : Dev) : Bool := stages.any fun s => d.flag F.WM_SW_STAT_held s && d.rd F.WM_SW_STAT_action s == 2

/-- The end of the safe-state watchdog's delay (R387). -/
def Dev.safeDue (d : Dev) : Nat :=
  max (d.rd64 F.FLT_SAFE_TIME_LO F.FLT_SAFE_TIME_HI 0) d.pw.safeFrom + 80000000 * d.rd F.PWR_SAFE_WDOG_delay 0

/-- SAFE_WDOG_EXPIRY: the delay after SAFE ends; while a stage holds LOW_ON it restarts instead. -/
def execSafeWdogExpiry (t : Nat) (s : State) : Host.Outcome State Fault Refusal :=
  effect t s fun d =>
    let now := max d.time t
    if d.devState = DevSt.safe ∧ d.flag F.PWR_SAFE_WDOG_enable 0 = true ∧ d.safeDue ≤ now then
      if d.anyLowOn then d.onPw fun p => { p with safeFrom := now } else d.deviceReset 16 false
    else d

/-- COLD_BOOT: rails regulate, the reference qualifies, reset is released (R388, R389): device time starts at zero (R36), the boot is
counted, the entropy source gives this boot's ML-KEM key pair (R354). `vin` is in 10 mV, `vfab` in mV; `x` tells that REF_CLK_IN, VCAN and
VREP are present. -/
def execColdBoot (t vin vfab : Nat) (x : BootInputs) (s : State) : Host.Outcome State Fault Refusal :=
  effect t s fun d =>
    if d.pw.held then
      let d := ((d.onPw fun p => { p with held := false, mv := 800, vcan := x.vcan, vrep := x.vrep }).withClockOn true).withTime 0
      let d := (d.wr F.PWR_STAT_vin 0 vin).wr F.PWR_STAT_vfab 0 vfab
      let d := (d.put F.PWR_CLK_STAT_ext 0 x.ext).wr F.IMS_BOOT_count 0 (d.boots + 1)
      d.showSec
    else d

/-- VIN_HIGH: VIN rises above 5.6 V (R386); nothing else reacts. `vin` is in 10 mV. -/
def execVinHigh (t vin : Nat) (s : State) : Host.Outcome State Fault Refusal :=
  effect t s fun d =>
    let d := d.wr F.PWR_STAT_vin 0 vin
    if 560 < vin then (d.put F.PWR_STAT_vin_high 0 true).reportOpen Kind.device 0 Cls.report Code.SUPPLY else d

/-! ### Fabric speed and rail (R390, R392) -/

/-- SPEED_MONITOR: monitor z measures the speed factor k, Q8.8. -/
def execSpeedMonitor (t : Nat) (z : Fin 4) (k : BitVec 16) (s : State) : Host.Outcome State Fault Refusal :=
  effect t s fun d => (d.wr F.FAB_SPEED_k z k.toNat).wr F.FAB_SPEED_k_max z (max (d.rd F.FAB_SPEED_k_max z) k.toNat)

/-- The largest speed factor of the four monitors. -/
def Dev.worstSpeed (d : Dev) : Nat := [0, 1, 2, 3].foldl (fun n z => max n (d.rd F.FAB_SPEED_k z)) 0

/-- The step that the controller of the fabric rail takes, in mV (R392). -/
def Dev.railStep (d : Dev) : Int :=
  let k := 100 * d.worstSpeed
  let target := 256 * d.rd F.PWR_FAB_CFG_k_target 0
  if d.rd F.PWR_FAB_CFG_mode 0 ≠ 1 then 0
  else if target < k then (if d.pw.mv < 880 then 10 else 0)
  else if k + 1280 < target then (if 720 < d.pw.mv then -10 else 0)
  else 0

/-- VFAB_STEP: the controller steps VFAB, at most once in 1 ms, within 0.72 to 0.88 V. `reached` tells whether the rail reaches its
set value; one that cannot is shown and reported. -/
def execVfabStep (t : Nat) (reached : Bool) (s : State) : Host.Outcome State Fault Refusal :=
  effect t s fun d =>
    let step := d.railStep
    let rested : Bool := match d.pw.steppedAt with
      | some at' => Nat.ble (at' + 800000) d.time
      | none => true
    let now := d.time
    let d := if step ≠ 0 ∧ rested = true then
        d.onPw fun p => { p with mv := ((p.mv : Int) + step).toNat, steppedAt := some now }
      else d
    if reached then d.wr F.PWR_STAT_vfab 0 d.pw.mv
    else (d.put F.PWR_STAT_vfab_limit 0 true).reportOpen Kind.device 0 Cls.report Code.SUPPLY

/-- The temperature correction of the reference in parts per 10^9 (R390). -/
def Dev.fqiCorrection (d : Dev) : Rat :=
  let x : Rat := ((d.temp 56 - 25 * 65536 : Int) : Rat) / 65536
  let c (i : Nat) : Rat := ((d.rdInt F.PWR_FQI_TC i : Int) : Rat) / 65536
  c 0 * x + c 1 * x * x + c 2 * x * x * x

/-- FQI_TC_UPDATE: the correction is renewed. -/
def execFqiTcUpdate (t : Nat) (s : State) : Host.Outcome State Fault Refusal :=
  effect t s fun d => d.onPw fun p => { p with correction := d.fqiCorrection }

/-! ### Sleep (R393, R394) -/

/-- May the device sleep (R393)? -/
def Dev.maySleep (d : Dev) : Bool :=
  !d.anyRun && d.sequencersRest && !d.flag F.SC_TM_STAT_ucg 0 && !d.flag F.SC_TM_STAT_ucg 1 && d.devState != DevSt.safe

/-- A write of PWR_SLEEP_CTRL.enter: refused, or sleep entry begins: queue pairs are disabled, sessions end, freshness is
journalled. -/
def Dev.sleepRequest (d : Dev) : Dev :=
  if d.maySleep = false then (d.wr F.PWR_SLEEP_CTRL_status 0 Code.NOT_STOPPED).put F.PWR_SLEEP_CTRL_enter 0 false
  else
    let d := (d.put F.PWR_SLEEP_CTRL_enter 0 true).onPw fun p => { p with entering := true }
    let d := ((d.each queuePairs Dev.disableQp).setSession false none).setSession true none
    if d.imsetRuns then d.journalAll else d

/-- SLEEP_REQUEST: the safety controller requests sleep. -/
def execSleepRequest (t : Nat) (s : State) : Host.Outcome State Fault Refusal := fromFirmware t s Dev.sleepRequest

/-- Wake sources that AOI has seen, enabled or not, are recorded: WAKE_IN (w), CAN_RX (c), the release of PERST (p) (R394). -/
def Dev.seeWake (d : Dev) (w c : Nat) (p : Bool) : Dev :=
  let d := (d.wr F.PWR_WAKE_STAT_wake_in 0 (d.rd F.PWR_WAKE_STAT_wake_in 0 ||| w)).wr F.PWR_WAKE_STAT_can 0
    (d.rd F.PWR_WAKE_STAT_can 0 ||| c)
  if p then d.put F.PWR_WAKE_STAT_perst 0 true else d

/-- The device wakes, after `slept` ticks; `p`: the release of PERST is among the sources seen together, and WAKE is not driven (R394, R401).
The safety controller receives an interrupt. -/
def Dev.wakeUp (d : Dev) (p : Bool) (slept : Nat) : Dev :=
  let d := d.wr F.PWR_WAKE_STAT_slept_s 0 (min (slept / 800000000) (2 ^ 21 - 1))
  let d := (d.withClockOn true).countSlept slept
  let d := d.onPw fun v => { v with asleep := false, wakeDriven := !p, wakeSeen := none }
  let d := d.raiseRequest
  d.each (List.range 64) Dev.drivePort

/-- SLEEP_ENTRY_DONE: queue pairs have drained, the ledger is flushed, the link is in L2, the rails are lowered: every gate is off, and the
TBI clock stops (R36). A wake source seen during the entry wakes the device at once (R401). Where a stage or a sequencer has been started
since the request, the entry is given up with NOT_STOPPED, since no stage runs during sleep (log entry 72). -/
def execSleepEntryDone (t : Nat) (s : State) : Host.Outcome State Fault Refusal :=
  effect t s fun d =>
    if d.pw.entering && !d.maySleep then
      ((d.wr F.PWR_SLEEP_CTRL_status 0 Code.NOT_STOPPED).put F.PWR_SLEEP_CTRL_enter 0 false).onPw fun p =>
        { p with entering := false, wakeSeen := none }
    else if d.pw.entering && queuePairs.all (fun q => !d.flag F.HI_QP_CTRL_draining q) then
      let d := if d.imsetRuns then d.journalAll.flushLedger else d
      let d := (d.put F.HI_LINK_up 0 false).wr F.HI_LINK_speed 0 0
      let d := (d.wr F.PWR_SLEEP_CTRL_status 0 Code.OK).put F.PWR_SLEEP_CTRL_enter 0 false
      let d := (d.onPw fun p => { p with entering := false, asleep := true }).withClockOn false
      let d := d.each (List.range 64) Dev.drivePort
      match d.pw.wakeSeen with
      | some p => d.wakeUp p 0
      | none => d
    else d

/-- WAKE: the edges seen at WAKE_IN, rising and falling, the controllers whose CAN_RX was dominant for 5 µs, which needs VCAN (R415), and the
release of PERST. Every one is recorded; one that is enabled wakes the device, or, during sleep entry, does so once that is complete. Device
time advances by the sleep duration `slept` that AOI measured, in ticks (R36). -/
def execWake (t : Nat) (e : WakeEdges) (can : BitVec 8) (perst : Bool) (slept : Nat) (s : State) :
    Host.Outcome State Fault Refusal :=
  effect t s fun d =>
    let pol := d.rd F.PWR_SLEEP_CFG_wake_in_pol 0
    let w := (e.rise.toNat &&& pol) ||| (e.fall.toNat &&& (3 - pol))
    let c := if d.pw.vcan then can.toNat else 0
    let wakes := w &&& d.rd F.PWR_SLEEP_CFG_wake_in_en 0 != 0 || c &&& d.rd F.PWR_SLEEP_CFG_can_en 0 != 0 ||
      perst && d.flag F.PWR_SLEEP_CFG_perst_en 0
    if d.pw.asleep || d.pw.entering then
      let d := d.seeWake w c perst
      if !wakes then d
      else if d.pw.asleep then (d.withTime ((d.time + slept) % 2 ^ 64)).wakeUp perst slept
      else d.onPw fun v => { v with wakeSeen := some (perst || v.wakeSeen == some true) }
    else d

/-- The link trains at a speed (HI_LINK.speed), no faster than HI_LINK_CFG allows; the device stops driving WAKE low. -/
def Dev.linkTrained (d : Dev) (speed : Nat) : Dev :=
  if speed = 0 then d
  else
    let d := (d.wr F.HI_LINK_speed 0 (min speed (d.rd F.HI_LINK_CFG_max_speed 0))).put F.HI_LINK_up 0 true
    (d.withHi { d.hi with l1 := false }).onPw fun p => { p with wakeDriven := false }

/-- PCIE_LINK_UP: the link trains; or, while it is up, it goes to L1, which HI_LINK_CFG must permit, or host software changes the power
state of the function (R301). -/
def execPcieLinkUp (t : Nat) (x : LinkChange) (s : State) : Host.Outcome State Fault Refusal :=
  effect t s fun d =>
    if d.pw.asleep || d.pw.held then d
    else match x with
    | .trains speed => d.linkTrained speed.val
    | .l1 => if d.flag F.HI_LINK_up 0 && d.flag F.HI_LINK_CFG_aspm_l1 0 then d.withHi { d.hi with l1 := true } else d
    | .d3hot => if d.flag F.HI_LINK_up 0 then d.withHi { d.hi with d3hot := true } else d
    | .d0 => if d.flag F.HI_LINK_up 0 then d.withHi { d.hi with d3hot := false } else d

/-! ### Temperatures (R395 to R399) -/

/-- TEMP_READING: sensor n renews its reading, in Q16.16 °C; a fenced one stays frozen. Maxima and factors are renewed. -/
def execTempReading (t : Nat) (n : Fin 57) (temp : Word) (s : State) : Host.Outcome State Fault Refusal :=
  effect t s fun d => (if d.tempFenced n then d else d.wr F.THM_TS n temp.toNat).derateAll

/-- Consecutive checks in which a sensor deviated. -/
def Dev.deviations (d : Dev) (n : Nat) : Nat := Tbl.get (fun _ => 0) d.pw.disagree n

/-- TEMP_CROSS_CHECK: each sensor is compared with its neighbours; one that deviated in cc_count consecutive checks is reported, once, and,
as soon as its group has a median, fenced. -/
def execTempCrossCheck (t : Nat) (s : State) : Host.Outcome State Fault Refusal :=
  effect t s fun d0 =>
    d0.each (List.range 57) fun d n =>
      if d0.deviates n then
        let c := d0.deviations n + 1
        let d := d.onPw fun p => { p with disagree := Tbl.set (fun _ => 0) p.disagree n c }
        let limit := d0.rd F.THM_CC_CFG_cc_count 0
        let d := if c = limit then d.reportOpen Kind.temp n Cls.report Code.SENSOR_DISAGREE else d
        if limit ≤ c ∧ (d0.liveGroup n).length ≠ 2 then d.fenceUnit Kind.temp n Code.SENSOR_DISAGREE 0 else d
      else d.onPw fun p => { p with disagree := Tbl.set (fun _ => 0) p.disagree n 0 }

end Sys2Proof.Machine
end

