-- ==== Sys2Proof/Machine/Shunts.lean ====
section
/-! DEFINITION. Commands of shunt sensing (chapter 04): conversions, housekeeping and calibration. -/

namespace Sys2Proof.Machine

/-- SHUNT_CONVERSION_DONE: the conversion of instant A or B of stage k completes with a code; `shift` is the delay of a
light hold that waited, in ticks (R85, R93, R94). -/
def execShuntConversionDone (t : Nat) (k : Fin 21) (isB : Bool) (code : Int) (shift : Nat) (s : State) :
    Host.Outcome State Fault Refusal :=
  effect t s fun d => d.shuntDone k isB code shift

/-- HOUSEKEEPING_START: at a multiple of 20,000 ticks, on a heavy stage whose carrier is not enabled (R84). R84 leaves two cases open, and
in both no cycle starts and none is kept waiting (DESIGN CHOICE, log entries 23 and 66): such a multiple between the enable of the carrier
and its first update point, and one at which a cycle begun at an update point is still in progress after the carrier was disabled. -/
def execHousekeepingStart (t : Nat) (k : Fin 14) (s : State) : Host.Outcome State Fault Refusal :=
  effect t s fun d =>
    if !d.flag F.TB_STG_CFG_enable k && d.time % 20000 == 0 && (d.shunt k).hk == 0 then d.hkStart k (d.upd k) else d

/-- HOUSEKEEPING_RESULT: the running housekeeping conversion of stage k completes with a code (R84). -/
def execHousekeepingResult (t : Nat) (k : Fin 14) (code : Nat) (s : State) : Host.Outcome State Fault Refusal :=
  effect t s fun d => d.hkResult k (code % 16384)

/-- CAL_OFFSET: firmware writes SH_CAL_CTRL (R95). -/
def execCalOffset (t : Nat) (k : Fin 21) (s : State) : Host.Outcome State Fault Refusal :=
  fromFirmware t s fun d => d.calStart k .offset

/-- CAL_GAIN: firmware writes SH_CAL_CTRL (R95). -/
def execCalGain (t : Nat) (k : Fin 21) (s : State) : Host.Outcome State Fault Refusal :=
  fromFirmware t s fun d => d.calStart k .gain

/-- CAL_BOTH: firmware writes SH_CAL_CTRL (R95). -/
def execCalBoth (t : Nat) (k : Fin 21) (s : State) : Host.Outcome State Fault Refusal :=
  fromFirmware t s fun d => d.calStart k .both

/-- CALIBRATION_DONE: the three sums are of 64 conversions each, with the input shorted, at +½ and at −½ of the range
(R95). -/
def execCalibrationDone (t : Nat) (k : Fin 21) (zero plus minus : Int) (s : State) : Host.Outcome State Fault Refusal :=
  effect t s fun d => d.calDone k zero plus minus

end Sys2Proof.Machine
end

