-- ==== Sys2Proof/Machine/Claims.lean ====
section
/-! DEFINITION. Claims and conflicts (R27 to R29, R296): what a set-up write that selects or deselects resources does. -/

namespace Sys2Proof.Machine

/-- Update what chapter 01 holds. -/
def Dev.onSys (d : Dev) (f : Sys → Sys) : Dev := d.withSys (f d.sys)

/-- Set the holder of a resource. -/
def Dev.setHolder (d : Dev) (kind index : Nat) (u : Option (Nat × Nat)) : Dev :=
  d.onSys fun k => { k with claims := Tbl.set claimReset k.claims (4096 * kind + index) u }

/-- Show the conflict list (R29): the 16 earliest unresolved conflicts, and how many there are. -/
def Dev.showConflicts (d : Dev) : Dev :=
  let l := d.sys.conflicts
  let d := d.wr F.DEV_CONFLICT_CNT_unresolved 0 (min l.length 65535)
  d.each (List.range 16) fun d n =>
    match l[n]? with
    | some c => d.wr F.DEV_CONFLICT n (c.kind + 16 * c.index + 65536 * (c.unitKind % 256) + 16777216 * (c.unitIndex % 256))
    | none => d.wr F.DEV_CONFLICT n 0

/-- Conflicts leave the list; the ones after them move up (R28). -/
def Dev.dropConflicts (d : Dev) (p : Conflict → Bool) : Dev :=
  d.onSys fun k => { k with conflicts := k.conflicts.filter fun c => !p c }

/-- A claim fails (R28): counted, and entered in the conflict list unless it is there already. -/
def Dev.claimFails (d : Dev) (c : Conflict) : Dev :=
  let d := d.bump F.DEV_CONFLICT_CNT_failed 0
  if d.sys.conflicts.contains c then d else d.onSys fun k => { k with conflicts := k.conflicts ++ [c] }

/-- A unit deselects a resource: one that it holds becomes free, and the conflicts on it are resolved; one that it claimed in
vain is no longer in conflict with it. -/
def Dev.deselect (d : Dev) (uk ui : Nat) (r : Nat × Nat) : Dev :=
  if d.holderOf r.1 r.2 = some (uk, ui) then
    (d.setHolder r.1 r.2 none).dropConflicts fun c => c.kind == r.1 && c.index == r.2
  else d.dropConflicts fun c => c.kind == r.1 && c.index == r.2 && c.unitKind == uk && c.unitIndex == ui

/-- A unit claims resources in order; the first that another unit holds fails, and the rest is not claimed. -/
def Dev.claim (d : Dev) (uk ui : Nat) : List (Nat × Nat) → Dev
  | [] => d
  | r :: rest =>
    match d.holderOf r.1 r.2 with
    | none =>
      Dev.claim ((d.setHolder r.1 r.2 (some (uk, ui))).dropConflicts fun c =>
        c.kind == r.1 && c.index == r.2 && c.unitKind == uk && c.unitIndex == ui) uk ui rest
    | some u => if u = (uk, ui) then Dev.claim d uk ui rest
      else d.claimFails { kind := r.1, index := r.2, unitKind := uk, unitIndex := ui }

/-- A set-up write of a unit was stored: `before` is what its registers selected before, `sel` what the written register selects
now. -/
def Dev.reclaim (d : Dev) (uk ui : Nat) (before sel : List (Nat × Nat)) : Dev :=
  let now := d.selects uk ui
  let gone := before.filter fun r => !now.contains r
  let d := gone.foldl (fun d r => d.deselect uk ui r) d
  (d.claim uk ui sel).showConflicts

/-! ### Banks (R296) -/

/-- The unit that holds a bank for an owner (R288, R296). -/
def ownerUnit (owner : Nat) : Option (Nat × Nat) :=
  if owner = 1 then some (Kind.safety, 0)
  else if owner = 2 then some (Kind.engine, 0xFF)
  else if owner = 3 then some (Kind.ringDma, 0)
  else if owner = 4 then some (Kind.imset, 0)
  else if owner = 5 then some (Kind.can, 0xFF)
  else if owner = 6 then some (Kind.crypto, 0)
  else none

/-- The class of a unit whose set-up field places data in a bank: ENG for a loop, NET for a flow. -/
def fieldClass (uk : Nat) : Nat := if uk = Kind.loop then 2 else 5

/-- MB_BANK_CFG[b] was written: the claim moves to the owner's unit; conflicts of the fields whose class owns the bank now are
resolved, and every field that places data there and was accepted under another owner is a failed claim now. -/
def Dev.bankClaim (d : Dev) (b : Nat) : Dev :=
  let o := d.rd F.MB_BANK_CFG_owner b
  let d := d.setHolder Res.bank b (ownerUnit o)
  let d := d.dropConflicts fun c => c.kind == Res.bank && c.index == b && fieldClass c.unitKind == o
  let strays := (d.mb.placed.filter fun p => p.2.2 == b && fieldClass p.1 != o).map fun p =>
    ({ kind := Res.bank, index := b, unitKind := p.1, unitIndex := p.2.1 } : Conflict)
  ((strays.filter fun c => !d.sys.conflicts.contains c).foldl Dev.claimFails d).showConflicts

/-- A set-up field of a unit places data in bank b (R296): a failed claim unless the bank's set-up owner is of its class. -/
def Dev.placeData (d : Dev) (uk ui b : Nat) : Dev :=
  let d := d.withMb { d.mb with placed := (d.mb.placed.filter fun p => p.1 != uk || p.2.1 != ui) ++ [(uk, ui, b)] }
  let d := d.dropConflicts fun c => c.kind == Res.bank && c.unitKind == uk && c.unitIndex == ui && c.index != b
  let same (c : Conflict) : Bool := c.kind == Res.bank && c.unitKind == uk && c.unitIndex == ui
  (if d.rd F.MB_BANK_CFG_owner b = fieldClass uk then d.dropConflicts same
   else d.claimFails { kind := Res.bank, index := b, unitKind := uk, unitIndex := ui }).showConflicts

/-! ### Inspection (DEV_CLAIM_SEL) -/

/-- How many resources a kind has (R27): 484 logic lands, 48 trigger units, 48 converter inputs, banks up to B14, 2,048 filters, 64
vectors. -/
def resCount (kind : Nat) : Nat :=
  if kind = Res.land then 484 else if kind = Res.trigger then 48 else if kind = Res.ain then 48 else if kind = Res.bank then 15
  else if kind = Res.filter then 2048 else if kind = Res.vector then 64 else 0

/-- Does a resource exist? -/
def resExists (kind index : Nat) : Bool := index < resCount kind && (kind != Res.bank || index != 0)

/-- What DEV_CLAIM_HOLDER reads for the resource in DEV_CLAIM_SEL. -/
def Dev.claimView (d : Dev) : Word :=
  let k := d.rd F.DEV_CLAIM_SEL_kind 0
  let i := d.rd F.DEV_CLAIM_SEL_index 0
  let contested := 131072 * b2n (d.sys.conflicts.any fun c => c.kind == k && c.index == i)
  match d.holderOf k i with
  | some (uk, ui) => BitVec.ofNat 32 (uk % 256 + 256 * (ui % 256) + 65536 + contested)
  | none => BitVec.ofNat 32 contested

end Sys2Proof.Machine
end

