-- ==== Sys2Proof/Machine/WriteChecks.lean ====
section
/-! DEFINITION. What a register write is checked for beyond its own fields' legal ranges (R23): the combinations that the chapters
forbid, and the units whose fence takes their registers. In every check `d` is the device before the write and `n` the device with
the register as it would read. -/

namespace Sys2Proof.Machine

/-- Is byte offset `off` an instance of the register of a field, of `n` instances? -/
def Fd.hits (f : Fd) (n off : Nat) : Bool :=
  Nat.ble f.base off && (off - f.base) % (max 1 f.s1) == 0 && Nat.blt ((off - f.base) / max 1 f.s1) n

/-- Which instance that is. -/
def Fd.inst (f : Fd) (off : Nat) : Nat := (off - f.base) / max 1 f.s1

/-- Does `off` lie in one of `n` blocks of `size` bytes that start `stride` bytes apart at `base`? -/
def inBlock (base stride size n off : Nat) : Bool :=
  Nat.ble base off && Nat.blt ((off - base) / stride) n && Nat.blt ((off - base) % stride) size

/-! ### Timebase and pulse generators -/

/-- Is a port of the stage in DOUBLE mode? -/
def Dev.anyDouble (d : Dev) (s : Nat) : Bool := (stagePorts s).any fun p => d.rd F.PG_CFG_mode p == 5

/-- Half a span of a port, doubled minimum pulse against it (R40, R47). -/
def Dev.minPulseBad (d : Dev) (s p : Nat) : Bool :=
  let span := if d.upDown s || d.rd F.PG_CFG_mode p == 5 then d.period s / 2 else d.period s
  Nat.blt span (2 * d.rd F.PG_MINP_min_pulse p)

/-- An enabled stage in a combination that R40 forbids, or with a guard or a latest instant outside its field's range. -/
def Dev.badStage (d : Dev) (s : Nat) : Bool :=
  d.flag F.TB_STG_CFG_enable s &&
    (((d.upDown s || d.anyDouble s) && d.period s % 2 == 1) ||
     Nat.ble (d.period s) (d.rd F.TB_STG_PHASE_phase s) ||
     (d.halfBeat s && !d.upDown s) ||
     (d.loopStage s && Nat.blt (d.beat s) 4000) ||
     (d.anyDouble s && d.upDown s) ||
     (stagePorts s).any (d.minPulseBad s) ||
     Nat.blt (d.beat s) (4 * d.rd F.TB_STG_LIMIT_guard s) ||
     Nat.blt (d.beat s) (d.rd F.TB_STG_LIMIT_latest s + d.rd F.TB_STG_LIMIT_guard s))

/-- The largest compare of a stage's count mode, in sixteenths: H in UPDOWN, the period in UP (R43). -/
def Dev.posMax (d : Dev) (s : Nat) : Nat := if d.upDown s then 8 * d.period s else 16 * d.period s

/-- Writes to the TB page. The range of TB_TRIG_POS.pos is checked at writes of TB_TRIG_POS and the direction at writes of TB_TRIG_CFG;
R60 leaves open what holds after a later write to the other register, or after a change of the stage's count mode or period, and the model
checks neither again (DESIGN CHOICE, log entry 17). -/
def Dev.tbRefuses (d n : Dev) (off : Nat) : Bool :=
  if inBlock 0x10100 64 0x10 21 off then
    let s := (off - 0x10100) / 64
    n.badStage s ||
      (F.TB_STG_CFG.hits 21 off && d.flag F.TB_STG_RUN_run s && d.flag F.TB_STG_CFG_enable s && !n.flag F.TB_STG_CFG_enable s)
  else if inBlock 0x11000 16 8 48 off then
    let u := (off - 0x11000) / 16
    let s := n.rd F.TB_TRIG_CFG_stage u
    (!n.upDown s && n.rd F.TB_TRIG_CFG_mode u == 1 && n.rd F.TB_TRIG_CFG_dir u != 1 && F.TB_TRIG_CFG.hits 48 off) ||
      (F.TB_TRIG_POS.hits 48 off && Nat.blt (n.posMax s) (n.rd F.TB_TRIG_POS_pos u))
  else false

/-- Writes to the PG page. -/
def Dev.pgRefuses (n : Dev) (off : Nat) : Bool :=
  if F.PG_CFG.hits 64 off || F.PG_MINP.hits 64 off then
    let p := (off - 0x14000) / 256
    n.badStage (portStage p) || (F.PG_CFG.hits 64 off && n.rd F.PG_CFG_mode p == 5 && n.upDown (portStage p))
  else false

/-- Writes to the PP page: the chopper check exists on the ports of HS13 alone (R79). -/
def Dev.ppRefuses (n : Dev) (off : Nat) : Bool :=
  F.PP_CHOP.hits 64 off && n.flag F.PP_CHOP_enable (F.PP_CHOP.inst off) && portStage (F.PP_CHOP.inst off) != 13

/-! ### Shunt sensing -/

/-- The least settling of a gain (SH_WIN). -/
def settleMin (s gain : Nat) : Nat :=
  if heavyStage s then [48, 64, 88, 120].getD gain 120 else [64, 80, 104, 144].getD gain 144

/-- Sampling settings that SH_WIN or R88 forbid. -/
def Dev.badSampling (d : Dev) (s : Nat) : Bool :=
  let mode := d.rd F.SH_CFG_mode s
  let settle := d.rd F.SH_WIN_settle s
  let a := d.rd F.SH_FIX_A_offset s
  let b := d.rd F.SH_FIX_B_offset s
  Nat.blt settle (settleMin s (d.rd F.SH_CFG_gain s)) ||
    Nat.blt (d.rd F.SH_WIN_blank s + settle) (d.rd F.SH_WIN_accept s + if heavyStage s then 200 else 240) ||
    (mode == 2 && d.flag F.SH_FIX_A_enable s && d.flag F.SH_FIX_B_enable s &&
      Nat.blt (max a b - min a b) (if heavyStage s then 80 else 240))

/-- Does a write set SINGLE_SHUNT on a stage that cannot have it (R87)? -/
def Dev.badSingleShunt (d : Dev) (s : Nat) : Bool :=
  d.rd F.SH_CFG_mode s == 1 && ((stagePorts s).length != 3 || !d.upDown s)

/-- Writes to the SH page; on light stages the voltage and temperature registers reject every write. -/
def Dev.shRefuses (n : Dev) (off : Nat) : Bool :=
  let s := (off - 0x1C000) / 0x200
  let r := (off - 0x1C000) % 0x200
  (Nat.blt r 0x10 && n.badSampling s) || (r == 0 && n.badSingleShunt s) || (!heavyStage s && [0x14, 0x18, 0x50, 0x54, 0x58].contains r)

/-! ### Converters, comparators, stopwork -/

/-- Writes to the CV page: an entry's index lies within its kind, and only an AIN or pair input is tested (R100, R106). -/
def Dev.cvRefuses (n : Dev) (off : Nat) : Bool :=
  let c := (off - 0x20000) / 0x800
  let r := (off - 0x20000) % 0x800
  if Nat.ble 0x100 r && (r - 0x100) % 0x20 == 0 then
    let e := (r - 0x100) / 0x20
    let kind := n.rd2 F.CV_ENT_kind c e
    Nat.ble (inputRange kind) (n.rd2 F.CV_ENT_index c e) || ((kind == 3 || kind == 4) && n.rd2 F.CV_ENT_ow c e != 1)
  else false

/-- A comparator whose settings are illegal: a route without its threshold, or thresholds whose bands cross (R108). -/
def cmpBad (lo hi hyst : Nat) (enLo enHi routeLo routeHi : Bool) : Bool :=
  (routeLo && !enLo) || (routeHi && !enHi) || Nat.blt hi (lo + 2 * hyst)

/-- Writes to the WM page. -/
def Dev.wmRefuses (n : Dev) (off : Nat) : Bool :=
  if inBlock 0x24000 32 8 24 off then
    let m := (off - 0x24000) / 32
    cmpBad (n.rd F.WM_THR_lo m) (n.rd F.WM_THR_hi m) (n.rd F.WM_CFG_hyst m) (n.flag F.WM_CFG_en_lo m) (n.flag F.WM_CFG_en_hi m)
        (n.flag F.WM_CFG_route_lo m) (n.flag F.WM_CFG_route_hi m) ||
      (n.rd F.WM_CFG_input m == 2 && Nat.ble 24 (n.rd F.WM_CFG_index m))
  else if inBlock 0x24400 32 8 28 off then
    let c := (off - 0x24400) / 32
    cmpBad (n.rd F.WM_PC_THR_lo c) (n.rd F.WM_PC_THR_hi c) (n.rd F.WM_PC_CFG_hyst c) (n.flag F.WM_PC_CFG_en_lo c)
      (n.flag F.WM_PC_CFG_en_hi c) (n.flag F.WM_PC_CFG_route_lo c) (n.flag F.WM_PC_CFG_route_hi c)
  else if F.WM_SW_ACT.hits 21 off then
    n.rd F.WM_SW_ACT_action (F.WM_SW_ACT.inst off) == 2 && Nat.ble 8 (F.WM_SW_ACT.inst off)
  else false

/-! ### Position -/

/-- Do mode and counts per revolution of an enabled port disagree (R123, R125)? -/
def Dev.badPort (d : Dev) (i : Nat) : Bool :=
  let cpr := d.cpr i
  let mode := d.psMode i
  d.flag F.PS_CFG_enable i &&
    (if mode = 1 then cpr % 4 != 0 || cpr < 4 || 2 ^ 24 < cpr
     else if mode = 4 then cpr != 2 ^ d.rd F.PS_SSI_CFG_st_bits i
     else if mode = 5 then cpr != 65536 * d.rd F.PS_RES_CFG_res_pairs i
     else cpr != 6 * d.rd F.PS_HALL_CFG_hall_pairs i)

/-- Does an SSI frame fail to hold its bits: position, parity and error bit (PS_SSI_CFG)? -/
def Dev.badFrame (d : Dev) (i : Nat) : Bool :=
  let pos := d.rd F.PS_SSI_CFG_st_bits i + d.rd F.PS_SSI_CFG_mt_bits i
  let err := d.flag F.PS_SSI_CFG_err_en i
  let at' := d.rd F.PS_SSI_CFG_err_pos i
  let frame := d.rd F.PS_SSI_CFG_frame i
  Nat.blt frame (pos + b2n (d.rd F.PS_SSI_CFG_parity i != 1) + b2n err) || (err && (Nat.blt at' pos || Nat.ble frame at'))

/-- Writes to the PS page. -/
def Dev.psRefuses (n : Dev) (off : Nat) : Bool :=
  if Nat.blt off 0x2E000 then
    let i := (off - 0x28000) / 0x1000
    let r := (off - 0x28000) % 0x1000
    (r == 0 && n.psMode i == 5 && Nat.ble 2 i) ||
      ([0x00, 0x04, 0x10, 0x14, 0x24].contains r && n.badPort i) ||
      (r == 0x14 && n.badFrame i) ||
      (r == 0x28 && Nat.ble (n.rd F.PS_RES_AMP_amp_hi i) (n.rd F.PS_RES_AMP_amp_lo i))
  else false

/-! ### Engines -/

/-- Writes to the BE page: an AUX loop drives no linked stage (R152); each master selects its own page alone (BE_LT_PAGE). -/
def Dev.beRefuses (n : Dev) (m : Master) (off : Nat) : Bool :=
  (F.BE_LP_CFG.hits 64 off && n.flag F.BE_LP_CFG_link_en (F.BE_LP_CFG.inst off) && n.isAux (F.BE_LP_CFG.inst off)) ||
    (F.BE_LT_PAGE.hits 3 off && F.BE_LT_PAGE.inst off != m.code)

/-! ### Sequencers -/

/-- An enabled traction machine in a combination that R206 forbids. -/
def Dev.badTm (d : Dev) (m : Nat) : Bool :=
  d.flag F.SC_TM_CFG_enable m &&
    (d.rd F.SC_TM_CFG_sets m == 0 ||
     Nat.blt (count4 (d.rd F.SC_TM_CFG_sets m)) (d.rd F.SC_TM_CFG_min_sets m) ||
     Nat.blt (65536 * d.rd F.SC_TM_VMAX m) (d.rd F.SC_TM_CATCH m * d.rd F.SC_TM_KE m) ||
     Nat.blt (d.rd F.SC_TM_CATCH m) (d.rd F.SC_TM_REENGAGE m))

/-- Is a stage enabled with source LOOP and driven by an enabled PRIMARY loop: what R229 lets a write check? -/
def Dev.servable (d : Dev) (s : Nat) : Bool := d.flag F.TB_STG_CFG_enable s && d.loopStage s && !(d.driving s).isEmpty

/-- Does a converter entry convert AIN n in CONTINUOUS mode within its sequence? -/
def Dev.entryOn (d : Dev) (c e : Nat) : Bool := d.rd F.CV_CFG_mode c == 1 && Nat.blt e (d.rd F.CV_CFG_length c)

/-- Does a converter entry convert the AIN that a monitor watches (R232)? -/
def Dev.entryOf (d : Dev) (c e m : Nat) : Bool :=
  d.entryOn c e && d.rd2 F.CV_ENT_kind c e == 1 && d.rd F.WM_CFG_input m == 1 && d.rd2 F.CV_ENT_index c e == d.rd F.WM_CFG_index m

/-- An enabled charging sequencer in a combination that R229 or R232 forbids. -/
def Dev.badCh (d : Dev) : Bool :=
  let wm := d.rd F.SC_CH_IN_pilot_wm 0
  d.flag F.SC_CH_CFG_enable 0 &&
    (chStages.any (fun s => !d.servable s) ||
     d.period 10 != d.period 11 || d.rd F.TB_STG_CFG_count_mode 10 != d.rd F.TB_STG_CFG_count_mode 11 ||
     d.rd F.TB_STG_CFG_beat_div 10 != d.rd F.TB_STG_CFG_beat_div 11 || d.rd F.TB_STG_CFG_sync 10 != d.rd F.TB_STG_CFG_sync 11 ||
     d.rd F.TB_STG_PHASE_phase 10 != d.rd F.TB_STG_PHASE_phase 11 ||
     !d.entryOf (d.rd F.SC_CH_IN_cp_conv 0) (d.rd F.SC_CH_IN_cp_entry 0) wm ||
     !d.entryOf (d.rd F.SC_CH_IN_pp_conv 0) (d.rd F.SC_CH_IN_pp_entry 0) (d.rd F.SC_CH_IN_pp_wm 0) ||
     d.rd F.WM_CFG_latch wm != 1 || !d.flag F.WM_CFG_en_hi wm)

/-- An enabled conversion sequencer in a combination that R229 forbids. -/
def Dev.badLv (d : Dev) : Bool :=
  d.flag F.SC_LV_CFG_enable 0 &&
    (!d.servable 12 || !d.servable 14 || (d.primaryLoop 14).bind d.linkOf != some 12 ||
     !d.entryOn (d.rd F.SC_LV_CFG_out_conv 0) (d.rd F.SC_LV_CFG_out_entry 0))

/-- An enabled drive in a combination that R251 forbids. -/
def Dev.badDr (d : Dev) (a : Nat) : Bool :=
  d.flag F.SC_DR_CFG_enable a &&
    (match d.primaryLoop (15 + a) with
     | none => true
     | some l =>
       !d.flag F.TB_STG_CFG_enable (15 + a) || !d.loopStage (15 + a) ||
         (if d.flag F.SC_DR_CFG_secondary a then d.psMode (d.rd F.SC_DR_CFG_pos_port a) != 3
          else !d.flag F.BE_LP_IN_lat l || d.rd F.BE_LP_IN_lat_port l != d.rd F.SC_DR_CFG_pos_port a))

/-- Would the write create a combination that a sequencer forbids? -/
def Dev.seqBad (d n : Dev) : Bool :=
  (n.badCh && !d.badCh) || (n.badLv && !d.badLv) || (List.range 6).any fun a => n.badDr a && !d.badDr a

/-- Writes to the sequencer registers. -/
def Dev.scRefuses (n : Dev) (off : Nat) : Bool :=
  (inBlock 0x83000 0x100 0x100 2 off && n.badTm ((off - 0x83000) / 0x100)) ||
    (off == F.SC_CH_GRID.off 0 0 &&
      (Nat.ble (n.rd F.SC_CH_GRID_v_hi 0) (n.rd F.SC_CH_GRID_v_lo 0) || Nat.ble (n.rd F.SC_CH_GRID_f_hi 0) (n.rd F.SC_CH_GRID_f_lo 0))) ||
    (off == F.SC_LV_VRANGE.off 0 0 && Nat.ble (n.rd F.SC_LV_VRANGE_v_max 0) (n.rd F.SC_LV_VRANGE_v_min 0)) ||
    (F.SC_DR_SPD.hits 6 off &&
      Nat.blt (n.rd F.SC_DR_SPD_catch (F.SC_DR_SPD.inst off)) (n.rd F.SC_DR_SPD_reengage (F.SC_DR_SPD.inst off)))

/-! ### Banks and host interface -/

/-- The fixed owners of B0 and B15 (R288). -/
def Dev.mbRefuses (n : Dev) (off : Nat) : Bool :=
  (off == F.MB_BANK_CFG.off 0 0 && n.rd F.MB_BANK_CFG_owner 0 != 1) || (off == F.MB_BANK_CFG.off 15 0 && n.rd F.MB_BANK_CFG_owner 15 != 4)

/-- Does an enabled queue pair have a ring inside window w (R303)? -/
def Dev.ringInside (d : Dev) (w : Nat) : Bool :=
  let inside (a : Nat) : Bool := Nat.ble (d.window w).1 a && Nat.blt a (d.window w).2
  queuePairs.any fun q => d.qpOn q && (inside (d.sqBase q) || inside (d.cqBase q))

/-- Writes to the HI page. -/
def Dev.hiRefuses (d n : Dev) (off : Nat) : Bool :=
  if inBlock 0x88100 16 16 32 off then
    let w := (off - 0x88100) / 16
    if F.HI_WIN_CFG.hits 32 off then d.flag F.HI_WIN_CFG_enable w && !n.flag F.HI_WIN_CFG_enable w && d.ringInside w
    else d.flag F.HI_WIN_CFG_enable w || (F.HI_WIN_LO.hits 32 off && n.rd F.HI_WIN_LO w % 4096 != 0)
  else if inBlock 0x88400 64 64 64 off then
    let q := (off - 0x88400) / 64
    let r := (off - 0x88400) % 64
    if r = 0 then
      let kind := n.qpKind q
      (if q = 0 then kind != 6 else if q = 1 then kind != 5 else kind == 6) ||
        (d.qpOn q && (kind != d.qpKind q || n.ringSize q != d.ringSize q))
    else if r = 0x08 ∨ r = 0x10 then d.qpOn q || n.word off % 64 != 0
    else if r = 0x0C ∨ r = 0x14 then d.qpOn q
    else false
  else false

/-! ### CAN -/

/-- How many CNI clocks a bit of a phase takes, and whether its sjw exceeds tseg2 (R325). -/
def phaseClocks (w : Word) : Nat × Bool :=
  (getBits w 0 5 * (1 + getBits w 5 8 + getBits w 13 7), Nat.blt (getBits w 13 7) (getBits w 20 7))

/-- Is a data phase illegal: faster than its limit, slower than the nominal phase, or sjw above tseg2 (R325)? -/
def dataPhaseBad (nominal least : Nat) (w : Word) : Bool :=
  let p := phaseClocks w
  p.2 || Nat.blt p.1 least || Nat.blt nominal p.1

/-- An enabled controller in a combination that R325 or R330 forbids. -/
def Dev.badCan (d : Dev) (c : Nat) : Bool :=
  let nom := phaseClocks (d.word (F.CN_NBT.off c 0))
  let proto := d.rd F.CN_CFG_proto c
  let tx := d.rd F.CN_CFG_tx_qp c
  let rx := d.rd F.CN_CFG_rx_qp c
  let others := (List.range 8).filter fun k => k != c && d.flag F.CN_CFG_enable k
  d.flag F.CN_CFG_enable c &&
    (nom.2 || Nat.blt nom.1 160 || Nat.blt 8000 nom.1 ||
     (Nat.ble 2 proto && dataPhaseBad nom.1 20 (d.word (F.CN_DBT.off c 0))) ||
     (proto == 3 && dataPhaseBad nom.1 8 (d.word (F.CN_XBT.off c 0))) ||
     d.qpKind tx != 3 || d.qpKind rx != 4 ||
     others.any (fun k => d.rd F.CN_CFG_tx_qp k == tx || d.rd F.CN_CFG_rx_qp k == rx) ||
     (d.flag F.CN_TT_CFG_gt_src c && others.any (d.flag F.CN_TT_CFG_gt_src)))

/-- Would the write create an illegal combination on an enabled controller? -/
def Dev.canBad (d n : Dev) : Bool := (List.range 8).any fun c => n.badCan c && !d.badCan c

/-- Writes to the CN page. -/
def Dev.cnRefuses (n : Dev) (off : Nat) : Bool :=
  let c := (off - 0x90000) / 0x1000
  let r := (off - 0x90000) % 0x1000
  if r = 0x1C then Nat.ble (n.rd F.CN_TT_CYCLE_ref_watch c) (n.rd F.CN_TT_CYCLE_cycle c)
  else if 0x200 ≤ r ∧ r < 0x300 then
    let k := (r - 0x200) / 8
    if r % 8 = 0 then
      let type := n.rd2 F.CN_TT_TRIG_type c k
      let rep' := n.rd2 F.CN_TT_TRIG_rep_log2 c k
      (n.rd2 F.CN_TT_TRIG_enable c k == 1 && (type == 0 || Nat.ble 4 type)) ||
        Nat.ble (2 ^ rep') (n.rd2 F.CN_TT_TRIG_offset c k) || Nat.blt (n.rd F.CN_TT_CFG_mc_log2 c) rep'
    else Nat.ble (n.rd F.CN_TT_CYCLE_cycle c) (n.rd2 F.CN_TT_MARK_mark c k)
  else false

/-- Is flow l set to AUTH_ENC with a tag of other than 16 bytes (R337)? -/
def Dev.badTag (n : Dev) (l : Nat) : Bool := n.rd F.FL_CFG_profile l == 3 && n.rd F.FL_SEC_tag l != 3

/-- Writes to the FL page: a mailbox is 32-byte aligned, and its 96 bytes lie within one bank (R335); AUTH_ENC has a tag of 16 bytes. -/
def Dev.flRefuses (n : Dev) (off : Nat) : Bool :=
  (F.FL_SC_ADDR.hits 256 off &&
    (let a := n.rd F.FL_SC_ADDR_addr (F.FL_SC_ADDR.inst off)
     a % 32 != 0 || a / 0x80000 != (a + 95) / 0x80000)) ||
  (F.FL_CFG.hits 256 off && n.badTag (F.FL_CFG.inst off)) || (F.FL_SEC.hits 256 off && n.badTag (F.FL_SEC.inst off))

/-! ### All of them -/

/-- Writes to the Device page. -/
def Dev.devRefuses (n : Dev) (off : Nat) : Bool :=
  (off == F.DEV_CLAIM_SEL.off 0 0 && !resExists (n.rd F.DEV_CLAIM_SEL_kind 0) (n.rd F.DEV_CLAIM_SEL_index 0)) ||
    (F.THM_DERATE_CFG.hits 2 off &&
      (let k := F.THM_DERATE_CFG.inst off
       Nat.ble (n.rd F.THM_DERATE_CFG_t_stop k) (n.rd F.THM_DERATE_CFG_t_start k) ||
         (k == 1 && n.rd F.THM_DERATE_CFG_pv_mask 1 != 0)))

/-- Is a write whose fields lie in their legal ranges rejected with VALUE all the same? -/
def Dev.refuses (d n : Dev) (m : Master) (off : Nat) : Bool :=
  let page := off / 0x4000
  let setup := d.devState == DevSt.boot || d.devState == DevSt.setup
  (if page = 0 then n.devRefuses off
   else if page = 4 then d.tbRefuses n off
   else if page = 5 then n.pgRefuses off
   else if page = 6 then n.ppRefuses off
   else if page = 7 then n.shRefuses off
   else if page = 8 then n.cvRefuses off
   else if page = 9 then n.wmRefuses off
   else if page = 10 ∨ page = 11 then n.psRefuses off
   else if 12 ≤ page ∧ page < 16 then n.beRefuses m off
   else if page = 32 then n.scRefuses off
   else if page = 33 then n.mbRefuses off
   else if page = 34 then d.hiRefuses n off
   else if page = 36 ∨ page = 37 then n.cnRefuses off
   else if page = 38 then n.flRefuses off
   else if page = 42 then F.FLT_SEL.hits 3 off && F.FLT_SEL.inst off != m.code
   else false) ||
    (setup && (d.seqBad n || d.canBad n))

/-! ### Registers of fenced units -/

/-- The registers of the island and management units that a fence takes with the unit. -/
def fencedRegister (off : Nat) : Option (Nat × Nat) :=
  let page := off / 0x4000
  if page = 0 then if F.THM_TS.hits 57 off then some (Kind.temp, F.THM_TS.inst off) else none
  else if page = 4 then if inBlock 0x10100 64 64 21 off then some (Kind.stage, (off - 0x10100) / 64) else none
  else if page = 5 then some (Kind.stage, portStage ((off - 0x14000) / 256))
  else if page = 6 then some (Kind.port, (off - 0x18000) / 256)
  else if page = 8 then some (Kind.logicConv, (off - 0x20000) / 0x800)
  else if page = 10 ∨ page = 11 then
    if off < 0x2E000 then some (Kind.posPort, (off - 0x28000) / 0x1000) else some (Kind.repeater, (off - 0x2E000) / 0x800)
  else if 12 ≤ page ∧ page < 16 then
    if off < 0x3C000 then some (Kind.engine, (off - 0x30000) / 0x1000)
    else if inBlock 0x3C000 64 64 64 off ∧ (off - 0x3C000) % 64 ≠ 0x14 then some (Kind.loop, (off - 0x3C000) / 64)
    else none
  else if page = 33 then if off < 0x840C0 then some (Kind.bank, (off - 0x84000) / 4 % 16) else none
  else if page = 34 then
    if inBlock 0x88400 64 64 64 off ∧ (off - 0x88400) % 64 ≠ 4 then some (Kind.queue, (off - 0x88400) / 64) else none
  else if page = 36 ∨ page = 37 then some (Kind.can, (off - 0x90000) / 0x1000)
  else if page = 38 then some (Kind.flow, (off - 0x98000) / 64)
  else if page = 41 then some (Kind.imset, 0)
  else none

/-- The comparator a register of the WM page belongs to. -/
def fencedCmp (off : Nat) : Option (Nat × Nat) :=
  if inBlock 0x24000 32 32 24 off then some (Kind.winMon, (off - 0x24000) / 32)
  else if inBlock 0x24400 32 32 28 off then some (Kind.podCmp, (off - 0x24400) / 32)
  else if inBlock 0x24800 32 32 8 off then some (Kind.edgeFlag, (off - 0x24800) / 32)
  else none

/-- Does a register belong to a fenced unit (R23, R57)? -/
def Dev.regFenced (d : Dev) (off : Nat) : Bool :=
  match if off / 0x4000 = 9 then fencedCmp off else fencedRegister off with
  | some u => d.fenced u.1 u.2
  | none => false

end Sys2Proof.Machine
end

