-- ==== Sys2Proof/Machine/Registers.lean ====
section
/-! DEFINITION. The SETUP window (R1 to R5, R19 to R33): what a write is checked for, what it stores and starts, and what a
register reads. -/

namespace Sys2Proof.Machine

/-! ### Merging a write by access codes (R2) -/

/-- A field of a register after a write of `w`. -/
def mergeField (w acc : Word) (f : FieldRow) : Word :=
  let v := getBits w f.lo f.width
  let old := getBits acc f.lo f.width
  match f.acc with
  | .ro => acc
  | .rw => putBits acc f.lo f.width v
  | .w1c => putBits acc f.lo f.width (old &&& (2 ^ f.width - 1 - v))
  | .w1s => putBits acc f.lo f.width (old ||| v)

/-- A register after a write of `w`; reserved and read-only bits stay. -/
def mergeWord (r : RegRow) (old w : Word) : Word := r.fields.foldl (mergeField w) old

/-- Does each read-write field of a write lie in its legal range (R23)? -/
def fieldsLegal (r : RegRow) (w : Word) : Bool :=
  r.fields.all fun f =>
    match f.acc, f.legal with
    | .rw, some l => l.any fun x => Nat.ble x.1 (getBits w f.lo f.width) && Nat.ble (getBits w f.lo f.width) x.2
    | _, _ => true

/-! ### Table memory and the MSI-X table -/

/-- Does an offset lie in the LT window? -/
def inTable (off : Nat) : Bool := Nat.ble 0x40000 off && Nat.blt off 0x80000

/-- The table offset that a master addresses through its page (R150). -/
def Dev.tableOffset (d : Dev) (m : Master) (off : Nat) : Nat := 0x40000 * d.rd F.BE_LT_PAGE_page m.code + (off - 0x40000)

/-- May class S be written now (R31)? In SETUP by every master, in BOOT by Imset while it applies a configuration image. -/
def Dev.setupOpen (d : Dev) (m : Master) : Bool :=
  d.devState == DevSt.setup || (d.devState == DevSt.boot && m == .imset && d.sys.applying)

/-- Parameters that a sequencer writes itself, loop by loop (R208, R243, R248, R253): how far they reach. -/
def Dev.ownedPars (d : Dev) (l : Nat) : Nat :=
  let tm := [0, 1].any fun m => d.flag F.SC_TM_CFG_enable m && (d.tmLoops m).contains l
  let ch := d.flag F.SC_CH_CFG_enable 0 && d.chLoops.contains l
  let lv := d.flag F.SC_LV_CFG_enable 0 && d.lvLoops.contains l
  let dr := (List.range 6).any fun a => d.flag F.SC_DR_CFG_enable a && d.primaryLoop (15 + a) == some l
  if tm then 59 else if ch || lv || dr then 57 else 48

/-- Why a write of a word of table memory is rejected (R31, R150, R158, R187), if it is. -/
def Dev.tableReason (d : Dev) (m : Master) (o : Nat) (w : Word) : Option Nat :=
  let sc := m == .sc
  let setup := if d.setupOpen m then none else some Reason.sealed
  if 0xC0000 ≤ o ∨ (0x74C00 ≤ o ∧ o < 0x78000) then some Reason.unmapped
  else if 0x70000 ≤ o ∧ o < 0x74000 then
    let k := (o - 0x70000) / 4 % 64
    if !sc then some Reason.cls
    else if 48 ≤ k ∧ k < d.ownedPars ((o - 0x70000) / 0x100) then some Reason.value
    else none
  else if 0x40000 ≤ o ∧ o < 0x60000 then
    let l := (o - 0x40000) / 0x800
    let bank := (o - 0x40000) % 0x800 / 0x400
    let asked := d.flag F.BE_LP_SWAP_pending l && d.rd F.BE_LP_SWAP_bank l == bank
    if d.loopsOn then
      if bank = d.activeBank l then some Reason.sealed
      else if !sc then some Reason.cls
      else if asked then some Reason.value else none
    else if setup.isSome then setup
    else if asked then some Reason.value else none
  else if setup.isSome then setup
  else if 0x74000 ≤ o ∧ o < 0x74800 ∧ w.toInt ≤ 0 then some Reason.value
  else none

/-- Does an offset lie in the MSI-X table, or in the table or its pending bits? -/
def inMsix (off : Nat) : Bool := Nat.ble 0x8A000 off && Nat.blt off 0x8A400
def inVectors (off : Nat) : Bool := inMsix off || (Nat.ble 0x8A800 off && Nat.blt off 0x8A808)

/-! ### Checks (R23) -/

/-- Why a command register rejects a write whose fields are legal, where that follows from what the device does now. -/
def Dev.commandReason (d : Dev) (m : Master) (off : Nat) (w : Word) : Option Nat :=
  let one := getBits w 0 1 == 1
  if off = F.DEV_SEAL_CTRL.off 0 0 then
    if one && !(d.devState == DevSt.setup || (d.devState == DevSt.boot && m == .imset && d.sec.sealDue)) then some Reason.value
    else none
  else if F.HI_QP_CTRL.hits 64 off && one then
    if d.flag F.HI_QP_CTRL_draining (F.HI_QP_CTRL.inst off) then some Reason.value
    else if d.ringsFenced then some Reason.fenced else none
  else if F.CN_CTRL.hits 8 off && d.canState (F.CN_CTRL.inst off) != canBusOff then some Reason.value
  else none

/-- Commands that complete with FENCED on a fenced unit (R137, R187) instead of being rejected. -/
def answersFenced (off : Nat) : Bool := F.PS_CTRL.hits 6 off || F.BE_LP_SWAP.hits 64 off

/-- Why a write of one word is rejected, if it is: UNMAPPED, WIDTH, CLASS, SEALED, FENCED, VALUE, in this order. -/
def Dev.writeReason (d : Dev) (m : Master) (off : Nat) (narrow : Bool) (w : Word) : Option Nat :=
  if inVectors off then if narrow then some Reason.width else none
  else if inTable off then
    let why := d.tableReason m (d.tableOffset m off) w
    if narrow && why != some Reason.unmapped then some Reason.width else why
  else match findReg off with
    | none => some Reason.unmapped
    | some r =>
      if narrow then some Reason.width
      else if r.cls = .T ∧ m ≠ .sc then some Reason.cls
      else if r.cls = .S ∧ d.setupOpen m = false then some Reason.sealed
      else if d.regFenced off && !answersFenced off then some Reason.fenced
      else if !fieldsLegal r w then some Reason.value
      else
        match d.commandReason m off w with
        | some why => some why
        | none => if d.refuses (d.setWord off (mergeWord r (d.word off) w)) m off then some Reason.value else none

/-! ### What a stored write starts -/

/-- A converter follows its configuration: OFF and a claim that failed end the pass, CONTINUOUS runs while its claims hold (R28, R101,
R102). -/
def Dev.convFollow (d : Dev) (c : Nat) : Dev :=
  let mode := d.rd F.CV_CFG_mode c
  if mode = 3 ∨ d.holds Kind.logicConv c (d.convSelects c) = false then
    (d.setConv c (d.conv c).fresh).put F.CV_STAT_busy c false
  else if mode = 1 ∧ d.flag F.CV_STAT_busy c = false then d.startPass c
  else d

/-- A position port follows its configuration: `was` tells whether it ran. -/
def Dev.posFollow (d : Dev) (i : Nat) (was : Bool) : Dev :=
  let on := d.psOn i
  if on && !was then d.enablePos i
  else if was && !on then d.disablePos i
  else d

/-- The shunt window of a stage whose gain changed takes its input against the new voltages at once (R107). -/
def Dev.gainFollow (d : Dev) (s old new : Nat) : Dev :=
  if heavyStage s && old != new then
    let v := d.cmp (32 + 2 * s)
    let x := (v.input - 131072) * 2 ^ new / 2 ^ old + 131072
    if h : 2 * s < 28 then (d.setCmp (32 + 2 * s) { v with input := x }).followCmp (.pc ⟨2 * s, h⟩) false false else d
  else d

/-- The trip inputs follow a change of their active levels. -/
def Dev.tripLevels (d : Dev) (old : Word) : Dev :=
  let new := d.word (F.WM_SW_IN_CFG.off 0 0)
  let d := d.each [0, 1, 2, 3] fun d n =>
    if getBits old (8 * n + 1) 1 = getBits new (8 * n + 1) 1 then d
    else
      let live := d.rd F.WM_SW_IN_STAT_live 0 ^^^ 2 ^ n
      let d := d.wr F.WM_SW_IN_STAT_live 0 live
      if bitOf live n then d.wr F.WM_SW_IN_STAT_seen 0 (d.rd F.WM_SW_IN_STAT_seen 0 ||| 2 ^ n) else d
  d.stopwork

/-- A seal request is taken: the device enters SEALING (R31). -/
def Dev.sealRequest (d : Dev) (m : Master) : Dev :=
  let d := (d.put F.DEV_SEAL_CTRL_seal 0 true).wr F.DEV_STATE_state 0 DevSt.sealing
  (d.onSys fun k => { k with sealBy := some m }).onSec fun k => { k with sealDue := false }

/-- Writes to the Device page. -/
def Dev.devWritten (d : Dev) (m : Master) (off : Nat) (w new : Word) : Dev :=
  let one := getBits w 0 1 == 1
  if off = F.DEV_SEAL_CTRL.off 0 0 then if one then d.sealRequest m else d
  else if off = F.PWR_SLEEP_CTRL.off 0 0 then if one then d.sleepRequest else d
  else if off = F.FAB_WRITE_ERR.off 0 0 then
    let d := d.setWord off new
    if d.flag F.FAB_WRITE_ERR_valid 0 then d else d.put F.FAB_WRITE_ERR_more 0 false
  else if off = F.PWR_FAB_CFG.off 0 0 then
    let d := d.setWord off new
    if d.rd F.PWR_FAB_CFG_mode 0 = 2 then d.onPw fun p => { p with mv := 720 + 10 * d.rd F.PWR_FAB_CFG_vset 0 } else d
  else d.setWord off new

/-- Writes to the TB and PG pages. -/
def Dev.tbWritten (d : Dev) (off : Nat) (w new : Word) : Dev :=
  if off = F.TB_SYNC_CFG.off 0 0 then (d.setWord off new).syncWritten
  else if F.TB_STG_RUN.hits 21 off then d.writeRun (F.TB_STG_RUN.inst off) (getBits w 0 1 == 1)
  else if F.TB_STG_COMMIT.hits 21 off then d.scCommit (F.TB_STG_COMMIT.inst off) w
  else if F.PG_SHD_A.hits 64 off then d.scShadow (F.PG_SHD_A.inst off) false w
  else if F.PG_SHD_B.hits 64 off then d.scShadow (F.PG_SHD_B.inst off) true w
  else if F.PG_STAT.hits 64 off then (d.setWord off new).noteBoth (F.PG_STAT.inst off)
  else d.setWord off new

/-- Writes to the PP page: a port follows its configuration at once (R62, R70, R77). -/
def Dev.ppWritten (d : Dev) (off : Nat) (new : Word) : Dev :=
  let d := d.setWord off new
  let p := F.PP_CFG.inst off
  if F.PP_CFG.hits 64 off then d.drivePort p else d

/-- Writes to the SH page. -/
def Dev.shWritten (d : Dev) (off : Nat) (w new : Word) : Dev :=
  if F.SH_CAL_CTRL.hits 21 off then
    let op := getBits w 0 2
    d.calStart (F.SH_CAL_CTRL.inst off) (if op = 1 then .offset else if op = 2 then .gain else .both)
  else if F.SH_CFG.hits 21 off then
    let s := F.SH_CFG.inst off
    let old := d.rd F.SH_CFG_gain s
    let d := d.setWord off new
    d.gainFollow s old (d.rd F.SH_CFG_gain s)
  else d.setWord off new

/-- Writes to the CV page. -/
def Dev.cvWritten (d : Dev) (off : Nat) (w new : Word) : Dev :=
  let c := (off - 0x20000) / 0x800
  let r := (off - 0x20000) % 0x800
  if F.CV_URG.hits 6 off then d.urge c w
  else
    let before := d.convSelects c
    let d := d.setWord off new
    if F.CV_CFG.hits 6 off || (Nat.ble 0x100 r && (r - 0x100) % 0x20 == 0) then
      (d.reclaim Kind.logicConv c before (d.convSelects c)).convFollow c
    else d

/-- A comparator's set-up was written. -/
def Dev.cmpWritten (d : Dev) (c : Cmp) (off : Nat) (new : Word) : Dev :=
  let lo := d.cmpEnabled c false
  let hi := d.cmpEnabled c true
  let latched := d.cmpLatches c
  (d.setWord off new).cmpChanged c lo hi latched

/-- The comparator whose registers lie at an offset of the WM page. -/
def wmUnit (off : Nat) : Option Cmp :=
  let m := off % 0x4000 / 32
  if h : m < 24 then some (.wm ⟨m, h⟩)
  else if h : 32 ≤ m ∧ m < 60 then some (.pc ⟨m - 32, by omega⟩)
  else if h : 64 ≤ m ∧ m < 72 then some (.ef ⟨m - 64, by omega⟩)
  else none

/-- The offset of a register within its comparator's block. -/
def wmPart (off : Nat) : Nat := off % 32

/-- Writes to the WM page. -/
def Dev.wmWritten (d : Dev) (off : Nat) (w new : Word) : Dev :=
  match wmUnit off with
  | some c =>
    if wmPart off < 8 then d.cmpWritten c off new
    else if wmPart off = 8 then d.clearLatch c (getBits w 0 1 == 1) (getBits w 1 1 == 1)
    else d.setWord off new
  | none =>
    if off = F.WM_SW_IN_CFG.off 0 0 then
      let old := d.word off
      (d.setWord off new).tripLevels old
    else if F.WM_SW_CTRL.hits 21 off then
      let k := F.WM_SW_CTRL.inst off
      let cmd := getBits w 0 2
      if cmd = 3 then d.release k else d.force k (cmd == 2)
    else (d.setWord off new).stopwork

/-- Writes to the PS page. -/
def Dev.psWritten (d : Dev) (off : Nat) (w new : Word) : Dev :=
  if off < 0x2E000 then
    let i := (off - 0x28000) / 0x1000
    let r := (off - 0x28000) % 0x1000
    let before := d.selects Kind.posPort i
    let was := d.psOn i
    if r = 0 ∨ r = 0x1C then
      let d := d.setWord off new
      let d := if r = 0 then d else d.onPos i fun v => { v with ssiDue := d.time + 80 * d.rd F.PS_SSI_RUN_period i }
      (d.reclaim Kind.posPort i before (d.posSelects i)).posFollow i was
    else if r = 0x34 then
      let d := d.setWord off new
      d.reclaim Kind.posPort i before (d.latchSelects i)
    else if r = 0x38 then (d.setWord off new).showObserver i
    else if r = 0x3C then d.preset i
    else if 0x100 ≤ r ∧ (r - 0x100) % 0x20 = 0 then
      let n := (r - 0x100) / 0x20
      let d := d.setWord off new
      if d.rd2 F.PS_CMP_CFG_enable i n = 0 then d.wr2 F.PS_CMP_STAT_armed i n 0 else d
    else if 0x100 ≤ r ∧ (r - 0x100) % 0x20 = 8 then d.armCompare i ((r - 0x100) / 0x20) w
    else d.setWord off new
  else if F.EP_CFG.hits 2 off then
    let j := F.EP_CFG.inst off
    let before := d.repSelects j
    let source := d.rd F.EP_CFG_source j
    let d := d.setWord off new
    let d := d.reclaim Kind.repeater j before (d.repSelects j)
    if !d.repOn j then d.put F.EP_STAT_running j false
    else if !d.flag F.EP_STAT_running j || source != d.rd F.EP_CFG_source j then d.startRepeater j
    else d.setRep j (d.repLevels j (d.rdI64 F.EP_CNT_LO F.EP_CNT_HI j) (d.rep j))
  else d.setWord off new

/-- Writes to the BE page. -/
def Dev.beWritten (d : Dev) (m : Master) (off : Nat) (w new : Word) : Dev :=
  if F.BE_LP_SWAP.hits 64 off then d.requestSwap (F.BE_LP_SWAP.inst off) (getBits w 0 1)
  else if F.BE_LP_SLACK_MIN.hits 64 off then if w.msb then d.restartSlack m (F.BE_LP_SLACK_MIN.inst off) else d
  else if off = F.BE_POOL_CTRL.off 0 0 then d.declareWrite (getBits w 4 4)
  else if F.BE_LP_BANK.hits 64 off then
    let l := F.BE_LP_BANK.inst off
    let d := d.setWord off new
    d.placeData Kind.loop l (d.rd F.BE_LP_BANK_base l / 2 ^ 17)
  else d.setWord off new

/-- Writes to the SC page. -/
def Dev.scWritten (d : Dev) (off : Nat) (w new : Word) : Dev :=
  if off = F.SC_WDOG_CFG.off 0 0 then (d.setWord off new).wdogRestart
  else if off = F.SC_WDOG.off 0 0 then d.serviceWdog (BitVec.ofNat 32 (getBits w 0 16))
  else if off = F.SC_FW.off 0 0 then if getBits w 0 1 = 1 then d.fwReady else d
  else if off = F.SC_VQ_VERDICT.off 0 0 then d.verdict (getBits w 0 2) (getBits w 4 12) (getBits w 16 16)
  else if F.SC_ABS_CFG.hits 21 off then
    let s := F.SC_ABS_CFG.inst off
    let d := d.setWord off new
    if d.flag F.TB_STG_RUN_run s then if d.flag F.SC_ABS_CFG_enable s then d.absStart s else d.absStop s else d
  else if F.SC_ABS_CTRL.hits 21 off then d.absCommand (F.SC_ABS_CTRL.inst off) (getBits w 0 2)
  else if off = F.SC_CH_CFG.off 0 0 ∨ off = F.SC_CH_IN.off 0 0 then (d.setWord off new).pilotStart
  else d.setWord off new

/-- Writes to the MB page. -/
def Dev.mbWritten (d : Dev) (off : Nat) (w new : Word) : Dev :=
  if F.MB_BANK_CFG.hits 16 off then
    let b := F.MB_BANK_CFG.inst off
    let d := d.setWord off new
    let o := d.rd F.MB_BANK_CFG_owner b
    (d.wr F.MB_BANK_CTRL_owner b o).bankClaim b
  else if F.MB_BANK_CTRL.hits 16 off then d.handover (F.MB_BANK_CTRL.inst off) (getBits w 0 3)
  else if off = F.MB_CONF_CTRL.off 0 0 then
    if getBits w 0 1 = 1 then d.each (List.range 17) fun d m => d.wr F.MB_CONF m 0 else d
  else d.setWord off new

/-- Writes to the HI page. -/
def Dev.hiWritten (d : Dev) (m : Master) (off : Nat) (w new : Word) : Dev :=
  if F.HI_QP_CTRL.hits 64 off then
    let q := F.HI_QP_CTRL.inst off
    if getBits w 0 1 = 1 then d.enableQp m q else d.disableQp q
  else if F.HI_QP_CFG.hits 64 off then
    let q := F.HI_QP_CFG.inst off
    let before := d.qpSelects q
    let d := d.setWord off new
    d.reclaim Kind.queue q before (d.qpSelects q)
  else if F.HI_WIN_CFG.hits 32 off then (d.setWord off new).windowClosed (F.HI_WIN_CFG.inst off)
  else d.setWord off new

/-- Writes to the CN page. -/
def Dev.cnWritten (d : Dev) (m : Master) (off : Nat) (w new : Word) : Dev :=
  if F.CN_CTRL.hits 8 off then d.canCommand m (F.CN_CTRL.inst off) (getBits w 0 2)
  else if F.CN_CFG.hits 8 off then
    let c := F.CN_CFG.inst off
    let was := d.flag F.CN_CFG_enable c
    let tt := d.flag F.CN_CFG_tt_en c
    let d := d.setWord off new
    let on := d.flag F.CN_CFG_enable c
    if on && !was then d.canEnable c
    else if was && !on then d.canDisable c
    else if on && tt != d.flag F.CN_CFG_tt_en c then d.ttStart c
    else d
  else if F.CN_TT_CFG.hits 8 off then (d.setWord off new).ttCheck (F.CN_TT_CFG.inst off)
  else if F.CN_TT_STAT.hits 8 off then (d.setWord off new).ttCheck (F.CN_TT_STAT.inst off)
  else d.setWord off new

/-- Writes to the FL page. -/
def Dev.flWritten (d : Dev) (off : Nat) (new : Word) : Dev :=
  let l := (off - 0x98000) / 64
  if F.FL_CFG.hits 256 off then
    let before := d.flowSelects l
    let was := d.flag F.FL_CFG_enable l
    let d := d.setWord off new
    let now := d.time
    let d := if d.flag F.FL_CFG_enable l && !was then d.setFlow l { d.flow l with ageFrom := now } else d
    d.reclaim Kind.flow l before (d.flowSelects l)
  else if F.FL_SC_ADDR.hits 256 off then
    let d := d.setWord off new
    d.placeData Kind.flow l (d.rd F.FL_SC_ADDR_addr l / 0x80000)
  else d.setWord off new

/-- Writes to the FLT page. -/
def Dev.fltWritten (d : Dev) (m : Master) (off : Nat) (w new : Word) : Dev :=
  if off = F.FLT_ACT.off 0 0 then
    if getBits w 0 2 = 1 then d.actFence (getBits w 8 8) (getBits w 16 8) else d.actSafe (getBits w 8 8) (getBits w 16 8)
  else if F.FLT_SEL.hits 3 off then d.captureSlot m (F.FLT_SEL.inst off) (getBits w 0 10)
  else d.setWord off new

/-- A write that passed its checks takes effect: the register is stored, and what it commands starts. -/
def Dev.store (d : Dev) (m : Master) (off : Nat) (w : Word) : Dev :=
  if inVectors off then if inMsix off then d.writeMsix ((off - 0x8A000) / 4) w else d
  else if inTable off then d.setLt (d.tableOffset m off) w
  else match findReg off with
    | none => d
    | some r =>
      let new := mergeWord r (d.word off) w
      let page := off / 0x4000
      if page = 0 then d.devWritten m off w new
      else if page = 4 ∨ page = 5 then d.tbWritten off w new
      else if page = 6 then d.ppWritten off new
      else if page = 7 then d.shWritten off w new
      else if page = 8 then d.cvWritten off w new
      else if page = 9 then d.wmWritten off w new
      else if page = 10 ∨ page = 11 then d.psWritten off w new
      else if 12 ≤ page ∧ page < 16 then d.beWritten m off w new
      else if page = 32 then d.scWritten off w new
      else if page = 33 then d.mbWritten off w new
      else if page = 34 then d.hiWritten m off w new
      else if page = 36 ∨ page = 37 then d.cnWritten m off w new
      else if page = 38 then d.flWritten off new
      else if page = 42 then d.fltWritten m off w new
      else d.setWord off new

/-- One word is written: rejected, or stored. -/
def Dev.writeWord (d : Dev) (m : Master) (off : Nat) (w : Word) : Dev :=
  match d.writeReason m off false w with
  | some why => d.reject m off why w
  | none => d.store m off w

/-- A write of 1, 2, 4 or 8 bytes (R23, R25). A write narrower than a word, or off its alignment, is rejected. The host writes an
aligned 64-bit value at one instant or not at all, the low half examined first and the high half as it meets the low half stored (DEDUCED,
log entry 17); any other 8-byte write is two writes. -/
def Dev.busWrite (d : Dev) (m : Master) (off bytes : Nat) (data : DWord) : Dev :=
  let lo := data.extractLsb' 0 32
  let hi := data.extractLsb' 32 32
  if bytes = 8 ∧ off % 4 = 0 then
    if m = .host ∧ off % 8 = 0 then
      match d.writeReason m off false lo with
      | some why => d.reject m off why lo
      | none =>
        match (d.store m off lo).writeReason m (off + 4) false hi with
        | some why => d.reject m (off + 4) why hi
        | none => (d.store m off lo).store m (off + 4) hi
    else (d.writeWord m off lo).writeWord m (off + 4) hi
  else if bytes = 4 ∧ off % 4 = 0 then d.writeWord m off lo
  else
    let w := BitVec.ofNat 32 (data.toNat % 2 ^ (8 * min bytes 4) * 2 ^ (8 * (off % 4)))
    match d.writeReason m (off / 4 * 4) true w with
    | some why => d.reject m off why w
    | none => d

/-! ### Reading (R21, R24, R25) -/

/-- The state of the selected CAN key slot (SEC_KEY_STAT), and its fingerprint (R26). -/
def Dev.keySlot (d : Dev) : KeyT := Tbl.get (fun _ => {}) d.sec.keys (d.rd F.SEC_KEY_SEL_slot 0)
def Dev.fingerprint (d : Dev) (i : Nat) : Word :=
  match d.keySlot.key with
  | none => 0
  | some k => byteWord fun j => (kmac k [] "XV6400 FP" 32).getD (4 * i + j) 0

/-- The age of the oldest sector of the layout in days (IMS_REFRESH). -/
def Dev.oldestDays (d : Dev) : Nat :=
  let ages := (List.range flashSectors).map fun n => d.calendar - Tbl.get (fun _ => 0) d.sec.sectorAt n
  min (ages.foldl max 0 / 86400) 65535

/-- Does the service UART answer (R364, R372)? -/
def Dev.uartAnswers (d : Dev) : Bool :=
  let s := d.devState
  if d.fenced Kind.imset 0 then false
  else if d.rd F.IMS_STAT_state 0 = 3 then true
  else if s = DevSt.sealed ∨ s = DevSt.safe then d.flag F.SEC_CFG_uart_sealed 0
  else true

/-- What a register reads: its stored word, with the fields that follow time, position or a selection. -/
def Dev.view (d : Dev) (off : Nat) : Word :=
  let w := d.word off
  if off = F.TB_TIME_LO.off 0 0 then lowWord d.time
  else if off = F.TB_TIME_HI.off 0 0 then highWord d.time
  else if off = F.DEV_CLAIM_HOLDER.off 0 0 then d.claimView
  else if F.CV_STAT.hits 6 off then
    let c := F.CV_STAT.inst off
    putBits w 1 1 (b2n ((d.conv c).running.isSome || !(d.newTriggers c).isEmpty))
  else if F.WM_EF_STAT.hits 8 off then putBits w 4 1 (b2n (d.blanked (F.WM_EF_STAT.inst off)))
  else if F.SC_TM_STAT.hits 2 off then
    let fresh := match (d.tmOf (F.SC_TM_STAT.inst off)).speedAt with
      | some t => Nat.ble (d.time - t) 80000
      | none => false
    putBits w 13 1 (b2n fresh)
  else if F.SC_DR_SPEED.hits 6 off then d.drSpeed (F.SC_DR_SPEED.inst off)
  else if off = F.SC_STAT.off 0 0 then putBits w 16 16 d.graceLeft
  else if off = F.SC_VQ_SRC.off 0 0 then putBits w 16 14 d.vqLeft
  else if F.SC_ABS_LEFT.hits 21 off then putBits w 0 16 (d.absLeft (F.SC_ABS_LEFT.inst off))
  else if off = F.SC_ABS_STAT.off 0 0 then
    putBits w 0 21 ((stages.filter (d.flag F.SC_ABS_LEFT_expired)).foldl (fun n s => n + 2 ^ s) 0)
  else if F.CN_TT_STAT.hits 8 off then
    let c := F.CN_TT_STAT.inst off
    if d.ttState c = ttOff then w else putBits w 16 16 (min (d.cycleTime c d.time) 65535)
  else if off = F.SEC_CTR.off 0 0 then putBits w 0 10 (d.counter (d.rd F.SEC_CTR_SEL_counter 0))
  else if off = F.SEC_KEY_STAT.off 0 0 then putBits (putBits w 0 1 (b2n d.keySlot.key.isSome)) 16 16 (min d.keySlot.loads 65535)
  else if F.SEC_KEY_FP.hits 4 off then d.fingerprint (F.SEC_KEY_FP.inst off)
  else if off = F.IMS_REFRESH.off 0 0 then putBits w 0 16 d.oldestDays
  else if off = F.IMS_UART.off 0 0 then putBits w 0 1 (b2n d.uartAnswers)
  else if off = F.FLT_SAFE.off 0 0 then
    let held := d.devState == DevSt.boot || d.devState == DevSt.safe
    putBits (putBits w 1 1 (b2n held)) 2 1 (b2n (!held))
  else w

/-- What a master reads at an aligned offset (R21). -/
def Dev.readWord (d : Dev) (m : Master) (off : Nat) : Word :=
  if inMsix off then d.msixWord ((off - 0x8A000) / 4)
  else if inVectors off then
    BitVec.ofNat 32 (((List.range 32).filter fun k => Tbl.get (fun _ => false) d.hi.pba ((off - 0x8A800) / 4 * 32 + k)).foldl
      (fun n k => n + 2 ^ k) 0)
  else if inTable off then
    let o := d.tableOffset m off
    if 0xC0000 ≤ o ∨ (0x74C00 ≤ o ∧ o < 0x78000) then 0 else d.lt o
  else if (findReg off).isNone then 0
  else d.view off

/-- The low halves of the 64-bit values. -/
def lowHalves : List Fd :=
  [F.PWR_CAL_LO, F.THM_FENCED_LO, F.TB_TIME_LO, F.TB_GT_OFFSET_LO, F.TB_EPOCH_LO, F.TB_STG_UPD_LO, F.SH_STAMP_A_LO, F.SH_STAMP_B_LO,
   F.WM_EF_RISE_LO, F.WM_EF_FALL_LO, F.WM_SW_TIME_LO, F.PS_PRESET_LO, F.PS_CNT_LO, F.PS_IDX_LO, F.PS_IDX_TIME_LO,
   F.PS_EDGE_TIME_LO] ++
  [F.PS_SSI_RAW_LO, F.PS_OBS_POS_LO, F.PS_LAT_STAMP_LO, F.PS_CMP_LO, F.PS_CMP_TIME_LO, F.EP_CNT_LO, F.BE_ENG_LOOPS_LO,
   F.BE_ENG_DEAD_TIME_LO, F.BE_LP_DONE_LO, F.SC_LAST_TIME_LO, F.SC_WINDOWS_LO, F.SC_VQ_ARRIVE_LO, F.HI_WIN_LO, F.HI_QP_SQ_LO,
   F.HI_QP_CQ_LO, F.HI_QP_SEQ_LO] ++
  [F.CN_TT_GT_LO, F.FL_FV_TX_LO, F.FL_FV_RX_LO, F.FL_LAST_LO, F.FLT_HEAD_LO, F.FLT_SAFE_TIME_LO]

/-- Is an offset the low half of a 64-bit value (R25)? -/
def isLowHalf (off : Nat) : Bool :=
  match findReg off with
  | some r => lowHalves.any fun f => f.base == r.base
  | none => false

/-- The holding register of a master (R25). -/
def Dev.holding (d : Dev) (m : Master) : Holding := Tbl.get (fun _ => {}) d.sys.holding m.code

/-- What a read by a master returns: a tagged high half from its holding register, anything else live (R25). -/
def Dev.busRead (d : Dev) (m : Master) (off : Nat) : Word :=
  if (d.holding m).tag = some off then (d.holding m).value else d.readWord m off

/-! ### Commands -/

/-- REGISTER_WRITE: a master writes 1, 2, 4 or 8 bytes into the SETUP window; a write of the safety controller's is the release of a
store of its firmware (R269; log entry 70). -/
def execRegisterWrite (t : Nat) (m : Master) (off bytes : Nat) (data : DWord) (s : State) : Host.Outcome State Fault Refusal :=
  fromMaster m t s fun d => d.busWrite m off bytes data

/-- A read of the low half of a 64-bit value holds the high half of the same instant (R25). -/
def Dev.holdHigh (d : Dev) (m : Master) (off : Nat) : Dev :=
  if isLowHalf off then
    let h : Holding := { tag := some (off + 4), value := d.readWord m (off + 4) }
    d.onSys fun k => { k with holding := Tbl.set (fun _ => {}) k.holding m.code h }
  else d

/-- LOW_HALF_READ_CAPTURE: a master reads the low half of a 64-bit value. -/
def execLowHalfReadCapture (t : Nat) (m : Master) (off : Nat) (s : State) : Host.Outcome State Fault Refusal :=
  effect t s fun d => if d.reaches m then d.holdHigh m off else d

/-- SEAL_REQUEST: a master writes 1 to DEV_SEAL_CTRL.seal. -/
def execSealRequest (t : Nat) (m : Master) (s : State) : Host.Outcome State Fault Refusal :=
  fromMaster m t s fun d => d.busWrite m 0x14 4 1

end Sys2Proof.Machine
end

