-- ==== Sys2Proof/Machine/Management.lean ====
section
/-! DEFINITION. Management descriptors on QP0 and frames on the service UART (chapter 16). -/

namespace Sys2Proof.Machine

/-! ### Sessions and authorisation (R356, R357) -/

/-- What serving a management descriptor gives: the device, the status word, the detail, the output. -/
structure Served where
  dev : Dev
  st : Nat := Code.OK
  detail : Nat := 0
  out : List Byte := []

/-- The live session of a channel. -/
def Dev.liveSession (d : Dev) (uart : Bool) : Option Session :=
  (d.session uart).bind fun s => if d.time < s.ends then some s else none

/-- The tag of an authorised descriptor: `counter` and `rest` are the bytes of its buffer's counter and data (R357). -/
def requestTag (key : List Byte) (x : Descr) (counter rest : List Byte) : List Byte :=
  let ws := descrWords x
  kmac key ((ws.take 4 ++ ws.drop 6).flatMap wordBytes ++ counter ++ rest) "XV6400 AUTH" 32

/-- The checks of a privileged descriptor, in their order (R357). -/
def Dev.authorise (d : Dev) (uart : Bool) (x : Descr) (buf : List Byte) : Option Nat :=
  if d.fenced Kind.crypto 0 then some Code.FENCED
  else match d.liveSession uart with
    | none => some Code.NO_SESSION
    | some s =>
      if numAt buf 8 4 ≠ s.number then some Code.NO_SESSION
      else if numAt buf 0 8 ≤ s.counter then some Code.STALE
      else if requestTag s.key x (buf.take 8) (buf.drop 64) ≠ (buf.drop 12).take 32 then some Code.AUTH
      else none

/-- A privileged descriptor: once its checks pass, the session's counter moves, whatever follows; the effect gets the counter, the
session's key and the data. -/
def Dev.privileged (d : Dev) (uart : Bool) (x : Descr) (buf : List Byte) (f : Dev → Nat → List Byte → List Byte → Served) : Served :=
  match d.authorise uart x buf, d.session uart with
  | some st, _ => { dev := d, st := st }
  | none, none => { dev := d, st := Code.NO_SESSION }
  | none, some s =>
    let c := numAt buf 0 8
    f (d.setSession uart (some { s with counter := c })) c s.key (buf.drop 64)

/-- An effect of a signature, which needs the crypto engine (R372). -/
def Dev.signing (d : Dev) (f : Dev → Served) : Served := if d.fenced Kind.crypto 0 then { dev := d, st := Code.FENCED } else f d

/-! ### The opcodes (R358) -/

/-- UNSEAL (R33): on QP0 only. -/
def Dev.serveUnseal (d : Dev) (uart : Bool) (x : Descr) (buf : List Byte) : Served :=
  if uart then { dev := d, st := Code.RANGE_VALUE }
  else d.privileged uart x buf fun d _ _ _ =>
    if d.isSealed = false then { dev := d, st := Code.NOT_SEALED }
    else if d.anyRun ∨ d.sequencersRest = false then { dev := d, st := Code.NOT_STOPPED }
    else { dev := (d.unsealPool.unsealBanks.wr F.DEV_STATE_state 0 DevSt.setup).onSys fun k => { k with unsealedMark := true } }

/-- IDENTITY (R353). -/
def Dev.serveIdentity (d : Dev) : Served :=
  { dev := d, detail := 29856, out := identityKey ++ (List.range 29792).map Config.identityCert }

/-- The flags of an attestation record (R354). -/
def Dev.attestFlags (d : Dev) : Nat :=
  b2n d.isSealed + 2 * b2n d.sys.unsealedMark + 4 * b2n ([0, 1, 2].any d.onTrial) +
    8 * b2n (d.scMode == ScMode.simplexA || d.scMode == ScMode.simplexB) + 16 * b2n d.sec.chainOk

/-- The measurement of the image in use of a kind: 64 bytes, zero while none is. -/
def Dev.measurement (d : Dev) (kind : Nat) : List Byte :=
  ((Tbl.get (fun _ => []) d.sec.measured kind) ++ List.replicate 64 0).take 64

/-- The attestation record for a nonce (R354). -/
def Dev.attestRecord (d : Dev) (nonce : List Byte) : List Byte :=
  numBytes 1 4 ++ wordBytes (d.word (F.DEV_ID.off 0 0)) ++ wordBytes (d.word (F.DEV_VERSION.off 0 0)) ++ numBytes d.boots 4 ++
    numBytes d.time 8 ++ (nonce ++ List.replicate 32 0).take 32 ++ idDigest ++ [0, 1, 2].flatMap d.measurement ++
    (List.range 16).flatMap (fun i => wordBytes (d.word (F.DEV_MEASURE.off i 0))) ++ numBytes d.attestFlags 4 ++
    numBytes (d.counter 3) 2 ++ numBytes 0 2 ++ (List.range 64).flatMap (fun c => numBytes (d.counter c) 2) ++
    numBytes d.sec.flashed 8 ++ numBytes d.newestTag 6 ++ numBytes 0 2 ++ (List.range 1568).map (Config.kemKey d.boots)

/-- ATTEST (R354). -/
def Dev.serveAttest (d : Dev) (buf : List Byte) : Served :=
  d.signing fun d =>
    let r := d.attestRecord (buf.take 32)
    { dev := d, detail := 51952, out := r ++ (List.range 49856).map (Config.identitySign r "XV6400 ATTEST") }

/-- SESSION_OPEN (R356). -/
def Dev.serveSessionOpen (d : Dev) (uart : Bool) (x : Descr) (buf : List Byte) : Served :=
  d.signing fun d =>
    let ct := buf.take 1568
    let here := idDigest ++ numBytes d.boots 4 ++ numBytes (b2n uart) 1
    match d.integratorKey with
    | none => { dev := d, st := Code.AUTH }
    | some key =>
      if Config.slhVerify key (ct ++ here ++ numBytes x.param1 2) "XV6400 SESSION" ((buf.drop 1568).take 29792) then
        let n := d.sec.opened + 1
        let ks := kmac (Config.kemDecaps d.boots ct) (here ++ numBytes n 4) "XV6400 SESSION" 32
        let d := d.onSec fun k => { k with opened := n }
        { dev := d.setSession uart (some { number := n, key := ks, ends := d.time + 48000000000 * x.param1 }), detail := n }
      else { dev := d, st := Code.AUTH }

/-- SESSION_CLOSE (R356). -/
def Dev.serveSessionClose (d : Dev) (uart : Bool) : Served := { dev := d.setSession uart none }

/-- A key goes into an integrator slot (R355). `blown` 0 tells that the burn failed its read-back. -/
def Dev.enrol (d : Dev) (slot : Nat) (key : List Byte) (blown : Nat) : Served :=
  if key.length < 64 then { dev := d, st := Code.LENGTH }
  else if (d.enrolled slot).isSome then { dev := d, st := Code.OTP_FULL }
  else if blown = 0 then { dev := d.put F.SEC_STAT_otp_err 0 true, st := (Code.ofFree (Config.imsetCode 4)) }
  else { dev := (d.onSec fun k => { k with enrolled := Tbl.set (fun _ => none) k.enrolled slot (some (key.take 64)) }).showSec }

/-- ENROLL (R355): open only to slot 0, while no slot is enrolled. -/
def Dev.serveEnroll (d : Dev) (uart : Bool) (x : Descr) (buf : List Byte) (blown : Nat) : Served :=
  if d.enrolsFirst x.target then d.enrol 0 buf blown
  else d.privileged uart x buf fun d _ _ key => d.enrol x.target key blown

/-- Raise a counter, and answer the burn's outcome (R350). -/
def Dev.serveRaise (d : Dev) (c v blown : Nat) : Served :=
  let r := d.raise c v blown
  { dev := r.1, st := if r.2 then Code.OK else (Code.ofFree (Config.imsetCode 4)), detail := r.1.counter c }

/-- REVOKE (R355). -/
def Dev.serveRevoke (d : Dev) (uart : Bool) (x : Descr) (buf : List Byte) (blown : Nat) : Served :=
  d.privileged uart x buf fun d _ _ _ =>
    let k := d.counter 3
    if 3 ≤ k then { dev := d, st := Code.OTP_FULL }
    else if (d.enrolled (k + 1)).isNone then { dev := d, st := Code.RANGE_VALUE }
    else d.serveRaise 3 (k + 1) blown

/-- A completion where both slots of a kind are in use (log entry 48). -/
def Dev.noSlot (d : Dev) : Served := { dev := d, st := (Code.ofFree (Config.imsetCode 5)) }

/-- UPDATE_WRITE (R362): an image that is written over has not been active. -/
def Dev.serveUpdateWrite (d : Dev) (x : Descr) (buf : List Byte) (err : Bool) : Served :=
  match d.spareSlot x.target with
  | none => d.noSlot
  | some b =>
    if slotSize x.target < x.param2 + x.length then { dev := d, st := Code.LENGTH }
    else
      let v := d.image x.target
      let d := d.setImage x.target (if b then { v with beenB := false } else { v with beenA := false })
      { dev := (d.flashError err).writeFlash (slotBase x.target b + x.param2) buf, detail := buf.length }

/-- The slot that UPDATE_VERIFY and UPDATE_ACTIVATE check: the one not in use. -/
def Dev.otherSlot (d : Dev) (kind : Nat) : Option Bool := if d.onTrial kind then none else some (!(d.image kind).active)

/-- UPDATE_VERIFY (R362). -/
def Dev.serveUpdateVerify (d : Dev) (x : Descr) : Served :=
  d.signing fun d => match d.otherSlot x.target with
    | none => d.noSlot
    | some b =>
      let st := d.verifyImage x.target b
      { dev := d.noteOther x.target b st, st := st, detail := d.imgVersion x.target b }

/-- A trial is confirmed (R363): its slot becomes active, the kind's counter follows its version. -/
def Dev.confirmTrial (d : Dev) (kind blown : Nat) (err : Bool) : Served :=
  if d.onTrial kind = false then { dev := d, st := Code.RANGE_VALUE }
  else
    let v := d.image kind
    let b := !v.active
    let d := (d.flashError err).setImage kind { v with active := b, beenA := v.beenA || !b, beenB := v.beenB || b }
    let d := d.put F.SEC_IMG_trial kind false
    { d.serveRaise kind (d.rd F.SEC_IMG_version kind) blown with detail := 0 }

/-- A slot is marked as trial for the next boot, once it verifies (R362). -/
def Dev.markTrial (d : Dev) (kind : Nat) (err : Bool) : Served :=
  match d.otherSlot kind with
  | none => d.noSlot
  | some b =>
    let st := d.verifyImage kind b
    let d := d.noteOther kind b st
    if st = Code.OK then
      { dev := ((d.flashError err).setImage kind { d.image kind with trial := some b }).put F.SEC_IMG_pending kind true }
    else { dev := d, st := st }

/-- UPDATE_ACTIVATE (R362, R363): param1 bit 0 confirm, bit 1 reset, 1 ms later. -/
def Dev.serveUpdateActivate (d : Dev) (uart : Bool) (x : Descr) (buf : List Byte) (blown : Nat) (err : Bool) : Served :=
  d.privileged uart x buf fun d _ _ _ =>
    if bitOf x.param1 1 ∧ d.anyRun then { dev := d, st := Code.NOT_STOPPED }
    else
      let r := if bitOf x.param1 0 then d.confirmTrial x.target blown err else d.markTrial x.target err
      if r.st = Code.OK ∧ bitOf x.param1 1 = true then
        { r with dev := r.dev.onSec fun k => { k with resetAt := some (d.time + 800000) } }
      else r

/-- What flash holds of a slot of the key store: whether it has a key, how often it was loaded, the key wrapped under the device storage
key (R346, R359; log entry 51). -/
def KeyT.bytes (v : KeyT) (slot : Nat) : List Byte :=
  numBytes (b2n v.key.isSome) 2 ++ numBytes v.loads 2 ++
    match v.key with
    | some k => (List.range 40).map (Config.keyWrap Config.storageKey slot k)
    | none => List.replicate 40 0

/-- Replace a slot of the key store: in flash, and the key that Imset has of it for the crypto engine. -/
def Dev.setKey (d : Dev) (slot : Nat) (v : KeyT) (err : Bool) : Dev :=
  ((d.flashError err).onSec fun k => { k with keys := Tbl.set (fun _ => {}) k.keys slot v }).writeFlash (0x920000 + 256 * slot) (v.bytes slot)

/-- A slot of the key store. -/
def Dev.keySlotOf (d : Dev) (slot : Nat) : KeyT := Tbl.get (fun _ => {}) d.sec.keys slot

/-- KEY_LOAD (R359). -/
def Dev.serveKeyLoad (d : Dev) (uart : Bool) (x : Descr) (buf : List Byte) (err : Bool) : Served :=
  d.privileged uart x buf fun d c ks rest =>
    match gcmOpen ks (numBytes c 8 ++ numBytes x.target 2 ++ numBytes 0 2) (numBytes x.target 2) (rest.take 48) with
    | none => { dev := d, st := Code.AUTH }
    | some key => { dev := d.setKey x.target { key := some key, loads := min ((d.keySlotOf x.target).loads + 1) 65535 } err }

/-- KEY_ERASE (R359). -/
def Dev.serveKeyErase (d : Dev) (uart : Bool) (x : Descr) (buf : List Byte) (err : Bool) : Served :=
  d.privileged uart x buf fun d _ _ _ => { dev := d.setKey x.target { d.keySlotOf x.target with key := none } err }

/-- RAISE_COUNTER (R350). -/
def Dev.serveRaiseCounter (d : Dev) (uart : Bool) (x : Descr) (buf : List Byte) (blown : Nat) : Served :=
  d.privileged uart x buf fun d _ _ _ =>
    if 1023 < x.param1 then { dev := d, st := Code.OTP_FULL, detail := d.counter x.target }
    else d.serveRaise x.target x.param1 blown

/-- LEDGER_READ (R365): entries of the flash ledger from an entry number on, as many as the buffer holds. -/
def Dev.serveLedgerRead (d : Dev) (x : Descr) : Served :=
  let d := d.checkChain
  let es := (d.sec.ledger.filter fun e => Nat.ble x.param1 (e.number % 2 ^ 32)).take (x.length / 32)
  { dev := d, detail := es.length, out := es.flatMap fun e => e.words.flatMap wordBytes }

/-- The bytes of a lifetime record (R366). -/
def LifeRec.bytes (r : LifeRec) : List Byte :=
  numBytes r.calendar 8 ++ numBytes r.hours 4 ++ numBytes r.boots 4 ++ r.zones.flatMap (numBytes · 2) ++
    r.pods.flatMap (numBytes · 2) ++ numBytes r.transients 4 ++ List.replicate 12 0

/-- LIFETIME_READ (R366): records from an index on, the oldest held first. -/
def Dev.serveLifetimeRead (d : Dev) (x : Descr) : Served :=
  let rs := (d.sec.life.drop x.param1).take (x.length / 64)
  { dev := d, detail := rs.length, out := rs.flatMap fun r => r.2.bytes }

/-- Serve a management descriptor on a channel. `blown` fuses read back as blown, where it burns any; `err`: a flash write failed
at first (R368). -/
def Dev.serve (d : Dev) (uart : Bool) (x : Descr) (buf : List Byte) (blown : Nat) (err : Bool) : Served :=
  match x.opcode with
  | 0x40 => d.serveUnseal uart x buf
  | 0x41 => d.serveIdentity
  | 0x42 => d.serveAttest buf
  | 0x43 => d.serveSessionOpen uart x buf
  | 0x44 => d.serveSessionClose uart
  | 0x45 => d.serveEnroll uart x buf blown
  | 0x46 => d.serveRevoke uart x buf blown
  | 0x47 => d.serveUpdateWrite x buf err
  | 0x48 => d.serveUpdateVerify x
  | 0x49 => d.serveUpdateActivate uart x buf blown err
  | 0x4A => d.serveKeyLoad uart x buf err
  | 0x4B => d.serveKeyErase uart x buf err
  | 0x4C => d.serveRaiseCounter uart x buf blown
  | 0x4D => d.serveLedgerRead x
  | 0x4E => d.serveLifetimeRead x
  | _ => { dev := d }



/-! ### On the service UART (R364) -/

/-- The descriptor that stands in the first 32 bytes of a payload (R308). -/
def descrOf (p : List Byte) : Descr :=
  { opcode := numAt p 0 1, flags := numAt p 1 1, target := numAt p 2 2, length := numAt p 4 2, sequence := numAt p 6 2,
    deadline := numAt p 8 4, param1 := numAt p 12 4, address := numAt p 16 8, param2 := numAt p 24 8 }

/-- How many bytes of input a descriptor takes from its buffer: the nonce of ATTEST, the whole buffer of the others that read. -/
def inputBytes (x : Descr) : Nat := if x.opcode = Op.ATTEST then 32 else (hostReads x).getD 0

/-- The checks of a descriptor from the UART: those of R310, with the payload in place of host memory. -/
def Dev.checkUart (d : Dev) (x : Descr) (payload : Nat) : Option Nat :=
  if fieldsOk 6 x = false then some Code.RANGE_VALUE
  else if isTimed x = true ∧ d.passed x.deadline = true then some Code.DEADLINE
  else if d.targetFenced 0 x = true then some Code.FENCED
  else if x.length < d.leastBuffer x ∨ (0 < inputBytes x ∧ payload < x.address + inputBytes x) then some Code.LENGTH
  else if d.rangesOk x = false then some Code.RANGE_VALUE
  else none

/-- A request on the UART is served and answered. -/
def Dev.answerUart (d : Dev) (p : List Byte) (blown : Nat) (err : Bool) : Dev :=
  let x := descrOf p
  let r : Served := match d.checkUart x p.length with
    | some st => { dev := d, st := st }
    | none => d.serve true x ((p.drop x.address).take (inputBytes x)) blown err
  let ws := completionWords x.sequence r.st 0 0 x.opcode false (BitVec.ofNat 32 r.detail) d.unit1024
  r.dev.onSec fun k => { k with uart := k.uart ++ [{ completion := ws, data := r.out }] }

/-- One byte enters a CRC-32 of the polynomial of IEEE 802.3, its lowest bit first. -/
def crc32Byte (c : Word) (b : Byte) : Word :=
  (List.range 8).foldl (fun c _ => if c.getLsbD 0 then (c >>> 1) ^^^ 0xEDB88320#32 else c >>> 1) (c ^^^ b.setWidth 32)

/-- The CRC-32 of a list of bytes, from all ones and complemented, as IEEE 802.3 has it (log entry 54). -/
def crc32 (bs : List Byte) : Word := ~~~(bs.foldl crc32Byte 0xFFFFFFFF#32)

/-- The CRC of a frame on the service UART: over its length and its payload (R364). -/
def frameCrc (payload : List Byte) : Word := crc32 (numBytes payload.length 2 ++ payload)

/-- The bytes of a frame on the service UART (R364). -/
def uartBytes (payload : List Byte) : List Byte :=
  [0xA5#8] ++ numBytes payload.length 2 ++ payload ++ wordBytes (frameCrc payload)

/-- The bytes that SVC_TX sends for an answer. -/
def UartOut.bytes (u : UartOut) : List Byte := uartBytes (u.completion.flatMap wordBytes ++ u.data)

/-- Bits in a second on SVC_TX and SVC_RX, one start bit, 8 data bits and one stop bit for each byte (R364). -/
def Dev.uartRate (d : Dev) : Nat :=
  match d.rd F.SEC_CFG_uart_rate 0 with
  | 1 => 115200
  | 2 => 921600
  | _ => 3000000

/-! ### In the order of arrival (R358) -/

/-- The descriptors received on QP0 that are not served yet. -/
def Dev.unserved (d : Dev) : List Nat := ((d.qp 0).items.filter fun it => it.phase == .received).map Item.index

/-- The frames that wait on the UART are served as far as no descriptor received on QP0 before them is left (R358). -/
def Dev.serveUart (d : Dev) : List UartReq → Dev
  | [] => d.onSec fun k => { k with uartIn := [] }
  | r :: rs =>
    if r.behind.any d.unserved.contains then d.onSec fun k => { k with uartIn := r :: rs }
    else Dev.serveUart (d.answerUart r.payload r.blown r.err) rs

/-- What waits on the UART gets its turn. -/
def Dev.uartTurn (d : Dev) : Dev := d.serveUart d.sec.uartIn

/-- The descriptor at ring index i of QP0, of this opcode, is served; output goes to its buffer (R358). -/
def Dev.manage (d : Dev) (i op : Nat) (f : Dev → Descr → Served) : Dev :=
  (d.uartTurn.startItem 0 i op .received fun d x =>
    if d.targetFenced 0 x then d.finish 0 i Code.FENCED
    else
      let r := f d x
      let d := if r.out.isEmpty then r.dev else r.dev.emit (.bytes x.address r.out)
      d.finish 0 i r.st false r.detail).uartTurn

/-! ### On QP0 -/

/-- UNSEAL; `buf` is the content of the buffer. -/
def execUnseal (t i : Nat) (buf : List Byte) (s : State) : Host.Outcome State Fault Refusal :=
  effect t s fun d => d.manage i Op.UNSEAL fun d x => d.serveUnseal false x (buf.take x.length)

/-- IDENTITY. -/
def execIdentity (t i : Nat) (s : State) : Host.Outcome State Fault Refusal :=
  effect t s fun d => d.manage i Op.IDENTITY fun d _ => d.serveIdentity

/-- ATTEST. -/
def execAttest (t i : Nat) (buf : List Byte) (s : State) : Host.Outcome State Fault Refusal :=
  effect t s fun d => d.manage i Op.ATTEST fun d _ => d.serveAttest buf

/-- SESSION_OPEN. -/
def execSessionOpen (t i : Nat) (buf : List Byte) (s : State) : Host.Outcome State Fault Refusal :=
  effect t s fun d => d.manage i Op.SESSION_OPEN fun d x => d.serveSessionOpen false x (buf.take x.length)

/-- SESSION_CLOSE. -/
def execSessionClose (t i : Nat) (s : State) : Host.Outcome State Fault Refusal :=
  effect t s fun d => d.manage i Op.SESSION_CLOSE fun d _ => d.serveSessionClose false

/-- ENROLL; `blown` is 0 where the burn fails its read-back. -/
def execEnroll (t i : Nat) (buf : List Byte) (blown : Nat) (s : State) : Host.Outcome State Fault Refusal :=
  effect t s fun d => d.manage i Op.ENROLL fun d x => d.serveEnroll false x (buf.take x.length) blown

/-- REVOKE; `blown` of the fuses burned read back as blown. -/
def execRevoke (t i : Nat) (buf : List Byte) (blown : Nat) (s : State) : Host.Outcome State Fault Refusal :=
  effect t s fun d => d.manage i Op.REVOKE fun d x => d.serveRevoke false x (buf.take x.length) blown

/-- UPDATE_WRITE; `err` tells that a flash write failed at first. -/
def execUpdateWrite (t i : Nat) (buf : List Byte) (err : Bool) (s : State) : Host.Outcome State Fault Refusal :=
  effect t s fun d => d.manage i Op.UPDATE_WRITE fun d x => d.serveUpdateWrite x (buf.take x.length) err

/-- UPDATE_VERIFY. -/
def execUpdateVerify (t i : Nat) (s : State) : Host.Outcome State Fault Refusal :=
  effect t s fun d => d.manage i Op.UPDATE_VERIFY fun d x => d.serveUpdateVerify x

/-- UPDATE_ACTIVATE. -/
def execUpdateActivate (t i : Nat) (buf : List Byte) (burn : BurnInput) (s : State) : Host.Outcome State Fault Refusal :=
  effect t s fun d =>
    d.manage i Op.UPDATE_ACTIVATE fun d x => d.serveUpdateActivate false x (buf.take x.length) burn.blown burn.err

/-- KEY_LOAD. -/
def execKeyLoad (t i : Nat) (buf : FlashInput) (s : State) : Host.Outcome State Fault Refusal :=
  effect t s fun d => d.manage i Op.KEY_LOAD fun d x => d.serveKeyLoad false x (buf.data.take x.length) buf.err

/-- KEY_ERASE. -/
def execKeyErase (t i : Nat) (buf : FlashInput) (s : State) : Host.Outcome State Fault Refusal :=
  effect t s fun d => d.manage i Op.KEY_ERASE fun d x => d.serveKeyErase false x (buf.data.take x.length) buf.err

/-- RAISE_COUNTER. -/
def execRaiseCounter (t i : Nat) (buf : List Byte) (blown : Nat) (s : State) : Host.Outcome State Fault Refusal :=
  effect t s fun d => d.manage i Op.RAISE_COUNTER fun d x => d.serveRaiseCounter false x (buf.take x.length) blown

/-- LEDGER_READ. -/
def execLedgerRead (t i : Nat) (s : State) : Host.Outcome State Fault Refusal :=
  effect t s fun d => d.manage i Op.LEDGER_READ fun d x => d.serveLedgerRead x

/-- LIFETIME_READ. -/
def execLifetimeRead (t i : Nat) (s : State) : Host.Outcome State Fault Refusal :=
  effect t s fun d => d.manage i Op.LIFETIME_READ fun d x => d.serveLifetimeRead x

/-- SESSION_EXPIRY: the lifetime of a channel's session ends. -/
def execSessionExpiry (t : Nat) (uart : Bool) (s : State) : Host.Outcome State Fault Refusal :=
  effect t s fun d => match d.session uart with
    | some k => if k.ends ≤ d.time then d.setSession uart none else d
    | none => d

/-- Is a frame discarded (R364): its CRC is bad, or its length field does not tell its payload; it is longer than 65,536 bytes; or it cannot
hold a descriptor (log entry 54)? -/
def badFrame (f : UartInput) (crc : Word) : Bool :=
  crc != frameCrc f.payload || f.length != f.payload.length || Nat.blt 65536 (f.payload.length + 7) || Nat.blt f.payload.length 32

/-- UART_FRAME: a frame arrives with this CRC. One that does not start with 0xA5 is none; a bad one is counted whether or not the UART
answers; a good one is served in the order of arrival. -/
def execUartFrame (t : Nat) (f : UartInput) (crc : Word) (blown : Nat) (err : Bool) (s : State) :
    Host.Outcome State Fault Refusal :=
  effect t s fun d =>
    if d.fenced Kind.imset 0 ∨ f.start ≠ 0xA5#8 then d
    else if badFrame f crc then d.bump F.IMS_UART_bad_frames 0
    else if d.uartAnswers = false then d
    else
      let r : UartReq := { payload := f.payload, blown := blown, err := err, behind := d.unserved }
      d.serveUart (d.sec.uartIn ++ [r])

end Sys2Proof.Machine
end

