-- ==== Sys2Proof/Machine/Imset.lean ====
section
/-! DEFINITION. What Imset does on its own (chapters 16 and 18): secure boot, the seal at boot, journals, ledger, lifetime records
and the refresh of flash. -/

namespace Sys2Proof.Machine

/-! ### Secure boot (R349, R351, R352) -/

/-- Imset reports something of its own. -/
def Dev.imsetReport (d : Dev) (n detail : Nat) : Dev := d.report Kind.imset 0 Cls.report (Code.ofFree (Config.imsetCode n)) detail

/-- The slot from which the image of a kind boots (R351, R363), and whether it is the trial slot: the trial slot where it verifies,
otherwise the active one, otherwise the other where its image has been active before. -/
def Dev.bootSlot (d : Dev) (kind : Nat) : Option (Bool × Bool) :=
  let v := d.image kind
  let good (b : Bool) : Bool := d.verifyImage kind b == Code.OK
  let plain : Option (Bool × Bool) :=
    if good v.active then some (v.active, false)
    else if (if v.active then v.beenA else v.beenB) && good (!v.active) then some (!v.active, false)
    else none
  match v.trial with
  | some b => if good b then some (b, true) else plain
  | none => plain

/-- The image of a kind is selected, measured and shown; the mark of a trial is dropped, and a trial that failed is reported. -/
def Dev.bootImage (d : Dev) (kind : Nat) : Dev :=
  let v := d.image kind
  let pick := d.bootSlot kind
  let failed := match v.trial, pick with
    | some _, some (_, true) => false
    | some _, _ => true
    | none, _ => false
  let d := if failed then d.imsetReport 2 kind else d
  match pick with
  | none => d.setImage kind { v with trial := none }
  | some (b, trial) =>
    let v := { v with trial := none }
    let v := if trial then v else { v with active := b, beenA := v.beenA || !b, beenB := v.beenB || b }
    let h := digest (d.signedPart kind b)
    let d := (d.setImage kind v).onSec fun k => { k with measured := Tbl.set (fun _ => []) k.measured kind h }
    let d := (d.put F.SEC_IMG_active kind b).put F.SEC_IMG_trial kind trial
    d.wr F.SEC_IMG_version kind (d.imgVersion kind b)

/-- The safety firmware is placed in B0. -/
def Dev.loadFirmware (d : Dev) (b : Bool) : Dev :=
  let bs := d.imgBytes 1 b 64 (d.imgLength 1 b)
  d.withMb { d.mb with mem := (bs.foldl (fun (x : Tbl Byte × Nat) v => (Tbl.set memReset x.1 x.2 v, x.2 + 1)) (d.mb.mem, 0)).1,
                       flips := d.mb.flips.filter fun e => Nat.ble bs.length (4 * e.1) }

/-- One word of a configuration is written as by Imset: false where it is rejected. `space` is 1 for a table offset (R349). -/
def Dev.configWord (d : Dev) (table : Bool) (off : Nat) (w : Word) : Dev × Bool :=
  if table then
    match (if off % 4 = 0 then d.tableReason .imset off w else some Reason.width) with
    | some why => (d.reject .imset (0x40000 + off % 0x40000) why w, false)
    | none => (d.setLt off w, true)
  else
    match (if off % 4 = 0 then d.writeReason .imset off false w else some Reason.width) with
    | some why => (d.reject .imset off why w, false)
    | none => (d.store .imset off w, true)

/-- The words of one block, from an offset on; the first rejected one ends it. -/
def Dev.configWords (d : Dev) (table : Bool) (off : Nat) : List Word → Dev × Bool
  | [] => (d, true)
  | w :: ws =>
    let r := d.configWord table off w
    if r.2 then Dev.configWords r.1 table (off + 4) ws else r

/-- The blocks of a configuration, in order; `fuel` bounds their number. A block cut short by the end of the payload is not
applied. -/
def Dev.configBlocks (d : Dev) : Nat → List Word → Dev × Bool
  | _, [] => (d, true)
  | fuel + 1, head :: count :: rest =>
    if rest.length < count.toNat then (d, false)
    else
      let r := d.configWords (head.getLsbD 31) (getBits head 0 31) (rest.take count.toNat)
      if r.2 then Dev.configBlocks r.1 fuel (rest.drop count.toNat) else r
  | _, _ => (d, false)

/-- The words of a payload. -/
def payloadWords (bs : List Byte) : List Word := (List.range (bs.length / 4)).map fun k => byteWord fun j => bs.getD (4 * k + j) 0

/-- Boot completes without a seal: SETUP, unless a class D fault has entered SAFE meanwhile (R30, R374). -/
def Dev.bootToSetup (d : Dev) : Dev := if d.devState = DevSt.boot then d.wr F.DEV_STATE_state 0 DevSt.setup else d

/-- The configuration in a slot is applied; a rejected write is reported, and the device enters SETUP (R349, R352). -/
def Dev.applyConfig (d : Dev) (b : Bool) : Dev :=
  let ws := payloadWords (d.imgBytes 2 b 64 (d.imgLength 2 b))
  let r := (d.onSys fun k => { k with applying := true }).configBlocks ws.length ws
  let d := r.1.onSys fun k => { k with applying := false }
  if r.2 then d.onSec fun k => { k with sealDue := true }
  else (d.imsetReport 3 (d.rd F.FAB_WRITE_ERR 0)).bootToSetup

/-- The ledger is restored from flash (R352): its newest 1,024 entries return to their slots, closed, but for slots that hold an entry made
since reset. FLT_HEAD counts the entries made since reset alone (R377; log entry 49). -/
def Dev.restoreLedger (d : Dev) : Dev :=
  let old := (d.sec.ledger.drop (d.sec.ledger.length - 1024)).foldl
    (fun m e => Tbl.set (fun _ => none) m (e.number % 1024) (some { e with isOpen := false, flushed := true })) []
  let slots := d.flt.slots.foldl (fun m (s : Nat × Option Entry) => Tbl.set (fun _ => none) m s.1 s.2) old
  (d.withFlt { d.flt with slots := slots }).showUnflushed.checkChain

/-- Imset takes up what flash and OTP hold: calendar, refresh, counters and keys. -/
def Dev.bootStore (d : Dev) : Dev :=
  let d := d.wr64 F.PWR_CAL_LO F.PWR_CAL_HI 0 (max d.calendar d.sec.calOffset)
  (d.put F.IMS_STAT_refreshing 0 d.sec.refreshing.isSome).showSec

/-- The slot in use of a kind that was measured. -/
def Dev.slotInUse (d : Dev) (kind : Nat) : Option Bool :=
  if (Tbl.get (fun _ => []) d.sec.measured kind).isEmpty then none else some (d.flag F.SEC_IMG_active kind)

/-- What follows once Imset's firmware runs (R351, R352). -/
def Dev.bootRest (d : Dev) : Dev :=
  let d := (d.wr F.IMS_STAT_state 0 2).bootImage 1
  let d := match d.slotInUse 1 with
    | some b => d.loadFirmware b
    | none => d
  let d := d.restoreFresh.restoreLedger.bootImage 2
  match d.slotInUse 2 with
  | some b => d.applyConfig b
  | none => d.bootToSetup

/-- SECURE_BOOT: the ROM reads the directory; the images are selected, verified and measured, and the configuration is applied. -/
def execSecureBoot (t : Nat) (s : State) : Host.Outcome State Fault Refusal :=
  effect t s fun d =>
    if d.pw.held ∨ d.rd F.IMS_STAT_state 0 ≠ 1 then d
    else
      let d := d.bootStore.readDirectory.bootImage 0
      if (Tbl.get (fun _ => []) d.sec.measured 0).isEmpty then d.wr F.IMS_STAT_state 0 3 else d.bootRest

/-- BOOT_SEAL_REQUEST: SC_FW.ready is set, or 150 ms have passed since reset release (R352). -/
def execBootSealRequest (t : Nat) (s : State) : Host.Outcome State Fault Refusal :=
  effect t s fun d =>
    if d.sec.sealDue ∧ d.devState = DevSt.boot ∧ (d.flag F.SC_FW_ready 0 = true ∨ 120000000 ≤ d.time) then d.sealRequest .imset else d

/-- ACTIVATE_RESET: 1 ms after an UPDATE_ACTIVATE with reset, while the device is not in SAFE (R374; log entry 50). Freshness is journalled
before it (R361); the cause it leaves in PWR_RESET_CAUSE is a free value (log entry 4). -/
def execActivateReset (t : Nat) (s : State) : Host.Outcome State Fault Refusal :=
  effect t s fun d => match d.sec.resetAt with
    | some r =>
      if r ≤ d.time ∧ d.devState ≠ DevSt.safe then
        let c := d.free
        (if d.imsetRuns then d.tick.journalAll else d.tick).deviceReset c.toNat false
      else d
    | none => d

/-! ### Storage (R361, R365 to R367, R400) -/

/-- FRESHNESS_JOURNAL: Imset journals the mark or the value of a flow (R361); a receive value every 10 minutes while it changes. -/
def execFreshnessJournal (t : Nat) (x : JournalInput) (s : State) : Host.Outcome State Fault Refusal :=
  effect t s fun d =>
    if d.imsetRuns = false then d
    else
      let l := x.flow.val
      let d := d.journalTx l x.err
      (if d.fvRx l ≠ Tbl.get (fun _ => 0) d.sec.rxValue l ∧ Tbl.get (fun _ => 0) d.sec.rxAt l + 480000000000 ≤ d.time then
        d.journalRx l x.err
      else d).uartTurn

/-- LEDGER_FLUSH: Imset writes the entry in RAM slot k to flash; `err` tells that the write failed at first. -/
def execLedgerFlush (t : Nat) (k : Fin 1024) (err : Bool) (s : State) : Host.Outcome State Fault Refusal :=
  effect t s fun d => if d.imsetRuns then (d.flushSlot k err).uartTurn else d

/-- The bin of a temperature in Q16.16 °C (R366). -/
def lifeBin (t : Int) : Nat :=
  if t < 25 * 65536 then 0 else if t < 65 * 65536 then 1 else if t < 85 * 65536 then 2 else if t < 105 * 65536 then 3
  else if t < 115 * 65536 then 4 else if t < 125 * 65536 then 5 else if t ≤ 140 * 65536 then 6 else 7

/-- One more second in a bin. -/
def addSecond (bins : List Nat) (k : Nat) : List Nat := (List.range 8).map fun j => bins.getD j 0 + b2n (j == k)

/-- The hottest logic zone and the hottest heavy pod; 150 °C where every sensor is fenced (R397). -/
def Dev.hotZone (d : Dev) : Int := (d.liveMax ((List.range 8).map (49 + ·))).getD allFenced
def Dev.hotPod (d : Dev) : Int := (d.liveMax (List.range 42)).getD allFenced

/-- The seconds of equivalent operation that one second at the present temperature counts for (R400). -/
def Dev.lifeStep (d : Dev) : Rat := exp2 ((((max d.hotZone d.hotPod : Int) : Rat) / 65536 - 125) / 10)

/-- Show equivalent hours; LIFE_LIMIT is reported once they have passed 60,000 (R400). -/
def Dev.showLife (d : Dev) : Dev :=
  let h := (d.sec.lifeSum / 3600).floor.toNat
  let d := d.wr F.THM_LIFE_hours 0 (min h (2 ^ 24 - 1))
  if (60000 : Rat) < d.sec.lifeSum / 3600 ∧ d.flag F.THM_LIFE_limit 0 = false then
    (d.put F.THM_LIFE_limit 0 true).reportOpen Kind.device 0 Cls.report Code.LIFE_LIMIT
  else d

/-- LIFE_ACCUMULATE: a second passes (R366, R391, R400). The calendar counts it, unless the AOI island is lost (R373), while the device is
not asleep; the rest is Imset's. -/
def execLifeAccumulate (t : Nat) (s : State) : Host.Outcome State Fault Refusal :=
  effect t s fun d =>
    if d.pw.asleep then d
    else
      let d := if d.fenced Kind.island 8 then d else d.wr64 F.PWR_CAL_LO F.PWR_CAL_HI 0 (d.calendar + 1)
      if d.pw.held ∨ d.imsetRuns = false then d
      else
        let z := lifeBin d.hotZone
        let p := lifeBin d.hotPod
        let add := d.lifeStep
        (d.onSec fun k =>
          { k with seconds := k.seconds + 1, zoneBins := addSecond k.zoneBins z, podBins := addSecond k.podBins p,
                   lifeSum := k.lifeSum + add }).showLife

/-- The hours in some bins of seconds, for a record. -/
def binHours (bins : List Nat) : List Nat := (List.range 8).map fun j => min (bins.getD j 0 / 3600) 65535

/-- LIFETIME_RECORD: an operating hour is full (R366). On entering a sector of the ring, the records in it are erased. -/
def execLifetimeRecord (t : Nat) (err : Bool) (s : State) : Host.Outcome State Fault Refusal :=
  effect t s fun d =>
    if d.imsetRuns = false ∨ d.sec.seconds < 3600 then d
    else
      let d := (d.onSec fun k => { k with seconds := k.seconds - 3600 }).bump F.IMS_HOURS_hours 0
      let r : LifeRec :=
        { calendar := d.calendar, hours := d.rd F.IMS_HOURS_hours 0, boots := d.boots, zones := binHours d.sec.zoneBins,
          pods := binHours d.sec.podBins, transients := d.rd F.SC_CNT_transients 0 }
      let place := ringPlace d.sec.lifeNext 1024 5120 err
      let d := (d.flashError err).onSec fun k =>
        { k with life := (if place % 1024 = 0 then k.life.filter fun e => e.1 / 1024 != place / 1024 else k.life) ++ [(place, r)],
                 lifeNext := (place + 1) % 5120, lifeWritten := k.lifeWritten + 1 }
      (d.writeRing 0x890000 place 1024 r.bytes).recordCalendar.uartTurn

/-- The sector of the refresh scratch. -/
def scratchSector : Nat := 0x93

/-- The next step of a refresh (R367), journalled in the scratch with the calendar: the sector is copied there, it is erased, it is written
back. -/
def Dev.refreshStep (d : Dev) (sector : Nat) : Dev :=
  let mark (d : Dev) (v : Option RefreshT) : Dev :=
    ((d.onSec fun k => { k with refreshing := v }).put F.IMS_STAT_refreshing 0 v.isSome).recordCalendar
  match d.sec.refreshing with
  | none => mark (d.copySector sector scratchSector) (some { sector := sector })
  | some r =>
    if r.erased then mark (((d.copySector scratchSector r.sector).touchSector r.sector).bump F.IMS_REFRESH_sectors 0) none
    else mark (d.eraseSector r.sector) (some { r with erased := true })

/-- The steps of a refresh that has begun, to its end: at most two are left after the copy. -/
def Dev.refreshRest (d : Dev) (sector : Nat) : Nat → Dev
  | 0 => d
  | n + 1 => if d.sec.refreshing.isSome then Dev.refreshRest (d.refreshStep sector) sector n else d

/-- May Imset refresh a sector (R367): one that was last written 5 years ago, at most one in 10 s, 8 × 10^9 ticks; or does it go on with one
whose refresh was cut short? -/
def Dev.mayRefresh (d : Dev) (sector : Nat) : Bool :=
  let old := Nat.ble Config.refreshAge (d.calendar - Tbl.get (fun _ => 0) d.sec.sectorAt sector)
  let rested := match d.sec.refreshAt with
    | some r => Nat.ble (r + 8000000000) d.time
    | none => true
  d.imsetRuns && Nat.blt sector flashSectors &&
    match d.sec.refreshing with
    | some r => r.sector == sector
    | none => old && rested

/-- FLASH_REFRESH: Imset refreshes a sector. -/
def execFlashRefresh (t : Nat) (sector : Nat) (x : RefreshInput) (s : State) : Host.Outcome State Fault Refusal :=
  effect t s fun d =>
    if d.mayRefresh sector then
      let now := d.time
      let d := ((d.flashError x.err).onSec fun k => { k with refreshAt := some now }).refreshStep sector
      (if x.done then d.refreshRest sector 2 else d).uartTurn
    else d

end Sys2Proof.Machine
end

