-- ==== Sys2Proof/Machine/LoopOps.lean ====
section
/-! DEFINITION. The operation set of the balance engines (chapters 07 and 08): each command says that an engine retires the
next operation of its run, and that this operation is of the command's kind. On an engine without such a run, nothing
happens but the passing of time. -/

namespace Sys2Proof.Machine

/-! ### Working copies -/

/-- Variable k of a run's working copy. -/
def Run.raw (r : Run) (k : Nat) : Word := wordOf r.vars (k % 256)

/-- Variable k as a Q1.31 integer. -/
def Run.val (r : Run) (k : Nat) : Int := q31 (r.raw k)

/-- Write a variable bit for bit. -/
def Run.put (r : Run) (k : Nat) (v : Word) : Run := { r with vars := setWordOf r.vars (k % 256) v }

/-- The device and the run that an operation works on. -/
abbrev OpSt := Dev × Run

/-- Set the loop's sat flag. -/
def OpSt.sat (x : OpSt) (b : Bool) : OpSt := if b then (x.1.put F.BE_LP_FLAGS_sat x.2.loop true, x.2) else x

/-- Writeback of a rounded value to variable k, with the sat flag where it saturates (R157). -/
def OpSt.write (x : OpSt) (k : Nat) (v : Int) : OpSt := OpSt.sat (x.1, x.2.put k (qWord v)) (qOver v)

/-- Write a raw value to variable k. -/
def OpSt.raw (x : OpSt) (k : Nat) (v : Word) : OpSt := (x.1, x.2.put k v)

/-- Scale F[k] of a loop (R158). -/
def Dev.scale (d : Dev) (l k : Nat) : Int := (d.lt (scaleBase l + 4 * (k % 8))).toInt

/-- Engine e retires an operation of code `code`: its effect on the run, then the next operation or the end. On an engine whose fence
is in force only a STORE and an EMIT reach anything outside it, their destinations, which discard them (R177, R179). -/
def Dev.runOp (d : Dev) (e code : Nat) (f : OpSt → Nat → OpSt) : Dev :=
  match (d.eng e).run with
  | none => d
  | some r =>
    let w := d.opWord r.loop r.pc
    if opCode w = code then
      (if d.fenceHolds e && code != 0x02 && code != 0x03 then d else (f (d, r) w).1).retire e (f (d, r) w).2
    else d

/-! ### Loads, stores and telemetry (R161 to R163) -/

/-- An EF stamp in ticks after the update point, saturating (R161). -/
def edgeTicks (stamp beatAt : Nat) : Word := sat32 ((stamp : Int) - beatAt)

/-- LOAD from a record field. -/
def OpSt.loadRecord (x : OpSt) (dst k : Nat) (f : Int) : OpSt :=
  let r := x.2
  let q := r.recs
  let qty (w : Word) : OpSt := x.write dst (enterLoop w.toInt f)
  let flags := x.1.word (F.BE_LP_FLAGS.off r.loop 0)
  if k = 0 then qty q.a.current
  else if k = 1 then x.raw dst q.a.info
  else if k = 2 then qty q.b.current
  else if k = 3 then x.raw dst q.b.info
  else if k = 4 then qty q.dv
  else if k = 5 then (if x.1.home r.loop < 8 then qty q.pv else x.raw dst q.pv)
  else if k = 6 then x.raw dst q.tn
  else if k = 7 then x.raw dst q.lat.angle
  else if k = 8 then x.raw dst q.lat.eangle
  else if k = 9 then qty q.lat.speed
  else if k = 10 then x.raw dst q.lat.info
  else if k = 11 then x.raw dst (edgeTicks q.rise q.beatAt)
  else if k = 12 then x.raw dst (edgeTicks q.fall q.beatAt)
  else if k = 13 then x.raw dst (BitVec.ofNat 32 q.edges)
  else if k = 14 then x.raw dst flags
  else if k = 15 then x.raw dst (BitVec.ofNat 32 (r.beat % 65536))
  else x

/-- The byte address in bank space of BANK offset `imm` of a loop (R161). -/
def Dev.loopBankAddr (d : Dev) (l imm : Nat) : Nat := 4 * ((d.rd F.BE_LP_BANK_base l + imm) % 2 ^ 21)

/-- LOAD (R161). A bank word that cannot be corrected loads as zero (R294). -/
def OpSt.load (u : Upset) (wait : Nat) (e : Fin 12) (x : OpSt) (w : Nat) : OpSt :=
  let r := x.2
  let l := r.loop
  let space := opMod w / 8
  let f := x.1.scale l (opMod w % 8)
  let imm := opImm w
  let dst := opDst w
  if space = 0 then x.raw dst (r.raw imm)
  else if space = 1 then x.write dst (enterLoop (wordOf r.pars (imm % 64)).toInt f)
  else if space = 2 then x.loadRecord dst (imm % 32) f
  else if space = 3 then x.write dst (enterLoop (BitVec.ofNat 32 (x.1.rd2 F.CV_RES (imm / 16 % 8) (imm % 16))).toInt f)
  else if space = 4 then x.raw dst (wordOf r.xch (imm % 256))
  else if space = 5 then
    let a := x.1.loopBankAddr l imm
    (x.1.bankRead (.engine e) a 4 u wait, r.put dst (if x.1.bankReads a u then x.1.bankWord a else 0))
  else if space = 6 then x.write dst (signed 20 imm * 4096)
  else x

/-- The compare that a loop's store of x gives (R162): x times H for a stage in UPDOWN or with a port in DOUBLE, otherwise x times the
period, rounded to sixteenths of a tick. -/
def Dev.storeCompare (d : Dev) (p : Nat) (x : Int) : Int :=
  let s := portStage p
  let half := d.upDown s || (stagePorts s).any fun q => d.rd F.PG_CFG_mode q == 5
  let range : Int := if half then d.half16 s else 16 * d.period s
  roundDiv (x * range) one31

/-- A token goes to the TBI gate, behind those that wait there (R13). -/
def Dev.sendGate (d : Dev) (g : GateTok) : Dev := d.withTb { d.tb with gate := d.tb.gate ++ [g] }

/-- STORE (R162). -/
def OpSt.store (wait : Nat) (e : Fin 12) (x : OpSt) (w : Nat) : OpSt :=
  let r := x.2
  let l := r.loop
  let mode := opMod w
  let space := mode / 8
  let imm := opImm w
  let v := r.raw (opA w)
  if space = 0 then x.raw imm v
  else if space = 1 then
    let p := imm % 64
    let tag := (r.beat + 1) % 65536
    let d := x.1.sendGate (.shadow e l p (bitOf mode 1) (x.1.storeCompare p (q31 v)) tag)
    (if bitOf mode 2 then d.sendGate (.commit e l (portStage p) tag) else d, r)
  else if space = 4 then
    let k := imm % 256
    (x.1, { r with xch := setWordOf r.xch k v, stored := if r.stored.contains k then r.stored else r.stored ++ [k] })
  else if space = 5 then
    let a := x.1.loopBankAddr l imm
    (if x.1.fenceHolds e then (x.1.bankWait (e + 1) wait).fencedWrite e l 3 (bankOf a) else x.1.bankWrite (.engine e) a 4 v {} wait, r)
  else x

/-- EMIT (R163): the values leave as one telemetry record, unless telemetry is off or the engine is fenced. -/
def OpSt.emit (e : Nat) (x : OpSt) (w : Nat) : OpSt :=
  let r := x.2
  let l := r.loop
  let imm := opImm w
  let raw := bitOf imm 7
  let f := x.1.scale l (imm / 16)
  let value (i : Nat) : Word := if raw then r.raw (opA w + i) else leaveLoop (r.val (opA w + i)) f
  if !x.1.flag F.BE_LP_TEL_enable l then x
  else if x.1.fenceHolds e then (x.1.fencedWrite e l 4 0, r)
  else
    let m : EmitRec :=
      { qp := x.1.rd F.BE_LP_TEL_queue_pair l, loop := l, update := r.beat % 65536, stamp := r.recs.beatAt, raw := raw,
        values := (List.range (imm % 16 + 1)).map value }
    (x.1.withBe { x.1.be with emitted := x.1.be.emitted ++ [m] }, r)

/-! ### Sections (R164, R184 to R186) -/

/-- One section on input v: the state is stepped, and the bounded exact output in units of 2^-62 is given (R185). -/
def OpSt.section (x : OpSt) (v : Int) (blk st : Nat) : OpSt × Int :=
  let (d, r) := x
  let l := r.loop
  let bank := d.activeBank l
  let k (i : Nat) : Int := q31 (d.coef l bank (blk + i))
  let x1 := r.val st
  let y1 := r.val (st + 2)
  let acc := k 0 * v + k 1 * x1 + k 2 * r.val (st + 1) - k 3 * y1 - k 4 * r.val (st + 3)
  let y := acc * 2 ^ ((d.coef l bank (blk + 7)).toNat % 4)
  let (lo, hi) := d.bounds l bank blk r.raw
  let z := bound (lo * one31) (hi * one31) y
  let r := (((r.put (st + 1) (r.raw st)).put st (qWord v)).put (st + 3) (r.raw (st + 2))).put (st + 2) (qWord (roundDiv z one31))
  (OpSt.sat (d, r) (clamps (lo * one31) (hi * one31) y), z)

/-- The two modifiers of SECT and CASC on the exact output z, and its one rounding (R164). -/
def OpSt.modifiers (x : OpSt) (w : Nat) (gain addend z : Int) : OpSt :=
  let scaled := if bitOf (opMod w) 1 then z * gain else z * one31
  let total := if bitOf (opMod w) 0 then scaled + addend * one31 * one31 else scaled
  x.write (opDst w) (roundDiv total (one31 * one31))

/-- SECT and CASC: the sections in a chain, each fed the rounded output of the one before (R186). -/
def OpSt.sections (x : OpSt) (w : Nat) : OpSt :=
  let gain := x.2.val (opImm w / 256 % 256)
  let addend := x.2.val (opB w)
  let step (y : OpSt × Int × Int) (sec : Nat × Nat) : OpSt × Int × Int :=
    let (s, z) := y.1.section y.2.1 sec.1 sec.2
    (s, roundDiv z one31, z)
  let y := (opSections w).foldl step (x, x.2.val (opA w), 0)
  y.1.modifiers w gain addend y.2.2

/-! ### Transforms (R165) -/

/-- CLARKE. -/
def OpSt.clarke (x : OpSt) (w : Nat) : OpSt :=
  let a := x.2.val (opA w)
  let b := x.2.val (opA w + 1)
  let c := if bitOf (opMod w) 0 then -(a + b) else x.2.val (opA w + 2)
  (x.write (opDst w) (roundDiv (2 * a - b - c) 3)).write (opDst w + 1) (divRoot3 (b - c))

/-- PARK. -/
def OpSt.park (x : OpSt) (w : Nat) : OpSt :=
  let a := x.2.val (opA w)
  let b := x.2.val (opA w + 1)
  let sin := x.2.val (opB w)
  let cos := x.2.val (opB w + 1)
  (x.write (opDst w) (roundDiv (a * cos + b * sin) one31)).write (opDst w + 1) (roundDiv (-a * sin + b * cos) one31)

/-- IPARK. -/
def OpSt.ipark (x : OpSt) (w : Nat) : OpSt :=
  let p := x.2.val (opA w)
  let q := x.2.val (opA w + 1)
  let sin := x.2.val (opB w)
  let cos := x.2.val (opB w + 1)
  (x.write (opDst w) (roundDiv (p * cos - q * sin) one31)).write (opDst w + 1) (roundDiv (p * sin + q * cos) one31)

/-! ### SVM (R167) -/

/-- The largest and the smallest of three. -/
def surdMax (u : Surd × Surd × Surd) : Surd := (u.1.max u.2.1).max u.2.2
def surdMin (u : Surd × Surd × Surd) : Surd := (u.1.min u.2.1).min u.2.2
def surdMap (f : Surd → Surd) (u : Surd × Surd × Surd) : Surd × Surd × Surd := (f u.1, f u.2.1, f u.2.2)

/-- Steps 1 to 4 of SVM: the three compare fractions, and whether step 3 scaled. `al`, `be` and `dc` are in units of
2^-31. -/
def svmCompares (al be dc : Int) (sine : Bool) : (Surd × Surd × Surd) × Bool :=
  let a : Rat := (al : Rat) / dc
  let b : Rat := (be : Rat) / dc
  let u : Surd × Surd × Surd := (⟨a, 0⟩, ⟨-a / 2, b / 2⟩, ⟨-a / 2, -b / 2⟩)
  let mean := ((surdMax u).add (surdMin u)).scale (1 / 2)
  let u := if sine then u else surdMap (fun x => x.sub mean) u
  let span := (surdMax u).sub (surdMin u)
  let ovr := Surd.lt (.ofRat 1) span
  let u := if ovr then surdMap (fun x => x.mul span.inv) u else u
  (surdMap (fun x => Surd.sub (.ofRat (1 / 2)) x) u, ovr)

/-- Insert a phase (its compare and its number) behind those not larger: ties keep port order. -/
def insertPhase (x : Surd × Nat) : List (Surd × Nat) → List (Surd × Nat)
  | [] => [x]
  | y :: r => if x.1.lt y.1 then x :: y :: r else y :: insertPhase x r

/-- KEEP of SVM on the three compares after the last span's shifts were paid back: for each phase number its compare and
its shift, in rising order of compares. -/
def svmKeep (cmp : Surd × Surd × Surd) (sep : Surd) : List (Nat × Surd × Surd) :=
  let zero := Surd.ofRat 0
  let one := Surd.ofRat 1
  match insertPhase (cmp.2.2, 2) (insertPhase (cmp.2.1, 1) [(cmp.1, 0)]) with
  | [x, y, z] =>
    let shiftX := (x.1.sub ((y.1.sub sep).max zero)).max zero
    let shiftZ := (((y.1.add sep).min one).sub z.1).max zero
    [(x.2, x.1.sub shiftX, zero.sub shiftX), (y.2, y.1, zero), (z.2, z.1.add shiftZ, shiftZ)]
  | _ => []

/-- SVM. -/
def OpSt.svm (x : OpSt) (w : Nat) : OpSt :=
  let r := x.2
  let dc := r.val (opB w)
  let bad := dc ≤ 0
  let sine := opMod w % 4 == 1
  let (cmp, ovr) := svmCompares (r.val (opA w)) (r.val (opA w + 1)) (if bad then 1 else dc) sine
  let x := x.sat (bad || ovr)
  let of31 (v : Int) : Surd := .ofRat ((v : Rat) / one31)
  if bitOf (opMod w) 2 then
    let c (i : Nat) : Surd := of31 (r.val (opC w + i))
    let paid := (cmp.1.sub (c 0), cmp.2.1.sub (c 1), cmp.2.2.sub (c 2))
    (svmKeep paid (of31 (r.val (opImm w % 256)))).foldl (init := x) fun x k =>
      (x.write (opDst w + k.1) k.2.1.round31).write (opC w + k.1) k.2.2.round31
  else
    ((x.write (opDst w) cmp.1.round31).write (opDst w + 1) cmp.2.1.round31).write (opDst w + 2) cmp.2.2.round31

/-! ### Tables (R166, R190, R191) -/

/-- A dial table at an angle of 32 bits, interpolated (R166). -/
def Dev.dial (d : Dev) (table angle : Nat) : Int :=
  let word (i : Nat) : Int := q31 (d.lt (0x78000 + 0x1000 * table + 4 * (i % 1024)))
  let i := angle / 2 ^ 22
  let f : Int := (angle % 2 ^ 22 : Nat)
  roundDiv (word i * 2 ^ 22 + (word (i + 1) - word i) * f) (2 ^ 22)

/-- DIAL. -/
def OpSt.dial (x : OpSt) (w : Nat) : OpSt :=
  let adv := if bitOf (opMod w) 0 then (x.2.raw (opB w)).toNat else 0
  let angle := ((x.2.raw (opA w)).toNat + adv) % 2 ^ 32
  let table := opImm w % 8
  (x.write (opDst w) (x.1.dial table angle)).write (opDst w + 1) (x.1.dial table ((angle + 0x40000000) % 2 ^ 32))

/-- POISE: cogging and friction at an angle and a speed, exact, then rounded (R191). -/
def OpSt.poise (x : OpSt) (w : Nat) : OpSt :=
  let word (i : Nat) : Int := q31 (x.1.lt (0x80000 + 0x4000 * (opImm w % 16) + 4 * i))
  let angle := (x.2.raw (opA w)).toNat
  let speed := x.2.val (opB w)
  let i := angle / 2 ^ 21
  let j := angle / 2 ^ 22
  let cog (k : Nat) : Int := word (k % 2048)
  let fri (k : Nat) : Int := word (2048 + k % 1024)
  let cg : Rat := cog i + (cog (i + 1) - cog i : Int) * ((angle % 2 ^ 21 : Nat) : Rat) / 2 ^ 21
  let fr : Rat := fri j + (fri (j + 1) - fri j : Int) * ((angle % 2 ^ 22 : Nat) : Rat) / 2 ^ 22
  let band := word 3072
  let ratio : Rat := (speed : Rat) / (if band ≤ 0 then 1 else band)
  let s : Rat := if ratio < -1 then -1 else if 1 < ratio then 1 else ratio
  x.write (opDst w) (ratRound (cg + fr * s + (word 3073 * speed : Int) / (one31 : Rat)))

/-! ### Limits and selections (R168) -/

/-- LIM. -/
def OpSt.lim (x : OpSt) (w : Nat) : OpSt :=
  let v := x.2.val (opA w)
  let lo := x.2.val (opB w)
  let hi := x.2.val (opC w)
  OpSt.sat (x.raw (opDst w) (qWord (bound lo hi v))) (bitOf (opMod w) 0 && clamps lo hi v)

/-- SEL. -/
def OpSt.sel (x : OpSt) (w : Nat) : OpSt :=
  x.raw (opDst w) (if x.2.raw (opC w) = 0 then x.2.raw (opB w) else x.2.raw (opA w))

/-- CMP. -/
def OpSt.cmp (x : OpSt) (w : Nat) : OpSt :=
  let a := x.2.val (opA w)
  let b := x.2.val (opB w)
  let m := opMod w % 8
  let c : Bool :=
    if m = 1 then b < a
    else if m = 2 then b ≤ a
    else if m = 3 then a == b
    else if m = 4 then a != b
    else if m = 5 then b < a.natAbs
    else x.2.raw (opA w) &&& BitVec.ofNat 32 (opImm w) != 0
  x.raw (opDst w) (BitVec.ofNat 32 (b2n c))

/-! ### RECON (R91, R169) -/

/-- Fields of a SH_INFO word: phase, neg, placed, sat. -/
def infoPhase (i : Word) : Nat := getBits i 0 2
def infoNeg (i : Word) : Bool := getBits i 2 1 == 1
def infoPlaced (i : Word) : Bool := getBits i 3 1 == 1
def infoSat (i : Word) : Bool := getBits i 5 1 == 1

/-- The three currents with two of them given: the third is minus their sum. -/
def threeCurrents (p : Nat) (ip : Int) (q : Nat) (iq : Int) : Int × Int × Int :=
  let pick (k : Nat) : Int := if k = p then ip else if k = q then iq else -(ip + iq)
  (pick 0, pick 1, pick 2)

/-- The lowest-numbered port of the set other than p. -/
def otherPort (p : Nat) : Nat := if p = 0 then 1 else 0

/-- RECON. Two placed records that name one port, or a port number of 3, have no result in the spec: the three values are
free (log entry 4). -/
def OpSt.recon (x : OpSt) (w : Nat) : OpSt :=
  let r := x.2
  let d := x.1
  let l := r.loop
  let f := d.scale l (opMod w)
  let a := r.recs.a
  let b := r.recs.b
  let amps (k : ShRec) : Int :=
    let v := enterLoop k.current.toInt f
    if infoNeg k.info then -v else v
  let first := r.beat == (d.stg (d.home l)).firstBeat
  let prev (k : Nat) : Int := if first then 0 else r.val (opC w + k)
  let short (x : OpSt) : OpSt := (x.1.put F.BE_LP_FLAGS_window_short l true, x.2)
  let one (k : ShRec) (q : Nat) (known : Bool) : Int × Int × Int :=
    let p := infoPhase k.info
    let q := if !known || q = p then otherPort p else q
    threeCurrents p (amps k) q (prev q)
  let pa := infoPlaced a.info
  let pb := infoPlaced b.info
  let x := x.sat ((pa && infoSat a.info) || (pb && infoSat b.info))
  let out (x : OpSt) (i : Int × Int × Int) : OpSt :=
    ((x.write (opDst w) i.1).write (opDst w + 1) i.2.1).write (opDst w + 2) i.2.2
  if pa && pb then
    if infoPhase a.info = infoPhase b.info ∨ 2 < infoPhase a.info ∨ 2 < infoPhase b.info then
      let y : OpSt := x.raw (opDst w) d.free
      let y : OpSt := OpSt.raw (y.1.tick, y.2) (opDst w + 1) d.tick.free
      let y : OpSt := OpSt.raw (y.1.tick, y.2) (opDst w + 2) d.tick.tick.free
      (y.1.tick, y.2)
    else out x (threeCurrents (infoPhase a.info) (amps a) (infoPhase b.info) (amps b))
  else if pa then short (out x (one a (infoPhase b.info) r.recs.haveB))
  else if pb then short (out x (one b (infoPhase a.info) r.recs.haveA))
  else short (out x (prev 0, prev 1, prev 2))

/-! ### The fusee (R192 to R197) -/

/-- Clamp a rational. -/
def clampRat (lo hi v : Rat) : Rat := if v < lo then lo else if hi < v then hi else v

/-- The speed from which a distance m can be braked to rest, in units of 2^-31 per run (R195). -/
def brakeSpeed (m accel jerk : Nat) : Rat :=
  let a : Rat := accel
  let j : Rat := jerk
  if (m : Rat) ≤ a * a * a / (j * j) then cbrt25 (jerk * m * m)
  else (sqrt25 (a * a * a * a / (j * j) + 8 * a * m) - a * a / j) / 2

/-- The next acceleration of the fusee towards speed error e (R195). -/
def fuseeAccel (e a accel jerk : Rat) : Rat :=
  if (if e < 0 then -e else e) ≤ jerk ∧ (if e - a < 0 then a - e else e - a) ≤ jerk then e
  else
    let mag := if e < 0 then -e else e
    let root := (sqrt25 (jerk * jerk + 8 * jerk * mag) - jerk) / 2
    let ad := clampRat (-accel) accel (if e < 0 then -root else root)
    a + clampRat (-jerk) jerk (ad - a)

/-- One step of the fusee from (p, v, a), all in units of 2^-31. -/
structure FuseeOut where
  p : Rat
  v : Rat
  a : Rat
  vt : Rat
  limited : Bool
  atTarget : Bool

/-- The step of R195. `pos` is position mode; the limits are positive. -/
def fuseeStep (pos : Bool) (target p v a : Int) (vlim alim jlim : Nat) : FuseeOut :=
  let dist := target - p
  let vb : Rat := brakeSpeed dist.natAbs alim jlim
  let cut : Rat := if (vlim : Rat) < vb then vlim else vb
  let vt : Rat :=
    if pos then (if dist < 0 then -cut else if dist = 0 then 0 else cut) else clampRat (-(vlim : Rat)) vlim target
  let limited : Bool := if pos then decide ((vlim : Rat) < vb) else decide (vt ≠ (target : Rat))
  let a2 := fuseeAccel (vt - v) a alim jlim
  let v2 := (v : Rat) + a2
  let p2 := (p : Rat) + v2
  let small : Rat := (min jlim (min alim vlim) : Nat)
  let within (x : Rat) : Bool := decide (-small ≤ x) && decide (x ≤ small)
  if pos && within (target - p2) && within v2 && within a2 then
    { p := target, v := 0, a := 0, vt := vt, limited := limited, atTarget := true }
  else
    { p := p2, v := v2, a := a2, vt := vt, limited := limited,
      atTarget := if pos then decide (p2 = target ∧ v2 = 0 ∧ a2 = 0) else decide (v2 = vt ∧ vt = target ∧ a2 = 0) }

/-- FUSEE. -/
def OpSt.fusee (x : OpSt) (w : Nat) : OpSt :=
  let r := x.2
  let c := opC w
  let dst := opDst w
  let lim (k : Nat) : Nat := let m := (r.val (opB w + k)).natAbs; if m = 0 then 1 else m
  let zero := r.raw (opB w) == 0 || r.raw (opB w + 1) == 0 || r.raw (opB w + 2) == 0
  let x := x.sat zero
  let status := (r.raw (c + 4)).toNat
  let token := (r.raw (opA w + 1)).toNat % 256
  let flag (k : Nat) (b : Bool) : Nat := if b then 2 ^ k else 0
  if bitOf (opMod w) 1 && token != status % 256 then
    let p := r.raw (opA w + 2)
    let v := r.raw (opA w + 3)
    let ovr := Nat.blt (lim 0) (q31 v).natAbs
    let x := (((x.raw c p).raw (c + 1) v).raw (c + 2) 0).raw (c + 3) v
    let x := (x.raw (c + 4) (BitVec.ofNat 32 (token + flag 10 ovr))).raw (c + 5) 0
    ((x.raw dst p).raw (dst + 1) v).raw (dst + 2) 0
  else
    let pos := !bitOf (opMod w) 0
    let v := r.val (c + 1)
    let a := r.val (c + 2)
    let o := fuseeStep pos (r.val (opA w)) (r.val c) v a (lim 0) (lim 1) (lim 2)
    let ovr := Nat.blt (lim 0) v.natAbs || Nat.blt (lim 1) a.natAbs
    let runs := (r.raw (c + 5)).toNat
    let place (x : OpSt) (k : Nat) : OpSt :=
      if pos then x.write k (ratRound o.p) else x.raw k (BitVec.ofInt 32 (ratRound o.p))
    let x := (((place x c).write (c + 1) (ratRound o.v)).write (c + 2) (ratRound o.a)).write (c + 3) (ratRound o.vt)
    let st := status % 256 + flag 8 o.atTarget + flag 9 o.limited + flag 10 ovr
    let x := (x.raw (c + 4) (BitVec.ofNat 32 st)).raw (c + 5) (BitVec.ofNat 32 (min (runs + 1) (2 ^ 32 - 1)))
    ((place x dst).write (dst + 1) (ratRound o.v)).write (dst + 2) (ratRound o.a)

/-! ### Let-down and plausibility (R198 to R201) -/

/-- LETDN. -/
def OpSt.letdn (x : OpSt) (w : Nat) : OpSt :=
  let r := x.2
  let l := r.loop
  let blk := opImm w % 256
  let k (i : Nat) : Int := (q31 (x.1.coef l (x.1.activeBank l) (blk + i))).natAbs
  let t := r.val (opA w)
  let m := r.val (opB w)
  let lo := clampInt (-one31) (one31 - 1) (m - k 2)
  let hi := clampInt (-one31) (one31 - 1) (m + k 2)
  let x := x.sat (lo != m - k 2 || hi != m + k 2)
  let r0 := r.val (opC w)
  let gapped := r0 < lo || hi < r0
  let r1 := clampInt lo hi r0
  let r2 := if r1 ≤ t then min (r1 + k 0) t else max (r1 - k 1) t
  let done := (t - r2).natAbs ≤ k 3
  let n := (r.raw (opC w + 1)).toNat / 65536
  let n := if gapped then min (n + 1) 65535 else n
  let x := (x.write (opC w) r2).raw (opC w + 1) (BitVec.ofNat 32 (b2n done + 2 * b2n gapped + 65536 * n))
  x.write (opDst w) r2

/-- PLAUS. -/
def OpSt.plaus (x : OpSt) (w : Nat) : OpSt :=
  let r := x.2
  let l := r.loop
  let blk := opImm w % 256
  let word (i : Nat) : Word := x.1.coef l (x.1.activeBank l) (blk + i)
  let k (i : Nat) : Int := q31 (word i)
  let c := opC w
  let n := opMod w % 8 + 1
  let u : Int := 2 ^ ((word 12).toNat % 4) * ((List.range n).foldl (fun t i => t + k i * r.val (opA w + i)) 0)
  let mo := r.val c
  let mo1 := roundDiv (mo * one31 * one31 + k 8 * (u - mo * one31)) (one31 * one31)
  let x := x.write c mo1
  let mo2 := x.2.val c
  let rf := r.val (c + 1)
  let rf1 := roundDiv (rf * one31 + k 9 * (r.val (opB w) - mo2 - rf)) one31
  let x := x.write (c + 1) rf1
  let rf2 := x.2.val (c + 1)
  let x := x.raw (opDst w) (qWord rf2)
  let above := Nat.blt (k 10).natAbs rf2.natAbs
  let ovr := if above then min ((r.raw (c + 2)).toNat + 1) (2 ^ 32 - 1) else 0
  let count := max 1 ((word 11).toNat % 65536)
  let x := x.raw (c + 2) (BitVec.ofNat 32 ovr)
  let x : OpSt :=
    if ovr = count then ((x.1.put F.BE_LP_FLAGS_plaus l true).report Kind.loop l Cls.report Code.PLAUS blk, x.2) else x
  x.write (c + 3) (max (r.val (c + 3)) rf2.natAbs)

/-- SLACK (R171): the slack of the previous beat or the window minimum, as a fraction of the beat. -/
def OpSt.slack (x : OpSt) (w : Nat) : OpSt :=
  let l := x.2.loop
  let ticks : Int := if bitOf (opMod w) 0 then x.1.rdInt F.BE_LP_SLACK_win_min l else (x.1.loop l).lastSlack
  if ticks = -32768 then x.raw (opDst w) 0x80000000
  else x.write (opDst w) (roundDiv (ticks * one31) (max 1 (x.1.beat (x.1.home l))))

/-! ### The commands: engine e retires its next operation -/

/-- Is the bank access of engine e's next operation at its turn, where it has one (R290)? -/
def Dev.opInTurn (d : Dev) (e : Fin 12) (others : List BankMaster) : Bool :=
  match (d.eng e).run with
  | none => true
  | some r =>
    let w := d.opWord r.loop r.pc
    opMod w / 8 != 5 || d.itsTurn (.engine e) (bankOf (d.loopBankAddr r.loop (opImm w))) others

/-- LOAD; `u` and `wait` say what a bank access meets: what befell its word and whose accesses wait there, and how long it waits. -/
def execLoad (t : Nat) (e : Fin 12) (u : BankTurn) (wait : Nat) (s : State) : Host.Outcome State Fault Refusal :=
  effect t s fun d => if d.opInTurn e u.others then d.runOp e 0x01 (OpSt.load u.upset wait e) else d

/-- STORE; `w` says what a bank access meets. -/
def execStore (t : Nat) (e : Fin 12) (w : BankWait) (s : State) : Host.Outcome State Fault Refusal :=
  effect t s fun d => if d.opInTurn e w.turn.others then d.runOp e 0x02 (OpSt.store w.wait e) else d

/-- EMIT. -/
def execEmit (t : Nat) (e : Fin 12) (s : State) : Host.Outcome State Fault Refusal :=
  effect t s fun d => d.runOp e 0x03 (OpSt.emit e)

/-- SECT. -/
def execSect (t : Nat) (e : Fin 12) (s : State) : Host.Outcome State Fault Refusal :=
  effect t s fun d => d.runOp e 0x04 OpSt.sections

/-- CASC. -/
def execCasc (t : Nat) (e : Fin 12) (s : State) : Host.Outcome State Fault Refusal :=
  effect t s fun d => d.runOp e 0x05 OpSt.sections

/-- CLARKE. -/
def execClarke (t : Nat) (e : Fin 12) (s : State) : Host.Outcome State Fault Refusal :=
  effect t s fun d => d.runOp e 0x06 OpSt.clarke

/-- PARK. -/
def execPark (t : Nat) (e : Fin 12) (s : State) : Host.Outcome State Fault Refusal :=
  effect t s fun d => d.runOp e 0x07 OpSt.park

/-- IPARK. -/
def execIpark (t : Nat) (e : Fin 12) (s : State) : Host.Outcome State Fault Refusal :=
  effect t s fun d => d.runOp e 0x08 OpSt.ipark

/-- SVM. -/
def execSvm (t : Nat) (e : Fin 12) (s : State) : Host.Outcome State Fault Refusal :=
  effect t s fun d => d.runOp e 0x09 OpSt.svm

/-- DIAL. -/
def execDial (t : Nat) (e : Fin 12) (s : State) : Host.Outcome State Fault Refusal :=
  effect t s fun d => d.runOp e 0x0A OpSt.dial

/-- POISE. -/
def execPoise (t : Nat) (e : Fin 12) (s : State) : Host.Outcome State Fault Refusal :=
  effect t s fun d => d.runOp e 0x0B OpSt.poise

/-- LIM. -/
def execLim (t : Nat) (e : Fin 12) (s : State) : Host.Outcome State Fault Refusal :=
  effect t s fun d => d.runOp e 0x0C OpSt.lim

/-- SEL. -/
def execSel (t : Nat) (e : Fin 12) (s : State) : Host.Outcome State Fault Refusal :=
  effect t s fun d => d.runOp e 0x0D OpSt.sel

/-- CMP. -/
def execCmp (t : Nat) (e : Fin 12) (s : State) : Host.Outcome State Fault Refusal :=
  effect t s fun d => d.runOp e 0x0E OpSt.cmp

/-- RECON. -/
def execRecon (t : Nat) (e : Fin 12) (s : State) : Host.Outcome State Fault Refusal :=
  effect t s fun d => d.runOp e 0x0F OpSt.recon

/-- FUSEE. -/
def execFusee (t : Nat) (e : Fin 12) (s : State) : Host.Outcome State Fault Refusal :=
  effect t s fun d => d.runOp e 0x10 OpSt.fusee

/-- LETDN. -/
def execLetdn (t : Nat) (e : Fin 12) (s : State) : Host.Outcome State Fault Refusal :=
  effect t s fun d => d.runOp e 0x11 OpSt.letdn

/-- PLAUS. -/
def execPlaus (t : Nat) (e : Fin 12) (s : State) : Host.Outcome State Fault Refusal :=
  effect t s fun d => d.runOp e 0x12 OpSt.plaus

/-- SLACK. -/
def execSlack (t : Nat) (e : Fin 12) (s : State) : Host.Outcome State Fault Refusal :=
  effect t s fun d => d.runOp e 0x13 OpSt.slack

end Sys2Proof.Machine
end

