-- ==== Sys2Proof/Machine/Ports.lean ====
section
/-! DEFINITION. Commands of the power ports (chapter 03): driver inputs, edges and their segments, lockout, the gate monitor,
links and supplies. -/

namespace Sys2Proof.Machine

/-- Is the port's command link or trip lane down (R75)? -/
def PortT.down (q : PortT) : Bool := q.linkDown || q.laneDown

/-- The first switch command that has reached the driver input of port p, and the port without it. -/
def Dev.nextInput (d : Dev) (p : Nat) : Option ((Bool × Bool) × PortT) :=
  match (d.port p).flight with
  | (at16, hi, lo) :: r => if at16 / 16 ≤ d.time then some ((hi, lo), { d.port p with flight := r }) else none
  | [] => none

/-- The driver input of a heavy port is presented both off (R75). -/
def Dev.inputOff (d : Dev) (p : Nat) : Dev :=
  let d := d.setDrv p true ((d.drv p true).command false d.time)
  let d := d.setDrv p false ((d.drv p false).command false d.time)
  d.drivePort p

/-- The command link or the trip lane of a heavy pod is lost (R75). -/
def Dev.linkLost (d : Dev) (p : Nat) (lane : Bool) : Dev :=
  let q := d.port p
  if !heavyPort p || (if lane then q.laneDown else q.linkDown) then d
  else
    let d := d.setPort p (if lane then { q with laneDown := true } else { q with linkDown := true })
    let d := (d.put F.PP_STAT_link_down p true).put F.PP_STAT_link_live p true
    let d := d.reportOpen Kind.port p Cls.report Code.LINK_DOWN
    if lane then d.drivePort p else d.inputOff p

/-- Valid frames or trip-lane symbols resume (R75): the pod follows its pulse generator, and a held trip, again. -/
def Dev.linkBack (d : Dev) (p : Nat) (lane : Bool) (hiMv loMv : Nat) : Dev :=
  let q := d.port p
  if !(if lane then q.laneDown else q.linkDown) then d
  else
    let q := if lane then { q with laneDown := false } else { q with linkDown := false, flight := [] }
    let d := (d.setPort p q).put F.PP_STAT_link_live p q.down
    if lane then d.drivePort p
    else d.driverInput p (d.flag F.PG_STAT_out_high p) (d.flag F.PG_STAT_out_low p) hiMv loMv

/-- The limit of segment 1 or 2 of an edge in ticks: registers count 2.5 ns, which is two ticks. -/
def Dev.segLimit (d : Dev) (p seg : Nat) (on : Bool) : Nat :=
  2 * (if seg = 1 then (if on then d.rd F.PP_SEG_TIME_ON_s1_max p else d.rd F.PP_SEG_TIME_OFF_s1_max p)
    else (if on then d.rd F.PP_SEG_TIME_ON_s2_max p else d.rd F.PP_SEG_TIME_OFF_s2_max p))

/-- Is plateau detection AUTO for edges of this direction (R67)? -/
def Dev.autoDetect (d : Dev) (p : Nat) (on : Bool) : Bool :=
  (if on then d.rd F.PP_ON_SEG_detect p else d.rd F.PP_OFF_SEG_detect p) == 1

/-- The edge leaves its present segment for the next one. -/
def Edge.advance (e : Edge) (now : Nat) : Edge :=
  if e.seg = 1 then { e with seg := 2, d1 := now - e.since, since := now }
  else { e with seg := 3, d2 := now - e.since, since := now }

/-- The part of the first slope below which the gate's slope marks plateau entry, as its divisor (R67): PP_ON_SEG or PP_OFF_SEG.pd_ratio. -/
def Dev.plateauDivisor (d : Dev) (p : Nat) (on : Bool) : Nat :=
  2 ^ ((if on then d.rd F.PP_ON_SEG_pd_ratio p else d.rd F.PP_OFF_SEG_pd_ratio p) + 1)

/-- Is segment `seg` of an edge in progress whose end is detected (R67)? -/
def Dev.detects (d : Dev) (p : Nat) (e : Edge) (seg : Nat) : Bool := heavyPort p && e.active && e.seg == seg && d.autoDetect p e.on

/-- Plateau entry (R67): `first` is the gate's slope over the first 10 ns, 8 ticks, of segment 1 and `slope` its slope now, both in the
direction of the edge and in one unit, `mv` its voltage in millivolts. -/
def Dev.plateauEntry (d : Dev) (p : Nat) (hi : Bool) (first slope : Nat) (mv : Int) : Dev :=
  let e := d.edge p hi
  if d.detects p e 1 && Nat.ble (e.startedAt + 8) d.time && Nat.blt (slope * d.plateauDivisor p e.on) first then
    d.setEdge p hi { e.advance d.time with entryMv := mv }
  else d

/-- Plateau exit (R67): the gate, at `mv` millivolts, has moved 1.0 V beyond its voltage at plateau entry in the direction of the edge;
without an entry detected there is none to move from, and any voltage ends the segment. -/
def Dev.plateauExit (d : Dev) (p : Nat) (hi : Bool) (mv : Int) : Dev :=
  let e := d.edge p hi
  let moved := if e.on then mv - e.entryMv else e.entryMv - mv
  if d.detects p e 2 && (e.timeout || decide (1000 ≤ moved)) then d.setEdge p hi (e.advance d.time) else d

/-- Segment 1 or 2 of an edge reaches its limit (R67): a timeout in AUTO, flagged and reported with SEG_TIMEOUT (R82 gives the word, no
rule says that it is posted; DESIGN CHOICE, log entry 66), the planned end in TIMED. -/
def Dev.segEnd (d : Dev) (p : Nat) (hi : Bool) : Dev :=
  let e := d.edge p hi
  if heavyPort p && e.active && (e.seg == 1 || e.seg == 2) && Nat.ble (e.since + d.segLimit p e.seg e.on) d.time then
    let auto := d.autoDetect p e.on
    let d := if auto then (d.put F.PP_STAT_seg_timeout p true).reportOpen Kind.port p Cls.report Code.SEG_TIMEOUT else d
    d.setEdge p hi { e.advance d.time with timeout := e.timeout || auto }
  else d

/-- The record of a completed edge in PP_EDGE_ON or PP_EDGE_OFF, in units of 2.5 ns. -/
def Dev.recordEdge (d : Dev) (p : Nat) (hi : Bool) (e : Edge) : Dev :=
  let last := (d.time - e.since) / 2
  let s1 := min 255 (if heavyPort p then e.d1 / 2 else last)
  let s2 := min 1023 (e.d2 / 2)
  let s3 := min 255 last
  let w := if heavyPort p then s1 + 256 * s2 + 2 ^ 18 * s3 + 2 ^ 26 * b2n e.timeout else s1
  let w := w + 2 ^ 27 * b2n hi
  if e.on then d.wr F.PP_EDGE_ON p w else d.wr F.PP_EDGE_OFF p w

/-- The gate, at `mv` millivolts, comes within 0.5 V of its final level in the last segment of its edge (R67, R68, R70): recorded, and
held there. -/
def Dev.edgeDone (d : Dev) (p : Nat) (hi : Bool) (mv : Int) : Dev :=
  let e := d.edge p hi
  if e.active && e.seg == (if heavyPort p then 3 else 1) && Nat.ble (mv - d.levelMv p hi e.on).natAbs 500 then
    let d := (d.recordEdge p hi e).put (gateSensed hi) p e.on
    d.setDrv p hi { d.drv p hi with settled := !e.on, held := e.on, edge := { e with active := false, requested := false } }
  else d

/-- DRIVER_INPUT_CHANGE: a switch command reaches the driver input of port p, whose supplies stand at hiMv and loMv. -/
def execDriverInputChange (t : Nat) (p : Fin 64) (hiMv loMv : Nat) (s : State) : Host.Outcome State Fault Refusal :=
  effect t s fun d =>
    let d := (d.supplyAt p true hiMv).supplyAt p false loMv
    match d.nextInput p with
    | none => d
    | some ((hi, lo), q) =>
      let d := d.setPort p q
      if q.linkDown then d else d.driverInput p hi lo hiMv loMv

/-- GATE_EDGE_START: the gate current of a requested edge starts, 20 ns after its condition at the earliest on a heavy port, 15 ns on a
light one (R69): 16 and 12 ticks. -/
def execGateEdgeStart (t : Nat) (p : Fin 64) (hi : Bool) (s : State) : Host.Outcome State Fault Refusal :=
  effect t s fun d =>
    let v := d.drv p hi
    if v.edge.requested && Nat.ble (v.edge.since + (if heavyPort p then 16 else 12)) d.time then
      let e : Edge := { on := v.edge.on, active := true, seg := 1, since := d.time, startedAt := d.time, checked := false }
      d.setDrv p hi { v with settled := !e.on && v.settled, edge := e }
    else d

/-- PLATEAU_ENTRY: segment 2 begins (R67). -/
def execPlateauEntry (t : Nat) (p : Fin 64) (g : PlateauSense) (s : State) : Host.Outcome State Fault Refusal :=
  effect t s fun d => d.plateauEntry p g.hi g.first g.slope g.mv

/-- PLATEAU_EXIT: segment 3 begins (R67). -/
def execPlateauExit (t : Nat) (p : Fin 64) (g : GateSense) (s : State) : Host.Outcome State Fault Refusal :=
  effect t s fun d => d.plateauExit p g.hi g.mv

/-- SEG_TIMEOUT: a segment reaches its time limit (R67). -/
def execSegTimeout (t : Nat) (p : Fin 64) (hi : Bool) (s : State) : Host.Outcome State Fault Refusal :=
  effect t s fun d => d.segEnd p hi

/-- EDGE_COMPLETE (R67, R70): an edge of a switch ends, with its gate at `g.mv`. -/
def execEdgeComplete (t : Nat) (p : Fin 64) (g : GateSense) (s : State) : Host.Outcome State Fault Refusal :=
  effect t s fun d => d.edgeDone p g.hi g.mv

/-- UVLO: the supply of a driver falls to `mv` (R72). -/
def execUvlo (t : Nat) (p : Fin 64) (hi : Bool) (mv : Nat) (s : State) : Host.Outcome State Fault Refusal :=
  effect t s fun d => d.lockout p hi mv

/-- GATE_MONITOR_CHECK: the monitor window after an edge ends with the gate at `mv` (R74). -/
def execGateMonitorCheck (t : Nat) (p : Fin 64) (hi : Bool) (mv : Int) (s : State) : Host.Outcome State Fault Refusal :=
  effect t s fun d =>
    let e := d.edge p hi
    if d.flag F.PP_MON_enable p && !e.checked && Nat.ble (e.startedAt + 2 * d.rd F.PP_MON_window p) d.time then
      (d.setEdge p hi { e with checked := true }).monitorGate p hi mv
    else d

/-- GATE_MISMATCH: the gate stands at `mv` while no edge is in progress (R74). -/
def execGateMismatch (t : Nat) (p : Fin 64) (hi : Bool) (mv : Int) (s : State) : Host.Outcome State Fault Refusal :=
  effect t s fun d =>
    let e := d.edge p hi
    if d.flag F.PP_MON_enable p && !e.active && !e.requested then d.monitorGate p hi mv else d

/-- LINK_DOWN: no valid frame for 200 ns (R75). -/
def execLinkDown (t : Nat) (p : Fin 64) (s : State) : Host.Outcome State Fault Refusal :=
  effect t s fun d => d.linkLost p false

/-- TRIP_LANE_DOWN: no valid trip-lane symbol for 200 ns (R75). -/
def execTripLaneDown (t : Nat) (p : Fin 64) (s : State) : Host.Outcome State Fault Refusal :=
  effect t s fun d => d.linkLost p true

/-- LINK_RESUME: valid frames, or trip-lane symbols where `lane`, resume (R75). -/
def execLinkResume (t : Nat) (p : Fin 64) (lane : Bool) (hiMv loMv : Nat) (s : State) : Host.Outcome State Fault Refusal :=
  effect t s fun d => d.linkBack p lane hiMv loMv

/-- SUPPLY_HIGH: VDRV of a heavy stage (0 to 13), or VGL (14), stands at `mv` (R76). -/
def execSupplyHigh (t : Nat) (src : Fin 15) (mv : Nat) (s : State) : Host.Outcome State Fault Refusal :=
  effect t s fun d =>
    let ports := if src.val = 14 then (List.range 22).map (42 + ·) else stagePorts src
    d.each ports fun d p =>
      let d := d.supplyAt p false mv
      if Nat.blt (if src.val = 14 then 16000 else 26000) mv then d.put F.PP_STAT_supply_high p true else d

end Sys2Proof.Machine
end

