-- ==== Sys2Proof/Machine/SealCheck.lean ====
section
/-! DEFINITION. The seal (R32, R181): the loop plan's check, the digest, and what sealing changes. -/

namespace Sys2Proof.Machine

/-! ### Decoding operation words (R159 to R171, R184, R194, R198, R200) -/

/-- What an operation word uses: whether mod, dst, a, b, c and imm are used, the runs of variables it names (first, count), and
whether its modifier and immediate values are legal. -/
structure OpShape where
  mod : Bool := true
  dst : Bool := true
  a : Bool := false
  b : Bool := false
  c : Bool := false
  imm : Bool := false
  vars : List (Nat × Nat) := []
  legal : Bool := true

/-- Record fields that a LOAD converts through a scale (R161): the shunt currents, the voltages, the latch speed. -/
def scaledField (f : Nat) : Bool := [0x00, 0x02, 0x04, 0x05, 0x09].contains f

/-- LOAD (R161). -/
def loadShape (w : Nat) : OpShape :=
  let space := opMod w / 8
  let k := opMod w % 8
  let imm := opImm w
  { imm := true, vars := [(opDst w, 1)],
    legal :=
      if space = 0 ∨ space = 4 then imm < 256 && k == 0
      else if space = 1 then imm < 64
      else if space = 2 then imm < 16 && (k == 0 || scaledField imm)
      else if space = 3 then imm < 96
      else if space = 5 ∨ space = 6 then k == 0
      else false }

/-- STORE (R162). -/
def storeShape (w : Nat) : OpShape :=
  let space := opMod w / 8
  let low := opMod w % 8
  let imm := opImm w
  { dst := false, a := true, imm := true, vars := [(opA w, 1)],
    legal :=
      if space = 0 ∨ space = 4 then imm < 256 && low == 0
      else if space = 1 then imm < 64 && low % 2 == 0
      else space == 5 && low == 0 }

/-- SECT and CASC (R164, R184). -/
def sectShape (w : Nat) : OpShape :=
  let n := if opCode w = 4 then 1 else opMod w / 8 + 1
  let high := if opCode w = 4 then opMod w / 4 == 0 else bitOf (opMod w) 2 == false
  { a := true, b := bitOf (opMod w) 0, c := true, imm := true, vars := [(opDst w, 1), (opA w, 1), (opC w, 4 * n)],
    legal := high && opImm w < 65536 && (bitOf (opMod w) 1 || opImm w < 256) && opImm w % 256 + 8 * n ≤ 256 }

/-- The shape of an operation word; an undefined operation code is not legal. -/
def opShape (w : Nat) : OpShape :=
  let m := opMod w
  let dst := opDst w
  let a := opA w
  let b := opB w
  let c := opC w
  let imm := opImm w
  match opCode w with
  | 0x01 => loadShape w
  | 0x02 => storeShape w
  | 0x03 => { mod := false, dst := false, a := true, imm := true, vars := [(a, imm % 16 + 1)],
              legal := imm < 256 && (!bitOf imm 7 || imm / 16 % 8 == 0) }
  | 0x04 | 0x05 => sectShape w
  | 0x06 => { a := true, vars := [(dst, 2), (a, if bitOf m 0 then 2 else 3)], legal := m < 2 }
  | 0x07 | 0x08 => { mod := false, a := true, b := true, vars := [(dst, 2), (a, 2), (b, 2)] }
  | 0x09 =>
    let keep := bitOf m 2
    { a := true, b := true, c := keep, imm := keep, vars := [(dst, 3), (a, 2)] ++ if keep then [(c, 3)] else [],
      legal := m < 8 && m % 4 < 2 && imm < 256 }
  | 0x0A => { a := true, b := bitOf m 0, imm := true, vars := [(dst, 2)], legal := m < 2 && imm < 8 }
  | 0x0B => { mod := false, a := true, b := true, imm := true, vars := [(dst, 1)], legal := imm < 16 }
  | 0x0C => { a := true, b := true, c := true, legal := m < 2 }
  | 0x0D => { mod := false, a := true, b := true, c := true }
  | 0x0E => { a := true, b := m != 6, imm := m == 6, legal := 1 ≤ m && m ≤ 6 }
  | 0x0F => { c := true, vars := [(dst, 3), (c, 3)], legal := m < 8 }
  | 0x10 =>
    { a := true, b := true, c := true, vars := [(dst, 3), (b, 3), (c, 6), (a, if bitOf m 1 then 4 else 1)], legal := m < 4 }
  | 0x11 => { mod := false, a := true, b := true, c := true, imm := true, vars := [(c, 2)], legal := imm + 8 ≤ 256 }
  | 0x12 => { a := true, b := true, c := true, imm := true, vars := [(a, m % 8 + 1), (c, 4)], legal := m < 8 && imm + 16 ≤ 256 }
  | 0x13 => { legal := m < 2 }
  | _ => { legal := false }

/-- Does an operation word decode (R181, DECODE)? -/
def opDecodes (w : Nat) : Bool :=
  let s := opShape w
  s.legal && (s.mod || opMod w == 0) && (s.dst || opDst w == 0) && (s.a || opA w == 0) && (s.b || opB w == 0) &&
    (s.c || opC w == 0) && (s.imm || opImm w == 0) && s.vars.all fun v => v.1 + v.2 ≤ 256

/-- A LOAD of the record field PV on a stage where it is a raw code, HS8 to HS13 or a light stage, uses no scale (R93, R159, R161). -/
def rawPvDecodes (home w : Nat) : Bool := !(opCode w == 1 && opMod w / 8 == 2 && opImm w == 5 && Nat.ble 8 home) || opMod w % 8 == 0

/-! ### The loop plan (R181) -/

/-- The operation words of a loop's program. -/
def Dev.program (d : Dev) (l : Nat) : List Nat := (List.range (d.rd F.BE_LP_PROG_length l)).map (d.opWord l)

/-- The enabled loops of an engine. -/
def Dev.planOf (d : Dev) (e : Nat) : List Nat := d.loops.filter fun l => d.rd F.BE_LP_CFG_engine l == e

/-- Beats times beats per run of a loop, in ticks. -/
def Dev.runSpan (d : Dev) (l : Nat) : Nat := d.beat (d.home l) * d.rd F.BE_LP_CFG_div l

/-- STAGE: the stages of a loop. -/
def Dev.stagePlanBad (d : Dev) (l : Nat) : Bool :=
  let h := d.home l
  let fit (s : Nat) : Bool := d.flag F.TB_STG_CFG_enable s && d.loopStage s
  let same (f : Fd) (k : Nat) : Bool := d.rd f h == d.rd f k
  (d.loopStages l).any (fun s => !fit s) ||
    (!d.isAux l &&
      (d.rd F.BE_LP_CFG_div l != 1 ||
       (d.loopStages l).any (fun s => d.loops.any fun k => k != l && !d.isAux k && (d.loopStages k).contains s) ||
       (match d.linkOf l with
        | some k =>
          !(same F.TB_STG_PERIOD_period k && same F.TB_STG_CFG_count_mode k && same F.TB_STG_CFG_beat_div k && same F.TB_STG_CFG_sync k)
        | none => false)))

/-- The PG stores of a program: place, stage of the port, whether it is the commit store. -/
def pgStores (p : List Nat) : List (Nat × Nat × Bool) :=
  p.zipIdx.filterMap fun x =>
    if opCode x.1 = 2 ∧ opMod x.1 / 8 = 1 then some (x.2, portStage (opImm x.1 % 64), bitOf (opMod x.1) 2) else none

/-- PORT: a store to a port of another stage, or by an AUX loop. -/
def Dev.portPlanBad (d : Dev) (l : Nat) : Bool :=
  let st := pgStores (d.program l)
  (d.isAux l && !st.isEmpty) || st.any fun x => !(d.loopStages l).contains x.2.1

/-- COMMIT: not exactly one commit store per driven stage, or a PG store of the stage after it. -/
def Dev.commitPlanBad (d : Dev) (l : Nat) : Bool :=
  let st := pgStores (d.program l)
  !d.isAux l && (d.loopStages l).any fun s =>
    match st.filter (fun x => x.2.1 == s && x.2.2) with
    | [x] => st.any fun y => y.2.1 == s && Nat.blt x.1 y.1
    | _ => true


/-- Does a position port deliver its latch to the beats of a stage (R141)? -/
def Dev.deliversLatch (d : Dev) (s i : Nat) : Bool :=
  let u := d.rd F.PS_LATCH_CFG_trigger i
  d.flag F.PS_CFG_enable i && d.flag F.PS_LATCH_CFG_enable i && d.flag F.TB_TRIG_CFG_enable u && d.rd F.TB_TRIG_CFG_stage u == s

/-- INPUT: a waited record that does not come, or a wait that an AUX loop does not have. Every stage delivers shunt records A and B in
every beat, unplaced ones where it places no instant (R94). -/
def Dev.inputPlanBad (d : Dev) (l : Nat) : Bool :=
  let h := d.home l
  let hk := d.flag F.BE_LP_IN_hk l
  (d.isAux l && (d.flag F.BE_LP_IN_sh_a l || d.flag F.BE_LP_IN_sh_b l || hk)) || (hk && !heavyStage h) ||
    (d.flag F.BE_LP_IN_lat l && !d.deliversLatch h (d.rd F.BE_LP_IN_lat_port l))

/-- Is the sum of wcet over run span of an engine's loops above 0.9 (LOAD)? -/
def Dev.engineFull (d : Dev) (e : Nat) : Bool :=
  let load : Rat := (d.planOf e).foldl (fun x l => x + (d.rd F.BE_LP_PROG_wcet l : Rat) / (max 1 (d.runSpan l) : Nat)) 0
  9 / 10 < load

/-- The reason for which a loop fails the seal check, if it does (R181). -/
def Dev.loopPlan (d : Dev) (l : Nat) : Option Nat :=
  let e := d.rd F.BE_LP_CFG_engine l
  if d.fenced Kind.engine e || bitOf (d.rd F.BE_POOL_CFG_spares 0) e then some 1
  else if 8 < (d.planOf e).length then some 2
  else if d.stagePlanBad l then some 3
  else if !(d.program l).all fun w => opDecodes w && rawPvDecodes (d.home l) w then some 4
  else if d.portPlanBad l then some 5
  else if d.commitPlanBad l then some 6
  else if d.inputPlanBad l then some 7
  else if d.runSpan l < d.rd F.BE_LP_IN_start_limit l + d.rd F.BE_LP_PROG_wcet l + d.rd F.TB_STG_LIMIT_guard (d.home l) then some 8
  else if d.engineFull e then some 9
  else if d.flag F.BE_LP_TEL_enable l && d.qpKind (d.rd F.BE_LP_TEL_queue_pair l) != 2 then some 10
  else none

/-- The first loop that fails, in loop-number order, and why. -/
def Dev.planFails (d : Dev) : Option (Nat × Nat) := d.loops.findSome? fun l => (d.loopPlan l).map fun r => (l, r)

/-! ### The digest (R32) -/

/-- The class S registers from an offset on, as bytes in address order. -/
def Dev.setupBytes (d : Dev) (first last : Nat) : List Byte :=
  (List.range ((last - first) / 4)).flatMap fun k =>
    match findReg (first + 4 * k) with
    | some r => if r.cls = .S then wordBytes (d.word (first + 4 * k)) else []
    | none => []

/-- Table memory from a table offset on, as bytes. -/
def Dev.tableBytes (d : Dev) (first last : Nat) : List Byte :=
  (List.range ((last - first) / 4)).flatMap fun k => wordBytes (d.lt (first + 4 * k))

/-- What the seal digest covers: the class S registers below the LT window, the class S regions of table memory, the class S
registers above it. -/
def Dev.sealedBytes (d : Dev) : List Byte :=
  d.setupBytes 0 0x40000 ++ d.tableBytes 0 0x70000 ++ d.tableBytes 0x74000 0x74C00 ++ d.tableBytes 0x78000 0xC0000 ++
    d.setupBytes 0x80000 0xAC000

/-- DEV_MEASURE takes the digest. -/
def Dev.measure (d : Dev) : Dev :=
  let h := Config.shake256 d.sealedBytes
  d.each (List.range 16) fun d i => d.wr F.DEV_MEASURE i (byteWord fun k => h (4 * i + k)).toNat

/-! ### The request completes -/

/-- The request completes with a status and a detail; the bit reads 0 again. -/
def Dev.sealOutcome (d : Dev) (st kind index : Nat) : Dev :=
  let d := (d.put F.DEV_SEAL_CTRL_seal 0 false).wr F.DEV_SEAL_CTRL_outcome 0 st
  ((d.wr F.DEV_SEAL_CTRL_detail_kind 0 kind).wr F.DEV_SEAL_CTRL_detail_index 0 index).onSys fun k => { k with sealBy := none }

/-- A refused seal: the device returns to SETUP (R31, R32). -/
def Dev.sealRefused (d : Dev) (st kind index : Nat) : Dev := (d.sealOutcome st kind index).wr F.DEV_STATE_state 0 DevSt.setup

/-- Does the safety controller run its firmware (R279)? -/
def Dev.firmwareRuns (d : Dev) : Bool :=
  d.flag F.SC_FW_ready 0 && [ScMode.duplex, ScMode.simplexA, ScMode.simplexB].contains d.scMode

/-- Every enabled sequencer enters its state of rest, the others are OFF (R206). -/
def Dev.sealSequencers (d : Dev) : Dev :=
  let d := d.each [0, 1] fun d m => d.tmGo m (if d.flag F.SC_TM_CFG_enable m then 2 else 1)
  let d := (d.chGo (if d.flag F.SC_CH_CFG_enable 0 then 2 else 1)).lvGo (if d.flag F.SC_LV_CFG_enable 0 then 2 else 1)
  d.each (List.range 6) fun d a => d.drGo a (if d.flag F.SC_DR_CFG_enable a then 2 else 1)

/-- A seal succeeds: digest, banks, loops, sequencers, SEALED. -/
def Dev.sealSucceeds (d : Dev) : Dev :=
  let d := ((d.measure.sealBanks).sealPool).sealSequencers
  let d := d.wr F.IMS_BOOT_seal_ms 0 (min (d.time / 800000) 255)
  (d.sealOutcome Code.OK 0 0).wr F.DEV_STATE_state 0 DevSt.sealed

/-- The seal checks finish (R32): an unresolved conflict, the loop plan, the safety firmware, in this order. -/
def Dev.sealComplete (d : Dev) : Dev :=
  if d.devState ≠ DevSt.sealing then d
  else match d.sys.conflicts with
    | c :: _ => d.sealRefused Code.CLAIMED c.kind c.index
    | [] =>
      match d.planFails with
      | some (l, r) => (d.wr F.BE_POOL_CHECK 0 (l + 256 * r + 2 ^ 31)).sealRefused Code.FENCED 0xF l
      | none =>
        let d := d.put F.BE_POOL_CHECK_valid 0 false
        if d.firmwareRuns then d.sealSucceeds else d.sealRefused Code.STALE 0 0

/-- SEAL_COMPLETE. -/
def execSealComplete (t : Nat) (s : State) : Host.Outcome State Fault Refusal := effect t s Dev.sealComplete

end Sys2Proof.Machine
end

