-- ==== Sys2Proof/Machine/Snapshot.lean ====
section
/-! DEFINITION. The state snapshot (R322): a preamble and one section per unit instance that has registers. -/

namespace Sys2Proof.Machine

/-- The bytes of a block of a section: its SETUP offset, its length in bytes, and its words, read without side effects. -/
def Dev.blockBytes (d : Dev) (b : Nat × Nat) : List Byte :=
  numBytes b.1 4 ++ numBytes (4 * b.2) 4 ++ (List.range b.2).flatMap fun k => wordBytes (d.view (b.1 + 4 * k))

/-- The written variables and the parameters of loop l. -/
def Dev.loopBytes (d : Dev) (l : Nat) : List Byte :=
  ((List.range 256).flatMap fun k => wordBytes (d.lt (varBase l + 4 * k))) ++
    (List.range 64).flatMap fun k => wordBytes (d.lt (parBase l + 4 * k))

/-- The bytes of a section: kind, index, flags, the bytes of its body, its stamp (a loop's is the device time of the update point of its
last written run, R182; any other's the instant at which it is read), and its body. -/
def Dev.sectionBytes (d : Dev) (u : Nat × Nat × List (Nat × Nat)) : List Byte :=
  let (kind, index, blocks) := u
  let stamp := if kind = Kind.loop then (d.loop index).doneAt else d.time
  numBytes kind 1 ++ numBytes index 1 ++ numBytes (b2n (d.fenced kind index)) 2 ++ numBytes (snapBody kind blocks) 4 ++ numBytes stamp 8 ++
    blocks.flatMap d.blockBytes ++ (if kind = Kind.loop then d.loopBytes index else [])

/-- The bytes of a snapshot: total bytes, sections, device time at the start and at the end (the model reads the whole at one instant, log
entry 40), 8 zero bytes; then the sections. -/
def Dev.snapshotBytes (d : Dev) : List Byte :=
  numBytes snapSize 4 ++ numBytes snapUnits.length 4 ++ numBytes d.time 8 ++ numBytes d.time 8 ++ numBytes 0 8 ++
    snapUnits.flatMap d.sectionBytes

/-- SNAPSHOT: the state of every unit goes to the host buffer. -/
def execSnapshot (t : Nat) (q : Fin 64) (i : Nat) (s : State) : Host.Outcome State Fault Refusal :=
  effect t s fun d => d.startItem q i Op.SNAPSHOT .received fun d x =>
    (d.emit (.bytes x.address d.snapshotBytes)).finish q i Code.OK false snapSize

end Sys2Proof.Machine
end

