-- ==== Sys2Proof/Machine/Float32.lean ====
section
/-! DEFINITION. Single-precision arithmetic of the F extension that the copies of the safety controller implement (R263): exact values,
rounded once. The rule names the RISC-V specification, and the content is that specification's (PRESUMED, log entry 71). -/

namespace Sys2Proof.Machine

/-- What a single-precision word stands for: a NaN, signalling or quiet, an infinity, or a number by sign and magnitude. -/
inductive F32 where
  | nan (signalling : Bool)
  | inf (neg : Bool)
  | num (neg : Bool) (mag : Rat)
  deriving DecidableEq, Repr

/-- A result with its exception flags: invalid 16, division by zero 8, overflow 4, underflow 2, inexact 1. -/
abbrev FltOut := Word × Nat

/-- A power of two. -/
def pow2 : Int → Rat
  | .ofNat n => ((2 ^ n : Nat) : Rat)
  | .negSucc n => 1 / ((2 ^ (n + 1) : Nat) : Rat)

/-- The exponent of the power of two at or below a positive number. -/
def floorLog2 (q : Rat) : Int :=
  let e : Int := (Nat.log2 q.num.natAbs : Int) - Nat.log2 q.den
  if pow2 e ≤ q then e else e - 1

/-- The value of a word. -/
def fltValue (w : Word) : F32 :=
  let neg := w.msb
  let e := getBits w 23 8
  let m := getBits w 0 23
  if e = 255 then (if m = 0 then .inf neg else .nan (Nat.blt m 4194304))
  else if e = 0 then .num neg ((m : Rat) * pow2 (-149))
  else .num neg (((8388608 + m : Nat) : Rat) * pow2 ((e : Int) - 150))

/-- The canonical NaN. -/
def fltNan : Word := 0x7FC00000#32

/-- A word of magnitude bits with a sign. -/
def fltSign (neg : Bool) (bits : Nat) : Word := BitVec.ofNat 32 (bits + if neg then 2 ^ 31 else 0)

def fltInf (neg : Bool) : Word := fltSign neg 0x7F800000

/-- An invalid operation. -/
def fltInvalid : FltOut := (fltNan, 16)

/-- The result where an operand is a NaN: invalid where one signals. -/
def fltNans (l : List F32) : FltOut := (fltNan, if l.any fun x => x == .nan true then 16 else 0)

/-- Is an operand a NaN? -/
def F32.isNan : F32 → Bool
  | .nan _ => true
  | _ => false

/-- A magnitude rounded to an integer, and whether it was not one. Modes: 0 to nearest, ties to even; 1 to zero; 2 down; 3 up; 4 to
nearest, ties away from zero. -/
def roundMode (rm : Nat) (neg : Bool) (q : Rat) : Nat × Bool :=
  let m := q.floor.toNat
  let r := q - m
  let up :=
    if rm = 0 then decide (1 / 2 < r) || (decide (r = 1 / 2) && m % 2 == 1)
    else if rm = 2 then neg && decide (0 < r)
    else if rm = 3 then !neg && decide (0 < r)
    else if rm = 4 then decide (1 / 2 ≤ r)
    else false
  (m + b2n up, decide (r ≠ 0))

/-- A number rounded to single precision. A result is tiny where it lies below the least normal number after rounding with an unbounded
exponent. -/
def fltRound (rm : Nat) (neg : Bool) (mag : Rat) : FltOut :=
  if mag = 0 then (fltSign neg 0, 0)
  else
    let e := floorLog2 mag
    let e' := max e (-126)
    let (m, inexact) := roundMode rm neg (mag * pow2 (23 - e'))
    let bits := (e' + 126).toNat * 8388608 + m
    if 0x7F800000 ≤ bits then
      (if rm = 1 ∨ (rm = 2 ∧ neg = false) ∨ (rm = 3 ∧ neg = true) then fltSign neg 0x7F7FFFFF else fltInf neg, 5)
    else
      let tiny := e < -127 || (e == -127 && Nat.blt (roundMode rm neg (mag * pow2 (23 - e))).1 16777216)
      (fltSign neg bits, if inexact then (if tiny then 3 else 1) else 0)

/-- A signed number rounded; an exact zero takes the sign given. -/
def fltOf (rm : Nat) (zeroNeg : Bool) (v : Rat) : FltOut :=
  if v = 0 then (fltSign zeroNeg 0, 0) else fltRound rm (decide (v < 0)) (if v < 0 then -v else v)

/-- The number of a sign and magnitude. -/
def signedMag (neg : Bool) (q : Rat) : Rat := if neg then -q else q

/-- Sum of two values. -/
def fltSum (rm : Nat) (a b : F32) : FltOut :=
  match a, b with
  | .inf x, .inf y => if x = y then (fltInf x, 0) else fltInvalid
  | .inf x, .num _ _ => (fltInf x, 0)
  | .num _ _, .inf y => (fltInf y, 0)
  | .num x p, .num y q => fltOf rm (if x = y then x else rm == 2) (signedMag x p + signedMag y q)
  | a, b => fltNans [a, b]

/-- The value with its sign changed. -/
def F32.neg : F32 → F32
  | .nan s => .nan s
  | .inf x => .inf (!x)
  | .num x q => .num (!x) q

def fltAdd (rm : Nat) (a b : Word) : FltOut := fltSum rm (fltValue a) (fltValue b)
def fltSub (rm : Nat) (a b : Word) : FltOut := fltSum rm (fltValue a) (fltValue b).neg

def fltMul (rm : Nat) (a b : Word) : FltOut :=
  match fltValue a, fltValue b with
  | .num x p, .num y q => fltRound rm (x != y) (p * q)
  | .inf x, .inf y => (fltInf (x != y), 0)
  | .inf x, .num y q => if q = 0 then fltInvalid else (fltInf (x != y), 0)
  | .num x p, .inf y => if p = 0 then fltInvalid else (fltInf (x != y), 0)
  | a, b => fltNans [a, b]

def fltDiv (rm : Nat) (a b : Word) : FltOut :=
  match fltValue a, fltValue b with
  | .num x p, .num y q =>
    if q = 0 then (if p = 0 then fltInvalid else (fltInf (x != y), 8)) else fltRound rm (x != y) (p / q)
  | .inf _, .inf _ => fltInvalid
  | .inf x, .num y _ => (fltInf (x != y), 0)
  | .num x _, .inf y => (fltSign (x != y) 0, 0)
  | a, b => fltNans [a, b]

/-- The integer square root, bit by bit from 2^(n−1) down. -/
def sqrtBits (v : Nat) : Nat → Nat → Nat
  | 0, r => r
  | n + 1, r => sqrtBits v n (if (r + 2 ^ n) * (r + 2 ^ n) ≤ v then r + 2 ^ n else r)

/-- A square root, taken to 2^−110; one that is not exact stands half a unit higher, so that it rounds as the root does. -/
def ratSqrt (q : Rat) : Rat :=
  let v := q * ((4 ^ 110 : Nat) : Rat)
  let r := sqrtBits v.floor.toNat 176 0
  let one : Rat := ((2 ^ 110 : Nat) : Rat)
  if ((r * r : Nat) : Rat) = v then (r : Rat) / one else ((r : Rat) + 1 / 2) / one

def fltSqrt (rm : Nat) (a : Word) : FltOut :=
  match fltValue a with
  | .nan s => fltNans [.nan s]
  | .inf x => if x then fltInvalid else (a, 0)
  | .num x q => if q = 0 then (a, 0) else if x then fltInvalid else fltRound rm false (ratSqrt q)

/-- a × b + c with one rounding; `negP` and `negC` change the signs of the product and of c. -/
def fltFma (rm : Nat) (negP negC : Bool) (a b c : Word) : FltOut :=
  let c := if negC then (fltValue c).neg else fltValue c
  let product : F32 := match fltValue a, fltValue b with
    | .num x p, .num y q => .num ((x != y) != negP) (p * q)
    | .inf x, .inf y => .inf ((x != y) != negP)
    | .inf x, .num y q => if q = 0 then .nan true else .inf ((x != y) != negP)
    | .num x p, .inf y => if p = 0 then .nan true else .inf ((x != y) != negP)
    | a, b => .nan (a == .nan true || b == .nan true)
  fltSum rm product c

/-- A value on the number line, an infinity beyond every number. -/
def F32.real : F32 → Rat
  | .nan _ => 0
  | .inf x => signedMag x (pow2 200)
  | .num x q => signedMag x q

/-- The smaller (or the larger) operand; the other one of a NaN; −0 lies below +0. -/
def fltMinMax (larger : Bool) (a b : Word) : FltOut :=
  let x := fltValue a
  let y := fltValue b
  let flags := (fltNans [x, y]).2
  let aLess := decide (x.real < y.real) || (decide (x.real = y.real) && a.msb)
  (if x.isNan && y.isNan then fltNan else if x.isNan then b else if y.isNan then a else if aLess == larger then b else a, flags)

/-- A comparison: 2 equal, 1 less, 0 less or equal. A quiet NaN makes all but the first invalid. -/
def fltCompare (kind : Nat) (a b : Word) : FltOut :=
  let x := fltValue a
  let y := fltValue b
  if x.isNan || y.isNan then (0, if kind = 2 then (fltNans [x, y]).2 else 16)
  else
    let r := if kind = 2 then decide (x.real = y.real) else if kind = 1 then decide (x.real < y.real) else decide (x.real ≤ y.real)
    (BitVec.ofNat 32 (b2n r), 0)

/-- The class mask of a word. -/
def fltClass (a : Word) : Word :=
  match fltValue a with
  | .nan s => if s then 0x100#32 else 0x200#32
  | .inf x => if x then 1#32 else 0x80#32
  | .num x q =>
    let k := if q = 0 then 3 else if q < pow2 (-126) then 2 else 1
    BitVec.ofNat 32 (2 ^ (if x then k else 7 - k))

/-- The sign of b, its complement, or the exclusive or of the signs, on the magnitude of a. -/
def fltSignInject (kind : Nat) (a b : Word) : Word :=
  let s := if kind = 0 then b.msb else if kind = 1 then !b.msb else a.msb != b.msb
  fltSign s (getBits a 0 31)

/-- To an integer of 32 bits, signed or not: out of range the nearest limit, and a NaN the highest. -/
def fltToInt (rm : Nat) (isSigned : Bool) (a : Word) : FltOut :=
  let lo : Int := if isSigned then -2147483648 else 0
  let hi : Int := if isSigned then 2147483647 else 4294967295
  match fltValue a with
  | .nan _ => (BitVec.ofInt 32 hi, 16)
  | .inf x => (BitVec.ofInt 32 (if x then lo else hi), 16)
  | .num x q =>
    let (m, inexact) := roundMode rm x q
    let v : Int := if x then -(m : Int) else m
    if v < lo ∨ hi < v then (BitVec.ofInt 32 (clampInt lo hi v), 16) else (BitVec.ofInt 32 v, b2n inexact)

/-- From an integer of 32 bits. -/
def fltFromInt (rm : Nat) (isSigned : Bool) (a : Word) : FltOut :=
  let v : Int := if isSigned then a.toInt else a.toNat
  fltOf rm false v

end Sys2Proof.Machine
end

