-- ==== Sys2Proof/Machine/Rv32.lean ====
section
/-! DEFINITION. The instruction set that the copies of the safety controller execute (R263): RV32IMFC in machine mode. The rule names the
RISC-V specification, and the encodings and effects are that specification's (PRESUMED, log entry 71). -/

namespace Sys2Proof.Machine

/-- An instruction: operand registers by number, immediates as words. `alu` and `muldiv` are named by funct3, `alt` by bit 30. -/
inductive Rv where
  | lui (rd : Nat) (imm : Word)
  | auipc (rd : Nat) (imm : Word)
  | jal (rd : Nat) (imm : Word)
  | jalr (rd rs1 : Nat) (imm : Word)
  | branch (f3 rs1 rs2 : Nat) (imm : Word)
  | load (f3 rd rs1 : Nat) (imm : Word)
  | store (f3 rs1 rs2 : Nat) (imm : Word)
  | aluImm (f3 : Nat) (alt : Bool) (rd rs1 : Nat) (imm : Word)
  | alu (f3 : Nat) (alt : Bool) (rd rs1 rs2 : Nat)
  | muldiv (f3 rd rs1 rs2 : Nat)
  | fence
  | wfi
  | mret
  | ecall
  | ebreak
  | csr (f3 rd rs1 num : Nat)
  | flw (rd rs1 : Nat) (imm : Word)
  | fsw (rs1 rs2 : Nat) (imm : Word)
  | fma (negP negC : Bool) (rm rd rs1 rs2 rs3 : Nat)
  | fop (f7 rm rd rs1 rs2 : Nat)
  | illegal
  deriving DecidableEq, Repr

/-! ### Decoding -/

/-- An immediate of `width` bits, extended with its sign. -/
def rvImm (width v : Nat) : Word := BitVec.ofInt 32 (signed width v)

/-- A SYSTEM instruction. -/
def decodeSystem (w : Word) (f3 rd rs1 : Nat) : Rv :=
  if f3 = 0 then
    (if w = 0x00000073#32 then .ecall else if w = 0x00100073#32 then .ebreak else if w = 0x30200073#32 then .mret
     else if w = 0x10500073#32 then .wfi else .illegal)
  else if f3 = 4 then .illegal
  else .csr f3 rd rs1 (getBits w 20 12)

/-- Is a floating-point operation of this funct7, rs2 and rounding field one of the F extension? -/
def isFop (f7 rm rs2 : Nat) : Bool :=
  if [0x00, 0x04, 0x08, 0x0C].contains f7 then true
  else if f7 = 0x2C then rs2 == 0
  else if f7 = 0x10 then Nat.ble rm 2
  else if f7 = 0x14 then Nat.ble rm 1
  else if f7 = 0x50 then Nat.ble rm 2
  else if f7 = 0x60 || f7 = 0x68 then Nat.ble rs2 1
  else if f7 = 0x70 then rs2 == 0 && Nat.ble rm 1
  else if f7 = 0x78 then rs2 == 0 && rm == 0
  else false

/-- A 32-bit instruction. -/
def decodeRv (w : Word) : Rv :=
  let rd := getBits w 7 5
  let f3 := getBits w 12 3
  let rs1 := getBits w 15 5
  let rs2 := getBits w 20 5
  let f7 := getBits w 25 7
  let immI := rvImm 12 (getBits w 20 12)
  let immS := rvImm 12 (getBits w 7 5 + 32 * getBits w 25 7)
  let immU := w &&& 0xFFFFF000#32
  match getBits w 0 7 with
  | 0x37 => .lui rd immU
  | 0x17 => .auipc rd immU
  | 0x6F => .jal rd (rvImm 21 (2 * getBits w 21 10 + 2 ^ 11 * getBits w 20 1 + 2 ^ 12 * getBits w 12 8 + 2 ^ 20 * getBits w 31 1))
  | 0x67 => if f3 = 0 then .jalr rd rs1 immI else .illegal
  | 0x63 =>
    if f3 = 2 ∨ f3 = 3 then .illegal
    else .branch f3 rs1 rs2 (rvImm 13 (2 * getBits w 8 4 + 2 ^ 5 * getBits w 25 6 + 2 ^ 11 * getBits w 7 1 + 2 ^ 12 * getBits w 31 1))
  | 0x03 => if [0, 1, 2, 4, 5].contains f3 then .load f3 rd rs1 immI else .illegal
  | 0x23 => if f3 ≤ 2 then .store f3 rs1 rs2 immS else .illegal
  | 0x13 =>
    if f3 = 1 then (if f7 = 0 then .aluImm 1 false rd rs1 (BitVec.ofNat 32 rs2) else .illegal)
    else if f3 = 5 then
      (if f7 = 0 then .aluImm 5 false rd rs1 (BitVec.ofNat 32 rs2) else if f7 = 0x20 then .aluImm 5 true rd rs1 (BitVec.ofNat 32 rs2)
       else .illegal)
    else .aluImm f3 false rd rs1 immI
  | 0x33 =>
    if f7 = 0 then .alu f3 false rd rs1 rs2
    else if f7 = 0x20 ∧ (f3 = 0 ∨ f3 = 5) then .alu f3 true rd rs1 rs2
    else if f7 = 1 then .muldiv f3 rd rs1 rs2
    else .illegal
  | 0x0F => if f3 ≤ 1 then .fence else .illegal
  | 0x73 => decodeSystem w f3 rd rs1
  | 0x07 => if f3 = 2 then .flw rd rs1 immI else .illegal
  | 0x27 => if f3 = 2 then .fsw rs1 rs2 immS else .illegal
  | 0x43 => if f7 % 4 = 0 then .fma false false f3 rd rs1 rs2 (f7 / 4) else .illegal
  | 0x47 => if f7 % 4 = 0 then .fma false true f3 rd rs1 rs2 (f7 / 4) else .illegal
  | 0x4B => if f7 % 4 = 0 then .fma true false f3 rd rs1 rs2 (f7 / 4) else .illegal
  | 0x4F => if f7 % 4 = 0 then .fma true true f3 rd rs1 rs2 (f7 / 4) else .illegal
  | 0x53 => if isFop f7 f3 rs2 then .fop f7 f3 rd rs1 rs2 else .illegal
  | _ => .illegal

/-- The immediate of C.J and C.JAL. -/
def immCJ (w : Word) : Word :=
  rvImm 12 (2 * getBits w 3 3 + 2 ^ 4 * getBits w 11 1 + 2 ^ 5 * getBits w 2 1 + 2 ^ 6 * getBits w 7 1 + 2 ^ 7 * getBits w 6 1 +
    2 ^ 8 * getBits w 9 2 + 2 ^ 10 * getBits w 8 1 + 2 ^ 11 * getBits w 12 1)

/-- The immediate of C.BEQZ and C.BNEZ. -/
def immCB (w : Word) : Word :=
  rvImm 9 (2 * getBits w 3 2 + 2 ^ 3 * getBits w 10 2 + 2 ^ 5 * getBits w 2 1 + 2 ^ 6 * getBits w 5 2 + 2 ^ 8 * getBits w 12 1)

/-- Quadrant 0 of the compressed instructions. -/
def decodeC0 (w : Word) (f3 : Nat) : Rv :=
  let r1 := getBits w 7 3 + 8
  let r2 := getBits w 2 3 + 8
  let off := BitVec.ofNat 32 (2 ^ 2 * getBits w 6 1 + 2 ^ 3 * getBits w 10 3 + 2 ^ 6 * getBits w 5 1)
  let wide := 2 ^ 2 * getBits w 6 1 + 2 ^ 3 * getBits w 5 1 + 2 ^ 4 * getBits w 11 2 + 2 ^ 6 * getBits w 7 4
  if f3 = 0 then (if wide = 0 then .illegal else .aluImm 0 false r2 2 (BitVec.ofNat 32 wide))
  else if f3 = 2 then .load 2 r2 r1 off
  else if f3 = 3 then .flw r2 r1 off
  else if f3 = 6 then .store 2 r1 r2 off
  else if f3 = 7 then .fsw r1 r2 off
  else .illegal

/-- Quadrant 1. -/
def decodeC1 (w : Word) (f3 : Nat) : Rv :=
  let rd := getBits w 7 5
  let r1 := getBits w 7 3 + 8
  let r2 := getBits w 2 3 + 8
  let n := getBits w 2 5 + 32 * getBits w 12 1
  let imm := rvImm 6 n
  if f3 = 0 then .aluImm 0 false rd rd imm
  else if f3 = 1 then .jal 1 (immCJ w)
  else if f3 = 2 then .aluImm 0 false rd 0 imm
  else if f3 = 3 then
    if n = 0 then .illegal
    else if rd = 2 then
      .aluImm 0 false 2 2 (rvImm 10 (2 ^ 4 * getBits w 6 1 + 2 ^ 5 * getBits w 2 1 + 2 ^ 6 * getBits w 5 1 + 2 ^ 7 * getBits w 3 2 +
        2 ^ 9 * getBits w 12 1))
    else .lui rd (rvImm 18 (2 ^ 12 * n))
  else if f3 = 4 then
    let k := getBits w 10 2
    if k = 0 then (if n < 32 then .aluImm 5 false r1 r1 (BitVec.ofNat 32 n) else .illegal)
    else if k = 1 then (if n < 32 then .aluImm 5 true r1 r1 (BitVec.ofNat 32 n) else .illegal)
    else if k = 2 then .aluImm 7 false r1 r1 imm
    else if getBits w 12 1 = 1 then .illegal
    else match getBits w 5 2 with
      | 0 => .alu 0 true r1 r1 r2
      | 1 => .alu 4 false r1 r1 r2
      | 2 => .alu 6 false r1 r1 r2
      | _ => .alu 7 false r1 r1 r2
  else if f3 = 5 then .jal 0 (immCJ w)
  else if f3 = 6 then .branch 0 r1 0 (immCB w)
  else .branch 1 r1 0 (immCB w)

/-- Quadrant 2. -/
def decodeC2 (w : Word) (f3 : Nat) : Rv :=
  let rd := getBits w 7 5
  let rs2 := getBits w 2 5
  let n := rs2 + 32 * getBits w 12 1
  let off := BitVec.ofNat 32 (2 ^ 2 * getBits w 4 3 + 2 ^ 5 * getBits w 12 1 + 2 ^ 6 * getBits w 2 2)
  let soff := BitVec.ofNat 32 (2 ^ 2 * getBits w 9 4 + 2 ^ 6 * getBits w 7 2)
  if f3 = 0 then (if n < 32 then .aluImm 1 false rd rd (BitVec.ofNat 32 n) else .illegal)
  else if f3 = 2 then (if rd = 0 then .illegal else .load 2 rd 2 off)
  else if f3 = 3 then .flw rd 2 off
  else if f3 = 4 then
    if getBits w 12 1 = 0 then
      (if rs2 = 0 then (if rd = 0 then .illegal else .jalr 0 rd 0) else .alu 0 false rd 0 rs2)
    else if rs2 = 0 then (if rd = 0 then .ebreak else .jalr 1 rd 0)
    else .alu 0 false rd rd rs2
  else if f3 = 6 then .store 2 2 rs2 soff
  else if f3 = 7 then .fsw 2 rs2 soff
  else .illegal

/-- A compressed instruction, in the low half of a word. -/
def decodeC (w : Word) : Rv :=
  let f3 := getBits w 13 3
  match getBits w 0 2 with
  | 0 => decodeC0 w f3
  | 1 => decodeC1 w f3
  | _ => decodeC2 w f3

/-! ### Integer operations -/

/-- A result that is 1 or 0. -/
def rvBool (b : Bool) : Word := BitVec.ofNat 32 (b2n b)

/-- An integer operation. -/
def aluOp (f3 : Nat) (alt : Bool) (a b : Word) : Word :=
  let n := b.toNat % 32
  match f3 with
  | 0 => if alt then a - b else a + b
  | 1 => a <<< n
  | 2 => rvBool (decide (a.toInt < b.toInt))
  | 3 => rvBool (Nat.blt a.toNat b.toNat)
  | 4 => a ^^^ b
  | 5 => if alt then BitVec.sshiftRight a n else a >>> n
  | 6 => a ||| b
  | _ => a &&& b

/-- A multiplication or division; a division by zero gives all ones and the dividend, and an overflow the dividend and zero. -/
def mulDivOp (f3 : Nat) (a b : Word) : Word :=
  let high (v : Int) : Word := BitVec.ofInt 32 (v / 4294967296)
  match f3 with
  | 0 => a * b
  | 1 => high (a.toInt * b.toInt)
  | 2 => high (a.toInt * b.toNat)
  | 3 => high ((a.toNat : Int) * b.toNat)
  | 4 => if b = 0 then 0xFFFFFFFF#32 else BitVec.ofInt 32 (a.toInt.tdiv b.toInt)
  | 5 => if b = 0 then 0xFFFFFFFF#32 else BitVec.ofNat 32 (a.toNat / b.toNat)
  | 6 => if b = 0 then a else BitVec.ofInt 32 (a.toInt.tmod b.toInt)
  | _ => if b = 0 then a else BitVec.ofNat 32 (a.toNat % b.toNat)

/-- Is a branch taken? -/
def branchTaken (f3 : Nat) (a b : Word) : Bool :=
  match f3 with
  | 0 => a == b
  | 1 => a != b
  | 4 => decide (a.toInt < b.toInt)
  | 5 => decide (b.toInt ≤ a.toInt)
  | 6 => Nat.blt a.toNat b.toNat
  | _ => Nat.ble b.toNat a.toNat

/-! ### Execution -/

/-- The answer to a load: its bytes, a word that cannot be corrected or a place that is none, or nothing yet. -/
inductive RvLoad where
  | value (v : Word) | fault | wait
  deriving DecidableEq, Repr

/-- One instruction: it retires or traps, or waits for a load. -/
inductive RvStep where
  | done (r : ScRetired) (next : Word)
  | wait
  deriving DecidableEq, Repr

/-- The writeback of an integer register; none of x0. -/
def wbInt (rd : Nat) (v : Word) : List ScResult := if rd % 32 = 0 then [] else [.reg false (Fin.ofNat 32 rd) v]

/-- The writeback of a floating-point register. -/
def wbFlt (rd : Nat) (v : Word) : List ScResult := [.reg true (Fin.ofNat 32 rd) v]

/-- The flags that an operation raises. -/
def wbFlags (n : Nat) : List ScResult := if n = 0 then [] else [.flags (BitVec.ofNat 5 n)]

/-- An instruction that traps. -/
def rvTrap (pc : Word) (cause : Nat) (value : Word) : RvStep := .done { results := [.trap pc (BitVec.ofNat 32 cause) value] } pc

/-- A loaded value, extended. -/
def extendLoad (f3 : Nat) (v : Word) : Word :=
  match f3 with
  | 0 => rvImm 8 v.toNat
  | 1 => rvImm 16 v.toNat
  | 4 => BitVec.ofNat 32 (v.toNat % 256)
  | 5 => BitVec.ofNat 32 (v.toNat % 65536)
  | _ => v

/-- The rounding mode of an instruction: its field, or frm where the field says dynamic; 5 and above is none. -/
def ScArch.rounding (s : ScArch) (rm : Nat) : Nat := if rm = 7 then getBits (s.reg 3) 5 3 else rm

/-- A floating-point operation: the results, none where its rounding mode is none. -/
def ScArch.fopResults (s : ScArch) (f7 rm rd rs1 rs2 : Nat) : Option (List ScResult) :=
  let a := s.fr rs1
  let b := s.fr rs2
  let m := s.rounding rm
  let rounded (r : FltOut) (toInt : Bool) : Option (List ScResult) :=
    if 5 ≤ m then none else some ((if toInt then wbInt rd r.1 else wbFlt rd r.1) ++ wbFlags r.2)
  let exact (r : FltOut) (toInt : Bool) : Option (List ScResult) :=
    some ((if toInt then wbInt rd r.1 else wbFlt rd r.1) ++ wbFlags r.2)
  match f7 with
  | 0x00 => rounded (fltAdd m a b) false
  | 0x04 => rounded (fltSub m a b) false
  | 0x08 => rounded (fltMul m a b) false
  | 0x0C => rounded (fltDiv m a b) false
  | 0x2C => rounded (fltSqrt m a) false
  | 0x10 => exact (fltSignInject rm a b, 0) false
  | 0x14 => exact (fltMinMax (rm == 1) a b) false
  | 0x50 => exact (fltCompare rm a b) true
  | 0x60 => rounded (fltToInt m (rs2 == 0) a) true
  | 0x68 => rounded (fltFromInt m (rs2 == 0) (s.xr rs1)) false
  | 0x70 => exact (if rm = 0 then a else fltClass a, 0) true
  | _ => exact (s.xr rs1, 0) false

/-- A CSR instruction: read, and written where its form writes; an illegal one where the copy has no such CSR or it cannot be written. -/
def ScArch.csrResults (s : ScArch) (f3 rd rs1 num : Nat) : Option (List ScResult) :=
  let v := if 4 ≤ f3 then BitVec.ofNat 32 rs1 else s.xr rs1
  let writes := f3 % 4 = 1 ∨ rs1 ≠ 0
  if !hasCsr num then none
  else if writes ∧ num / 1024 = 3 then none
  else
    let old := s.readCsr num
    let new := if f3 % 4 = 1 then v else if f3 % 4 = 2 then old ||| v else old &&& ~~~v
    some (wbInt rd old ++ if writes then [.csr (BitVec.ofNat 12 num) new] else [])

/-- A store of the low n bytes of a value at an address. -/
def rvStore (place : Word → Option ScPlace) (parity : ScStore → BitVec 5) (pc next a : Word) (n : Nat) (v : Word) : RvStep :=
  match place a with
  | none => rvTrap pc 7 a
  | some p =>
    let s : ScStore := { place := p, data := v &&& BitVec.ofNat 32 (2 ^ (8 * n) - 1), mask := BitVec.ofNat 4 (2 ^ n - 1), parity := 0 }
    .done { results := [.store { s with parity := parity s }] } next

/-- A copy executes an instruction of `len` bytes at pc: `load` answers its load, `place` names the place of an address. -/
def ScArch.execute (s : ScArch) (pc : Word) (len : Nat) (bits : Word) (load : Word → Nat → RvLoad) (place : Word → Option ScPlace)
    (parity : ScStore → BitVec 5) (i : Rv) : RvStep :=
  let next := pc + BitVec.ofNat 32 len
  let retire (l : List ScResult) : RvStep := .done { results := l } next
  let illegal := rvTrap pc 2 bits
  match i with
  | .lui rd imm => retire (wbInt rd imm)
  | .auipc rd imm => retire (wbInt rd (pc + imm))
  | .jal rd imm => .done { results := wbInt rd next } (pc + imm)
  | .jalr rd rs1 imm => .done { results := wbInt rd next } ((s.xr rs1 + imm) &&& 0xFFFFFFFE#32)
  | .branch f3 rs1 rs2 imm => .done {} (if branchTaken f3 (s.xr rs1) (s.xr rs2) then pc + imm else next)
  | .load f3 rd rs1 imm =>
    let a := s.xr rs1 + imm
    (match load a (2 ^ (f3 % 4)) with
     | .value v => retire (wbInt rd (extendLoad f3 v))
     | .fault => rvTrap pc 5 a
     | .wait => .wait)
  | .store f3 rs1 rs2 imm => rvStore place parity pc next (s.xr rs1 + imm) (2 ^ f3) (s.xr rs2)
  | .aluImm f3 alt rd rs1 imm => retire (wbInt rd (aluOp f3 alt (s.xr rs1) imm))
  | .alu f3 alt rd rs1 rs2 => retire (wbInt rd (aluOp f3 alt (s.xr rs1) (s.xr rs2)))
  | .muldiv f3 rd rs1 rs2 => retire (wbInt rd (mulDivOp f3 (s.xr rs1) (s.xr rs2)))
  | .fence => .done { fence := true } next
  | .wfi => .done { fence := true, wfi := true } next
  | .mret => .done { results := [.mret] } (s.reg 0x341)
  | .ecall => rvTrap pc 11 0
  | .ebreak => rvTrap pc 3 pc
  | .csr f3 rd rs1 num => match s.csrResults f3 rd rs1 num with | some l => retire l | none => illegal
  | .flw rd rs1 imm =>
    let a := s.xr rs1 + imm
    (match load a 4 with
     | .value v => retire (wbFlt rd v)
     | .fault => rvTrap pc 5 a
     | .wait => .wait)
  | .fsw rs1 rs2 imm => rvStore place parity pc next (s.xr rs1 + imm) 4 (s.fr rs2)
  | .fma negP negC rm rd rs1 rs2 rs3 =>
    let m := s.rounding rm
    if 5 ≤ m then illegal
    else
      let r := fltFma m negP negC (s.fr rs1) (s.fr rs2) (s.fr rs3)
      retire (wbFlt rd r.1 ++ wbFlags r.2)
  | .fop f7 rm rd rs1 rs2 => match s.fopResults f7 rm rd rs1 rs2 with | some l => retire l | none => illegal
  | .illegal => illegal

end Sys2Proof.Machine
end

