-- ==== Sys2Proof/Machine/Windows.lean ====
section
/-! DEFINITION. The comparison windows of the safety controller (R266 to R272, R275 to R277): what the copies execute, the checker, the
delay registers and their release, input agreement; and the accesses of the masters to the banks, the copies' among them. -/

namespace Sys2Proof.Machine

/-! ### What a copy executes (R263, R266, R267) -/

/-- Is a result a store? -/
def isStore : ScResult → Bool
  | .store _ => true
  | _ => false

/-- Is a result a write of a CSR? The flags that an operation raises are none (log entry 71). -/
def isCsr : ScResult → Bool
  | .csr _ _ => true
  | _ => false

/-- Is a result an exception? -/
def isTrap : ScResult → Bool
  | .trap _ _ _ => true
  | _ => false

/-- Does an instruction retire: it raises no exception? -/
def retires (r : ScRetired) : Bool := !r.results.any isTrap

/-- The count of retired instructions. -/
def retiredCount (l : List ScRetired) : Nat := (l.filter retires).length

/-- Does a window close at an instruction whatever came before: a FENCE or WFI, or a write of a CSR (R266)? -/
def closesWindow (r : ScRetired) : Bool := r.fence || r.results.any isCsr

/-- Do these instructions, after `n` retired ones and `k` stores of the same window, make up the rest of a window: it closes with the
last of them and not before, on the 32nd retired instruction, the 16th store, or where an instruction closes it (R266)? -/
def isWindow : Nat → Nat → List ScRetired → Bool
  | _, _, [] => false
  | n, k, r :: rest =>
    let n := n + b2n (retires r)
    let k := k + (r.results.filter isStore).length
    if (retires r && Nat.ble 32 n) || Nat.ble 16 k || closesWindow r then rest.isEmpty && Nat.ble k 16 else isWindow n k rest

/-- The bits of a value, the most significant first. -/
def msbFirst {n : Nat} (v : BitVec n) : List Bool := (List.range n).map fun i => v.getMsbD i

/-- The bits of a result that enter the signature (R267). Their order is the model's (log entry 71). -/
def resultBits : ScResult → List Bool
  | .reg float n v => msbFirst (BitVec.ofNat 5 n) ++ [float] ++ msbFirst v
  | .csr n v => msbFirst n ++ msbFirst v
  | .store s => msbFirst (Config.scAddress s.place) ++ msbFirst s.data ++ msbFirst s.mask
  | .trap _ cause address => msbFirst cause ++ msbFirst address
  | .flags _ | .mret => []

/-- One bit enters a CRC-64 of polynomial 0x42F0_E1EB_A9EA_3693. -/
def crcBit (c : DWord) (b : Bool) : DWord := if c.msb == b then c <<< 1 else (c <<< 1) ^^^ 0x42F0E1EBA9EA3693

/-- The signature of a window: from all ones, every result in retirement order (R267). -/
def signature (l : List ScRetired) : DWord :=
  (l.flatMap fun r => r.results.flatMap resultBits).foldl crcBit 0xFFFFFFFFFFFFFFFF

/-- The stores of a window, in program order: what its delay registers hold. -/
def storesOf (l : List ScRetired) : List ScStore :=
  l.flatMap fun r => r.results.filterMap fun x => match x with | .store s => some s | _ => none

/-- The faulting addresses of the load-access exceptions of a window. -/
def loadFaults (l : List ScRetired) : List Word :=
  l.flatMap fun r => r.results.filterMap fun x => match x with | .trap _ cause a => (if cause = 5 then some a else none) | _ => none

/-- Even parity of some bits. -/
def parityBit (l : List Bool) : Bool := l.foldl xor false

/-- The parity bits of a delay register (R269): one for each data byte, one for the address and mask together. -/
def storeParity (s : ScStore) : BitVec 5 :=
  let bytes := (List.range 4).map fun i => parityBit (msbFirst (s.data.extractLsb' (8 * i) 8))
  let all := bytes ++ [parityBit (msbFirst (Config.scAddress s.place) ++ msbFirst s.mask)]
  BitVec.ofNat 5 ((List.range 5).foldl (fun n i => n + 2 ^ i * b2n (all.getD i false)) 0)

/-! ### Copies -/

/-- A copy's part of the present window: copy A or copy B. -/
def Dev.copy (d : Dev) (a : Bool) : ScCopy := if a then d.sc.copyA else d.sc.copyB
def Dev.setCopy (d : Dev) (a : Bool) (v : ScCopy) : Dev := d.onSc fun c => if a then { c with copyA := v } else { c with copyB := v }

/-- Does a copy execute: both in DUPLEX, one in simplex, and none while they wait for an interrupt (R285)? -/
def Dev.copyRuns (d : Dev) (a : Bool) : Bool :=
  (d.scMode == ScMode.duplex || d.scMode == (if a then ScMode.simplexA else ScMode.simplexB)) && !d.sc.wfi

/-- The loads of a window that met a word that could not be corrected (R264). -/
def ScCopy.traps (c : ScCopy) : List ScLoad := c.loads.filterMap fun x => if x.2.isNone then some x.1 else none

/-- Is a bank the safety controller's for its copies: its present owner is SC, also while it drains (R264)? -/
def Dev.scBank (d : Dev) (b : Nat) : Bool := d.rd F.MB_BANK_STAT_owner b == 1

/-! ### Loads and the delay registers (R269) -/

/-- A place as a number, the SETUP window behind the banks. -/
def placeKey : ScPlace → Nat
  | .bank a => a.toNat
  | .setup off => 2 ^ 23 + off.toNat

/-- The byte at a place that a load finds: that of the last pending store of its copy that covers it, else what it read. -/
def forwardByte (pending : List ScStore) (x : Nat) (b : Byte) : Byte :=
  pending.foldl (fun b s =>
    if placeKey s.place ≤ x ∧ x < placeKey s.place + 4 ∧ s.mask.getLsbD (x - placeKey s.place) = true then s.data.extractLsb' (8 * (x - placeKey s.place)) 8
    else b) b

/-- What a load receives of a value that it read: with the pending stores of its copy in it (R269). -/
def forwarded (pending : List ScStore) (l : ScLoad) (v : Word) : Word :=
  BitVec.ofNat 32 ((List.range l.bytes).foldl (fun k i =>
    k + 2 ^ (8 * i) * (forwardByte pending (placeKey l.place + i) (v.extractLsb' (8 * i) 8)).toNat) 0)

/-- What a copy fetches at an address (R264): the length of the instruction and its bits; none where it may not execute or a word cannot be
corrected. -/
def Dev.fetch (d : Dev) (pc : Word) : Option (Nat × Word) :=
  let parcel (a : Word) : Option Nat :=
    match Config.scPlace a with
    | some (.bank x) => if d.scBank (bankOf x.toNat) && d.bankReads x.toNat {} then some (d.bankValue x.toNat 2).toNat else none
    | _ => none
  match parcel pc with
  | none => none
  | some n =>
    if n % 4 ≠ 3 then some (2, BitVec.ofNat 32 n)
    else (parcel (pc + 2)).map fun m => (4, BitVec.ofNat 32 (n + 65536 * m))

/-- A copy on its way through a window: its state, what it has executed, and the loads that it has done and not yet used. -/
structure ScPath where
  arch : ScArch
  retired : List ScRetired := []
  loads : List (ScLoad × Option Word)
  closed : Bool := false

/-- The answer to a load, from the loads that the copy has done. -/
def ScPath.answer (q : ScPath) (a : Word) (n : Nat) : RvLoad :=
  match Config.scPlace a with
  | none => .fault
  | some p =>
    match q.loads with
    | [] => .wait
    | (l, v) :: _ =>
      if l = { place := p, bytes := n } then (match v with | some v => .value v | none => .fault) else .wait

/-- The address of an instruction's load. -/
def ScArch.loads (s : ScArch) : Rv → Option Word
  | .load _ _ rs1 imm | .flw _ rs1 imm => some (s.xr rs1 + imm)
  | _ => none

/-- One instruction of a path; none where it waits for a load. -/
def Dev.pathStep (d : Dev) (q : ScPath) : Option ScPath :=
  let pc := q.arch.pc
  let (did, used) : RvStep × Bool :=
    match d.fetch pc with
    | none => (rvTrap pc 1 pc, false)
    | some (len, bits) =>
      let i := if len = 2 then decodeC bits else decodeRv bits
      (q.arch.execute pc len bits q.answer Config.scPlace storeParity i, ((q.arch.loads i).bind Config.scPlace).isSome)
  match did with
  | .wait => none
  | .done r next =>
    let retired := q.retired ++ [r]
    some { arch := r.results.foldl ScArch.result { q.arch with pc := next }, retired := retired,
           loads := if used then q.loads.drop 1 else q.loads, closed := isWindow 0 0 retired }

/-- The path of a copy through its window, as far as its loads carry it; `n` bounds it, since exceptions alone close no window. -/
def Dev.pathFrom (d : Dev) : Nat → ScPath → ScPath
  | 0, q => q
  | n + 1, q =>
    if q.closed then q
    else match d.pathStep q with
    | none => q
    | some q => Dev.pathFrom d n q

/-- What the instructions of a copy have computed in the present window, from the checkpoint on. -/
def Dev.path (d : Dev) (a : Bool) : ScPath := d.pathFrom 256 { arch := d.sc.checkpoint, loads := (d.copy a).loads }

/-- Is a list of stores the beginning of another one, but for their parity? -/
def storesBegin (l m : List ScStore) : Bool :=
  let shape (s : ScStore) := (s.place, s.data, s.mask)
  (l.map shape) == (m.take l.length).map shape

/-- The stores of a copy's present window before a load: those given, or those of its program. -/
def Dev.pendingOf (d : Dev) (a : Bool) (given : List ScStore) : List ScStore :=
  if given.isEmpty then storesOf (d.path a).retired else given

/-- What a copy has executed when it closes its window: what is given, or what its program computes; none where that has not come to the
end of a window, or does not go with the loads that the copy has done (R269, R275). -/
def Dev.traceOf (d : Dev) (r : ScRun) : Option ScTrace :=
  let c := d.copy r.copyA
  match r.own with
  | some w =>
    if isWindow 0 0 w.retired && storesBegin c.delay (storesOf w.retired) &&
        loadFaults w.retired == c.traps.map (fun l => Config.scAddress l.place) then some w
    else none
  | none =>
    let q := d.path r.copyA
    if q.closed then some { retired := q.retired, pc := q.arch.pc } else none

/-- A copy has closed its window. -/
def Dev.closedAs (d : Dev) (w : ScTrace) (err : Bool) : ScClosed :=
  { sig := signature w.retired, count := retiredCount w.retired, delay := storesOf w.retired, arch := d.sc.checkpoint.run w,
    wfi := w.retired.any ScRetired.wfi, request := d.flt.request != err, at_ := d.time }

/-! ### Release (R269) -/

/-- The byte lanes of a mask. -/
def maskLanes (m : BitVec 4) : List Nat := (List.range 4).filter m.getLsbD

/-- The copy whose stores reach the banks: copy A, in simplex the one that is left. -/
def Dev.storingCopy (d : Dev) : BankMaster := if d.scMode = ScMode.simplexB then .copyB else .copyA

/-- A write of a master in the one or two accesses that it takes (R293). -/
def Dev.writeWhole (d : Dev) (m : BankMaster) (a n : Nat) (v : Word) (w : BankWait) : Dev :=
  let d := d.bankWrite m a n v w.turn.upset w.wait
  match d.owed m with
  | some p => d.bankWrite m p.addr p.bytes p.data {} 0
  | none => d

/-- A store of the safety controller reaches its destination: a bank, as master 0, with what its access meets there (R290, R298, R299), or
the SETUP window by R22 and R23. -/
def Dev.releaseStore (d : Dev) (m : BankMaster) (s : ScStore) (w : BankWait) : Dev :=
  match maskLanes s.mask with
  | [] => d
  | low :: more =>
    let n := more.length + 1
    let v := s.data >>> (8 * low)
    match s.place with
    | .bank a => d.writeWhole m (a.toNat + low) n v w
    | .setup off => d.busWrite .sc (off.toNat + low) n (v.setWidth 64)

/-- The stores of a window are released, in program order. -/
def Dev.releaseAll (d : Dev) (m : BankMaster) : List ScStore → List BankWait → Dev
  | [], _ => d
  | s :: rest, ws => Dev.releaseAll (d.releaseStore m s (ws.headD {})) m rest ws.tail

/-- Is every store of a window at its turn at its bank (R290)? -/
def Dev.storesInTurn (d : Dev) (l : List ScStore) (ws : List BankWait) : Bool :=
  (l.zip ws).all fun x => match x.1.place with
    | .bank a => d.itsTurn d.storingCopy (bankOf a.toNat) x.2.turn.others
    | .setup _ => true

/-- A window ends, agreed or in simplex: the next one starts from the state reached, with the interrupt request that was taken (R266,
R271), or after a WFI with the next one that comes (R285); its stores are released in program order. -/
def Dev.endWindow (d : Dev) (w : ScClosed) (request : Bool) (ws : List BankWait) : Dev :=
  let next := { w.arch with irq := w.arch.irq || request }
  let m := d.storingCopy
  let d := d.onSc fun c =>
    { c with window := c.window + 1, retry := false, copyA := {}, copyB := {}, checkpoint := next.interrupt, received := none,
             wfi := w.wfi && !next.irq }
  let d := if request then d.withFlt { d.flt with request := false } else d
  (d.releaseAll m w.delay ws).wakeCopies

/-! ### Loss of redundancy (R276, R277) -/

/-- The window of the copy that is left ends without comparison where that copy has closed it. -/
def Dev.carryOn (d : Dev) (a : Bool) : Dev :=
  if !d.inSimplex then d
  else match (d.copy a).closed with
  | some w => d.endWindow w w.request []
  | none => d

/-- A copy's input path is broken (R276): the agreed value stands, the other copy goes on. -/
def Dev.inputPath (d : Dev) (copyA : Bool) : Dev :=
  let d := ((d.scNote 6).fenceCopy (if copyA then 0 else 1) Code.INPUT_PATH).goSimplex (!copyA)
  (d.setCopy copyA {}).carryOn (!copyA)

/-- The input path of the device has failed (R270, R276): the window is discarded. -/
def Dev.inputPathBoth (d : Dev) : Dev :=
  ((((d.scNote 6).dropWindow).fenceCopy 0 Code.INPUT_PATH).fenceCopy 1 Code.INPUT_PATH).scHalt

/-- A loss of redundancy (R276): the checker (0), a delay-register parity error of copy A (1) or B (2), a broken input path of
copy A (3), of copy B (4) or of both (5). In simplex it is the second one (R285). -/
def Dev.lostRedundancy (d : Dev) (k : Nat) : Dev :=
  let test : ScTest := if k = 0 then .checker else .parity (k == 1)
  let cause := if k = 0 then 4 else if k < 3 then 5 else 6
  if d.scMode = ScMode.duplex then
    if k < 3 then ((d.scNote cause).onSc fun c => { c with retry := false }).rollBack test
    else if k = 5 then d.inputPathBoth
    else d.inputPath (k == 3)
  else if d.scMode = ScMode.rollback then
    if k < 3 && d.sc.test == some .window then (d.scNote cause).onSc fun c => { c with test := some test } else d
  else if d.inSimplex && k < 3 && !d.fenced Kind.safety (if k = 0 then 2 else k - 1) then
    ((d.scNote cause).fenceCopy (if k = 0 then 2 else k - 1) Code.SIMPLEX).scHalt
  else d

/-- CHECKER_FAULT: a loss of redundancy, by its number. -/
def execCheckerFault (t : Nat) (k : Fin 6) (s : State) : Host.Outcome State Fault Refusal :=
  effect t s fun d => d.lostRedundancy k

/-! ### Joint samples (R270, R271) -/

/-- How joint samples end: both paths agree, the path of copy A or of copy B is outvoted, or neither matches the reference. -/
inductive VoteEnd where
  | agreed | brokenA | brokenB | failed
  deriving DecidableEq, Repr

/-- Joint samples, at most `n` of them: `errs` tells what path A, path B and the reference path add to the input in each, nothing where it
ends. Gives how many were taken, what the value received differs by from the input, and how they end. -/
def vote : Nat → List (Word × Word × Word) → Nat → Nat × Word × VoteEnd
  | 0, _, k => (k, 0, .agreed)
  | n + 1, errs, k =>
    let e := errs.headD (0, 0, 0)
    if e.1 = e.2.1 then (k + 1, e.1, .agreed)
    else if n = 0 then
      if e.1 = e.2.2 then (k + 1, e.1, .brokenB)
      else if e.2.1 = e.2.2 then (k + 1, e.2.1, .brokenA)
      else (k + 1, 0, .failed)
    else vote n errs.tail (k + 1)

/-- The agreement unit takes joint samples and gives both copies the value received, `give` what that does (R270). -/
def Dev.takeVote (d : Dev) (errs : List (Word × Word × Word)) (give : Dev → Word → Dev) : Dev :=
  let (k, e, r) := vote (d.rd F.SC_CFG_agree_retries 0) errs 0
  let d := d.each (List.range k) fun d _ => d.bump F.SC_AGREE_joint 0
  match r with
  | .agreed => give d e
  | .brokenB => (give (d.bump F.SC_CNT_outvoted 0) e).inputPath false
  | .brokenA => (give (d.bump F.SC_CNT_outvoted 0) e).inputPath true
  | .failed => d.inputPathBoth

/-! ### The close of a window -/

/-- An agreed window ends: the interrupt requests that both copies sampled are taken; where the samples differ, joint samples decide as for
an agreed load (R271). -/
def Dev.endAgreed (d : Dev) (a b : ScClosed) (r : ScRun) : Dev :=
  let bit (v : Bool) : Word := if v then 1 else 0
  let request := d.flt.request
  if a.request = b.request then d.endWindow a a.request r.waits
  else d.takeVote (r.joint.map fun e => (bit e.1, bit e.2.1, bit e.2.2)) fun d e => d.endWindow a (request != (e == 1)) r.waits

/-- Both copies have closed the window: the checker compares (R267). The exceptions of bank reads count with the signature (R275). -/
def Dev.compareWindow (d : Dev) (a b : ScClosed) (r : ScRun) : Dev :=
  let shape (w : ScClosed) := w.delay.map fun s => (s.place, s.data, s.mask)
  if a.sig ≠ b.sig ∨ a.count ≠ b.count ∨ a.arch.pc ≠ b.arch.pc ∨ d.sc.copyA.traps ≠ d.sc.copyB.traps then d.scMismatch 1
  else if shape a ≠ shape b then d.scMismatch 2
  else
    let tooMany := d.sc.overLimit
    let d := d.wr64 F.SC_WINDOWS_LO F.SC_WINDOWS_HI 0 (d.rd64 F.SC_WINDOWS_LO F.SC_WINDOWS_HI 0 + 1)
    let d := (d.onSc fun c => { c with overLimit := false }).endAgreed a b r
    if tooMany then d.scSafe 2 else d

/-- A copy closes its window: in simplex that ends it; in DUPLEX the checker compares once the other copy has closed too. A parity bit
of a delay register that does not hold is a fault of the copy (R276). -/
def Dev.closeWindow (d : Dev) (r : ScRun) : Dev :=
  let a := r.copyA
  let c := d.copy a
  if !d.copyRuns a || c.closed.isSome || c.waiting.isSome || (d.owed d.storingCopy).isSome then d
  else match d.traceOf r with
  | none => d
  | some trace =>
    let w := d.closedAs trace r.err
    if w.delay.any fun s => s.parity != storeParity s then d.lostRedundancy (if a then 1 else 2)
    else if !d.storesInTurn w.delay r.waits then d
    else if d.inSimplex then d.endWindow w w.request r.waits
    else
      match (d.copy (!a)).closed with
      | none => d.setCopy a { c with closed := some w }
      | some other => if a then d.compareWindow w other r else d.compareWindow other w r

/-- WINDOW_CLOSE: copy A or copy B closes a comparison window. -/
def execWindowClose (t : Nat) (r : ScRun) (s : State) : Host.Outcome State Fault Refusal :=
  effect t s fun d => d.closeWindow r

/-- Since when a copy waits for the other: it has closed the window, or stands at an agreed load. -/
def waitsSince (c : ScCopy) : Option Nat :=
  match c.closed, c.waiting with
  | some w, _ => some w.at_
  | none, some w => some w.2.2
  | none, none => none

/-- Has a copy waited for the other for 2 µs, 1,600 ticks (R268)? -/
def Dev.lags (d : Dev) : Bool :=
  [d.sc.copyA, d.sc.copyB].any fun c => match waitsSince c with
    | some n => Nat.ble (n + 1600) d.time
    | none => false

/-- LAG_TIMEOUT: one copy has not closed the window, or not reached the agreed load, 2 µs after the other (R268). -/
def execLagTimeout (t : Nat) (s : State) : Host.Outcome State Fault Refusal :=
  effect t s fun d => if d.scMode = ScMode.duplex ∧ d.lags = true then d.scMismatch 3 else d

/-! ### Input agreement (R270) -/

/-- The low n bytes of a word. -/
def lowBytes (v : Word) (n : Nat) : Word := v &&& BitVec.ofNat 32 (2 ^ (8 * n) - 1)

/-- What a path reads for a load: none where a word cannot be corrected. -/
def Dev.scRead (d : Dev) (l : ScLoad) : Option Word :=
  match l.place with
  | .bank a =>
    let k := firstPart a.toNat l.bytes
    if d.bankReads a.toNat {} && (l.bytes ≤ k || d.bankReads (a.toNat + k) {}) then
      some (d.bankValue a.toNat k ||| BitVec.ofNat 32 ((d.bankValue (a.toNat + k) (l.bytes - k)).toNat * 2 ^ (8 * k)))
    else none
  | .setup off => some (lowBytes (d.busRead .sc (off.toNat / 4 * 4) >>> (8 * (off.toNat % 4))) l.bytes)

/-- What a read does besides: a bank serves it and checks its word (R290, R294, R299), and that of a low half captures its high half (R25). -/
def Dev.afterScRead (d : Dev) (a : Bool) (l : ScLoad) (w : BankWait) : Dev :=
  match l.place with
  | .bank x =>
    let k := firstPart x.toNat l.bytes
    let d := ((d.bankWait 0 w.wait).bankServed (if a then .copyA else .copyB) (bankOf x.toNat)).bankCheck x.toNat {}
    if l.bytes ≤ k then d else (d.bankServed (if a then .copyA else .copyB) (bankOf (x.toNat + k))).bankCheck (x.toNat + k) {}
  | .setup off => d.holdHigh .sc (off.toNat / 4 * 4)

/-- Must both copies agree on a load from a place: the whole SETUP window, the IMS mailbox and the validation-queue registers in it, and
a bank that SC does not own (R264, R270)? -/
def Dev.isAgreed (d : Dev) (p : ScPlace) : Bool :=
  match p with
  | .bank a => !d.scBank (bankOf a.toNat)
  | .setup _ => true

/-- A load of a copy is done: it takes the bytes of its pending stores, and the rest as read (R269); none is an exception (R264). -/
def Dev.loaded (d : Dev) (a : Bool) (l : ScLoad) (v : Option Word) : Dev :=
  let c := d.copy a
  d.setCopy a { c with loads := c.loads ++ [(l, v.map (forwarded c.delay l))] }

/-- Both copies, or the one that is left, receive a value. -/
def Dev.deliverLoad (d : Dev) (l : ScLoad) (v : Word) : Dev :=
  let d := d.onSc fun c => { c with received := some (l.place, v) }
  let d := if d.copyRuns true then d.loaded true l (some v) else d
  if d.copyRuns false then d.loaded false l (some v) else d

/-- A copy reaches an agreed load with its sample (R270): in simplex it takes it; in DUPLEX the copy that arrives first waits, and with both
samples there the agreement unit decides. A word that cannot be corrected is an exception of the copy that read it (R264). -/
def Dev.reachLoad (d : Dev) (a : Bool) (l : ScLoad) (sample : Option Word) (errs : List (Word × Word × Word)) : Dev :=
  match sample with
  | none => d.loaded a l none
  | some v =>
    let c := d.copy a
    if d.inSimplex then d.deliverLoad l v
    else match (d.copy (!a)).waiting with
    | some (q, w, _) =>
      if q ≠ l then d.setCopy a { c with waiting := some (l, v, d.time) }
      else
        let o := d.copy (!a)
        let d := d.setCopy (!a) { o with waiting := none }
        if v = w then (d.wr F.SC_AGREE_agreed 0 (d.rd F.SC_AGREE_agreed 0 + 1)).deliverLoad l v
        else
          let again := (d.scRead l).getD 0
          d.takeVote errs fun d e => d.deliverLoad l (again ^^^ e)
    | none => d.setCopy a { c with waiting := some (l, v, d.time) }

/-- May a copy reach a load after these stores of its window: it executes, neither waits nor has closed its window, and the stores go on
from those of its loads before? -/
def Dev.mayLoad (d : Dev) (a : Bool) (stores : List ScStore) : Bool :=
  d.copyRuns a && !(d.copy a).closed.isSome && !(d.copy a).waiting.isSome && storesBegin (d.copy a).delay stores

/-- The delay registers of a copy at a load. -/
def Dev.holdStores (d : Dev) (a : Bool) (stores : List ScStore) : Dev := d.setCopy a { d.copy a with delay := stores }

/-- AGREED_LOAD: copy A or copy B reaches an agreed load. `e` is what the paths add to the values and what the access meets. -/
def execAgreedLoad (t : Nat) (copyA : Bool) (p : ScPlace) (e : PathErr) (s : State) : Host.Outcome State Fault Refusal :=
  effect t s fun d =>
    let stores := d.pendingOf copyA e.pending
    let turn := match p with
      | .bank a => d.itsTurn (if copyA then .copyA else .copyB) (bankOf a.toNat) e.turn.turn.others
      | .setup _ => true
    if d.mayLoad copyA stores && d.isAgreed p && turn then
      let l : ScLoad := { place := p, bytes := e.bytes }
      let v := (d.scRead l).map fun v => lowBytes (v ^^^ e.err) e.bytes
      ((d.holdStores copyA stores).afterScRead copyA l e.turn).reachLoad copyA l v e.joint
    else d

/-! ### Bank accesses of the masters (chapter 13) -/

/-- A copy of the safety controller reads a bank through its own port (R264): of a bank of SC it takes the word, with the stores of its
delay registers in it; what it reads of another bank goes to the agreement unit; a word that cannot be corrected is a load-access
exception, which the checker finds where one copy alone takes it (R275). -/
def Dev.copyRead (d : Dev) (a : Bool) (x n : Nat) (u : Upset) (wait : Nat) (stores : List ScStore) : Dev :=
  let m : BankMaster := if a then .copyA else .copyB
  let got := ((d.owed m).map BankPart.got).getD 0
  let l : ScLoad := { place := .bank (BitVec.ofNat 23 (x - got)), bytes := n + got }
  let d := (d.holdStores a stores).bankRead m x n u wait
  if (d.owed m).isSome then d
  else match d.bankAnswer m with
  | some (.word v) =>
    if d.scBank (bankOf x) then (d.loaded a l (some v)).answer m (.word (forwarded stores l v)) else d.reachLoad a l (some v) []
  | some .exception => d.loaded a l none
  | _ => d

/-- BANK_READ: a master reads `n` bytes at byte address a; `w` is what its access meets, `pending` the stores of the present window, for a
copy of the safety controller, where they are not those of its program. -/
def execBankRead (t : Nat) (m : BankMaster) (a n : Nat) (w : BankWait) (pending : List ScStore) (s : State) :
    Host.Outcome State Fault Refusal :=
  effect t s fun d =>
    let read (c : Bool) : Dev :=
      let stores := d.pendingOf c pending
      if d.mayLoad c stores then d.copyRead c a n w.turn.upset w.wait stores else d
    if !d.mayAccess m a n false 0 w.turn.others then d
    else match m with
    | .copyA => read true
    | .copyB => read false
    | _ => d.bankRead m a n w.turn.upset w.wait

/-- Do stores of a master reach the banks? Those of copy A do once agreed, and copy B's are dropped; in simplex those of the copy that
is left do (R269, R277). -/
def Dev.storesLeave (d : Dev) (m : BankMaster) : Bool :=
  match m with
  | .copyA => d.scMode == ScMode.duplex || d.scMode == ScMode.simplexA
  | .copyB => d.scMode == ScMode.simplexB
  | _ => true

/-- BANK_WRITE: a master writes `n` bytes at byte address a; `w` is what its access meets. For the safety controller it is the release of
an agreed store; for the CAN controllers it is the next of the writes that they have issued (R335). -/
def execBankWrite (t : Nat) (m : BankMaster) (a n : Nat) (v : Word) (w : BankWait) (s : State) : Host.Outcome State Fault Refusal :=
  effect t s fun d =>
    if d.mayAccess m a n true v w.turn.others && d.storesLeave m && d.hasIssued m a n v then
      (d.bankWrite m a n v w.turn.upset w.wait).takeIssued m
    else d

/-- BANK_HANDOVER: the safety controller names another owner of bank b (R297). -/
def execBankHandover (t : Nat) (b : Fin 16) (owner : Fin 8) (s : State) : Host.Outcome State Fault Refusal :=
  fromFirmware t s fun d => d.handover b owner

end Sys2Proof.Machine
end

