-- ==== Sys2Proof/Machine/Dispatch.lean ====
section
/-! DEFINITION. One arm per command, each a direct call of its meaning. -/

namespace Sys2Proof.Machine

/-- A command's effect on everything but the queue. -/
def exec (i : Instr) (s : State) : Host.Outcome State Fault Refusal :=
  match i with
  | .registerWrite t m off bytes data => Sys2Proof.Machine.execRegisterWrite t m off bytes data s
  | .lowHalfReadCapture t m off => Sys2Proof.Machine.execLowHalfReadCapture t m off s
  | .sealRequest t m => Sys2Proof.Machine.execSealRequest t m s
  | .sealComplete t => Sys2Proof.Machine.execSealComplete t s
  | .unseal t ix buf => Sys2Proof.Machine.execUnseal t ix buf s
  | .gtCapture t gt => Sys2Proof.Machine.execGtCapture t gt s
  | .updatePoint t k => Sys2Proof.Machine.execUpdatePoint t k s
  | .deadlineInstant t k => Sys2Proof.Machine.execDeadlineInstant t k s
  | .samplingPlan t k => Sys2Proof.Machine.execSamplingPlan t k s
  | .pgShadowWrite t => Sys2Proof.Machine.execPgShadowWrite t s
  | .commitMark t => Sys2Proof.Machine.execCommitMark t s
  | .scShadowWrite t p isB v => Sys2Proof.Machine.execScShadowWrite t p isB v s
  | .scCommit t k v => Sys2Proof.Machine.execScCommit t k v s
  | .stageStart t k => Sys2Proof.Machine.execStageStart t k s
  | .stageStop t k => Sys2Proof.Machine.execStageStop t k s
  | .compareMatch t six p => Sys2Proof.Machine.execCompareMatch t six p s
  | .deadTimeExpiry t six p => Sys2Proof.Machine.execDeadTimeExpiry t six p s
  | .triggerFire t six u => Sys2Proof.Machine.execTriggerFire t six u s
  | .driverInputChange t p hiMv loMv => Sys2Proof.Machine.execDriverInputChange t p hiMv loMv s
  | .gateEdgeStart t p hi => Sys2Proof.Machine.execGateEdgeStart t p hi s
  | .plateauEntry t p g => Sys2Proof.Machine.execPlateauEntry t p g s
  | .plateauExit t p g => Sys2Proof.Machine.execPlateauExit t p g s
  | .segTimeout t p hi => Sys2Proof.Machine.execSegTimeout t p hi s
  | .edgeComplete t p g => Sys2Proof.Machine.execEdgeComplete t p g s
  | .uvlo t p hi mv => Sys2Proof.Machine.execUvlo t p hi mv s
  | .gateMonitorCheck t p hi mv => Sys2Proof.Machine.execGateMonitorCheck t p hi mv s
  | .gateMismatch t p hi mv => Sys2Proof.Machine.execGateMismatch t p hi mv s
  | .linkDown t p => Sys2Proof.Machine.execLinkDown t p s
  | .tripLaneDown t p => Sys2Proof.Machine.execTripLaneDown t p s
  | .linkResume t p lane hiMv loMv => Sys2Proof.Machine.execLinkResume t p lane hiMv loMv s
  | .supplyHigh t src mv => Sys2Proof.Machine.execSupplyHigh t src mv s
  | .shuntConversionDone t k isB code shift => Sys2Proof.Machine.execShuntConversionDone t k isB code shift s
  | .housekeepingStart t k => Sys2Proof.Machine.execHousekeepingStart t k s
  | .housekeepingResult t k code => Sys2Proof.Machine.execHousekeepingResult t k code s
  | .calOffset t k => Sys2Proof.Machine.execCalOffset t k s
  | .calGain t k => Sys2Proof.Machine.execCalGain t k s
  | .calBoth t k => Sys2Proof.Machine.execCalBoth t k s
  | .calibrationDone t k zero plus minus => Sys2Proof.Machine.execCalibrationDone t k zero plus minus s
  | .conversionDone t c code hold => Sys2Proof.Machine.execConversionDone t c code hold s
  | .owSettleExpiry t c => Sys2Proof.Machine.execOwSettleExpiry t c s
  | .cvPassStart t c => Sys2Proof.Machine.execCvPassStart t c s
  | .urgentRequest t c w => Sys2Proof.Machine.execUrgentRequest t c w s
  | .urgentConversionDone t c code => Sys2Proof.Machine.execUrgentConversionDone t c code s
  | .comparatorCrossing t c x => Sys2Proof.Machine.execComparatorCrossing t c x s
  | .filteredOutputChange t c hi => Sys2Proof.Machine.execFilteredOutputChange t c hi s
  | .latchClear t c lo hi => Sys2Proof.Machine.execLatchClear t c lo hi s
  | .edgeFlagEdge t k x => Sys2Proof.Machine.execEdgeFlagEdge t k x s
  | .tripInChange t n h => Sys2Proof.Machine.execTripInChange t n h s
  | .lowDelayExpiry t k => Sys2Proof.Machine.execLowDelayExpiry t k s
  | .forceAct t k => Sys2Proof.Machine.execForceAct t k s
  | .forceOff t k => Sys2Proof.Machine.execForceOff t k s
  | .release t k => Sys2Proof.Machine.execRelease t k s
  | .lineChange t ix l since stamp => Sys2Proof.Machine.execLineChange t ix l since stamp s
  | .illWindowExpiry t ix => Sys2Proof.Machine.execIllWindowExpiry t ix s
  | .broken t ix h => Sys2Proof.Machine.execBroken t ix h s
  | .periodTimeout t ix sec => Sys2Proof.Machine.execPeriodTimeout t ix sec s
  | .ssiStart t ix => Sys2Proof.Machine.execSsiStart t ix s
  | .ssiFrameDone t ix bits => Sys2Proof.Machine.execSsiFrameDone t ix bits s
  | .resolverEnvelope t ix sine cosine h phase => Sys2Proof.Machine.execResolverEnvelope t ix sine cosine h phase s
  | .preset t ix => Sys2Proof.Machine.execPreset t ix s
  | .observerUpdate t ix => Sys2Proof.Machine.execObserverUpdate t ix s
  | .observerLatch t ix => Sys2Proof.Machine.execObserverLatch t ix s
  | .compareArm t ix n hi => Sys2Proof.Machine.execCompareArm t ix n hi s
  | .repeaterEdge t j => Sys2Proof.Machine.execRepeaterEdge t j s
  | .recordArrival t k => Sys2Proof.Machine.execRecordArrival t k s
  | .startLimitExpiry t l => Sys2Proof.Machine.execStartLimitExpiry t l s
  | .load t e u wait => Sys2Proof.Machine.execLoad t e u wait s
  | .store t e w => Sys2Proof.Machine.execStore t e w s
  | .emit t e => Sys2Proof.Machine.execEmit t e s
  | .sect t e => Sys2Proof.Machine.execSect t e s
  | .casc t e => Sys2Proof.Machine.execCasc t e s
  | .clarke t e => Sys2Proof.Machine.execClarke t e s
  | .park t e => Sys2Proof.Machine.execPark t e s
  | .ipark t e => Sys2Proof.Machine.execIpark t e s
  | .svm t e => Sys2Proof.Machine.execSvm t e s
  | .dial t e => Sys2Proof.Machine.execDial t e s
  | .poise t e => Sys2Proof.Machine.execPoise t e s
  | .lim t e => Sys2Proof.Machine.execLim t e s
  | .sel t e => Sys2Proof.Machine.execSel t e s
  | .cmp t e => Sys2Proof.Machine.execCmp t e s
  | .recon t e => Sys2Proof.Machine.execRecon t e s
  | .fusee t e => Sys2Proof.Machine.execFusee t e s
  | .letdn t e => Sys2Proof.Machine.execLetdn t e s
  | .plaus t e => Sys2Proof.Machine.execPlaus t e s
  | .slack t e => Sys2Proof.Machine.execSlack t e s
  | .engineStall t e => Sys2Proof.Machine.execEngineStall t e s
  | .residueFail t e => Sys2Proof.Machine.execResidueFail t e s
  | .declareDead t e => Sys2Proof.Machine.execDeclareDead t e s
  | .takeover t e => Sys2Proof.Machine.execTakeover t e s
  | .engineAdmit t q ix => Sys2Proof.Machine.execEngineAdmit t q ix s
  | .engineSelfTestDone t e pass => Sys2Proof.Machine.execEngineSelfTestDone t e pass s
  | .coeffSwapRequest t l bank => Sys2Proof.Machine.execCoeffSwapRequest t l bank s
  | .slackMinRestart t m l => Sys2Proof.Machine.execSlackMinRestart t m l s
  | .tmStart t q ix => Sys2Proof.Machine.execTmStart t q ix s
  | .tmTarget t q ix => Sys2Proof.Machine.execTmTarget t q ix s
  | .tmStop t q ix => Sys2Proof.Machine.execTmStop t q ix s
  | .tmCatchDecision t m mv => Sys2Proof.Machine.execTmCatchDecision t m mv s
  | .catchTimeExpiry t m => Sys2Proof.Machine.execCatchTimeExpiry t m s
  | .prechargeExpiry t m => Sys2Proof.Machine.execPrechargeExpiry t m s
  | .sequencerStageStart t k => Sys2Proof.Machine.execSequencerStageStart t k s
  | .catchHoldDone t m => Sys2Proof.Machine.execCatchHoldDone t m s
  | .reengage t m => Sys2Proof.Machine.execReengage t m s
  | .speedRefresh t m => Sys2Proof.Machine.execSpeedRefresh t m s
  | .tmSetLoss t m => Sys2Proof.Machine.execTmSetLoss t m s
  | .chStart t q ix => Sys2Proof.Machine.execChStart t q ix s
  | .chTarget t q ix => Sys2Proof.Machine.execChTarget t q ix s
  | .chStop t q ix => Sys2Proof.Machine.execChStop t q ix s
  | .pilotWindow t => Sys2Proof.Machine.execPilotWindow t s
  | .pilotTimeout t => Sys2Proof.Machine.execPilotTimeout t s
  | .pilotRefresh t => Sys2Proof.Machine.execPilotRefresh t s
  | .chWaitDone t => Sys2Proof.Machine.execChWaitDone t s
  | .chWaitTimeout t => Sys2Proof.Machine.execChWaitTimeout t s
  | .stopTimeExpiry t => Sys2Proof.Machine.execStopTimeExpiry t s
  | .gridLossTimeout t => Sys2Proof.Machine.execGridLossTimeout t s
  | .chEventReaction t => Sys2Proof.Machine.execChEventReaction t s
  | .lvStart t q ix => Sys2Proof.Machine.execLvStart t q ix s
  | .lvTarget t q ix => Sys2Proof.Machine.execLvTarget t q ix s
  | .lvStop t q ix => Sys2Proof.Machine.execLvStop t q ix s
  | .lvSync t => Sys2Proof.Machine.execLvSync t s
  | .lvStartTimeout t => Sys2Proof.Machine.execLvStartTimeout t s
  | .lvStageLoss t => Sys2Proof.Machine.execLvStageLoss t s
  | .drStart t q ix => Sys2Proof.Machine.execDrStart t q ix s
  | .drTarget t q ix => Sys2Proof.Machine.execDrTarget t q ix s
  | .drStop t q ix => Sys2Proof.Machine.execDrStop t q ix s
  | .drLockTimeout t a => Sys2Proof.Machine.execDrLockTimeout t a s
  | .drTargetReached t a => Sys2Proof.Machine.execDrTargetReached t a s
  | .drMoveTimeout t a => Sys2Proof.Machine.execDrMoveTimeout t a s
  | .drReengage t a => Sys2Proof.Machine.execDrReengage t a s
  | .drMirrorUpdate t a => Sys2Proof.Machine.execDrMirrorUpdate t a s
  | .drLoss t a => Sys2Proof.Machine.execDrLoss t a s
  | .windowClose t r => Sys2Proof.Machine.execWindowClose t r s
  | .lagTimeout t => Sys2Proof.Machine.execLagTimeout t s
  | .scSelfTestDone t a b => Sys2Proof.Machine.execScSelfTestDone t a b s
  | .agreedLoad t copyA p e => Sys2Proof.Machine.execAgreedLoad t copyA p e s
  | .checkerFault t k => Sys2Proof.Machine.execCheckerFault t k s
  | .transientPeriodExpiry t => Sys2Proof.Machine.execTransientPeriodExpiry t s
  | .graceExpiry t => Sys2Proof.Machine.execGraceExpiry t s
  | .injectionTestDone t steps => Sys2Proof.Machine.execInjectionTestDone t steps s
  | .fwReady t => Sys2Proof.Machine.execFwReady t s
  | .wdogService t v => Sys2Proof.Machine.execWdogService t v s
  | .wdogExpiry t => Sys2Proof.Machine.execWdogExpiry t s
  | .vqArrival t q ix => Sys2Proof.Machine.execVqArrival t q ix s
  | .accept t seq => Sys2Proof.Machine.execAccept t seq s
  | .refuse t seq reason => Sys2Proof.Machine.execRefuse t seq reason s
  | .validationExpiry t seq => Sys2Proof.Machine.execValidationExpiry t seq s
  | .kick t k => Sys2Proof.Machine.execKick t k s
  | .continueStage t k => Sys2Proof.Machine.execContinue t k s
  | .stopStage t k => Sys2Proof.Machine.execStop t k s
  | .absenceExpiry t k => Sys2Proof.Machine.execAbsenceExpiry t k s
  | .notifyTimeout t k => Sys2Proof.Machine.execNotifyTimeout t k s
  | .bankRead t m a n w pending => Sys2Proof.Machine.execBankRead t m a n w pending s
  | .bankWrite t m a n v w => Sys2Proof.Machine.execBankWrite t m a n v w s
  | .scrubRead t b r => Sys2Proof.Machine.execScrubRead t b r s
  | .bankHandover t b owner => Sys2Proof.Machine.execBankHandover t b owner s
  | .drainComplete t b => Sys2Proof.Machine.execDrainComplete t b s
  | .drainTimeout t b => Sys2Proof.Machine.execDrainTimeout t b s
  | .confRestart t => Sys2Proof.Machine.execConfRestart t s
  | .perst t hli => Sys2Proof.Machine.execPerst t hli s
  | .hotReset t hli => Sys2Proof.Machine.execHotReset t hli s
  | .functionLevelReset t hli => Sys2Proof.Machine.execFunctionLevelReset t hli s
  | .doorbell t off v => Sys2Proof.Machine.execDoorbell t off v s
  | .qpEnable t m q => Sys2Proof.Machine.execQpEnable t m q s
  | .qpDisable t q => Sys2Proof.Machine.execQpDisable t q s
  | .descriptorFetch t => Sys2Proof.Machine.execDescriptorFetch t s
  | .descriptorReceive t q ix x => Sys2Proof.Machine.execDescriptorReceive t q ix x s
  | .completionWrite t q => Sys2Proof.Machine.execCompletionWrite t q s
  | .moderationTimeout t q => Sys2Proof.Machine.execModerationTimeout t q s
  | .descriptorDeadline t q ix sending => Sys2Proof.Machine.execDescriptorDeadline t q ix sending s
  | .hostError t q k => Sys2Proof.Machine.execHostError t q k s
  | .nop t q ix => Sys2Proof.Machine.execNop t q ix s
  | .fenceItem t q ix => Sys2Proof.Machine.execFence t q ix s
  | .fenceComplete t q ix => Sys2Proof.Machine.execFenceComplete t q ix s
  | .memWrite t q ix data => Sys2Proof.Machine.execMemWrite t q ix data s
  | .memRead t q ix n w => Sys2Proof.Machine.execMemRead t q ix n w s
  | .dataTransferDone t q ix => Sys2Proof.Machine.execDataTransferDone t q ix s
  | .snapshot t q ix => Sys2Proof.Machine.execSnapshot t q ix s
  | .admitUnit t q ix hiMv loMv clock => Sys2Proof.Machine.execAdmit t q ix hiMv loMv clock s
  | .admitDone t q ix x => Sys2Proof.Machine.execAdmitDone t q ix x s
  | .streamBuf t q ix => Sys2Proof.Machine.execStreamBuf t q ix s
  | .recordWrite t q => Sys2Proof.Machine.execRecordWrite t q s
  | .bufferFlush t q => Sys2Proof.Machine.execBufferFlush t q s
  | .canTx t q ix data => Sys2Proof.Machine.execCanTx t q ix data s
  | .canRxbuf t q ix => Sys2Proof.Machine.execCanRxbuf t q ix s
  | .slotLoad t c => Sys2Proof.Machine.execSlotLoad t c s
  | .frameTxEnd t c a sof => Sys2Proof.Machine.execFrameTxEnd t c a sof s
  | .frameReceive t c f sof => Sys2Proof.Machine.execFrameReceive t c f sof s
  | .integrationDone t c => Sys2Proof.Machine.execIntegrationDone t c s
  | .recover t m c => Sys2Proof.Machine.execRecover t m c s
  | .recoveryComplete t c => Sys2Proof.Machine.execRecoveryComplete t c s
  | .flowStale t l => Sys2Proof.Machine.execFlowStale t l s
  | .ttTrigger t c n => Sys2Proof.Machine.execTtTrigger t c n s
  | .missedWindow t c k => Sys2Proof.Machine.execMissedWindow t c k s
  | .ttReferenceSend t c a sof => Sys2Proof.Machine.execTtReferenceSend t c a sof s
  | .listenEnd t c => Sys2Proof.Machine.execListenEnd t c s
  | .masterLost t c => Sys2Proof.Machine.execMasterLost t c s
  | .secureBoot t => Sys2Proof.Machine.execSecureBoot t s
  | .bootSealRequest t => Sys2Proof.Machine.execBootSealRequest t s
  | .identity t ix => Sys2Proof.Machine.execIdentity t ix s
  | .attest t ix buf => Sys2Proof.Machine.execAttest t ix buf s
  | .sessionOpen t ix buf => Sys2Proof.Machine.execSessionOpen t ix buf s
  | .sessionClose t ix => Sys2Proof.Machine.execSessionClose t ix s
  | .sessionExpiry t uart => Sys2Proof.Machine.execSessionExpiry t uart s
  | .enroll t ix buf blown => Sys2Proof.Machine.execEnroll t ix buf blown s
  | .revoke t ix buf blown => Sys2Proof.Machine.execRevoke t ix buf blown s
  | .updateWrite t ix buf err => Sys2Proof.Machine.execUpdateWrite t ix buf err s
  | .updateVerify t ix => Sys2Proof.Machine.execUpdateVerify t ix s
  | .updateActivate t ix buf burn => Sys2Proof.Machine.execUpdateActivate t ix buf burn s
  | .activateReset t => Sys2Proof.Machine.execActivateReset t s
  | .keyLoad t ix buf => Sys2Proof.Machine.execKeyLoad t ix buf s
  | .keyErase t ix buf => Sys2Proof.Machine.execKeyErase t ix buf s
  | .raiseCounter t ix buf blown => Sys2Proof.Machine.execRaiseCounter t ix buf blown s
  | .ledgerRead t ix => Sys2Proof.Machine.execLedgerRead t ix s
  | .lifetimeRead t ix => Sys2Proof.Machine.execLifetimeRead t ix s
  | .uartFrame t f crc blown err => Sys2Proof.Machine.execUartFrame t f crc blown err s
  | .freshnessJournal t x => Sys2Proof.Machine.execFreshnessJournal t x s
  | .ledgerFlush t k err => Sys2Proof.Machine.execLedgerFlush t k err s
  | .lifetimeRecord t err => Sys2Proof.Machine.execLifetimeRecord t err s
  | .lifeAccumulate t => Sys2Proof.Machine.execLifeAccumulate t s
  | .flashRefresh t sector x => Sys2Proof.Machine.execFlashRefresh t sector x s
  | .fltFence t kind index => Sys2Proof.Machine.execFltFence t kind index s
  | .fltSafe t kind index => Sys2Proof.Machine.execFltSafe t kind index s
  | .islandLost t ix => Sys2Proof.Machine.execIslandLost t ix s
  | .ledgerReport t kind index cls code sub detail => Sys2Proof.Machine.execLedgerReport t kind index cls code sub detail s
  | .ledgerEntry t => Sys2Proof.Machine.execLedgerEntry t s
  | .entryClose t k => Sys2Proof.Machine.execEntryClose t k s
  | .slotCapture t m sel slot => Sys2Proof.Machine.execSlotCapture t m sel slot s
  | .powerOnReset t => Sys2Proof.Machine.execPowerOnReset t s
  | .brownOutReset t => Sys2Proof.Machine.execBrownOutReset t s
  | .railReset t => Sys2Proof.Machine.execRailReset t s
  | .resetN t => Sys2Proof.Machine.execResetN t s
  | .safeWdogExpiry t => Sys2Proof.Machine.execSafeWdogExpiry t s
  | .coldBoot t vin vfab x => Sys2Proof.Machine.execColdBoot t vin vfab x s
  | .vinHigh t vin => Sys2Proof.Machine.execVinHigh t vin s
  | .speedMonitor t z k => Sys2Proof.Machine.execSpeedMonitor t z k s
  | .vfabStep t reached => Sys2Proof.Machine.execVfabStep t reached s
  | .fqiTcUpdate t => Sys2Proof.Machine.execFqiTcUpdate t s
  | .sleepRequest t => Sys2Proof.Machine.execSleepRequest t s
  | .wake t e can perst slept => Sys2Proof.Machine.execWake t e can perst slept s
  | .tempReading t n temp => Sys2Proof.Machine.execTempReading t n temp s
  | .tempCrossCheck t => Sys2Proof.Machine.execTempCrossCheck t s
  | .brokenLiveClear t ix b => Sys2Proof.Machine.execBrokenLiveClear t ix b s
  | .receiveError t c e => Sys2Proof.Machine.execReceiveError t c e s
  | .pcieLinkUp t x => Sys2Proof.Machine.execPcieLinkUp t x s
  | .sleepEntryDone t => Sys2Proof.Machine.execSleepEntryDone t s

end Sys2Proof.Machine
end

