-- ==== Sys2Proof/Machine/Footprint.lean ====
section
/-! DEFINITION. Footprints: the register fields and the parts of the device that an effect may touch, and what it is that nothing
else changes. -/

namespace Sys2Proof.Machine

/-- The parts of the device beside its registers and its time. -/
inductive Part where
  | clock | fresh | sys | tb | pp | sh | cv | ps | be | tm | ch | dr | sc | mb | hi | cn | sec | flt | pw
  deriving DecidableEq, Repr

/-- Is a part the same in two devices? -/
def Part.kept (p : Part) (a b : Dev) : Prop :=
  match p with
  | .clock => b.clockOn = a.clockOn
  | .fresh => b.fresh = a.fresh
  | .sys => b.sys = a.sys
  | .tb => b.tb = a.tb
  | .pp => b.pp = a.pp
  | .sh => b.sh = a.sh
  | .cv => b.cv = a.cv
  | .ps => b.ps = a.ps
  | .be => b.be = a.be
  | .tm => b.tm = a.tm
  | .ch => b.ch = a.ch
  | .dr => b.dr = a.dr
  | .sc => b.sc = a.sc
  | .mb => b.mb = a.mb
  | .hi => b.hi = a.hi
  | .cn => b.cn = a.cn
  | .sec => b.sec = a.sec
  | .flt => b.flt = a.flt
  | .pw => b.pw = a.pw

/-- Is a bit of the register at byte offset `off` one of field `f`, in some instance? -/
def Fd.holds (f : Fd) (off bit : Nat) : Prop := (∃ i j, off = f.off i j) ∧ f.lo ≤ bit ∧ bit < f.lo + f.width

/-- What an effect may touch: the register fields and the parts it lists; `any` is every register. -/
structure Foot where
  any : Bool
  fields : List Fd
  parts : List Part
  deriving DecidableEq, Repr

/-- From a to b nothing outside the footprint changes: no register bit and no part. Device time is apart. -/
structure Foot.Frame (w : Foot) (a b : Dev) : Prop where
  bits : w.any = false → ∀ off bit, (∀ f ∈ w.fields, ¬ f.holds off bit) → (b.word off).getLsbD bit = (a.word off).getLsbD bit
  parts : ∀ p, p ∉ w.parts → p.kept a b

end Sys2Proof.Machine
end

