-- ==== Sys2Proof/WellFormed.lean ====
section
/-! DEFINITION. Well-formed commands: every operand fits the place that the spec gives it. The meanings answer on any operands; what a
statement says of a command that no host, no wire and no sensor can send is nothing about the device. -/

namespace Sys2Proof

/-- Is a number a 64-bit value, as an instant is (R9)? -/
def instant (t : Nat) : Bool := Nat.blt t (2 ^ 64)

/-- Is a number below 2^k? -/
def below (v k : Nat) : Bool := Nat.blt v (2 ^ k)

/-- Is a number a k-bit two's complement one? -/
def within (v : Int) (k : Nat) : Bool := decide (-(2 ^ (k - 1) : Int) ≤ v) && decide (v < 2 ^ (k - 1))

/-- Is a number a ring index (R305)? -/
def ringIndex (i : Nat) : Bool := below i 16

/-- Does a list of bytes fit a 16-bit length (R308)? -/
def shortList (l : List (BitVec 8)) : Bool := below l.length 16

/-- Do the fields of a descriptor fit their places (R308)? -/
def Descr.legal (x : Descr) : Bool :=
  below x.opcode 8 && below x.flags 8 && below x.target 16 && below x.length 16 && below x.sequence 16 && below x.deadline 32 &&
    below x.param1 32 && below x.address 64 && below x.param2 64

/-- Do the fields of a received frame fit theirs (R334)? -/
def CanFrame.legal (f : CanFrame) : Bool :=
  1 ≤ f.format && f.format ≤ 3 && below f.ident 29 && below f.asked 4 && below f.sdt 8 && below f.vcid 8 && below f.af 32 &&
    f.data.length ≤ 2048

/-- Does what a test meets fit its places: supplies in mV, codes of 14 and 16 bits, a Q16.16 reading (R380)? -/
def AdmitTest.legal (x : AdmitTest) : Bool :=
  below x.hiMv 16 && below x.loMv 16 && below x.lo 14 && below x.hi 14 && below x.half 16 && below x.gnd 16 && within x.temp 32

/-- Do the voltages at a position port's lands fit the 16 bits of a measured voltage? -/
def Lands.legal (l : Lands) : Bool :=
  within l.ap 16 && within l.an 16 && within l.bp 16 && within l.bn 16 && within l.zp 16 && within l.zn 16 && within l.x 16 &&
    within l.y 16

/-- Are these the sixteen samples of half an excitation period (R136)? -/
def samples (l : List Int) : Bool := l.length == 16 && l.all (fun x => within x 16)

/-- Does a store write one, two or four bytes from its place on, as the RV32IMFC stores do (R263)? -/
def ScStore.legal (s : ScStore) : Bool := [1, 3, 15].contains s.mask.toNat

/-- Does every instruction of a window make one store at most, and legal ones? -/
def ScRun.legal (r : ScRun) : Bool :=
  r.waits.all (fun w => below w.wait 16) &&
    ((r.own.map ScTrace.retired).getD []).all fun i =>
      Nat.ble (i.results.filter fun x => match x with | .store _ => true | _ => false).length 1 &&
        i.results.all fun x => match x with
          | .store s => s.legal
          | _ => true

/-- Is a command well formed? -/
def Instr.wellFormed (c : Instr) : Bool :=
  match c with
  | .registerWrite t _ off bytes _ => instant t && below off 21 && [1, 2, 4, 8].contains bytes
  | .lowHalfReadCapture t _ off => instant t && below off 21
  | .sealRequest t _ => instant t
  | .sealComplete t => instant t
  | .unseal t i buf => instant t && ringIndex i && shortList buf
  | .gtCapture t gt => instant t && instant gt
  | .updatePoint t _ => instant t
  | .deadlineInstant t _ => instant t
  | .samplingPlan t _ => instant t
  | .pgShadowWrite t => instant t
  | .commitMark t => instant t
  | .scShadowWrite t _ _ _ => instant t
  | .scCommit t _ _ => instant t
  | .stageStart t _ => instant t
  | .stageStop t _ => instant t
  | .compareMatch t _ _ => instant t
  | .deadTimeExpiry t _ _ => instant t
  | .triggerFire t _ _ => instant t
  | .driverInputChange t _ hiMv loMv => instant t && below hiMv 16 && below loMv 16
  | .gateEdgeStart t _ _ => instant t
  | .plateauEntry t _ g => instant t && below g.first 32 && below g.slope 32 && within g.mv 16
  | .plateauExit t _ g => instant t && within g.mv 16
  | .segTimeout t _ _ => instant t
  | .edgeComplete t _ g => instant t && within g.mv 16
  | .uvlo t _ _ mv => instant t && below mv 16
  | .gateMonitorCheck t _ _ mv => instant t && within mv 16
  | .gateMismatch t _ _ mv => instant t && within mv 16
  | .linkDown t _ => instant t
  | .tripLaneDown t _ => instant t
  | .linkResume t _ _ hiMv loMv => instant t && below hiMv 16 && below loMv 16
  | .supplyHigh t _ mv => instant t && below mv 16
  | .shuntConversionDone t _ _ code shift => instant t && within code 16 && below shift 32
  | .housekeepingStart t _ => instant t
  | .housekeepingResult t _ code => instant t && below code 16
  | .calOffset t _ => instant t
  | .calGain t _ => instant t
  | .calBoth t _ => instant t
  | .calibrationDone t _ zero plus minus => instant t && within zero 32 && within plus 32 && within minus 32
  | .conversionDone t _ code hold => instant t && below code 16 && instant hold
  | .owSettleExpiry t _ => instant t
  | .cvPassStart t _ => instant t
  | .urgentRequest t _ _ => instant t
  | .urgentConversionDone t _ code => instant t && below code 16
  | .comparatorCrossing t _ x => instant t && within x 32
  | .filteredOutputChange t _ _ => instant t
  | .latchClear t _ _ _ => instant t
  | .edgeFlagEdge t _ x => instant t && within x 32
  | .tripInChange t _ h => instant t && instant h.since
  | .lowDelayExpiry t _ => instant t
  | .forceAct t _ => instant t
  | .forceOff t _ => instant t
  | .release t _ => instant t
  | .lineChange t _ l since stamp => instant t && l.legal && instant since && instant stamp
  | .illWindowExpiry t _ => instant t
  | .broken t _ h => instant t && within h.sign.x 32 && instant h.since
  | .periodTimeout t _ _ => instant t
  | .ssiStart t _ => instant t
  | .ssiFrameDone t _ bits => instant t && instant bits
  | .resolverEnvelope t _ sine cosine h phase => instant t && samples sine && samples cosine && instant h.stamp && below phase 32
  | .preset t _ => instant t
  | .observerUpdate t _ => instant t
  | .observerLatch t _ => instant t
  | .compareArm t _ _ _ => instant t
  | .repeaterEdge t _ => instant t
  | .recordArrival t k => instant t && below k 16
  | .startLimitExpiry t _ => instant t
  | .load t _ _ wait => instant t && below wait 16
  | .store t _ w => instant t && below w.wait 16
  | .emit t _ => instant t
  | .sect t _ => instant t
  | .casc t _ => instant t
  | .clarke t _ => instant t
  | .park t _ => instant t
  | .ipark t _ => instant t
  | .svm t _ => instant t
  | .dial t _ => instant t
  | .poise t _ => instant t
  | .lim t _ => instant t
  | .sel t _ => instant t
  | .cmp t _ => instant t
  | .recon t _ => instant t
  | .fusee t _ => instant t
  | .letdn t _ => instant t
  | .plaus t _ => instant t
  | .slack t _ => instant t
  | .engineStall t _ => instant t
  | .residueFail t _ => instant t
  | .declareDead t _ => instant t
  | .takeover t _ => instant t
  | .engineAdmit t _ i => instant t && ringIndex i
  | .engineSelfTestDone t _ _ => instant t
  | .coeffSwapRequest t _ _ => instant t
  | .slackMinRestart t _ _ => instant t
  | .tmStart t _ i => instant t && ringIndex i
  | .tmTarget t _ i => instant t && ringIndex i
  | .tmStop t _ i => instant t && ringIndex i
  | .tmCatchDecision t _ mv => instant t && mv.length == 12
  | .catchTimeExpiry t _ => instant t
  | .prechargeExpiry t _ => instant t
  | .sequencerStageStart t _ => instant t
  | .catchHoldDone t _ => instant t
  | .reengage t _ => instant t
  | .speedRefresh t _ => instant t
  | .tmSetLoss t _ => instant t
  | .chStart t _ i => instant t && ringIndex i
  | .chTarget t _ i => instant t && ringIndex i
  | .chStop t _ i => instant t && ringIndex i
  | .pilotWindow t => instant t
  | .pilotTimeout t => instant t
  | .pilotRefresh t => instant t
  | .chWaitDone t => instant t
  | .chWaitTimeout t => instant t
  | .stopTimeExpiry t => instant t
  | .gridLossTimeout t => instant t
  | .chEventReaction t => instant t
  | .lvStart t _ i => instant t && ringIndex i
  | .lvTarget t _ i => instant t && ringIndex i
  | .lvStop t _ i => instant t && ringIndex i
  | .lvSync t => instant t
  | .lvStartTimeout t => instant t
  | .lvStageLoss t => instant t
  | .drStart t _ i => instant t && ringIndex i
  | .drTarget t _ i => instant t && ringIndex i
  | .drStop t _ i => instant t && ringIndex i
  | .drLockTimeout t _ => instant t
  | .drTargetReached t _ => instant t
  | .drMoveTimeout t _ => instant t
  | .drReengage t _ => instant t
  | .drMirrorUpdate t _ => instant t
  | .drLoss t _ => instant t
  | .windowClose t r => instant t && r.legal
  | .lagTimeout t => instant t
  | .scSelfTestDone t _ _ => instant t
  | .agreedLoad t _ _ e => instant t && [1, 2, 4].contains e.bytes && below e.turn.wait 16
  | .checkerFault t _ => instant t
  | .transientPeriodExpiry t => instant t
  | .graceExpiry t => instant t
  | .injectionTestDone t _ => instant t
  | .fwReady t => instant t
  | .wdogService t _ => instant t
  | .wdogExpiry t => instant t
  | .vqArrival t _ i => instant t && ringIndex i
  | .accept t _ => instant t
  | .refuse t _ _ => instant t
  | .validationExpiry t _ => instant t
  | .kick t _ => instant t
  | .continueStage t _ => instant t
  | .stopStage t _ => instant t
  | .absenceExpiry t _ => instant t
  | .notifyTimeout t _ => instant t
  | .bankRead t _ a n w pending => instant t && [1, 2, 3, 4].contains n && Nat.ble (a + n) 0x800000 && below w.wait 16 && pending.all ScStore.legal
  | .bankWrite t _ a n _ w => instant t && [1, 2, 3, 4].contains n && Nat.ble (a + n) 0x800000 && below w.wait 16
  | .scrubRead t _ _ => instant t
  | .bankHandover t _ _ => instant t
  | .drainComplete t _ => instant t
  | .drainTimeout t _ => instant t
  | .confRestart t => instant t
  | .perst t _ => instant t
  | .hotReset t _ => instant t
  | .functionLevelReset t _ => instant t
  | .doorbell t _ _ => instant t
  | .qpEnable t _ _ => instant t
  | .qpDisable t _ => instant t
  | .descriptorFetch t => instant t
  | .descriptorReceive t _ i x => instant t && ringIndex i && x.legal
  | .completionWrite t _ => instant t
  | .moderationTimeout t _ => instant t
  | .descriptorDeadline t _ i _ => instant t && ringIndex i
  | .hostError t _ _ => instant t
  | .nop t _ i => instant t && ringIndex i
  | .fenceItem t _ i => instant t && ringIndex i
  | .fenceComplete t _ i => instant t && ringIndex i
  | .memWrite t _ i data => instant t && ringIndex i && shortList data.bytes && below data.wait.wait 16
  | .memRead t _ i n w => instant t && ringIndex i && below n 16 && below w.wait 16
  | .dataTransferDone t _ i => instant t && ringIndex i
  | .snapshot t _ i => instant t && ringIndex i
  | .admitUnit t _ i hiMv loMv _ => instant t && ringIndex i && below hiMv 16 && below loMv 16
  | .admitDone t _ i x => instant t && ringIndex i && x.legal
  | .streamBuf t _ i => instant t && ringIndex i
  | .recordWrite t _ => instant t
  | .bufferFlush t _ => instant t
  | .canTx t _ i data => instant t && ringIndex i && shortList data
  | .canRxbuf t _ i => instant t && ringIndex i
  | .slotLoad t _ => instant t
  | .frameTxEnd t _ a sof => instant t && below a.flags 8 && instant sof
  | .frameReceive t _ f sof => instant t && f.legal && instant sof
  | .integrationDone t _ => instant t
  | .recover t _ _ => instant t
  | .recoveryComplete t _ => instant t
  | .flowStale t _ => instant t
  | .ttTrigger t _ _ => instant t
  | .missedWindow t _ _ => instant t
  | .ttReferenceSend t _ a sof => instant t && below a.flags 8 && instant sof
  | .listenEnd t _ => instant t
  | .masterLost t _ => instant t
  | .secureBoot t => instant t
  | .bootSealRequest t => instant t
  | .identity t i => instant t && ringIndex i
  | .attest t i buf => instant t && ringIndex i && shortList buf
  | .sessionOpen t i buf => instant t && ringIndex i && shortList buf
  | .sessionClose t i => instant t && ringIndex i
  | .sessionExpiry t _ => instant t
  | .enroll t i buf blown => instant t && ringIndex i && shortList buf && below blown 10
  | .revoke t i buf blown => instant t && ringIndex i && shortList buf && below blown 10
  | .updateWrite t i buf _ => instant t && ringIndex i && shortList buf
  | .updateVerify t i => instant t && ringIndex i
  | .updateActivate t i buf burn => instant t && ringIndex i && shortList buf && below burn.blown 10
  | .activateReset t => instant t
  | .keyLoad t i buf => instant t && ringIndex i && shortList buf.data
  | .keyErase t i buf => instant t && ringIndex i && shortList buf.data
  | .raiseCounter t i buf blown => instant t && ringIndex i && shortList buf && below blown 10
  | .ledgerRead t i => instant t && ringIndex i
  | .lifetimeRead t i => instant t && ringIndex i
  | .uartFrame t f _ blown _ => instant t && below f.length 16 && shortList f.payload && below blown 10
  | .freshnessJournal t _ => instant t
  | .ledgerFlush t _ _ => instant t
  | .lifetimeRecord t _ => instant t
  | .lifeAccumulate t => instant t
  | .flashRefresh t sector _ => instant t && below sector 8
  | .fltFence t _ _ => instant t
  | .fltSafe t _ _ => instant t
  | .islandLost t _ => instant t
  | .ledgerReport t _ _ _ _ _ _ => instant t
  | .ledgerEntry t => instant t
  | .entryClose t _ => instant t
  | .slotCapture t _ _ _ => instant t
  | .powerOnReset t => instant t
  | .brownOutReset t => instant t
  | .railReset t => instant t
  | .resetN t => instant t
  | .safeWdogExpiry t => instant t
  | .coldBoot t vin vfab _ => instant t && below vin 16 && below vfab 16
  | .vinHigh t vin => instant t && below vin 16
  | .speedMonitor t _ _ => instant t
  | .vfabStep t _ => instant t
  | .fqiTcUpdate t => instant t
  | .sleepRequest t => instant t
  | .wake t _ _ _ slept => instant t && instant slept
  | .tempReading t _ _ => instant t
  | .tempCrossCheck t => instant t
  | .brokenLiveClear t _ b => instant t && within b.x 32
  | .receiveError t _ _ => instant t
  | .pcieLinkUp t _ => instant t
  | .sleepEntryDone t => instant t

/-- The instant at which a command reaches the block. -/
def Instr.time (c : Instr) : Nat :=
  match c with
  | .registerWrite t _ _ _ _ => t
  | .lowHalfReadCapture t _ _ => t
  | .sealRequest t _ => t
  | .sealComplete t => t
  | .unseal t _ _ => t
  | .gtCapture t _ => t
  | .updatePoint t _ => t
  | .deadlineInstant t _ => t
  | .samplingPlan t _ => t
  | .pgShadowWrite t => t
  | .commitMark t => t
  | .scShadowWrite t _ _ _ => t
  | .scCommit t _ _ => t
  | .stageStart t _ => t
  | .stageStop t _ => t
  | .compareMatch t _ _ => t
  | .deadTimeExpiry t _ _ => t
  | .triggerFire t _ _ => t
  | .driverInputChange t _ _ _ => t
  | .gateEdgeStart t _ _ => t
  | .plateauEntry t _ _ => t
  | .plateauExit t _ _ => t
  | .segTimeout t _ _ => t
  | .edgeComplete t _ _ => t
  | .uvlo t _ _ _ => t
  | .gateMonitorCheck t _ _ _ => t
  | .gateMismatch t _ _ _ => t
  | .linkDown t _ => t
  | .tripLaneDown t _ => t
  | .linkResume t _ _ _ _ => t
  | .supplyHigh t _ _ => t
  | .shuntConversionDone t _ _ _ _ => t
  | .housekeepingStart t _ => t
  | .housekeepingResult t _ _ => t
  | .calOffset t _ => t
  | .calGain t _ => t
  | .calBoth t _ => t
  | .calibrationDone t _ _ _ _ => t
  | .conversionDone t _ _ _ => t
  | .owSettleExpiry t _ => t
  | .cvPassStart t _ => t
  | .urgentRequest t _ _ => t
  | .urgentConversionDone t _ _ => t
  | .comparatorCrossing t _ _ => t
  | .filteredOutputChange t _ _ => t
  | .latchClear t _ _ _ => t
  | .edgeFlagEdge t _ _ => t
  | .tripInChange t _ _ => t
  | .lowDelayExpiry t _ => t
  | .forceAct t _ => t
  | .forceOff t _ => t
  | .release t _ => t
  | .lineChange t _ _ _ _ => t
  | .illWindowExpiry t _ => t
  | .broken t _ _ => t
  | .periodTimeout t _ _ => t
  | .ssiStart t _ => t
  | .ssiFrameDone t _ _ => t
  | .resolverEnvelope t _ _ _ _ _ => t
  | .preset t _ => t
  | .observerUpdate t _ => t
  | .observerLatch t _ => t
  | .compareArm t _ _ _ => t
  | .repeaterEdge t _ => t
  | .recordArrival t _ => t
  | .startLimitExpiry t _ => t
  | .load t _ _ _ => t
  | .store t _ _ => t
  | .emit t _ => t
  | .sect t _ => t
  | .casc t _ => t
  | .clarke t _ => t
  | .park t _ => t
  | .ipark t _ => t
  | .svm t _ => t
  | .dial t _ => t
  | .poise t _ => t
  | .lim t _ => t
  | .sel t _ => t
  | .cmp t _ => t
  | .recon t _ => t
  | .fusee t _ => t
  | .letdn t _ => t
  | .plaus t _ => t
  | .slack t _ => t
  | .engineStall t _ => t
  | .residueFail t _ => t
  | .declareDead t _ => t
  | .takeover t _ => t
  | .engineAdmit t _ _ => t
  | .engineSelfTestDone t _ _ => t
  | .coeffSwapRequest t _ _ => t
  | .slackMinRestart t _ _ => t
  | .tmStart t _ _ => t
  | .tmTarget t _ _ => t
  | .tmStop t _ _ => t
  | .tmCatchDecision t _ _ => t
  | .catchTimeExpiry t _ => t
  | .prechargeExpiry t _ => t
  | .sequencerStageStart t _ => t
  | .catchHoldDone t _ => t
  | .reengage t _ => t
  | .speedRefresh t _ => t
  | .tmSetLoss t _ => t
  | .chStart t _ _ => t
  | .chTarget t _ _ => t
  | .chStop t _ _ => t
  | .pilotWindow t => t
  | .pilotTimeout t => t
  | .pilotRefresh t => t
  | .chWaitDone t => t
  | .chWaitTimeout t => t
  | .stopTimeExpiry t => t
  | .gridLossTimeout t => t
  | .chEventReaction t => t
  | .lvStart t _ _ => t
  | .lvTarget t _ _ => t
  | .lvStop t _ _ => t
  | .lvSync t => t
  | .lvStartTimeout t => t
  | .lvStageLoss t => t
  | .drStart t _ _ => t
  | .drTarget t _ _ => t
  | .drStop t _ _ => t
  | .drLockTimeout t _ => t
  | .drTargetReached t _ => t
  | .drMoveTimeout t _ => t
  | .drReengage t _ => t
  | .drMirrorUpdate t _ => t
  | .drLoss t _ => t
  | .windowClose t _ => t
  | .lagTimeout t => t
  | .scSelfTestDone t _ _ => t
  | .agreedLoad t _ _ _ => t
  | .checkerFault t _ => t
  | .transientPeriodExpiry t => t
  | .graceExpiry t => t
  | .injectionTestDone t _ => t
  | .fwReady t => t
  | .wdogService t _ => t
  | .wdogExpiry t => t
  | .vqArrival t _ _ => t
  | .accept t _ => t
  | .refuse t _ _ => t
  | .validationExpiry t _ => t
  | .kick t _ => t
  | .continueStage t _ => t
  | .stopStage t _ => t
  | .absenceExpiry t _ => t
  | .notifyTimeout t _ => t
  | .bankRead t _ _ _ _ _ => t
  | .bankWrite t _ _ _ _ _ => t
  | .scrubRead t _ _ => t
  | .bankHandover t _ _ => t
  | .drainComplete t _ => t
  | .drainTimeout t _ => t
  | .confRestart t => t
  | .perst t _ => t
  | .hotReset t _ => t
  | .functionLevelReset t _ => t
  | .doorbell t _ _ => t
  | .qpEnable t _ _ => t
  | .qpDisable t _ => t
  | .descriptorFetch t => t
  | .descriptorReceive t _ _ _ => t
  | .completionWrite t _ => t
  | .moderationTimeout t _ => t
  | .descriptorDeadline t _ _ _ => t
  | .hostError t _ _ => t
  | .nop t _ _ => t
  | .fenceItem t _ _ => t
  | .fenceComplete t _ _ => t
  | .memWrite t _ _ _ => t
  | .memRead t _ _ _ _ => t
  | .dataTransferDone t _ _ => t
  | .snapshot t _ _ => t
  | .admitUnit t _ _ _ _ _ => t
  | .admitDone t _ _ _ => t
  | .streamBuf t _ _ => t
  | .recordWrite t _ => t
  | .bufferFlush t _ => t
  | .canTx t _ _ _ => t
  | .canRxbuf t _ _ => t
  | .slotLoad t _ => t
  | .frameTxEnd t _ _ _ => t
  | .frameReceive t _ _ _ => t
  | .integrationDone t _ => t
  | .recover t _ _ => t
  | .recoveryComplete t _ => t
  | .flowStale t _ => t
  | .ttTrigger t _ _ => t
  | .missedWindow t _ _ => t
  | .ttReferenceSend t _ _ _ => t
  | .listenEnd t _ => t
  | .masterLost t _ => t
  | .secureBoot t => t
  | .bootSealRequest t => t
  | .identity t _ => t
  | .attest t _ _ => t
  | .sessionOpen t _ _ => t
  | .sessionClose t _ => t
  | .sessionExpiry t _ => t
  | .enroll t _ _ _ => t
  | .revoke t _ _ _ => t
  | .updateWrite t _ _ _ => t
  | .updateVerify t _ => t
  | .updateActivate t _ _ _ => t
  | .activateReset t => t
  | .keyLoad t _ _ => t
  | .keyErase t _ _ => t
  | .raiseCounter t _ _ _ => t
  | .ledgerRead t _ => t
  | .lifetimeRead t _ => t
  | .uartFrame t _ _ _ _ => t
  | .freshnessJournal t _ => t
  | .ledgerFlush t _ _ => t
  | .lifetimeRecord t _ => t
  | .lifeAccumulate t => t
  | .flashRefresh t _ _ => t
  | .fltFence t _ _ => t
  | .fltSafe t _ _ => t
  | .islandLost t _ => t
  | .ledgerReport t _ _ _ _ _ _ => t
  | .ledgerEntry t => t
  | .entryClose t _ => t
  | .slotCapture t _ _ _ => t
  | .powerOnReset t => t
  | .brownOutReset t => t
  | .railReset t => t
  | .resetN t => t
  | .safeWdogExpiry t => t
  | .coldBoot t _ _ _ => t
  | .vinHigh t _ => t
  | .speedMonitor t _ _ => t
  | .vfabStep t _ => t
  | .fqiTcUpdate t => t
  | .sleepRequest t => t
  | .wake t _ _ _ _ => t
  | .tempReading t _ _ => t
  | .tempCrossCheck t => t
  | .brokenLiveClear t _ _ => t
  | .receiveError t _ _ => t
  | .pcieLinkUp t _ => t
  | .sleepEntryDone t => t

end Sys2Proof
end

