-- ==== Sys2Proof/Safety.lean ====
section
/-! DEFINITION. What claims are stated in: what a command may touch, command by command; the form that every step keeps; the
commands that renew the device and those that leave SAFE. -/

namespace Sys2Proof

open Machine


/-- What a command may touch. The eight commands that renew the device (its resets, the start after one and the end of sleep) may
touch everything. -/
def Instr.foot (c : Instr) : Foot :=
  match c with
  | .registerWrite _ _ _ _ _ | .sealRequest _ _ | .windowClose _ _ | .agreedLoad _ _ _ _ | .checkerFault _ _ | .bankRead _ _ _
    _ _ _ | .secureBoot _ =>
    ⟨true, [], [.sys, .tb, .pp, .sh, .cv, .ps, .be, .tm, .ch, .dr, .sc, .mb, .hi, .cn, .sec, .flt, .pw]⟩
  | .lowHalfReadCapture _ _ _ =>
    ⟨false, [], [.sys]⟩
  | .sealComplete _ =>
    ⟨false, [F.DEV_STATE_state, F.DEV_SEAL_CTRL_seal, F.DEV_SEAL_CTRL_outcome, F.DEV_SEAL_CTRL_detail_kind,
      F.DEV_SEAL_CTRL_detail_index, F.DEV_MEASURE, F.BE_ENG_STAT_state, F.BE_ENG_STAT_spare, F.BE_ENG_STAT_loop,
      F.BE_ENG_STAT_loops, F.BE_ENG_LOOPS_LO, F.BE_ENG_LOOPS_HI, F.BE_LP_SWAP_pending, F.BE_LP_SWAP_status, F.BE_LP_STAT_state,
      F.BE_LP_STAT_engine, F.BE_POOL_STAT_fenced, F.BE_POOL_STAT_free, F.BE_POOL_CHECK, F.BE_POOL_CHECK_valid,
      F.SC_TM_STAT_state, F.SC_CH_STAT_state, F.SC_LV_STAT_state, F.SC_DR_STAT_state, F.MB_BANK_CTRL, F.MB_BANK_STAT_owner,
      F.IMS_BOOT_seal_ms, F.FLT_STAT_lost, F.FLT_LOST], [.sys, .be, .hi, .flt]⟩
  | .unseal _ _ _ | .identity _ _ | .attest _ _ _ | .sessionOpen _ _ _ | .sessionClose _ _ | .enroll _ _ _ _ | .revoke _ _ _ _
    | .updateWrite _ _ _ _ | .updateVerify _ _ | .updateActivate _ _ _ _ | .keyLoad _ _ _ | .keyErase _ _ _ | .raiseCounter _ _
    _ _ | .ledgerRead _ _ | .lifetimeRead _ _ =>
    ⟨false, [F.DEV_STATE_state, F.BE_ENG_STAT_state, F.BE_ENG_STAT_loop, F.BE_ENG_STAT_loops, F.BE_LP_STAT_state,
      F.BE_POOL_STAT_fenced, F.BE_POOL_STAT_free, F.SC_TM_STAT_last_status, F.SC_TM_CNT_refusals, F.SC_CH_STAT_last_status,
      F.SC_LV_STAT_last_status, F.SC_DR_STAT_last_status, F.MB_BANK_CTRL_owner, F.MB_BANK_CTRL_draining,
      F.MB_BANK_STAT_draining, F.HI_QP_CTRL_draining, F.HI_QP_FLAGS_in_flight, F.CN_STAT_slots, F.SEC_STAT_key_slot,
      F.SEC_STAT_enrolled, F.SEC_STAT_session_qp0, F.SEC_STAT_session_uart, F.SEC_STAT_otp_err, F.SEC_IMG_trial,
      F.SEC_IMG_pending, F.SEC_IMG_other_valid, F.SEC_IMG_other_version, F.IMS_STAT_flash_err, F.FLT_STAT_lost, F.FLT_LOST],
      [.sys, .be, .mb, .hi, .cn, .sec, .flt]⟩
  | .gtCapture _ _ =>
    ⟨false, [F.TB_GT_STAT_state, F.TB_GT_STAT_jump, F.TB_GT_OFFSET_LO, F.TB_GT_OFFSET_HI, F.TB_GT_ERR, F.TB_RATE], [.tb]⟩
  | .updatePoint _ _ =>
    ⟨false, [F.TB_STG_RUN_run, F.TB_STG_COMMIT_status, F.TB_STG_COMMIT_pending, F.TB_STG_UPD_LO, F.TB_STG_UPD_HI,
      F.TB_STG_STAT_running, F.TB_STG_STAT_tripped, F.TB_STG_STAT_fenced, F.TB_STG_STAT_deadline, F.TB_STG_PLAN_A_instant,
      F.TB_STG_PLAN_A_placed, F.TB_STG_PLAN_B_instant, F.TB_STG_PLAN_B_placed, F.PG_CMP_A_value, F.PG_CMP_B_value,
      F.PG_STAT_out_high, F.PG_STAT_out_low, F.PG_STAT_minp, F.PG_STAT_both_req, F.PG_STAT_trip_hold, F.SH_RES_A, F.SH_RES_B,
      F.SH_INFO_A, F.SH_INFO_B, F.SH_STAMP_A_LO, F.SH_STAMP_A_HI, F.SH_STAMP_B_LO, F.SH_STAMP_B_HI, F.SH_STAT_short,
      F.SH_STAT_accepted, F.SH_STAT_unplaced, F.SH_STAT_short_run, F.SH_STAT_run_len, F.SH_STAT_short_cnt, F.WM_SW_HELD,
      F.WM_SW_STAT_held, F.WM_SW_STAT_action, F.WM_SW_STAT_cause_kind, F.WM_SW_STAT_cause_index, F.WM_SW_STAT_count,
      F.WM_SW_TIME_LO, F.WM_SW_TIME_HI, F.BE_ENG_STAT_state, F.BE_ENG_STAT_loop, F.BE_ENG_STAT_loops,
      F.BE_ENG_STAT_fenced_writes, F.BE_LP_SWAP_active, F.BE_LP_SWAP_pending, F.BE_LP_SWAP_status, F.BE_LP_STAT_state,
      F.BE_LP_STAT_consec, F.BE_LP_STAT_update, F.BE_LP_FLAGS_sat, F.BE_LP_FLAGS_swap_clamp, F.BE_LP_FLAGS_deadline,
      F.BE_LP_MISS_misses, F.BE_LP_SLACK_last, F.BE_LP_SLACK_win_min, F.BE_LP_SLACK_MIN_min, F.BE_LP_SLACK_MIN_restart,
      F.BE_LP_DONE_LO, F.BE_LP_DONE_HI, F.BE_POOL_STAT_fenced, F.BE_POOL_STAT_free, F.SC_ABS_LEFT_left, F.SC_ABS_LEFT_awaiting,
      F.FLT_STAT_lost, F.FLT_LOST], [.tb, .pp, .sh, .cv, .be, .ch, .sc, .flt]⟩
  | .deadlineInstant _ _ =>
    ⟨false, [F.TB_STG_RUN_run, F.TB_STG_COMMIT_pending, F.TB_STG_STAT_running, F.TB_STG_STAT_tripped, F.TB_STG_STAT_fenced,
      F.TB_STG_STAT_deadline, F.PG_STAT_out_high, F.PG_STAT_out_low, F.PG_STAT_trip_hold, F.WM_SW_HELD, F.WM_SW_STAT_held,
      F.WM_SW_STAT_action, F.WM_SW_STAT_cause_kind, F.WM_SW_STAT_cause_index, F.WM_SW_STAT_count, F.WM_SW_TIME_LO,
      F.WM_SW_TIME_HI, F.BE_ENG_STAT_state, F.BE_ENG_STAT_loop, F.BE_ENG_STAT_loops, F.BE_LP_SWAP_active, F.BE_LP_SWAP_pending,
      F.BE_LP_SWAP_status, F.BE_LP_STAT_state, F.BE_LP_STAT_consec, F.BE_LP_FLAGS_sat, F.BE_LP_FLAGS_swap_clamp,
      F.BE_LP_FLAGS_deadline, F.BE_LP_MISS_misses, F.BE_LP_SLACK_last, F.BE_LP_SLACK_win_min, F.BE_LP_SLACK_MIN_min,
      F.BE_LP_SLACK_MIN_restart, F.BE_POOL_STAT_fenced, F.BE_POOL_STAT_free, F.SC_ABS_LEFT_left, F.SC_ABS_LEFT_awaiting,
      F.FLT_STAT_lost, F.FLT_LOST], [.tb, .pp, .cv, .be, .sc, .flt]⟩
  | .samplingPlan _ _ =>
    ⟨false, [F.PG_CMP_A_value, F.PG_CMP_B_value, F.SH_STAT_short, F.SH_STAT_accepted, F.SH_STAT_unplaced, F.SH_STAT_short_cnt],
      [.tb]⟩
  | .pgShadowWrite _ =>
    ⟨false, [F.TB_STG_STAT_stale, F.TB_STG_STAT_stale_cnt, F.PG_SHD_A_value, F.PG_SHD_B_value, F.PG_STAT_sat,
      F.BE_ENG_STAT_fenced_writes, F.FLT_STAT_lost, F.FLT_LOST], [.tb, .flt]⟩
  | .commitMark _ =>
    ⟨false, [F.TB_STG_STAT_late, F.BE_ENG_STAT_fenced_writes, F.BE_LP_SLACK_last, F.BE_LP_SLACK_win_min, F.BE_LP_SLACK_MIN_min,
      F.BE_LP_SLACK_MIN_restart, F.BE_LP_DUR_last, F.BE_LP_DUR_max, F.FLT_STAT_lost, F.FLT_LOST], [.tb, .be, .flt]⟩
  | .scShadowWrite _ _ _ _ =>
    ⟨false, [F.FAB_WRITE_ERR, F.FAB_WRITE_ERR_more, F.FAB_WRITE_DATA, F.FAB_WRITE_CNT, F.PG_SHD_A_value, F.PG_SHD_B_value],
      [.tb]⟩
  | .scCommit _ _ _ =>
    ⟨false, [F.FAB_WRITE_ERR, F.FAB_WRITE_ERR_more, F.FAB_WRITE_DATA, F.FAB_WRITE_CNT, F.TB_STG_COMMIT_update,
      F.TB_STG_COMMIT_status, F.TB_STG_COMMIT_pending], []⟩
  | .stageStart _ _ | .stageStop _ _ =>
    ⟨false, [F.FAB_WRITE_ERR, F.FAB_WRITE_ERR_more, F.FAB_WRITE_DATA, F.FAB_WRITE_CNT, F.TB_STG_RUN_run, F.TB_STG_STAT_running,
      F.PG_STAT_out_high, F.PG_STAT_out_low, F.PG_STAT_trip_hold, F.SH_CAL_CTRL_busy, F.SH_CAL_CTRL_status, F.CV_STAT_urgent,
      F.SC_ABS_LEFT_left, F.SC_ABS_LEFT_expired, F.SC_ABS_LEFT_awaiting], [.tb, .pp, .sh, .cv, .sc]⟩
  | .compareMatch _ _ _ | .deadTimeExpiry _ _ _ =>
    ⟨false, [F.PG_STAT_out_high, F.PG_STAT_out_low, F.PG_STAT_both_req], [.tb, .pp]⟩
  | .triggerFire _ _ _ =>
    ⟨false, [F.TB_TRIG_CNT], [.tb]⟩
  | .driverInputChange _ _ _ _ =>
    ⟨false, [F.PP_STAT_uvlo_hi_live, F.PP_STAT_uvlo_lo_live, F.PP_STAT_interlock_live, F.PP_STAT_uvlo, F.PP_STAT_interlock,
      F.PP_CNT_uvlo, F.PP_CNT_interlock, F.PP_SUPPLY_hi_supply, F.PP_SUPPLY_lo_supply, F.FLT_STAT_lost, F.FLT_LOST], [.pp,
      .flt]⟩
  | .gateEdgeStart _ _ _ | .plateauEntry _ _ _ | .plateauExit _ _ _ =>
    ⟨false, [], [.pp]⟩
  | .segTimeout _ _ _ =>
    ⟨false, [F.PP_STAT_seg_timeout, F.FLT_STAT_lost, F.FLT_LOST], [.pp, .flt]⟩
  | .edgeComplete _ _ _ =>
    ⟨false, [F.PP_STAT_gate_hi, F.PP_STAT_gate_lo, F.PP_EDGE_ON, F.PP_EDGE_OFF], [.pp]⟩
  | .uvlo _ _ _ _ =>
    ⟨false, [F.PP_STAT_uvlo_hi_live, F.PP_STAT_uvlo_lo_live, F.PP_STAT_uvlo, F.PP_CNT_uvlo, F.PP_SUPPLY_hi_supply,
      F.PP_SUPPLY_lo_supply, F.FLT_STAT_lost, F.FLT_LOST], [.pp, .flt]⟩
  | .gateMonitorCheck _ _ _ _ =>
    ⟨false, [F.PP_STAT_gate_hi, F.PP_STAT_gate_lo, F.PP_STAT_gate_mismatch, F.PP_CNT_mismatch, F.FLT_STAT_lost, F.FLT_LOST],
      [.pp, .flt]⟩
  | .gateMismatch _ _ _ _ =>
    ⟨false, [F.PP_STAT_gate_hi, F.PP_STAT_gate_lo, F.PP_STAT_gate_mismatch, F.PP_CNT_mismatch, F.FLT_STAT_lost, F.FLT_LOST],
      [.flt]⟩
  | .linkDown _ _ | .tripLaneDown _ _ =>
    ⟨false, [F.PP_STAT_link_live, F.PP_STAT_link_down, F.FLT_STAT_lost, F.FLT_LOST], [.pp, .flt]⟩
  | .linkResume _ _ _ _ _ =>
    ⟨false, [F.PP_STAT_uvlo_hi_live, F.PP_STAT_uvlo_lo_live, F.PP_STAT_interlock_live, F.PP_STAT_link_live,
      F.PP_STAT_interlock, F.PP_CNT_interlock, F.FLT_STAT_lost, F.FLT_LOST], [.pp, .flt]⟩
  | .supplyHigh _ _ _ =>
    ⟨false, [F.PP_STAT_uvlo_hi_live, F.PP_STAT_uvlo_lo_live, F.PP_STAT_uvlo, F.PP_STAT_supply_high, F.PP_CNT_uvlo,
      F.PP_SUPPLY_hi_supply, F.PP_SUPPLY_lo_supply, F.FLT_STAT_lost, F.FLT_LOST], [.pp, .flt]⟩
  | .shuntConversionDone _ _ _ _ _ =>
    ⟨false, [F.PP_STAT_chopper_open, F.PP_CNT_chopper_open, F.SH_RES_A, F.SH_RES_B, F.SH_INFO_A, F.SH_INFO_B, F.SH_STAMP_A_LO,
      F.SH_STAMP_A_HI, F.SH_STAMP_B_LO, F.SH_STAMP_B_HI, F.SH_STAT_sat, F.CV_STAT_urgent, F.FLT_STAT_lost, F.FLT_LOST], [.sh,
      .cv, .be, .flt]⟩
  | .housekeepingStart _ _ =>
    ⟨false, [], [.sh]⟩
  | .housekeepingResult _ _ _ =>
    ⟨false, [F.SH_DV, F.SH_PV, F.SH_TN, F.SH_STAT_sat, F.WM_STAT_band_hold, F.WM_PC_STAT_band_hold, F.WM_PC_STAT_dac_err,
      F.WM_EF_RISE_LO, F.WM_EF_RISE_HI, F.WM_EF_FALL_LO, F.WM_EF_FALL_HI, F.WM_EF_STAT_live, F.WM_EF_STAT_band_hold,
      F.WM_EF_STAT_rise, F.WM_EF_STAT_fall, F.WM_EF_STAT_edges, F.FLT_STAT_lost, F.FLT_LOST, F.THM_STAGE_MAX, F.THM_DERATE,
      F.THM_TN, F.THM_PVT], [.sh, .cv, .be, .tm, .ch, .flt, .pw]⟩
  | .calOffset _ _ | .calGain _ _ | .calBoth _ _ =>
    ⟨false, [F.SH_CAL_CTRL_op, F.SH_CAL_CTRL_busy, F.SH_CAL_CTRL_status, F.CV_STAT_urgent], [.sh, .cv]⟩
  | .calibrationDone _ _ _ _ _ =>
    ⟨false, [F.SH_CAL_CTRL_busy, F.SH_CAL_CTRL_status, F.SH_CAL_RES_offset, F.SH_CAL_RES_gain_err], [.sh]⟩
  | .conversionDone _ _ _ _ =>
    ⟨false, [F.CV_STAT_busy, F.CV_STAT_urgent, F.CV_STAT_entry, F.CV_STAT_broken, F.CV_STAT_dac_mismatch, F.CV_RES,
      F.CV_RAW_code, F.CV_RAW_valid, F.CV_RAW_broken, F.CV_RAW_sat, F.CV_RAW_pass, F.CV_STAMP, F.WM_STAT_dac_err,
      F.SC_CH_STAT_cable, F.SC_CH_PP_OHM_ohm, F.FLT_STAT_lost, F.FLT_LOST], [.cv, .ch, .flt]⟩
  | .owSettleExpiry _ _ =>
    ⟨false, [F.CV_STAT_urgent], [.cv]⟩
  | .cvPassStart _ _ =>
    ⟨false, [F.CV_STAT_busy, F.CV_STAT_entry, F.CV_STAT_overrun, F.CV_STAT_overrun_cnt], [.tb, .cv]⟩
  | .urgentRequest _ _ _ =>
    ⟨false, [F.FAB_WRITE_ERR, F.FAB_WRITE_ERR_more, F.FAB_WRITE_DATA, F.FAB_WRITE_CNT, F.CV_STAT_urgent, F.CV_URG_kind,
      F.CV_URG_index, F.CV_URG_busy, F.CV_URG_status], [.cv]⟩
  | .urgentConversionDone _ _ _ =>
    ⟨false, [F.PP_STAT_chopper_open, F.PP_CNT_chopper_open, F.SH_RES_A, F.SH_RES_B, F.SH_INFO_A, F.SH_INFO_B, F.SH_STAMP_A_LO,
      F.SH_STAMP_A_HI, F.SH_STAMP_B_LO, F.SH_STAMP_B_HI, F.SH_STAT_sat, F.CV_STAT_urgent, F.CV_URG_busy, F.CV_URG_status,
      F.CV_URG_RES_code, F.FLT_STAT_lost, F.FLT_LOST], [.sh, .cv, .be, .flt]⟩
  | .comparatorCrossing _ _ _ | .edgeFlagEdge _ _ _ =>
    ⟨false, [F.WM_STAT_band_hold, F.WM_PC_STAT_band_hold, F.WM_EF_RISE_LO, F.WM_EF_RISE_HI, F.WM_EF_FALL_LO, F.WM_EF_FALL_HI,
      F.WM_EF_STAT_live, F.WM_EF_STAT_band_hold, F.WM_EF_STAT_rise, F.WM_EF_STAT_fall, F.WM_EF_STAT_edges], [.cv, .be, .tm]⟩
  | .filteredOutputChange _ _ _ =>
    ⟨false, [F.TB_STG_RUN_run, F.TB_STG_STAT_running, F.TB_STG_STAT_tripped, F.PG_STAT_out_high, F.PG_STAT_out_low,
      F.PG_STAT_trip_hold, F.WM_LATCH_lo, F.WM_LATCH_hi, F.WM_PC_LATCH_lo, F.WM_PC_LATCH_hi, F.WM_STAT_live_lo,
      F.WM_STAT_live_hi, F.WM_STAT_count, F.WM_PC_STAT_live_lo, F.WM_PC_STAT_live_hi, F.WM_PC_STAT_count, F.WM_EF_STAT_live,
      F.WM_SW_HELD, F.WM_SW_STAT_held, F.WM_SW_STAT_action, F.WM_SW_STAT_cause_kind, F.WM_SW_STAT_cause_index,
      F.WM_SW_STAT_count, F.WM_SW_TIME_LO, F.WM_SW_TIME_HI, F.SC_ABS_LEFT_left, F.SC_ABS_LEFT_awaiting, F.FLT_STAT_lost,
      F.FLT_LOST], [.tb, .pp, .cv, .ch, .sc, .flt]⟩
  | .latchClear _ _ _ _ =>
    ⟨false, [F.FAB_WRITE_ERR, F.FAB_WRITE_ERR_more, F.FAB_WRITE_DATA, F.FAB_WRITE_CNT, F.WM_LATCH_lo, F.WM_LATCH_hi,
      F.WM_PC_LATCH_lo, F.WM_PC_LATCH_hi], []⟩
  | .tripInChange _ _ _ =>
    ⟨false, [F.TB_STG_RUN_run, F.TB_STG_STAT_running, F.TB_STG_STAT_tripped, F.PG_STAT_out_high, F.PG_STAT_out_low,
      F.PG_STAT_trip_hold, F.WM_SW_IN_STAT_live, F.WM_SW_IN_STAT_seen, F.WM_SW_HELD, F.WM_SW_STAT_held, F.WM_SW_STAT_action,
      F.WM_SW_STAT_cause_kind, F.WM_SW_STAT_cause_index, F.WM_SW_STAT_count, F.WM_SW_TIME_LO, F.WM_SW_TIME_HI,
      F.SC_ABS_LEFT_left, F.SC_ABS_LEFT_awaiting, F.FLT_STAT_lost, F.FLT_LOST], [.tb, .pp, .cv, .sc, .flt]⟩
  | .lowDelayExpiry _ _ =>
    ⟨false, [F.PG_STAT_out_high, F.PG_STAT_out_low, F.PG_STAT_trip_hold], [.tb, .pp, .cv]⟩
  | .forceAct _ _ | .forceOff _ _ =>
    ⟨false, [F.TB_STG_RUN_run, F.TB_STG_STAT_running, F.TB_STG_STAT_tripped, F.PG_STAT_out_high, F.PG_STAT_out_low,
      F.PG_STAT_trip_hold, F.WM_SW_HELD, F.WM_SW_CTRL_cmd, F.WM_SW_CTRL_status, F.WM_SW_STAT_held, F.WM_SW_STAT_action,
      F.WM_SW_STAT_cause_kind, F.WM_SW_STAT_cause_index, F.WM_SW_STAT_count, F.WM_SW_TIME_LO, F.WM_SW_TIME_HI,
      F.SC_ABS_LEFT_left, F.SC_ABS_LEFT_awaiting, F.FLT_STAT_lost, F.FLT_LOST], [.tb, .pp, .cv, .sc, .flt]⟩
  | .release _ _ =>
    ⟨false, [F.FAB_WRITE_ERR, F.FAB_WRITE_ERR_more, F.FAB_WRITE_DATA, F.FAB_WRITE_CNT, F.TB_STG_STAT_tripped, F.WM_SW_HELD,
      F.WM_SW_CTRL_cmd, F.WM_SW_CTRL_status, F.WM_SW_STAT_held], [.cv]⟩
  | .lineChange _ _ _ _ _ =>
    ⟨false, [F.PS_STAT_running, F.PS_STAT_indexed, F.PS_STAT_fenced, F.PS_STAT_illegal, F.PS_STAT_drift, F.PS_STAT_hall,
      F.PS_STAT_sec_hall, F.PS_ILL_CNT_total, F.PS_ILL_CNT_window, F.PS_CNT_LO, F.PS_CNT_HI, F.PS_IDX_LO, F.PS_IDX_HI,
      F.PS_IDX_TIME_LO, F.PS_IDX_TIME_HI, F.PS_EDGE_TIME_LO, F.PS_EDGE_TIME_HI, F.PS_PERIOD, F.PS_SEC_CNT, F.PS_SEC_SPEED,
      F.PS_CMP_STAT_armed, F.PS_CMP_STAT_fired, F.PS_CMP_STAT_count, F.PS_CMP_TIME_LO, F.PS_CMP_TIME_HI, F.EP_STAT_running,
      F.EP_STAT_src_lost, F.FLT_STAT_lost, F.FLT_LOST], [.ps, .flt]⟩
  | .illWindowExpiry _ _ =>
    ⟨false, [F.PS_ILL_CNT_window], [.ps]⟩
  | .broken _ _ _ =>
    ⟨false, [F.PS_STAT_broken_live, F.PS_STAT_broken, F.FLT_STAT_lost, F.FLT_LOST], [.ps, .flt]⟩
  | .periodTimeout _ _ _ =>
    ⟨false, [F.PS_PERIOD, F.PS_SEC_SPEED], []⟩
  | .ssiStart _ _ =>
    ⟨false, [F.PS_STAT_overrun], [.tb, .ps]⟩
  | .ssiFrameDone _ _ _ =>
    ⟨false, [F.PS_STAT_running, F.PS_STAT_locked, F.PS_STAT_fenced, F.PS_STAT_still, F.PS_STAT_illegal, F.PS_ILL_CNT_total,
      F.PS_ILL_CNT_window, F.PS_CNT_LO, F.PS_CNT_HI, F.PS_SSI_RAW_LO, F.PS_SSI_RAW_HI, F.PS_OBS_POS_LO, F.PS_OBS_POS_HI,
      F.PS_OBS_ANGLE, F.PS_OBS_EANGLE, F.PS_OBS_SPEED, F.PS_OBS_ACCEL, F.PS_CMP_STAT_armed, F.PS_CMP_STAT_fired,
      F.PS_CMP_STAT_count, F.PS_CMP_TIME_LO, F.PS_CMP_TIME_HI, F.EP_STAT_running, F.EP_STAT_src_lost, F.FLT_STAT_lost,
      F.FLT_LOST], [.ps, .flt]⟩
  | .resolverEnvelope _ _ _ _ _ _ =>
    ⟨false, [F.PS_STAT_running, F.PS_STAT_locked, F.PS_STAT_fenced, F.PS_STAT_still, F.PS_STAT_broken_live, F.PS_STAT_illegal,
      F.PS_STAT_broken, F.PS_ILL_CNT_total, F.PS_ILL_CNT_window, F.PS_CNT_LO, F.PS_CNT_HI, F.PS_RES_ENV_sine,
      F.PS_RES_ENV_cosine, F.PS_RES_MEAS_amplitude, F.PS_RES_MEAS_exc_phase, F.PS_OBS_POS_LO, F.PS_OBS_POS_HI, F.PS_OBS_ANGLE,
      F.PS_OBS_EANGLE, F.PS_OBS_SPEED, F.PS_OBS_ACCEL, F.PS_CMP_STAT_armed, F.PS_CMP_STAT_fired, F.PS_CMP_STAT_count,
      F.PS_CMP_TIME_LO, F.PS_CMP_TIME_HI, F.EP_STAT_running, F.EP_STAT_src_lost, F.FLT_STAT_lost, F.FLT_LOST], [.fresh, .ps,
      .flt]⟩
  | .preset _ _ =>
    ⟨false, [F.PS_CTRL_cmd, F.PS_CTRL_status, F.PS_STAT_still, F.PS_CNT_LO, F.PS_CNT_HI, F.PS_OBS_POS_LO, F.PS_OBS_POS_HI,
      F.PS_OBS_ANGLE, F.PS_OBS_EANGLE, F.PS_OBS_SPEED, F.PS_OBS_ACCEL], [.ps]⟩
  | .observerUpdate _ _ =>
    ⟨false, [F.PS_STAT_locked, F.PS_STAT_still, F.PS_OBS_POS_LO, F.PS_OBS_POS_HI, F.PS_OBS_ANGLE, F.PS_OBS_EANGLE,
      F.PS_OBS_SPEED, F.PS_OBS_ACCEL, F.PS_OBS_ERR], [.ps]⟩
  | .observerLatch _ _ =>
    ⟨false, [F.PS_LAT_ANGLE, F.PS_LAT_EANGLE, F.PS_LAT_SPEED, F.PS_LAT_INFO, F.PS_LAT_STAMP_LO, F.PS_LAT_STAMP_HI], [.tb, .ps,
      .be]⟩
  | .compareArm _ _ _ _ =>
    ⟨false, [F.FAB_WRITE_ERR, F.FAB_WRITE_ERR_more, F.FAB_WRITE_DATA, F.FAB_WRITE_CNT, F.PS_CMP_HI, F.PS_CMP_STAT_armed,
      F.PS_CMP_STAT_behind, F.PS_CMP_STAT_status], [.ps]⟩
  | .repeaterEdge _ _ =>
    ⟨false, [F.EP_STAT_lag, F.EP_STAT_limited, F.EP_STAT_lag_cnt, F.EP_CNT_LO, F.EP_CNT_HI, F.EP_LAG, F.FLT_STAT_lost,
      F.FLT_LOST], [.ps, .flt]⟩
  | .recordArrival _ _ =>
    ⟨false, [F.BE_ENG_STAT_state, F.BE_ENG_STAT_loop, F.BE_ENG_STAT_loops, F.BE_LP_SWAP_active, F.BE_LP_SWAP_pending,
      F.BE_LP_SWAP_status, F.BE_LP_STAT_state, F.BE_LP_FLAGS_sat, F.BE_LP_FLAGS_swap_clamp, F.BE_POOL_STAT_fenced,
      F.BE_POOL_STAT_free, F.FLT_STAT_lost, F.FLT_LOST], [.be, .flt]⟩
  | .startLimitExpiry _ _ =>
    ⟨false, [F.BE_ENG_STAT_state, F.BE_ENG_STAT_loop, F.BE_ENG_STAT_loops, F.BE_LP_SWAP_active, F.BE_LP_SWAP_pending,
      F.BE_LP_SWAP_status, F.BE_LP_STAT_state, F.BE_LP_FLAGS_sat, F.BE_LP_FLAGS_swap_clamp, F.BE_LP_FLAGS_input_late,
      F.BE_LP_MISS_input_late, F.BE_POOL_STAT_fenced, F.BE_POOL_STAT_free, F.FLT_STAT_lost, F.FLT_LOST], [.be, .flt]⟩
  | .load _ _ _ _ =>
    ⟨false, [F.BE_ENG_STAT_state, F.BE_ENG_STAT_loop, F.BE_ENG_STAT_loops, F.BE_ENG_STAT_fenced_writes, F.BE_ENG_RUNS,
      F.BE_LP_SWAP_active, F.BE_LP_SWAP_pending, F.BE_LP_SWAP_status, F.BE_LP_STAT_state, F.BE_LP_STAT_consec,
      F.BE_LP_STAT_update, F.BE_LP_FLAGS_sat, F.BE_LP_FLAGS_swap_clamp, F.BE_LP_SLACK_last, F.BE_LP_SLACK_win_min,
      F.BE_LP_SLACK_MIN_min, F.BE_LP_SLACK_MIN_restart, F.BE_LP_DUR_last, F.BE_LP_DUR_max, F.BE_LP_DONE_LO, F.BE_LP_DONE_HI,
      F.BE_POOL_STAT_fenced, F.BE_POOL_STAT_free, F.MB_BANK_STAT_ue, F.MB_BANK_STAT_ce_cnt, F.MB_BANK_STAT_ue_cnt,
      F.MB_UE_ADDR, F.MB_CONF_waits, F.MB_CONF_max_wait, F.FLT_STAT_lost, F.FLT_LOST], [.be, .ch, .mb, .flt]⟩
  | .store _ _ _ =>
    ⟨false, [F.BE_ENG_STAT_state, F.BE_ENG_STAT_loop, F.BE_ENG_STAT_loops, F.BE_ENG_STAT_fenced_writes, F.BE_ENG_RUNS,
      F.BE_LP_SWAP_active, F.BE_LP_SWAP_pending, F.BE_LP_SWAP_status, F.BE_LP_STAT_state, F.BE_LP_STAT_consec,
      F.BE_LP_STAT_update, F.BE_LP_FLAGS_sat, F.BE_LP_FLAGS_swap_clamp, F.BE_LP_SLACK_last, F.BE_LP_SLACK_win_min,
      F.BE_LP_SLACK_MIN_min, F.BE_LP_SLACK_MIN_restart, F.BE_LP_DUR_last, F.BE_LP_DUR_max, F.BE_LP_DONE_LO, F.BE_LP_DONE_HI,
      F.BE_POOL_STAT_fenced, F.BE_POOL_STAT_free, F.MB_BANK_STAT_ue, F.MB_BANK_STAT_nonowner_wr, F.MB_BANK_STAT_ce_cnt,
      F.MB_BANK_STAT_ue_cnt, F.MB_BANK_STAT_nonowner_cnt, F.MB_UE_ADDR, F.MB_CONF_waits, F.MB_CONF_max_wait, F.FLT_STAT_lost,
      F.FLT_LOST], [.tb, .be, .ch, .mb, .flt]⟩
  | .emit _ _ | .sect _ _ | .casc _ _ | .clarke _ _ | .park _ _ | .ipark _ _ | .svm _ _ | .dial _ _ | .poise _ _ | .lim _ _ |
    .sel _ _ | .cmp _ _ | .fusee _ _ | .letdn _ _ | .slack _ _ =>
    ⟨false, [F.BE_ENG_STAT_state, F.BE_ENG_STAT_loop, F.BE_ENG_STAT_loops, F.BE_ENG_STAT_fenced_writes, F.BE_ENG_RUNS,
      F.BE_LP_SWAP_active, F.BE_LP_SWAP_pending, F.BE_LP_SWAP_status, F.BE_LP_STAT_state, F.BE_LP_STAT_consec,
      F.BE_LP_STAT_update, F.BE_LP_FLAGS_sat, F.BE_LP_FLAGS_swap_clamp, F.BE_LP_SLACK_last, F.BE_LP_SLACK_win_min,
      F.BE_LP_SLACK_MIN_min, F.BE_LP_SLACK_MIN_restart, F.BE_LP_DUR_last, F.BE_LP_DUR_max, F.BE_LP_DONE_LO, F.BE_LP_DONE_HI,
      F.BE_POOL_STAT_fenced, F.BE_POOL_STAT_free, F.FLT_STAT_lost, F.FLT_LOST], [.be, .ch, .flt]⟩
  | .recon _ _ =>
    ⟨false, [F.BE_ENG_STAT_state, F.BE_ENG_STAT_loop, F.BE_ENG_STAT_loops, F.BE_ENG_STAT_fenced_writes, F.BE_ENG_RUNS,
      F.BE_LP_SWAP_active, F.BE_LP_SWAP_pending, F.BE_LP_SWAP_status, F.BE_LP_STAT_state, F.BE_LP_STAT_consec,
      F.BE_LP_STAT_update, F.BE_LP_FLAGS_sat, F.BE_LP_FLAGS_window_short, F.BE_LP_FLAGS_swap_clamp, F.BE_LP_SLACK_last,
      F.BE_LP_SLACK_win_min, F.BE_LP_SLACK_MIN_min, F.BE_LP_SLACK_MIN_restart, F.BE_LP_DUR_last, F.BE_LP_DUR_max,
      F.BE_LP_DONE_LO, F.BE_LP_DONE_HI, F.BE_POOL_STAT_fenced, F.BE_POOL_STAT_free, F.FLT_STAT_lost, F.FLT_LOST], [.fresh, .be,
      .ch, .flt]⟩
  | .plaus _ _ =>
    ⟨false, [F.BE_ENG_STAT_state, F.BE_ENG_STAT_loop, F.BE_ENG_STAT_loops, F.BE_ENG_STAT_fenced_writes, F.BE_ENG_RUNS,
      F.BE_LP_SWAP_active, F.BE_LP_SWAP_pending, F.BE_LP_SWAP_status, F.BE_LP_STAT_state, F.BE_LP_STAT_consec,
      F.BE_LP_STAT_update, F.BE_LP_FLAGS_sat, F.BE_LP_FLAGS_plaus, F.BE_LP_FLAGS_swap_clamp, F.BE_LP_SLACK_last,
      F.BE_LP_SLACK_win_min, F.BE_LP_SLACK_MIN_min, F.BE_LP_SLACK_MIN_restart, F.BE_LP_DUR_last, F.BE_LP_DUR_max,
      F.BE_LP_DONE_LO, F.BE_LP_DONE_HI, F.BE_POOL_STAT_fenced, F.BE_POOL_STAT_free, F.FLT_STAT_lost, F.FLT_LOST], [.be, .ch,
      .flt]⟩
  | .engineStall _ _ | .residueFail _ _ =>
    ⟨false, [F.BE_ENG_STAT_state, F.BE_ENG_STAT_spare, F.BE_ENG_STAT_loop, F.BE_ENG_STAT_loops, F.BE_ENG_DEAD,
      F.BE_ENG_DEAD_cause, F.BE_ENG_DEAD_loop, F.BE_ENG_DEAD_op, F.BE_ENG_DEAD_TIME_LO, F.BE_ENG_DEAD_TIME_HI,
      F.BE_LP_STAT_state, F.BE_POOL_STAT_fenced, F.BE_POOL_STAT_free, F.FLT_STAT_lost, F.FLT_LOST], [.be, .flt]⟩
  | .declareDead _ _ =>
    ⟨false, [F.FAB_WRITE_ERR, F.FAB_WRITE_ERR_more, F.FAB_WRITE_DATA, F.FAB_WRITE_CNT, F.BE_ENG_STAT_state,
      F.BE_ENG_STAT_spare, F.BE_ENG_STAT_loop, F.BE_ENG_STAT_loops, F.BE_ENG_DEAD, F.BE_ENG_DEAD_cause, F.BE_ENG_DEAD_loop,
      F.BE_ENG_DEAD_op, F.BE_ENG_DEAD_TIME_LO, F.BE_ENG_DEAD_TIME_HI, F.BE_LP_STAT_state, F.BE_POOL_CTRL_cmd,
      F.BE_POOL_CTRL_engine, F.BE_POOL_CTRL_status, F.BE_POOL_STAT_fenced, F.BE_POOL_STAT_free, F.FLT_STAT_lost, F.FLT_LOST],
      [.be, .flt]⟩
  | .takeover _ _ =>
    ⟨false, [F.BE_ENG_STAT_state, F.BE_ENG_STAT_spare, F.BE_ENG_STAT_loop, F.BE_ENG_STAT_loops, F.BE_ENG_LOOPS_LO,
      F.BE_ENG_LOOPS_HI, F.BE_LP_STAT_state, F.BE_LP_STAT_engine, F.BE_POOL_STAT_fenced, F.BE_POOL_STAT_free,
      F.BE_POOL_STAT_takeovers], [.be]⟩
  | .engineAdmit _ _ _ =>
    ⟨false, [F.BE_ENG_STAT_state, F.BE_ENG_STAT_loop, F.BE_ENG_STAT_loops, F.BE_LP_STAT_state, F.BE_POOL_STAT_fenced,
      F.BE_POOL_STAT_free, F.BE_POOL_ADMIT_engine, F.BE_POOL_ADMIT_busy, F.BE_POOL_ADMIT_status, F.SC_TM_STAT_last_status,
      F.SC_TM_CNT_refusals, F.SC_CH_STAT_last_status, F.SC_LV_STAT_last_status, F.SC_DR_STAT_last_status,
      F.HI_QP_CTRL_draining, F.HI_QP_FLAGS_in_flight, F.CN_STAT_slots, F.FLT_STAT_lost, F.FLT_LOST], [.be, .hi, .cn, .flt]⟩
  | .engineSelfTestDone _ _ _ =>
    ⟨false, [F.BE_ENG_STAT_state, F.BE_ENG_STAT_spare, F.BE_ENG_STAT_loop, F.BE_ENG_STAT_loops, F.BE_ENG_LOOPS_LO,
      F.BE_ENG_LOOPS_HI, F.BE_ENG_DEAD_cause, F.BE_ENG_DEAD_TIME_LO, F.BE_ENG_DEAD_TIME_HI, F.BE_LP_STAT_state,
      F.BE_LP_STAT_engine, F.BE_POOL_STAT_fenced, F.BE_POOL_STAT_free, F.BE_POOL_STAT_takeovers, F.BE_POOL_ADMIT_busy,
      F.BE_POOL_ADMIT_status, F.SC_TM_STAT_last_status, F.SC_TM_CNT_refusals, F.SC_CH_STAT_last_status,
      F.SC_LV_STAT_last_status, F.SC_DR_STAT_last_status, F.HI_QP_CTRL_draining, F.HI_QP_FLAGS_in_flight, F.CN_STAT_slots,
      F.FLT_STAT_lost, F.FLT_LOST], [.be, .hi, .cn, .flt]⟩
  | .coeffSwapRequest _ _ _ =>
    ⟨false, [F.BE_LP_SWAP_bank, F.BE_LP_SWAP_pending, F.BE_LP_SWAP_status], [.be]⟩
  | .slackMinRestart _ _ _ =>
    ⟨false, [F.FAB_WRITE_ERR, F.FAB_WRITE_ERR_more, F.FAB_WRITE_DATA, F.FAB_WRITE_CNT, F.BE_LP_SLACK_MIN_min,
      F.BE_LP_SLACK_MIN_restart], []⟩
  | .tmStart _ _ _ =>
    ⟨false, [F.TB_STG_RUN_run, F.TB_STG_STAT_running, F.PG_STAT_out_high, F.PG_STAT_out_low, F.SC_TM_STAT_state,
      F.SC_TM_STAT_active, F.SC_TM_STAT_lost, F.SC_TM_STAT_last_status, F.SC_TM_STAT_token, F.SC_TM_CNT_refusals,
      F.SC_CH_STAT_last_status, F.SC_LV_STAT_last_status, F.SC_DR_STAT_last_status, F.SC_ABS_LEFT_left, F.SC_ABS_LEFT_awaiting,
      F.HI_QP_CTRL_draining, F.HI_QP_FLAGS_in_flight, F.CN_STAT_slots, F.FLT_STAT_lost, F.FLT_LOST], [.tb, .pp, .be, .tm, .sc,
      .hi, .cn, .flt]⟩
  | .tmTarget _ _ _ =>
    ⟨false, [F.TB_STG_RUN_run, F.TB_STG_STAT_running, F.PG_STAT_out_high, F.PG_STAT_out_low, F.SC_TM_STAT_state,
      F.SC_TM_STAT_active, F.SC_TM_STAT_last_status, F.SC_TM_STAT_token, F.SC_TM_CNT_refusals, F.SC_CH_STAT_last_status,
      F.SC_LV_STAT_last_status, F.SC_DR_STAT_last_status, F.SC_ABS_LEFT_left, F.SC_ABS_LEFT_awaiting, F.HI_QP_CTRL_draining,
      F.HI_QP_FLAGS_in_flight, F.CN_STAT_slots, F.FLT_STAT_lost, F.FLT_LOST], [.tb, .pp, .be, .tm, .sc, .hi, .cn, .flt]⟩
  | .tmStop _ _ _ =>
    ⟨false, [F.TB_STG_RUN_run, F.TB_STG_STAT_running, F.PG_STAT_out_high, F.PG_STAT_out_low, F.SC_TM_STAT_state,
      F.SC_TM_STAT_active, F.SC_TM_STAT_last_status, F.SC_TM_CNT_refusals, F.SC_CH_STAT_last_status, F.SC_LV_STAT_last_status,
      F.SC_DR_STAT_last_status, F.SC_ABS_LEFT_left, F.SC_ABS_LEFT_awaiting, F.HI_QP_CTRL_draining, F.HI_QP_FLAGS_in_flight,
      F.CN_STAT_slots, F.FLT_STAT_lost, F.FLT_LOST], [.tb, .pp, .be, .tm, .sc, .hi, .cn, .flt]⟩
  | .tmCatchDecision _ _ _ =>
    ⟨false, [F.PP_STAT_uvlo_hi_live, F.PP_STAT_uvlo_lo_live, F.PP_STAT_uvlo, F.PP_CNT_uvlo, F.PP_SUPPLY_hi_supply,
      F.PP_SUPPLY_lo_supply, F.SC_TM_STAT_state, F.SC_TM_STAT_active, F.SC_TM_STAT_last_status, F.SC_TM_STAT_token,
      F.SC_TM_SPEED, F.SC_TM_CNT_refusals, F.SC_CH_STAT_last_status, F.SC_LV_STAT_last_status, F.SC_DR_STAT_last_status,
      F.HI_QP_CTRL_draining, F.HI_QP_FLAGS_in_flight, F.CN_STAT_slots, F.FLT_STAT_lost, F.FLT_LOST], [.pp, .be, .tm, .hi, .cn,
      .flt]⟩
  | .catchTimeExpiry _ _ =>
    ⟨false, [F.SC_TM_STAT_state, F.SC_TM_STAT_active, F.SC_TM_STAT_last_status, F.SC_TM_STAT_token, F.SC_TM_CNT_refusals,
      F.SC_CH_STAT_last_status, F.SC_LV_STAT_last_status, F.SC_DR_STAT_last_status, F.HI_QP_CTRL_draining,
      F.HI_QP_FLAGS_in_flight, F.CN_STAT_slots, F.FLT_STAT_lost, F.FLT_LOST], [.be, .tm, .hi, .cn, .flt]⟩
  | .prechargeExpiry _ _ =>
    ⟨false, [F.SC_TM_STAT_state, F.SC_TM_STAT_token], [.be, .tm, .hi]⟩
  | .sequencerStageStart _ _ =>
    ⟨false, [F.TB_STG_RUN_run, F.PG_STAT_out_high, F.PG_STAT_out_low, F.PG_STAT_trip_hold, F.SH_CAL_CTRL_busy,
      F.SH_CAL_CTRL_status, F.CV_STAT_urgent, F.SC_TM_STAT_last_status, F.SC_TM_CNT_refusals, F.SC_CH_STAT_state,
      F.SC_CH_STAT_active, F.SC_CH_STAT_last_status, F.SC_LV_STAT_state, F.SC_LV_STAT_active, F.SC_LV_STAT_last_status,
      F.SC_DR_STAT_state, F.SC_DR_STAT_last_status, F.SC_DR_STAT_token, F.SC_ABS_LEFT_expired, F.SC_ABS_LEFT_awaiting,
      F.HI_QP_CTRL_draining, F.HI_QP_FLAGS_in_flight, F.CN_STAT_slots, F.FLT_STAT_lost, F.FLT_LOST], [.tb, .pp, .sh, .cv, .be,
      .ch, .dr, .sc, .hi, .cn, .flt]⟩
  | .catchHoldDone _ _ =>
    ⟨false, [F.SC_TM_STAT_state, F.SC_TM_STAT_last_status, F.SC_TM_CNT_catches, F.SC_TM_CNT_refusals, F.SC_CH_STAT_last_status,
      F.SC_LV_STAT_last_status, F.SC_DR_STAT_last_status, F.HI_QP_CTRL_draining, F.HI_QP_FLAGS_in_flight, F.CN_STAT_slots,
      F.FLT_STAT_lost, F.FLT_LOST], [.be, .tm, .hi, .cn, .flt]⟩
  | .reengage _ _ =>
    ⟨false, [F.SC_TM_STAT_state], [.tm, .hi]⟩
  | .speedRefresh _ _ =>
    ⟨false, [F.SC_TM_STAT_ucg, F.SC_TM_SPEED, F.SC_TM_CNT_ucg, F.FLT_STAT_lost, F.FLT_LOST], [.tm, .flt]⟩
  | .tmSetLoss _ _ =>
    ⟨false, [F.TB_STG_RUN_run, F.TB_STG_STAT_running, F.TB_STG_STAT_tripped, F.PG_STAT_out_high, F.PG_STAT_out_low,
      F.PG_STAT_trip_hold, F.WM_SW_HELD, F.WM_SW_CTRL_cmd, F.WM_SW_CTRL_status, F.WM_SW_STAT_held, F.WM_SW_STAT_action,
      F.WM_SW_STAT_cause_kind, F.WM_SW_STAT_cause_index, F.WM_SW_STAT_count, F.WM_SW_TIME_LO, F.WM_SW_TIME_HI,
      F.SC_TM_STAT_state, F.SC_TM_STAT_active, F.SC_TM_STAT_lost, F.SC_TM_STAT_last_status, F.SC_TM_CNT_refusals,
      F.SC_TM_CNT_losses, F.SC_CH_STAT_last_status, F.SC_LV_STAT_last_status, F.SC_DR_STAT_last_status, F.SC_ABS_LEFT_left,
      F.SC_ABS_LEFT_awaiting, F.HI_QP_CTRL_draining, F.HI_QP_FLAGS_in_flight, F.CN_STAT_slots, F.FLT_STAT_lost, F.FLT_LOST],
      [.tb, .pp, .cv, .be, .tm, .sc, .hi, .cn, .flt]⟩
  | .chStart _ _ _ =>
    ⟨false, [F.SC_TM_STAT_last_status, F.SC_TM_CNT_refusals, F.SC_CH_STAT_state, F.SC_CH_STAT_active, F.SC_CH_STAT_last_status,
      F.SC_LV_STAT_last_status, F.SC_DR_STAT_last_status, F.HI_QP_CTRL_draining, F.HI_QP_FLAGS_in_flight, F.CN_STAT_slots,
      F.FLT_STAT_lost, F.FLT_LOST], [.be, .ch, .hi, .cn, .flt]⟩
  | .chTarget _ _ _ =>
    ⟨false, [F.SC_TM_STAT_last_status, F.SC_TM_CNT_refusals, F.SC_CH_STAT_active, F.SC_CH_STAT_last_status,
      F.SC_LV_STAT_last_status, F.SC_DR_STAT_last_status, F.HI_QP_CTRL_draining, F.HI_QP_FLAGS_in_flight, F.CN_STAT_slots,
      F.FLT_STAT_lost, F.FLT_LOST], [.be, .ch, .hi, .cn, .flt]⟩
  | .chStop _ _ _ | .chWaitTimeout _ | .stopTimeExpiry _ | .gridLossTimeout _ | .chEventReaction _ =>
    ⟨false, [F.TB_STG_RUN_run, F.TB_STG_STAT_running, F.PG_STAT_out_high, F.PG_STAT_out_low, F.SC_TM_STAT_last_status,
      F.SC_TM_CNT_refusals, F.SC_CH_STAT_state, F.SC_CH_STAT_active, F.SC_CH_STAT_last_status, F.SC_LV_STAT_last_status,
      F.SC_DR_STAT_last_status, F.SC_ABS_LEFT_left, F.SC_ABS_LEFT_awaiting, F.HI_QP_CTRL_draining, F.HI_QP_FLAGS_in_flight,
      F.CN_STAT_slots, F.FLT_STAT_lost, F.FLT_LOST], [.tb, .pp, .be, .ch, .sc, .hi, .cn, .flt]⟩
  | .pilotWindow _ | .pilotTimeout _ | .pilotRefresh _ =>
    ⟨false, [F.SC_CH_STAT_cp, F.SC_CH_STAT_active, F.SC_CH_STAT_i_allow, F.SC_CH_PILOT_duty, F.SC_CH_PILOT_osc,
      F.SC_CH_PILOT_high, F.SC_CH_PILOT_low], [.fresh, .be, .ch]⟩
  | .chWaitDone _ =>
    ⟨false, [F.SC_CH_STAT_state, F.SC_CH_STAT_active], [.be, .ch, .hi]⟩
  | .lvStart _ _ _ | .lvTarget _ _ _ =>
    ⟨false, [F.SC_TM_STAT_last_status, F.SC_TM_CNT_refusals, F.SC_CH_STAT_last_status, F.SC_LV_STAT_active,
      F.SC_LV_STAT_last_status, F.SC_DR_STAT_last_status, F.HI_QP_CTRL_draining, F.HI_QP_FLAGS_in_flight, F.CN_STAT_slots,
      F.FLT_STAT_lost, F.FLT_LOST], [.be, .ch, .hi, .cn, .flt]⟩
  | .lvStop _ _ _ | .lvStartTimeout _ | .lvStageLoss _ =>
    ⟨false, [F.TB_STG_RUN_run, F.TB_STG_STAT_running, F.PG_STAT_out_high, F.PG_STAT_out_low, F.SC_TM_STAT_last_status,
      F.SC_TM_CNT_refusals, F.SC_CH_STAT_last_status, F.SC_LV_STAT_state, F.SC_LV_STAT_active, F.SC_LV_STAT_last_status,
      F.SC_DR_STAT_last_status, F.SC_ABS_LEFT_left, F.SC_ABS_LEFT_awaiting, F.HI_QP_CTRL_draining, F.HI_QP_FLAGS_in_flight,
      F.CN_STAT_slots, F.FLT_STAT_lost, F.FLT_LOST], [.tb, .pp, .be, .ch, .sc, .hi, .cn, .flt]⟩
  | .lvSync _ =>
    ⟨false, [F.SC_LV_STAT_active], [.be, .ch]⟩
  | .drStart _ _ _ | .drTarget _ _ _ =>
    ⟨false, [F.TB_STG_RUN_run, F.TB_STG_STAT_running, F.PG_STAT_out_high, F.PG_STAT_out_low, F.SC_TM_STAT_last_status,
      F.SC_TM_CNT_refusals, F.SC_CH_STAT_last_status, F.SC_LV_STAT_last_status, F.SC_DR_STAT_state, F.SC_DR_STAT_last_status,
      F.SC_DR_STAT_token, F.SC_ABS_LEFT_left, F.SC_ABS_LEFT_awaiting, F.HI_QP_CTRL_draining, F.HI_QP_FLAGS_in_flight,
      F.CN_STAT_slots, F.FLT_STAT_lost, F.FLT_LOST], [.tb, .pp, .be, .dr, .sc, .hi, .cn, .flt]⟩
  | .drStop _ _ _ | .drMoveTimeout _ _ | .drLoss _ _ =>
    ⟨false, [F.TB_STG_RUN_run, F.TB_STG_STAT_running, F.PG_STAT_out_high, F.PG_STAT_out_low, F.SC_TM_STAT_last_status,
      F.SC_TM_CNT_refusals, F.SC_CH_STAT_last_status, F.SC_LV_STAT_last_status, F.SC_DR_STAT_state, F.SC_DR_STAT_last_status,
      F.SC_ABS_LEFT_left, F.SC_ABS_LEFT_awaiting, F.HI_QP_CTRL_draining, F.HI_QP_FLAGS_in_flight, F.CN_STAT_slots,
      F.FLT_STAT_lost, F.FLT_LOST], [.tb, .pp, .be, .dr, .sc, .hi, .cn, .flt]⟩
  | .drLockTimeout _ _ | .drReengage _ _ | .drMirrorUpdate _ _ =>
    ⟨false, [F.SC_TM_STAT_last_status, F.SC_TM_CNT_refusals, F.SC_CH_STAT_last_status, F.SC_LV_STAT_last_status,
      F.SC_DR_STAT_state, F.SC_DR_STAT_last_status, F.SC_DR_STAT_token, F.HI_QP_CTRL_draining, F.HI_QP_FLAGS_in_flight,
      F.CN_STAT_slots, F.FLT_STAT_lost, F.FLT_LOST], [.be, .dr, .hi, .cn, .flt]⟩
  | .drTargetReached _ _ =>
    ⟨false, [F.SC_TM_STAT_last_status, F.SC_TM_CNT_refusals, F.SC_CH_STAT_last_status, F.SC_LV_STAT_last_status,
      F.SC_DR_STAT_state, F.SC_DR_STAT_last_status, F.HI_QP_CTRL_draining, F.HI_QP_FLAGS_in_flight, F.CN_STAT_slots,
      F.FLT_STAT_lost, F.FLT_LOST], [.be, .dr, .hi, .cn, .flt]⟩
  | .lagTimeout _ =>
    ⟨false, [F.DEV_STATE_state, F.TB_STG_RUN_run, F.TB_STG_STAT_running, F.TB_STG_STAT_tripped, F.PG_STAT_out_high,
      F.PG_STAT_out_low, F.PG_STAT_trip_hold, F.WM_SW_HELD, F.WM_SW_STAT_held, F.WM_SW_STAT_action, F.WM_SW_STAT_cause_kind,
      F.WM_SW_STAT_cause_index, F.WM_SW_STAT_count, F.WM_SW_TIME_LO, F.WM_SW_TIME_HI, F.SC_STAT_mode, F.SC_CNT_rollbacks,
      F.SC_LAST, F.SC_LAST_outcome, F.SC_LAST_TIME_LO, F.SC_LAST_TIME_HI, F.SC_ABS_LEFT_left, F.SC_ABS_LEFT_awaiting,
      F.FLT_STAT_lost, F.FLT_STAT_safe, F.FLT_LOST, F.FLT_SAFE_safe, F.FLT_SAFE_kind, F.FLT_SAFE_index, F.FLT_SAFE_status,
      F.FLT_SAFE_TIME_LO, F.FLT_SAFE_TIME_HI], [.tb, .pp, .cv, .sc, .flt]⟩
  | .scSelfTestDone _ _ _ =>
    ⟨false, [F.DEV_STATE_state, F.TB_STG_RUN_run, F.TB_STG_STAT_running, F.TB_STG_STAT_tripped, F.PG_STAT_out_high,
      F.PG_STAT_out_low, F.PG_STAT_trip_hold, F.WM_SW_HELD, F.WM_SW_STAT_held, F.WM_SW_STAT_action, F.WM_SW_STAT_cause_kind,
      F.WM_SW_STAT_cause_index, F.WM_SW_STAT_count, F.WM_SW_TIME_LO, F.WM_SW_TIME_HI, F.SC_STAT_mode, F.SC_STAT_grace,
      F.SC_STAT_fenced_a, F.SC_STAT_fenced_b, F.SC_STAT_fenced_chk, F.SC_STAT_grace_left, F.SC_CNT_transients,
      F.SC_CNT_period_trans, F.SC_LAST_outcome, F.SC_LAST_bist_a_fail, F.SC_LAST_bist_b_fail, F.SC_ABS_LEFT_left,
      F.SC_ABS_LEFT_awaiting, F.FLT_STAT_lost, F.FLT_STAT_safe, F.FLT_LOST, F.FLT_SAFE_safe, F.FLT_SAFE_kind, F.FLT_SAFE_index,
      F.FLT_SAFE_status, F.FLT_SAFE_TIME_LO, F.FLT_SAFE_TIME_HI], [.tb, .pp, .cv, .sc, .flt]⟩
  | .transientPeriodExpiry _ =>
    ⟨false, [F.SC_CNT_period_trans], [.sc]⟩
  | .graceExpiry _ =>
    ⟨false, [F.DEV_STATE_state, F.TB_STG_RUN_run, F.TB_STG_STAT_running, F.TB_STG_STAT_tripped, F.PG_STAT_out_high,
      F.PG_STAT_out_low, F.PG_STAT_trip_hold, F.WM_SW_HELD, F.WM_SW_STAT_held, F.WM_SW_STAT_action, F.WM_SW_STAT_cause_kind,
      F.WM_SW_STAT_cause_index, F.WM_SW_STAT_count, F.WM_SW_TIME_LO, F.WM_SW_TIME_HI, F.SC_STAT_grace, F.SC_STAT_grace_left,
      F.SC_LAST_outcome, F.SC_ABS_LEFT_left, F.SC_ABS_LEFT_awaiting, F.FLT_STAT_lost, F.FLT_STAT_safe, F.FLT_LOST,
      F.FLT_SAFE_safe, F.FLT_SAFE_kind, F.FLT_SAFE_index, F.FLT_SAFE_status, F.FLT_SAFE_TIME_LO, F.FLT_SAFE_TIME_HI], [.tb,
      .pp, .cv, .sc, .flt]⟩
  | .injectionTestDone _ _ =>
    ⟨false, [F.SC_STAT_mode, F.SC_BOOT_TEST_step, F.SC_BOOT_TEST_done, F.SC_BOOT_TEST_pass, F.FLT_STAT_lost, F.FLT_LOST], [.sc,
      .flt]⟩
  | .fwReady _ =>
    ⟨false, [F.SC_STAT_fw_ready, F.SC_FW_ready], [.sc]⟩
  | .wdogService _ _ =>
    ⟨false, [F.SC_WDOG_value], [.sc]⟩
  | .wdogExpiry _ =>
    ⟨false, [F.DEV_STATE_state, F.TB_STG_RUN_run, F.TB_STG_STAT_running, F.TB_STG_STAT_tripped, F.PG_STAT_out_high,
      F.PG_STAT_out_low, F.PG_STAT_trip_hold, F.WM_SW_HELD, F.WM_SW_STAT_held, F.WM_SW_STAT_action, F.WM_SW_STAT_cause_kind,
      F.WM_SW_STAT_cause_index, F.WM_SW_STAT_count, F.WM_SW_TIME_LO, F.WM_SW_TIME_HI, F.SC_LAST, F.SC_LAST_outcome,
      F.SC_LAST_TIME_LO, F.SC_LAST_TIME_HI, F.SC_ABS_LEFT_left, F.SC_ABS_LEFT_awaiting, F.FLT_STAT_lost, F.FLT_STAT_safe,
      F.FLT_LOST, F.FLT_SAFE_safe, F.FLT_SAFE_kind, F.FLT_SAFE_index, F.FLT_SAFE_status, F.FLT_SAFE_TIME_LO,
      F.FLT_SAFE_TIME_HI], [.tb, .pp, .cv, .sc, .flt]⟩
  | .vqArrival _ _ _ =>
    ⟨false, [F.SC_VQ_STAT, F.SC_VQ_SRC_queue_pair, F.SC_VQ_ARRIVE_LO, F.SC_VQ_ARRIVE_HI, F.SC_VQ_DESC, F.HI_QP_CTRL_draining,
      F.HI_QP_FLAGS_in_flight], [.sc, .hi]⟩
  | .accept _ _ | .refuse _ _ _ =>
    ⟨false, [F.FAB_WRITE_ERR, F.FAB_WRITE_ERR_more, F.FAB_WRITE_DATA, F.FAB_WRITE_CNT, F.SC_TM_STAT_last_status,
      F.SC_TM_CNT_refusals, F.SC_CH_STAT_last_status, F.SC_LV_STAT_last_status, F.SC_DR_STAT_last_status, F.SC_VQ_STAT,
      F.SC_VQ_SRC_queue_pair, F.SC_VQ_ARRIVE_LO, F.SC_VQ_ARRIVE_HI, F.SC_VQ_DESC, F.SC_VQ_VERDICT, F.SC_VAL_CNT_accepted,
      F.SC_VAL_CNT_refused, F.SC_ABS_LEFT_expired, F.SC_ABS_LEFT_awaiting, F.HI_QP_CTRL_draining, F.HI_QP_FLAGS_in_flight,
      F.CN_STAT_slots, F.FLT_STAT_lost, F.FLT_LOST], [.sc, .hi, .cn, .flt]⟩
  | .validationExpiry _ _ =>
    ⟨false, [F.SC_TM_STAT_last_status, F.SC_TM_CNT_refusals, F.SC_CH_STAT_last_status, F.SC_LV_STAT_last_status,
      F.SC_DR_STAT_last_status, F.SC_VQ_STAT, F.SC_VQ_SRC_queue_pair, F.SC_VQ_ARRIVE_LO, F.SC_VQ_ARRIVE_HI, F.SC_VQ_DESC,
      F.SC_VAL_CNT_expired, F.HI_QP_CTRL_draining, F.HI_QP_FLAGS_in_flight, F.CN_STAT_slots, F.FLT_STAT_lost, F.FLT_LOST],
      [.sc, .hi, .cn, .flt]⟩
  | .kick _ _ | .continueStage _ _ | .stopStage _ _ =>
    ⟨false, [F.FAB_WRITE_ERR, F.FAB_WRITE_ERR_more, F.FAB_WRITE_DATA, F.FAB_WRITE_CNT, F.TB_STG_RUN_run, F.TB_STG_STAT_running,
      F.PG_STAT_out_high, F.PG_STAT_out_low, F.SC_TM_STAT_state, F.SC_TM_STAT_active, F.SC_TM_STAT_last_status,
      F.SC_TM_CNT_refusals, F.SC_CH_STAT_state, F.SC_CH_STAT_active, F.SC_CH_STAT_last_status, F.SC_LV_STAT_state,
      F.SC_LV_STAT_active, F.SC_LV_STAT_last_status, F.SC_DR_STAT_state, F.SC_DR_STAT_last_status, F.SC_ABS_CTRL_cmd,
      F.SC_ABS_CTRL_status, F.SC_ABS_LEFT_left, F.SC_ABS_LEFT_expired, F.SC_ABS_LEFT_awaiting, F.HI_QP_CTRL_draining,
      F.HI_QP_FLAGS_in_flight, F.CN_STAT_slots, F.FLT_STAT_lost, F.FLT_LOST], [.tb, .pp, .be, .tm, .ch, .dr, .sc, .hi, .cn,
      .flt]⟩
  | .absenceExpiry _ _ =>
    ⟨false, [F.TB_STG_RUN_run, F.TB_STG_STAT_running, F.TB_STG_STAT_tripped, F.PG_STAT_out_high, F.PG_STAT_out_low,
      F.PG_STAT_trip_hold, F.WM_SW_HELD, F.WM_SW_CTRL_cmd, F.WM_SW_CTRL_status, F.WM_SW_STAT_held, F.WM_SW_STAT_action,
      F.WM_SW_STAT_cause_kind, F.WM_SW_STAT_cause_index, F.WM_SW_STAT_count, F.WM_SW_TIME_LO, F.WM_SW_TIME_HI,
      F.SC_TM_STAT_state, F.SC_TM_STAT_active, F.SC_TM_STAT_last_status, F.SC_TM_CNT_refusals, F.SC_CH_STAT_state,
      F.SC_CH_STAT_active, F.SC_CH_STAT_last_status, F.SC_LV_STAT_state, F.SC_LV_STAT_active, F.SC_LV_STAT_last_status,
      F.SC_DR_STAT_state, F.SC_DR_STAT_last_status, F.SC_ABS_LEFT_left, F.SC_ABS_LEFT_expired, F.SC_ABS_LEFT_awaiting,
      F.HI_QP_CTRL_draining, F.HI_QP_FLAGS_in_flight, F.CN_STAT_slots, F.FLT_STAT_lost, F.FLT_LOST], [.tb, .pp, .cv, .be, .tm,
      .ch, .dr, .sc, .hi, .cn, .flt]⟩
  | .notifyTimeout _ _ =>
    ⟨false, [F.TB_STG_RUN_run, F.TB_STG_STAT_running, F.PG_STAT_out_high, F.PG_STAT_out_low, F.SC_TM_STAT_state,
      F.SC_TM_STAT_active, F.SC_TM_STAT_last_status, F.SC_TM_CNT_refusals, F.SC_CH_STAT_state, F.SC_CH_STAT_active,
      F.SC_CH_STAT_last_status, F.SC_LV_STAT_state, F.SC_LV_STAT_active, F.SC_LV_STAT_last_status, F.SC_DR_STAT_state,
      F.SC_DR_STAT_last_status, F.SC_ABS_LEFT_left, F.SC_ABS_LEFT_awaiting, F.HI_QP_CTRL_draining, F.HI_QP_FLAGS_in_flight,
      F.CN_STAT_slots, F.FLT_STAT_lost, F.FLT_LOST], [.tb, .pp, .be, .tm, .ch, .dr, .sc, .hi, .cn, .flt]⟩
  | .bankWrite _ _ _ _ _ _ =>
    ⟨false, [F.MB_BANK_STAT_ue, F.MB_BANK_STAT_nonowner_wr, F.MB_BANK_STAT_ce_cnt, F.MB_BANK_STAT_ue_cnt,
      F.MB_BANK_STAT_nonowner_cnt, F.MB_UE_ADDR, F.MB_CONF_waits, F.MB_CONF_max_wait, F.FLT_STAT_lost, F.FLT_LOST], [.mb,
      .flt]⟩
  | .scrubRead _ _ _ =>
    ⟨false, [F.MB_BANK_STAT_ue, F.MB_BANK_STAT_ce_cnt, F.MB_BANK_STAT_ue_cnt, F.MB_UE_ADDR, F.FLT_STAT_lost, F.FLT_LOST], [.mb,
      .flt]⟩
  | .bankHandover _ _ _ =>
    ⟨false, [F.FAB_WRITE_ERR, F.FAB_WRITE_ERR_more, F.FAB_WRITE_DATA, F.FAB_WRITE_CNT, F.MB_BANK_CTRL_owner,
      F.MB_BANK_CTRL_draining, F.MB_BANK_CTRL_status, F.MB_BANK_STAT_draining], [.mb]⟩
  | .drainComplete _ _ | .drainTimeout _ _ =>
    ⟨false, [F.MB_BANK_CTRL_draining, F.MB_BANK_CTRL_status, F.MB_BANK_STAT_owner, F.MB_BANK_STAT_draining, F.FLT_STAT_lost,
      F.FLT_LOST], [.mb, .flt]⟩
  | .confRestart _ =>
    ⟨false, [F.MB_CONF], []⟩
  | .perst _ _ | .hotReset _ _ | .functionLevelReset _ _ =>
    ⟨false, [F.SC_TM_STAT_last_status, F.SC_TM_CNT_refusals, F.SC_CH_STAT_last_status, F.SC_LV_STAT_last_status,
      F.SC_DR_STAT_last_status, F.HI_LINK, F.HI_LINK_resets, F.HI_ERR, F.HI_QP_CTRL_enable, F.HI_QP_CTRL_draining,
      F.HI_QP_STAT_sq_head, F.HI_QP_FLAGS_in_flight, F.CN_STAT_slots, F.FLT_STAT_lost, F.FLT_LOST], [.hi, .cn, .flt]⟩
  | .doorbell _ _ _ =>
    ⟨false, [F.HI_QP_FLAGS_bad_bell, F.HI_QP_FLAGS_bell_err_cnt], [.hi]⟩
  | .qpEnable _ _ _ =>
    ⟨false, [F.FAB_WRITE_ERR, F.FAB_WRITE_ERR_more, F.FAB_WRITE_DATA, F.FAB_WRITE_CNT, F.HI_QP_CTRL_enable,
      F.HI_QP_CTRL_status, F.HI_QP_STAT, F.HI_QP_FLAGS_phase, F.HI_QP_FLAGS_fenced, F.HI_QP_FLAGS_bad_bell,
      F.HI_QP_FLAGS_bell_err_cnt], [.hi, .flt]⟩
  | .qpDisable _ _ =>
    ⟨false, [F.SC_TM_STAT_last_status, F.SC_TM_CNT_refusals, F.SC_CH_STAT_last_status, F.SC_LV_STAT_last_status,
      F.SC_DR_STAT_last_status, F.HI_QP_CTRL_enable, F.HI_QP_CTRL_draining, F.HI_QP_STAT_sq_head, F.HI_QP_FLAGS_in_flight,
      F.CN_STAT_slots, F.FLT_STAT_lost, F.FLT_LOST], [.hi, .cn, .flt]⟩
  | .descriptorFetch _ =>
    ⟨false, [F.HI_QP_CTRL_draining, F.HI_QP_STAT_sq_head, F.HI_QP_FLAGS_in_flight], [.hi]⟩
  | .descriptorReceive _ _ _ _ | .nop _ _ _ | .fenceItem _ _ _ | .fenceComplete _ _ _ | .dataTransferDone _ _ _ | .snapshot _ _
    _ | .streamBuf _ _ _ | .bufferFlush _ _ | .canRxbuf _ _ _ =>
    ⟨false, [F.SC_TM_STAT_last_status, F.SC_TM_CNT_refusals, F.SC_CH_STAT_last_status, F.SC_LV_STAT_last_status,
      F.SC_DR_STAT_last_status, F.HI_QP_CTRL_draining, F.HI_QP_FLAGS_in_flight, F.CN_STAT_slots, F.FLT_STAT_lost, F.FLT_LOST],
      [.hi, .cn, .flt]⟩
  | .completionWrite _ _ =>
    ⟨false, [F.HI_QP_CTRL_draining, F.HI_QP_STAT_cq_tail, F.HI_QP_FLAGS_phase, F.HI_QP_FLAGS_in_flight], [.hi]⟩
  | .moderationTimeout _ _ =>
    ⟨false, [], [.hi]⟩
  | .descriptorDeadline _ _ _ _ =>
    ⟨false, [F.TB_STG_RUN_run, F.TB_STG_STAT_running, F.PG_STAT_out_high, F.PG_STAT_out_low, F.SC_TM_STAT_state,
      F.SC_TM_STAT_active, F.SC_TM_STAT_last_status, F.SC_TM_CNT_refusals, F.SC_CH_STAT_state, F.SC_CH_STAT_active,
      F.SC_CH_STAT_last_status, F.SC_LV_STAT_state, F.SC_LV_STAT_active, F.SC_LV_STAT_last_status, F.SC_DR_STAT_state,
      F.SC_DR_STAT_last_status, F.SC_VQ_STAT, F.SC_VQ_SRC_queue_pair, F.SC_VQ_ARRIVE_LO, F.SC_VQ_ARRIVE_HI, F.SC_VQ_DESC,
      F.SC_VAL_CNT_expired, F.SC_ABS_LEFT_left, F.SC_ABS_LEFT_awaiting, F.HI_QP_CTRL_draining, F.HI_QP_FLAGS_in_flight,
      F.CN_STAT_slots, F.FLT_STAT_lost, F.FLT_LOST], [.tb, .pp, .be, .tm, .ch, .dr, .sc, .hi, .cn, .flt]⟩
  | .hostError _ _ _ =>
    ⟨false, [F.SC_TM_STAT_last_status, F.SC_TM_CNT_refusals, F.SC_CH_STAT_last_status, F.SC_LV_STAT_last_status,
      F.SC_DR_STAT_last_status, F.HI_ERR_ur_ca, F.HI_ERR_poisoned, F.HI_ERR_timeout, F.HI_ERR_count, F.HI_QP_CTRL_enable,
      F.HI_QP_CTRL_status, F.HI_QP_CTRL_draining, F.HI_QP_STAT_sq_head, F.HI_QP_FLAGS_fenced, F.HI_QP_FLAGS_in_flight,
      F.CN_STAT_slots, F.FLT_STAT_lost, F.FLT_LOST], [.hi, .cn, .flt]⟩
  | .memWrite _ _ _ _ =>
    ⟨false, [F.SC_TM_STAT_last_status, F.SC_TM_CNT_refusals, F.SC_CH_STAT_last_status, F.SC_LV_STAT_last_status,
      F.SC_DR_STAT_last_status, F.MB_BANK_STAT_ue, F.MB_BANK_STAT_nonowner_wr, F.MB_BANK_STAT_ce_cnt, F.MB_BANK_STAT_ue_cnt,
      F.MB_BANK_STAT_nonowner_cnt, F.MB_UE_ADDR, F.MB_CONF_waits, F.MB_CONF_max_wait, F.HI_QP_CTRL_draining,
      F.HI_QP_FLAGS_in_flight, F.CN_STAT_slots, F.FLT_STAT_lost, F.FLT_LOST], [.mb, .hi, .cn, .flt]⟩
  | .memRead _ _ _ _ _ =>
    ⟨false, [F.SC_TM_STAT_last_status, F.SC_TM_CNT_refusals, F.SC_CH_STAT_last_status, F.SC_LV_STAT_last_status,
      F.SC_DR_STAT_last_status, F.MB_BANK_STAT_ue, F.MB_BANK_STAT_ce_cnt, F.MB_BANK_STAT_ue_cnt, F.MB_UE_ADDR, F.MB_CONF_waits,
      F.MB_CONF_max_wait, F.HI_QP_CTRL_draining, F.HI_QP_FLAGS_in_flight, F.CN_STAT_slots, F.FLT_STAT_lost, F.FLT_LOST], [.mb,
      .hi, .cn, .flt]⟩
  | .admitUnit _ _ _ _ _ _ | .admitDone _ _ _ _ =>
    ⟨false, [F.TB_GT_STAT_state, F.TB_GT_STAT_gt_valid, F.TB_STG_STAT_fenced, F.PP_STAT_uvlo_hi_live, F.PP_STAT_uvlo_lo_live,
      F.PP_STAT_fenced, F.PP_STAT_uvlo, F.PP_CNT_uvlo, F.PP_SUPPLY_hi_supply, F.PP_SUPPLY_lo_supply, F.CV_STAT_busy,
      F.CV_STAT_urgent, F.CV_STAT_entry, F.WM_LATCH_lo, F.WM_LATCH_hi, F.WM_PC_LATCH_lo, F.WM_PC_LATCH_hi, F.WM_STAT_live_lo,
      F.WM_STAT_live_hi, F.WM_STAT_band_hold, F.WM_PC_STAT_live_lo, F.WM_PC_STAT_live_hi, F.WM_PC_STAT_band_hold,
      F.WM_EF_RISE_LO, F.WM_EF_RISE_HI, F.WM_EF_FALL_LO, F.WM_EF_FALL_HI, F.WM_EF_STAT_live, F.WM_EF_STAT_band_hold,
      F.WM_EF_STAT_rise, F.WM_EF_STAT_fall, F.WM_EF_STAT_edges, F.PS_STAT_running, F.PS_STAT_locked, F.PS_STAT_fenced,
      F.PS_STAT_still, F.PS_STAT_broken_live, F.PS_ILL_CNT_window, F.PS_OBS_POS_LO, F.PS_OBS_POS_HI, F.PS_OBS_ANGLE,
      F.PS_OBS_EANGLE, F.PS_OBS_SPEED, F.PS_OBS_ACCEL, F.EP_STAT_running, F.EP_STAT_src_lost, F.EP_STAT_limited, F.EP_CNT_LO,
      F.EP_CNT_HI, F.EP_LAG, F.BE_LP_STAT_state, F.BE_LP_STAT_consec, F.SC_TM_STAT_last_status, F.SC_TM_CNT_refusals,
      F.SC_CH_STAT_last_status, F.SC_LV_STAT_last_status, F.SC_DR_STAT_last_status, F.HI_QP_CTRL_draining,
      F.HI_QP_FLAGS_in_flight, F.CN_STAT_state, F.CN_STAT_fenced, F.CN_STAT_slots, F.CN_STAT_tec, F.CN_STAT_rec,
      F.CN_TT_STAT_state, F.CN_TT_STAT_gt_valid, F.FL_STAT_fenced, F.SEC_STAT_session_qp0, F.SEC_STAT_session_uart,
      F.IMS_STAT_state, F.FLT_STAT_lost, F.FLT_LOST, F.THM_FENCED_LO, F.THM_FENCED_HI], [.pp, .cv, .ps, .be, .tm, .mb, .hi,
      .cn, .sec, .flt]⟩
  | .recordWrite _ _ =>
    ⟨false, [F.SC_TM_STAT_last_status, F.SC_TM_CNT_refusals, F.SC_CH_STAT_last_status, F.SC_LV_STAT_last_status,
      F.SC_DR_STAT_last_status, F.HI_QP_CTRL_draining, F.HI_QP_FLAGS_lost, F.HI_QP_FLAGS_in_flight, F.HI_QP_SEQ_LO,
      F.HI_QP_SEQ_HI, F.HI_QP_LOST, F.CN_STAT_slots, F.FLT_STAT_lost, F.FLT_LOST], [.be, .hi, .cn, .flt]⟩
  | .canTx _ _ _ _ =>
    ⟨false, [F.SC_TM_STAT_last_status, F.SC_TM_CNT_refusals, F.SC_CH_STAT_last_status, F.SC_LV_STAT_last_status,
      F.SC_DR_STAT_last_status, F.HI_QP_CTRL_draining, F.HI_QP_FLAGS_in_flight, F.CN_STAT_slots, F.FL_FV_TX_LO, F.FL_FV_TX_HI,
      F.FLT_STAT_lost, F.FLT_LOST], [.hi, .cn, .flt]⟩
  | .slotLoad _ _ =>
    ⟨false, [F.HI_QP_CTRL_draining, F.HI_QP_FLAGS_in_flight, F.CN_STAT_slots], [.hi, .cn]⟩
  | .frameTxEnd _ _ _ _ =>
    ⟨false, [F.TB_GT_STAT_state, F.TB_GT_STAT_gt_valid, F.SC_TM_STAT_last_status, F.SC_TM_CNT_refusals,
      F.SC_CH_STAT_last_status, F.SC_LV_STAT_last_status, F.SC_DR_STAT_last_status, F.HI_QP_CTRL_draining,
      F.HI_QP_FLAGS_in_flight, F.CN_STAT_state, F.CN_STAT_slots, F.CN_STAT_tec, F.CN_STAT_rec, F.CN_CNT_bus_off,
      F.CN_CNT_no_ack, F.CN_TT_STAT_state, F.CN_TT_STAT_gt_valid, F.FL_STAT_last_status, F.FL_STAT_frames, F.FLT_STAT_lost,
      F.FLT_LOST], [.hi, .cn, .flt]⟩
  | .frameReceive _ _ _ _ =>
    ⟨false, [F.TB_GT_STAT_state, F.TB_GT_STAT_jump, F.TB_GT_STAT_gt_valid, F.TB_GT_ERR, F.TB_RATE, F.SC_TM_STAT_last_status,
      F.SC_TM_CNT_refusals, F.SC_CH_STAT_last_status, F.SC_LV_STAT_last_status, F.SC_DR_STAT_last_status,
      F.HI_QP_CTRL_draining, F.HI_QP_FLAGS_lost, F.HI_QP_FLAGS_in_flight, F.HI_QP_LOST, F.CN_STAT_state, F.CN_STAT_slots,
      F.CN_STAT_tec, F.CN_STAT_rec, F.CN_CNT_bus_off, F.CN_CNT_unmatched, F.CN_TT_STAT_state, F.CN_TT_STAT_gt_valid,
      F.CN_TT_STAT_cycle_count, F.CN_TT_STAT_master_prio, F.CN_TT_GT_LO, F.CN_TT_GT_HI, F.FL_FV_RX_LO, F.FL_FV_RX_HI,
      F.FL_STAT_stale, F.FL_STAT_auth, F.FL_STAT_replay, F.FL_STAT_last_status, F.FL_STAT_frames, F.FL_CNT_auth,
      F.FL_CNT_replay, F.FL_LAST_LO, F.FL_LAST_HI, F.FLT_STAT_lost, F.FLT_LOST], [.tb, .mb, .hi, .cn, .flt]⟩
  | .integrationDone _ _ | .receiveError _ _ _ =>
    ⟨false, [F.TB_GT_STAT_state, F.TB_GT_STAT_gt_valid, F.SC_TM_STAT_last_status, F.SC_TM_CNT_refusals,
      F.SC_CH_STAT_last_status, F.SC_LV_STAT_last_status, F.SC_DR_STAT_last_status, F.HI_QP_CTRL_draining,
      F.HI_QP_FLAGS_in_flight, F.CN_STAT_state, F.CN_STAT_slots, F.CN_STAT_tec, F.CN_STAT_rec, F.CN_CNT_bus_off,
      F.CN_TT_STAT_state, F.CN_TT_STAT_gt_valid, F.FLT_STAT_lost, F.FLT_LOST], [.hi, .cn, .flt]⟩
  | .recover _ _ _ =>
    ⟨false, [F.FAB_WRITE_ERR, F.FAB_WRITE_ERR_more, F.FAB_WRITE_DATA, F.FAB_WRITE_CNT, F.CN_CTRL_cmd, F.CN_CTRL_pending,
      F.CN_STAT_state], []⟩
  | .recoveryComplete _ _ =>
    ⟨false, [F.TB_GT_STAT_state, F.TB_GT_STAT_gt_valid, F.CN_CTRL_status, F.CN_CTRL_pending, F.CN_STAT_state, F.CN_STAT_tec,
      F.CN_STAT_rec, F.CN_TT_STAT_state, F.CN_TT_STAT_gt_valid], [.cn]⟩
  | .flowStale _ _ =>
    ⟨false, [F.FL_STAT_stale, F.FLT_STAT_lost, F.FLT_LOST], [.flt]⟩
  | .ttTrigger _ _ _ =>
    ⟨false, [F.CN_TT_STAT_missed, F.FL_STAT_missed, F.FLT_STAT_lost, F.FLT_LOST], [.cn, .flt]⟩
  | .missedWindow _ _ _ =>
    ⟨false, [F.SC_TM_STAT_last_status, F.SC_TM_CNT_refusals, F.SC_CH_STAT_last_status, F.SC_LV_STAT_last_status,
      F.SC_DR_STAT_last_status, F.HI_QP_CTRL_draining, F.HI_QP_FLAGS_in_flight, F.CN_STAT_slots, F.CN_TT_STAT_missed,
      F.FL_STAT_last_status, F.FLT_STAT_lost, F.FLT_LOST], [.hi, .cn, .flt]⟩
  | .ttReferenceSend _ _ _ _ =>
    ⟨false, [F.TB_GT_STAT_state, F.TB_GT_STAT_jump, F.TB_GT_STAT_gt_valid, F.TB_GT_ERR, F.TB_RATE, F.SC_TM_STAT_last_status,
      F.SC_TM_CNT_refusals, F.SC_CH_STAT_last_status, F.SC_LV_STAT_last_status, F.SC_DR_STAT_last_status,
      F.HI_QP_CTRL_draining, F.HI_QP_FLAGS_in_flight, F.CN_STAT_state, F.CN_STAT_slots, F.CN_STAT_tec, F.CN_STAT_rec,
      F.CN_CNT_bus_off, F.CN_CNT_no_ack, F.CN_TT_STAT_state, F.CN_TT_STAT_gt_valid, F.CN_TT_STAT_cycle_count,
      F.CN_TT_STAT_master_prio, F.CN_TT_GT_LO, F.CN_TT_GT_HI, F.FLT_STAT_lost, F.FLT_LOST], [.tb, .hi, .cn, .flt]⟩
  | .listenEnd _ _ =>
    ⟨false, [F.TB_GT_STAT_state, F.TB_GT_STAT_gt_valid, F.CN_TT_STAT_state, F.CN_TT_STAT_gt_valid], [.cn]⟩
  | .masterLost _ _ =>
    ⟨false, [F.TB_GT_STAT_state, F.TB_GT_STAT_gt_valid, F.CN_TT_STAT_gt_valid, F.CN_TT_STAT_master_lost], [.cn]⟩
  | .bootSealRequest _ =>
    ⟨false, [F.DEV_STATE_state, F.DEV_SEAL_CTRL_seal], [.sys, .sec]⟩
  | .sessionExpiry _ _ =>
    ⟨false, [F.SEC_STAT_key_slot, F.SEC_STAT_enrolled, F.SEC_STAT_session_qp0, F.SEC_STAT_session_uart], [.sec]⟩
  | .activateReset _ | .powerOnReset _ | .brownOutReset _ | .railReset _ | .resetN _ | .safeWdogExpiry _ | .coldBoot _ _ _ _ |
    .wake _ _ _ _ _ =>
    ⟨true, [], [.clock, .fresh, .sys, .tb, .pp, .sh, .cv, .ps, .be, .tm, .ch, .dr, .sc, .mb, .hi, .cn, .sec, .flt, .pw]⟩
  | .uartFrame _ _ _ _ _ =>
    ⟨false, [F.DEV_STATE_state, F.BE_ENG_STAT_state, F.BE_ENG_STAT_loop, F.BE_ENG_STAT_loops, F.BE_LP_STAT_state,
      F.BE_POOL_STAT_fenced, F.BE_POOL_STAT_free, F.MB_BANK_CTRL_owner, F.MB_BANK_CTRL_draining, F.MB_BANK_STAT_draining,
      F.SEC_STAT_key_slot, F.SEC_STAT_enrolled, F.SEC_STAT_session_qp0, F.SEC_STAT_session_uart, F.SEC_STAT_otp_err,
      F.SEC_IMG_trial, F.SEC_IMG_pending, F.SEC_IMG_other_valid, F.SEC_IMG_other_version, F.IMS_STAT_flash_err,
      F.IMS_UART_bad_frames, F.FLT_STAT_lost, F.FLT_LOST], [.sys, .be, .mb, .sec, .flt]⟩
  | .freshnessJournal _ _ =>
    ⟨false, [F.DEV_STATE_state, F.BE_ENG_STAT_state, F.BE_ENG_STAT_loop, F.BE_ENG_STAT_loops, F.BE_LP_STAT_state,
      F.BE_POOL_STAT_fenced, F.BE_POOL_STAT_free, F.MB_BANK_CTRL_owner, F.MB_BANK_CTRL_draining, F.MB_BANK_STAT_draining,
      F.SEC_STAT_key_slot, F.SEC_STAT_enrolled, F.SEC_STAT_session_qp0, F.SEC_STAT_session_uart, F.SEC_STAT_otp_err,
      F.SEC_IMG_trial, F.SEC_IMG_pending, F.SEC_IMG_other_valid, F.SEC_IMG_other_version, F.IMS_STAT_flash_err,
      F.FLT_STAT_lost, F.FLT_LOST], [.sys, .be, .mb, .sec, .flt]⟩
  | .ledgerFlush _ _ _ =>
    ⟨false, [F.DEV_STATE_state, F.BE_ENG_STAT_state, F.BE_ENG_STAT_loop, F.BE_ENG_STAT_loops, F.BE_LP_STAT_state,
      F.BE_POOL_STAT_fenced, F.BE_POOL_STAT_free, F.MB_BANK_CTRL_owner, F.MB_BANK_CTRL_draining, F.MB_BANK_STAT_draining,
      F.SEC_STAT_key_slot, F.SEC_STAT_enrolled, F.SEC_STAT_session_qp0, F.SEC_STAT_session_uart, F.SEC_STAT_otp_err,
      F.SEC_IMG_trial, F.SEC_IMG_pending, F.SEC_IMG_other_valid, F.SEC_IMG_other_version, F.IMS_STAT_flash_err,
      F.IMS_STAT_ledger_queue, F.FLT_STAT_lost, F.FLT_STAT_unflushed, F.FLT_LOST], [.sys, .be, .mb, .sec, .flt]⟩
  | .lifetimeRecord _ _ =>
    ⟨false, [F.DEV_STATE_state, F.BE_ENG_STAT_state, F.BE_ENG_STAT_loop, F.BE_ENG_STAT_loops, F.BE_LP_STAT_state,
      F.BE_POOL_STAT_fenced, F.BE_POOL_STAT_free, F.MB_BANK_CTRL_owner, F.MB_BANK_CTRL_draining, F.MB_BANK_STAT_draining,
      F.SEC_STAT_key_slot, F.SEC_STAT_enrolled, F.SEC_STAT_session_qp0, F.SEC_STAT_session_uart, F.SEC_STAT_otp_err,
      F.SEC_IMG_trial, F.SEC_IMG_pending, F.SEC_IMG_other_valid, F.SEC_IMG_other_version, F.IMS_STAT_flash_err,
      F.IMS_HOURS_hours, F.FLT_STAT_lost, F.FLT_LOST], [.sys, .be, .mb, .sec, .flt]⟩
  | .lifeAccumulate _ =>
    ⟨false, [F.FLT_STAT_lost, F.FLT_LOST, F.PWR_CAL_LO, F.PWR_CAL_HI, F.THM_LIFE_hours, F.THM_LIFE_limit], [.sec, .flt]⟩
  | .flashRefresh _ _ _ =>
    ⟨false, [F.DEV_STATE_state, F.BE_ENG_STAT_state, F.BE_ENG_STAT_loop, F.BE_ENG_STAT_loops, F.BE_LP_STAT_state,
      F.BE_POOL_STAT_fenced, F.BE_POOL_STAT_free, F.MB_BANK_CTRL_owner, F.MB_BANK_CTRL_draining, F.MB_BANK_STAT_draining,
      F.SEC_STAT_key_slot, F.SEC_STAT_enrolled, F.SEC_STAT_session_qp0, F.SEC_STAT_session_uart, F.SEC_STAT_otp_err,
      F.SEC_IMG_trial, F.SEC_IMG_pending, F.SEC_IMG_other_valid, F.SEC_IMG_other_version, F.IMS_STAT_flash_err,
      F.IMS_STAT_refreshing, F.IMS_REFRESH_sectors, F.FLT_STAT_lost, F.FLT_LOST], [.sys, .be, .mb, .sec, .flt]⟩
  | .fltFence _ _ _ =>
    ⟨false, [F.FAB_WRITE_ERR, F.FAB_WRITE_ERR_more, F.FAB_WRITE_DATA, F.FAB_WRITE_CNT, F.DEV_STATE_state, F.TB_GT_STAT_state,
      F.TB_GT_STAT_gt_valid, F.TB_STG_RUN_run, F.TB_STG_COMMIT_pending, F.TB_STG_STAT_running, F.TB_STG_STAT_tripped,
      F.TB_STG_STAT_fenced, F.PG_STAT_out_high, F.PG_STAT_out_low, F.PG_STAT_trip_hold, F.PP_STAT_fenced, F.CV_STAT_busy,
      F.CV_STAT_urgent, F.CV_URG_busy, F.CV_URG_status, F.WM_SW_HELD, F.WM_SW_STAT_held, F.WM_SW_STAT_action,
      F.WM_SW_STAT_cause_kind, F.WM_SW_STAT_cause_index, F.WM_SW_STAT_count, F.WM_SW_TIME_LO, F.WM_SW_TIME_HI,
      F.PS_STAT_running, F.PS_STAT_fenced, F.PS_STAT_broken_live, F.PS_STAT_broken, F.PS_CMP_STAT_armed, F.EP_STAT_running,
      F.EP_STAT_src_lost, F.BE_LP_SWAP_pending, F.BE_LP_SWAP_status, F.BE_LP_STAT_state, F.SC_TM_STAT_last_status,
      F.SC_TM_CNT_refusals, F.SC_CH_STAT_last_status, F.SC_LV_STAT_last_status, F.SC_DR_STAT_last_status, F.SC_STAT_mode,
      F.SC_STAT_grace, F.SC_STAT_fenced_a, F.SC_STAT_fenced_b, F.SC_STAT_fenced_chk, F.SC_STAT_grace_left, F.SC_LAST_outcome,
      F.SC_ABS_LEFT_left, F.SC_ABS_LEFT_awaiting, F.HI_QP_CTRL_enable, F.HI_QP_CTRL_status, F.HI_QP_CTRL_draining,
      F.HI_QP_STAT_sq_head, F.HI_QP_FLAGS_fenced, F.HI_QP_FLAGS_in_flight, F.CN_STAT_fenced, F.CN_STAT_slots,
      F.CN_TT_STAT_gt_valid, F.FL_STAT_fenced, F.FLT_STAT_lost, F.FLT_STAT_safe, F.FLT_LOST, F.FLT_ACT_cmd, F.FLT_ACT_kind,
      F.FLT_ACT_index, F.FLT_ACT_status, F.FLT_SAFE_safe, F.FLT_SAFE_kind, F.FLT_SAFE_index, F.FLT_SAFE_status,
      F.FLT_SAFE_TIME_LO, F.FLT_SAFE_TIME_HI, F.THM_FENCED_LO, F.THM_FENCED_HI], [.tb, .pp, .cv, .ps, .be, .sc, .hi, .cn,
      .flt]⟩
  | .fltSafe _ _ _ =>
    ⟨false, [F.DEV_STATE_state, F.TB_STG_RUN_run, F.TB_STG_STAT_running, F.TB_STG_STAT_tripped, F.PG_STAT_out_high,
      F.PG_STAT_out_low, F.PG_STAT_trip_hold, F.WM_SW_HELD, F.WM_SW_STAT_held, F.WM_SW_STAT_action, F.WM_SW_STAT_cause_kind,
      F.WM_SW_STAT_cause_index, F.WM_SW_STAT_count, F.WM_SW_TIME_LO, F.WM_SW_TIME_HI, F.SC_ABS_LEFT_left,
      F.SC_ABS_LEFT_awaiting, F.FLT_STAT_lost, F.FLT_STAT_safe, F.FLT_LOST, F.FLT_ACT_cmd, F.FLT_ACT_kind, F.FLT_ACT_index,
      F.FLT_ACT_status, F.FLT_SAFE_safe, F.FLT_SAFE_kind, F.FLT_SAFE_index, F.FLT_SAFE_status, F.FLT_SAFE_TIME_LO,
      F.FLT_SAFE_TIME_HI], [.tb, .pp, .cv, .sc, .flt]⟩
  | .islandLost _ _ =>
    ⟨false, [F.DEV_STATE_state, F.TB_GT_STAT_state, F.TB_GT_STAT_gt_valid, F.TB_STG_RUN_run, F.TB_STG_STAT_running,
      F.TB_STG_STAT_tripped, F.PG_STAT_out_high, F.PG_STAT_out_low, F.PG_STAT_trip_hold, F.CV_STAT_urgent, F.WM_SW_HELD,
      F.WM_SW_STAT_held, F.WM_SW_STAT_action, F.WM_SW_STAT_cause_kind, F.WM_SW_STAT_cause_index, F.WM_SW_STAT_count,
      F.WM_SW_TIME_LO, F.WM_SW_TIME_HI, F.PS_STAT_broken_live, F.PS_STAT_broken, F.EP_STAT_running, F.SC_TM_STAT_last_status,
      F.SC_TM_CNT_refusals, F.SC_CH_STAT_last_status, F.SC_LV_STAT_last_status, F.SC_DR_STAT_last_status, F.SC_ABS_LEFT_left,
      F.SC_ABS_LEFT_awaiting, F.HI_QP_CTRL_enable, F.HI_QP_CTRL_status, F.HI_QP_CTRL_draining, F.HI_QP_STAT_sq_head,
      F.HI_QP_FLAGS_fenced, F.HI_QP_FLAGS_in_flight, F.CN_STAT_fenced, F.CN_STAT_slots, F.CN_TT_STAT_gt_valid, F.FLT_STAT_lost,
      F.FLT_STAT_safe, F.FLT_LOST, F.FLT_SAFE_safe, F.FLT_SAFE_kind, F.FLT_SAFE_index, F.FLT_SAFE_status, F.FLT_SAFE_TIME_LO,
      F.FLT_SAFE_TIME_HI], [.clock, .tb, .pp, .cv, .ps, .sc, .hi, .cn, .flt]⟩
  | .ledgerReport _ _ _ _ _ _ _ =>
    ⟨false, [F.FLT_STAT_lost, F.FLT_LOST], [.flt]⟩
  | .ledgerEntry _ =>
    ⟨false, [F.IMS_STAT_ledger_queue, F.FLT_STAT_alert, F.FLT_STAT_lost, F.FLT_STAT_unflushed, F.FLT_HEAD_LO, F.FLT_HEAD_HI,
      F.FLT_LOST, F.FLT_CLASS_CNT_report, F.FLT_CLASS_CNT_c, F.FLT_CLASS_CNT_s, F.FLT_CLASS_CNT_d], [.sc, .hi, .flt]⟩
  | .entryClose _ _ =>
    ⟨false, [], [.hi, .flt]⟩
  | .slotCapture _ _ _ _ =>
    ⟨false, [F.FAB_WRITE_ERR, F.FAB_WRITE_ERR_more, F.FAB_WRITE_DATA, F.FAB_WRITE_CNT, F.FLT_SEL_slot, F.FLT_REC], []⟩
  | .vinHigh _ _ =>
    ⟨false, [F.FLT_STAT_lost, F.FLT_LOST, F.PWR_STAT_vin, F.PWR_STAT_vin_high], [.flt]⟩
  | .speedMonitor _ _ _ =>
    ⟨false, [F.FAB_SPEED_k, F.FAB_SPEED_k_max], []⟩
  | .vfabStep _ _ =>
    ⟨false, [F.FLT_STAT_lost, F.FLT_LOST, F.PWR_STAT_vfab, F.PWR_STAT_vfab_limit], [.flt, .pw]⟩
  | .fqiTcUpdate _ =>
    ⟨false, [], [.pw]⟩
  | .sleepRequest _ =>
    ⟨false, [F.SC_TM_STAT_last_status, F.SC_TM_CNT_refusals, F.SC_CH_STAT_last_status, F.SC_LV_STAT_last_status,
      F.SC_DR_STAT_last_status, F.HI_QP_CTRL_enable, F.HI_QP_CTRL_draining, F.HI_QP_STAT_sq_head, F.HI_QP_FLAGS_in_flight,
      F.CN_STAT_slots, F.SEC_STAT_key_slot, F.SEC_STAT_enrolled, F.SEC_STAT_session_qp0, F.SEC_STAT_session_uart,
      F.IMS_STAT_flash_err, F.FLT_STAT_lost, F.FLT_LOST, F.PWR_SLEEP_CTRL_enter, F.PWR_SLEEP_CTRL_status], [.hi, .cn, .sec,
      .flt, .pw]⟩
  | .tempReading _ _ _ =>
    ⟨false, [F.FLT_STAT_lost, F.FLT_LOST, F.THM_TS, F.THM_MAX, F.THM_STAGE_MAX, F.THM_DERATE], [.flt, .pw]⟩
  | .tempCrossCheck _ =>
    ⟨false, [F.DEV_STATE_state, F.TB_GT_STAT_state, F.TB_GT_STAT_gt_valid, F.TB_STG_RUN_run, F.TB_STG_COMMIT_pending,
      F.TB_STG_STAT_running, F.TB_STG_STAT_tripped, F.TB_STG_STAT_fenced, F.PG_STAT_out_high, F.PG_STAT_out_low,
      F.PG_STAT_trip_hold, F.PP_STAT_fenced, F.CV_STAT_busy, F.CV_STAT_urgent, F.CV_URG_busy, F.CV_URG_status, F.WM_SW_HELD,
      F.WM_SW_STAT_held, F.WM_SW_STAT_action, F.WM_SW_STAT_cause_kind, F.WM_SW_STAT_cause_index, F.WM_SW_STAT_count,
      F.WM_SW_TIME_LO, F.WM_SW_TIME_HI, F.PS_STAT_running, F.PS_STAT_fenced, F.PS_STAT_broken_live, F.PS_STAT_broken,
      F.PS_CMP_STAT_armed, F.EP_STAT_running, F.EP_STAT_src_lost, F.BE_LP_SWAP_pending, F.BE_LP_SWAP_status,
      F.BE_LP_STAT_state, F.SC_TM_STAT_last_status, F.SC_TM_CNT_refusals, F.SC_CH_STAT_last_status, F.SC_LV_STAT_last_status,
      F.SC_DR_STAT_last_status, F.SC_STAT_mode, F.SC_STAT_grace, F.SC_STAT_fenced_a, F.SC_STAT_fenced_b, F.SC_STAT_fenced_chk,
      F.SC_STAT_grace_left, F.SC_LAST_outcome, F.SC_ABS_LEFT_left, F.SC_ABS_LEFT_awaiting, F.HI_QP_CTRL_enable,
      F.HI_QP_CTRL_status, F.HI_QP_CTRL_draining, F.HI_QP_STAT_sq_head, F.HI_QP_FLAGS_fenced, F.HI_QP_FLAGS_in_flight,
      F.CN_STAT_fenced, F.CN_STAT_slots, F.CN_TT_STAT_gt_valid, F.FL_STAT_fenced, F.FLT_STAT_lost, F.FLT_STAT_safe, F.FLT_LOST,
      F.FLT_SAFE_safe, F.FLT_SAFE_kind, F.FLT_SAFE_index, F.FLT_SAFE_status, F.FLT_SAFE_TIME_LO, F.FLT_SAFE_TIME_HI,
      F.THM_FENCED_LO, F.THM_FENCED_HI], [.tb, .pp, .cv, .ps, .be, .sc, .hi, .cn, .flt, .pw]⟩
  | .brokenLiveClear _ _ _ =>
    ⟨false, [F.PS_STAT_broken_live], [.ps]⟩
  | .pcieLinkUp _ _ =>
    ⟨false, [F.HI_LINK_speed, F.HI_LINK_up], [.hi, .pw]⟩
  | .sleepEntryDone _ =>
    ⟨false, [F.HI_LINK_speed, F.HI_LINK_up, F.IMS_STAT_flash_err, F.IMS_STAT_ledger_queue, F.FLT_STAT_lost,
      F.FLT_STAT_unflushed, F.FLT_LOST, F.PWR_SLEEP_CTRL_enter, F.PWR_SLEEP_CTRL_status, F.PWR_WAKE_STAT_slept_s, F.PWR_CAL_LO,
      F.PWR_CAL_HI], [.clock, .pp, .sc, .sec, .flt, .pw]⟩

/-- The commands that renew the device: they set device time. -/
def Instr.renews (c : Instr) : Bool :=
  match c with
  | .activateReset _ | .powerOnReset _ | .brownOutReset _ | .railReset _ | .resetN _ | .safeWdogExpiry _ | .coldBoot _ _ _ _ |
    .wake _ _ _ _ _ => true
  | _ => false

/-- The commands that a device in SAFE leaves it by: its power, RESET_N and watchdog resets (R374, R386). -/
def Instr.resets (c : Instr) : Bool :=
  match c with
  | .powerOnReset _ | .brownOutReset _ | .railReset _ | .resetN _ | .safeWdogExpiry _ => true
  | _ => false

end Sys2Proof

namespace Sys2Proof.Machine

/-- The form of every state: device time has 64 bits (R9), bank memory and the registers are listed in their canonical form, and the
report intake holds no more than its 64 places (R376). -/
structure Dev.Sound (d : Dev) : Prop where
  time : d.time < 2 ^ 64
  mem : Memory.wf d.mb.mem
  regs : Tbl.Wf resetWord d.regs
  intake : d.flt.intake.length ≤ 64

/-- A command answers a next state with the queue as it was, and its device has the property. -/
def Does (s : State) (c : Instr) (p : Dev → Prop) : Prop := ∃ d, exec c s = .next { s with toDev := d } ∧ p d

/-- Is a command a store of the safety controller's firmware (R269; log entry 70)? -/
def byFirmware : Instr → Bool
  | .registerWrite _ m _ _ _ | .qpEnable _ m _ | .sealRequest _ m | .slackMinRestart _ m _ | .recover _ m _ | .slotCapture _ m _ _ => m == .sc
  | .scShadowWrite .. | .scCommit .. | .stageStart .. | .stageStop .. | .urgentRequest .. | .latchClear .. | .forceAct .. | .forceOff ..
  | .release .. | .preset .. | .declareDead .. | .fwReady .. | .wdogService .. | .accept .. | .refuse .. | .kick .. | .continueStage ..
  | .stopStage .. | .bankHandover .. | .fltFence .. | .fltSafe .. | .sleepRequest .. | .calOffset .. | .calGain .. | .calBoth ..
  | .compareArm .. | .coeffSwapRequest .. => true
  | _ => false

/-- The state with its device replaced. -/
def State.put (s : State) (d : Dev) : State := { s with toDev := d }

/-- The device at the instant of a command. -/
def State.now (s : State) (t : Nat) : Dev := s.toDev.arrive t

/-- Engine e's run r stands at an operation of a code that is not its last, and was not stopped (R155, R159). -/
def Dev.atOp (d : Dev) (e code : Nat) (r : Run) : Prop :=
  (d.eng e).run = some r ∧ opCode (d.opWord r.loop r.pc) = code ∧ r.pc + 1 < d.rd F.BE_LP_PROG_length r.loop ∧ r.abort = false

/-- A command retires the operation of run r on engine e: the run goes on at the next one, and device and run have the property. -/
def Retires (s : State) (c : Instr) (e : Nat) (r : Run) (p : Dev → Run → Prop) : Prop :=
  Does s c fun n => ∃ q, (n.eng e).run = some q ∧ q.pc = r.pc + 1 ∧ q.lastAt = (s.now c.time).time ∧ q.loop = r.loop ∧ p n q

/-- Descriptor x at ring index i of queue pair q stands in a phase and may start; the completion ring can be written. -/
def Dev.standing (d : Dev) (q i : Nat) (ph : Phase) (x : Descr) : Prop :=
  ∃ it, (d.qp q).item i = some it ∧ it.desc = some x ∧ it.phase = ph ∧
    (ph = .handed ∨ (d.qp q).mayStart i (isSerial x) = true) ∧ (d.qp q).silent = false

/-- The descriptor at ring index i of queue pair q has ended with a status, and its completion waits for its turn. -/
def Dev.endedWith (d : Dev) (q i st : Nat) : Prop := ∃ it partly detail, (d.qp q).item i = some it ∧ it.phase = .ended st partly detail

/-- The value that compare A or B of a stage's port takes at the coming update point: the last one that was locked for it, where the stage
transfers, or the one that it has (R44, R53). -/
def Dev.comingCompare (d : Dev) (s p : Nat) (isB : Bool) : Nat :=
  let held := if isB then d.rd F.PG_CMP_B_value p else d.rd F.PG_CMP_A_value p
  match (d.stg s).locked.reverse.find? fun w => w.1 == p && w.2.1 == isB with
  | some w =>
    if (d.stg s).transfer = false ∨ (isB = true ∧ d.halfBeat s = true ∧ d.rd F.PG_CFG_mode p ≠ 4) then held else w.2.2
  | none => held

/-- The high and the low total, in sixteenths of a tick, of every span that the compares of port p govern from an update point on (R42 to
R44, R47). -/
def Dev.governed (d : Dev) (s p : Nat) : List (Nat × Nat) :=
  let a := d.rd F.PG_CMP_A_value p
  let b := d.rd F.PG_CMP_B_value p
  let h := 8 * d.period s
  let top := if d.upDown s then h else 2 * h
  let mode := d.rd F.PG_CFG_mode p
  if mode = 4 then [(top - a, a), (b, top - b)]
  else if mode = 5 then [(b, h - b)]
  else if mode = 6 then []
  else if d.upDown s then (if d.halfBeat s then [(h - a, a)] else [(h - a, a), (h - b, b)])
  else if a < b then [(b - a, top - (b - a))]
  else if b < a then [(top - (a - b), a - b)]
  else [(0, top)]

/-- Does nothing that R120 lists keep a trip of stage k from its release: every routed threshold of a window monitor and of a pod comparator
live in LIVE mode, its latch set in LATCH mode, or its unit fenced; a routed TRIP_IN at its active level; FENCE; DEVICE? -/
def Dev.nothingHolds (d : Dev) (k : Nat) : Prop :=
  let routed (off act : Fd) (m : Nat) := bitOf (d.rd off k) m || bitOf (d.rd act k) m
  let output (fence : Bool) (mode latch live : Nat) := fence || (if mode = 2 then latch == 1 else live == 1)
  (∀ m < 24, routed F.WM_SW_WM_OFF_mask F.WM_SW_WM_ACT_mask m = true →
    (d.flag F.WM_CFG_route_lo m && output (d.fenced Kind.winMon m) (d.rd F.WM_CFG_latch m) (d.rd F.WM_LATCH_lo m) (d.rd F.WM_STAT_live_lo m)) = false ∧
    (d.flag F.WM_CFG_route_hi m && output (d.fenced Kind.winMon m) (d.rd F.WM_CFG_latch m) (d.rd F.WM_LATCH_hi m) (d.rd F.WM_STAT_live_hi m)) = false) ∧
  (∀ c < 28, routed F.WM_SW_PC_OFF_mask F.WM_SW_PC_ACT_mask c = true →
    (d.flag F.WM_PC_CFG_route_lo c && output (d.fenced Kind.podCmp c) (d.rd F.WM_PC_CFG_latch c) (d.rd F.WM_PC_LATCH_lo c) (d.rd F.WM_PC_STAT_live_lo c)) = false ∧
    (d.flag F.WM_PC_CFG_route_hi c && output (d.fenced Kind.podCmp c) (d.rd F.WM_PC_CFG_latch c) (d.rd F.WM_PC_LATCH_hi c) (d.rd F.WM_PC_STAT_live_hi c)) = false) ∧
  (∀ i < 4, routed F.WM_SW_IN_off F.WM_SW_IN_act i = true →
    (bitOf (d.rd F.WM_SW_IN_CFG 0) (8 * i) && bitOf (d.rd F.WM_SW_IN_STAT_live 0) i) = false) ∧
  d.fenced Kind.stage k = false ∧ d.flag F.FLT_SAFE_safe 0 = false

end Sys2Proof.Machine
end

