-- ==== Sys2Proof/Certificates/Slice0/Obligations.lean ====
section
/-! DEFINITION. What is claimed of the machine, from the numbered rules of spec/. -/

open Sys2Proof Sys2Proof.Machine

/-! ### Timebase and pulse generators (chapter 02) -/

/-- R38, R41, R44, R47, R51 to R54, R59, R60, R86 to R90: GT_CAPTURE, UPDATE_POINT, DEADLINE_INSTANT, SAMPLING_PLAN and TRIGGER_FIRE. What
is said of a transfer that is decided holds of an update point that had its deadline instant and whose planner is done. Its driving
begins with the first successful transfer after run was written. An instant is placed where its window is long enough or accepted, and no
later than TB_STG_LIMIT.latest; one that is not placed reads 0 (log entry 66). -/
def Obligations.TimebaseInstants : Prop :=
  ∀ (s : State) (t : Nat), let d := s.now t
    (∀ gt, d.rd F.TB_SYNC_CFG_sync 0 = 2 → d.flag F.TB_GT_STAT_gt_valid 0 = true → d.rd F.TB_GT_STAT_state 0 = 2 → d.globalRuns = false →
      Does s (.gtCapture t gt) fun n =>
        n.rd64 F.TB_GT_OFFSET_LO F.TB_GT_OFFSET_HI 0 = unsigned 64 ((d.time : Int) - gt) ∧ n.rd F.TB_GT_ERR 0 = 0 ∧
        n.rd F.TB_GT_STAT_state 0 = 3) ∧
    (∀ k : Fin 21, d.flag F.TB_STG_CFG_enable k = true → d.atUpdate k d.time = true → d.upd k + 1 < 2 ^ 64 →
      Does s (.updatePoint t k) fun n => n.upd k = d.upd k + 1) ∧
    -- R44, R51, R53: the committed writes enter the compares, and no other; R59: the instants of the beat are shown
    (∀ k : Fin 21, d.flag F.TB_STG_CFG_enable k = true → d.atUpdate k d.time = true → (d.stg k).decided = true → (d.stg k).planned = true →
      (∀ w ∈ (d.stg k).locked, w.1 ∈ stagePorts k ∧ w.2.2 < 2 ^ 28) → (d.stg k).nextA.at16 < 2 ^ 24 → (d.stg k).nextB.at16 < 2 ^ 24 →
      Does s (.updatePoint t k) fun n =>
        (∀ p < 64, n.rd F.PG_CMP_A_value p = (if p ∈ stagePorts k then d.comingCompare k p false else d.rd F.PG_CMP_A_value p) ∧
          n.rd F.PG_CMP_B_value p = if p ∈ stagePorts k then d.comingCompare k p true else d.rd F.PG_CMP_B_value p) ∧
        n.flag F.TB_STG_PLAN_A_placed k = (d.stg k).nextA.placed ∧ n.flag F.TB_STG_PLAN_B_placed k = (d.stg k).nextB.placed ∧
        n.rd F.TB_STG_PLAN_A_instant k = (if (d.stg k).nextA.placed then (d.stg k).nextA.at16 / 16 else 0) ∧
        n.rd F.TB_STG_PLAN_B_instant k = if (d.stg k).nextB.placed then (d.stg k).nextB.at16 / 16 else 0) ∧
    -- R47: a span whose shorter total is below min_pulse, and not 0, differs and sets minp
    (∀ k : Fin 21, ∀ p ∈ stagePorts k, d.flag F.TB_STG_CFG_enable k = true → d.atUpdate k d.time = true → (d.stg k).decided = true →
      (d.stg k).planned = true → (∀ w ∈ (d.stg k).locked, w.1 ∈ stagePorts k ∧ w.2.2 < 2 ^ 28) →
      d.comingCompare k p false ≤ d.compareMax p false → d.comingCompare k p true ≤ d.compareMax p true → d.rd F.PG_CFG_mode p ≤ 6 →
      Does s (.updatePoint t k) fun n =>
        let m := 16 * d.rd F.PG_MINP_min_pulse p
        n.flag F.PG_STAT_minp p =
          (d.flag F.PG_STAT_minp p || (n.governed k p).any fun u => (u.1 < m && u.1 ≠ 0) || (m ≤ u.1 && u.2 < m && u.2 ≠ 0))) ∧
    -- R54: the first successful transfer after run was written starts the driving
    (∀ k : Fin 21, d.flag F.TB_STG_CFG_enable k = true → d.atUpdate k d.time = true → (d.stg k).decided = true → (d.stg k).planned = true →
      d.flag F.TB_STG_RUN_run k = true → (d.stg k).driving = false → (d.stg k).startAt < d.time →
      Does s (.updatePoint t k) fun n =>
        (n.stg k).driving = (d.stg k).transfer ∧
        ((d.stg k).transfer = true → n.flag F.TB_STG_STAT_running k = true ∧
          ∀ p ∈ stagePorts k, let h := n.hCommand p (16 * d.carrier k d.time)
            (d.rd F.PG_CFG_mode p = 1 ∨ d.rd F.PG_CFG_mode p = 5 →
              let dt := if h then d.rd F.PG_DT_dt_rise p else d.rd F.PG_DT_dt_fall p
              (dt = 0 → n.flag F.PG_STAT_out_high p = h ∧ n.flag F.PG_STAT_out_low p = !h) ∧
              (dt ≠ 0 → n.flag F.PG_STAT_out_high p = false ∧ n.flag F.PG_STAT_out_low p = false ∧
                (n.pg p).wait = some (h, 16 * d.time + dt))) ∧
            (d.rd F.PG_CFG_mode p = 2 → n.flag F.PG_STAT_out_high p = h ∧ n.flag F.PG_STAT_out_low p = false) ∧
            (d.rd F.PG_CFG_mode p = 3 → n.flag F.PG_STAT_out_high p = false ∧ n.flag F.PG_STAT_out_low p = !h)) ∧
        ((d.stg k).transfer = false → ∀ p ∈ stagePorts k, n.flag F.PG_STAT_out_high p = d.flag F.PG_STAT_out_high p ∧
          n.flag F.PG_STAT_out_low p = d.flag F.PG_STAT_out_low p)) ∧
    -- R51, R52: the commit in time decides the transfer, and the shadows that were written are locked; else the beat is missed
    (∀ k : Fin 21, d.flag F.TB_STG_CFG_enable k = true → d.atDeadline k d.time = true → (d.stg k).decided = false →
      d.fenced Kind.stage k = false → (∀ l ∈ d.loops, d.isAux l = true → d.home l ≠ k) →
      (if d.loopStage k then (d.stg k).mark = true
       else d.flag F.TB_STG_COMMIT_pending k = true ∧ d.rd F.TB_STG_COMMIT_update k = (d.upd k + 1) % 65536) →
      Does s (.deadlineInstant t k) fun n => (n.stg k).decided = true ∧ (n.stg k).transfer = true ∧
        ∀ p isB v, (p, isB, v) ∈ (n.stg k).locked ↔ p ∈ stagePorts k ∧
          (if isB then (d.pg p).wroteB = true ∧ v = d.rd F.PG_SHD_B_value p else (d.pg p).wroteA = true ∧ v = d.rd F.PG_SHD_A_value p)) ∧
    (∀ k : Fin 21, d.flag F.TB_STG_CFG_enable k = true → d.atDeadline k d.time = true → (d.stg k).decided = false →
      d.loopStage k = true → (d.stg k).mark = false → d.fenced Kind.stage k = false → (d.stg k).opened = true →
      Does s (.deadlineInstant t k) fun n => n.flag F.TB_STG_STAT_deadline k = true ∧ (n.stg k).transfer = false) ∧
    -- R87: no SINGLE_SHUNT instant where the conditions of the deadline instant did not hold
    (∀ k : Fin 21, (d.stg k).decided = true → (d.stg k).planned = false → d.rd F.SH_CFG_mode k = 1 → (d.stg k).maySample = false →
      Does s (.samplingPlan t k) fun n => (n.stg k).planned = true ∧ (n.stg k).nextA.placed = false ∧ (n.stg k).nextB.placed = false ∧
        n.flag F.SH_STAT_unplaced k = true) ∧
    -- R86, R88: FIXED instants
    (∀ k : Fin 21, (d.stg k).decided = true → (d.stg k).planned = false → d.rd F.SH_CFG_mode k = 2 →
      Does s (.samplingPlan t k) fun n => (n.stg k).planned = true ∧
        (n.stg k).nextA.placed = (d.flag F.SH_FIX_A_enable k && d.rd F.SH_FIX_A_offset k ≤ d.rd F.TB_STG_LIMIT_latest k) ∧
        (n.stg k).nextB.placed = (d.flag F.SH_FIX_B_enable k && d.rd F.SH_FIX_B_offset k ≤ d.rd F.TB_STG_LIMIT_latest k) ∧
        ((n.stg k).nextA.placed = true → (n.stg k).nextA.at16 = 16 * d.rd F.SH_FIX_A_offset k) ∧
        ((n.stg k).nextB.placed = true → (n.stg k).nextB.at16 = 16 * d.rd F.SH_FIX_B_offset k) ∧
        n.flag F.SH_STAT_unplaced k = (d.flag F.SH_STAT_unplaced k ||
          (d.flag F.SH_FIX_A_enable k && d.rd F.TB_STG_LIMIT_latest k < d.rd F.SH_FIX_A_offset k) ||
          (d.flag F.SH_FIX_B_enable k && d.rd F.TB_STG_LIMIT_latest k < d.rd F.SH_FIX_B_offset k))) ∧
    -- R86: OFF
    (∀ k : Fin 21, (d.stg k).decided = true → (d.stg k).planned = false → d.rd F.SH_CFG_mode k = 3 →
      Does s (.samplingPlan t k) fun n => (n.stg k).planned = true ∧ (n.stg k).nextA.placed = false ∧ (n.stg k).nextB.placed = false) ∧
    -- R59, R89, R90: SINGLE_SHUNT instants, over the edges of ports x, y and z of the set in their order
    (∀ (k : Fin 21) (x y z : Fin 3), (d.stg k).decided = true → (d.stg k).planned = false → d.rd F.SH_CFG_mode k = 1 →
      (d.stg k).maySample = true → (∀ w ∈ (d.stg k).locked, w.1 ∈ stagePorts k ∧ w.2.2 < 2 ^ 28) →
      let up := if d.halfBeat k then d.comingUp k else !d.flag F.SH_CFG_half k
      let port (i : Fin 3) := (stagePorts k).headD 0 + i
      let cmp (i : Fin 3) := d.comingCompare k (port i) (!up && !d.halfBeat k)
      let e (i : Fin 3) := if up then cmp i else 8 * d.period k - cmp i
      let dt (i : Fin 3) := if up then d.rd F.PG_DT_dt_rise (port i) else d.rd F.PG_DT_dt_fall (port i)
      let base := if !up && !d.halfBeat k then 8 * d.period k else 0
      let w := 16 * (d.rd F.SH_WIN_blank k + d.rd F.SH_WIN_settle k)
      let accept := 16 * d.rd F.SH_WIN_accept k
      let latest := 16 * d.rd F.TB_STG_LIMIT_latest k
      let rightly (i : Inst) (start stop phase : Nat) (neg : Bool) : Prop :=
        (start + w ≤ stop → i.placed = decide (start + w + base ≤ latest) ∧ (i.placed = true → i.at16 = start + w + base) ∧
          i.accepted = false) ∧
        (stop < start + w → start + w ≤ stop + accept → i.placed = decide (stop + base ≤ latest) ∧ (i.placed = true → i.at16 = stop + base) ∧
          i.accepted = i.placed) ∧
        (stop + accept < start + w → i.placed = false) ∧ i.phase = phase ∧ i.neg = neg
      x ≠ y → y ≠ z → x ≠ z → (e x < e y ∨ e x = e y ∧ x < y) → (e y < e z ∨ e y = e z ∧ y < z) →
      Does s (.samplingPlan t k) fun n => (n.stg k).planned = true ∧
        rightly (n.stg k).nextA (e x + dt x) (e y) x (!up) ∧ rightly (n.stg k).nextB (e y + dt y) (e z) z up) ∧
    (∀ (six : Fin 16) (u : Fin 48), d.triggerHits u six = true →
      Does s (.triggerFire t six u) fun n =>
        n.rd F.TB_TRIG_CNT u = min (d.rd F.TB_TRIG_CNT u + 1) (2 ^ 32 - 1) ∧ (n.fired u).getLast? = some (16 * d.time + six))

/-- R50 to R53: PG_SHADOW_WRITE, COMMIT_MARK, SC_SHADOW_WRITE and SC_COMMIT, the safety controller's while its copies execute
(log entry 70). A write for a tag ahead of the next update point is discarded with the mark that it carries, and counted once. -/
def Obligations.ShadowsAndCommits : Prop :=
  ∀ (s : State) (t : Nat), let d := s.now t
    (∀ e l p isB v tag r, d.tb.gate = .shadow e l p isB v tag :: r → d.fenceHolds e = false →
      d.fenced Kind.stage (portStage p) = false → tag = (d.upd (portStage p) + 1) % 65536 → 0 ≤ v → v ≤ d.compareMax p isB → v < 2 ^ 28 →
      Does s (.pgShadowWrite t) fun n =>
        (n.rd (if isB then F.PG_SHD_B_value else F.PG_SHD_A_value) p : Int) = v ∧ n.tb.gate = r) ∧
    (∀ e l p isB v tag, let k := portStage p
      d.fenceHolds e = false → d.fenced Kind.stage k = false → 0 < (tag + 65536 - (d.upd k + 1) % 65536) % 65536 →
      (tag + 65536 - (d.upd k + 1) % 65536) % 65536 < 32768 → ∀ r, d.tb.gate = .shadow e l p isB v tag :: .commit e l k tag :: r →
      Does s (.pgShadowWrite t) fun n => n.tb.gate = r ∧ n.flag F.TB_STG_STAT_stale k = true ∧
        n.rd F.TB_STG_STAT_stale_cnt k = min (d.rd F.TB_STG_STAT_stale_cnt k + 1) 65535 ∧
        n.rd F.PG_SHD_A_value p = d.rd F.PG_SHD_A_value p ∧ n.rd F.PG_SHD_B_value p = d.rd F.PG_SHD_B_value p) ∧
    (∀ e l k r, d.tb.gate = .commit e l k ((d.upd k + 1) % 65536) :: r → d.fenceHolds e = false → d.fenced Kind.stage k = false →
      d.pastDeadline k = false →
      Does s (.commitMark t) fun n => (n.stg k).mark = true ∧ n.tb.gate = r) ∧
    (∀ (p : Fin 64) isB (v : Word), d.fwStores = true → d.fenced Kind.stage (portStage p) = false → d.loopStage (portStage p) = false →
      v.toNat % 2 ^ 28 ≤ d.compareMax p isB →
      Does s (.scShadowWrite t p isB v) fun n => n.rd (if isB then F.PG_SHD_B_value else F.PG_SHD_A_value) p = v.toNat % 2 ^ 28) ∧
    (∀ (k : Fin 21) (v : Word), d.fwStores = true → d.fenced Kind.stage k = false → d.loopStage k = false →
      let diff := (v.toNat % 65536 + 65536 - (d.upd k + 1) % 65536) % 65536
      Does s (.scCommit t k v) fun n => n.rd F.TB_STG_COMMIT_update k = v.toNat % 65536 ∧
        (diff < 32768 → (diff ≠ 0 ∨ d.pastDeadline k = false) → n.flag F.TB_STG_COMMIT_pending k = true) ∧
        (32768 ≤ diff ∨ (diff = 0 ∧ d.pastDeadline k = true) →
          n.flag F.TB_STG_COMMIT_pending k = false ∧ n.rd F.TB_STG_COMMIT_status k = Code.STALE))

/-- R36, R42, R46, R54, R55: STAGE_START, STAGE_STOP, COMPARE_MATCH and DEAD_TIME_EXPIRY; start and stop are stores of the firmware's and
come while its copies execute (log entry 70). -/
def Obligations.StagesRunAndSwitch : Prop :=
  ∀ (s : State) (t : Nat), let d := s.now t
    (∀ k : Fin 21, d.fwStores = true → d.pw.asleep = false → d.fenced Kind.stage k = false → d.flag F.WM_SW_STAT_held k = false →
      d.flag F.TB_STG_RUN_run k = false →
      Does s (.stageStart t k) fun n => n.flag F.TB_STG_RUN_run k = true ∧ (n.stg k).startAt = d.time ∧ (n.stg k).driving = false) ∧
    (∀ k : Fin 21, d.fwStores = true → d.pw.asleep = true → d.fenced Kind.stage k = false → d.flag F.WM_SW_STAT_held k = false →
      Does s (.stageStart t k) fun n => n.flag F.TB_STG_RUN_run k = d.flag F.TB_STG_RUN_run k) ∧
    (∀ k : Fin 21, d.fwStores = true → d.fenced Kind.stage k = false →
      Does s (.stageStop t k) fun n => n.flag F.TB_STG_RUN_run k = false ∧ n.flag F.TB_STG_STAT_running k = false ∧
        n.upd k = d.upd k ∧ n.flag F.TB_STG_CFG_enable k = d.flag F.TB_STG_CFG_enable k ∧ n.tb.gate = d.tb.gate ∧
        ∀ p ∈ stagePorts k, (n.pg p).wait = none ∧ (d.flag F.PG_STAT_trip_hold p = false →
          n.flag F.PG_STAT_out_high p = false ∧ n.flag F.PG_STAT_out_low p = false ∧
          (n.port p).flight = if (d.drv p true).cmd || (d.drv p false).cmd then [(16 * (d.time + 1), false, false)] else [])) ∧
    (∀ (six : Fin 16) (p : Fin 64), (d.stg (portStage p)).driving = true →
      let pos := 16 * d.carrier (portStage p) d.time + six
      let h := d.hCommand p pos
      Does s (.compareMatch t six p) fun n =>
        (d.rd F.PG_CFG_mode p = 2 → n.flag F.PG_STAT_out_high p = h ∧ n.flag F.PG_STAT_out_low p = false) ∧
        (d.rd F.PG_CFG_mode p = 3 → n.flag F.PG_STAT_out_high p = false ∧ n.flag F.PG_STAT_out_low p = !h) ∧
        (d.rd F.PG_CFG_mode p = 4 →
          n.flag F.PG_STAT_out_high p = (d.directCommand p pos).1 ∧ n.flag F.PG_STAT_out_low p = (d.directCommand p pos).2) ∧
        (d.rd F.PG_CFG_mode p = 1 ∨ d.rd F.PG_CFG_mode p = 5 → h ≠ (d.pg p).h →
          let dt := if h then d.rd F.PG_DT_dt_rise p else d.rd F.PG_DT_dt_fall p
          (dt = 0 → n.flag F.PG_STAT_out_high p = h ∧ n.flag F.PG_STAT_out_low p = !h) ∧
          (dt ≠ 0 → n.flag F.PG_STAT_out_high p = false ∧ n.flag F.PG_STAT_out_low p = false ∧
            (n.pg p).wait = some (h, 16 * d.time + six + dt)))) ∧
    (∀ (six : Fin 16) (p : Fin 64) hi at16, (d.pg p).wait = some (hi, at16) → at16 ≤ 16 * d.time + six →
      Does s (.deadTimeExpiry t six p) fun n =>
        (n.pg p).wait = none ∧ n.flag F.PG_STAT_out_high p = hi ∧ n.flag F.PG_STAT_out_low p = !hi)

/-! ### Power ports (chapter 03) -/

/-- R64, R72, R73, R76 and R77: DRIVER_INPUT_CHANGE, UVLO and SUPPLY_HIGH. A gate is decided by the first row of R77 that applies, one
clause for each; below them stand a supply under its falling threshold, which R70 holds off, and a device that sleeps or is held in reset
(R386, R393; log entry 64). The trickle pump of a heavy port supplies the bootstrap at and above the rising threshold only. -/
def Obligations.DriversDecide : Prop :=
  ∀ (s : State) (t : Nat), let d := s.now t
    (∀ (p : Fin 64) at0 hi lo r hiMv loMv, (d.port p).flight = (at0, hi, lo) :: r → at0 / 16 ≤ d.time → (d.port p).linkDown = false →
      Does s (.driverInputChange t p hiMv loMv) fun n =>
        (n.port p).flight = r ∧ (n.drv p true).cmd = hi ∧ (n.drv p false).cmd = lo ∧
        (n.drv p true).gate = n.gateWant p true ∧ (n.drv p false).gate = n.gateWant p false ∧
        (hi = true → lo = true → n.flag F.PP_STAT_interlock p = true ∧ (n.drv p true).gate = false ∧ (n.drv p false).gate = false) ∧
        (hi ≠ lo → n.flag F.PP_STAT_interlock_live p = false) ∧
        (heavyPort p = true → (n.port p).pump = Nat.ble (d.uvloRise p) hiMv) ∧
        let k := portStage p
        let row1 := d.fenced Kind.port p || (d.port p).readmitted || !d.flag F.PP_CFG_enable p
        let row2 (b : Bool) := n.flag (uvloLive b) p
        let row3 := n.flag F.PP_STAT_interlock_live p
        let row4 := heavyPort p && (d.port p).laneDown
        let powered (b : Bool) := !d.pw.asleep && !d.pw.held && Nat.ble (d.uvloFall p) (if b then hiMv else loMv)
        ∀ b, (row1 = true → (n.drv p b).gate = false) ∧ (row2 b = true → (n.drv p b).gate = false) ∧
          (row3 = true → (n.drv p b).gate = false) ∧ (row4 = true → (n.drv p b).gate = false) ∧
          ((row1 || row2 b || row3 || row4) = false → powered b = true →
            (d.flag F.WM_SW_STAT_held k = true → d.rd F.WM_SW_STAT_action k = 1 → (n.drv p b).gate = false) ∧
            (d.flag F.WM_SW_STAT_held k = true → d.rd F.WM_SW_STAT_action k = 2 → (d.stop k).lowWait = false → (n.drv p b).gate = !b) ∧
            (d.flag F.WM_SW_STAT_held k = false → (n.drv p b).gate = if b then hi else lo))) ∧
    (∀ (p : Fin 64) hi mv, mv < d.uvloFall p → d.flag (uvloLive hi) p = false →
      Does s (.uvlo t p hi mv) fun n =>
        n.flag (uvloLive hi) p = true ∧ n.flag F.PP_STAT_uvlo p = true ∧ (n.drv p hi).gate = false ∧
        n.rd F.PP_CNT_uvlo p = min (d.rd F.PP_CNT_uvlo p + 1) 255 ∧
        (hi = true → heavyPort p = true → (n.port p).pump = false)) ∧
    (∀ (src : Fin 15) mv, (if src.val = 14 then 16000 else 26000) < mv →
      Does s (.supplyHigh t src mv) fun n =>
        ∀ p ∈ (if src.val = 14 then (List.range 22).map (42 + ·) else stagePorts src), n.flag F.PP_STAT_supply_high p = true ∧
          ∀ hi, (n.drv p hi).gate = (d.drv p hi).gate)

/-- R62 to R64, R66, R67, R69 and R70: GATE_EDGE_START, PLATEAU_ENTRY, PLATEAU_EXIT, SEG_TIMEOUT and EDGE_COMPLETE. An edge sources or sinks
its segment's current; one whose gate comes within 0.5 V of its level is complete and leaves it held there, and the charging switch of the
low driver conducts as its gate and the switch node say. That a supply that measures nothing is not present and that a plateau exit after a timed-out entry needs no voltage is the model's choice (log entry 66). -/
def Obligations.EdgesInSegments : Prop :=
  ∀ (s : State) (t : Nat) (p : Fin 64) (hi : Bool), let d := s.now t; let e := d.edge p hi
    (e.requested = true → e.since + (if heavyPort p then 16 else 12) ≤ d.time → Does s (.gateEdgeStart t p hi) fun n =>
      (n.edge p hi).active = true ∧ (n.edge p hi).seg = 1 ∧ (n.edge p hi).on = e.on ∧ (n.edge p hi).startedAt = d.time ∧
      (e.on = true → n.clamped p hi = false) ∧
      (heavyPort p = true → (d.drv p hi).mv ≠ 0 → d.pw.held = false →
        n.gateDrive p hi = if e.on then .source (3 * d.rd F.PP_ON_SEG_i1 p) else .sink (3 * d.rd F.PP_OFF_SEG_i1 p))) ∧
    (heavyPort p = true → e.active = true → d.autoDetect p e.on = true →
      (∀ first slope mv, e.seg = 1 → e.startedAt + 8 ≤ d.time → slope * d.plateauDivisor p e.on < first →
        Does s (.plateauEntry t p ⟨hi, first, slope, mv⟩) fun n =>
          (n.edge p hi).seg = 2 ∧ (n.edge p hi).d1 = d.time - e.since ∧ (n.edge p hi).since = d.time ∧ (n.edge p hi).entryMv = mv) ∧
      (∀ mv, e.seg = 2 → (e.timeout = true ∨ 1000 ≤ if e.on then mv - e.entryMv else e.entryMv - mv) →
        Does s (.plateauExit t p ⟨hi, mv⟩) fun n =>
          (n.edge p hi).seg = 3 ∧ (n.edge p hi).d2 = d.time - e.since ∧ (n.edge p hi).since = d.time)) ∧
    (heavyPort p = true → e.active = true → (e.seg = 1 ∨ e.seg = 2) → e.since + d.segLimit p e.seg e.on ≤ d.time →
      Does s (.segTimeout t p hi) fun n =>
        (n.edge p hi).seg = e.seg + 1 ∧ (n.edge p hi).since = d.time ∧
        (d.autoDetect p e.on = true → n.flag F.PP_STAT_seg_timeout p = true ∧ (n.edge p hi).timeout = true)) ∧
    (∀ mv hk : Int, e.active = true → e.seg = (if heavyPort p then 3 else 1) → (mv - d.levelMv p hi e.on).natAbs ≤ 500 →
     Does s (.edgeComplete t p ⟨hi, mv⟩) fun n =>
      (n.edge p hi).active = false ∧ n.flag (gateSensed hi) p = e.on ∧
      n.clamped p hi = (!e.on && (d.drv p hi).mv != 0 && d.flag F.PP_CFG_miller_clamp p) ∧
      (heavyPort p = true → e.on = true →
        n.rd F.PP_EDGE_ON_seg1 p = min 255 (e.d1 / 2) ∧ n.rd F.PP_EDGE_ON_seg2 p = min 1023 (e.d2 / 2) ∧
        n.rd F.PP_EDGE_ON_seg3 p = min 255 ((d.time - e.since) / 2)) ∧
      (heavyPort p = true → e.on = false → n.rd F.PP_EDGE_OFF_seg1 p = min 255 (e.d1 / 2)) ∧
      (hi = false → n.charges p hk = (heavyPort p && e.on && Nat.ble hk.natAbs 3000)) ∧
      (heavyPort p = true → e.was = none → d.pw.held = false → 14000 + 1000 * (d.rd F.PP_CFG_von p : Int) - d.voffMv p + 500 ≤ (d.drv p hi).mv →
        n.gateDrive p hi = .hold (if e.on then 14000 + 1000 * d.rd F.PP_CFG_von p else d.voffMv p)))

/-- R74 and R75: GATE_MONITOR_CHECK, GATE_MISMATCH, LINK_DOWN, TRIP_LANE_DOWN and LINK_RESUME. -/
def Obligations.MonitorsAndLinks : Prop :=
  ∀ (s : State) (t : Nat) (p : Fin 64), let d := s.now t
    (∀ hi mv, d.flag F.PP_MON_enable p = true → (d.edge p hi).checked = false →
      (d.edge p hi).startedAt + 2 * d.rd F.PP_MON_window p ≤ d.time →
      Does s (.gateMonitorCheck t p hi mv) fun n =>
        (n.edge p hi).checked = true ∧ (n.drv p hi).gate = (d.drv p hi).gate ∧
        (gateLevel p mv ≠ some (d.drv p hi).gate → n.flag F.PP_STAT_gate_mismatch p = true ∧
          n.rd F.PP_CNT_mismatch p = min (d.rd F.PP_CNT_mismatch p + 1) 255)) ∧
    (∀ hi mv, d.flag F.PP_MON_enable p = true → (d.edge p hi).active = false → (d.edge p hi).requested = false →
      gateLevel p mv ≠ some (d.drv p hi).gate →
      Does s (.gateMismatch t p hi mv) fun n =>
        n.flag F.PP_STAT_gate_mismatch p = true ∧ (n.drv p hi).gate = (d.drv p hi).gate ∧
        n.rd F.PP_CNT_mismatch p = min (d.rd F.PP_CNT_mismatch p + 1) 255) ∧
    (heavyPort p = true → (d.port p).linkDown = false → Does s (.linkDown t p) fun n =>
      (n.port p).linkDown = true ∧ n.flag F.PP_STAT_link_down p = true ∧ n.flag F.PP_STAT_link_live p = true ∧
      (n.drv p true).gate = false ∧ (n.drv p false).gate = false) ∧
    (heavyPort p = true → (d.port p).laneDown = false → Does s (.tripLaneDown t p) fun n =>
      (n.port p).laneDown = true ∧ n.flag F.PP_STAT_link_down p = true ∧ n.flag F.PP_STAT_link_live p = true ∧
      (n.drv p true).gate = false ∧ (n.drv p false).gate = false) ∧
    (∀ hiMv loMv, (d.port p).linkDown = true → Does s (.linkResume t p false hiMv loMv) fun n =>
      (n.port p).linkDown = false ∧ (n.drv p true).cmd = d.flag F.PG_STAT_out_high p ∧
      (n.drv p false).cmd = d.flag F.PG_STAT_out_low p ∧ n.flag F.PP_STAT_link_live p = (d.port p).laneDown) ∧
    (∀ hiMv loMv, (d.port p).laneDown = true → Does s (.linkResume t p true hiMv loMv) fun n =>
      (n.port p).laneDown = false ∧ (n.drv p true).gate = n.gateWant p true ∧ (n.drv p false).gate = n.gateWant p false ∧
      n.flag F.PP_STAT_link_live p = (d.port p).linkDown)

/-! ### Shunt sensing (chapter 04) -/

/-- R5, R84, R85, R93, R94, R112: SHUNT_CONVERSION_DONE, HOUSEKEEPING_START and HOUSEKEEPING_RESULT. A
current or voltage at the end of its format sets SH_STAT.sat, and a light shunt that waited is late (log entry 66). -/
def Obligations.ShuntRecords : Prop :=
  ∀ (s : State) (t : Nat), let d := s.now t
    (∀ (k : Fin 21) (isB : Bool) code shift (x : Samp), heavyStage k = true → d.dueSample k isB = some x → x.arrival + 80 ≤ d.time →
      let c := shuntCode k code
      let stamp := x.beatAt + x.inst.at16 / 16
      let sat := endValue k c || outOf32 (d.shuntAmps k c)
      Does s (.shuntConversionDone t k isB code shift) fun n =>
        n.rd (if isB then F.SH_RES_B else F.SH_RES_A) k = (sat32 (d.shuntAmps k c)).toNat ∧
        n.rd (if isB then F.SH_INFO_B else F.SH_INFO_A) k = (infoWord x.inst sat (d.offAt k (stamp + 120)) false x.beat).toNat ∧
        (if isB then n.rd64 F.SH_STAMP_B_LO F.SH_STAMP_B_HI k else n.rd64 F.SH_STAMP_A_LO F.SH_STAMP_A_HI k) = stamp % 2 ^ 64 ∧
        x ∉ (n.shunt k).due ∧ (sat = true → n.flag F.SH_STAT_sat k = true)) ∧
    (∀ (k : Fin 21) (isB : Bool) code late (x : Samp) since, heavyStage k = false →
      (d.conv (lightConv k)).running = some (.shunt k isB x.beat, since) → since + 152 ≤ d.time →
      (d.shunt k).due.find? (fun y => y.isB == isB && y.beat == x.beat) = some x →
      let c := shuntCode k code
      let wait := since - x.arrival
      let stamp := x.beatAt + x.inst.at16 / 16 + if wait = 0 then 0 else max wait (min late (wait + 8))
      Does s (.shuntConversionDone t k isB code late) fun n =>
        n.rd (if isB then F.SH_RES_B else F.SH_RES_A) k = (sat32 (d.shuntAmps k c)).toNat ∧
        (if isB then n.rd64 F.SH_STAMP_B_LO F.SH_STAMP_B_HI k else n.rd64 F.SH_STAMP_A_LO F.SH_STAMP_A_HI k) = stamp % 2 ^ 64 ∧
        x ∉ (n.shunt k).due ∧ (endValue k c || outOf32 (d.shuntAmps k c) → n.flag F.SH_STAT_sat k = true) ∧
        (n.conv (lightConv k)).freeAt = d.time) ∧
    (∀ k : Fin 14, d.flag F.TB_STG_CFG_enable k = false → d.time % 20000 = 0 → (d.shunt k).hk = 0 →
      Does s (.housekeepingStart t k) fun n => (n.shunt k).hk = 1 ∧ (n.shunt k).hkUpd = d.upd k) ∧
    (∀ (k : Fin 14) code, d.shuntHolds k = true → Does s (.housekeepingResult t k code) fun n =>
      (n.shunt k).hk = (d.shunt k).hk ∧ n.rd F.SH_DV k = d.rd F.SH_DV k ∧ n.rd F.SH_PV k = d.rd F.SH_PV k ∧
      n.rd F.SH_TN k = d.rd F.SH_TN k) ∧
    (∀ (k : Fin 14) code, d.shuntHolds k = false → let c := code % 16384
      ((d.shunt k).hk = 1 → Does s (.housekeepingResult t k code) fun n =>
        n.rd F.SH_DV k = (scaleVolts c (d.rd F.SH_DV_SCALE k)).toNat ∧ (n.shunt k).hk = 2 ∧
        (outOf32 (volts c (d.rd F.SH_DV_SCALE k)) = true → n.flag F.SH_STAT_sat k = true)) ∧
      ((d.shunt k).hk = 2 → Does s (.housekeepingResult t k code) fun n =>
        n.rd F.SH_PV k = (if k < 8 then (scaleVolts c (d.rd F.SH_PV_SCALE k)).toNat else c) ∧ (n.shunt k).hk = 3) ∧
      ((d.shunt k).hk = 3 → Does s (.housekeepingResult t k code) fun n => n.rd F.SH_TN_code k = c) ∧
      ((d.shunt k).hk = 4 → Does s (.housekeepingResult t k code) fun n =>
        (n.shunt k).rotation = ((d.shunt k).rotation + 1) % 4))

/-- R83, R95: CAL_OFFSET, CAL_GAIN, CAL_BOTH and CALIBRATION_DONE. The first three come while the copies execute (log entry 70);
the bounds are tested on the rounded values (log entry 66). -/
def Obligations.Calibration : Prop :=
  ∀ (s : State) (t : Nat) (k : Fin 21), let d := s.now t
    (∀ c op, c = Instr.calOffset t k ∧ op = CalOp.offset ∨ c = Instr.calGain t k ∧ op = CalOp.gain ∨
        c = Instr.calBoth t k ∧ op = CalOp.both →
      d.fwStores = true →
      (d.flag F.TB_STG_RUN_run k = false → Does s c fun n => (n.shunt k).cal = some op ∧ n.flag F.SH_CAL_CTRL_busy k = true ∧
        (heavyStage k = false → d.fenced Kind.logicConv (lightConv k) = false → (n.conv (lightConv k)).holdsUrgent (.cal k) = true)) ∧
      (d.flag F.TB_STG_RUN_run k = true → Does s c fun n =>
        n.flag F.SH_CAL_CTRL_busy k = false ∧ n.rd F.SH_CAL_CTRL_status k = Code.STAGE_RUNNING ∧ (n.shunt k).cal = (d.shunt k).cal)) ∧
    (∀ op zero plus minus, let q := d.shunt k
      q.cal = some op → (heavyStage k = true ∨ q.calTaken = op.conversions) →
      let off := calOffset16 (if heavyStage k then calSum k zero else q.calZero)
      let gain := if heavyStage k then calGainPpm k (calSum k plus) (calSum k minus) else calGainPpm k q.calPlus q.calMinus
      let good := (op ≠ .gain → -1024 ≤ off ∧ off ≤ 1024) ∧ (op ≠ .offset → -20000 ≤ gain ∧ gain ≤ 20000)
      Does s (.calibrationDone t k zero plus minus) fun n =>
        (n.shunt k).cal = none ∧ n.flag F.SH_CAL_CTRL_busy k = false ∧
        (good → n.rd F.SH_CAL_CTRL_status k = Code.OK ∧
          n.rdInt F.SH_CAL_RES_offset k = (if op = .gain then d.rdInt F.SH_CAL_RES_offset k else off) ∧
          n.rdInt F.SH_CAL_RES_gain_err k = (if op = .offset then d.rdInt F.SH_CAL_RES_gain_err k else gain)) ∧
        (¬ good → n.rd F.SH_CAL_CTRL_status k = Code.BROKEN ∧ n.rd F.SH_CAL_RES k = d.rd F.SH_CAL_RES k))

/-! ### Converters, comparators and stopwork (chapter 05) -/

/-- R5, R102 to R106: CONVERSION_DONE, OW_SETTLE_EXPIRY, CV_PASS_START, URGENT_REQUEST and URGENT_CONVERSION_DONE. A conversion takes
190 ns, 152 ticks, at least; one that an urgent conversion meets is abandoned. -/
def Obligations.ConverterPasses : Prop :=
  ∀ (s : State) (t : Nat) (c : Fin 6), let d := s.now t; let v := d.conv c; let e := d.rd F.CV_STAT_entry c
    (∀ code hold, let x := entryCode (d.rd2 F.CV_ENT_kind c e) code; let n := 2 ^ d.rd2 F.CV_ENT_avg c e
      let mean := roundDiv (v.sum + x) n
      d.flag F.CV_STAT_busy c = true → d.fenced Kind.logicConv c = false → v.phase = 0 →
      ((d.takeTriggers c).conv c).running = none → v.freeAt ≤ hold → hold + 152 ≤ d.time →
      let exact := roundDiv ((mean - signed 18 (d.rd2 F.CV_OFFS_offset c e)) * (BitVec.ofNat 32 (d.rd2 F.CV_SCALE c e)).toInt) 256
      Does s (.conversionDone t c code hold) fun m =>
        (v.taken + 1 < n → (m.conv c).sum = v.sum + x ∧ (m.conv c).taken = v.taken + 1 ∧ m.rd F.CV_STAT_entry c = e) ∧
        (n ≤ v.taken + 1 →
          m.rd2 F.CV_RES c e = (sat32 exact).toNat ∧
          m.rd2 F.CV_RAW_sat c e = b2n (v.sat || entryEnd (d.rd2 F.CV_ENT_kind c e) code || outOf32 exact) ∧
          m.rd2 F.CV_RAW_code c e = unsigned 16 mean ∧ m.rd2 F.CV_RAW_valid c e = 1 ∧ m.rd2 F.CV_STAMP c e = hold % 2 ^ 32)) ∧
    (∀ code hold, ((d.takeTriggers c).conv c).running ≠ none → Does s (.conversionDone t c code hold) fun m =>
      (m.conv c).sum = v.sum ∧ (m.conv c).taken = v.taken ∧ m.rd2 F.CV_RES c e = d.rd2 F.CV_RES c e ∧ m.rd F.CV_STAT_entry c = e) ∧
    (∀ code hold, d.flag F.CV_STAT_busy c = true → d.fenced Kind.logicConv c = false → v.phase = 2 →
      ((d.takeTriggers c).conv c).running = none → v.freeAt ≤ hold → hold + 152 ≤ d.time →
      let bad := decide (64 * d.rd2 F.CV_ENT_ow_limit c e < (entryCode (d.rd2 F.CV_ENT_kind c e) code - v.normal).natAbs)
      Does s (.conversionDone t c code hold) fun m =>
        m.rd2 F.CV_RAW_broken c e = b2n bad ∧ (bad = true → m.flag F.CV_STAT_broken c = true)) ∧
    (v.phase = 1 → ((d.takeTriggers c).conv c).running = none → v.owAt + 80 * d.rd F.CV_CFG_ow_time c ≤ d.time →
      Does s (.owSettleExpiry t c) fun m => (m.conv c).phase = 2 ∧ (m.conv c).normal = v.normal) ∧
    (∀ stamp r, let u := d.rd F.CV_CFG_trigger c
      d.fired u = stamp :: r → d.rd F.CV_CFG_mode c = 2 → stamp / 16 + 120 ≤ d.time → d.holderOf 2 u = some (Kind.logicConv, c.val) →
      d.fenced Kind.logicConv c = false →
      Does s (.cvPassStart t c) fun m => m.fired u = r ∧
        (d.flag F.CV_STAT_busy c = true → m.flag F.CV_STAT_overrun c = true ∧
          m.rd F.CV_STAT_overrun_cnt c = min (d.rd F.CV_STAT_overrun_cnt c + 1) 65535) ∧
        (d.flag F.CV_STAT_busy c = false → d.holds Kind.logicConv c (d.convSelects c) = true →
          m.flag F.CV_STAT_busy c = true ∧ m.rd F.CV_STAT_entry c = 0 ∧ (m.conv c).pass = v.pass + 1)) ∧
    (∀ w : Word, let kind := getBits w 0 3; let index := getBits w 3 6
      d.fwStores = true → d.fenced Kind.logicConv c = false → d.flag F.CV_URG_busy c = false → index < inputRange kind →
      Does s (.urgentRequest t c w) fun m =>
        m.rd F.CV_URG_kind c = kind ∧ m.rd F.CV_URG_index c = index ∧
        (d.mayUrge c kind index = true → m.flag F.CV_URG_busy c = true ∧ m.flag F.CV_STAT_urgent c = true ∧
          (m.conv c).holdsUrgent .sc = true) ∧
        (d.mayUrge c kind index = false → m.flag F.CV_URG_busy c = false ∧ m.rd F.CV_URG_status c = Code.CLAIMED)) ∧
    (∀ code since, ((d.takeTriggers c).conv c).running = some (.sc, since) → since + 152 ≤ d.time →
      Does s (.urgentConversionDone t c code) fun m =>
        m.rd F.CV_URG_RES_code c = code % 65536 ∧ m.flag F.CV_URG_busy c = false ∧ m.rd F.CV_URG_status c = Code.OK ∧
        (m.conv c).freeAt = d.time) ∧
    (∀ code since k op, ((d.takeTriggers c).conv c).running = some (.cal k, since) → since + 152 ≤ d.time → (d.shunt k).cal = some op →
      Does s (.urgentConversionDone t c code) fun m => (m.shunt k).calTaken = (d.shunt k).calTaken + 1 ∧ (m.conv c).freeAt = d.time)

/-- R107 to R111, R113, R114: COMPARATOR_CROSSING, FILTERED_OUTPUT_CHANGE, LATCH_CLEAR and EDGE_FLAG_EDGE. -/
def Obligations.ComparatorsAndEdgeFlags : Prop :=
  ∀ (s : State) (t : Nat), let d := s.now t
    (∀ (c : Cmp) (x : Int), Does s (.comparatorCrossing t c x) fun n =>
      let v := d.cmp (cmpKey c); let m := n.cmp (cmpKey c)
      let (levelH, hystH) := d.cmpLevels c true; let (levelL, hystL) := d.cmpLevels c false
      m.input = x ∧
      (d.cmpEnabled c true = true → (levelH < x → m.hi.raw = true) ∧ (x < levelH - hystH → m.hi.raw = false) ∧
        (levelH - hystH ≤ x → x ≤ levelH → m.hi.raw = v.hi.raw)) ∧
      (d.cmpEnabled c false = true → (x < levelL → m.lo.raw = true) ∧ (levelL + hystL < x → m.lo.raw = false) ∧
        (levelL ≤ x → x ≤ levelL + hystL → m.lo.raw = v.lo.raw))) ∧
    (∀ (c : Cmp) hi, let v := d.cmp (cmpKey c); let q := if hi then v.hi else v.lo
      d.fenced (cmpUnit c).1 (cmpUnit c).2 = false → q.raw ≠ d.cmpLive c hi → q.changedAt + d.cmpFilter c ≤ d.time →
      Does s (.filteredOutputChange t c hi) fun n => n.cmpLive c hi = q.raw ∧
        (q.raw = true → d.cmpLatches c = true → n.cmpLatched c hi = true) ∧
        (q.raw = false → n.cmpLatched c hi = d.cmpLatched c hi) ∧
        ∀ k : Fin 21, (n.source k true).isSome || (n.source k false).isSome → n.flag F.WM_SW_STAT_held k = true) ∧
    (∀ (c : Cmp) lo hi, d.fwStores = true → d.fenced (cmpUnit c).1 (cmpUnit c).2 = false → Does s (.latchClear t c lo hi) fun n =>
      n.cmpLatched c false = (d.cmpLatched c false && !(lo && !d.cmpLive c false)) ∧
      n.cmpLatched c true = (d.cmpLatched c true && !(hi && !d.cmpLive c true))) ∧
    (∀ (k : Fin 8) (x : Int) rising, let v := d.cmp (64 + k); let l := d.cmpLevels (.ef k) true
      d.flag F.WM_EF_CFG_enable k = true → d.blanked k = false →
      (∀ e, v.lastEdge = some e → e + 64 * d.rd F.WM_EF_GAP_gap k ≤ d.time) →
      v.hi.raw = !rising → (rising = true → l.1 < x) → (rising = false → x < l.1 - l.2) →
      Does s (.edgeFlagEdge t k x) fun n =>
        n.rd F.WM_EF_STAT_edges k = (d.rd F.WM_EF_STAT_edges k + 1) % 65536 ∧ n.flag F.WM_EF_STAT_live k = rising ∧
        (n.cmp (64 + k)).lastEdge = some d.time ∧
        (if rising then n.rd64 F.WM_EF_RISE_LO F.WM_EF_RISE_HI k else n.rd64 F.WM_EF_FALL_LO F.WM_EF_FALL_HI k) = d.time % 2 ^ 64) ∧
    (∀ (k : Fin 8) (x : Int), let v := d.cmp (64 + k); let l := d.cmpLevels (.ef k) true
      d.flag F.WM_EF_CFG_enable k = true → (v.hi.raw = true → l.1 - l.2 ≤ x) → (v.hi.raw = false → x ≤ l.1) →
      Does s (.edgeFlagEdge t k x) fun n => n.rd F.WM_EF_STAT_edges k = d.rd F.WM_EF_STAT_edges k ∧
        (n.cmp (64 + k)).lastEdge = v.lastEdge)

/-- R115 to R118, R120: TRIP_IN_CHANGE, LOW_DELAY_EXPIRY, FORCE_ACT, FORCE_OFF and RELEASE; the last
three come while the copies execute (log entry 70). -/
def Obligations.Stopwork : Prop :=
  ∀ (s : State) (t : Nat), let d := s.now t
    (∀ (i : Fin 4) level since, let active := level == bitOf (d.rd F.WM_SW_IN_CFG 0) (8 * i + 1)
      let filt := 4 * getBits (d.word (F.WM_SW_IN_CFG.off 0 0)) (8 * i + 2) 4
      (d.time < since + filt → Does s (.tripInChange t i ⟨level, since⟩) fun n => n.rd F.WM_SW_IN_STAT_live 0 = d.rd F.WM_SW_IN_STAT_live 0) ∧
      (since + filt ≤ d.time → Does s (.tripInChange t i ⟨level, since⟩) fun n =>
        bitOf (n.rd F.WM_SW_IN_STAT_live 0) i = active ∧ (active = true → bitOf (n.rd F.WM_SW_IN_STAT_seen 0) i = true) ∧
        ∀ k : Fin 21, (n.source k true).isSome || (n.source k false).isSome → n.flag F.WM_SW_STAT_held k = true)) ∧
    (∀ k : Fin 21, (d.stop k).lowWait = true → d.rd F.WM_SW_STAT_action k = 2 →
      d.rd64 F.WM_SW_TIME_LO F.WM_SW_TIME_HI k + 8 * d.rd F.WM_SW_ACT_low_delay k ≤ d.time →
      Does s (.lowDelayExpiry t k) fun n => (n.stop k).lowWait = false ∧
        ∀ p ∈ stagePorts k, n.flag F.PG_STAT_out_low p = true ∧ n.flag F.PG_STAT_out_high p = false) ∧
    (∀ (k : Fin 21) c off, c = Instr.forceAct t k ∧ off = false ∨ c = Instr.forceOff t k ∧ off = true →
      d.fwStores = true → Does s c fun n =>
      n.rd F.WM_SW_CTRL_status k = Code.OK ∧ n.flag F.WM_SW_STAT_held k = true ∧
      (d.flag F.WM_SW_STAT_held k = false →
        n.flag F.TB_STG_RUN_run k = false ∧ n.flag F.TB_STG_STAT_tripped k = true ∧
        n.rd64 F.WM_SW_TIME_LO F.WM_SW_TIME_HI k = d.time % 2 ^ 64 ∧ ∀ p ∈ stagePorts k, n.flag F.PG_STAT_out_high p = false) ∧
      (off = true → d.flag F.WM_SW_STAT_held k = false ∨ d.rd F.WM_SW_STAT_action k = 2 →
        n.rd F.WM_SW_STAT_action k = 1 ∧ ∀ p ∈ stagePorts k, n.flag F.PG_STAT_out_low p = false) ∧
      (off = false → d.flag F.WM_SW_STAT_held k = false → d.source k true = none →
        n.rd F.WM_SW_STAT_action k = if d.lowOnAction k then 2 else 1)) ∧
    (∀ k : Fin 21, d.fwStores = true → (d.nothingHolds k → Does s (.release t k) fun n =>
        n.flag F.WM_SW_STAT_held k = false ∧ n.flag F.TB_STG_STAT_tripped k = false ∧ (n.stop k).force = none ∧
        bitOf (n.rd F.WM_SW_HELD 0) k = false ∧ n.rd F.WM_SW_CTRL_status k = Code.OK) ∧
      (¬ d.nothingHolds k → Does s (.release t k) fun n =>
        n.flag F.WM_SW_STAT_held k = d.flag F.WM_SW_STAT_held k ∧ n.rd F.WM_SW_HELD 0 = d.rd F.WM_SW_HELD 0 ∧
        n.stop k = d.stop k ∧
        (d.flag F.FAB_WRITE_ERR_valid 0 = false → n.rd F.FAB_WRITE_ERR_reason 0 = Reason.value)))

/-! ### Position and speed (chapter 06) -/

/-- R127 to R132: LINE_CHANGE, ILL_WINDOW_EXPIRY, BROKEN, BROKEN_LIVE_CLEAR and PERIOD_TIMEOUT. That a fenced port goes on watching its
lines is the model's choice (log entry 67). -/
def Obligations.LinesAndCounts : Prop :=
  (∀ x ∈ [((0 : BitVec 3), (1 : BitVec 3)), (1, 3), (3, 2), (2, 0)], quadStep x.1 x.2 = .edge true ∧ quadStep x.2 x.1 = .edge false) ∧
  (∀ x ∈ [((1 : BitVec 3), (3 : BitVec 3)), (3, 2), (2, 6), (6, 4), (4, 5), (5, 1)],
    hallStep false x.1 x.2 = .edge true ∧ hallStep false x.2 x.1 = .edge false) ∧
  ∀ (s : State) (t : Nat) (i : Fin 6), let d := s.now t; let v := d.pos i
    (∀ l since stamp up, let p := (d.linesOf i l).1
      d.psOn i = true → d.psMode i ≤ 3 → 1 ≤ d.psMode i → d.filtered i since stamp = true →
      (if d.psMode i = 1 then quadStep v.prim p else hallStep (d.flag F.PS_HALL_CFG_rev i) v.prim p) = .edge up →
      Does s (.lineChange t i l since stamp) fun n =>
        n.count i = signed 64 (unsigned 64 (d.count i + if up != d.flag F.PS_CFG_invert i then 1 else -1)) ∧
        n.rd64 F.PS_EDGE_TIME_LO F.PS_EDGE_TIME_HI i = stamp % 2 ^ 64 ∧ (n.pos i).prim = p) ∧
    (∀ l since stamp, let p := (d.linesOf i l).1
      d.psOn i = true → d.psMode i ≤ 2 → 1 ≤ d.psMode i → d.filtered i since stamp = true →
      (if d.psMode i = 1 then quadStep v.prim p else hallStep (d.flag F.PS_HALL_CFG_rev i) v.prim p) = .illegal →
      Does s (.lineChange t i l since stamp) fun n =>
        n.flag F.PS_STAT_illegal i = true ∧ n.count i = d.count i ∧
        n.rd F.PS_ILL_CNT_total i = min (d.rd F.PS_ILL_CNT_total i + 1) 65535 ∧ n.rd F.PS_ILL_CNT_window i = min (v.winCnt + 1) 255 ∧
        (d.rd F.PS_ILL_CFG_ill_limit i < v.winCnt + 1 → n.fenced Kind.posPort i = true ∧ n.fenced Kind.observer i = true)) ∧
    (∀ l since stamp, d.time < since + 4 * (d.rd F.PS_CFG_filt i + 1) → Does s (.lineChange t i l since stamp) fun n =>
      n.count i = d.count i ∧ n.pos i = v) ∧
    (d.fenced Kind.posPort i = false → d.illWindowEnd i ≤ d.time → Does s (.illWindowExpiry t i) fun n =>
      n.rd F.PS_ILL_CNT_window i = 0 ∧ (n.pos i).winCnt = 0 ∧ (n.pos i).winAt = d.illWindowEnd i) ∧
    (∀ (cause : Fin 7) x since, d.psOn i = true → d.brokenNow i cause x since = true → cause.val ∉ v.broken →
      Does s (.broken t i ⟨⟨cause, x⟩, since⟩) fun n =>
        (n.pos i).broken = v.broken ++ [cause.val] ∧ n.flag F.PS_STAT_broken_live i = true ∧ n.flag F.PS_STAT_broken i = true) ∧
    (∀ (cause : Fin 7) x, d.psWatches i = false ∨ d.brokenNow i cause x 0 = false → Does s (.brokenLiveClear t i ⟨cause, x⟩) fun n =>
      (n.pos i).broken = v.broken.erase cause.val ∧ n.flag F.PS_STAT_broken_live i = !(v.broken.erase cause.val).isEmpty) ∧
    (∀ (cause : Fin 7) x, d.psWatches i = true → d.brokenNow i cause x 0 = true → Does s (.brokenLiveClear t i ⟨cause, x⟩) fun n =>
      (n.pos i).broken = v.broken) ∧
    (d.fenced Kind.posPort i = false → d.rd64 F.PS_EDGE_TIME_LO F.PS_EDGE_TIME_HI i + 80000000 ≤ d.time →
      Does s (.periodTimeout t i false) fun n => n.rd F.PS_PERIOD i = 0) ∧
    (d.fenced Kind.posPort i = false → v.secEdge + 80000000 ≤ d.time → Does s (.periodTimeout t i true) fun n =>
      n.rd F.PS_SEC_SPEED i = 0)

/-- R133, R134 and R136: SSI_START, SSI_FRAME_DONE and RESOLVER_ENVELOPE. That a good amplitude mends cause 4, and the scale of the sum of
sixteen samples, are the model's (log entry 67). -/
def Obligations.AbsoluteSensors : Prop :=
  ∀ (s : State) (t : Nat) (i : Fin 6), let d := s.now t; let v := d.pos i
    (d.psOn i = true → d.psMode i = 4 →
      (d.rd F.PS_SSI_RUN_start i = 2 ∧ v.ssiDue ≤ d.time) ∨
        (d.rd F.PS_SSI_RUN_start i ≠ 2 ∧ (d.takeFiring (64 + d.rd F.PS_SSI_RUN_trigger i)).isSome) →
      Does s (.ssiStart t i) fun n =>
        (v.ssiBusy = false → v.ssiReady ≤ d.time → (n.pos i).ssiBusy = true ∧ (n.pos i).ssiStamp = d.time) ∧
        (v.ssiBusy = true ∨ d.time < v.ssiReady → n.flag F.PS_STAT_overrun i = true ∧ (n.pos i).ssiBusy = v.ssiBusy ∧
          (n.pos i).ssiStamp = v.ssiStamp) ∧
        (d.rd F.PS_SSI_RUN_start i = 2 → (n.pos i).ssiDue = v.ssiDue + 80 * d.rd F.PS_SSI_RUN_period i)) ∧
    (∀ bits, let b := bits % 2 ^ d.rd F.PS_SSI_CFG_frame i
      v.ssiBusy = true → v.ssiStamp + d.frameTicks i ≤ d.time → Does s (.ssiFrameDone t i bits) fun n =>
        (n.pos i).ssiBusy = false ∧ (n.pos i).ssiReady = d.time + 800 * d.rd F.PS_SSI_TIM_recovery i ∧
        n.rd64 F.PS_SSI_RAW_LO F.PS_SSI_RAW_HI i =
          (if d.fenced Kind.posPort i then d.rd64 F.PS_SSI_RAW_LO F.PS_SSI_RAW_HI i else b) ∧
        (d.psOn i = true → d.frameGood i b = false →
          n.flag F.PS_STAT_illegal i = true ∧ n.count i = d.count i ∧ (n.pos i).lastMeas = v.lastMeas) ∧
        (d.psOn i = true → d.frameGood i b = true → v.seeded = false →
          (n.pos i).lastMeas = d.framePos i b ∧ (n.pos i).seeded = !d.measBroken i)) ∧
    (∀ (j : Fin 2) sine cosine second stamp phase, let v := d.pos j
      let sum (xs : List Int) := halfSum (phase % 256) (d.rd F.PS_RES_CFG_demod_phase j) second (xs.take 16)
      let amp := isqrt ((sum sine * sum sine + sum cosine * sum cosine).natAbs) / 128
      d.psMode j = 5 → d.halfDone j stamp = true →
      Does s (.resolverEnvelope t j sine cosine ⟨second, stamp⟩ phase) fun n =>
        (d.fenced Kind.posPort j = false →
          n.rd F.PS_RES_ENV_sine j = unsigned 16 (sum sine) ∧ n.rd F.PS_RES_ENV_cosine j = unsigned 16 (sum cosine) ∧
          n.rd F.PS_RES_MEAS_amplitude j = min 255 amp ∧ n.rd F.PS_RES_MEAS_exc_phase j = phase % 256) ∧
        (d.fenced Kind.posPort j = true → n.count j = d.count j ∧ n.rd F.PS_RES_ENV j = d.rd F.PS_RES_ENV j ∧
          n.rd F.PS_RES_MEAS j = d.rd F.PS_RES_MEAS j) ∧
        (d.psOn j = true → amp < d.rd F.PS_RES_AMP_amp_lo j ∨ d.rd F.PS_RES_AMP_amp_hi j < amp →
          4 ∈ (n.pos j).broken ∧ n.count j = d.count j) ∧
        (d.psOn j = true → d.rd F.PS_RES_AMP_amp_lo j ≤ amp → amp ≤ d.rd F.PS_RES_AMP_amp_hi j → v.broken = [] ∨ v.broken = [4] →
          sum sine ≠ 0 ∨ sum cosine ≠ 0 → v.seeded = false →
          (n.pos j).lastMeas = resolverAngle (sum sine) (sum cosine) ∧ (n.pos j).seeded = true ∧ (n.pos j).broken = []))

/-- R137 to R145: PRESET, OBSERVER_UPDATE, OBSERVER_LATCH, COMPARE_ARM and REPEATER_EDGE. PRESET and COMPARE_ARM come while
the copies execute (log entry 70). -/
def Obligations.ObserversComparesRepeaters : Prop :=
  ∀ (s : State) (t : Nat) (i : Fin 6), let d := s.now t; let v := d.pos i
    (d.fwStores = true → d.fenced Kind.posPort i = false → Does s (.preset t i) fun n =>
      n.count i = d.rdI64 F.PS_PRESET_LO F.PS_PRESET_HI i ∧ n.rd F.PS_CTRL_status i = Code.OK ∧
      (n.pos i).pos = v.pos + 65536 * (d.rdI64 F.PS_PRESET_LO F.PS_PRESET_HI i - d.count i) ∧
      (n.pos i).edge = v.edge.map fun e => (e.1 + (d.rdI64 F.PS_PRESET_LO F.PS_PRESET_HI i - d.count i), e.2)) ∧
    (d.fwStores = true → d.fenced Kind.posPort i = true → Does s (.preset t i) fun n =>
      n.count i = d.count i ∧ n.rd F.PS_CTRL_status i = Code.FENCED) ∧
    (d.psOn i = true → v.seeded = true → let T : Rat := 1 / 5000000
      let wn : Rat := Config.twoPi * (d.rd F.PS_OBS_CFG_bw i : Nat); let e := d.obsError i (v.predict T).1 (v.predict T).2
      let tol : Rat := d.rd F.PS_OBS_LOCK_lock_tol i
      Does s (.observerUpdate t i) fun n =>
        (n.pos i).pos = ratRound (((v.predict T).1 + 3 * wn * T * e) * 65536) ∧
        (n.pos i).spd = (v.predict T).2 + 3 * wn * wn * T * e ∧ (n.pos i).acc = v.acc + wn * wn * wn * T * e ∧ (n.pos i).obsAt = d.time ∧
        (-tol ≤ e → e ≤ tol → (n.pos i).within = min 64 (v.within + 1) ∧ (63 ≤ v.within → n.flag F.PS_STAT_locked i = true)) ∧
        (tol < e → (n.pos i).within = 0 ∧ (15 ≤ v.beyond → n.flag F.PS_STAT_locked i = false))) ∧
    (∀ stamp r, let u := d.rd F.PS_LATCH_CFG_trigger i
      d.flag F.PS_LATCH_CFG_enable i = true → d.holds Kind.posPort i (d.latchSelects i) = true →
      d.fired u = stamp :: r → stamp / 16 + 120 ≤ d.time →
      Does s (.observerLatch t i) fun n =>
        n.fired u = r ∧ n.rd64 F.PS_LAT_STAMP_LO F.PS_LAT_STAMP_HI i = stamp / 16 % 2 ^ 64 ∧
        n.rd F.PS_LAT_ANGLE i = d.angleOf i (v.predict (seconds v.obsAt (stamp / 16))).1 ∧
        n.rd F.PS_LAT_EANGLE i = d.eangleOf i (d.angleOf i (v.predict (seconds v.obsAt (stamp / 16))).1)) ∧
    (∀ (k : Fin 2) hi, d.fwStores = true → d.fenced Kind.posPort i = false → Does s (.compareArm t i k hi) fun n =>
      n.rd2 F.PS_CMP_HI i k = hi.toNat ∧ n.armedValue i k = n.cmpValue i k ∧
      n.rd2 F.PS_CMP_STAT_armed i k = d.rd2 F.PS_CMP_CFG_enable i k ∧
      (d.flag F.PS_STAT_still i = true → n.rd2 F.PS_CMP_STAT_status i k = Code.OK) ∧
      (d.flag F.PS_STAT_still i = false → 0 < v.spd → n.cmpValue i k ≤ d.count i →
        n.rd2 F.PS_CMP_STAT_behind i k = 1 ∧ n.rd2 F.PS_CMP_STAT_status i k = Code.BEHIND)) ∧
    (∀ j : Fin 2, let out := d.rdI64 F.EP_CNT_LO F.EP_CNT_HI j
      d.repOn j = true → d.psOn (d.rd F.EP_CFG_source j) = true →
      Does s (.repeaterEdge t j) fun n =>
        let new := n.rdI64 F.EP_CNT_LO F.EP_CNT_HI j
        let goal := d.repTarget j (d.time - 40)
        ((d.rep j).lastEdge + d.repGap j ≤ d.time →
          (out < goal → out + 1 < 2 ^ 63 → new = out + 1) ∧ (goal < out → -2 ^ 63 < out → new = out - 1) ∧ (goal = out → new = out)) ∧
        (d.time < (d.rep j).lastEdge + d.repGap j → new = out ∧ n.flag F.EP_STAT_limited j = decide (goal ≠ out)) ∧
        (d.flag F.EP_CFG_invert j = false → -2 ^ 63 < out → out + 1 < 2 ^ 63 →
          (n.rep j).a = (new % 4 == 1 || new % 4 == 2) ∧ (n.rep j).b = (new % 4 == 2 || new % 4 == 3) ∧
          (n.rep j).z = (new % (4 * d.rd F.EP_CFG_lines j : Nat) == 0)))

/-! ### Balance engines (chapter 07) -/

/-- R13, R152 to R155, R175, R187: RECORD_ARRIVAL, START_LIMIT_EXPIRY, COEFF_SWAP_REQUEST and SLACK_MIN_RESTART. Records pass each gate in
order, the start-limit token behind the latches that were sent before it, and only records of the present beat count, with a latch of the
beat for which an AUX loop waits. COEFF_SWAP_REQUEST comes while the copies execute (log entry 70). -/
def Obligations.RecordsAndReadiness : Prop :=
  ∀ (s : State) (t : Nat), let d := s.now t
    (∀ i x, d.be.flight[i]? = some x → d.nextOfGate i x = false → Does s (.recordArrival t i) fun n =>
      n.be.flight = d.be.flight ∧ ∀ k, n.recs k = d.recs k) ∧
    (∀ i k isB rec, d.be.flight[i]? = some (.shunt k isB rec (d.upd k)) → d.nextOfGate i (.shunt k isB rec (d.upd k)) = true →
      Does s (.recordArrival t i) fun n =>
      n.be.flight = d.be.flight.eraseIdx i ∧ (if isB then (n.recs k).b else (n.recs k).a) = some rec) ∧
    (∀ i k isB rec beat, d.be.flight[i]? = some (.shunt k isB rec beat) → d.nextOfGate i (.shunt k isB rec beat) = true → beat ≠ d.upd k →
      Does s (.recordArrival t i) fun n =>
      n.be.flight = d.be.flight.eraseIdx i ∧ n.recs k = d.recs k) ∧
    (∀ i k dv pv tn, d.be.flight[i]? = some (.house k dv pv tn (d.upd k)) → d.nextOfGate i (.house k dv pv tn (d.upd k)) = true →
      Does s (.recordArrival t i) fun n =>
      n.be.flight = d.be.flight.eraseIdx i ∧ (n.recs k).hk = some (dv, pv, tn)) ∧
    (∀ i p k rec beat, d.be.flight[i]? = some (.latch p k beat rec) → d.nextOfGate i (.latch p k beat rec) = true →
      Does s (.recordArrival t i) fun n =>
        let waits := ∃ l ∈ d.loops, d.rd F.BE_LP_IN_lat_port l = p ∧ d.home l = k ∧ (d.loop l).beat = beat ∧ (d.loop l).waiting = true
        n.be.flight = d.be.flight.eraseIdx i ∧ (beat = d.upd k ∨ waits → n.latRec p k = { rec with beat := some beat }) ∧
        (beat ≠ d.upd k → ¬ waits → n.latRec p k = d.latRec p k)) ∧
    (∀ i k stamp count, d.be.flight[i]? = some (.edge k true stamp count) → d.nextOfGate i (.edge k true stamp count) = true →
      Does s (.recordArrival t i) fun n =>
      n.be.flight = d.be.flight.eraseIdx i ∧ (n.recs k).rise = stamp ∧ (n.recs k).edges = count) ∧
    (∀ l : Fin 64, (d.loop l).waiting = true → (d.loop l).beatAt + d.rd F.BE_LP_IN_start_limit l ≤ d.time →
      d.latchAhead ((d.loop l).beatAt + d.rd F.BE_LP_IN_start_limit l) = true → Does s (.startLimitExpiry t l) fun n =>
        n.loop l = d.loop l ∧ n.rd F.BE_LP_MISS_input_late l = d.rd F.BE_LP_MISS_input_late l) ∧
    (∀ l : Fin 64, (d.loop l).waiting = true → (d.loop l).beatAt + d.rd F.BE_LP_IN_start_limit l ≤ d.time →
      d.latchAhead ((d.loop l).beatAt + d.rd F.BE_LP_IN_start_limit l) = false → Does s (.startLimitExpiry t l) fun n =>
        (n.loop l).waiting = false ∧ (n.loop l).readyAt = d.time ∧
        (d.allHere l = false → n.flag F.BE_LP_FLAGS_input_late l = true ∧
          n.rd F.BE_LP_MISS_input_late l = min (d.rd F.BE_LP_MISS_input_late l + 1) 65535)) ∧
    (∀ (l : Fin 64) (bank : Fin 2), d.fwStores = true → d.fenced Kind.loop l = false → Does s (.coeffSwapRequest t l bank) fun n =>
      n.rd F.BE_LP_SWAP_bank l = bank ∧ n.flag F.BE_LP_SWAP_pending l = (bank.val != d.activeBank l) ∧ n.activeBank l = d.activeBank l) ∧
    (∀ (l : Fin 64) (bank : Fin 2), d.fwStores = true → d.fenced Kind.loop l = true → Does s (.coeffSwapRequest t l bank) fun n =>
      n.rd F.BE_LP_SWAP_status l = Code.FENCED ∧ n.rd F.BE_LP_SWAP_bank l = d.rd F.BE_LP_SWAP_bank l) ∧
    (∀ m (l : Fin 64), d.mayStore m = true → d.fenced Kind.loop l = false → Does s (.slackMinRestart t m l) fun n =>
      n.rdInt F.BE_LP_SLACK_MIN_min l = 32767 ∧ n.flag F.BE_LP_SLACK_MIN_restart l = true)

/-- R176 to R180: ENGINE_STALL, RESIDUE_FAIL, DECLARE_DEAD and TAKEOVER, in which the engine declared first gets the spare; DECLARE_DEAD comes while the copies execute
(log entry 70). -/
def Obligations.DeadEnginesAndSpares : Prop :=
  ∀ (s : State) (t : Nat) (e : Fin 12), let d := s.now t
    (∀ c cause, d.fenced Kind.engine e = false →
      ((∃ r, (d.eng e).run = some r ∧ r.lastAt + 64 * d.rd F.BE_POOL_CFG_stall_limit 0 ≤ d.time) ∧ c = Instr.engineStall t e ∧ cause = 1) ∨
        (c = Instr.residueFail t e ∧ cause = 2) ∨ (∃ x : Fin 16, x.val = e.val ∧ c = Instr.declareDead t x ∧ cause = 3 ∧ d.fwStores = true) →
      Does s c fun n =>
        n.fenced Kind.engine e = true ∧ n.rd F.BE_ENG_DEAD_cause e = cause ∧ n.flag F.BE_ENG_STAT_spare e = false ∧
        n.rd64 F.BE_ENG_DEAD_TIME_LO F.BE_ENG_DEAD_TIME_HI e = d.time % 2 ^ 64 ∧
        (∀ l ∈ d.heldLoops e, (n.loop l).waiting = false ∧ (n.loop l).ready = none) ∧
        (cause = 3 → n.rd F.BE_POOL_CTRL_status 0 = Code.OK)) ∧
    (∀ x : Fin 16, d.fwStores = true → x.val = e.val → d.fenced Kind.engine e = true → Does s (.declareDead t x) fun n =>
      n.rd F.BE_POOL_CTRL_status 0 = Code.FENCED ∧ n.rd F.BE_ENG_DEAD e = d.rd F.BE_ENG_DEAD e) ∧
    Does s (.takeover t e) (fun n =>
      (d.fenced Kind.engine e = true → (n.eng e).inForce = true) ∧ (n.waitingEngine n.freeSpares.length = none ∨ n.freeSpares = [])) ∧
    (∀ w sp, d.fenced Kind.engine e = true → (d.eng e).inForce = true → d.waitingEngine 1 = some w → d.freeSpares = [sp] → w ≠ sp →
      Does s (.takeover t e) fun n =>
        n.held sp = d.held w ∧ n.held w = 0 ∧ n.flag F.BE_ENG_STAT_spare sp = false ∧
        ∀ l ∈ d.heldLoops w, n.rd F.BE_LP_STAT_engine l = sp) ∧
    (∀ x < 12, x ≠ e → d.loopsWait x = true → d.fenceHolds x = false → d.freeSpares.length = 1 →
      (∀ y < 12, y ≠ x → d.loopsWait y = true → (d.eng x).deadOrder < (d.eng y).deadOrder) →
      Does s (.takeover t e) fun n => (∀ y, n.held y = d.held y) ∧ n.rd F.BE_POOL_STAT_takeovers 0 = d.rd F.BE_POOL_STAT_takeovers 0)

/-! ### The operation set (chapter 08) -/

/-- R161, R162, R163, R168, R171 and R290: LOAD, STORE, EMIT, LIM, SEL, CMP and SLACK. A LOAD or STORE of a bank waits for its turn. -/
def Obligations.OperationsMoveValues : Prop :=
  ∀ (s : State) (t : Nat) (e : Fin 12) (r : Run), let d := s.now t; let l := r.loop; let w := d.opWord l r.pc
    let dst := opDst w; let imm := opImm w; let f := d.scale l (opMod w % 8)
    (∀ u wait, d.atOp e 0x01 r → d.opInTurn e u.others = true → Retires s (.load t e u wait) e r fun _ q =>
      (opMod w / 8 = 0 → q.raw dst = r.raw imm) ∧
      (opMod w / 8 = 1 → q.raw dst = qWord (enterLoop (wordOf r.pars (imm % 64)).toInt f)) ∧
      (opMod w / 8 = 2 → (imm % 32 = 0 → q.raw dst = qWord (enterLoop r.recs.a.current.toInt f)) ∧
        (imm % 32 = 2 → q.raw dst = qWord (enterLoop r.recs.b.current.toInt f)) ∧ (imm % 32 = 1 → q.raw dst = r.recs.a.info) ∧
        (imm % 32 = 7 → q.raw dst = r.recs.lat.angle)) ∧
      (opMod w / 8 = 4 → q.raw dst = wordOf r.xch (imm % 256)) ∧
      (opMod w / 8 = 5 → q.raw dst = if d.bankReads (d.loopBankAddr l imm) u.upset then d.bankWord (d.loopBankAddr l imm) else 0) ∧
      (opMod w / 8 = 6 → q.raw dst = qWord (signed 20 imm * 4096))) ∧
    (∀ u wait, d.opInTurn e u.others = false → Does s (.load t e u wait) fun n => n.eng e = d.eng e ∧ n.mb = d.mb) ∧
    (∀ wt, d.opInTurn e wt.turn.others = false → Does s (.store t e wt) fun n => n.eng e = d.eng e ∧ n.mb = d.mb) ∧
    (∀ wt, d.atOp e 0x02 r → d.opInTurn e wt.turn.others = true → Retires s (.store t e wt) e r fun n q =>
      (opMod w / 8 = 0 → q.raw imm = r.raw (opA w)) ∧
      (opMod w / 8 = 1 → let p := imm % 64; let tag := (r.beat + 1) % 65536
        n.tb.gate = d.tb.gate ++ [.shadow e l p (bitOf (opMod w) 1) (d.storeCompare p (r.val (opA w))) tag] ++
          if bitOf (opMod w) 2 then [.commit e l (portStage p) tag] else []) ∧
      (opMod w / 8 = 4 → wordOf q.xch (imm % 256) = r.raw (opA w) ∧ imm % 256 ∈ q.stored) ∧
      (opMod w / 8 = 5 → let a := d.loopBankAddr l imm
        d.fenceHolds e = false → d.fenced Kind.bank (bankOf a) = false → d.bankOwned (e + 1) (bankOf a) = true →
          n.bankWord a = r.raw (opA w) ∧ ∀ b, b / 4 ≠ a / 4 → n.bankByte b = d.bankByte b)) ∧
    (d.atOp e 0x03 r → d.flag F.BE_LP_TEL_enable l = true → d.fenceHolds e = false → Retires s (.emit t e) e r fun n _ =>
      ∃ m : EmitRec, n.be.emitted = d.be.emitted ++ [m] ∧ m.loop = l ∧ m.qp = d.rd F.BE_LP_TEL_queue_pair l ∧ m.stamp = r.recs.beatAt ∧
        m.values = (List.range (imm % 16 + 1)).map fun i =>
          if bitOf imm 7 then r.raw (opA w + i) else leaveLoop (r.val (opA w + i)) (d.scale l (imm / 16))) ∧
    (d.atOp e 0x0C r → Retires s (.lim t e) e r fun _ q => r.val (opB w) ≤ r.val (opC w) →
      (r.val (opA w) < r.val (opB w) → q.raw dst = r.raw (opB w)) ∧ (r.val (opC w) < r.val (opA w) → q.raw dst = r.raw (opC w)) ∧
      (r.val (opB w) ≤ r.val (opA w) → r.val (opA w) ≤ r.val (opC w) → q.raw dst = r.raw (opA w))) ∧
    (d.atOp e 0x0D r → Retires s (.sel t e) e r fun _ q => q.raw dst = if r.raw (opC w) = 0 then r.raw (opB w) else r.raw (opA w)) ∧
    (d.atOp e 0x0E r → Retires s (.cmp t e) e r fun _ q =>
      (opMod w % 8 = 1 → q.raw dst = if r.val (opB w) < r.val (opA w) then 1 else 0) ∧
      (opMod w % 8 = 2 → q.raw dst = if r.val (opB w) ≤ r.val (opA w) then 1 else 0) ∧
      (opMod w % 8 = 3 → q.raw dst = if r.val (opA w) = r.val (opB w) then 1 else 0) ∧
      (opMod w % 8 = 4 → q.raw dst = if r.val (opA w) = r.val (opB w) then 0 else 1) ∧
      (opMod w % 8 = 5 → q.raw dst = if r.val (opB w) < (r.val (opA w)).natAbs then 1 else 0)) ∧
    (d.atOp e 0x13 r → Retires s (.slack t e) e r fun _ q =>
      let ticks : Int := if bitOf (opMod w) 0 then d.rdInt F.BE_LP_SLACK_win_min l else (d.loop l).lastSlack
      (ticks = -32768 → q.raw dst = 0x80000000) ∧
      (ticks ≠ -32768 → q.raw dst = qWord (roundDiv (ticks * one31) (max 1 (d.beat (d.home l))))))

/-- R165, R166, R167, R169 and R191: CLARKE, PARK, IPARK, DIAL, SVM, RECON and POISE. -/
def Obligations.TransformsAndTables : Prop :=
  ∀ (s : State) (t : Nat) (e : Fin 12) (r : Run), let d := s.now t; let w := d.opWord r.loop r.pc
    let dst := opDst w; let a := r.val (opA w); let b := r.val (opA w + 1); let sin := r.val (opB w); let cos := r.val (opB w + 1)
    (d.atOp e 0x06 r → Retires s (.clarke t e) e r fun _ q =>
      let c := if bitOf (opMod w) 0 then -(a + b) else r.val (opA w + 2)
      q.raw dst = qWord (roundDiv (2 * a - b - c) 3) ∧ q.raw (dst + 1) = qWord (divRoot3 (b - c))) ∧
    (d.atOp e 0x07 r → Retires s (.park t e) e r fun _ q =>
      q.raw dst = qWord (roundDiv (a * cos + b * sin) one31) ∧ q.raw (dst + 1) = qWord (roundDiv (-a * sin + b * cos) one31)) ∧
    (d.atOp e 0x08 r → Retires s (.ipark t e) e r fun _ q =>
      q.raw dst = qWord (roundDiv (a * cos - b * sin) one31) ∧ q.raw (dst + 1) = qWord (roundDiv (a * sin + b * cos) one31)) ∧
    (d.atOp e 0x0A r → Retires s (.dial t e) e r fun _ q =>
      let angle := ((r.raw (opA w)).toNat + if bitOf (opMod w) 0 then (r.raw (opB w)).toNat else 0) % 2 ^ 32
      let word (i : Nat) : Word := d.lt (0x78000 + 0x1000 * (opImm w % 8) + 4 * (i % 1024))
      (angle % 2 ^ 22 = 0 → q.raw dst = word (angle / 2 ^ 22) ∧ q.raw (dst + 1) = word (angle / 2 ^ 22 + 256)) ∧
      q.raw dst = qWord (d.dial (opImm w % 8) angle)) ∧
    (d.atOp e 0x09 r → Retires s (.svm t e) e r fun n q =>
      (sin ≤ 0 → d.fenceHolds e = false → n.flag F.BE_LP_FLAGS_sat r.loop = true) ∧
      (d.fenceHolds e = true → n.flag F.BE_LP_FLAGS_sat r.loop = d.flag F.BE_LP_FLAGS_sat r.loop) ∧
      (0 < sin → bitOf (opMod w) 2 = false → let u := (svmCompares a b sin (opMod w % 4 == 1)).1
        q.raw dst = qWord u.1.round31 ∧ q.raw (dst + 1) = qWord u.2.1.round31 ∧ q.raw (dst + 2) = qWord u.2.2.round31)) ∧
    (d.atOp e 0x0F r → infoPlaced r.recs.a.info = true → infoPlaced r.recs.b.info = true →
      infoPhase r.recs.a.info ≤ 2 → infoPhase r.recs.b.info ≤ 2 → infoPhase r.recs.a.info ≠ infoPhase r.recs.b.info →
      Retires s (.recon t e) e r fun _ q =>
        let f := d.scale r.loop (opMod w)
        let amps (k : ShRec) : Int := if infoNeg k.info then -enterLoop k.current.toInt f else enterLoop k.current.toInt f
        q.raw (dst + infoPhase r.recs.a.info) = qWord (amps r.recs.a) ∧ q.raw (dst + infoPhase r.recs.b.info) = qWord (amps r.recs.b) ∧
        q.raw (dst + (3 - infoPhase r.recs.a.info - infoPhase r.recs.b.info)) = qWord (-(amps r.recs.a + amps r.recs.b))) ∧
    (d.atOp e 0x0B r → Retires s (.poise t e) e r fun _ q =>
      let word (i : Nat) : Int := q31 (d.lt (0x80000 + 0x4000 * (opImm w % 16) + 4 * i))
      let angle := (r.raw (opA w)).toNat
      let cog : Rat := word (angle / 2 ^ 21 % 2048) +
        (word ((angle / 2 ^ 21 + 1) % 2048) - word (angle / 2 ^ 21 % 2048) : Int) * ((angle % 2 ^ 21 : Nat) : Rat) / 2 ^ 21
      r.val (opB w) = 0 → q.raw dst = qWord (ratRound cog))

/-- R164, R185, R186, R195, R198 and R200: SECT, CASC, FUSEE, LETDN and PLAUS. -/
def Obligations.SectionsAndMotion : Prop :=
  ∀ (s : State) (t : Nat) (e : Fin 12) (r : Run), let d := s.now t; let l := r.loop; let w := d.opWord l r.pc
    let dst := opDst w; let c := opC w; let bank := d.activeBank l
    let k (i : Nat) : Int := q31 (d.coef l bank i)
    let out (blk : Nat) (v x1 x2 y1 y2 : Int) : Int :=
      let y := (k blk * v + k (blk + 1) * x1 + k (blk + 2) * x2 - k (blk + 3) * y1 - k (blk + 4) * y2) * 2 ^ ((d.coef l bank (blk + 7)).toNat % 4)
      let b := d.bounds l bank blk r.raw
      bound (b.1 * one31) (b.2 * one31) y
    let blk := opImm w % 256; let v := r.val (opA w)
    let z := out blk v (r.val c) (r.val (c + 1)) (r.val (c + 2)) (r.val (c + 3))
    let total (z : Int) : Int := (if bitOf (opMod w) 1 then z * r.val (opImm w / 256 % 256) else z * one31) +
      if bitOf (opMod w) 0 then r.val (opB w) * one31 * one31 else 0
    (d.atOp e 0x04 r → Retires s (.sect t e) e r fun n q =>
      (let y := (k blk * v + k (blk + 1) * r.val c + k (blk + 2) * r.val (c + 1) - k (blk + 3) * r.val (c + 2) - k (blk + 4) * r.val (c + 3)) *
          2 ^ ((d.coef l bank (blk + 7)).toNat % 4)
        let b := d.bounds l bank blk r.raw
        d.fenceHolds e = false → y < b.1 * one31 ∨ b.2 * one31 < max y (b.1 * one31) → n.flag F.BE_LP_FLAGS_sat l = true) ∧
      q.raw dst = qWord (roundDiv (total z) (one31 * one31)) ∧
      ((∀ i, i < 4 → (c + i) % 256 ≠ dst % 256) → q.raw c = qWord v ∧ q.raw (c + 1) = r.raw c ∧
        q.raw (c + 2) = qWord (roundDiv z one31) ∧ q.raw (c + 3) = r.raw (c + 2))) ∧
    (d.atOp e 0x05 r → Retires s (.casc t e) e r fun _ q =>
      (opMod w / 8 = 0 → q.raw dst = qWord (roundDiv (total z) (one31 * one31))) ∧
      (opMod w / 8 = 1 → bitOf (d.coef l bank (blk + 15)).toNat 2 = false →
        let z2 := out (blk + 8) (roundDiv z one31) (r.val (c + 4)) (r.val (c + 5)) (r.val (c + 6)) (r.val (c + 7))
        q.raw dst = qWord (roundDiv (total z2) (one31 * one31)))) ∧
    (d.atOp e 0x10 r → Retires s (.fusee t e) e r fun n q =>
      let token := (r.raw (opA w + 1)).toNat % 256
      let lim (i : Nat) : Nat := if (r.val (opB w + i)).natAbs = 0 then 1 else (r.val (opB w + i)).natAbs
      ((∃ i < 3, r.raw (opB w + i) = 0) → d.fenceHolds e = false → n.flag F.BE_LP_FLAGS_sat l = true) ∧
      (bitOf (opMod w) 1 = true → token ≠ (r.raw (c + 4)).toNat % 256 →
        q.raw dst = r.raw (opA w + 2) ∧ q.raw (dst + 1) = r.raw (opA w + 3) ∧ q.raw (dst + 2) = 0) ∧
      (bitOf (opMod w) 1 = false → let o := fuseeStep (!bitOf (opMod w) 0) v (r.val c) (r.val (c + 1)) (r.val (c + 2)) (lim 0) (lim 1) (lim 2)
        q.raw (dst + 1) = qWord (ratRound o.v) ∧ q.raw (dst + 2) = qWord (ratRound o.a) ∧
        (bitOf (opMod w) 0 = false → q.raw dst = qWord (ratRound o.p)))) ∧
    (d.atOp e 0x11 r → Retires s (.letdn t e) e r fun _ q =>
      let band := (k (blk + 2)).natAbs; let up := (k blk).natAbs; let down := (k (blk + 1)).natAbs; let m := r.val (opB w)
      let lo := clampInt (-one31) (one31 - 1) (m - band); let hi := clampInt (-one31) (one31 - 1) (m + band)
      let r1 := clampInt lo hi (r.val c)
      q.raw dst = qWord (if r1 ≤ v then min (r1 + up) v else max (r1 - down) v)) ∧
    (d.atOp e 0x12 r → dst % 256 ≠ (c + 2) % 256 → dst % 256 ≠ (c + 3) % 256 → Retires s (.plaus t e) e r fun _ q =>
      let u : Int := 2 ^ ((d.coef l bank (blk + 12)).toNat % 4) *
        (List.range (opMod w % 8 + 1)).foldl (fun t i => t + k (blk + i) * r.val (opA w + i)) 0
      let mo := q31 (qWord (roundDiv (r.val c * one31 * one31 + k (blk + 8) * (u - r.val c * one31)) (one31 * one31)))
      q.raw dst = qWord (roundDiv (r.val (c + 1) * one31 + k (blk + 9) * (r.val (opB w) - mo - r.val (c + 1))) one31))

/-! ### Traction (chapter 09) -/

/-- R210, R212, R213, R216, R220 and R221: TM_START, TM_TARGET and TM_STOP. That FENCED comes before NOT_SEALED for a machine that is not
enabled or in OFF is the model's choice (log entry 38). -/
def Obligations.TractionCommands : Prop :=
  ∀ (s : State) (t : Nat) (q : Fin 64) (i : Nat) (x : Descr) (m : Fin 2), let d := s.now t; let target := lowWord (x.param2 % 2 ^ 32)
    x.target = m → d.standing q i .handed x → (d.tmOf m).job ≠ some (q.val, i) →
    (x.opcode = Op.TM_START → d.flag F.SC_TM_CFG_enable m = true → d.isSealed = true → d.tmState m = 2 ∨ d.tmState m = 8 →
      (d.rd F.SC_TM_CFG_min_sets m ≤ (d.availableSets m).length → Does s (.tmStart t q i) fun n =>
        n.tmState m = 3 ∧ n.rd F.SC_TM_STAT_lost m = 0 ∧ (n.tmOf m).job = some (q.val, i) ∧ (n.tmOf m).mode = x.param1 % 4 ∧
        (n.tmOf m).target = target ∧ (n.tmOf m).since = d.time) ∧
      ((d.availableSets m).length < d.rd F.SC_TM_CFG_min_sets m → Does s (.tmStart t q i) fun n =>
        n.endedWith q i Code.FENCED ∧ n.tmState m = d.tmState m)) ∧
    (x.opcode = Op.TM_START → d.flag F.SC_TM_CFG_enable m = true → d.isSealed = false → Does s (.tmStart t q i) fun n =>
      n.endedWith q i Code.NOT_SEALED ∧ n.tmState m = d.tmState m) ∧
    (x.opcode = Op.TM_START → d.flag F.SC_TM_CFG_enable m = false ∨ d.isSealed = true ∧ d.tmState m = 1 → Does s (.tmStart t q i) fun n =>
      n.endedWith q i Code.FENCED ∧ n.tmState m = d.tmState m) ∧
    (x.opcode = Op.TM_TARGET → d.tmState m = 2 ∨ d.tmState m = 8 → Does s (.tmTarget t q i) fun n =>
      n.endedWith q i Code.OK ∧ n.tmOf m = d.tmOf m ∧ n.tmState m = d.tmState m) ∧
    (x.opcode = Op.TM_TARGET → d.tmState m = 6 → (d.tmOf m).pmode ≠ 4 ∨ x.param1 % 4 ≠ 2 ∨ target = 0 →
      Does s (.tmTarget t q i) fun n =>
        n.endedWith q i Code.OK ∧ n.tmState m = 6 ∧ (n.tmOf m).mode = x.param1 % 4 ∧ (n.tmOf m).target = target ∧
        ∀ l ∈ d.tmLoops m, n.lt (parBase l + 4 * 48) = wholeQ (x.param1 % 4 + 2 : Nat)) ∧
    (x.opcode = Op.TM_TARGET → d.tmState m = 6 → (d.tmOf m).pmode = 4 → x.param1 % 4 = 2 → target ≠ 0 →
      negQ target ≠ negQ (d.word (F.SC_TM_SPEED.off m 0)) → d.rd F.SC_TM_REENGAGE m < (d.word (F.SC_TM_SPEED.off m 0)).toInt.natAbs →
      Does s (.tmTarget t q i) fun n =>
        n.tmState m = 7 ∧ (n.tmOf m).job = some (q.val, i) ∧ ∀ k ∈ d.tmStages m, n.flag F.TB_STG_RUN_run k = false) ∧
    (x.opcode = Op.TM_STOP → d.tmState m ≠ 1 → Does s (.tmStop t q i) fun n =>
      n.endedWith q i Code.OK ∧ n.tmState m = 2 ∧ n.rd F.SC_TM_STAT_active m = 0 ∧ (n.tmOf m).job = none ∧
      (∀ k ∈ d.tmStages m, n.flag F.TB_STG_RUN_run k = false) ∧ ∀ l ∈ d.tmLoops m, n.lt (parBase l + 4 * 48) = 0)

/-- R207, R214, R216, R217, R219, R222, R223 and R224: TM_CATCH_DECISION, CATCH_TIME_EXPIRY, PRECHARGE_EXPIRY, CATCH_HOLD_DONE,
REENGAGE, SPEED_REFRESH and TM_SET_LOSS. -/
def Obligations.TractionCatch : Prop :=
  ∀ (s : State) (t : Nat) (m : Fin 2), let d := s.now t; let p := d.rd F.SC_TM_CFG_pos_port m; let v := d.tmOf m
    (d.tmState m = 3 → d.sensorless m = false → d.portLocked p = true →
      max 1 (d.rd F.SC_TM_CFG_min_sets m) ≤ (d.tmJoining m).length →
      Does s (.tmCatchDecision t m []) fun n =>
        n.word (F.SC_TM_SPEED.off m 0) = d.word (F.PS_OBS_SPEED.off p 0) ∧
        (d.flag F.PS_STAT_still p = true → n.tmState m = 4 ∧ (n.tmOf m).pmode = 1 ∧
          n.rd F.SC_TM_STAT_active m = setMask (d.tmJoining m)) ∧
        (d.flag F.PS_STAT_still p = false → d.rd F.SC_TM_CATCH m < (d.word (F.PS_OBS_SPEED.off p 0)).toInt.natAbs → n.tmState m = 2) ∧
        (d.flag F.PS_STAT_still p = false → (d.word (F.PS_OBS_SPEED.off p 0)).toInt.natAbs ≤ d.rd F.SC_TM_CATCH m →
          d.emfAbove m (d.word (F.PS_OBS_SPEED.off p 0)).toInt (d.linkVolts m) = false →
          (∀ k ∈ d.tmJoining m, ∀ j ∈ stagePorts (4 * m + k), d.uvloRise j ≤ 10 * d.rd F.PP_SUPPLY_hi_supply j) →
          n.tmState m = 5 ∧ (n.tmOf m).pmode = 2 ∧ (n.tmOf m).seed = d.word (F.PS_OBS_SPEED.off p 0))) ∧
    (d.tmState m = 3 → d.sensorless m = true → v.ej.isSome = true → (∃ k ∈ d.tmStages m, d.holdsLowOn k = true) →
      Does s (.tmCatchDecision t m []) fun n => n.tmState m = 2 ∧ (n.tmOf m).job = none) ∧
    (d.tmState m = 3 → d.sensorless m = false → d.portLocked p = false → v.since + 800000 * d.rd F.SC_TM_TIMES_catch_time m ≤ d.time →
      Does s (.catchTimeExpiry t m) fun n => n.tmState m = 2 ∧ (n.tmOf m).job = none) ∧
    (d.tmState m = 4 → (∀ k ∈ d.activeStages m, d.flag F.TB_STG_RUN_run k = true ∧
        (d.stg k).startAt + 8000 * d.rd F.SC_TM_TIMES_precharge m ≤ d.time) → 8000 * d.rd F.SC_TM_TIMES_precharge m ≤ d.time →
      Does s (.prechargeExpiry t m) fun n => n.tmState m = 5 ∧ (n.tmOf m).pmode = 2 ∧ (n.tmOf m).seed = 0 ∧
        n.rd F.SC_TM_STAT_token m = (d.rd F.SC_TM_STAT_token m + 1) % 256) ∧
    (d.tmState m = 5 → (∀ k ∈ d.activeStages m, d.flag F.TB_STG_STAT_running k = true) →
      d.rd F.SC_TM_TIMES_catch_hold m ≤
        d.updatesSince (4 * m + d.refSet m) ((d.activeStages m).foldl (fun n k => max n (d.stg k).droveAt) 0) →
      Does s (.catchHoldDone t m) fun n => n.tmState m = 6 ∧ (n.tmOf m).pmode = v.mode + 2 ∧ (n.tmOf m).job = none ∧
        n.rd F.SC_TM_CNT_catches m = min (d.rd F.SC_TM_CNT_catches m + 1) 255) ∧
    (d.tmState m = 7 → d.sensorless m = false → (d.word (F.SC_TM_SPEED.off m 0)).toInt.natAbs ≤ d.rd F.SC_TM_REENGAGE m →
      Does s (.reengage t m) fun n => n.tmState m = 3 ∧ (n.tmOf m).since = d.time) ∧
    (d.tmState m ≠ 1 → d.sensorless m = false → Does s (.speedRefresh t m) fun n =>
      n.word (F.SC_TM_SPEED.off m 0) = d.word (F.PS_OBS_SPEED.off p 0) ∧ (n.tmOf m).speedAt = some d.time ∧
      ((∀ k ∈ d.tmStages m, d.flag F.TB_STG_RUN_run k = false) →
        d.emfAbove m (d.word (F.PS_OBS_SPEED.off p 0)).toInt (d.linkVolts m) = true → n.flag F.SC_TM_STAT_ucg m = true)) ∧
    (d.tmState m ≠ 1 → d.sensorless m = true →
      ((∃ k ∈ d.tmStages m, d.flag F.TB_STG_RUN_run k = true ∨ d.holdsLowOn k = true) → Does s (.speedRefresh t m) fun n =>
        n.word (F.SC_TM_SPEED.off m 0) = d.word (F.SC_TM_SPEED.off m 0)) ∧
      ((∀ k ∈ d.tmStages m, d.flag F.TB_STG_RUN_run k = false ∧ d.holdsLowOn k = false) → (∀ k < 4, d.blanked (4 * m + k) = false) →
        max v.refEdge ((d.tmStages m).foldl (fun n k => max n (d.quietFrom k)) 0) + 800000 * d.rd F.SC_TM_TIMES_catch_time m ≤ d.time →
        Does s (.speedRefresh t m) fun n => n.word (F.SC_TM_SPEED.off m 0) = 0)) ∧
    (d.tmState m = 4 ∨ d.tmState m = 5 ∨ d.tmState m = 6 → ∀ k : Fin 4, d.tmLost m = [k.val] →
      Does s (.tmSetLoss t m) fun n =>
        bitOf (n.rd F.SC_TM_STAT_lost m) k = true ∧ bitOf (n.rd F.SC_TM_STAT_active m) k = false ∧
        (count4 (d.rd F.SC_TM_STAT_active m) ≤ d.rd F.SC_TM_CFG_min_sets m →
          n.tmState m = 8 ∧ n.rd F.SC_TM_STAT_active m = 0 ∧ (n.tmOf m).job = none) ∧
        (d.rd F.SC_TM_CFG_min_sets m < count4 (d.rd F.SC_TM_STAT_active m) → k.val ≠ d.refSet m →
          n.tmState m = d.tmState m ∧ n.rd F.SC_TM_STAT_active m = d.rd F.SC_TM_STAT_active m - 2 ^ k.val))

/-! ### Charging and conversion (chapter 10) -/

/-- R237, R240, R241, R242 and R34: CH_START, CH_TARGET and CH_STOP. The order of FENCED and NOT_SEALED is the model's choice (log
entry 38). -/
def Obligations.ChargingCommands : Prop :=
  ∀ (s : State) (t : Nat) (q : Fin 64) (i : Nat) (x : Descr), let d := s.now t; let mode := x.param1 % 4
    d.standing q i .handed x → d.chOn = true → d.ch.job ≠ some (q.val, i) →
    (x.opcode = Op.CH_START → d.isSealed = true → d.chState = 2 → (∀ k ∈ chStages, d.stageAvailable k = true) →
      (mode = 1 → 1 ≤ d.rd F.SC_CH_STAT_cable 0 → d.rd F.SC_CH_STAT_cable 0 ≤ 4 → d.rd F.SC_CH_STAT_cp 0 = 2 ∨ d.cpReady = true →
        6 ≤ d.rd F.SC_CH_STAT_i_allow 0 → Does s (.chStart t q i) fun n =>
          n.chState = 3 ∧ n.ch.job = some (q.val, i) ∧ n.ch.mode = 1 ∧ n.ch.power = lowWord x.param2 ∧ n.ch.volt = highWord x.param2 ∧
          n.ch.since = d.time) ∧
      (mode = 1 → d.rd F.SC_CH_STAT_cable 0 = 0 → Does s (.chStart t q i) fun n =>
        n.endedWith q i Code.CONNECTOR ∧ n.chState = 2 ∧ n.ch = d.ch) ∧
      (mode = 2 → d.flag F.SC_CH_CFG_export_en 0 = true → d.rd F.SC_CH_STAT_cp 0 = 1 →
        10 * d.lineVolts < (2 * d.rd F.SC_CH_GRID_v_lo 0 : Nat) → Does s (.chStart t q i) fun n =>
          n.chState = 5 ∧ n.ch.job = some (q.val, i) ∧ n.ch.mode = 2 ∧ n.ch.pmode = 2)) ∧
    (x.opcode = Op.CH_START → d.isSealed = false → Does s (.chStart t q i) fun n => n.endedWith q i Code.NOT_SEALED ∧ n.ch = d.ch) ∧
    (x.opcode = Op.CH_START ∧ d.isSealed = true ∨ x.opcode = Op.CH_TARGET ∨ x.opcode = Op.CH_STOP → d.chState = 1 →
      (x.opcode = Op.CH_START → Does s (.chStart t q i) fun n => n.endedWith q i Code.FENCED ∧ n.ch = d.ch) ∧
      (x.opcode = Op.CH_TARGET → Does s (.chTarget t q i) fun n => n.endedWith q i Code.FENCED ∧ n.ch = d.ch) ∧
      (x.opcode = Op.CH_STOP → Does s (.chStop t q i) fun n => n.endedWith q i Code.FENCED ∧ n.ch = d.ch)) ∧
    (x.opcode = Op.CH_TARGET → d.chState ≠ 1 → d.chState ≠ 2 → mode = d.ch.mode → (mode = 2 → d.flag F.SC_CH_CFG_export_en 0 = true) →
      Does s (.chTarget t q i) fun n =>
        n.endedWith q i Code.OK ∧ n.ch.power = lowWord x.param2 ∧ n.ch.volt = highWord x.param2 ∧ n.chState = d.chState ∧
        ∀ l ∈ d.chLoops, n.lt (parBase l + 4 * 50) = highWord x.param2) ∧
    (x.opcode = Op.CH_STOP → d.chState = 6 ∨ d.chState = 7 → d.chCause = none → Does s (.chStop t q i) fun n =>
      n.chState = 8 ∧ n.ch.pmode = 3 ∧ n.ch.since = d.time ∧ n.ch.stopJobs = d.ch.stopJobs ++ [(q.val, i)]) ∧
    (x.opcode = Op.CH_STOP → 5 ≤ d.chState → d.chCause ≠ none → Does s (.chStop t q i) fun n =>
      n.endedWith q i Code.OK ∧ n.chState = 2 ∧ n.ch.job = none ∧ n.ch.stopJobs = [] ∧ ∀ k ∈ chStages, n.flag F.TB_STG_RUN_run k = false) ∧
    (x.opcode = Op.CH_STOP → d.chState = 3 ∨ d.chState = 4 ∨ d.chState = 5 → d.chCause = none → Does s (.chStop t q i) fun n =>
      n.endedWith q i Code.OK ∧ n.chState = 2 ∧ n.ch.job = none ∧ ∀ k ∈ chStages, n.flag F.TB_STG_RUN_run k = false)

/-- R233 to R236, R240 and R242 to R244: PILOT_WINDOW, PILOT_TIMEOUT, PILOT_REFRESH, CH_WAIT_DONE, CH_WAIT_TIMEOUT, STOP_TIME_EXPIRY,
GRID_LOSS_TIMEOUT and CH_EVENT_REACTION. -/
def Obligations.ChargingEvents : Prop :=
  ∀ (s : State) (t : Nat), let d := s.now t; let p := d.ch.pilot
    d.chOn = true →
    (p.periods = 8 → p.hiN ≠ 0 → p.loN ≠ 0 → Does s (.pilotWindow t) fun n =>
      n.rd F.SC_CH_PILOT_duty 0 = (ratRound (p.dutySum / 8 * 1000)).toNat % 1024 ∧ n.flag F.SC_CH_PILOT_osc 0 = true ∧
      n.ch.pilot.periods = 0 ∧
      n.rd F.SC_CH_STAT_i_allow 0 = min (min (pilotAmps true (p.dutySum / 8 * 100)).floor.toNat (cableAmps (d.rd F.SC_CH_STAT_cable 0)))
        (d.rd F.SC_CH_LIM_imax 0)) ∧
    (∀ c, (c = Instr.pilotTimeout t ∧ p.refreshAt < p.lastEdge + 2400000) ∨ (c = Instr.pilotRefresh t ∧ p.refreshAt + 800000 ≤ d.time) → p.lastEdge + 2400000 ≤ d.time →
      Does s c fun n => n.flag F.SC_CH_PILOT_osc 0 = false ∧ n.rd F.SC_CH_STAT_i_allow 0 = 0 ∧ n.ch.pilot.refreshAt = d.time ∧
        n.rd F.SC_CH_PILOT_duty 0 = if d.pilotHigh then 1000 else 0) ∧
    (d.chState = 3 → d.cpReady = true → Does s (.chWaitDone t) fun n => n.chState = 4 ∧ n.ch.since = d.time) ∧
    (d.chState = 4 → d.gridValid = true → Does s (.chWaitDone t) fun n => n.chState = 5 ∧ n.ch.pmode = d.ch.mode) ∧
    (d.chState = 5 → d.ch.second = false → d.allRun d.chFirst = true → d.busUp = true → Does s (.chWaitDone t) fun n =>
      n.ch.second = true ∧ n.chState = 5) ∧
    (d.chState = 3 → d.ch.since + 80000000 * d.rd F.SC_CH_LIM_c_wait 0 ≤ d.time → d.cpReady = false →
      Does s (.chWaitTimeout t) fun n => n.chState = 2 ∧ n.ch.job = none) ∧
    (d.chState = 4 → d.ch.since + 80000000 * d.rd F.SC_CH_LIM_grid_wait 0 ≤ d.time → d.gridValid = false →
      Does s (.chWaitTimeout t) fun n => n.chState = 2 ∧ n.ch.job = none) ∧
    (d.chState = 8 → d.ch.since + 8000000 * d.rd F.SC_CH_LIM_stop_time 0 ≤ d.time → Does s (.stopTimeExpiry t) fun n =>
      n.chState = 2 ∧ n.ch.stopJobs = [] ∧ ∀ k ∈ chStages, n.flag F.TB_STG_RUN_run k = false) ∧
    (5 ≤ d.chState → d.ch.mode = 1 → d.gridValid = false → (∃ b, d.ch.gridBad = some b ∧ b + 16000000 < d.time) →
      Does s (.gridLossTimeout t) fun n => n.chState = 2 ∧ n.ch.job = none ∧ ∀ k ∈ chStages, n.flag F.TB_STG_RUN_run k = false) ∧
    (5 ≤ d.chState → d.chCause ≠ none → Does s (.chEventReaction t) fun n =>
      n.chState = 2 ∧ n.ch.job = none ∧ ∀ k ∈ chStages, n.flag F.TB_STG_RUN_run k = false) ∧
    (d.chState ≠ 1 → d.chCause = none → d.chActive ≠ d.rd F.SC_CH_STAT_active 0 → Does s (.chEventReaction t) fun n =>
      n.rd F.SC_CH_STAT_active 0 = d.chActive ∧ n.chState = d.chState ∧ ∀ l ∈ d.chLoops, n.lt (parBase l + 4 * 55) = wholeQ d.chActive)

/-- R245, R246 and R247: LV_START, LV_TARGET, LV_STOP, LV_SYNC, LV_START_TIMEOUT and LV_STAGE_LOSS. That LV_TARGET outside a live
conversion completes with OK and changes nothing (log entry 32), and the order of FENCED and NOT_SEALED (log entry 38), are the model's
choices. -/
def Obligations.Conversion : Prop :=
  ∀ (s : State) (t : Nat), let d := s.now t
    (∀ (q : Fin 64) (i : Nat) (x : Descr), d.standing q i .handed x → d.lvOn = true → d.lvState ≠ 1 → d.ch.lvJob ≠ some (q.val, i) →
      (x.opcode = Op.LV_START → d.isSealed = true → d.lvLive = false → d.stageAvailable 12 = true → d.stageAvailable 14 = true →
        Does s (.lvStart t q i) fun n => n.ch.lvJob = some (q.val, i) ∧ n.ch.lvMode = 1 ∧ n.ch.lvSync = false ∧
          n.ch.lvVolt = lowWord x.param2 ∧ n.ch.lvAmp = highWord x.param2 ∧ ∀ l ∈ d.lvLoops, n.lt (parBase l + 4 * 49) = lowWord x.param2) ∧
      (x.opcode = Op.LV_START → d.isSealed = false → Does s (.lvStart t q i) fun n => n.endedWith q i Code.NOT_SEALED ∧ n.ch = d.ch) ∧
      (x.opcode = Op.LV_TARGET → Does s (.lvTarget t q i) fun n => n.endedWith q i Code.OK ∧ n.lvState = d.lvState ∧
        (d.lvLive = true → n.ch.lvVolt = lowWord x.param2 ∧ n.ch.lvAmp = highWord x.param2) ∧ (d.lvLive = false → n.ch = d.ch)) ∧
      (x.opcode = Op.LV_STOP → Does s (.lvStop t q i) fun n => n.endedWith q i Code.OK ∧ n.lvState = 2 ∧ n.ch.lvMode = 0 ∧
        n.ch.lvJob = none ∧ n.flag F.TB_STG_RUN_run 14 = false ∧ n.flag F.TB_STG_RUN_run 12 = false)) ∧
    (d.lvState = 3 → d.ch.lvSync = false → d.lvInTol = true → d.time ≤ d.ch.lvSince + 800000 * d.rd F.SC_LV_CFG_start_time 0 →
      Does s (.lvSync t) fun n => n.ch.lvMode = 2 ∧ n.ch.lvSync = true ∧ ∀ l ∈ d.lvLoops, n.lt (parBase l + 4 * 48) = wholeQ 2) ∧
    (d.lvState = 3 → d.ch.lvSync = false → d.ch.lvSince + 800000 * d.rd F.SC_LV_CFG_start_time 0 ≤ d.time →
      Does s (.lvStartTimeout t) fun n => n.lvState = 2 ∧ n.ch.lvJob = none ∧ n.flag F.TB_STG_RUN_run 14 = false ∧
        n.flag F.TB_STG_RUN_run 12 = false) ∧
    (d.lvLive = true → d.stageLost 12 = true ∨ d.stageLost 14 = true → Does s (.lvStageLoss t) fun n =>
      n.lvState = 2 ∧ n.ch.lvJob = none ∧ n.flag F.TB_STG_RUN_run 14 = false ∧ n.flag F.TB_STG_RUN_run 12 = false) ∧
    (d.lvOn = true → d.lvState ≠ 1 → d.stageLost 12 = false → d.stageLost 14 = false → d.lvActive ≠ d.rd F.SC_LV_STAT_active 0 →
      Does s (.lvStageLoss t) fun n => n.rd F.SC_LV_STAT_active 0 = d.lvActive ∧ n.lvState = d.lvState)

/-! ### Actuator and auxiliary drives (chapter 11), and the start of a stage by a sequencer -/

/-- R251 to R262: DR_START, DR_TARGET and DR_STOP. That FENCED comes before NOT_SEALED (log entry 38), and that DR_TARGET in
STOPPED or LOST completes with OK (log entry 33), are the model's choices. -/
def Obligations.DriveCommands : Prop :=
  ∀ (s : State) (t : Nat) (q : Fin 64) (i : Nat) (x : Descr) (a : Fin 6), let d := s.now t; let v := d.drive a
    let mode := x.param1 % 4; let hold := bitOf x.param1 2; let target := lowWord x.param2; let speed := d.drSpeed a
    x.target = a → d.standing q i .handed x → d.flag F.SC_DR_CFG_enable a = true → v.job ≠ some (q.val, i) →
    (x.opcode = Op.DR_START → d.isSealed = true → d.drState a = 2 ∨ d.drState a = 9 →
      (d.drKnown a = false → Does s (.drStart t q i) fun n => n.drState a = 3 ∧ (n.drive a).job = some (q.val, i) ∧
        (n.drive a).mode = mode ∧ (n.drive a).hold = hold ∧ (n.drive a).target = target ∧ (n.drive a).since = d.time) ∧
      (d.drKnown a = true → speed.toInt.natAbs ≤ 65536 * d.rd F.SC_DR_SPD_catch a → Does s (.drStart t q i) fun n =>
        n.drState a = 3 ∧ (n.drive a).job = some (q.val, i) ∧ (n.drive a).seedSpd = speed ∧ (n.drive a).pmode = mode ∧
        n.rd F.SC_DR_STAT_token a = (d.rd F.SC_DR_STAT_token a + 1) % 256) ∧
      (d.drKnown a = true → 65536 * d.rd F.SC_DR_SPD_catch a < speed.toInt.natAbs → Does s (.drStart t q i) fun n =>
        n.drState a = 2 ∧ n.endedWith q i Code.SPEED_HIGH)) ∧
    (x.opcode = Op.DR_START → d.isSealed = false → Does s (.drStart t q i) fun n =>
      n.endedWith q i Code.NOT_SEALED ∧ n.drState a = d.drState a) ∧
    (x.opcode = Op.DR_START → d.isSealed = true → d.drState a = 1 → Does s (.drStart t q i) fun n =>
      n.endedWith q i Code.FENCED ∧ n.drive a = v) ∧
    (x.opcode = Op.DR_TARGET → d.drState a = 3 → v.base.isSome = true → mode ≠ v.mode → Does s (.drTarget t q i) fun n =>
      n.drState a = 3 ∧ (n.drive a).job = some (q.val, i) ∧ (n.drive a).mode = mode ∧ (n.drive a).pmode = mode ∧
      (n.drive a).target = target ∧ (n.drive a).seedSpd = speed ∧ n.rd F.SC_DR_STAT_token a = (d.rd F.SC_DR_STAT_token a + 1) % 256) ∧
    (x.opcode = Op.DR_TARGET → d.drState a = 4 → mode = 1 → v.mode = 1 → target ≠ v.target → Does s (.drTarget t q i) fun n =>
      n.drState a = 4 ∧ (n.drive a).since = v.since ∧ (n.drive a).target = target ∧ (n.drive a).job = some (q.val, i)) ∧
    (x.opcode = Op.DR_TARGET → d.drState a = 2 ∨ d.drState a = 9 → Does s (.drTarget t q i) fun n =>
      n.endedWith q i Code.OK ∧ n.drive a = v ∧ n.drState a = d.drState a) ∧
    (x.opcode = Op.DR_TARGET → d.drState a = 7 → mode = 2 → negQ target = negQ speed ∨ target = 0 → Does s (.drTarget t q i) fun n =>
      n.endedWith q i Code.OK ∧ n.drState a = 7 ∧ (n.drive a).target = target ∧
      ∀ l, d.primaryLoop (drStage a) = some l → n.lt (parBase l + 4 * 49) = target) ∧
    (x.opcode = Op.DR_TARGET → d.drState a = 7 → mode = 2 → negQ target ≠ negQ speed → target ≠ 0 →
      65536 * d.rd F.SC_DR_SPD_reengage a < speed.toInt.natAbs → Does s (.drTarget t q i) fun n =>
        n.drState a = 8 ∧ (n.drive a).job = some (q.val, i) ∧ n.flag F.TB_STG_RUN_run (drStage a) = false) ∧
    (x.opcode = Op.DR_STOP → d.drState a ≠ 1 → Does s (.drStop t q i) fun n => n.endedWith q i Code.OK ∧ n.drState a = 2 ∧ (n.drive a).job = none ∧
      (n.drive a).pmode = 0 ∧ n.flag F.TB_STG_RUN_run (drStage a) = false)

/-- R252, R256 to R258, R260 and R261: DR_LOCK_TIMEOUT, DR_TARGET_REACHED, DR_MOVE_TIMEOUT, DR_REENGAGE, DR_MIRROR_UPDATE and DR_LOSS. -/
def Obligations.DriveEvents : Prop :=
  ∀ (s : State) (t : Nat) (a : Fin 6), let d := s.now t; let v := d.drive a
    (d.drState a = 3 → v.base = none → v.since + 800000 * d.rd F.SC_DR_TIMES_lock_wait a ≤ d.time → d.drKnown a = false →
      Does s (.drLockTimeout t a) fun n => n.drState a = 2 ∧ (n.drive a).job = none) ∧
    (d.drState a = 4 → d.drReached a = true → Does s (.drTargetReached t a) fun n => (n.drive a).job = none ∧
      (v.hold = true → n.drState a = 6 ∧ (n.drive a).pmode = 3) ∧ (v.hold = false → n.drState a = 5 ∧ (n.drive a).pmode = v.pmode)) ∧
    (d.drState a = 4 → v.since + 8000000 * d.rd F.SC_DR_TIMES_move_time a ≤ d.time → d.drReached a = false →
      Does s (.drMoveTimeout t a) fun n => n.drState a = 2 ∧ (n.drive a).job = none ∧ n.flag F.TB_STG_RUN_run (drStage a) = false) ∧
    (d.drState a = 8 → (d.drSpeed a).toInt.natAbs ≤ 65536 * d.rd F.SC_DR_SPD_reengage a →
      (d.drSpeed a).toInt.natAbs ≤ 65536 * d.rd F.SC_DR_SPD_catch a → Does s (.drReengage t a) fun n =>
        n.drState a = 3 ∧ (n.drive a).since = d.time) ∧
    (d.drState a ≠ 1 → d.drSecondary a = true → Does s (.drMirrorUpdate t a) fun n =>
      (n.drive a).mirHall = wholeQ (d.rd F.PS_STAT_sec_hall (d.drPort a)) ∧ (n.drive a).mirSpd = d.word (F.PS_SEC_SPEED.off (d.drPort a) 0) ∧
      ∀ l, d.primaryLoop (drStage a) = some l → n.lt (parBase l + 4 * 56) = d.word (F.PS_SEC_SPEED.off (d.drPort a) 0)) ∧
    (3 ≤ d.drState a → d.drState a ≤ 7 → d.stageLost (drStage a) = true → Does s (.drLoss t a) fun n =>
      n.drState a = 9 ∧ (n.drive a).job = none ∧ n.flag F.TB_STG_RUN_run (drStage a) = false)

/-- R218, R240, R241, R246 and R256: SEQUENCER_STAGE_START, for each of the four sequencers. -/
def Obligations.SequencersStartStages : Prop :=
  ∀ (s : State) (t : Nat) (k : Fin 21) (l : Nat), let d := s.now t
    d.flag F.TB_STG_RUN_run k = false → d.stageFit k = true → d.pw.asleep = false →
    (k.val < 8 ∧ (d.tmState (k / 4) = 4 ∨ d.tmState (k / 4) = 5) ∧ (d.activeStages (k / 4)).contains k.val = true ∧
        d.primaryLoop k = some l ∧ d.twoRuns (d.tmOf (k / 4)).base l = true) ∨
      (8 ≤ k.val ∧ k.val < 12 ∧ d.chState = 5 ∧ (d.chFirst.contains k.val || (d.ch.second && d.chSecond.contains k.val)) = true ∧
        (d.driving k).head? = some l ∧ d.twoRuns d.ch.base l = true) ∨
      (k.val = 12 ∧ d.lvState = 2 ∧ d.ch.lvMode = 1 ∧ d.primaryLoop 14 = some l ∧ d.twoRuns d.ch.lvBase l = true) ∨
      (k.val = 14 ∧ d.lvState = 3 ∧ d.ch.lvSync = true ∧ d.primaryLoop 14 = some l ∧ d.twoRuns d.ch.lvBase l = true) ∨
      (15 ≤ k.val ∧ d.drState (k - 15) = 3 ∧ d.primaryLoop k = some l ∧ ∃ b, (d.drive (k - 15)).base = some b ∧ b + 2 ≤ (d.loop l).wrote) →
    Does s (.sequencerStageStart t k) fun n => n.flag F.TB_STG_RUN_run k = true ∧ (n.stg k).startAt = d.time ∧ (n.stg k).driving = false ∧
      (k.val = 12 → n.lvState = 3) ∧ (k.val = 14 → n.lvState = 4) ∧
      (15 ≤ k.val → n.drState (k - 15) = if (d.drive (k - 15)).mode = 1 then 4 else 7)

/-! ### Safety controller (chapter 12) -/

/-- R266 to R272, R275 to R278: WINDOW_CLOSE, LAG_TIMEOUT, SC_SELF_TEST_DONE, AGREED_LOAD, CHECKER_FAULT, TRANSIENT_PERIOD_EXPIRY,
GRACE_EXPIRY and INJECTION_TEST_DONE. What a copy has executed is what its program computes, or what is given (log entry 71). That a command
of the firmware leaves the device as it is while no window releases stores is the model's choice (log entry 70).
-/
def Obligations.CopiesInLockstep : Prop :=
  ∀ (s : State) (t : Nat), let d := s.now t
    (∀ (r : ScRun) (w0 : ScTrace), let a := r.copyA; let stores := storesOf w0.retired; let asked := d.flt.request != r.err
      d.traceOf r = some w0 → (∀ x ∈ stores, x.parity = storeParity x) → d.copyRuns a = true → (d.copy a).closed = none →
      (d.copy a).waiting = none → d.owed d.storingCopy = none → d.storesInTurn stores r.waits = true →
      (d.scMode = ScMode.duplex → (d.copy (!a)).closed = none → Does s (.windowClose t r) fun n =>
        (n.copy a).closed = some { sig := signature w0.retired, count := retiredCount w0.retired, delay := stores,
                                   arch := d.sc.checkpoint.run w0, wfi := w0.retired.any ScRetired.wfi, request := asked, at_ := d.time } ∧
        n.copy (!a) = d.copy (!a) ∧ n.sc.window = d.sc.window ∧ n.regs = d.regs ∧ n.mb = d.mb) ∧
      (∀ w taken joint, d.scMode = ScMode.duplex → (d.copy (!a)).closed = some w → d.sc.overLimit = false →
        w.sig = signature w0.retired → w.count = retiredCount w0.retired → w.arch.pc = w0.pc → d.sc.copyA.traps = d.sc.copyB.traps →
        w.delay.map (fun x => (x.place, x.data, x.mask)) = stores.map (fun x => (x.place, x.data, x.mask)) →
        (w.request = asked ∧ taken = asked ∧ joint = 0 ∨
          w.request ≠ asked ∧ 1 ≤ d.rd F.SC_CFG_agree_retries 0 ∧ joint = 1 ∧ ∃ x z rest, r.joint = (x, x, z) :: rest ∧ taken = (d.flt.request != x)) →
        Does s (.windowClose t r) fun n => ∃ n0 : Dev, n = (n0.releaseAll .copyA (if a then stores else w.delay) r.waits).wakeCopies ∧
          n0.sc.window = d.sc.window + 1 ∧ n0.sc.retry = false ∧ n0.scMode = ScMode.duplex ∧ n0.sc.copyA = {} ∧ n0.sc.copyB = {} ∧
          n0.sc.checkpoint = ScArch.interrupt (let g := if a then d.sc.checkpoint.run w0 else w.arch
            { g with irq := g.irq || taken }) ∧ n0.mb = d.mb ∧
          n0.rd64 F.SC_WINDOWS_LO F.SC_WINDOWS_HI 0 = (d.rd64 F.SC_WINDOWS_LO F.SC_WINDOWS_HI 0 + 1) % 2 ^ 64 ∧
          n0.rd F.SC_AGREE_joint 0 = min (d.rd F.SC_AGREE_joint 0 + joint) (2 ^ F.SC_AGREE_joint.width - 1)) ∧
      (d.inSimplex = true → Does s (.windowClose t r) fun n =>
        ∃ n0 : Dev, n = (n0.releaseAll d.storingCopy stores r.waits).wakeCopies ∧
          n0.sc.window = d.sc.window + 1 ∧ n0.scMode = d.scMode ∧ n0.mb = d.mb ∧
          n0.rd64 F.SC_WINDOWS_LO F.SC_WINDOWS_HI 0 = d.rd64 F.SC_WINDOWS_LO F.SC_WINDOWS_HI 0)) ∧
    (∀ r : ScRun, d.traceOf r = none ∨ d.copyRuns r.copyA = false → Does s (.windowClose t r) fun n => n = d) ∧
    (∀ (r : ScRun) (w0 : ScTrace), d.traceOf r = some w0 → d.copyRuns r.copyA = true → (d.copy r.copyA).closed = none →
      (d.copy r.copyA).waiting = none → d.owed d.storingCopy = none → (∃ x ∈ storesOf w0.retired, x.parity ≠ storeParity x) →
      d.scMode = ScMode.duplex → Does s (.windowClose t r) fun n => n.scMode = ScMode.rollback ∧ n.sc.test = some (.parity r.copyA) ∧
        n.sc.window = d.sc.window ∧ n.mb = d.mb) ∧
    (∀ c cause, d.scMode = ScMode.duplex →
      (∃ r w0 w, let a := r.copyA; let stores := storesOf w0.retired
        c = Instr.windowClose t r ∧ d.traceOf r = some w0 ∧ (∀ x ∈ stores, x.parity = storeParity x) ∧
        d.copyRuns a = true ∧ (d.copy a).closed = none ∧ (d.copy a).waiting = none ∧ d.owed d.storingCopy = none ∧
        d.storesInTurn stores r.waits = true ∧ (d.copy (!a)).closed = some w ∧
        (let same := w.sig = signature w0.retired ∧ w.count = retiredCount w0.retired ∧ w.arch.pc = w0.pc ∧ d.sc.copyA.traps = d.sc.copyB.traps
         cause = 1 ∧ ¬same ∨ cause = 2 ∧ same ∧
          w.delay.map (fun x => (x.place, x.data, x.mask)) ≠ stores.map (fun x => (x.place, x.data, x.mask)))) ∨
      (c = Instr.lagTimeout t ∧ cause = 3 ∧ ∃ a, ∃ at_, waitsSince (d.copy a) = some at_ ∧ at_ + 1600 ≤ d.time) →
      (d.sc.retry = false → Does s c fun n => n.scMode = ScMode.rollback ∧ n.sc.test = some .window ∧ n.sc.window = d.sc.window ∧
        n.rd F.SC_LAST_cause 0 = cause ∧ n.sc.wdogDue = none ∧ n.sc.copyA = {} ∧ n.sc.copyB = {} ∧ n.sc.checkpoint = d.sc.checkpoint ∧
        n.mb = d.mb) ∧
      (d.sc.retry = true → Does s c fun n => n.flag F.FLT_SAFE_safe 0 = true ∧ n.sc.window = d.sc.window)) ∧
    (d.scMode = ScMode.duplex → d.lags = false → Does s (.lagTimeout t) fun n => n = d) ∧
    (∀ c : Instr, byFirmware c = true → c.time = t → d.fwStores = false → Does s c fun n => n = d) ∧
    (∀ a b, d.scMode = ScMode.rollback → d.sc.test = some .window → Does s (.scSelfTestDone t a b) fun n =>
      (a = true → b = true → n.scMode = ScMode.duplex ∧ n.sc.retry = true ∧
        n.rd F.SC_CNT_transients 0 = min (d.rd F.SC_CNT_transients 0 + 1) (2 ^ F.SC_CNT_transients.width - 1)) ∧
      (a = true → b = false → n.scMode = ScMode.simplexA ∧ n.fenced Kind.safety 1 = true ∧ n.flag F.SC_STAT_grace 0 = true ∧
        n.sc.graceEnd = some (d.time + 80000000 * d.rd F.SC_CFG_grace 0)) ∧
      (a = false → b = true → n.scMode = ScMode.simplexB ∧ n.fenced Kind.safety 0 = true ∧ n.flag F.SC_STAT_grace 0 = true) ∧
      (a = false → b = false → n.scMode = ScMode.halted ∧ n.flag F.FLT_SAFE_safe 0 = true)) ∧
    (∀ a p (e : PathErr), let stores := d.pendingOf a e.pending; let l : ScLoad := { place := p, bytes := e.bytes }; let o := d.copy (!a)
      d.scMode = ScMode.duplex → d.mayLoad a stores = true → d.isAgreed p = true →
      (∀ x, p = .bank x → d.itsTurn (if a then .copyA else .copyB) (bankOf x.toNat) e.turn.turn.others = true) →
      (d.scRead l = none → Does s (.agreedLoad t a p e) fun n => (n.copy a).loads = (d.copy a).loads ++ [(l, none)] ∧
        (n.copy a).waiting = none ∧ n.copy (!a) = o) ∧
      ((d.scRead l).isSome = true → let own := lowBytes ((d.scRead l).getD 0 ^^^ e.err) e.bytes
        (o.waiting = none → Does s (.agreedLoad t a p e) fun n => (n.copy a).waiting = some (l, own, d.time) ∧
          n.copy (!a) = o ∧ n.rd F.SC_AGREE_agreed 0 = d.rd F.SC_AGREE_agreed 0 ∧ n.rd F.SC_AGREE_joint 0 = d.rd F.SC_AGREE_joint 0) ∧
        (∀ at_, o.waiting = some (l, own, at_) → Does s (.agreedLoad t a p e) fun n =>
          n.sc.received = some (p, own) ∧ (n.copy (!a)).waiting = none ∧ n.scMode = ScMode.duplex ∧
          (n.copy a).loads = (d.copy a).loads ++ [(l, some (forwarded stores l own))] ∧
          (n.copy (!a)).loads = o.loads ++ [(l, some (forwarded o.delay l own))] ∧
          n.rd F.SC_AGREE_agreed 0 = (d.rd F.SC_AGREE_agreed 0 + 1) % 2 ^ F.SC_AGREE_agreed.width) ∧
        (∀ at_ w, o.waiting = some (l, w, at_) → w ≠ own →
          let again := ((((d.holdStores a stores).afterScRead a l e.turn).setCopy (!a) { o with waiting := none }).scRead l).getD 0
          (∀ x r rest, e.joint = (x, x, r) :: rest → 1 ≤ d.rd F.SC_CFG_agree_retries 0 → Does s (.agreedLoad t a p e) fun n =>
            n.sc.received = some (p, again ^^^ x) ∧ n.scMode = ScMode.duplex ∧
            n.rd F.SC_AGREE_joint 0 = min (d.rd F.SC_AGREE_joint 0 + 1) (2 ^ F.SC_AGREE_joint.width - 1)) ∧
          (∀ x y rest, x ≠ y → d.rd F.SC_CFG_agree_retries 0 = 1 → d.sc.copyA.closed = none → d.sc.copyB.closed = none →
            (e.joint = (x, y, x) :: rest → Does s (.agreedLoad t a p e) fun n => n.scMode = ScMode.simplexA ∧
              n.fenced Kind.safety 1 = true ∧ n.sc.received = some (p, again ^^^ x)) ∧
            (e.joint = (x, y, y) :: rest → Does s (.agreedLoad t a p e) fun n => n.scMode = ScMode.simplexB ∧
              n.fenced Kind.safety 0 = true ∧ n.sc.received = some (p, again ^^^ y)))))) ∧
    (∀ k : Fin 6, d.scMode = ScMode.duplex → Does s (.checkerFault t k) fun n =>
      (k.val < 3 → n.scMode = ScMode.rollback ∧ n.sc.test = some (if k.val = 0 then .checker else .parity (k.val == 1))) ∧
      (k.val = 3 → d.sc.copyB.closed = none → n.scMode = ScMode.simplexB ∧ n.fenced Kind.safety 0 = true) ∧
      (k.val = 4 → d.sc.copyA.closed = none → n.scMode = ScMode.simplexA ∧ n.fenced Kind.safety 1 = true) ∧
      (∀ w, k.val = 4 → d.sc.copyA.closed = some w → w.delay = [] → n.scMode = ScMode.simplexA ∧ n.sc.window = d.sc.window + 1) ∧
      (k.val = 5 → n.scMode = ScMode.halted ∧ n.flag F.FLT_SAFE_safe 0 = true)) ∧
    (d.sc.period + 48000000000 * d.rd F.SC_CFG_trans_period 0 ≤ d.time → Does s (.transientPeriodExpiry t) fun n =>
      n.rd F.SC_CNT_period_trans 0 = 0 ∧ n.sc.period = d.sc.period + 48000000000 * d.rd F.SC_CFG_trans_period 0) ∧
    (∀ e, d.sc.graceEnd = some e → e ≤ d.time → Does s (.graceExpiry t) fun n =>
      n.sc.graceEnd = none ∧ n.flag F.SC_STAT_grace 0 = false ∧ n.flag F.FLT_SAFE_safe 0 = true ∧ n.scMode = d.scMode) ∧
    (∀ steps, d.scMode = ScMode.bootTest → d.flag F.SC_BOOT_TEST_done 0 = false →
      (Tbl.get (fun _ => []) d.sec.measured 1).isEmpty = false → Does s (.injectionTestDone t steps) fun n =>
        n.flag F.SC_BOOT_TEST_done 0 = true ∧ n.scMode = (if steps = 127 then ScMode.duplex else ScMode.halted) ∧
        (steps = 127 → n.sc.checkpoint = { pc := Config.firmwareEntry }))

/-- R279 to R284: FW_READY, WDOG_SERVICE, WDOG_EXPIRY, VQ_ARRIVAL, ACCEPT, REFUSE, VALIDATION_EXPIRY. The firmware's commands come only
while the copies execute (log entry 70). -/
def Obligations.WatchdogAndValidation : Prop :=
  ∀ (s : State) (t : Nat), let d := s.now t; let period := 800000 * d.rd F.SC_WDOG_CFG_period 0
    (d.fwStores = true → d.flag F.SC_FW_ready 0 = false → Does s (.fwReady t) fun n => n.flag F.SC_FW_ready 0 = true ∧ n.flag F.SC_STAT_fw_ready 0 = true ∧
      (d.flag F.SC_WDOG_CFG_enable 0 = true → d.scMode ≠ ScMode.rollback → n.sc.wdogDue = some (d.time + period))) ∧
    (∀ v, d.fwStores = true → Does s (.wdogService t v) fun n => n.rd F.SC_WDOG_value 0 = v.toNat % 65536 ∧
      (d.flag F.SC_FW_ready 0 = true → d.flag F.SC_WDOG_CFG_enable 0 = true → d.scMode ≠ ScMode.rollback →
        n.sc.wdogDue = some (d.time + period)) ∧
      (d.flag F.SC_FW_ready 0 = false → n.sc.wdogDue = none)) ∧
    (∀ due, d.sc.wdogDue = some due → due ≤ d.time → Does s (.wdogExpiry t) fun n =>
      n.sc.wdogDue = none ∧ n.flag F.FLT_SAFE_safe 0 = true ∧
      (d.flag F.FLT_SAFE_safe 0 = false → n.rd F.FLT_SAFE_status 0 = Code.WATCHDOG ∧ n.devState = DevSt.safe ∧
        ∀ k : Fin 21, n.flag F.WM_SW_STAT_held k = true)) ∧
    (∀ (q : Fin 64) i x, d.standing q i .received x → validated x.opcode = true → d.sc.vq.length < 64 →
      Does s (.vqArrival t q i) fun n =>
        n.sc.vq = d.sc.vq ++ [{ qp := q, index := i, seq := d.sc.nextSeq, arrived := d.time }] ∧
        n.sc.nextSeq = (d.sc.nextSeq + 1) % 65536 ∧ ∃ it, (n.qp q).item i = some it ∧ it.phase = .queued ∧ it.desc = some x) ∧
    (∀ h r it (seq : BitVec 16), d.fwStores = true → d.sc.vq = h :: r → h.seq = seq.toNat → (d.qp h.qp).item h.index = some it →
      Does s (.accept t seq) fun n =>
        n.sc.vq = r.dropWhile VqEntry.done ∧ (∃ it2, (n.qp h.qp).item h.index = some it2 ∧ it2.phase = .handed ∧ it2.desc = it.desc) ∧
        n.rd F.SC_VAL_CNT_accepted 0 = min (d.rd F.SC_VAL_CNT_accepted 0 + 1) (2 ^ F.SC_VAL_CNT_accepted.width - 1) ∧
        ∀ x, it.desc = some x → ∀ k ∈ d.ownerStages x, d.flag F.TB_STG_RUN_run k = true → d.flag F.SC_ABS_CFG_enable k = true →
          n.absDue k = some (d.time + 80000 * d.rd F.SC_ABS_CFG_timeout k)) ∧
    (∀ h r it (seq : BitVec 16) reason, d.fwStores = true → d.sc.vq = h :: r → h.seq = seq.toNat → (d.qp h.qp).item h.index = some it →
      it.hasEnded = false → (d.qp h.qp).silent = false →
      Does s (.refuse t seq reason) fun n => n.sc.vq = r.dropWhile VqEntry.done ∧ n.endedWith h.qp h.index Code.REFUSED) ∧
    (∀ e it (seq : BitVec 16), (d.sc.vq.find? fun e => e.seq == seq.toNat && !e.done) = some e → (d.qp e.qp).item e.index = some it →
      it.hasEnded = false → (d.qp e.qp).silent = false → (d.vqEnd e ≤ d.time ∨ d.vqLate e = true) →
      Does s (.validationExpiry t seq) fun n => n.endedWith e.qp e.index Code.DEADLINE ∧
        n.rd F.SC_VAL_CNT_expired 0 = min (d.rd F.SC_VAL_CNT_expired 0 + 1) (2 ^ F.SC_VAL_CNT_expired.width - 1))

/-- R283 and R284: KICK, CONTINUE, STOP, ABSENCE_EXPIRY and NOTIFY_TIMEOUT. The firmware's commands come only while the copies
execute (log entry 70). -/
def Obligations.AbsencePolicy : Prop :=
  ∀ (s : State) (t : Nat) (k : Fin 21), let d := s.now t
    (d.fwStores = true → d.flag F.SC_ABS_CFG_enable k = true → d.flag F.TB_STG_RUN_run k = true → Does s (.kick t k) fun n =>
      n.absDue k = some (d.time + 80000 * d.rd F.SC_ABS_CFG_timeout k) ∧ n.rd F.SC_ABS_CTRL_status k = Code.OK ∧
      n.flag F.TB_STG_RUN_run k = true) ∧
    (d.flag F.SC_ABS_CFG_enable k = false → Does s (.kick t k) fun n => n.absDue k = d.absDue k) ∧
    (d.fwStores = true → d.flag F.SC_ABS_CFG_enable k = true → d.flag F.TB_STG_RUN_run k = true → d.flag F.SC_ABS_LEFT_awaiting k = true →
      Does s (.continueStage t k) fun n => n.absDue k = some (d.time + 80000 * d.rd F.SC_ABS_CFG_timeout k) ∧
        n.flag F.SC_ABS_LEFT_awaiting k = false ∧ n.respDue k = none) ∧
    (d.fwStores = true → Does s (.stopStage t k) fun n => n.flag F.TB_STG_RUN_run k = false ∧ n.flag F.SC_ABS_LEFT_awaiting k = false ∧
      n.rd F.SC_ABS_CTRL_status k = Code.OK) ∧
    (∀ due, d.absDue k = some due → due ≤ d.time → Does s (.absenceExpiry t k) fun n =>
      n.absDue k = none ∧ n.flag F.SC_ABS_LEFT_expired k = true ∧
      (d.rd F.SC_ABS_CFG_action k = 1 → n.flag F.SC_ABS_LEFT_awaiting k = true ∧
        n.respDue k = some (d.time + 80000 * d.rd F.SC_ABS_CFG_resp_time k) ∧ (d.sc.wfi = false → n.flt.request = true) ∧ n.flag F.TB_STG_RUN_run k = d.flag F.TB_STG_RUN_run k) ∧
      (d.rd F.SC_ABS_CFG_action k = 2 → n.flag F.TB_STG_RUN_run k = false) ∧
      (d.rd F.SC_ABS_CFG_action k = 3 → n.flag F.WM_SW_STAT_held k = true)) ∧
    (∀ due, d.respDue k = some due → due ≤ d.time → Does s (.notifyTimeout t k) fun n =>
      n.flag F.TB_STG_RUN_run k = false ∧ n.respDue k = none)

/-! ### Memory banks (chapter 13) -/

/-- R287, R290 to R295, R298 and R299: BANK_READ, BANK_WRITE and SCRUB_READ. A write changes exactly the bytes it addresses in banks that
the master owns; an access across a word boundary does its lower part and owes the rest; an access that is not at its turn does nothing yet.
The value of an unwritten byte (log entry 7) and what three and more flipped bits show (log entry 69) are the model's choices, and no
clause rests on them. -/
def Obligations.BankAccesses : Prop :=
  ∀ (s : State) (t : Nat) (m : BankMaster) (a size wait : Nat) (others : List BankMaster) (u : Upset), let d := s.now t; let b := bankOf a
    let i := masterIndex m; let k := min size (4 - a % 4)
    1 ≤ size → size ≤ 4 → a + size ≤ 0x800000 →
    (∀ v, d.mayAccess m a size true v others = true → d.storesLeave m = true → d.hasIssued m a size v = true →
      Does s (.bankWrite t m a size v ⟨⟨u, others⟩, wait⟩) fun n =>
      (m = .can → n.mb.issued = d.mb.issued.drop 1) ∧
      (∀ x, n.bankByte x =
        if a ≤ x ∧ x < a + k ∧ d.fenced Kind.bank b = false ∧ d.bankOwned i b = true then v.extractLsb' (8 * (x - a)) 8
        else d.bankByte x) ∧
      (k < size → ∃ p, n.owed m = some p ∧ p.addr = a + k ∧ p.bytes = size - k ∧ p.write = true ∧ p.data = v >>> (8 * k)) ∧
      (k = size → n.owed m = none ∧ (d.fenced Kind.bank b = false → d.bankOwned i b = true → d.owed m = none → n.bankAnswer m = some .done)) ∧
      (wait = 0 → n.word (F.MB_CONF.off i 0) = d.word (F.MB_CONF.off i 0)) ∧
      (0 < wait → n.rd F.MB_CONF_waits i = min (d.rd F.MB_CONF_waits i + 1) (2 ^ F.MB_CONF_waits.width - 1) ∧
        n.rd F.MB_CONF_max_wait i = max (d.rd F.MB_CONF_max_wait i) (min wait 255)) ∧
      (size = 4 → a % 4 = 0 → d.fenced Kind.bank b = false → d.bankOwned i b = true → n.bankFlips a = 0) ∧
      (d.fenced Kind.bank b = false → d.bankOwned i b = false → d.flt.intake.length < 64 → n.flag F.MB_BANK_STAT_nonowner_wr b = true ∧
        n.rd F.MB_BANK_STAT_nonowner_cnt b = min (d.rd F.MB_BANK_STAT_nonowner_cnt b + 1) (2 ^ F.MB_BANK_STAT_nonowner_cnt.width - 1) ∧
        n.flt.intake = d.flt.intake ++
          [{ kind := Kind.bank, index := b, cls := Cls.report, code := Code.NOT_OWNER, detail := a % 0x80000 / 4 + 2 ^ 24 * i, time := d.time }] ∧
        (k = size → (∀ e, m ≠ .engine e) → n.bankAnswer m = some .notOwner))) ∧
    (m ≠ .copyA → m ≠ .copyB → d.mayAccess m a size false 0 others = true → ∀ pending,
      Does s (.bankRead t m a size ⟨⟨u, others⟩, wait⟩ pending) fun n => let e := d.bankFinds a u
      (∀ x, n.bankByte x = d.bankByte x) ∧
      (wait = 0 → n.word (F.MB_CONF.off i 0) = d.word (F.MB_CONF.off i 0)) ∧
      (0 < wait → n.rd F.MB_CONF_waits i = min (d.rd F.MB_CONF_waits i + 1) (2 ^ F.MB_CONF_waits.width - 1) ∧
        n.rd F.MB_CONF_max_wait i = max (d.rd F.MB_CONF_max_wait i) (min wait 255)) ∧
      (e = .ok ∨ d.fenced Kind.bank b = true → n.word (F.MB_BANK_STAT.off b 0) = d.word (F.MB_BANK_STAT.off b 0)) ∧
      (e = .corrected → d.fenced Kind.bank b = false → n.bankFlips a = 0 ∧
        n.rd F.MB_BANK_STAT_ce_cnt b = min (d.rd F.MB_BANK_STAT_ce_cnt b + 1) (2 ^ F.MB_BANK_STAT_ce_cnt.width - 1)) ∧
      (e = .double ∨ e = .address → d.fenced Kind.bank b = false → n.flag F.MB_BANK_STAT_ue b = true ∧
        n.rd F.MB_BANK_STAT_ue_cnt b = min (d.rd F.MB_BANK_STAT_ue_cnt b + 1) (2 ^ F.MB_BANK_STAT_ue_cnt.width - 1) ∧
        n.rd F.MB_UE_ADDR_word b = a % 0x80000 / 4 ∧ n.flag F.MB_UE_ADDR_addr_fault b = (e == .address)) ∧
      (k < size → ∃ p, n.owed m = some p ∧ p.addr = a + k ∧ p.bytes = size - k ∧ p.write = false) ∧
      (k = size → d.owed m = none → n.owed m = none ∧
        (d.bankReads a u = true → n.bankAnswer m = some (.word (d.bankValue a size))) ∧
        (d.bankReads a u = false → n.bankAnswer m = some (match m with | .engine _ => .word 0 | _ => .error)))) ∧
    (∀ c : Bool, m = (if c then .copyA else .copyB) → d.mayAccess m a size false 0 others = true → k = size → d.owed m = none →
      ∀ pending, let stores := d.pendingOf c pending; let l : ScLoad := { place := .bank (BitVec.ofNat 23 a), bytes := size }
      d.mayLoad c stores = true → Does s (.bankRead t m a size ⟨⟨u, others⟩, wait⟩ pending) fun n =>
        (d.bankReads a u = true → d.scBank b = true → (n.copy c).delay = stores ∧
          n.bankAnswer m = some (.word (forwarded stores l (d.bankValue a size))) ∧
          (n.copy c).loads = (d.copy c).loads ++ [(l, some (forwarded stores l (d.bankValue a size)))]) ∧
        (d.bankReads a u = false → n.bankAnswer m = some .exception ∧ (n.copy c).loads = (d.copy c).loads ++ [(l, none)])) ∧
    (∀ o ∈ others, d.onPortA o b = true ∧ d.onPortA m b = false ∨ d.onPortA o b = d.onPortA m b ∧
        (let l := if d.onPortA m b then (d.lastServed b).1 else (d.lastServed b).2; turnsAway l (masterIndex o) < turnsAway l i) →
      (∀ pending, Does s (.bankRead t m a size ⟨⟨u, others⟩, wait⟩ pending) fun n => n.mb = d.mb ∧ n.regs = d.regs) ∧
      ∀ v, Does s (.bankWrite t m a size v ⟨⟨u, others⟩, wait⟩) fun n => n.mb = d.mb ∧ n.regs = d.regs) ∧
    (∀ q : Fin 16, let w := Tbl.get (fun _ => 0) d.mb.scrub q; let e := d.bankFinds (q * 0x80000 + 4 * w) u
      d.flag F.MB_SCRUB_enable 0 = true → d.fenced Kind.bank q = false →
      Tbl.get (fun _ => 0) d.mb.scrubAt q + 800 * d.rd F.MB_SCRUB_interval 0 ≤ d.time → w < 0x20000 → Does s (.scrubRead t q ⟨u, []⟩) fun n =>
        (∀ x, n.bankByte x = d.bankByte x) ∧ Tbl.get (fun _ => 0) n.mb.scrub q = (w + 1) % 0x20000 ∧
        (e = .corrected → n.bankFlips (q * 0x80000 + 4 * w) = 0 ∧
          n.rd F.MB_BANK_STAT_ce_cnt q = min (d.rd F.MB_BANK_STAT_ce_cnt q + 1) (2 ^ F.MB_BANK_STAT_ce_cnt.width - 1)) ∧
        (e = .double → n.flag F.MB_BANK_STAT_ue q = true ∧ n.rd F.MB_UE_ADDR_word q = w))

/-- R297 and R299: BANK_HANDOVER, DRAIN_COMPLETE, DRAIN_TIMEOUT and CONF_RESTART. A handover is a store of the firmware's and comes while
its copies execute (log entry 70). -/
def Obligations.BankHandover : Prop :=
  ∀ (s : State) (t : Nat) (b : Fin 16), let d := s.now t
    (∀ o : Fin 8, d.fwStores = true → b ≠ 0 → b ≠ 15 → o.val < 7 → d.fenced Kind.bank b = false → d.flag F.MB_BANK_CTRL_draining b = false →
      d.devState = DevSt.sealed ∨ d.devState = DevSt.safe →
      (o.val = d.rd F.MB_BANK_STAT_owner b → Does s (.bankHandover t b o) fun n => n.rd F.MB_BANK_CTRL_status b = Code.OK ∧
        n.rd F.MB_BANK_CTRL_owner b = o.val ∧ n.rd F.MB_BANK_STAT_owner b = o.val ∧ n.flag F.MB_BANK_CTRL_draining b = false) ∧
      (o.val ≠ d.rd F.MB_BANK_STAT_owner b → Does s (.bankHandover t b o) fun n => n.drainOf b = some (o.val, d.time) ∧
        n.flag F.MB_BANK_CTRL_draining b = true ∧ n.rd F.MB_BANK_STAT_owner b = d.rd F.MB_BANK_STAT_owner b ∧
        ∀ m, n.bankOwned m b = false)) ∧
    (∀ o : Fin 8, b = 0 ∨ b = 15 ∨ o.val = 7 ∨ d.flag F.MB_BANK_CTRL_draining b = true → Does s (.bankHandover t b o) fun n =>
      n.rd F.MB_BANK_STAT_owner b = d.rd F.MB_BANK_STAT_owner b ∧ n.drainOf b = d.drainOf b) ∧
    (∀ o since, d.drainOf b = some (o, since) → o < 7 →
      (d.time ≤ since + 1600 → Does s (.drainComplete t b) fun n => n.drainOf b = none ∧ n.flag F.MB_BANK_STAT_draining b = false ∧
        n.rd F.MB_BANK_STAT_owner b = o ∧ n.rd F.MB_BANK_CTRL_status b = Code.OK) ∧
      (since + 1600 < d.time → ∀ c, c = Instr.drainComplete t b ∨ c = Instr.drainTimeout t b → Does s c fun n => n.drainOf b = none ∧
        n.flag F.MB_BANK_STAT_draining b = false ∧ n.rd F.MB_BANK_STAT_owner b = d.rd F.MB_BANK_STAT_owner b ∧
        n.rd F.MB_BANK_CTRL_status b = Code.DEADLINE)) ∧
    Does s (.confRestart t) (fun n => (∀ m : Fin 17, n.word (F.MB_CONF.off m 0) = 0) ∧ ∀ x, n.bankByte x = d.bankByte x)

/-! ### Host rings (chapter 14) -/

/-- R302, R305, R306, R318, R319 and R323: DOORBELL, QP_ENABLE, QP_DISABLE, PERST, HOT_RESET, FUNCTION_LEVEL_RESET and HOST_ERROR. -/
def Obligations.QueuesOpenAndClose : Prop :=
  ∀ (s : State) (t : Nat) (q : Fin 64), let d := s.now t; let p := d.qp q; let N := d.ringSize q
    let sq := d.rd F.HI_QP_STAT_sq_head q; let cq := d.rd F.HI_QP_STAT_cq_tail q
    (∀ (v : Word) (off : Fin 4096), off.val = 0x40 * q → let tail := v.toNat % 65536; let head := v.toNat / 65536
      (d.reaches .host = true → d.qpOn q = false → Does s (.doorbell t off v) fun n => n.qp q = { p with bell := some v }) ∧
      (d.reaches .host = true → d.qpOn q = true → tail < N → head < N → (p.sqTail + N - sq) % N ≤ (tail + N - sq) % N →
        (head + N - p.cqHead) % N ≤ (cq + N - p.cqHead) % N → Does s (.doorbell t off v) fun n =>
          n.qp q = { p with sqTail := tail, cqHead := head, announced := p.announced + (tail + N - p.sqTail) % N } ∧ n.bellWord off = v) ∧
      (d.reaches .host = true → d.qpOn q = true → N ≤ tail ∨ N ≤ head ∨ (tail + N - sq) % N < (p.sqTail + N - sq) % N ∨
          (cq + N - p.cqHead) % N < (head + N - p.cqHead) % N → Does s (.doorbell t off v) fun n =>
        n.qp q = p ∧ n.bellWord off = d.bellWord off ∧ n.flag F.HI_QP_FLAGS_bad_bell q = true ∧
        n.rd F.HI_QP_FLAGS_bell_err_cnt q = min (d.rd F.HI_QP_FLAGS_bell_err_cnt q + 1) (2 ^ F.HI_QP_FLAGS_bell_err_cnt.width - 1))) ∧
    (∀ (v : Word) (off : Fin 4096), off.val % 0x40 ≠ 0 → d.bellWord off = 0 ∧ Does s (.doorbell t off v) fun n => n = d) ∧
    (∀ m, d.mayStore m = true → d.flag F.HI_QP_CTRL_draining q = false → d.ringsFenced = false → d.qpOn q = false →
      (d.checkHost (d.sqBase q) (32 * N) false = none → d.checkHost (d.cqBase q) (16 * N) true = none →
        Does s (.qpEnable t m q) fun n => n.qpOn q = true ∧ n.rd F.HI_QP_CTRL_status q = Code.OK ∧ n.rd F.HI_QP_STAT_sq_head q = 0 ∧
          n.rd F.HI_QP_STAT_cq_tail q = 0 ∧ n.flag F.HI_QP_FLAGS_phase q = true ∧ n.fenced Kind.queue q = false ∧ (n.qp q).items = [] ∧
          (n.qp q).bell = none ∧ (n.qp q).silent = false ∧ (p.bell = none → (n.qp q).sqTail = 0 ∧ (n.qp q).cqHead = 0)) ∧
      (∀ e, d.checkHost (d.sqBase q) (32 * N) false = some e ∨
          (d.checkHost (d.sqBase q) (32 * N) false = none ∧ d.checkHost (d.cqBase q) (16 * N) true = some e) →
        Does s (.qpEnable t m q) fun n => n.qpOn q = false ∧ n.rd F.HI_QP_CTRL_status q = e ∧ n.qp q = p)) ∧
    (d.qpOn q = true → p.silent = false → Does s (.qpDisable t q) fun n => n.qpOn q = false ∧ n.rd F.HI_QP_STAT_sq_head q = sq ∧
      (n.qp q).sqTail = p.sqTail ∧ (p.items ≠ [] ∨ sq ≠ p.sqTail → n.flag F.HI_QP_CTRL_draining q = true) ∧
      ∀ i it, p.item i = some it → it.phase = .fetched ∨ it.phase = .received ∨ it.isBuffer = true → n.endedWith q i Code.FENCED) ∧
    (d.qpOn q = true → p.silent = true → Does s (.qpDisable t q) fun n => n.qpOn q = false ∧ n.rd F.HI_QP_STAT_sq_head q = p.sqTail % 65536) ∧
    (∀ c hli, c = Instr.perst t hli ∨ c = Instr.hotReset t hli ∨ c = Instr.functionLevelReset t hli → Does s c fun n =>
      n.rd F.HI_LINK_resets 0 = min (d.rd F.HI_LINK_resets 0 + 1) 65535 ∧ n.rd F.HI_LINK_speed 0 = 0 ∧ n.flag F.HI_LINK_up 0 = false ∧
      n.word (F.HI_ERR.off 0 0) = 0 ∧ n.hi.msix = [] ∧ n.hi.pba = [] ∧ n.hi.d3hot = false ∧ (hli = true → n.fenced Kind.island 6 = false) ∧
      (∀ k : Fin 64, n.qpOn k = false ∧ (n.qp k).silent = true ∧ (n.qp k).bell = none ∧ (n.qp k).sqTail = 0 ∧ (n.qp k).cqHead = 0) ∧
      ((∀ b, c ≠ Instr.hotReset t b) → n.fenced Kind.ringDma 0 = false)) ∧
    (∀ k : Fin 3, Does s (.hostError t q k) fun n =>
      n.flag (if k = 0 then F.HI_ERR_ur_ca else if k = 1 then F.HI_ERR_poisoned else F.HI_ERR_timeout) 0 = true ∧
      n.rd F.HI_ERR_count 0 = min (d.rd F.HI_ERR_count 0 + 1) 65535 ∧ n.fenced Kind.queue q = true ∧
      (∃ more, n.hi.out = d.hi.out ++ .nonFatal k.val :: more) ∧
      (d.fenced Kind.queue q = false → n.qpOn q = false ∧ n.flag F.HI_QP_FLAGS_fenced q = true ∧
        n.rd F.HI_QP_CTRL_status q = Code.FENCED ∧ (n.qp q).silent = true))

/-- R307, R310 to R313 and R317: DESCRIPTOR_FETCH serves the highest priority first; DESCRIPTOR_RECEIVE, COMPLETION_WRITE,
MODERATION_TIMEOUT and DESCRIPTOR_DEADLINE. The model's choices (log entry 38): a passed deadline stops a transfer where the host address is a
multiple of 256, and an announced descriptor of a queue pair that drains is read to be ended with FENCED. -/
def Obligations.DescriptorsFlow : Prop :=
  ∀ (s : State) (t : Nat) (q : Fin 64) (i : Nat) (it : Item), let d := s.now t; let p := d.qp q; let N := d.ringSize q
    let sq := d.rd F.HI_QP_STAT_sq_head q; let cq := d.rd F.HI_QP_STAT_cq_tail q
    (d.hi.d3hot = false → d.mayFetch q = true →
      (∀ k : Fin 64, k ≠ q → d.mayFetch k = true ∨ d.mayRecord k = true → d.rd F.HI_QP_CFG_prio k < d.rd F.HI_QP_CFG_prio q) →
      Does s (.descriptorFetch t) fun n => n.hi.out = d.hi.out ++ [.fetch q sq (d.sqBase q + 32 * sq)] ∧
        (d.qpOn q = true → (n.qp q).items = p.items ++ [{ index := sq }]) ∧
        (d.qpOn q = false → (n.qp q).items = p.items ++ [{ index := sq, phase := .ended Code.FENCED false 0 }]) ∧
        n.rd F.HI_QP_STAT_sq_head q = (sq + 1) % N % 65536 ∧
        ∀ k : Fin 64, k ≠ q → n.qp k = d.qp k) ∧
    (∀ x, p.item i = some it → it.phase = .fetched → it.desc = none →
      (d.checkDescr q x = none → Does s (.descriptorReceive t q i x) fun n =>
        (n.qp q).item i = some { it with desc := some x, phase := .received }) ∧
      (∀ e, d.checkDescr q x = some e → p.silent = false → Does s (.descriptorReceive t q i x) fun n => n.endedWith q i e)) ∧
    (∀ e partly detail rest, p.items = { it with phase := .ended e partly detail } :: rest →
      it.desc = none ∨ p.silent = true ∨ N ≤ d.unconsumed q + 1 ∨ d.hi.d3hot = true → Does s (.completionWrite t q) fun n => n = d) ∧
    (∀ x e partly detail rest, p.items = { it with phase := .ended e partly detail, desc := some x } :: rest → p.silent = false →
      d.unconsumed q + 1 < N → d.hi.d3hot = false →
      Does s (.completionWrite t q) fun n => (n.qp q).items = rest ∧ (n.qp q).done = p.done + 1 ∧
        n.rd F.HI_QP_STAT_cq_tail q = (cq + 1) % N % 65536 ∧
        (n.flag F.HI_QP_FLAGS_phase q = if cq + 1 = N then !d.flag F.HI_QP_FLAGS_phase q else d.flag F.HI_QP_FLAGS_phase q) ∧
        ∃ more, n.hi.out = d.hi.out ++ .words (d.cqBase q + 16 * cq)
          (completionWords x.sequence e (d.rd F.HI_QP_FLAGS_phase q) it.index x.opcode partly detail (d.time / 1024 % 2 ^ 32)) :: more) ∧
    (0 < p.unsignalled → p.unsigAt + 800 * d.rd F.HI_QP_MOD_time q ≤ d.time → Does s (.moderationTimeout t q) fun n =>
      (n.qp q).unsignalled = 0 ∧ (n.qp q).items = p.items) ∧
    (∀ x sending, p.item i = some it → it.desc = some x → isTimed x = true → d.passed x.deadline = true → p.silent = false →
      (it.phase = .received ∨ it.phase = .handed ∨ (it.phase = .started ∧ 4 ≤ x.opcode / 4 ∧ x.opcode / 4 ≤ 7) →
        Does s (.descriptorDeadline t q i sending) fun n => n.endedWith q i Code.DEADLINE) ∧
      (it.phase = .started → x.opcode = Op.MEM_WRITE ∨ x.opcode = Op.MEM_READ → Does s (.descriptorDeadline t q i sending) fun n =>
        ∃ stop, (n.qp q).item i = some { it with stopAt := some stop } ∧ it.moved ≤ stop ∧ stop < it.moved + 256 ∧
          (x.address + stop) % 256 = 0) ∧
      (it.phase = .started → (x.opcode = Op.CAN_TX ∧ sending = true) ∨ x.opcode = Op.ADMIT → Does s (.descriptorDeadline t q i sending) fun n => n.qp q = p))

/-- R315 to R317, R319, R320 and R322: NOP, FENCE, FENCE_COMPLETE, MEM_WRITE, MEM_READ, DATA_TRANSFER_DONE, SNAPSHOT, STREAM_BUF,
RECORD_WRITE and BUFFER_FLUSH. Which unit's section holds a register for which the spec
names none is the model's choice (log entry 40); no clause rests on it. -/
def Obligations.TransfersAndStreams : Prop :=
  ∀ (s : State) (t : Nat) (q : Fin 64) (i : Nat) (x : Descr) (it : Item), let d := s.now t; let p := d.qp q
    let a := x.param2 + it.moved
    (d.standing q i .received x → (∀ e, d.windowCheck x = some e →
      (x.opcode = Op.MEM_WRITE → ∀ data, Does s (.memWrite t q i data) fun n => n.endedWith q i e) ∧
      (x.opcode = Op.MEM_READ → ∀ k w, Does s (.memRead t q i k w) fun n => n.endedWith q i e) ∧
      (x.opcode = Op.SNAPSHOT → Does s (.snapshot t q i) fun n => n.endedWith q i e) ∧
      (x.opcode = Op.STREAM_BUF → Does s (.streamBuf t q i) fun n => n.endedWith q i e))) ∧
    (d.standing q i .received x → d.windowCheck x = none →
      (x.opcode = Op.NOP → Does s (.nop t q i) fun n => n.endedWith q i Code.OK) ∧
      (x.opcode = Op.FENCE → Does s (.fenceItem t q i) fun n => ∃ g, (n.qp q).item i = some g ∧ g.phase = .started ∧
        ∀ k : Fin 64, (k.val, if k = q then p.done + (p.ahead i).length else (d.qp k).announced) ∈ g.awaits) ∧
      (x.opcode = Op.MEM_WRITE → d.hstOwns x.param2 x.length = false → ∀ data, Does s (.memWrite t q i data) fun n =>
        n.endedWith q i Code.NOT_OWNER ∧ ∀ y, n.bankByte y = d.bankByte y) ∧
      (x.opcode = Op.SNAPSHOT → Does s (.snapshot t q i) fun n => n.endedWith q i Code.OK ∧
        (∃ g, (n.qp q).item i = some g ∧ g.phase = .ended Code.OK false (BitVec.ofNat 32 snapSize)) ∧
        ∃ n0 : Dev, n0.time = d.time ∧ n0.be = d.be ∧ n0.flt = d.flt ∧ (∀ off, off ≠ F.HI_QP_FLAGS.off q 0 → n0.word off = d.word off) ∧
          n.hi.out = d.hi.out ++ [.bytes x.address n0.snapshotBytes] ∧ n0.snapshotBytes.length = snapSize ∧
          n0.snapshotBytes.take 32 = numBytes snapSize 4 ++ numBytes snapUnits.length 4 ++ numBytes d.time 8 ++ numBytes d.time 8 ++ numBytes 0 8 ∧
          ∀ u ∈ snapUnits, ∃ before after, n0.snapshotBytes = before ++ (numBytes u.1 1 ++ numBytes u.2.1 1 ++
            numBytes (b2n (d.fenced u.1 u.2.1)) 2 ++ numBytes (snapBody u.1 u.2.2) 4 ++
            numBytes (if u.1 = Kind.loop then (d.loop u.2.1).doneAt else d.time) 8 ++
            (u.2.2.flatMap fun b => numBytes b.1 4 ++ numBytes (4 * b.2) 4 ++ (List.range b.2).flatMap fun k => wordBytes (n0.view (b.1 + 4 * k))) ++
            (if u.1 = Kind.loop then ((List.range 256).flatMap fun k => wordBytes (d.lt (varBase u.2.1 + 4 * k))) ++
              (List.range 64).flatMap fun k => wordBytes (d.lt (parBase u.2.1 + 4 * k)) else [])) ++ after) ∧
      (x.opcode = Op.STREAM_BUF → Does s (.streamBuf t q i) fun n => ∃ g, (n.qp q).item i = some g ∧ g.phase = .started ∧ g.desc = some x)) ∧
    (p.item i = some it → it.desc = some x → it.phase = .started → p.silent = false →
      (x.opcode = Op.FENCE → (∀ e ∈ it.awaits, e.2 ≤ (d.qp e.1).done) → Does s (.fenceComplete t q i) fun n => n.endedWith q i Code.OK) ∧
      (∀ (bytes : List Byte) (w : BankWait), x.opcode = Op.MEM_WRITE → bytes.length ≤ it.left x →
        (d.itsTurn .ring (bankOf a) w.turn.others = false → Does s (.memWrite t q i ⟨bytes, w⟩) fun n => n = d) ∧
        (d.itsTurn .ring (bankOf a) w.turn.others = true →
          (∀ k, k < bytes.length → d.bankOwned 13 (bankOf (a + k)) = true ∧ d.fenced Kind.bank (bankOf (a + k)) = false) →
          Does s (.memWrite t q i ⟨bytes, w⟩) fun n => (n.qp q).item i = some { it with moved := it.moved + bytes.length } ∧
            ∀ y, n.bankByte y = if a ≤ y ∧ y < a + bytes.length then bytes.getD (y - a) 0 else d.bankByte y)) ∧
      (∀ (n : Nat) (w : BankWait), x.opcode = Op.MEM_READ → 0 < n → n ≤ it.left x →
        let reads (k : Nat) : Bool := d.bankReads (a + k) (if (a + k) / 4 = a / 4 then w.turn.upset else {})
        (d.itsTurn .ring (bankOf a) w.turn.others = false → Does s (.memRead t q i n w) fun m => m = d) ∧
        (d.itsTurn .ring (bankOf a) w.turn.others = true →
          ((∀ k, k < n → reads k = true) → Does s (.memRead t q i n w) fun m => (m.qp q).item i = some { it with moved := it.moved + n } ∧
            m.hi.out = d.hi.out ++ [.bytes (x.address + it.moved) ((List.range n).map fun k => d.bankByte (a + k))]) ∧
          (∀ k, k < n → (∀ j, j < k → reads j = true) → reads k = false → Does s (.memRead t q i n w) fun m =>
            ∃ g, (m.qp q).item i = some g ∧
              g.phase = .ended Code.BROKEN (decide (0 < it.moved + k)) (BitVec.ofNat 32 (it.moved + k))))) ∧
      (x.opcode = Op.MEM_WRITE ∨ x.opcode = Op.MEM_READ → it.left x = 0 → Does s (.dataTransferDone t q i) fun n =>
        n.endedWith q i (if it.moved < x.length then Code.DEADLINE else Code.OK))) ∧
    (∀ e, d.hi.records.find? (fun e => e.1 == q.val) = some e → p.held = [] → let seq := d.rd64 F.HI_QP_SEQ_LO F.HI_QP_SEQ_HI q
      (d.qpOn q = true → p.buffer = some it → it.desc = some x → it.moved + ({ e.2 with seq } : StreamRec).bytes.length ≤ x.length → e.2.type ≠ 2 →
        d.hi.d3hot = false → d.rxSource q = none →
        (∀ k : Fin 64, k ≠ q → d.mayFetch k = true ∨ d.mayRecord k = true → d.rd F.HI_QP_CFG_prio k < d.rd F.HI_QP_CFG_prio q) →
        Does s (.recordWrite t q) fun n => n.hi.out = d.hi.out ++ [.bytes (x.address + it.moved) ({ e.2 with seq } : StreamRec).bytes] ∧
          (n.qp q).held = [] ∧ n.hi.records = d.hi.records.erase e ∧ n.rd64 F.HI_QP_SEQ_LO F.HI_QP_SEQ_HI q = (seq + 1) % 2 ^ 64) ∧
      ((∃ k : Fin 64, d.mayFetch k = true ∧ d.rd F.HI_QP_CFG_prio q < d.rd F.HI_QP_CFG_prio k) → d.qpOn q = true → Does s (.recordWrite t q) fun n =>
        n.hi.out = d.hi.out ∧ (n.qp q).held = [{ e.2 with seq }] ∧ n.hi.records = d.hi.records.erase e) ∧
      (d.qpOn q = false → Does s (.recordWrite t q) fun n => n.flag F.HI_QP_FLAGS_lost q = true ∧
        (n.qp q).held = [{ seq, stamp := d.time, type := 2, body := [1, 0] }] ∧
        n.rd F.HI_QP_LOST q = min (d.rd F.HI_QP_LOST q + 1) (2 ^ F.HI_QP_LOST.width - 1) ∧
        n.rd64 F.HI_QP_SEQ_LO F.HI_QP_SEQ_HI q = (seq + 1) % 2 ^ 64)) ∧
    (∀ c r rest, (∀ e ∈ d.hi.records, e.1 ≠ q.val) → (∀ e ∈ d.be.emitted, e.qp ≠ q.val) → d.rxSource q = some c → (d.can c).held = r :: rest →
      d.hi.d3hot = false → d.qpOn q = true → p.buffer = some it → it.desc = some x → it.moved + r.bytes.length ≤ x.length →
      (∀ k : Fin 64, k ≠ q → d.mayFetch k = true ∨ d.mayRecord k = true → d.rd F.HI_QP_CFG_prio k < d.rd F.HI_QP_CFG_prio q) →
      Does s (.recordWrite t q) fun n => n.hi.out = d.hi.out ++ [.bytes (x.address + it.moved) r.bytes] ∧ (n.can c).held = rest ∧
        n.served (d.rd F.HI_QP_CFG_prio q) = q) ∧
    (p.buffer = some it → p.item it.index = some it → 0 < it.moved → it.firstAt + 80000 * d.rd F.HI_QP_MOD_flush q ≤ d.time →
      p.silent = false → Does s (.bufferFlush t q) fun n => n.endedWith q it.index Code.OK)

/-! ### CAN network and network time (chapter 15) -/

/-- R324, R327, R331, R332, R337 and R338: CAN_TX, SLOT_LOAD and FRAME_TX_END. That an error counter rises by 8 and falls by 1 is ISO 11898-1's
rule, which R327 cites; that an error in an XL frame without error signalling leaves the counters and has the controller integrate is
presumed of it (log entry 42). A window disabled since the descriptor was received ends it by R303. -/
def Obligations.CanTransmits : Prop :=
  ∀ (s : State) (t : Nat) (c : Fin 8) (q : Fin 64) (i : Nat) (x : Descr) (it : Item), let d := s.now t; let l := x.target; let v := d.can c
    let fv := d.rd64 F.FL_FV_TX_LO F.FL_FV_TX_HI l
    ((d.qp q).item i = some it → it.desc = some x → it.phase = .received → x.opcode = Op.CAN_TX → (d.qp q).silent = false →
      d.rd F.FL_CFG_controller l = c.val → (∀ f ∈ v.frames, f.qp ≠ q.val ∨ f.index ≠ i) → d.securesNext q i c = true →
      ∀ data, let bs := data.take x.length
      (∀ e, d.windowCheck x = some e → Does s (.canTx t q i data) fun n => n.endedWith q i e) ∧
      (isRtr x = true → Does s (.canTx t q i data) fun n =>
        (n.can c).frames = v.frames ++ [{ qp := q, index := i, flow := l, frame := d.txFrame x [] }]) ∧
      (d.windowCheck x = none → isRtr x = false →
      (d.rd F.FL_CFG_profile l = 1 → isFd x = false → Does s (.canTx t q i data) fun n =>
        (n.can c).frames = v.frames ++ [{ qp := q, index := i, flow := l, frame := d.txFrame x bs }]) ∧
      (d.rd F.FL_CFG_profile l ≠ 1 → fv = 2 ^ 64 - 1 → Does s (.canTx t q i data) fun n => n.endedWith q i Code.OVERFLOW) ∧
      (d.rd F.FL_CFG_profile l ≠ 1 → fv ≠ 2 ^ 64 - 1 → d.keyOf (d.rd F.FL_SEC_key l) = none → Does s (.canTx t q i data) fun n =>
        n.endedWith q i Code.AUTH ∧ n.rd64 F.FL_FV_TX_LO F.FL_FV_TX_HI l = fv) ∧
      (∀ key, d.rd F.FL_CFG_profile l = 2 → isFd x = false → fv ≠ 2 ^ 64 - 1 → d.keyOf (d.rd F.FL_SEC_key l) = some key →
        d.fenced Kind.crypto 0 = false → Does s (.canTx t q i data) fun n =>
          let secured := bs ++ numBytes fv (d.rd F.FL_SEC_fv l + 1) ++ d.authTag key l (d.rd F.FL_ID_id l) (formatByte (d.txFrame x []) false) fv bs
          (n.can c).frames = v.frames ++ [{ qp := q, index := i, flow := l, frame := d.txFrame x secured }] ∧
          n.rd64 F.FL_FV_TX_LO F.FL_FV_TX_HI l = fv + 1))) ∧
    (∀ k f, q.val = d.rd F.CN_CFG_tx_qp c → (d.qp q).items.find? (fun it => !it.begun) = some it → (d.qp q).item it.index = some it →
      it.desc = some x → (d.qp q).mayStart it.index (isSerial x) = true → d.onBus c = true → k < 3 → (∀ z ∈ v.slots, z.slot ≠ k) →
      (∀ j, j < k → ∃ z ∈ v.slots, z.slot = j) → v.frames.find? (fun f => f.qp == q.val && f.index == it.index) = some f →
      (∀ z ∈ v.slots, z.frame.flow ≠ f.flow) → Does s (.slotLoad t c) fun n =>
        (n.can c).slots = v.slots ++ [{ slot := k, frame := f, loadedAt := d.time }] ∧ (n.can c).frames = v.frames.erase f ∧
        (n.qp q).item it.index = some { it with phase := .started }) ∧
    (∀ k (a : TxAttempt) sof, v.slots = [k] → k.frame.qp = q.val → (d.qp q).item k.frame.index = some it → it.phase = .started → it.desc = some x →
      x.opcode = Op.CAN_TX → (d.qp q).silent = false → k.loadedAt ≤ sof → sof ≤ d.time → d.triggered k.frame.flow = false →
      d.guarded c sof k.frame.flow = false → d.maySend c = true → let f := k.frame.flow; let tec := d.rd F.CN_STAT_tec c; let rec1 := d.rd F.CN_STAT_rec c
      let silent := k.frame.frame.format = 3 ∧ d.flag F.CN_CFG_xl_es c = false ∧ a.ended ≠ .ok ∧ a.ended ≠ .arbLost
      let next := 8 * a.flags + match a.ended with
        | .ok => tec - 1
        | .arbLost => tec
        | .noAck => if d.canState c = canPassive then tec else tec + 8
        | .stuffError => if a.inArb = true then tec else tec + 8
        | _ => tec + 8
      Does s (.frameTxEnd t c a sof) fun n => (n.can c).slots = [] ∧ n.endedWith q k.frame.index (txStatus a.ended) ∧
        n.cn.sent = d.cn.sent ++ [{ ctl := c, sof := sof, frame := k.frame.frame, ended := a.ended }] ∧
        n.rd F.FL_STAT_last_status f = txStatus a.ended ∧
        (a.ended = .ok → n.rd F.FL_STAT_frames f = (d.rd F.FL_STAT_frames f + 1) % 65536) ∧
        (a.ended = .noAck → n.rd F.CN_CNT_no_ack c = min (d.rd F.CN_CNT_no_ack c + 1) 255) ∧
        (silent → n.rd F.CN_STAT_tec c = tec ∧ n.canState c = canIntegrating) ∧
        (¬ silent → n.rd F.CN_STAT_tec c = min next 256 ∧
          n.canState c = if 255 < next then canBusOff else if 127 < next ∨ 127 < rec1 then canPassive else canActive)) ∧
    (d.flag F.CN_CFG_listen_only c = true → ∀ a sof, Does s (.frameTxEnd t c a sof) fun n => n = d)

/-- R327, R333 to R336 and R339: CAN_RXBUF, FRAME_RECEIVE, FLOW_STALE and RECEIVE_ERROR. That a controller integrates after an error in an XL
frame without error signalling is presumed of ISO 11898-1 (log entry 42). -/
def Obligations.CanReceives : Prop :=
  ∀ (s : State) (t : Nat) (c : Fin 8) (q : Fin 64) (i : Nat) (x : Descr) (f : CanFrame) (sof l : Nat), let d := s.now t
    let count := d.rd F.CN_STAT_rec c; let r2 := if 127 < count then 119 else count - 1
    (d.standing q i .received x → x.opcode = Op.CAN_RXBUF →
      (d.windowCheck x = none → Does s (.canRxbuf t q i) fun n => ∃ g, (n.qp q).item i = some g ∧ g.phase = .started ∧ g.desc = some x) ∧
      (∀ e, d.windowCheck x = some e → Does s (.canRxbuf t q i) fun n => n.endedWith q i e)) ∧
    (d.onBus c = true → d.protoTakes c f = true → f.ref = none →
      (d.matchFlow c f = none → Does s (.frameReceive t c f sof) fun n => n.rd F.CN_STAT_rec c = r2 ∧
        n.rd F.CN_CNT_unmatched c = min (d.rd F.CN_CNT_unmatched c + 1) 65535) ∧
      (d.matchFlow c f = some l → d.fenced Kind.flow l = true → Does s (.frameReceive t c f sof) fun n => n.rd F.CN_STAT_rec c = r2 ∧
        n.rd F.FL_STAT_frames l = d.rd F.FL_STAT_frames l) ∧
      (∀ st data fv, d.matchFlow c f = some l → d.fenced Kind.flow l = false →
        d.checkFrame l (formatByte f false) f.ident f.data = (st, data, fv) →
        (st = Code.OK → Does s (.frameReceive t c f sof) fun n => n.rd F.CN_STAT_rec c = r2 ∧
          n.rd F.FL_STAT_frames l = (d.rd F.FL_STAT_frames l + 1) % 65536 ∧ n.flag F.FL_STAT_stale l = false ∧
          n.rd64 F.FL_LAST_LO F.FL_LAST_HI l = sof % 2 ^ 64 ∧ n.rd64 F.FL_FV_RX_LO F.FL_FV_RX_HI l = fv % 2 ^ 64 ∧
          (n.flow l).ageFrom = d.time ∧
          (d.rd F.FL_CFG_dest l = 1 → let h := (d.can c).held; let qp := d.rd F.CN_CFG_rx_qp c
            ((h.filter fun r => r.status != Code.LOST).length < 64 → ∃ r : RxRec, (n.can c).held = h ++ [r] ∧
              r.time = sof ∧ r.flow = l ∧ r.status = Code.OK ∧ r.ident = f.ident ∧ r.data = data) ∧
            (64 ≤ (h.filter fun r => r.status != Code.LOST).length → n.flag F.HI_QP_FLAGS_lost qp = true ∧
              n.rd F.HI_QP_LOST qp = min (d.rd F.HI_QP_LOST qp + 1) (2 ^ F.HI_QP_LOST.width - 1))) ∧
          (d.rd F.FL_CFG_dest l = 2 → 64 < data.length → n.rd F.FL_STAT_last_status l = Code.LENGTH ∧ n.mb = d.mb ∧
            (n.flow l).mails = (d.flow l).mails) ∧
          (∀ a, a = d.rd F.FL_SC_ADDR_addr l → d.rd F.FL_CFG_dest l = 2 → data.length ≤ 64 →
              (n.can c).held = (d.can c).held ∧ (n.flow l).mails = (d.flow l).mails + 1 ∧
              ∃ ws : List BankIssue, n.mb.issued = d.mb.issued ++ ws ∧ ws.length = 24 ∧
                ws.head? = some { addr := a + 4, bytes := 4, data := BitVec.ofNat 32 f.ident } ∧
                ws.getLast? = some { addr := a, bytes := 4, data := BitVec.ofNat 32 ((d.flow l).mails + 1) } ∧
                ∀ w ∈ ws, w.bytes = 4 ∧ a ≤ w.addr ∧ w.addr ≤ a + 92)) ∧
        (st ≠ Code.OK → Does s (.frameReceive t c f sof) fun n => n.rd F.FL_STAT_last_status l = st ∧
          n.rd F.FL_STAT_frames l = d.rd F.FL_STAT_frames l ∧
          n.rd64 F.FL_FV_RX_LO F.FL_FV_RX_HI l = d.rd64 F.FL_FV_RX_LO F.FL_FV_RX_HI l ∧
          (st = Code.STALE → n.flag F.FL_STAT_replay l = true ∧ n.rd F.FL_CNT_replay l = min (d.rd F.FL_CNT_replay l + 1) 65535) ∧
          (st = Code.AUTH → n.flag F.FL_STAT_auth l = true ∧ n.rd F.FL_CNT_auth l = min (d.rd F.FL_CNT_auth l + 1) 65535)))) ∧
    (d.onBus c = true → d.protoTakes c f = false → d.flag F.CN_CFG_pex c = true → Does s (.frameReceive t c f sof) fun n =>
      n.canState c = canIntegrating) ∧
    (∀ k : Fin 256, d.flag F.FL_CFG_enable k = true → d.rd F.FL_CFG_dir k = 1 → d.flag F.FL_CFG_age_en k = true →
      d.flag F.CN_CFG_enable (d.rd F.FL_CFG_controller k) = true → d.flag F.FL_STAT_stale k = false → d.fenced Kind.flow k = false →
      (d.flow k).ageFrom + 80000 * d.rd F.FL_AGE_max_age k ≤ d.time → Does s (.flowStale t k) fun n => n.flag F.FL_STAT_stale k = true) ∧
    (∀ e : RxError, d.onBus c = true → d.rd F.CN_STAT_tec c ≤ 255 → let next := count + if e = .eight then 8 else 1
      (e ≠ .xl ∨ d.flag F.CN_CFG_xl_es c = true → Does s (.receiveError t c e) fun n => n.rd F.CN_STAT_rec c = min next 255 ∧
        n.rd F.CN_STAT_tec c = d.rd F.CN_STAT_tec c ∧
        n.canState c = if 127 < d.rd F.CN_STAT_tec c ∨ 127 < next then canPassive else canActive) ∧
      (e = .xl → d.flag F.CN_CFG_xl_es c = false → Does s (.receiveError t c e) fun n => n.rd F.CN_STAT_rec c = count ∧
        n.rd F.CN_STAT_tec c = d.rd F.CN_STAT_tec c ∧ n.canState c = canIntegrating))

/-- R327, R329 and R340 to R343: INTEGRATION_DONE, RECOVER, RECOVERY_COMPLETE, TT_TRIGGER, MISSED_WINDOW, TT_REFERENCE_SEND, LISTEN_END and
MASTER_LOST. -/
def Obligations.CanStatesAndTime : Prop :=
  ∀ (s : State) (t : Nat) (c : Fin 8), let d := s.now t; let v := d.can c
    let ticks := fun n : Nat => n * (d.word (F.CN_TT_NTU.off c 0)).toNat / 65536
    let cycle := ticks (d.rd F.CN_TT_CYCLE_cycle c)
    (d.canState c = canIntegrating → d.fenced Kind.can c = false → d.rd F.CN_STAT_tec c ≤ 127 → d.rd F.CN_STAT_rec c ≤ 127 →
      Does s (.integrationDone t c) fun n => n.canState c = canActive) ∧
    (∀ m, d.mayStore m = true → d.fenced Kind.can c = false →
      (d.canState c = canBusOff → Does s (.recover t m c) fun n => n.canState c = canRecovering ∧ n.flag F.CN_CTRL_pending c = true) ∧
      (d.canState c ≠ canBusOff → Does s (.recover t m c) fun n => n.canState c = d.canState c)) ∧
    (d.canState c = canRecovering →
      (d.fenced Kind.can c = false → Does s (.recoveryComplete t c) fun n => n.canState c = canActive ∧ n.rd F.CN_STAT_tec c = 0 ∧
        n.rd F.CN_STAT_rec c = 0 ∧ n.flag F.CN_CTRL_pending c = false ∧ n.rd F.CN_CTRL_status c = Code.OK) ∧
      (d.fenced Kind.can c = true → Does s (.recoveryComplete t c) fun n => n = d)) ∧
    (∀ k : Fin 32, d.ttState c = ttFollowing ∨ d.ttState c = ttMaster → d.onBus c = true → d.trigCycle c k (d.rd F.CN_TT_STAT_cycle_count c) = true →
      v.cycleAt + ticks (d.rd2 F.CN_TT_MARK_mark c k) ≤ d.time → let l := d.rd2 F.CN_TT_TRIG_flow c k
      (d.rd2 F.CN_TT_TRIG_type c k = 3 → k.val ∉ v.seen → Does s (.ttTrigger t c k) fun n => n.flag F.FL_STAT_missed l = true ∧
        n.flag F.CN_TT_STAT_missed c = true) ∧
      (d.rd2 F.CN_TT_TRIG_type c k = 3 → k.val ∈ v.seen → Does s (.ttTrigger t c k) fun n =>
        n.flag F.FL_STAT_missed l = d.flag F.FL_STAT_missed l ∧ k.val ∉ (n.can c).seen) ∧
      (d.rd2 F.CN_TT_TRIG_type c k ≠ 3 → ∀ z ∈ v.slots, z.frame.flow = l → z.offer = none → Does s (.ttTrigger t c k) fun n =>
        { z with offer := some (v.cycleAt + ticks (d.rd2 F.CN_TT_MARK_mark c k)) } ∈ (n.can c).slots)) ∧
    (∀ (k : Fin 3) z m it, v.slots.find? (fun z => z.slot == k.val) = some z → z.offer = some m →
      m + ticks (d.rd F.CN_TT_CFG_tx_win c) < d.time → (d.qp z.frame.qp).item z.frame.index = some it → it.hasEnded = false →
      (d.qp z.frame.qp).silent = false → Does s (.missedWindow t c k) fun n => n.endedWith z.frame.qp z.frame.index Code.MISSED_WINDOW ∧
        n.flag F.CN_TT_STAT_missed c = true ∧ n.rd F.FL_STAT_last_status z.frame.flow = Code.MISSED_WINDOW) ∧
    (∀ (a : TxAttempt) sof, d.maySend c = true → d.rd F.CN_TT_CFG_role c = 2 → v.cycleAt + cycle ≤ sof → sof ≤ d.time →
      d.ttState c = ttMaster ∨ (d.ttState c = ttFollowing ∧ v.contend = true ∧ v.gap = false) →
      tecAfter a (d.canState c == canPassive) (d.rd F.CN_STAT_tec c) ≤ 255 →
      let sent : SentFrame := { ctl := c, sof := sof, frame := d.referenceFrame c sof, ended := a.ended }
      (a.ended = .ok → Does s (.ttReferenceSend t c a sof) fun n =>
        n.ttState c = ttMaster ∧ (n.can c).cycleAt = sof ∧ n.rd F.CN_TT_STAT_master_prio c = d.rd F.CN_TT_CFG_prio c ∧
        n.rd F.CN_TT_STAT_cycle_count c = (d.rd F.CN_TT_STAT_cycle_count c + 1) % 2 ^ d.rd F.CN_TT_CFG_mc_log2 c % 64 ∧
        n.cn.sent = d.cn.sent ++ [sent] ∧
        sent.frame.ident = d.rd F.CN_TT_CFG_ref_hi c * 8 + d.rd F.CN_TT_CFG_prio c ∧
        (d.flag F.CN_TT_CFG_level2 c = true → (n.can c).lastMark = d.ttNow c sof)) ∧
      (a.ended = .arbLost → Does s (.ttReferenceSend t c a sof) fun n => n.cn.sent = d.cn.sent ++ [sent] ∧ (n.can c).contend = false ∧
        (d.ttState c = ttMaster → n.ttState c = ttListening ∧ (n.can c).listenAt = d.time) ∧
        (d.ttState c = ttFollowing → n.ttState c = ttFollowing)) ∧
      (a.ended ≠ .ok → a.ended ≠ .arbLost → Does s (.ttReferenceSend t c a sof) fun n => n.cn.sent = d.cn.sent ++ [sent] ∧
        n.ttState c = d.ttState c)) ∧
    (d.ttState c = ttListening → v.listenAt + 2 ^ d.rd F.CN_TT_CFG_mc_log2 c * cycle ≤ d.time → Does s (.listenEnd t c) fun n =>
      n.ttState c = ttFollowing ∧ (n.can c).contend = !v.higherSeen) ∧
    (d.ttState c = ttFollowing ∨ d.ttState c = ttListening → v.gap = false → v.cycleAt + ticks (d.rd F.CN_TT_CYCLE_ref_watch c) ≤ d.time →
      Does s (.masterLost t c) fun n => n.flag F.CN_TT_STAT_master_lost c = true ∧ (n.can c).goodRefs = 0) ∧
    (v.gap = true → Does s (.masterLost t c) fun n => n = d)

/-! ### Security and Imset (chapter 16) -/

/-- R356 and R357: the seven privileged descriptors (UNSEAL, ENROLL after the first, REVOKE, UPDATE_ACTIVATE, KEY_LOAD, KEY_ERASE,
RAISE_COUNTER) end with the status of the first check that fails and then change nothing that Imset holds; where all pass, the session's
counter follows the request. A host range that no window holds any more ends them by R303. That they end with FENCED under a fenced crypto
engine, before every other check, is R372 (spec/17_faults_and_recovery.md) as log entry 45 reads it. No frame waits on the service UART,
whose turn would come beside theirs (R358). -/
def Obligations.PrivilegeIsChecked : Prop :=
  ∀ (s : State) (t i : Nat) (x : Descr) (buf : List Byte) (blown : Nat) (err : Bool) (c : Instr), let d := s.now t; let b := buf.take x.length
    d.standing 0 i .received x → d.targetFenced 0 x = false → d.sec.uartIn = [] →
    (x.opcode = Op.UNSEAL ∧ c = .unseal t i buf) ∨
      (x.opcode = Op.ENROLL ∧ c = .enroll t i buf blown ∧ (x.target ≠ 0 ∨ ∃ k : Fin 4, d.enrolled k ≠ none)) ∨
      (x.opcode = Op.REVOKE ∧ c = .revoke t i buf blown) ∨ (x.opcode = Op.UPDATE_ACTIVATE ∧ c = .updateActivate t i buf ⟨blown, err⟩) ∨
      (x.opcode = Op.KEY_LOAD ∧ c = .keyLoad t i ⟨buf, err⟩) ∨ (x.opcode = Op.KEY_ERASE ∧ c = .keyErase t i ⟨buf, err⟩) ∨
      (x.opcode = Op.RAISE_COUNTER ∧ c = .raiseCounter t i buf blown) →
    (∀ e, d.windowCheck x = some e → Does s c fun n => n.endedWith 0 i e ∧ n.sec = d.sec) ∧
    (d.windowCheck x = none → d.fenced Kind.crypto 0 = true → Does s c fun n => n.endedWith 0 i Code.FENCED ∧ n.sec = d.sec) ∧
    (d.windowCheck x = none → d.fenced Kind.crypto 0 = false →
      ((∀ z, d.sec.qpSession = some z → z.ends ≤ d.time ∨ numAt b 8 4 ≠ z.number) → Does s c fun n =>
        n.endedWith 0 i Code.NO_SESSION ∧ n.sec = d.sec) ∧
      (∀ z, d.sec.qpSession = some z → d.time < z.ends → numAt b 8 4 = z.number →
        (numAt b 0 8 ≤ z.counter → Does s c fun n => n.endedWith 0 i Code.STALE ∧ n.sec = d.sec) ∧
        (z.counter < numAt b 0 8 → requestTag z.key x (b.take 8) (b.drop 64) ≠ (b.drop 12).take 32 → Does s c fun n =>
          n.endedWith 0 i Code.AUTH ∧ n.sec = d.sec) ∧
        (z.counter < numAt b 0 8 → requestTag z.key x (b.take 8) (b.drop 64) = (b.drop 12).take 32 → Does s c fun n =>
          n.sec.qpSession = some { z with counter := numAt b 0 8 })))

/-- R33, R350, R355, R359, R362 and R363: UNSEAL, ENROLL, REVOKE, UPDATE_ACTIVATE, KEY_LOAD, KEY_ERASE and RAISE_COUNTER, once they are
authorised and their host range lies in a window. The model's choices: UNSEAL outside SEALED completes with NOT_SEALED (log entry 45); the
part of a raise that blew stays (log entry 47); UPDATE_ACTIVATE takes the slot that is not in use, and confirms before the counter is burned
(log entry 48). RAISE_COUNTER names a counter from 8 to 63 (R358). -/
def Obligations.PrivilegedEffects : Prop :=
  ∀ (s : State) (t i : Nat) (x : Descr) (buf : List Byte) (blown : Nat) (err : Bool) (z : Session), let d := s.now t; let b := buf.take x.length
    let now := d.counter x.target
    d.standing 0 i .received x → d.targetFenced 0 x = false → d.sec.uartIn = [] → d.windowCheck x = none →
    (x.opcode = Op.ENROLL → x.target = 0 → (∀ k : Fin 4, d.enrolled k = none) → 64 ≤ b.length → 0 < blown →
      Does s (.enroll t i buf blown) fun n => n.endedWith 0 i Code.OK ∧ n.enrolled 0 = some (b.take 64)) ∧
    (d.authorise false x b = none → d.sec.qpSession = some z →
      (x.opcode = Op.UNSEAL → Does s (.unseal t i buf) fun n =>
        (d.isSealed = true → d.anyRun = false → d.sequencersRest = true → n.endedWith 0 i Code.OK ∧ n.devState = DevSt.setup) ∧
        (d.isSealed = true → d.anyRun = true ∨ d.sequencersRest = false → n.endedWith 0 i Code.NOT_STOPPED ∧ n.devState = d.devState) ∧
        (d.isSealed = false → n.endedWith 0 i Code.NOT_SEALED ∧ n.devState = d.devState)) ∧
      (x.opcode = Op.ENROLL → x.target ≠ 0 → 64 ≤ (b.drop 64).length → 0 < blown → Does s (.enroll t i buf blown) fun n =>
        (d.enrolled x.target = none → n.endedWith 0 i Code.OK ∧ n.enrolled x.target = some ((b.drop 64).take 64)) ∧
        (d.enrolled x.target ≠ none → n.endedWith 0 i Code.OTP_FULL ∧ n.enrolled x.target = d.enrolled x.target)) ∧
      (x.opcode = Op.REVOKE → 0 < blown → Does s (.revoke t i buf blown) fun n =>
        (3 ≤ d.counter 3 → n.endedWith 0 i Code.OTP_FULL ∧ n.counter 3 = d.counter 3) ∧
        (d.counter 3 < 3 → d.enrolled (d.counter 3 + 1) = none → n.endedWith 0 i Code.RANGE_VALUE ∧ n.counter 3 = d.counter 3) ∧
        (d.counter 3 < 3 → d.enrolled (d.counter 3 + 1) ≠ none → n.endedWith 0 i Code.OK ∧ n.counter 3 = d.counter 3 + 1 ∧
          n.integratorKey = d.enrolled (d.counter 3 + 1))) ∧
      (x.opcode = Op.RAISE_COUNTER → 8 ≤ x.target → x.target < 64 → Does s (.raiseCounter t i buf blown) fun n =>
        (1023 < x.param1 → n.endedWith 0 i Code.OTP_FULL ∧ n.counter x.target = now) ∧
        (x.param1 ≤ 1023 → x.param1 ≤ now → n.endedWith 0 i Code.OK ∧ n.counter x.target = now) ∧
        (x.param1 ≤ 1023 → now < x.param1 → x.param1 ≤ now + blown → n.endedWith 0 i Code.OK ∧ n.counter x.target = x.param1) ∧
        (x.param1 ≤ 1023 → now + blown < x.param1 → n.counter x.target = now + blown ∧ n.flag F.SEC_STAT_otp_err 0 = true)) ∧
      (x.opcode = Op.UPDATE_ACTIVATE → Does s (.updateActivate t i buf ⟨blown, err⟩) fun n =>
        (bitOf x.param1 1 = true → d.anyRun = true → n.endedWith 0 i Code.NOT_STOPPED ∧ n.image x.target = d.image x.target) ∧
        (x.param1 % 4 = 0 ∨ (x.param1 % 4 = 2 ∧ d.anyRun = false) → ∀ v, d.otherSlot x.target = some v →
          if d.verifyImage x.target v = Code.OK then n.endedWith 0 i Code.OK ∧ (n.image x.target).trial = some v ∧
            n.flag F.SEC_IMG_pending x.target = true ∧ (x.param1 % 4 = 2 → n.sec.resetAt = some (d.time + 800000))
          else n.endedWith 0 i (d.verifyImage x.target v) ∧ (n.image x.target).trial = (d.image x.target).trial) ∧
        (x.param1 % 4 = 1 → d.onTrial x.target = true → d.rd F.SEC_IMG_version x.target ≤ now + blown → n.endedWith 0 i Code.OK ∧
          (n.image x.target).active = !(d.image x.target).active ∧ n.flag F.SEC_IMG_trial x.target = false ∧
          n.counter x.target = max now (d.rd F.SEC_IMG_version x.target))) ∧
      (x.opcode = Op.KEY_LOAD → Does s (.keyLoad t i ⟨buf, err⟩) fun n =>
        match gcmOpen z.key (numBytes (numAt b 0 8) 8 ++ numBytes x.target 2 ++ numBytes 0 2) (numBytes x.target 2) ((b.drop 64).take 48) with
        | some key => n.endedWith 0 i Code.OK ∧ n.keyOf x.target = some key ∧ ∀ k, k ≠ x.target → n.keyOf k = d.keyOf k
        | none => n.endedWith 0 i Code.AUTH ∧ ∀ k, n.keyOf k = d.keyOf k) ∧
      (x.opcode = Op.KEY_ERASE → Does s (.keyErase t i ⟨buf, err⟩) fun n => n.endedWith 0 i Code.OK ∧ n.keyOf x.target = none ∧
        ∀ k, k ≠ x.target → n.keyOf k = d.keyOf k))

/-- R353, R354, R356, R362, R364 to R366: IDENTITY, ATTEST, SESSION_OPEN, SESSION_CLOSE, SESSION_EXPIRY, UPDATE_WRITE, UPDATE_VERIFY,
LEDGER_READ, LIFETIME_READ and UART_FRAME. A host range that no window holds any more ends a descriptor by R303. FENCED under a fenced crypto
engine is R372 (spec/17_faults_and_recovery.md) as log entry 45 reads it. The model's choices: a UART payload below 32 bytes, or one of which the length
field tells another length, counts as a bad frame (log entry 54); a write over an image that has been active updates the directory in flash
sector 0 (log entries 48 and 51). A frame waits on the UART for the descriptors received on QP0 before it (R358). -/
def Obligations.ImsetServes : Prop :=
  ∀ (s : State) (t i : Nat) (x : Descr) (buf : List Byte), let d := s.now t; let b := buf.take x.length
    (d.standing 0 i .received x → d.targetFenced 0 x = false → d.sec.uartIn = [] → ∀ e c, d.windowCheck x = some e →
      (x.opcode = Op.IDENTITY ∧ c = Instr.identity t i) ∨ (x.opcode = Op.ATTEST ∧ c = Instr.attest t i buf) ∨
        (x.opcode = Op.SESSION_OPEN ∧ c = Instr.sessionOpen t i buf) ∨ (∃ k, x.opcode = Op.UPDATE_WRITE ∧ c = Instr.updateWrite t i buf k) ∨
        (x.opcode = Op.LEDGER_READ ∧ c = Instr.ledgerRead t i) ∨ (x.opcode = Op.LIFETIME_READ ∧ c = Instr.lifetimeRead t i) →
      Does s c fun n => n.endedWith 0 i e ∧ n.sec = d.sec) ∧
    (d.standing 0 i .received x → d.targetFenced 0 x = false → d.sec.uartIn = [] → d.windowCheck x = none →
      (x.opcode = Op.IDENTITY → Does s (.identity t i) fun n => n.endedWith 0 i Code.OK ∧
        n.hi.out = d.hi.out ++ [.bytes x.address (identityKey ++ (List.range 29792).map Config.identityCert)]) ∧
      (x.opcode = Op.ATTEST → d.fenced Kind.crypto 0 = false → Does s (.attest t i buf) fun n => n.endedWith 0 i Code.OK ∧
        ∃ signature, n.hi.out = d.hi.out ++ [.bytes x.address (d.attestRecord (buf.take 32) ++ signature)] ∧ signature.length = 49856) ∧
      (∀ c, d.fenced Kind.crypto 0 = true → (x.opcode = Op.ATTEST ∧ c = Instr.attest t i buf) ∨ (x.opcode = Op.SESSION_OPEN ∧ c = Instr.sessionOpen t i buf) ∨
          (x.opcode = Op.UPDATE_VERIFY ∧ c = Instr.updateVerify t i) → Does s c fun n => n.endedWith 0 i Code.FENCED ∧ n.sec = d.sec) ∧
      (x.opcode = Op.SESSION_OPEN → d.fenced Kind.crypto 0 = false →
        let signed := b.take 1568 ++ (idDigest ++ numBytes d.boots 4 ++ numBytes 0 1) ++ numBytes x.param1 2
        (d.integratorKey = none → Does s (.sessionOpen t i buf) fun n => n.endedWith 0 i Code.AUTH ∧ n.sec = d.sec) ∧
        (∀ key, d.integratorKey = some key → Does s (.sessionOpen t i buf) fun n =>
          if Config.slhVerify key signed "XV6400 SESSION" ((b.drop 1568).take 29792) = true then n.endedWith 0 i Code.OK ∧
            ∃ z, n.sec.qpSession = some z ∧ z.number = d.sec.opened + 1 ∧ z.counter = 0 ∧ z.ends = d.time + 48000000000 * x.param1
          else n.endedWith 0 i Code.AUTH ∧ n.sec = d.sec)) ∧
      (x.opcode = Op.SESSION_CLOSE → Does s (.sessionClose t i) fun n => n.endedWith 0 i Code.OK ∧ n.sec.qpSession = none ∧
        n.sec.uartSession = d.sec.uartSession) ∧
      (∀ e v, x.opcode = Op.UPDATE_WRITE → d.spareSlot x.target = some v → x.param2 + x.length ≤ slotSize x.target →
        let a := slotBase x.target v + x.param2
        Does s (.updateWrite t i buf e) fun n => n.endedWith 0 i Code.OK ∧
          (∀ y, 65536 ≤ y → n.flashByte y = if a ≤ y ∧ y < a + b.length then b.getD (y - a) 0 else d.flashByte y) ∧
          ((if v then (d.image x.target).beenB else (d.image x.target).beenA) = false → ∀ y, y < 65536 → n.flashByte y = d.flashByte y) ∧
          (e = true → n.flag F.IMS_STAT_flash_err 0 = true)) ∧
      (∀ v, x.opcode = Op.UPDATE_VERIFY → d.fenced Kind.crypto 0 = false → d.otherSlot x.target = some v → Does s (.updateVerify t i) fun n =>
        n.endedWith 0 i (d.verifyImage x.target v) ∧ n.flag F.SEC_IMG_other_valid x.target = (d.verifyImage x.target v == Code.OK)) ∧
      (x.opcode = Op.LEDGER_READ → let es := (d.sec.ledger.filter fun e => Nat.ble x.param1 (e.number % 2 ^ 32)).take (x.length / 32)
        Does s (.ledgerRead t i) fun n => n.sec.ledger = d.sec.ledger ∧ n.sec.chainOk = (brokenLink d.sec.ledger).isNone ∧
          (∃ g, (n.qp 0).item i = some g ∧ g.phase = .ended Code.OK false (BitVec.ofNat 32 es.length)) ∧
          n.hi.out = d.hi.out ++ if es.isEmpty then [] else [.bytes x.address (es.flatMap fun e => e.words.flatMap wordBytes)]) ∧
      (x.opcode = Op.LIFETIME_READ → let rs := (d.sec.life.drop x.param1).take (x.length / 64)
        Does s (.lifetimeRead t i) fun n => n.sec = d.sec ∧
          (∃ g, (n.qp 0).item i = some g ∧ g.phase = .ended Code.OK false (BitVec.ofNat 32 rs.length)) ∧
          n.hi.out = d.hi.out ++ if rs.isEmpty then [] else [.bytes x.address (rs.flatMap fun r => r.2.bytes)])) ∧
    (∀ r, d.standing 0 i .received x → d.targetFenced 0 x = false → d.sec.uartIn = [r] → r.behind = [i] → d.unserved = [i] →
      x.opcode = Op.SESSION_CLOSE → Does s (.sessionClose t i) fun n => n.endedWith 0 i Code.OK ∧ n.sec.uartIn = [] ∧
        ∃ a : UartOut, n.sec.uart = d.sec.uart ++ [a] ∧ a.completion.length = 4) ∧
    (∀ (uart : Bool) z, d.session uart = some z → z.ends ≤ d.time → Does s (.sessionExpiry t uart) fun n =>
      n.session uart = none ∧ n.session (!uart) = d.session (!uart)) ∧
    (∀ (f : UartInput) crc blown e,
      (d.fenced Kind.imset 0 = true ∨ f.start ≠ 0xA5#8 → Does s (.uartFrame t f crc blown e) fun n => n = d) ∧
      (d.fenced Kind.imset 0 = false → f.start = 0xA5#8 → let k := f.payload.length
        (crc ≠ frameCrc f.payload ∨ f.length ≠ k ∨ k < 32 ∨ 65529 < k → Does s (.uartFrame t f crc blown e) fun n => n.sec = d.sec ∧
          n.rd F.IMS_UART_bad_frames 0 = min (d.rd F.IMS_UART_bad_frames 0 + 1) 65535) ∧
        (crc = frameCrc f.payload → f.length = k → 32 ≤ k → k ≤ 65529 →
          (d.uartAnswers = false → Does s (.uartFrame t f crc blown e) fun n => n = d) ∧
          (d.uartAnswers = true → d.sec.uartIn = [] →
            (d.unserved = [] → Does s (.uartFrame t f crc blown e) fun n =>
              ∃ a : UartOut, n.sec.uart = d.sec.uart ++ [a] ∧ a.completion.length = 4) ∧
            (d.unserved ≠ [] → Does s (.uartFrame t f crc blown e) fun n => n.sec.uart = d.sec.uart ∧
              ∃ r, n.sec.uartIn = [r] ∧ r.payload = f.payload ∧ r.behind = d.unserved)))))

/-- R349, R351, R352, R361, R362, R365 to R367 and R400: SECURE_BOOT, BOOT_SEAL_REQUEST, ACTIVATE_RESET, FRESHNESS_JOURNAL, LEDGER_FLUSH,
LIFETIME_RECORD, LIFE_ACCUMULATE and FLASH_REFRESH. R386 does not list the reset of ACTIVATE_RESET: that SAFE keeps it off is log entry 50, and
what it keeps, the calendar among it, log entry 60, the model's choices; so are the places of the directory's copies, of a journal record and of the steps of a
refresh in flash (log entry 51). No frame waits on the service UART. -/
def Obligations.ImsetOnItsOwn : Prop :=
  ∀ (s : State) (t : Nat), let d := s.now t; let cal := d.rd64 F.PWR_CAL_LO F.PWR_CAL_HI 0
    (d.pw.held = false → d.rd F.IMS_STAT_state 0 = 1 → (∀ k : Fin 3, Tbl.get (fun _ => []) d.sec.measured k = []) →
      (∀ v, d.verifyImage 0 v ≠ Code.OK) → Does s (.secureBoot t) fun n => n.rd F.IMS_STAT_state 0 = 3 ∧ n.devState = d.devState) ∧
    (d.pw.held = false → d.rd F.IMS_STAT_state 0 = 1 → (∀ a ∈ directoryCopies, d.directoryAt a = none) → (∀ k : Fin 3, Tbl.get (fun _ => []) d.sec.measured k = []) →
      (∀ v, d.verifyImage 1 v ≠ Code.OK ∧ d.verifyImage 2 v ≠ Code.OK) → Does s (.secureBoot t) fun n =>
        if d.verifyImage 0 false = Code.OK then n.rd F.IMS_STAT_state 0 = 2 ∧ Tbl.get (fun _ => []) n.sec.measured 0 = digest (d.signedPart 0 false) ∧
          n.rd F.SEC_IMG_version 0 = d.imgVersion 0 false % 1024 ∧ (d.devState = DevSt.boot → n.devState = DevSt.setup)
        else n.rd F.IMS_STAT_state 0 = 3) ∧
    (d.sec.sealDue = true → d.devState = DevSt.boot → d.flag F.SC_FW_ready 0 = true ∨ 120000000 ≤ d.time → Does s (.bootSealRequest t) fun n =>
      n.devState = DevSt.sealing ∧ n.sys.sealBy = some .imset ∧ n.sec.sealDue = false) ∧
    (∀ r, d.sec.resetAt = some r → r ≤ d.time → d.devState ≠ DevSt.safe → Does s (.activateReset t) fun n => n.pw.held = true ∧ n.clockOn = false ∧
      n.time = 0 ∧ n.devState = DevSt.boot ∧ n.sec.counters = d.sec.counters ∧ n.sec.enrolled = d.sec.enrolled ∧ n.sec.ledger = d.sec.ledger ∧
      n.sec.qpSession = none ∧ n.sec.uartSession = none ∧ n.rd64 F.PWR_CAL_LO F.PWR_CAL_HI 0 = cal ∧
      (d.imsetRuns = false → n.sec.flash = d.sec.flash ∧ n.sec.rxValue = d.sec.rxValue) ∧
      (d.imsetRuns = true →
        (∀ l : Fin 256, d.flag F.FL_CFG_enable l = true → d.rd F.FL_CFG_dir l = 1 → Tbl.get (fun _ => 0) n.sec.rxValue l = d.fvRx l) ∧
        (d.sec.journalSector < 4 → ∀ y, y < 0x8E0000 ∨ 0x920000 ≤ y → n.flashByte y = d.flashByte y))) ∧
    (d.devState = DevSt.safe → Does s (.activateReset t) fun n => n = d) ∧
    (∀ (l : Fin 256) (err : Bool), d.imsetRuns = true → d.sec.uartIn = [] → d.flag F.FL_CFG_enable l = true →
      let sector := if err then (d.sec.journalSector + 1) % 4 else d.sec.journalSector
      let holds (n : Dev) : Prop := n.sec.journalSector = sector ∧ (err = true → n.flag F.IMS_STAT_flash_err 0 = true) ∧
        (∀ j : Fin 16, n.flashByte (0x8E0000 + 65536 * sector + 16 * l + j) =
          (numBytes (Tbl.get (fun _ => 0) n.sec.txMark l) 8 ++ numBytes (Tbl.get (fun _ => 0) n.sec.rxValue l) 8).getD j 0) ∧
        n.sec.calOffset = max d.sec.calOffset cal
      (d.rd F.FL_CFG_dir l = 2 → Tbl.get (fun _ => 0) d.sec.txMark l ≤ d.fvTx l → Does s (.freshnessJournal t ⟨l, err⟩) fun n =>
        Tbl.get (fun _ => 0) n.sec.txMark l = Tbl.get (fun _ => 0) d.sec.txMark l + 2 ^ 24 ∧ holds n) ∧
      (d.rd F.FL_CFG_dir l = 1 → d.fvRx l ≠ Tbl.get (fun _ => 0) d.sec.rxValue l → Tbl.get (fun _ => 0) d.sec.rxAt l + 480000000000 ≤ d.time →
        Does s (.freshnessJournal t ⟨l, err⟩) fun n => Tbl.get (fun _ => 0) n.sec.rxValue l = d.fvRx l ∧ holds n)) ∧
    (∀ (k : Fin 1024) e err, d.imsetRuns = true → d.sec.uartIn = [] → d.slot k = some e → e.flushed = false → Does s (.ledgerFlush t k err) fun n =>
      let w := { e with chain := chainTag e d.newestTag, flushed := true }
      (err = true → n.flag F.IMS_STAT_flash_err 0 = true) ∧
      n.sec.ledgerNext = ((if err then (d.sec.ledgerNext / 2048 + 1) * 2048 % 16384 else d.sec.ledgerNext) + 1) % 16384 ∧
      n.slot k = some w ∧ n.sec.ledger.getLast? = some w ∧ n.sec.flashed = d.sec.flashed + 1 ∧
      n.sec.ledger.length = if d.sec.ledger.length < 4096 then d.sec.ledger.length + 1 else d.sec.ledger.length) ∧
    (∀ err, d.imsetRuns = true → d.sec.uartIn = [] → 3600 ≤ d.sec.seconds → Does s (.lifetimeRecord t err) fun n =>
      n.sec.seconds = d.sec.seconds - 3600 ∧ n.sec.lifeWritten = d.sec.lifeWritten + 1 ∧
      n.rd F.IMS_HOURS_hours 0 = min (d.rd F.IMS_HOURS_hours 0 + 1) (2 ^ 24 - 1) ∧
      ∃ (place : Nat) (r : LifeRec), n.sec.life.getLast? = some (place, r) ∧ r.calendar = cal ∧ r.boots = d.boots) ∧
    (d.pw.asleep = false → Does s (.lifeAccumulate t) fun n =>
      n.rd64 F.PWR_CAL_LO F.PWR_CAL_HI 0 = (if d.fenced Kind.island 8 then cal else (cal + 1) % 2 ^ 64) ∧
      (d.pw.held = false → d.imsetRuns = true → n.sec.seconds = d.sec.seconds + 1 ∧ n.sec.lifeSum = d.sec.lifeSum + d.lifeStep)) ∧
    (∀ k (x : RefreshInput), d.imsetRuns = true → d.sec.uartIn = [] → k < 0x93 →
      let ends (n : Dev) : Prop := n.sec.refreshing = none ∧ n.flag F.IMS_STAT_refreshing 0 = false ∧ Tbl.get (fun _ => 0) n.sec.sectorAt k = cal ∧
        n.rd F.IMS_REFRESH_sectors 0 = min (d.rd F.IMS_REFRESH_sectors 0 + 1) 65535
      (d.sec.refreshing = none → (∀ r, d.sec.refreshAt = some r → r + 8000000000 ≤ d.time) → Does s (.flashRefresh t k x) fun n =>
        if cal - Tbl.get (fun _ => 0) d.sec.sectorAt k < Config.refreshAge then n = d
        else
          (Tbl.Wf flashReset d.sec.flash → ∀ j, j < 65536 → n.flashByte (65536 * 0x93 + j) = d.flashByte (65536 * k + j) ∧
            n.flashByte (65536 * k + j) = d.flashByte (65536 * k + j)) ∧
          (x.done = true → ends n) ∧
          (x.done = false → n.sec.refreshing = some { sector := k } ∧ n.flag F.IMS_STAT_refreshing 0 = true)) ∧
      (d.sec.refreshing = some { sector := k, erased := false } → Does s (.flashRefresh t k x) fun n =>
          (x.done = true → ends n) ∧
          (x.done = false → n.sec.refreshing = some { sector := k, erased := true } ∧ n.flag F.IMS_STAT_refreshing 0 = true ∧
            ∀ j, j < 65536 → n.flashByte (65536 * k + j) = 0xFF ∧ n.flashByte (65536 * 0x93 + j) = d.flashByte (65536 * 0x93 + j))) ∧
      (d.sec.refreshing = some { sector := k, erased := true } → Does s (.flashRefresh t k x) fun n => ends n ∧
          (Tbl.Wf flashReset d.sec.flash → ∀ j, j < 65536 → n.flashByte (65536 * k + j) = d.flashByte (65536 * 0x93 + j)))) ∧
    (∀ k x r, d.sec.refreshing = none → d.sec.refreshAt = some r → d.time < r + 8000000000 → Does s (.flashRefresh t k x) fun n => n = d)

/-! ### Faults and recovery (chapter 17) -/

/-- What LEDGER_REPORT (R376, R383), LEDGER_ENTRY (R376 to R379, R418), ENTRY_CLOSE (R377, R379) and SLOT_CAPTURE (R375) do. A report is taken, lost or ignored; the front
end makes a LOST entry first where one is owed, coalesces the report, makes an entry in its own slot, in that of the entry it displaces, or
loses it; an entry closes; a slot shows its eight words. What a report that no unit posts comes to is the model's choice (log entry 10): one
of an unassigned kind or status word, of class STATE, or of a class whose reaction the device has not taken (R370: class S is a stage's that
holds its trip, class D needs safe state, class C is a fence's own) changes nothing. The request to the safety controller stands unless its
copies wait (WFI, R285): then the next window starts with it. -/
def Obligations.LedgerKeepsFaults : Prop :=
  ∀ (s : State) (t : Nat) (kind index code : BitVec 8) (cls : Fin 5) (sub : BitVec 4) (detail : Word), let d := s.now t
    let q : Report :=
      { kind := kind.toNat, index := index.toNat, cls := cls, code := code.toNat, sub := sub.toNat, detail := detail.toNat, time := d.time }
    let posted := (cls.val = Cls.report ∨ (cls.val = Cls.s ∧ kind.toNat = Kind.stage ∧ d.flag F.WM_SW_STAT_held index.toNat = true) ∨
        (cls.val = Cls.d ∧ d.devState = DevSt.safe)) ∧ Kind.assigned kind.toNat = true ∧ Code.assigned code.toNat = true
    let low (e : Entry) : Prop := e.rep.cls = Cls.report ∨ e.rep.cls = Cls.c
    let waits (j : Nat) (e : Entry) : Prop := (j, some e) ∈ d.flt.slots ∧ e.flushed = false
    let oldest (p : Entry → Prop) (j : Nat) (e : Entry) : Prop := waits j e ∧ p e ∧ ∀ i x, waits i x → p x → (i, x) = (j, e) ∨ e.number < x.number
    let told (e : Entry) : List (Nat × StreamRec) :=
      ((List.range 64).filter fun x => d.qpKind x == 5 && (x == 1 || bitOf (d.rd F.HI_QP_EVMASK_mask x) e.rep.kind)).map fun x =>
        (x, { stamp := d.time, type := 3, body := e.words })
    let N := d.nextNumber
    let asked (n : Dev) := (d.sc.wfi = false ∨ d.fwStores = false → n.flt.request = true) ∧
      (d.sc.wfi = true → d.fwStores = true → n.flt.request = false ∧ n.sc.wfi = false)
    (posted → d.fenced kind.toNat index.toNat = false → d.flt.intake.length < 64 →
      Does s (.ledgerReport t kind index cls code sub detail) fun n => n.flt.intake = d.flt.intake ++ [q]) ∧
    (posted → d.fenced kind.toNat index.toNat = false → 64 ≤ d.flt.intake.length →
      Does s (.ledgerReport t kind index cls code sub detail) fun n => n.flt.intake = d.flt.intake ∧ n.flag F.FLT_STAT_lost 0 = true ∧
        n.flt.lostCarry = d.flt.lostCarry + 1 ∧ n.rd F.FLT_LOST 0 = min (d.rd F.FLT_LOST 0 + 1) (2 ^ F.FLT_LOST.width - 1)) ∧
    (¬ posted ∨ d.fenced kind.toNat index.toNat = true → Does s (.ledgerReport t kind index cls code sub detail) fun n => n = d) ∧
    (d.flt.intake = [] → Does s (.ledgerEntry t) fun n => n = d) ∧
    (∀ r rest, d.flt.intake = r :: rest →
      (d.flt.lostDue = false → ∀ k e, d.flt.slots = [(k, some e)] → d.coalesces r e = true → Does s (.ledgerEntry t) fun n =>
        n.flt.intake = rest ∧ asked n ∧ n.nextNumber = N ∧
        n.slot k = some { e with rep := { e.rep with time := r.time, detail := r.detail }, count := e.count + 1, flushed := false }) ∧
      ((∀ k e, (k, some e) ∈ d.flt.slots → d.coalesces r e = false) →
        (d.flt.lostCarry = 0 → (∀ e, d.slot (N % 1024) = some e → e.flushed = true) → Does s (.ledgerEntry t) fun n =>
          let e : Entry := { rep := r, first := r.time, count := 1, number := N }
          n.flt.intake = rest ∧ n.slot (N % 1024) = some e ∧ n.nextNumber = (N + 1) % 2 ^ 64 ∧ asked n ∧
          n.hi.records = d.hi.records ++ told e ∧ n.rd (classCount r.cls) 0 = min (d.rd (classCount r.cls) 0 + 1) 255 ∧
          (d.rd F.FLT_CFG_alert_class 0 ≤ r.cls → n.flag F.FLT_STAT_alert 0 = true)) ∧
        (d.flt.lostCarry = 0 → r.cls = Cls.report ∨ r.cls = Cls.c → ∀ e, d.slot (N % 1024) = some e → e.flushed = false →
          Does s (.ledgerEntry t) fun n => n.flt.intake = rest ∧ n.flt.slots = d.flt.slots ∧ n.nextNumber = N ∧ n.flt.lostCarry = 1 ∧
            n.flag F.FLT_STAT_lost 0 = true) ∧
        (d.flt.lostCarry = 0 → r.cls = Cls.s ∨ r.cls = Cls.d → ∀ e, d.slot (N % 1024) = some e → e.flushed = false →
          ∀ j x, oldest low j x ∨ ((∀ i y, waits i y → ¬ low y) ∧ oldest (fun _ => True) j x) → Does s (.ledgerEntry t) fun n =>
            n.flt.intake = rest ∧ n.slot j = some { rep := r, first := r.time, count := 1, number := N } ∧
            (∀ i, i ≠ j → n.slot i = d.slot i) ∧ n.nextNumber = (N + 1) % 2 ^ 64 ∧ n.flt.lostCarry = 1 ∧ n.flag F.FLT_STAT_lost 0 = true) ∧
        (0 < d.flt.lostCarry → d.slot (N % 1024) = none → d.slot ((N + 1) % 1024) = none → Does s (.ledgerEntry t) fun n =>
          (∃ x, n.slot (N % 1024) = some x ∧ x.number = N ∧ x.rep.kind = Kind.device ∧ x.rep.index = 0 ∧ x.rep.cls = Cls.report ∧
            x.rep.code = Code.LOST ∧ x.rep.detail = d.flt.lostCarry) ∧
          n.slot ((N + 1) % 1024) = some { rep := r, first := r.time, count := 1, number := (N + 1) % 2 ^ 64 } ∧
          n.nextNumber = (N + 2) % 2 ^ 64 ∧ n.flt.lostCarry = 0 ∧ n.flt.lostDue = false ∧ n.flt.intake = rest))) ∧
    (∀ (k : Fin 1024) e, d.slot k = some e →
      (e.isOpen = true → e.rep.time + 800000 * d.rd F.FLT_CFG_window 0 < d.time → Does s (.entryClose t k) fun n =>
        n.slot k = some { e with isOpen := false } ∧ (∀ j, j ≠ k.val → n.slot j = d.slot j) ∧
        n.hi.records = d.hi.records ++ if 1 < e.count then told { e with isOpen := false } else []) ∧
      (e.isOpen = false ∨ d.time ≤ e.rep.time + 800000 * d.rd F.FLT_CFG_window 0 → Does s (.entryClose t k) fun n => n = d)) ∧
    (∀ m (sel : Fin 3) (k : Fin 1024), m.code = sel.val → d.mayStore m = true → Does s (.slotCapture t m sel k) fun n =>
      n.rd F.FLT_SEL_slot sel = k.val ∧ n.flt = d.flt ∧ ∀ i : Fin 8, n.rd2 F.FLT_REC sel i = match d.slot k with
        | none => 0
        | some e => [e.rep.time % 2 ^ 32, e.rep.time / 2 ^ 32 % 2 ^ 32,
            e.rep.kind % 256 + 256 * (e.rep.index % 256) + 2 ^ 16 * (e.rep.cls % 16) + 2 ^ 20 * (e.rep.code % 256) + 2 ^ 28 * (e.rep.sub % 16),
            e.rep.detail % 2 ^ 32, e.first % 2 ^ 32, e.count % 2 ^ 16 + 2 ^ 16 * (e.chain % 2 ^ 16), e.chain / 2 ^ 16 % 2 ^ 32,
            e.number % 2 ^ 32].getD i 0) ∧
    (∀ m (sel : Fin 3) (k : Fin 1024), m.code ≠ sel.val → Does s (.slotCapture t m sel k) fun n => n.flt = d.flt ∧
      n.rd F.FLT_SEL_slot sel = d.rd F.FLT_SEL_slot sel ∧ ∀ i : Fin 8, n.rd2 F.FLT_REC sel i = d.rd2 F.FLT_REC sel i)

/-- R371 to R374, R380, R381 and R419: FLT_FENCE, FLT_SAFE and ISLAND_LOST, with the first report of a fence (sub 1, cause FENCED, detail 0;
class S of a stage) and of a lost island. The model's choices: a firmware
store waits for a window (log entry 70); FENCE of a unit that cannot be fenced is rejected, and of a fenced one ends its re-admission test
(log entry 57); the entry of a lost island stands before that of its fence (log entry 59). -/
def Obligations.FencesAct : Prop :=
  ∀ (s : State) (t : Nat) (kind index : BitVec 8), let d := s.now t
    (d.fwStores = false → Does s (.fltFence t kind index) (fun n => n = d) ∧ Does s (.fltSafe t kind index) fun n => n = d) ∧
    (d.fwStores = true → fenceable kind.toNat index.toNat = true → d.fenced kind.toNat index.toNat = false →
      (kind.toNat = Kind.observer → d.fenced Kind.posPort index.toNat = false) → Does s (.fltFence t kind index) fun n =>
      n.fenced kind.toNat index.toNat = true ∧ n.rd F.FLT_ACT_kind 0 = kind.toNat ∧ n.rd F.FLT_ACT_index 0 = index.toNat ∧
      n.rd F.FLT_ACT_status 0 = Code.OK ∧ (d.flt.intake.length < 64 → ∃ more, n.flt.intake = d.flt.intake ++
        { kind := kind.toNat, index := index.toNat, cls := if kind.toNat = Kind.stage then Cls.s else Cls.c, code := Code.FENCED, sub := 1,
          detail := 0, time := d.time } :: more)) ∧
    (d.fwStores = true → fenceable kind.toNat index.toNat = true → d.fenced kind.toNat index.toNat = true → Does s (.fltFence t kind index) fun n =>
      n.rd F.FLT_ACT_status 0 = Code.FENCED ∧ ∀ a ∈ n.flt.admits, a.kind ≠ kind.toNat ∨ a.index ≠ index.toNat) ∧
    (fenceable kind.toNat index.toNat = false → Does s (.fltFence t kind index) fun n => n.flt.fenced = d.flt.fenced ∧
      n.word (F.FLT_ACT.off 0 0) = d.word (F.FLT_ACT.off 0 0)) ∧
    (d.fwStores = true → Does s (.fltSafe t kind index) fun n => n.flag F.FLT_SAFE_safe 0 = true ∧ n.rd F.FLT_ACT_status 0 = Code.OK ∧
      (d.flag F.FLT_SAFE_safe 0 = false → n.devState = DevSt.safe ∧ n.rd F.FLT_SAFE_status 0 = Code.SAFE_ENTRY ∧
        n.rd64 F.FLT_SAFE_TIME_LO F.FLT_SAFE_TIME_HI 0 = d.time % 2 ^ 64 ∧ ∀ k : Fin 21, n.flag F.WM_SW_STAT_held k = true) ∧
      (d.flag F.FLT_SAFE_safe 0 = true → n.rd F.FLT_SAFE_status 0 = d.rd F.FLT_SAFE_status 0)) ∧
    (∀ i : Fin 12, d.fenced Kind.island i = false → i ≠ 10 →
      (i = 0 ∨ i = 1 ∨ i = 2 ∨ i = 9 ∨ i = 11 → Does s (.islandLost t i) fun n => n.flag F.FLT_SAFE_safe 0 = true ∧
        (i = 0 → n.clockOn = false) ∧ (i ≠ 0 → n.clockOn = d.clockOn)) ∧
      (i = 3 ∨ i = 4 ∨ i = 5 ∨ i = 6 ∨ i = 7 ∨ i = 8 → Does s (.islandLost t i) fun n => n.fenced Kind.island i = true ∧
        n.flag F.FLT_SAFE_safe 0 = d.flag F.FLT_SAFE_safe 0 ∧ (d.flt.intake.length < 64 → ∃ more, n.flt.intake = d.flt.intake ++
          { kind := Kind.island, index := i, cls := Cls.c, code := Code.ISLAND_LOST, detail := 0, time := d.time } :: more) ∧ (i = 4 → ∀ c : Fin 8, n.fenced Kind.can c = true) ∧
        (i = 6 → ∀ p : Fin 64, n.fenced Kind.queue p = true ∧ (d.fenced Kind.queue p = false → n.qpOn p = false)) ∧
        (i = 7 → n.fenced Kind.imset 0 = true)))

/-- R176, R179, R380 and R383: ADMIT, ADMIT_DONE, ENGINE_ADMIT and ENGINE_SELF_TEST_DONE. The model's choices: ADMIT of a unit that is not
fenced completes with OK, one of a window monitor without any converter with BROKEN, and ADMIT_DONE changes nothing while the readback runs
(log entry 58); an ENGINE_ADMIT that finds the self-test running ends with its result (log entry 68). -/
def Obligations.UnitsReturn : Prop :=
  ∀ (s : State) (t : Nat) (q : Fin 64) (i : Nat) (x : Descr), let d := s.now t; let kind := x.target / 256; let index := x.target % 256
    (d.standing q i .handed x → x.opcode = Op.ADMIT → ∀ hi lo clock,
      (d.fenced kind index = false → Does s (.admitUnit t q i hi lo clock) fun n => n.endedWith q i Code.OK ∧ n.flt.fenced = d.flt.fenced) ∧
      (d.fenced kind index = true → kind = Kind.island → clock = false → Does s (.admitUnit t q i hi lo clock) fun n =>
        n.endedWith q i Code.BROKEN ∧ n.fenced kind index = true) ∧
      (d.fenced kind index = true → kind = Kind.flow → Does s (.admitUnit t q i hi lo clock) fun n =>
        (d.fenced Kind.can (d.rd F.FL_CFG_controller index) = false → n.endedWith q i Code.OK ∧ n.fenced kind index = false) ∧
        (d.fenced Kind.can (d.rd F.FL_CFG_controller index) = true → n.endedWith q i Code.BROKEN ∧ n.fenced kind index = true)) ∧
      (d.fenced kind index = true → kind = Kind.bank ∨ kind = Kind.logicConv ∨ kind = Kind.crypto → Does s (.admitUnit t q i hi lo clock) fun n =>
        n.flt.admits = d.flt.admits ++ [{ kind := kind, index := index, qp := q, ring := i, startedAt := d.time }] ∧ n.fenced kind index = true) ∧
      (d.fenced kind index = true → kind = Kind.winMon → Does s (.admitUnit t q i hi lo clock) fun n => n.fenced kind index = true ∧
        (d.admitConv = none → n.endedWith q i Code.BROKEN ∧ n.flt.admits = d.flt.admits) ∧
        (∀ c, d.admitConv = some c →
          n.flt.admits = d.flt.admits ++ [{ kind := kind, index := index, qp := q, ring := i, startedAt := d.time }] ∧
          ∀ high, (n.conv c).holdsUrgent (.dacTest index high) = true))) ∧
    (∀ (a : AdmitT) it (y : AdmitTest), d.flt.admits.find? (fun a => a.qp == q.val && a.ring == i) = some a → (d.qp q).item i = some it →
      it.hasEnded = false → (d.qp q).silent = false →
      (y.pass = true → d.time ≤ a.startedAt + 12000000 → a.kind = Kind.bank → Does s (.admitDone t q i y) fun n =>
        n.endedWith q i Code.OK ∧ n.fenced Kind.bank a.index = false ∧ ∀ z, bankOf z = a.index → n.bankByte z = 0) ∧
      (d.time ≤ a.startedAt + 12000000 → a.kind = Kind.winMon → a.index < 24 → a.readAt ≤ a.startedAt + 800000 → ∀ lo hi, a.lo = some lo →
        a.hi = some hi → (lo : Int) - (64 * d.rd F.WM_THR_lo a.index : Nat) ≤ 256 → (64 * d.rd F.WM_THR_lo a.index : Nat) - (lo : Int) ≤ 256 →
        (hi : Int) - (64 * d.rd F.WM_THR_hi a.index : Nat) ≤ 256 → (64 * d.rd F.WM_THR_hi a.index : Nat) - (hi : Int) ≤ 256 →
        Does s (.admitDone t q i y) fun n => n.endedWith q i Code.OK ∧ n.fenced Kind.winMon a.index = false) ∧
      (a.kind = Kind.winMon → a.lo = none ∨ a.hi = none → d.time ≤ a.startedAt + 800000 → Does s (.admitDone t q i y) fun n => n = d) ∧
      (a.kind ≠ Kind.port → a.kind ≠ Kind.winMon → d.testPasses a y = false ∨ a.startedAt + 12000000 < d.time →
        Does s (.admitDone t q i y) fun n =>
          n.endedWith q i Code.BROKEN ∧ n.flt.fenced = d.flt.fenced ∧ n.flt.admits = d.flt.admits.erase a) ∧
      (a.kind = Kind.port → a.startedAt + 12000000 < d.time → Does s (.admitDone t q i y) fun n =>
        n.endedWith q i Code.BROKEN ∧ n.flt.admits = d.flt.admits.erase a)) ∧
    (d.standing q i .received x → x.opcode = Op.ENGINE_ADMIT → x.target < 12 →
      (d.fenced Kind.engine x.target = true → Does s (.engineAdmit t q i) fun n => n.flag F.BE_POOL_ADMIT_busy 0 = true ∧
        n.rd F.BE_POOL_ADMIT_engine 0 = x.target ∧ (n.eng x.target).testing = (d.eng x.target).testing ++ [(q.val, i)] ∧
        (n.eng x.target).testAt = if (d.eng x.target).testing = [] then d.time else (d.eng x.target).testAt) ∧
      (d.fenced Kind.engine x.target = false → Does s (.engineAdmit t q i) fun n => n.endedWith q i Code.OK ∧
        n.rd F.BE_POOL_ADMIT_engine 0 = x.target ∧ n.rd F.BE_POOL_ADMIT_status 0 = Code.OK)) ∧
    (∀ (e : Fin 12) pass, (d.eng e).testing = [] → Does s (.engineSelfTestDone t e pass) fun n => n = d) ∧
    (∀ (e : Fin 12) it pass, (d.eng e).testing = [(q.val, i)] → (d.qp q).item i = some it → it.hasEnded = false →
      (d.qp q).silent = false → let good := pass = true ∧ d.time ≤ (d.eng e).testAt + 200000
      (good → Does s (.engineSelfTestDone t e pass) fun n => n.endedWith q i Code.OK ∧ n.rd F.BE_POOL_ADMIT_status 0 = Code.OK ∧
        (n.eng e).testing = [] ∧ n.fenced Kind.engine e = false) ∧
      (¬ good → Does s (.engineSelfTestDone t e pass) fun n => n.endedWith q i Code.BROKEN ∧ n.rd F.BE_POOL_ADMIT_status 0 = Code.BROKEN ∧
        (n.eng e).testing = [] ∧ (n.eng e).inForce = true ∧ n.fenced Kind.engine e = d.fenced Kind.engine e ∧ n.rd F.BE_ENG_DEAD_cause e = 4) ∧
      Does s (.engineSelfTestDone t e pass) fun n =>
        (n.flag F.BE_POOL_ADMIT_busy 0 = true ↔ ∃ k : Fin 12, k ≠ e ∧ (d.eng k).testing ≠ []))

/-! ### Power, clocks, sleep and temperature (chapter 18) -/

/-- R350, R386, R387 and R391: POWER_ON_RESET, BROWN_OUT_RESET, RAIL_RESET, RESET_N and SAFE_WDOG_EXPIRY. What of the AOI island the causes
other than a power-on keep (the sleep and wake registers, the calendar, to which a sleep that the reset ends adds its whole seconds, the
island's own fence), and that a held device's time stands at 0, are read as log entry 60 says. -/
def Obligations.ResetsRenew : Prop :=
  ∀ (s : State) (t : Nat) (c : Instr) (cause : Nat), let d := s.now t; let cal := d.rd64 F.PWR_CAL_LO F.PWR_CAL_HI 0
    let slept := if d.pw.asleep = true ∧ cause ≠ 16 ∧ d.fenced Kind.island 8 = false then (t - d.time) / 800000000 else 0
    let aoi := [F.PWR_CAL_LO, F.PWR_CAL_HI, F.PWR_SLEEP_CFG, F.PWR_SLEEP_CTRL, F.PWR_WAKE_STAT]
    ((c = .powerOnReset t ∧ cause = 1) ∨ (c = .brownOutReset t ∧ cause = 2) ∨ (c = .railReset t ∧ cause = 4) ∨ (c = .resetN t ∧ cause = 8) ∨
      (c = .safeWdogExpiry t ∧ cause = 16 ∧ d.devState = DevSt.safe ∧ d.flag F.PWR_SAFE_WDOG_enable 0 = true ∧ d.safeDue ≤ max d.time t ∧
        d.anyLowOn = false) →
      Does s c fun n => n.pw.held = true ∧ n.clockOn = false ∧ n.time = 0 ∧ n.devState = DevSt.boot ∧ n.rd F.PWR_RESET_CAUSE_cause 0 = cause ∧
        n.pw.asleep = false ∧ n.pw.entering = false ∧
        n.sec.counters = d.sec.counters ∧ n.sec.enrolled = d.sec.enrolled ∧ n.sec.flash = d.sec.flash ∧ n.sec.ledger = d.sec.ledger ∧
        n.sec.life = d.sec.life ∧ n.sec.qpSession = none ∧ n.sec.uartSession = none ∧
        n.rd F.THM_LIFE 0 = d.rd F.THM_LIFE 0 ∧
        (∀ kind index, index < 256 → (kind, index) ≠ (Kind.island, 8) → n.fenced kind index = false) ∧
        (cause = 1 → n.rd64 F.PWR_CAL_LO F.PWR_CAL_HI 0 = 0 ∧ n.fenced Kind.island 8 = false) ∧
        (cause ≠ 1 → n.rd64 F.PWR_CAL_LO F.PWR_CAL_HI 0 = (cal + slept) % 2 ^ 64 ∧ n.fenced Kind.island 8 = d.fenced Kind.island 8 ∧
          n.rd F.PWR_SLEEP_CFG 0 = d.rd F.PWR_SLEEP_CFG 0 ∧ n.rd F.PWR_SLEEP_CTRL_status 0 = d.rd F.PWR_SLEEP_CTRL_status 0 ∧
          n.flag F.PWR_SLEEP_CTRL_enter 0 = false ∧ n.rd F.PWR_WAKE_STAT 0 = d.rd F.PWR_WAKE_STAT 0) ∧
        ∀ off, off ∉ ([F.PWR_RESET_CAUSE, F.IMS_BOOT, F.IMS_HOURS, F.THM_LIFE] ++ if cause = 1 then [] else aoi).map (fun f => f.off 0 0) →
          n.word off = resetWord off) ∧
    (d.devState = DevSt.safe → d.flag F.PWR_SAFE_WDOG_enable 0 = true → d.safeDue ≤ max d.time t → d.anyLowOn = true →
      Does s (.safeWdogExpiry t) fun n => n.pw.safeFrom = max d.time t ∧ n.devState = DevSt.safe ∧ n.regs = d.regs) ∧
    (d.devState ≠ DevSt.safe ∨ d.flag F.PWR_SAFE_WDOG_enable 0 = false ∨ max d.time t < d.safeDue →
      Does s (.safeWdogExpiry t) fun n => n = d)

/-- What COLD_BOOT (device time from zero, R36; VCAN and VREP, R415), VIN_HIGH (R386), SPEED_MONITOR, VFAB_STEP (R392), FQI_TC_UPDATE (R390),
SLEEP_REQUEST and SLEEP_ENTRY_DONE (R393), WAKE (R36, R391, R394, R401, R415) and PCIE_LINK_UP (R301) do, and when each does nothing. Copies that
wait (WFI) take the interrupt of the wake at once (R285). That a rail never stepped may step at once is log entry 62; that SLEEP_REQUEST comes only while a window releases stores, that a wake source seen during the
entry is remembered, and that a start during the entry ends it with NOT_STOPPED are the model's choices (log entries 70, 61 and 72). -/
def Obligations.PowerAndSleep : Prop :=
  ∀ (s : State) (t vin vfab slept : Nat) (x0 : BootInputs) (up : Bool) (z : Fin 4) (k : BitVec 16), let d := s.now t
    let sleeps := d.anyRun = false ∧ d.sequencersRest = true ∧ d.devState ≠ DevSt.safe ∧ d.flag F.SC_TM_STAT_ucg 0 = false ∧
      d.flag F.SC_TM_STAT_ucg 1 = false
    let worst : Rat := max (max (d.rd F.FAB_SPEED_k 0) (d.rd F.FAB_SPEED_k 1)) (max (d.rd F.FAB_SPEED_k 2) (d.rd F.FAB_SPEED_k 3)) / 256
    let aim : Rat := d.rd F.PWR_FAB_CFG_k_target 0 / 100
    let mayStep := d.rd F.PWR_FAB_CFG_mode 0 = 1 ∧ ∀ a, d.pw.steppedAt = some a → a + 800000 ≤ d.time
    let x : Rat := d.rdInt F.THM_TS 56 / 65536 - 25
    let a (n : Nat) : Rat := d.rdInt F.PWR_FQI_TC n / 65536
    let supply (n : Dev) : Prop := d.fenced Kind.device 0 = false → d.flt.intake.length < 64 →
      ∃ r, n.flt.intake = d.flt.intake ++ [r] ∧ r.kind = Kind.device ∧ r.index = 0 ∧ r.code = Code.SUPPLY ∧ r.time = d.time
    let seen (n : Dev) (w c : Nat) (b : Bool) : Prop := n.rd F.PWR_WAKE_STAT_wake_in 0 = d.rd F.PWR_WAKE_STAT_wake_in 0 ||| w ∧
      n.rd F.PWR_WAKE_STAT_can 0 = d.rd F.PWR_WAKE_STAT_can 0 ||| c ∧ n.flag F.PWR_WAKE_STAT_perst 0 = (d.flag F.PWR_WAKE_STAT_perst 0 || b)
    let woken (n : Dev) (p : Bool) : Prop := n.pw.asleep = false ∧ n.pw.wakeSeen = none ∧ n.clockOn = true ∧ n.pw.wakeDriven = !p ∧
      (d.sc.wfi = false ∨ d.fwStores = false → n.flt.request = true ∧ n.sc = d.sc) ∧
      (d.sc.wfi = true → d.fwStores = true → n.flt.request = false ∧ n.sc.wfi = false) ∧
      n.flt.fenced = d.flt.fenced ∧ n.devState = d.devState ∧ n.mb = d.mb ∧ n.be = d.be
    (d.pw.held = true → Does s (.coldBoot t vin vfab x0) fun n => n.pw.held = false ∧ n.clockOn = true ∧ n.time = 0 ∧ n.boots = (d.boots + 1) % 2 ^ 24 ∧
      n.flag F.PWR_CLK_STAT_ext 0 = x0.ext ∧ n.pw.vcan = x0.vcan ∧ n.pw.vrep = x0.vrep ∧ n.rd F.PWR_STAT_vin 0 = vin % 1024 ∧ n.rd F.PWR_STAT_vfab 0 = vfab % 1024 ∧ n.devState = d.devState) ∧
    (d.pw.held = false → Does s (.coldBoot t vin vfab x0) fun n => n = d) ∧
    (560 < vin → Does s (.vinHigh t vin) fun n => n.rd F.PWR_STAT_vin 0 = vin % 1024 ∧ n.flag F.PWR_STAT_vin_high 0 = true ∧ supply n ∧
      n.devState = d.devState ∧ n.pw = d.pw) ∧
    (vin ≤ 560 → Does s (.vinHigh t vin) fun n => n.rd F.PWR_STAT_vin 0 = vin % 1024 ∧
      n.flag F.PWR_STAT_vin_high 0 = d.flag F.PWR_STAT_vin_high 0 ∧ n.flt = d.flt ∧ n.pw = d.pw) ∧
    Does s (.speedMonitor t z k) (fun n => n.rd F.FAB_SPEED_k z = k.toNat ∧ n.rd F.FAB_SPEED_k_max z = max (d.rd F.FAB_SPEED_k_max z) k.toNat ∧
      ∀ y : Fin 4, y ≠ z → n.rd F.FAB_SPEED_k y = d.rd F.FAB_SPEED_k y) ∧
    Does s (.vfabStep t up) (fun n =>
      (mayStep → aim < worst → d.pw.mv < 880 → n.pw.mv = d.pw.mv + 10 ∧ n.pw.steppedAt = some d.time) ∧
      (mayStep → worst < aim - 5 / 100 → 720 < d.pw.mv → n.pw.mv = d.pw.mv - 10 ∧ n.pw.steppedAt = some d.time) ∧
      (aim < worst ∧ 880 ≤ d.pw.mv ∨ worst < aim - 5 / 100 ∧ d.pw.mv ≤ 720 ∨ worst ≤ aim ∧ aim - 5 / 100 ≤ worst → n.pw = d.pw) ∧
      (d.rd F.PWR_FAB_CFG_mode 0 ≠ 1 ∨ (∃ a, d.pw.steppedAt = some a ∧ d.time < a + 800000) → n.pw = d.pw) ∧
      (up = true → n.rd F.PWR_STAT_vfab 0 = n.pw.mv % 1024 ∧ n.flt = d.flt) ∧ (up = false → n.flag F.PWR_STAT_vfab_limit 0 = true ∧ supply n)) ∧
    Does s (.fqiTcUpdate t) (fun n => n = d.withPw { d.pw with correction := a 0 * x + a 1 * x ^ 2 + a 2 * x ^ 3 }) ∧
    (d.fwStores = false → Does s (.sleepRequest t) fun n => n = d) ∧
    (d.fwStores = true → sleeps → Does s (.sleepRequest t) fun n => n.pw.entering = true ∧ n.sec.qpSession = none ∧ n.sec.uartSession = none ∧
      (∀ q : Fin 64, n.qpOn q = false) ∧ n.devState = d.devState) ∧
    (d.fwStores = true → ¬ sleeps → Does s (.sleepRequest t) fun n => n.rd F.PWR_SLEEP_CTRL_status 0 = Code.NOT_STOPPED ∧ n.pw = d.pw ∧
      n.sec = d.sec ∧ n.hi = d.hi) ∧
    (d.pw.entering = true → sleeps → (∀ q : Fin 64, d.flag F.HI_QP_CTRL_draining q = false) →
      (d.pw.wakeSeen = none → Does s (.sleepEntryDone t) fun n => n.pw.asleep = true ∧ n.pw.entering = false ∧ n.clockOn = false ∧
        n.canStbPin = (if d.pw.vcan then some true else none) ∧ n.flag F.HI_LINK_up 0 = false ∧ n.rd F.PWR_SLEEP_CTRL_status 0 = Code.OK ∧ n.flt.fenced = d.flt.fenced ∧
        n.devState = d.devState ∧ n.mb = d.mb ∧ n.be = d.be ∧ n.sc = d.sc ∧
        ∀ (p : Fin 64) hi, (n.drv p hi).gate = false) ∧
      ∀ p, d.pw.wakeSeen = some p → Does s (.sleepEntryDone t) fun n => woken n p ∧ seen n 0 0 false ∧ n.time = d.time) ∧
    (d.pw.entering = true → ¬ sleeps → Does s (.sleepEntryDone t) fun n => n.pw.entering = false ∧ n.pw.asleep = d.pw.asleep ∧
      n.clockOn = d.clockOn ∧ n.rd F.PWR_SLEEP_CTRL_status 0 = Code.NOT_STOPPED) ∧
    (d.pw.entering = false ∨ (sleeps ∧ ∃ q : Fin 64, d.flag F.HI_QP_CTRL_draining q = true) → Does s (.sleepEntryDone t) fun n => n = d) ∧
    (∀ (rise fall : BitVec 2) (can : BitVec 8) (perst : Bool), let rising := d.rd F.PWR_SLEEP_CFG_wake_in_pol 0
      let w := (rise.toNat &&& rising) ||| (fall.toNat &&& (3 - rising))
      let c := if d.pw.vcan then can.toNat else 0
      let wakes := w &&& d.rd F.PWR_SLEEP_CFG_wake_in_en 0 ≠ 0 ∨ c &&& d.rd F.PWR_SLEEP_CFG_can_en 0 ≠ 0 ∨
        (perst = true ∧ d.flag F.PWR_SLEEP_CFG_perst_en 0 = true)
      (d.pw.asleep = true → wakes → Does s (.wake t ⟨rise, fall⟩ can perst slept) fun n => woken n perst ∧ seen n w c perst ∧
        n.time = (d.time + slept) % 2 ^ 64 ∧ n.rd F.PWR_WAKE_STAT_slept_s 0 = min (slept / 800000000) (2 ^ 21 - 1) ∧
        (d.fenced Kind.island 8 = false → n.rd64 F.PWR_CAL_LO F.PWR_CAL_HI 0 = (d.rd64 F.PWR_CAL_LO F.PWR_CAL_HI 0 + slept / 800000000) % 2 ^ 64)) ∧
      (d.pw.asleep = true → ¬ wakes → Does s (.wake t ⟨rise, fall⟩ can perst slept) fun n => seen n w c perst ∧ n.pw = d.pw ∧
        n.clockOn = d.clockOn ∧ n.time = d.time ∧ n.flt = d.flt) ∧
      (d.pw.asleep = false → d.pw.entering = true → Does s (.wake t ⟨rise, fall⟩ can perst slept) fun n => seen n w c perst ∧ n.flt = d.flt ∧
        (wakes → n.pw = { d.pw with wakeSeen := some (perst || d.pw.wakeSeen == some true) }) ∧ (¬ wakes → n.pw = d.pw)) ∧
      (d.pw.asleep = false → d.pw.entering = false → Does s (.wake t ⟨rise, fall⟩ can perst slept) fun n => n = d)) ∧
    (∀ change : LinkChange,
      (d.pw.held = true ∨ d.pw.asleep = true ∨ (d.flag F.HI_LINK_up 0 = false ∧ ∀ speed, change ≠ .trains speed) ∨ change = .trains 0 ∨
          (change = .l1 ∧ d.flag F.HI_LINK_CFG_aspm_l1 0 = false) → Does s (.pcieLinkUp t change) fun n => n = d) ∧
      (d.pw.held = false → d.pw.asleep = false →
        (∀ speed, change = .trains speed → speed.val ≠ 0 → Does s (.pcieLinkUp t change) fun n => n.flag F.HI_LINK_up 0 = true ∧
          n.rd F.HI_LINK_speed 0 = min speed.val (d.rd F.HI_LINK_CFG_max_speed 0) ∧ n.pw.wakeDriven = false ∧ n.hi.l1 = false) ∧
        (d.flag F.HI_LINK_up 0 = true →
          (change = .l1 → d.flag F.HI_LINK_CFG_aspm_l1 0 = true → Does s (.pcieLinkUp t change) fun n => n = d.withHi { d.hi with l1 := true }) ∧
          (change = .d3hot → Does s (.pcieLinkUp t change) fun n => n = d.withHi { d.hi with d3hot := true }) ∧
          (change = .d0 → Does s (.pcieLinkUp t change) fun n => n = d.withHi { d.hi with d3hot := false }))))

/-- R395 to R397 and R399: TEMP_READING and TEMP_CROSS_CHECK. The largest live readings of all sensors and of each stage, and the derating
factors that follow. That THM_MAX reads 150 °C with every sensor fenced, and that a sensor over its count is fenced at the first check at
which its group has a median, are the model's reading (log entry 63). -/
def Obligations.Temperatures : Prop :=
  ∀ (s : State) (t : Nat) (n : Fin 57) (temp : Word), let d := s.now t
    let top (l : List Int) : Int := if l = [] then 150 * 65536 else l.foldr max (-2 ^ 31)
    Does s (.tempReading t n temp) (fun m =>
      let live (l : List Nat) : List Int := (l.filter fun j => !d.tempFenced j).map (m.rdInt F.THM_TS)
      (d.tempFenced n = false → m.rdInt F.THM_TS n = temp.toInt) ∧ (d.tempFenced n = true → m.rdInt F.THM_TS n = d.rdInt F.THM_TS n) ∧
      (∀ j : Fin 57, j ≠ n → m.rdInt F.THM_TS j = d.rdInt F.THM_TS j) ∧ m.rdInt F.THM_MAX 0 = top (live (List.range 57)) ∧
      (∀ k : Fin 21, let v := m.rdInt F.THM_STAGE_MAX k; let j := if k.val < 14 then 0 else 1
        let start := d.rd F.THM_DERATE_CFG_t_start j; let stop := d.rd F.THM_DERATE_CFG_t_stop j
        (14 ≤ k.val → v = top (live [28 + k])) ∧
        (k.val < 14 → live (stagePorts k) = [] → v = 150 * 65536) ∧
        (k.val < 14 → live (stagePorts k) ≠ [] → v = top (live (stagePorts k) ++
          (if d.flag F.THM_DERATE_CFG_ext_en 0 then [d.rdInt F.THM_TN k] else []) ++
          if 8 ≤ k.val ∧ bitOf (d.rd F.THM_DERATE_CFG_pv_mask 0) (k - 8) = true then [d.rdInt F.THM_PVT k] else [])) ∧
        (start < stop → (v ≤ start * 65536 → m.rd F.THM_DERATE k = 65536) ∧ (stop * 65536 ≤ v → m.rd F.THM_DERATE k = 0) ∧
          (start * 65536 < v → v < stop * 65536 →
            |(m.rd F.THM_DERATE k : Int) * (stop - start) - (stop * 65536 - v)| ≤ stop - start)))) ∧
    (∀ j : Fin 57, d.deviates j = false → Does s (.tempCrossCheck t) fun m => m.deviations j = 0 ∧
      (d.tempFenced j = true → m.tempFenced j = true)) ∧
    (∀ j : Fin 57, d.deviates j = true → Does s (.tempCrossCheck t) fun m => m.deviations j = d.deviations j + 1 ∧
      (d.rd F.THM_CC_CFG_cc_count 0 ≤ d.deviations j + 1 → 2 < (d.liveGroup j).length → m.tempFenced j = true))

/-! ### The SETUP window and the seal (chapter 01) -/

/-- R2, R21, R23, R31 and R150: REGISTER_WRITE of one word or less below the LT window and above it. A write is rejected for the first
reason that applies, which FAB_WRITE_ERR records unless it holds an earlier one; a rejected write changes nothing else. An accepted
write of a class S register of the Device page stores each field by its access code; one of PWR_FAB_CFG in FIXED mode sets the rail. (The
order of the reasons is log entry 13; that a write of the safety controller comes only while a window releases stores is log entry 70.) -/
def Obligations.WritesAreChecked : Prop :=
  ∀ (s : State) (t off bytes : Nat) (m : Master) (data : DWord), let d := s.now t; let w := data.extractLsb' 0 32
    let owner := m.code; let c := Instr.registerWrite t m off bytes data
    let recorded (why : Nat) (w : Word) (n : Dev) : Prop := n.rd F.FAB_WRITE_CNT 0 = min (d.rd F.FAB_WRITE_CNT 0 + 1) (2 ^ 32 - 1) ∧
      n.time = d.time ∧ Foot.Frame ⟨false, [F.FAB_WRITE_ERR, F.FAB_WRITE_DATA, F.FAB_WRITE_CNT], []⟩ d n ∧
      n.flag F.FAB_WRITE_ERR_valid 0 = true ∧
      (d.flag F.FAB_WRITE_ERR_valid 0 = false → n.rd F.FAB_WRITE_ERR_reason 0 = why ∧ n.rd F.FAB_WRITE_ERR_master 0 = owner ∧
        n.rd F.FAB_WRITE_ERR_offset 0 = off ∧ n.rd F.FAB_WRITE_DATA 0 = w.toNat) ∧
      (d.flag F.FAB_WRITE_ERR_valid 0 = true → n.flag F.FAB_WRITE_ERR_more 0 = true ∧
        n.rd F.FAB_WRITE_ERR_reason 0 = d.rd F.FAB_WRITE_ERR_reason 0 ∧ n.rd F.FAB_WRITE_DATA 0 = d.rd F.FAB_WRITE_DATA 0)
    let mayApply := d.devState = DevSt.setup ∨ (d.devState = DevSt.boot ∧ m = .imset ∧ d.sys.applying = true)
    (d.mayStore m = false → Does s c fun n => n = d) ∧
    (d.mayStore m = true → off < 2 ^ 21 → inTable off = false → inVectors off = false →
    (bytes = 4 → off % 4 = 0 → findReg off = none → Does s c (recorded Reason.unmapped w)) ∧
    (∀ r, findReg (off / 4 * 4) = some r → bytes = 1 ∨ bytes = 2 ∨ (bytes = 4 ∧ off % 4 ≠ 0) →
      Does s c (recorded Reason.width (BitVec.ofNat 32 (data.toNat % 2 ^ (8 * bytes) * 2 ^ (8 * (off % 4)))))) ∧
    (∀ r, bytes = 4 → off % 4 = 0 → findReg off = some r →
      (r.cls = .T → m ≠ .sc → Does s c (recorded Reason.cls w)) ∧
      (r.cls = .S → ¬ mayApply → Does s c (recorded Reason.sealed w)) ∧
      ((r.cls = .T → m = .sc) → (r.cls = .S → mayApply) →
        (d.regFenced off = true → answersFenced off = false → Does s c (recorded Reason.fenced w)) ∧
        (d.regFenced off = false → (∃ f ∈ r.fields, f.acc = .rw ∧ ∃ l, f.legal = some l ∧
            ∀ x ∈ l, getBits w f.lo f.width < x.1 ∨ x.2 < getBits w f.lo f.width) → Does s c (recorded Reason.value w)) ∧
        (r.cls = .S → d.regFenced off = false → fieldsLegal r w = true → off < 0x4000 →
          d.refuses (d.setWord off (mergeWord r (d.word off) w)) m off = false → Does s c fun n =>
            (∀ f ∈ r.fields, getBits (n.word off) f.lo f.width = match f.acc with
              | .ro => getBits (d.word off) f.lo f.width
              | .rw => getBits w f.lo f.width
              | .w1c => getBits (d.word off) f.lo f.width &&& (2 ^ f.width - 1 - getBits w f.lo f.width)
              | .w1s => getBits (d.word off) f.lo f.width ||| getBits w f.lo f.width) ∧
            (∀ o, o ≠ off → n.word o = d.word o) ∧ (off ≠ F.PWR_FAB_CFG.off 0 0 ∨ n.rd F.PWR_FAB_CFG_mode 0 ≠ 2 → n.pw = d.pw) ∧
            (off = F.PWR_FAB_CFG.off 0 0 → n.rd F.PWR_FAB_CFG_mode 0 = 2 → n.pw = { d.pw with mv := 720 + 10 * n.rd F.PWR_FAB_CFG_vset 0 }) ∧
            n.sys = d.sys ∧ n.be = d.be))))

/-- R22, R25, R31, R150 and R187: table memory is written through the page, a 64-bit write is made whole or not at all, and a read of a
low half holds its high half for the same master. -/
def Obligations.WindowsAndHolding : Prop :=
  ∀ (s : State) (t off : Nat) (m : Master) (data : DWord), let d := s.now t; let w := data.extractLsb' 0 32; let h := data.extractLsb' 32 32
    let o := d.tableOffset m off
    (inTable off = true → off % 4 = 0 → d.mayStore m = true →
      (d.tableReason m o w = none → Does s (.registerWrite t m off 4 data) fun n => n.lt o = w ∧ (∀ a, a ≠ o → n.lt a = d.lt a) ∧
        n.regs = d.regs ∧ n.readWord m off = w) ∧
      (o < 0x70000 ∧ 0x60000 ≤ o → d.devState ≠ DevSt.setup → (d.devState ≠ DevSt.boot ∨ m ≠ .imset ∨ d.sys.applying = false) → Does s (.registerWrite t m off 4 data) fun n =>
        n.be = d.be ∧ n.rd F.FAB_WRITE_CNT 0 = min (d.rd F.FAB_WRITE_CNT 0 + 1) (2 ^ 32 - 1) ∧
        (d.flag F.FAB_WRITE_ERR_valid 0 = false → n.rd F.FAB_WRITE_ERR_reason 0 = Reason.sealed)) ∧
      (0x70000 ≤ o → o < 0x74000 → m ≠ .sc → Does s (.registerWrite t m off 4 data) fun n =>
        n.be = d.be ∧ (d.flag F.FAB_WRITE_ERR_valid 0 = false → n.rd F.FAB_WRITE_ERR_reason 0 = Reason.cls))) ∧
    (off % 8 = 0 → d.writeReason .host off false w = none → d.writeReason .host (off + 4) false h ≠ none →
      Does s (.registerWrite t .host off 8 data) fun n => (∀ a, a ∉ [0x1000, 0x1004, 0x1008] → n.word a = d.word a) ∧ n.be = d.be ∧
        n.rd F.FAB_WRITE_CNT 0 = min (d.rd F.FAB_WRITE_CNT 0 + 1) (2 ^ 32 - 1) ∧
        (d.flag F.FAB_WRITE_ERR_valid 0 = false → n.rd F.FAB_WRITE_DATA 0 = h.toNat)) ∧
    (isLowHalf off = true → Does s (.lowHalfReadCapture t m off) fun n => n.busRead m (off + 4) = d.readWord m (off + 4) ∧
      n.regs = d.regs ∧ ∀ k, k ≠ m → n.holding k = d.holding k) ∧
    (isLowHalf off = false → Does s (.lowHalfReadCapture t m off) fun n => n = d)

/-- R30 to R32: SEAL_REQUEST and SEAL_COMPLETE. The model's choices: a request in another state is rejected as a write is, a completion
outside SEALING has no effect, and the digest's order (log entry 18); the safety controller's request waits for a window (log entry 70). -/
def Obligations.SealsAndRefusals : Prop :=
  ∀ (s : State) (t : Nat) (m : Master), let d := s.now t
    let refused (st kind index : Nat) (n : Dev) : Prop := n.devState = DevSt.setup ∧ n.rd F.DEV_SEAL_CTRL_outcome 0 = st ∧
      n.rd F.DEV_SEAL_CTRL_detail_kind 0 = kind ∧ n.rd F.DEV_SEAL_CTRL_detail_index 0 = index ∧ n.flag F.DEV_SEAL_CTRL_seal 0 = false ∧
      n.mb = d.mb ∧ n.tm = d.tm
    (d.mayStore m = false → Does s (.sealRequest t m) fun n => n = d) ∧
    (d.mayStore m = true → d.devState = DevSt.setup ∨ (d.devState = DevSt.boot ∧ m = .imset ∧ d.sec.sealDue = true) → Does s (.sealRequest t m) fun n =>
      n.devState = DevSt.sealing ∧ n.sys.sealBy = some m ∧ n.flag F.DEV_SEAL_CTRL_seal 0 = true) ∧
    (d.mayStore m = true → d.devState ≠ DevSt.setup → (d.devState ≠ DevSt.boot ∨ m ≠ .imset ∨ d.sec.sealDue = false) → Does s (.sealRequest t m) fun n =>
      n.devState = d.devState ∧ n.rd F.FAB_WRITE_CNT 0 = min (d.rd F.FAB_WRITE_CNT 0 + 1) (2 ^ 32 - 1)) ∧
    (d.devState = DevSt.sealing →
      (∀ c rest, d.sys.conflicts = c :: rest → c.kind < 16 → c.index < 4096 → Does s (.sealComplete t) (refused Code.CLAIMED c.kind c.index)) ∧
      (d.sys.conflicts = [] →
        (∀ l r, d.planFails = some (l, r) → Does s (.sealComplete t) fun n => refused Code.FENCED 0xF l n ∧
          n.rd F.BE_POOL_CHECK 0 = l + 256 * r + 2 ^ 31) ∧
        (d.planFails = none → d.firmwareRuns = false → Does s (.sealComplete t) (refused Code.STALE 0 0)) ∧
        (d.planFails = none → d.firmwareRuns = true → Does s (.sealComplete t) fun n => n.devState = DevSt.sealed ∧
          n.rd F.DEV_SEAL_CTRL_outcome 0 = Code.OK ∧ n.flag F.DEV_SEAL_CTRL_seal 0 = false ∧
          (∀ k : Fin 16, n.rd F.DEV_MEASURE k = (numAt ((List.range 64).map (Config.shake256 d.sealedBytes)) (4 * k) 4) ∧
          (∀ k : Fin 2, n.tmState k = if d.flag F.SC_TM_CFG_enable k then 2 else 1) ∧
          n.chState = (if d.flag F.SC_CH_CFG_enable 0 then 2 else 1) ∧ n.lvState = (if d.flag F.SC_LV_CFG_enable 0 then 2 else 1) ∧
          (∀ a : Fin 6, n.drState a = if d.flag F.SC_DR_CFG_enable a then 2 else 1) ∧
          ∀ l, (l ∈ d.loops → d.loopPlan l = none) ∧ n.flag F.BE_POOL_CHECK_valid 0 = false)))) ∧
    (d.devState ≠ DevSt.sealing → Does s (.sealComplete t) fun n => n = d)

/-! ### The whole machine -/

/-- A step takes the command at the front of the queue, has its effect and leaves the queue's rest; on an empty queue the block idles
(log entry 1). -/
def Obligations.StepTakesTheFrontCommand : Prop :=
  ∀ (s : State) (c : Instr) (rest : List Instr),
    (s.pending = c :: rest → step s = exec c { s with pending := rest }) ∧
    step (s.withFront c) = exec c s ∧ (s.pending = [] → step s = .next s)

/-- Every command answers a next state, whatever the device's state, and leaves the other waiting commands as they are. -/
def Obligations.EveryCommandCompletes : Prop :=
  ∀ (c : Instr) (s : State), ∃ n, exec c s = .next n ∧ n.pending = s.pending

/-- The state after reset has the form that every step keeps. -/
def Obligations.ResetIsSound : Prop := State.reset.Sound

/-- What reset leaves (R30, R36, R371, R386): the registers at their reset values, among them those that this statement names, device
time 0, BOOT, no stage running, no unit fenced, no session, an empty ledger and an empty queue. (PWR_RESET_CAUSE stands as after
power-on, the model's choice of log entry 5, and no clause names it.) -/
def Obligations.ResetLeaves : Prop :=
  let d := State.reset.toDev
  (∀ off, d.word off = resetWord off) ∧ d.word 0 = 0x1F7A6400 ∧ d.time = 0 ∧ d.devState = DevSt.boot ∧
    (∀ k : Fin 21, d.flag F.TB_STG_RUN_run k = false ∧ d.flag F.TB_STG_CFG_enable k = false) ∧ (∀ q : Fin 64, d.qpOn q = false) ∧
    (∀ kind index, d.fenced kind index = false) ∧ (∀ k, d.slot k = none) ∧ d.sec.qpSession = none ∧ d.sec.uartSession = none ∧
    (∀ z : Fin 4, d.rd F.FAB_SPEED_k z = 256) ∧ d.rd F.FAB_WRITE_CNT 0 = 0 ∧ (∀ e : Fin 12, (d.eng e).run = none) ∧
    (∀ c : Fin 8, d.canState c = 1) ∧ d.flag F.FLT_SAFE_safe 0 = false ∧ State.reset.pending = []

/-- R9, R36 and R376 among others: from every state whose device time has 64 bits, whose bank memory and registers are in their
canonical form and whose report intake holds at most 64 reports, every step answers a state of that form. -/
def Obligations.EveryStepKeepsSoundness : Prop :=
  ∀ s : State, s.Sound → ∃ n, step s = .next n ∧ n.Sound

/-- A command that does not renew the device changes no register bit outside the fields of its footprint and no part of the device
outside it; where banks lie outside it, every byte of every bank reads as before. -/
def Obligations.CommandsKeepTheirFrame : Prop :=
  ∀ (c : Instr) (s : State), c.renews = false → Does s c fun n => c.foot.Frame (s.now c.time) n ∧
    (Part.mb ∉ c.foot.parts → ∀ a, n.bankByte a = s.toDev.bankByte a)

/-- R350: no step lets an anti-rollback counter fall; a raise to a value at or below the present one completes with OK and leaves every
counter; a raise above 1,023, or of counter 3 above 3, completes with OTP_FULL; RAISE_COUNTER names a counter from 8 to 63 (R358). The host
range lies in a window (R303), and no frame waits on the service UART (R358). R355: no step changes or removes an enrolled integrator
key. -/
def Obligations.CountersNeverFall : Prop :=
  (∀ s : State, ∃ n, step s = .next n ∧ (∀ k, s.toDev.counter k ≤ n.toDev.counter k) ∧
    ∀ k key, s.toDev.enrolled k = some key → n.toDev.enrolled k = some key) ∧
  ∀ (s : State) (t i : Nat) (x : Descr) (buf : List Byte) (blown : Nat), let d := s.now t
    d.standing 0 i .received x → d.targetFenced 0 x = false → d.sec.uartIn = [] → d.windowCheck x = none → d.authorise false x (buf.take x.length) = none →
    (x.opcode = Op.RAISE_COUNTER → 8 ≤ x.target → x.target < 64 → x.param1 ≤ d.counter x.target → x.param1 ≤ 1023 → Does s (.raiseCounter t i buf blown) fun n =>
      n.endedWith 0 i Code.OK ∧ ∀ k, n.counter k = d.counter k) ∧
    (x.opcode = Op.RAISE_COUNTER → 8 ≤ x.target → x.target < 64 → 1023 < x.param1 → Does s (.raiseCounter t i buf blown) fun n =>
      n.endedWith 0 i Code.OTP_FULL ∧ ∀ k, n.counter k = d.counter k) ∧
    (x.opcode = Op.REVOKE → 3 ≤ d.counter 3 → Does s (.revoke t i buf blown) fun n =>
      n.endedWith 0 i Code.OTP_FULL ∧ ∀ k, n.counter k = d.counter k)

/-- R374: a device in SAFE leaves it by a reset alone. -/
def Obligations.OnlyResetsLeaveSafe : Prop :=
  ∀ (c : Instr) (s : State), s.devState = DevSt.safe → c.resets = false → Does s c fun n => n.devState = DevSt.safe

/-- R36: a command that does not renew the device moves device time to its own instant while the clock runs and the instant lies ahead,
and otherwise leaves it; so time never falls. -/
def Obligations.TimeNeverFalls : Prop :=
  ∀ (c : Instr) (s : State), c.renews = false → Does s c fun n => s.time ≤ n.time ∧
    n.time = if s.clockOn = true then max s.time (c.time % 2 ^ 64) else s.time
end

