-- ==== Sys2Proof/Laws/Bits.lean ====
section
/-! SUPPORT. The laws of bit fields: a field reads back what was put, and the others stay. -/

namespace Sys2Proof.Machine

theorem getLsbD_bitMask (lo width i : Nat) (h : lo + width ≤ 32) :
    (bitMask lo width).getLsbD i = (decide (lo ≤ i) && decide (i < lo + width)) := by
  unfold bitMask
  rw [BitVec.getLsbD_ofNat, Nat.testBit_mul_two_pow, Nat.testBit_two_pow_sub_one]
  rcases Nat.lt_or_ge i lo with h1 | h1
  · simp [h1, Nat.not_le.mpr h1]
  · by_cases h2 : i < lo + width
    · have : i - lo < width := by omega
      have : i < 32 := by omega
      simp [h1, h2, *]
    · have : ¬ i - lo < width := by omega
      simp [h2, this]

theorem getLsbD_putBits (w : Word) (lo width v i : Nat) (h : lo + width ≤ 32) :
    (putBits w lo width v).getLsbD i =
      if lo ≤ i ∧ i < lo + width then v.testBit (i - lo) else w.getLsbD i := by
  unfold putBits
  rw [BitVec.getLsbD_or, BitVec.getLsbD_and, BitVec.getLsbD_not, getLsbD_bitMask _ _ _ h, BitVec.getLsbD_ofNat,
    Nat.testBit_mul_two_pow, Nat.testBit_mod_two_pow]
  by_cases h32 : i < 32
  · by_cases h1 : lo ≤ i
    · by_cases h2 : i < lo + width
      · have : i - lo < width := by omega
        simp [h1, h2, h32, this]
      · have : ¬ i - lo < width := by omega
        simp [h1, h2, h32, this]
    · simp [h1, h32]
  · have h2 : ¬ i < lo + width := by omega
    simp [h32, h2, BitVec.getLsbD_of_ge w i (by omega)]

/-- A field reads back what was put into it, cut to its width. -/
@[simp] theorem getBits_putBits (w : Word) (lo width v : Nat) (h : lo + width ≤ 32) :
    getBits (putBits w lo width v) lo width = v % 2 ^ width := by
  unfold getBits
  apply Nat.eq_of_testBit_eq
  intro i
  rw [Nat.testBit_mod_two_pow, BitVec.testBit_toNat, BitVec.getLsbD_extractLsb', getLsbD_putBits _ _ _ _ _ h]
  by_cases hi : i < width
  · simp [hi]
  · simp [hi]

/-- A field that shares no bit with the one put is unchanged. -/
theorem getBits_putBits_other (w : Word) (lo width v lo' width' : Nat) (h : lo + width ≤ 32)
    (hd : lo' + width' ≤ lo ∨ lo + width ≤ lo') :
    getBits (putBits w lo width v) lo' width' = getBits w lo' width' := by
  unfold getBits
  congr 1
  apply BitVec.eq_of_getLsbD_eq
  intro i hi
  rw [BitVec.getLsbD_extractLsb', BitVec.getLsbD_extractLsb', getLsbD_putBits _ _ _ _ _ h]
  have : ¬ (lo ≤ lo' + i ∧ lo' + i < lo + width) := by omega
  simp [this]

theorem getBits_lt (w : Word) (lo width : Nat) : getBits w lo width < 2 ^ width := by
  unfold getBits
  exact BitVec.isLt _

end Sys2Proof.Machine
end

