-- ==== Sys2Proof/Laws/State.lean ====
section
/-! SUPPORT. One lemma per field of the device per update of it, true by rfl: a later proof unfolds no record update. -/

namespace Sys2Proof.Machine

@[simp] theorem Dev.withTime_time (d : Dev) v : (d.withTime v).time = v := rfl
@[simp] theorem Dev.withTime_clockOn (d : Dev) v : (d.withTime v).clockOn = d.clockOn := rfl
@[simp] theorem Dev.withTime_regs (d : Dev) v : (d.withTime v).regs = d.regs := rfl
@[simp] theorem Dev.withTime_fresh (d : Dev) v : (d.withTime v).fresh = d.fresh := rfl
@[simp] theorem Dev.withTime_sys (d : Dev) v : (d.withTime v).sys = d.sys := rfl
@[simp] theorem Dev.withTime_tb (d : Dev) v : (d.withTime v).tb = d.tb := rfl
@[simp] theorem Dev.withTime_pp (d : Dev) v : (d.withTime v).pp = d.pp := rfl
@[simp] theorem Dev.withTime_sh (d : Dev) v : (d.withTime v).sh = d.sh := rfl
@[simp] theorem Dev.withTime_cv (d : Dev) v : (d.withTime v).cv = d.cv := rfl
@[simp] theorem Dev.withTime_ps (d : Dev) v : (d.withTime v).ps = d.ps := rfl
@[simp] theorem Dev.withTime_be (d : Dev) v : (d.withTime v).be = d.be := rfl
@[simp] theorem Dev.withTime_tm (d : Dev) v : (d.withTime v).tm = d.tm := rfl
@[simp] theorem Dev.withTime_ch (d : Dev) v : (d.withTime v).ch = d.ch := rfl
@[simp] theorem Dev.withTime_dr (d : Dev) v : (d.withTime v).dr = d.dr := rfl
@[simp] theorem Dev.withTime_sc (d : Dev) v : (d.withTime v).sc = d.sc := rfl
@[simp] theorem Dev.withTime_mb (d : Dev) v : (d.withTime v).mb = d.mb := rfl
@[simp] theorem Dev.withTime_hi (d : Dev) v : (d.withTime v).hi = d.hi := rfl
@[simp] theorem Dev.withTime_cn (d : Dev) v : (d.withTime v).cn = d.cn := rfl
@[simp] theorem Dev.withTime_sec (d : Dev) v : (d.withTime v).sec = d.sec := rfl
@[simp] theorem Dev.withTime_flt (d : Dev) v : (d.withTime v).flt = d.flt := rfl
@[simp] theorem Dev.withTime_pw (d : Dev) v : (d.withTime v).pw = d.pw := rfl
@[simp] theorem Dev.withClockOn_time (d : Dev) v : (d.withClockOn v).time = d.time := rfl
@[simp] theorem Dev.withClockOn_clockOn (d : Dev) v : (d.withClockOn v).clockOn = v := rfl
@[simp] theorem Dev.withClockOn_regs (d : Dev) v : (d.withClockOn v).regs = d.regs := rfl
@[simp] theorem Dev.withClockOn_fresh (d : Dev) v : (d.withClockOn v).fresh = d.fresh := rfl
@[simp] theorem Dev.withClockOn_sys (d : Dev) v : (d.withClockOn v).sys = d.sys := rfl
@[simp] theorem Dev.withClockOn_tb (d : Dev) v : (d.withClockOn v).tb = d.tb := rfl
@[simp] theorem Dev.withClockOn_pp (d : Dev) v : (d.withClockOn v).pp = d.pp := rfl
@[simp] theorem Dev.withClockOn_sh (d : Dev) v : (d.withClockOn v).sh = d.sh := rfl
@[simp] theorem Dev.withClockOn_cv (d : Dev) v : (d.withClockOn v).cv = d.cv := rfl
@[simp] theorem Dev.withClockOn_ps (d : Dev) v : (d.withClockOn v).ps = d.ps := rfl
@[simp] theorem Dev.withClockOn_be (d : Dev) v : (d.withClockOn v).be = d.be := rfl
@[simp] theorem Dev.withClockOn_tm (d : Dev) v : (d.withClockOn v).tm = d.tm := rfl
@[simp] theorem Dev.withClockOn_ch (d : Dev) v : (d.withClockOn v).ch = d.ch := rfl
@[simp] theorem Dev.withClockOn_dr (d : Dev) v : (d.withClockOn v).dr = d.dr := rfl
@[simp] theorem Dev.withClockOn_sc (d : Dev) v : (d.withClockOn v).sc = d.sc := rfl
@[simp] theorem Dev.withClockOn_mb (d : Dev) v : (d.withClockOn v).mb = d.mb := rfl
@[simp] theorem Dev.withClockOn_hi (d : Dev) v : (d.withClockOn v).hi = d.hi := rfl
@[simp] theorem Dev.withClockOn_cn (d : Dev) v : (d.withClockOn v).cn = d.cn := rfl
@[simp] theorem Dev.withClockOn_sec (d : Dev) v : (d.withClockOn v).sec = d.sec := rfl
@[simp] theorem Dev.withClockOn_flt (d : Dev) v : (d.withClockOn v).flt = d.flt := rfl
@[simp] theorem Dev.withClockOn_pw (d : Dev) v : (d.withClockOn v).pw = d.pw := rfl
@[simp] theorem Dev.withRegs_time (d : Dev) v : (d.withRegs v).time = d.time := rfl
@[simp] theorem Dev.withRegs_clockOn (d : Dev) v : (d.withRegs v).clockOn = d.clockOn := rfl
@[simp] theorem Dev.withRegs_regs (d : Dev) v : (d.withRegs v).regs = v := rfl
@[simp] theorem Dev.withRegs_fresh (d : Dev) v : (d.withRegs v).fresh = d.fresh := rfl
@[simp] theorem Dev.withRegs_sys (d : Dev) v : (d.withRegs v).sys = d.sys := rfl
@[simp] theorem Dev.withRegs_tb (d : Dev) v : (d.withRegs v).tb = d.tb := rfl
@[simp] theorem Dev.withRegs_pp (d : Dev) v : (d.withRegs v).pp = d.pp := rfl
@[simp] theorem Dev.withRegs_sh (d : Dev) v : (d.withRegs v).sh = d.sh := rfl
@[simp] theorem Dev.withRegs_cv (d : Dev) v : (d.withRegs v).cv = d.cv := rfl
@[simp] theorem Dev.withRegs_ps (d : Dev) v : (d.withRegs v).ps = d.ps := rfl
@[simp] theorem Dev.withRegs_be (d : Dev) v : (d.withRegs v).be = d.be := rfl
@[simp] theorem Dev.withRegs_tm (d : Dev) v : (d.withRegs v).tm = d.tm := rfl
@[simp] theorem Dev.withRegs_ch (d : Dev) v : (d.withRegs v).ch = d.ch := rfl
@[simp] theorem Dev.withRegs_dr (d : Dev) v : (d.withRegs v).dr = d.dr := rfl
@[simp] theorem Dev.withRegs_sc (d : Dev) v : (d.withRegs v).sc = d.sc := rfl
@[simp] theorem Dev.withRegs_mb (d : Dev) v : (d.withRegs v).mb = d.mb := rfl
@[simp] theorem Dev.withRegs_hi (d : Dev) v : (d.withRegs v).hi = d.hi := rfl
@[simp] theorem Dev.withRegs_cn (d : Dev) v : (d.withRegs v).cn = d.cn := rfl
@[simp] theorem Dev.withRegs_sec (d : Dev) v : (d.withRegs v).sec = d.sec := rfl
@[simp] theorem Dev.withRegs_flt (d : Dev) v : (d.withRegs v).flt = d.flt := rfl
@[simp] theorem Dev.withRegs_pw (d : Dev) v : (d.withRegs v).pw = d.pw := rfl
@[simp] theorem Dev.withFresh_time (d : Dev) v : (d.withFresh v).time = d.time := rfl
@[simp] theorem Dev.withFresh_clockOn (d : Dev) v : (d.withFresh v).clockOn = d.clockOn := rfl
@[simp] theorem Dev.withFresh_regs (d : Dev) v : (d.withFresh v).regs = d.regs := rfl
@[simp] theorem Dev.withFresh_fresh (d : Dev) v : (d.withFresh v).fresh = v := rfl
@[simp] theorem Dev.withFresh_sys (d : Dev) v : (d.withFresh v).sys = d.sys := rfl
@[simp] theorem Dev.withFresh_tb (d : Dev) v : (d.withFresh v).tb = d.tb := rfl
@[simp] theorem Dev.withFresh_pp (d : Dev) v : (d.withFresh v).pp = d.pp := rfl
@[simp] theorem Dev.withFresh_sh (d : Dev) v : (d.withFresh v).sh = d.sh := rfl
@[simp] theorem Dev.withFresh_cv (d : Dev) v : (d.withFresh v).cv = d.cv := rfl
@[simp] theorem Dev.withFresh_ps (d : Dev) v : (d.withFresh v).ps = d.ps := rfl
@[simp] theorem Dev.withFresh_be (d : Dev) v : (d.withFresh v).be = d.be := rfl
@[simp] theorem Dev.withFresh_tm (d : Dev) v : (d.withFresh v).tm = d.tm := rfl
@[simp] theorem Dev.withFresh_ch (d : Dev) v : (d.withFresh v).ch = d.ch := rfl
@[simp] theorem Dev.withFresh_dr (d : Dev) v : (d.withFresh v).dr = d.dr := rfl
@[simp] theorem Dev.withFresh_sc (d : Dev) v : (d.withFresh v).sc = d.sc := rfl
@[simp] theorem Dev.withFresh_mb (d : Dev) v : (d.withFresh v).mb = d.mb := rfl
@[simp] theorem Dev.withFresh_hi (d : Dev) v : (d.withFresh v).hi = d.hi := rfl
@[simp] theorem Dev.withFresh_cn (d : Dev) v : (d.withFresh v).cn = d.cn := rfl
@[simp] theorem Dev.withFresh_sec (d : Dev) v : (d.withFresh v).sec = d.sec := rfl
@[simp] theorem Dev.withFresh_flt (d : Dev) v : (d.withFresh v).flt = d.flt := rfl
@[simp] theorem Dev.withFresh_pw (d : Dev) v : (d.withFresh v).pw = d.pw := rfl
@[simp] theorem Dev.withSys_time (d : Dev) v : (d.withSys v).time = d.time := rfl
@[simp] theorem Dev.withSys_clockOn (d : Dev) v : (d.withSys v).clockOn = d.clockOn := rfl
@[simp] theorem Dev.withSys_regs (d : Dev) v : (d.withSys v).regs = d.regs := rfl
@[simp] theorem Dev.withSys_fresh (d : Dev) v : (d.withSys v).fresh = d.fresh := rfl
@[simp] theorem Dev.withSys_sys (d : Dev) v : (d.withSys v).sys = v := rfl
@[simp] theorem Dev.withSys_tb (d : Dev) v : (d.withSys v).tb = d.tb := rfl
@[simp] theorem Dev.withSys_pp (d : Dev) v : (d.withSys v).pp = d.pp := rfl
@[simp] theorem Dev.withSys_sh (d : Dev) v : (d.withSys v).sh = d.sh := rfl
@[simp] theorem Dev.withSys_cv (d : Dev) v : (d.withSys v).cv = d.cv := rfl
@[simp] theorem Dev.withSys_ps (d : Dev) v : (d.withSys v).ps = d.ps := rfl
@[simp] theorem Dev.withSys_be (d : Dev) v : (d.withSys v).be = d.be := rfl
@[simp] theorem Dev.withSys_tm (d : Dev) v : (d.withSys v).tm = d.tm := rfl
@[simp] theorem Dev.withSys_ch (d : Dev) v : (d.withSys v).ch = d.ch := rfl
@[simp] theorem Dev.withSys_dr (d : Dev) v : (d.withSys v).dr = d.dr := rfl
@[simp] theorem Dev.withSys_sc (d : Dev) v : (d.withSys v).sc = d.sc := rfl
@[simp] theorem Dev.withSys_mb (d : Dev) v : (d.withSys v).mb = d.mb := rfl
@[simp] theorem Dev.withSys_hi (d : Dev) v : (d.withSys v).hi = d.hi := rfl
@[simp] theorem Dev.withSys_cn (d : Dev) v : (d.withSys v).cn = d.cn := rfl
@[simp] theorem Dev.withSys_sec (d : Dev) v : (d.withSys v).sec = d.sec := rfl
@[simp] theorem Dev.withSys_flt (d : Dev) v : (d.withSys v).flt = d.flt := rfl
@[simp] theorem Dev.withSys_pw (d : Dev) v : (d.withSys v).pw = d.pw := rfl
@[simp] theorem Dev.withTb_time (d : Dev) v : (d.withTb v).time = d.time := rfl
@[simp] theorem Dev.withTb_clockOn (d : Dev) v : (d.withTb v).clockOn = d.clockOn := rfl
@[simp] theorem Dev.withTb_regs (d : Dev) v : (d.withTb v).regs = d.regs := rfl
@[simp] theorem Dev.withTb_fresh (d : Dev) v : (d.withTb v).fresh = d.fresh := rfl
@[simp] theorem Dev.withTb_sys (d : Dev) v : (d.withTb v).sys = d.sys := rfl
@[simp] theorem Dev.withTb_tb (d : Dev) v : (d.withTb v).tb = v := rfl
@[simp] theorem Dev.withTb_pp (d : Dev) v : (d.withTb v).pp = d.pp := rfl
@[simp] theorem Dev.withTb_sh (d : Dev) v : (d.withTb v).sh = d.sh := rfl
@[simp] theorem Dev.withTb_cv (d : Dev) v : (d.withTb v).cv = d.cv := rfl
@[simp] theorem Dev.withTb_ps (d : Dev) v : (d.withTb v).ps = d.ps := rfl
@[simp] theorem Dev.withTb_be (d : Dev) v : (d.withTb v).be = d.be := rfl
@[simp] theorem Dev.withTb_tm (d : Dev) v : (d.withTb v).tm = d.tm := rfl
@[simp] theorem Dev.withTb_ch (d : Dev) v : (d.withTb v).ch = d.ch := rfl
@[simp] theorem Dev.withTb_dr (d : Dev) v : (d.withTb v).dr = d.dr := rfl
@[simp] theorem Dev.withTb_sc (d : Dev) v : (d.withTb v).sc = d.sc := rfl
@[simp] theorem Dev.withTb_mb (d : Dev) v : (d.withTb v).mb = d.mb := rfl
@[simp] theorem Dev.withTb_hi (d : Dev) v : (d.withTb v).hi = d.hi := rfl
@[simp] theorem Dev.withTb_cn (d : Dev) v : (d.withTb v).cn = d.cn := rfl
@[simp] theorem Dev.withTb_sec (d : Dev) v : (d.withTb v).sec = d.sec := rfl
@[simp] theorem Dev.withTb_flt (d : Dev) v : (d.withTb v).flt = d.flt := rfl
@[simp] theorem Dev.withTb_pw (d : Dev) v : (d.withTb v).pw = d.pw := rfl
@[simp] theorem Dev.withPp_time (d : Dev) v : (d.withPp v).time = d.time := rfl
@[simp] theorem Dev.withPp_clockOn (d : Dev) v : (d.withPp v).clockOn = d.clockOn := rfl
@[simp] theorem Dev.withPp_regs (d : Dev) v : (d.withPp v).regs = d.regs := rfl
@[simp] theorem Dev.withPp_fresh (d : Dev) v : (d.withPp v).fresh = d.fresh := rfl
@[simp] theorem Dev.withPp_sys (d : Dev) v : (d.withPp v).sys = d.sys := rfl
@[simp] theorem Dev.withPp_tb (d : Dev) v : (d.withPp v).tb = d.tb := rfl
@[simp] theorem Dev.withPp_pp (d : Dev) v : (d.withPp v).pp = v := rfl
@[simp] theorem Dev.withPp_sh (d : Dev) v : (d.withPp v).sh = d.sh := rfl
@[simp] theorem Dev.withPp_cv (d : Dev) v : (d.withPp v).cv = d.cv := rfl
@[simp] theorem Dev.withPp_ps (d : Dev) v : (d.withPp v).ps = d.ps := rfl
@[simp] theorem Dev.withPp_be (d : Dev) v : (d.withPp v).be = d.be := rfl
@[simp] theorem Dev.withPp_tm (d : Dev) v : (d.withPp v).tm = d.tm := rfl
@[simp] theorem Dev.withPp_ch (d : Dev) v : (d.withPp v).ch = d.ch := rfl
@[simp] theorem Dev.withPp_dr (d : Dev) v : (d.withPp v).dr = d.dr := rfl
@[simp] theorem Dev.withPp_sc (d : Dev) v : (d.withPp v).sc = d.sc := rfl
@[simp] theorem Dev.withPp_mb (d : Dev) v : (d.withPp v).mb = d.mb := rfl
@[simp] theorem Dev.withPp_hi (d : Dev) v : (d.withPp v).hi = d.hi := rfl
@[simp] theorem Dev.withPp_cn (d : Dev) v : (d.withPp v).cn = d.cn := rfl
@[simp] theorem Dev.withPp_sec (d : Dev) v : (d.withPp v).sec = d.sec := rfl
@[simp] theorem Dev.withPp_flt (d : Dev) v : (d.withPp v).flt = d.flt := rfl
@[simp] theorem Dev.withPp_pw (d : Dev) v : (d.withPp v).pw = d.pw := rfl
@[simp] theorem Dev.withSh_time (d : Dev) v : (d.withSh v).time = d.time := rfl
@[simp] theorem Dev.withSh_clockOn (d : Dev) v : (d.withSh v).clockOn = d.clockOn := rfl
@[simp] theorem Dev.withSh_regs (d : Dev) v : (d.withSh v).regs = d.regs := rfl
@[simp] theorem Dev.withSh_fresh (d : Dev) v : (d.withSh v).fresh = d.fresh := rfl
@[simp] theorem Dev.withSh_sys (d : Dev) v : (d.withSh v).sys = d.sys := rfl
@[simp] theorem Dev.withSh_tb (d : Dev) v : (d.withSh v).tb = d.tb := rfl
@[simp] theorem Dev.withSh_pp (d : Dev) v : (d.withSh v).pp = d.pp := rfl
@[simp] theorem Dev.withSh_sh (d : Dev) v : (d.withSh v).sh = v := rfl
@[simp] theorem Dev.withSh_cv (d : Dev) v : (d.withSh v).cv = d.cv := rfl
@[simp] theorem Dev.withSh_ps (d : Dev) v : (d.withSh v).ps = d.ps := rfl
@[simp] theorem Dev.withSh_be (d : Dev) v : (d.withSh v).be = d.be := rfl
@[simp] theorem Dev.withSh_tm (d : Dev) v : (d.withSh v).tm = d.tm := rfl
@[simp] theorem Dev.withSh_ch (d : Dev) v : (d.withSh v).ch = d.ch := rfl
@[simp] theorem Dev.withSh_dr (d : Dev) v : (d.withSh v).dr = d.dr := rfl
@[simp] theorem Dev.withSh_sc (d : Dev) v : (d.withSh v).sc = d.sc := rfl
@[simp] theorem Dev.withSh_mb (d : Dev) v : (d.withSh v).mb = d.mb := rfl
@[simp] theorem Dev.withSh_hi (d : Dev) v : (d.withSh v).hi = d.hi := rfl
@[simp] theorem Dev.withSh_cn (d : Dev) v : (d.withSh v).cn = d.cn := rfl
@[simp] theorem Dev.withSh_sec (d : Dev) v : (d.withSh v).sec = d.sec := rfl
@[simp] theorem Dev.withSh_flt (d : Dev) v : (d.withSh v).flt = d.flt := rfl
@[simp] theorem Dev.withSh_pw (d : Dev) v : (d.withSh v).pw = d.pw := rfl
@[simp] theorem Dev.withCv_time (d : Dev) v : (d.withCv v).time = d.time := rfl
@[simp] theorem Dev.withCv_clockOn (d : Dev) v : (d.withCv v).clockOn = d.clockOn := rfl
@[simp] theorem Dev.withCv_regs (d : Dev) v : (d.withCv v).regs = d.regs := rfl
@[simp] theorem Dev.withCv_fresh (d : Dev) v : (d.withCv v).fresh = d.fresh := rfl
@[simp] theorem Dev.withCv_sys (d : Dev) v : (d.withCv v).sys = d.sys := rfl
@[simp] theorem Dev.withCv_tb (d : Dev) v : (d.withCv v).tb = d.tb := rfl
@[simp] theorem Dev.withCv_pp (d : Dev) v : (d.withCv v).pp = d.pp := rfl
@[simp] theorem Dev.withCv_sh (d : Dev) v : (d.withCv v).sh = d.sh := rfl
@[simp] theorem Dev.withCv_cv (d : Dev) v : (d.withCv v).cv = v := rfl
@[simp] theorem Dev.withCv_ps (d : Dev) v : (d.withCv v).ps = d.ps := rfl
@[simp] theorem Dev.withCv_be (d : Dev) v : (d.withCv v).be = d.be := rfl
@[simp] theorem Dev.withCv_tm (d : Dev) v : (d.withCv v).tm = d.tm := rfl
@[simp] theorem Dev.withCv_ch (d : Dev) v : (d.withCv v).ch = d.ch := rfl
@[simp] theorem Dev.withCv_dr (d : Dev) v : (d.withCv v).dr = d.dr := rfl
@[simp] theorem Dev.withCv_sc (d : Dev) v : (d.withCv v).sc = d.sc := rfl
@[simp] theorem Dev.withCv_mb (d : Dev) v : (d.withCv v).mb = d.mb := rfl
@[simp] theorem Dev.withCv_hi (d : Dev) v : (d.withCv v).hi = d.hi := rfl
@[simp] theorem Dev.withCv_cn (d : Dev) v : (d.withCv v).cn = d.cn := rfl
@[simp] theorem Dev.withCv_sec (d : Dev) v : (d.withCv v).sec = d.sec := rfl
@[simp] theorem Dev.withCv_flt (d : Dev) v : (d.withCv v).flt = d.flt := rfl
@[simp] theorem Dev.withCv_pw (d : Dev) v : (d.withCv v).pw = d.pw := rfl
@[simp] theorem Dev.withPs_time (d : Dev) v : (d.withPs v).time = d.time := rfl
@[simp] theorem Dev.withPs_clockOn (d : Dev) v : (d.withPs v).clockOn = d.clockOn := rfl
@[simp] theorem Dev.withPs_regs (d : Dev) v : (d.withPs v).regs = d.regs := rfl
@[simp] theorem Dev.withPs_fresh (d : Dev) v : (d.withPs v).fresh = d.fresh := rfl
@[simp] theorem Dev.withPs_sys (d : Dev) v : (d.withPs v).sys = d.sys := rfl
@[simp] theorem Dev.withPs_tb (d : Dev) v : (d.withPs v).tb = d.tb := rfl
@[simp] theorem Dev.withPs_pp (d : Dev) v : (d.withPs v).pp = d.pp := rfl
@[simp] theorem Dev.withPs_sh (d : Dev) v : (d.withPs v).sh = d.sh := rfl
@[simp] theorem Dev.withPs_cv (d : Dev) v : (d.withPs v).cv = d.cv := rfl
@[simp] theorem Dev.withPs_ps (d : Dev) v : (d.withPs v).ps = v := rfl
@[simp] theorem Dev.withPs_be (d : Dev) v : (d.withPs v).be = d.be := rfl
@[simp] theorem Dev.withPs_tm (d : Dev) v : (d.withPs v).tm = d.tm := rfl
@[simp] theorem Dev.withPs_ch (d : Dev) v : (d.withPs v).ch = d.ch := rfl
@[simp] theorem Dev.withPs_dr (d : Dev) v : (d.withPs v).dr = d.dr := rfl
@[simp] theorem Dev.withPs_sc (d : Dev) v : (d.withPs v).sc = d.sc := rfl
@[simp] theorem Dev.withPs_mb (d : Dev) v : (d.withPs v).mb = d.mb := rfl
@[simp] theorem Dev.withPs_hi (d : Dev) v : (d.withPs v).hi = d.hi := rfl
@[simp] theorem Dev.withPs_cn (d : Dev) v : (d.withPs v).cn = d.cn := rfl
@[simp] theorem Dev.withPs_sec (d : Dev) v : (d.withPs v).sec = d.sec := rfl
@[simp] theorem Dev.withPs_flt (d : Dev) v : (d.withPs v).flt = d.flt := rfl
@[simp] theorem Dev.withPs_pw (d : Dev) v : (d.withPs v).pw = d.pw := rfl
@[simp] theorem Dev.withBe_time (d : Dev) v : (d.withBe v).time = d.time := rfl
@[simp] theorem Dev.withBe_clockOn (d : Dev) v : (d.withBe v).clockOn = d.clockOn := rfl
@[simp] theorem Dev.withBe_regs (d : Dev) v : (d.withBe v).regs = d.regs := rfl
@[simp] theorem Dev.withBe_fresh (d : Dev) v : (d.withBe v).fresh = d.fresh := rfl
@[simp] theorem Dev.withBe_sys (d : Dev) v : (d.withBe v).sys = d.sys := rfl
@[simp] theorem Dev.withBe_tb (d : Dev) v : (d.withBe v).tb = d.tb := rfl
@[simp] theorem Dev.withBe_pp (d : Dev) v : (d.withBe v).pp = d.pp := rfl
@[simp] theorem Dev.withBe_sh (d : Dev) v : (d.withBe v).sh = d.sh := rfl
@[simp] theorem Dev.withBe_cv (d : Dev) v : (d.withBe v).cv = d.cv := rfl
@[simp] theorem Dev.withBe_ps (d : Dev) v : (d.withBe v).ps = d.ps := rfl
@[simp] theorem Dev.withBe_be (d : Dev) v : (d.withBe v).be = v := rfl
@[simp] theorem Dev.withBe_tm (d : Dev) v : (d.withBe v).tm = d.tm := rfl
@[simp] theorem Dev.withBe_ch (d : Dev) v : (d.withBe v).ch = d.ch := rfl
@[simp] theorem Dev.withBe_dr (d : Dev) v : (d.withBe v).dr = d.dr := rfl
@[simp] theorem Dev.withBe_sc (d : Dev) v : (d.withBe v).sc = d.sc := rfl
@[simp] theorem Dev.withBe_mb (d : Dev) v : (d.withBe v).mb = d.mb := rfl
@[simp] theorem Dev.withBe_hi (d : Dev) v : (d.withBe v).hi = d.hi := rfl
@[simp] theorem Dev.withBe_cn (d : Dev) v : (d.withBe v).cn = d.cn := rfl
@[simp] theorem Dev.withBe_sec (d : Dev) v : (d.withBe v).sec = d.sec := rfl
@[simp] theorem Dev.withBe_flt (d : Dev) v : (d.withBe v).flt = d.flt := rfl
@[simp] theorem Dev.withBe_pw (d : Dev) v : (d.withBe v).pw = d.pw := rfl
@[simp] theorem Dev.withTm_time (d : Dev) v : (d.withTm v).time = d.time := rfl
@[simp] theorem Dev.withTm_clockOn (d : Dev) v : (d.withTm v).clockOn = d.clockOn := rfl
@[simp] theorem Dev.withTm_regs (d : Dev) v : (d.withTm v).regs = d.regs := rfl
@[simp] theorem Dev.withTm_fresh (d : Dev) v : (d.withTm v).fresh = d.fresh := rfl
@[simp] theorem Dev.withTm_sys (d : Dev) v : (d.withTm v).sys = d.sys := rfl
@[simp] theorem Dev.withTm_tb (d : Dev) v : (d.withTm v).tb = d.tb := rfl
@[simp] theorem Dev.withTm_pp (d : Dev) v : (d.withTm v).pp = d.pp := rfl
@[simp] theorem Dev.withTm_sh (d : Dev) v : (d.withTm v).sh = d.sh := rfl
@[simp] theorem Dev.withTm_cv (d : Dev) v : (d.withTm v).cv = d.cv := rfl
@[simp] theorem Dev.withTm_ps (d : Dev) v : (d.withTm v).ps = d.ps := rfl
@[simp] theorem Dev.withTm_be (d : Dev) v : (d.withTm v).be = d.be := rfl
@[simp] theorem Dev.withTm_tm (d : Dev) v : (d.withTm v).tm = v := rfl
@[simp] theorem Dev.withTm_ch (d : Dev) v : (d.withTm v).ch = d.ch := rfl
@[simp] theorem Dev.withTm_dr (d : Dev) v : (d.withTm v).dr = d.dr := rfl
@[simp] theorem Dev.withTm_sc (d : Dev) v : (d.withTm v).sc = d.sc := rfl
@[simp] theorem Dev.withTm_mb (d : Dev) v : (d.withTm v).mb = d.mb := rfl
@[simp] theorem Dev.withTm_hi (d : Dev) v : (d.withTm v).hi = d.hi := rfl
@[simp] theorem Dev.withTm_cn (d : Dev) v : (d.withTm v).cn = d.cn := rfl
@[simp] theorem Dev.withTm_sec (d : Dev) v : (d.withTm v).sec = d.sec := rfl
@[simp] theorem Dev.withTm_flt (d : Dev) v : (d.withTm v).flt = d.flt := rfl
@[simp] theorem Dev.withTm_pw (d : Dev) v : (d.withTm v).pw = d.pw := rfl
@[simp] theorem Dev.withCh_time (d : Dev) v : (d.withCh v).time = d.time := rfl
@[simp] theorem Dev.withCh_clockOn (d : Dev) v : (d.withCh v).clockOn = d.clockOn := rfl
@[simp] theorem Dev.withCh_regs (d : Dev) v : (d.withCh v).regs = d.regs := rfl
@[simp] theorem Dev.withCh_fresh (d : Dev) v : (d.withCh v).fresh = d.fresh := rfl
@[simp] theorem Dev.withCh_sys (d : Dev) v : (d.withCh v).sys = d.sys := rfl
@[simp] theorem Dev.withCh_tb (d : Dev) v : (d.withCh v).tb = d.tb := rfl
@[simp] theorem Dev.withCh_pp (d : Dev) v : (d.withCh v).pp = d.pp := rfl
@[simp] theorem Dev.withCh_sh (d : Dev) v : (d.withCh v).sh = d.sh := rfl
@[simp] theorem Dev.withCh_cv (d : Dev) v : (d.withCh v).cv = d.cv := rfl
@[simp] theorem Dev.withCh_ps (d : Dev) v : (d.withCh v).ps = d.ps := rfl
@[simp] theorem Dev.withCh_be (d : Dev) v : (d.withCh v).be = d.be := rfl
@[simp] theorem Dev.withCh_tm (d : Dev) v : (d.withCh v).tm = d.tm := rfl
@[simp] theorem Dev.withCh_ch (d : Dev) v : (d.withCh v).ch = v := rfl
@[simp] theorem Dev.withCh_dr (d : Dev) v : (d.withCh v).dr = d.dr := rfl
@[simp] theorem Dev.withCh_sc (d : Dev) v : (d.withCh v).sc = d.sc := rfl
@[simp] theorem Dev.withCh_mb (d : Dev) v : (d.withCh v).mb = d.mb := rfl
@[simp] theorem Dev.withCh_hi (d : Dev) v : (d.withCh v).hi = d.hi := rfl
@[simp] theorem Dev.withCh_cn (d : Dev) v : (d.withCh v).cn = d.cn := rfl
@[simp] theorem Dev.withCh_sec (d : Dev) v : (d.withCh v).sec = d.sec := rfl
@[simp] theorem Dev.withCh_flt (d : Dev) v : (d.withCh v).flt = d.flt := rfl
@[simp] theorem Dev.withCh_pw (d : Dev) v : (d.withCh v).pw = d.pw := rfl
@[simp] theorem Dev.withDr_time (d : Dev) v : (d.withDr v).time = d.time := rfl
@[simp] theorem Dev.withDr_clockOn (d : Dev) v : (d.withDr v).clockOn = d.clockOn := rfl
@[simp] theorem Dev.withDr_regs (d : Dev) v : (d.withDr v).regs = d.regs := rfl
@[simp] theorem Dev.withDr_fresh (d : Dev) v : (d.withDr v).fresh = d.fresh := rfl
@[simp] theorem Dev.withDr_sys (d : Dev) v : (d.withDr v).sys = d.sys := rfl
@[simp] theorem Dev.withDr_tb (d : Dev) v : (d.withDr v).tb = d.tb := rfl
@[simp] theorem Dev.withDr_pp (d : Dev) v : (d.withDr v).pp = d.pp := rfl
@[simp] theorem Dev.withDr_sh (d : Dev) v : (d.withDr v).sh = d.sh := rfl
@[simp] theorem Dev.withDr_cv (d : Dev) v : (d.withDr v).cv = d.cv := rfl
@[simp] theorem Dev.withDr_ps (d : Dev) v : (d.withDr v).ps = d.ps := rfl
@[simp] theorem Dev.withDr_be (d : Dev) v : (d.withDr v).be = d.be := rfl
@[simp] theorem Dev.withDr_tm (d : Dev) v : (d.withDr v).tm = d.tm := rfl
@[simp] theorem Dev.withDr_ch (d : Dev) v : (d.withDr v).ch = d.ch := rfl
@[simp] theorem Dev.withDr_dr (d : Dev) v : (d.withDr v).dr = v := rfl
@[simp] theorem Dev.withDr_sc (d : Dev) v : (d.withDr v).sc = d.sc := rfl
@[simp] theorem Dev.withDr_mb (d : Dev) v : (d.withDr v).mb = d.mb := rfl
@[simp] theorem Dev.withDr_hi (d : Dev) v : (d.withDr v).hi = d.hi := rfl
@[simp] theorem Dev.withDr_cn (d : Dev) v : (d.withDr v).cn = d.cn := rfl
@[simp] theorem Dev.withDr_sec (d : Dev) v : (d.withDr v).sec = d.sec := rfl
@[simp] theorem Dev.withDr_flt (d : Dev) v : (d.withDr v).flt = d.flt := rfl
@[simp] theorem Dev.withDr_pw (d : Dev) v : (d.withDr v).pw = d.pw := rfl
@[simp] theorem Dev.withSc_time (d : Dev) v : (d.withSc v).time = d.time := rfl
@[simp] theorem Dev.withSc_clockOn (d : Dev) v : (d.withSc v).clockOn = d.clockOn := rfl
@[simp] theorem Dev.withSc_regs (d : Dev) v : (d.withSc v).regs = d.regs := rfl
@[simp] theorem Dev.withSc_fresh (d : Dev) v : (d.withSc v).fresh = d.fresh := rfl
@[simp] theorem Dev.withSc_sys (d : Dev) v : (d.withSc v).sys = d.sys := rfl
@[simp] theorem Dev.withSc_tb (d : Dev) v : (d.withSc v).tb = d.tb := rfl
@[simp] theorem Dev.withSc_pp (d : Dev) v : (d.withSc v).pp = d.pp := rfl
@[simp] theorem Dev.withSc_sh (d : Dev) v : (d.withSc v).sh = d.sh := rfl
@[simp] theorem Dev.withSc_cv (d : Dev) v : (d.withSc v).cv = d.cv := rfl
@[simp] theorem Dev.withSc_ps (d : Dev) v : (d.withSc v).ps = d.ps := rfl
@[simp] theorem Dev.withSc_be (d : Dev) v : (d.withSc v).be = d.be := rfl
@[simp] theorem Dev.withSc_tm (d : Dev) v : (d.withSc v).tm = d.tm := rfl
@[simp] theorem Dev.withSc_ch (d : Dev) v : (d.withSc v).ch = d.ch := rfl
@[simp] theorem Dev.withSc_dr (d : Dev) v : (d.withSc v).dr = d.dr := rfl
@[simp] theorem Dev.withSc_sc (d : Dev) v : (d.withSc v).sc = v := rfl
@[simp] theorem Dev.withSc_mb (d : Dev) v : (d.withSc v).mb = d.mb := rfl
@[simp] theorem Dev.withSc_hi (d : Dev) v : (d.withSc v).hi = d.hi := rfl
@[simp] theorem Dev.withSc_cn (d : Dev) v : (d.withSc v).cn = d.cn := rfl
@[simp] theorem Dev.withSc_sec (d : Dev) v : (d.withSc v).sec = d.sec := rfl
@[simp] theorem Dev.withSc_flt (d : Dev) v : (d.withSc v).flt = d.flt := rfl
@[simp] theorem Dev.withSc_pw (d : Dev) v : (d.withSc v).pw = d.pw := rfl
@[simp] theorem Dev.withMb_time (d : Dev) v : (d.withMb v).time = d.time := rfl
@[simp] theorem Dev.withMb_clockOn (d : Dev) v : (d.withMb v).clockOn = d.clockOn := rfl
@[simp] theorem Dev.withMb_regs (d : Dev) v : (d.withMb v).regs = d.regs := rfl
@[simp] theorem Dev.withMb_fresh (d : Dev) v : (d.withMb v).fresh = d.fresh := rfl
@[simp] theorem Dev.withMb_sys (d : Dev) v : (d.withMb v).sys = d.sys := rfl
@[simp] theorem Dev.withMb_tb (d : Dev) v : (d.withMb v).tb = d.tb := rfl
@[simp] theorem Dev.withMb_pp (d : Dev) v : (d.withMb v).pp = d.pp := rfl
@[simp] theorem Dev.withMb_sh (d : Dev) v : (d.withMb v).sh = d.sh := rfl
@[simp] theorem Dev.withMb_cv (d : Dev) v : (d.withMb v).cv = d.cv := rfl
@[simp] theorem Dev.withMb_ps (d : Dev) v : (d.withMb v).ps = d.ps := rfl
@[simp] theorem Dev.withMb_be (d : Dev) v : (d.withMb v).be = d.be := rfl
@[simp] theorem Dev.withMb_tm (d : Dev) v : (d.withMb v).tm = d.tm := rfl
@[simp] theorem Dev.withMb_ch (d : Dev) v : (d.withMb v).ch = d.ch := rfl
@[simp] theorem Dev.withMb_dr (d : Dev) v : (d.withMb v).dr = d.dr := rfl
@[simp] theorem Dev.withMb_sc (d : Dev) v : (d.withMb v).sc = d.sc := rfl
@[simp] theorem Dev.withMb_mb (d : Dev) v : (d.withMb v).mb = v := rfl
@[simp] theorem Dev.withMb_hi (d : Dev) v : (d.withMb v).hi = d.hi := rfl
@[simp] theorem Dev.withMb_cn (d : Dev) v : (d.withMb v).cn = d.cn := rfl
@[simp] theorem Dev.withMb_sec (d : Dev) v : (d.withMb v).sec = d.sec := rfl
@[simp] theorem Dev.withMb_flt (d : Dev) v : (d.withMb v).flt = d.flt := rfl
@[simp] theorem Dev.withMb_pw (d : Dev) v : (d.withMb v).pw = d.pw := rfl
@[simp] theorem Dev.withHi_time (d : Dev) v : (d.withHi v).time = d.time := rfl
@[simp] theorem Dev.withHi_clockOn (d : Dev) v : (d.withHi v).clockOn = d.clockOn := rfl
@[simp] theorem Dev.withHi_regs (d : Dev) v : (d.withHi v).regs = d.regs := rfl
@[simp] theorem Dev.withHi_fresh (d : Dev) v : (d.withHi v).fresh = d.fresh := rfl
@[simp] theorem Dev.withHi_sys (d : Dev) v : (d.withHi v).sys = d.sys := rfl
@[simp] theorem Dev.withHi_tb (d : Dev) v : (d.withHi v).tb = d.tb := rfl
@[simp] theorem Dev.withHi_pp (d : Dev) v : (d.withHi v).pp = d.pp := rfl
@[simp] theorem Dev.withHi_sh (d : Dev) v : (d.withHi v).sh = d.sh := rfl
@[simp] theorem Dev.withHi_cv (d : Dev) v : (d.withHi v).cv = d.cv := rfl
@[simp] theorem Dev.withHi_ps (d : Dev) v : (d.withHi v).ps = d.ps := rfl
@[simp] theorem Dev.withHi_be (d : Dev) v : (d.withHi v).be = d.be := rfl
@[simp] theorem Dev.withHi_tm (d : Dev) v : (d.withHi v).tm = d.tm := rfl
@[simp] theorem Dev.withHi_ch (d : Dev) v : (d.withHi v).ch = d.ch := rfl
@[simp] theorem Dev.withHi_dr (d : Dev) v : (d.withHi v).dr = d.dr := rfl
@[simp] theorem Dev.withHi_sc (d : Dev) v : (d.withHi v).sc = d.sc := rfl
@[simp] theorem Dev.withHi_mb (d : Dev) v : (d.withHi v).mb = d.mb := rfl
@[simp] theorem Dev.withHi_hi (d : Dev) v : (d.withHi v).hi = v := rfl
@[simp] theorem Dev.withHi_cn (d : Dev) v : (d.withHi v).cn = d.cn := rfl
@[simp] theorem Dev.withHi_sec (d : Dev) v : (d.withHi v).sec = d.sec := rfl
@[simp] theorem Dev.withHi_flt (d : Dev) v : (d.withHi v).flt = d.flt := rfl
@[simp] theorem Dev.withHi_pw (d : Dev) v : (d.withHi v).pw = d.pw := rfl
@[simp] theorem Dev.withCn_time (d : Dev) v : (d.withCn v).time = d.time := rfl
@[simp] theorem Dev.withCn_clockOn (d : Dev) v : (d.withCn v).clockOn = d.clockOn := rfl
@[simp] theorem Dev.withCn_regs (d : Dev) v : (d.withCn v).regs = d.regs := rfl
@[simp] theorem Dev.withCn_fresh (d : Dev) v : (d.withCn v).fresh = d.fresh := rfl
@[simp] theorem Dev.withCn_sys (d : Dev) v : (d.withCn v).sys = d.sys := rfl
@[simp] theorem Dev.withCn_tb (d : Dev) v : (d.withCn v).tb = d.tb := rfl
@[simp] theorem Dev.withCn_pp (d : Dev) v : (d.withCn v).pp = d.pp := rfl
@[simp] theorem Dev.withCn_sh (d : Dev) v : (d.withCn v).sh = d.sh := rfl
@[simp] theorem Dev.withCn_cv (d : Dev) v : (d.withCn v).cv = d.cv := rfl
@[simp] theorem Dev.withCn_ps (d : Dev) v : (d.withCn v).ps = d.ps := rfl
@[simp] theorem Dev.withCn_be (d : Dev) v : (d.withCn v).be = d.be := rfl
@[simp] theorem Dev.withCn_tm (d : Dev) v : (d.withCn v).tm = d.tm := rfl
@[simp] theorem Dev.withCn_ch (d : Dev) v : (d.withCn v).ch = d.ch := rfl
@[simp] theorem Dev.withCn_dr (d : Dev) v : (d.withCn v).dr = d.dr := rfl
@[simp] theorem Dev.withCn_sc (d : Dev) v : (d.withCn v).sc = d.sc := rfl
@[simp] theorem Dev.withCn_mb (d : Dev) v : (d.withCn v).mb = d.mb := rfl
@[simp] theorem Dev.withCn_hi (d : Dev) v : (d.withCn v).hi = d.hi := rfl
@[simp] theorem Dev.withCn_cn (d : Dev) v : (d.withCn v).cn = v := rfl
@[simp] theorem Dev.withCn_sec (d : Dev) v : (d.withCn v).sec = d.sec := rfl
@[simp] theorem Dev.withCn_flt (d : Dev) v : (d.withCn v).flt = d.flt := rfl
@[simp] theorem Dev.withCn_pw (d : Dev) v : (d.withCn v).pw = d.pw := rfl
@[simp] theorem Dev.withSec_time (d : Dev) v : (d.withSec v).time = d.time := rfl
@[simp] theorem Dev.withSec_clockOn (d : Dev) v : (d.withSec v).clockOn = d.clockOn := rfl
@[simp] theorem Dev.withSec_regs (d : Dev) v : (d.withSec v).regs = d.regs := rfl
@[simp] theorem Dev.withSec_fresh (d : Dev) v : (d.withSec v).fresh = d.fresh := rfl
@[simp] theorem Dev.withSec_sys (d : Dev) v : (d.withSec v).sys = d.sys := rfl
@[simp] theorem Dev.withSec_tb (d : Dev) v : (d.withSec v).tb = d.tb := rfl
@[simp] theorem Dev.withSec_pp (d : Dev) v : (d.withSec v).pp = d.pp := rfl
@[simp] theorem Dev.withSec_sh (d : Dev) v : (d.withSec v).sh = d.sh := rfl
@[simp] theorem Dev.withSec_cv (d : Dev) v : (d.withSec v).cv = d.cv := rfl
@[simp] theorem Dev.withSec_ps (d : Dev) v : (d.withSec v).ps = d.ps := rfl
@[simp] theorem Dev.withSec_be (d : Dev) v : (d.withSec v).be = d.be := rfl
@[simp] theorem Dev.withSec_tm (d : Dev) v : (d.withSec v).tm = d.tm := rfl
@[simp] theorem Dev.withSec_ch (d : Dev) v : (d.withSec v).ch = d.ch := rfl
@[simp] theorem Dev.withSec_dr (d : Dev) v : (d.withSec v).dr = d.dr := rfl
@[simp] theorem Dev.withSec_sc (d : Dev) v : (d.withSec v).sc = d.sc := rfl
@[simp] theorem Dev.withSec_mb (d : Dev) v : (d.withSec v).mb = d.mb := rfl
@[simp] theorem Dev.withSec_hi (d : Dev) v : (d.withSec v).hi = d.hi := rfl
@[simp] theorem Dev.withSec_cn (d : Dev) v : (d.withSec v).cn = d.cn := rfl
@[simp] theorem Dev.withSec_sec (d : Dev) v : (d.withSec v).sec = v := rfl
@[simp] theorem Dev.withSec_flt (d : Dev) v : (d.withSec v).flt = d.flt := rfl
@[simp] theorem Dev.withSec_pw (d : Dev) v : (d.withSec v).pw = d.pw := rfl
@[simp] theorem Dev.withFlt_time (d : Dev) v : (d.withFlt v).time = d.time := rfl
@[simp] theorem Dev.withFlt_clockOn (d : Dev) v : (d.withFlt v).clockOn = d.clockOn := rfl
@[simp] theorem Dev.withFlt_regs (d : Dev) v : (d.withFlt v).regs = d.regs := rfl
@[simp] theorem Dev.withFlt_fresh (d : Dev) v : (d.withFlt v).fresh = d.fresh := rfl
@[simp] theorem Dev.withFlt_sys (d : Dev) v : (d.withFlt v).sys = d.sys := rfl
@[simp] theorem Dev.withFlt_tb (d : Dev) v : (d.withFlt v).tb = d.tb := rfl
@[simp] theorem Dev.withFlt_pp (d : Dev) v : (d.withFlt v).pp = d.pp := rfl
@[simp] theorem Dev.withFlt_sh (d : Dev) v : (d.withFlt v).sh = d.sh := rfl
@[simp] theorem Dev.withFlt_cv (d : Dev) v : (d.withFlt v).cv = d.cv := rfl
@[simp] theorem Dev.withFlt_ps (d : Dev) v : (d.withFlt v).ps = d.ps := rfl
@[simp] theorem Dev.withFlt_be (d : Dev) v : (d.withFlt v).be = d.be := rfl
@[simp] theorem Dev.withFlt_tm (d : Dev) v : (d.withFlt v).tm = d.tm := rfl
@[simp] theorem Dev.withFlt_ch (d : Dev) v : (d.withFlt v).ch = d.ch := rfl
@[simp] theorem Dev.withFlt_dr (d : Dev) v : (d.withFlt v).dr = d.dr := rfl
@[simp] theorem Dev.withFlt_sc (d : Dev) v : (d.withFlt v).sc = d.sc := rfl
@[simp] theorem Dev.withFlt_mb (d : Dev) v : (d.withFlt v).mb = d.mb := rfl
@[simp] theorem Dev.withFlt_hi (d : Dev) v : (d.withFlt v).hi = d.hi := rfl
@[simp] theorem Dev.withFlt_cn (d : Dev) v : (d.withFlt v).cn = d.cn := rfl
@[simp] theorem Dev.withFlt_sec (d : Dev) v : (d.withFlt v).sec = d.sec := rfl
@[simp] theorem Dev.withFlt_flt (d : Dev) v : (d.withFlt v).flt = v := rfl
@[simp] theorem Dev.withFlt_pw (d : Dev) v : (d.withFlt v).pw = d.pw := rfl
@[simp] theorem Dev.withPw_time (d : Dev) v : (d.withPw v).time = d.time := rfl
@[simp] theorem Dev.withPw_clockOn (d : Dev) v : (d.withPw v).clockOn = d.clockOn := rfl
@[simp] theorem Dev.withPw_regs (d : Dev) v : (d.withPw v).regs = d.regs := rfl
@[simp] theorem Dev.withPw_fresh (d : Dev) v : (d.withPw v).fresh = d.fresh := rfl
@[simp] theorem Dev.withPw_sys (d : Dev) v : (d.withPw v).sys = d.sys := rfl
@[simp] theorem Dev.withPw_tb (d : Dev) v : (d.withPw v).tb = d.tb := rfl
@[simp] theorem Dev.withPw_pp (d : Dev) v : (d.withPw v).pp = d.pp := rfl
@[simp] theorem Dev.withPw_sh (d : Dev) v : (d.withPw v).sh = d.sh := rfl
@[simp] theorem Dev.withPw_cv (d : Dev) v : (d.withPw v).cv = d.cv := rfl
@[simp] theorem Dev.withPw_ps (d : Dev) v : (d.withPw v).ps = d.ps := rfl
@[simp] theorem Dev.withPw_be (d : Dev) v : (d.withPw v).be = d.be := rfl
@[simp] theorem Dev.withPw_tm (d : Dev) v : (d.withPw v).tm = d.tm := rfl
@[simp] theorem Dev.withPw_ch (d : Dev) v : (d.withPw v).ch = d.ch := rfl
@[simp] theorem Dev.withPw_dr (d : Dev) v : (d.withPw v).dr = d.dr := rfl
@[simp] theorem Dev.withPw_sc (d : Dev) v : (d.withPw v).sc = d.sc := rfl
@[simp] theorem Dev.withPw_mb (d : Dev) v : (d.withPw v).mb = d.mb := rfl
@[simp] theorem Dev.withPw_hi (d : Dev) v : (d.withPw v).hi = d.hi := rfl
@[simp] theorem Dev.withPw_cn (d : Dev) v : (d.withPw v).cn = d.cn := rfl
@[simp] theorem Dev.withPw_sec (d : Dev) v : (d.withPw v).sec = d.sec := rfl
@[simp] theorem Dev.withPw_flt (d : Dev) v : (d.withPw v).flt = d.flt := rfl
@[simp] theorem Dev.withPw_pw (d : Dev) v : (d.withPw v).pw = v := rfl

end Sys2Proof.Machine
end

