-- ==== Sys2Proof/Laws/Table.lean ====
section
/-! SUPPORT. The laws of the sparse tables: a read after a write, and that a write keeps the canonical form. -/

namespace Sys2Proof.Machine

variable {α : Type}

theorem Tbl.get_erase (d : Nat → α) (t : Tbl α) (k j : Nat) :
    Tbl.get d (Tbl.erase t k) j = if j = k then d k else Tbl.get d t j := by
  induction t with
  | nil => by_cases h : j = k <;> simp [Tbl.get, Tbl.erase, h]
  | cons e r ih =>
    obtain ⟨i, v⟩ := e
    by_cases hi : i = k
    · by_cases hj : j = k <;> simp_all [Tbl.get, Tbl.erase]
    · by_cases hj : j = k
      · subst hj
        have : ¬ j = i := fun h => hi h.symm
        simp_all [Tbl.get, Tbl.erase]
      · simp_all [Tbl.get, Tbl.erase]

theorem Tbl.get_insert_self (d : Nat → α) (t : Tbl α) (k : Nat) (v : α) (h : ∀ e ∈ t, e.1 ≠ k) :
    Tbl.get d (Tbl.insert t k v) k = v := by
  induction t with
  | nil => simp [Tbl.get, Tbl.insert]
  | cons e r ih =>
    obtain ⟨i, w⟩ := e
    have hi : ¬ k = i := fun hk => h (i, w) (by simp) hk.symm
    by_cases hk : k < i
    · simp [Tbl.insert, hk, Tbl.get]
    · simp only [Tbl.insert, hk, if_false, Tbl.get, hi]
      exact ih (fun e he => h e (by simp [he]))

theorem Tbl.get_insert_other (d : Nat → α) (t : Tbl α) (k j : Nat) (v : α) (hj : j ≠ k) :
    Tbl.get d (Tbl.insert t k v) j = Tbl.get d t j := by
  induction t with
  | nil => simp [Tbl.get, Tbl.insert, hj]
  | cons e r ih =>
    obtain ⟨i, w⟩ := e
    by_cases hk : k < i
    · simp [Tbl.insert, hk, Tbl.get, hj]
    · simp only [Tbl.insert, hk, if_false, Tbl.get, ih]

theorem Tbl.mem_erase {t : Tbl α} {k : Nat} {e : Nat × α} (h : e ∈ Tbl.erase t k) : e ∈ t ∧ e.1 ≠ k := by
  induction t with
  | nil => simp [Tbl.erase] at h
  | cons a r ih =>
    obtain ⟨i, v⟩ := a
    by_cases hi : i = k
    · simp only [Tbl.erase, hi, if_true] at h
      exact ⟨List.mem_cons_of_mem _ (ih h).1, (ih h).2⟩
    · simp only [Tbl.erase, hi, if_false, List.mem_cons] at h
      rcases h with rfl | h
      · exact ⟨List.mem_cons_self .., hi⟩
      · exact ⟨List.mem_cons_of_mem _ (ih h).1, (ih h).2⟩

theorem Tbl.mem_insert {t : Tbl α} {k : Nat} {v : α} {e : Nat × α} (h : e ∈ Tbl.insert t k v) :
    e = (k, v) ∨ e ∈ t := by
  induction t with
  | nil => simpa [Tbl.insert] using h
  | cons a r ih =>
    obtain ⟨i, w⟩ := a
    by_cases hk : k < i
    · simpa [Tbl.insert, hk] using h
    · simp only [Tbl.insert, hk, if_false, List.mem_cons] at h ⊢
      rcases h with h | h
      · exact .inr (.inl h)
      · exact (ih h).imp id .inr

/-- A read after a write. -/
@[simp] theorem Tbl.get_set [DecidableEq α] (d : Nat → α) (t : Tbl α) (k j : Nat) (v : α) :
    Tbl.get d (Tbl.set d t k v) j = if j = k then v else Tbl.get d t j := by
  unfold Tbl.set
  by_cases hv : v = d k
  · simp [hv, Tbl.get_erase]
  · simp only [hv, if_false]
    by_cases hj : j = k
    · subst hj
      simp [Tbl.get_insert_self d _ j v (fun e he => (Tbl.mem_erase he).2)]
    · simp [Tbl.get_insert_other d _ k j v hj, Tbl.get_erase, hj]

theorem Tbl.wf_erase {d : Nat → α} {t : Tbl α} (h : Tbl.Wf d t) (k : Nat) : Tbl.Wf d (Tbl.erase t k) := by
  refine ⟨?_, fun e he => h.2 e (Tbl.mem_erase he).1⟩
  have hp := h.1
  clear h
  induction t with
  | nil => simp [Tbl.erase]
  | cons a r ih =>
    obtain ⟨i, v⟩ := a
    rw [List.pairwise_cons] at hp
    by_cases hi : i = k
    · simpa [Tbl.erase, hi] using ih hp.2
    · simp only [Tbl.erase, hi, if_false, List.pairwise_cons]
      exact ⟨fun e he => hp.1 e (Tbl.mem_erase he).1, ih hp.2⟩

theorem Tbl.wf_insert {d : Nat → α} {t : Tbl α} (h : Tbl.Wf d t) {k : Nat} {v : α} (hk : ∀ e ∈ t, e.1 ≠ k)
    (hv : v ≠ d k) : Tbl.Wf d (Tbl.insert t k v) := by
  refine ⟨?_, ?_⟩
  · have hp := h.1
    clear h
    induction t with
    | nil => simp [Tbl.insert]
    | cons a r ih =>
      obtain ⟨i, w⟩ := a
      rw [List.pairwise_cons] at hp
      by_cases hki : k < i
      · simp only [Tbl.insert, hki, if_true, List.pairwise_cons, List.mem_cons]
        refine ⟨?_, hp.1, hp.2⟩
        rintro e (rfl | he)
        · exact hki
        · exact lt_trans hki (hp.1 e he)
      · simp only [Tbl.insert, hki, if_false, List.pairwise_cons]
        refine ⟨?_, ih (fun e he => hk e (by simp [he])) hp.2⟩
        intro e he
        rcases Tbl.mem_insert he with rfl | he
        · have := hk (i, w) (by simp)
          simp only at this ⊢
          omega
        · exact hp.1 e he
  · intro e he
    rcases Tbl.mem_insert he with rfl | he
    · exact hv
    · exact h.2 e he

/-- Every write keeps the canonical form. -/
theorem Tbl.wf_set [DecidableEq α] {d : Nat → α} {t : Tbl α} (h : Tbl.Wf d t) (k : Nat) (v : α) :
    Tbl.Wf d (Tbl.set d t k v) := by
  unfold Tbl.set
  split
  · exact Tbl.wf_erase h k
  · exact Tbl.wf_insert (Tbl.wf_erase h k) (fun e he => (Tbl.mem_erase he).2) ‹_›

end Sys2Proof.Machine
end

