-- ==== Sys2Proof/Laws/Foot.lean ====
section
/-! SUPPORT. Footprints: when one covers another, and what a field's write touches. -/

namespace Sys2Proof.Machine

/-- Is every entry of the first list in the second? Both are in the order of the fields' declarations, so one pass does. -/
def subList {α : Type} [DecidableEq α] : List α → List α → Bool
  | [], _ => true
  | _ :: _, [] => false
  | a :: as, b :: bs => if a = b then subList as bs else subList (a :: as) bs

theorem subList_mem {α : Type} [DecidableEq α] {l m : List α} (h : subList l m = true) {x : α} (hx : x ∈ l) : x ∈ m := by
  induction m generalizing l with
  | nil =>
    cases l with
    | nil => exact hx
    | cons a as => exact absurd h (by simp [subList])
  | cons b bs ih =>
    cases l with
    | nil => exact absurd hx (by simp)
    | cons a as =>
      unfold subList at h
      split at h
      · rename_i e
        rcases List.mem_cons.mp hx with rfl | hx
        · exact e ▸ List.mem_cons_self
        · exact List.mem_cons_of_mem _ (ih h hx)
      · exact List.mem_cons_of_mem _ (ih h hx)

/-- Does footprint b cover footprint a? -/
def Foot.le (a b : Foot) : Bool := (b.any || (!a.any && subList a.fields b.fields)) && subList a.parts b.parts

variable {a b w : Foot} {d0 d1 d : Dev}

theorem Part.kept_refl (p : Part) (d : Dev) : p.kept d d := by cases p <;> rfl

theorem Part.kept_trans (p : Part) (h : p.kept d0 d1) (k : p.kept d1 d) : p.kept d0 d := by
  cases p <;> exact Eq.trans k h

theorem Foot.Frame.refl (w : Foot) (d : Dev) : w.Frame d d := ⟨fun _ _ _ _ => rfl, fun p _ => p.kept_refl d⟩

theorem Foot.Frame.trans (h : w.Frame d0 d1) (k : w.Frame d1 d) : w.Frame d0 d :=
  ⟨fun n o i x => (k.bits n o i x).trans (h.bits n o i x), fun p x => p.kept_trans (h.parts p x) (k.parts p x)⟩

/-- A larger footprint says less. -/
theorem Foot.Frame.mono (h : a.Frame d0 d) (l : a.le b = true) : b.Frame d0 d := by
  simp only [Foot.le, Bool.and_eq_true, Bool.or_eq_true, Bool.not_eq_true'] at l
  refine ⟨fun n o i x => ?_, fun p x => h.parts p fun m => x (subList_mem l.2 m)⟩
  rcases l.1 with e | ⟨e, s⟩
  · rw [n] at e; cases e
  · exact h.bits e o i fun f m => x f (subList_mem s m)

/-- The form of a field that a write relies on: inside its word, and above the registers of chapter 01's first page. -/
def Fd.ok (f : Fd) : Bool := Nat.ble (f.lo + f.width) 32 && Nat.blt 0x10 f.base

theorem Fd.ok_bits {f : Fd} (h : f.ok = true) : f.lo + f.width ≤ 32 := by
  simp only [Fd.ok, Bool.and_eq_true, Nat.ble_eq] at h; exact h.1

theorem Fd.ok_base {f : Fd} (h : f.ok = true) : 0x10 < f.base := by
  simp only [Fd.ok, Bool.and_eq_true, Nat.blt_eq] at h; exact h.2

theorem Dev.word_setWord (d : Dev) (off : Nat) (v : Word) (o : Nat) :
    (d.setWord off v).word o = if o = off then v else d.word o := by
  simp [Dev.word, Dev.setWord, Tbl.get_set]

/-- A write of a field touches no other bit. -/
theorem Dev.wr2_frame (d : Dev) (f : Fd) (i j v : Nat) (h : f.lo + f.width ≤ 32) : (⟨false, [f], []⟩ : Foot).Frame d (d.wr2 f i j v) := by
  refine ⟨fun _ o k x => ?_, fun p _ => by cases p <;> rfl⟩
  rw [Dev.wr2, Dev.word_setWord]
  split
  · rename_i e
    subst e
    rw [getLsbD_putBits _ _ _ _ _ h, if_neg]
    exact fun y => x f (by simp) ⟨⟨i, j, rfl⟩, y⟩
  · rfl

end Sys2Proof.Machine
end

