-- ==== Sys2Proof/Laws/Fields.lean ====
section
/-! SUPPORT. Register fields: a field reads what was written into it, and a field apart from those that an effect touches reads as
before. -/

namespace Sys2Proof.Machine

/-- Do two fields share no bit, in any of their instances? They are bits of one register that do not overlap, or their registers
lie apart: one above the other, or in different places of the same grid. -/
def Fd.apart (f g : Fd) : Bool :=
  (f.base == g.base && f.n1 == g.n1 && f.s1 == g.s1 && f.n2 == g.n2 && f.s2 == g.s2 &&
    (Nat.ble (f.lo + f.width) g.lo || Nat.ble (g.lo + g.width) f.lo)) ||
  (Nat.blt 0 f.n1 && Nat.blt 0 f.n2 && Nat.blt (f.base + f.s1 * (f.n1 - 1) + f.s2 * (f.n2 - 1)) g.base) ||
  (Nat.blt 0 g.n1 && Nat.blt 0 g.n2 && Nat.blt (g.base + g.s1 * (g.n1 - 1) + g.s2 * (g.n2 - 1)) f.base) ||
  (let m := Nat.gcd (Nat.gcd f.s1 f.s2) (Nat.gcd g.s1 g.s2)
   f.base % m != g.base % m)

/-- Is a field apart from everything in a footprint? -/
def Foot.avoids (w : Foot) (f : Fd) : Bool := !w.any && w.fields.all f.apart

theorem Fd.off_le (f : Fd) (i j : Nat) (h1 : 0 < f.n1) (h2 : 0 < f.n2) :
    f.off i j ≤ f.base + f.s1 * (f.n1 - 1) + f.s2 * (f.n2 - 1) := by
  have a : i % f.n1 ≤ f.n1 - 1 := Nat.le_sub_one_of_lt (Nat.mod_lt _ h1)
  have b : j % f.n2 ≤ f.n2 - 1 := Nat.le_sub_one_of_lt (Nat.mod_lt _ h2)
  exact Nat.add_le_add (Nat.add_le_add_left (Nat.mul_le_mul_left _ a) _) (Nat.mul_le_mul_left _ b)

theorem Fd.base_le (f : Fd) (i j : Nat) : f.base ≤ f.off i j := by unfold Fd.off; omega

theorem Fd.off_mod (f : Fd) (i j m : Nat) (h1 : m ∣ f.s1) (h2 : m ∣ f.s2) : f.off i j % m = f.base % m := by
  obtain ⟨a, ha⟩ := h1
  obtain ⟨b, hb⟩ := h2
  have e : f.off i j = f.base + m * (a * (i % f.n1) + b * (j % f.n2)) := by
    unfold Fd.off
    rw [ha, hb]
    ring
  rw [e, Nat.add_mul_mod_self_left]

/-- Fields that are apart hold no bit in common. -/
theorem Fd.apart_holds {f g : Fd} (h : f.apart g = true) (i j k : Nat) (hl : f.lo ≤ k) (hu : k < f.lo + f.width) :
    ¬ g.holds (f.off i j) k := by
  rintro ⟨⟨i', j', e⟩, gl, gu⟩
  simp only [Fd.apart, Bool.or_eq_true, Bool.and_eq_true, beq_iff_eq, bne_iff_ne, Nat.ble_eq, Nat.blt_eq] at h
  rcases h with ((⟨-, h⟩ | ⟨⟨h1, h2⟩, h⟩) | ⟨⟨h1, h2⟩, h⟩) | h
  · rcases h with h | h <;> omega
  · have := f.off_le i j h1 h2
    have := g.base_le i' j'
    omega
  · have := g.off_le i' j' h1 h2
    have := f.base_le i j
    omega
  · apply h
    have a := f.off_mod i j (Nat.gcd (Nat.gcd f.s1 f.s2) (Nat.gcd g.s1 g.s2))
      ((Nat.gcd_dvd_left _ _).trans (Nat.gcd_dvd_left _ _)) ((Nat.gcd_dvd_left _ _).trans (Nat.gcd_dvd_right _ _))
    have b := g.off_mod i' j' (Nat.gcd (Nat.gcd f.s1 f.s2) (Nat.gcd g.s1 g.s2))
      ((Nat.gcd_dvd_right _ _).trans (Nat.gcd_dvd_left _ _)) ((Nat.gcd_dvd_right _ _).trans (Nat.gcd_dvd_right _ _))
    rw [← a, ← b, e]

variable {w : Foot} {d0 d : Dev}

/-- A field apart from the footprint reads as before. -/
theorem Foot.Frame.rd2 (h : w.Frame d0 d) (f : Fd) (i j : Nat) (hf : w.avoids f = true) : d.rd2 f i j = d0.rd2 f i j := by
  simp only [Foot.avoids, Bool.and_eq_true, Bool.not_eq_true', List.all_eq_true] at hf
  unfold Dev.rd2 getBits
  congr 1
  apply BitVec.eq_of_getLsbD_eq
  intro k hk
  rw [BitVec.getLsbD_extractLsb', BitVec.getLsbD_extractLsb',
    h.bits hf.1 _ _ fun g hg => Fd.apart_holds (hf.2 g hg) i j _ (Nat.le_add_right ..) (Nat.add_lt_add_left hk _)]

theorem Foot.Frame.rd (h : w.Frame d0 d) (f : Fd) (i : Nat) (hf : w.avoids f = true) : d.rd f i = d0.rd f i := h.rd2 f i 0 hf

theorem Foot.Frame.flag (h : w.Frame d0 d) (f : Fd) (i : Nat) (hf : w.avoids f = true) : d.flag f i = d0.flag f i := by
  rw [Dev.flag, Dev.flag, h.rd f i hf]

/-- A field reads what was written into it, cut to its width. -/
theorem Dev.rd2_wr2 (d : Dev) (f : Fd) (i j v : Nat) (h : f.lo + f.width ≤ 32) : (d.wr2 f i j v).rd2 f i j = v % 2 ^ f.width := by
  rw [Dev.rd2, Dev.wr2, Dev.word_setWord, if_pos rfl, getBits_putBits _ _ _ _ h]

theorem Dev.rd_wr (d : Dev) (f : Fd) (i v : Nat) (h : f.lo + f.width ≤ 32) : (d.wr f i v).rd f i = v % 2 ^ f.width :=
  d.rd2_wr2 f i 0 v h

theorem Dev.flag_put (d : Dev) (f : Fd) (i : Nat) (b : Bool) (h : f.lo + f.width ≤ 32) (hw : f.width = 1) : (d.put f i b).flag f i = b := by
  rw [Dev.flag, Dev.put, Dev.rd_wr _ _ _ _ h, hw]
  cases b <;> rfl

/-- A write of a field leaves the fields apart from it. -/
theorem Dev.rd_wr_apart (d : Dev) (f g : Fd) (i k v : Nat) (h : g.lo + g.width ≤ 32) (ha : f.apart g = true) :
    (d.wr g k v).rd f i = d.rd f i :=
  (Dev.wr2_frame d g k 0 v h).rd f i (by simp [Foot.avoids, ha])

/-- A command's instant changes no register. -/
@[simp] theorem Dev.word_arrive (d : Dev) (t o : Nat) : (d.arrive t).word o = d.word o := by
  unfold Dev.arrive
  split <;> rfl

@[simp] theorem Dev.rd2_arrive (d : Dev) (t : Nat) (f : Fd) (i j : Nat) : (d.arrive t).rd2 f i j = d.rd2 f i j := by
  rw [Dev.rd2, Dev.rd2, Dev.word_arrive]

@[simp] theorem Dev.rd_arrive (d : Dev) (t : Nat) (f : Fd) (i : Nat) : (d.arrive t).rd f i = d.rd f i := Dev.rd2_arrive ..

@[simp] theorem Dev.flag_arrive (d : Dev) (t : Nat) (f : Fd) (i : Nat) : (d.arrive t).flag f i = d.flag f i := by
  rw [Dev.flag, Dev.flag, Dev.rd_arrive]

end Sys2Proof.Machine
end

