-- ==== Sys2Proof/Laws/Keeps.lean ====
section
/-! SUPPORT. What every effect keeps, but for the few that set device time or leave the device's state: one relation, and its
lemmas for the operations that all chapters share. -/

namespace Sys2Proof.Machine

set_option Elab.async false

/-- From d0 to d: bank memory, registers and intake keep their form, no counter falls, no enrolled key changes; device time is the
same; and nothing outside the footprint w changes. -/
structure Most (w : Foot) (d0 d : Dev) : Prop extends w.Frame d0 d where
  mem : Memory.wf d0.mb.mem → Memory.wf d.mb.mem
  regs : Tbl.Wf resetWord d0.regs → Tbl.Wf resetWord d.regs
  intake : d0.flt.intake.length ≤ 64 → d.flt.intake.length ≤ 64
  counters : ∀ c, Tbl.get (fun _ => 0) d0.sec.counters c ≤ Tbl.get (fun _ => 0) d.sec.counters c
  enrolled : ∀ k v, Tbl.get (fun _ => none) d0.sec.enrolled k = some v → Tbl.get (fun _ => none) d.sec.enrolled k = some v
  time : d.time = d0.time

/-- And SAFE is not left. -/
structure Keeps (w : Foot) (d0 d : Dev) : Prop extends Most w d0 d where
  safe : d0.devState = DevSt.safe → d.devState = DevSt.safe

variable {a b w : Foot} {d0 d1 d : Dev}

theorem Most.refl (w : Foot) (d : Dev) : Most w d d := ⟨.refl w d, id, id, id, fun _ => le_refl _, fun _ _ h => h, rfl⟩

theorem Most.trans (h : Most w d0 d1) (k : Most w d1 d) : Most w d0 d :=
  ⟨h.toFrame.trans k.toFrame, fun x => k.mem (h.mem x), fun x => k.regs (h.regs x), fun x => k.intake (h.intake x),
    fun c => (h.counters c).trans (k.counters c), fun i v x => k.enrolled i v (h.enrolled i v x), k.time.trans h.time⟩

/-- A larger footprint says less. -/
theorem Most.le (h : Most a d0 d) (l : a.le b = true := by decide +kernel) : Most b d0 d :=
  ⟨h.toFrame.mono l, h.mem, h.regs, h.intake, h.counters, h.enrolled, h.time⟩

theorem Keeps.refl (w : Foot) (d : Dev) : Keeps w d d := ⟨Most.refl w d, id⟩

theorem Keeps.trans (h : Keeps w d0 d1) (k : Keeps w d1 d) : Keeps w d0 d := ⟨h.toMost.trans k.toMost, fun x => k.safe (h.safe x)⟩

theorem Keeps.le (h : Keeps a d0 d) (l : a.le b = true := by decide +kernel) : Keeps b d0 d := ⟨h.toMost.le l, h.safe⟩

/-- One effect more, of a smaller footprint. -/
theorem Keeps.step (k : Keeps a d1 d) (l : a.le b = true) (h : Keeps b d0 d1) : Keeps b d0 d := h.trans (k.le l)

/-- One effect more, of the same footprint. -/
theorem Keeps.stepSame (k : Keeps b d1 d) (h : Keeps b d0 d1) : Keeps b d0 d := h.trans k

/-- What is shown of an intermediate device is at hand for the rest. -/
theorem Keeps.cut {d2 e : Dev} (h : Keeps w d0 d1) (k : Keeps w d0 d1 → Keeps w d2 e) : Keeps w d2 e := k h

theorem Keeps.ite {c : Prop} [Decidable c] {a b : Dev} (h : c → Keeps w d0 a) (k : ¬c → Keeps w d0 b) :
    Keeps w d0 (if c then a else b) := by
  by_cases x : c
  · rw [if_pos x]; exact h x
  · rw [if_neg x]; exact k x

/-- Outside SAFE there is nothing to leave. -/
theorem Most.keeps (m : Most w d0 d) (h : d0.devState ≠ DevSt.safe) : Keeps w d0 d := ⟨m, fun x => absurd x h⟩

theorem Dev.foldl_keeps {α : Type} {f : Dev → α → Dev} (h : ∀ d x, Keeps w d (f d x)) (l : List α) (d : Dev) :
    Keeps w d (l.foldl f d) := by
  induction l generalizing d with
  | nil => exact Keeps.refl w d
  | cons x r ih => exact (h d x).trans (ih (f d x))

theorem Dev.foldlPair_keeps {α β : Type} {f : Dev × β → α → Dev × β} (h : ∀ x a, Keeps w x.1 (f x a).1) (l : List α) (x : Dev × β) :
    Keeps w x.1 (l.foldl f x).1 := by
  induction l generalizing x with
  | nil => exact Keeps.refl w _
  | cons a r ih => exact (h x a).trans (ih (f x a))

theorem Dev.each_keeps (d : Dev) (l : List Nat) (f : Dev → Nat → Dev) (h : ∀ d x, Keeps w d (f d x)) : Keeps w d (d.each l f) :=
  Dev.foldl_keeps h l d

/-- An effect on one part alone. -/
theorem Keeps.ofPart (q : Part) (mem : Memory.wf d0.mb.mem → Memory.wf d.mb.mem) (hr : Tbl.Wf resetWord d0.regs → Tbl.Wf resetWord d.regs)
    (intake : d0.flt.intake.length ≤ 64 → d.flt.intake.length ≤ 64)
    (counters : ∀ c, Tbl.get (fun _ => 0) d0.sec.counters c ≤ Tbl.get (fun _ => 0) d.sec.counters c)
    (enrolled : ∀ k v, Tbl.get (fun _ => none) d0.sec.enrolled k = some v → Tbl.get (fun _ => none) d.sec.enrolled k = some v)
    (time : d.time = d0.time) (regs : d.regs = d0.regs) (parts : ∀ p, p ∉ [q] → p.kept d0 d) : Keeps ⟨false, [], [q]⟩ d0 d :=
  ⟨⟨⟨fun _ o i _ => by rw [Dev.word, Dev.word, regs], parts⟩, mem, hr, intake, counters, enrolled, time⟩,
    fun h => by simpa only [Dev.devState, Dev.rd, Dev.rd2, Dev.word, regs] using h⟩

theorem Dev.withFresh_keeps (d : Dev) v : Keeps ⟨false, [], [.fresh]⟩ d (d.withFresh v) :=
  Keeps.ofPart .fresh id id id (fun _ => le_refl _) (fun _ _ h => h) rfl rfl (by intro p h; cases p <;> first | rfl | exact absurd (List.mem_singleton.mpr rfl) h)
theorem Dev.withSys_keeps (d : Dev) v : Keeps ⟨false, [], [.sys]⟩ d (d.withSys v) :=
  Keeps.ofPart .sys id id id (fun _ => le_refl _) (fun _ _ h => h) rfl rfl (by intro p h; cases p <;> first | rfl | exact absurd (List.mem_singleton.mpr rfl) h)
theorem Dev.withTb_keeps (d : Dev) v : Keeps ⟨false, [], [.tb]⟩ d (d.withTb v) :=
  Keeps.ofPart .tb id id id (fun _ => le_refl _) (fun _ _ h => h) rfl rfl (by intro p h; cases p <;> first | rfl | exact absurd (List.mem_singleton.mpr rfl) h)
theorem Dev.withPp_keeps (d : Dev) v : Keeps ⟨false, [], [.pp]⟩ d (d.withPp v) :=
  Keeps.ofPart .pp id id id (fun _ => le_refl _) (fun _ _ h => h) rfl rfl (by intro p h; cases p <;> first | rfl | exact absurd (List.mem_singleton.mpr rfl) h)
theorem Dev.withSh_keeps (d : Dev) v : Keeps ⟨false, [], [.sh]⟩ d (d.withSh v) :=
  Keeps.ofPart .sh id id id (fun _ => le_refl _) (fun _ _ h => h) rfl rfl (by intro p h; cases p <;> first | rfl | exact absurd (List.mem_singleton.mpr rfl) h)
theorem Dev.withCv_keeps (d : Dev) v : Keeps ⟨false, [], [.cv]⟩ d (d.withCv v) :=
  Keeps.ofPart .cv id id id (fun _ => le_refl _) (fun _ _ h => h) rfl rfl (by intro p h; cases p <;> first | rfl | exact absurd (List.mem_singleton.mpr rfl) h)
theorem Dev.withPs_keeps (d : Dev) v : Keeps ⟨false, [], [.ps]⟩ d (d.withPs v) :=
  Keeps.ofPart .ps id id id (fun _ => le_refl _) (fun _ _ h => h) rfl rfl (by intro p h; cases p <;> first | rfl | exact absurd (List.mem_singleton.mpr rfl) h)
theorem Dev.withBe_keeps (d : Dev) v : Keeps ⟨false, [], [.be]⟩ d (d.withBe v) :=
  Keeps.ofPart .be id id id (fun _ => le_refl _) (fun _ _ h => h) rfl rfl (by intro p h; cases p <;> first | rfl | exact absurd (List.mem_singleton.mpr rfl) h)
theorem Dev.withTm_keeps (d : Dev) v : Keeps ⟨false, [], [.tm]⟩ d (d.withTm v) :=
  Keeps.ofPart .tm id id id (fun _ => le_refl _) (fun _ _ h => h) rfl rfl (by intro p h; cases p <;> first | rfl | exact absurd (List.mem_singleton.mpr rfl) h)
theorem Dev.withCh_keeps (d : Dev) v : Keeps ⟨false, [], [.ch]⟩ d (d.withCh v) :=
  Keeps.ofPart .ch id id id (fun _ => le_refl _) (fun _ _ h => h) rfl rfl (by intro p h; cases p <;> first | rfl | exact absurd (List.mem_singleton.mpr rfl) h)
theorem Dev.withDr_keeps (d : Dev) v : Keeps ⟨false, [], [.dr]⟩ d (d.withDr v) :=
  Keeps.ofPart .dr id id id (fun _ => le_refl _) (fun _ _ h => h) rfl rfl (by intro p h; cases p <;> first | rfl | exact absurd (List.mem_singleton.mpr rfl) h)
theorem Dev.withSc_keeps (d : Dev) v : Keeps ⟨false, [], [.sc]⟩ d (d.withSc v) :=
  Keeps.ofPart .sc id id id (fun _ => le_refl _) (fun _ _ h => h) rfl rfl (by intro p h; cases p <;> first | rfl | exact absurd (List.mem_singleton.mpr rfl) h)
theorem Dev.withHi_keeps (d : Dev) v : Keeps ⟨false, [], [.hi]⟩ d (d.withHi v) :=
  Keeps.ofPart .hi id id id (fun _ => le_refl _) (fun _ _ h => h) rfl rfl (by intro p h; cases p <;> first | rfl | exact absurd (List.mem_singleton.mpr rfl) h)
theorem Dev.withCn_keeps (d : Dev) v : Keeps ⟨false, [], [.cn]⟩ d (d.withCn v) :=
  Keeps.ofPart .cn id id id (fun _ => le_refl _) (fun _ _ h => h) rfl rfl (by intro p h; cases p <;> first | rfl | exact absurd (List.mem_singleton.mpr rfl) h)
theorem Dev.withPw_keeps (d : Dev) v : Keeps ⟨false, [], [.pw]⟩ d (d.withPw v) :=
  Keeps.ofPart .pw id id id (fun _ => le_refl _) (fun _ _ h => h) rfl rfl (by intro p h; cases p <;> first | rfl | exact absurd (List.mem_singleton.mpr rfl) h)

theorem Dev.withClockOn_keeps (d : Dev) v : Keeps ⟨false, [], [.clock]⟩ d (d.withClockOn v) :=
  Keeps.ofPart .clock id id id (fun _ => le_refl _) (fun _ _ h => h) rfl rfl (by intro p h; cases p <;> first | rfl | exact absurd (List.mem_singleton.mpr rfl) h)

theorem Dev.withMb_keeps (d : Dev) (v : Mb) (h : Memory.wf d.mb.mem → Memory.wf v.mem) : Keeps ⟨false, [], [.mb]⟩ d (d.withMb v) :=
  Keeps.ofPart .mb h id id (fun _ => le_refl _) (fun _ _ h => h) rfl rfl (by intro p h; cases p <;> first | rfl | exact absurd (List.mem_singleton.mpr rfl) h)

theorem Dev.withSec_keeps' (d : Dev) (v : Sec) (hc : ∀ c, Tbl.get (fun _ => 0) d.sec.counters c ≤ Tbl.get (fun _ => 0) v.counters c)
    (he : ∀ k w, Tbl.get (fun _ => none) d.sec.enrolled k = some w → Tbl.get (fun _ => none) v.enrolled k = some w) :
    Keeps ⟨false, [], [.sec]⟩ d (d.withSec v) :=
  Keeps.ofPart .sec id id id hc he rfl rfl (by intro p h; cases p <;> first | rfl | exact absurd (List.mem_singleton.mpr rfl) h)

theorem Dev.withSec_keeps (d : Dev) (v : Sec) (hc : v.counters = d.sec.counters) (he : v.enrolled = d.sec.enrolled) :
    Keeps ⟨false, [], [.sec]⟩ d (d.withSec v) :=
  Dev.withSec_keeps' d v (fun c => by simp [hc]) (fun k w x => by simpa [he] using x)

theorem Dev.withFlt_keeps (d : Dev) (v : Flt) (h : d.flt.intake.length ≤ 64 → v.intake.length ≤ 64) :
    Keeps ⟨false, [], [.flt]⟩ d (d.withFlt v) :=
  Keeps.ofPart .flt id id h (fun _ => le_refl _) (fun _ _ h => h) rfl rfl (by intro p h; cases p <;> first | rfl | exact absurd (List.mem_singleton.mpr rfl) h)

theorem Dev.setWord_most (d : Dev) (off : Nat) (v : Word) : Most ⟨true, [], []⟩ d (d.setWord off v) :=
  ⟨⟨fun h => (Bool.noConfusion h), fun p _ => by cases p <;> rfl⟩, id, fun x => Tbl.wf_set x off v, id, fun _ => le_refl _, fun _ _ h => h, rfl⟩

theorem Dev.wr2_most (d : Dev) (f : Fd) (i j v : Nat) (h : f.lo + f.width ≤ 32) : Most ⟨false, [f], []⟩ d (d.wr2 f i j v) :=
  ⟨Dev.wr2_frame d f i j v h, id, fun x => Tbl.wf_set x _ _, id, fun _ => le_refl _, fun _ _ h => h, rfl⟩

theorem Dev.wr_most (d : Dev) (f : Fd) (i v : Nat) (h : f.lo + f.width ≤ 32) : Most ⟨false, [f], []⟩ d (d.wr f i v) := Dev.wr2_most d f i 0 v h

/-- Storing a register word other than DEV_STATE's does not touch the device's state. -/
theorem Dev.setWord_state (d : Dev) (off : Nat) (v : Word) (h : off ≠ 0x10) : (d.setWord off v).devState = d.devState := by
  have f : F.DEV_STATE_state.off 0 0 = 0x10 := rfl
  simp only [Dev.devState, Dev.rd, Dev.rd2, f, Dev.word_setWord, if_neg (Ne.symm h)]

theorem Dev.setWord_keeps (d : Dev) (off : Nat) (v : Word) (h : off ≠ 0x10) : Keeps ⟨true, [], []⟩ d (d.setWord off v) :=
  ⟨Dev.setWord_most d off v, fun x => (Dev.setWord_state d off v h).trans x⟩

theorem Dev.wr2_keeps (d : Dev) (f : Fd) (i j v : Nat) (h : f.ok = true) : Keeps ⟨false, [f], []⟩ d (d.wr2 f i j v) :=
  ⟨Dev.wr2_most d f i j v (Fd.ok_bits h), fun x => (Dev.setWord_state d _ _ (by have := Fd.ok_base h; unfold Fd.off; omega)).trans x⟩

theorem Dev.wr_keeps (d : Dev) (f : Fd) (i v : Nat) (h : f.ok = true) : Keeps ⟨false, [f], []⟩ d (d.wr f i v) := Dev.wr2_keeps d f i 0 v h

/-- Entering SAFE. -/
theorem Dev.wr_safe_keeps (d : Dev) : Keeps ⟨false, [F.DEV_STATE_state], []⟩ d (d.wr F.DEV_STATE_state 0 DevSt.safe) := by
  refine ⟨Dev.wr_most d _ _ _ (by decide), fun _ => ?_⟩
  have f : F.DEV_STATE_state.off 0 0 = 0x10 := rfl
  simp only [Dev.devState, Dev.rd, Dev.rd2, Dev.wr, Dev.wr2, f, Dev.word_setWord, if_true]
  exact getBits_putBits _ 0 4 _ (by decide)

/-- A meaning answers a next state with the queue as it was, and its effect keeps what effects keep. -/
def Runs (w : Foot) (t : Nat) (s : State) (o : Host.Outcome State Fault Refusal) : Prop :=
  ∃ d, o = .next { s with toDev := d } ∧ Keeps w (s.toDev.arrive t) d

theorem Runs.of {t : Nat} {s : State} {f : Dev → Dev} (h : ∀ d, Keeps w d (f d)) : Runs w t s (effect t s f) := ⟨_, rfl, h _⟩

theorem uvloLive_ok (hi : Bool) : (uvloLive hi).ok = true := by cases hi <;> decide
theorem gateSensed_ok (hi : Bool) : (gateSensed hi).ok = true := by cases hi <;> decide
theorem classCount_ok (cls : Nat) : (classCount cls).ok = true := by
  unfold classCount
  (repeat' split) <;> decide

end Sys2Proof.Machine
end

