-- ==== Sys2Proof/Laws/KeepsOps.lean ====
section
/-! SUPPORT. What the effects of Ops.lean keep. -/

namespace Sys2Proof.Machine

set_option Elab.async false

--theorem Dev.wr_keeps

theorem Dev.put_keeps (d : Dev) (f : Fd) (i : Nat) (b : Bool) (h : f.ok = true) : Keeps ⟨false, [f], []⟩ d (Dev.put d f i b) := Dev.wr_keeps d f i _ h

theorem Dev.wrInt_keeps (d : Dev) (f : Fd) (i : Nat) (v : Int) (h : f.ok = true) : Keeps ⟨false, [f], []⟩ d (Dev.wrInt d f i v) := Dev.wr_keeps d f i _ h

theorem Dev.bump_keeps (d : Dev) (f : Fd) (i : Nat) (h : f.ok = true) : Keeps ⟨false, [f], []⟩ d (d.bump f i) := Dev.wr_keeps d f i _ h

theorem Dev.wr64_keeps (d : Dev) (lo hi : Fd) (i v : Nat) (h : lo.ok = true) (k : hi.ok = true) : Keeps ⟨false, [lo, hi], []⟩ d (d.wr64 lo hi i v) :=
  ((Dev.wr_keeps d lo i _ h).le (by simp [Foot.le, subList])).trans ((Dev.wr_keeps _ hi i _ k).le (by by_cases x : hi = lo <;> simp [Foot.le, subList, x]))

theorem Dev.tick_keeps (d : Dev) : Keeps ⟨false, [], [.fresh]⟩ d (Dev.tick d) := by
  unfold Dev.tick
  repeat' (first
    | with_reducible exact Keeps.refl _ _
    | decide +kernel
    | (apply Keeps.step; with_reducible apply Dev.withFresh_keeps))

theorem Dev.setStg_keeps (d : Dev) (s : Nat) (v : StageT) : Keeps ⟨false, [], [.tb]⟩ d (Dev.setStg d s v) := by
  unfold Dev.setStg
  repeat' (first
    | with_reducible exact Keeps.refl _ _
    | decide +kernel
    | (apply Keeps.step; with_reducible apply Dev.withTb_keeps))

theorem Dev.setPg_keeps (d : Dev) (p : Nat) (v : PgT) : Keeps ⟨false, [], [.tb]⟩ d (Dev.setPg d p v) := by
  unfold Dev.setPg
  repeat' (first
    | with_reducible exact Keeps.refl _ _
    | decide +kernel
    | (apply Keeps.step; with_reducible apply Dev.withTb_keeps))

theorem Dev.setFired_keeps (d : Dev) (u : Nat) (v : List Nat) : Keeps ⟨false, [], [.tb]⟩ d (Dev.setFired d u v) := by
  unfold Dev.setFired
  repeat' (first
    | with_reducible exact Keeps.refl _ _
    | decide +kernel
    | (apply Keeps.step; with_reducible apply Dev.withTb_keeps))

theorem Dev.setPort_keeps (d : Dev) (p : Nat) (v : PortT) : Keeps ⟨false, [], [.pp]⟩ d (Dev.setPort d p v) := by
  unfold Dev.setPort
  repeat' (first
    | with_reducible exact Keeps.refl _ _
    | decide +kernel
    | (apply Keeps.step; with_reducible apply Dev.withPp_keeps))

theorem Dev.setShunt_keeps (d : Dev) (s : Nat) (v : ShuntT) : Keeps ⟨false, [], [.sh]⟩ d (Dev.setShunt d s v) := by
  unfold Dev.setShunt
  repeat' (first
    | with_reducible exact Keeps.refl _ _
    | decide +kernel
    | (apply Keeps.step; with_reducible apply Dev.withSh_keeps))

theorem Dev.setConv_keeps (d : Dev) (c : Nat) (v : ConvT) : Keeps ⟨false, [], [.cv]⟩ d (Dev.setConv d c v) := by
  unfold Dev.setConv
  repeat' (first
    | with_reducible exact Keeps.refl _ _
    | decide +kernel
    | (apply Keeps.step; with_reducible apply Dev.withCv_keeps))

theorem Dev.setCmp_keeps (d : Dev) (k : Nat) (v : CmpT) : Keeps ⟨false, [], [.cv]⟩ d (Dev.setCmp d k v) := by
  unfold Dev.setCmp
  repeat' (first
    | with_reducible exact Keeps.refl _ _
    | decide +kernel
    | (apply Keeps.step; with_reducible apply Dev.withCv_keeps))

theorem Dev.setStop_keeps (d : Dev) (s : Nat) (v : StopT) : Keeps ⟨false, [], [.cv]⟩ d (Dev.setStop d s v) := by
  unfold Dev.setStop
  repeat' (first
    | with_reducible exact Keeps.refl _ _
    | decide +kernel
    | (apply Keeps.step; with_reducible apply Dev.withCv_keeps))

theorem Dev.setLt_keeps (d : Dev) (off : Nat) (v : Word) : Keeps ⟨false, [], [.be]⟩ d (Dev.setLt d off v) := by
  unfold Dev.setLt
  repeat' (first
    | with_reducible exact Keeps.refl _ _
    | decide +kernel
    | (apply Keeps.step; with_reducible apply Dev.withBe_keeps))

theorem Dev.setRecs_keeps (d : Dev) (s : Nat) (v : StageRec) : Keeps ⟨false, [], [.be]⟩ d (Dev.setRecs d s v) := by
  unfold Dev.setRecs
  repeat' (first
    | with_reducible exact Keeps.refl _ _
    | decide +kernel
    | (apply Keeps.step; with_reducible apply Dev.withBe_keeps))

theorem Dev.setLatRec_keeps (d : Dev) (i s : Nat) (v : LatRec) : Keeps ⟨false, [], [.be]⟩ d (Dev.setLatRec d i s v) := by
  unfold Dev.setLatRec
  repeat' (first
    | with_reducible exact Keeps.refl _ _
    | decide +kernel
    | (apply Keeps.step; with_reducible apply Dev.withBe_keeps))

theorem Dev.setLoop_keeps (d : Dev) (l : Nat) (v : LoopT) : Keeps ⟨false, [], [.be]⟩ d (Dev.setLoop d l v) := by
  unfold Dev.setLoop
  repeat' (first
    | with_reducible exact Keeps.refl _ _
    | decide +kernel
    | (apply Keeps.step; with_reducible apply Dev.withBe_keeps))

theorem Dev.setEng_keeps (d : Dev) (e : Nat) (v : EngT) : Keeps ⟨false, [], [.be]⟩ d (Dev.setEng d e v) := by
  unfold Dev.setEng
  repeat' (first
    | with_reducible exact Keeps.refl _ _
    | decide +kernel
    | (apply Keeps.step; with_reducible apply Dev.withBe_keeps))

theorem Dev.sendRec_keeps (d : Dev) (r : RecTok) : Keeps ⟨false, [], [.be]⟩ d (Dev.sendRec d r) := by
  unfold Dev.sendRec
  repeat' (first
    | with_reducible exact Keeps.refl _ _
    | decide +kernel
    | (apply Keeps.step; with_reducible apply Dev.withBe_keeps))

theorem Dev.setPos_keeps (d : Dev) (i : Nat) (v : PosT) : Keeps ⟨false, [], [.ps]⟩ d (Dev.setPos d i v) := by
  unfold Dev.setPos
  repeat' (first
    | with_reducible exact Keeps.refl _ _
    | decide +kernel
    | (apply Keeps.step; with_reducible apply Dev.withPs_keeps))

theorem Dev.setRep_keeps (d : Dev) (j : Nat) (v : RepT) : Keeps ⟨false, [], [.ps]⟩ d (Dev.setRep d j v) := by
  unfold Dev.setRep
  repeat' (first
    | with_reducible exact Keeps.refl _ _
    | decide +kernel
    | (apply Keeps.step; with_reducible apply Dev.withPs_keeps))

theorem Dev.setTm_keeps (d : Dev) (m : Nat) (v : TmT) : Keeps ⟨false, [], [.tm]⟩ d (Dev.setTm d m v) := by
  unfold Dev.setTm
  repeat' (first
    | with_reducible exact Keeps.refl _ _
    | decide +kernel
    | (apply Keeps.step; with_reducible apply Dev.withTm_keeps))

theorem Dev.setDrive_keeps (d : Dev) (a : Nat) (v : DrT) : Keeps ⟨false, [], [.dr]⟩ d (Dev.setDrive d a v) := by
  unfold Dev.setDrive
  repeat' (first
    | with_reducible exact Keeps.refl _ _
    | decide +kernel
    | (apply Keeps.step; with_reducible apply Dev.withDr_keeps))

theorem Dev.setQp_keeps (d : Dev) (q : Nat) (v : QpT) : Keeps ⟨false, [], [.hi]⟩ d (Dev.setQp d q v) := by
  unfold Dev.setQp
  repeat' (first
    | with_reducible exact Keeps.refl _ _
    | decide +kernel
    | (apply Keeps.step; with_reducible apply Dev.withHi_keeps))

theorem Dev.emit_keeps (d : Dev) (m : LinkMsg) : Keeps ⟨false, [], [.hi]⟩ d (Dev.emit d m) := by
  unfold Dev.emit
  repeat' (first
    | with_reducible exact Keeps.refl _ _
    | decide +kernel
    | (apply Keeps.step; with_reducible apply Dev.withHi_keeps))

theorem Dev.setCan_keeps (d : Dev) (c : Nat) (v : CnT) : Keeps ⟨false, [], [.cn]⟩ d (Dev.setCan d c v) := by
  unfold Dev.setCan
  repeat' (first
    | with_reducible exact Keeps.refl _ _
    | decide +kernel
    | (apply Keeps.step; with_reducible apply Dev.withCn_keeps))

theorem Dev.setFlow_keeps (d : Dev) (l : Nat) (v : FlT) : Keeps ⟨false, [], [.cn]⟩ d (Dev.setFlow d l v) := by
  unfold Dev.setFlow
  repeat' (first
    | with_reducible exact Keeps.refl _ _
    | decide +kernel
    | (apply Keeps.step; with_reducible apply Dev.withCn_keeps))

theorem Dev.setAbsDue_keeps (d : Dev) (s : Nat) (v : Option Nat) : Keeps ⟨false, [], [.sc]⟩ d (Dev.setAbsDue d s v) := by
  unfold Dev.setAbsDue
  repeat' (first
    | with_reducible exact Keeps.refl _ _
    | decide +kernel
    | (apply Keeps.step; with_reducible apply Dev.withSc_keeps))

theorem Dev.setRespDue_keeps (d : Dev) (s : Nat) (v : Option Nat) : Keeps ⟨false, [], [.sc]⟩ d (Dev.setRespDue d s v) := by
  unfold Dev.setRespDue
  repeat' (first
    | with_reducible exact Keeps.refl _ _
    | decide +kernel
    | (apply Keeps.step; with_reducible apply Dev.withSc_keeps))

theorem Dev.markFenced_keeps (d : Dev) (kind index : Nat) (b : Bool) : Keeps ⟨false, [], [.flt]⟩ d (Dev.markFenced d kind index b) := by
  unfold Dev.markFenced
  repeat' (first
    | with_reducible exact Keeps.refl _ _
    | decide +kernel
    | exact id
    | (apply Keeps.step; with_reducible apply Dev.withFlt_keeps))

theorem Dev.post_keeps (d : Dev) (r : Report) : Keeps ⟨false, [F.FLT_STAT_lost, F.FLT_LOST], [.flt]⟩ d (Dev.post d r) := by
  unfold Dev.post
  split
  · refine (Dev.withFlt_keeps d _ fun _ => ?_).le
    simp only [List.length_append, List.length_cons, List.length_nil]
    omega
  · exact ((Dev.withFlt_keeps _ _ (by exact id)).le.trans (Dev.bump_keeps _ _ _ (by decide +kernel)).le).trans (Dev.put_keeps _ _ _ _ (by decide +kernel)).le

theorem Dev.report_keeps (d : Dev) (kind index cls code detail : Nat) (sub : Nat) : Keeps ⟨false, [F.FLT_STAT_lost, F.FLT_LOST], [.flt]⟩ d (Dev.report d kind index cls code detail sub) := by
  unfold Dev.report
  repeat' (first
    | with_reducible exact Keeps.refl _ _
    | decide +kernel
    | (apply Keeps.step; with_reducible apply Dev.post_keeps)
    | (with_reducible apply Keeps.ite <;> intro _)
    | split)

theorem Dev.reportOpen_keeps (d : Dev) (kind index cls code : Nat) : Keeps ⟨false, [F.FLT_STAT_lost, F.FLT_LOST], [.flt]⟩ d (Dev.reportOpen d kind index cls code) := by
  unfold Dev.reportOpen
  repeat' (first
    | with_reducible exact Keeps.refl _ _
    | decide +kernel
    | (apply Keeps.step; with_reducible apply Dev.report_keeps))

theorem Dev.pipe_keeps {W : Foot} (d : Dev) (f : Dev → Dev) (h : ∀ d, Keeps W d (f d)) : Keeps W d (d.pipe f) := h d 

theorem Dev.wakeCopies_keeps (d : Dev) : Keeps ⟨false, [], [.sc, .flt]⟩ d (Dev.wakeCopies d) := by
  unfold Dev.wakeCopies
  repeat' (first
    | with_reducible exact Keeps.refl _ _
    | decide +kernel
    | exact id
    | (apply Keeps.step; with_reducible apply Dev.withSc_keeps)
    | (apply Keeps.step; with_reducible apply Dev.withFlt_keeps)
    | (with_reducible apply Keeps.ite <;> intro _)
    | split)

theorem Dev.raiseRequest_keeps (d : Dev) : Keeps ⟨false, [], [.sc, .flt]⟩ d (Dev.raiseRequest d) := by
  unfold Dev.raiseRequest
  repeat' (first
    | with_reducible exact Keeps.refl _ _
    | decide +kernel
    | exact id
    | (apply Keeps.step; with_reducible apply Dev.withFlt_keeps)
    | (apply Keeps.step; with_reducible apply Dev.wakeCopies_keeps))

theorem Dev.reject_keeps (d : Dev) (m : Master) (off reason : Nat) (data : Word) : Keeps ⟨false, [F.FAB_WRITE_ERR, F.FAB_WRITE_ERR_more, F.FAB_WRITE_DATA, F.FAB_WRITE_CNT], []⟩ d (Dev.reject d m off reason data) := by
  unfold Dev.reject
  repeat' (first
    | with_reducible exact Keeps.refl _ _
    | decide +kernel
    | with_reducible assumption
    | lift_lets
    | (intro x; first | (refine Keeps.cut (d0 := d) (d1 := x) ?_ ?_; (on_goal 1 => subst x); (on_goal 2 => (intro _; clear_value x))) | subst x)
    | (apply Keeps.step; with_reducible apply Dev.wr_keeps)
    | (apply Keeps.step; with_reducible apply Dev.put_keeps)
    | (apply Keeps.step; with_reducible apply Dev.bump_keeps)
    | (with_reducible apply Keeps.ite <;> intro _)
    | split)

theorem Dev.postFenced_keeps (d : Dev) (kind index cls cause sub : Nat) : Keeps ⟨false, [F.FLT_STAT_lost, F.FLT_LOST], [.flt]⟩ d (Dev.postFenced d kind index cls cause sub) := by
  unfold Dev.postFenced
  repeat' (first
    | with_reducible exact Keeps.refl _ _
    | decide +kernel
    | (apply Keeps.step; with_reducible apply Dev.post_keeps))

end Sys2Proof.Machine
end

