-- ==== Sys2Proof/Laws/KeepsDrivers.lean ====
section
/-! SUPPORT. What the effects of Drivers.lean keep. -/

namespace Sys2Proof.Machine

set_option Elab.async false

theorem Dev.setDrv_keeps (d : Dev) (p : Nat) (hi : Bool) (v : DriverT) : Keeps ⟨false, [], [.pp]⟩ d (Dev.setDrv d p hi v) := by
  unfold Dev.setDrv
  repeat' (first
    | with_reducible exact Keeps.refl _ _
    | decide +kernel
    | (apply Keeps.step; with_reducible apply Dev.setPort_keeps))

theorem Dev.setEdge_keeps (d : Dev) (p : Nat) (hi : Bool) (e : Edge) : Keeps ⟨false, [], [.pp]⟩ d (Dev.setEdge d p hi e) := by
  unfold Dev.setEdge
  repeat' (first
    | with_reducible exact Keeps.refl _ _
    | decide +kernel
    | (apply Keeps.step; with_reducible apply Dev.setDrv_keeps))

theorem Dev.noteSupply_keeps (d : Dev) (p : Nat) (hi : Bool) (mv : Nat) : Keeps ⟨false, [], [.pp]⟩ d (Dev.noteSupply d p hi mv) := by
  unfold Dev.noteSupply
  repeat' (first
    | with_reducible exact Keeps.refl _ _
    | decide +kernel
    | with_reducible assumption
    | lift_lets
    | (intro x; first | (refine Keeps.cut (d0 := d) (d1 := x) ?_ ?_; (on_goal 1 => subst x); (on_goal 2 => (intro _; clear_value x))) | subst x)
    | (apply Keeps.step; with_reducible apply Dev.setPort_keeps)
    | (apply Keeps.step; with_reducible apply Dev.setDrv_keeps)
    | (with_reducible apply Keeps.ite <;> intro _)
    | split)

theorem Dev.measureSupply_keeps (d : Dev) (p : Nat) (hi : Bool) (mv : Nat) : Keeps ⟨false, [F.PP_SUPPLY_hi_supply, F.PP_SUPPLY_lo_supply], [.pp]⟩ d (Dev.measureSupply d p hi mv) := by
  unfold Dev.measureSupply
  repeat' (first
    | with_reducible exact Keeps.refl _ _
    | decide +kernel
    | with_reducible assumption
    | lift_lets
    | (intro x; first | (refine Keeps.cut (d0 := d) (d1 := x) ?_ ?_; (on_goal 1 => subst x); (on_goal 2 => (intro _; clear_value x))) | subst x)
    | (apply Keeps.step; with_reducible apply Dev.wr_keeps)
    | (apply Keeps.step; with_reducible apply Dev.noteSupply_keeps)
    | (with_reducible apply Keeps.ite <;> intro _)
    | split)

theorem Dev.driveGate_keeps (d : Dev) (p : Nat) (hi : Bool) : Keeps ⟨false, [], [.pp]⟩ d (Dev.driveGate d p hi) := by
  unfold Dev.driveGate
  repeat' (first
    | with_reducible exact Keeps.refl _ _
    | decide +kernel
    | with_reducible assumption
    | lift_lets
    | (intro x; first | (refine Keeps.cut (d0 := d) (d1 := x) ?_ ?_; (on_goal 1 => subst x); (on_goal 2 => (intro _; clear_value x))) | subst x)
    | (apply Keeps.step; with_reducible apply Dev.setDrv_keeps)
    | (with_reducible apply Keeps.ite <;> intro _)
    | split)

theorem Dev.drivePort_keeps (d : Dev) (p : Nat) : Keeps ⟨false, [], [.pp]⟩ d (Dev.drivePort d p) := by
  unfold Dev.drivePort
  repeat' (first
    | with_reducible exact Keeps.refl _ _
    | decide +kernel
    | (apply Keeps.step; with_reducible apply Dev.driveGate_keeps))

theorem Dev.lockout_keeps (d : Dev) (p : Nat) (hi : Bool) (mv : Nat) : Keeps ⟨false, [F.PP_STAT_uvlo_hi_live, F.PP_STAT_uvlo_lo_live, F.PP_STAT_uvlo, F.PP_CNT_uvlo, F.PP_SUPPLY_hi_supply, F.PP_SUPPLY_lo_supply, F.FLT_STAT_lost, F.FLT_LOST], [.pp, .flt]⟩ d (Dev.lockout d p hi mv) := by
  unfold Dev.lockout
  repeat' (first
    | with_reducible exact Keeps.refl _ _
    | decide +kernel
    | with_reducible assumption
    | exact uvloLive_ok _
    | (unfold uvloLive; (repeat' split) <;> decide +kernel)
    | lift_lets
    | (intro x; first | (refine Keeps.cut (d0 := d) (d1 := x) ?_ ?_; (on_goal 1 => subst x); (on_goal 2 => (intro _; clear_value x))) | subst x)
    | (apply Keeps.step; with_reducible apply Dev.put_keeps)
    | (apply Keeps.step; with_reducible apply Dev.bump_keeps)
    | (apply Keeps.step; with_reducible apply Dev.report_keeps)
    | (apply Keeps.step; with_reducible apply Dev.reportOpen_keeps)
    | (apply Keeps.step; with_reducible apply Dev.measureSupply_keeps)
    | (apply Keeps.step; with_reducible apply Dev.drivePort_keeps)
    | (with_reducible apply Keeps.ite <;> intro _)
    | split)

theorem Dev.supplyAt_keeps (d : Dev) (p : Nat) (hi : Bool) (mv : Nat) : Keeps ⟨false, [F.PP_STAT_uvlo_hi_live, F.PP_STAT_uvlo_lo_live, F.PP_STAT_uvlo, F.PP_CNT_uvlo, F.PP_SUPPLY_hi_supply, F.PP_SUPPLY_lo_supply, F.FLT_STAT_lost, F.FLT_LOST], [.pp, .flt]⟩ d (Dev.supplyAt d p hi mv) := by
  unfold Dev.supplyAt
  repeat' (first
    | with_reducible exact Keeps.refl _ _
    | decide +kernel
    | (apply Keeps.step; with_reducible apply Dev.measureSupply_keeps)
    | (apply Keeps.step; with_reducible apply Dev.lockout_keeps)
    | (with_reducible apply Keeps.ite <;> intro _)
    | split)

theorem Dev.endLockout_keeps (d : Dev) (p : Nat) (hi on : Bool) (mv : Nat) : Keeps ⟨false, [F.PP_STAT_uvlo_hi_live, F.PP_STAT_uvlo_lo_live], []⟩ d (Dev.endLockout d p hi on mv) := by
  unfold Dev.endLockout
  repeat' (first
    | with_reducible exact Keeps.refl _ _
    | decide +kernel
    | exact uvloLive_ok _
    | (unfold uvloLive; (repeat' split) <;> decide +kernel)
    | (apply Keeps.step; with_reducible apply Dev.put_keeps)
    | (with_reducible apply Keeps.ite <;> intro _)
    | split)

theorem Dev.interlock_keeps (d : Dev) (p : Nat) (hi lo : Bool) : Keeps ⟨false, [F.PP_STAT_interlock_live, F.PP_STAT_interlock, F.PP_CNT_interlock, F.FLT_STAT_lost, F.FLT_LOST], [.flt]⟩ d (Dev.interlock d p hi lo) := by
  unfold Dev.interlock
  repeat' (first
    | with_reducible exact Keeps.refl _ _
    | decide +kernel
    | with_reducible assumption
    | lift_lets
    | (intro x; first | (refine Keeps.cut (d0 := d) (d1 := x) ?_ ?_; (on_goal 1 => subst x); (on_goal 2 => (intro _; clear_value x))) | subst x)
    | (apply Keeps.step; with_reducible apply Dev.put_keeps)
    | (apply Keeps.step; with_reducible apply Dev.bump_keeps)
    | (apply Keeps.step; with_reducible apply Dev.report_keeps)
    | (apply Keeps.step; with_reducible apply Dev.reportOpen_keeps)
    | (with_reducible apply Keeps.ite <;> intro _)
    | split)

theorem Dev.driverInput_keeps (d : Dev) (p : Nat) (hi lo : Bool) (hiMv loMv : Nat) : Keeps ⟨false, [F.PP_STAT_uvlo_hi_live, F.PP_STAT_uvlo_lo_live, F.PP_STAT_interlock_live, F.PP_STAT_interlock, F.PP_CNT_interlock, F.FLT_STAT_lost, F.FLT_LOST], [.pp, .flt]⟩ d (Dev.driverInput d p hi lo hiMv loMv) := by
  unfold Dev.driverInput
  repeat' (first
    | with_reducible exact Keeps.refl _ _
    | decide +kernel
    | with_reducible assumption
    | lift_lets
    | (intro x; first | (refine Keeps.cut (d0 := d) (d1 := x) ?_ ?_; (on_goal 1 => subst x); (on_goal 2 => (intro _; clear_value x))) | subst x)
    | (apply Keeps.step; with_reducible apply Dev.setDrv_keeps)
    | (apply Keeps.step; with_reducible apply Dev.drivePort_keeps)
    | (apply Keeps.step; with_reducible apply Dev.endLockout_keeps)
    | (apply Keeps.step; with_reducible apply Dev.interlock_keeps))

theorem Dev.chopperCheck_keeps (d : Dev) (h : Nat) (amps : Int) : Keeps ⟨false, [F.PP_STAT_chopper_open, F.PP_CNT_chopper_open, F.FLT_STAT_lost, F.FLT_LOST], [.flt]⟩ d (Dev.chopperCheck d h amps) := by
  unfold Dev.chopperCheck
  repeat' (first
    | with_reducible exact Keeps.refl _ _
    | decide +kernel
    | (intro _ _ k; exact k.le)
    | with_reducible assumption
    | lift_lets
    | (intro x; first | (refine Keeps.cut (d0 := e) (d1 := x) ?_ ?_; (on_goal 1 => subst x); (on_goal 2 => (intro _; clear_value x))) | (refine Keeps.cut (d0 := d) (d1 := x) ?_ ?_; (on_goal 1 => subst x); (on_goal 2 => (intro _; clear_value x))) | subst x)
    | (apply Keeps.stepSame; with_reducible apply Dev.each_keeps; intro e _)
    | (apply Keeps.step; with_reducible apply Dev.put_keeps)
    | (apply Keeps.step; with_reducible apply Dev.bump_keeps)
    | (apply Keeps.step; with_reducible apply Dev.report_keeps)
    | (apply Keeps.step; with_reducible apply Dev.reportOpen_keeps)
    | (with_reducible apply Keeps.ite <;> intro _)
    | split)

theorem Dev.monitorGate_keeps (d : Dev) (p : Nat) (hi : Bool) (mv : Int) : Keeps ⟨false, [F.PP_STAT_gate_hi, F.PP_STAT_gate_lo, F.PP_STAT_gate_mismatch, F.PP_CNT_mismatch, F.FLT_STAT_lost, F.FLT_LOST], [.flt]⟩ d (Dev.monitorGate d p hi mv) := by
  unfold Dev.monitorGate
  repeat' (first
    | with_reducible exact Keeps.refl _ _
    | decide +kernel
    | with_reducible assumption
    | exact gateSensed_ok _
    | (unfold gateSensed; (repeat' split) <;> decide +kernel)
    | lift_lets
    | (intro x; first | (refine Keeps.cut (d0 := d) (d1 := x) ?_ ?_; (on_goal 1 => subst x); (on_goal 2 => (intro _; clear_value x))) | subst x)
    | (apply Keeps.step; with_reducible apply Dev.put_keeps)
    | (apply Keeps.step; with_reducible apply Dev.bump_keeps)
    | (apply Keeps.step; with_reducible apply Dev.report_keeps)
    | (apply Keeps.step; with_reducible apply Dev.reportOpen_keeps)
    | (with_reducible apply Keeps.ite <;> intro _)
    | split
    | beta_reduce)

end Sys2Proof.Machine
end

