-- ==== Sys2Proof/Laws/KeepsUrgents.lean ====
section
/-! SUPPORT. What the effects of Urgents.lean keep. -/

namespace Sys2Proof.Machine

set_option Elab.async false

theorem Dev.showUrgent_keeps (d : Dev) (c : Nat) : Keeps ⟨false, [F.CV_STAT_urgent], []⟩ d (Dev.showUrgent d c) := by
  unfold Dev.showUrgent
  repeat' (first
    | with_reducible exact Keeps.refl _ _
    | decide +kernel
    | (apply Keeps.step; with_reducible apply Dev.put_keeps))

theorem Dev.requestUrgent_keeps (d : Dev) (c : Nat) (l : List (Urg × Nat)) : Keeps ⟨false, [F.CV_STAT_urgent], [.cv]⟩ d (Dev.requestUrgent d c l) := by
  unfold Dev.requestUrgent
  repeat' (first
    | with_reducible exact Keeps.refl _ _
    | decide +kernel
    | (intro _ _ k; exact k.le)
    | with_reducible assumption
    | lift_lets
    | (intro x; first | (refine Keeps.cut (d0 := e) (d1 := x) ?_ ?_; (on_goal 1 => subst x); (on_goal 2 => (intro _; clear_value x))) | (refine Keeps.cut (d0 := d) (d1 := x) ?_ ?_; (on_goal 1 => subst x); (on_goal 2 => (intro _; clear_value x))) | subst x)
    | (apply Keeps.step; with_reducible apply Dev.setConv_keeps)
    | (apply Keeps.step; with_reducible apply Dev.showUrgent_keeps)
    | (apply Keeps.stepSame; with_reducible apply Dev.foldl_keeps; intro e _)
    | (with_reducible apply Keeps.ite <;> intro _)
    | split)

theorem Dev.takeTriggers_keeps (d : Dev) (c : Nat) : Keeps ⟨false, [F.CV_STAT_urgent], [.cv]⟩ d (Dev.takeTriggers d c) := by
  unfold Dev.takeTriggers
  repeat' (first
    | with_reducible exact Keeps.refl _ _
    | decide +kernel
    | (apply Keeps.step; with_reducible apply Dev.requestUrgent_keeps))

theorem Dev.endUrgentConv_keeps (d : Dev) (c : Nat) : Keeps ⟨false, [F.CV_STAT_urgent], [.cv]⟩ d (Dev.endUrgentConv d c) := by
  unfold Dev.endUrgentConv
  repeat' (first
    | with_reducible exact Keeps.refl _ _
    | decide +kernel
    | with_reducible assumption
    | lift_lets
    | (intro x; first | (refine Keeps.cut (d0 := d) (d1 := x) ?_ ?_; (on_goal 1 => subst x); (on_goal 2 => (intro _; clear_value x))) | subst x)
    | (apply Keeps.step; with_reducible apply Dev.setConv_keeps)
    | (apply Keeps.step; with_reducible apply Dev.showUrgent_keeps))

theorem Dev.dropUrgent_keeps (d : Dev) (c : Nat) (u : Urg) : Keeps ⟨false, [F.CV_STAT_urgent], [.cv]⟩ d (Dev.dropUrgent d c u) := by
  unfold Dev.dropUrgent
  repeat' (first
    | with_reducible exact Keeps.refl _ _
    | decide +kernel
    | with_reducible assumption
    | lift_lets
    | (intro x; first | (refine Keeps.cut (d0 := d) (d1 := x) ?_ ?_; (on_goal 1 => subst x); (on_goal 2 => (intro _; clear_value x))) | subst x)
    | (apply Keeps.step; with_reducible apply Dev.setConv_keeps)
    | (apply Keeps.step; with_reducible apply Dev.takeTriggers_keeps)
    | (apply Keeps.step; with_reducible apply Dev.endUrgentConv_keeps)
    | (with_reducible apply Keeps.ite <;> intro _)
    | split
    | beta_reduce)

theorem Dev.clearUrgents_keeps (d : Dev) (c : Nat) : Keeps ⟨false, [F.CV_STAT_urgent], [.cv]⟩ d (Dev.clearUrgents d c) := by
  unfold Dev.clearUrgents
  repeat' (first
    | with_reducible exact Keeps.refl _ _
    | decide +kernel
    | (apply Keeps.step; with_reducible apply Dev.setConv_keeps)
    | (apply Keeps.step; with_reducible apply Dev.showUrgent_keeps))

end Sys2Proof.Machine
end

