-- ==== Sys2Proof/Laws/KeepsStageOps.lean ====
section
/-! SUPPORT. What the effects of StageOps.lean keep. -/

namespace Sys2Proof.Machine

set_option Elab.async false

theorem Dev.noteBoth_keeps (d : Dev) (p : Nat) : Keeps ⟨false, [F.PG_STAT_both_req], []⟩ d (Dev.noteBoth d p) := by
  unfold Dev.noteBoth
  repeat' (first
    | with_reducible exact Keeps.refl _ _
    | decide +kernel
    | (apply Keeps.step; with_reducible apply Dev.put_keeps)
    | (with_reducible apply Keeps.ite <;> intro _)
    | split)

theorem Dev.present_keeps (d : Dev) (p at16 : Nat) (hi lo : Bool) : Keeps ⟨false, [F.PG_STAT_out_high, F.PG_STAT_out_low, F.PG_STAT_both_req], [.pp]⟩ d (Dev.present d p at16 hi lo) := by
  unfold Dev.present
  repeat' (first
    | with_reducible exact Keeps.refl _ _
    | decide +kernel
    | with_reducible assumption
    | lift_lets
    | (intro x; first | (refine Keeps.cut (d0 := d) (d1 := x) ?_ ?_; (on_goal 1 => subst x); (on_goal 2 => (intro _; clear_value x))) | subst x)
    | (apply Keeps.step; with_reducible apply Dev.put_keeps)
    | (apply Keeps.step; with_reducible apply Dev.setPort_keeps)
    | (apply Keeps.step; with_reducible apply Dev.noteBoth_keeps)
    | (with_reducible apply Keeps.ite <;> intro _)
    | split)

theorem Dev.portOff_keeps (d : Dev) (p : Nat) : Keeps ⟨false, [F.PG_STAT_out_high, F.PG_STAT_out_low], [.tb, .pp]⟩ d (Dev.portOff d p) := by
  unfold Dev.portOff
  repeat' (first
    | with_reducible exact Keeps.refl _ _
    | decide +kernel
    | with_reducible assumption
    | lift_lets
    | (intro x; first | (refine Keeps.cut (d0 := d) (d1 := x) ?_ ?_; (on_goal 1 => subst x); (on_goal 2 => (intro _; clear_value x))) | subst x)
    | (apply Keeps.step; with_reducible apply Dev.put_keeps)
    | (apply Keeps.step; with_reducible apply Dev.setPg_keeps)
    | (apply Keeps.step; with_reducible apply Dev.setPort_keeps)
    | (with_reducible apply Keeps.ite <;> intro _)
    | split)

theorem Dev.hEdge_keeps (d : Dev) (p now16 : Nat) (h : Bool) : Keeps ⟨false, [F.PG_STAT_out_high, F.PG_STAT_out_low, F.PG_STAT_both_req], [.tb, .pp]⟩ d (Dev.hEdge d p now16 h) := by
  unfold Dev.hEdge
  repeat' (first
    | with_reducible exact Keeps.refl _ _
    | decide +kernel
    | with_reducible assumption
    | lift_lets
    | (intro x; first | (refine Keeps.cut (d0 := d) (d1 := x) ?_ ?_; (on_goal 1 => subst x); (on_goal 2 => (intro _; clear_value x))) | subst x)
    | (apply Keeps.step; with_reducible apply Dev.setPg_keeps)
    | (apply Keeps.step; with_reducible apply Dev.present_keeps)
    | (with_reducible apply Keeps.ite <;> intro _)
    | split)

theorem Dev.pgStep_keeps (d : Dev) (p now16 pos16 : Nat) (first : Bool) : Keeps ⟨false, [F.PG_STAT_out_high, F.PG_STAT_out_low, F.PG_STAT_both_req], [.tb, .pp]⟩ d (Dev.pgStep d p now16 pos16 first) := by
  unfold Dev.pgStep
  repeat' (first
    | with_reducible exact Keeps.refl _ _
    | decide +kernel
    | with_reducible assumption
    | lift_lets
    | (intro x; first | (refine Keeps.cut (d0 := d) (d1 := x) ?_ ?_; (on_goal 1 => subst x); (on_goal 2 => (intro _; clear_value x))) | subst x)
    | (apply Keeps.step; with_reducible apply Dev.setPg_keeps)
    | (apply Keeps.step; with_reducible apply Dev.present_keeps)
    | (apply Keeps.step; with_reducible apply Dev.hEdge_keeps)
    | (with_reducible apply Keeps.ite <;> intro _)
    | split)

theorem Dev.silence_keeps (d : Dev) (s : Nat) : Keeps ⟨false, [F.PG_STAT_out_high, F.PG_STAT_out_low], [.tb, .pp]⟩ d (Dev.silence d s) := by
  unfold Dev.silence
  repeat' (first
    | with_reducible exact Keeps.refl _ _
    | decide +kernel
    | (intro _ _ k; exact k.le)
    | (apply Keeps.stepSame; with_reducible apply Dev.each_keeps; intro e _)
    | (apply Keeps.step; with_reducible apply Dev.setPg_keeps)
    | (apply Keeps.step; with_reducible apply Dev.portOff_keeps)
    | (with_reducible apply Keeps.ite <;> intro _)
    | split)

theorem Dev.clearWritten_keeps (d : Dev) (s : Nat) : Keeps ⟨false, [], [.tb]⟩ d (Dev.clearWritten d s) := by
  unfold Dev.clearWritten
  repeat' (first
    | with_reducible exact Keeps.refl _ _
    | decide +kernel
    | (intro _ _ k; exact k.le)
    | (apply Keeps.stepSame; with_reducible apply Dev.each_keeps; intro e _)
    | (apply Keeps.step; with_reducible apply Dev.setPg_keeps))

theorem Dev.discardShadows_keeps (d : Dev) (s : Nat) : Keeps ⟨false, [F.TB_STG_COMMIT_pending], [.tb]⟩ d (Dev.discardShadows d s) := by
  unfold Dev.discardShadows
  repeat' (first
    | with_reducible exact Keeps.refl _ _
    | decide +kernel
    | with_reducible assumption
    | lift_lets
    | (intro x; first | (refine Keeps.cut (d0 := d) (d1 := x) ?_ ?_; (on_goal 1 => subst x); (on_goal 2 => (intro _; clear_value x))) | subst x)
    | (apply Keeps.step; with_reducible apply Dev.put_keeps)
    | (apply Keeps.step; with_reducible apply Dev.setStg_keeps)
    | (apply Keeps.step; with_reducible apply Dev.clearWritten_keeps))

theorem Dev.absStart_keeps (d : Dev) (s : Nat) : Keeps ⟨false, [F.SC_ABS_LEFT_expired, F.SC_ABS_LEFT_awaiting], [.sc]⟩ d (Dev.absStart d s) := by
  unfold Dev.absStart
  repeat' (first
    | with_reducible exact Keeps.refl _ _
    | decide +kernel
    | with_reducible assumption
    | lift_lets
    | (intro x; first | (refine Keeps.cut (d0 := d) (d1 := x) ?_ ?_; (on_goal 1 => subst x); (on_goal 2 => (intro _; clear_value x))) | subst x)
    | (apply Keeps.step; with_reducible apply Dev.put_keeps)
    | (apply Keeps.step; with_reducible apply Dev.setAbsDue_keeps)
    | (apply Keeps.step; with_reducible apply Dev.setRespDue_keeps)
    | (with_reducible apply Keeps.ite <;> intro _)
    | split)

theorem Dev.absStop_keeps (d : Dev) (s : Nat) : Keeps ⟨false, [F.SC_ABS_LEFT_left, F.SC_ABS_LEFT_awaiting], [.sc]⟩ d (Dev.absStop d s) := by
  unfold Dev.absStop
  repeat' (first
    | with_reducible exact Keeps.refl _ _
    | decide +kernel
    | with_reducible assumption
    | lift_lets
    | (intro x; first | (refine Keeps.cut (d0 := d) (d1 := x) ?_ ?_; (on_goal 1 => subst x); (on_goal 2 => (intro _; clear_value x))) | subst x)
    | (apply Keeps.step; with_reducible apply Dev.wr_keeps)
    | (apply Keeps.step; with_reducible apply Dev.put_keeps)
    | (apply Keeps.step; with_reducible apply Dev.setAbsDue_keeps)
    | (apply Keeps.step; with_reducible apply Dev.setRespDue_keeps))

theorem Dev.endRun_keeps (d : Dev) (s : Nat) : Keeps ⟨false, [F.TB_STG_RUN_run, F.TB_STG_STAT_running, F.SC_ABS_LEFT_left, F.SC_ABS_LEFT_awaiting], [.tb, .sc]⟩ d (Dev.endRun d s) := by
  unfold Dev.endRun
  repeat' (first
    | with_reducible exact Keeps.refl _ _
    | decide +kernel
    | with_reducible assumption
    | lift_lets
    | (intro x; first | (refine Keeps.cut (d0 := d) (d1 := x) ?_ ?_; (on_goal 1 => subst x); (on_goal 2 => (intro _; clear_value x))) | subst x)
    | (apply Keeps.step; with_reducible apply Dev.put_keeps)
    | (apply Keeps.step; with_reducible apply Dev.setStg_keeps)
    | (apply Keeps.step; with_reducible apply Dev.absStop_keeps)
    | (with_reducible apply Keeps.ite <;> intro _)
    | split)

theorem Dev.stopStage_keeps (d : Dev) (s : Nat) : Keeps ⟨false, [F.TB_STG_RUN_run, F.TB_STG_STAT_running, F.PG_STAT_out_high, F.PG_STAT_out_low, F.SC_ABS_LEFT_left, F.SC_ABS_LEFT_awaiting], [.tb, .pp, .sc]⟩ d (Dev.stopStage d s) := by
  unfold Dev.stopStage
  repeat' (first
    | with_reducible exact Keeps.refl _ _
    | decide +kernel
    | (apply Keeps.step; with_reducible apply Dev.silence_keeps)
    | (apply Keeps.step; with_reducible apply Dev.endRun_keeps))

theorem Dev.abandonCal_keeps (d : Dev) (s : Nat) : Keeps ⟨false, [F.SH_CAL_CTRL_busy, F.SH_CAL_CTRL_status, F.CV_STAT_urgent], [.sh, .cv]⟩ d (Dev.abandonCal d s) := by
  unfold Dev.abandonCal
  repeat' (first
    | with_reducible exact Keeps.refl _ _
    | decide +kernel
    | with_reducible assumption
    | lift_lets
    | (intro x; first | (refine Keeps.cut (d0 := d) (d1 := x) ?_ ?_; (on_goal 1 => subst x); (on_goal 2 => (intro _; clear_value x))) | subst x)
    | (apply Keeps.step; with_reducible apply Dev.wr_keeps)
    | (apply Keeps.step; with_reducible apply Dev.put_keeps)
    | (apply Keeps.step; with_reducible apply Dev.setShunt_keeps)
    | (apply Keeps.step; with_reducible apply Dev.dropUrgent_keeps)
    | (with_reducible apply Keeps.ite <;> intro _)
    | split
    | beta_reduce)

theorem Dev.startStage_keeps (d : Dev) (s : Nat) : Keeps ⟨false, [F.TB_STG_RUN_run, F.PG_STAT_out_high, F.PG_STAT_out_low, F.PG_STAT_trip_hold, F.SH_CAL_CTRL_busy, F.SH_CAL_CTRL_status, F.CV_STAT_urgent, F.SC_ABS_LEFT_expired, F.SC_ABS_LEFT_awaiting], [.tb, .pp, .sh, .cv, .sc]⟩ d (Dev.startStage d s) := by
  unfold Dev.startStage
  repeat' (first
    | with_reducible exact Keeps.refl _ _
    | decide +kernel
    | (intro _ _ k; exact k.le)
    | with_reducible assumption
    | lift_lets
    | (intro x; first | (refine Keeps.cut (d0 := e) (d1 := x) ?_ ?_; (on_goal 1 => subst x); (on_goal 2 => (intro _; clear_value x))) | (refine Keeps.cut (d0 := d) (d1 := x) ?_ ?_; (on_goal 1 => subst x); (on_goal 2 => (intro _; clear_value x))) | subst x)
    | (apply Keeps.stepSame; with_reducible apply Dev.each_keeps; intro e _)
    | (apply Keeps.step; with_reducible apply Dev.put_keeps)
    | (apply Keeps.step; with_reducible apply Dev.setStg_keeps)
    | (apply Keeps.step; with_reducible apply Dev.setPort_keeps)
    | (apply Keeps.step; with_reducible apply Dev.setStop_keeps)
    | (apply Keeps.stepSame; with_reducible apply Dev.pipe_keeps; intro e)
    | (apply Keeps.step; with_reducible apply Dev.portOff_keeps)
    | (apply Keeps.step; with_reducible apply Dev.absStart_keeps)
    | (apply Keeps.step; with_reducible apply Dev.abandonCal_keeps)
    | (with_reducible apply Keeps.ite <;> intro _)
    | split)

theorem Dev.actionAtPort_keeps (d : Dev) (p : Nat) (low : Bool) : Keeps ⟨false, [F.PG_STAT_out_high, F.PG_STAT_out_low, F.PG_STAT_trip_hold], [.tb, .pp]⟩ d (Dev.actionAtPort d p low) := by
  unfold Dev.actionAtPort
  repeat' (first
    | with_reducible exact Keeps.refl _ _
    | decide +kernel
    | with_reducible assumption
    | lift_lets
    | (intro x; first | (refine Keeps.cut (d0 := d) (d1 := x) ?_ ?_; (on_goal 1 => subst x); (on_goal 2 => (intro _; clear_value x))) | subst x)
    | (apply Keeps.step; with_reducible apply Dev.put_keeps)
    | (apply Keeps.step; with_reducible apply Dev.setPg_keeps)
    | (apply Keeps.step; with_reducible apply Dev.setPort_keeps)
    | (apply Keeps.step; with_reducible apply Dev.setDrv_keeps)
    | (apply Keeps.step; with_reducible apply Dev.drivePort_keeps))

theorem Dev.actionAtStage_keeps (d : Dev) (s : Nat) (low : Bool) : Keeps ⟨false, [F.PG_STAT_out_high, F.PG_STAT_out_low, F.PG_STAT_trip_hold], [.tb, .pp]⟩ d (Dev.actionAtStage d s low) := by
  unfold Dev.actionAtStage
  repeat' (first
    | with_reducible exact Keeps.refl _ _
    | decide +kernel
    | (intro _ _ k; exact k.le)
    | (apply Keeps.stepSame; with_reducible apply Dev.each_keeps; intro e _)
    | (apply Keeps.step; with_reducible apply Dev.actionAtPort_keeps))

theorem Dev.tripStage_keeps (d : Dev) (s : Nat) (low : Bool) (causeKind causeIndex : Nat) : Keeps ⟨false, [F.TB_STG_RUN_run, F.TB_STG_STAT_running, F.TB_STG_STAT_tripped, F.PG_STAT_out_high, F.PG_STAT_out_low, F.PG_STAT_trip_hold, F.WM_SW_HELD, F.WM_SW_STAT_held, F.WM_SW_STAT_action, F.WM_SW_STAT_cause_kind, F.WM_SW_STAT_cause_index, F.WM_SW_STAT_count, F.WM_SW_TIME_LO, F.WM_SW_TIME_HI, F.SC_ABS_LEFT_left, F.SC_ABS_LEFT_awaiting, F.FLT_STAT_lost, F.FLT_LOST], [.tb, .pp, .cv, .sc, .flt]⟩ d (Dev.tripStage d s low causeKind causeIndex) := by
  unfold Dev.tripStage
  repeat' (first
    | with_reducible exact Keeps.refl _ _
    | decide +kernel
    | with_reducible assumption
    | lift_lets
    | (intro x; first | (refine Keeps.cut (d0 := d) (d1 := x) ?_ ?_; (on_goal 1 => subst x); (on_goal 2 => (intro _; clear_value x))) | subst x)
    | (apply Keeps.step; with_reducible apply Dev.wr_keeps)
    | (apply Keeps.step; with_reducible apply Dev.put_keeps)
    | (apply Keeps.step; with_reducible apply Dev.bump_keeps)
    | (apply Keeps.step; with_reducible apply Dev.wr64_keeps)
    | (apply Keeps.step; with_reducible apply Dev.setStop_keeps)
    | (apply Keeps.step; with_reducible apply Dev.post_keeps)
    | (apply Keeps.step; with_reducible apply Dev.endRun_keeps)
    | (apply Keeps.step; with_reducible apply Dev.actionAtStage_keeps)
    | (with_reducible apply Keeps.ite <;> intro _)
    | split)

theorem Dev.toAllOff_keeps (d : Dev) (s : Nat) : Keeps ⟨false, [F.PG_STAT_out_high, F.PG_STAT_out_low, F.PG_STAT_trip_hold, F.WM_SW_STAT_action], [.tb, .pp, .cv]⟩ d (Dev.toAllOff d s) := by
  unfold Dev.toAllOff
  repeat' (first
    | with_reducible exact Keeps.refl _ _
    | decide +kernel
    | with_reducible assumption
    | lift_lets
    | (intro x; first | (refine Keeps.cut (d0 := d) (d1 := x) ?_ ?_; (on_goal 1 => subst x); (on_goal 2 => (intro _; clear_value x))) | subst x)
    | (apply Keeps.step; with_reducible apply Dev.wr_keeps)
    | (apply Keeps.step; with_reducible apply Dev.setStop_keeps)
    | (apply Keeps.step; with_reducible apply Dev.actionAtStage_keeps))

theorem Dev.arbitrate_keeps (d : Dev) (s : Nat) : Keeps ⟨false, [F.TB_STG_RUN_run, F.TB_STG_STAT_running, F.TB_STG_STAT_tripped, F.PG_STAT_out_high, F.PG_STAT_out_low, F.PG_STAT_trip_hold, F.WM_SW_HELD, F.WM_SW_STAT_held, F.WM_SW_STAT_action, F.WM_SW_STAT_cause_kind, F.WM_SW_STAT_cause_index, F.WM_SW_STAT_count, F.WM_SW_TIME_LO, F.WM_SW_TIME_HI, F.SC_ABS_LEFT_left, F.SC_ABS_LEFT_awaiting, F.FLT_STAT_lost, F.FLT_LOST], [.tb, .pp, .cv, .sc, .flt]⟩ d (Dev.arbitrate d s) := by
  unfold Dev.arbitrate
  repeat' (first
    | with_reducible exact Keeps.refl _ _
    | decide +kernel
    | with_reducible assumption
    | lift_lets
    | (intro x; first | (refine Keeps.cut (d0 := d) (d1 := x) ?_ ?_; (on_goal 1 => subst x); (on_goal 2 => (intro _; clear_value x))) | subst x)
    | (apply Keeps.step; with_reducible apply Dev.tripStage_keeps)
    | (apply Keeps.step; with_reducible apply Dev.toAllOff_keeps)
    | (with_reducible apply Keeps.ite <;> intro _)
    | split
    | beta_reduce)

theorem Dev.stopwork_keeps (d : Dev) : Keeps ⟨false, [F.TB_STG_RUN_run, F.TB_STG_STAT_running, F.TB_STG_STAT_tripped, F.PG_STAT_out_high, F.PG_STAT_out_low, F.PG_STAT_trip_hold, F.WM_SW_HELD, F.WM_SW_STAT_held, F.WM_SW_STAT_action, F.WM_SW_STAT_cause_kind, F.WM_SW_STAT_cause_index, F.WM_SW_STAT_count, F.WM_SW_TIME_LO, F.WM_SW_TIME_HI, F.SC_ABS_LEFT_left, F.SC_ABS_LEFT_awaiting, F.FLT_STAT_lost, F.FLT_LOST], [.tb, .pp, .cv, .sc, .flt]⟩ d (Dev.stopwork d) := by
  unfold Dev.stopwork
  repeat' (first
    | with_reducible exact Keeps.refl _ _
    | decide +kernel
    | (intro _ _ k; exact k.le)
    | (apply Keeps.stepSame; with_reducible apply Dev.each_keeps; intro e _)
    | (apply Keeps.step; with_reducible apply Dev.arbitrate_keeps))

end Sys2Proof.Machine
end

