-- ==== Sys2Proof/Laws/KeepsSafeState.lean ====
section
/-! SUPPORT. What the effects of SafeState.lean keep. -/

namespace Sys2Proof.Machine

set_option Elab.async false

theorem Dev.enterSafe_keeps (d : Dev) (kind index code detail sub : Nat) : Keeps ⟨false, [F.DEV_STATE_state, F.TB_STG_RUN_run, F.TB_STG_STAT_running, F.TB_STG_STAT_tripped, F.PG_STAT_out_high, F.PG_STAT_out_low, F.PG_STAT_trip_hold, F.WM_SW_HELD, F.WM_SW_STAT_held, F.WM_SW_STAT_action, F.WM_SW_STAT_cause_kind, F.WM_SW_STAT_cause_index, F.WM_SW_STAT_count, F.WM_SW_TIME_LO, F.WM_SW_TIME_HI, F.SC_ABS_LEFT_left, F.SC_ABS_LEFT_awaiting, F.FLT_STAT_lost, F.FLT_STAT_safe, F.FLT_LOST, F.FLT_SAFE_safe, F.FLT_SAFE_kind, F.FLT_SAFE_index, F.FLT_SAFE_status, F.FLT_SAFE_TIME_LO, F.FLT_SAFE_TIME_HI], [.tb, .pp, .cv, .sc, .flt]⟩ d (Dev.enterSafe d kind index code detail sub) := by
  unfold Dev.enterSafe
  repeat' (first
    | with_reducible exact Keeps.refl _ _
    | decide +kernel
    | with_reducible assumption
    | lift_lets
    | (intro x; first | (refine Keeps.cut (d0 := d) (d1 := x) ?_ ?_; (on_goal 1 => subst x); (on_goal 2 => (intro _; clear_value x))) | subst x)
    | (apply Keeps.step; with_reducible apply Dev.wr_safe_keeps)
    | (apply Keeps.step; with_reducible apply Dev.wr_keeps)
    | (apply Keeps.step; with_reducible apply Dev.put_keeps)
    | (apply Keeps.step; with_reducible apply Dev.wr64_keeps)
    | (apply Keeps.step; with_reducible apply Dev.post_keeps)
    | (apply Keeps.step; with_reducible apply Dev.stopwork_keeps)
    | (with_reducible apply Keeps.ite <;> intro _)
    | split)

end Sys2Proof.Machine
end

