-- ==== Sys2Proof/Laws/KeepsHostOps.lean ====
section
/-! SUPPORT. What the effects of HostOps.lean keep. -/

namespace Sys2Proof.Machine

set_option Elab.async false

theorem Dev.onItem_keeps (d : Dev) (q i : Nat) (f : Item → Item) : Keeps ⟨false, [], [.hi]⟩ d (Dev.onItem d q i f) := by
  unfold Dev.onItem
  repeat' (first
    | with_reducible exact Keeps.refl _ _
    | decide +kernel
    | (apply Keeps.step; with_reducible apply Dev.setQp_keeps))

theorem Dev.showQp_keeps (d : Dev) (q : Nat) : Keeps ⟨false, [F.HI_QP_CTRL_draining, F.HI_QP_FLAGS_in_flight], []⟩ d (Dev.showQp d q) := by
  unfold Dev.showQp
  repeat' (first
    | with_reducible exact Keeps.refl _ _
    | decide +kernel
    | with_reducible assumption
    | lift_lets
    | (intro x; first | (refine Keeps.cut (d0 := d) (d1 := x) ?_ ?_; (on_goal 1 => subst x); (on_goal 2 => (intro _; clear_value x))) | subst x)
    | (apply Keeps.step; with_reducible apply Dev.wr_keeps)
    | (apply Keeps.step; with_reducible apply Dev.put_keeps)
    | (with_reducible apply Keeps.ite <;> intro _)
    | split)

theorem Dev.ledgerItem_keeps (d : Dev) (q : Nat) (it : Item) : Keeps ⟨false, [F.FLT_STAT_lost, F.FLT_LOST], [.flt]⟩ d (Dev.ledgerItem d q it) := by
  unfold Dev.ledgerItem
  repeat' (first
    | with_reducible exact Keeps.refl _ _
    | decide +kernel
    | (apply Keeps.step; with_reducible apply Dev.post_keeps)
    | (apply Keeps.step; with_reducible apply Dev.report_keeps)
    | (with_reducible apply Keeps.ite <;> intro _)
    | split)

theorem Dev.drainItems_keeps (d : Dev) (q : Nat) : Keeps ⟨false, [F.HI_QP_CTRL_draining, F.HI_QP_FLAGS_in_flight, F.FLT_STAT_lost, F.FLT_LOST], [.hi, .flt]⟩ d (Dev.drainItems d q) := by
  unfold Dev.drainItems
  repeat' (first
    | with_reducible exact Keeps.refl _ _
    | decide +kernel
    | (intro _ _ k; exact k.le)
    | with_reducible assumption
    | lift_lets
    | (intro x; first | (refine Keeps.cut (d0 := e) (d1 := x) ?_ ?_; (on_goal 1 => subst x); (on_goal 2 => (intro _; clear_value x))) | (refine Keeps.cut (d0 := d) (d1 := x) ?_ ?_; (on_goal 1 => subst x); (on_goal 2 => (intro _; clear_value x))) | subst x)
    | (apply Keeps.step; with_reducible apply Dev.setQp_keeps)
    | (apply Keeps.step; with_reducible apply Dev.showQp_keeps)
    | (apply Keeps.step; with_reducible apply Dev.ledgerItem_keeps)
    | (apply Keeps.stepSame; with_reducible apply Dev.foldl_keeps; intro e _)
    | (with_reducible apply Keeps.ite <;> intro _)
    | split)

theorem Dev.noteLast_keeps (d : Dev) (x : Descr) (st : Nat) : Keeps ⟨false, [F.SC_TM_STAT_last_status, F.SC_TM_CNT_refusals, F.SC_CH_STAT_last_status, F.SC_LV_STAT_last_status, F.SC_DR_STAT_last_status], []⟩ d (Dev.noteLast d x st) := by
  unfold Dev.noteLast
  repeat' (first
    | with_reducible exact Keeps.refl _ _
    | decide +kernel
    | with_reducible assumption
    | lift_lets
    | (intro x; first | (refine Keeps.cut (d0 := d) (d1 := x) ?_ ?_; (on_goal 1 => subst x); (on_goal 2 => (intro _; clear_value x))) | subst x)
    | (apply Keeps.step; with_reducible apply Dev.wr_keeps)
    | (apply Keeps.step; with_reducible apply Dev.bump_keeps)
    | (with_reducible apply Keeps.ite <;> intro _)
    | split)

theorem Dev.showSlots_keeps (d : Dev) (c : Nat) : Keeps ⟨false, [F.CN_STAT_slots], []⟩ d (Dev.showSlots d c) := by
  unfold Dev.showSlots
  repeat' (first
    | with_reducible exact Keeps.refl _ _
    | decide +kernel
    | (intro _ _ k; exact k.le)
    | (apply Keeps.step; with_reducible apply Dev.wr_keeps)
    | (apply Keeps.stepSame; with_reducible apply Dev.foldl_keeps; intro e _))

theorem Dev.dropFrame_keeps (d : Dev) (q i : Nat) : Keeps ⟨false, [F.CN_STAT_slots], [.cn]⟩ d (Dev.dropFrame d q i) := by
  unfold Dev.dropFrame
  repeat' (first
    | with_reducible exact Keeps.refl _ _
    | decide +kernel
    | (intro _ _ k; exact k.le)
    | with_reducible assumption
    | lift_lets
    | (intro x; first | (refine Keeps.cut (d0 := e) (d1 := x) ?_ ?_; (on_goal 1 => subst x); (on_goal 2 => (intro _; clear_value x))) | (refine Keeps.cut (d0 := d) (d1 := x) ?_ ?_; (on_goal 1 => subst x); (on_goal 2 => (intro _; clear_value x))) | subst x)
    | (apply Keeps.stepSame; with_reducible apply Dev.each_keeps; intro e _)
    | (apply Keeps.step; with_reducible apply Dev.setCan_keeps)
    | (apply Keeps.step; with_reducible apply Dev.showSlots_keeps)
    | (with_reducible apply Keeps.ite <;> intro _)
    | split)

theorem Dev.finish_keeps (d : Dev) (q i st : Nat) (partly : Bool) (detail : Nat) : Keeps ⟨false, [F.SC_TM_STAT_last_status, F.SC_TM_CNT_refusals, F.SC_CH_STAT_last_status, F.SC_LV_STAT_last_status, F.SC_DR_STAT_last_status, F.HI_QP_CTRL_draining, F.HI_QP_FLAGS_in_flight, F.CN_STAT_slots, F.FLT_STAT_lost, F.FLT_LOST], [.hi, .cn, .flt]⟩ d (Dev.finish d q i st partly detail) := by
  unfold Dev.finish
  repeat' (first
    | with_reducible exact Keeps.refl _ _
    | decide +kernel
    | with_reducible assumption
    | lift_lets
    | (intro x; first | (refine Keeps.cut (d0 := d) (d1 := x) ?_ ?_; (on_goal 1 => subst x); (on_goal 2 => (intro _; clear_value x))) | subst x)
    | (apply Keeps.step; with_reducible apply Dev.onItem_keeps)
    | (apply Keeps.step; with_reducible apply Dev.drainItems_keeps)
    | (apply Keeps.step; with_reducible apply Dev.noteLast_keeps)
    | (apply Keeps.step; with_reducible apply Dev.dropFrame_keeps)
    | (with_reducible apply Keeps.ite <;> intro _)
    | split
    | beta_reduce)

theorem Dev.finishJob_keeps (d : Dev) (job : Option (Nat × Nat)) (st : Nat) (detail : Nat) : Keeps ⟨false, [F.SC_TM_STAT_last_status, F.SC_TM_CNT_refusals, F.SC_CH_STAT_last_status, F.SC_LV_STAT_last_status, F.SC_DR_STAT_last_status, F.HI_QP_CTRL_draining, F.HI_QP_FLAGS_in_flight, F.CN_STAT_slots, F.FLT_STAT_lost, F.FLT_LOST], [.hi, .cn, .flt]⟩ d (Dev.finishJob d job st detail) := by
  unfold Dev.finishJob
  repeat' (first
    | with_reducible exact Keeps.refl _ _
    | decide +kernel
    | (apply Keeps.step; with_reducible apply Dev.finish_keeps)
    | (with_reducible apply Keeps.ite <;> intro _)
    | split)

theorem Dev.startItem_keeps {W : Foot} (d : Dev) (q i op : Nat) (ph : Phase) (f : Dev → Descr → Dev) (h : ∀ d x, Keeps W d (f d x))
    (hw : ∀ d0 d, Keeps ⟨false, [F.SC_TM_STAT_last_status, F.SC_TM_CNT_refusals, F.SC_CH_STAT_last_status, F.SC_LV_STAT_last_status, F.SC_DR_STAT_last_status, F.HI_QP_CTRL_draining, F.HI_QP_FLAGS_in_flight, F.CN_STAT_slots, F.FLT_STAT_lost, F.FLT_LOST], [.hi, .cn, .flt]⟩ d0 d → Keeps W d0 d) : Keeps W d (d.startItem q i op ph f) := by
  unfold Dev.startItem
  repeat' (first
    | with_reducible exact Keeps.refl _ _
    | (apply Keeps.stepSame; exact h _ _)
    | (refine Keeps.trans ?_ (hw _ _ (Dev.showQp_keeps ..).le))
    | (refine Keeps.trans ?_ (hw _ _ (Dev.onItem_keeps ..).le))
    | (refine Keeps.trans ?_ (hw _ _ (Dev.finish_keeps ..).le))
    | split)


theorem Dev.deliverVector_keeps (d : Dev) (v : Nat) : Keeps ⟨false, [], [.hi]⟩ d (Dev.deliverVector d v) := by
  unfold Dev.deliverVector
  repeat' (first
    | with_reducible exact Keeps.refl _ _
    | decide +kernel
    | with_reducible assumption
    | lift_lets
    | (intro x; first | (refine Keeps.cut (d0 := d) (d1 := x) ?_ ?_; (on_goal 1 => subst x); (on_goal 2 => (intro _; clear_value x))) | subst x)
    | (apply Keeps.step; with_reducible apply Dev.withHi_keeps)
    | (apply Keeps.step; with_reducible apply Dev.emit_keeps)
    | (with_reducible apply Keeps.ite <;> intro _)
    | split)

theorem Dev.writeMsix_keeps (d : Dev) (k : Nat) (w : Word) : Keeps ⟨false, [], [.hi]⟩ d (Dev.writeMsix d k w) := by
  unfold Dev.writeMsix
  repeat' (first
    | with_reducible exact Keeps.refl _ _
    | decide +kernel
    | with_reducible assumption
    | lift_lets
    | (intro x; first | (refine Keeps.cut (d0 := d) (d1 := x) ?_ ?_; (on_goal 1 => subst x); (on_goal 2 => (intro _; clear_value x))) | subst x)
    | (apply Keeps.step; with_reducible apply Dev.withHi_keeps)
    | (apply Keeps.step; with_reducible apply Dev.deliverVector_keeps)
    | (with_reducible apply Keeps.ite <;> intro _)
    | split)

theorem Dev.signal_keeps (d : Dev) (q : Nat) : Keeps ⟨false, [], [.hi]⟩ d (Dev.signal d q) := by
  unfold Dev.signal
  repeat' (first
    | with_reducible exact Keeps.refl _ _
    | decide +kernel
    | with_reducible assumption
    | lift_lets
    | (intro x; first | (refine Keeps.cut (d0 := d) (d1 := x) ?_ ?_; (on_goal 1 => subst x); (on_goal 2 => (intro _; clear_value x))) | subst x)
    | (apply Keeps.step; with_reducible apply Dev.setQp_keeps)
    | (apply Keeps.step; with_reducible apply Dev.deliverVector_keeps)
    | (with_reducible apply Keeps.ite <;> intro _)
    | split)

theorem Dev.moderate_keeps (d : Dev) (q : Nat) (urgent : Bool) : Keeps ⟨false, [], [.hi]⟩ d (Dev.moderate d q urgent) := by
  unfold Dev.moderate
  repeat' (first
    | with_reducible exact Keeps.refl _ _
    | decide +kernel
    | with_reducible assumption
    | lift_lets
    | (intro x; first | (refine Keeps.cut (d0 := d) (d1 := x) ?_ ?_; (on_goal 1 => subst x); (on_goal 2 => (intro _; clear_value x))) | subst x)
    | (apply Keeps.step; with_reducible apply Dev.setQp_keeps)
    | (apply Keeps.step; with_reducible apply Dev.signal_keeps)
    | (with_reducible apply Keeps.ite <;> intro _)
    | split)

theorem Dev.sendRecord_keeps (d : Dev) (q : Nat) (r : StreamRec) : Keeps ⟨false, [], [.hi]⟩ d (Dev.sendRecord d q r) := by
  unfold Dev.sendRecord
  repeat' (first
    | with_reducible exact Keeps.refl _ _
    | decide +kernel
    | (apply Keeps.step; with_reducible apply Dev.withHi_keeps))

theorem Dev.sendEvent_keeps (d : Dev) (bit : Nat) (body : List Word) : Keeps ⟨false, [], [.hi]⟩ d (Dev.sendEvent d bit body) := by
  unfold Dev.sendEvent
  repeat' (first
    | with_reducible exact Keeps.refl _ _
    | decide +kernel
    | (intro _ _ k; exact k.le)
    | (apply Keeps.stepSame; with_reducible apply Dev.each_keeps; intro e _)
    | (apply Keeps.step; with_reducible apply Dev.sendRecord_keeps))

theorem Dev.stateEvent_keeps (d : Dev) (code unit old new : Nat) : Keeps ⟨false, [], [.hi]⟩ d (Dev.stateEvent d code unit old new) := by
  unfold Dev.stateEvent
  repeat' (first
    | with_reducible exact Keeps.refl _ _
    | decide +kernel
    | (apply Keeps.step; with_reducible apply Dev.sendEvent_keeps))

end Sys2Proof.Machine
end

