-- ==== Sys2Proof/Laws/KeepsSeqInputs.lean ====
section
/-! SUPPORT. What the effects of SeqInputs.lean keep. -/

namespace Sys2Proof.Machine

set_option Elab.async false

theorem Dev.noteEdge_keeps (d : Dev) (k : Nat) (rising : Bool) : Keeps ⟨false, [], [.tm]⟩ d (Dev.noteEdge d k rising) := by
  unfold Dev.noteEdge
  repeat' (first
    | with_reducible exact Keeps.refl _ _
    | decide +kernel
    | with_reducible assumption
    | lift_lets
    | (intro x; first | (refine Keeps.cut (d0 := d) (d1 := x) ?_ ?_; (on_goal 1 => subst x); (on_goal 2 => (intro _; clear_value x))) | subst x)
    | (apply Keeps.step; with_reducible apply Dev.setTm_keeps)
    | (with_reducible apply Keeps.ite <;> intro _)
    | split)

theorem Dev.pilotStart_keeps (d : Dev) : Keeps ⟨false, [], [.ch]⟩ d (Dev.pilotStart d) := by
  unfold Dev.pilotStart
  repeat' (first
    | with_reducible exact Keeps.refl _ _
    | decide +kernel
    | (apply Keeps.step; with_reducible apply Dev.withCh_keeps))

theorem Dev.proximity_keeps (d : Dev) (value : Int) (broken : Bool) : Keeps ⟨false, [F.SC_CH_STAT_cable, F.SC_CH_PP_OHM_ohm], [.ch]⟩ d (Dev.proximity d value broken) := by
  unfold Dev.proximity
  repeat' (first
    | with_reducible exact Keeps.refl _ _
    | decide +kernel
    | with_reducible assumption
    | lift_lets
    | (intro x; first | (refine Keeps.cut (d0 := d) (d1 := x) ?_ ?_; (on_goal 1 => subst x); (on_goal 2 => (intro _; clear_value x))) | subst x)
    | (apply Keeps.step; with_reducible apply Dev.withCh_keeps)
    | (apply Keeps.step; with_reducible apply Dev.wr_keeps)
    | (with_reducible apply Keeps.ite <;> intro _)
    | split
    | beta_reduce)

theorem Dev.noteResult_keeps (d : Dev) (c e : Nat) (value : Int) (hold : Nat) : Keeps ⟨false, [F.SC_CH_STAT_cable, F.SC_CH_PP_OHM_ohm], [.ch]⟩ d (Dev.noteResult d c e value hold) := by
  unfold Dev.noteResult
  repeat' (first
    | with_reducible exact Keeps.refl _ _
    | decide +kernel
    | with_reducible assumption
    | lift_lets
    | (intro x; first | (refine Keeps.cut (d0 := d) (d1 := x) ?_ ?_; (on_goal 1 => subst x); (on_goal 2 => (intro _; clear_value x))) | subst x)
    | (apply Keeps.step; with_reducible apply Dev.withCh_keeps)
    | (apply Keeps.step; with_reducible apply Dev.proximity_keeps)
    | (with_reducible apply Keeps.ite <;> intro _)
    | split)

theorem Dev.noteOutput_keeps (d : Dev) (m : Nat) (hi active : Bool) : Keeps ⟨false, [], [.ch]⟩ d (Dev.noteOutput d m hi active) := by
  unfold Dev.noteOutput
  repeat' (first
    | with_reducible exact Keeps.refl _ _
    | decide +kernel
    | (apply Keeps.step; with_reducible apply Dev.withCh_keeps)
    | (with_reducible apply Keeps.ite <;> intro _)
    | split)

theorem Dev.noteActivation_keeps (d : Dev) (kind index : Nat) (hi : Bool) : Keeps ⟨false, [], [.ch]⟩ d (Dev.noteActivation d kind index hi) := by
  unfold Dev.noteActivation
  repeat' (first
    | with_reducible exact Keeps.refl _ _
    | decide +kernel
    | (apply Keeps.step; with_reducible apply Dev.withCh_keeps)
    | (with_reducible apply Keeps.ite <;> intro _)
    | split)

theorem Dev.noteGrid_keeps (d : Dev) : Keeps ⟨false, [], [.ch]⟩ d (Dev.noteGrid d) := by
  unfold Dev.noteGrid
  repeat' (first
    | with_reducible exact Keeps.refl _ _
    | decide +kernel
    | (apply Keeps.step; with_reducible apply Dev.withCh_keeps)
    | (with_reducible apply Keeps.ite <;> intro _)
    | split)

end Sys2Proof.Machine
end

