-- ==== Sys2Proof/Laws/KeepsComparators.lean ====
section
/-! SUPPORT. What the effects of Comparators.lean keep. -/

namespace Sys2Proof.Machine

set_option Elab.async false

theorem Dev.setLive_keeps (d : Dev) (c : Cmp) (hi v : Bool) : Keeps ⟨false, [F.WM_STAT_live_lo, F.WM_STAT_live_hi, F.WM_PC_STAT_live_lo, F.WM_PC_STAT_live_hi, F.WM_EF_STAT_live], []⟩ d (Dev.setLive d c hi v) := by
  unfold Dev.setLive
  repeat' (first
    | with_reducible exact Keeps.refl _ _
    | decide +kernel
    | (apply Keeps.step; with_reducible apply Dev.put_keeps)
    | (with_reducible apply Keeps.ite <;> intro _)
    | split)

theorem Dev.setLatch_keeps (d : Dev) (c : Cmp) (hi v : Bool) : Keeps ⟨false, [F.WM_LATCH_lo, F.WM_LATCH_hi, F.WM_PC_LATCH_lo, F.WM_PC_LATCH_hi], []⟩ d (Dev.setLatch d c hi v) := by
  unfold Dev.setLatch
  repeat' (first
    | with_reducible exact Keeps.refl _ _
    | decide +kernel
    | (apply Keeps.step; with_reducible apply Dev.put_keeps)
    | (with_reducible apply Keeps.ite <;> intro _)
    | split)

theorem Dev.showBand_keeps (d : Dev) (c : Cmp) : Keeps ⟨false, [F.WM_STAT_band_hold, F.WM_PC_STAT_band_hold, F.WM_EF_STAT_band_hold], []⟩ d (Dev.showBand d c) := by
  unfold Dev.showBand
  repeat' (first
    | with_reducible exact Keeps.refl _ _
    | decide +kernel
    | with_reducible assumption
    | lift_lets
    | (intro x; first | (refine Keeps.cut (d0 := d) (d1 := x) ?_ ?_; (on_goal 1 => subst x); (on_goal 2 => (intro _; clear_value x))) | subst x)
    | (apply Keeps.step; with_reducible apply Dev.put_keeps)
    | (with_reducible apply Keeps.ite <;> intro _)
    | split
    | beta_reduce)

theorem Dev.countCmp_keeps (d : Dev) (c : Cmp) : Keeps ⟨false, [F.WM_STAT_count, F.WM_PC_STAT_count], []⟩ d (Dev.countCmp d c) := by
  unfold Dev.countCmp
  repeat' (first
    | with_reducible exact Keeps.refl _ _
    | decide +kernel
    | (apply Keeps.step; with_reducible apply Dev.bump_keeps)
    | (with_reducible apply Keeps.ite <;> intro _)
    | split)

theorem Dev.followThr_keeps (d : Dev) (c : Cmp) (hi : Bool) (fresh : Bool) : Keeps ⟨false, [], [.cv]⟩ d (Dev.followThr d c hi fresh) := by
  unfold Dev.followThr
  repeat' (first
    | with_reducible exact Keeps.refl _ _
    | decide +kernel
    | with_reducible assumption
    | lift_lets
    | (intro x; first | (refine Keeps.cut (d0 := d) (d1 := x) ?_ ?_; (on_goal 1 => subst x); (on_goal 2 => (intro _; clear_value x))) | subst x)
    | (apply Keeps.step; with_reducible apply Dev.setCmp_keeps)
    | (with_reducible apply Keeps.ite <;> intro _)
    | split)

theorem Dev.followCmp_keeps (d : Dev) (c : Cmp) (loFresh hiFresh : Bool) : Keeps ⟨false, [F.WM_STAT_band_hold, F.WM_PC_STAT_band_hold, F.WM_EF_STAT_band_hold], [.cv]⟩ d (Dev.followCmp d c loFresh hiFresh) := by
  unfold Dev.followCmp
  repeat' (first
    | with_reducible exact Keeps.refl _ _
    | decide +kernel
    | (apply Keeps.step; with_reducible apply Dev.showBand_keeps)
    | (apply Keeps.step; with_reducible apply Dev.followThr_keeps))

theorem Dev.activate_keeps (d : Dev) (c : Cmp) (hi : Bool) : Keeps ⟨false, [F.WM_LATCH_lo, F.WM_LATCH_hi, F.WM_PC_LATCH_lo, F.WM_PC_LATCH_hi, F.WM_STAT_count, F.WM_PC_STAT_count, F.FLT_STAT_lost, F.FLT_LOST], [.ch, .flt]⟩ d (Dev.activate d c hi) := by
  unfold Dev.activate
  repeat' (first
    | with_reducible exact Keeps.refl _ _
    | decide +kernel
    | with_reducible assumption
    | lift_lets
    | (intro x; first | (refine Keeps.cut (d0 := d) (d1 := x) ?_ ?_; (on_goal 1 => subst x); (on_goal 2 => (intro _; clear_value x))) | subst x)
    | (apply Keeps.step; with_reducible apply Dev.report_keeps)
    | (apply Keeps.step; with_reducible apply Dev.reportOpen_keeps)
    | (apply Keeps.step; with_reducible apply Dev.noteActivation_keeps)
    | (apply Keeps.step; with_reducible apply Dev.setLatch_keeps)
    | (apply Keeps.step; with_reducible apply Dev.countCmp_keeps)
    | (with_reducible apply Keeps.ite <;> intro _)
    | split)

theorem Dev.quietThr_keeps (d : Dev) (c : Cmp) (hi : Bool) : Keeps ⟨false, [F.WM_STAT_live_lo, F.WM_STAT_live_hi, F.WM_PC_STAT_live_lo, F.WM_PC_STAT_live_hi, F.WM_EF_STAT_live], [.ch]⟩ d (Dev.quietThr d c hi) := by
  unfold Dev.quietThr
  repeat' (first
    | with_reducible exact Keeps.refl _ _
    | decide +kernel
    | with_reducible assumption
    | lift_lets
    | (intro x; first | (refine Keeps.cut (d0 := d) (d1 := x) ?_ ?_; (on_goal 1 => subst x); (on_goal 2 => (intro _; clear_value x))) | subst x)
    | (apply Keeps.step; with_reducible apply Dev.noteOutput_keeps)
    | (apply Keeps.step; with_reducible apply Dev.setLive_keeps)
    | (with_reducible apply Keeps.ite <;> intro _)
    | split)

theorem Dev.passOutput_keeps (d : Dev) (c : Cmp) (hi : Bool) : Keeps ⟨false, [F.TB_STG_RUN_run, F.TB_STG_STAT_running, F.TB_STG_STAT_tripped, F.PG_STAT_out_high, F.PG_STAT_out_low, F.PG_STAT_trip_hold, F.WM_LATCH_lo, F.WM_LATCH_hi, F.WM_PC_LATCH_lo, F.WM_PC_LATCH_hi, F.WM_STAT_live_lo, F.WM_STAT_live_hi, F.WM_STAT_count, F.WM_PC_STAT_live_lo, F.WM_PC_STAT_live_hi, F.WM_PC_STAT_count, F.WM_EF_STAT_live, F.WM_SW_HELD, F.WM_SW_STAT_held, F.WM_SW_STAT_action, F.WM_SW_STAT_cause_kind, F.WM_SW_STAT_cause_index, F.WM_SW_STAT_count, F.WM_SW_TIME_LO, F.WM_SW_TIME_HI, F.SC_ABS_LEFT_left, F.SC_ABS_LEFT_awaiting, F.FLT_STAT_lost, F.FLT_LOST], [.tb, .pp, .cv, .ch, .sc, .flt]⟩ d (Dev.passOutput d c hi) := by
  unfold Dev.passOutput
  repeat' (first
    | with_reducible exact Keeps.refl _ _
    | decide +kernel
    | with_reducible assumption
    | lift_lets
    | (intro x; first | (refine Keeps.cut (d0 := d) (d1 := x) ?_ ?_; (on_goal 1 => subst x); (on_goal 2 => (intro _; clear_value x))) | subst x)
    | (apply Keeps.step; with_reducible apply Dev.stopwork_keeps)
    | (apply Keeps.step; with_reducible apply Dev.noteOutput_keeps)
    | (apply Keeps.step; with_reducible apply Dev.setLive_keeps)
    | (apply Keeps.step; with_reducible apply Dev.activate_keeps)
    | (with_reducible apply Keeps.ite <;> intro _)
    | split)

theorem Dev.efEdge_keeps (d : Dev) (k : Nat) (rising : Bool) : Keeps ⟨false, [F.WM_EF_RISE_LO, F.WM_EF_RISE_HI, F.WM_EF_FALL_LO, F.WM_EF_FALL_HI, F.WM_EF_STAT_rise, F.WM_EF_STAT_fall, F.WM_EF_STAT_edges], [.cv, .be, .tm]⟩ d (Dev.efEdge d k rising) := by
  unfold Dev.efEdge
  repeat' (first
    | with_reducible exact Keeps.refl _ _
    | decide +kernel
    | with_reducible assumption
    | lift_lets
    | (intro x; first | (refine Keeps.cut (d0 := d) (d1 := x) ?_ ?_; (on_goal 1 => subst x); (on_goal 2 => (intro _; clear_value x))) | subst x)
    | (apply Keeps.step; with_reducible apply Dev.wr_keeps)
    | (apply Keeps.step; with_reducible apply Dev.put_keeps)
    | (apply Keeps.step; with_reducible apply Dev.wr64_keeps)
    | (apply Keeps.step; with_reducible apply Dev.setCmp_keeps)
    | (apply Keeps.step; with_reducible apply Dev.sendRec_keeps)
    | (apply Keeps.step; with_reducible apply Dev.noteEdge_keeps)
    | (with_reducible apply Keeps.ite <;> intro _)
    | split
    | beta_reduce)

theorem Dev.efFollow_keeps (d : Dev) (k : Fin 8) : Keeps ⟨false, [F.WM_STAT_band_hold, F.WM_PC_STAT_band_hold, F.WM_EF_RISE_LO, F.WM_EF_RISE_HI, F.WM_EF_FALL_LO, F.WM_EF_FALL_HI, F.WM_EF_STAT_live, F.WM_EF_STAT_band_hold, F.WM_EF_STAT_rise, F.WM_EF_STAT_fall, F.WM_EF_STAT_edges], [.cv, .be, .tm]⟩ d (Dev.efFollow d k) := by
  unfold Dev.efFollow
  repeat' (first
    | with_reducible exact Keeps.refl _ _
    | decide +kernel
    | with_reducible assumption
    | lift_lets
    | (intro x; first | (refine Keeps.cut (d0 := d) (d1 := x) ?_ ?_; (on_goal 1 => subst x); (on_goal 2 => (intro _; clear_value x))) | subst x)
    | (apply Keeps.step; with_reducible apply Dev.put_keeps)
    | (apply Keeps.step; with_reducible apply Dev.followCmp_keeps)
    | (apply Keeps.step; with_reducible apply Dev.efEdge_keeps)
    | (with_reducible apply Keeps.ite <;> intro _)
    | split)

theorem Dev.compareAnew_keeps (d : Dev) (c : Cmp) (lo hi : Bool) : Keeps ⟨false, [F.WM_STAT_band_hold, F.WM_PC_STAT_band_hold, F.WM_EF_RISE_LO, F.WM_EF_RISE_HI, F.WM_EF_FALL_LO, F.WM_EF_FALL_HI, F.WM_EF_STAT_live, F.WM_EF_STAT_band_hold, F.WM_EF_STAT_rise, F.WM_EF_STAT_fall, F.WM_EF_STAT_edges], [.cv, .be, .tm]⟩ d (Dev.compareAnew d c lo hi) := by
  unfold Dev.compareAnew
  repeat' (first
    | with_reducible exact Keeps.refl _ _
    | decide +kernel
    | with_reducible assumption
    | lift_lets
    | (intro x; first | (refine Keeps.cut (d0 := d) (d1 := x) ?_ ?_; (on_goal 1 => subst x); (on_goal 2 => (intro _; clear_value x))) | subst x)
    | (apply Keeps.step; with_reducible apply Dev.put_keeps)
    | (apply Keeps.step; with_reducible apply Dev.followCmp_keeps)
    | (apply Keeps.step; with_reducible apply Dev.efFollow_keeps)
    | (with_reducible apply Keeps.ite <;> intro _)
    | split
    | beta_reduce)

theorem Dev.cmpChanged_keeps (d : Dev) (c : Cmp) (lo hi latched : Bool) : Keeps ⟨false, [F.TB_STG_RUN_run, F.TB_STG_STAT_running, F.TB_STG_STAT_tripped, F.PG_STAT_out_high, F.PG_STAT_out_low, F.PG_STAT_trip_hold, F.WM_LATCH_lo, F.WM_LATCH_hi, F.WM_PC_LATCH_lo, F.WM_PC_LATCH_hi, F.WM_STAT_live_lo, F.WM_STAT_live_hi, F.WM_STAT_band_hold, F.WM_STAT_count, F.WM_PC_STAT_live_lo, F.WM_PC_STAT_live_hi, F.WM_PC_STAT_band_hold, F.WM_PC_STAT_count, F.WM_EF_RISE_LO, F.WM_EF_RISE_HI, F.WM_EF_FALL_LO, F.WM_EF_FALL_HI, F.WM_EF_STAT_live, F.WM_EF_STAT_band_hold, F.WM_EF_STAT_rise, F.WM_EF_STAT_fall, F.WM_EF_STAT_edges, F.WM_SW_HELD, F.WM_SW_STAT_held, F.WM_SW_STAT_action, F.WM_SW_STAT_cause_kind, F.WM_SW_STAT_cause_index, F.WM_SW_STAT_count, F.WM_SW_TIME_LO, F.WM_SW_TIME_HI, F.SC_ABS_LEFT_left, F.SC_ABS_LEFT_awaiting, F.FLT_STAT_lost, F.FLT_LOST], [.tb, .pp, .cv, .be, .tm, .ch, .sc, .flt]⟩ d (Dev.cmpChanged d c lo hi latched) := by
  unfold Dev.cmpChanged
  repeat' (first
    | with_reducible exact Keeps.refl _ _
    | decide +kernel
    | with_reducible assumption
    | lift_lets
    | (intro x; first | (refine Keeps.cut (d0 := d) (d1 := x) ?_ ?_; (on_goal 1 => subst x); (on_goal 2 => (intro _; clear_value x))) | subst x)
    | (apply Keeps.step; with_reducible apply Dev.stopwork_keeps)
    | (apply Keeps.step; with_reducible apply Dev.activate_keeps)
    | (apply Keeps.step; with_reducible apply Dev.quietThr_keeps)
    | (apply Keeps.step; with_reducible apply Dev.compareAnew_keeps)
    | (with_reducible apply Keeps.ite <;> intro _)
    | split)

theorem Dev.cmpInput_keeps (d : Dev) (c : Cmp) (x : Int) : Keeps ⟨false, [F.WM_STAT_band_hold, F.WM_PC_STAT_band_hold, F.WM_EF_RISE_LO, F.WM_EF_RISE_HI, F.WM_EF_FALL_LO, F.WM_EF_FALL_HI, F.WM_EF_STAT_live, F.WM_EF_STAT_band_hold, F.WM_EF_STAT_rise, F.WM_EF_STAT_fall, F.WM_EF_STAT_edges], [.cv, .be, .tm]⟩ d (Dev.cmpInput d c x) := by
  unfold Dev.cmpInput
  repeat' (first
    | with_reducible exact Keeps.refl _ _
    | decide +kernel
    | with_reducible assumption
    | lift_lets
    | (intro x; first | (refine Keeps.cut (d0 := d) (d1 := x) ?_ ?_; (on_goal 1 => subst x); (on_goal 2 => (intro _; clear_value x))) | subst x)
    | (apply Keeps.step; with_reducible apply Dev.setCmp_keeps)
    | (apply Keeps.step; with_reducible apply Dev.followCmp_keeps)
    | (apply Keeps.step; with_reducible apply Dev.efFollow_keeps)
    | (with_reducible apply Keeps.ite <;> intro _)
    | split
    | beta_reduce)

theorem Dev.force_keeps (d : Dev) (k : Nat) (off : Bool) : Keeps ⟨false, [F.TB_STG_RUN_run, F.TB_STG_STAT_running, F.TB_STG_STAT_tripped, F.PG_STAT_out_high, F.PG_STAT_out_low, F.PG_STAT_trip_hold, F.WM_SW_HELD, F.WM_SW_CTRL_cmd, F.WM_SW_CTRL_status, F.WM_SW_STAT_held, F.WM_SW_STAT_action, F.WM_SW_STAT_cause_kind, F.WM_SW_STAT_cause_index, F.WM_SW_STAT_count, F.WM_SW_TIME_LO, F.WM_SW_TIME_HI, F.SC_ABS_LEFT_left, F.SC_ABS_LEFT_awaiting, F.FLT_STAT_lost, F.FLT_LOST], [.tb, .pp, .cv, .sc, .flt]⟩ d (Dev.force d k off) := by
  unfold Dev.force
  repeat' (first
    | with_reducible exact Keeps.refl _ _
    | decide +kernel
    | with_reducible assumption
    | lift_lets
    | (intro x; first | (refine Keeps.cut (d0 := d) (d1 := x) ?_ ?_; (on_goal 1 => subst x); (on_goal 2 => (intro _; clear_value x))) | subst x)
    | (apply Keeps.step; with_reducible apply Dev.wr_keeps)
    | (apply Keeps.step; with_reducible apply Dev.setStop_keeps)
    | (apply Keeps.step; with_reducible apply Dev.arbitrate_keeps)
    | (with_reducible apply Keeps.ite <;> intro _)
    | split)

theorem Dev.release_keeps (d : Dev) (k : Nat) : Keeps ⟨false, [F.FAB_WRITE_ERR, F.FAB_WRITE_ERR_more, F.FAB_WRITE_DATA, F.FAB_WRITE_CNT, F.TB_STG_STAT_tripped, F.WM_SW_HELD, F.WM_SW_CTRL_cmd, F.WM_SW_CTRL_status, F.WM_SW_STAT_held], [.cv]⟩ d (Dev.release d k) := by
  unfold Dev.release
  repeat' (first
    | with_reducible exact Keeps.refl _ _
    | decide +kernel
    | with_reducible assumption
    | lift_lets
    | (intro x; first | (refine Keeps.cut (d0 := d) (d1 := x) ?_ ?_; (on_goal 1 => subst x); (on_goal 2 => (intro _; clear_value x))) | subst x)
    | (apply Keeps.step; with_reducible apply Dev.wr_keeps)
    | (apply Keeps.step; with_reducible apply Dev.put_keeps)
    | (apply Keeps.step; with_reducible apply Dev.setStop_keeps)
    | (apply Keeps.step; with_reducible apply Dev.reject_keeps)
    | (with_reducible apply Keeps.ite <;> intro _)
    | split)

theorem Dev.tripIn_keeps (d : Dev) (n : Nat) (level : Bool) : Keeps ⟨false, [F.TB_STG_RUN_run, F.TB_STG_STAT_running, F.TB_STG_STAT_tripped, F.PG_STAT_out_high, F.PG_STAT_out_low, F.PG_STAT_trip_hold, F.WM_SW_IN_STAT_live, F.WM_SW_IN_STAT_seen, F.WM_SW_HELD, F.WM_SW_STAT_held, F.WM_SW_STAT_action, F.WM_SW_STAT_cause_kind, F.WM_SW_STAT_cause_index, F.WM_SW_STAT_count, F.WM_SW_TIME_LO, F.WM_SW_TIME_HI, F.SC_ABS_LEFT_left, F.SC_ABS_LEFT_awaiting, F.FLT_STAT_lost, F.FLT_LOST], [.tb, .pp, .cv, .sc, .flt]⟩ d (Dev.tripIn d n level) := by
  unfold Dev.tripIn
  repeat' (first
    | with_reducible exact Keeps.refl _ _
    | decide +kernel
    | with_reducible assumption
    | lift_lets
    | (intro x; first | (refine Keeps.cut (d0 := d) (d1 := x) ?_ ?_; (on_goal 1 => subst x); (on_goal 2 => (intro _; clear_value x))) | subst x)
    | (apply Keeps.step; with_reducible apply Dev.wr_keeps)
    | (apply Keeps.step; with_reducible apply Dev.stopwork_keeps)
    | (with_reducible apply Keeps.ite <;> intro _)
    | split)

theorem execComparatorCrossing_runs (t : Nat) (c : Cmp) (x : Int) (s : State) :
    Runs ⟨false, [F.WM_STAT_band_hold, F.WM_PC_STAT_band_hold, F.WM_EF_RISE_LO, F.WM_EF_RISE_HI, F.WM_EF_FALL_LO, F.WM_EF_FALL_HI, F.WM_EF_STAT_live, F.WM_EF_STAT_band_hold, F.WM_EF_STAT_rise, F.WM_EF_STAT_fall, F.WM_EF_STAT_edges], [.cv, .be, .tm]⟩ t s (execComparatorCrossing t c x s) := by
  unfold execComparatorCrossing
  refine Runs.of fun d => ?_
  repeat' (first
    | with_reducible exact Keeps.refl _ _
    | decide +kernel
    | (apply Keeps.step; with_reducible apply Dev.cmpInput_keeps))

theorem execFilteredOutputChange_runs (t : Nat) (c : Cmp) (hi : Bool) (s : State) :
    Runs ⟨false, [F.TB_STG_RUN_run, F.TB_STG_STAT_running, F.TB_STG_STAT_tripped, F.PG_STAT_out_high, F.PG_STAT_out_low, F.PG_STAT_trip_hold, F.WM_LATCH_lo, F.WM_LATCH_hi, F.WM_PC_LATCH_lo, F.WM_PC_LATCH_hi, F.WM_STAT_live_lo, F.WM_STAT_live_hi, F.WM_STAT_count, F.WM_PC_STAT_live_lo, F.WM_PC_STAT_live_hi, F.WM_PC_STAT_count, F.WM_EF_STAT_live, F.WM_SW_HELD, F.WM_SW_STAT_held, F.WM_SW_STAT_action, F.WM_SW_STAT_cause_kind, F.WM_SW_STAT_cause_index, F.WM_SW_STAT_count, F.WM_SW_TIME_LO, F.WM_SW_TIME_HI, F.SC_ABS_LEFT_left, F.SC_ABS_LEFT_awaiting, F.FLT_STAT_lost, F.FLT_LOST], [.tb, .pp, .cv, .ch, .sc, .flt]⟩ t s (execFilteredOutputChange t c hi s) := by
  unfold execFilteredOutputChange
  refine Runs.of fun d => ?_
  repeat' (first
    | with_reducible exact Keeps.refl _ _
    | decide +kernel
    | (apply Keeps.step; with_reducible apply Dev.passOutput_keeps))

theorem Dev.clearLatch_keeps (d : Dev) (c : Cmp) (lo hi : Bool) : Keeps ⟨false, [F.WM_LATCH_lo, F.WM_LATCH_hi, F.WM_PC_LATCH_lo, F.WM_PC_LATCH_hi], []⟩ d (Dev.clearLatch d c lo hi) := by
  unfold Dev.clearLatch
  repeat' (first
    | with_reducible exact Keeps.refl _ _
    | decide +kernel
    | with_reducible assumption
    | lift_lets
    | (intro x; first | (refine Keeps.cut (d0 := d) (d1 := x) ?_ ?_; (on_goal 1 => subst x); (on_goal 2 => (intro _; clear_value x))) | subst x)
    | (apply Keeps.step; with_reducible apply Dev.setLatch_keeps)
    | (with_reducible apply Keeps.ite <;> intro _)
    | split)

theorem execLatchClear_runs (t : Nat) (c : Cmp) (lo hi : Bool) (s : State) :
    Runs ⟨false, [F.FAB_WRITE_ERR, F.FAB_WRITE_ERR_more, F.FAB_WRITE_DATA, F.FAB_WRITE_CNT, F.WM_LATCH_lo, F.WM_LATCH_hi, F.WM_PC_LATCH_lo, F.WM_PC_LATCH_hi], []⟩ t s (execLatchClear t c lo hi s) := by
  unfold execLatchClear fromFirmware
  refine Runs.of fun d => ?_
  repeat' (first
    | with_reducible exact Keeps.refl _ _
    | decide +kernel
    | with_reducible assumption
    | lift_lets
    | (intro x; first | (refine Keeps.cut (d0 := d) (d1 := x) ?_ ?_; (on_goal 1 => subst x); (on_goal 2 => (intro _; clear_value x))) | subst x)
    | (apply Keeps.step; with_reducible apply Dev.reject_keeps)
    | (apply Keeps.step; with_reducible apply Dev.clearLatch_keeps)
    | (with_reducible apply Keeps.ite <;> intro _)
    | split
    | beta_reduce
    | beta_reduce)

theorem execEdgeFlagEdge_runs (t : Nat) (k : Fin 8) (x : Int) (s : State) :
    Runs ⟨false, [F.WM_STAT_band_hold, F.WM_PC_STAT_band_hold, F.WM_EF_RISE_LO, F.WM_EF_RISE_HI, F.WM_EF_FALL_LO, F.WM_EF_FALL_HI, F.WM_EF_STAT_live, F.WM_EF_STAT_band_hold, F.WM_EF_STAT_rise, F.WM_EF_STAT_fall, F.WM_EF_STAT_edges], [.cv, .be, .tm]⟩ t s (execEdgeFlagEdge t k x s) := by
  unfold execEdgeFlagEdge
  refine Runs.of fun d => ?_
  repeat' (first
    | with_reducible exact Keeps.refl _ _
    | decide +kernel
    | (apply Keeps.step; with_reducible apply Dev.cmpInput_keeps))

theorem execTripInChange_runs (t : Nat) (n : Fin 4) (h : HeldLevel) (s : State) :
    Runs ⟨false, [F.TB_STG_RUN_run, F.TB_STG_STAT_running, F.TB_STG_STAT_tripped, F.PG_STAT_out_high, F.PG_STAT_out_low, F.PG_STAT_trip_hold, F.WM_SW_IN_STAT_live, F.WM_SW_IN_STAT_seen, F.WM_SW_HELD, F.WM_SW_STAT_held, F.WM_SW_STAT_action, F.WM_SW_STAT_cause_kind, F.WM_SW_STAT_cause_index, F.WM_SW_STAT_count, F.WM_SW_TIME_LO, F.WM_SW_TIME_HI, F.SC_ABS_LEFT_left, F.SC_ABS_LEFT_awaiting, F.FLT_STAT_lost, F.FLT_LOST], [.tb, .pp, .cv, .sc, .flt]⟩ t s (execTripInChange t n h s) := by
  unfold execTripInChange
  refine Runs.of fun d => ?_
  repeat' (first
    | with_reducible exact Keeps.refl _ _
    | decide +kernel
    | (apply Keeps.step; with_reducible apply Dev.tripIn_keeps)
    | (with_reducible apply Keeps.ite <;> intro _)
    | split)

theorem execLowDelayExpiry_runs (t : Nat) (k : Fin 21) (s : State) :
    Runs ⟨false, [F.PG_STAT_out_high, F.PG_STAT_out_low, F.PG_STAT_trip_hold], [.tb, .pp, .cv]⟩ t s (execLowDelayExpiry t k s) := by
  unfold execLowDelayExpiry
  refine Runs.of fun d => ?_
  repeat' (first
    | with_reducible exact Keeps.refl _ _
    | decide +kernel
    | with_reducible assumption
    | lift_lets
    | (intro x; first | (refine Keeps.cut (d0 := d) (d1 := x) ?_ ?_; (on_goal 1 => subst x); (on_goal 2 => (intro _; clear_value x))) | subst x)
    | (apply Keeps.step; with_reducible apply Dev.setStop_keeps)
    | (apply Keeps.step; with_reducible apply Dev.actionAtStage_keeps)
    | (with_reducible apply Keeps.ite <;> intro _)
    | split)

theorem execForceAct_runs (t : Nat) (k : Fin 21) (s : State) :
    Runs ⟨false, [F.TB_STG_RUN_run, F.TB_STG_STAT_running, F.TB_STG_STAT_tripped, F.PG_STAT_out_high, F.PG_STAT_out_low, F.PG_STAT_trip_hold, F.WM_SW_HELD, F.WM_SW_CTRL_cmd, F.WM_SW_CTRL_status, F.WM_SW_STAT_held, F.WM_SW_STAT_action, F.WM_SW_STAT_cause_kind, F.WM_SW_STAT_cause_index, F.WM_SW_STAT_count, F.WM_SW_TIME_LO, F.WM_SW_TIME_HI, F.SC_ABS_LEFT_left, F.SC_ABS_LEFT_awaiting, F.FLT_STAT_lost, F.FLT_LOST], [.tb, .pp, .cv, .sc, .flt]⟩ t s (execForceAct t k s) := by
  unfold execForceAct fromFirmware
  refine Runs.of fun d => ?_
  repeat' (first
    | with_reducible exact Keeps.refl _ _
    | decide +kernel
    | (apply Keeps.step; with_reducible apply Dev.force_keeps)
    | (with_reducible apply Keeps.ite <;> intro _)
    | beta_reduce)

theorem execForceOff_runs (t : Nat) (k : Fin 21) (s : State) :
    Runs ⟨false, [F.TB_STG_RUN_run, F.TB_STG_STAT_running, F.TB_STG_STAT_tripped, F.PG_STAT_out_high, F.PG_STAT_out_low, F.PG_STAT_trip_hold, F.WM_SW_HELD, F.WM_SW_CTRL_cmd, F.WM_SW_CTRL_status, F.WM_SW_STAT_held, F.WM_SW_STAT_action, F.WM_SW_STAT_cause_kind, F.WM_SW_STAT_cause_index, F.WM_SW_STAT_count, F.WM_SW_TIME_LO, F.WM_SW_TIME_HI, F.SC_ABS_LEFT_left, F.SC_ABS_LEFT_awaiting, F.FLT_STAT_lost, F.FLT_LOST], [.tb, .pp, .cv, .sc, .flt]⟩ t s (execForceOff t k s) := by
  unfold execForceOff fromFirmware
  refine Runs.of fun d => ?_
  repeat' (first
    | with_reducible exact Keeps.refl _ _
    | decide +kernel
    | (apply Keeps.step; with_reducible apply Dev.force_keeps)
    | (with_reducible apply Keeps.ite <;> intro _)
    | beta_reduce)

theorem execRelease_runs (t : Nat) (k : Fin 21) (s : State) :
    Runs ⟨false, [F.FAB_WRITE_ERR, F.FAB_WRITE_ERR_more, F.FAB_WRITE_DATA, F.FAB_WRITE_CNT, F.TB_STG_STAT_tripped, F.WM_SW_HELD, F.WM_SW_CTRL_cmd, F.WM_SW_CTRL_status, F.WM_SW_STAT_held], [.cv]⟩ t s (execRelease t k s) := by
  unfold execRelease fromFirmware
  refine Runs.of fun d => ?_
  repeat' (first
    | with_reducible exact Keeps.refl _ _
    | decide +kernel
    | (apply Keeps.step; with_reducible apply Dev.release_keeps)
    | (with_reducible apply Keeps.ite <;> intro _)
    | beta_reduce)

end Sys2Proof.Machine
end

