-- ==== Sys2Proof/Laws/KeepsThermal.lean ====
section
/-! SUPPORT. What the effects of Thermal.lean keep. -/

namespace Sys2Proof.Machine

set_option Elab.async false

theorem Dev.derateStage_keeps (d : Dev) (s : Nat) : Keeps ⟨false, [F.FLT_STAT_lost, F.FLT_LOST, F.THM_STAGE_MAX, F.THM_DERATE], [.flt, .pw]⟩ d (Dev.derateStage d s) := by
  unfold Dev.derateStage
  repeat' (first
    | with_reducible exact Keeps.refl _ _
    | decide +kernel
    | with_reducible assumption
    | lift_lets
    | (intro x; first | (refine Keeps.cut (d0 := d) (d1 := x) ?_ ?_; (on_goal 1 => subst x); (on_goal 2 => (intro _; clear_value x))) | subst x)
    | (apply Keeps.step; with_reducible apply Dev.withPw_keeps)
    | (apply Keeps.step; with_reducible apply Dev.wr_keeps)
    | (apply Keeps.step; with_reducible apply Dev.wrInt_keeps)
    | (apply Keeps.step; with_reducible apply Dev.report_keeps)
    | (apply Keeps.step; with_reducible apply Dev.reportOpen_keeps)
    | (with_reducible apply Keeps.ite <;> intro _)
    | split)

theorem Dev.derateAll_keeps (d : Dev) : Keeps ⟨false, [F.FLT_STAT_lost, F.FLT_LOST, F.THM_MAX, F.THM_STAGE_MAX, F.THM_DERATE], [.flt, .pw]⟩ d (Dev.derateAll d) := by
  unfold Dev.derateAll
  repeat' (first
    | with_reducible exact Keeps.refl _ _
    | decide +kernel
    | (intro _ _ k; exact k.le)
    | with_reducible assumption
    | lift_lets
    | (intro x; first | (refine Keeps.cut (d0 := e) (d1 := x) ?_ ?_; (on_goal 1 => subst x); (on_goal 2 => (intro _; clear_value x))) | (refine Keeps.cut (d0 := d) (d1 := x) ?_ ?_; (on_goal 1 => subst x); (on_goal 2 => (intro _; clear_value x))) | subst x)
    | (apply Keeps.stepSame; with_reducible apply Dev.each_keeps; intro e _)
    | (apply Keeps.step; with_reducible apply Dev.wrInt_keeps)
    | (apply Keeps.step; with_reducible apply Dev.derateStage_keeps)
    | (with_reducible apply Keeps.ite <;> intro _)
    | split
    | beta_reduce)

theorem Dev.takeTn_keeps (d : Dev) (s code : Nat) : Keeps ⟨false, [F.FLT_STAT_lost, F.FLT_LOST, F.THM_STAGE_MAX, F.THM_DERATE, F.THM_TN], [.flt, .pw]⟩ d (Dev.takeTn d s code) := by
  unfold Dev.takeTn
  repeat' (first
    | with_reducible exact Keeps.refl _ _
    | decide +kernel
    | with_reducible assumption
    | lift_lets
    | (intro x; first | (refine Keeps.cut (d0 := d) (d1 := x) ?_ ?_; (on_goal 1 => subst x); (on_goal 2 => (intro _; clear_value x))) | subst x)
    | (apply Keeps.step; with_reducible apply Dev.withPw_keeps)
    | (apply Keeps.step; with_reducible apply Dev.wr_keeps)
    | (apply Keeps.step; with_reducible apply Dev.derateStage_keeps)
    | (with_reducible apply Keeps.ite <;> intro _)
    | split)

theorem Dev.takePv_keeps (d : Dev) (s code : Nat) : Keeps ⟨false, [F.FLT_STAT_lost, F.FLT_LOST, F.THM_STAGE_MAX, F.THM_DERATE, F.THM_PVT], [.flt, .pw]⟩ d (Dev.takePv d s code) := by
  unfold Dev.takePv
  repeat' (first
    | with_reducible exact Keeps.refl _ _
    | decide +kernel
    | with_reducible assumption
    | lift_lets
    | (intro x; first | (refine Keeps.cut (d0 := d) (d1 := x) ?_ ?_; (on_goal 1 => subst x); (on_goal 2 => (intro _; clear_value x))) | subst x)
    | (apply Keeps.step; with_reducible apply Dev.wr_keeps)
    | (apply Keeps.step; with_reducible apply Dev.derateStage_keeps)
    | (with_reducible apply Keeps.ite <;> intro _)
    | split)

end Sys2Proof.Machine
end

