-- ==== Sys2Proof/Laws/KeepsSampling.lean ====
section
/-! SUPPORT. What the effects of Sampling.lean keep. -/

namespace Sys2Proof.Machine

set_option Elab.async false

theorem Dev.applyLocked_keeps (d : Dev) (s : Nat) : Keeps ⟨false, [F.PG_CMP_A_value, F.PG_CMP_B_value], []⟩ d (Dev.applyLocked d s) := by
  unfold Dev.applyLocked
  repeat' (first
    | with_reducible exact Keeps.refl _ _
    | decide +kernel
    | (intro _ _ k; exact k.le)
    | (apply Keeps.step; with_reducible apply Dev.wr_keeps)
    | (apply Keeps.stepSame; with_reducible apply Dev.foldl_keeps; intro e _)
    | (with_reducible apply Keeps.ite <;> intro _)
    | split)

theorem Dev.spanResult_keeps (d : Dev) (s : Nat) (both : Bool) : Keeps ⟨false, [F.SH_STAT_short_run, F.SH_STAT_run_len, F.FLT_STAT_lost, F.FLT_LOST], [.flt]⟩ d (Dev.spanResult d s both) := by
  unfold Dev.spanResult
  repeat' (first
    | with_reducible exact Keeps.refl _ _
    | decide +kernel
    | with_reducible assumption
    | lift_lets
    | (intro x; first | (refine Keeps.cut (d0 := d) (d1 := x) ?_ ?_; (on_goal 1 => subst x); (on_goal 2 => (intro _; clear_value x))) | subst x)
    | (apply Keeps.step; with_reducible apply Dev.wr_keeps)
    | (apply Keeps.step; with_reducible apply Dev.put_keeps)
    | (apply Keeps.step; with_reducible apply Dev.bump_keeps)
    | (apply Keeps.step; with_reducible apply Dev.report_keeps)
    | (with_reducible apply Keeps.ite <;> intro _)
    | split)

theorem Dev.noteInst_keeps (d : Dev) (s : Nat) (wanted short : Bool) (i : Inst) : Keeps ⟨false, [F.SH_STAT_short, F.SH_STAT_accepted, F.SH_STAT_unplaced, F.SH_STAT_short_cnt], []⟩ d (Dev.noteInst d s wanted short i) := by
  unfold Dev.noteInst
  repeat' (first
    | with_reducible exact Keeps.refl _ _
    | decide +kernel
    | (apply Keeps.step; with_reducible apply Dev.put_keeps)
    | (apply Keeps.step; with_reducible apply Dev.bump_keeps)
    | (with_reducible apply Keeps.ite <;> intro _)
    | split)

theorem Dev.plan_keeps (d : Dev) (s : Nat) : Keeps ⟨false, [F.PG_CMP_A_value, F.PG_CMP_B_value, F.SH_STAT_short, F.SH_STAT_accepted, F.SH_STAT_unplaced, F.SH_STAT_short_cnt], [.tb]⟩ d (Dev.plan d s) := by
  unfold Dev.plan
  dsimp only
  repeat' (first
    | with_reducible exact Keeps.refl _ _
    | decide +kernel
    | (apply Keeps.step; with_reducible apply Dev.setStg_keeps)
    | (apply Keeps.step; with_reducible apply Dev.spanResult_keeps)
    | (apply Keeps.step; with_reducible apply Dev.noteInst_keeps)
    | (apply Keeps.stepSame; with_reducible apply Dev.pipe_keeps; intro e)
    | decide +kernel
    | (with_reducible apply Keeps.ite <;> intro _)
    | split)

theorem Dev.shuntRecord_keeps (d : Dev) (s : Nat) (isB : Bool) (current info : Word) (stamp beat : Nat) : Keeps ⟨false, [F.SH_RES_A, F.SH_RES_B, F.SH_INFO_A, F.SH_INFO_B, F.SH_STAMP_A_LO, F.SH_STAMP_A_HI, F.SH_STAMP_B_LO, F.SH_STAMP_B_HI], [.be]⟩ d (Dev.shuntRecord d s isB current info stamp beat) := by
  unfold Dev.shuntRecord
  repeat' (first
    | with_reducible exact Keeps.refl _ _
    | decide +kernel
    | with_reducible assumption
    | lift_lets
    | (intro x; first | (refine Keeps.cut (d0 := d) (d1 := x) ?_ ?_; (on_goal 1 => subst x); (on_goal 2 => (intro _; clear_value x))) | subst x)
    | (apply Keeps.step; with_reducible apply Dev.wr_keeps)
    | (apply Keeps.step; with_reducible apply Dev.wr64_keeps)
    | (apply Keeps.step; with_reducible apply Dev.sendRec_keeps)
    | (with_reducible apply Keeps.ite <;> intro _)
    | split)

theorem Dev.unplacedRecord_keeps (d : Dev) (s : Nat) (isB : Bool) (i : Inst) : Keeps ⟨false, [F.SH_RES_A, F.SH_RES_B, F.SH_INFO_A, F.SH_INFO_B, F.SH_STAMP_A_LO, F.SH_STAMP_A_HI, F.SH_STAMP_B_LO, F.SH_STAMP_B_HI], [.be]⟩ d (Dev.unplacedRecord d s isB i) := by
  unfold Dev.unplacedRecord
  repeat' (first
    | with_reducible exact Keeps.refl _ _
    | decide +kernel
    | (apply Keeps.step; with_reducible apply Dev.shuntRecord_keeps)
    | (with_reducible apply Keeps.ite <;> intro _)
    | split)

theorem Dev.sampleDone_keeps (d : Dev) (s : Nat) (x : Samp) (code : Int) (shift : Nat) : Keeps ⟨false, [F.PP_STAT_chopper_open, F.PP_CNT_chopper_open, F.SH_RES_A, F.SH_RES_B, F.SH_INFO_A, F.SH_INFO_B, F.SH_STAMP_A_LO, F.SH_STAMP_A_HI, F.SH_STAMP_B_LO, F.SH_STAMP_B_HI, F.SH_STAT_sat, F.FLT_STAT_lost, F.FLT_LOST], [.sh, .be, .flt]⟩ d (Dev.sampleDone d s x code shift) := by
  unfold Dev.sampleDone
  repeat' (first
    | with_reducible exact Keeps.refl _ _
    | decide +kernel
    | with_reducible assumption
    | lift_lets
    | (intro x; first | (refine Keeps.cut (d0 := d) (d1 := x) ?_ ?_; (on_goal 1 => subst x); (on_goal 2 => (intro _; clear_value x))) | subst x)
    | (apply Keeps.step; with_reducible apply Dev.put_keeps)
    | (apply Keeps.step; with_reducible apply Dev.setShunt_keeps)
    | (apply Keeps.step; with_reducible apply Dev.chopperCheck_keeps)
    | (apply Keeps.step; with_reducible apply Dev.shuntRecord_keeps)
    | (with_reducible apply Keeps.ite <;> intro _)
    | split)

theorem Dev.heavyDone_keeps (d : Dev) (s : Nat) (isB : Bool) (code : Int) : Keeps ⟨false, [F.PP_STAT_chopper_open, F.PP_CNT_chopper_open, F.SH_RES_A, F.SH_RES_B, F.SH_INFO_A, F.SH_INFO_B, F.SH_STAMP_A_LO, F.SH_STAMP_A_HI, F.SH_STAMP_B_LO, F.SH_STAMP_B_HI, F.SH_STAT_sat, F.FLT_STAT_lost, F.FLT_LOST], [.sh, .be, .flt]⟩ d (Dev.heavyDone d s isB code) := by
  unfold Dev.heavyDone
  repeat' (first
    | with_reducible exact Keeps.refl _ _
    | decide +kernel
    | (apply Keeps.step; with_reducible apply Dev.sampleDone_keeps)
    | (with_reducible apply Keeps.ite <;> intro _)
    | split)

theorem Dev.lightDone_keeps (d : Dev) (s : Nat) (isB : Bool) (code : Int) (late : Nat) : Keeps ⟨false, [F.PP_STAT_chopper_open, F.PP_CNT_chopper_open, F.SH_RES_A, F.SH_RES_B, F.SH_INFO_A, F.SH_INFO_B, F.SH_STAMP_A_LO, F.SH_STAMP_A_HI, F.SH_STAMP_B_LO, F.SH_STAMP_B_HI, F.SH_STAT_sat, F.CV_STAT_urgent, F.FLT_STAT_lost, F.FLT_LOST], [.sh, .cv, .be, .flt]⟩ d (Dev.lightDone d s isB code late) := by
  unfold Dev.lightDone
  repeat' (first
    | with_reducible exact Keeps.refl _ _
    | decide +kernel
    | with_reducible assumption
    | lift_lets
    | (intro x; first | (refine Keeps.cut (d0 := d) (d1 := x) ?_ ?_; (on_goal 1 => subst x); (on_goal 2 => (intro _; clear_value x))) | subst x)
    | (apply Keeps.step; with_reducible apply Dev.takeTriggers_keeps)
    | (apply Keeps.step; with_reducible apply Dev.endUrgentConv_keeps)
    | (apply Keeps.step; with_reducible apply Dev.sampleDone_keeps)
    | (with_reducible apply Keeps.ite <;> intro _)
    | split
    | beta_reduce)

theorem Dev.shuntDone_keeps (d : Dev) (s : Nat) (isB : Bool) (code : Int) (shift : Nat) : Keeps ⟨false, [F.PP_STAT_chopper_open, F.PP_CNT_chopper_open, F.SH_RES_A, F.SH_RES_B, F.SH_INFO_A, F.SH_INFO_B, F.SH_STAMP_A_LO, F.SH_STAMP_A_HI, F.SH_STAMP_B_LO, F.SH_STAMP_B_HI, F.SH_STAT_sat, F.CV_STAT_urgent, F.FLT_STAT_lost, F.FLT_LOST], [.sh, .cv, .be, .flt]⟩ d (Dev.shuntDone d s isB code shift) := by
  unfold Dev.shuntDone
  repeat' (first
    | with_reducible exact Keeps.refl _ _
    | decide +kernel
    | (apply Keeps.step; with_reducible apply Dev.heavyDone_keeps)
    | (apply Keeps.step; with_reducible apply Dev.lightDone_keeps)
    | (with_reducible apply Keeps.ite <;> intro _)
    | split)

theorem Dev.hkStart_keeps (d : Dev) (s n : Nat) : Keeps ⟨false, [], [.sh]⟩ d (Dev.hkStart d s n) := by
  unfold Dev.hkStart
  repeat' (first
    | with_reducible exact Keeps.refl _ _
    | decide +kernel
    | with_reducible assumption
    | lift_lets
    | (intro x; first | (refine Keeps.cut (d0 := d) (d1 := x) ?_ ?_; (on_goal 1 => subst x); (on_goal 2 => (intro _; clear_value x))) | subst x)
    | (apply Keeps.step; with_reducible apply Dev.setShunt_keeps)
    | (with_reducible apply Keeps.ite <;> intro _)
    | split)

theorem Dev.hkEnd_keeps (d : Dev) (s : Nat) : Keeps ⟨false, [], [.sh]⟩ d (Dev.hkEnd d s) := by
  unfold Dev.hkEnd
  repeat' (first
    | with_reducible exact Keeps.refl _ _
    | decide +kernel
    | with_reducible assumption
    | lift_lets
    | (intro x; first | (refine Keeps.cut (d0 := d) (d1 := x) ?_ ?_; (on_goal 1 => subst x); (on_goal 2 => (intro _; clear_value x))) | subst x)
    | (apply Keeps.step; with_reducible apply Dev.setShunt_keeps)
    | (with_reducible apply Keeps.ite <;> intro _)
    | split
    | beta_reduce)

theorem Dev.noteVolts_keeps (d : Dev) (s code scale : Nat) : Keeps ⟨false, [F.SH_STAT_sat], []⟩ d (Dev.noteVolts d s code scale) := by
  unfold Dev.noteVolts
  repeat' (first
    | with_reducible exact Keeps.refl _ _
    | decide +kernel
    | (apply Keeps.step; with_reducible apply Dev.put_keeps)
    | (with_reducible apply Keeps.ite <;> intro _)
    | split)

theorem Dev.trackFollow_keeps (d : Dev) (s : Nat) : Keeps ⟨false, [F.WM_STAT_band_hold, F.WM_PC_STAT_band_hold, F.WM_EF_RISE_LO, F.WM_EF_RISE_HI, F.WM_EF_FALL_LO, F.WM_EF_FALL_HI, F.WM_EF_STAT_live, F.WM_EF_STAT_band_hold, F.WM_EF_STAT_rise, F.WM_EF_STAT_fall, F.WM_EF_STAT_edges], [.cv, .be, .tm]⟩ d (Dev.trackFollow d s) := by
  unfold Dev.trackFollow
  repeat' (first
    | with_reducible exact Keeps.refl _ _
    | decide +kernel
    | (apply Keeps.step; with_reducible apply Dev.efFollow_keeps)
    | (with_reducible apply Keeps.ite <;> intro _)
    | split)

theorem Dev.podReadback_keeps (d : Dev) (s code : Nat) : Keeps ⟨false, [F.WM_PC_STAT_dac_err, F.FLT_STAT_lost, F.FLT_LOST], [.sh, .flt]⟩ d (Dev.podReadback d s code) := by
  unfold Dev.podReadback
  repeat' (first
    | with_reducible exact Keeps.refl _ _
    | decide +kernel
    | with_reducible assumption
    | lift_lets
    | (intro x; first | (refine Keeps.cut (d0 := d) (d1 := x) ?_ ?_; (on_goal 1 => subst x); (on_goal 2 => (intro _; clear_value x))) | subst x)
    | (apply Keeps.step; with_reducible apply Dev.put_keeps)
    | (apply Keeps.step; with_reducible apply Dev.setShunt_keeps)
    | (apply Keeps.step; with_reducible apply Dev.report_keeps)
    | (apply Keeps.step; with_reducible apply Dev.reportOpen_keeps)
    | (with_reducible apply Keeps.ite <;> intro _)
    | split)

theorem Dev.hkResult_keeps (d : Dev) (s code : Nat) : Keeps ⟨false, [F.SH_DV, F.SH_PV, F.SH_TN, F.SH_STAT_sat, F.WM_STAT_band_hold, F.WM_PC_STAT_band_hold, F.WM_PC_STAT_dac_err, F.WM_EF_RISE_LO, F.WM_EF_RISE_HI, F.WM_EF_FALL_LO, F.WM_EF_FALL_HI, F.WM_EF_STAT_live, F.WM_EF_STAT_band_hold, F.WM_EF_STAT_rise, F.WM_EF_STAT_fall, F.WM_EF_STAT_edges, F.FLT_STAT_lost, F.FLT_LOST, F.THM_STAGE_MAX, F.THM_DERATE, F.THM_TN, F.THM_PVT], [.sh, .cv, .be, .tm, .ch, .flt, .pw]⟩ d (Dev.hkResult d s code) := by
  unfold Dev.hkResult
  repeat' (first
    | with_reducible exact Keeps.refl _ _
    | decide +kernel
    | with_reducible assumption
    | lift_lets
    | (intro x; first | (refine Keeps.cut (d0 := d) (d1 := x) ?_ ?_; (on_goal 1 => subst x); (on_goal 2 => (intro _; clear_value x))) | subst x)
    | (apply Keeps.step; with_reducible apply Dev.wr_keeps)
    | (apply Keeps.step; with_reducible apply Dev.setShunt_keeps)
    | (apply Keeps.step; with_reducible apply Dev.sendRec_keeps)
    | (apply Keeps.step; with_reducible apply Dev.noteGrid_keeps)
    | (apply Keeps.step; with_reducible apply Dev.takeTn_keeps)
    | (apply Keeps.step; with_reducible apply Dev.takePv_keeps)
    | (apply Keeps.step; with_reducible apply Dev.hkEnd_keeps)
    | (apply Keeps.step; with_reducible apply Dev.noteVolts_keeps)
    | (apply Keeps.step; with_reducible apply Dev.trackFollow_keeps)
    | (apply Keeps.step; with_reducible apply Dev.podReadback_keeps)
    | (with_reducible apply Keeps.ite <;> intro _)
    | split)

theorem Dev.calStart_keeps (d : Dev) (s : Nat) (op : CalOp) : Keeps ⟨false, [F.SH_CAL_CTRL_op, F.SH_CAL_CTRL_busy, F.SH_CAL_CTRL_status, F.CV_STAT_urgent], [.sh, .cv]⟩ d (Dev.calStart d s op) := by
  unfold Dev.calStart
  repeat' (first
    | with_reducible exact Keeps.refl _ _
    | decide +kernel
    | with_reducible assumption
    | lift_lets
    | (intro x; first | (refine Keeps.cut (d0 := d) (d1 := x) ?_ ?_; (on_goal 1 => subst x); (on_goal 2 => (intro _; clear_value x))) | subst x)
    | (apply Keeps.step; with_reducible apply Dev.wr_keeps)
    | (apply Keeps.step; with_reducible apply Dev.put_keeps)
    | (apply Keeps.step; with_reducible apply Dev.setShunt_keeps)
    | (apply Keeps.step; with_reducible apply Dev.requestUrgent_keeps)
    | (apply Keeps.step; with_reducible apply Dev.takeTriggers_keeps)
    | (with_reducible apply Keeps.ite <;> intro _)
    | split
    | beta_reduce)

theorem Dev.calConversion_keeps (d : Dev) (s : Nat) (code : Int) : Keeps ⟨false, [F.CV_STAT_urgent], [.sh, .cv]⟩ d (Dev.calConversion d s code) := by
  unfold Dev.calConversion
  repeat' (first
    | with_reducible exact Keeps.refl _ _
    | decide +kernel
    | with_reducible assumption
    | lift_lets
    | (intro x; first | (refine Keeps.cut (d0 := d) (d1 := x) ?_ ?_; (on_goal 1 => subst x); (on_goal 2 => (intro _; clear_value x))) | subst x)
    | (apply Keeps.step; with_reducible apply Dev.setShunt_keeps)
    | (apply Keeps.step; with_reducible apply Dev.requestUrgent_keeps)
    | (with_reducible apply Keeps.ite <;> intro _)
    | split
    | beta_reduce)

theorem Dev.calValues_keeps (d : Dev) (s : Nat) (op : CalOp) (zero plus minus : Int) : Keeps ⟨false, [F.SH_CAL_CTRL_busy, F.SH_CAL_CTRL_status, F.SH_CAL_RES_offset, F.SH_CAL_RES_gain_err], [.sh]⟩ d (Dev.calValues d s op zero plus minus) := by
  unfold Dev.calValues
  repeat' (first
    | with_reducible exact Keeps.refl _ _
    | decide +kernel
    | with_reducible assumption
    | lift_lets
    | (intro x; first | (refine Keeps.cut (d0 := d) (d1 := x) ?_ ?_; (on_goal 1 => subst x); (on_goal 2 => (intro _; clear_value x))) | subst x)
    | (apply Keeps.step; with_reducible apply Dev.wr_keeps)
    | (apply Keeps.step; with_reducible apply Dev.put_keeps)
    | (apply Keeps.step; with_reducible apply Dev.wrInt_keeps)
    | (apply Keeps.step; with_reducible apply Dev.setShunt_keeps)
    | (with_reducible apply Keeps.ite <;> intro _)
    | split)

theorem Dev.calDone_keeps (d : Dev) (s : Nat) (zero plus minus : Int) : Keeps ⟨false, [F.SH_CAL_CTRL_busy, F.SH_CAL_CTRL_status, F.SH_CAL_RES_offset, F.SH_CAL_RES_gain_err], [.sh]⟩ d (Dev.calDone d s zero plus minus) := by
  unfold Dev.calDone
  repeat' (first
    | with_reducible exact Keeps.refl _ _
    | decide +kernel
    | with_reducible assumption
    | lift_lets
    | (intro x; first | (refine Keeps.cut (d0 := d) (d1 := x) ?_ ?_; (on_goal 1 => subst x); (on_goal 2 => (intro _; clear_value x))) | subst x)
    | (apply Keeps.step; with_reducible apply Dev.calValues_keeps)
    | (with_reducible apply Keeps.ite <;> intro _)
    | split
    | beta_reduce)

end Sys2Proof.Machine
end

