-- ==== Sys2Proof/Laws/KeepsBanks.lean ====
section
/-! SUPPORT. What the effects of Banks.lean keep. -/

namespace Sys2Proof.Machine

set_option Elab.async false

theorem Dev.setBankByte_keeps (d : Dev) (a : Nat) (v : Byte) : Keeps ⟨false, [], [.mb]⟩ d (d.setBankByte a v) :=
  Dev.withMb_keeps d _ fun h => Tbl.wf_set h a v

theorem Dev.setBankBytes_keeps (d : Dev) (a n : Nat) (v : DWord) : Keeps ⟨false, [], [.mb]⟩ d (Dev.setBankBytes d a n v) := by
  unfold Dev.setBankBytes
  repeat' (first
    | with_reducible exact Keeps.refl _ _
    | decide +kernel
    | (intro _ _ k; exact k.le)
    | (apply Keeps.stepSame; with_reducible apply Dev.each_keeps; intro e _)
    | (apply Keeps.step; with_reducible apply Dev.setBankByte_keeps))

theorem Dev.setBankFlips_keeps (d : Dev) (a : Nat) (v : BitVec 39) : Keeps ⟨false, [], [.mb]⟩ d (Dev.setBankFlips d a v) := by
  unfold Dev.setBankFlips
  repeat' (first
    | with_reducible exact Keeps.refl _ _
    | decide +kernel
    | exact id
    | (apply Keeps.step; with_reducible apply Dev.withMb_keeps))

theorem Dev.bankWait_keeps (d : Dev) (m ns : Nat) : Keeps ⟨false, [F.MB_CONF_waits, F.MB_CONF_max_wait], []⟩ d (Dev.bankWait d m ns) := by
  unfold Dev.bankWait
  repeat' (first
    | with_reducible exact Keeps.refl _ _
    | decide +kernel
    | (apply Keeps.step; with_reducible apply Dev.wr_keeps)
    | (apply Keeps.step; with_reducible apply Dev.bump_keeps)
    | (with_reducible apply Keeps.ite <;> intro _)
    | split)

theorem Dev.bankCheck_keeps (d : Dev) (a : Nat) (u : Upset) : Keeps ⟨false, [F.MB_BANK_STAT_ue, F.MB_BANK_STAT_ce_cnt, F.MB_BANK_STAT_ue_cnt, F.MB_UE_ADDR, F.FLT_STAT_lost, F.FLT_LOST], [.mb, .flt]⟩ d (Dev.bankCheck d a u) := by
  unfold Dev.bankCheck
  repeat' (first
    | with_reducible exact Keeps.refl _ _
    | decide +kernel
    | with_reducible assumption
    | lift_lets
    | (intro x; first | (refine Keeps.cut (d0 := d) (d1 := x) ?_ ?_; (on_goal 1 => subst x); (on_goal 2 => (intro _; clear_value x))) | subst x)
    | (apply Keeps.step; with_reducible apply Dev.wr_keeps)
    | (apply Keeps.step; with_reducible apply Dev.put_keeps)
    | (apply Keeps.step; with_reducible apply Dev.bump_keeps)
    | (apply Keeps.step; with_reducible apply Dev.report_keeps)
    | (apply Keeps.step; with_reducible apply Dev.setBankFlips_keeps)
    | (with_reducible apply Keeps.ite <;> intro _)
    | split
    | beta_reduce)

theorem Dev.bankRefuse_keeps (d : Dev) (m a : Nat) : Keeps ⟨false, [F.MB_BANK_STAT_nonowner_wr, F.MB_BANK_STAT_nonowner_cnt, F.FLT_STAT_lost, F.FLT_LOST], [.flt]⟩ d (Dev.bankRefuse d m a) := by
  unfold Dev.bankRefuse
  repeat' (first
    | with_reducible exact Keeps.refl _ _
    | decide +kernel
    | with_reducible assumption
    | lift_lets
    | (intro x; first | (refine Keeps.cut (d0 := d) (d1 := x) ?_ ?_; (on_goal 1 => subst x); (on_goal 2 => (intro _; clear_value x))) | subst x)
    | (apply Keeps.step; with_reducible apply Dev.put_keeps)
    | (apply Keeps.step; with_reducible apply Dev.bump_keeps)
    | (apply Keeps.step; with_reducible apply Dev.report_keeps))

theorem Dev.bankWritePart_keeps (d : Dev) (m a n : Nat) (v : DWord) (u : Upset) : Keeps ⟨false, [F.MB_BANK_STAT_ue, F.MB_BANK_STAT_nonowner_wr, F.MB_BANK_STAT_ce_cnt, F.MB_BANK_STAT_ue_cnt, F.MB_BANK_STAT_nonowner_cnt, F.MB_UE_ADDR, F.FLT_STAT_lost, F.FLT_LOST], [.mb, .flt]⟩ d (Dev.bankWritePart d m a n v u) := by
  unfold Dev.bankWritePart
  repeat' (first
    | with_reducible exact Keeps.refl _ _
    | decide +kernel
    | (apply Keeps.step; with_reducible apply Dev.setBankBytes_keeps)
    | (apply Keeps.step; with_reducible apply Dev.setBankFlips_keeps)
    | (apply Keeps.step; with_reducible apply Dev.bankCheck_keeps)
    | (apply Keeps.step; with_reducible apply Dev.bankRefuse_keeps)
    | (with_reducible apply Keeps.ite <;> intro _)
    | split)

theorem Dev.bankServed_keeps (d : Dev) (m : BankMaster) (b : Nat) : Keeps ⟨false, [], [.mb]⟩ d (Dev.bankServed d m b) := by
  unfold Dev.bankServed
  repeat' (first
    | with_reducible exact Keeps.refl _ _
    | decide +kernel
    | with_reducible assumption
    | exact id
    | lift_lets
    | (intro x; first | (refine Keeps.cut (d0 := d) (d1 := x) ?_ ?_; (on_goal 1 => subst x); (on_goal 2 => (intro _; clear_value x))) | subst x)
    | (apply Keeps.step; with_reducible apply Dev.withMb_keeps)
    | (with_reducible apply Keeps.ite <;> intro _)
    | split)

theorem Dev.setOwed_keeps (d : Dev) (m : BankMaster) (p : Option BankPart) : Keeps ⟨false, [], [.mb]⟩ d (Dev.setOwed d m p) := by
  unfold Dev.setOwed
  repeat' (first
    | with_reducible exact Keeps.refl _ _
    | decide +kernel
    | exact id
    | (apply Keeps.step; with_reducible apply Dev.withMb_keeps))

theorem Dev.answer_keeps (d : Dev) (m : BankMaster) (a : BankAnswer) : Keeps ⟨false, [], [.mb]⟩ d (Dev.answer d m a) := by
  unfold Dev.answer
  repeat' (first
    | with_reducible exact Keeps.refl _ _
    | decide +kernel
    | exact id
    | (apply Keeps.step; with_reducible apply Dev.withMb_keeps))

theorem Dev.bankRead_keeps (d : Dev) (m : BankMaster) (a n : Nat) (u : Upset) (wait : Nat) : Keeps ⟨false, [F.MB_BANK_STAT_ue, F.MB_BANK_STAT_ce_cnt, F.MB_BANK_STAT_ue_cnt, F.MB_UE_ADDR, F.MB_CONF_waits, F.MB_CONF_max_wait, F.FLT_STAT_lost, F.FLT_LOST], [.mb, .flt]⟩ d (Dev.bankRead d m a n u wait) := by
  unfold Dev.bankRead
  repeat' (first
    | with_reducible exact Keeps.refl _ _
    | decide +kernel
    | with_reducible assumption
    | lift_lets
    | (intro x; first | (refine Keeps.cut (d0 := d) (d1 := x) ?_ ?_; (on_goal 1 => subst x); (on_goal 2 => (intro _; clear_value x))) | subst x)
    | (apply Keeps.step; with_reducible apply Dev.bankWait_keeps)
    | (apply Keeps.step; with_reducible apply Dev.bankCheck_keeps)
    | (apply Keeps.step; with_reducible apply Dev.bankServed_keeps)
    | (apply Keeps.step; with_reducible apply Dev.setOwed_keeps)
    | (apply Keeps.step; with_reducible apply Dev.answer_keeps)
    | (with_reducible apply Keeps.ite <;> intro _)
    | split)

theorem Dev.bankWrite_keeps (d : Dev) (m : BankMaster) (a n : Nat) (v : Word) (u : Upset) (wait : Nat) : Keeps ⟨false, [F.MB_BANK_STAT_ue, F.MB_BANK_STAT_nonowner_wr, F.MB_BANK_STAT_ce_cnt, F.MB_BANK_STAT_ue_cnt, F.MB_BANK_STAT_nonowner_cnt, F.MB_UE_ADDR, F.MB_CONF_waits, F.MB_CONF_max_wait, F.FLT_STAT_lost, F.FLT_LOST], [.mb, .flt]⟩ d (Dev.bankWrite d m a n v u wait) := by
  unfold Dev.bankWrite
  repeat' (first
    | with_reducible exact Keeps.refl _ _
    | decide +kernel
    | with_reducible assumption
    | lift_lets
    | (intro x; first | (refine Keeps.cut (d0 := d) (d1 := x) ?_ ?_; (on_goal 1 => subst x); (on_goal 2 => (intro _; clear_value x))) | subst x)
    | (apply Keeps.step; with_reducible apply Dev.bankWait_keeps)
    | (apply Keeps.step; with_reducible apply Dev.bankWritePart_keeps)
    | (apply Keeps.step; with_reducible apply Dev.bankServed_keeps)
    | (apply Keeps.step; with_reducible apply Dev.setOwed_keeps)
    | (apply Keeps.step; with_reducible apply Dev.answer_keeps)
    | (with_reducible apply Keeps.ite <;> intro _)
    | split
    | beta_reduce)

theorem Dev.takeIssued_keeps (d : Dev) (m : BankMaster) : Keeps ⟨false, [], [.mb]⟩ d (Dev.takeIssued d m) := by
  unfold Dev.takeIssued
  repeat' (first
    | with_reducible exact Keeps.refl _ _
    | decide +kernel
    | exact id
    | (apply Keeps.step; with_reducible apply Dev.withMb_keeps)
    | (with_reducible apply Keeps.ite <;> intro _)
    | split)

theorem Dev.issue_keeps (d : Dev) (l : List (Nat × Word)) : Keeps ⟨false, [], [.mb]⟩ d (Dev.issue d l) := by
  unfold Dev.issue
  repeat' (first
    | with_reducible exact Keeps.refl _ _
    | decide +kernel
    | exact id
    | (apply Keeps.step; with_reducible apply Dev.withMb_keeps))

theorem Dev.sealBanks_keeps (d : Dev) : Keeps ⟨false, [F.MB_BANK_CTRL, F.MB_BANK_STAT_owner], []⟩ d (Dev.sealBanks d) := by
  unfold Dev.sealBanks
  repeat' (first
    | with_reducible exact Keeps.refl _ _
    | decide +kernel
    | (intro _ _ k; exact k.le)
    | with_reducible assumption
    | lift_lets
    | (intro x; first | (refine Keeps.cut (d0 := e) (d1 := x) ?_ ?_; (on_goal 1 => subst x); (on_goal 2 => (intro _; clear_value x))) | (refine Keeps.cut (d0 := d) (d1 := x) ?_ ?_; (on_goal 1 => subst x); (on_goal 2 => (intro _; clear_value x))) | subst x)
    | (apply Keeps.stepSame; with_reducible apply Dev.each_keeps; intro e _)
    | (apply Keeps.step; with_reducible apply Dev.wr_keeps))

theorem Dev.setDrain_keeps (d : Dev) (b : Nat) (v : Option (Nat × Nat)) : Keeps ⟨false, [F.MB_BANK_CTRL_draining, F.MB_BANK_STAT_draining], [.mb]⟩ d (Dev.setDrain d b v) := by
  unfold Dev.setDrain
  repeat' (first
    | with_reducible exact Keeps.refl _ _
    | decide +kernel
    | with_reducible assumption
    | exact id
    | lift_lets
    | (intro x; first | (refine Keeps.cut (d0 := d) (d1 := x) ?_ ?_; (on_goal 1 => subst x); (on_goal 2 => (intro _; clear_value x))) | subst x)
    | (apply Keeps.step; with_reducible apply Dev.withMb_keeps)
    | (apply Keeps.step; with_reducible apply Dev.put_keeps))

theorem Dev.unsealBanks_keeps (d : Dev) : Keeps ⟨false, [F.MB_BANK_CTRL_owner, F.MB_BANK_CTRL_draining, F.MB_BANK_STAT_draining], [.mb]⟩ d (Dev.unsealBanks d) := by
  unfold Dev.unsealBanks
  repeat' (first
    | with_reducible exact Keeps.refl _ _
    | decide +kernel
    | (intro _ _ k; exact k.le)
    | (apply Keeps.stepSame; with_reducible apply Dev.each_keeps; intro e _)
    | (apply Keeps.step; with_reducible apply Dev.wr_keeps)
    | (apply Keeps.step; with_reducible apply Dev.setDrain_keeps))

theorem Dev.handover_keeps (d : Dev) (b owner : Nat) : Keeps ⟨false, [F.FAB_WRITE_ERR, F.FAB_WRITE_ERR_more, F.FAB_WRITE_DATA, F.FAB_WRITE_CNT, F.MB_BANK_CTRL_owner, F.MB_BANK_CTRL_draining, F.MB_BANK_CTRL_status, F.MB_BANK_STAT_draining], [.mb]⟩ d (Dev.handover d b owner) := by
  unfold Dev.handover
  repeat' (first
    | with_reducible exact Keeps.refl _ _
    | decide +kernel
    | with_reducible assumption
    | lift_lets
    | (intro x; first | (refine Keeps.cut (d0 := d) (d1 := x) ?_ ?_; (on_goal 1 => subst x); (on_goal 2 => (intro _; clear_value x))) | subst x)
    | (apply Keeps.step; with_reducible apply Dev.wr_keeps)
    | (apply Keeps.step; with_reducible apply Dev.reject_keeps)
    | (apply Keeps.step; with_reducible apply Dev.setDrain_keeps)
    | (with_reducible apply Keeps.ite <;> intro _)
    | split)

theorem Dev.drainEnd_keeps (d : Dev) (b : Nat) (inTime : Bool) : Keeps ⟨false, [F.MB_BANK_CTRL_draining, F.MB_BANK_CTRL_status, F.MB_BANK_STAT_owner, F.MB_BANK_STAT_draining, F.FLT_STAT_lost, F.FLT_LOST], [.mb, .flt]⟩ d (Dev.drainEnd d b inTime) := by
  unfold Dev.drainEnd
  repeat' (first
    | with_reducible exact Keeps.refl _ _
    | decide +kernel
    | with_reducible assumption
    | lift_lets
    | (intro x; first | (refine Keeps.cut (d0 := d) (d1 := x) ?_ ?_; (on_goal 1 => subst x); (on_goal 2 => (intro _; clear_value x))) | subst x)
    | (apply Keeps.step; with_reducible apply Dev.wr_keeps)
    | (apply Keeps.step; with_reducible apply Dev.report_keeps)
    | (apply Keeps.step; with_reducible apply Dev.reportOpen_keeps)
    | (apply Keeps.step; with_reducible apply Dev.setDrain_keeps)
    | (with_reducible apply Keeps.ite <;> intro _)
    | split
    | beta_reduce)

theorem execScrubRead_runs (t : Nat) (b : Fin 16) (r : BankTurn) (s : State) :
    Runs ⟨false, [F.MB_BANK_STAT_ue, F.MB_BANK_STAT_ce_cnt, F.MB_BANK_STAT_ue_cnt, F.MB_UE_ADDR, F.FLT_STAT_lost, F.FLT_LOST], [.mb, .flt]⟩ t s (execScrubRead t b r s) := by
  unfold execScrubRead
  refine Runs.of fun d => ?_
  repeat' (first
    | with_reducible exact Keeps.refl _ _
    | decide +kernel
    | (intro _ _ k; exact k.le)
    | with_reducible assumption
    | exact id
    | lift_lets
    | (intro x; first | (refine Keeps.cut (d0 := e) (d1 := x) ?_ ?_; (on_goal 1 => subst x); (on_goal 2 => (intro _; clear_value x))) | (refine Keeps.cut (d0 := d) (d1 := x) ?_ ?_; (on_goal 1 => subst x); (on_goal 2 => (intro _; clear_value x))) | subst x)
    | (apply Keeps.step; with_reducible apply Dev.withMb_keeps)
    | (apply Keeps.stepSame; with_reducible apply Dev.pipe_keeps; intro e)
    | (apply Keeps.step; with_reducible apply Dev.bankCheck_keeps)
    | (with_reducible apply Keeps.ite <;> intro _)
    | split)

theorem execDrainComplete_runs (t : Nat) (b : Fin 16) (s : State) :
    Runs ⟨false, [F.MB_BANK_CTRL_draining, F.MB_BANK_CTRL_status, F.MB_BANK_STAT_owner, F.MB_BANK_STAT_draining, F.FLT_STAT_lost, F.FLT_LOST], [.mb, .flt]⟩ t s (execDrainComplete t b s) := by
  unfold execDrainComplete
  refine Runs.of fun d => ?_
  repeat' (first
    | with_reducible exact Keeps.refl _ _
    | decide +kernel
    | (apply Keeps.step; with_reducible apply Dev.drainEnd_keeps)
    | (with_reducible apply Keeps.ite <;> intro _)
    | split)

theorem execDrainTimeout_runs (t : Nat) (b : Fin 16) (s : State) :
    Runs ⟨false, [F.MB_BANK_CTRL_draining, F.MB_BANK_CTRL_status, F.MB_BANK_STAT_owner, F.MB_BANK_STAT_draining, F.FLT_STAT_lost, F.FLT_LOST], [.mb, .flt]⟩ t s (execDrainTimeout t b s) := by
  unfold execDrainTimeout
  refine Runs.of fun d => ?_
  repeat' (first
    | with_reducible exact Keeps.refl _ _
    | decide +kernel
    | (apply Keeps.step; with_reducible apply Dev.drainEnd_keeps)
    | (with_reducible apply Keeps.ite <;> intro _)
    | split)

theorem execConfRestart_runs (t : Nat) (s : State) :
    Runs ⟨false, [F.MB_CONF], []⟩ t s (execConfRestart t s) := by
  unfold execConfRestart
  refine Runs.of fun d => ?_
  repeat' (first
    | with_reducible exact Keeps.refl _ _
    | decide +kernel
    | (intro _ _ k; exact k.le)
    | (apply Keeps.stepSame; with_reducible apply Dev.each_keeps; intro e _)
    | (apply Keeps.step; with_reducible apply Dev.wr_keeps))

end Sys2Proof.Machine
end

