-- ==== Sys2Proof/Laws/KeepsEngines.lean ====
section
/-! SUPPORT. What the effects of Engines.lean keep. -/

namespace Sys2Proof.Machine

set_option Elab.async false

theorem Dev.onLoop_keeps (d : Dev) (l : Nat) (f : LoopT → LoopT) : Keeps ⟨false, [], [.be]⟩ d (Dev.onLoop d l f) := by
  unfold Dev.onLoop
  repeat' (first
    | with_reducible exact Keeps.refl _ _
    | decide +kernel
    | (apply Keeps.step; with_reducible apply Dev.setLoop_keeps))

theorem Dev.showLoop_keeps (d : Dev) (l : Nat) : Keeps ⟨false, [F.BE_LP_STAT_state], []⟩ d (Dev.showLoop d l) := by
  unfold Dev.showLoop
  repeat' (first
    | with_reducible exact Keeps.refl _ _
    | decide +kernel
    | with_reducible assumption
    | lift_lets
    | (intro x; first | (refine Keeps.cut (d0 := d) (d1 := x) ?_ ?_; (on_goal 1 => subst x); (on_goal 2 => (intro _; clear_value x))) | subst x)
    | (apply Keeps.step; with_reducible apply Dev.wr_keeps)
    | (with_reducible apply Keeps.ite <;> intro _)
    | split)

theorem Dev.showEngine_keeps (d : Dev) (e : Nat) : Keeps ⟨false, [F.BE_ENG_STAT_state, F.BE_ENG_STAT_loop, F.BE_ENG_STAT_loops, F.BE_POOL_STAT_fenced, F.BE_POOL_STAT_free], []⟩ d (Dev.showEngine d e) := by
  unfold Dev.showEngine
  repeat' (first
    | with_reducible exact Keeps.refl _ _
    | decide +kernel
    | (intro _ _ k; exact k.le)
    | with_reducible assumption
    | lift_lets
    | (intro x; first | (refine Keeps.cut (d0 := e) (d1 := x) ?_ ?_; (on_goal 1 => subst x); (on_goal 2 => (intro _; clear_value x))) | (refine Keeps.cut (d0 := d) (d1 := x) ?_ ?_; (on_goal 1 => subst x); (on_goal 2 => (intro _; clear_value x))) | subst x)
    | (apply Keeps.step; with_reducible apply Dev.wr_keeps)
    | (apply Keeps.stepSame; with_reducible apply Dev.foldl_keeps; intro e _)
    | (with_reducible apply Keeps.ite <;> intro _)
    | split
    | beta_reduce)

theorem Dev.showPool_keeps (d : Dev) : Keeps ⟨false, [F.BE_ENG_STAT_state, F.BE_ENG_STAT_loop, F.BE_ENG_STAT_loops, F.BE_LP_STAT_state, F.BE_POOL_STAT_fenced, F.BE_POOL_STAT_free], []⟩ d (Dev.showPool d) := by
  unfold Dev.showPool
  repeat' (first
    | with_reducible exact Keeps.refl _ _
    | decide +kernel
    | (intro _ _ k; exact k.le)
    | (apply Keeps.stepSame; with_reducible apply Dev.each_keeps; intro e _)
    | (apply Keeps.step; with_reducible apply Dev.showLoop_keeps)
    | (apply Keeps.step; with_reducible apply Dev.showEngine_keeps))

theorem Dev.setRegion_keeps (d : Dev) (base size : Nat) (t : Tbl Word) : Keeps ⟨false, [], [.be]⟩ d (Dev.setRegion d base size t) := by
  unfold Dev.setRegion
  repeat' (first
    | with_reducible exact Keeps.refl _ _
    | decide +kernel
    | with_reducible assumption
    | lift_lets
    | (intro x; first | (refine Keeps.cut (d0 := d) (d1 := x) ?_ ?_; (on_goal 1 => subst x); (on_goal 2 => (intro _; clear_value x))) | subst x)
    | (apply Keeps.step; with_reducible apply Dev.withBe_keeps))

theorem Keeps.iteFst {w : Foot} {e : Dev} {α : Type} {c : Prop} [Decidable c] {a b : Dev × α} (h : Keeps w e a.1) (k : Keeps w e b.1) :
    Keeps w e (if c then a else b).1 := by
  split <;> assumption

theorem Dev.swapSection_keeps (l bank op : Nat) (x : Dev × Option Nat) (sec : Nat × Nat) :
    Keeps ⟨false, [], [.be]⟩ x.1 (Dev.swapSection l bank op x sec).1 := by
  unfold Dev.swapSection
  refine Dev.foldlPair_keeps (fun y j => ?_) _ _
  dsimp only
  refine Keeps.iteFst ?_ ?_
  · exact (Dev.setLt_keeps ..).le
  · exact Keeps.refl _ _

theorem Dev.applySwap_keeps (d : Dev) (l : Nat) : Keeps ⟨false, [F.BE_LP_SWAP_active, F.BE_LP_SWAP_pending, F.BE_LP_SWAP_status, F.BE_LP_FLAGS_sat, F.BE_LP_FLAGS_swap_clamp, F.FLT_STAT_lost, F.FLT_LOST], [.be, .flt]⟩ d (Dev.applySwap d l) := by
  have h := Dev.foldlPair_keeps (w := ⟨false, [F.BE_LP_SWAP_active, F.BE_LP_SWAP_pending, F.BE_LP_SWAP_status, F.BE_LP_FLAGS_sat, F.BE_LP_FLAGS_swap_clamp, F.FLT_STAT_lost, F.FLT_LOST], [.be, .flt]⟩) (f := fun (x : Dev × Option Nat) i => (opSections (x.1.opWord l i)).foldl
    (Dev.swapSection l (d.rd F.BE_LP_SWAP_bank l) i) x)
    (fun x i => Dev.foldlPair_keeps (w := ⟨false, [F.BE_LP_SWAP_active, F.BE_LP_SWAP_pending, F.BE_LP_SWAP_status, F.BE_LP_FLAGS_sat, F.BE_LP_FLAGS_swap_clamp, F.FLT_STAT_lost, F.FLT_LOST], [.be, .flt]⟩) (fun y s => (Dev.swapSection_keeps l _ i y s).le) _ _) (List.range (d.rd F.BE_LP_PROG_length l)) (d, none)
  unfold Dev.applySwap
  dsimp only
  repeat' (first
    | exact h
    | with_reducible exact Keeps.refl _ _
    | with_reducible assumption
    | decide +kernel
    | (apply Keeps.step; with_reducible apply Dev.wr_keeps)
    | (apply Keeps.step; with_reducible apply Dev.put_keeps)
    | (apply Keeps.step; with_reducible apply Dev.onLoop_keeps)
    | (apply Keeps.step; with_reducible apply Dev.report_keeps)
    | (with_reducible apply Keeps.ite <;> intro _)
    | split)

theorem Dev.requestSwap_keeps (d : Dev) (l bank : Nat) : Keeps ⟨false, [F.BE_LP_SWAP_bank, F.BE_LP_SWAP_pending, F.BE_LP_SWAP_status], [.be]⟩ d (Dev.requestSwap d l bank) := by
  unfold Dev.requestSwap
  repeat' (first
    | with_reducible exact Keeps.refl _ _
    | decide +kernel
    | with_reducible assumption
    | lift_lets
    | (intro x; first | (refine Keeps.cut (d0 := d) (d1 := x) ?_ ?_; (on_goal 1 => subst x); (on_goal 2 => (intro _; clear_value x))) | subst x)
    | (apply Keeps.step; with_reducible apply Dev.wr_keeps)
    | (apply Keeps.step; with_reducible apply Dev.put_keeps)
    | (apply Keeps.step; with_reducible apply Dev.onLoop_keeps)
    | (with_reducible apply Keeps.ite <;> intro _)
    | split)

theorem Dev.noteSlack_keeps (d : Dev) (l : Nat) (slack : Int) : Keeps ⟨false, [F.BE_LP_SLACK_last, F.BE_LP_SLACK_win_min, F.BE_LP_SLACK_MIN_min, F.BE_LP_SLACK_MIN_restart], [.be]⟩ d (Dev.noteSlack d l slack) := by
  unfold Dev.noteSlack
  repeat' (first
    | with_reducible exact Keeps.refl _ _
    | decide +kernel
    | with_reducible assumption
    | lift_lets
    | (intro x; first | (refine Keeps.cut (d0 := d) (d1 := x) ?_ ?_; (on_goal 1 => subst x); (on_goal 2 => (intro _; clear_value x))) | subst x)
    | (apply Keeps.step; with_reducible apply Dev.put_keeps)
    | (apply Keeps.step; with_reducible apply Dev.wrInt_keeps)
    | (apply Keeps.step; with_reducible apply Dev.setLoop_keeps)
    | (with_reducible apply Keeps.ite <;> intro _)
    | split)

theorem Dev.noteDur_keeps (d : Dev) (l ticks : Nat) : Keeps ⟨false, [F.BE_LP_DUR_last, F.BE_LP_DUR_max], []⟩ d (Dev.noteDur d l ticks) := by
  unfold Dev.noteDur
  repeat' (first
    | with_reducible exact Keeps.refl _ _
    | decide +kernel
    | with_reducible assumption
    | lift_lets
    | (intro x; first | (refine Keeps.cut (d0 := d) (d1 := x) ?_ ?_; (on_goal 1 => subst x); (on_goal 2 => (intro _; clear_value x))) | subst x)
    | (apply Keeps.step; with_reducible apply Dev.wr_keeps))

theorem Dev.fenceLoop_keeps (d : Dev) (l : Nat) : Keeps ⟨false, [F.BE_LP_SWAP_pending, F.BE_LP_SWAP_status, F.BE_LP_STAT_state, F.FLT_STAT_lost, F.FLT_LOST], [.be, .flt]⟩ d (Dev.fenceLoop d l) := by
  unfold Dev.fenceLoop
  repeat' (first
    | with_reducible exact Keeps.refl _ _
    | decide +kernel
    | (intro _ _ k; exact k.le)
    | with_reducible assumption
    | lift_lets
    | (intro x; first | (refine Keeps.cut (d0 := e) (d1 := x) ?_ ?_; (on_goal 1 => subst x); (on_goal 2 => (intro _; clear_value x))) | (refine Keeps.cut (d0 := d) (d1 := x) ?_ ?_; (on_goal 1 => subst x); (on_goal 2 => (intro _; clear_value x))) | subst x)
    | (apply Keeps.stepSame; with_reducible apply Dev.each_keeps; intro e _)
    | (apply Keeps.step; with_reducible apply Dev.wr_keeps)
    | (apply Keeps.step; with_reducible apply Dev.put_keeps)
    | (apply Keeps.step; with_reducible apply Dev.setEng_keeps)
    | (apply Keeps.step; with_reducible apply Dev.markFenced_keeps)
    | (apply Keeps.step; with_reducible apply Dev.postFenced_keeps)
    | (apply Keeps.step; with_reducible apply Dev.onLoop_keeps)
    | (apply Keeps.step; with_reducible apply Dev.showLoop_keeps)
    | (with_reducible apply Keeps.ite <;> intro _)
    | split
    | beta_reduce)

theorem Dev.fenceStage_keeps (d : Dev) (s cause sub : Nat) : Keeps ⟨false, [F.TB_STG_RUN_run, F.TB_STG_COMMIT_pending, F.TB_STG_STAT_running, F.TB_STG_STAT_tripped, F.TB_STG_STAT_fenced, F.PG_STAT_out_high, F.PG_STAT_out_low, F.PG_STAT_trip_hold, F.WM_SW_HELD, F.WM_SW_STAT_held, F.WM_SW_STAT_action, F.WM_SW_STAT_cause_kind, F.WM_SW_STAT_cause_index, F.WM_SW_STAT_count, F.WM_SW_TIME_LO, F.WM_SW_TIME_HI, F.BE_LP_SWAP_pending, F.BE_LP_SWAP_status, F.BE_LP_STAT_state, F.SC_ABS_LEFT_left, F.SC_ABS_LEFT_awaiting, F.FLT_STAT_lost, F.FLT_LOST], [.tb, .pp, .cv, .be, .sc, .flt]⟩ d (Dev.fenceStage d s cause sub) := by
  unfold Dev.fenceStage
  repeat' (first
    | with_reducible exact Keeps.refl _ _
    | decide +kernel
    | (intro _ _ k; exact k.le)
    | with_reducible assumption
    | lift_lets
    | (intro x; first | (refine Keeps.cut (d0 := e) (d1 := x) ?_ ?_; (on_goal 1 => subst x); (on_goal 2 => (intro _; clear_value x))) | (refine Keeps.cut (d0 := d) (d1 := x) ?_ ?_; (on_goal 1 => subst x); (on_goal 2 => (intro _; clear_value x))) | subst x)
    | (apply Keeps.stepSame; with_reducible apply Dev.each_keeps; intro e _)
    | (apply Keeps.step; with_reducible apply Dev.put_keeps)
    | (apply Keeps.step; with_reducible apply Dev.markFenced_keeps)
    | (apply Keeps.step; with_reducible apply Dev.postFenced_keeps)
    | (apply Keeps.step; with_reducible apply Dev.discardShadows_keeps)
    | (apply Keeps.step; with_reducible apply Dev.endRun_keeps)
    | (apply Keeps.step; with_reducible apply Dev.arbitrate_keeps)
    | (apply Keeps.step; with_reducible apply Dev.fenceLoop_keeps)
    | (with_reducible apply Keeps.ite <;> intro _)
    | split)

theorem Dev.becomeReady_keeps (d : Dev) (l : Nat) : Keeps ⟨false, [F.BE_LP_SWAP_active, F.BE_LP_SWAP_pending, F.BE_LP_SWAP_status, F.BE_LP_FLAGS_sat, F.BE_LP_FLAGS_swap_clamp, F.FLT_STAT_lost, F.FLT_LOST], [.be, .flt]⟩ d (Dev.becomeReady d l) := by
  unfold Dev.becomeReady
  repeat' (first
    | with_reducible exact Keeps.refl _ _
    | decide +kernel
    | with_reducible assumption
    | lift_lets
    | (intro x; first | (refine Keeps.cut (d0 := d) (d1 := x) ?_ ?_; (on_goal 1 => subst x); (on_goal 2 => (intro _; clear_value x))) | subst x)
    | (apply Keeps.step; with_reducible apply Dev.onLoop_keeps)
    | (apply Keeps.step; with_reducible apply Dev.applySwap_keeps)
    | (with_reducible apply Keeps.ite <;> intro _)
    | split)

theorem Dev.wake_keeps (d : Dev) (ls : List Nat) : Keeps ⟨false, [F.BE_LP_SWAP_active, F.BE_LP_SWAP_pending, F.BE_LP_SWAP_status, F.BE_LP_FLAGS_sat, F.BE_LP_FLAGS_swap_clamp, F.FLT_STAT_lost, F.FLT_LOST], [.be, .flt]⟩ d (Dev.wake d ls) := by
  unfold Dev.wake
  repeat' (first
    | with_reducible exact Keeps.refl _ _
    | decide +kernel
    | (intro _ _ k; exact k.le)
    | with_reducible assumption
    | lift_lets
    | (intro x; first | (refine Keeps.cut (d0 := e) (d1 := x) ?_ ?_; (on_goal 1 => subst x); (on_goal 2 => (intro _; clear_value x))) | (refine Keeps.cut (d0 := d) (d1 := x) ?_ ?_; (on_goal 1 => subst x); (on_goal 2 => (intro _; clear_value x))) | subst x)
    | (apply Keeps.step; with_reducible apply Dev.withBe_keeps)
    | (apply Keeps.stepSame; with_reducible apply Dev.each_keeps; intro e _)
    | (apply Keeps.step; with_reducible apply Dev.becomeReady_keeps)
    | (with_reducible apply Keeps.ite <;> intro _)
    | split)

theorem Dev.startRun_keeps (d : Dev) (e l : Nat) : Keeps ⟨false, [F.BE_LP_SWAP_active, F.BE_LP_SWAP_pending, F.BE_LP_SWAP_status, F.BE_LP_FLAGS_sat, F.BE_LP_FLAGS_swap_clamp, F.FLT_STAT_lost, F.FLT_LOST], [.be, .flt]⟩ d (Dev.startRun d e l) := by
  unfold Dev.startRun
  repeat' (first
    | with_reducible exact Keeps.refl _ _
    | decide +kernel
    | with_reducible assumption
    | lift_lets
    | (intro x; first | (refine Keeps.cut (d0 := d) (d1 := x) ?_ ?_; (on_goal 1 => subst x); (on_goal 2 => (intro _; clear_value x))) | subst x)
    | (apply Keeps.step; with_reducible apply Dev.setLoop_keeps)
    | (apply Keeps.step; with_reducible apply Dev.setEng_keeps)
    | (apply Keeps.step; with_reducible apply Dev.applySwap_keeps)
    | (with_reducible apply Keeps.ite <;> intro _)
    | split)

theorem Dev.dispatch_keeps (d : Dev) (e : Nat) : Keeps ⟨false, [F.BE_LP_SWAP_active, F.BE_LP_SWAP_pending, F.BE_LP_SWAP_status, F.BE_LP_FLAGS_sat, F.BE_LP_FLAGS_swap_clamp, F.FLT_STAT_lost, F.FLT_LOST], [.be, .flt]⟩ d (Dev.dispatch d e) := by
  unfold Dev.dispatch
  repeat' (first
    | with_reducible exact Keeps.refl _ _
    | decide +kernel
    | with_reducible assumption
    | lift_lets
    | (intro x; first | (refine Keeps.cut (d0 := d) (d1 := x) ?_ ?_; (on_goal 1 => subst x); (on_goal 2 => (intro _; clear_value x))) | subst x)
    | (apply Keeps.step; with_reducible apply Dev.startRun_keeps)
    | (with_reducible apply Keeps.ite <;> intro _)
    | split
    | beta_reduce)

theorem Dev.dispatchAll_keeps (d : Dev) : Keeps ⟨false, [F.BE_ENG_STAT_state, F.BE_ENG_STAT_loop, F.BE_ENG_STAT_loops, F.BE_LP_SWAP_active, F.BE_LP_SWAP_pending, F.BE_LP_SWAP_status, F.BE_LP_STAT_state, F.BE_LP_FLAGS_sat, F.BE_LP_FLAGS_swap_clamp, F.BE_POOL_STAT_fenced, F.BE_POOL_STAT_free, F.FLT_STAT_lost, F.FLT_LOST], [.be, .flt]⟩ d (Dev.dispatchAll d) := by
  unfold Dev.dispatchAll
  repeat' (first
    | with_reducible exact Keeps.refl _ _
    | decide +kernel
    | (intro _ _ k; exact k.le)
    | (apply Keeps.stepSame; with_reducible apply Dev.each_keeps; intro e _)
    | (apply Keeps.step; with_reducible apply Dev.showPool_keeps)
    | (apply Keeps.step; with_reducible apply Dev.dispatch_keeps))

theorem Dev.fencedWrite_keeps (d : Dev) (e l dest bank : Nat) : Keeps ⟨false, [F.BE_ENG_STAT_fenced_writes, F.FLT_STAT_lost, F.FLT_LOST], [.flt]⟩ d (Dev.fencedWrite d e l dest bank) := by
  unfold Dev.fencedWrite
  repeat' (first
    | with_reducible exact Keeps.refl _ _
    | decide +kernel
    | with_reducible assumption
    | lift_lets
    | (intro x; first | (refine Keeps.cut (d0 := d) (d1 := x) ?_ ?_; (on_goal 1 => subst x); (on_goal 2 => (intro _; clear_value x))) | subst x)
    | (apply Keeps.step; with_reducible apply Dev.bump_keeps)
    | (apply Keeps.step; with_reducible apply Dev.post_keeps)
    | (apply Keeps.step; with_reducible apply Dev.report_keeps))

theorem Dev.writeState_keeps (d : Dev) (e l upd stamp : Nat) (vars xch : Tbl Word) (stored : List Nat) : Keeps ⟨false, [F.BE_ENG_STAT_fenced_writes, F.BE_LP_STAT_update, F.BE_LP_DONE_LO, F.BE_LP_DONE_HI, F.FLT_STAT_lost, F.FLT_LOST], [.be, .ch, .flt]⟩ d (Dev.writeState d e l upd stamp vars xch stored) := by
  unfold Dev.writeState
  repeat' (first
    | with_reducible exact Keeps.refl _ _
    | decide +kernel
    | (intro _ _ k; exact k.le)
    | with_reducible assumption
    | lift_lets
    | (intro x; first | (refine Keeps.cut (d0 := e) (d1 := x) ?_ ?_; (on_goal 1 => subst x); (on_goal 2 => (intro _; clear_value x))) | (refine Keeps.cut (d0 := d) (d1 := x) ?_ ?_; (on_goal 1 => subst x); (on_goal 2 => (intro _; clear_value x))) | subst x)
    | (apply Keeps.stepSame; with_reducible apply Dev.each_keeps; intro e _)
    | (apply Keeps.step; with_reducible apply Dev.wr_keeps)
    | (apply Keeps.step; with_reducible apply Dev.wr64_keeps)
    | (apply Keeps.step; with_reducible apply Dev.setLt_keeps)
    | (apply Keeps.step; with_reducible apply Dev.noteGrid_keeps)
    | (apply Keeps.step; with_reducible apply Dev.onLoop_keeps)
    | (apply Keeps.step; with_reducible apply Dev.setRegion_keeps)
    | (apply Keeps.step; with_reducible apply Dev.fencedWrite_keeps)
    | (with_reducible apply Keeps.ite <;> intro _)
    | split)

theorem Dev.noteTransfer_keeps (d : Dev) (l n : Nat) : Keeps ⟨false, [F.BE_LP_STAT_consec], [.be]⟩ d (Dev.noteTransfer d l n) := by
  unfold Dev.noteTransfer
  repeat' (first
    | with_reducible exact Keeps.refl _ _
    | decide +kernel
    | (apply Keeps.step; with_reducible apply Dev.wr_keeps)
    | (apply Keeps.step; with_reducible apply Dev.onLoop_keeps)
    | (with_reducible apply Keeps.ite <;> intro _)
    | split)

theorem Dev.settle_keeps (d : Dev) (l : Nat) : Keeps ⟨false, [F.BE_ENG_STAT_fenced_writes, F.BE_LP_STAT_update, F.BE_LP_DONE_LO, F.BE_LP_DONE_HI, F.FLT_STAT_lost, F.FLT_LOST], [.be, .ch, .flt]⟩ d (Dev.settle d l) := by
  unfold Dev.settle
  repeat' (first
    | with_reducible exact Keeps.refl _ _
    | decide +kernel
    | with_reducible assumption
    | lift_lets
    | (intro x; first | (refine Keeps.cut (d0 := d) (d1 := x) ?_ ?_; (on_goal 1 => subst x); (on_goal 2 => (intro _; clear_value x))) | subst x)
    | (apply Keeps.step; with_reducible apply Dev.onLoop_keeps)
    | (apply Keeps.step; with_reducible apply Dev.fencedWrite_keeps)
    | (apply Keeps.step; with_reducible apply Dev.writeState_keeps)
    | (with_reducible apply Keeps.ite <;> intro _)
    | split
    | beta_reduce)

theorem Dev.missSlack_keeps (d : Dev) (l beat : Nat) : Keeps ⟨false, [F.BE_LP_SLACK_last, F.BE_LP_SLACK_win_min, F.BE_LP_SLACK_MIN_min, F.BE_LP_SLACK_MIN_restart], [.be]⟩ d (Dev.missSlack d l beat) := by
  unfold Dev.missSlack
  repeat' (first
    | with_reducible exact Keeps.refl _ _
    | decide +kernel
    | with_reducible assumption
    | lift_lets
    | (intro x; first | (refine Keeps.cut (d0 := d) (d1 := x) ?_ ?_; (on_goal 1 => subst x); (on_goal 2 => (intro _; clear_value x))) | subst x)
    | (apply Keeps.step; with_reducible apply Dev.onLoop_keeps)
    | (apply Keeps.step; with_reducible apply Dev.noteSlack_keeps)
    | (with_reducible apply Keeps.ite <;> intro _)
    | split)

theorem Dev.miss_keeps (d : Dev) (l beat detail : Nat) : Keeps ⟨false, [F.TB_STG_RUN_run, F.TB_STG_COMMIT_pending, F.TB_STG_STAT_running, F.TB_STG_STAT_tripped, F.TB_STG_STAT_fenced, F.PG_STAT_out_high, F.PG_STAT_out_low, F.PG_STAT_trip_hold, F.WM_SW_HELD, F.WM_SW_STAT_held, F.WM_SW_STAT_action, F.WM_SW_STAT_cause_kind, F.WM_SW_STAT_cause_index, F.WM_SW_STAT_count, F.WM_SW_TIME_LO, F.WM_SW_TIME_HI, F.BE_LP_SWAP_active, F.BE_LP_SWAP_pending, F.BE_LP_SWAP_status, F.BE_LP_STAT_state, F.BE_LP_STAT_consec, F.BE_LP_FLAGS_sat, F.BE_LP_FLAGS_swap_clamp, F.BE_LP_FLAGS_deadline, F.BE_LP_MISS_misses, F.BE_LP_SLACK_last, F.BE_LP_SLACK_win_min, F.BE_LP_SLACK_MIN_min, F.BE_LP_SLACK_MIN_restart, F.SC_ABS_LEFT_left, F.SC_ABS_LEFT_awaiting, F.FLT_STAT_lost, F.FLT_LOST], [.tb, .pp, .cv, .be, .sc, .flt]⟩ d (Dev.miss d l beat detail) := by
  unfold Dev.miss
  repeat' (first
    | with_reducible exact Keeps.refl _ _
    | decide +kernel
    | (intro _ _ k; exact k.le)
    | with_reducible assumption
    | lift_lets
    | (intro x; first | (refine Keeps.cut (d0 := e) (d1 := x) ?_ ?_; (on_goal 1 => subst x); (on_goal 2 => (intro _; clear_value x))) | (refine Keeps.cut (d0 := d) (d1 := x) ?_ ?_; (on_goal 1 => subst x); (on_goal 2 => (intro _; clear_value x))) | subst x)
    | (apply Keeps.stepSame; with_reducible apply Dev.each_keeps; intro e _)
    | (apply Keeps.step; with_reducible apply Dev.put_keeps)
    | (apply Keeps.step; with_reducible apply Dev.bump_keeps)
    | (apply Keeps.step; with_reducible apply Dev.setEng_keeps)
    | (apply Keeps.step; with_reducible apply Dev.report_keeps)
    | (apply Keeps.step; with_reducible apply Dev.onLoop_keeps)
    | (apply Keeps.step; with_reducible apply Dev.applySwap_keeps)
    | (apply Keeps.step; with_reducible apply Dev.fenceStage_keeps)
    | (apply Keeps.step; with_reducible apply Dev.missSlack_keeps)
    | (with_reducible apply Keeps.ite <;> intro _)
    | split
    | beta_reduce)

theorem Dev.loopDeadline_keeps (d : Dev) (s m : Nat) (transfer : Bool) : Keeps ⟨false, [F.TB_STG_RUN_run, F.TB_STG_COMMIT_pending, F.TB_STG_STAT_running, F.TB_STG_STAT_tripped, F.TB_STG_STAT_fenced, F.PG_STAT_out_high, F.PG_STAT_out_low, F.PG_STAT_trip_hold, F.WM_SW_HELD, F.WM_SW_STAT_held, F.WM_SW_STAT_action, F.WM_SW_STAT_cause_kind, F.WM_SW_STAT_cause_index, F.WM_SW_STAT_count, F.WM_SW_TIME_LO, F.WM_SW_TIME_HI, F.BE_ENG_STAT_state, F.BE_ENG_STAT_loop, F.BE_ENG_STAT_loops, F.BE_LP_SWAP_active, F.BE_LP_SWAP_pending, F.BE_LP_SWAP_status, F.BE_LP_STAT_state, F.BE_LP_STAT_consec, F.BE_LP_FLAGS_sat, F.BE_LP_FLAGS_swap_clamp, F.BE_LP_FLAGS_deadline, F.BE_LP_MISS_misses, F.BE_LP_SLACK_last, F.BE_LP_SLACK_win_min, F.BE_LP_SLACK_MIN_min, F.BE_LP_SLACK_MIN_restart, F.BE_POOL_STAT_fenced, F.BE_POOL_STAT_free, F.SC_ABS_LEFT_left, F.SC_ABS_LEFT_awaiting, F.FLT_STAT_lost, F.FLT_LOST], [.tb, .pp, .cv, .be, .sc, .flt]⟩ d (Dev.loopDeadline d s m transfer) := by
  unfold Dev.loopDeadline
  repeat' (first
    | with_reducible exact Keeps.refl _ _
    | decide +kernel
    | (intro _ _ k; exact k.le)
    | with_reducible assumption
    | lift_lets
    | (intro x; first | (refine Keeps.cut (d0 := e) (d1 := x) ?_ ?_; (on_goal 1 => subst x); (on_goal 2 => (intro _; clear_value x))) | (refine Keeps.cut (d0 := d) (d1 := x) ?_ ?_; (on_goal 1 => subst x); (on_goal 2 => (intro _; clear_value x))) | subst x)
    | (apply Keeps.stepSame; with_reducible apply Dev.each_keeps; intro e _)
    | (apply Keeps.step; with_reducible apply Dev.dispatchAll_keeps)
    | (apply Keeps.step; with_reducible apply Dev.miss_keeps)
    | (with_reducible apply Keeps.ite <;> intro _)
    | split)

theorem Dev.openBeat_keeps (d : Dev) (n l : Nat) : Keeps ⟨false, [], [.be]⟩ d (Dev.openBeat d n l) := by
  unfold Dev.openBeat
  repeat' (first
    | with_reducible exact Keeps.refl _ _
    | decide +kernel
    | with_reducible assumption
    | lift_lets
    | (intro x; first | (refine Keeps.cut (d0 := d) (d1 := x) ?_ ?_; (on_goal 1 => subst x); (on_goal 2 => (intro _; clear_value x))) | subst x)
    | (apply Keeps.step; with_reducible apply Dev.onLoop_keeps)
    | (with_reducible apply Keeps.ite <;> intro _)
    | split)

theorem Dev.loopUpdate_keeps (d : Dev) (s n : Nat) (transfer : Bool) : Keeps ⟨false, [F.BE_ENG_STAT_state, F.BE_ENG_STAT_loop, F.BE_ENG_STAT_loops, F.BE_ENG_STAT_fenced_writes, F.BE_LP_SWAP_active, F.BE_LP_SWAP_pending, F.BE_LP_SWAP_status, F.BE_LP_STAT_state, F.BE_LP_STAT_consec, F.BE_LP_STAT_update, F.BE_LP_FLAGS_sat, F.BE_LP_FLAGS_swap_clamp, F.BE_LP_DONE_LO, F.BE_LP_DONE_HI, F.BE_POOL_STAT_fenced, F.BE_POOL_STAT_free, F.FLT_STAT_lost, F.FLT_LOST], [.be, .ch, .flt]⟩ d (Dev.loopUpdate d s n transfer) := by
  unfold Dev.loopUpdate
  repeat' (first
    | with_reducible exact Keeps.refl _ _
    | decide +kernel
    | (intro _ _ k; exact k.le)
    | with_reducible assumption
    | lift_lets
    | (intro x; first | (refine Keeps.cut (d0 := e) (d1 := x) ?_ ?_; (on_goal 1 => subst x); (on_goal 2 => (intro _; clear_value x))) | (refine Keeps.cut (d0 := d) (d1 := x) ?_ ?_; (on_goal 1 => subst x); (on_goal 2 => (intro _; clear_value x))) | subst x)
    | (apply Keeps.stepSame; with_reducible apply Dev.each_keeps; intro e _)
    | (apply Keeps.step; with_reducible apply Dev.setRecs_keeps)
    | (apply Keeps.step; with_reducible apply Dev.onLoop_keeps)
    | (apply Keeps.step; with_reducible apply Dev.wake_keeps)
    | (apply Keeps.step; with_reducible apply Dev.dispatchAll_keeps)
    | (apply Keeps.step; with_reducible apply Dev.noteTransfer_keeps)
    | (apply Keeps.step; with_reducible apply Dev.settle_keeps)
    | (apply Keeps.step; with_reducible apply Dev.openBeat_keeps)
    | (with_reducible apply Keeps.ite <;> intro _)
    | split)

theorem Dev.commitReleased_keeps (d : Dev) (l tag : Nat) : Keeps ⟨false, [F.BE_LP_SLACK_last, F.BE_LP_SLACK_win_min, F.BE_LP_SLACK_MIN_min, F.BE_LP_SLACK_MIN_restart, F.BE_LP_DUR_last, F.BE_LP_DUR_max], [.be]⟩ d (Dev.commitReleased d l tag) := by
  unfold Dev.commitReleased
  repeat' (first
    | with_reducible exact Keeps.refl _ _
    | decide +kernel
    | with_reducible assumption
    | lift_lets
    | (intro x; first | (refine Keeps.cut (d0 := d) (d1 := x) ?_ ?_; (on_goal 1 => subst x); (on_goal 2 => (intro _; clear_value x))) | subst x)
    | (apply Keeps.step; with_reducible apply Dev.onLoop_keeps)
    | (apply Keeps.step; with_reducible apply Dev.noteSlack_keeps)
    | (apply Keeps.step; with_reducible apply Dev.noteDur_keeps)
    | (with_reducible apply Keeps.ite <;> intro _)
    | split)

theorem Dev.endOfRun_keeps (d : Dev) (e : Nat) (r : Run) : Keeps ⟨false, [F.BE_ENG_STAT_fenced_writes, F.BE_ENG_RUNS, F.BE_LP_STAT_consec, F.BE_LP_STAT_update, F.BE_LP_SLACK_last, F.BE_LP_SLACK_win_min, F.BE_LP_SLACK_MIN_min, F.BE_LP_SLACK_MIN_restart, F.BE_LP_DUR_last, F.BE_LP_DUR_max, F.BE_LP_DONE_LO, F.BE_LP_DONE_HI, F.FLT_STAT_lost, F.FLT_LOST], [.be, .ch, .flt]⟩ d (Dev.endOfRun d e r) := by
  unfold Dev.endOfRun
  repeat' (first
    | with_reducible exact Keeps.refl _ _
    | decide +kernel
    | with_reducible assumption
    | lift_lets
    | (intro x; first | (refine Keeps.cut (d0 := d) (d1 := x) ?_ ?_; (on_goal 1 => subst x); (on_goal 2 => (intro _; clear_value x))) | subst x)
    | (apply Keeps.step; with_reducible apply Dev.wr_keeps)
    | (apply Keeps.step; with_reducible apply Dev.bump_keeps)
    | (apply Keeps.step; with_reducible apply Dev.setEng_keeps)
    | (apply Keeps.step; with_reducible apply Dev.onLoop_keeps)
    | (apply Keeps.step; with_reducible apply Dev.noteSlack_keeps)
    | (apply Keeps.step; with_reducible apply Dev.noteDur_keeps)
    | (apply Keeps.step; with_reducible apply Dev.fencedWrite_keeps)
    | (apply Keeps.step; with_reducible apply Dev.writeState_keeps)
    | (apply Keeps.step; with_reducible apply Dev.settle_keeps)
    | (with_reducible apply Keeps.ite <;> intro _)
    | split)

theorem Dev.retire_keeps (d : Dev) (e : Nat) (r : Run) : Keeps ⟨false, [F.BE_ENG_STAT_state, F.BE_ENG_STAT_loop, F.BE_ENG_STAT_loops, F.BE_ENG_STAT_fenced_writes, F.BE_ENG_RUNS, F.BE_LP_SWAP_active, F.BE_LP_SWAP_pending, F.BE_LP_SWAP_status, F.BE_LP_STAT_state, F.BE_LP_STAT_consec, F.BE_LP_STAT_update, F.BE_LP_FLAGS_sat, F.BE_LP_FLAGS_swap_clamp, F.BE_LP_SLACK_last, F.BE_LP_SLACK_win_min, F.BE_LP_SLACK_MIN_min, F.BE_LP_SLACK_MIN_restart, F.BE_LP_DUR_last, F.BE_LP_DUR_max, F.BE_LP_DONE_LO, F.BE_LP_DONE_HI, F.BE_POOL_STAT_fenced, F.BE_POOL_STAT_free, F.FLT_STAT_lost, F.FLT_LOST], [.be, .ch, .flt]⟩ d (Dev.retire d e r) := by
  unfold Dev.retire
  repeat' (first
    | with_reducible exact Keeps.refl _ _
    | decide +kernel
    | with_reducible assumption
    | lift_lets
    | (intro x; first | (refine Keeps.cut (d0 := d) (d1 := x) ?_ ?_; (on_goal 1 => subst x); (on_goal 2 => (intro _; clear_value x))) | subst x)
    | (apply Keeps.step; with_reducible apply Dev.setEng_keeps)
    | (apply Keeps.step; with_reducible apply Dev.dispatchAll_keeps)
    | (apply Keeps.step; with_reducible apply Dev.endOfRun_keeps)
    | (with_reducible apply Keeps.ite <;> intro _)
    | split)

theorem Dev.takeOver_keeps (d : Dev) (e s : Nat) : Keeps ⟨false, [F.BE_ENG_STAT_spare, F.BE_ENG_LOOPS_LO, F.BE_ENG_LOOPS_HI, F.BE_LP_STAT_engine, F.BE_POOL_STAT_takeovers], []⟩ d (Dev.takeOver d e s) := by
  unfold Dev.takeOver
  repeat' (first
    | with_reducible exact Keeps.refl _ _
    | decide +kernel
    | (intro _ _ k; exact k.le)
    | with_reducible assumption
    | lift_lets
    | (intro x; first | (refine Keeps.cut (d0 := e) (d1 := x) ?_ ?_; (on_goal 1 => subst x); (on_goal 2 => (intro _; clear_value x))) | (refine Keeps.cut (d0 := d) (d1 := x) ?_ ?_; (on_goal 1 => subst x); (on_goal 2 => (intro _; clear_value x))) | subst x)
    | (apply Keeps.stepSame; with_reducible apply Dev.each_keeps; intro e _)
    | (apply Keeps.step; with_reducible apply Dev.wr_keeps)
    | (apply Keeps.step; with_reducible apply Dev.put_keeps)
    | (apply Keeps.step; with_reducible apply Dev.bump_keeps)
    | (apply Keeps.step; with_reducible apply Dev.wr64_keeps))

theorem Dev.assignWaiting_keeps (d : Dev) : Keeps ⟨false, [F.BE_ENG_STAT_state, F.BE_ENG_STAT_spare, F.BE_ENG_STAT_loop, F.BE_ENG_STAT_loops, F.BE_ENG_LOOPS_LO, F.BE_ENG_LOOPS_HI, F.BE_LP_STAT_state, F.BE_LP_STAT_engine, F.BE_POOL_STAT_fenced, F.BE_POOL_STAT_free, F.BE_POOL_STAT_takeovers], []⟩ d (Dev.assignWaiting d) := by
  unfold Dev.assignWaiting
  repeat' (first
    | with_reducible exact Keeps.refl _ _
    | decide +kernel
    | (intro _ _ k; exact k.le)
    | (apply Keeps.stepSame; with_reducible apply Dev.each_keeps; intro e _)
    | (apply Keeps.step; with_reducible apply Dev.showPool_keeps)
    | (apply Keeps.step; with_reducible apply Dev.takeOver_keeps)
    | (with_reducible apply Keeps.ite <;> intro _)
    | split)

theorem Dev.declareDead_keeps (d : Dev) (e cause : Nat) : Keeps ⟨false, [F.BE_ENG_STAT_state, F.BE_ENG_STAT_spare, F.BE_ENG_STAT_loop, F.BE_ENG_STAT_loops, F.BE_ENG_DEAD, F.BE_ENG_DEAD_cause, F.BE_ENG_DEAD_loop, F.BE_ENG_DEAD_op, F.BE_ENG_DEAD_TIME_LO, F.BE_ENG_DEAD_TIME_HI, F.BE_LP_STAT_state, F.BE_POOL_STAT_fenced, F.BE_POOL_STAT_free, F.FLT_STAT_lost, F.FLT_LOST], [.be, .flt]⟩ d (Dev.declareDead d e cause) := by
  unfold Dev.declareDead
  repeat' (first
    | with_reducible exact Keeps.refl _ _
    | decide +kernel
    | (intro _ _ k; exact k.le)
    | with_reducible assumption
    | lift_lets
    | (intro x; first | (refine Keeps.cut (d0 := e) (d1 := x) ?_ ?_; (on_goal 1 => subst x); (on_goal 2 => (intro _; clear_value x))) | (refine Keeps.cut (d0 := d) (d1 := x) ?_ ?_; (on_goal 1 => subst x); (on_goal 2 => (intro _; clear_value x))) | subst x)
    | (apply Keeps.step; with_reducible apply Dev.withBe_keeps)
    | (apply Keeps.stepSame; with_reducible apply Dev.each_keeps; intro e _)
    | (apply Keeps.step; with_reducible apply Dev.wr_keeps)
    | (apply Keeps.step; with_reducible apply Dev.put_keeps)
    | (apply Keeps.step; with_reducible apply Dev.wr64_keeps)
    | (apply Keeps.step; with_reducible apply Dev.setEng_keeps)
    | (apply Keeps.step; with_reducible apply Dev.markFenced_keeps)
    | (apply Keeps.step; with_reducible apply Dev.postFenced_keeps)
    | (apply Keeps.step; with_reducible apply Dev.onLoop_keeps)
    | (apply Keeps.step; with_reducible apply Dev.showPool_keeps)
    | (with_reducible apply Keeps.ite <;> intro _)
    | split
    | beta_reduce)

theorem Dev.freshLoop_keeps (d : Dev) (l : Nat) : Keeps ⟨false, [], [.be]⟩ d (Dev.freshLoop d l) := by
  unfold Dev.freshLoop
  repeat' (first
    | with_reducible exact Keeps.refl _ _
    | decide +kernel
    | (apply Keeps.step; with_reducible apply Dev.setLoop_keeps))

theorem Dev.sealPool_keeps (d : Dev) : Keeps ⟨false, [F.BE_ENG_STAT_state, F.BE_ENG_STAT_spare, F.BE_ENG_STAT_loop, F.BE_ENG_STAT_loops, F.BE_ENG_LOOPS_LO, F.BE_ENG_LOOPS_HI, F.BE_LP_SWAP_pending, F.BE_LP_SWAP_status, F.BE_LP_STAT_state, F.BE_LP_STAT_engine, F.BE_POOL_STAT_fenced, F.BE_POOL_STAT_free, F.FLT_STAT_lost, F.FLT_LOST], [.be, .flt]⟩ d (Dev.sealPool d) := by
  unfold Dev.sealPool
  repeat' (first
    | with_reducible exact Keeps.refl _ _
    | decide +kernel
    | (intro _ _ k; exact k.le)
    | with_reducible assumption
    | lift_lets
    | (intro x; first | (refine Keeps.cut (d0 := e) (d1 := x) ?_ ?_; (on_goal 1 => subst x); (on_goal 2 => (intro _; clear_value x))) | (refine Keeps.cut (d0 := d) (d1 := x) ?_ ?_; (on_goal 1 => subst x); (on_goal 2 => (intro _; clear_value x))) | subst x)
    | (apply Keeps.stepSame; with_reducible apply Dev.each_keeps; intro e _)
    | (apply Keeps.step; with_reducible apply Dev.wr_keeps)
    | (apply Keeps.step; with_reducible apply Dev.put_keeps)
    | (apply Keeps.step; with_reducible apply Dev.wr64_keeps)
    | (apply Keeps.step; with_reducible apply Dev.markFenced_keeps)
    | (apply Keeps.step; with_reducible apply Dev.showPool_keeps)
    | (apply Keeps.step; with_reducible apply Dev.fenceLoop_keeps)
    | (apply Keeps.step; with_reducible apply Dev.freshLoop_keeps)
    | (apply Keeps.stepSame; with_reducible apply Dev.foldl_keeps; intro e _)
    | (with_reducible apply Keeps.ite <;> intro _)
    | split)

theorem Dev.unsealPool_keeps (d : Dev) : Keeps ⟨false, [F.BE_ENG_STAT_state, F.BE_ENG_STAT_loop, F.BE_ENG_STAT_loops, F.BE_LP_STAT_state, F.BE_POOL_STAT_fenced, F.BE_POOL_STAT_free], [.be]⟩ d (Dev.unsealPool d) := by
  unfold Dev.unsealPool
  repeat' (first
    | with_reducible exact Keeps.refl _ _
    | decide +kernel
    | (intro _ _ k; exact k.le)
    | with_reducible assumption
    | lift_lets
    | (intro x; first | (refine Keeps.cut (d0 := e) (d1 := x) ?_ ?_; (on_goal 1 => subst x); (on_goal 2 => (intro _; clear_value x))) | (refine Keeps.cut (d0 := d) (d1 := x) ?_ ?_; (on_goal 1 => subst x); (on_goal 2 => (intro _; clear_value x))) | subst x)
    | (apply Keeps.stepSame; with_reducible apply Dev.each_keeps; intro e _)
    | (apply Keeps.step; with_reducible apply Dev.setEng_keeps)
    | (apply Keeps.step; with_reducible apply Dev.showPool_keeps)
    | (apply Keeps.step; with_reducible apply Dev.freshLoop_keeps))

theorem Dev.admitStage_keeps (d : Dev) (s : Nat) : Keeps ⟨false, [F.TB_STG_STAT_fenced, F.BE_LP_STAT_state, F.BE_LP_STAT_consec], [.flt]⟩ d (Dev.admitStage d s) := by
  unfold Dev.admitStage
  repeat' (first
    | with_reducible exact Keeps.refl _ _
    | decide +kernel
    | (intro _ _ k; exact k.le)
    | with_reducible assumption
    | lift_lets
    | (intro x; first | (refine Keeps.cut (d0 := e) (d1 := x) ?_ ?_; (on_goal 1 => subst x); (on_goal 2 => (intro _; clear_value x))) | (refine Keeps.cut (d0 := d) (d1 := x) ?_ ?_; (on_goal 1 => subst x); (on_goal 2 => (intro _; clear_value x))) | subst x)
    | (apply Keeps.stepSame; with_reducible apply Dev.each_keeps; intro e _)
    | (apply Keeps.step; with_reducible apply Dev.wr_keeps)
    | (apply Keeps.step; with_reducible apply Dev.put_keeps)
    | (apply Keeps.step; with_reducible apply Dev.markFenced_keeps)
    | (apply Keeps.step; with_reducible apply Dev.showLoop_keeps)
    | (with_reducible apply Keeps.ite <;> intro _)
    | split)

end Sys2Proof.Machine
end

