-- ==== Sys2Proof/Laws/KeepsTraction.lean ====
section
/-! SUPPORT. What the effects of Traction.lean keep. -/

namespace Sys2Proof.Machine

set_option Elab.async false

theorem Dev.setPar_keeps (d : Dev) (l k : Nat) (v : Word) : Keeps ⟨false, [], [.be]⟩ d (Dev.setPar d l k v) := by
  unfold Dev.setPar
  repeat' (first
    | with_reducible exact Keeps.refl _ _
    | decide +kernel
    | (apply Keeps.step; with_reducible apply Dev.setLt_keeps))

theorem Dev.setPars_keeps (d : Dev) (l : Nat) (vs : List (Nat × Word)) : Keeps ⟨false, [], [.be]⟩ d (Dev.setPars d l vs) := by
  unfold Dev.setPars
  repeat' (first
    | with_reducible exact Keeps.refl _ _
    | decide +kernel
    | (intro _ _ k; exact k.le)
    | (apply Keeps.step; with_reducible apply Dev.setPar_keeps)
    | (apply Keeps.stepSame; with_reducible apply Dev.foldl_keeps; intro e _))

theorem Dev.stopStages_keeps (d : Dev) (ss : List Nat) : Keeps ⟨false, [F.TB_STG_RUN_run, F.TB_STG_STAT_running, F.PG_STAT_out_high, F.PG_STAT_out_low, F.SC_ABS_LEFT_left, F.SC_ABS_LEFT_awaiting], [.tb, .pp, .sc]⟩ d (Dev.stopStages d ss) := by
  unfold Dev.stopStages
  repeat' (first
    | with_reducible exact Keeps.refl _ _
    | decide +kernel
    | (intro _ _ k; exact k.le)
    | (apply Keeps.stepSame; with_reducible apply Dev.each_keeps; intro e _)
    | (apply Keeps.step; with_reducible apply Dev.stopStage_keeps))

theorem Dev.tmGo_keeps (d : Dev) (m new : Nat) : Keeps ⟨false, [F.SC_TM_STAT_state], [.hi]⟩ d (Dev.tmGo d m new) := by
  unfold Dev.tmGo
  repeat' (first
    | with_reducible exact Keeps.refl _ _
    | decide +kernel
    | with_reducible assumption
    | lift_lets
    | (intro x; first | (refine Keeps.cut (d0 := d) (d1 := x) ?_ ?_; (on_goal 1 => subst x); (on_goal 2 => (intro _; clear_value x))) | subst x)
    | (apply Keeps.step; with_reducible apply Dev.wr_keeps)
    | (apply Keeps.step; with_reducible apply Dev.stateEvent_keeps)
    | (with_reducible apply Keeps.ite <;> intro _)
    | split)

theorem Dev.tmBlock_keeps (d : Dev) (m : Nat) : Keeps ⟨false, [], [.be]⟩ d (Dev.tmBlock d m) := by
  unfold Dev.tmBlock
  repeat' (first
    | with_reducible exact Keeps.refl _ _
    | decide +kernel
    | (intro _ _ k; exact k.le)
    | with_reducible assumption
    | lift_lets
    | (intro x; first | (refine Keeps.cut (d0 := e) (d1 := x) ?_ ?_; (on_goal 1 => subst x); (on_goal 2 => (intro _; clear_value x))) | (refine Keeps.cut (d0 := d) (d1 := x) ?_ ?_; (on_goal 1 => subst x); (on_goal 2 => (intro _; clear_value x))) | subst x)
    | (apply Keeps.stepSame; with_reducible apply Dev.each_keeps; intro e _)
    | (apply Keeps.step; with_reducible apply Dev.setPars_keeps)
    | (with_reducible apply Keeps.ite <;> intro _)
    | split
    | beta_reduce)

theorem Dev.onTm_keeps (d : Dev) (m : Nat) (f : TmT → TmT) : Keeps ⟨false, [], [.tm]⟩ d (Dev.onTm d m f) := by
  unfold Dev.onTm
  repeat' (first
    | with_reducible exact Keeps.refl _ _
    | decide +kernel
    | (apply Keeps.step; with_reducible apply Dev.setTm_keeps))

theorem Dev.tmSeed_keeps (d : Dev) (m : Nat) (speed : Word) : Keeps ⟨false, [F.SC_TM_STAT_token], [.tm]⟩ d (Dev.tmSeed d m speed) := by
  unfold Dev.tmSeed
  repeat' (first
    | with_reducible exact Keeps.refl _ _
    | decide +kernel
    | with_reducible assumption
    | lift_lets
    | (intro x; first | (refine Keeps.cut (d0 := d) (d1 := x) ?_ ?_; (on_goal 1 => subst x); (on_goal 2 => (intro _; clear_value x))) | subst x)
    | (apply Keeps.step; with_reducible apply Dev.wr_keeps)
    | (apply Keeps.step; with_reducible apply Dev.onTm_keeps))

theorem Dev.tmFinish_keeps (d : Dev) (m st : Nat) : Keeps ⟨false, [F.SC_TM_STAT_last_status, F.SC_TM_CNT_refusals, F.SC_CH_STAT_last_status, F.SC_LV_STAT_last_status, F.SC_DR_STAT_last_status, F.HI_QP_CTRL_draining, F.HI_QP_FLAGS_in_flight, F.CN_STAT_slots, F.FLT_STAT_lost, F.FLT_LOST], [.tm, .hi, .cn, .flt]⟩ d (Dev.tmFinish d m st) := by
  unfold Dev.tmFinish
  repeat' (first
    | with_reducible exact Keeps.refl _ _
    | decide +kernel
    | (apply Keeps.step; with_reducible apply Dev.finishJob_keeps)
    | (apply Keeps.step; with_reducible apply Dev.onTm_keeps))

theorem Dev.tmSupersede_keeps (d : Dev) (m : Nat) (job : Nat × Nat) (mode : Nat) (target : Word) : Keeps ⟨false, [F.SC_TM_STAT_last_status, F.SC_TM_CNT_refusals, F.SC_CH_STAT_last_status, F.SC_LV_STAT_last_status, F.SC_DR_STAT_last_status, F.HI_QP_CTRL_draining, F.HI_QP_FLAGS_in_flight, F.CN_STAT_slots, F.FLT_STAT_lost, F.FLT_LOST], [.tm, .hi, .cn, .flt]⟩ d (Dev.tmSupersede d m job mode target) := by
  unfold Dev.tmSupersede
  repeat' (first
    | with_reducible exact Keeps.refl _ _
    | decide +kernel
    | (apply Keeps.step; with_reducible apply Dev.onTm_keeps)
    | (apply Keeps.step; with_reducible apply Dev.tmFinish_keeps))

theorem Dev.tmRest_keeps (d : Dev) (m : Nat) : Keeps ⟨false, [F.TB_STG_RUN_run, F.TB_STG_STAT_running, F.PG_STAT_out_high, F.PG_STAT_out_low, F.SC_TM_STAT_active, F.SC_ABS_LEFT_left, F.SC_ABS_LEFT_awaiting], [.tb, .pp, .be, .tm, .sc]⟩ d (Dev.tmRest d m) := by
  unfold Dev.tmRest
  repeat' (first
    | with_reducible exact Keeps.refl _ _
    | decide +kernel
    | with_reducible assumption
    | lift_lets
    | (intro x; first | (refine Keeps.cut (d0 := d) (d1 := x) ?_ ?_; (on_goal 1 => subst x); (on_goal 2 => (intro _; clear_value x))) | subst x)
    | (apply Keeps.step; with_reducible apply Dev.wr_keeps)
    | (apply Keeps.step; with_reducible apply Dev.stopStages_keeps)
    | (apply Keeps.step; with_reducible apply Dev.tmBlock_keeps)
    | (apply Keeps.step; with_reducible apply Dev.onTm_keeps))

theorem Dev.tmMeasure_keeps (d : Dev) (m : Nat) : Keeps ⟨false, [F.SC_TM_STAT_state], [.tm, .hi]⟩ d (Dev.tmMeasure d m) := by
  unfold Dev.tmMeasure
  repeat' (first
    | with_reducible exact Keeps.refl _ _
    | decide +kernel
    | with_reducible assumption
    | lift_lets
    | (intro x; first | (refine Keeps.cut (d0 := d) (d1 := x) ?_ ?_; (on_goal 1 => subst x); (on_goal 2 => (intro _; clear_value x))) | subst x)
    | (apply Keeps.step; with_reducible apply Dev.tmGo_keeps)
    | (apply Keeps.step; with_reducible apply Dev.onTm_keeps)
    | (with_reducible apply Keeps.ite <;> intro _)
    | split)

theorem Dev.tmTarget_keeps (d : Dev) (m q i mode : Nat) (target : Word) : Keeps ⟨false, [F.TB_STG_RUN_run, F.TB_STG_STAT_running, F.PG_STAT_out_high, F.PG_STAT_out_low, F.SC_TM_STAT_state, F.SC_TM_STAT_active, F.SC_TM_STAT_last_status, F.SC_TM_STAT_token, F.SC_TM_CNT_refusals, F.SC_CH_STAT_last_status, F.SC_LV_STAT_last_status, F.SC_DR_STAT_last_status, F.SC_ABS_LEFT_left, F.SC_ABS_LEFT_awaiting, F.HI_QP_CTRL_draining, F.HI_QP_FLAGS_in_flight, F.CN_STAT_slots, F.FLT_STAT_lost, F.FLT_LOST], [.tb, .pp, .be, .tm, .sc, .hi, .cn, .flt]⟩ d (Dev.tmTarget d m q i mode target) := by
  unfold Dev.tmTarget
  repeat' (first
    | with_reducible exact Keeps.refl _ _
    | decide +kernel
    | with_reducible assumption
    | lift_lets
    | (intro x; first | (refine Keeps.cut (d0 := d) (d1 := x) ?_ ?_; (on_goal 1 => subst x); (on_goal 2 => (intro _; clear_value x))) | subst x)
    | (apply Keeps.step; with_reducible apply Dev.finish_keeps)
    | (apply Keeps.step; with_reducible apply Dev.tmGo_keeps)
    | (apply Keeps.step; with_reducible apply Dev.tmBlock_keeps)
    | (apply Keeps.step; with_reducible apply Dev.onTm_keeps)
    | (apply Keeps.step; with_reducible apply Dev.tmSeed_keeps)
    | (apply Keeps.step; with_reducible apply Dev.tmSupersede_keeps)
    | (apply Keeps.step; with_reducible apply Dev.tmRest_keeps)
    | (apply Keeps.step; with_reducible apply Dev.tmMeasure_keeps)
    | (with_reducible apply Keeps.ite <;> intro _)
    | split)

theorem Dev.tmStart_keeps (d : Dev) (q i : Nat) (x : Descr) : Keeps ⟨false, [F.TB_STG_RUN_run, F.TB_STG_STAT_running, F.PG_STAT_out_high, F.PG_STAT_out_low, F.SC_TM_STAT_state, F.SC_TM_STAT_active, F.SC_TM_STAT_lost, F.SC_TM_STAT_last_status, F.SC_TM_STAT_token, F.SC_TM_CNT_refusals, F.SC_CH_STAT_last_status, F.SC_LV_STAT_last_status, F.SC_DR_STAT_last_status, F.SC_ABS_LEFT_left, F.SC_ABS_LEFT_awaiting, F.HI_QP_CTRL_draining, F.HI_QP_FLAGS_in_flight, F.CN_STAT_slots, F.FLT_STAT_lost, F.FLT_LOST], [.tb, .pp, .be, .tm, .sc, .hi, .cn, .flt]⟩ d (Dev.tmStart d q i x) := by
  unfold Dev.tmStart
  repeat' (first
    | with_reducible exact Keeps.refl _ _
    | decide +kernel
    | with_reducible assumption
    | lift_lets
    | (intro x; first | (refine Keeps.cut (d0 := d) (d1 := x) ?_ ?_; (on_goal 1 => subst x); (on_goal 2 => (intro _; clear_value x))) | subst x)
    | (apply Keeps.step; with_reducible apply Dev.wr_keeps)
    | (apply Keeps.step; with_reducible apply Dev.finish_keeps)
    | (apply Keeps.step; with_reducible apply Dev.tmSupersede_keeps)
    | (apply Keeps.step; with_reducible apply Dev.tmMeasure_keeps)
    | (apply Keeps.step; with_reducible apply Dev.tmTarget_keeps)
    | (with_reducible apply Keeps.ite <;> intro _)
    | split)

theorem Dev.tmStop_keeps (d : Dev) (m word : Nat) : Keeps ⟨false, [F.TB_STG_RUN_run, F.TB_STG_STAT_running, F.PG_STAT_out_high, F.PG_STAT_out_low, F.SC_TM_STAT_state, F.SC_TM_STAT_active, F.SC_TM_STAT_last_status, F.SC_TM_CNT_refusals, F.SC_CH_STAT_last_status, F.SC_LV_STAT_last_status, F.SC_DR_STAT_last_status, F.SC_ABS_LEFT_left, F.SC_ABS_LEFT_awaiting, F.HI_QP_CTRL_draining, F.HI_QP_FLAGS_in_flight, F.CN_STAT_slots, F.FLT_STAT_lost, F.FLT_LOST], [.tb, .pp, .be, .tm, .sc, .hi, .cn, .flt]⟩ d (Dev.tmStop d m word) := by
  unfold Dev.tmStop
  repeat' (first
    | with_reducible exact Keeps.refl _ _
    | decide +kernel
    | (apply Keeps.step; with_reducible apply Dev.tmGo_keeps)
    | (apply Keeps.step; with_reducible apply Dev.tmFinish_keeps)
    | (apply Keeps.step; with_reducible apply Dev.tmRest_keeps))

theorem execTmStart_runs (t : Nat) (q : Fin 64) (i : Nat) (s : State) :
    Runs ⟨false, [F.TB_STG_RUN_run, F.TB_STG_STAT_running, F.PG_STAT_out_high, F.PG_STAT_out_low, F.SC_TM_STAT_state, F.SC_TM_STAT_active, F.SC_TM_STAT_lost, F.SC_TM_STAT_last_status, F.SC_TM_STAT_token, F.SC_TM_CNT_refusals, F.SC_CH_STAT_last_status, F.SC_LV_STAT_last_status, F.SC_DR_STAT_last_status, F.SC_ABS_LEFT_left, F.SC_ABS_LEFT_awaiting, F.HI_QP_CTRL_draining, F.HI_QP_FLAGS_in_flight, F.CN_STAT_slots, F.FLT_STAT_lost, F.FLT_LOST], [.tb, .pp, .be, .tm, .sc, .hi, .cn, .flt]⟩ t s (execTmStart t q i s) := by
  unfold execTmStart
  refine Runs.of fun d => ?_
  repeat' (first
    | with_reducible exact Keeps.refl _ _
    | decide +kernel
    | (intro _ _ k; exact k.le)
    | (apply Keeps.stepSame; with_reducible apply Dev.startItem_keeps; intro e _)
    | (apply Keeps.step; with_reducible apply Dev.tmStart_keeps))

theorem execTmTarget_runs (t : Nat) (q : Fin 64) (i : Nat) (s : State) :
    Runs ⟨false, [F.TB_STG_RUN_run, F.TB_STG_STAT_running, F.PG_STAT_out_high, F.PG_STAT_out_low, F.SC_TM_STAT_state, F.SC_TM_STAT_active, F.SC_TM_STAT_last_status, F.SC_TM_STAT_token, F.SC_TM_CNT_refusals, F.SC_CH_STAT_last_status, F.SC_LV_STAT_last_status, F.SC_DR_STAT_last_status, F.SC_ABS_LEFT_left, F.SC_ABS_LEFT_awaiting, F.HI_QP_CTRL_draining, F.HI_QP_FLAGS_in_flight, F.CN_STAT_slots, F.FLT_STAT_lost, F.FLT_LOST], [.tb, .pp, .be, .tm, .sc, .hi, .cn, .flt]⟩ t s (execTmTarget t q i s) := by
  unfold execTmTarget
  refine Runs.of fun d => ?_
  repeat' (first
    | with_reducible exact Keeps.refl _ _
    | decide +kernel
    | (intro _ _ k; exact k.le)
    | (apply Keeps.step; with_reducible apply Dev.finish_keeps)
    | (apply Keeps.stepSame; with_reducible apply Dev.startItem_keeps; intro e _)
    | (apply Keeps.step; with_reducible apply Dev.tmTarget_keeps)
    | (with_reducible apply Keeps.ite <;> intro _)
    | split)

theorem execTmStop_runs (t : Nat) (q : Fin 64) (i : Nat) (s : State) :
    Runs ⟨false, [F.TB_STG_RUN_run, F.TB_STG_STAT_running, F.PG_STAT_out_high, F.PG_STAT_out_low, F.SC_TM_STAT_state, F.SC_TM_STAT_active, F.SC_TM_STAT_last_status, F.SC_TM_CNT_refusals, F.SC_CH_STAT_last_status, F.SC_LV_STAT_last_status, F.SC_DR_STAT_last_status, F.SC_ABS_LEFT_left, F.SC_ABS_LEFT_awaiting, F.HI_QP_CTRL_draining, F.HI_QP_FLAGS_in_flight, F.CN_STAT_slots, F.FLT_STAT_lost, F.FLT_LOST], [.tb, .pp, .be, .tm, .sc, .hi, .cn, .flt]⟩ t s (execTmStop t q i s) := by
  unfold execTmStop
  refine Runs.of fun d => ?_
  repeat' (first
    | with_reducible exact Keeps.refl _ _
    | decide +kernel
    | (intro _ _ k; exact k.le)
    | (apply Keeps.step; with_reducible apply Dev.finish_keeps)
    | (apply Keeps.stepSame; with_reducible apply Dev.startItem_keeps; intro e _)
    | (apply Keeps.step; with_reducible apply Dev.tmStop_keeps)
    | (with_reducible apply Keeps.ite <;> intro _)
    | split)

theorem Dev.tmRefuse_keeps (d : Dev) (m st : Nat) : Keeps ⟨false, [F.SC_TM_STAT_state, F.SC_TM_STAT_last_status, F.SC_TM_CNT_refusals, F.SC_CH_STAT_last_status, F.SC_LV_STAT_last_status, F.SC_DR_STAT_last_status, F.HI_QP_CTRL_draining, F.HI_QP_FLAGS_in_flight, F.CN_STAT_slots, F.FLT_STAT_lost, F.FLT_LOST], [.tm, .hi, .cn, .flt]⟩ d (Dev.tmRefuse d m st) := by
  unfold Dev.tmRefuse
  repeat' (first
    | with_reducible exact Keeps.refl _ _
    | decide +kernel
    | (apply Keeps.step; with_reducible apply Dev.tmGo_keeps)
    | (apply Keeps.step; with_reducible apply Dev.tmFinish_keeps))

theorem Dev.tmOpen_keeps (d : Dev) (m pmode new : Nat) : Keeps ⟨false, [F.SC_TM_STAT_state], [.be, .tm, .hi]⟩ d (Dev.tmOpen d m pmode new) := by
  unfold Dev.tmOpen
  repeat' (first
    | with_reducible exact Keeps.refl _ _
    | decide +kernel
    | with_reducible assumption
    | lift_lets
    | (intro x; first | (refine Keeps.cut (d0 := d) (d1 := x) ?_ ?_; (on_goal 1 => subst x); (on_goal 2 => (intro _; clear_value x))) | subst x)
    | (apply Keeps.step; with_reducible apply Dev.tmGo_keeps)
    | (apply Keeps.step; with_reducible apply Dev.tmBlock_keeps)
    | (apply Keeps.step; with_reducible apply Dev.onTm_keeps))

theorem Dev.tmDecide_keeps (d : Dev) (m : Nat) (speed : Option Int) : Keeps ⟨false, [F.SC_TM_STAT_state, F.SC_TM_STAT_active, F.SC_TM_STAT_last_status, F.SC_TM_STAT_token, F.SC_TM_CNT_refusals, F.SC_CH_STAT_last_status, F.SC_LV_STAT_last_status, F.SC_DR_STAT_last_status, F.HI_QP_CTRL_draining, F.HI_QP_FLAGS_in_flight, F.CN_STAT_slots, F.FLT_STAT_lost, F.FLT_LOST], [.be, .tm, .hi, .cn, .flt]⟩ d (Dev.tmDecide d m speed) := by
  unfold Dev.tmDecide
  repeat' (first
    | with_reducible exact Keeps.refl _ _
    | decide +kernel
    | with_reducible assumption
    | lift_lets
    | (intro x; first | (refine Keeps.cut (d0 := d) (d1 := x) ?_ ?_; (on_goal 1 => subst x); (on_goal 2 => (intro _; clear_value x))) | subst x)
    | (apply Keeps.step; with_reducible apply Dev.wr_keeps)
    | (apply Keeps.step; with_reducible apply Dev.tmSeed_keeps)
    | (apply Keeps.step; with_reducible apply Dev.tmRefuse_keeps)
    | (apply Keeps.step; with_reducible apply Dev.tmOpen_keeps)
    | (with_reducible apply Keeps.ite <;> intro _)
    | split
    | beta_reduce)

theorem Dev.catchAngle_keeps (d : Dev) (m : Nat) (n : Int) : Keeps ⟨false, [], [.tm]⟩ d (Dev.catchAngle d m n) := by
  unfold Dev.catchAngle
  repeat' (first
    | with_reducible exact Keeps.refl _ _
    | decide +kernel
    | with_reducible assumption
    | lift_lets
    | (intro x; first | (refine Keeps.cut (d0 := d) (d1 := x) ?_ ?_; (on_goal 1 => subst x); (on_goal 2 => (intro _; clear_value x))) | subst x)
    | (apply Keeps.step; with_reducible apply Dev.onTm_keeps)
    | (with_reducible apply Keeps.ite <;> intro _)
    | split)

theorem Dev.tmSpeed_keeps (d : Dev) (m : Nat) (n : Word) : Keeps ⟨false, [F.SC_TM_SPEED], [.tm]⟩ d (Dev.tmSpeed d m n) := by
  unfold Dev.tmSpeed
  repeat' (first
    | with_reducible exact Keeps.refl _ _
    | decide +kernel
    | (apply Keeps.step; with_reducible apply Dev.wr_keeps)
    | (apply Keeps.step; with_reducible apply Dev.onTm_keeps))

theorem execTmCatchDecision_runs (t : Nat) (m : Fin 2) (mv : List Nat) (s : State) :
    Runs ⟨false, [F.PP_STAT_uvlo_hi_live, F.PP_STAT_uvlo_lo_live, F.PP_STAT_uvlo, F.PP_CNT_uvlo, F.PP_SUPPLY_hi_supply, F.PP_SUPPLY_lo_supply, F.SC_TM_STAT_state, F.SC_TM_STAT_active, F.SC_TM_STAT_last_status, F.SC_TM_STAT_token, F.SC_TM_SPEED, F.SC_TM_CNT_refusals, F.SC_CH_STAT_last_status, F.SC_LV_STAT_last_status, F.SC_DR_STAT_last_status, F.HI_QP_CTRL_draining, F.HI_QP_FLAGS_in_flight, F.CN_STAT_slots, F.FLT_STAT_lost, F.FLT_LOST], [.pp, .be, .tm, .hi, .cn, .flt]⟩ t s (execTmCatchDecision t m mv s) := by
  unfold execTmCatchDecision
  refine Runs.of fun d => ?_
  repeat' (first
    | with_reducible exact Keeps.refl _ _
    | decide +kernel
    | (intro _ _ k; exact k.le)
    | with_reducible assumption
    | lift_lets
    | (intro x; first | (refine Keeps.cut (d0 := e) (d1 := x) ?_ ?_; (on_goal 1 => subst x); (on_goal 2 => (intro _; clear_value x))) | (refine Keeps.cut (d0 := d) (d1 := x) ?_ ?_; (on_goal 1 => subst x); (on_goal 2 => (intro _; clear_value x))) | subst x)
    | (apply Keeps.stepSame; with_reducible apply Dev.each_keeps; intro e _)
    | (apply Keeps.step; with_reducible apply Dev.supplyAt_keeps)
    | (apply Keeps.step; with_reducible apply Dev.onTm_keeps)
    | (apply Keeps.step; with_reducible apply Dev.tmRefuse_keeps)
    | (apply Keeps.step; with_reducible apply Dev.tmDecide_keeps)
    | (apply Keeps.step; with_reducible apply Dev.catchAngle_keeps)
    | (apply Keeps.step; with_reducible apply Dev.tmSpeed_keeps)
    | (with_reducible apply Keeps.ite <;> intro _)
    | split
    | beta_reduce)

theorem Dev.tmReengage_keeps (d : Dev) (m : Nat) : Keeps ⟨false, [F.SC_TM_STAT_state], [.tm, .hi]⟩ d (Dev.tmReengage d m) := by
  unfold Dev.tmReengage
  repeat' (first
    | with_reducible exact Keeps.refl _ _
    | decide +kernel
    | with_reducible assumption
    | lift_lets
    | (intro x; first | (refine Keeps.cut (d0 := d) (d1 := x) ?_ ?_; (on_goal 1 => subst x); (on_goal 2 => (intro _; clear_value x))) | subst x)
    | (apply Keeps.step; with_reducible apply Dev.tmMeasure_keeps)
    | (with_reducible apply Keeps.ite <;> intro _)
    | split)

theorem execCatchTimeExpiry_runs (t : Nat) (m : Fin 2) (s : State) :
    Runs ⟨false, [F.SC_TM_STAT_state, F.SC_TM_STAT_active, F.SC_TM_STAT_last_status, F.SC_TM_STAT_token, F.SC_TM_CNT_refusals, F.SC_CH_STAT_last_status, F.SC_LV_STAT_last_status, F.SC_DR_STAT_last_status, F.HI_QP_CTRL_draining, F.HI_QP_FLAGS_in_flight, F.CN_STAT_slots, F.FLT_STAT_lost, F.FLT_LOST], [.be, .tm, .hi, .cn, .flt]⟩ t s (execCatchTimeExpiry t m s) := by
  unfold execCatchTimeExpiry
  refine Runs.of fun d => ?_
  repeat' (first
    | with_reducible exact Keeps.refl _ _
    | decide +kernel
    | with_reducible assumption
    | lift_lets
    | (intro x; first | (refine Keeps.cut (d0 := d) (d1 := x) ?_ ?_; (on_goal 1 => subst x); (on_goal 2 => (intro _; clear_value x))) | subst x)
    | (apply Keeps.step; with_reducible apply Dev.onTm_keeps)
    | (apply Keeps.step; with_reducible apply Dev.tmRefuse_keeps)
    | (apply Keeps.step; with_reducible apply Dev.tmDecide_keeps)
    | (apply Keeps.step; with_reducible apply Dev.tmReengage_keeps)
    | (with_reducible apply Keeps.ite <;> intro _)
    | split)

theorem execPrechargeExpiry_runs (t : Nat) (m : Fin 2) (s : State) :
    Runs ⟨false, [F.SC_TM_STAT_state, F.SC_TM_STAT_token], [.be, .tm, .hi]⟩ t s (execPrechargeExpiry t m s) := by
  unfold execPrechargeExpiry
  refine Runs.of fun d => ?_
  repeat' (first
    | with_reducible exact Keeps.refl _ _
    | decide +kernel
    | (intro _ _ k; exact k.le)
    | with_reducible assumption
    | lift_lets
    | (intro x; first | (refine Keeps.cut (d0 := e) (d1 := x) ?_ ?_; (on_goal 1 => subst x); (on_goal 2 => (intro _; clear_value x))) | (refine Keeps.cut (d0 := d) (d1 := x) ?_ ?_; (on_goal 1 => subst x); (on_goal 2 => (intro _; clear_value x))) | subst x)
    | (apply Keeps.step; with_reducible apply Dev.tmSeed_keeps)
    | (apply Keeps.step; with_reducible apply Dev.tmOpen_keeps)
    | (apply Keeps.stepSame; with_reducible apply Dev.foldl_keeps; intro e _)
    | (with_reducible apply Keeps.ite <;> intro _)
    | split)

theorem Dev.tmStartSet_keeps (d : Dev) (s : Nat) : Keeps ⟨false, [F.TB_STG_RUN_run, F.PG_STAT_out_high, F.PG_STAT_out_low, F.PG_STAT_trip_hold, F.SH_CAL_CTRL_busy, F.SH_CAL_CTRL_status, F.CV_STAT_urgent, F.SC_ABS_LEFT_expired, F.SC_ABS_LEFT_awaiting], [.tb, .pp, .sh, .cv, .sc]⟩ d (Dev.tmStartSet d s) := by
  unfold Dev.tmStartSet
  repeat' (first
    | with_reducible exact Keeps.refl _ _
    | decide +kernel
    | with_reducible assumption
    | lift_lets
    | (intro x; first | (refine Keeps.cut (d0 := d) (d1 := x) ?_ ?_; (on_goal 1 => subst x); (on_goal 2 => (intro _; clear_value x))) | subst x)
    | (apply Keeps.step; with_reducible apply Dev.startStage_keeps)
    | (with_reducible apply Keeps.ite <;> intro _)
    | split
    | beta_reduce)

theorem execCatchHoldDone_runs (t : Nat) (m : Fin 2) (s : State) :
    Runs ⟨false, [F.SC_TM_STAT_state, F.SC_TM_STAT_last_status, F.SC_TM_CNT_catches, F.SC_TM_CNT_refusals, F.SC_CH_STAT_last_status, F.SC_LV_STAT_last_status, F.SC_DR_STAT_last_status, F.HI_QP_CTRL_draining, F.HI_QP_FLAGS_in_flight, F.CN_STAT_slots, F.FLT_STAT_lost, F.FLT_LOST], [.be, .tm, .hi, .cn, .flt]⟩ t s (execCatchHoldDone t m s) := by
  unfold execCatchHoldDone
  refine Runs.of fun d => ?_
  repeat' (first
    | with_reducible exact Keeps.refl _ _
    | decide +kernel
    | (intro _ _ k; exact k.le)
    | with_reducible assumption
    | lift_lets
    | (intro x; first | (refine Keeps.cut (d0 := e) (d1 := x) ?_ ?_; (on_goal 1 => subst x); (on_goal 2 => (intro _; clear_value x))) | (refine Keeps.cut (d0 := d) (d1 := x) ?_ ?_; (on_goal 1 => subst x); (on_goal 2 => (intro _; clear_value x))) | subst x)
    | (apply Keeps.step; with_reducible apply Dev.bump_keeps)
    | (apply Keeps.step; with_reducible apply Dev.tmGo_keeps)
    | (apply Keeps.step; with_reducible apply Dev.tmBlock_keeps)
    | (apply Keeps.step; with_reducible apply Dev.onTm_keeps)
    | (apply Keeps.step; with_reducible apply Dev.tmFinish_keeps)
    | (apply Keeps.stepSame; with_reducible apply Dev.foldl_keeps; intro e _)
    | (with_reducible apply Keeps.ite <;> intro _)
    | split)

theorem execReengage_runs (t : Nat) (m : Fin 2) (s : State) :
    Runs ⟨false, [F.SC_TM_STAT_state], [.tm, .hi]⟩ t s (execReengage t m s) := by
  unfold execReengage
  refine Runs.of fun d => ?_
  repeat' (first
    | with_reducible exact Keeps.refl _ _
    | decide +kernel
    | (apply Keeps.step; with_reducible apply Dev.tmReengage_keeps))

theorem Dev.ucgCheck_keeps (d : Dev) (m : Nat) : Keeps ⟨false, [F.SC_TM_STAT_ucg, F.SC_TM_CNT_ucg, F.FLT_STAT_lost, F.FLT_LOST], [.flt]⟩ d (Dev.ucgCheck d m) := by
  unfold Dev.ucgCheck
  repeat' (first
    | with_reducible exact Keeps.refl _ _
    | decide +kernel
    | with_reducible assumption
    | lift_lets
    | (intro x; first | (refine Keeps.cut (d0 := d) (d1 := x) ?_ ?_; (on_goal 1 => subst x); (on_goal 2 => (intro _; clear_value x))) | subst x)
    | (apply Keeps.step; with_reducible apply Dev.put_keeps)
    | (apply Keeps.step; with_reducible apply Dev.bump_keeps)
    | (apply Keeps.step; with_reducible apply Dev.post_keeps)
    | (apply Keeps.step; with_reducible apply Dev.report_keeps)
    | (with_reducible apply Keeps.ite <;> intro _)
    | split)

theorem execSpeedRefresh_runs (t : Nat) (m : Fin 2) (s : State) :
    Runs ⟨false, [F.SC_TM_STAT_ucg, F.SC_TM_SPEED, F.SC_TM_CNT_ucg, F.FLT_STAT_lost, F.FLT_LOST], [.tm, .flt]⟩ t s (execSpeedRefresh t m s) := by
  unfold execSpeedRefresh
  refine Runs.of fun d => ?_
  repeat' (first
    | with_reducible exact Keeps.refl _ _
    | decide +kernel
    | with_reducible assumption
    | lift_lets
    | (intro x; first | (refine Keeps.cut (d0 := d) (d1 := x) ?_ ?_; (on_goal 1 => subst x); (on_goal 2 => (intro _; clear_value x))) | subst x)
    | (apply Keeps.step; with_reducible apply Dev.tmSpeed_keeps)
    | (apply Keeps.step; with_reducible apply Dev.ucgCheck_keeps)
    | (with_reducible apply Keeps.ite <;> intro _)
    | split
    | beta_reduce)

theorem Dev.tmDrop_keeps (d : Dev) (m k : Nat) : Keeps ⟨false, [F.SC_TM_STAT_active, F.SC_TM_STAT_lost, F.SC_TM_CNT_losses, F.FLT_STAT_lost, F.FLT_LOST], [.flt]⟩ d (Dev.tmDrop d m k) := by
  unfold Dev.tmDrop
  repeat' (first
    | with_reducible exact Keeps.refl _ _
    | decide +kernel
    | with_reducible assumption
    | lift_lets
    | (intro x; first | (refine Keeps.cut (d0 := d) (d1 := x) ?_ ?_; (on_goal 1 => subst x); (on_goal 2 => (intro _; clear_value x))) | subst x)
    | (apply Keeps.step; with_reducible apply Dev.wr_keeps)
    | (apply Keeps.step; with_reducible apply Dev.bump_keeps)
    | (apply Keeps.step; with_reducible apply Dev.post_keeps)
    | (apply Keeps.step; with_reducible apply Dev.report_keeps))

theorem Dev.tmIdleSet_keeps (d : Dev) (m k : Nat) : Keeps ⟨false, [F.TB_STG_RUN_run, F.TB_STG_STAT_running, F.TB_STG_STAT_tripped, F.PG_STAT_out_high, F.PG_STAT_out_low, F.PG_STAT_trip_hold, F.WM_SW_HELD, F.WM_SW_CTRL_cmd, F.WM_SW_CTRL_status, F.WM_SW_STAT_held, F.WM_SW_STAT_action, F.WM_SW_STAT_cause_kind, F.WM_SW_STAT_cause_index, F.WM_SW_STAT_count, F.WM_SW_TIME_LO, F.WM_SW_TIME_HI, F.SC_ABS_LEFT_left, F.SC_ABS_LEFT_awaiting, F.FLT_STAT_lost, F.FLT_LOST], [.tb, .pp, .cv, .sc, .flt]⟩ d (Dev.tmIdleSet d m k) := by
  unfold Dev.tmIdleSet
  repeat' (first
    | with_reducible exact Keeps.refl _ _
    | decide +kernel
    | with_reducible assumption
    | lift_lets
    | (intro x; first | (refine Keeps.cut (d0 := d) (d1 := x) ?_ ?_; (on_goal 1 => subst x); (on_goal 2 => (intro _; clear_value x))) | subst x)
    | (apply Keeps.step; with_reducible apply Dev.force_keeps)
    | (with_reducible apply Keeps.ite <;> intro _)
    | split)

theorem Dev.tmSetLoss_keeps (d : Dev) (m : Nat) : Keeps ⟨false, [F.TB_STG_RUN_run, F.TB_STG_STAT_running, F.TB_STG_STAT_tripped, F.PG_STAT_out_high, F.PG_STAT_out_low, F.PG_STAT_trip_hold, F.WM_SW_HELD, F.WM_SW_CTRL_cmd, F.WM_SW_CTRL_status, F.WM_SW_STAT_held, F.WM_SW_STAT_action, F.WM_SW_STAT_cause_kind, F.WM_SW_STAT_cause_index, F.WM_SW_STAT_count, F.WM_SW_TIME_LO, F.WM_SW_TIME_HI, F.SC_TM_STAT_state, F.SC_TM_STAT_active, F.SC_TM_STAT_lost, F.SC_TM_STAT_last_status, F.SC_TM_CNT_refusals, F.SC_TM_CNT_losses, F.SC_CH_STAT_last_status, F.SC_LV_STAT_last_status, F.SC_DR_STAT_last_status, F.SC_ABS_LEFT_left, F.SC_ABS_LEFT_awaiting, F.HI_QP_CTRL_draining, F.HI_QP_FLAGS_in_flight, F.CN_STAT_slots, F.FLT_STAT_lost, F.FLT_LOST], [.tb, .pp, .cv, .be, .tm, .sc, .hi, .cn, .flt]⟩ d (Dev.tmSetLoss d m) := by
  unfold Dev.tmSetLoss
  repeat' (first
    | with_reducible exact Keeps.refl _ _
    | decide +kernel
    | (intro _ _ k; exact k.le)
    | with_reducible assumption
    | lift_lets
    | (intro x; first | (refine Keeps.cut (d0 := e) (d1 := x) ?_ ?_; (on_goal 1 => subst x); (on_goal 2 => (intro _; clear_value x))) | (refine Keeps.cut (d0 := d) (d1 := x) ?_ ?_; (on_goal 1 => subst x); (on_goal 2 => (intro _; clear_value x))) | subst x)
    | (apply Keeps.stepSame; with_reducible apply Dev.each_keeps; intro e _)
    | (apply Keeps.step; with_reducible apply Dev.tmGo_keeps)
    | (apply Keeps.step; with_reducible apply Dev.tmBlock_keeps)
    | (apply Keeps.step; with_reducible apply Dev.tmFinish_keeps)
    | (apply Keeps.step; with_reducible apply Dev.tmRest_keeps)
    | (apply Keeps.step; with_reducible apply Dev.tmDrop_keeps)
    | (apply Keeps.step; with_reducible apply Dev.tmIdleSet_keeps)
    | (with_reducible apply Keeps.ite <;> intro _)
    | split)

theorem execTmSetLoss_runs (t : Nat) (m : Fin 2) (s : State) :
    Runs ⟨false, [F.TB_STG_RUN_run, F.TB_STG_STAT_running, F.TB_STG_STAT_tripped, F.PG_STAT_out_high, F.PG_STAT_out_low, F.PG_STAT_trip_hold, F.WM_SW_HELD, F.WM_SW_CTRL_cmd, F.WM_SW_CTRL_status, F.WM_SW_STAT_held, F.WM_SW_STAT_action, F.WM_SW_STAT_cause_kind, F.WM_SW_STAT_cause_index, F.WM_SW_STAT_count, F.WM_SW_TIME_LO, F.WM_SW_TIME_HI, F.SC_TM_STAT_state, F.SC_TM_STAT_active, F.SC_TM_STAT_lost, F.SC_TM_STAT_last_status, F.SC_TM_CNT_refusals, F.SC_TM_CNT_losses, F.SC_CH_STAT_last_status, F.SC_LV_STAT_last_status, F.SC_DR_STAT_last_status, F.SC_ABS_LEFT_left, F.SC_ABS_LEFT_awaiting, F.HI_QP_CTRL_draining, F.HI_QP_FLAGS_in_flight, F.CN_STAT_slots, F.FLT_STAT_lost, F.FLT_LOST], [.tb, .pp, .cv, .be, .tm, .sc, .hi, .cn, .flt]⟩ t s (execTmSetLoss t m s) := by
  unfold execTmSetLoss
  refine Runs.of fun d => ?_
  repeat' (first
    | with_reducible exact Keeps.refl _ _
    | decide +kernel
    | (apply Keeps.step; with_reducible apply Dev.tmSetLoss_keeps))

end Sys2Proof.Machine
end

