-- ==== Sys2Proof/Laws/KeepsCharging.lean ====
section
/-! SUPPORT. What the effects of Charging.lean keep. -/

namespace Sys2Proof.Machine

set_option Elab.async false

theorem Dev.chGo_keeps (d : Dev) (new : Nat) : Keeps ⟨false, [F.SC_CH_STAT_state], [.hi]⟩ d (Dev.chGo d new) := by
  unfold Dev.chGo
  repeat' (first
    | with_reducible exact Keeps.refl _ _
    | decide +kernel
    | with_reducible assumption
    | lift_lets
    | (intro x; first | (refine Keeps.cut (d0 := d) (d1 := x) ?_ ?_; (on_goal 1 => subst x); (on_goal 2 => (intro _; clear_value x))) | subst x)
    | (apply Keeps.step; with_reducible apply Dev.wr_keeps)
    | (apply Keeps.step; with_reducible apply Dev.stateEvent_keeps)
    | (with_reducible apply Keeps.ite <;> intro _)
    | split)

theorem Dev.onCh_keeps (d : Dev) (f : Ch → Ch) : Keeps ⟨false, [], [.ch]⟩ d (Dev.onCh d f) := by
  unfold Dev.onCh
  repeat' (first
    | with_reducible exact Keeps.refl _ _
    | decide +kernel
    | (apply Keeps.step; with_reducible apply Dev.withCh_keeps))

theorem Dev.chBlock_keeps (d : Dev) : Keeps ⟨false, [F.SC_CH_STAT_active], [.be, .ch]⟩ d (Dev.chBlock d) := by
  unfold Dev.chBlock
  repeat' (first
    | with_reducible exact Keeps.refl _ _
    | decide +kernel
    | (intro _ _ k; exact k.le)
    | with_reducible assumption
    | lift_lets
    | (intro x; first | (refine Keeps.cut (d0 := e) (d1 := x) ?_ ?_; (on_goal 1 => subst x); (on_goal 2 => (intro _; clear_value x))) | (refine Keeps.cut (d0 := d) (d1 := x) ?_ ?_; (on_goal 1 => subst x); (on_goal 2 => (intro _; clear_value x))) | subst x)
    | (apply Keeps.stepSame; with_reducible apply Dev.each_keeps; intro e _)
    | (apply Keeps.step; with_reducible apply Dev.wr_keeps)
    | (apply Keeps.step; with_reducible apply Dev.setPars_keeps)
    | (apply Keeps.step; with_reducible apply Dev.onCh_keeps))

theorem Dev.chRest_keeps (d : Dev) : Keeps ⟨false, [F.TB_STG_RUN_run, F.TB_STG_STAT_running, F.PG_STAT_out_high, F.PG_STAT_out_low, F.SC_CH_STAT_state, F.SC_CH_STAT_active, F.SC_ABS_LEFT_left, F.SC_ABS_LEFT_awaiting], [.tb, .pp, .be, .ch, .sc, .hi]⟩ d (Dev.chRest d) := by
  unfold Dev.chRest
  repeat' (first
    | with_reducible exact Keeps.refl _ _
    | decide +kernel
    | with_reducible assumption
    | lift_lets
    | (intro x; first | (refine Keeps.cut (d0 := d) (d1 := x) ?_ ?_; (on_goal 1 => subst x); (on_goal 2 => (intro _; clear_value x))) | subst x)
    | (apply Keeps.step; with_reducible apply Dev.stopStages_keeps)
    | (apply Keeps.step; with_reducible apply Dev.chGo_keeps)
    | (apply Keeps.step; with_reducible apply Dev.onCh_keeps)
    | (apply Keeps.step; with_reducible apply Dev.chBlock_keeps))

theorem Dev.chFinish_keeps (d : Dev) (st : Nat) : Keeps ⟨false, [F.SC_TM_STAT_last_status, F.SC_TM_CNT_refusals, F.SC_CH_STAT_last_status, F.SC_LV_STAT_last_status, F.SC_DR_STAT_last_status, F.HI_QP_CTRL_draining, F.HI_QP_FLAGS_in_flight, F.CN_STAT_slots, F.FLT_STAT_lost, F.FLT_LOST], [.ch, .hi, .cn, .flt]⟩ d (Dev.chFinish d st) := by
  unfold Dev.chFinish
  repeat' (first
    | with_reducible exact Keeps.refl _ _
    | decide +kernel
    | (apply Keeps.step; with_reducible apply Dev.finishJob_keeps)
    | (apply Keeps.step; with_reducible apply Dev.onCh_keeps))

theorem Dev.chStopped_keeps (d : Dev) : Keeps ⟨false, [F.SC_TM_STAT_last_status, F.SC_TM_CNT_refusals, F.SC_CH_STAT_last_status, F.SC_LV_STAT_last_status, F.SC_DR_STAT_last_status, F.HI_QP_CTRL_draining, F.HI_QP_FLAGS_in_flight, F.CN_STAT_slots, F.FLT_STAT_lost, F.FLT_LOST], [.ch, .hi, .cn, .flt]⟩ d (Dev.chStopped d) := by
  unfold Dev.chStopped
  repeat' (first
    | with_reducible exact Keeps.refl _ _
    | decide +kernel
    | (intro _ _ k; exact k.le)
    | (apply Keeps.step; with_reducible apply Dev.finish_keeps)
    | (apply Keeps.step; with_reducible apply Dev.onCh_keeps)
    | (apply Keeps.stepSame; with_reducible apply Dev.foldl_keeps; intro e _))

theorem Dev.hardStop_keeps (d : Dev) (cause : Nat) : Keeps ⟨false, [F.TB_STG_RUN_run, F.TB_STG_STAT_running, F.PG_STAT_out_high, F.PG_STAT_out_low, F.SC_TM_STAT_last_status, F.SC_TM_CNT_refusals, F.SC_CH_STAT_state, F.SC_CH_STAT_active, F.SC_CH_STAT_last_status, F.SC_LV_STAT_last_status, F.SC_DR_STAT_last_status, F.SC_ABS_LEFT_left, F.SC_ABS_LEFT_awaiting, F.HI_QP_CTRL_draining, F.HI_QP_FLAGS_in_flight, F.CN_STAT_slots, F.FLT_STAT_lost, F.FLT_LOST], [.tb, .pp, .be, .ch, .sc, .hi, .cn, .flt]⟩ d (Dev.hardStop d cause) := by
  unfold Dev.hardStop
  repeat' (first
    | with_reducible exact Keeps.refl _ _
    | decide +kernel
    | with_reducible assumption
    | lift_lets
    | (intro x; first | (refine Keeps.cut (d0 := d) (d1 := x) ?_ ?_; (on_goal 1 => subst x); (on_goal 2 => (intro _; clear_value x))) | subst x)
    | (apply Keeps.step; with_reducible apply Dev.post_keeps)
    | (apply Keeps.step; with_reducible apply Dev.report_keeps)
    | (apply Keeps.step; with_reducible apply Dev.chRest_keeps)
    | (apply Keeps.step; with_reducible apply Dev.chFinish_keeps)
    | (apply Keeps.step; with_reducible apply Dev.chStopped_keeps)
    | (with_reducible apply Keeps.ite <;> intro _)
    | split)

theorem Dev.chStop_keeps (d : Dev) (job : List (Nat × Nat)) (word : Nat) : Keeps ⟨false, [F.TB_STG_RUN_run, F.TB_STG_STAT_running, F.PG_STAT_out_high, F.PG_STAT_out_low, F.SC_TM_STAT_last_status, F.SC_TM_CNT_refusals, F.SC_CH_STAT_state, F.SC_CH_STAT_active, F.SC_CH_STAT_last_status, F.SC_LV_STAT_last_status, F.SC_DR_STAT_last_status, F.SC_ABS_LEFT_left, F.SC_ABS_LEFT_awaiting, F.HI_QP_CTRL_draining, F.HI_QP_FLAGS_in_flight, F.CN_STAT_slots, F.FLT_STAT_lost, F.FLT_LOST], [.tb, .pp, .be, .ch, .sc, .hi, .cn, .flt]⟩ d (Dev.chStop d job word) := by
  unfold Dev.chStop
  repeat' (first
    | with_reducible exact Keeps.refl _ _
    | decide +kernel
    | with_reducible assumption
    | lift_lets
    | (intro x; first | (refine Keeps.cut (d0 := d) (d1 := x) ?_ ?_; (on_goal 1 => subst x); (on_goal 2 => (intro _; clear_value x))) | subst x)
    | (apply Keeps.step; with_reducible apply Dev.chGo_keeps)
    | (apply Keeps.step; with_reducible apply Dev.onCh_keeps)
    | (apply Keeps.step; with_reducible apply Dev.chBlock_keeps)
    | (apply Keeps.step; with_reducible apply Dev.chRest_keeps)
    | (apply Keeps.step; with_reducible apply Dev.chFinish_keeps)
    | (apply Keeps.step; with_reducible apply Dev.chStopped_keeps)
    | (apply Keeps.step; with_reducible apply Dev.hardStop_keeps)
    | (with_reducible apply Keeps.ite <;> intro _)
    | split
    | beta_reduce)

theorem Dev.chRamp_keeps (d : Dev) : Keeps ⟨false, [F.SC_CH_STAT_state, F.SC_CH_STAT_active], [.be, .ch, .hi]⟩ d (Dev.chRamp d) := by
  unfold Dev.chRamp
  repeat' (first
    | with_reducible exact Keeps.refl _ _
    | decide +kernel
    | with_reducible assumption
    | lift_lets
    | (intro x; first | (refine Keeps.cut (d0 := d) (d1 := x) ?_ ?_; (on_goal 1 => subst x); (on_goal 2 => (intro _; clear_value x))) | subst x)
    | (apply Keeps.step; with_reducible apply Dev.chGo_keeps)
    | (apply Keeps.step; with_reducible apply Dev.onCh_keeps)
    | (apply Keeps.step; with_reducible apply Dev.chBlock_keeps))

theorem Dev.chStart_keeps (d : Dev) (q i : Nat) (x : Descr) : Keeps ⟨false, [F.SC_TM_STAT_last_status, F.SC_TM_CNT_refusals, F.SC_CH_STAT_state, F.SC_CH_STAT_active, F.SC_CH_STAT_last_status, F.SC_LV_STAT_last_status, F.SC_DR_STAT_last_status, F.HI_QP_CTRL_draining, F.HI_QP_FLAGS_in_flight, F.CN_STAT_slots, F.FLT_STAT_lost, F.FLT_LOST], [.be, .ch, .hi, .cn, .flt]⟩ d (Dev.chStart d q i x) := by
  unfold Dev.chStart
  repeat' (first
    | with_reducible exact Keeps.refl _ _
    | decide +kernel
    | with_reducible assumption
    | lift_lets
    | (intro x; first | (refine Keeps.cut (d0 := d) (d1 := x) ?_ ?_; (on_goal 1 => subst x); (on_goal 2 => (intro _; clear_value x))) | subst x)
    | (apply Keeps.step; with_reducible apply Dev.finish_keeps)
    | (apply Keeps.step; with_reducible apply Dev.chGo_keeps)
    | (apply Keeps.step; with_reducible apply Dev.onCh_keeps)
    | (apply Keeps.step; with_reducible apply Dev.chBlock_keeps)
    | (apply Keeps.step; with_reducible apply Dev.chRamp_keeps)
    | (with_reducible apply Keeps.ite <;> intro _)
    | split)

theorem execChStart_runs (t : Nat) (q : Fin 64) (i : Nat) (s : State) :
    Runs ⟨false, [F.SC_TM_STAT_last_status, F.SC_TM_CNT_refusals, F.SC_CH_STAT_state, F.SC_CH_STAT_active, F.SC_CH_STAT_last_status, F.SC_LV_STAT_last_status, F.SC_DR_STAT_last_status, F.HI_QP_CTRL_draining, F.HI_QP_FLAGS_in_flight, F.CN_STAT_slots, F.FLT_STAT_lost, F.FLT_LOST], [.be, .ch, .hi, .cn, .flt]⟩ t s (execChStart t q i s) := by
  unfold execChStart
  refine Runs.of fun d => ?_
  repeat' (first
    | with_reducible exact Keeps.refl _ _
    | decide +kernel
    | (intro _ _ k; exact k.le)
    | (apply Keeps.stepSame; with_reducible apply Dev.startItem_keeps; intro e _)
    | (apply Keeps.step; with_reducible apply Dev.chStart_keeps))

theorem execChTarget_runs (t : Nat) (q : Fin 64) (i : Nat) (s : State) :
    Runs ⟨false, [F.SC_TM_STAT_last_status, F.SC_TM_CNT_refusals, F.SC_CH_STAT_active, F.SC_CH_STAT_last_status, F.SC_LV_STAT_last_status, F.SC_DR_STAT_last_status, F.HI_QP_CTRL_draining, F.HI_QP_FLAGS_in_flight, F.CN_STAT_slots, F.FLT_STAT_lost, F.FLT_LOST], [.be, .ch, .hi, .cn, .flt]⟩ t s (execChTarget t q i s) := by
  unfold execChTarget
  refine Runs.of fun d => ?_
  repeat' (first
    | with_reducible exact Keeps.refl _ _
    | decide +kernel
    | (intro _ _ k; exact k.le)
    | with_reducible assumption
    | lift_lets
    | (intro x; first | (refine Keeps.cut (d0 := e) (d1 := x) ?_ ?_; (on_goal 1 => subst x); (on_goal 2 => (intro _; clear_value x))) | (refine Keeps.cut (d0 := d) (d1 := x) ?_ ?_; (on_goal 1 => subst x); (on_goal 2 => (intro _; clear_value x))) | subst x)
    | (apply Keeps.step; with_reducible apply Dev.finish_keeps)
    | (apply Keeps.stepSame; with_reducible apply Dev.startItem_keeps; intro e _)
    | (apply Keeps.step; with_reducible apply Dev.onCh_keeps)
    | (apply Keeps.step; with_reducible apply Dev.chBlock_keeps)
    | (with_reducible apply Keeps.ite <;> intro _)
    | split)

theorem execChStop_runs (t : Nat) (q : Fin 64) (i : Nat) (s : State) :
    Runs ⟨false, [F.TB_STG_RUN_run, F.TB_STG_STAT_running, F.PG_STAT_out_high, F.PG_STAT_out_low, F.SC_TM_STAT_last_status, F.SC_TM_CNT_refusals, F.SC_CH_STAT_state, F.SC_CH_STAT_active, F.SC_CH_STAT_last_status, F.SC_LV_STAT_last_status, F.SC_DR_STAT_last_status, F.SC_ABS_LEFT_left, F.SC_ABS_LEFT_awaiting, F.HI_QP_CTRL_draining, F.HI_QP_FLAGS_in_flight, F.CN_STAT_slots, F.FLT_STAT_lost, F.FLT_LOST], [.tb, .pp, .be, .ch, .sc, .hi, .cn, .flt]⟩ t s (execChStop t q i s) := by
  unfold execChStop
  refine Runs.of fun d => ?_
  repeat' (first
    | with_reducible exact Keeps.refl _ _
    | decide +kernel
    | (intro _ _ k; exact k.le)
    | (apply Keeps.step; with_reducible apply Dev.finish_keeps)
    | (apply Keeps.stepSame; with_reducible apply Dev.startItem_keeps; intro e _)
    | (apply Keeps.step; with_reducible apply Dev.chStop_keeps)
    | (with_reducible apply Keeps.ite <;> intro _)
    | split)

theorem Dev.plateauOf_keeps (d : Dev) (sum : Int) (n : Nat) : Keeps ⟨false, [], [.fresh]⟩ d (Dev.plateauOf d sum n).2 := by
  unfold Dev.plateauOf
  split
  · exact (Dev.tick_keeps d).le
  · exact Keeps.refl _ d

theorem Dev.pilotDone_keeps (d : Dev) (osc : Bool) (duty high low : Rat) : Keeps ⟨false, [F.SC_CH_STAT_cp, F.SC_CH_STAT_active, F.SC_CH_STAT_i_allow, F.SC_CH_PILOT_duty, F.SC_CH_PILOT_osc, F.SC_CH_PILOT_high, F.SC_CH_PILOT_low], [.be, .ch]⟩ d (Dev.pilotDone d osc duty high low) := by
  unfold Dev.pilotDone
  repeat' (first
    | with_reducible exact Keeps.refl _ _
    | decide +kernel
    | with_reducible assumption
    | lift_lets
    | (intro x; first | (refine Keeps.cut (d0 := d) (d1 := x) ?_ ?_; (on_goal 1 => subst x); (on_goal 2 => (intro _; clear_value x))) | subst x)
    | (apply Keeps.step; with_reducible apply Dev.wr_keeps)
    | (apply Keeps.step; with_reducible apply Dev.put_keeps)
    | (apply Keeps.step; with_reducible apply Dev.wrInt_keeps)
    | (apply Keeps.step; with_reducible apply Dev.onCh_keeps)
    | (apply Keeps.step; with_reducible apply Dev.chBlock_keeps)
    | (with_reducible apply Keeps.ite <;> intro _)
    | split)

theorem execPilotWindow_runs (t : Nat) (s : State) :
    Runs ⟨false, [F.SC_CH_STAT_cp, F.SC_CH_STAT_active, F.SC_CH_STAT_i_allow, F.SC_CH_PILOT_duty, F.SC_CH_PILOT_osc, F.SC_CH_PILOT_high, F.SC_CH_PILOT_low], [.fresh, .be, .ch]⟩ t s (execPilotWindow t s) := by
  unfold execPilotWindow
  refine Runs.of fun d => ?_
  repeat' (first
    | with_reducible exact Keeps.refl _ _
    | decide +kernel
    | with_reducible assumption
    | lift_lets
    | (intro x; first | (refine Keeps.cut (d0 := d) (d1 := x) ?_ ?_; (on_goal 1 => subst x); (on_goal 2 => (intro _; clear_value x))) | subst x)
    | (apply Keeps.step; with_reducible apply Dev.onCh_keeps)
    | (apply Keeps.step; with_reducible apply Dev.plateauOf_keeps)
    | (apply Keeps.step; with_reducible apply Dev.pilotDone_keeps)
    | (with_reducible apply Keeps.ite <;> intro _)
    | split)

theorem Dev.pilotRefresh_keeps (d : Dev) : Keeps ⟨false, [F.SC_CH_STAT_cp, F.SC_CH_STAT_active, F.SC_CH_STAT_i_allow, F.SC_CH_PILOT_duty, F.SC_CH_PILOT_osc, F.SC_CH_PILOT_high, F.SC_CH_PILOT_low], [.fresh, .be, .ch]⟩ d (Dev.pilotRefresh d) := by
  unfold Dev.pilotRefresh
  repeat' (first
    | with_reducible exact Keeps.refl _ _
    | decide +kernel
    | (intro _ _ k; exact k.le)
    | with_reducible assumption
    | lift_lets
    | (intro x; first | (refine Keeps.cut (d0 := e) (d1 := x) ?_ ?_; (on_goal 1 => subst x); (on_goal 2 => (intro _; clear_value x))) | (refine Keeps.cut (d0 := d) (d1 := x) ?_ ?_; (on_goal 1 => subst x); (on_goal 2 => (intro _; clear_value x))) | subst x)
    | (apply Keeps.step; with_reducible apply Dev.onCh_keeps)
    | (apply Keeps.step; with_reducible apply Dev.plateauOf_keeps)
    | (apply Keeps.step; with_reducible apply Dev.pilotDone_keeps)
    | (apply Keeps.stepSame; with_reducible apply Dev.foldl_keeps; intro e _)
    | (with_reducible apply Keeps.ite <;> intro _)
    | split)

theorem execPilotTimeout_runs (t : Nat) (s : State) :
    Runs ⟨false, [F.SC_CH_STAT_cp, F.SC_CH_STAT_active, F.SC_CH_STAT_i_allow, F.SC_CH_PILOT_duty, F.SC_CH_PILOT_osc, F.SC_CH_PILOT_high, F.SC_CH_PILOT_low], [.fresh, .be, .ch]⟩ t s (execPilotTimeout t s) := by
  unfold execPilotTimeout
  refine Runs.of fun d => ?_
  repeat' (first
    | with_reducible exact Keeps.refl _ _
    | decide +kernel
    | with_reducible assumption
    | lift_lets
    | (intro x; first | (refine Keeps.cut (d0 := d) (d1 := x) ?_ ?_; (on_goal 1 => subst x); (on_goal 2 => (intro _; clear_value x))) | subst x)
    | (apply Keeps.step; with_reducible apply Dev.pilotRefresh_keeps)
    | (with_reducible apply Keeps.ite <;> intro _)
    | split)

theorem execPilotRefresh_runs (t : Nat) (s : State) :
    Runs ⟨false, [F.SC_CH_STAT_cp, F.SC_CH_STAT_active, F.SC_CH_STAT_i_allow, F.SC_CH_PILOT_duty, F.SC_CH_PILOT_osc, F.SC_CH_PILOT_high, F.SC_CH_PILOT_low], [.fresh, .be, .ch]⟩ t s (execPilotRefresh t s) := by
  unfold execPilotRefresh
  refine Runs.of fun d => ?_
  repeat' (first
    | with_reducible exact Keeps.refl _ _
    | decide +kernel
    | with_reducible assumption
    | lift_lets
    | (intro x; first | (refine Keeps.cut (d0 := d) (d1 := x) ?_ ?_; (on_goal 1 => subst x); (on_goal 2 => (intro _; clear_value x))) | subst x)
    | (apply Keeps.step; with_reducible apply Dev.pilotRefresh_keeps)
    | (with_reducible apply Keeps.ite <;> intro _)
    | split)

theorem execChWaitDone_runs (t : Nat) (s : State) :
    Runs ⟨false, [F.SC_CH_STAT_state, F.SC_CH_STAT_active], [.be, .ch, .hi]⟩ t s (execChWaitDone t s) := by
  unfold execChWaitDone
  refine Runs.of fun d => ?_
  repeat' (first
    | with_reducible exact Keeps.refl _ _
    | decide +kernel
    | with_reducible assumption
    | lift_lets
    | (intro x; first | (refine Keeps.cut (d0 := d) (d1 := x) ?_ ?_; (on_goal 1 => subst x); (on_goal 2 => (intro _; clear_value x))) | subst x)
    | (apply Keeps.step; with_reducible apply Dev.chGo_keeps)
    | (apply Keeps.step; with_reducible apply Dev.onCh_keeps)
    | (apply Keeps.step; with_reducible apply Dev.chRamp_keeps)
    | (with_reducible apply Keeps.ite <;> intro _)
    | split)

theorem execChWaitTimeout_runs (t : Nat) (s : State) :
    Runs ⟨false, [F.TB_STG_RUN_run, F.TB_STG_STAT_running, F.PG_STAT_out_high, F.PG_STAT_out_low, F.SC_TM_STAT_last_status, F.SC_TM_CNT_refusals, F.SC_CH_STAT_state, F.SC_CH_STAT_active, F.SC_CH_STAT_last_status, F.SC_LV_STAT_last_status, F.SC_DR_STAT_last_status, F.SC_ABS_LEFT_left, F.SC_ABS_LEFT_awaiting, F.HI_QP_CTRL_draining, F.HI_QP_FLAGS_in_flight, F.CN_STAT_slots, F.FLT_STAT_lost, F.FLT_LOST], [.tb, .pp, .be, .ch, .sc, .hi, .cn, .flt]⟩ t s (execChWaitTimeout t s) := by
  unfold execChWaitTimeout
  refine Runs.of fun d => ?_
  repeat' (first
    | with_reducible exact Keeps.refl _ _
    | decide +kernel
    | with_reducible assumption
    | lift_lets
    | (intro x; first | (refine Keeps.cut (d0 := d) (d1 := x) ?_ ?_; (on_goal 1 => subst x); (on_goal 2 => (intro _; clear_value x))) | subst x)
    | (apply Keeps.step; with_reducible apply Dev.chGo_keeps)
    | (apply Keeps.step; with_reducible apply Dev.chFinish_keeps)
    | (apply Keeps.step; with_reducible apply Dev.hardStop_keeps)
    | (with_reducible apply Keeps.ite <;> intro _)
    | split)

theorem Dev.chStartStage_keeps (d : Dev) (s : Nat) : Keeps ⟨false, [F.TB_STG_RUN_run, F.PG_STAT_out_high, F.PG_STAT_out_low, F.PG_STAT_trip_hold, F.SH_CAL_CTRL_busy, F.SH_CAL_CTRL_status, F.CV_STAT_urgent, F.SC_TM_STAT_last_status, F.SC_TM_CNT_refusals, F.SC_CH_STAT_state, F.SC_CH_STAT_active, F.SC_CH_STAT_last_status, F.SC_LV_STAT_last_status, F.SC_DR_STAT_last_status, F.SC_ABS_LEFT_expired, F.SC_ABS_LEFT_awaiting, F.HI_QP_CTRL_draining, F.HI_QP_FLAGS_in_flight, F.CN_STAT_slots, F.FLT_STAT_lost, F.FLT_LOST], [.tb, .pp, .sh, .cv, .be, .ch, .sc, .hi, .cn, .flt]⟩ d (Dev.chStartStage d s) := by
  unfold Dev.chStartStage
  repeat' (first
    | with_reducible exact Keeps.refl _ _
    | decide +kernel
    | with_reducible assumption
    | lift_lets
    | (intro x; first | (refine Keeps.cut (d0 := d) (d1 := x) ?_ ?_; (on_goal 1 => subst x); (on_goal 2 => (intro _; clear_value x))) | subst x)
    | (apply Keeps.step; with_reducible apply Dev.startStage_keeps)
    | (apply Keeps.step; with_reducible apply Dev.chGo_keeps)
    | (apply Keeps.step; with_reducible apply Dev.onCh_keeps)
    | (apply Keeps.step; with_reducible apply Dev.chBlock_keeps)
    | (apply Keeps.step; with_reducible apply Dev.chFinish_keeps)
    | (with_reducible apply Keeps.ite <;> intro _)
    | split
    | beta_reduce)

theorem execStopTimeExpiry_runs (t : Nat) (s : State) :
    Runs ⟨false, [F.TB_STG_RUN_run, F.TB_STG_STAT_running, F.PG_STAT_out_high, F.PG_STAT_out_low, F.SC_TM_STAT_last_status, F.SC_TM_CNT_refusals, F.SC_CH_STAT_state, F.SC_CH_STAT_active, F.SC_CH_STAT_last_status, F.SC_LV_STAT_last_status, F.SC_DR_STAT_last_status, F.SC_ABS_LEFT_left, F.SC_ABS_LEFT_awaiting, F.HI_QP_CTRL_draining, F.HI_QP_FLAGS_in_flight, F.CN_STAT_slots, F.FLT_STAT_lost, F.FLT_LOST], [.tb, .pp, .be, .ch, .sc, .hi, .cn, .flt]⟩ t s (execStopTimeExpiry t s) := by
  unfold execStopTimeExpiry
  refine Runs.of fun d => ?_
  repeat' (first
    | with_reducible exact Keeps.refl _ _
    | decide +kernel
    | (apply Keeps.step; with_reducible apply Dev.chRest_keeps)
    | (apply Keeps.step; with_reducible apply Dev.chStopped_keeps)
    | (apply Keeps.step; with_reducible apply Dev.hardStop_keeps)
    | (with_reducible apply Keeps.ite <;> intro _)
    | split)

theorem execGridLossTimeout_runs (t : Nat) (s : State) :
    Runs ⟨false, [F.TB_STG_RUN_run, F.TB_STG_STAT_running, F.PG_STAT_out_high, F.PG_STAT_out_low, F.SC_TM_STAT_last_status, F.SC_TM_CNT_refusals, F.SC_CH_STAT_state, F.SC_CH_STAT_active, F.SC_CH_STAT_last_status, F.SC_LV_STAT_last_status, F.SC_DR_STAT_last_status, F.SC_ABS_LEFT_left, F.SC_ABS_LEFT_awaiting, F.HI_QP_CTRL_draining, F.HI_QP_FLAGS_in_flight, F.CN_STAT_slots, F.FLT_STAT_lost, F.FLT_LOST], [.tb, .pp, .be, .ch, .sc, .hi, .cn, .flt]⟩ t s (execGridLossTimeout t s) := by
  unfold execGridLossTimeout
  refine Runs.of fun d => ?_
  repeat' (first
    | with_reducible exact Keeps.refl _ _
    | decide +kernel
    | with_reducible assumption
    | lift_lets
    | (intro x; first | (refine Keeps.cut (d0 := d) (d1 := x) ?_ ?_; (on_goal 1 => subst x); (on_goal 2 => (intro _; clear_value x))) | subst x)
    | (apply Keeps.step; with_reducible apply Dev.noteGrid_keeps)
    | (apply Keeps.step; with_reducible apply Dev.hardStop_keeps)
    | (with_reducible apply Keeps.ite <;> intro _)
    | split
    | beta_reduce)

theorem execChEventReaction_runs (t : Nat) (s : State) :
    Runs ⟨false, [F.TB_STG_RUN_run, F.TB_STG_STAT_running, F.PG_STAT_out_high, F.PG_STAT_out_low, F.SC_TM_STAT_last_status, F.SC_TM_CNT_refusals, F.SC_CH_STAT_state, F.SC_CH_STAT_active, F.SC_CH_STAT_last_status, F.SC_LV_STAT_last_status, F.SC_DR_STAT_last_status, F.SC_ABS_LEFT_left, F.SC_ABS_LEFT_awaiting, F.HI_QP_CTRL_draining, F.HI_QP_FLAGS_in_flight, F.CN_STAT_slots, F.FLT_STAT_lost, F.FLT_LOST], [.tb, .pp, .be, .ch, .sc, .hi, .cn, .flt]⟩ t s (execChEventReaction t s) := by
  unfold execChEventReaction
  refine Runs.of fun d => ?_
  repeat' (first
    | with_reducible exact Keeps.refl _ _
    | decide +kernel
    | (apply Keeps.step; with_reducible apply Dev.chBlock_keeps)
    | (apply Keeps.step; with_reducible apply Dev.hardStop_keeps)
    | (with_reducible apply Keeps.ite <;> intro _)
    | split)

theorem Dev.lvGo_keeps (d : Dev) (new : Nat) : Keeps ⟨false, [F.SC_LV_STAT_state], [.hi]⟩ d (Dev.lvGo d new) := by
  unfold Dev.lvGo
  repeat' (first
    | with_reducible exact Keeps.refl _ _
    | decide +kernel
    | with_reducible assumption
    | lift_lets
    | (intro x; first | (refine Keeps.cut (d0 := d) (d1 := x) ?_ ?_; (on_goal 1 => subst x); (on_goal 2 => (intro _; clear_value x))) | subst x)
    | (apply Keeps.step; with_reducible apply Dev.wr_keeps)
    | (apply Keeps.step; with_reducible apply Dev.stateEvent_keeps)
    | (with_reducible apply Keeps.ite <;> intro _)
    | split)

theorem Dev.lvBlock_keeps (d : Dev) : Keeps ⟨false, [F.SC_LV_STAT_active], [.be]⟩ d (Dev.lvBlock d) := by
  unfold Dev.lvBlock
  repeat' (first
    | with_reducible exact Keeps.refl _ _
    | decide +kernel
    | (intro _ _ k; exact k.le)
    | with_reducible assumption
    | lift_lets
    | (intro x; first | (refine Keeps.cut (d0 := e) (d1 := x) ?_ ?_; (on_goal 1 => subst x); (on_goal 2 => (intro _; clear_value x))) | (refine Keeps.cut (d0 := d) (d1 := x) ?_ ?_; (on_goal 1 => subst x); (on_goal 2 => (intro _; clear_value x))) | subst x)
    | (apply Keeps.stepSame; with_reducible apply Dev.each_keeps; intro e _)
    | (apply Keeps.step; with_reducible apply Dev.wr_keeps)
    | (apply Keeps.step; with_reducible apply Dev.setPars_keeps))

theorem Dev.lvFinish_keeps (d : Dev) (st : Nat) : Keeps ⟨false, [F.SC_TM_STAT_last_status, F.SC_TM_CNT_refusals, F.SC_CH_STAT_last_status, F.SC_LV_STAT_last_status, F.SC_DR_STAT_last_status, F.HI_QP_CTRL_draining, F.HI_QP_FLAGS_in_flight, F.CN_STAT_slots, F.FLT_STAT_lost, F.FLT_LOST], [.ch, .hi, .cn, .flt]⟩ d (Dev.lvFinish d st) := by
  unfold Dev.lvFinish
  repeat' (first
    | with_reducible exact Keeps.refl _ _
    | decide +kernel
    | (apply Keeps.step; with_reducible apply Dev.finishJob_keeps)
    | (apply Keeps.step; with_reducible apply Dev.onCh_keeps))

theorem Dev.lvRest_keeps (d : Dev) : Keeps ⟨false, [F.TB_STG_RUN_run, F.TB_STG_STAT_running, F.PG_STAT_out_high, F.PG_STAT_out_low, F.SC_LV_STAT_state, F.SC_LV_STAT_active, F.SC_ABS_LEFT_left, F.SC_ABS_LEFT_awaiting], [.tb, .pp, .be, .ch, .sc, .hi]⟩ d (Dev.lvRest d) := by
  unfold Dev.lvRest
  repeat' (first
    | with_reducible exact Keeps.refl _ _
    | decide +kernel
    | (apply Keeps.step; with_reducible apply Dev.stopStages_keeps)
    | (apply Keeps.step; with_reducible apply Dev.onCh_keeps)
    | (apply Keeps.step; with_reducible apply Dev.lvGo_keeps)
    | (apply Keeps.step; with_reducible apply Dev.lvBlock_keeps))

theorem Dev.lvTargets_keeps (d : Dev) (x : Descr) : Keeps ⟨false, [], [.ch]⟩ d (Dev.lvTargets d x) := by
  unfold Dev.lvTargets
  repeat' (first
    | with_reducible exact Keeps.refl _ _
    | decide +kernel
    | (apply Keeps.step; with_reducible apply Dev.onCh_keeps))

theorem execLvStart_runs (t : Nat) (q : Fin 64) (i : Nat) (s : State) :
    Runs ⟨false, [F.SC_TM_STAT_last_status, F.SC_TM_CNT_refusals, F.SC_CH_STAT_last_status, F.SC_LV_STAT_active, F.SC_LV_STAT_last_status, F.SC_DR_STAT_last_status, F.HI_QP_CTRL_draining, F.HI_QP_FLAGS_in_flight, F.CN_STAT_slots, F.FLT_STAT_lost, F.FLT_LOST], [.be, .ch, .hi, .cn, .flt]⟩ t s (execLvStart t q i s) := by
  unfold execLvStart
  refine Runs.of fun d => ?_
  repeat' (first
    | with_reducible exact Keeps.refl _ _
    | decide +kernel
    | (intro _ _ k; exact k.le)
    | with_reducible assumption
    | lift_lets
    | (intro x; first | (refine Keeps.cut (d0 := e) (d1 := x) ?_ ?_; (on_goal 1 => subst x); (on_goal 2 => (intro _; clear_value x))) | (refine Keeps.cut (d0 := d) (d1 := x) ?_ ?_; (on_goal 1 => subst x); (on_goal 2 => (intro _; clear_value x))) | subst x)
    | (apply Keeps.step; with_reducible apply Dev.finish_keeps)
    | (apply Keeps.stepSame; with_reducible apply Dev.startItem_keeps; intro e _)
    | (apply Keeps.step; with_reducible apply Dev.onCh_keeps)
    | (apply Keeps.step; with_reducible apply Dev.lvBlock_keeps)
    | (apply Keeps.step; with_reducible apply Dev.lvTargets_keeps)
    | (with_reducible apply Keeps.ite <;> intro _)
    | split)

theorem execLvTarget_runs (t : Nat) (q : Fin 64) (i : Nat) (s : State) :
    Runs ⟨false, [F.SC_TM_STAT_last_status, F.SC_TM_CNT_refusals, F.SC_CH_STAT_last_status, F.SC_LV_STAT_active, F.SC_LV_STAT_last_status, F.SC_DR_STAT_last_status, F.HI_QP_CTRL_draining, F.HI_QP_FLAGS_in_flight, F.CN_STAT_slots, F.FLT_STAT_lost, F.FLT_LOST], [.be, .ch, .hi, .cn, .flt]⟩ t s (execLvTarget t q i s) := by
  unfold execLvTarget
  refine Runs.of fun d => ?_
  repeat' (first
    | with_reducible exact Keeps.refl _ _
    | decide +kernel
    | (intro _ _ k; exact k.le)
    | (apply Keeps.step; with_reducible apply Dev.finish_keeps)
    | (apply Keeps.stepSame; with_reducible apply Dev.startItem_keeps; intro e _)
    | (apply Keeps.step; with_reducible apply Dev.lvBlock_keeps)
    | (apply Keeps.step; with_reducible apply Dev.lvTargets_keeps)
    | (with_reducible apply Keeps.ite <;> intro _)
    | split)

theorem Dev.lvStop_keeps (d : Dev) (word : Nat) : Keeps ⟨false, [F.TB_STG_RUN_run, F.TB_STG_STAT_running, F.PG_STAT_out_high, F.PG_STAT_out_low, F.SC_TM_STAT_last_status, F.SC_TM_CNT_refusals, F.SC_CH_STAT_last_status, F.SC_LV_STAT_state, F.SC_LV_STAT_active, F.SC_LV_STAT_last_status, F.SC_DR_STAT_last_status, F.SC_ABS_LEFT_left, F.SC_ABS_LEFT_awaiting, F.HI_QP_CTRL_draining, F.HI_QP_FLAGS_in_flight, F.CN_STAT_slots, F.FLT_STAT_lost, F.FLT_LOST], [.tb, .pp, .be, .ch, .sc, .hi, .cn, .flt]⟩ d (Dev.lvStop d word) := by
  unfold Dev.lvStop
  repeat' (first
    | with_reducible exact Keeps.refl _ _
    | decide +kernel
    | (apply Keeps.step; with_reducible apply Dev.lvFinish_keeps)
    | (apply Keeps.step; with_reducible apply Dev.lvRest_keeps))

theorem execLvStop_runs (t : Nat) (q : Fin 64) (i : Nat) (s : State) :
    Runs ⟨false, [F.TB_STG_RUN_run, F.TB_STG_STAT_running, F.PG_STAT_out_high, F.PG_STAT_out_low, F.SC_TM_STAT_last_status, F.SC_TM_CNT_refusals, F.SC_CH_STAT_last_status, F.SC_LV_STAT_state, F.SC_LV_STAT_active, F.SC_LV_STAT_last_status, F.SC_DR_STAT_last_status, F.SC_ABS_LEFT_left, F.SC_ABS_LEFT_awaiting, F.HI_QP_CTRL_draining, F.HI_QP_FLAGS_in_flight, F.CN_STAT_slots, F.FLT_STAT_lost, F.FLT_LOST], [.tb, .pp, .be, .ch, .sc, .hi, .cn, .flt]⟩ t s (execLvStop t q i s) := by
  unfold execLvStop
  refine Runs.of fun d => ?_
  repeat' (first
    | with_reducible exact Keeps.refl _ _
    | decide +kernel
    | (intro _ _ k; exact k.le)
    | (apply Keeps.step; with_reducible apply Dev.finish_keeps)
    | (apply Keeps.stepSame; with_reducible apply Dev.startItem_keeps; intro e _)
    | (apply Keeps.step; with_reducible apply Dev.lvStop_keeps)
    | (with_reducible apply Keeps.ite <;> intro _)
    | split)

theorem Dev.lvStartStage_keeps (d : Dev) (s : Nat) : Keeps ⟨false, [F.TB_STG_RUN_run, F.PG_STAT_out_high, F.PG_STAT_out_low, F.PG_STAT_trip_hold, F.SH_CAL_CTRL_busy, F.SH_CAL_CTRL_status, F.CV_STAT_urgent, F.SC_TM_STAT_last_status, F.SC_TM_CNT_refusals, F.SC_CH_STAT_last_status, F.SC_LV_STAT_state, F.SC_LV_STAT_active, F.SC_LV_STAT_last_status, F.SC_DR_STAT_last_status, F.SC_ABS_LEFT_expired, F.SC_ABS_LEFT_awaiting, F.HI_QP_CTRL_draining, F.HI_QP_FLAGS_in_flight, F.CN_STAT_slots, F.FLT_STAT_lost, F.FLT_LOST], [.tb, .pp, .sh, .cv, .be, .ch, .sc, .hi, .cn, .flt]⟩ d (Dev.lvStartStage d s) := by
  unfold Dev.lvStartStage
  repeat' (first
    | with_reducible exact Keeps.refl _ _
    | decide +kernel
    | with_reducible assumption
    | lift_lets
    | (intro x; first | (refine Keeps.cut (d0 := d) (d1 := x) ?_ ?_; (on_goal 1 => subst x); (on_goal 2 => (intro _; clear_value x))) | subst x)
    | (apply Keeps.step; with_reducible apply Dev.startStage_keeps)
    | (apply Keeps.step; with_reducible apply Dev.onCh_keeps)
    | (apply Keeps.step; with_reducible apply Dev.lvGo_keeps)
    | (apply Keeps.step; with_reducible apply Dev.lvBlock_keeps)
    | (apply Keeps.step; with_reducible apply Dev.lvFinish_keeps)
    | (with_reducible apply Keeps.ite <;> intro _)
    | split
    | beta_reduce)

theorem execLvSync_runs (t : Nat) (s : State) :
    Runs ⟨false, [F.SC_LV_STAT_active], [.be, .ch]⟩ t s (execLvSync t s) := by
  unfold execLvSync
  refine Runs.of fun d => ?_
  repeat' (first
    | with_reducible exact Keeps.refl _ _
    | decide +kernel
    | with_reducible assumption
    | lift_lets
    | (intro x; first | (refine Keeps.cut (d0 := d) (d1 := x) ?_ ?_; (on_goal 1 => subst x); (on_goal 2 => (intro _; clear_value x))) | subst x)
    | (apply Keeps.step; with_reducible apply Dev.onCh_keeps)
    | (apply Keeps.step; with_reducible apply Dev.lvBlock_keeps)
    | (with_reducible apply Keeps.ite <;> intro _)
    | split)

theorem execLvStartTimeout_runs (t : Nat) (s : State) :
    Runs ⟨false, [F.TB_STG_RUN_run, F.TB_STG_STAT_running, F.PG_STAT_out_high, F.PG_STAT_out_low, F.SC_TM_STAT_last_status, F.SC_TM_CNT_refusals, F.SC_CH_STAT_last_status, F.SC_LV_STAT_state, F.SC_LV_STAT_active, F.SC_LV_STAT_last_status, F.SC_DR_STAT_last_status, F.SC_ABS_LEFT_left, F.SC_ABS_LEFT_awaiting, F.HI_QP_CTRL_draining, F.HI_QP_FLAGS_in_flight, F.CN_STAT_slots, F.FLT_STAT_lost, F.FLT_LOST], [.tb, .pp, .be, .ch, .sc, .hi, .cn, .flt]⟩ t s (execLvStartTimeout t s) := by
  unfold execLvStartTimeout
  refine Runs.of fun d => ?_
  repeat' (first
    | with_reducible exact Keeps.refl _ _
    | decide +kernel
    | (apply Keeps.step; with_reducible apply Dev.lvStop_keeps)
    | (with_reducible apply Keeps.ite <;> intro _)
    | split)

theorem execLvStageLoss_runs (t : Nat) (s : State) :
    Runs ⟨false, [F.TB_STG_RUN_run, F.TB_STG_STAT_running, F.PG_STAT_out_high, F.PG_STAT_out_low, F.SC_TM_STAT_last_status, F.SC_TM_CNT_refusals, F.SC_CH_STAT_last_status, F.SC_LV_STAT_state, F.SC_LV_STAT_active, F.SC_LV_STAT_last_status, F.SC_DR_STAT_last_status, F.SC_ABS_LEFT_left, F.SC_ABS_LEFT_awaiting, F.HI_QP_CTRL_draining, F.HI_QP_FLAGS_in_flight, F.CN_STAT_slots, F.FLT_STAT_lost, F.FLT_LOST], [.tb, .pp, .be, .ch, .sc, .hi, .cn, .flt]⟩ t s (execLvStageLoss t s) := by
  unfold execLvStageLoss
  refine Runs.of fun d => ?_
  repeat' (first
    | with_reducible exact Keeps.refl _ _
    | decide +kernel
    | with_reducible assumption
    | lift_lets
    | (intro x; first | (refine Keeps.cut (d0 := d) (d1 := x) ?_ ?_; (on_goal 1 => subst x); (on_goal 2 => (intro _; clear_value x))) | subst x)
    | (apply Keeps.step; with_reducible apply Dev.post_keeps)
    | (apply Keeps.step; with_reducible apply Dev.report_keeps)
    | (apply Keeps.step; with_reducible apply Dev.lvBlock_keeps)
    | (apply Keeps.step; with_reducible apply Dev.lvStop_keeps)
    | (with_reducible apply Keeps.ite <;> intro _)
    | split)

end Sys2Proof.Machine
end

