-- ==== Sys2Proof/Laws/KeepsActuators.lean ====
section
/-! SUPPORT. What the effects of Actuators.lean keep. -/

namespace Sys2Proof.Machine

set_option Elab.async false

theorem Dev.drGo_keeps (d : Dev) (a new : Nat) : Keeps ⟨false, [F.SC_DR_STAT_state], [.hi]⟩ d (Dev.drGo d a new) := by
  unfold Dev.drGo
  repeat' (first
    | with_reducible exact Keeps.refl _ _
    | decide +kernel
    | with_reducible assumption
    | lift_lets
    | (intro x; first | (refine Keeps.cut (d0 := d) (d1 := x) ?_ ?_; (on_goal 1 => subst x); (on_goal 2 => (intro _; clear_value x))) | subst x)
    | (apply Keeps.step; with_reducible apply Dev.wr_keeps)
    | (apply Keeps.step; with_reducible apply Dev.stateEvent_keeps)
    | (with_reducible apply Keeps.ite <;> intro _)
    | split)

theorem Dev.onDr_keeps (d : Dev) (a : Nat) (f : DrT → DrT) : Keeps ⟨false, [], [.dr]⟩ d (Dev.onDr d a f) := by
  unfold Dev.onDr
  repeat' (first
    | with_reducible exact Keeps.refl _ _
    | decide +kernel
    | (apply Keeps.step; with_reducible apply Dev.setDrive_keeps))

theorem Dev.drBlock_keeps (d : Dev) (a : Nat) : Keeps ⟨false, [], [.be]⟩ d (Dev.drBlock d a) := by
  unfold Dev.drBlock
  repeat' (first
    | with_reducible exact Keeps.refl _ _
    | decide +kernel
    | with_reducible assumption
    | lift_lets
    | (intro x; first | (refine Keeps.cut (d0 := d) (d1 := x) ?_ ?_; (on_goal 1 => subst x); (on_goal 2 => (intro _; clear_value x))) | subst x)
    | (apply Keeps.step; with_reducible apply Dev.setPars_keeps)
    | (with_reducible apply Keeps.ite <;> intro _)
    | split
    | beta_reduce)

theorem Dev.drSeed_keeps (d : Dev) (a : Nat) : Keeps ⟨false, [F.SC_DR_STAT_token], [.be, .dr]⟩ d (Dev.drSeed d a) := by
  unfold Dev.drSeed
  repeat' (first
    | with_reducible exact Keeps.refl _ _
    | decide +kernel
    | with_reducible assumption
    | lift_lets
    | (intro x; first | (refine Keeps.cut (d0 := d) (d1 := x) ?_ ?_; (on_goal 1 => subst x); (on_goal 2 => (intro _; clear_value x))) | subst x)
    | (apply Keeps.step; with_reducible apply Dev.wr_keeps)
    | (apply Keeps.step; with_reducible apply Dev.onDr_keeps)
    | (apply Keeps.step; with_reducible apply Dev.drBlock_keeps))

theorem Dev.drFinish_keeps (d : Dev) (a st : Nat) : Keeps ⟨false, [F.SC_TM_STAT_last_status, F.SC_TM_CNT_refusals, F.SC_CH_STAT_last_status, F.SC_LV_STAT_last_status, F.SC_DR_STAT_last_status, F.HI_QP_CTRL_draining, F.HI_QP_FLAGS_in_flight, F.CN_STAT_slots, F.FLT_STAT_lost, F.FLT_LOST], [.dr, .hi, .cn, .flt]⟩ d (Dev.drFinish d a st) := by
  unfold Dev.drFinish
  repeat' (first
    | with_reducible exact Keeps.refl _ _
    | decide +kernel
    | (apply Keeps.step; with_reducible apply Dev.finishJob_keeps)
    | (apply Keeps.step; with_reducible apply Dev.onDr_keeps))

theorem Dev.drRest_keeps (d : Dev) (a : Nat) : Keeps ⟨false, [F.TB_STG_RUN_run, F.TB_STG_STAT_running, F.PG_STAT_out_high, F.PG_STAT_out_low, F.SC_ABS_LEFT_left, F.SC_ABS_LEFT_awaiting], [.tb, .pp, .be, .dr, .sc]⟩ d (Dev.drRest d a) := by
  unfold Dev.drRest
  repeat' (first
    | with_reducible exact Keeps.refl _ _
    | decide +kernel
    | (apply Keeps.step; with_reducible apply Dev.stopStage_keeps)
    | (apply Keeps.step; with_reducible apply Dev.onDr_keeps)
    | (apply Keeps.step; with_reducible apply Dev.drBlock_keeps))

theorem Dev.drOpen_keeps (d : Dev) (a : Nat) : Keeps ⟨false, [F.SC_DR_STAT_token], [.be, .dr]⟩ d (Dev.drOpen d a) := by
  unfold Dev.drOpen
  repeat' (first
    | with_reducible exact Keeps.refl _ _
    | decide +kernel
    | with_reducible assumption
    | lift_lets
    | (intro x; first | (refine Keeps.cut (d0 := d) (d1 := x) ?_ ?_; (on_goal 1 => subst x); (on_goal 2 => (intro _; clear_value x))) | subst x)
    | (apply Keeps.step; with_reducible apply Dev.onDr_keeps)
    | (apply Keeps.step; with_reducible apply Dev.drSeed_keeps)
    | (with_reducible apply Keeps.ite <;> intro _)
    | split
    | beta_reduce)

theorem Dev.drTry_keeps (d : Dev) (a : Nat) : Keeps ⟨false, [F.SC_TM_STAT_last_status, F.SC_TM_CNT_refusals, F.SC_CH_STAT_last_status, F.SC_LV_STAT_last_status, F.SC_DR_STAT_state, F.SC_DR_STAT_last_status, F.SC_DR_STAT_token, F.HI_QP_CTRL_draining, F.HI_QP_FLAGS_in_flight, F.CN_STAT_slots, F.FLT_STAT_lost, F.FLT_LOST], [.be, .dr, .hi, .cn, .flt]⟩ d (Dev.drTry d a) := by
  unfold Dev.drTry
  repeat' (first
    | with_reducible exact Keeps.refl _ _
    | decide +kernel
    | (apply Keeps.step; with_reducible apply Dev.drGo_keeps)
    | (apply Keeps.step; with_reducible apply Dev.drFinish_keeps)
    | (apply Keeps.step; with_reducible apply Dev.drOpen_keeps)
    | (with_reducible apply Keeps.ite <;> intro _)
    | split)

theorem Dev.drBegin_keeps (d : Dev) (a : Nat) : Keeps ⟨false, [F.SC_TM_STAT_last_status, F.SC_TM_CNT_refusals, F.SC_CH_STAT_last_status, F.SC_LV_STAT_last_status, F.SC_DR_STAT_state, F.SC_DR_STAT_last_status, F.SC_DR_STAT_token, F.HI_QP_CTRL_draining, F.HI_QP_FLAGS_in_flight, F.CN_STAT_slots, F.FLT_STAT_lost, F.FLT_LOST], [.be, .dr, .hi, .cn, .flt]⟩ d (Dev.drBegin d a) := by
  unfold Dev.drBegin
  repeat' (first
    | with_reducible exact Keeps.refl _ _
    | decide +kernel
    | (apply Keeps.step; with_reducible apply Dev.drGo_keeps)
    | (apply Keeps.step; with_reducible apply Dev.onDr_keeps)
    | (apply Keeps.step; with_reducible apply Dev.drTry_keeps))

theorem Dev.drMove_keeps (d : Dev) (a : Nat) : Keeps ⟨false, [F.SC_DR_STAT_state], [.be, .dr, .hi]⟩ d (Dev.drMove d a) := by
  unfold Dev.drMove
  repeat' (first
    | with_reducible exact Keeps.refl _ _
    | decide +kernel
    | with_reducible assumption
    | lift_lets
    | (intro x; first | (refine Keeps.cut (d0 := d) (d1 := x) ?_ ?_; (on_goal 1 => subst x); (on_goal 2 => (intro _; clear_value x))) | subst x)
    | (apply Keeps.step; with_reducible apply Dev.onLoop_keeps)
    | (apply Keeps.step; with_reducible apply Dev.drGo_keeps)
    | (apply Keeps.step; with_reducible apply Dev.onDr_keeps)
    | (with_reducible apply Keeps.ite <;> intro _)
    | split
    | beta_reduce)

theorem Dev.drTake_keeps (d : Dev) (a q i mode : Nat) (hold : Bool) (target : Word) : Keeps ⟨false, [F.SC_TM_STAT_last_status, F.SC_TM_CNT_refusals, F.SC_CH_STAT_last_status, F.SC_LV_STAT_last_status, F.SC_DR_STAT_last_status, F.HI_QP_CTRL_draining, F.HI_QP_FLAGS_in_flight, F.CN_STAT_slots, F.FLT_STAT_lost, F.FLT_LOST], [.dr, .hi, .cn, .flt]⟩ d (Dev.drTake d a q i mode hold target) := by
  unfold Dev.drTake
  repeat' (first
    | with_reducible exact Keeps.refl _ _
    | decide +kernel
    | (apply Keeps.step; with_reducible apply Dev.onDr_keeps)
    | (apply Keeps.step; with_reducible apply Dev.drFinish_keeps))

theorem Dev.drTarget_keeps (d : Dev) (a q i mode : Nat) (hold : Bool) (target : Word) : Keeps ⟨false, [F.TB_STG_RUN_run, F.TB_STG_STAT_running, F.PG_STAT_out_high, F.PG_STAT_out_low, F.SC_TM_STAT_last_status, F.SC_TM_CNT_refusals, F.SC_CH_STAT_last_status, F.SC_LV_STAT_last_status, F.SC_DR_STAT_state, F.SC_DR_STAT_last_status, F.SC_DR_STAT_token, F.SC_ABS_LEFT_left, F.SC_ABS_LEFT_awaiting, F.HI_QP_CTRL_draining, F.HI_QP_FLAGS_in_flight, F.CN_STAT_slots, F.FLT_STAT_lost, F.FLT_LOST], [.tb, .pp, .be, .dr, .sc, .hi, .cn, .flt]⟩ d (Dev.drTarget d a q i mode hold target) := by
  unfold Dev.drTarget
  repeat' (first
    | with_reducible exact Keeps.refl _ _
    | decide +kernel
    | with_reducible assumption
    | lift_lets
    | (intro x; first | (refine Keeps.cut (d0 := d) (d1 := x) ?_ ?_; (on_goal 1 => subst x); (on_goal 2 => (intro _; clear_value x))) | subst x)
    | (apply Keeps.step; with_reducible apply Dev.finish_keeps)
    | (apply Keeps.step; with_reducible apply Dev.drGo_keeps)
    | (apply Keeps.step; with_reducible apply Dev.onDr_keeps)
    | (apply Keeps.step; with_reducible apply Dev.drBlock_keeps)
    | (apply Keeps.step; with_reducible apply Dev.drSeed_keeps)
    | (apply Keeps.step; with_reducible apply Dev.drFinish_keeps)
    | (apply Keeps.step; with_reducible apply Dev.drRest_keeps)
    | (apply Keeps.step; with_reducible apply Dev.drOpen_keeps)
    | (apply Keeps.step; with_reducible apply Dev.drMove_keeps)
    | (apply Keeps.step; with_reducible apply Dev.drTake_keeps)
    | (with_reducible apply Keeps.ite <;> intro _)
    | split)

theorem Dev.drStart_keeps (d : Dev) (q i : Nat) (x : Descr) : Keeps ⟨false, [F.TB_STG_RUN_run, F.TB_STG_STAT_running, F.PG_STAT_out_high, F.PG_STAT_out_low, F.SC_TM_STAT_last_status, F.SC_TM_CNT_refusals, F.SC_CH_STAT_last_status, F.SC_LV_STAT_last_status, F.SC_DR_STAT_state, F.SC_DR_STAT_last_status, F.SC_DR_STAT_token, F.SC_ABS_LEFT_left, F.SC_ABS_LEFT_awaiting, F.HI_QP_CTRL_draining, F.HI_QP_FLAGS_in_flight, F.CN_STAT_slots, F.FLT_STAT_lost, F.FLT_LOST], [.tb, .pp, .be, .dr, .sc, .hi, .cn, .flt]⟩ d (Dev.drStart d q i x) := by
  unfold Dev.drStart
  repeat' (first
    | with_reducible exact Keeps.refl _ _
    | decide +kernel
    | with_reducible assumption
    | lift_lets
    | (intro x; first | (refine Keeps.cut (d0 := d) (d1 := x) ?_ ?_; (on_goal 1 => subst x); (on_goal 2 => (intro _; clear_value x))) | subst x)
    | (apply Keeps.step; with_reducible apply Dev.finish_keeps)
    | (apply Keeps.step; with_reducible apply Dev.drBegin_keeps)
    | (apply Keeps.step; with_reducible apply Dev.drTake_keeps)
    | (apply Keeps.step; with_reducible apply Dev.drTarget_keeps)
    | (with_reducible apply Keeps.ite <;> intro _)
    | split)

theorem execDrStart_runs (t : Nat) (q : Fin 64) (i : Nat) (s : State) :
    Runs ⟨false, [F.TB_STG_RUN_run, F.TB_STG_STAT_running, F.PG_STAT_out_high, F.PG_STAT_out_low, F.SC_TM_STAT_last_status, F.SC_TM_CNT_refusals, F.SC_CH_STAT_last_status, F.SC_LV_STAT_last_status, F.SC_DR_STAT_state, F.SC_DR_STAT_last_status, F.SC_DR_STAT_token, F.SC_ABS_LEFT_left, F.SC_ABS_LEFT_awaiting, F.HI_QP_CTRL_draining, F.HI_QP_FLAGS_in_flight, F.CN_STAT_slots, F.FLT_STAT_lost, F.FLT_LOST], [.tb, .pp, .be, .dr, .sc, .hi, .cn, .flt]⟩ t s (execDrStart t q i s) := by
  unfold execDrStart
  refine Runs.of fun d => ?_
  repeat' (first
    | with_reducible exact Keeps.refl _ _
    | decide +kernel
    | (intro _ _ k; exact k.le)
    | (apply Keeps.stepSame; with_reducible apply Dev.startItem_keeps; intro e _)
    | (apply Keeps.step; with_reducible apply Dev.drStart_keeps))

theorem execDrTarget_runs (t : Nat) (q : Fin 64) (i : Nat) (s : State) :
    Runs ⟨false, [F.TB_STG_RUN_run, F.TB_STG_STAT_running, F.PG_STAT_out_high, F.PG_STAT_out_low, F.SC_TM_STAT_last_status, F.SC_TM_CNT_refusals, F.SC_CH_STAT_last_status, F.SC_LV_STAT_last_status, F.SC_DR_STAT_state, F.SC_DR_STAT_last_status, F.SC_DR_STAT_token, F.SC_ABS_LEFT_left, F.SC_ABS_LEFT_awaiting, F.HI_QP_CTRL_draining, F.HI_QP_FLAGS_in_flight, F.CN_STAT_slots, F.FLT_STAT_lost, F.FLT_LOST], [.tb, .pp, .be, .dr, .sc, .hi, .cn, .flt]⟩ t s (execDrTarget t q i s) := by
  unfold execDrTarget
  refine Runs.of fun d => ?_
  repeat' (first
    | with_reducible exact Keeps.refl _ _
    | decide +kernel
    | (intro _ _ k; exact k.le)
    | (apply Keeps.step; with_reducible apply Dev.finish_keeps)
    | (apply Keeps.stepSame; with_reducible apply Dev.startItem_keeps; intro e _)
    | (apply Keeps.step; with_reducible apply Dev.drTarget_keeps)
    | (with_reducible apply Keeps.ite <;> intro _)
    | split)

theorem Dev.drStop_keeps (d : Dev) (a word : Nat) : Keeps ⟨false, [F.TB_STG_RUN_run, F.TB_STG_STAT_running, F.PG_STAT_out_high, F.PG_STAT_out_low, F.SC_TM_STAT_last_status, F.SC_TM_CNT_refusals, F.SC_CH_STAT_last_status, F.SC_LV_STAT_last_status, F.SC_DR_STAT_state, F.SC_DR_STAT_last_status, F.SC_ABS_LEFT_left, F.SC_ABS_LEFT_awaiting, F.HI_QP_CTRL_draining, F.HI_QP_FLAGS_in_flight, F.CN_STAT_slots, F.FLT_STAT_lost, F.FLT_LOST], [.tb, .pp, .be, .dr, .sc, .hi, .cn, .flt]⟩ d (Dev.drStop d a word) := by
  unfold Dev.drStop
  repeat' (first
    | with_reducible exact Keeps.refl _ _
    | decide +kernel
    | (apply Keeps.step; with_reducible apply Dev.drGo_keeps)
    | (apply Keeps.step; with_reducible apply Dev.drFinish_keeps)
    | (apply Keeps.step; with_reducible apply Dev.drRest_keeps))

theorem execDrStop_runs (t : Nat) (q : Fin 64) (i : Nat) (s : State) :
    Runs ⟨false, [F.TB_STG_RUN_run, F.TB_STG_STAT_running, F.PG_STAT_out_high, F.PG_STAT_out_low, F.SC_TM_STAT_last_status, F.SC_TM_CNT_refusals, F.SC_CH_STAT_last_status, F.SC_LV_STAT_last_status, F.SC_DR_STAT_state, F.SC_DR_STAT_last_status, F.SC_ABS_LEFT_left, F.SC_ABS_LEFT_awaiting, F.HI_QP_CTRL_draining, F.HI_QP_FLAGS_in_flight, F.CN_STAT_slots, F.FLT_STAT_lost, F.FLT_LOST], [.tb, .pp, .be, .dr, .sc, .hi, .cn, .flt]⟩ t s (execDrStop t q i s) := by
  unfold execDrStop
  refine Runs.of fun d => ?_
  repeat' (first
    | with_reducible exact Keeps.refl _ _
    | decide +kernel
    | (intro _ _ k; exact k.le)
    | (apply Keeps.step; with_reducible apply Dev.finish_keeps)
    | (apply Keeps.stepSame; with_reducible apply Dev.startItem_keeps; intro e _)
    | (apply Keeps.step; with_reducible apply Dev.drStop_keeps)
    | (with_reducible apply Keeps.ite <;> intro _)
    | split)

theorem execDrLockTimeout_runs (t : Nat) (a : Fin 6) (s : State) :
    Runs ⟨false, [F.SC_TM_STAT_last_status, F.SC_TM_CNT_refusals, F.SC_CH_STAT_last_status, F.SC_LV_STAT_last_status, F.SC_DR_STAT_state, F.SC_DR_STAT_last_status, F.SC_DR_STAT_token, F.HI_QP_CTRL_draining, F.HI_QP_FLAGS_in_flight, F.CN_STAT_slots, F.FLT_STAT_lost, F.FLT_LOST], [.be, .dr, .hi, .cn, .flt]⟩ t s (execDrLockTimeout t a s) := by
  unfold execDrLockTimeout
  refine Runs.of fun d => ?_
  repeat' (first
    | with_reducible exact Keeps.refl _ _
    | decide +kernel
    | with_reducible assumption
    | lift_lets
    | (intro x; first | (refine Keeps.cut (d0 := d) (d1 := x) ?_ ?_; (on_goal 1 => subst x); (on_goal 2 => (intro _; clear_value x))) | subst x)
    | (apply Keeps.step; with_reducible apply Dev.drGo_keeps)
    | (apply Keeps.step; with_reducible apply Dev.drFinish_keeps)
    | (apply Keeps.step; with_reducible apply Dev.drTry_keeps)
    | (with_reducible apply Keeps.ite <;> intro _)
    | split)

theorem execDrTargetReached_runs (t : Nat) (a : Fin 6) (s : State) :
    Runs ⟨false, [F.SC_TM_STAT_last_status, F.SC_TM_CNT_refusals, F.SC_CH_STAT_last_status, F.SC_LV_STAT_last_status, F.SC_DR_STAT_state, F.SC_DR_STAT_last_status, F.HI_QP_CTRL_draining, F.HI_QP_FLAGS_in_flight, F.CN_STAT_slots, F.FLT_STAT_lost, F.FLT_LOST], [.be, .dr, .hi, .cn, .flt]⟩ t s (execDrTargetReached t a s) := by
  unfold execDrTargetReached
  refine Runs.of fun d => ?_
  repeat' (first
    | with_reducible exact Keeps.refl _ _
    | decide +kernel
    | with_reducible assumption
    | lift_lets
    | (intro x; first | (refine Keeps.cut (d0 := d) (d1 := x) ?_ ?_; (on_goal 1 => subst x); (on_goal 2 => (intro _; clear_value x))) | subst x)
    | (apply Keeps.step; with_reducible apply Dev.drGo_keeps)
    | (apply Keeps.step; with_reducible apply Dev.onDr_keeps)
    | (apply Keeps.step; with_reducible apply Dev.drBlock_keeps)
    | (apply Keeps.step; with_reducible apply Dev.drFinish_keeps)
    | (with_reducible apply Keeps.ite <;> intro _)
    | split)

theorem execDrMoveTimeout_runs (t : Nat) (a : Fin 6) (s : State) :
    Runs ⟨false, [F.TB_STG_RUN_run, F.TB_STG_STAT_running, F.PG_STAT_out_high, F.PG_STAT_out_low, F.SC_TM_STAT_last_status, F.SC_TM_CNT_refusals, F.SC_CH_STAT_last_status, F.SC_LV_STAT_last_status, F.SC_DR_STAT_state, F.SC_DR_STAT_last_status, F.SC_ABS_LEFT_left, F.SC_ABS_LEFT_awaiting, F.HI_QP_CTRL_draining, F.HI_QP_FLAGS_in_flight, F.CN_STAT_slots, F.FLT_STAT_lost, F.FLT_LOST], [.tb, .pp, .be, .dr, .sc, .hi, .cn, .flt]⟩ t s (execDrMoveTimeout t a s) := by
  unfold execDrMoveTimeout
  refine Runs.of fun d => ?_
  repeat' (first
    | with_reducible exact Keeps.refl _ _
    | decide +kernel
    | (apply Keeps.step; with_reducible apply Dev.drGo_keeps)
    | (apply Keeps.step; with_reducible apply Dev.drFinish_keeps)
    | (apply Keeps.step; with_reducible apply Dev.drRest_keeps)
    | (with_reducible apply Keeps.ite <;> intro _)
    | split)

theorem execDrReengage_runs (t : Nat) (a : Fin 6) (s : State) :
    Runs ⟨false, [F.SC_TM_STAT_last_status, F.SC_TM_CNT_refusals, F.SC_CH_STAT_last_status, F.SC_LV_STAT_last_status, F.SC_DR_STAT_state, F.SC_DR_STAT_last_status, F.SC_DR_STAT_token, F.HI_QP_CTRL_draining, F.HI_QP_FLAGS_in_flight, F.CN_STAT_slots, F.FLT_STAT_lost, F.FLT_LOST], [.be, .dr, .hi, .cn, .flt]⟩ t s (execDrReengage t a s) := by
  unfold execDrReengage
  refine Runs.of fun d => ?_
  repeat' (first
    | with_reducible exact Keeps.refl _ _
    | decide +kernel
    | (apply Keeps.step; with_reducible apply Dev.drBegin_keeps)
    | (with_reducible apply Keeps.ite <;> intro _)
    | split)

theorem execDrMirrorUpdate_runs (t : Nat) (a : Fin 6) (s : State) :
    Runs ⟨false, [F.SC_TM_STAT_last_status, F.SC_TM_CNT_refusals, F.SC_CH_STAT_last_status, F.SC_LV_STAT_last_status, F.SC_DR_STAT_state, F.SC_DR_STAT_last_status, F.SC_DR_STAT_token, F.HI_QP_CTRL_draining, F.HI_QP_FLAGS_in_flight, F.CN_STAT_slots, F.FLT_STAT_lost, F.FLT_LOST], [.be, .dr, .hi, .cn, .flt]⟩ t s (execDrMirrorUpdate t a s) := by
  unfold execDrMirrorUpdate
  refine Runs.of fun d => ?_
  repeat' (first
    | with_reducible exact Keeps.refl _ _
    | decide +kernel
    | with_reducible assumption
    | lift_lets
    | (intro x; first | (refine Keeps.cut (d0 := d) (d1 := x) ?_ ?_; (on_goal 1 => subst x); (on_goal 2 => (intro _; clear_value x))) | subst x)
    | (apply Keeps.step; with_reducible apply Dev.onDr_keeps)
    | (apply Keeps.step; with_reducible apply Dev.drBlock_keeps)
    | (apply Keeps.step; with_reducible apply Dev.drTry_keeps)
    | (with_reducible apply Keeps.ite <;> intro _)
    | split)

theorem execDrLoss_runs (t : Nat) (a : Fin 6) (s : State) :
    Runs ⟨false, [F.TB_STG_RUN_run, F.TB_STG_STAT_running, F.PG_STAT_out_high, F.PG_STAT_out_low, F.SC_TM_STAT_last_status, F.SC_TM_CNT_refusals, F.SC_CH_STAT_last_status, F.SC_LV_STAT_last_status, F.SC_DR_STAT_state, F.SC_DR_STAT_last_status, F.SC_ABS_LEFT_left, F.SC_ABS_LEFT_awaiting, F.HI_QP_CTRL_draining, F.HI_QP_FLAGS_in_flight, F.CN_STAT_slots, F.FLT_STAT_lost, F.FLT_LOST], [.tb, .pp, .be, .dr, .sc, .hi, .cn, .flt]⟩ t s (execDrLoss t a s) := by
  unfold execDrLoss
  refine Runs.of fun d => ?_
  repeat' (first
    | with_reducible exact Keeps.refl _ _
    | decide +kernel
    | with_reducible assumption
    | lift_lets
    | (intro x; first | (refine Keeps.cut (d0 := d) (d1 := x) ?_ ?_; (on_goal 1 => subst x); (on_goal 2 => (intro _; clear_value x))) | subst x)
    | (apply Keeps.step; with_reducible apply Dev.post_keeps)
    | (apply Keeps.step; with_reducible apply Dev.report_keeps)
    | (apply Keeps.step; with_reducible apply Dev.drGo_keeps)
    | (apply Keeps.step; with_reducible apply Dev.drFinish_keeps)
    | (apply Keeps.step; with_reducible apply Dev.drRest_keeps)
    | (with_reducible apply Keeps.ite <;> intro _)
    | split)

theorem Dev.drStartStage_keeps (d : Dev) (s : Nat) : Keeps ⟨false, [F.TB_STG_RUN_run, F.PG_STAT_out_high, F.PG_STAT_out_low, F.PG_STAT_trip_hold, F.SH_CAL_CTRL_busy, F.SH_CAL_CTRL_status, F.CV_STAT_urgent, F.SC_TM_STAT_last_status, F.SC_TM_CNT_refusals, F.SC_CH_STAT_last_status, F.SC_LV_STAT_last_status, F.SC_DR_STAT_state, F.SC_DR_STAT_last_status, F.SC_DR_STAT_token, F.SC_ABS_LEFT_expired, F.SC_ABS_LEFT_awaiting, F.HI_QP_CTRL_draining, F.HI_QP_FLAGS_in_flight, F.CN_STAT_slots, F.FLT_STAT_lost, F.FLT_LOST], [.tb, .pp, .sh, .cv, .be, .dr, .sc, .hi, .cn, .flt]⟩ d (Dev.drStartStage d s) := by
  unfold Dev.drStartStage
  repeat' (first
    | with_reducible exact Keeps.refl _ _
    | decide +kernel
    | with_reducible assumption
    | lift_lets
    | (intro x; first | (refine Keeps.cut (d0 := d) (d1 := x) ?_ ?_; (on_goal 1 => subst x); (on_goal 2 => (intro _; clear_value x))) | subst x)
    | (apply Keeps.step; with_reducible apply Dev.startStage_keeps)
    | (apply Keeps.step; with_reducible apply Dev.drGo_keeps)
    | (apply Keeps.step; with_reducible apply Dev.onDr_keeps)
    | (apply Keeps.step; with_reducible apply Dev.drFinish_keeps)
    | (apply Keeps.step; with_reducible apply Dev.drTry_keeps)
    | (apply Keeps.step; with_reducible apply Dev.drMove_keeps)
    | (with_reducible apply Keeps.ite <;> intro _)
    | split
    | beta_reduce)

theorem execSequencerStageStart_runs (t : Nat) (k : Fin 21) (s : State) :
    Runs ⟨false, [F.TB_STG_RUN_run, F.PG_STAT_out_high, F.PG_STAT_out_low, F.PG_STAT_trip_hold, F.SH_CAL_CTRL_busy, F.SH_CAL_CTRL_status, F.CV_STAT_urgent, F.SC_TM_STAT_last_status, F.SC_TM_CNT_refusals, F.SC_CH_STAT_state, F.SC_CH_STAT_active, F.SC_CH_STAT_last_status, F.SC_LV_STAT_state, F.SC_LV_STAT_active, F.SC_LV_STAT_last_status, F.SC_DR_STAT_state, F.SC_DR_STAT_last_status, F.SC_DR_STAT_token, F.SC_ABS_LEFT_expired, F.SC_ABS_LEFT_awaiting, F.HI_QP_CTRL_draining, F.HI_QP_FLAGS_in_flight, F.CN_STAT_slots, F.FLT_STAT_lost, F.FLT_LOST], [.tb, .pp, .sh, .cv, .be, .ch, .dr, .sc, .hi, .cn, .flt]⟩ t s (execSequencerStageStart t k s) := by
  unfold execSequencerStageStart
  refine Runs.of fun d => ?_
  repeat' (first
    | with_reducible exact Keeps.refl _ _
    | decide +kernel
    | (apply Keeps.step; with_reducible apply Dev.tmStartSet_keeps)
    | (apply Keeps.step; with_reducible apply Dev.chStartStage_keeps)
    | (apply Keeps.step; with_reducible apply Dev.lvStartStage_keeps)
    | (apply Keeps.step; with_reducible apply Dev.drStartStage_keeps)
    | (with_reducible apply Keeps.ite <;> intro _)
    | split)

end Sys2Proof.Machine
end

