-- ==== Sys2Proof/Laws/KeepsSafetyController.lean ====
section
/-! SUPPORT. What the effects of SafetyController.lean keep. -/

namespace Sys2Proof.Machine

set_option Elab.async false

theorem Dev.onSc_keeps (d : Dev) (f : Sc → Sc) : Keeps ⟨false, [], [.sc]⟩ d (Dev.onSc d f) := by
  unfold Dev.onSc
  repeat' (first
    | with_reducible exact Keeps.refl _ _
    | decide +kernel
    | (apply Keeps.step; with_reducible apply Dev.withSc_keeps))

theorem Dev.scNote_keeps (d : Dev) (cause : Nat) : Keeps ⟨false, [F.SC_LAST, F.SC_LAST_TIME_LO, F.SC_LAST_TIME_HI], []⟩ d (Dev.scNote d cause) := by
  unfold Dev.scNote
  repeat' (first
    | with_reducible exact Keeps.refl _ _
    | decide +kernel
    | (apply Keeps.step; with_reducible apply Dev.wr_keeps)
    | (apply Keeps.step; with_reducible apply Dev.wr64_keeps))

theorem Dev.scReport_keeps (d : Dev) (cls code : Nat) : Keeps ⟨false, [F.FLT_STAT_lost, F.FLT_LOST], [.flt]⟩ d (Dev.scReport d cls code) := by
  unfold Dev.scReport
  repeat' (first
    | with_reducible exact Keeps.refl _ _
    | decide +kernel
    | (apply Keeps.step; with_reducible apply Dev.post_keeps))

theorem Dev.scSafe_keeps (d : Dev) (k : Nat) : Keeps ⟨false, [F.DEV_STATE_state, F.TB_STG_RUN_run, F.TB_STG_STAT_running, F.TB_STG_STAT_tripped, F.PG_STAT_out_high, F.PG_STAT_out_low, F.PG_STAT_trip_hold, F.WM_SW_HELD, F.WM_SW_STAT_held, F.WM_SW_STAT_action, F.WM_SW_STAT_cause_kind, F.WM_SW_STAT_cause_index, F.WM_SW_STAT_count, F.WM_SW_TIME_LO, F.WM_SW_TIME_HI, F.SC_LAST_outcome, F.SC_ABS_LEFT_left, F.SC_ABS_LEFT_awaiting, F.FLT_STAT_lost, F.FLT_STAT_safe, F.FLT_LOST, F.FLT_SAFE_safe, F.FLT_SAFE_kind, F.FLT_SAFE_index, F.FLT_SAFE_status, F.FLT_SAFE_TIME_LO, F.FLT_SAFE_TIME_HI], [.tb, .pp, .cv, .sc, .flt]⟩ d (Dev.scSafe d k) := by
  unfold Dev.scSafe
  repeat' (first
    | with_reducible exact Keeps.refl _ _
    | decide +kernel
    | (apply Keeps.step; with_reducible apply Dev.wr_keeps)
    | (apply Keeps.step; with_reducible apply Dev.enterSafe_keeps))

theorem Dev.wdogResume_keeps (d : Dev) : Keeps ⟨false, [], [.sc]⟩ d (Dev.wdogResume d) := by
  unfold Dev.wdogResume
  repeat' (first
    | with_reducible exact Keeps.refl _ _
    | decide +kernel
    | (apply Keeps.step; with_reducible apply Dev.onSc_keeps)
    | (with_reducible apply Keeps.ite <;> intro _)
    | split)

theorem Dev.fenceCopy_keeps (d : Dev) (k cause : Nat) (sub : Nat) : Keeps ⟨false, [F.SC_STAT_fenced_a, F.SC_STAT_fenced_b, F.SC_STAT_fenced_chk, F.FLT_STAT_lost, F.FLT_LOST], [.flt]⟩ d (Dev.fenceCopy d k cause sub) := by
  unfold Dev.fenceCopy
  repeat' (first
    | with_reducible exact Keeps.refl _ _
    | decide +kernel
    | with_reducible assumption
    | lift_lets
    | (intro x; first | (refine Keeps.cut (d0 := d) (d1 := x) ?_ ?_; (on_goal 1 => subst x); (on_goal 2 => (intro _; clear_value x))) | subst x)
    | (apply Keeps.step; with_reducible apply Dev.put_keeps)
    | (apply Keeps.step; with_reducible apply Dev.markFenced_keeps)
    | (apply Keeps.step; with_reducible apply Dev.postFenced_keeps)
    | (with_reducible apply Keeps.ite <;> intro _)
    | split)

theorem Dev.goSimplex_keeps (d : Dev) (copyA : Bool) : Keeps ⟨false, [F.DEV_STATE_state, F.TB_STG_RUN_run, F.TB_STG_STAT_running, F.TB_STG_STAT_tripped, F.PG_STAT_out_high, F.PG_STAT_out_low, F.PG_STAT_trip_hold, F.WM_SW_HELD, F.WM_SW_STAT_held, F.WM_SW_STAT_action, F.WM_SW_STAT_cause_kind, F.WM_SW_STAT_cause_index, F.WM_SW_STAT_count, F.WM_SW_TIME_LO, F.WM_SW_TIME_HI, F.SC_STAT_mode, F.SC_STAT_grace, F.SC_STAT_grace_left, F.SC_LAST_outcome, F.SC_ABS_LEFT_left, F.SC_ABS_LEFT_awaiting, F.FLT_STAT_lost, F.FLT_STAT_safe, F.FLT_LOST, F.FLT_SAFE_safe, F.FLT_SAFE_kind, F.FLT_SAFE_index, F.FLT_SAFE_status, F.FLT_SAFE_TIME_LO, F.FLT_SAFE_TIME_HI], [.tb, .pp, .cv, .sc, .flt]⟩ d (Dev.goSimplex d copyA) := by
  unfold Dev.goSimplex
  repeat' (first
    | with_reducible exact Keeps.refl _ _
    | decide +kernel
    | with_reducible assumption
    | lift_lets
    | (intro x; first | (refine Keeps.cut (d0 := d) (d1 := x) ?_ ?_; (on_goal 1 => subst x); (on_goal 2 => (intro _; clear_value x))) | subst x)
    | (apply Keeps.step; with_reducible apply Dev.wr_keeps)
    | (apply Keeps.step; with_reducible apply Dev.put_keeps)
    | (apply Keeps.step; with_reducible apply Dev.wakeCopies_keeps)
    | (apply Keeps.step; with_reducible apply Dev.onSc_keeps)
    | (apply Keeps.step; with_reducible apply Dev.scReport_keeps)
    | (apply Keeps.step; with_reducible apply Dev.scSafe_keeps)
    | (apply Keeps.step; with_reducible apply Dev.wdogResume_keeps)
    | (with_reducible apply Keeps.ite <;> intro _)
    | split)

theorem Dev.scHalt_keeps (d : Dev) : Keeps ⟨false, [F.DEV_STATE_state, F.TB_STG_RUN_run, F.TB_STG_STAT_running, F.TB_STG_STAT_tripped, F.PG_STAT_out_high, F.PG_STAT_out_low, F.PG_STAT_trip_hold, F.WM_SW_HELD, F.WM_SW_STAT_held, F.WM_SW_STAT_action, F.WM_SW_STAT_cause_kind, F.WM_SW_STAT_cause_index, F.WM_SW_STAT_count, F.WM_SW_TIME_LO, F.WM_SW_TIME_HI, F.SC_STAT_mode, F.SC_LAST_outcome, F.SC_ABS_LEFT_left, F.SC_ABS_LEFT_awaiting, F.FLT_STAT_lost, F.FLT_STAT_safe, F.FLT_LOST, F.FLT_SAFE_safe, F.FLT_SAFE_kind, F.FLT_SAFE_index, F.FLT_SAFE_status, F.FLT_SAFE_TIME_LO, F.FLT_SAFE_TIME_HI], [.tb, .pp, .cv, .sc, .flt]⟩ d (Dev.scHalt d) := by
  unfold Dev.scHalt
  repeat' (first
    | with_reducible exact Keeps.refl _ _
    | decide +kernel
    | with_reducible assumption
    | lift_lets
    | (intro x; first | (refine Keeps.cut (d0 := d) (d1 := x) ?_ ?_; (on_goal 1 => subst x); (on_goal 2 => (intro _; clear_value x))) | subst x)
    | (apply Keeps.step; with_reducible apply Dev.wr_keeps)
    | (apply Keeps.step; with_reducible apply Dev.enterSafe_keeps)
    | (apply Keeps.step; with_reducible apply Dev.onSc_keeps)
    | (apply Keeps.step; with_reducible apply Dev.wdogResume_keeps))

theorem Dev.dropWindow_keeps (d : Dev) : Keeps ⟨false, [], [.sc]⟩ d (Dev.dropWindow d) := by
  unfold Dev.dropWindow
  repeat' (first
    | with_reducible exact Keeps.refl _ _
    | decide +kernel
    | (apply Keeps.step; with_reducible apply Dev.onSc_keeps))

theorem Dev.rollBack_keeps (d : Dev) (test : ScTest) : Keeps ⟨false, [F.SC_STAT_mode, F.SC_CNT_rollbacks], [.sc]⟩ d (Dev.rollBack d test) := by
  unfold Dev.rollBack
  repeat' (first
    | with_reducible exact Keeps.refl _ _
    | decide +kernel
    | with_reducible assumption
    | lift_lets
    | (intro x; first | (refine Keeps.cut (d0 := d) (d1 := x) ?_ ?_; (on_goal 1 => subst x); (on_goal 2 => (intro _; clear_value x))) | subst x)
    | (apply Keeps.step; with_reducible apply Dev.wr_keeps)
    | (apply Keeps.step; with_reducible apply Dev.bump_keeps)
    | (apply Keeps.step; with_reducible apply Dev.onSc_keeps)
    | (apply Keeps.step; with_reducible apply Dev.dropWindow_keeps))

theorem Dev.scMismatch_keeps (d : Dev) (cause : Nat) : Keeps ⟨false, [F.DEV_STATE_state, F.TB_STG_RUN_run, F.TB_STG_STAT_running, F.TB_STG_STAT_tripped, F.PG_STAT_out_high, F.PG_STAT_out_low, F.PG_STAT_trip_hold, F.WM_SW_HELD, F.WM_SW_STAT_held, F.WM_SW_STAT_action, F.WM_SW_STAT_cause_kind, F.WM_SW_STAT_cause_index, F.WM_SW_STAT_count, F.WM_SW_TIME_LO, F.WM_SW_TIME_HI, F.SC_STAT_mode, F.SC_CNT_rollbacks, F.SC_LAST, F.SC_LAST_outcome, F.SC_LAST_TIME_LO, F.SC_LAST_TIME_HI, F.SC_ABS_LEFT_left, F.SC_ABS_LEFT_awaiting, F.FLT_STAT_lost, F.FLT_STAT_safe, F.FLT_LOST, F.FLT_SAFE_safe, F.FLT_SAFE_kind, F.FLT_SAFE_index, F.FLT_SAFE_status, F.FLT_SAFE_TIME_LO, F.FLT_SAFE_TIME_HI], [.tb, .pp, .cv, .sc, .flt]⟩ d (Dev.scMismatch d cause) := by
  unfold Dev.scMismatch
  repeat' (first
    | with_reducible exact Keeps.refl _ _
    | decide +kernel
    | with_reducible assumption
    | lift_lets
    | (intro x; first | (refine Keeps.cut (d0 := d) (d1 := x) ?_ ?_; (on_goal 1 => subst x); (on_goal 2 => (intro _; clear_value x))) | subst x)
    | (apply Keeps.step; with_reducible apply Dev.bump_keeps)
    | (apply Keeps.step; with_reducible apply Dev.onSc_keeps)
    | (apply Keeps.step; with_reducible apply Dev.scNote_keeps)
    | (apply Keeps.step; with_reducible apply Dev.scSafe_keeps)
    | (apply Keeps.step; with_reducible apply Dev.dropWindow_keeps)
    | (apply Keeps.step; with_reducible apply Dev.rollBack_keeps)
    | (with_reducible apply Keeps.ite <;> intro _)
    | split)

theorem Dev.transient_keeps (d : Dev) : Keeps ⟨false, [F.SC_STAT_mode, F.SC_CNT_transients, F.SC_CNT_period_trans, F.SC_LAST_outcome, F.FLT_STAT_lost, F.FLT_LOST], [.sc, .flt]⟩ d (Dev.transient d) := by
  unfold Dev.transient
  repeat' (first
    | with_reducible exact Keeps.refl _ _
    | decide +kernel
    | with_reducible assumption
    | lift_lets
    | (intro x; first | (refine Keeps.cut (d0 := d) (d1 := x) ?_ ?_; (on_goal 1 => subst x); (on_goal 2 => (intro _; clear_value x))) | subst x)
    | (apply Keeps.step; with_reducible apply Dev.wr_keeps)
    | (apply Keeps.step; with_reducible apply Dev.bump_keeps)
    | (apply Keeps.step; with_reducible apply Dev.report_keeps)
    | (apply Keeps.step; with_reducible apply Dev.wakeCopies_keeps)
    | (apply Keeps.step; with_reducible apply Dev.onSc_keeps)
    | (apply Keeps.step; with_reducible apply Dev.scReport_keeps)
    | (apply Keeps.step; with_reducible apply Dev.wdogResume_keeps))

theorem Dev.selfTested_keeps (d : Dev) (test : ScTest) (a b : Bool) : Keeps ⟨false, [F.DEV_STATE_state, F.TB_STG_RUN_run, F.TB_STG_STAT_running, F.TB_STG_STAT_tripped, F.PG_STAT_out_high, F.PG_STAT_out_low, F.PG_STAT_trip_hold, F.WM_SW_HELD, F.WM_SW_STAT_held, F.WM_SW_STAT_action, F.WM_SW_STAT_cause_kind, F.WM_SW_STAT_cause_index, F.WM_SW_STAT_count, F.WM_SW_TIME_LO, F.WM_SW_TIME_HI, F.SC_STAT_mode, F.SC_STAT_grace, F.SC_STAT_fenced_a, F.SC_STAT_fenced_b, F.SC_STAT_fenced_chk, F.SC_STAT_grace_left, F.SC_CNT_transients, F.SC_CNT_period_trans, F.SC_LAST_outcome, F.SC_LAST_bist_a_fail, F.SC_LAST_bist_b_fail, F.SC_ABS_LEFT_left, F.SC_ABS_LEFT_awaiting, F.FLT_STAT_lost, F.FLT_STAT_safe, F.FLT_LOST, F.FLT_SAFE_safe, F.FLT_SAFE_kind, F.FLT_SAFE_index, F.FLT_SAFE_status, F.FLT_SAFE_TIME_LO, F.FLT_SAFE_TIME_HI], [.tb, .pp, .cv, .sc, .flt]⟩ d (Dev.selfTested d test a b) := by
  unfold Dev.selfTested
  repeat' (first
    | with_reducible exact Keeps.refl _ _
    | decide +kernel
    | with_reducible assumption
    | lift_lets
    | (intro x; first | (refine Keeps.cut (d0 := d) (d1 := x) ?_ ?_; (on_goal 1 => subst x); (on_goal 2 => (intro _; clear_value x))) | subst x)
    | (apply Keeps.step; with_reducible apply Dev.put_keeps)
    | (apply Keeps.step; with_reducible apply Dev.fenceCopy_keeps)
    | (apply Keeps.step; with_reducible apply Dev.goSimplex_keeps)
    | (apply Keeps.step; with_reducible apply Dev.scHalt_keeps)
    | (apply Keeps.step; with_reducible apply Dev.transient_keeps)
    | (with_reducible apply Keeps.ite <;> intro _)
    | split
    | beta_reduce)

theorem execScSelfTestDone_runs (t : Nat) (a b : Bool) (s : State) :
    Runs ⟨false, [F.DEV_STATE_state, F.TB_STG_RUN_run, F.TB_STG_STAT_running, F.TB_STG_STAT_tripped, F.PG_STAT_out_high, F.PG_STAT_out_low, F.PG_STAT_trip_hold, F.WM_SW_HELD, F.WM_SW_STAT_held, F.WM_SW_STAT_action, F.WM_SW_STAT_cause_kind, F.WM_SW_STAT_cause_index, F.WM_SW_STAT_count, F.WM_SW_TIME_LO, F.WM_SW_TIME_HI, F.SC_STAT_mode, F.SC_STAT_grace, F.SC_STAT_fenced_a, F.SC_STAT_fenced_b, F.SC_STAT_fenced_chk, F.SC_STAT_grace_left, F.SC_CNT_transients, F.SC_CNT_period_trans, F.SC_LAST_outcome, F.SC_LAST_bist_a_fail, F.SC_LAST_bist_b_fail, F.SC_ABS_LEFT_left, F.SC_ABS_LEFT_awaiting, F.FLT_STAT_lost, F.FLT_STAT_safe, F.FLT_LOST, F.FLT_SAFE_safe, F.FLT_SAFE_kind, F.FLT_SAFE_index, F.FLT_SAFE_status, F.FLT_SAFE_TIME_LO, F.FLT_SAFE_TIME_HI], [.tb, .pp, .cv, .sc, .flt]⟩ t s (execScSelfTestDone t a b s) := by
  unfold execScSelfTestDone
  refine Runs.of fun d => ?_
  repeat' (first
    | with_reducible exact Keeps.refl _ _
    | decide +kernel
    | (apply Keeps.step; with_reducible apply Dev.selfTested_keeps)
    | (with_reducible apply Keeps.ite <;> intro _)
    | split)

theorem execTransientPeriodExpiry_runs (t : Nat) (s : State) :
    Runs ⟨false, [F.SC_CNT_period_trans], [.sc]⟩ t s (execTransientPeriodExpiry t s) := by
  unfold execTransientPeriodExpiry
  refine Runs.of fun d => ?_
  repeat' (first
    | with_reducible exact Keeps.refl _ _
    | decide +kernel
    | with_reducible assumption
    | lift_lets
    | (intro x; first | (refine Keeps.cut (d0 := d) (d1 := x) ?_ ?_; (on_goal 1 => subst x); (on_goal 2 => (intro _; clear_value x))) | subst x)
    | (apply Keeps.step; with_reducible apply Dev.wr_keeps)
    | (apply Keeps.step; with_reducible apply Dev.onSc_keeps)
    | (with_reducible apply Keeps.ite <;> intro _)
    | split)

theorem execGraceExpiry_runs (t : Nat) (s : State) :
    Runs ⟨false, [F.DEV_STATE_state, F.TB_STG_RUN_run, F.TB_STG_STAT_running, F.TB_STG_STAT_tripped, F.PG_STAT_out_high, F.PG_STAT_out_low, F.PG_STAT_trip_hold, F.WM_SW_HELD, F.WM_SW_STAT_held, F.WM_SW_STAT_action, F.WM_SW_STAT_cause_kind, F.WM_SW_STAT_cause_index, F.WM_SW_STAT_count, F.WM_SW_TIME_LO, F.WM_SW_TIME_HI, F.SC_STAT_grace, F.SC_STAT_grace_left, F.SC_LAST_outcome, F.SC_ABS_LEFT_left, F.SC_ABS_LEFT_awaiting, F.FLT_STAT_lost, F.FLT_STAT_safe, F.FLT_LOST, F.FLT_SAFE_safe, F.FLT_SAFE_kind, F.FLT_SAFE_index, F.FLT_SAFE_status, F.FLT_SAFE_TIME_LO, F.FLT_SAFE_TIME_HI], [.tb, .pp, .cv, .sc, .flt]⟩ t s (execGraceExpiry t s) := by
  unfold execGraceExpiry
  refine Runs.of fun d => ?_
  repeat' (first
    | with_reducible exact Keeps.refl _ _
    | decide +kernel
    | (apply Keeps.step; with_reducible apply Dev.wr_keeps)
    | (apply Keeps.step; with_reducible apply Dev.put_keeps)
    | (apply Keeps.step; with_reducible apply Dev.onSc_keeps)
    | (apply Keeps.step; with_reducible apply Dev.scSafe_keeps)
    | (with_reducible apply Keeps.ite <;> intro _)
    | split)

theorem execInjectionTestDone_runs (t : Nat) (steps : BitVec 7) (s : State) :
    Runs ⟨false, [F.SC_STAT_mode, F.SC_BOOT_TEST_step, F.SC_BOOT_TEST_done, F.SC_BOOT_TEST_pass, F.FLT_STAT_lost, F.FLT_LOST], [.sc, .flt]⟩ t s (execInjectionTestDone t steps s) := by
  unfold execInjectionTestDone
  refine Runs.of fun d => ?_
  repeat' (first
    | with_reducible exact Keeps.refl _ _
    | decide +kernel
    | with_reducible assumption
    | lift_lets
    | (intro x; first | (refine Keeps.cut (d0 := d) (d1 := x) ?_ ?_; (on_goal 1 => subst x); (on_goal 2 => (intro _; clear_value x))) | subst x)
    | (apply Keeps.step; with_reducible apply Dev.wr_keeps)
    | (apply Keeps.step; with_reducible apply Dev.put_keeps)
    | (apply Keeps.step; with_reducible apply Dev.post_keeps)
    | (apply Keeps.step; with_reducible apply Dev.report_keeps)
    | (apply Keeps.step; with_reducible apply Dev.onSc_keeps)
    | (with_reducible apply Keeps.ite <;> intro _)
    | split)

theorem Dev.wdogRestart_keeps (d : Dev) : Keeps ⟨false, [], [.sc]⟩ d (Dev.wdogRestart d) := by
  unfold Dev.wdogRestart
  repeat' (first
    | with_reducible exact Keeps.refl _ _
    | decide +kernel
    | with_reducible assumption
    | lift_lets
    | (intro x; first | (refine Keeps.cut (d0 := d) (d1 := x) ?_ ?_; (on_goal 1 => subst x); (on_goal 2 => (intro _; clear_value x))) | subst x)
    | (apply Keeps.step; with_reducible apply Dev.onSc_keeps)
    | (with_reducible apply Keeps.ite <;> intro _)
    | split)

theorem Dev.fwReady_keeps (d : Dev) : Keeps ⟨false, [F.SC_STAT_fw_ready, F.SC_FW_ready], [.sc]⟩ d (Dev.fwReady d) := by
  unfold Dev.fwReady
  repeat' (first
    | with_reducible exact Keeps.refl _ _
    | decide +kernel
    | (apply Keeps.step; with_reducible apply Dev.put_keeps)
    | (apply Keeps.step; with_reducible apply Dev.wdogRestart_keeps)
    | (with_reducible apply Keeps.ite <;> intro _)
    | split)

theorem execFwReady_runs (t : Nat) (s : State) :
    Runs ⟨false, [F.SC_STAT_fw_ready, F.SC_FW_ready], [.sc]⟩ t s (execFwReady t s) := by
  unfold execFwReady fromFirmware
  refine Runs.of fun d => ?_
  repeat' (first
    | with_reducible exact Keeps.refl _ _
    | decide +kernel
    | (apply Keeps.step; with_reducible apply Dev.fwReady_keeps)
    | (with_reducible apply Keeps.ite <;> intro _)
    | beta_reduce)

theorem Dev.serviceWdog_keeps (d : Dev) (v : Word) : Keeps ⟨false, [F.SC_WDOG_value], [.sc]⟩ d (Dev.serviceWdog d v) := by
  unfold Dev.serviceWdog
  repeat' (first
    | with_reducible exact Keeps.refl _ _
    | decide +kernel
    | (apply Keeps.step; with_reducible apply Dev.wr_keeps)
    | (apply Keeps.step; with_reducible apply Dev.wdogRestart_keeps))

theorem execWdogService_runs (t : Nat) (v : Word) (s : State) :
    Runs ⟨false, [F.SC_WDOG_value], [.sc]⟩ t s (execWdogService t v s) := by
  unfold execWdogService fromFirmware
  refine Runs.of fun d => ?_
  repeat' (first
    | with_reducible exact Keeps.refl _ _
    | decide +kernel
    | (apply Keeps.step; with_reducible apply Dev.serviceWdog_keeps)
    | (with_reducible apply Keeps.ite <;> intro _)
    | beta_reduce)

theorem execWdogExpiry_runs (t : Nat) (s : State) :
    Runs ⟨false, [F.DEV_STATE_state, F.TB_STG_RUN_run, F.TB_STG_STAT_running, F.TB_STG_STAT_tripped, F.PG_STAT_out_high, F.PG_STAT_out_low, F.PG_STAT_trip_hold, F.WM_SW_HELD, F.WM_SW_STAT_held, F.WM_SW_STAT_action, F.WM_SW_STAT_cause_kind, F.WM_SW_STAT_cause_index, F.WM_SW_STAT_count, F.WM_SW_TIME_LO, F.WM_SW_TIME_HI, F.SC_LAST, F.SC_LAST_outcome, F.SC_LAST_TIME_LO, F.SC_LAST_TIME_HI, F.SC_ABS_LEFT_left, F.SC_ABS_LEFT_awaiting, F.FLT_STAT_lost, F.FLT_STAT_safe, F.FLT_LOST, F.FLT_SAFE_safe, F.FLT_SAFE_kind, F.FLT_SAFE_index, F.FLT_SAFE_status, F.FLT_SAFE_TIME_LO, F.FLT_SAFE_TIME_HI], [.tb, .pp, .cv, .sc, .flt]⟩ t s (execWdogExpiry t s) := by
  unfold execWdogExpiry
  refine Runs.of fun d => ?_
  repeat' (first
    | with_reducible exact Keeps.refl _ _
    | decide +kernel
    | with_reducible assumption
    | lift_lets
    | (intro x; first | (refine Keeps.cut (d0 := d) (d1 := x) ?_ ?_; (on_goal 1 => subst x); (on_goal 2 => (intro _; clear_value x))) | subst x)
    | (apply Keeps.step; with_reducible apply Dev.wr_keeps)
    | (apply Keeps.step; with_reducible apply Dev.enterSafe_keeps)
    | (apply Keeps.step; with_reducible apply Dev.onSc_keeps)
    | (apply Keeps.step; with_reducible apply Dev.scNote_keeps)
    | (with_reducible apply Keeps.ite <;> intro _)
    | split
    | beta_reduce)

theorem Dev.showVq_keeps (d : Dev) : Keeps ⟨false, [F.SC_VQ_STAT, F.SC_VQ_SRC_queue_pair, F.SC_VQ_ARRIVE_LO, F.SC_VQ_ARRIVE_HI, F.SC_VQ_DESC], []⟩ d (Dev.showVq d) := by
  unfold Dev.showVq
  repeat' (first
    | with_reducible exact Keeps.refl _ _
    | decide +kernel
    | (intro _ _ k; exact k.le)
    | with_reducible assumption
    | lift_lets
    | (intro x; first | (refine Keeps.cut (d0 := e) (d1 := x) ?_ ?_; (on_goal 1 => subst x); (on_goal 2 => (intro _; clear_value x))) | (refine Keeps.cut (d0 := d) (d1 := x) ?_ ?_; (on_goal 1 => subst x); (on_goal 2 => (intro _; clear_value x))) | subst x)
    | (apply Keeps.stepSame; with_reducible apply Dev.each_keeps; intro e _)
    | (apply Keeps.step; with_reducible apply Dev.wr_keeps)
    | (apply Keeps.step; with_reducible apply Dev.wr64_keeps)
    | (with_reducible apply Keeps.ite <;> intro _)
    | split
    | beta_reduce)

theorem Dev.vqPop_keeps (d : Dev) : Keeps ⟨false, [F.SC_VQ_STAT, F.SC_VQ_SRC_queue_pair, F.SC_VQ_ARRIVE_LO, F.SC_VQ_ARRIVE_HI, F.SC_VQ_DESC], [.sc]⟩ d (Dev.vqPop d) := by
  unfold Dev.vqPop
  repeat' (first
    | with_reducible exact Keeps.refl _ _
    | decide +kernel
    | (apply Keeps.step; with_reducible apply Dev.onSc_keeps)
    | (apply Keeps.step; with_reducible apply Dev.showVq_keeps))

theorem execVqArrival_runs (t : Nat) (q : Fin 64) (i : Nat) (s : State) :
    Runs ⟨false, [F.SC_VQ_STAT, F.SC_VQ_SRC_queue_pair, F.SC_VQ_ARRIVE_LO, F.SC_VQ_ARRIVE_HI, F.SC_VQ_DESC, F.HI_QP_CTRL_draining, F.HI_QP_FLAGS_in_flight], [.sc, .hi]⟩ t s (execVqArrival t q i s) := by
  unfold execVqArrival
  refine Runs.of fun d => ?_
  repeat' (first
    | with_reducible exact Keeps.refl _ _
    | decide +kernel
    | with_reducible assumption
    | lift_lets
    | (intro x; first | (refine Keeps.cut (d0 := d) (d1 := x) ?_ ?_; (on_goal 1 => subst x); (on_goal 2 => (intro _; clear_value x))) | subst x)
    | (apply Keeps.step; with_reducible apply Dev.onItem_keeps)
    | (apply Keeps.step; with_reducible apply Dev.showQp_keeps)
    | (apply Keeps.step; with_reducible apply Dev.onSc_keeps)
    | (apply Keeps.step; with_reducible apply Dev.showVq_keeps)
    | (with_reducible apply Keeps.ite <;> intro _)
    | split
    | beta_reduce)

theorem Dev.absRestart_keeps (d : Dev) (ss : List Nat) : Keeps ⟨false, [F.SC_ABS_LEFT_expired, F.SC_ABS_LEFT_awaiting], [.sc]⟩ d (Dev.absRestart d ss) := by
  unfold Dev.absRestart
  repeat' (first
    | with_reducible exact Keeps.refl _ _
    | decide +kernel
    | (intro _ _ k; exact k.le)
    | (apply Keeps.stepSame; with_reducible apply Dev.each_keeps; intro e _)
    | (apply Keeps.step; with_reducible apply Dev.absStart_keeps))

theorem Dev.verdict_keeps (d : Dev) (v reason seq : Nat) : Keeps ⟨false, [F.FAB_WRITE_ERR, F.FAB_WRITE_ERR_more, F.FAB_WRITE_DATA, F.FAB_WRITE_CNT, F.SC_TM_STAT_last_status, F.SC_TM_CNT_refusals, F.SC_CH_STAT_last_status, F.SC_LV_STAT_last_status, F.SC_DR_STAT_last_status, F.SC_VQ_STAT, F.SC_VQ_SRC_queue_pair, F.SC_VQ_ARRIVE_LO, F.SC_VQ_ARRIVE_HI, F.SC_VQ_DESC, F.SC_VQ_VERDICT, F.SC_VAL_CNT_accepted, F.SC_VAL_CNT_refused, F.SC_ABS_LEFT_expired, F.SC_ABS_LEFT_awaiting, F.HI_QP_CTRL_draining, F.HI_QP_FLAGS_in_flight, F.CN_STAT_slots, F.FLT_STAT_lost, F.FLT_LOST], [.sc, .hi, .cn, .flt]⟩ d (Dev.verdict d v reason seq) := by
  unfold Dev.verdict
  repeat' (first
    | with_reducible exact Keeps.refl _ _
    | with_reducible assumption
    | decide +kernel
    | (apply Keeps.step; with_reducible apply Dev.wr_keeps)
    | (apply Keeps.step; with_reducible apply Dev.bump_keeps)
    | (apply Keeps.step; with_reducible apply Dev.finish_keeps)
    | (apply Keeps.step; with_reducible apply Dev.vqPop_keeps)
    | (apply Keeps.step; with_reducible apply Dev.onSc_keeps)
    | (apply Keeps.step; with_reducible apply Dev.onItem_keeps)
    | (apply Keeps.step; with_reducible apply Dev.absRestart_keeps)
    | (apply Keeps.step; with_reducible apply Dev.reject_keeps)
    | (with_reducible apply Keeps.ite <;> intro _)
    | split
    | dsimp only)

theorem execAccept_runs (t : Nat) (seq : BitVec 16) (s : State) :
    Runs ⟨false, [F.FAB_WRITE_ERR, F.FAB_WRITE_ERR_more, F.FAB_WRITE_DATA, F.FAB_WRITE_CNT, F.SC_TM_STAT_last_status, F.SC_TM_CNT_refusals, F.SC_CH_STAT_last_status, F.SC_LV_STAT_last_status, F.SC_DR_STAT_last_status, F.SC_VQ_STAT, F.SC_VQ_SRC_queue_pair, F.SC_VQ_ARRIVE_LO, F.SC_VQ_ARRIVE_HI, F.SC_VQ_DESC, F.SC_VQ_VERDICT, F.SC_VAL_CNT_accepted, F.SC_VAL_CNT_refused, F.SC_ABS_LEFT_expired, F.SC_ABS_LEFT_awaiting, F.HI_QP_CTRL_draining, F.HI_QP_FLAGS_in_flight, F.CN_STAT_slots, F.FLT_STAT_lost, F.FLT_LOST], [.sc, .hi, .cn, .flt]⟩ t s (execAccept t seq s) := by
  unfold execAccept fromFirmware
  refine Runs.of fun d => ?_
  repeat' (first
    | with_reducible exact Keeps.refl _ _
    | decide +kernel
    | (apply Keeps.step; with_reducible apply Dev.verdict_keeps)
    | (with_reducible apply Keeps.ite <;> intro _)
    | beta_reduce)

theorem execRefuse_runs (t : Nat) (seq : BitVec 16) (reason : BitVec 12) (s : State) :
    Runs ⟨false, [F.FAB_WRITE_ERR, F.FAB_WRITE_ERR_more, F.FAB_WRITE_DATA, F.FAB_WRITE_CNT, F.SC_TM_STAT_last_status, F.SC_TM_CNT_refusals, F.SC_CH_STAT_last_status, F.SC_LV_STAT_last_status, F.SC_DR_STAT_last_status, F.SC_VQ_STAT, F.SC_VQ_SRC_queue_pair, F.SC_VQ_ARRIVE_LO, F.SC_VQ_ARRIVE_HI, F.SC_VQ_DESC, F.SC_VQ_VERDICT, F.SC_VAL_CNT_accepted, F.SC_VAL_CNT_refused, F.SC_ABS_LEFT_expired, F.SC_ABS_LEFT_awaiting, F.HI_QP_CTRL_draining, F.HI_QP_FLAGS_in_flight, F.CN_STAT_slots, F.FLT_STAT_lost, F.FLT_LOST], [.sc, .hi, .cn, .flt]⟩ t s (execRefuse t seq reason s) := by
  unfold execRefuse fromFirmware
  refine Runs.of fun d => ?_
  repeat' (first
    | with_reducible exact Keeps.refl _ _
    | decide +kernel
    | (apply Keeps.step; with_reducible apply Dev.verdict_keeps)
    | (with_reducible apply Keeps.ite <;> intro _)
    | beta_reduce)

theorem Dev.vqExpire_keeps (d : Dev) (e : VqEntry) (byTime : Bool) : Keeps ⟨false, [F.SC_TM_STAT_last_status, F.SC_TM_CNT_refusals, F.SC_CH_STAT_last_status, F.SC_LV_STAT_last_status, F.SC_DR_STAT_last_status, F.SC_VQ_STAT, F.SC_VQ_SRC_queue_pair, F.SC_VQ_ARRIVE_LO, F.SC_VQ_ARRIVE_HI, F.SC_VQ_DESC, F.SC_VAL_CNT_expired, F.HI_QP_CTRL_draining, F.HI_QP_FLAGS_in_flight, F.CN_STAT_slots, F.FLT_STAT_lost, F.FLT_LOST], [.sc, .hi, .cn, .flt]⟩ d (Dev.vqExpire d e byTime) := by
  unfold Dev.vqExpire
  repeat' (first
    | with_reducible exact Keeps.refl _ _
    | decide +kernel
    | with_reducible assumption
    | lift_lets
    | (intro x; first | (refine Keeps.cut (d0 := d) (d1 := x) ?_ ?_; (on_goal 1 => subst x); (on_goal 2 => (intro _; clear_value x))) | subst x)
    | (apply Keeps.step; with_reducible apply Dev.bump_keeps)
    | (apply Keeps.step; with_reducible apply Dev.report_keeps)
    | (apply Keeps.step; with_reducible apply Dev.reportOpen_keeps)
    | (apply Keeps.step; with_reducible apply Dev.finish_keeps)
    | (apply Keeps.step; with_reducible apply Dev.onSc_keeps)
    | (apply Keeps.step; with_reducible apply Dev.vqPop_keeps)
    | (with_reducible apply Keeps.ite <;> intro _)
    | split)

theorem execValidationExpiry_runs (t : Nat) (seq : BitVec 16) (s : State) :
    Runs ⟨false, [F.SC_TM_STAT_last_status, F.SC_TM_CNT_refusals, F.SC_CH_STAT_last_status, F.SC_LV_STAT_last_status, F.SC_DR_STAT_last_status, F.SC_VQ_STAT, F.SC_VQ_SRC_queue_pair, F.SC_VQ_ARRIVE_LO, F.SC_VQ_ARRIVE_HI, F.SC_VQ_DESC, F.SC_VAL_CNT_expired, F.HI_QP_CTRL_draining, F.HI_QP_FLAGS_in_flight, F.CN_STAT_slots, F.FLT_STAT_lost, F.FLT_LOST], [.sc, .hi, .cn, .flt]⟩ t s (execValidationExpiry t seq s) := by
  unfold execValidationExpiry
  refine Runs.of fun d => ?_
  repeat' (first
    | with_reducible exact Keeps.refl _ _
    | decide +kernel
    | with_reducible assumption
    | lift_lets
    | (intro x; first | (refine Keeps.cut (d0 := d) (d1 := x) ?_ ?_; (on_goal 1 => subst x); (on_goal 2 => (intro _; clear_value x))) | subst x)
    | (apply Keeps.step; with_reducible apply Dev.vqExpire_keeps)
    | (with_reducible apply Keeps.ite <;> intro _)
    | split
    | beta_reduce)

theorem Dev.stopAction_keeps (d : Dev) (k : Nat) : Keeps ⟨false, [F.TB_STG_RUN_run, F.TB_STG_STAT_running, F.PG_STAT_out_high, F.PG_STAT_out_low, F.SC_TM_STAT_state, F.SC_TM_STAT_active, F.SC_TM_STAT_last_status, F.SC_TM_CNT_refusals, F.SC_CH_STAT_state, F.SC_CH_STAT_active, F.SC_CH_STAT_last_status, F.SC_LV_STAT_state, F.SC_LV_STAT_active, F.SC_LV_STAT_last_status, F.SC_DR_STAT_state, F.SC_DR_STAT_last_status, F.SC_ABS_LEFT_left, F.SC_ABS_LEFT_awaiting, F.HI_QP_CTRL_draining, F.HI_QP_FLAGS_in_flight, F.CN_STAT_slots, F.FLT_STAT_lost, F.FLT_LOST], [.tb, .pp, .be, .tm, .ch, .dr, .sc, .hi, .cn, .flt]⟩ d (Dev.stopAction d k) := by
  unfold Dev.stopAction
  repeat' (first
    | with_reducible exact Keeps.refl _ _
    | decide +kernel
    | with_reducible assumption
    | lift_lets
    | (intro x; first | (refine Keeps.cut (d0 := d) (d1 := x) ?_ ?_; (on_goal 1 => subst x); (on_goal 2 => (intro _; clear_value x))) | subst x)
    | (apply Keeps.step; with_reducible apply Dev.put_keeps)
    | (apply Keeps.step; with_reducible apply Dev.setRespDue_keeps)
    | (apply Keeps.step; with_reducible apply Dev.stopStage_keeps)
    | (apply Keeps.step; with_reducible apply Dev.tmStop_keeps)
    | (apply Keeps.step; with_reducible apply Dev.hardStop_keeps)
    | (apply Keeps.step; with_reducible apply Dev.lvStop_keeps)
    | (apply Keeps.step; with_reducible apply Dev.drStop_keeps)
    | (with_reducible apply Keeps.ite <;> intro _)
    | split)

theorem Dev.absCommand_keeps (d : Dev) (k cmd : Nat) : Keeps ⟨false, [F.FAB_WRITE_ERR, F.FAB_WRITE_ERR_more, F.FAB_WRITE_DATA, F.FAB_WRITE_CNT, F.TB_STG_RUN_run, F.TB_STG_STAT_running, F.PG_STAT_out_high, F.PG_STAT_out_low, F.SC_TM_STAT_state, F.SC_TM_STAT_active, F.SC_TM_STAT_last_status, F.SC_TM_CNT_refusals, F.SC_CH_STAT_state, F.SC_CH_STAT_active, F.SC_CH_STAT_last_status, F.SC_LV_STAT_state, F.SC_LV_STAT_active, F.SC_LV_STAT_last_status, F.SC_DR_STAT_state, F.SC_DR_STAT_last_status, F.SC_ABS_CTRL_cmd, F.SC_ABS_CTRL_status, F.SC_ABS_LEFT_left, F.SC_ABS_LEFT_expired, F.SC_ABS_LEFT_awaiting, F.HI_QP_CTRL_draining, F.HI_QP_FLAGS_in_flight, F.CN_STAT_slots, F.FLT_STAT_lost, F.FLT_LOST], [.tb, .pp, .be, .tm, .ch, .dr, .sc, .hi, .cn, .flt]⟩ d (Dev.absCommand d k cmd) := by
  unfold Dev.absCommand
  repeat' (first
    | with_reducible exact Keeps.refl _ _
    | decide +kernel
    | with_reducible assumption
    | lift_lets
    | (intro x; first | (refine Keeps.cut (d0 := d) (d1 := x) ?_ ?_; (on_goal 1 => subst x); (on_goal 2 => (intro _; clear_value x))) | subst x)
    | (apply Keeps.step; with_reducible apply Dev.wr_keeps)
    | (apply Keeps.step; with_reducible apply Dev.reject_keeps)
    | (apply Keeps.step; with_reducible apply Dev.absRestart_keeps)
    | (apply Keeps.step; with_reducible apply Dev.stopAction_keeps)
    | (with_reducible apply Keeps.ite <;> intro _)
    | split)

theorem execKick_runs (t : Nat) (k : Fin 21) (s : State) :
    Runs ⟨false, [F.FAB_WRITE_ERR, F.FAB_WRITE_ERR_more, F.FAB_WRITE_DATA, F.FAB_WRITE_CNT, F.TB_STG_RUN_run, F.TB_STG_STAT_running, F.PG_STAT_out_high, F.PG_STAT_out_low, F.SC_TM_STAT_state, F.SC_TM_STAT_active, F.SC_TM_STAT_last_status, F.SC_TM_CNT_refusals, F.SC_CH_STAT_state, F.SC_CH_STAT_active, F.SC_CH_STAT_last_status, F.SC_LV_STAT_state, F.SC_LV_STAT_active, F.SC_LV_STAT_last_status, F.SC_DR_STAT_state, F.SC_DR_STAT_last_status, F.SC_ABS_CTRL_cmd, F.SC_ABS_CTRL_status, F.SC_ABS_LEFT_left, F.SC_ABS_LEFT_expired, F.SC_ABS_LEFT_awaiting, F.HI_QP_CTRL_draining, F.HI_QP_FLAGS_in_flight, F.CN_STAT_slots, F.FLT_STAT_lost, F.FLT_LOST], [.tb, .pp, .be, .tm, .ch, .dr, .sc, .hi, .cn, .flt]⟩ t s (execKick t k s) := by
  unfold execKick fromFirmware
  refine Runs.of fun d => ?_
  repeat' (first
    | with_reducible exact Keeps.refl _ _
    | decide +kernel
    | (apply Keeps.step; with_reducible apply Dev.absCommand_keeps)
    | (with_reducible apply Keeps.ite <;> intro _)
    | beta_reduce)

theorem execContinue_runs (t : Nat) (k : Fin 21) (s : State) :
    Runs ⟨false, [F.FAB_WRITE_ERR, F.FAB_WRITE_ERR_more, F.FAB_WRITE_DATA, F.FAB_WRITE_CNT, F.TB_STG_RUN_run, F.TB_STG_STAT_running, F.PG_STAT_out_high, F.PG_STAT_out_low, F.SC_TM_STAT_state, F.SC_TM_STAT_active, F.SC_TM_STAT_last_status, F.SC_TM_CNT_refusals, F.SC_CH_STAT_state, F.SC_CH_STAT_active, F.SC_CH_STAT_last_status, F.SC_LV_STAT_state, F.SC_LV_STAT_active, F.SC_LV_STAT_last_status, F.SC_DR_STAT_state, F.SC_DR_STAT_last_status, F.SC_ABS_CTRL_cmd, F.SC_ABS_CTRL_status, F.SC_ABS_LEFT_left, F.SC_ABS_LEFT_expired, F.SC_ABS_LEFT_awaiting, F.HI_QP_CTRL_draining, F.HI_QP_FLAGS_in_flight, F.CN_STAT_slots, F.FLT_STAT_lost, F.FLT_LOST], [.tb, .pp, .be, .tm, .ch, .dr, .sc, .hi, .cn, .flt]⟩ t s (execContinue t k s) := by
  unfold execContinue fromFirmware
  refine Runs.of fun d => ?_
  repeat' (first
    | with_reducible exact Keeps.refl _ _
    | decide +kernel
    | (apply Keeps.step; with_reducible apply Dev.absCommand_keeps)
    | (with_reducible apply Keeps.ite <;> intro _)
    | beta_reduce)

theorem execStop_runs (t : Nat) (k : Fin 21) (s : State) :
    Runs ⟨false, [F.FAB_WRITE_ERR, F.FAB_WRITE_ERR_more, F.FAB_WRITE_DATA, F.FAB_WRITE_CNT, F.TB_STG_RUN_run, F.TB_STG_STAT_running, F.PG_STAT_out_high, F.PG_STAT_out_low, F.SC_TM_STAT_state, F.SC_TM_STAT_active, F.SC_TM_STAT_last_status, F.SC_TM_CNT_refusals, F.SC_CH_STAT_state, F.SC_CH_STAT_active, F.SC_CH_STAT_last_status, F.SC_LV_STAT_state, F.SC_LV_STAT_active, F.SC_LV_STAT_last_status, F.SC_DR_STAT_state, F.SC_DR_STAT_last_status, F.SC_ABS_CTRL_cmd, F.SC_ABS_CTRL_status, F.SC_ABS_LEFT_left, F.SC_ABS_LEFT_expired, F.SC_ABS_LEFT_awaiting, F.HI_QP_CTRL_draining, F.HI_QP_FLAGS_in_flight, F.CN_STAT_slots, F.FLT_STAT_lost, F.FLT_LOST], [.tb, .pp, .be, .tm, .ch, .dr, .sc, .hi, .cn, .flt]⟩ t s (execStop t k s) := by
  unfold execStop fromFirmware
  refine Runs.of fun d => ?_
  repeat' (first
    | with_reducible exact Keeps.refl _ _
    | decide +kernel
    | (apply Keeps.step; with_reducible apply Dev.absCommand_keeps)
    | (with_reducible apply Keeps.ite <;> intro _)
    | beta_reduce)

theorem execAbsenceExpiry_runs (t : Nat) (k : Fin 21) (s : State) :
    Runs ⟨false, [F.TB_STG_RUN_run, F.TB_STG_STAT_running, F.TB_STG_STAT_tripped, F.PG_STAT_out_high, F.PG_STAT_out_low, F.PG_STAT_trip_hold, F.WM_SW_HELD, F.WM_SW_CTRL_cmd, F.WM_SW_CTRL_status, F.WM_SW_STAT_held, F.WM_SW_STAT_action, F.WM_SW_STAT_cause_kind, F.WM_SW_STAT_cause_index, F.WM_SW_STAT_count, F.WM_SW_TIME_LO, F.WM_SW_TIME_HI, F.SC_TM_STAT_state, F.SC_TM_STAT_active, F.SC_TM_STAT_last_status, F.SC_TM_CNT_refusals, F.SC_CH_STAT_state, F.SC_CH_STAT_active, F.SC_CH_STAT_last_status, F.SC_LV_STAT_state, F.SC_LV_STAT_active, F.SC_LV_STAT_last_status, F.SC_DR_STAT_state, F.SC_DR_STAT_last_status, F.SC_ABS_LEFT_left, F.SC_ABS_LEFT_expired, F.SC_ABS_LEFT_awaiting, F.HI_QP_CTRL_draining, F.HI_QP_FLAGS_in_flight, F.CN_STAT_slots, F.FLT_STAT_lost, F.FLT_LOST], [.tb, .pp, .cv, .be, .tm, .ch, .dr, .sc, .hi, .cn, .flt]⟩ t s (execAbsenceExpiry t k s) := by
  unfold execAbsenceExpiry
  refine Runs.of fun d => ?_
  repeat' (first
    | with_reducible exact Keeps.refl _ _
    | decide +kernel
    | with_reducible assumption
    | lift_lets
    | (intro x; first | (refine Keeps.cut (d0 := d) (d1 := x) ?_ ?_; (on_goal 1 => subst x); (on_goal 2 => (intro _; clear_value x))) | subst x)
    | (apply Keeps.step; with_reducible apply Dev.wr_keeps)
    | (apply Keeps.step; with_reducible apply Dev.put_keeps)
    | (apply Keeps.step; with_reducible apply Dev.setAbsDue_keeps)
    | (apply Keeps.step; with_reducible apply Dev.setRespDue_keeps)
    | (apply Keeps.step; with_reducible apply Dev.report_keeps)
    | (apply Keeps.step; with_reducible apply Dev.reportOpen_keeps)
    | (apply Keeps.step; with_reducible apply Dev.raiseRequest_keeps)
    | (apply Keeps.step; with_reducible apply Dev.force_keeps)
    | (apply Keeps.step; with_reducible apply Dev.stopAction_keeps)
    | (with_reducible apply Keeps.ite <;> intro _)
    | split
    | beta_reduce)

theorem execNotifyTimeout_runs (t : Nat) (k : Fin 21) (s : State) :
    Runs ⟨false, [F.TB_STG_RUN_run, F.TB_STG_STAT_running, F.PG_STAT_out_high, F.PG_STAT_out_low, F.SC_TM_STAT_state, F.SC_TM_STAT_active, F.SC_TM_STAT_last_status, F.SC_TM_CNT_refusals, F.SC_CH_STAT_state, F.SC_CH_STAT_active, F.SC_CH_STAT_last_status, F.SC_LV_STAT_state, F.SC_LV_STAT_active, F.SC_LV_STAT_last_status, F.SC_DR_STAT_state, F.SC_DR_STAT_last_status, F.SC_ABS_LEFT_left, F.SC_ABS_LEFT_awaiting, F.HI_QP_CTRL_draining, F.HI_QP_FLAGS_in_flight, F.CN_STAT_slots, F.FLT_STAT_lost, F.FLT_LOST], [.tb, .pp, .be, .tm, .ch, .dr, .sc, .hi, .cn, .flt]⟩ t s (execNotifyTimeout t k s) := by
  unfold execNotifyTimeout
  refine Runs.of fun d => ?_
  repeat' (first
    | with_reducible exact Keeps.refl _ _
    | decide +kernel
    | (apply Keeps.step; with_reducible apply Dev.stopAction_keeps)
    | (with_reducible apply Keeps.ite <;> intro _)
    | split)

end Sys2Proof.Machine
end

