-- ==== Sys2Proof/Laws/KeepsHostRings.lean ====
section
/-! SUPPORT. What the effects of HostRings.lean keep. -/

namespace Sys2Proof.Machine

set_option Elab.async false

theorem Dev.finishMoved_keeps (d : Dev) (q : Nat) (it : Item) (st : Nat) : Keeps ⟨false, [F.SC_TM_STAT_last_status, F.SC_TM_CNT_refusals, F.SC_CH_STAT_last_status, F.SC_LV_STAT_last_status, F.SC_DR_STAT_last_status, F.HI_QP_CTRL_draining, F.HI_QP_FLAGS_in_flight, F.CN_STAT_slots, F.FLT_STAT_lost, F.FLT_LOST], [.hi, .cn, .flt]⟩ d (Dev.finishMoved d q it st) := by
  unfold Dev.finishMoved
  repeat' (first
    | with_reducible exact Keeps.refl _ _
    | decide +kernel
    | (apply Keeps.step; with_reducible apply Dev.finish_keeps))

theorem Dev.endUnread_keeps (d : Dev) (q : Nat) : Keeps ⟨false, [F.HI_QP_STAT_sq_head], [.hi]⟩ d (Dev.endUnread d q) := by
  unfold Dev.endUnread
  repeat' (first
    | with_reducible exact Keeps.refl _ _
    | decide +kernel
    | with_reducible assumption
    | lift_lets
    | (intro x; first | (refine Keeps.cut (d0 := d) (d1 := x) ?_ ?_; (on_goal 1 => subst x); (on_goal 2 => (intro _; clear_value x))) | subst x)
    | (apply Keeps.step; with_reducible apply Dev.wr_keeps)
    | (apply Keeps.step; with_reducible apply Dev.setQp_keeps))

theorem Dev.endPending_keeps (d : Dev) (q : Nat) : Keeps ⟨false, [F.SC_TM_STAT_last_status, F.SC_TM_CNT_refusals, F.SC_CH_STAT_last_status, F.SC_LV_STAT_last_status, F.SC_DR_STAT_last_status, F.HI_QP_CTRL_enable, F.HI_QP_CTRL_draining, F.HI_QP_STAT_sq_head, F.HI_QP_FLAGS_in_flight, F.CN_STAT_slots, F.FLT_STAT_lost, F.FLT_LOST], [.hi, .cn, .flt]⟩ d (Dev.endPending d q) := by
  unfold Dev.endPending
  repeat' (first
    | with_reducible exact Keeps.refl _ _
    | decide +kernel
    | (intro _ _ k; exact k.le)
    | with_reducible assumption
    | lift_lets
    | (intro x; first | (refine Keeps.cut (d0 := e) (d1 := x) ?_ ?_; (on_goal 1 => subst x); (on_goal 2 => (intro _; clear_value x))) | (refine Keeps.cut (d0 := d) (d1 := x) ?_ ?_; (on_goal 1 => subst x); (on_goal 2 => (intro _; clear_value x))) | subst x)
    | (apply Keeps.step; with_reducible apply Dev.put_keeps)
    | (apply Keeps.step; with_reducible apply Dev.drainItems_keeps)
    | (apply Keeps.step; with_reducible apply Dev.finish_keeps)
    | (apply Keeps.step; with_reducible apply Dev.finishMoved_keeps)
    | (apply Keeps.step; with_reducible apply Dev.endUnread_keeps)
    | (apply Keeps.stepSame; with_reducible apply Dev.foldl_keeps; intro e _)
    | (with_reducible apply Keeps.ite <;> intro _)
    | split)

theorem Dev.fenceQp_keeps (d : Dev) (q cause sub : Nat) : Keeps ⟨false, [F.SC_TM_STAT_last_status, F.SC_TM_CNT_refusals, F.SC_CH_STAT_last_status, F.SC_LV_STAT_last_status, F.SC_DR_STAT_last_status, F.HI_QP_CTRL_enable, F.HI_QP_CTRL_status, F.HI_QP_CTRL_draining, F.HI_QP_STAT_sq_head, F.HI_QP_FLAGS_fenced, F.HI_QP_FLAGS_in_flight, F.CN_STAT_slots, F.FLT_STAT_lost, F.FLT_LOST], [.hi, .cn, .flt]⟩ d (Dev.fenceQp d q cause sub) := by
  unfold Dev.fenceQp
  repeat' (first
    | with_reducible exact Keeps.refl _ _
    | decide +kernel
    | with_reducible assumption
    | lift_lets
    | (intro x; first | (refine Keeps.cut (d0 := d) (d1 := x) ?_ ?_; (on_goal 1 => subst x); (on_goal 2 => (intro _; clear_value x))) | subst x)
    | (apply Keeps.step; with_reducible apply Dev.wr_keeps)
    | (apply Keeps.step; with_reducible apply Dev.put_keeps)
    | (apply Keeps.step; with_reducible apply Dev.setQp_keeps)
    | (apply Keeps.step; with_reducible apply Dev.markFenced_keeps)
    | (apply Keeps.step; with_reducible apply Dev.postFenced_keeps)
    | (apply Keeps.step; with_reducible apply Dev.endPending_keeps)
    | (with_reducible apply Keeps.ite <;> intro _)
    | split)

theorem Dev.ringBell_keeps (d : Dev) (q : Nat) (v : Word) : Keeps ⟨false, [F.HI_QP_FLAGS_bad_bell, F.HI_QP_FLAGS_bell_err_cnt], [.hi]⟩ d (Dev.ringBell d q v) := by
  unfold Dev.ringBell
  repeat' (first
    | with_reducible exact Keeps.refl _ _
    | decide +kernel
    | with_reducible assumption
    | lift_lets
    | (intro x; first | (refine Keeps.cut (d0 := d) (d1 := x) ?_ ?_; (on_goal 1 => subst x); (on_goal 2 => (intro _; clear_value x))) | subst x)
    | (apply Keeps.step; with_reducible apply Dev.put_keeps)
    | (apply Keeps.step; with_reducible apply Dev.bump_keeps)
    | (apply Keeps.step; with_reducible apply Dev.setQp_keeps)
    | (with_reducible apply Keeps.ite <;> intro _)
    | split)

theorem Dev.doorbell_keeps (d : Dev) (q : Nat) (v : Word) : Keeps ⟨false, [F.HI_QP_FLAGS_bad_bell, F.HI_QP_FLAGS_bell_err_cnt], [.hi]⟩ d (Dev.doorbell d q v) := by
  unfold Dev.doorbell
  repeat' (first
    | with_reducible exact Keeps.refl _ _
    | decide +kernel
    | (apply Keeps.step; with_reducible apply Dev.setQp_keeps)
    | (apply Keeps.step; with_reducible apply Dev.ringBell_keeps)
    | (with_reducible apply Keeps.ite <;> intro _)
    | split)

theorem execDoorbell_runs (t : Nat) (off : Fin 4096) (v : Word) (s : State) :
    Runs ⟨false, [F.HI_QP_FLAGS_bad_bell, F.HI_QP_FLAGS_bell_err_cnt], [.hi]⟩ t s (execDoorbell t off v s) := by
  unfold execDoorbell
  refine Runs.of fun d => ?_
  repeat' (first
    | with_reducible exact Keeps.refl _ _
    | decide +kernel
    | (apply Keeps.step; with_reducible apply Dev.doorbell_keeps)
    | (with_reducible apply Keeps.ite <;> intro _)
    | split)

theorem Dev.enableQp_keeps (d : Dev) (m : Master) (q : Nat) : Keeps ⟨false, [F.FAB_WRITE_ERR, F.FAB_WRITE_ERR_more, F.FAB_WRITE_DATA, F.FAB_WRITE_CNT, F.HI_QP_CTRL_enable, F.HI_QP_CTRL_status, F.HI_QP_STAT, F.HI_QP_FLAGS_phase, F.HI_QP_FLAGS_fenced, F.HI_QP_FLAGS_bad_bell, F.HI_QP_FLAGS_bell_err_cnt], [.hi, .flt]⟩ d (Dev.enableQp d m q) := by
  unfold Dev.enableQp
  repeat' (first
    | with_reducible exact Keeps.refl _ _
    | decide +kernel
    | with_reducible assumption
    | lift_lets
    | (intro x; first | (refine Keeps.cut (d0 := d) (d1 := x) ?_ ?_; (on_goal 1 => subst x); (on_goal 2 => (intro _; clear_value x))) | subst x)
    | (apply Keeps.step; with_reducible apply Dev.wr_keeps)
    | (apply Keeps.step; with_reducible apply Dev.put_keeps)
    | (apply Keeps.step; with_reducible apply Dev.setQp_keeps)
    | (apply Keeps.step; with_reducible apply Dev.markFenced_keeps)
    | (apply Keeps.step; with_reducible apply Dev.reject_keeps)
    | (apply Keeps.step; with_reducible apply Dev.ringBell_keeps)
    | (with_reducible apply Keeps.ite <;> intro _)
    | split
    | beta_reduce)

theorem execQpEnable_runs (t : Nat) (m : Master) (q : Fin 64) (s : State) :
    Runs ⟨false, [F.FAB_WRITE_ERR, F.FAB_WRITE_ERR_more, F.FAB_WRITE_DATA, F.FAB_WRITE_CNT, F.HI_QP_CTRL_enable, F.HI_QP_CTRL_status, F.HI_QP_STAT, F.HI_QP_FLAGS_phase, F.HI_QP_FLAGS_fenced, F.HI_QP_FLAGS_bad_bell, F.HI_QP_FLAGS_bell_err_cnt], [.hi, .flt]⟩ t s (execQpEnable t m q s) := by
  unfold execQpEnable fromMaster
  refine Runs.of fun d => ?_
  repeat' (first
    | with_reducible exact Keeps.refl _ _
    | decide +kernel
    | (apply Keeps.step; with_reducible apply Dev.enableQp_keeps)
    | (with_reducible apply Keeps.ite <;> intro _)
    | beta_reduce)

theorem Dev.disableQp_keeps (d : Dev) (q : Nat) : Keeps ⟨false, [F.SC_TM_STAT_last_status, F.SC_TM_CNT_refusals, F.SC_CH_STAT_last_status, F.SC_LV_STAT_last_status, F.SC_DR_STAT_last_status, F.HI_QP_CTRL_enable, F.HI_QP_CTRL_draining, F.HI_QP_STAT_sq_head, F.HI_QP_FLAGS_in_flight, F.CN_STAT_slots, F.FLT_STAT_lost, F.FLT_LOST], [.hi, .cn, .flt]⟩ d (Dev.disableQp d q) := by
  unfold Dev.disableQp
  repeat' (first
    | with_reducible exact Keeps.refl _ _
    | decide +kernel
    | (apply Keeps.step; with_reducible apply Dev.endPending_keeps)
    | (with_reducible apply Keeps.ite <;> intro _)
    | split)

theorem execQpDisable_runs (t : Nat) (q : Fin 64) (s : State) :
    Runs ⟨false, [F.SC_TM_STAT_last_status, F.SC_TM_CNT_refusals, F.SC_CH_STAT_last_status, F.SC_LV_STAT_last_status, F.SC_DR_STAT_last_status, F.HI_QP_CTRL_enable, F.HI_QP_CTRL_draining, F.HI_QP_STAT_sq_head, F.HI_QP_FLAGS_in_flight, F.CN_STAT_slots, F.FLT_STAT_lost, F.FLT_LOST], [.hi, .cn, .flt]⟩ t s (execQpDisable t q s) := by
  unfold execQpDisable
  refine Runs.of fun d => ?_
  repeat' (first
    | with_reducible exact Keeps.refl _ _
    | decide +kernel
    | (apply Keeps.step; with_reducible apply Dev.disableQp_keeps))

theorem Dev.linkReset_keeps (d : Dev) (hli dma : Bool) : Keeps ⟨false, [F.SC_TM_STAT_last_status, F.SC_TM_CNT_refusals, F.SC_CH_STAT_last_status, F.SC_LV_STAT_last_status, F.SC_DR_STAT_last_status, F.HI_LINK, F.HI_LINK_resets, F.HI_ERR, F.HI_QP_CTRL_enable, F.HI_QP_CTRL_draining, F.HI_QP_STAT_sq_head, F.HI_QP_FLAGS_in_flight, F.CN_STAT_slots, F.FLT_STAT_lost, F.FLT_LOST], [.hi, .cn, .flt]⟩ d (Dev.linkReset d hli dma) := by
  unfold Dev.linkReset
  repeat' (first
    | with_reducible exact Keeps.refl _ _
    | decide +kernel
    | (intro _ _ k; exact k.le)
    | with_reducible assumption
    | lift_lets
    | (intro x; first | (refine Keeps.cut (d0 := e) (d1 := x) ?_ ?_; (on_goal 1 => subst x); (on_goal 2 => (intro _; clear_value x))) | (refine Keeps.cut (d0 := d) (d1 := x) ?_ ?_; (on_goal 1 => subst x); (on_goal 2 => (intro _; clear_value x))) | subst x)
    | (apply Keeps.step; with_reducible apply Dev.withHi_keeps)
    | (apply Keeps.stepSame; with_reducible apply Dev.each_keeps; intro e _)
    | (apply Keeps.step; with_reducible apply Dev.wr_keeps)
    | (apply Keeps.step; with_reducible apply Dev.setQp_keeps)
    | (apply Keeps.step; with_reducible apply Dev.markFenced_keeps)
    | (apply Keeps.step; with_reducible apply Dev.endPending_keeps)
    | (with_reducible apply Keeps.ite <;> intro _)
    | split)

theorem execPerst_runs (t : Nat) (hli : Bool) (s : State) :
    Runs ⟨false, [F.SC_TM_STAT_last_status, F.SC_TM_CNT_refusals, F.SC_CH_STAT_last_status, F.SC_LV_STAT_last_status, F.SC_DR_STAT_last_status, F.HI_LINK, F.HI_LINK_resets, F.HI_ERR, F.HI_QP_CTRL_enable, F.HI_QP_CTRL_draining, F.HI_QP_STAT_sq_head, F.HI_QP_FLAGS_in_flight, F.CN_STAT_slots, F.FLT_STAT_lost, F.FLT_LOST], [.hi, .cn, .flt]⟩ t s (execPerst t hli s) := by
  unfold execPerst
  refine Runs.of fun d => ?_
  repeat' (first
    | with_reducible exact Keeps.refl _ _
    | decide +kernel
    | (apply Keeps.step; with_reducible apply Dev.linkReset_keeps))

theorem execHotReset_runs (t : Nat) (hli : Bool) (s : State) :
    Runs ⟨false, [F.SC_TM_STAT_last_status, F.SC_TM_CNT_refusals, F.SC_CH_STAT_last_status, F.SC_LV_STAT_last_status, F.SC_DR_STAT_last_status, F.HI_LINK, F.HI_LINK_resets, F.HI_ERR, F.HI_QP_CTRL_enable, F.HI_QP_CTRL_draining, F.HI_QP_STAT_sq_head, F.HI_QP_FLAGS_in_flight, F.CN_STAT_slots, F.FLT_STAT_lost, F.FLT_LOST], [.hi, .cn, .flt]⟩ t s (execHotReset t hli s) := by
  unfold execHotReset
  refine Runs.of fun d => ?_
  repeat' (first
    | with_reducible exact Keeps.refl _ _
    | decide +kernel
    | (apply Keeps.step; with_reducible apply Dev.linkReset_keeps))

theorem execFunctionLevelReset_runs (t : Nat) (hli : Bool) (s : State) :
    Runs ⟨false, [F.SC_TM_STAT_last_status, F.SC_TM_CNT_refusals, F.SC_CH_STAT_last_status, F.SC_LV_STAT_last_status, F.SC_DR_STAT_last_status, F.HI_LINK, F.HI_LINK_resets, F.HI_ERR, F.HI_QP_CTRL_enable, F.HI_QP_CTRL_draining, F.HI_QP_STAT_sq_head, F.HI_QP_FLAGS_in_flight, F.CN_STAT_slots, F.FLT_STAT_lost, F.FLT_LOST], [.hi, .cn, .flt]⟩ t s (execFunctionLevelReset t hli s) := by
  unfold execFunctionLevelReset
  refine Runs.of fun d => ?_
  repeat' (first
    | with_reducible exact Keeps.refl _ _
    | decide +kernel
    | (apply Keeps.step; with_reducible apply Dev.linkReset_keeps))

theorem Dev.onCan_keeps (d : Dev) (c : Nat) (f : CnT → CnT) : Keeps ⟨false, [], [.cn]⟩ d (Dev.onCan d c f) := by
  unfold Dev.onCan
  repeat' (first
    | with_reducible exact Keeps.refl _ _
    | decide +kernel
    | (apply Keeps.step; with_reducible apply Dev.setCan_keeps))

theorem Dev.writeRx_keeps (d : Dev) (c q : Nat) : Keeps ⟨false, [F.SC_TM_STAT_last_status, F.SC_TM_CNT_refusals, F.SC_CH_STAT_last_status, F.SC_LV_STAT_last_status, F.SC_DR_STAT_last_status, F.HI_QP_CTRL_draining, F.HI_QP_FLAGS_in_flight, F.CN_STAT_slots, F.FLT_STAT_lost, F.FLT_LOST], [.hi, .cn, .flt]⟩ d (Dev.writeRx d c q) := by
  unfold Dev.writeRx
  repeat' (first
    | with_reducible exact Keeps.refl _ _
    | with_reducible assumption
    | decide +kernel
    | (apply Keeps.step; with_reducible apply Dev.emit_keeps)
    | (apply Keeps.step; with_reducible apply Dev.onCan_keeps)
    | (apply Keeps.step; with_reducible apply Dev.onItem_keeps)
    | (apply Keeps.step; with_reducible apply Dev.finishMoved_keeps)
    | (with_reducible apply Keeps.ite <;> intro _)
    | split
    | dsimp only)

theorem Dev.hadTurn_keeps (d : Dev) (q : Nat) : Keeps ⟨false, [], [.hi]⟩ d (Dev.hadTurn d q) := by
  unfold Dev.hadTurn
  repeat' (first
    | with_reducible exact Keeps.refl _ _
    | decide +kernel
    | (apply Keeps.step; with_reducible apply Dev.withHi_keeps))

theorem execDescriptorFetch_runs (t : Nat) (s : State) :
    Runs ⟨false, [F.HI_QP_CTRL_draining, F.HI_QP_STAT_sq_head, F.HI_QP_FLAGS_in_flight], [.hi]⟩ t s (execDescriptorFetch t s) := by
  unfold execDescriptorFetch
  refine Runs.of fun d => ?_
  repeat' (first
    | with_reducible exact Keeps.refl _ _
    | decide +kernel
    | with_reducible assumption
    | lift_lets
    | (intro x; first | (refine Keeps.cut (d0 := d) (d1 := x) ?_ ?_; (on_goal 1 => subst x); (on_goal 2 => (intro _; clear_value x))) | subst x)
    | (apply Keeps.step; with_reducible apply Dev.wr_keeps)
    | (apply Keeps.step; with_reducible apply Dev.setQp_keeps)
    | (apply Keeps.step; with_reducible apply Dev.emit_keeps)
    | (apply Keeps.step; with_reducible apply Dev.showQp_keeps)
    | (apply Keeps.step; with_reducible apply Dev.hadTurn_keeps)
    | (with_reducible apply Keeps.ite <;> intro _)
    | split
    | beta_reduce)

theorem execDescriptorReceive_runs (t : Nat) (q : Fin 64) (i : Nat) (x : Descr) (s : State) :
    Runs ⟨false, [F.SC_TM_STAT_last_status, F.SC_TM_CNT_refusals, F.SC_CH_STAT_last_status, F.SC_LV_STAT_last_status, F.SC_DR_STAT_last_status, F.HI_QP_CTRL_draining, F.HI_QP_FLAGS_in_flight, F.CN_STAT_slots, F.FLT_STAT_lost, F.FLT_LOST], [.hi, .cn, .flt]⟩ t s (execDescriptorReceive t q i x s) := by
  unfold execDescriptorReceive
  refine Runs.of fun d => ?_
  repeat' (first
    | with_reducible exact Keeps.refl _ _
    | decide +kernel
    | with_reducible assumption
    | lift_lets
    | (intro x; first | (refine Keeps.cut (d0 := d) (d1 := x) ?_ ?_; (on_goal 1 => subst x); (on_goal 2 => (intro _; clear_value x))) | subst x)
    | (apply Keeps.step; with_reducible apply Dev.setQp_keeps)
    | (apply Keeps.step; with_reducible apply Dev.onItem_keeps)
    | (apply Keeps.step; with_reducible apply Dev.showQp_keeps)
    | (apply Keeps.step; with_reducible apply Dev.finish_keeps)
    | (with_reducible apply Keeps.ite <;> intro _)
    | split
    | beta_reduce)

theorem execCompletionWrite_runs (t : Nat) (q : Fin 64) (s : State) :
    Runs ⟨false, [F.HI_QP_CTRL_draining, F.HI_QP_STAT_cq_tail, F.HI_QP_FLAGS_phase, F.HI_QP_FLAGS_in_flight], [.hi]⟩ t s (execCompletionWrite t q s) := by
  unfold execCompletionWrite
  refine Runs.of fun d => ?_
  repeat' (first
    | with_reducible exact Keeps.refl _ _
    | decide +kernel
    | with_reducible assumption
    | lift_lets
    | (intro x; first | (refine Keeps.cut (d0 := d) (d1 := x) ?_ ?_; (on_goal 1 => subst x); (on_goal 2 => (intro _; clear_value x))) | subst x)
    | (apply Keeps.step; with_reducible apply Dev.wr_keeps)
    | (apply Keeps.step; with_reducible apply Dev.put_keeps)
    | (apply Keeps.step; with_reducible apply Dev.setQp_keeps)
    | (apply Keeps.step; with_reducible apply Dev.emit_keeps)
    | (apply Keeps.step; with_reducible apply Dev.showQp_keeps)
    | (apply Keeps.step; with_reducible apply Dev.moderate_keeps)
    | (with_reducible apply Keeps.ite <;> intro _)
    | split
    | beta_reduce)

theorem execModerationTimeout_runs (t : Nat) (q : Fin 64) (s : State) :
    Runs ⟨false, [], [.hi]⟩ t s (execModerationTimeout t q s) := by
  unfold execModerationTimeout
  refine Runs.of fun d => ?_
  repeat' (first
    | with_reducible exact Keeps.refl _ _
    | decide +kernel
    | with_reducible assumption
    | lift_lets
    | (intro x; first | (refine Keeps.cut (d0 := d) (d1 := x) ?_ ?_; (on_goal 1 => subst x); (on_goal 2 => (intro _; clear_value x))) | subst x)
    | (apply Keeps.step; with_reducible apply Dev.signal_keeps)
    | (with_reducible apply Keeps.ite <;> intro _)
    | split)

theorem Dev.deadlineOwner_keeps (d : Dev) (q i : Nat) (x : Descr) : Keeps ⟨false, [F.TB_STG_RUN_run, F.TB_STG_STAT_running, F.PG_STAT_out_high, F.PG_STAT_out_low, F.SC_TM_STAT_state, F.SC_TM_STAT_active, F.SC_TM_STAT_last_status, F.SC_TM_CNT_refusals, F.SC_CH_STAT_state, F.SC_CH_STAT_active, F.SC_CH_STAT_last_status, F.SC_LV_STAT_state, F.SC_LV_STAT_active, F.SC_LV_STAT_last_status, F.SC_DR_STAT_state, F.SC_DR_STAT_last_status, F.SC_ABS_LEFT_left, F.SC_ABS_LEFT_awaiting, F.HI_QP_CTRL_draining, F.HI_QP_FLAGS_in_flight, F.CN_STAT_slots, F.FLT_STAT_lost, F.FLT_LOST], [.tb, .pp, .be, .tm, .ch, .dr, .sc, .hi, .cn, .flt]⟩ d (Dev.deadlineOwner d q i x) := by
  unfold Dev.deadlineOwner
  repeat' (first
    | with_reducible exact Keeps.refl _ _
    | decide +kernel
    | with_reducible assumption
    | lift_lets
    | (intro x; first | (refine Keeps.cut (d0 := d) (d1 := x) ?_ ?_; (on_goal 1 => subst x); (on_goal 2 => (intro _; clear_value x))) | subst x)
    | (apply Keeps.step; with_reducible apply Dev.finish_keeps)
    | (apply Keeps.step; with_reducible apply Dev.onTm_keeps)
    | (apply Keeps.step; with_reducible apply Dev.tmStop_keeps)
    | (apply Keeps.step; with_reducible apply Dev.onCh_keeps)
    | (apply Keeps.step; with_reducible apply Dev.chStop_keeps)
    | (apply Keeps.step; with_reducible apply Dev.lvStop_keeps)
    | (apply Keeps.step; with_reducible apply Dev.onDr_keeps)
    | (apply Keeps.step; with_reducible apply Dev.drStop_keeps)
    | (with_reducible apply Keeps.ite <;> intro _)
    | split)

theorem execDescriptorDeadline_runs (t : Nat) (q : Fin 64) (i : Nat) (sending : Bool) (s : State) :
    Runs ⟨false, [F.TB_STG_RUN_run, F.TB_STG_STAT_running, F.PG_STAT_out_high, F.PG_STAT_out_low, F.SC_TM_STAT_state, F.SC_TM_STAT_active, F.SC_TM_STAT_last_status, F.SC_TM_CNT_refusals, F.SC_CH_STAT_state, F.SC_CH_STAT_active, F.SC_CH_STAT_last_status, F.SC_LV_STAT_state, F.SC_LV_STAT_active, F.SC_LV_STAT_last_status, F.SC_DR_STAT_state, F.SC_DR_STAT_last_status, F.SC_VQ_STAT, F.SC_VQ_SRC_queue_pair, F.SC_VQ_ARRIVE_LO, F.SC_VQ_ARRIVE_HI, F.SC_VQ_DESC, F.SC_VAL_CNT_expired, F.SC_ABS_LEFT_left, F.SC_ABS_LEFT_awaiting, F.HI_QP_CTRL_draining, F.HI_QP_FLAGS_in_flight, F.CN_STAT_slots, F.FLT_STAT_lost, F.FLT_LOST], [.tb, .pp, .be, .tm, .ch, .dr, .sc, .hi, .cn, .flt]⟩ t s (execDescriptorDeadline t q i sending s) := by
  unfold execDescriptorDeadline
  refine Runs.of fun d => ?_
  repeat' (first
    | with_reducible exact Keeps.refl _ _
    | decide +kernel
    | (apply Keeps.step; with_reducible apply Dev.onItem_keeps)
    | (apply Keeps.step; with_reducible apply Dev.finish_keeps)
    | (apply Keeps.step; with_reducible apply Dev.vqExpire_keeps)
    | (apply Keeps.step; with_reducible apply Dev.deadlineOwner_keeps)
    | (with_reducible apply Keeps.ite <;> intro _)
    | split)

theorem execHostError_runs (t : Nat) (q : Fin 64) (k : Fin 3) (s : State) :
    Runs ⟨false, [F.SC_TM_STAT_last_status, F.SC_TM_CNT_refusals, F.SC_CH_STAT_last_status, F.SC_LV_STAT_last_status, F.SC_DR_STAT_last_status, F.HI_ERR_ur_ca, F.HI_ERR_poisoned, F.HI_ERR_timeout, F.HI_ERR_count, F.HI_QP_CTRL_enable, F.HI_QP_CTRL_status, F.HI_QP_CTRL_draining, F.HI_QP_STAT_sq_head, F.HI_QP_FLAGS_fenced, F.HI_QP_FLAGS_in_flight, F.CN_STAT_slots, F.FLT_STAT_lost, F.FLT_LOST], [.hi, .cn, .flt]⟩ t s (execHostError t q k s) := by
  unfold execHostError
  refine Runs.of fun d => ?_
  repeat' (first
    | with_reducible exact Keeps.refl _ _
    | decide +kernel
    | with_reducible assumption
    | ((repeat' split) <;> decide +kernel)
    | lift_lets
    | (intro x; first | (refine Keeps.cut (d0 := d) (d1 := x) ?_ ?_; (on_goal 1 => subst x); (on_goal 2 => (intro _; clear_value x))) | subst x)
    | (apply Keeps.step; with_reducible apply Dev.put_keeps)
    | (apply Keeps.step; with_reducible apply Dev.bump_keeps)
    | (apply Keeps.step; with_reducible apply Dev.emit_keeps)
    | (apply Keeps.step; with_reducible apply Dev.fenceQp_keeps)
    | (with_reducible apply Keeps.ite <;> intro _)
    | split)

theorem execNop_runs (t : Nat) (q : Fin 64) (i : Nat) (s : State) :
    Runs ⟨false, [F.SC_TM_STAT_last_status, F.SC_TM_CNT_refusals, F.SC_CH_STAT_last_status, F.SC_LV_STAT_last_status, F.SC_DR_STAT_last_status, F.HI_QP_CTRL_draining, F.HI_QP_FLAGS_in_flight, F.CN_STAT_slots, F.FLT_STAT_lost, F.FLT_LOST], [.hi, .cn, .flt]⟩ t s (execNop t q i s) := by
  unfold execNop
  refine Runs.of fun d => ?_
  repeat' (first
    | with_reducible exact Keeps.refl _ _
    | decide +kernel
    | (intro _ _ k; exact k.le)
    | (apply Keeps.step; with_reducible apply Dev.finish_keeps)
    | (apply Keeps.stepSame; with_reducible apply Dev.startItem_keeps; intro e _))

theorem execFence_runs (t : Nat) (q : Fin 64) (i : Nat) (s : State) :
    Runs ⟨false, [F.SC_TM_STAT_last_status, F.SC_TM_CNT_refusals, F.SC_CH_STAT_last_status, F.SC_LV_STAT_last_status, F.SC_DR_STAT_last_status, F.HI_QP_CTRL_draining, F.HI_QP_FLAGS_in_flight, F.CN_STAT_slots, F.FLT_STAT_lost, F.FLT_LOST], [.hi, .cn, .flt]⟩ t s (execFence t q i s) := by
  unfold execFence
  refine Runs.of fun d => ?_
  repeat' (first
    | with_reducible exact Keeps.refl _ _
    | decide +kernel
    | (intro _ _ k; exact k.le)
    | with_reducible assumption
    | lift_lets
    | (intro x; first | (refine Keeps.cut (d0 := e) (d1 := x) ?_ ?_; (on_goal 1 => subst x); (on_goal 2 => (intro _; clear_value x))) | (refine Keeps.cut (d0 := d) (d1 := x) ?_ ?_; (on_goal 1 => subst x); (on_goal 2 => (intro _; clear_value x))) | subst x)
    | (apply Keeps.step; with_reducible apply Dev.onItem_keeps)
    | (apply Keeps.stepSame; with_reducible apply Dev.startItem_keeps; intro e _)
    | (with_reducible apply Keeps.ite <;> intro _)
    | split)

theorem execFenceComplete_runs (t : Nat) (q : Fin 64) (i : Nat) (s : State) :
    Runs ⟨false, [F.SC_TM_STAT_last_status, F.SC_TM_CNT_refusals, F.SC_CH_STAT_last_status, F.SC_LV_STAT_last_status, F.SC_DR_STAT_last_status, F.HI_QP_CTRL_draining, F.HI_QP_FLAGS_in_flight, F.CN_STAT_slots, F.FLT_STAT_lost, F.FLT_LOST], [.hi, .cn, .flt]⟩ t s (execFenceComplete t q i s) := by
  unfold execFenceComplete
  refine Runs.of fun d => ?_
  repeat' (first
    | with_reducible exact Keeps.refl _ _
    | decide +kernel
    | (apply Keeps.step; with_reducible apply Dev.finish_keeps)
    | (with_reducible apply Keeps.ite <;> intro _)
    | split)

theorem Dev.beginTransfer_keeps (d : Dev) (q i op : Nat) : Keeps ⟨false, [F.SC_TM_STAT_last_status, F.SC_TM_CNT_refusals, F.SC_CH_STAT_last_status, F.SC_LV_STAT_last_status, F.SC_DR_STAT_last_status, F.HI_QP_CTRL_draining, F.HI_QP_FLAGS_in_flight, F.CN_STAT_slots, F.FLT_STAT_lost, F.FLT_LOST], [.hi, .cn, .flt]⟩ d (Dev.beginTransfer d q i op) := by
  unfold Dev.beginTransfer
  repeat' (first
    | with_reducible exact Keeps.refl _ _
    | decide +kernel
    | (intro _ _ k; exact k.le)
    | (apply Keeps.step; with_reducible apply Dev.finish_keeps)
    | (apply Keeps.stepSame; with_reducible apply Dev.startItem_keeps; intro e _)
    | (with_reducible apply Keeps.ite <;> intro _)
    | split)

theorem Dev.storeByte_keeps (d : Dev) (a : Nat) (b : Byte) (left : Nat) (first : Option Upset) : Keeps ⟨false, [F.MB_BANK_STAT_ue, F.MB_BANK_STAT_ce_cnt, F.MB_BANK_STAT_ue_cnt, F.MB_UE_ADDR, F.FLT_STAT_lost, F.FLT_LOST], [.mb, .flt]⟩ d (Dev.storeByte d a b left first) := by
  unfold Dev.storeByte
  repeat' (first
    | with_reducible exact Keeps.refl _ _
    | decide +kernel
    | with_reducible assumption
    | lift_lets
    | (intro x; first | (refine Keeps.cut (d0 := d) (d1 := x) ?_ ?_; (on_goal 1 => subst x); (on_goal 2 => (intro _; clear_value x))) | subst x)
    | (apply Keeps.step; with_reducible apply Dev.setBankByte_keeps)
    | (apply Keeps.step; with_reducible apply Dev.setBankFlips_keeps)
    | (apply Keeps.step; with_reducible apply Dev.bankCheck_keeps)
    | (apply Keeps.step; with_reducible apply Dev.bankServed_keeps)
    | (with_reducible apply Keeps.ite <;> intro _)
    | split)

theorem Dev.storeBytes_keeps (d : Dev) (q i a : Nat) (first : Option Upset) (l : List Byte) : Keeps ⟨false, [F.SC_TM_STAT_last_status, F.SC_TM_CNT_refusals, F.SC_CH_STAT_last_status, F.SC_LV_STAT_last_status, F.SC_DR_STAT_last_status, F.MB_BANK_STAT_ue, F.MB_BANK_STAT_nonowner_wr, F.MB_BANK_STAT_ce_cnt, F.MB_BANK_STAT_ue_cnt, F.MB_BANK_STAT_nonowner_cnt, F.MB_UE_ADDR, F.HI_QP_CTRL_draining, F.HI_QP_FLAGS_in_flight, F.CN_STAT_slots, F.FLT_STAT_lost, F.FLT_LOST], [.mb, .hi, .cn, .flt]⟩ d (Dev.storeBytes d q i a first l) := by
  induction l generalizing d a first with
  | nil => unfold Dev.storeBytes; exact Keeps.refl _ _
  | cons b bs ih =>
    unfold Dev.storeBytes
    dsimp only
    repeat' (first
      | with_reducible exact Keeps.refl _ _
      | with_reducible assumption
      | decide +kernel
      | (apply Keeps.step; exact ih _ _ _)
      | (apply Keeps.step; with_reducible apply Dev.onItem_keeps)
      | (apply Keeps.step; with_reducible apply Dev.storeByte_keeps)
      | (apply Keeps.step; with_reducible apply Dev.finishMoved_keeps)
      | (apply Keeps.step; with_reducible apply Dev.bankRefuse_keeps)
      | (apply Keeps.step; with_reducible apply Dev.bankServed_keeps)
      | (with_reducible apply Keeps.ite <;> intro _)
      | split)

theorem Dev.writeNext_keeps (d : Dev) (q i : Nat) (data : MemBytes) : Keeps ⟨false, [F.SC_TM_STAT_last_status, F.SC_TM_CNT_refusals, F.SC_CH_STAT_last_status, F.SC_LV_STAT_last_status, F.SC_DR_STAT_last_status, F.MB_BANK_STAT_ue, F.MB_BANK_STAT_nonowner_wr, F.MB_BANK_STAT_ce_cnt, F.MB_BANK_STAT_ue_cnt, F.MB_BANK_STAT_nonowner_cnt, F.MB_UE_ADDR, F.MB_CONF_waits, F.MB_CONF_max_wait, F.HI_QP_CTRL_draining, F.HI_QP_FLAGS_in_flight, F.CN_STAT_slots, F.FLT_STAT_lost, F.FLT_LOST], [.mb, .hi, .cn, .flt]⟩ d (Dev.writeNext d q i data) := by
  unfold Dev.writeNext
  repeat' (first
    | with_reducible exact Keeps.refl _ _
    | decide +kernel
    | with_reducible assumption
    | lift_lets
    | (intro x; first | (refine Keeps.cut (d0 := d) (d1 := x) ?_ ?_; (on_goal 1 => subst x); (on_goal 2 => (intro _; clear_value x))) | subst x)
    | (apply Keeps.step; with_reducible apply Dev.bankWait_keeps)
    | (apply Keeps.step; with_reducible apply Dev.storeBytes_keeps)
    | (with_reducible apply Keeps.ite <;> intro _)
    | split
    | beta_reduce)

theorem execMemWrite_runs (t : Nat) (q : Fin 64) (i : Nat) (data : MemBytes) (s : State) :
    Runs ⟨false, [F.SC_TM_STAT_last_status, F.SC_TM_CNT_refusals, F.SC_CH_STAT_last_status, F.SC_LV_STAT_last_status, F.SC_DR_STAT_last_status, F.MB_BANK_STAT_ue, F.MB_BANK_STAT_nonowner_wr, F.MB_BANK_STAT_ce_cnt, F.MB_BANK_STAT_ue_cnt, F.MB_BANK_STAT_nonowner_cnt, F.MB_UE_ADDR, F.MB_CONF_waits, F.MB_CONF_max_wait, F.HI_QP_CTRL_draining, F.HI_QP_FLAGS_in_flight, F.CN_STAT_slots, F.FLT_STAT_lost, F.FLT_LOST], [.mb, .hi, .cn, .flt]⟩ t s (execMemWrite t q i data s) := by
  unfold execMemWrite
  refine Runs.of fun d => ?_
  repeat' (first
    | with_reducible exact Keeps.refl _ _
    | decide +kernel
    | (apply Keeps.step; with_reducible apply Dev.beginTransfer_keeps)
    | (apply Keeps.step; with_reducible apply Dev.writeNext_keeps))

theorem Dev.sendBytes_keeps (d : Dev) (q i n : Nat) (it : Item) (x : Descr) (u : Upset) : Keeps ⟨false, [F.SC_TM_STAT_last_status, F.SC_TM_CNT_refusals, F.SC_CH_STAT_last_status, F.SC_LV_STAT_last_status, F.SC_DR_STAT_last_status, F.MB_BANK_STAT_ue, F.MB_BANK_STAT_ce_cnt, F.MB_BANK_STAT_ue_cnt, F.MB_UE_ADDR, F.HI_QP_CTRL_draining, F.HI_QP_FLAGS_in_flight, F.CN_STAT_slots, F.FLT_STAT_lost, F.FLT_LOST], [.mb, .hi, .cn, .flt]⟩ d (Dev.sendBytes d q i n it x u) := by
  unfold Dev.sendBytes
  repeat' (first
    | with_reducible exact Keeps.refl _ _
    | decide +kernel
    | (intro _ _ k; exact k.le)
    | with_reducible assumption
    | lift_lets
    | (intro x; first | (refine Keeps.cut (d0 := e) (d1 := x) ?_ ?_; (on_goal 1 => subst x); (on_goal 2 => (intro _; clear_value x))) | (refine Keeps.cut (d0 := d) (d1 := x) ?_ ?_; (on_goal 1 => subst x); (on_goal 2 => (intro _; clear_value x))) | subst x)
    | (apply Keeps.stepSame; with_reducible apply Dev.each_keeps; intro e _)
    | (apply Keeps.step; with_reducible apply Dev.emit_keeps)
    | (apply Keeps.step; with_reducible apply Dev.onItem_keeps)
    | (apply Keeps.step; with_reducible apply Dev.bankCheck_keeps)
    | (apply Keeps.step; with_reducible apply Dev.bankServed_keeps)
    | (apply Keeps.step; with_reducible apply Dev.finishMoved_keeps)
    | (with_reducible apply Keeps.ite <;> intro _)
    | split)

theorem Dev.readNext_keeps (d : Dev) (q i n : Nat) (w : BankWait) : Keeps ⟨false, [F.SC_TM_STAT_last_status, F.SC_TM_CNT_refusals, F.SC_CH_STAT_last_status, F.SC_LV_STAT_last_status, F.SC_DR_STAT_last_status, F.MB_BANK_STAT_ue, F.MB_BANK_STAT_ce_cnt, F.MB_BANK_STAT_ue_cnt, F.MB_UE_ADDR, F.MB_CONF_waits, F.MB_CONF_max_wait, F.HI_QP_CTRL_draining, F.HI_QP_FLAGS_in_flight, F.CN_STAT_slots, F.FLT_STAT_lost, F.FLT_LOST], [.mb, .hi, .cn, .flt]⟩ d (Dev.readNext d q i n w) := by
  unfold Dev.readNext
  repeat' (first
    | with_reducible exact Keeps.refl _ _
    | decide +kernel
    | (apply Keeps.step; with_reducible apply Dev.bankWait_keeps)
    | (apply Keeps.step; with_reducible apply Dev.sendBytes_keeps)
    | (with_reducible apply Keeps.ite <;> intro _)
    | split)

theorem execMemRead_runs (t : Nat) (q : Fin 64) (i n : Nat) (w : BankWait) (s : State) :
    Runs ⟨false, [F.SC_TM_STAT_last_status, F.SC_TM_CNT_refusals, F.SC_CH_STAT_last_status, F.SC_LV_STAT_last_status, F.SC_DR_STAT_last_status, F.MB_BANK_STAT_ue, F.MB_BANK_STAT_ce_cnt, F.MB_BANK_STAT_ue_cnt, F.MB_UE_ADDR, F.MB_CONF_waits, F.MB_CONF_max_wait, F.HI_QP_CTRL_draining, F.HI_QP_FLAGS_in_flight, F.CN_STAT_slots, F.FLT_STAT_lost, F.FLT_LOST], [.mb, .hi, .cn, .flt]⟩ t s (execMemRead t q i n w s) := by
  unfold execMemRead
  refine Runs.of fun d => ?_
  repeat' (first
    | with_reducible exact Keeps.refl _ _
    | decide +kernel
    | (apply Keeps.step; with_reducible apply Dev.beginTransfer_keeps)
    | (apply Keeps.step; with_reducible apply Dev.readNext_keeps))

theorem execDataTransferDone_runs (t : Nat) (q : Fin 64) (i : Nat) (s : State) :
    Runs ⟨false, [F.SC_TM_STAT_last_status, F.SC_TM_CNT_refusals, F.SC_CH_STAT_last_status, F.SC_LV_STAT_last_status, F.SC_DR_STAT_last_status, F.HI_QP_CTRL_draining, F.HI_QP_FLAGS_in_flight, F.CN_STAT_slots, F.FLT_STAT_lost, F.FLT_LOST], [.hi, .cn, .flt]⟩ t s (execDataTransferDone t q i s) := by
  unfold execDataTransferDone
  refine Runs.of fun d => ?_
  repeat' (first
    | with_reducible exact Keeps.refl _ _
    | decide +kernel
    | (apply Keeps.step; with_reducible apply Dev.finishMoved_keeps)
    | (with_reducible apply Keeps.ite <;> intro _)
    | split)

theorem Dev.windowClosed_keeps (d : Dev) (w : Nat) : Keeps ⟨false, [F.SC_TM_STAT_last_status, F.SC_TM_CNT_refusals, F.SC_CH_STAT_last_status, F.SC_LV_STAT_last_status, F.SC_DR_STAT_last_status, F.HI_QP_CTRL_draining, F.HI_QP_FLAGS_in_flight, F.CN_STAT_slots, F.FLT_STAT_lost, F.FLT_LOST], [.hi, .cn, .flt]⟩ d (Dev.windowClosed d w) := by
  unfold Dev.windowClosed
  repeat' (first
    | with_reducible exact Keeps.refl _ _
    | decide +kernel
    | (intro _ _ k; exact k.le)
    | (apply Keeps.stepSame; with_reducible apply Dev.each_keeps; intro e _)
    | (apply Keeps.step; with_reducible apply Dev.finishMoved_keeps)
    | (apply Keeps.stepSame; with_reducible apply Dev.foldl_keeps; intro e _)
    | (with_reducible apply Keeps.ite <;> intro _)
    | split)

theorem execStreamBuf_runs (t : Nat) (q : Fin 64) (i : Nat) (s : State) :
    Runs ⟨false, [F.SC_TM_STAT_last_status, F.SC_TM_CNT_refusals, F.SC_CH_STAT_last_status, F.SC_LV_STAT_last_status, F.SC_DR_STAT_last_status, F.HI_QP_CTRL_draining, F.HI_QP_FLAGS_in_flight, F.CN_STAT_slots, F.FLT_STAT_lost, F.FLT_LOST], [.hi, .cn, .flt]⟩ t s (execStreamBuf t q i s) := by
  unfold execStreamBuf
  refine Runs.of fun d => ?_
  repeat' (first
    | with_reducible exact Keeps.refl _ _
    | decide +kernel
    | (intro _ _ k; exact k.le)
    | (apply Keeps.stepSame; with_reducible apply Dev.startItem_keeps; intro e _))

theorem Dev.dropRecord_keeps (d : Dev) (q : Nat) : Keeps ⟨false, [F.HI_QP_FLAGS_lost, F.HI_QP_SEQ_LO, F.HI_QP_SEQ_HI, F.HI_QP_LOST], [.hi]⟩ d (Dev.dropRecord d q) := by
  unfold Dev.dropRecord
  repeat' (first
    | with_reducible exact Keeps.refl _ _
    | decide +kernel
    | with_reducible assumption
    | lift_lets
    | (intro x; first | (refine Keeps.cut (d0 := d) (d1 := x) ?_ ?_; (on_goal 1 => subst x); (on_goal 2 => (intro _; clear_value x))) | subst x)
    | (apply Keeps.step; with_reducible apply Dev.put_keeps)
    | (apply Keeps.step; with_reducible apply Dev.bump_keeps)
    | (apply Keeps.step; with_reducible apply Dev.wr64_keeps)
    | (apply Keeps.step; with_reducible apply Dev.setQp_keeps)
    | (with_reducible apply Keeps.ite <;> intro _)
    | split
    | beta_reduce)

theorem Dev.takeRecord_keeps (d : Dev) (q : Nat) (r : StreamRec) : Keeps ⟨false, [F.HI_QP_FLAGS_lost, F.HI_QP_SEQ_LO, F.HI_QP_SEQ_HI, F.HI_QP_LOST], [.hi]⟩ d (Dev.takeRecord d q r) := by
  unfold Dev.takeRecord
  repeat' (first
    | with_reducible exact Keeps.refl _ _
    | decide +kernel
    | with_reducible assumption
    | lift_lets
    | (intro x; first | (refine Keeps.cut (d0 := d) (d1 := x) ?_ ?_; (on_goal 1 => subst x); (on_goal 2 => (intro _; clear_value x))) | subst x)
    | (apply Keeps.step; with_reducible apply Dev.wr64_keeps)
    | (apply Keeps.step; with_reducible apply Dev.setQp_keeps)
    | (apply Keeps.step; with_reducible apply Dev.dropRecord_keeps)
    | (with_reducible apply Keeps.ite <;> intro _)
    | split)

theorem Dev.nextRecord_keeps (d : Dev) (q : Nat) : Keeps ⟨false, [], [.be, .hi]⟩ d (Dev.nextRecord d q).2 := by
  unfold Dev.nextRecord
  split
  · exact (Dev.withHi_keeps ..).le
  · split
    · exact (Dev.withBe_keeps ..).le
    · exact Keeps.refl _ d

theorem Dev.writeHeld_keeps (d : Dev) (q : Nat) : Keeps ⟨false, [F.SC_TM_STAT_last_status, F.SC_TM_CNT_refusals, F.SC_CH_STAT_last_status, F.SC_LV_STAT_last_status, F.SC_DR_STAT_last_status, F.HI_QP_CTRL_draining, F.HI_QP_FLAGS_in_flight, F.CN_STAT_slots, F.FLT_STAT_lost, F.FLT_LOST], [.hi, .cn, .flt]⟩ d (Dev.writeHeld d q) := by
  unfold Dev.writeHeld
  repeat' (first
    | with_reducible exact Keeps.refl _ _
    | with_reducible assumption
    | decide +kernel
    | (apply Keeps.step; with_reducible apply Dev.emit_keeps)
    | (apply Keeps.step; with_reducible apply Dev.setQp_keeps)
    | (apply Keeps.step; with_reducible apply Dev.onItem_keeps)
    | (apply Keeps.step; with_reducible apply Dev.finishMoved_keeps)
    | (with_reducible apply Keeps.ite <;> intro _)
    | split
    | dsimp only)

theorem execRecordWrite_runs (t : Nat) (q : Fin 64) (s : State) :
    Runs ⟨false, [F.SC_TM_STAT_last_status, F.SC_TM_CNT_refusals, F.SC_CH_STAT_last_status, F.SC_LV_STAT_last_status, F.SC_DR_STAT_last_status, F.HI_QP_CTRL_draining, F.HI_QP_FLAGS_lost, F.HI_QP_FLAGS_in_flight, F.HI_QP_SEQ_LO, F.HI_QP_SEQ_HI, F.HI_QP_LOST, F.CN_STAT_slots, F.FLT_STAT_lost, F.FLT_LOST], [.be, .hi, .cn, .flt]⟩ t s (execRecordWrite t q s) := by
  unfold execRecordWrite
  refine Runs.of fun d => ?_
  repeat' (first
    | with_reducible exact Keeps.refl _ _
    | decide +kernel
    | with_reducible assumption
    | lift_lets
    | (intro x; first | (refine Keeps.cut (d0 := d) (d1 := x) ?_ ?_; (on_goal 1 => subst x); (on_goal 2 => (intro _; clear_value x))) | subst x)
    | (apply Keeps.step; with_reducible apply Dev.writeRx_keeps)
    | (apply Keeps.step; with_reducible apply Dev.hadTurn_keeps)
    | (apply Keeps.step; with_reducible apply Dev.takeRecord_keeps)
    | (apply Keeps.step; with_reducible apply Dev.nextRecord_keeps)
    | (apply Keeps.step; with_reducible apply Dev.writeHeld_keeps)
    | (with_reducible apply Keeps.ite <;> intro _)
    | split
    | beta_reduce)

theorem execBufferFlush_runs (t : Nat) (q : Fin 64) (s : State) :
    Runs ⟨false, [F.SC_TM_STAT_last_status, F.SC_TM_CNT_refusals, F.SC_CH_STAT_last_status, F.SC_LV_STAT_last_status, F.SC_DR_STAT_last_status, F.HI_QP_CTRL_draining, F.HI_QP_FLAGS_in_flight, F.CN_STAT_slots, F.FLT_STAT_lost, F.FLT_LOST], [.hi, .cn, .flt]⟩ t s (execBufferFlush t q s) := by
  unfold execBufferFlush
  refine Runs.of fun d => ?_
  repeat' (first
    | with_reducible exact Keeps.refl _ _
    | decide +kernel
    | (apply Keeps.step; with_reducible apply Dev.finishMoved_keeps)
    | (with_reducible apply Keeps.ite <;> intro _)
    | split)

end Sys2Proof.Machine
end

