-- ==== Sys2Proof/Laws/KeepsTimebase.lean ====
section
/-! SUPPORT. What the effects of Timebase.lean keep. -/

namespace Sys2Proof.Machine

set_option Elab.async false

theorem Dev.setOffset_keeps (d : Dev) (g : Int) : Keeps ⟨false, [F.TB_GT_OFFSET_LO, F.TB_GT_OFFSET_HI], []⟩ d (Dev.setOffset d g) := by
  unfold Dev.setOffset
  repeat' (first
    | with_reducible exact Keeps.refl _ _
    | decide +kernel
    | (apply Keeps.step; with_reducible apply Dev.wr64_keeps))

theorem Dev.captureOffset_keeps (d : Dev) (gt : Nat) : Keeps ⟨false, [F.TB_GT_STAT_state, F.TB_GT_OFFSET_LO, F.TB_GT_OFFSET_HI, F.TB_GT_ERR], [.tb]⟩ d (Dev.captureOffset d gt) := by
  unfold Dev.captureOffset
  repeat' (first
    | with_reducible exact Keeps.refl _ _
    | decide +kernel
    | (apply Keeps.step; with_reducible apply Dev.withTb_keeps)
    | (apply Keeps.step; with_reducible apply Dev.wr_keeps)
    | (apply Keeps.step; with_reducible apply Dev.setOffset_keeps))

theorem Dev.setRate_keeps (d : Dev) (r : Int) : Keeps ⟨false, [F.TB_RATE], []⟩ d (Dev.setRate d r) := by
  unfold Dev.setRate
  repeat' (first
    | with_reducible exact Keeps.refl _ _
    | decide +kernel
    | with_reducible assumption
    | lift_lets
    | (intro x; first | (refine Keeps.cut (d0 := d) (d1 := x) ?_ ?_; (on_goal 1 => subst x); (on_goal 2 => (intro _; clear_value x))) | subst x)
    | (apply Keeps.step; with_reducible apply Dev.wrInt_keeps))

theorem Dev.slew_keeps (d : Dev) (e : Int) : Keeps ⟨false, [F.TB_RATE], []⟩ d (Dev.slew d e) := by
  unfold Dev.slew
  repeat' (first
    | with_reducible exact Keeps.refl _ _
    | decide +kernel
    | (apply Keeps.step; with_reducible apply Dev.setRate_keeps))

theorem Dev.gtReference_keeps (d : Dev) (gt : Nat) : Keeps ⟨false, [F.TB_GT_STAT_state, F.TB_GT_STAT_jump, F.TB_GT_ERR, F.TB_RATE], [.tb]⟩ d (Dev.gtReference d gt) := by
  unfold Dev.gtReference
  repeat' (first
    | with_reducible exact Keeps.refl _ _
    | decide +kernel
    | with_reducible assumption
    | lift_lets
    | (intro x; first | (refine Keeps.cut (d0 := d) (d1 := x) ?_ ?_; (on_goal 1 => subst x); (on_goal 2 => (intro _; clear_value x))) | subst x)
    | (apply Keeps.step; with_reducible apply Dev.withTb_keeps)
    | (apply Keeps.step; with_reducible apply Dev.wr_keeps)
    | (apply Keeps.step; with_reducible apply Dev.put_keeps)
    | (apply Keeps.step; with_reducible apply Dev.wrInt_keeps)
    | (apply Keeps.step; with_reducible apply Dev.slew_keeps)
    | (with_reducible apply Keeps.ite <;> intro _)
    | split)

theorem Dev.gtValidity_keeps (d : Dev) (v : Bool) : Keeps ⟨false, [F.TB_GT_STAT_state, F.TB_GT_STAT_gt_valid], []⟩ d (Dev.gtValidity d v) := by
  unfold Dev.gtValidity
  repeat' (first
    | with_reducible exact Keeps.refl _ _
    | decide +kernel
    | with_reducible assumption
    | lift_lets
    | (intro x; first | (refine Keeps.cut (d0 := d) (d1 := x) ?_ ?_; (on_goal 1 => subst x); (on_goal 2 => (intro _; clear_value x))) | subst x)
    | (apply Keeps.step; with_reducible apply Dev.wr_keeps)
    | (apply Keeps.step; with_reducible apply Dev.put_keeps)
    | (with_reducible apply Keeps.ite <;> intro _)
    | split)

theorem Dev.newStepLimit_keeps (d : Dev) : Keeps ⟨false, [F.TB_GT_STAT_state, F.TB_GT_STAT_jump], [.tb]⟩ d (Dev.newStepLimit d) := by
  unfold Dev.newStepLimit
  repeat' (first
    | with_reducible exact Keeps.refl _ _
    | decide +kernel
    | with_reducible assumption
    | lift_lets
    | (intro x; first | (refine Keeps.cut (d0 := d) (d1 := x) ?_ ?_; (on_goal 1 => subst x); (on_goal 2 => (intro _; clear_value x))) | subst x)
    | (apply Keeps.step; with_reducible apply Dev.withTb_keeps)
    | (apply Keeps.step; with_reducible apply Dev.wr_keeps)
    | (apply Keeps.step; with_reducible apply Dev.put_keeps)
    | (with_reducible apply Keeps.ite <;> intro _)
    | split)

theorem Dev.syncWritten_keeps (d : Dev) : Keeps ⟨false, [F.TB_GT_STAT_state, F.TB_GT_STAT_jump, F.TB_GT_OFFSET_LO, F.TB_GT_OFFSET_HI, F.TB_RATE], [.tb]⟩ d (Dev.syncWritten d) := by
  unfold Dev.syncWritten
  repeat' (first
    | with_reducible exact Keeps.refl _ _
    | decide +kernel
    | (apply Keeps.step; with_reducible apply Dev.wr_keeps)
    | (apply Keeps.step; with_reducible apply Dev.setOffset_keeps)
    | (apply Keeps.step; with_reducible apply Dev.setRate_keeps)
    | (apply Keeps.step; with_reducible apply Dev.newStepLimit_keeps)
    | (with_reducible apply Keeps.ite <;> intro _)
    | split)

theorem Dev.decideTransfer_keeps (d : Dev) (s : Nat) : Keeps ⟨false, [F.TB_STG_RUN_run, F.TB_STG_COMMIT_pending, F.TB_STG_STAT_running, F.TB_STG_STAT_tripped, F.TB_STG_STAT_fenced, F.TB_STG_STAT_deadline, F.PG_STAT_out_high, F.PG_STAT_out_low, F.PG_STAT_trip_hold, F.WM_SW_HELD, F.WM_SW_STAT_held, F.WM_SW_STAT_action, F.WM_SW_STAT_cause_kind, F.WM_SW_STAT_cause_index, F.WM_SW_STAT_count, F.WM_SW_TIME_LO, F.WM_SW_TIME_HI, F.BE_ENG_STAT_state, F.BE_ENG_STAT_loop, F.BE_ENG_STAT_loops, F.BE_LP_SWAP_active, F.BE_LP_SWAP_pending, F.BE_LP_SWAP_status, F.BE_LP_STAT_state, F.BE_LP_STAT_consec, F.BE_LP_FLAGS_sat, F.BE_LP_FLAGS_swap_clamp, F.BE_LP_FLAGS_deadline, F.BE_LP_MISS_misses, F.BE_LP_SLACK_last, F.BE_LP_SLACK_win_min, F.BE_LP_SLACK_MIN_min, F.BE_LP_SLACK_MIN_restart, F.BE_POOL_STAT_fenced, F.BE_POOL_STAT_free, F.SC_ABS_LEFT_left, F.SC_ABS_LEFT_awaiting, F.FLT_STAT_lost, F.FLT_LOST], [.tb, .pp, .cv, .be, .sc, .flt]⟩ d (Dev.decideTransfer d s) := by
  unfold Dev.decideTransfer
  repeat' (first
    | with_reducible exact Keeps.refl _ _
    | decide +kernel
    | with_reducible assumption
    | lift_lets
    | (intro x; first | (refine Keeps.cut (d0 := d) (d1 := x) ?_ ?_; (on_goal 1 => subst x); (on_goal 2 => (intro _; clear_value x))) | subst x)
    | (apply Keeps.step; with_reducible apply Dev.put_keeps)
    | (apply Keeps.step; with_reducible apply Dev.setStg_keeps)
    | (apply Keeps.step; with_reducible apply Dev.clearWritten_keeps)
    | (apply Keeps.step; with_reducible apply Dev.loopDeadline_keeps)
    | (with_reducible apply Keeps.ite <;> intro _)
    | split)

theorem Dev.showPlan_keeps (d : Dev) (s : Nat) (a b : Inst) : Keeps ⟨false, [F.TB_STG_PLAN_A_instant, F.TB_STG_PLAN_A_placed, F.TB_STG_PLAN_B_instant, F.TB_STG_PLAN_B_placed], []⟩ d (Dev.showPlan d s a b) := by
  unfold Dev.showPlan
  repeat' (first
    | with_reducible exact Keeps.refl _ _
    | decide +kernel
    | with_reducible assumption
    | lift_lets
    | (intro x; first | (refine Keeps.cut (d0 := d) (d1 := x) ?_ ?_; (on_goal 1 => subst x); (on_goal 2 => (intro _; clear_value x))) | subst x)
    | (apply Keeps.step; with_reducible apply Dev.wr_keeps)
    | (apply Keeps.step; with_reducible apply Dev.put_keeps)
    | (with_reducible apply Keeps.ite <;> intro _)
    | split)

theorem Dev.transferStage_keeps (d : Dev) (s n : Nat) : Keeps ⟨false, [F.TB_STG_COMMIT_status, F.TB_STG_COMMIT_pending, F.PG_CMP_A_value, F.PG_CMP_B_value], []⟩ d (Dev.transferStage d s n) := by
  unfold Dev.transferStage
  repeat' (first
    | with_reducible exact Keeps.refl _ _
    | decide +kernel
    | with_reducible assumption
    | lift_lets
    | (intro x; first | (refine Keeps.cut (d0 := d) (d1 := x) ?_ ?_; (on_goal 1 => subst x); (on_goal 2 => (intro _; clear_value x))) | subst x)
    | (apply Keeps.step; with_reducible apply Dev.wr_keeps)
    | (apply Keeps.step; with_reducible apply Dev.put_keeps)
    | (apply Keeps.step; with_reducible apply Dev.applyLocked_keeps)
    | (with_reducible apply Keeps.ite <;> intro _)
    | split)

theorem Dev.drivePorts_keeps (d : Dev) (s n : Nat) (transfer : Bool) : Keeps ⟨false, [F.TB_STG_STAT_running, F.PG_STAT_out_high, F.PG_STAT_out_low, F.PG_STAT_minp, F.PG_STAT_both_req], [.tb, .pp]⟩ d (Dev.drivePorts d s n transfer) := by
  unfold Dev.drivePorts
  repeat' (first
    | with_reducible exact Keeps.refl _ _
    | decide +kernel
    | (intro _ _ k; exact k.le)
    | with_reducible assumption
    | lift_lets
    | (intro x; first | (refine Keeps.cut (d0 := e) (d1 := x) ?_ ?_; (on_goal 1 => subst x); (on_goal 2 => (intro _; clear_value x))) | (refine Keeps.cut (d0 := d) (d1 := x) ?_ ?_; (on_goal 1 => subst x); (on_goal 2 => (intro _; clear_value x))) | subst x)
    | (apply Keeps.stepSame; with_reducible apply Dev.each_keeps; intro e _)
    | (apply Keeps.step; with_reducible apply Dev.put_keeps)
    | (apply Keeps.step; with_reducible apply Dev.setStg_keeps)
    | (apply Keeps.step; with_reducible apply Dev.setPort_keeps)
    | (apply Keeps.step; with_reducible apply Dev.pgStep_keeps)
    | (with_reducible apply Keeps.ite <;> intro _)
    | split)

theorem Dev.openSensing_keeps (d : Dev) (s n : Nat) : Keeps ⟨false, [F.TB_STG_PLAN_A_instant, F.TB_STG_PLAN_A_placed, F.TB_STG_PLAN_B_instant, F.TB_STG_PLAN_B_placed, F.SH_RES_A, F.SH_RES_B, F.SH_INFO_A, F.SH_INFO_B, F.SH_STAMP_A_LO, F.SH_STAMP_A_HI, F.SH_STAMP_B_LO, F.SH_STAMP_B_HI, F.SH_STAT_short_run, F.SH_STAT_run_len, F.FLT_STAT_lost, F.FLT_LOST], [.tb, .sh, .be, .flt]⟩ d (Dev.openSensing d s n) := by
  unfold Dev.openSensing
  repeat' (first
    | with_reducible exact Keeps.refl _ _
    | decide +kernel
    | with_reducible assumption
    | lift_lets
    | (intro x; first | (refine Keeps.cut (d0 := d) (d1 := x) ?_ ?_; (on_goal 1 => subst x); (on_goal 2 => (intro _; clear_value x))) | subst x)
    | (apply Keeps.step; with_reducible apply Dev.setStg_keeps)
    | (apply Keeps.step; with_reducible apply Dev.setShunt_keeps)
    | (apply Keeps.step; with_reducible apply Dev.spanResult_keeps)
    | (apply Keeps.step; with_reducible apply Dev.unplacedRecord_keeps)
    | (apply Keeps.step; with_reducible apply Dev.hkStart_keeps)
    | (apply Keeps.step; with_reducible apply Dev.showPlan_keeps)
    | (with_reducible apply Keeps.ite <;> intro _)
    | split)

theorem Dev.updatePoint_keeps (d : Dev) (s : Nat) : Keeps ⟨false, [F.TB_STG_RUN_run, F.TB_STG_COMMIT_status, F.TB_STG_COMMIT_pending, F.TB_STG_UPD_LO, F.TB_STG_UPD_HI, F.TB_STG_STAT_running, F.TB_STG_STAT_tripped, F.TB_STG_STAT_fenced, F.TB_STG_STAT_deadline, F.TB_STG_PLAN_A_instant, F.TB_STG_PLAN_A_placed, F.TB_STG_PLAN_B_instant, F.TB_STG_PLAN_B_placed, F.PG_CMP_A_value, F.PG_CMP_B_value, F.PG_STAT_out_high, F.PG_STAT_out_low, F.PG_STAT_minp, F.PG_STAT_both_req, F.PG_STAT_trip_hold, F.SH_RES_A, F.SH_RES_B, F.SH_INFO_A, F.SH_INFO_B, F.SH_STAMP_A_LO, F.SH_STAMP_A_HI, F.SH_STAMP_B_LO, F.SH_STAMP_B_HI, F.SH_STAT_short, F.SH_STAT_accepted, F.SH_STAT_unplaced, F.SH_STAT_short_run, F.SH_STAT_run_len, F.SH_STAT_short_cnt, F.WM_SW_HELD, F.WM_SW_STAT_held, F.WM_SW_STAT_action, F.WM_SW_STAT_cause_kind, F.WM_SW_STAT_cause_index, F.WM_SW_STAT_count, F.WM_SW_TIME_LO, F.WM_SW_TIME_HI, F.BE_ENG_STAT_state, F.BE_ENG_STAT_loop, F.BE_ENG_STAT_loops, F.BE_ENG_STAT_fenced_writes, F.BE_LP_SWAP_active, F.BE_LP_SWAP_pending, F.BE_LP_SWAP_status, F.BE_LP_STAT_state, F.BE_LP_STAT_consec, F.BE_LP_STAT_update, F.BE_LP_FLAGS_sat, F.BE_LP_FLAGS_swap_clamp, F.BE_LP_FLAGS_deadline, F.BE_LP_MISS_misses, F.BE_LP_SLACK_last, F.BE_LP_SLACK_win_min, F.BE_LP_SLACK_MIN_min, F.BE_LP_SLACK_MIN_restart, F.BE_LP_DONE_LO, F.BE_LP_DONE_HI, F.BE_POOL_STAT_fenced, F.BE_POOL_STAT_free, F.SC_ABS_LEFT_left, F.SC_ABS_LEFT_awaiting, F.FLT_STAT_lost, F.FLT_LOST], [.tb, .pp, .sh, .cv, .be, .ch, .sc, .flt]⟩ d (Dev.updatePoint d s) := by
  unfold Dev.updatePoint
  repeat' (first
    | with_reducible exact Keeps.refl _ _
    | decide +kernel
    | with_reducible assumption
    | lift_lets
    | (intro x; first | (refine Keeps.cut (d0 := d) (d1 := x) ?_ ?_; (on_goal 1 => subst x); (on_goal 2 => (intro _; clear_value x))) | subst x)
    | (apply Keeps.step; with_reducible apply Dev.wr64_keeps)
    | (apply Keeps.step; with_reducible apply Dev.clearWritten_keeps)
    | (apply Keeps.step; with_reducible apply Dev.plan_keeps)
    | (apply Keeps.step; with_reducible apply Dev.loopUpdate_keeps)
    | (apply Keeps.step; with_reducible apply Dev.decideTransfer_keeps)
    | (apply Keeps.step; with_reducible apply Dev.transferStage_keeps)
    | (apply Keeps.step; with_reducible apply Dev.drivePorts_keeps)
    | (apply Keeps.step; with_reducible apply Dev.openSensing_keeps)
    | (with_reducible apply Keeps.ite <;> intro _)
    | split)

theorem Dev.staleWrite_keeps (d : Dev) (s : Nat) : Keeps ⟨false, [F.TB_STG_STAT_stale, F.TB_STG_STAT_stale_cnt], []⟩ d (Dev.staleWrite d s) := by
  unfold Dev.staleWrite
  repeat' (first
    | with_reducible exact Keeps.refl _ _
    | decide +kernel
    | (apply Keeps.step; with_reducible apply Dev.put_keeps)
    | (apply Keeps.step; with_reducible apply Dev.bump_keeps))

theorem Dev.shadowArrives_keeps (d : Dev) (e l p : Nat) (isB : Bool) (v : Int) (tag : Nat) : Keeps ⟨false, [F.TB_STG_STAT_stale, F.TB_STG_STAT_stale_cnt, F.PG_SHD_A_value, F.PG_SHD_B_value, F.PG_STAT_sat, F.BE_ENG_STAT_fenced_writes, F.FLT_STAT_lost, F.FLT_LOST], [.tb, .flt]⟩ d (Dev.shadowArrives d e l p isB v tag) := by
  unfold Dev.shadowArrives
  repeat' (first
    | with_reducible exact Keeps.refl _ _
    | decide +kernel
    | with_reducible assumption
    | lift_lets
    | (intro x; first | (refine Keeps.cut (d0 := d) (d1 := x) ?_ ?_; (on_goal 1 => subst x); (on_goal 2 => (intro _; clear_value x))) | subst x)
    | (apply Keeps.step; with_reducible apply Dev.wr_keeps)
    | (apply Keeps.step; with_reducible apply Dev.put_keeps)
    | (apply Keeps.step; with_reducible apply Dev.setPg_keeps)
    | (apply Keeps.step; with_reducible apply Dev.fencedWrite_keeps)
    | (apply Keeps.step; with_reducible apply Dev.staleWrite_keeps)
    | (with_reducible apply Keeps.ite <;> intro _)
    | split)

theorem Dev.commitArrives_keeps (d : Dev) (e l s tag : Nat) : Keeps ⟨false, [F.TB_STG_STAT_late, F.BE_ENG_STAT_fenced_writes, F.BE_LP_SLACK_last, F.BE_LP_SLACK_win_min, F.BE_LP_SLACK_MIN_min, F.BE_LP_SLACK_MIN_restart, F.BE_LP_DUR_last, F.BE_LP_DUR_max, F.FLT_STAT_lost, F.FLT_LOST], [.tb, .be, .flt]⟩ d (Dev.commitArrives d e l s tag) := by
  unfold Dev.commitArrives
  repeat' (first
    | with_reducible exact Keeps.refl _ _
    | decide +kernel
    | with_reducible assumption
    | lift_lets
    | (intro x; first | (refine Keeps.cut (d0 := d) (d1 := x) ?_ ?_; (on_goal 1 => subst x); (on_goal 2 => (intro _; clear_value x))) | subst x)
    | (apply Keeps.step; with_reducible apply Dev.put_keeps)
    | (apply Keeps.step; with_reducible apply Dev.setStg_keeps)
    | (apply Keeps.step; with_reducible apply Dev.fencedWrite_keeps)
    | (apply Keeps.step; with_reducible apply Dev.commitReleased_keeps)
    | (with_reducible apply Keeps.ite <;> intro _)
    | split)

theorem Dev.scShadow_keeps (d : Dev) (p : Nat) (isB : Bool) (v : Word) : Keeps ⟨false, [F.FAB_WRITE_ERR, F.FAB_WRITE_ERR_more, F.FAB_WRITE_DATA, F.FAB_WRITE_CNT, F.PG_SHD_A_value, F.PG_SHD_B_value], [.tb]⟩ d (Dev.scShadow d p isB v) := by
  unfold Dev.scShadow
  repeat' (first
    | with_reducible exact Keeps.refl _ _
    | decide +kernel
    | with_reducible assumption
    | lift_lets
    | (intro x; first | (refine Keeps.cut (d0 := d) (d1 := x) ?_ ?_; (on_goal 1 => subst x); (on_goal 2 => (intro _; clear_value x))) | subst x)
    | (apply Keeps.step; with_reducible apply Dev.wr_keeps)
    | (apply Keeps.step; with_reducible apply Dev.setPg_keeps)
    | (apply Keeps.step; with_reducible apply Dev.reject_keeps)
    | (with_reducible apply Keeps.ite <;> intro _)
    | split)

theorem Dev.scCommit_keeps (d : Dev) (s : Nat) (v : Word) : Keeps ⟨false, [F.FAB_WRITE_ERR, F.FAB_WRITE_ERR_more, F.FAB_WRITE_DATA, F.FAB_WRITE_CNT, F.TB_STG_COMMIT_update, F.TB_STG_COMMIT_status, F.TB_STG_COMMIT_pending], []⟩ d (Dev.scCommit d s v) := by
  unfold Dev.scCommit
  repeat' (first
    | with_reducible exact Keeps.refl _ _
    | decide +kernel
    | with_reducible assumption
    | lift_lets
    | (intro x; first | (refine Keeps.cut (d0 := d) (d1 := x) ?_ ?_; (on_goal 1 => subst x); (on_goal 2 => (intro _; clear_value x))) | subst x)
    | (apply Keeps.step; with_reducible apply Dev.wr_keeps)
    | (apply Keeps.step; with_reducible apply Dev.put_keeps)
    | (apply Keeps.step; with_reducible apply Dev.reject_keeps)
    | (with_reducible apply Keeps.ite <;> intro _)
    | split)

theorem Dev.writeRun_keeps (d : Dev) (s : Nat) (run : Bool) : Keeps ⟨false, [F.FAB_WRITE_ERR, F.FAB_WRITE_ERR_more, F.FAB_WRITE_DATA, F.FAB_WRITE_CNT, F.TB_STG_RUN_run, F.TB_STG_STAT_running, F.PG_STAT_out_high, F.PG_STAT_out_low, F.PG_STAT_trip_hold, F.SH_CAL_CTRL_busy, F.SH_CAL_CTRL_status, F.CV_STAT_urgent, F.SC_ABS_LEFT_left, F.SC_ABS_LEFT_expired, F.SC_ABS_LEFT_awaiting], [.tb, .pp, .sh, .cv, .sc]⟩ d (Dev.writeRun d s run) := by
  unfold Dev.writeRun
  repeat' (first
    | with_reducible exact Keeps.refl _ _
    | decide +kernel
    | with_reducible assumption
    | lift_lets
    | (intro x; first | (refine Keeps.cut (d0 := d) (d1 := x) ?_ ?_; (on_goal 1 => subst x); (on_goal 2 => (intro _; clear_value x))) | subst x)
    | (apply Keeps.step; with_reducible apply Dev.reject_keeps)
    | (apply Keeps.step; with_reducible apply Dev.stopStage_keeps)
    | (apply Keeps.step; with_reducible apply Dev.startStage_keeps)
    | (with_reducible apply Keeps.ite <;> intro _)
    | split)

theorem Dev.triggerFire_keeps (d : Dev) (u six : Nat) : Keeps ⟨false, [F.TB_TRIG_CNT], [.tb]⟩ d (Dev.triggerFire d u six) := by
  unfold Dev.triggerFire
  repeat' (first
    | with_reducible exact Keeps.refl _ _
    | decide +kernel
    | (intro _ _ k; exact k.le)
    | with_reducible assumption
    | lift_lets
    | (intro x; first | (refine Keeps.cut (d0 := e) (d1 := x) ?_ ?_; (on_goal 1 => subst x); (on_goal 2 => (intro _; clear_value x))) | (refine Keeps.cut (d0 := d) (d1 := x) ?_ ?_; (on_goal 1 => subst x); (on_goal 2 => (intro _; clear_value x))) | subst x)
    | (apply Keeps.step; with_reducible apply Dev.bump_keeps)
    | (apply Keeps.step; with_reducible apply Dev.setFired_keeps)
    | (apply Keeps.stepSame; with_reducible apply Dev.pipe_keeps; intro e)
    | (with_reducible apply Keeps.ite <;> intro _)
    | split)

theorem execGtCapture_runs (t gt : Nat) (s : State) :
    Runs ⟨false, [F.TB_GT_STAT_state, F.TB_GT_STAT_jump, F.TB_GT_OFFSET_LO, F.TB_GT_OFFSET_HI, F.TB_GT_ERR, F.TB_RATE], [.tb]⟩ t s (execGtCapture t gt s) := by
  unfold execGtCapture
  refine Runs.of fun d => ?_
  repeat' (first
    | with_reducible exact Keeps.refl _ _
    | decide +kernel
    | with_reducible assumption
    | lift_lets
    | (intro x; first | (refine Keeps.cut (d0 := d) (d1 := x) ?_ ?_; (on_goal 1 => subst x); (on_goal 2 => (intro _; clear_value x))) | subst x)
    | (apply Keeps.step; with_reducible apply Dev.captureOffset_keeps)
    | (apply Keeps.step; with_reducible apply Dev.gtReference_keeps)
    | (with_reducible apply Keeps.ite <;> intro _)
    | split)

theorem execUpdatePoint_runs (t : Nat) (k : Fin 21) (s : State) :
    Runs ⟨false, [F.TB_STG_RUN_run, F.TB_STG_COMMIT_status, F.TB_STG_COMMIT_pending, F.TB_STG_UPD_LO, F.TB_STG_UPD_HI, F.TB_STG_STAT_running, F.TB_STG_STAT_tripped, F.TB_STG_STAT_fenced, F.TB_STG_STAT_deadline, F.TB_STG_PLAN_A_instant, F.TB_STG_PLAN_A_placed, F.TB_STG_PLAN_B_instant, F.TB_STG_PLAN_B_placed, F.PG_CMP_A_value, F.PG_CMP_B_value, F.PG_STAT_out_high, F.PG_STAT_out_low, F.PG_STAT_minp, F.PG_STAT_both_req, F.PG_STAT_trip_hold, F.SH_RES_A, F.SH_RES_B, F.SH_INFO_A, F.SH_INFO_B, F.SH_STAMP_A_LO, F.SH_STAMP_A_HI, F.SH_STAMP_B_LO, F.SH_STAMP_B_HI, F.SH_STAT_short, F.SH_STAT_accepted, F.SH_STAT_unplaced, F.SH_STAT_short_run, F.SH_STAT_run_len, F.SH_STAT_short_cnt, F.WM_SW_HELD, F.WM_SW_STAT_held, F.WM_SW_STAT_action, F.WM_SW_STAT_cause_kind, F.WM_SW_STAT_cause_index, F.WM_SW_STAT_count, F.WM_SW_TIME_LO, F.WM_SW_TIME_HI, F.BE_ENG_STAT_state, F.BE_ENG_STAT_loop, F.BE_ENG_STAT_loops, F.BE_ENG_STAT_fenced_writes, F.BE_LP_SWAP_active, F.BE_LP_SWAP_pending, F.BE_LP_SWAP_status, F.BE_LP_STAT_state, F.BE_LP_STAT_consec, F.BE_LP_STAT_update, F.BE_LP_FLAGS_sat, F.BE_LP_FLAGS_swap_clamp, F.BE_LP_FLAGS_deadline, F.BE_LP_MISS_misses, F.BE_LP_SLACK_last, F.BE_LP_SLACK_win_min, F.BE_LP_SLACK_MIN_min, F.BE_LP_SLACK_MIN_restart, F.BE_LP_DONE_LO, F.BE_LP_DONE_HI, F.BE_POOL_STAT_fenced, F.BE_POOL_STAT_free, F.SC_ABS_LEFT_left, F.SC_ABS_LEFT_awaiting, F.FLT_STAT_lost, F.FLT_LOST], [.tb, .pp, .sh, .cv, .be, .ch, .sc, .flt]⟩ t s (execUpdatePoint t k s) := by
  unfold execUpdatePoint
  refine Runs.of fun d => ?_
  repeat' (first
    | with_reducible exact Keeps.refl _ _
    | decide +kernel
    | (apply Keeps.step; with_reducible apply Dev.updatePoint_keeps))

theorem execDeadlineInstant_runs (t : Nat) (k : Fin 21) (s : State) :
    Runs ⟨false, [F.TB_STG_RUN_run, F.TB_STG_COMMIT_pending, F.TB_STG_STAT_running, F.TB_STG_STAT_tripped, F.TB_STG_STAT_fenced, F.TB_STG_STAT_deadline, F.PG_STAT_out_high, F.PG_STAT_out_low, F.PG_STAT_trip_hold, F.WM_SW_HELD, F.WM_SW_STAT_held, F.WM_SW_STAT_action, F.WM_SW_STAT_cause_kind, F.WM_SW_STAT_cause_index, F.WM_SW_STAT_count, F.WM_SW_TIME_LO, F.WM_SW_TIME_HI, F.BE_ENG_STAT_state, F.BE_ENG_STAT_loop, F.BE_ENG_STAT_loops, F.BE_LP_SWAP_active, F.BE_LP_SWAP_pending, F.BE_LP_SWAP_status, F.BE_LP_STAT_state, F.BE_LP_STAT_consec, F.BE_LP_FLAGS_sat, F.BE_LP_FLAGS_swap_clamp, F.BE_LP_FLAGS_deadline, F.BE_LP_MISS_misses, F.BE_LP_SLACK_last, F.BE_LP_SLACK_win_min, F.BE_LP_SLACK_MIN_min, F.BE_LP_SLACK_MIN_restart, F.BE_POOL_STAT_fenced, F.BE_POOL_STAT_free, F.SC_ABS_LEFT_left, F.SC_ABS_LEFT_awaiting, F.FLT_STAT_lost, F.FLT_LOST], [.tb, .pp, .cv, .be, .sc, .flt]⟩ t s (execDeadlineInstant t k s) := by
  unfold execDeadlineInstant
  refine Runs.of fun d => ?_
  repeat' (first
    | with_reducible exact Keeps.refl _ _
    | decide +kernel
    | (apply Keeps.step; with_reducible apply Dev.decideTransfer_keeps)
    | (with_reducible apply Keeps.ite <;> intro _)
    | split)

theorem execSamplingPlan_runs (t : Nat) (k : Fin 21) (s : State) :
    Runs ⟨false, [F.PG_CMP_A_value, F.PG_CMP_B_value, F.SH_STAT_short, F.SH_STAT_accepted, F.SH_STAT_unplaced, F.SH_STAT_short_cnt], [.tb]⟩ t s (execSamplingPlan t k s) := by
  unfold execSamplingPlan
  refine Runs.of fun d => ?_
  repeat' (first
    | with_reducible exact Keeps.refl _ _
    | decide +kernel
    | (apply Keeps.step; with_reducible apply Dev.plan_keeps)
    | (with_reducible apply Keeps.ite <;> intro _)
    | split)

theorem execPgShadowWrite_runs (t : Nat) (s : State) :
    Runs ⟨false, [F.TB_STG_STAT_stale, F.TB_STG_STAT_stale_cnt, F.PG_SHD_A_value, F.PG_SHD_B_value, F.PG_STAT_sat, F.BE_ENG_STAT_fenced_writes, F.FLT_STAT_lost, F.FLT_LOST], [.tb, .flt]⟩ t s (execPgShadowWrite t s) := by
  unfold execPgShadowWrite
  refine Runs.of fun d => ?_
  repeat' (first
    | with_reducible exact Keeps.refl _ _
    | decide +kernel
    | with_reducible assumption
    | lift_lets
    | (intro x; first | (refine Keeps.cut (d0 := d) (d1 := x) ?_ ?_; (on_goal 1 => subst x); (on_goal 2 => (intro _; clear_value x))) | subst x)
    | (apply Keeps.step; with_reducible apply Dev.withTb_keeps)
    | (apply Keeps.step; with_reducible apply Dev.shadowArrives_keeps)
    | (with_reducible apply Keeps.ite <;> intro _)
    | split
    | beta_reduce)

theorem execCommitMark_runs (t : Nat) (s : State) :
    Runs ⟨false, [F.TB_STG_STAT_late, F.BE_ENG_STAT_fenced_writes, F.BE_LP_SLACK_last, F.BE_LP_SLACK_win_min, F.BE_LP_SLACK_MIN_min, F.BE_LP_SLACK_MIN_restart, F.BE_LP_DUR_last, F.BE_LP_DUR_max, F.FLT_STAT_lost, F.FLT_LOST], [.tb, .be, .flt]⟩ t s (execCommitMark t s) := by
  unfold execCommitMark
  refine Runs.of fun d => ?_
  repeat' (first
    | with_reducible exact Keeps.refl _ _
    | decide +kernel
    | (apply Keeps.step; with_reducible apply Dev.withTb_keeps)
    | (apply Keeps.step; with_reducible apply Dev.commitArrives_keeps)
    | (with_reducible apply Keeps.ite <;> intro _)
    | split)

theorem execScShadowWrite_runs (t : Nat) (p : Fin 64) (isB : Bool) (v : Word) (s : State) :
    Runs ⟨false, [F.FAB_WRITE_ERR, F.FAB_WRITE_ERR_more, F.FAB_WRITE_DATA, F.FAB_WRITE_CNT, F.PG_SHD_A_value, F.PG_SHD_B_value], [.tb]⟩ t s (execScShadowWrite t p isB v s) := by
  unfold execScShadowWrite fromFirmware
  refine Runs.of fun d => ?_
  repeat' (first
    | with_reducible exact Keeps.refl _ _
    | decide +kernel
    | (apply Keeps.step; with_reducible apply Dev.scShadow_keeps)
    | (with_reducible apply Keeps.ite <;> intro _)
    | beta_reduce)

theorem execScCommit_runs (t : Nat) (k : Fin 21) (v : Word) (s : State) :
    Runs ⟨false, [F.FAB_WRITE_ERR, F.FAB_WRITE_ERR_more, F.FAB_WRITE_DATA, F.FAB_WRITE_CNT, F.TB_STG_COMMIT_update, F.TB_STG_COMMIT_status, F.TB_STG_COMMIT_pending], []⟩ t s (execScCommit t k v s) := by
  unfold execScCommit fromFirmware
  refine Runs.of fun d => ?_
  repeat' (first
    | with_reducible exact Keeps.refl _ _
    | decide +kernel
    | (apply Keeps.step; with_reducible apply Dev.scCommit_keeps)
    | (with_reducible apply Keeps.ite <;> intro _)
    | beta_reduce)

theorem execStageStart_runs (t : Nat) (k : Fin 21) (s : State) :
    Runs ⟨false, [F.FAB_WRITE_ERR, F.FAB_WRITE_ERR_more, F.FAB_WRITE_DATA, F.FAB_WRITE_CNT, F.TB_STG_RUN_run, F.TB_STG_STAT_running, F.PG_STAT_out_high, F.PG_STAT_out_low, F.PG_STAT_trip_hold, F.SH_CAL_CTRL_busy, F.SH_CAL_CTRL_status, F.CV_STAT_urgent, F.SC_ABS_LEFT_left, F.SC_ABS_LEFT_expired, F.SC_ABS_LEFT_awaiting], [.tb, .pp, .sh, .cv, .sc]⟩ t s (execStageStart t k s) := by
  unfold execStageStart fromFirmware
  refine Runs.of fun d => ?_
  repeat' (first
    | with_reducible exact Keeps.refl _ _
    | decide +kernel
    | (apply Keeps.step; with_reducible apply Dev.writeRun_keeps)
    | (with_reducible apply Keeps.ite <;> intro _)
    | beta_reduce)

theorem execStageStop_runs (t : Nat) (k : Fin 21) (s : State) :
    Runs ⟨false, [F.FAB_WRITE_ERR, F.FAB_WRITE_ERR_more, F.FAB_WRITE_DATA, F.FAB_WRITE_CNT, F.TB_STG_RUN_run, F.TB_STG_STAT_running, F.PG_STAT_out_high, F.PG_STAT_out_low, F.PG_STAT_trip_hold, F.SH_CAL_CTRL_busy, F.SH_CAL_CTRL_status, F.CV_STAT_urgent, F.SC_ABS_LEFT_left, F.SC_ABS_LEFT_expired, F.SC_ABS_LEFT_awaiting], [.tb, .pp, .sh, .cv, .sc]⟩ t s (execStageStop t k s) := by
  unfold execStageStop fromFirmware
  refine Runs.of fun d => ?_
  repeat' (first
    | with_reducible exact Keeps.refl _ _
    | decide +kernel
    | (apply Keeps.step; with_reducible apply Dev.writeRun_keeps)
    | (with_reducible apply Keeps.ite <;> intro _)
    | beta_reduce)

theorem execCompareMatch_runs (t : Nat) (six : Fin 16) (p : Fin 64) (s : State) :
    Runs ⟨false, [F.PG_STAT_out_high, F.PG_STAT_out_low, F.PG_STAT_both_req], [.tb, .pp]⟩ t s (execCompareMatch t six p s) := by
  unfold execCompareMatch
  refine Runs.of fun d => ?_
  repeat' (first
    | with_reducible exact Keeps.refl _ _
    | decide +kernel
    | with_reducible assumption
    | lift_lets
    | (intro x; first | (refine Keeps.cut (d0 := d) (d1 := x) ?_ ?_; (on_goal 1 => subst x); (on_goal 2 => (intro _; clear_value x))) | subst x)
    | (apply Keeps.step; with_reducible apply Dev.pgStep_keeps)
    | (with_reducible apply Keeps.ite <;> intro _)
    | split)

theorem execDeadTimeExpiry_runs (t : Nat) (six : Fin 16) (p : Fin 64) (s : State) :
    Runs ⟨false, [F.PG_STAT_out_high, F.PG_STAT_out_low, F.PG_STAT_both_req], [.tb, .pp]⟩ t s (execDeadTimeExpiry t six p s) := by
  unfold execDeadTimeExpiry
  refine Runs.of fun d => ?_
  repeat' (first
    | with_reducible exact Keeps.refl _ _
    | decide +kernel
    | (apply Keeps.step; with_reducible apply Dev.setPg_keeps)
    | (apply Keeps.step; with_reducible apply Dev.present_keeps)
    | (with_reducible apply Keeps.ite <;> intro _)
    | split)

theorem execTriggerFire_runs (t : Nat) (six : Fin 16) (u : Fin 48) (s : State) :
    Runs ⟨false, [F.TB_TRIG_CNT], [.tb]⟩ t s (execTriggerFire t six u s) := by
  unfold execTriggerFire
  refine Runs.of fun d => ?_
  repeat' (first
    | with_reducible exact Keeps.refl _ _
    | decide +kernel
    | (apply Keeps.step; with_reducible apply Dev.triggerFire_keeps))

end Sys2Proof.Machine
end

