-- ==== Sys2Proof/Laws/KeepsCanOps.lean ====
section
/-! SUPPORT. What the effects of CanOps.lean keep. -/

namespace Sys2Proof.Machine

set_option Elab.async false

theorem Dev.ttCheck_keeps (d : Dev) (c : Nat) : Keeps ⟨false, [F.TB_GT_STAT_state, F.TB_GT_STAT_gt_valid, F.CN_TT_STAT_gt_valid], []⟩ d (Dev.ttCheck d c) := by
  unfold Dev.ttCheck
  repeat' (first
    | with_reducible exact Keeps.refl _ _
    | decide +kernel
    | with_reducible assumption
    | lift_lets
    | (intro x; first | (refine Keeps.cut (d0 := d) (d1 := x) ?_ ?_; (on_goal 1 => subst x); (on_goal 2 => (intro _; clear_value x))) | subst x)
    | (apply Keeps.step; with_reducible apply Dev.put_keeps)
    | (apply Keeps.step; with_reducible apply Dev.gtValidity_keeps)
    | (with_reducible apply Keeps.ite <;> intro _)
    | split)

theorem Dev.ttExtended_keeps (d : Dev) (c sof ext : Nat) : Keeps ⟨false, [F.TB_GT_STAT_state, F.TB_GT_STAT_jump, F.TB_GT_STAT_gt_valid, F.TB_GT_ERR, F.TB_RATE, F.CN_TT_STAT_gt_valid, F.CN_TT_GT_LO, F.CN_TT_GT_HI], [.tb, .cn]⟩ d (Dev.ttExtended d c sof ext) := by
  unfold Dev.ttExtended
  repeat' (first
    | with_reducible exact Keeps.refl _ _
    | decide +kernel
    | with_reducible assumption
    | lift_lets
    | (intro x; first | (refine Keeps.cut (d0 := d) (d1 := x) ?_ ?_; (on_goal 1 => subst x); (on_goal 2 => (intro _; clear_value x))) | subst x)
    | (apply Keeps.step; with_reducible apply Dev.wr64_keeps)
    | (apply Keeps.step; with_reducible apply Dev.onCan_keeps)
    | (apply Keeps.step; with_reducible apply Dev.gtReference_keeps)
    | (apply Keeps.step; with_reducible apply Dev.ttCheck_keeps)
    | (with_reducible apply Keeps.ite <;> intro _)
    | split)

theorem Dev.ttMark_keeps (d : Dev) (c sof mark : Nat) : Keeps ⟨false, [F.TB_GT_STAT_state, F.TB_GT_STAT_jump, F.TB_GT_STAT_gt_valid, F.TB_GT_ERR, F.TB_RATE, F.CN_TT_STAT_gt_valid, F.CN_TT_GT_LO, F.CN_TT_GT_HI], [.tb, .cn]⟩ d (Dev.ttMark d c sof mark) := by
  unfold Dev.ttMark
  repeat' (first
    | with_reducible exact Keeps.refl _ _
    | decide +kernel
    | with_reducible assumption
    | lift_lets
    | (intro x; first | (refine Keeps.cut (d0 := d) (d1 := x) ?_ ?_; (on_goal 1 => subst x); (on_goal 2 => (intro _; clear_value x))) | subst x)
    | (apply Keeps.step; with_reducible apply Dev.ttExtended_keeps))

theorem Dev.ttStart_keeps (d : Dev) (c : Nat) : Keeps ⟨false, [F.TB_GT_STAT_state, F.TB_GT_STAT_gt_valid, F.CN_TT_STAT_state, F.CN_TT_STAT_gt_valid], [.cn]⟩ d (Dev.ttStart d c) := by
  unfold Dev.ttStart
  repeat' (first
    | with_reducible exact Keeps.refl _ _
    | decide +kernel
    | with_reducible assumption
    | lift_lets
    | (intro x; first | (refine Keeps.cut (d0 := d) (d1 := x) ?_ ?_; (on_goal 1 => subst x); (on_goal 2 => (intro _; clear_value x))) | subst x)
    | (apply Keeps.step; with_reducible apply Dev.wr_keeps)
    | (apply Keeps.step; with_reducible apply Dev.onCan_keeps)
    | (apply Keeps.step; with_reducible apply Dev.ttCheck_keeps)
    | (with_reducible apply Keeps.ite <;> intro _)
    | split)

theorem Dev.endSlots_keeps (d : Dev) (c st : Nat) : Keeps ⟨false, [F.SC_TM_STAT_last_status, F.SC_TM_CNT_refusals, F.SC_CH_STAT_last_status, F.SC_LV_STAT_last_status, F.SC_DR_STAT_last_status, F.HI_QP_CTRL_draining, F.HI_QP_FLAGS_in_flight, F.CN_STAT_slots, F.FLT_STAT_lost, F.FLT_LOST], [.hi, .cn, .flt]⟩ d (Dev.endSlots d c st) := by
  unfold Dev.endSlots
  repeat' (first
    | with_reducible exact Keeps.refl _ _
    | decide +kernel
    | (intro _ _ k; exact k.le)
    | (apply Keeps.step; with_reducible apply Dev.finish_keeps)
    | (apply Keeps.stepSame; with_reducible apply Dev.foldl_keeps; intro e _))

theorem Dev.busOff_keeps (d : Dev) (c : Nat) : Keeps ⟨false, [F.TB_GT_STAT_state, F.TB_GT_STAT_gt_valid, F.SC_TM_STAT_last_status, F.SC_TM_CNT_refusals, F.SC_CH_STAT_last_status, F.SC_LV_STAT_last_status, F.SC_DR_STAT_last_status, F.HI_QP_CTRL_draining, F.HI_QP_FLAGS_in_flight, F.CN_STAT_state, F.CN_STAT_slots, F.CN_CNT_bus_off, F.CN_TT_STAT_state, F.CN_TT_STAT_gt_valid, F.FLT_STAT_lost, F.FLT_LOST], [.hi, .cn, .flt]⟩ d (Dev.busOff d c) := by
  unfold Dev.busOff
  repeat' (first
    | with_reducible exact Keeps.refl _ _
    | decide +kernel
    | with_reducible assumption
    | lift_lets
    | (intro x; first | (refine Keeps.cut (d0 := d) (d1 := x) ?_ ?_; (on_goal 1 => subst x); (on_goal 2 => (intro _; clear_value x))) | subst x)
    | (apply Keeps.step; with_reducible apply Dev.wr_keeps)
    | (apply Keeps.step; with_reducible apply Dev.bump_keeps)
    | (apply Keeps.step; with_reducible apply Dev.report_keeps)
    | (apply Keeps.step; with_reducible apply Dev.ttCheck_keeps)
    | (apply Keeps.step; with_reducible apply Dev.endSlots_keeps))

theorem Dev.errorCounts_keeps (d : Dev) (c tec rec' : Nat) : Keeps ⟨false, [F.TB_GT_STAT_state, F.TB_GT_STAT_gt_valid, F.SC_TM_STAT_last_status, F.SC_TM_CNT_refusals, F.SC_CH_STAT_last_status, F.SC_LV_STAT_last_status, F.SC_DR_STAT_last_status, F.HI_QP_CTRL_draining, F.HI_QP_FLAGS_in_flight, F.CN_STAT_state, F.CN_STAT_slots, F.CN_STAT_tec, F.CN_STAT_rec, F.CN_CNT_bus_off, F.CN_TT_STAT_state, F.CN_TT_STAT_gt_valid, F.FLT_STAT_lost, F.FLT_LOST], [.hi, .cn, .flt]⟩ d (Dev.errorCounts d c tec rec') := by
  unfold Dev.errorCounts
  repeat' (first
    | with_reducible exact Keeps.refl _ _
    | decide +kernel
    | with_reducible assumption
    | lift_lets
    | (intro x; first | (refine Keeps.cut (d0 := d) (d1 := x) ?_ ?_; (on_goal 1 => subst x); (on_goal 2 => (intro _; clear_value x))) | subst x)
    | (apply Keeps.step; with_reducible apply Dev.wr_keeps)
    | (apply Keeps.step; with_reducible apply Dev.report_keeps)
    | (apply Keeps.step; with_reducible apply Dev.reportOpen_keeps)
    | (apply Keeps.step; with_reducible apply Dev.busOff_keeps)
    | (with_reducible apply Keeps.ite <;> intro _)
    | split)

theorem Dev.reintegrate_keeps (d : Dev) (c : Nat) : Keeps ⟨false, [F.TB_GT_STAT_state, F.TB_GT_STAT_gt_valid, F.CN_STAT_state, F.CN_TT_STAT_gt_valid], []⟩ d (Dev.reintegrate d c) := by
  unfold Dev.reintegrate
  repeat' (first
    | with_reducible exact Keeps.refl _ _
    | decide +kernel
    | (apply Keeps.step; with_reducible apply Dev.wr_keeps)
    | (apply Keeps.step; with_reducible apply Dev.ttCheck_keeps))

theorem Dev.attempt_keeps (d : Dev) (c sof : Nat) (f : CanFrame) (a : TxAttempt) : Keeps ⟨false, [F.TB_GT_STAT_state, F.TB_GT_STAT_gt_valid, F.SC_TM_STAT_last_status, F.SC_TM_CNT_refusals, F.SC_CH_STAT_last_status, F.SC_LV_STAT_last_status, F.SC_DR_STAT_last_status, F.HI_QP_CTRL_draining, F.HI_QP_FLAGS_in_flight, F.CN_STAT_state, F.CN_STAT_slots, F.CN_STAT_tec, F.CN_STAT_rec, F.CN_CNT_bus_off, F.CN_CNT_no_ack, F.CN_TT_STAT_state, F.CN_TT_STAT_gt_valid, F.FLT_STAT_lost, F.FLT_LOST], [.hi, .cn, .flt]⟩ d (Dev.attempt d c sof f a) := by
  unfold Dev.attempt
  repeat' (first
    | with_reducible exact Keeps.refl _ _
    | decide +kernel
    | with_reducible assumption
    | lift_lets
    | (intro x; first | (refine Keeps.cut (d0 := d) (d1 := x) ?_ ?_; (on_goal 1 => subst x); (on_goal 2 => (intro _; clear_value x))) | subst x)
    | (apply Keeps.step; with_reducible apply Dev.withCn_keeps)
    | (apply Keeps.step; with_reducible apply Dev.bump_keeps)
    | (apply Keeps.step; with_reducible apply Dev.errorCounts_keeps)
    | (apply Keeps.step; with_reducible apply Dev.reintegrate_keeps)
    | (with_reducible apply Keeps.ite <;> intro _)
    | split)

theorem Dev.canEnable_keeps (d : Dev) (c : Nat) : Keeps ⟨false, [F.TB_GT_STAT_state, F.TB_GT_STAT_gt_valid, F.CN_STAT_state, F.CN_STAT_tec, F.CN_STAT_rec, F.CN_TT_STAT_state, F.CN_TT_STAT_gt_valid], [.cn]⟩ d (Dev.canEnable d c) := by
  unfold Dev.canEnable
  repeat' (first
    | with_reducible exact Keeps.refl _ _
    | decide +kernel
    | (intro _ _ k; exact k.le)
    | with_reducible assumption
    | lift_lets
    | (intro x; first | (refine Keeps.cut (d0 := e) (d1 := x) ?_ ?_; (on_goal 1 => subst x); (on_goal 2 => (intro _; clear_value x))) | (refine Keeps.cut (d0 := d) (d1 := x) ?_ ?_; (on_goal 1 => subst x); (on_goal 2 => (intro _; clear_value x))) | subst x)
    | (apply Keeps.stepSame; with_reducible apply Dev.each_keeps; intro e _)
    | (apply Keeps.step; with_reducible apply Dev.wr_keeps)
    | (apply Keeps.step; with_reducible apply Dev.setFlow_keeps)
    | (apply Keeps.step; with_reducible apply Dev.ttStart_keeps)
    | (with_reducible apply Keeps.ite <;> intro _)
    | split)

theorem Dev.canDisable_keeps (d : Dev) (c : Nat) : Keeps ⟨false, [F.TB_GT_STAT_state, F.TB_GT_STAT_gt_valid, F.SC_TM_STAT_last_status, F.SC_TM_CNT_refusals, F.SC_CH_STAT_last_status, F.SC_LV_STAT_last_status, F.SC_DR_STAT_last_status, F.HI_QP_CTRL_draining, F.HI_QP_FLAGS_in_flight, F.CN_CTRL_pending, F.CN_STAT_state, F.CN_STAT_slots, F.CN_TT_STAT_state, F.CN_TT_STAT_gt_valid, F.FLT_STAT_lost, F.FLT_LOST], [.hi, .cn, .flt]⟩ d (Dev.canDisable d c) := by
  unfold Dev.canDisable
  repeat' (first
    | with_reducible exact Keeps.refl _ _
    | decide +kernel
    | with_reducible assumption
    | lift_lets
    | (intro x; first | (refine Keeps.cut (d0 := d) (d1 := x) ?_ ?_; (on_goal 1 => subst x); (on_goal 2 => (intro _; clear_value x))) | subst x)
    | (apply Keeps.step; with_reducible apply Dev.wr_keeps)
    | (apply Keeps.step; with_reducible apply Dev.put_keeps)
    | (apply Keeps.step; with_reducible apply Dev.ttCheck_keeps)
    | (apply Keeps.step; with_reducible apply Dev.endSlots_keeps))

theorem Dev.canFence_keeps (d : Dev) (c cause sub : Nat) : Keeps ⟨false, [F.TB_GT_STAT_state, F.TB_GT_STAT_gt_valid, F.SC_TM_STAT_last_status, F.SC_TM_CNT_refusals, F.SC_CH_STAT_last_status, F.SC_LV_STAT_last_status, F.SC_DR_STAT_last_status, F.HI_QP_CTRL_draining, F.HI_QP_FLAGS_in_flight, F.CN_STAT_fenced, F.CN_STAT_slots, F.CN_TT_STAT_gt_valid, F.FLT_STAT_lost, F.FLT_LOST], [.hi, .cn, .flt]⟩ d (Dev.canFence d c cause sub) := by
  unfold Dev.canFence
  repeat' (first
    | with_reducible exact Keeps.refl _ _
    | decide +kernel
    | (intro _ _ k; exact k.le)
    | with_reducible assumption
    | lift_lets
    | (intro x; first | (refine Keeps.cut (d0 := e) (d1 := x) ?_ ?_; (on_goal 1 => subst x); (on_goal 2 => (intro _; clear_value x))) | (refine Keeps.cut (d0 := d) (d1 := x) ?_ ?_; (on_goal 1 => subst x); (on_goal 2 => (intro _; clear_value x))) | subst x)
    | (apply Keeps.stepSame; with_reducible apply Dev.each_keeps; intro e _)
    | (apply Keeps.step; with_reducible apply Dev.put_keeps)
    | (apply Keeps.step; with_reducible apply Dev.markFenced_keeps)
    | (apply Keeps.step; with_reducible apply Dev.postFenced_keeps)
    | (apply Keeps.step; with_reducible apply Dev.finish_keeps)
    | (apply Keeps.step; with_reducible apply Dev.ttCheck_keeps)
    | (apply Keeps.step; with_reducible apply Dev.endSlots_keeps)
    | (apply Keeps.stepSame; with_reducible apply Dev.foldl_keeps; intro e _)
    | (with_reducible apply Keeps.ite <;> intro _)
    | split
    | beta_reduce)

theorem Dev.flowFence_keeps (d : Dev) (l cause sub : Nat) : Keeps ⟨false, [F.SC_TM_STAT_last_status, F.SC_TM_CNT_refusals, F.SC_CH_STAT_last_status, F.SC_LV_STAT_last_status, F.SC_DR_STAT_last_status, F.HI_QP_CTRL_draining, F.HI_QP_FLAGS_in_flight, F.CN_STAT_slots, F.FL_STAT_fenced, F.FLT_STAT_lost, F.FLT_LOST], [.hi, .cn, .flt]⟩ d (Dev.flowFence d l cause sub) := by
  unfold Dev.flowFence
  repeat' (first
    | with_reducible exact Keeps.refl _ _
    | decide +kernel
    | (intro _ _ k; exact k.le)
    | with_reducible assumption
    | lift_lets
    | (intro x; first | (refine Keeps.cut (d0 := e) (d1 := x) ?_ ?_; (on_goal 1 => subst x); (on_goal 2 => (intro _; clear_value x))) | (refine Keeps.cut (d0 := d) (d1 := x) ?_ ?_; (on_goal 1 => subst x); (on_goal 2 => (intro _; clear_value x))) | subst x)
    | (apply Keeps.stepSame; with_reducible apply Dev.each_keeps; intro e _)
    | (apply Keeps.step; with_reducible apply Dev.put_keeps)
    | (apply Keeps.step; with_reducible apply Dev.markFenced_keeps)
    | (apply Keeps.step; with_reducible apply Dev.postFenced_keeps)
    | (apply Keeps.step; with_reducible apply Dev.finish_keeps)
    | (apply Keeps.stepSame; with_reducible apply Dev.foldl_keeps; intro e _)
    | (with_reducible apply Keeps.ite <;> intro _)
    | split
    | beta_reduce)

theorem Dev.canAdmit_keeps (d : Dev) (c : Nat) : Keeps ⟨false, [F.TB_GT_STAT_state, F.TB_GT_STAT_gt_valid, F.CN_STAT_state, F.CN_STAT_fenced, F.CN_STAT_tec, F.CN_STAT_rec, F.CN_TT_STAT_state, F.CN_TT_STAT_gt_valid], [.cn, .flt]⟩ d (Dev.canAdmit d c) := by
  unfold Dev.canAdmit
  repeat' (first
    | with_reducible exact Keeps.refl _ _
    | decide +kernel
    | with_reducible assumption
    | lift_lets
    | (intro x; first | (refine Keeps.cut (d0 := d) (d1 := x) ?_ ?_; (on_goal 1 => subst x); (on_goal 2 => (intro _; clear_value x))) | subst x)
    | (apply Keeps.step; with_reducible apply Dev.put_keeps)
    | (apply Keeps.step; with_reducible apply Dev.markFenced_keeps)
    | (apply Keeps.step; with_reducible apply Dev.canEnable_keeps)
    | (with_reducible apply Keeps.ite <;> intro _)
    | split)

theorem Dev.pushRx_keeps (d : Dev) (c : Nat) (r : RxRec) : Keeps ⟨false, [F.HI_QP_FLAGS_lost, F.HI_QP_LOST], [.cn]⟩ d (Dev.pushRx d c r) := by
  unfold Dev.pushRx
  repeat' (first
    | with_reducible exact Keeps.refl _ _
    | decide +kernel
    | with_reducible assumption
    | lift_lets
    | (intro x; first | (refine Keeps.cut (d0 := d) (d1 := x) ?_ ?_; (on_goal 1 => subst x); (on_goal 2 => (intro _; clear_value x))) | subst x)
    | (apply Keeps.step; with_reducible apply Dev.put_keeps)
    | (apply Keeps.step; with_reducible apply Dev.bump_keeps)
    | (apply Keeps.step; with_reducible apply Dev.onCan_keeps)
    | (with_reducible apply Keeps.ite <;> intro _)
    | split
    | beta_reduce)

theorem Dev.mailbox_keeps (d : Dev) (l : Nat) (r : RxRec) : Keeps ⟨false, [], [.mb, .cn]⟩ d (Dev.mailbox d l r) := by
  unfold Dev.mailbox
  repeat' (first
    | with_reducible exact Keeps.refl _ _
    | decide +kernel
    | with_reducible assumption
    | lift_lets
    | (intro x; first | (refine Keeps.cut (d0 := d) (d1 := x) ?_ ?_; (on_goal 1 => subst x); (on_goal 2 => (intro _; clear_value x))) | subst x)
    | (apply Keeps.step; with_reducible apply Dev.setFlow_keeps)
    | (apply Keeps.step; with_reducible apply Dev.issue_keeps))

end Sys2Proof.Machine
end

