-- ==== Sys2Proof/Laws/KeepsCan.lean ====
section
/-! SUPPORT. What the effects of Can.lean keep. -/

namespace Sys2Proof.Machine

set_option Elab.async false

theorem Dev.awaitSlot_keeps (d : Dev) (q i : Nat) (x : Descr) (bs : List Byte) : Keeps ⟨false, [], [.cn]⟩ d (Dev.awaitSlot d q i x bs) := by
  unfold Dev.awaitSlot
  repeat' (first
    | with_reducible exact Keeps.refl _ _
    | decide +kernel
    | (apply Keeps.step; with_reducible apply Dev.onCan_keeps))

theorem Dev.canTx_keeps (d : Dev) (q i : Nat) (x : Descr) (data : List Byte) : Keeps ⟨false, [F.SC_TM_STAT_last_status, F.SC_TM_CNT_refusals, F.SC_CH_STAT_last_status, F.SC_LV_STAT_last_status, F.SC_DR_STAT_last_status, F.HI_QP_CTRL_draining, F.HI_QP_FLAGS_in_flight, F.CN_STAT_slots, F.FL_FV_TX_LO, F.FL_FV_TX_HI, F.FLT_STAT_lost, F.FLT_LOST], [.hi, .cn, .flt]⟩ d (Dev.canTx d q i x data) := by
  unfold Dev.canTx
  repeat' (first
    | with_reducible exact Keeps.refl _ _
    | decide +kernel
    | with_reducible assumption
    | lift_lets
    | (intro x; first | (refine Keeps.cut (d0 := d) (d1 := x) ?_ ?_; (on_goal 1 => subst x); (on_goal 2 => (intro _; clear_value x))) | subst x)
    | (apply Keeps.step; with_reducible apply Dev.wr64_keeps)
    | (apply Keeps.step; with_reducible apply Dev.finish_keeps)
    | (apply Keeps.step; with_reducible apply Dev.awaitSlot_keeps)
    | (with_reducible apply Keeps.ite <;> intro _)
    | split
    | beta_reduce)

theorem execCanTx_runs (t : Nat) (q : Fin 64) (i : Nat) (data : List Byte) (s : State) :
    Runs ⟨false, [F.SC_TM_STAT_last_status, F.SC_TM_CNT_refusals, F.SC_CH_STAT_last_status, F.SC_LV_STAT_last_status, F.SC_DR_STAT_last_status, F.HI_QP_CTRL_draining, F.HI_QP_FLAGS_in_flight, F.CN_STAT_slots, F.FL_FV_TX_LO, F.FL_FV_TX_HI, F.FLT_STAT_lost, F.FLT_LOST], [.hi, .cn, .flt]⟩ t s (execCanTx t q i data s) := by
  unfold execCanTx
  refine Runs.of fun d => ?_
  repeat' (first
    | with_reducible exact Keeps.refl _ _
    | decide +kernel
    | with_reducible assumption
    | lift_lets
    | (intro x; first | (refine Keeps.cut (d0 := d) (d1 := x) ?_ ?_; (on_goal 1 => subst x); (on_goal 2 => (intro _; clear_value x))) | subst x)
    | (apply Keeps.step; with_reducible apply Dev.finish_keeps)
    | (apply Keeps.step; with_reducible apply Dev.canTx_keeps)
    | (with_reducible apply Keeps.ite <;> intro _)
    | split
    | beta_reduce)

theorem execSlotLoad_runs (t : Nat) (c : Fin 8) (s : State) : Runs ⟨false, [F.HI_QP_CTRL_draining, F.HI_QP_FLAGS_in_flight, F.CN_STAT_slots], [.hi, .cn]⟩ t s (execSlotLoad t c s) := by
  unfold execSlotLoad
  refine Runs.of fun d => ?_
  dsimp only
  split
  · split
    · exact Keeps.ite (fun _ => (((Dev.setCan_keeps ..).le.trans (Dev.onItem_keeps ..).le).trans (Dev.showQp_keeps ..).le).trans
        (Dev.showSlots_keeps ..).le) fun _ => Keeps.refl _ _
    · exact Keeps.refl _ _
  · exact Keeps.refl _ _

theorem execFrameTxEnd_runs (t : Nat) (c : Fin 8) (a : TxAttempt) (sof : Nat) (s : State) :
    Runs ⟨false, [F.TB_GT_STAT_state, F.TB_GT_STAT_gt_valid, F.SC_TM_STAT_last_status, F.SC_TM_CNT_refusals, F.SC_CH_STAT_last_status, F.SC_LV_STAT_last_status, F.SC_DR_STAT_last_status, F.HI_QP_CTRL_draining, F.HI_QP_FLAGS_in_flight, F.CN_STAT_state, F.CN_STAT_slots, F.CN_STAT_tec, F.CN_STAT_rec, F.CN_CNT_bus_off, F.CN_CNT_no_ack, F.CN_TT_STAT_state, F.CN_TT_STAT_gt_valid, F.FL_STAT_last_status, F.FL_STAT_frames, F.FLT_STAT_lost, F.FLT_LOST], [.hi, .cn, .flt]⟩ t s (execFrameTxEnd t c a sof s) := by
  unfold execFrameTxEnd
  refine Runs.of fun d => ?_
  split
  · exact Keeps.refl _ _
  · refine Keeps.ite (fun _ => ?_) fun _ => Keeps.refl _ _
    extract_lets st _ d1 d2 d3
    have k1 : Keeps ⟨false, [F.TB_GT_STAT_state, F.TB_GT_STAT_gt_valid, F.SC_TM_STAT_last_status, F.SC_TM_CNT_refusals, F.SC_CH_STAT_last_status, F.SC_LV_STAT_last_status, F.SC_DR_STAT_last_status, F.HI_QP_CTRL_draining, F.HI_QP_FLAGS_in_flight, F.CN_STAT_state, F.CN_STAT_slots, F.CN_STAT_tec, F.CN_STAT_rec, F.CN_CNT_bus_off, F.CN_CNT_no_ack, F.CN_TT_STAT_state, F.CN_TT_STAT_gt_valid, F.FL_STAT_last_status, F.FL_STAT_frames, F.FLT_STAT_lost, F.FLT_LOST], [.hi, .cn, .flt]⟩ d d1 := (Dev.finish_keeps ..).le
    have k2 : Keeps ⟨false, [F.TB_GT_STAT_state, F.TB_GT_STAT_gt_valid, F.SC_TM_STAT_last_status, F.SC_TM_CNT_refusals, F.SC_CH_STAT_last_status, F.SC_LV_STAT_last_status, F.SC_DR_STAT_last_status, F.HI_QP_CTRL_draining, F.HI_QP_FLAGS_in_flight, F.CN_STAT_state, F.CN_STAT_slots, F.CN_STAT_tec, F.CN_STAT_rec, F.CN_CNT_bus_off, F.CN_CNT_no_ack, F.CN_TT_STAT_state, F.CN_TT_STAT_gt_valid, F.FL_STAT_last_status, F.FL_STAT_frames, F.FLT_STAT_lost, F.FLT_LOST], [.hi, .cn, .flt]⟩ d d2 := k1.trans (Dev.wr_keeps _ _ _ _ (by decide +kernel)).le
    have k3 : Keeps ⟨false, [F.TB_GT_STAT_state, F.TB_GT_STAT_gt_valid, F.SC_TM_STAT_last_status, F.SC_TM_CNT_refusals, F.SC_CH_STAT_last_status, F.SC_LV_STAT_last_status, F.SC_DR_STAT_last_status, F.HI_QP_CTRL_draining, F.HI_QP_FLAGS_in_flight, F.CN_STAT_state, F.CN_STAT_slots, F.CN_STAT_tec, F.CN_STAT_rec, F.CN_CNT_bus_off, F.CN_CNT_no_ack, F.CN_TT_STAT_state, F.CN_TT_STAT_gt_valid, F.FL_STAT_last_status, F.FL_STAT_frames, F.FLT_STAT_lost, F.FLT_LOST], [.hi, .cn, .flt]⟩ d d3 := k2.trans (Keeps.ite (fun _ => (Dev.wr_keeps _ _ _ _ (by decide +kernel)).le) fun _ => Keeps.refl _ _)
    exact k3.trans (Dev.attempt_keeps ..).le

theorem execCanRxbuf_runs (t : Nat) (q : Fin 64) (i : Nat) (s : State) :
    Runs ⟨false, [F.SC_TM_STAT_last_status, F.SC_TM_CNT_refusals, F.SC_CH_STAT_last_status, F.SC_LV_STAT_last_status, F.SC_DR_STAT_last_status, F.HI_QP_CTRL_draining, F.HI_QP_FLAGS_in_flight, F.CN_STAT_slots, F.FLT_STAT_lost, F.FLT_LOST], [.hi, .cn, .flt]⟩ t s (execCanRxbuf t q i s) := by
  unfold execCanRxbuf
  refine Runs.of fun d => ?_
  repeat' (first
    | with_reducible exact Keeps.refl _ _
    | decide +kernel
    | (intro _ _ k; exact k.le)
    | (apply Keeps.stepSame; with_reducible apply Dev.startItem_keeps; intro e _))

theorem Dev.acceptFrame_keeps (d : Dev) (c l sof : Nat) (f : CanFrame) (data : List Byte) (fv : Nat) : Keeps ⟨false, [F.HI_QP_FLAGS_lost, F.HI_QP_LOST, F.FL_FV_RX_LO, F.FL_FV_RX_HI, F.FL_STAT_stale, F.FL_STAT_last_status, F.FL_STAT_frames, F.FL_LAST_LO, F.FL_LAST_HI, F.FLT_STAT_lost, F.FLT_LOST], [.mb, .cn, .flt]⟩ d (Dev.acceptFrame d c l sof f data fv) := by
  unfold Dev.acceptFrame
  repeat' (first
    | with_reducible exact Keeps.refl _ _
    | decide +kernel
    | with_reducible assumption
    | lift_lets
    | (intro x; first | (refine Keeps.cut (d0 := d) (d1 := x) ?_ ?_; (on_goal 1 => subst x); (on_goal 2 => (intro _; clear_value x))) | subst x)
    | (apply Keeps.step; with_reducible apply Dev.wr_keeps)
    | (apply Keeps.step; with_reducible apply Dev.put_keeps)
    | (apply Keeps.step; with_reducible apply Dev.wr64_keeps)
    | (apply Keeps.step; with_reducible apply Dev.setFlow_keeps)
    | (apply Keeps.step; with_reducible apply Dev.report_keeps)
    | (apply Keeps.step; with_reducible apply Dev.reportOpen_keeps)
    | (apply Keeps.step; with_reducible apply Dev.onCan_keeps)
    | (apply Keeps.step; with_reducible apply Dev.pushRx_keeps)
    | (apply Keeps.step; with_reducible apply Dev.mailbox_keeps)
    | (with_reducible apply Keeps.ite <;> intro _)
    | split)

theorem Dev.failFrame_keeps (d : Dev) (c l sof st : Nat) (f : CanFrame) : Keeps ⟨false, [F.HI_QP_FLAGS_lost, F.HI_QP_LOST, F.FL_STAT_auth, F.FL_STAT_replay, F.FL_STAT_last_status, F.FL_CNT_auth, F.FL_CNT_replay, F.FLT_STAT_lost, F.FLT_LOST], [.cn, .flt]⟩ d (Dev.failFrame d c l sof st f) := by
  unfold Dev.failFrame
  repeat' (first
    | with_reducible exact Keeps.refl _ _
    | decide +kernel
    | with_reducible assumption
    | lift_lets
    | (intro x; first | (refine Keeps.cut (d0 := d) (d1 := x) ?_ ?_; (on_goal 1 => subst x); (on_goal 2 => (intro _; clear_value x))) | subst x)
    | (apply Keeps.step; with_reducible apply Dev.wr_keeps)
    | (apply Keeps.step; with_reducible apply Dev.put_keeps)
    | (apply Keeps.step; with_reducible apply Dev.bump_keeps)
    | (apply Keeps.step; with_reducible apply Dev.report_keeps)
    | (apply Keeps.step; with_reducible apply Dev.reportOpen_keeps)
    | (apply Keeps.step; with_reducible apply Dev.pushRx_keeps)
    | (with_reducible apply Keeps.ite <;> intro _)
    | split)

theorem Dev.reference_keeps (d : Dev) (c sof prio : Nat) (m : RefMark) : Keeps ⟨false, [F.TB_GT_STAT_state, F.TB_GT_STAT_jump, F.TB_GT_STAT_gt_valid, F.TB_GT_ERR, F.TB_RATE, F.CN_TT_STAT_state, F.CN_TT_STAT_gt_valid, F.CN_TT_STAT_cycle_count, F.CN_TT_STAT_master_prio, F.CN_TT_GT_LO, F.CN_TT_GT_HI], [.tb, .cn]⟩ d (Dev.reference d c sof prio m) := by
  unfold Dev.reference
  repeat' (first
    | with_reducible exact Keeps.refl _ _
    | decide +kernel
    | with_reducible assumption
    | lift_lets
    | (intro x; first | (refine Keeps.cut (d0 := d) (d1 := x) ?_ ?_; (on_goal 1 => subst x); (on_goal 2 => (intro _; clear_value x))) | subst x)
    | (apply Keeps.step; with_reducible apply Dev.wr_keeps)
    | (apply Keeps.step; with_reducible apply Dev.onCan_keeps)
    | (apply Keeps.step; with_reducible apply Dev.ttCheck_keeps)
    | (apply Keeps.step; with_reducible apply Dev.ttMark_keeps)
    | (with_reducible apply Keeps.ite <;> intro _)
    | split)

theorem execFrameReceive_runs (t : Nat) (c : Fin 8) (f : CanFrame) (sof : Nat) (s : State) :
    Runs ⟨false, [F.TB_GT_STAT_state, F.TB_GT_STAT_jump, F.TB_GT_STAT_gt_valid, F.TB_GT_ERR, F.TB_RATE, F.SC_TM_STAT_last_status, F.SC_TM_CNT_refusals, F.SC_CH_STAT_last_status, F.SC_LV_STAT_last_status, F.SC_DR_STAT_last_status, F.HI_QP_CTRL_draining, F.HI_QP_FLAGS_lost, F.HI_QP_FLAGS_in_flight, F.HI_QP_LOST, F.CN_STAT_state, F.CN_STAT_slots, F.CN_STAT_tec, F.CN_STAT_rec, F.CN_CNT_bus_off, F.CN_CNT_unmatched, F.CN_TT_STAT_state, F.CN_TT_STAT_gt_valid, F.CN_TT_STAT_cycle_count, F.CN_TT_STAT_master_prio, F.CN_TT_GT_LO, F.CN_TT_GT_HI, F.FL_FV_RX_LO, F.FL_FV_RX_HI, F.FL_STAT_stale, F.FL_STAT_auth, F.FL_STAT_replay, F.FL_STAT_last_status, F.FL_STAT_frames, F.FL_CNT_auth, F.FL_CNT_replay, F.FL_LAST_LO, F.FL_LAST_HI, F.FLT_STAT_lost, F.FLT_LOST], [.tb, .mb, .hi, .cn, .flt]⟩ t s (execFrameReceive t c f sof s) := by
  unfold execFrameReceive
  refine Runs.of fun d => ?_
  repeat' (first
    | with_reducible exact Keeps.refl _ _
    | decide +kernel
    | with_reducible assumption
    | lift_lets
    | (intro x; first | (refine Keeps.cut (d0 := d) (d1 := x) ?_ ?_; (on_goal 1 => subst x); (on_goal 2 => (intro _; clear_value x))) | subst x)
    | (apply Keeps.step; with_reducible apply Dev.bump_keeps)
    | (apply Keeps.step; with_reducible apply Dev.errorCounts_keeps)
    | (apply Keeps.step; with_reducible apply Dev.reintegrate_keeps)
    | (apply Keeps.step; with_reducible apply Dev.acceptFrame_keeps)
    | (apply Keeps.step; with_reducible apply Dev.failFrame_keeps)
    | (apply Keeps.step; with_reducible apply Dev.reference_keeps)
    | (with_reducible apply Keeps.ite <;> intro _)
    | split
    | beta_reduce)

theorem execFlowStale_runs (t : Nat) (l : Fin 256) (s : State) :
    Runs ⟨false, [F.FL_STAT_stale, F.FLT_STAT_lost, F.FLT_LOST], [.flt]⟩ t s (execFlowStale t l s) := by
  unfold execFlowStale
  refine Runs.of fun d => ?_
  repeat' (first
    | with_reducible exact Keeps.refl _ _
    | decide +kernel
    | (apply Keeps.step; with_reducible apply Dev.put_keeps)
    | (apply Keeps.step; with_reducible apply Dev.report_keeps)
    | (apply Keeps.step; with_reducible apply Dev.reportOpen_keeps)
    | (with_reducible apply Keeps.ite <;> intro _)
    | split)

theorem execIntegrationDone_runs (t : Nat) (c : Fin 8) (s : State) :
    Runs ⟨false, [F.TB_GT_STAT_state, F.TB_GT_STAT_gt_valid, F.SC_TM_STAT_last_status, F.SC_TM_CNT_refusals, F.SC_CH_STAT_last_status, F.SC_LV_STAT_last_status, F.SC_DR_STAT_last_status, F.HI_QP_CTRL_draining, F.HI_QP_FLAGS_in_flight, F.CN_STAT_state, F.CN_STAT_slots, F.CN_STAT_tec, F.CN_STAT_rec, F.CN_CNT_bus_off, F.CN_TT_STAT_state, F.CN_TT_STAT_gt_valid, F.FLT_STAT_lost, F.FLT_LOST], [.hi, .cn, .flt]⟩ t s (execIntegrationDone t c s) := by
  unfold execIntegrationDone
  refine Runs.of fun d => ?_
  repeat' (first
    | with_reducible exact Keeps.refl _ _
    | decide +kernel
    | (apply Keeps.step; with_reducible apply Dev.wr_keeps)
    | (apply Keeps.step; with_reducible apply Dev.ttCheck_keeps)
    | (apply Keeps.step; with_reducible apply Dev.errorCounts_keeps)
    | (with_reducible apply Keeps.ite <;> intro _)
    | split)

theorem Dev.canCommand_keeps (d : Dev) (m : Master) (c cmd : Nat) : Keeps ⟨false, [F.FAB_WRITE_ERR, F.FAB_WRITE_ERR_more, F.FAB_WRITE_DATA, F.FAB_WRITE_CNT, F.CN_CTRL_cmd, F.CN_CTRL_pending, F.CN_STAT_state], []⟩ d (Dev.canCommand d m c cmd) := by
  unfold Dev.canCommand
  repeat' (first
    | with_reducible exact Keeps.refl _ _
    | decide +kernel
    | (apply Keeps.step; with_reducible apply Dev.wr_keeps)
    | (apply Keeps.step; with_reducible apply Dev.put_keeps)
    | (apply Keeps.step; with_reducible apply Dev.reject_keeps)
    | (with_reducible apply Keeps.ite <;> intro _)
    | split)

theorem execRecover_runs (t : Nat) (m : Master) (c : Fin 8) (s : State) :
    Runs ⟨false, [F.FAB_WRITE_ERR, F.FAB_WRITE_ERR_more, F.FAB_WRITE_DATA, F.FAB_WRITE_CNT, F.CN_CTRL_cmd, F.CN_CTRL_pending, F.CN_STAT_state], []⟩ t s (execRecover t m c s) := by
  unfold execRecover fromMaster
  refine Runs.of fun d => ?_
  repeat' (first
    | with_reducible exact Keeps.refl _ _
    | decide +kernel
    | (apply Keeps.step; with_reducible apply Dev.canCommand_keeps)
    | (with_reducible apply Keeps.ite <;> intro _)
    | beta_reduce)

theorem execRecoveryComplete_runs (t : Nat) (c : Fin 8) (s : State) :
    Runs ⟨false, [F.TB_GT_STAT_state, F.TB_GT_STAT_gt_valid, F.CN_CTRL_status, F.CN_CTRL_pending, F.CN_STAT_state, F.CN_STAT_tec, F.CN_STAT_rec, F.CN_TT_STAT_state, F.CN_TT_STAT_gt_valid], [.cn]⟩ t s (execRecoveryComplete t c s) := by
  unfold execRecoveryComplete
  refine Runs.of fun d => ?_
  repeat' (first
    | with_reducible exact Keeps.refl _ _
    | decide +kernel
    | with_reducible assumption
    | lift_lets
    | (intro x; first | (refine Keeps.cut (d0 := d) (d1 := x) ?_ ?_; (on_goal 1 => subst x); (on_goal 2 => (intro _; clear_value x))) | subst x)
    | (apply Keeps.step; with_reducible apply Dev.wr_keeps)
    | (apply Keeps.step; with_reducible apply Dev.put_keeps)
    | (apply Keeps.step; with_reducible apply Dev.ttStart_keeps)
    | (with_reducible apply Keeps.ite <;> intro _)
    | split)

theorem execReceiveError_runs (t : Nat) (c : Fin 8) (e : RxError) (s : State) :
    Runs ⟨false, [F.TB_GT_STAT_state, F.TB_GT_STAT_gt_valid, F.SC_TM_STAT_last_status, F.SC_TM_CNT_refusals, F.SC_CH_STAT_last_status, F.SC_LV_STAT_last_status, F.SC_DR_STAT_last_status, F.HI_QP_CTRL_draining, F.HI_QP_FLAGS_in_flight, F.CN_STAT_state, F.CN_STAT_slots, F.CN_STAT_tec, F.CN_STAT_rec, F.CN_CNT_bus_off, F.CN_TT_STAT_state, F.CN_TT_STAT_gt_valid, F.FLT_STAT_lost, F.FLT_LOST], [.hi, .cn, .flt]⟩ t s (execReceiveError t c e s) := by
  unfold execReceiveError
  refine Runs.of fun d => ?_
  repeat' (first
    | with_reducible exact Keeps.refl _ _
    | decide +kernel
    | (apply Keeps.step; with_reducible apply Dev.errorCounts_keeps)
    | (apply Keeps.step; with_reducible apply Dev.reintegrate_keeps)
    | (with_reducible apply Keeps.ite <;> intro _)
    | split)

theorem execTtTrigger_runs (t : Nat) (c : Fin 8) (n : Fin 32) (s : State) :
    Runs ⟨false, [F.CN_TT_STAT_missed, F.FL_STAT_missed, F.FLT_STAT_lost, F.FLT_LOST], [.cn, .flt]⟩ t s (execTtTrigger t c n s) := by
  unfold execTtTrigger
  refine Runs.of fun d => ?_
  repeat' (first
    | with_reducible exact Keeps.refl _ _
    | decide +kernel
    | with_reducible assumption
    | lift_lets
    | (intro x; first | (refine Keeps.cut (d0 := d) (d1 := x) ?_ ?_; (on_goal 1 => subst x); (on_goal 2 => (intro _; clear_value x))) | subst x)
    | (apply Keeps.step; with_reducible apply Dev.put_keeps)
    | (apply Keeps.step; with_reducible apply Dev.report_keeps)
    | (apply Keeps.step; with_reducible apply Dev.reportOpen_keeps)
    | (apply Keeps.step; with_reducible apply Dev.onCan_keeps)
    | (with_reducible apply Keeps.ite <;> intro _)
    | split)

theorem execMissedWindow_runs (t : Nat) (c : Fin 8) (k : Fin 3) (s : State) :
    Runs ⟨false, [F.SC_TM_STAT_last_status, F.SC_TM_CNT_refusals, F.SC_CH_STAT_last_status, F.SC_LV_STAT_last_status, F.SC_DR_STAT_last_status, F.HI_QP_CTRL_draining, F.HI_QP_FLAGS_in_flight, F.CN_STAT_slots, F.CN_TT_STAT_missed, F.FL_STAT_last_status, F.FLT_STAT_lost, F.FLT_LOST], [.hi, .cn, .flt]⟩ t s (execMissedWindow t c k s) := by
  unfold execMissedWindow
  refine Runs.of fun d => ?_
  repeat' (first
    | with_reducible exact Keeps.refl _ _
    | decide +kernel
    | with_reducible assumption
    | lift_lets
    | (intro x; first | (refine Keeps.cut (d0 := d) (d1 := x) ?_ ?_; (on_goal 1 => subst x); (on_goal 2 => (intro _; clear_value x))) | subst x)
    | (apply Keeps.step; with_reducible apply Dev.wr_keeps)
    | (apply Keeps.step; with_reducible apply Dev.put_keeps)
    | (apply Keeps.step; with_reducible apply Dev.finish_keeps)
    | (with_reducible apply Keeps.ite <;> intro _)
    | split
    | beta_reduce)

theorem Dev.lead_keeps (d : Dev) (c sof : Nat) : Keeps ⟨false, [F.TB_GT_STAT_state, F.TB_GT_STAT_jump, F.TB_GT_STAT_gt_valid, F.TB_GT_ERR, F.TB_RATE, F.CN_TT_STAT_state, F.CN_TT_STAT_gt_valid, F.CN_TT_STAT_cycle_count, F.CN_TT_STAT_master_prio, F.CN_TT_GT_LO, F.CN_TT_GT_HI], [.tb, .cn]⟩ d (Dev.lead d c sof) := by
  unfold Dev.lead
  repeat' (first
    | with_reducible exact Keeps.refl _ _
    | decide +kernel
    | with_reducible assumption
    | lift_lets
    | (intro x; first | (refine Keeps.cut (d0 := d) (d1 := x) ?_ ?_; (on_goal 1 => subst x); (on_goal 2 => (intro _; clear_value x))) | subst x)
    | (apply Keeps.step; with_reducible apply Dev.wr_keeps)
    | (apply Keeps.step; with_reducible apply Dev.onCan_keeps)
    | (apply Keeps.step; with_reducible apply Dev.ttCheck_keeps)
    | (apply Keeps.step; with_reducible apply Dev.ttExtended_keeps)
    | (with_reducible apply Keeps.ite <;> intro _)
    | split)

theorem Dev.yieldLead_keeps (d : Dev) (c : Nat) : Keeps ⟨false, [F.TB_GT_STAT_state, F.TB_GT_STAT_gt_valid, F.CN_TT_STAT_state, F.CN_TT_STAT_gt_valid], [.cn]⟩ d (Dev.yieldLead d c) := by
  unfold Dev.yieldLead
  repeat' (first
    | with_reducible exact Keeps.refl _ _
    | decide +kernel
    | with_reducible assumption
    | lift_lets
    | (intro x; first | (refine Keeps.cut (d0 := d) (d1 := x) ?_ ?_; (on_goal 1 => subst x); (on_goal 2 => (intro _; clear_value x))) | subst x)
    | (apply Keeps.step; with_reducible apply Dev.wr_keeps)
    | (apply Keeps.step; with_reducible apply Dev.onCan_keeps)
    | (apply Keeps.step; with_reducible apply Dev.ttCheck_keeps)
    | (with_reducible apply Keeps.ite <;> intro _)
    | split)

theorem execTtReferenceSend_runs (t : Nat) (c : Fin 8) (a : TxAttempt) (sof : Nat) (s : State) :
    Runs ⟨false, [F.TB_GT_STAT_state, F.TB_GT_STAT_jump, F.TB_GT_STAT_gt_valid, F.TB_GT_ERR, F.TB_RATE, F.SC_TM_STAT_last_status, F.SC_TM_CNT_refusals, F.SC_CH_STAT_last_status, F.SC_LV_STAT_last_status, F.SC_DR_STAT_last_status, F.HI_QP_CTRL_draining, F.HI_QP_FLAGS_in_flight, F.CN_STAT_state, F.CN_STAT_slots, F.CN_STAT_tec, F.CN_STAT_rec, F.CN_CNT_bus_off, F.CN_CNT_no_ack, F.CN_TT_STAT_state, F.CN_TT_STAT_gt_valid, F.CN_TT_STAT_cycle_count, F.CN_TT_STAT_master_prio, F.CN_TT_GT_LO, F.CN_TT_GT_HI, F.FLT_STAT_lost, F.FLT_LOST], [.tb, .hi, .cn, .flt]⟩ t s (execTtReferenceSend t c a sof s) := by
  unfold execTtReferenceSend
  refine Runs.of fun d => ?_
  repeat' (first
    | with_reducible exact Keeps.refl _ _
    | decide +kernel
    | with_reducible assumption
    | lift_lets
    | (intro x; first | (refine Keeps.cut (d0 := d) (d1 := x) ?_ ?_; (on_goal 1 => subst x); (on_goal 2 => (intro _; clear_value x))) | subst x)
    | (apply Keeps.step; with_reducible apply Dev.attempt_keeps)
    | (apply Keeps.step; with_reducible apply Dev.lead_keeps)
    | (apply Keeps.step; with_reducible apply Dev.yieldLead_keeps)
    | (with_reducible apply Keeps.ite <;> intro _)
    | split
    | beta_reduce)

theorem execListenEnd_runs (t : Nat) (c : Fin 8) (s : State) :
    Runs ⟨false, [F.TB_GT_STAT_state, F.TB_GT_STAT_gt_valid, F.CN_TT_STAT_state, F.CN_TT_STAT_gt_valid], [.cn]⟩ t s (execListenEnd t c s) := by
  unfold execListenEnd
  refine Runs.of fun d => ?_
  repeat' (first
    | with_reducible exact Keeps.refl _ _
    | decide +kernel
    | with_reducible assumption
    | lift_lets
    | (intro x; first | (refine Keeps.cut (d0 := d) (d1 := x) ?_ ?_; (on_goal 1 => subst x); (on_goal 2 => (intro _; clear_value x))) | subst x)
    | (apply Keeps.step; with_reducible apply Dev.wr_keeps)
    | (apply Keeps.step; with_reducible apply Dev.onCan_keeps)
    | (apply Keeps.step; with_reducible apply Dev.ttCheck_keeps)
    | (with_reducible apply Keeps.ite <;> intro _)
    | split)

theorem execMasterLost_runs (t : Nat) (c : Fin 8) (s : State) :
    Runs ⟨false, [F.TB_GT_STAT_state, F.TB_GT_STAT_gt_valid, F.CN_TT_STAT_gt_valid, F.CN_TT_STAT_master_lost], [.cn]⟩ t s (execMasterLost t c s) := by
  unfold execMasterLost
  refine Runs.of fun d => ?_
  repeat' (first
    | with_reducible exact Keeps.refl _ _
    | decide +kernel
    | with_reducible assumption
    | lift_lets
    | (intro x; first | (refine Keeps.cut (d0 := d) (d1 := x) ?_ ?_; (on_goal 1 => subst x); (on_goal 2 => (intro _; clear_value x))) | subst x)
    | (apply Keeps.step; with_reducible apply Dev.put_keeps)
    | (apply Keeps.step; with_reducible apply Dev.onCan_keeps)
    | (apply Keeps.step; with_reducible apply Dev.ttCheck_keeps)
    | (with_reducible apply Keeps.ite <;> intro _)
    | split)

end Sys2Proof.Machine
end

