-- ==== Sys2Proof/Laws/KeepsConverters.lean ====
section
/-! SUPPORT. What the effects of Converters.lean keep. -/

namespace Sys2Proof.Machine

set_option Elab.async false

theorem Dev.startPass_keeps (d : Dev) (c : Nat) : Keeps ⟨false, [F.CV_STAT_busy, F.CV_STAT_entry], [.cv]⟩ d (Dev.startPass d c) := by
  unfold Dev.startPass
  repeat' (first
    | with_reducible exact Keeps.refl _ _
    | decide +kernel
    | with_reducible assumption
    | lift_lets
    | (intro x; first | (refine Keeps.cut (d0 := d) (d1 := x) ?_ ?_; (on_goal 1 => subst x); (on_goal 2 => (intro _; clear_value x))) | subst x)
    | (apply Keeps.step; with_reducible apply Dev.wr_keeps)
    | (apply Keeps.step; with_reducible apply Dev.put_keeps)
    | (apply Keeps.step; with_reducible apply Dev.setConv_keeps)
    | (with_reducible apply Keeps.ite <;> intro _)
    | split)

theorem Dev.nextEntry_keeps (d : Dev) (c : Nat) : Keeps ⟨false, [F.CV_STAT_busy, F.CV_STAT_entry], [.cv]⟩ d (Dev.nextEntry d c) := by
  unfold Dev.nextEntry
  repeat' (first
    | with_reducible exact Keeps.refl _ _
    | decide +kernel
    | with_reducible assumption
    | lift_lets
    | (intro x; first | (refine Keeps.cut (d0 := d) (d1 := x) ?_ ?_; (on_goal 1 => subst x); (on_goal 2 => (intro _; clear_value x))) | subst x)
    | (apply Keeps.step; with_reducible apply Dev.wr_keeps)
    | (apply Keeps.step; with_reducible apply Dev.put_keeps)
    | (apply Keeps.step; with_reducible apply Dev.setConv_keeps)
    | (apply Keeps.step; with_reducible apply Dev.startPass_keeps)
    | (with_reducible apply Keeps.ite <;> intro _)
    | split)

theorem Dev.deliver_keeps (d : Dev) (c e : Nat) (code : Int) (sat : Bool) (hold : Nat) : Keeps ⟨false, [F.CV_STAT_dac_mismatch, F.CV_RES, F.CV_RAW_code, F.CV_RAW_valid, F.CV_RAW_sat, F.CV_RAW_pass, F.CV_STAMP, F.WM_STAT_dac_err, F.SC_CH_STAT_cable, F.SC_CH_PP_OHM_ohm, F.FLT_STAT_lost, F.FLT_LOST], [.ch, .flt]⟩ d (Dev.deliver d c e code sat hold) := by
  unfold Dev.deliver
  repeat' (first
    | with_reducible exact Keeps.refl _ _
    | decide +kernel
    | with_reducible assumption
    | lift_lets
    | (intro x; first | (refine Keeps.cut (d0 := d) (d1 := x) ?_ ?_; (on_goal 1 => subst x); (on_goal 2 => (intro _; clear_value x))) | subst x)
    | (apply Keeps.step; with_reducible apply Dev.wr2_keeps)
    | (apply Keeps.step; with_reducible apply Dev.put_keeps)
    | (apply Keeps.step; with_reducible apply Dev.report_keeps)
    | (apply Keeps.step; with_reducible apply Dev.reportOpen_keeps)
    | (apply Keeps.step; with_reducible apply Dev.noteResult_keeps)
    | (with_reducible apply Keeps.ite <;> intro _)
    | split
    | beta_reduce)

theorem Dev.seqDone_keeps (d : Dev) (c code hold : Nat) : Keeps ⟨false, [F.CV_STAT_busy, F.CV_STAT_urgent, F.CV_STAT_entry, F.CV_STAT_broken, F.CV_STAT_dac_mismatch, F.CV_RES, F.CV_RAW_code, F.CV_RAW_valid, F.CV_RAW_broken, F.CV_RAW_sat, F.CV_RAW_pass, F.CV_STAMP, F.WM_STAT_dac_err, F.SC_CH_STAT_cable, F.SC_CH_PP_OHM_ohm, F.FLT_STAT_lost, F.FLT_LOST], [.cv, .ch, .flt]⟩ d (Dev.seqDone d c code hold) := by
  unfold Dev.seqDone
  repeat' (first
    | with_reducible exact Keeps.refl _ _
    | decide +kernel
    | with_reducible assumption
    | lift_lets
    | (intro x; first | (refine Keeps.cut (d0 := d) (d1 := x) ?_ ?_; (on_goal 1 => subst x); (on_goal 2 => (intro _; clear_value x))) | subst x)
    | (apply Keeps.step; with_reducible apply Dev.wr2_keeps)
    | (apply Keeps.step; with_reducible apply Dev.put_keeps)
    | (apply Keeps.step; with_reducible apply Dev.setConv_keeps)
    | (apply Keeps.step; with_reducible apply Dev.report_keeps)
    | (apply Keeps.step; with_reducible apply Dev.takeTriggers_keeps)
    | (apply Keeps.step; with_reducible apply Dev.nextEntry_keeps)
    | (apply Keeps.step; with_reducible apply Dev.deliver_keeps)
    | (with_reducible apply Keeps.ite <;> intro _)
    | split)

theorem Dev.urge_keeps (d : Dev) (c : Nat) (w : Word) : Keeps ⟨false, [F.FAB_WRITE_ERR, F.FAB_WRITE_ERR_more, F.FAB_WRITE_DATA, F.FAB_WRITE_CNT, F.CV_STAT_urgent, F.CV_URG_kind, F.CV_URG_index, F.CV_URG_busy, F.CV_URG_status], [.cv]⟩ d (Dev.urge d c w) := by
  unfold Dev.urge
  repeat' (first
    | with_reducible exact Keeps.refl _ _
    | decide +kernel
    | with_reducible assumption
    | lift_lets
    | (intro x; first | (refine Keeps.cut (d0 := d) (d1 := x) ?_ ?_; (on_goal 1 => subst x); (on_goal 2 => (intro _; clear_value x))) | subst x)
    | (apply Keeps.step; with_reducible apply Dev.wr_keeps)
    | (apply Keeps.step; with_reducible apply Dev.put_keeps)
    | (apply Keeps.step; with_reducible apply Dev.reject_keeps)
    | (apply Keeps.step; with_reducible apply Dev.requestUrgent_keeps)
    | (apply Keeps.step; with_reducible apply Dev.takeTriggers_keeps)
    | (with_reducible apply Keeps.ite <;> intro _)
    | split)

theorem Dev.noteDac_keeps (d : Dev) (m : Nat) (hi : Bool) (code : Nat) : Keeps ⟨false, [], [.flt]⟩ d (Dev.noteDac d m hi code) := by
  unfold Dev.noteDac
  repeat' (first
    | with_reducible exact Keeps.refl _ _
    | decide +kernel
    | with_reducible assumption
    | exact id
    | lift_lets
    | (intro x; first | (refine Keeps.cut (d0 := d) (d1 := x) ?_ ?_; (on_goal 1 => subst x); (on_goal 2 => (intro _; clear_value x))) | subst x)
    | (apply Keeps.step; with_reducible apply Dev.withFlt_keeps)
    | (with_reducible apply Keeps.ite <;> intro _)
    | split)

theorem Dev.urgentDone_keeps (d : Dev) (c code : Nat) : Keeps ⟨false, [F.PP_STAT_chopper_open, F.PP_CNT_chopper_open, F.SH_RES_A, F.SH_RES_B, F.SH_INFO_A, F.SH_INFO_B, F.SH_STAMP_A_LO, F.SH_STAMP_A_HI, F.SH_STAMP_B_LO, F.SH_STAMP_B_HI, F.SH_STAT_sat, F.CV_STAT_urgent, F.CV_URG_busy, F.CV_URG_status, F.CV_URG_RES_code, F.FLT_STAT_lost, F.FLT_LOST], [.sh, .cv, .be, .flt]⟩ d (Dev.urgentDone d c code) := by
  unfold Dev.urgentDone
  repeat' (first
    | with_reducible exact Keeps.refl _ _
    | decide +kernel
    | with_reducible assumption
    | lift_lets
    | (intro x; first | (refine Keeps.cut (d0 := d) (d1 := x) ?_ ?_; (on_goal 1 => subst x); (on_goal 2 => (intro _; clear_value x))) | subst x)
    | (apply Keeps.step; with_reducible apply Dev.wr_keeps)
    | (apply Keeps.step; with_reducible apply Dev.put_keeps)
    | (apply Keeps.step; with_reducible apply Dev.takeTriggers_keeps)
    | (apply Keeps.step; with_reducible apply Dev.endUrgentConv_keeps)
    | (apply Keeps.step; with_reducible apply Dev.lightDone_keeps)
    | (apply Keeps.step; with_reducible apply Dev.calConversion_keeps)
    | (apply Keeps.step; with_reducible apply Dev.noteDac_keeps)
    | (with_reducible apply Keeps.ite <;> intro _)
    | split
    | beta_reduce)

theorem execConversionDone_runs (t : Nat) (c : Fin 6) (code hold : Nat) (s : State) :
    Runs ⟨false, [F.CV_STAT_busy, F.CV_STAT_urgent, F.CV_STAT_entry, F.CV_STAT_broken, F.CV_STAT_dac_mismatch, F.CV_RES, F.CV_RAW_code, F.CV_RAW_valid, F.CV_RAW_broken, F.CV_RAW_sat, F.CV_RAW_pass, F.CV_STAMP, F.WM_STAT_dac_err, F.SC_CH_STAT_cable, F.SC_CH_PP_OHM_ohm, F.FLT_STAT_lost, F.FLT_LOST], [.cv, .ch, .flt]⟩ t s (execConversionDone t c code hold s) := by
  unfold execConversionDone
  refine Runs.of fun d => ?_
  repeat' (first
    | with_reducible exact Keeps.refl _ _
    | decide +kernel
    | (apply Keeps.step; with_reducible apply Dev.seqDone_keeps))

theorem Dev.owSettled_keeps (d : Dev) (c : Nat) : Keeps ⟨false, [F.CV_STAT_urgent], [.cv]⟩ d (Dev.owSettled d c) := by
  unfold Dev.owSettled
  repeat' (first
    | with_reducible exact Keeps.refl _ _
    | decide +kernel
    | with_reducible assumption
    | lift_lets
    | (intro x; first | (refine Keeps.cut (d0 := d) (d1 := x) ?_ ?_; (on_goal 1 => subst x); (on_goal 2 => (intro _; clear_value x))) | subst x)
    | (apply Keeps.step; with_reducible apply Dev.setConv_keeps)
    | (apply Keeps.step; with_reducible apply Dev.takeTriggers_keeps)
    | (with_reducible apply Keeps.ite <;> intro _)
    | split)

theorem execOwSettleExpiry_runs (t : Nat) (c : Fin 6) (s : State) :
    Runs ⟨false, [F.CV_STAT_urgent], [.cv]⟩ t s (execOwSettleExpiry t c s) := by
  unfold execOwSettleExpiry
  refine Runs.of fun d => ?_
  repeat' (first
    | with_reducible exact Keeps.refl _ _
    | decide +kernel
    | (apply Keeps.step; with_reducible apply Dev.owSettled_keeps))

theorem execCvPassStart_runs (t : Nat) (c : Fin 6) (s : State) :
    Runs ⟨false, [F.CV_STAT_busy, F.CV_STAT_entry, F.CV_STAT_overrun, F.CV_STAT_overrun_cnt], [.tb, .cv]⟩ t s (execCvPassStart t c s) := by
  unfold execCvPassStart
  refine Runs.of fun d => ?_
  repeat' (first
    | with_reducible exact Keeps.refl _ _
    | decide +kernel
    | with_reducible assumption
    | lift_lets
    | (intro x; first | (refine Keeps.cut (d0 := d) (d1 := x) ?_ ?_; (on_goal 1 => subst x); (on_goal 2 => (intro _; clear_value x))) | subst x)
    | (apply Keeps.step; with_reducible apply Dev.put_keeps)
    | (apply Keeps.step; with_reducible apply Dev.bump_keeps)
    | (apply Keeps.step; with_reducible apply Dev.setFired_keeps)
    | (apply Keeps.step; with_reducible apply Dev.startPass_keeps)
    | (with_reducible apply Keeps.ite <;> intro _)
    | split
    | beta_reduce)

theorem execUrgentRequest_runs (t : Nat) (c : Fin 6) (w : Word) (s : State) :
    Runs ⟨false, [F.FAB_WRITE_ERR, F.FAB_WRITE_ERR_more, F.FAB_WRITE_DATA, F.FAB_WRITE_CNT, F.CV_STAT_urgent, F.CV_URG_kind, F.CV_URG_index, F.CV_URG_busy, F.CV_URG_status], [.cv]⟩ t s (execUrgentRequest t c w s) := by
  unfold execUrgentRequest fromFirmware
  refine Runs.of fun d => ?_
  repeat' (first
    | with_reducible exact Keeps.refl _ _
    | decide +kernel
    | (apply Keeps.step; with_reducible apply Dev.urge_keeps)
    | (with_reducible apply Keeps.ite <;> intro _)
    | beta_reduce)

theorem execUrgentConversionDone_runs (t : Nat) (c : Fin 6) (code : Nat) (s : State) :
    Runs ⟨false, [F.PP_STAT_chopper_open, F.PP_CNT_chopper_open, F.SH_RES_A, F.SH_RES_B, F.SH_INFO_A, F.SH_INFO_B, F.SH_STAMP_A_LO, F.SH_STAMP_A_HI, F.SH_STAMP_B_LO, F.SH_STAMP_B_HI, F.SH_STAT_sat, F.CV_STAT_urgent, F.CV_URG_busy, F.CV_URG_status, F.CV_URG_RES_code, F.FLT_STAT_lost, F.FLT_LOST], [.sh, .cv, .be, .flt]⟩ t s (execUrgentConversionDone t c code s) := by
  unfold execUrgentConversionDone
  refine Runs.of fun d => ?_
  repeat' (first
    | with_reducible exact Keeps.refl _ _
    | decide +kernel
    | (apply Keeps.step; with_reducible apply Dev.urgentDone_keeps))

end Sys2Proof.Machine
end

