-- ==== Sys2Proof/Laws/KeepsLedger.lean ====
section
/-! SUPPORT. What the effects of Ledger.lean keep. -/

namespace Sys2Proof.Machine

set_option Elab.async false

theorem Dev.setSlot_keeps (d : Dev) (k : Nat) (e : Option Entry) : Keeps ⟨false, [], [.flt]⟩ d (Dev.setSlot d k e) := by
  unfold Dev.setSlot
  repeat' (first
    | with_reducible exact Keeps.refl _ _
    | decide +kernel
    | exact id
    | (apply Keeps.step; with_reducible apply Dev.withFlt_keeps))

theorem Dev.showUnflushed_keeps (d : Dev) : Keeps ⟨false, [F.IMS_STAT_ledger_queue, F.FLT_STAT_unflushed], []⟩ d (Dev.showUnflushed d) := by
  unfold Dev.showUnflushed
  repeat' (first
    | with_reducible exact Keeps.refl _ _
    | decide +kernel
    | with_reducible assumption
    | lift_lets
    | (intro x; first | (refine Keeps.cut (d0 := d) (d1 := x) ?_ ?_; (on_goal 1 => subst x); (on_goal 2 => (intro _; clear_value x))) | subst x)
    | (apply Keeps.step; with_reducible apply Dev.wr_keeps))

theorem Dev.countLost_keeps (d : Dev) : Keeps ⟨false, [F.FLT_STAT_lost, F.FLT_LOST], [.flt]⟩ d (Dev.countLost d) := by
  unfold Dev.countLost
  repeat' (first
    | with_reducible exact Keeps.refl _ _
    | decide +kernel
    | exact id
    | (apply Keeps.step; with_reducible apply Dev.withFlt_keeps)
    | (apply Keeps.step; with_reducible apply Dev.put_keeps)
    | (apply Keeps.step; with_reducible apply Dev.bump_keeps))

theorem Dev.eventOf_keeps (d : Dev) (e : Entry) : Keeps ⟨false, [], [.hi]⟩ d (Dev.eventOf d e) := by
  unfold Dev.eventOf
  repeat' (first
    | with_reducible exact Keeps.refl _ _
    | decide +kernel
    | (apply Keeps.step; with_reducible apply Dev.sendEvent_keeps))

theorem Dev.placeEntry_keeps (d : Dev) (k : Nat) (r : Report) : Keeps ⟨false, [F.IMS_STAT_ledger_queue, F.FLT_STAT_alert, F.FLT_STAT_unflushed, F.FLT_HEAD_LO, F.FLT_HEAD_HI, F.FLT_CLASS_CNT_report, F.FLT_CLASS_CNT_c, F.FLT_CLASS_CNT_s, F.FLT_CLASS_CNT_d], [.sc, .hi, .flt]⟩ d (Dev.placeEntry d k r) := by
  unfold Dev.placeEntry
  repeat' (first
    | with_reducible exact Keeps.refl _ _
    | decide +kernel
    | with_reducible assumption
    | exact classCount_ok _
    | (unfold classCount; (repeat' split) <;> decide +kernel)
    | lift_lets
    | (intro x; first | (refine Keeps.cut (d0 := d) (d1 := x) ?_ ?_; (on_goal 1 => subst x); (on_goal 2 => (intro _; clear_value x))) | subst x)
    | (apply Keeps.step; with_reducible apply Dev.put_keeps)
    | (apply Keeps.step; with_reducible apply Dev.bump_keeps)
    | (apply Keeps.step; with_reducible apply Dev.wr64_keeps)
    | (apply Keeps.step; with_reducible apply Dev.raiseRequest_keeps)
    | (apply Keeps.step; with_reducible apply Dev.setSlot_keeps)
    | (apply Keeps.step; with_reducible apply Dev.showUnflushed_keeps)
    | (apply Keeps.step; with_reducible apply Dev.eventOf_keeps)
    | (with_reducible apply Keeps.ite <;> intro _)
    | split)

theorem Dev.makeLost_keeps (d : Dev) : Keeps ⟨false, [F.IMS_STAT_ledger_queue, F.FLT_STAT_alert, F.FLT_STAT_unflushed, F.FLT_HEAD_LO, F.FLT_HEAD_HI, F.FLT_CLASS_CNT_report, F.FLT_CLASS_CNT_c, F.FLT_CLASS_CNT_s, F.FLT_CLASS_CNT_d], [.sc, .hi, .flt]⟩ d (Dev.makeLost d) := by
  unfold Dev.makeLost
  repeat' (first
    | with_reducible exact Keeps.refl _ _
    | decide +kernel
    | with_reducible assumption
    | exact id
    | lift_lets
    | (intro x; first | (refine Keeps.cut (d0 := d) (d1 := x) ?_ ?_; (on_goal 1 => subst x); (on_goal 2 => (intro _; clear_value x))) | subst x)
    | (apply Keeps.step; with_reducible apply Dev.withFlt_keeps)
    | (apply Keeps.step; with_reducible apply Dev.report_keeps)
    | (apply Keeps.step; with_reducible apply Dev.placeEntry_keeps)
    | (with_reducible apply Keeps.ite <;> intro _)
    | split
    | beta_reduce)

theorem Dev.makeEntry_keeps (d : Dev) (r : Report) : Keeps ⟨false, [F.IMS_STAT_ledger_queue, F.FLT_STAT_alert, F.FLT_STAT_lost, F.FLT_STAT_unflushed, F.FLT_HEAD_LO, F.FLT_HEAD_HI, F.FLT_LOST, F.FLT_CLASS_CNT_report, F.FLT_CLASS_CNT_c, F.FLT_CLASS_CNT_s, F.FLT_CLASS_CNT_d], [.sc, .hi, .flt]⟩ d (Dev.makeEntry d r) := by
  unfold Dev.makeEntry
  repeat' (first
    | with_reducible exact Keeps.refl _ _
    | decide +kernel
    | with_reducible assumption
    | lift_lets
    | (intro x; first | (refine Keeps.cut (d0 := d) (d1 := x) ?_ ?_; (on_goal 1 => subst x); (on_goal 2 => (intro _; clear_value x))) | subst x)
    | (apply Keeps.step; with_reducible apply Dev.countLost_keeps)
    | (apply Keeps.step; with_reducible apply Dev.placeEntry_keeps)
    | (apply Keeps.step; with_reducible apply Dev.makeLost_keeps)
    | (with_reducible apply Keeps.ite <;> intro _)
    | split
    | beta_reduce)

theorem Dev.takeReport_keeps (d : Dev) (r : Report) : Keeps ⟨false, [F.IMS_STAT_ledger_queue, F.FLT_STAT_alert, F.FLT_STAT_lost, F.FLT_STAT_unflushed, F.FLT_HEAD_LO, F.FLT_HEAD_HI, F.FLT_LOST, F.FLT_CLASS_CNT_report, F.FLT_CLASS_CNT_c, F.FLT_CLASS_CNT_s, F.FLT_CLASS_CNT_d], [.sc, .hi, .flt]⟩ d (Dev.takeReport d r) := by
  unfold Dev.takeReport
  repeat' (first
    | with_reducible exact Keeps.refl _ _
    | decide +kernel
    | (intro _ _ k; exact k.le)
    | with_reducible assumption
    | lift_lets
    | (intro x; first | (refine Keeps.cut (d0 := e) (d1 := x) ?_ ?_; (on_goal 1 => subst x); (on_goal 2 => (intro _; clear_value x))) | (refine Keeps.cut (d0 := d) (d1 := x) ?_ ?_; (on_goal 1 => subst x); (on_goal 2 => (intro _; clear_value x))) | subst x)
    | (apply Keeps.step; with_reducible apply Dev.raiseRequest_keeps)
    | (apply Keeps.step; with_reducible apply Dev.setSlot_keeps)
    | (apply Keeps.step; with_reducible apply Dev.showUnflushed_keeps)
    | (apply Keeps.step; with_reducible apply Dev.makeLost_keeps)
    | (apply Keeps.step; with_reducible apply Dev.makeEntry_keeps)
    | (apply Keeps.stepSame; with_reducible apply Dev.foldl_keeps; intro e _)
    | (with_reducible apply Keeps.ite <;> intro _)
    | split
    | beta_reduce)

theorem execLedgerReport_runs (t : Nat) (kind index : BitVec 8) (cls : Fin 5) (code : BitVec 8) (sub : BitVec 4) (detail : Word) (s : State) :
    Runs ⟨false, [F.FLT_STAT_lost, F.FLT_LOST], [.flt]⟩ t s (execLedgerReport t kind index cls code sub detail s) := by
  unfold execLedgerReport
  refine Runs.of fun d => ?_
  repeat' (first
    | with_reducible exact Keeps.refl _ _
    | decide +kernel
    | (apply Keeps.step; with_reducible apply Dev.report_keeps)
    | (with_reducible apply Keeps.ite <;> intro _)
    | split)

theorem execLedgerEntry_runs (t : Nat) (s : State) : Runs ⟨false, [F.IMS_STAT_ledger_queue, F.FLT_STAT_alert, F.FLT_STAT_lost, F.FLT_STAT_unflushed, F.FLT_HEAD_LO, F.FLT_HEAD_HI, F.FLT_LOST, F.FLT_CLASS_CNT_report, F.FLT_CLASS_CNT_c, F.FLT_CLASS_CNT_s, F.FLT_CLASS_CNT_d], [.sc, .hi, .flt]⟩ t s (execLedgerEntry t s) := by
  unfold execLedgerEntry
  refine Runs.of fun d => ?_
  split
  · exact Keeps.refl _ _
  · rename_i r rest h
    refine Keeps.trans ((Dev.withFlt_keeps d { d.flt with intake := rest } fun k => ?_).le) (Dev.takeReport_keeps ..).le
    rw [h, List.length_cons] at k
    exact Nat.le_of_succ_le k

theorem execEntryClose_runs (t : Nat) (k : Fin 1024) (s : State) :
    Runs ⟨false, [], [.hi, .flt]⟩ t s (execEntryClose t k s) := by
  unfold execEntryClose
  refine Runs.of fun d => ?_
  repeat' (first
    | with_reducible exact Keeps.refl _ _
    | decide +kernel
    | with_reducible assumption
    | lift_lets
    | (intro x; first | (refine Keeps.cut (d0 := d) (d1 := x) ?_ ?_; (on_goal 1 => subst x); (on_goal 2 => (intro _; clear_value x))) | subst x)
    | (apply Keeps.step; with_reducible apply Dev.setSlot_keeps)
    | (apply Keeps.step; with_reducible apply Dev.eventOf_keeps)
    | (with_reducible apply Keeps.ite <;> intro _)
    | split
    | beta_reduce)

theorem Dev.captureSlot_keeps (d : Dev) (m : Master) (sel slot : Nat) : Keeps ⟨false, [F.FAB_WRITE_ERR, F.FAB_WRITE_ERR_more, F.FAB_WRITE_DATA, F.FAB_WRITE_CNT, F.FLT_SEL_slot, F.FLT_REC], []⟩ d (Dev.captureSlot d m sel slot) := by
  unfold Dev.captureSlot
  repeat' (first
    | with_reducible exact Keeps.refl _ _
    | decide +kernel
    | (intro _ _ k; exact k.le)
    | with_reducible assumption
    | lift_lets
    | (intro x; first | (refine Keeps.cut (d0 := e) (d1 := x) ?_ ?_; (on_goal 1 => subst x); (on_goal 2 => (intro _; clear_value x))) | (refine Keeps.cut (d0 := d) (d1 := x) ?_ ?_; (on_goal 1 => subst x); (on_goal 2 => (intro _; clear_value x))) | subst x)
    | (apply Keeps.stepSame; with_reducible apply Dev.each_keeps; intro e _)
    | (apply Keeps.step; with_reducible apply Dev.wr2_keeps)
    | (apply Keeps.step; with_reducible apply Dev.wr_keeps)
    | (apply Keeps.step; with_reducible apply Dev.reject_keeps)
    | (with_reducible apply Keeps.ite <;> intro _)
    | split
    | beta_reduce)

theorem execSlotCapture_runs (t : Nat) (m : Master) (sel : Fin 3) (slot : Fin 1024) (s : State) :
    Runs ⟨false, [F.FAB_WRITE_ERR, F.FAB_WRITE_ERR_more, F.FAB_WRITE_DATA, F.FAB_WRITE_CNT, F.FLT_SEL_slot, F.FLT_REC], []⟩ t s (execSlotCapture t m sel slot s) := by
  unfold execSlotCapture fromMaster
  refine Runs.of fun d => ?_
  repeat' (first
    | with_reducible exact Keeps.refl _ _
    | decide +kernel
    | (apply Keeps.step; with_reducible apply Dev.captureSlot_keeps)
    | (with_reducible apply Keeps.ite <;> intro _)
    | beta_reduce)

end Sys2Proof.Machine
end

