-- ==== Sys2Proof/Laws/KeepsImsetOps.lean ====
section
/-! SUPPORT. What the effects of ImsetOps.lean keep. -/

namespace Sys2Proof.Machine

set_option Elab.async false

theorem Dev.onSec_keeps (d : Dev) (f : Sec → Sec) (hc : (f d.sec).counters = d.sec.counters) (he : (f d.sec).enrolled = d.sec.enrolled) :
    Keeps ⟨false, [], [.sec]⟩ d (d.onSec f) := Dev.withSec_keeps d _ hc he

theorem Dev.setCounter_keeps (d : Dev) (c v : Nat) (h : d.counter c ≤ v) : Keeps ⟨false, [], [.sec]⟩ d (d.setCounter c v) := by
  refine Dev.withSec_keeps' d _ (fun k => ?_) (fun _ _ h => h)
  simp only [Tbl.get_set]
  split
  · subst_vars; exact h
  · exact le_refl _

theorem Dev.showSec_keeps (d : Dev) : Keeps ⟨false, [F.SEC_STAT_key_slot, F.SEC_STAT_enrolled, F.SEC_STAT_session_qp0, F.SEC_STAT_session_uart], []⟩ d (Dev.showSec d) := by
  unfold Dev.showSec
  repeat' (first
    | with_reducible exact Keeps.refl _ _
    | decide +kernel
    | (intro _ _ k; exact k.le)
    | with_reducible assumption
    | lift_lets
    | (intro x; first | (refine Keeps.cut (d0 := e) (d1 := x) ?_ ?_; (on_goal 1 => subst x); (on_goal 2 => (intro _; clear_value x))) | (refine Keeps.cut (d0 := d) (d1 := x) ?_ ?_; (on_goal 1 => subst x); (on_goal 2 => (intro _; clear_value x))) | subst x)
    | (apply Keeps.step; with_reducible apply Dev.wr_keeps)
    | (apply Keeps.step; with_reducible apply Dev.put_keeps)
    | (apply Keeps.stepSame; with_reducible apply Dev.foldl_keeps; intro e _))

theorem Dev.raise_keeps (d : Dev) (c v blown : Nat) : Keeps ⟨false, [F.SEC_STAT_key_slot, F.SEC_STAT_enrolled, F.SEC_STAT_session_qp0, F.SEC_STAT_session_uart, F.SEC_STAT_otp_err], [.sec]⟩ d (Dev.raise d c v blown).1 := by
  unfold Dev.raise
  dsimp only
  split
  · exact Keeps.refl _ d
  · have k : Keeps ⟨false, [F.SEC_STAT_key_slot, F.SEC_STAT_enrolled, F.SEC_STAT_session_qp0, F.SEC_STAT_session_uart, F.SEC_STAT_otp_err], [.sec]⟩ d ((d.setCounter c (min v (d.counter c + blown))).showSec) :=
      (Dev.setCounter_keeps _ _ _ (by omega)).le.trans (Dev.showSec_keeps _).le
    split
    · exact k
    · exact k.trans (Dev.put_keeps _ _ _ _ (by decide +kernel)).le

theorem Dev.setSession_keeps (d : Dev) (uart : Bool) (v : Option Session) : Keeps ⟨false, [F.SEC_STAT_key_slot, F.SEC_STAT_enrolled, F.SEC_STAT_session_qp0, F.SEC_STAT_session_uart], [.sec]⟩ d (Dev.setSession d uart v) := by
  unfold Dev.setSession
  repeat' (first
    | with_reducible exact Keeps.refl _ _
    | decide +kernel
    | (apply Keeps.step; (with_reducible apply Dev.onSec_keeps); (exact rfl); (exact rfl))
    | (apply Keeps.step; with_reducible apply Dev.showSec_keeps)
    | (with_reducible apply Keeps.ite <;> intro _)
    | split)

theorem Dev.recordCalendar_keeps (d : Dev) : Keeps ⟨false, [], [.sec]⟩ d (Dev.recordCalendar d) := by
  unfold Dev.recordCalendar
  repeat' (first
    | with_reducible exact Keeps.refl _ _
    | decide +kernel
    | with_reducible assumption
    | lift_lets
    | (intro x; first | (refine Keeps.cut (d0 := d) (d1 := x) ?_ ?_; (on_goal 1 => subst x); (on_goal 2 => (intro _; clear_value x))) | subst x)
    | (apply Keeps.step; (with_reducible apply Dev.onSec_keeps); (exact rfl); (exact rfl)))

theorem Dev.touchSector_keeps (d : Dev) (sector : Nat) : Keeps ⟨false, [], [.sec]⟩ d (Dev.touchSector d sector) := by
  unfold Dev.touchSector
  repeat' (first
    | with_reducible exact Keeps.refl _ _
    | decide +kernel
    | with_reducible assumption
    | lift_lets
    | (intro x; first | (refine Keeps.cut (d0 := d) (d1 := x) ?_ ?_; (on_goal 1 => subst x); (on_goal 2 => (intro _; clear_value x))) | subst x)
    | (apply Keeps.step; (with_reducible apply Dev.onSec_keeps); (exact rfl); (exact rfl)))

theorem Dev.flashError_keeps (d : Dev) (err : Bool) : Keeps ⟨false, [F.IMS_STAT_flash_err, F.FLT_STAT_lost, F.FLT_LOST], [.flt]⟩ d (Dev.flashError d err) := by
  unfold Dev.flashError
  repeat' (first
    | with_reducible exact Keeps.refl _ _
    | decide +kernel
    | (apply Keeps.step; with_reducible apply Dev.put_keeps)
    | (apply Keeps.step; with_reducible apply Dev.report_keeps)
    | (with_reducible apply Keeps.ite <;> intro _)
    | split)

theorem Dev.writeFlash_keeps (d : Dev) (a : Nat) (bs : List Byte) : Keeps ⟨false, [], [.sec]⟩ d (Dev.writeFlash d a bs) := by
  unfold Dev.writeFlash
  repeat' (first
    | with_reducible exact Keeps.refl _ _
    | decide +kernel
    | (intro _ _ k; exact k.le)
    | with_reducible assumption
    | lift_lets
    | (intro x; first | (refine Keeps.cut (d0 := e) (d1 := x) ?_ ?_; (on_goal 1 => subst x); (on_goal 2 => (intro _; clear_value x))) | (refine Keeps.cut (d0 := d) (d1 := x) ?_ ?_; (on_goal 1 => subst x); (on_goal 2 => (intro _; clear_value x))) | subst x)
    | (apply Keeps.stepSame; with_reducible apply Dev.each_keeps; intro e _)
    | (apply Keeps.step; (with_reducible apply Dev.onSec_keeps); (exact rfl); (exact rfl))
    | (apply Keeps.step; with_reducible apply Dev.touchSector_keeps)
    | (apply Keeps.stepSame; with_reducible apply Dev.foldl_keeps; intro e _)
    | (with_reducible apply Keeps.ite <;> intro _)
    | split)

theorem Dev.eraseSector_keeps (d : Dev) (n : Nat) : Keeps ⟨false, [], [.sec]⟩ d (Dev.eraseSector d n) := by
  unfold Dev.eraseSector
  repeat' (first
    | with_reducible exact Keeps.refl _ _
    | decide +kernel
    | (apply Keeps.step; (with_reducible apply Dev.onSec_keeps); (exact rfl); (exact rfl)))

theorem Dev.copySector_keeps (d : Dev) (n m : Nat) : Keeps ⟨false, [], [.sec]⟩ d (Dev.copySector d n m) := by
  unfold Dev.copySector
  repeat' (first
    | with_reducible exact Keeps.refl _ _
    | decide +kernel
    | (intro _ _ k; exact k.le)
    | with_reducible assumption
    | lift_lets
    | (intro x; first | (refine Keeps.cut (d0 := e) (d1 := x) ?_ ?_; (on_goal 1 => subst x); (on_goal 2 => (intro _; clear_value x))) | (refine Keeps.cut (d0 := d) (d1 := x) ?_ ?_; (on_goal 1 => subst x); (on_goal 2 => (intro _; clear_value x))) | subst x)
    | (apply Keeps.step; (with_reducible apply Dev.onSec_keeps); (exact rfl); (exact rfl))
    | (apply Keeps.step; with_reducible apply Dev.eraseSector_keeps)
    | (apply Keeps.stepSame; with_reducible apply Dev.foldl_keeps; intro e _))

theorem Dev.storeDirectory_keeps (d : Dev) : Keeps ⟨false, [], [.sec]⟩ d (Dev.storeDirectory d) := by
  unfold Dev.storeDirectory
  repeat' (first
    | with_reducible exact Keeps.refl _ _
    | decide +kernel
    | (intro _ _ k; exact k.le)
    | with_reducible assumption
    | lift_lets
    | (intro x; first | (refine Keeps.cut (d0 := e) (d1 := x) ?_ ?_; (on_goal 1 => subst x); (on_goal 2 => (intro _; clear_value x))) | (refine Keeps.cut (d0 := d) (d1 := x) ?_ ?_; (on_goal 1 => subst x); (on_goal 2 => (intro _; clear_value x))) | subst x)
    | (apply Keeps.step; with_reducible apply Dev.writeFlash_keeps)
    | (apply Keeps.stepSame; with_reducible apply Dev.foldl_keeps; intro e _))

theorem Dev.readDirectory_keeps (d : Dev) : Keeps ⟨false, [], [.sec]⟩ d (Dev.readDirectory d) := by
  unfold Dev.readDirectory
  repeat' (first
    | with_reducible exact Keeps.refl _ _
    | decide +kernel
    | (intro _ _ k; exact k.le)
    | with_reducible assumption
    | lift_lets
    | (intro x; first | (refine Keeps.cut (d0 := e) (d1 := x) ?_ ?_; (on_goal 1 => subst x); (on_goal 2 => (intro _; clear_value x))) | (refine Keeps.cut (d0 := d) (d1 := x) ?_ ?_; (on_goal 1 => subst x); (on_goal 2 => (intro _; clear_value x))) | subst x)
    | (apply Keeps.step; (with_reducible apply Dev.onSec_keeps); (exact rfl); (exact rfl))
    | (apply Keeps.stepSame; with_reducible apply Dev.foldl_keeps; intro e _))

theorem Dev.setImage_keeps (d : Dev) (kind : Nat) (v : ImgT) : Keeps ⟨false, [], [.sec]⟩ d (Dev.setImage d kind v) := by
  unfold Dev.setImage
  repeat' (first
    | with_reducible exact Keeps.refl _ _
    | decide +kernel
    | (apply Keeps.step; (with_reducible apply Dev.onSec_keeps); (exact rfl); (exact rfl))
    | (apply Keeps.step; with_reducible apply Dev.storeDirectory_keeps)
    | (with_reducible apply Keeps.ite <;> intro _)
    | split)

theorem Dev.noteOther_keeps (d : Dev) (kind : Nat) (b : Bool) (st : Nat) : Keeps ⟨false, [F.SEC_IMG_other_valid, F.SEC_IMG_other_version], []⟩ d (Dev.noteOther d kind b st) := by
  unfold Dev.noteOther
  repeat' (first
    | with_reducible exact Keeps.refl _ _
    | decide +kernel
    | (apply Keeps.step; with_reducible apply Dev.wr_keeps)
    | (apply Keeps.step; with_reducible apply Dev.put_keeps)
    | (with_reducible apply Keeps.ite <;> intro _)
    | split)

theorem Dev.writeRing_keeps (d : Dev) (base place per : Nat) (bs : List Byte) : Keeps ⟨false, [], [.sec]⟩ d (Dev.writeRing d base place per bs) := by
  unfold Dev.writeRing
  repeat' (first
    | with_reducible exact Keeps.refl _ _
    | decide +kernel
    | with_reducible assumption
    | lift_lets
    | (intro x; first | (refine Keeps.cut (d0 := d) (d1 := x) ?_ ?_; (on_goal 1 => subst x); (on_goal 2 => (intro _; clear_value x))) | subst x)
    | (apply Keeps.step; with_reducible apply Dev.writeFlash_keeps)
    | (apply Keeps.step; with_reducible apply Dev.eraseSector_keeps)
    | (with_reducible apply Keeps.ite <;> intro _)
    | split)

theorem Dev.flushSlot_keeps (d : Dev) (k : Nat) (err : Bool) : Keeps ⟨false, [F.IMS_STAT_flash_err, F.IMS_STAT_ledger_queue, F.FLT_STAT_lost, F.FLT_STAT_unflushed, F.FLT_LOST], [.sec, .flt]⟩ d (Dev.flushSlot d k err) := by
  unfold Dev.flushSlot
  repeat' (first
    | with_reducible exact Keeps.refl _ _
    | decide +kernel
    | with_reducible assumption
    | lift_lets
    | (intro x; first | (refine Keeps.cut (d0 := d) (d1 := x) ?_ ?_; (on_goal 1 => subst x); (on_goal 2 => (intro _; clear_value x))) | subst x)
    | (apply Keeps.step; with_reducible apply Dev.setSlot_keeps)
    | (apply Keeps.step; with_reducible apply Dev.showUnflushed_keeps)
    | (apply Keeps.step; (with_reducible apply Dev.onSec_keeps); (exact rfl); (exact rfl))
    | (apply Keeps.step; with_reducible apply Dev.flashError_keeps)
    | (apply Keeps.step; with_reducible apply Dev.writeRing_keeps)
    | (with_reducible apply Keeps.ite <;> intro _)
    | split
    | beta_reduce)

theorem Dev.flushLedger_keeps (d : Dev) : Keeps ⟨false, [F.IMS_STAT_flash_err, F.IMS_STAT_ledger_queue, F.FLT_STAT_lost, F.FLT_STAT_unflushed, F.FLT_LOST], [.sec, .flt]⟩ d (Dev.flushLedger d) := by
  unfold Dev.flushLedger
  repeat' (first
    | with_reducible exact Keeps.refl _ _
    | decide +kernel
    | (intro _ _ k; exact k.le)
    | (apply Keeps.step; with_reducible apply Dev.flushSlot_keeps)
    | (apply Keeps.stepSame; with_reducible apply Dev.foldl_keeps; intro e _)
    | (with_reducible apply Keeps.ite <;> intro _)
    | split)

theorem Dev.checkChain_keeps (d : Dev) : Keeps ⟨false, [F.FLT_STAT_lost, F.FLT_LOST], [.sec, .flt]⟩ d (Dev.checkChain d) := by
  unfold Dev.checkChain
  repeat' (first
    | with_reducible exact Keeps.refl _ _
    | decide +kernel
    | (apply Keeps.step; with_reducible apply Dev.report_keeps)
    | (apply Keeps.step; (with_reducible apply Dev.onSec_keeps); (exact rfl); (exact rfl))
    | (with_reducible apply Keeps.ite <;> intro _)
    | split)

theorem Dev.writeJournal_keeps (d : Dev) (l : Nat) (err : Bool) : Keeps ⟨false, [F.IMS_STAT_flash_err, F.FLT_STAT_lost, F.FLT_LOST], [.sec, .flt]⟩ d (Dev.writeJournal d l err) := by
  unfold Dev.writeJournal
  repeat' (first
    | with_reducible exact Keeps.refl _ _
    | decide +kernel
    | with_reducible assumption
    | lift_lets
    | (intro x; first | (refine Keeps.cut (d0 := d) (d1 := x) ?_ ?_; (on_goal 1 => subst x); (on_goal 2 => (intro _; clear_value x))) | subst x)
    | (apply Keeps.step; (with_reducible apply Dev.onSec_keeps); (exact rfl); (exact rfl))
    | (apply Keeps.step; with_reducible apply Dev.recordCalendar_keeps)
    | (apply Keeps.step; with_reducible apply Dev.flashError_keeps)
    | (apply Keeps.step; with_reducible apply Dev.writeFlash_keeps)
    | (with_reducible apply Keeps.ite <;> intro _)
    | split)

theorem Dev.journalTx_keeps (d : Dev) (l : Nat) (err : Bool) : Keeps ⟨false, [F.IMS_STAT_flash_err, F.FLT_STAT_lost, F.FLT_LOST], [.sec, .flt]⟩ d (Dev.journalTx d l err) := by
  unfold Dev.journalTx
  repeat' (first
    | with_reducible exact Keeps.refl _ _
    | decide +kernel
    | with_reducible assumption
    | lift_lets
    | (intro x; first | (refine Keeps.cut (d0 := d) (d1 := x) ?_ ?_; (on_goal 1 => subst x); (on_goal 2 => (intro _; clear_value x))) | subst x)
    | (apply Keeps.step; (with_reducible apply Dev.onSec_keeps); (exact rfl); (exact rfl))
    | (apply Keeps.step; with_reducible apply Dev.writeJournal_keeps)
    | (with_reducible apply Keeps.ite <;> intro _)
    | split)

theorem Dev.journalRx_keeps (d : Dev) (l : Nat) (err : Bool) : Keeps ⟨false, [F.IMS_STAT_flash_err, F.FLT_STAT_lost, F.FLT_LOST], [.sec, .flt]⟩ d (Dev.journalRx d l err) := by
  unfold Dev.journalRx
  repeat' (first
    | with_reducible exact Keeps.refl _ _
    | decide +kernel
    | with_reducible assumption
    | lift_lets
    | (intro x; first | (refine Keeps.cut (d0 := d) (d1 := x) ?_ ?_; (on_goal 1 => subst x); (on_goal 2 => (intro _; clear_value x))) | subst x)
    | (apply Keeps.step; (with_reducible apply Dev.onSec_keeps); (exact rfl); (exact rfl))
    | (apply Keeps.step; with_reducible apply Dev.writeJournal_keeps)
    | (with_reducible apply Keeps.ite <;> intro _)
    | split)

theorem Dev.journalAll_keeps (d : Dev) : Keeps ⟨false, [F.IMS_STAT_flash_err, F.FLT_STAT_lost, F.FLT_LOST], [.sec, .flt]⟩ d (Dev.journalAll d) := by
  unfold Dev.journalAll
  repeat' (first
    | with_reducible exact Keeps.refl _ _
    | decide +kernel
    | (intro _ _ k; exact k.le)
    | (apply Keeps.stepSame; with_reducible apply Dev.each_keeps; intro e _)
    | (apply Keeps.step; with_reducible apply Dev.journalRx_keeps))

theorem Dev.restoreFresh_keeps (d : Dev) : Keeps ⟨false, [F.FL_FV_TX_LO, F.FL_FV_TX_HI, F.FL_FV_RX_LO, F.FL_FV_RX_HI], []⟩ d (Dev.restoreFresh d) := by
  unfold Dev.restoreFresh
  repeat' (first
    | with_reducible exact Keeps.refl _ _
    | decide +kernel
    | (intro _ _ k; exact k.le)
    | (apply Keeps.stepSame; with_reducible apply Dev.each_keeps; intro e _)
    | (apply Keeps.step; with_reducible apply Dev.wr64_keeps))

end Sys2Proof.Machine
end

