-- ==== Sys2Proof/Laws/KeepsPool.lean ====
section
/-! SUPPORT. What the effects of Pool.lean keep. -/

namespace Sys2Proof.Machine

set_option Elab.async false

theorem Dev.arriveRec_keeps (d : Dev) (r : RecTok) : Keeps ⟨false, [F.BE_ENG_STAT_state, F.BE_ENG_STAT_loop, F.BE_ENG_STAT_loops, F.BE_LP_SWAP_active, F.BE_LP_SWAP_pending, F.BE_LP_SWAP_status, F.BE_LP_STAT_state, F.BE_LP_FLAGS_sat, F.BE_LP_FLAGS_swap_clamp, F.BE_POOL_STAT_fenced, F.BE_POOL_STAT_free, F.FLT_STAT_lost, F.FLT_LOST], [.be, .flt]⟩ d (Dev.arriveRec d r) := by
  unfold Dev.arriveRec
  repeat' (first
    | with_reducible exact Keeps.refl _ _
    | decide +kernel
    | (intro _ _ k; exact k.le)
    | with_reducible assumption
    | lift_lets
    | (intro x; first | (refine Keeps.cut (d0 := e) (d1 := x) ?_ ?_; (on_goal 1 => subst x); (on_goal 2 => (intro _; clear_value x))) | (refine Keeps.cut (d0 := d) (d1 := x) ?_ ?_; (on_goal 1 => subst x); (on_goal 2 => (intro _; clear_value x))) | subst x)
    | (apply Keeps.stepSame; with_reducible apply Dev.each_keeps; intro e _)
    | (apply Keeps.step; with_reducible apply Dev.setRecs_keeps)
    | (apply Keeps.step; with_reducible apply Dev.setLatRec_keeps)
    | (apply Keeps.step; with_reducible apply Dev.onLoop_keeps)
    | (apply Keeps.step; with_reducible apply Dev.wake_keeps)
    | (apply Keeps.step; with_reducible apply Dev.dispatchAll_keeps)
    | (with_reducible apply Keeps.ite <;> intro _)
    | split
    | beta_reduce)

theorem execRecordArrival_runs (t k : Nat) (s : State) :
    Runs ⟨false, [F.BE_ENG_STAT_state, F.BE_ENG_STAT_loop, F.BE_ENG_STAT_loops, F.BE_LP_SWAP_active, F.BE_LP_SWAP_pending, F.BE_LP_SWAP_status, F.BE_LP_STAT_state, F.BE_LP_FLAGS_sat, F.BE_LP_FLAGS_swap_clamp, F.BE_POOL_STAT_fenced, F.BE_POOL_STAT_free, F.FLT_STAT_lost, F.FLT_LOST], [.be, .flt]⟩ t s (execRecordArrival t k s) := by
  unfold execRecordArrival
  refine Runs.of fun d => ?_
  repeat' (first
    | with_reducible exact Keeps.refl _ _
    | decide +kernel
    | (apply Keeps.step; with_reducible apply Dev.withBe_keeps)
    | (apply Keeps.step; with_reducible apply Dev.arriveRec_keeps)
    | (with_reducible apply Keeps.ite <;> intro _)
    | split)

theorem execStartLimitExpiry_runs (t : Nat) (l : Fin 64) (s : State) :
    Runs ⟨false, [F.BE_ENG_STAT_state, F.BE_ENG_STAT_loop, F.BE_ENG_STAT_loops, F.BE_LP_SWAP_active, F.BE_LP_SWAP_pending, F.BE_LP_SWAP_status, F.BE_LP_STAT_state, F.BE_LP_FLAGS_sat, F.BE_LP_FLAGS_swap_clamp, F.BE_LP_FLAGS_input_late, F.BE_LP_MISS_input_late, F.BE_POOL_STAT_fenced, F.BE_POOL_STAT_free, F.FLT_STAT_lost, F.FLT_LOST], [.be, .flt]⟩ t s (execStartLimitExpiry t l s) := by
  unfold execStartLimitExpiry
  refine Runs.of fun d => ?_
  repeat' (first
    | with_reducible exact Keeps.refl _ _
    | decide +kernel
    | with_reducible assumption
    | lift_lets
    | (intro x; first | (refine Keeps.cut (d0 := d) (d1 := x) ?_ ?_; (on_goal 1 => subst x); (on_goal 2 => (intro _; clear_value x))) | subst x)
    | (apply Keeps.step; with_reducible apply Dev.withBe_keeps)
    | (apply Keeps.step; with_reducible apply Dev.put_keeps)
    | (apply Keeps.step; with_reducible apply Dev.bump_keeps)
    | (apply Keeps.step; with_reducible apply Dev.report_keeps)
    | (apply Keeps.step; with_reducible apply Dev.reportOpen_keeps)
    | (apply Keeps.step; with_reducible apply Dev.becomeReady_keeps)
    | (apply Keeps.step; with_reducible apply Dev.dispatchAll_keeps)
    | (with_reducible apply Keeps.ite <;> intro _)
    | split)

theorem execEngineStall_runs (t : Nat) (e : Fin 12) (s : State) :
    Runs ⟨false, [F.BE_ENG_STAT_state, F.BE_ENG_STAT_spare, F.BE_ENG_STAT_loop, F.BE_ENG_STAT_loops, F.BE_ENG_DEAD, F.BE_ENG_DEAD_cause, F.BE_ENG_DEAD_loop, F.BE_ENG_DEAD_op, F.BE_ENG_DEAD_TIME_LO, F.BE_ENG_DEAD_TIME_HI, F.BE_LP_STAT_state, F.BE_POOL_STAT_fenced, F.BE_POOL_STAT_free, F.FLT_STAT_lost, F.FLT_LOST], [.be, .flt]⟩ t s (execEngineStall t e s) := by
  unfold execEngineStall
  refine Runs.of fun d => ?_
  repeat' (first
    | with_reducible exact Keeps.refl _ _
    | decide +kernel
    | (apply Keeps.step; with_reducible apply Dev.declareDead_keeps)
    | (with_reducible apply Keeps.ite <;> intro _)
    | split)

theorem execResidueFail_runs (t : Nat) (e : Fin 12) (s : State) :
    Runs ⟨false, [F.BE_ENG_STAT_state, F.BE_ENG_STAT_spare, F.BE_ENG_STAT_loop, F.BE_ENG_STAT_loops, F.BE_ENG_DEAD, F.BE_ENG_DEAD_cause, F.BE_ENG_DEAD_loop, F.BE_ENG_DEAD_op, F.BE_ENG_DEAD_TIME_LO, F.BE_ENG_DEAD_TIME_HI, F.BE_LP_STAT_state, F.BE_POOL_STAT_fenced, F.BE_POOL_STAT_free, F.FLT_STAT_lost, F.FLT_LOST], [.be, .flt]⟩ t s (execResidueFail t e s) := by
  unfold execResidueFail
  refine Runs.of fun d => ?_
  repeat' (first
    | with_reducible exact Keeps.refl _ _
    | decide +kernel
    | (apply Keeps.step; with_reducible apply Dev.declareDead_keeps))

theorem Dev.declareWrite_keeps (d : Dev) (e : Nat) : Keeps ⟨false, [F.FAB_WRITE_ERR, F.FAB_WRITE_ERR_more, F.FAB_WRITE_DATA, F.FAB_WRITE_CNT, F.BE_ENG_STAT_state, F.BE_ENG_STAT_spare, F.BE_ENG_STAT_loop, F.BE_ENG_STAT_loops, F.BE_ENG_DEAD, F.BE_ENG_DEAD_cause, F.BE_ENG_DEAD_loop, F.BE_ENG_DEAD_op, F.BE_ENG_DEAD_TIME_LO, F.BE_ENG_DEAD_TIME_HI, F.BE_LP_STAT_state, F.BE_POOL_CTRL_cmd, F.BE_POOL_CTRL_engine, F.BE_POOL_CTRL_status, F.BE_POOL_STAT_fenced, F.BE_POOL_STAT_free, F.FLT_STAT_lost, F.FLT_LOST], [.be, .flt]⟩ d (Dev.declareWrite d e) := by
  unfold Dev.declareWrite
  repeat' (first
    | with_reducible exact Keeps.refl _ _
    | decide +kernel
    | with_reducible assumption
    | lift_lets
    | (intro x; first | (refine Keeps.cut (d0 := d) (d1 := x) ?_ ?_; (on_goal 1 => subst x); (on_goal 2 => (intro _; clear_value x))) | subst x)
    | (apply Keeps.step; with_reducible apply Dev.wr_keeps)
    | (apply Keeps.step; with_reducible apply Dev.reject_keeps)
    | (apply Keeps.step; with_reducible apply Dev.declareDead_keeps)
    | (with_reducible apply Keeps.ite <;> intro _)
    | split)

theorem execDeclareDead_runs (t : Nat) (e : Fin 16) (s : State) :
    Runs ⟨false, [F.FAB_WRITE_ERR, F.FAB_WRITE_ERR_more, F.FAB_WRITE_DATA, F.FAB_WRITE_CNT, F.BE_ENG_STAT_state, F.BE_ENG_STAT_spare, F.BE_ENG_STAT_loop, F.BE_ENG_STAT_loops, F.BE_ENG_DEAD, F.BE_ENG_DEAD_cause, F.BE_ENG_DEAD_loop, F.BE_ENG_DEAD_op, F.BE_ENG_DEAD_TIME_LO, F.BE_ENG_DEAD_TIME_HI, F.BE_LP_STAT_state, F.BE_POOL_CTRL_cmd, F.BE_POOL_CTRL_engine, F.BE_POOL_CTRL_status, F.BE_POOL_STAT_fenced, F.BE_POOL_STAT_free, F.FLT_STAT_lost, F.FLT_LOST], [.be, .flt]⟩ t s (execDeclareDead t e s) := by
  unfold execDeclareDead fromFirmware
  refine Runs.of fun d => ?_
  repeat' (first
    | with_reducible exact Keeps.refl _ _
    | decide +kernel
    | (apply Keeps.step; with_reducible apply Dev.declareWrite_keeps)
    | (with_reducible apply Keeps.ite <;> intro _)
    | beta_reduce)

theorem execTakeover_runs (t : Nat) (e : Fin 12) (s : State) :
    Runs ⟨false, [F.BE_ENG_STAT_state, F.BE_ENG_STAT_spare, F.BE_ENG_STAT_loop, F.BE_ENG_STAT_loops, F.BE_ENG_LOOPS_LO, F.BE_ENG_LOOPS_HI, F.BE_LP_STAT_state, F.BE_LP_STAT_engine, F.BE_POOL_STAT_fenced, F.BE_POOL_STAT_free, F.BE_POOL_STAT_takeovers], [.be]⟩ t s (execTakeover t e s) := by
  unfold execTakeover
  refine Runs.of fun d => ?_
  repeat' (first
    | with_reducible exact Keeps.refl _ _
    | decide +kernel
    | with_reducible assumption
    | lift_lets
    | (intro x; first | (refine Keeps.cut (d0 := d) (d1 := x) ?_ ?_; (on_goal 1 => subst x); (on_goal 2 => (intro _; clear_value x))) | subst x)
    | (apply Keeps.step; with_reducible apply Dev.setEng_keeps)
    | (apply Keeps.step; with_reducible apply Dev.assignWaiting_keeps)
    | (with_reducible apply Keeps.ite <;> intro _)
    | split)

theorem execCoeffSwapRequest_runs (t : Nat) (l : Fin 64) (bank : Fin 2) (s : State) :
    Runs ⟨false, [F.BE_LP_SWAP_bank, F.BE_LP_SWAP_pending, F.BE_LP_SWAP_status], [.be]⟩ t s (execCoeffSwapRequest t l bank s) := by
  unfold execCoeffSwapRequest fromFirmware
  refine Runs.of fun d => ?_
  repeat' (first
    | with_reducible exact Keeps.refl _ _
    | decide +kernel
    | (apply Keeps.step; with_reducible apply Dev.requestSwap_keeps)
    | (with_reducible apply Keeps.ite <;> intro _)
    | beta_reduce)

theorem Dev.restartSlack_keeps (d : Dev) (m : Master) (l : Nat) : Keeps ⟨false, [F.FAB_WRITE_ERR, F.FAB_WRITE_ERR_more, F.FAB_WRITE_DATA, F.FAB_WRITE_CNT, F.BE_LP_SLACK_MIN_min, F.BE_LP_SLACK_MIN_restart], []⟩ d (Dev.restartSlack d m l) := by
  unfold Dev.restartSlack
  repeat' (first
    | with_reducible exact Keeps.refl _ _
    | decide +kernel
    | (apply Keeps.step; with_reducible apply Dev.wr_keeps)
    | (apply Keeps.step; with_reducible apply Dev.put_keeps)
    | (apply Keeps.step; with_reducible apply Dev.reject_keeps)
    | (with_reducible apply Keeps.ite <;> intro _)
    | split)

theorem execSlackMinRestart_runs (t : Nat) (m : Master) (l : Fin 64) (s : State) :
    Runs ⟨false, [F.FAB_WRITE_ERR, F.FAB_WRITE_ERR_more, F.FAB_WRITE_DATA, F.FAB_WRITE_CNT, F.BE_LP_SLACK_MIN_min, F.BE_LP_SLACK_MIN_restart], []⟩ t s (execSlackMinRestart t m l s) := by
  unfold execSlackMinRestart fromMaster
  refine Runs.of fun d => ?_
  repeat' (first
    | with_reducible exact Keeps.refl _ _
    | decide +kernel
    | (apply Keeps.step; with_reducible apply Dev.restartSlack_keeps)
    | (with_reducible apply Keeps.ite <;> intro _)
    | beta_reduce)

end Sys2Proof.Machine
end

