-- ==== Sys2Proof/Laws/KeepsPosition.lean ====
section
/-! SUPPORT. What the effects of Position.lean keep. -/

namespace Sys2Proof.Machine

set_option Elab.async false

theorem Dev.wrI64_keeps (d : Dev) (lo hi : Fd) (i : Nat) (v : Int) (h : lo.ok = true) (k : hi.ok = true) :
    Keeps ⟨false, [lo, hi], []⟩ d (Dev.wrI64 d lo hi i v) := Dev.wr64_keeps d lo hi i _ h k

theorem Dev.onPos_keeps (d : Dev) (i : Nat) (f : PosT → PosT) : Keeps ⟨false, [], [.ps]⟩ d (Dev.onPos d i f) := by
  unfold Dev.onPos
  repeat' (first
    | with_reducible exact Keeps.refl _ _
    | decide +kernel
    | (apply Keeps.step; with_reducible apply Dev.setPos_keeps))

theorem Dev.crossCompares_keeps (d : Dev) (i : Nat) (old new : Int) (stamp : Nat) : Keeps ⟨false, [F.PS_CMP_STAT_armed, F.PS_CMP_STAT_fired, F.PS_CMP_STAT_count, F.PS_CMP_TIME_LO, F.PS_CMP_TIME_HI, F.FLT_STAT_lost, F.FLT_LOST], [.flt]⟩ d (Dev.crossCompares d i old new stamp) := by
  unfold Dev.crossCompares
  repeat' (first
    | with_reducible exact Keeps.refl _ _
    | decide +kernel
    | (intro _ _ k; exact k.le)
    | with_reducible assumption
    | lift_lets
    | (intro x; first | (refine Keeps.cut (d0 := e) (d1 := x) ?_ ?_; (on_goal 1 => subst x); (on_goal 2 => (intro _; clear_value x))) | (refine Keeps.cut (d0 := d) (d1 := x) ?_ ?_; (on_goal 1 => subst x); (on_goal 2 => (intro _; clear_value x))) | subst x)
    | (apply Keeps.stepSame; with_reducible apply Dev.each_keeps; intro e _)
    | (apply Keeps.step; with_reducible apply Dev.wr2_keeps)
    | (apply Keeps.step; with_reducible apply Dev.report_keeps)
    | (apply Keeps.step; with_reducible apply Dev.reportOpen_keeps)
    | (with_reducible apply Keeps.ite <;> intro _)
    | split)

theorem Dev.moveCount_keeps (d : Dev) (i : Nat) (by_ : Int) (stamp : Nat) : Keeps ⟨false, [F.PS_CNT_LO, F.PS_CNT_HI, F.PS_CMP_STAT_armed, F.PS_CMP_STAT_fired, F.PS_CMP_STAT_count, F.PS_CMP_TIME_LO, F.PS_CMP_TIME_HI, F.FLT_STAT_lost, F.FLT_LOST], [.flt]⟩ d (Dev.moveCount d i by_ stamp) := by
  unfold Dev.moveCount
  repeat' (first
    | with_reducible exact Keeps.refl _ _
    | decide +kernel
    | with_reducible assumption
    | lift_lets
    | (intro x; first | (refine Keeps.cut (d0 := d) (d1 := x) ?_ ?_; (on_goal 1 => subst x); (on_goal 2 => (intro _; clear_value x))) | subst x)
    | (apply Keeps.step; with_reducible apply Dev.wrI64_keeps)
    | (apply Keeps.step; with_reducible apply Dev.crossCompares_keeps))

theorem Dev.edgeAt_keeps (d : Dev) (i : Nat) (up : Bool) (stamp : Nat) : Keeps ⟨false, [F.PS_CNT_LO, F.PS_CNT_HI, F.PS_EDGE_TIME_LO, F.PS_EDGE_TIME_HI, F.PS_PERIOD, F.PS_CMP_STAT_armed, F.PS_CMP_STAT_fired, F.PS_CMP_STAT_count, F.PS_CMP_TIME_LO, F.PS_CMP_TIME_HI, F.FLT_STAT_lost, F.FLT_LOST], [.ps, .flt]⟩ d (Dev.edgeAt d i up stamp) := by
  unfold Dev.edgeAt
  repeat' (first
    | with_reducible exact Keeps.refl _ _
    | decide +kernel
    | with_reducible assumption
    | lift_lets
    | (intro x; first | (refine Keeps.cut (d0 := d) (d1 := x) ?_ ?_; (on_goal 1 => subst x); (on_goal 2 => (intro _; clear_value x))) | subst x)
    | (apply Keeps.step; with_reducible apply Dev.wr_keeps)
    | (apply Keeps.step; with_reducible apply Dev.wr64_keeps)
    | (apply Keeps.step; with_reducible apply Dev.setPos_keeps)
    | (apply Keeps.step; with_reducible apply Dev.moveCount_keeps)
    | (with_reducible apply Keeps.ite <;> intro _)
    | split
    | beta_reduce)

theorem Dev.sourceLost_keeps (d : Dev) (j : Nat) : Keeps ⟨false, [F.EP_STAT_running, F.EP_STAT_src_lost, F.FLT_STAT_lost, F.FLT_LOST], [.flt]⟩ d (Dev.sourceLost d j) := by
  unfold Dev.sourceLost
  repeat' (first
    | with_reducible exact Keeps.refl _ _
    | decide +kernel
    | with_reducible assumption
    | lift_lets
    | (intro x; first | (refine Keeps.cut (d0 := d) (d1 := x) ?_ ?_; (on_goal 1 => subst x); (on_goal 2 => (intro _; clear_value x))) | subst x)
    | (apply Keeps.step; with_reducible apply Dev.put_keeps)
    | (apply Keeps.step; with_reducible apply Dev.report_keeps)
    | (with_reducible apply Keeps.ite <;> intro _)
    | split)

theorem Dev.fencePos_keeps (d : Dev) (i cause sub : Nat) (named : Nat) : Keeps ⟨false, [F.PS_STAT_running, F.PS_STAT_fenced, F.PS_CMP_STAT_armed, F.EP_STAT_running, F.EP_STAT_src_lost, F.FLT_STAT_lost, F.FLT_LOST], [.flt]⟩ d (Dev.fencePos d i cause sub named) := by
  unfold Dev.fencePos
  repeat' (first
    | with_reducible exact Keeps.refl _ _
    | decide +kernel
    | (intro _ _ k; exact k.le)
    | with_reducible assumption
    | lift_lets
    | (intro x; first | (refine Keeps.cut (d0 := e) (d1 := x) ?_ ?_; (on_goal 1 => subst x); (on_goal 2 => (intro _; clear_value x))) | (refine Keeps.cut (d0 := d) (d1 := x) ?_ ?_; (on_goal 1 => subst x); (on_goal 2 => (intro _; clear_value x))) | subst x)
    | (apply Keeps.stepSame; with_reducible apply Dev.each_keeps; intro e _)
    | (apply Keeps.step; with_reducible apply Dev.wr2_keeps)
    | (apply Keeps.step; with_reducible apply Dev.put_keeps)
    | (apply Keeps.step; with_reducible apply Dev.markFenced_keeps)
    | (apply Keeps.step; with_reducible apply Dev.postFenced_keeps)
    | (apply Keeps.step; with_reducible apply Dev.sourceLost_keeps)
    | (with_reducible apply Keeps.ite <;> intro _)
    | split)

theorem Dev.countIllegal_keeps (d : Dev) (i : Nat) : Keeps ⟨false, [F.PS_STAT_running, F.PS_STAT_fenced, F.PS_STAT_illegal, F.PS_ILL_CNT_total, F.PS_ILL_CNT_window, F.PS_CMP_STAT_armed, F.EP_STAT_running, F.EP_STAT_src_lost, F.FLT_STAT_lost, F.FLT_LOST], [.ps, .flt]⟩ d (Dev.countIllegal d i) := by
  unfold Dev.countIllegal
  repeat' (first
    | with_reducible exact Keeps.refl _ _
    | decide +kernel
    | with_reducible assumption
    | lift_lets
    | (intro x; first | (refine Keeps.cut (d0 := d) (d1 := x) ?_ ?_; (on_goal 1 => subst x); (on_goal 2 => (intro _; clear_value x))) | subst x)
    | (apply Keeps.step; with_reducible apply Dev.wr_keeps)
    | (apply Keeps.step; with_reducible apply Dev.put_keeps)
    | (apply Keeps.step; with_reducible apply Dev.bump_keeps)
    | (apply Keeps.step; with_reducible apply Dev.report_keeps)
    | (apply Keeps.step; with_reducible apply Dev.onPos_keeps)
    | (apply Keeps.step; with_reducible apply Dev.fencePos_keeps)
    | (with_reducible apply Keeps.ite <;> intro _)
    | split)

theorem Dev.illegal_keeps (d : Dev) (i : Nat) : Keeps ⟨false, [F.PS_STAT_running, F.PS_STAT_fenced, F.PS_STAT_illegal, F.PS_ILL_CNT_total, F.PS_ILL_CNT_window, F.PS_CMP_STAT_armed, F.EP_STAT_running, F.EP_STAT_src_lost, F.FLT_STAT_lost, F.FLT_LOST], [.ps, .flt]⟩ d (Dev.illegal d i) := by
  unfold Dev.illegal
  repeat' (first
    | with_reducible exact Keeps.refl _ _
    | decide +kernel
    | (apply Keeps.step; with_reducible apply Dev.onPos_keeps)
    | (apply Keeps.step; with_reducible apply Dev.countIllegal_keeps))

theorem Dev.breakLine_keeps (d : Dev) (i cause : Nat) : Keeps ⟨false, [F.PS_STAT_broken_live, F.PS_STAT_broken, F.FLT_STAT_lost, F.FLT_LOST], [.ps, .flt]⟩ d (Dev.breakLine d i cause) := by
  unfold Dev.breakLine
  repeat' (first
    | with_reducible exact Keeps.refl _ _
    | decide +kernel
    | with_reducible assumption
    | lift_lets
    | (intro x; first | (refine Keeps.cut (d0 := d) (d1 := x) ?_ ?_; (on_goal 1 => subst x); (on_goal 2 => (intro _; clear_value x))) | subst x)
    | (apply Keeps.step; with_reducible apply Dev.put_keeps)
    | (apply Keeps.step; with_reducible apply Dev.setPos_keeps)
    | (apply Keeps.step; with_reducible apply Dev.report_keeps)
    | (with_reducible apply Keeps.ite <;> intro _)
    | split)

theorem Dev.mendLine_keeps (d : Dev) (i cause : Nat) : Keeps ⟨false, [F.PS_STAT_broken_live], [.ps]⟩ d (Dev.mendLine d i cause) := by
  unfold Dev.mendLine
  repeat' (first
    | with_reducible exact Keeps.refl _ _
    | decide +kernel
    | with_reducible assumption
    | lift_lets
    | (intro x; first | (refine Keeps.cut (d0 := d) (d1 := x) ?_ ?_; (on_goal 1 => subst x); (on_goal 2 => (intro _; clear_value x))) | subst x)
    | (apply Keeps.step; with_reducible apply Dev.put_keeps)
    | (apply Keeps.step; with_reducible apply Dev.setPos_keeps))

theorem Dev.indexEdge_keeps (d : Dev) (i : Nat) (stamp : Nat) : Keeps ⟨false, [F.PS_STAT_indexed, F.PS_STAT_drift, F.PS_IDX_LO, F.PS_IDX_HI, F.PS_IDX_TIME_LO, F.PS_IDX_TIME_HI, F.FLT_STAT_lost, F.FLT_LOST], [.flt]⟩ d (Dev.indexEdge d i stamp) := by
  unfold Dev.indexEdge
  repeat' (first
    | with_reducible exact Keeps.refl _ _
    | decide +kernel
    | with_reducible assumption
    | lift_lets
    | (intro x; first | (refine Keeps.cut (d0 := d) (d1 := x) ?_ ?_; (on_goal 1 => subst x); (on_goal 2 => (intro _; clear_value x))) | subst x)
    | (apply Keeps.step; with_reducible apply Dev.put_keeps)
    | (apply Keeps.step; with_reducible apply Dev.wr64_keeps)
    | (apply Keeps.step; with_reducible apply Dev.report_keeps)
    | (apply Keeps.step; with_reducible apply Dev.wrI64_keeps)
    | (with_reducible apply Keeps.ite <;> intro _)
    | split)

theorem Dev.secondary_keeps (d : Dev) (i : Nat) (sec : BitVec 3) (stamp : Nat) : Keeps ⟨false, [F.PS_STAT_running, F.PS_STAT_fenced, F.PS_STAT_illegal, F.PS_STAT_sec_hall, F.PS_ILL_CNT_total, F.PS_ILL_CNT_window, F.PS_SEC_CNT, F.PS_SEC_SPEED, F.PS_CMP_STAT_armed, F.EP_STAT_running, F.EP_STAT_src_lost, F.FLT_STAT_lost, F.FLT_LOST], [.ps, .flt]⟩ d (Dev.secondary d i sec stamp) := by
  unfold Dev.secondary
  repeat' (first
    | with_reducible exact Keeps.refl _ _
    | decide +kernel
    | with_reducible assumption
    | lift_lets
    | (intro x; first | (refine Keeps.cut (d0 := d) (d1 := x) ?_ ?_; (on_goal 1 => subst x); (on_goal 2 => (intro _; clear_value x))) | subst x)
    | (apply Keeps.step; with_reducible apply Dev.wr_keeps)
    | (apply Keeps.step; with_reducible apply Dev.setPos_keeps)
    | (apply Keeps.step; with_reducible apply Dev.onPos_keeps)
    | (apply Keeps.step; with_reducible apply Dev.countIllegal_keeps)
    | (apply Keeps.step; with_reducible apply Dev.illegal_keeps)
    | (with_reducible apply Keeps.ite <;> intro _)
    | split
    | beta_reduce)

theorem Dev.lineSample_keeps (d : Dev) (i : Nat) (prim sec : BitVec 3) (stamp : Nat) : Keeps ⟨false, [F.PS_STAT_running, F.PS_STAT_indexed, F.PS_STAT_fenced, F.PS_STAT_illegal, F.PS_STAT_drift, F.PS_STAT_hall, F.PS_STAT_sec_hall, F.PS_ILL_CNT_total, F.PS_ILL_CNT_window, F.PS_CNT_LO, F.PS_CNT_HI, F.PS_IDX_LO, F.PS_IDX_HI, F.PS_IDX_TIME_LO, F.PS_IDX_TIME_HI, F.PS_EDGE_TIME_LO, F.PS_EDGE_TIME_HI, F.PS_PERIOD, F.PS_SEC_CNT, F.PS_SEC_SPEED, F.PS_CMP_STAT_armed, F.PS_CMP_STAT_fired, F.PS_CMP_STAT_count, F.PS_CMP_TIME_LO, F.PS_CMP_TIME_HI, F.EP_STAT_running, F.EP_STAT_src_lost, F.FLT_STAT_lost, F.FLT_LOST], [.ps, .flt]⟩ d (Dev.lineSample d i prim sec stamp) := by
  unfold Dev.lineSample
  repeat' (first
    | with_reducible exact Keeps.refl _ _
    | decide +kernel
    | with_reducible assumption
    | lift_lets
    | (intro x; first | (refine Keeps.cut (d0 := d) (d1 := x) ?_ ?_; (on_goal 1 => subst x); (on_goal 2 => (intro _; clear_value x))) | subst x)
    | (apply Keeps.step; with_reducible apply Dev.wr_keeps)
    | (apply Keeps.step; with_reducible apply Dev.setPos_keeps)
    | (apply Keeps.step; with_reducible apply Dev.onPos_keeps)
    | (apply Keeps.step; with_reducible apply Dev.edgeAt_keeps)
    | (apply Keeps.step; with_reducible apply Dev.illegal_keeps)
    | (apply Keeps.step; with_reducible apply Dev.indexEdge_keeps)
    | (apply Keeps.step; with_reducible apply Dev.secondary_keeps)
    | (with_reducible apply Keeps.ite <;> intro _)
    | split
    | beta_reduce)

theorem Dev.showObserver_keeps (d : Dev) (i : Nat) : Keeps ⟨false, [F.PS_STAT_still, F.PS_OBS_POS_LO, F.PS_OBS_POS_HI, F.PS_OBS_ANGLE, F.PS_OBS_EANGLE, F.PS_OBS_SPEED, F.PS_OBS_ACCEL], []⟩ d (Dev.showObserver d i) := by
  unfold Dev.showObserver
  repeat' (first
    | with_reducible exact Keeps.refl _ _
    | decide +kernel
    | with_reducible assumption
    | lift_lets
    | (intro x; first | (refine Keeps.cut (d0 := d) (d1 := x) ?_ ?_; (on_goal 1 => subst x); (on_goal 2 => (intro _; clear_value x))) | subst x)
    | (apply Keeps.step; with_reducible apply Dev.wr_keeps)
    | (apply Keeps.step; with_reducible apply Dev.put_keeps)
    | (apply Keeps.step; with_reducible apply Dev.wrI64_keeps)
    | (with_reducible apply Keeps.ite <;> intro _)
    | split)

theorem Dev.seedObserver_keeps (d : Dev) (i : Nat) (pos : Rat) : Keeps ⟨false, [F.PS_STAT_locked, F.PS_STAT_still, F.PS_OBS_POS_LO, F.PS_OBS_POS_HI, F.PS_OBS_ANGLE, F.PS_OBS_EANGLE, F.PS_OBS_SPEED, F.PS_OBS_ACCEL], [.ps]⟩ d (Dev.seedObserver d i pos) := by
  unfold Dev.seedObserver
  repeat' (first
    | with_reducible exact Keeps.refl _ _
    | decide +kernel
    | with_reducible assumption
    | lift_lets
    | (intro x; first | (refine Keeps.cut (d0 := d) (d1 := x) ?_ ?_; (on_goal 1 => subst x); (on_goal 2 => (intro _; clear_value x))) | subst x)
    | (apply Keeps.step; with_reducible apply Dev.put_keeps)
    | (apply Keeps.step; with_reducible apply Dev.onPos_keeps)
    | (apply Keeps.step; with_reducible apply Dev.showObserver_keeps))

theorem Dev.lockCheck_keeps (d : Dev) (i : Nat) (e : Rat) : Keeps ⟨false, [F.PS_STAT_locked], [.ps]⟩ d (Dev.lockCheck d i e) := by
  unfold Dev.lockCheck
  repeat' (first
    | with_reducible exact Keeps.refl _ _
    | decide +kernel
    | with_reducible assumption
    | lift_lets
    | (intro x; first | (refine Keeps.cut (d0 := d) (d1 := x) ?_ ?_; (on_goal 1 => subst x); (on_goal 2 => (intro _; clear_value x))) | subst x)
    | (apply Keeps.step; with_reducible apply Dev.put_keeps)
    | (apply Keeps.step; with_reducible apply Dev.onPos_keeps)
    | (with_reducible apply Keeps.ite <;> intro _)
    | split)

theorem Dev.observe_keeps (d : Dev) (i : Nat) : Keeps ⟨false, [F.PS_STAT_locked, F.PS_STAT_still, F.PS_OBS_POS_LO, F.PS_OBS_POS_HI, F.PS_OBS_ANGLE, F.PS_OBS_EANGLE, F.PS_OBS_SPEED, F.PS_OBS_ACCEL, F.PS_OBS_ERR], [.ps]⟩ d (Dev.observe d i) := by
  unfold Dev.observe
  repeat' (first
    | with_reducible exact Keeps.refl _ _
    | decide +kernel
    | with_reducible assumption
    | lift_lets
    | (intro x; first | (refine Keeps.cut (d0 := d) (d1 := x) ?_ ?_; (on_goal 1 => subst x); (on_goal 2 => (intro _; clear_value x))) | subst x)
    | (apply Keeps.step; with_reducible apply Dev.wr_keeps)
    | (apply Keeps.step; with_reducible apply Dev.setPos_keeps)
    | (apply Keeps.step; with_reducible apply Dev.showObserver_keeps)
    | (apply Keeps.step; with_reducible apply Dev.lockCheck_keeps)
    | (with_reducible apply Keeps.ite <;> intro _)
    | split)

theorem Dev.showLag_keeps (d : Dev) (j : Nat) (lag : Int) : Keeps ⟨false, [F.EP_LAG], []⟩ d (Dev.showLag d j lag) := by
  unfold Dev.showLag
  repeat' (first
    | with_reducible exact Keeps.refl _ _
    | decide +kernel
    | (apply Keeps.step; with_reducible apply Dev.wrInt_keeps))

theorem Dev.startRepeater_keeps (d : Dev) (j : Nat) : Keeps ⟨false, [F.EP_STAT_running, F.EP_STAT_src_lost, F.EP_STAT_limited, F.EP_CNT_LO, F.EP_CNT_HI, F.EP_LAG, F.FLT_STAT_lost, F.FLT_LOST], [.ps, .flt]⟩ d (Dev.startRepeater d j) := by
  unfold Dev.startRepeater
  repeat' (first
    | with_reducible exact Keeps.refl _ _
    | decide +kernel
    | with_reducible assumption
    | lift_lets
    | (intro x; first | (refine Keeps.cut (d0 := d) (d1 := x) ?_ ?_; (on_goal 1 => subst x); (on_goal 2 => (intro _; clear_value x))) | subst x)
    | (apply Keeps.step; with_reducible apply Dev.put_keeps)
    | (apply Keeps.step; with_reducible apply Dev.setRep_keeps)
    | (apply Keeps.step; with_reducible apply Dev.wrI64_keeps)
    | (apply Keeps.step; with_reducible apply Dev.sourceLost_keeps)
    | (apply Keeps.step; with_reducible apply Dev.showLag_keeps)
    | (with_reducible apply Keeps.ite <;> intro _)
    | split)

theorem Dev.repeaterEdge_keeps (d : Dev) (j : Nat) : Keeps ⟨false, [F.EP_STAT_lag, F.EP_STAT_limited, F.EP_STAT_lag_cnt, F.EP_CNT_LO, F.EP_CNT_HI, F.EP_LAG, F.FLT_STAT_lost, F.FLT_LOST], [.ps, .flt]⟩ d (Dev.repeaterEdge d j) := by
  unfold Dev.repeaterEdge
  repeat' (first
    | with_reducible exact Keeps.refl _ _
    | decide +kernel
    | with_reducible assumption
    | lift_lets
    | (intro x; first | (refine Keeps.cut (d0 := d) (d1 := x) ?_ ?_; (on_goal 1 => subst x); (on_goal 2 => (intro _; clear_value x))) | subst x)
    | (apply Keeps.step; with_reducible apply Dev.put_keeps)
    | (apply Keeps.step; with_reducible apply Dev.bump_keeps)
    | (apply Keeps.step; with_reducible apply Dev.setRep_keeps)
    | (apply Keeps.step; with_reducible apply Dev.report_keeps)
    | (apply Keeps.step; with_reducible apply Dev.reportOpen_keeps)
    | (apply Keeps.step; with_reducible apply Dev.wrI64_keeps)
    | (apply Keeps.step; with_reducible apply Dev.showLag_keeps)
    | (with_reducible apply Keeps.ite <;> intro _)
    | split)

theorem Dev.enablePos_keeps (d : Dev) (i : Nat) : Keeps ⟨false, [F.PS_STAT_running, F.PS_STAT_locked, F.PS_STAT_indexed, F.PS_STAT_still, F.PS_ILL_CNT_window, F.PS_CNT_LO, F.PS_CNT_HI, F.PS_SEC_CNT, F.PS_OBS_POS_LO, F.PS_OBS_POS_HI, F.PS_OBS_ANGLE, F.PS_OBS_EANGLE, F.PS_OBS_SPEED, F.PS_OBS_ACCEL, F.EP_STAT_running, F.EP_STAT_src_lost, F.EP_STAT_limited, F.EP_CNT_LO, F.EP_CNT_HI, F.EP_LAG, F.FLT_STAT_lost, F.FLT_LOST], [.ps, .flt]⟩ d (Dev.enablePos d i) := by
  unfold Dev.enablePos
  repeat' (first
    | with_reducible exact Keeps.refl _ _
    | decide +kernel
    | (intro _ _ k; exact k.le)
    | with_reducible assumption
    | lift_lets
    | (intro x; first | (refine Keeps.cut (d0 := e) (d1 := x) ?_ ?_; (on_goal 1 => subst x); (on_goal 2 => (intro _; clear_value x))) | (refine Keeps.cut (d0 := d) (d1 := x) ?_ ?_; (on_goal 1 => subst x); (on_goal 2 => (intro _; clear_value x))) | subst x)
    | (apply Keeps.stepSame; with_reducible apply Dev.each_keeps; intro e _)
    | (apply Keeps.step; with_reducible apply Dev.wr_keeps)
    | (apply Keeps.step; with_reducible apply Dev.put_keeps)
    | (apply Keeps.step; with_reducible apply Dev.setPos_keeps)
    | (apply Keeps.step; with_reducible apply Dev.wrI64_keeps)
    | (apply Keeps.step; with_reducible apply Dev.showObserver_keeps)
    | (apply Keeps.step; with_reducible apply Dev.seedObserver_keeps)
    | (apply Keeps.step; with_reducible apply Dev.startRepeater_keeps)
    | (with_reducible apply Keeps.ite <;> intro _)
    | split)

theorem Dev.disablePos_keeps (d : Dev) (i : Nat) : Keeps ⟨false, [F.PS_STAT_running, F.EP_STAT_running, F.EP_STAT_src_lost, F.FLT_STAT_lost, F.FLT_LOST], [.flt]⟩ d (Dev.disablePos d i) := by
  unfold Dev.disablePos
  repeat' (first
    | with_reducible exact Keeps.refl _ _
    | decide +kernel
    | (intro _ _ k; exact k.le)
    | (apply Keeps.stepSame; with_reducible apply Dev.each_keeps; intro e _)
    | (apply Keeps.step; with_reducible apply Dev.put_keeps)
    | (apply Keeps.step; with_reducible apply Dev.sourceLost_keeps))

theorem Dev.measured_keeps (d : Dev) (i : Nat) (raw span : Nat) (stamp : Nat) : Keeps ⟨false, [F.PS_STAT_running, F.PS_STAT_locked, F.PS_STAT_fenced, F.PS_STAT_still, F.PS_STAT_illegal, F.PS_ILL_CNT_total, F.PS_ILL_CNT_window, F.PS_CNT_LO, F.PS_CNT_HI, F.PS_OBS_POS_LO, F.PS_OBS_POS_HI, F.PS_OBS_ANGLE, F.PS_OBS_EANGLE, F.PS_OBS_SPEED, F.PS_OBS_ACCEL, F.PS_CMP_STAT_armed, F.PS_CMP_STAT_fired, F.PS_CMP_STAT_count, F.PS_CMP_TIME_LO, F.PS_CMP_TIME_HI, F.EP_STAT_running, F.EP_STAT_src_lost, F.FLT_STAT_lost, F.FLT_LOST], [.ps, .flt]⟩ d (Dev.measured d i raw span stamp) := by
  unfold Dev.measured
  repeat' (first
    | with_reducible exact Keeps.refl _ _
    | decide +kernel
    | with_reducible assumption
    | lift_lets
    | (intro x; first | (refine Keeps.cut (d0 := d) (d1 := x) ?_ ?_; (on_goal 1 => subst x); (on_goal 2 => (intro _; clear_value x))) | subst x)
    | (apply Keeps.step; with_reducible apply Dev.setPos_keeps)
    | (apply Keeps.step; with_reducible apply Dev.moveCount_keeps)
    | (apply Keeps.step; with_reducible apply Dev.illegal_keeps)
    | (apply Keeps.step; with_reducible apply Dev.seedObserver_keeps)
    | (with_reducible apply Keeps.ite <;> intro _)
    | split)

theorem Dev.ssiStart_keeps (d : Dev) (i : Nat) : Keeps ⟨false, [F.PS_STAT_overrun], [.ps]⟩ d (Dev.ssiStart d i) := by
  unfold Dev.ssiStart
  repeat' (first
    | with_reducible exact Keeps.refl _ _
    | decide +kernel
    | with_reducible assumption
    | lift_lets
    | (intro x; first | (refine Keeps.cut (d0 := d) (d1 := x) ?_ ?_; (on_goal 1 => subst x); (on_goal 2 => (intro _; clear_value x))) | subst x)
    | (apply Keeps.step; with_reducible apply Dev.put_keeps)
    | (apply Keeps.step; with_reducible apply Dev.setPos_keeps)
    | (with_reducible apply Keeps.ite <;> intro _)
    | split)

theorem Dev.ssiDone_keeps (d : Dev) (i bits : Nat) : Keeps ⟨false, [F.PS_STAT_running, F.PS_STAT_locked, F.PS_STAT_fenced, F.PS_STAT_still, F.PS_STAT_illegal, F.PS_ILL_CNT_total, F.PS_ILL_CNT_window, F.PS_CNT_LO, F.PS_CNT_HI, F.PS_SSI_RAW_LO, F.PS_SSI_RAW_HI, F.PS_OBS_POS_LO, F.PS_OBS_POS_HI, F.PS_OBS_ANGLE, F.PS_OBS_EANGLE, F.PS_OBS_SPEED, F.PS_OBS_ACCEL, F.PS_CMP_STAT_armed, F.PS_CMP_STAT_fired, F.PS_CMP_STAT_count, F.PS_CMP_TIME_LO, F.PS_CMP_TIME_HI, F.EP_STAT_running, F.EP_STAT_src_lost, F.FLT_STAT_lost, F.FLT_LOST], [.ps, .flt]⟩ d (Dev.ssiDone d i bits) := by
  unfold Dev.ssiDone
  repeat' (first
    | with_reducible exact Keeps.refl _ _
    | decide +kernel
    | with_reducible assumption
    | lift_lets
    | (intro x; first | (refine Keeps.cut (d0 := d) (d1 := x) ?_ ?_; (on_goal 1 => subst x); (on_goal 2 => (intro _; clear_value x))) | subst x)
    | (apply Keeps.step; with_reducible apply Dev.wr64_keeps)
    | (apply Keeps.step; with_reducible apply Dev.setPos_keeps)
    | (apply Keeps.step; with_reducible apply Dev.illegal_keeps)
    | (apply Keeps.step; with_reducible apply Dev.measured_keeps)
    | (with_reducible apply Keeps.ite <;> intro _)
    | split)

theorem Dev.envelope_keeps (d : Dev) (i : Nat) (s c : Int) (stamp phase : Nat) : Keeps ⟨false, [F.PS_STAT_running, F.PS_STAT_locked, F.PS_STAT_fenced, F.PS_STAT_still, F.PS_STAT_broken_live, F.PS_STAT_illegal, F.PS_STAT_broken, F.PS_ILL_CNT_total, F.PS_ILL_CNT_window, F.PS_CNT_LO, F.PS_CNT_HI, F.PS_RES_ENV_sine, F.PS_RES_ENV_cosine, F.PS_RES_MEAS_amplitude, F.PS_RES_MEAS_exc_phase, F.PS_OBS_POS_LO, F.PS_OBS_POS_HI, F.PS_OBS_ANGLE, F.PS_OBS_EANGLE, F.PS_OBS_SPEED, F.PS_OBS_ACCEL, F.PS_CMP_STAT_armed, F.PS_CMP_STAT_fired, F.PS_CMP_STAT_count, F.PS_CMP_TIME_LO, F.PS_CMP_TIME_HI, F.EP_STAT_running, F.EP_STAT_src_lost, F.FLT_STAT_lost, F.FLT_LOST], [.fresh, .ps, .flt]⟩ d (Dev.envelope d i s c stamp phase) := by
  unfold Dev.envelope
  repeat' (first
    | with_reducible exact Keeps.refl _ _
    | decide +kernel
    | with_reducible assumption
    | lift_lets
    | (intro x; first | (refine Keeps.cut (d0 := d) (d1 := x) ?_ ?_; (on_goal 1 => subst x); (on_goal 2 => (intro _; clear_value x))) | subst x)
    | (apply Keeps.step; with_reducible apply Dev.wr_keeps)
    | (apply Keeps.step; with_reducible apply Dev.wrInt_keeps)
    | (apply Keeps.step; with_reducible apply Dev.tick_keeps)
    | (apply Keeps.step; with_reducible apply Dev.onPos_keeps)
    | (apply Keeps.step; with_reducible apply Dev.breakLine_keeps)
    | (apply Keeps.step; with_reducible apply Dev.mendLine_keeps)
    | (apply Keeps.step; with_reducible apply Dev.measured_keeps)
    | (with_reducible apply Keeps.ite <;> intro _)
    | split)

theorem Dev.takeFiring_keeps (d e : Dev) (u s : Nat) (h : d.takeFiring u = some (s, e)) : Keeps ⟨false, [], [.tb]⟩ d e := by
  unfold Dev.takeFiring at h
  split at h
  · split at h
    · cases h
      exact (Dev.setFired_keeps ..).le
    · cases h
  · cases h

theorem Dev.latchObserver_keeps (d : Dev) (i stamp : Nat) : Keeps ⟨false, [F.PS_LAT_ANGLE, F.PS_LAT_EANGLE, F.PS_LAT_SPEED, F.PS_LAT_INFO, F.PS_LAT_STAMP_LO, F.PS_LAT_STAMP_HI], [.ps, .be]⟩ d (Dev.latchObserver d i stamp) := by
  unfold Dev.latchObserver
  repeat' (first
    | with_reducible exact Keeps.refl _ _
    | decide +kernel
    | with_reducible assumption
    | lift_lets
    | (intro x; first | (refine Keeps.cut (d0 := d) (d1 := x) ?_ ?_; (on_goal 1 => subst x); (on_goal 2 => (intro _; clear_value x))) | subst x)
    | (apply Keeps.step; with_reducible apply Dev.wr_keeps)
    | (apply Keeps.step; with_reducible apply Dev.wr64_keeps)
    | (apply Keeps.step; with_reducible apply Dev.sendRec_keeps)
    | (apply Keeps.step; with_reducible apply Dev.onPos_keeps))

theorem Dev.preset_keeps (d : Dev) (i : Nat) : Keeps ⟨false, [F.PS_CTRL_cmd, F.PS_CTRL_status, F.PS_STAT_still, F.PS_CNT_LO, F.PS_CNT_HI, F.PS_OBS_POS_LO, F.PS_OBS_POS_HI, F.PS_OBS_ANGLE, F.PS_OBS_EANGLE, F.PS_OBS_SPEED, F.PS_OBS_ACCEL], [.ps]⟩ d (Dev.preset d i) := by
  unfold Dev.preset
  repeat' (first
    | with_reducible exact Keeps.refl _ _
    | decide +kernel
    | with_reducible assumption
    | lift_lets
    | (intro x; first | (refine Keeps.cut (d0 := d) (d1 := x) ?_ ?_; (on_goal 1 => subst x); (on_goal 2 => (intro _; clear_value x))) | subst x)
    | (apply Keeps.step; with_reducible apply Dev.wr_keeps)
    | (apply Keeps.step; with_reducible apply Dev.wrI64_keeps)
    | (apply Keeps.step; with_reducible apply Dev.onPos_keeps)
    | (apply Keeps.step; with_reducible apply Dev.showObserver_keeps)
    | (with_reducible apply Keeps.ite <;> intro _)
    | split)

theorem Dev.armCompare_keeps (d : Dev) (i n : Nat) (hi : Word) : Keeps ⟨false, [F.FAB_WRITE_ERR, F.FAB_WRITE_ERR_more, F.FAB_WRITE_DATA, F.FAB_WRITE_CNT, F.PS_CMP_HI, F.PS_CMP_STAT_armed, F.PS_CMP_STAT_behind, F.PS_CMP_STAT_status], [.ps]⟩ d (Dev.armCompare d i n hi) := by
  unfold Dev.armCompare
  repeat' (first
    | with_reducible exact Keeps.refl _ _
    | decide +kernel
    | with_reducible assumption
    | lift_lets
    | (intro x; first | (refine Keeps.cut (d0 := d) (d1 := x) ?_ ?_; (on_goal 1 => subst x); (on_goal 2 => (intro _; clear_value x))) | subst x)
    | (apply Keeps.step; with_reducible apply Dev.wr2_keeps)
    | (apply Keeps.step; with_reducible apply Dev.reject_keeps)
    | (apply Keeps.step; with_reducible apply Dev.onPos_keeps)
    | (with_reducible apply Keeps.ite <;> intro _)
    | split)

theorem Dev.admitPos_keeps (d : Dev) (i : Nat) : Keeps ⟨false, [F.PS_STAT_running, F.PS_STAT_locked, F.PS_STAT_fenced, F.PS_STAT_still, F.PS_ILL_CNT_window, F.PS_OBS_POS_LO, F.PS_OBS_POS_HI, F.PS_OBS_ANGLE, F.PS_OBS_EANGLE, F.PS_OBS_SPEED, F.PS_OBS_ACCEL, F.EP_STAT_running, F.EP_STAT_src_lost, F.EP_STAT_limited, F.EP_CNT_LO, F.EP_CNT_HI, F.EP_LAG, F.FLT_STAT_lost, F.FLT_LOST], [.ps, .flt]⟩ d (Dev.admitPos d i) := by
  unfold Dev.admitPos
  repeat' (first
    | with_reducible exact Keeps.refl _ _
    | decide +kernel
    | (intro _ _ k; exact k.le)
    | with_reducible assumption
    | lift_lets
    | (intro x; first | (refine Keeps.cut (d0 := e) (d1 := x) ?_ ?_; (on_goal 1 => subst x); (on_goal 2 => (intro _; clear_value x))) | (refine Keeps.cut (d0 := d) (d1 := x) ?_ ?_; (on_goal 1 => subst x); (on_goal 2 => (intro _; clear_value x))) | subst x)
    | (apply Keeps.stepSame; with_reducible apply Dev.each_keeps; intro e _)
    | (apply Keeps.step; with_reducible apply Dev.wr_keeps)
    | (apply Keeps.step; with_reducible apply Dev.put_keeps)
    | (apply Keeps.step; with_reducible apply Dev.markFenced_keeps)
    | (apply Keeps.step; with_reducible apply Dev.onPos_keeps)
    | (apply Keeps.step; with_reducible apply Dev.seedObserver_keeps)
    | (apply Keeps.step; with_reducible apply Dev.startRepeater_keeps)
    | (with_reducible apply Keeps.ite <;> intro _)
    | split)

theorem execLineChange_runs (t : Nat) (i : Fin 6) (l : Lands) (since stamp : Nat) (s : State) :
    Runs ⟨false, [F.PS_STAT_running, F.PS_STAT_indexed, F.PS_STAT_fenced, F.PS_STAT_illegal, F.PS_STAT_drift, F.PS_STAT_hall, F.PS_STAT_sec_hall, F.PS_ILL_CNT_total, F.PS_ILL_CNT_window, F.PS_CNT_LO, F.PS_CNT_HI, F.PS_IDX_LO, F.PS_IDX_HI, F.PS_IDX_TIME_LO, F.PS_IDX_TIME_HI, F.PS_EDGE_TIME_LO, F.PS_EDGE_TIME_HI, F.PS_PERIOD, F.PS_SEC_CNT, F.PS_SEC_SPEED, F.PS_CMP_STAT_armed, F.PS_CMP_STAT_fired, F.PS_CMP_STAT_count, F.PS_CMP_TIME_LO, F.PS_CMP_TIME_HI, F.EP_STAT_running, F.EP_STAT_src_lost, F.FLT_STAT_lost, F.FLT_LOST], [.ps, .flt]⟩ t s (execLineChange t i l since stamp s) := by
  unfold execLineChange
  refine Runs.of fun d => ?_
  repeat' (first
    | with_reducible exact Keeps.refl _ _
    | decide +kernel
    | with_reducible assumption
    | lift_lets
    | (intro x; first | (refine Keeps.cut (d0 := d) (d1 := x) ?_ ?_; (on_goal 1 => subst x); (on_goal 2 => (intro _; clear_value x))) | subst x)
    | (apply Keeps.step; with_reducible apply Dev.lineSample_keeps)
    | (with_reducible apply Keeps.ite <;> intro _)
    | split)

theorem execIllWindowExpiry_runs (t : Nat) (i : Fin 6) (s : State) :
    Runs ⟨false, [F.PS_ILL_CNT_window], [.ps]⟩ t s (execIllWindowExpiry t i s) := by
  unfold execIllWindowExpiry
  refine Runs.of fun d => ?_
  repeat' (first
    | with_reducible exact Keeps.refl _ _
    | decide +kernel
    | (apply Keeps.step; with_reducible apply Dev.wr_keeps)
    | (apply Keeps.step; with_reducible apply Dev.onPos_keeps)
    | (with_reducible apply Keeps.ite <;> intro _)
    | split)

theorem execBroken_runs (t : Nat) (i : Fin 6) (h : HeldSign) (s : State) :
    Runs ⟨false, [F.PS_STAT_broken_live, F.PS_STAT_broken, F.FLT_STAT_lost, F.FLT_LOST], [.ps, .flt]⟩ t s (execBroken t i h s) := by
  unfold execBroken
  refine Runs.of fun d => ?_
  repeat' (first
    | with_reducible exact Keeps.refl _ _
    | decide +kernel
    | (apply Keeps.step; with_reducible apply Dev.breakLine_keeps)
    | (with_reducible apply Keeps.ite <;> intro _)
    | split)

theorem execBrokenLiveClear_runs (t : Nat) (i : Fin 6) (b : BreakSign) (s : State) :
    Runs ⟨false, [F.PS_STAT_broken_live], [.ps]⟩ t s (execBrokenLiveClear t i b s) := by
  unfold execBrokenLiveClear
  refine Runs.of fun d => ?_
  repeat' (first
    | with_reducible exact Keeps.refl _ _
    | decide +kernel
    | (apply Keeps.step; with_reducible apply Dev.mendLine_keeps)
    | (with_reducible apply Keeps.ite <;> intro _)
    | split)

theorem execPeriodTimeout_runs (t : Nat) (i : Fin 6) (sec : Bool) (s : State) :
    Runs ⟨false, [F.PS_PERIOD, F.PS_SEC_SPEED], []⟩ t s (execPeriodTimeout t i sec s) := by
  unfold execPeriodTimeout
  refine Runs.of fun d => ?_
  repeat' (first
    | with_reducible exact Keeps.refl _ _
    | decide +kernel
    | with_reducible assumption
    | lift_lets
    | (intro x; first | (refine Keeps.cut (d0 := d) (d1 := x) ?_ ?_; (on_goal 1 => subst x); (on_goal 2 => (intro _; clear_value x))) | subst x)
    | (apply Keeps.step; with_reducible apply Dev.wr_keeps)
    | (with_reducible apply Keeps.ite <;> intro _)
    | split)

theorem execSsiStart_runs (t : Nat) (i : Fin 6) (s : State) :
    Runs ⟨false, [F.PS_STAT_overrun], [.tb, .ps]⟩ t s (execSsiStart t i s) := by
  unfold execSsiStart
  refine Runs.of fun d => ?_
  repeat' (first
    | with_reducible exact Keeps.refl _ _
    | decide +kernel
    | with_reducible assumption
    | lift_lets
    | (intro x; first | (refine Keeps.cut (d0 := d) (d1 := x) ?_ ?_; (on_goal 1 => subst x); (on_goal 2 => (intro _; clear_value x))) | subst x)
    | (apply Keeps.step; with_reducible apply Dev.onPos_keeps)
    | (apply Keeps.step; with_reducible apply Dev.ssiStart_keeps)
    | (refine Keeps.step (Dev.takeFiring_keeps _ _ _ _ (by assumption)) ?_ ?_)
    | (with_reducible apply Keeps.ite <;> intro _)
    | split
    | beta_reduce)

theorem execSsiFrameDone_runs (t : Nat) (i : Fin 6) (bits : Nat) (s : State) :
    Runs ⟨false, [F.PS_STAT_running, F.PS_STAT_locked, F.PS_STAT_fenced, F.PS_STAT_still, F.PS_STAT_illegal, F.PS_ILL_CNT_total, F.PS_ILL_CNT_window, F.PS_CNT_LO, F.PS_CNT_HI, F.PS_SSI_RAW_LO, F.PS_SSI_RAW_HI, F.PS_OBS_POS_LO, F.PS_OBS_POS_HI, F.PS_OBS_ANGLE, F.PS_OBS_EANGLE, F.PS_OBS_SPEED, F.PS_OBS_ACCEL, F.PS_CMP_STAT_armed, F.PS_CMP_STAT_fired, F.PS_CMP_STAT_count, F.PS_CMP_TIME_LO, F.PS_CMP_TIME_HI, F.EP_STAT_running, F.EP_STAT_src_lost, F.FLT_STAT_lost, F.FLT_LOST], [.ps, .flt]⟩ t s (execSsiFrameDone t i bits s) := by
  unfold execSsiFrameDone
  refine Runs.of fun d => ?_
  repeat' (first
    | with_reducible exact Keeps.refl _ _
    | decide +kernel
    | (apply Keeps.step; with_reducible apply Dev.ssiDone_keeps))

theorem execResolverEnvelope_runs (t : Nat) (i : Fin 2) (sine cosine : List Int) (h : HalfPeriod) (phase : Nat) (s : State) :
    Runs ⟨false, [F.PS_STAT_running, F.PS_STAT_locked, F.PS_STAT_fenced, F.PS_STAT_still, F.PS_STAT_broken_live, F.PS_STAT_illegal, F.PS_STAT_broken, F.PS_ILL_CNT_total, F.PS_ILL_CNT_window, F.PS_CNT_LO, F.PS_CNT_HI, F.PS_RES_ENV_sine, F.PS_RES_ENV_cosine, F.PS_RES_MEAS_amplitude, F.PS_RES_MEAS_exc_phase, F.PS_OBS_POS_LO, F.PS_OBS_POS_HI, F.PS_OBS_ANGLE, F.PS_OBS_EANGLE, F.PS_OBS_SPEED, F.PS_OBS_ACCEL, F.PS_CMP_STAT_armed, F.PS_CMP_STAT_fired, F.PS_CMP_STAT_count, F.PS_CMP_TIME_LO, F.PS_CMP_TIME_HI, F.EP_STAT_running, F.EP_STAT_src_lost, F.FLT_STAT_lost, F.FLT_LOST], [.fresh, .ps, .flt]⟩ t s (execResolverEnvelope t i sine cosine h phase s) := by
  unfold execResolverEnvelope
  refine Runs.of fun d => ?_
  repeat' (first
    | with_reducible exact Keeps.refl _ _
    | decide +kernel
    | with_reducible assumption
    | lift_lets
    | (intro x; first | (refine Keeps.cut (d0 := d) (d1 := x) ?_ ?_; (on_goal 1 => subst x); (on_goal 2 => (intro _; clear_value x))) | subst x)
    | (apply Keeps.step; with_reducible apply Dev.envelope_keeps)
    | (with_reducible apply Keeps.ite <;> intro _)
    | split)

theorem execPreset_runs (t : Nat) (i : Fin 6) (s : State) :
    Runs ⟨false, [F.PS_CTRL_cmd, F.PS_CTRL_status, F.PS_STAT_still, F.PS_CNT_LO, F.PS_CNT_HI, F.PS_OBS_POS_LO, F.PS_OBS_POS_HI, F.PS_OBS_ANGLE, F.PS_OBS_EANGLE, F.PS_OBS_SPEED, F.PS_OBS_ACCEL], [.ps]⟩ t s (execPreset t i s) := by
  unfold execPreset fromFirmware
  refine Runs.of fun d => ?_
  repeat' (first
    | with_reducible exact Keeps.refl _ _
    | decide +kernel
    | (apply Keeps.step; with_reducible apply Dev.preset_keeps)
    | (with_reducible apply Keeps.ite <;> intro _)
    | beta_reduce)

theorem execObserverUpdate_runs (t : Nat) (i : Fin 6) (s : State) :
    Runs ⟨false, [F.PS_STAT_locked, F.PS_STAT_still, F.PS_OBS_POS_LO, F.PS_OBS_POS_HI, F.PS_OBS_ANGLE, F.PS_OBS_EANGLE, F.PS_OBS_SPEED, F.PS_OBS_ACCEL, F.PS_OBS_ERR], [.ps]⟩ t s (execObserverUpdate t i s) := by
  unfold execObserverUpdate
  refine Runs.of fun d => ?_
  repeat' (first
    | with_reducible exact Keeps.refl _ _
    | decide +kernel
    | (apply Keeps.step; with_reducible apply Dev.observe_keeps))

theorem execObserverLatch_runs (t : Nat) (i : Fin 6) (s : State) :
    Runs ⟨false, [F.PS_LAT_ANGLE, F.PS_LAT_EANGLE, F.PS_LAT_SPEED, F.PS_LAT_INFO, F.PS_LAT_STAMP_LO, F.PS_LAT_STAMP_HI], [.tb, .ps, .be]⟩ t s (execObserverLatch t i s) := by
  unfold execObserverLatch
  refine Runs.of fun d => ?_
  repeat' (first
    | with_reducible exact Keeps.refl _ _
    | decide +kernel
    | (refine Keeps.step (Dev.takeFiring_keeps _ _ _ _ (by assumption)) ?_ ?_)
    | (apply Keeps.step; with_reducible apply Dev.latchObserver_keeps)
    | (with_reducible apply Keeps.ite <;> intro _)
    | split)

theorem execCompareArm_runs (t : Nat) (i : Fin 6) (n : Fin 2) (hi : Word) (s : State) :
    Runs ⟨false, [F.FAB_WRITE_ERR, F.FAB_WRITE_ERR_more, F.FAB_WRITE_DATA, F.FAB_WRITE_CNT, F.PS_CMP_HI, F.PS_CMP_STAT_armed, F.PS_CMP_STAT_behind, F.PS_CMP_STAT_status], [.ps]⟩ t s (execCompareArm t i n hi s) := by
  unfold execCompareArm fromFirmware
  refine Runs.of fun d => ?_
  repeat' (first
    | with_reducible exact Keeps.refl _ _
    | decide +kernel
    | (apply Keeps.step; with_reducible apply Dev.armCompare_keeps)
    | (with_reducible apply Keeps.ite <;> intro _)
    | beta_reduce)

theorem execRepeaterEdge_runs (t : Nat) (j : Fin 2) (s : State) :
    Runs ⟨false, [F.EP_STAT_lag, F.EP_STAT_limited, F.EP_STAT_lag_cnt, F.EP_CNT_LO, F.EP_CNT_HI, F.EP_LAG, F.FLT_STAT_lost, F.FLT_LOST], [.ps, .flt]⟩ t s (execRepeaterEdge t j s) := by
  unfold execRepeaterEdge
  refine Runs.of fun d => ?_
  repeat' (first
    | with_reducible exact Keeps.refl _ _
    | decide +kernel
    | (apply Keeps.step; with_reducible apply Dev.repeaterEdge_keeps))

end Sys2Proof.Machine
end

