-- ==== Sys2Proof/Laws/KeepsFences.lean ====
section
/-! SUPPORT. What the effects of Fences.lean keep. -/

namespace Sys2Proof.Machine

set_option Elab.async false

theorem Dev.fenceC_keeps (d : Dev) (kind index cause sub : Nat) : Keeps ⟨false, [F.FLT_STAT_lost, F.FLT_LOST], [.flt]⟩ d (Dev.fenceC d kind index cause sub) := by
  unfold Dev.fenceC
  repeat' (first
    | with_reducible exact Keeps.refl _ _
    | decide +kernel
    | (apply Keeps.step; with_reducible apply Dev.markFenced_keeps)
    | (apply Keeps.step; with_reducible apply Dev.postFenced_keeps))

theorem Dev.showTempFence_keeps (d : Dev) (n : Nat) (b : Bool) : Keeps ⟨false, [F.THM_FENCED_LO, F.THM_FENCED_HI], []⟩ d (Dev.showTempFence d n b) := by
  unfold Dev.showTempFence
  repeat' (first
    | with_reducible exact Keeps.refl _ _
    | decide +kernel
    | with_reducible assumption
    | lift_lets
    | (intro x; first | (refine Keeps.cut (d0 := d) (d1 := x) ?_ ?_; (on_goal 1 => subst x); (on_goal 2 => (intro _; clear_value x))) | subst x)
    | (apply Keeps.step; with_reducible apply Dev.wr_keeps)
    | (with_reducible apply Keeps.ite <;> intro _)
    | split)

theorem Dev.fencePending_keeps (d : Dev) (q : Nat) : Keeps ⟨false, [F.SC_TM_STAT_last_status, F.SC_TM_CNT_refusals, F.SC_CH_STAT_last_status, F.SC_LV_STAT_last_status, F.SC_DR_STAT_last_status, F.HI_QP_CTRL_draining, F.HI_QP_FLAGS_in_flight, F.CN_STAT_slots, F.FLT_STAT_lost, F.FLT_LOST], [.hi, .cn, .flt]⟩ d (Dev.fencePending d q) := by
  unfold Dev.fencePending
  repeat' (first
    | with_reducible exact Keeps.refl _ _
    | decide +kernel
    | (intro _ _ k; exact k.le)
    | (apply Keeps.step; with_reducible apply Dev.finish_keeps)
    | (apply Keeps.stepSame; with_reducible apply Dev.foldl_keeps; intro e _)
    | (with_reducible apply Keeps.ite <;> intro _)
    | split)

theorem Dev.endUrgent_keeps (d : Dev) (c : Nat) : Keeps ⟨false, [F.CV_STAT_urgent, F.CV_URG_busy, F.CV_URG_status], [.cv]⟩ d (Dev.endUrgent d c) := by
  unfold Dev.endUrgent
  repeat' (first
    | with_reducible exact Keeps.refl _ _
    | decide +kernel
    | with_reducible assumption
    | lift_lets
    | (intro x; first | (refine Keeps.cut (d0 := d) (d1 := x) ?_ ?_; (on_goal 1 => subst x); (on_goal 2 => (intro _; clear_value x))) | subst x)
    | (apply Keeps.step; with_reducible apply Dev.wr_keeps)
    | (apply Keeps.step; with_reducible apply Dev.put_keeps)
    | (apply Keeps.step; with_reducible apply Dev.clearUrgents_keeps)
    | (with_reducible apply Keeps.ite <;> intro _)
    | split)

theorem Dev.dropDacs_keeps (d : Dev) (m : Nat) : Keeps ⟨false, [F.CV_STAT_urgent], [.cv]⟩ d (Dev.dropDacs d m) := by
  unfold Dev.dropDacs
  repeat' (first
    | with_reducible exact Keeps.refl _ _
    | decide +kernel
    | (intro _ _ k; exact k.le)
    | (apply Keeps.stepSame; with_reducible apply Dev.each_keeps; intro e _)
    | (apply Keeps.step; with_reducible apply Dev.dropUrgent_keeps)
    | (apply Keeps.stepSame; with_reducible apply Dev.foldl_keeps; intro e _)
    | (with_reducible apply Keeps.ite <;> intro _)
    | split)

theorem Dev.endAdmits_keeps (d : Dev) (kind index : Nat) : Keeps ⟨false, [F.CV_STAT_urgent, F.SC_TM_STAT_last_status, F.SC_TM_CNT_refusals, F.SC_CH_STAT_last_status, F.SC_LV_STAT_last_status, F.SC_DR_STAT_last_status, F.HI_QP_CTRL_draining, F.HI_QP_FLAGS_in_flight, F.CN_STAT_slots, F.FLT_STAT_lost, F.FLT_LOST], [.cv, .hi, .cn, .flt]⟩ d (Dev.endAdmits d kind index) := by
  unfold Dev.endAdmits
  repeat' (first
    | with_reducible exact Keeps.refl _ _
    | decide +kernel
    | (intro _ _ k; exact k.le)
    | with_reducible assumption
    | exact id
    | lift_lets
    | (intro x; first | (refine Keeps.cut (d0 := e) (d1 := x) ?_ ?_; (on_goal 1 => subst x); (on_goal 2 => (intro _; clear_value x))) | (refine Keeps.cut (d0 := d) (d1 := x) ?_ ?_; (on_goal 1 => subst x); (on_goal 2 => (intro _; clear_value x))) | subst x)
    | (apply Keeps.step; with_reducible apply Dev.withFlt_keeps)
    | (apply Keeps.step; with_reducible apply Dev.finish_keeps)
    | (apply Keeps.step; with_reducible apply Dev.dropDacs_keeps)
    | (apply Keeps.stepSame; with_reducible apply Dev.foldl_keeps; intro e _)
    | (with_reducible apply Keeps.ite <;> intro _)
    | split)

theorem Dev.fenceIsland_keeps (d : Dev) (i cause sub : Nat) : Keeps ⟨false, [F.TB_GT_STAT_state, F.TB_GT_STAT_gt_valid, F.CV_STAT_urgent, F.PS_STAT_broken_live, F.PS_STAT_broken, F.EP_STAT_running, F.SC_TM_STAT_last_status, F.SC_TM_CNT_refusals, F.SC_CH_STAT_last_status, F.SC_LV_STAT_last_status, F.SC_DR_STAT_last_status, F.HI_QP_CTRL_enable, F.HI_QP_CTRL_status, F.HI_QP_CTRL_draining, F.HI_QP_STAT_sq_head, F.HI_QP_FLAGS_fenced, F.HI_QP_FLAGS_in_flight, F.CN_STAT_fenced, F.CN_STAT_slots, F.CN_TT_STAT_gt_valid, F.FLT_STAT_lost, F.FLT_LOST], [.cv, .ps, .hi, .cn, .flt]⟩ d (Dev.fenceIsland d i cause sub) := by
  unfold Dev.fenceIsland
  repeat' (first
    | with_reducible exact Keeps.refl _ _
    | decide +kernel
    | (intro _ _ k; exact k.le)
    | with_reducible assumption
    | lift_lets
    | (intro x; first | (refine Keeps.cut (d0 := e) (d1 := x) ?_ ?_; (on_goal 1 => subst x); (on_goal 2 => (intro _; clear_value x))) | (refine Keeps.cut (d0 := d) (d1 := x) ?_ ?_; (on_goal 1 => subst x); (on_goal 2 => (intro _; clear_value x))) | subst x)
    | (apply Keeps.stepSame; with_reducible apply Dev.each_keeps; intro e _)
    | (apply Keeps.step; with_reducible apply Dev.put_keeps)
    | (apply Keeps.step; with_reducible apply Dev.fenceQp_keeps)
    | (apply Keeps.step; with_reducible apply Dev.ttCheck_keeps)
    | (apply Keeps.step; with_reducible apply Dev.canFence_keeps)
    | (apply Keeps.step; with_reducible apply Dev.breakLine_keeps)
    | (apply Keeps.step; with_reducible apply Dev.fenceC_keeps)
    | (apply Keeps.step; with_reducible apply Dev.fencePending_keeps)
    | (apply Keeps.step; with_reducible apply Dev.endAdmits_keeps)
    | (with_reducible apply Keeps.ite <;> intro _)
    | split)

theorem Dev.fenceSafety_keeps (d : Dev) (k cause sub : Nat) : Keeps ⟨false, [F.DEV_STATE_state, F.TB_STG_RUN_run, F.TB_STG_STAT_running, F.TB_STG_STAT_tripped, F.PG_STAT_out_high, F.PG_STAT_out_low, F.PG_STAT_trip_hold, F.WM_SW_HELD, F.WM_SW_STAT_held, F.WM_SW_STAT_action, F.WM_SW_STAT_cause_kind, F.WM_SW_STAT_cause_index, F.WM_SW_STAT_count, F.WM_SW_TIME_LO, F.WM_SW_TIME_HI, F.SC_STAT_mode, F.SC_STAT_grace, F.SC_STAT_fenced_a, F.SC_STAT_fenced_b, F.SC_STAT_fenced_chk, F.SC_STAT_grace_left, F.SC_LAST_outcome, F.SC_ABS_LEFT_left, F.SC_ABS_LEFT_awaiting, F.FLT_STAT_lost, F.FLT_STAT_safe, F.FLT_LOST, F.FLT_SAFE_safe, F.FLT_SAFE_kind, F.FLT_SAFE_index, F.FLT_SAFE_status, F.FLT_SAFE_TIME_LO, F.FLT_SAFE_TIME_HI], [.tb, .pp, .cv, .sc, .flt]⟩ d (Dev.fenceSafety d k cause sub) := by
  unfold Dev.fenceSafety
  repeat' (first
    | with_reducible exact Keeps.refl _ _
    | decide +kernel
    | with_reducible assumption
    | lift_lets
    | (intro x; first | (refine Keeps.cut (d0 := d) (d1 := x) ?_ ?_; (on_goal 1 => subst x); (on_goal 2 => (intro _; clear_value x))) | subst x)
    | (apply Keeps.step; with_reducible apply Dev.fenceCopy_keeps)
    | (apply Keeps.step; with_reducible apply Dev.goSimplex_keeps)
    | (apply Keeps.step; with_reducible apply Dev.scHalt_keeps)
    | (with_reducible apply Keeps.ite <;> intro _)
    | split)

theorem Dev.fenceUnit_keeps (d : Dev) (kind index cause sub : Nat) : Keeps ⟨false, [F.DEV_STATE_state, F.TB_GT_STAT_state, F.TB_GT_STAT_gt_valid, F.TB_STG_RUN_run, F.TB_STG_COMMIT_pending, F.TB_STG_STAT_running, F.TB_STG_STAT_tripped, F.TB_STG_STAT_fenced, F.PG_STAT_out_high, F.PG_STAT_out_low, F.PG_STAT_trip_hold, F.PP_STAT_fenced, F.CV_STAT_busy, F.CV_STAT_urgent, F.CV_URG_busy, F.CV_URG_status, F.WM_SW_HELD, F.WM_SW_STAT_held, F.WM_SW_STAT_action, F.WM_SW_STAT_cause_kind, F.WM_SW_STAT_cause_index, F.WM_SW_STAT_count, F.WM_SW_TIME_LO, F.WM_SW_TIME_HI, F.PS_STAT_running, F.PS_STAT_fenced, F.PS_STAT_broken_live, F.PS_STAT_broken, F.PS_CMP_STAT_armed, F.EP_STAT_running, F.EP_STAT_src_lost, F.BE_LP_SWAP_pending, F.BE_LP_SWAP_status, F.BE_LP_STAT_state, F.SC_TM_STAT_last_status, F.SC_TM_CNT_refusals, F.SC_CH_STAT_last_status, F.SC_LV_STAT_last_status, F.SC_DR_STAT_last_status, F.SC_STAT_mode, F.SC_STAT_grace, F.SC_STAT_fenced_a, F.SC_STAT_fenced_b, F.SC_STAT_fenced_chk, F.SC_STAT_grace_left, F.SC_LAST_outcome, F.SC_ABS_LEFT_left, F.SC_ABS_LEFT_awaiting, F.HI_QP_CTRL_enable, F.HI_QP_CTRL_status, F.HI_QP_CTRL_draining, F.HI_QP_STAT_sq_head, F.HI_QP_FLAGS_fenced, F.HI_QP_FLAGS_in_flight, F.CN_STAT_fenced, F.CN_STAT_slots, F.CN_TT_STAT_gt_valid, F.FL_STAT_fenced, F.FLT_STAT_lost, F.FLT_STAT_safe, F.FLT_LOST, F.FLT_SAFE_safe, F.FLT_SAFE_kind, F.FLT_SAFE_index, F.FLT_SAFE_status, F.FLT_SAFE_TIME_LO, F.FLT_SAFE_TIME_HI, F.THM_FENCED_LO, F.THM_FENCED_HI], [.tb, .pp, .cv, .ps, .be, .sc, .hi, .cn, .flt]⟩ d (Dev.fenceUnit d kind index cause sub) := by
  unfold Dev.fenceUnit
  repeat' (first
    | with_reducible exact Keeps.refl _ _
    | decide +kernel
    | (intro _ _ k; exact k.le)
    | with_reducible assumption
    | lift_lets
    | (intro x; first | (refine Keeps.cut (d0 := e) (d1 := x) ?_ ?_; (on_goal 1 => subst x); (on_goal 2 => (intro _; clear_value x))) | (refine Keeps.cut (d0 := d) (d1 := x) ?_ ?_; (on_goal 1 => subst x); (on_goal 2 => (intro _; clear_value x))) | subst x)
    | (apply Keeps.stepSame; with_reducible apply Dev.each_keeps; intro e _)
    | (apply Keeps.step; with_reducible apply Dev.put_keeps)
    | (apply Keeps.step; with_reducible apply Dev.drivePort_keeps)
    | (apply Keeps.step; with_reducible apply Dev.stopwork_keeps)
    | (apply Keeps.step; with_reducible apply Dev.fenceStage_keeps)
    | (apply Keeps.step; with_reducible apply Dev.fenceQp_keeps)
    | (apply Keeps.step; with_reducible apply Dev.canFence_keeps)
    | (apply Keeps.step; with_reducible apply Dev.flowFence_keeps)
    | (apply Keeps.step; with_reducible apply Dev.fencePos_keeps)
    | (apply Keeps.step; with_reducible apply Dev.fenceC_keeps)
    | (apply Keeps.step; with_reducible apply Dev.showTempFence_keeps)
    | (apply Keeps.step; with_reducible apply Dev.fencePending_keeps)
    | (apply Keeps.step; with_reducible apply Dev.endUrgent_keeps)
    | (apply Keeps.step; with_reducible apply Dev.endAdmits_keeps)
    | (apply Keeps.step; with_reducible apply Dev.fenceIsland_keeps)
    | (apply Keeps.step; with_reducible apply Dev.fenceSafety_keeps)
    | (with_reducible apply Keeps.ite <;> intro _)
    | split
    | beta_reduce)

theorem Dev.admitCmp_keeps (d : Dev) (c : Cmp) : Keeps ⟨false, [F.WM_LATCH_lo, F.WM_LATCH_hi, F.WM_PC_LATCH_lo, F.WM_PC_LATCH_hi, F.WM_STAT_live_lo, F.WM_STAT_live_hi, F.WM_STAT_band_hold, F.WM_PC_STAT_live_lo, F.WM_PC_STAT_live_hi, F.WM_PC_STAT_band_hold, F.WM_EF_RISE_LO, F.WM_EF_RISE_HI, F.WM_EF_FALL_LO, F.WM_EF_FALL_HI, F.WM_EF_STAT_live, F.WM_EF_STAT_band_hold, F.WM_EF_STAT_rise, F.WM_EF_STAT_fall, F.WM_EF_STAT_edges], [.cv, .be, .tm, .flt]⟩ d (Dev.admitCmp d c) := by
  unfold Dev.admitCmp
  repeat' (first
    | with_reducible exact Keeps.refl _ _
    | decide +kernel
    | with_reducible assumption
    | lift_lets
    | (intro x; first | (refine Keeps.cut (d0 := d) (d1 := x) ?_ ?_; (on_goal 1 => subst x); (on_goal 2 => (intro _; clear_value x))) | subst x)
    | (apply Keeps.step; with_reducible apply Dev.markFenced_keeps)
    | (apply Keeps.step; with_reducible apply Dev.setLive_keeps)
    | (apply Keeps.step; with_reducible apply Dev.setLatch_keeps)
    | (apply Keeps.step; with_reducible apply Dev.compareAnew_keeps))

theorem Dev.restartImset_keeps (d : Dev) : Keeps ⟨false, [F.SEC_STAT_session_qp0, F.SEC_STAT_session_uart, F.IMS_STAT_state], [.sec, .flt]⟩ d (Dev.restartImset d) := by
  unfold Dev.restartImset
  repeat' (first
    | with_reducible exact Keeps.refl _ _
    | decide +kernel
    | with_reducible assumption
    | lift_lets
    | (intro x; first | (refine Keeps.cut (d0 := d) (d1 := x) ?_ ?_; (on_goal 1 => subst x); (on_goal 2 => (intro _; clear_value x))) | subst x)
    | (apply Keeps.step; (with_reducible apply Dev.withSec_keeps); (exact rfl); (exact rfl))
    | (apply Keeps.step; with_reducible apply Dev.wr_keeps)
    | (apply Keeps.step; with_reducible apply Dev.put_keeps)
    | (apply Keeps.step; with_reducible apply Dev.markFenced_keeps))

theorem Dev.admitIsland_keeps (d : Dev) (i : Nat) : Keeps ⟨false, [F.TB_GT_STAT_state, F.TB_GT_STAT_gt_valid, F.PS_STAT_broken_live, F.EP_STAT_running, F.EP_STAT_src_lost, F.EP_STAT_limited, F.EP_CNT_LO, F.EP_CNT_HI, F.EP_LAG, F.CN_STAT_state, F.CN_STAT_fenced, F.CN_STAT_tec, F.CN_STAT_rec, F.CN_TT_STAT_state, F.CN_TT_STAT_gt_valid, F.SEC_STAT_session_qp0, F.SEC_STAT_session_uart, F.IMS_STAT_state, F.FLT_STAT_lost, F.FLT_LOST], [.ps, .cn, .sec, .flt]⟩ d (Dev.admitIsland d i) := by
  unfold Dev.admitIsland
  repeat' (first
    | with_reducible exact Keeps.refl _ _
    | decide +kernel
    | (intro _ _ k; exact k.le)
    | with_reducible assumption
    | lift_lets
    | (intro x; first | (refine Keeps.cut (d0 := e) (d1 := x) ?_ ?_; (on_goal 1 => subst x); (on_goal 2 => (intro _; clear_value x))) | (refine Keeps.cut (d0 := d) (d1 := x) ?_ ?_; (on_goal 1 => subst x); (on_goal 2 => (intro _; clear_value x))) | subst x)
    | (apply Keeps.stepSame; with_reducible apply Dev.each_keeps; intro e _)
    | (apply Keeps.step; with_reducible apply Dev.markFenced_keeps)
    | (apply Keeps.step; with_reducible apply Dev.ttCheck_keeps)
    | (apply Keeps.step; with_reducible apply Dev.canAdmit_keeps)
    | (apply Keeps.step; with_reducible apply Dev.mendLine_keeps)
    | (apply Keeps.step; with_reducible apply Dev.startRepeater_keeps)
    | (apply Keeps.step; with_reducible apply Dev.restartImset_keeps)
    | (with_reducible apply Keeps.ite <;> intro _)
    | split)

theorem Dev.clearBank_keeps (d : Dev) (b : Nat) : Keeps ⟨false, [], [.mb]⟩ d (d.clearBank b) :=
  Dev.withMb_keeps d _ fun h => ⟨h.1.filter _, fun e he => h.2 e (List.mem_filter.mp he).1⟩

theorem Dev.readmit_keeps (d : Dev) (kind index : Nat) : Keeps ⟨false, [F.TB_GT_STAT_state, F.TB_GT_STAT_gt_valid, F.TB_STG_STAT_fenced, F.PP_STAT_fenced, F.CV_STAT_busy, F.CV_STAT_entry, F.WM_LATCH_lo, F.WM_LATCH_hi, F.WM_PC_LATCH_lo, F.WM_PC_LATCH_hi, F.WM_STAT_live_lo, F.WM_STAT_live_hi, F.WM_STAT_band_hold, F.WM_PC_STAT_live_lo, F.WM_PC_STAT_live_hi, F.WM_PC_STAT_band_hold, F.WM_EF_RISE_LO, F.WM_EF_RISE_HI, F.WM_EF_FALL_LO, F.WM_EF_FALL_HI, F.WM_EF_STAT_live, F.WM_EF_STAT_band_hold, F.WM_EF_STAT_rise, F.WM_EF_STAT_fall, F.WM_EF_STAT_edges, F.PS_STAT_running, F.PS_STAT_locked, F.PS_STAT_fenced, F.PS_STAT_still, F.PS_STAT_broken_live, F.PS_ILL_CNT_window, F.PS_OBS_POS_LO, F.PS_OBS_POS_HI, F.PS_OBS_ANGLE, F.PS_OBS_EANGLE, F.PS_OBS_SPEED, F.PS_OBS_ACCEL, F.EP_STAT_running, F.EP_STAT_src_lost, F.EP_STAT_limited, F.EP_CNT_LO, F.EP_CNT_HI, F.EP_LAG, F.BE_LP_STAT_state, F.BE_LP_STAT_consec, F.CN_STAT_state, F.CN_STAT_fenced, F.CN_STAT_tec, F.CN_STAT_rec, F.CN_TT_STAT_state, F.CN_TT_STAT_gt_valid, F.FL_STAT_fenced, F.SEC_STAT_session_qp0, F.SEC_STAT_session_uart, F.IMS_STAT_state, F.FLT_STAT_lost, F.FLT_LOST, F.THM_FENCED_LO, F.THM_FENCED_HI], [.pp, .cv, .ps, .be, .tm, .mb, .cn, .sec, .flt]⟩ d (Dev.readmit d kind index) := by
  unfold Dev.readmit
  repeat' (first
    | with_reducible exact Keeps.refl _ _
    | decide +kernel
    | with_reducible assumption
    | lift_lets
    | (intro x; first | (refine Keeps.cut (d0 := d) (d1 := x) ?_ ?_; (on_goal 1 => subst x); (on_goal 2 => (intro _; clear_value x))) | subst x)
    | (apply Keeps.step; with_reducible apply Dev.put_keeps)
    | (apply Keeps.step; with_reducible apply Dev.setPort_keeps)
    | (apply Keeps.step; with_reducible apply Dev.markFenced_keeps)
    | (apply Keeps.step; with_reducible apply Dev.drivePort_keeps)
    | (apply Keeps.step; with_reducible apply Dev.admitStage_keeps)
    | (apply Keeps.step; with_reducible apply Dev.canAdmit_keeps)
    | (apply Keeps.step; with_reducible apply Dev.startPass_keeps)
    | (apply Keeps.step; with_reducible apply Dev.startRepeater_keeps)
    | (apply Keeps.step; with_reducible apply Dev.admitPos_keeps)
    | (apply Keeps.step; with_reducible apply Dev.showTempFence_keeps)
    | (apply Keeps.step; with_reducible apply Dev.admitCmp_keeps)
    | (apply Keeps.step; with_reducible apply Dev.restartImset_keeps)
    | (apply Keeps.step; with_reducible apply Dev.admitIsland_keeps)
    | (apply Keeps.step; with_reducible apply Dev.clearBank_keeps)
    | (with_reducible apply Keeps.ite <;> intro _)
    | split
    | beta_reduce)

theorem Dev.actFence_keeps (d : Dev) (kind index : Nat) : Keeps ⟨false, [F.FAB_WRITE_ERR, F.FAB_WRITE_ERR_more, F.FAB_WRITE_DATA, F.FAB_WRITE_CNT, F.DEV_STATE_state, F.TB_GT_STAT_state, F.TB_GT_STAT_gt_valid, F.TB_STG_RUN_run, F.TB_STG_COMMIT_pending, F.TB_STG_STAT_running, F.TB_STG_STAT_tripped, F.TB_STG_STAT_fenced, F.PG_STAT_out_high, F.PG_STAT_out_low, F.PG_STAT_trip_hold, F.PP_STAT_fenced, F.CV_STAT_busy, F.CV_STAT_urgent, F.CV_URG_busy, F.CV_URG_status, F.WM_SW_HELD, F.WM_SW_STAT_held, F.WM_SW_STAT_action, F.WM_SW_STAT_cause_kind, F.WM_SW_STAT_cause_index, F.WM_SW_STAT_count, F.WM_SW_TIME_LO, F.WM_SW_TIME_HI, F.PS_STAT_running, F.PS_STAT_fenced, F.PS_STAT_broken_live, F.PS_STAT_broken, F.PS_CMP_STAT_armed, F.EP_STAT_running, F.EP_STAT_src_lost, F.BE_LP_SWAP_pending, F.BE_LP_SWAP_status, F.BE_LP_STAT_state, F.SC_TM_STAT_last_status, F.SC_TM_CNT_refusals, F.SC_CH_STAT_last_status, F.SC_LV_STAT_last_status, F.SC_DR_STAT_last_status, F.SC_STAT_mode, F.SC_STAT_grace, F.SC_STAT_fenced_a, F.SC_STAT_fenced_b, F.SC_STAT_fenced_chk, F.SC_STAT_grace_left, F.SC_LAST_outcome, F.SC_ABS_LEFT_left, F.SC_ABS_LEFT_awaiting, F.HI_QP_CTRL_enable, F.HI_QP_CTRL_status, F.HI_QP_CTRL_draining, F.HI_QP_STAT_sq_head, F.HI_QP_FLAGS_fenced, F.HI_QP_FLAGS_in_flight, F.CN_STAT_fenced, F.CN_STAT_slots, F.CN_TT_STAT_gt_valid, F.FL_STAT_fenced, F.FLT_STAT_lost, F.FLT_STAT_safe, F.FLT_LOST, F.FLT_ACT_cmd, F.FLT_ACT_kind, F.FLT_ACT_index, F.FLT_ACT_status, F.FLT_SAFE_safe, F.FLT_SAFE_kind, F.FLT_SAFE_index, F.FLT_SAFE_status, F.FLT_SAFE_TIME_LO, F.FLT_SAFE_TIME_HI, F.THM_FENCED_LO, F.THM_FENCED_HI], [.tb, .pp, .cv, .ps, .be, .sc, .hi, .cn, .flt]⟩ d (Dev.actFence d kind index) := by
  unfold Dev.actFence
  repeat' (first
    | with_reducible exact Keeps.refl _ _
    | decide +kernel
    | with_reducible assumption
    | lift_lets
    | (intro x; first | (refine Keeps.cut (d0 := d) (d1 := x) ?_ ?_; (on_goal 1 => subst x); (on_goal 2 => (intro _; clear_value x))) | subst x)
    | (apply Keeps.step; with_reducible apply Dev.wr_keeps)
    | (apply Keeps.step; with_reducible apply Dev.reject_keeps)
    | (apply Keeps.step; with_reducible apply Dev.endAdmits_keeps)
    | (apply Keeps.step; with_reducible apply Dev.fenceUnit_keeps)
    | (with_reducible apply Keeps.ite <;> intro _)
    | split)

theorem execFltFence_runs (t : Nat) (kind index : BitVec 8) (s : State) :
    Runs ⟨false, [F.FAB_WRITE_ERR, F.FAB_WRITE_ERR_more, F.FAB_WRITE_DATA, F.FAB_WRITE_CNT, F.DEV_STATE_state, F.TB_GT_STAT_state, F.TB_GT_STAT_gt_valid, F.TB_STG_RUN_run, F.TB_STG_COMMIT_pending, F.TB_STG_STAT_running, F.TB_STG_STAT_tripped, F.TB_STG_STAT_fenced, F.PG_STAT_out_high, F.PG_STAT_out_low, F.PG_STAT_trip_hold, F.PP_STAT_fenced, F.CV_STAT_busy, F.CV_STAT_urgent, F.CV_URG_busy, F.CV_URG_status, F.WM_SW_HELD, F.WM_SW_STAT_held, F.WM_SW_STAT_action, F.WM_SW_STAT_cause_kind, F.WM_SW_STAT_cause_index, F.WM_SW_STAT_count, F.WM_SW_TIME_LO, F.WM_SW_TIME_HI, F.PS_STAT_running, F.PS_STAT_fenced, F.PS_STAT_broken_live, F.PS_STAT_broken, F.PS_CMP_STAT_armed, F.EP_STAT_running, F.EP_STAT_src_lost, F.BE_LP_SWAP_pending, F.BE_LP_SWAP_status, F.BE_LP_STAT_state, F.SC_TM_STAT_last_status, F.SC_TM_CNT_refusals, F.SC_CH_STAT_last_status, F.SC_LV_STAT_last_status, F.SC_DR_STAT_last_status, F.SC_STAT_mode, F.SC_STAT_grace, F.SC_STAT_fenced_a, F.SC_STAT_fenced_b, F.SC_STAT_fenced_chk, F.SC_STAT_grace_left, F.SC_LAST_outcome, F.SC_ABS_LEFT_left, F.SC_ABS_LEFT_awaiting, F.HI_QP_CTRL_enable, F.HI_QP_CTRL_status, F.HI_QP_CTRL_draining, F.HI_QP_STAT_sq_head, F.HI_QP_FLAGS_fenced, F.HI_QP_FLAGS_in_flight, F.CN_STAT_fenced, F.CN_STAT_slots, F.CN_TT_STAT_gt_valid, F.FL_STAT_fenced, F.FLT_STAT_lost, F.FLT_STAT_safe, F.FLT_LOST, F.FLT_ACT_cmd, F.FLT_ACT_kind, F.FLT_ACT_index, F.FLT_ACT_status, F.FLT_SAFE_safe, F.FLT_SAFE_kind, F.FLT_SAFE_index, F.FLT_SAFE_status, F.FLT_SAFE_TIME_LO, F.FLT_SAFE_TIME_HI, F.THM_FENCED_LO, F.THM_FENCED_HI], [.tb, .pp, .cv, .ps, .be, .sc, .hi, .cn, .flt]⟩ t s (execFltFence t kind index s) := by
  unfold execFltFence fromFirmware
  refine Runs.of fun d => ?_
  repeat' (first
    | with_reducible exact Keeps.refl _ _
    | decide +kernel
    | (apply Keeps.step; with_reducible apply Dev.actFence_keeps)
    | (with_reducible apply Keeps.ite <;> intro _)
    | beta_reduce)

theorem Dev.actSafe_keeps (d : Dev) (kind index : Nat) : Keeps ⟨false, [F.DEV_STATE_state, F.TB_STG_RUN_run, F.TB_STG_STAT_running, F.TB_STG_STAT_tripped, F.PG_STAT_out_high, F.PG_STAT_out_low, F.PG_STAT_trip_hold, F.WM_SW_HELD, F.WM_SW_STAT_held, F.WM_SW_STAT_action, F.WM_SW_STAT_cause_kind, F.WM_SW_STAT_cause_index, F.WM_SW_STAT_count, F.WM_SW_TIME_LO, F.WM_SW_TIME_HI, F.SC_ABS_LEFT_left, F.SC_ABS_LEFT_awaiting, F.FLT_STAT_lost, F.FLT_STAT_safe, F.FLT_LOST, F.FLT_ACT_cmd, F.FLT_ACT_kind, F.FLT_ACT_index, F.FLT_ACT_status, F.FLT_SAFE_safe, F.FLT_SAFE_kind, F.FLT_SAFE_index, F.FLT_SAFE_status, F.FLT_SAFE_TIME_LO, F.FLT_SAFE_TIME_HI], [.tb, .pp, .cv, .sc, .flt]⟩ d (Dev.actSafe d kind index) := by
  unfold Dev.actSafe
  repeat' (first
    | with_reducible exact Keeps.refl _ _
    | decide +kernel
    | with_reducible assumption
    | lift_lets
    | (intro x; first | (refine Keeps.cut (d0 := d) (d1 := x) ?_ ?_; (on_goal 1 => subst x); (on_goal 2 => (intro _; clear_value x))) | subst x)
    | (apply Keeps.step; with_reducible apply Dev.wr_keeps)
    | (apply Keeps.step; with_reducible apply Dev.enterSafe_keeps))

theorem execFltSafe_runs (t : Nat) (kind index : BitVec 8) (s : State) :
    Runs ⟨false, [F.DEV_STATE_state, F.TB_STG_RUN_run, F.TB_STG_STAT_running, F.TB_STG_STAT_tripped, F.PG_STAT_out_high, F.PG_STAT_out_low, F.PG_STAT_trip_hold, F.WM_SW_HELD, F.WM_SW_STAT_held, F.WM_SW_STAT_action, F.WM_SW_STAT_cause_kind, F.WM_SW_STAT_cause_index, F.WM_SW_STAT_count, F.WM_SW_TIME_LO, F.WM_SW_TIME_HI, F.SC_ABS_LEFT_left, F.SC_ABS_LEFT_awaiting, F.FLT_STAT_lost, F.FLT_STAT_safe, F.FLT_LOST, F.FLT_ACT_cmd, F.FLT_ACT_kind, F.FLT_ACT_index, F.FLT_ACT_status, F.FLT_SAFE_safe, F.FLT_SAFE_kind, F.FLT_SAFE_index, F.FLT_SAFE_status, F.FLT_SAFE_TIME_LO, F.FLT_SAFE_TIME_HI], [.tb, .pp, .cv, .sc, .flt]⟩ t s (execFltSafe t kind index s) := by
  unfold execFltSafe fromFirmware
  refine Runs.of fun d => ?_
  repeat' (first
    | with_reducible exact Keeps.refl _ _
    | decide +kernel
    | (apply Keeps.step; with_reducible apply Dev.actSafe_keeps)
    | (with_reducible apply Keeps.ite <;> intro _)
    | beta_reduce)

theorem execIslandLost_runs (t : Nat) (i : Fin 12) (s : State) :
    Runs ⟨false, [F.DEV_STATE_state, F.TB_GT_STAT_state, F.TB_GT_STAT_gt_valid, F.TB_STG_RUN_run, F.TB_STG_STAT_running, F.TB_STG_STAT_tripped, F.PG_STAT_out_high, F.PG_STAT_out_low, F.PG_STAT_trip_hold, F.CV_STAT_urgent, F.WM_SW_HELD, F.WM_SW_STAT_held, F.WM_SW_STAT_action, F.WM_SW_STAT_cause_kind, F.WM_SW_STAT_cause_index, F.WM_SW_STAT_count, F.WM_SW_TIME_LO, F.WM_SW_TIME_HI, F.PS_STAT_broken_live, F.PS_STAT_broken, F.EP_STAT_running, F.SC_TM_STAT_last_status, F.SC_TM_CNT_refusals, F.SC_CH_STAT_last_status, F.SC_LV_STAT_last_status, F.SC_DR_STAT_last_status, F.SC_ABS_LEFT_left, F.SC_ABS_LEFT_awaiting, F.HI_QP_CTRL_enable, F.HI_QP_CTRL_status, F.HI_QP_CTRL_draining, F.HI_QP_STAT_sq_head, F.HI_QP_FLAGS_fenced, F.HI_QP_FLAGS_in_flight, F.CN_STAT_fenced, F.CN_STAT_slots, F.CN_TT_STAT_gt_valid, F.FLT_STAT_lost, F.FLT_STAT_safe, F.FLT_LOST, F.FLT_SAFE_safe, F.FLT_SAFE_kind, F.FLT_SAFE_index, F.FLT_SAFE_status, F.FLT_SAFE_TIME_LO, F.FLT_SAFE_TIME_HI], [.clock, .tb, .pp, .cv, .ps, .sc, .hi, .cn, .flt]⟩ t s (execIslandLost t i s) := by
  unfold execIslandLost
  refine Runs.of fun d => ?_
  repeat' (first
    | with_reducible exact Keeps.refl _ _
    | decide +kernel
    | (apply Keeps.step; with_reducible apply Dev.withClockOn_keeps)
    | (apply Keeps.step; with_reducible apply Dev.report_keeps)
    | (apply Keeps.step; with_reducible apply Dev.enterSafe_keeps)
    | (apply Keeps.step; with_reducible apply Dev.fenceIsland_keeps)
    | (with_reducible apply Keeps.ite <;> intro _)
    | split)

theorem Dev.admitSupplies_keeps (d : Dev) (kind index hiMv loMv : Nat) : Keeps ⟨false, [F.PP_STAT_uvlo_hi_live, F.PP_STAT_uvlo_lo_live, F.PP_STAT_uvlo, F.PP_CNT_uvlo, F.PP_SUPPLY_hi_supply, F.PP_SUPPLY_lo_supply, F.FLT_STAT_lost, F.FLT_LOST], [.pp, .flt]⟩ d (Dev.admitSupplies d kind index hiMv loMv) := by
  unfold Dev.admitSupplies
  repeat' (first
    | with_reducible exact Keeps.refl _ _
    | decide +kernel
    | (apply Keeps.step; with_reducible apply Dev.supplyAt_keeps)
    | (with_reducible apply Keeps.ite <;> intro _)
    | split)

theorem Dev.startTest_keeps (d : Dev) (kind index q i : Nat) : Keeps ⟨false, [F.CV_STAT_urgent, F.SC_TM_STAT_last_status, F.SC_TM_CNT_refusals, F.SC_CH_STAT_last_status, F.SC_LV_STAT_last_status, F.SC_DR_STAT_last_status, F.HI_QP_CTRL_draining, F.HI_QP_FLAGS_in_flight, F.CN_STAT_slots, F.FLT_STAT_lost, F.FLT_LOST], [.cv, .hi, .cn, .flt]⟩ d (Dev.startTest d kind index q i) := by
  unfold Dev.startTest
  repeat' (first
    | with_reducible exact Keeps.refl _ _
    | decide +kernel
    | with_reducible assumption
    | exact id
    | lift_lets
    | (intro x; first | (refine Keeps.cut (d0 := d) (d1 := x) ?_ ?_; (on_goal 1 => subst x); (on_goal 2 => (intro _; clear_value x))) | subst x)
    | (apply Keeps.step; with_reducible apply Dev.withFlt_keeps)
    | (apply Keeps.step; with_reducible apply Dev.requestUrgent_keeps)
    | (apply Keeps.step; with_reducible apply Dev.takeTriggers_keeps)
    | (apply Keeps.step; with_reducible apply Dev.finish_keeps)
    | (with_reducible apply Keeps.ite <;> intro _)
    | split
    | beta_reduce)

theorem execAdmit_runs (t : Nat) (q : Fin 64) (i hiMv loMv : Nat) (clock : Bool) (s : State) :
    Runs ⟨false, [F.TB_GT_STAT_state, F.TB_GT_STAT_gt_valid, F.TB_STG_STAT_fenced, F.PP_STAT_uvlo_hi_live, F.PP_STAT_uvlo_lo_live, F.PP_STAT_fenced, F.PP_STAT_uvlo, F.PP_CNT_uvlo, F.PP_SUPPLY_hi_supply, F.PP_SUPPLY_lo_supply, F.CV_STAT_busy, F.CV_STAT_urgent, F.CV_STAT_entry, F.WM_LATCH_lo, F.WM_LATCH_hi, F.WM_PC_LATCH_lo, F.WM_PC_LATCH_hi, F.WM_STAT_live_lo, F.WM_STAT_live_hi, F.WM_STAT_band_hold, F.WM_PC_STAT_live_lo, F.WM_PC_STAT_live_hi, F.WM_PC_STAT_band_hold, F.WM_EF_RISE_LO, F.WM_EF_RISE_HI, F.WM_EF_FALL_LO, F.WM_EF_FALL_HI, F.WM_EF_STAT_live, F.WM_EF_STAT_band_hold, F.WM_EF_STAT_rise, F.WM_EF_STAT_fall, F.WM_EF_STAT_edges, F.PS_STAT_running, F.PS_STAT_locked, F.PS_STAT_fenced, F.PS_STAT_still, F.PS_STAT_broken_live, F.PS_ILL_CNT_window, F.PS_OBS_POS_LO, F.PS_OBS_POS_HI, F.PS_OBS_ANGLE, F.PS_OBS_EANGLE, F.PS_OBS_SPEED, F.PS_OBS_ACCEL, F.EP_STAT_running, F.EP_STAT_src_lost, F.EP_STAT_limited, F.EP_CNT_LO, F.EP_CNT_HI, F.EP_LAG, F.BE_LP_STAT_state, F.BE_LP_STAT_consec, F.SC_TM_STAT_last_status, F.SC_TM_CNT_refusals, F.SC_CH_STAT_last_status, F.SC_LV_STAT_last_status, F.SC_DR_STAT_last_status, F.HI_QP_CTRL_draining, F.HI_QP_FLAGS_in_flight, F.CN_STAT_state, F.CN_STAT_fenced, F.CN_STAT_slots, F.CN_STAT_tec, F.CN_STAT_rec, F.CN_TT_STAT_state, F.CN_TT_STAT_gt_valid, F.FL_STAT_fenced, F.SEC_STAT_session_qp0, F.SEC_STAT_session_uart, F.IMS_STAT_state, F.FLT_STAT_lost, F.FLT_LOST, F.THM_FENCED_LO, F.THM_FENCED_HI], [.pp, .cv, .ps, .be, .tm, .mb, .hi, .cn, .sec, .flt]⟩ t s (execAdmit t q i hiMv loMv clock s) := by
  unfold execAdmit
  refine Runs.of fun d => ?_
  repeat' (first
    | with_reducible exact Keeps.refl _ _
    | decide +kernel
    | (intro _ _ k; exact k.le)
    | with_reducible assumption
    | lift_lets
    | (intro x; first | (refine Keeps.cut (d0 := e) (d1 := x) ?_ ?_; (on_goal 1 => subst x); (on_goal 2 => (intro _; clear_value x))) | (refine Keeps.cut (d0 := d) (d1 := x) ?_ ?_; (on_goal 1 => subst x); (on_goal 2 => (intro _; clear_value x))) | subst x)
    | (apply Keeps.step; with_reducible apply Dev.finish_keeps)
    | (apply Keeps.stepSame; with_reducible apply Dev.startItem_keeps; intro e _)
    | (apply Keeps.step; with_reducible apply Dev.readmit_keeps)
    | (apply Keeps.step; with_reducible apply Dev.admitSupplies_keeps)
    | (apply Keeps.step; with_reducible apply Dev.startTest_keeps)
    | (with_reducible apply Keeps.ite <;> intro _)
    | split
    | beta_reduce)

theorem execAdmitDone_runs (t : Nat) (q : Fin 64) (i : Nat) (x : AdmitTest) (s : State) :
    Runs ⟨false, [F.TB_GT_STAT_state, F.TB_GT_STAT_gt_valid, F.TB_STG_STAT_fenced, F.PP_STAT_uvlo_hi_live, F.PP_STAT_uvlo_lo_live, F.PP_STAT_fenced, F.PP_STAT_uvlo, F.PP_CNT_uvlo, F.PP_SUPPLY_hi_supply, F.PP_SUPPLY_lo_supply, F.CV_STAT_busy, F.CV_STAT_urgent, F.CV_STAT_entry, F.WM_LATCH_lo, F.WM_LATCH_hi, F.WM_PC_LATCH_lo, F.WM_PC_LATCH_hi, F.WM_STAT_live_lo, F.WM_STAT_live_hi, F.WM_STAT_band_hold, F.WM_PC_STAT_live_lo, F.WM_PC_STAT_live_hi, F.WM_PC_STAT_band_hold, F.WM_EF_RISE_LO, F.WM_EF_RISE_HI, F.WM_EF_FALL_LO, F.WM_EF_FALL_HI, F.WM_EF_STAT_live, F.WM_EF_STAT_band_hold, F.WM_EF_STAT_rise, F.WM_EF_STAT_fall, F.WM_EF_STAT_edges, F.PS_STAT_running, F.PS_STAT_locked, F.PS_STAT_fenced, F.PS_STAT_still, F.PS_STAT_broken_live, F.PS_ILL_CNT_window, F.PS_OBS_POS_LO, F.PS_OBS_POS_HI, F.PS_OBS_ANGLE, F.PS_OBS_EANGLE, F.PS_OBS_SPEED, F.PS_OBS_ACCEL, F.EP_STAT_running, F.EP_STAT_src_lost, F.EP_STAT_limited, F.EP_CNT_LO, F.EP_CNT_HI, F.EP_LAG, F.BE_LP_STAT_state, F.BE_LP_STAT_consec, F.SC_TM_STAT_last_status, F.SC_TM_CNT_refusals, F.SC_CH_STAT_last_status, F.SC_LV_STAT_last_status, F.SC_DR_STAT_last_status, F.HI_QP_CTRL_draining, F.HI_QP_FLAGS_in_flight, F.CN_STAT_state, F.CN_STAT_fenced, F.CN_STAT_slots, F.CN_STAT_tec, F.CN_STAT_rec, F.CN_TT_STAT_state, F.CN_TT_STAT_gt_valid, F.FL_STAT_fenced, F.SEC_STAT_session_qp0, F.SEC_STAT_session_uart, F.IMS_STAT_state, F.FLT_STAT_lost, F.FLT_LOST, F.THM_FENCED_LO, F.THM_FENCED_HI], [.pp, .cv, .ps, .be, .tm, .mb, .hi, .cn, .sec, .flt]⟩ t s (execAdmitDone t q i x s) := by
  unfold execAdmitDone
  refine Runs.of fun d => ?_
  repeat' (first
    | with_reducible exact Keeps.refl _ _
    | decide +kernel
    | with_reducible assumption
    | exact id
    | lift_lets
    | (intro x; first | (refine Keeps.cut (d0 := d) (d1 := x) ?_ ?_; (on_goal 1 => subst x); (on_goal 2 => (intro _; clear_value x))) | subst x)
    | (apply Keeps.step; with_reducible apply Dev.withFlt_keeps)
    | (apply Keeps.step; with_reducible apply Dev.finish_keeps)
    | (apply Keeps.step; with_reducible apply Dev.dropDacs_keeps)
    | (apply Keeps.step; with_reducible apply Dev.readmit_keeps)
    | (apply Keeps.step; with_reducible apply Dev.admitSupplies_keeps)
    | (with_reducible apply Keeps.ite <;> intro _)
    | split
    | beta_reduce)

theorem execEngineAdmit_runs (t : Nat) (q : Fin 64) (i : Nat) (s : State) :
    Runs ⟨false, [F.BE_ENG_STAT_state, F.BE_ENG_STAT_loop, F.BE_ENG_STAT_loops, F.BE_LP_STAT_state, F.BE_POOL_STAT_fenced, F.BE_POOL_STAT_free, F.BE_POOL_ADMIT_engine, F.BE_POOL_ADMIT_busy, F.BE_POOL_ADMIT_status, F.SC_TM_STAT_last_status, F.SC_TM_CNT_refusals, F.SC_CH_STAT_last_status, F.SC_LV_STAT_last_status, F.SC_DR_STAT_last_status, F.HI_QP_CTRL_draining, F.HI_QP_FLAGS_in_flight, F.CN_STAT_slots, F.FLT_STAT_lost, F.FLT_LOST], [.be, .hi, .cn, .flt]⟩ t s (execEngineAdmit t q i s) := by
  unfold execEngineAdmit
  refine Runs.of fun d => ?_
  repeat' (first
    | with_reducible exact Keeps.refl _ _
    | decide +kernel
    | (intro _ _ k; exact k.le)
    | with_reducible assumption
    | lift_lets
    | (intro x; first | (refine Keeps.cut (d0 := e) (d1 := x) ?_ ?_; (on_goal 1 => subst x); (on_goal 2 => (intro _; clear_value x))) | (refine Keeps.cut (d0 := d) (d1 := x) ?_ ?_; (on_goal 1 => subst x); (on_goal 2 => (intro _; clear_value x))) | subst x)
    | (apply Keeps.step; with_reducible apply Dev.wr_keeps)
    | (apply Keeps.step; with_reducible apply Dev.put_keeps)
    | (apply Keeps.step; with_reducible apply Dev.setEng_keeps)
    | (apply Keeps.step; with_reducible apply Dev.finish_keeps)
    | (apply Keeps.stepSame; with_reducible apply Dev.startItem_keeps; intro e _)
    | (apply Keeps.step; with_reducible apply Dev.showPool_keeps)
    | (with_reducible apply Keeps.ite <;> intro _)
    | split)

theorem Dev.spareAgain_keeps (d : Dev) (e : Nat) : Keeps ⟨false, [F.BE_ENG_STAT_spare, F.BE_ENG_LOOPS_LO, F.BE_ENG_LOOPS_HI, F.BE_LP_STAT_engine, F.BE_POOL_STAT_takeovers], [.be, .flt]⟩ d (Dev.spareAgain d e) := by
  unfold Dev.spareAgain
  repeat' (first
    | with_reducible exact Keeps.refl _ _
    | decide +kernel
    | (intro _ _ k; exact k.le)
    | with_reducible assumption
    | lift_lets
    | (intro x; first | (refine Keeps.cut (d0 := e) (d1 := x) ?_ ?_; (on_goal 1 => subst x); (on_goal 2 => (intro _; clear_value x))) | (refine Keeps.cut (d0 := d) (d1 := x) ?_ ?_; (on_goal 1 => subst x); (on_goal 2 => (intro _; clear_value x))) | subst x)
    | (apply Keeps.stepSame; with_reducible apply Dev.each_keeps; intro e _)
    | (apply Keeps.step; with_reducible apply Dev.wr_keeps)
    | (apply Keeps.step; with_reducible apply Dev.put_keeps)
    | (apply Keeps.step; with_reducible apply Dev.wr64_keeps)
    | (apply Keeps.step; with_reducible apply Dev.setEng_keeps)
    | (apply Keeps.step; with_reducible apply Dev.markFenced_keeps)
    | (apply Keeps.step; with_reducible apply Dev.onLoop_keeps)
    | (apply Keeps.step; with_reducible apply Dev.takeOver_keeps)
    | (with_reducible apply Keeps.ite <;> intro _)
    | split
    | beta_reduce)

theorem execEngineSelfTestDone_runs (t : Nat) (e : Fin 12) (pass : Bool) (s : State) :
    Runs ⟨false, [F.BE_ENG_STAT_state, F.BE_ENG_STAT_spare, F.BE_ENG_STAT_loop, F.BE_ENG_STAT_loops, F.BE_ENG_LOOPS_LO, F.BE_ENG_LOOPS_HI, F.BE_ENG_DEAD_cause, F.BE_ENG_DEAD_TIME_LO, F.BE_ENG_DEAD_TIME_HI, F.BE_LP_STAT_state, F.BE_LP_STAT_engine, F.BE_POOL_STAT_fenced, F.BE_POOL_STAT_free, F.BE_POOL_STAT_takeovers, F.BE_POOL_ADMIT_busy, F.BE_POOL_ADMIT_status, F.SC_TM_STAT_last_status, F.SC_TM_CNT_refusals, F.SC_CH_STAT_last_status, F.SC_LV_STAT_last_status, F.SC_DR_STAT_last_status, F.HI_QP_CTRL_draining, F.HI_QP_FLAGS_in_flight, F.CN_STAT_slots, F.FLT_STAT_lost, F.FLT_LOST], [.be, .hi, .cn, .flt]⟩ t s (execEngineSelfTestDone t e pass s) := by
  unfold execEngineSelfTestDone
  refine Runs.of fun d => ?_
  repeat' (first
    | with_reducible exact Keeps.refl _ _
    | decide +kernel
    | (intro _ _ k; exact k.le)
    | with_reducible assumption
    | lift_lets
    | (intro x; first | (refine Keeps.cut (d0 := e) (d1 := x) ?_ ?_; (on_goal 1 => subst x); (on_goal 2 => (intro _; clear_value x))) | (refine Keeps.cut (d0 := d) (d1 := x) ?_ ?_; (on_goal 1 => subst x); (on_goal 2 => (intro _; clear_value x))) | subst x)
    | (apply Keeps.step; with_reducible apply Dev.wr_keeps)
    | (apply Keeps.step; with_reducible apply Dev.put_keeps)
    | (apply Keeps.step; with_reducible apply Dev.wr64_keeps)
    | (apply Keeps.step; with_reducible apply Dev.setEng_keeps)
    | (apply Keeps.step; with_reducible apply Dev.postFenced_keeps)
    | (apply Keeps.step; with_reducible apply Dev.finish_keeps)
    | (apply Keeps.step; with_reducible apply Dev.showPool_keeps)
    | (apply Keeps.step; with_reducible apply Dev.spareAgain_keeps)
    | (apply Keeps.stepSame; with_reducible apply Dev.foldl_keeps; intro e _)
    | (with_reducible apply Keeps.ite <;> intro _)
    | split)

end Sys2Proof.Machine
end

