-- ==== Sys2Proof/Laws/KeepsPower.lean ====
section
/-! SUPPORT. What the effects of Power.lean keep. -/

namespace Sys2Proof.Machine

set_option Elab.async false

theorem Dev.onPw_keeps (d : Dev) (f : Pw → Pw) : Keeps ⟨false, [], [.pw]⟩ d (Dev.onPw d f) := by
  unfold Dev.onPw
  repeat' (first
    | with_reducible exact Keeps.refl _ _
    | decide +kernel
    | (apply Keeps.step; with_reducible apply Dev.withPw_keeps))

theorem Dev.countSlept_keeps (d : Dev) (ticks : Nat) : Keeps ⟨false, [F.PWR_CAL_LO, F.PWR_CAL_HI], []⟩ d (Dev.countSlept d ticks) := by
  unfold Dev.countSlept
  repeat' (first
    | with_reducible exact Keeps.refl _ _
    | decide +kernel
    | (apply Keeps.step; with_reducible apply Dev.wr64_keeps)
    | (with_reducible apply Keeps.ite <;> intro _)
    | split)

theorem execVinHigh_runs (t vin : Nat) (s : State) :
    Runs ⟨false, [F.FLT_STAT_lost, F.FLT_LOST, F.PWR_STAT_vin, F.PWR_STAT_vin_high], [.flt]⟩ t s (execVinHigh t vin s) := by
  unfold execVinHigh
  refine Runs.of fun d => ?_
  repeat' (first
    | with_reducible exact Keeps.refl _ _
    | decide +kernel
    | with_reducible assumption
    | lift_lets
    | (intro x; first | (refine Keeps.cut (d0 := d) (d1 := x) ?_ ?_; (on_goal 1 => subst x); (on_goal 2 => (intro _; clear_value x))) | subst x)
    | (apply Keeps.step; with_reducible apply Dev.wr_keeps)
    | (apply Keeps.step; with_reducible apply Dev.put_keeps)
    | (apply Keeps.step; with_reducible apply Dev.report_keeps)
    | (apply Keeps.step; with_reducible apply Dev.reportOpen_keeps)
    | (with_reducible apply Keeps.ite <;> intro _)
    | split)

theorem execSpeedMonitor_runs (t : Nat) (z : Fin 4) (k : BitVec 16) (s : State) :
    Runs ⟨false, [F.FAB_SPEED_k, F.FAB_SPEED_k_max], []⟩ t s (execSpeedMonitor t z k s) := by
  unfold execSpeedMonitor
  refine Runs.of fun d => ?_
  repeat' (first
    | with_reducible exact Keeps.refl _ _
    | decide +kernel
    | (apply Keeps.step; with_reducible apply Dev.wr_keeps))

theorem execVfabStep_runs (t : Nat) (reached : Bool) (s : State) :
    Runs ⟨false, [F.FLT_STAT_lost, F.FLT_LOST, F.PWR_STAT_vfab, F.PWR_STAT_vfab_limit], [.flt, .pw]⟩ t s (execVfabStep t reached s) := by
  unfold execVfabStep
  refine Runs.of fun d => ?_
  repeat' (first
    | with_reducible exact Keeps.refl _ _
    | decide +kernel
    | with_reducible assumption
    | lift_lets
    | (intro x; first | (refine Keeps.cut (d0 := d) (d1 := x) ?_ ?_; (on_goal 1 => subst x); (on_goal 2 => (intro _; clear_value x))) | subst x)
    | (apply Keeps.step; with_reducible apply Dev.wr_keeps)
    | (apply Keeps.step; with_reducible apply Dev.put_keeps)
    | (apply Keeps.step; with_reducible apply Dev.report_keeps)
    | (apply Keeps.step; with_reducible apply Dev.reportOpen_keeps)
    | (apply Keeps.step; with_reducible apply Dev.onPw_keeps)
    | (with_reducible apply Keeps.ite <;> intro _)
    | split
    | beta_reduce)

theorem execFqiTcUpdate_runs (t : Nat) (s : State) :
    Runs ⟨false, [], [.pw]⟩ t s (execFqiTcUpdate t s) := by
  unfold execFqiTcUpdate
  refine Runs.of fun d => ?_
  repeat' (first
    | with_reducible exact Keeps.refl _ _
    | decide +kernel
    | (apply Keeps.step; with_reducible apply Dev.onPw_keeps))

theorem Dev.sleepRequest_keeps (d : Dev) : Keeps ⟨false, [F.SC_TM_STAT_last_status, F.SC_TM_CNT_refusals, F.SC_CH_STAT_last_status, F.SC_LV_STAT_last_status, F.SC_DR_STAT_last_status, F.HI_QP_CTRL_enable, F.HI_QP_CTRL_draining, F.HI_QP_STAT_sq_head, F.HI_QP_FLAGS_in_flight, F.CN_STAT_slots, F.SEC_STAT_key_slot, F.SEC_STAT_enrolled, F.SEC_STAT_session_qp0, F.SEC_STAT_session_uart, F.IMS_STAT_flash_err, F.FLT_STAT_lost, F.FLT_LOST, F.PWR_SLEEP_CTRL_enter, F.PWR_SLEEP_CTRL_status], [.hi, .cn, .sec, .flt, .pw]⟩ d (Dev.sleepRequest d) := by
  unfold Dev.sleepRequest
  repeat' (first
    | with_reducible exact Keeps.refl _ _
    | decide +kernel
    | (intro _ _ k; exact k.le)
    | with_reducible assumption
    | lift_lets
    | (intro x; first | (refine Keeps.cut (d0 := e) (d1 := x) ?_ ?_; (on_goal 1 => subst x); (on_goal 2 => (intro _; clear_value x))) | (refine Keeps.cut (d0 := d) (d1 := x) ?_ ?_; (on_goal 1 => subst x); (on_goal 2 => (intro _; clear_value x))) | subst x)
    | (apply Keeps.stepSame; with_reducible apply Dev.each_keeps; intro e _)
    | (apply Keeps.step; with_reducible apply Dev.wr_keeps)
    | (apply Keeps.step; with_reducible apply Dev.put_keeps)
    | (apply Keeps.step; with_reducible apply Dev.disableQp_keeps)
    | (apply Keeps.step; with_reducible apply Dev.setSession_keeps)
    | (apply Keeps.step; with_reducible apply Dev.journalAll_keeps)
    | (apply Keeps.step; with_reducible apply Dev.onPw_keeps)
    | (with_reducible apply Keeps.ite <;> intro _)
    | split)

theorem execSleepRequest_runs (t : Nat) (s : State) :
    Runs ⟨false, [F.SC_TM_STAT_last_status, F.SC_TM_CNT_refusals, F.SC_CH_STAT_last_status, F.SC_LV_STAT_last_status, F.SC_DR_STAT_last_status, F.HI_QP_CTRL_enable, F.HI_QP_CTRL_draining, F.HI_QP_STAT_sq_head, F.HI_QP_FLAGS_in_flight, F.CN_STAT_slots, F.SEC_STAT_key_slot, F.SEC_STAT_enrolled, F.SEC_STAT_session_qp0, F.SEC_STAT_session_uart, F.IMS_STAT_flash_err, F.FLT_STAT_lost, F.FLT_LOST, F.PWR_SLEEP_CTRL_enter, F.PWR_SLEEP_CTRL_status], [.hi, .cn, .sec, .flt, .pw]⟩ t s (execSleepRequest t s) := by
  unfold execSleepRequest fromFirmware
  refine Runs.of fun d => ?_
  repeat' (first
    | with_reducible exact Keeps.refl _ _
    | decide +kernel
    | (apply Keeps.step; with_reducible apply Dev.sleepRequest_keeps)
    | (with_reducible apply Keeps.ite <;> intro _)
    | beta_reduce)

theorem Dev.seeWake_keeps (d : Dev) (w c : Nat) (p : Bool) : Keeps ⟨false, [F.PWR_WAKE_STAT_wake_in, F.PWR_WAKE_STAT_perst, F.PWR_WAKE_STAT_can], []⟩ d (Dev.seeWake d w c p) := by
  unfold Dev.seeWake
  repeat' (first
    | with_reducible exact Keeps.refl _ _
    | decide +kernel
    | with_reducible assumption
    | lift_lets
    | (intro x; first | (refine Keeps.cut (d0 := d) (d1 := x) ?_ ?_; (on_goal 1 => subst x); (on_goal 2 => (intro _; clear_value x))) | subst x)
    | (apply Keeps.step; with_reducible apply Dev.wr_keeps)
    | (apply Keeps.step; with_reducible apply Dev.put_keeps)
    | (with_reducible apply Keeps.ite <;> intro _)
    | split)

theorem Dev.wakeUp_keeps (d : Dev) (p : Bool) (slept : Nat) : Keeps ⟨false, [F.PWR_WAKE_STAT_slept_s, F.PWR_CAL_LO, F.PWR_CAL_HI], [.clock, .pp, .sc, .flt, .pw]⟩ d (Dev.wakeUp d p slept) := by
  unfold Dev.wakeUp
  repeat' (first
    | with_reducible exact Keeps.refl _ _
    | decide +kernel
    | (intro _ _ k; exact k.le)
    | with_reducible assumption
    | lift_lets
    | (intro x; first | (refine Keeps.cut (d0 := e) (d1 := x) ?_ ?_; (on_goal 1 => subst x); (on_goal 2 => (intro _; clear_value x))) | (refine Keeps.cut (d0 := d) (d1 := x) ?_ ?_; (on_goal 1 => subst x); (on_goal 2 => (intro _; clear_value x))) | subst x)
    | (apply Keeps.step; with_reducible apply Dev.withClockOn_keeps)
    | (apply Keeps.stepSame; with_reducible apply Dev.each_keeps; intro e _)
    | (apply Keeps.step; with_reducible apply Dev.wr_keeps)
    | (apply Keeps.step; with_reducible apply Dev.raiseRequest_keeps)
    | (apply Keeps.step; with_reducible apply Dev.drivePort_keeps)
    | (apply Keeps.step; with_reducible apply Dev.onPw_keeps)
    | (apply Keeps.step; with_reducible apply Dev.countSlept_keeps))

theorem execSleepEntryDone_runs (t : Nat) (s : State) :
    Runs ⟨false, [F.HI_LINK_speed, F.HI_LINK_up, F.IMS_STAT_flash_err, F.IMS_STAT_ledger_queue, F.FLT_STAT_lost, F.FLT_STAT_unflushed, F.FLT_LOST, F.PWR_SLEEP_CTRL_enter, F.PWR_SLEEP_CTRL_status, F.PWR_WAKE_STAT_slept_s, F.PWR_CAL_LO, F.PWR_CAL_HI], [.clock, .pp, .sc, .sec, .flt, .pw]⟩ t s (execSleepEntryDone t s) := by
  unfold execSleepEntryDone
  refine Runs.of fun d => ?_
  repeat' (first
    | with_reducible exact Keeps.refl _ _
    | decide +kernel
    | (intro _ _ k; exact k.le)
    | with_reducible assumption
    | lift_lets
    | (intro x; first | (refine Keeps.cut (d0 := e) (d1 := x) ?_ ?_; (on_goal 1 => subst x); (on_goal 2 => (intro _; clear_value x))) | (refine Keeps.cut (d0 := d) (d1 := x) ?_ ?_; (on_goal 1 => subst x); (on_goal 2 => (intro _; clear_value x))) | subst x)
    | (apply Keeps.step; with_reducible apply Dev.withClockOn_keeps)
    | (apply Keeps.stepSame; with_reducible apply Dev.each_keeps; intro e _)
    | (apply Keeps.step; with_reducible apply Dev.wr_keeps)
    | (apply Keeps.step; with_reducible apply Dev.put_keeps)
    | (apply Keeps.step; with_reducible apply Dev.drivePort_keeps)
    | (apply Keeps.step; with_reducible apply Dev.flushLedger_keeps)
    | (apply Keeps.step; with_reducible apply Dev.journalAll_keeps)
    | (apply Keeps.step; with_reducible apply Dev.onPw_keeps)
    | (apply Keeps.step; with_reducible apply Dev.wakeUp_keeps)
    | (with_reducible apply Keeps.ite <;> intro _)
    | split
    | beta_reduce)

theorem Dev.linkTrained_keeps (d : Dev) (speed : Nat) : Keeps ⟨false, [F.HI_LINK_speed, F.HI_LINK_up], [.hi, .pw]⟩ d (Dev.linkTrained d speed) := by
  unfold Dev.linkTrained
  repeat' (first
    | with_reducible exact Keeps.refl _ _
    | decide +kernel
    | with_reducible assumption
    | lift_lets
    | (intro x; first | (refine Keeps.cut (d0 := d) (d1 := x) ?_ ?_; (on_goal 1 => subst x); (on_goal 2 => (intro _; clear_value x))) | subst x)
    | (apply Keeps.step; with_reducible apply Dev.withHi_keeps)
    | (apply Keeps.step; with_reducible apply Dev.wr_keeps)
    | (apply Keeps.step; with_reducible apply Dev.put_keeps)
    | (apply Keeps.step; with_reducible apply Dev.onPw_keeps)
    | (with_reducible apply Keeps.ite <;> intro _)
    | split)

theorem execPcieLinkUp_runs (t : Nat) (x : LinkChange) (s : State) :
    Runs ⟨false, [F.HI_LINK_speed, F.HI_LINK_up], [.hi, .pw]⟩ t s (execPcieLinkUp t x s) := by
  unfold execPcieLinkUp
  refine Runs.of fun d => ?_
  repeat' (first
    | with_reducible exact Keeps.refl _ _
    | decide +kernel
    | (apply Keeps.step; with_reducible apply Dev.withHi_keeps)
    | (apply Keeps.step; with_reducible apply Dev.linkTrained_keeps)
    | (with_reducible apply Keeps.ite <;> intro _)
    | split)

theorem execTempReading_runs (t : Nat) (n : Fin 57) (temp : Word) (s : State) :
    Runs ⟨false, [F.FLT_STAT_lost, F.FLT_LOST, F.THM_TS, F.THM_MAX, F.THM_STAGE_MAX, F.THM_DERATE], [.flt, .pw]⟩ t s (execTempReading t n temp s) := by
  unfold execTempReading
  refine Runs.of fun d => ?_
  repeat' (first
    | with_reducible exact Keeps.refl _ _
    | decide +kernel
    | (apply Keeps.step; with_reducible apply Dev.wr_keeps)
    | (apply Keeps.step; with_reducible apply Dev.derateAll_keeps)
    | (with_reducible apply Keeps.ite <;> intro _)
    | split)

theorem execTempCrossCheck_runs (t : Nat) (s : State) :
    Runs ⟨false, [F.DEV_STATE_state, F.TB_GT_STAT_state, F.TB_GT_STAT_gt_valid, F.TB_STG_RUN_run, F.TB_STG_COMMIT_pending, F.TB_STG_STAT_running, F.TB_STG_STAT_tripped, F.TB_STG_STAT_fenced, F.PG_STAT_out_high, F.PG_STAT_out_low, F.PG_STAT_trip_hold, F.PP_STAT_fenced, F.CV_STAT_busy, F.CV_STAT_urgent, F.CV_URG_busy, F.CV_URG_status, F.WM_SW_HELD, F.WM_SW_STAT_held, F.WM_SW_STAT_action, F.WM_SW_STAT_cause_kind, F.WM_SW_STAT_cause_index, F.WM_SW_STAT_count, F.WM_SW_TIME_LO, F.WM_SW_TIME_HI, F.PS_STAT_running, F.PS_STAT_fenced, F.PS_STAT_broken_live, F.PS_STAT_broken, F.PS_CMP_STAT_armed, F.EP_STAT_running, F.EP_STAT_src_lost, F.BE_LP_SWAP_pending, F.BE_LP_SWAP_status, F.BE_LP_STAT_state, F.SC_TM_STAT_last_status, F.SC_TM_CNT_refusals, F.SC_CH_STAT_last_status, F.SC_LV_STAT_last_status, F.SC_DR_STAT_last_status, F.SC_STAT_mode, F.SC_STAT_grace, F.SC_STAT_fenced_a, F.SC_STAT_fenced_b, F.SC_STAT_fenced_chk, F.SC_STAT_grace_left, F.SC_LAST_outcome, F.SC_ABS_LEFT_left, F.SC_ABS_LEFT_awaiting, F.HI_QP_CTRL_enable, F.HI_QP_CTRL_status, F.HI_QP_CTRL_draining, F.HI_QP_STAT_sq_head, F.HI_QP_FLAGS_fenced, F.HI_QP_FLAGS_in_flight, F.CN_STAT_fenced, F.CN_STAT_slots, F.CN_TT_STAT_gt_valid, F.FL_STAT_fenced, F.FLT_STAT_lost, F.FLT_STAT_safe, F.FLT_LOST, F.FLT_SAFE_safe, F.FLT_SAFE_kind, F.FLT_SAFE_index, F.FLT_SAFE_status, F.FLT_SAFE_TIME_LO, F.FLT_SAFE_TIME_HI, F.THM_FENCED_LO, F.THM_FENCED_HI], [.tb, .pp, .cv, .ps, .be, .sc, .hi, .cn, .flt, .pw]⟩ t s (execTempCrossCheck t s) := by
  unfold execTempCrossCheck
  refine Runs.of fun d => ?_
  repeat' (first
    | with_reducible exact Keeps.refl _ _
    | decide +kernel
    | (intro _ _ k; exact k.le)
    | with_reducible assumption
    | lift_lets
    | (intro x; first | (refine Keeps.cut (d0 := e) (d1 := x) ?_ ?_; (on_goal 1 => subst x); (on_goal 2 => (intro _; clear_value x))) | (refine Keeps.cut (d0 := d) (d1 := x) ?_ ?_; (on_goal 1 => subst x); (on_goal 2 => (intro _; clear_value x))) | subst x)
    | (apply Keeps.stepSame; with_reducible apply Dev.each_keeps; intro e _)
    | (apply Keeps.step; with_reducible apply Dev.report_keeps)
    | (apply Keeps.step; with_reducible apply Dev.reportOpen_keeps)
    | (apply Keeps.step; with_reducible apply Dev.fenceUnit_keeps)
    | (apply Keeps.step; with_reducible apply Dev.onPw_keeps)
    | (with_reducible apply Keeps.ite <;> intro _)
    | split)

end Sys2Proof.Machine
end

