-- ==== Sys2Proof/Laws/KeepsShunts.lean ====
section
/-! SUPPORT. What the effects of Shunts.lean keep. -/

namespace Sys2Proof.Machine

set_option Elab.async false

theorem execShuntConversionDone_runs (t : Nat) (k : Fin 21) (isB : Bool) (code : Int) (shift : Nat) (s : State) :
    Runs ⟨false, [F.PP_STAT_chopper_open, F.PP_CNT_chopper_open, F.SH_RES_A, F.SH_RES_B, F.SH_INFO_A, F.SH_INFO_B, F.SH_STAMP_A_LO, F.SH_STAMP_A_HI, F.SH_STAMP_B_LO, F.SH_STAMP_B_HI, F.SH_STAT_sat, F.CV_STAT_urgent, F.FLT_STAT_lost, F.FLT_LOST], [.sh, .cv, .be, .flt]⟩ t s (execShuntConversionDone t k isB code shift s) := by
  unfold execShuntConversionDone
  refine Runs.of fun d => ?_
  repeat' (first
    | with_reducible exact Keeps.refl _ _
    | decide +kernel
    | (apply Keeps.step; with_reducible apply Dev.shuntDone_keeps))

theorem execHousekeepingStart_runs (t : Nat) (k : Fin 14) (s : State) :
    Runs ⟨false, [], [.sh]⟩ t s (execHousekeepingStart t k s) := by
  unfold execHousekeepingStart
  refine Runs.of fun d => ?_
  repeat' (first
    | with_reducible exact Keeps.refl _ _
    | decide +kernel
    | (apply Keeps.step; with_reducible apply Dev.hkStart_keeps)
    | (with_reducible apply Keeps.ite <;> intro _)
    | split)

theorem execHousekeepingResult_runs (t : Nat) (k : Fin 14) (code : Nat) (s : State) :
    Runs ⟨false, [F.SH_DV, F.SH_PV, F.SH_TN, F.SH_STAT_sat, F.WM_STAT_band_hold, F.WM_PC_STAT_band_hold, F.WM_PC_STAT_dac_err, F.WM_EF_RISE_LO, F.WM_EF_RISE_HI, F.WM_EF_FALL_LO, F.WM_EF_FALL_HI, F.WM_EF_STAT_live, F.WM_EF_STAT_band_hold, F.WM_EF_STAT_rise, F.WM_EF_STAT_fall, F.WM_EF_STAT_edges, F.FLT_STAT_lost, F.FLT_LOST, F.THM_STAGE_MAX, F.THM_DERATE, F.THM_TN, F.THM_PVT], [.sh, .cv, .be, .tm, .ch, .flt, .pw]⟩ t s (execHousekeepingResult t k code s) := by
  unfold execHousekeepingResult
  refine Runs.of fun d => ?_
  repeat' (first
    | with_reducible exact Keeps.refl _ _
    | decide +kernel
    | (apply Keeps.step; with_reducible apply Dev.hkResult_keeps))

theorem execCalOffset_runs (t : Nat) (k : Fin 21) (s : State) :
    Runs ⟨false, [F.SH_CAL_CTRL_op, F.SH_CAL_CTRL_busy, F.SH_CAL_CTRL_status, F.CV_STAT_urgent], [.sh, .cv]⟩ t s (execCalOffset t k s) := by
  unfold execCalOffset fromFirmware
  refine Runs.of fun d => ?_
  repeat' (first
    | with_reducible exact Keeps.refl _ _
    | decide +kernel
    | (apply Keeps.step; with_reducible apply Dev.calStart_keeps)
    | (with_reducible apply Keeps.ite <;> intro _)
    | beta_reduce)

theorem execCalGain_runs (t : Nat) (k : Fin 21) (s : State) :
    Runs ⟨false, [F.SH_CAL_CTRL_op, F.SH_CAL_CTRL_busy, F.SH_CAL_CTRL_status, F.CV_STAT_urgent], [.sh, .cv]⟩ t s (execCalGain t k s) := by
  unfold execCalGain fromFirmware
  refine Runs.of fun d => ?_
  repeat' (first
    | with_reducible exact Keeps.refl _ _
    | decide +kernel
    | (apply Keeps.step; with_reducible apply Dev.calStart_keeps)
    | (with_reducible apply Keeps.ite <;> intro _)
    | beta_reduce)

theorem execCalBoth_runs (t : Nat) (k : Fin 21) (s : State) :
    Runs ⟨false, [F.SH_CAL_CTRL_op, F.SH_CAL_CTRL_busy, F.SH_CAL_CTRL_status, F.CV_STAT_urgent], [.sh, .cv]⟩ t s (execCalBoth t k s) := by
  unfold execCalBoth fromFirmware
  refine Runs.of fun d => ?_
  repeat' (first
    | with_reducible exact Keeps.refl _ _
    | decide +kernel
    | (apply Keeps.step; with_reducible apply Dev.calStart_keeps)
    | (with_reducible apply Keeps.ite <;> intro _)
    | beta_reduce)

theorem execCalibrationDone_runs (t : Nat) (k : Fin 21) (zero plus minus : Int) (s : State) :
    Runs ⟨false, [F.SH_CAL_CTRL_busy, F.SH_CAL_CTRL_status, F.SH_CAL_RES_offset, F.SH_CAL_RES_gain_err], [.sh]⟩ t s (execCalibrationDone t k zero plus minus s) := by
  unfold execCalibrationDone
  refine Runs.of fun d => ?_
  repeat' (first
    | with_reducible exact Keeps.refl _ _
    | decide +kernel
    | (apply Keeps.step; with_reducible apply Dev.calDone_keeps))

end Sys2Proof.Machine
end

