-- ==== Sys2Proof/Laws/KeepsClaims.lean ====
section
/-! SUPPORT. What the effects of Claims.lean keep. -/

namespace Sys2Proof.Machine

set_option Elab.async false

theorem Dev.onSys_keeps (d : Dev) (f : Sys → Sys) : Keeps ⟨false, [], [.sys]⟩ d (Dev.onSys d f) := by
  unfold Dev.onSys
  repeat' (first
    | with_reducible exact Keeps.refl _ _
    | decide +kernel
    | (apply Keeps.step; with_reducible apply Dev.withSys_keeps))

theorem Dev.setHolder_keeps (d : Dev) (kind index : Nat) (u : Option (Nat × Nat)) : Keeps ⟨false, [], [.sys]⟩ d (Dev.setHolder d kind index u) := by
  unfold Dev.setHolder
  repeat' (first
    | with_reducible exact Keeps.refl _ _
    | decide +kernel
    | (apply Keeps.step; with_reducible apply Dev.onSys_keeps))

theorem Dev.showConflicts_keeps (d : Dev) : Keeps ⟨false, [F.DEV_CONFLICT_CNT_unresolved, F.DEV_CONFLICT], []⟩ d (Dev.showConflicts d) := by
  unfold Dev.showConflicts
  repeat' (first
    | with_reducible exact Keeps.refl _ _
    | decide +kernel
    | (intro _ _ k; exact k.le)
    | with_reducible assumption
    | lift_lets
    | (intro x; first | (refine Keeps.cut (d0 := e) (d1 := x) ?_ ?_; (on_goal 1 => subst x); (on_goal 2 => (intro _; clear_value x))) | (refine Keeps.cut (d0 := d) (d1 := x) ?_ ?_; (on_goal 1 => subst x); (on_goal 2 => (intro _; clear_value x))) | subst x)
    | (apply Keeps.stepSame; with_reducible apply Dev.each_keeps; intro e _)
    | (apply Keeps.step; with_reducible apply Dev.wr_keeps)
    | (with_reducible apply Keeps.ite <;> intro _)
    | split
    | beta_reduce)

theorem Dev.dropConflicts_keeps (d : Dev) (p : Conflict → Bool) : Keeps ⟨false, [], [.sys]⟩ d (Dev.dropConflicts d p) := by
  unfold Dev.dropConflicts
  repeat' (first
    | with_reducible exact Keeps.refl _ _
    | decide +kernel
    | (apply Keeps.step; with_reducible apply Dev.onSys_keeps))

theorem Dev.claimFails_keeps (d : Dev) (c : Conflict) : Keeps ⟨false, [F.DEV_CONFLICT_CNT_failed], [.sys]⟩ d (Dev.claimFails d c) := by
  unfold Dev.claimFails
  repeat' (first
    | with_reducible exact Keeps.refl _ _
    | decide +kernel
    | with_reducible assumption
    | lift_lets
    | (intro x; first | (refine Keeps.cut (d0 := d) (d1 := x) ?_ ?_; (on_goal 1 => subst x); (on_goal 2 => (intro _; clear_value x))) | subst x)
    | (apply Keeps.step; with_reducible apply Dev.bump_keeps)
    | (apply Keeps.step; with_reducible apply Dev.onSys_keeps)
    | (with_reducible apply Keeps.ite <;> intro _)
    | split)

theorem Dev.deselect_keeps (d : Dev) (uk ui : Nat) (r : Nat × Nat) : Keeps ⟨false, [], [.sys]⟩ d (Dev.deselect d uk ui r) := by
  unfold Dev.deselect
  repeat' (first
    | with_reducible exact Keeps.refl _ _
    | decide +kernel
    | (apply Keeps.step; with_reducible apply Dev.setHolder_keeps)
    | (apply Keeps.step; with_reducible apply Dev.dropConflicts_keeps)
    | (with_reducible apply Keeps.ite <;> intro _)
    | split)

theorem Dev.claim_keeps (d : Dev) (uk ui : Nat) (l : List (Nat × Nat)) : Keeps ⟨false, [F.DEV_CONFLICT_CNT_failed], [.sys]⟩ d (Dev.claim d uk ui l) := by
  induction l generalizing d with
  | nil => unfold Dev.claim; exact Keeps.refl _ _
  | cons r rest ih =>
    unfold Dev.claim
    repeat' (first
      | with_reducible exact Keeps.refl _ _
      | with_reducible assumption
      | decide +kernel
      | (apply Keeps.step; exact ih _)
      | (apply Keeps.step; with_reducible apply Dev.dropConflicts_keeps)
      | (apply Keeps.step; with_reducible apply Dev.setHolder_keeps)
      | (apply Keeps.step; with_reducible apply Dev.claimFails_keeps)
      | (with_reducible apply Keeps.ite <;> intro _)
      | split)

theorem Dev.reclaim_keeps (d : Dev) (uk ui : Nat) (before sel : List (Nat × Nat)) : Keeps ⟨false, [F.DEV_CONFLICT_CNT_unresolved, F.DEV_CONFLICT_CNT_failed, F.DEV_CONFLICT], [.sys]⟩ d (Dev.reclaim d uk ui before sel) := by
  unfold Dev.reclaim
  repeat' (first
    | with_reducible exact Keeps.refl _ _
    | decide +kernel
    | (intro _ _ k; exact k.le)
    | with_reducible assumption
    | lift_lets
    | (intro x; first | (refine Keeps.cut (d0 := e) (d1 := x) ?_ ?_; (on_goal 1 => subst x); (on_goal 2 => (intro _; clear_value x))) | (refine Keeps.cut (d0 := d) (d1 := x) ?_ ?_; (on_goal 1 => subst x); (on_goal 2 => (intro _; clear_value x))) | subst x)
    | (apply Keeps.step; with_reducible apply Dev.showConflicts_keeps)
    | (apply Keeps.step; with_reducible apply Dev.deselect_keeps)
    | (apply Keeps.step; with_reducible apply Dev.claim_keeps)
    | (apply Keeps.stepSame; with_reducible apply Dev.foldl_keeps; intro e _))

theorem Dev.bankClaim_keeps (d : Dev) (b : Nat) : Keeps ⟨false, [F.DEV_CONFLICT_CNT_unresolved, F.DEV_CONFLICT_CNT_failed, F.DEV_CONFLICT], [.sys]⟩ d (Dev.bankClaim d b) := by
  unfold Dev.bankClaim
  repeat' (first
    | with_reducible exact Keeps.refl _ _
    | decide +kernel
    | (intro _ _ k; exact k.le)
    | with_reducible assumption
    | lift_lets
    | (intro x; first | (refine Keeps.cut (d0 := e) (d1 := x) ?_ ?_; (on_goal 1 => subst x); (on_goal 2 => (intro _; clear_value x))) | (refine Keeps.cut (d0 := d) (d1 := x) ?_ ?_; (on_goal 1 => subst x); (on_goal 2 => (intro _; clear_value x))) | subst x)
    | (apply Keeps.step; with_reducible apply Dev.setHolder_keeps)
    | (apply Keeps.step; with_reducible apply Dev.showConflicts_keeps)
    | (apply Keeps.step; with_reducible apply Dev.dropConflicts_keeps)
    | (apply Keeps.step; with_reducible apply Dev.claimFails_keeps)
    | (apply Keeps.step; with_reducible apply Dev.claim_keeps)
    | (apply Keeps.stepSame; with_reducible apply Dev.foldl_keeps; intro e _))

theorem Dev.placeData_keeps (d : Dev) (uk ui b : Nat) : Keeps ⟨false, [F.DEV_CONFLICT_CNT_unresolved, F.DEV_CONFLICT_CNT_failed, F.DEV_CONFLICT], [.sys, .mb]⟩ d (Dev.placeData d uk ui b) := by
  unfold Dev.placeData
  repeat' (first
    | with_reducible exact Keeps.refl _ _
    | decide +kernel
    | with_reducible assumption
    | exact id
    | lift_lets
    | (intro x; first | (refine Keeps.cut (d0 := d) (d1 := x) ?_ ?_; (on_goal 1 => subst x); (on_goal 2 => (intro _; clear_value x))) | subst x)
    | (apply Keeps.step; with_reducible apply Dev.withMb_keeps)
    | (apply Keeps.step; with_reducible apply Dev.showConflicts_keeps)
    | (apply Keeps.step; with_reducible apply Dev.dropConflicts_keeps)
    | (apply Keeps.step; with_reducible apply Dev.claimFails_keeps)
    | (with_reducible apply Keeps.ite <;> intro _)
    | split)

end Sys2Proof.Machine
end

