-- ==== Sys2Proof/Laws/KeepsRegisters.lean ====
section
/-! SUPPORT. What the effects of Registers.lean keep. -/

namespace Sys2Proof.Machine

set_option Elab.async false

theorem Dev.convFollow_keeps (d : Dev) (c : Nat) : Keeps ⟨false, [F.CV_STAT_busy, F.CV_STAT_entry], [.cv]⟩ d (Dev.convFollow d c) := by
  unfold Dev.convFollow
  repeat' (first
    | with_reducible exact Keeps.refl _ _
    | decide +kernel
    | with_reducible assumption
    | lift_lets
    | (intro x; first | (refine Keeps.cut (d0 := d) (d1 := x) ?_ ?_; (on_goal 1 => subst x); (on_goal 2 => (intro _; clear_value x))) | subst x)
    | (apply Keeps.step; with_reducible apply Dev.put_keeps)
    | (apply Keeps.step; with_reducible apply Dev.setConv_keeps)
    | (apply Keeps.step; with_reducible apply Dev.startPass_keeps)
    | (with_reducible apply Keeps.ite <;> intro _)
    | split)

theorem Dev.posFollow_keeps (d : Dev) (i : Nat) (was : Bool) : Keeps ⟨false, [F.PS_STAT_running, F.PS_STAT_locked, F.PS_STAT_indexed, F.PS_STAT_still, F.PS_ILL_CNT_window, F.PS_CNT_LO, F.PS_CNT_HI, F.PS_SEC_CNT, F.PS_OBS_POS_LO, F.PS_OBS_POS_HI, F.PS_OBS_ANGLE, F.PS_OBS_EANGLE, F.PS_OBS_SPEED, F.PS_OBS_ACCEL, F.EP_STAT_running, F.EP_STAT_src_lost, F.EP_STAT_limited, F.EP_CNT_LO, F.EP_CNT_HI, F.EP_LAG, F.FLT_STAT_lost, F.FLT_LOST], [.ps, .flt]⟩ d (Dev.posFollow d i was) := by
  unfold Dev.posFollow
  repeat' (first
    | with_reducible exact Keeps.refl _ _
    | decide +kernel
    | with_reducible assumption
    | lift_lets
    | (intro x; first | (refine Keeps.cut (d0 := d) (d1 := x) ?_ ?_; (on_goal 1 => subst x); (on_goal 2 => (intro _; clear_value x))) | subst x)
    | (apply Keeps.step; with_reducible apply Dev.enablePos_keeps)
    | (apply Keeps.step; with_reducible apply Dev.disablePos_keeps)
    | (with_reducible apply Keeps.ite <;> intro _)
    | split)

theorem Dev.gainFollow_keeps (d : Dev) (s old new : Nat) : Keeps ⟨false, [F.WM_STAT_band_hold, F.WM_PC_STAT_band_hold, F.WM_EF_STAT_band_hold], [.cv]⟩ d (Dev.gainFollow d s old new) := by
  unfold Dev.gainFollow
  repeat' (first
    | with_reducible exact Keeps.refl _ _
    | decide +kernel
    | with_reducible assumption
    | lift_lets
    | (intro x; first | (refine Keeps.cut (d0 := d) (d1 := x) ?_ ?_; (on_goal 1 => subst x); (on_goal 2 => (intro _; clear_value x))) | subst x)
    | (apply Keeps.step; with_reducible apply Dev.setCmp_keeps)
    | (apply Keeps.step; with_reducible apply Dev.followCmp_keeps)
    | (with_reducible apply Keeps.ite <;> intro _)
    | split)

theorem Dev.tripLevels_keeps (d : Dev) (old : Word) : Keeps ⟨false, [F.TB_STG_RUN_run, F.TB_STG_STAT_running, F.TB_STG_STAT_tripped, F.PG_STAT_out_high, F.PG_STAT_out_low, F.PG_STAT_trip_hold, F.WM_SW_IN_STAT_live, F.WM_SW_IN_STAT_seen, F.WM_SW_HELD, F.WM_SW_STAT_held, F.WM_SW_STAT_action, F.WM_SW_STAT_cause_kind, F.WM_SW_STAT_cause_index, F.WM_SW_STAT_count, F.WM_SW_TIME_LO, F.WM_SW_TIME_HI, F.SC_ABS_LEFT_left, F.SC_ABS_LEFT_awaiting, F.FLT_STAT_lost, F.FLT_LOST], [.tb, .pp, .cv, .sc, .flt]⟩ d (Dev.tripLevels d old) := by
  unfold Dev.tripLevels
  repeat' (first
    | with_reducible exact Keeps.refl _ _
    | decide +kernel
    | (intro _ _ k; exact k.le)
    | with_reducible assumption
    | lift_lets
    | (intro x; first | (refine Keeps.cut (d0 := e) (d1 := x) ?_ ?_; (on_goal 1 => subst x); (on_goal 2 => (intro _; clear_value x))) | (refine Keeps.cut (d0 := d) (d1 := x) ?_ ?_; (on_goal 1 => subst x); (on_goal 2 => (intro _; clear_value x))) | subst x)
    | (apply Keeps.stepSame; with_reducible apply Dev.each_keeps; intro e _)
    | (apply Keeps.step; with_reducible apply Dev.wr_keeps)
    | (apply Keeps.step; with_reducible apply Dev.stopwork_keeps)
    | (with_reducible apply Keeps.ite <;> intro _)
    | split)





theorem Dev.tbWritten_keeps (d : Dev) (off : Nat) (w new : Word) (hoff : off ≠ 0x10) : Keeps ⟨true, [], [.tb, .pp, .sh, .cv, .sc]⟩ d (Dev.tbWritten d off w new) := by
  unfold Dev.tbWritten
  repeat' (first
    | with_reducible assumption
    | with_reducible exact Keeps.refl _ _
    | decide +kernel
    | (apply Keeps.step; with_reducible apply Dev.setWord_keeps)
    | (apply Keeps.step; with_reducible apply Dev.noteBoth_keeps)
    | (apply Keeps.step; with_reducible apply Dev.syncWritten_keeps)
    | (apply Keeps.step; with_reducible apply Dev.scShadow_keeps)
    | (apply Keeps.step; with_reducible apply Dev.scCommit_keeps)
    | (apply Keeps.step; with_reducible apply Dev.writeRun_keeps)
    | (with_reducible apply Keeps.ite <;> intro _)
    | split)

theorem Dev.ppWritten_keeps (d : Dev) (off : Nat) (new : Word) (hoff : off ≠ 0x10) : Keeps ⟨true, [], [.pp]⟩ d (Dev.ppWritten d off new) := by
  unfold Dev.ppWritten
  repeat' (first
    | with_reducible assumption
    | with_reducible exact Keeps.refl _ _
    | decide +kernel
    | with_reducible assumption
    | lift_lets
    | (intro x; first | (refine Keeps.cut (d0 := d) (d1 := x) ?_ ?_; (on_goal 1 => subst x); (on_goal 2 => (intro _; clear_value x))) | subst x)
    | (apply Keeps.step; with_reducible apply Dev.setWord_keeps)
    | (apply Keeps.step; with_reducible apply Dev.drivePort_keeps)
    | (with_reducible apply Keeps.ite <;> intro _)
    | split)

theorem Dev.shWritten_keeps (d : Dev) (off : Nat) (w new : Word) (hoff : off ≠ 0x10) : Keeps ⟨true, [], [.sh, .cv]⟩ d (Dev.shWritten d off w new) := by
  unfold Dev.shWritten
  repeat' (first
    | with_reducible assumption
    | with_reducible exact Keeps.refl _ _
    | decide +kernel
    | with_reducible assumption
    | lift_lets
    | (intro x; first | (refine Keeps.cut (d0 := d) (d1 := x) ?_ ?_; (on_goal 1 => subst x); (on_goal 2 => (intro _; clear_value x))) | subst x)
    | (apply Keeps.step; with_reducible apply Dev.setWord_keeps)
    | (apply Keeps.step; with_reducible apply Dev.calStart_keeps)
    | (apply Keeps.step; with_reducible apply Dev.gainFollow_keeps)
    | (with_reducible apply Keeps.ite <;> intro _)
    | split)

theorem Dev.cvWritten_keeps (d : Dev) (off : Nat) (w new : Word) (hoff : off ≠ 0x10) : Keeps ⟨true, [], [.sys, .cv]⟩ d (Dev.cvWritten d off w new) := by
  unfold Dev.cvWritten
  repeat' (first
    | with_reducible assumption
    | with_reducible exact Keeps.refl _ _
    | decide +kernel
    | with_reducible assumption
    | lift_lets
    | (intro x; first | (refine Keeps.cut (d0 := d) (d1 := x) ?_ ?_; (on_goal 1 => subst x); (on_goal 2 => (intro _; clear_value x))) | subst x)
    | (apply Keeps.step; with_reducible apply Dev.setWord_keeps)
    | (apply Keeps.step; with_reducible apply Dev.urge_keeps)
    | (apply Keeps.step; with_reducible apply Dev.reclaim_keeps)
    | (apply Keeps.step; with_reducible apply Dev.convFollow_keeps)
    | (with_reducible apply Keeps.ite <;> intro _)
    | split)

theorem Dev.cmpWritten_keeps (d : Dev) (c : Cmp) (off : Nat) (new : Word) (hoff : off ≠ 0x10) : Keeps ⟨true, [], [.tb, .pp, .cv, .be, .tm, .ch, .sc, .flt]⟩ d (Dev.cmpWritten d c off new) := by
  unfold Dev.cmpWritten
  repeat' (first
    | with_reducible assumption
    | with_reducible exact Keeps.refl _ _
    | decide +kernel
    | with_reducible assumption
    | lift_lets
    | (intro x; first | (refine Keeps.cut (d0 := d) (d1 := x) ?_ ?_; (on_goal 1 => subst x); (on_goal 2 => (intro _; clear_value x))) | subst x)
    | (apply Keeps.step; with_reducible apply Dev.setWord_keeps)
    | (apply Keeps.step; with_reducible apply Dev.cmpChanged_keeps))

theorem Dev.wmWritten_keeps (d : Dev) (off : Nat) (w new : Word) (hoff : off ≠ 0x10) : Keeps ⟨true, [], [.tb, .pp, .cv, .be, .tm, .ch, .sc, .flt]⟩ d (Dev.wmWritten d off w new) := by
  unfold Dev.wmWritten
  repeat' (first
    | with_reducible assumption
    | with_reducible exact Keeps.refl _ _
    | decide +kernel
    | with_reducible assumption
    | lift_lets
    | (intro x; first | (refine Keeps.cut (d0 := d) (d1 := x) ?_ ?_; (on_goal 1 => subst x); (on_goal 2 => (intro _; clear_value x))) | subst x)
    | (apply Keeps.step; with_reducible apply Dev.setWord_keeps)
    | (apply Keeps.step; with_reducible apply Dev.stopwork_keeps)
    | (apply Keeps.step; with_reducible apply Dev.force_keeps)
    | (apply Keeps.step; with_reducible apply Dev.release_keeps)
    | (apply Keeps.step; with_reducible apply Dev.clearLatch_keeps)
    | (apply Keeps.step; with_reducible apply Dev.tripLevels_keeps)
    | (apply Keeps.step; with_reducible apply Dev.cmpWritten_keeps)
    | (with_reducible apply Keeps.ite <;> intro _)
    | split
    | beta_reduce)

theorem Dev.psWritten_keeps (d : Dev) (off : Nat) (w new : Word) (hoff : off ≠ 0x10) : Keeps ⟨true, [], [.sys, .ps, .flt]⟩ d (Dev.psWritten d off w new) := by
  unfold Dev.psWritten
  repeat' (first
    | with_reducible assumption
    | with_reducible exact Keeps.refl _ _
    | decide +kernel
    | with_reducible assumption
    | lift_lets
    | (intro x; first | (refine Keeps.cut (d0 := d) (d1 := x) ?_ ?_; (on_goal 1 => subst x); (on_goal 2 => (intro _; clear_value x))) | subst x)
    | (apply Keeps.step; with_reducible apply Dev.wr2_keeps)
    | (apply Keeps.step; with_reducible apply Dev.setWord_keeps)
    | (apply Keeps.step; with_reducible apply Dev.put_keeps)
    | (apply Keeps.step; with_reducible apply Dev.setRep_keeps)
    | (apply Keeps.step; with_reducible apply Dev.onPos_keeps)
    | (apply Keeps.step; with_reducible apply Dev.showObserver_keeps)
    | (apply Keeps.step; with_reducible apply Dev.startRepeater_keeps)
    | (apply Keeps.step; with_reducible apply Dev.preset_keeps)
    | (apply Keeps.step; with_reducible apply Dev.armCompare_keeps)
    | (apply Keeps.step; with_reducible apply Dev.reclaim_keeps)
    | (apply Keeps.step; with_reducible apply Dev.posFollow_keeps)
    | (with_reducible apply Keeps.ite <;> intro _)
    | split)

theorem Dev.beWritten_keeps (d : Dev) (m : Master) (off : Nat) (w new : Word) (hoff : off ≠ 0x10) : Keeps ⟨true, [], [.sys, .be, .mb, .flt]⟩ d (Dev.beWritten d m off w new) := by
  unfold Dev.beWritten
  repeat' (first
    | with_reducible assumption
    | with_reducible exact Keeps.refl _ _
    | decide +kernel
    | with_reducible assumption
    | lift_lets
    | (intro x; first | (refine Keeps.cut (d0 := d) (d1 := x) ?_ ?_; (on_goal 1 => subst x); (on_goal 2 => (intro _; clear_value x))) | subst x)
    | (apply Keeps.step; with_reducible apply Dev.setWord_keeps)
    | (apply Keeps.step; with_reducible apply Dev.requestSwap_keeps)
    | (apply Keeps.step; with_reducible apply Dev.declareWrite_keeps)
    | (apply Keeps.step; with_reducible apply Dev.restartSlack_keeps)
    | (apply Keeps.step; with_reducible apply Dev.placeData_keeps)
    | (with_reducible apply Keeps.ite <;> intro _)
    | split)

theorem Dev.scWritten_keeps (d : Dev) (off : Nat) (w new : Word) (hoff : off ≠ 0x10) : Keeps ⟨true, [], [.tb, .pp, .be, .tm, .ch, .dr, .sc, .hi, .cn, .flt]⟩ d (Dev.scWritten d off w new) := by
  unfold Dev.scWritten
  repeat' (first
    | with_reducible assumption
    | with_reducible exact Keeps.refl _ _
    | decide +kernel
    | with_reducible assumption
    | lift_lets
    | (intro x; first | (refine Keeps.cut (d0 := d) (d1 := x) ?_ ?_; (on_goal 1 => subst x); (on_goal 2 => (intro _; clear_value x))) | subst x)
    | (apply Keeps.step; with_reducible apply Dev.setWord_keeps)
    | (apply Keeps.step; with_reducible apply Dev.absStart_keeps)
    | (apply Keeps.step; with_reducible apply Dev.absStop_keeps)
    | (apply Keeps.step; with_reducible apply Dev.pilotStart_keeps)
    | (apply Keeps.step; with_reducible apply Dev.wdogRestart_keeps)
    | (apply Keeps.step; with_reducible apply Dev.fwReady_keeps)
    | (apply Keeps.step; with_reducible apply Dev.serviceWdog_keeps)
    | (apply Keeps.step; with_reducible apply Dev.verdict_keeps)
    | (apply Keeps.step; with_reducible apply Dev.absCommand_keeps)
    | (with_reducible apply Keeps.ite <;> intro _)
    | split)

theorem Dev.mbWritten_keeps (d : Dev) (off : Nat) (w new : Word) (hoff : off ≠ 0x10) : Keeps ⟨true, [], [.sys, .mb]⟩ d (Dev.mbWritten d off w new) := by
  unfold Dev.mbWritten
  repeat' (first
    | with_reducible assumption
    | with_reducible exact Keeps.refl _ _
    | decide +kernel
    | (intro _ _ k; exact k.le)
    | with_reducible assumption
    | lift_lets
    | (intro x; first | (refine Keeps.cut (d0 := e) (d1 := x) ?_ ?_; (on_goal 1 => subst x); (on_goal 2 => (intro _; clear_value x))) | (refine Keeps.cut (d0 := d) (d1 := x) ?_ ?_; (on_goal 1 => subst x); (on_goal 2 => (intro _; clear_value x))) | subst x)
    | (apply Keeps.stepSame; with_reducible apply Dev.each_keeps; intro e _)
    | (apply Keeps.step; with_reducible apply Dev.setWord_keeps)
    | (apply Keeps.step; with_reducible apply Dev.wr_keeps)
    | (apply Keeps.step; with_reducible apply Dev.handover_keeps)
    | (apply Keeps.step; with_reducible apply Dev.bankClaim_keeps)
    | (with_reducible apply Keeps.ite <;> intro _)
    | split)

theorem Dev.hiWritten_keeps (d : Dev) (m : Master) (off : Nat) (w new : Word) (hoff : off ≠ 0x10) : Keeps ⟨true, [], [.sys, .hi, .cn, .flt]⟩ d (Dev.hiWritten d m off w new) := by
  unfold Dev.hiWritten
  repeat' (first
    | with_reducible assumption
    | with_reducible exact Keeps.refl _ _
    | decide +kernel
    | with_reducible assumption
    | lift_lets
    | (intro x; first | (refine Keeps.cut (d0 := d) (d1 := x) ?_ ?_; (on_goal 1 => subst x); (on_goal 2 => (intro _; clear_value x))) | subst x)
    | (apply Keeps.step; with_reducible apply Dev.setWord_keeps)
    | (apply Keeps.step; with_reducible apply Dev.enableQp_keeps)
    | (apply Keeps.step; with_reducible apply Dev.disableQp_keeps)
    | (apply Keeps.step; with_reducible apply Dev.windowClosed_keeps)
    | (apply Keeps.step; with_reducible apply Dev.reclaim_keeps)
    | (with_reducible apply Keeps.ite <;> intro _)
    | split)

theorem Dev.cnWritten_keeps (d : Dev) (m : Master) (off : Nat) (w new : Word) (hoff : off ≠ 0x10) : Keeps ⟨true, [], [.hi, .cn, .flt]⟩ d (Dev.cnWritten d m off w new) := by
  unfold Dev.cnWritten
  repeat' (first
    | with_reducible assumption
    | with_reducible exact Keeps.refl _ _
    | decide +kernel
    | with_reducible assumption
    | lift_lets
    | (intro x; first | (refine Keeps.cut (d0 := d) (d1 := x) ?_ ?_; (on_goal 1 => subst x); (on_goal 2 => (intro _; clear_value x))) | subst x)
    | (apply Keeps.step; with_reducible apply Dev.setWord_keeps)
    | (apply Keeps.step; with_reducible apply Dev.ttCheck_keeps)
    | (apply Keeps.step; with_reducible apply Dev.ttStart_keeps)
    | (apply Keeps.step; with_reducible apply Dev.canEnable_keeps)
    | (apply Keeps.step; with_reducible apply Dev.canDisable_keeps)
    | (apply Keeps.step; with_reducible apply Dev.canCommand_keeps)
    | (with_reducible apply Keeps.ite <;> intro _)
    | split)

theorem Dev.flWritten_keeps (d : Dev) (off : Nat) (new : Word) (hoff : off ≠ 0x10) : Keeps ⟨true, [], [.sys, .mb, .cn]⟩ d (Dev.flWritten d off new) := by
  unfold Dev.flWritten
  repeat' (first
    | with_reducible assumption
    | with_reducible exact Keeps.refl _ _
    | decide +kernel
    | with_reducible assumption
    | lift_lets
    | (intro x; first | (refine Keeps.cut (d0 := d) (d1 := x) ?_ ?_; (on_goal 1 => subst x); (on_goal 2 => (intro _; clear_value x))) | subst x)
    | (apply Keeps.step; with_reducible apply Dev.setWord_keeps)
    | (apply Keeps.step; with_reducible apply Dev.setFlow_keeps)
    | (apply Keeps.step; with_reducible apply Dev.reclaim_keeps)
    | (apply Keeps.step; with_reducible apply Dev.placeData_keeps)
    | (with_reducible apply Keeps.ite <;> intro _)
    | split)

theorem Dev.fltWritten_keeps (d : Dev) (m : Master) (off : Nat) (w new : Word) (hoff : off ≠ 0x10) : Keeps ⟨true, [], [.tb, .pp, .cv, .ps, .be, .sc, .hi, .cn, .flt]⟩ d (Dev.fltWritten d m off w new) := by
  unfold Dev.fltWritten
  repeat' (first
    | with_reducible assumption
    | with_reducible exact Keeps.refl _ _
    | decide +kernel
    | (apply Keeps.step; with_reducible apply Dev.setWord_keeps)
    | (apply Keeps.step; with_reducible apply Dev.captureSlot_keeps)
    | (apply Keeps.step; with_reducible apply Dev.actFence_keeps)
    | (apply Keeps.step; with_reducible apply Dev.actSafe_keeps)
    | (with_reducible apply Keeps.ite <;> intro _)
    | split)





theorem Dev.sealRequest_most (d : Dev) (m : Master) : Most ⟨false, [F.DEV_STATE_state, F.DEV_SEAL_CTRL_seal], [.sys, .sec]⟩ d (d.sealRequest m) := by
  unfold Dev.sealRequest
  dsimp only
  refine Most.trans ?_ (Dev.onSec_keeps _ _ rfl rfl).le.toMost
  refine Most.trans ?_ (Dev.onSys_keeps ..).le.toMost
  refine Most.trans ?_ (Dev.wr_most _ _ _ _ (by decide)).le
  exact (Dev.put_keeps _ _ _ _ (by decide +kernel)).le.toMost

/-- A seal request is taken in SETUP, or in BOOT of Imset (R31). -/
theorem Dev.commandReason_seal (d : Dev) (m : Master) (w : Word) (h : d.commandReason m 0x14 w = none) (hw : getBits w 0 1 = 1) :
    d.devState ≠ DevSt.safe := by
  intro hs
  have f : F.DEV_SEAL_CTRL.off 0 0 = 0x14 := rfl
  simp [Dev.commandReason, f, hw, hs, DevSt.safe, DevSt.setup, DevSt.boot] at h

/-- The read-only fields of DEV_STATE stay under a write. -/
theorem mergeWord_state (old w : Word) (r : RegRow) (h : findReg 0x10 = some r) : mergeWord r old w = old := by
  have e : findReg 0x10 = some (Option.get (findReg 0x10) (by decide +kernel)) := by simp
  rw [e] at h
  cases h
  rfl

theorem Dev.devWritten_keeps (d : Dev) (m : Master) (off : Nat) (w new : Word) (hoff : off ≠ 0x10)
    (hs : off = 0x14 → getBits w 0 1 = 1 → d.devState ≠ DevSt.safe) : Keeps ⟨true, [], [.sys, .hi, .cn, .sec, .flt, .pw]⟩ d (Dev.devWritten d m off w new) := by
  unfold Dev.devWritten
  have f : F.DEV_SEAL_CTRL.off 0 0 = 0x14 := rfl
  dsimp only
  split
  · split
    · rename_i h1 h2
      exact (Dev.sealRequest_most d m).le.keeps (hs (h1.trans f) (by simpa using h2))
    · exact Keeps.refl _ d
  · repeat' (first
      | with_reducible exact Keeps.refl _ _
      | with_reducible assumption
      | decide
      | (apply Keeps.step; with_reducible apply Dev.setWord_keeps)
      | (apply Keeps.step; with_reducible apply Dev.put_keeps)
      | (apply Keeps.step; with_reducible apply Dev.sleepRequest_keeps)
      | (apply Keeps.step; with_reducible apply Dev.onPw_keeps)
      | split)

/-- Storing a register word that it holds already changes what no register reads. -/
theorem Dev.setWord_same_state (d : Dev) (off : Nat) : (d.setWord off (d.word off)).devState = d.devState := by
  have e : ∀ o, (d.setWord off (d.word off)).word o = d.word o := by
    intro o
    simp only [Dev.word, Dev.setWord, Dev.withRegs_regs, Tbl.get_set]
    split
    · subst_vars; rfl
    · rfl
  simp only [Dev.devState, Dev.rd, Dev.rd2, e]

/-- A write of DEV_STATE changes nothing: its fields are read-only. -/
theorem Dev.store_state (d : Dev) (m : Master) (w : Word) : Dev.store d m 0x10 w = d.setWord 0x10 (d.word 0x10) := by
  unfold Dev.store
  rw [if_neg (by decide +kernel), if_neg (by decide +kernel)]
  split
  · rename_i h; exact absurd h (by decide +kernel)
  · rename_i r h
    dsimp only
    rw [mergeWord_state _ w r h]
    rfl

theorem Dev.store_keeps (d : Dev) (m : Master) (off : Nat) (w : Word)
    (hs : off = 0x14 → getBits w 0 1 = 1 → d.devState ≠ DevSt.safe) : Keeps ⟨true, [], [.sys, .tb, .pp, .sh, .cv, .ps, .be, .tm, .ch, .dr, .sc, .mb, .hi, .cn, .sec, .flt, .pw]⟩ d (Dev.store d m off w) := by
  by_cases h10 : off = 0x10
  · subst h10
    rw [Dev.store_state]
    exact ⟨(Dev.setWord_most ..).le, fun h => (Dev.setWord_same_state d 0x10).trans h⟩
  · unfold Dev.store
    dsimp only
    repeat' (first
      | with_reducible exact Keeps.refl _ _
      | with_reducible assumption
      | decide
      | (apply Keeps.step; with_reducible apply Dev.writeMsix_keeps)
      | (apply Keeps.step; with_reducible apply Dev.setLt_keeps)
      | (apply Keeps.step; with_reducible apply Dev.setWord_keeps)
      | (apply Keeps.step; with_reducible apply Dev.drivePort_keeps)
      | (apply Keeps.step; with_reducible apply Dev.devWritten_keeps)
      | (apply Keeps.step; with_reducible apply Dev.tbWritten_keeps)
      | (apply Keeps.step; with_reducible apply Dev.ppWritten_keeps)
      | (apply Keeps.step; with_reducible apply Dev.shWritten_keeps)
      | (apply Keeps.step; with_reducible apply Dev.cvWritten_keeps)
      | (apply Keeps.step; with_reducible apply Dev.wmWritten_keeps)
      | (apply Keeps.step; with_reducible apply Dev.psWritten_keeps)
      | (apply Keeps.step; with_reducible apply Dev.beWritten_keeps)
      | (apply Keeps.step; with_reducible apply Dev.scWritten_keeps)
      | (apply Keeps.step; with_reducible apply Dev.mbWritten_keeps)
      | (apply Keeps.step; with_reducible apply Dev.hiWritten_keeps)
      | (apply Keeps.step; with_reducible apply Dev.cnWritten_keeps)
      | (apply Keeps.step; with_reducible apply Dev.flWritten_keeps)
      | (apply Keeps.step; with_reducible apply Dev.fltWritten_keeps)
      | (apply Keeps.step; with_reducible apply Dev.canCommand_keeps)
      | (with_reducible apply Keeps.ite <;> intro _)
      | split)

theorem Dev.writeReason_seal (d : Dev) (m : Master) (w : Word) (h : d.writeReason m 0x14 false w = none) (hw : getBits w 0 1 = 1) :
    d.devState ≠ DevSt.safe := by
  unfold Dev.writeReason at h
  rw [if_neg (by decide +kernel), if_neg (by decide +kernel)] at h
  revert h
  split
  · rename_i h; exact absurd h (by decide +kernel)
  · repeat' split
    all_goals (intro h; cases h)
    exact Dev.commandReason_seal d m w (by assumption) hw

theorem Dev.writeWord_keeps (d : Dev) (m : Master) (off : Nat) (w : Word) : Keeps ⟨true, [], [.sys, .tb, .pp, .sh, .cv, .ps, .be, .tm, .ch, .dr, .sc, .mb, .hi, .cn, .sec, .flt, .pw]⟩ d (Dev.writeWord d m off w) := by
  unfold Dev.writeWord
  split
  · exact (Dev.reject_keeps ..).le
  · rename_i h
    exact (Dev.store_keeps d m off w fun e hw => by subst e; exact Dev.writeReason_seal d m w h hw).le

theorem Dev.busWrite_keeps (d : Dev) (m : Master) (off bytes : Nat) (data : DWord) : Keeps ⟨true, [], [.sys, .tb, .pp, .sh, .cv, .ps, .be, .tm, .ch, .dr, .sc, .mb, .hi, .cn, .sec, .flt, .pw]⟩ d (Dev.busWrite d m off bytes data) := by
  unfold Dev.busWrite
  dsimp only
  split
  · split
    · rename_i ha
      split
      · exact (Dev.reject_keeps ..).le
      · rename_i h1
        split
        · exact (Dev.reject_keeps ..).le
        · rename_i h2
          have o1 : off ≠ 0x14 := by omega
          refine (Dev.store_keeps d m off _ fun e => absurd e o1).le.trans (Dev.store_keeps _ m _ _ fun e hw hs => ?_).le
          have o2 : off = 0x10 := by omega
          subst o2
          exact Dev.writeReason_seal _ m _ h2 hw hs
    · exact (Dev.writeWord_keeps ..).le.trans (Dev.writeWord_keeps ..).le
  · split
    · exact (Dev.writeWord_keeps ..).le
    · split
      · exact (Dev.reject_keeps ..).le
      · exact Keeps.refl _ d

theorem execRegisterWrite_runs (t : Nat) (m : Master) (off bytes : Nat) (data : DWord) (s : State) :
    Runs ⟨true, [], [.sys, .tb, .pp, .sh, .cv, .ps, .be, .tm, .ch, .dr, .sc, .mb, .hi, .cn, .sec, .flt, .pw]⟩ t s (execRegisterWrite t m off bytes data s) := by
  unfold execRegisterWrite fromMaster
  refine Runs.of fun d => ?_
  repeat' (first
    | with_reducible exact Keeps.refl _ _
    | decide +kernel
    | (apply Keeps.step; with_reducible apply Dev.busWrite_keeps)
    | (with_reducible apply Keeps.ite <;> intro _)
    | beta_reduce)

theorem Dev.holdHigh_keeps (d : Dev) (m : Master) (off : Nat) : Keeps ⟨false, [], [.sys]⟩ d (Dev.holdHigh d m off) := by
  unfold Dev.holdHigh
  repeat' (first
    | with_reducible exact Keeps.refl _ _
    | decide +kernel
    | with_reducible assumption
    | lift_lets
    | (intro x; first | (refine Keeps.cut (d0 := d) (d1 := x) ?_ ?_; (on_goal 1 => subst x); (on_goal 2 => (intro _; clear_value x))) | subst x)
    | (apply Keeps.step; with_reducible apply Dev.onSys_keeps)
    | (with_reducible apply Keeps.ite <;> intro _)
    | split)

theorem execLowHalfReadCapture_runs (t : Nat) (m : Master) (off : Nat) (s : State) :
    Runs ⟨false, [], [.sys]⟩ t s (execLowHalfReadCapture t m off s) := by
  unfold execLowHalfReadCapture
  refine Runs.of fun d => ?_
  repeat' (first
    | with_reducible exact Keeps.refl _ _
    | decide +kernel
    | (apply Keeps.step; with_reducible apply Dev.holdHigh_keeps)
    | (with_reducible apply Keeps.ite <;> intro _)
    | split)

theorem execSealRequest_runs (t : Nat) (m : Master) (s : State) :
    Runs ⟨true, [], [.sys, .tb, .pp, .sh, .cv, .ps, .be, .tm, .ch, .dr, .sc, .mb, .hi, .cn, .sec, .flt, .pw]⟩ t s (execSealRequest t m s) := by
  unfold execSealRequest fromMaster
  refine Runs.of fun d => ?_
  repeat' (first
    | with_reducible exact Keeps.refl _ _
    | decide +kernel
    | (apply Keeps.step; with_reducible apply Dev.busWrite_keeps)
    | (with_reducible apply Keeps.ite <;> intro _)
    | beta_reduce)

end Sys2Proof.Machine
end

