-- ==== Sys2Proof/Laws/KeepsManagement.lean ====
section
/-! SUPPORT. What the effects of Management.lean keep. -/

namespace Sys2Proof.Machine

set_option Elab.async false

theorem Keeps.iteS {W : Foot} {d0 : Dev} {c : Prop} [Decidable c] {a b : Served} (h : c → Keeps W d0 a.dev) (k : ¬c → Keeps W d0 b.dev) :
    Keeps W d0 (if c then a else b).dev := by
  by_cases x : c
  · rw [if_pos x]; exact h x
  · rw [if_neg x]; exact k x

theorem Dev.privileged_keeps {W : Foot} (d : Dev) (uart : Bool) (x : Descr) (buf : List Byte) (f : Dev → Nat → List Byte → List Byte → Served)
    (h : ∀ d c k rest, Keeps W d (f d c k rest).dev)
    (hw : ∀ d0 d, Keeps ⟨false, [F.SEC_STAT_key_slot, F.SEC_STAT_enrolled, F.SEC_STAT_session_qp0, F.SEC_STAT_session_uart], [.sec]⟩ d0 d → Keeps W d0 d) : Keeps W d (Dev.privileged d uart x buf f).dev := by
  unfold Dev.privileged
  split
  · exact Keeps.refl _ d
  · exact Keeps.refl _ d
  · exact (hw _ _ (Dev.setSession_keeps ..).le).trans (h _ _ _ _) --FOUR

theorem Dev.signing_keeps {W : Foot} (d : Dev) (f : Dev → Served) (h : ∀ d, Keeps W d (f d).dev) : Keeps W d (Dev.signing d f).dev :=
  Keeps.iteS (fun _ => Keeps.refl _ d) fun _ => h d --ONE

theorem Dev.serveUnseal_keeps (d : Dev) (uart : Bool) (x : Descr) (buf : List Byte) : Keeps ⟨false, [F.DEV_STATE_state, F.BE_ENG_STAT_state, F.BE_ENG_STAT_loop, F.BE_ENG_STAT_loops, F.BE_LP_STAT_state, F.BE_POOL_STAT_fenced, F.BE_POOL_STAT_free, F.MB_BANK_CTRL_owner, F.MB_BANK_CTRL_draining, F.MB_BANK_STAT_draining, F.SEC_STAT_key_slot, F.SEC_STAT_enrolled, F.SEC_STAT_session_qp0, F.SEC_STAT_session_uart], [.sys, .be, .mb, .sec]⟩ d (Dev.serveUnseal d uart x buf).dev := by
  unfold Dev.serveUnseal
  refine Keeps.iteS (fun _ => Keeps.refl _ d) fun _ => Dev.privileged_keeps _ _ _ _ _ (fun e _ _ _ => ?_) (fun _ _ k => k.le)
  refine Keeps.iteS (fun _ => Keeps.refl _ e) fun hs => Keeps.iteS (fun _ => Keeps.refl _ e) fun _ => ?_
  refine Most.keeps ?_ fun h => hs ?_
  · dsimp only
    refine Most.trans ?_ (Dev.onSys_keeps ..).le.toMost
    refine Most.trans ?_ (Dev.wr_most _ _ _ _ (by decide)).le
    exact ((Dev.unsealPool_keeps e).le.trans (Dev.unsealBanks_keeps _).le).toMost
  · simp [Dev.isSealed, h, DevSt.safe, DevSt.sealed]

theorem Dev.serveIdentity_keeps (d : Dev) : Keeps ⟨false, [], []⟩ d (Dev.serveIdentity d).dev := by
  unfold Dev.serveIdentity
  repeat' (first
    | with_reducible exact Keeps.refl _ _
    | decide +kernel
    | (apply Keeps.iteS <;> intro _)
    | split
    | dsimp only)

theorem Dev.serveAttest_keeps (d : Dev) (buf : List Byte) : Keeps ⟨false, [], []⟩ d (Dev.serveAttest d buf).dev := by
  unfold Dev.serveAttest
  repeat' (first
    | with_reducible exact Keeps.refl _ _
    | decide +kernel
    | (intro _ _ k; exact k.le)
    | with_reducible assumption
    | lift_lets
    | (intro x; first | (refine Keeps.cut (d0 := e) (d1 := x) ?_ ?_; (on_goal 1 => subst x); (on_goal 2 => (intro _; clear_value x))) | (refine Keeps.cut (d0 := d) (d1 := x) ?_ ?_; (on_goal 1 => subst x); (on_goal 2 => (intro _; clear_value x))) | subst x)
    | (apply Keeps.stepSame; with_reducible apply Dev.signing_keeps; intro e)
    | (apply Keeps.iteS <;> intro _)
    | split
    | dsimp only)

theorem Dev.serveSessionOpen_keeps (d : Dev) (uart : Bool) (x : Descr) (buf : List Byte) : Keeps ⟨false, [F.SEC_STAT_key_slot, F.SEC_STAT_enrolled, F.SEC_STAT_session_qp0, F.SEC_STAT_session_uart], [.sec]⟩ d (Dev.serveSessionOpen d uart x buf).dev := by
  unfold Dev.serveSessionOpen
  repeat' (first
    | with_reducible exact Keeps.refl _ _
    | decide +kernel
    | (intro _ _ k; exact k.le)
    | with_reducible assumption
    | lift_lets
    | (intro x; first | (refine Keeps.cut (d0 := e) (d1 := x) ?_ ?_; (on_goal 1 => subst x); (on_goal 2 => (intro _; clear_value x))) | (refine Keeps.cut (d0 := d) (d1 := x) ?_ ?_; (on_goal 1 => subst x); (on_goal 2 => (intro _; clear_value x))) | subst x)
    | (apply Keeps.step; (with_reducible apply Dev.onSec_keeps); (exact rfl); (exact rfl))
    | (apply Keeps.step; with_reducible apply Dev.setSession_keeps)
    | (apply Keeps.stepSame; with_reducible apply Dev.signing_keeps; intro e)
    | (with_reducible apply Keeps.ite <;> intro _)
    | split
    | beta_reduce
    | (apply Keeps.iteS <;> intro _)
    | split
    | dsimp only)

theorem Dev.serveSessionClose_keeps (d : Dev) (uart : Bool) : Keeps ⟨false, [F.SEC_STAT_key_slot, F.SEC_STAT_enrolled, F.SEC_STAT_session_qp0, F.SEC_STAT_session_uart], [.sec]⟩ d (Dev.serveSessionClose d uart).dev := by
  unfold Dev.serveSessionClose
  repeat' (first
    | with_reducible exact Keeps.refl _ _
    | decide +kernel
    | (apply Keeps.step; with_reducible apply Dev.setSession_keeps)
    | (apply Keeps.iteS <;> intro _)
    | split
    | dsimp only)

theorem Dev.enrol_keeps (d : Dev) (slot : Nat) (key : List Byte) (blown : Nat) : Keeps ⟨false, [F.SEC_STAT_key_slot, F.SEC_STAT_enrolled, F.SEC_STAT_session_qp0, F.SEC_STAT_session_uart, F.SEC_STAT_otp_err], [.sec]⟩ d (Dev.enrol d slot key blown).dev := by
  unfold Dev.enrol
  refine Keeps.iteS (fun _ => Keeps.refl _ d) fun _ => Keeps.iteS (fun _ => Keeps.refl _ d) fun hs => Keeps.iteS (fun _ => ?_) fun _ => ?_
  · exact (Dev.put_keeps _ _ _ _ (by decide +kernel)).le
  · refine Keeps.trans ?_ (Dev.showSec_keeps _).le
    refine Keeps.le (Dev.withSec_keeps' d _ (fun _ => le_refl _) fun k v hv => ?_)
    simp only [Tbl.get_set]
    split
    · subst_vars
      exact absurd (by rw [Dev.enrolled, hv]; rfl) hs
    · exact hv

theorem Dev.serveEnroll_keeps (d : Dev) (uart : Bool) (x : Descr) (buf : List Byte) (blown : Nat) : Keeps ⟨false, [F.SEC_STAT_key_slot, F.SEC_STAT_enrolled, F.SEC_STAT_session_qp0, F.SEC_STAT_session_uart, F.SEC_STAT_otp_err], [.sec]⟩ d (Dev.serveEnroll d uart x buf blown).dev := by
  unfold Dev.serveEnroll
  repeat' (first
    | with_reducible exact Keeps.refl _ _
    | decide +kernel
    | (intro _ _ k; exact k.le)
    | (apply Keeps.stepSame; with_reducible apply Dev.privileged_keeps; intro e _ _ _)
    | (apply Keeps.step; with_reducible apply Dev.enrol_keeps)
    | (with_reducible apply Keeps.ite <;> intro _)
    | split
    | (apply Keeps.iteS <;> intro _)
    | split
    | dsimp only)

theorem Dev.serveRaise_keeps (d : Dev) (c v blown : Nat) : Keeps ⟨false, [F.SEC_STAT_key_slot, F.SEC_STAT_enrolled, F.SEC_STAT_session_qp0, F.SEC_STAT_session_uart, F.SEC_STAT_otp_err], [.sec]⟩ d (Dev.serveRaise d c v blown).dev := by
  unfold Dev.serveRaise
  repeat' (first
    | with_reducible exact Keeps.refl _ _
    | decide +kernel
    | with_reducible assumption
    | lift_lets
    | (intro x; first | (refine Keeps.cut (d0 := d) (d1 := x) ?_ ?_; (on_goal 1 => subst x); (on_goal 2 => (intro _; clear_value x))) | subst x)
    | (apply Keeps.step; with_reducible apply Dev.raise_keeps)
    | (with_reducible apply Keeps.ite <;> intro _)
    | split
    | (apply Keeps.iteS <;> intro _)
    | split
    | dsimp only)

theorem Dev.serveRevoke_keeps (d : Dev) (uart : Bool) (x : Descr) (buf : List Byte) (blown : Nat) : Keeps ⟨false, [F.SEC_STAT_key_slot, F.SEC_STAT_enrolled, F.SEC_STAT_session_qp0, F.SEC_STAT_session_uart, F.SEC_STAT_otp_err], [.sec]⟩ d (Dev.serveRevoke d uart x buf blown).dev := by
  unfold Dev.serveRevoke
  repeat' (first
    | with_reducible exact Keeps.refl _ _
    | decide +kernel
    | (intro _ _ k; exact k.le)
    | with_reducible assumption
    | lift_lets
    | (intro x; first | (refine Keeps.cut (d0 := e) (d1 := x) ?_ ?_; (on_goal 1 => subst x); (on_goal 2 => (intro _; clear_value x))) | (refine Keeps.cut (d0 := d) (d1 := x) ?_ ?_; (on_goal 1 => subst x); (on_goal 2 => (intro _; clear_value x))) | subst x)
    | (apply Keeps.stepSame; with_reducible apply Dev.privileged_keeps; intro e _ _ _)
    | (apply Keeps.step; with_reducible apply Dev.serveRaise_keeps)
    | (with_reducible apply Keeps.ite <;> intro _)
    | split
    | (apply Keeps.iteS <;> intro _)
    | split
    | dsimp only)

theorem Dev.noSlot_keeps (d : Dev) : Keeps ⟨false, [], []⟩ d (Dev.noSlot d).dev := by
  unfold Dev.noSlot
  repeat' (first
    | with_reducible exact Keeps.refl _ _
    | decide +kernel
    | (apply Keeps.iteS <;> intro _)
    | split
    | dsimp only)

theorem Dev.serveUpdateWrite_keeps (d : Dev) (x : Descr) (buf : List Byte) (err : Bool) : Keeps ⟨false, [F.IMS_STAT_flash_err, F.FLT_STAT_lost, F.FLT_LOST], [.sec, .flt]⟩ d (Dev.serveUpdateWrite d x buf err).dev := by
  unfold Dev.serveUpdateWrite
  repeat' (first
    | with_reducible exact Keeps.refl _ _
    | decide +kernel
    | with_reducible assumption
    | lift_lets
    | (intro x; first | (refine Keeps.cut (d0 := d) (d1 := x) ?_ ?_; (on_goal 1 => subst x); (on_goal 2 => (intro _; clear_value x))) | subst x)
    | (apply Keeps.step; with_reducible apply Dev.flashError_keeps)
    | (apply Keeps.step; with_reducible apply Dev.writeFlash_keeps)
    | (apply Keeps.step; with_reducible apply Dev.setImage_keeps)
    | (apply Keeps.step; with_reducible apply Dev.noSlot_keeps)
    | (with_reducible apply Keeps.ite <;> intro _)
    | split
    | beta_reduce
    | (apply Keeps.iteS <;> intro _)
    | split
    | dsimp only)

theorem Dev.serveUpdateVerify_keeps (d : Dev) (x : Descr) : Keeps ⟨false, [F.SEC_IMG_other_valid, F.SEC_IMG_other_version], []⟩ d (Dev.serveUpdateVerify d x).dev := by
  unfold Dev.serveUpdateVerify
  repeat' (first
    | with_reducible exact Keeps.refl _ _
    | decide +kernel
    | (intro _ _ k; exact k.le)
    | with_reducible assumption
    | lift_lets
    | (intro x; first | (refine Keeps.cut (d0 := e) (d1 := x) ?_ ?_; (on_goal 1 => subst x); (on_goal 2 => (intro _; clear_value x))) | (refine Keeps.cut (d0 := d) (d1 := x) ?_ ?_; (on_goal 1 => subst x); (on_goal 2 => (intro _; clear_value x))) | subst x)
    | (apply Keeps.step; with_reducible apply Dev.noteOther_keeps)
    | (apply Keeps.stepSame; with_reducible apply Dev.signing_keeps; intro e)
    | (apply Keeps.step; with_reducible apply Dev.noSlot_keeps)
    | (with_reducible apply Keeps.ite <;> intro _)
    | split
    | beta_reduce
    | (apply Keeps.iteS <;> intro _)
    | split
    | dsimp only)

theorem Dev.confirmTrial_keeps (d : Dev) (kind blown : Nat) (err : Bool) : Keeps ⟨false, [F.SEC_STAT_key_slot, F.SEC_STAT_enrolled, F.SEC_STAT_session_qp0, F.SEC_STAT_session_uart, F.SEC_STAT_otp_err, F.SEC_IMG_trial, F.IMS_STAT_flash_err, F.FLT_STAT_lost, F.FLT_LOST], [.sec, .flt]⟩ d (Dev.confirmTrial d kind blown err).dev := by
  unfold Dev.confirmTrial
  repeat' (first
    | with_reducible exact Keeps.refl _ _
    | decide +kernel
    | with_reducible assumption
    | lift_lets
    | (intro x; first | (refine Keeps.cut (d0 := d) (d1 := x) ?_ ?_; (on_goal 1 => subst x); (on_goal 2 => (intro _; clear_value x))) | subst x)
    | (apply Keeps.step; with_reducible apply Dev.put_keeps)
    | (apply Keeps.step; with_reducible apply Dev.flashError_keeps)
    | (apply Keeps.step; with_reducible apply Dev.setImage_keeps)
    | (apply Keeps.step; with_reducible apply Dev.serveRaise_keeps)
    | (with_reducible apply Keeps.ite <;> intro _)
    | split
    | (apply Keeps.iteS <;> intro _)
    | split
    | dsimp only)

theorem Dev.markTrial_keeps (d : Dev) (kind : Nat) (err : Bool) : Keeps ⟨false, [F.SEC_IMG_pending, F.SEC_IMG_other_valid, F.SEC_IMG_other_version, F.IMS_STAT_flash_err, F.FLT_STAT_lost, F.FLT_LOST], [.sec, .flt]⟩ d (Dev.markTrial d kind err).dev := by
  unfold Dev.markTrial
  repeat' (first
    | with_reducible exact Keeps.refl _ _
    | decide +kernel
    | with_reducible assumption
    | lift_lets
    | (intro x; first | (refine Keeps.cut (d0 := d) (d1 := x) ?_ ?_; (on_goal 1 => subst x); (on_goal 2 => (intro _; clear_value x))) | subst x)
    | (apply Keeps.step; with_reducible apply Dev.put_keeps)
    | (apply Keeps.step; with_reducible apply Dev.flashError_keeps)
    | (apply Keeps.step; with_reducible apply Dev.setImage_keeps)
    | (apply Keeps.step; with_reducible apply Dev.noteOther_keeps)
    | (apply Keeps.step; with_reducible apply Dev.noSlot_keeps)
    | (with_reducible apply Keeps.ite <;> intro _)
    | split
    | beta_reduce
    | (apply Keeps.iteS <;> intro _)
    | split
    | dsimp only)

theorem Dev.serveUpdateActivate_keeps (d : Dev) (uart : Bool) (x : Descr) (buf : List Byte) (blown : Nat) (err : Bool) : Keeps ⟨false, [F.SEC_STAT_key_slot, F.SEC_STAT_enrolled, F.SEC_STAT_session_qp0, F.SEC_STAT_session_uart, F.SEC_STAT_otp_err, F.SEC_IMG_trial, F.SEC_IMG_pending, F.SEC_IMG_other_valid, F.SEC_IMG_other_version, F.IMS_STAT_flash_err, F.FLT_STAT_lost, F.FLT_LOST], [.sec, .flt]⟩ d (Dev.serveUpdateActivate d uart x buf blown err).dev := by
  unfold Dev.serveUpdateActivate
  repeat' (first
    | with_reducible exact Keeps.refl _ _
    | decide +kernel
    | (intro _ _ k; exact k.le)
    | with_reducible assumption
    | lift_lets
    | (intro x; first | (refine Keeps.cut (d0 := e) (d1 := x) ?_ ?_; (on_goal 1 => subst x); (on_goal 2 => (intro _; clear_value x))) | (refine Keeps.cut (d0 := d) (d1 := x) ?_ ?_; (on_goal 1 => subst x); (on_goal 2 => (intro _; clear_value x))) | subst x)
    | (apply Keeps.step; (with_reducible apply Dev.onSec_keeps); (exact rfl); (exact rfl))
    | (apply Keeps.stepSame; with_reducible apply Dev.privileged_keeps; intro e _ _ _)
    | (apply Keeps.step; with_reducible apply Dev.confirmTrial_keeps)
    | (apply Keeps.step; with_reducible apply Dev.markTrial_keeps)
    | (with_reducible apply Keeps.ite <;> intro _)
    | split
    | (apply Keeps.iteS <;> intro _)
    | split
    | dsimp only)

theorem Dev.setKey_keeps (d : Dev) (slot : Nat) (v : KeyT) (err : Bool) : Keeps ⟨false, [F.IMS_STAT_flash_err, F.FLT_STAT_lost, F.FLT_LOST], [.sec, .flt]⟩ d (Dev.setKey d slot v err) := by
  unfold Dev.setKey
  repeat' (first
    | with_reducible exact Keeps.refl _ _
    | decide +kernel
    | (apply Keeps.step; (with_reducible apply Dev.onSec_keeps); (exact rfl); (exact rfl))
    | (apply Keeps.step; with_reducible apply Dev.flashError_keeps)
    | (apply Keeps.step; with_reducible apply Dev.writeFlash_keeps))

theorem Dev.serveKeyLoad_keeps (d : Dev) (uart : Bool) (x : Descr) (buf : List Byte) (err : Bool) : Keeps ⟨false, [F.SEC_STAT_key_slot, F.SEC_STAT_enrolled, F.SEC_STAT_session_qp0, F.SEC_STAT_session_uart, F.IMS_STAT_flash_err, F.FLT_STAT_lost, F.FLT_LOST], [.sec, .flt]⟩ d (Dev.serveKeyLoad d uart x buf err).dev := by
  unfold Dev.serveKeyLoad
  repeat' (first
    | with_reducible exact Keeps.refl _ _
    | decide +kernel
    | (intro _ _ k; exact k.le)
    | (apply Keeps.stepSame; with_reducible apply Dev.privileged_keeps; intro e _ _ _)
    | (apply Keeps.step; with_reducible apply Dev.setKey_keeps)
    | (with_reducible apply Keeps.ite <;> intro _)
    | split
    | (apply Keeps.iteS <;> intro _)
    | split
    | dsimp only)

theorem Dev.serveKeyErase_keeps (d : Dev) (uart : Bool) (x : Descr) (buf : List Byte) (err : Bool) : Keeps ⟨false, [F.SEC_STAT_key_slot, F.SEC_STAT_enrolled, F.SEC_STAT_session_qp0, F.SEC_STAT_session_uart, F.IMS_STAT_flash_err, F.FLT_STAT_lost, F.FLT_LOST], [.sec, .flt]⟩ d (Dev.serveKeyErase d uart x buf err).dev := by
  unfold Dev.serveKeyErase
  repeat' (first
    | with_reducible exact Keeps.refl _ _
    | decide +kernel
    | (intro _ _ k; exact k.le)
    | (apply Keeps.stepSame; with_reducible apply Dev.privileged_keeps; intro e _ _ _)
    | (apply Keeps.step; with_reducible apply Dev.setKey_keeps)
    | (apply Keeps.iteS <;> intro _)
    | split
    | dsimp only)

theorem Dev.serveRaiseCounter_keeps (d : Dev) (uart : Bool) (x : Descr) (buf : List Byte) (blown : Nat) : Keeps ⟨false, [F.SEC_STAT_key_slot, F.SEC_STAT_enrolled, F.SEC_STAT_session_qp0, F.SEC_STAT_session_uart, F.SEC_STAT_otp_err], [.sec]⟩ d (Dev.serveRaiseCounter d uart x buf blown).dev := by
  unfold Dev.serveRaiseCounter
  repeat' (first
    | with_reducible exact Keeps.refl _ _
    | decide +kernel
    | (intro _ _ k; exact k.le)
    | (apply Keeps.stepSame; with_reducible apply Dev.privileged_keeps; intro e _ _ _)
    | (apply Keeps.step; with_reducible apply Dev.serveRaise_keeps)
    | (with_reducible apply Keeps.ite <;> intro _)
    | split
    | (apply Keeps.iteS <;> intro _)
    | split
    | dsimp only)

theorem Dev.serveLedgerRead_keeps (d : Dev) (x : Descr) : Keeps ⟨false, [F.FLT_STAT_lost, F.FLT_LOST], [.sec, .flt]⟩ d (Dev.serveLedgerRead d x).dev := by
  unfold Dev.serveLedgerRead
  repeat' (first
    | with_reducible exact Keeps.refl _ _
    | decide +kernel
    | with_reducible assumption
    | lift_lets
    | (intro x; first | (refine Keeps.cut (d0 := d) (d1 := x) ?_ ?_; (on_goal 1 => subst x); (on_goal 2 => (intro _; clear_value x))) | subst x)
    | (apply Keeps.step; with_reducible apply Dev.checkChain_keeps)
    | (apply Keeps.iteS <;> intro _)
    | split
    | dsimp only)

theorem Dev.serveLifetimeRead_keeps (d : Dev) (x : Descr) : Keeps ⟨false, [], []⟩ d (Dev.serveLifetimeRead d x).dev := by
  unfold Dev.serveLifetimeRead
  repeat' (first
    | with_reducible exact Keeps.refl _ _
    | decide +kernel
    | with_reducible assumption
    | lift_lets
    | (intro x; first | (refine Keeps.cut (d0 := d) (d1 := x) ?_ ?_; (on_goal 1 => subst x); (on_goal 2 => (intro _; clear_value x))) | subst x)
    | (apply Keeps.iteS <;> intro _)
    | split
    | dsimp only)

theorem Dev.serve_keeps (d : Dev) (uart : Bool) (x : Descr) (buf : List Byte) (blown : Nat) (err : Bool) :
    Keeps ⟨false, [F.DEV_STATE_state, F.BE_ENG_STAT_state, F.BE_ENG_STAT_loop, F.BE_ENG_STAT_loops, F.BE_LP_STAT_state, F.BE_POOL_STAT_fenced, F.BE_POOL_STAT_free, F.MB_BANK_CTRL_owner, F.MB_BANK_CTRL_draining, F.MB_BANK_STAT_draining, F.SEC_STAT_key_slot, F.SEC_STAT_enrolled, F.SEC_STAT_session_qp0, F.SEC_STAT_session_uart, F.SEC_STAT_otp_err, F.SEC_IMG_trial, F.SEC_IMG_pending, F.SEC_IMG_other_valid, F.SEC_IMG_other_version, F.IMS_STAT_flash_err, F.FLT_STAT_lost, F.FLT_LOST], [.sys, .be, .mb, .sec, .flt]⟩ d (Dev.serve d uart x buf blown err).dev := by
  unfold Dev.serve
  split
  · exact (Dev.serveUnseal_keeps ..).le
  · exact (Dev.serveIdentity_keeps ..).le
  · exact (Dev.serveAttest_keeps ..).le
  · exact (Dev.serveSessionOpen_keeps ..).le
  · exact (Dev.serveSessionClose_keeps ..).le
  · exact (Dev.serveEnroll_keeps ..).le
  · exact (Dev.serveRevoke_keeps ..).le
  · exact (Dev.serveUpdateWrite_keeps ..).le
  · exact (Dev.serveUpdateVerify_keeps ..).le
  · exact (Dev.serveUpdateActivate_keeps ..).le
  · exact (Dev.serveKeyLoad_keeps ..).le
  · exact (Dev.serveKeyErase_keeps ..).le
  · exact (Dev.serveRaiseCounter_keeps ..).le
  · exact (Dev.serveLedgerRead_keeps ..).le
  · exact (Dev.serveLifetimeRead_keeps ..).le
  · exact Keeps.refl _ d

theorem Dev.answerUart_keeps (d : Dev) (p : List Byte) (blown : Nat) (err : Bool) : Keeps ⟨false, [F.DEV_STATE_state, F.BE_ENG_STAT_state, F.BE_ENG_STAT_loop, F.BE_ENG_STAT_loops, F.BE_LP_STAT_state, F.BE_POOL_STAT_fenced, F.BE_POOL_STAT_free, F.MB_BANK_CTRL_owner, F.MB_BANK_CTRL_draining, F.MB_BANK_STAT_draining, F.SEC_STAT_key_slot, F.SEC_STAT_enrolled, F.SEC_STAT_session_qp0, F.SEC_STAT_session_uart, F.SEC_STAT_otp_err, F.SEC_IMG_trial, F.SEC_IMG_pending, F.SEC_IMG_other_valid, F.SEC_IMG_other_version, F.IMS_STAT_flash_err, F.FLT_STAT_lost, F.FLT_LOST], [.sys, .be, .mb, .sec, .flt]⟩ d (Dev.answerUart d p blown err) := by
  unfold Dev.answerUart
  dsimp only
  refine Keeps.trans ?_ (Dev.onSec_keeps _ _ rfl rfl).le
  split
  · exact Keeps.refl _ d
  · exact (Dev.serve_keeps ..).le

theorem Dev.serveUart_keeps (d : Dev) (l : List UartReq) : Keeps ⟨false, [F.DEV_STATE_state, F.BE_ENG_STAT_state, F.BE_ENG_STAT_loop, F.BE_ENG_STAT_loops, F.BE_LP_STAT_state, F.BE_POOL_STAT_fenced, F.BE_POOL_STAT_free, F.MB_BANK_CTRL_owner, F.MB_BANK_CTRL_draining, F.MB_BANK_STAT_draining, F.SEC_STAT_key_slot, F.SEC_STAT_enrolled, F.SEC_STAT_session_qp0, F.SEC_STAT_session_uart, F.SEC_STAT_otp_err, F.SEC_IMG_trial, F.SEC_IMG_pending, F.SEC_IMG_other_valid, F.SEC_IMG_other_version, F.IMS_STAT_flash_err, F.FLT_STAT_lost, F.FLT_LOST], [.sys, .be, .mb, .sec, .flt]⟩ d (Dev.serveUart d l) := by
  induction l generalizing d with
  | nil => unfold Dev.serveUart; exact (Dev.onSec_keeps _ _ rfl rfl).le
  | cons r rs ih =>
    unfold Dev.serveUart
    exact Keeps.ite (fun _ => (Dev.onSec_keeps _ _ rfl rfl).le) fun _ => (Dev.answerUart_keeps ..).trans (ih _)

theorem Dev.uartTurn_keeps (d : Dev) : Keeps ⟨false, [F.DEV_STATE_state, F.BE_ENG_STAT_state, F.BE_ENG_STAT_loop, F.BE_ENG_STAT_loops, F.BE_LP_STAT_state, F.BE_POOL_STAT_fenced, F.BE_POOL_STAT_free, F.MB_BANK_CTRL_owner, F.MB_BANK_CTRL_draining, F.MB_BANK_STAT_draining, F.SEC_STAT_key_slot, F.SEC_STAT_enrolled, F.SEC_STAT_session_qp0, F.SEC_STAT_session_uart, F.SEC_STAT_otp_err, F.SEC_IMG_trial, F.SEC_IMG_pending, F.SEC_IMG_other_valid, F.SEC_IMG_other_version, F.IMS_STAT_flash_err, F.FLT_STAT_lost, F.FLT_LOST], [.sys, .be, .mb, .sec, .flt]⟩ d (Dev.uartTurn d) := by
  unfold Dev.uartTurn
  repeat' (first
    | with_reducible exact Keeps.refl _ _
    | decide +kernel
    | (apply Keeps.step; with_reducible apply Dev.serveUart_keeps))

theorem Dev.manage_keeps {W : Foot} (d : Dev) (i op : Nat) (f : Dev → Descr → Served) (h : ∀ d x, Keeps W d (f d x).dev)
    (hw : ∀ d0 d, Keeps ⟨false, [F.DEV_STATE_state, F.BE_ENG_STAT_state, F.BE_ENG_STAT_loop, F.BE_ENG_STAT_loops, F.BE_LP_STAT_state, F.BE_POOL_STAT_fenced, F.BE_POOL_STAT_free, F.SC_TM_STAT_last_status, F.SC_TM_CNT_refusals, F.SC_CH_STAT_last_status, F.SC_LV_STAT_last_status, F.SC_DR_STAT_last_status, F.MB_BANK_CTRL_owner, F.MB_BANK_CTRL_draining, F.MB_BANK_STAT_draining, F.HI_QP_CTRL_draining, F.HI_QP_FLAGS_in_flight, F.CN_STAT_slots, F.SEC_STAT_key_slot, F.SEC_STAT_enrolled, F.SEC_STAT_session_qp0, F.SEC_STAT_session_uart, F.SEC_STAT_otp_err, F.SEC_IMG_trial, F.SEC_IMG_pending, F.SEC_IMG_other_valid, F.SEC_IMG_other_version, F.IMS_STAT_flash_err, F.FLT_STAT_lost, F.FLT_LOST], [.sys, .be, .mb, .hi, .cn, .sec, .flt]⟩ d0 d → Keeps W d0 d) : Keeps W d (Dev.manage d i op f) := by
  unfold Dev.manage
  refine ((hw _ _ (Dev.uartTurn_keeps d).le).trans ?_).trans (hw _ _ (Dev.uartTurn_keeps _).le)
  refine Dev.startItem_keeps _ _ _ _ _ _ (fun e x => ?_) fun _ _ k => hw _ _ k.le
  refine Keeps.ite (fun _ => hw _ _ (Dev.finish_keeps ..).le) fun _ => ?_
  dsimp only
  refine Keeps.trans ?_ (hw _ _ (Dev.finish_keeps ..).le)
  exact Keeps.ite (fun _ => h e x) fun _ => (h e x).trans (hw _ _ (Dev.emit_keeps ..).le) --FUN

theorem execUnseal_runs (t i : Nat) (buf : List Byte) (s : State) :
    Runs ⟨false, [F.DEV_STATE_state, F.BE_ENG_STAT_state, F.BE_ENG_STAT_loop, F.BE_ENG_STAT_loops, F.BE_LP_STAT_state, F.BE_POOL_STAT_fenced, F.BE_POOL_STAT_free, F.SC_TM_STAT_last_status, F.SC_TM_CNT_refusals, F.SC_CH_STAT_last_status, F.SC_LV_STAT_last_status, F.SC_DR_STAT_last_status, F.MB_BANK_CTRL_owner, F.MB_BANK_CTRL_draining, F.MB_BANK_STAT_draining, F.HI_QP_CTRL_draining, F.HI_QP_FLAGS_in_flight, F.CN_STAT_slots, F.SEC_STAT_key_slot, F.SEC_STAT_enrolled, F.SEC_STAT_session_qp0, F.SEC_STAT_session_uart, F.SEC_STAT_otp_err, F.SEC_IMG_trial, F.SEC_IMG_pending, F.SEC_IMG_other_valid, F.SEC_IMG_other_version, F.IMS_STAT_flash_err, F.FLT_STAT_lost, F.FLT_LOST], [.sys, .be, .mb, .hi, .cn, .sec, .flt]⟩ t s (execUnseal t i buf s) := by
  unfold execUnseal
  refine Runs.of fun d => ?_
  repeat' (first
    | with_reducible exact Keeps.refl _ _
    | decide +kernel
    | (intro _ _ k; exact k.le)
    | (apply Keeps.step; with_reducible apply Dev.serveUnseal_keeps)
    | (apply Keeps.stepSame; with_reducible apply Dev.manage_keeps; intro e _))

theorem execIdentity_runs (t i : Nat) (s : State) :
    Runs ⟨false, [F.DEV_STATE_state, F.BE_ENG_STAT_state, F.BE_ENG_STAT_loop, F.BE_ENG_STAT_loops, F.BE_LP_STAT_state, F.BE_POOL_STAT_fenced, F.BE_POOL_STAT_free, F.SC_TM_STAT_last_status, F.SC_TM_CNT_refusals, F.SC_CH_STAT_last_status, F.SC_LV_STAT_last_status, F.SC_DR_STAT_last_status, F.MB_BANK_CTRL_owner, F.MB_BANK_CTRL_draining, F.MB_BANK_STAT_draining, F.HI_QP_CTRL_draining, F.HI_QP_FLAGS_in_flight, F.CN_STAT_slots, F.SEC_STAT_key_slot, F.SEC_STAT_enrolled, F.SEC_STAT_session_qp0, F.SEC_STAT_session_uart, F.SEC_STAT_otp_err, F.SEC_IMG_trial, F.SEC_IMG_pending, F.SEC_IMG_other_valid, F.SEC_IMG_other_version, F.IMS_STAT_flash_err, F.FLT_STAT_lost, F.FLT_LOST], [.sys, .be, .mb, .hi, .cn, .sec, .flt]⟩ t s (execIdentity t i s) := by
  unfold execIdentity
  refine Runs.of fun d => ?_
  repeat' (first
    | with_reducible exact Keeps.refl _ _
    | decide +kernel
    | (intro _ _ k; exact k.le)
    | (apply Keeps.step; with_reducible apply Dev.serveIdentity_keeps)
    | (apply Keeps.stepSame; with_reducible apply Dev.manage_keeps; intro e _))

theorem execAttest_runs (t i : Nat) (buf : List Byte) (s : State) :
    Runs ⟨false, [F.DEV_STATE_state, F.BE_ENG_STAT_state, F.BE_ENG_STAT_loop, F.BE_ENG_STAT_loops, F.BE_LP_STAT_state, F.BE_POOL_STAT_fenced, F.BE_POOL_STAT_free, F.SC_TM_STAT_last_status, F.SC_TM_CNT_refusals, F.SC_CH_STAT_last_status, F.SC_LV_STAT_last_status, F.SC_DR_STAT_last_status, F.MB_BANK_CTRL_owner, F.MB_BANK_CTRL_draining, F.MB_BANK_STAT_draining, F.HI_QP_CTRL_draining, F.HI_QP_FLAGS_in_flight, F.CN_STAT_slots, F.SEC_STAT_key_slot, F.SEC_STAT_enrolled, F.SEC_STAT_session_qp0, F.SEC_STAT_session_uart, F.SEC_STAT_otp_err, F.SEC_IMG_trial, F.SEC_IMG_pending, F.SEC_IMG_other_valid, F.SEC_IMG_other_version, F.IMS_STAT_flash_err, F.FLT_STAT_lost, F.FLT_LOST], [.sys, .be, .mb, .hi, .cn, .sec, .flt]⟩ t s (execAttest t i buf s) := by
  unfold execAttest
  refine Runs.of fun d => ?_
  repeat' (first
    | with_reducible exact Keeps.refl _ _
    | decide +kernel
    | (intro _ _ k; exact k.le)
    | (apply Keeps.step; with_reducible apply Dev.serveAttest_keeps)
    | (apply Keeps.stepSame; with_reducible apply Dev.manage_keeps; intro e _))

theorem execSessionOpen_runs (t i : Nat) (buf : List Byte) (s : State) :
    Runs ⟨false, [F.DEV_STATE_state, F.BE_ENG_STAT_state, F.BE_ENG_STAT_loop, F.BE_ENG_STAT_loops, F.BE_LP_STAT_state, F.BE_POOL_STAT_fenced, F.BE_POOL_STAT_free, F.SC_TM_STAT_last_status, F.SC_TM_CNT_refusals, F.SC_CH_STAT_last_status, F.SC_LV_STAT_last_status, F.SC_DR_STAT_last_status, F.MB_BANK_CTRL_owner, F.MB_BANK_CTRL_draining, F.MB_BANK_STAT_draining, F.HI_QP_CTRL_draining, F.HI_QP_FLAGS_in_flight, F.CN_STAT_slots, F.SEC_STAT_key_slot, F.SEC_STAT_enrolled, F.SEC_STAT_session_qp0, F.SEC_STAT_session_uart, F.SEC_STAT_otp_err, F.SEC_IMG_trial, F.SEC_IMG_pending, F.SEC_IMG_other_valid, F.SEC_IMG_other_version, F.IMS_STAT_flash_err, F.FLT_STAT_lost, F.FLT_LOST], [.sys, .be, .mb, .hi, .cn, .sec, .flt]⟩ t s (execSessionOpen t i buf s) := by
  unfold execSessionOpen
  refine Runs.of fun d => ?_
  repeat' (first
    | with_reducible exact Keeps.refl _ _
    | decide +kernel
    | (intro _ _ k; exact k.le)
    | (apply Keeps.step; with_reducible apply Dev.serveSessionOpen_keeps)
    | (apply Keeps.stepSame; with_reducible apply Dev.manage_keeps; intro e _))

theorem execSessionClose_runs (t i : Nat) (s : State) :
    Runs ⟨false, [F.DEV_STATE_state, F.BE_ENG_STAT_state, F.BE_ENG_STAT_loop, F.BE_ENG_STAT_loops, F.BE_LP_STAT_state, F.BE_POOL_STAT_fenced, F.BE_POOL_STAT_free, F.SC_TM_STAT_last_status, F.SC_TM_CNT_refusals, F.SC_CH_STAT_last_status, F.SC_LV_STAT_last_status, F.SC_DR_STAT_last_status, F.MB_BANK_CTRL_owner, F.MB_BANK_CTRL_draining, F.MB_BANK_STAT_draining, F.HI_QP_CTRL_draining, F.HI_QP_FLAGS_in_flight, F.CN_STAT_slots, F.SEC_STAT_key_slot, F.SEC_STAT_enrolled, F.SEC_STAT_session_qp0, F.SEC_STAT_session_uart, F.SEC_STAT_otp_err, F.SEC_IMG_trial, F.SEC_IMG_pending, F.SEC_IMG_other_valid, F.SEC_IMG_other_version, F.IMS_STAT_flash_err, F.FLT_STAT_lost, F.FLT_LOST], [.sys, .be, .mb, .hi, .cn, .sec, .flt]⟩ t s (execSessionClose t i s) := by
  unfold execSessionClose
  refine Runs.of fun d => ?_
  repeat' (first
    | with_reducible exact Keeps.refl _ _
    | decide +kernel
    | (intro _ _ k; exact k.le)
    | (apply Keeps.step; with_reducible apply Dev.serveSessionClose_keeps)
    | (apply Keeps.stepSame; with_reducible apply Dev.manage_keeps; intro e _))

theorem execEnroll_runs (t i : Nat) (buf : List Byte) (blown : Nat) (s : State) :
    Runs ⟨false, [F.DEV_STATE_state, F.BE_ENG_STAT_state, F.BE_ENG_STAT_loop, F.BE_ENG_STAT_loops, F.BE_LP_STAT_state, F.BE_POOL_STAT_fenced, F.BE_POOL_STAT_free, F.SC_TM_STAT_last_status, F.SC_TM_CNT_refusals, F.SC_CH_STAT_last_status, F.SC_LV_STAT_last_status, F.SC_DR_STAT_last_status, F.MB_BANK_CTRL_owner, F.MB_BANK_CTRL_draining, F.MB_BANK_STAT_draining, F.HI_QP_CTRL_draining, F.HI_QP_FLAGS_in_flight, F.CN_STAT_slots, F.SEC_STAT_key_slot, F.SEC_STAT_enrolled, F.SEC_STAT_session_qp0, F.SEC_STAT_session_uart, F.SEC_STAT_otp_err, F.SEC_IMG_trial, F.SEC_IMG_pending, F.SEC_IMG_other_valid, F.SEC_IMG_other_version, F.IMS_STAT_flash_err, F.FLT_STAT_lost, F.FLT_LOST], [.sys, .be, .mb, .hi, .cn, .sec, .flt]⟩ t s (execEnroll t i buf blown s) := by
  unfold execEnroll
  refine Runs.of fun d => ?_
  repeat' (first
    | with_reducible exact Keeps.refl _ _
    | decide +kernel
    | (intro _ _ k; exact k.le)
    | (apply Keeps.step; with_reducible apply Dev.serveEnroll_keeps)
    | (apply Keeps.stepSame; with_reducible apply Dev.manage_keeps; intro e _))

theorem execRevoke_runs (t i : Nat) (buf : List Byte) (blown : Nat) (s : State) :
    Runs ⟨false, [F.DEV_STATE_state, F.BE_ENG_STAT_state, F.BE_ENG_STAT_loop, F.BE_ENG_STAT_loops, F.BE_LP_STAT_state, F.BE_POOL_STAT_fenced, F.BE_POOL_STAT_free, F.SC_TM_STAT_last_status, F.SC_TM_CNT_refusals, F.SC_CH_STAT_last_status, F.SC_LV_STAT_last_status, F.SC_DR_STAT_last_status, F.MB_BANK_CTRL_owner, F.MB_BANK_CTRL_draining, F.MB_BANK_STAT_draining, F.HI_QP_CTRL_draining, F.HI_QP_FLAGS_in_flight, F.CN_STAT_slots, F.SEC_STAT_key_slot, F.SEC_STAT_enrolled, F.SEC_STAT_session_qp0, F.SEC_STAT_session_uart, F.SEC_STAT_otp_err, F.SEC_IMG_trial, F.SEC_IMG_pending, F.SEC_IMG_other_valid, F.SEC_IMG_other_version, F.IMS_STAT_flash_err, F.FLT_STAT_lost, F.FLT_LOST], [.sys, .be, .mb, .hi, .cn, .sec, .flt]⟩ t s (execRevoke t i buf blown s) := by
  unfold execRevoke
  refine Runs.of fun d => ?_
  repeat' (first
    | with_reducible exact Keeps.refl _ _
    | decide +kernel
    | (intro _ _ k; exact k.le)
    | (apply Keeps.step; with_reducible apply Dev.serveRevoke_keeps)
    | (apply Keeps.stepSame; with_reducible apply Dev.manage_keeps; intro e _))

theorem execUpdateWrite_runs (t i : Nat) (buf : List Byte) (err : Bool) (s : State) :
    Runs ⟨false, [F.DEV_STATE_state, F.BE_ENG_STAT_state, F.BE_ENG_STAT_loop, F.BE_ENG_STAT_loops, F.BE_LP_STAT_state, F.BE_POOL_STAT_fenced, F.BE_POOL_STAT_free, F.SC_TM_STAT_last_status, F.SC_TM_CNT_refusals, F.SC_CH_STAT_last_status, F.SC_LV_STAT_last_status, F.SC_DR_STAT_last_status, F.MB_BANK_CTRL_owner, F.MB_BANK_CTRL_draining, F.MB_BANK_STAT_draining, F.HI_QP_CTRL_draining, F.HI_QP_FLAGS_in_flight, F.CN_STAT_slots, F.SEC_STAT_key_slot, F.SEC_STAT_enrolled, F.SEC_STAT_session_qp0, F.SEC_STAT_session_uart, F.SEC_STAT_otp_err, F.SEC_IMG_trial, F.SEC_IMG_pending, F.SEC_IMG_other_valid, F.SEC_IMG_other_version, F.IMS_STAT_flash_err, F.FLT_STAT_lost, F.FLT_LOST], [.sys, .be, .mb, .hi, .cn, .sec, .flt]⟩ t s (execUpdateWrite t i buf err s) := by
  unfold execUpdateWrite
  refine Runs.of fun d => ?_
  repeat' (first
    | with_reducible exact Keeps.refl _ _
    | decide +kernel
    | (intro _ _ k; exact k.le)
    | (apply Keeps.step; with_reducible apply Dev.serveUpdateWrite_keeps)
    | (apply Keeps.stepSame; with_reducible apply Dev.manage_keeps; intro e _))

theorem execUpdateVerify_runs (t i : Nat) (s : State) :
    Runs ⟨false, [F.DEV_STATE_state, F.BE_ENG_STAT_state, F.BE_ENG_STAT_loop, F.BE_ENG_STAT_loops, F.BE_LP_STAT_state, F.BE_POOL_STAT_fenced, F.BE_POOL_STAT_free, F.SC_TM_STAT_last_status, F.SC_TM_CNT_refusals, F.SC_CH_STAT_last_status, F.SC_LV_STAT_last_status, F.SC_DR_STAT_last_status, F.MB_BANK_CTRL_owner, F.MB_BANK_CTRL_draining, F.MB_BANK_STAT_draining, F.HI_QP_CTRL_draining, F.HI_QP_FLAGS_in_flight, F.CN_STAT_slots, F.SEC_STAT_key_slot, F.SEC_STAT_enrolled, F.SEC_STAT_session_qp0, F.SEC_STAT_session_uart, F.SEC_STAT_otp_err, F.SEC_IMG_trial, F.SEC_IMG_pending, F.SEC_IMG_other_valid, F.SEC_IMG_other_version, F.IMS_STAT_flash_err, F.FLT_STAT_lost, F.FLT_LOST], [.sys, .be, .mb, .hi, .cn, .sec, .flt]⟩ t s (execUpdateVerify t i s) := by
  unfold execUpdateVerify
  refine Runs.of fun d => ?_
  repeat' (first
    | with_reducible exact Keeps.refl _ _
    | decide +kernel
    | (intro _ _ k; exact k.le)
    | (apply Keeps.step; with_reducible apply Dev.serveUpdateVerify_keeps)
    | (apply Keeps.stepSame; with_reducible apply Dev.manage_keeps; intro e _))

theorem execUpdateActivate_runs (t i : Nat) (buf : List Byte) (burn : BurnInput) (s : State) :
    Runs ⟨false, [F.DEV_STATE_state, F.BE_ENG_STAT_state, F.BE_ENG_STAT_loop, F.BE_ENG_STAT_loops, F.BE_LP_STAT_state, F.BE_POOL_STAT_fenced, F.BE_POOL_STAT_free, F.SC_TM_STAT_last_status, F.SC_TM_CNT_refusals, F.SC_CH_STAT_last_status, F.SC_LV_STAT_last_status, F.SC_DR_STAT_last_status, F.MB_BANK_CTRL_owner, F.MB_BANK_CTRL_draining, F.MB_BANK_STAT_draining, F.HI_QP_CTRL_draining, F.HI_QP_FLAGS_in_flight, F.CN_STAT_slots, F.SEC_STAT_key_slot, F.SEC_STAT_enrolled, F.SEC_STAT_session_qp0, F.SEC_STAT_session_uart, F.SEC_STAT_otp_err, F.SEC_IMG_trial, F.SEC_IMG_pending, F.SEC_IMG_other_valid, F.SEC_IMG_other_version, F.IMS_STAT_flash_err, F.FLT_STAT_lost, F.FLT_LOST], [.sys, .be, .mb, .hi, .cn, .sec, .flt]⟩ t s (execUpdateActivate t i buf burn s) := by
  unfold execUpdateActivate
  refine Runs.of fun d => ?_
  repeat' (first
    | with_reducible exact Keeps.refl _ _
    | decide +kernel
    | (intro _ _ k; exact k.le)
    | (apply Keeps.step; with_reducible apply Dev.serveUpdateActivate_keeps)
    | (apply Keeps.stepSame; with_reducible apply Dev.manage_keeps; intro e _))

theorem execKeyLoad_runs (t i : Nat) (buf : FlashInput) (s : State) :
    Runs ⟨false, [F.DEV_STATE_state, F.BE_ENG_STAT_state, F.BE_ENG_STAT_loop, F.BE_ENG_STAT_loops, F.BE_LP_STAT_state, F.BE_POOL_STAT_fenced, F.BE_POOL_STAT_free, F.SC_TM_STAT_last_status, F.SC_TM_CNT_refusals, F.SC_CH_STAT_last_status, F.SC_LV_STAT_last_status, F.SC_DR_STAT_last_status, F.MB_BANK_CTRL_owner, F.MB_BANK_CTRL_draining, F.MB_BANK_STAT_draining, F.HI_QP_CTRL_draining, F.HI_QP_FLAGS_in_flight, F.CN_STAT_slots, F.SEC_STAT_key_slot, F.SEC_STAT_enrolled, F.SEC_STAT_session_qp0, F.SEC_STAT_session_uart, F.SEC_STAT_otp_err, F.SEC_IMG_trial, F.SEC_IMG_pending, F.SEC_IMG_other_valid, F.SEC_IMG_other_version, F.IMS_STAT_flash_err, F.FLT_STAT_lost, F.FLT_LOST], [.sys, .be, .mb, .hi, .cn, .sec, .flt]⟩ t s (execKeyLoad t i buf s) := by
  unfold execKeyLoad
  refine Runs.of fun d => ?_
  repeat' (first
    | with_reducible exact Keeps.refl _ _
    | decide +kernel
    | (intro _ _ k; exact k.le)
    | (apply Keeps.step; with_reducible apply Dev.serveKeyLoad_keeps)
    | (apply Keeps.stepSame; with_reducible apply Dev.manage_keeps; intro e _))

theorem execKeyErase_runs (t i : Nat) (buf : FlashInput) (s : State) :
    Runs ⟨false, [F.DEV_STATE_state, F.BE_ENG_STAT_state, F.BE_ENG_STAT_loop, F.BE_ENG_STAT_loops, F.BE_LP_STAT_state, F.BE_POOL_STAT_fenced, F.BE_POOL_STAT_free, F.SC_TM_STAT_last_status, F.SC_TM_CNT_refusals, F.SC_CH_STAT_last_status, F.SC_LV_STAT_last_status, F.SC_DR_STAT_last_status, F.MB_BANK_CTRL_owner, F.MB_BANK_CTRL_draining, F.MB_BANK_STAT_draining, F.HI_QP_CTRL_draining, F.HI_QP_FLAGS_in_flight, F.CN_STAT_slots, F.SEC_STAT_key_slot, F.SEC_STAT_enrolled, F.SEC_STAT_session_qp0, F.SEC_STAT_session_uart, F.SEC_STAT_otp_err, F.SEC_IMG_trial, F.SEC_IMG_pending, F.SEC_IMG_other_valid, F.SEC_IMG_other_version, F.IMS_STAT_flash_err, F.FLT_STAT_lost, F.FLT_LOST], [.sys, .be, .mb, .hi, .cn, .sec, .flt]⟩ t s (execKeyErase t i buf s) := by
  unfold execKeyErase
  refine Runs.of fun d => ?_
  repeat' (first
    | with_reducible exact Keeps.refl _ _
    | decide +kernel
    | (intro _ _ k; exact k.le)
    | (apply Keeps.step; with_reducible apply Dev.serveKeyErase_keeps)
    | (apply Keeps.stepSame; with_reducible apply Dev.manage_keeps; intro e _))

theorem execRaiseCounter_runs (t i : Nat) (buf : List Byte) (blown : Nat) (s : State) :
    Runs ⟨false, [F.DEV_STATE_state, F.BE_ENG_STAT_state, F.BE_ENG_STAT_loop, F.BE_ENG_STAT_loops, F.BE_LP_STAT_state, F.BE_POOL_STAT_fenced, F.BE_POOL_STAT_free, F.SC_TM_STAT_last_status, F.SC_TM_CNT_refusals, F.SC_CH_STAT_last_status, F.SC_LV_STAT_last_status, F.SC_DR_STAT_last_status, F.MB_BANK_CTRL_owner, F.MB_BANK_CTRL_draining, F.MB_BANK_STAT_draining, F.HI_QP_CTRL_draining, F.HI_QP_FLAGS_in_flight, F.CN_STAT_slots, F.SEC_STAT_key_slot, F.SEC_STAT_enrolled, F.SEC_STAT_session_qp0, F.SEC_STAT_session_uart, F.SEC_STAT_otp_err, F.SEC_IMG_trial, F.SEC_IMG_pending, F.SEC_IMG_other_valid, F.SEC_IMG_other_version, F.IMS_STAT_flash_err, F.FLT_STAT_lost, F.FLT_LOST], [.sys, .be, .mb, .hi, .cn, .sec, .flt]⟩ t s (execRaiseCounter t i buf blown s) := by
  unfold execRaiseCounter
  refine Runs.of fun d => ?_
  repeat' (first
    | with_reducible exact Keeps.refl _ _
    | decide +kernel
    | (intro _ _ k; exact k.le)
    | (apply Keeps.step; with_reducible apply Dev.serveRaiseCounter_keeps)
    | (apply Keeps.stepSame; with_reducible apply Dev.manage_keeps; intro e _))

theorem execLedgerRead_runs (t i : Nat) (s : State) :
    Runs ⟨false, [F.DEV_STATE_state, F.BE_ENG_STAT_state, F.BE_ENG_STAT_loop, F.BE_ENG_STAT_loops, F.BE_LP_STAT_state, F.BE_POOL_STAT_fenced, F.BE_POOL_STAT_free, F.SC_TM_STAT_last_status, F.SC_TM_CNT_refusals, F.SC_CH_STAT_last_status, F.SC_LV_STAT_last_status, F.SC_DR_STAT_last_status, F.MB_BANK_CTRL_owner, F.MB_BANK_CTRL_draining, F.MB_BANK_STAT_draining, F.HI_QP_CTRL_draining, F.HI_QP_FLAGS_in_flight, F.CN_STAT_slots, F.SEC_STAT_key_slot, F.SEC_STAT_enrolled, F.SEC_STAT_session_qp0, F.SEC_STAT_session_uart, F.SEC_STAT_otp_err, F.SEC_IMG_trial, F.SEC_IMG_pending, F.SEC_IMG_other_valid, F.SEC_IMG_other_version, F.IMS_STAT_flash_err, F.FLT_STAT_lost, F.FLT_LOST], [.sys, .be, .mb, .hi, .cn, .sec, .flt]⟩ t s (execLedgerRead t i s) := by
  unfold execLedgerRead
  refine Runs.of fun d => ?_
  repeat' (first
    | with_reducible exact Keeps.refl _ _
    | decide +kernel
    | (intro _ _ k; exact k.le)
    | (apply Keeps.step; with_reducible apply Dev.serveLedgerRead_keeps)
    | (apply Keeps.stepSame; with_reducible apply Dev.manage_keeps; intro e _))

theorem execLifetimeRead_runs (t i : Nat) (s : State) :
    Runs ⟨false, [F.DEV_STATE_state, F.BE_ENG_STAT_state, F.BE_ENG_STAT_loop, F.BE_ENG_STAT_loops, F.BE_LP_STAT_state, F.BE_POOL_STAT_fenced, F.BE_POOL_STAT_free, F.SC_TM_STAT_last_status, F.SC_TM_CNT_refusals, F.SC_CH_STAT_last_status, F.SC_LV_STAT_last_status, F.SC_DR_STAT_last_status, F.MB_BANK_CTRL_owner, F.MB_BANK_CTRL_draining, F.MB_BANK_STAT_draining, F.HI_QP_CTRL_draining, F.HI_QP_FLAGS_in_flight, F.CN_STAT_slots, F.SEC_STAT_key_slot, F.SEC_STAT_enrolled, F.SEC_STAT_session_qp0, F.SEC_STAT_session_uart, F.SEC_STAT_otp_err, F.SEC_IMG_trial, F.SEC_IMG_pending, F.SEC_IMG_other_valid, F.SEC_IMG_other_version, F.IMS_STAT_flash_err, F.FLT_STAT_lost, F.FLT_LOST], [.sys, .be, .mb, .hi, .cn, .sec, .flt]⟩ t s (execLifetimeRead t i s) := by
  unfold execLifetimeRead
  refine Runs.of fun d => ?_
  repeat' (first
    | with_reducible exact Keeps.refl _ _
    | decide +kernel
    | (intro _ _ k; exact k.le)
    | (apply Keeps.step; with_reducible apply Dev.serveLifetimeRead_keeps)
    | (apply Keeps.stepSame; with_reducible apply Dev.manage_keeps; intro e _))

theorem execSessionExpiry_runs (t : Nat) (uart : Bool) (s : State) :
    Runs ⟨false, [F.SEC_STAT_key_slot, F.SEC_STAT_enrolled, F.SEC_STAT_session_qp0, F.SEC_STAT_session_uart], [.sec]⟩ t s (execSessionExpiry t uart s) := by
  unfold execSessionExpiry
  refine Runs.of fun d => ?_
  repeat' (first
    | with_reducible exact Keeps.refl _ _
    | decide +kernel
    | (apply Keeps.step; with_reducible apply Dev.setSession_keeps)
    | (with_reducible apply Keeps.ite <;> intro _)
    | split)

theorem execUartFrame_runs (t : Nat) (f : UartInput) (crc : Word) (blown : Nat) (err : Bool) (s : State) :
    Runs ⟨false, [F.DEV_STATE_state, F.BE_ENG_STAT_state, F.BE_ENG_STAT_loop, F.BE_ENG_STAT_loops, F.BE_LP_STAT_state, F.BE_POOL_STAT_fenced, F.BE_POOL_STAT_free, F.MB_BANK_CTRL_owner, F.MB_BANK_CTRL_draining, F.MB_BANK_STAT_draining, F.SEC_STAT_key_slot, F.SEC_STAT_enrolled, F.SEC_STAT_session_qp0, F.SEC_STAT_session_uart, F.SEC_STAT_otp_err, F.SEC_IMG_trial, F.SEC_IMG_pending, F.SEC_IMG_other_valid, F.SEC_IMG_other_version, F.IMS_STAT_flash_err, F.IMS_UART_bad_frames, F.FLT_STAT_lost, F.FLT_LOST], [.sys, .be, .mb, .sec, .flt]⟩ t s (execUartFrame t f crc blown err s) := by
  unfold execUartFrame
  refine Runs.of fun d => ?_
  repeat' (first
    | with_reducible exact Keeps.refl _ _
    | decide +kernel
    | with_reducible assumption
    | lift_lets
    | (intro x; first | (refine Keeps.cut (d0 := d) (d1 := x) ?_ ?_; (on_goal 1 => subst x); (on_goal 2 => (intro _; clear_value x))) | subst x)
    | (apply Keeps.step; with_reducible apply Dev.bump_keeps)
    | (apply Keeps.step; with_reducible apply Dev.serveUart_keeps)
    | (with_reducible apply Keeps.ite <;> intro _)
    | split)

end Sys2Proof.Machine
end

