-- ==== Sys2Proof/Laws/KeepsImset.lean ====
section
/-! SUPPORT. What the effects of Imset.lean keep. -/

namespace Sys2Proof.Machine

set_option Elab.async false

theorem Dev.imsetReport_keeps (d : Dev) (n detail : Nat) : Keeps ⟨false, [F.FLT_STAT_lost, F.FLT_LOST], [.flt]⟩ d (Dev.imsetReport d n detail) := by
  unfold Dev.imsetReport
  repeat' (first
    | with_reducible exact Keeps.refl _ _
    | decide +kernel
    | (apply Keeps.step; with_reducible apply Dev.report_keeps))

theorem Dev.bootImage_keeps (d : Dev) (kind : Nat) : Keeps ⟨false, [F.SEC_IMG_active, F.SEC_IMG_trial, F.SEC_IMG_version, F.FLT_STAT_lost, F.FLT_LOST], [.sec, .flt]⟩ d (Dev.bootImage d kind) := by
  unfold Dev.bootImage
  extract_lets v pick failed e
  have k : Keeps ⟨false, [F.SEC_IMG_active, F.SEC_IMG_trial, F.SEC_IMG_version, F.FLT_STAT_lost, F.FLT_LOST], [.sec, .flt]⟩ d e := Keeps.ite (fun _ => (Dev.imsetReport_keeps ..).le) fun _ => Keeps.refl _ d
  refine k.trans ?_
  clear_value e pick
  split
  · exact (Dev.setImage_keeps ..).le
  · exact ((((Dev.setImage_keeps ..).le.trans (Dev.onSec_keeps _ _ rfl rfl).le).trans (Dev.put_keeps _ _ _ _ (by decide +kernel)).le).trans
      (Dev.put_keeps _ _ _ _ (by decide +kernel)).le).trans (Dev.wr_keeps _ _ _ _ (by decide +kernel)).le

/-- Loading an image keeps the canonical form of bank memory. -/
theorem wf_loadBytes (bs : List Byte) (x : Tbl Byte × Nat) (h : Memory.wf x.1) :
    Memory.wf (bs.foldl (fun (x : Tbl Byte × Nat) v => (Tbl.set memReset x.1 x.2 v, x.2 + 1)) x).1 := by
  induction bs generalizing x with
  | nil => exact h
  | cons v r ih => exact ih _ (Tbl.wf_set h x.2 v)

theorem Dev.loadFirmware_keeps (d : Dev) (b : Bool) : Keeps ⟨false, [], [.mb]⟩ d (Dev.loadFirmware d b) :=
  Dev.withMb_keeps d _ fun h => wf_loadBytes _ _ h

theorem Dev.configWord_keeps (d : Dev) (t : Bool) (off : Nat) (w : Word) : Keeps ⟨true, [], [.sys, .tb, .pp, .sh, .cv, .ps, .be, .tm, .ch, .dr, .sc, .mb, .hi, .cn, .sec, .flt, .pw]⟩ d (Dev.configWord d t off w).1 := by
  unfold Dev.configWord
  split
  · split
    · exact (Dev.reject_keeps ..).le
    · exact (Dev.setLt_keeps ..).le
  · split
    · exact (Dev.reject_keeps ..).le
    · rename_i h
      refine (Dev.store_keeps d _ off w fun e hw => ?_).le
      subst e
      rw [if_pos (by decide +kernel)] at h
      exact Dev.writeReason_seal d _ w h hw

theorem Dev.configWords_keeps (d : Dev) (t : Bool) (off : Nat) (l : List Word) : Keeps ⟨true, [], [.sys, .tb, .pp, .sh, .cv, .ps, .be, .tm, .ch, .dr, .sc, .mb, .hi, .cn, .sec, .flt, .pw]⟩ d (Dev.configWords d t off l).1 := by
  induction l generalizing d off with
  | nil => exact Keeps.refl _ d
  | cons w ws ih =>
    unfold Dev.configWords
    dsimp only
    split
    · exact (Dev.configWord_keeps ..).le.trans (ih _ _)
    · exact (Dev.configWord_keeps ..).le

theorem Dev.configBlocks_keeps (d : Dev) (n : Nat) (l : List Word) : Keeps ⟨true, [], [.sys, .tb, .pp, .sh, .cv, .ps, .be, .tm, .ch, .dr, .sc, .mb, .hi, .cn, .sec, .flt, .pw]⟩ d (Dev.configBlocks d n l).1 := by
  induction n generalizing d l with
  | zero => cases l <;> simpa [Dev.configBlocks] using Keeps.refl _ d
  | succ n ih =>
    match l with
    | [] => exact Keeps.refl _ d
    | [_] => exact Keeps.refl _ d
    | h :: c :: r =>
      unfold Dev.configBlocks
      dsimp only
      split
      · exact Keeps.refl _ d
      · split
        · exact (Dev.configWords_keeps ..).le.trans (ih _ _)
        · exact (Dev.configWords_keeps ..).le

theorem Dev.bootToSetup_keeps (d : Dev) : Keeps ⟨false, [F.DEV_STATE_state], []⟩ d (Dev.bootToSetup d) :=
  Keeps.ite (fun h => (Dev.wr_most _ _ _ _ (by decide)).le.keeps (by rw [h]; decide)) fun _ => Keeps.refl _ d

theorem Dev.applyConfig_keeps (d : Dev) (b : Bool) : Keeps ⟨true, [], [.sys, .tb, .pp, .sh, .cv, .ps, .be, .tm, .ch, .dr, .sc, .mb, .hi, .cn, .sec, .flt, .pw]⟩ d (Dev.applyConfig d b) := by
  unfold Dev.applyConfig
  extract_lets ws r e
  have k : Keeps ⟨true, [], [.sys, .tb, .pp, .sh, .cv, .ps, .be, .tm, .ch, .dr, .sc, .mb, .hi, .cn, .sec, .flt, .pw]⟩ d e :=
    (Dev.onSys_keeps d _).le.trans ((Dev.configBlocks_keeps _ _ _).le.trans (Dev.onSys_keeps _ _).le)
  clear_value e
  split
  · exact k.trans (Dev.onSec_keeps _ _ rfl rfl).le
  · exact (k.trans (Dev.imsetReport_keeps ..).le).trans (Dev.bootToSetup_keeps _).le

theorem Dev.restoreLedger_keeps (d : Dev) : Keeps ⟨false, [F.IMS_STAT_ledger_queue, F.FLT_STAT_lost, F.FLT_STAT_unflushed, F.FLT_LOST], [.sec, .flt]⟩ d (Dev.restoreLedger d) :=
  (((Dev.withFlt_keeps d _ (by exact id)).le).trans (Dev.showUnflushed_keeps _).le).trans (Dev.checkChain_keeps _).le

theorem Dev.bootStore_keeps (d : Dev) : Keeps ⟨false, [F.SEC_STAT_key_slot, F.SEC_STAT_enrolled, F.SEC_STAT_session_qp0, F.SEC_STAT_session_uart, F.IMS_STAT_refreshing, F.PWR_CAL_LO, F.PWR_CAL_HI], []⟩ d (Dev.bootStore d) := by
  unfold Dev.bootStore
  repeat' (first
    | with_reducible exact Keeps.refl _ _
    | decide +kernel
    | with_reducible assumption
    | lift_lets
    | (intro x; first | (refine Keeps.cut (d0 := d) (d1 := x) ?_ ?_; (on_goal 1 => subst x); (on_goal 2 => (intro _; clear_value x))) | subst x)
    | (apply Keeps.step; with_reducible apply Dev.put_keeps)
    | (apply Keeps.step; with_reducible apply Dev.wr64_keeps)
    | (apply Keeps.step; with_reducible apply Dev.showSec_keeps))

theorem Dev.bootRest_keeps (d : Dev) : Keeps ⟨true, [], [.sys, .tb, .pp, .sh, .cv, .ps, .be, .tm, .ch, .dr, .sc, .mb, .hi, .cn, .sec, .flt, .pw]⟩ d (Dev.bootRest d) := by
  unfold Dev.bootRest
  repeat' (first
    | with_reducible exact Keeps.refl _ _
    | decide +kernel
    | with_reducible assumption
    | lift_lets
    | (intro x; first | (refine Keeps.cut (d0 := d) (d1 := x) ?_ ?_; (on_goal 1 => subst x); (on_goal 2 => (intro _; clear_value x))) | subst x)
    | (apply Keeps.step; with_reducible apply Dev.wr_keeps)
    | (apply Keeps.step; with_reducible apply Dev.restoreFresh_keeps)
    | (apply Keeps.step; with_reducible apply Dev.bootImage_keeps)
    | (apply Keeps.step; with_reducible apply Dev.loadFirmware_keeps)
    | (apply Keeps.step; with_reducible apply Dev.bootToSetup_keeps)
    | (apply Keeps.step; with_reducible apply Dev.applyConfig_keeps)
    | (apply Keeps.step; with_reducible apply Dev.restoreLedger_keeps)
    | (with_reducible apply Keeps.ite <;> intro _)
    | split
    | beta_reduce)

theorem execSecureBoot_runs (t : Nat) (s : State) :
    Runs ⟨true, [], [.sys, .tb, .pp, .sh, .cv, .ps, .be, .tm, .ch, .dr, .sc, .mb, .hi, .cn, .sec, .flt, .pw]⟩ t s (execSecureBoot t s) := by
  unfold execSecureBoot
  refine Runs.of fun d => ?_
  repeat' (first
    | with_reducible exact Keeps.refl _ _
    | decide +kernel
    | with_reducible assumption
    | lift_lets
    | (intro x; first | (refine Keeps.cut (d0 := d) (d1 := x) ?_ ?_; (on_goal 1 => subst x); (on_goal 2 => (intro _; clear_value x))) | subst x)
    | (apply Keeps.step; with_reducible apply Dev.wr_keeps)
    | (apply Keeps.step; with_reducible apply Dev.readDirectory_keeps)
    | (apply Keeps.step; with_reducible apply Dev.measured_keeps)
    | (apply Keeps.step; with_reducible apply Dev.bootImage_keeps)
    | (apply Keeps.step; with_reducible apply Dev.bootStore_keeps)
    | (apply Keeps.step; with_reducible apply Dev.bootRest_keeps)
    | (with_reducible apply Keeps.ite <;> intro _)
    | split)

theorem execBootSealRequest_runs (t : Nat) (s : State) : Runs ⟨false, [F.DEV_STATE_state, F.DEV_SEAL_CTRL_seal], [.sys, .sec]⟩ t s (execBootSealRequest t s) :=
  Runs.of fun d => Keeps.ite (fun h => (Dev.sealRequest_most d _).le.keeps (by rw [h.2.1]; decide)) fun _ => Keeps.refl _ _

theorem execFreshnessJournal_runs (t : Nat) (x : JournalInput) (s : State) :
    Runs ⟨false, [F.DEV_STATE_state, F.BE_ENG_STAT_state, F.BE_ENG_STAT_loop, F.BE_ENG_STAT_loops, F.BE_LP_STAT_state, F.BE_POOL_STAT_fenced, F.BE_POOL_STAT_free, F.MB_BANK_CTRL_owner, F.MB_BANK_CTRL_draining, F.MB_BANK_STAT_draining, F.SEC_STAT_key_slot, F.SEC_STAT_enrolled, F.SEC_STAT_session_qp0, F.SEC_STAT_session_uart, F.SEC_STAT_otp_err, F.SEC_IMG_trial, F.SEC_IMG_pending, F.SEC_IMG_other_valid, F.SEC_IMG_other_version, F.IMS_STAT_flash_err, F.FLT_STAT_lost, F.FLT_LOST], [.sys, .be, .mb, .sec, .flt]⟩ t s (execFreshnessJournal t x s) := by
  unfold execFreshnessJournal
  refine Runs.of fun d => ?_
  repeat' (first
    | with_reducible exact Keeps.refl _ _
    | decide +kernel
    | with_reducible assumption
    | lift_lets
    | (intro x; first | (refine Keeps.cut (d0 := d) (d1 := x) ?_ ?_; (on_goal 1 => subst x); (on_goal 2 => (intro _; clear_value x))) | subst x)
    | (apply Keeps.step; with_reducible apply Dev.journalTx_keeps)
    | (apply Keeps.step; with_reducible apply Dev.journalRx_keeps)
    | (apply Keeps.step; with_reducible apply Dev.uartTurn_keeps)
    | (with_reducible apply Keeps.ite <;> intro _)
    | split)

theorem execLedgerFlush_runs (t : Nat) (k : Fin 1024) (err : Bool) (s : State) :
    Runs ⟨false, [F.DEV_STATE_state, F.BE_ENG_STAT_state, F.BE_ENG_STAT_loop, F.BE_ENG_STAT_loops, F.BE_LP_STAT_state, F.BE_POOL_STAT_fenced, F.BE_POOL_STAT_free, F.MB_BANK_CTRL_owner, F.MB_BANK_CTRL_draining, F.MB_BANK_STAT_draining, F.SEC_STAT_key_slot, F.SEC_STAT_enrolled, F.SEC_STAT_session_qp0, F.SEC_STAT_session_uart, F.SEC_STAT_otp_err, F.SEC_IMG_trial, F.SEC_IMG_pending, F.SEC_IMG_other_valid, F.SEC_IMG_other_version, F.IMS_STAT_flash_err, F.IMS_STAT_ledger_queue, F.FLT_STAT_lost, F.FLT_STAT_unflushed, F.FLT_LOST], [.sys, .be, .mb, .sec, .flt]⟩ t s (execLedgerFlush t k err s) := by
  unfold execLedgerFlush
  refine Runs.of fun d => ?_
  repeat' (first
    | with_reducible exact Keeps.refl _ _
    | decide +kernel
    | (apply Keeps.step; with_reducible apply Dev.flushSlot_keeps)
    | (apply Keeps.step; with_reducible apply Dev.uartTurn_keeps)
    | (with_reducible apply Keeps.ite <;> intro _)
    | split)

theorem Dev.showLife_keeps (d : Dev) : Keeps ⟨false, [F.FLT_STAT_lost, F.FLT_LOST, F.THM_LIFE_hours, F.THM_LIFE_limit], [.flt]⟩ d (Dev.showLife d) := by
  unfold Dev.showLife
  repeat' (first
    | with_reducible exact Keeps.refl _ _
    | decide +kernel
    | with_reducible assumption
    | lift_lets
    | (intro x; first | (refine Keeps.cut (d0 := d) (d1 := x) ?_ ?_; (on_goal 1 => subst x); (on_goal 2 => (intro _; clear_value x))) | subst x)
    | (apply Keeps.step; with_reducible apply Dev.wr_keeps)
    | (apply Keeps.step; with_reducible apply Dev.put_keeps)
    | (apply Keeps.step; with_reducible apply Dev.report_keeps)
    | (apply Keeps.step; with_reducible apply Dev.reportOpen_keeps)
    | (with_reducible apply Keeps.ite <;> intro _)
    | split)

theorem execLifeAccumulate_runs (t : Nat) (s : State) :
    Runs ⟨false, [F.FLT_STAT_lost, F.FLT_LOST, F.PWR_CAL_LO, F.PWR_CAL_HI, F.THM_LIFE_hours, F.THM_LIFE_limit], [.sec, .flt]⟩ t s (execLifeAccumulate t s) := by
  unfold execLifeAccumulate
  refine Runs.of fun d => ?_
  repeat' (first
    | with_reducible exact Keeps.refl _ _
    | decide +kernel
    | with_reducible assumption
    | lift_lets
    | (intro x; first | (refine Keeps.cut (d0 := d) (d1 := x) ?_ ?_; (on_goal 1 => subst x); (on_goal 2 => (intro _; clear_value x))) | subst x)
    | (apply Keeps.step; with_reducible apply Dev.wr64_keeps)
    | (apply Keeps.step; (with_reducible apply Dev.onSec_keeps); (exact rfl); (exact rfl))
    | (apply Keeps.step; with_reducible apply Dev.showLife_keeps)
    | (with_reducible apply Keeps.ite <;> intro _)
    | split)

theorem execLifetimeRecord_runs (t : Nat) (err : Bool) (s : State) :
    Runs ⟨false, [F.DEV_STATE_state, F.BE_ENG_STAT_state, F.BE_ENG_STAT_loop, F.BE_ENG_STAT_loops, F.BE_LP_STAT_state, F.BE_POOL_STAT_fenced, F.BE_POOL_STAT_free, F.MB_BANK_CTRL_owner, F.MB_BANK_CTRL_draining, F.MB_BANK_STAT_draining, F.SEC_STAT_key_slot, F.SEC_STAT_enrolled, F.SEC_STAT_session_qp0, F.SEC_STAT_session_uart, F.SEC_STAT_otp_err, F.SEC_IMG_trial, F.SEC_IMG_pending, F.SEC_IMG_other_valid, F.SEC_IMG_other_version, F.IMS_STAT_flash_err, F.IMS_HOURS_hours, F.FLT_STAT_lost, F.FLT_LOST], [.sys, .be, .mb, .sec, .flt]⟩ t s (execLifetimeRecord t err s) := by
  unfold execLifetimeRecord
  refine Runs.of fun d => ?_
  repeat' (first
    | with_reducible exact Keeps.refl _ _
    | decide +kernel
    | with_reducible assumption
    | lift_lets
    | (intro x; first | (refine Keeps.cut (d0 := d) (d1 := x) ?_ ?_; (on_goal 1 => subst x); (on_goal 2 => (intro _; clear_value x))) | subst x)
    | (apply Keeps.step; with_reducible apply Dev.bump_keeps)
    | (apply Keeps.step; (with_reducible apply Dev.onSec_keeps); (exact rfl); (exact rfl))
    | (apply Keeps.step; with_reducible apply Dev.recordCalendar_keeps)
    | (apply Keeps.step; with_reducible apply Dev.flashError_keeps)
    | (apply Keeps.step; with_reducible apply Dev.writeRing_keeps)
    | (apply Keeps.step; with_reducible apply Dev.uartTurn_keeps)
    | (with_reducible apply Keeps.ite <;> intro _)
    | split)

theorem Dev.refreshStep_keeps (d : Dev) (sector : Nat) : Keeps ⟨false, [F.IMS_STAT_refreshing, F.IMS_REFRESH_sectors], [.sec]⟩ d (Dev.refreshStep d sector) := by
  unfold Dev.refreshStep
  repeat' (first
    | with_reducible exact Keeps.refl _ _
    | decide +kernel
    | with_reducible assumption
    | lift_lets
    | (intro x; first | (refine Keeps.cut (d0 := d) (d1 := x) ?_ ?_; (on_goal 1 => subst x); (on_goal 2 => (intro _; clear_value x))) | subst x)
    | (apply Keeps.step; with_reducible apply Dev.put_keeps)
    | (apply Keeps.step; with_reducible apply Dev.bump_keeps)
    | (apply Keeps.step; (with_reducible apply Dev.onSec_keeps); (exact rfl); (exact rfl))
    | (apply Keeps.step; with_reducible apply Dev.recordCalendar_keeps)
    | (apply Keeps.step; with_reducible apply Dev.touchSector_keeps)
    | (apply Keeps.step; with_reducible apply Dev.eraseSector_keeps)
    | (apply Keeps.step; with_reducible apply Dev.copySector_keeps)
    | (with_reducible apply Keeps.ite <;> intro _)
    | split
    | beta_reduce)

theorem Dev.refreshRest_keeps (d : Dev) (sector n : Nat) : Keeps ⟨false, [F.IMS_STAT_refreshing, F.IMS_REFRESH_sectors], [.sec]⟩ d (Dev.refreshRest d sector n) := by
  induction n generalizing d with
  | zero => exact Keeps.refl _ d
  | succ n ih => exact Keeps.ite (fun _ => (Dev.refreshStep_keeps ..).le.trans (ih _)) fun _ => Keeps.refl _ d

theorem execFlashRefresh_runs (t : Nat) (sector : Nat) (x : RefreshInput) (s : State) : Runs ⟨false, [F.DEV_STATE_state, F.BE_ENG_STAT_state, F.BE_ENG_STAT_loop, F.BE_ENG_STAT_loops, F.BE_LP_STAT_state, F.BE_POOL_STAT_fenced, F.BE_POOL_STAT_free, F.MB_BANK_CTRL_owner, F.MB_BANK_CTRL_draining, F.MB_BANK_STAT_draining, F.SEC_STAT_key_slot, F.SEC_STAT_enrolled, F.SEC_STAT_session_qp0, F.SEC_STAT_session_uart, F.SEC_STAT_otp_err, F.SEC_IMG_trial, F.SEC_IMG_pending, F.SEC_IMG_other_valid, F.SEC_IMG_other_version, F.IMS_STAT_flash_err, F.IMS_STAT_refreshing, F.IMS_REFRESH_sectors, F.FLT_STAT_lost, F.FLT_LOST], [.sys, .be, .mb, .sec, .flt]⟩ t s (execFlashRefresh t sector x s) := by
  refine Runs.of fun d => Keeps.ite (fun _ => ?_) fun _ => Keeps.refl _ d
  refine Keeps.trans ?_ (Dev.uartTurn_keeps _).le
  have k : Keeps ⟨false, [F.DEV_STATE_state, F.BE_ENG_STAT_state, F.BE_ENG_STAT_loop, F.BE_ENG_STAT_loops, F.BE_LP_STAT_state, F.BE_POOL_STAT_fenced, F.BE_POOL_STAT_free, F.MB_BANK_CTRL_owner, F.MB_BANK_CTRL_draining, F.MB_BANK_STAT_draining, F.SEC_STAT_key_slot, F.SEC_STAT_enrolled, F.SEC_STAT_session_qp0, F.SEC_STAT_session_uart, F.SEC_STAT_otp_err, F.SEC_IMG_trial, F.SEC_IMG_pending, F.SEC_IMG_other_valid, F.SEC_IMG_other_version, F.IMS_STAT_flash_err, F.IMS_STAT_refreshing, F.IMS_REFRESH_sectors, F.FLT_STAT_lost, F.FLT_LOST], [.sys, .be, .mb, .sec, .flt]⟩ d (((d.flashError x.err).onSec fun k => { k with refreshAt := some d.time }).refreshStep sector) :=
    ((Dev.flashError_keeps ..).le.trans (Dev.onSec_keeps _ _ rfl rfl).le).trans (Dev.refreshStep_keeps ..).le
  exact Keeps.ite (fun _ => k.trans (Dev.refreshRest_keeps ..).le) fun _ => k

end Sys2Proof.Machine
end

