-- ==== Sys2Proof/Laws/KeepsLoopOps.lean ====
section
/-! SUPPORT. What the effects of LoopOps.lean keep. -/

namespace Sys2Proof.Machine

set_option Elab.async false

theorem Dev.sendGate_keeps (d : Dev) (g : GateTok) : Keeps ⟨false, [], [.tb]⟩ d (Dev.sendGate d g) := Dev.withTb_keeps ..

/-- An operation's effect on the device. -/
theorem Dev.runOp_keeps {W : Foot} (d : Dev) (e code : Nat) (f : OpSt → Nat → OpSt) (h : ∀ x w, Keeps W x.1 (f x w).1)
    (hw : ∀ d0 d, Keeps ⟨false, [F.BE_ENG_STAT_state, F.BE_ENG_STAT_loop, F.BE_ENG_STAT_loops, F.BE_ENG_STAT_fenced_writes, F.BE_ENG_RUNS, F.BE_LP_SWAP_active, F.BE_LP_SWAP_pending, F.BE_LP_SWAP_status, F.BE_LP_STAT_state, F.BE_LP_STAT_consec, F.BE_LP_STAT_update, F.BE_LP_FLAGS_sat, F.BE_LP_FLAGS_swap_clamp, F.BE_LP_SLACK_last, F.BE_LP_SLACK_win_min, F.BE_LP_SLACK_MIN_min, F.BE_LP_SLACK_MIN_restart, F.BE_LP_DUR_last, F.BE_LP_DUR_max, F.BE_LP_DONE_LO, F.BE_LP_DONE_HI, F.BE_POOL_STAT_fenced, F.BE_POOL_STAT_free, F.FLT_STAT_lost, F.FLT_LOST], [.be, .ch, .flt]⟩ d0 d → Keeps W d0 d) : Keeps W d (Dev.runOp d e code f) := by
  unfold Dev.runOp
  split
  · exact Keeps.refl _ d
  · dsimp only
    refine Keeps.ite (fun _ => ?_) fun _ => Keeps.refl _ d
    refine Keeps.trans ?_ (hw _ _ (Dev.retire_keeps ..))
    split
    · exact Keeps.refl _ d
    · exact h (d, _) _

theorem Keeps.iteO {W : Foot} {d0 : Dev} {c : Prop} [Decidable c] {a b : OpSt} (h : c → Keeps W d0 a.1) (k : ¬c → Keeps W d0 b.1) :
    Keeps W d0 (if c then a else b).1 := by
  by_cases x : c
  · rw [if_pos x]; exact h x
  · rw [if_neg x]; exact k x

theorem OpSt.sat_keeps (x : OpSt) (b : Bool) : Keeps ⟨false, [F.BE_LP_FLAGS_sat], []⟩ x.1 (x.sat b).1 :=
  Keeps.iteO (fun _ => (Dev.put_keeps _ _ _ _ (by decide +kernel)).le) fun _ => Keeps.refl _ _

theorem OpSt.write_keeps (x : OpSt) (k : Nat) (v : Int) : Keeps ⟨false, [F.BE_LP_FLAGS_sat], []⟩ x.1 (x.write k v).1 := by
  unfold OpSt.write
  exact (OpSt.sat_keeps (x.1, x.2.put k (qWord v)) _).le

theorem OpSt.raw_keeps (x : OpSt) (k : Nat) (v : Word) : Keeps ⟨false, [], []⟩ x.1 (x.raw k v).1 := Keeps.refl _ _

theorem OpSt.loadRecord_keeps (x : OpSt) (dst k : Nat) (f : Int) : Keeps ⟨false, [F.BE_LP_FLAGS_sat], []⟩ x.1 (x.loadRecord dst k f).1 := by
  unfold OpSt.loadRecord
  dsimp only
  repeat' (first
    | with_reducible exact Keeps.refl _ _
    | with_reducible exact (OpSt.write_keeps ..).le
    | with_reducible exact (OpSt.raw_keeps ..).le
    | with_reducible apply Keeps.iteO <;> intro _)

theorem OpSt.foldl_keeps {W : Foot} {α : Type} {f : OpSt → α → OpSt} (h : ∀ x a, Keeps W x.1 (f x a).1) (l : List α) (x : OpSt) :
    Keeps W x.1 (l.foldl f x).1 := Dev.foldlPair_keeps h l x

theorem OpSt.load_keeps (u : Upset) (wait : Nat) (e : Fin 12) (x : OpSt) (w : Nat) : Keeps ⟨false, [F.BE_LP_FLAGS_sat, F.MB_BANK_STAT_ue, F.MB_BANK_STAT_ce_cnt, F.MB_BANK_STAT_ue_cnt, F.MB_UE_ADDR, F.MB_CONF_waits, F.MB_CONF_max_wait, F.FLT_STAT_lost, F.FLT_LOST], [.mb, .flt]⟩ x.1 (OpSt.load u wait e x w).1 := by
  unfold OpSt.load
  try dsimp only
  repeat' (first
    | with_reducible exact Keeps.refl _ _
    | decide +kernel
    | (apply Keeps.step; with_reducible apply OpSt.write_keeps)
    | (apply Keeps.step; with_reducible apply OpSt.raw_keeps)
    | (apply Keeps.step; with_reducible apply OpSt.sat_keeps)
    | (apply Keeps.step; with_reducible apply OpSt.loadRecord_keeps)
    | (apply Keeps.step; with_reducible apply Dev.bankRead_keeps)
    | (apply Keeps.step; with_reducible apply Dev.bankWait_keeps)
    | (with_reducible apply Keeps.iteO <;> intro _)
    | (with_reducible apply Keeps.ite <;> intro _)
    | split
    | (dsimp only))

theorem OpSt.store_keeps (wait : Nat) (e : Fin 12) (x : OpSt) (w : Nat) : Keeps ⟨false, [F.BE_ENG_STAT_fenced_writes, F.MB_BANK_STAT_ue, F.MB_BANK_STAT_nonowner_wr, F.MB_BANK_STAT_ce_cnt, F.MB_BANK_STAT_ue_cnt, F.MB_BANK_STAT_nonowner_cnt, F.MB_UE_ADDR, F.MB_CONF_waits, F.MB_CONF_max_wait, F.FLT_STAT_lost, F.FLT_LOST], [.tb, .mb, .flt]⟩ x.1 (OpSt.store wait e x w).1 := by
  unfold OpSt.store
  try dsimp only
  repeat' (first
    | with_reducible exact Keeps.refl _ _
    | decide +kernel
    | (apply Keeps.step; with_reducible apply OpSt.write_keeps)
    | (apply Keeps.step; with_reducible apply OpSt.raw_keeps)
    | (apply Keeps.step; with_reducible apply OpSt.sat_keeps)
    | (apply Keeps.step; with_reducible apply Dev.sendGate_keeps)
    | (apply Keeps.step; with_reducible apply Dev.bankWait_keeps)
    | (apply Keeps.step; with_reducible apply Dev.fencedWrite_keeps)
    | (apply Keeps.step; with_reducible apply Dev.bankWrite_keeps)
    | (with_reducible apply Keeps.iteO <;> intro _)
    | (with_reducible apply Keeps.ite <;> intro _)
    | split
    | (dsimp only))

theorem OpSt.emit_keeps (e : Nat) (x : OpSt) (w : Nat) : Keeps ⟨false, [F.BE_ENG_STAT_fenced_writes, F.FLT_STAT_lost, F.FLT_LOST], [.be, .flt]⟩ x.1 (OpSt.emit e x w).1 := by
  unfold OpSt.emit
  try dsimp only
  repeat' (first
    | with_reducible exact Keeps.refl _ _
    | decide +kernel
    | (apply Keeps.step; with_reducible apply OpSt.write_keeps)
    | (apply Keeps.step; with_reducible apply OpSt.raw_keeps)
    | (apply Keeps.step; with_reducible apply OpSt.sat_keeps)
    | (apply Keeps.step; with_reducible apply Dev.fencedWrite_keeps)
    | (apply Keeps.step; with_reducible apply Dev.withBe_keeps)
    | (with_reducible apply Keeps.iteO <;> intro _)
    | (with_reducible apply Keeps.ite <;> intro _)
    | split
    | (dsimp only))

theorem OpSt.section_keeps (x : OpSt) (v : Int) (blk st : Nat) : Keeps ⟨false, [F.BE_LP_FLAGS_sat], []⟩ x.1 (x.section v blk st).1.1 := by
  unfold OpSt.section
  dsimp only
  generalize clamps _ _ _ = b
  generalize Run.put _ _ _ = r
  exact (OpSt.sat_keeps (x.1, r) b).le

theorem OpSt.modifiers_keeps (x : OpSt) (w : Nat) (g a z : Int) : Keeps ⟨false, [F.BE_LP_FLAGS_sat], []⟩ x.1 (x.modifiers w g a z).1 := OpSt.write_keeps ..

theorem OpSt.sections_keeps (x : OpSt) (w : Nat) : Keeps ⟨false, [F.BE_LP_FLAGS_sat], []⟩ x.1 (x.sections w).1 := by
  have h (l : List (Nat × Nat)) (y : OpSt × Int × Int) : Keeps ⟨false, [F.BE_LP_FLAGS_sat], []⟩ y.1.1 (l.foldl (fun y sec =>
      ((y.1.section y.2.1 sec.1 sec.2).1, roundDiv (y.1.section y.2.1 sec.1 sec.2).2 one31, (y.1.section y.2.1 sec.1 sec.2).2)) y).1.1 := by
    induction l generalizing y with
    | nil => exact Keeps.refl _ _
    | cons s r ih => exact Keeps.trans (OpSt.section_keeps ..).le (ih (_, _, _))
  unfold OpSt.sections
  exact (h _ (x, _, _)).trans (OpSt.modifiers_keeps ..).le

theorem OpSt.clarke_keeps (x : OpSt) (w : Nat) : Keeps ⟨false, [F.BE_LP_FLAGS_sat], []⟩ x.1 (OpSt.clarke x w).1 := by
  unfold OpSt.clarke
  try dsimp only
  repeat' (first
    | with_reducible exact Keeps.refl _ _
    | decide +kernel
    | (apply Keeps.step; with_reducible apply OpSt.write_keeps)
    | (apply Keeps.step; with_reducible apply OpSt.raw_keeps)
    | (apply Keeps.step; with_reducible apply OpSt.sat_keeps)
    | (with_reducible apply Keeps.iteO <;> intro _)
    | (with_reducible apply Keeps.ite <;> intro _)
    | split
    | (dsimp only))

theorem OpSt.park_keeps (x : OpSt) (w : Nat) : Keeps ⟨false, [F.BE_LP_FLAGS_sat], []⟩ x.1 (OpSt.park x w).1 := by
  unfold OpSt.park
  try dsimp only
  repeat' (first
    | with_reducible exact Keeps.refl _ _
    | decide +kernel
    | (apply Keeps.step; with_reducible apply OpSt.write_keeps)
    | (apply Keeps.step; with_reducible apply OpSt.raw_keeps)
    | (apply Keeps.step; with_reducible apply OpSt.sat_keeps)
    | (with_reducible apply Keeps.iteO <;> intro _)
    | (with_reducible apply Keeps.ite <;> intro _)
    | split
    | (dsimp only))

theorem OpSt.ipark_keeps (x : OpSt) (w : Nat) : Keeps ⟨false, [F.BE_LP_FLAGS_sat], []⟩ x.1 (OpSt.ipark x w).1 := by
  unfold OpSt.ipark
  try dsimp only
  repeat' (first
    | with_reducible exact Keeps.refl _ _
    | decide +kernel
    | (apply Keeps.step; with_reducible apply OpSt.write_keeps)
    | (apply Keeps.step; with_reducible apply OpSt.raw_keeps)
    | (apply Keeps.step; with_reducible apply OpSt.sat_keeps)
    | (with_reducible apply Keeps.iteO <;> intro _)
    | (with_reducible apply Keeps.ite <;> intro _)
    | split
    | (dsimp only))

theorem OpSt.svm_keeps (x : OpSt) (w : Nat) : Keeps ⟨false, [F.BE_LP_FLAGS_sat], []⟩ x.1 (x.svm w).1 := by
  unfold OpSt.svm
  extract_lets r dc bad sine
  split
  rename_i cmp ovr _
  extract_lets y of31 c paid
  have k : Keeps ⟨false, [F.BE_LP_FLAGS_sat], []⟩ x.1 y.1 := OpSt.sat_keeps ..
  refine k.trans ?_
  clear_value y
  refine Keeps.iteO (fun _ => ?_) fun _ => ?_
  · exact OpSt.foldl_keeps (W := ⟨false, [F.BE_LP_FLAGS_sat], []⟩) (fun z _ => (OpSt.write_keeps z _ _).le.trans (OpSt.write_keeps ..).le) _ _
  · exact ((OpSt.write_keeps ..).le.trans (OpSt.write_keeps ..).le).trans (OpSt.write_keeps ..).le

theorem OpSt.dial_keeps (x : OpSt) (w : Nat) : Keeps ⟨false, [F.BE_LP_FLAGS_sat], []⟩ x.1 (OpSt.dial x w).1 := by
  unfold OpSt.dial
  try dsimp only
  repeat' (first
    | with_reducible exact Keeps.refl _ _
    | decide +kernel
    | (apply Keeps.step; with_reducible apply OpSt.write_keeps)
    | (apply Keeps.step; with_reducible apply OpSt.raw_keeps)
    | (apply Keeps.step; with_reducible apply OpSt.sat_keeps)
    | (with_reducible apply Keeps.iteO <;> intro _)
    | (with_reducible apply Keeps.ite <;> intro _)
    | split
    | (dsimp only))

theorem OpSt.poise_keeps (x : OpSt) (w : Nat) : Keeps ⟨false, [F.BE_LP_FLAGS_sat], []⟩ x.1 (OpSt.poise x w).1 := by
  unfold OpSt.poise
  try dsimp only
  repeat' (first
    | with_reducible exact Keeps.refl _ _
    | decide +kernel
    | (apply Keeps.step; with_reducible apply OpSt.write_keeps)
    | (apply Keeps.step; with_reducible apply OpSt.raw_keeps)
    | (apply Keeps.step; with_reducible apply OpSt.sat_keeps)
    | (with_reducible apply Keeps.iteO <;> intro _)
    | (with_reducible apply Keeps.ite <;> intro _)
    | split
    | (dsimp only))

theorem OpSt.lim_keeps (x : OpSt) (w : Nat) : Keeps ⟨false, [F.BE_LP_FLAGS_sat], []⟩ x.1 (OpSt.lim x w).1 := by
  unfold OpSt.lim
  try dsimp only
  repeat' (first
    | with_reducible exact Keeps.refl _ _
    | decide +kernel
    | (apply Keeps.step; with_reducible apply OpSt.write_keeps)
    | (apply Keeps.step; with_reducible apply OpSt.raw_keeps)
    | (apply Keeps.step; with_reducible apply OpSt.sat_keeps)
    | (with_reducible apply Keeps.iteO <;> intro _)
    | (with_reducible apply Keeps.ite <;> intro _)
    | split
    | (dsimp only))

theorem OpSt.sel_keeps (x : OpSt) (w : Nat) : Keeps ⟨false, [], []⟩ x.1 (OpSt.sel x w).1 := by
  unfold OpSt.sel
  try dsimp only
  repeat' (first
    | with_reducible exact Keeps.refl _ _
    | decide +kernel
    | (apply Keeps.step; with_reducible apply OpSt.write_keeps)
    | (apply Keeps.step; with_reducible apply OpSt.raw_keeps)
    | (apply Keeps.step; with_reducible apply OpSt.sat_keeps)
    | (with_reducible apply Keeps.iteO <;> intro _)
    | (with_reducible apply Keeps.ite <;> intro _)
    | split
    | (dsimp only))

theorem OpSt.cmp_keeps (x : OpSt) (w : Nat) : Keeps ⟨false, [], []⟩ x.1 (OpSt.cmp x w).1 := by
  unfold OpSt.cmp
  try dsimp only
  repeat' (first
    | with_reducible exact Keeps.refl _ _
    | decide +kernel
    | (apply Keeps.step; with_reducible apply OpSt.write_keeps)
    | (apply Keeps.step; with_reducible apply OpSt.raw_keeps)
    | (apply Keeps.step; with_reducible apply OpSt.sat_keeps)
    | (with_reducible apply Keeps.iteO <;> intro _)
    | (with_reducible apply Keeps.ite <;> intro _)
    | split
    | (dsimp only))

theorem OpSt.recon_keeps (x : OpSt) (w : Nat) : Keeps ⟨false, [F.BE_LP_FLAGS_sat, F.BE_LP_FLAGS_window_short], [.fresh]⟩ x.1 (OpSt.recon x w).1 := by
  unfold OpSt.recon
  try dsimp only
  repeat' (first
    | with_reducible exact Keeps.refl _ _
    | decide +kernel
    | (apply Keeps.step; with_reducible apply OpSt.write_keeps)
    | (apply Keeps.step; with_reducible apply OpSt.raw_keeps)
    | (apply Keeps.step; with_reducible apply OpSt.sat_keeps)
    | (apply Keeps.step; with_reducible apply Dev.put_keeps)
    | (apply Keeps.step; with_reducible apply Dev.tick_keeps)
    | (with_reducible apply Keeps.iteO <;> intro _)
    | (with_reducible apply Keeps.ite <;> intro _)
    | split
    | (dsimp only))

theorem OpSt.fusee_keeps (x : OpSt) (w : Nat) : Keeps ⟨false, [F.BE_LP_FLAGS_sat], []⟩ x.1 (OpSt.fusee x w).1 := by
  unfold OpSt.fusee
  try dsimp only
  repeat' (first
    | with_reducible exact Keeps.refl _ _
    | decide +kernel
    | (apply Keeps.step; with_reducible apply OpSt.write_keeps)
    | (apply Keeps.step; with_reducible apply OpSt.raw_keeps)
    | (apply Keeps.step; with_reducible apply OpSt.sat_keeps)
    | (with_reducible apply Keeps.iteO <;> intro _)
    | (with_reducible apply Keeps.ite <;> intro _)
    | split
    | (dsimp only))

theorem OpSt.letdn_keeps (x : OpSt) (w : Nat) : Keeps ⟨false, [F.BE_LP_FLAGS_sat], []⟩ x.1 (OpSt.letdn x w).1 := by
  unfold OpSt.letdn
  try dsimp only
  repeat' (first
    | with_reducible exact Keeps.refl _ _
    | decide +kernel
    | (apply Keeps.step; with_reducible apply OpSt.write_keeps)
    | (apply Keeps.step; with_reducible apply OpSt.raw_keeps)
    | (apply Keeps.step; with_reducible apply OpSt.sat_keeps)
    | (with_reducible apply Keeps.iteO <;> intro _)
    | (with_reducible apply Keeps.ite <;> intro _)
    | split
    | (dsimp only))

theorem OpSt.plaus_keeps (x : OpSt) (w : Nat) : Keeps ⟨false, [F.BE_LP_FLAGS_sat, F.BE_LP_FLAGS_plaus, F.FLT_STAT_lost, F.FLT_LOST], [.flt]⟩ x.1 (OpSt.plaus x w).1 := by
  unfold OpSt.plaus
  try dsimp only
  repeat' (first
    | with_reducible exact Keeps.refl _ _
    | decide +kernel
    | (apply Keeps.step; with_reducible apply OpSt.write_keeps)
    | (apply Keeps.step; with_reducible apply OpSt.raw_keeps)
    | (apply Keeps.step; with_reducible apply OpSt.sat_keeps)
    | (apply Keeps.step; with_reducible apply Dev.put_keeps)
    | (apply Keeps.step; with_reducible apply Dev.report_keeps)
    | (with_reducible apply Keeps.iteO <;> intro _)
    | (with_reducible apply Keeps.ite <;> intro _)
    | split
    | (dsimp only))

theorem OpSt.slack_keeps (x : OpSt) (w : Nat) : Keeps ⟨false, [F.BE_LP_FLAGS_sat], []⟩ x.1 (OpSt.slack x w).1 := by
  unfold OpSt.slack
  try dsimp only
  repeat' (first
    | with_reducible exact Keeps.refl _ _
    | decide +kernel
    | (apply Keeps.step; with_reducible apply OpSt.write_keeps)
    | (apply Keeps.step; with_reducible apply OpSt.raw_keeps)
    | (apply Keeps.step; with_reducible apply OpSt.sat_keeps)
    | (with_reducible apply Keeps.iteO <;> intro _)
    | (with_reducible apply Keeps.ite <;> intro _)
    | split
    | (dsimp only))

 



theorem execLoad_runs (t : Nat) (e : Fin 12) (u : BankTurn) (wait : Nat) (s : State) : Runs ⟨false, [F.BE_ENG_STAT_state, F.BE_ENG_STAT_loop, F.BE_ENG_STAT_loops, F.BE_ENG_STAT_fenced_writes, F.BE_ENG_RUNS, F.BE_LP_SWAP_active, F.BE_LP_SWAP_pending, F.BE_LP_SWAP_status, F.BE_LP_STAT_state, F.BE_LP_STAT_consec, F.BE_LP_STAT_update, F.BE_LP_FLAGS_sat, F.BE_LP_FLAGS_swap_clamp, F.BE_LP_SLACK_last, F.BE_LP_SLACK_win_min, F.BE_LP_SLACK_MIN_min, F.BE_LP_SLACK_MIN_restart, F.BE_LP_DUR_last, F.BE_LP_DUR_max, F.BE_LP_DONE_LO, F.BE_LP_DONE_HI, F.BE_POOL_STAT_fenced, F.BE_POOL_STAT_free, F.MB_BANK_STAT_ue, F.MB_BANK_STAT_ce_cnt, F.MB_BANK_STAT_ue_cnt, F.MB_UE_ADDR, F.MB_CONF_waits, F.MB_CONF_max_wait, F.FLT_STAT_lost, F.FLT_LOST], [.be, .ch, .mb, .flt]⟩ t s (execLoad t e u wait s) :=
  Runs.of fun d => Keeps.ite (fun _ => Dev.runOp_keeps _ _ _ _ (fun x y => (OpSt.load_keeps u.upset wait e x y).le) fun _ _ k => k.le) fun _ => Keeps.refl _ d

theorem execStore_runs (t : Nat) (e : Fin 12) (w : BankWait) (s : State) : Runs ⟨false, [F.BE_ENG_STAT_state, F.BE_ENG_STAT_loop, F.BE_ENG_STAT_loops, F.BE_ENG_STAT_fenced_writes, F.BE_ENG_RUNS, F.BE_LP_SWAP_active, F.BE_LP_SWAP_pending, F.BE_LP_SWAP_status, F.BE_LP_STAT_state, F.BE_LP_STAT_consec, F.BE_LP_STAT_update, F.BE_LP_FLAGS_sat, F.BE_LP_FLAGS_swap_clamp, F.BE_LP_SLACK_last, F.BE_LP_SLACK_win_min, F.BE_LP_SLACK_MIN_min, F.BE_LP_SLACK_MIN_restart, F.BE_LP_DUR_last, F.BE_LP_DUR_max, F.BE_LP_DONE_LO, F.BE_LP_DONE_HI, F.BE_POOL_STAT_fenced, F.BE_POOL_STAT_free, F.MB_BANK_STAT_ue, F.MB_BANK_STAT_nonowner_wr, F.MB_BANK_STAT_ce_cnt, F.MB_BANK_STAT_ue_cnt, F.MB_BANK_STAT_nonowner_cnt, F.MB_UE_ADDR, F.MB_CONF_waits, F.MB_CONF_max_wait, F.FLT_STAT_lost, F.FLT_LOST], [.tb, .be, .ch, .mb, .flt]⟩ t s (execStore t e w s) :=
  Runs.of fun d => Keeps.ite (fun _ => Dev.runOp_keeps _ _ _ _ (fun x y => (OpSt.store_keeps w.wait e x y).le) fun _ _ k => k.le) fun _ => Keeps.refl _ d

theorem execEmit_runs (t : Nat) (e : Fin 12) (s : State) : Runs ⟨false, [F.BE_ENG_STAT_state, F.BE_ENG_STAT_loop, F.BE_ENG_STAT_loops, F.BE_ENG_STAT_fenced_writes, F.BE_ENG_RUNS, F.BE_LP_SWAP_active, F.BE_LP_SWAP_pending, F.BE_LP_SWAP_status, F.BE_LP_STAT_state, F.BE_LP_STAT_consec, F.BE_LP_STAT_update, F.BE_LP_FLAGS_sat, F.BE_LP_FLAGS_swap_clamp, F.BE_LP_SLACK_last, F.BE_LP_SLACK_win_min, F.BE_LP_SLACK_MIN_min, F.BE_LP_SLACK_MIN_restart, F.BE_LP_DUR_last, F.BE_LP_DUR_max, F.BE_LP_DONE_LO, F.BE_LP_DONE_HI, F.BE_POOL_STAT_fenced, F.BE_POOL_STAT_free, F.FLT_STAT_lost, F.FLT_LOST], [.be, .ch, .flt]⟩ t s (execEmit t e s) :=
  Runs.of fun d => Dev.runOp_keeps _ _ _ _ (fun x w => (OpSt.emit_keeps e x w).le) fun _ _ k => k.le

theorem execSect_runs (t : Nat) (e : Fin 12) (s : State) : Runs ⟨false, [F.BE_ENG_STAT_state, F.BE_ENG_STAT_loop, F.BE_ENG_STAT_loops, F.BE_ENG_STAT_fenced_writes, F.BE_ENG_RUNS, F.BE_LP_SWAP_active, F.BE_LP_SWAP_pending, F.BE_LP_SWAP_status, F.BE_LP_STAT_state, F.BE_LP_STAT_consec, F.BE_LP_STAT_update, F.BE_LP_FLAGS_sat, F.BE_LP_FLAGS_swap_clamp, F.BE_LP_SLACK_last, F.BE_LP_SLACK_win_min, F.BE_LP_SLACK_MIN_min, F.BE_LP_SLACK_MIN_restart, F.BE_LP_DUR_last, F.BE_LP_DUR_max, F.BE_LP_DONE_LO, F.BE_LP_DONE_HI, F.BE_POOL_STAT_fenced, F.BE_POOL_STAT_free, F.FLT_STAT_lost, F.FLT_LOST], [.be, .ch, .flt]⟩ t s (execSect t e s) :=
  Runs.of fun d => Dev.runOp_keeps _ _ _ _ (fun x w => (OpSt.sections_keeps x w).le) fun _ _ k => k.le

theorem execCasc_runs (t : Nat) (e : Fin 12) (s : State) : Runs ⟨false, [F.BE_ENG_STAT_state, F.BE_ENG_STAT_loop, F.BE_ENG_STAT_loops, F.BE_ENG_STAT_fenced_writes, F.BE_ENG_RUNS, F.BE_LP_SWAP_active, F.BE_LP_SWAP_pending, F.BE_LP_SWAP_status, F.BE_LP_STAT_state, F.BE_LP_STAT_consec, F.BE_LP_STAT_update, F.BE_LP_FLAGS_sat, F.BE_LP_FLAGS_swap_clamp, F.BE_LP_SLACK_last, F.BE_LP_SLACK_win_min, F.BE_LP_SLACK_MIN_min, F.BE_LP_SLACK_MIN_restart, F.BE_LP_DUR_last, F.BE_LP_DUR_max, F.BE_LP_DONE_LO, F.BE_LP_DONE_HI, F.BE_POOL_STAT_fenced, F.BE_POOL_STAT_free, F.FLT_STAT_lost, F.FLT_LOST], [.be, .ch, .flt]⟩ t s (execCasc t e s) :=
  Runs.of fun d => Dev.runOp_keeps _ _ _ _ (fun x w => (OpSt.sections_keeps x w).le) fun _ _ k => k.le

theorem execClarke_runs (t : Nat) (e : Fin 12) (s : State) : Runs ⟨false, [F.BE_ENG_STAT_state, F.BE_ENG_STAT_loop, F.BE_ENG_STAT_loops, F.BE_ENG_STAT_fenced_writes, F.BE_ENG_RUNS, F.BE_LP_SWAP_active, F.BE_LP_SWAP_pending, F.BE_LP_SWAP_status, F.BE_LP_STAT_state, F.BE_LP_STAT_consec, F.BE_LP_STAT_update, F.BE_LP_FLAGS_sat, F.BE_LP_FLAGS_swap_clamp, F.BE_LP_SLACK_last, F.BE_LP_SLACK_win_min, F.BE_LP_SLACK_MIN_min, F.BE_LP_SLACK_MIN_restart, F.BE_LP_DUR_last, F.BE_LP_DUR_max, F.BE_LP_DONE_LO, F.BE_LP_DONE_HI, F.BE_POOL_STAT_fenced, F.BE_POOL_STAT_free, F.FLT_STAT_lost, F.FLT_LOST], [.be, .ch, .flt]⟩ t s (execClarke t e s) :=
  Runs.of fun d => Dev.runOp_keeps _ _ _ _ (fun x w => (OpSt.clarke_keeps x w).le) fun _ _ k => k.le

theorem execPark_runs (t : Nat) (e : Fin 12) (s : State) : Runs ⟨false, [F.BE_ENG_STAT_state, F.BE_ENG_STAT_loop, F.BE_ENG_STAT_loops, F.BE_ENG_STAT_fenced_writes, F.BE_ENG_RUNS, F.BE_LP_SWAP_active, F.BE_LP_SWAP_pending, F.BE_LP_SWAP_status, F.BE_LP_STAT_state, F.BE_LP_STAT_consec, F.BE_LP_STAT_update, F.BE_LP_FLAGS_sat, F.BE_LP_FLAGS_swap_clamp, F.BE_LP_SLACK_last, F.BE_LP_SLACK_win_min, F.BE_LP_SLACK_MIN_min, F.BE_LP_SLACK_MIN_restart, F.BE_LP_DUR_last, F.BE_LP_DUR_max, F.BE_LP_DONE_LO, F.BE_LP_DONE_HI, F.BE_POOL_STAT_fenced, F.BE_POOL_STAT_free, F.FLT_STAT_lost, F.FLT_LOST], [.be, .ch, .flt]⟩ t s (execPark t e s) :=
  Runs.of fun d => Dev.runOp_keeps _ _ _ _ (fun x w => (OpSt.park_keeps x w).le) fun _ _ k => k.le

theorem execIpark_runs (t : Nat) (e : Fin 12) (s : State) : Runs ⟨false, [F.BE_ENG_STAT_state, F.BE_ENG_STAT_loop, F.BE_ENG_STAT_loops, F.BE_ENG_STAT_fenced_writes, F.BE_ENG_RUNS, F.BE_LP_SWAP_active, F.BE_LP_SWAP_pending, F.BE_LP_SWAP_status, F.BE_LP_STAT_state, F.BE_LP_STAT_consec, F.BE_LP_STAT_update, F.BE_LP_FLAGS_sat, F.BE_LP_FLAGS_swap_clamp, F.BE_LP_SLACK_last, F.BE_LP_SLACK_win_min, F.BE_LP_SLACK_MIN_min, F.BE_LP_SLACK_MIN_restart, F.BE_LP_DUR_last, F.BE_LP_DUR_max, F.BE_LP_DONE_LO, F.BE_LP_DONE_HI, F.BE_POOL_STAT_fenced, F.BE_POOL_STAT_free, F.FLT_STAT_lost, F.FLT_LOST], [.be, .ch, .flt]⟩ t s (execIpark t e s) :=
  Runs.of fun d => Dev.runOp_keeps _ _ _ _ (fun x w => (OpSt.ipark_keeps x w).le) fun _ _ k => k.le

theorem execSvm_runs (t : Nat) (e : Fin 12) (s : State) : Runs ⟨false, [F.BE_ENG_STAT_state, F.BE_ENG_STAT_loop, F.BE_ENG_STAT_loops, F.BE_ENG_STAT_fenced_writes, F.BE_ENG_RUNS, F.BE_LP_SWAP_active, F.BE_LP_SWAP_pending, F.BE_LP_SWAP_status, F.BE_LP_STAT_state, F.BE_LP_STAT_consec, F.BE_LP_STAT_update, F.BE_LP_FLAGS_sat, F.BE_LP_FLAGS_swap_clamp, F.BE_LP_SLACK_last, F.BE_LP_SLACK_win_min, F.BE_LP_SLACK_MIN_min, F.BE_LP_SLACK_MIN_restart, F.BE_LP_DUR_last, F.BE_LP_DUR_max, F.BE_LP_DONE_LO, F.BE_LP_DONE_HI, F.BE_POOL_STAT_fenced, F.BE_POOL_STAT_free, F.FLT_STAT_lost, F.FLT_LOST], [.be, .ch, .flt]⟩ t s (execSvm t e s) :=
  Runs.of fun d => Dev.runOp_keeps _ _ _ _ (fun x w => (OpSt.svm_keeps x w).le) fun _ _ k => k.le

theorem execDial_runs (t : Nat) (e : Fin 12) (s : State) : Runs ⟨false, [F.BE_ENG_STAT_state, F.BE_ENG_STAT_loop, F.BE_ENG_STAT_loops, F.BE_ENG_STAT_fenced_writes, F.BE_ENG_RUNS, F.BE_LP_SWAP_active, F.BE_LP_SWAP_pending, F.BE_LP_SWAP_status, F.BE_LP_STAT_state, F.BE_LP_STAT_consec, F.BE_LP_STAT_update, F.BE_LP_FLAGS_sat, F.BE_LP_FLAGS_swap_clamp, F.BE_LP_SLACK_last, F.BE_LP_SLACK_win_min, F.BE_LP_SLACK_MIN_min, F.BE_LP_SLACK_MIN_restart, F.BE_LP_DUR_last, F.BE_LP_DUR_max, F.BE_LP_DONE_LO, F.BE_LP_DONE_HI, F.BE_POOL_STAT_fenced, F.BE_POOL_STAT_free, F.FLT_STAT_lost, F.FLT_LOST], [.be, .ch, .flt]⟩ t s (execDial t e s) :=
  Runs.of fun d => Dev.runOp_keeps _ _ _ _ (fun x w => (OpSt.dial_keeps x w).le) fun _ _ k => k.le

theorem execPoise_runs (t : Nat) (e : Fin 12) (s : State) : Runs ⟨false, [F.BE_ENG_STAT_state, F.BE_ENG_STAT_loop, F.BE_ENG_STAT_loops, F.BE_ENG_STAT_fenced_writes, F.BE_ENG_RUNS, F.BE_LP_SWAP_active, F.BE_LP_SWAP_pending, F.BE_LP_SWAP_status, F.BE_LP_STAT_state, F.BE_LP_STAT_consec, F.BE_LP_STAT_update, F.BE_LP_FLAGS_sat, F.BE_LP_FLAGS_swap_clamp, F.BE_LP_SLACK_last, F.BE_LP_SLACK_win_min, F.BE_LP_SLACK_MIN_min, F.BE_LP_SLACK_MIN_restart, F.BE_LP_DUR_last, F.BE_LP_DUR_max, F.BE_LP_DONE_LO, F.BE_LP_DONE_HI, F.BE_POOL_STAT_fenced, F.BE_POOL_STAT_free, F.FLT_STAT_lost, F.FLT_LOST], [.be, .ch, .flt]⟩ t s (execPoise t e s) :=
  Runs.of fun d => Dev.runOp_keeps _ _ _ _ (fun x w => (OpSt.poise_keeps x w).le) fun _ _ k => k.le

theorem execLim_runs (t : Nat) (e : Fin 12) (s : State) : Runs ⟨false, [F.BE_ENG_STAT_state, F.BE_ENG_STAT_loop, F.BE_ENG_STAT_loops, F.BE_ENG_STAT_fenced_writes, F.BE_ENG_RUNS, F.BE_LP_SWAP_active, F.BE_LP_SWAP_pending, F.BE_LP_SWAP_status, F.BE_LP_STAT_state, F.BE_LP_STAT_consec, F.BE_LP_STAT_update, F.BE_LP_FLAGS_sat, F.BE_LP_FLAGS_swap_clamp, F.BE_LP_SLACK_last, F.BE_LP_SLACK_win_min, F.BE_LP_SLACK_MIN_min, F.BE_LP_SLACK_MIN_restart, F.BE_LP_DUR_last, F.BE_LP_DUR_max, F.BE_LP_DONE_LO, F.BE_LP_DONE_HI, F.BE_POOL_STAT_fenced, F.BE_POOL_STAT_free, F.FLT_STAT_lost, F.FLT_LOST], [.be, .ch, .flt]⟩ t s (execLim t e s) :=
  Runs.of fun d => Dev.runOp_keeps _ _ _ _ (fun x w => (OpSt.lim_keeps x w).le) fun _ _ k => k.le

theorem execSel_runs (t : Nat) (e : Fin 12) (s : State) : Runs ⟨false, [F.BE_ENG_STAT_state, F.BE_ENG_STAT_loop, F.BE_ENG_STAT_loops, F.BE_ENG_STAT_fenced_writes, F.BE_ENG_RUNS, F.BE_LP_SWAP_active, F.BE_LP_SWAP_pending, F.BE_LP_SWAP_status, F.BE_LP_STAT_state, F.BE_LP_STAT_consec, F.BE_LP_STAT_update, F.BE_LP_FLAGS_sat, F.BE_LP_FLAGS_swap_clamp, F.BE_LP_SLACK_last, F.BE_LP_SLACK_win_min, F.BE_LP_SLACK_MIN_min, F.BE_LP_SLACK_MIN_restart, F.BE_LP_DUR_last, F.BE_LP_DUR_max, F.BE_LP_DONE_LO, F.BE_LP_DONE_HI, F.BE_POOL_STAT_fenced, F.BE_POOL_STAT_free, F.FLT_STAT_lost, F.FLT_LOST], [.be, .ch, .flt]⟩ t s (execSel t e s) :=
  Runs.of fun d => Dev.runOp_keeps _ _ _ _ (fun x w => (OpSt.sel_keeps x w).le) fun _ _ k => k.le

theorem execCmp_runs (t : Nat) (e : Fin 12) (s : State) : Runs ⟨false, [F.BE_ENG_STAT_state, F.BE_ENG_STAT_loop, F.BE_ENG_STAT_loops, F.BE_ENG_STAT_fenced_writes, F.BE_ENG_RUNS, F.BE_LP_SWAP_active, F.BE_LP_SWAP_pending, F.BE_LP_SWAP_status, F.BE_LP_STAT_state, F.BE_LP_STAT_consec, F.BE_LP_STAT_update, F.BE_LP_FLAGS_sat, F.BE_LP_FLAGS_swap_clamp, F.BE_LP_SLACK_last, F.BE_LP_SLACK_win_min, F.BE_LP_SLACK_MIN_min, F.BE_LP_SLACK_MIN_restart, F.BE_LP_DUR_last, F.BE_LP_DUR_max, F.BE_LP_DONE_LO, F.BE_LP_DONE_HI, F.BE_POOL_STAT_fenced, F.BE_POOL_STAT_free, F.FLT_STAT_lost, F.FLT_LOST], [.be, .ch, .flt]⟩ t s (execCmp t e s) :=
  Runs.of fun d => Dev.runOp_keeps _ _ _ _ (fun x w => (OpSt.cmp_keeps x w).le) fun _ _ k => k.le

theorem execRecon_runs (t : Nat) (e : Fin 12) (s : State) : Runs ⟨false, [F.BE_ENG_STAT_state, F.BE_ENG_STAT_loop, F.BE_ENG_STAT_loops, F.BE_ENG_STAT_fenced_writes, F.BE_ENG_RUNS, F.BE_LP_SWAP_active, F.BE_LP_SWAP_pending, F.BE_LP_SWAP_status, F.BE_LP_STAT_state, F.BE_LP_STAT_consec, F.BE_LP_STAT_update, F.BE_LP_FLAGS_sat, F.BE_LP_FLAGS_window_short, F.BE_LP_FLAGS_swap_clamp, F.BE_LP_SLACK_last, F.BE_LP_SLACK_win_min, F.BE_LP_SLACK_MIN_min, F.BE_LP_SLACK_MIN_restart, F.BE_LP_DUR_last, F.BE_LP_DUR_max, F.BE_LP_DONE_LO, F.BE_LP_DONE_HI, F.BE_POOL_STAT_fenced, F.BE_POOL_STAT_free, F.FLT_STAT_lost, F.FLT_LOST], [.fresh, .be, .ch, .flt]⟩ t s (execRecon t e s) :=
  Runs.of fun d => Dev.runOp_keeps _ _ _ _ (fun x w => (OpSt.recon_keeps x w).le) fun _ _ k => k.le

theorem execFusee_runs (t : Nat) (e : Fin 12) (s : State) : Runs ⟨false, [F.BE_ENG_STAT_state, F.BE_ENG_STAT_loop, F.BE_ENG_STAT_loops, F.BE_ENG_STAT_fenced_writes, F.BE_ENG_RUNS, F.BE_LP_SWAP_active, F.BE_LP_SWAP_pending, F.BE_LP_SWAP_status, F.BE_LP_STAT_state, F.BE_LP_STAT_consec, F.BE_LP_STAT_update, F.BE_LP_FLAGS_sat, F.BE_LP_FLAGS_swap_clamp, F.BE_LP_SLACK_last, F.BE_LP_SLACK_win_min, F.BE_LP_SLACK_MIN_min, F.BE_LP_SLACK_MIN_restart, F.BE_LP_DUR_last, F.BE_LP_DUR_max, F.BE_LP_DONE_LO, F.BE_LP_DONE_HI, F.BE_POOL_STAT_fenced, F.BE_POOL_STAT_free, F.FLT_STAT_lost, F.FLT_LOST], [.be, .ch, .flt]⟩ t s (execFusee t e s) :=
  Runs.of fun d => Dev.runOp_keeps _ _ _ _ (fun x w => (OpSt.fusee_keeps x w).le) fun _ _ k => k.le

theorem execLetdn_runs (t : Nat) (e : Fin 12) (s : State) : Runs ⟨false, [F.BE_ENG_STAT_state, F.BE_ENG_STAT_loop, F.BE_ENG_STAT_loops, F.BE_ENG_STAT_fenced_writes, F.BE_ENG_RUNS, F.BE_LP_SWAP_active, F.BE_LP_SWAP_pending, F.BE_LP_SWAP_status, F.BE_LP_STAT_state, F.BE_LP_STAT_consec, F.BE_LP_STAT_update, F.BE_LP_FLAGS_sat, F.BE_LP_FLAGS_swap_clamp, F.BE_LP_SLACK_last, F.BE_LP_SLACK_win_min, F.BE_LP_SLACK_MIN_min, F.BE_LP_SLACK_MIN_restart, F.BE_LP_DUR_last, F.BE_LP_DUR_max, F.BE_LP_DONE_LO, F.BE_LP_DONE_HI, F.BE_POOL_STAT_fenced, F.BE_POOL_STAT_free, F.FLT_STAT_lost, F.FLT_LOST], [.be, .ch, .flt]⟩ t s (execLetdn t e s) :=
  Runs.of fun d => Dev.runOp_keeps _ _ _ _ (fun x w => (OpSt.letdn_keeps x w).le) fun _ _ k => k.le

theorem execPlaus_runs (t : Nat) (e : Fin 12) (s : State) : Runs ⟨false, [F.BE_ENG_STAT_state, F.BE_ENG_STAT_loop, F.BE_ENG_STAT_loops, F.BE_ENG_STAT_fenced_writes, F.BE_ENG_RUNS, F.BE_LP_SWAP_active, F.BE_LP_SWAP_pending, F.BE_LP_SWAP_status, F.BE_LP_STAT_state, F.BE_LP_STAT_consec, F.BE_LP_STAT_update, F.BE_LP_FLAGS_sat, F.BE_LP_FLAGS_plaus, F.BE_LP_FLAGS_swap_clamp, F.BE_LP_SLACK_last, F.BE_LP_SLACK_win_min, F.BE_LP_SLACK_MIN_min, F.BE_LP_SLACK_MIN_restart, F.BE_LP_DUR_last, F.BE_LP_DUR_max, F.BE_LP_DONE_LO, F.BE_LP_DONE_HI, F.BE_POOL_STAT_fenced, F.BE_POOL_STAT_free, F.FLT_STAT_lost, F.FLT_LOST], [.be, .ch, .flt]⟩ t s (execPlaus t e s) :=
  Runs.of fun d => Dev.runOp_keeps _ _ _ _ (fun x w => (OpSt.plaus_keeps x w).le) fun _ _ k => k.le

theorem execSlack_runs (t : Nat) (e : Fin 12) (s : State) : Runs ⟨false, [F.BE_ENG_STAT_state, F.BE_ENG_STAT_loop, F.BE_ENG_STAT_loops, F.BE_ENG_STAT_fenced_writes, F.BE_ENG_RUNS, F.BE_LP_SWAP_active, F.BE_LP_SWAP_pending, F.BE_LP_SWAP_status, F.BE_LP_STAT_state, F.BE_LP_STAT_consec, F.BE_LP_STAT_update, F.BE_LP_FLAGS_sat, F.BE_LP_FLAGS_swap_clamp, F.BE_LP_SLACK_last, F.BE_LP_SLACK_win_min, F.BE_LP_SLACK_MIN_min, F.BE_LP_SLACK_MIN_restart, F.BE_LP_DUR_last, F.BE_LP_DUR_max, F.BE_LP_DONE_LO, F.BE_LP_DONE_HI, F.BE_POOL_STAT_fenced, F.BE_POOL_STAT_free, F.FLT_STAT_lost, F.FLT_LOST], [.be, .ch, .flt]⟩ t s (execSlack t e s) :=
  Runs.of fun d => Dev.runOp_keeps _ _ _ _ (fun x w => (OpSt.slack_keeps x w).le) fun _ _ k => k.le

end Sys2Proof.Machine
end

