-- ==== Sys2Proof/Laws/KeepsPorts.lean ====
section
/-! SUPPORT. What the effects of Ports.lean keep. -/

namespace Sys2Proof.Machine

set_option Elab.async false

theorem Dev.inputOff_keeps (d : Dev) (p : Nat) : Keeps ⟨false, [], [.pp]⟩ d (Dev.inputOff d p) := by
  unfold Dev.inputOff
  repeat' (first
    | with_reducible exact Keeps.refl _ _
    | decide +kernel
    | with_reducible assumption
    | lift_lets
    | (intro x; first | (refine Keeps.cut (d0 := d) (d1 := x) ?_ ?_; (on_goal 1 => subst x); (on_goal 2 => (intro _; clear_value x))) | subst x)
    | (apply Keeps.step; with_reducible apply Dev.setDrv_keeps)
    | (apply Keeps.step; with_reducible apply Dev.drivePort_keeps))

theorem Dev.linkLost_keeps (d : Dev) (p : Nat) (lane : Bool) : Keeps ⟨false, [F.PP_STAT_link_live, F.PP_STAT_link_down, F.FLT_STAT_lost, F.FLT_LOST], [.pp, .flt]⟩ d (Dev.linkLost d p lane) := by
  unfold Dev.linkLost
  repeat' (first
    | with_reducible exact Keeps.refl _ _
    | decide +kernel
    | with_reducible assumption
    | lift_lets
    | (intro x; first | (refine Keeps.cut (d0 := d) (d1 := x) ?_ ?_; (on_goal 1 => subst x); (on_goal 2 => (intro _; clear_value x))) | subst x)
    | (apply Keeps.step; with_reducible apply Dev.put_keeps)
    | (apply Keeps.step; with_reducible apply Dev.setPort_keeps)
    | (apply Keeps.step; with_reducible apply Dev.report_keeps)
    | (apply Keeps.step; with_reducible apply Dev.reportOpen_keeps)
    | (apply Keeps.step; with_reducible apply Dev.drivePort_keeps)
    | (apply Keeps.step; with_reducible apply Dev.inputOff_keeps)
    | (with_reducible apply Keeps.ite <;> intro _)
    | split)

theorem Dev.linkBack_keeps (d : Dev) (p : Nat) (lane : Bool) (hiMv loMv : Nat) : Keeps ⟨false, [F.PP_STAT_uvlo_hi_live, F.PP_STAT_uvlo_lo_live, F.PP_STAT_interlock_live, F.PP_STAT_link_live, F.PP_STAT_interlock, F.PP_CNT_interlock, F.FLT_STAT_lost, F.FLT_LOST], [.pp, .flt]⟩ d (Dev.linkBack d p lane hiMv loMv) := by
  unfold Dev.linkBack
  repeat' (first
    | with_reducible exact Keeps.refl _ _
    | decide +kernel
    | with_reducible assumption
    | lift_lets
    | (intro x; first | (refine Keeps.cut (d0 := d) (d1 := x) ?_ ?_; (on_goal 1 => subst x); (on_goal 2 => (intro _; clear_value x))) | subst x)
    | (apply Keeps.step; with_reducible apply Dev.put_keeps)
    | (apply Keeps.step; with_reducible apply Dev.setPort_keeps)
    | (apply Keeps.step; with_reducible apply Dev.drivePort_keeps)
    | (apply Keeps.step; with_reducible apply Dev.driverInput_keeps)
    | (with_reducible apply Keeps.ite <;> intro _)
    | split)

theorem Dev.plateauEntry_keeps (d : Dev) (p : Nat) (hi : Bool) (first slope : Nat) (mv : Int) : Keeps ⟨false, [], [.pp]⟩ d (Dev.plateauEntry d p hi first slope mv) := by
  unfold Dev.plateauEntry
  repeat' (first
    | with_reducible exact Keeps.refl _ _
    | decide +kernel
    | with_reducible assumption
    | lift_lets
    | (intro x; first | (refine Keeps.cut (d0 := d) (d1 := x) ?_ ?_; (on_goal 1 => subst x); (on_goal 2 => (intro _; clear_value x))) | subst x)
    | (apply Keeps.step; with_reducible apply Dev.setEdge_keeps)
    | (with_reducible apply Keeps.ite <;> intro _)
    | split)

theorem Dev.plateauExit_keeps (d : Dev) (p : Nat) (hi : Bool) (mv : Int) : Keeps ⟨false, [], [.pp]⟩ d (Dev.plateauExit d p hi mv) := by
  unfold Dev.plateauExit
  repeat' (first
    | with_reducible exact Keeps.refl _ _
    | decide +kernel
    | with_reducible assumption
    | lift_lets
    | (intro x; first | (refine Keeps.cut (d0 := d) (d1 := x) ?_ ?_; (on_goal 1 => subst x); (on_goal 2 => (intro _; clear_value x))) | subst x)
    | (apply Keeps.step; with_reducible apply Dev.setEdge_keeps)
    | (with_reducible apply Keeps.ite <;> intro _)
    | split)

theorem Dev.segEnd_keeps (d : Dev) (p : Nat) (hi : Bool) : Keeps ⟨false, [F.PP_STAT_seg_timeout, F.FLT_STAT_lost, F.FLT_LOST], [.pp, .flt]⟩ d (Dev.segEnd d p hi) := by
  unfold Dev.segEnd
  repeat' (first
    | with_reducible exact Keeps.refl _ _
    | decide +kernel
    | with_reducible assumption
    | lift_lets
    | (intro x; first | (refine Keeps.cut (d0 := d) (d1 := x) ?_ ?_; (on_goal 1 => subst x); (on_goal 2 => (intro _; clear_value x))) | subst x)
    | (apply Keeps.step; with_reducible apply Dev.put_keeps)
    | (apply Keeps.step; with_reducible apply Dev.report_keeps)
    | (apply Keeps.step; with_reducible apply Dev.reportOpen_keeps)
    | (apply Keeps.step; with_reducible apply Dev.setEdge_keeps)
    | (with_reducible apply Keeps.ite <;> intro _)
    | split)

theorem Dev.recordEdge_keeps (d : Dev) (p : Nat) (hi : Bool) (e : Edge) : Keeps ⟨false, [F.PP_EDGE_ON, F.PP_EDGE_OFF], []⟩ d (Dev.recordEdge d p hi e) := by
  unfold Dev.recordEdge
  repeat' (first
    | with_reducible exact Keeps.refl _ _
    | decide +kernel
    | with_reducible assumption
    | lift_lets
    | (intro x; first | (refine Keeps.cut (d0 := d) (d1 := x) ?_ ?_; (on_goal 1 => subst x); (on_goal 2 => (intro _; clear_value x))) | subst x)
    | (apply Keeps.step; with_reducible apply Dev.wr_keeps)
    | (with_reducible apply Keeps.ite <;> intro _)
    | split)

theorem Dev.edgeDone_keeps (d : Dev) (p : Nat) (hi : Bool) (mv : Int) : Keeps ⟨false, [F.PP_STAT_gate_hi, F.PP_STAT_gate_lo, F.PP_EDGE_ON, F.PP_EDGE_OFF], [.pp]⟩ d (Dev.edgeDone d p hi mv) := by
  unfold Dev.edgeDone
  repeat' (first
    | with_reducible exact Keeps.refl _ _
    | decide +kernel
    | with_reducible assumption
    | exact gateSensed_ok _
    | (unfold gateSensed; (repeat' split) <;> decide +kernel)
    | lift_lets
    | (intro x; first | (refine Keeps.cut (d0 := d) (d1 := x) ?_ ?_; (on_goal 1 => subst x); (on_goal 2 => (intro _; clear_value x))) | subst x)
    | (apply Keeps.step; with_reducible apply Dev.put_keeps)
    | (apply Keeps.step; with_reducible apply Dev.setDrv_keeps)
    | (apply Keeps.step; with_reducible apply Dev.recordEdge_keeps)
    | (with_reducible apply Keeps.ite <;> intro _)
    | split)

theorem execDriverInputChange_runs (t : Nat) (p : Fin 64) (hiMv loMv : Nat) (s : State) :
    Runs ⟨false, [F.PP_STAT_uvlo_hi_live, F.PP_STAT_uvlo_lo_live, F.PP_STAT_interlock_live, F.PP_STAT_uvlo, F.PP_STAT_interlock, F.PP_CNT_uvlo, F.PP_CNT_interlock, F.PP_SUPPLY_hi_supply, F.PP_SUPPLY_lo_supply, F.FLT_STAT_lost, F.FLT_LOST], [.pp, .flt]⟩ t s (execDriverInputChange t p hiMv loMv s) := by
  unfold execDriverInputChange
  refine Runs.of fun d => ?_
  repeat' (first
    | with_reducible exact Keeps.refl _ _
    | decide +kernel
    | with_reducible assumption
    | lift_lets
    | (intro x; first | (refine Keeps.cut (d0 := d) (d1 := x) ?_ ?_; (on_goal 1 => subst x); (on_goal 2 => (intro _; clear_value x))) | subst x)
    | (apply Keeps.step; with_reducible apply Dev.setPort_keeps)
    | (apply Keeps.step; with_reducible apply Dev.supplyAt_keeps)
    | (apply Keeps.step; with_reducible apply Dev.driverInput_keeps)
    | (with_reducible apply Keeps.ite <;> intro _)
    | split
    | beta_reduce)

theorem execGateEdgeStart_runs (t : Nat) (p : Fin 64) (hi : Bool) (s : State) :
    Runs ⟨false, [], [.pp]⟩ t s (execGateEdgeStart t p hi s) := by
  unfold execGateEdgeStart
  refine Runs.of fun d => ?_
  repeat' (first
    | with_reducible exact Keeps.refl _ _
    | decide +kernel
    | with_reducible assumption
    | lift_lets
    | (intro x; first | (refine Keeps.cut (d0 := d) (d1 := x) ?_ ?_; (on_goal 1 => subst x); (on_goal 2 => (intro _; clear_value x))) | subst x)
    | (apply Keeps.step; with_reducible apply Dev.setDrv_keeps)
    | (with_reducible apply Keeps.ite <;> intro _)
    | split)

theorem execPlateauEntry_runs (t : Nat) (p : Fin 64) (g : PlateauSense) (s : State) :
    Runs ⟨false, [], [.pp]⟩ t s (execPlateauEntry t p g s) := by
  unfold execPlateauEntry
  refine Runs.of fun d => ?_
  repeat' (first
    | with_reducible exact Keeps.refl _ _
    | decide +kernel
    | (apply Keeps.step; with_reducible apply Dev.plateauEntry_keeps))

theorem execPlateauExit_runs (t : Nat) (p : Fin 64) (g : GateSense) (s : State) :
    Runs ⟨false, [], [.pp]⟩ t s (execPlateauExit t p g s) := by
  unfold execPlateauExit
  refine Runs.of fun d => ?_
  repeat' (first
    | with_reducible exact Keeps.refl _ _
    | decide +kernel
    | (apply Keeps.step; with_reducible apply Dev.plateauExit_keeps))

theorem execSegTimeout_runs (t : Nat) (p : Fin 64) (hi : Bool) (s : State) :
    Runs ⟨false, [F.PP_STAT_seg_timeout, F.FLT_STAT_lost, F.FLT_LOST], [.pp, .flt]⟩ t s (execSegTimeout t p hi s) := by
  unfold execSegTimeout
  refine Runs.of fun d => ?_
  repeat' (first
    | with_reducible exact Keeps.refl _ _
    | decide +kernel
    | (apply Keeps.step; with_reducible apply Dev.segEnd_keeps))

theorem execEdgeComplete_runs (t : Nat) (p : Fin 64) (g : GateSense) (s : State) :
    Runs ⟨false, [F.PP_STAT_gate_hi, F.PP_STAT_gate_lo, F.PP_EDGE_ON, F.PP_EDGE_OFF], [.pp]⟩ t s (execEdgeComplete t p g s) := by
  unfold execEdgeComplete
  refine Runs.of fun d => ?_
  repeat' (first
    | with_reducible exact Keeps.refl _ _
    | decide +kernel
    | (apply Keeps.step; with_reducible apply Dev.edgeDone_keeps))

theorem execUvlo_runs (t : Nat) (p : Fin 64) (hi : Bool) (mv : Nat) (s : State) :
    Runs ⟨false, [F.PP_STAT_uvlo_hi_live, F.PP_STAT_uvlo_lo_live, F.PP_STAT_uvlo, F.PP_CNT_uvlo, F.PP_SUPPLY_hi_supply, F.PP_SUPPLY_lo_supply, F.FLT_STAT_lost, F.FLT_LOST], [.pp, .flt]⟩ t s (execUvlo t p hi mv s) := by
  unfold execUvlo
  refine Runs.of fun d => ?_
  repeat' (first
    | with_reducible exact Keeps.refl _ _
    | decide +kernel
    | (apply Keeps.step; with_reducible apply Dev.lockout_keeps))

theorem execGateMonitorCheck_runs (t : Nat) (p : Fin 64) (hi : Bool) (mv : Int) (s : State) :
    Runs ⟨false, [F.PP_STAT_gate_hi, F.PP_STAT_gate_lo, F.PP_STAT_gate_mismatch, F.PP_CNT_mismatch, F.FLT_STAT_lost, F.FLT_LOST], [.pp, .flt]⟩ t s (execGateMonitorCheck t p hi mv s) := by
  unfold execGateMonitorCheck
  refine Runs.of fun d => ?_
  repeat' (first
    | with_reducible exact Keeps.refl _ _
    | decide +kernel
    | with_reducible assumption
    | lift_lets
    | (intro x; first | (refine Keeps.cut (d0 := d) (d1 := x) ?_ ?_; (on_goal 1 => subst x); (on_goal 2 => (intro _; clear_value x))) | subst x)
    | (apply Keeps.step; with_reducible apply Dev.setEdge_keeps)
    | (apply Keeps.step; with_reducible apply Dev.monitorGate_keeps)
    | (with_reducible apply Keeps.ite <;> intro _)
    | split)

theorem execGateMismatch_runs (t : Nat) (p : Fin 64) (hi : Bool) (mv : Int) (s : State) :
    Runs ⟨false, [F.PP_STAT_gate_hi, F.PP_STAT_gate_lo, F.PP_STAT_gate_mismatch, F.PP_CNT_mismatch, F.FLT_STAT_lost, F.FLT_LOST], [.flt]⟩ t s (execGateMismatch t p hi mv s) := by
  unfold execGateMismatch
  refine Runs.of fun d => ?_
  repeat' (first
    | with_reducible exact Keeps.refl _ _
    | decide +kernel
    | with_reducible assumption
    | lift_lets
    | (intro x; first | (refine Keeps.cut (d0 := d) (d1 := x) ?_ ?_; (on_goal 1 => subst x); (on_goal 2 => (intro _; clear_value x))) | subst x)
    | (apply Keeps.step; with_reducible apply Dev.monitorGate_keeps)
    | (with_reducible apply Keeps.ite <;> intro _)
    | split)

theorem execLinkDown_runs (t : Nat) (p : Fin 64) (s : State) :
    Runs ⟨false, [F.PP_STAT_link_live, F.PP_STAT_link_down, F.FLT_STAT_lost, F.FLT_LOST], [.pp, .flt]⟩ t s (execLinkDown t p s) := by
  unfold execLinkDown
  refine Runs.of fun d => ?_
  repeat' (first
    | with_reducible exact Keeps.refl _ _
    | decide +kernel
    | (apply Keeps.step; with_reducible apply Dev.linkLost_keeps))

theorem execTripLaneDown_runs (t : Nat) (p : Fin 64) (s : State) :
    Runs ⟨false, [F.PP_STAT_link_live, F.PP_STAT_link_down, F.FLT_STAT_lost, F.FLT_LOST], [.pp, .flt]⟩ t s (execTripLaneDown t p s) := by
  unfold execTripLaneDown
  refine Runs.of fun d => ?_
  repeat' (first
    | with_reducible exact Keeps.refl _ _
    | decide +kernel
    | (apply Keeps.step; with_reducible apply Dev.linkLost_keeps))

theorem execLinkResume_runs (t : Nat) (p : Fin 64) (lane : Bool) (hiMv loMv : Nat) (s : State) :
    Runs ⟨false, [F.PP_STAT_uvlo_hi_live, F.PP_STAT_uvlo_lo_live, F.PP_STAT_interlock_live, F.PP_STAT_link_live, F.PP_STAT_interlock, F.PP_CNT_interlock, F.FLT_STAT_lost, F.FLT_LOST], [.pp, .flt]⟩ t s (execLinkResume t p lane hiMv loMv s) := by
  unfold execLinkResume
  refine Runs.of fun d => ?_
  repeat' (first
    | with_reducible exact Keeps.refl _ _
    | decide +kernel
    | (apply Keeps.step; with_reducible apply Dev.linkBack_keeps))

theorem execSupplyHigh_runs (t : Nat) (src : Fin 15) (mv : Nat) (s : State) :
    Runs ⟨false, [F.PP_STAT_uvlo_hi_live, F.PP_STAT_uvlo_lo_live, F.PP_STAT_uvlo, F.PP_STAT_supply_high, F.PP_CNT_uvlo, F.PP_SUPPLY_hi_supply, F.PP_SUPPLY_lo_supply, F.FLT_STAT_lost, F.FLT_LOST], [.pp, .flt]⟩ t s (execSupplyHigh t src mv s) := by
  unfold execSupplyHigh
  refine Runs.of fun d => ?_
  repeat' (first
    | with_reducible exact Keeps.refl _ _
    | decide +kernel
    | (intro _ _ k; exact k.le)
    | with_reducible assumption
    | lift_lets
    | (intro x; first | (refine Keeps.cut (d0 := e) (d1 := x) ?_ ?_; (on_goal 1 => subst x); (on_goal 2 => (intro _; clear_value x))) | (refine Keeps.cut (d0 := d) (d1 := x) ?_ ?_; (on_goal 1 => subst x); (on_goal 2 => (intro _; clear_value x))) | subst x)
    | (apply Keeps.stepSame; with_reducible apply Dev.each_keeps; intro e _)
    | (apply Keeps.step; with_reducible apply Dev.put_keeps)
    | (apply Keeps.step; with_reducible apply Dev.supplyAt_keeps)
    | (with_reducible apply Keeps.ite <;> intro _)
    | split)

end Sys2Proof.Machine
end

