-- ==== Sys2Proof/Laws/KeepsSealCheck.lean ====
section
/-! SUPPORT. What the effects of SealCheck.lean keep. -/

namespace Sys2Proof.Machine

set_option Elab.async false

theorem Dev.measure_keeps (d : Dev) : Keeps ⟨false, [F.DEV_MEASURE], []⟩ d (Dev.measure d) := by
  unfold Dev.measure
  repeat' (first
    | with_reducible exact Keeps.refl _ _
    | decide +kernel
    | (intro _ _ k; exact k.le)
    | with_reducible assumption
    | lift_lets
    | (intro x; first | (refine Keeps.cut (d0 := e) (d1 := x) ?_ ?_; (on_goal 1 => subst x); (on_goal 2 => (intro _; clear_value x))) | (refine Keeps.cut (d0 := d) (d1 := x) ?_ ?_; (on_goal 1 => subst x); (on_goal 2 => (intro _; clear_value x))) | subst x)
    | (apply Keeps.stepSame; with_reducible apply Dev.each_keeps; intro e _)
    | (apply Keeps.step; with_reducible apply Dev.wr_keeps))

theorem Dev.sealOutcome_keeps (d : Dev) (st kind index : Nat) : Keeps ⟨false, [F.DEV_SEAL_CTRL_seal, F.DEV_SEAL_CTRL_outcome, F.DEV_SEAL_CTRL_detail_kind, F.DEV_SEAL_CTRL_detail_index], [.sys]⟩ d (Dev.sealOutcome d st kind index) := by
  unfold Dev.sealOutcome
  repeat' (first
    | with_reducible exact Keeps.refl _ _
    | decide +kernel
    | with_reducible assumption
    | lift_lets
    | (intro x; first | (refine Keeps.cut (d0 := d) (d1 := x) ?_ ?_; (on_goal 1 => subst x); (on_goal 2 => (intro _; clear_value x))) | subst x)
    | (apply Keeps.step; with_reducible apply Dev.wr_keeps)
    | (apply Keeps.step; with_reducible apply Dev.put_keeps)
    | (apply Keeps.step; with_reducible apply Dev.onSys_keeps))

theorem Dev.sealRefused_most (d : Dev) (st kind index : Nat) : Most ⟨false, [F.DEV_STATE_state, F.DEV_SEAL_CTRL_seal, F.DEV_SEAL_CTRL_outcome, F.DEV_SEAL_CTRL_detail_kind, F.DEV_SEAL_CTRL_detail_index], [.sys]⟩ d (Dev.sealRefused d st kind index) :=
  (Dev.sealOutcome_keeps ..).le.toMost.trans (Dev.wr_most _ _ _ _ (by decide)).le

theorem Dev.sealSequencers_keeps (d : Dev) : Keeps ⟨false, [F.SC_TM_STAT_state, F.SC_CH_STAT_state, F.SC_LV_STAT_state, F.SC_DR_STAT_state], [.hi]⟩ d (Dev.sealSequencers d) := by
  unfold Dev.sealSequencers
  repeat' (first
    | with_reducible exact Keeps.refl _ _
    | decide +kernel
    | (intro _ _ k; exact k.le)
    | with_reducible assumption
    | lift_lets
    | (intro x; first | (refine Keeps.cut (d0 := e) (d1 := x) ?_ ?_; (on_goal 1 => subst x); (on_goal 2 => (intro _; clear_value x))) | (refine Keeps.cut (d0 := d) (d1 := x) ?_ ?_; (on_goal 1 => subst x); (on_goal 2 => (intro _; clear_value x))) | subst x)
    | (apply Keeps.stepSame; with_reducible apply Dev.each_keeps; intro e _)
    | (apply Keeps.step; with_reducible apply Dev.tmGo_keeps)
    | (apply Keeps.step; with_reducible apply Dev.chGo_keeps)
    | (apply Keeps.step; with_reducible apply Dev.lvGo_keeps)
    | (apply Keeps.step; with_reducible apply Dev.drGo_keeps)
    | (with_reducible apply Keeps.ite <;> intro _)
    | split)

theorem Dev.sealSucceeds_most (d : Dev) : Most ⟨false, [F.DEV_STATE_state, F.DEV_SEAL_CTRL_seal, F.DEV_SEAL_CTRL_outcome, F.DEV_SEAL_CTRL_detail_kind, F.DEV_SEAL_CTRL_detail_index, F.DEV_MEASURE, F.BE_ENG_STAT_state, F.BE_ENG_STAT_spare, F.BE_ENG_STAT_loop, F.BE_ENG_STAT_loops, F.BE_ENG_LOOPS_LO, F.BE_ENG_LOOPS_HI, F.BE_LP_SWAP_pending, F.BE_LP_SWAP_status, F.BE_LP_STAT_state, F.BE_LP_STAT_engine, F.BE_POOL_STAT_fenced, F.BE_POOL_STAT_free, F.SC_TM_STAT_state, F.SC_CH_STAT_state, F.SC_LV_STAT_state, F.SC_DR_STAT_state, F.MB_BANK_CTRL, F.MB_BANK_STAT_owner, F.IMS_BOOT_seal_ms, F.FLT_STAT_lost, F.FLT_LOST], [.sys, .be, .hi, .flt]⟩ d (Dev.sealSucceeds d) := by
  unfold Dev.sealSucceeds
  extract_lets a b
  have k : Keeps ⟨false, [F.DEV_STATE_state, F.DEV_SEAL_CTRL_seal, F.DEV_SEAL_CTRL_outcome, F.DEV_SEAL_CTRL_detail_kind, F.DEV_SEAL_CTRL_detail_index, F.DEV_MEASURE, F.BE_ENG_STAT_state, F.BE_ENG_STAT_spare, F.BE_ENG_STAT_loop, F.BE_ENG_STAT_loops, F.BE_ENG_LOOPS_LO, F.BE_ENG_LOOPS_HI, F.BE_LP_SWAP_pending, F.BE_LP_SWAP_status, F.BE_LP_STAT_state, F.BE_LP_STAT_engine, F.BE_POOL_STAT_fenced, F.BE_POOL_STAT_free, F.SC_TM_STAT_state, F.SC_CH_STAT_state, F.SC_LV_STAT_state, F.SC_DR_STAT_state, F.MB_BANK_CTRL, F.MB_BANK_STAT_owner, F.IMS_BOOT_seal_ms, F.FLT_STAT_lost, F.FLT_LOST], [.sys, .be, .hi, .flt]⟩ d a := (((Dev.measure_keeps d).le.trans (Dev.sealBanks_keeps _).le).trans (Dev.sealPool_keeps _).le).trans (Dev.sealSequencers_keeps _).le
  have m : Keeps ⟨false, [F.DEV_STATE_state, F.DEV_SEAL_CTRL_seal, F.DEV_SEAL_CTRL_outcome, F.DEV_SEAL_CTRL_detail_kind, F.DEV_SEAL_CTRL_detail_index, F.DEV_MEASURE, F.BE_ENG_STAT_state, F.BE_ENG_STAT_spare, F.BE_ENG_STAT_loop, F.BE_ENG_STAT_loops, F.BE_ENG_LOOPS_LO, F.BE_ENG_LOOPS_HI, F.BE_LP_SWAP_pending, F.BE_LP_SWAP_status, F.BE_LP_STAT_state, F.BE_LP_STAT_engine, F.BE_POOL_STAT_fenced, F.BE_POOL_STAT_free, F.SC_TM_STAT_state, F.SC_CH_STAT_state, F.SC_LV_STAT_state, F.SC_DR_STAT_state, F.MB_BANK_CTRL, F.MB_BANK_STAT_owner, F.IMS_BOOT_seal_ms, F.FLT_STAT_lost, F.FLT_LOST], [.sys, .be, .hi, .flt]⟩ d b := k.trans (Dev.wr_keeps _ _ _ _ (by decide +kernel)).le
  exact (m.toMost.trans (Dev.sealOutcome_keeps ..).le.toMost).trans (Dev.wr_most _ _ _ _ (by decide)).le

/-- The end of a seal leaves SEALING, and no other state. -/
theorem Dev.sealComplete_keeps (d : Dev) : Keeps ⟨false, [F.DEV_STATE_state, F.DEV_SEAL_CTRL_seal, F.DEV_SEAL_CTRL_outcome, F.DEV_SEAL_CTRL_detail_kind, F.DEV_SEAL_CTRL_detail_index, F.DEV_MEASURE, F.BE_ENG_STAT_state, F.BE_ENG_STAT_spare, F.BE_ENG_STAT_loop, F.BE_ENG_STAT_loops, F.BE_ENG_LOOPS_LO, F.BE_ENG_LOOPS_HI, F.BE_LP_SWAP_pending, F.BE_LP_SWAP_status, F.BE_LP_STAT_state, F.BE_LP_STAT_engine, F.BE_POOL_STAT_fenced, F.BE_POOL_STAT_free, F.BE_POOL_CHECK, F.BE_POOL_CHECK_valid, F.SC_TM_STAT_state, F.SC_CH_STAT_state, F.SC_LV_STAT_state, F.SC_DR_STAT_state, F.MB_BANK_CTRL, F.MB_BANK_STAT_owner, F.IMS_BOOT_seal_ms, F.FLT_STAT_lost, F.FLT_LOST], [.sys, .be, .hi, .flt]⟩ d (Dev.sealComplete d) := by
  unfold Dev.sealComplete
  refine Keeps.ite (fun _ => Keeps.refl _ d) fun h => Most.keeps ?_ ?_
  · split
    · exact (Dev.sealRefused_most ..).le
    · split
      · exact (Dev.wr_keeps _ _ _ _ (by decide +kernel)).le.toMost.trans (Dev.sealRefused_most ..).le
      · dsimp only
        split
        · exact (Dev.put_keeps _ _ _ _ (by decide +kernel)).le.toMost.trans (Dev.sealSucceeds_most _).le
        · exact (Dev.put_keeps _ _ _ _ (by decide +kernel)).le.toMost.trans (Dev.sealRefused_most ..).le
  · intro k
    rw [k] at h
    exact h (by decide +kernel)

theorem execSealComplete_runs (t : Nat) (s : State) :
    Runs ⟨false, [F.DEV_STATE_state, F.DEV_SEAL_CTRL_seal, F.DEV_SEAL_CTRL_outcome, F.DEV_SEAL_CTRL_detail_kind, F.DEV_SEAL_CTRL_detail_index, F.DEV_MEASURE, F.BE_ENG_STAT_state, F.BE_ENG_STAT_spare, F.BE_ENG_STAT_loop, F.BE_ENG_STAT_loops, F.BE_ENG_LOOPS_LO, F.BE_ENG_LOOPS_HI, F.BE_LP_SWAP_pending, F.BE_LP_SWAP_status, F.BE_LP_STAT_state, F.BE_LP_STAT_engine, F.BE_POOL_STAT_fenced, F.BE_POOL_STAT_free, F.BE_POOL_CHECK, F.BE_POOL_CHECK_valid, F.SC_TM_STAT_state, F.SC_CH_STAT_state, F.SC_LV_STAT_state, F.SC_DR_STAT_state, F.MB_BANK_CTRL, F.MB_BANK_STAT_owner, F.IMS_BOOT_seal_ms, F.FLT_STAT_lost, F.FLT_LOST], [.sys, .be, .hi, .flt]⟩ t s (execSealComplete t s) := by
  unfold execSealComplete
  refine Runs.of fun d => ?_
  repeat' (first
    | with_reducible exact Keeps.refl _ _
    | decide +kernel
    | (apply Keeps.step; with_reducible apply Dev.sealComplete_keeps))

end Sys2Proof.Machine
end

