-- ==== Sys2Proof/Laws/KeepsWindows.lean ====
section
/-! SUPPORT. What the effects of Windows.lean keep. -/

namespace Sys2Proof.Machine

set_option Elab.async false

theorem Dev.setCopy_keeps (d : Dev) (a : Bool) (v : ScCopy) : Keeps ⟨false, [], [.sc]⟩ d (Dev.setCopy d a v) := by
  unfold Dev.setCopy
  repeat' (first
    | with_reducible exact Keeps.refl _ _
    | decide +kernel
    | (apply Keeps.step; with_reducible apply Dev.onSc_keeps)
    | (with_reducible apply Keeps.ite <;> intro _)
    | split)

theorem Dev.writeWhole_keeps (d : Dev) (m : BankMaster) (a n : Nat) (v : Word) (w : BankWait) : Keeps ⟨false, [F.MB_BANK_STAT_ue, F.MB_BANK_STAT_nonowner_wr, F.MB_BANK_STAT_ce_cnt, F.MB_BANK_STAT_ue_cnt, F.MB_BANK_STAT_nonowner_cnt, F.MB_UE_ADDR, F.MB_CONF_waits, F.MB_CONF_max_wait, F.FLT_STAT_lost, F.FLT_LOST], [.mb, .flt]⟩ d (Dev.writeWhole d m a n v w) := by
  unfold Dev.writeWhole
  repeat' (first
    | with_reducible exact Keeps.refl _ _
    | decide +kernel
    | with_reducible assumption
    | lift_lets
    | (intro x; first | (refine Keeps.cut (d0 := d) (d1 := x) ?_ ?_; (on_goal 1 => subst x); (on_goal 2 => (intro _; clear_value x))) | subst x)
    | (apply Keeps.step; with_reducible apply Dev.bankWrite_keeps)
    | (with_reducible apply Keeps.ite <;> intro _)
    | split
    | beta_reduce)

theorem Dev.releaseStore_keeps (d : Dev) (m : BankMaster) (s : ScStore) (w : BankWait) : Keeps ⟨true, [], [.sys, .tb, .pp, .sh, .cv, .ps, .be, .tm, .ch, .dr, .sc, .mb, .hi, .cn, .sec, .flt, .pw]⟩ d (Dev.releaseStore d m s w) := by
  unfold Dev.releaseStore
  split
  · exact Keeps.refl _ d
  · dsimp only
    split
    · exact (Dev.writeWhole_keeps ..).le
    · exact (Dev.busWrite_keeps ..).le

theorem Dev.releaseAll_keeps (d : Dev) (m : BankMaster) (l : List ScStore) (ws : List BankWait) :
    Keeps ⟨true, [], [.sys, .tb, .pp, .sh, .cv, .ps, .be, .tm, .ch, .dr, .sc, .mb, .hi, .cn, .sec, .flt, .pw]⟩ d (Dev.releaseAll d m l ws) := by
  induction l generalizing d ws with
  | nil => exact Keeps.refl _ d
  | cons s rest ih => exact (Dev.releaseStore_keeps ..).trans (ih ..)

theorem Dev.endWindow_keeps (d : Dev) (w : ScClosed) (request : Bool) (ws : List BankWait) : Keeps ⟨true, [], [.sys, .tb, .pp, .sh, .cv, .ps, .be, .tm, .ch, .dr, .sc, .mb, .hi, .cn, .sec, .flt, .pw]⟩ d (Dev.endWindow d w request ws) := by
  unfold Dev.endWindow
  extract_lets _ next m e _ f
  have k : Keeps ⟨true, [], [.sys, .tb, .pp, .sh, .cv, .ps, .be, .tm, .ch, .dr, .sc, .mb, .hi, .cn, .sec, .flt, .pw]⟩ d e := (Dev.onSc_keeps ..).le
  have k : Keeps ⟨true, [], [.sys, .tb, .pp, .sh, .cv, .ps, .be, .tm, .ch, .dr, .sc, .mb, .hi, .cn, .sec, .flt, .pw]⟩ d f := k.trans (Keeps.ite (fun _ => (Dev.withFlt_keeps e _ (by exact id)).le) fun _ => Keeps.refl _ e)
  exact (k.trans (Dev.releaseAll_keeps ..)).trans (Dev.wakeCopies_keeps _).le

theorem Dev.carryOn_keeps (d : Dev) (a : Bool) : Keeps ⟨true, [], [.sys, .tb, .pp, .sh, .cv, .ps, .be, .tm, .ch, .dr, .sc, .mb, .hi, .cn, .sec, .flt, .pw]⟩ d (Dev.carryOn d a) := by
  unfold Dev.carryOn
  repeat' (first
    | with_reducible exact Keeps.refl _ _
    | decide +kernel
    | (apply Keeps.step; with_reducible apply Dev.endWindow_keeps)
    | (with_reducible apply Keeps.ite <;> intro _)
    | split)

theorem Dev.inputPath_keeps (d : Dev) (copyA : Bool) : Keeps ⟨true, [], [.sys, .tb, .pp, .sh, .cv, .ps, .be, .tm, .ch, .dr, .sc, .mb, .hi, .cn, .sec, .flt, .pw]⟩ d (Dev.inputPath d copyA) := by
  unfold Dev.inputPath
  repeat' (first
    | with_reducible exact Keeps.refl _ _
    | decide +kernel
    | with_reducible assumption
    | lift_lets
    | (intro x; first | (refine Keeps.cut (d0 := d) (d1 := x) ?_ ?_; (on_goal 1 => subst x); (on_goal 2 => (intro _; clear_value x))) | subst x)
    | (apply Keeps.step; with_reducible apply Dev.scNote_keeps)
    | (apply Keeps.step; with_reducible apply Dev.fenceCopy_keeps)
    | (apply Keeps.step; with_reducible apply Dev.goSimplex_keeps)
    | (apply Keeps.step; with_reducible apply Dev.setCopy_keeps)
    | (apply Keeps.step; with_reducible apply Dev.carryOn_keeps)
    | (with_reducible apply Keeps.ite <;> intro _)
    | split)

theorem Dev.inputPathBoth_keeps (d : Dev) : Keeps ⟨false, [F.DEV_STATE_state, F.TB_STG_RUN_run, F.TB_STG_STAT_running, F.TB_STG_STAT_tripped, F.PG_STAT_out_high, F.PG_STAT_out_low, F.PG_STAT_trip_hold, F.WM_SW_HELD, F.WM_SW_STAT_held, F.WM_SW_STAT_action, F.WM_SW_STAT_cause_kind, F.WM_SW_STAT_cause_index, F.WM_SW_STAT_count, F.WM_SW_TIME_LO, F.WM_SW_TIME_HI, F.SC_STAT_mode, F.SC_STAT_fenced_a, F.SC_STAT_fenced_b, F.SC_STAT_fenced_chk, F.SC_LAST, F.SC_LAST_outcome, F.SC_LAST_TIME_LO, F.SC_LAST_TIME_HI, F.SC_ABS_LEFT_left, F.SC_ABS_LEFT_awaiting, F.FLT_STAT_lost, F.FLT_STAT_safe, F.FLT_LOST, F.FLT_SAFE_safe, F.FLT_SAFE_kind, F.FLT_SAFE_index, F.FLT_SAFE_status, F.FLT_SAFE_TIME_LO, F.FLT_SAFE_TIME_HI], [.tb, .pp, .cv, .sc, .flt]⟩ d (Dev.inputPathBoth d) := by
  unfold Dev.inputPathBoth
  repeat' (first
    | with_reducible exact Keeps.refl _ _
    | decide +kernel
    | (apply Keeps.step; with_reducible apply Dev.scNote_keeps)
    | (apply Keeps.step; with_reducible apply Dev.fenceCopy_keeps)
    | (apply Keeps.step; with_reducible apply Dev.scHalt_keeps)
    | (apply Keeps.step; with_reducible apply Dev.dropWindow_keeps))

theorem Dev.lostRedundancy_keeps (d : Dev) (k : Nat) : Keeps ⟨true, [], [.sys, .tb, .pp, .sh, .cv, .ps, .be, .tm, .ch, .dr, .sc, .mb, .hi, .cn, .sec, .flt, .pw]⟩ d (Dev.lostRedundancy d k) := by
  unfold Dev.lostRedundancy
  repeat' (first
    | with_reducible exact Keeps.refl _ _
    | decide +kernel
    | with_reducible assumption
    | lift_lets
    | (intro x; first | (refine Keeps.cut (d0 := d) (d1 := x) ?_ ?_; (on_goal 1 => subst x); (on_goal 2 => (intro _; clear_value x))) | subst x)
    | (apply Keeps.step; with_reducible apply Dev.onSc_keeps)
    | (apply Keeps.step; with_reducible apply Dev.scNote_keeps)
    | (apply Keeps.step; with_reducible apply Dev.fenceCopy_keeps)
    | (apply Keeps.step; with_reducible apply Dev.scHalt_keeps)
    | (apply Keeps.step; with_reducible apply Dev.rollBack_keeps)
    | (apply Keeps.step; with_reducible apply Dev.inputPath_keeps)
    | (apply Keeps.step; with_reducible apply Dev.inputPathBoth_keeps)
    | (with_reducible apply Keeps.ite <;> intro _)
    | split)

theorem execCheckerFault_runs (t : Nat) (k : Fin 6) (s : State) :
    Runs ⟨true, [], [.sys, .tb, .pp, .sh, .cv, .ps, .be, .tm, .ch, .dr, .sc, .mb, .hi, .cn, .sec, .flt, .pw]⟩ t s (execCheckerFault t k s) := by
  unfold execCheckerFault
  refine Runs.of fun d => ?_
  repeat' (first
    | with_reducible exact Keeps.refl _ _
    | decide +kernel
    | (apply Keeps.step; with_reducible apply Dev.lostRedundancy_keeps))

theorem Dev.takeVote_keeps (d : Dev) (errs : List (Word × Word × Word)) (give : Dev → Word → Dev) (h : ∀ d e, Keeps ⟨true, [], [.sys, .tb, .pp, .sh, .cv, .ps, .be, .tm, .ch, .dr, .sc, .mb, .hi, .cn, .sec, .flt, .pw]⟩ d (give d e)) :
    Keeps ⟨true, [], [.sys, .tb, .pp, .sh, .cv, .ps, .be, .tm, .ch, .dr, .sc, .mb, .hi, .cn, .sec, .flt, .pw]⟩ d (Dev.takeVote d errs give) := by
  unfold Dev.takeVote
  generalize vote (d.rd F.SC_CFG_agree_retries 0) errs 0 = x
  obtain ⟨k, e, r⟩ := x
  have b : Keeps ⟨true, [], [.sys, .tb, .pp, .sh, .cv, .ps, .be, .tm, .ch, .dr, .sc, .mb, .hi, .cn, .sec, .flt, .pw]⟩ d (d.each (List.range k) fun d _ => d.bump F.SC_AGREE_joint 0) :=
    Dev.each_keeps _ _ _ fun _ _ => (Dev.bump_keeps _ _ _ (by decide +kernel)).le
  refine b.trans ?_
  dsimp only
  generalize (d.each (List.range k) fun d _ => d.bump F.SC_AGREE_joint 0) = d1
  have o (a : Bool) : Keeps ⟨true, [], [.sys, .tb, .pp, .sh, .cv, .ps, .be, .tm, .ch, .dr, .sc, .mb, .hi, .cn, .sec, .flt, .pw]⟩ d1 ((give (d1.bump F.SC_CNT_outvoted 0) e).inputPath a) :=
    ((Dev.bump_keeps _ _ _ (by decide +kernel)).le.trans (h ..)).trans (Dev.inputPath_keeps ..).le
  cases r
  · exact h ..
  · exact o true
  · exact o false
  · exact (Dev.inputPathBoth_keeps _).le

theorem Dev.endAgreed_keeps (d : Dev) (a b : ScClosed) (r : ScRun) : Keeps ⟨true, [], [.sys, .tb, .pp, .sh, .cv, .ps, .be, .tm, .ch, .dr, .sc, .mb, .hi, .cn, .sec, .flt, .pw]⟩ d (Dev.endAgreed d a b r) := by
  unfold Dev.endAgreed
  extract_lets bit request
  exact Keeps.ite (fun _ => Dev.endWindow_keeps ..) fun _ => Dev.takeVote_keeps _ _ _ fun _ _ => Dev.endWindow_keeps ..

theorem Dev.compareWindow_keeps (d : Dev) (a b : ScClosed) (r : ScRun) : Keeps ⟨true, [], [.sys, .tb, .pp, .sh, .cv, .ps, .be, .tm, .ch, .dr, .sc, .mb, .hi, .cn, .sec, .flt, .pw]⟩ d (Dev.compareWindow d a b r) := by
  unfold Dev.compareWindow
  repeat' (first
    | with_reducible exact Keeps.refl _ _
    | decide +kernel
    | with_reducible assumption
    | lift_lets
    | (intro x; first | (refine Keeps.cut (d0 := d) (d1 := x) ?_ ?_; (on_goal 1 => subst x); (on_goal 2 => (intro _; clear_value x))) | subst x)
    | (apply Keeps.step; with_reducible apply Dev.wr64_keeps)
    | (apply Keeps.step; with_reducible apply Dev.onSc_keeps)
    | (apply Keeps.step; with_reducible apply Dev.scSafe_keeps)
    | (apply Keeps.step; with_reducible apply Dev.scMismatch_keeps)
    | (apply Keeps.step; with_reducible apply Dev.endAgreed_keeps)
    | (with_reducible apply Keeps.ite <;> intro _)
    | split
    | beta_reduce)

theorem Dev.closeWindow_keeps (d : Dev) (r : ScRun) : Keeps ⟨true, [], [.sys, .tb, .pp, .sh, .cv, .ps, .be, .tm, .ch, .dr, .sc, .mb, .hi, .cn, .sec, .flt, .pw]⟩ d (Dev.closeWindow d r) := by
  unfold Dev.closeWindow
  repeat' (first
    | with_reducible exact Keeps.refl _ _
    | decide +kernel
    | with_reducible assumption
    | lift_lets
    | (intro x; first | (refine Keeps.cut (d0 := d) (d1 := x) ?_ ?_; (on_goal 1 => subst x); (on_goal 2 => (intro _; clear_value x))) | subst x)
    | (apply Keeps.step; with_reducible apply Dev.setCopy_keeps)
    | (apply Keeps.step; with_reducible apply Dev.endWindow_keeps)
    | (apply Keeps.step; with_reducible apply Dev.lostRedundancy_keeps)
    | (apply Keeps.step; with_reducible apply Dev.compareWindow_keeps)
    | (with_reducible apply Keeps.ite <;> intro _)
    | split
    | beta_reduce)

theorem execWindowClose_runs (t : Nat) (r : ScRun) (s : State) :
    Runs ⟨true, [], [.sys, .tb, .pp, .sh, .cv, .ps, .be, .tm, .ch, .dr, .sc, .mb, .hi, .cn, .sec, .flt, .pw]⟩ t s (execWindowClose t r s) := by
  unfold execWindowClose
  refine Runs.of fun d => ?_
  repeat' (first
    | with_reducible exact Keeps.refl _ _
    | decide +kernel
    | (apply Keeps.step; with_reducible apply Dev.closeWindow_keeps))

theorem execLagTimeout_runs (t : Nat) (s : State) :
    Runs ⟨false, [F.DEV_STATE_state, F.TB_STG_RUN_run, F.TB_STG_STAT_running, F.TB_STG_STAT_tripped, F.PG_STAT_out_high, F.PG_STAT_out_low, F.PG_STAT_trip_hold, F.WM_SW_HELD, F.WM_SW_STAT_held, F.WM_SW_STAT_action, F.WM_SW_STAT_cause_kind, F.WM_SW_STAT_cause_index, F.WM_SW_STAT_count, F.WM_SW_TIME_LO, F.WM_SW_TIME_HI, F.SC_STAT_mode, F.SC_CNT_rollbacks, F.SC_LAST, F.SC_LAST_outcome, F.SC_LAST_TIME_LO, F.SC_LAST_TIME_HI, F.SC_ABS_LEFT_left, F.SC_ABS_LEFT_awaiting, F.FLT_STAT_lost, F.FLT_STAT_safe, F.FLT_LOST, F.FLT_SAFE_safe, F.FLT_SAFE_kind, F.FLT_SAFE_index, F.FLT_SAFE_status, F.FLT_SAFE_TIME_LO, F.FLT_SAFE_TIME_HI], [.tb, .pp, .cv, .sc, .flt]⟩ t s (execLagTimeout t s) := by
  unfold execLagTimeout
  refine Runs.of fun d => ?_
  repeat' (first
    | with_reducible exact Keeps.refl _ _
    | decide +kernel
    | (apply Keeps.step; with_reducible apply Dev.scMismatch_keeps)
    | (with_reducible apply Keeps.ite <;> intro _)
    | split)

theorem Dev.afterScRead_keeps (d : Dev) (a : Bool) (l : ScLoad) (w : BankWait) : Keeps ⟨false, [F.MB_BANK_STAT_ue, F.MB_BANK_STAT_ce_cnt, F.MB_BANK_STAT_ue_cnt, F.MB_UE_ADDR, F.MB_CONF_waits, F.MB_CONF_max_wait, F.FLT_STAT_lost, F.FLT_LOST], [.sys, .mb, .flt]⟩ d (Dev.afterScRead d a l w) := by
  unfold Dev.afterScRead
  repeat' (first
    | with_reducible exact Keeps.refl _ _
    | decide +kernel
    | with_reducible assumption
    | lift_lets
    | (intro x; first | (refine Keeps.cut (d0 := d) (d1 := x) ?_ ?_; (on_goal 1 => subst x); (on_goal 2 => (intro _; clear_value x))) | subst x)
    | (apply Keeps.step; with_reducible apply Dev.bankWait_keeps)
    | (apply Keeps.step; with_reducible apply Dev.bankCheck_keeps)
    | (apply Keeps.step; with_reducible apply Dev.bankServed_keeps)
    | (apply Keeps.step; with_reducible apply Dev.holdHigh_keeps)
    | (with_reducible apply Keeps.ite <;> intro _)
    | split
    | beta_reduce)

theorem Dev.loaded_keeps (d : Dev) (a : Bool) (l : ScLoad) (v : Option Word) : Keeps ⟨false, [], [.sc]⟩ d (Dev.loaded d a l v) := by
  unfold Dev.loaded
  repeat' (first
    | with_reducible exact Keeps.refl _ _
    | decide +kernel
    | with_reducible assumption
    | lift_lets
    | (intro x; first | (refine Keeps.cut (d0 := d) (d1 := x) ?_ ?_; (on_goal 1 => subst x); (on_goal 2 => (intro _; clear_value x))) | subst x)
    | (apply Keeps.step; with_reducible apply Dev.setCopy_keeps))

theorem Dev.deliverLoad_keeps (d : Dev) (l : ScLoad) (v : Word) : Keeps ⟨false, [], [.sc]⟩ d (Dev.deliverLoad d l v) := by
  unfold Dev.deliverLoad
  repeat' (first
    | with_reducible exact Keeps.refl _ _
    | decide +kernel
    | with_reducible assumption
    | lift_lets
    | (intro x; first | (refine Keeps.cut (d0 := d) (d1 := x) ?_ ?_; (on_goal 1 => subst x); (on_goal 2 => (intro _; clear_value x))) | subst x)
    | (apply Keeps.step; with_reducible apply Dev.onSc_keeps)
    | (apply Keeps.step; with_reducible apply Dev.loaded_keeps)
    | (with_reducible apply Keeps.ite <;> intro _)
    | split)

theorem Dev.reachLoad_keeps (d : Dev) (a : Bool) (l : ScLoad) (sample : Option Word) (errs : List (Word × Word × Word)) :
    Keeps ⟨true, [], [.sys, .tb, .pp, .sh, .cv, .ps, .be, .tm, .ch, .dr, .sc, .mb, .hi, .cn, .sec, .flt, .pw]⟩ d (Dev.reachLoad d a l sample errs) := by
  unfold Dev.reachLoad
  dsimp only
  split
  · exact (Dev.loaded_keeps ..).le
  · refine Keeps.ite (fun _ => (Dev.deliverLoad_keeps ..).le) fun _ => ?_
    split
    · refine Keeps.ite (fun _ => (Dev.setCopy_keeps ..).le) fun _ => ?_
      refine (Dev.setCopy_keeps d (!a) { d.copy (!a) with waiting := none }).le.trans ?_
      exact Keeps.ite (fun _ => (Dev.wr_keeps _ _ _ _ (by decide +kernel)).le.trans (Dev.deliverLoad_keeps ..).le) fun _ =>
        Dev.takeVote_keeps _ _ _ fun _ _ => (Dev.deliverLoad_keeps ..).le
    · exact (Dev.setCopy_keeps ..).le

theorem Dev.holdStores_keeps (d : Dev) (a : Bool) (stores : List ScStore) : Keeps ⟨false, [], [.sc]⟩ d (Dev.holdStores d a stores) := by
  unfold Dev.holdStores
  repeat' (first
    | with_reducible exact Keeps.refl _ _
    | decide +kernel
    | (apply Keeps.step; with_reducible apply Dev.setCopy_keeps))

theorem execAgreedLoad_runs (t : Nat) (copyA : Bool) (p : ScPlace) (e : PathErr) (s : State) :
    Runs ⟨true, [], [.sys, .tb, .pp, .sh, .cv, .ps, .be, .tm, .ch, .dr, .sc, .mb, .hi, .cn, .sec, .flt, .pw]⟩ t s (execAgreedLoad t copyA p e s) :=
  Runs.of fun d => Keeps.ite (fun _ => ((Dev.holdStores_keeps ..).le.trans (Dev.afterScRead_keeps ..).le).trans (Dev.reachLoad_keeps ..).le)
    fun _ => Keeps.refl _ d

theorem Dev.copyRead_keeps (d : Dev) (a : Bool) (x n : Nat) (u : Upset) (wait : Nat) (stores : List ScStore) :
    Keeps ⟨true, [], [.sys, .tb, .pp, .sh, .cv, .ps, .be, .tm, .ch, .dr, .sc, .mb, .hi, .cn, .sec, .flt, .pw]⟩ d (Dev.copyRead d a x n u wait stores) := by
  unfold Dev.copyRead
  extract_lets m got l e
  have k : Keeps ⟨true, [], [.sys, .tb, .pp, .sh, .cv, .ps, .be, .tm, .ch, .dr, .sc, .mb, .hi, .cn, .sec, .flt, .pw]⟩ d e := (Dev.holdStores_keeps ..).le.trans (Dev.bankRead_keeps ..).le
  clear_value e
  refine Keeps.ite (fun _ => k) fun _ => k.trans ?_
  clear_value m got l
  generalize e.bankAnswer m = q
  cases q with
  | none => exact Keeps.refl _ _
  | some q =>
    cases q
    · exact Keeps.ite (fun _ => (Dev.loaded_keeps ..).le.trans (Dev.answer_keeps ..).le) fun _ => Dev.reachLoad_keeps ..
    all_goals first | exact Keeps.refl _ _ | exact (Dev.loaded_keeps ..).le

theorem execBankRead_runs (t : Nat) (m : BankMaster) (a n : Nat) (w : BankWait) (pending : List ScStore) (s : State) :
    Runs ⟨true, [], [.sys, .tb, .pp, .sh, .cv, .ps, .be, .tm, .ch, .dr, .sc, .mb, .hi, .cn, .sec, .flt, .pw]⟩ t s (execBankRead t m a n w pending s) := by
  unfold execBankRead
  refine Runs.of fun d => ?_
  repeat' (first
    | with_reducible exact Keeps.refl _ _
    | decide +kernel
    | with_reducible assumption
    | lift_lets
    | (intro x; first | (refine Keeps.cut (d0 := d) (d1 := x) ?_ ?_; (on_goal 1 => subst x); (on_goal 2 => (intro _; clear_value x))) | subst x)
    | (apply Keeps.step; with_reducible apply Dev.bankRead_keeps)
    | (apply Keeps.step; with_reducible apply Dev.copyRead_keeps)
    | (with_reducible apply Keeps.ite <;> intro _)
    | split
    | beta_reduce)

theorem execBankWrite_runs (t : Nat) (m : BankMaster) (a n : Nat) (v : Word) (w : BankWait) (s : State) :
    Runs ⟨false, [F.MB_BANK_STAT_ue, F.MB_BANK_STAT_nonowner_wr, F.MB_BANK_STAT_ce_cnt, F.MB_BANK_STAT_ue_cnt, F.MB_BANK_STAT_nonowner_cnt, F.MB_UE_ADDR, F.MB_CONF_waits, F.MB_CONF_max_wait, F.FLT_STAT_lost, F.FLT_LOST], [.mb, .flt]⟩ t s (execBankWrite t m a n v w s) := by
  unfold execBankWrite
  refine Runs.of fun d => ?_
  repeat' (first
    | with_reducible exact Keeps.refl _ _
    | decide +kernel
    | (apply Keeps.step; with_reducible apply Dev.bankWrite_keeps)
    | (apply Keeps.step; with_reducible apply Dev.takeIssued_keeps)
    | (with_reducible apply Keeps.ite <;> intro _)
    | split)

theorem execBankHandover_runs (t : Nat) (b : Fin 16) (owner : Fin 8) (s : State) :
    Runs ⟨false, [F.FAB_WRITE_ERR, F.FAB_WRITE_ERR_more, F.FAB_WRITE_DATA, F.FAB_WRITE_CNT, F.MB_BANK_CTRL_owner, F.MB_BANK_CTRL_draining, F.MB_BANK_CTRL_status, F.MB_BANK_STAT_draining], [.mb]⟩ t s (execBankHandover t b owner s) := by
  unfold execBankHandover fromFirmware
  refine Runs.of fun d => ?_
  repeat' (first
    | with_reducible exact Keeps.refl _ _
    | decide +kernel
    | (apply Keeps.step; with_reducible apply Dev.handover_keeps)
    | (with_reducible apply Keeps.ite <;> intro _)
    | beta_reduce)

end Sys2Proof.Machine
end

