-- ==== Sys2Proof/Laws/Runs.lean ====
section
/-! SUPPORT. Every command at once: what its meaning keeps, from the law of each. -/

namespace Sys2Proof.Machine

set_option Elab.async false

/-- A command that does not renew the device answers a next state, touches nothing outside its footprint and keeps what effects
keep. -/
theorem exec_runs (c : Instr) (s : State) (h : c.renews = false) : Runs c.foot c.time s (exec c s) :=
  match c with
  | .registerWrite n0 n1 n2 n3 n4 => execRegisterWrite_runs n0 n1 n2 n3 n4 s
  | .lowHalfReadCapture n0 n1 n2 => execLowHalfReadCapture_runs n0 n1 n2 s
  | .sealRequest n0 n1 => execSealRequest_runs n0 n1 s
  | .sealComplete n0 => execSealComplete_runs n0 s
  | .unseal n0 n1 n2 => execUnseal_runs n0 n1 n2 s
  | .gtCapture n0 n1 => execGtCapture_runs n0 n1 s
  | .updatePoint n0 n1 => execUpdatePoint_runs n0 n1 s
  | .deadlineInstant n0 n1 => execDeadlineInstant_runs n0 n1 s
  | .samplingPlan n0 n1 => execSamplingPlan_runs n0 n1 s
  | .pgShadowWrite n0 => execPgShadowWrite_runs n0 s
  | .commitMark n0 => execCommitMark_runs n0 s
  | .scShadowWrite n0 n1 n2 n3 => execScShadowWrite_runs n0 n1 n2 n3 s
  | .scCommit n0 n1 n2 => execScCommit_runs n0 n1 n2 s
  | .stageStart n0 n1 => execStageStart_runs n0 n1 s
  | .stageStop n0 n1 => execStageStop_runs n0 n1 s
  | .compareMatch n0 n1 n2 => execCompareMatch_runs n0 n1 n2 s
  | .deadTimeExpiry n0 n1 n2 => execDeadTimeExpiry_runs n0 n1 n2 s
  | .triggerFire n0 n1 n2 => execTriggerFire_runs n0 n1 n2 s
  | .driverInputChange n0 n1 n2 n3 => execDriverInputChange_runs n0 n1 n2 n3 s
  | .gateEdgeStart n0 n1 n2 => execGateEdgeStart_runs n0 n1 n2 s
  | .plateauEntry n0 n1 n2 => execPlateauEntry_runs n0 n1 n2 s
  | .plateauExit n0 n1 n2 => execPlateauExit_runs n0 n1 n2 s
  | .segTimeout n0 n1 n2 => execSegTimeout_runs n0 n1 n2 s
  | .edgeComplete n0 n1 n2 => execEdgeComplete_runs n0 n1 n2 s
  | .uvlo n0 n1 n2 n3 => execUvlo_runs n0 n1 n2 n3 s
  | .gateMonitorCheck n0 n1 n2 n3 => execGateMonitorCheck_runs n0 n1 n2 n3 s
  | .gateMismatch n0 n1 n2 n3 => execGateMismatch_runs n0 n1 n2 n3 s
  | .linkDown n0 n1 => execLinkDown_runs n0 n1 s
  | .tripLaneDown n0 n1 => execTripLaneDown_runs n0 n1 s
  | .linkResume n0 n1 n2 n3 n4 => execLinkResume_runs n0 n1 n2 n3 n4 s
  | .supplyHigh n0 n1 n2 => execSupplyHigh_runs n0 n1 n2 s
  | .shuntConversionDone n0 n1 n2 n3 n4 => execShuntConversionDone_runs n0 n1 n2 n3 n4 s
  | .housekeepingStart n0 n1 => execHousekeepingStart_runs n0 n1 s
  | .housekeepingResult n0 n1 n2 => execHousekeepingResult_runs n0 n1 n2 s
  | .calOffset n0 n1 => execCalOffset_runs n0 n1 s
  | .calGain n0 n1 => execCalGain_runs n0 n1 s
  | .calBoth n0 n1 => execCalBoth_runs n0 n1 s
  | .calibrationDone n0 n1 n2 n3 n4 => execCalibrationDone_runs n0 n1 n2 n3 n4 s
  | .conversionDone n0 n1 n2 n3 => execConversionDone_runs n0 n1 n2 n3 s
  | .owSettleExpiry n0 n1 => execOwSettleExpiry_runs n0 n1 s
  | .cvPassStart n0 n1 => execCvPassStart_runs n0 n1 s
  | .urgentRequest n0 n1 n2 => execUrgentRequest_runs n0 n1 n2 s
  | .urgentConversionDone n0 n1 n2 => execUrgentConversionDone_runs n0 n1 n2 s
  | .comparatorCrossing n0 n1 n2 => execComparatorCrossing_runs n0 n1 n2 s
  | .filteredOutputChange n0 n1 n2 => execFilteredOutputChange_runs n0 n1 n2 s
  | .latchClear n0 n1 n2 n3 => execLatchClear_runs n0 n1 n2 n3 s
  | .edgeFlagEdge n0 n1 n2 => execEdgeFlagEdge_runs n0 n1 n2 s
  | .tripInChange n0 n1 n2 => execTripInChange_runs n0 n1 n2 s
  | .lowDelayExpiry n0 n1 => execLowDelayExpiry_runs n0 n1 s
  | .forceAct n0 n1 => execForceAct_runs n0 n1 s
  | .forceOff n0 n1 => execForceOff_runs n0 n1 s
  | .release n0 n1 => execRelease_runs n0 n1 s
  | .lineChange n0 n1 n2 n3 n4 => execLineChange_runs n0 n1 n2 n3 n4 s
  | .illWindowExpiry n0 n1 => execIllWindowExpiry_runs n0 n1 s
  | .broken n0 n1 n2 => execBroken_runs n0 n1 n2 s
  | .periodTimeout n0 n1 n2 => execPeriodTimeout_runs n0 n1 n2 s
  | .ssiStart n0 n1 => execSsiStart_runs n0 n1 s
  | .ssiFrameDone n0 n1 n2 => execSsiFrameDone_runs n0 n1 n2 s
  | .resolverEnvelope n0 n1 n2 n3 n4 n5 => execResolverEnvelope_runs n0 n1 n2 n3 n4 n5 s
  | .preset n0 n1 => execPreset_runs n0 n1 s
  | .observerUpdate n0 n1 => execObserverUpdate_runs n0 n1 s
  | .observerLatch n0 n1 => execObserverLatch_runs n0 n1 s
  | .compareArm n0 n1 n2 n3 => execCompareArm_runs n0 n1 n2 n3 s
  | .repeaterEdge n0 n1 => execRepeaterEdge_runs n0 n1 s
  | .recordArrival n0 n1 => execRecordArrival_runs n0 n1 s
  | .startLimitExpiry n0 n1 => execStartLimitExpiry_runs n0 n1 s
  | .load n0 n1 n2 n3 => execLoad_runs n0 n1 n2 n3 s
  | .store n0 n1 n2 => execStore_runs n0 n1 n2 s
  | .emit n0 n1 => execEmit_runs n0 n1 s
  | .sect n0 n1 => execSect_runs n0 n1 s
  | .casc n0 n1 => execCasc_runs n0 n1 s
  | .clarke n0 n1 => execClarke_runs n0 n1 s
  | .park n0 n1 => execPark_runs n0 n1 s
  | .ipark n0 n1 => execIpark_runs n0 n1 s
  | .svm n0 n1 => execSvm_runs n0 n1 s
  | .dial n0 n1 => execDial_runs n0 n1 s
  | .poise n0 n1 => execPoise_runs n0 n1 s
  | .lim n0 n1 => execLim_runs n0 n1 s
  | .sel n0 n1 => execSel_runs n0 n1 s
  | .cmp n0 n1 => execCmp_runs n0 n1 s
  | .recon n0 n1 => execRecon_runs n0 n1 s
  | .fusee n0 n1 => execFusee_runs n0 n1 s
  | .letdn n0 n1 => execLetdn_runs n0 n1 s
  | .plaus n0 n1 => execPlaus_runs n0 n1 s
  | .slack n0 n1 => execSlack_runs n0 n1 s
  | .engineStall n0 n1 => execEngineStall_runs n0 n1 s
  | .residueFail n0 n1 => execResidueFail_runs n0 n1 s
  | .declareDead n0 n1 => execDeclareDead_runs n0 n1 s
  | .takeover n0 n1 => execTakeover_runs n0 n1 s
  | .engineAdmit n0 n1 n2 => execEngineAdmit_runs n0 n1 n2 s
  | .engineSelfTestDone n0 n1 n2 => execEngineSelfTestDone_runs n0 n1 n2 s
  | .coeffSwapRequest n0 n1 n2 => execCoeffSwapRequest_runs n0 n1 n2 s
  | .slackMinRestart n0 n1 n2 => execSlackMinRestart_runs n0 n1 n2 s
  | .tmStart n0 n1 n2 => execTmStart_runs n0 n1 n2 s
  | .tmTarget n0 n1 n2 => execTmTarget_runs n0 n1 n2 s
  | .tmStop n0 n1 n2 => execTmStop_runs n0 n1 n2 s
  | .tmCatchDecision n0 n1 n2 => execTmCatchDecision_runs n0 n1 n2 s
  | .catchTimeExpiry n0 n1 => execCatchTimeExpiry_runs n0 n1 s
  | .prechargeExpiry n0 n1 => execPrechargeExpiry_runs n0 n1 s
  | .sequencerStageStart n0 n1 => execSequencerStageStart_runs n0 n1 s
  | .catchHoldDone n0 n1 => execCatchHoldDone_runs n0 n1 s
  | .reengage n0 n1 => execReengage_runs n0 n1 s
  | .speedRefresh n0 n1 => execSpeedRefresh_runs n0 n1 s
  | .tmSetLoss n0 n1 => execTmSetLoss_runs n0 n1 s
  | .chStart n0 n1 n2 => execChStart_runs n0 n1 n2 s
  | .chTarget n0 n1 n2 => execChTarget_runs n0 n1 n2 s
  | .chStop n0 n1 n2 => execChStop_runs n0 n1 n2 s
  | .pilotWindow n0 => execPilotWindow_runs n0 s
  | .pilotTimeout n0 => execPilotTimeout_runs n0 s
  | .pilotRefresh n0 => execPilotRefresh_runs n0 s
  | .chWaitDone n0 => execChWaitDone_runs n0 s
  | .chWaitTimeout n0 => execChWaitTimeout_runs n0 s
  | .stopTimeExpiry n0 => execStopTimeExpiry_runs n0 s
  | .gridLossTimeout n0 => execGridLossTimeout_runs n0 s
  | .chEventReaction n0 => execChEventReaction_runs n0 s
  | .lvStart n0 n1 n2 => execLvStart_runs n0 n1 n2 s
  | .lvTarget n0 n1 n2 => execLvTarget_runs n0 n1 n2 s
  | .lvStop n0 n1 n2 => execLvStop_runs n0 n1 n2 s
  | .lvSync n0 => execLvSync_runs n0 s
  | .lvStartTimeout n0 => execLvStartTimeout_runs n0 s
  | .lvStageLoss n0 => execLvStageLoss_runs n0 s
  | .drStart n0 n1 n2 => execDrStart_runs n0 n1 n2 s
  | .drTarget n0 n1 n2 => execDrTarget_runs n0 n1 n2 s
  | .drStop n0 n1 n2 => execDrStop_runs n0 n1 n2 s
  | .drLockTimeout n0 n1 => execDrLockTimeout_runs n0 n1 s
  | .drTargetReached n0 n1 => execDrTargetReached_runs n0 n1 s
  | .drMoveTimeout n0 n1 => execDrMoveTimeout_runs n0 n1 s
  | .drReengage n0 n1 => execDrReengage_runs n0 n1 s
  | .drMirrorUpdate n0 n1 => execDrMirrorUpdate_runs n0 n1 s
  | .drLoss n0 n1 => execDrLoss_runs n0 n1 s
  | .windowClose n0 n1 => execWindowClose_runs n0 n1 s
  | .lagTimeout n0 => execLagTimeout_runs n0 s
  | .scSelfTestDone n0 n1 n2 => execScSelfTestDone_runs n0 n1 n2 s
  | .agreedLoad n0 n1 n2 n3 => execAgreedLoad_runs n0 n1 n2 n3 s
  | .checkerFault n0 n1 => execCheckerFault_runs n0 n1 s
  | .transientPeriodExpiry n0 => execTransientPeriodExpiry_runs n0 s
  | .graceExpiry n0 => execGraceExpiry_runs n0 s
  | .injectionTestDone n0 n1 => execInjectionTestDone_runs n0 n1 s
  | .fwReady n0 => execFwReady_runs n0 s
  | .wdogService n0 n1 => execWdogService_runs n0 n1 s
  | .wdogExpiry n0 => execWdogExpiry_runs n0 s
  | .vqArrival n0 n1 n2 => execVqArrival_runs n0 n1 n2 s
  | .accept n0 n1 => execAccept_runs n0 n1 s
  | .refuse n0 n1 n2 => execRefuse_runs n0 n1 n2 s
  | .validationExpiry n0 n1 => execValidationExpiry_runs n0 n1 s
  | .kick n0 n1 => execKick_runs n0 n1 s
  | .continueStage n0 n1 => execContinue_runs n0 n1 s
  | .stopStage n0 n1 => execStop_runs n0 n1 s
  | .absenceExpiry n0 n1 => execAbsenceExpiry_runs n0 n1 s
  | .notifyTimeout n0 n1 => execNotifyTimeout_runs n0 n1 s
  | .bankRead n0 n1 n2 n3 n4 n5 => execBankRead_runs n0 n1 n2 n3 n4 n5 s
  | .bankWrite n0 n1 n2 n3 n4 n5 => execBankWrite_runs n0 n1 n2 n3 n4 n5 s
  | .scrubRead n0 n1 n2 => execScrubRead_runs n0 n1 n2 s
  | .bankHandover n0 n1 n2 => execBankHandover_runs n0 n1 n2 s
  | .drainComplete n0 n1 => execDrainComplete_runs n0 n1 s
  | .drainTimeout n0 n1 => execDrainTimeout_runs n0 n1 s
  | .confRestart n0 => execConfRestart_runs n0 s
  | .perst n0 n1 => execPerst_runs n0 n1 s
  | .hotReset n0 n1 => execHotReset_runs n0 n1 s
  | .functionLevelReset n0 n1 => execFunctionLevelReset_runs n0 n1 s
  | .doorbell n0 n1 n2 => execDoorbell_runs n0 n1 n2 s
  | .qpEnable n0 n1 n2 => execQpEnable_runs n0 n1 n2 s
  | .qpDisable n0 n1 => execQpDisable_runs n0 n1 s
  | .descriptorFetch n0 => execDescriptorFetch_runs n0 s
  | .descriptorReceive n0 n1 n2 n3 => execDescriptorReceive_runs n0 n1 n2 n3 s
  | .completionWrite n0 n1 => execCompletionWrite_runs n0 n1 s
  | .moderationTimeout n0 n1 => execModerationTimeout_runs n0 n1 s
  | .descriptorDeadline n0 n1 n2 n3 => execDescriptorDeadline_runs n0 n1 n2 n3 s
  | .hostError n0 n1 n2 => execHostError_runs n0 n1 n2 s
  | .nop n0 n1 n2 => execNop_runs n0 n1 n2 s
  | .fenceItem n0 n1 n2 => execFence_runs n0 n1 n2 s
  | .fenceComplete n0 n1 n2 => execFenceComplete_runs n0 n1 n2 s
  | .memWrite n0 n1 n2 n3 => execMemWrite_runs n0 n1 n2 n3 s
  | .memRead n0 n1 n2 n3 n4 => execMemRead_runs n0 n1 n2 n3 n4 s
  | .dataTransferDone n0 n1 n2 => execDataTransferDone_runs n0 n1 n2 s
  | .snapshot n0 n1 n2 => execSnapshot_runs n0 n1 n2 s
  | .admitUnit n0 n1 n2 n3 n4 n5 => execAdmit_runs n0 n1 n2 n3 n4 n5 s
  | .admitDone n0 n1 n2 n3 => execAdmitDone_runs n0 n1 n2 n3 s
  | .streamBuf n0 n1 n2 => execStreamBuf_runs n0 n1 n2 s
  | .recordWrite n0 n1 => execRecordWrite_runs n0 n1 s
  | .bufferFlush n0 n1 => execBufferFlush_runs n0 n1 s
  | .canTx n0 n1 n2 n3 => execCanTx_runs n0 n1 n2 n3 s
  | .canRxbuf n0 n1 n2 => execCanRxbuf_runs n0 n1 n2 s
  | .slotLoad n0 n1 => execSlotLoad_runs n0 n1 s
  | .frameTxEnd n0 n1 n2 n3 => execFrameTxEnd_runs n0 n1 n2 n3 s
  | .frameReceive n0 n1 n2 n3 => execFrameReceive_runs n0 n1 n2 n3 s
  | .integrationDone n0 n1 => execIntegrationDone_runs n0 n1 s
  | .recover n0 n1 n2 => execRecover_runs n0 n1 n2 s
  | .recoveryComplete n0 n1 => execRecoveryComplete_runs n0 n1 s
  | .flowStale n0 n1 => execFlowStale_runs n0 n1 s
  | .ttTrigger n0 n1 n2 => execTtTrigger_runs n0 n1 n2 s
  | .missedWindow n0 n1 n2 => execMissedWindow_runs n0 n1 n2 s
  | .ttReferenceSend n0 n1 n2 n3 => execTtReferenceSend_runs n0 n1 n2 n3 s
  | .listenEnd n0 n1 => execListenEnd_runs n0 n1 s
  | .masterLost n0 n1 => execMasterLost_runs n0 n1 s
  | .secureBoot n0 => execSecureBoot_runs n0 s
  | .bootSealRequest n0 => execBootSealRequest_runs n0 s
  | .identity n0 n1 => execIdentity_runs n0 n1 s
  | .attest n0 n1 n2 => execAttest_runs n0 n1 n2 s
  | .sessionOpen n0 n1 n2 => execSessionOpen_runs n0 n1 n2 s
  | .sessionClose n0 n1 => execSessionClose_runs n0 n1 s
  | .sessionExpiry n0 n1 => execSessionExpiry_runs n0 n1 s
  | .enroll n0 n1 n2 n3 => execEnroll_runs n0 n1 n2 n3 s
  | .revoke n0 n1 n2 n3 => execRevoke_runs n0 n1 n2 n3 s
  | .updateWrite n0 n1 n2 n3 => execUpdateWrite_runs n0 n1 n2 n3 s
  | .updateVerify n0 n1 => execUpdateVerify_runs n0 n1 s
  | .updateActivate n0 n1 n2 n3 => execUpdateActivate_runs n0 n1 n2 n3 s
  | .activateReset n0 => Bool.noConfusion h
  | .keyLoad n0 n1 n2 => execKeyLoad_runs n0 n1 n2 s
  | .keyErase n0 n1 n2 => execKeyErase_runs n0 n1 n2 s
  | .raiseCounter n0 n1 n2 n3 => execRaiseCounter_runs n0 n1 n2 n3 s
  | .ledgerRead n0 n1 => execLedgerRead_runs n0 n1 s
  | .lifetimeRead n0 n1 => execLifetimeRead_runs n0 n1 s
  | .uartFrame n0 n1 n2 n3 n4 => execUartFrame_runs n0 n1 n2 n3 n4 s
  | .freshnessJournal n0 n1 => execFreshnessJournal_runs n0 n1 s
  | .ledgerFlush n0 n1 n2 => execLedgerFlush_runs n0 n1 n2 s
  | .lifetimeRecord n0 n1 => execLifetimeRecord_runs n0 n1 s
  | .lifeAccumulate n0 => execLifeAccumulate_runs n0 s
  | .flashRefresh n0 n1 n2 => execFlashRefresh_runs n0 n1 n2 s
  | .fltFence n0 n1 n2 => execFltFence_runs n0 n1 n2 s
  | .fltSafe n0 n1 n2 => execFltSafe_runs n0 n1 n2 s
  | .islandLost n0 n1 => execIslandLost_runs n0 n1 s
  | .ledgerReport n0 n1 n2 n3 n4 n5 n6 => execLedgerReport_runs n0 n1 n2 n3 n4 n5 n6 s
  | .ledgerEntry n0 => execLedgerEntry_runs n0 s
  | .entryClose n0 n1 => execEntryClose_runs n0 n1 s
  | .slotCapture n0 n1 n2 n3 => execSlotCapture_runs n0 n1 n2 n3 s
  | .powerOnReset n0 => Bool.noConfusion h
  | .brownOutReset n0 => Bool.noConfusion h
  | .railReset n0 => Bool.noConfusion h
  | .resetN n0 => Bool.noConfusion h
  | .safeWdogExpiry n0 => Bool.noConfusion h
  | .coldBoot n0 n1 n2 n3 => Bool.noConfusion h
  | .vinHigh n0 n1 => execVinHigh_runs n0 n1 s
  | .speedMonitor n0 n1 n2 => execSpeedMonitor_runs n0 n1 n2 s
  | .vfabStep n0 n1 => execVfabStep_runs n0 n1 s
  | .fqiTcUpdate n0 => execFqiTcUpdate_runs n0 s
  | .sleepRequest n0 => execSleepRequest_runs n0 s
  | .wake n0 n1 n2 n3 n4 => Bool.noConfusion h
  | .tempReading n0 n1 n2 => execTempReading_runs n0 n1 n2 s
  | .tempCrossCheck n0 => execTempCrossCheck_runs n0 s
  | .brokenLiveClear n0 n1 n2 => execBrokenLiveClear_runs n0 n1 n2 s
  | .receiveError n0 n1 n2 => execReceiveError_runs n0 n1 n2 s
  | .pcieLinkUp n0 n1 => execPcieLinkUp_runs n0 n1 s
  | .sleepEntryDone n0 => execSleepEntryDone_runs n0 s

/-- What lasts through every command, the resets too. -/
structure Lasts (d0 d : Dev) : Prop where
  sound : d0.Sound → d.Sound
  counters : ∀ c, Tbl.get (fun _ => 0) d0.sec.counters c ≤ Tbl.get (fun _ => 0) d.sec.counters c
  enrolled : ∀ k v, Tbl.get (fun _ => none) d0.sec.enrolled k = some v → Tbl.get (fun _ => none) d.sec.enrolled k = some v

theorem Lasts.trans {d0 d1 d : Dev} (h : Lasts d0 d1) (k : Lasts d1 d) : Lasts d0 d :=
  ⟨fun x => k.sound (h.sound x), fun c => (h.counters c).trans (k.counters c), fun i v x => k.enrolled i v (h.enrolled i v x)⟩

theorem Keeps.lasts {w : Foot} {d0 d : Dev} (h : Keeps w d0 d) : Lasts d0 d :=
  ⟨fun x => ⟨by rw [h.time]; exact x.time, h.mem x.mem, h.regs x.regs, h.intake x.intake⟩, h.counters, h.enrolled⟩

theorem Lasts.refl (d : Dev) : Lasts d d := (Keeps.refl ⟨false, [], []⟩ d).lasts

/-- A command's instant arrives. -/
theorem Dev.arrive_lasts (d : Dev) (t : Nat) : Lasts d (d.arrive t) := by
  unfold Dev.arrive
  split
  · exact ⟨fun x => ⟨max_lt x.time (Nat.mod_lt _ (by decide)), x.mem, x.regs, x.intake⟩, fun _ => le_refl _, fun _ _ h => h⟩
  · exact Lasts.refl d

/-- Device time does not fall at a command's instant. -/
theorem Dev.arrive_time (d : Dev) (t : Nat) : d.time ≤ (d.arrive t).time := by
  unfold Dev.arrive
  split
  · exact le_max_left _ _
  · exact le_refl _

theorem Dev.keepAoi_keeps (n d : Dev) : Keeps ⟨true, [], [.flt]⟩ n (n.keepAoi d) := by
  unfold Dev.keepAoi
  simp only [List.foldl_cons, List.foldl_nil]
  exact ((((Dev.wr64_keeps _ _ _ _ _ (by decide +kernel) (by decide +kernel)).le.trans (Dev.markFenced_keeps ..).le).trans
    (Dev.wr_keeps _ _ _ _ (by decide +kernel)).le).trans (Dev.wr_keeps _ _ _ _ (by decide +kernel)).le).trans
    (Dev.wr_keeps _ _ _ _ (by decide +kernel)).le

theorem Dev.deviceReset_lasts (d : Dev) (cause : Nat) (aoi : Bool) : Lasts d (d.deviceReset cause aoi) := by
  unfold Dev.deviceReset
  extract_lets k n0 n1 n2 n3 n4
  have h0 : Lasts d n0 := ⟨fun _ => ⟨Nat.two_pow_pos 64, ⟨.nil, fun _ h => absurd h List.not_mem_nil⟩,
    ⟨.nil, fun _ h => absurd h List.not_mem_nil⟩, Nat.zero_le 64⟩, fun _ => le_refl _, fun _ _ h => h⟩
  have h1 : Keeps ⟨true, [], []⟩ n0 n1 := (Dev.wr_keeps _ _ _ _ (by decide +kernel)).le
  have h2 : Keeps ⟨true, [], []⟩ n1 n2 := (Dev.wr_keeps _ _ _ _ (by decide +kernel)).le
  have h3 : Keeps ⟨true, [], []⟩ n2 n3 := (Dev.wr_keeps _ _ _ _ (by decide +kernel)).le
  have h4 : Keeps ⟨true, [], []⟩ n3 n4 := (Dev.wr_keeps _ _ _ _ (by decide +kernel)).le
  clear_value n0 n1 n2 n3 n4
  have h5 : Keeps ⟨true, [], [.flt]⟩ n4 (if aoi = true then n4 else n4.keepAoi d) := Keeps.ite (fun _ => Keeps.refl _ _) fun _ => Dev.keepAoi_keeps ..
  exact h0.trans ((((h1.trans h2).trans h3).trans h4).lasts.trans h5.lasts)

theorem Dev.resetBy_lasts (d : Dev) (t cause : Nat) (aoi : Bool) : Lasts d (d.resetBy t cause aoi) := by
  unfold Dev.resetBy
  refine Lasts.trans ?_ (Dev.deviceReset_lasts ..)
  split
  · exact (Dev.countSlept_keeps ..).lasts
  · exact Lasts.refl d

/-- Setting device time keeps the form where the time fits. -/
theorem Dev.withTime_lasts (d : Dev) (t : Nat) (h : t < 2 ^ 64) : Lasts d (d.withTime t) :=
  ⟨fun x => ⟨h, x.mem, x.regs, x.intake⟩, fun _ => le_refl _, fun _ _ h => h⟩

theorem Dev.lasts_ite {d0 : Dev} {c : Prop} [Decidable c] {a b : Dev} (h : Lasts d0 a) (k : Lasts d0 b) : Lasts d0 (if c then a else b) := by
  split
  · exact h
  · exact k

/-- The commands that renew the device, too, keep what lasts. -/
theorem exec_lasts (c : Instr) (s : State) : ∃ d, exec c s = .next { s with toDev := d } ∧ Lasts s.toDev d := by
  by_cases h : c.renews = true
  · cases c <;> try exact Bool.noConfusion h
    case powerOnReset t => exact ⟨_, rfl, (Dev.arrive_lasts _ _).trans (Dev.resetBy_lasts ..)⟩
    case brownOutReset t => exact ⟨_, rfl, (Dev.arrive_lasts _ _).trans (Dev.resetBy_lasts ..)⟩
    case railReset t => exact ⟨_, rfl, (Dev.arrive_lasts _ _).trans (Dev.resetBy_lasts ..)⟩
    case resetN t => exact ⟨_, rfl, (Dev.arrive_lasts _ _).trans (Dev.resetBy_lasts ..)⟩
    case safeWdogExpiry t =>
      refine ⟨_, rfl, (Dev.arrive_lasts s.toDev t).trans ?_⟩
      dsimp only
      exact Dev.lasts_ite (Dev.lasts_ite (Dev.onPw_keeps ..).lasts (Dev.deviceReset_lasts ..)) (Lasts.refl _)
    case activateReset t =>
      refine ⟨_, rfl, (Dev.arrive_lasts s.toDev t).trans ?_⟩
      dsimp only
      split
      · refine Dev.lasts_ite (Lasts.trans ?_ (Dev.deviceReset_lasts ..)) (Lasts.refl _)
        split
        · exact (Dev.tick_keeps _).lasts.trans (Dev.journalAll_keeps _).lasts
        · exact (Dev.tick_keeps _).lasts
      · exact Lasts.refl _
    case coldBoot t vin vfab ext =>
      refine ⟨_, rfl, (Dev.arrive_lasts s.toDev t).trans ?_⟩
      beta_reduce
      refine Dev.lasts_ite ?_ (Lasts.refl _)
      extract_lets d1 d2 d3
      have h1 : Lasts (s.toDev.arrive t) d1 :=
        ((Dev.onPw_keeps ..).lasts.trans (Dev.withClockOn_keeps ..).lasts).trans (Dev.withTime_lasts _ _ (by decide))
      refine h1.trans ?_
      have h2 : Keeps ⟨true, [], []⟩ d1 d2 := (Dev.wr_keeps _ _ _ _ (by decide +kernel)).le.trans (Dev.wr_keeps _ _ _ _ (by decide +kernel)).le
      have h3 : Keeps ⟨true, [], []⟩ d2 d3 := (Dev.put_keeps _ _ _ _ (by decide +kernel)).le.trans (Dev.wr_keeps _ _ _ _ (by decide +kernel)).le
      exact (h2.trans (h3.trans (Dev.showSec_keeps _).le)).lasts
    case wake t e can perst slept =>
      refine ⟨_, rfl, (Dev.arrive_lasts s.toDev t).trans ?_⟩
      beta_reduce
      extract_lets pol w c wakes d1
      refine Dev.lasts_ite ?_ (Lasts.refl _)
      have h1 : Lasts (s.toDev.arrive t) d1 := (Dev.seeWake_keeps ..).lasts
      refine h1.trans (Dev.lasts_ite (Lasts.refl _) (Dev.lasts_ite ?_ (Dev.onPw_keeps ..).lasts))
      exact (Dev.withTime_lasts _ _ (Nat.mod_lt _ (by decide))).trans (Dev.wakeUp_keeps ..).lasts
  · obtain ⟨d, e, k⟩ := exec_runs c s (by simpa using h)
    exact ⟨d, e, (Dev.arrive_lasts _ _).trans k.lasts⟩

end Sys2Proof.Machine
end

