-- ==== Sys2Proof/Machine/Lands.lean ====
section
/-! DEFINITION. Lands (chapter 19): the number and the place of each land, what it carries, and the levels of the outputs that no
command brings. -/

namespace Sys2Proof.Machine

/-- What a land carries (R405, R407), by the name that chapter 19 gives it: the gates, sense lands and supplies of light ports and stages,
converter inputs, position ports (wire 0 to 7 in the order of R405), excitation, references, the digital lands, and per heavy stage or port
the lands of its cells. -/
inductive Land where
  | lhg (p : Nat) | lsw (p : Nat) | llg (p : Nat) | llk (p : Nat)
  | lsp (j : Nat) | lsn (j : Nat) | cpA | cpB | vgl | vao | vin | gnd
  | ain (i : Nat) | psWire (i wire : Nat) | resExcP (i : Nat) | resExcN (i : Nat) | vref (i : Nat) | agndRef (i : Nat)
  | pcie (wire : Nat) | perst | wake | clkreq | ospi (wire : Nat) | svcTx | svcRx | dbg (wire : Nat)
  | xtalIn | xtalOut | refClkIn | resetN | wakeIn (n : Nat) | safeOut (n : Nat) | tripIn (n : Nat) | alertN
  | epWire (wire : Nat) | vrep (i : Nat) | repGnd (i : Nat)
  | canTx (i : Nat) | canRx (i : Nat) | canMode (i : Nat) | canStb | vcan
  | hn (k : Nat) | sp (k : Nat) | sn (k : Nat) | dv (k : Nat) | pv (k : Nat) | tn (k : Nat) | vdrv (k : Nat)
  | lk (p : Nat) | lg (p : Nat) | guard (p : Nat) | hb (p : Nat) | hk (p : Nat) | hg (p : Nat)
  | reserved
  deriving DecidableEq, Repr

/-! ### The logic field (R404, R405) -/

/-- Row and column of a logic land. -/
def landRow (n : Nat) : Nat := n / 22
def landCol (n : Nat) : Nat := n % 22

/-- Place of a logic land in tenths of a millimetre from the centre, in bottom view (R404). -/
def logicPlace (n : Nat) : Int × Int := (10 * landCol n - 105, 105 - 10 * landRow n)

/-- The top band. -/
def topLand (n : Nat) : Land :=
  if n < 88 then
    let p := 42 + n / 4
    match n % 4 with
    | 0 => .lhg p
    | 1 => .lsw p
    | 2 => .llg p
    | _ => .llk p
  else if n < 102 then (if n % 2 = 0 then .lsp ((n - 88) / 2) else .lsn ((n - 88) / 2))
  else if n = 102 then .cpA
  else if n = 103 then .cpB
  else if n < 108 then .vgl
  else .vao

/-- The bottom band. -/
def bottomLand (n : Nat) : Land :=
  if n < 422 then .ain (n - 374)
  else if n < 470 then .psWire ((n - 422) / 8) ((n - 422) % 8)
  else if n < 474 then (if n % 2 = 0 then .resExcP ((n - 470) / 2) else .resExcN ((n - 470) / 2))
  else if n < 478 then (if n % 2 = 0 then .vref ((n - 474) / 2) else .agndRef ((n - 474) / 2))
  else .reserved

/-- The left band, by its ordinal. -/
def leftLand (k : Nat) : Land :=
  if k < 6 then .pcie k
  else if k < 9 then [Land.perst, .wake, .clkreq].getD (k - 6) .reserved
  else if k < 20 then .ospi (k - 9)
  else if k < 22 then [Land.svcTx, .svcRx].getD (k - 20) .reserved
  else if k < 27 then .dbg (k - 22)
  else if k < 31 then [Land.xtalIn, .xtalOut, .refClkIn, .resetN].getD (k - 27) .reserved
  else if k < 33 then .wakeIn (k - 31)
  else if k < 35 then .safeOut (k - 33)
  else if k < 39 then .tripIn (k - 35)
  else if k = 39 then .alertN
  else if k < 46 then .epWire (k - 40)
  else if k < 48 then .vrep (k - 46)
  else if k < 52 then .repGnd (k - 48)
  else .reserved

/-- The right band, by its ordinal. -/
def rightLand (k : Nat) : Land :=
  if k < 24 then
    match k % 3 with
    | 0 => .canTx (k / 3)
    | 1 => .canRx (k / 3)
    | _ => .canMode (k / 3)
  else if k = 24 then .canStb
  else if k = 25 then .vcan
  else .reserved

/-- What logic land n carries (R405). -/
def logicLand (n : Nat) : Land :=
  let r := landRow n
  let c := landCol n
  if r < 5 then topLand n
  else if 17 ≤ r then bottomLand n
  else if c < 5 then leftLand (5 * (r - 5) + c)
  else if 17 ≤ c then rightLand (5 * (r - 5) + (c - 17))
  else if [6, 9, 12, 15].contains r && [6, 8, 10, 12, 14, 16].contains c then .vin
  else .gnd

/-! ### The heavy terrace (R407, R408) -/

/-- The first port of a heavy stage, and the first land of its block (R407). -/
def firstPort (k : Nat) : Nat := if k < 13 then 3 * k else 40
def blockStart (k : Nat) : Nat := 484 + 8 * k + 10 * firstPort k

/-- What a land of the terrace carries: land j of the block of stage k. -/
def blockLand (k j : Nat) : Land :=
  if j < 8 then [Land.hn k, .hn k, .sp k, .sn k, .dv k, .pv k, .tn k, .vdrv k].getD j .reserved
  else
    let p := firstPort k + (j - 8) / 10
    [Land.lk p, .lk p, .lg p, .lg p, .guard p, .hb p, .hk p, .hk p, .hg p, .hg p].getD ((j - 8) % 10) .reserved

/-- The coordinate at which the block of a stage starts on its side, in tenths of a millimetre (R408). -/
def blockAt (k : Nat) : Int := if k < 12 then -205 + 110 * (k % 4 : Nat) else if k = 12 then -95 else 35

/-- Place of land j of the block of stage k in tenths of a millimetre from the centre (R408): cells 2.0 mm wide along the side, rows
1.2 mm apart. -/
def blockPlace (k j : Nat) : Int × Int :=
  let cell : Nat := if j < 8 then 0 else 1 + (j - 8) / 10
  let i : Nat := if j < 8 then j else (j - 8) % 10
  let u : Int := blockAt k + 20 * cell + 5 + 10 * (i % 2 : Nat)
  let v : Int := 260 + 12 * (i / 2 : Nat)
  if k < 4 then (u, v) else if k < 8 then (v, -u) else if k < 12 then (-u, -v) else (-v, u)

/-! ### Output levels -/

/-- The level of SAFE_OUT[0]: high in device safe state, and from the start of a reset until the device leaves BOOT; SAFE_OUT[1] is its
complement, from its own path (R374). -/
def Dev.safeOutPin (d : Dev) (n : Nat) : Bool :=
  let held := d.devState == DevSt.boot || d.devState == DevSt.safe
  if n = 0 then held else !held

/-- The level of ALERT_N: low while FLT_STAT.alert is set (R379). -/
def Dev.alertPin (d : Dev) : Bool := !d.flag F.FLT_STAT_alert 0

/-- The level of WAKE: driven low from a wake by another source than PERST until the link is up (R394). -/
def Dev.wakePin (d : Dev) : Bool := !d.pw.wakeDriven

end Sys2Proof.Machine
end

