-- ==== Sys2Proof/Tests/Slice0.lean ====
section
/-! SUPPORT. Tests: ill-formed commands that the check refuses, single steps on small states, and for every obligation with hypotheses a
state and operands that meet them. -/

open Sys2Proof Sys2Proof.Machine

namespace Sys2Proof.Tests

set_option Elab.async false

open Sys2Proof.Machine

/-- The device after reset, and a state about a device. -/
def d0 : Dev := State.reset.toDev
def st (d : Dev) : State := State.reset.put d

/-- Several registers fields written at once. -/
def wrs (d : Dev) (l : List (Fd × Nat × Nat)) : Dev := l.foldl (fun d x => d.wr x.1 x.2.1 x.2.2) d

/-- A device whose safety controller executes in DUPLEX. -/
def dFw : Dev := wrs d0 [(F.SC_STAT_mode, 0, 2)]

/-- A window over the first 16 MiB of host memory that permits reads and writes. -/
def hostWin : List (Fd × Nat × Nat) :=
  [(F.HI_WIN_CFG_enable, 0, 1), (F.HI_WIN_CFG_dev_read, 0, 1), (F.HI_WIN_CFG_dev_write, 0, 1), (F.HI_WIN_SIZE_pages, 0, 4096)]

/-- The device after a command that answers a next state. -/
def run' (c : Instr) (s : State) : Dev := match exec c s with | .next t => t.toDev | _ => s.toDev

/-- Queue pair 5 holding descriptor x at ring index 3 in a phase. -/
def dItem (ph : Phase) (x : Descr) (d : Dev) : Dev := d.setQp 5 { items := [{ index := 3, desc := some x, phase := ph }] }

theorem stands (d : Dev) (x : Descr) (ph : Phase) (t : Nat) : (State.now (st (dItem ph x d)) t).standing 5 3 ph x := by
  have h : (State.now (st (dItem ph x d)) t).qp 5 = { items := [{ index := 3, desc := some x, phase := ph }] } := by
    have g : (dItem ph x d).qp 5 = { items := [{ index := 3, desc := some x, phase := ph }] } := by
      simp [dItem, Dev.qp, Dev.setQp, Dev.withHi]
    rw [← g]
    unfold State.now Dev.arrive
    split <;> rfl
  refine ⟨{ index := 3, desc := some x, phase := ph }, ?_, rfl, rfl, ?_, ?_⟩ <;> rw [h]
  · rfl
  · right; cases hb : isSerial x <;> rfl

/-- The device after a command. -/
def run (c : Instr) (s : State) : Dev :=
  match exec c s with
  | .next t => t.toDev
  | _ => s.toDev

/-! ### Ill-formed commands -/

def tooLate : Nat := 2 ^ 64
def tooLong : List Byte := List.replicate 65536 0
def okDescr : Descr := { opcode := 1 }
def ones : List Int := List.replicate 16 1
def okRun : ScRun := { copyA := true }
def okTest : AdmitTest := { pass := true }
def okBytes : MemBytes := { bytes := [] }
def okAttempt : TxAttempt := { ended := .ok }
def okFlash : FlashInput := { data := [] }
def okUart : UartInput := { start := 0xA5, length := 0, payload := [] }
def okSense : PlateauSense := { hi := true, first := 0, slope := 0, mv := 0 }
def okGate : GateSense := { hi := true, mv := 0 }
def okLevel : HeldLevel := { level := true, since := 0 }
def okSign : BreakSign := { cause := 0, x := 0 }
def okHeld : HeldSign := { sign := okSign, since := 0 }
def okHalf : HalfPeriod := { second := true, stamp := 0 }
def okEdges : WakeEdges := { rise := 0, fall := 0 }
def okStore : ScStore := { place := .bank 0, data := 0, mask := 15, parity := 0 }
def okFrame : CanFrame := { format := 1, ident := 9, data := [] }

/-- Each check of an operand refuses an operand that breaks it. -/
theorem test_illFormed_1 : ∀ c ∈ ([
    .registerWrite 0 .host 2097152 4 0, .registerWrite 0 .host 0 3 0, .lowHalfReadCapture 0 .host 2097152, .unseal 0 65536 [],
    .unseal 0 0 tooLong, .gtCapture 0 tooLate, .driverInputChange 0 0 65536 0, .driverInputChange 0 0 0 65536,
    .plateauEntry 0 0 { okSense with first := 4294967296 }, .plateauEntry 0 0 { okSense with slope := 4294967296 },
    .plateauEntry 0 0 { okSense with mv := 32768 }, .plateauEntry 0 0 { okSense with mv := -32769 },
    .plateauExit 0 0 { okGate with mv := 32768 }, .plateauExit 0 0 { okGate with mv := -32769 },
    .edgeComplete 0 0 { okGate with mv := 32768 }, .edgeComplete 0 0 { okGate with mv := -32769 }, .uvlo 0 0 true 65536,
    .gateMonitorCheck 0 0 true 32768, .gateMonitorCheck 0 0 true (-32769), .gateMismatch 0 0 true 32768,
    .gateMismatch 0 0 true (-32769), .linkResume 0 0 true 65536 0, .linkResume 0 0 true 0 65536, .supplyHigh 0 0 65536,
    .shuntConversionDone 0 0 true 32768 0, .shuntConversionDone 0 0 true (-32769) 0, .shuntConversionDone 0 0 true 0 4294967296,
    .housekeepingResult 0 0 65536, .calibrationDone 0 0 2147483648 0 0, .calibrationDone 0 0 (-2147483649) 0 0,
    .calibrationDone 0 0 0 2147483648 0, .calibrationDone 0 0 0 (-2147483649) 0, .calibrationDone 0 0 0 0 2147483648,
    .calibrationDone 0 0 0 0 (-2147483649), .conversionDone 0 0 65536 0, .conversionDone 0 0 0 tooLate,
    .urgentConversionDone 0 0 65536, .comparatorCrossing 0 (.wm 0) 2147483648, .comparatorCrossing 0 (.wm 0) (-2147483649),
    .edgeFlagEdge 0 0 2147483648] : List Instr), c.wellFormed = false := by decide +kernel

/-- Each check of an operand refuses an operand that breaks it. -/
theorem test_illFormed_2 : ∀ c ∈ ([
    .edgeFlagEdge 0 0 (-2147483649), .tripInChange 0 0 { okLevel with since := tooLate }, .lineChange 0 0 { ap := 32768 } 0 0,
    .lineChange 0 0 { an := 32768 } 0 0, .lineChange 0 0 { bp := 32768 } 0 0, .lineChange 0 0 { bn := 32768 } 0 0,
    .lineChange 0 0 { zp := 32768 } 0 0, .lineChange 0 0 { zn := 32768 } 0 0, .lineChange 0 0 { x := 32768 } 0 0,
    .lineChange 0 0 { y := 32768 } 0 0, .lineChange 0 0 {} tooLate 0, .lineChange 0 0 {} 0 tooLate,
    .broken 0 0 { okHeld with sign.x := 2147483648 }, .broken 0 0 { okHeld with sign.x := -2147483649 },
    .broken 0 0 { okHeld with since := tooLate }, .ssiFrameDone 0 0 tooLate, .resolverEnvelope 0 0 [] ones okHalf 0,
    .resolverEnvelope 0 0 (List.replicate 16 32768) ones okHalf 0, .resolverEnvelope 0 0 ones [] okHalf 0,
    .resolverEnvelope 0 0 ones (List.replicate 16 32768) okHalf 0, .resolverEnvelope 0 0 ones ones { okHalf with stamp := tooLate } 0,
    .resolverEnvelope 0 0 ones ones okHalf 4294967296, .recordArrival 0 65536, .load 0 0 {} 65536,
    .store 0 0 { ({} : BankWait) with wait := 65536 }, .engineAdmit 0 0 65536, .tmStart 0 0 65536, .tmTarget 0 0 65536,
    .tmStop 0 0 65536, .tmCatchDecision 0 0 [], .chStart 0 0 65536, .chTarget 0 0 65536, .chStop 0 0 65536, .lvStart 0 0 65536,
    .lvTarget 0 0 65536, .lvStop 0 0 65536, .drStart 0 0 65536, .drTarget 0 0 65536, .drStop 0 0 65536,
    .windowClose 0 { okRun with own := some { retired := [{ results := [.store okStore, .store okStore] }], pc := 0 } }] : List Instr), c.wellFormed = false := by decide +kernel

/-- Each check of an operand refuses an operand that breaks it. -/
theorem test_illFormed_3 : ∀ c ∈ ([
    .windowClose 0 { okRun with own := some { retired := [{ results := [.store { okStore with mask := 5 }] }], pc := 0 } },
    .windowClose 0 { okRun with waits := [{ wait := 65536 }] }, .agreedLoad 0 true (.bank 0) { bytes := 3 },
    .agreedLoad 0 true (.bank 0) { ({} : PathErr) with turn.wait := 65536 }, .vqArrival 0 0 65536, .bankRead 0 .copyA 0 5 {} [],
    .bankRead 0 .copyA 0x7FFFFD 4 {} [], .bankRead 0 .copyA 0 4 { ({} : BankWait) with wait := 65536 } [],
    .bankRead 0 .copyA 0 4 {} [{ okStore with mask := 5 }], .bankWrite 0 .copyA 0 5 0 {}, .bankWrite 0 .copyA 0x7FFFFD 4 0 {},
    .bankWrite 0 .copyA 0 4 0 { ({} : BankWait) with wait := 65536 }, .descriptorReceive 0 0 65536 okDescr,
    .descriptorReceive 0 0 0 { okDescr with opcode := 2 ^ 8 }, .descriptorReceive 0 0 0 { okDescr with flags := 2 ^ 8 },
    .descriptorReceive 0 0 0 { okDescr with target := 2 ^ 16 }, .descriptorReceive 0 0 0 { okDescr with length := 2 ^ 16 },
    .descriptorReceive 0 0 0 { okDescr with sequence := 2 ^ 16 }, .descriptorReceive 0 0 0 { okDescr with deadline := 2 ^ 32 },
    .descriptorReceive 0 0 0 { okDescr with param1 := 2 ^ 32 }, .descriptorReceive 0 0 0 { okDescr with address := 2 ^ 64 },
    .descriptorReceive 0 0 0 { okDescr with param2 := 2 ^ 64 }, .descriptorDeadline 0 0 65536 true, .nop 0 0 65536,
    .fenceItem 0 0 65536, .fenceComplete 0 0 65536, .memWrite 0 0 65536 okBytes, .memWrite 0 0 0 { okBytes with bytes := tooLong },
    .memWrite 0 0 0 { okBytes with wait.wait := 65536 }, .memRead 0 0 65536 0 {}, .memRead 0 0 0 65536 {},
    .memRead 0 0 0 0 { ({} : BankWait) with wait := 65536 }, .dataTransferDone 0 0 65536, .snapshot 0 0 65536,
    .admitUnit 0 0 65536 0 0 true, .admitUnit 0 0 0 65536 0 true, .admitUnit 0 0 0 0 65536 true, .admitDone 0 0 65536 okTest,
    .admitDone 0 0 0 { okTest with hiMv := 65536 }, .admitDone 0 0 0 { okTest with loMv := 65536 }] : List Instr), c.wellFormed = false := by decide +kernel

/-- Each check of an operand refuses an operand that breaks it. -/
theorem test_illFormed_4 : ∀ c ∈ ([
    .admitDone 0 0 0 { okTest with lo := 16384 }, .admitDone 0 0 0 { okTest with hi := 16384 },
    .admitDone 0 0 0 { okTest with half := 65536 }, .admitDone 0 0 0 { okTest with gnd := 65536 },
    .admitDone 0 0 0 { okTest with temp := 2 ^ 31 }, .streamBuf 0 0 65536, .canTx 0 0 65536 [], .canTx 0 0 0 tooLong,
    .canRxbuf 0 0 65536, .frameTxEnd 0 0 { okAttempt with flags := 256 } 0, .frameTxEnd 0 0 okAttempt tooLate,
    .frameReceive 0 0 { okFrame with format := 0 } 0, .frameReceive 0 0 { okFrame with format := 4 } 0,
    .frameReceive 0 0 { okFrame with ident := 2 ^ 29 } 0, .frameReceive 0 0 { okFrame with asked := 16 } 0,
    .frameReceive 0 0 { okFrame with sdt := 256 } 0, .frameReceive 0 0 { okFrame with vcid := 256 } 0,
    .frameReceive 0 0 { okFrame with af := 2 ^ 32 } 0, .frameReceive 0 0 { okFrame with data := List.replicate 2049 0 } 0,
    .frameReceive 0 0 okFrame tooLate, .ttReferenceSend 0 0 { okAttempt with flags := 256 } 0, .ttReferenceSend 0 0 okAttempt tooLate,
    .identity 0 65536, .attest 0 65536 [], .attest 0 0 tooLong, .sessionOpen 0 65536 [], .sessionOpen 0 0 tooLong,
    .sessionClose 0 65536, .enroll 0 65536 [] 0, .enroll 0 0 tooLong 0, .enroll 0 0 [] 1024, .revoke 0 65536 [] 0,
    .revoke 0 0 tooLong 0, .revoke 0 0 [] 1024, .updateWrite 0 65536 [] true, .updateWrite 0 0 tooLong true, .updateVerify 0 65536,
    .updateActivate 0 65536 [] { blown := 0 }, .updateActivate 0 0 tooLong { blown := 0 },
    .updateActivate 0 0 [] { ({ blown := 0 } : BurnInput) with blown := 1024 }] : List Instr), c.wellFormed = false := by decide +kernel

/-- Each check of an operand refuses an operand that breaks it. -/
theorem test_illFormed_5 : ∀ c ∈ ([
    .keyLoad 0 65536 okFlash, .keyLoad 0 0 { okFlash with data := tooLong }, .keyErase 0 65536 okFlash,
    .keyErase 0 0 { okFlash with data := tooLong }, .raiseCounter 0 65536 [] 0, .raiseCounter 0 0 tooLong 0, .raiseCounter 0 0 [] 1024,
    .ledgerRead 0 65536, .lifetimeRead 0 65536, .uartFrame 0 { okUart with length := 65536 } 0 0 true,
    .uartFrame 0 { okUart with payload := tooLong } 0 0 true, .uartFrame 0 okUart 0 1024 true, .flashRefresh 0 256 { done := true },
    .coldBoot 0 65536 0 {}, .coldBoot 0 0 65536 {}, .vinHigh 0 65536, .wake 0 okEdges 0 true tooLate,
    .brokenLiveClear 0 0 { okSign with x := 2147483648 }, .brokenLiveClear 0 0 { okSign with x := -2147483649 }] : List Instr), c.wellFormed = false := by decide +kernel

/-- Every command is refused at an instant beyond 64 bits. -/
theorem test_illInstant_1 : ∀ c ∈ ([
    .registerWrite tooLate .host 0 4 0, .lowHalfReadCapture tooLate .host 0, .sealRequest tooLate .host, .sealComplete tooLate,
    .unseal tooLate 0 [], .gtCapture tooLate 0, .updatePoint tooLate 0, .deadlineInstant tooLate 0, .samplingPlan tooLate 0,
    .pgShadowWrite tooLate, .commitMark tooLate, .scShadowWrite tooLate 0 true 0, .scCommit tooLate 0 0, .stageStart tooLate 0,
    .stageStop tooLate 0, .compareMatch tooLate 0 0, .deadTimeExpiry tooLate 0 0, .triggerFire tooLate 0 0,
    .driverInputChange tooLate 0 0 0, .gateEdgeStart tooLate 0 true, .plateauEntry tooLate 0 okSense, .plateauExit tooLate 0 okGate,
    .segTimeout tooLate 0 true, .edgeComplete tooLate 0 okGate, .uvlo tooLate 0 true 0, .gateMonitorCheck tooLate 0 true 0,
    .gateMismatch tooLate 0 true 0, .linkDown tooLate 0, .tripLaneDown tooLate 0, .linkResume tooLate 0 true 0 0,
    .supplyHigh tooLate 0 0, .shuntConversionDone tooLate 0 true 0 0, .housekeepingStart tooLate 0, .housekeepingResult tooLate 0 0,
    .calOffset tooLate 0, .calGain tooLate 0, .calBoth tooLate 0, .calibrationDone tooLate 0 0 0 0, .conversionDone tooLate 0 0 0,
    .owSettleExpiry tooLate 0] : List Instr), c.wellFormed = false := by decide +kernel

/-- Every command is refused at an instant beyond 64 bits. -/
theorem test_illInstant_2 : ∀ c ∈ ([
    .cvPassStart tooLate 0, .urgentRequest tooLate 0 0, .urgentConversionDone tooLate 0 0, .comparatorCrossing tooLate (.wm 0) 0,
    .filteredOutputChange tooLate (.wm 0) true, .latchClear tooLate (.wm 0) true true, .edgeFlagEdge tooLate 0 0,
    .tripInChange tooLate 0 okLevel, .lowDelayExpiry tooLate 0, .forceAct tooLate 0, .forceOff tooLate 0, .release tooLate 0,
    .lineChange tooLate 0 {} 0 0, .illWindowExpiry tooLate 0, .broken tooLate 0 okHeld, .periodTimeout tooLate 0 true,
    .ssiStart tooLate 0, .ssiFrameDone tooLate 0 0, .resolverEnvelope tooLate 0 ones ones okHalf 0, .preset tooLate 0,
    .observerUpdate tooLate 0, .observerLatch tooLate 0, .compareArm tooLate 0 0 0, .repeaterEdge tooLate 0, .recordArrival tooLate 0,
    .startLimitExpiry tooLate 0, .load tooLate 0 {} 0, .store tooLate 0 {}, .emit tooLate 0, .sect tooLate 0, .casc tooLate 0,
    .clarke tooLate 0, .park tooLate 0, .ipark tooLate 0, .svm tooLate 0, .dial tooLate 0, .poise tooLate 0, .lim tooLate 0,
    .sel tooLate 0, .cmp tooLate 0] : List Instr), c.wellFormed = false := by decide +kernel

/-- Every command is refused at an instant beyond 64 bits. -/
theorem test_illInstant_3 : ∀ c ∈ ([
    .recon tooLate 0, .fusee tooLate 0, .letdn tooLate 0, .plaus tooLate 0, .slack tooLate 0, .engineStall tooLate 0,
    .residueFail tooLate 0, .declareDead tooLate 0, .takeover tooLate 0, .engineAdmit tooLate 0 0, .engineSelfTestDone tooLate 0 true,
    .coeffSwapRequest tooLate 0 0, .slackMinRestart tooLate .host 0, .tmStart tooLate 0 0, .tmTarget tooLate 0 0, .tmStop tooLate 0 0,
    .tmCatchDecision tooLate 0 (List.replicate 12 0), .catchTimeExpiry tooLate 0, .prechargeExpiry tooLate 0,
    .sequencerStageStart tooLate 0, .catchHoldDone tooLate 0, .reengage tooLate 0, .speedRefresh tooLate 0, .tmSetLoss tooLate 0,
    .chStart tooLate 0 0, .chTarget tooLate 0 0, .chStop tooLate 0 0, .pilotWindow tooLate, .pilotTimeout tooLate,
    .pilotRefresh tooLate, .chWaitDone tooLate, .chWaitTimeout tooLate, .stopTimeExpiry tooLate, .gridLossTimeout tooLate,
    .chEventReaction tooLate, .lvStart tooLate 0 0, .lvTarget tooLate 0 0, .lvStop tooLate 0 0, .lvSync tooLate,
    .lvStartTimeout tooLate] : List Instr), c.wellFormed = false := by decide +kernel

/-- Every command is refused at an instant beyond 64 bits. -/
theorem test_illInstant_4 : ∀ c ∈ ([
    .lvStageLoss tooLate, .drStart tooLate 0 0, .drTarget tooLate 0 0, .drStop tooLate 0 0, .drLockTimeout tooLate 0,
    .drTargetReached tooLate 0, .drMoveTimeout tooLate 0, .drReengage tooLate 0, .drMirrorUpdate tooLate 0, .drLoss tooLate 0,
    .windowClose tooLate okRun, .lagTimeout tooLate, .scSelfTestDone tooLate true true, .agreedLoad tooLate true (.bank 0) {},
    .checkerFault tooLate 0, .transientPeriodExpiry tooLate, .graceExpiry tooLate, .injectionTestDone tooLate 0, .fwReady tooLate,
    .wdogService tooLate 0, .wdogExpiry tooLate, .vqArrival tooLate 0 0, .accept tooLate 0, .refuse tooLate 0 0,
    .validationExpiry tooLate 0, .kick tooLate 0, .continueStage tooLate 0, .stopStage tooLate 0, .absenceExpiry tooLate 0,
    .notifyTimeout tooLate 0, .bankRead tooLate .copyA 0 4 {} [], .bankWrite tooLate .copyA 0 4 0 {}, .scrubRead tooLate 0 {},
    .bankHandover tooLate 0 0, .drainComplete tooLate 0, .drainTimeout tooLate 0, .confRestart tooLate, .perst tooLate true,
    .hotReset tooLate true, .functionLevelReset tooLate true] : List Instr), c.wellFormed = false := by decide +kernel

/-- Every command is refused at an instant beyond 64 bits. -/
theorem test_illInstant_5 : ∀ c ∈ ([
    .doorbell tooLate 0 0, .qpEnable tooLate .host 0, .qpDisable tooLate 0, .descriptorFetch tooLate,
    .descriptorReceive tooLate 0 0 okDescr, .completionWrite tooLate 0, .moderationTimeout tooLate 0,
    .descriptorDeadline tooLate 0 0 true, .hostError tooLate 0 0, .nop tooLate 0 0, .fenceItem tooLate 0 0, .fenceComplete tooLate 0 0,
    .memWrite tooLate 0 0 okBytes, .memRead tooLate 0 0 0 {}, .dataTransferDone tooLate 0 0, .snapshot tooLate 0 0,
    .admitUnit tooLate 0 0 0 0 true, .admitDone tooLate 0 0 okTest, .streamBuf tooLate 0 0, .recordWrite tooLate 0,
    .bufferFlush tooLate 0, .canTx tooLate 0 0 [], .canRxbuf tooLate 0 0, .slotLoad tooLate 0, .frameTxEnd tooLate 0 okAttempt 0,
    .frameReceive tooLate 0 okFrame 0, .integrationDone tooLate 0, .recover tooLate .host 0, .recoveryComplete tooLate 0,
    .flowStale tooLate 0, .ttTrigger tooLate 0 0, .missedWindow tooLate 0 0, .ttReferenceSend tooLate 0 okAttempt 0,
    .listenEnd tooLate 0, .masterLost tooLate 0, .secureBoot tooLate, .bootSealRequest tooLate, .identity tooLate 0,
    .attest tooLate 0 [], .sessionOpen tooLate 0 []] : List Instr), c.wellFormed = false := by decide +kernel

/-- Every command is refused at an instant beyond 64 bits. -/
theorem test_illInstant_6 : ∀ c ∈ ([
    .sessionClose tooLate 0, .sessionExpiry tooLate true, .enroll tooLate 0 [] 0, .revoke tooLate 0 [] 0,
    .updateWrite tooLate 0 [] true, .updateVerify tooLate 0, .updateActivate tooLate 0 [] { blown := 0 }, .activateReset tooLate,
    .keyLoad tooLate 0 okFlash, .keyErase tooLate 0 okFlash, .raiseCounter tooLate 0 [] 0, .ledgerRead tooLate 0,
    .lifetimeRead tooLate 0, .uartFrame tooLate okUart 0 0 true, .freshnessJournal tooLate { flow := 0 }, .ledgerFlush tooLate 0 true,
    .lifetimeRecord tooLate true, .lifeAccumulate tooLate, .flashRefresh tooLate 0 { done := true }, .fltFence tooLate 0 0,
    .fltSafe tooLate 0 0, .islandLost tooLate 0, .ledgerReport tooLate 0 0 0 0 0 0, .ledgerEntry tooLate, .entryClose tooLate 0,
    .slotCapture tooLate .host 0 0, .powerOnReset tooLate, .brownOutReset tooLate, .railReset tooLate, .resetN tooLate,
    .safeWdogExpiry tooLate, .coldBoot tooLate 0 0 {}, .vinHigh tooLate 0, .speedMonitor tooLate 0 0, .vfabStep tooLate true,
    .fqiTcUpdate tooLate, .sleepRequest tooLate, .wake tooLate okEdges 0 true 0, .tempReading tooLate 0 0, .tempCrossCheck tooLate] : List Instr), c.wellFormed = false := by decide +kernel

/-- Every command is refused at an instant beyond 64 bits. -/
theorem test_illInstant_7 : ∀ c ∈ ([
    .brokenLiveClear tooLate 0 okSign, .receiveError tooLate 0 .one, .pcieLinkUp tooLate .l1, .sleepEntryDone tooLate] : List Instr), c.wellFormed = false := by decide +kernel

/-- With every operand in its place the command is well formed. -/
theorem test_wellFormed_1 : ∀ c ∈ ([
    .registerWrite 0 .host 0 4 0, .lowHalfReadCapture 0 .host 0, .sealRequest 0 .host, .sealComplete 0, .unseal 0 0 [], .gtCapture 0 0,
    .updatePoint 0 0, .deadlineInstant 0 0, .samplingPlan 0 0, .pgShadowWrite 0, .commitMark 0, .scShadowWrite 0 0 true 0,
    .scCommit 0 0 0, .stageStart 0 0, .stageStop 0 0, .compareMatch 0 0 0, .deadTimeExpiry 0 0 0, .triggerFire 0 0 0,
    .driverInputChange 0 0 0 0, .gateEdgeStart 0 0 true, .plateauEntry 0 0 okSense, .plateauExit 0 0 okGate, .segTimeout 0 0 true,
    .edgeComplete 0 0 okGate, .uvlo 0 0 true 0, .gateMonitorCheck 0 0 true 0, .gateMismatch 0 0 true 0, .linkDown 0 0,
    .tripLaneDown 0 0, .linkResume 0 0 true 0 0, .supplyHigh 0 0 0, .shuntConversionDone 0 0 true 0 0, .housekeepingStart 0 0,
    .housekeepingResult 0 0 0, .calOffset 0 0, .calGain 0 0, .calBoth 0 0, .calibrationDone 0 0 0 0 0, .conversionDone 0 0 0 0,
    .owSettleExpiry 0 0] : List Instr), c.wellFormed = true := by decide +kernel

/-- With every operand in its place the command is well formed. -/
theorem test_wellFormed_2 : ∀ c ∈ ([
    .cvPassStart 0 0, .urgentRequest 0 0 0, .urgentConversionDone 0 0 0, .comparatorCrossing 0 (.wm 0) 0,
    .filteredOutputChange 0 (.wm 0) true, .latchClear 0 (.wm 0) true true, .edgeFlagEdge 0 0 0, .tripInChange 0 0 okLevel,
    .lowDelayExpiry 0 0, .forceAct 0 0, .forceOff 0 0, .release 0 0, .lineChange 0 0 {} 0 0, .illWindowExpiry 0 0, .broken 0 0 okHeld,
    .periodTimeout 0 0 true, .ssiStart 0 0, .ssiFrameDone 0 0 0, .resolverEnvelope 0 0 ones ones okHalf 0, .preset 0 0,
    .observerUpdate 0 0, .observerLatch 0 0, .compareArm 0 0 0 0, .repeaterEdge 0 0, .recordArrival 0 0, .startLimitExpiry 0 0,
    .load 0 0 {} 0, .store 0 0 {}, .emit 0 0, .sect 0 0, .casc 0 0, .clarke 0 0, .park 0 0, .ipark 0 0, .svm 0 0, .dial 0 0,
    .poise 0 0, .lim 0 0, .sel 0 0, .cmp 0 0] : List Instr), c.wellFormed = true := by decide +kernel

/-- With every operand in its place the command is well formed. -/
theorem test_wellFormed_3 : ∀ c ∈ ([
    .recon 0 0, .fusee 0 0, .letdn 0 0, .plaus 0 0, .slack 0 0, .engineStall 0 0, .residueFail 0 0, .declareDead 0 0, .takeover 0 0,
    .engineAdmit 0 0 0, .engineSelfTestDone 0 0 true, .coeffSwapRequest 0 0 0, .slackMinRestart 0 .host 0, .tmStart 0 0 0,
    .tmTarget 0 0 0, .tmStop 0 0 0, .tmCatchDecision 0 0 (List.replicate 12 0), .catchTimeExpiry 0 0, .prechargeExpiry 0 0,
    .sequencerStageStart 0 0, .catchHoldDone 0 0, .reengage 0 0, .speedRefresh 0 0, .tmSetLoss 0 0, .chStart 0 0 0, .chTarget 0 0 0,
    .chStop 0 0 0, .pilotWindow 0, .pilotTimeout 0, .pilotRefresh 0, .chWaitDone 0, .chWaitTimeout 0, .stopTimeExpiry 0,
    .gridLossTimeout 0, .chEventReaction 0, .lvStart 0 0 0, .lvTarget 0 0 0, .lvStop 0 0 0, .lvSync 0, .lvStartTimeout 0] : List Instr), c.wellFormed = true := by decide +kernel

/-- With every operand in its place the command is well formed. -/
theorem test_wellFormed_4 : ∀ c ∈ ([
    .lvStageLoss 0, .drStart 0 0 0, .drTarget 0 0 0, .drStop 0 0 0, .drLockTimeout 0 0, .drTargetReached 0 0, .drMoveTimeout 0 0,
    .drReengage 0 0, .drMirrorUpdate 0 0, .drLoss 0 0, .windowClose 0 okRun, .lagTimeout 0, .scSelfTestDone 0 true true,
    .agreedLoad 0 true (.bank 0) {}, .checkerFault 0 0, .transientPeriodExpiry 0, .graceExpiry 0, .injectionTestDone 0 0, .fwReady 0,
    .wdogService 0 0, .wdogExpiry 0, .vqArrival 0 0 0, .accept 0 0, .refuse 0 0 0, .validationExpiry 0 0, .kick 0 0,
    .continueStage 0 0, .stopStage 0 0, .absenceExpiry 0 0, .notifyTimeout 0 0, .bankRead 0 .copyA 0 4 {} [],
    .bankWrite 0 .copyA 0 4 0 {}, .scrubRead 0 0 {}, .bankHandover 0 0 0, .drainComplete 0 0, .drainTimeout 0 0, .confRestart 0,
    .perst 0 true, .hotReset 0 true, .functionLevelReset 0 true] : List Instr), c.wellFormed = true := by decide +kernel

/-- With every operand in its place the command is well formed. -/
theorem test_wellFormed_5 : ∀ c ∈ ([
    .doorbell 0 0 0, .qpEnable 0 .host 0, .qpDisable 0 0, .descriptorFetch 0, .descriptorReceive 0 0 0 okDescr, .completionWrite 0 0,
    .moderationTimeout 0 0, .descriptorDeadline 0 0 0 true, .hostError 0 0 0, .nop 0 0 0, .fenceItem 0 0 0, .fenceComplete 0 0 0,
    .memWrite 0 0 0 okBytes, .memRead 0 0 0 0 {}, .dataTransferDone 0 0 0, .snapshot 0 0 0, .admitUnit 0 0 0 0 0 true,
    .admitDone 0 0 0 okTest, .streamBuf 0 0 0, .recordWrite 0 0, .bufferFlush 0 0, .canTx 0 0 0 [], .canRxbuf 0 0 0, .slotLoad 0 0,
    .frameTxEnd 0 0 okAttempt 0, .frameReceive 0 0 okFrame 0, .integrationDone 0 0, .recover 0 .host 0, .recoveryComplete 0 0,
    .flowStale 0 0, .ttTrigger 0 0 0, .missedWindow 0 0 0, .ttReferenceSend 0 0 okAttempt 0, .listenEnd 0 0, .masterLost 0 0,
    .secureBoot 0, .bootSealRequest 0, .identity 0 0, .attest 0 0 [], .sessionOpen 0 0 []] : List Instr), c.wellFormed = true := by decide +kernel

/-- With every operand in its place the command is well formed. -/
theorem test_wellFormed_6 : ∀ c ∈ ([
    .sessionClose 0 0, .sessionExpiry 0 true, .enroll 0 0 [] 0, .revoke 0 0 [] 0, .updateWrite 0 0 [] true, .updateVerify 0 0,
    .updateActivate 0 0 [] { blown := 0 }, .activateReset 0, .keyLoad 0 0 okFlash, .keyErase 0 0 okFlash, .raiseCounter 0 0 [] 0,
    .ledgerRead 0 0, .lifetimeRead 0 0, .uartFrame 0 okUart 0 0 true, .freshnessJournal 0 { flow := 0 }, .ledgerFlush 0 0 true,
    .lifetimeRecord 0 true, .lifeAccumulate 0, .flashRefresh 0 0 { done := true }, .fltFence 0 0 0, .fltSafe 0 0 0, .islandLost 0 0,
    .ledgerReport 0 0 0 0 0 0 0, .ledgerEntry 0, .entryClose 0 0, .slotCapture 0 .host 0 0, .powerOnReset 0, .brownOutReset 0,
    .railReset 0, .resetN 0, .safeWdogExpiry 0, .coldBoot 0 0 0 {}, .vinHigh 0 0, .speedMonitor 0 0 0, .vfabStep 0 true,
    .fqiTcUpdate 0, .sleepRequest 0, .wake 0 okEdges 0 true 0, .tempReading 0 0 0, .tempCrossCheck 0] : List Instr), c.wellFormed = true := by decide +kernel

/-- With every operand in its place the command is well formed. -/
theorem test_wellFormed_7 : ∀ c ∈ ([
    .brokenLiveClear 0 0 okSign, .receiveError 0 0 .one, .pcieLinkUp 0 .l1, .sleepEntryDone 0] : List Instr), c.wellFormed = true := by decide +kernel

/-! ### Steps -/

/-- R54: TB_STG_RUN.run = 1 starts the stage, which drives from its next transfer. -/
theorem test_stage_start : let n := run (.stageStart 5 20) (st dFw)
    n.flag F.TB_STG_RUN_run 20 = true ∧ (n.stg 20).driving = false := by decide +kernel

/-- R46: the waiting switch turns on when its dead time has passed. -/
theorem test_dead_time : let n := run (.deadTimeExpiry 100 0 63) (st (d0.setPg 63 { wait := some (true, 1600) }))
    n.flag F.PG_STAT_out_high 63 = true ∧ n.flag F.PG_STAT_out_low 63 = false ∧ (n.pg 63).wait = none := by decide +kernel

/-- R72: a light port's supply below 7.0 V raises UVLO and is counted. -/
theorem test_uvlo : let n := run (.uvlo 0 63 false 6999) (st d0)
    n.flag (uvloLive false) 63 = true ∧ n.flag F.PP_STAT_uvlo 63 = true ∧ n.rd F.PP_CNT_uvlo 63 = 1 := by decide +kernel

/-- R76: a light ports' supply above 16 V sets supply_high of all 22 light ports. -/
theorem test_supply_high : let n := run (.supplyHigh 0 14 16001) (st d0)
    n.flag F.PP_STAT_supply_high 42 = true ∧ n.flag F.PP_STAT_supply_high 63 = true ∧ n.flag F.PP_STAT_supply_high 41 = false := by
  decide +kernel

/-- R95: an offset of 64 code steps, in sixteenths, lies inside the bounds. -/
theorem test_calibration : let n := run (.calibrationDone 0 0 4096 262144 (-262144)) (st (d0.setShunt 0 { cal := some .both }))
    n.rdInt F.SH_CAL_RES_offset 0 = 1024 ∧ n.flag F.SH_CAL_CTRL_busy 0 = false := by decide +kernel

/-- R116: FORCE_OFF holds the stage with the ALL_OFF action; R120: RELEASE ends the hold. -/
theorem test_force_and_release : let n := run (.forceOff 0 20) (st dFw)
    n.flag F.WM_SW_STAT_held 20 = true ∧ n.flag F.WM_SW_STAT_held 19 = false ∧
      (run (.release 0 20) (st n)).flag F.WM_SW_STAT_held 20 = false := by decide +kernel

/-- R137: PRESET loads the 64-bit count. -/
theorem test_preset :
    (run (.preset 5 1) (st (wrs dFw [(F.PS_CFG_mode, 1, 5), (F.PS_PRESET_LO, 1, 9), (F.PS_PRESET_HI, 1, 2 ^ 32 - 1)]))).count 1 = 9 - 2 ^ 32 := by
  decide +kernel

/-- R176: an engine with a run that retires nothing is declared dead and fenced. -/
theorem test_engine_stall :
    (run (.engineStall 100000 11) (st (d0.setEng 11 { run := some { loop := 5, beat := 0 } }))).fenced Kind.engine 11 = true := by
  decide +kernel

/-- R284: KICK restarts the timer of a running stage; STOP stops it. -/
theorem test_absence : let d := wrs dFw [(F.SC_ABS_CFG_enable, 3, 1), (F.TB_STG_RUN_run, 3, 1), (F.SC_ABS_CFG_timeout, 3, 2)]
    (run (.kick 9 3) (st d)).absDue 3 = some (9 + 2 * 80000) ∧ (run (.stopStage 9 3) (st d)).flag F.TB_STG_RUN_run 3 = false := by
  decide +kernel

/-- R279: the watchdog's expiry brings the device into SAFE. -/
theorem test_watchdog : let n := run (.wdogExpiry 9) (st (wrs (d0.onSc fun k => { k with wdogDue := some 5 }) [(F.SC_WDOG_CFG_enable, 0, 1)]))
    n.devState = DevSt.safe ∧ n.flag F.WM_SW_STAT_held 20 = true := by decide +kernel

/-- R294, R298: the bytes of a word that its owner writes, low byte first; another master's write is discarded. -/
theorem test_bank_write : let s := st (wrs d0 [(F.MB_BANK_STAT_owner, 1, 2), (F.DEV_STATE_state, 0, DevSt.sealed)])
    (List.range 4).map (run (.bankWrite 9 (.engine 0) 0x80004 4 0x11223344 {}) s |>.bankByte <| 0x80004 + ·) = [0x44, 0x33, 0x22, 0x11] ∧
      (run (.bankWrite 9 .crypto 0x80004 4 0x11223344 {}) s).bankByte 0x80004 = 0 := by decide +kernel

/-- R306: a doorbell with indices inside the ring is accepted; one with an index outside it sets bad_bell. -/
theorem test_doorbell : let s := st (wrs d0 [(F.HI_QP_CTRL_enable, 5, 1), (F.HI_QP_CFG_size_log2, 5, 4)])
    ((run (.doorbell 9 0x140 3) s).qp 5).sqTail = 3 ∧ (run (.doorbell 9 0x140 16) s).flag F.HI_QP_FLAGS_bad_bell 5 = true := by decide +kernel

/-- R314: NOP completes with OK. -/
theorem test_nop : ((run (.nop 9 5 3) (st (dItem .received { opcode := 1 } d0))).qp 5).items.map (·.phase) = [.ended 0 false 0] := by
  decide +kernel

/-- R327: REC passes 127 and the controller becomes error-passive. -/
theorem test_receive_error :
    (run (.receiveError 9 2 .one) (st (wrs d0 [(F.CN_CFG_enable, 2, 1), (F.CN_STAT_state, 2, 3), (F.CN_STAT_rec, 2, 127)]))).rd F.CN_STAT_rec 2 = 128 := by
  decide +kernel

/-- R364: a frame with a bad CRC is counted. -/
theorem test_uart : (run (.uartFrame 9 { start := 0xA5, length := 32, payload := List.replicate 32 0 }
    (frameCrc (List.replicate 32 0) + 1) 1 false) (st d0)).rd F.IMS_UART_bad_frames 0 = 1 := by decide +kernel

/-- R376: the 65th report finds the intake full and is lost. -/
theorem test_intake :
    let r : Report := { kind := 1, index := 2, cls := 1, code := 3, time := 4 }
    let n := run (.ledgerReport 9 0x11 2 1 0x21 0 7) (st (d0.withFlt { d0.flt with intake := List.replicate 64 r }))
    n.flt.intake.length = 64 ∧ n.flag F.FLT_STAT_lost 0 = true := by decide +kernel

/-- R371: FENCE fences a bank; fencing it again changes nothing. -/
theorem test_fence : (run (.fltFence 9 0x11 2) (st dFw)).fenced Kind.bank 2 = true := by decide +kernel

/-- R386: RESET_N puts the device back into BOOT and keeps the calendar. -/
theorem test_reset : let n := run (.resetN 9) (st (wrs d0 [(F.PWR_CAL_LO, 0, 77), (F.TB_STG_RUN_run, 3, 1)]))
    n.devState = DevSt.boot ∧ n.rd F.PWR_CAL_LO 0 = 77 ∧ n.flag F.TB_STG_RUN_run 3 = false ∧ n.rd F.PWR_RESET_CAUSE_cause 0 = 8 := by
  decide +kernel

/-- R393: a stage that runs refuses sleep with NOT_STOPPED. -/
theorem test_sleep : let n := run (.sleepRequest 9) (st (wrs dFw [(F.TB_STG_RUN_run, 3, 1), (F.DEV_STATE_state, 0, DevSt.setup)]))
    n.pw.entering = false ∧ n.rd F.PWR_SLEEP_CTRL_status 0 = Code.NOT_STOPPED := by decide +kernel

/-- R23: an offset without a register is UNMAPPED, and the first rejection is recorded. -/
theorem test_write_rejected : let n := run (.registerWrite 9 .host 0xFFC 4 1) (st (wrs d0 [(F.DEV_STATE_state, 0, DevSt.setup)]))
    n.flag F.FAB_WRITE_ERR_valid 0 = true ∧ n.rd F.FAB_WRITE_ERR_reason 0 = Reason.unmapped ∧ n.rd F.FAB_WRITE_CNT 0 = 1 := by decide +kernel

/-- R31: the host's request brings a device in SETUP into SEALING. -/
theorem test_seal_request : (run (.sealRequest 9 .host) (st (wrs d0 [(F.DEV_STATE_state, 0, DevSt.setup)]))).devState = DevSt.sealing := by
  decide +kernel

/-- R40 and R25: CFG with enable and an odd PERIOD written together by an 8-byte write are refused, and neither is stored. -/
theorem test_wide_write : let c := (d0.word (F.TB_STG_CFG.off 3 0)).toNat
    let n := run (.registerWrite 9 .host (F.TB_STG_CFG.off 3 0) 8 (BitVec.ofNat 64 (c ||| 1 + 2 ^ 32 * 40001)))
      (st (wrs d0 [(F.DEV_STATE_state, 0, DevSt.setup)]))
    n.flag F.TB_STG_CFG_enable 3 = false ∧ n.period 3 = d0.period 3 := by decide +kernel

/-- R132, R417: an exact half goes to the larger value below zero as well: 4,096 counts, 65,536 ticks, down. -/
theorem test_edge_speed_tie : edgeSpeed 4096 65536 false = BitVec.ofInt 32 (-195312) := by decide +kernel

/-- R398: the example of its section, TN code 1,360 with 10 kΩ and 3,435 K: 56.55 °C. -/
theorem test_ntc : (ntcTemp 1360 1000 3435 * 100 - 5655 * 65536).natAbs ≤ 65536 := by decide +kernel

/-- R400: at 125 °C a second counts as one. -/
theorem test_life : exp2 0 = 1 := by decide +kernel

end Sys2Proof.Tests

/-! ### Witnesses -/

namespace Sys2Proof.Tests

set_option Elab.async false

/-- A device with GLOBAL sync in ACQUIRE; one with stage 0 running a carrier. -/
def dGlobal : Dev := wrs d0 [(F.TB_SYNC_CFG_sync, 0, 2), (F.TB_GT_STAT_gt_valid, 0, 1), (F.TB_GT_STAT_state, 0, 2)]
def dStage : Dev := wrs dFw [(F.TB_STG_CFG_enable, 0, 1)]

/-- Stage 0 at its update point 0, decided, planned and transferring compare 4000 into port 1; it was started and does not drive yet. -/
def dMoves : Dev := (wrs dStage [(F.TB_STG_RUN_run, 0, 1), (F.PG_CFG_mode, 1, 1), (F.PG_MINP_min_pulse, 1, 300), (F.PG_DT_dt_rise, 1, 400), (F.PG_DT_dt_fall, 1, 400)]).setStg 0
  { decided := true, planned := true, transfer := true, locked := [(1, false, 4000)], nextA := { placed := true, at16 := 1600 } }
/-- Stage 0, decided and not planned, in a sampling mode, with all that SINGLE_SHUNT asks. -/
def dPlans (mode : Nat) (may : Bool) : Dev := (wrs dStage [(F.SH_CFG_mode, 0, mode), (F.SH_WIN_blank, 0, 200), (F.SH_WIN_settle, 0, 200),
  (F.SH_WIN_accept, 0, 200), (F.TB_STG_LIMIT_latest, 0, 30000), (F.PG_CMP_A_value, 1, 16000), (F.PG_CMP_A_value, 2, 20000),
  (F.SH_FIX_A_enable, 0, 1), (F.SH_FIX_A_offset, 0, 500), (F.SH_FIX_B_enable, 0, 1), (F.SH_FIX_B_offset, 0, 31000)]).setStg 0 { decided := true, maySample := may }

theorem witness_TimebaseInstants :
    (∃ s t, let d := State.now s t; d.rd F.TB_SYNC_CFG_sync 0 = 2 ∧ d.flag F.TB_GT_STAT_gt_valid 0 = true ∧
      d.rd F.TB_GT_STAT_state 0 = 2 ∧ d.globalRuns = false) ∧
    (∃ s t, ∃ k : Fin 21, let d := State.now s t; d.flag F.TB_STG_CFG_enable k = true ∧ d.atUpdate k d.time = true ∧ d.upd k + 1 < 2 ^ 64) ∧
    (∃ s t, ∃ k : Fin 21, ∃ p ∈ stagePorts k, let d := State.now s t; d.flag F.TB_STG_CFG_enable k = true ∧ d.atUpdate k d.time = true ∧
      (d.stg k).decided = true ∧ (d.stg k).planned = true ∧ (∀ w ∈ (d.stg k).locked, w.1 ∈ stagePorts k ∧ w.2.2 < 2 ^ 28) ∧
      (d.stg k).nextA.at16 < 2 ^ 24 ∧ (d.stg k).nextB.at16 < 2 ^ 24 ∧ d.comingCompare k p false ≤ d.compareMax p false ∧
      d.comingCompare k p true ≤ d.compareMax p true ∧ d.rd F.PG_CFG_mode p ≤ 6 ∧ d.flag F.TB_STG_RUN_run k = true ∧
      (d.stg k).driving = false ∧ (d.stg k).startAt < d.time ∧ (d.stg k).transfer = true) ∧
    (∃ s t, ∃ k : Fin 21, let d := State.now s t; d.flag F.TB_STG_CFG_enable k = true ∧ d.atDeadline k d.time = true ∧
      (d.stg k).decided = false ∧ d.fenced Kind.stage k = false ∧ (∀ l ∈ d.loops, d.isAux l = true → d.home l ≠ k) ∧
      d.loopStage k = true ∧ (d.stg k).mark = true) ∧
    (∃ s t, ∃ k : Fin 21, let d := State.now s t; d.flag F.TB_STG_CFG_enable k = true ∧ d.atDeadline k d.time = true ∧
      (d.stg k).decided = false ∧ d.loopStage k = true ∧ (d.stg k).mark = false ∧ d.fenced Kind.stage k = false ∧ (d.stg k).opened = true) ∧
    (∃ s t, ∃ k : Fin 21, let d := State.now s t; (d.stg k).decided = true ∧ (d.stg k).planned = false ∧ d.rd F.SH_CFG_mode k = 1 ∧
      (d.stg k).maySample = false) ∧
    (∃ s t, ∃ k : Fin 21, let d := State.now s t; (d.stg k).decided = true ∧ (d.stg k).planned = false ∧ d.rd F.SH_CFG_mode k = 2) ∧
    (∃ s t, ∃ k : Fin 21, let d := State.now s t; (d.stg k).decided = true ∧ (d.stg k).planned = false ∧ d.rd F.SH_CFG_mode k = 3) ∧
    (∃ s t, ∃ k : Fin 21, let d := State.now s t; (d.stg k).decided = true ∧ (d.stg k).planned = false ∧ d.rd F.SH_CFG_mode k = 1 ∧
      (d.stg k).maySample = true ∧ (d.stg k).locked = [] ∧ d.halfBeat k = true ∧ d.comingUp k = true ∧
      d.comingCompare k 0 false < d.comingCompare k 1 false ∧ d.comingCompare k 1 false < d.comingCompare k 2 false) ∧
    (∃ s t, ∃ (six : Fin 16) (u : Fin 48), (State.now s t).triggerHits u six = true) :=
  ⟨⟨st dGlobal, 7, by decide⟩, ⟨st dStage, 0, 0, by decide⟩, ⟨st dMoves, 40000, 0, 1, by decide, by decide⟩,
    ⟨st (dStage.setStg 0 { mark := true }), 39840, 0, by decide⟩,
    ⟨st (dStage.setStg 0 { opened := true }), 39840, 0, by decide⟩,
    ⟨st (dPlans 1 false), 0, 0, by decide⟩, ⟨st (dPlans 2 false), 0, 0, by decide⟩, ⟨st (dPlans 3 false), 0, 0, by decide⟩,
    ⟨st (dPlans 1 true), 0, 0, by decide⟩,
    ⟨st (wrs dStage [(F.TB_TRIG_CFG_enable, 0, 1), (F.TB_TRIG_CFG_mode, 0, 4)]), 0, 0, 0, by decide⟩⟩

theorem witness_ShadowsAndCommits :
    (∃ s t e l p isB v tag r, let d := State.now s t; d.tb.gate = .shadow e l p isB v tag :: r ∧ d.fenceHolds e = false ∧
      d.fenced Kind.stage (portStage p) = false ∧ tag = (d.upd (portStage p) + 1) % 65536 ∧ 0 ≤ v ∧ v ≤ d.compareMax p isB ∧ v < 2 ^ 28) ∧
    (∃ s t e l p isB v tag r, let d := State.now s t; let k := portStage p; d.fenceHolds e = false ∧ d.fenced Kind.stage k = false ∧
      0 < (tag + 65536 - (d.upd k + 1) % 65536) % 65536 ∧ (tag + 65536 - (d.upd k + 1) % 65536) % 65536 < 32768 ∧
      d.tb.gate = .shadow e l p isB v tag :: .commit e l k tag :: r) ∧
    (∃ s t e l k r, let d := State.now s t; d.tb.gate = .commit e l k ((d.upd k + 1) % 65536) :: r ∧ d.fenceHolds e = false ∧
      d.fenced Kind.stage k = false ∧ d.pastDeadline k = false) ∧
    (∃ s t, ∃ (p : Fin 64) (isB : Bool) (v : Word), let d := State.now s t; d.fwStores = true ∧ d.fenced Kind.stage (portStage p) = false ∧
      d.loopStage (portStage p) = false ∧ v.toNat % 2 ^ 28 ≤ d.compareMax p isB) ∧
    (∃ s t, ∃ (k : Fin 21) (v : Word), let d := State.now s t; d.fwStores = true ∧ d.fenced Kind.stage k = false ∧ d.loopStage k = false ∧
      v.toNat % 65536 = (d.upd k + 1) % 65536 ∧ d.pastDeadline k = false) ∧
    (∃ s t, ∃ (k : Fin 21) (v : Word), let d := State.now s t; d.fwStores = true ∧ d.fenced Kind.stage k = false ∧ d.loopStage k = false ∧
      v.toNat % 65536 = (d.upd k + 65535) % 65536) :=
  ⟨⟨st (dStage.withTb { dStage.tb with gate := [.shadow 0 0 1 true 320000 1] }), 5, 0, 0, 1, true, 320000, 1, [], by decide⟩,
    ⟨st (dStage.withTb { dStage.tb with gate := [.shadow 0 0 1 true 320000 2, .commit 0 0 0 2] }), 5, 0, 0, 1, true, 320000, 2, [], by decide⟩,
    ⟨st (dStage.withTb { dStage.tb with gate := [.commit 0 0 0 1] }), 5, 0, 0, 0, [], by decide⟩,
    ⟨st (wrs dStage [(F.TB_STG_CFG_source, 20, 2)]), 5, 63, false, 320000, by decide⟩,
    ⟨st (wrs dStage [(F.TB_STG_CFG_source, 0, 2)]), 5, 0, 1, by decide⟩,
    ⟨st (wrs dStage [(F.TB_STG_CFG_source, 0, 2)]), 5, 0, 65535, by decide⟩⟩

theorem witness_StagesRunAndSwitch :
    (∃ s t, ∃ k : Fin 21, let d := State.now s t; d.fwStores = true ∧ d.pw.asleep = false ∧ d.fenced Kind.stage k = false ∧
      d.flag F.WM_SW_STAT_held k = false ∧ d.flag F.TB_STG_RUN_run k = false) ∧
    (∃ s t, ∃ k : Fin 21, let d := State.now s t; d.fwStores = true ∧ d.pw.asleep = true ∧ d.fenced Kind.stage k = false ∧
      d.flag F.WM_SW_STAT_held k = false) ∧
    (∃ s t, ∃ p : Fin 64, let d := State.now s t; (d.stg (portStage p)).driving = true ∧ d.rd F.PG_CFG_mode p = 1 ∧
      d.hCommand p (16 * d.carrier (portStage p) d.time) ≠ (d.pg p).h ∧ d.rd F.PG_DT_dt_rise p ≠ 0) ∧
    (∃ s t, ∃ p : Fin 64, let d := State.now s t; (d.stg (portStage p)).driving = true ∧ d.rd F.PG_CFG_mode p = 4) ∧
    (∃ s t, ∃ (p : Fin 64) (hi : Bool) (at16 : Nat), let d := State.now s t; (d.pg p).wait = some (hi, at16) ∧ at16 ≤ 16 * d.time) :=
  ⟨⟨st dFw, 0, 20, by decide⟩, ⟨st (dFw.onPw fun p => { p with asleep := true }), 0, 20, by decide⟩,
    ⟨st ((wrs dStage [(F.PG_CFG_mode, 0, 1), (F.PG_DT_dt_rise, 0, 400), (F.PG_CMP_A_value, 0, 1600)]).setStg 0 { driving := true }), 200, 0, by decide⟩,
    ⟨st ((wrs dStage [(F.PG_CFG_mode, 0, 4)]).setStg 0 { driving := true }), 200, 0, by decide⟩,
    ⟨st (d0.setPg 63 { wait := some (true, 1600) }), 100, 63, true, 1600, by decide⟩⟩

end Sys2Proof.Tests

namespace Sys2Proof.Tests

set_option Elab.async false

/-- Port p of a device after reset with one of its drivers as given. -/
def dDrv (p : Nat) (hi : Bool) (v : DriverT) : Dev := d0.setDrv p hi v

/-- Heavy port 3 of stage 1, enabled and supplied, with a command on its way to its driver input; some of its registers as given. -/
def dCmd (hi lo : Bool) (l : List (Fd × Nat × Nat)) (q : PortT) : Dev :=
  wrs (d0.setPort 3 { q with flight := [(1920, hi, lo)] }) ((F.PP_CFG_enable, 3, 1) :: l)

/-- The command at the input of port 3 of a device, with both supplies at 18 V, leaves driver b decided by the row of R77 that the property
names. -/
def decides (d : Dev) (b : Bool) (p : Dev → Bool) : Bool :=
  let n := run' (.driverInputChange 120 3 18000 18000) (st d)
  p n && !d.pw.asleep && !d.pw.held && d.uvloFall 3 ≤ 18000 && (n.drv 3 b).gate == n.gateWant 3 b

theorem witness_DriversDecide :
    (∃ s t, ∃ p : Fin 64, ∃ at0 hi lo r, let d := State.now s t; (d.port p).flight = (at0, hi, lo) :: r ∧ at0 / 16 ≤ d.time ∧
      (d.port p).linkDown = false ∧ hi = true ∧ lo = true) ∧
    (∃ s t, ∃ p : Fin 64, ∃ at0 hi lo r, let d := State.now s t; (d.port p).flight = (at0, hi, lo) :: r ∧ at0 / 16 ≤ d.time ∧
      (d.port p).linkDown = false ∧ hi ≠ lo) ∧
    (∃ s t, ∃ p : Fin 64, ∃ hi mv, let d := State.now s t; mv < d.uvloFall p ∧ d.flag (uvloLive hi) p = false) ∧
    (∃ src : Fin 15, ∃ mv, src.val = 14 ∧ (if src.val = 14 then 16000 else 26000) < mv) ∧
    (∃ src : Fin 15, ∃ mv, src.val ≠ 14 ∧ (if src.val = 14 then 16000 else 26000) < mv) :=
  ⟨⟨st (d0.setPort 3 { flight := [(1920, true, true)] }), 120, 3, 1920, true, true, [], by decide⟩,
    ⟨st (d0.setPort 3 { flight := [(1920, true, false)] }), 120, 3, 1920, true, false, [], by decide⟩,
    ⟨st d0, 0, 63, false, 6999, by decide⟩, ⟨14, 16001, by decide⟩, ⟨13, 26001, by decide⟩⟩

/-- The rows of R77: a fence, no enable, lockout, interlock, the trip lane down, ALL_OFF, LOW_ON and the command. -/
theorem witness_DriversDecide_rows :
    decides ((dCmd true false [] {}).markFenced Kind.port 3 true) true (fun n => n.fenced Kind.port 3) = true ∧
    decides (dCmd true false [(F.PP_CFG_enable, 3, 0)] {}) true (fun n => !n.flag F.PP_CFG_enable 3) = true ∧
    decides (dCmd true false [] { readmitted := true }) true (fun n => (n.port 3).readmitted) = true ∧
    decides (dCmd true false [(F.PP_STAT_uvlo_lo_live, 3, 1)] {}) false (fun n => n.flag (uvloLive false) 3) = true ∧
    decides (dCmd true true [] {}) true (fun n => n.flag F.PP_STAT_interlock_live 3) = true ∧
    decides (dCmd true false [] { laneDown := true }) true (fun n => (n.port 3).laneDown) = true ∧
    decides (dCmd true false [(F.WM_SW_STAT_held, 1, 1), (F.WM_SW_STAT_action, 1, 1)] {}) true (fun n => !n.gateBlocked 3 true) = true ∧
    decides (dCmd true false [(F.WM_SW_STAT_held, 1, 1), (F.WM_SW_STAT_action, 1, 2)] {}) false
      (fun n => !n.gateBlocked 3 false && (n.drv 3 false).gate) = true ∧
    decides (dCmd true false [] {}) true (fun n => !n.gateBlocked 3 true && (n.drv 3 true).gate) = true := by decide

theorem witness_EdgesInSegments :
    (∃ s t, ∃ p : Fin 64, ∃ hi, let d := State.now s t; (d.edge p hi).requested = true ∧ (d.edge p hi).on = true ∧
      (d.edge p hi).since + (if heavyPort p then 16 else 12) ≤ d.time) ∧
    (∃ s t, ∃ p : Fin 64, ∃ hi, let d := State.now s t; let e := d.edge p hi
      heavyPort p = true ∧ e.active = true ∧ d.autoDetect p e.on = true ∧ e.seg = 1 ∧ e.since + d.segLimit p e.seg e.on ≤ d.time ∧
      e.startedAt + 8 ≤ d.time ∧ 1 * d.plateauDivisor p e.on < 300) ∧
    (∃ s t, ∃ p : Fin 64, ∃ hi, let d := State.now s t; let e := d.edge p hi
      heavyPort p = true ∧ e.active = true ∧ d.autoDetect p e.on = true ∧ e.seg = 2 ∧ e.since + d.segLimit p e.seg e.on ≤ d.time ∧
      1000 ≤ (if e.on then 4000 - e.entryMv else e.entryMv - 4000)) ∧
    (∃ s t, ∃ p : Fin 64, ∃ hi, let d := State.now s t; let e := d.edge p hi
      heavyPort p = true ∧ e.active = true ∧ e.on = true ∧ e.seg = (if heavyPort p then 3 else 1) ∧ e.was = none ∧ d.pw.held = false ∧
      14000 + 1000 * (d.rd F.PP_CFG_von p : Int) - d.voffMv p + 500 ≤ (d.drv p hi).mv) ∧
    (∃ s t, ∃ p : Fin 64, ∃ hi, let d := State.now s t; let e := d.edge p hi
      heavyPort p = true ∧ e.active = true ∧ e.on = false ∧ e.seg = (if heavyPort p then 3 else 1)) ∧
    (∃ s t, ∃ p : Fin 64, ∃ hi, let d := State.now s t; let e := d.edge p hi
      heavyPort p = false ∧ e.active = true ∧ e.seg = (if heavyPort p then 3 else 1)) :=
  ⟨⟨st (dDrv 2 true { edge := { requested := true, on := true } }), 16, 2, true, by decide⟩,
    ⟨st ((dDrv 2 true { edge := { active := true, on := true, seg := 1 } }).wr F.PP_ON_SEG_detect 2 1), 800, 2, true, by decide⟩,
    ⟨st ((dDrv 2 false { edge := { active := true, seg := 2, entryMv := 5000 } }).wr F.PP_OFF_SEG_detect 2 1), 4000, 2, false, by decide⟩,
    ⟨st (dDrv 41 false { gate := true, mv := 26000, edge := { active := true, on := true, seg := 3 } }), 5, 41, false, by decide⟩,
    ⟨st (dDrv 41 false { edge := { active := true, on := false, seg := 3 } }), 5, 41, false, by decide⟩,
    ⟨st (dDrv 42 false { edge := { active := true, on := false, seg := 1 } }), 5, 42, false, by decide⟩⟩

theorem witness_MonitorsAndLinks :
    (∃ s t, ∃ p : Fin 64, ∃ hi mv, let d := State.now s t; d.flag F.PP_MON_enable p = true ∧ (d.edge p hi).checked = false ∧
      (d.edge p hi).startedAt + 2 * d.rd F.PP_MON_window p ≤ d.time ∧ gateLevel p mv ≠ some (d.drv p hi).gate) ∧
    (∃ s t, ∃ p : Fin 64, ∃ hi mv, let d := State.now s t; d.flag F.PP_MON_enable p = true ∧ (d.edge p hi).active = false ∧
      (d.edge p hi).requested = false ∧ gateLevel p mv ≠ some (d.drv p hi).gate) ∧
    (∃ s t, ∃ p : Fin 64, let d := State.now s t; heavyPort p = true ∧ (d.port p).linkDown = false ∧ (d.port p).laneDown = false) ∧
    (∃ s t, ∃ p : Fin 64, let d := State.now s t; (d.port p).linkDown = true ∧ (d.port p).laneDown = true) :=
  ⟨⟨st ((dDrv 42 true { edge := { checked := false } }).put F.PP_MON_enable 42 true), 2000, 42, true, 1500, by decide⟩,
    ⟨st (d0.put F.PP_MON_enable 42 true), 2000, 42, true, 1500, by decide⟩,
    ⟨st d0, 0, 41, by decide⟩, ⟨st (d0.setPort 0 { linkDown := true, laneDown := true }), 0, 0, by decide⟩⟩

end Sys2Proof.Tests

namespace Sys2Proof.Tests

set_option Elab.async false

/-- A sample of instant B, and one of light stage 20 whose conversion runs. -/
def smp : Samp := { isB := true, inst := { placed := true, at16 := 160 }, beatAt := 0, beat := 3 }
def dLight : Dev := (d0.setShunt 20 { due := [smp] }).setConv 5 { running := some (.shunt 20 true 3, 140) }

theorem witness_ShuntRecords :
    (∃ s t, ∃ (k : Fin 21) (isB : Bool) (code : Int) (x : Samp), let d := State.now s t
      heavyStage k = true ∧ d.dueSample k isB = some x ∧ x.arrival + 80 ≤ d.time ∧ endValue k (shuntCode k code) = true) ∧
    (∃ s t, ∃ (k : Fin 21) (isB : Bool) (code : Int) (x : Samp) (since : Nat), let d := State.now s t
      heavyStage k = false ∧ (d.conv (lightConv k)).running = some (.shunt k isB x.beat, since) ∧ since + 152 ≤ d.time ∧
      (d.shunt k).due.find? (fun y => y.isB == isB && y.beat == x.beat) = some x ∧ since - x.arrival = 10 ∧
      endValue k (shuntCode k code) = true) ∧
    (∃ s t, ∃ k : Fin 14, let d := State.now s t; d.flag F.TB_STG_CFG_enable k = false ∧ d.time % 20000 = 0 ∧ (d.shunt k).hk = 0) ∧
    (∃ s t, ∃ k : Fin 14, (State.now s t).shuntHolds k = true) ∧
    (∀ i : Fin 4, ∃ s t, ∃ k : Fin 14, (State.now s t).shuntHolds k = false ∧ ((State.now s t).shunt k).hk = i + 1) :=
  ⟨⟨st (d0.setShunt 13 { due := [smp] }), 210, 13, true, 9000, smp, by decide⟩,
    ⟨st dLight, 292, 20, true, -40000, smp, 140, by decide⟩,
    ⟨st d0, 20000, 13, by decide⟩, ⟨st (d0.setShunt 13 { due := [smp] }), 130, 13, by decide⟩,
    fun i => ⟨st (d0.setShunt 13 { hk := i + 1 }), 0, 13, by revert i; decide⟩⟩

theorem witness_Calibration :
    (∃ s t, ∃ k : Fin 21, (State.now s t).fwStores = true ∧ (State.now s t).flag F.TB_STG_RUN_run k = false ∧ heavyStage k = false ∧
      (State.now s t).fenced Kind.logicConv (lightConv k) = false) ∧
    (∃ s t, ∃ k : Fin 21, (State.now s t).fwStores = true ∧ (State.now s t).flag F.TB_STG_RUN_run k = true) ∧
    (∃ s t, ∃ k : Fin 21, heavyStage k = true ∧ ((State.now s t).shunt k).cal = some .both ∧ calOffset16 (calSum k 4096) = 1024 ∧
      calGainPpm k (calSum k 262144) (calSum k (-262144)) = 0) ∧
    (∃ s t, ∃ k : Fin 21, heavyStage k = true ∧ ((State.now s t).shunt k).cal = some .both ∧ 1024 < calOffset16 (calSum k 4100)) ∧
    (∃ s t, ∃ k : Fin 21, let q := (State.now s t).shunt k; heavyStage k = false ∧ q.cal = some .offset ∧
      q.calTaken = CalOp.conversions .offset ∧ calOffset16 q.calZero = -1024) :=
  ⟨⟨st dFw, 0, 20, by decide⟩, ⟨st (dFw.put F.TB_STG_RUN_run 20 true), 0, 20, by decide⟩,
    ⟨st (d0.setShunt 0 { cal := some .both }), 0, 0, by decide⟩, ⟨st (d0.setShunt 0 { cal := some .both }), 0, 0, by decide⟩,
    ⟨st (d0.setShunt 20 { cal := some .offset, calTaken := 64, calZero := -4096 }), 0, 20, by decide⟩⟩

end Sys2Proof.Tests

namespace Sys2Proof.Tests

set_option Elab.async false

/-- Converter 2 in a pass of one entry of kind 1, untouched otherwise. -/
def dConv (v : ConvT) : Dev :=
  (wrs d0 [(F.CV_STAT_busy, 2, 1), (F.CV_CFG_length, 2, 1), (F.CV_CFG_trigger, 2, 5), (F.CV_CFG_mode, 2, 2)]).setConv 2 v

/-- The same idle, holding its trigger, with a firing that has arrived. -/
def dFired (busy : Nat) : Dev := ((wrs (dConv {}) [(F.CV_STAT_busy, 2, busy)]).setHolder 2 5 (some (Kind.logicConv, 2))).setFired 5 [0]

theorem witness_ConverterPasses :
    (∃ s t, ∃ c : Fin 6, let d := State.now s t; d.flag F.CV_STAT_busy c = true ∧ d.fenced Kind.logicConv c = false ∧
      (d.conv c).phase = 0 ∧ ((d.takeTriggers c).conv c).running = none ∧ (d.conv c).freeAt ≤ 300 ∧ 300 + 152 ≤ d.time ∧
      2 ^ d.rd2 F.CV_ENT_avg c (d.rd F.CV_STAT_entry c) ≤ (d.conv c).taken + 1) ∧
    (∃ s t, ∃ c : Fin 6, let d := State.now s t; d.flag F.CV_STAT_busy c = true ∧ d.fenced Kind.logicConv c = false ∧
      (d.conv c).phase = 0 ∧ ((d.takeTriggers c).conv c).running = none ∧ (d.conv c).freeAt ≤ 300 ∧ 300 + 152 ≤ d.time ∧
      (d.conv c).taken + 1 < 2 ^ d.rd2 F.CV_ENT_avg c (d.rd F.CV_STAT_entry c)) ∧
    (∃ s t, ∃ c : Fin 6, let d := State.now s t; d.flag F.CV_STAT_busy c = true ∧ d.fenced Kind.logicConv c = false ∧ (d.conv c).phase = 2 ∧
      ((d.takeTriggers c).conv c).running = none ∧ (d.conv c).freeAt ≤ 300 ∧ 300 + 152 ≤ d.time) ∧
    (∃ s t, ∃ c : Fin 6, let d := State.now s t; ((d.takeTriggers c).conv c).running ≠ none) ∧
    (∃ s t, ∃ c : Fin 6, let d := State.now s t; (d.conv c).phase = 1 ∧ ((d.takeTriggers c).conv c).running = none ∧
      (d.conv c).owAt + 80 * d.rd F.CV_CFG_ow_time c ≤ d.time) ∧
    (∀ busy : Bool, ∃ s t, ∃ c : Fin 6, ∃ stamp r, let d := State.now s t; let u := d.rd F.CV_CFG_trigger c
      d.fired u = stamp :: r ∧ d.rd F.CV_CFG_mode c = 2 ∧ stamp / 16 + 120 ≤ d.time ∧ d.holderOf 2 u = some (Kind.logicConv, c.val) ∧
      d.fenced Kind.logicConv c = false ∧ d.flag F.CV_STAT_busy c = busy ∧
      (busy = false → d.holds Kind.logicConv c (d.convSelects c) = true)) ∧
    (∃ s t, ∃ (c : Fin 6) (w : Word), let d := State.now s t; d.fwStores = true ∧ d.fenced Kind.logicConv c = false ∧
      d.flag F.CV_URG_busy c = false ∧
      getBits w 3 6 < inputRange (getBits w 0 3) ∧ d.mayUrge c (getBits w 0 3) (getBits w 3 6) = true) ∧
    (∃ s t, ∃ (c : Fin 6) (w : Word), let d := State.now s t; d.fwStores = true ∧ d.fenced Kind.logicConv c = false ∧
      d.flag F.CV_URG_busy c = false ∧
      getBits w 3 6 < inputRange (getBits w 0 3) ∧ d.mayUrge c (getBits w 0 3) (getBits w 3 6) = false) ∧
    (∃ s t, ∃ c : Fin 6, ∃ since, let d := State.now s t; ((d.takeTriggers c).conv c).running = some (.sc, since) ∧ since + 152 ≤ d.time) ∧
    (∃ s t, ∃ c : Fin 6, ∃ since k, let d := State.now s t; ((d.takeTriggers c).conv c).running = some (.cal k, since) ∧
      since + 152 ≤ d.time ∧ (d.shunt k).cal = some .gain) :=
  ⟨⟨st (dConv {}), 500, 2, by decide⟩, ⟨st ((dConv {}).wr2 F.CV_ENT_avg 2 0 1), 500, 2, by decide⟩, ⟨st (dConv { phase := 2 }), 500, 2, by decide⟩,
    ⟨st (dConv { running := some (.sc, 3) }), 500, 2, by decide⟩, ⟨st (dConv { phase := 1 }), 40000, 2, by decide⟩,
    fun b => match b with
      | true => ⟨st (dFired 1), 120, 2, 0, [], by decide⟩
      | false => ⟨st (wrs (dFired 0) [(F.CV_CFG_length, 2, 0)]), 120, 2, 0, [], by decide⟩,
    ⟨st dFw, 0, 5, 0x0C, by decide⟩, ⟨st dFw, 0, 5, 0x01, by decide⟩,
    ⟨st (d0.setConv 5 { running := some (.sc, 3) }), 155, 5, 3, by decide⟩,
    ⟨st ((d0.setConv 5 { running := some (.cal 20, 3) }).setShunt 20 { cal := some .gain }), 155, 5, 3, 20, by decide⟩⟩

theorem witness_ComparatorsAndEdgeFlags :
    (∃ s t, ∃ (c : Cmp) (x : Int), let d := State.now s t; d.cmpEnabled c true = true ∧ (d.cmpLevels c true).1 < x) ∧
    (∃ s t, ∃ (c : Cmp) (x : Int), let d := State.now s t; d.cmpEnabled c false = true ∧ x < (d.cmpLevels c false).1) ∧
    (∃ s t, ∃ (c : Cmp) (hi : Bool), let d := State.now s t; let v := d.cmp (cmpKey c); let q := if hi then v.hi else v.lo
      d.fenced (cmpUnit c).1 (cmpUnit c).2 = false ∧ q.raw ≠ d.cmpLive c hi ∧ q.changedAt + d.cmpFilter c ≤ d.time ∧ q.raw = true ∧
      d.cmpLatches c = true) ∧
    (∃ s t, ∃ c : Cmp, let d := State.now s t; d.fwStores = true ∧ d.fenced (cmpUnit c).1 (cmpUnit c).2 = false ∧
      d.cmpLatched c true = true) ∧
    (∃ s t, ∃ k : Fin 8, let d := State.now s t; let v := d.cmp (64 + k)
      d.flag F.WM_EF_CFG_enable k = true ∧ d.blanked k = false ∧ v.hi.raw = false ∧ (d.cmpLevels (.ef k) true).1 < 2000000 ∧
      (∀ e, v.lastEdge = some e → e + 64 * d.rd F.WM_EF_GAP_gap k ≤ d.time)) ∧
    (∃ s t, ∃ k : Fin 8, let d := State.now s t; d.flag F.WM_EF_CFG_enable k = true ∧ (d.cmp (64 + k)).hi.raw = true ∧
      (d.cmpLevels (.ef k) true).1 - (d.cmpLevels (.ef k) true).2 ≤ 2000000) :=
  ⟨⟨st (d0.put F.WM_CFG_en_hi 23 true), 0, .wm 23, 1048576, by decide⟩,
    ⟨st (wrs d0 [(F.WM_PC_CFG_en_lo, 27, 1), (F.WM_PC_THR_lo, 27, 1)]), 0, .pc 27, 255, by decide⟩,
    ⟨st ((d0.wr F.WM_CFG_latch 23 2).setCmp 23 { hi := { raw := true } }), 9, .wm 23, true, by decide⟩,
    ⟨st (dFw.put F.WM_LATCH_hi 23 true), 0, .wm 23, by decide⟩,
    ⟨st ((d0.put F.WM_EF_CFG_enable 7 true).setCmp 71 {}), 5, 7, by decide, by decide, by decide, by decide, fun e h => by cases h⟩,
    ⟨st ((d0.put F.WM_EF_CFG_enable 7 true).setCmp 71 { hi := { raw := true } }), 5, 7, by decide⟩⟩

theorem witness_Stopwork :
    (∃ s t, ∃ k : Fin 21, let d := State.now s t; (d.stop k).lowWait = true ∧ d.rd F.WM_SW_STAT_action k = 2 ∧
      d.rd64 F.WM_SW_TIME_LO F.WM_SW_TIME_HI k + 8 * d.rd F.WM_SW_ACT_low_delay k ≤ d.time) ∧
    (∃ s t, ∃ k : Fin 21, let d := State.now s t; d.fwStores = true ∧ d.flag F.WM_SW_STAT_held k = false ∧ d.source k true = none) ∧
    (∃ s t, ∃ k : Fin 21, (State.now s t).fwStores = true ∧ (State.now s t).nothingHolds k) ∧
    (∃ s t, ∃ k : Fin 21, (State.now s t).fwStores = true ∧ ¬ (State.now s t).nothingHolds k) ∧
    (∃ s t, ∃ i : Fin 4, ∃ since, let d := State.now s t
      since + 4 * getBits (d.word (F.WM_SW_IN_CFG.off 0 0)) (8 * i + 2) 4 ≤ d.time) ∧
    (∃ s t, ∃ i : Fin 4, ∃ since, let d := State.now s t
      d.time < since + 4 * getBits (d.word (F.WM_SW_IN_CFG.off 0 0)) (8 * i + 2) 4) :=
  ⟨⟨st ((d0.wr F.WM_SW_STAT_action 20 2).setStop 20 { lowWait := true }), 80000, 20, by decide⟩, ⟨st dFw, 0, 20, by decide⟩,
    ⟨st (dFw.setStop 20 { force := some true }), 0, 20, by decide, by unfold Dev.nothingHolds; decide⟩,
    ⟨st (dFw.put F.FLT_SAFE_safe 0 true), 0, 20, by decide, by unfold Dev.nothingHolds; decide⟩,
    ⟨st d0, 60, 3, 0, by decide⟩, ⟨st d0, 60, 3, 61, by decide⟩⟩

end Sys2Proof.Tests

namespace Sys2Proof.Tests

set_option Elab.async false

/-- Position port 1 enabled in a mode, holding what it selects, and carrying v. -/
def dPos (mode : Nat) (v : PosT) : Dev :=
  let d := wrs d0 [(F.PS_CFG_enable, 1, 1), (F.PS_CFG_mode, 1, mode)]
  ((d.posSelects 1).foldl (fun d r => d.setHolder r.1 r.2 (some (Kind.posPort, 1))) d).setPos 1 v

/-- Repeater 0 enabled on port 1 whose observer stands at a position in counts. -/
def dRep (pos : Int) : Dev :=
  let d := wrs (dPos 1 { pos := pos, seeded := true }) [(F.EP_CFG_enable, 0, 1), (F.EP_CFG_source, 0, 1), (F.EP_CFG_lines, 0, 100), (F.PS_CPR_cpr, 1, 4)]
  (d.repSelects 0).foldl (fun d r => d.setHolder r.1 r.2 (some (Kind.repeater, 0))) d

/-- Lands of which these carry 3.3 V. -/
def lands (ap bp x : Bool) : Lands := { ap := 3300 * b2n ap, bp := 3300 * b2n bp, x := 3300 * b2n x }

theorem witness_LinesAndCounts :
    (∃ s t, ∃ i : Fin 6, ∃ l since stamp, let d := State.now s t; d.psOn i = true ∧ d.psMode i = 1 ∧ d.filtered i since stamp = true ∧
      quadStep (d.pos i).prim (d.linesOf i l).1 = .edge true) ∧
    (∃ s t, ∃ i : Fin 6, ∃ l since stamp, let d := State.now s t; d.psOn i = true ∧ d.psMode i = 2 ∧ d.filtered i since stamp = true ∧
      hallStep (d.flag F.PS_HALL_CFG_rev i) (d.pos i).prim (d.linesOf i l).1 = .edge true) ∧
    (∃ s t, ∃ i : Fin 6, ∃ l since stamp, let d := State.now s t; d.psOn i = true ∧ d.psMode i = 1 ∧ d.filtered i since stamp = true ∧
      quadStep (d.pos i).prim (d.linesOf i l).1 = .illegal) ∧
    (∃ s t, ∃ i : Fin 6, ∃ l since stamp, let d := State.now s t; d.psOn i = true ∧ d.psMode i = 2 ∧ d.filtered i since stamp = true ∧
      hallStep (d.flag F.PS_HALL_CFG_rev i) (d.pos i).prim (d.linesOf i l).1 = .illegal) ∧
    (∃ s t, ∃ i : Fin 6, ∃ since, let d := State.now s t; d.time < since + 4 * (d.rd F.PS_CFG_filt i + 1)) ∧
    (∃ s t, ∃ i : Fin 6, let d := State.now s t; d.fenced Kind.posPort i = false ∧ d.illWindowEnd i ≤ d.time) ∧
    (∃ s t, ∃ i : Fin 6, ∃ (cause : Fin 7) (x : Int) (since : Nat), let d := State.now s t; d.psOn i = true ∧
      d.brokenNow i cause x since = true ∧ cause.val ∉ (d.pos i).broken) ∧
    (∃ s t, ∃ i : Fin 6, ∃ (cause : Fin 7) (x : Int), let d := State.now s t; d.brokenNow i cause x 0 = false) ∧
    (∃ s t, ∃ i : Fin 6, let d := State.now s t; d.fenced Kind.posPort i = false ∧
      d.rd64 F.PS_EDGE_TIME_LO F.PS_EDGE_TIME_HI i + 80000000 ≤ d.time ∧ (d.pos i).secEdge + 80000000 ≤ d.time) :=
  ⟨⟨st (dPos 1 {}), 500, 1, lands true false false, 0, 3, by decide⟩,
    ⟨st (dPos 2 { prim := 1 }), 500, 1, lands true true false, 0, 3, by decide⟩,
    ⟨st (dPos 1 {}), 500, 1, lands true true false, 0, 3, by decide⟩,
    ⟨st (dPos 2 { prim := 1 }), 500, 1, lands false true true, 0, 3, by decide⟩, ⟨st d0, 0, 5, 0, by decide⟩,
    ⟨st d0, 800000000, 5, by decide⟩, ⟨st (dPos 5 {}), 5, 1, 5, 101, 0, by decide⟩, ⟨st (dPos 5 {}), 5, 1, 5, 100, by decide⟩,
    ⟨st d0, 80000000, 5, by decide⟩⟩

theorem witness_AbsoluteSensors :
    (∃ s t, ∃ i : Fin 6, let d := State.now s t; d.psOn i = true ∧ d.psMode i = 4 ∧ d.rd F.PS_SSI_RUN_start i = 2 ∧ (d.pos i).ssiDue ≤ d.time ∧
      (d.pos i).ssiBusy = false ∧ (d.pos i).ssiReady ≤ d.time) ∧
    (∃ s t, ∃ i : Fin 6, let d := State.now s t; d.psOn i = true ∧ d.psMode i = 4 ∧ d.rd F.PS_SSI_RUN_start i = 2 ∧
      (d.pos i).ssiDue ≤ d.time ∧ d.time < (d.pos i).ssiReady) ∧
    (∀ good : Bool, ∃ s t, ∃ i : Fin 6, ∃ b, let d := State.now s t; (d.pos i).ssiBusy = true ∧
      (d.pos i).ssiStamp + d.frameTicks i ≤ d.time ∧ d.psOn i = true ∧ d.measBroken i = false ∧
      d.frameGood i (b % 2 ^ d.rd F.PS_SSI_CFG_frame i) = good ∧ (d.pos i).seeded = false) ∧
    (∃ s t, ∃ j : Fin 2, ∃ stamp, let d := State.now s t; d.fenced Kind.posPort j = true ∧ d.psMode j = 5 ∧ d.halfDone j stamp = true) ∧
    (∃ s t, ∃ j : Fin 2, ∃ stamp, let d := State.now s t; d.psOn j = true ∧ d.psMode j = 5 ∧ d.halfDone j stamp = true ∧
      isqrt 0 / 128 < d.rd F.PS_RES_AMP_amp_lo j) ∧
    (∃ s t, ∃ j : Fin 2, ∃ (sine cosine : List Int) (stamp : Nat), let d := State.now s t
      let sum (xs : List Int) := halfSum 0 (d.rd F.PS_RES_CFG_demod_phase j) false (xs.take 16)
      let amp := isqrt ((sum sine * sum sine + sum cosine * sum cosine).natAbs) / 128
      d.psOn j = true ∧ d.psMode j = 5 ∧ d.halfDone j stamp = true ∧ d.rd F.PS_RES_AMP_amp_lo j ≤ amp ∧ amp ≤ d.rd F.PS_RES_AMP_amp_hi j ∧
      (d.pos j).broken = [] ∧ sum sine ≠ 0 ∧ (d.pos j).seeded = false) :=
  ⟨⟨st ((dPos 4 {}).wr F.PS_SSI_RUN_start 1 2), 5, 1, by decide⟩,
    ⟨st ((dPos 4 { ssiReady := 6 }).wr F.PS_SSI_RUN_start 1 2), 5, 1, by decide⟩,
    fun b => match b with
      | true => ⟨st (wrs (dPos 4 { ssiBusy := true }) [(F.PS_SSI_CFG_parity, 1, 2), (F.PS_SSI_CFG_frame, 1, 13)]), 50000, 1, 0, by decide⟩
      | false => ⟨st (wrs (dPos 4 { ssiBusy := true }) [(F.PS_SSI_CFG_parity, 1, 2), (F.PS_SSI_CFG_frame, 1, 13)]), 50000, 1, 1, by decide⟩,
    ⟨st ((dPos 5 {}).markFenced Kind.posPort 1 true), 8000000, 1, 0, by decide⟩,
    ⟨st ((dPos 5 {}).wr F.PS_RES_AMP_amp_lo 1 50), 8000000, 1, 0, by decide⟩,
    ⟨st (wrs (dPos 5 {}) [(F.PS_RES_AMP_amp_lo, 1, 0), (F.PS_RES_AMP_amp_hi, 1, 200)]), 8000000, 1, List.replicate 16 100, [], 0, by decide⟩⟩

theorem witness_ObserversComparesRepeaters :
    (∀ b : Bool, ∃ s t, ∃ i : Fin 6, (State.now s t).fwStores = true ∧ (State.now s t).fenced Kind.posPort i = b) ∧
    (∃ s t, ∃ i : Fin 6, let d := State.now s t; d.psOn i = true ∧ (d.pos i).seeded = true ∧ (d.pos i).within = 63) ∧
    (∃ s t, ∃ i : Fin 6, ∃ stamp r, let d := State.now s t; d.flag F.PS_LATCH_CFG_enable i = true ∧
      d.holds Kind.posPort i (d.latchSelects i) = true ∧ d.fired (d.rd F.PS_LATCH_CFG_trigger i) = stamp :: r ∧ stamp / 16 + 120 ≤ d.time) ∧
    (∃ s t, ∃ i : Fin 6, ∃ (k : Fin 2) (hi : Word), let d := State.now s t; d.fenced Kind.posPort i = false ∧ d.flag F.PS_STAT_still i = false ∧
      0 < (d.pos i).spd ∧ (d.wr2 F.PS_CMP_HI i k hi.toNat).cmpValue i k ≤ d.count i) ∧
    (∃ s t, ∃ j : Fin 2, let d := State.now s t; let out := d.rdI64 F.EP_CNT_LO F.EP_CNT_HI j
      d.repOn j = true ∧ d.psOn (d.rd F.EP_CFG_source j) = true ∧ (d.rep j).lastEdge + d.repGap j ≤ d.time ∧
      out < d.repTarget j (d.time - 40)) ∧
    (∃ s t, ∃ j : Fin 2, let d := State.now s t; let out := d.rdI64 F.EP_CNT_LO F.EP_CNT_HI j
      d.repOn j = true ∧ d.psOn (d.rd F.EP_CFG_source j) = true ∧ (d.rep j).lastEdge + d.repGap j ≤ d.time ∧
      d.repTarget j (d.time - 40) < out) :=
  ⟨fun b => match b with
      | true => ⟨st (dFw.markFenced Kind.posPort 5 true), 0, 5, by decide⟩
      | false => ⟨st dFw, 0, 5, by decide⟩,
    ⟨st (dPos 1 { seeded := true, within := 63 }), 160, 1, by decide⟩,
    ⟨st (((wrs d0 [(F.PS_LATCH_CFG_enable, 1, 1), (F.PS_LATCH_CFG_trigger, 1, 5)]).setHolder 2 5 (some (Kind.posPort, 1))).setFired 5 [0]), 120, 1, 0, [],
      by decide⟩,
    ⟨st ((d0.setPos 1 { spd := 1 }).put F.PS_STAT_still 1 false), 0, 1, 0, 0, by decide⟩,
    ⟨st (dRep 65536), 80000, 0, by decide +kernel⟩, ⟨st (dRep (-65536)), 80000, 0, by decide +kernel⟩⟩

/-- R126: from lines 00 to 01 a quadrature port counts one step; from 001 to 110 a hall port is ILLEGAL. -/
theorem test_lines :
    (run (.lineChange 500 1 (lands true false false) 0 3) (st (dPos 1 {}))).count 1 = 1 ∧
      (run (.lineChange 500 1 (lands false true true) 0 3) (st (dPos 2 { prim := 1 }))).flag F.PS_STAT_illegal 1 = true := by
  decide +kernel

end Sys2Proof.Tests

namespace Sys2Proof.Tests

set_option Elab.async false

/-- A device with one record on its way to the pool. -/
def dRec (r : RecTok) : Dev := d0.withBe { d0.be with flight := [r] }

/-- Engine 3 declared dead with loop 7 to hand over, and engine 4 the one spare. -/
def dSpare : Dev :=
  ((wrs d0 [(F.BE_ENG_LOOPS_LO, 3, 128), (F.BE_ENG_STAT_spare, 4, 1)]).markFenced Kind.engine 3 true).setEng 3 { inForce := true }

theorem witness_RecordsAndReadiness :
    (∃ s t, ∃ (i k : Nat), ∃ isB rec, let d := State.now s t; d.be.flight[i]? = some (.shunt k isB rec (d.upd k)) ∧
      d.nextOfGate i (.shunt k isB rec (d.upd k)) = true) ∧
    (∃ s t, ∃ (i : Nat), ∃ x, let d := State.now s t; d.be.flight[i]? = some x ∧ d.nextOfGate i x = false) ∧
    (∃ s t, ∃ (i k : Nat), ∃ isB rec beat, let d := State.now s t; d.be.flight[i]? = some (.shunt k isB rec beat) ∧
      d.nextOfGate i (.shunt k isB rec beat) = true ∧ beat ≠ d.upd k) ∧
    (∃ s t, ∃ (i k : Nat), ∃ dv pv tn, let d := State.now s t; d.be.flight[i]? = some (.house k dv pv tn (d.upd k)) ∧
      d.nextOfGate i (.house k dv pv tn (d.upd k)) = true) ∧
    (∃ s t, ∃ (i p k : Nat) (rec : LatRec) (l : Nat), let d := State.now s t; d.be.flight[i]? = some (.latch p k 5 rec) ∧
      d.nextOfGate i (.latch p k 5 rec) = true ∧ d.upd k ≠ 5 ∧ l ∈ d.loops ∧ d.rd F.BE_LP_IN_lat_port l = p ∧ d.home l = k ∧
      (d.loop l).beat = 5 ∧ (d.loop l).waiting = true) ∧
    (∃ s t, ∃ (i p k : Nat) (rec : LatRec), let d := State.now s t; d.be.flight[i]? = some (.latch p k (d.upd k) rec) ∧
      d.nextOfGate i (.latch p k (d.upd k) rec) = true) ∧
    (∃ s t, ∃ (i k : Nat), ∃ stamp count, (State.now s t).be.flight[i]? = some (.edge k true stamp count) ∧
      (State.now s t).nextOfGate i (.edge k true stamp count) = true) ∧
    (∃ s t, ∃ l : Fin 64, let d := State.now s t; (d.loop l).waiting = true ∧ (d.loop l).beatAt + d.rd F.BE_LP_IN_start_limit l ≤ d.time ∧
      d.allHere l = false ∧ d.latchAhead ((d.loop l).beatAt + d.rd F.BE_LP_IN_start_limit l) = false) ∧
    (∃ s t, ∃ l : Fin 64, let d := State.now s t; (d.loop l).waiting = true ∧ (d.loop l).beatAt + d.rd F.BE_LP_IN_start_limit l ≤ d.time ∧
      d.latchAhead ((d.loop l).beatAt + d.rd F.BE_LP_IN_start_limit l) = true) ∧
    (∀ b : Bool, ∃ s t, ∃ l : Fin 64, (State.now s t).fwStores = true ∧ (State.now s t).fenced Kind.loop l = b) :=
  ⟨⟨st (dRec (.shunt 2 true {} 0)), 0, 0, 2, true, {}, by decide⟩,
    ⟨st (d0.withBe { d0.be with flight := [.house 1 0 0 0 0, .shunt 2 true {} 0] }), 0, 1, .shunt 2 true {} 0, by decide⟩, ⟨st (dRec (.shunt 2 true {} 1)), 0, 0, 2, true, {}, 1, by decide⟩,
    ⟨st (dRec (.house 2 1 2 3 0)), 0, 0, 2, 1, 2, 3, by decide⟩, ⟨st (((dRec (.latch 0 0 5 {})).put F.BE_LP_CFG_enable 63 true).setLoop 63 { beat := 5, waiting := true }), 0, 0, 0, 0, {}, 63, by decide⟩,
    ⟨st (dRec (.latch 2 1 0 {})), 0, 0, 2, 1, {}, by decide⟩,
    ⟨st (dRec (.edge 2 true 5 6)), 0, 0, 2, 5, 6, by decide⟩,
    ⟨st ((d0.put F.BE_LP_IN_lat 63 true).setLoop 63 { waiting := true }), 100000, 63, by decide⟩,
    ⟨st ((dRec (.latch 2 1 0 {})).setLoop 63 { waiting := true }), 100000, 63, by decide⟩,
    fun b => ⟨st (dFw.markFenced Kind.loop 63 b), 0, 63, by revert b; decide⟩⟩

theorem witness_DeadEnginesAndSpares :
    (∃ s t, ∃ e : Fin 12, ∃ r, let d := State.now s t; d.fenced Kind.engine e = false ∧ (d.eng e).run = some r ∧
      r.lastAt + 64 * d.rd F.BE_POOL_CFG_stall_limit 0 ≤ d.time) ∧
    (∃ s t, ∃ e : Fin 12, ∃ w sp, let d := State.now s t; d.fenced Kind.engine e = true ∧ (d.eng e).inForce = true ∧
      d.waitingEngine 1 = some w ∧ d.freeSpares = [sp] ∧ w ≠ sp) ∧
    (∃ s t, ∃ e : Fin 12, ∃ x < 12, let d := State.now s t; x ≠ e.val ∧ d.loopsWait x = true ∧ d.fenceHolds x = false ∧ d.freeSpares.length = 1 ∧
      ∀ y < 12, y ≠ x → d.loopsWait y = true → (d.eng x).deadOrder < (d.eng y).deadOrder) ∧
    (∃ s t, ∃ e : Fin 12, (State.now s t).fwStores = true ∧ (State.now s t).fenced Kind.engine e = true) :=
  ⟨⟨st (d0.setEng 11 { run := some { loop := 5, beat := 0 } }), 100000, 11, { loop := 5, beat := 0 }, by decide⟩,
    ⟨st dSpare, 0, 3, 3, 4, by decide⟩,
    ⟨st ((dSpare.setEng 3 {}).markFenced Kind.engine 5 true), 0, 5, 3, by decide, by decide⟩, ⟨st (dFw.markFenced Kind.engine 3 true), 0, 3, by decide⟩⟩

end Sys2Proof.Tests

namespace Sys2Proof.Tests

set_option Elab.async false

/-- A run of loop 5 at its second operation, with two placed records of ports 0 and 2. -/
def r5 : Run := { loop := 5, beat := 4, pc := 1, recs := { a := { current := 0x10000, info := 8 }, b := { current := 0x20000, info := 10 } } }

/-- Engine 3 in that run; the operation has code `code`, mod `m`, dst 9, a 12, b 16, c 20 and imm `imm`. Loop 5 sends telemetry, and the
engines own bank 0. -/
def dOp (code m imm : Nat) : Dev :=
  let d := wrs d0 [(F.BE_LP_PROG_length, 5, 4), (F.BE_LP_TEL_enable, 5, 1), (F.MB_BANK_STAT_owner, 0, 2)]
  let d := (d.setLt 0x5008 (BitVec.ofNat 32 (20 * 2 ^ 20 + imm))).setLt 0x500C (BitVec.ofNat 32 (code * 2 ^ 26 + m * 2 ^ 20 + 9 * 2 ^ 12 + 12 * 2 ^ 4 + 1))
  d.setEng 3 { run := some r5 }

theorem witness_operations (code : Fin 20) : 1 ≤ code.val → (State.now (st (dOp code 0 5)) 9).atOp 3 code r5 := by
  unfold Dev.atOp; revert code; decide +kernel

theorem witness_modes : (∀ m : Fin 8, opMod ((State.now (st (dOp 1 (8 * m) 5)) 9).opWord 5 1) = 8 * m.val) ∧
    opDst ((State.now (st (dOp 1 0 5)) 9).opWord 5 1) = 9 ∧ opC ((State.now (st (dOp 1 0 5)) 9).opWord 5 1) = 20 := by decide +kernel

theorem witness_emit_store_recon : let d := State.now (st (dOp 3 0 5)) 9
    d.flag F.BE_LP_TEL_enable 5 = true ∧ d.fenceHolds 3 = false ∧ d.fenced Kind.bank (bankOf (d.loopBankAddr 5 5)) = false ∧
    d.bankOwned 4 (bankOf (d.loopBankAddr 5 5)) = true ∧ infoPlaced r5.recs.a.info = true ∧ infoPlaced r5.recs.b.info = true ∧
    infoPhase r5.recs.a.info = 0 ∧ infoPhase r5.recs.b.info = 2 := by decide +kernel

/-- A LOAD of a bank word with no other access waiting, and with one of an engine of an earlier turn. -/
theorem witness_turn : let d := State.now (st (dOp 1 40 5)) 9; d.atOp 3 1 r5 ∧ d.opInTurn 3 [] = true ∧ d.opInTurn 3 [.engine 0] = false := by
  unfold Dev.atOp; decide +kernel

/-- An engine dead for 80 ticks and more, still in its run. -/
theorem witness_fenced_engine : let d := State.now (st ((dOp 9 0 5).withFlt { (dOp 9 0 5).flt with fenced := [(256 * Kind.engine + 3, true)] })) 100
    d.fenceHolds 3 = true ∧ d.atOp 3 9 r5 := by
  unfold Dev.atOp; decide +kernel

/-- A section whose bounds cross: lo 7/8 above hi 1/8. -/
theorem witness_clamped : let d := State.now (st (((dOp 4 0 0).setLt (coefBase 5 0 + 20) 0x70000000).setLt (coefBase 5 0 + 24) 0x10000000)) 9
    let b := d.bounds 5 (d.activeBank 5) 0 r5.raw
    d.atOp 3 4 r5 ∧ d.fenceHolds 3 = false ∧ b.2 < b.1 := by
  unfold Dev.atOp; decide +kernel

end Sys2Proof.Tests

namespace Sys2Proof.Tests

set_option Elab.async false

/-- A sealed device: machine 0 in a state, with sets 0 and 1 as given, LOOP stages and loops; other registers written on top. -/
def dTm (state sets : Nat) (l : List (Fd × Nat × Nat)) : Dev :=
  wrs (wrs d0 [(F.DEV_STATE_state, 0, DevSt.sealed), (F.SC_TM_CFG_enable, 0, 1), (F.SC_TM_CFG_sets, 0, sets), (F.SC_TM_CFG_min_sets, 0, 1),
    (F.SC_TM_STAT_state, 0, state), (F.SC_TM_STAT_active, 0, sets), (F.TB_STG_CFG_enable, 0, 1), (F.TB_STG_CFG_source, 0, 1),
    (F.TB_STG_CFG_enable, 1, 1), (F.TB_STG_CFG_source, 1, 1), (F.BE_LP_CFG_enable, 0, 1), (F.BE_LP_CFG_home, 0, 0),
    (F.BE_LP_CFG_enable, 1, 1), (F.BE_LP_CFG_home, 1, 1)]) l

def xTm (op mode target : Nat) : Descr := { opcode := op, target := 0, param1 := mode, param2 := target }

theorem witness_TractionCommands :
    (∀ st0 ∈ [2, 8], ∃ s t x, let d := State.now s t; d.standing 5 3 .handed x ∧ x.opcode = Op.TM_START ∧ x.target = 0 ∧ d.flag F.SC_TM_CFG_enable 0 = true ∧ d.isSealed = true ∧
      d.tmState 0 = st0 ∧ (d.tmOf 0).job ≠ some (5, 3) ∧ d.rd F.SC_TM_CFG_min_sets 0 ≤ (d.availableSets 0).length) ∧
    (∃ s t x, let d := State.now s t; d.standing 5 3 .handed x ∧ x.opcode = Op.TM_START ∧ x.target = 0 ∧ d.flag F.SC_TM_CFG_enable 0 = true ∧ d.isSealed = true ∧
      d.tmState 0 = 2 ∧ (d.tmOf 0).job ≠ some (5, 3) ∧ (d.availableSets 0).length < d.rd F.SC_TM_CFG_min_sets 0) ∧
    (∃ s t x, let d := State.now s t; d.standing 5 3 .handed x ∧ x.opcode = Op.TM_START ∧ x.target = 0 ∧ d.isSealed = false ∧
      d.flag F.SC_TM_CFG_enable 0 = true ∧ (d.tmOf 0).job ≠ some (5, 3)) ∧
    (∀ st0 ∈ [2, 6, 8], ∃ s t x, let d := State.now s t; d.standing 5 3 .handed x ∧ x.opcode = Op.TM_TARGET ∧ x.target = 0 ∧
      d.tmState 0 = st0 ∧ (d.tmOf 0).job ≠ some (5, 3) ∧ (d.tmOf 0).pmode ≠ 4) ∧
    (∃ s t x, let d := State.now s t; d.standing 5 3 .handed x ∧ x.opcode = Op.TM_TARGET ∧ x.target = 0 ∧ d.tmState 0 = 6 ∧
      (d.tmOf 0).job ≠ some (5, 3) ∧ (d.tmOf 0).pmode = 4 ∧ x.param1 % 4 = 2 ∧ lowWord (x.param2 % 2 ^ 32) ≠ 0 ∧
      negQ (lowWord (x.param2 % 2 ^ 32)) ≠ negQ (d.word (F.SC_TM_SPEED.off 0 0)) ∧
      d.rd F.SC_TM_REENGAGE 0 < (d.word (F.SC_TM_SPEED.off 0 0)).toInt.natAbs) ∧
    (∃ s t x, let d := State.now s t; d.standing 5 3 .handed x ∧ x.opcode = Op.TM_STOP ∧ x.target = 0 ∧ d.tmState 0 ≠ 1 ∧
      (d.tmOf 0).job ≠ some (5, 3)) :=
  ⟨fun st0 h => ⟨st (dItem .handed (xTm Op.TM_START 1 7) (dTm st0 1 [])), 9, xTm Op.TM_START 1 7, stands _ _ _ _, by revert st0 h; decide +kernel⟩,
    ⟨st (dItem .handed (xTm Op.TM_START 1 7) (dTm 2 0 [])), 9, xTm Op.TM_START 1 7, stands _ _ _ _, by decide +kernel⟩,
    ⟨st (dItem .handed (xTm Op.TM_START 1 7) (dTm 2 0 [(F.DEV_STATE_state, 0, 2)])), 9, xTm Op.TM_START 1 7, stands _ _ _ _, by decide +kernel⟩,
    fun st0 h => ⟨st (dItem .handed (xTm Op.TM_TARGET 1 7) (dTm st0 1 [])), 9, xTm Op.TM_TARGET 1 7, stands _ _ _ _, by revert st0 h; decide +kernel⟩,
    ⟨st (dItem .handed (xTm Op.TM_TARGET 2 0xFFFF0000) ((dTm 6 1 [(F.SC_TM_SPEED, 0, 0x10000000)]).setTm 0 { pmode := 4 })), 9,
      xTm Op.TM_TARGET 2 0xFFFF0000, stands _ _ _ _, by decide +kernel⟩,
    ⟨st (dItem .handed (xTm Op.TM_STOP 0 0) (dTm 6 1 [])), 9, xTm Op.TM_STOP 0 0, stands _ _ _ _, by decide +kernel⟩⟩

/-- Machine 0 in MEASURING on a locked port. -/
def dCatch (still speed : Nat) : Dev :=
  wrs (dTm 3 1 []) [(F.PS_STAT_running, 0, 1), (F.PS_STAT_locked, 0, 1), (F.PS_STAT_still, 0, still), (F.PS_OBS_SPEED, 0, speed),
    (F.SC_TM_CATCH, 0, 0x10000), (F.SC_TM_KE, 0, 0), (F.PP_SUPPLY_hi_supply, 0, 2000), (F.PP_SUPPLY_hi_supply, 1, 2000), (F.PP_SUPPLY_hi_supply, 2, 2000)]

theorem witness_TractionCatch :
    (∀ x ∈ [((1 : Nat), (0 : Nat)), (0, 0x20000), (0, 0x8000)], ∃ s t, let d := State.now s t; let p := d.rd F.SC_TM_CFG_pos_port 0
      d.tmState 0 = 3 ∧ d.sensorless 0 = false ∧ d.portLocked p = true ∧ max 1 (d.rd F.SC_TM_CFG_min_sets 0) ≤ (d.tmJoining 0).length ∧
      d.flag F.PS_STAT_still p = (x.1 == 1) ∧ (d.word (F.PS_OBS_SPEED.off p 0)).toInt.natAbs = x.2 ∧ d.rd F.SC_TM_CATCH 0 = 0x10000 ∧
      d.emfAbove 0 (d.word (F.PS_OBS_SPEED.off p 0)).toInt (d.linkVolts 0) = false ∧
      ∀ k ∈ d.tmJoining 0, ∀ j ∈ stagePorts (4 * 0 + k), d.uvloRise j ≤ 10 * d.rd F.PP_SUPPLY_hi_supply j) ∧
    (∃ s t, let d := State.now s t; d.tmState 0 = 3 ∧ d.sensorless 0 = false ∧ d.portLocked (d.rd F.SC_TM_CFG_pos_port 0) = false ∧
      (d.tmOf 0).since + 800000 * d.rd F.SC_TM_TIMES_catch_time 0 ≤ d.time) ∧
    (∃ s t, let d := State.now s t; d.tmState 0 = 4 ∧ d.activeStages 0 = [0] ∧ (∀ k ∈ d.activeStages 0, d.flag F.TB_STG_RUN_run k = true ∧
      (d.stg k).startAt + 8000 * d.rd F.SC_TM_TIMES_precharge 0 ≤ d.time) ∧ 8000 * d.rd F.SC_TM_TIMES_precharge 0 ≤ d.time) ∧
    (∃ s t, let d := State.now s t; d.tmState 0 = 5 ∧ (∀ k ∈ d.activeStages 0, d.flag F.TB_STG_STAT_running k = true) ∧
      d.rd F.SC_TM_TIMES_catch_hold 0 ≤ d.updatesSince (4 * 0 + d.refSet 0) ((d.activeStages 0).foldl (fun n k => max n (d.stg k).droveAt) 0)) ∧
    (∃ s t, let d := State.now s t; d.tmState 0 = 7 ∧ d.sensorless 0 = false ∧
      (d.word (F.SC_TM_SPEED.off 0 0)).toInt.natAbs ≤ d.rd F.SC_TM_REENGAGE 0) ∧
    (∃ s t, let d := State.now s t; d.tmState 0 ≠ 1 ∧ d.sensorless 0 = false ∧ (∀ k ∈ d.tmStages 0, d.flag F.TB_STG_RUN_run k = false) ∧
      d.emfAbove 0 (d.word (F.PS_OBS_SPEED.off (d.rd F.SC_TM_CFG_pos_port 0) 0)).toInt (d.linkVolts 0) = true) ∧
    (∃ s t, let d := State.now s t; d.tmState 0 = 6 ∧ d.tmLost 0 = [0] ∧ count4 (d.rd F.SC_TM_STAT_active 0) ≤ d.rd F.SC_TM_CFG_min_sets 0) ∧
    (∃ s t, let d := State.now s t; d.tmState 0 = 6 ∧ d.tmLost 0 = [1] ∧ d.rd F.SC_TM_CFG_min_sets 0 < count4 (d.rd F.SC_TM_STAT_active 0) ∧
      1 ≠ d.refSet 0) :=
  ⟨fun x h => ⟨st (dCatch x.1 x.2), 9, by revert x h; decide +kernel⟩,
    ⟨st (dTm 3 1 []), 300000000, by decide +kernel⟩,
    ⟨st (dTm 4 1 [(F.TB_STG_RUN_run, 0, 1)]), 3000000, by decide +kernel⟩,
    ⟨st (dTm 5 1 [(F.TB_STG_STAT_running, 0, 1), (F.SC_TM_TIMES_catch_hold, 0, 0)]), 0, by decide +kernel⟩,
    ⟨st (dTm 7 1 []), 0, by decide +kernel⟩,
    ⟨st (dTm 2 1 [(F.PS_OBS_SPEED, 0, 0x10000), (F.SC_TM_KE, 0, 0x10000)]), 0, by decide +kernel⟩,
    ⟨st (dTm 6 1 [(F.TB_STG_STAT_tripped, 0, 1)]), 0, by decide +kernel⟩,
    ⟨st (dTm 6 3 [(F.TB_STG_STAT_tripped, 1, 1)]), 0, by decide +kernel⟩⟩

/-- A start of machine 0 while it is in OFF or not enabled; a sensorless machine 0 with a LOW_ON held on a set; and one that coasts. -/
theorem witness_TractionOff :
    (∀ e ∈ [((0 : Nat), (2 : Nat)), (1, 1)], ∃ s t x, let d := State.now s t; d.standing 5 3 .handed x ∧ x.opcode = Op.TM_START ∧ x.target = 0 ∧
      d.isSealed = true ∧ d.flag F.SC_TM_CFG_enable 0 = (e.1 == 1) ∧ d.tmState 0 = e.2 ∧ (d.tmOf 0).job ≠ some (5, 3)) ∧
    (∃ s t, let d := State.now s t; d.tmState 0 = 3 ∧ d.sensorless 0 = true ∧ (d.tmOf 0).ej.isSome = true ∧
      ∃ k ∈ d.tmStages 0, d.holdsLowOn k = true) ∧
    (∀ run ∈ [0, 1], ∃ s t, let d := State.now s t; d.tmState 0 = 2 ∧ d.sensorless 0 = true ∧ d.tmStages 0 = [0] ∧
      d.flag F.TB_STG_RUN_run 0 = (run == 1) ∧ d.quietFrom 0 = 0 ∧ d.holdsLowOn 0 = false ∧ (∀ k < 4, d.blanked k = false) ∧ (d.tmOf 0).refEdge + 800000 * d.rd F.SC_TM_TIMES_catch_time 0 ≤ d.time) :=
  ⟨fun e h => ⟨st (dItem .handed (xTm Op.TM_START 1 7) (dTm e.2 1 [(F.SC_TM_CFG_enable, 0, e.1)])), 9, xTm Op.TM_START 1 7, stands _ _ _ _,
      by revert e h; decide +kernel⟩,
    ⟨st ((dTm 3 1 [(F.SC_TM_CFG_sensorless, 0, 1), (F.WM_SW_STAT_held, 0, 1), (F.WM_SW_STAT_action, 0, 2)]).setTm 0 { ej := some 5 }), 9,
      by decide +kernel⟩,
    fun run h => ⟨st (dTm 2 1 [(F.SC_TM_CFG_sensorless, 0, 1), (F.TB_STG_RUN_run, 0, run)]), 300000000, by revert run h; decide +kernel⟩⟩

end Sys2Proof.Tests

namespace Sys2Proof.Tests

set_option Elab.async false

/-- Stages with LOOP source, each with a PRIMARY loop of its own number. -/
def dStages (ss : List Nat) : Dev :=
  ss.foldl (fun d s => wrs d [(F.TB_STG_CFG_enable, s, 1), (F.TB_STG_CFG_source, s, 1), (F.BE_LP_CFG_enable, s, 1), (F.BE_LP_CFG_home, s, s)]) d0

/-- A sealed device with the charger in a state. -/
def dCh (state : Nat) (c : Ch) (l : List (Fd × Nat × Nat)) : Dev :=
  (wrs (wrs (dStages [8, 9, 10, 11]) [(F.DEV_STATE_state, 0, DevSt.sealed), (F.SC_CH_CFG_enable, 0, 1), (F.SC_CH_STAT_state, 0, state)]) l).withCh c

def xCh (op mode : Nat) : Descr := { opcode := op, param1 := mode, param2 := 0x700000005 }

theorem witness_ChargingCommands :
    (∃ s t x, let d := State.now s t; d.standing 5 3 .handed x ∧ d.chOn = true ∧ d.ch.job ≠ some (5, 3) ∧ x.opcode = Op.CH_START ∧
      d.isSealed = true ∧ d.chState = 2 ∧ (∀ k ∈ chStages, d.stageAvailable k = true) ∧ x.param1 % 4 = 1 ∧
      1 ≤ d.rd F.SC_CH_STAT_cable 0 ∧ d.rd F.SC_CH_STAT_cable 0 ≤ 4 ∧ d.rd F.SC_CH_STAT_cp 0 = 2 ∧ 6 ≤ d.rd F.SC_CH_STAT_i_allow 0) ∧
    (∃ s t x, let d := State.now s t; d.standing 5 3 .handed x ∧ d.chOn = true ∧ d.ch.job ≠ some (5, 3) ∧ x.opcode = Op.CH_START ∧
      d.isSealed = true ∧ d.chState = 2 ∧ (∀ k ∈ chStages, d.stageAvailable k = true) ∧ x.param1 % 4 = 1 ∧ d.rd F.SC_CH_STAT_cable 0 = 0) ∧
    (∃ s t x, let d := State.now s t; d.standing 5 3 .handed x ∧ d.chOn = true ∧ d.ch.job ≠ some (5, 3) ∧ x.opcode = Op.CH_START ∧
      d.isSealed = true ∧ d.chState = 2 ∧ (∀ k ∈ chStages, d.stageAvailable k = true) ∧ x.param1 % 4 = 2 ∧
      d.flag F.SC_CH_CFG_export_en 0 = true ∧ d.rd F.SC_CH_STAT_cp 0 = 1 ∧ 10 * d.lineVolts < (2 * d.rd F.SC_CH_GRID_v_lo 0 : Nat)) ∧
    (∃ s t x, let d := State.now s t; d.standing 5 3 .handed x ∧ d.chOn = true ∧ d.ch.job ≠ some (5, 3) ∧
      x.opcode = Op.CH_START ∧ d.isSealed = false) ∧
    (∃ s t x, let d := State.now s t; d.standing 5 3 .handed x ∧ d.chOn = true ∧ d.ch.job ≠ some (5, 3) ∧ d.chState = 6 ∧
      x.opcode = Op.CH_TARGET ∧ x.param1 % 4 = d.ch.mode ∧ x.param1 % 4 = 1) ∧
    (∀ st0 ∈ [3, 4, 5, 6, 7], ∃ s t x, let d := State.now s t; d.standing 5 3 .handed x ∧ d.chOn = true ∧ d.ch.job ≠ some (5, 3) ∧
      d.chState = st0 ∧ d.chCause = none ∧ x.opcode = Op.CH_STOP) ∧
    (∀ st0 ∈ [5, 6], ∃ s t x, let d := State.now s t; d.standing 5 3 .handed x ∧ d.chOn = true ∧ d.ch.job ≠ some (5, 3) ∧
      d.chState = st0 ∧ d.chCause ≠ none ∧ x.opcode = Op.CH_STOP) ∧
    (∀ op ∈ [Op.CH_START, Op.CH_TARGET, Op.CH_STOP], ∃ s t x, let d := State.now s t; d.standing 5 3 .handed x ∧ d.chOn = true ∧
      d.ch.job ≠ some (5, 3) ∧ d.chState = 1 ∧ d.isSealed = true ∧ x.opcode = op) :=
  ⟨⟨st (dItem .handed (xCh Op.CH_START 1) (dCh 2 {} [(F.SC_CH_STAT_cable, 0, 3), (F.SC_CH_STAT_cp, 0, 2), (F.SC_CH_STAT_i_allow, 0, 6)])), 9,
      xCh Op.CH_START 1, stands _ _ _ _, by decide +kernel⟩,
    ⟨st (dItem .handed (xCh Op.CH_START 1) (dCh 2 {} [])), 9, xCh Op.CH_START 1, stands _ _ _ _, by decide +kernel⟩,
    ⟨st (dItem .handed (xCh Op.CH_START 2) (dCh 2 {} [(F.SC_CH_CFG_export_en, 0, 1), (F.SC_CH_STAT_cp, 0, 1), (F.SC_CH_GRID_v_lo, 0, 100)])), 9,
      xCh Op.CH_START 2, stands _ _ _ _, by decide +kernel⟩,
    ⟨st (dItem .handed (xCh Op.CH_START 1) (dCh 2 {} [(F.DEV_STATE_state, 0, 2)])), 9, xCh Op.CH_START 1, stands _ _ _ _, by decide +kernel⟩,
    ⟨st (dItem .handed (xCh Op.CH_TARGET 1) (dCh 6 { mode := 1 } [])), 9, xCh Op.CH_TARGET 1, stands _ _ _ _, by decide +kernel⟩,
    fun st0 h => ⟨st (dItem .handed (xCh Op.CH_STOP 1) (dCh st0 {} [])), 9, xCh Op.CH_STOP 1, stands _ _ _ _, by revert st0 h; decide +kernel⟩,
    fun st0 h => ⟨st (dItem .handed (xCh Op.CH_STOP 1) (dCh st0 { overEvent := true } [])), 9, xCh Op.CH_STOP 1, stands _ _ _ _,
      by revert st0 h; decide +kernel⟩,
    fun op h => ⟨st (dItem .handed (xCh op 1) (dCh 1 {} [])), 9, xCh op 1, stands _ _ _ _, by revert op h; decide +kernel⟩⟩

/-- The grid at 400 V, 50 Hz, with the bus up. -/
def dGrid (d : Dev) : Dev :=
  (((wrs d [(F.SC_CH_GRID_v_lo, 0, 100), (F.SC_CH_GRID_v_hi, 0, 250), (F.SC_CH_GRID_f_lo, 0, 45), (F.SC_CH_GRID_f_hi, 0, 55),
    (F.SH_DV, 8, 800 * 65536), (F.SH_DV, 9, 800 * 65536)]).setLt 0x74800 (BitVec.ofNat 32 (400 * 2 ^ 21))).setLt 0x74804
      (BitVec.ofNat 32 (50 * 2 ^ 24))).setLt 0x74808 1

theorem witness_ChargingEvents :
    (∃ s t, let d := State.now s t; d.chOn = true ∧ d.ch.pilot.periods = 8 ∧ d.ch.pilot.hiN ≠ 0 ∧ d.ch.pilot.loN ≠ 0) ∧
    (∃ s t, let d := State.now s t; d.chOn = true ∧ d.ch.pilot.refreshAt < d.ch.pilot.lastEdge + 2400000 ∧ d.ch.pilot.refreshAt + 800000 ≤ d.time ∧ d.ch.pilot.lastEdge + 2400000 ≤ d.time) ∧
    (∃ s t, let d := State.now s t; d.chOn = true ∧ d.chState = 3 ∧ d.cpReady = true) ∧
    (∃ s t, let d := State.now s t; d.chOn = true ∧ d.chState = 4 ∧ d.gridValid = true) ∧
    (∃ s t, let d := State.now s t; d.chOn = true ∧ d.chState = 5 ∧ d.ch.second = false ∧ d.allRun d.chFirst = true ∧ d.busUp = true) ∧
    (∃ s t, let d := State.now s t; d.chOn = true ∧ d.chState = 3 ∧ d.ch.since + 80000000 * d.rd F.SC_CH_LIM_c_wait 0 ≤ d.time ∧ d.cpReady = false) ∧
    (∃ s t, let d := State.now s t; d.chOn = true ∧ d.chState = 4 ∧ d.ch.since + 80000000 * d.rd F.SC_CH_LIM_grid_wait 0 ≤ d.time ∧
      d.gridValid = false) ∧
    (∃ s t, let d := State.now s t; d.chOn = true ∧ d.chState = 8 ∧ d.ch.since + 8000000 * d.rd F.SC_CH_LIM_stop_time 0 ≤ d.time) ∧
    (∃ s t, let d := State.now s t; d.chOn = true ∧ 5 ≤ d.chState ∧ d.ch.mode = 1 ∧ d.gridValid = false ∧
      d.ch.gridBad = some 0 ∧ 0 + 16000000 < d.time) ∧
    (∃ s t, let d := State.now s t; d.chOn = true ∧ 5 ≤ d.chState ∧ d.chCause ≠ none) ∧
    (∃ s t, let d := State.now s t; d.chOn = true ∧ d.chState ≠ 1 ∧ d.chCause = none ∧ d.chActive ≠ d.rd F.SC_CH_STAT_active 0) :=
  ⟨⟨st (dCh 2 { pilot := { periods := 8, dutySum := 4, hiN := 1, loN := 1 } } []), 9, by decide +kernel⟩,
    ⟨st (dCh 2 {} []), 2400000, by decide +kernel⟩, ⟨st (dCh 3 {} [(F.SC_CH_STAT_cp, 0, 3)]), 9, by decide +kernel⟩,
    ⟨st (dGrid (dCh 4 {} [])), 9, by decide +kernel⟩,
    ⟨st (dGrid (dCh 5 { mode := 1 } [(F.TB_STG_RUN_run, 8, 1), (F.TB_STG_RUN_run, 9, 1), (F.SC_CH_BUS_bus_target, 0, 800)])), 9, by decide +kernel⟩,
    ⟨st (dCh 3 {} []), 30000000000, by decide +kernel⟩, ⟨st (dCh 4 {} []), 30000000000, by decide +kernel⟩,
    ⟨st (dCh 8 {} []), 30000000000, by decide +kernel⟩, ⟨st (dCh 6 { mode := 1, gridBad := some 0 } []), 16000001, by decide +kernel⟩,
    ⟨st (dCh 6 { overEvent := true } []), 9, by decide +kernel⟩,
    ⟨st (dCh 6 {} [(F.TB_STG_STAT_running, 8, 1)]), 9, by decide +kernel⟩⟩

/-- A sealed device with the converter in a state. -/
def dLv (state : Nat) (c : Ch) (l : List (Fd × Nat × Nat)) : Dev :=
  (wrs (wrs (dStages [12, 14]) [(F.DEV_STATE_state, 0, DevSt.sealed), (F.SC_LV_CFG_enable, 0, 1), (F.SC_LV_STAT_state, 0, state)]) l).withCh c

theorem witness_Conversion :
    (∃ s t x, let d := State.now s t; d.standing 5 3 .handed x ∧ d.lvOn = true ∧ d.lvState ≠ 1 ∧ d.ch.lvJob ≠ some (5, 3) ∧
      x.opcode = Op.LV_START ∧ d.isSealed = true ∧ d.lvLive = false ∧ d.stageAvailable 12 = true ∧ d.stageAvailable 14 = true) ∧
    (∀ live : Bool, ∃ s t x, let d := State.now s t; d.standing 5 3 .handed x ∧ d.lvOn = true ∧ d.lvState ≠ 1 ∧ d.ch.lvJob ≠ some (5, 3) ∧
      x.opcode = Op.LV_TARGET ∧ d.lvLive = live) ∧
    (∃ s t x, let d := State.now s t; d.standing 5 3 .handed x ∧ d.lvOn = true ∧ d.lvState ≠ 1 ∧ d.ch.lvJob ≠ some (5, 3) ∧ x.opcode = Op.LV_STOP) ∧
    (∃ s t, let d := State.now s t; d.lvState = 3 ∧ d.ch.lvSync = false ∧ d.lvInTol = true ∧
      d.time ≤ d.ch.lvSince + 800000 * d.rd F.SC_LV_CFG_start_time 0) ∧
    (∃ s t, let d := State.now s t; d.lvState = 3 ∧ d.ch.lvSync = false ∧ d.ch.lvSince + 800000 * d.rd F.SC_LV_CFG_start_time 0 ≤ d.time) ∧
    (∃ s t, let d := State.now s t; d.lvLive = true ∧ d.stageLost 12 = true) ∧
    (∃ s t x, let d := State.now s t; d.standing 5 3 .handed x ∧ d.lvOn = true ∧ d.lvState ≠ 1 ∧ d.ch.lvJob ≠ some (5, 3) ∧
      x.opcode = Op.LV_START ∧ d.isSealed = false) ∧
    (∃ s t, let d := State.now s t; d.lvOn = true ∧ d.lvState ≠ 1 ∧ d.stageLost 12 = false ∧ d.stageLost 14 = false ∧
      d.lvActive ≠ d.rd F.SC_LV_STAT_active 0) :=
  ⟨⟨st (dItem .handed (xCh Op.LV_START 0) (dLv 2 {} [])), 9, xCh Op.LV_START 0, stands _ _ _ _, by decide +kernel⟩,
    fun live => match live with
      | true => ⟨st (dItem .handed (xCh Op.LV_TARGET 0) (dLv 3 {} [])), 9, xCh Op.LV_TARGET 0, stands _ _ _ _, by decide +kernel⟩
      | false => ⟨st (dItem .handed (xCh Op.LV_TARGET 0) (dLv 2 {} [])), 9, xCh Op.LV_TARGET 0, stands _ _ _ _, by decide +kernel⟩,
    ⟨st (dItem .handed (xCh Op.LV_STOP 0) (dLv 3 {} [])), 9, xCh Op.LV_STOP 0, stands _ _ _ _, by decide +kernel⟩,
    ⟨st (dLv 3 {} []), 9, by decide +kernel⟩, ⟨st (dLv 3 {} []), 300000000, by decide +kernel⟩,
    ⟨st (dLv 3 {} [(F.TB_STG_STAT_tripped, 12, 1)]), 9, by decide +kernel⟩,
    ⟨st (dItem .handed (xCh Op.LV_START 0) (dLv 2 {} [(F.DEV_STATE_state, 0, 2)])), 9, xCh Op.LV_START 0, stands _ _ _ _, by decide +kernel⟩,
    ⟨st (dLv 4 {} [(F.TB_STG_STAT_running, 12, 1)]), 9, by decide +kernel⟩⟩

end Sys2Proof.Tests

namespace Sys2Proof.Tests

set_option Elab.async false

/-- A sealed device with drive 1 in a state on position port 0, its stage LS2 and loop 16 set up. -/
def dDr (state : Nat) (v : DrT) (l : List (Fd × Nat × Nat)) : Dev :=
  (wrs (wrs d0 [(F.DEV_STATE_state, 0, DevSt.sealed), (F.SC_DR_CFG_enable, 1, 1), (F.SC_DR_STAT_state, 1, state), (F.TB_STG_CFG_enable, 16, 1),
    (F.TB_STG_CFG_source, 16, 1), (F.BE_LP_CFG_enable, 16, 1), (F.BE_LP_CFG_home, 16, 16)]) l).setDrive 1 v

def xDr (op mode target : Nat) : Descr := { opcode := op, target := 1, param1 := mode, param2 := target }

theorem witness_DriveCommands :
    (∀ st0 ∈ [2, 9], ∀ k ∈ [0, 1, 2], ∃ s t x, let d := State.now s t; d.standing 5 3 .handed x ∧ x.target = 1 ∧ d.flag F.SC_DR_CFG_enable 1 = true ∧
      (d.drive 1).job ≠ some (5, 3) ∧ x.opcode = Op.DR_START ∧ d.isSealed = true ∧ d.drState 1 = st0 ∧ d.drKnown 1 = (k != 0) ∧
      (k = 1 → (d.drSpeed 1).toInt.natAbs ≤ 65536 * d.rd F.SC_DR_SPD_catch 1) ∧
      (k = 2 → 65536 * d.rd F.SC_DR_SPD_catch 1 < (d.drSpeed 1).toInt.natAbs)) ∧
    (∃ s t x, let d := State.now s t; d.standing 5 3 .handed x ∧ x.target = 1 ∧ d.flag F.SC_DR_CFG_enable 1 = true ∧
      (d.drive 1).job ≠ some (5, 3) ∧ x.opcode = Op.DR_START ∧ d.isSealed = false) ∧
    (∃ s t x, let d := State.now s t; d.standing 5 3 .handed x ∧ x.target = 1 ∧ d.flag F.SC_DR_CFG_enable 1 = true ∧
      (d.drive 1).job ≠ some (5, 3) ∧ x.opcode = Op.DR_TARGET ∧ d.drState 1 = 2) ∧
    (∃ s t x, let d := State.now s t; d.standing 5 3 .handed x ∧ x.target = 1 ∧ d.flag F.SC_DR_CFG_enable 1 = true ∧
      (d.drive 1).job ≠ some (5, 3) ∧ x.opcode = Op.DR_TARGET ∧ d.drState 1 = 7 ∧ x.param1 % 4 = 2 ∧
      negQ (lowWord x.param2) = negQ (d.drSpeed 1)) ∧
    (∃ s t x, let d := State.now s t; d.standing 5 3 .handed x ∧ x.target = 1 ∧ d.flag F.SC_DR_CFG_enable 1 = true ∧
      (d.drive 1).job ≠ some (5, 3) ∧ x.opcode = Op.DR_TARGET ∧ d.drState 1 = 7 ∧ x.param1 % 4 = 2 ∧
      negQ (lowWord x.param2) ≠ negQ (d.drSpeed 1) ∧ lowWord x.param2 ≠ 0 ∧
      65536 * d.rd F.SC_DR_SPD_reengage 1 < (d.drSpeed 1).toInt.natAbs) ∧
    (∃ s t x, let d := State.now s t; d.standing 5 3 .handed x ∧ x.target = 1 ∧ d.flag F.SC_DR_CFG_enable 1 = true ∧
      (d.drive 1).job ≠ some (5, 3) ∧ x.opcode = Op.DR_STOP ∧ d.drState 1 ≠ 1) ∧
    (∃ s t x, let d := State.now s t; d.standing 5 3 .handed x ∧ x.target = 1 ∧ d.flag F.SC_DR_CFG_enable 1 = true ∧
      (d.drive 1).job ≠ some (5, 3) ∧ x.opcode = Op.DR_START ∧ d.isSealed = true ∧ d.drState 1 = 1) ∧
    (∃ s t x, let d := State.now s t; d.standing 5 3 .handed x ∧ x.target = 1 ∧ d.flag F.SC_DR_CFG_enable 1 = true ∧
      (d.drive 1).job ≠ some (5, 3) ∧ x.opcode = Op.DR_TARGET ∧ d.drState 1 = 3 ∧ (d.drive 1).base.isSome = true ∧ x.param1 % 4 ≠ (d.drive 1).mode) ∧
    (∃ s t x, let d := State.now s t; d.standing 5 3 .handed x ∧ x.target = 1 ∧ d.flag F.SC_DR_CFG_enable 1 = true ∧
      (d.drive 1).job ≠ some (5, 3) ∧ x.opcode = Op.DR_TARGET ∧ d.drState 1 = 4 ∧ x.param1 % 4 = 1 ∧
      (d.drive 1).mode = 1 ∧ lowWord x.param2 ≠ (d.drive 1).target) :=
  ⟨fun st0 h k hk => ⟨st (dItem .handed (xDr Op.DR_START 1 7) (dDr st0 {} [(F.PS_STAT_running, 0, min 1 k), (F.PS_STAT_locked, 0, min 1 k),
      (F.PS_OBS_SPEED, 0, 0x1000000 * (k / 2)), (F.SC_DR_SPD_catch, 1, 1)])), 9, xDr Op.DR_START 1 7, stands _ _ _ _,
      by revert k hk; revert st0 h; decide +kernel⟩,
    ⟨st (dItem .handed (xDr Op.DR_START 1 7) (dDr 2 {} [(F.DEV_STATE_state, 0, 2)])), 9, xDr Op.DR_START 1 7, stands _ _ _ _, by decide +kernel⟩,
    ⟨st (dItem .handed (xDr Op.DR_TARGET 1 7) (dDr 2 {} [])), 9, xDr Op.DR_TARGET 1 7, stands _ _ _ _, by decide +kernel⟩,
    ⟨st (dItem .handed (xDr Op.DR_TARGET 2 7) (dDr 7 {} [])), 9, xDr Op.DR_TARGET 2 7, stands _ _ _ _, by decide +kernel⟩,
    ⟨st (dItem .handed (xDr Op.DR_TARGET 2 0xFFFF0000) (dDr 7 {} [(F.PS_OBS_SPEED, 0, 0x1000000)])), 9, xDr Op.DR_TARGET 2 0xFFFF0000,
      stands _ _ _ _, by decide +kernel⟩,
    ⟨st (dItem .handed (xDr Op.DR_STOP 0 0) (dDr 7 {} [])), 9, xDr Op.DR_STOP 0 0, stands _ _ _ _, by decide +kernel⟩,
    ⟨st (dItem .handed (xDr Op.DR_START 1 7) (dDr 1 {} [])), 9, xDr Op.DR_START 1 7, stands _ _ _ _, by decide +kernel⟩,
    ⟨st (dItem .handed (xDr Op.DR_TARGET 1 7) (dDr 3 { mode := 2, pmode := 2, base := some 0 } [])), 9, xDr Op.DR_TARGET 1 7,
      stands _ _ _ _, by decide +kernel⟩,
    ⟨st (dItem .handed (xDr Op.DR_TARGET 1 7) (dDr 4 { mode := 1, pmode := 1, target := 3, since := 5 } [])), 9, xDr Op.DR_TARGET 1 7,
      stands _ _ _ _, by decide +kernel⟩⟩

theorem witness_DriveEvents :
    (∃ s t, let d := State.now s t; d.drState 1 = 3 ∧ (d.drive 1).base = none ∧
      (d.drive 1).since + 800000 * d.rd F.SC_DR_TIMES_lock_wait 1 ≤ d.time ∧ d.drKnown 1 = false) ∧
    (∀ h : Bool, ∃ s t, let d := State.now s t; d.drState 1 = 4 ∧ d.drReached 1 = true ∧ (d.drive 1).hold = h) ∧
    (∃ s t, let d := State.now s t; d.drState 1 = 4 ∧ (d.drive 1).since + 8000000 * d.rd F.SC_DR_TIMES_move_time 1 ≤ d.time ∧ d.drReached 1 = false) ∧
    (∃ s t, let d := State.now s t; d.drState 1 = 8 ∧ (d.drSpeed 1).toInt.natAbs ≤ 65536 * d.rd F.SC_DR_SPD_reengage 1 ∧
      (d.drSpeed 1).toInt.natAbs ≤ 65536 * d.rd F.SC_DR_SPD_catch 1) ∧
    (∃ s t, let d := State.now s t; d.drState 1 ≠ 1 ∧ d.drSecondary 1 = true ∧ d.primaryLoop (drStage 1) = some 16) ∧
    (∃ s t, let d := State.now s t; 3 ≤ d.drState 1 ∧ d.drState 1 ≤ 7 ∧ d.stageLost (drStage 1) = true) :=
  ⟨⟨st (dDr 3 {} []), 300000000, by decide +kernel⟩, fun h => ⟨st ((dDr 4 { hold := h } []).setLoop 16 { met := 2 }), 9, by revert h; decide +kernel⟩,
    ⟨st (dDr 4 {} []), 3000000000, by decide +kernel⟩, ⟨st (dDr 8 {} []), 9, by decide +kernel⟩,
    ⟨st (dDr 3 {} [(F.SC_DR_CFG_secondary, 1, 1)]), 9, by decide +kernel⟩, ⟨st (dDr 5 {} [(F.TB_STG_STAT_tripped, 16, 1)]), 9, by decide +kernel⟩⟩

theorem witness_SequencersStartStages :
    (∃ s t, let d := State.now s t; d.flag F.TB_STG_RUN_run 0 = false ∧ d.pw.asleep = false ∧ d.stageFit 0 = true ∧ d.tmState 0 = 5 ∧
      (d.activeStages 0).contains 0 = true ∧ d.primaryLoop 0 = some 0 ∧ d.twoRuns (d.tmOf 0).base 0 = true) ∧
    (∃ s t, let d := State.now s t; d.flag F.TB_STG_RUN_run 8 = false ∧ d.pw.asleep = false ∧ d.stageFit 8 = true ∧ d.chState = 5 ∧ d.chFirst.contains 8 = true ∧
      (d.driving 8).head? = some 8 ∧ d.twoRuns d.ch.base 8 = true) ∧
    (∃ s t, let d := State.now s t; d.flag F.TB_STG_RUN_run 12 = false ∧ d.pw.asleep = false ∧ d.stageFit 12 = true ∧ d.lvState = 2 ∧ d.ch.lvMode = 1 ∧
      d.primaryLoop 14 = some 14 ∧ d.twoRuns d.ch.lvBase 14 = true) ∧
    (∃ s t, let d := State.now s t; d.flag F.TB_STG_RUN_run 14 = false ∧ d.pw.asleep = false ∧ d.stageFit 14 = true ∧ d.lvState = 3 ∧ d.ch.lvSync = true ∧
      d.primaryLoop 14 = some 14 ∧ d.twoRuns d.ch.lvBase 14 = true) ∧
    (∃ s t, let d := State.now s t; d.flag F.TB_STG_RUN_run 16 = false ∧ d.pw.asleep = false ∧ d.stageFit 16 = true ∧ d.drState 1 = 3 ∧
      d.primaryLoop 16 = some 16 ∧ (d.drive 1).base = some 0 ∧ 0 + 2 ≤ (d.loop 16).wrote) := by
  refine ⟨⟨st ((((wrs d0 [(F.SC_TM_STAT_state, 0, 5), (F.SC_TM_STAT_active, 0, 1), (F.TB_STG_CFG_enable, 0, 1), (F.TB_STG_CFG_source, 0, 1),
      (F.BE_LP_CFG_enable, 0, 1)]).setTm 0 { base := [(0, 0)] })).setLoop 0 { wrote := 2 }), 9, ?_⟩,
    ⟨st ((wrs d0 [(F.SC_CH_STAT_state, 0, 5), (F.TB_STG_CFG_enable, 8, 1), (F.TB_STG_CFG_source, 8, 1), (F.BE_LP_CFG_enable, 8, 1),
      (F.BE_LP_CFG_home, 8, 8)] |>.withCh { mode := 1, base := [(8, 0)] }).setLoop 8 { wrote := 2 }), 9, ?_⟩,
    ⟨st ((wrs d0 [(F.SC_LV_STAT_state, 0, 2), (F.TB_STG_CFG_enable, 12, 1), (F.TB_STG_CFG_source, 12, 1), (F.BE_LP_CFG_enable, 14, 1),
      (F.BE_LP_CFG_home, 14, 14)] |>.withCh { lvMode := 1, lvBase := [(14, 0)] }).setLoop 14 { wrote := 2 }), 9, ?_⟩,
    ⟨st ((wrs d0 [(F.SC_LV_STAT_state, 0, 3), (F.TB_STG_CFG_enable, 14, 1), (F.TB_STG_CFG_source, 14, 1), (F.BE_LP_CFG_enable, 14, 1),
      (F.BE_LP_CFG_home, 14, 14)] |>.withCh { lvSync := true, lvBase := [(14, 0)] }).setLoop 14 { wrote := 2 }), 9, ?_⟩,
    ⟨st ((dDr 3 { base := some 0 } []).setLoop 16 { wrote := 2 }), 9, ?_⟩⟩ <;> decide +kernel

end Sys2Proof.Tests

namespace Sys2Proof.Tests

set_option Elab.async false

/-- The controller in a mode, with what it carries beside its registers. -/
def dSc (mode : Nat) (f : Sc → Sc) (l : List (Fd × Nat × Nat)) : Dev := (wrs (wrs d0 [(F.SC_STAT_mode, 0, mode)]) l).onSc f

/-- A window of one FENCE that stores 7 into the first word of bank 1, one whose delay register has a wrong parity, and one that writes
register x5. -/
def xStore : ScStore := { place := .bank 0x80000, data := 7, mask := 15, parity := 0 }
def wStore (wrong : BitVec 5) : ScTrace :=
  { retired := [{ results := [.store { xStore with parity := storeParity xStore ^^^ wrong }], fence := true }], pc := 8 }
def wReg : ScTrace := { retired := [{ results := [.reg false 5 7], fence := true }], pc := 8 }

/-- Copy A closes its window with what is given. -/
def rOwn (w : ScTrace) : ScRun := { copyA := true, own := some w }

/-- What copy B has closed when it executed `w`. -/
def closedBy (w : ScTrace) : ScClosed := (dSc 2 id []).closedAs w false

/-- Is copy A of d about to close its window with what is given? -/
def closes (d : Dev) (w : ScTrace) : Bool :=
  (d.traceOf (rOwn w)).isSome && d.copyRuns true && (d.copy true).closed.isNone && (d.copy true).waiting.isNone && (d.owed d.storingCopy).isNone &&
    d.storesInTurn (storesOf w.retired) []

theorem parity_of (q : BitVec 5) : storeParity { xStore with parity := q } = storeParity xStore := by unfold storeParity; rfl
theorem stores_of (w : BitVec 5) : storesOf (wStore w).retired = [{ xStore with parity := storeParity xStore ^^^ w }] := rfl
theorem wrong_parity (p : BitVec 5) (h : p = storeParity xStore) : storeParity xStore ^^^ 1 ≠ p := by
  subst h
  generalize storeParity xStore = x
  revert x; decide

theorem witness_windows :
    (∀ y ∈ storesOf (wStore 0).retired, y.parity = storeParity y) ∧ (∃ y ∈ storesOf (wStore 1).retired, y.parity ≠ storeParity y) ∧
    (∃ s t, closes (State.now s t) (wStore 0) = true) ∧ (∃ s t, closes (State.now s t) (wStore 1) = true) ∧
    (∃ s t, let d := State.now s t; closes d wReg = true ∧ d.scMode = ScMode.duplex ∧ (d.copy false).closed = none) ∧
    (∀ req : Bool, ∃ s t w, let d := State.now s t; closes d wReg = true ∧
      d.scMode = ScMode.duplex ∧ (d.copy false).closed = some w ∧ d.sc.overLimit = false ∧ w.sig = signature wReg.retired ∧
      w.count = retiredCount wReg.retired ∧ w.arch.pc = wReg.pc ∧ d.sc.copyA.traps = d.sc.copyB.traps ∧ w.request = req ∧
      d.flt.request = false ∧ 1 ≤ d.rd F.SC_CFG_agree_retries 0 ∧
      w.delay.map (fun x => (x.place, x.data, x.mask)) = (storesOf wReg.retired).map (fun x => (x.place, x.data, x.mask))) ∧
    (∃ s t, let d := State.now s t; closes d wReg = true ∧ d.inSimplex = true) ∧
    (∃ s t, (State.now s t).traceOf (rOwn { retired := [], pc := 0 }) = none) :=
  ⟨by simp only [stores_of, List.mem_singleton, forall_eq, parity_of, BitVec.ofNat_eq_ofNat, BitVec.xor_zero],
    ⟨{ xStore with parity := storeParity xStore ^^^ 1 }, by simp only [stores_of, List.mem_singleton], wrong_parity _ (parity_of _)⟩,
    ⟨st (dSc 2 id []), 9, by decide +kernel⟩, ⟨st (dSc 2 id []), 9, by decide +kernel⟩, ⟨st (dSc 2 id []), 9, by decide +kernel⟩,
    fun req => ⟨st (dSc 2 (fun c => { c with copyB := { closed := some { closedBy wReg with request := req } } }) [(F.SC_CFG_agree_retries, 0, 1)]),
      9, { closedBy wReg with request := req }, by revert req; decide +kernel⟩,
    ⟨st (dSc 4 id []), 9, by decide +kernel⟩, ⟨st d0, 9, by decide +kernel⟩⟩

theorem witness_mismatches :
    (∀ r : Bool, ∃ s t w, let d := State.now s t; closes d wReg = true ∧ d.scMode = ScMode.duplex ∧ d.sc.retry = r ∧
      (d.copy false).closed = some w ∧ w.count ≠ retiredCount wReg.retired) ∧
    (∀ r : Bool, ∃ s t w, let d := State.now s t; closes d wReg = true ∧ d.scMode = ScMode.duplex ∧ d.sc.retry = r ∧
      (d.copy false).closed = some w ∧ w.sig = signature wReg.retired ∧ w.count = retiredCount wReg.retired ∧
      w.arch.pc = wReg.pc ∧ d.sc.copyA.traps = d.sc.copyB.traps ∧
      w.delay.map (fun x => (x.place, x.data, x.mask)) ≠ (storesOf wReg.retired).map (fun x => (x.place, x.data, x.mask))) ∧
    (∀ r : Bool, ∃ s t at_, let d := State.now s t; d.scMode = ScMode.duplex ∧ d.sc.retry = r ∧ waitsSince (d.copy false) = some at_ ∧
      at_ + 1600 ≤ d.time) ∧
    (∃ s t, let d := State.now s t; d.scMode = ScMode.duplex ∧ d.lags = false) ∧
    (∃ s t, (State.now s t).fwStores = false) :=
  ⟨fun r => ⟨st (dSc 2 (fun c => { c with retry := r, copyB := { closed := some { closedBy wReg with count := 2 } } }) []), 9,
      { closedBy wReg with count := 2 }, by revert r; decide +kernel⟩,
    fun r => ⟨st (dSc 2 (fun c => { c with retry := r, copyB := { closed := some { closedBy wReg with delay := [{ place := .bank 0, data := 0, mask := 15, parity := 0 }] } } }) []), 9,
      { closedBy wReg with delay := [{ place := .bank 0, data := 0, mask := 15, parity := 0 }] }, by revert r; decide +kernel⟩,
    fun r => ⟨st (dSc 2 (fun c => { c with retry := r, copyB := { closed := some (closedBy wReg) } }) []), 1609, 0, by revert r; decide +kernel⟩,
    ⟨st (dSc 2 id []), 9, by decide +kernel⟩, ⟨st d0, 9, by decide +kernel⟩⟩

/-- A load of a register of the SETUP window, and one of a bank word that cannot be corrected, whose owner is not SC. -/
theorem witness_agreedLoads :
    (∀ w ∈ [none, some (({ place := .setup 0x14, bytes := 4 } : ScLoad), (0 : Word), 5), some ({ place := .setup 0x14, bytes := 4 }, 1, 5)],
      ∃ s t, let d := State.now s t; d.scMode = ScMode.duplex ∧ d.mayLoad true (d.pendingOf true [xStore]) = true ∧ d.isAgreed (.setup 0x14) = true ∧
        d.scRead { place := .setup 0x14, bytes := 4 } = some 0 ∧ (d.copy false).waiting = w ∧ d.rd F.SC_CFG_agree_retries 0 = 1 ∧ d.sc.copyA.closed = none ∧
        d.sc.copyB.closed = none) ∧
    (∃ s t, let d := State.now s t; d.scMode = ScMode.duplex ∧ d.mayLoad true (d.pendingOf true [xStore]) = true ∧ d.isAgreed (.bank 0x80000) = true ∧
      d.itsTurn .copyA 1 [] = true ∧ d.scRead { place := .bank 0x80000, bytes := 4 } = none) :=
  ⟨fun w h => ⟨st (dSc 2 (fun c => { c with copyB := { waiting := w } }) [(F.SC_CFG_agree_retries, 0, 1)]), 9, by revert w h; decide +kernel⟩,
    ⟨st ((dSc 2 id []).markFenced Kind.bank 1 true), 9, by decide +kernel⟩⟩

theorem witness_CopiesInLockstep :
    (∃ s t, let d := State.now s t; d.scMode = ScMode.duplex ∧ d.sc.copyA.closed = none ∧ d.sc.copyB.closed = none) ∧
    (∃ s t w, let d := State.now s t; d.scMode = ScMode.duplex ∧ d.sc.copyA.closed = some w ∧ w.delay = []) ∧
    (∃ s t, let d := State.now s t; d.scMode = ScMode.rollback ∧ d.sc.test = some .window) ∧
    (∃ s t, let d := State.now s t; d.sc.period + 48000000000 * d.rd F.SC_CFG_trans_period 0 ≤ d.time) ∧
    (∃ s t e, let d := State.now s t; d.sc.graceEnd = some e ∧ e ≤ d.time) ∧
    (∃ s t, let d := State.now s t; d.scMode = ScMode.bootTest ∧ d.flag F.SC_BOOT_TEST_done 0 = false ∧
      (Tbl.get (fun _ => []) d.sec.measured 1).isEmpty = false) :=
  ⟨⟨st (dSc 2 id []), 9, by decide +kernel⟩,
    ⟨st (dSc 2 (fun c => { c with copyA := { closed := some (closedBy wReg) } }) []), 9, closedBy wReg, by decide +kernel⟩,
    ⟨st (dSc 3 (fun c => { c with test := some .window }) []), 9, by decide +kernel⟩,
    ⟨st d0, 10 ^ 14, by decide +kernel⟩,
    ⟨st (dSc 4 (fun c => { c with graceEnd := some 5 }) []), 9, 5, by decide +kernel⟩,
    ⟨st ((dSc 1 id []).withSec { d0.sec with measured := [(1, [1])] }), 9, by decide +kernel⟩⟩

theorem witness_WatchdogAndValidation :
    (∃ s t, let d := State.now s t; d.fwStores = true ∧ d.flag F.SC_FW_ready 0 = false ∧ d.flag F.SC_WDOG_CFG_enable 0 = true ∧ d.scMode ≠ ScMode.rollback) ∧
    (∃ s t, let d := State.now s t; d.fwStores = true ∧ d.flag F.SC_FW_ready 0 = true ∧ d.flag F.SC_WDOG_CFG_enable 0 = true ∧ d.scMode ≠ ScMode.rollback) ∧
    (∃ s t due, let d := State.now s t; d.sc.wdogDue = some due ∧ due ≤ d.time ∧ d.flag F.FLT_SAFE_safe 0 = false) ∧
    (∃ s t x, let d := State.now s t; d.standing 5 3 .received x ∧ validated x.opcode = true ∧ d.sc.vq.length < 64) ∧
    (∃ s t h r it x k, let d := State.now s t; d.fwStores = true ∧ d.sc.vq = h :: r ∧ h.seq = (7 : BitVec 16).toNat ∧ (d.qp h.qp).item h.index = some it ∧
      it.hasEnded = false ∧ (d.qp h.qp).silent = false ∧ it.desc = some x ∧ k ∈ d.ownerStages x ∧ d.flag F.TB_STG_RUN_run k = true ∧
      d.flag F.SC_ABS_CFG_enable k = true) ∧
    (∃ s t e it, let d := State.now s t; (d.sc.vq.find? fun e => e.seq == (7 : BitVec 16).toNat && !e.done) = some e ∧
      (d.qp e.qp).item e.index = some it ∧ it.hasEnded = false ∧ (d.qp e.qp).silent = false ∧ d.vqEnd e ≤ d.time) := by
  refine ⟨⟨st (dSc 2 id [(F.SC_WDOG_CFG_enable, 0, 1)]), 9, ?_⟩, ⟨st (dSc 2 id [(F.SC_WDOG_CFG_enable, 0, 1), (F.SC_FW_ready, 0, 1)]), 9, ?_⟩,
    ⟨st (dSc 2 (fun c => { c with wdogDue := some 5 }) []), 9, 5, ?_⟩,
    ⟨st (dItem .received { opcode := 0x10 } d0), 9, { opcode := 0x10 }, stands _ _ _ _, ?_⟩,
    ⟨st (dItem .queued { opcode := 0x14 } (dSc 2 (fun c => { c with vq := [{ qp := 5, index := 3, seq := 7, arrived := 0 }] })
      [(F.TB_STG_RUN_run, 8, 1), (F.SC_ABS_CFG_enable, 8, 1)])), 9, { qp := 5, index := 3, seq := 7, arrived := 0 }, [],
      { index := 3, desc := some { opcode := 0x14 }, phase := .queued }, { opcode := 0x14 }, 8, ?_⟩,
    ⟨st (dItem .queued { opcode := 0x14 } (dSc 2 (fun c => { c with vq := [{ qp := 5, index := 3, seq := 7, arrived := 0 }] }) [])), 80000000,
      { qp := 5, index := 3, seq := 7, arrived := 0 }, { index := 3, desc := some { opcode := 0x14 }, phase := .queued }, ?_⟩⟩ <;> decide +kernel

theorem witness_AbsencePolicy :
    (∃ s t, let d := State.now s t; d.fwStores = true ∧ d.flag F.SC_ABS_CFG_enable 3 = true ∧ d.flag F.TB_STG_RUN_run 3 = true ∧ d.flag F.SC_ABS_LEFT_awaiting 3 = true) ∧
    (∃ s t, (State.now s t).flag F.SC_ABS_CFG_enable 3 = false) ∧
    (∀ action ∈ [1, 2, 3], ∃ s t due, let d := State.now s t; d.absDue 3 = some due ∧ due ≤ d.time ∧ d.rd F.SC_ABS_CFG_action 3 = action) ∧
    (∃ s t due, let d := State.now s t; d.respDue 3 = some due ∧ due ≤ d.time) :=
  ⟨⟨st (wrs dFw [(F.SC_ABS_CFG_enable, 3, 1), (F.TB_STG_RUN_run, 3, 1), (F.SC_ABS_LEFT_awaiting, 3, 1)]), 9, by decide +kernel⟩,
    ⟨st d0, 9, by decide +kernel⟩,
    fun action h => ⟨st ((wrs d0 [(F.SC_ABS_CFG_action, 3, action)]).setAbsDue 3 (some 5)), 9, 5, by revert action h; decide +kernel⟩,
    ⟨st (d0.setRespDue 3 (some 5)), 9, 5, by decide +kernel⟩⟩

end Sys2Proof.Tests

namespace Sys2Proof.Tests

set_option Elab.async false

/-- Bank 1 of the engines, with a flipped bit in its first word and a read of three bytes split before byte 4 that engine 3 owes. -/
def dBank : Dev :=
  let d := wrs d0 [(F.MB_BANK_STAT_owner, 1, 2)]
  d.withMb { d.mb with flips := [(0x20000, 1)],
                       owed := [(4, some { addr := 0x80004, bytes := 1, got := 2, bad := false, write := false, data := 0 })] }

theorem witness_bank_writes : let d := State.now (st dBank) 9
    d.mayAccess (.engine 0) 0x80002 4 true 7 [.ring, .copyB] = true ∧ d.storesLeave (.engine 0) = true ∧ d.bankOwned 1 (bankOf 0x80002) = true ∧
    d.fenced Kind.bank (bankOf 0x80002) = false ∧ min 4 (4 - 0x80002 % 4) = 2 ∧ d.owed (.engine 0) = none ∧
    d.mayAccess .ring 0x80000 4 true 7 [] = true ∧ d.storesLeave .ring = true ∧ d.bankOwned 13 (bankOf 0x80000) = false ∧ d.flt.intake.length < 64 ∧
    d.mayAccess (.engine 3) 0x80004 1 false 0 [] = true ∧ d.mayAccess (.engine 3) 0x80004 2 false 0 [] = false := by decide +kernel

theorem witness_bank_reads : let d := State.now (st dBank) 9
    d.mayAccess .ring 0x80000 4 false 0 [] = true ∧ d.bankFinds 0x80000 {} = .corrected ∧ d.bankFinds 0x80000 { flips := 2 } = .double ∧
    d.bankFinds 0x80000 { wrong := true } = .address ∧ d.bankReads 0x80000 {} = true ∧ d.bankReads 0x80000 { flips := 2 } = false ∧
    d.bankFinds 0x80004 {} = .ok ∧ d.onPortA (.engine 0) 1 = true ∧ d.onPortA .ring 1 = false ∧ d.onPortA (.engine 1) 1 = true ∧
    turnsAway (d.lastServed 1).1 1 < turnsAway (d.lastServed 1).1 2 := by decide +kernel

theorem witness_can_write : let d := State.now (st (dBank.issue [(0x280000, 5)])) 9
    d.mayAccess .can 0x280000 4 true 5 [] = true ∧ d.storesLeave .can = true ∧ d.hasIssued .can 0x280000 4 5 = true ∧
    d.hasIssued .ring 0x280000 4 7 = true := by decide +kernel

theorem witness_copy_reads : let d := State.now (st (wrs dFw [(F.MB_BANK_STAT_owner, 1, 1)])) 9
    d.mayLoad true (d.pendingOf true []) = true ∧ d.mayLoad false (d.pendingOf false []) = true ∧
    d.mayAccess .copyB 0x80000 4 false 0 [] = true ∧ d.scBank 1 = true ∧
    d.bankReads 0x80000 {} = true ∧ d.bankReads 0x80000 { flips := 3 } = false ∧ d.owed .copyB = none ∧ d.scMode = ScMode.duplex := by decide +kernel

theorem witness_scrub : let d := State.now (st ((wrs d0 [(F.MB_SCRUB_enable, 0, 1), (F.MB_SCRUB_interval, 0, 10)]).withMb
      { d0.mb with scrub := [(15, 0x1FFFF)], flips := [(0x1FFFFF, 4)] })) 8000
    d.flag F.MB_SCRUB_enable 0 = true ∧ d.fenced Kind.bank 15 = false ∧ Tbl.get (fun _ => 0) d.mb.scrub 15 = 0x1FFFF ∧
    Tbl.get (fun _ => 0) d.mb.scrubAt 15 + 800 * d.rd F.MB_SCRUB_interval 0 ≤ d.time ∧ d.bankFinds (15 * 0x80000 + 4 * 0x1FFFF) {} = .corrected ∧
    d.bankFinds (15 * 0x80000 + 4 * 0x1FFFF) { flips := 1 } = .double := by decide +kernel

theorem witness_BankHandover :
    (∀ o ∈ [2, 3], ∃ s t, let d := State.now s t; d.fwStores = true ∧ d.fenced Kind.bank 1 = false ∧ d.flag F.MB_BANK_CTRL_draining 1 = false ∧
      d.devState = DevSt.sealed ∧ d.rd F.MB_BANK_STAT_owner 1 = o) ∧
    (∀ late : Bool, ∃ s t, let d := State.now s t; d.drainOf 1 = some (6, 5) ∧ (late = true → 5 + 1600 < d.time) ∧ (late = false → d.time ≤ 5 + 1600)) :=
  ⟨fun o h => ⟨st (wrs dFw [(F.DEV_STATE_state, 0, DevSt.sealed), (F.MB_BANK_STAT_owner, 1, o)]), 9, by revert o h; decide +kernel⟩,
    fun late => ⟨st (d0.setDrain 1 (some (6, 5))), if late then 1606 else 1605, by revert late; decide +kernel⟩⟩

end Sys2Proof.Tests

namespace Sys2Proof.Tests

set_option Elab.async false

/-- Queue pair 5 carries v; registers are written. -/
def dQ (v : QpT) (l : List (Fd × Nat × Nat)) : Dev := (wrs d0 l).setQp 5 v

theorem witness_QueuesOpenAndClose :
    (∀ on : Bool, ∃ s t, let d := State.now s t; d.qpOn 5 = on ∧ d.ringSize 5 = 16 ∧ (d.qp 5).sqTail = 2 ∧ (d.qp 5).cqHead = 0 ∧
      d.rd F.HI_QP_STAT_sq_head 5 = 1 ∧ d.rd F.HI_QP_STAT_cq_tail 5 = 1) ∧
    (∃ s t, let d := State.now s t; d.flag F.HI_QP_CTRL_draining 5 = false ∧ d.ringsFenced = false ∧ d.qpOn 5 = false ∧
      d.checkHost (d.sqBase 5) (32 * d.ringSize 5) false = none ∧ d.checkHost (d.cqBase 5) (16 * d.ringSize 5) true = none) ∧
    (∃ s t, let d := State.now s t; d.flag F.HI_QP_CTRL_draining 5 = false ∧ d.ringsFenced = false ∧ d.qpOn 5 = false ∧
      d.checkHost (d.sqBase 5) (32 * d.ringSize 5) false = some Code.RANGE) ∧
    (∃ s t it, let d := State.now s t; d.qpOn 5 = true ∧ (d.qp 5).item 3 = some it ∧ (d.qp 5).silent = false ∧ it.phase = .received) ∧
    (∃ s t, let d := State.now s t; d.qpOn 5 = true ∧ (d.qp 5).silent = true) ∧ (∃ s t, (State.now s t).reaches .host = true) ∧
    (∃ s t it, let d := State.now s t; d.qpOn 5 = true ∧ (d.qp 5).item 3 = some it ∧ (d.qp 5).silent = false ∧ it.isBuffer = true) ∧
    (∃ s t m, let d := State.now s t; d.fenced Kind.queue 5 = false ∧ d.mayStore m = true) :=
  ⟨fun on => ⟨st (dQ { sqTail := 2 } [(F.HI_QP_CTRL_enable, 5, b2n on), (F.HI_QP_CFG_size_log2, 5, 4), (F.HI_QP_STAT, 5, 0x10001)]), 9,
      by revert on; decide +kernel⟩,
    ⟨st (dQ {} ((F.HI_QP_CFG_size_log2, 5, 4) :: hostWin)), 9, by decide +kernel⟩,
    ⟨st (dQ {} [(F.HI_QP_CFG_size_log2, 5, 4)]), 9, by decide +kernel⟩,
    ⟨st (dQ { items := [{ index := 3, phase := .received }] } [(F.HI_QP_CTRL_enable, 5, 1)]), 9, { index := 3, phase := .received }, by decide +kernel⟩,
    ⟨st (dQ { silent := true } [(F.HI_QP_CTRL_enable, 5, 1)]), 9, by decide +kernel⟩, ⟨st d0, 9, by decide +kernel⟩,
    ⟨st (dQ { items := [{ index := 3, desc := some { opcode := Op.STREAM_BUF }, phase := .started }] } [(F.HI_QP_CTRL_enable, 5, 1)]), 9,
      { index := 3, desc := some { opcode := Op.STREAM_BUF }, phase := .started }, by decide +kernel⟩,
    ⟨st d0, 9, .host, by decide +kernel⟩⟩

theorem witness_DescriptorsFlow :
    (∀ on : Bool, ∃ s t, let d := State.now s t; d.hi.d3hot = false ∧ d.mayFetch 5 = true ∧ d.qpOn 5 = on ∧
      ∀ k : Fin 64, k ≠ 5 → d.mayFetch k = true ∨ d.mayRecord k = true → d.rd F.HI_QP_CFG_prio k < d.rd F.HI_QP_CFG_prio 5) ∧
    (∀ ok : Bool, ∃ s t it x, let d := State.now s t; (d.qp 5).item 3 = some it ∧ it.phase = .fetched ∧ it.desc = none ∧ (d.qp 5).silent = false ∧
      d.checkDescr 5 x = if ok then none else some Code.RANGE_VALUE) ∧
    (∃ (s : State) (t : Nat) (it : Item) (x : Descr) (e : Nat) (rest : List Item), let d := State.now s t; (d.qp 5).silent = false ∧
      (d.qp 5).items = { it with phase := .ended e false 0, desc := some x } :: rest ∧
      d.rd F.HI_QP_STAT_cq_tail 5 + 1 = d.ringSize 5 ∧ d.unconsumed 5 + 1 < d.ringSize 5 ∧ d.hi.d3hot = false) ∧
    (∃ (s : State) (t : Nat) (it : Item) (x : Descr) (e : Nat) (rest : List Item), let d := State.now s t
      (d.qp 5).items = { it with phase := .ended e false 0, desc := some x } :: rest ∧ d.ringSize 5 ≤ d.unconsumed 5 + 1) ∧
    (∃ s t, let d := State.now s t; 0 < (d.qp 5).unsignalled ∧ (d.qp 5).unsigAt + 800 * d.rd F.HI_QP_MOD_time 5 ≤ d.time) ∧
    (∀ p ∈ [(Phase.received, Op.NOP), (Phase.handed, Op.TM_START), (Phase.started, Op.DR_STOP), (Phase.started, Op.MEM_READ),
        (Phase.started, Op.CAN_TX), (Phase.started, Op.ADMIT)],
      ∃ s t it x, let d := State.now s t; (d.qp 5).item 3 = some it ∧ it.desc = some x ∧ isTimed x = true ∧ d.passed x.deadline = true ∧
        (d.qp 5).silent = false ∧ it.phase = p.1 ∧ x.opcode = p.2) :=
  ⟨fun on => ⟨st (dQ { sqTail := 2 } [(if on then F.HI_QP_CTRL_enable else F.HI_QP_CTRL_draining, 5, 1), (F.HI_QP_CFG_size_log2, 5, 4)]), 9,
      by revert on; decide +kernel⟩,
    fun ok => ⟨st (dQ { items := [{ index := 3 }] } [(F.HI_QP_CFG_kind, 5, 1)]), 9, { index := 3 }, { opcode := if ok then Op.NOP else 0 },
      by revert ok; decide +kernel⟩,
    ⟨st (dQ { items := [{ index := 3, desc := some { opcode := 1 }, phase := .ended 0 false 0 }], cqHead := 5 }
      [(F.HI_QP_CFG_size_log2, 5, 4), (F.HI_QP_STAT_cq_tail, 5, 15)]), 9, { index := 3 }, { opcode := 1 }, 0, [], by decide +kernel⟩,
    ⟨st (dQ { items := [{ index := 3, desc := some { opcode := 1 }, phase := .ended 0 false 0 }] }
      [(F.HI_QP_CFG_size_log2, 5, 4), (F.HI_QP_STAT_cq_tail, 5, 15)]), 9, { index := 3 }, { opcode := 1 }, 0, [], by decide +kernel⟩,
    ⟨st (dQ { unsignalled := 1 } []), 80000000, by decide +kernel⟩,
    fun p h => ⟨st (dQ { items := [{ index := 3, desc := some { opcode := p.2, flags := 1 }, phase := p.1 }] } []), 9,
      { index := 3, desc := some { opcode := p.2, flags := 1 }, phase := p.1 }, { opcode := p.2, flags := 1 }, by revert p h; decide +kernel⟩⟩

theorem witness_TransfersAndStreams :
    (∀ op ∈ [Op.NOP, Op.FENCE, Op.MEM_WRITE, Op.SNAPSHOT, Op.STREAM_BUF], ∃ s t x, let d := State.now s t; d.standing 5 3 .received x ∧
      x.opcode = op ∧ d.windowCheck x = none ∧ d.hstOwns x.param2 x.length = false) ∧
    (∀ op ∈ [Op.MEM_WRITE, Op.MEM_READ, Op.SNAPSHOT, Op.STREAM_BUF], ∃ s t x, let d := State.now s t; d.standing 5 3 .received x ∧
      x.opcode = op ∧ d.windowCheck x = some Code.RANGE) ∧
    (∀ p ∈ [(Op.FENCE, 0), (Op.MEM_WRITE, 8), (Op.MEM_READ, 8), (Op.MEM_READ, 0)], ∃ s t x it, let d := State.now s t
      (d.qp 5).item 3 = some it ∧ it.desc = some x ∧ it.phase = .started ∧ (d.qp 5).silent = false ∧ x.opcode = p.1 ∧ it.awaits = [] ∧
      it.left x = p.2 ∧ ∀ k : Fin 9, d.bankOwned 13 (bankOf (x.param2 + it.moved + k)) = true ∧
        d.fenced Kind.bank (bankOf (x.param2 + it.moved + k)) = false ∧ d.bankReads (x.param2 + it.moved + k) {} = true ∧
        d.bankReads (x.param2 + it.moved + 3) { flips := 3 } = false ∧ d.itsTurn .ring 0 [] = true) ∧
    (∀ op ∈ [Op.MEM_WRITE, Op.MEM_READ], ∃ s t x it, let d := State.now s t; (d.qp 5).item 3 = some it ∧ it.desc = some x ∧ it.phase = .started ∧
      (d.qp 5).silent = false ∧ x.opcode = op ∧ it.left x = 8 ∧ d.itsTurn .ring (bankOf (x.param2 + it.moved)) [.engine 0] = false) ∧
    (∀ on : Bool, ∃ s t e it x, let d := State.now s t; d.hi.records.find? (fun e => e.1 == (5 : Fin 64).val) = some e ∧ (d.qp 5).held = [] ∧
      d.qpOn 5 = on ∧ (d.qp 5).buffer = some it ∧ it.desc = some x ∧ it.moved + e.2.bytes.length ≤ x.length ∧ e.2.type ≠ 2 ∧
      d.hi.d3hot = false ∧ d.rxSource 5 = none ∧
      ∀ k : Fin 64, k ≠ 5 → d.mayFetch k = true ∨ d.mayRecord k = true → d.rd F.HI_QP_CFG_prio k < d.rd F.HI_QP_CFG_prio 5) ∧
    (∃ s t e, let d := State.now s t; d.hi.records.find? (fun e => e.1 == (5 : Fin 64).val) = some e ∧ (d.qp 5).held = [] ∧ d.qpOn 5 = true ∧
      d.mayFetch 6 = true ∧ d.rd F.HI_QP_CFG_prio 5 < d.rd F.HI_QP_CFG_prio 6) ∧
    (∃ s t it x r, let d := State.now s t; d.hi.records = [] ∧ d.be.emitted = [] ∧ d.rxSource 5 = some 2 ∧ (d.can 2).held = [r] ∧
      d.hi.d3hot = false ∧ d.qpOn 5 = true ∧ (d.qp 5).buffer = some it ∧ it.desc = some x ∧ it.moved + r.bytes.length ≤ x.length ∧
      ∀ k : Fin 64, k ≠ 5 → d.mayFetch k = true ∨ d.mayRecord k = true → d.rd F.HI_QP_CFG_prio k < d.rd F.HI_QP_CFG_prio 5) ∧
    (∃ s t it, let d := State.now s t; (d.qp 5).buffer = some it ∧ (d.qp 5).item it.index = some it ∧ 0 < it.moved ∧
      it.firstAt + 80000 * d.rd F.HI_QP_MOD_flush 5 ≤ d.time ∧ (d.qp 5).silent = false) := by
  refine ⟨fun op h => ⟨st (dItem .received { opcode := op, length := 8 } (wrs d0 hostWin)), 9, { opcode := op, length := 8 }, stands _ _ _ _, rfl, ?_⟩,
    fun op h => ⟨st (dItem .received { opcode := op, length := 8 } d0), 9, { opcode := op, length := 8 }, stands _ _ _ _, rfl, ?_⟩,
    fun p h => ⟨st (dQ { items := [{ index := 3, desc := some { opcode := p.1, length := p.2 }, phase := .started }] } [(F.MB_BANK_STAT_owner, 0, 3)]), 9,
      { opcode := p.1, length := p.2 }, { index := 3, desc := some { opcode := p.1, length := p.2 }, phase := .started }, ?_⟩,
    fun op h => ⟨st (dQ { items := [{ index := 3, desc := some { opcode := op, length := 8 }, phase := .started }] } [(F.MB_BANK_STAT_owner, 0, 2)]), 9,
      { opcode := op, length := 8 }, { index := 3, desc := some { opcode := op, length := 8 }, phase := .started }, ?_⟩,
    fun on => ⟨st ((dQ { items := [{ index := 3, desc := some { opcode := Op.STREAM_BUF, length := 256 }, phase := .started }] }
      [(F.HI_QP_CTRL_enable, 5, b2n on)]).sendRecord 5 { type := 1, body := [7] }), 9, (5, { type := 1, body := [7] }),
      { index := 3, desc := some { opcode := Op.STREAM_BUF, length := 256 }, phase := .started }, { opcode := Op.STREAM_BUF, length := 256 }, ?_⟩,
    ⟨st (((dQ {} [(F.HI_QP_CTRL_enable, 5, 1), (F.HI_QP_CTRL_enable, 6, 1), (F.HI_QP_CFG_prio, 6, 3), (F.HI_QP_CFG_size_log2, 6, 4)]).sendRecord 5
      { type := 1, body := [7] }).setQp 6 { sqTail := 2 }), 9, (5, { type := 1, body := [7] }), ?_⟩,
    ⟨st ((dQ { items := [{ index := 3, desc := some { opcode := Op.CAN_RXBUF, length := 256 }, phase := .started }] }
      [(F.HI_QP_CTRL_enable, 5, 1), (F.CN_CFG_enable, 2, 1), (F.CN_CFG_rx_qp, 2, 5)]).onCan 2 fun v =>
        { v with held := [{ time := 1, flow := 2, status := 0 }] }), 9,
      { index := 3, desc := some { opcode := Op.CAN_RXBUF, length := 256 }, phase := .started }, { opcode := Op.CAN_RXBUF, length := 256 },
      { time := 1, flow := 2, status := 0 }, ?_⟩,
    ⟨st (dQ { items := [{ index := 3, desc := some { opcode := Op.STREAM_BUF, length := 256 }, phase := .started, moved := 8 }] } []), 80000000,
      { index := 3, desc := some { opcode := Op.STREAM_BUF, length := 256 }, phase := .started, moved := 8 }, ?_⟩⟩
  · revert op h; decide +kernel
  · revert op h; decide +kernel
  · revert p h; decide +kernel
  · revert op h; decide +kernel
  · revert on; decide +kernel
  · decide +kernel
  · decide +kernel
  · decide +kernel

end Sys2Proof.Tests

namespace Sys2Proof.Tests

set_option Elab.async false

/-- An enabled controller 2 in a state, its CAN_TX ring queue pair 5, its receive ring queue pair 6; flow 7 is its, of profile NONE. -/
def dCan (state : Nat) (v : CnT) (l : List (Fd × Nat × Nat)) : Dev :=
  (wrs (wrs d0 [(F.CN_CFG_enable, 2, 1), (F.CN_STAT_state, 2, state), (F.CN_CFG_tx_qp, 2, 5), (F.CN_CFG_rx_qp, 2, 6), (F.CN_CFG_tt_en, 2, 0),
    (F.FL_CFG_controller, 7, 2), (F.FL_CFG_profile, 7, 1), (F.FL_CFG_enable, 7, 1), (F.FL_CFG_dir, 7, 1), (F.FL_CFG_filter, 7, 3),
    (F.FL_ID_format, 7, 1), (F.FL_CFG_dest, 7, 1)]) l).setCan 2 v

/-- Filter 3 of controller 2 is flow 7's; it takes every base identifier. -/
def dRx (l : List (Fd × Nat × Nat)) : Dev :=
  let d := dCan 3 {} l
  let d := (d.wr2 F.CN_FLT_ID_format 2 3 1).withSys { d.sys with claims := [(4096 * 5 + 515, some (Kind.flow, 7))] }
  d.wr2 F.CN_FLT_MASK_mask 2 3 0

/-- A base frame. -/
def f9 : CanFrame := { format := 1, ident := 9, data := [1] }

def slot7 (k : Nat) : TxSlot := { slot := k, frame := { qp := 5, index := 3, flow := 7, frame := f9 }, loadedAt := 0 }
def slot (xl : Bool) (k : Nat) : TxSlot := { slot7 k with frame := { qp := 5, index := 3, flow := 7, frame := { f9 with format := if xl then 3 else 1 } } }
def vFrames : CnT := { frames := [{ qp := 5, index := 3, flow := 7, frame := f9 }], slots := [{ slot7 0 with frame := { qp := 5, index := 2, flow := 8, frame := f9 } }] }
def vTrig (seen : Bool) : CnT := { slots := [slot7 1], seen := if seen then [4] else [] }

def xCan : Descr := { opcode := Op.CAN_TX, target := 7, length := 8 }

theorem witness_CanTransmits :
    (∀ p ∈ [((1 : Nat), false, false), (2, true, false), (2, false, false), (2, false, true)], ∃ s t it, let d := State.now s t
      let fv := d.rd64 F.FL_FV_TX_LO F.FL_FV_TX_HI 7
      (d.qp 5).item 3 = some it ∧ it.desc = some xCan ∧ it.phase = .received ∧ (d.qp 5).silent = false ∧ d.rd F.FL_CFG_controller 7 = 2 ∧
      (∀ f ∈ (d.can 2).frames, f.qp ≠ 5 ∨ f.index ≠ 3) ∧ d.securesNext 5 3 2 = true ∧ isRtr xCan = false ∧ isFd xCan = false ∧
      d.windowCheck xCan = none ∧ d.rd F.FL_CFG_profile 7 = p.1 ∧ (p.2.1 = true ↔ fv = 2 ^ 64 - 1) ∧ ((d.keyOf (d.rd F.FL_SEC_key 7)).isSome = p.2.2) ∧
      d.fenced Kind.crypto 0 = false) ∧
    (∀ rtr : Bool, ∃ s t it x, let d := State.now s t; (d.qp 5).item 3 = some it ∧ it.desc = some x ∧ it.phase = .received ∧ (d.qp 5).silent = false ∧
      x.opcode = Op.CAN_TX ∧ d.rd F.FL_CFG_controller x.target = 2 ∧ (d.can 2).frames = [] ∧ d.securesNext 5 3 2 = true ∧
      isRtr x = rtr ∧ (rtr = false → d.windowCheck x = some Code.RANGE)) ∧
    (∃ s t it f, let d := State.now s t; 5 = d.rd F.CN_CFG_tx_qp 2 ∧ (d.qp 5).items.find? (fun it => !it.begun) = some it ∧
      (d.qp 5).item it.index = some it ∧ it.desc = some xCan ∧ (d.qp 5).mayStart it.index (isSerial xCan) = true ∧ d.onBus 2 = true ∧
      (∀ z ∈ (d.can 2).slots, z.slot ≠ 1) ∧ (∀ j : Fin 1, ∃ z ∈ (d.can 2).slots, z.slot = j) ∧
      (d.can 2).frames.find? (fun f => f.qp == 5 && f.index == it.index) = some f ∧ ∀ z ∈ (d.can 2).slots, z.frame.flow ≠ f.flow) ∧
    (∀ xl : Bool, ∃ s t it k, let d := State.now s t; (xl = true → k.frame.frame.format = 3 ∧ d.flag F.CN_CFG_xl_es 2 = false) ∧
      (xl = false → k.frame.frame.format ≠ 3) ∧ (d.can 2).slots = [k] ∧ k.frame.qp = 5 ∧ (d.qp 5).item k.frame.index = some it ∧ it.phase = .started ∧
      it.desc = some xCan ∧ (d.qp 5).silent = false ∧ k.loadedAt ≤ 4 ∧ 4 ≤ d.time ∧ d.triggered k.frame.flow = false ∧ d.guarded 2 4 7 = false ∧
      d.maySend 2 = true) ∧
    (∃ s t, (State.now s t).flag F.CN_CFG_listen_only 2 = true) := by
  refine ⟨fun p h => ⟨st ((dItem .received xCan (dCan 3 {} (hostWin ++ [(F.FL_CFG_profile, 7, p.1), (F.FL_FV_TX_LO, 7, if p.2.1 then 2 ^ 32 - 1 else 0),
      (F.FL_FV_TX_HI, 7, if p.2.1 then 2 ^ 32 - 1 else 0)]))).withSec { d0.sec with keys := [(0, { key := if p.2.2 then some [1] else none })] }), 9,
      { index := 3, desc := some xCan, phase := .received }, ?_⟩,
    fun rtr => ⟨st (dItem .received { xCan with param1 := if rtr then 8 else 0 } (dCan 3 {} [])), 9,
      { index := 3, desc := some { xCan with param1 := if rtr then 8 else 0 }, phase := .received }, { xCan with param1 := if rtr then 8 else 0 }, ?_⟩,
    ⟨st (dItem .received xCan (dCan 3 vFrames [])), 9,
      { index := 3, desc := some xCan, phase := .received }, { qp := 5, index := 3, flow := 7, frame := f9 }, ?_⟩,
    fun xl => ⟨st (dItem .started xCan (dCan 3 { slots := [slot xl 0] } [(F.CN_CFG_xl_es, 2, 0)])), 9,
      { index := 3, desc := some xCan, phase := .started }, slot xl 0, ?_⟩, ⟨st (dCan 3 {} [(F.CN_CFG_listen_only, 2, 1)]), 9, ?_⟩⟩
  · revert p h; decide +kernel
  · revert rtr; decide +kernel
  · decide +kernel
  · revert xl; decide +kernel
  · decide +kernel

theorem witness_CanReceives :
    (∃ s t x, let d := State.now s t; d.standing 5 3 .received x ∧ x.opcode = Op.CAN_RXBUF ∧ d.windowCheck x = none) ∧
    (∃ s t x, let d := State.now s t; d.standing 5 3 .received x ∧ x.opcode = Op.CAN_RXBUF ∧ d.windowCheck x = some Code.RANGE) ∧
    (∃ s t, let d := State.now s t; let f : CanFrame := { format := 1, ident := 9, data := [1] }
      d.onBus 2 = true ∧ d.protoTakes 2 f = true ∧ d.matchFlow 2 f = none) ∧
    (∀ fence : Bool, ∃ s t, let d := State.now s t; let f : CanFrame := { format := 1, ident := 9, data := [1] }
      d.onBus 2 = true ∧ d.protoTakes 2 f = true ∧ d.matchFlow 2 f = some 7 ∧ d.fenced Kind.flow 7 = fence) ∧
    (∀ p ∈ [((1 : Nat), (1 : Nat), Code.OK), (1, 2, Code.OK), (2, 1, Code.AUTH)], ∃ s t, let d := State.now s t
      let f : CanFrame := { format := 1, ident := 9, data := [1] }
      d.onBus 2 = true ∧ d.protoTakes 2 f = true ∧ d.matchFlow 2 f = some 7 ∧ d.fenced Kind.flow 7 = false ∧ d.rd F.FL_CFG_dest 7 = p.2.1 ∧
      (d.checkFrame 7 (formatByte f false) f.ident f.data).1 = p.2.2 ∧ (d.can 2).held = []) ∧
    (∃ s t, let d := State.now s t; let f : CanFrame := { format := 1, ident := 9, data := [1] }
      d.onBus 2 = true ∧ d.protoTakes 2 f = true ∧ d.matchFlow 2 f = some 7 ∧ d.fenced Kind.flow 7 = false ∧ d.rd F.FL_CFG_dest 7 = 1 ∧
      (d.checkFrame 7 (formatByte f false) f.ident f.data).1 = Code.OK ∧
      64 ≤ ((d.can 2).held.filter fun r => r.status != Code.LOST).length) ∧
    (∃ s t, let d := State.now s t; let f : CanFrame := { format := 1, ident := 9, data := List.replicate 65 1 }
      d.onBus 2 = true ∧ d.protoTakes 2 f = true ∧ d.matchFlow 2 f = some 7 ∧ d.fenced Kind.flow 7 = false ∧ d.rd F.FL_CFG_dest 7 = 2 ∧
      (d.checkFrame 7 (formatByte f false) f.ident f.data).1 = Code.OK ∧ 64 < (d.checkFrame 7 (formatByte f false) f.ident f.data).2.1.length) ∧
    (∃ s t, let d := State.now s t; let f : CanFrame := { format := 1, ident := 9, data := [1] }
      d.onBus 2 = true ∧ d.protoTakes 2 { f with format := 3 } = false ∧ d.flag F.CN_CFG_pex 2 = true) ∧
    (∃ s t, let d := State.now s t; d.flag F.FL_CFG_enable 7 = true ∧ d.rd F.FL_CFG_dir 7 = 1 ∧ d.flag F.FL_CFG_age_en 7 = true ∧
      d.flag F.CN_CFG_enable (d.rd F.FL_CFG_controller 7) = true ∧ d.flag F.FL_STAT_stale 7 = false ∧ d.fenced Kind.flow 7 = false ∧
      (d.flow 7).ageFrom + 80000 * d.rd F.FL_AGE_max_age 7 ≤ d.time) ∧
    (∃ s t, let d := State.now s t; d.onBus 2 = true ∧ d.rd F.CN_STAT_tec 2 = 255 ∧ d.flag F.CN_CFG_xl_es 2 = false) := by
  refine ⟨⟨st (dItem .received { opcode := Op.CAN_RXBUF } (wrs d0 hostWin)), 9, { opcode := Op.CAN_RXBUF }, stands _ _ _ _, rfl, ?_⟩,
    ⟨st (dItem .received { opcode := Op.CAN_RXBUF } d0), 9, { opcode := Op.CAN_RXBUF }, stands _ _ _ _, rfl, ?_⟩,
    ⟨st (dCan 3 {} []), 9, ?_⟩, fun fence => ⟨st ((dRx []).markFenced Kind.flow 7 fence), 9, ?_⟩,
    fun p h => ⟨st (dRx [(F.FL_CFG_profile, 7, p.1), (F.FL_CFG_dest, 7, p.2.1), (F.FL_SC_ADDR_addr, 7, 0x700)]), 9, ?_⟩,
    ⟨st ((dRx []).onCan 2 fun v => { v with held := List.replicate 64 { time := 1, flow := 7, status := 0 } }), 9, ?_⟩,
    ⟨st (dRx [(F.FL_CFG_dest, 7, 2)]), 9, ?_⟩,
    ⟨st (dRx [(F.CN_CFG_pex, 2, 1)]), 9, ?_⟩, ⟨st (dRx [(F.FL_CFG_age_en, 7, 1), (F.FL_AGE_max_age, 7, 1)]), 80000, ?_⟩,
    ⟨st (dRx [(F.CN_STAT_tec, 2, 255), (F.CN_CFG_xl_es, 2, 0)]), 9, ?_⟩⟩
  · decide +kernel
  · decide +kernel
  · decide +kernel
  · revert fence; decide +kernel
  · revert p h; decide +kernel
  all_goals decide +kernel

/-- Time-triggered controller 2: NTU of 800 ticks, cycle of 100 NTU, trigger 4 of flow 7 at mark 10. -/
def dTt (tt : Nat) (v : CnT) (l : List (Fd × Nat × Nat)) : Dev :=
  let d := dCan 3 v ([(F.CN_CFG_tt_en, 2, 1), (F.CN_TT_STAT_state, 2, tt), (F.CN_TT_CFG_role, 2, 2), (F.CN_TT_NTU, 2, 800 * 65536),
    (F.CN_TT_CYCLE_cycle, 2, 100), (F.CN_TT_CYCLE_ref_watch, 2, 120)] ++ l)
  (((d.wr2 F.CN_TT_TRIG_enable 2 4 1).wr2 F.CN_TT_TRIG_flow 2 4 7).wr2 F.CN_TT_MARK_mark 2 4 10)

theorem witness_CanStatesAndTime :
    (∃ s t, let d := State.now s t; d.canState 2 = canIntegrating ∧ d.fenced Kind.can 2 = false ∧ d.rd F.CN_STAT_tec 2 ≤ 127 ∧
      d.rd F.CN_STAT_rec 2 ≤ 127) ∧
    (∃ s t m, let d := State.now s t; d.mayStore m = true ∧ d.fenced Kind.can 2 = false ∧ d.canState 2 = canBusOff) ∧
    (∀ fence : Bool, ∃ s t, let d := State.now s t; d.canState 2 = canRecovering ∧ d.fenced Kind.can 2 = fence) ∧
    (∀ p ∈ [((3 : Nat), false), (3, true), (1, false)], ∃ s t z, let d := State.now s t; d.ttState 2 = ttFollowing ∧ d.onBus 2 = true ∧
      d.trigCycle 2 4 (d.rd F.CN_TT_STAT_cycle_count 2) = true ∧ (d.can 2).cycleAt + d.rd2 F.CN_TT_MARK_mark 2 4 * 800 ≤ d.time ∧ d.rd2 F.CN_TT_TRIG_type 2 4 = p.1 ∧
      (d.can 2).seen.contains 4 = p.2 ∧ z ∈ (d.can 2).slots ∧ z.frame.flow = d.rd2 F.CN_TT_TRIG_flow 2 4 ∧ z.offer = none) ∧
    (∃ s t z m it, let d := State.now s t; (d.can 2).slots.find? (fun z => z.slot == (1 : Fin 3).val) = some z ∧ z.offer = some m ∧
      m + d.rd F.CN_TT_CFG_tx_win 2 * 800 < d.time ∧ (d.qp z.frame.qp).item z.frame.index = some it ∧ it.hasEnded = false ∧
      (d.qp z.frame.qp).silent = false) ∧
    (∀ tt ∈ [ttFollowing, ttMaster], ∃ s t, let d := State.now s t; d.maySend 2 = true ∧ d.rd F.CN_TT_CFG_role 2 = 2 ∧ d.ttState 2 = tt ∧
      (d.can 2).contend = true ∧ (d.can 2).gap = false ∧ d.rd F.CN_STAT_tec 2 = 0 ∧ d.flag F.CN_TT_CFG_level2 2 = true ∧
      (d.can 2).cycleAt + 100 * (d.word (F.CN_TT_NTU.off 2 0)).toNat / 65536 ≤ 80000 ∧ 80000 ≤ d.time) ∧
    (∃ s t, let d := State.now s t; d.ttState 2 = ttListening ∧
      (d.can 2).listenAt + 2 ^ d.rd F.CN_TT_CFG_mc_log2 2 * (100 * (d.word (F.CN_TT_NTU.off 2 0)).toNat / 65536) ≤ d.time ∧
      (d.can 2).cycleAt + 120 * (d.word (F.CN_TT_NTU.off 2 0)).toNat / 65536 ≤ d.time ∧ (d.can 2).gap = false) ∧
    (∃ s t, ((State.now s t).can 2).gap = true) := by
  refine ⟨⟨st (dCan 2 {} []), 9, ?_⟩, ⟨st (dCan 5 {} []), 9, .host, ?_⟩, fun fence => ⟨st ((dCan 6 {} []).markFenced Kind.can 2 fence), 9, ?_⟩,
    fun p h => ⟨st ((dTt 3 (vTrig p.2) []).wr2 F.CN_TT_TRIG_type 2 4 p.1), 90000, slot7 1, ?_⟩,
    ⟨st (dItem .started xCan (dTt 3 { slots := [{ slot7 1 with offer := some 8 }] } [])), 90000,
      { slot7 1 with offer := some 8 }, 8, { index := 3, desc := some xCan, phase := .started }, ?_⟩,
    fun tt h => ⟨st (dTt tt { contend := true } [(F.CN_TT_CFG_level2, 2, 1)]), 90000, ?_⟩, ⟨st (dTt 2 {} []), 9000000, ?_⟩, ⟨st (dTt 3 { gap := true } []), 9, ?_⟩⟩
  · decide +kernel
  · decide +kernel
  · revert fence; decide +kernel
  · revert p h; decide +kernel
  · decide +kernel
  · revert tt h; decide +kernel
  · decide +kernel
  · decide +kernel

end Sys2Proof.Tests

namespace Sys2Proof.Tests

set_option Elab.async false

/-- A window holds the host ranges of the descriptors. -/
def dWin : Dev := wrs d0 hostWin

/-- QP0 holding descriptor x, received, at ring index 3. -/
def dImset (x : Descr) (d : Dev) : Dev := d.setQp 0 { items := [{ index := 3, desc := some x, phase := .received }] }

theorem stands0 (d : Dev) (x : Descr) (t : Nat) : (State.now (st (dImset x d)) t).standing 0 3 .received x := by
  have h : (State.now (st (dImset x d)) t).qp 0 = { items := [{ index := 3, desc := some x, phase := .received }] } := by
    have g : (dImset x d).qp 0 = { items := [{ index := 3, desc := some x, phase := .received }] } := by simp [dImset, Dev.qp, Dev.setQp, Dev.withHi]
    rw [← g]
    unfold State.now Dev.arrive
    split <;> rfl
  refine ⟨{ index := 3, desc := some x, phase := .received }, ?_, rfl, rfl, ?_, ?_⟩ <;> rw [h]
  · rfl
  · right; cases hb : isSerial x <;> rfl

/-- A session, a descriptor of a privileged request with some data, its buffer with counter 1 and the tag of f, and a device in which
the session lives. -/
def sess : Session := { number := 1, key := [1], ends := 100 }
def xMan (op target param1 len : Nat) : Descr := { opcode := op, target := target, param1 := param1, length := len }
def madeBuf (x : Descr) (data : List Byte) (f : Byte → Byte) : List Byte :=
  numBytes 1 8 ++ numBytes 1 4 ++ (requestTag [1] x (numBytes 1 8) data).map f ++ List.replicate 20 0 ++ data
def dMan (x : Descr) (d : Dev) (f : Sec → Sec) : Dev := (dImset x d).onSec fun k => f { k with qpSession := some sess }

theorem standsMan (x : Descr) (d : Dev) (f : Sec → Sec) (t : Nat) : (State.now (st (dMan x d f)) t).standing 0 3 .received x := by
  have h := stands0 d x t
  revert h
  unfold Dev.standing State.now dMan Dev.onSec Dev.withSec st State.put Dev.arrive
  cases hc : (dImset x d).clockOn <;> exact id

theorem request_parts (tag data : List Byte) (h : tag.length = 32) :
    let b := numBytes 1 8 ++ numBytes 1 4 ++ tag ++ List.replicate 20 0 ++ data
    b.take 8 = numBytes 1 8 ∧ b.drop 64 = data ∧ (b.drop 8).take 4 = numBytes 1 4 ∧ (b.drop 12).take 32 = tag := by
  have h8 : (numBytes 1 8).length = 8 := by decide
  have h4 : (numBytes 1 4).length = 4 := by decide
  generalize numBytes 1 8 = p at *
  generalize numBytes 1 4 = q at *
  simp [List.take_append, List.drop_append, h, h8, h4, List.take_of_length_le, List.drop_of_length_le]

theorem madeBuf_parts (x : Descr) (data : List Byte) (f : Byte → Byte) :
    (madeBuf x data f).take 8 = numBytes 1 8 ∧ (madeBuf x data f).drop 64 = data ∧ numAt (madeBuf x data f) 8 4 = 1 ∧
      numAt (madeBuf x data f) 0 8 = 1 ∧ ((madeBuf x data f).drop 12).take 32 = (requestTag [1] x (numBytes 1 8) data).map f := by
  obtain ⟨p1, p2, p3, p4⟩ := request_parts ((requestTag [1] x (numBytes 1 8) data).map f) data (by simp [requestTag, kmac])
  exact ⟨p1, p2, (congrArg bytesNum p3).trans (by decide), (congrArg bytesNum p1).trans (by decide), p4⟩

/-- The request of x stands and passes its checks. -/
def Manages (d : Dev) (x : Descr) (b : List Byte) : Prop :=
  d.standing 0 3 .received x ∧ d.targetFenced 0 x = false ∧ d.sec.uartIn = [] ∧ d.windowCheck x = none ∧ d.authorise false x b = none ∧
    d.sec.qpSession = some sess

theorem manages (x : Descr) (d : Dev) (f : Sec → Sec) (t : Nat) (data : List Byte)
    (h : let n := State.now (st (dMan x d f)) t
      n.targetFenced 0 x = false ∧ n.sec.uartIn = [] ∧ n.windowCheck x = none ∧ n.fenced Kind.crypto 0 = false ∧ n.sec.qpSession = some sess ∧
        n.time < 100) :
    Manages (State.now (st (dMan x d f)) t) x (madeBuf x data id) := by
  obtain ⟨h1, h5, h6, h2, h3, h4⟩ := h
  refine ⟨standsMan x d f t, h1, h5, h6, ?_, h3⟩
  have hl : (State.now (st (dMan x d f)) t).liveSession false = some sess := by simp [Dev.liveSession, Dev.session, h3, sess, h4]
  obtain ⟨p1, p2, p3, p4, p5⟩ := madeBuf_parts x data id
  simp [Dev.authorise, h2, hl, p1, p2, p3, p4, p5, sess]

theorem witness_PrivilegeIsChecked :
    ∀ op ∈ [Op.UNSEAL, Op.ENROLL, Op.REVOKE, Op.UPDATE_ACTIVATE, Op.KEY_LOAD, Op.KEY_ERASE, Op.RAISE_COUNTER], let x := xMan op 1 0 64
      (∃ s t, let d := State.now s t; d.standing 0 3 .received x ∧ d.targetFenced 0 x = false ∧ d.sec.uartIn = [] ∧
        d.windowCheck x = some Code.RANGE) ∧
      (∃ s t, let d := State.now s t; d.standing 0 3 .received x ∧ d.targetFenced 0 x = false ∧ d.sec.uartIn = [] ∧ d.windowCheck x = none ∧ d.fenced Kind.crypto 0 = true) ∧
      (∃ s t, let d := State.now s t; d.standing 0 3 .received x ∧ d.targetFenced 0 x = false ∧ d.sec.uartIn = [] ∧ d.windowCheck x = none ∧ d.fenced Kind.crypto 0 = false ∧
        d.sec.qpSession = none) ∧
      ∃ s t, let d := State.now s t; d.standing 0 3 .received x ∧ d.targetFenced 0 x = false ∧ d.sec.uartIn = [] ∧ d.windowCheck x = none ∧ d.fenced Kind.crypto 0 = false ∧
        d.sec.qpSession = some sess ∧ d.time < sess.ends ∧
        (numAt (List.replicate 8 0 ++ numBytes 1 4 ++ List.replicate 52 0) 8 4 = sess.number ∧
          numAt (List.replicate 8 0 ++ numBytes 1 4 ++ List.replicate 52 0) 0 8 ≤ sess.counter) ∧
        (∀ good : Bool, ∃ b, numAt b 8 4 = sess.number ∧ sess.counter < numAt b 0 8 ∧ b.take x.length = b ∧
          (requestTag sess.key x (b.take 8) (b.drop 64) = (b.drop 12).take 32 ↔ good = true)) := by
  intro op ho
  refine ⟨⟨st (dMan (xMan op 1 0 64) d0 id), 9, standsMan _ _ _ _, ?_⟩,
    ⟨st (dMan (xMan op 1 0 64) (dWin.markFenced Kind.crypto 0 true) id), 9, standsMan _ _ _ _, ?_⟩,
    ⟨st (dMan (xMan op 1 0 64) dWin fun k => { k with qpSession := none }), 9, standsMan _ _ _ _, ?_⟩,
    ⟨st (dMan (xMan op 1 0 64) dWin id), 9, standsMan _ _ _ _, ?_⟩⟩
  · revert op; decide +kernel
  · revert op; decide +kernel
  · revert op; decide +kernel
  · refine ⟨by revert op; decide +kernel, by revert op; decide +kernel, by revert op; decide +kernel, by revert op; decide +kernel,
      by revert op; decide +kernel, by revert op; decide +kernel, by decide, ?_⟩
    intro good
    obtain ⟨p1, p2, p3, p4, p5⟩ := madeBuf_parts (xMan op 1 0 64) [] (if good then id else fun b => b + 1)
    refine ⟨_, p3, by rw [p4]; decide, rfl, ?_⟩
    rw [p1, p2, p5]
    cases good
    · constructor
      · intro h
        have g := congrArg (fun l => l.headD 0) h
        have hg : ∀ v : Byte, v ≠ v + 1 := by decide
        exact absurd g (hg _)
      · intro h; cases h
    · simp [sess]

/-- Devices for the requests of a manager. -/
def dSealed (l : List (Fd × Nat × Nat)) : Dev := wrs d0 ([(F.DEV_STATE_state, 0, DevSt.sealed)] ++ l)

theorem witness_PrivilegedEffects :
    (∃ s t x, let d := State.now s t; d.standing 0 3 .received x ∧ d.targetFenced 0 x = false ∧ d.sec.uartIn = [] ∧ d.windowCheck x = none ∧ x.opcode = Op.ENROLL ∧ x.target = 0 ∧
      (∀ k : Fin 4, d.enrolled k = none) ∧ x.length = 64) ∧
    (∀ c ∈ [(true, false), (true, true), (false, false)], ∃ s t x b, let d := State.now s t; Manages d x b ∧ x.opcode = Op.UNSEAL ∧
      d.isSealed = c.1 ∧ d.anyRun = c.2 ∧ d.sequencersRest = true) ∧
    (∀ there : Bool, ∃ s t x b, let d := State.now s t; Manages d x b ∧ x.opcode = Op.ENROLL ∧ x.target ≠ 0 ∧ 64 ≤ (b.drop 64).length ∧
      b.take x.length = b ∧ (d.enrolled x.target).isSome = there) ∧
    (∀ c ∈ [(3, false), (1, false), (1, true)], ∃ s t x b, let d := State.now s t; Manages d x b ∧ x.opcode = Op.REVOKE ∧
      d.counter 3 = c.1 ∧ (d.enrolled (d.counter 3 + 1)).isSome = c.2) ∧
    (∀ v ∈ [1024, 5, 7, 8], ∃ s t x b, let d := State.now s t; Manages d x b ∧ x.opcode = Op.RAISE_COUNTER ∧ x.param1 = v ∧
      d.counter x.target = 6 ∧ 8 ≤ x.target ∧ x.target < 64) ∧
    (∀ c ∈ [(2, true), (2, false), (0, true), (1, false)], ∃ s t x b, let d := State.now s t; Manages d x b ∧ x.opcode = Op.UPDATE_ACTIVATE ∧
      x.param1 = c.1 ∧ d.anyRun = c.2 ∧ (c.1 ≠ 1 → (d.otherSlot x.target).isSome = true) ∧
      (c.1 = 1 → d.onTrial x.target = true ∧ d.rd F.SEC_IMG_version x.target ≤ d.counter x.target + 1)) ∧
    (∀ op ∈ [Op.KEY_LOAD, Op.KEY_ERASE], ∃ s t x b, let d := State.now s t; Manages d x b ∧ x.opcode = op) := by
  refine ⟨⟨st (dImset (xMan Op.ENROLL 0 0 64) dWin), 9, _, stands0 _ _ _, by decide +kernel⟩, ?_, ?_, ?_, ?_, ?_, ?_⟩
  · intro c h
    refine ⟨st (dMan (xMan Op.UNSEAL 0 0 64) (wrs dWin [(F.DEV_STATE_state, 0, if c.1 then DevSt.sealed else DevSt.setup),
      (F.TB_STG_RUN_run, 3, if c.2 then 1 else 0)]) id), 9, _, _, manages _ _ _ _ [] ?_, ?_⟩ <;> (revert c; decide +kernel)
  · intro there
    refine ⟨st (dMan (xMan Op.ENROLL 2 0 128) dWin fun k => { k with enrolled := if there then [(2, some [1])] else [] }), 9, _, _,
      manages _ _ _ _ (List.replicate 64 0) ?_, rfl, ?_, ?_, rfl, ?_⟩
    · revert there; decide +kernel
    · decide
    · exact Nat.le_refl _
    · revert there; decide +kernel
  · intro c h
    refine ⟨st (dMan (xMan Op.REVOKE 0 0 64) dWin fun k => { k with counters := [(3, c.1)], enrolled := if c.2 then [(2, some [1])] else [] }), 9, _, _,
      manages _ _ _ _ [] ?_, ?_⟩ <;> (revert c; decide +kernel)
  · intro v h
    refine ⟨st (dMan (xMan Op.RAISE_COUNTER 9 v 64) dWin fun k => { k with counters := [(9, 6)] }), 9, _, _, manages _ _ _ _ [] ?_, ?_⟩ <;>
      (revert v; decide +kernel)
  · intro c h
    refine ⟨st (dMan (xMan Op.UPDATE_ACTIVATE 1 c.1 64) (wrs dWin [(F.TB_STG_RUN_run, 3, if c.2 then 1 else 0),
      (F.SEC_IMG_trial, 1, if c.1 = 1 then 1 else 0)]) id), 9, _, _, manages _ _ _ _ [] ?_, ?_⟩ <;> (revert c; decide +kernel)
  · intro op h
    refine ⟨st (dMan (xMan op 1 0 64) dWin id), 9, _, _, manages _ _ _ _ [] ?_, rfl⟩
    revert op; decide +kernel

/-- A frame that waits on the service UART behind a descriptor. -/
def waiting : UartReq := { payload := List.replicate 32 0, blown := 0, err := false, behind := [3] }

theorem witness_ImsetServes :
    (∀ op ∈ [Op.IDENTITY, Op.ATTEST, Op.SESSION_OPEN, Op.SESSION_CLOSE, Op.UPDATE_WRITE, Op.UPDATE_VERIFY, Op.LEDGER_READ, Op.LIFETIME_READ],
      ∃ s t, let d := State.now s t; d.standing 0 3 .received (xMan op 1 0 32) ∧ d.targetFenced 0 (xMan op 1 0 32) = false ∧
        d.sec.uartIn = [] ∧ d.windowCheck (xMan op 1 0 32) = none ∧ d.fenced Kind.crypto 0 = false ∧ (d.spareSlot 1).isSome = true ∧ (d.otherSlot 1).isSome = true ∧ 0 + 32 ≤ slotSize 1) ∧
    (∀ op ∈ [Op.ATTEST, Op.SESSION_OPEN, Op.UPDATE_VERIFY], ∃ s t, let d := State.now s t; d.standing 0 3 .received (xMan op 1 0 32) ∧
      d.targetFenced 0 (xMan op 1 0 32) = false ∧ d.sec.uartIn = [] ∧ d.windowCheck (xMan op 1 0 32) = none ∧ d.fenced Kind.crypto 0 = true) ∧
    (∀ op ∈ [Op.IDENTITY, Op.ATTEST, Op.SESSION_OPEN, Op.UPDATE_WRITE, Op.LEDGER_READ, Op.LIFETIME_READ], ∃ s t, let d := State.now s t
      d.standing 0 3 .received (xMan op 1 0 32) ∧ d.targetFenced 0 (xMan op 1 0 32) = false ∧ d.sec.uartIn = [] ∧
      d.windowCheck (xMan op 1 0 32) = some Code.RANGE) ∧
    (∃ s t, let d := State.now s t; d.standing 0 3 .received (xMan Op.SESSION_CLOSE 1 0 32) ∧ d.targetFenced 0 (xMan Op.SESSION_CLOSE 1 0 32) = false ∧
      d.sec.uartIn = [waiting] ∧ waiting.behind = [3] ∧ d.unserved = [3]) ∧
    (∀ there : Bool, ∃ s t, let d := State.now s t; d.standing 0 3 .received (xMan Op.SESSION_OPEN 1 0 32) ∧
      d.targetFenced 0 (xMan Op.SESSION_OPEN 1 0 32) = false ∧ d.sec.uartIn = [] ∧ d.windowCheck (xMan Op.SESSION_OPEN 1 0 32) = none ∧
      d.fenced Kind.crypto 0 = false ∧ d.integratorKey.isSome = there) ∧
    (∀ uart : Bool, ∃ s t z, let d := State.now s t; d.session uart = some z ∧ z.ends ≤ d.time) ∧
    (∃ s t, (State.now s t).fenced Kind.imset 0 = true) ∧
    (∀ answers free : Bool, ∃ s t, let d := State.now s t; d.fenced Kind.imset 0 = false ∧ d.uartAnswers = answers ∧ d.sec.uartIn = [] ∧
      (d.unserved = [] ↔ free = true)) := by
  refine ⟨?_, ?_, ?_, ?_, ?_, ?_, ⟨st (d0.markFenced Kind.imset 0 true), 9, by decide +kernel⟩, ?_⟩
  · intro op h
    refine ⟨st (dImset (xMan op 1 0 32) dWin), 9, stands0 _ _ _, ?_⟩
    revert op; decide +kernel
  · intro op h
    refine ⟨st (dImset (xMan op 1 0 32) (dWin.markFenced Kind.crypto 0 true)), 9, stands0 _ _ _, ?_⟩
    revert op; decide +kernel
  · intro op h
    refine ⟨st (dImset (xMan op 1 0 32) d0), 9, stands0 _ _ _, ?_⟩
    revert op; decide +kernel
  · exact ⟨st (dImset (xMan Op.SESSION_CLOSE 1 0 32) (d0.onSec fun k => { k with uartIn := [waiting] })), 9, stands0 _ _ _, by decide +kernel⟩
  · intro there
    refine ⟨st (dImset (xMan Op.SESSION_OPEN 1 0 32) (dWin.onSec fun k => { k with enrolled := if there then [(0, some [1])] else [] })), 9,
      stands0 _ _ _, ?_⟩
    revert there; decide +kernel
  · intro uart
    exact ⟨st (d0.onSec fun k => { k with qpSession := some { sess with ends := 5 }, uartSession := some { sess with ends := 5 } }), 9,
      { sess with ends := 5 }, by revert uart; decide +kernel⟩
  · intro answers free
    let d := wrs d0 (if answers then [] else [(F.IMS_STAT_state, 0, 2), (F.DEV_STATE_state, 0, DevSt.sealed), (F.SEC_CFG_uart_sealed, 0, 0)])
    exact ⟨st (if free then d else dImset (xMan Op.IDENTITY 1 0 32) d), 9, by revert answers free; decide +kernel⟩

/-- Imset's firmware runs. -/
def dRuns : Dev := wrs d0 [(F.IMS_STAT_state, 0, 2)]

theorem witness_ImsetOnItsOwn :
    (∃ s t, let d := State.now s t; d.pw.held = false ∧ d.rd F.IMS_STAT_state 0 = 1 ∧ (∀ a ∈ directoryCopies, d.directoryAt a = none) ∧
      (∀ k : Fin 3, Tbl.get (fun _ => []) d.sec.measured k = []) ∧
      ∀ v, d.verifyImage 0 v ≠ Code.OK ∧ d.verifyImage 1 v ≠ Code.OK ∧ d.verifyImage 2 v ≠ Code.OK) ∧
    (∃ s t, let d := State.now s t; d.sec.sealDue = true ∧ d.devState = DevSt.boot ∧ d.flag F.SC_FW_ready 0 = true) ∧
    (∃ s t r, let d := State.now s t; d.sec.resetAt = some r ∧ r ≤ d.time ∧ d.devState ≠ DevSt.safe) ∧
    (∃ s t, (State.now s t).devState = DevSt.safe) ∧
    (∃ s t, let d := State.now s t; d.imsetRuns = true ∧ d.sec.uartIn = [] ∧ d.flag F.FL_CFG_enable 7 = true ∧ d.rd F.FL_CFG_dir 7 = 2 ∧
      Tbl.get (fun _ => 0) d.sec.txMark 7 ≤ d.fvTx 7) ∧
    (∃ s t, let d := State.now s t; d.imsetRuns = true ∧ d.sec.uartIn = [] ∧ d.flag F.FL_CFG_enable 7 = true ∧ d.rd F.FL_CFG_dir 7 = 1 ∧
      d.fvRx 7 ≠ Tbl.get (fun _ => 0) d.sec.rxValue 7 ∧ Tbl.get (fun _ => 0) d.sec.rxAt 7 + 480000000000 ≤ d.time) ∧
    (∃ s t e, let d := State.now s t; d.imsetRuns = true ∧ d.sec.uartIn = [] ∧ d.slot 4 = some e ∧ e.flushed = false) ∧
    (∃ s t, let d := State.now s t; d.imsetRuns = true ∧ d.sec.uartIn = [] ∧ 3600 ≤ d.sec.seconds) ∧
    (∃ s t, let d := State.now s t; d.pw.asleep = false ∧ d.pw.held = false ∧ d.imsetRuns = true) ∧
    (∀ r ∈ [none, some { sector := 5, erased := false }, some { sector := 5, erased := true }], ∃ s t, let d := State.now s t
      d.imsetRuns = true ∧ d.sec.uartIn = [] ∧ d.sec.refreshing = r ∧ d.sec.refreshAt = none) ∧
    (∃ s t, let d := State.now s t; d.sec.refreshing = none ∧ d.sec.refreshAt = some 5 ∧ d.time < 5 + 8000000000) ∧
    (∃ s t, let d := State.now s t; d.pw.asleep = false ∧ d.fenced Kind.island 8 = true) :=
  ⟨⟨st (wrs (d0.onPw fun p => { p with held := false }) [(F.IMS_STAT_state, 0, 1)]), 9, by decide +kernel⟩,
    ⟨st ((wrs d0 [(F.SC_FW_ready, 0, 1)]).onSec fun k => { k with sealDue := true }), 9, by decide +kernel⟩,
    ⟨st (d0.onSec fun k => { k with resetAt := some 5 }), 9, 5, by decide +kernel⟩,
    ⟨st (wrs d0 [(F.DEV_STATE_state, 0, DevSt.safe)]), 9, by decide +kernel⟩,
    ⟨st (wrs dRuns [(F.FL_CFG_enable, 7, 1), (F.FL_CFG_dir, 7, 2)]), 9, by decide +kernel⟩,
    ⟨st (wrs dRuns [(F.FL_CFG_enable, 7, 1), (F.FL_CFG_dir, 7, 1), (F.FL_FV_RX_LO, 7, 6)]), 480000000000, by decide +kernel⟩,
    ⟨st (dRuns.setSlot 4 (some { rep := { kind := 1, index := 2, cls := 0, code := 3, time := 4 }, first := 4, count := 1, number := 4 })), 9, _, rfl, rfl, rfl, rfl⟩,
    ⟨st (dRuns.onSec fun k => { k with seconds := 3600 }), 9, by decide +kernel⟩,
    ⟨st (dRuns.onPw fun p => { p with held := false }), 9, by decide +kernel⟩,
    fun r h => ⟨st (dRuns.onSec fun k => { k with refreshing := r }), 9, by revert r h; decide +kernel⟩,
    ⟨st (d0.onSec fun k => { k with refreshAt := some 5 }), 9, by decide +kernel⟩,
    ⟨st (d0.markFenced Kind.island 8 true), 9, by decide +kernel⟩⟩

end Sys2Proof.Tests

namespace Sys2Proof.Tests

set_option Elab.async false

/-- A report, an entry that it opened, and a device whose ledger front end holds some of both. -/
def rep0 (cls : Nat) : Report := { kind := Kind.bank, index := 2, cls := cls, code := 3, time := 4 }
def entry0 (code : Nat) : Entry := { rep := { rep0 1 with code := code }, first := 4, count := 1, number := 0 }
def dFlt (f : Flt → Flt) (l : List (Fd × Nat × Nat)) : Dev := (wrs d0 l).withFlt (f d0.flt)

/-- Slot 0 taken by an entry not in flash, of a class, numbered 1024 less than the next, and others beside it. -/
def dSlots (cls : Nat) (more : Tbl (Option Entry)) : Dev :=
  dFlt (fun f => { f with intake := [rep0 cls], slots := (0, some (entry0 9)) :: more }) [(F.FLT_HEAD_LO, 0, 1024)]

theorem witness_LedgerKeepsFaults :
    (∃ s t, let d := State.now s t; d.fenced Kind.bank 2 = false ∧ d.flt.intake.length < 64 ∧ Kind.assigned Kind.bank = true ∧
      Code.assigned 0x21 = true) ∧
    (∃ s t, let d := State.now s t; d.fenced Kind.bank 2 = false ∧ 64 ≤ d.flt.intake.length) ∧
    (∃ s t, let d := State.now s t; d.flag F.WM_SW_STAT_held 4 = true ∧ d.fenced Kind.stage 4 = false) ∧
    (∃ s t, let d := State.now s t; d.devState = DevSt.safe ∧ d.fenced Kind.bank 2 = false) ∧
    (∃ s t, (State.now s t).fenced Kind.bank 2 = true) ∧ Kind.assigned 0x1C = false ∧ Code.assigned 0x80 = false ∧
    (∃ s t, (State.now s t).flt.intake = []) ∧
    (∃ s t, let d := State.now s t; d.flt.intake = [rep0 1] ∧ d.flt.lostDue = false ∧ d.flt.slots = [(0, some (entry0 3))] ∧
      d.coalesces (rep0 1) (entry0 3) = true) ∧
    (∀ cls ∈ [1, 2, 3, 4], ∃ s t, let d := State.now s t; d.flt.intake = [rep0 cls] ∧ d.flt.lostCarry = 0 ∧
      d.coalesces (rep0 cls) (entry0 9) = false ∧ d.flt.slots = [(0, some (entry0 9))] ∧ d.slot (d.nextNumber % 1024) = none) ∧
    (∀ cls ∈ [1, 2, 3, 4], ∃ s t, let d := State.now s t; d.flt.intake = [rep0 cls] ∧ d.flt.lostCarry = 0 ∧
      d.coalesces (rep0 cls) (entry0 9) = false ∧ d.flt.slots = [(0, some (entry0 9))] ∧
      d.slot (d.nextNumber % 1024) = some (entry0 9) ∧ (entry0 9).flushed = false) ∧
    (∃ s t, let d := State.now s t; d.flt.intake = [rep0 4] ∧ d.flt.lostCarry = 0 ∧ d.coalesces (rep0 4) { entry0 9 with rep := rep0 3, isOpen := false } = false ∧
      d.flt.slots = [(0, some { entry0 9 with rep := rep0 3, isOpen := false })] ∧ d.nextNumber % 1024 = 0) ∧
    (∃ s t, let d := State.now s t; d.flt.intake = [rep0 4] ∧ 0 < d.flt.lostCarry ∧ d.flt.slots = []) ∧
    (∀ t ∈ [800004, 10 ^ 12], ∃ s, let d := State.now s t; d.slot 0 = some (entry0 9) ∧ (entry0 9).isOpen = true ∧ d.time = t) ∧
    (∀ sel : Fin 3, (∃ m : Master, m.code = sel.val ∧ ∃ s t, (State.now s t).mayStore m = true) ∧ ∃ m : Master, m.code ≠ sel.val) :=
  ⟨⟨st d0, 9, by decide +kernel⟩, ⟨st (dFlt (fun f => { f with intake := List.replicate 64 (rep0 1) }) []), 9, by decide +kernel⟩,
    ⟨st (wrs d0 [(F.WM_SW_STAT_held, 4, 1)]), 9, by decide +kernel⟩, ⟨st (wrs d0 [(F.DEV_STATE_state, 0, DevSt.safe)]), 9, by decide +kernel⟩,
    ⟨st (d0.markFenced Kind.bank 2 true), 9, by decide +kernel⟩, by decide +kernel, by decide +kernel, ⟨st d0, 9, by decide +kernel⟩,
    ⟨st (dFlt (fun f => { f with intake := [rep0 1], slots := [(0, some (entry0 3))] }) []), 9, by decide +kernel⟩,
    fun cls h => ⟨st (dFlt (fun f => { f with intake := [rep0 cls], slots := [(0, some (entry0 9))] }) [(F.FLT_HEAD_LO, 0, 1023)]), 9,
      by revert cls; decide +kernel⟩,
    fun cls h => ⟨st (dSlots cls []), 9, by revert cls; decide +kernel⟩,
    ⟨st (dFlt (fun f => { f with intake := [rep0 4], slots := [(0, some { entry0 9 with rep := rep0 3, isOpen := false })] }) []), 10 ^ 12, by decide +kernel⟩,
    ⟨st (dFlt (fun f => { f with intake := [rep0 4], lostCarry := 5 }) []), 9, by decide +kernel⟩,
    fun t h => ⟨st ((dFlt (fun f => { f with slots := [(0, some (entry0 9))] }) []).withClockOn true), by revert t; decide +kernel⟩, by
      intro sel
      match sel with
      | 0 => exact ⟨⟨.host, rfl, st d0, 9, by decide +kernel⟩, .sc, by decide⟩
      | 1 => exact ⟨⟨.sc, rfl, st dFw, 9, by decide +kernel⟩, .host, by decide⟩
      | 2 => exact ⟨⟨.imset, rfl, st d0, 9, by decide +kernel⟩, .sc, by decide⟩⟩

theorem witness_FencesAct :
    (∃ s t, (State.now s t).fwStores = false) ∧
    (∀ fenced : Bool, ∃ s t, let d := State.now s t; d.fwStores = true ∧ fenceable Kind.bank 2 = true ∧ d.fenced Kind.bank 2 = fenced) ∧
    fenceable Kind.safety 9 = false ∧
    (∀ safe : Bool, ∃ s t, let d := State.now s t; d.fwStores = true ∧ d.flag F.FLT_SAFE_safe 0 = safe) ∧
    (∃ s t, ∀ i : Fin 12, (State.now s t).fenced Kind.island i = false) :=
  ⟨⟨st d0, 9, by decide +kernel⟩, fun fenced => ⟨st (dFw.markFenced Kind.bank 2 fenced), 9, by revert fenced; decide +kernel⟩, by decide +kernel,
    fun safe => ⟨st (wrs dFw [(F.FLT_SAFE_safe, 0, if safe then 1 else 0)]), 9, by revert safe; decide +kernel⟩, ⟨st d0, 9, by decide +kernel⟩⟩

/-- A unit's re-admission test for the descriptor at ring index 3 of QP5. -/
def test0 (kind index : Nat) : AdmitT := { kind := kind, index := index, qp := 5, ring := 3, startedAt := 7 }
def dTest (d : Dev) : Dev := dItem .handed { opcode := Op.ADMIT } d

theorem witness_UnitsReturn :
    (∀ u ∈ [(Kind.bank, 2), (Kind.logicConv, 1), (Kind.crypto, 0), (Kind.island, 3), (Kind.flow, 9), (Kind.winMon, 4)], ∀ fenced : Bool, ∃ s t x,
      let d := State.now s t; d.standing 5 3 .handed x ∧ x.opcode = Op.ADMIT ∧ x.target / 256 = u.1 ∧ x.target % 256 = u.2 ∧
        d.fenced u.1 u.2 = fenced) ∧
    (∀ can : Bool, ∃ s t x, let d := State.now s t; d.standing 5 3 .handed x ∧ x.opcode = Op.ADMIT ∧ x.target = 256 * Kind.flow + 9 ∧
      d.fenced Kind.flow 9 = true ∧ d.fenced Kind.can (d.rd F.FL_CFG_controller 9) = can) ∧
    (∃ s t it, let d := State.now s t; d.flt.admits.find? (fun a => a.qp == 5 && a.ring == 3) = some (test0 Kind.bank 2) ∧
      (d.qp 5).item 3 = some it ∧ it.hasEnded = false ∧ (d.qp 5).silent = false ∧ d.time ≤ (test0 Kind.bank 2).startedAt + 12000000) ∧
    (∃ s t it, let d := State.now s t; d.flt.admits.find? (fun a => a.qp == 5 && a.ring == 3) = some (test0 Kind.bank 2) ∧
      (d.qp 5).item 3 = some it ∧ it.hasEnded = false ∧ (d.qp 5).silent = false ∧ (test0 Kind.bank 2).startedAt + 12000000 < d.time) ∧
    (∀ a ∈ [{ test0 Kind.winMon 4 with lo := some 0, hi := some 256, readAt := 9 }, test0 Kind.winMon 4], ∃ s t it, let d := State.now s t
      d.flt.admits.find? (fun a => a.qp == 5 && a.ring == 3) = some a ∧ (d.qp 5).item 3 = some it ∧ it.hasEnded = false ∧
      (d.qp 5).silent = false ∧ d.time ≤ a.startedAt + 800000 ∧ d.rd F.WM_THR_lo 4 = 0 ∧ d.rd F.WM_THR_hi 4 = 0) ∧
    (∃ s t it, let d := State.now s t; d.flt.admits.find? (fun a => a.qp == 5 && a.ring == 3) = some (test0 Kind.port 2) ∧
      (d.qp 5).item 3 = some it ∧ it.hasEnded = false ∧ (d.qp 5).silent = false ∧ (test0 Kind.port 2).startedAt + 12000000 < d.time) ∧
    (∀ fenced : Bool, ∃ s t x, let d := State.now s t; d.standing 5 3 .received x ∧ x.opcode = Op.ENGINE_ADMIT ∧ x.target = 4 ∧
      d.fenced Kind.engine 4 = fenced) ∧
    (∀ at0 ∈ [0, 1], ∃ s t it, let d := State.now s t; (d.eng 4).testing = [(5, 3)] ∧ (d.eng 4).testAt = at0 ∧ d.time = 200001 ∧
      (d.qp 5).item 3 = some it ∧ it.hasEnded = false ∧ (d.qp 5).silent = false) ∧
    ∃ s t, ∀ e : Fin 12, ((State.now s t).eng e).testing = [] := by
  refine ⟨?_, ?_, ?_, ?_, ?_, ?_, ?_, ?_, ?_⟩
  · intro u h fenced
    refine ⟨st (dItem .handed { opcode := Op.ADMIT, target := 256 * u.1 + u.2 } (d0.markFenced u.1 u.2 fenced)), 9, _, stands _ _ _ _, ?_⟩
    revert u fenced; decide +kernel
  · intro can
    refine ⟨st (dItem .handed { opcode := Op.ADMIT, target := 256 * Kind.flow + 9 } ((d0.markFenced Kind.flow 9 true).markFenced Kind.can 0 can)), 9, _,
      stands _ _ _ _, ?_⟩
    revert can; decide +kernel
  · exact ⟨st (dTest (dFlt (fun f => { f with admits := [test0 Kind.bank 2] }) [])), 9, _, rfl, rfl, by decide +kernel⟩
  · exact ⟨st (dTest (dFlt (fun f => { f with admits := [test0 Kind.bank 2] }) [])), 12000008, _, rfl, rfl, by decide +kernel⟩
  · intro a h
    refine ⟨st (dTest (dFlt (fun f => { f with admits := [a] }) [(F.WM_THR_lo, 4, 0), (F.WM_THR_hi, 4, 0)])), 9, { index := 3, desc := some { opcode := Op.ADMIT }, phase := .handed }, ?_⟩
    revert a; decide +kernel
  · exact ⟨st (dTest (dFlt (fun f => { f with admits := [test0 Kind.port 2] }) [])), 12000008, _, rfl, rfl, by decide +kernel⟩
  · intro fenced
    refine ⟨st (dItem .received { opcode := Op.ENGINE_ADMIT, target := 4 } (d0.markFenced Kind.engine 4 fenced)), 9, _, stands _ _ _ _, ?_⟩
    revert fenced; decide +kernel
  · intro at0 h
    refine ⟨st ((dTest (d0.setEng 4 { testing := [(5, 3)], testAt := at0 })).withClockOn true), 200001, { index := 3, desc := some { opcode := Op.ADMIT }, phase := .handed }, ?_⟩
    revert at0; decide +kernel
  · exact ⟨st d0, 9, by decide +kernel⟩

end Sys2Proof.Tests

namespace Sys2Proof.Tests

set_option Elab.async false

/-- A device whose safe-state watchdog is enabled, in a state since time 0, with a stage that holds LOW_ON or not. -/
def dDog (state : Nat) (low : Bool) : Dev :=
  wrs d0 [(F.DEV_STATE_state, 0, state), (F.PWR_SAFE_WDOG_enable, 0, 1), (F.PWR_SAFE_WDOG_delay, 0, 1),
    (F.WM_SW_STAT_held, 3, if low then 1 else 0), (F.WM_SW_STAT_action, 3, 2)]

theorem witness_ResetsRenew :
    (∀ low : Bool, ∃ s t, let d := State.now s t; d.devState = DevSt.safe ∧ d.flag F.PWR_SAFE_WDOG_enable 0 = true ∧
      d.safeDue ≤ max d.time t ∧ d.anyLowOn = low) ∧
    (∃ s t, (State.now s t).devState ≠ DevSt.safe) ∧
    (∃ s t, (State.now s t).flag F.PWR_SAFE_WDOG_enable 0 = false) ∧ (∃ s t, let d := State.now s t; max d.time t < d.safeDue) :=
  ⟨fun low => ⟨st (dDog DevSt.safe low), 80000000, by revert low; decide +kernel⟩, ⟨st (dDog DevSt.setup false), 9, by decide +kernel⟩,
    ⟨st d0, 9, by decide +kernel⟩, ⟨st (dDog DevSt.safe false), 79999999, by decide +kernel⟩⟩

/-- A device at rest with a fabric rail of some height under ADAPTIVE, and a speed factor that asks for a step. -/
def dRail (mv k : Nat) : Dev := wrs (d0.onPw fun p => { p with mv := mv, steppedAt := some 5 })
  [(F.PWR_FAB_CFG_mode, 0, 1), (F.PWR_FAB_CFG_k_target, 0, 110), (F.FAB_SPEED_k, 0, k), (F.FAB_SPEED_k, 1, k), (F.FAB_SPEED_k, 2, k), (F.FAB_SPEED_k, 3, k)]

theorem witness_PowerAndSleep :
    (∀ held : Bool, ∃ s t, (State.now s t).pw.held = held) ∧
    (∃ s t, let d := State.now s t; d.fenced Kind.device 0 = false ∧ d.flt.intake.length < 64) ∧
    (∀ c ∈ [(800, 282), (870, 282), (880, 282), (800, 268), (730, 268), (720, 268), (800, 275)], ∃ s t, let d := State.now s t;
      let worst : Rat := max (max (d.rd F.FAB_SPEED_k 0) (d.rd F.FAB_SPEED_k 1)) (max (d.rd F.FAB_SPEED_k 2) (d.rd F.FAB_SPEED_k 3)) / 256
      let aim : Rat := d.rd F.PWR_FAB_CFG_k_target 0 / 100
      d.rd F.PWR_FAB_CFG_mode 0 = 1 ∧ (∀ a ∈ d.pw.steppedAt, a + 800000 ≤ d.time) ∧ d.pw.mv = c.1 ∧ (c.2 = 282 → aim < worst) ∧
        (c.2 = 268 → worst < aim - 5 / 100) ∧ (c.2 = 275 → worst ≤ aim ∧ aim - 5 / 100 ≤ worst)) ∧
    (∃ s t, let d := State.now s t; d.pw.steppedAt = some 5 ∧ d.time < 5 + 800000) ∧
    (∃ s t, (State.now s t).fwStores = false) ∧
    (∀ safe : Bool, ∃ s t, let d := State.now s t; d.fwStores = true ∧ d.anyRun = false ∧ d.sequencersRest = true ∧ (d.devState ≠ DevSt.safe ↔ safe = false) ∧
      d.flag F.SC_TM_STAT_ucg 0 = false ∧ d.flag F.SC_TM_STAT_ucg 1 = false) ∧
    (∀ seen ∈ [none, some true], ∀ safe : Bool, ∃ s t, let d := State.now s t; d.pw.entering = true ∧ d.pw.wakeSeen = seen ∧
      d.anyRun = false ∧ d.sequencersRest = true ∧ (d.devState ≠ DevSt.safe ↔ safe = false) ∧ d.flag F.SC_TM_STAT_ucg 0 = false ∧
      d.flag F.SC_TM_STAT_ucg 1 = false ∧ ∀ q : Fin 64, d.flag F.HI_QP_CTRL_draining q = false) ∧
    (∃ s t, let d := State.now s t; d.pw.entering = true ∧ d.flag F.HI_QP_CTRL_draining 63 = true) ∧
    (∀ asleep : Bool, ∃ s t, let d := State.now s t; d.pw.asleep = asleep ∧ d.pw.entering = !asleep ∧ d.pw.wakeSeen = none ∧
      d.rd F.PWR_SLEEP_CFG_wake_in_en 0 = 2 ∧ d.rd F.PWR_SLEEP_CFG_wake_in_pol 0 = 0) ∧
    (∀ up : Bool, ∃ s t, let d := State.now s t; d.pw.held = false ∧ d.pw.asleep = false ∧ d.pw.entering = false ∧ d.flag F.HI_LINK_up 0 = up ∧
      d.flag F.HI_LINK_CFG_aspm_l1 0 = up) :=
  ⟨fun held => ⟨st (d0.onPw fun p => { p with held := held }), 9, rfl⟩, ⟨st d0, 9, by decide +kernel⟩,
    fun c h => ⟨st (dRail c.1 c.2), 900000, by revert c; decide +kernel⟩, ⟨st (dRail 800 280), 9, by decide +kernel⟩,
    ⟨st d0, 9, by decide +kernel⟩,
    fun safe => ⟨st (wrs (dDog (if safe then DevSt.safe else DevSt.setup) false) [(F.SC_STAT_mode, 0, 2)]), 9, by revert safe; decide +kernel⟩,
    fun seen h safe => ⟨st ((dDog (if safe then DevSt.safe else DevSt.setup) false).onPw fun p => { p with entering := true, wakeSeen := seen }), 9,
      by revert seen safe; decide +kernel⟩,
    ⟨st (wrs (d0.onPw fun p => { p with entering := true }) [(F.HI_QP_CTRL_draining, 63, 1)]), 9, by decide +kernel⟩,
    fun asleep => ⟨st (wrs (d0.onPw fun p => { p with asleep := asleep, entering := !asleep }) [(F.PWR_SLEEP_CFG_wake_in_en, 0, 2)]), 9,
      by revert asleep; decide +kernel⟩,
    fun up => ⟨st (wrs (d0.onPw fun p => { p with held := false }) [(F.HI_LINK_up, 0, if up then 1 else 0), (F.HI_LINK_CFG_aspm_l1, 0, if up then 1 else 0)]), 9,
      by revert up; decide +kernel⟩⟩

theorem witness_Temperatures :
    (∀ fenced : Bool, ∃ s t, let d := State.now s t; d.tempFenced 4 = fenced ∧ (fenced = true → ∀ p ∈ stagePorts 1, d.tempFenced p = true) ∧
      (fenced = false → d.flag F.THM_DERATE_CFG_ext_en 0 = true) ∧ d.rd F.THM_DERATE_CFG_t_start 0 < d.rd F.THM_DERATE_CFG_t_stop 0) ∧
    (∃ s t, ∀ j : Fin 57, (State.now s t).tempFenced j = true) ∧
    (∃ s t, let d := State.now s t; d.deviates 4 = false) ∧
    (∃ s t, let d := State.now s t; d.deviates 4 = true ∧ d.rd F.THM_CC_CFG_cc_count 0 ≤ d.deviations 4 + 1 ∧ 2 < (d.liveGroup 4).length) :=
  ⟨fun fenced => ⟨st ((stagePorts 1).foldl (fun d p => d.markFenced Kind.temp p fenced) (wrs d0 [(F.THM_DERATE_CFG_ext_en, 0, 1)])), 9,
      by revert fenced; decide +kernel⟩,
    ⟨st ((List.range 57).foldl (fun d p => d.markFenced Kind.temp p true) d0), 9, by decide +kernel⟩, ⟨st d0, 9, by decide +kernel⟩,
    ⟨st (wrs d0 [(F.THM_TS, 4, 90 * 65536), (F.THM_CC_CFG_cc_count, 0, 1)]), 9, by decide +kernel⟩⟩

end Sys2Proof.Tests

namespace Sys2Proof.Tests

set_option Elab.async false

/-- A device in some state, with a register of class S of the Device page, THM_CC_CFG, at its reset value. -/
def dIn (state : Nat) : Dev := wrs d0 [(F.DEV_STATE_state, 0, state)]
def rowAt (off : Nat) : RegRow := (findReg off).getD ⟨"", 0, 0, 0, 0, 0, .V, 0, 0, []⟩

theorem witness_WritesAreChecked :
    (∃ s t, (State.now s t).mayStore .sc = false) ∧ (∃ s t, (State.now s t).mayStore .sc = true) ∧
    (∃ s t, let d := State.now s t; d.devState = DevSt.boot ∧ d.sys.applying = true) ∧
    (inTable 0xFFC = false ∧ inVectors 0xFFC = false ∧ findReg 0xFFC = none) ∧
    (findReg (0x3109 / 4 * 4) = some (rowAt 0x3108) ∧ inTable 0x3109 = false ∧ inVectors 0x3109 = false) ∧
    (∃ off r, findReg off = some r ∧ r.cls = .T ∧ inTable off = false ∧ inVectors off = false ∧ off % 4 = 0) ∧
    (∃ s t, findReg 0x3108 = some (rowAt 0x3108) ∧ (rowAt 0x3108).cls = .S ∧ (State.now s t).devState ≠ DevSt.setup ∧ (State.now s t).devState ≠ DevSt.boot) ∧
    (∃ s t, let d := State.now s t; d.regFenced 0x90000 = true ∧ answersFenced 0x90000 = false ∧ d.devState = DevSt.setup ∧ (findReg 0x90000).isSome = true) ∧
    (∃ s t f l, let d := State.now s t; d.devState = DevSt.setup ∧ d.regFenced 0x3108 = false ∧ f ∈ (rowAt 0x3108).fields ∧ f.acc = .rw ∧
      f.legal = some l ∧ ∀ x ∈ l, getBits 0 f.lo f.width < x.1 ∨ x.2 < getBits 0 f.lo f.width) ∧
    (∀ mode ∈ [(1 : Nat), 2], ∃ s t, let d := State.now s t; let r := rowAt 0x2008; let w := BitVec.ofNat 32 (0x00086400 + mode); d.devState = DevSt.setup ∧
      findReg 0x2008 = some r ∧ r.cls = .S ∧ d.regFenced 0x2008 = false ∧ fieldsLegal r w = true ∧
      d.refuses (d.setWord 0x2008 (mergeWord r (d.word 0x2008) w)) .host 0x2008 = false) ∧
    (∃ s t, let d := State.now s t; let w : Word := 0x05141E10; d.devState = DevSt.setup ∧ d.regFenced 0x3108 = false ∧
      fieldsLegal (rowAt 0x3108) w = true ∧ d.refuses (d.setWord 0x3108 (mergeWord (rowAt 0x3108) (d.word 0x3108) w)) .host 0x3108 = false) :=
  ⟨⟨st d0, 9, by decide +kernel⟩, ⟨st dFw, 9, by decide +kernel⟩, ⟨st (d0.onSys fun k => { k with applying := true }), 9, by decide +kernel⟩,
    by decide +kernel, by decide +kernel, ⟨0x10110, rowAt 0x10110, by decide +kernel⟩, ⟨st (dIn DevSt.sealed), 9, by decide +kernel⟩,
    ⟨st ((dIn DevSt.setup).markFenced Kind.can 0 true), 9, by decide +kernel⟩,
    ⟨st (dIn DevSt.setup), 9, (rowAt 0x3108).fields.headD ⟨"", 0, 0, .ro, none⟩, [(1, 255)], by decide +kernel⟩,
    fun mode h => ⟨st (dIn DevSt.setup), 9, by revert mode; decide +kernel⟩, ⟨st (dIn DevSt.setup), 9, by decide +kernel⟩⟩

theorem witness_WindowsAndHolding :
    (∃ s t, let d := State.now s t; inTable 0x40000 = true ∧ d.tableReason .host (d.tableOffset .host 0x40000) 7 = none) ∧
    (∃ s t, let d := State.now s t; inTable 0x60000 = true ∧ d.tableOffset .host 0x60000 < 0x70000 ∧ 0x60000 ≤ d.tableOffset .host 0x60000 ∧
      d.devState ≠ DevSt.setup ∧ d.devState ≠ DevSt.boot) ∧
    (∃ s t, let d := State.now s t; 0x70000 ≤ d.tableOffset .host 0x70000 ∧ d.tableOffset .host 0x70000 < 0x74000) ∧
    (∃ off s t, let d := State.now s t; off % 8 = 0 ∧ d.writeReason .host off false 0 = none ∧ d.writeReason .host (off + 4) false 0xFFFFFFFF ≠ none) ∧
    isLowHalf (F.TB_TIME_LO.off 0 0) = true ∧ isLowHalf 0 = false :=
  ⟨⟨st (dIn DevSt.setup), 9, by decide +kernel⟩, ⟨st (wrs (dIn DevSt.sealed) [(F.BE_LT_PAGE_page, 0, 1)]), 9, by decide +kernel⟩,
    ⟨st (wrs (dIn DevSt.sealed) [(F.BE_LT_PAGE_page, 0, 1)]), 9, by decide +kernel⟩, ⟨8224, st (dIn DevSt.setup), 9, by decide +kernel⟩, by decide +kernel, by decide +kernel⟩

theorem witness_SealsAndRefusals :
    (∃ s t, (State.now s t).mayStore .sc = false) ∧ (∃ s t, let d := State.now s t; d.mayStore .sc = true ∧ d.devState = DevSt.setup) ∧
    (∃ s t, let d := State.now s t; d.devState = DevSt.boot ∧ d.sec.sealDue = true) ∧
    (∃ s t, (State.now s t).devState = DevSt.sealed) ∧
    (∃ s t c, let d := State.now s t; d.devState = DevSt.sealing ∧ d.sys.conflicts = [c] ∧ c.kind < 16 ∧ c.index < 4096) ∧
    (∃ s t l r, let d := State.now s t; d.devState = DevSt.sealing ∧ d.sys.conflicts = [] ∧ d.planFails = some (l, r)) ∧
    (∀ runs : Bool, ∃ s t, let d := State.now s t; d.devState = DevSt.sealing ∧ d.sys.conflicts = [] ∧ d.planFails = none ∧ d.firmwareRuns = runs) :=
  ⟨⟨st d0, 9, by decide +kernel⟩, ⟨st (wrs dFw [(F.DEV_STATE_state, 0, 2)]), 9, by decide +kernel⟩, ⟨st (d0.onSec fun k => { k with sealDue := true }), 9, by decide +kernel⟩,
    ⟨st (dIn DevSt.sealed), 9, by decide +kernel⟩,
    ⟨st ((dIn DevSt.sealing).onSys fun k => { k with conflicts := [⟨1, 2, 3, 4⟩] }), 9, ⟨1, 2, 3, 4⟩, by decide +kernel⟩,
    ⟨st (wrs (dIn DevSt.sealing) [(F.BE_LP_CFG_enable, 3, 1)]), 9, 3, 3, by decide +kernel⟩,
    fun runs => ⟨st (wrs (dIn DevSt.sealing) [(F.SC_FW_ready, 0, if runs then 1 else 0), (F.SC_STAT_mode, 0, ScMode.duplex)]), 9,
      by revert runs; decide +kernel⟩⟩

end Sys2Proof.Tests

namespace Sys2Proof.Tests

set_option Elab.async false

/-- The state after reset with a command waiting. -/
def queued (c : Instr) : State := { State.reset with pending := [c, c] }

theorem witness_StepTakesTheFrontCommand : (∃ s c rest, s.pending = c :: rest ∧ s = queued (.hotReset 5 true) ∧ rest = [c]) ∧
    ∃ s : State, s.pending = [] :=
  ⟨⟨_, _, _, rfl, rfl, rfl⟩, State.reset, rfl⟩

theorem witness_EveryStepKeepsSoundness : ∃ s : State, s.Sound :=
  ⟨State.reset, by decide +kernel, by decide +kernel, by decide +kernel, by decide +kernel⟩

theorem witness_CommandsKeepTheirFrame : ∃ c : Instr, c.renews = false ∧ Part.mb ∉ c.foot.parts ∧ c.foot.parts ≠ [] :=
  ⟨.stageStart 5 3, by decide +kernel⟩

theorem witness_CountersNeverFall :
    (∃ (s : State) (k : Nat) (key : Word × List Byte), (s.toDev.counter 3 = 3 ∧ s.toDev.enrolled k = some key.2)) ∧
    (∀ v ∈ [5, 1024], ∃ s t x b, let d := State.now s t; Manages d x b ∧ b.take x.length = b ∧ x.opcode = Op.RAISE_COUNTER ∧
      d.counter x.target = 6 ∧ x.param1 = v ∧ 8 ≤ x.target ∧ x.target < 64) ∧
    ∃ s t x b, let d := State.now s t; Manages d x b ∧ b.take x.length = b ∧ x.opcode = Op.REVOKE ∧ 3 ≤ d.counter 3 := by
  refine ⟨⟨st (d0.onSec fun k => { k with counters := [(3, 3)], enrolled := [(2, some [1])] }), 2, (0, [1]), by decide +kernel⟩, ?_, ?_⟩
  · intro v h
    refine ⟨st (dMan (xMan Op.RAISE_COUNTER 11 v 64) dWin fun k => { k with counters := [(11, 6)] }), 9, _, _, manages _ _ _ _ [] ?_, rfl, ?_⟩ <;>
      (revert v; decide +kernel)
  · exact ⟨st (dMan (xMan Op.REVOKE 0 0 64) dWin fun k => { k with counters := [(3, 3)] }), 9, _, _, manages _ _ _ _ [] (by decide +kernel), rfl, rfl,
      by decide +kernel⟩

theorem witness_OnlyResetsLeaveSafe : ∃ (c : Instr) (s : State), s.devState = DevSt.safe ∧ c.resets = false :=
  ⟨.stageStart 5 3, st (wrs d0 [(F.DEV_STATE_state, 0, DevSt.safe)]), by decide +kernel⟩

theorem witness_TimeNeverFalls : ∃ (c : Instr) (s : State), c.renews = false ∧ s.clockOn = true ∧ s.time < c.time % 2 ^ 64 :=
  ⟨.stageStart 5 3, st (d0.withClockOn true), by decide +kernel⟩

end Sys2Proof.Tests
end

section
/-! The commands of stages and pulse generators (chapter 02): rules of the operations that STAGE_START, STAGE_STOP, COMPARE_MATCH and
DEAD_TIME_EXPIRY are made of, and obligation O3. -/

namespace Sys2Proof.Machine

/-! ### A command's effect as a completion -/

theorem Does.of_effect {s : State} {c : Instr} {t : Nat} {f : Dev → Dev} {P : Dev → Prop} (hc : exec c s = effect t s f)
    (h : P (f (s.now t))) : Does s c P :=
  ⟨_, hc, h⟩

/-- A store of the firmware's that comes while the copies execute. -/
theorem Does.of_firmware {s : State} {c : Instr} {t : Nat} {f : Dev → Dev} {P : Dev → Prop} (hc : exec c s = fromFirmware t s f)
    (hfw : (s.now t).fwStores = true) (h : P (f (s.now t))) : Does s c P :=
  Does.of_effect hc (by simpa only [hfw, if_true] using h)

/-! ### Tables and fields -/

@[simp] theorem Dev.stg_setStg_self (d : Dev) (s : Nat) (v : StageT) : (d.setStg s v).stg s = v := by
  simp [Dev.stg, Dev.setStg]

@[simp] theorem Dev.pg_setPg_self (d : Dev) (p : Nat) (v : PgT) : (d.setPg p v).pg p = v := by
  simp [Dev.pg, Dev.setPg]

theorem Dev.pg_setPg_of_ne (d : Dev) {p q : Nat} (v : PgT) (h : p ≠ q) : (d.setPg q v).pg p = d.pg p := by
  simp [Dev.pg, Dev.setPg, h]

@[simp] theorem Dev.port_setPort_self (d : Dev) (p : Nat) (v : PortT) : (d.setPort p v).port p = v := by
  simp [Dev.port, Dev.setPort]

theorem Dev.port_setPort_of_ne (d : Dev) {p q : Nat} (v : PortT) (h : p ≠ q) : (d.setPort q v).port p = d.port p := by
  simp [Dev.port, Dev.setPort, h]

@[simp] theorem Dev.flag_setPort (d : Dev) (p : Nat) (v : PortT) (f : Fd) (i : Nat) : (d.setPort p v).flag f i = d.flag f i := rfl

theorem Dev.flag_put_apart (d : Dev) (f g : Fd) (i k : Nat) (b : Bool) (h : g.lo + g.width ≤ 32) (ha : f.apart g = true) :
    (d.put g k b).flag f i = d.flag f i := by
  rw [Dev.flag, Dev.flag, Dev.put, Dev.rd_wr_apart d f g i k _ h ha]

theorem Dev.word_put_of_off_ne (d : Dev) (g : Fd) (k : Nat) (b : Bool) {o : Nat} (h : o ≠ g.off k 0) :
    (d.put g k b).word o = d.word o := by
  rw [Dev.put, Dev.wr, Dev.wr2, Dev.word_setWord, if_neg h]

theorem pgStat_off_ne {p q : Nat} (hp : p < 64) (hq : q < 64) (h : p ≠ q) : F.PG_STAT.off p 0 ≠ F.PG_STAT.off q 0 := by
  simp only [Fd.off, F.PG_STAT]
  omega

/-! ### Effects on a list of units -/

/-- What no single effect of a list changes, the list does not change. -/
theorem Dev.each_reads_same {β : Type} (g : Dev → β) {f : Dev → Nat → Dev} {l : List Nat} (h : ∀ e, ∀ q ∈ l, g (f e q) = g e)
    (d : Dev) : g (d.each l f) = g d := by
  induction l generalizing d with
  | nil => rfl
  | cons q r ih => exact (ih (fun e x hx => h e x (List.mem_cons_of_mem q hx)) (f d q)).trans (h d q List.mem_cons_self)

/-- What of a list's effects only the one at p changes reads after the list as after that one alone. -/
theorem Dev.each_reads_at {β : Type} (g : Dev → β) {f : Dev → Nat → Dev} {p : Nat} {l : List Nat} (hp : p ∈ l) (hl : l.Nodup)
    (h : ∀ e, ∀ q ∈ l, q ≠ p → g (f e q) = g e) (d : Dev) : ∃ e, g e = g d ∧ g (d.each l f) = g (f e p) := by
  induction l generalizing d with
  | nil => cases hp
  | cons q r ih =>
    obtain ⟨hq, hr⟩ := List.nodup_cons.mp hl
    have hrest : ∀ e, ∀ x ∈ r, x ≠ p → g (f e x) = g e := fun e x hx => h e x (List.mem_cons_of_mem q hx)
    rcases List.mem_cons.mp hp with rfl | hpr
    · exact ⟨d, rfl, Dev.each_reads_same g (fun e x hx => hrest e x hx fun hxp => hq (hxp ▸ hx)) (f d p)⟩
    · obtain ⟨e, he, hlast⟩ := ih hpr hr hrest (f d q)
      exact ⟨e, he.trans (h d q List.mem_cons_self fun hqp => hq (hqp ▸ hpr)), hlast⟩

theorem stagePorts_nodup (k : Fin 21) : (stagePorts k).Nodup := by revert k; decide

theorem stagePorts_lt (k : Fin 21) : ∀ p ∈ stagePorts k, p < 64 := by revert k; decide

/-! ### Presented commands (R42, R46, R48) -/

/-- The port shows the commands that are presented to it. -/
theorem Dev.present_shows (d : Dev) (p at16 : Nat) (hi lo : Bool) :
    (d.present p at16 hi lo).flag F.PG_STAT_out_high p = hi ∧ (d.present p at16 hi lo).flag F.PG_STAT_out_low p = lo := by
  have hshow : ∀ e : Dev, e = ((d.put F.PG_STAT_out_high p hi).put F.PG_STAT_out_low p lo).noteBoth p →
      e.flag F.PG_STAT_out_high p = hi ∧ e.flag F.PG_STAT_out_low p = lo := by
    rintro e rfl
    rw [(Dev.noteBoth_keeps _ p).flag F.PG_STAT_out_high p (by decide), (Dev.noteBoth_keeps _ p).flag F.PG_STAT_out_low p (by decide),
      Dev.flag_put_apart _ _ _ _ _ _ (by decide) (by decide)]
    exact ⟨Dev.flag_put _ _ _ _ (by decide) rfl, Dev.flag_put _ _ _ _ (by decide) rfl⟩
  unfold Dev.present
  dsimp only
  split <;> simpa only [Dev.flag_setPort] using hshow _ rfl

theorem Dev.pg_present (d : Dev) (p at16 : Nat) (hi lo : Bool) (q : Nat) : (d.present p at16 hi lo).pg q = d.pg q := by
  have htb : (d.present p at16 hi lo).tb = d.tb := (d.present_keeps p at16 hi lo).parts .tb (by decide)
  rw [Dev.pg, Dev.pg, htb]

/-- The dead time of an H-command edge: of the rising or of the falling one (R46). -/
def Dev.deadTime (d : Dev) (p : Nat) (h : Bool) : Nat := if h then d.rd F.PG_DT_dt_rise p else d.rd F.PG_DT_dt_fall p

/-- With no dead time the switches change over at the edge. -/
theorem Dev.hEdge_of_no_deadTime (d : Dev) (p now16 : Nat) (h : Bool) (hdt : d.deadTime p h = 0) :
    (d.hEdge p now16 h).flag F.PG_STAT_out_high p = h ∧ (d.hEdge p now16 h).flag F.PG_STAT_out_low p = !h := by
  unfold Dev.deadTime at hdt
  simp only [Dev.hEdge, hdt, if_true]
  exact Dev.present_shows ..

/-- With a dead time both switches are off from the edge on, and the one that turns on waits. -/
theorem Dev.hEdge_of_deadTime (d : Dev) (p now16 : Nat) (h : Bool) (hdt : d.deadTime p h ≠ 0) :
    (d.hEdge p now16 h).flag F.PG_STAT_out_high p = false ∧ (d.hEdge p now16 h).flag F.PG_STAT_out_low p = false ∧
      ((d.hEdge p now16 h).pg p).wait = some (h, now16 + d.deadTime p h) := by
  unfold Dev.deadTime at *
  simp only [Dev.hEdge, hdt, if_false, Dev.pg_present, Dev.pg_setPg_self, and_true]
  exact Dev.present_shows ..

/-! ### What a driving pulse generator commands, by its mode (R42) -/

theorem Dev.pgStep_high (d : Dev) (p now16 pos16 : Nat) (first : Bool) (hm : d.rd F.PG_CFG_mode p = 2) :
    (d.pgStep p now16 pos16 first).flag F.PG_STAT_out_high p = d.hCommand p pos16 ∧
      (d.pgStep p now16 pos16 first).flag F.PG_STAT_out_low p = false := by
  simp only [Dev.pgStep, hm]
  exact Dev.present_shows ..

theorem Dev.pgStep_low (d : Dev) (p now16 pos16 : Nat) (first : Bool) (hm : d.rd F.PG_CFG_mode p = 3) :
    (d.pgStep p now16 pos16 first).flag F.PG_STAT_out_high p = false ∧
      (d.pgStep p now16 pos16 first).flag F.PG_STAT_out_low p = !d.hCommand p pos16 := by
  simp only [Dev.pgStep, hm]
  exact Dev.present_shows ..

theorem Dev.pgStep_direct (d : Dev) (p now16 pos16 : Nat) (first : Bool) (hm : d.rd F.PG_CFG_mode p = 4) :
    (d.pgStep p now16 pos16 first).flag F.PG_STAT_out_high p = (d.directCommand p pos16).1 ∧
      (d.pgStep p now16 pos16 first).flag F.PG_STAT_out_low p = (d.directCommand p pos16).2 := by
  simp only [Dev.pgStep, hm]
  exact Dev.present_shows ..

/-- In COMPLEMENTARY and DOUBLE a changed H-command is an edge with dead time. -/
theorem Dev.pgStep_edge (d : Dev) (p now16 pos16 : Nat) (first : Bool) (hm : d.rd F.PG_CFG_mode p = 1 ∨ d.rd F.PG_CFG_mode p = 5)
    (hh : d.hCommand p pos16 ≠ (d.pg p).h) : d.pgStep p now16 pos16 first = d.hEdge p now16 (d.hCommand p pos16) := by
  simp [Dev.pgStep, hm, hh]

/-! ### Ports of a stopped stage (R55, R56) -/

/-- What a port holds that turning its switches off reads or changes. -/
structure PortView where
  pg : PgT
  port : PortT
  stat : Word
  time : Nat

def Dev.portView (d : Dev) (p : Nat) : PortView := ⟨d.pg p, d.port p, d.word (F.PG_STAT.off p 0), d.time⟩

theorem Dev.portView_eq_iff {d e : Dev} {p : Nat} : e.portView p = d.portView p ↔
    e.pg p = d.pg p ∧ e.port p = d.port p ∧ e.word (F.PG_STAT.off p 0) = d.word (F.PG_STAT.off p 0) ∧ e.time = d.time := by
  simp only [Dev.portView, PortView.mk.injEq]

/-- A flag of PG_STAT is read from its register. -/
theorem Dev.flag_eq_of_pgStat_eq {d e : Dev} {p : Nat} (h : e.word (F.PG_STAT.off p 0) = d.word (F.PG_STAT.off p 0)) (f : Fd)
    (hf : f.off p 0 = F.PG_STAT.off p 0) : e.flag f p = d.flag f p := by
  rw [Dev.flag, Dev.flag, Dev.rd, Dev.rd, Dev.rd2, Dev.rd2, hf, h]

theorem Dev.portOff_shows (d : Dev) (p : Nat) :
    (d.portOff p).flag F.PG_STAT_out_high p = false ∧ (d.portOff p).flag F.PG_STAT_out_low p = false := by
  simp only [Dev.portOff, Dev.flag_setPort]
  rw [Dev.flag_put_apart _ _ _ _ _ _ (by decide) (by decide)]
  exact ⟨Dev.flag_put _ _ _ _ (by decide) rfl, Dev.flag_put _ _ _ _ (by decide) rfl⟩

theorem Dev.portOff_wait (d : Dev) (p : Nat) : ((d.portOff p).pg p).wait = none := congrArg PgT.wait (d.pg_setPg_self p _)

/-- A driver that is commanded on gets the off command one clock later; nothing else is on its way. -/
theorem Dev.portOff_flight (d : Dev) (p : Nat) : ((d.portOff p).port p).flight =
    if (d.drv p true).cmd || (d.drv p false).cmd then [(16 * (d.time + 1), false, false)] else [] := by
  simp only [Dev.portOff, Dev.port_setPort_self]
  rfl

/-- Turning the switches of one port off leaves the other ports. -/
theorem Dev.portView_portOff_of_ne (d : Dev) {p q : Nat} (hp : p < 64) (hq : q < 64) (h : p ≠ q) :
    (d.portOff q).portView p = d.portView p := by
  have hoff : F.PG_STAT.off p 0 ≠ F.PG_STAT.off q 0 := pgStat_off_ne hp hq h
  refine Dev.portView_eq_iff.mpr ⟨d.pg_setPg_of_ne _ h, Dev.port_setPort_of_ne _ _ h, ?_, rfl⟩
  exact (Dev.word_put_of_off_ne _ F.PG_STAT_out_low q false hoff).trans (Dev.word_put_of_off_ne _ F.PG_STAT_out_high q false hoff)

/-- What a stop does to one port: a port that keeps a trip action keeps it (R56). -/
def Dev.silencePort (d : Dev) (p : Nat) : Dev :=
  if d.flag F.PG_STAT_trip_hold p then d.setPg p { d.pg p with wait := none } else d.portOff p

theorem Dev.silence_eq (d : Dev) (s : Nat) : d.silence s = d.each (stagePorts s) Dev.silencePort := rfl

theorem Dev.silencePort_wait (d : Dev) (p : Nat) : ((d.silencePort p).pg p).wait = none := by
  unfold Dev.silencePort
  split
  · rw [Dev.pg_setPg_self]
  · exact d.portOff_wait p

theorem Dev.silencePort_of_free (d : Dev) (p : Nat) (h : d.flag F.PG_STAT_trip_hold p = false) : d.silencePort p = d.portOff p := by
  simp [Dev.silencePort, h]

theorem Dev.portView_silencePort_of_ne (d : Dev) {p q : Nat} (hp : p < 64) (hq : q < 64) (h : p ≠ q) :
    (d.silencePort q).portView p = d.portView p := by
  unfold Dev.silencePort
  split
  · exact Dev.portView_eq_iff.mpr ⟨d.pg_setPg_of_ne _ h, rfl, rfl, rfl⟩
  · exact d.portView_portOff_of_ne hp hq h

/-- A port of a stage that is silenced is left as its own turn leaves it. -/
theorem Dev.portView_silence (d : Dev) (k : Fin 21) {p : Nat} (hp : p ∈ stagePorts k) :
    ∃ e : Dev, e.portView p = d.portView p ∧ (d.silence k).portView p = (e.silencePort p).portView p :=
  Dev.each_reads_at (fun d => d.portView p) hp (stagePorts_nodup k)
    (fun e q hq hne => e.portView_silencePort_of_ne (stagePorts_lt k p hp) (stagePorts_lt k q hq) hne.symm) d

theorem Dev.silence_wait (d : Dev) (k : Fin 21) {p : Nat} (hp : p ∈ stagePorts k) : ((d.silence k).pg p).wait = none := by
  obtain ⟨e, -, hlast⟩ := d.portView_silence k hp
  rw [(Dev.portView_eq_iff.mp hlast).1, e.silencePort_wait]

/-- Both switches of a port without a kept trip action turn off one clock later (R55). -/
theorem Dev.silence_turns_off (d : Dev) (k : Fin 21) {p : Nat} (hp : p ∈ stagePorts k) (h : d.flag F.PG_STAT_trip_hold p = false) :
    (d.silence k).flag F.PG_STAT_out_high p = false ∧ (d.silence k).flag F.PG_STAT_out_low p = false ∧
      ((d.silence k).port p).flight =
        if (d.drv p true).cmd || (d.drv p false).cmd then [(16 * (d.time + 1), false, false)] else [] := by
  obtain ⟨e, hfirst, hlast⟩ := d.portView_silence k hp
  obtain ⟨-, hport, hstat, htime⟩ := Dev.portView_eq_iff.mp hfirst
  have hfree : e.flag F.PG_STAT_trip_hold p = false := (Dev.flag_eq_of_pgStat_eq hstat F.PG_STAT_trip_hold rfl).trans h
  rw [e.silencePort_of_free p hfree] at hlast
  obtain ⟨-, hport', hstat', -⟩ := Dev.portView_eq_iff.mp hlast
  obtain ⟨hhigh, hlow⟩ := e.portOff_shows p
  refine ⟨(Dev.flag_eq_of_pgStat_eq hstat' F.PG_STAT_out_high rfl).trans hhigh,
    (Dev.flag_eq_of_pgStat_eq hstat' F.PG_STAT_out_low rfl).trans hlow, ?_⟩
  rw [hport', e.portOff_flight, Dev.drv, Dev.drv, hport, htime]
  rfl

theorem Dev.gate_silence (d : Dev) (s : Nat) : (d.silence s).tb.gate = d.tb.gate :=
  Dev.each_reads_same (f := Dev.silencePort) (fun d => d.tb.gate)
    (fun e q _ => by unfold Dev.silencePort; split <;> rfl) d

/-! ### Stop (R55) -/

theorem Dev.endRun_shows (d : Dev) (s : Nat) :
    (d.endRun s).flag F.TB_STG_RUN_run s = false ∧ (d.endRun s).flag F.TB_STG_STAT_running s = false := by
  unfold Dev.endRun
  dsimp only
  rw [Dev.flag_put_apart _ _ _ _ _ _ (by decide) (by decide)]
  exact ⟨Dev.flag_put _ _ _ _ (by decide) rfl, Dev.flag_put _ _ _ _ (by decide) rfl⟩

theorem Dev.gate_endRun (d : Dev) (s : Nat) : (d.endRun s).tb.gate = d.tb.gate := by
  unfold Dev.endRun
  split <;> rfl

theorem Dev.stopStage_shows (d : Dev) (s : Nat) :
    (d.stopStage s).flag F.TB_STG_RUN_run s = false ∧ (d.stopStage s).flag F.TB_STG_STAT_running s = false := by
  have hs := (d.endRun s).silence_keeps s
  obtain ⟨hrun, hrunning⟩ := d.endRun_shows s
  exact ⟨(hs.flag _ s (by decide)).trans hrun, (hs.flag _ s (by decide)).trans hrunning⟩

/-- A stop leaves the numbering of the update points. -/
theorem Dev.upd_stopStage (d : Dev) (s k : Nat) : (d.stopStage s).upd k = d.upd k := by
  have hs := d.stopStage_keeps s
  rw [Dev.upd, Dev.upd, Dev.rd64, Dev.rd64, hs.rd F.TB_STG_UPD_LO k (by decide), hs.rd F.TB_STG_UPD_HI k (by decide)]

theorem Dev.gate_stopStage (d : Dev) (s : Nat) : (d.stopStage s).tb.gate = d.tb.gate :=
  ((d.endRun s).gate_silence s).trans (d.gate_endRun s)

theorem Dev.stopStage_wait (d : Dev) (k : Fin 21) {p : Nat} (hp : p ∈ stagePorts k) : ((d.stopStage k).pg p).wait = none :=
  (d.endRun k).silence_wait k hp

/-- The drivers' inputs and the time at which a stop turns the ports off are those at the stop. -/
theorem Dev.stopStage_turns_off (d : Dev) (k : Fin 21) {p : Nat} (hp : p ∈ stagePorts k) (h : d.flag F.PG_STAT_trip_hold p = false) :
    (d.stopStage k).flag F.PG_STAT_out_high p = false ∧ (d.stopStage k).flag F.PG_STAT_out_low p = false ∧
      ((d.stopStage k).port p).flight =
        if (d.drv p true).cmd || (d.drv p false).cmd then [(16 * (d.time + 1), false, false)] else [] := by
  have he := d.endRun_keeps k
  have hpp : (d.endRun k).pp = d.pp := he.parts .pp (by decide)
  have hdrv : ∀ hi, (d.endRun k).drv p hi = d.drv p hi := fun hi => by rw [Dev.drv, Dev.drv, Dev.port, Dev.port, hpp]
  have hoff := (d.endRun k).silence_turns_off k hp ((he.flag _ p (by decide)).trans h)
  rwa [hdrv, hdrv, he.time] at hoff

/-! ### Start (R54) -/

/-- What a start writes down of the stage. -/
def Dev.noteStart (d : Dev) (s : Nat) : Dev :=
  let d := d.setStg s { d.stg s with startAt := d.time, driving := false,
                                     offs := ((d.stg s).stopAt, d.time) :: (d.stg s).offs.filter fun x => Nat.ble d.time (x.2 + 4096) }
  d.setStop s { d.stop s with lowWait := false }

/-- What a start does to one port. -/
def Dev.startPort (d : Dev) (p : Nat) : Dev :=
  ((d.put F.PG_STAT_trip_hold p false).portOff p).pipe fun d => d.setPort p { d.port p with restarted := true }

theorem Dev.startStage_of_stopped (d : Dev) (s : Nat) (hrun : d.flag F.TB_STG_RUN_run s = false) (hawake : d.pw.asleep = false) :
    d.startStage s = ((((d.abandonCal s).put F.TB_STG_RUN_run s true).absStart s).noteStart s).each (stagePorts s) Dev.startPort := by
  simp only [Dev.startStage, hrun, hawake]
  rfl

theorem Dev.startStage_of_asleep (d : Dev) (s : Nat) (h : d.pw.asleep = true) : d.startStage s = d := by
  simp [Dev.startStage, h]

theorem Dev.noteStart_stg (d : Dev) (s : Nat) : ((d.noteStart s).stg s).startAt = d.time ∧ ((d.noteStart s).stg s).driving = false := by
  have hstg : (d.noteStart s).stg s = _ := d.stg_setStg_self s _
  rw [hstg]
  exact ⟨rfl, rfl⟩

theorem Dev.startPort_run (d : Dev) (p s : Nat) : (d.startPort p).flag F.TB_STG_RUN_run s = d.flag F.TB_STG_RUN_run s :=
  ((Dev.portOff_keeps _ p).flag _ s (by decide)).trans (Dev.flag_put_apart _ _ _ _ _ _ (by decide) (by decide))

theorem Dev.startStage_shows (d : Dev) (s : Nat) (hrun : d.flag F.TB_STG_RUN_run s = false) (hawake : d.pw.asleep = false) :
    (d.startStage s).flag F.TB_STG_RUN_run s = true ∧ ((d.startStage s).stg s).startAt = d.time ∧
      ((d.startStage s).stg s).driving = false := by
  have hports : ∀ e : Dev, (e.each (stagePorts s) Dev.startPort).flag F.TB_STG_RUN_run s = e.flag F.TB_STG_RUN_run s ∧
      (e.each (stagePorts s) Dev.startPort).stg s = e.stg s := fun e =>
    ⟨Dev.each_reads_same (fun d => d.flag F.TB_STG_RUN_run s) (fun e q _ => e.startPort_run q s) e,
      Dev.each_reads_same (f := Dev.startPort) (fun d => d.stg s) (fun _ _ _ => rfl) e⟩
  have habs := ((d.abandonCal s).put F.TB_STG_RUN_run s true).absStart_keeps s
  rw [d.startStage_of_stopped s hrun hawake, (hports _).1, (hports _).2]
  obtain ⟨hat, hdriving⟩ := Dev.noteStart_stg (((d.abandonCal s).put F.TB_STG_RUN_run s true).absStart s) s
  refine ⟨?_, hat.trans (habs.time.trans (d.abandonCal_keeps s).time), hdriving⟩
  exact (habs.flag _ s (by decide)).trans (Dev.flag_put _ _ _ _ (by decide) rfl)

/-! ### The commands -/

theorem Dev.writeRun_stop (d : Dev) (s : Nat) (hf : d.fenced Kind.stage s = false) : d.writeRun s false = d.stopStage s := by
  simp [Dev.writeRun, hf]

theorem Dev.writeRun_start (d : Dev) (s : Nat) (hf : d.fenced Kind.stage s = false) (hh : d.flag F.WM_SW_STAT_held s = false) :
    d.writeRun s true = d.startStage s := by
  simp [Dev.writeRun, hf, hh]

theorem does_stageStart {s : State} {t : Nat} {k : Fin 21} {P : Dev → Prop} (hfw : (s.now t).fwStores = true)
    (hf : (s.now t).fenced Kind.stage k = false) (hh : (s.now t).flag F.WM_SW_STAT_held k = false) (h : P ((s.now t).startStage k)) :
    Does s (.stageStart t k) P :=
  Does.of_firmware (f := fun d => d.writeRun k true) rfl hfw (by rwa [Dev.writeRun_start _ _ hf hh])

theorem does_stageStop {s : State} {t : Nat} {k : Fin 21} {P : Dev → Prop} (hfw : (s.now t).fwStores = true)
    (hf : (s.now t).fenced Kind.stage k = false) (h : P ((s.now t).stopStage k)) : Does s (.stageStop t k) P :=
  Does.of_firmware (f := fun d => d.writeRun k false) rfl hfw (by rwa [Dev.writeRun_stop _ _ hf])

theorem does_compareMatch {s : State} {t : Nat} {six : Fin 16} {p : Fin 64} {P : Dev → Prop}
    (hd : ((s.now t).stg (portStage p)).driving = true)
    (h : P ((s.now t).pgStep p (16 * (s.now t).time + six) (16 * (s.now t).carrier (portStage p) (s.now t).time + six) false)) :
    Does s (.compareMatch t six p) P :=
  Does.of_effect (show exec _ s = execCompareMatch t six p s from rfl) (by simpa only [hd, if_true] using h)

theorem does_deadTimeExpiry {s : State} {t : Nat} {six : Fin 16} {p : Fin 64} {hi : Bool} {at16 : Nat} {P : Dev → Prop}
    (hw : ((s.now t).pg p).wait = some (hi, at16)) (hat : at16 ≤ 16 * (s.now t).time + six)
    (h : P (((s.now t).setPg p { (s.now t).pg p with wait := none }).present p at16 hi (!hi))) :
    Does s (.deadTimeExpiry t six p) P :=
  Does.of_effect (show exec _ s = execDeadTimeExpiry t six p s from rfl) (by simpa only [hw, hat, if_true] using h)

/-- Settles O3: each command comes down to one operation (startStage, stopStage, pgStep, present), whose rules above are the clauses. -/
theorem stagesRunAndSwitch : Obligations.StagesRunAndSwitch := by
  unfold Obligations.StagesRunAndSwitch
  intro s t d
  refine ⟨?start, ?asleep, ?stop, ?compare, ?expiry⟩
  case start => exact fun k hfw hawake hf hh hrun => does_stageStart hfw hf hh (d.startStage_shows k hrun hawake)
  case asleep =>
    intro k hfw hsleep hf hh
    exact does_stageStart hfw hf hh (congrArg (fun n : Dev => n.flag F.TB_STG_RUN_run k) (d.startStage_of_asleep k hsleep))
  case stop =>
    intro k hfw hf
    obtain ⟨hrun, hrunning⟩ := d.stopStage_shows k
    exact does_stageStop hfw hf ⟨hrun, hrunning, d.upd_stopStage k k, (d.stopStage_keeps k).flag _ k (by decide), d.gate_stopStage k,
      fun p hp => ⟨d.stopStage_wait k hp, d.stopStage_turns_off k hp⟩⟩
  case compare =>
    intro six p hd pos h
    refine does_compareMatch hd ⟨d.pgStep_high p _ pos false, d.pgStep_low p _ pos false, d.pgStep_direct p _ pos false, ?_⟩
    intro hm hh
    rw [d.pgStep_edge p _ pos false hm hh]
    exact ⟨d.hEdge_of_no_deadTime p _ h, d.hEdge_of_deadTime p _ h⟩
  case expiry =>
    intro six p hi at16 hw hat
    refine does_deadTimeExpiry hw hat ⟨?_, Dev.present_shows ..⟩
    rw [Dev.pg_present, Dev.pg_setPg_self]

end Sys2Proof.Machine
end

section
/-! The transforms and tables of the balance engines (R165 to R169, R191): rules of the variables that an operation writes and of the
retirement of an operation, what each operation writes, and obligation O18. -/

namespace Sys2Proof.Machine

/-! ### The working copy of a run -/

/-- Is run q run r but for its variables? -/
def Run.SameButVars (r q : Run) : Prop := q = { r with vars := q.vars }

theorem Run.SameButVars.refl (r : Run) : r.SameButVars r := rfl

theorem Run.SameButVars.put {r q : Run} (h : r.SameButVars q) (k : Nat) (v : Word) : r.SameButVars (q.put k v) :=
  congrArg (fun x : Run => x.put k v) h

theorem Run.SameButVars.loop {r q : Run} (h : r.SameButVars q) : q.loop = r.loop := by rw [h]

theorem Run.SameButVars.pc {r q : Run} (h : r.SameButVars q) : q.pc = r.pc := by rw [h]

theorem Run.SameButVars.abort {r q : Run} (h : r.SameButVars q) : q.abort = r.abort := by rw [h]

theorem Run.raw_put (r : Run) (k j : Nat) (v : Word) : (r.put k v).raw j = if j % 256 = k % 256 then v else r.raw j :=
  Tbl.get_set ..

@[simp] theorem Run.raw_put_self (r : Run) (k : Nat) (v : Word) : (r.put k v).raw k = v := by
  rw [Run.raw_put, if_pos rfl]

theorem Run.raw_put_of_ne (r : Run) {k j : Nat} (v : Word) (h : j % 256 ≠ k % 256) : (r.put k v).raw j = r.raw j := by
  rw [Run.raw_put, if_neg h]

/-! ### Writeback and the sat flag (R157) -/

/-- Is the sat flag of the operation's loop set? -/
def OpSt.IsSat (x : OpSt) : Prop := x.1.flag F.BE_LP_FLAGS_sat x.2.loop = true

@[simp] theorem OpSt.sat_snd (x : OpSt) (b : Bool) : (x.sat b).2 = x.2 := by
  cases b <;> rfl

@[simp] theorem OpSt.write_snd (x : OpSt) (k : Nat) (v : Int) : (x.write k v).2 = x.2.put k (qWord v) := OpSt.sat_snd ..

theorem OpSt.isSat_sat_true (x : OpSt) : (x.sat true).IsSat := Dev.flag_put _ _ _ _ (by decide) rfl

theorem OpSt.IsSat.sat {x : OpSt} (h : x.IsSat) (b : Bool) : (x.sat b).IsSat := by
  cases b with
  | false => exact h
  | true => exact x.isSat_sat_true

theorem OpSt.IsSat.write {x : OpSt} (h : x.IsSat) (k : Nat) (v : Int) : (x.write k v).IsSat :=
  OpSt.IsSat.sat (x := (x.1, x.2.put k (qWord v))) h _

/-- Writeback of two values to variables k and k + 1. -/
def OpSt.write2 (x : OpSt) (k : Nat) (u v : Int) : OpSt := (x.write k u).write (k + 1) v

/-- Writeback of three values to variables k to k + 2. -/
def OpSt.write3 (x : OpSt) (k : Nat) (u v w : Int) : OpSt := (x.write2 k u v).write (k + 2) w

@[simp] theorem OpSt.write2_snd (x : OpSt) (k : Nat) (u v : Int) :
    (x.write2 k u v).2 = (x.2.put k (qWord u)).put (k + 1) (qWord v) := by
  simp [OpSt.write2]

@[simp] theorem OpSt.write3_snd (x : OpSt) (k : Nat) (u v w : Int) :
    (x.write3 k u v w).2 = ((x.2.put k (qWord u)).put (k + 1) (qWord v)).put (k + 2) (qWord w) := by
  simp [OpSt.write3]

theorem OpSt.write2_raw (x : OpSt) (k : Nat) (u v : Int) :
    (x.write2 k u v).2.raw k = qWord u ∧ (x.write2 k u v).2.raw (k + 1) = qWord v := by
  rw [OpSt.write2_snd]
  exact ⟨by rw [Run.raw_put_of_ne _ _ (by omega), Run.raw_put_self], Run.raw_put_self ..⟩

theorem OpSt.write3_raw (x : OpSt) (k : Nat) (u v w : Int) :
    (x.write3 k u v w).2.raw k = qWord u ∧ (x.write3 k u v w).2.raw (k + 1) = qWord v ∧ (x.write3 k u v w).2.raw (k + 2) = qWord w := by
  obtain ⟨hu, hv⟩ := x.write2_raw k u v
  rw [OpSt.write3, OpSt.write_snd, Run.raw_put_of_ne _ _ (by omega), Run.raw_put_of_ne _ _ (by omega)]
  exact ⟨hu, hv, Run.raw_put_self ..⟩

theorem OpSt.write3_raw_of_le (x : OpSt) (k : Nat) (i : Nat → Int) {j : Nat} (hj : j ≤ 2) :
    (x.write3 k (i 0) (i 1) (i 2)).2.raw (k + j) = qWord (i j) := by
  obtain ⟨h0, h1, h2⟩ := x.write3_raw k (i 0) (i 1) (i 2)
  interval_cases j
  exacts [h0, h1, h2]

theorem OpSt.write2_keeps (x : OpSt) (k : Nat) (u v : Int) : Keeps ⟨false, [F.BE_LP_FLAGS_sat], []⟩ x.1 (x.write2 k u v).1 :=
  (OpSt.write_keeps ..).trans (OpSt.write_keeps ..)

/-! ### The retirement of an operation that is not its run's last (R155) -/

theorem Dev.retire_of_not_last (d : Dev) (e : Nat) (r : Run) (hnext : r.pc + 1 < d.rd F.BE_LP_PROG_length r.loop)
    (hgoes : r.abort = false) : d.retire e r = d.setEng e { d.eng e with run := some { r with pc := r.pc + 1, lastAt := d.time } } := by
  simp [Dev.retire, Nat.not_le.mpr hnext, hgoes]

@[simp] theorem Dev.eng_setEng_self (d : Dev) (e : Nat) (v : EngT) : (d.setEng e v).eng e = v := Tbl.get_set .. |>.trans (if_pos rfl)

/-- The device that an operation of some code leaves, before its run goes on: only a STORE and an EMIT reach it from an engine whose fence
is in force (R177). -/
def Dev.afterOp (d : Dev) (e code : Nat) (y : OpSt) : Dev := if d.fenceHolds e && code != 0x02 && code != 0x03 then d else y.1

theorem Dev.afterOp_keeps {W : Foot} {d : Dev} {y : OpSt} (h : Keeps W d y.1) (e code : Nat) : Keeps W d (d.afterOp e code y) :=
  Keeps.ite (fun _ => Keeps.refl _ _) fun _ => h

theorem Dev.afterOp_of_fence {d : Dev} {e code : Nat} (h : d.fenceHolds e = true) (hstore : code ≠ 0x02) (hemit : code ≠ 0x03)
    (y : OpSt) : d.afterOp e code y = d := by
  simp [Dev.afterOp, h, hstore, hemit]

theorem Dev.afterOp_of_no_fence {d : Dev} {e : Nat} (h : d.fenceHolds e = false) (code : Nat) (y : OpSt) : d.afterOp e code y = y.1 := by
  simp [Dev.afterOp, h]

theorem Dev.runOp_of_atOp {d : Dev} {e code : Nat} {r : Run} (hat : d.atOp e code r) (f : OpSt → Nat → OpSt) :
    d.runOp e code f = (d.afterOp e code (f (d, r) (d.opWord r.loop r.pc))).retire e (f (d, r) (d.opWord r.loop r.pc)).2 := by
  obtain ⟨hrun, hcode, -, -⟩ := hat
  simp only [Dev.runOp, hrun, hcode, if_true, Dev.afterOp]

/-- An operation that writes variables and leaves its program's length retires, and what it writes stands in the run and the device. -/
theorem Retires.of_runOp {s : State} {t : Nat} {c : Instr} {e code : Nat} {r : Run} {f : OpSt → Nat → OpSt} {W : Foot}
    {P : Dev → Run → Prop} {y : OpSt} (hat : (s.now t).atOp e code r) (ht : c.time = t)
    (hc : exec c s = effect t s fun d => d.runOp e code f) (hy : f (s.now t, r) ((s.now t).opWord r.loop r.pc) = y)
    (hkeeps : Keeps W (s.now t) y.1) (hW : W.avoids F.BE_LP_PROG_length = true) (hrun : r.SameButVars y.2)
    (h : ∀ n q, (∀ fd i, n.flag fd i = ((s.now t).afterOp e code y).flag fd i) → (∀ k, q.raw k = y.2.raw k) → P n q) :
    Retires s c e r P := by
  refine Does.of_effect hc ?_
  have hdev := Dev.afterOp_keeps hkeeps e code
  have ⟨_, _, hlength, hgoes⟩ := hat
  have hnext : y.2.pc + 1 < ((s.now t).afterOp e code y).rd F.BE_LP_PROG_length y.2.loop := by
    rw [hrun.loop, hrun.pc, hdev.rd _ _ hW]
    exact hlength
  rw [Dev.runOp_of_atOp hat, hy, Dev.retire_of_not_last _ _ _ hnext (hrun.abort.trans hgoes)]
  exact ⟨_, congrArg EngT.run (Dev.eng_setEng_self ..), congrArg (· + 1) hrun.pc, hdev.time.trans (by rw [ht]), hrun.loop,
    h _ _ (fun _ _ => rfl) fun _ => rfl⟩

/-- An operation that writes two variables back retires. -/
theorem Retires.of_write2 {s : State} {t : Nat} {c : Instr} {e code : Nat} {r : Run} {f : OpSt → Nat → OpSt} {P : Dev → Run → Prop}
    {k : Nat} {u v : Int} (hat : (s.now t).atOp e code r) (ht : c.time = t) (hc : exec c s = effect t s fun d => d.runOp e code f)
    (hy : f (s.now t, r) ((s.now t).opWord r.loop r.pc) = OpSt.write2 (s.now t, r) k u v)
    (h : ∀ n q, q.raw k = qWord u → q.raw (k + 1) = qWord v → P n q) : Retires s c e r P := by
  obtain ⟨hu, hv⟩ := OpSt.write2_raw (s.now t, r) k u v
  refine Retires.of_runOp hat ht hc hy (OpSt.write2_keeps (s.now t, r) ..) (by decide) ?_
    fun n q _ hq => h n q ((hq _).trans hu) ((hq _).trans hv)
  rw [OpSt.write2_snd]
  exact ((Run.SameButVars.refl r).put _ _).put _ _

/-! ### CLARKE, PARK and IPARK (R165) -/

theorem OpSt.clarke_eq_write2 (x : OpSt) (w : Nat) :
    let a := x.2.val (opA w); let b := x.2.val (opA w + 1); let c := if bitOf (opMod w) 0 then -(a + b) else x.2.val (opA w + 2)
    x.clarke w = x.write2 (opDst w) (roundDiv (2 * a - b - c) 3) (divRoot3 (b - c)) := rfl

theorem OpSt.park_eq_write2 (x : OpSt) (w : Nat) :
    let a := x.2.val (opA w); let b := x.2.val (opA w + 1); let sin := x.2.val (opB w); let cos := x.2.val (opB w + 1)
    x.park w = x.write2 (opDst w) (roundDiv (a * cos + b * sin) one31) (roundDiv (-a * sin + b * cos) one31) := rfl

theorem OpSt.ipark_eq_write2 (x : OpSt) (w : Nat) :
    let a := x.2.val (opA w); let b := x.2.val (opA w + 1); let sin := x.2.val (opB w); let cos := x.2.val (opB w + 1)
    x.ipark w = x.write2 (opDst w) (roundDiv (a * cos - b * sin) one31) (roundDiv (a * sin + b * cos) one31) := rfl

/-! ### DIAL (R166) -/

theorem OpSt.dial_eq_write2 (x : OpSt) (w : Nat) :
    let angle := ((x.2.raw (opA w)).toNat + if bitOf (opMod w) 0 then (x.2.raw (opB w)).toNat else 0) % 2 ^ 32
    x.dial w = x.write2 (opDst w) (x.1.dial (opImm w % 8) angle) (x.1.dial (opImm w % 8) ((angle + 0x40000000) % 2 ^ 32)) := rfl

@[simp] theorem qWord_q31 (w : Word) : qWord (q31 w) = w := by
  have hlo : -2147483648 ≤ w.toInt := BitVec.le_toInt w
  have hhi : w.toInt < 2147483648 := BitVec.toInt_lt
  rw [qWord, q31, clampInt, one31, if_neg (by omega), if_neg (by omega), BitVec.ofInt_toInt]

theorem roundDiv_mul_self (v : Int) {n : Int} (hn : 0 < n) : roundDiv (v * n) n = v := by
  rw [roundDiv, show 2 * (v * n) + n = n + v * (2 * n) by ring, Int.add_mul_ediv_right _ _ (by omega),
    Int.ediv_eq_zero_of_lt (by omega) (by omega), zero_add]

/-- At the angle of an entry nothing is interpolated. -/
theorem Dev.dial_at_entry (d : Dev) (table angle : Nat) (h : angle % 2 ^ 22 = 0) :
    qWord (d.dial table angle) = d.lt (0x78000 + 0x1000 * table + 4 * (angle / 2 ^ 22 % 1024)) := by
  simp only [Dev.dial, h, Nat.cast_zero, mul_zero, add_zero]
  rw [roundDiv_mul_self _ (by norm_num), qWord_q31]

/-- A quarter of a turn on, the entry is 256 places further. -/
theorem Dev.dial_quarter_on (d : Dev) (table angle : Nat) (h : angle % 2 ^ 22 = 0) :
    qWord (d.dial table ((angle + 0x40000000) % 2 ^ 32)) = d.lt (0x78000 + 0x1000 * table + 4 * ((angle / 2 ^ 22 + 256) % 1024)) := by
  rw [Dev.dial_at_entry _ _ _ (by omega)]
  congr 3
  omega

/-! ### SVM (R167) -/

/-- The compares of SVM, for a link of 1.0 in the place of one that is zero or below, and whether they were scaled. -/
def OpSt.svmResult (x : OpSt) (w : Nat) : (Surd × Surd × Surd) × Bool :=
  svmCompares (x.2.val (opA w)) (x.2.val (opA w + 1)) (if x.2.val (opB w) ≤ 0 then 1 else x.2.val (opB w)) (opMod w % 4 == 1)

/-- SVM before its compares are written. -/
def OpSt.svmSat (x : OpSt) (w : Nat) : OpSt := x.sat (decide (x.2.val (opB w) ≤ 0) || (x.svmResult w).2)

theorem OpSt.svm_eq_write3 (x : OpSt) (w : Nat) (h : bitOf (opMod w) 2 = false) :
    let u := (x.svmResult w).1
    x.svm w = (x.svmSat w).write3 (opDst w) u.1.round31 u.2.1.round31 u.2.2.round31 := by
  simp only [OpSt.svm, h]
  rfl

/-- What SVM's sat flag brings and every writeback keeps holds after SVM, with and without KEEP. -/
theorem OpSt.svm_induct {P : OpSt → Prop} (hwrite : ∀ y k v, P y → P (OpSt.write y k v)) (x : OpSt) (w : Nat) (h : P (x.svmSat w)) :
    P (x.svm w) := by
  cases hkeep : bitOf (opMod w) 2 with
  | false =>
    rw [x.svm_eq_write3 w hkeep]
    exact hwrite _ _ _ (hwrite _ _ _ (hwrite _ _ _ h))
  | true =>
    simp only [OpSt.svm, hkeep, if_true]
    exact List.foldlRecOn _ _ h fun _ hy _ _ => hwrite _ _ _ (hwrite _ _ _ hy)

theorem OpSt.svm_sameButVars (x : OpSt) (w : Nat) : x.2.SameButVars (x.svm w).2 := by
  refine OpSt.svm_induct (P := fun y => x.2.SameButVars y.2) (fun y k v hy => ?_) x w ?_
  · rw [OpSt.write_snd]
    exact hy.put k _
  · rw [OpSt.svmSat, OpSt.sat_snd]
    exact Run.SameButVars.refl _

theorem OpSt.svm_isSat (x : OpSt) (w : Nat) (hlink : x.2.val (opB w) ≤ 0) : (x.svm w).IsSat := by
  refine OpSt.svm_induct (fun _ k v hy => hy.write k v) x w ?_
  rw [OpSt.svmSat, decide_eq_true hlink]
  exact x.isSat_sat_true

theorem OpSt.svmResult_of_pos (x : OpSt) (w : Nat) (hlink : 0 < x.2.val (opB w)) :
    x.svmResult w = svmCompares (x.2.val (opA w)) (x.2.val (opA w + 1)) (x.2.val (opB w)) (opMod w % 4 == 1) := by
  rw [OpSt.svmResult, if_neg (Int.not_le.mpr hlink)]

theorem OpSt.svm_raw (x : OpSt) (w : Nat) (hlink : 0 < x.2.val (opB w)) (hkeep : bitOf (opMod w) 2 = false) :
    let u := (svmCompares (x.2.val (opA w)) (x.2.val (opA w + 1)) (x.2.val (opB w)) (opMod w % 4 == 1)).1
    (x.svm w).2.raw (opDst w) = qWord u.1.round31 ∧ (x.svm w).2.raw (opDst w + 1) = qWord u.2.1.round31 ∧
      (x.svm w).2.raw (opDst w + 2) = qWord u.2.2.round31 := by
  rw [x.svm_eq_write3 w hkeep, x.svmResult_of_pos w hlink]
  exact OpSt.write3_raw ..

/-! ### RECON (R169) -/

/-- The current of a record at RECON, with its sign. -/
def OpSt.amps (x : OpSt) (w : Nat) (k : ShRec) : Int :=
  let v := enterLoop k.current.toInt (x.1.scale x.2.loop (opMod w))
  if infoNeg k.info then -v else v

/-- The current of port k of a set of which ports p and q have theirs. -/
def currentOf (p : Nat) (ip : Int) (q : Nat) (iq : Int) (k : Nat) : Int :=
  if k = p then ip else if k = q then iq else -(ip + iq)

/-- Are both records of a run placed, at two different ports of the set? -/
structure RunRecs.TwoPlaced (q : RunRecs) : Prop where
  a : infoPlaced q.a.info = true
  b : infoPlaced q.b.info = true
  portA : infoPhase q.a.info ≤ 2
  portB : infoPhase q.b.info ≤ 2
  apart : infoPhase q.a.info ≠ infoPhase q.b.info

/-- The current of port k that RECON derives from two placed records. -/
def OpSt.reconCurrent (x : OpSt) (w : Nat) (k : Nat) : Int :=
  currentOf (infoPhase x.2.recs.a.info) (x.amps w x.2.recs.a) (infoPhase x.2.recs.b.info) (x.amps w x.2.recs.b) k

theorem OpSt.recon_eq_write3 (x : OpSt) (w : Nat) (h : x.2.recs.TwoPlaced) :
    x.recon w = (x.sat (infoSat x.2.recs.a.info || infoSat x.2.recs.b.info)).write3 (opDst w)
      (x.reconCurrent w 0) (x.reconCurrent w 1) (x.reconCurrent w 2) := by
  have hports : ¬ (infoPhase x.2.recs.a.info = infoPhase x.2.recs.b.info ∨ 2 < infoPhase x.2.recs.a.info ∨
      2 < infoPhase x.2.recs.b.info) := by
    have := h.portA
    have := h.portB
    have := h.apart
    omega
  simp only [OpSt.recon, h.a, h.b, Bool.true_and, if_true, if_neg hports]
  rfl

theorem OpSt.recon_sameButVars (x : OpSt) (w : Nat) (h : x.2.recs.TwoPlaced) : x.2.SameButVars (x.recon w).2 := by
  rw [x.recon_eq_write3 w h, OpSt.write3_snd, OpSt.sat_snd]
  exact (((Run.SameButVars.refl _).put _ _).put _ _).put _ _

theorem OpSt.recon_raw (x : OpSt) (w : Nat) (h : x.2.recs.TwoPlaced) {k : Nat} (hk : k ≤ 2) :
    (x.recon w).2.raw (opDst w + k) = qWord (x.reconCurrent w k) := by
  rw [x.recon_eq_write3 w h]
  exact OpSt.write3_raw_of_le _ _ (x.reconCurrent w) hk

theorem currentOf_fst (p : Nat) (ip : Int) (q : Nat) (iq : Int) : currentOf p ip q iq p = ip := if_pos rfl

theorem currentOf_snd {p q : Nat} (ip iq : Int) (h : p ≠ q) : currentOf p ip q iq q = iq := by
  rw [currentOf, if_neg h.symm, if_pos rfl]

theorem currentOf_third {p q : Nat} (ip iq : Int) (h : p ≠ q) (hp : p ≤ 2) (hq : q ≤ 2) :
    currentOf p ip q iq (3 - p - q) = -(ip + iq) := by
  rw [currentOf, if_neg (by omega), if_neg (by omega)]

/-! ### POISE (R191) -/

/-- The cogging of a POISE table at an angle, exact. -/
def Dev.cogging (d : Dev) (table angle : Nat) : Rat :=
  let word (i : Nat) : Int := q31 (d.lt (0x80000 + 0x4000 * table + 4 * i))
  word (angle / 2 ^ 21 % 2048) +
    (word ((angle / 2 ^ 21 + 1) % 2048) - word (angle / 2 ^ 21 % 2048) : Int) * ((angle % 2 ^ 21 : Nat) : Rat) / 2 ^ 21

theorem OpSt.poise_sameButVars (x : OpSt) (w : Nat) : x.2.SameButVars (x.poise w).2 := by
  rw [OpSt.poise, OpSt.write_snd]
  exact (Run.SameButVars.refl _).put _ _

/-- At standstill neither friction nor damping adds to the cogging. -/
theorem OpSt.poise_at_standstill (x : OpSt) (w : Nat) (h : x.2.val (opB w) = 0) :
    x.poise w = x.write (opDst w) (ratRound (x.1.cogging (opImm w % 16) (x.2.raw (opA w)).toNat)) := by
  simp [OpSt.poise, h, Dev.cogging, (zero_le_one (α := ℚ)).not_gt]

theorem OpSt.poise_raw (x : OpSt) (w : Nat) (h : x.2.val (opB w) = 0) :
    (x.poise w).2.raw (opDst w) = qWord (ratRound (x.1.cogging (opImm w % 16) (x.2.raw (opA w)).toNat)) := by
  rw [x.poise_at_standstill w h, OpSt.write_snd, Run.raw_put_self]

/-! ### The operations together -/

/-- Settles O18: CLARKE, PARK, IPARK and DIAL write two variables back, SVM and RECON three, POISE one; the equation of each says which. -/
theorem transformsAndTables : Obligations.TransformsAndTables := by
  unfold Obligations.TransformsAndTables
  intro s t e r d w dst a b sin cos
  refine ⟨?clarke, ?park, ?ipark, ?dial, ?svm, ?recon, ?poise⟩
  case clarke => exact fun hat => Retires.of_write2 hat rfl rfl (OpSt.clarke_eq_write2 ..) fun _ _ hu hv => ⟨hu, hv⟩
  case park => exact fun hat => Retires.of_write2 hat rfl rfl (OpSt.park_eq_write2 ..) fun _ _ hu hv => ⟨hu, hv⟩
  case ipark => exact fun hat => Retires.of_write2 hat rfl rfl (OpSt.ipark_eq_write2 ..) fun _ _ hu hv => ⟨hu, hv⟩
  case dial =>
    refine fun hat => Retires.of_write2 hat rfl rfl (OpSt.dial_eq_write2 ..) fun _ _ hu hv => ⟨fun hentry => ⟨?_, ?_⟩, hu⟩
    · exact hu.trans (Dev.dial_at_entry _ _ _ hentry)
    · exact hv.trans (Dev.dial_quarter_on _ _ _ hentry)
  case svm =>
    refine fun hat => Retires.of_runOp hat rfl rfl rfl (OpSt.svm_keeps (d, r) w) (by decide) (OpSt.svm_sameButVars (d, r) w)
      fun n q hflag hq => ?_
    have hloop : (OpSt.svm (d, r) w).2.loop = r.loop := (OpSt.svm_sameButVars (d, r) w).loop
    refine ⟨fun hlink hfence => ?_, fun hfence => ?_, fun hlink hkeep => ?_⟩
    · have hsat := OpSt.svm_isSat (d, r) w hlink
      rw [OpSt.IsSat, hloop] at hsat
      exact (hflag ..).trans (by rwa [Dev.afterOp_of_no_fence hfence])
    · exact (hflag ..).trans (by rw [Dev.afterOp_of_fence hfence (by decide) (by decide)])
    · simp only [hq]
      exact OpSt.svm_raw (d, r) w hlink hkeep
  case recon =>
    intro hat ha hb hpa hpb hne
    have hplaced : r.recs.TwoPlaced := ⟨ha, hb, hpa, hpb, hne⟩
    refine Retires.of_runOp hat rfl rfl rfl (OpSt.recon_keeps (d, r) w) (by decide) (OpSt.recon_sameButVars (d, r) w hplaced)
      fun n q _ hq => ?_
    have hraw : ∀ k ≤ 2, q.raw (dst + k) = qWord (OpSt.reconCurrent (d, r) w k) := fun k hk =>
      (hq _).trans (OpSt.recon_raw (d, r) w hplaced hk)
    refine ⟨?_, ?_, ?_⟩
    · exact (hraw _ hpa).trans (congrArg qWord (currentOf_fst ..))
    · exact (hraw _ hpb).trans (congrArg qWord (currentOf_snd _ _ hne))
    · exact (hraw _ (by omega)).trans (congrArg qWord (currentOf_third _ _ hne hpa hpb))
  case poise =>
    refine fun hat => Retires.of_runOp hat rfl rfl rfl (OpSt.poise_keeps (d, r) w) (by decide) (OpSt.poise_sameButVars (d, r) w)
      fun n q _ hq hstill => ?_
    exact (hq dst).trans (OpSt.poise_raw (d, r) w hstill)

end Sys2Proof.Machine
end

section
/-! The accesses to the memory banks (R287 to R299): rules of an access that is served, of the check of a word and of a write within a
word, what BANK_READ, BANK_WRITE and SCRUB_READ come down to, and obligation O31. -/

namespace Sys2Proof.Machine

/-! ### Registers and reports -/

/-- A count reads one more than before, up to its largest value. -/
theorem Dev.rd_bump (d : Dev) (f : Fd) (i : Nat) (h : f.lo + f.width ≤ 32) :
    (d.bump f i).rd f i = min (d.rd f i + 1) (2 ^ f.width - 1) := by
  have hpos : 0 < 2 ^ f.width := Nat.two_pow_pos _
  rw [Dev.bump, Dev.rd_wr _ _ _ _ h, Nat.mod_eq_of_lt (by omega)]

/-- A field of a register that was written as a whole. -/
theorem getBits_putBits_whole (w : Word) (v : Nat) {lo width : Nat} (h : lo + width ≤ 32) :
    getBits (putBits w 0 32 v) lo width = v / 2 ^ lo % 2 ^ width := by
  refine Nat.eq_of_testBit_eq fun i => ?_
  rw [getBits, BitVec.testBit_toNat, BitVec.getLsbD_extractLsb', getLsbD_putBits _ _ _ _ _ (by decide), Nat.testBit_mod_two_pow,
    Nat.testBit_div_two_pow]
  by_cases hi : i < width
  · rw [if_pos (by omega), Nat.sub_zero]
    simp [hi, Nat.add_comm]
  · simp [hi]

/-- The whole register of a field that an effect does not touch reads as before. -/
theorem Foot.Frame.word {w : Foot} {d e : Dev} (h : w.Frame d e) (f : Fd) (i : Nat) (hf : w.avoids f = true) (hlo : f.lo = 0)
    (hwidth : f.width = 32) : e.word (f.off i 0) = d.word (f.off i 0) := by
  have hrd := h.rd f i hf
  rw [Dev.rd, Dev.rd, Dev.rd2, Dev.rd2, hlo, hwidth, getBits, getBits, BitVec.extractLsb'_eq_self, BitVec.extractLsb'_eq_self] at hrd
  exact BitVec.eq_of_toNat_eq hrd

/-- A unit that is not fenced reports into an intake that has room. -/
theorem Dev.flt_report (d : Dev) {kind index : Nat} (cls code detail : Nat) (hf : d.fenced kind index = false)
    (hroom : d.flt.intake.length < 64) : (d.report kind index cls code detail).flt =
      { d.flt with
        intake := d.flt.intake ++ [{ kind := kind, index := index, cls := cls, code := code, detail := detail, time := d.time }] } := by
  simp [Dev.report, Dev.post, hf, hroom]

theorem Dev.mb_report (d : Dev) (kind index cls code detail sub : Nat) : (d.report kind index cls code detail sub).mb = d.mb :=
  (d.report_keeps kind index cls code detail sub).parts .mb (by decide)

/-! ### Bytes of bank space -/

theorem Dev.bankByte_setBankByte (d : Dev) (a : Nat) (v : Byte) (x : Nat) :
    (d.setBankByte a v).bankByte x = if x = a then v else d.bankByte x := Tbl.get_set ..

theorem Dev.bankByte_setBankBytes (d : Dev) (a n : Nat) (v : DWord) (x : Nat) :
    (d.setBankBytes a n v).bankByte x = if a ≤ x ∧ x < a + n then v.extractLsb' (8 * (x - a)) 8 else d.bankByte x := by
  induction n with
  | zero => rw [if_neg (by omega)]; rfl
  | succ n ih =>
    have hlast : d.setBankBytes a (n + 1) v = (d.setBankBytes a n v).setBankByte (a + n) (v.extractLsb' (8 * n) 8) := by
      simp [Dev.setBankBytes, Dev.each, List.range_succ]
    rw [hlast, Dev.bankByte_setBankByte, ih]
    by_cases hx : x = a + n
    · rw [if_pos hx, if_pos (by omega), hx, Nat.add_sub_cancel_left]
    · rw [if_neg hx]
      exact if_congr (by omega) rfl rfl

/-- A store of bytes changes the memory of the banks alone. -/
theorem Dev.setBankBytes_eq (d : Dev) (a n : Nat) (v : DWord) : ∃ mem, d.setBankBytes a n v = d.withMb { d.mb with mem := mem } :=
  List.foldlRecOn (motive := fun e => ∃ mem, e = d.withMb { d.mb with mem := mem }) _ _ ⟨d.mb.mem, rfl⟩ fun _ he i _ => by
    obtain ⟨_, rfl⟩ := he
    exact ⟨_, rfl⟩

@[simp] theorem Dev.bankFlips_setBankFlips_self (d : Dev) (a : Nat) (v : BitVec 39) : (d.setBankFlips a v).bankFlips a = v :=
  (Tbl.get_set ..).trans (if_pos rfl)

/-! ### An access is served (R290, R299) -/

section Reach

/-- A master's access is counted with its wait and served; what it does to the words comes after. -/
def Dev.reachBank (d : Dev) (m : BankMaster) (b wait : Nat) : Dev := (d.bankWait (masterIndex m) wait).bankServed m b

variable (d : Dev) (m : BankMaster) (b wait : Nat)

theorem Dev.reachBank_keeps : Keeps ⟨false, [F.MB_CONF_waits, F.MB_CONF_max_wait], [.mb]⟩ d (d.reachBank m b wait) :=
  (d.bankWait_keeps _ _).le.trans (Dev.bankServed_keeps ..).le

@[simp] theorem Dev.flt_reachBank : (d.reachBank m b wait).flt = d.flt := (d.reachBank_keeps m b wait).parts .flt (by decide)

@[simp] theorem Dev.time_reachBank : (d.reachBank m b wait).time = d.time := (d.reachBank_keeps m b wait).time

theorem Dev.mb_reachBank : ∃ last, (d.reachBank m b wait).mb = { d.mb with last := last } := by
  have hmb : (d.bankWait (masterIndex m) wait).mb = d.mb := (d.bankWait_keeps _ _).parts .mb (by decide)
  exact ⟨_, by rw [← hmb]; rfl⟩

@[simp] theorem Dev.fenced_reachBank (kind index : Nat) : (d.reachBank m b wait).fenced kind index = d.fenced kind index := by
  rw [Dev.fenced, Dev.flt_reachBank, Dev.fenced]

@[simp] theorem Dev.bankByte_reachBank (x : Nat) : (d.reachBank m b wait).bankByte x = d.bankByte x := by
  obtain ⟨_, h⟩ := d.mb_reachBank m b wait
  rw [Dev.bankByte, h, Dev.bankByte]

@[simp] theorem Dev.bankFlips_reachBank (x : Nat) : (d.reachBank m b wait).bankFlips x = d.bankFlips x := by
  obtain ⟨_, h⟩ := d.mb_reachBank m b wait
  rw [Dev.bankFlips, h, Dev.bankFlips]

@[simp] theorem Dev.owed_reachBank (o : BankMaster) : (d.reachBank m b wait).owed o = d.owed o := by
  obtain ⟨_, h⟩ := d.mb_reachBank m b wait
  rw [Dev.owed, h, Dev.owed]

@[simp] theorem Dev.issued_reachBank : (d.reachBank m b wait).mb.issued = d.mb.issued := by
  obtain ⟨_, h⟩ := d.mb_reachBank m b wait
  rw [h]

@[simp] theorem Dev.bankFinds_reachBank (a : Nat) (u : Upset) : (d.reachBank m b wait).bankFinds a u = d.bankFinds a u := by
  rw [Dev.bankFinds, Dev.bankFlips_reachBank, Dev.bankFinds]

@[simp] theorem Dev.bankReads_reachBank (a : Nat) (u : Upset) : (d.reachBank m b wait).bankReads a u = d.bankReads a u := by
  rw [Dev.bankReads, Dev.fenced_reachBank, Dev.bankFinds_reachBank, Dev.bankReads]

@[simp] theorem Dev.bankValue_reachBank (a n : Nat) : (d.reachBank m b wait).bankValue a n = d.bankValue a n := by
  simp only [Dev.bankValue, Dev.bankWord, Dev.bankByte_reachBank]

@[simp] theorem Dev.bankOwned_reachBank (i c : Nat) : (d.reachBank m b wait).bankOwned i c = d.bankOwned i c := by
  have h := d.reachBank_keeps m b wait
  rw [Dev.bankOwned, h.rd _ c (by decide), h.flag _ c (by decide), Dev.bankOwned]

/-- Is the wait of an access counted in the conflict counter of index i, if it waited at all? -/
def Dev.CountsWait (d n : Dev) (i wait : Nat) : Prop :=
  (wait = 0 → n.word (F.MB_CONF.off i 0) = d.word (F.MB_CONF.off i 0)) ∧
    (0 < wait → n.rd F.MB_CONF_waits i = min (d.rd F.MB_CONF_waits i + 1) (2 ^ F.MB_CONF_waits.width - 1) ∧
      n.rd F.MB_CONF_max_wait i = max (d.rd F.MB_CONF_max_wait i) (min wait 255))

theorem Dev.bankWait_counts (i : Nat) : d.CountsWait (d.bankWait i wait) i wait := by
  refine ⟨fun h => by rw [Dev.bankWait, if_pos h], fun h => ?_⟩
  have hmax : d.rd F.MB_CONF_max_wait i < 2 ^ 8 := getBits_lt ..
  rw [Dev.bankWait, if_neg (by omega), Dev.rd_wr_apart _ _ _ _ _ _ (by decide) (by decide), Dev.rd_bump _ _ _ (by decide),
    Dev.rd_wr _ _ _ _ (by decide)]
  exact ⟨rfl, Nat.mod_eq_of_lt (show _ < 2 ^ 8 by omega)⟩

end Reach

/-- The wait is counted where the conflict counter is left as it stands when the access reaches the bank. -/
theorem Dev.CountsWait.of_reachBank {d n : Dev} {m : BankMaster} {b wait : Nat}
    (h : n.word (F.MB_CONF.off (masterIndex m) 0) = (d.reachBank m b wait).word (F.MB_CONF.off (masterIndex m) 0)) :
    d.CountsWait n (masterIndex m) wait := by
  have hrd : ∀ f : Fd, f.off (masterIndex m) 0 = F.MB_CONF.off (masterIndex m) 0 →
      n.rd f (masterIndex m) = (d.bankWait (masterIndex m) wait).rd f (masterIndex m) := fun f hf => by
    rw [Dev.rd, Dev.rd, Dev.rd2, Dev.rd2, hf, h]
    rfl
  rw [Dev.CountsWait, h, hrd F.MB_CONF_waits rfl, hrd F.MB_CONF_max_wait rfl]
  exact d.bankWait_counts wait (masterIndex m)

/-! ### What a master is owed and answered (R293, R294, R298) -/

section Answers

variable (d : Dev) (m : BankMaster)

@[simp] theorem Dev.owed_setOwed_self (p : Option BankPart) : (d.setOwed m p).owed m = p := (Tbl.get_set ..).trans (if_pos rfl)

@[simp] theorem Dev.owed_answer (o : BankMaster) (x : BankAnswer) : (d.answer m x).owed o = d.owed o := rfl

@[simp] theorem Dev.bankAnswer_answer_self (x : BankAnswer) : (d.answer m x).bankAnswer m = some x := by
  simp [Dev.bankAnswer, Dev.answer]

@[simp] theorem Dev.owed_takeIssued (o : BankMaster) : (d.takeIssued m).owed o = d.owed o := by
  unfold Dev.takeIssued
  split <;> rfl

@[simp] theorem Dev.bankAnswer_takeIssued (o : BankMaster) : (d.takeIssued m).bankAnswer o = d.bankAnswer o := by
  unfold Dev.takeIssued
  split <;> rfl

end Answers

/-- Do two devices agree in their registers, their faults and the bytes and flips of their banks, so that they may differ in what masters
are owed, were answered and have issued? -/
structure Dev.AnswersApart (d n : Dev) : Prop where
  regs : n.regs = d.regs
  flt : n.flt = d.flt
  mem : n.mb.mem = d.mb.mem
  flips : n.mb.flips = d.mb.flips

theorem Dev.AnswersApart.word {d n : Dev} (h : d.AnswersApart n) (off : Nat) : n.word off = d.word off := by
  rw [Dev.word, h.regs, Dev.word]

theorem Dev.AnswersApart.rd {d n : Dev} (h : d.AnswersApart n) (f : Fd) (i : Nat) : n.rd f i = d.rd f i := by
  rw [Dev.rd, Dev.rd2, h.word, Dev.rd, Dev.rd2]

theorem Dev.AnswersApart.flag {d n : Dev} (h : d.AnswersApart n) (f : Fd) (i : Nat) : n.flag f i = d.flag f i := by
  rw [Dev.flag, h.rd, Dev.flag]

theorem Dev.AnswersApart.bankByte {d n : Dev} (h : d.AnswersApart n) (x : Nat) : n.bankByte x = d.bankByte x := by
  rw [Dev.bankByte, h.mem, Dev.bankByte]

theorem Dev.AnswersApart.bankFlips {d n : Dev} (h : d.AnswersApart n) (a : Nat) : n.bankFlips a = d.bankFlips a := by
  rw [Dev.bankFlips, h.flips, Dev.bankFlips]

/-! ### The check of a word (R294) -/

section Check

variable (d : Dev) (a : Nat) (u : Upset)

theorem Dev.bankCheck_of_fenced (hf : d.fenced Kind.bank (bankOf a) = true) : d.bankCheck a u = d := by
  rw [Dev.bankCheck, if_pos hf]

theorem Dev.bankCheck_of_ok (hf : d.fenced Kind.bank (bankOf a) = false) (h : d.bankFinds a u = .ok) :
    d.bankCheck a u = d.setBankFlips a 0 := by
  simp [Dev.bankCheck, hf, h]

theorem Dev.bankCheck_of_corrected (hf : d.fenced Kind.bank (bankOf a) = false) (h : d.bankFinds a u = .corrected) :
    d.bankCheck a u = (d.setBankFlips a 0).bump F.MB_BANK_STAT_ce_cnt (bankOf a) := by
  simp [Dev.bankCheck, hf, h]

/-- A word that cannot be corrected keeps its flips and is recorded. -/
def Dev.recordBad : Dev :=
  (((d.setBankFlips a (d.bankFlips a ^^^ u.flips)).put F.MB_BANK_STAT_ue (bankOf a) true).bump F.MB_BANK_STAT_ue_cnt (bankOf a)).wr
    F.MB_UE_ADDR (bankOf a) (bankWordOf a + 2 ^ 17 * b2n u.wrong)

theorem Dev.bankCheck_of_bad (hf : d.fenced Kind.bank (bankOf a) = false) (h : d.bankFinds a u = .double ∨ d.bankFinds a u = .address) :
    d.bankCheck a u =
      (d.recordBad a u).report Kind.bank (bankOf a) Cls.report (Code.ofFree Config.bankErrorCode) (bankWordOf a) := by
  rcases h with h | h <;> simp [Dev.bankCheck, hf, h, Dev.recordBad]

theorem Dev.mb_bankCheck : ∃ flips, (d.bankCheck a u).mb = { d.mb with flips := flips } := by
  rcases hf : d.fenced Kind.bank (bankOf a) with _ | _
  · rcases h : d.bankFinds a u with _ | _ | _ | _
    · rw [d.bankCheck_of_ok a u hf h]
      exact ⟨_, rfl⟩
    · rw [d.bankCheck_of_corrected a u hf h]
      exact ⟨_, rfl⟩
    · rw [d.bankCheck_of_bad a u hf (.inl h), Dev.mb_report]
      exact ⟨_, rfl⟩
    · rw [d.bankCheck_of_bad a u hf (.inr h), Dev.mb_report]
      exact ⟨_, rfl⟩
  · rw [d.bankCheck_of_fenced a u hf]
    exact ⟨_, rfl⟩

@[simp] theorem Dev.bankByte_bankCheck (x : Nat) : (d.bankCheck a u).bankByte x = d.bankByte x := by
  obtain ⟨_, h⟩ := d.mb_bankCheck a u
  rw [Dev.bankByte, h, Dev.bankByte]

/-- The check of a word that it finds right, and that of a word of a fenced bank, leave the bank's status. -/
theorem Dev.bankCheck_leaves_stat (h : d.bankFinds a u = .ok ∨ d.fenced Kind.bank (bankOf a) = true) (off : Nat) :
    (d.bankCheck a u).word off = d.word off := by
  rcases hf : d.fenced Kind.bank (bankOf a) with _ | _
  · rw [d.bankCheck_of_ok a u hf (h.resolve_right (by simp [hf]))]
    rfl
  · rw [d.bankCheck_of_fenced a u hf]

/-- A corrected word is written back and counted. -/
theorem Dev.bankCheck_corrects (hf : d.fenced Kind.bank (bankOf a) = false) (h : d.bankFinds a u = .corrected) :
    (d.bankCheck a u).bankFlips a = 0 ∧ (d.bankCheck a u).rd F.MB_BANK_STAT_ce_cnt (bankOf a) =
      min (d.rd F.MB_BANK_STAT_ce_cnt (bankOf a) + 1) (2 ^ F.MB_BANK_STAT_ce_cnt.width - 1) := by
  rw [d.bankCheck_of_corrected a u hf h]
  exact ⟨d.bankFlips_setBankFlips_self a 0, Dev.rd_bump _ _ _ (by decide)⟩

/-- An address error is found exactly where the access reached a wrong location. -/
theorem Dev.bankFinds_beq_address : (d.bankFinds a u == .address) = u.wrong := by
  rcases hw : u.wrong with _ | _
  · rw [Dev.bankFinds, hw, if_neg (by decide)]
    split <;> rfl
  · rw [Dev.bankFinds, hw]
    rfl

/-- A word that cannot be corrected is flagged, counted and recorded with its offset and kind. -/
theorem Dev.bankCheck_records (hf : d.fenced Kind.bank (bankOf a) = false) (h : d.bankFinds a u = .double ∨ d.bankFinds a u = .address) :
    (d.bankCheck a u).flag F.MB_BANK_STAT_ue (bankOf a) = true ∧
      (d.bankCheck a u).rd F.MB_BANK_STAT_ue_cnt (bankOf a) =
        min (d.rd F.MB_BANK_STAT_ue_cnt (bankOf a) + 1) (2 ^ F.MB_BANK_STAT_ue_cnt.width - 1) ∧
      (d.bankCheck a u).rd F.MB_UE_ADDR_word (bankOf a) = bankWordOf a ∧
      (d.bankCheck a u).flag F.MB_UE_ADDR_addr_fault (bankOf a) = (d.bankFinds a u == .address) := by
  have hreport := Dev.report_keeps (d.recordBad a u) Kind.bank (bankOf a) Cls.report (Code.ofFree Config.bankErrorCode) (bankWordOf a) 0
  have hword : bankWordOf a < 2 ^ 17 := by
    rw [bankWordOf]
    omega
  have haddr : ∀ f : Fd, f.off (bankOf a) 0 = F.MB_UE_ADDR.off (bankOf a) 0 → f.lo + f.width ≤ 32 →
      (d.recordBad a u).rd f (bankOf a) = (bankWordOf a + 2 ^ 17 * b2n u.wrong) / 2 ^ f.lo % 2 ^ f.width := fun f hoff hfits => by
    rw [Dev.rd, Dev.rd2, hoff, Dev.recordBad, Dev.wr, Dev.wr2, Dev.word_setWord, if_pos rfl]
    exact getBits_putBits_whole _ _ hfits
  rw [d.bankCheck_of_bad a u hf h, hreport.flag _ _ (by decide), hreport.rd _ _ (by decide), hreport.rd _ _ (by decide),
    hreport.flag _ _ (by decide)]
  refine ⟨?flag, ?count, ?offset, ?kind⟩
  case flag =>
    rw [Dev.flag, Dev.recordBad, Dev.rd_wr_apart _ _ _ _ _ _ (by decide) (by decide), Dev.bump,
      Dev.rd_wr_apart _ _ _ _ _ _ (by decide) (by decide)]
    exact Dev.flag_put _ _ _ _ (by decide) rfl
  case count =>
    rw [Dev.recordBad, Dev.rd_wr_apart _ _ _ _ _ _ (by decide) (by decide), Dev.rd_bump _ _ _ (by decide), Dev.put,
      Dev.rd_wr_apart _ _ _ _ _ _ (by decide) (by decide)]
    rfl
  case offset =>
    rw [haddr F.MB_UE_ADDR_word rfl (by decide)]
    show (bankWordOf a + 2 ^ 17 * b2n u.wrong) / 2 ^ 0 % 2 ^ 17 = bankWordOf a
    omega
  case kind =>
    rw [Dev.bankFinds_beq_address, Dev.flag, haddr F.MB_UE_ADDR_addr_fault rfl (by decide)]
    show ((bankWordOf a + 2 ^ 17 * b2n u.wrong) / 2 ^ 17 % 2 ^ 1 == 1) = u.wrong
    rw [Nat.add_mul_div_left _ _ (by decide), Nat.div_eq_of_lt hword]
    cases u.wrong <;> rfl

end Check

/-! ### A write within a word (R291, R292, R298) -/

section WritePart

variable (d : Dev) (i a n : Nat) (v : DWord) (u : Upset)

theorem Dev.bankWritePart_of_fenced (hf : d.fenced Kind.bank (bankOf a) = true) : d.bankWritePart i a n v u = d := by
  rw [Dev.bankWritePart, if_pos hf]

theorem Dev.bankWritePart_of_owner (hf : d.fenced Kind.bank (bankOf a) = false) (ho : d.bankOwned i (bankOf a) = true) :
    d.bankWritePart i a n v u = (if n = 4 then d.setBankFlips a 0 else d.bankCheck a u).setBankBytes a n v := by
  simp [Dev.bankWritePart, hf, ho]

theorem Dev.bankWritePart_of_nonowner (hf : d.fenced Kind.bank (bankOf a) = false) (ho : d.bankOwned i (bankOf a) = false) :
    d.bankWritePart i a n v u = d.bankRefuse i a := by
  simp [Dev.bankWritePart, hf, ho]

/-- A discarded write is flagged and counted. -/
def Dev.countRefused (b : Nat) : Dev := (d.put F.MB_BANK_STAT_nonowner_wr b true).bump F.MB_BANK_STAT_nonowner_cnt b

theorem Dev.bankRefuse_eq : d.bankRefuse i a =
    (d.countRefused (bankOf a)).report Kind.bank (bankOf a) Cls.report Code.NOT_OWNER (bankWordOf a + 2 ^ 24 * i) := rfl

theorem Dev.mb_bankRefuse : (d.bankRefuse i a).mb = d.mb := Dev.mb_report ..

/-- The device on which an owner's bytes are stored. -/
theorem Dev.mb_beforeStore : ∃ flips, (if n = 4 then d.setBankFlips a 0 else d.bankCheck a u).mb = { d.mb with flips := flips } := by
  split
  · exact ⟨_, rfl⟩
  · exact d.mb_bankCheck a u

theorem Dev.mb_bankWritePart : ∃ mem flips, (d.bankWritePart i a n v u).mb = { d.mb with mem := mem, flips := flips } := by
  rcases hf : d.fenced Kind.bank (bankOf a) with _ | _
  · rcases ho : d.bankOwned i (bankOf a) with _ | _
    · exact ⟨_, _, (congrArg Dev.mb (d.bankWritePart_of_nonowner i a n v u hf ho)).trans (d.mb_bankRefuse i a)⟩
    · obtain ⟨flips, hflips⟩ := d.mb_beforeStore a n u
      obtain ⟨mem, hmem⟩ := (if n = 4 then d.setBankFlips a 0 else d.bankCheck a u).setBankBytes_eq a n v
      rw [d.bankWritePart_of_owner i a n v u hf ho, hmem, Dev.withMb_mb, hflips]
      exact ⟨mem, flips, rfl⟩
  · exact ⟨_, _, congrArg Dev.mb (d.bankWritePart_of_fenced i a n v u hf)⟩

/-- A write within a word stores exactly its bytes, where the bank is not fenced and the master owns it. -/
theorem Dev.bankByte_bankWritePart (x : Nat) : (d.bankWritePart i a n v u).bankByte x =
    if a ≤ x ∧ x < a + n ∧ d.fenced Kind.bank (bankOf a) = false ∧ d.bankOwned i (bankOf a) = true then v.extractLsb' (8 * (x - a)) 8
    else d.bankByte x := by
  rcases hf : d.fenced Kind.bank (bankOf a) with _ | _
  · rcases ho : d.bankOwned i (bankOf a) with _ | _
    · rw [d.bankWritePart_of_nonowner i a n v u hf ho, Dev.bankByte, d.mb_bankRefuse i a]
      simp [Dev.bankByte]
    · obtain ⟨flips, hflips⟩ := d.mb_beforeStore a n u
      rw [d.bankWritePart_of_owner i a n v u hf ho, Dev.bankByte_setBankBytes, Dev.bankByte, hflips]
      simp [Dev.bankByte]
  · simp [d.bankWritePart_of_fenced i a n v u hf]

/-- A whole word that is written holds no flips. -/
theorem Dev.bankFlips_bankWritePart_whole (hf : d.fenced Kind.bank (bankOf a) = false) (ho : d.bankOwned i (bankOf a) = true) :
    (d.bankWritePart i a 4 v u).bankFlips a = 0 := by
  rw [d.bankWritePart_of_owner i a 4 v u hf ho, if_pos rfl]
  obtain ⟨_, hmem⟩ := (d.setBankFlips a 0).setBankBytes_eq a 4 v
  rw [hmem]
  exact d.bankFlips_setBankFlips_self a 0

/-- A discarded write is flagged, counted and reported. -/
theorem Dev.bankRefuse_records (hf : d.fenced Kind.bank (bankOf a) = false) :
    (d.bankRefuse i a).flag F.MB_BANK_STAT_nonowner_wr (bankOf a) = true ∧
      (d.bankRefuse i a).rd F.MB_BANK_STAT_nonowner_cnt (bankOf a) =
        min (d.rd F.MB_BANK_STAT_nonowner_cnt (bankOf a) + 1) (2 ^ F.MB_BANK_STAT_nonowner_cnt.width - 1) ∧
      (d.flt.intake.length < 64 → (d.bankRefuse i a).flt.intake = d.flt.intake ++
        [{ kind := Kind.bank, index := bankOf a, cls := Cls.report, code := Code.NOT_OWNER, detail := bankWordOf a + 2 ^ 24 * i,
           time := d.time }]) := by
  have hreport := (d.countRefused (bankOf a)).report_keeps Kind.bank (bankOf a) Cls.report Code.NOT_OWNER
    (bankWordOf a + 2 ^ 24 * i) 0
  rw [Dev.bankRefuse_eq, hreport.flag _ _ (by decide), hreport.rd _ _ (by decide)]
  refine ⟨?flag, ?count, fun hroom => congrArg Flt.intake ((d.countRefused (bankOf a)).flt_report _ _ _ hf hroom)⟩
  case flag =>
    rw [Dev.flag, Dev.countRefused, Dev.bump, Dev.rd_wr_apart _ _ _ _ _ _ (by decide) (by decide)]
    exact Dev.flag_put _ _ _ _ (by decide) rfl
  case count =>
    rw [Dev.countRefused, Dev.rd_bump _ _ _ (by decide), Dev.put, Dev.rd_wr_apart _ _ _ _ _ _ (by decide) (by decide)]

end WritePart

/-! ### A write access (R293, R298) -/

section Write

variable (d : Dev) (m : BankMaster) (a n : Nat) (v : Word) (u : Upset) (wait : Nat)

/-- The device after the part of a write that lies in the word of its first byte. -/
def Dev.afterWritePart : Dev :=
  (d.reachBank m (bankOf a) wait).bankWritePart (masterIndex m) a (firstPart a n) (v.setWidth 64) u

/-- What the last part of a write answers. -/
def Dev.writeSays : BankAnswer :=
  match d.owed m with
  | some p => if p.bad then .notOwner else d.writeAnswer m a
  | none => d.writeAnswer m a

theorem Dev.bankWrite_of_split (h : firstPart a n < n) : ∃ bad, d.bankWrite m a n v u wait =
    (d.afterWritePart m a n v u wait).setOwed m (some
      { addr := a + firstPart a n, bytes := n - firstPart a n, got := firstPart a n, bad := bad, write := true,
        data := v >>> (8 * firstPart a n) }) :=
  ⟨_, if_pos h⟩

theorem Dev.bankWrite_of_whole (h : firstPart a n = n) : d.bankWrite m a n v u wait =
    ((d.afterWritePart m a n v u wait).setOwed m none).answer m ((d.reachBank m (bankOf a) wait).writeSays m a) :=
  if_neg (by omega)

theorem Dev.bankWrite_apart : (d.afterWritePart m a n v u wait).AnswersApart ((d.bankWrite m a n v u wait).takeIssued m) := by
  have htake : ∀ e : Dev, (d.afterWritePart m a n v u wait).AnswersApart e →
      (d.afterWritePart m a n v u wait).AnswersApart (e.takeIssued m) := fun e he => by
    unfold Dev.takeIssued
    split
    · exact ⟨he.regs, he.flt, he.mem, he.flips⟩
    · exact he
  refine htake _ ?_
  rcases Nat.lt_or_ge (firstPart a n) n with h | h
  · obtain ⟨_, hsplit⟩ := d.bankWrite_of_split m a n v u wait h
    rw [hsplit]
    exact ⟨rfl, rfl, rfl, rfl⟩
  · rw [d.bankWrite_of_whole m a n v u wait (le_antisymm (min_le_left ..) h)]
    exact ⟨rfl, rfl, rfl, rfl⟩

theorem Dev.issued_afterWritePart : (d.afterWritePart m a n v u wait).mb.issued = d.mb.issued := by
  obtain ⟨_, _, h⟩ := (d.reachBank m (bankOf a) wait).mb_bankWritePart (masterIndex m) a (firstPart a n) (v.setWidth 64) u
  rw [Dev.afterWritePart, h, ← d.issued_reachBank m (bankOf a) wait]

theorem Dev.issued_bankWrite : (d.bankWrite m a n v u wait).mb.issued = d.mb.issued := by
  rw [← d.issued_afterWritePart m a n v u wait]
  rcases Nat.lt_or_ge (firstPart a n) n with h | h
  · obtain ⟨_, hsplit⟩ := d.bankWrite_of_split m a n v u wait h
    rw [hsplit]
    rfl
  · rw [d.bankWrite_of_whole m a n v u wait (le_antisymm (min_le_left ..) h)]
    rfl

theorem Dev.bankWrite_countsWait : d.CountsWait ((d.bankWrite m a n v u wait).takeIssued m) (masterIndex m) wait :=
  .of_reachBank (((d.bankWrite_apart m a n v u wait).word _).trans
    ((Dev.bankWritePart_keeps ..).word F.MB_CONF (masterIndex m) (by decide) rfl rfl))

/-- A write stores exactly the bytes of its part in banks that are not fenced and that the master owns. -/
theorem Dev.bankByte_bankWrite (hn : n ≤ 4) (x : Nat) : ((d.bankWrite m a n v u wait).takeIssued m).bankByte x =
    if a ≤ x ∧ x < a + firstPart a n ∧ d.fenced Kind.bank (bankOf a) = false ∧ d.bankOwned (masterIndex m) (bankOf a) = true then
      v.extractLsb' (8 * (x - a)) 8
    else d.bankByte x := by
  rw [(d.bankWrite_apart m a n v u wait).bankByte, Dev.afterWritePart, Dev.bankByte_bankWritePart, Dev.fenced_reachBank,
    Dev.bankOwned_reachBank, Dev.bankByte_reachBank]
  split
  next hx =>
    have hpart : firstPart a n ≤ 4 := (min_le_left ..).trans hn
    refine BitVec.eq_of_getLsbD_eq fun j hj => ?_
    rw [BitVec.getLsbD_extractLsb', BitVec.getLsbD_extractLsb', BitVec.getLsbD_setWidth]
    simp [show 8 * (x - a) + j < 64 by omega]
  next => rfl

theorem Dev.writeSays_of_served (ho : d.owed m = none) (hown : d.bankOwned (masterIndex m) (bankOf a) = true) :
    d.writeSays m a = .done := by
  rw [Dev.writeSays, ho]
  cases m <;> simp [Dev.writeAnswer, hown]

theorem Dev.writeSays_of_refused (hf : d.fenced Kind.bank (bankOf a) = false) (hown : d.bankOwned (masterIndex m) (bankOf a) = false)
    (hm : ∀ e, m ≠ .engine e) : d.writeSays m a = .notOwner := by
  have hsays : d.writeAnswer m a = .notOwner := by
    cases m
    case engine e => exact absurd rfl (hm e)
    all_goals simp [Dev.writeAnswer, hf, hown]
  rw [Dev.writeSays, hsays]
  split <;> simp

end Write

/-! ### A read access (R293, R294) -/

section Read

variable (d : Dev) (m : BankMaster) (a n : Nat) (u : Upset) (wait : Nat)

theorem Dev.bankRead_of_split (h : firstPart a n < n) : ∃ got bad data, d.bankRead m a n u wait =
    ((d.reachBank m (bankOf a) wait).bankCheck a u).setOwed m (some
      { addr := a + firstPart a n, bytes := n - firstPart a n, got := got, bad := bad, write := false, data := data }) :=
  ⟨_, _, _, if_pos h⟩

theorem Dev.bankRead_of_last (h : firstPart a n = n) : ∃ x, d.bankRead m a n u wait =
    (((d.reachBank m (bankOf a) wait).bankCheck a u).setOwed m none).answer m x :=
  ⟨_, if_neg (by omega)⟩

/-- A read that lies in one word answers the word, or that it could not be read. -/
theorem Dev.bankRead_of_whole (h : firstPart a n = n) (ho : d.owed m = none) : d.bankRead m a n u wait =
    (((d.reachBank m (bankOf a) wait).bankCheck a u).setOwed m none).answer m (readAnswer m (d.bankReads a u) (d.bankValue a n)) := by
  have howed : ((d.bankWait (masterIndex m) wait).bankServed m (bankOf a)).owed m = none := (d.owed_reachBank ..).trans ho
  have hreads : ((d.bankWait (masterIndex m) wait).bankServed m (bankOf a)).bankReads a u = d.bankReads a u := d.bankReads_reachBank ..
  have hvalue : ((d.bankWait (masterIndex m) wait).bankServed m (bankOf a)).bankValue a n = d.bankValue a n := d.bankValue_reachBank ..
  simp [Dev.bankRead, h, howed, hreads, hvalue, Dev.reachBank]

theorem Dev.bankRead_apart : ((d.reachBank m (bankOf a) wait).bankCheck a u).AnswersApart (d.bankRead m a n u wait) := by
  rcases Nat.lt_or_ge (firstPart a n) n with h | h
  · obtain ⟨_, _, _, hsplit⟩ := d.bankRead_of_split m a n u wait h
    rw [hsplit]
    exact ⟨rfl, rfl, rfl, rfl⟩
  · obtain ⟨_, hlast⟩ := d.bankRead_of_last m a n u wait (le_antisymm (min_le_left ..) h)
    rw [hlast]
    exact ⟨rfl, rfl, rfl, rfl⟩

theorem Dev.bankRead_countsWait : d.CountsWait (d.bankRead m a n u wait) (masterIndex m) wait :=
  .of_reachBank (((d.bankRead_apart m a n u wait).word _).trans
    ((Dev.bankCheck_keeps ..).word F.MB_CONF (masterIndex m) (by decide) rfl rfl))

theorem Dev.bankByte_bankRead (x : Nat) : (d.bankRead m a n u wait).bankByte x = d.bankByte x := by
  rw [(d.bankRead_apart m a n u wait).bankByte, Dev.bankByte_bankCheck, Dev.bankByte_reachBank]

end Read

/-! ### The turn of an access (R290) -/

/-- An access is not at its turn while one waits that is before it: on port A where it is on port B, or on its own port at a shorter way
from the one served last. -/
theorem Dev.not_mayAccess_of_before (d : Dev) {m o : BankMaster} {others : List BankMaster} (a n : Nat) (write : Bool) (v : Word)
    (ho : o ∈ others)
    (hbefore : d.onPortA o (bankOf a) = true ∧ d.onPortA m (bankOf a) = false ∨ d.onPortA o (bankOf a) = d.onPortA m (bankOf a) ∧
      (let l := if d.onPortA m (bankOf a) then (d.lastServed (bankOf a)).1 else (d.lastServed (bankOf a)).2
       turnsAway l (masterIndex o) < turnsAway l (masterIndex m))) : d.mayAccess m a n write v others = false := by
  have hturn : d.itsTurn m (bankOf a) others = false := by
    refine List.all_eq_false.mpr ⟨o, ho, ?_⟩
    rcases hbefore with ⟨hA, hB⟩ | ⟨hsame, hcloser⟩
    · simp [hA, hB]
    · simpa [hsame] using hcloser
  rw [Dev.mayAccess, hturn, Bool.false_and]

/-! ### What the commands come down to -/

section Commands

variable {s : State} {t a n wait : Nat} {m : BankMaster} {others : List BankMaster} {u : Upset} {P : Dev → Prop}

/-- A BANK_WRITE at its turn, of a master whose stores leave and that has issued it, is the write access. -/
theorem does_bankWrite {v : Word} (hacc : (s.now t).mayAccess m a n true v others = true) (hleave : (s.now t).storesLeave m = true)
    (hissued : (s.now t).hasIssued m a n v = true) (h : P (((s.now t).bankWrite m a n v u wait).takeIssued m)) :
    Does s (.bankWrite t m a n v ⟨⟨u, others⟩, wait⟩) P :=
  Does.of_effect (show exec _ s = execBankWrite t m a n v ⟨⟨u, others⟩, wait⟩ s from rfl)
    (by simpa only [hacc, hleave, hissued, Bool.and_self, if_true] using h)

theorem does_bankWrite_of_wait {v : Word} (hacc : (s.now t).mayAccess m a n true v others = false) (h : P (s.now t)) :
    Does s (.bankWrite t m a n v ⟨⟨u, others⟩, wait⟩) P :=
  Does.of_effect (show exec _ s = execBankWrite t m a n v ⟨⟨u, others⟩, wait⟩ s from rfl) (by simpa [hacc] using h)

/-- A BANK_READ at its turn, of a master other than the copies, is the read access. -/
theorem does_bankRead {pending : List ScStore} (hA : m ≠ .copyA) (hB : m ≠ .copyB)
    (hacc : (s.now t).mayAccess m a n false 0 others = true) (h : P ((s.now t).bankRead m a n u wait)) :
    Does s (.bankRead t m a n ⟨⟨u, others⟩, wait⟩ pending) P := by
  refine Does.of_effect (show exec _ s = execBankRead t m a n ⟨⟨u, others⟩, wait⟩ pending s from rfl) ?_
  have hreads : (!(s.now t).mayAccess m a n false 0 others) = false := by rw [hacc]; rfl
  cases m
  case copyA => exact absurd rfl hA
  case copyB => exact absurd rfl hB
  all_goals simpa only [hreads, Bool.false_eq_true, if_false] using h

theorem does_bankRead_of_wait {pending : List ScStore} (hacc : (s.now t).mayAccess m a n false 0 others = false) (h : P (s.now t)) :
    Does s (.bankRead t m a n ⟨⟨u, others⟩, wait⟩ pending) P :=
  Does.of_effect (show exec _ s = execBankRead t m a n ⟨⟨u, others⟩, wait⟩ pending s from rfl)
    (by simpa only [hacc, Bool.not_false, if_true] using h)

/-- A BANK_READ of a copy at its turn, where its window lets it load, is the copy's read. -/
theorem does_copyRead {pending : List ScStore} {c : Bool} (hm : m = if c then .copyA else .copyB)
    (hacc : (s.now t).mayAccess m a n false 0 others = true) (hload : (s.now t).mayLoad c ((s.now t).pendingOf c pending) = true)
    (h : P ((s.now t).copyRead c a n u wait ((s.now t).pendingOf c pending))) :
    Does s (.bankRead t m a n ⟨⟨u, others⟩, wait⟩ pending) P := by
  refine Does.of_effect (show exec _ s = execBankRead t m a n ⟨⟨u, others⟩, wait⟩ pending s from rfl) ?_
  cases c
  case false =>
    obtain rfl : m = .copyB := hm
    simpa only [hacc, hload, Bool.not_true, Bool.false_eq_true, if_false, if_true] using h
  case true =>
    obtain rfl : m = .copyA := hm
    simpa only [hacc, hload, Bool.not_true, Bool.false_eq_true, if_false, if_true] using h

/-- What a scrub read does that is due. -/
def Dev.scrubWord (d : Dev) (b w : Nat) (u : Upset) : Dev :=
  (d.bankCheck (b * 0x80000 + 4 * w) u).pipe fun d =>
    d.withMb { d.mb with scrub := Tbl.set (fun _ => 0) d.mb.scrub b ((w + 1) % 0x20000),
                         scrubAt := Tbl.set (fun _ => 0) d.mb.scrubAt b d.time }

theorem does_scrubRead {q : Fin 16} (hon : (s.now t).flag F.MB_SCRUB_enable 0 = true) (hf : (s.now t).fenced Kind.bank q = false)
    (hdue : Tbl.get (fun _ => 0) (s.now t).mb.scrubAt q + 800 * (s.now t).rd F.MB_SCRUB_interval 0 ≤ (s.now t).time)
    (h : P ((s.now t).scrubWord q (Tbl.get (fun _ => 0) (s.now t).mb.scrub q) u)) : Does s (.scrubRead t q ⟨u, []⟩) P :=
  Does.of_effect (show exec _ s = execScrubRead t q ⟨u, []⟩ s from rfl)
    (by simpa only [hon, hf, Nat.ble_eq_true_of_le hdue, List.isEmpty_nil, Bool.not_false, Bool.and_self, if_true, Dev.scrubWord] using h)

end Commands

/-! ### A read of a copy of the safety controller (R264, R269, R275) -/

section Copy

variable (d : Dev) (c : Bool) (x n : Nat) (u : Upset) (wait : Nat) (stores : List ScStore)

@[simp] theorem Dev.copy_setCopy_self (v : ScCopy) : (d.setCopy c v).copy c = v := by
  cases c <;> rfl

theorem Dev.copy_loaded (l : ScLoad) (v : Option Word) : (d.loaded c l v).copy c =
    { d.copy c with loads := (d.copy c).loads ++ [(l, v.map (forwarded (d.copy c).delay l))] } := d.copy_setCopy_self c _

@[simp] theorem Dev.copy_answer (m : BankMaster) (x : BankAnswer) : (d.answer m x).copy c = d.copy c := rfl

@[simp] theorem Dev.bankAnswer_loaded (l : ScLoad) (v : Option Word) (m : BankMaster) :
    (d.loaded c l v).bankAnswer m = d.bankAnswer m := rfl

/-- The device after the access of a copy, of which the copy has not taken the answer yet. -/
def Dev.copyAccess (m : BankMaster) : Dev := (d.holdStores c stores).bankRead m x n u wait

theorem Dev.copy_copyAccess (m : BankMaster) : (d.copyAccess c x n u wait stores m).copy c = { d.copy c with delay := stores } := by
  have hsc : (d.copyAccess c x n u wait stores m).sc = (d.holdStores c stores).sc := (Dev.bankRead_keeps ..).parts .sc (by decide)
  rw [Dev.copy, hsc]
  exact d.copy_setCopy_self c _

theorem Dev.scBank_copyAccess (m : BankMaster) (b : Nat) : (d.copyAccess c x n u wait stores m).scBank b = d.scBank b := by
  rw [Dev.scBank, Dev.copyAccess, (Dev.bankRead_keeps ..).rd _ _ (by decide)]
  rfl

variable {d x n}

/-- The access of a copy that lies in one word: it owes nothing, and has its answer. -/
theorem Dev.copyAccess_answers {m : BankMaster} (h : firstPart x n = n) (ho : d.owed m = none) :
    (d.copyAccess c x n u wait stores m).owed m = none ∧
      (d.copyAccess c x n u wait stores m).bankAnswer m = some (readAnswer m (d.bankReads x u) (d.bankValue x n)) := by
  rw [Dev.copyAccess, (d.holdStores c stores).bankRead_of_whole m x n u wait h ho]
  exact ⟨by simp, Dev.bankAnswer_answer_self ..⟩

theorem Dev.copyRead_of_good {m : BankMaster} (hm : m = if c then .copyA else .copyB) (h : firstPart x n = n) (ho : d.owed m = none)
    (hreads : d.bankReads x u = true) (hown : d.scBank (bankOf x) = true) :
    let l : ScLoad := { place := .bank (BitVec.ofNat 23 x), bytes := n }
    d.copyRead c x n u wait stores = ((d.copyAccess c x n u wait stores m).loaded c l (some (d.bankValue x n))).answer m
      (.word (forwarded stores l (d.bankValue x n))) := by
  obtain ⟨howed, hanswer⟩ := Dev.copyAccess_answers c u wait stores h ho
  have hbank := (d.scBank_copyAccess c x n u wait stores m (bankOf x)).trans hown
  rw [Dev.copyAccess] at howed hanswer hbank
  subst hm
  simp [Dev.copyRead, Dev.copyAccess, ho, howed, hanswer, hbank, hreads, readAnswer]

theorem Dev.copyRead_of_bad {m : BankMaster} (hm : m = if c then .copyA else .copyB) (h : firstPart x n = n) (ho : d.owed m = none)
    (hreads : d.bankReads x u = false) : d.copyRead c x n u wait stores =
      (d.copyAccess c x n u wait stores m).loaded c { place := .bank (BitVec.ofNat 23 x), bytes := n } none := by
  obtain ⟨howed, hanswer⟩ := Dev.copyAccess_answers c u wait stores h ho
  have hexception : readAnswer m false (d.bankValue x n) = .exception := by
    rw [hm]
    cases c <;> rfl
  rw [hreads, hexception] at hanswer
  rw [Dev.copyAccess] at howed hanswer
  subst hm
  simp [Dev.copyRead, Dev.copyAccess, ho, howed, hanswer]

end Copy

/-! ### The accesses together -/

theorem bankOf_scrubbed (q : Fin 16) {w : Nat} (hw : w < 0x20000) : bankOf (q * 0x80000 + 4 * w) = q := by
  have hq := q.isLt
  rw [bankOf]
  omega

theorem bankWordOf_scrubbed (q : Nat) {w : Nat} (hw : w < 0x20000) : bankWordOf (q * 0x80000 + 4 * w) = w := by
  rw [bankWordOf]
  omega

/-- Settles O31: an access counts its wait, is served, and then checks its word or writes its part; each clause is a rule of one of these. -/
theorem bankAccesses : Obligations.BankAccesses := by
  unfold Obligations.BankAccesses
  intro s t m a size wait others u d b i k _ hsize _
  refine ⟨?write, ?read, ?copy, ?turn, ?scrub⟩
  case write =>
    intro v hacc hleave hissued
    have hapart := d.bankWrite_apart m a size v u wait
    obtain ⟨hstill, hwaited⟩ := d.bankWrite_countsWait m a size v u wait
    refine does_bankWrite hacc hleave hissued ⟨?issued, d.bankByte_bankWrite m a size v u wait hsize, ?split, ?whole, hstill, hwaited,
      ?flips, ?refused⟩
    case issued =>
      intro hm
      rw [Dev.takeIssued, if_pos hm]
      exact congrArg (List.drop 1) (d.issued_bankWrite m a size v u wait)
    case split =>
      intro hk
      obtain ⟨_, hsplit⟩ := d.bankWrite_of_split m a size v u wait hk
      rw [hsplit, Dev.owed_takeIssued, Dev.owed_setOwed_self]
      exact ⟨_, rfl, rfl, rfl, rfl, rfl⟩
    case whole =>
      intro hk
      rw [d.bankWrite_of_whole m a size v u wait hk, Dev.owed_takeIssued, Dev.owed_answer, Dev.owed_setOwed_self,
        Dev.bankAnswer_takeIssued, Dev.bankAnswer_answer_self]
      exact ⟨rfl, fun _ hown ho => congrArg some (Dev.writeSays_of_served _ m a (by simpa using ho) (by simpa using hown))⟩
    case flips =>
      rintro rfl ha hf hown
      have hk : firstPart a 4 = 4 := by simp [firstPart, ha]
      rw [hapart.bankFlips, Dev.afterWritePart, hk]
      exact Dev.bankFlips_bankWritePart_whole _ _ a _ u (by simpa using hf) (by simpa using hown)
    case refused =>
      intro hf hown hroom
      obtain ⟨hflag, hcount, hreport⟩ := (d.reachBank m b wait).bankRefuse_records i a (by simpa using hf)
      have hafter : d.afterWritePart m a size v u wait = (d.reachBank m b wait).bankRefuse i a :=
        Dev.bankWritePart_of_nonowner _ _ _ _ _ _ (by simpa using hf) (by simpa using hown)
      rw [hafter] at hapart
      rw [hapart.flag, hapart.rd, hapart.flt, hflag, hcount, hreport (by simpa using hroom),
        (d.reachBank_keeps m b wait).rd _ _ (by decide), Dev.flt_reachBank, Dev.time_reachBank]
      refine ⟨rfl, rfl, rfl, fun hk hm => ?_⟩
      rw [d.bankWrite_of_whole m a size v u wait hk, Dev.bankAnswer_takeIssued, Dev.bankAnswer_answer_self]
      exact congrArg some (Dev.writeSays_of_refused _ m a (by simpa using hf) (by simpa using hown) hm)
  case read =>
    intro hA hB hacc pending
    have hapart := d.bankRead_apart m a size u wait
    have hreach := d.reachBank_keeps m b wait
    obtain ⟨hstill, hwaited⟩ := d.bankRead_countsWait m a size u wait
    refine does_bankRead hA hB hacc ⟨d.bankByte_bankRead m a size u wait, hstill, hwaited, ?clean, ?corrected, ?bad, ?split, ?whole⟩
    case clean =>
      intro h
      rw [hapart.word, Dev.bankCheck_leaves_stat _ a u (by simpa using h)]
      exact hreach.word F.MB_BANK_STAT b (by decide) rfl rfl
    case corrected =>
      intro h hf
      obtain ⟨hflips, hcount⟩ := (d.reachBank m b wait).bankCheck_corrects a u (by simpa using hf) (by simpa using h)
      rw [hapart.bankFlips, hapart.rd, hcount, hreach.rd _ _ (by decide)]
      exact ⟨hflips, rfl⟩
    case bad =>
      intro h hf
      obtain ⟨hflag, hcount, hword, hkind⟩ := (d.reachBank m b wait).bankCheck_records a u (by simpa using hf) (by simpa using h)
      rw [hapart.flag, hapart.rd, hapart.rd, hapart.flag, hcount, hreach.rd _ _ (by decide)]
      exact ⟨hflag, rfl, hword, by rw [hkind, Dev.bankFinds_reachBank]⟩
    case split =>
      intro hk
      obtain ⟨_, _, _, hsplit⟩ := d.bankRead_of_split m a size u wait hk
      rw [hsplit, Dev.owed_setOwed_self]
      exact ⟨_, rfl, rfl, rfl, rfl⟩
    case whole =>
      intro hk ho
      rw [d.bankRead_of_whole m a size u wait hk ho, Dev.owed_answer, Dev.owed_setOwed_self, Dev.bankAnswer_answer_self]
      refine ⟨rfl, fun hreads => by rw [hreads]; rfl, fun hreads => ?_⟩
      rw [hreads]
      cases m
      case copyA => exact absurd rfl hA
      case copyB => exact absurd rfl hB
      all_goals rfl
  case copy =>
    intro c hm hacc hk ho pending stores l hload
    refine does_copyRead hm hacc hload ⟨fun hreads hown => ?good, fun hreads => ?bad⟩
    case good =>
      rw [Dev.copyRead_of_good c u wait stores hm hk ho hreads hown, Dev.bankAnswer_answer_self, Dev.copy_answer, Dev.copy_loaded,
        Dev.copy_copyAccess]
      exact ⟨rfl, rfl, rfl⟩
    case bad =>
      have hanswer := (Dev.copyAccess_answers c u wait stores hk ho).2
      rw [Dev.copyRead_of_bad c u wait stores hm hk ho hreads, Dev.bankAnswer_loaded, Dev.copy_loaded, Dev.copy_copyAccess, hanswer,
        hreads, hm]
      exact ⟨by cases c <;> rfl, rfl⟩
  case turn =>
    intro o ho hbefore
    have hwaits : ∀ write v, d.mayAccess m a size write v others = false := fun write v =>
      d.not_mayAccess_of_before a size write v ho hbefore
    exact ⟨fun _ => does_bankRead_of_wait (hwaits _ _) ⟨rfl, rfl⟩, fun _ => does_bankWrite_of_wait (hwaits _ _) ⟨rfl, rfl⟩⟩
  case scrub =>
    intro q w e hon hf hdue hw
    have hbank := bankOf_scrubbed q hw
    have hword := bankWordOf_scrubbed q hw
    have hlive : d.fenced Kind.bank (bankOf (q * 0x80000 + 4 * w)) = false := hbank.symm ▸ hf
    refine does_scrubRead hon hf hdue ⟨d.bankByte_bankCheck _ u, (Tbl.get_set ..).trans (if_pos rfl), fun h => ?corrected, fun h => ?bad⟩
    case corrected =>
      have hcorrects := d.bankCheck_corrects (q * 0x80000 + 4 * w) u hlive h
      rwa [hbank] at hcorrects
    case bad =>
      obtain ⟨hflag, -, hoff, -⟩ := d.bankCheck_records (q * 0x80000 + 4 * w) u hlive (.inl h)
      rw [hbank] at hflag hoff
      exact ⟨hflag, hoff.trans hword⟩

end Sys2Proof.Machine
end

section
/-! Privileged requests on QP0 (chapter 16): rules of a descriptor that starts, is served and ends, of the checks before a privileged one,
and of the counters and enrolled keys; obligation O58. -/

namespace Sys2Proof.Machine

/-! ### Items of a queue pair -/

theorem find?_onFirst {p : Item → Bool} {f : Item → Item} {l : List Item} {it : Item} (h : l.find? p = some it) (hf : p (f it) = true) :
    (onFirst p f l).find? p = some (f it) := by
  induction l with
  | nil => cases h
  | cons a r ih =>
    rw [List.find?_cons] at h
    cases hp : p a with
    | true =>
      obtain rfl : a = it := by simpa [hp] using h
      simp [onFirst, hp, hf]
    | false =>
      simp only [hp] at h
      simp [onFirst, hp, ih h]

theorem QpT.index_of_item {v : QpT} {i : Nat} {it : Item} (h : v.item i = some it) : it.index = i := by
  simpa using List.find?_some h

theorem Dev.qp_congr {d e : Dev} (h : e.hi = d.hi) (q : Nat) : e.qp q = d.qp q := by rw [Dev.qp, Dev.qp, h]

theorem Dev.qp_onItem (d : Dev) (q i : Nat) (f : Item → Item) :
    (d.onItem q i f).qp q = { d.qp q with items := onFirst (fun it => it.index == i) f (d.qp q).items } := by
  simp [Dev.onItem, Dev.qp, Dev.setQp]

theorem Dev.item_onItem {d : Dev} {q i : Nat} {f : Item → Item} {it : Item} (h : (d.qp q).item i = some it)
    (hf : (f it).index = it.index) : ((d.onItem q i f).qp q).item i = some (f it) := by
  rw [Dev.qp_onItem]
  exact find?_onFirst h (by simpa [hf] using QpT.index_of_item h)

@[simp] theorem Dev.hi_showQp (d : Dev) (q : Nat) : (d.showQp q).hi = d.hi := (d.showQp_keeps q).parts .hi (by decide)

theorem Dev.drainItems_of_ring {d : Dev} {q : Nat} (h : (d.qp q).silent = false) : d.drainItems q = d.showQp q := by
  simp [Dev.drainItems, h]

/-! ### A descriptor starts and ends (R307, R317) -/

/-- The descriptor at ring index i of queue pair q has not ended, and the completion ring can be written. -/
def Dev.underWay (d : Dev) (q i : Nat) : Prop :=
  ∃ it, (d.qp q).item i = some it ∧ it.hasEnded = false ∧ (d.qp q).silent = false

/-- The device in which a descriptor that starts is carried out. -/
def Dev.started (d : Dev) (q i : Nat) : Dev := (d.onItem q i fun it => { it with phase := .started }).showQp q

theorem Dev.started_keeps (d : Dev) (q i : Nat) :
    Keeps ⟨false, [F.HI_QP_CTRL_draining, F.HI_QP_FLAGS_in_flight], [.hi]⟩ d (d.started q i) :=
  (Dev.onItem_keeps ..).le.trans (Dev.showQp_keeps ..).le

theorem Dev.startItem_of_standing {d : Dev} {q i op : Nat} {ph : Phase} {x : Descr} {f : Dev → Descr → Dev} (h : d.standing q i ph x)
    (hop : x.opcode = op) (hw : d.windowCheck x = none) : d.startItem q i op ph f = f (d.started q i) x := by
  obtain ⟨it, hit, hdesc, hphase, hturn, -⟩ := h
  simp only [Dev.startItem, hit, hdesc, hw]
  exact if_pos ⟨hphase, hop, hturn⟩

theorem Dev.underWay_started {d : Dev} {q i : Nat} {ph : Phase} {x : Descr} (h : d.standing q i ph x) : (d.started q i).underWay q i := by
  obtain ⟨it, hit, -, -, -, hring⟩ := h
  rw [Dev.underWay, Dev.started, Dev.qp_congr (Dev.hi_showQp _ q) q]
  exact ⟨_, Dev.item_onItem hit rfl, rfl, by rw [Dev.qp_onItem]; exact hring⟩

theorem Dev.underWay_congr {d e : Dev} {q i : Nat} (hqp : e.qp q = d.qp q) (h : d.underWay q i) : e.underWay q i := by
  rwa [Dev.underWay, hqp]

theorem Dev.finish_ends {d : Dev} {q i : Nat} (h : d.underWay q i) (st : Nat) (partly : Bool) (detail : Nat) :
    (d.finish q i st partly detail).endedWith q i st := by
  obtain ⟨it, hit, hlive, hring⟩ := h
  have hcompletes : ∀ e : Dev, e.hi = (d.onItem q i fun it => { it with phase := .ended st partly (BitVec.ofNat 32 detail) }).hi →
      (e.drainItems q).endedWith q i st := by
    intro e he
    have hqp := Dev.qp_congr he q
    have hopen : (e.qp q).silent = false := by rw [hqp, Dev.qp_onItem]; exact hring
    rw [Dev.drainItems_of_ring hopen, Dev.endedWith, Dev.qp_congr (Dev.hi_showQp e q) q, hqp]
    exact ⟨_, partly, _, Dev.item_onItem hit rfl, rfl⟩
  simp only [Dev.finish, hit, hlive]
  cases it.desc with
  | none => exact hcompletes _ rfl
  | some x =>
    refine hcompletes _ ?_
    dsimp only
    split
    · exact (Dev.dropFrame_keeps ..).parts .hi (by decide)
    · exact (Dev.noteLast_keeps ..).parts .hi (by decide)

/-! ### A management descriptor is served (R358) -/

/-- Descriptor x at ring index i of QP0 may be served now: it stands and may start, its target is not fenced, no frame waits on the service
UART, and its host range lies in a window. -/
structure Dev.MayServe (d : Dev) (i : Nat) (x : Descr) : Prop where
  stands : d.standing 0 i .received x
  live : d.targetFenced 0 x = false
  alone : d.sec.uartIn = []
  window : d.windowCheck x = none

theorem Dev.targetFenced_started (d : Dev) (q i p : Nat) (x : Descr) : (d.started q i).targetFenced p x = d.targetFenced p x := by
  have hk := d.started_keeps q i
  have hflt : (d.started q i).flt = d.flt := hk.parts .flt (by decide)
  simp only [Dev.targetFenced, Dev.fenced, hflt, hk.rd F.FL_CFG_controller _ (by decide), hk.rd F.IMS_STAT_state _ (by decide)]

/-- Where no frame waits on the UART, its turn changes nothing. -/
theorem Dev.uartTurn_of_idle {d : Dev} (h : d.sec.uartIn = []) : d.uartTurn = d := by
  rw [Dev.uartTurn, h, Dev.serveUart, Dev.onSec, ← h]
  rfl

/-- A management descriptor that may start ends with the status of its serving, and what Imset holds is what the serving leaves. -/
theorem Dev.manage_ends {d : Dev} {i op : Nat} {x : Descr} {f : Dev → Descr → Served} (h : d.MayServe i x) (hop : x.opcode = op)
    (hhi : (f (d.started 0 i) x).dev.hi = (d.started 0 i).hi) (hafter : (f (d.started 0 i) x).dev.sec.uartIn = []) :
    (d.manage i op f).endedWith 0 i (f (d.started 0 i) x).st ∧ (d.manage i op f).sec = (f (d.started 0 i) x).dev.sec := by
  rw [Dev.manage, Dev.uartTurn_of_idle h.alone, Dev.startItem_of_standing h.stands hop h.window, Dev.targetFenced_started, h.live]
  generalize f (d.started 0 i) x = r at hhi hafter ⊢
  have hready : r.dev.underWay 0 i := Dev.underWay_congr (Dev.qp_congr hhi 0) (Dev.underWay_started h.stands)
  have hends : ∀ e : Dev, e.qp 0 = r.dev.qp 0 → e.sec = r.dev.sec →
      ((e.finish 0 i r.st false r.detail).uartTurn).endedWith 0 i r.st ∧
        ((e.finish 0 i r.st false r.detail).uartTurn).sec = r.dev.sec := by
    intro e hqp hsec
    have hfin : (e.finish 0 i r.st false r.detail).sec = r.dev.sec := ((Dev.finish_keeps ..).parts .sec (by decide)).trans hsec
    rw [Dev.uartTurn_of_idle (hfin ▸ hafter)]
    exact ⟨Dev.finish_ends (Dev.underWay_congr hqp hready) _ _ _, hfin⟩
  simp only [Bool.false_eq_true, if_false]
  split
  · exact hends _ rfl rfl
  · exact hends _ rfl rfl

/-! ### Sessions and authorisation (R356, R357) -/

theorem Dev.sec_setSession (d : Dev) (uart : Bool) (v : Option Session) : (d.setSession uart v).sec =
    if uart then { d.sec with uartSession := v } else { d.sec with qpSession := v } :=
  (Dev.showSec_keeps _).parts .sec (by decide)

theorem Dev.counter_setSession (d : Dev) (uart : Bool) (v : Option Session) (k : Nat) :
    (d.setSession uart v).counter k = d.counter k := by
  rw [Dev.counter, Dev.sec_setSession]
  cases uart <;> rfl

theorem Dev.uartIn_setSession (d : Dev) (uart : Bool) (v : Option Session) : (d.setSession uart v).sec.uartIn = d.sec.uartIn := by
  rw [Dev.sec_setSession]
  cases uart <;> rfl

theorem Dev.authorise_started (d : Dev) (q i : Nat) (uart : Bool) (x : Descr) (buf : List Byte) :
    (d.started q i).authorise uart x buf = d.authorise uart x buf := by
  have hk := d.started_keeps q i
  have hflt : (d.started q i).flt = d.flt := hk.parts .flt (by decide)
  have hsec : (d.started q i).sec = d.sec := hk.parts .sec (by decide)
  have hfenced : (d.started q i).fenced Kind.crypto 0 = d.fenced Kind.crypto 0 := by rw [Dev.fenced, Dev.fenced, hflt]
  have hlive : (d.started q i).liveSession uart = d.liveSession uart := by
    simp only [Dev.liveSession, Dev.session, hsec, hk.time]
  rw [Dev.authorise, Dev.authorise, hfenced, hlive]

theorem Dev.session_of_authorised {d : Dev} {uart : Bool} {x : Descr} {buf : List Byte} (h : d.authorise uart x buf = none) :
    ∃ z, d.session uart = some z := by
  cases hz : d.session uart with
  | some z => exact ⟨z, rfl⟩
  | none =>
    rw [Dev.authorise, Dev.liveSession, hz] at h
    split at h <;> cases h

/-- Once a privileged request is authorised, its effect comes to the device whose session has followed the request. -/
theorem Dev.privileged_of_authorised {d : Dev} {uart : Bool} {x : Descr} {buf : List Byte} (h : d.authorise uart x buf = none)
    (f : Dev → Nat → List Byte → List Byte → Served) : ∃ z : Session, d.privileged uart x buf f =
      f (d.setSession uart (some { z with counter := numAt buf 0 8 })) (numAt buf 0 8) z.key (buf.drop 64) := by
  obtain ⟨z, hz⟩ := Dev.session_of_authorised h
  exact ⟨z, by rw [Dev.privileged, h, hz]⟩

/-- A privileged request whose effect, wherever the counters stand as they do, answers a status and leaves the device, ends with that
status and leaves every counter. -/
theorem Dev.manage_privileged_leaves {d : Dev} {i op st : Nat} {x : Descr} {buf : List Byte} {f : Dev → Descr → Served}
    {g : Dev → Nat → List Byte → List Byte → Served} (h : d.MayServe i x) (hauth : d.authorise false x buf = none) (hop : x.opcode = op)
    (hf : ∀ e, f e x = e.privileged false x buf g)
    (hg : ∀ (e : Dev) c key rest, (∀ k, e.counter k = d.counter k) → (g e c key rest).dev = e ∧ (g e c key rest).st = st) :
    (d.manage i op f).endedWith 0 i st ∧ ∀ k, (d.manage i op f).counter k = d.counter k := by
  have hsec : (d.started 0 i).sec = d.sec := (d.started_keeps 0 i).parts .sec (by decide)
  obtain ⟨z, hz⟩ := Dev.privileged_of_authorised ((d.authorise_started 0 i false x buf).trans hauth) g
  have hcounter : ∀ k, ((d.started 0 i).setSession false (some { z with counter := numAt buf 0 8 })).counter k = d.counter k := by
    intro k
    rw [Dev.counter_setSession, Dev.counter, hsec, Dev.counter]
  obtain ⟨hdev, hstatus⟩ := hg _ (numAt buf 0 8) z.key (buf.drop 64) hcounter
  rw [← hz, ← hf] at hdev hstatus
  obtain ⟨hends, hleft⟩ := Dev.manage_ends h hop (by rw [hdev]; exact (Dev.setSession_keeps ..).parts .hi (by decide))
    (by rw [hdev, Dev.uartIn_setSession, hsec, h.alone])
  exact ⟨hstatus ▸ hends, fun k => by rw [Dev.counter, hleft, hdev]; exact hcounter k⟩

/-! ### Counters and enrolled keys (R350, R355) -/

/-- A raise to a value at or below the present one burns nothing. -/
theorem Dev.serveRaise_of_le {d : Dev} {c v : Nat} (h : v ≤ d.counter c) (blown : Nat) :
    d.serveRaise c v blown = { dev := d, st := Code.OK, detail := d.counter c } := by
  simp [Dev.serveRaise, Dev.raise, h]

theorem does_raiseCounter {s : State} {t i blown : Nat} {buf : List Byte} {P : Dev → Prop}
    (h : P ((s.now t).manage i Op.RAISE_COUNTER fun d x => d.serveRaiseCounter false x (buf.take x.length) blown)) :
    Does s (.raiseCounter t i buf blown) P :=
  Does.of_effect (show exec _ s = execRaiseCounter t i buf blown s from rfl) h

theorem does_revoke {s : State} {t i blown : Nat} {buf : List Byte} {P : Dev → Prop}
    (h : P ((s.now t).manage i Op.REVOKE fun d x => d.serveRevoke false x (buf.take x.length) blown)) :
    Does s (.revoke t i buf blown) P :=
  Does.of_effect (show exec _ s = execRevoke t i buf blown s from rfl) h

theorem step_lasts (s : State) : ∃ n, step s = .next n ∧ Lasts s.toDev n.toDev := by
  rw [step]
  cases s.pending with
  | nil => exact ⟨s, rfl, Lasts.refl _⟩
  | cons c rest =>
    obtain ⟨d, hd, hlasts⟩ := exec_lasts c { s with pending := rest }
    exact ⟨_, hd, hlasts⟩

/-- Settles O58: what lasts through every step, and that the three requests reach a branch of their serving which burns nothing. -/
theorem countersNeverFall : Obligations.CountersNeverFall := by
  unfold Obligations.CountersNeverFall
  refine ⟨fun s => ?steps, fun s t i x buf blown => ?requests⟩
  case steps =>
    obtain ⟨n, hn, hlasts⟩ := step_lasts s
    exact ⟨n, hn, hlasts.counters, hlasts.enrolled⟩
  case requests =>
    intro d hst hfence hidle hw hauth
    have hserve : d.MayServe i x := ⟨hst, hfence, hidle, hw⟩
    refine ⟨fun hop _ _ hle hmax => ?low, fun hop _ _ hmax => ?high, fun hop hlast => ?revoke⟩
    case low =>
      refine does_raiseCounter (Dev.manage_privileged_leaves hserve hauth hop (fun _ => rfl) fun e _ _ _ he => ?_)
      rw [if_neg (Nat.not_lt.mpr hmax), Dev.serveRaise_of_le ((he x.target).symm ▸ hle)]
      exact ⟨rfl, rfl⟩
    case high =>
      refine does_raiseCounter (Dev.manage_privileged_leaves hserve hauth hop (fun _ => rfl) fun e _ _ _ _ => ?_)
      rw [if_pos hmax]
      exact ⟨rfl, rfl⟩
    case revoke =>
      refine does_revoke (Dev.manage_privileged_leaves hserve hauth hop (fun _ => rfl) fun e _ _ _ he => ?_)
      dsimp only
      rw [if_pos (he 3 ▸ hlast)]
      exact ⟨rfl, rfl⟩

end Sys2Proof.Machine
end

section
/-! The whole machine: the statements that hold of every command at once, from the law of each (exec_lasts, exec_runs), and the state
after reset. -/

namespace Sys2Proof.Machine

/-! ### The queue (log entry 1) -/

/-- A larger footprint, with its side condition stated. -/
theorem Keeps.within {a b : Foot} {d e : Dev} (h : Keeps a d e) (l : a.le b = true) : Keeps b d e := h.le l

theorem step_of_pending {s : State} {c : Instr} {rest : List Instr} (h : s.pending = c :: rest) :
    step s = exec c { s with pending := rest } := by
  rw [step, h]

theorem step_of_idle {s : State} (h : s.pending = []) : step s = .next s := by
  rw [step, h]

/-- Settles O52: the equations of step. -/
theorem stepTakesTheFrontCommand : Obligations.StepTakesTheFrontCommand := by
  unfold Obligations.StepTakesTheFrontCommand
  exact fun s c rest => ⟨step_of_pending, step_of_pending (s := s.withFront c) rfl, step_of_idle⟩

/-- Settles O53: what every command answers, the resets too. -/
theorem everyCommandCompletes : Obligations.EveryCommandCompletes := by
  unfold Obligations.EveryCommandCompletes
  intro c s
  obtain ⟨d, hd, -⟩ := exec_lasts c s
  exact ⟨_, hd, rfl⟩

/-! ### Reset -/

/-- Settles O54: nothing is stored in the state after reset. -/
theorem resetIsSound : Obligations.ResetIsSound := by
  unfold Obligations.ResetIsSound
  exact ⟨by decide, ⟨.nil, fun _ h => absurd h List.not_mem_nil⟩, ⟨.nil, fun _ h => absurd h List.not_mem_nil⟩, by decide⟩

theorem resetDev_word (off : Nat) : State.reset.toDev.word off = resetWord off := rfl

theorem resetDev_rd (f : Fd) (i : Nat) : State.reset.toDev.rd f i = getBits (resetWord (f.off i 0)) f.lo f.width := rfl

/-- Settles O55: every register reads its reset value, and every table is empty. -/
theorem resetLeaves : Obligations.ResetLeaves := by
  unfold Obligations.ResetLeaves
  refine ⟨resetDev_word, ?_, rfl, ?_, ?_, ?_, fun _ _ => rfl, fun _ => rfl, rfl, rfl, ?_, ?_, fun _ => rfl, ?_, ?_, rfl⟩
  all_goals decide

/-! ### Every step and every command -/

/-- Settles O56: the form is part of what lasts through every step. -/
theorem everyStepKeepsSoundness : Obligations.EveryStepKeepsSoundness := by
  unfold Obligations.EveryStepKeepsSoundness
  intro s h
  obtain ⟨n, hn, hlasts⟩ := step_lasts s
  exact ⟨n, hn, hlasts.sound h⟩

/-- A command's instant changes no bank. -/
theorem State.bankByte_now (s : State) (t a : Nat) : (s.now t).bankByte a = s.toDev.bankByte a := by
  unfold State.now Dev.arrive
  split <;> rfl

/-- Settles O57: the footprint of each command frames it, and the bytes of the banks are in the part of the banks. -/
theorem commandsKeepTheirFrame : Obligations.CommandsKeepTheirFrame := by
  unfold Obligations.CommandsKeepTheirFrame
  intro c s hc
  obtain ⟨d, hd, hkeeps⟩ := exec_runs c s hc
  refine ⟨d, hd, hkeeps.toFrame, fun hmb a => ?_⟩
  have hbanks : d.mb = (s.now c.time).mb := hkeeps.parts .mb hmb
  rw [Dev.bankByte, hbanks]
  exact s.bankByte_now c.time a

/-- What time a command's instant makes. -/
theorem Dev.time_arrive (d : Dev) (t : Nat) :
    (d.arrive t).time = if d.clockOn = true then max d.time (t % 2 ^ 64) else d.time := by
  unfold Dev.arrive
  split <;> rfl

/-- Settles O60: no effect but a renewal changes the time after the command's instant. -/
theorem timeNeverFalls : Obligations.TimeNeverFalls := by
  unfold Obligations.TimeNeverFalls
  intro c s hc
  obtain ⟨d, hd, hkeeps⟩ := exec_runs c s hc
  refine ⟨d, hd, ?_, ?_⟩
  · rw [hkeeps.time]
    exact s.toDev.arrive_time c.time
  · rw [hkeeps.time]
    exact s.toDev.time_arrive c.time

/-! ### SAFE (R374) -/

/-- SAFE is not left from d0 to d. -/
def Dev.KeepsSafe (d0 d : Dev) : Prop := d0.devState = DevSt.safe → d.devState = DevSt.safe

theorem Dev.KeepsSafe.refl (d : Dev) : d.KeepsSafe d := id

theorem Dev.KeepsSafe.trans {d0 d1 d : Dev} (h : d0.KeepsSafe d1) (k : d1.KeepsSafe d) : d0.KeepsSafe d := fun x => k (h x)

theorem Dev.KeepsSafe.ite {d0 a b : Dev} {c : Prop} [Decidable c] (h : c → d0.KeepsSafe a) (k : ¬c → d0.KeepsSafe b) :
    d0.KeepsSafe (if c then a else b) := by
  split
  · exact h ‹_›
  · exact k ‹_›

theorem Dev.keepsSafe_withTime (d : Dev) (t : Nat) : d.KeepsSafe (d.withTime t) := id

theorem Dev.keepsSafe_arrive (d : Dev) (t : Nat) : d.KeepsSafe (d.arrive t) := by
  unfold Dev.arrive
  exact .ite (fun _ => d.keepsSafe_withTime _) fun _ => .refl d

/-- ACTIVATE_RESET leaves a device in SAFE as it is (log entry 50). -/
theorem activateReset_keeps_safe (t : Nat) (s : State) (h : (s.now t).devState = DevSt.safe) :
    Does s (.activateReset t) fun n => n = s.now t := by
  refine Does.of_effect (show exec _ s = execActivateReset t s from rfl) ?_
  dsimp only
  split
  · rw [if_neg fun hc => hc.2 h]
  · rfl

theorem coldBoot_keeps_safe (t vin vfab : Nat) (x : BootInputs) (s : State) :
    Does s (.coldBoot t vin vfab x) (s.now t).KeepsSafe := by
  refine Does.of_effect (show exec _ s = execColdBoot t vin vfab x s from rfl) (.ite (fun _ => ?_) fun _ => .refl _)
  have hregs : ∀ e : Dev, Keeps ⟨true, [], []⟩ e
      ((((e.wr F.PWR_STAT_vin 0 vin).wr F.PWR_STAT_vfab 0 vfab).put F.PWR_CLK_STAT_ext 0 x.ext).wr F.IMS_BOOT_count 0
        (((e.wr F.PWR_STAT_vin 0 vin).wr F.PWR_STAT_vfab 0 vfab).boots + 1)).showSec := fun e =>
    ((((((Dev.wr_keeps _ _ _ _ (by decide)).within (by decide)).trans ((Dev.wr_keeps _ _ _ _ (by decide)).within (by decide))).trans
      ((Dev.put_keeps _ _ _ _ (by decide)).within (by decide))).trans ((Dev.wr_keeps _ _ _ _ (by decide)).within (by decide))).trans
      ((Dev.showSec_keeps _).within (by decide)))
  exact fun h => (hregs _).safe h

theorem wake_keeps_safe (t : Nat) (e : WakeEdges) (can : BitVec 8) (perst : Bool) (slept : Nat) (s : State) :
    Does s (.wake t e can perst slept) (s.now t).KeepsSafe := by
  refine Does.of_effect (show exec _ s = execWake t e can perst slept s from rfl) ?_
  dsimp only
  refine .ite (fun _ => ?_) fun _ => .refl _
  refine Dev.KeepsSafe.trans (Dev.seeWake_keeps ..).safe (.ite (fun _ => .refl _) fun _ => .ite (fun _ => ?_) fun _ => ?_)
  · exact (Dev.keepsSafe_withTime _ _).trans (Dev.wakeUp_keeps ..).safe
  · exact (Dev.onPw_keeps ..).safe

/-- Settles O59: of the commands that renew the device, those that are no reset of R374 do not write DEV_STATE in SAFE; no other one
leaves it. -/
theorem onlyResetsLeaveSafe : Obligations.OnlyResetsLeaveSafe := by
  unfold Obligations.OnlyResetsLeaveSafe
  intro c s hsafe hc
  have hnow : ∀ t, (s.now t).devState = DevSt.safe := fun t => s.toDev.keepsSafe_arrive t hsafe
  by_cases hrenews : c.renews = true
  · cases c <;> try exact Bool.noConfusion hrenews
    case activateReset t =>
      obtain ⟨d, hd, rfl⟩ := activateReset_keeps_safe t s (hnow t)
      exact ⟨_, hd, hnow t⟩
    case coldBoot t vin vfab x =>
      obtain ⟨d, hd, hkeeps⟩ := coldBoot_keeps_safe t vin vfab x s
      exact ⟨d, hd, hkeeps (hnow t)⟩
    case wake t e can perst slept =>
      obtain ⟨d, hd, hkeeps⟩ := wake_keeps_safe t e can perst slept s
      exact ⟨d, hd, hkeeps (hnow t)⟩
    all_goals exact Bool.noConfusion hc
  · obtain ⟨d, hd, hkeeps⟩ := exec_runs c s (by simpa using hrenews)
    exact ⟨d, hd, hkeeps.safe (hnow c.time)⟩

end Sys2Proof.Machine
end

section
/-! Tagged writes of the loops at the TBI gate, and shadows and commits of the safety controller (R45, R50 to R53); obligation O2. -/

namespace Sys2Proof.Machine

/-! ### Registers -/

/-- A write of a one-bit field leaves the fields apart from it. -/
theorem Dev.rd_put_apart (d : Dev) (f g : Fd) (i k : Nat) (b : Bool) (h : g.lo + g.width ≤ 32) (ha : f.apart g = true) :
    (d.put g k b).rd f i = d.rd f i :=
  d.rd_wr_apart f g i k _ h ha

theorem Dev.flag_wr_apart (d : Dev) (f g : Fd) (i k v : Nat) (h : g.lo + g.width ≤ 32) (ha : f.apart g = true) :
    (d.wr g k v).flag f i = d.flag f i := by
  rw [Dev.flag, Dev.flag, d.rd_wr_apart f g i k v h ha]

/-- A value that fits its field reads back as it was written. -/
theorem Dev.rd_wr_of_lt (d : Dev) (f : Fd) (i : Nat) {v : Nat} (h : f.lo + f.width ≤ 32) (hv : v < 2 ^ f.width) :
    (d.wr f i v).rd f i = v := by
  rw [Dev.rd_wr _ _ _ _ h, Nat.mod_eq_of_lt hv]

theorem Dev.bump_flag_apart (d : Dev) (f g : Fd) (i k : Nat) (h : g.lo + g.width ≤ 32) (ha : f.apart g = true) :
    (d.bump g k).flag f i = d.flag f i :=
  d.flag_wr_apart f g i k _ h ha

theorem Dev.bump_rd_apart (d : Dev) (f g : Fd) (i k : Nat) (h : g.lo + g.width ≤ 32) (ha : f.apart g = true) :
    (d.bump g k).rd f i = d.rd f i :=
  d.rd_wr_apart f g i k _ h ha

theorem clampInt_of_mem {lo hi v : Int} (h1 : lo ≤ v) (h2 : v ≤ hi) : clampInt lo hi v = v := by
  rw [clampInt, if_neg (by omega), if_neg (by omega)]

theorem blt_eq_false_of_le {m n : Nat} (h : n ≤ m) : Nat.blt m n = false := by
  rw [Bool.eq_false_iff, ne_eq, Nat.blt_eq]
  exact Nat.not_lt.mpr h

/-! ### Where carriers stand -/

/-- The fields that the place of a carrier and its update points are computed from. -/
def timingFields : List Fd :=
  [F.TB_GT_OFFSET_LO, F.TB_GT_OFFSET_HI, F.TB_EPOCH_LO, F.TB_EPOCH_HI, F.TB_STG_PERIOD_period, F.TB_STG_PHASE_phase,
    F.TB_STG_CFG_sync, F.TB_STG_CFG_beat_div, F.TB_STG_CFG_count_mode]

/-- Does a footprint leave them? -/
def Foot.avoidsTiming (w : Foot) : Bool := timingFields.all w.avoids

namespace Foot.Frame

variable {w : Foot} {d e : Dev} (h : w.Frame d e) (hw : w.avoidsTiming = true)

include h hw

theorem timing {f : Fd} (hf : f ∈ timingFields) (i : Nat) : e.rd f i = d.rd f i := h.rd f i (List.all_eq_true.mp hw f hf)

theorem period (k : Nat) : e.period k = d.period k := h.timing hw (by simp [timingFields]) k

theorem halfBeat (k : Nat) : e.halfBeat k = d.halfBeat k := by
  rw [Dev.halfBeat, Dev.halfBeat, h.timing hw (by simp [timingFields])]

theorem upDown (k : Nat) : e.upDown k = d.upDown k := by
  rw [Dev.upDown, Dev.upDown, h.timing hw (by simp [timingFields])]

theorem beat (k : Nat) : e.beat k = d.beat k := by
  rw [Dev.beat, Dev.beat, h.halfBeat hw, h.period hw]

theorem carrier (k τ : Nat) : e.carrier k τ = d.carrier k τ := by
  have hsync : e.globalStage k = d.globalStage k := by rw [Dev.globalStage, Dev.globalStage, h.timing hw (by simp [timingFields])]
  have hoffset : e.gtOffset = d.gtOffset := by
    rw [Dev.gtOffset, Dev.gtOffset, Dev.rd64, Dev.rd64, h.timing hw (by simp [timingFields]), h.timing hw (by simp [timingFields])]
  have hepoch : e.rd64 F.TB_EPOCH_LO F.TB_EPOCH_HI 0 = d.rd64 F.TB_EPOCH_LO F.TB_EPOCH_HI 0 := by
    rw [Dev.rd64, Dev.rd64, h.timing hw (by simp [timingFields]), h.timing hw (by simp [timingFields])]
  simp only [Dev.carrier, hsync, hoffset, hepoch, h.period hw, h.timing hw (show F.TB_STG_PHASE_phase ∈ timingFields by simp [timingFields])]

theorem atUpdate (k τ : Nat) : e.atUpdate k τ = d.atUpdate k τ := by
  simp only [Dev.atUpdate, h.carrier hw, h.halfBeat hw, h.period hw]

theorem toUpdate (ht : e.time = d.time) (k : Nat) : e.toUpdate k = d.toUpdate k := by
  simp only [Dev.toUpdate, h.carrier hw, h.beat hw, ht]

end Foot.Frame

/-! ### Tags (R50) -/

/-- How far a tag lies ahead of the number of the next update point of stage k. -/
def Dev.tagAhead (d : Dev) (k tag : Nat) : Nat := (tag + 65536 - (d.upd k + 1) % 65536) % 65536

theorem Dev.tagAhead_next (d : Dev) (k : Nat) : d.tagAhead k ((d.upd k + 1) % 65536) = 0 := by
  rw [Dev.tagAhead]
  omega

theorem Dev.ne_next_of_tagAhead {d : Dev} {k tag : Nat} (h : 0 < d.tagAhead k tag) : tag ≠ (d.upd k + 1) % 65536 := by
  rintro rfl
  rw [Dev.tagAhead_next] at h
  exact absurd h (lt_irrefl 0)

/-! ### The shadow write of a loop -/

section Loop

variable {d : Dev} {e l p tag : Nat} {isB : Bool} {v : Int}

theorem Dev.discardsMark_next (h : d.fenceHolds e = false) (k : Nat) : d.discardsMark e k ((d.upd k + 1) % 65536) = false := by
  simp [Dev.discardsMark, h]

theorem Dev.discardsMark_ahead {k : Nat} (h0 : 0 < d.tagAhead k tag) (h1 : d.tagAhead k tag < 32768) : d.discardsMark e k tag = true := by
  rw [Dev.tagAhead] at h0 h1
  simp only [Dev.discardsMark, Bool.or_eq_true, Bool.and_eq_true, bne_iff_ne, Nat.blt_eq]
  exact .inr ⟨by omega, h1⟩

theorem dropMark_own (k : Nat) (r : List GateTok) : dropMark e l k tag (.commit e l k tag :: r) = r := by
  simp [dropMark]

/-- A write with the tag of the next update point and a legal value is stored. -/
theorem Dev.shadowArrives_stores (hf : d.fenceHolds e = false) (hs : d.fenced Kind.stage (portStage p) = false)
    (h0 : 0 ≤ v) (hmax : v ≤ d.compareMax p isB) (hv : v < 2 ^ 28) :
    let n := d.shadowArrives e l p isB v ((d.upd (portStage p) + 1) % 65536)
    (n.rd (if isB then F.PG_SHD_B_value else F.PG_SHD_A_value) p : Int) = v ∧ n.tb.gate = d.tb.gate := by
  have hnat : ((v.toNat % 2 ^ 28 : Nat) : Int) = v := by omega
  simp only [Dev.shadowArrives, hf, hs, clampInt_of_mem h0 hmax, if_true, Bool.false_eq_true, if_false, ne_eq, not_true_eq_false]
  cases isB
  · exact ⟨(congrArg Nat.cast (d.rd_wr F.PG_SHD_A_value p v.toNat (by decide))).trans hnat, rfl⟩
  · exact ⟨(congrArg Nat.cast (d.rd_wr F.PG_SHD_B_value p v.toNat (by decide))).trans hnat, rfl⟩

/-- A write with another tag is counted, and stored nowhere. -/
theorem Dev.shadowArrives_of_stale (hf : d.fenceHolds e = false) (hs : d.fenced Kind.stage (portStage p) = false)
    (htag : tag ≠ (d.upd (portStage p) + 1) % 65536) : d.shadowArrives e l p isB v tag = d.staleWrite (portStage p) := by
  simp only [Dev.shadowArrives, hf, hs, htag, if_true, Bool.false_eq_true, if_false, ne_eq, not_false_eq_true]

theorem Dev.staleWrite_counts (k : Nat) : (d.staleWrite k).flag F.TB_STG_STAT_stale k = true ∧
    (d.staleWrite k).rd F.TB_STG_STAT_stale_cnt k = min (d.rd F.TB_STG_STAT_stale_cnt k + 1) 65535 := by
  refine ⟨?_, ?_⟩
  · rw [Dev.staleWrite, Dev.bump_flag_apart _ _ _ _ _ (by decide) (by decide)]
    exact Dev.flag_put _ _ _ _ (by decide) rfl
  · rw [Dev.staleWrite, Dev.rd_bump _ _ _ (by decide), Dev.rd_put_apart _ _ _ _ _ _ (by decide) (by decide)]
    rfl

/-! ### The commit mark of a loop (R51) -/

theorem Dev.commitArrives_marks {k : Nat} (hf : d.fenceHolds e = false) (hs : d.fenced Kind.stage k = false)
    (hlive : d.pastDeadline k = false) :
    ((d.commitArrives e l k ((d.upd k + 1) % 65536)).stg k).mark = true ∧
      (d.commitArrives e l k ((d.upd k + 1) % 65536)).tb.gate = d.tb.gate := by
  have hzero := d.tagAhead_next k
  rw [Dev.tagAhead] at hzero
  have htb : (d.commitArrives e l k ((d.upd k + 1) % 65536)).tb = (d.setStg k { d.stg k with mark := true }).tb := by
    simp only [Dev.commitArrives, hf, hs, hzero, hlive, if_true, Bool.false_eq_true, if_false]
    exact (Dev.commitReleased_keeps ..).parts .tb (by decide)
  refine ⟨?_, htb ▸ rfl⟩
  rw [Dev.stg, htb]
  exact congrArg StageT.mark (d.stg_setStg_self k _)

end Loop

/-! ### The safety controller's shadow and commit (R52) -/

theorem Dev.scShadow_stores {d : Dev} {p : Nat} {isB : Bool} {v : Word} (hs : d.fenced Kind.stage (portStage p) = false)
    (hl : d.loopStage (portStage p) = false) (hmax : v.toNat % 2 ^ 28 ≤ d.compareMax p isB) :
    (d.scShadow p isB v).rd (if isB then F.PG_SHD_B_value else F.PG_SHD_A_value) p = v.toNat % 2 ^ 28 := by
  have hlegal := blt_eq_false_of_le hmax
  simp only [Dev.scShadow, hs, hl, hlegal, Bool.or_self, Bool.false_eq_true, if_false]
  cases isB
  · exact d.rd_wr_of_lt F.PG_SHD_A_value p (by decide) (Nat.mod_lt _ (by decide))
  · exact d.rd_wr_of_lt F.PG_SHD_B_value p (by decide) (Nat.mod_lt _ (by decide))

section Commit

variable {d : Dev} {k : Nat} {v : Word}

theorem Dev.pastDeadline_wr_commit (d : Dev) (k tag : Nat) : (d.wr F.TB_STG_COMMIT_update k tag).pastDeadline k = d.pastDeadline k := by
  have hw := (Dev.wr_keeps d F.TB_STG_COMMIT_update k tag (by decide)).toFrame
  simp only [Dev.pastDeadline, hw.atUpdate (by decide), hw.toUpdate (by decide) rfl k, hw.rd F.TB_STG_LIMIT_guard k (by decide)]
  rfl

/-- A commit is late where its tag is behind, or names the next update point after its deadline instant. -/
def Dev.commitLate (d : Dev) (k tag : Nat) : Bool := decide (32768 ≤ d.tagAhead k tag) || (d.tagAhead k tag = 0 && d.pastDeadline k)

theorem Dev.commitLate_iff {tag : Nat} : d.commitLate k tag = true ↔
    32768 ≤ d.tagAhead k tag ∨ d.tagAhead k tag = 0 ∧ d.pastDeadline k = true := by
  simp [Dev.commitLate]

theorem Dev.scCommit_eq (hs : d.fenced Kind.stage k = false) (hl : d.loopStage k = false) : d.scCommit k v =
    let e := d.wr F.TB_STG_COMMIT_update k (v.toNat % 65536)
    if d.commitLate k (v.toNat % 65536) then (e.put F.TB_STG_COMMIT_pending k false).wr F.TB_STG_COMMIT_status k Code.STALE
    else e.put F.TB_STG_COMMIT_pending k true := by
  simp only [Dev.scCommit, hs, hl, Bool.false_eq_true, if_false, Dev.pastDeadline_wr_commit]
  rfl

theorem Dev.scCommit_update (hs : d.fenced Kind.stage k = false) (hl : d.loopStage k = false) :
    (d.scCommit k v).rd F.TB_STG_COMMIT_update k = v.toNat % 65536 := by
  have htag := d.rd_wr_of_lt F.TB_STG_COMMIT_update k (by decide) (show v.toNat % 65536 < 2 ^ 16 from Nat.mod_lt _ (by decide))
  rw [Dev.scCommit_eq hs hl]
  dsimp only
  split
  · rwa [Dev.rd_wr_apart _ _ _ _ _ _ (by decide) (by decide), Dev.rd_put_apart _ _ _ _ _ _ (by decide) (by decide)]
  · rwa [Dev.rd_put_apart _ _ _ _ _ _ (by decide) (by decide)]

theorem Dev.scCommit_pending (hs : d.fenced Kind.stage k = false) (hl : d.loopStage k = false)
    (h : d.commitLate k (v.toNat % 65536) = false) : (d.scCommit k v).flag F.TB_STG_COMMIT_pending k = true := by
  simp only [Dev.scCommit_eq hs hl, h, Bool.false_eq_true, if_false]
  exact Dev.flag_put _ _ _ _ (by decide) rfl

theorem Dev.scCommit_stale (hs : d.fenced Kind.stage k = false) (hl : d.loopStage k = false)
    (h : d.commitLate k (v.toNat % 65536) = true) : (d.scCommit k v).flag F.TB_STG_COMMIT_pending k = false ∧
      (d.scCommit k v).rd F.TB_STG_COMMIT_status k = Code.STALE := by
  simp only [Dev.scCommit_eq hs hl, h, if_true]
  refine ⟨?_, Dev.rd_wr _ _ _ _ (by decide)⟩
  rw [Dev.flag_wr_apart _ _ _ _ _ _ (by decide) (by decide)]
  exact Dev.flag_put _ _ _ _ (by decide) rfl

end Commit

/-! ### The commands -/

section Commands

variable {s : State} {t : Nat} {P : Dev → Prop}

/-- The write at the head of the gate is released, with the mark that it carries where it is discarded. -/
theorem does_pgShadowWrite {e l p tag : Nat} {isB : Bool} {v : Int} {r : List GateTok}
    (hg : (s.now t).tb.gate = .shadow e l p isB v tag :: r)
    (h : P (((s.now t).withTb { (s.now t).tb with
      gate := if (s.now t).discardsMark e (portStage p) tag then dropMark e l (portStage p) tag r else r }).shadowArrives e l p isB v tag)) :
    Does s (.pgShadowWrite t) P :=
  Does.of_effect (show exec _ s = execPgShadowWrite t s from rfl) (by simpa only [hg] using h)

theorem does_commitMark {e l k tag : Nat} {r : List GateTok} (hg : (s.now t).tb.gate = .commit e l k tag :: r)
    (h : P (((s.now t).withTb { (s.now t).tb with gate := r }).commitArrives e l k tag)) : Does s (.commitMark t) P :=
  Does.of_effect (show exec _ s = execCommitMark t s from rfl) (by simpa only [hg] using h)

end Commands

/-- Settles O2: what the gate releases is stored, discarded or marked by its tag, and the safety controller's by their fields. -/
theorem shadowsAndCommits : Obligations.ShadowsAndCommits := by
  unfold Obligations.ShadowsAndCommits
  intro s t d
  refine ⟨?stored, ?discarded, ?marked, ?scShadow, ?scCommit⟩
  case stored =>
    rintro e l p isB v tag r hg hf hs rfl h0 hmax hv
    refine does_pgShadowWrite hg ?_
    rw [Dev.discardsMark_next hf]
    exact Dev.shadowArrives_stores (d := d.withTb { d.tb with gate := r }) hf hs h0 hmax hv
  case discarded =>
    intro e l p isB v tag k hf hs h0 h1 r hg
    refine does_pgShadowWrite hg ?_
    rw [Dev.discardsMark_ahead h0 h1, if_pos rfl, dropMark_own]
    rw [Dev.shadowArrives_of_stale (d := d.withTb { d.tb with gate := r }) hf hs (Dev.ne_next_of_tagAhead h0)]
    have hstale := Dev.staleWrite_keeps (d.withTb { d.tb with gate := r }) k
    obtain ⟨hflag, hcount⟩ := Dev.staleWrite_counts (d := d.withTb { d.tb with gate := r }) k
    exact ⟨congrArg Tb.gate (hstale.parts .tb (by decide)), hflag, hcount, hstale.rd F.PG_SHD_A_value p (by decide),
      hstale.rd F.PG_SHD_B_value p (by decide)⟩
  case marked =>
    intro e l k r hg hf hs hlive
    exact does_commitMark hg (Dev.commitArrives_marks (d := d.withTb { d.tb with gate := r }) hf hs hlive)
  case scShadow =>
    intro p isB v hfw hs hl hmax
    exact Does.of_firmware (f := fun d => d.scShadow p isB v) rfl hfw (Dev.scShadow_stores hs hl hmax)
  case scCommit =>
    intro k v hfw hs hl diff
    refine Does.of_firmware (f := fun d => d.scCommit k v) rfl hfw ⟨Dev.scCommit_update hs hl, fun hahead hlive => ?_, fun hlate => ?_⟩
    · refine Dev.scCommit_pending hs hl (Bool.eq_false_iff.mpr fun hc => ?_)
      rcases Dev.commitLate_iff.mp hc with hbehind | ⟨hzero, hpast⟩
      · exact absurd hbehind (Nat.not_le.mpr hahead)
      · exact hlive.elim (absurd hzero) fun hl => by rw [hl] at hpast; cases hpast
    · exact Dev.scCommit_stale hs hl (Dev.commitLate_iff.mpr hlate)

end Sys2Proof.Machine
end

section
/-! What the proofs below share: fields at other indices, effects over lists of units, stages that stop and what
is awaited of them. -/

namespace Sys2Proof.Machine

/-! ### Fields of other units -/

theorem Dev.rd_wr_of_off_ne (d : Dev) (f g : Fd) (i k v : Nat) (h : f.off i 0 ≠ g.off k 0) : (d.wr g k v).rd f i = d.rd f i := by
  have hword : (d.wr g k v).word (f.off i 0) = d.word (f.off i 0) := by
    rw [Dev.wr, Dev.wr2, Dev.word_setWord, if_neg h]
  rw [Dev.rd, Dev.rd, Dev.rd2, Dev.rd2, hword]

/-- Two units of a register group have registers of their own. -/
theorem Fd.off_ne {f : Fd} {i k : Nat} (hs : 0 < f.s1) (hi : i < f.n1) (hk : k < f.n1) (h : i ≠ k) : f.off i 0 ≠ f.off k 0 := by
  intro hc
  rw [Fd.off, Fd.off, Nat.mod_eq_of_lt hi, Nat.mod_eq_of_lt hk] at hc
  exact h (Nat.eq_of_mul_eq_mul_left hs (by omega))

theorem Dev.rd_wr_of_ne (d : Dev) (f : Fd) {i k : Nat} (v : Nat) (hs : 0 < f.s1) (hi : i < f.n1) (hk : k < f.n1) (h : i ≠ k) :
    (d.wr f k v).rd f i = d.rd f i :=
  d.rd_wr_of_off_ne f f i k v (Fd.off_ne hs hi hk h)

theorem Dev.flag_put_of_ne (d : Dev) (f : Fd) {i k : Nat} (b : Bool) (hs : 0 < f.s1) (hi : i < f.n1) (hk : k < f.n1) (h : i ≠ k) :
    (d.put f k b).flag f i = d.flag f i := by
  rw [Dev.flag, Dev.flag, Dev.put, d.rd_wr_of_ne f _ hs hi hk h]

/-- A flag that holds a value keeps it when that value is put for any unit. -/
theorem Dev.flag_put_of_eq (d : Dev) (f : Fd) {i : Nat} (k : Nat) {b : Bool} (h : f.lo + f.width ≤ 32) (hw : f.width = 1)
    (hi : d.flag f i = b) : (d.put f k b).flag f i = b := by
  by_cases hoff : f.off i 0 = f.off k 0
  · have hk := Dev.flag_put d f k b h hw
    rwa [Dev.flag, Dev.rd, Dev.rd2, ← hoff] at hk
  · rwa [Dev.flag, Dev.put, d.rd_wr_of_off_ne f f i k _ hoff]

@[simp] theorem Dev.time_wr (d : Dev) (f : Fd) (i v : Nat) : (d.wr f i v).time = d.time := rfl
@[simp] theorem Dev.time_put (d : Dev) (f : Fd) (i : Nat) (b : Bool) : (d.put f i b).time = d.time := rfl
@[simp] theorem Dev.time_bump (d : Dev) (f : Fd) (i : Nat) : (d.bump f i).time = d.time := rfl

/-- A 64-bit value reads back from its two registers. -/
theorem Dev.rd64_wr64 (d : Dev) (lo hi : Fd) (i v : Nat) (hlo : lo.lo = 0 ∧ lo.width = 32) (hhi : hi.lo = 0 ∧ hi.width = 32)
    (ha : lo.apart hi = true) : (d.wr64 lo hi i v).rd64 lo hi i = v % 2 ^ 64 := by
  obtain ⟨hl0, hl⟩ := hlo
  obtain ⟨hh0, hh⟩ := hhi
  rw [Dev.rd64, Dev.wr64, Dev.rd_wr _ hi _ _ (by omega), d.wr lo i (v % 2 ^ 32) |>.rd_wr_apart lo hi i i _ (by omega) ha,
    Dev.rd_wr _ lo _ _ (by omega), hl, hh]
  omega

/-- A field of a register that was written as a whole. -/
theorem Dev.rd_wr_whole (d : Dev) {f g : Fd} {i k : Nat} (v : Nat) (hoff : f.off i 0 = g.off k 0) (hlo : g.lo = 0) (hw : g.width = 32)
    (h : f.lo + f.width ≤ 32) : (d.wr g k v).rd f i = v / 2 ^ f.lo % 2 ^ f.width := by
  rw [Dev.wr, Dev.wr2, Dev.rd, Dev.rd2, Dev.word_setWord, hoff, if_pos rfl, hlo, hw, getBits_putBits_whole _ _ h]

theorem bitOf_eq_testBit (v k : Nat) : bitOf v k = v.testBit k := by
  rw [bitOf, Nat.testBit_eq_decide_div_mod_eq]
  rfl

/-- What the record of a rejected write holds, where none was held before (R23). -/
theorem Dev.reject_records (d : Dev) (m : Master) (off reason : Nat) (data : Word) (hv : d.flag F.FAB_WRITE_ERR_valid 0 = false)
    (hr : reason < 16) : (d.reject m off reason data).rd F.FAB_WRITE_ERR_reason 0 = reason := by
  have hkept : (d.bump F.FAB_WRITE_CNT 0).flag F.FAB_WRITE_ERR_valid 0 = false :=
    (Dev.bump_flag_apart _ _ _ _ _ (by decide) (by decide)).trans hv
  simp only [Dev.reject, hkept, Bool.false_eq_true, if_false]
  rw [Dev.rd_wr_apart _ _ _ _ _ _ (by decide) (by decide), Dev.rd_wr_whole (f := F.FAB_WRITE_ERR_reason) (g := F.FAB_WRITE_ERR) _ _ rfl rfl rfl (by decide)]
  simp only [F.FAB_WRITE_ERR_reason]
  have hoff : off % 2 ^ 21 < 2 ^ 21 := Nat.mod_lt _ (by decide)
  omega

/-! ### Effects over lists of units -/

theorem Dev.each_preserves {P : Dev → Prop} {f : Dev → Nat → Dev} {l : List Nat} (h : ∀ e, ∀ q ∈ l, P e → P (f e q)) :
    ∀ d : Dev, P d → P (d.each l f) := by
  induction l with
  | nil => exact fun _ hd => hd
  | cons a l ih => exact fun d hd => ih (fun e q hq => h e q (.tail _ hq)) _ (h d a (.head _) hd)

/-- What one unit's turn brings about under an invariant, and no turn undoes, holds in the end. -/
theorem Dev.each_reaches_of {I P : Dev → Prop} {f : Dev → Nat → Dev} {l : List Nat} {p : Nat} (hp : p ∈ l)
    (hI : ∀ e, ∀ q ∈ l, I e → I (f e q)) (hset : ∀ e, I e → P (f e p)) (h : ∀ e, ∀ q ∈ l, P e → P (f e q)) (d : Dev) (hd : I d) :
    P (d.each l f) := by
  induction l generalizing d with
  | nil => cases hp
  | cons a l ih =>
    rcases List.mem_cons.mp hp with rfl | hp
    · exact Dev.each_preserves (fun e q hq => h e q (.tail _ hq)) _ (hset d hd)
    · exact ih hp (fun e q hq => hI e q (.tail _ hq)) (fun e q hq => h e q (.tail _ hq)) _ (hI d a (.head _) hd)

/-- What one unit's turn brings about and no turn undoes holds in the end. -/
theorem Dev.each_reaches {P : Dev → Prop} {f : Dev → Nat → Dev} {l : List Nat} {p : Nat} (hp : p ∈ l) (hset : ∀ e, P (f e p))
    (h : ∀ e, ∀ q ∈ l, P e → P (f e q)) (d : Dev) : P (d.each l f) :=
  Dev.each_reaches_of (I := fun _ => True) hp (fun _ _ _ _ => trivial) (fun e _ => hset e) h d trivial

/-! ### Absence timers -/

theorem Dev.absDue_setAbsDue (d : Dev) (s k : Nat) (v : Option Nat) : (d.setAbsDue s v).absDue k = if k = s then v else d.absDue k :=
  Tbl.get_set ..

theorem Dev.respDue_setRespDue (d : Dev) (s k : Nat) (v : Option Nat) :
    (d.setRespDue s v).respDue k = if k = s then v else d.respDue k :=
  Tbl.get_set ..

/-- No decision of the firmware on stage k is awaited. -/
def Dev.Decided (d : Dev) (k : Nat) : Prop := d.flag F.SC_ABS_LEFT_awaiting k = false ∧ d.respDue k = none

theorem Dev.Decided.congr {d e : Dev} {k : Nat} (h : d.Decided k) (hf : e.flag F.SC_ABS_LEFT_awaiting k = d.flag F.SC_ABS_LEFT_awaiting k)
    (hs : e.sc = d.sc) : e.Decided k := by
  obtain ⟨hflag, hdue⟩ := h
  exact ⟨hf.trans hflag, by rwa [Dev.respDue, hs]⟩

theorem Dev.decided_put (d : Dev) (k : Nat) : ((d.put F.SC_ABS_LEFT_awaiting k false).setRespDue k none).Decided k := by
  have hflag := d.flag_put F.SC_ABS_LEFT_awaiting k false (by decide) rfl
  exact ⟨hflag, (Dev.respDue_setRespDue ..).trans (if_pos rfl)⟩

/-- What only absence timers and the flags of what is awaited decide, and no stop of a timer ends. -/
structure AbsLasts (P : Dev → Prop) : Prop where
  congr : ∀ {d e : Dev}, (∀ i, e.flag F.SC_ABS_LEFT_awaiting i = d.flag F.SC_ABS_LEFT_awaiting i) → e.sc = d.sc → P d → P e
  absStop : ∀ {d : Dev} s, P d → P (d.absStop s)

theorem Dev.respDue_setAbsDue (d : Dev) (s k : Nat) (v : Option Nat) : (d.setAbsDue s v).respDue k = d.respDue k := rfl

theorem Dev.absDue_setRespDue (d : Dev) (s k : Nat) (v : Option Nat) : (d.setRespDue s v).absDue k = d.absDue k := rfl

theorem Dev.flag_setDues (d : Dev) (s k : Nat) (v u : Option Nat) (f : Fd) : ((d.setAbsDue s v).setRespDue s u).flag f k = d.flag f k := rfl

/-- What the registers of a timer hold once it has stopped. -/
def Dev.absRest (d : Dev) (s : Nat) : Dev := (d.wr F.SC_ABS_LEFT_left s (d.absLeft s)).put F.SC_ABS_LEFT_awaiting s false

theorem Dev.absStop_eq (d : Dev) (s : Nat) : d.absStop s = ((d.absRest s).setAbsDue s none).setRespDue s none := rfl

theorem Dev.absRest_sc (d : Dev) (s : Nat) : (d.absRest s).sc = d.sc := rfl

theorem Dev.absRest_flag (d : Dev) (s k : Nat) (h : d.flag F.SC_ABS_LEFT_awaiting k = false) :
    (d.absRest s).flag F.SC_ABS_LEFT_awaiting k = false :=
  Dev.flag_put_of_eq _ F.SC_ABS_LEFT_awaiting s (by decide) rfl ((Dev.flag_wr_apart _ _ _ _ _ _ (by decide) (by decide)).trans h)

theorem absLasts_decided (k : Nat) : AbsLasts fun d => d.Decided k where
  congr hf hs h := h.congr (hf k) hs
  absStop {d} s h := by
    obtain ⟨hflag, hdue⟩ := h
    rw [d.absStop_eq]
    constructor
    · rw [Dev.flag_setDues]
      exact d.absRest_flag s k hflag
    · rw [Dev.respDue_setRespDue, Dev.respDue_setAbsDue, Dev.respDue, d.absRest_sc, ← Dev.respDue, hdue, ite_self]

theorem absLasts_absDue_none (k : Nat) : AbsLasts fun d => d.absDue k = none where
  congr _ hs h := by rwa [Dev.absDue, hs]
  absStop {d} s h := by
    rw [d.absStop_eq, Dev.absDue_setRespDue, Dev.absDue_setAbsDue, Dev.absDue, d.absRest_sc, ← Dev.absDue, h, ite_self]

namespace AbsLasts

variable {P : Dev → Prop} (hP : AbsLasts P)

include hP

theorem keeps {w : Foot} {d e : Dev} (h : P d) (hk : Keeps w d e) (hf : w.avoids F.SC_ABS_LEFT_awaiting = true) (hp : Part.sc ∉ w.parts) :
    P e :=
  hP.congr (fun i => hk.flag _ i hf) (hk.parts .sc hp) h

theorem endRun {d : Dev} (h : P d) (s : Nat) : P (d.endRun s) := by
  unfold Dev.endRun
  dsimp only
  refine hP.congr (d := if d.flag F.TB_STG_RUN_run s then (d.setStg s { d.stg s with stopAt := d.time }).absStop s else d)
    (fun i => ?_) rfl ?_
  · rw [Dev.flag_put_apart _ _ _ _ _ _ (by decide) (by decide), Dev.flag_put_apart _ _ _ _ _ _ (by decide) (by decide)]
    rfl
  · split
    · exact hP.absStop s (hP.congr (d := d) (fun _ => rfl) rfl h)
    · exact h

theorem stopStage {d : Dev} (h : P d) (s : Nat) : P (d.stopStage s) :=
  hP.keeps (hP.endRun h s) ((d.endRun s).silence_keeps s) (by decide) (by decide)

theorem stopStages {d : Dev} (h : P d) (ss : List Nat) : P (d.stopStages ss) :=
  Dev.each_preserves (P := P) (fun _ s _ h => hP.stopStage h s) d h

end AbsLasts

/-! ### Stages that stop -/

/-- Stage k does not run. -/
def Dev.Stopped (d : Dev) (k : Nat) : Prop := d.flag F.TB_STG_RUN_run k = false

theorem Dev.Stopped.keeps {w : Foot} {d e : Dev} {k : Nat} (h : d.Stopped k) (hk : Keeps w d e)
    (hf : w.avoids F.TB_STG_RUN_run = true) : e.Stopped k :=
  (hk.flag _ k hf).trans h

theorem Dev.endRun_keeps_stopped (d : Dev) (s k : Nat) (h : d.Stopped k) : (d.endRun s).Stopped k := by
  have hbefore : (if d.flag F.TB_STG_RUN_run s then (d.setStg s { d.stg s with stopAt := d.time }).absStop s else d).Stopped k := by
    split
    · exact Dev.Stopped.keeps (d := d.setStg s { d.stg s with stopAt := d.time }) h (Dev.absStop_keeps _ s) (by decide)
    · exact h
  have hput := Dev.flag_put_of_eq _ F.TB_STG_RUN_run s (by decide) rfl hbefore
  exact (Dev.flag_put_apart _ _ _ _ _ _ (by decide) (by decide)).trans hput

theorem Dev.stopStage_keeps_stopped (d : Dev) (s k : Nat) (h : d.Stopped k) : (d.stopStage s).Stopped k :=
  (d.endRun_keeps_stopped s k h).keeps ((d.endRun s).silence_keeps s) (by decide)

theorem Dev.stopStage_stops (d : Dev) (k : Nat) : (d.stopStage k).Stopped k := (d.stopStage_shows k).1

theorem Dev.stopStages_stop (d : Dev) {ss : List Nat} {k : Nat} (hk : k ∈ ss) : (d.stopStages ss).Stopped k :=
  Dev.each_reaches (P := fun d => d.Stopped k) hk (fun e => e.stopStage_stops k) (fun e s _ => e.stopStage_keeps_stopped s k) d

/-! ### The rest of machine, charger, converter and drive -/

/-- What the rest of a sequencer does after its stages stopped. -/
def restFoot : Foot :=
  ⟨false, [F.SC_TM_STAT_active, F.SC_CH_STAT_state, F.SC_CH_STAT_active, F.SC_LV_STAT_state, F.SC_LV_STAT_active], [.be, .tm, .ch, .dr, .hi]⟩

theorem Dev.tmRest_after (d : Dev) (m : Nat) : Keeps restFoot (d.stopStages (d.tmStages m)) (d.tmRest m) :=
  (((((Dev.wr_keeps _ F.SC_TM_STAT_active m 0 (by decide)).within (by decide)).trans ((Dev.onTm_keeps ..).within (by decide))).trans ((Dev.tmBlock_keeps ..).within (by decide))))

theorem Dev.chRest_after (d : Dev) : Keeps restFoot (d.stopStages [10, 11, 8, 9]) d.chRest :=
  (((Dev.onCh_keeps ..).within (by decide)).trans ((Dev.chBlock_keeps ..).within (by decide))).trans ((Dev.chGo_keeps ..).within (by decide))

theorem Dev.lvRest_after (d : Dev) : Keeps restFoot (d.stopStages [14, 12]) d.lvRest :=
  (((Dev.onCh_keeps ..).within (by decide)).trans ((Dev.lvBlock_keeps ..).within (by decide))).trans ((Dev.lvGo_keeps ..).within (by decide))

theorem Dev.drRest_after (d : Dev) (a : Nat) : Keeps restFoot (d.stopStage (drStage a)) (d.drRest a) :=
  ((Dev.onDr_keeps ..).within (by decide)).trans ((Dev.drBlock_keeps ..).within (by decide))

theorem Dev.tmRest_stops (d : Dev) (m : Nat) {k : Nat} (hk : k ∈ d.tmStages m) : (d.tmRest m).Stopped k :=
  (d.stopStages_stop hk).keeps (d.tmRest_after m) (by decide)

theorem Dev.chRest_stops (d : Dev) {k : Nat} (hk : k ∈ chStages) : d.chRest.Stopped k := by
  have hmem : k ∈ [10, 11, 8, 9] := by
    simp only [chStages, List.mem_cons, List.not_mem_nil, or_false] at hk ⊢
    omega
  exact (d.stopStages_stop hmem).keeps d.chRest_after (by decide)

theorem Dev.lvRest_stops (d : Dev) {k : Nat} (hk : k ∈ [14, 12]) : d.lvRest.Stopped k :=
  (d.stopStages_stop hk).keeps d.lvRest_after (by decide)

theorem Dev.drRest_stops (d : Dev) (a : Nat) : (d.drRest a).Stopped (drStage a) :=
  (d.stopStage_stops (drStage a)).keeps (d.drRest_after a) (by decide)

theorem Dev.mem_tmStages {d : Dev} {m j : Nat} (hj : j < 4) (h : bitOf (d.rd F.SC_TM_CFG_sets m) j = true) : 4 * m + j ∈ d.tmStages m :=
  List.mem_map_of_mem (List.mem_filter.mpr ⟨List.mem_range.mpr hj, h⟩)

/-! ### STOP (R284) -/

/-- Stage k is stopped and P holds of its timer. -/
def Dev.Settled (P : Dev → Prop) (d : Dev) (k : Nat) : Prop := d.Stopped k ∧ P d

section Settled

variable {P : Dev → Prop} (hP : AbsLasts P) {d : Dev} {k : Nat}

include hP

theorem AbsLasts.settled_keeps {w : Foot} {e : Dev} (h : d.Settled P k) (hk : Keeps w d e)
    (hf : (w.avoids F.TB_STG_RUN_run && w.avoids F.SC_ABS_LEFT_awaiting) = true) (hp : Part.sc ∉ w.parts) : e.Settled P k := by
  obtain ⟨hstop, hlasts⟩ := h
  obtain ⟨hrun, hflag⟩ := Bool.and_eq_true_iff.mp hf
  exact ⟨hstop.keeps hk hrun, hP.keeps hlasts hk hflag hp⟩

theorem AbsLasts.settled_stages (h : P d) {ss : List Nat} (hk : k ∈ ss) : (d.stopStages ss).Settled P k :=
  ⟨d.stopStages_stop hk, hP.stopStages h ss⟩

theorem AbsLasts.settled_stage (h : P d) : (d.stopStage k).Settled P k :=
  ⟨d.stopStage_stops k, hP.stopStage h k⟩


omit hP in
theorem Dev.tmFinish_tmStages (d : Dev) (m st : Nat) : (d.tmFinish m st).tmStages m = d.tmStages m := by
  rw [Dev.tmStages, Dev.tmStages, Dev.tmSets, Dev.tmSets, (d.tmFinish_keeps m st).rd F.SC_TM_CFG_sets m (by decide)]

theorem AbsLasts.tmStop (m word : Nat) (hk : k ∈ d.tmStages m) (h : P d) : (d.tmStop m word).Settled P k := by
  have hfin : P (d.tmFinish m word) := hP.keeps h (d.tmFinish_keeps m word) (by decide) (by decide)
  have hstages := hP.settled_stages hfin (ss := (d.tmFinish m word).tmStages m) (by rwa [Dev.tmFinish_tmStages])
  exact hP.settled_keeps (hP.settled_keeps hstages ((d.tmFinish m word).tmRest_after m) (by decide) (by decide)) (Dev.tmGo_keeps _ m 2)
    (by decide) (by decide)

omit hP in
theorem mem_chRest {k : Nat} (hk : k ∈ chStages) : k ∈ [10, 11, 8, 9] := by
  simp only [chStages, List.mem_cons, List.not_mem_nil, or_false] at hk ⊢
  omega

theorem AbsLasts.hardStop (cause : Nat) (hk : k ∈ chStages) (h : P d) : (d.hardStop cause).Settled P k := by
  have hrest := hP.settled_keeps (hP.settled_stages h (mem_chRest hk)) d.chRest_after (by decide) (by decide)
  refine hP.settled_keeps (w := ⟨false, [F.SC_TM_STAT_last_status, F.SC_TM_CNT_refusals, F.SC_CH_STAT_last_status,
    F.SC_LV_STAT_last_status, F.SC_DR_STAT_last_status, F.HI_QP_CTRL_draining, F.HI_QP_FLAGS_in_flight, F.CN_STAT_slots, F.FLT_STAT_lost,
    F.FLT_LOST], [.ch, .hi, .cn, .flt]⟩) hrest ?_ (by decide) (by decide)
  refine Keeps.trans ?_ ((Dev.chStopped_keeps _).within (by decide))
  split
  · exact (d.chRest.chFinish_keeps cause).within (by decide)
  · exact (d.chRest.post_keeps _).within (by decide)

theorem AbsLasts.lvStop (word : Nat) (hk : k ∈ [14, 12]) (h : P d) : (d.lvStop word).Settled P k := by
  have hfin : P (d.lvFinish word) := hP.keeps h (d.lvFinish_keeps word) (by decide) (by decide)
  exact hP.settled_keeps (hP.settled_stages hfin hk) (d.lvFinish word).lvRest_after (by decide) (by decide)

theorem AbsLasts.drStop (a word : Nat) (h : P d) : (d.drStop a word).Settled P (drStage a) := by
  have hfin : P (d.drFinish a word) := hP.keeps h (d.drFinish_keeps a word) (by decide) (by decide)
  exact hP.settled_keeps (hP.settled_keeps (hP.settled_stage hfin) ((d.drFinish a word).drRest_after a) (by decide) (by decide))
    (Dev.drGo_keeps _ a 2) (by decide) (by decide)

/-- STOP stops the stage, through its sequencer where that runs. -/
theorem AbsLasts.stopAction (h : P ((d.put F.SC_ABS_LEFT_awaiting k false).setRespDue k none)) : (d.stopAction k).Settled P k := by
  rw [Dev.stopAction]
  generalize (d.put F.SC_ABS_LEFT_awaiting k false).setRespDue k none = e at h ⊢
  split
  · rename_i hc
    obtain ⟨-, hset, -⟩ := hc
    have hmem := Dev.mem_tmStages (Nat.mod_lt k (by decide)) hset
    rw [Nat.div_add_mod] at hmem
    exact hP.tmStop _ _ hmem h
  split
  · rename_i hc
    refine hP.hardStop _ ?_ h
    simp only [chStages, List.mem_cons, List.not_mem_nil, or_false]
    omega
  split
  · rename_i hc
    refine hP.lvStop _ ?_ h
    simp only [List.mem_cons, List.not_mem_nil, or_false]
    omega
  split
  · rename_i hc
    have hk : drStage (k - 15) = k := by
      rw [drStage]
      omega
    have hdr := hP.drStop (k - 15) Code.STALE h
    rwa [hk] at hdr
  · exact hP.settled_stage h

end Settled

end Sys2Proof.Machine
end

section
/-! Stopwork (R115 to R121): its sources, trips and what a held stage shows. Obligation O11. -/

namespace Sys2Proof.Machine

/-! ### The held action at the ports of a stage (R56) -/

theorem Dev.stop_setStop_self (d : Dev) (s : Nat) (v : StopT) : (d.setStop s v).stop s = v :=
  (Tbl.get_set (fun _ => ({} : StopT)) d.cv.stop s s v).trans (if_pos rfl)

theorem Dev.stop_setStop (d : Dev) (s k : Nat) (v : StopT) : (d.setStop s v).stop k = if k = s then v else d.stop k :=
  Tbl.get_set ..

/-- What a port shows once the action has reached it. -/
def Dev.showAction (d : Dev) (p : Nat) (low : Bool) : Dev :=
  ((d.put F.PG_STAT_out_high p false).put F.PG_STAT_out_low p low).put F.PG_STAT_trip_hold p true

theorem Dev.actionAtPort_after (d : Dev) (p : Nat) (low : Bool) : ∃ e : Dev, e.regs = d.regs ∧
    Keeps ⟨false, [], [.pp]⟩ (e.showAction p low) (d.actionAtPort p low) :=
  ⟨d.setPg p { d.pg p with wait := none }, rfl,
    (((Dev.setPort_keeps ..).trans (Dev.setDrv_keeps ..)).trans (Dev.setDrv_keeps ..)).trans (Dev.drivePort_keeps ..)⟩

theorem Dev.actionAtPort_shows (d : Dev) (p : Nat) (low : Bool) :
    (d.actionAtPort p low).flag F.PG_STAT_out_high p = false ∧ (d.actionAtPort p low).flag F.PG_STAT_out_low p = low := by
  obtain ⟨e, -, hafter⟩ := d.actionAtPort_after p low
  have hhigh := (e.flag_put F.PG_STAT_out_high p false (by decide) rfl)
  have hlow := ((e.put F.PG_STAT_out_high p false).flag_put F.PG_STAT_out_low p low (by decide) rfl)
  rw [hafter.flag F.PG_STAT_out_high p (by decide), hafter.flag F.PG_STAT_out_low p (by decide), Dev.showAction,
    Dev.flag_put_apart _ F.PG_STAT_out_high _ _ _ _ (by decide) (by decide),
    Dev.flag_put_apart _ F.PG_STAT_out_high _ _ _ _ (by decide) (by decide),
    Dev.flag_put_apart _ F.PG_STAT_out_low _ _ _ _ (by decide) (by decide)]
  exact ⟨hhigh, hlow⟩

theorem Dev.actionAtPort_stat_of_ne (d : Dev) {p q : Nat} (low : Bool) (hp : p < 64) (hq : q < 64) (h : p ≠ q) :
    (d.actionAtPort q low).word (F.PG_STAT.off p 0) = d.word (F.PG_STAT.off p 0) := by
  have hoff : F.PG_STAT.off p 0 ≠ F.PG_STAT.off q 0 := pgStat_off_ne hp hq h
  obtain ⟨e, he, hafter⟩ := d.actionAtPort_after q low
  have hword : e.word (F.PG_STAT.off p 0) = d.word (F.PG_STAT.off p 0) := by rw [Dev.word, Dev.word, he]
  rw [hafter.toFrame.word F.PG_STAT p (by decide) rfl rfl, Dev.showAction, Dev.word_put_of_off_ne _ F.PG_STAT_trip_hold q true hoff,
    Dev.word_put_of_off_ne _ F.PG_STAT_out_low q low hoff, Dev.word_put_of_off_ne _ F.PG_STAT_out_high q false hoff, hword]

/-- Every port of the stage shows the action. -/
theorem Dev.actionAtStage_shows (d : Dev) (k : Fin 21) (low : Bool) {p : Nat} (hp : p ∈ stagePorts k) :
    (d.actionAtStage k low).flag F.PG_STAT_out_high p = false ∧ (d.actionAtStage k low).flag F.PG_STAT_out_low p = low := by
  obtain ⟨e, -, hlast⟩ := Dev.each_reads_at (f := fun d p => d.actionAtPort p low) (fun d => d.word (F.PG_STAT.off p 0)) hp
    (stagePorts_nodup k) (fun e q hq hne => e.actionAtPort_stat_of_ne low (stagePorts_lt k p hp) (stagePorts_lt k q hq) hne.symm) d
  obtain ⟨hhigh, hlow⟩ := e.actionAtPort_shows p low
  exact ⟨(Dev.flag_eq_of_pgStat_eq hlast F.PG_STAT_out_high rfl).trans hhigh,
    (Dev.flag_eq_of_pgStat_eq hlast F.PG_STAT_out_low rfl).trans hlow⟩

/-! ### A new trip (R56, R118, R120) -/

/-- The marks of a new trip: held, with action and cause, counted. -/
def Dev.tripMarks (d : Dev) (s : Nat) (low : Bool) (causeKind causeIndex : Nat) : Dev :=
  (((((d.put F.WM_SW_STAT_held s true).wr F.WM_SW_STAT_action s (if low then 2 else 1)).wr F.WM_SW_STAT_cause_kind s causeKind).wr
    F.WM_SW_STAT_cause_index s causeIndex).bump F.WM_SW_STAT_count s)

/-- Its time. -/
def Dev.tripTime (d : Dev) (s : Nat) : Dev := d.wr64 F.WM_SW_TIME_LO F.WM_SW_TIME_HI s d.time

/-- Its place in the mask of held stages, and at the stage. -/
def Dev.tripMask (d : Dev) (s : Nat) : Dev := (d.wr F.WM_SW_HELD 0 (d.rd F.WM_SW_HELD 0 ||| 2 ^ s)).put F.TB_STG_STAT_tripped s true

/-- The low switches wait under LOW_ON. -/
def Dev.tripWait (d : Dev) (s : Nat) (low : Bool) : Dev := d.setStop s { d.stop s with lowWait := low }

/-- What a new trip records before its action reaches the ports. -/
def Dev.recordTrip (d : Dev) (s : Nat) (low : Bool) (causeKind causeIndex : Nat) : Dev :=
  ((((d.endRun s).tripMarks s low causeKind causeIndex).tripTime s).tripMask s).tripWait s low

theorem Dev.tripStage_eq (d : Dev) (s : Nat) (low : Bool) (causeKind causeIndex : Nat) :
    ∃ r, d.tripStage s low causeKind causeIndex = ((d.recordTrip s low causeKind causeIndex).actionAtStage s false).post r :=
  ⟨_, rfl⟩

section Record

variable (d : Dev) (s : Nat) (low : Bool) (causeKind causeIndex : Nat)

theorem Dev.tripMarks_keeps : Keeps ⟨false, [F.WM_SW_STAT_held, F.WM_SW_STAT_action, F.WM_SW_STAT_cause_kind, F.WM_SW_STAT_cause_index,
    F.WM_SW_STAT_count], []⟩ d (d.tripMarks s low causeKind causeIndex) :=
  ((((((Dev.put_keeps _ F.WM_SW_STAT_held s true (by decide)).within (by decide)).trans
    ((Dev.wr_keeps _ F.WM_SW_STAT_action s _ (by decide)).within (by decide))).trans
    ((Dev.wr_keeps _ F.WM_SW_STAT_cause_kind s _ (by decide)).within (by decide))).trans
    ((Dev.wr_keeps _ F.WM_SW_STAT_cause_index s _ (by decide)).within (by decide))).trans
    ((Dev.bump_keeps _ F.WM_SW_STAT_count s (by decide)).within (by decide)))

theorem Dev.tripTime_keeps : Keeps ⟨false, [F.WM_SW_TIME_LO, F.WM_SW_TIME_HI], []⟩ d (d.tripTime s) :=
  (Dev.wr64_keeps _ _ _ _ _ (by decide) (by decide)).within (by decide)

theorem Dev.tripMask_keeps : Keeps ⟨false, [F.WM_SW_HELD, F.TB_STG_STAT_tripped], []⟩ d (d.tripMask s) :=
  ((Dev.wr_keeps _ F.WM_SW_HELD 0 _ (by decide)).within (by decide)).trans ((Dev.put_keeps _ F.TB_STG_STAT_tripped s true (by decide)).within (by decide))

theorem Dev.tripWait_keeps : Keeps ⟨false, [], [.cv]⟩ d (d.tripWait s low) := Dev.setStop_keeps ..

/-- What comes after the marks. -/
theorem Dev.recordTrip_after : Keeps ⟨false, [F.WM_SW_TIME_LO, F.WM_SW_TIME_HI, F.WM_SW_HELD, F.TB_STG_STAT_tripped], [.cv]⟩
    ((d.endRun s).tripMarks s low causeKind causeIndex) (d.recordTrip s low causeKind causeIndex) :=
  (((Dev.tripTime_keeps _ s).within (by decide)).trans ((Dev.tripMask_keeps _ s).within (by decide))).trans ((Dev.tripWait_keeps _ s low).within (by decide))

theorem Dev.tripMarks_held {k : Nat} (h : k = s ∨ d.flag F.WM_SW_STAT_held k = true) :
    (d.tripMarks s low causeKind causeIndex).flag F.WM_SW_STAT_held k = true := by
  have hput : (d.put F.WM_SW_STAT_held s true).flag F.WM_SW_STAT_held k = true := by
    rcases h with rfl | h
    · exact Dev.flag_put _ _ _ _ (by decide) rfl
    · exact Dev.flag_put_of_eq _ _ _ (by decide) rfl h
  rw [Dev.tripMarks, Dev.bump_flag_apart _ _ _ _ _ (by decide) (by decide), Dev.flag_wr_apart _ _ _ _ _ _ (by decide) (by decide),
    Dev.flag_wr_apart _ _ _ _ _ _ (by decide) (by decide), Dev.flag_wr_apart _ _ _ _ _ _ (by decide) (by decide), hput]

theorem Dev.tripMarks_action : (d.tripMarks s low causeKind causeIndex).rd F.WM_SW_STAT_action s = if low then 2 else 1 := by
  rw [Dev.tripMarks, Dev.bump_rd_apart _ _ _ _ _ (by decide) (by decide), Dev.rd_wr_apart _ _ _ _ _ _ (by decide) (by decide),
    Dev.rd_wr_apart _ _ _ _ _ _ (by decide) (by decide)]
  exact Dev.rd_wr_of_lt _ _ _ (by decide) (by cases low <;> decide)

theorem Dev.recordTrip_held {k : Nat} (h : k = s ∨ d.flag F.WM_SW_STAT_held k = true) :
    (d.recordTrip s low causeKind causeIndex).flag F.WM_SW_STAT_held k = true := by
  rw [(d.recordTrip_after s low causeKind causeIndex).flag F.WM_SW_STAT_held k (by decide)]
  exact Dev.tripMarks_held _ s low causeKind causeIndex (h.imp_right fun h => ((d.endRun_keeps s).flag _ k (by decide)).trans h)

theorem Dev.tripWait_flag (f : Fd) (i : Nat) : (d.tripWait s low).flag f i = d.flag f i := rfl

theorem Dev.tripTime_shows : (d.tripTime s).rd64 F.WM_SW_TIME_LO F.WM_SW_TIME_HI s = d.time % 2 ^ 64 :=
  Dev.rd64_wr64 _ _ _ _ _ (by decide) (by decide) (by decide)

theorem Dev.recordTrip_tripped : (d.recordTrip s low causeKind causeIndex).flag F.TB_STG_STAT_tripped s = true := by
  rw [Dev.recordTrip, Dev.tripWait_flag, Dev.tripMask]
  exact Dev.flag_put _ _ _ _ (by decide) rfl

theorem Dev.recordTrip_stops : (d.recordTrip s low causeKind causeIndex).flag F.TB_STG_RUN_run s = false := by
  rw [(d.recordTrip_after s low causeKind causeIndex).flag F.TB_STG_RUN_run s (by decide),
    ((d.endRun s).tripMarks_keeps s low causeKind causeIndex).flag F.TB_STG_RUN_run s (by decide)]
  exact (d.endRun_shows s).1

theorem Dev.recordTrip_action : (d.recordTrip s low causeKind causeIndex).rd F.WM_SW_STAT_action s = if low then 2 else 1 := by
  rw [(d.recordTrip_after s low causeKind causeIndex).rd F.WM_SW_STAT_action s (by decide), Dev.tripMarks_action]

theorem Dev.recordTrip_time : (d.recordTrip s low causeKind causeIndex).rd64 F.WM_SW_TIME_LO F.WM_SW_TIME_HI s = d.time % 2 ^ 64 := by
  have hafter : Keeps ⟨false, [F.WM_SW_HELD, F.TB_STG_STAT_tripped], [.cv]⟩ (((d.endRun s).tripMarks s low causeKind causeIndex).tripTime s)
      (d.recordTrip s low causeKind causeIndex) := ((Dev.tripMask_keeps _ s).within (by decide)).trans ((Dev.tripWait_keeps _ s low).within (by decide))
  have htime := ((d.endRun s).tripMarks s low causeKind causeIndex).tripTime_shows s
  rw [((d.endRun s).tripMarks_keeps s low causeKind causeIndex).time, (d.endRun_keeps s).time] at htime
  rw [← htime, Dev.rd64, Dev.rd64, hafter.rd F.WM_SW_TIME_LO s (by decide), hafter.rd F.WM_SW_TIME_HI s (by decide)]

theorem Dev.tripWait_force (k : Nat) : ((d.tripWait s low).stop k).force = (d.stop k).force := by
  rw [Dev.tripWait, Dev.stop_setStop]
  split
  · rename_i h
    rw [h]
  · rfl

theorem Dev.stop_congr {d e : Dev} (h : e.cv = d.cv) (k : Nat) : e.stop k = d.stop k := by rw [Dev.stop, Dev.stop, h]

theorem Dev.recordTrip_force (k : Nat) : ((d.recordTrip s low causeKind causeIndex).stop k).force = (d.stop k).force := by
  rw [Dev.recordTrip, Dev.tripWait_force, Dev.stop_congr ((Dev.tripMask_keeps _ s).parts .cv (by decide)), Dev.stop_congr ((Dev.tripTime_keeps _ s).parts .cv (by decide)),
    Dev.stop_congr ((Dev.tripMarks_keeps ..).parts .cv (by decide)), Dev.stop_congr ((d.endRun_keeps s).parts .cv (by decide))]

/-- After the record come the action at the ports and the report. -/
theorem Dev.tripStage_after : Keeps ⟨false, [F.PG_STAT_out_high, F.PG_STAT_out_low, F.PG_STAT_trip_hold, F.FLT_STAT_lost, F.FLT_LOST],
    [.tb, .pp, .flt]⟩ (d.recordTrip s low causeKind causeIndex) (d.tripStage s low causeKind causeIndex) := by
  obtain ⟨r, hr⟩ := d.tripStage_eq s low causeKind causeIndex
  rw [hr]
  exact ((Dev.actionAtStage_keeps _ s false).within (by decide)).trans ((Dev.post_keeps _ r).within (by decide))

theorem Dev.fenced_post (r : Report) (kind index : Nat) : (d.post r).fenced kind index = d.fenced kind index := by
  unfold Dev.post
  split <;> rfl

theorem Dev.fenced_congr {d e : Dev} (h : e.flt = d.flt) (kind index : Nat) : e.fenced kind index = d.fenced kind index := by
  rw [Dev.fenced, Dev.fenced, h]

theorem Dev.recordTrip_flt : (d.recordTrip s low causeKind causeIndex).flt = d.flt := by
  rw [(d.recordTrip_after s low causeKind causeIndex).parts .flt (by decide), (Dev.tripMarks_keeps ..).parts .flt (by decide),
    (d.endRun_keeps s).parts .flt (by decide)]

theorem Dev.tripStage_fenced (kind index : Nat) : (d.tripStage s low causeKind causeIndex).fenced kind index = d.fenced kind index := by
  obtain ⟨r, hr⟩ := d.tripStage_eq s low causeKind causeIndex
  rw [hr, Dev.fenced_post, Dev.fenced_congr ((Dev.actionAtStage_keeps ..).parts .flt (by decide)), Dev.fenced_congr (d.recordTrip_flt ..)]

theorem Dev.tripStage_force (k : Nat) : ((d.tripStage s low causeKind causeIndex).stop k).force = (d.stop k).force := by
  rw [Dev.stop_congr ((d.tripStage_after ..).parts .cv (by decide)), Dev.recordTrip_force]

theorem Dev.tripStage_held {k : Nat} (h : k = s ∨ d.flag F.WM_SW_STAT_held k = true) :
    (d.tripStage s low causeKind causeIndex).flag F.WM_SW_STAT_held k = true :=
  ((d.tripStage_after ..).flag _ k (by decide)).trans (d.recordTrip_held s low causeKind causeIndex h)

end Record

/-- What a new trip of a stage shows. -/
theorem Dev.tripStage_shows (d : Dev) (k : Fin 21) (low : Bool) (causeKind causeIndex : Nat) :
    let n := d.tripStage k low causeKind causeIndex
    n.flag F.TB_STG_RUN_run k = false ∧ n.flag F.TB_STG_STAT_tripped k = true ∧
      n.rd64 F.WM_SW_TIME_LO F.WM_SW_TIME_HI k = d.time % 2 ^ 64 ∧ n.rd F.WM_SW_STAT_action k = (if low then 2 else 1) ∧
      ∀ p ∈ stagePorts k, n.flag F.PG_STAT_out_high p = false ∧ n.flag F.PG_STAT_out_low p = false := by
  have hafter := d.tripStage_after k low causeKind causeIndex
  obtain ⟨r, hr⟩ := d.tripStage_eq k low causeKind causeIndex
  refine ⟨(hafter.flag _ k (by decide)).trans (d.recordTrip_stops ..), (hafter.flag _ k (by decide)).trans (d.recordTrip_tripped ..), ?_,
    (hafter.rd _ k (by decide)).trans (d.recordTrip_action ..), fun p hp => ?_⟩
  · rw [Dev.rd64, hafter.rd F.WM_SW_TIME_LO k (by decide), hafter.rd F.WM_SW_TIME_HI k (by decide)]
    exact d.recordTrip_time ..
  · obtain ⟨hhigh, hlow⟩ := (d.recordTrip k low causeKind causeIndex).actionAtStage_shows k false hp
    rw [hr, (Dev.post_keeps _ r).flag F.PG_STAT_out_high p (by decide), (Dev.post_keeps _ r).flag F.PG_STAT_out_low p (by decide)]
    exact ⟨hhigh, hlow⟩

/-! ### LOW_ON changes to ALL_OFF (R117) -/

theorem Dev.toAllOff_shows (d : Dev) (k : Fin 21) : (d.toAllOff k).rd F.WM_SW_STAT_action k = 1 ∧
    ∀ p ∈ stagePorts k, (d.toAllOff k).flag F.PG_STAT_out_low p = false := by
  unfold Dev.toAllOff
  dsimp only
  refine ⟨?_, fun p hp => (Dev.actionAtStage_shows _ k false hp).2⟩
  rw [(Dev.actionAtStage_keeps ..).rd F.WM_SW_STAT_action k (by decide)]
  show (d.wr F.WM_SW_STAT_action k 1).rd F.WM_SW_STAT_action k = 1
  exact Dev.rd_wr_of_lt _ _ _ (by decide) (by decide)

theorem Dev.toAllOff_force (d : Dev) (s k : Nat) : ((d.toAllOff s).stop k).force = (d.stop k).force := by
  rw [show d.toAllOff s = ((d.wr F.WM_SW_STAT_action s 1).tripWait s false).actionAtStage s false from rfl,
    Dev.stop_congr ((Dev.actionAtStage_keeps ..).parts .cv (by decide)), Dev.tripWait_force]
  rfl

/-! ### Sources (R115, R116) -/

/-- What arbitration and the commands to it write. -/
def stopworkFoot : Foot :=
  ⟨false, [F.TB_STG_RUN_run, F.TB_STG_STAT_running, F.TB_STG_STAT_tripped, F.PG_STAT_out_high, F.PG_STAT_out_low, F.PG_STAT_trip_hold,
    F.WM_SW_HELD, F.WM_SW_CTRL_cmd, F.WM_SW_CTRL_status, F.WM_SW_STAT_held, F.WM_SW_STAT_action, F.WM_SW_STAT_cause_kind,
    F.WM_SW_STAT_cause_index, F.WM_SW_STAT_count, F.WM_SW_TIME_LO, F.WM_SW_TIME_HI, F.SC_ABS_LEFT_left, F.SC_ABS_LEFT_awaiting,
    F.FLT_STAT_lost, F.FLT_LOST], [.tb, .pp, .cv, .sc, .flt]⟩

/-- No such write changes a source while fences and forces stay. -/
theorem Dev.source_congr {d e : Dev} {k : Nat} {off : Bool} (hk : Keeps stopworkFoot d e)
    (hfenced : ∀ kind index, e.fenced kind index = d.fenced kind index)
    (hforce : (e.stop k).force = some off ↔ (d.stop k).force = some off) : e.source k off = d.source k off := by
  have hwm : e.wmActive = d.wmActive := by
    funext m
    simp (disch := decide) only [Dev.wmActive, hk.rd, hk.flag, hfenced]
  have hpc : e.pcActive = d.pcActive := by
    funext c
    simp (disch := decide) only [Dev.pcActive, hk.rd, hk.flag, hfenced]
  have hin : e.tripInActive = d.tripInActive := by
    funext n
    simp (disch := decide) only [Dev.tripInActive, hk.rd]
  simp (disch := decide) only [Dev.source, hwm, hpc, hin, hk.rd, hk.flag, hfenced, hforce]

theorem Dev.fenced_arbitrate (d : Dev) (s kind index : Nat) : (d.arbitrate s).fenced kind index = d.fenced kind index := by
  unfold Dev.arbitrate
  dsimp only
  split
  · split
    · exact Dev.fenced_congr ((d.toAllOff_keeps s).parts .flt (by decide)) ..
    · rfl
  · split
    · rfl
    · exact d.tripStage_fenced ..

theorem Dev.force_arbitrate (d : Dev) (s k : Nat) : ((d.arbitrate s).stop k).force = (d.stop k).force := by
  unfold Dev.arbitrate
  dsimp only
  split
  · split
    · exact d.toAllOff_force s k
    · rfl
  · split
    · rfl
    · exact d.tripStage_force ..

/-- Arbitration of a stage leaves every source. -/
theorem Dev.source_arbitrate (d : Dev) (s k : Nat) (off : Bool) : (d.arbitrate s).source k off = d.source k off :=
  Dev.source_congr ((d.arbitrate_keeps s).within (by decide)) (d.fenced_arbitrate s) (by rw [d.force_arbitrate])

/-! ### Arbitration (R115 to R121) -/

theorem earlierCause_isSome {a b : Option (Nat × Nat)} (h : (a.isSome || b.isSome) = true) : ∃ k i, earlierCause a b = some (k, i) := by
  rcases a with - | ⟨a1, a2⟩ <;> rcases b with - | ⟨b1, b2⟩
  · cases h
  · exact ⟨_, _, rfl⟩
  · exact ⟨_, _, rfl⟩
  · unfold earlierCause
    dsimp only
    split
    · exact ⟨_, _, rfl⟩
    · exact ⟨_, _, rfl⟩

/-- A stage with a source is tripped, where it is not held. -/
theorem Dev.arbitrate_of_source (d : Dev) (s : Nat) (hfree : d.flag F.WM_SW_STAT_held s = false)
    (h : ((d.source s true).isSome || (d.source s false).isSome) = true) :
    ∃ k i, d.arbitrate s = d.tripStage s ((d.source s true).isNone && d.lowOnAction s) k i := by
  obtain ⟨k, i, hcause⟩ := earlierCause_isSome h
  refine ⟨k, i, ?_⟩
  unfold Dev.arbitrate
  simp only [hfree, hcause, Bool.false_eq_true, if_false]

theorem Dev.arbitrate_of_held (d : Dev) (s : Nat) (hheld : d.flag F.WM_SW_STAT_held s = true) : d.arbitrate s =
    if (d.source s true).isSome && d.rd F.WM_SW_STAT_action s == 2 then d.toAllOff s else d := by
  unfold Dev.arbitrate
  simp only [hheld, if_true]

theorem Dev.arbitrate_keeps_held (d : Dev) (s : Nat) {k : Nat} (h : d.flag F.WM_SW_STAT_held k = true) :
    (d.arbitrate s).flag F.WM_SW_STAT_held k = true := by
  unfold Dev.arbitrate
  dsimp only
  split
  · split
    · exact ((d.toAllOff_keeps s).flag _ k (by decide)).trans h
    · exact h
  · split
    · exact h
    · exact d.tripStage_held _ _ _ _ (.inr h)

theorem Dev.arbitrate_holds (d : Dev) (s : Nat) (h : ((d.source s true).isSome || (d.source s false).isSome) = true) :
    (d.arbitrate s).flag F.WM_SW_STAT_held s = true := by
  by_cases hheld : d.flag F.WM_SW_STAT_held s = true
  · exact d.arbitrate_keeps_held s hheld
  · obtain ⟨k, i, harb⟩ := d.arbitrate_of_source s (by simpa using hheld) h
    rw [harb]
    exact d.tripStage_held _ _ _ _ (.inl rfl)

/-- After stopwork has seen the sources every stage with one is held. -/
theorem Dev.stopwork_holds (d : Dev) (k : Fin 21) (h : ((d.stopwork.source k true).isSome || (d.stopwork.source k false).isSome) = true) :
    d.stopwork.flag F.WM_SW_STAT_held k = true := by
  have hsource : ∀ off, d.stopwork.source k off = d.source k off := fun off =>
    Dev.each_reads_same (f := Dev.arbitrate) (fun d => d.source k off) (fun e s _ => e.source_arbitrate s k off) d
  rw [hsource, hsource] at h
  refine Dev.each_reaches_of (I := fun e => ∀ off, e.source k off = d.source k off) (P := fun e => e.flag F.WM_SW_STAT_held k = true)
    (p := k) (List.mem_range.mpr k.isLt) (fun e s _ hI off => ?_) (fun e hI => ?_) (fun e s _ => e.arbitrate_keeps_held s) d fun _ => rfl
  · rw [e.source_arbitrate, hI]
  · exact e.arbitrate_holds k (by rwa [hI, hI])

/-! ### Forces (R115) -/

/-- A forced stage before it is arbitrated. -/
def Dev.forced (d : Dev) (k : Nat) (off : Bool) : Dev :=
  let d := (d.wr F.WM_SW_CTRL_cmd k (if off then 2 else 1)).wr F.WM_SW_CTRL_status k Code.OK
  d.setStop k { d.stop k with force := some (off || (d.stop k).force == some true) }

theorem Dev.force_eq (d : Dev) (k : Nat) (off : Bool) : d.force k off = (d.forced k off).arbitrate k := rfl

theorem Dev.forced_keeps (d : Dev) (k : Nat) (off : Bool) :
    Keeps ⟨false, [F.WM_SW_CTRL_cmd, F.WM_SW_CTRL_status], [.cv]⟩ d (d.forced k off) :=
  (((Dev.wr_keeps _ F.WM_SW_CTRL_cmd k _ (by decide)).within (by decide)).trans ((Dev.wr_keeps _ F.WM_SW_CTRL_status k _ (by decide)).within (by decide))).trans
    ((Dev.setStop_keeps ..).within (by decide))

theorem Dev.forced_status (d : Dev) (k : Nat) (off : Bool) : (d.forced k off).rd F.WM_SW_CTRL_status k = Code.OK :=
  (d.wr F.WM_SW_CTRL_cmd k (if off then 2 else 1)).rd_wr F.WM_SW_CTRL_status k Code.OK (by decide)

theorem Dev.forced_force (d : Dev) (k : Nat) (off : Bool) :
    ((d.forced k off).stop k).force = some (off || (d.stop k).force == some true) :=
  congrArg StopT.force (Dev.stop_setStop_self ..)

/-- A force is a source. -/
theorem Dev.source_of_force {d : Dev} {k : Nat} {off : Bool} (h : (d.stop k).force = some off) : (d.source k off).isSome = true := by
  unfold Dev.source
  dsimp only
  split
  · rfl
  · split
    · rfl
    · split
      · rfl
      · rw [if_pos h]
        rfl

theorem Dev.forced_source (d : Dev) (k : Nat) (off : Bool) :
    (((d.forced k off).source k true).isSome || ((d.forced k off).source k false).isSome) = true := by
  have hsource := Dev.source_of_force (d.forced_force k off)
  generalize (off || (d.stop k).force == some true) = b at hsource
  cases b
  · rw [hsource, Bool.or_true]
  · rw [hsource, Bool.true_or]

/-- Where no source takes ALL_OFF, FORCE_ACT makes none. -/
theorem Dev.forced_act_source (d : Dev) (k : Nat) (h : d.source k true = none) : (d.forced k false).source k true = none := by
  have hfree : (d.stop k).force ≠ some true := fun hc => by
    have hsome := Dev.source_of_force hc
    rw [h] at hsome
    cases hsome
  have hk := d.forced_keeps k false
  rw [Dev.source_congr (hk.within (by decide)) (Dev.fenced_congr (hk.parts .flt (by decide))) ?_, h]
  rw [d.forced_force]
  simp [hfree]

theorem Dev.forced_held (d : Dev) (k : Nat) (off : Bool) : (d.forced k off).flag F.WM_SW_STAT_held k = d.flag F.WM_SW_STAT_held k :=
  (d.forced_keeps k off).flag _ k (by decide)

/-- A force of a stage that is not held is a new trip. -/
theorem Dev.force_trips (d : Dev) (k : Nat) (off : Bool) (hfree : d.flag F.WM_SW_STAT_held k = false) : ∃ c i,
    d.force k off = (d.forced k off).tripStage k (((d.forced k off).source k true).isNone && d.lowOnAction k) c i := by
  obtain ⟨c, i, harb⟩ := (d.forced k off).arbitrate_of_source k ((d.forced_held k off).trans hfree) (d.forced_source k off)
  refine ⟨c, i, ?_⟩
  rw [d.force_eq, harb, Dev.lowOnAction, Dev.lowOnAction, (d.forced_keeps k off).rd F.WM_SW_ACT_action k (by decide)]

/-- What every force shows. -/
theorem Dev.force_shows (d : Dev) (k : Nat) (off : Bool) :
    (d.force k off).rd F.WM_SW_CTRL_status k = Code.OK ∧ (d.force k off).flag F.WM_SW_STAT_held k = true := by
  rw [d.force_eq, ((d.forced k off).arbitrate_keeps k).rd F.WM_SW_CTRL_status k (by decide)]
  exact ⟨d.forced_status k off, (d.forced k off).arbitrate_holds k (d.forced_source k off)⟩

/-- FORCE_OFF of a stage that is not held, or holds LOW_ON. -/
theorem Dev.force_off_shows (d : Dev) (k : Fin 21) (h : d.flag F.WM_SW_STAT_held k = false ∨ d.rd F.WM_SW_STAT_action k = 2) :
    (d.force k true).rd F.WM_SW_STAT_action k = 1 ∧ ∀ p ∈ stagePorts k, (d.force k true).flag F.PG_STAT_out_low p = false := by
  have hsource : ((d.forced k true).source k true).isSome = true := Dev.source_of_force (d.forced_force k true)
  by_cases hheld : d.flag F.WM_SW_STAT_held k = true
  · have hlow : (d.forced k true).rd F.WM_SW_STAT_action k = 2 :=
      ((d.forced_keeps k true).rd _ k (by decide)).trans (h.resolve_left (by simp [hheld]))
    rw [d.force_eq, (d.forced k true).arbitrate_of_held k ((d.forced_held k true).trans hheld), hsource, hlow]
    exact (d.forced k true).toAllOff_shows k
  · obtain ⟨c, i, htrip⟩ := d.force_trips k true (by simpa using hheld)
    rw [Option.isNone_eq_false_iff.mpr hsource, Bool.false_and] at htrip
    obtain ⟨-, -, -, haction, hports⟩ := (d.forced k true).tripStage_shows k false c i
    rw [htrip]
    exact ⟨haction, fun p hp => (hports p hp).2⟩

/-! ### Release (R120) -/

theorem firstSet_eq_none {n mask : Nat} {f : Nat → Bool} : firstSet n mask f = none ↔ ∀ m < n, (bitOf mask m && f m) = false := by
  simp [firstSet, List.find?_eq_none]

/-- A first source that does not keep a trip from release: none, or a force. -/
def quietSource : Option (Nat × Nat) → Bool
  | none => true
  | some (k, _) => k == 4

theorem Dev.mayRelease_eq (d : Dev) (k : Nat) : d.mayRelease k =
    (quietSource (d.source k true) && quietSource (d.source k false) && !d.fenced Kind.stage k && !d.flag F.FLT_SAFE_safe 0) := rfl

theorem Dev.quietSource_source (d : Dev) {k : Nat} (hf : d.fenced Kind.stage k = false) (hs : d.flag F.FLT_SAFE_safe 0 = false) (off : Bool) :
    quietSource (d.source k off) = true ↔
      (∀ m < 24, (bitOf (if off then d.rd F.WM_SW_WM_OFF_mask k else d.rd F.WM_SW_WM_ACT_mask k) m && d.wmActive m) = false) ∧
      (∀ c < 28, (bitOf (if off then d.rd F.WM_SW_PC_OFF_mask k else d.rd F.WM_SW_PC_ACT_mask k) c && d.pcActive c) = false) ∧
      ∀ i < 4, (bitOf (if off then d.rd F.WM_SW_IN_off k else d.rd F.WM_SW_IN_act k) i && d.tripInActive i) = false := by
  rw [← firstSet_eq_none, ← firstSet_eq_none, ← firstSet_eq_none]
  unfold Dev.source
  dsimp only
  split
  · rename_i hwm
    simp [quietSource, hwm]
  · rename_i hwm
    split
    · rename_i hpc
      simp [quietSource, hpc]
    · rename_i hpc
      split
      · rename_i hin
        simp [quietSource, hin]
      · rename_i hin
        simp only [hwm, hpc, hin, hf, hs, and_self, iff_true]
        split
        · rfl
        · cases off <;> rfl

/-- The two masks of a stage route a source where one of them does. -/
theorem routed_iff {a b x : Bool} : ((a && x) = false ∧ (b && x) = false) ↔ ((a || b) = true → x = false) := by
  cases a <;> cases b <;> simp

/-- A comparator output with its route, as nothingHolds writes it. -/
theorem route_output {route fence : Bool} {mode latch live : Nat} :
    (route && ((if (mode == 2) = true then latch == 1 else live == 1) || fence)) =
      (route && (fence || if mode = 2 then latch == 1 else live == 1)) := by
  simp only [beq_iff_eq, Bool.or_comm]

/-- R120: nothing holds a stage that may be released, and no other one may. -/
theorem Dev.mayRelease_iff (d : Dev) (k : Nat) : d.mayRelease k = true ↔ d.nothingHolds k := by
  have hwm : ∀ m, d.wmActive m = false ↔ _ := fun m => Bool.or_eq_false_iff
  have hpc : ∀ c, d.pcActive c = false ↔ _ := fun c => Bool.or_eq_false_iff
  unfold Dev.nothingHolds
  simp only [Bool.and_eq_true, Bool.not_eq_true', d.mayRelease_eq, ← route_output]
  constructor
  · rintro ⟨⟨⟨hoff, hact⟩, hf⟩, hs⟩
    obtain ⟨hwmOff, hpcOff, hinOff⟩ := (d.quietSource_source hf hs true).mp hoff
    obtain ⟨hwmAct, hpcAct, hinAct⟩ := (d.quietSource_source hf hs false).mp hact
    exact ⟨fun m hm hr => (hwm m).mp (routed_iff.mp ⟨hwmOff m hm, hwmAct m hm⟩ hr),
      fun c hc hr => (hpc c).mp (routed_iff.mp ⟨hpcOff c hc, hpcAct c hc⟩ hr),
      fun i hi hr => routed_iff.mp ⟨hinOff i hi, hinAct i hi⟩ hr, hf, hs⟩
  · rintro ⟨hwms, hpcs, hins, hf, hs⟩
    have hwm' := fun m hm => routed_iff.mpr fun hr => (hwm m).mpr (hwms m hm hr)
    have hpc' := fun c hc => routed_iff.mpr fun hr => (hpc c).mpr (hpcs c hc hr)
    have hin' := fun i hi => routed_iff.mpr (hins i hi)
    exact ⟨⟨⟨(d.quietSource_source hf hs true).mpr ⟨fun m hm => (hwm' m hm).1, fun c hc => (hpc' c hc).1, fun i hi => (hin' i hi).1⟩,
      (d.quietSource_source hf hs false).mpr ⟨fun m hm => (hwm' m hm).2, fun c hc => (hpc' c hc).2, fun i hi => (hin' i hi).2⟩⟩, hf⟩, hs⟩

/-- The command of a release, with the force it ends. -/
def Dev.unforce (d : Dev) (k : Nat) : Dev :=
  ((d.wr F.WM_SW_CTRL_cmd k 3).wr F.WM_SW_CTRL_status k Code.OK).pipe fun d => d.setStop k { d.stop k with force := none }

/-- The stage is no longer held. -/
def Dev.unhold (d : Dev) (k : Nat) : Dev := (d.put F.WM_SW_STAT_held k false).put F.TB_STG_STAT_tripped k false

/-- Nor in the mask of held stages. -/
def Dev.unmask (d : Dev) (k : Nat) : Dev := d.wr F.WM_SW_HELD 0 (d.rd F.WM_SW_HELD 0 &&& (2 ^ 21 - 1 - 2 ^ k))

theorem Dev.release_of_may (d : Dev) (k : Nat) (h : d.mayRelease k = true) : d.release k = ((d.unforce k).unhold k).unmask k := by
  unfold Dev.release
  rw [if_pos h]
  rfl

theorem Dev.release_of_not_may (d : Dev) (k : Nat) (h : ¬ d.mayRelease k = true) :
    d.release k = d.reject .sc (F.WM_SW_CTRL.off k 0) Reason.value 3 := by
  unfold Dev.release
  rw [if_neg h]

section Release

variable (d : Dev) (k : Nat)

theorem Dev.unhold_keeps : Keeps ⟨false, [F.WM_SW_STAT_held, F.TB_STG_STAT_tripped], []⟩ d (d.unhold k) :=
  ((Dev.put_keeps _ F.WM_SW_STAT_held k false (by decide)).within (by decide)).trans ((Dev.put_keeps _ F.TB_STG_STAT_tripped k false (by decide)).within (by decide))

theorem Dev.unmask_keeps : Keeps ⟨false, [F.WM_SW_HELD], []⟩ d (d.unmask k) := Dev.wr_keeps _ F.WM_SW_HELD 0 _ (by decide)

theorem Dev.unforce_shows : (d.unforce k).rd F.WM_SW_CTRL_status k = Code.OK ∧ ((d.unforce k).stop k).force = none :=
  ⟨(d.wr F.WM_SW_CTRL_cmd k 3).rd_wr F.WM_SW_CTRL_status k Code.OK (by decide), congrArg StopT.force (Dev.stop_setStop_self ..)⟩

theorem Dev.unhold_shows : (d.unhold k).flag F.WM_SW_STAT_held k = false ∧ (d.unhold k).flag F.TB_STG_STAT_tripped k = false := by
  rw [Dev.unhold, Dev.flag_put_apart _ F.WM_SW_STAT_held _ _ _ _ (by decide) (by decide)]
  exact ⟨Dev.flag_put _ _ _ _ (by decide) rfl, Dev.flag_put _ _ _ _ (by decide) rfl⟩

theorem Dev.unmask_shows (hk : k < 21) : bitOf ((d.unmask k).rd F.WM_SW_HELD 0) k = false := by
  have hcut : (2 ^ 21 - 1 - 2 ^ k).testBit k = false := by
    interval_cases k <;> decide
  rw [bitOf_eq_testBit, Dev.unmask, Dev.rd_wr _ _ _ _ (by decide), Nat.testBit_mod_two_pow, Nat.testBit_and, hcut]
  simp

end Release

/-! ### The trip inputs (R115) -/

/-- A trip input's level, recorded. -/
def Dev.noteTripIn (d : Dev) (n : Nat) (active : Bool) : Dev :=
  let d := d.wr F.WM_SW_IN_STAT_live 0
    (if active then d.rd F.WM_SW_IN_STAT_live 0 ||| 2 ^ n else d.rd F.WM_SW_IN_STAT_live 0 &&& (15 - 2 ^ n))
  if active then d.wr F.WM_SW_IN_STAT_seen 0 (d.rd F.WM_SW_IN_STAT_seen 0 ||| 2 ^ n) else d

theorem Dev.tripIn_eq (d : Dev) (n : Nat) (level : Bool) :
    d.tripIn n level = (d.noteTripIn n (level == bitOf (d.rd F.WM_SW_IN_CFG 0) (8 * n + 1))).stopwork := rfl

theorem Dev.noteTripIn_shows (d : Dev) (n : Fin 4) (active : Bool) :
    bitOf ((d.noteTripIn n active).rd F.WM_SW_IN_STAT_live 0) n = active ∧
      (active = true → bitOf ((d.noteTripIn n active).rd F.WM_SW_IN_STAT_seen 0) n = true) := by
  have hn : (n : Nat) < 4 := n.isLt
  have hcut : (15 - 2 ^ (n : Nat)).testBit n = false := by revert n; decide
  simp only [bitOf_eq_testBit]
  cases active
  · refine ⟨?_, fun h => by cases h⟩
    simp only [Dev.noteTripIn, Bool.false_eq_true, if_false]
    rw [Dev.rd_wr _ _ _ _ (by decide), Nat.testBit_mod_two_pow, Nat.testBit_and, hcut]
    simp
  · simp only [Dev.noteTripIn, if_true, forall_const]
    rw [Dev.rd_wr_apart _ F.WM_SW_IN_STAT_live _ _ _ _ (by decide) (by decide), Dev.rd_wr _ _ _ _ (by decide), Dev.rd_wr _ _ _ _ (by decide),
      Nat.testBit_mod_two_pow, Nat.testBit_mod_two_pow, Nat.testBit_or, Nat.testBit_or, Nat.testBit_two_pow_self]
    simp [F.WM_SW_IN_STAT_live, F.WM_SW_IN_STAT_seen, hn]

/-- Settles O11: a source that holds a stage trips it, and a trip shows what its action is. -/
theorem stopwork : Obligations.Stopwork := by
  unfold Obligations.Stopwork
  intro s t d
  refine ⟨?input, ?lowDelay, ?force, ?release⟩
  case input =>
    intro i level since active filt
    have hexec : exec (.tripInChange t i ⟨level, since⟩) s = effect t s fun d =>
        if since + 4 * getBits (d.word (F.WM_SW_IN_CFG.off 0 0)) (8 * i + 2) 4 ≤ d.time then d.tripIn i level else d := rfl
    refine ⟨fun hearly => Does.of_effect hexec ?_, fun hlasted => Does.of_effect hexec ?_⟩
    · rw [if_neg (Nat.not_le.mpr hearly)]
    · rw [if_pos hlasted, Dev.tripIn_eq]
      obtain ⟨hlive, hseen⟩ := d.noteTripIn_shows i active
      have hwork := (d.noteTripIn i active).stopwork_keeps
      rw [hwork.rd F.WM_SW_IN_STAT_live 0 (by decide), hwork.rd F.WM_SW_IN_STAT_seen 0 (by decide)]
      exact ⟨hlive, hseen, fun k hk => (d.noteTripIn i active).stopwork_holds k hk⟩
  case lowDelay =>
    intro k hwait haction hdue
    refine Does.of_effect (show exec _ s = execLowDelayExpiry t k s from rfl) ?_
    have hready : ((d.stop k).lowWait && d.rd F.WM_SW_STAT_action k == 2 &&
        Nat.ble (d.rd64 F.WM_SW_TIME_LO F.WM_SW_TIME_HI k + 8 * d.rd F.WM_SW_ACT_low_delay k) d.time) = true := by
      simp [hwait, haction, hdue]
    dsimp only
    rw [if_pos hready]
    refine ⟨?_, fun p hp => (Dev.actionAtStage_shows _ k true hp).symm⟩
    rw [Dev.stop_congr ((Dev.actionAtStage_keeps _ k true).parts .cv (by decide)), Dev.stop_setStop_self]
  case force =>
    intro k c off hc hfw
    refine Does.of_firmware (f := fun d => d.force k off) (by rcases hc with ⟨rfl, rfl⟩ | ⟨rfl, rfl⟩ <;> rfl) hfw ?_
    obtain ⟨hstatus, hheld⟩ := d.force_shows k off
    have htime := (d.forced_keeps k off).time
    refine ⟨hstatus, hheld, fun hfree => ?_, ?_, ?_⟩
    · obtain ⟨c, i, htrip⟩ := d.force_trips k off hfree
      obtain ⟨hrun, htripped, hat, -, hports⟩ := (d.forced k off).tripStage_shows k
        (((d.forced k off).source k true).isNone && d.lowOnAction k) c i
      rw [htime] at hat
      rw [htrip]
      exact ⟨hrun, htripped, hat, fun p hp => (hports p hp).1⟩
    · rintro rfl h
      exact d.force_off_shows k h
    · rintro rfl hfree hnone
      obtain ⟨c, i, htrip⟩ := d.force_trips k false hfree
      rw [d.forced_act_source k hnone, Option.isNone_none, Bool.true_and] at htrip
      obtain ⟨-, -, -, haction, -⟩ := (d.forced k false).tripStage_shows k (d.lowOnAction k) c i
      rw [htrip]
      exact haction
  case release =>
    intro k hfw
    refine ⟨fun hfree => Does.of_firmware (f := fun d => d.release k) rfl hfw ?_,
      fun hheld => Does.of_firmware (f := fun d => d.release k) rfl hfw ?_⟩
    · rw [d.release_of_may k ((d.mayRelease_iff k).mpr hfree)]
      obtain ⟨hstatus, hforce⟩ := d.unforce_shows k
      obtain ⟨hunheld, huntripped⟩ := (d.unforce k).unhold_shows k
      have hhold := (d.unforce k).unhold_keeps k
      have hmask := ((d.unforce k).unhold k).unmask_keeps k
      refine ⟨(hmask.flag _ k (by decide)).trans hunheld, (hmask.flag _ k (by decide)).trans huntripped, ?_,
        Dev.unmask_shows _ k k.isLt, ?_⟩
      · rw [Dev.stop_congr (hmask.parts .cv (by decide)), Dev.stop_congr (hhold.parts .cv (by decide)), hforce]
      · rw [hmask.rd F.WM_SW_CTRL_status k (by decide), hhold.rd F.WM_SW_CTRL_status k (by decide), hstatus]
    · rw [d.release_of_not_may k (mt (d.mayRelease_iff k).mp hheld)]
      have hreject := d.reject_keeps .sc (F.WM_SW_CTRL.off k 0) Reason.value 3
      exact ⟨hreject.flag _ k (by decide), hreject.rd _ 0 (by decide), Dev.stop_congr (hreject.parts .cv (by decide)) k,
        fun hv => d.reject_records .sc _ _ _ hv (by decide)⟩

end Sys2Proof.Machine
end

section
/-! The absence policy of a stage (R283, R284); obligation O30. -/

namespace Sys2Proof.Machine

/-! ### Restarts and expiries (R283, R284) -/

/-- What a restart of an absence timer clears first. -/
def Dev.absClear (d : Dev) (k : Nat) : Dev := ((d.setRespDue k none).put F.SC_ABS_LEFT_expired k false).put F.SC_ABS_LEFT_awaiting k false

theorem Dev.absClear_keeps (d : Dev) (k : Nat) : Keeps ⟨false, [F.SC_ABS_LEFT_expired, F.SC_ABS_LEFT_awaiting], [.sc]⟩ d (d.absClear k) :=
  (((Dev.setRespDue_keeps ..).within (by decide)).trans ((Dev.put_keeps _ F.SC_ABS_LEFT_expired k false (by decide)).within (by decide))).trans
    ((Dev.put_keeps _ F.SC_ABS_LEFT_awaiting k false (by decide)).within (by decide))

theorem Dev.absClear_decided (d : Dev) (k : Nat) : (d.absClear k).Decided k := by
  have hflag := Dev.flag_put ((d.setRespDue k none).put F.SC_ABS_LEFT_expired k false) F.SC_ABS_LEFT_awaiting k false (by decide) rfl
  exact ⟨hflag, (Dev.respDue_setRespDue ..).trans (if_pos rfl)⟩

/-- A restart of the timer of an enabled stage. -/
theorem Dev.absStart_shows (d : Dev) (k : Nat) (hen : d.flag F.SC_ABS_CFG_enable k = true) :
    (d.absStart k).absDue k = some (d.time + 80000 * d.rd F.SC_ABS_CFG_timeout k) ∧ (d.absStart k).Decided k := by
  have hc := d.absClear_keeps k
  have hdecided := d.absClear_decided k
  have hstart : d.absStart k = (d.absClear k).setAbsDue k (some (d.time + 80000 * d.rd F.SC_ABS_CFG_timeout k)) := by
    rw [← hc.time, ← hc.rd F.SC_ABS_CFG_timeout k (by decide)]
    exact if_pos ((hc.flag F.SC_ABS_CFG_enable k (by decide)).trans hen)
  rw [hstart]
  exact ⟨(Dev.absDue_setAbsDue ..).trans (if_pos rfl), hdecided⟩

/-- What the command of the firmware leaves before it takes effect. -/
def Dev.absCommanded (d : Dev) (k cmd : Nat) : Dev := (d.wr F.SC_ABS_CTRL_cmd k cmd).wr F.SC_ABS_CTRL_status k Code.OK

theorem Dev.absCommanded_keeps (d : Dev) (k cmd : Nat) :
    Keeps ⟨false, [F.SC_ABS_CTRL_cmd, F.SC_ABS_CTRL_status], []⟩ d (d.absCommanded k cmd) :=
  ((Dev.wr_keeps _ F.SC_ABS_CTRL_cmd k cmd (by decide)).within (by decide)).trans ((Dev.wr_keeps _ F.SC_ABS_CTRL_status k _ (by decide)).within (by decide))

theorem Dev.absCommanded_status (d : Dev) (k cmd : Nat) : (d.absCommanded k cmd).rd F.SC_ABS_CTRL_status k = Code.OK :=
  Dev.rd_wr _ _ _ _ (by decide)

theorem Dev.absCommand_stop (d : Dev) (k : Nat) : d.absCommand k 3 = (d.absCommanded k 3).stopAction k := by
  simp [Dev.absCommand, Dev.absCommanded]

/-- KICK and CONTINUE of an enabled stage that runs. -/
theorem Dev.absCommand_restarts (d : Dev) {k cmd : Nat} (hcmd : cmd = 1 ∨ cmd = 2 ∧ d.flag F.SC_ABS_LEFT_awaiting k = true)
    (hen : d.flag F.SC_ABS_CFG_enable k = true) (hrun : d.flag F.TB_STG_RUN_run k = true) :
    d.absCommand k cmd = (d.absCommanded k cmd).absStart k := by
  have hgo : ¬(cmd = 0 ∨ (cmd = 1 ∧ d.flag F.SC_ABS_CFG_enable k = false) ∨ (cmd = 2 ∧ d.flag F.SC_ABS_LEFT_awaiting k = false)) := by
    rcases hcmd with rfl | ⟨rfl, hawaiting⟩
    · simp [hen]
    · simp [hawaiting]
  have hrun' := ((d.absCommanded_keeps k cmd).flag F.TB_STG_RUN_run k (by decide)).trans hrun
  have hstop : cmd ≠ 3 := by omega
  rw [Dev.absCommand, if_neg hgo, if_neg hstop]
  change (d.absCommanded k cmd).absRestart [k] = _
  rw [Dev.absRestart, List.filter_cons_of_pos hrun']
  rfl

/-- What they show. -/
theorem Dev.absCommand_restarts_shows (d : Dev) {k cmd : Nat} (hcmd : cmd = 1 ∨ cmd = 2 ∧ d.flag F.SC_ABS_LEFT_awaiting k = true)
    (hen : d.flag F.SC_ABS_CFG_enable k = true) (hrun : d.flag F.TB_STG_RUN_run k = true) :
    (d.absCommand k cmd).absDue k = some (d.time + 80000 * d.rd F.SC_ABS_CFG_timeout k) ∧ (d.absCommand k cmd).Decided k ∧
      (d.absCommand k cmd).rd F.SC_ABS_CTRL_status k = Code.OK ∧ (d.absCommand k cmd).flag F.TB_STG_RUN_run k = true := by
  have hc := d.absCommanded_keeps k cmd
  have hs := (d.absCommanded k cmd).absStart_keeps k
  obtain ⟨hdue, hdecided⟩ := (d.absCommanded k cmd).absStart_shows k ((hc.flag _ k (by decide)).trans hen)
  rw [hc.time, hc.rd F.SC_ABS_CFG_timeout k (by decide)] at hdue
  rw [d.absCommand_restarts hcmd hen hrun]
  exact ⟨hdue, hdecided, (hs.rd _ k (by decide)).trans (d.absCommanded_status k cmd),
    (hs.flag _ k (by decide)).trans ((hc.flag _ k (by decide)).trans hrun)⟩

/-- A command that is rejected leaves the safety controller's timers. -/
theorem Dev.absCommand_kick_disabled (d : Dev) (k : Nat) (hen : d.flag F.SC_ABS_CFG_enable k = false) :
    (d.absCommand k 1).absDue k = d.absDue k := by
  have hreject : d.absCommand k 1 = d.reject .sc (F.SC_ABS_CTRL.off k 0) Reason.value (BitVec.ofNat 32 1) := by
    simp [Dev.absCommand, hen]
  rw [hreject, Dev.absDue, (d.reject_keeps ..).parts .sc (by decide)]
  rfl

/-! ### Expiry (R284) -/

/-- What an expiry records before its action. -/
def Dev.absExpired (d : Dev) (k : Nat) : Dev :=
  (((d.setAbsDue k none).wr F.SC_ABS_LEFT_left k 0).put F.SC_ABS_LEFT_expired k true).reportOpen Kind.stage k Cls.report Code.STALE

theorem Dev.absExpired_keeps (d : Dev) (k : Nat) :
    Keeps ⟨false, [F.SC_ABS_LEFT_left, F.SC_ABS_LEFT_expired, F.FLT_STAT_lost, F.FLT_LOST], [.sc, .flt]⟩ d (d.absExpired k) :=
  ((((Dev.setAbsDue_keeps ..).within (by decide)).trans ((Dev.wr_keeps _ F.SC_ABS_LEFT_left k 0 (by decide)).within (by decide))).trans
    ((Dev.put_keeps _ F.SC_ABS_LEFT_expired k true (by decide)).within (by decide))).trans ((Dev.reportOpen_keeps ..).within (by decide))

theorem Dev.absExpired_shows (d : Dev) (k : Nat) :
    (d.absExpired k).absDue k = none ∧ (d.absExpired k).flag F.SC_ABS_LEFT_expired k = true ∧ (d.absExpired k).sc.wfi = d.sc.wfi := by
  have hreport := (((d.setAbsDue k none).wr F.SC_ABS_LEFT_left k 0).put F.SC_ABS_LEFT_expired k true).reportOpen_keeps Kind.stage k
    Cls.report Code.STALE
  have hsc : (d.absExpired k).sc = (d.setAbsDue k none).sc := hreport.parts .sc (by decide)
  refine ⟨?_, ?_, by rw [hsc]; rfl⟩
  · rw [Dev.absDue, hsc]
    exact (Dev.absDue_setAbsDue d k k none).trans (if_pos rfl)
  · rw [Dev.absExpired, hreport.flag F.SC_ABS_LEFT_expired k (by decide)]
    exact Dev.flag_put _ _ _ _ (by decide) rfl

/-- NOTIFY asks the firmware. -/
def Dev.askFirmware (d : Dev) (k : Nat) : Dev :=
  (d.put F.SC_ABS_LEFT_awaiting k true).setRespDue k (some (d.time + 80000 * d.rd F.SC_ABS_CFG_resp_time k))

theorem Dev.askFirmware_keeps (d : Dev) (k : Nat) : Keeps ⟨false, [F.SC_ABS_LEFT_awaiting], [.sc]⟩ d (d.askFirmware k) :=
  ((Dev.put_keeps _ F.SC_ABS_LEFT_awaiting k true (by decide)).within (by decide)).trans ((Dev.setRespDue_keeps ..).within (by decide))

theorem Dev.askFirmware_shows (d : Dev) (k : Nat) : (d.askFirmware k).flag F.SC_ABS_LEFT_awaiting k = true ∧
    (d.askFirmware k).respDue k = some (d.time + 80000 * d.rd F.SC_ABS_CFG_resp_time k) ∧ (d.askFirmware k).absDue k = d.absDue k ∧
      (d.askFirmware k).sc.wfi = d.sc.wfi := by
  have hflag := d.flag_put F.SC_ABS_LEFT_awaiting k true (by decide) rfl
  exact ⟨hflag, (Dev.respDue_setRespDue ..).trans (if_pos rfl), rfl, rfl⟩

/-- An interrupt that wakes the copies leaves the timers. -/
theorem Dev.raiseRequest_shows (d : Dev) (k : Nat) : d.raiseRequest.absDue k = d.absDue k ∧ d.raiseRequest.respDue k = d.respDue k ∧
    (d.sc.wfi = false → d.raiseRequest.flt.request = true) := by
  unfold Dev.raiseRequest Dev.wakeCopies
  split
  · rename_i h
    refine ⟨rfl, rfl, fun hw => ?_⟩
    rw [show (d.withFlt { d.flt with request := true }).sc = d.sc from rfl, hw] at h
    cases h
  · exact ⟨rfl, rfl, fun _ => rfl⟩

theorem Dev.notify_shows (d : Dev) (k : Nat) : let n := (d.askFirmware k).raiseRequest
    n.absDue k = d.absDue k ∧ n.flag F.SC_ABS_LEFT_awaiting k = true ∧
      n.respDue k = some (d.time + 80000 * d.rd F.SC_ABS_CFG_resp_time k) ∧ (d.sc.wfi = false → n.flt.request = true) ∧
      n.flag F.TB_STG_RUN_run k = d.flag F.TB_STG_RUN_run k ∧ n.flag F.SC_ABS_LEFT_expired k = d.flag F.SC_ABS_LEFT_expired k := by
  have hraise := (d.askFirmware k).raiseRequest_keeps
  have hask := d.askFirmware_keeps k
  obtain ⟨hawaiting, hresp, hdue, hwfi⟩ := d.askFirmware_shows k
  obtain ⟨hdue', hresp', hrequest⟩ := (d.askFirmware k).raiseRequest_shows k
  exact ⟨hdue'.trans hdue, (hraise.flag _ k (by decide)).trans hawaiting, hresp'.trans hresp, fun hw => hrequest (hwfi.trans hw),
    (hraise.flag _ k (by decide)).trans (hask.flag _ k (by decide)), (hraise.flag _ k (by decide)).trans (hask.flag _ k (by decide))⟩

/-- A trip stops the timer of its stage, and starts none. -/
theorem Dev.absDue_force (d : Dev) (k : Nat) (off : Bool) (h : d.absDue k = none) : (d.force k off).absDue k = none := by
  have hsc : (d.forced k off).absDue k = none := by
    rw [Dev.absDue, (d.forced_keeps k off).parts .sc (by decide)]
    exact h
  rw [d.force_eq, Dev.arbitrate]
  split
  · split
    · rwa [Dev.absDue, (Dev.toAllOff_keeps _ k).parts .sc (by decide)]
    · exact hsc
  · split
    · exact hsc
    · rw [Dev.absDue, (Dev.tripStage_after ..).parts .sc (by decide), (Dev.recordTrip_after ..).parts .sc (by decide),
        (Dev.tripMarks_keeps ..).parts .sc (by decide)]
      exact (absLasts_absDue_none k).endRun hsc k

/-- The action of an expiry. -/
def Dev.absAct (d : Dev) (k : Nat) : Dev :=
  if d.rd F.SC_ABS_CFG_action k = 1 then (d.askFirmware k).raiseRequest
  else if d.rd F.SC_ABS_CFG_action k = 2 then d.stopAction k
  else d.force k false

theorem does_absenceExpiry {s : State} {t due : Nat} {k : Fin 21} {P : Dev → Prop} (hdue : (s.now t).absDue k = some due)
    (hpassed : due ≤ (s.now t).time) (h : P (((s.now t).absExpired k).absAct k)) : Does s (.absenceExpiry t k) P := by
  refine Does.of_effect (show exec _ s = execAbsenceExpiry t k s from rfl) ?_
  simp only [hdue, hpassed, if_true]
  exact h

theorem does_notifyTimeout {s : State} {t due : Nat} {k : Fin 21} {P : Dev → Prop} (hdue : (s.now t).respDue k = some due)
    (hpassed : due ≤ (s.now t).time) (h : P ((s.now t).stopAction k)) : Does s (.notifyTimeout t k) P :=
  Does.of_effect (show exec _ s = execNotifyTimeout t k s from rfl) (by simpa only [hdue, hpassed, if_true] using h)

/-- Settles O30: a restart, a stop and an expiry as the policy of the stage says. -/
theorem absencePolicy : Obligations.AbsencePolicy := by
  unfold Obligations.AbsencePolicy
  intro s t k d
  refine ⟨?kick, ?disabled, ?goOn, ?stop, ?expiry, ?unanswered⟩
  case kick =>
    intro hfw hen hrun
    obtain ⟨hdue, -, hstatus, hrun'⟩ := d.absCommand_restarts_shows (.inl rfl) hen hrun
    exact Does.of_firmware (f := fun d => d.absCommand k 1) rfl hfw ⟨hdue, hstatus, hrun'⟩
  case disabled =>
    intro hen
    refine Does.of_effect (f := fun d => if d.fwStores then d.absCommand k 1 else d) rfl ?_
    split
    · exact d.absCommand_kick_disabled k hen
    · rfl
  case goOn =>
    intro hfw hen hrun hawaiting
    obtain ⟨hdue, ⟨hflag, hresp⟩, -, -⟩ := d.absCommand_restarts_shows (.inr ⟨rfl, hawaiting⟩) hen hrun
    exact Does.of_firmware (f := fun d => d.absCommand k 2) rfl hfw ⟨hdue, hflag, hresp⟩
  case stop =>
    intro hfw
    refine Does.of_firmware (f := fun d => d.absCommand k 3) rfl hfw ?_
    obtain ⟨hstopped, hflag, -⟩ := (absLasts_decided k).stopAction (d := d.absCommanded k 3) (k := k) (Dev.decided_put _ k)
    rw [d.absCommand_stop]
    exact ⟨hstopped, hflag, ((Dev.stopAction_keeps ..).rd _ k (by decide)).trans (d.absCommanded_status k 3)⟩
  case expiry =>
    intro due hdue hpassed
    refine does_absenceExpiry hdue hpassed ?_
    obtain ⟨hnone, hexpired, hwfi⟩ := d.absExpired_shows k
    have hk := d.absExpired_keeps k
    rw [Dev.absAct, hk.rd F.SC_ABS_CFG_action k (by decide)]
    split
    · rename_i haction
      obtain ⟨hdue', hawaiting, hresp, hrequest, hrun, hexp⟩ := (d.absExpired k).notify_shows k
      rw [hk.time, hk.rd F.SC_ABS_CFG_resp_time k (by decide)] at hresp
      exact ⟨hdue'.trans hnone, hexp.trans hexpired, fun _ => ⟨hawaiting, hresp, fun hw => hrequest (hwfi.trans hw),
        hrun.trans (hk.flag _ k (by decide))⟩, by omega, by omega⟩
    split
    · obtain ⟨hstopped, hdue'⟩ := (absLasts_absDue_none k).stopAction (d := d.absExpired k) (k := k) hnone
      exact ⟨hdue', ((Dev.stopAction_keeps ..).flag _ k (by decide)).trans hexpired, by omega, fun _ => hstopped, by omega⟩
    · refine ⟨Dev.absDue_force _ k false hnone, ?_, by omega, by omega, fun _ => (Dev.force_shows _ k false).2⟩
      exact ((Dev.force_keeps ..).flag _ k (by decide)).trans hexpired
  case unanswered =>
    intro due hdue hpassed
    obtain ⟨hstopped, -, hresp⟩ := (absLasts_decided k).stopAction (d := d) (k := k) (Dev.decided_put _ k)
    exact does_notifyTimeout hdue hpassed ⟨hstopped, hresp⟩

end Sys2Proof.Machine
end

section
/-! Comparators and edge flags (R107 to R111, R113, R114); obligation O10. -/

namespace Sys2Proof.Machine

/-! ### One threshold (R108, R109) -/

theorem Dev.cmp_setCmp_self (d : Dev) (k : Nat) (v : CmpT) : (d.setCmp k v).cmp k = v :=
  (Tbl.get_set (fun _ => ({} : CmpT)) d.cv.cmp k k v).trans (if_pos rfl)

theorem Dev.cmp_congr {d e : Dev} (h : e.cv = d.cv) (k : Nat) : e.cmp k = d.cmp k := by rw [Dev.cmp, Dev.cmp, h]

theorem ThrT.follow_high (v : ThrT) (level hyst x now : Int) (hh : 0 ≤ hyst) :
    (level < x → (v.follow true level hyst x now).raw = true) ∧ (x < level - hyst → (v.follow true level hyst x now).raw = false) ∧
      (level - hyst ≤ x → x ≤ level → (v.follow true level hyst x now).raw = v.raw) := by
  refine ⟨fun h => ?_, fun h => ?_, fun h1 h2 => ?_⟩
  · simp [ThrT.follow, h]
  · simp [ThrT.follow, h, show ¬level < x by omega]
  · simp [ThrT.follow, show ¬level < x by omega, show ¬x < level - hyst by omega]

theorem ThrT.follow_low (v : ThrT) (level hyst x now : Int) (hh : 0 ≤ hyst) :
    (x < level → (v.follow false level hyst x now).raw = true) ∧ (level + hyst < x → (v.follow false level hyst x now).raw = false) ∧
      (level ≤ x → x ≤ level + hyst → (v.follow false level hyst x now).raw = v.raw) := by
  refine ⟨fun h => ?_, fun h => ?_, fun h1 h2 => ?_⟩
  · simp [ThrT.follow, h]
  · simp [ThrT.follow, h, show ¬x < level by omega]
  · simp [ThrT.follow, show ¬x < level by omega, show ¬level + hyst < x by omega]

theorem Dev.cmpLevels_hyst (d : Dev) (c : Cmp) (hi : Bool) : 0 ≤ (d.cmpLevels c hi).2 := by
  unfold Dev.cmpLevels
  cases c <;> exact Int.mul_nonneg (by decide) (Int.natCast_nonneg _)

/-- Where a threshold that did not start anew stands for the input x. -/
def Dev.nextThr (d : Dev) (c : Cmp) (hi : Bool) (q : ThrT) (x : Int) : ThrT :=
  if !d.cmpEnabled c hi then {} else q.follow hi (d.cmpLevels c hi).1 (d.cmpLevels c hi).2 x d.time

theorem Dev.nextThr_of_enabled (d : Dev) (c : Cmp) (hi : Bool) (q : ThrT) (x : Int) (h : d.cmpEnabled c hi = true) :
    d.nextThr c hi q x = q.follow hi (d.cmpLevels c hi).1 (d.cmpLevels c hi).2 x d.time := by
  simp [Dev.nextThr, h]

theorem Dev.nextThr_setCmp (d : Dev) (k : Nat) (v : CmpT) (c : Cmp) (hi : Bool) (q : ThrT) (x : Int) :
    (d.setCmp k v).nextThr c hi q x = d.nextThr c hi q x := by
  cases c <;> cases hi <;> rfl

theorem Dev.followThr_low (d : Dev) (c : Cmp) : d.followThr c false false =
    d.setCmp (cmpKey c) { d.cmp (cmpKey c) with lo := d.nextThr c false (d.cmp (cmpKey c)).lo (d.cmp (cmpKey c)).input } := rfl

theorem Dev.followThr_high (d : Dev) (c : Cmp) : d.followThr c true false =
    d.setCmp (cmpKey c) { d.cmp (cmpKey c) with hi := d.nextThr c true (d.cmp (cmpKey c)).hi (d.cmp (cmpKey c)).input } := rfl

/-- Both thresholds follow the input, and nothing else of the comparator changes. -/
theorem Dev.cmp_followCmp (d : Dev) (c : Cmp) : (d.followCmp c false false).cmp (cmpKey c) =
    { d.cmp (cmpKey c) with
      lo := d.nextThr c false (d.cmp (cmpKey c)).lo (d.cmp (cmpKey c)).input
      hi := d.nextThr c true (d.cmp (cmpKey c)).hi (d.cmp (cmpKey c)).input } := by
  rw [Dev.followCmp, Dev.cmp_congr ((Dev.showBand_keeps _ c).parts .cv (by decide)), Dev.followThr_high, Dev.cmp_setCmp_self,
    Dev.followThr_low, Dev.cmp_setCmp_self, Dev.nextThr_setCmp]

/-! ### The input of a comparator -/

/-- A comparator whose input stands at x. -/
def Dev.placeInput (d : Dev) (c : Cmp) (x : Int) : Dev := d.setCmp (cmpKey c) { d.cmp (cmpKey c) with input := x }

theorem Dev.cmp_followCmp_placeInput (d : Dev) (c : Cmp) (x : Int) : ((d.placeInput c x).followCmp c false false).cmp (cmpKey c) =
    { d.cmp (cmpKey c) with
      input := x
      lo := d.nextThr c false (d.cmp (cmpKey c)).lo x
      hi := d.nextThr c true (d.cmp (cmpKey c)).hi x } := by
  rw [Dev.cmp_followCmp, Dev.placeInput, Dev.cmp_setCmp_self, Dev.nextThr_setCmp, Dev.nextThr_setCmp]

/-! ### Edges of an edge flag (R113, R114) -/

/-- An edge is accepted: the flag is enabled and not blanked, and the last edge lies long enough back. -/
def Dev.acceptsEdge (d : Dev) (k : Nat) : Prop := d.flag F.WM_EF_CFG_enable k = true ∧ d.blanked k = false ∧
  ∀ e, (d.cmp (64 + k)).lastEdge = some e → e + 64 * d.rd F.WM_EF_GAP_gap k ≤ d.time

/-- An accepted edge is counted. -/
def Dev.countEdge (d : Dev) (k : Nat) : Dev :=
  (d.setCmp (64 + k) { d.cmp (64 + k) with lastEdge := some d.time }).wr F.WM_EF_STAT_edges k ((d.rd F.WM_EF_STAT_edges k + 1) % 65536)

/-- And stamped. -/
def Dev.stampEdge (d : Dev) (k : Nat) (rising : Bool) : Dev :=
  if rising then (d.put F.WM_EF_STAT_rise k true).wr64 F.WM_EF_RISE_LO F.WM_EF_RISE_HI k d.time
  else (d.put F.WM_EF_STAT_fall k true).wr64 F.WM_EF_FALL_LO F.WM_EF_FALL_HI k d.time

theorem Dev.efEdge_of_accepted {d : Dev} {k : Nat} (h : d.acceptsEdge k) (rising : Bool) :
    d.efEdge k rising = (((d.countEdge k).stampEdge k rising).sendRec
      (.edge k rising ((d.countEdge k).stampEdge k rising).time ((d.rd F.WM_EF_STAT_edges k + 1) % 65536))).noteEdge k rising := by
  obtain ⟨hen, hblank, hgap⟩ := h
  unfold Dev.efEdge
  dsimp only
  rw [if_neg]
  · rfl
  · intro hc
    rw [hen, hblank] at hc
    simp only [Bool.not_true, Bool.or_self, Bool.false_or] at hc
    split at hc
    · rename_i e he
      rw [blt_eq_false_of_le (hgap e he)] at hc
      cases hc
    · cases hc

theorem Dev.countEdge_shows (d : Dev) (k : Nat) : (d.countEdge k).rd F.WM_EF_STAT_edges k = (d.rd F.WM_EF_STAT_edges k + 1) % 65536 ∧
    (d.countEdge k).cmp (64 + k) = { d.cmp (64 + k) with lastEdge := some d.time } :=
  ⟨Dev.rd_wr_of_lt _ _ _ (by decide) (Nat.mod_lt _ (by decide)), Dev.cmp_setCmp_self ..⟩

theorem Dev.stampEdge_keeps (d : Dev) (k : Nat) (rising : Bool) : Keeps ⟨false, [F.WM_EF_RISE_LO, F.WM_EF_RISE_HI, F.WM_EF_FALL_LO,
    F.WM_EF_FALL_HI, F.WM_EF_STAT_rise, F.WM_EF_STAT_fall], []⟩ d (d.stampEdge k rising) := by
  cases rising
  · exact ((Dev.put_keeps _ F.WM_EF_STAT_fall k true (by decide)).within (by decide)).trans
      ((Dev.wr64_keeps _ F.WM_EF_FALL_LO F.WM_EF_FALL_HI k _ (by decide) (by decide)).within (by decide))
  · exact ((Dev.put_keeps _ F.WM_EF_STAT_rise k true (by decide)).within (by decide)).trans
      ((Dev.wr64_keeps _ F.WM_EF_RISE_LO F.WM_EF_RISE_HI k _ (by decide) (by decide)).within (by decide))

theorem Dev.stampEdge_shows (d : Dev) (k : Nat) (rising : Bool) :
    (if rising then (d.stampEdge k rising).rd64 F.WM_EF_RISE_LO F.WM_EF_RISE_HI k
      else (d.stampEdge k rising).rd64 F.WM_EF_FALL_LO F.WM_EF_FALL_HI k) = d.time % 2 ^ 64 := by
  cases rising
  · exact Dev.rd64_wr64 _ _ _ _ _ (by decide) (by decide) (by decide)
  · exact Dev.rd64_wr64 _ _ _ _ _ (by decide) (by decide) (by decide)

/-- What an accepted edge shows. -/
theorem Dev.efEdge_shows {d : Dev} {k : Nat} (h : d.acceptsEdge k) (rising : Bool) :
    (d.efEdge k rising).rd F.WM_EF_STAT_edges k = (d.rd F.WM_EF_STAT_edges k + 1) % 65536 ∧
      ((d.efEdge k rising).cmp (64 + k)).lastEdge = some d.time ∧
      (if rising then (d.efEdge k rising).rd64 F.WM_EF_RISE_LO F.WM_EF_RISE_HI k
        else (d.efEdge k rising).rd64 F.WM_EF_FALL_LO F.WM_EF_FALL_HI k) = d.time % 2 ^ 64 := by
  have hsent : Keeps ⟨false, [], [.be, .tm]⟩ ((d.countEdge k).stampEdge k rising) (d.efEdge k rising) := by
    rw [Dev.efEdge_of_accepted h]
    exact ((Dev.sendRec_keeps ..).within (by decide)).trans ((Dev.noteEdge_keeps ..).within (by decide))
  have hstamp := (d.countEdge k).stampEdge_keeps k rising
  obtain ⟨hcount, hlast⟩ := d.countEdge_shows k
  have hat := (d.countEdge k).stampEdge_shows k rising
  refine ⟨?_, ?_, ?_⟩
  · rw [hsent.rd F.WM_EF_STAT_edges k (by decide), hstamp.rd F.WM_EF_STAT_edges k (by decide), hcount]
  · rw [Dev.cmp_congr (hsent.parts .cv (by decide)), Dev.cmp_congr (hstamp.parts .cv (by decide)), hlast]
  · rw [Dev.rd64, Dev.rd64, hsent.rd F.WM_EF_RISE_LO k (by decide), hsent.rd F.WM_EF_RISE_HI k (by decide),
      hsent.rd F.WM_EF_FALL_LO k (by decide), hsent.rd F.WM_EF_FALL_HI k (by decide)]
    exact hat

/-- The edge that an edge flag notes leaves its thresholds. -/
theorem Dev.cmp_efEdge (d : Dev) (k : Nat) (rising : Bool) :
    ∃ e, (d.efEdge k rising).cmp (64 + k) = { d.cmp (64 + k) with lastEdge := e } := by
  by_cases h : d.acceptsEdge k
  · refine ⟨some d.time, ?_⟩
    rw [Dev.efEdge_of_accepted h, Dev.cmp_congr ((Dev.noteEdge_keeps ..).parts .cv (by decide)),
      Dev.cmp_congr ((Dev.sendRec_keeps ..).parts .cv (by decide)), Dev.cmp_congr ((Dev.stampEdge_keeps ..).parts .cv (by decide)),
      (d.countEdge_shows k).2]
  · refine ⟨(d.cmp (64 + k)).lastEdge, congrArg (fun d => Dev.cmp d (64 + k)) (show d.efEdge k rising = d from ?_)⟩
    unfold Dev.efEdge
    dsimp only
    rw [if_pos]
    by_contra hc
    simp only [Bool.not_eq_true, Bool.or_eq_false_iff, Bool.not_eq_false'] at hc
    obtain ⟨⟨hen, hblank⟩, hlate⟩ := hc
    refine h ⟨hen, hblank, fun e he => ?_⟩
    rw [he] at hlate
    exact Nat.not_lt.mp fun hlt => Bool.noConfusion ((Nat.blt_eq.mpr hlt).symm.trans hlate)

/-! ### An edge flag follows its input (R108, R113) -/

theorem Dev.efFollow_eq (d : Dev) (k : Fin 8) : d.efFollow k =
    let e := d.followCmp (.ef k) false false
    let n := e.put F.WM_EF_STAT_live k (e.cmp (64 + k)).hi.raw
    if (d.cmp (64 + k)).hi.raw = (e.cmp (64 + k)).hi.raw then n else n.efEdge k (e.cmp (64 + k)).hi.raw := rfl

theorem Dev.cmpInput_ef (d : Dev) (k : Fin 8) (x : Int) : d.cmpInput (.ef k) x = (d.placeInput (.ef k) x).efFollow k := rfl

/-- Every comparator's thresholds follow its input. -/
theorem Dev.cmp_cmpInput (d : Dev) (c : Cmp) (x : Int) : ∃ e, (d.cmpInput c x).cmp (cmpKey c) =
    { d.cmp (cmpKey c) with
      input := x
      lo := d.nextThr c false (d.cmp (cmpKey c)).lo x
      hi := d.nextThr c true (d.cmp (cmpKey c)).hi x
      lastEdge := e } := by
  have hfollow := d.cmp_followCmp_placeInput c x
  cases c
  case wm m => exact ⟨_, hfollow⟩
  case pc c => exact ⟨_, hfollow⟩
  case ef k =>
    have hput : ∀ b, (((d.placeInput (.ef k) x).followCmp (.ef k) false false).put F.WM_EF_STAT_live k b).cmp (64 + k) =
        ((d.placeInput (.ef k) x).followCmp (.ef k) false false).cmp (64 + k) := fun _ => rfl
    rw [Dev.cmpInput_ef, Dev.efFollow_eq]
    dsimp only [cmpKey] at hfollow ⊢
    split
    · exact ⟨_, by rw [hput, hfollow]⟩
    · obtain ⟨e, he⟩ := Dev.cmp_efEdge (((d.placeInput (.ef k) x).followCmp (.ef k) false false).put F.WM_EF_STAT_live k
        (((d.placeInput (.ef k) x).followCmp (.ef k) false false).cmp (64 + k)).hi.raw) k
        (((d.placeInput (.ef k) x).followCmp (.ef k) false false).cmp (64 + k)).hi.raw
      exact ⟨e, by rw [he, hput, hfollow]⟩

/-! ### Filtered outputs and latches (R110, R111) -/

theorem Dev.cmpLive_setLive (d : Dev) (c : Cmp) (hi v : Bool) : (d.setLive c hi v).cmpLive c hi = v := by
  cases c <;> cases hi <;> exact Dev.flag_put _ _ _ _ (by decide) rfl

theorem Dev.cmpLatched_setLatch (d : Dev) (c : Cmp) (hi : Bool) (hc : (cmpUnit c).1 ≠ Kind.edgeFlag) (v : Bool) :
    (d.setLatch c hi v).cmpLatched c hi = v := by
  cases c
  case wm m => cases hi <;> exact Dev.flag_put _ _ _ _ (by decide) rfl
  case pc c => cases hi <;> exact Dev.flag_put _ _ _ _ (by decide) rfl
  case ef k => exact absurd rfl hc

theorem Dev.cmpLatched_setLatch_other (d : Dev) (c : Cmp) (hi v : Bool) : (d.setLatch c hi v).cmpLatched c (!hi) = d.cmpLatched c (!hi) := by
  cases c
  case wm m => cases hi <;> exact Dev.flag_put_apart _ _ _ _ _ _ (by decide) (by decide)
  case pc c => cases hi <;> exact Dev.flag_put_apart _ _ _ _ _ _ (by decide) (by decide)
  case ef k => rfl

/-- The fields of the filtered outputs. -/
def liveFields : List Fd := [F.WM_STAT_live_lo, F.WM_STAT_live_hi, F.WM_PC_STAT_live_lo, F.WM_PC_STAT_live_hi, F.WM_EF_STAT_live]

/-- The latch bits. -/
def latchFields : List Fd := [F.WM_LATCH_lo, F.WM_LATCH_hi, F.WM_PC_LATCH_lo, F.WM_PC_LATCH_hi]

theorem Keeps.cmpLive {w : Foot} {d e : Dev} (hk : Keeps w d e) (hw : liveFields.all w.avoids = true) (c : Cmp) (hi : Bool) :
    e.cmpLive c hi = d.cmpLive c hi := by
  have hflag : ∀ f ∈ liveFields, ∀ i, e.flag f i = d.flag f i := fun f hf i => hk.flag f i (List.all_eq_true.mp hw f hf)
  cases c <;> cases hi <;> exact hflag _ (by simp [liveFields]) _

theorem Keeps.cmpLatched {w : Foot} {d e : Dev} (hk : Keeps w d e) (hw : latchFields.all w.avoids = true) (c : Cmp) (hi : Bool) :
    e.cmpLatched c hi = d.cmpLatched c hi := by
  have hflag : ∀ f ∈ latchFields, ∀ i, e.flag f i = d.flag f i := fun f hf i => hk.flag f i (List.all_eq_true.mp hw f hf)
  cases c
  case wm m => cases hi <;> exact hflag _ (by simp [latchFields]) _
  case pc c => cases hi <;> exact hflag _ (by simp [latchFields]) _
  case ef k => rfl

theorem Dev.cmpLatches_setLive (d : Dev) (c : Cmp) (hi v : Bool) : (d.setLive c hi v).cmpLatches c = d.cmpLatches c := by
  have hk := d.setLive_keeps c hi v
  cases c
  case wm m => rw [Dev.cmpLatches, Dev.cmpLatches, hk.rd F.WM_CFG_latch m (by decide)]
  case pc c => rw [Dev.cmpLatches, Dev.cmpLatches, hk.rd F.WM_PC_CFG_latch c (by decide)]
  case ef k => rfl

/-- An activation in LATCH mode sets the latch. -/
theorem Dev.activate_latches (d : Dev) (c : Cmp) (hi : Bool) (h : d.cmpLatches c = true) : (d.activate c hi).cmpLatched c hi = true := by
  have hunit : (cmpUnit c).1 ≠ Kind.edgeFlag := by
    cases c
    case wm m => exact show Kind.winMon ≠ Kind.edgeFlag by decide
    case pc c => exact show Kind.podCmp ≠ Kind.edgeFlag by decide
    case ef k => cases h
  have hbeq : ((cmpUnit c).1 == Kind.edgeFlag) = false := by simpa using hunit
  unfold Dev.activate
  dsimp only
  split
  · rename_i hc
    simpa [h, hbeq] using hc
  · rw [(Dev.noteActivation_keeps ..).cmpLatched (by decide), (Dev.reportOpen_keeps ..).cmpLatched (by decide),
      (Dev.countCmp_keeps ..).cmpLatched (by decide), Dev.cmpLatched_setLatch _ _ _ hunit]

/-- A filtered output after its filter, before stopwork. -/
def Dev.outputPassed (d : Dev) (c : Cmp) (hi raw : Bool) : Dev :=
  let d := d.setLive c hi raw
  let d := if raw then d.activate c hi else d
  if (cmpUnit c).1 = Kind.winMon then d.noteOutput (cmpUnit c).2 hi raw else d

theorem Dev.passOutput_of_lasted (d : Dev) (c : Cmp) (hi : Bool) (q : ThrT) (hq : q = if hi then (d.cmp (cmpKey c)).hi else (d.cmp (cmpKey c)).lo)
    (hf : d.fenced (cmpUnit c).1 (cmpUnit c).2 = false) (hraw : q.raw ≠ d.cmpLive c hi) (hlasted : q.changedAt + d.cmpFilter c ≤ d.time) :
    d.passOutput c hi = (d.outputPassed c hi q.raw).stopwork := by
  subst hq
  unfold Dev.passOutput
  dsimp only
  rw [if_neg]
  · rfl
  · rw [hf, blt_eq_false_of_le hlasted]
    simpa using hraw

theorem Dev.outputPassed_shows (d : Dev) (c : Cmp) (hi raw : Bool) : let n := d.outputPassed c hi raw
    n.cmpLive c hi = raw ∧ (raw = true → d.cmpLatches c = true → n.cmpLatched c hi = true) ∧
      (raw = false → n.cmpLatched c hi = d.cmpLatched c hi) := by
  have hnote : ∀ e : Dev, Keeps ⟨false, [], [.ch]⟩ e (if (cmpUnit c).1 = Kind.winMon then e.noteOutput (cmpUnit c).2 hi raw else e) :=
    fun e => .ite (fun _ => Dev.noteOutput_keeps ..) fun _ => .refl ..
  have hset := d.setLive_keeps c hi raw
  dsimp only [Dev.outputPassed]
  rw [(hnote _).cmpLive (by decide), (hnote _).cmpLatched (by decide)]
  cases raw
  · simp only [Bool.false_eq_true, if_false, false_implies, true_and, true_implies]
    exact ⟨d.cmpLive_setLive c hi false, hset.cmpLatched (by decide) c hi⟩
  · simp only [if_true, true_implies, Bool.true_eq_false, false_implies, and_true]
    exact ⟨((Dev.activate_keeps _ c hi).cmpLive (by decide) c hi).trans (d.cmpLive_setLive c hi true),
      fun h => Dev.activate_latches _ c hi ((d.cmpLatches_setLive c hi true).trans h)⟩

theorem Dev.cmpLatched_clear (d : Dev) (c : Cmp) (hi : Bool) : (d.setLatch c hi false).cmpLatched c hi = false := by
  cases c
  case wm m => cases hi <;> exact Dev.flag_put _ _ _ _ (by decide) rfl
  case pc c => cases hi <;> exact Dev.flag_put _ _ _ _ (by decide) rfl
  case ef k => rfl

/-- A 1 written to one latch bit. -/
def Dev.clearOne (d : Dev) (c : Cmp) (hi one : Bool) : Dev := if one && !d.cmpLive c hi then d.setLatch c hi false else d

theorem Dev.clearLatch_eq (d : Dev) (c : Cmp) (lo hi : Bool) : d.clearLatch c lo hi = (d.clearOne c false lo).clearOne c true hi := rfl

theorem Dev.clearOne_shows (d : Dev) (c : Cmp) (hi one : Bool) :
    (d.clearOne c hi one).cmpLatched c hi = (d.cmpLatched c hi && !(one && !d.cmpLive c hi)) ∧
      (d.clearOne c hi one).cmpLatched c (!hi) = d.cmpLatched c (!hi) ∧ ∀ x, (d.clearOne c hi one).cmpLive c x = d.cmpLive c x := by
  unfold Dev.clearOne
  split
  · rename_i h
    rw [h, Dev.cmpLatched_clear]
    exact ⟨(Bool.and_false _).symm, d.cmpLatched_setLatch_other c hi false, fun x => (d.setLatch_keeps c hi false).cmpLive (by decide) c x⟩
  · rename_i h
    rw [Bool.not_eq_true] at h
    rw [h]
    exact ⟨(Bool.and_true _).symm, rfl, fun _ => rfl⟩

/-- Writing 1 to latch bits clears those whose outputs are inactive. -/
theorem Dev.clearLatch_shows (d : Dev) (c : Cmp) (lo hi : Bool) :
    (d.clearLatch c lo hi).cmpLatched c false = (d.cmpLatched c false && !(lo && !d.cmpLive c false)) ∧
      (d.clearLatch c lo hi).cmpLatched c true = (d.cmpLatched c true && !(hi && !d.cmpLive c true)) := by
  obtain ⟨hlow, hhigh, hlive⟩ := d.clearOne_shows c false lo
  obtain ⟨hhigh', hlow', -⟩ := (d.clearOne c false lo).clearOne_shows c true hi
  rw [Bool.not_false] at hhigh
  rw [Bool.not_true] at hlow'
  rw [d.clearLatch_eq, hlow', hlow, hhigh', hhigh, hlive]
  exact ⟨rfl, rfl⟩

/-! ### The commands -/

theorem Dev.blanked_congr {d e : Dev} {w : Foot} (hk : Keeps w d e) (hp : Part.pp ∉ w.parts) (hf : Part.flt ∉ w.parts) (k : Nat) :
    e.blanked k = d.blanked k := by
  have hpp : e.pp = d.pp := hk.parts .pp hp
  have hflt : e.flt = d.flt := hk.parts .flt hf
  simp only [Dev.blanked, Dev.fenced, Dev.drv, Dev.port, hpp, hflt]

/-- An edge flag that its input places on one side, and how it stood. -/
theorem Dev.edgeFlag_follows (d : Dev) (k : Fin 8) (x : Int) (hen : d.flag F.WM_EF_CFG_enable k = true) (now : Bool)
    (hnow : ((d.cmp (64 + k)).hi.follow true (d.cmpLevels (.ef k) true).1 (d.cmpLevels (.ef k) true).2 x d.time).raw = now) :
    d.cmpInput (.ef k) x =
      let n := ((d.placeInput (.ef k) x).followCmp (.ef k) false false).put F.WM_EF_STAT_live k now
      if (d.cmp (64 + k)).hi.raw = now then n else n.efEdge k now := by
  have hfollow := d.cmp_followCmp_placeInput (.ef k) x
  dsimp only [cmpKey] at hfollow
  have hnext : (d.nextThr (.ef k) true (d.cmp (64 + k)).hi x).raw = now := by
    rw [d.nextThr_of_enabled _ _ _ _ (by simpa [Dev.cmpEnabled] using hen), hnow]
  have hplaced : (d.placeInput (.ef k) x).cmp (64 + k) = { d.cmp (64 + k) with input := x } := Dev.cmp_setCmp_self ..
  rw [Dev.cmpInput_ef, Dev.efFollow_eq]
  dsimp only
  rw [hfollow, hplaced]
  dsimp only
  rw [hnext]

/-- An edge flag with its input placed and its output shown. -/
def Dev.shownEdgeFlag (d : Dev) (k : Fin 8) (x : Int) (now : Bool) : Dev :=
  ((d.placeInput (.ef k) x).followCmp (.ef k) false false).put F.WM_EF_STAT_live k now

theorem Dev.shownEdgeFlag_keeps (d : Dev) (k : Fin 8) (x : Int) (now : Bool) :
    Keeps ⟨false, [F.WM_STAT_band_hold, F.WM_PC_STAT_band_hold, F.WM_EF_STAT_band_hold, F.WM_EF_STAT_live], [.cv]⟩ d
      (d.shownEdgeFlag k x now) :=
  (((Dev.setCmp_keeps ..).within (by decide)).trans ((Dev.followCmp_keeps ..).within (by decide))).trans ((Dev.put_keeps _ F.WM_EF_STAT_live k now (by decide)).within (by decide))

theorem Dev.shownEdgeFlag_shows (d : Dev) (k : Fin 8) (x : Int) (now : Bool) :
    (d.shownEdgeFlag k x now).flag F.WM_EF_STAT_live k = now ∧
      ((d.shownEdgeFlag k x now).cmp (64 + k)).lastEdge = (d.cmp (64 + k)).lastEdge :=
  ⟨Dev.flag_put _ _ _ _ (by decide) rfl, (congrArg CmpT.lastEdge (d.cmp_followCmp_placeInput (.ef k) x)).trans rfl⟩

/-- Settles O10: thresholds follow their levels, outputs pass their filters, latches clear and edges are stamped. -/
theorem comparatorsAndEdgeFlags : Obligations.ComparatorsAndEdgeFlags := by
  unfold Obligations.ComparatorsAndEdgeFlags
  intro s t d
  refine ⟨?crossing, ?filtered, ?clear, ?edge, ?noEdge⟩
  case crossing =>
    intro c x
    refine Does.of_effect (show exec _ s = execComparatorCrossing t c x s from rfl) ?_
    obtain ⟨e, hcmp⟩ := d.cmp_cmpInput c x
    rw [hcmp]
    refine ⟨rfl, fun hen => ?_, fun hen => ?_⟩
    · dsimp only
      rw [d.nextThr_of_enabled c true _ x hen]
      exact ThrT.follow_high _ _ _ _ _ (d.cmpLevels_hyst c true)
    · dsimp only
      rw [d.nextThr_of_enabled c false _ x hen]
      exact ThrT.follow_low _ _ _ _ _ (d.cmpLevels_hyst c false)
  case filtered =>
    intro c hi v q hf hraw hlasted
    refine Does.of_effect (show exec _ s = execFilteredOutputChange t c hi s from rfl) ?_
    rw [show (s.now t).passOutput c hi = _ from d.passOutput_of_lasted c hi q rfl hf hraw hlasted]
    obtain ⟨hlive, hset, hleft⟩ := d.outputPassed_shows c hi q.raw
    have hwork := (d.outputPassed c hi q.raw).stopwork_keeps
    rw [hwork.cmpLive (by decide), hwork.cmpLatched (by decide)]
    exact ⟨hlive, hset, hleft, fun k hk => Dev.stopwork_holds _ k hk⟩
  case clear =>
    intro c lo hi hfw hf
    refine Does.of_firmware (show exec _ s = execLatchClear t c lo hi s from rfl) hfw ?_
    dsimp only
    rw [if_neg (by simp [d, hf] at *)]
    exact d.clearLatch_shows c lo hi
  case edge =>
    intro k x rising v l hen hblank hgap hwas hup hdown
    refine Does.of_effect (show exec _ s = execEdgeFlagEdge t k x s from rfl) ?_
    obtain ⟨hon, hoff, -⟩ := ThrT.follow_high v.hi l.1 l.2 x d.time (d.cmpLevels_hyst (.ef k) true)
    have hnow : (v.hi.follow true l.1 l.2 x d.time).raw = rising := by
      cases rising
      · exact hoff (hdown rfl)
      · exact hon (hup rfl)
    have hinput : (s.now t).cmpInput (.ef k) x = (d.shownEdgeFlag k x rising).efEdge k rising := by
      rw [show s.now t = d from rfl, d.edgeFlag_follows k x hen rising hnow]
      exact if_neg (by rw [hwas]; cases rising <;> decide)
    have hk := d.shownEdgeFlag_keeps k x rising
    obtain ⟨hlive, hlast⟩ := d.shownEdgeFlag_shows k x rising
    have haccepts : (d.shownEdgeFlag k x rising).acceptsEdge k := by
      refine ⟨(hk.flag _ k (by decide)).trans hen, (Dev.blanked_congr hk (by decide) (by decide) k).trans hblank, fun e he => ?_⟩
      rw [hk.rd F.WM_EF_GAP_gap k (by decide), hk.time]
      exact hgap e (hlast.symm.trans he)
    obtain ⟨hcount, hstamped, hat⟩ := Dev.efEdge_shows haccepts rising
    rw [hk.rd F.WM_EF_STAT_edges k (by decide)] at hcount
    rw [hk.time] at hstamped hat
    rw [hinput]
    exact ⟨hcount, ((Dev.efEdge_keeps _ k rising).flag _ k (by decide)).trans hlive, hstamped, hat⟩
  case noEdge =>
    intro k x v l hen hhigh hlow
    refine Does.of_effect (show exec _ s = execEdgeFlagEdge t k x s from rfl) ?_
    obtain ⟨hon, hoff, hstay⟩ := ThrT.follow_high v.hi l.1 l.2 x d.time (d.cmpLevels_hyst (.ef k) true)
    have hnow : (v.hi.follow true l.1 l.2 x d.time).raw = v.hi.raw := by
      cases hraw : v.hi.raw
      · by_cases hband : l.1 - l.2 ≤ x
        · rw [hstay hband (hlow hraw), hraw]
        · exact hoff (Int.not_le.mp hband)
      · by_cases hband : x ≤ l.1
        · rw [hstay (hhigh hraw) hband, hraw]
        · exact hon (Int.not_le.mp hband)
    have hinput : (s.now t).cmpInput (.ef k) x = d.shownEdgeFlag k x v.hi.raw := by
      rw [show s.now t = d from rfl, d.edgeFlag_follows k x hen v.hi.raw hnow]
      exact if_pos rfl
    rw [hinput]
    exact ⟨(d.shownEdgeFlag_keeps k x _).rd _ k (by decide), (d.shownEdgeFlag_shows k x _).2⟩

end Sys2Proof.Machine
end

section
/-! The handover of a bank, its drain, and the conflict counters (R297, R299); obligation O32. -/

namespace Sys2Proof.Machine

/-! ### Drains -/

theorem Dev.drainOf_congr {d e : Dev} (h : e.mb = d.mb) (b : Nat) : e.drainOf b = d.drainOf b := by rw [Dev.drainOf, Dev.drainOf, h]

/-- A drain that begins or ends is shown in both registers of the bank. -/
theorem Dev.setDrain_shows (d : Dev) (b : Nat) (v : Option (Nat × Nat)) : (d.setDrain b v).drainOf b = v ∧
    (d.setDrain b v).flag F.MB_BANK_CTRL_draining b = v.isSome ∧ (d.setDrain b v).flag F.MB_BANK_STAT_draining b = v.isSome := by
  refine ⟨(Tbl.get_set (fun _ => none) d.mb.drain b b v).trans (if_pos rfl), ?_, Dev.flag_put _ _ _ _ (by decide) rfl⟩
  unfold Dev.setDrain
  dsimp only
  rw [Dev.flag_put_apart _ F.MB_BANK_CTRL_draining _ _ _ _ (by decide) (by decide)]
  exact Dev.flag_put _ _ _ _ (by decide) rfl

/-- While a bank drains no master owns it. -/
theorem Dev.bankOwned_of_draining {d : Dev} {b : Nat} (h : d.flag F.MB_BANK_STAT_draining b = true) (m : Nat) : d.bankOwned m b = false := by
  simp [Dev.bankOwned, h]

/-! ### The handover -/

section Handover

variable {d : Dev} {b o : Nat}

/-- A handover that is allowed names the new owner first. -/
def Dev.nameOwner (d : Dev) (b o : Nat) : Dev := d.wr F.MB_BANK_CTRL_owner b o

theorem Dev.nameOwner_keeps (d : Dev) (b o : Nat) : Keeps ⟨false, [F.MB_BANK_CTRL_owner], []⟩ d (d.nameOwner b o) :=
  Dev.wr_keeps _ _ _ _ (by decide)

theorem Dev.handover_of_allowed (h0 : b ≠ 0) (h15 : b < 15) (ho : o < 7) (hf : d.fenced Kind.bank b = false)
    (hdrain : d.flag F.MB_BANK_CTRL_draining b = false) (hstate : d.devState = DevSt.sealed ∨ d.devState = DevSt.safe) :
    d.handover b o = if o = d.rd F.MB_BANK_STAT_owner b then (d.nameOwner b o).wr F.MB_BANK_CTRL_status b Code.OK
      else (d.nameOwner b o).setDrain b (some (o, d.time)) := by
  have hdeny : ¬(b = 0 ∨ 15 ≤ b ∨ 6 < o ∨ d.flag F.MB_BANK_CTRL_draining b = true) := by
    rw [hdrain]
    rintro (h | h | h | h)
    · exact h0 h
    · omega
    · omega
    · cases h
  have hgo : ¬(d.devState ≠ DevSt.sealed ∧ d.devState ≠ DevSt.safe) := by
    rintro ⟨h1, h2⟩
    exact hstate.elim h1 h2
  have howner := (d.nameOwner_keeps b o).rd F.MB_BANK_STAT_owner b (by decide)
  unfold Dev.handover
  dsimp only
  rw [if_neg (by simp [hf]), if_neg hdeny, if_neg hgo, ← howner]
  rfl

/-- A handover that is denied changes no owner and no drain. -/
theorem Dev.handover_of_denied (h : b = 0 ∨ 15 ≤ b ∨ 6 < o ∨ d.flag F.MB_BANK_CTRL_draining b = true) :
    Keeps ⟨false, [F.FAB_WRITE_ERR, F.FAB_WRITE_ERR_more, F.FAB_WRITE_DATA, F.FAB_WRITE_CNT], []⟩ d (d.handover b o) := by
  unfold Dev.handover
  dsimp only
  split
  · exact Dev.reject_keeps ..
  · exact Dev.reject_keeps ..

end Handover

/-! ### The end of a drain -/

theorem Dev.drainEnd_in_time {d : Dev} {b o since : Nat} (h : d.drainOf b = some (o, since)) :
    d.drainEnd b true = ((d.setDrain b none).wr F.MB_BANK_STAT_owner b o).wr F.MB_BANK_CTRL_status b Code.OK := by
  simp [Dev.drainEnd, h]

theorem Dev.drainEnd_late {d : Dev} {b o since : Nat} (h : d.drainOf b = some (o, since)) :
    d.drainEnd b false = ((d.setDrain b none).wr F.MB_BANK_CTRL_status b Code.DEADLINE).reportOpen Kind.bank b Cls.report Code.DEADLINE := by
  simp [Dev.drainEnd, h]

theorem Dev.drainEnd_in_time_shows {d : Dev} {b o since : Nat} (h : d.drainOf b = some (o, since)) (ho : o < 7) :
    (d.drainEnd b true).drainOf b = none ∧ (d.drainEnd b true).flag F.MB_BANK_STAT_draining b = false ∧
      (d.drainEnd b true).rd F.MB_BANK_STAT_owner b = o ∧ (d.drainEnd b true).rd F.MB_BANK_CTRL_status b = Code.OK := by
  obtain ⟨hdrain, -, hflag⟩ := d.setDrain_shows b none
  rw [Dev.drainEnd_in_time h]
  refine ⟨hdrain, ?_, ?_, Dev.rd_wr _ _ _ _ (by decide)⟩
  · rw [Dev.flag_wr_apart _ _ _ _ _ _ (by decide) (by decide), Dev.flag_wr_apart _ _ _ _ _ _ (by decide) (by decide), hflag]
    rfl
  · rw [Dev.rd_wr_apart _ _ _ _ _ _ (by decide) (by decide)]
    exact Dev.rd_wr_of_lt _ _ _ (by decide) (Nat.lt_succ_of_lt ho)

theorem Dev.drainEnd_late_shows {d : Dev} {b o since : Nat} (h : d.drainOf b = some (o, since)) :
    (d.drainEnd b false).drainOf b = none ∧ (d.drainEnd b false).flag F.MB_BANK_STAT_draining b = false ∧
      (d.drainEnd b false).rd F.MB_BANK_STAT_owner b = d.rd F.MB_BANK_STAT_owner b ∧
      (d.drainEnd b false).rd F.MB_BANK_CTRL_status b = Code.DEADLINE := by
  obtain ⟨hdrain, -, hflag⟩ := d.setDrain_shows b none
  have hset := d.setDrain_keeps b none
  have hreport := ((d.setDrain b none).wr F.MB_BANK_CTRL_status b Code.DEADLINE).reportOpen_keeps Kind.bank b Cls.report Code.DEADLINE
  rw [Dev.drainEnd_late h]
  refine ⟨(Dev.drainOf_congr (hreport.parts .mb (by decide)) b).trans hdrain, ?_, ?_, ?_⟩
  · rw [hreport.flag F.MB_BANK_STAT_draining b (by decide), Dev.flag_wr_apart _ _ _ _ _ _ (by decide) (by decide), hflag]
    rfl
  · rw [hreport.rd F.MB_BANK_STAT_owner b (by decide), Dev.rd_wr_apart _ _ _ _ _ _ (by decide) (by decide),
      hset.rd F.MB_BANK_STAT_owner b (by decide)]
  · rw [hreport.rd F.MB_BANK_CTRL_status b (by decide)]
    exact Dev.rd_wr _ _ _ _ (by decide)

/-! ### The conflict counters -/

theorem Dev.word_wr_whole (d : Dev) (f : Fd) (i v : Nat) (hlo : f.lo = 0) (hw : f.width = 32) :
    (d.wr f i v).word (f.off i 0) = BitVec.ofNat 32 v := by
  have hrd := d.rd_wr f i v (by omega)
  rw [Dev.rd, Dev.rd2, hlo, hw, getBits, BitVec.extractLsb'_eq_self] at hrd
  exact BitVec.eq_of_toNat_eq (hrd.trans (BitVec.toNat_ofNat ..).symm)

theorem Dev.word_wr_of_off_ne (d : Dev) (g : Fd) (k v : Nat) {o : Nat} (h : o ≠ g.off k 0) : (d.wr g k v).word o = d.word o := by
  rw [Dev.wr, Dev.wr2, Dev.word_setWord, if_neg h]

theorem Dev.confRestart_clears (d : Dev) (m : Fin 17) :
    (d.each (List.range 17) fun d m => d.wr F.MB_CONF m 0).word (F.MB_CONF.off m 0) = 0 := by
  refine Dev.each_reaches (P := fun e => e.word (F.MB_CONF.off m 0) = 0) (p := m) (List.mem_range.mpr m.isLt)
    (fun e => e.word_wr_whole F.MB_CONF m 0 rfl rfl) (fun e q _ h => ?_) d
  by_cases hoff : F.MB_CONF.off m 0 = F.MB_CONF.off q 0
  · rw [hoff]
    exact e.word_wr_whole F.MB_CONF q 0 rfl rfl
  · rwa [Dev.word_wr_of_off_ne _ _ _ _ hoff]

/-! ### The commands -/

section Commands

variable {s : State} {t o since : Nat} {b : Fin 16} {P : Dev → Prop}

theorem does_drainComplete (hd : (s.now t).drainOf b = some (o, since))
    (h : P ((s.now t).drainEnd b (Nat.ble (s.now t).time (since + 1600)))) : Does s (.drainComplete t b) P :=
  Does.of_effect (show exec _ s = execDrainComplete t b s from rfl) (by simpa only [hd] using h)

theorem does_drainTimeout (hd : (s.now t).drainOf b = some (o, since)) (hlate : since + 1600 < (s.now t).time)
    (h : P ((s.now t).drainEnd b false)) : Does s (.drainTimeout t b) P :=
  Does.of_effect (show exec _ s = execDrainTimeout t b s from rfl) (by simpa only [hd, hlate, if_true] using h)

end Commands

/-- Settles O32: a handover drains, and the end of the drain in time or late decides the owner. -/
theorem bankHandover : Obligations.BankHandover := by
  unfold Obligations.BankHandover
  intro s t b d
  refine ⟨?handover, ?denied, ?drain, ?counters⟩
  case handover =>
    intro o hfw h0 h15 ho hf hdrain hstate
    have hb15 : (b : Nat) < 15 := Nat.lt_of_le_of_ne (Nat.le_of_lt_succ b.isLt) fun h => h15 (Fin.ext h)
    have hallowed := Dev.handover_of_allowed (d := d) (b := b) (o := o) (fun h => h0 (Fin.ext h)) hb15 ho hf hdrain hstate
    have hname := d.nameOwner_keeps b o
    refine ⟨fun hsame => ?_, fun hother => ?_⟩
    · rw [if_pos hsame] at hallowed
      refine Does.of_firmware (f := fun d => d.handover b o) rfl hfw ?_
      rw [show (s.now t).handover b o = _ from hallowed]
      refine ⟨Dev.rd_wr _ _ _ _ (by decide), ?_, ?_, ?_⟩
      · rw [Dev.rd_wr_apart _ _ _ _ _ _ (by decide) (by decide)]
        exact Dev.rd_wr_of_lt _ _ _ (by decide) o.isLt
      · rw [Dev.rd_wr_apart _ _ _ _ _ _ (by decide) (by decide), hname.rd F.MB_BANK_STAT_owner b (by decide), hsame]
      · rw [Dev.flag_wr_apart _ _ _ _ _ _ (by decide) (by decide), hname.flag F.MB_BANK_CTRL_draining b (by decide), hdrain]
    · rw [if_neg hother] at hallowed
      refine Does.of_firmware (f := fun d => d.handover b o) rfl hfw ?_
      rw [show (s.now t).handover b o = _ from hallowed]
      obtain ⟨hd, hctrl, hstat⟩ := (d.nameOwner b o).setDrain_shows b (some (o, d.time))
      refine ⟨hd, hctrl, ?_, Dev.bankOwned_of_draining hstat⟩
      rw [(Dev.setDrain_keeps ..).rd F.MB_BANK_STAT_owner b (by decide), hname.rd F.MB_BANK_STAT_owner b (by decide)]
  case denied =>
    intro o hdeny
    refine Does.of_effect (f := fun d => if d.fwStores then d.handover b o else d) rfl ?_
    split
    · have hk := Dev.handover_of_denied (d := d) (b := b) (o := o) (by
        rcases hdeny with rfl | rfl | h | h
        · exact .inl rfl
        · exact .inr (.inl (le_refl _))
        · exact .inr (.inr (.inl (by omega)))
        · exact .inr (.inr (.inr h)))
      exact ⟨hk.rd _ b (by decide), Dev.drainOf_congr (hk.parts .mb (by decide)) b⟩
    · exact ⟨rfl, rfl⟩
  case drain =>
    intro o since hd ho
    refine ⟨fun hin => does_drainComplete hd ?_, fun hlate c hc => ?_⟩
    · rw [Nat.ble_eq_true_of_le hin]
      exact Dev.drainEnd_in_time_shows hd ho
    · have hble : Nat.ble d.time (since + 1600) = false := Bool.eq_false_iff.mpr fun hc => absurd (Nat.le_of_ble_eq_true hc) (by omega)
      have hshows := Dev.drainEnd_late_shows hd
      rcases hc with rfl | rfl
      · exact does_drainComplete hd (by rwa [hble])
      · exact does_drainTimeout hd hlate hshows
  case counters =>
    refine Does.of_effect (show exec _ s = execConfRestart t s from rfl) ⟨d.confRestart_clears, fun x => ?_⟩
    have hmb : (d.each (List.range 17) fun d m => d.wr F.MB_CONF m 0).mb = d.mb :=
      Dev.each_reads_same (f := fun d m => d.wr F.MB_CONF m 0) (fun d => d.mb) (fun _ _ _ => rfl) d
    exact congrArg (fun mb : Mb => Tbl.get memReset mb.mem x) hmb

end Sys2Proof.Machine
end

section
/-! What reports and completions leave of the fault unit: only its intake grows. -/

namespace Sys2Proof.Machine

/-- From d to e the fault unit took reports, or lost them, and nothing else of it changed. -/
def Dev.ReportsOnly (d e : Dev) : Prop :=
  ∃ intake carry due, e.flt = { d.flt with intake := intake, lostCarry := carry, lostDue := due }

theorem Dev.ReportsOnly.of_flt {d e : Dev} (h : e.flt = d.flt) : d.ReportsOnly e := ⟨_, _, _, h⟩

theorem Dev.ReportsOnly.refl (d : Dev) : d.ReportsOnly d := .of_flt rfl

theorem Dev.ReportsOnly.trans {d e g : Dev} (h : d.ReportsOnly e) (k : e.ReportsOnly g) : d.ReportsOnly g := by
  obtain ⟨_, _, _, he⟩ := h
  obtain ⟨a, b, c, hg⟩ := k
  exact ⟨a, b, c, by rw [hg, he]⟩

theorem Dev.ReportsOnly.of_keeps {w : Foot} {d e : Dev} (h : Keeps w d e) (hp : Part.flt ∉ w.parts) : d.ReportsOnly e :=
  .of_flt (h.parts .flt hp)

theorem Dev.ReportsOnly.fenced {d e : Dev} (h : d.ReportsOnly e) (kind index : Nat) : e.fenced kind index = d.fenced kind index := by
  obtain ⟨_, _, _, he⟩ := h
  rw [Dev.fenced, Dev.fenced, he]

theorem Dev.ReportsOnly.foldl {α : Type} {f : Dev → α → Dev} (h : ∀ (d : Dev) x, d.ReportsOnly (f d x)) (l : List α) :
    ∀ d : Dev, d.ReportsOnly (l.foldl f d) := by
  induction l with
  | nil => exact fun d => .refl d
  | cons a l ih => exact fun d => (h d a).trans (ih _)

theorem Dev.post_reportsOnly (d : Dev) (r : Report) : d.ReportsOnly (d.post r) := by
  unfold Dev.post
  split
  · exact ⟨_, _, _, rfl⟩
  · exact ⟨_, _, _, rfl⟩

theorem Dev.report_reportsOnly (d : Dev) (kind index cls code detail sub : Nat) : d.ReportsOnly (d.report kind index cls code detail sub) := by
  unfold Dev.report
  split
  · exact .refl d
  · exact d.post_reportsOnly _

theorem Dev.reportOpen_reportsOnly (d : Dev) (kind index cls code : Nat) : d.ReportsOnly (d.reportOpen kind index cls code) :=
  d.report_reportsOnly ..

theorem Dev.ledgerItem_reportsOnly (d : Dev) (q : Nat) (it : Item) : d.ReportsOnly (d.ledgerItem q it) := by
  unfold Dev.ledgerItem
  split
  · exact d.post_reportsOnly _
  · exact .refl d

theorem Dev.drainItems_reportsOnly (d : Dev) (q : Nat) : d.ReportsOnly (d.drainItems q) := by
  have hshow : ∀ e : Dev, e.ReportsOnly (e.showQp q) := fun e => .of_keeps (e.showQp_keeps q) (by decide)
  unfold Dev.drainItems
  dsimp only
  split
  · have hgone := Dev.ReportsOnly.foldl (fun d it => d.ledgerItem_reportsOnly q it) ((d.qp q).items.takeWhile Item.hasEnded) d
    refine hgone.trans (.trans ?_ (hshow _))
    exact .of_flt rfl
  · exact hshow d

theorem Dev.finish_reportsOnly (d : Dev) (q i st : Nat) (partly : Bool) (detail : Nat) : d.ReportsOnly (d.finish q i st partly detail) := by
  unfold Dev.finish
  split
  · exact .refl d
  · split
    · exact .refl d
    · refine Dev.ReportsOnly.trans ?_ (Dev.drainItems_reportsOnly ..)
      refine Dev.ReportsOnly.trans (e := d.onItem q i fun it => { it with phase := .ended st partly (BitVec.ofNat 32 detail) })
        (.of_flt rfl) ?_
      split
      · split
        · exact .of_keeps (Dev.dropFrame_keeps ..) (by decide)
        · exact .of_keeps (Dev.noteLast_keeps ..) (by decide)
      · exact .refl _

theorem Dev.finishJob_reportsOnly (d : Dev) (job : Option (Nat × Nat)) (st detail : Nat) : d.ReportsOnly (d.finishJob job st detail) := by
  unfold Dev.finishJob
  split
  · exact .refl d
  · exact d.finish_reportsOnly ..

end Sys2Proof.Machine
end

section
/-! Readings, largest live readings, derating factors and the cross-check (R395 to R397, R399); obligation O48. -/

namespace Sys2Proof.Machine

/-! ### Signed fields -/

theorem signed32_mem (v : Nat) : -2 ^ 31 ≤ signed 32 v ∧ signed 32 v < 2 ^ 31 := by
  unfold signed
  have hlt : v % 2 ^ 32 < 2 ^ 32 := Nat.mod_lt _ (by decide)
  split <;> constructor <;> omega

theorem signed32_unsigned {v : Int} (h1 : -2 ^ 31 ≤ v) (h2 : v < 2 ^ 31) : signed 32 (unsigned 32 v) = v := by
  unfold signed unsigned
  split <;> omega

theorem Dev.rdInt_mem (d : Dev) (f : Fd) (i : Nat) (hw : f.width = 32) : -2 ^ 31 ≤ d.rdInt f i ∧ d.rdInt f i < 2 ^ 31 := by
  rw [Dev.rdInt, hw]
  exact signed32_mem _

/-- A signed value that fits a whole register reads back as it was written. -/
theorem Dev.rdInt_wrInt (d : Dev) (f : Fd) (i : Nat) {v : Int} (hlo : f.lo = 0) (hw : f.width = 32) (h1 : -2 ^ 31 ≤ v) (h2 : v < 2 ^ 31) :
    (d.wrInt f i v).rdInt f i = v := by
  have hlt : unsigned 32 v < 2 ^ 32 := by
    unfold unsigned
    omega
  rw [Dev.rdInt, Dev.wrInt, hw, d.rd_wr_of_lt f i (by omega) (by rwa [hw]), signed32_unsigned h1 h2]

theorem signed32_toNat (w : Word) : signed 32 w.toNat = w.toInt := by
  have hlt := w.isLt
  rw [signed, BitVec.toInt_eq_toNat_cond]
  split <;> split <;> omega

/-! ### The largest of some readings (R397) -/

theorem foldr_max_max (l : List Int) (a b : Int) : l.foldr max (max a b) = max a (l.foldr max b) := by
  induction l with
  | nil => rfl
  | cons x l ih => rw [List.foldr_cons, List.foldr_cons, ih, max_left_comm]

/-- One reading more, as `largest` takes it. -/
def keepLargest (best : Option Int) (v : Int) : Option Int :=
  match best with
  | none => some v
  | some b => some (if b < v then v else b)

theorem foldl_keepLargest (l : List Int) (b : Int) : l.foldl keepLargest (some b) = some (l.foldr max b) := by
  induction l generalizing b with
  | nil => rfl
  | cons a l ih =>
    have hstep : keepLargest (some b) a = some (max a b) := by
      rw [keepLargest, Option.some_inj]
      split <;> omega
    rw [List.foldl_cons, hstep, ih, foldr_max_max, List.foldr_cons]

theorem largest_cons (x : Int) (l : List Int) : largest (x :: l) = some (l.foldr max x) := foldl_keepLargest l x

/-- The largest of some readings, as the statement writes it. -/
def topReading (l : List Int) : Int := if l = [] then 150 * 65536 else l.foldr max (-2 ^ 31)

theorem largest_getD (l : List Int) (hl : ∀ x ∈ l, -2 ^ 31 ≤ x) : (largest l).getD allFenced = topReading l := by
  cases l with
  | nil => rfl
  | cons x l =>
    rw [largest_cons, topReading, if_neg (List.cons_ne_nil x l), Option.getD_some, List.foldr_cons, ← foldr_max_max,
      max_eq_left (hl x (.head _))]

theorem topReading_mem (l : List Int) (hl : ∀ x ∈ l, -2 ^ 31 ≤ x ∧ x < 2 ^ 31) : -2 ^ 31 ≤ topReading l ∧ topReading l < 2 ^ 31 := by
  unfold topReading
  split
  · omega
  · have hfold : -2 ^ 31 ≤ l.foldr max (-2 ^ 31 : Int) ∧ l.foldr max (-2 ^ 31 : Int) < 2 ^ 31 := by
      clear * - hl
      induction l with
      | nil => decide
      | cons x l ih =>
        obtain ⟨h1, h2⟩ := ih fun y hy => hl y (.tail _ hy)
        obtain ⟨hx1, hx2⟩ := hl x (.head _)
        rw [List.foldr_cons]
        omega
    exact hfold

theorem foldr_max_of_le (l : List Int) {lo b : Int} (h : lo ≤ b) : l.foldr max b = max b (l.foldr max lo) := by
  rw [← foldr_max_max, max_eq_left h]

theorem le_foldr_max (l : List Int) (lo : Int) : lo ≤ l.foldr max lo := by
  induction l with
  | nil => exact le_refl lo
  | cons x l ih => exact le_max_of_le_right ih

/-- With further readings beside those of some sensors. -/
theorem topReading_append {l : List Int} (hne : l ≠ []) (hl : ∀ x ∈ l, -2 ^ 31 ≤ x) (more : List Int) {v : Int}
    (hv : largest l = some v) : (largest (v :: more)).getD v = topReading (l ++ more) := by
  cases l with
  | nil => exact absurd rfl hne
  | cons x l =>
    rw [largest_cons, Option.some_inj, foldr_max_of_le l (hl x (.head _))] at hv
    have hlo : (-2 ^ 31 : Int) ≤ v := hv ▸ le_max_of_le_left (hl x (.head _))
    rw [largest_cons, Option.getD_some, topReading, if_neg (by simp), List.cons_append, List.foldr_cons, List.foldr_append,
      foldr_max_of_le more hlo, foldr_max_of_le l (le_foldr_max more _), ← hv]
    omega

/-! ### What a stage reads -/

theorem clampInt_mem {lo hi v : Int} (h : lo ≤ hi) : lo ≤ clampInt lo hi v ∧ clampInt lo hi v ≤ hi := by
  unfold clampInt
  split
  · omega
  · split <;> omega

/-- The live readings of some sensors. -/
def Dev.liveTemps (d : Dev) (l : List Nat) : List Int := (l.filter fun n => !d.tempFenced n).map d.temp

/-- The external readings that count for stage s. -/
def Dev.externalTemps (d : Dev) (s : Nat) : List Int :=
  (if s < 14 ∧ d.flag F.THM_DERATE_CFG_ext_en 0 = true then [d.rdInt F.THM_TN s] else []) ++
    if 8 ≤ s ∧ s < 14 ∧ bitOf (d.rd F.THM_DERATE_CFG_pv_mask 0) (s - 8) = true then [d.rdInt F.THM_PVT s] else []

theorem Dev.liveTemps_mem (d : Dev) (l : List Nat) : ∀ x ∈ d.liveTemps l, -2 ^ 31 ≤ x ∧ x < 2 ^ 31 := by
  intro x hx
  obtain ⟨n, -, rfl⟩ := List.mem_map.mp hx
  exact d.rdInt_mem F.THM_TS n rfl

theorem Dev.externalTemps_mem (d : Dev) (s : Nat) : ∀ x ∈ d.externalTemps s, -2 ^ 31 ≤ x ∧ x < 2 ^ 31 := by
  intro x hx
  rcases List.mem_append.mp hx with h | h
  · split at h
    · rw [List.mem_singleton.mp h]
      exact d.rdInt_mem F.THM_TN s rfl
    · cases h
  · split at h
    · rw [List.mem_singleton.mp h]
      exact d.rdInt_mem F.THM_PVT s rfl
    · cases h

theorem Dev.stageTemp_of_none (d : Dev) (s : Nat) (h : d.liveTemps (stageSensors s) = []) : d.stageTemp s = allFenced := by
  unfold Dev.liveTemps at h
  unfold Dev.stageTemp Dev.liveMax
  rw [h]
  rfl

theorem Dev.stageTemp_of_live (d : Dev) (s : Nat) (h : d.liveTemps (stageSensors s) ≠ []) :
    d.stageTemp s = topReading (d.liveTemps (stageSensors s) ++ d.externalTemps s) := by
  obtain ⟨x, l, hl⟩ := List.exists_cons_of_ne_nil h
  have hv : d.liveMax (stageSensors s) = some (l.foldr max x) := by
    rw [← largest_cons, ← hl]
    rfl
  have hlargest : largest (d.liveTemps (stageSensors s)) = some (l.foldr max x) := hv
  rw [← topReading_append h (fun x hx => (d.liveTemps_mem _ x hx).1) _ hlargest]
  unfold Dev.stageTemp
  rw [hv]
  rfl

theorem Dev.stageTemp_mem (d : Dev) (s : Nat) : -2 ^ 31 ≤ d.stageTemp s ∧ d.stageTemp s < 2 ^ 31 := by
  by_cases h : d.liveTemps (stageSensors s) = []
  · rw [d.stageTemp_of_none s h]
    decide
  · rw [d.stageTemp_of_live s h]
    refine topReading_mem _ fun x hx => ?_
    exact (List.mem_append.mp hx).elim (d.liveTemps_mem _ x) (d.externalTemps_mem s x)

/-- What renewing factors writes. -/
def derateFoot : Foot := ⟨false, [F.FLT_STAT_lost, F.FLT_LOST, F.THM_MAX, F.THM_STAGE_MAX, F.THM_DERATE], [.flt, .pw]⟩

/-- From d to e no reading and no fence of a sensor changed. -/
def Dev.SameReadings (d e : Dev) : Prop := Keeps derateFoot d e ∧ ∀ n, e.tempFenced n = d.tempFenced n

theorem Dev.SameReadings.refl (d : Dev) : d.SameReadings d := ⟨.refl .., fun _ => rfl⟩

theorem Dev.SameReadings.trans {d e g : Dev} (h : d.SameReadings e) (k : e.SameReadings g) : d.SameReadings g :=
  ⟨h.1.trans k.1, fun n => (k.2 n).trans (h.2 n)⟩

theorem Keeps.rdInt {w : Foot} {d e : Dev} (hk : Keeps w d e) (f : Fd) (i : Nat) (hf : w.avoids f = true) : e.rdInt f i = d.rdInt f i := by
  rw [Dev.rdInt, Dev.rdInt, hk.rd f i hf]

theorem Dev.SameReadings.temp {d e : Dev} (h : d.SameReadings e) : e.temp = d.temp :=
  funext fun n => h.1.rdInt F.THM_TS n (by decide)

theorem Dev.SameReadings.stageTemp {d e : Dev} (h : d.SameReadings e) (s : Nat) : e.stageTemp s = d.stageTemp s := by
  have htemp := h.temp
  obtain ⟨hk, hf⟩ := h
  simp (disch := decide) only [Dev.stageTemp, Dev.liveMax, htemp, hf, hk.rdInt, hk.rd, hk.flag]

/-- The factor of stage s. -/
def Dev.stageFactor (d : Dev) (s : Nat) : Int :=
  derateFactor (d.stageTemp s) (d.rd F.THM_DERATE_CFG_t_start (if s < 14 then 0 else 1))
    (d.rd F.THM_DERATE_CFG_t_stop (if s < 14 then 0 else 1))

theorem Dev.SameReadings.stageFactor {d e : Dev} (h : d.SameReadings e) (s : Nat) : e.stageFactor s = d.stageFactor s := by
  have hstage := h.stageTemp s
  obtain ⟨hk, -⟩ := h
  simp (disch := decide) only [Dev.stageFactor, hstage, hk.rd]

/-- A stage's largest live reading, written. -/
def Dev.showStageTemp (d : Dev) (s : Nat) : Dev := d.wrInt F.THM_STAGE_MAX s (d.stageTemp s)

/-- With its factor. -/
def Dev.showFactor (d : Dev) (s : Nat) : Dev := (d.showStageTemp s).wr F.THM_DERATE s (d.stageFactor s).toNat

/-- What follows is the report, once. -/
def Dev.reportHot (d : Dev) (s : Nat) (f : Int) : Dev :=
  if f ≤ 0 then
    if d.pw.hot.contains s then d
    else (d.withPw { d.pw with hot := d.pw.hot ++ [s] }).reportOpen Kind.stage s Cls.report Code.OVER_TEMP
  else if 6553 < f then d.withPw { d.pw with hot := d.pw.hot.filter (· != s) }
  else d

theorem Dev.showStageTemp_keeps (d : Dev) (s : Nat) : Keeps ⟨false, [F.THM_STAGE_MAX], []⟩ d (d.showStageTemp s) :=
  Dev.wrInt_keeps _ _ _ _ (by decide)

theorem Dev.derateStage_eq (d : Dev) (s : Nat) : d.derateStage s = (d.showFactor s).reportHot s (d.stageFactor s) := by
  have hk := d.showStageTemp_keeps s
  have hfactor : derateFactor (d.stageTemp s) ((d.showStageTemp s).rd F.THM_DERATE_CFG_t_start (if s < 14 then 0 else 1))
      ((d.showStageTemp s).rd F.THM_DERATE_CFG_t_stop (if s < 14 then 0 else 1)) = d.stageFactor s := by
    rw [hk.rd F.THM_DERATE_CFG_t_start _ (by decide), hk.rd F.THM_DERATE_CFG_t_stop _ (by decide), Dev.stageFactor]
  rw [Dev.showFactor, ← hfactor]
  rfl

theorem Dev.reportHot_keeps (d : Dev) (s : Nat) (f : Int) : Keeps ⟨false, [F.FLT_STAT_lost, F.FLT_LOST], [.flt, .pw]⟩ d (d.reportHot s f) := by
  unfold Dev.reportHot
  refine .ite (fun _ => .ite (fun _ => .refl ..) fun _ => ?_) fun _ => .ite (fun _ => ?_) fun _ => .refl ..
  · exact ((Dev.onPw_keeps d fun p => { p with hot := p.hot ++ [s] }).within (by decide)).trans ((Dev.reportOpen_keeps ..).within (by decide))
  · exact (Dev.onPw_keeps d fun p => { p with hot := p.hot.filter (· != s) }).within (by decide)

theorem Dev.reportHot_reportsOnly (d : Dev) (s : Nat) (f : Int) : d.ReportsOnly (d.reportHot s f) := by
  unfold Dev.reportHot
  split
  · split
    · exact .refl d
    · exact .trans (.of_flt rfl) (Dev.reportOpen_reportsOnly ..)
  · split
    · exact .of_flt rfl
    · exact .refl d

theorem Dev.showFactor_keeps (d : Dev) (s : Nat) : Keeps ⟨false, [F.THM_STAGE_MAX, F.THM_DERATE], []⟩ d (d.showFactor s) :=
  ((d.showStageTemp_keeps s).within (by decide)).trans ((Dev.wr_keeps _ F.THM_DERATE s _ (by decide)).within (by decide))

theorem Dev.derateStage_sameReadings (d : Dev) (s : Nat) : d.SameReadings (d.derateStage s) := by
  have hshow := d.showFactor_keeps s
  rw [d.derateStage_eq]
  refine ⟨(hshow.within (by decide)).trans ((Dev.reportHot_keeps ..).within (by decide)), fun n => ?_⟩
  exact ((Dev.reportHot_reportsOnly ..).fenced _ n).trans (Dev.fenced_congr (hshow.parts .flt (by decide)) _ n)

theorem Dev.stageFactor_mem (d : Dev) (s : Nat) : 0 ≤ d.stageFactor s ∧ d.stageFactor s ≤ 65536 := by
  unfold Dev.stageFactor derateFactor
  exact clampInt_mem (by decide)

/-- What the registers of stage s show. -/
def Dev.ShowsFactor (d e : Dev) (s : Nat) : Prop := e.rdInt F.THM_STAGE_MAX s = d.stageTemp s ∧ (e.rd F.THM_DERATE s : Int) = d.stageFactor s

theorem Dev.derateStage_shows (d : Dev) (s : Nat) : d.ShowsFactor (d.derateStage s) s := by
  have hhot := (d.showFactor s).reportHot_keeps s (d.stageFactor s)
  obtain ⟨h1, h2⟩ := d.stageTemp_mem s
  obtain ⟨h3, h4⟩ := d.stageFactor_mem s
  rw [d.derateStage_eq, Dev.ShowsFactor, hhot.rdInt F.THM_STAGE_MAX s (by decide), hhot.rd F.THM_DERATE s (by decide)]
  refine ⟨?_, ?_⟩
  · rw [Dev.showFactor, (Dev.wr_keeps _ F.THM_DERATE s _ (by decide)).rdInt F.THM_STAGE_MAX s (by decide)]
    exact Dev.rdInt_wrInt _ _ _ rfl rfl h1 h2
  · rw [Dev.showFactor, Dev.rd_wr_of_lt _ _ _ (by decide) (by simp only [F.THM_DERATE]; omega)]
    omega

/-- The registers of another stage are left. -/
theorem Dev.ShowsFactor.derateStage {d e : Dev} {s k : Nat} (h : d.ShowsFactor e k) (hs : s < 21) (hk : k < 21) (hne : k ≠ s) :
    d.ShowsFactor (e.derateStage s) k := by
  obtain ⟨htemp, hfactor⟩ := h
  have hhot := (e.showFactor s).reportHot_keeps s (e.stageFactor s)
  rw [e.derateStage_eq, Dev.ShowsFactor, hhot.rdInt F.THM_STAGE_MAX k (by decide), hhot.rd F.THM_DERATE k (by decide)]
  refine ⟨?_, ?_⟩
  · rw [Dev.showFactor, (Dev.wr_keeps _ F.THM_DERATE s _ (by decide)).rdInt F.THM_STAGE_MAX k (by decide), ← htemp]
    exact congrArg (signed 32) (Dev.rd_wr_of_ne _ F.THM_STAGE_MAX _ (by decide) hk hs hne)
  · rw [Dev.showFactor, Dev.rd_wr_of_ne _ F.THM_DERATE _ (by decide) hk hs hne, (e.showStageTemp_keeps s).rd F.THM_DERATE k (by decide),
      hfactor]

/-- Every stage shows its factor once all are renewed. -/
theorem Dev.derateStages_show (d : Dev) (k : Fin 21) :
    d.SameReadings (d.each stages Dev.derateStage) ∧ d.ShowsFactor (d.each stages Dev.derateStage) k := by
  refine ⟨Dev.each_preserves (P := d.SameReadings) (fun e s _ h => h.trans (e.derateStage_sameReadings s)) d (.refl d), ?_⟩
  refine (Dev.each_reaches_of (I := d.SameReadings) (P := fun e => d.SameReadings e ∧ d.ShowsFactor e k) (p := k)
    (List.mem_range.mpr k.isLt) (fun e s _ h => h.trans (e.derateStage_sameReadings s)) (fun e h => ?_) (fun e s hs h => ?_) d (.refl d)).2
  · refine ⟨h.trans (e.derateStage_sameReadings k), ?_⟩
    obtain ⟨htemp, hfactor⟩ := e.derateStage_shows k
    exact ⟨htemp.trans (h.stageTemp k), hfactor.trans (h.stageFactor k)⟩
  · obtain ⟨hsame, hshows⟩ := h
    refine ⟨hsame.trans (e.derateStage_sameReadings s), ?_⟩
    by_cases hks : (k : Nat) = s
    · subst hks
      obtain ⟨htemp, hfactor⟩ := e.derateStage_shows k
      exact ⟨htemp.trans (hsame.stageTemp k), hfactor.trans (hsame.stageFactor k)⟩
    · exact hshows.derateStage (List.mem_range.mp hs) k.isLt hks

/-! ### Derating factors (R399) -/

theorem derateFactor_full {t start stop : Int} (h : start < stop) (ht : t ≤ start * 65536) : derateFactor t start stop = 65536 := by
  have hround : 65536 ≤ roundDiv (stop * 65536 - t) (stop - start) := by
    rw [roundDiv, Int.le_ediv_iff_mul_le (by omega)]
    nlinarith
  rw [derateFactor, clampInt, if_neg (by omega)]
  split <;> omega

theorem derateFactor_none {t start stop : Int} (h : start < stop) (ht : stop * 65536 ≤ t) : derateFactor t start stop = 0 := by
  have hround : roundDiv (stop * 65536 - t) (stop - start) < 1 := by
    rw [roundDiv, Int.ediv_lt_iff_lt_mul (by omega)]
    omega
  rw [derateFactor, clampInt]
  split
  · rfl
  · rw [if_neg (by omega)]
    omega

theorem derateFactor_between {t start stop : Int} (h : start < stop) (h1 : start * 65536 < t) (h2 : t < stop * 65536) :
    |derateFactor t start stop * (stop - start) - (stop * 65536 - t)| ≤ stop - start := by
  set den := stop - start with hden
  set num := stop * 65536 - t with hnum
  have hpos : 0 < den := by omega
  have hlow : roundDiv num den * (2 * den) ≤ 2 * num + den := Int.ediv_mul_le _ (by omega)
  have hhigh : 2 * num + den < (roundDiv num den + 1) * (2 * den) := Int.lt_ediv_add_one_mul_self _ (by omega)
  have hnonneg : 0 ≤ roundDiv num den := Int.ediv_nonneg (by omega) (by omega)
  have hle : roundDiv num den < 65537 := by
    rw [roundDiv, Int.ediv_lt_iff_lt_mul (by omega)]
    omega
  have hclamp : derateFactor t start stop = roundDiv num den := clampInt_of_mem (v := roundDiv num den) hnonneg (Int.lt_add_one_iff.mp hle)
  rw [hclamp, abs_le]
  constructor <;> nlinarith

/-! ### A reading (R395, R397) -/

/-- A reading that arrives, before maxima and factors are renewed. -/
def Dev.takeReading (d : Dev) (n : Nat) (temp : Word) : Dev := if d.tempFenced n then d else d.wr F.THM_TS n temp.toNat

theorem Dev.takeReading_keeps (d : Dev) (n : Nat) (temp : Word) : Keeps ⟨false, [F.THM_TS], []⟩ d (d.takeReading n temp) :=
  .ite (fun _ => .refl ..) fun _ => Dev.wr_keeps _ _ _ _ (by decide)

theorem Dev.takeReading_shows (d : Dev) (n : Fin 57) (temp : Word) :
    (d.tempFenced n = false → (d.takeReading n temp).rdInt F.THM_TS n = temp.toInt) ∧
      (d.tempFenced n = true → (d.takeReading n temp).rdInt F.THM_TS n = d.rdInt F.THM_TS n) ∧
      ∀ j : Fin 57, j ≠ n → (d.takeReading n temp).rdInt F.THM_TS j = d.rdInt F.THM_TS j := by
  unfold Dev.takeReading
  refine ⟨fun h => ?_, fun h => ?_, fun j hj => ?_⟩
  · rw [h, if_neg (by decide), Dev.rdInt, Dev.rd_wr_of_lt _ _ _ (by decide) temp.isLt]
    exact signed32_toNat temp
  · rw [h, if_pos rfl]
  · split
    · rfl
    · exact congrArg (signed 32) (Dev.rd_wr_of_ne _ F.THM_TS _ (by decide) j.isLt n.isLt fun h => hj (Fin.ext h))

/-- The largest live reading of all sensors, written. -/
def Dev.showMax (d : Dev) : Dev := d.wrInt F.THM_MAX 0 (topReading (d.liveTemps (List.range 57)))

theorem Dev.derateAll_eq (d : Dev) : d.derateAll = d.showMax.each stages Dev.derateStage := by
  have hmax := largest_getD (d.liveTemps (List.range 57)) fun x hx => (d.liveTemps_mem _ x hx).1
  have hlive : d.liveMax (List.range 57) = largest (d.liveTemps (List.range 57)) := rfl
  unfold Dev.derateAll Dev.showMax
  rw [← hmax, ← hlive]
  cases d.liveMax (List.range 57) <;> rfl

theorem Dev.showMax_sameReadings (d : Dev) : d.SameReadings d.showMax := by
  have hk : Keeps ⟨false, [F.THM_MAX], []⟩ d d.showMax := Dev.wrInt_keeps _ _ _ _ (by decide)
  exact ⟨hk.within (by decide), fun n => Dev.fenced_congr (hk.parts .flt (by decide)) _ n⟩

theorem Dev.showMax_shows (d : Dev) : d.showMax.rdInt F.THM_MAX 0 = topReading (d.liveTemps (List.range 57)) := by
  obtain ⟨h1, h2⟩ := topReading_mem _ (d.liveTemps_mem (List.range 57))
  exact Dev.rdInt_wrInt _ _ _ rfl rfl h1 h2

/-- What renewing every maximum and factor shows. -/
theorem Dev.derateAll_shows (d : Dev) : d.SameReadings d.derateAll ∧
    d.derateAll.rdInt F.THM_MAX 0 = topReading (d.liveTemps (List.range 57)) ∧ ∀ k : Fin 21, d.ShowsFactor d.derateAll k := by
  have hmax := d.showMax_sameReadings
  rw [d.derateAll_eq]
  refine ⟨hmax.trans (d.showMax.derateStages_show 0).1, ?_, fun k => ?_⟩
  · have hstages := Dev.each_keeps (w := ⟨false, [F.FLT_STAT_lost, F.FLT_LOST, F.THM_STAGE_MAX, F.THM_DERATE], [.flt, .pw]⟩) d.showMax stages
      Dev.derateStage fun e s => Dev.derateStage_keeps e s
    rw [hstages.rdInt F.THM_MAX 0 (by decide), d.showMax_shows]
  · obtain ⟨-, htemp, hfactor⟩ := d.showMax.derateStages_show k
    exact ⟨htemp.trans (hmax.stageTemp k), hfactor.trans (hmax.stageFactor k)⟩

/-- What a reading shows once maxima and factors are renewed. -/
theorem Dev.tempReading_sameReadings (d : Dev) (n : Nat) (temp : Word) (j : Nat) :
    (d.takeReading n temp).derateAll.rdInt F.THM_TS j = (d.takeReading n temp).rdInt F.THM_TS j :=
  congrFun (d.takeReading n temp).derateAll_shows.1.temp j

/-- The live readings under the sensors' old fences, which a reading leaves. -/
theorem Dev.tempReading_live (d : Dev) (n : Nat) (temp : Word) (l : List Nat) :
    (l.filter fun j => !d.tempFenced j).map ((d.takeReading n temp).derateAll.rdInt F.THM_TS) = (d.takeReading n temp).liveTemps l := by
  have htemp : (d.takeReading n temp).derateAll.rdInt F.THM_TS = (d.takeReading n temp).temp :=
    (d.takeReading n temp).derateAll_shows.1.temp
  have hfenced : ∀ j, (d.takeReading n temp).tempFenced j = d.tempFenced j :=
    fun j => Dev.fenced_congr ((d.takeReading_keeps n temp).parts .flt (by decide)) _ j
  simp only [Dev.liveTemps, hfenced, htemp]

theorem Dev.externalTemps_of_back (d : Dev) {s : Nat} (h : 14 ≤ s) : d.externalTemps s = [] := by
  rw [Dev.externalTemps, if_neg (by omega), if_neg (by omega)]
  rfl

/-- The external readings of a stage with three ports. -/
theorem Dev.externalTemps_of_front (d : Dev) {s : Nat} (h : s < 14) :
    d.externalTemps s = (if d.flag F.THM_DERATE_CFG_ext_en 0 then [d.rdInt F.THM_TN s] else []) ++
      if 8 ≤ s ∧ bitOf (d.rd F.THM_DERATE_CFG_pv_mask 0) (s - 8) = true then [d.rdInt F.THM_PVT s] else [] := by
  simp only [Dev.externalTemps, h, true_and]

theorem Dev.stageTemp_of_back (d : Dev) {s : Nat} (h : 14 ≤ s) : d.stageTemp s = topReading (d.liveTemps [28 + s]) := by
  have hsensors : stageSensors s = [28 + s] := if_neg (by omega)
  by_cases hnone : d.liveTemps [28 + s] = []
  · rw [d.stageTemp_of_none s (by rwa [hsensors]), hnone]
    rfl
  · rw [d.stageTemp_of_live s (by rwa [hsensors]), hsensors, d.externalTemps_of_back h, List.append_nil]

theorem Keeps.externalTemps {w : Foot} {d e : Dev} (hk : Keeps w d e) (s : Nat)
    (hw : [F.THM_DERATE_CFG_ext_en, F.THM_DERATE_CFG_pv_mask, F.THM_TN, F.THM_PVT].all w.avoids = true) :
    e.externalTemps s = d.externalTemps s := by
  simp only [List.all_cons, List.all_nil, Bool.and_true, Bool.and_eq_true] at hw
  obtain ⟨h1, h2, h3, h4⟩ := hw
  simp only [Dev.externalTemps, hk.flag _ _ h1, hk.rd _ _ h2, hk.rdInt _ _ h3, hk.rdInt _ _ h4]

/-- A factor from its two thresholds. -/
def FactorOf (factor : Nat) (v start stop : Int) : Prop :=
  start < stop → (v ≤ start * 65536 → factor = 65536) ∧ (stop * 65536 ≤ v → factor = 0) ∧
    (start * 65536 < v → v < stop * 65536 → |(factor : Int) * (stop - start) - (stop * 65536 - v)| ≤ stop - start)

theorem factorOf_derateFactor {factor : Nat} {v start stop : Int} (h : (factor : Int) = derateFactor v start stop) :
    FactorOf factor v start stop := by
  intro hlt
  refine ⟨fun hv => ?_, fun hv => ?_, fun h1 h2 => ?_⟩
  · have hfull := derateFactor_full hlt hv
    omega
  · have hnone := derateFactor_none hlt hv
    omega
  · rw [h]
    exact derateFactor_between hlt h1 h2

/-! ### The cross-check (R396) -/

/-- A unit that was fenced and still is. -/
def Dev.FencesMore (d e : Dev) : Prop := ∀ n, d.tempFenced n = true → e.tempFenced n = true

theorem Dev.FencesMore.refl (d : Dev) : d.FencesMore d := fun _ h => h

theorem Dev.FencesMore.trans {d e g : Dev} (h : d.FencesMore e) (k : e.FencesMore g) : d.FencesMore g := fun n hn => k n (h n hn)

theorem Dev.ReportsOnly.fencesMore {d e : Dev} (h : d.ReportsOnly e) : d.FencesMore e := fun n hn => (h.fenced _ n).trans hn

theorem Dev.fenced_markFenced (d : Dev) (kind index i : Nat) (b : Bool) :
    (d.markFenced kind index b).fenced kind i = if i = index then b else d.fenced kind i := by
  have hone : 256 * kind + i = 256 * kind + index ↔ i = index := by omega
  rw [Dev.fenced, Dev.markFenced]
  exact (Tbl.get_set ..).trans (if_congr hone rfl rfl)

theorem Dev.fenced_fenceC (d : Dev) (kind index cause sub i : Nat) :
    (d.fenceC kind index cause sub).fenced kind i = if i = index then true else d.fenced kind i := by
  rw [Dev.fenceC, Dev.postFenced, Dev.fenced_post, Dev.fenced_markFenced]

/-- What ends the admissions of a unit. -/
theorem Dev.endAdmits_fenced (d : Dev) (kind index k i : Nat) : (d.endAdmits kind index).fenced k i = d.fenced k i := by
  unfold Dev.endAdmits
  dsimp only
  rw [(Dev.ReportsOnly.foldl (fun d a => d.finish_reportsOnly ..) _ _).fenced]
  split
  · exact Dev.fenced_congr ((Dev.dropDacs_keeps ..).parts .flt (by decide)) k i
  · rfl

/-- A sensor that is fenced. -/
def Dev.fenceTemp (d : Dev) (n : Nat) : Dev := d.fenceUnit Kind.temp n Code.SENSOR_DISAGREE 0

theorem Dev.fenceTemp_eq (d : Dev) (n : Nat) : d.fenceTemp n =
    if d.tempFenced n then d.endAdmits Kind.temp n else (d.fenceC Kind.temp n Code.SENSOR_DISAGREE 0).showTempFence n true := rfl

theorem Dev.fenceTemp_pw (d : Dev) (n : Nat) : (d.fenceTemp n).pw = d.pw := by
  rw [d.fenceTemp_eq]
  split
  · exact (d.endAdmits_keeps _ _).parts .pw (by decide)
  · rw [(Dev.showTempFence_keeps ..).parts .pw (by decide), (Dev.fenceC_keeps ..).parts .pw (by decide)]

theorem Dev.fenceTemp_fenced (d : Dev) (n i : Nat) : (d.fenceTemp n).tempFenced i = if i = n then true else d.tempFenced i := by
  rw [d.fenceTemp_eq]
  split
  case isTrue h =>
    rw [Dev.tempFenced, d.endAdmits_fenced]
    split
    case isTrue hi => rw [hi, ← h]; rfl
    case isFalse => rfl
  case isFalse =>
    rw [Dev.tempFenced, Dev.fenced_congr ((Dev.showTempFence_keeps ..).parts .flt (by decide)), Dev.fenced_fenceC]
    rfl

/-- A sensor's count of deviations becomes c. -/
def Dev.setDeviations (d : Dev) (n c : Nat) : Dev := d.onPw fun p => { p with disagree := Tbl.set (fun _ => 0) p.disagree n c }

theorem Dev.deviations_setDeviations (d : Dev) (n c i : Nat) : (d.setDeviations n c).deviations i = if i = n then c else d.deviations i :=
  Tbl.get_set ..

theorem Dev.deviations_congr {d e : Dev} (h : e.pw = d.pw) (n : Nat) : e.deviations n = d.deviations n := by
  rw [Dev.deviations, Dev.deviations, h]

/-- A sensor that deviates, counted and reported at its limit. -/
def Dev.countDeviation (d0 d : Dev) (n : Nat) : Dev :=
  let d := d.setDeviations n (d0.deviations n + 1)
  if d0.deviations n + 1 = d0.rd F.THM_CC_CFG_cc_count 0 then d.reportOpen Kind.temp n Cls.report Code.SENSOR_DISAGREE else d

/-- The turn of sensor n in a cross-check that found d0. -/
def Dev.crossTurn (d0 d : Dev) (n : Nat) : Dev :=
  if d0.deviates n then
    if d0.rd F.THM_CC_CFG_cc_count 0 ≤ d0.deviations n + 1 ∧ (d0.liveGroup n).length ≠ 2 then (d0.countDeviation d n).fenceTemp n
    else d0.countDeviation d n
  else d.setDeviations n 0

theorem Dev.deviations_countDeviation (d0 d : Dev) (n i : Nat) :
    (d0.countDeviation d n).deviations i = if i = n then d0.deviations n + 1 else d.deviations i := by
  rw [← d.deviations_setDeviations]
  unfold Dev.countDeviation
  dsimp only
  split
  · exact Dev.deviations_congr ((Dev.reportOpen_keeps ..).parts .pw (by decide)) i
  · rfl

theorem Dev.countDeviation_reportsOnly (d0 d : Dev) (n : Nat) : d.ReportsOnly (d0.countDeviation d n) := by
  unfold Dev.countDeviation
  dsimp only
  split
  · exact .trans (.of_flt rfl) (Dev.reportOpen_reportsOnly ..)
  · exact .of_flt rfl

theorem Dev.deviations_crossTurn (d0 d : Dev) (n i : Nat) :
    (d0.crossTurn d n).deviations i = if i = n then (if d0.deviates n then d0.deviations n + 1 else 0) else d.deviations i := by
  unfold Dev.crossTurn
  split
  · rw [← d0.deviations_countDeviation d n i]
    split
    · exact Dev.deviations_congr (Dev.fenceTemp_pw ..) i
    · rfl
  · exact d.deviations_setDeviations n 0 i

theorem Dev.crossTurn_fencesMore (d0 d : Dev) (n : Nat) : d.FencesMore (d0.crossTurn d n) := by
  unfold Dev.crossTurn
  split
  · refine (d0.countDeviation_reportsOnly d n).fencesMore.trans ?_
    split
    · intro i hi
      rw [Dev.fenceTemp_fenced, hi, ite_self]
    · exact .refl _
  · exact fun _ h => h

theorem Dev.crossTurn_fences (d0 d : Dev) (n : Nat) (h : d0.deviates n = true) (hc : d0.rd F.THM_CC_CFG_cc_count 0 ≤ d0.deviations n + 1)
    (hl : 2 < (d0.liveGroup n).length) : (d0.crossTurn d n).tempFenced n = true := by
  rw [Dev.crossTurn, if_pos h, if_pos ⟨hc, by omega⟩, Dev.fenceTemp_fenced, if_pos rfl]

/-- What the cross-check leaves. -/
def Dev.crossCheck (d0 : Dev) : Dev := d0.each (List.range 57) d0.crossTurn

theorem does_tempCrossCheck {P : Dev → Prop} (s : State) (t : Nat) (h : P (s.now t).crossCheck) : Does s (.tempCrossCheck t) P :=
  Does.of_effect (show exec _ s = execTempCrossCheck t s from rfl) h

theorem Dev.crossCheck_fencesMore (d0 : Dev) : d0.FencesMore d0.crossCheck :=
  Dev.each_preserves (P := d0.FencesMore) (fun e q _ h => h.trans (d0.crossTurn_fencesMore e q)) d0 (.refl d0)

theorem Dev.crossCheck_deviations (d0 : Dev) (j : Fin 57) :
    d0.crossCheck.deviations j = if d0.deviates j then d0.deviations j + 1 else 0 := by
  obtain ⟨e, -, h⟩ := Dev.each_reads_at (f := d0.crossTurn) (fun d => d.deviations j) (List.mem_range.mpr j.isLt) List.nodup_range
    (fun e q _ hq => by rw [d0.deviations_crossTurn, if_neg (Ne.symm hq)]) d0
  rw [Dev.crossCheck, h, d0.deviations_crossTurn, if_pos rfl]

theorem Dev.crossCheck_fences (d0 : Dev) (j : Fin 57) (h : d0.deviates j = true)
    (hc : d0.rd F.THM_CC_CFG_cc_count 0 ≤ d0.deviations j + 1) (hl : 2 < (d0.liveGroup j).length) : d0.crossCheck.tempFenced j = true :=
  Dev.each_reaches (P := fun e => e.tempFenced j = true) (List.mem_range.mpr j.isLt) (fun e => d0.crossTurn_fences e j h hc hl)
    (fun e q _ he => d0.crossTurn_fencesMore e q j he) d0

/-! ### The obligation -/

/-- Settles O48: a reading is taken, then maxima and factors are renewed from the live readings; the cross-check takes each sensor in turn. -/
theorem temperatures : Obligations.Temperatures := by
  unfold Obligations.Temperatures
  intro s t n temp d top
  refine ⟨?reading, fun j hj => does_tempCrossCheck s t ⟨?_, ?_⟩, fun j hj => does_tempCrossCheck s t ⟨?_, ?_⟩⟩
  case reading =>
    refine Does.of_effect (show exec _ s = execTempReading t n temp s from rfl) ?_
    show _ ∧ _
    set e := d.takeReading n temp with he
    have hm : (if (s.now t).tempFenced n then s.now t else (s.now t).wr F.THM_TS n temp.toNat).derateAll = e.derateAll := rfl
    rw [hm]
    obtain ⟨hsame, hmax, hstage⟩ := e.derateAll_shows
    obtain ⟨hlive, hfenced, hother⟩ := d.takeReading_shows n temp
    have hk := d.takeReading_keeps n temp
    have hts := d.tempReading_sameReadings n temp
    refine ⟨?_, ?_, ?_, ?_, fun k => ?_⟩
    · exact fun h => (hts n).trans (hlive h)
    · exact fun h => (hts n).trans (hfenced h)
    · exact fun j hj => (hts j).trans (hother j hj)
    · exact hmax.trans (congrArg topReading (d.tempReading_live n temp _).symm)
    · obtain ⟨hv, hfactor⟩ := hstage k
      refine ⟨fun hback => ?_, fun _ hnone => ?_, fun hfront hsome => ?_, ?_⟩
      · rw [hv, e.stageTemp_of_back hback]
        exact congrArg topReading (d.tempReading_live n temp _).symm
      · have hsensors : stageSensors k = stagePorts k := if_pos ‹_›
        rw [hv, e.stageTemp_of_none k (by rw [hsensors, ← d.tempReading_live]; exact hnone)]
        rfl
      · have hsensors : stageSensors k = stagePorts k := if_pos hfront
        rw [hv, e.stageTemp_of_live k (by rw [hsensors, ← d.tempReading_live]; exact hsome), hsensors,
          hk.externalTemps k (by decide), d.externalTemps_of_front hfront, ← List.append_assoc]
        exact congrArg (fun l => topReading (l ++ _ ++ _)) (d.tempReading_live n temp _).symm
      · have hfactor : (e.derateAll.rd F.THM_DERATE k : Int) = derateFactor (e.derateAll.rdInt F.THM_STAGE_MAX k)
            (d.rd F.THM_DERATE_CFG_t_start (if k.val < 14 then 0 else 1)) (d.rd F.THM_DERATE_CFG_t_stop (if k.val < 14 then 0 else 1)) := by
          rw [hfactor, hv, Dev.stageFactor, hk.rd F.THM_DERATE_CFG_t_start _ (by decide), hk.rd F.THM_DERATE_CFG_t_stop _ (by decide)]
        exact fun hlt => factorOf_derateFactor hfactor (Int.ofNat_lt.mpr hlt)
  · rw [d.crossCheck_deviations, hj]
    rfl
  · exact d.crossCheck_fencesMore j
  · rw [d.crossCheck_deviations, hj]
    rfl
  · exact d.crossCheck_fences j hj

end Sys2Proof.Machine
end

section
/-! States of the sequencers, and the start of a stage by each (R218, R240, R241, R246, R256); obligation O27. -/

namespace Sys2Proof.Machine

/-! ### A sequencer's state after it goes on -/

theorem Dev.drState_drGo (d : Dev) (a : Fin 6) {new : Nat} (h : new < 16) : (d.drGo a new).drState a = new := by
  unfold Dev.drGo
  dsimp only
  split
  case isTrue heq => exact heq
  case isFalse =>
    rw [Dev.drState, (Dev.stateEvent_keeps ..).rd F.SC_DR_STAT_state a (by decide), Dev.rd_wr_of_lt _ _ _ (by decide) h]

theorem Dev.lvState_lvGo (d : Dev) {new : Nat} (h : new < 16) : (d.lvGo new).lvState = new := by
  unfold Dev.lvGo
  dsimp only
  split
  case isTrue heq => exact heq
  case isFalse =>
    rw [Dev.lvState, (Dev.stateEvent_keeps ..).rd F.SC_LV_STAT_state 0 (by decide), Dev.rd_wr_of_lt _ _ _ (by decide) h]

theorem Dev.chState_chGo (d : Dev) {new : Nat} (h : new < 16) : (d.chGo new).chState = new := by
  unfold Dev.chGo
  dsimp only
  split
  case isTrue heq => exact heq
  case isFalse =>
    rw [Dev.chState, (Dev.stateEvent_keeps ..).rd F.SC_CH_STAT_state 0 (by decide), Dev.rd_wr_of_lt _ _ _ (by decide) h]

theorem Dev.tmState_tmGo (d : Dev) (m : Fin 2) {new : Nat} (h : new < 16) : (d.tmGo m new).tmState m = new := by
  unfold Dev.tmGo
  dsimp only
  split
  case isTrue heq => exact heq
  case isFalse =>
    rw [Dev.tmState, (Dev.stateEvent_keeps ..).rd F.SC_TM_STAT_state m (by decide), Dev.rd_wr_of_lt _ _ _ (by decide) h]

theorem Dev.drive_onDr (d : Dev) (a k : Nat) (f : DrT → DrT) : (d.onDr a f).drive k = if k = a then f (d.drive a) else d.drive k :=
  Tbl.get_set ..

theorem Dev.drive_onDr_self (d : Dev) (a : Nat) (f : DrT → DrT) : (d.onDr a f).drive a = f (d.drive a) := by
  rw [d.drive_onDr, if_pos rfl]

theorem Dev.drive_congr {d e : Dev} (h : e.dr = d.dr) (a : Nat) : e.drive a = d.drive a := by
  rw [Dev.drive, Dev.drive, h]

/-- The drive's descriptor is over. -/
theorem Dev.drFinish_drive (d : Dev) (a st : Nat) : (d.drFinish a st).drive a = { d.drive a with job := none } := by
  rw [Dev.drFinish, Dev.drive_onDr_self, Dev.drive_congr ((Dev.finishJob_keeps ..).parts .dr (by decide))]

/-! ### A stage that a sequencer starts -/

/-- From d to e stage k started. -/
def Dev.StartsStage (d e : Dev) (k : Nat) : Prop :=
  e.flag F.TB_STG_RUN_run k = true ∧ (e.stg k).startAt = d.time ∧ (e.stg k).driving = false

theorem Dev.startStage_starts (d : Dev) (k : Nat) (hrun : d.flag F.TB_STG_RUN_run k = false) (hawake : d.pw.asleep = false) :
    d.StartsStage (d.startStage k) k := d.startStage_shows k hrun hawake

theorem Dev.StartsStage.keeps {d e g : Dev} {k : Nat} {w : Foot} (h : d.StartsStage e k) (hk : Keeps w e g)
    (hw : w.avoids F.TB_STG_RUN_run = true) (hp : Part.tb ∉ w.parts) : d.StartsStage g k := by
  unfold Dev.StartsStage Dev.stg at *
  rwa [hk.flag F.TB_STG_RUN_run k hw, hk.parts .tb hp]

/-- The instant at which the charger's first stages all run. -/
def Dev.chMarkFirst (e : Dev) : Dev := if e.allRun e.chFirst && !e.ch.second then e.onCh fun c => { c with since := e.time } else e

/-- The charger's end of a start, once every stage runs. -/
def Dev.chMarkAll (e : Dev) : Dev := if e.allRun chStages then (e.chGo (if e.ch.mode = 2 then 7 else 6)).chFinish Code.OK else e

theorem Dev.chMarkFirst_keeps (e : Dev) : Keeps ⟨false, [], [.ch]⟩ e e.chMarkFirst := .ite (fun _ => Dev.onCh_keeps ..) fun _ => .refl ..

theorem Dev.chMarkAll_keeps (e : Dev) : Keeps ⟨false, [F.SC_TM_STAT_last_status, F.SC_TM_CNT_refusals, F.SC_CH_STAT_state,
    F.SC_CH_STAT_last_status, F.SC_LV_STAT_last_status, F.SC_DR_STAT_last_status, F.HI_QP_CTRL_draining, F.HI_QP_FLAGS_in_flight,
    F.CN_STAT_slots, F.FLT_STAT_lost, F.FLT_LOST], [.ch, .hi, .cn, .flt]⟩ e e.chMarkAll :=
  .ite (fun _ => ((Dev.chGo_keeps ..).within (by decide)).trans ((Dev.chFinish_keeps ..).within (by decide))) fun _ => .refl ..

/-! ### Each sequencer (R218, R240, R241, R246, R256) -/

section
variable (d : Dev) (k : Fin 21) (l : Nat) (hrun : d.flag F.TB_STG_RUN_run k = false) (hfit : d.stageFit k = true) (hawake : d.pw.asleep = false)
include hrun hfit hawake

theorem Dev.tmStartSet_starts (hstate : d.tmState (k / 4) = 4 ∨ d.tmState (k / 4) = 5)
    (hactive : (d.activeStages (k / 4)).contains k.val = true) (hl : d.primaryLoop k = some l)
    (hruns : d.twoRuns (d.tmOf (k / 4)).base l = true) : d.StartsStage (d.tmStartSet k) k := by
  have hstart : d.tmStartSet k = d.startStage k := by
    simp only [Dev.tmStartSet, hstate, hactive, hfit, hl, hruns, and_self, if_true]
  rw [hstart]
  exact d.startStage_starts k hrun hawake

theorem Dev.chStartStage_starts (hstate : d.chState = 5)
    (hfirst : (d.chFirst.contains k.val || (d.ch.second && d.chSecond.contains k.val)) = true) (hl : (d.driving k).head? = some l)
    (hruns : d.twoRuns d.ch.base l = true) : d.StartsStage (d.chStartStage k) k := by
  have hstart := (d.startStage_starts k hrun hawake).keeps (Dev.chBlock_keeps _) (by decide) (by decide)
  have hgo : d.chStartStage k = ((d.startStage k).chBlock.chMarkFirst).chMarkAll := by
    rw [Dev.chStartStage, hl]
    exact if_pos (by simp only [hstate, hfit, hrun, hfirst, hruns, BEq.rfl, Bool.not_false, Bool.and_self])
  rw [hgo]
  exact (hstart.keeps (Dev.chMarkFirst_keeps _) (by decide) (by decide)).keeps (Dev.chMarkAll_keeps _) (by decide) (by decide)

theorem Dev.lvStartStage_starts_front (hk : k.val = 12) (hstate : d.lvState = 2) (hmode : d.ch.lvMode = 1) (hl : d.primaryLoop 14 = some l)
    (hruns : d.twoRuns d.ch.lvBase l = true) : d.StartsStage (d.lvStartStage k) k ∧ (d.lvStartStage k).lvState = 3 := by
  rw [hk] at hrun hfit ⊢
  simp only [Dev.lvStartStage, hl, hruns, hfit, hstate, hmode, Bool.not_true, Bool.or_self, Bool.false_eq_true, and_self, if_true, if_false]
  refine ⟨?_, Dev.lvState_lvGo _ (by decide)⟩
  exact (((d.startStage_starts 12 hrun hawake).keeps (Dev.onCh_keeps ..) (by decide) (by decide)).keeps (Dev.lvBlock_keeps _) (by decide)
    (by decide)).keeps (Dev.lvGo_keeps ..) (by decide) (by decide)

theorem Dev.lvStartStage_starts_back (hk : k.val = 14) (hstate : d.lvState = 3) (hsync : d.ch.lvSync = true) (hl : d.primaryLoop 14 = some l)
    (hruns : d.twoRuns d.ch.lvBase l = true) : d.StartsStage (d.lvStartStage k) k ∧ (d.lvStartStage k).lvState = 4 := by
  rw [hk] at hrun hfit ⊢
  simp only [Dev.lvStartStage, hl, hruns, hfit, hstate, hsync, Bool.not_true, Bool.or_self, Bool.false_eq_true, and_self, if_true, if_false,
    false_and, Nat.reduceEqDiff]
  have hstart := ((d.startStage_starts 14 hrun hawake).keeps (Dev.lvBlock_keeps _) (by decide) (by decide)).keeps (Dev.lvGo_keeps _ 4)
    (by decide) (by decide)
  refine ⟨hstart.keeps (Dev.lvFinish_keeps ..) (by decide) (by decide), ?_⟩
  rw [Dev.lvState, (Dev.lvFinish_keeps ..).rd F.SC_LV_STAT_state 0 (by decide)]
  exact Dev.lvState_lvGo _ (by decide)

/-- What follows a drive's start. -/
theorem Dev.drStartStage_starts (hk : 15 ≤ k.val) (hstate : d.drState (k - 15) = 3) (hl : d.primaryLoop k = some l) {b : Nat}
    (hbase : (d.drive (k - 15)).base = some b) (hruns : b + 2 ≤ (d.loop l).wrote) :
    d.StartsStage (d.drStartStage k) k ∧ (d.drStartStage k).drState (k - 15) = if (d.drive (k - 15)).mode = 1 then 4 else 7 := by
  obtain ⟨a, ha⟩ : ∃ a : Fin 6, a.val = k - 15 := ⟨⟨k - 15, by omega⟩, rfl⟩
  rw [← ha] at hstate hbase ⊢
  have htry : d.drTry a = d := by rw [Dev.drTry, hbase, if_neg (by simp)]
  set e := (d.startStage k).onDr a fun v => { v with base := none } with he
  have hstart : d.StartsStage e k := (d.startStage_starts k hrun hawake).keeps (Dev.onDr_keeps ..) (by decide) (by decide)
  have hmode : (e.drive a).mode = (d.drive a).mode := by
    rw [he, Dev.drive_onDr_self, Dev.drive_congr ((Dev.startStage_keeps ..).parts .dr (by decide))]
  have hgo : d.drStartStage k = if (d.drive a).mode = 1 then e.drMove a else (e.drGo a 7).drFinish a Code.OK := by
    rw [← hmode]
    simp only [Dev.drStartStage, ← ha, htry, hbase, hl, hstate, hruns, hfit, and_self, if_true, ← he]
  rw [hgo]
  split
  case isTrue =>
    exact ⟨hstart.keeps (Dev.drMove_keeps ..) (by decide) (by decide), Dev.drState_drGo _ a (by decide)⟩
  case isFalse =>
    refine ⟨(hstart.keeps (Dev.drGo_keeps ..) (by decide) (by decide)).keeps (Dev.drFinish_keeps ..) (by decide) (by decide), ?_⟩
    rw [Dev.drState, (Dev.drFinish_keeps ..).rd F.SC_DR_STAT_state a (by decide)]
    exact Dev.drState_drGo _ a (by decide)

end

/-! ### The obligation -/

/-- Settles O27: each of the four sequencers starts its stage under its own conditions, and goes on. -/
theorem sequencersStartStages : Obligations.SequencersStartStages := by
  unfold Obligations.SequencersStartStages
  intro s t k l d hrun hfit hawake hcase
  have hdoes : ∀ {P : Dev → Prop} {n : Dev}, P n → (if k.val < 8 then d.tmStartSet k else if k.val < 12 then d.chStartStage k
      else if k.val = 12 ∨ k.val = 14 then d.lvStartStage k else if 15 ≤ k.val then d.drStartStage k else d) = n →
      Does s (.sequencerStageStart t k) P := fun hP hn =>
    Does.of_effect (show exec _ s = execSequencerStageStart t k s from rfl) (hn ▸ hP)
  rcases hcase with ⟨hk, hstate, hactive, hl, hruns⟩ | ⟨hk, hk2, hstate, hfirst, hl, hruns⟩ | ⟨hk, hstate, hmode, hl, hruns⟩ |
    ⟨hk, hstate, hsync, hl, hruns⟩ | ⟨hk, hstate, hl, b, hbase, hruns⟩
  · obtain ⟨h1, h2, h3⟩ := d.tmStartSet_starts k l hrun hfit hawake hstate hactive hl hruns
    exact hdoes ⟨h1, h2, h3, by omega, by omega, by omega⟩ (if_pos hk)
  · obtain ⟨h1, h2, h3⟩ := d.chStartStage_starts k l hrun hfit hawake hstate hfirst hl hruns
    exact hdoes ⟨h1, h2, h3, by omega, by omega, by omega⟩ (by rw [if_neg (by omega), if_pos hk2])
  · obtain ⟨⟨h1, h2, h3⟩, hgo⟩ := d.lvStartStage_starts_front k l hrun hfit hawake hk hstate hmode hl hruns
    exact hdoes ⟨h1, h2, h3, fun _ => hgo, by omega, by omega⟩ (by rw [if_neg (by omega), if_neg (by omega), if_pos (.inl hk)])
  · obtain ⟨⟨h1, h2, h3⟩, hgo⟩ := d.lvStartStage_starts_back k l hrun hfit hawake hk hstate hsync hl hruns
    exact hdoes ⟨h1, h2, h3, by omega, fun _ => hgo, by omega⟩ (by rw [if_neg (by omega), if_neg (by omega), if_pos (.inr hk)])
  · obtain ⟨⟨h1, h2, h3⟩, hgo⟩ := d.drStartStage_starts k l hrun hfit hawake hk hstate hl hbase hruns
    exact hdoes ⟨h1, h2, h3, by omega, by omega, fun _ => hgo⟩
      (by rw [if_neg (by omega), if_neg (by omega), if_neg (by omega), if_pos hk])

end Sys2Proof.Machine
end

section
/-! Queue pairs and the items of their rings: what ends one descriptor leaves the others as they are. -/

namespace Sys2Proof.Machine

theorem find?_onFirst_of_ne {i j : Nat} {f : Item → Item} (hf : ∀ it, (f it).index = it.index) (hne : j ≠ i) (l : List Item) :
    (onFirst (fun it => it.index == j) f l).find? (fun it => it.index == i) = l.find? fun it => it.index == i := by
  induction l with
  | nil => rfl
  | cons a r ih =>
    rw [onFirst]
    by_cases ha : a.index = j
    · have hai : a.index ≠ i := fun h => hne (ha.symm.trans h)
      simp [ha, hf, hne]
    · simp [ha, List.find?_cons, ih]

theorem Dev.qp_setQp (d : Dev) (q k : Nat) (v : QpT) : (d.setQp q v).qp k = if k = q then v else d.qp k := Tbl.get_set ..

theorem Dev.qp_onItem_of_ne (d : Dev) {q k : Nat} (h : k ≠ q) (i : Nat) (f : Item → Item) : (d.onItem q i f).qp k = d.qp k := by
  rw [Dev.onItem, Dev.qp_setQp, if_neg h]

/-- From d to e the item at ring index i of queue pair q did not change, nor did the ring's silence. -/
def Dev.SameItem (q i : Nat) (d e : Dev) : Prop := (e.qp q).item i = (d.qp q).item i ∧ (e.qp q).silent = (d.qp q).silent

theorem Dev.SameItem.refl (q i : Nat) (d : Dev) : Dev.SameItem q i d d := ⟨rfl, rfl⟩

theorem Dev.SameItem.trans {q i : Nat} {d e g : Dev} (h : Dev.SameItem q i d e) (k : Dev.SameItem q i e g) : Dev.SameItem q i d g :=
  ⟨k.1.trans h.1, k.2.trans h.2⟩

theorem Dev.SameItem.of_qp {q i : Nat} {d e : Dev} (h : e.qp q = d.qp q) : Dev.SameItem q i d e := by
  rw [Dev.SameItem, h]
  exact ⟨rfl, rfl⟩

theorem Dev.SameItem.of_hi {q i : Nat} {d e : Dev} (h : e.hi = d.hi) : Dev.SameItem q i d e := .of_qp (Dev.qp_congr h q)

theorem Keeps.sameItem {w : Foot} {d e : Dev} (h : Keeps w d e) (q i : Nat) (hp : Part.hi ∉ w.parts) : Dev.SameItem q i d e :=
  .of_hi (h.parts .hi hp)

theorem Dev.SameItem.underWay {q i : Nat} {d e : Dev} (h : Dev.SameItem q i d e) (hd : d.underWay q i) : e.underWay q i := by
  obtain ⟨hitem, hsilent⟩ := h
  rwa [Dev.underWay, hitem, hsilent]

/-- The item at ring index i of queue pair q has ended with status st, and its ring can be written. -/
def Dev.Over (d : Dev) (q i st : Nat) : Prop := d.endedWith q i st ∧ (d.qp q).silent = false

theorem Dev.SameItem.over {q i st : Nat} {d e : Dev} (h : Dev.SameItem q i d e) (hd : d.Over q i st) : e.Over q i st := by
  obtain ⟨hitem, hsilent⟩ := h
  rwa [Dev.Over, Dev.endedWith, hitem, hsilent]

/-! ### Records and events -/

theorem Dev.sendEvent_sameItem (d : Dev) (bit : Nat) (body : List Word) (q i : Nat) : Dev.SameItem q i d (d.sendEvent bit body) := by
  refine .of_qp ?_
  unfold Dev.sendEvent
  exact Dev.each_preserves (P := fun e => e.qp q = d.qp q) (f := fun e k => e.sendRecord k { stamp := e.time, type := 3, body := body })
    (fun e k _ h => h) d rfl

theorem Dev.stateEvent_sameItem (d : Dev) (code unit old new : Nat) (q i : Nat) : Dev.SameItem q i d (d.stateEvent code unit old new) :=
  d.sendEvent_sameItem ..

/-! ### An item that ends -/

theorem Dev.qp_drainItems_of_ne (d : Dev) {q k : Nat} (h : k ≠ q) : (d.drainItems q).qp k = d.qp k := by
  unfold Dev.drainItems
  dsimp only
  split
  · have hgone : (((d.qp q).items.takeWhile Item.hasEnded).foldl (fun d it => d.ledgerItem q it) d).hi = d.hi :=
      (Dev.foldl_keeps (fun e (it : Item) => e.ledgerItem_keeps q it) _ d).parts .hi (by decide)
    rw [Dev.qp_congr (Dev.hi_showQp ..), Dev.qp_setQp, if_neg h, Dev.qp_congr hgone]
  · exact Dev.qp_congr (Dev.hi_showQp ..) k

/-- The item ended, before its ring is drained. -/
def Dev.markEnded (d : Dev) (q i st : Nat) (partly : Bool) (detail : Nat) (x : Option Descr) : Dev :=
  let d := d.onItem q i fun it => { it with phase := .ended st partly (BitVec.ofNat 32 detail) }
  match x with
  | some x => if x.opcode = 0x30 then d.dropFrame q i else d.noteLast x st
  | none => d

theorem Dev.finish_of_live {d : Dev} {q i : Nat} {it : Item} (h : (d.qp q).item i = some it) (hlive : it.hasEnded = false)
    (st : Nat) (partly : Bool) (detail : Nat) :
    d.finish q i st partly detail = (d.markEnded q i st partly detail it.desc).drainItems q := by
  simp only [Dev.finish, h, hlive]
  rfl

theorem Dev.finish_of_ended {d : Dev} {q i : Nat} {it : Item} (h : (d.qp q).item i = some it) (hlive : it.hasEnded = true)
    (st : Nat) (partly : Bool) (detail : Nat) : d.finish q i st partly detail = d := by
  simp only [Dev.finish, h, hlive, if_true]

theorem Dev.finish_of_none {d : Dev} {q i : Nat} (h : (d.qp q).item i = none) (st : Nat) (partly : Bool) (detail : Nat) :
    d.finish q i st partly detail = d := by
  simp only [Dev.finish, h]

theorem Dev.markEnded_hi (d : Dev) (q i st : Nat) (partly : Bool) (detail : Nat) (x : Option Descr) :
    (d.markEnded q i st partly detail x).hi = (d.onItem q i fun it => { it with phase := .ended st partly (BitVec.ofNat 32 detail) }).hi := by
  unfold Dev.markEnded
  dsimp only
  split
  · split
    · exact (Dev.dropFrame_keeps ..).parts .hi (by decide)
    · exact (Dev.noteLast_keeps ..).parts .hi (by decide)
  · rfl

/-- What ends one descriptor leaves every other one whose ring can be written. -/
theorem Dev.finish_sameItem (d : Dev) {q i k j : Nat} (hne : (k, j) ≠ (q, i)) (hring : (d.qp q).silent = false)
    (st : Nat) (partly : Bool) (detail : Nat) : Dev.SameItem q i d (d.finish k j st partly detail) := by
  cases hitem : (d.qp k).item j with
  | none => rw [Dev.finish_of_none hitem]; exact .refl q i d
  | some it =>
    cases hlive : it.hasEnded with
    | true => rw [Dev.finish_of_ended hitem hlive]; exact .refl q i d
    | false =>
      rw [Dev.finish_of_live hitem hlive]
      have hqp := Dev.qp_congr (d.markEnded_hi k j st partly detail it.desc) q
      by_cases hk : q = k
      · subst hk
        rw [Dev.qp_onItem] at hqp
        have hopen : ((d.markEnded q j st partly detail it.desc).qp q).silent = false := by rw [hqp]; exact hring
        rw [Dev.drainItems_of_ring hopen, Dev.SameItem, Dev.qp_congr (Dev.hi_showQp ..), hqp]
        have hij : j ≠ i := fun h => hne (h ▸ rfl)
        exact ⟨find?_onFirst_of_ne (f := fun it => { it with phase := .ended st partly (BitVec.ofNat 32 detail) }) (fun _ => rfl) hij _, rfl⟩
      · refine .of_qp ?_
        rw [Dev.qp_drainItems_of_ne _ hk, hqp, Dev.qp_onItem_of_ne _ hk]

theorem Dev.Over.finish {d : Dev} {q i st : Nat} (h : d.Over q i st) (k j st' : Nat) (partly : Bool) (detail : Nat) :
    (d.finish k j st' partly detail).Over q i st := by
  by_cases hsame : (k, j) = (q, i)
  · obtain ⟨rfl, rfl⟩ := hsame
    obtain ⟨⟨it, _, _, hit, hphase⟩, -⟩ := id h
    rwa [Dev.finish_of_ended hit (by rw [Item.hasEnded, hphase])]
  · exact (d.finish_sameItem hsame h.2 st' partly detail).over h

theorem Dev.finish_over {d : Dev} {q i : Nat} (h : d.underWay q i) (st : Nat) (partly : Bool) (detail : Nat) :
    (d.finish q i st partly detail).Over q i st := by
  refine ⟨Dev.finish_ends h st partly detail, ?_⟩
  obtain ⟨it, hit, hlive, hring⟩ := h
  have hqp := Dev.qp_congr (d.markEnded_hi q i st partly detail it.desc) q
  rw [Dev.qp_onItem] at hqp
  have hopen : ((d.markEnded q i st partly detail it.desc).qp q).silent = false := by rw [hqp]; exact hring
  rwa [Dev.finish_of_live hit hlive, Dev.drainItems_of_ring hopen, Dev.qp_congr (Dev.hi_showQp ..)]

/-! ### A descriptor in progress -/

theorem Dev.finishJob_sameItem (d : Dev) {q i : Nat} {job : Option (Nat × Nat)} (hne : job ≠ some (q, i)) (hring : (d.qp q).silent = false)
    (st detail : Nat) : Dev.SameItem q i d (d.finishJob job st detail) := by
  cases job with
  | none => exact .refl q i d
  | some p => exact d.finish_sameItem (fun h => hne (congrArg some h)) hring st false detail

theorem Dev.Over.finishJob {d : Dev} {q i st : Nat} (h : d.Over q i st) (job : Option (Nat × Nat)) (st' detail : Nat) :
    (d.finishJob job st' detail).Over q i st := by
  cases job with
  | none => exact h
  | some p => exact h.finish p.1 p.2 st' false detail

theorem Dev.finishJob_over {d : Dev} {q i : Nat} (h : d.underWay q i) (st detail : Nat) :
    (d.finishJob (some (q, i)) st detail).Over q i st := Dev.finish_over h st false detail

/-! ### A descriptor without a host range -/

/-- The opcodes of the sequencers' descriptors. -/
theorem Dev.windowCheck_of_sequencer (d : Dev) {x : Descr} (h : 0x10 ≤ x.opcode ∧ x.opcode < 0x20) : d.windowCheck x = none := by
  have hreads : hostReads x = none := by
    unfold hostReads
    rw [if_neg (by simp only [Op.MEM_WRITE]; omega), if_neg (by simp only [Op.CAN_TX]; omega), if_neg]
    simp [Op.UNSEAL, Op.ATTEST, Op.SESSION_OPEN, Op.ENROLL, Op.REVOKE, Op.UPDATE_WRITE, Op.UPDATE_ACTIVATE, Op.KEY_LOAD, Op.KEY_ERASE,
      Op.RAISE_COUNTER]
    omega
  have hwrites : hostWrites x = none := by
    unfold hostWrites
    rw [if_neg (by simp only [Op.SNAPSHOT]; omega), if_neg]
    simp [Op.MEM_READ, Op.STREAM_BUF, Op.CAN_RXBUF, Op.IDENTITY, Op.ATTEST, Op.LEDGER_READ, Op.LIFETIME_READ]
    omega
  rw [Dev.windowCheck, hreads, hwrites]
  rfl

end Sys2Proof.Machine
end

section
/-! The drive sequencer's operations: parameter block, seed, start and rest (R251 to R259). -/

namespace Sys2Proof.Machine

/-! ### Parameters of a loop -/

theorem Dev.lt_setLt (d : Dev) (off o : Nat) (v : Word) : (d.setLt off v).lt o = if o = off then v else d.lt o := Tbl.get_set ..

theorem Dev.lt_congr {d e : Dev} (h : e.be = d.be) (o : Nat) : e.lt o = d.lt o := by rw [Dev.lt, Dev.lt, h]

theorem Dev.lt_setPars_of_not_mem (l : Nat) {k : Nat} {vs : List (Nat × Word)} (h : ∀ v, (k, v) ∉ vs) (d : Dev) :
    (d.setPars l vs).lt (parBase l + 4 * k) = d.lt (parBase l + 4 * k) := by
  induction vs generalizing d with
  | nil => rfl
  | cons p r ih =>
    have hk : k ≠ p.1 := fun hk => h p.2 (hk ▸ .head _)
    refine (ih (fun v hv => h v (.tail _ hv)) (d.setPar l p.1 p.2)).trans ?_
    rw [Dev.setPar, Dev.lt_setLt, if_neg (by omega)]

/-- A parameter reads as it was last set. -/
theorem Dev.lt_setPars (l : Nat) {k : Nat} {v : Word} {vs : List (Nat × Word)} (hkeys : (vs.map Prod.fst).Nodup) (h : (k, v) ∈ vs) (d : Dev) :
    (d.setPars l vs).lt (parBase l + 4 * k) = v := by
  induction vs generalizing d with
  | nil => cases h
  | cons p r ih =>
    obtain ⟨hp, hr⟩ := List.nodup_cons.mp hkeys
    rcases List.mem_cons.mp h with rfl | h
    · refine (Dev.lt_setPars_of_not_mem l (fun v hv => hp (List.mem_map.mpr ⟨_, hv, rfl⟩)) (d.setPar l k v)).trans ?_
      rw [Dev.setPar, Dev.lt_setLt, if_pos rfl]
    · exact ih hr h (d.setPar l p.1 p.2)

theorem Keeps.primaryLoop {w : Foot} {d e : Dev} (hk : Keeps w d e) (s : Nat)
    (hw : [F.BE_LP_CFG_enable, F.BE_LP_CFG_role, F.BE_LP_CFG_home].all w.avoids = true) : e.primaryLoop s = d.primaryLoop s := by
  simp only [List.all_cons, List.all_nil, Bool.and_true, Bool.and_eq_true] at hw
  obtain ⟨henable, hrole, hhome⟩ := hw
  have hisAux : e.isAux = d.isAux := funext fun l => hk.flag F.BE_LP_CFG_role l hrole
  have hhomes : e.home = d.home := funext fun l => hk.rd F.BE_LP_CFG_home l hhome
  have hloops : e.loops = d.loops := by
    rw [Dev.loops, Dev.loops]
    exact List.filter_congr fun l _ => hk.flag F.BE_LP_CFG_enable l henable
  rw [Dev.primaryLoop, Dev.primaryLoop, hloops, hisAux, hhomes]

/-! ### A drive's speed, position and block -/

/-- What a drive's speed is read from. -/
def drSpeedFields : List Fd := [F.SC_DR_CFG_secondary, F.SC_DR_CFG_pos_port, F.PS_SEC_SPEED, F.PS_OBS_SPEED]

theorem Keeps.drSpeed {w : Foot} {d e : Dev} (hk : Keeps w d e) (a : Nat) (hw : drSpeedFields.all w.avoids = true) :
    e.drSpeed a = d.drSpeed a := by
  simp only [drSpeedFields, List.all_cons, List.all_nil, Bool.and_true, Bool.and_eq_true] at hw
  obtain ⟨hsecondary, hport, hsec, hobs⟩ := hw
  rw [Dev.drSpeed, Dev.drSpeed, Dev.drSecondary, Dev.drSecondary, Dev.drPort, Dev.drPort, hk.flag _ _ hsecondary, hk.rd _ _ hport,
    hk.toFrame.word F.PS_SEC_SPEED _ hsec rfl rfl, hk.toFrame.word F.PS_OBS_SPEED _ hobs rfl rfl]

theorem Keeps.drKnown {w : Foot} {d e : Dev} (hk : Keeps w d e) (a : Nat)
    (hw : [F.SC_DR_CFG_secondary, F.SC_DR_CFG_pos_port, F.PS_STAT_running, F.PS_STAT_locked].all w.avoids = true) :
    e.drKnown a = d.drKnown a := by
  simp only [List.all_cons, List.all_nil, Bool.and_true, Bool.and_eq_true] at hw
  obtain ⟨hsecondary, hport, hrunning, hlocked⟩ := hw
  rw [Dev.drKnown, Dev.drKnown, Dev.drSecondary, Dev.drSecondary, Dev.drPort, Dev.drPort, Dev.portLocked, Dev.portLocked,
    hk.flag _ _ hsecondary, hk.rd _ _ hport, hk.flag _ _ hrunning, hk.flag _ _ hlocked]

/-- The values of a drive's block (R253). -/
def Dev.drPars (d : Dev) (a : Nat) : List (Nat × Word) :=
  [(48, wholeQ (d.drive a).pmode), (49, (d.drive a).target), (50, wholeQ (d.rd F.SC_DR_STAT_token a)), (51, (d.drive a).seedPos),
    (52, (d.drive a).seedSpd), (55, if d.drSecondary a then (d.drive a).mirHall else 0), (56, if d.drSecondary a then (d.drive a).mirSpd else 0)]

theorem Dev.drBlock_lt (d : Dev) (a : Nat) {l k : Nat} {v : Word} (hl : d.primaryLoop (drStage a) = some l) (h : (k, v) ∈ d.drPars a) :
    (d.drBlock a).lt (parBase l + 4 * k) = v := by
  rw [Dev.drBlock, hl]
  exact Dev.lt_setPars l (vs := d.drPars a) (show [48, 49, 50, 51, 52, 55, 56].Nodup by decide) h d

theorem Dev.drive_drBlock (d : Dev) (a k : Nat) : (d.drBlock a).drive k = d.drive k :=
  Dev.drive_congr ((d.drBlock_keeps a).parts .dr (by decide)) k

theorem Dev.drive_drGo (d : Dev) (a new k : Nat) : (d.drGo a new).drive k = d.drive k :=
  Dev.drive_congr ((d.drGo_keeps a new).parts .dr (by decide)) k

theorem Dev.drState_drBlock (d : Dev) (a k : Nat) : (d.drBlock a).drState k = d.drState k :=
  (d.drBlock_keeps a).rd F.SC_DR_STAT_state k (by decide)

theorem Dev.drState_onDr (d : Dev) (a : Nat) (f : DrT → DrT) (k : Nat) : (d.onDr a f).drState k = d.drState k :=
  (d.onDr_keeps a f).rd F.SC_DR_STAT_state k (by decide)

theorem Dev.drState_drFinish (d : Dev) (a st k : Nat) : (d.drFinish a st).drState k = d.drState k :=
  (d.drFinish_keeps a st).rd F.SC_DR_STAT_state k (by decide)

/-! ### A seed (R256, R258) -/

theorem Dev.drSeed_drive (d : Dev) (a : Nat) : ∃ pos, (d.drSeed a).drive a =
    { d.drive a with pmode := (d.drive a).mode, seedPos := pos, seedSpd := d.drSpeed a } := by
  set e := d.wr F.SC_DR_STAT_token a ((d.rd F.SC_DR_STAT_token a + 1) % 256) with he
  have hk : Keeps ⟨false, [F.SC_DR_STAT_token], []⟩ d e := Dev.wr_keeps _ _ _ _ (by decide)
  have hseed : d.drSeed a = (e.onDr a fun v => { v with pmode := v.mode, seedPos := e.drPosition a, seedSpd := e.drSpeed a }).drBlock a := rfl
  rw [hseed, Dev.drive_drBlock, Dev.drive_onDr_self, hk.drSpeed a (by decide), Dev.drive_congr (hk.parts .dr (by decide))]
  exact ⟨_, rfl⟩

theorem Dev.drSeed_token (d : Dev) (a : Fin 6) : (d.drSeed a).rd F.SC_DR_STAT_token a = (d.rd F.SC_DR_STAT_token a + 1) % 256 := by
  unfold Dev.drSeed
  dsimp only
  rw [(Dev.drBlock_keeps ..).rd F.SC_DR_STAT_token a (by decide), (Dev.onDr_keeps ..).rd F.SC_DR_STAT_token a (by decide)]
  exact Dev.rd_wr_of_lt _ F.SC_DR_STAT_token _ (by decide) (Nat.mod_lt _ (by decide : 0 < 2 ^ 8))

theorem Dev.drOpen_drive (d : Dev) (a : Nat) : ∃ pos base, (d.drOpen a).drive a =
    { d.drive a with pmode := (d.drive a).mode, seedPos := pos, seedSpd := d.drSpeed a, base := base } := by
  obtain ⟨pos, hseed⟩ := d.drSeed_drive a
  unfold Dev.drOpen
  dsimp only
  rw [Dev.drive_onDr_self, hseed]
  exact ⟨_, _, rfl⟩

theorem Dev.drOpen_token (d : Dev) (a : Fin 6) : (d.drOpen a).rd F.SC_DR_STAT_token a = (d.rd F.SC_DR_STAT_token a + 1) % 256 := by
  rw [← d.drSeed_token]
  exact (Dev.onDr_keeps ..).rd F.SC_DR_STAT_token a (by decide)

theorem Dev.drOpen_state (d : Dev) (a k : Nat) : (d.drOpen a).drState k = d.drState k := (d.drOpen_keeps a).rd F.SC_DR_STAT_state k (by decide)

/-! ### A start (R256) -/

/-- A drive whose speed is known and low enough opens its start. -/
theorem Dev.drTry_opens {d : Dev} {a : Nat} (hstate : d.drState a = 3) (hbase : (d.drive a).base = none) (hknown : d.drKnown a = true)
    (hlow : (d.drSpeed a).toInt.natAbs ≤ 65536 * d.rd F.SC_DR_SPD_catch a) : d.drTry a = d.drOpen a := by
  rw [Dev.drTry, if_pos ⟨hstate, hbase, hknown⟩, if_neg (by omega)]

theorem Dev.drTry_refuses {d : Dev} {a : Nat} (hstate : d.drState a = 3) (hbase : (d.drive a).base = none) (hknown : d.drKnown a = true)
    (hhigh : 65536 * d.rd F.SC_DR_SPD_catch a < (d.drSpeed a).toInt.natAbs) : d.drTry a = (d.drFinish a Code.SPEED_HIGH).drGo a 2 := by
  rw [Dev.drTry, if_pos ⟨hstate, hbase, hknown⟩, if_pos hhigh]

theorem Dev.drTry_waits {d : Dev} {a : Nat} (hknown : d.drKnown a = false) : d.drTry a = d := by
  rw [Dev.drTry, hknown, if_neg (by simp)]

/-- A start that began, before its speed is looked at. -/
def Dev.drBegun (d : Dev) (a : Nat) : Dev := (d.onDr a fun v => { v with since := d.time, base := none }).drGo a 3

theorem Dev.drBegun_keeps (d : Dev) (a : Nat) : Keeps ⟨false, [F.SC_DR_STAT_state], [.dr, .hi]⟩ d (d.drBegun a) :=
  ((Dev.onDr_keeps ..).within (by decide)).trans ((Dev.drGo_keeps ..).within (by decide))

theorem Dev.drBegun_drive (d : Dev) (a : Nat) : (d.drBegun a).drive a = { d.drive a with since := d.time, base := none } := by
  rw [Dev.drBegun, Dev.drive_drGo, Dev.drive_onDr_self]

theorem Dev.drBegun_state (d : Dev) (a : Fin 6) : (d.drBegun a).drState a = 3 := Dev.drState_drGo _ a (by decide)

theorem Dev.drBegin_waits {d : Dev} {a : Nat} (hknown : d.drKnown a = false) : d.drBegin a = d.drBegun a :=
  Dev.drTry_waits (((d.drBegun_keeps a).drKnown a (by decide)).trans hknown)

theorem Dev.drBegin_opens {d : Dev} {a : Fin 6} (hknown : d.drKnown a = true)
    (hlow : (d.drSpeed a).toInt.natAbs ≤ 65536 * d.rd F.SC_DR_SPD_catch a) : d.drBegin a = (d.drBegun a).drOpen a := by
  have hk := d.drBegun_keeps a
  rw [← hk.drSpeed a (by decide), ← hk.rd F.SC_DR_SPD_catch a (by decide)] at hlow
  exact Dev.drTry_opens (d.drBegun_state a) (congrArg DrT.base (d.drBegun_drive a)) ((hk.drKnown a (by decide)).trans hknown) hlow

theorem Dev.drBegin_refuses {d : Dev} {a : Fin 6} (hknown : d.drKnown a = true)
    (hhigh : 65536 * d.rd F.SC_DR_SPD_catch a < (d.drSpeed a).toInt.natAbs) :
    d.drBegin a = ((d.drBegun a).drFinish a Code.SPEED_HIGH).drGo a 2 := by
  have hk := d.drBegun_keeps a
  rw [← hk.drSpeed a (by decide), ← hk.rd F.SC_DR_SPD_catch a (by decide)] at hhigh
  exact Dev.drTry_refuses (d.drBegun_state a) (congrArg DrT.base (d.drBegun_drive a)) ((hk.drKnown a (by decide)).trans hknown) hhigh

/-- A start that is not refused is in STARTING since now. -/
theorem Dev.drBegin_starts (d : Dev) (a : Fin 6) (h : d.drKnown a = true → (d.drSpeed a).toInt.natAbs ≤ 65536 * d.rd F.SC_DR_SPD_catch a) :
    (d.drBegin a).drState a = 3 ∧ ((d.drBegin a).drive a).since = d.time := by
  have hbegun := d.drBegun_drive a
  cases hknown : d.drKnown a with
  | false =>
    rw [Dev.drBegin_waits hknown, hbegun]
    exact ⟨d.drBegun_state a, rfl⟩
  | true =>
    obtain ⟨pos, base, hopen⟩ := (d.drBegun a).drOpen_drive a
    rw [Dev.drBegin_opens hknown (h hknown), Dev.drOpen_state, hopen, hbegun]
    exact ⟨d.drBegun_state a, rfl⟩

/-! ### The rest of a drive (R259) -/

theorem Dev.drRest_drive (d : Dev) (a : Nat) : (d.drRest a).drive a = { d.drive a with pmode := 0, base := none } := by
  rw [Dev.drRest, Dev.drive_drBlock, Dev.drive_onDr_self, Dev.drive_congr ((Dev.stopStage_keeps ..).parts .dr (by decide))]

end Sys2Proof.Machine
end

section
/-! The drive's own events (R252, R256 to R258, R260, R261); obligation O26. -/

namespace Sys2Proof.Machine

/-- A drive whose descriptor is over and that went on. -/
theorem Dev.drFinish_drGo (d : Dev) (a : Fin 6) (st : Nat) {new : Nat} (h : new < 16) :
    ((d.drFinish a st).drGo a new).drState a = new ∧ (((d.drFinish a st).drGo a new).drive a).job = none := by
  rw [Dev.drive_drGo, Dev.drFinish_drive]
  exact ⟨Dev.drState_drGo _ a h, rfl⟩

/-- HOLDING of a drive at its target. -/
def Dev.drHold (d : Dev) (a : Nat) : Dev := ((d.onDr a fun v => { v with pmode := 3 }).drBlock a).drGo a 6

/-- What an event at the target leaves. -/
def Dev.drArrive (d : Dev) (a : Nat) : Dev := (if (d.drive a).hold then d.drHold a else d.drGo a 5).drFinish a Code.OK

theorem Dev.drArrive_shows (d : Dev) (a : Fin 6) : ((d.drArrive a).drive a).job = none ∧
    ((d.drive a).hold = true → (d.drArrive a).drState a = 6 ∧ ((d.drArrive a).drive a).pmode = 3) ∧
    ((d.drive a).hold = false → (d.drArrive a).drState a = 5 ∧ ((d.drArrive a).drive a).pmode = (d.drive a).pmode) := by
  have hhold : (d.drHold a).drive a = { d.drive a with pmode := 3 } := by
    rw [Dev.drHold, Dev.drive_drGo, Dev.drive_drBlock, Dev.drive_onDr_self]
  rw [Dev.drArrive, Dev.drFinish_drive, Dev.drState_drFinish]
  refine ⟨rfl, fun h => ?_, fun h => ?_⟩
  · rw [if_pos h, hhold]
    exact ⟨Dev.drState_drGo _ a (by decide), rfl⟩
  · rw [if_neg (by simp [h]), Dev.drive_drGo]
    exact ⟨Dev.drState_drGo _ a (by decide), rfl⟩

/-! ### The mirror of secondary feedback (R252) -/

/-- Halls and speed of the secondary set, taken. -/
def Dev.drTakeMirror (d : Dev) (a : Nat) : Dev :=
  (d.onDr a fun v =>
    { v with mirHall := wholeQ (d.rd F.PS_STAT_sec_hall (d.drPort a)), mirSpd := d.word (F.PS_SEC_SPEED.off (d.drPort a) 0) }).drBlock a

/-- A drive mirrors hall and spd: its state and its loop's parameter. -/
def Dev.Mirrors (d : Dev) (a : Nat) (hall spd : Word) : Prop :=
  (d.drive a).mirHall = hall ∧ (d.drive a).mirSpd = spd ∧ d.drSecondary a = true ∧
    ∀ l, d.primaryLoop (drStage a) = some l → d.lt (parBase l + 4 * 56) = spd

/-- What leaves the mirror, the loop's parameters and the drive's place keeps the mirroring. -/
theorem Dev.Mirrors.keeps {w : Foot} {d e : Dev} {a : Nat} {hall spd : Word} (h : d.Mirrors a hall spd) (hk : Keeps w d e)
    (hw : [F.BE_LP_CFG_enable, F.BE_LP_CFG_role, F.BE_LP_CFG_home, F.SC_DR_CFG_secondary].all w.avoids = true) (hp : Part.be ∉ w.parts)
    (hhall : (e.drive a).mirHall = (d.drive a).mirHall) (hspd : (e.drive a).mirSpd = (d.drive a).mirSpd) : e.Mirrors a hall spd := by
  obtain ⟨h1, h2, h3, h4⟩ := h
  simp only [List.all_cons, List.all_nil, Bool.and_true, Bool.and_eq_true] at hw
  obtain ⟨henable, hrole, hhome, hsecondary⟩ := hw
  refine ⟨hhall.trans h1, hspd.trans h2, (hk.flag _ _ hsecondary).trans h3, fun l hl => ?_⟩
  rw [hk.primaryLoop _ (by simp [henable, hrole, hhome])] at hl
  rw [Dev.lt_congr (hk.parts .be hp)]
  exact h4 l hl

/-- A block of a drive with secondary feedback carries its mirror. -/
theorem Dev.drBlock_mirrors {d : Dev} {a : Nat} (h : d.drSecondary a = true) :
    (d.drBlock a).Mirrors a (d.drive a).mirHall (d.drive a).mirSpd := by
  have hk := d.drBlock_keeps a
  rw [Dev.Mirrors, Dev.drive_drBlock, hk.primaryLoop _ (by decide)]
  refine ⟨rfl, rfl, (hk.flag F.SC_DR_CFG_secondary a (by decide)).trans h, fun l hl => ?_⟩
  exact d.drBlock_lt a hl (by simp [Dev.drPars, h])

theorem Dev.drTakeMirror_mirrors {d : Dev} {a : Nat} (h : d.drSecondary a = true) :
    (d.drTakeMirror a).Mirrors a (wholeQ (d.rd F.PS_STAT_sec_hall (d.drPort a))) (d.word (F.PS_SEC_SPEED.off (d.drPort a) 0)) := by
  have hmirrors := Dev.drBlock_mirrors (d := d.onDr a fun v =>
    { v with mirHall := wholeQ (d.rd F.PS_STAT_sec_hall (d.drPort a)), mirSpd := d.word (F.PS_SEC_SPEED.off (d.drPort a) 0) }) (a := a) h
  rwa [Dev.drive_onDr_self] at hmirrors

/-- A seed writes the block again, with the same mirror. -/
theorem Dev.Mirrors.drOpen {d : Dev} {a : Nat} {hall spd : Word} (h : d.Mirrors a hall spd) : (d.drOpen a).Mirrors a hall spd := by
  set e := d.wr F.SC_DR_STAT_token a ((d.rd F.SC_DR_STAT_token a + 1) % 256)
  set g := e.onDr a fun v => { v with pmode := v.mode, seedPos := e.drPosition a, seedSpd := e.drSpeed a } with hg
  obtain ⟨h1, h2, h3, -⟩ := h
  have hk : Keeps ⟨false, [F.SC_DR_STAT_token], [.dr]⟩ d g :=
    ((Dev.wr_keeps _ F.SC_DR_STAT_token _ _ (by decide)).within (by decide)).trans ((Dev.onDr_keeps ..).within (by decide))
  have hdrive : e.drive a = d.drive a := rfl
  have hsecondary : g.drSecondary a = true := (hk.flag F.SC_DR_CFG_secondary a (by decide)).trans h3
  have hseed : (d.drSeed a).Mirrors a hall spd := by
    have hblock := Dev.drBlock_mirrors hsecondary
    rw [hg, Dev.drive_onDr_self, hdrive, ← hg, h1, h2] at hblock
    exact hblock
  unfold Dev.drOpen
  dsimp only
  exact hseed.keeps (Dev.onDr_keeps ..) (by decide) (by decide) (by rw [Dev.drive_onDr_self]) (by rw [Dev.drive_onDr_self])

theorem Dev.Mirrors.drTry {d : Dev} {a : Nat} {hall spd : Word} (h : d.Mirrors a hall spd) : (d.drTry a).Mirrors a hall spd := by
  unfold Dev.drTry
  split
  · split
    · refine (h.keeps (Dev.drFinish_keeps d a Code.SPEED_HIGH) (by decide) (by decide) ?_ ?_).keeps (Dev.drGo_keeps ..) (by decide) (by decide)
        (by rw [Dev.drive_drGo]) (by rw [Dev.drive_drGo])
      · rw [Dev.drFinish_drive]
      · rw [Dev.drFinish_drive]
    · exact h.drOpen
  · exact h

/-! ### A drive that is lost (R261) -/

theorem Dev.drLost_shows (d : Dev) (a : Fin 6) (r : Report) : let n := (((d.drRest a).drGo a 9).drFinish a Code.FENCED).post r
    n.drState a = 9 ∧ (n.drive a).job = none ∧ n.Stopped (drStage a) := by
  have hpost := (((d.drRest a).drGo a 9).drFinish a Code.FENCED).post_keeps r
  refine ⟨?_, ?_, ?_⟩
  · rw [Dev.drState, hpost.rd F.SC_DR_STAT_state a (by decide)]
    exact (Dev.drState_drFinish ..).trans (Dev.drState_drGo _ a (by decide))
  · rw [Dev.drive_congr (hpost.parts .dr (by decide)), Dev.drFinish_drive]
  · exact (((d.drRest_stops a).keeps (Dev.drGo_keeps ..) (by decide)).keeps (Dev.drFinish_keeps ..) (by decide)).keeps hpost (by decide)

/-! ### The obligation -/

/-- Settles O26: each event of a drive acts where its condition holds. -/
theorem driveEvents : Obligations.DriveEvents := by
  unfold Obligations.DriveEvents
  intro s t a d v
  refine ⟨?lock, ?reached, ?timeout, ?reengage, ?mirror, ?loss⟩
  case lock =>
    intro hstate hbase hdue hknown
    refine Does.of_effect (show exec _ s = execDrLockTimeout t a s from rfl) ?_
    rw [if_pos ⟨hstate, hbase, hdue⟩, if_neg (by rw [show s.now t = d from rfl, hknown]; decide)]
    exact d.drFinish_drGo a Code.NO_CATCH (by decide)
  case reached =>
    intro hstate hreached
    refine Does.of_effect (show exec _ s = execDrTargetReached t a s from rfl) ?_
    rw [if_pos ⟨hstate, hreached⟩]
    exact d.drArrive_shows a
  case timeout =>
    intro hstate hdue hreached
    refine Does.of_effect (show exec _ s = execDrMoveTimeout t a s from rfl) ?_
    rw [if_pos ⟨hstate, hdue, hreached⟩]
    refine ⟨Dev.drState_drGo _ a (by decide), ?_, ((Dev.drRest_stops _ a).keeps (Dev.drGo_keeps ..) (by decide))⟩
    rw [Dev.drive_drGo, Dev.drRest_drive, Dev.drFinish_drive]
  case reengage =>
    intro hstate hlow hcatch
    refine Does.of_effect (show exec _ s = execDrReengage t a s from rfl) ?_
    rw [if_pos ⟨hstate, hlow⟩]
    exact d.drBegin_starts a fun _ => hcatch
  case mirror =>
    intro hstate hsecondary
    refine Does.of_effect (show exec _ s = execDrMirrorUpdate t a s from rfl) ?_
    have hmirrors := (Dev.drTakeMirror_mirrors hsecondary).drTry
    have hplace : (((d.drTakeMirror a).drTry a)).primaryLoop (drStage a) = d.primaryLoop (drStage a) := by
      rw [(Dev.drTry_keeps ..).primaryLoop _ (by decide), Dev.drTakeMirror, (Dev.drBlock_keeps ..).primaryLoop _ (by decide),
        (Dev.onDr_keeps ..).primaryLoop _ (by decide)]
    obtain ⟨hhall, hspd, -, hpar⟩ := hmirrors
    rw [if_neg hstate]
    dsimp only
    rw [if_pos (show (s.now t).drSecondary a = true from hsecondary)]
    exact ⟨hhall, hspd, fun l hl => hpar l (hplace.trans hl)⟩
  case loss =>
    intro hlow hhigh hlost
    refine Does.of_effect (show exec _ s = execDrLoss t a s from rfl) ?_
    rw [if_pos ⟨hlow, hhigh, hlost⟩]
    exact d.drLost_shows a _

end Sys2Proof.Machine
end

section
/-! The drive's descriptors (R251 to R262); obligation O25. -/

namespace Sys2Proof.Machine

/-! ### Descriptors beside the drive's own steps -/

theorem Dev.drGo_sameItem (d : Dev) (a new q i : Nat) : Dev.SameItem q i d (d.drGo a new) := by
  unfold Dev.drGo
  dsimp only
  split
  · exact .refl ..
  · exact (((Dev.wr_keeps d F.SC_DR_STAT_state a new (by decide))).sameItem q i (by decide)).trans (Dev.stateEvent_sameItem ..)

theorem Dev.drFinish_sameItem (d : Dev) (a st : Nat) {q i : Nat} (hne : (d.drive a).job ≠ some (q, i)) (hring : (d.qp q).silent = false) :
    Dev.SameItem q i d (d.drFinish a st) :=
  (d.finishJob_sameItem hne hring st 0).trans ((Dev.onDr_keeps ..).sameItem q i (by decide))

theorem Dev.drTake_drive (d : Dev) (a q i mode : Nat) (hold : Bool) (target : Word) :
    (d.drTake a q i mode hold target).drive a = { d.drive a with job := some (q, i), mode := mode, hold := hold, target := target } := by
  rw [Dev.drTake, Dev.drive_onDr_self, Dev.drFinish_drive]

theorem Dev.drTake_sameItem (d : Dev) (a : Nat) {q i : Nat} (mode : Nat) (hold : Bool) (target : Word)
    (hne : (d.drive a).job ≠ some (q, i)) (hring : (d.qp q).silent = false) : Dev.SameItem q i d (d.drTake a q i mode hold target) :=
  (d.drFinish_sameItem a Code.STALE hne hring).trans ((Dev.onDr_keeps ..).sameItem q i (by decide))

theorem Dev.drState_drTake (d : Dev) (a q i mode : Nat) (hold : Bool) (target : Word) (k : Nat) :
    (d.drTake a q i mode hold target).drState k = d.drState k := (d.drTake_keeps ..).rd F.SC_DR_STAT_state k (by decide)

theorem Dev.drive_finish (d : Dev) (q i st : Nat) (partly : Bool) (detail k : Nat) : (d.finish q i st partly detail).drive k = d.drive k :=
  Dev.drive_congr ((Dev.finish_keeps ..).parts .dr (by decide)) k

theorem Dev.drState_finish (d : Dev) (q i st : Nat) (partly : Bool) (detail k : Nat) :
    (d.finish q i st partly detail).drState k = d.drState k := (Dev.finish_keeps ..).rd F.SC_DR_STAT_state k (by decide)

/-! ### DR_START (R256) -/

section
variable {d : Dev} {a : Fin 6} {q i mode : Nat} {hold : Bool} {target : Word}

/-- The drive as a start that begins leaves it. -/
theorem Dev.drBegun_of_take : ((d.drTake a q i mode hold target).drBegun a).drive a =
    { d.drive a with job := some (q, i), mode := mode, hold := hold, target := target, since := d.time, base := none } := by
  rw [Dev.drBegun_drive, Dev.drTake_drive, (d.drTake_keeps a q i mode hold target).time]

theorem Dev.drStart_waits (hknown : d.drKnown a = false) : let n := (d.drTake a q i mode hold target).drBegin a
    n.drState a = 3 ∧ (n.drive a).job = some (q, i) ∧ (n.drive a).mode = mode ∧ (n.drive a).hold = hold ∧ (n.drive a).target = target ∧
      (n.drive a).since = d.time := by
  rw [Dev.drBegin_waits (((d.drTake_keeps ..).drKnown a (by decide)).trans hknown)]
  dsimp only
  rw [Dev.drBegun_of_take]
  exact ⟨Dev.drBegun_state _ a, rfl, rfl, rfl, rfl, rfl⟩

theorem Dev.drStart_opens (hknown : d.drKnown a = true) (hlow : (d.drSpeed a).toInt.natAbs ≤ 65536 * d.rd F.SC_DR_SPD_catch a) :
    let n := (d.drTake a q i mode hold target).drBegin a
    n.drState a = 3 ∧ (n.drive a).job = some (q, i) ∧ (n.drive a).seedSpd = d.drSpeed a ∧ (n.drive a).pmode = mode ∧
      n.rd F.SC_DR_STAT_token a = (d.rd F.SC_DR_STAT_token a + 1) % 256 := by
  have hk := d.drTake_keeps a q i mode hold target
  have hspeed := hk.drSpeed a (by decide)
  rw [← hspeed, ← hk.rd F.SC_DR_SPD_catch a (by decide)] at hlow
  have hbegun := (d.drTake a q i mode hold target).drBegun_keeps a
  obtain ⟨pos, base, hopen⟩ := ((d.drTake a q i mode hold target).drBegun a).drOpen_drive a
  rw [Dev.drBegin_opens ((hk.drKnown a (by decide)).trans hknown) hlow]
  dsimp only
  rw [Dev.drOpen_state, hopen, Dev.drBegun_of_take, Dev.drOpen_token,
    hbegun.rd F.SC_DR_STAT_token a (by decide), hk.rd F.SC_DR_STAT_token a (by decide), hbegun.drSpeed a (by decide), hspeed]
  exact ⟨Dev.drBegun_state _ a, rfl, rfl, rfl, rfl⟩

theorem Dev.drStart_refuses (hknown : d.drKnown a = true) (hhigh : 65536 * d.rd F.SC_DR_SPD_catch a < (d.drSpeed a).toInt.natAbs)
    (hlive : d.underWay q i) (hne : (d.drive a).job ≠ some (q, i)) : let n := (d.drTake a q i mode hold target).drBegin a
    n.drState a = 2 ∧ n.endedWith q i Code.SPEED_HIGH := by
  have hk := d.drTake_keeps a q i mode hold target
  rw [← hk.drSpeed a (by decide), ← hk.rd F.SC_DR_SPD_catch a (by decide)] at hhigh
  rw [Dev.drBegin_refuses ((hk.drKnown a (by decide)).trans hknown) hhigh]
  refine ⟨Dev.drState_drGo _ a (by decide), ?_⟩
  have hring : (d.qp q).silent = false := by
    obtain ⟨-, -, -, hring⟩ := hlive
    exact hring
  have htaken : (d.drTake a q i mode hold target).underWay q i := (d.drTake_sameItem a mode hold target hne hring).underWay hlive
  have hbegun : ((d.drTake a q i mode hold target).drBegun a).underWay q i :=
    (((Dev.onDr_keeps ..).sameItem q i (by decide)).trans (Dev.drGo_sameItem ..)).underWay htaken
  have hjob : (((d.drTake a q i mode hold target).drBegun a).drive a).job = some (q, i) := by rw [Dev.drBegun_of_take]
  have hover : (((d.drTake a q i mode hold target).drBegun a).drFinish a Code.SPEED_HIGH).Over q i Code.SPEED_HIGH := by
    rw [Dev.drFinish, hjob]
    exact ((Dev.onDr_keeps ..).sameItem q i (by decide)).over (Dev.finishJob_over hbegun Code.SPEED_HIGH 0)
  exact ((Dev.drGo_sameItem ..).over hover).1

/-! ### DR_TARGET (R258, R262) -/

theorem Dev.drTarget_opens (hstate : d.drState a = 3) (hbase : (d.drive a).base.isSome = true) (hmode : mode ≠ (d.drive a).mode) :
    let n := d.drTarget a q i mode hold target
    n.drState a = 3 ∧ (n.drive a).job = some (q, i) ∧ (n.drive a).mode = mode ∧ (n.drive a).pmode = mode ∧ (n.drive a).target = target ∧
      (n.drive a).seedSpd = d.drSpeed a ∧ n.rd F.SC_DR_STAT_token a = (d.rd F.SC_DR_STAT_token a + 1) % 256 := by
  have hgo : d.drTarget a q i mode hold target = (d.drTake a q i mode hold target).drOpen a := by
    have hnone : (d.drive a).base.isNone = false := by rw [Option.isNone_eq_false_iff]; exact hbase
    simp [Dev.drTarget, hstate, hmode, Ne.symm hmode, hnone]
  have hk := d.drTake_keeps a q i mode hold target
  obtain ⟨pos, base, hopen⟩ := (d.drTake a q i mode hold target).drOpen_drive a
  rw [hgo]
  dsimp only
  rw [Dev.drOpen_state, hopen, Dev.drOpen_token, Dev.drTake_drive, Dev.drState_drTake, hk.rd F.SC_DR_STAT_token a (by decide),
    hk.drSpeed a (by decide)]
  exact ⟨hstate, rfl, rfl, rfl, rfl, rfl, rfl⟩

/-- A move that goes on keeps its time. -/
theorem Dev.drMove_of_moving {d : Dev} (hstate : d.drState a = 4) : (d.drMove a).drState a = 4 ∧ (d.drMove a).drive a = d.drive a := by
  have hcleared : ∀ e : Dev, e.drState a = 4 → e.drive a = d.drive a →
      ((if e.drState a = 4 then e else e.onDr a fun v => { v with since := e.time }).drGo a 4).drState a = 4 ∧
        ((if e.drState a = 4 then e else e.onDr a fun v => { v with since := e.time }).drGo a 4).drive a = d.drive a := by
    intro e he hdrive
    rw [if_pos he, Dev.drive_drGo]
    exact ⟨Dev.drState_drGo _ a (by decide), hdrive⟩
  unfold Dev.drMove
  dsimp only
  split
  next l _ =>
    exact hcleared _ (((d.onLoop_keeps l _).rd F.SC_DR_STAT_state a (by decide)).trans hstate)
      (Dev.drive_congr ((d.onLoop_keeps l _).parts .dr (by decide)) a)
  · exact hcleared _ hstate rfl

theorem Dev.drTarget_moves (hstate : d.drState a = 4) (hmode : mode = 1) (hold1 : (d.drive a).mode = 1) (htarget : target ≠ (d.drive a).target) :
    let n := d.drTarget a q i mode hold target
    n.drState a = 4 ∧ (n.drive a).since = (d.drive a).since ∧ (n.drive a).target = target ∧ (n.drive a).job = some (q, i) := by
  have hgo : d.drTarget a q i mode hold target = ((d.drTake a q i mode hold target).drBlock a).drMove a := by
    simp [Dev.drTarget, hstate, hmode, hold1, Ne.symm htarget]
  have hmoving : ((d.drTake a q i mode hold target).drBlock a).drState a = 4 := by rw [Dev.drState_drBlock, Dev.drState_drTake, hstate]
  obtain ⟨h1, h2⟩ := Dev.drMove_of_moving hmoving
  rw [hgo]
  dsimp only
  rw [h1, h2, Dev.drive_drBlock, Dev.drTake_drive]
  exact ⟨rfl, rfl, rfl, rfl⟩

theorem Dev.drTarget_leaves (hstate : d.drState a = 2 ∨ d.drState a = 9) : d.drTarget a q i mode hold target = d.finish q i Code.OK := by
  rw [Dev.drTarget]
  exact if_pos hstate

theorem Dev.drTarget_sets (hstate : d.drState a = 7) (hmode : mode = 2) (hsame : negQ target = negQ (d.drSpeed a) ∨ target = 0)
    (hlive : d.underWay q i) : let n := d.drTarget a q i mode hold target
    n.endedWith q i Code.OK ∧ n.drState a = 7 ∧ (n.drive a).target = target ∧
      ∀ l, d.primaryLoop (drStage a) = some l → n.lt (parBase l + 4 * 49) = target := by
  set e := d.onDr a fun v => { v with target := target, hold := hold } with he
  have hkeep : ¬ (negQ target ≠ negQ (d.drSpeed a) ∧ target ≠ 0 ∧ 65536 * d.rd F.SC_DR_SPD_reengage a < (d.drSpeed a).toInt.natAbs) := by
    rintro ⟨h1, h2, -⟩
    exact hsame.elim h1 h2
  have hgo : d.drTarget a q i mode hold target = (e.drBlock a).finish q i Code.OK := by
    rw [Dev.drTarget]
    dsimp only
    rw [if_neg (by omega), if_neg (by omega), if_neg (by omega), if_pos ⟨hstate, hmode⟩, if_neg hkeep]
  have htarget : (e.drive a).target = target := by rw [he, Dev.drive_onDr_self]
  rw [hgo]
  dsimp only
  rw [Dev.drState_finish, Dev.drState_drBlock, Dev.drive_finish, Dev.drive_drBlock]
  refine ⟨Dev.finish_ends ?_ .., hstate, htarget, fun l hl => ?_⟩
  · exact (((Dev.onDr_keeps ..).sameItem q i (by decide)).trans ((Dev.drBlock_keeps ..).sameItem q i (by decide))).underWay hlive
  · rw [Dev.lt_congr ((Dev.finish_keeps ..).parts .be (by decide))]
    refine e.drBlock_lt a (((Dev.onDr_keeps ..).primaryLoop _ (by decide)).trans hl) ?_
    rw [Dev.drPars, htarget]
    simp

theorem Dev.drTarget_reverses (hstate : d.drState a = 7) (hmode : mode = 2) (hsign : negQ target ≠ negQ (d.drSpeed a)) (hzero : target ≠ 0)
    (hfast : 65536 * d.rd F.SC_DR_SPD_reengage a < (d.drSpeed a).toInt.natAbs) : let n := d.drTarget a q i mode hold target
    n.drState a = 8 ∧ (n.drive a).job = some (q, i) ∧ n.Stopped (drStage a) := by
  have hgo : d.drTarget a q i mode hold target = ((d.drTake a q i mode hold target).drRest a).drGo a 8 := by
    rw [Dev.drTarget]
    dsimp only
    rw [if_neg (by omega), if_neg (by omega), if_neg (by omega), if_pos ⟨hstate, hmode⟩, if_pos ⟨hsign, hzero, hfast⟩]
  rw [hgo]
  dsimp only
  rw [Dev.drive_drGo, Dev.drRest_drive, Dev.drTake_drive]
  exact ⟨Dev.drState_drGo _ a (by decide), rfl, (Dev.drRest_stops _ a).keeps (Dev.drGo_keeps ..) (by decide)⟩

/-! ### DR_STOP (R259) -/

theorem Dev.drStop_shows (d : Dev) (a : Fin 6) (word : Nat) : (d.drStop a word).drState a = 2 ∧ ((d.drStop a word).drive a).job = none ∧
    ((d.drStop a word).drive a).pmode = 0 ∧ (d.drStop a word).Stopped (drStage a) := by
  rw [Dev.drStop, Dev.drive_drGo, Dev.drRest_drive, Dev.drFinish_drive]
  exact ⟨Dev.drState_drGo _ a (by decide), rfl, rfl, (Dev.drRest_stops _ a).keeps (Dev.drGo_keeps ..) (by decide)⟩

theorem Dev.drStop_sameItem (d : Dev) (a word : Nat) {q i : Nat} (hne : (d.drive a).job ≠ some (q, i)) (hring : (d.qp q).silent = false) :
    Dev.SameItem q i d (d.drStop a word) :=
  ((d.drFinish_sameItem a word hne hring).trans ((Dev.drRest_keeps ..).sameItem q i (by decide))).trans (Dev.drGo_sameItem ..)

end

/-! ### The obligation -/

/-- A sequencer's descriptor that stands and is handed on starts. -/
theorem Does.of_handed {s : State} {t q i op : Nat} {c : Instr} {x : Descr} {f : Dev → Descr → Dev} {P : Dev → Prop}
    (hexec : exec c s = effect t s fun d => d.startItem q i op .handed f) (hstand : (s.now t).standing q i .handed x) (hop : x.opcode = op)
    (hrange : 0x10 ≤ op ∧ op < 0x20) (h : P (f ((s.now t).started q i) x)) : Does s c P := by
  refine Does.of_effect hexec ?_
  rwa [Dev.startItem_of_standing hstand hop (Dev.windowCheck_of_sequencer _ (hop ▸ hrange))]

/-- Settles O25: DR_START begins a start, DR_TARGET answers by the drive's state, DR_STOP leaves it at rest. -/
theorem driveCommands : Obligations.DriveCommands := by
  unfold Obligations.DriveCommands
  intro s t q i x a d v mode hold target speed ha hstand henable hjob
  set e := d.started q i with he
  have hk : Keeps ⟨false, [F.HI_QP_CTRL_draining, F.HI_QP_FLAGS_in_flight], [.hi]⟩ d e := d.started_keeps q i
  have hlive : e.underWay q i := Dev.underWay_started hstand
  have hring : (e.qp q).silent = false := by
    obtain ⟨-, -, -, hring⟩ := hlive
    exact hring
  have hdrive : e.drive a = v := Dev.drive_congr (hk.parts .dr (by decide)) a
  have hstate : e.drState a = d.drState a := hk.rd F.SC_DR_STAT_state a (by decide)
  have hspeed : e.drSpeed a = speed := hk.drSpeed a (by decide)
  have hen : e.flag F.SC_DR_CFG_enable a = true := (hk.flag F.SC_DR_CFG_enable a (by decide)).trans henable
  have hcatch : e.rd F.SC_DR_SPD_catch a = d.rd F.SC_DR_SPD_catch a := hk.rd F.SC_DR_SPD_catch a (by decide)
  have hreengage : e.rd F.SC_DR_SPD_reengage a = d.rd F.SC_DR_SPD_reengage a := hk.rd F.SC_DR_SPD_reengage a (by decide)
  have htoken : e.rd F.SC_DR_STAT_token a = d.rd F.SC_DR_STAT_token a := hk.rd F.SC_DR_STAT_token a (by decide)
  have hknown : e.drKnown a = d.drKnown a := hk.drKnown a (by decide)
  have hloop : e.primaryLoop (drStage a) = d.primaryLoop (drStage a) := hk.primaryLoop _ (by decide)
  have hsealed : e.isSealed = d.isSealed := congrArg (· == DevSt.sealed) (hk.rd F.DEV_STATE_state 0 (by decide))
  have hother : (e.drive a).job ≠ some (q.val, i) := by rwa [hdrive]
  have htime : e.time = d.time := hk.time
  have hrange : ¬ 6 ≤ x.target := by omega
  have hstart : ∀ {P : Dev → Prop}, x.opcode = Op.DR_START → P (e.drStart q i x) → Does s (.drStart t q i) P :=
    fun hop h => Does.of_handed rfl hstand hop (by decide) h
  have htarget : ∀ {P : Dev → Prop}, x.opcode = Op.DR_TARGET → d.drState a ≠ 1 → P (e.drTarget a q i mode hold target) →
      Does s (.drTarget t q i) P := fun hop hon h => by
    refine Does.of_handed (show exec _ s = execDrTarget t q i s from rfl) hstand hop (by decide) ?_
    rw [if_neg hrange, ha, ← he, hen, hstate, if_neg (by simpa using hon)]
    exact h
  have hbegins : d.isSealed = true → d.drState a = 2 ∨ d.drState a = 9 → e.drStart q i x = (e.drTake a q i mode hold target).drBegin a := by
    intro hsl hst
    simp only [Dev.drStart, ha, hen, hsealed, hsl, hstate, hst]
    rw [if_neg (by omega), if_neg (by simp), if_neg (by simp), if_neg (by omega), if_pos trivial]
  rw [← hdrive, ← hspeed, ← hcatch, ← hstate, ← hreengage, ← htoken, ← hknown, ← hloop, ← hsealed, ← htime]
  rw [← hsealed, ← hstate] at hbegins
  rw [← hstate] at htarget
  refine ⟨?start, ?unsealed, ?off, ?opens, ?moves, ?leaves, ?sets, ?reverses, ?stop⟩
  case start =>
    intro hop hsl hst
    have hgo := hbegins hsl hst
    exact ⟨fun hkn => hstart hop (by rw [hgo]; exact Dev.drStart_waits hkn), fun hkn hlow => hstart hop (by rw [hgo]; exact Dev.drStart_opens hkn hlow),
      fun hkn hhigh => hstart hop (by rw [hgo]; exact Dev.drStart_refuses hkn hhigh hlive hother)⟩
  case unsealed =>
    intro hop hsl
    refine hstart hop ?_
    have hgo : e.drStart q i x = e.finish q i Code.NOT_SEALED := by
      simp only [Dev.drStart, ha, hen, hsl]
      rw [if_neg (by omega), if_neg (by simp), if_pos (by simp)]
    rw [hgo, Dev.drState_finish]
    exact ⟨Dev.finish_ends hlive .., rfl⟩
  case off =>
    intro hop hsl hst
    refine hstart hop ?_
    have hgo : e.drStart q i x = e.finish q i Code.FENCED := by
      simp only [Dev.drStart, ha, hen, hsl]
      rw [if_neg (by omega), if_neg (by simp), if_neg (by simp), if_pos hst]
    rw [hgo, Dev.drive_finish]
    exact ⟨Dev.finish_ends hlive .., rfl⟩
  case opens => exact fun hop hst hbase hmode => htarget hop (by omega) (Dev.drTarget_opens hst hbase hmode)
  case moves => exact fun hop hst hmode hmode1 hne => htarget hop (by omega) (Dev.drTarget_moves hst hmode hmode1 hne)
  case leaves =>
    intro hop hst
    refine htarget hop (by omega) ?_
    rw [Dev.drTarget_leaves hst, Dev.drState_finish, Dev.drive_finish]
    exact ⟨Dev.finish_ends hlive .., rfl, rfl⟩
  case sets => exact fun hop hst hmode hsame => htarget hop (by omega) (Dev.drTarget_sets hst hmode hsame hlive)
  case reverses => exact fun hop hst hmode h1 h2 h3 => htarget hop (by omega) (Dev.drTarget_reverses hst hmode h1 h2 h3)
  case stop =>
    intro hop hst
    refine Does.of_handed (show exec _ s = execDrStop t q i s from rfl) hstand hop (by decide) ?_
    obtain ⟨h1, h2, h3, h4⟩ := e.drStop_shows a Code.STALE
    have hends := Dev.finish_ends ((e.drStop_sameItem a Code.STALE hother hring).underWay hlive) Code.OK false 0
    rw [if_neg hrange, ha, ← he, hen, if_neg (by simpa using hst), Dev.drState_finish, Dev.drive_finish]
    exact ⟨hends, h1, h2, h3, h4.keeps (Dev.finish_keeps ..) (by decide)⟩

end Sys2Proof.Machine
end

section
/-! The traction sequencer's operations: what they read, its parameter block and its descriptor in progress (R205 to R222). -/

namespace Sys2Proof.Machine

/-! ### Blocks of several loops -/

theorem Dev.lt_setPars_of_other {keys : List Nat} (hsmall : ∀ k ∈ keys, k < 64) {l l' k : Nat} (hk : k < 64) (hl : l' ≠ l)
    {vs : List (Nat × Word)} (hkeys : vs.map Prod.fst = keys) (d : Dev) : (d.setPars l' vs).lt (parBase l + 4 * k) = d.lt (parBase l + 4 * k) := by
  induction vs generalizing d keys with
  | nil => rfl
  | cons p r ih =>
    subst hkeys
    have hp : p.1 < 64 := hsmall _ (.head _)
    refine (ih (fun k hk => hsmall k (.tail _ hk)) rfl (d.setPar l' p.1 p.2)).trans ?_
    rw [Dev.setPar, Dev.lt_setLt, if_neg (by unfold parBase; omega)]

/-- A block written to several loops in turn: what one of them reads, where its turns' value does not depend on the order. -/
theorem Dev.each_setPars_lt {keys ls : List Nat} {pars : Dev → Nat → List (Nat × Word)} {d : Dev} {l k : Nat} {v : Word}
    (hkeys : ∀ e l, (pars e l).map Prod.fst = keys) (hnodup : keys.Nodup) (hsmall : ∀ k ∈ keys, k < 64) (hk : k < 64) (hl : l ∈ ls)
    (hval : ∀ e, Keeps ⟨false, [], [.be]⟩ d e → (k, v) ∈ pars e l) :
    (d.each ls fun d l => d.setPars l (pars d l)).lt (parBase l + 4 * k) = v := by
  have hturn : ∀ (e : Dev) (q : Nat), Keeps ⟨false, [], [.be]⟩ d e → Keeps ⟨false, [], [.be]⟩ d (e.setPars q (pars e q)) :=
    fun e q h => h.trans (Dev.setPars_keeps ..)
  refine (Dev.each_reaches_of (I := Keeps ⟨false, [], [.be]⟩ d)
    (P := fun e => Keeps ⟨false, [], [.be]⟩ d e ∧ e.lt (parBase l + 4 * k) = v) hl (fun e q _ h => hturn e q h) (fun e h => ?_)
    (fun e q _ h => ?_) d (.refl _ d)).2
  · exact ⟨hturn e l h, Dev.lt_setPars l (by rw [hkeys]; exact hnodup) (hval e h) e⟩
  · obtain ⟨hkeep, hlt⟩ := h
    refine ⟨hturn e q hkeep, ?_⟩
    by_cases hq : q = l
    · subst hq
      exact Dev.lt_setPars q (by rw [hkeys]; exact hnodup) (hval e hkeep) e
    · rw [Dev.lt_setPars_of_other hsmall hk hq (hkeys e q), hlt]

/-! ### What a machine reads -/

theorem Keeps.tmSets {w : Foot} {d e : Dev} (hk : Keeps w d e) (m : Nat) (hw : w.avoids F.SC_TM_CFG_sets = true) : e.tmSets m = d.tmSets m := by
  rw [Dev.tmSets, Dev.tmSets, hk.rd _ _ hw]

theorem Keeps.refSet {w : Foot} {d e : Dev} (hk : Keeps w d e) (m : Nat) (hw : w.avoids F.SC_TM_CFG_sets = true) : e.refSet m = d.refSet m := by
  rw [Dev.refSet, Dev.refSet, hk.rd _ _ hw]

theorem Keeps.tmStages {w : Foot} {d e : Dev} (hk : Keeps w d e) (m : Nat) (hw : w.avoids F.SC_TM_CFG_sets = true) :
    e.tmStages m = d.tmStages m := by
  rw [Dev.tmStages, Dev.tmStages, hk.tmSets m hw]

/-- What a machine's loops are read from. -/
def tmLoopFields : List Fd :=
  [F.BE_LP_CFG_enable, F.BE_LP_CFG_role, F.BE_LP_CFG_home, F.SC_TM_CFG_sets, F.SC_TM_CFG_fusee_en, F.SC_TM_CFG_fusee_loop]

theorem Keeps.tmLoops {w : Foot} {d e : Dev} (hk : Keeps w d e) (m : Nat) (hw : tmLoopFields.all w.avoids = true) : e.tmLoops m = d.tmLoops m := by
  simp only [tmLoopFields, List.all_cons, List.all_nil, Bool.and_true, Bool.and_eq_true] at hw
  obtain ⟨henable, hrole, hhome, hsets, hen, hloop⟩ := hw
  have hprimary : e.primaryLoop = d.primaryLoop := funext fun s => hk.primaryLoop s (by simp [henable, hrole, hhome])
  rw [Dev.tmLoops, Dev.tmLoops, hk.tmStages m hsets, hprimary, hk.flag _ _ hen, hk.rd _ _ hloop]

/-- What the available sets are read from, besides the fences. -/
def tmSetFields : List Fd :=
  [F.BE_LP_CFG_enable, F.BE_LP_CFG_role, F.BE_LP_CFG_home, F.SC_TM_CFG_sets, F.TB_STG_CFG_enable, F.TB_STG_CFG_source, F.TB_STG_STAT_tripped]

theorem Keeps.stageFit {w : Foot} {d e : Dev} (hk : Keeps w d e) (s : Nat)
    (hw : [F.TB_STG_CFG_enable, F.TB_STG_CFG_source, F.TB_STG_STAT_tripped].all w.avoids = true) (hp : Part.flt ∉ w.parts) :
    e.stageFit s = d.stageFit s := by
  simp only [List.all_cons, List.all_nil, Bool.and_true, Bool.and_eq_true] at hw
  obtain ⟨henable, hsource, htripped⟩ := hw
  rw [Dev.stageFit, Dev.stageFit, Dev.loopStage, Dev.loopStage, hk.flag _ _ henable, hk.rd _ _ hsource, hk.flag _ _ htripped,
    Dev.fenced_congr (hk.parts .flt hp)]

theorem Keeps.availableSets {w : Foot} {d e : Dev} (hk : Keeps w d e) (m : Nat) (hw : tmSetFields.all w.avoids = true)
    (hp : Part.flt ∉ w.parts) : e.availableSets m = d.availableSets m := by
  simp only [tmSetFields, List.all_cons, List.all_nil, Bool.and_true, Bool.and_eq_true] at hw
  obtain ⟨henable, hrole, hhome, hsets, hen, hsource, htripped⟩ := hw
  have hprimary : e.primaryLoop = d.primaryLoop := funext fun s => hk.primaryLoop s (by simp [henable, hrole, hhome])
  have hfit : e.stageFit = d.stageFit := funext fun s => hk.stageFit s (by simp [hen, hsource, htripped]) hp
  have hfenced : e.fenced = d.fenced := funext fun k => funext fun i => Dev.fenced_congr (hk.parts .flt hp) k i
  have havailable : e.setAvailable m = d.setAvailable m := funext fun k => by
    rw [Dev.setAvailable, Dev.setAvailable, hprimary, hfit, hfenced]
  rw [Dev.availableSets, Dev.availableSets, hk.tmSets m hsets, havailable]

theorem Keeps.linkVolts {w : Foot} {d e : Dev} (hk : Keeps w d e) (m : Nat) (hw : tmSetFields.all w.avoids = true) (hv : w.avoids F.SH_DV = true)
    (hp : Part.flt ∉ w.parts) : e.linkVolts m = d.linkVolts m := by
  have hsets : w.avoids F.SC_TM_CFG_sets = true := List.all_eq_true.mp hw _ (by decide)
  rw [Dev.linkVolts, Dev.linkVolts, Dev.q16, Dev.q16, hk.availableSets m hw hp, hk.refSet m hsets, hk.toFrame.word F.SH_DV _ hv rfl rfl]

theorem Keeps.emfAbove {w : Foot} {d e : Dev} (hk : Keeps w d e) (m : Nat) (n : Int) (v : Rat) (hw : w.avoids F.SC_TM_KE = true) :
    e.emfAbove m n v = d.emfAbove m n v := by
  rw [Dev.emfAbove, Dev.emfAbove, Dev.q16, Dev.q16, hk.toFrame.word F.SC_TM_KE _ hw rfl rfl]

/-! ### A machine's place -/

theorem Dev.tmOf_onTm (d : Dev) (m : Nat) (f : TmT → TmT) : (d.onTm m f).tmOf m = f (d.tmOf m) :=
  (Tbl.get_set ..).trans (if_pos rfl)

theorem Dev.tmOf_congr {d e : Dev} (h : e.tm = d.tm) (m : Nat) : e.tmOf m = d.tmOf m := by
  rw [Dev.tmOf, Dev.tmOf, h]

theorem Keeps.tmOf {w : Foot} {d e : Dev} (hk : Keeps w d e) (m : Nat) (hp : Part.tm ∉ w.parts) : e.tmOf m = d.tmOf m :=
  Dev.tmOf_congr (hk.parts .tm hp) m

theorem Dev.tmFinish_tmOf (d : Dev) (m st : Nat) : (d.tmFinish m st).tmOf m = { d.tmOf m with job := none } := by
  rw [Dev.tmFinish, Dev.tmOf_onTm, (Dev.finishJob_keeps ..).tmOf m (by decide)]

theorem Dev.tmSupersede_tmOf (d : Dev) (m : Nat) (job : Nat × Nat) (mode : Nat) (target : Word) :
    (d.tmSupersede m job mode target).tmOf m = { d.tmOf m with job := some job, mode := mode, target := target } := by
  rw [Dev.tmSupersede, Dev.tmOf_onTm, Dev.tmFinish_tmOf]

theorem Dev.tmRest_tmOf (d : Dev) (m : Nat) : (d.tmRest m).tmOf m = { d.tmOf m with pmode := 0 } := by
  have hstop : ((d.stopStages (d.tmStages m)).wr F.SC_TM_STAT_active m 0).tmOf m = d.tmOf m :=
    Dev.tmOf_congr ((Dev.wr_keeps _ F.SC_TM_STAT_active _ _ (by decide)).parts .tm (by decide) |>.trans
      ((Dev.stopStages_keeps ..).parts .tm (by decide))) m
  rw [Dev.tmRest, (Dev.tmBlock_keeps ..).tmOf m (by decide), Dev.tmOf_onTm, hstop]

/-- Refused, a start ends and the machine stays stopped. -/
theorem Dev.tmRefuse_shows (d : Dev) (m : Fin 2) (st : Nat) : (d.tmRefuse m st).tmState m = 2 ∧ ((d.tmRefuse m st).tmOf m).job = none := by
  rw [Dev.tmRefuse, (Dev.tmGo_keeps ..).tmOf m (by decide), Dev.tmFinish_tmOf]
  exact ⟨Dev.tmState_tmGo _ m (by decide), rfl⟩

/-- A measurement begins now. -/
theorem Dev.tmMeasure_shows (d : Dev) (m : Fin 2) : (d.tmMeasure m).tmState m = 3 ∧ ∃ edges e1 e2 ej other hidden, (d.tmMeasure m).tmOf m =
    { d.tmOf m with since := d.time, edges := edges, e1 := e1, e2 := e2, ej := ej, other := other, hidden := hidden } := by
  unfold Dev.tmMeasure
  dsimp only
  rw [(Dev.tmGo_keeps ..).tmOf m (by decide), Dev.tmOf_onTm, Dev.tmOf_onTm]
  exact ⟨Dev.tmState_tmGo _ m (by decide), _, _, _, _, _, _, rfl⟩

/-! ### Its block (R208) -/

/-- A mode that the block carries. -/
theorem Dev.tmBlock_mode (d : Dev) {m l : Nat} (hl : l ∈ d.tmLoops m) : (d.tmBlock m).lt (parBase l + 4 * 48) = wholeQ (d.tmOf m).pmode :=
  Dev.each_setPars_lt (keys := [48, 49, 50, 51, 52, 53, 54, 55, 56, 57, 58]) (fun _ _ => rfl) (by decide) (by decide) (by decide) hl
    fun _ _ => .head _

/-- A machine at rest shows STOPPED in every loop it serves. -/
theorem Dev.tmRest_lt (d : Dev) {m l : Nat} (hl : l ∈ d.tmLoops m) : (d.tmRest m).lt (parBase l + 4 * 48) = 0 := by
  have hk : Keeps ⟨false, [F.TB_STG_RUN_run, F.TB_STG_STAT_running, F.PG_STAT_out_high, F.PG_STAT_out_low, F.SC_TM_STAT_active,
      F.SC_ABS_LEFT_left, F.SC_ABS_LEFT_awaiting], [.tb, .pp, .tm, .sc]⟩ d
      (((d.stopStages (d.tmStages m)).wr F.SC_TM_STAT_active m 0).onTm m fun v => { v with pmode := 0 }) :=
    (((Dev.stopStages_keeps ..).within (by decide)).trans ((Dev.wr_keeps _ F.SC_TM_STAT_active _ _ (by decide)).within (by decide))).trans ((Dev.onTm_keeps ..).within (by decide))
  rw [Dev.tmRest, Dev.tmBlock_mode _ (by rw [hk.tmLoops m (by decide)]; exact hl), Dev.tmOf_onTm]
  exact show wholeQ (0 : Nat) = 0 by decide

theorem Dev.tmRest_active (d : Dev) (m : Fin 2) : (d.tmRest m).rd F.SC_TM_STAT_active m = 0 := by
  rw [Dev.tmRest, (Dev.tmBlock_keeps ..).rd F.SC_TM_STAT_active m (by decide), (Dev.onTm_keeps ..).rd F.SC_TM_STAT_active m (by decide)]
  exact Dev.rd_wr_of_lt _ F.SC_TM_STAT_active _ (by decide) (by decide)

/-! ### Descriptors beside the machine's own steps -/

theorem Dev.tmGo_sameItem (d : Dev) (m new q i : Nat) : Dev.SameItem q i d (d.tmGo m new) := by
  unfold Dev.tmGo
  dsimp only
  split
  · exact .refl ..
  · exact ((Dev.wr_keeps d F.SC_TM_STAT_state m new (by decide)).sameItem q i (by decide)).trans (Dev.stateEvent_sameItem ..)

theorem Dev.tmFinish_sameItem (d : Dev) (m st : Nat) {q i : Nat} (hne : (d.tmOf m).job ≠ some (q, i)) (hring : (d.qp q).silent = false) :
    Dev.SameItem q i d (d.tmFinish m st) :=
  (d.finishJob_sameItem hne hring st 0).trans ((Dev.onTm_keeps ..).sameItem q i (by decide))

/-- A machine stopped. -/
theorem Dev.tmStop_shows (d : Dev) (m : Fin 2) (word : Nat) : (d.tmStop m word).tmState m = 2 ∧ (d.tmStop m word).rd F.SC_TM_STAT_active m = 0 ∧
    ((d.tmStop m word).tmOf m).job = none ∧ (∀ k ∈ d.tmStages m, (d.tmStop m word).Stopped k) ∧
    ∀ l ∈ d.tmLoops m, (d.tmStop m word).lt (parBase l + 4 * 48) = 0 := by
  have hfin := d.tmFinish_keeps m word
  rw [Dev.tmStop]
  refine ⟨Dev.tmState_tmGo _ m (by decide), ?_, ?_, fun k hk => ?_, fun l hl => ?_⟩
  · rw [(Dev.tmGo_keeps ..).rd F.SC_TM_STAT_active m (by decide), Dev.tmRest_active]
  · rw [(Dev.tmGo_keeps ..).tmOf m (by decide), Dev.tmRest_tmOf, Dev.tmFinish_tmOf]
  · exact (Dev.tmRest_stops _ m (by rw [hfin.tmStages m (by decide)]; exact hk)).keeps (Dev.tmGo_keeps ..) (by decide)
  · rw [Dev.lt_congr ((Dev.tmGo_keeps ..).parts .be (by decide)), Dev.tmRest_lt _ (by rw [hfin.tmLoops m (by decide)]; exact hl)]

theorem Dev.tmStop_sameItem (d : Dev) (m word : Nat) {q i : Nat} (hne : (d.tmOf m).job ≠ some (q, i)) (hring : (d.qp q).silent = false) :
    Dev.SameItem q i d (d.tmStop m word) :=
  ((d.tmFinish_sameItem m word hne hring).trans ((Dev.tmRest_keeps ..).sameItem q i (by decide))).trans (Dev.tmGo_sameItem ..)

end Sys2Proof.Machine
end

section
/-! The traction machine's descriptors (R210 to R213, R216, R220, R221); obligation O20. -/

namespace Sys2Proof.Machine

section
variable {d : Dev} {m : Fin 2} {q i mode : Nat} {target : Word}

/-- What a start that is not refused leaves. -/
theorem Dev.tmBegin_shows : let n := (((d.wr F.SC_TM_STAT_lost m 0).tmSupersede m (q, i) mode target).tmMeasure m)
    n.tmState m = 3 ∧ n.rd F.SC_TM_STAT_lost m = 0 ∧ (n.tmOf m).job = some (q, i) ∧ (n.tmOf m).mode = mode ∧ (n.tmOf m).target = target ∧
      (n.tmOf m).since = d.time := by
  obtain ⟨hstate, _, _, _, _, _, _, hplace⟩ := ((d.wr F.SC_TM_STAT_lost m 0).tmSupersede m (q, i) mode target).tmMeasure_shows m
  dsimp only
  rw [hstate, hplace, Dev.tmSupersede_tmOf, (Dev.tmMeasure_keeps ..).rd F.SC_TM_STAT_lost m (by decide),
    (Dev.tmSupersede_keeps ..).rd F.SC_TM_STAT_lost m (by decide), (Dev.tmSupersede_keeps ..).time]
  exact ⟨rfl, Dev.rd_wr_of_lt _ F.SC_TM_STAT_lost _ (by decide) (by decide), rfl, rfl, rfl, rfl⟩

/-- A new target of a machine that runs. -/
def Dev.tmRetarget (d : Dev) (m mode : Nat) (target : Word) : Dev :=
  (if (d.tmOf m).pmode = 3 ∧ mode = 2 then d.tmSeed m (d.word (F.SC_TM_SPEED.off m 0)) else d).onTm m fun v =>
    { v with mode := mode, target := target, pmode := mode + 2 }

theorem Dev.tmRetarget_keeps (d : Dev) (m mode : Nat) (target : Word) :
    Keeps ⟨false, [F.SC_TM_STAT_token], [.tm]⟩ d (d.tmRetarget m mode target) :=
  (Keeps.ite (fun _ => Dev.tmSeed_keeps ..) fun _ => .refl ..).trans ((Dev.onTm_keeps ..).within (by decide))

theorem Dev.tmRetarget_tmOf (d : Dev) (m mode : Nat) (target : Word) : ((d.tmRetarget m mode target).tmOf m).mode = mode ∧
    ((d.tmRetarget m mode target).tmOf m).target = target ∧ ((d.tmRetarget m mode target).tmOf m).pmode = mode + 2 := by
  rw [Dev.tmRetarget, Dev.tmOf_onTm]
  exact ⟨rfl, rfl, rfl⟩

theorem Dev.tmTarget_leaves (hstate : d.tmState m = 2 ∨ d.tmState m = 8) : d.tmTarget m q i mode target = d.finish q i Code.OK := by
  rw [Dev.tmTarget]
  exact if_pos hstate

theorem Dev.tmTarget_sets (hstate : d.tmState m = 6) (hkeep : (d.tmOf m).pmode ≠ 4 ∨ mode ≠ 2 ∨ target = 0) (hlive : d.underWay q i) :
    let n := d.tmTarget m q i mode target
    n.endedWith q i Code.OK ∧ n.tmState m = 6 ∧ (n.tmOf m).mode = mode ∧ (n.tmOf m).target = target ∧
      ∀ l ∈ d.tmLoops m, n.lt (parBase l + 4 * 48) = wholeQ (mode + 2 : Nat) := by
  have hgo : d.tmTarget m q i mode target = ((d.tmRetarget m mode target).tmBlock m).finish q i Code.OK := by
    rw [Dev.tmTarget]
    dsimp only
    rw [if_neg (by omega), if_pos hstate, if_neg]
    · rfl
    · rintro ⟨h1, h2, -, h3, -⟩
      exact hkeep.elim (· h1) fun h => h.elim (· h2) h3
  have hk := d.tmRetarget_keeps m mode target
  have hblock := (d.tmRetarget m mode target).tmBlock_keeps m
  have hfin := ((d.tmRetarget m mode target).tmBlock m).finish_keeps q i Code.OK false 0
  obtain ⟨h1, h2, h3⟩ := d.tmRetarget_tmOf m mode target
  dsimp only
  rw [hgo, Dev.tmState, hfin.rd F.SC_TM_STAT_state m (by decide), hblock.rd F.SC_TM_STAT_state m (by decide),
    hk.rd F.SC_TM_STAT_state m (by decide), hfin.tmOf m (by decide), hblock.tmOf m (by decide)]
  refine ⟨Dev.finish_ends ?_ .., hstate, h1, h2, fun l hl => ?_⟩
  · exact ((hk.sameItem q i (by decide)).trans (hblock.sameItem q i (by decide))).underWay hlive
  · rw [Dev.lt_congr (hfin.parts .be (by decide)), Dev.tmBlock_mode _ (by rw [hk.tmLoops m (by decide)]; exact hl), h3]

theorem Dev.tmTarget_reverses (hstate : d.tmState m = 6) (hpmode : (d.tmOf m).pmode = 4) (hmode : mode = 2) (hzero : target ≠ 0)
    (hsign : negQ target ≠ negQ (d.word (F.SC_TM_SPEED.off m 0)))
    (hfast : d.rd F.SC_TM_REENGAGE m < (d.word (F.SC_TM_SPEED.off m 0)).toInt.natAbs) : let n := d.tmTarget m q i mode target
    n.tmState m = 7 ∧ (n.tmOf m).job = some (q, i) ∧ ∀ k ∈ d.tmStages m, n.Stopped k := by
  set e := d.onTm m fun v => { v with job := some (q, i), mode := mode, target := target, since := d.time } with he
  have hgo : d.tmTarget m q i mode target = (e.tmRest m).tmGo m 7 := by
    rw [Dev.tmTarget]
    dsimp only
    rw [if_neg (by omega), if_pos hstate, if_pos ⟨hpmode, hmode, hsign, hzero, hfast⟩]
  have hstages : e.tmStages m = d.tmStages m := (d.onTm_keeps m _).tmStages m (by decide)
  dsimp only
  rw [hgo, ← hstages, (Dev.tmGo_keeps ..).tmOf m (by decide), Dev.tmRest_tmOf, he, Dev.tmOf_onTm]
  exact ⟨Dev.tmState_tmGo _ m (by decide), rfl,
    fun k hk => (Dev.tmRest_stops _ m hk).keeps (Dev.tmGo_keeps ..) (by decide)⟩

end

/-! ### The obligation -/

/-- Settles O20: TM_START measures or is refused, TM_TARGET answers by the machine's state, TM_STOP leaves it at rest. -/
theorem tractionCommands : Obligations.TractionCommands := by
  unfold Obligations.TractionCommands
  intro s t q i x m d target hm hstand hjob
  set e := d.started q i with he
  have hk : Keeps ⟨false, [F.HI_QP_CTRL_draining, F.HI_QP_FLAGS_in_flight], [.hi]⟩ d e := d.started_keeps q i
  have hlive : e.underWay q i := Dev.underWay_started hstand
  have hring : (e.qp q).silent = false := by
    obtain ⟨-, -, -, hring⟩ := hlive
    exact hring
  have hplace : e.tmOf m = d.tmOf m := hk.tmOf m (by decide)
  have hstate : e.tmState m = d.tmState m := hk.rd F.SC_TM_STAT_state m (by decide)
  have hsealed : e.isSealed = d.isSealed := congrArg (· == DevSt.sealed) (hk.rd F.DEV_STATE_state 0 (by decide))
  have henable : e.flag F.SC_TM_CFG_enable m = d.flag F.SC_TM_CFG_enable m := hk.flag F.SC_TM_CFG_enable m (by decide)
  have hmin : e.rd F.SC_TM_CFG_min_sets m = d.rd F.SC_TM_CFG_min_sets m := hk.rd F.SC_TM_CFG_min_sets m (by decide)
  have hsets : e.availableSets m = d.availableSets m := hk.availableSets m (by decide) (by decide)
  have hloops : e.tmLoops m = d.tmLoops m := hk.tmLoops m (by decide)
  have hstages : e.tmStages m = d.tmStages m := hk.tmStages m (by decide)
  have hspeed : e.word (F.SC_TM_SPEED.off m 0) = d.word (F.SC_TM_SPEED.off m 0) := hk.toFrame.word F.SC_TM_SPEED m (by decide) rfl rfl
  have hreengage : e.rd F.SC_TM_REENGAGE m = d.rd F.SC_TM_REENGAGE m := hk.rd F.SC_TM_REENGAGE m (by decide)
  have htime : e.time = d.time := hk.time
  have hother : (e.tmOf m).job ≠ some (q.val, i) := by rwa [hplace]
  have hrange : ¬ 2 ≤ x.target := by omega
  have hstart : ∀ {P : Dev → Prop}, x.opcode = Op.TM_START → P (e.tmStart q i x) → Does s (.tmStart t q i) P :=
    fun hop h => Does.of_handed rfl hstand hop (by decide) h
  have htarget : ∀ {P : Dev → Prop}, x.opcode = Op.TM_TARGET → e.tmState m ≠ 1 → P (e.tmTarget m q i (x.param1 % 4) target) →
      Does s (.tmTarget t q i) P := fun hop hon h => by
    refine Does.of_handed (show exec _ s = execTmTarget t q i s from rfl) hstand hop (by decide) ?_
    rw [if_neg hrange, hm, if_neg hon]
    exact h
  rw [← hplace, ← hstate, ← hsealed, ← henable, ← hmin, ← hsets, ← hloops, ← hstages, ← hspeed, ← hreengage, ← htime]
  have hends : ∀ st, (e.finish q i st).endedWith q i st ∧ (e.finish q i st).tmState m = e.tmState m := fun st =>
    ⟨Dev.finish_ends hlive .., (Dev.finish_keeps ..).rd F.SC_TM_STAT_state m (by decide)⟩
  refine ⟨?start, ?unsealed, ?off, ?leaves, ?sets, ?reverses, ?stop⟩
  case start =>
    intro hop hen hsl hst
    refine ⟨fun henough => hstart hop ?_, fun hfew => hstart hop ?_⟩
    · have hgo : e.tmStart q i x = ((e.wr F.SC_TM_STAT_lost m 0).tmSupersede m (q, i) (x.param1 % 4) target).tmMeasure m := by
        simp only [Dev.tmStart, hm, hen, hsl]
        rw [if_neg (by omega), if_neg (by simp), if_neg (by simp), if_neg (by omega), if_pos hst, if_neg (by omega)]
      rw [hgo]
      exact Dev.tmBegin_shows
    · have hgo : e.tmStart q i x = e.finish q i Code.FENCED := by
        simp only [Dev.tmStart, hm, hen, hsl]
        rw [if_neg (by omega), if_neg (by simp), if_neg (by simp), if_neg (by omega), if_pos hst, if_pos hfew]
      rw [hgo]
      exact hends _
  case unsealed =>
    intro hop hen hsl
    have hgo : e.tmStart q i x = e.finish q i Code.NOT_SEALED := by
      simp only [Dev.tmStart, hm, hen, hsl]
      rw [if_neg (by omega), if_neg (by simp), if_pos (by simp)]
    exact hstart hop (hgo ▸ hends _)
  case off =>
    intro hop hoff
    have hgo : e.tmStart q i x = e.finish q i Code.FENCED := by
      rcases hoff with hen | ⟨hsl, hst⟩
      · simp only [Dev.tmStart, hm, hen]
        rw [if_neg (by omega), if_pos (by simp)]
      · simp only [Dev.tmStart, hm, hsl]
        rw [if_neg (by omega)]
        split
        · rfl
        · rw [if_neg (by simp)]
    exact hstart hop (hgo ▸ hends _)
  case leaves =>
    intro hop hst
    refine htarget hop (by omega) ?_
    rw [Dev.tmTarget_leaves hst]
    obtain ⟨h1, h2⟩ := hends Code.OK
    exact ⟨h1, (Dev.finish_keeps ..).tmOf m (by decide), h2⟩
  case sets => exact fun hop hst hkeep => htarget hop (by omega) (Dev.tmTarget_sets hst hkeep hlive)
  case reverses =>
    exact fun hop hst hpmode hmode hzero hsign hfast => htarget hop (by omega) (Dev.tmTarget_reverses hst hpmode hmode hzero hsign hfast)
  case stop =>
    intro hop hst
    refine Does.of_handed (show exec _ s = execTmStop t q i s from rfl) hstand hop (by decide) ?_
    obtain ⟨h1, h2, h3, h4, h5⟩ := e.tmStop_shows m Code.STALE
    have hfin := (e.tmStop m Code.STALE).finish_keeps q i Code.OK false 0
    have hends := Dev.finish_ends ((e.tmStop_sameItem m Code.STALE hother hring).underWay hlive) Code.OK false 0
    rw [if_neg hrange, hm, ← he, if_neg hst, Dev.tmState, hfin.rd F.SC_TM_STAT_state m (by decide),
      hfin.rd F.SC_TM_STAT_active m (by decide), hfin.tmOf m (by decide)]
    exact ⟨hends, h1, h2, h3, fun k hk => (h4 k hk).keeps hfin (by decide),
      fun l hl => (Dev.lt_congr (hfin.parts .be (by decide)) _).trans (h5 l hl)⟩

end Sys2Proof.Machine
end

section
/-! The traction machine's catch, its speed and its losses (R207, R214 to R219, R222 to R225); obligation O21. -/

namespace Sys2Proof.Machine

/-! ### Sets as masks -/

theorem setMask_filter_lt (p : Nat → Bool) : setMask ((List.range 4).filter p) < 16 := by
  have hrange : List.range 4 = [0, 1, 2, 3] := rfl
  simp only [hrange, List.filter]
  cases p 0 <;> cases p 1 <;> cases p 2 <;> cases p 3 <;> decide

theorem Dev.tmJoining_mask_lt (d : Dev) (m : Nat) : setMask (d.tmJoining m) < 16 := by
  rw [Dev.tmJoining, Dev.availableSets, Dev.tmSets, List.filter_filter, List.filter_filter]
  exact setMask_filter_lt _

/-- A bit of a four-bit mask, set and cleared. -/
theorem mask_bit : ∀ n < 16, ∀ k < 4, bitOf (n ||| 2 ^ k) k = true ∧ (n ||| 2 ^ k) < 16 ∧
    (bitOf n k = true → bitOf (n - 2 ^ k) k = false ∧ count4 (n - 2 ^ k) + 1 = count4 n) := by
  decide

/-! ### A catch opens (R216, R217) -/

theorem sat32_toInt (w : Word) : sat32 w.toInt = w := by
  have h1 := w.toInt_lt
  have h2 := w.le_toInt
  rw [sat32, clampInt_of_mem (by omega) (by omega), BitVec.ofInt_toInt]

theorem Dev.tmSeed_tmOf (d : Dev) (m : Nat) (speed : Word) : ∃ offsets, (d.tmSeed m speed).tmOf m = { d.tmOf m with seed := speed, offsets := offsets } := by
  unfold Dev.tmSeed
  dsimp only
  rw [Dev.tmOf_onTm]
  exact ⟨_, rfl⟩

theorem Dev.tmSeed_token (d : Dev) (m : Fin 2) (speed : Word) :
    (d.tmSeed m speed).rd F.SC_TM_STAT_token m = (d.rd F.SC_TM_STAT_token m + 1) % 256 := by
  unfold Dev.tmSeed
  dsimp only
  rw [(Dev.onTm_keeps ..).rd F.SC_TM_STAT_token m (by decide)]
  exact Dev.rd_wr_of_lt _ F.SC_TM_STAT_token _ (by decide) (Nat.mod_lt _ (by decide : 0 < 2 ^ 8))

theorem Dev.tmOpen_shows (d : Dev) (m : Fin 2) (pmode : Nat) {new : Nat} (h : new < 16) : (d.tmOpen m pmode new).tmState m = new ∧
    ∃ base, (d.tmOpen m pmode new).tmOf m = { d.tmOf m with pmode := pmode, base := base } := by
  unfold Dev.tmOpen
  dsimp only
  rw [(Dev.tmGo_keeps ..).tmOf m (by decide), Dev.tmOf_onTm, (Dev.tmBlock_keeps ..).tmOf m (by decide), Dev.tmOf_onTm]
  exact ⟨Dev.tmState_tmGo _ m h, _, rfl⟩

theorem Keeps.tmJoining {w : Foot} {d e : Dev} (hk : Keeps w d e) (m : Nat) (hw : tmSetFields.all w.avoids = true)
    (hl : w.avoids F.SC_TM_STAT_lost = true) (hp : Part.flt ∉ w.parts) : e.tmJoining m = d.tmJoining m := by
  rw [Dev.tmJoining, Dev.tmJoining, hk.availableSets m hw hp, hk.rd _ _ hl]

/-- A catch from standstill, with the active sets. -/
def Dev.tmFromRest (d : Dev) (m : Nat) : Dev := (d.wr F.SC_TM_STAT_active m (setMask (d.tmJoining m))).tmOpen m 1 4

/-- A catch of a turning machine. -/
def Dev.tmFromSpeed (d : Dev) (m : Nat) (n : Int) : Dev :=
  ((d.wr F.SC_TM_STAT_active m (setMask (d.tmJoining m))).tmSeed m (sat32 n)).tmOpen m 2 5

theorem Dev.tmFromRest_shows (d : Dev) (m : Fin 2) : (d.tmFromRest m).tmState m = 4 ∧ ((d.tmFromRest m).tmOf m).pmode = 1 ∧
    (d.tmFromRest m).rd F.SC_TM_STAT_active m = setMask (d.tmJoining m) := by
  obtain ⟨hstate, _, hplace⟩ := (d.wr F.SC_TM_STAT_active m (setMask (d.tmJoining m))).tmOpen_shows m 1 (new := 4) (by decide)
  rw [Dev.tmFromRest, hstate, hplace, (Dev.tmOpen_keeps ..).rd F.SC_TM_STAT_active m (by decide)]
  exact ⟨rfl, rfl, Dev.rd_wr_of_lt _ F.SC_TM_STAT_active _ (by decide) (d.tmJoining_mask_lt m)⟩

theorem Dev.tmFromSpeed_shows (d : Dev) (m : Fin 2) (n : Int) : (d.tmFromSpeed m n).tmState m = 5 ∧ ((d.tmFromSpeed m n).tmOf m).pmode = 2 ∧
    ((d.tmFromSpeed m n).tmOf m).seed = sat32 n := by
  obtain ⟨hstate, _, hplace⟩ := ((d.wr F.SC_TM_STAT_active m (setMask (d.tmJoining m))).tmSeed m (sat32 n)).tmOpen_shows m 2 (new := 5) (by decide)
  obtain ⟨_, hseed⟩ := (d.wr F.SC_TM_STAT_active m (setMask (d.tmJoining m))).tmSeed_tmOf m (sat32 n)
  rw [Dev.tmFromSpeed, hstate, hplace, hseed]
  exact ⟨rfl, rfl, rfl⟩

/-- Is every supply of the joining sets above its rising threshold? -/
def Dev.tmSupplied (d : Dev) (m : Nat) : Prop :=
  ∀ k ∈ d.tmJoining m, ∀ j ∈ stagePorts (4 * m + k), d.uvloRise j ≤ 10 * d.rd F.PP_SUPPLY_hi_supply j

section
variable {d : Dev} {m : Fin 2} (henough : max 1 (d.rd F.SC_TM_CFG_min_sets m) ≤ (d.tmJoining m).length)
include henough

theorem Dev.tmDecide_of_still : d.tmDecide m none = d.tmFromRest m := by
  unfold Dev.tmDecide
  dsimp only
  rw [if_neg (by omega)]
  rfl

theorem Dev.tmDecide_of_fast {n : Int} (hfast : d.rd F.SC_TM_CATCH m < n.natAbs) : d.tmDecide m (some n) = d.tmRefuse m Code.SPEED_HIGH := by
  unfold Dev.tmDecide
  dsimp only
  rw [if_neg (by omega), if_pos (.inl hfast)]

theorem Dev.tmDecide_of_slow {n : Int} (hslow : n.natAbs ≤ d.rd F.SC_TM_CATCH m) (hemf : d.emfAbove m n (d.linkVolts m) = false)
    (hsupply : d.tmSupplied m) : d.tmDecide m (some n) = d.tmFromSpeed m n := by
  have hany : ((d.tmJoining m).flatMap fun k => stagePorts (4 * m + k)).any
      (fun p => Nat.blt (10 * d.rd F.PP_SUPPLY_hi_supply p) (d.uvloRise p)) = false := by
    rw [List.any_eq_false]
    intro p hp
    obtain ⟨k, hk, hkp⟩ := List.mem_flatMap.mp hp
    have hle := hsupply k hk p hkp
    rw [Nat.blt_eq]
    omega
  unfold Dev.tmDecide
  dsimp only
  rw [if_neg (by omega), if_neg (by rw [hemf]; simp; omega), if_neg (by rw [hany]; decide)]
  rfl

end

/-- The decision of a machine with a locked position port. -/
def Dev.tmKnow (d : Dev) (m : Nat) (n : Word) : Dev := (d.tmSpeed m n).onTm m fun v => { v with angle := 0, angleUpd := 0 }

theorem Dev.tmKnow_keeps (d : Dev) (m : Nat) (n : Word) : Keeps ⟨false, [F.SC_TM_SPEED], [.tm]⟩ d (d.tmKnow m n) :=
  (Dev.tmSpeed_keeps ..).trans ((Dev.onTm_keeps ..).within (by decide))

theorem Dev.tmSpeed_word (d : Dev) (m : Nat) (n : Word) : (d.tmSpeed m n).word (F.SC_TM_SPEED.off m 0) = n := by
  have hword : (d.wr F.SC_TM_SPEED m n.toNat).word (F.SC_TM_SPEED.off m 0) = BitVec.ofNat 32 n.toNat :=
    d.word_wr_whole F.SC_TM_SPEED m n.toNat rfl rfl
  rw [BitVec.ofNat_toNat, BitVec.setWidth_eq] at hword
  exact hword

theorem Dev.tmSpeed_at (d : Dev) (m : Nat) (n : Word) : ((d.tmSpeed m n).tmOf m).speedAt = some d.time := by
  rw [Dev.tmSpeed, Dev.tmOf_onTm]


theorem Dev.tmDecide_speed (d : Dev) (m : Nat) (n : Option Int) (k : Nat) :
    (d.tmDecide m n).word (F.SC_TM_SPEED.off k 0) = d.word (F.SC_TM_SPEED.off k 0) :=
  (d.tmDecide_keeps m n).toFrame.word F.SC_TM_SPEED k (by decide) rfl rfl

/-- The decision on a machine whose position port knows the speed. -/
theorem Dev.tmKnow_decides {d : Dev} {m : Fin 2} {n : Word} (henough : max 1 (d.rd F.SC_TM_CFG_min_sets m) ≤ (d.tmJoining m).length)
    (v : Option Int) (hv : v = none ∨ v = some n.toInt) : let e := (d.tmKnow m n).tmDecide m v
    e.word (F.SC_TM_SPEED.off m 0) = n ∧
    (v = none → e.tmState m = 4 ∧ (e.tmOf m).pmode = 1 ∧ e.rd F.SC_TM_STAT_active m = setMask (d.tmJoining m)) ∧
    (v ≠ none → d.rd F.SC_TM_CATCH m < n.toInt.natAbs → e.tmState m = 2) ∧
    (v ≠ none → n.toInt.natAbs ≤ d.rd F.SC_TM_CATCH m → d.emfAbove m n.toInt (d.linkVolts m) = false → d.tmSupplied m →
      e.tmState m = 5 ∧ (e.tmOf m).pmode = 2 ∧ (e.tmOf m).seed = n) := by
  have hk := d.tmKnow_keeps m n
  have hjoining : (d.tmKnow m n).tmJoining m = d.tmJoining m := hk.tmJoining m (by decide) (by decide) (by decide)
  have hcatch : (d.tmKnow m n).rd F.SC_TM_CATCH m = d.rd F.SC_TM_CATCH m := hk.rd F.SC_TM_CATCH m (by decide)
  have hemf : (d.tmKnow m n).emfAbove m n.toInt ((d.tmKnow m n).linkVolts m) = d.emfAbove m n.toInt (d.linkVolts m) := by
    rw [hk.emfAbove m _ _ (by decide), hk.linkVolts m (by decide) (by decide) (by decide)]
  have hsupplied : d.tmSupplied m → (d.tmKnow m n).tmSupplied m := by
    intro h k hkm j hj
    have hrise : (d.tmKnow m n).uvloRise j = d.uvloRise j := by
      rw [Dev.uvloRise, Dev.uvloRise, Dev.uvloFall, Dev.uvloFall, hk.rd F.PP_CFG_uvlo j (by decide)]
    rw [hrise, hk.rd F.PP_SUPPLY_hi_supply j (by decide)]
    exact h k (hjoining ▸ hkm) j hj
  rw [← hk.rd F.SC_TM_CFG_min_sets m (by decide), ← hjoining] at henough
  rw [← hjoining, ← hcatch, ← hemf]
  refine ⟨?_, ?_, fun hsome hfast => ?_, fun hsome hslow hemf0 hsup => ?_⟩
  · rw [Dev.tmDecide_speed]
    exact d.tmSpeed_word m n
  · rintro rfl
    rw [Dev.tmDecide_of_still henough]
    exact Dev.tmFromRest_shows _ m
  · obtain rfl := hv.resolve_left hsome
    rw [Dev.tmDecide_of_fast henough hfast]
    exact (Dev.tmRefuse_shows _ m _).1
  · obtain rfl := hv.resolve_left hsome
    rw [Dev.tmDecide_of_slow henough hslow hemf0 (hsupplied hsup)]
    obtain ⟨h1, h2, h3⟩ := (d.tmKnow m n).tmFromSpeed_shows m n.toInt
    exact ⟨h1, h2, h3.trans (sat32_toInt n)⟩

/-! ### Precharge and hold (R217, R219) -/

theorem foldl_max_le {f : Nat → Nat} {b : Nat} (l : List Nat) : ∀ a, a ≤ b → (∀ x ∈ l, f x ≤ b) → l.foldl (fun n k => max n (f k)) a ≤ b := by
  induction l with
  | nil => exact fun a ha _ => ha
  | cons x l ih => exact fun a ha h => ih _ (max_le ha (h x (.head _))) fun y hy => h y (.tail _ hy)

theorem Dev.prechargeEnds_shows (d : Dev) (m : Fin 2) : let n := (d.tmSeed m 0).tmOpen m 2 5
    n.tmState m = 5 ∧ (n.tmOf m).pmode = 2 ∧ (n.tmOf m).seed = 0 ∧ n.rd F.SC_TM_STAT_token m = (d.rd F.SC_TM_STAT_token m + 1) % 256 := by
  obtain ⟨hstate, _, hplace⟩ := (d.tmSeed m 0).tmOpen_shows m 2 (new := 5) (by decide)
  obtain ⟨_, hseed⟩ := d.tmSeed_tmOf m 0
  dsimp only
  rw [hstate, hplace, hseed, (Dev.tmOpen_keeps ..).rd F.SC_TM_STAT_token m (by decide), Dev.tmSeed_token]
  exact ⟨rfl, rfl, rfl, rfl⟩

/-- The end of a hold. -/
def Dev.tmHeld (d : Dev) (m : Nat) : Dev :=
  ((((d.onTm m fun v => { v with pmode := v.mode + 2 }).tmBlock m).tmGo m 6).bump F.SC_TM_CNT_catches m).tmFinish m Code.OK

theorem Dev.tmHeld_shows (d : Dev) (m : Fin 2) : (d.tmHeld m).tmState m = 6 ∧ ((d.tmHeld m).tmOf m).pmode = (d.tmOf m).mode + 2 ∧
    ((d.tmHeld m).tmOf m).job = none ∧ (d.tmHeld m).rd F.SC_TM_CNT_catches m = min (d.rd F.SC_TM_CNT_catches m + 1) 255 := by
  set e := ((d.onTm m fun v => { v with pmode := v.mode + 2 }).tmBlock m).tmGo m 6 with he
  have hbump : Keeps ⟨false, [F.SC_TM_CNT_catches], []⟩ e (e.bump F.SC_TM_CNT_catches m) := Dev.bump_keeps _ _ _ (by decide)
  have hplace : e.tmOf m = { d.tmOf m with pmode := (d.tmOf m).mode + 2 } := by
    rw [he, (Dev.tmGo_keeps ..).tmOf m (by decide), (Dev.tmBlock_keeps ..).tmOf m (by decide), Dev.tmOf_onTm]
  have hcount : e.rd F.SC_TM_CNT_catches m = d.rd F.SC_TM_CNT_catches m := by
    rw [he, (Dev.tmGo_keeps ..).rd F.SC_TM_CNT_catches m (by decide), (Dev.tmBlock_keeps ..).rd F.SC_TM_CNT_catches m (by decide),
      (Dev.onTm_keeps ..).rd F.SC_TM_CNT_catches m (by decide)]
  rw [Dev.tmHeld, ← he, Dev.tmFinish_tmOf, hbump.tmOf m (by decide), hplace, Dev.tmState, (Dev.tmFinish_keeps ..).rd F.SC_TM_STAT_state m (by decide),
    hbump.rd F.SC_TM_STAT_state m (by decide), (Dev.tmFinish_keeps ..).rd F.SC_TM_CNT_catches m (by decide), Dev.rd_bump _ _ _ (by decide), hcount]
  exact ⟨Dev.tmState_tmGo _ m (by decide), rfl, rfl, rfl⟩

/-! ### Speed of a machine that coasts (R207, R215, R223) -/

theorem Dev.ucgCheck_speed (d : Dev) (m k : Nat) : (d.ucgCheck m).word (F.SC_TM_SPEED.off k 0) = d.word (F.SC_TM_SPEED.off k 0) :=
  (d.ucgCheck_keeps m).toFrame.word F.SC_TM_SPEED k (by decide) rfl rfl

/-- Uncontrolled generation shows where no set runs, the speed is fresh and the back-EMF is above the link. -/
theorem Dev.ucgCheck_flags {d : Dev} {m : Nat} (hstill : ∀ k ∈ d.tmStages m, d.flag F.TB_STG_RUN_run k = false)
    (hfresh : (d.tmOf m).speedAt = some d.time)
    (hemf : d.emfAbove m (d.word (F.SC_TM_SPEED.off m 0)).toInt (d.linkVolts m) = true) : (d.ucgCheck m).flag F.SC_TM_STAT_ucg m = true := by
  have hany : ((d.tmStages m).any fun s => d.flag F.TB_STG_RUN_run s) = false := by
    rw [List.any_eq_false]
    exact fun k hk => by rw [hstill k hk]; decide
  have hnew : d.tmFresh m = true := by
    rw [Dev.tmFresh, hfresh]
    exact Nat.ble_eq.mpr (Nat.le_add_right ..)
  unfold Dev.ucgCheck
  dsimp only
  rw [hany, hnew, hemf, if_neg (by decide), if_pos rfl]
  split
  case isTrue h => exact h
  case isFalse =>
    rw [(Dev.post_keeps ..).flag F.SC_TM_STAT_ucg m (by decide), Dev.bump_flag_apart _ F.SC_TM_STAT_ucg F.SC_TM_CNT_ucg _ _ (by decide) (by decide)]
    exact Dev.flag_put _ F.SC_TM_STAT_ucg _ _ (by decide) rfl

theorem Dev.coastSpeed_of_hidden {d : Dev} {m : Nat} (h : ∃ k ∈ d.tmStages m, d.flag F.TB_STG_RUN_run k = true ∨ d.holdsLowOn k = true) :
    d.coastSpeed m = none := by
  have hany : ((d.tmStages m).any fun s => d.flag F.TB_STG_RUN_run s || d.holdsLowOn s) = true := by
    obtain ⟨k, hk, hon⟩ := h
    exact List.any_eq_true.mpr ⟨k, hk, by simpa using hon⟩
  unfold Dev.coastSpeed
  dsimp only
  rw [hany, if_pos (by simp)]

theorem Dev.availableSets_lt {d : Dev} {m k : Nat} (h : k ∈ d.availableSets m) : k < 4 :=
  List.mem_range.mp (List.mem_filter.mp (List.mem_filter.mp h).1).1

theorem Dev.refSet_lt (d : Dev) (m : Nat) : d.refSet m < 4 := by
  unfold Dev.refSet
  cases h : (List.range 4).find? fun k => bitOf (d.rd F.SC_TM_CFG_sets m) k with
  | none => decide
  | some k => exact List.mem_range.mp (List.mem_of_find?_eq_some h)

theorem Dev.coastSpeed_of_rest {d : Dev} {m : Nat} (hstill : ∀ k ∈ d.tmStages m, d.flag F.TB_STG_RUN_run k = false ∧ d.holdsLowOn k = false)
    (hclear : ∀ k < 4, d.blanked (4 * m + k) = false)
    (hlong : max (d.tmOf m).refEdge ((d.tmStages m).foldl (fun n k => max n (d.quietFrom k)) 0) +
      800000 * d.rd F.SC_TM_TIMES_catch_time m ≤ d.time) : d.coastSpeed m = some 0 := by
  have hany : ((d.tmStages m).any fun s => d.flag F.TB_STG_RUN_run s || d.holdsLowOn s) = false := by
    rw [List.any_eq_false]
    intro k hk
    obtain ⟨h1, h2⟩ := hstill k hk
    rw [h1, h2]
    decide
  have hseen : ((d.refSet m :: ((d.availableSets m).find? fun k => Nat.blt (d.refSet m) k).toList).any fun k => d.blanked (4 * m + k)) = false := by
    rw [List.any_eq_false]
    intro k hk
    have hlt : k < 4 := by
      rcases List.mem_cons.mp hk with rfl | hk
      · exact d.refSet_lt m
      · exact Dev.availableSets_lt (List.mem_of_find?_eq_some (Option.mem_toList.mp hk))
    rw [hclear k hlt]
    decide
  unfold Dev.coastSpeed
  dsimp only
  rw [hany, hseen, if_neg (by decide), if_pos hlong]

/-! ### Losing a set (R224, R225) -/

/-- What the machine's masks read after a set is dropped. -/
theorem Dev.tmDrop_masks (d : Dev) (m : Fin 2) {k : Nat} (hk : k < 4) (hon : bitOf (d.rd F.SC_TM_STAT_active m) k = true) :
    (d.tmDrop m k).rd F.SC_TM_STAT_active m = d.rd F.SC_TM_STAT_active m - 2 ^ k ∧
      bitOf ((d.tmDrop m k).rd F.SC_TM_STAT_active m) k = false ∧
      count4 ((d.tmDrop m k).rd F.SC_TM_STAT_active m) + 1 = count4 (d.rd F.SC_TM_STAT_active m) ∧
      bitOf ((d.tmDrop m k).rd F.SC_TM_STAT_lost m) k = true := by
  have hactive : d.rd F.SC_TM_STAT_active m < 16 := getBits_lt ..
  have hlost : d.rd F.SC_TM_STAT_lost m < 16 := getBits_lt ..
  set e := d.wr F.SC_TM_STAT_active m (d.rd F.SC_TM_STAT_active m - 2 ^ k) with he
  have hk1 : Keeps ⟨false, [F.SC_TM_STAT_active], []⟩ d e := Dev.wr_keeps _ _ _ _ (by decide)
  set g := e.wr F.SC_TM_STAT_lost m (e.rd F.SC_TM_STAT_lost m ||| 2 ^ k) with hg
  have hk2 : Keeps ⟨false, [F.SC_TM_STAT_lost], []⟩ e g := Dev.wr_keeps _ _ _ _ (by decide)
  have hk3 : Keeps ⟨false, [F.SC_TM_CNT_losses, F.FLT_STAT_lost, F.FLT_LOST], [.flt]⟩ g (d.tmDrop m k) :=
    ((Dev.bump_keeps _ F.SC_TM_CNT_losses _ (by decide)).within (by decide)).trans ((Dev.post_keeps ..).within (by decide))
  obtain ⟨-, -, hbits⟩ := mask_bit _ hactive k hk
  obtain ⟨hclear, hcount⟩ := hbits hon
  have hactive' : (d.tmDrop m k).rd F.SC_TM_STAT_active m = d.rd F.SC_TM_STAT_active m - 2 ^ k := by
    rw [hk3.rd F.SC_TM_STAT_active m (by decide), hk2.rd F.SC_TM_STAT_active m (by decide)]
    exact Dev.rd_wr_of_lt _ F.SC_TM_STAT_active _ (by decide) (lt_of_le_of_lt (Nat.sub_le ..) hactive)
  refine ⟨hactive', by rw [hactive', hclear], by rw [hactive', hcount], ?_⟩
  rw [hk3.rd F.SC_TM_STAT_lost m (by decide)]
  rw [← hk1.rd F.SC_TM_STAT_lost m (by decide)] at hlost
  obtain ⟨hset, hlt, -⟩ := mask_bit _ hlost k hk
  rw [hg, Dev.rd_wr_of_lt _ F.SC_TM_STAT_lost _ (by decide) hlt]
  exact hset

/-- What a machine shows after the loss of one set. -/
theorem Dev.tmSetLoss_shows {d : Dev} {m : Fin 2} (hstate : d.tmState m = 4 ∨ d.tmState m = 5 ∨ d.tmState m = 6) {k : Nat} (hk : k < 4)
    (hlost : d.tmLost m = [k]) : bitOf ((d.tmSetLoss m).rd F.SC_TM_STAT_lost m) k = true ∧
      bitOf ((d.tmSetLoss m).rd F.SC_TM_STAT_active m) k = false ∧
      (count4 (d.rd F.SC_TM_STAT_active m) ≤ d.rd F.SC_TM_CFG_min_sets m →
        (d.tmSetLoss m).tmState m = 8 ∧ (d.tmSetLoss m).rd F.SC_TM_STAT_active m = 0 ∧ ((d.tmSetLoss m).tmOf m).job = none) ∧
      (d.rd F.SC_TM_CFG_min_sets m < count4 (d.rd F.SC_TM_STAT_active m) → k ≠ d.refSet m →
        (d.tmSetLoss m).tmState m = d.tmState m ∧
          (d.tmSetLoss m).rd F.SC_TM_STAT_active m = d.rd F.SC_TM_STAT_active m - 2 ^ k) := by
  have hmem : k ∈ d.tmLost m := by rw [hlost]; exact .head _
  have hon : bitOf (d.rd F.SC_TM_STAT_active m) k = true := by
    have hand := (List.mem_filter.mp hmem).2
    rw [Bool.and_eq_true] at hand
    exact hand.1
  obtain ⟨hactive, hclear, hcount, hset⟩ := d.tmDrop_masks m hk hon
  have hdrop := d.tmDrop_keeps m k
  set e := d.tmDrop m k with he
  set gone : Bool := [k].contains (d.refSet m) && (d.flag F.TB_STG_STAT_fenced (4 * m + d.refSet m) ||
    (d.driving (4 * m + d.refSet m)).any fun l => d.fenced Kind.loop l) with hgone
  have hgo : d.tmSetLoss m = if e.rd F.SC_TM_CFG_min_sets m ≤ count4 (e.rd F.SC_TM_STAT_active m) ∧ gone = false then
      (e.tmBlock m).tmIdleSet m k else ((e.tmRest m).tmGo m 8).tmFinish m Code.FENCED := by
    unfold Dev.tmSetLoss
    dsimp only
    rw [if_neg (by rw [hlost]; simp [hstate]), hlost]
    rfl
  have hmin : e.rd F.SC_TM_CFG_min_sets m = d.rd F.SC_TM_CFG_min_sets m := hdrop.rd F.SC_TM_CFG_min_sets m (by decide)
  rw [hgo, hmin]
  split
  case isTrue hgoes =>
    have hidle := (e.tmBlock m).tmIdleSet_keeps m k
    have hblock := e.tmBlock_keeps m
    rw [hidle.rd F.SC_TM_STAT_lost m (by decide), hidle.rd F.SC_TM_STAT_active m (by decide), Dev.tmState, Dev.tmState,
      hidle.rd F.SC_TM_STAT_state m (by decide), hblock.rd F.SC_TM_STAT_lost m (by decide), hblock.rd F.SC_TM_STAT_active m (by decide),
      hblock.rd F.SC_TM_STAT_state m (by decide), hdrop.rd F.SC_TM_STAT_state m (by decide)]
    exact ⟨hset, hclear, fun hfew => by omega, fun _ _ => ⟨rfl, hactive⟩⟩
  case isFalse hends =>
    have hfin := Dev.tmFinish_keeps ((e.tmRest m).tmGo m 8) m Code.FENCED
    have hstop := Dev.tmGo_keeps (e.tmRest m) m 8
    have hzero : (((e.tmRest m).tmGo m 8).tmFinish m Code.FENCED).rd F.SC_TM_STAT_active m = 0 := by
      rw [hfin.rd F.SC_TM_STAT_active m (by decide), hstop.rd F.SC_TM_STAT_active m (by decide), Dev.tmRest_active]
    rw [hfin.rd F.SC_TM_STAT_lost m (by decide), hstop.rd F.SC_TM_STAT_lost m (by decide), hzero, (Dev.tmRest_keeps ..).rd F.SC_TM_STAT_lost m (by decide), Dev.tmFinish_tmOf, Dev.tmState,
      hfin.rd F.SC_TM_STAT_state m (by decide)]
    refine ⟨hset, ?_, fun _ => ⟨Dev.tmState_tmGo _ m (by decide), rfl, rfl⟩, fun hmany hother => ?_⟩
    · rw [bitOf, Nat.zero_div]
      rfl
    · exfalso
      refine hends ⟨by omega, ?_⟩
      have hnot : [k].contains (d.refSet m) = false := by simp [Ne.symm hother]
      rw [hgone, hnot, Bool.false_and]

/-! ### What decides a catch -/

/-- The decision of a machine in MEASURING. -/
def Dev.tmCatch (d : Dev) (m : Nat) : Dev :=
  if d.sensorless m then
    match (d.tmOf m).ej with
    | none => d
    | some tj =>
      if (d.tmOf m).hidden || d.tmHidden m then d.tmRefuse m Code.NO_CATCH
      else ((d.tmSpeed m (sat32 (d.sensorlessSpeed m tj))).catchAngle m (d.sensorlessSpeed m tj)).tmDecide m (some (d.sensorlessSpeed m tj))
  else if d.portLocked (d.rd F.SC_TM_CFG_pos_port m) then
    (d.tmKnow m (d.word (F.PS_OBS_SPEED.off (d.rd F.SC_TM_CFG_pos_port m) 0))).tmDecide m
      (if (d.tmKnow m (d.word (F.PS_OBS_SPEED.off (d.rd F.SC_TM_CFG_pos_port m) 0))).flag F.PS_STAT_still (d.rd F.SC_TM_CFG_pos_port m) then none
      else some (d.word (F.PS_OBS_SPEED.off (d.rd F.SC_TM_CFG_pos_port m) 0)).toInt)
  else d

theorem does_tmCatchDecision {P : Dev → Prop} {s : State} {t : Nat} {m : Fin 2} (hstate : (s.now t).tmState m = 3)
    (h : P ((s.now t).tmCatch m)) : Does s (.tmCatchDecision t m []) P := by
  have hexec : exec (.tmCatchDecision t m []) s = effect t s fun d => if d.tmState m ≠ 3 then d else d.tmCatch m := rfl
  refine Does.of_effect hexec ?_
  rwa [if_neg (by simp [hstate])]

theorem Dev.tmCatch_of_locked {d : Dev} {m : Nat} (hsensor : d.sensorless m = false) (hlocked : d.portLocked (d.rd F.SC_TM_CFG_pos_port m) = true) :
    d.tmCatch m = (d.tmKnow m (d.word (F.PS_OBS_SPEED.off (d.rd F.SC_TM_CFG_pos_port m) 0))).tmDecide m
      (if d.flag F.PS_STAT_still (d.rd F.SC_TM_CFG_pos_port m) then none
      else some (d.word (F.PS_OBS_SPEED.off (d.rd F.SC_TM_CFG_pos_port m) 0)).toInt) := by
  rw [Dev.tmCatch, hsensor, if_neg (by decide), if_pos hlocked, (d.tmKnow_keeps m _).flag F.PS_STAT_still _ (by decide)]

theorem Dev.tmCatch_of_hidden {d : Dev} {m : Nat} (hsensor : d.sensorless m = true) (hedge : (d.tmOf m).ej.isSome = true)
    (hlow : ∃ k ∈ d.tmStages m, d.holdsLowOn k = true) : d.tmCatch m = d.tmRefuse m Code.NO_CATCH := by
  obtain ⟨tj, htj⟩ := Option.isSome_iff_exists.mp hedge
  have hhidden : d.tmHidden m = true := by
    have hany : (d.tmStages m).any d.holdsLowOn = true := List.any_eq_true.mpr hlow
    rw [Dev.tmHidden, hany, Bool.true_or]
  rw [Dev.tmCatch, if_pos hsensor, htj]
  exact if_pos (by rw [hhidden, Bool.or_true])

/-! ### The obligation -/

/-- Settles O21: each event of a catch, of a coasting machine and of a lost set acts where its condition holds. -/
theorem tractionCatch : Obligations.TractionCatch := by
  unfold Obligations.TractionCatch
  intro s t m d p v
  refine ⟨?decide, ?hidden, ?expiry, ?precharge, ?hold, ?reengage, ?refresh, ?coast, ?loss⟩
  case decide =>
    intro hstate hsensor hlocked henough
    refine does_tmCatchDecision hstate ?_
    rw [Dev.tmCatch_of_locked hsensor hlocked]
    obtain ⟨h1, h2, h3, h4⟩ := Dev.tmKnow_decides (n := d.word (F.PS_OBS_SPEED.off p 0)) henough
      (if d.flag F.PS_STAT_still p then none else some (d.word (F.PS_OBS_SPEED.off p 0)).toInt) (by split <;> simp)
    refine ⟨h1, fun hstill => h2 (if_pos hstill), fun hmoves hfast => h3 ?_ hfast, fun hmoves hslow hemf hsup => h4 ?_ hslow hemf hsup⟩
    · rw [hmoves]
      simp
    · rw [hmoves]
      simp
  case hidden =>
    intro hstate hsensor hedge hlow
    refine does_tmCatchDecision hstate ?_
    rw [Dev.tmCatch_of_hidden hsensor hedge hlow]
    exact d.tmRefuse_shows m _
  case expiry =>
    intro hstate hsensor hlocked hdue
    refine Does.of_effect (show exec _ s = execCatchTimeExpiry t m s from rfl) ?_
    have hwait : ¬ (d.tmState m ≠ 3 ∨ d.time < v.since + 800000 * d.rd F.SC_TM_TIMES_catch_time m) := by
      rintro (h | h)
      · exact h hstate
      · omega
    have hgo : (if d.tmState m = 7 ∧ d.sensorless m = true then d.tmReengage m
        else if d.tmState m ≠ 3 ∨ d.time < v.since + 800000 * d.rd F.SC_TM_TIMES_catch_time m then d
        else if d.sensorless m then
          if v.hidden || d.tmHidden m then d.tmRefuse m Code.NO_CATCH
          else if v.edges = 0 then (d.onTm m fun v => { v with angle := 0, angleUpd := 0 }).tmDecide m none
          else if v.ej.isNone then d.tmRefuse m Code.NO_CATCH
          else d
        else if d.portLocked (d.rd F.SC_TM_CFG_pos_port m) then d
        else d.tmRefuse m Code.NO_CATCH) = d.tmRefuse m Code.NO_CATCH := by
      rw [if_neg (by omega), if_neg hwait, hsensor, if_neg (by decide), if_neg (by rw [show d.rd F.SC_TM_CFG_pos_port m = p from rfl, hlocked]; decide)]
    exact (congrArg (fun n : Dev => n.tmState m = 2 ∧ (n.tmOf m).job = none) hgo).mpr (d.tmRefuse_shows m _)
  case precharge =>
    intro hstate hruns hlong
    refine Does.of_effect (show exec _ s = execPrechargeExpiry t m s from rfl) ?_
    have hall : ((d.activeStages m).all fun k => d.flag F.TB_STG_RUN_run k) = true := List.all_eq_true.mpr fun k hk => (hruns k hk).1
    have hlast : (d.activeStages m).foldl (fun n k => max n (d.stg k).startAt) 0 ≤ d.time - 8000 * d.rd F.SC_TM_TIMES_precharge m :=
      foldl_max_le _ 0 (Nat.zero_le _) fun k hk => Nat.le_sub_of_add_le (hruns k hk).2
    rw [if_pos ⟨hstate, hall, by rw [show s.now t = d from rfl]; omega⟩]
    exact d.prechargeEnds_shows m
  case hold =>
    intro hstate hruns hheld
    refine Does.of_effect (show exec _ s = execCatchHoldDone t m s from rfl) ?_
    have hall : ((d.activeStages m).all fun k => d.flag F.TB_STG_STAT_running k) = true := List.all_eq_true.mpr hruns
    rw [if_pos ⟨hstate, hall, hheld⟩]
    exact d.tmHeld_shows m
  case reengage =>
    intro hstate hsensor hslow
    refine Does.of_effect (show exec _ s = execReengage t m s from rfl) ?_
    have hgo : d.tmReengage m = d.tmMeasure m := by
      unfold Dev.tmReengage
      dsimp only
      refine if_pos ⟨hstate, ?_⟩
      rw [hsensor, if_neg (by decide)]
      exact Nat.ble_eq.mpr hslow
    obtain ⟨hmeasure, _, _, _, _, _, _, hplace⟩ := d.tmMeasure_shows m
    rw [show s.now t = d from rfl, hgo, hmeasure, hplace]
    exact ⟨rfl, rfl⟩
  case refresh =>
    intro hon hsensor
    refine Does.of_effect (show exec _ s = execSpeedRefresh t m s from rfl) ?_
    have hk := d.tmSpeed_keeps m (d.word (F.PS_OBS_SPEED.off p 0))
    have hspeed := d.tmSpeed_word m (d.word (F.PS_OBS_SPEED.off p 0))
    have hat := d.tmSpeed_at m (d.word (F.PS_OBS_SPEED.off p 0))
    rw [if_neg hon]
    dsimp only
    rw [if_neg (by rw [show (s.now t).sensorless m = false from hsensor]; decide), Dev.ucgCheck_speed, (Dev.ucgCheck_keeps ..).tmOf m (by decide)]
    refine ⟨hspeed, hat, fun hstill hemf => Dev.ucgCheck_flags (fun k hk' => ?_) (hat.trans (by rw [hk.time])) ?_⟩
    · rw [hk.tmStages m (by decide)] at hk'
      exact (hk.flag F.TB_STG_RUN_run k (by decide)).trans (hstill k hk')
    · exact (congrArg (fun w : Word => (d.tmSpeed m (d.word (F.PS_OBS_SPEED.off p 0))).emfAbove m w.toInt _) hspeed).trans
        (by rw [hk.emfAbove m _ _ (by decide), hk.linkVolts m (by decide) (by decide) (by decide)]; exact hemf)
  case coast =>
    intro hon hsensor
    have hgo : ∀ (P : Dev → Prop), P (Dev.ucgCheck (match d.coastSpeed m with | some n => d.tmSpeed m (sat32 n) | none => d) m) →
        Does s (.speedRefresh t m) P := fun P h => by
      refine Does.of_effect (show exec _ s = execSpeedRefresh t m s from rfl) ?_
      rw [if_neg hon]
      dsimp only
      rwa [if_pos (show (s.now t).sensorless m = true from hsensor)]
    refine ⟨fun hdriven => hgo _ ?_, fun hstill hclear hlong => hgo _ ?_⟩
    · rw [Dev.coastSpeed_of_hidden hdriven, Dev.ucgCheck_speed]
    · rw [Dev.coastSpeed_of_rest hstill hclear hlong, Dev.ucgCheck_speed]
      exact d.tmSpeed_word m (sat32 0)
  case loss =>
    intro hstate k hlost
    refine Does.of_effect (show exec _ s = execTmSetLoss t m s from rfl) ?_
    exact Dev.tmSetLoss_shows hstate k.isLt hlost

end Sys2Proof.Machine
end

section
/-! The HV-to-LV converter (R245 to R247); obligation O24. -/

namespace Sys2Proof.Machine

/-! ### What charger and converter carry -/

theorem Dev.ch_onCh (d : Dev) (f : Ch → Ch) : (d.onCh f).ch = f d.ch := rfl

theorem Dev.lvFinish_ch (d : Dev) (st : Nat) : (d.lvFinish st).ch = { d.ch with lvJob := none } := by
  rw [Dev.lvFinish, Dev.ch_onCh, (Dev.finishJob_keeps ..).parts .ch (by decide)]

theorem Dev.lvBlock_ch (d : Dev) : d.lvBlock.ch = d.ch := (d.lvBlock_keeps).parts .ch (by decide)

theorem Dev.lvGo_ch (d : Dev) (new : Nat) : (d.lvGo new).ch = d.ch := (d.lvGo_keeps new).parts .ch (by decide)

theorem Dev.lvGo_sameItem (d : Dev) (new q i : Nat) : Dev.SameItem q i d (d.lvGo new) := by
  unfold Dev.lvGo
  dsimp only
  split
  · exact .refl ..
  · exact ((Dev.wr_keeps d F.SC_LV_STAT_state 0 new (by decide)).sameItem q i (by decide)).trans (Dev.stateEvent_sameItem ..)

/-! ### Stages and their loops -/

/-- What the loops that drive a stage are read from. -/
def drivingFields : List Fd :=
  [F.BE_LP_CFG_enable, F.BE_LP_CFG_role, F.BE_LP_CFG_home, F.BE_LP_CFG_link_en, F.BE_LP_CFG_link]

theorem Keeps.driving {w : Foot} {d e : Dev} (hk : Keeps w d e) (s : Nat) (hw : drivingFields.all w.avoids = true) : e.driving s = d.driving s := by
  simp only [drivingFields, List.all_cons, List.all_nil, Bool.and_true, Bool.and_eq_true] at hw
  obtain ⟨henable, hrole, hhome, hlinked, hlink⟩ := hw
  have hisAux : e.isAux = d.isAux := funext fun l => hk.flag F.BE_LP_CFG_role l hrole
  have hloops : e.loops = d.loops := by
    rw [Dev.loops, Dev.loops]
    exact List.filter_congr fun l _ => hk.flag F.BE_LP_CFG_enable l henable
  have hstages : e.loopStages = d.loopStages := funext fun l => by
    rw [Dev.loopStages, Dev.loopStages, Dev.home, Dev.home, Dev.linkOf, Dev.linkOf, hk.rd _ _ hhome, hisAux, Dev.home, Dev.home, hk.rd _ _ hhome, hk.flag _ _ hlinked, hk.rd _ _ hlink]
  rw [Dev.driving, Dev.driving, hloops, hisAux, hstages]

theorem Keeps.stageAvailable {w : Foot} {d e : Dev} (hk : Keeps w d e) (s : Nat)
    (hw : (drivingFields ++ [F.TB_STG_CFG_enable, F.TB_STG_CFG_source, F.TB_STG_STAT_tripped]).all w.avoids = true) (hp : Part.flt ∉ w.parts) :
    e.stageAvailable s = d.stageAvailable s := by
  rw [List.all_append, Bool.and_eq_true] at hw
  obtain ⟨hdriving, hfit⟩ := hw
  have hfenced : e.fenced = d.fenced := funext fun k => funext fun i => Dev.fenced_congr (hk.parts .flt hp) k i
  rw [Dev.stageAvailable, Dev.stageAvailable, hk.stageFit s hfit hp, hk.driving s hdriving, hfenced]

/-! ### The converter's block (R230) -/

theorem Keeps.lvLoops {w : Foot} {d e : Dev} (hk : Keeps w d e)
    (hw : [F.BE_LP_CFG_enable, F.BE_LP_CFG_role, F.BE_LP_CFG_home].all w.avoids = true) : e.lvLoops = d.lvLoops := by
  simp only [List.all_cons, List.all_nil, Bool.and_true, Bool.and_eq_true] at hw
  obtain ⟨henable, hrole, hhome⟩ := hw
  have hisAux : e.isAux = d.isAux := funext fun l => hk.flag F.BE_LP_CFG_role l hrole
  have hhomes : e.home = d.home := funext fun l => hk.rd F.BE_LP_CFG_home l hhome
  have hloops : e.loops = d.loops := by
    rw [Dev.loops, Dev.loops]
    exact List.filter_congr fun l _ => hk.flag F.BE_LP_CFG_enable l henable
  rw [Dev.lvLoops, Dev.lvLoops, hloops, hisAux, hhomes]

/-- Mode, voltage and current in the block. -/
theorem Dev.lvBlock_lt (d : Dev) {l k : Nat} {v : Word} (hl : l ∈ d.lvLoops) (hk : k < 64)
    (h : (k, v) ∈ [(48, wholeQ d.ch.lvMode), (49, d.ch.lvVolt), (50, d.ch.lvAmp)]) : d.lvBlock.lt (parBase l + 4 * k) = v := by
  have hactive : Keeps ⟨false, [F.SC_LV_STAT_active], []⟩ d (d.wr F.SC_LV_STAT_active 0 d.lvActive) := Dev.wr_keeps _ _ _ _ (by decide)
  have hcarry : (d.wr F.SC_LV_STAT_active 0 d.lvActive).ch = d.ch := hactive.parts .ch (by decide)
  rw [Dev.lvBlock]
  refine Dev.each_setPars_lt (keys := [48, 49, 50, 55]) (fun _ _ => rfl) (by decide) (by decide) hk ?_ fun e _ => ?_
  · rw [hactive.lvLoops (by decide)]
    exact hl
  · rw [hcarry]
    exact List.mem_append_left [_] h

theorem Dev.lvBlock_active (d : Dev) : d.lvBlock.rd F.SC_LV_STAT_active 0 = d.lvActive := by
  have hlt : d.lvActive < 2 ^ F.SC_LV_STAT_active.width := by
    unfold Dev.lvActive
    cases d.flag F.TB_STG_STAT_running 12 <;> cases d.flag F.TB_STG_STAT_running 14 <;> decide
  have hblock : Keeps ⟨false, [], [.be]⟩ (d.wr F.SC_LV_STAT_active 0 d.lvActive) d.lvBlock := by
    rw [Dev.lvBlock]
    exact Dev.each_keeps _ _ _ fun e l => Dev.setPars_keeps ..
  rw [hblock.rd F.SC_LV_STAT_active 0 (by decide)]
  exact Dev.rd_wr_of_lt _ F.SC_LV_STAT_active _ (by decide) hlt

/-! ### The converter stops (R247) -/

theorem Dev.lvRest_ch (d : Dev) : d.lvRest.ch = { d.ch with lvMode := 0, lvSync := false } := by
  rw [Dev.lvRest, Dev.lvGo_ch, Dev.lvBlock_ch, Dev.ch_onCh, (Dev.stopStages_keeps ..).parts .ch (by decide)]

theorem Dev.lvStop_shows (d : Dev) (word : Nat) : (d.lvStop word).lvState = 2 ∧
    (d.lvStop word).ch = { d.ch with lvJob := none, lvMode := 0, lvSync := false } ∧ (d.lvStop word).Stopped 14 ∧ (d.lvStop word).Stopped 12 := by
  rw [Dev.lvStop, Dev.lvRest_ch, Dev.lvFinish_ch]
  exact ⟨Dev.lvState_lvGo _ (by decide), rfl, (d.lvFinish word).lvRest_stops (k := 14) (by decide), (d.lvFinish word).lvRest_stops (k := 12) (by decide)⟩

theorem Dev.lvFinish_sameItem (d : Dev) (word : Nat) {q i : Nat} (hne : d.ch.lvJob ≠ some (q, i)) (hring : (d.qp q).silent = false) :
    Dev.SameItem q i d (d.lvFinish word) := (d.finishJob_sameItem hne hring word 0).trans ((Dev.onCh_keeps ..).sameItem q i (by decide))

theorem Dev.lvRest_sameItem (d : Dev) (q i : Nat) : Dev.SameItem q i d d.lvRest :=
  (((Dev.stopStages_keeps ..).sameItem q i (by decide)).trans ((Dev.onCh_keeps ..).sameItem q i (by decide))).trans
    (((Dev.lvBlock_keeps _).sameItem q i (by decide)).trans (Dev.lvGo_sameItem ..))

theorem Dev.lvStop_sameItem (d : Dev) (word : Nat) {q i : Nat} (hne : d.ch.lvJob ≠ some (q, i)) (hring : (d.qp q).silent = false) :
    Dev.SameItem q i d (d.lvStop word) := (d.lvFinish_sameItem word hne hring).trans (Dev.lvRest_sameItem ..)

/-! ### Commands of the host (R34, R246) -/

section
variable {d : Dev} {q i : Nat} {x : Descr}

/-- A start of the converter begins: targets, mode DIODE, the runs written so far. -/
def Dev.lvBegin (d : Dev) (q i : Nat) (x : Descr) : Dev :=
  let d := ((d.lvTargets x).onCh fun c => { c with lvJob := some (q, i), lvMode := 1, lvSync := false }).lvBlock
  d.onCh fun c => { c with lvBase := d.written d.lvLoops }

theorem Dev.lvBegin_shows : ((d.lvBegin q i x).ch.lvJob = some (q, i) ∧ (d.lvBegin q i x).ch.lvMode = 1 ∧ (d.lvBegin q i x).ch.lvSync = false ∧
    (d.lvBegin q i x).ch.lvVolt = lowWord x.param2 ∧ (d.lvBegin q i x).ch.lvAmp = highWord x.param2) ∧
    ∀ l ∈ d.lvLoops, (d.lvBegin q i x).lt (parBase l + 4 * 49) = lowWord x.param2 := by
  set e := (d.lvTargets x).onCh fun c => { c with lvJob := some (q, i), lvMode := 1, lvSync := false } with he
  have hk : Keeps ⟨false, [], [.ch]⟩ d e := (Dev.lvTargets_keeps ..).trans (Dev.onCh_keeps ..)
  have hcarry : (d.lvBegin q i x).ch = { e.ch with lvBase := e.lvBlock.written e.lvBlock.lvLoops } := by
    rw [Dev.lvBegin, Dev.ch_onCh, ← he, Dev.lvBlock_ch]
  rw [hcarry]
  refine ⟨⟨rfl, rfl, rfl, rfl, rfl⟩, fun l hl => ?_⟩
  rw [Dev.lvBegin, Dev.lt_congr ((Dev.onCh_keeps ..).parts .be (by decide)), ← he]
  refine e.lvBlock_lt (by rw [hk.lvLoops (by decide)]; exact hl) (by decide) ?_
  exact .tail _ (.head _)

end

/-! ### The obligation -/

/-- Settles O24: descriptors, the synchronisation, its time and a lost stage. -/
theorem conversion : Obligations.Conversion := by
  unfold Obligations.Conversion
  intro s t d
  refine ⟨?commands, ?sync, ?timeout, ?loss, ?change⟩
  case commands =>
    intro q i x hstand hon hoff hjob
    set e := d.started q i with he
    have hk : Keeps ⟨false, [F.HI_QP_CTRL_draining, F.HI_QP_FLAGS_in_flight], [.hi]⟩ d e := d.started_keeps q i
    have hlive : e.underWay q i := Dev.underWay_started hstand
    have hring : (e.qp q).silent = false := by
      obtain ⟨-, -, -, hring⟩ := hlive
      exact hring
    have hcarry : e.ch = d.ch := hk.parts .ch (by decide)
    have hstate : e.lvState = d.lvState := hk.rd F.SC_LV_STAT_state 0 (by decide)
    have hsealed : e.isSealed = d.isSealed := congrArg (· == DevSt.sealed) (hk.rd F.DEV_STATE_state 0 (by decide))
    have hon' : e.lvOn = true := (hk.flag F.SC_LV_CFG_enable 0 (by decide)).trans hon
    have hloops : e.lvLoops = d.lvLoops := hk.lvLoops (by decide)
    have hgoing : e.lvLive = d.lvLive := by rw [Dev.lvLive, Dev.lvLive, hstate, hcarry]
    have havailable : ∀ k, e.stageAvailable k = d.stageAvailable k := fun k => hk.stageAvailable k (by decide) (by decide)
    have hother : e.ch.lvJob ≠ some (q.val, i) := by rwa [hcarry]
    rw [← hstate] at hoff
    have hends : ∀ {g : Dev}, Dev.SameItem q i e g → (g.finish q i Code.OK).endedWith q i Code.OK := fun h => Dev.finish_ends (h.underWay hlive) ..
    rw [← hcarry, ← hstate, ← hsealed, ← hloops, ← hgoing, ← havailable, ← havailable]
    refine ⟨?start, ?unsealed, ?target, ?stop⟩
    case start =>
      intro hop hsl hidle h12 h14
      refine Does.of_handed (show exec _ s = execLvStart t q i s from rfl) hstand hop (by decide) ?_
      obtain ⟨⟨h1, h2, h3, h4, h5⟩, h6⟩ := e.lvBegin_shows (q := q) (i := i) (x := x)
      rw [← he, hon', hsl, if_neg (by decide), if_neg (by decide), if_neg hoff, hidle, if_neg (by decide), h12, h14, if_neg (by decide)]
      exact ⟨h1, h2, h3, h4, h5, h6⟩
    case unsealed =>
      intro hop hsl
      refine Does.of_handed (show exec _ s = execLvStart t q i s from rfl) hstand hop (by decide) ?_
      rw [← he, hon', hsl, if_neg (by decide), if_pos (by decide)]
      exact ⟨Dev.finish_ends hlive .., (Dev.finish_keeps ..).parts .ch (by decide)⟩
    case target =>
      intro hop
      refine Does.of_handed (show exec _ s = execLvTarget t q i s from rfl) hstand hop (by decide) ?_
      have hrun : (!e.lvOn || e.lvState == 1) = false := by
        rw [hon']
        simpa using hoff
      rw [← he, hrun, if_neg (by decide)]
      cases hgo : e.lvLive with
      | true =>
        rw [if_pos rfl, Dev.lvState, (Dev.finish_keeps ..).rd F.SC_LV_STAT_state 0 (by decide), (Dev.finish_keeps ..).parts .ch (by decide),
          (Dev.lvBlock_keeps _).rd F.SC_LV_STAT_state 0 (by decide), (Dev.lvTargets_keeps ..).rd F.SC_LV_STAT_state 0 (by decide), Dev.lvBlock_ch]
        exact ⟨hends (((Dev.lvTargets_keeps ..).sameItem q i (by decide)).trans ((Dev.lvBlock_keeps _).sameItem q i (by decide))), rfl,
          fun _ => ⟨rfl, rfl⟩, fun h => absurd h (by decide)⟩
      | false =>
        rw [if_neg (by decide), Dev.lvState, (Dev.finish_keeps ..).rd F.SC_LV_STAT_state 0 (by decide), (Dev.finish_keeps ..).parts .ch (by decide)]
        exact ⟨hends (.refl ..), rfl, fun h => absurd h (by decide), fun _ => rfl⟩
    case stop =>
      intro hop
      refine Does.of_handed (show exec _ s = execLvStop t q i s from rfl) hstand hop (by decide) ?_
      have hrun : (!e.lvOn || e.lvState == 1) = false := by
        rw [hon']
        simpa using hoff
      obtain ⟨h1, h2, h3, h4⟩ := e.lvStop_shows Code.STALE
      have hfin := (e.lvStop Code.STALE).finish_keeps q i Code.OK false 0
      rw [← he, hrun, if_neg (by decide), Dev.lvState, hfin.rd F.SC_LV_STAT_state 0 (by decide), hfin.parts .ch (by decide), h2]
      exact ⟨hends (e.lvStop_sameItem Code.STALE hother hring), h1, rfl, rfl, h3.keeps hfin (by decide), h4.keeps hfin (by decide)⟩
  case sync =>
    intro hstate hsync htol hdue
    refine Does.of_effect (show exec _ s = execLvSync t s from rfl) ?_
    set e := d.onCh fun c => { c with lvMode := 2, lvSync := true } with he
    have hk : Keeps ⟨false, [], [.ch]⟩ d e := Dev.onCh_keeps ..
    rw [if_pos ⟨hstate, hsync, htol, hdue⟩]
    have hcarry : e.lvBlock.ch = e.ch := e.lvBlock_ch
    refine ⟨congrArg Ch.lvMode hcarry, congrArg Ch.lvSync hcarry, fun l hl => ?_⟩
    exact e.lvBlock_lt (hk.lvLoops (by decide) ▸ hl) (by decide) (.head _)
  case timeout =>
    intro hstate hsync hdue
    refine Does.of_effect (show exec _ s = execLvStartTimeout t s from rfl) ?_
    obtain ⟨h1, h2, h3, h4⟩ := d.lvStop_shows Code.BUS_LOW
    rw [if_pos ⟨hstate, hsync, hdue⟩]
    exact ⟨h1, congrArg Ch.lvJob h2, h3, h4⟩
  case loss =>
    intro hgo hlost
    refine Does.of_effect (show exec _ s = execLvStageLoss t s from rfl) ?_
    obtain ⟨h1, h2, h3, h4⟩ := d.lvStop_shows Code.FENCED
    rw [if_pos (by simpa [show s.now t = d from rfl, hgo] using hlost)]
    dsimp only
    split
    · exact ⟨h1, congrArg Ch.lvJob h2, h3, h4⟩
    · have hpost := (d.lvStop Code.FENCED).post_keeps
        { kind := Kind.stage, index := 12, cls := Cls.report, code := Code.FENCED, detail := Code.FENCED, time := (d.lvStop Code.FENCED).time }
      exact ⟨(hpost.rd F.SC_LV_STAT_state 0 (by decide)).trans h1,
        congrArg Ch.lvJob ((hpost.parts .ch (by decide)).trans h2), h3.keeps hpost (by decide), h4.keeps hpost (by decide)⟩
  case change =>
    intro hon hoff h12 h14 hchange
    refine Does.of_effect (show exec _ s = execLvStageLoss t s from rfl) ?_
    rw [if_neg (by simp [show s.now t = d from rfl, h12, h14]), if_pos (by simpa [show s.now t = d from rfl, hon, hoff] using hchange)]
    exact ⟨d.lvBlock_active, (d.lvBlock_keeps).rd F.SC_LV_STAT_state 0 (by decide)⟩

end Sys2Proof.Machine
end

section
/-! The charger's operations and its descriptors (R230, R237 to R244); obligation O22. -/

namespace Sys2Proof.Machine

/-! ### What the charger reads -/

theorem Keeps.chLoops {w : Foot} {d e : Dev} (hk : Keeps w d e) (hw : drivingFields.all w.avoids = true) : e.chLoops = d.chLoops := by
  have henable : w.avoids F.BE_LP_CFG_enable = true := List.all_eq_true.mp hw _ (.head _)
  have hdriving : e.driving = d.driving := funext fun s => hk.driving s hw
  have hloops : e.loops = d.loops := by
    rw [Dev.loops, Dev.loops]
    exact List.filter_congr fun l _ => hk.flag F.BE_LP_CFG_enable l henable
  rw [Dev.chLoops, Dev.chLoops, hloops, hdriving]

/-! ### The charger's block (R230, R240, R241) -/

/-- The block's register and the two limits that it carries, before the loops are written. -/
def Dev.chLimits (d : Dev) : Dev :=
  (d.wr F.SC_CH_STAT_active 0 d.chActive).onCh fun c =>
    { c with p49 := (d.wr F.SC_CH_STAT_active 0 d.chActive).chPower, p51 := (d.wr F.SC_CH_STAT_active 0 d.chActive).chAmps }

/-- The values of the charger's block. -/
def Dev.chPars (c : Ch) (d : Dev) : List (Nat × Word) :=
  [(48, wholeQ c.pmode), (49, c.p49), (50, c.volt), (51, c.p51), (52, wholeQ (d.rd F.SC_CH_BUS_bus_target 0)),
    (53, wholeQ (d.rd F.SC_CH_BUS_v_export 0)), (54, wholeQ (d.rd F.SC_CH_BUS_f_export 0)), (55, wholeQ (d.rd F.SC_CH_STAT_active 0))]

theorem Dev.chBlock_eq (d : Dev) : d.chBlock = d.chLimits.each d.chLimits.chLoops fun e l => e.setPars l (Dev.chPars d.chLimits.ch e) := rfl

theorem Dev.chLimits_keeps (d : Dev) : Keeps ⟨false, [F.SC_CH_STAT_active], [.ch]⟩ d d.chLimits :=
  ((Dev.wr_keeps _ F.SC_CH_STAT_active _ _ (by decide)).within (by decide)).trans ((Dev.onCh_keeps ..).within (by decide))

theorem Dev.chBlock_ch (d : Dev) : ∃ p49 p51, d.chBlock.ch = { d.ch with p49 := p49, p51 := p51 } := by
  have hblock : Keeps ⟨false, [], [.be]⟩ d.chLimits d.chBlock := by
    rw [d.chBlock_eq]
    exact Dev.each_keeps _ _ _ fun e l => Dev.setPars_keeps ..
  rw [hblock.parts .ch (by decide)]
  exact ⟨_, _, rfl⟩

theorem Dev.chActive_lt (d : Dev) : d.chActive < 16 := by
  have hrange : List.range 4 = [0, 1, 2, 3] := rfl
  simp only [Dev.chActive, hrange, List.filter]
  cases d.flag F.TB_STG_STAT_running (8 + 0) <;> cases d.flag F.TB_STG_STAT_running (8 + 1) <;> cases d.flag F.TB_STG_STAT_running (8 + 2) <;>
    cases d.flag F.TB_STG_STAT_running (8 + 3) <;> decide

theorem Dev.chLimits_active (d : Dev) : d.chLimits.rd F.SC_CH_STAT_active 0 = d.chActive := by
  rw [Dev.chLimits, (Dev.onCh_keeps ..).rd F.SC_CH_STAT_active 0 (by decide)]
  exact Dev.rd_wr_of_lt _ F.SC_CH_STAT_active _ (by decide) d.chActive_lt

theorem Dev.chBlock_active (d : Dev) : d.chBlock.rd F.SC_CH_STAT_active 0 = d.chActive := by
  have hblock : Keeps ⟨false, [], [.be]⟩ d.chLimits d.chBlock := by
    rw [d.chBlock_eq]
    exact Dev.each_keeps _ _ _ fun e l => Dev.setPars_keeps ..
  rw [hblock.rd F.SC_CH_STAT_active 0 (by decide), d.chLimits_active]

/-- Mode, voltage limit and running stages in the block. -/
theorem Dev.chBlock_lt (d : Dev) {l k : Nat} {v : Word} (hl : l ∈ d.chLoops) (hk : k < 64)
    (h : (k, v) ∈ [(48, wholeQ d.ch.pmode), (50, d.ch.volt), (55, wholeQ d.chActive)]) : d.chBlock.lt (parBase l + 4 * k) = v := by
  rw [d.chBlock_eq]
  refine Dev.each_setPars_lt (keys := [48, 49, 50, 51, 52, 53, 54, 55]) (fun _ _ => rfl) (by decide) (by decide) hk ?_ fun e he => ?_
  · rw [d.chLimits_keeps.chLoops (by decide)]
    exact hl
  · rw [Dev.chPars, he.rd F.SC_CH_STAT_active 0 (by decide), d.chLimits_active]
    simp only [List.mem_cons, List.not_mem_nil, or_false] at h ⊢
    rcases h with h | h | h
    · exact .inl h
    · exact .inr (.inr (.inl h))
    · exact .inr (.inr (.inr (.inr (.inr (.inr (.inr h))))))

/-! ### State and descriptors in progress -/

theorem Dev.chGo_ch (d : Dev) (new : Nat) : (d.chGo new).ch = d.ch := (d.chGo_keeps new).parts .ch (by decide)

theorem Dev.chGo_sameItem (d : Dev) (new q i : Nat) : Dev.SameItem q i d (d.chGo new) := by
  unfold Dev.chGo
  dsimp only
  split
  · exact .refl ..
  · exact ((Dev.wr_keeps d F.SC_CH_STAT_state 0 new (by decide)).sameItem q i (by decide)).trans (Dev.stateEvent_sameItem ..)

theorem Dev.chFinish_ch (d : Dev) (st : Nat) : (d.chFinish st).ch = { d.ch with job := none } := by
  rw [Dev.chFinish, Dev.ch_onCh, (Dev.finishJob_keeps ..).parts .ch (by decide)]

theorem Dev.chFinish_sameItem (d : Dev) (st : Nat) {q i : Nat} (hne : d.ch.job ≠ some (q, i)) (hring : (d.qp q).silent = false) :
    Dev.SameItem q i d (d.chFinish st) := (d.finishJob_sameItem hne hring st 0).trans ((Dev.onCh_keeps ..).sameItem q i (by decide))

/-- The CH_STOPs of a list end. -/
def Dev.endStops (d : Dev) (l : List (Nat × Nat)) : Dev := l.foldl (fun d j => d.finish j.1 j.2 Code.OK) d

theorem Dev.chStopped_eq (d : Dev) : d.chStopped = (d.endStops d.ch.stopJobs).onCh fun c => { c with stopJobs := [] } := rfl

/-- What ends some descriptors. -/
def finishFoot : Foot :=
  ⟨false, [F.SC_TM_STAT_last_status, F.SC_TM_CNT_refusals, F.SC_CH_STAT_last_status, F.SC_LV_STAT_last_status, F.SC_DR_STAT_last_status,
    F.HI_QP_CTRL_draining, F.HI_QP_FLAGS_in_flight, F.CN_STAT_slots, F.FLT_STAT_lost, F.FLT_LOST], [.hi, .cn, .flt]⟩

theorem Dev.endStops_keeps (d : Dev) (l : List (Nat × Nat)) : Keeps finishFoot d (d.endStops l) :=
  Dev.foldl_keeps (fun e (j : Nat × Nat) => e.finish_keeps j.1 j.2 Code.OK false 0) l d

theorem Dev.chStopped_ch (d : Dev) : d.chStopped.ch = { d.ch with stopJobs := [] } := by
  rw [d.chStopped_eq, Dev.ch_onCh, (Dev.endStops_keeps ..).parts .ch (by decide)]

/-- A CH_STOP in the list is over once the list has ended. -/
theorem Dev.endStops_over {q i : Nat} {l : List (Nat × Nat)} (hl : (q, i) ∈ l) {d : Dev} (h : d.underWay q i) : (d.endStops l).Over q i Code.OK := by
  have hover : ∀ (l : List (Nat × Nat)) {e : Dev}, e.Over q i Code.OK → (e.endStops l).Over q i Code.OK := by
    intro l
    induction l with
    | nil => exact id
    | cons j r ih => exact fun he => ih (he.finish j.1 j.2 Code.OK false 0)
  induction l generalizing d with
  | nil => cases hl
  | cons j r ih =>
    by_cases hj : j = (q, i)
    · subst hj
      exact hover r (Dev.finish_over h Code.OK false 0)
    · obtain ⟨-, -, -, hring⟩ := id h
      exact ih ((List.mem_cons.mp hl).resolve_left (Ne.symm hj)) ((d.finish_sameItem hj hring Code.OK false 0).underWay h)

theorem Dev.chStopped_over {d : Dev} {q i : Nat} (hl : (q, i) ∈ d.ch.stopJobs) (h : d.underWay q i) : d.chStopped.endedWith q i Code.OK :=
  (((Dev.onCh_keeps ..).sameItem q i (by decide)).over (Dev.endStops_over hl h)).1

/-! ### Rest (R242, R243) -/

theorem Dev.chRest_ch (d : Dev) : ∃ p49 p51, d.chRest.ch =
    { d.ch with pmode := 0, second := false, gridBad := none, plugEvent := false, overEvent := false, p49 := p49, p51 := p51 } := by
  obtain ⟨_, _, hblock⟩ := ((d.stopStages [10, 11, 8, 9]).onCh fun c =>
    { c with pmode := 0, second := false, gridBad := none, plugEvent := false, overEvent := false }).chBlock_ch
  rw [Dev.chRest, Dev.chGo_ch, hblock, Dev.ch_onCh, (Dev.stopStages_keeps ..).parts .ch (by decide)]
  exact ⟨_, _, rfl⟩

theorem Dev.chRest_state (d : Dev) : d.chRest.chState = 2 := Dev.chState_chGo _ (by decide)

theorem Dev.chRest_sameItem (d : Dev) (q i : Nat) : Dev.SameItem q i d d.chRest :=
  (((Dev.stopStages_keeps ..).sameItem q i (by decide)).trans ((Dev.onCh_keeps ..).sameItem q i (by decide))).trans
    (((Dev.chBlock_keeps _).sameItem q i (by decide)).trans (Dev.chGo_sameItem ..))

/-- What the charger shows at rest, without a session. -/
def Dev.ChAtRest (d : Dev) : Prop := d.chState = 2 ∧ d.ch.job = none ∧ ∀ k ∈ chStages, d.Stopped k

theorem Dev.chStopped_rests {d : Dev} (h : d.ChAtRest) : d.chStopped.ChAtRest ∧ d.chStopped.ch.stopJobs = [] := by
  obtain ⟨hstate, hjob, hstop⟩ := h
  have hk := d.chStopped_keeps
  rw [Dev.ChAtRest, Dev.chStopped_ch]
  exact ⟨⟨(hk.rd F.SC_CH_STAT_state 0 (by decide)).trans hstate, hjob, fun k hkm => (hstop k hkm).keeps hk (by decide)⟩, rfl⟩

/-- The word that a hard stop ends a start with, or the report of its cause. -/
def Dev.hardWord (d : Dev) (had : Bool) (cause : Nat) : Dev :=
  if had then d.chFinish cause
  else d.post { kind := Kind.stage, index := 8, cls := Cls.report, code := cause, detail := cause, time := d.time }

theorem Dev.hardStop_eq (d : Dev) (cause : Nat) : d.hardStop cause = (d.chRest.hardWord d.ch.job.isSome cause).chStopped := rfl

theorem Dev.hardWord_rests (d : Dev) (cause : Nat) : (d.chRest.hardWord d.ch.job.isSome cause).ChAtRest := by
  obtain ⟨_, _, hrest⟩ := d.chRest_ch
  unfold Dev.hardWord
  split
  case isTrue =>
    have hk := d.chRest.chFinish_keeps cause
    rw [Dev.ChAtRest, Dev.chFinish_ch]
    exact ⟨(hk.rd F.SC_CH_STAT_state 0 (by decide)).trans d.chRest_state, rfl, fun k hkm => (d.chRest_stops hkm).keeps hk (by decide)⟩
  case isFalse hnone =>
    have hk := d.chRest.post_keeps { kind := Kind.stage, index := 8, cls := Cls.report, code := cause, detail := cause, time := d.chRest.time }
    rw [Dev.ChAtRest, hk.parts .ch (by decide), hrest]
    exact ⟨(hk.rd F.SC_CH_STAT_state 0 (by decide)).trans d.chRest_state, by simpa using hnone, fun k hkm => (d.chRest_stops hkm).keeps hk (by decide)⟩

theorem Dev.hardStop_rests (d : Dev) (cause : Nat) : (d.hardStop cause).ChAtRest ∧ (d.hardStop cause).ch.stopJobs = [] := by
  rw [d.hardStop_eq]
  exact Dev.chStopped_rests (d.hardWord_rests cause)

/-- A CH_STOP that a hard stop meets is over. -/
theorem Dev.hardStop_ends {d : Dev} {q i : Nat} (hl : (q, i) ∈ d.ch.stopJobs) (hne : d.ch.job ≠ some (q, i)) (h : d.underWay q i) (cause : Nat) :
    (d.hardStop cause).endedWith q i Code.OK := by
  obtain ⟨_, _, hrest⟩ := d.chRest_ch
  obtain ⟨-, -, -, hring⟩ := id h
  have hsame := d.chRest_sameItem q i
  have hjob : d.chRest.ch.job = d.ch.job := by rw [hrest]
  have hstops : d.chRest.ch.stopJobs = d.ch.stopJobs := by rw [hrest]
  rw [d.hardStop_eq]
  refine Dev.chStopped_over ?_ ?_
  · unfold Dev.hardWord
    split
    · rw [Dev.chFinish_ch]
      exact hstops ▸ hl
    · rw [(Dev.post_keeps ..).parts .ch (by decide)]
      exact hstops ▸ hl
  · refine Dev.SameItem.underWay ?_ (hsame.underWay h)
    unfold Dev.hardWord
    split
    · exact d.chRest.chFinish_sameItem cause (hjob ▸ hne) (hsame.2.trans hring)
    · exact (Dev.post_keeps ..).sameItem q i (by decide)

/-! ### A session starts (R240, R241) -/

theorem Dev.chRamp_shows (d : Dev) : d.chRamp.chState = 5 ∧ ∃ p49 p51 base, d.chRamp.ch =
    { d.ch with pmode := d.ch.mode, second := false, since := d.time, gridBad := none, plugEvent := false, overEvent := false, p49 := p49,
                p51 := p51, base := base } := by
  obtain ⟨_, _, hblock⟩ := (d.onCh fun c => { c with pmode := c.mode, second := false, since := d.time, gridBad := none, plugEvent := false,
                                                      overEvent := false }).chBlock_ch
  rw [Dev.chRamp, Dev.chGo_ch, Dev.ch_onCh, hblock]
  exact ⟨Dev.chState_chGo _ (by decide), _, _, _, rfl⟩

/-- A start that the charger takes. -/
def Dev.chTake (d : Dev) (q i mode : Nat) (x : Descr) : Dev :=
  d.onCh fun c => { c with job := some (q, i), mode := mode, power := lowWord x.param2, volt := highWord x.param2, since := d.time }

/-- A charge that waits for its connector. -/
def Dev.chConnect (d : Dev) : Dev := ((d.onCh fun c => { c with pmode := 0 }).chBlock).chGo 3

theorem Dev.chConnect_shows (d : Dev) : d.chConnect.chState = 3 ∧ ∃ p49 p51, d.chConnect.ch = { d.ch with pmode := 0, p49 := p49, p51 := p51 } := by
  obtain ⟨_, _, hblock⟩ := (d.onCh fun c => { c with pmode := 0 }).chBlock_ch
  rw [Dev.chConnect, Dev.chGo_ch, hblock]
  exact ⟨Dev.chState_chGo _ (by decide), _, _, rfl⟩

/-! ### CH_STOP (R242) -/

section
variable {d : Dev} {q i : Nat}

/-- The charger with one CH_STOP more in progress. -/
def Dev.chAsked (d : Dev) (job : List (Nat × Nat)) : Dev := d.onCh fun c => { c with stopJobs := c.stopJobs ++ job }

theorem Keeps.chCause {w : Foot} {d e : Dev} (hk : Keeps w d e) (hch : e.ch.mode = d.ch.mode ∧ e.ch.gridBad = d.ch.gridBad ∧
    e.ch.plugEvent = d.ch.plugEvent ∧ e.ch.overEvent = d.ch.overEvent) (hp : Part.flt ∉ w.parts)
    (hw : (drivingFields ++ [F.SC_CH_STAT_state, F.SC_CH_STAT_cp, F.SC_CH_CFG_vent_ok, F.TB_STG_STAT_fenced, F.TB_STG_STAT_tripped]).all
      w.avoids = true) : e.chCause = d.chCause := by
  rw [List.all_append, Bool.and_eq_true] at hw
  obtain ⟨hdriving, hrest⟩ := hw
  simp only [List.all_cons, List.all_nil, Bool.and_true, Bool.and_eq_true] at hrest
  obtain ⟨hstate, hcp, hvent, hfenced, htripped⟩ := hrest
  obtain ⟨hmode, hgrid, hplug, hover⟩ := hch
  have hready : e.cpReady = d.cpReady := by rw [Dev.cpReady, Dev.cpReady, hk.rd _ _ hcp, hk.flag _ _ hvent]
  have hfence : e.fenced = d.fenced := funext fun k => funext fun i => Dev.fenced_congr (hk.parts .flt hp) k i
  have hlost : e.stageLost = d.stageLost := funext fun s => by
    rw [Dev.stageLost, Dev.stageLost, hk.flag _ _ hfenced, hk.flag _ _ htripped, hk.driving s hdriving, hfence]
  have hlive : e.chLive = d.chLive := by rw [Dev.chLive, Dev.chLive, hk.rd _ _ hstate]
  rw [Dev.chCause, Dev.chCause, hmode, hgrid, hplug, hover, hready, hlost, hlive, hk.time, hk.rd _ _ hcp]

theorem Dev.chAsked_cause (d : Dev) (job : List (Nat × Nat)) : (d.chAsked job).chCause = d.chCause :=
  (Dev.onCh_keeps d fun c => { c with stopJobs := c.stopJobs ++ job }).chCause ⟨rfl, rfl, rfl, rfl⟩ (by decide) (by decide)

theorem Dev.chAsked_sameItem (d : Dev) (job : List (Nat × Nat)) (q i : Nat) : Dev.SameItem q i d (d.chAsked job) :=
  (Dev.onCh_keeps ..).sameItem q i (by decide)

theorem Dev.chStop_of_cause {cause : Nat} (h : d.chCause = some cause) (job : List (Nat × Nat)) (word : Nat) :
    d.chStop job word = (d.chAsked job).hardStop cause := by
  rw [← d.chAsked_cause job] at h
  unfold Dev.chAsked at h ⊢
  unfold Dev.chStop
  dsimp only
  rw [h]

theorem Dev.chStop_of_run (h : d.chCause = none) (hstate : d.chState = 6 ∨ d.chState = 7) (job : List (Nat × Nat)) (word : Nat) :
    d.chStop job word = (((d.chAsked job).onCh fun c => { c with pmode := 3, since := (d.chAsked job).time }).chBlock).chGo 8 := by
  rw [← d.chAsked_cause job] at h
  unfold Dev.chAsked at h ⊢
  unfold Dev.chStop
  dsimp only
  rw [h]
  exact if_pos hstate

theorem Dev.chStop_of_start (h : d.chCause = none) (hstate : d.chState = 3 ∨ d.chState = 4 ∨ d.chState = 5) (job : List (Nat × Nat)) (word : Nat) :
    d.chStop job word = (((d.chAsked job).chFinish word).chRest).chStopped := by
  rw [← d.chAsked_cause job] at h
  unfold Dev.chAsked at h ⊢
  unfold Dev.chStop
  dsimp only
  rw [h]
  dsimp only
  rw [if_neg (by omega), if_pos hstate]

theorem Dev.chWinds_shows (d : Dev) (job : List (Nat × Nat)) :
    let n := (((d.chAsked job).onCh fun c => { c with pmode := 3, since := (d.chAsked job).time }).chBlock).chGo 8
    n.chState = 8 ∧ n.ch.pmode = 3 ∧ n.ch.since = d.time ∧ n.ch.stopJobs = d.ch.stopJobs ++ job := by
  obtain ⟨_, _, hblock⟩ := ((d.chAsked job).onCh fun c => { c with pmode := 3, since := (d.chAsked job).time }).chBlock_ch
  dsimp only
  rw [Dev.chGo_ch, hblock]
  exact ⟨Dev.chState_chGo _ (by decide), rfl, rfl, rfl⟩

theorem Dev.chHard_shows (hne : d.ch.job ≠ some (q, i)) (h : d.underWay q i) (cause : Nat) :
    let n := (d.chAsked [(q, i)]).hardStop cause
    n.endedWith q i Code.OK ∧ n.chState = 2 ∧ n.ch.job = none ∧ n.ch.stopJobs = [] ∧ ∀ k ∈ chStages, n.flag F.TB_STG_RUN_run k = false := by
  obtain ⟨⟨hstate, hjob, hstopped⟩, hstops⟩ := (d.chAsked [(q, i)]).hardStop_rests cause
  have hmem : (q, i) ∈ (d.chAsked [(q, i)]).ch.stopJobs := List.mem_append_right d.ch.stopJobs (.head _)
  exact ⟨Dev.hardStop_ends hmem hne ((d.chAsked_sameItem _ q i).underWay h) cause, hstate, hjob, hstops, hstopped⟩

theorem Dev.chAbandons_shows (hne : d.ch.job ≠ some (q, i)) (h : d.underWay q i) (word : Nat) :
    let n := (((d.chAsked [(q, i)]).chFinish word).chRest).chStopped
    n.endedWith q i Code.OK ∧ n.ChAtRest := by
  obtain ⟨_, _, hrest⟩ := ((d.chAsked [(q, i)]).chFinish word).chRest_ch
  obtain ⟨-, -, -, hring⟩ := id h
  have hasked := d.chAsked_sameItem [(q, i)] q i
  have hfin := (d.chAsked [(q, i)]).chFinish_sameItem word hne (hasked.2.trans hring)
  rw [Dev.chFinish_ch] at hrest
  refine ⟨Dev.chStopped_over ?_ (((hasked.trans hfin).trans (Dev.chRest_sameItem ..)).underWay h), (Dev.chStopped_rests ⟨Dev.chRest_state _, ?_, ?_⟩).1⟩
  · rw [hrest]
    exact List.mem_append_right _ (.head _)
  · rw [hrest]
  · exact fun k hk => Dev.chRest_stops _ hk

end

/-! ### CH_TARGET (R237) -/

/-- New limits of a session. -/
def Dev.chRetarget (d : Dev) (x : Descr) : Dev := d.onCh fun c => { c with power := lowWord x.param2, volt := highWord x.param2 }

/-- What CH_TARGET does. -/
def Dev.chTarget (d : Dev) (q i : Nat) (x : Descr) : Dev :=
  if !d.chOn || d.chState == 1 then d.finish q i Code.FENCED
  else if x.param1 % 4 = 2 ∧ d.flag F.SC_CH_CFG_export_en 0 = false then d.finish q i Code.RANGE_VALUE
  else if d.chState = 2 then d.finish q i Code.OK
  else if x.param1 % 4 ≠ d.ch.mode then d.finish q i Code.RANGE_VALUE
  else (d.chRetarget x).chBlock.finish q i Code.OK

theorem Dev.chRetarget_shows {d : Dev} {q i : Nat} (h : d.underWay q i) (x : Descr) : let n := (d.chRetarget x).chBlock.finish q i Code.OK
    n.endedWith q i Code.OK ∧ n.ch.power = lowWord x.param2 ∧ n.ch.volt = highWord x.param2 ∧ n.chState = d.chState ∧
      ∀ l ∈ d.chLoops, n.lt (parBase l + 4 * 50) = highWord x.param2 := by
  have hk : Keeps ⟨false, [], [.ch]⟩ d (d.chRetarget x) := Dev.onCh_keeps ..
  have hblk := (d.chRetarget x).chBlock_keeps
  have hfin := (d.chRetarget x).chBlock.finish_keeps q i Code.OK false 0
  obtain ⟨_, _, hblock⟩ := (d.chRetarget x).chBlock_ch
  dsimp only
  rw [hfin.parts .ch (by decide), hblock, Dev.chState, hfin.rd F.SC_CH_STAT_state 0 (by decide), hblk.rd F.SC_CH_STAT_state 0 (by decide),
    hk.rd F.SC_CH_STAT_state 0 (by decide)]
  refine ⟨Dev.finish_ends ?_ .., rfl, rfl, rfl, fun l hl => ?_⟩
  · exact ((hk.sameItem q i (by decide)).trans (hblk.sameItem q i (by decide))).underWay h
  · rw [Dev.lt_congr (hfin.parts .be (by decide))]
    exact (d.chRetarget x).chBlock_lt (hk.chLoops (by decide) ▸ hl) (by decide) (.tail _ (.head _))

/-! ### The obligation -/

/-- Settles O22: CH_START connects, ramps or is refused, CH_TARGET renews limits, CH_STOP winds down, ends or stops hard. -/
theorem chargingCommands : Obligations.ChargingCommands := by
  unfold Obligations.ChargingCommands
  intro s t q i x d mode hstand hon hjob
  set e := d.started q i with he
  have hk : Keeps ⟨false, [F.HI_QP_CTRL_draining, F.HI_QP_FLAGS_in_flight], [.hi]⟩ d e := d.started_keeps q i
  have hlive : e.underWay q i := Dev.underWay_started hstand
  have hcarry : e.ch = d.ch := hk.parts .ch (by decide)
  have hstate : e.chState = d.chState := hk.rd F.SC_CH_STAT_state 0 (by decide)
  have hsealed : e.isSealed = d.isSealed := congrArg (· == DevSt.sealed) (hk.rd F.DEV_STATE_state 0 (by decide))
  have hon' : e.chOn = true := (hk.flag F.SC_CH_CFG_enable 0 (by decide)).trans hon
  have hloops : e.chLoops = d.chLoops := hk.chLoops (by decide)
  have havailable : ∀ k, e.stageAvailable k = d.stageAvailable k := fun k => hk.stageAvailable k (by decide) (by decide)
  have hcause : e.chCause = d.chCause := hk.chCause (by rw [hcarry]; exact ⟨rfl, rfl, rfl, rfl⟩) (by decide) (by decide)
  have hother : e.ch.job ≠ some (q.val, i) := by rwa [hcarry]
  have hcable : e.rd F.SC_CH_STAT_cable 0 = d.rd F.SC_CH_STAT_cable 0 := hk.rd _ _ (by decide)
  have hcp : e.rd F.SC_CH_STAT_cp 0 = d.rd F.SC_CH_STAT_cp 0 := hk.rd _ _ (by decide)
  have hallow : e.rd F.SC_CH_STAT_i_allow 0 = d.rd F.SC_CH_STAT_i_allow 0 := hk.rd _ _ (by decide)
  have hready : e.cpReady = d.cpReady := by rw [Dev.cpReady, Dev.cpReady, hcp, hk.flag F.SC_CH_CFG_vent_ok _ (by decide)]
  have hexport : e.flag F.SC_CH_CFG_export_en 0 = d.flag F.SC_CH_CFG_export_en 0 := hk.flag _ _ (by decide)
  have hline : e.lineVolts = d.lineVolts := by
    rw [Dev.lineVolts, Dev.lineVolts, Dev.xchFrac, Dev.xchFrac, hk.rd F.SC_CH_CFG_grid_x _ (by decide), Dev.lt_congr (hk.parts .be (by decide))]
  have hlow : e.rd F.SC_CH_GRID_v_lo 0 = d.rd F.SC_CH_GRID_v_lo 0 := hk.rd _ _ (by decide)
  have htime : e.time = d.time := hk.time
  have hstart : ∀ {P : Dev → Prop}, x.opcode = Op.CH_START → P (e.chStart q i x) → Does s (.chStart t q i) P :=
    fun hop h => Does.of_handed rfl hstand hop (by decide) h
  have hstop : ∀ {P : Dev → Prop}, x.opcode = Op.CH_STOP → e.chState ≠ 1 → P (e.chStop [(q.val, i)] Code.STALE) → Does s (.chStop t q i) P :=
    fun hop hst h => by
      refine Does.of_handed (show exec _ s = execChStop t q i s from rfl) hstand hop (by decide) ?_
      rwa [← he, hon', if_neg (by simpa using hst)]
  have hends : ∀ st, (e.finish q i st).endedWith q i st ∧ (e.finish q i st).ch = e.ch := fun st =>
    ⟨Dev.finish_ends hlive .., (Dev.finish_keeps ..).parts .ch (by decide)⟩
  rw [← hcarry, ← hstate, ← hsealed, ← hloops, ← hcause, ← hcable, ← hcp, ← hallow, ← hready, ← hexport, ← hline, ← hlow, ← htime]
  refine ⟨?start, ?unsealed, ?off, ?target, ?winds, ?hard, ?abandons⟩
  case start =>
    intro hop hsl hst hall
    have hfit : (chStages.all e.stageAvailable) = true := List.all_eq_true.mpr fun k hk => (havailable k).trans (hall k hk)
    have hgo : ∀ exported : Bool, (mode = 2 → exported = true) → e.flag F.SC_CH_CFG_export_en 0 = exported → e.chStart q i x =
        if mode = 1 then
          if e.rd F.SC_CH_STAT_cable 0 = 0 ∨ e.rd F.SC_CH_STAT_cable 0 = 5 ∨ ¬(e.rd F.SC_CH_STAT_cp 0 = 2 ∨ e.cpReady = true) ∨
              e.rd F.SC_CH_STAT_i_allow 0 < 6 then e.finish q i Code.CONNECTOR
          else (e.chTake q i mode x).chConnect
        else if e.rd F.SC_CH_STAT_cp 0 ≠ 1 ∨ ¬(10 * e.lineVolts < (2 * e.rd F.SC_CH_GRID_v_lo 0 : Nat)) then e.finish q i Code.CONNECTOR
        else (e.chTake q i mode x).chRamp := by
      intro exported hmode hex
      unfold Dev.chStart
      dsimp only
      rw [hon', hsl, if_neg (by decide), if_neg (by decide), if_neg (by omega), if_neg, if_neg (by rw [hfit]; decide)]
      · rfl
      · rintro (h | ⟨h1, h2⟩)
        · exact h hst
        · rw [hex, hmode h1] at h2
          cases h2
    refine ⟨fun hmode hcab1 hcab4 hcpok hamps => hstart hop ?_, fun hmode hcab => hstart hop ?_, fun hmode hex hcp1 hv => hstart hop ?_⟩
    · obtain ⟨hconnect, _, _, htaken⟩ := (e.chTake q i mode x).chConnect_shows
      have hclear : ¬ (e.rd F.SC_CH_STAT_cable 0 = 0 ∨ e.rd F.SC_CH_STAT_cable 0 = 5 ∨ ¬(e.rd F.SC_CH_STAT_cp 0 = 2 ∨ e.cpReady = true) ∨
          e.rd F.SC_CH_STAT_i_allow 0 < 6) := by
        rintro (h | h | h | h)
        · omega
        · omega
        · exact h hcpok
        · omega
      rw [hgo _ (fun h => by omega) rfl, if_pos hmode, if_neg hclear, hconnect, htaken]
      exact ⟨rfl, rfl, hmode, rfl, rfl, rfl⟩
    · rw [hgo _ (fun h => by omega) rfl, if_pos hmode, if_pos (.inl hcab), Dev.chState, (Dev.finish_keeps ..).rd F.SC_CH_STAT_state 0 (by decide)]
      obtain ⟨h1, h2⟩ := hends Code.CONNECTOR
      exact ⟨h1, hst, h2⟩
    · obtain ⟨hramp, _, _, _, htaken⟩ := (e.chTake q i mode x).chRamp_shows
      have hclear : ¬ (e.rd F.SC_CH_STAT_cp 0 ≠ 1 ∨ ¬(10 * e.lineVolts < (2 * e.rd F.SC_CH_GRID_v_lo 0 : Nat))) := by
        rintro (h | h)
        · exact h hcp1
        · exact h hv
      rw [hgo true (fun _ => rfl) hex, if_neg (by omega), if_neg hclear, hramp, htaken]
      exact ⟨rfl, rfl, hmode, hmode⟩
  case unsealed =>
    intro hop hsl
    refine hstart hop ?_
    have hgo : e.chStart q i x = e.finish q i Code.NOT_SEALED := by
      unfold Dev.chStart
      dsimp only
      rw [hon', hsl, if_neg (by decide), if_pos (by decide)]
    exact hgo ▸ hends _
  case off =>
    intro hops hst
    refine ⟨fun hop => hstart hop ?_, fun hop => ?_, fun hop => ?_⟩
    · have hsl : e.isSealed = true := by
        rcases hops with ⟨-, h⟩ | h | h
        · exact h
        · rw [hop] at h
          cases h
        · rw [hop] at h
          cases h
      have hgo : e.chStart q i x = e.finish q i Code.FENCED := by
        unfold Dev.chStart
        dsimp only
        rw [hon', hsl, if_neg (by decide), if_neg (by decide), if_pos hst]
      exact hgo ▸ hends _
    · refine Does.of_handed (show exec _ s = execChTarget t q i s from rfl) hstand hop (by decide) ?_
      rw [← he, hon', if_pos (by simp [hst])]
      exact hends _
    · refine Does.of_handed (show exec _ s = execChStop t q i s from rfl) hstand hop (by decide) ?_
      rw [← he, hon', if_pos (by simp [hst])]
      exact hends _
  case target =>
    intro hop hon1 hon2 hmode hexp
    refine Does.of_handed (f := fun d x => d.chTarget q i x) (show exec _ s = execChTarget t q i s from rfl) hstand hop (by decide) ?_
    have hgo : e.chTarget q i x = (e.chRetarget x).chBlock.finish q i Code.OK := by
      unfold Dev.chTarget
      rw [hon', if_neg (by simpa using hon1), if_neg, if_neg hon2, if_neg (not_not_intro hmode)]
      rintro ⟨h1, h2⟩
      rw [hexp h1] at h2
      cases h2
    rw [← he, hgo]
    exact Dev.chRetarget_shows hlive x
  case winds =>
    intro hop hst hnone
    refine hstop hop (by omega) ?_
    rw [Dev.chStop_of_run hnone hst]
    exact e.chWinds_shows [(q.val, i)]
  case hard =>
    intro hop hst hsome
    obtain ⟨cause, hcs⟩ := Option.ne_none_iff_exists'.mp hsome
    refine hstop hop (by omega) ?_
    rw [Dev.chStop_of_cause hcs]
    exact Dev.chHard_shows hother hlive cause
  case abandons =>
    intro hop hst hnone
    refine hstop hop (by omega) ?_
    rw [Dev.chStop_of_start hnone hst]
    obtain ⟨h1, h2, h3, h4⟩ := Dev.chAbandons_shows hother hlive Code.STALE
    exact ⟨h1, h2, h3, h4⟩

end Sys2Proof.Machine
end

section
/-! The charger's meter, waits and reactions (R233 to R236, R240 to R244); obligation O23. -/

namespace Sys2Proof.Machine

/-! ### The pilot meter (R233 to R235) -/

/-- Duty and oscillation as the meter shows them. -/
def Dev.showPilot (d : Dev) (osc : Bool) (duty high low : Rat) : Dev :=
  (((d.wr F.SC_CH_PILOT_duty 0 (ratRound (duty * 1000)).toNat).put F.SC_CH_PILOT_osc 0 osc).wrInt F.SC_CH_PILOT_high 0
    (clampInt (-128) 127 (ratRound (high * 10)))).wrInt F.SC_CH_PILOT_low 0 (clampInt (-128) 127 (ratRound (low * 10)))

/-- The pilot state that the plateaux give. -/
def Dev.pilotNow (d : Dev) (osc : Bool) (high low : Rat) : Nat :=
  pilotState osc (d.rd2 F.CV_RAW_broken (d.rd F.SC_CH_IN_cp_conv 0) (d.rd F.SC_CH_IN_cp_entry 0) == 1) high low

/-- The state, shown once it repeats, and carried with the duty. -/
def Dev.notePilot (d : Dev) (st : Nat) (duty : Rat) : Dev :=
  (if st = d.ch.pilot.lastState then d.wr F.SC_CH_STAT_cp 0 st else d).onCh fun c => { c with pilot := { c.pilot with lastState := st, duty := duty } }

/-- The current that a duty allows. -/
def Dev.pilotAllow (d : Dev) (osc : Bool) (duty : Rat) : Nat :=
  min (min (pilotAmps osc (duty * 100)).floor.toNat (cableAmps (d.rd F.SC_CH_STAT_cable 0))) (d.rd F.SC_CH_LIM_imax 0)

/-- New limits of a session in CHARGE. -/
def Dev.pilotLimits (d : Dev) : Dev :=
  if d.ch.mode = 1 ∧ (d.chState = 5 ∨ d.chState = 6) ∧ (d.chPower ≠ d.ch.p49 ∨ d.chAmps ≠ d.ch.p51) then d.chBlock else d

/-- The meter's result, before new limits. -/
def Dev.pilotResult (d : Dev) (osc : Bool) (duty high low : Rat) : Dev :=
  ((d.showPilot osc duty high low).notePilot ((d.showPilot osc duty high low).pilotNow osc high low) duty).pipe fun d =>
    d.wr F.SC_CH_STAT_i_allow 0 (d.pilotAllow osc duty)

theorem Dev.pilotDone_eq (d : Dev) (osc : Bool) (duty high low : Rat) : d.pilotDone osc duty high low = (d.pilotResult osc duty high low).pilotLimits := rfl

theorem Dev.pilotLimits_keeps (d : Dev) : Keeps ⟨false, [F.SC_CH_STAT_active], [.be, .ch]⟩ d d.pilotLimits :=
  .ite (fun _ => Dev.chBlock_keeps _) fun _ => .refl ..

theorem Dev.pilotLimits_pilot (d : Dev) : d.pilotLimits.ch.pilot = d.ch.pilot := by
  unfold Dev.pilotLimits
  split
  · obtain ⟨_, _, hblock⟩ := d.chBlock_ch
    rw [hblock]
  · rfl

theorem Dev.notePilot_keeps (d : Dev) (st : Nat) (duty : Rat) : Keeps ⟨false, [F.SC_CH_STAT_cp], [.ch]⟩ d (d.notePilot st duty) :=
  (Keeps.ite (fun _ => (Dev.wr_keeps _ F.SC_CH_STAT_cp _ _ (by decide)).within (by decide)) fun _ => .refl ..).trans ((Dev.onCh_keeps ..).within (by decide))

theorem Dev.showPilot_keeps (d : Dev) (osc : Bool) (duty high low : Rat) :
    Keeps ⟨false, [F.SC_CH_PILOT_duty, F.SC_CH_PILOT_osc, F.SC_CH_PILOT_high, F.SC_CH_PILOT_low], []⟩ d (d.showPilot osc duty high low) :=
  (((Dev.wr_keeps _ F.SC_CH_PILOT_duty _ _ (by decide)).within (by decide)).trans ((Dev.put_keeps _ F.SC_CH_PILOT_osc _ _ (by decide)).within (by decide))).trans
    (((Dev.wrInt_keeps _ F.SC_CH_PILOT_high _ _ (by decide)).within (by decide)).trans ((Dev.wrInt_keeps _ F.SC_CH_PILOT_low _ _ (by decide)).within (by decide)))

theorem Dev.showPilot_shows (d : Dev) (osc : Bool) (duty high low : Rat) :
    (d.showPilot osc duty high low).rd F.SC_CH_PILOT_duty 0 = (ratRound (duty * 1000)).toNat % 1024 ∧
      (d.showPilot osc duty high low).flag F.SC_CH_PILOT_osc 0 = osc := by
  set e := (d.wr F.SC_CH_PILOT_duty 0 (ratRound (duty * 1000)).toNat).put F.SC_CH_PILOT_osc 0 osc
  have hk : Keeps ⟨false, [F.SC_CH_PILOT_high, F.SC_CH_PILOT_low], []⟩ e (d.showPilot osc duty high low) :=
    ((Dev.wrInt_keeps _ F.SC_CH_PILOT_high _ _ (by decide)).within (by decide)).trans ((Dev.wrInt_keeps _ F.SC_CH_PILOT_low _ _ (by decide)).within (by decide))
  rw [hk.rd F.SC_CH_PILOT_duty 0 (by decide), hk.flag F.SC_CH_PILOT_osc 0 (by decide)]
  refine ⟨?_, Dev.flag_put _ F.SC_CH_PILOT_osc _ _ (by decide) rfl⟩
  rw [(Dev.put_keeps _ F.SC_CH_PILOT_osc _ _ (by decide)).rd F.SC_CH_PILOT_duty 0 (by decide)]
  exact Dev.rd_wr _ F.SC_CH_PILOT_duty _ _ (by decide)

/-- What a window or a refresh of the meter shows. -/
theorem Dev.pilotDone_shows (d : Dev) (osc : Bool) (duty high low : Rat) : let n := d.pilotDone osc duty high low
    n.rd F.SC_CH_PILOT_duty 0 = (ratRound (duty * 1000)).toNat % 1024 ∧ n.flag F.SC_CH_PILOT_osc 0 = osc ∧
      n.rd F.SC_CH_STAT_i_allow 0 = d.pilotAllow osc duty ∧ ∃ st, n.ch.pilot = { d.ch.pilot with lastState := st, duty := duty } := by
  set e := d.showPilot osc duty high low with he
  set g := e.notePilot (e.pilotNow osc high low) duty with hg
  set r := g.wr F.SC_CH_STAT_i_allow 0 (g.pilotAllow osc duty) with hr
  have hres : d.pilotResult osc duty high low = r := rfl
  have hk1 := d.showPilot_keeps osc duty high low
  have hk2 := e.notePilot_keeps (e.pilotNow osc high low) duty
  have hk3 : Keeps ⟨false, [F.SC_CH_STAT_i_allow], []⟩ g r := Dev.wr_keeps _ _ _ _ (by decide)
  have hk4 := r.pilotLimits_keeps
  obtain ⟨hduty, hosc⟩ := d.showPilot_shows osc duty high low
  have hallow : g.pilotAllow osc duty = d.pilotAllow osc duty := by
    rw [Dev.pilotAllow, Dev.pilotAllow, hk2.rd F.SC_CH_STAT_cable 0 (by decide), hk1.rd F.SC_CH_STAT_cable 0 (by decide),
      hk2.rd F.SC_CH_LIM_imax 0 (by decide), hk1.rd F.SC_CH_LIM_imax 0 (by decide)]
  have hlt : g.pilotAllow osc duty < 2 ^ 8 := lt_of_le_of_lt (Nat.min_le_right ..) (getBits_lt ..)
  dsimp only
  rw [d.pilotDone_eq, hres, hk4.rd F.SC_CH_PILOT_duty 0 (by decide), hk4.flag F.SC_CH_PILOT_osc 0 (by decide),
    hk4.rd F.SC_CH_STAT_i_allow 0 (by decide), Dev.pilotLimits_pilot, hk3.rd F.SC_CH_PILOT_duty 0 (by decide),
    hk3.flag F.SC_CH_PILOT_osc 0 (by decide), hk3.parts .ch (by decide), hk2.rd F.SC_CH_PILOT_duty 0 (by decide),
    hk2.flag F.SC_CH_PILOT_osc 0 (by decide)]
  refine ⟨hduty, hosc, (Dev.rd_wr_of_lt _ F.SC_CH_STAT_i_allow _ (by decide) hlt).trans hallow, e.pilotNow osc high low, ?_⟩
  rw [hg, Dev.notePilot, Dev.ch_onCh]
  have hcarry : (if e.pilotNow osc high low = e.ch.pilot.lastState then e.wr F.SC_CH_STAT_cp 0 (e.pilotNow osc high low) else e).ch = d.ch := by
    split <;> rfl
  rw [hcarry]

theorem Dev.plateauOf_of_some (d : Dev) (sum : Int) {n : Nat} (h : n ≠ 0) : (d.plateauOf sum n).2 = d := by
  rw [Dev.plateauOf, if_neg h]

/-- The mean of the last results of the plateau. -/
def Dev.pilotMean (d : Dev) : Rat × Dev :=
  d.plateauOf ((d.ch.pilot.recent.filter fun e => Nat.ble d.time (e.1 + 800000)).foldl (fun n e => n + e.2) 0)
    (d.ch.pilot.recent.filter fun e => Nat.ble d.time (e.1 + 800000)).length

/-- The meter as a refresh opens it. -/
def Dev.pilotQuiet (d : Dev) : Dev :=
  d.onCh fun c => { c with pilot := { c.pilot.open with hiLast := none, rise := none, fall := none, refreshAt := d.time } }

theorem Dev.pilotRefresh_eq (d : Dev) : d.pilotRefresh =
    d.pilotMean.2.pilotQuiet.pilotDone false (if d.pilotMean.2.pilotQuiet.pilotHigh then 1 else 0) d.pilotMean.1 d.pilotMean.1 := rfl

/-- A refresh of the meter. -/
theorem Dev.pilotRefresh_shows (d : Dev) : let n := d.pilotRefresh
    n.flag F.SC_CH_PILOT_osc 0 = false ∧ n.rd F.SC_CH_STAT_i_allow 0 = 0 ∧ n.ch.pilot.refreshAt = d.time ∧
      n.rd F.SC_CH_PILOT_duty 0 = if d.pilotHigh then 1000 else 0 := by
  set e := d.pilotMean.2 with he
  have hmean : Keeps ⟨false, [], [.fresh]⟩ d e := Dev.plateauOf_keeps ..
  have hquiet : Keeps ⟨false, [], [.ch]⟩ e e.pilotQuiet := Dev.onCh_keeps ..
  have hhigh : e.pilotQuiet.pilotHigh = d.pilotHigh := by
    rw [Dev.pilotHigh, Dev.pilotHigh, hquiet.rd F.SC_CH_IN_pilot_wm 0 (by decide), hmean.rd F.SC_CH_IN_pilot_wm 0 (by decide),
      hquiet.flag F.WM_STAT_live_hi _ (by decide), hmean.flag F.WM_STAT_live_hi _ (by decide)]
  obtain ⟨hduty, hosc, hallow, st, hplace⟩ :=
    e.pilotQuiet.pilotDone_shows false (if e.pilotQuiet.pilotHigh then 1 else 0) d.pilotMean.1 d.pilotMean.1
  have hzero : ∀ x : Rat, e.pilotQuiet.pilotAllow false x = 0 := fun x => by
    have hamps : pilotAmps false (x * 100) = 0 := if_pos rfl
    have hfloor : (0 : Rat).floor.toNat = 0 := rfl
    rw [Dev.pilotAllow, hamps, hfloor, Nat.zero_min, Nat.zero_min]
  have hturn : (ratRound ((if d.pilotHigh then 1 else 0) * 1000)).toNat % 1024 = if d.pilotHigh then 1000 else 0 := by
    cases d.pilotHigh
    · rw [if_neg (by decide), ratRound, Rat.floor_def]
      norm_num
    · have hsum : (1 : Rat) * 1000 + 1 / 2 = 2001 / 2 := by norm_num
      rw [if_pos rfl, ratRound, hsum, Rat.floor_def]
      norm_num
      rfl
  dsimp only
  rw [d.pilotRefresh_eq, ← he, hosc, hallow, hplace, hduty, hzero, hhigh, hturn]
  exact ⟨rfl, rfl, hmean.time, rfl⟩

/-! ### Waits (R240 to R242) -/

theorem Dev.chFinish_chGo (d : Dev) (st : Nat) {new : Nat} (h : new < 16) :
    ((d.chFinish st).chGo new).chState = new ∧ ((d.chFinish st).chGo new).ch.job = none := by
  rw [Dev.chGo_ch, Dev.chFinish_ch]
  exact ⟨Dev.chState_chGo _ h, rfl⟩

theorem Dev.chRest_stopped (d : Dev) : d.chRest.chStopped.chState = 2 ∧ d.chRest.chStopped.ch.stopJobs = [] ∧
    ∀ k ∈ chStages, d.chRest.chStopped.Stopped k := by
  have hk := d.chRest.chStopped_keeps
  rw [Dev.chStopped_ch]
  exact ⟨(hk.rd F.SC_CH_STAT_state 0 (by decide)).trans d.chRest_state, rfl, fun k hkm => (d.chRest_stops hkm).keeps hk (by decide)⟩

/-- The end of the stop time. -/
theorem Dev.chStopEnds_shows (d : Dev) : let n := match d.chCause with | some c => d.hardStop c | none => d.chRest.chStopped
    n.chState = 2 ∧ n.ch.stopJobs = [] ∧ ∀ k ∈ chStages, n.Stopped k := by
  cases d.chCause with
  | none => exact d.chRest_stopped
  | some c =>
    obtain ⟨⟨h1, -, h3⟩, h4⟩ := d.hardStop_rests c
    exact ⟨h1, h4, h3⟩

/-- A grid found invalid again keeps the time since which it is. -/
theorem Dev.noteGrid_bad {d : Dev} (hon : d.chOn = true) (hlive : d.chLive = true) (hgrid : d.gridValid = false) {b : Nat}
    (hb : d.ch.gridBad = some b) : d.noteGrid.ch = { d.ch with gridBad := some b } := by
  rw [Dev.noteGrid, hon, hlive, hgrid, if_neg (by decide), if_neg (by decide), hb]
  rfl

theorem Dev.chLive_of_le {d : Dev} (h : 5 ≤ d.chState) : d.chLive = true := Nat.ble_eq.mpr h

/-! ### The obligation -/

/-- Settles O23: the meter's windows and refreshes, the waits, and the reactions to what happens in a session. -/
theorem chargingEvents : Obligations.ChargingEvents := by
  unfold Obligations.ChargingEvents
  intro s t d p hon
  refine ⟨?window, ?quiet, ?connect, ?grid, ?second, ?connectTime, ?gridTime, ?stopTime, ?loss, ?react, ?change⟩
  case window =>
    intro hperiods hhi hlo
    have hgo : exec (.pilotWindow t) s = effect t s fun d => if !d.chOn || d.ch.pilot.periods != 8 then d else
      let r := d.plateauOf d.ch.pilot.hiSum d.ch.pilot.hiN
      let v := r.2.plateauOf d.ch.pilot.loSum d.ch.pilot.loN
      (v.2.onCh fun c => { c with pilot := c.pilot.open }).pilotDone true (d.ch.pilot.dutySum / 8) r.1 v.1 := rfl
    refine Does.of_effect hgo ?_
    dsimp only
    rw [show s.now t = d from rfl, if_neg (by simp [hon, show d.ch.pilot.periods = 8 from hperiods]), Dev.plateauOf_of_some _ _ hhi,
      Dev.plateauOf_of_some _ _ hlo]
    obtain ⟨hduty, hosc, hallow, st, hplace⟩ := (d.onCh fun c => { c with pilot := c.pilot.open }).pilotDone_shows true (p.dutySum / 8)
      (d.plateauOf p.hiSum p.hiN).1 (d.plateauOf p.loSum p.loN).1
    exact ⟨hduty, hosc, congrArg Pilot.periods hplace, hallow⟩
  case quiet =>
    intro c hc hquiet
    have hlast : Nat.ble (p.lastEdge + 2400000) d.time = true := Nat.ble_eq.mpr hquiet
    rcases hc with ⟨rfl, hfirst⟩ | ⟨rfl, hnext⟩
    · refine Does.of_effect (show exec _ s = execPilotTimeout t s from rfl) ?_
      rw [if_pos (by
        have hblt : Nat.blt p.refreshAt (p.lastEdge + 2400000) = true := Nat.blt_eq.mpr hfirst
        rw [show s.now t = d from rfl, hon, hlast, hblt]
        rfl)]
      exact d.pilotRefresh_shows
    · refine Does.of_effect (show exec _ s = execPilotRefresh t s from rfl) ?_
      rw [if_pos (by
        have hble : Nat.ble (p.refreshAt + 800000) d.time = true := Nat.ble_eq.mpr hnext
        rw [show s.now t = d from rfl, hon, hlast, hble]
        rfl)]
      exact d.pilotRefresh_shows
  case connect =>
    intro hstate hready
    refine Does.of_effect (show exec _ s = execChWaitDone t s from rfl) ?_
    rw [if_pos ⟨hstate, hready⟩, Dev.chGo_ch]
    exact ⟨Dev.chState_chGo _ (by decide), rfl⟩
  case grid =>
    intro hstate hgrid
    refine Does.of_effect (show exec _ s = execChWaitDone t s from rfl) ?_
    obtain ⟨hramp, _, _, _, hplace⟩ := d.chRamp_shows
    rw [if_neg (by rw [show (s.now t).chState = 4 from hstate]; omega), if_pos ⟨hstate, hgrid⟩]
    exact ⟨hramp, congrArg Ch.pmode hplace⟩
  case second =>
    intro hstate hsecond hrun hbus
    refine Does.of_effect (show exec _ s = execChWaitDone t s from rfl) ?_
    rw [if_neg (by rw [show (s.now t).chState = 5 from hstate]; omega), if_neg (by rw [show (s.now t).chState = 5 from hstate]; omega),
      if_pos ⟨hstate, hsecond, hrun, hbus⟩]
    exact ⟨rfl, ((Dev.onCh_keeps ..).rd F.SC_CH_STAT_state 0 (by decide)).trans hstate⟩
  case connectTime =>
    intro hstate hdue hready
    refine Does.of_effect (show exec _ s = execChWaitTimeout t s from rfl) ?_
    rw [if_pos ⟨hstate, Nat.ble_eq.mpr hdue, hready⟩]
    exact d.chFinish_chGo Code.CONNECTOR (by decide)
  case gridTime =>
    intro hstate hdue hgrid
    refine Does.of_effect (show exec _ s = execChWaitTimeout t s from rfl) ?_
    rw [if_neg (by rw [show (s.now t).chState = 4 from hstate]; omega), if_pos ⟨hstate, Nat.ble_eq.mpr hdue, hgrid⟩]
    exact d.chFinish_chGo Code.NO_GRID (by decide)
  case stopTime =>
    intro hstate hdue
    refine Does.of_effect (show exec _ s = execStopTimeExpiry t s from rfl) ?_
    rw [if_pos ⟨hstate, hdue⟩]
    exact d.chStopEnds_shows
  case loss =>
    intro hstate hmode hgrid ⟨b, hb, hlong⟩
    refine Does.of_effect (show exec _ s = execGridLossTimeout t s from rfl) ?_
    have hnote := Dev.noteGrid_bad hon (Dev.chLive_of_le hstate) hgrid hb
    have hk := d.noteGrid_keeps
    have hlive : d.noteGrid.chLive = true := Dev.chLive_of_le (by rw [Dev.chState, hk.rd F.SC_CH_STAT_state 0 (by decide)]; exact hstate)
    have hgo : (match d.noteGrid.ch.gridBad with
        | some b => if d.noteGrid.chLive && d.noteGrid.ch.mode == 1 && Nat.blt (b + 16000000) d.noteGrid.time then d.noteGrid.hardStop Code.NO_GRID
            else d.noteGrid
        | none => d.noteGrid) = d.noteGrid.hardStop Code.NO_GRID := by
      have hblt : Nat.blt (b + 16000000) d.noteGrid.time = true := Nat.blt_eq.mpr (by rw [hk.time]; exact hlong)
      simp only [hnote, hlive, hmode, hblt, BEq.rfl, Bool.and_self, if_true]
    obtain ⟨⟨h1, h2, h3⟩, -⟩ := d.noteGrid.hardStop_rests Code.NO_GRID
    exact (congrArg (fun n : Dev => n.chState = 2 ∧ n.ch.job = none ∧ ∀ k ∈ chStages, n.Stopped k) hgo).mpr ⟨h1, h2, h3⟩
  case react =>
    intro hstate hsome
    refine Does.of_effect (show exec _ s = execChEventReaction t s from rfl) ?_
    obtain ⟨cause, hcause⟩ := Option.ne_none_iff_exists'.mp hsome
    obtain ⟨⟨h1, h2, h3⟩, -⟩ := d.hardStop_rests cause
    rw [show (s.now t).chCause = some cause from hcause]
    exact ⟨h1, h2, h3⟩
  case change =>
    intro hoff hnone hchange
    refine Does.of_effect (show exec _ s = execChEventReaction t s from rfl) ?_
    rw [show (s.now t).chCause = none from hnone]
    dsimp only
    rw [if_pos (by simpa [show s.now t = d from rfl, hon, hoff] using hchange)]
    exact ⟨d.chBlock_active, d.chBlock_keeps.rd F.SC_CH_STAT_state 0 (by decide), fun l hl => d.chBlock_lt hl (by decide) (.tail _ (.tail _ (.head _)))⟩

end Sys2Proof.Machine
end

section
/-! Drivers and gates of a port: what a supply, a command and a decision leave (R62 to R77). -/

namespace Sys2Proof.Machine

/-! ### One driver of a port -/

theorem PortT.drv_setDrv (q : PortT) (hi b : Bool) (v : DriverT) : (q.setDrv hi v).drv b = if b = hi then v else q.drv b := by
  cases hi <;> cases b <;> rfl

theorem Dev.port_setDrv (d : Dev) (p : Nat) (hi : Bool) (v : DriverT) : (d.setDrv p hi v).port p = (d.port p).setDrv hi v :=
  d.port_setPort_self p _

theorem Dev.drv_setDrv (d : Dev) (p : Nat) (hi b : Bool) (v : DriverT) : (d.setDrv p hi v).drv p b = if b = hi then v else d.drv p b := by
  rw [Dev.drv, Dev.port_setDrv, PortT.drv_setDrv]
  rfl

theorem Dev.drv_setDrv_same (d : Dev) (p : Nat) (hi : Bool) (v : DriverT) : (d.setDrv p hi v).drv p hi = v := by
  rw [Dev.drv_setDrv, if_pos rfl]

theorem Dev.edge_setEdge (d : Dev) (p : Nat) (hi : Bool) (e : Edge) : (d.setEdge p hi e).edge p hi = e := by
  rw [Dev.edge, Dev.setEdge, Dev.drv_setDrv_same]

theorem Dev.port_congr {d e : Dev} (h : e.pp = d.pp) (p : Nat) : e.port p = d.port p := by rw [Dev.port, Dev.port, h]

theorem Keeps.port {w : Foot} {d e : Dev} (hk : Keeps w d e) (hp : Part.pp ∉ w.parts) (p : Nat) : e.port p = d.port p :=
  Dev.port_congr (hk.parts .pp hp) p

theorem Keeps.drv {w : Foot} {d e : Dev} (hk : Keeps w d e) (hp : Part.pp ∉ w.parts) (p : Nat) (b : Bool) : e.drv p b = d.drv p b := by
  rw [Dev.drv, Dev.drv, hk.port hp]

theorem Keeps.edge {w : Foot} {d e : Dev} (hk : Keeps w d e) (hp : Part.pp ∉ w.parts) (p : Nat) (b : Bool) : e.edge p b = d.edge p b := by
  rw [Dev.edge, Dev.edge, hk.drv hp]

/-! ### What a decision rests on (R77) -/

/-- What of a port no decision of its drivers changes: the command at each input, each supply, the commands that are on their way, the links
and the pump. -/
structure PortT.SameInputs (q r : PortT) : Prop where
  cmd : ∀ b, (r.drv b).cmd = (q.drv b).cmd
  mv : ∀ b, (r.drv b).mv = (q.drv b).mv
  flight : r.flight = q.flight
  linkDown : r.linkDown = q.linkDown
  laneDown : r.laneDown = q.laneDown
  readmitted : r.readmitted = q.readmitted
  pump : r.pump = q.pump

theorem PortT.SameInputs.refl (q : PortT) : q.SameInputs q := ⟨fun _ => rfl, fun _ => rfl, rfl, rfl, rfl, rfl, rfl⟩

theorem PortT.SameInputs.trans {q r u : PortT} (h : q.SameInputs r) (k : r.SameInputs u) : q.SameInputs u :=
  ⟨fun b => (k.cmd b).trans (h.cmd b), fun b => (k.mv b).trans (h.mv b), k.flight.trans h.flight, k.linkDown.trans h.linkDown,
    k.laneDown.trans h.laneDown, k.readmitted.trans h.readmitted, k.pump.trans h.pump⟩

theorem PortT.sameInputs_setDrv (q : PortT) (hi : Bool) {v : DriverT} (hcmd : v.cmd = (q.drv hi).cmd) (hmv : v.mv = (q.drv hi).mv) :
    q.SameInputs (q.setDrv hi v) := by
  constructor
  · intro b
    rw [PortT.drv_setDrv]
    split
    next h => rw [hcmd, h]
    · rfl
  · intro b
    rw [PortT.drv_setDrv]
    split
    next h => rw [hmv, h]
    · rfl
  all_goals cases hi <;> rfl

/-- What a decision reads besides its port. -/
def gateFields : List Fd :=
  [F.PP_CFG_enable, F.PP_CFG_uvlo, F.PP_STAT_uvlo_hi_live, F.PP_STAT_uvlo_lo_live, F.PP_STAT_interlock_live, F.WM_SW_STAT_held,
    F.WM_SW_STAT_action]

theorem Dev.gateWant_congr {w : Foot} {d e : Dev} (hk : Keeps w d e) (hw : gateFields.all w.avoids = true)
    (hp : Part.pw ∉ w.parts ∧ Part.flt ∉ w.parts ∧ Part.cv ∉ w.parts) {p : Nat} (hport : (d.port p).SameInputs (e.port p)) (b : Bool) :
    e.gateWant p b = d.gateWant p b := by
  simp only [gateFields, List.all_cons, List.all_nil, Bool.and_true, Bool.and_eq_true] at hw
  obtain ⟨henable, huvlo, hhi, hlo, hlock, hheld, haction⟩ := hw
  obtain ⟨hpw, hflt, hcv⟩ := hp
  obtain ⟨hcmd, hmv, -, hlink, hlane, hread, -⟩ := hport
  have hlive : e.flag (uvloLive b) p = d.flag (uvloLive b) p := by
    cases b
    · exact hk.flag F.PP_STAT_uvlo_lo_live p hlo
    · exact hk.flag F.PP_STAT_uvlo_hi_live p hhi
  have hfall : e.uvloFall p = d.uvloFall p := by rw [Dev.uvloFall, Dev.uvloFall, hk.rd _ _ huvlo]
  have hmv' : (e.drv p b).mv = (d.drv p b).mv := hmv b
  have hcmd' : (e.drv p b).cmd = (d.drv p b).cmd := hcmd b
  have hunsup : e.unsupplied p b = d.unsupplied p b := by rw [Dev.unsupplied, Dev.unsupplied, hmv', hfall]
  have hstop : e.stop (portStage p) = d.stop (portStage p) := by rw [Dev.stop, Dev.stop, hk.parts .cv hcv]
  have hpw' : e.pw = d.pw := hk.parts .pw hpw
  have hblocked : e.gateBlocked p b = d.gateBlocked p b := by
    simp only [Dev.gateBlocked, hpw', Dev.fenced_congr (hk.parts .flt hflt), hread, hlink, hlane, hk.flag _ _ henable, hlive, hunsup,
      hk.flag _ _ hlock]
  simp only [Dev.gateWant, hblocked, hstop, hk.flag _ _ hheld, hk.rd _ _ haction, hcmd']

theorem Dev.driveGate_sameInputs (d : Dev) (p : Nat) (hi : Bool) : (d.port p).SameInputs ((d.driveGate p hi).port p) := by
  have hset : ∀ v : DriverT, v.cmd = (d.drv p hi).cmd → v.mv = (d.drv p hi).mv → (d.port p).SameInputs ((d.setDrv p hi v).port p) :=
    fun v hcmd hmv => by
      rw [Dev.port_setDrv]
      exact PortT.sameInputs_setDrv _ hi hcmd hmv
  unfold Dev.driveGate
  dsimp only
  split
  · exact .refl _
  · split
    · exact hset _ (by split <;> rfl) (by split <;> rfl)
    · exact hset _ (by split <;> rfl) (by split <;> rfl)

/-- A gate follows its decision, and the other gate is left. -/
theorem Dev.driveGate_gate (d : Dev) (p : Nat) (hi b : Bool) :
    ((d.driveGate p hi).drv p b).gate = if b = hi then d.gateWant p hi else (d.drv p b).gate := by
  unfold Dev.driveGate
  dsimp only
  split
  next h =>
    split
    next hb => rw [h, hb]
    · rfl
  · split
    · rw [Dev.drv_setDrv, apply_ite DriverT.gate]
    · rw [Dev.drv_setDrv, apply_ite DriverT.gate]

theorem Dev.drivePort_sameInputs (d : Dev) (p : Nat) : (d.port p).SameInputs ((d.drivePort p).port p) :=
  (d.driveGate_sameInputs p true).trans ((d.driveGate p true).driveGate_sameInputs p false)

theorem Dev.drivePort_want (d : Dev) (p : Nat) (b : Bool) : (d.drivePort p).gateWant p b = d.gateWant p b :=
  Dev.gateWant_congr (d.drivePort_keeps p) (by decide) (by decide) (d.drivePort_sameInputs p) b

/-- Both gates follow their decisions. -/
theorem Dev.drivePort_gate (d : Dev) (p : Nat) (b : Bool) : ((d.drivePort p).drv p b).gate = d.gateWant p b := by
  have hfirst : (d.driveGate p true).gateWant p false = d.gateWant p false :=
    Dev.gateWant_congr (d.driveGate_keeps p true) (by decide) (by decide) (d.driveGate_sameInputs p true) false
  rw [Dev.drivePort, Dev.driveGate_gate, hfirst]
  cases b
  · rfl
  · rw [if_neg (by decide), Dev.driveGate_gate, if_pos rfl]

theorem Dev.drivePort_follows (d : Dev) (p : Nat) (b : Bool) : ((d.drivePort p).drv p b).gate = (d.drivePort p).gateWant p b := by
  rw [Dev.drivePort_gate, Dev.drivePort_want]

/-! ### Commands at the input (R72, R73) -/

theorem DriverT.command_cmd (v : DriverT) (on : Bool) (now : Nat) : (v.command on now).cmd = on := by
  unfold DriverT.command
  cases hon : on <;> cases hv : v.cmd <;> simp [hv]

theorem DriverT.command_mv (v : DriverT) (on : Bool) (now : Nat) : (v.command on now).mv = v.mv := by
  unfold DriverT.command
  split
  · rfl
  · split <;> rfl

/-- Both commands at the input of port p. -/
def Dev.commandPort (d : Dev) (p : Nat) (hi lo : Bool) : Dev :=
  (d.setDrv p true ((d.drv p true).command hi d.time)).pipe fun d => d.setDrv p false ((d.drv p false).command lo d.time)

theorem Dev.commandPort_keeps (d : Dev) (p : Nat) (hi lo : Bool) : Keeps ⟨false, [], [.pp]⟩ d (d.commandPort p hi lo) :=
  (Dev.setDrv_keeps ..).trans (Dev.setDrv_keeps ..)

/-- What the port of a command carries: the commands, and the rest as it was. -/
theorem Dev.commandPort_port (d : Dev) (p : Nat) (hi lo : Bool) : let q := d.port p; let r := (d.commandPort p hi lo).port p
    (r.drv true).cmd = hi ∧ (r.drv false).cmd = lo ∧ (∀ b, (r.drv b).mv = (q.drv b).mv) ∧ r.flight = q.flight ∧ r.linkDown = q.linkDown ∧
      r.laneDown = q.laneDown ∧ r.readmitted = q.readmitted ∧ r.pump = q.pump := by
  set e := d.setDrv p true ((d.drv p true).command hi d.time) with he
  have hport : (d.commandPort p hi lo).port p = ((d.port p).setDrv true ((d.drv p true).command hi d.time)).setDrv false
      ((e.drv p false).command lo e.time) := by
    rw [← Dev.port_setDrv d p true, ← he]
    exact Dev.port_setDrv ..
  have hlo : e.drv p false = d.drv p false := by rw [he, Dev.drv_setDrv, if_neg (by decide)]
  dsimp only
  rw [hport, hlo]
  refine ⟨DriverT.command_cmd .., DriverT.command_cmd .., fun b => ?_, rfl, rfl, rfl, rfl, rfl⟩
  cases b
  · exact DriverT.command_mv ..
  · exact DriverT.command_mv ..

theorem Dev.driverInput_eq (d : Dev) (p : Nat) (hi lo : Bool) (hiMv loMv : Nat) : d.driverInput p hi lo hiMv loMv =
    (((((d.endLockout p true hi hiMv).endLockout p false lo loMv).interlock p hi lo).commandPort p hi lo).drivePort p) := rfl

/-- The input as a command finds it: lockouts ended, an interlock noted. -/
def Dev.readyInput (d : Dev) (p : Nat) (hi lo : Bool) (hiMv loMv : Nat) : Dev :=
  ((d.endLockout p true hi hiMv).endLockout p false lo loMv).interlock p hi lo

theorem Dev.readyInput_keeps (d : Dev) (p : Nat) (hi lo : Bool) (hiMv loMv : Nat) :
    Keeps ⟨false, [F.PP_STAT_uvlo_hi_live, F.PP_STAT_uvlo_lo_live, F.PP_STAT_interlock_live, F.PP_STAT_interlock, F.PP_CNT_interlock,
      F.FLT_STAT_lost, F.FLT_LOST], [.flt]⟩ d (d.readyInput p hi lo hiMv loMv) :=
  (((Dev.endLockout_keeps ..).within (by decide)).trans ((Dev.endLockout_keeps ..).within (by decide))).trans ((Dev.interlock_keeps ..).within (by decide))

/-- What port p shows once a command has come in. -/
theorem Dev.driverInput_shows (d : Dev) (p : Nat) (hi lo : Bool) (hiMv loMv : Nat) : let n := d.driverInput p hi lo hiMv loMv
    (n.drv p true).cmd = hi ∧ (n.drv p false).cmd = lo ∧ (∀ b, (n.drv p b).mv = (d.drv p b).mv) ∧ (n.port p).flight = (d.port p).flight ∧
      (n.port p).linkDown = (d.port p).linkDown ∧ (n.port p).laneDown = (d.port p).laneDown ∧ (n.port p).readmitted = (d.port p).readmitted ∧
      (n.port p).pump = (d.port p).pump ∧ ∀ b, (n.drv p b).gate = n.gateWant p b := by
  have hready : (d.readyInput p hi lo hiMv loMv).port p = d.port p := (d.readyInput_keeps p hi lo hiMv loMv).port (by decide) p
  obtain ⟨h1, h2, h3, h4, h5, h6, h7, h8⟩ := (d.readyInput p hi lo hiMv loMv).commandPort_port p hi lo
  rw [hready] at h3 h4 h5 h6 h7 h8
  obtain ⟨k1, k2, k3, k4, k5, k6, k7⟩ := ((d.readyInput p hi lo hiMv loMv).commandPort p hi lo).drivePort_sameInputs p
  exact ⟨(k1 true).trans h1, (k1 false).trans h2, fun b => (k2 b).trans (h3 b), k3.trans h4, k4.trans h5, k5.trans h6, k6.trans h7, k7.trans h8,
    Dev.drivePort_follows _ p⟩

end Sys2Proof.Machine
end

section
/-! Gate monitor and pod links (R74, R75); obligation O6. -/

namespace Sys2Proof.Machine

/-! ### The gate monitor (R74) -/

/-- A sensed gate that disagrees is flagged and counted. -/
theorem Dev.monitorGate_flags {d : Dev} {p : Nat} {hi : Bool} {mv : Int} (h : gateLevel p mv ≠ some (d.drv p hi).gate) :
    (d.monitorGate p hi mv).flag F.PP_STAT_gate_mismatch p = true ∧
      (d.monitorGate p hi mv).rd F.PP_CNT_mismatch p = min (d.rd F.PP_CNT_mismatch p + 1) 255 := by
  set e := d.put (gateSensed hi) p (gateLevel p mv == some true) with he
  have hsensed : Keeps ⟨false, [F.PP_STAT_gate_hi, F.PP_STAT_gate_lo], []⟩ d e := by
    cases hi
    · exact (Dev.put_keeps d F.PP_STAT_gate_lo p _ (by decide)).within (by decide)
    · exact (Dev.put_keeps d F.PP_STAT_gate_hi p _ (by decide)).within (by decide)
  have hgo : d.monitorGate p hi mv =
      ((e.put F.PP_STAT_gate_mismatch p true).bump F.PP_CNT_mismatch p).reportOpen Kind.port p Cls.report Code.GATE_MISMATCH := by
    have hgate : gateLevel p mv ≠ some (e.drv p hi).gate := by rwa [hsensed.drv (by decide)]
    unfold Dev.monitorGate
    dsimp only
    rw [← he, if_neg hgate]
  have hrep := ((e.put F.PP_STAT_gate_mismatch p true).bump F.PP_CNT_mismatch p).reportOpen_keeps Kind.port p Cls.report Code.GATE_MISMATCH
  have hput : Keeps ⟨false, [F.PP_STAT_gate_mismatch], []⟩ e (e.put F.PP_STAT_gate_mismatch p true) := Dev.put_keeps _ _ _ _ (by decide)
  rw [hgo, hrep.flag F.PP_STAT_gate_mismatch p (by decide), hrep.rd F.PP_CNT_mismatch p (by decide), Dev.rd_bump _ _ _ (by decide),
    hput.rd F.PP_CNT_mismatch p (by decide), hsensed.rd F.PP_CNT_mismatch p (by decide),
    Dev.bump_flag_apart _ F.PP_STAT_gate_mismatch F.PP_CNT_mismatch _ _ (by decide) (by decide)]
  exact ⟨Dev.flag_put _ F.PP_STAT_gate_mismatch _ _ (by decide) rfl, rfl⟩

theorem Dev.monitorGate_drv (d : Dev) (p : Nat) (hi : Bool) (mv : Int) (b : Bool) : (d.monitorGate p hi mv).drv p b = d.drv p b :=
  (d.monitorGate_keeps p hi mv).drv (by decide) p b

/-- The monitor's check after an edge. -/
theorem Dev.checkedGate_shows (d : Dev) (p : Nat) (hi : Bool) (mv : Int) : let n := (d.setEdge p hi { d.edge p hi with checked := true }).monitorGate p hi mv
    (n.edge p hi).checked = true ∧ (n.drv p hi).gate = (d.drv p hi).gate ∧ (gateLevel p mv ≠ some (d.drv p hi).gate →
      n.flag F.PP_STAT_gate_mismatch p = true ∧ n.rd F.PP_CNT_mismatch p = min (d.rd F.PP_CNT_mismatch p + 1) 255) := by
  set e := d.setEdge p hi { d.edge p hi with checked := true } with he
  have hk : Keeps ⟨false, [], [.pp]⟩ d e := Dev.setEdge_keeps ..
  have hgate : (e.drv p hi).gate = (d.drv p hi).gate := by rw [he, Dev.setEdge, Dev.drv_setDrv_same]
  dsimp only
  rw [Dev.edge, Dev.monitorGate_drv, hgate, ← hk.rd F.PP_CNT_mismatch p (by decide)]
  refine ⟨?_, rfl, fun h => Dev.monitorGate_flags (by rwa [hgate])⟩
  rw [he, Dev.setEdge, Dev.drv_setDrv_same]

/-! ### Links (R75) -/

theorem Dev.gateWant_of_link {d : Dev} {p : Nat} (hheavy : heavyPort p = true) (hdown : ((d.port p).linkDown || (d.port p).laneDown) = true)
    (b : Bool) : d.gateWant p b = false := by
  have hblocked : d.gateBlocked p b = true := by
    unfold Dev.gateBlocked
    dsimp only
    rw [hheavy, hdown, Bool.true_and, Bool.or_true]
  unfold Dev.gateWant
  dsimp only
  rw [if_pos hblocked]

/-- A link that is down, marked and reported. -/
def Dev.markLink (d : Dev) (p : Nat) (lane : Bool) : Dev :=
  (((d.setPort p (if lane then { d.port p with laneDown := true } else { d.port p with linkDown := true })).put F.PP_STAT_link_down p true).put
    F.PP_STAT_link_live p true).reportOpen Kind.port p Cls.report Code.LINK_DOWN

theorem Dev.markLink_port (d : Dev) (p : Nat) (lane : Bool) :
    (d.markLink p lane).port p = if lane then { d.port p with laneDown := true } else { d.port p with linkDown := true } := by
  rw [Dev.markLink, (Dev.reportOpen_keeps ..).port (by decide)]
  exact d.port_setPort_self p _

theorem Dev.markLink_flags (d : Dev) (p : Nat) (lane : Bool) :
    (d.markLink p lane).flag F.PP_STAT_link_down p = true ∧ (d.markLink p lane).flag F.PP_STAT_link_live p = true := by
  rw [Dev.markLink, (Dev.reportOpen_keeps ..).flag F.PP_STAT_link_down p (by decide), (Dev.reportOpen_keeps ..).flag F.PP_STAT_link_live p (by decide),
    Dev.flag_put_apart _ F.PP_STAT_link_down F.PP_STAT_link_live _ _ _ (by decide) (by decide)]
  exact ⟨Dev.flag_put _ F.PP_STAT_link_down _ _ (by decide) rfl, Dev.flag_put _ F.PP_STAT_link_live _ _ (by decide) rfl⟩

theorem Dev.linkLost_of_up {d : Dev} {p : Nat} {lane : Bool} (hheavy : heavyPort p = true)
    (hup : (if lane then (d.port p).laneDown else (d.port p).linkDown) = false) :
    d.linkLost p lane = if lane then (d.markLink p lane).drivePort p else (d.markLink p lane).inputOff p := by
  unfold Dev.linkLost
  dsimp only
  rw [hheavy, hup, if_neg (by decide)]
  rfl

theorem Dev.inputOff_eq (d : Dev) (p : Nat) : d.inputOff p = (d.commandPort p false false).drivePort p := rfl

/-- A pod whose command link is lost. -/
theorem Dev.linkLost_shows {d : Dev} {p : Nat} (hheavy : heavyPort p = true) (hup : (d.port p).linkDown = false) : let n := d.linkLost p false
    (n.port p).linkDown = true ∧ n.flag F.PP_STAT_link_down p = true ∧ n.flag F.PP_STAT_link_live p = true ∧ (n.drv p true).gate = false ∧
      (n.drv p false).gate = false := by
  have hmark := d.markLink_port p false
  obtain ⟨hdown, hlive⟩ := d.markLink_flags p false
  have hoff := (d.markLink p false).inputOff_keeps p
  obtain ⟨-, -, -, -, hlink, -⟩ := (d.markLink p false).commandPort_port p false false
  have hlink' : (((d.markLink p false).commandPort p false false).port p).linkDown = true := hlink.trans (by rw [hmark]; rfl)
  have hgate : ∀ b, (((d.markLink p false).inputOff p).drv p b).gate = false := fun b => by
    rw [Dev.inputOff_eq, Dev.drivePort_gate]
    exact Dev.gateWant_of_link hheavy (by rw [hlink', Bool.true_or]) b
  dsimp only
  rw [Dev.linkLost_of_up (lane := false) hheavy hup, if_neg (by decide), hoff.flag F.PP_STAT_link_down p (by decide), hoff.flag F.PP_STAT_link_live p (by decide)]
  exact ⟨((Dev.drivePort_sameInputs _ p).linkDown).trans hlink', hdown, hlive, hgate true, hgate false⟩

/-- A pod whose trip lane is lost. -/
theorem Dev.laneLost_shows {d : Dev} {p : Nat} (hheavy : heavyPort p = true) (hup : (d.port p).laneDown = false) : let n := d.linkLost p true
    (n.port p).laneDown = true ∧ n.flag F.PP_STAT_link_down p = true ∧ n.flag F.PP_STAT_link_live p = true ∧ (n.drv p true).gate = false ∧
      (n.drv p false).gate = false := by
  have hmark := d.markLink_port p true
  obtain ⟨hdown, hlive⟩ := d.markLink_flags p true
  have hoff := (d.markLink p true).drivePort_keeps p
  have hlane : ((d.markLink p true).port p).laneDown = true := by rw [hmark]; rfl
  have hgate : ∀ b, (((d.markLink p true).drivePort p).drv p b).gate = false := fun b => by
    rw [Dev.drivePort_gate]
    exact Dev.gateWant_of_link hheavy (by rw [hlane, Bool.or_true]) b
  dsimp only
  rw [Dev.linkLost_of_up (lane := true) hheavy hup, if_pos rfl, hoff.flag F.PP_STAT_link_down p (by decide), hoff.flag F.PP_STAT_link_live p (by decide)]
  exact ⟨((Dev.drivePort_sameInputs _ p).laneDown).trans hlane, hdown, hlive, hgate true, hgate false⟩

/-- A pod whose command link resumes. -/
theorem Dev.linkBack_shows {d : Dev} {p : Nat} (hdown : (d.port p).linkDown = true) (hiMv loMv : Nat) : let n := d.linkBack p false hiMv loMv
    (n.port p).linkDown = false ∧ (n.drv p true).cmd = d.flag F.PG_STAT_out_high p ∧ (n.drv p false).cmd = d.flag F.PG_STAT_out_low p ∧
      n.flag F.PP_STAT_link_live p = (d.port p).laneDown := by
  set e := (d.setPort p { d.port p with linkDown := false, flight := [] }).put F.PP_STAT_link_live p (d.port p).laneDown with he
  have hk : Keeps ⟨false, [F.PP_STAT_link_live], [.pp]⟩ d e := ((Dev.setPort_keeps ..).within (by decide)).trans ((Dev.put_keeps _ F.PP_STAT_link_live _ _ (by decide)).within (by decide))
  have hgo : d.linkBack p false hiMv loMv = e.driverInput p (d.flag F.PG_STAT_out_high p) (d.flag F.PG_STAT_out_low p) hiMv loMv := by
    have hlive : ({ d.port p with linkDown := false, flight := [] } : PortT).down = (d.port p).laneDown := Bool.false_or _
    rw [← hk.flag F.PG_STAT_out_high p (by decide), ← hk.flag F.PG_STAT_out_low p (by decide), he, ← hlive]
    unfold Dev.linkBack
    dsimp only
    rw [if_neg (by rw [if_neg (by decide), hdown]; decide), if_neg (by decide), if_neg (by decide)]
  obtain ⟨h1, h2, -, -, h5, -⟩ := e.driverInput_shows p (d.flag F.PG_STAT_out_high p) (d.flag F.PG_STAT_out_low p) hiMv loMv
  have hport : e.port p = { d.port p with linkDown := false, flight := [] } := by rw [he]; exact d.port_setPort_self p _
  dsimp only
  rw [hgo, h1, h2, h5, hport, (Dev.driverInput_keeps ..).flag F.PP_STAT_link_live p (by decide)]
  exact ⟨rfl, rfl, rfl, Dev.flag_put _ F.PP_STAT_link_live _ _ (by decide) rfl⟩

/-- A pod whose trip lane resumes. -/
theorem Dev.laneBack_shows {d : Dev} {p : Nat} (hdown : (d.port p).laneDown = true) (hiMv loMv : Nat) : let n := d.linkBack p true hiMv loMv
    (n.port p).laneDown = false ∧ (n.drv p true).gate = n.gateWant p true ∧ (n.drv p false).gate = n.gateWant p false ∧
      n.flag F.PP_STAT_link_live p = (d.port p).linkDown := by
  set e := (d.setPort p { d.port p with laneDown := false }).put F.PP_STAT_link_live p (d.port p).linkDown with he
  have hgo : d.linkBack p true hiMv loMv = e.drivePort p := by
    have hlive : ({ d.port p with laneDown := false } : PortT).down = (d.port p).linkDown := Bool.or_false _
    rw [he, ← hlive]
    unfold Dev.linkBack
    dsimp only
    rw [if_neg (by rw [if_pos rfl, hdown]; decide), if_pos rfl, if_pos rfl]
  have hport : e.port p = { d.port p with laneDown := false } := by rw [he]; exact d.port_setPort_self p _
  dsimp only
  rw [hgo, (Dev.drivePort_keeps ..).flag F.PP_STAT_link_live p (by decide), (e.drivePort_sameInputs p).laneDown, hport]
  exact ⟨rfl, e.drivePort_follows p true, e.drivePort_follows p false, Dev.flag_put _ F.PP_STAT_link_live _ _ (by decide) rfl⟩

/-! ### The obligation -/

/-- Settles O6: the monitor flags and counts, links that are lost turn both gates off, links that resume follow the present commands. -/
theorem monitorsAndLinks : Obligations.MonitorsAndLinks := by
  unfold Obligations.MonitorsAndLinks
  intro s t p d
  refine ⟨?check, ?mismatch, ?down, ?lane, ?resume, ?laneResume⟩
  case check =>
    intro hi mv hen hunchecked hdue
    refine Does.of_effect (show exec _ s = execGateMonitorCheck t p hi mv s from rfl) ?_
    have hble : Nat.ble ((d.edge p hi).startedAt + 2 * d.rd F.PP_MON_window p) d.time = true := Nat.ble_eq.mpr hdue
    rw [if_pos (by rw [show s.now t = d from rfl, hen, hunchecked, hble]; rfl)]
    exact d.checkedGate_shows p hi mv
  case mismatch =>
    intro hi mv hen hidle hquiet hlevel
    refine Does.of_effect (show exec _ s = execGateMismatch t p hi mv s from rfl) ?_
    obtain ⟨h1, h2⟩ := Dev.monitorGate_flags hlevel
    rw [if_pos (by rw [show s.now t = d from rfl, hen, hidle, hquiet]; rfl), Dev.monitorGate_drv]
    exact ⟨h1, rfl, h2⟩
  case down =>
    intro hheavy hup
    refine Does.of_effect (show exec _ s = execLinkDown t p s from rfl) ?_
    exact Dev.linkLost_shows hheavy hup
  case lane =>
    intro hheavy hup
    refine Does.of_effect (show exec _ s = execTripLaneDown t p s from rfl) ?_
    exact Dev.laneLost_shows hheavy hup
  case resume =>
    intro hiMv loMv hdown
    refine Does.of_effect (show exec _ s = execLinkResume t p false hiMv loMv s from rfl) ?_
    exact Dev.linkBack_shows hdown hiMv loMv
  case laneResume =>
    intro hiMv loMv hdown
    refine Does.of_effect (show exec _ s = execLinkResume t p true hiMv loMv s from rfl) ?_
    exact Dev.laneBack_shows hdown hiMv loMv

end Sys2Proof.Machine
end

section
/-! Edges of a gate and their segments (R62 to R70); obligation O5. -/

namespace Sys2Proof.Machine

theorem Dev.gateDrive_of_active {d : Dev} {p : Nat} {hi : Bool} (hmv : (d.drv p hi).mv ≠ 0) (hheld : d.pw.held = false)
    (hactive : (d.edge p hi).active = true) : d.gateDrive p hi = if (d.edge p hi).on then .source (d.segCurrent p (d.edge p hi).seg true)
      else .sink (d.segCurrent p (d.edge p hi).seg false) := by
  unfold Dev.edge at hactive ⊢
  unfold Dev.gateDrive
  dsimp only
  rw [if_neg (by simp [hmv, hheld]), if_pos hactive]

theorem Dev.gateDrive_of_held {d : Dev} {p : Nat} {hi : Bool} (hmv : (d.drv p hi).mv ≠ 0) (hheld : d.pw.held = false)
    (hactive : (d.edge p hi).active = false) (hwas : (d.edge p hi).was = none) :
    d.gateDrive p hi = .hold (d.levelMv p hi (d.drv p hi).held) := by
  unfold Dev.edge at hactive hwas
  unfold Dev.gateDrive
  dsimp only
  rw [if_neg (by simp [hmv, hheld]), hactive, if_neg (by decide), hwas]

/-- The first segment's current of a heavy port. -/
theorem Dev.segCurrent_first {d : Dev} {p : Nat} (hheavy : heavyPort p = true) (on : Bool) :
    d.segCurrent p 1 on = 3 * if on then d.rd F.PP_ON_SEG_i1 p else d.rd F.PP_OFF_SEG_i1 p := by
  unfold Dev.segCurrent
  dsimp only
  rw [if_pos hheavy, if_pos rfl]

/-! ### The start of an edge (R69) -/

/-- A driver whose requested edge starts now. -/
def DriverT.startEdge (v : DriverT) (now : Nat) : DriverT :=
  let e : Edge := { on := v.edge.on, active := true, seg := 1, since := now, startedAt := now, checked := false }
  { v with settled := !v.edge.on && v.settled, edge := e }

/-- An edge whose current starts now. -/
def Dev.startEdge (d : Dev) (p : Nat) (hi : Bool) : Dev := d.setDrv p hi ((d.drv p hi).startEdge d.time)

theorem Dev.startEdge_shows (d : Dev) (p : Nat) (hi : Bool) : let n := d.startEdge p hi
    (n.edge p hi).active = true ∧ (n.edge p hi).seg = 1 ∧ (n.edge p hi).on = (d.edge p hi).on ∧ (n.edge p hi).startedAt = d.time ∧
      ((d.edge p hi).on = true → n.clamped p hi = false) ∧
      (heavyPort p = true → (d.drv p hi).mv ≠ 0 → d.pw.held = false → n.gateDrive p hi =
        if (d.edge p hi).on then .source (3 * d.rd F.PP_ON_SEG_i1 p) else .sink (3 * d.rd F.PP_OFF_SEG_i1 p)) := by
  have hk : Keeps ⟨false, [], [.pp]⟩ d (d.startEdge p hi) := Dev.setDrv_keeps ..
  have hdrv : (d.startEdge p hi).drv p hi = (d.drv p hi).startEdge d.time := Dev.drv_setDrv_same ..
  have hedge : (d.startEdge p hi).edge p hi = ((d.drv p hi).startEdge d.time).edge := congrArg DriverT.edge hdrv
  have hpw : (d.startEdge p hi).pw = d.pw := hk.parts .pw (by decide)
  dsimp only
  rw [hedge]
  refine ⟨rfl, rfl, rfl, rfl, fun hon => ?_, fun hheavy hmv hheld => ?_⟩
  · have hsettled : ((d.drv p hi).startEdge d.time).settled = (!(d.edge p hi).on && (d.drv p hi).settled) := rfl
    rw [Dev.clamped, hdrv, hsettled, hon]
    rfl
  · rw [Dev.gateDrive_of_active (by rw [hdrv]; exact hmv) (by rw [hpw]; exact hheld) (by rw [hedge]; rfl), hedge]
    show (if (d.edge p hi).on then GateDrive.source ((d.startEdge p hi).segCurrent p 1 true)
      else GateDrive.sink ((d.startEdge p hi).segCurrent p 1 false)) = _
    rw [Dev.segCurrent_first hheavy, Dev.segCurrent_first hheavy, hk.rd F.PP_ON_SEG_i1 p (by decide), hk.rd F.PP_OFF_SEG_i1 p (by decide)]
    rfl

/-! ### Segments (R67) -/

theorem Dev.detects_of {d : Dev} {p seg : Nat} {e : Edge} (hheavy : heavyPort p = true) (hactive : e.active = true) (hseg : e.seg = seg)
    (hauto : d.autoDetect p e.on = true) : d.detects p e seg = true := by
  rw [Dev.detects, hheavy, hactive, hseg, hauto, BEq.rfl]
  rfl

theorem Edge.advance_of_first {e : Edge} (h : e.seg = 1) (now : Nat) : e.advance now = { e with seg := 2, d1 := now - e.since, since := now } :=
  if_pos h

theorem Edge.advance_of_second {e : Edge} (h : e.seg = 2) (now : Nat) : e.advance now = { e with seg := 3, d2 := now - e.since, since := now } :=
  if_neg (by omega)

theorem Edge.advance_seg {e : Edge} (h : e.seg = 1 ∨ e.seg = 2) (now : Nat) : (e.advance now).seg = e.seg + 1 ∧ (e.advance now).since = now := by
  rcases h with h | h
  · rw [Edge.advance_of_first h, h]
    exact ⟨rfl, rfl⟩
  · rw [Edge.advance_of_second h, h]
    exact ⟨rfl, rfl⟩

/-- A segment that reaches its limit. -/
theorem Dev.segEnd_shows {d : Dev} {p : Nat} {hi : Bool} (hheavy : heavyPort p = true) (hactive : (d.edge p hi).active = true)
    (hseg : (d.edge p hi).seg = 1 ∨ (d.edge p hi).seg = 2) (hdue : (d.edge p hi).since + d.segLimit p (d.edge p hi).seg (d.edge p hi).on ≤ d.time) :
    let n := d.segEnd p hi
    (n.edge p hi).seg = (d.edge p hi).seg + 1 ∧ (n.edge p hi).since = d.time ∧
      (d.autoDetect p (d.edge p hi).on = true → n.flag F.PP_STAT_seg_timeout p = true ∧ (n.edge p hi).timeout = true) := by
  set auto := d.autoDetect p (d.edge p hi).on with hauto
  set e := if auto then (d.put F.PP_STAT_seg_timeout p true).reportOpen Kind.port p Cls.report Code.SEG_TIMEOUT else d with he
  have hk : Keeps ⟨false, [F.PP_STAT_seg_timeout, F.FLT_STAT_lost, F.FLT_LOST], [.flt]⟩ d e :=
    .ite (fun _ => ((Dev.put_keeps _ F.PP_STAT_seg_timeout _ _ (by decide)).within (by decide)).trans ((Dev.reportOpen_keeps ..).within (by decide))) fun _ => .refl ..
  have hgo : d.segEnd p hi = e.setEdge p hi { (d.edge p hi).advance e.time with timeout := (d.edge p hi).timeout || auto } := by
    have hcond : (heavyPort p && (d.edge p hi).active && ((d.edge p hi).seg == 1 || (d.edge p hi).seg == 2) &&
        Nat.ble ((d.edge p hi).since + d.segLimit p (d.edge p hi).seg (d.edge p hi).on) d.time) = true := by
      rw [hheavy, hactive, Nat.ble_eq.mpr hdue]
      simpa using hseg
    unfold Dev.segEnd
    dsimp only
    rw [if_pos hcond]
  obtain ⟨hadv, hsince⟩ := Edge.advance_seg hseg e.time
  dsimp only
  rw [hgo, Dev.edge_setEdge]
  refine ⟨hadv, hsince.trans hk.time, fun h => ⟨?_, ?_⟩⟩
  · rw [(Dev.setEdge_keeps ..).flag F.PP_STAT_seg_timeout p (by decide), he, if_pos h, (Dev.reportOpen_keeps ..).flag F.PP_STAT_seg_timeout p (by decide)]
    exact Dev.flag_put _ F.PP_STAT_seg_timeout _ _ (by decide) rfl
  · dsimp only
    rw [h, Bool.or_true]

/-! ### The end of an edge (R67, R68, R70) -/

/-- The word that records an edge. -/
def edgeWord (p : Nat) (hi : Bool) (e : Edge) (last : Nat) : Nat :=
  (if heavyPort p then min 255 (e.d1 / 2) + 256 * min 1023 (e.d2 / 2) + 2 ^ 18 * min 255 last + 2 ^ 26 * b2n e.timeout
    else min 255 last) + 2 ^ 27 * b2n hi

theorem Dev.recordEdge_eq (d : Dev) (p : Nat) (hi : Bool) (e : Edge) : d.recordEdge p hi e =
    d.wr (if e.on then F.PP_EDGE_ON else F.PP_EDGE_OFF) p (edgeWord p hi e ((d.time - e.since) / 2)) := by
  unfold Dev.recordEdge edgeWord
  dsimp only
  cases heavyPort p <;> cases e.on <;> rfl

theorem Dev.recordEdge_on {d : Dev} {p : Nat} {e : Edge} (hheavy : heavyPort p = true) (hon : e.on = true) (hi : Bool) :
    (d.recordEdge p hi e).rd F.PP_EDGE_ON_seg1 p = min 255 (e.d1 / 2) ∧ (d.recordEdge p hi e).rd F.PP_EDGE_ON_seg2 p = min 1023 (e.d2 / 2) ∧
      (d.recordEdge p hi e).rd F.PP_EDGE_ON_seg3 p = min 255 ((d.time - e.since) / 2) := by
  rw [Dev.recordEdge_eq, if_pos hon, Dev.rd_wr_whole (f := F.PP_EDGE_ON_seg1) (g := F.PP_EDGE_ON) _ _ rfl rfl rfl (by decide),
    Dev.rd_wr_whole (f := F.PP_EDGE_ON_seg2) (g := F.PP_EDGE_ON) _ _ rfl rfl rfl (by decide),
    Dev.rd_wr_whole (f := F.PP_EDGE_ON_seg3) (g := F.PP_EDGE_ON) _ _ rfl rfl rfl (by decide)]
  simp only [edgeWord, hheavy, if_true, F.PP_EDGE_ON_seg1, F.PP_EDGE_ON_seg2, F.PP_EDGE_ON_seg3]
  omega

theorem Dev.recordEdge_off {d : Dev} {p : Nat} {e : Edge} (hheavy : heavyPort p = true) (hoff : e.on = false) (hi : Bool) :
    (d.recordEdge p hi e).rd F.PP_EDGE_OFF_seg1 p = min 255 (e.d1 / 2) := by
  rw [Dev.recordEdge_eq, hoff, if_neg (by decide), Dev.rd_wr_whole (f := F.PP_EDGE_OFF_seg1) (g := F.PP_EDGE_OFF) _ _ rfl rfl rfl (by decide)]
  simp only [edgeWord, hheavy, if_true, F.PP_EDGE_OFF_seg1]
  omega

/-- A driver whose edge is over. -/
def DriverT.endEdge (v : DriverT) : DriverT :=
  { v with settled := !v.edge.on, held := v.edge.on, edge := { v.edge with active := false, requested := false } }

/-- The port once an edge is over. -/
def Dev.endEdge (d : Dev) (p : Nat) (hi : Bool) : Dev :=
  ((d.recordEdge p hi (d.edge p hi)).put (gateSensed hi) p (d.edge p hi).on).setDrv p hi (d.drv p hi).endEdge

/-- What the record of an edge writes. -/
def edgeFoot : Foot := ⟨false, [F.PP_STAT_gate_hi, F.PP_STAT_gate_lo, F.PP_EDGE_ON, F.PP_EDGE_OFF], []⟩

theorem Dev.putSensed_keeps (d : Dev) (p : Nat) (hi b : Bool) :
    Keeps ⟨false, [F.PP_STAT_gate_hi, F.PP_STAT_gate_lo], []⟩ d (d.put (gateSensed hi) p b) := by
  cases hi
  · exact (Dev.put_keeps d F.PP_STAT_gate_lo p _ (by decide)).within (by decide)
  · exact (Dev.put_keeps d F.PP_STAT_gate_hi p _ (by decide)).within (by decide)

theorem Dev.edgeDone_of_level {d : Dev} {p : Nat} {hi : Bool} {mv : Int} (hactive : (d.edge p hi).active = true)
    (hseg : (d.edge p hi).seg = if heavyPort p then 3 else 1) (hnear : (mv - d.levelMv p hi (d.edge p hi).on).natAbs ≤ 500) :
    d.edgeDone p hi mv = d.endEdge p hi := by
  have hk : Keeps edgeFoot d ((d.recordEdge p hi (d.edge p hi)).put (gateSensed hi) p (d.edge p hi).on) :=
    ((Dev.recordEdge_keeps ..).within (by decide)).trans ((Dev.putSensed_keeps ..).within (by decide))
  unfold Dev.edgeDone Dev.endEdge
  dsimp only
  rw [if_pos (by rw [hactive, hseg, Nat.ble_eq.mpr hnear]; simp), hk.drv (by decide)]
  rfl

theorem Dev.endEdge_keeps (d : Dev) (p : Nat) (hi : Bool) :
    Keeps ⟨false, [F.PP_STAT_gate_hi, F.PP_STAT_gate_lo, F.PP_EDGE_ON, F.PP_EDGE_OFF], [.pp]⟩ d (d.endEdge p hi) :=
  (((Dev.recordEdge_keeps ..).within (by decide)).trans ((Dev.putSensed_keeps ..).within (by decide))).trans ((Dev.setDrv_keeps ..).within (by decide))

theorem Dev.endEdge_drv (d : Dev) (p : Nat) (hi : Bool) : (d.endEdge p hi).drv p hi = (d.drv p hi).endEdge := Dev.drv_setDrv_same ..

theorem Dev.endEdge_sensed (d : Dev) (p : Nat) (hi : Bool) : (d.endEdge p hi).flag (gateSensed hi) p = (d.edge p hi).on := by
  rw [Dev.endEdge, Dev.setDrv, Dev.flag_setPort]
  cases hi
  · exact Dev.flag_put _ F.PP_STAT_gate_lo _ _ (by decide) rfl
  · exact Dev.flag_put _ F.PP_STAT_gate_hi _ _ (by decide) rfl

/-- The registers of an edge's record once it is over. -/
theorem Dev.endEdge_record (d : Dev) (p : Nat) (hi : Bool) (f : Fd) (hf : Foot.avoids ⟨false, [F.PP_STAT_gate_hi, F.PP_STAT_gate_lo], [.pp]⟩ f = true) :
    (d.endEdge p hi).rd f p = (d.recordEdge p hi (d.edge p hi)).rd f p :=
  (((Dev.putSensed_keeps ..).within (by decide)).trans ((Dev.setDrv_keeps ..).within (by decide)) : Keeps ⟨false, [F.PP_STAT_gate_hi, F.PP_STAT_gate_lo], [.pp]⟩
    (d.recordEdge p hi (d.edge p hi)) (d.endEdge p hi)).rd f p hf

/-- Where a gate of a heavy port is held, its supply being high enough for both rails (R62, R63). -/
theorem Dev.levelMv_of_supplied {d : Dev} {p : Nat} {hi : Bool} (hheavy : heavyPort p = true)
    (hsupply : 14000 + 1000 * (d.rd F.PP_CFG_von p : Int) - d.voffMv p + 500 ≤ (d.drv p hi).mv) (on : Bool) :
    d.levelMv p hi on = if on then 14000 + 1000 * (d.rd F.PP_CFG_von p : Int) else d.voffMv p := by
  unfold Dev.levelMv
  dsimp only
  rw [if_pos hheavy]
  cases on
  · rfl
  · rw [if_neg (by decide), if_neg (by unfold Dev.vonMv; omega)]
    rfl

theorem Dev.voffMv_nonpos (d : Dev) (p : Nat) : d.voffMv p ≤ 0 := by
  unfold Dev.voffMv
  dsimp only
  split
  · decide
  · split
    · decide
    · split <;> decide

theorem Dev.endEdge_holds {d : Dev} {p : Nat} {hi : Bool} (hheavy : heavyPort p = true) (hwas : (d.edge p hi).was = none) (hheld : d.pw.held = false)
    (hsupply : 14000 + 1000 * (d.rd F.PP_CFG_von p : Int) - d.voffMv p + 500 ≤ (d.drv p hi).mv) : (d.endEdge p hi).gateDrive p hi =
      .hold (if (d.edge p hi).on then 14000 + 1000 * (d.rd F.PP_CFG_von p : Int) else d.voffMv p) := by
  have hk := d.endEdge_keeps p hi
  have hdrv := d.endEdge_drv p hi
  have hvoff : (d.endEdge p hi).voffMv p = d.voffMv p := by rw [Dev.voffMv, Dev.voffMv, hk.rd F.PP_CFG_voff p (by decide)]
  have hvon : (d.endEdge p hi).rd F.PP_CFG_von p = d.rd F.PP_CFG_von p := hk.rd F.PP_CFG_von p (by decide)
  have hmv : ((d.endEdge p hi).drv p hi).mv = (d.drv p hi).mv := by
    rw [hdrv]
    rfl
  have hpw : (d.endEdge p hi).pw = d.pw := hk.parts .pw (by decide)
  have hnonpos := d.voffMv_nonpos p
  have hsupply' : 14000 + 1000 * ((d.endEdge p hi).rd F.PP_CFG_von p : Int) - (d.endEdge p hi).voffMv p + 500 ≤ ((d.endEdge p hi).drv p hi).mv := by
    rw [hvon, hvoff, hmv]
    exact hsupply
  rw [Dev.gateDrive_of_held (by rw [hmv]; omega) (by rw [hpw]; exact hheld) (by rw [Dev.edge, hdrv]; rfl) (by rw [Dev.edge, hdrv]; exact hwas),
    Dev.levelMv_of_supplied hheavy hsupply', hvon, hvoff, hdrv]
  rfl

/-! ### The obligation -/

/-- Settles O5: an edge starts, goes through its segments and is recorded at its end. -/
theorem edgesInSegments : Obligations.EdgesInSegments := by
  unfold Obligations.EdgesInSegments
  intro s t p hi d e
  refine ⟨?start, ?plateau, ?limit, ?complete⟩
  case start =>
    intro hreq hdue
    refine Does.of_effect (show exec _ s = execGateEdgeStart t p hi s from rfl) ?_
    have hble : Nat.ble ((d.drv p hi).edge.since + (if heavyPort p then 16 else 12)) d.time = true := Nat.ble_eq.mpr hdue
    have hgo : (if (d.drv p hi).edge.requested && Nat.ble ((d.drv p hi).edge.since + (if heavyPort p then 16 else 12)) d.time then
        d.startEdge p hi else d) = d.startEdge p hi := if_pos (by rw [hble, Bool.and_true]; exact hreq)
    have hshow := d.startEdge_shows p hi
    rw [← hgo] at hshow
    exact hshow
  case plateau =>
    intro hheavy hactive hauto
    refine ⟨fun first slope mv hseg hlate hlow => ?_, fun mv hseg hmoved => ?_⟩
    · refine Does.of_effect (show exec _ s = execPlateauEntry t p ⟨hi, first, slope, mv⟩ s from rfl) ?_
      have hgo : d.plateauEntry p hi first slope mv = d.setEdge p hi { e.advance d.time with entryMv := mv } := by
        unfold Dev.plateauEntry
        exact if_pos (by rw [Dev.detects_of hheavy hactive hseg hauto, Nat.ble_eq.mpr hlate, Nat.blt_eq.mpr hlow]; rfl)
      rw [show s.now t = d from rfl, hgo, Dev.edge_setEdge, Edge.advance_of_first hseg]
      exact ⟨rfl, rfl, rfl, rfl⟩
    · refine Does.of_effect (show exec _ s = execPlateauExit t p ⟨hi, mv⟩ s from rfl) ?_
      have hgo : d.plateauExit p hi mv = d.setEdge p hi (e.advance d.time) := by
        unfold Dev.plateauExit
        refine if_pos ?_
        rw [Dev.detects_of hheavy hactive hseg hauto, Bool.true_and, Bool.or_eq_true, decide_eq_true_eq]
        exact hmoved
      rw [show s.now t = d from rfl, hgo, Dev.edge_setEdge, Edge.advance_of_second hseg]
      exact ⟨rfl, rfl, rfl⟩
  case limit =>
    intro hheavy hactive hseg hdue
    refine Does.of_effect (show exec _ s = execSegTimeout t p hi s from rfl) ?_
    exact Dev.segEnd_shows hheavy hactive hseg hdue
  case complete =>
    intro mv hk hactive hseg hnear
    refine Does.of_effect (show exec _ s = execEdgeComplete t p ⟨hi, mv⟩ s from rfl) ?_
    have hdrv := d.endEdge_drv p hi
    rw [show s.now t = d from rfl, Dev.edgeDone_of_level hactive hseg hnear]
    refine ⟨congrArg (fun v => v.edge.active) hdrv, d.endEdge_sensed p hi, ?_, fun hheavy hon => ?_, fun hheavy hoff => ?_, ?_, fun hheavy hwas hheld hsup => ?_⟩
    · rw [Dev.clamped, hdrv, (d.endEdge_keeps p hi).flag F.PP_CFG_miller_clamp p (by decide)]
      rfl
    · rw [Dev.endEdge_record _ _ _ _ (by decide), Dev.endEdge_record _ _ _ _ (by decide), Dev.endEdge_record _ _ _ _ (by decide)]
      exact Dev.recordEdge_on hheavy hon hi
    · rw [Dev.endEdge_record _ _ _ _ (by decide)]
      exact Dev.recordEdge_off hheavy hoff hi
    · rintro rfl
      rw [Dev.charges, show (d.endEdge p false).flag F.PP_STAT_gate_lo p = e.on from d.endEdge_sensed p false]
    · exact Dev.endEdge_holds hheavy hwas hheld hsup

end Sys2Proof.Machine
end

section
/-! What a driver decides, its supply and its input (R64, R72, R73, R76, R77); obligation O4. -/

namespace Sys2Proof.Machine

/-! ### Supplies (R63, R64, R72) -/

theorem Dev.noteSupply_port (d : Dev) (p : Nat) (hi : Bool) (mv : Nat) : let q := d.port p; let r := (d.noteSupply p hi mv).port p
    (∀ b, (r.drv b).cmd = (q.drv b).cmd) ∧ (∀ b, (r.drv b).gate = (q.drv b).gate) ∧ (∀ b, (r.drv b).mv = if b = hi then mv else (q.drv b).mv) ∧
      r.flight = q.flight ∧ r.linkDown = q.linkDown ∧ r.laneDown = q.laneDown ∧ r.readmitted = q.readmitted ∧
      (r.pump = if hi && heavyPort p then Nat.ble (d.uvloRise p) mv else q.pump) := by
  have hport : (d.noteSupply p hi mv).port p = _ := d.port_setPort_self p _
  dsimp only
  rw [hport]
  cases hi <;> cases heavyPort p <;>
    exact ⟨fun b => by cases b <;> rfl, fun b => by cases b <;> rfl, fun b => by cases b <;> rfl, rfl, rfl, rfl, rfl, rfl⟩

theorem Dev.measureSupply_port (d : Dev) (p : Nat) (hi : Bool) (mv : Nat) : (d.measureSupply p hi mv).port p = (d.noteSupply p hi mv).port p := by
  unfold Dev.measureSupply
  dsimp only
  split <;> rfl

/-- A supply's live lockout is another field than those that a measurement writes. -/
theorem Dev.measureSupply_live (d : Dev) (p : Nat) (hi b : Bool) (mv : Nat) :
    (d.measureSupply p hi mv).flag (uvloLive b) p = d.flag (uvloLive b) p := by
  cases b
  · exact (d.measureSupply_keeps p hi mv).flag F.PP_STAT_uvlo_lo_live p (by decide)
  · exact (d.measureSupply_keeps p hi mv).flag F.PP_STAT_uvlo_hi_live p (by decide)

theorem Dev.uvloFall_measureSupply (d : Dev) (p : Nat) (hi : Bool) (mv q : Nat) : (d.measureSupply p hi mv).uvloFall q = d.uvloFall q := by
  rw [Dev.uvloFall, Dev.uvloFall, (d.measureSupply_keeps p hi mv).rd F.PP_CFG_uvlo q (by decide)]

/-- A driver in lockout: its flags, its count, its report. -/
def Dev.markLockout (d : Dev) (p : Nat) (hi : Bool) : Dev :=
  (((d.put (uvloLive hi) p true).put F.PP_STAT_uvlo p true).bump F.PP_CNT_uvlo p).reportOpen Kind.port p Cls.report Code.UVLO

theorem Dev.lockout_eq (d : Dev) (p : Nat) (hi : Bool) (mv : Nat) : d.lockout p hi mv =
    if Nat.blt mv ((d.measureSupply p hi mv).uvloFall p) && !(d.measureSupply p hi mv).flag (uvloLive hi) p then
      ((d.measureSupply p hi mv).markLockout p hi).drivePort p else d.measureSupply p hi mv := rfl

theorem Dev.putLive_keeps (d : Dev) (p : Nat) (hi b : Bool) :
    Keeps ⟨false, [F.PP_STAT_uvlo_hi_live, F.PP_STAT_uvlo_lo_live], []⟩ d (d.put (uvloLive hi) p b) := by
  cases hi
  · exact (Dev.put_keeps d F.PP_STAT_uvlo_lo_live p _ (by decide)).within (by decide)
  · exact (Dev.put_keeps d F.PP_STAT_uvlo_hi_live p _ (by decide)).within (by decide)

theorem Dev.flag_putLive (d : Dev) (p : Nat) (hi b : Bool) : (d.put (uvloLive hi) p b).flag (uvloLive hi) p = b := by
  cases hi
  · exact Dev.flag_put _ F.PP_STAT_uvlo_lo_live _ _ (by decide) rfl
  · exact Dev.flag_put _ F.PP_STAT_uvlo_hi_live _ _ (by decide) rfl

theorem Dev.markLockout_keeps (d : Dev) (p : Nat) (hi : Bool) :
    Keeps ⟨false, [F.PP_STAT_uvlo_hi_live, F.PP_STAT_uvlo_lo_live, F.PP_STAT_uvlo, F.PP_CNT_uvlo, F.FLT_STAT_lost, F.FLT_LOST], [.flt]⟩ d
      (d.markLockout p hi) :=
  (((Dev.putLive_keeps ..).within (by decide)).trans ((Dev.put_keeps _ F.PP_STAT_uvlo _ _ (by decide)).within (by decide))).trans
    (((Dev.bump_keeps _ F.PP_CNT_uvlo _ (by decide)).within (by decide)).trans ((Dev.reportOpen_keeps ..).within (by decide)))

/-- What follows the live flag of a lockout. -/
theorem Dev.markLockout_shows (d : Dev) (p : Nat) (hi : Bool) : (d.markLockout p hi).flag (uvloLive hi) p = true ∧
    (d.markLockout p hi).flag F.PP_STAT_uvlo p = true ∧ (d.markLockout p hi).rd F.PP_CNT_uvlo p = min (d.rd F.PP_CNT_uvlo p + 1) 255 := by
  set e := d.put (uvloLive hi) p true with he
  have hlive : e.flag (uvloLive hi) p = true := d.flag_putLive p hi true
  have hk1 : Keeps ⟨false, [F.PP_STAT_uvlo_hi_live, F.PP_STAT_uvlo_lo_live], []⟩ d e := d.putLive_keeps p hi true
  have hk2 : Keeps ⟨false, [F.PP_STAT_uvlo], []⟩ e (e.put F.PP_STAT_uvlo p true) := Dev.put_keeps _ _ _ _ (by decide)
  have hk3 : Keeps ⟨false, [F.PP_CNT_uvlo], []⟩ (e.put F.PP_STAT_uvlo p true) ((e.put F.PP_STAT_uvlo p true).bump F.PP_CNT_uvlo p) :=
    Dev.bump_keeps _ _ _ (by decide)
  have hk4 : Keeps ⟨false, [F.FLT_STAT_lost, F.FLT_LOST], [.flt]⟩ ((e.put F.PP_STAT_uvlo p true).bump F.PP_CNT_uvlo p) (d.markLockout p hi) :=
    Dev.reportOpen_keeps ..
  refine ⟨?_, ?_, ?_⟩
  · cases hi
    · rw [uvloLive, if_neg (by decide)] at hlive ⊢
      rw [hk4.flag F.PP_STAT_uvlo_lo_live p (by decide), hk3.flag F.PP_STAT_uvlo_lo_live p (by decide), hk2.flag F.PP_STAT_uvlo_lo_live p (by decide)]
      exact hlive
    · rw [uvloLive, if_pos rfl] at hlive ⊢
      rw [hk4.flag F.PP_STAT_uvlo_hi_live p (by decide), hk3.flag F.PP_STAT_uvlo_hi_live p (by decide), hk2.flag F.PP_STAT_uvlo_hi_live p (by decide)]
      exact hlive
  · rw [hk4.flag F.PP_STAT_uvlo p (by decide), hk3.flag F.PP_STAT_uvlo p (by decide)]
    exact Dev.flag_put _ F.PP_STAT_uvlo _ _ (by decide) rfl
  · rw [hk4.rd F.PP_CNT_uvlo p (by decide), Dev.rd_bump _ _ _ (by decide), hk2.rd F.PP_CNT_uvlo p (by decide), hk1.rd F.PP_CNT_uvlo p (by decide)]
    rfl

theorem Dev.gateWant_of_blocked {d : Dev} {p : Nat} {b : Bool} (h : d.gateBlocked p b = true) : d.gateWant p b = false := by
  unfold Dev.gateWant
  dsimp only
  rw [if_pos h]

theorem Dev.gateBlocked_of_lockout {d : Dev} {p : Nat} {b : Bool} (h : d.flag (uvloLive b) p = true) : d.gateBlocked p b = true := by
  unfold Dev.gateBlocked
  dsimp only
  rw [h]
  simp

/-- A supply that falls below its threshold locks its driver out. -/
theorem Dev.lockout_shows {d : Dev} {p : Nat} {hi : Bool} {mv : Nat} (hlow : mv < d.uvloFall p) (hclear : d.flag (uvloLive hi) p = false) :
    let n := d.lockout p hi mv
    n.flag (uvloLive hi) p = true ∧ n.flag F.PP_STAT_uvlo p = true ∧ (n.drv p hi).gate = false ∧
      n.rd F.PP_CNT_uvlo p = min (d.rd F.PP_CNT_uvlo p + 1) 255 ∧ (hi = true → heavyPort p = true → (n.port p).pump = false) := by
  set e := d.measureSupply p hi mv with he
  have hgo : d.lockout p hi mv = (e.markLockout p hi).drivePort p := by
    rw [Dev.lockout_eq, if_pos]
    rw [d.uvloFall_measureSupply, d.measureSupply_live, hclear, Nat.blt_eq.mpr hlow]
    rfl
  have hmeasure := d.measureSupply_keeps p hi mv
  obtain ⟨hlive, hsticky, hcount⟩ := e.markLockout_shows p hi
  have hdrive := (e.markLockout p hi).drivePort_keeps p
  obtain ⟨-, -, -, -, -, -, -, hpump⟩ := d.noteSupply_port p hi mv
  dsimp only
  rw [hgo, hdrive.flag F.PP_STAT_uvlo p (by decide), hdrive.rd F.PP_CNT_uvlo p (by decide), hsticky, hcount, Dev.drivePort_gate,
    hmeasure.rd F.PP_CNT_uvlo p (by decide)]
  refine ⟨?_, rfl, Dev.gateWant_of_blocked (Dev.gateBlocked_of_lockout hlive), rfl, fun hhi hheavy => ?_⟩
  · cases hi
    · exact (hdrive.flag F.PP_STAT_uvlo_lo_live p (by decide)).trans hlive
    · exact (hdrive.flag F.PP_STAT_uvlo_hi_live p (by decide)).trans hlive
  · have hrise : Nat.ble (d.uvloRise p) mv = false := by
      rw [Bool.eq_false_iff, ne_eq, Nat.ble_eq, Dev.uvloRise]
      unfold Dev.uvloFall at hlow ⊢
      split
      next h => rw [if_pos h] at hlow; omega
      next h => rw [if_neg h] at hlow; omega
    rw [(Dev.drivePort_sameInputs ..).pump, (e.markLockout_keeps p hi).port (by decide), he, d.measureSupply_port, hpump, hhi, hheavy]
    exact hrise

/-! ### Supplies found at an input -/

/-- What a supply that is measured, with its lockout, leaves of the port. -/
theorem Dev.supplyAt_port (d : Dev) (p : Nat) (hi : Bool) (mv : Nat) : let q := d.port p; let r := (d.supplyAt p hi mv).port p
    (∀ b, (r.drv b).mv = if b = hi then mv else (q.drv b).mv) ∧ r.flight = q.flight ∧ r.linkDown = q.linkDown ∧ r.laneDown = q.laneDown ∧
      r.readmitted = q.readmitted ∧ (r.pump = if hi && heavyPort p then Nat.ble (d.uvloRise p) mv else q.pump) := by
  obtain ⟨-, -, h3, h4, h5, h6, h7, h8⟩ := d.noteSupply_port p hi mv
  rw [← d.measureSupply_port] at h3 h4 h5 h6 h7 h8
  unfold Dev.supplyAt
  dsimp only
  split
  · exact ⟨h3, h4, h5, h6, h7, h8⟩
  · rw [Dev.lockout_eq]
    split
    · obtain ⟨k1, k2, k3, k4, k5, k6, k7⟩ := ((d.measureSupply p hi mv).markLockout p hi).drivePort_sameInputs p
      have hmark : ((d.measureSupply p hi mv).markLockout p hi).port p = (d.measureSupply p hi mv).port p :=
        (Dev.markLockout_keeps ..).port (by decide) p
      rw [hmark] at k1 k2 k3 k4 k5 k6 k7
      exact ⟨fun b => (k2 b).trans (h3 b), k3.trans h4, k4.trans h5, k5.trans h6, k6.trans h7, k7.trans h8⟩
    · exact ⟨h3, h4, h5, h6, h7, h8⟩

theorem Dev.supplyAt_reportsOnly (d : Dev) (p : Nat) (hi : Bool) (mv : Nat) : d.ReportsOnly (d.supplyAt p hi mv) := by
  have hmeasure : d.ReportsOnly (d.measureSupply p hi mv) := .of_keeps (d.measureSupply_keeps p hi mv) (by decide)
  have hmark : ∀ e : Dev, e.ReportsOnly (e.markLockout p hi) := fun e =>
    ((Dev.ReportsOnly.of_keeps (e.putLive_keeps p hi true) (by decide)).trans
      (.of_keeps (Dev.put_keeps _ F.PP_STAT_uvlo p _ (by decide)) (by decide))).trans
      ((Dev.ReportsOnly.of_keeps (Dev.bump_keeps _ F.PP_CNT_uvlo p (by decide)) (by decide)).trans (Dev.reportOpen_reportsOnly ..))
  have hdrive : ∀ e : Dev, e.ReportsOnly (e.drivePort p) := fun e => .of_keeps (e.drivePort_keeps p) (by decide)
  unfold Dev.supplyAt
  split
  · exact hmeasure
  · rw [Dev.lockout_eq]
    split
    · exact hmeasure.trans ((hmark _).trans (hdrive _))
    · exact hmeasure

theorem Dev.driverInput_reportsOnly (d : Dev) (p : Nat) (hi lo : Bool) (hiMv loMv : Nat) : d.ReportsOnly (d.driverInput p hi lo hiMv loMv) := by
  have hend : ∀ (e : Dev) (b on : Bool) (mv : Nat), e.ReportsOnly (e.endLockout p b on mv) := fun e b on mv =>
    .of_keeps (e.endLockout_keeps p b on mv) (by decide)
  have hput : ∀ (e : Dev) (b : Bool), e.ReportsOnly (e.put F.PP_STAT_interlock_live p b) := fun e b =>
    .of_keeps (e.put_keeps F.PP_STAT_interlock_live p b (by decide)) (by decide)
  have hlock : ∀ e : Dev, e.ReportsOnly (e.interlock p hi lo) := by
    intro e
    unfold Dev.interlock
    dsimp only
    split
    · exact ((Dev.ReportsOnly.of_keeps (e.put_keeps F.PP_STAT_interlock p true (by decide)) (by decide)).trans (hput _ _)).trans
        ((Dev.ReportsOnly.of_keeps (Dev.bump_keeps _ F.PP_CNT_interlock p (by decide)) (by decide)).trans (Dev.reportOpen_reportsOnly ..))
    · split
      · exact hput _ _
      · exact .refl e
  have hcommand : ∀ e : Dev, e.ReportsOnly (e.commandPort p hi lo) := fun e => .of_keeps (e.commandPort_keeps p hi lo) (by decide)
  have hdrive : ∀ e : Dev, e.ReportsOnly (e.drivePort p) := fun e => .of_keeps (e.drivePort_keeps p) (by decide)
  rw [Dev.driverInput_eq]
  exact ((((hend ..).trans (hend ..)).trans (hlock _)).trans (hcommand _)).trans (hdrive _)

/-- What an interlock writes: both commands on set both flags, one of them clears the live one. -/
theorem Dev.interlock_flags (d : Dev) (p : Nat) (hi lo : Bool) : let n := d.interlock p hi lo
    (hi = true → lo = true → n.flag F.PP_STAT_interlock p = true ∧ n.flag F.PP_STAT_interlock_live p = true) ∧
      (hi ≠ lo → n.flag F.PP_STAT_interlock_live p = false) := by
  have hone : hi ≠ lo → (d.put F.PP_STAT_interlock_live p false).flag F.PP_STAT_interlock_live p = false := fun _ =>
    Dev.flag_put _ F.PP_STAT_interlock_live _ _ (by decide) rfl
  have hboth : hi = true → lo = true → d.interlock p hi lo = (((d.put F.PP_STAT_interlock p true).put F.PP_STAT_interlock_live p true).bump
      F.PP_CNT_interlock p).reportOpen Kind.port p Cls.report Code.INTERLOCK := by
    rintro rfl rfl
    rfl
  refine ⟨fun hhi hlo => ?_, fun hne => ?_⟩
  · rw [hboth hhi hlo]
    set e := (d.put F.PP_STAT_interlock p true).put F.PP_STAT_interlock_live p true with he
    have hreport := (e.bump F.PP_CNT_interlock p).reportOpen_keeps Kind.port p Cls.report Code.INTERLOCK
    have hbump : Keeps ⟨false, [F.PP_CNT_interlock], []⟩ e (e.bump F.PP_CNT_interlock p) := Dev.bump_keeps _ _ _ (by decide)
    rw [hreport.flag F.PP_STAT_interlock p (by decide), hreport.flag F.PP_STAT_interlock_live p (by decide),
      hbump.flag F.PP_STAT_interlock p (by decide), hbump.flag F.PP_STAT_interlock_live p (by decide), he]
    rw [Dev.flag_put_apart _ F.PP_STAT_interlock F.PP_STAT_interlock_live p p true (by decide) (by decide)]
    exact ⟨Dev.flag_put _ F.PP_STAT_interlock _ _ (by decide) rfl,
      Dev.flag_put _ F.PP_STAT_interlock_live _ _ (by decide) rfl⟩
  · have hgo : d.interlock p hi lo = d.put F.PP_STAT_interlock_live p false := by
      have hlo : lo = !hi := by cases hi <;> cases lo <;> simp at hne ⊢
      subst hlo
      cases hi <;> rfl
    rw [hgo]
    exact hone hne

/-! ### A command that arrives (R77) -/

/-- Both supplies found at port p. -/
def Dev.suppliesAt (d : Dev) (p hiMv loMv : Nat) : Dev := (d.supplyAt p true hiMv).supplyAt p false loMv

def supplyFoot : Foot := ⟨false, [F.PP_STAT_uvlo_hi_live, F.PP_STAT_uvlo_lo_live, F.PP_STAT_uvlo, F.PP_CNT_uvlo, F.PP_SUPPLY_hi_supply,
  F.PP_SUPPLY_lo_supply, F.FLT_STAT_lost, F.FLT_LOST], [.pp, .flt]⟩

theorem Dev.suppliesAt_keeps (d : Dev) (p hiMv loMv : Nat) : Keeps supplyFoot d (d.suppliesAt p hiMv loMv) :=
  (d.supplyAt_keeps p true hiMv).trans (Dev.supplyAt_keeps ..)

theorem Dev.suppliesAt_port (d : Dev) (p hiMv loMv : Nat) : let q := d.port p; let r := (d.suppliesAt p hiMv loMv).port p
    (∀ b, (r.drv b).mv = if b then hiMv else loMv) ∧ r.flight = q.flight ∧ r.linkDown = q.linkDown ∧ r.laneDown = q.laneDown ∧
      r.readmitted = q.readmitted ∧ (heavyPort p = true → r.pump = Nat.ble (d.uvloRise p) hiMv) := by
  obtain ⟨h1, h2, h3, h4, h5, h6⟩ := d.supplyAt_port p true hiMv
  obtain ⟨k1, k2, k3, k4, k5, k6⟩ := (d.supplyAt p true hiMv).supplyAt_port p false loMv
  refine ⟨fun b => ?_, k2.trans h2, k3.trans h3, k4.trans h4, k5.trans h5, fun hheavy => ?_⟩
  · rw [Dev.suppliesAt, k1, h1]
    cases b <;> rfl
  · rw [Dev.suppliesAt, k6, h6, hheavy]
    rfl

/-- Port p with the command that arrives taken from those on their way. -/
def Dev.takeInput (d : Dev) (p : Nat) (r : List (Nat × Bool × Bool)) : Dev := d.setPort p { d.port p with flight := r }

theorem execDriverInputChange_eq {s : State} {t : Nat} {p : Fin 64} {hiMv loMv at0 : Nat} {hi lo : Bool} {r : List (Nat × Bool × Bool)}
    (hflight : ((s.now t).port p).flight = (at0, hi, lo) :: r) (hat : at0 / 16 ≤ (s.now t).time) (hlink : ((s.now t).port p).linkDown = false)
    {P : Dev → Prop} (h : P ((((s.now t).suppliesAt p hiMv loMv).takeInput p r).driverInput p hi lo hiMv loMv)) :
    Does s (.driverInputChange t p hiMv loMv) P := by
  refine Does.of_effect (show exec (.driverInputChange t p hiMv loMv) s = execDriverInputChange t p hiMv loMv s from rfl) ?_
  obtain ⟨-, hfl, hln, -⟩ := (s.now t).suppliesAt_port p hiMv loMv
  have htime : ((s.now t).suppliesAt p hiMv loMv).time = (s.now t).time := ((s.now t).suppliesAt_keeps p hiMv loMv).time
  have hnext : ((s.now t).suppliesAt p hiMv loMv).nextInput p = some ((hi, lo), { ((s.now t).suppliesAt p hiMv loMv).port p with flight := r }) := by
    unfold Dev.nextInput
    rw [hfl, hflight]
    dsimp only
    rw [htime, if_pos hat]
  rw [← Dev.suppliesAt]
  dsimp only
  rw [hnext]
  dsimp only
  rw [if_neg (by rw [hln, hlink]; decide)]
  exact h

def inputFoot : Foot := ⟨false, [F.PP_STAT_uvlo_hi_live, F.PP_STAT_uvlo_lo_live, F.PP_STAT_uvlo, F.PP_CNT_uvlo, F.PP_SUPPLY_hi_supply,
  F.PP_SUPPLY_lo_supply, F.PP_STAT_interlock_live, F.PP_STAT_interlock, F.PP_CNT_interlock, F.FLT_STAT_lost, F.FLT_LOST], [.pp, .flt]⟩

theorem Dev.arrives_keeps (d : Dev) (p hiMv loMv : Nat) (hi lo : Bool) (r : List (Nat × Bool × Bool)) :
    Keeps inputFoot d (((d.suppliesAt p hiMv loMv).takeInput p r).driverInput p hi lo hiMv loMv) := by
  have hinput : ∀ e : Dev, Keeps inputFoot e (e.driverInput p hi lo hiMv loMv) := fun e => (e.driverInput_keeps p hi lo hiMv loMv).within (by decide)
  exact ((d.suppliesAt_keeps p hiMv loMv).within (by decide)).trans (((Dev.setPort_keeps ..).within (by decide)).trans (hinput _))

theorem Dev.arrives_reportsOnly (d : Dev) (p hiMv loMv : Nat) (hi lo : Bool) (r : List (Nat × Bool × Bool)) :
    d.ReportsOnly (((d.suppliesAt p hiMv loMv).takeInput p r).driverInput p hi lo hiMv loMv) :=
  ((d.supplyAt_reportsOnly p true hiMv).trans (Dev.supplyAt_reportsOnly ..)).trans
    ((Dev.ReportsOnly.of_keeps (Dev.setPort_keeps ..) (by decide)).trans (Dev.driverInput_reportsOnly ..))

/-- What the port shows once its command has arrived. -/
theorem Dev.arrives_port (d : Dev) (p hiMv loMv : Nat) (hi lo : Bool) (r : List (Nat × Bool × Bool)) :
    let n := ((d.suppliesAt p hiMv loMv).takeInput p r).driverInput p hi lo hiMv loMv
    (n.port p).flight = r ∧ (n.drv p true).cmd = hi ∧ (n.drv p false).cmd = lo ∧ (∀ b, (n.drv p b).mv = if b then hiMv else loMv) ∧
      (n.port p).linkDown = (d.port p).linkDown ∧ (n.port p).laneDown = (d.port p).laneDown ∧ (n.port p).readmitted = (d.port p).readmitted ∧
      (heavyPort p = true → (n.port p).pump = Nat.ble (d.uvloRise p) hiMv) ∧ ∀ b, (n.drv p b).gate = n.gateWant p b := by
  obtain ⟨hmv, -, hlink, hlane, hread, hpump⟩ := d.suppliesAt_port p hiMv loMv
  have hport : ((d.suppliesAt p hiMv loMv).takeInput p r).port p = { (d.suppliesAt p hiMv loMv).port p with flight := r } :=
    Dev.port_setPort_self ..
  obtain ⟨k1, k2, k3, k4, k5, k6, k7, k8, k9⟩ := ((d.suppliesAt p hiMv loMv).takeInput p r).driverInput_shows p hi lo hiMv loMv
  simp only [Dev.drv] at k3
  rw [hport] at k3 k4 k5 k6 k7 k8
  exact ⟨k4, k1, k2, fun b => (k3 b).trans (hmv b), k5.trans hlink, k6.trans hlane, k7.trans hread, fun hh => k8.trans (hpump hh), k9⟩

/-- Both commands on lock the port; one of them ends the lock. -/
theorem Dev.driverInput_interlock (d : Dev) (p hiMv loMv : Nat) (hi lo : Bool) : let n := d.driverInput p hi lo hiMv loMv
    (hi = true → lo = true → n.flag F.PP_STAT_interlock p = true ∧ n.flag F.PP_STAT_interlock_live p = true) ∧
      (hi ≠ lo → n.flag F.PP_STAT_interlock_live p = false) := by
  have hk : Keeps ⟨false, [], [.pp]⟩ (d.readyInput p hi lo hiMv loMv) (d.driverInput p hi lo hiMv loMv) :=
    (Dev.commandPort_keeps ..).trans (Dev.drivePort_keeps ..)
  dsimp only
  rw [hk.flag F.PP_STAT_interlock p (by decide), hk.flag F.PP_STAT_interlock_live p (by decide)]
  exact Dev.interlock_flags _ p hi lo

/-! ### The rows of a decision (R77) -/

/-- A gate that no row holds off and whose supply is high enough. -/
theorem Dev.gateBlocked_false {d : Dev} {p : Nat} {b : Bool} (hasleep : d.pw.asleep = false) (hheld : d.pw.held = false)
    (hrow1 : (d.fenced Kind.port p || (d.port p).readmitted || !d.flag F.PP_CFG_enable p) = false) (hrow2 : d.flag (uvloLive b) p = false)
    (hrow3 : d.flag F.PP_STAT_interlock_live p = false) (hrow4 : (heavyPort p && ((d.port p).linkDown || (d.port p).laneDown)) = false)
    (hsupply : d.uvloFall p ≤ (d.drv p b).mv) : d.gateBlocked p b = false := by
  simp only [Bool.or_eq_false_iff] at hrow1
  obtain ⟨⟨h1, h2⟩, h3⟩ := hrow1
  have hfed : d.unsupplied p b = false := by
    rw [Dev.unsupplied, Bool.eq_false_iff, ne_eq, Nat.blt_eq]
    omega
  unfold Dev.gateBlocked
  dsimp only
  rw [hasleep, hheld, h1, h2, h3, hrow2, hrow3, hrow4, hfed]
  rfl

theorem Dev.gateWant_of_open {d : Dev} {p : Nat} {b : Bool} (hopen : d.gateBlocked p b = false) : d.gateWant p b =
    if d.flag F.WM_SW_STAT_held (portStage p) then
      !b && d.rd F.WM_SW_STAT_action (portStage p) == 2 && !(d.stop (portStage p)).lowWait
    else (d.drv p b).cmd := by
  unfold Dev.gateWant
  dsimp only
  rw [hopen, if_neg (by decide)]

/-- Each of the four rows holds its gate off. -/
theorem Dev.gateBlocked_of_row {d : Dev} {p : Nat} {b : Bool} :
    ((d.fenced Kind.port p || (d.port p).readmitted || !d.flag F.PP_CFG_enable p) = true → d.gateBlocked p b = true) ∧
      (d.flag F.PP_STAT_interlock_live p = true → d.gateBlocked p b = true) ∧
      ((heavyPort p && (d.port p).laneDown) = true → d.gateBlocked p b = true) := by
  unfold Dev.gateBlocked
  refine ⟨fun h => ?_, fun h => ?_, fun h => ?_⟩
  · simp only [Bool.or_eq_true] at h ⊢
    tauto
  · simp only [h, Bool.or_true, Bool.true_or]
  · simp only [Bool.and_eq_true] at h
    simp only [h.1, h.2, Bool.or_true, Bool.and_true]

/-- What the rows of R77 decide of a port whose command has arrived. -/
theorem arrives_decides {d n : Dev} {p hiMv loMv : Nat} {hi lo : Bool} {r : List (Nat × Bool × Bool)}
    (hport : (n.port p).flight = r ∧ (n.drv p true).cmd = hi ∧ (n.drv p false).cmd = lo ∧ (∀ b, (n.drv p b).mv = if b then hiMv else loMv) ∧
      (n.port p).linkDown = (d.port p).linkDown ∧ (n.port p).laneDown = (d.port p).laneDown ∧ (n.port p).readmitted = (d.port p).readmitted ∧
      (heavyPort p = true → (n.port p).pump = Nat.ble (d.uvloRise p) hiMv) ∧ ∀ b, (n.drv p b).gate = n.gateWant p b)
    (hlock : (hi = true → lo = true → n.flag F.PP_STAT_interlock p = true ∧ n.flag F.PP_STAT_interlock_live p = true) ∧
      (hi ≠ lo → n.flag F.PP_STAT_interlock_live p = false))
    (hk : Keeps inputFoot d n) (hfence : n.fenced Kind.port p = d.fenced Kind.port p) (hlink : (d.port p).linkDown = false) :
    (n.port p).flight = r ∧ (n.drv p true).cmd = hi ∧ (n.drv p false).cmd = lo ∧
      (n.drv p true).gate = n.gateWant p true ∧ (n.drv p false).gate = n.gateWant p false ∧
      (hi = true → lo = true → n.flag F.PP_STAT_interlock p = true ∧ (n.drv p true).gate = false ∧ (n.drv p false).gate = false) ∧
      (hi ≠ lo → n.flag F.PP_STAT_interlock_live p = false) ∧
      (heavyPort p = true → (n.port p).pump = Nat.ble (d.uvloRise p) hiMv) ∧
      let k := portStage p
      let row1 := d.fenced Kind.port p || (d.port p).readmitted || !d.flag F.PP_CFG_enable p
      let row2 (b : Bool) := n.flag (uvloLive b) p
      let row3 := n.flag F.PP_STAT_interlock_live p
      let row4 := heavyPort p && (d.port p).laneDown
      let powered (b : Bool) := !d.pw.asleep && !d.pw.held && Nat.ble (d.uvloFall p) (if b then hiMv else loMv)
      ∀ b, (row1 = true → (n.drv p b).gate = false) ∧ (row2 b = true → (n.drv p b).gate = false) ∧
        (row3 = true → (n.drv p b).gate = false) ∧ (row4 = true → (n.drv p b).gate = false) ∧
        ((row1 || row2 b || row3 || row4) = false → powered b = true →
          (d.flag F.WM_SW_STAT_held k = true → d.rd F.WM_SW_STAT_action k = 1 → (n.drv p b).gate = false) ∧
          (d.flag F.WM_SW_STAT_held k = true → d.rd F.WM_SW_STAT_action k = 2 → (d.stop k).lowWait = false → (n.drv p b).gate = !b) ∧
          (d.flag F.WM_SW_STAT_held k = false → (n.drv p b).gate = if b then hi else lo)) := by
  obtain ⟨hflight, hhi, hlo, hmv, hlink', hlane, hread, hpump, hgate⟩ := hport
  have hoff : ∀ b, n.gateBlocked p b = true → (n.drv p b).gate = false := fun b h => (hgate b).trans (Dev.gateWant_of_blocked h)
  have henable : n.flag F.PP_CFG_enable p = d.flag F.PP_CFG_enable p := hk.flag F.PP_CFG_enable p (by decide)
  have hrow1 : (n.fenced Kind.port p || (n.port p).readmitted || !n.flag F.PP_CFG_enable p) =
      (d.fenced Kind.port p || (d.port p).readmitted || !d.flag F.PP_CFG_enable p) := by rw [hfence, hread, henable]
  have hheld : n.flag F.WM_SW_STAT_held (portStage p) = d.flag F.WM_SW_STAT_held (portStage p) := hk.flag F.WM_SW_STAT_held _ (by decide)
  have haction : n.rd F.WM_SW_STAT_action (portStage p) = d.rd F.WM_SW_STAT_action (portStage p) := hk.rd F.WM_SW_STAT_action _ (by decide)
  have hstop : n.stop (portStage p) = d.stop (portStage p) := by rw [Dev.stop, Dev.stop, hk.parts .cv (by decide)]
  have hpw : n.pw = d.pw := hk.parts .pw (by decide)
  have hfall : n.uvloFall p = d.uvloFall p := by rw [Dev.uvloFall, Dev.uvloFall, hk.rd F.PP_CFG_uvlo p (by decide)]
  refine ⟨hflight, hhi, hlo, hgate true, hgate false, fun h1 h2 => ?_, hlock.2, hpump, fun b => ?_⟩
  · obtain ⟨hset, hlive⟩ := hlock.1 h1 h2
    exact ⟨hset, hoff _ (Dev.gateBlocked_of_row.2.1 hlive), hoff _ (Dev.gateBlocked_of_row.2.1 hlive)⟩
  · refine ⟨fun h => hoff b (Dev.gateBlocked_of_row.1 (hrow1.trans h)), fun h => hoff b (Dev.gateBlocked_of_lockout h),
      fun h => hoff b (Dev.gateBlocked_of_row.2.1 h), fun h => hoff b (Dev.gateBlocked_of_row.2.2 (by rw [hlane]; exact h)), fun hrows hpow => ?_⟩
    simp only [Bool.or_eq_false_iff] at hrows
    obtain ⟨⟨⟨h1, h2⟩, h3⟩, h4⟩ := hrows
    simp only [Bool.and_eq_true, Bool.not_eq_true', Nat.ble_eq] at hpow
    obtain ⟨⟨hasleep, hheldReset⟩, hsupply⟩ := hpow
    have hopen : n.gateBlocked p b = false := by
      refine Dev.gateBlocked_false (by rw [hpw, hasleep]) (by rw [hpw, hheldReset]) (hrow1.trans ?_) h2 h3 ?_ ?_
      · simp only [Bool.or_eq_false_iff]
        exact h1
      · rw [hlink', hlane, hlink, Bool.false_or]
        exact h4
      · rw [hfall, hmv]
        exact hsupply
    have hwant := (hgate b).trans (Dev.gateWant_of_open hopen)
    rw [hheld, haction, hstop] at hwant
    refine ⟨fun hh ha => ?_, fun hh ha hw => ?_, fun hh => ?_⟩
    · rw [hwant, if_pos hh, ha]
      simp
    · rw [hwant, if_pos hh, ha, hw]
      simp
    · rw [hwant, hh, if_neg (by decide)]
      cases b
      · exact hlo
      · exact hhi

/-! ### A supply that reads high -/

theorem Dev.uvloFall_le (d : Dev) (p : Nat) : d.uvloFall p ≤ 25500 := by
  have hlt : d.rd F.PP_CFG_uvlo p < 2 ^ 5 := getBits_lt ..
  unfold Dev.uvloFall
  split <;> omega

/-- A supply above its threshold is measured, and nothing else. -/
theorem Dev.supplyAt_of_high {d : Dev} {p mv : Nat} {hi : Bool} (h : d.uvloFall p ≤ mv) : d.supplyAt p hi mv = d.measureSupply p hi mv := by
  unfold Dev.supplyAt
  split
  · rfl
  · rw [Dev.lockout_eq, if_neg]
    rw [d.uvloFall_measureSupply, Bool.and_eq_true, Nat.blt_eq]
    omega

/-- What a high supply leaves of every gate. -/
theorem Dev.measureSupply_gate (d : Dev) (p k mv : Nat) (hi b : Bool) : ((d.measureSupply p hi mv).drv k b).gate = (d.drv k b).gate := by
  by_cases hk : k = p
  · subst hk
    obtain ⟨-, hgate, -⟩ := d.noteSupply_port k hi mv
    rw [Dev.drv, d.measureSupply_port]
    exact hgate b
  · have hother : (d.measureSupply p hi mv).port k = d.port k := by
      have hnote : (d.noteSupply p hi mv).port k = d.port k := d.port_setPort_of_ne _ hk
      unfold Dev.measureSupply
      dsimp only
      split <;> exact hnote
    rw [Dev.drv, hother, Dev.drv]

/-- One port's turn of a high supply. -/
def Dev.noteHigh (d : Dev) (p mv : Nat) : Dev := (d.supplyAt p false mv).put F.PP_STAT_supply_high p true

/-- The flag of the port is set, no flag is cleared and every gate stays. -/
theorem Dev.noteHigh_shows {d : Dev} {p k mv : Nat} (h : d.uvloFall p ≤ mv) :
    (d.noteHigh p mv).flag F.PP_STAT_supply_high p = true ∧
      (d.flag F.PP_STAT_supply_high k = true → (d.noteHigh p mv).flag F.PP_STAT_supply_high k = true) ∧
      ∀ b, ((d.noteHigh p mv).drv k b).gate = (d.drv k b).gate := by
  have hput := (d.supplyAt p false mv).put_keeps F.PP_STAT_supply_high p true (by decide)
  refine ⟨Dev.flag_put _ F.PP_STAT_supply_high _ _ (by decide) rfl, fun hd => ?_, fun b => ?_⟩
  · refine Dev.flag_put_of_eq _ F.PP_STAT_supply_high p (by decide) rfl ?_
    rw [(d.supplyAt_keeps p false mv).flag F.PP_STAT_supply_high k (by decide)]
    exact hd
  · rw [Dev.noteHigh, hput.drv (by decide), Dev.supplyAt_of_high h]
    exact d.measureSupply_gate ..

/-- The ports that a supply feeds, and the value above which it is high (R72). -/
def fedPorts (src : Fin 15) : List Nat := if src.val = 14 then (List.range 22).map (42 + ·) else stagePorts src

def highMv (src : Fin 15) : Nat := if src.val = 14 then 16000 else 26000

/-- A high supply lies above the falling threshold of every port that it feeds. -/
theorem Dev.uvloFall_of_fed {src : Fin 15} {p mv : Nat} (d : Dev) (hp : p ∈ fedPorts src) (h : highMv src < mv) : d.uvloFall p ≤ mv := by
  unfold fedPorts at hp
  unfold highMv at h
  by_cases hs : src.val = 14
  · rw [if_pos hs, List.mem_map] at hp
    rw [if_pos hs] at h
    obtain ⟨k, -, rfl⟩ := hp
    have hlight : heavyPort (42 + k) = false := by
      rw [heavyPort, Bool.eq_false_iff, ne_eq, Nat.blt_eq]
      omega
    rw [Dev.uvloFall, hlight, if_neg (by decide)]
    omega
  · rw [if_neg hs] at h
    exact (d.uvloFall_le p).trans (by omega)

theorem execSupplyHigh_eq {s : State} {t : Nat} {src : Fin 15} {mv : Nat} (h : highMv src < mv) {P : Dev → Prop}
    (hP : P ((s.now t).each (fedPorts src) fun d p => d.noteHigh p mv)) : Does s (.supplyHigh t src mv) P := by
  refine Does.of_effect (show exec (.supplyHigh t src mv) s = execSupplyHigh t src mv s from rfl) ?_
  unfold highMv at h
  simp only [Nat.blt_eq.mpr h, if_true]
  exact hP

/-- Settles O4: a driver follows its port's inputs by the rows of R77; the rows are one lemma each about the gate that a port decides for. -/
theorem driversDecide : Obligations.DriversDecide := by
  unfold Obligations.DriversDecide
  intro s t d
  refine ⟨?input, ?uvlo, ?high⟩
  case input =>
    intro p at0 hi lo r hiMv loMv hflight hat hlink
    refine execDriverInputChange_eq hflight hat hlink ?_
    have hport := d.arrives_port p hiMv loMv hi lo r
    have hlock := ((d.suppliesAt p hiMv loMv).takeInput p r).driverInput_interlock p hiMv loMv hi lo
    have hk : Keeps inputFoot d _ := d.arrives_keeps p hiMv loMv hi lo r
    have hfence := (d.arrives_reportsOnly p hiMv loMv hi lo r).fenced Kind.port p
    rw [show s.now t = d from rfl]
    generalize ((d.suppliesAt p hiMv loMv).takeInput p r).driverInput p hi lo hiMv loMv = n at hport hlock hk hfence ⊢
    exact arrives_decides hport hlock hk hfence hlink
  case uvlo =>
    intro p hi mv hlow hclear
    refine Does.of_effect (show exec (.uvlo t p hi mv) s = execUvlo t p hi mv s from rfl) ?_
    exact Dev.lockout_shows hlow hclear
  case high =>
    intro src mv hhigh
    refine execSupplyHigh_eq hhigh fun p hp => ?_
    refine ⟨Dev.each_reaches (l := fedPorts src) hp (fun e => (Dev.noteHigh_shows (k := p) (e.uvloFall_of_fed hp hhigh)).1)
      (fun e q hq => (Dev.noteHigh_shows (e.uvloFall_of_fed hq hhigh)).2.1) d, fun b => ?_⟩
    exact Dev.each_preserves (P := fun e => (e.drv p b).gate = (d.drv p b).gate) (l := fedPorts src)
      (fun e q hq he => ((Dev.noteHigh_shows (e.uvloFall_of_fed hq hhigh)).2.2 b).trans he) d rfl

end Sys2Proof.Machine
end

section
/-! Signed fields: what a read returns after a write (R5). -/

namespace Sys2Proof.Machine

/-- A field of w + 1 bits reads back each value that its two's complement holds. -/
theorem signed_unsigned {w : Nat} {v : Int} (h1 : -2 ^ w ≤ v) (h2 : v < 2 ^ w) : signed (w + 1) (unsigned (w + 1) v) = v := by
  have hpow : (2 : Int) ^ (w + 1) = 2 * 2 ^ w := by rw [pow_succ]; ring
  have hcast : ((2 ^ w : Nat) : Int) = 2 ^ w := by norm_cast
  have hcast' : ((2 ^ (w + 1) : Nat) : Int) = 2 * 2 ^ w := by rw [← hpow]; norm_cast
  have hpos : (0 : Int) < 2 ^ w := by positivity
  have hmod : ((unsigned (w + 1) v : Nat) : Int) = v % 2 ^ (w + 1) := by
    rw [unsigned, Int.toNat_of_nonneg (Int.emod_nonneg _ (by positivity))]
  have hlt : unsigned (w + 1) v < 2 ^ (w + 1) := by
    have := Int.emod_lt_of_pos v (b := 2 ^ (w + 1)) (by positivity)
    rw [← hmod] at this
    exact_mod_cast this
  have hsame : unsigned (w + 1) v % 2 ^ (w + 1) = unsigned (w + 1) v := Nat.mod_eq_of_lt hlt
  have hsplit : (0 ≤ v ∧ v % 2 ^ (w + 1) = v) ∨ (v < 0 ∧ v % 2 ^ (w + 1) = v + 2 ^ (w + 1)) := by
    rcases lt_or_ge v 0 with hneg | hnn
    · refine .inr ⟨hneg, ?_⟩
      rw [← Int.add_emod_right]
      exact Int.emod_eq_of_lt (by omega) (by omega)
    · exact .inl ⟨hnn, Int.emod_eq_of_lt hnn (by omega)⟩
  unfold signed
  rw [Nat.add_sub_cancel, hsame, ← Int.emod_emod_of_dvd _ (dvd_refl _), hmod, Int.emod_emod_of_dvd _ (dvd_refl _),
    Int.emod_emod_of_dvd _ (dvd_refl _)]
  split
  next h =>
    have h' : (2 ^ w : Int) ≤ v % 2 ^ (w + 1) := by rw [← hmod, ← hcast]; exact_mod_cast h
    omega
  next h =>
    have h' : ¬ (2 ^ w : Int) ≤ v % 2 ^ (w + 1) := by rw [← hmod, ← hcast]; exact_mod_cast h
    omega

/-- A signed field reads back the value that is written to it. -/
theorem Dev.rdInt_wrInt_of_mem (d : Dev) (f : Fd) (i : Nat) {v : Int} {w : Nat} (hw : f.width = w + 1) (h : f.lo + f.width ≤ 32)
    (h1 : -2 ^ w ≤ v) (h2 : v < 2 ^ w) : (d.wrInt f i v).rdInt f i = v := by
  have hlt : unsigned f.width v < 2 ^ f.width := by
    have := Int.emod_lt_of_pos v (b := 2 ^ f.width) (by positivity)
    have hnn := Int.emod_nonneg v (b := 2 ^ f.width) (by positivity)
    unfold unsigned
    zify
    rwa [Int.toNat_of_nonneg hnn]
  rw [Dev.rdInt, Dev.wrInt, d.rd_wr_of_lt f i h hlt, hw, signed_unsigned h1 h2]

theorem Dev.rdInt_wr_apart (d : Dev) (f g : Fd) (i k v : Nat) (h : g.lo + g.width ≤ 32) (ha : f.apart g = true) :
    (d.wr g k v).rdInt f i = d.rdInt f i := by
  rw [Dev.rdInt, Dev.rdInt, Dev.rd_wr_apart d f g i k v h ha]

theorem Dev.rdInt_wrInt_apart (d : Dev) (f g : Fd) (i k : Nat) (v : Int) (h : g.lo + g.width ≤ 32) (ha : f.apart g = true) :
    (d.wrInt g k v).rdInt f i = d.rdInt f i := d.rdInt_wr_apart f g i k _ h ha

end Sys2Proof.Machine
end

section
/-! Calibrations of shunt sensing and the requests that they hand to a converter (R83, R95, R103); obligation O8. -/

namespace Sys2Proof.Machine

/-! ### Converters and their requests (R103) -/

@[simp] theorem Dev.conv_setConv (d : Dev) (c k : Nat) (v : ConvT) : (d.setConv c v).conv k = if k = c then v else d.conv k :=
  Tbl.get_set ..

@[simp] theorem Dev.shunt_setShunt (d : Dev) (k i : Nat) (v : ShuntT) : (d.setShunt k v).shunt i = if i = k then v else d.shunt i :=
  Tbl.get_set ..

theorem Dev.shunt_congr {d e : Dev} (h : e.sh = d.sh) (k : Nat) : e.shunt k = d.shunt k := by rw [Dev.shunt, Dev.shunt, h]

theorem Dev.conv_congr {d e : Dev} (h : e.cv = d.cv) (c : Nat) : e.conv c = d.conv c := by rw [Dev.conv, Dev.conv, h]

theorem mem_insertUrgent {x y : Urg × Nat} {l : List (Urg × Nat)} : y ∈ insertUrgent x l ↔ y = x ∨ y ∈ l := by
  induction l with
  | nil => simp [insertUrgent]
  | cons z l ih =>
    unfold insertUrgent
    split
    · simp
    · simp only [List.mem_cons, ih]
      tauto

theorem mem_foldl_insertUrgent {y : Urg × Nat} (l : List (Urg × Nat)) :
    ∀ w : List (Urg × Nat), y ∈ l.foldl (fun w x => insertUrgent x w) w ↔ y ∈ l ∨ y ∈ w := by
  induction l with
  | nil => simp
  | cons x l ih =>
    intro w
    rw [List.foldl_cons, ih, mem_insertUrgent, List.mem_cons]
    tauto

theorem ConvT.holdsUrgent_iff (v : ConvT) (u : Urg) : v.holdsUrgent u = true ↔ (∃ at0, (u, at0) ∈ v.waiting) ∨ ∃ at0, v.running = some (u, at0) := by
  unfold ConvT.holdsUrgent
  rw [Bool.or_eq_true, List.any_eq_true]
  refine or_congr ⟨fun ⟨x, hx, h⟩ => ?_, fun ⟨at0, h⟩ => ⟨(u, at0), h, by simp⟩⟩ ?_
  · have hu : x.1 = u := by simpa using h
    exact ⟨x.2, hu ▸ hx⟩
  · cases v.running with
    | none => simp
    | some x =>
      simp only [beq_iff_eq, Option.some.injEq]
      exact ⟨fun h => ⟨x.2, by rw [← h]⟩, fun ⟨_, h⟩ => by rw [h]⟩

/-- A request that a converter holds is held on, waiting or running, when the next one is served. -/
theorem ConvT.serve_holdsUrgent {v : ConvT} {u : Urg} (h : v.holdsUrgent u = true) : v.serve.holdsUrgent u = true := by
  unfold ConvT.serve
  split
  · exact h
  next hrun =>
    split
    · exact h
    next x _ =>
      rw [ConvT.holdsUrgent_iff] at h ⊢
      rcases h with ⟨at0, hmem⟩ | ⟨at0, hr⟩
      · by_cases hu : u = x.1
        · exact .inr ⟨_, by rw [hu]⟩
        · exact .inl ⟨at0, List.mem_filter.mpr ⟨hmem, by simpa using hu⟩⟩
      · rw [hrun] at hr
        cases hr

/-- A converter that is not fenced holds the requests that reach it, and those that it held. -/
theorem Dev.requestUrgent_holds {d : Dev} {c : Nat} {l : List (Urg × Nat)} {u : Urg} (hfence : d.fenced Kind.logicConv c = false)
    (h : (∃ at0, (u, at0) ∈ l) ∨ (d.conv c).holdsUrgent u = true) : ((d.requestUrgent c l).conv c).holdsUrgent u = true := by
  unfold Dev.requestUrgent
  rw [hfence, if_neg (by decide)]
  dsimp only
  rw [Dev.conv_congr ((Dev.showUrgent_keeps _ c).parts .cv (by decide)), Dev.conv_setConv, if_pos rfl]
  refine ConvT.serve_holdsUrgent ?_
  rw [ConvT.holdsUrgent_iff] at h ⊢
  dsimp only
  simp only [mem_foldl_insertUrgent]
  rcases h with ⟨at0, h⟩ | ⟨at0, h⟩ | h
  · exact .inl ⟨at0, .inl h⟩
  · exact .inl ⟨at0, .inr h⟩
  · exact .inr h

/-! ### A calibration starts (R95) -/

/-- The operation that SH_CAL_CTRL shows. -/
def Dev.showCalOp (d : Dev) (k : Nat) (op : CalOp) : Dev :=
  d.wr F.SH_CAL_CTRL_op k (match op with | .offset => 1 | .gain => 2 | .both => 3)

theorem Dev.showCalOp_keeps (d : Dev) (k : Nat) (op : CalOp) : Keeps ⟨false, [F.SH_CAL_CTRL_op], []⟩ d (d.showCalOp k op) :=
  Dev.wr_keeps _ _ _ _ (by decide)

/-- A calibration of stage k that has begun. -/
def Dev.beginCal (d : Dev) (k : Nat) (op : CalOp) : Dev :=
  (d.setShunt k { d.shunt k with cal := some op, calTaken := 0, calZero := 0, calPlus := 0, calMinus := 0 }).put F.SH_CAL_CTRL_busy k true

theorem Dev.calStart_eq (d : Dev) (k : Nat) (op : CalOp) : d.calStart k op =
    if (d.showCalOp k op).flag F.TB_STG_RUN_run k then
      ((d.showCalOp k op).put F.SH_CAL_CTRL_busy k false).wr F.SH_CAL_CTRL_status k Code.STAGE_RUNNING
    else if heavyStage k || (((d.showCalOp k op).beginCal k op).conv (lightConv k)).holdsUrgent (.cal k) then (d.showCalOp k op).beginCal k op
    else (((d.showCalOp k op).beginCal k op).takeTriggers (lightConv k)).requestUrgent (lightConv k)
      [(.cal k, ((d.showCalOp k op).beginCal k op).time)] := rfl

theorem Dev.beginCal_keeps (d : Dev) (k : Nat) (op : CalOp) : Keeps ⟨false, [F.SH_CAL_CTRL_busy], [.sh]⟩ d (d.beginCal k op) :=
  ((Dev.setShunt_keeps ..).within (by decide)).trans ((Dev.put_keeps _ _ _ _ (by decide)).within (by decide))

theorem Dev.beginCal_shows (d : Dev) (k : Nat) (op : CalOp) :
    ((d.beginCal k op).shunt k).cal = some op ∧ (d.beginCal k op).flag F.SH_CAL_CTRL_busy k = true := by
  refine ⟨?_, Dev.flag_put _ F.SH_CAL_CTRL_busy _ _ (by decide) rfl⟩
  rw [Dev.beginCal, Dev.shunt_congr ((Dev.put_keeps _ F.SH_CAL_CTRL_busy k true (by decide)).parts .sh (by decide)), Dev.shunt_setShunt,
    if_pos rfl]

/-- On a stopped stage a calibration begins, with a request of the converter of a light one. -/
theorem Dev.calStart_of_stopped {d : Dev} {k : Nat} (op : CalOp) (hrun : d.flag F.TB_STG_RUN_run k = false) : let n := d.calStart k op
    (n.shunt k).cal = some op ∧ n.flag F.SH_CAL_CTRL_busy k = true ∧
      (heavyStage k = false → d.fenced Kind.logicConv (lightConv k) = false → (n.conv (lightConv k)).holdsUrgent (.cal k) = true) := by
  have hop := d.showCalOp_keeps k op
  have hbegin := (d.showCalOp k op).beginCal_keeps k op
  obtain ⟨hcal, hbusy⟩ := (d.showCalOp k op).beginCal_shows k op
  dsimp only
  rw [Dev.calStart_eq, if_neg (by rw [hop.flag F.TB_STG_RUN_run k (by decide), hrun]; decide)]
  set e := (d.showCalOp k op).beginCal k op with he
  split
  next h => exact ⟨hcal, hbusy, fun hlight _ => by simpa [hlight] using h⟩
  next h =>
    have htake := e.takeTriggers_keeps (lightConv k)
    have hask := (e.takeTriggers (lightConv k)).requestUrgent_keeps (lightConv k) [(.cal k, e.time)]
    refine ⟨?_, ?_, fun _ hfence => Dev.requestUrgent_holds ?_ (.inl ⟨e.time, .head _⟩)⟩
    · rw [Dev.shunt_congr (hask.parts .sh (by decide)), Dev.shunt_congr (htake.parts .sh (by decide)), hcal]
    · rw [hask.flag F.SH_CAL_CTRL_busy k (by decide), htake.flag F.SH_CAL_CTRL_busy k (by decide), hbusy]
    · rw [Dev.fenced_congr (htake.parts .flt (by decide)), Dev.fenced_congr (hbegin.parts .flt (by decide)),
        Dev.fenced_congr (hop.parts .flt (by decide)), hfence]

/-- On a running stage it is refused with STAGE_RUNNING. -/
theorem Dev.calStart_of_running {d : Dev} {k : Nat} (op : CalOp) (hrun : d.flag F.TB_STG_RUN_run k = true) : let n := d.calStart k op
    n.flag F.SH_CAL_CTRL_busy k = false ∧ n.rd F.SH_CAL_CTRL_status k = Code.STAGE_RUNNING ∧ (n.shunt k).cal = (d.shunt k).cal := by
  have hop := d.showCalOp_keeps k op
  have hput := (d.showCalOp k op).put_keeps F.SH_CAL_CTRL_busy k false (by decide)
  have hwr := ((d.showCalOp k op).put F.SH_CAL_CTRL_busy k false).wr_keeps F.SH_CAL_CTRL_status k Code.STAGE_RUNNING (by decide)
  dsimp only
  rw [Dev.calStart_eq, if_pos (by rw [hop.flag F.TB_STG_RUN_run k (by decide), hrun])]
  refine ⟨?_, Dev.rd_wr_of_lt _ F.SH_CAL_CTRL_status _ (by decide) (by decide), ?_⟩
  · rw [hwr.flag F.SH_CAL_CTRL_busy k (by decide)]
    exact Dev.flag_put _ F.SH_CAL_CTRL_busy _ _ (by decide) rfl
  · rw [Dev.shunt_congr (hwr.parts .sh (by decide)), Dev.shunt_congr (hput.parts .sh (by decide)), Dev.shunt_congr (hop.parts .sh (by decide))]

/-! ### A calibration ends (R95) -/

/-- The values that SH_CAL_RES holds after a good calibration. -/
def Dev.storeCal (d : Dev) (k : Nat) (op : CalOp) (off gain : Int) : Dev :=
  (if op != .gain then d.wrInt F.SH_CAL_RES_offset k off else d).pipe fun d =>
    if op != .offset then d.wrInt F.SH_CAL_RES_gain_err k gain else d

theorem Dev.storeCal_shows {d : Dev} {k : Nat} {op : CalOp} {off gain : Int} (hoff : op ≠ .gain → -1024 ≤ off ∧ off ≤ 1024)
    (hgain : op ≠ .offset → -20000 ≤ gain ∧ gain ≤ 20000) : let n := d.storeCal k op off gain
    n.rdInt F.SH_CAL_RES_offset k = (if op = .gain then d.rdInt F.SH_CAL_RES_offset k else off) ∧
      n.rdInt F.SH_CAL_RES_gain_err k = (if op = .offset then d.rdInt F.SH_CAL_RES_gain_err k else gain) := by
  have hwr : ∀ e : Dev, op ≠ .gain → (e.wrInt F.SH_CAL_RES_offset k off).rdInt F.SH_CAL_RES_offset k = off := fun e h =>
    e.rdInt_wrInt_of_mem F.SH_CAL_RES_offset k (w := 15) rfl (by decide) (by have := hoff h; omega) (by have := hoff h; omega)
  have hwr' : ∀ e : Dev, op ≠ .offset → (e.wrInt F.SH_CAL_RES_gain_err k gain).rdInt F.SH_CAL_RES_gain_err k = gain := fun e h =>
    e.rdInt_wrInt_of_mem F.SH_CAL_RES_gain_err k (w := 15) rfl (by decide) (by have := hgain h; omega) (by have := hgain h; omega)
  have hapart : ∀ e : Dev, (e.wrInt F.SH_CAL_RES_gain_err k gain).rdInt F.SH_CAL_RES_offset k = e.rdInt F.SH_CAL_RES_offset k := fun e =>
    e.rdInt_wrInt_apart F.SH_CAL_RES_offset F.SH_CAL_RES_gain_err _ _ _ (by decide) (by decide)
  have hapart' : ∀ e : Dev, (e.wrInt F.SH_CAL_RES_offset k off).rdInt F.SH_CAL_RES_gain_err k = e.rdInt F.SH_CAL_RES_gain_err k := fun e =>
    e.rdInt_wrInt_apart F.SH_CAL_RES_gain_err F.SH_CAL_RES_offset _ _ _ (by decide) (by decide)
  cases op with
  | offset => exact ⟨hwr d (by decide), hapart' d⟩
  | gain => exact ⟨hapart d, hwr' d (by decide)⟩
  | both => exact ⟨(hapart _).trans (hwr d (by decide)), hwr' _ (by decide)⟩

theorem Dev.storeCal_keeps (d : Dev) (k : Nat) (op : CalOp) (off gain : Int) :
    Keeps ⟨false, [F.SH_CAL_RES_offset, F.SH_CAL_RES_gain_err], []⟩ d (d.storeCal k op off gain) := by
  have hoff : Keeps ⟨false, [F.SH_CAL_RES_offset], []⟩ d (if op != .gain then d.wrInt F.SH_CAL_RES_offset k off else d) :=
    .ite (fun _ => Dev.wrInt_keeps _ _ _ _ (by decide)) fun _ => .refl _ _
  have hgain : ∀ e : Dev, Keeps ⟨false, [F.SH_CAL_RES_gain_err], []⟩ e (if op != .offset then e.wrInt F.SH_CAL_RES_gain_err k gain else e) :=
    fun e => .ite (fun _ => Dev.wrInt_keeps _ _ _ _ (by decide)) fun _ => .refl _ _
  exact (hoff.within (by decide)).trans ((hgain _).within (by decide))

/-- A calibration of stage k that has ended. -/
def Dev.endCal (d : Dev) (k : Nat) : Dev := (d.setShunt k { d.shunt k with cal := none }).put F.SH_CAL_CTRL_busy k false

theorem Dev.endCal_keeps (d : Dev) (k : Nat) : Keeps ⟨false, [F.SH_CAL_CTRL_busy], [.sh]⟩ d (d.endCal k) :=
  ((Dev.setShunt_keeps ..).within (by decide)).trans ((Dev.put_keeps _ _ _ _ (by decide)).within (by decide))

theorem Dev.endCal_shows (d : Dev) (k : Nat) : ((d.endCal k).shunt k).cal = none ∧ (d.endCal k).flag F.SH_CAL_CTRL_busy k = false := by
  refine ⟨?_, Dev.flag_put _ F.SH_CAL_CTRL_busy _ _ (by decide) rfl⟩
  rw [Dev.endCal, Dev.shunt_congr ((Dev.put_keeps _ F.SH_CAL_CTRL_busy k false (by decide)).parts .sh (by decide)), Dev.shunt_setShunt,
    if_pos rfl]

theorem Dev.calValues_eq (d : Dev) (k : Nat) (op : CalOp) (zero plus minus : Int) : d.calValues k op zero plus minus =
    if (op != .gain && (calOffset16 zero < -1024 || 1024 < calOffset16 zero)) ||
        (op != .offset && (calGainPpm k plus minus < -20000 || 20000 < calGainPpm k plus minus)) then
      (d.endCal k).wr F.SH_CAL_CTRL_status k Code.BROKEN
    else ((d.endCal k).storeCal k op (calOffset16 zero) (calGainPpm k plus minus)).wr F.SH_CAL_CTRL_status k Code.OK := rfl

/-- The bounds of R95 on what a calibration has found. -/
def calGood (op : CalOp) (off gain : Int) : Prop :=
  (op ≠ .gain → -1024 ≤ off ∧ off ≤ 1024) ∧ (op ≠ .offset → -20000 ≤ gain ∧ gain ≤ 20000)

theorem calGood_iff (op : CalOp) (off gain : Int) :
    ((op != .gain && (off < -1024 || 1024 < off)) || (op != .offset && (gain < -20000 || 20000 < gain))) = true ↔ ¬ calGood op off gain := by
  simp only [calGood, Bool.or_eq_true, Bool.and_eq_true, bne_iff_ne, decide_eq_true_eq, not_and_or, Classical.not_imp, not_le]

/-- Good values take force with OK; others leave the old ones, with BROKEN. -/
theorem Dev.calValues_shows (d : Dev) (k : Nat) (op : CalOp) (zero plus minus : Int) :
    let off := calOffset16 zero; let gain := calGainPpm k plus minus; let n := d.calValues k op zero plus minus
    (n.shunt k).cal = none ∧ n.flag F.SH_CAL_CTRL_busy k = false ∧
      (calGood op off gain → n.rd F.SH_CAL_CTRL_status k = Code.OK ∧
        n.rdInt F.SH_CAL_RES_offset k = (if op = .gain then d.rdInt F.SH_CAL_RES_offset k else off) ∧
        n.rdInt F.SH_CAL_RES_gain_err k = (if op = .offset then d.rdInt F.SH_CAL_RES_gain_err k else gain)) ∧
      (¬ calGood op off gain → n.rd F.SH_CAL_CTRL_status k = Code.BROKEN ∧ n.rd F.SH_CAL_RES k = d.rd F.SH_CAL_RES k) := by
  have hend := d.endCal_keeps k
  obtain ⟨hcal, hbusy⟩ := d.endCal_shows k
  dsimp only
  rw [Dev.calValues_eq]
  by_cases hgood : calGood op (calOffset16 zero) (calGainPpm k plus minus)
  · rw [if_neg fun h => (calGood_iff ..).mp h hgood]
    have hstore := (d.endCal k).storeCal_keeps k op (calOffset16 zero) (calGainPpm k plus minus)
    obtain ⟨hoff, hgain⟩ := Dev.storeCal_shows (d := d.endCal k) (k := k) hgood.1 hgood.2
    rw [hend.rdInt F.SH_CAL_RES_offset k (by decide)] at hoff
    rw [hend.rdInt F.SH_CAL_RES_gain_err k (by decide)] at hgain
    have hwr := ((d.endCal k).storeCal k op (calOffset16 zero) (calGainPpm k plus minus)).wr_keeps F.SH_CAL_CTRL_status k Code.OK (by decide)
    refine ⟨?_, ?_, fun _ => ⟨Dev.rd_wr_of_lt _ F.SH_CAL_CTRL_status _ (by decide) (by decide), ?_, ?_⟩, fun h => absurd hgood h⟩
    · rw [Dev.shunt_congr (hwr.parts .sh (by decide)), Dev.shunt_congr (hstore.parts .sh (by decide)), hcal]
    · rw [hwr.flag F.SH_CAL_CTRL_busy k (by decide), hstore.flag F.SH_CAL_CTRL_busy k (by decide), hbusy]
    · rw [hwr.rdInt F.SH_CAL_RES_offset k (by decide), hoff]
    · rw [hwr.rdInt F.SH_CAL_RES_gain_err k (by decide), hgain]
  · rw [if_pos ((calGood_iff ..).mpr hgood)]
    have hwr := (d.endCal k).wr_keeps F.SH_CAL_CTRL_status k Code.BROKEN (by decide)
    refine ⟨?_, ?_, fun h => absurd h hgood, fun _ => ⟨Dev.rd_wr_of_lt _ F.SH_CAL_CTRL_status _ (by decide) (by decide), ?_⟩⟩
    · rw [Dev.shunt_congr (hwr.parts .sh (by decide)), hcal]
    · rw [hwr.flag F.SH_CAL_CTRL_busy k (by decide), hbusy]
    · rw [hwr.rd F.SH_CAL_RES k (by decide), hend.rd F.SH_CAL_RES k (by decide)]

/-- The sums that a calibration's end takes: those of a heavy pod, or those that a light stage's converter has gathered. -/
theorem Dev.calDone_of_ready {d : Dev} {k : Nat} {op : CalOp} (zero plus minus : Int) (hcal : (d.shunt k).cal = some op)
    (hready : heavyStage k = true ∨ (d.shunt k).calTaken = op.conversions) : d.calDone k zero plus minus =
      if heavyStage k then d.calValues k op (calSum k zero) (calSum k plus) (calSum k minus)
      else d.calValues k op (d.shunt k).calZero (d.shunt k).calPlus (d.shunt k).calMinus := by
  unfold Dev.calDone
  dsimp only
  rw [hcal]
  dsimp only
  split
  · rfl
  next h => rw [if_pos (hready.resolve_left h)]

/-- Settles O8: a calibration starts, is refused, succeeds or is BROKEN. -/
theorem calibration : Obligations.Calibration := by
  unfold Obligations.Calibration
  intro s t k d
  refine ⟨?start, ?done⟩
  case start =>
    intro c op hc hfw
    have hexec : exec c s = fromFirmware t s fun d => d.calStart k op := by
      rcases hc with ⟨rfl, rfl⟩ | ⟨rfl, rfl⟩ | ⟨rfl, rfl⟩ <;> rfl
    exact ⟨fun hrun => Does.of_firmware hexec hfw (Dev.calStart_of_stopped op hrun),
      fun hrun => Does.of_firmware hexec hfw (Dev.calStart_of_running op hrun)⟩
  case done =>
    intro op zero plus minus q hcal hready off gain good
    refine Does.of_effect (show exec (.calibrationDone t k zero plus minus) s = execCalibrationDone t k zero plus minus s from rfl) ?_
    rw [show s.now t = d from rfl, Dev.calDone_of_ready zero plus minus hcal hready]
    have hheavy := d.calValues_shows k op (calSum k zero) (calSum k plus) (calSum k minus)
    have hlight := d.calValues_shows k op q.calZero q.calPlus q.calMinus
    unfold good off gain
    split
    · exact hheavy
    · exact hlight

end Sys2Proof.Machine
end

section
/-! What a read of a low half holds (R25); obligation O50. -/

namespace Sys2Proof.Machine

/-- A device in D3hot whose host holds the high half of an earlier read of device time: the function answers no access there (R301). -/
def State.heldInD3hot : State :=
  { State.reset with
    hi := { State.reset.hi with d3hot := true }
    sys := { State.reset.sys with holding := [(0, { tag := some 0x10004, value := 1 })] } }

theorem heldInD3hot_reaches (t : Nat) : (State.heldInD3hot.now t).reaches .host = false := rfl

theorem heldInD3hot_busRead : (State.heldInD3hot.now 0).busRead .host 0x10004 = 1 := by decide

theorem heldInD3hot_readWord : (State.heldInD3hot.now 0).readWord .host 0x10004 = 0 := by decide

/-- A read that does not reach the device holds nothing (R25, R301). -/
theorem lowHalfReadCapture_of_out_of_reach {s : State} {t off : Nat} {m : Master} (h : (s.now t).reaches m = false) {P : Dev → Prop}
    (hP : Does s (.lowHalfReadCapture t m off) P) : P (s.now t) := by
  obtain ⟨n, hn, hp⟩ := hP
  have hkeep : exec (.lowHalfReadCapture t m off) s = .next { s with toDev := s.now t } := by
    have hexec : exec (.lowHalfReadCapture t m off) s =
        .next { s with toDev := if (s.now t).reaches m then (s.now t).holdHigh m off else s.now t } := rfl
    rw [hexec, h, if_neg (by decide)]
  rw [hkeep] at hn
  cases hn
  exact hp

/-- Refutes O50: the host's read in D3hot does not reach the device, so its holding register keeps what it held of TB_TIME_HI, here 1, while
device time reads 0; the clause on low halves asks the live value of every master in every state. -/
theorem not_windowsAndHolding : ¬ Obligations.WindowsAndHolding := by
  unfold Obligations.WindowsAndHolding
  intro h
  obtain ⟨-, -, hhold, -⟩ := h State.heldInD3hot 0 0x10000 .host 0
  obtain ⟨hread, -, -⟩ := lowHalfReadCapture_of_out_of_reach (heldInD3hot_reaches 0) (hhold (by decide))
  rw [heldInD3hot_busRead] at hread
  have hlive : (1 : Word) = 0 := hread.trans heldInD3hot_readWord
  exact absurd hlive (by decide)

end Sys2Proof.Machine
end

section
/-! Dead engines and the spares that take their loops over (R176 to R180); obligation O16. -/

namespace Sys2Proof.Machine

/-! ### Engines and loops -/

theorem Dev.eng_setEng (d : Dev) (e x : Nat) (v : EngT) : (d.setEng e v).eng x = if x = e then v else d.eng x := Tbl.get_set ..

theorem Dev.loop_setLoop (d : Dev) (l k : Nat) (v : LoopT) : (d.setLoop l v).loop k = if k = l then v else d.loop k := Tbl.get_set ..

theorem Dev.loop_onLoop (d : Dev) (l k : Nat) (f : LoopT → LoopT) : (d.onLoop l f).loop k = if k = l then f (d.loop l) else d.loop k :=
  d.loop_setLoop ..

theorem Dev.loop_congr {d e : Dev} (h : e.be = d.be) (l : Nat) : e.loop l = d.loop l := by rw [Dev.loop, Dev.loop, h]

theorem Dev.eng_congr {d e : Dev} (h : e.be = d.be) (x : Nat) : e.eng x = d.eng x := by rw [Dev.eng, Dev.eng, h]

/-- A 64-bit value reads the same after effects on other fields. -/
theorem Keeps.rd64 {w : Foot} {d e : Dev} (hk : Keeps w d e) (lo hi : Fd) (i : Nat) (hlo : w.avoids lo = true) (hhi : w.avoids hi = true) :
    e.rd64 lo hi i = d.rd64 lo hi i := by
  rw [Dev.rd64, Dev.rd64, hk.rd lo i hlo, hk.rd hi i hhi]

theorem Keeps.held {w : Foot} {d e : Dev} (hk : Keeps w d e) (hlo : w.avoids F.BE_ENG_LOOPS_LO = true) (hhi : w.avoids F.BE_ENG_LOOPS_HI = true)
    (x : Nat) : e.held x = d.held x := hk.rd64 _ _ x hlo hhi

theorem Keeps.heldLoops {w : Foot} {d e : Dev} (hk : Keeps w d e) (hlo : w.avoids F.BE_ENG_LOOPS_LO = true)
    (hhi : w.avoids F.BE_ENG_LOOPS_HI = true) (x : Nat) : e.heldLoops x = d.heldLoops x := by
  rw [Dev.heldLoops, Dev.heldLoops, hk.held hlo hhi]

theorem Dev.held_lt (d : Dev) (x : Nat) : d.held x < 2 ^ 64 := by
  have hlo : d.rd F.BE_ENG_LOOPS_LO x < 2 ^ 32 := getBits_lt ..
  have hhi : d.rd F.BE_ENG_LOOPS_HI x < 2 ^ 32 := getBits_lt ..
  rw [Dev.held, Dev.rd64]
  omega

/-! ### A declaration (R176) -/

/-- The words that a declaration leaves of its cause and of the run that it ended. -/
def Dev.deadWords (d : Dev) (e cause : Nat) : Dev :=
  ((d.wr F.BE_ENG_DEAD e 0).wr F.BE_ENG_DEAD_cause e cause).pipe fun f =>
    match (d.eng e).run with
    | some r => (f.wr F.BE_ENG_DEAD_loop e r.loop).wr F.BE_ENG_DEAD_op e (r.pc - 1)
    | none => f

/-- Its time, and a spare no longer. -/
def Dev.deadStamp (d : Dev) (e : Nat) : Dev :=
  (d.wr64 F.BE_ENG_DEAD_TIME_LO F.BE_ENG_DEAD_TIME_HI e d.time).put F.BE_ENG_STAT_spare e false

/-- Its place among the declarations. -/
def Dev.deadOrdered (d : Dev) (e : Nat) (v : EngT) : Dev :=
  (d.withBe { d.be with order := d.be.order + 1 }).setEng e { v with deadOrder := d.be.order + 1, inForce := false }

/-- What the loops of an engine waited for is lost. -/
def Dev.dropWaits (d : Dev) (ls : List Nat) : Dev := d.each ls fun d l => d.onLoop l fun v => { v with waiting := false, ready := none }

def deadCode (cause : Nat) : Nat := if cause = 1 then Code.DEADLINE else if cause = 3 then 0 else Code.BROKEN

theorem Dev.declareDead_eq {d : Dev} {e : Nat} (cause : Nat) (h : d.fenced Kind.engine e = false) :
    let f := (((d.markFenced Kind.engine e true).deadWords e cause).deadStamp e).deadOrdered e ((d.markFenced Kind.engine e true).eng e)
    d.declareDead e cause =
      ((f.dropWaits (f.heldLoops e)).postFenced Kind.engine e Cls.c (deadCode cause) (if cause = 3 then 1 else 0)).showPool := by
  unfold Dev.declareDead
  dsimp only
  rw [h, if_neg (by decide)]
  rfl

theorem Dev.deadWords_keeps (d : Dev) (e cause : Nat) :
    Keeps ⟨false, [F.BE_ENG_DEAD, F.BE_ENG_DEAD_cause, F.BE_ENG_DEAD_loop, F.BE_ENG_DEAD_op], []⟩ d (d.deadWords e cause) := by
  have hcause := ((d.wr_keeps F.BE_ENG_DEAD e 0 (by decide)).within
    (b := ⟨false, [F.BE_ENG_DEAD, F.BE_ENG_DEAD_cause, F.BE_ENG_DEAD_loop, F.BE_ENG_DEAD_op], []⟩) (by decide)).trans
    ((Dev.wr_keeps _ F.BE_ENG_DEAD_cause e cause (by decide)).within (by decide))
  unfold Dev.deadWords Dev.pipe
  split
  · exact hcause.trans (((Dev.wr_keeps _ F.BE_ENG_DEAD_loop e _ (by decide)).within (by decide)).trans
      ((Dev.wr_keeps _ F.BE_ENG_DEAD_op e _ (by decide)).within (by decide)))
  · exact hcause

theorem Dev.deadWords_cause (d : Dev) (e : Nat) {cause : Nat} (h : cause < 16) : (d.deadWords e cause).rd F.BE_ENG_DEAD_cause e = cause := by
  have hset : ((d.wr F.BE_ENG_DEAD e 0).wr F.BE_ENG_DEAD_cause e cause).rd F.BE_ENG_DEAD_cause e = cause :=
    Dev.rd_wr_of_lt _ F.BE_ENG_DEAD_cause _ (by decide) h
  unfold Dev.deadWords Dev.pipe
  split
  · rw [Dev.rd_wr_apart _ F.BE_ENG_DEAD_cause F.BE_ENG_DEAD_op _ _ _ (by decide) (by decide),
      Dev.rd_wr_apart _ F.BE_ENG_DEAD_cause F.BE_ENG_DEAD_loop _ _ _ (by decide) (by decide), hset]
  · exact hset

theorem Dev.deadStamp_keeps (d : Dev) (e : Nat) :
    Keeps ⟨false, [F.BE_ENG_DEAD_TIME_LO, F.BE_ENG_DEAD_TIME_HI, F.BE_ENG_STAT_spare], []⟩ d (d.deadStamp e) :=
  ((Dev.wr64_keeps _ _ _ _ _ (by decide) (by decide)).within (by decide)).trans ((Dev.put_keeps _ _ _ _ (by decide)).within (by decide))

theorem Dev.deadStamp_shows (d : Dev) (e : Nat) : (d.deadStamp e).rd64 F.BE_ENG_DEAD_TIME_LO F.BE_ENG_DEAD_TIME_HI e = d.time % 2 ^ 64 ∧
    (d.deadStamp e).flag F.BE_ENG_STAT_spare e = false := by
  refine ⟨?_, Dev.flag_put _ F.BE_ENG_STAT_spare _ _ (by decide) rfl⟩
  rw [Dev.deadStamp, (Dev.put_keeps _ F.BE_ENG_STAT_spare e false (by decide)).rd64 _ _ e (by decide) (by decide)]
  exact Dev.rd64_wr64 _ _ _ _ _ (by decide) (by decide) (by decide)

theorem Dev.deadOrdered_keeps (d : Dev) (e : Nat) (v : EngT) : Keeps ⟨false, [], [.be]⟩ d (d.deadOrdered e v) :=
  (Dev.withBe_keeps ..).trans (Dev.setEng_keeps ..)

theorem Dev.dropWaits_keeps (d : Dev) (ls : List Nat) : Keeps ⟨false, [], [.be]⟩ d (d.dropWaits ls) :=
  Dev.each_keeps d ls _ fun d l => d.onLoop_keeps l _

/-- A loop that waits for nothing. -/
def Dev.Unwaited (d : Dev) (l : Nat) : Prop := (d.loop l).waiting = false ∧ (d.loop l).ready = none

theorem Dev.dropWaits_shows (d : Dev) {ls : List Nat} {l : Nat} (h : l ∈ ls) : (d.dropWaits ls).Unwaited l := by
  refine Dev.each_reaches (P := fun d => d.Unwaited l) h (fun e => ?_) (fun e q _ he => ?_) d
  · rw [Dev.Unwaited, Dev.loop_onLoop, if_pos rfl]
    exact ⟨rfl, rfl⟩
  · rw [Dev.Unwaited, Dev.loop_onLoop]
    split
    · exact ⟨rfl, rfl⟩
    · exact he

/-- What the report of a declaration and the pool's registers leave. -/
def Dev.tellDead (d : Dev) (e cause : Nat) : Dev :=
  (d.postFenced Kind.engine e Cls.c (deadCode cause) (if cause = 3 then 1 else 0)).showPool

theorem Dev.tellDead_keeps (d : Dev) (e cause : Nat) :
    Keeps ⟨false, [F.FLT_STAT_lost, F.FLT_LOST, F.BE_ENG_STAT_state, F.BE_ENG_STAT_loop, F.BE_ENG_STAT_loops, F.BE_LP_STAT_state,
      F.BE_POOL_STAT_fenced, F.BE_POOL_STAT_free], [.flt]⟩ d (d.tellDead e cause) :=
  ((Dev.postFenced_keeps ..).within (by decide)).trans ((Dev.showPool_keeps _).within (by decide))

theorem Dev.tellDead_reportsOnly (d : Dev) (e cause : Nat) : d.ReportsOnly (d.tellDead e cause) :=
  (d.post_reportsOnly _).trans (.of_keeps (Dev.showPool_keeps _) (by decide))

/-- An engine that is declared dead: fenced, with its cause and its time; its loops stop. -/
theorem Dev.declareDead_shows {d : Dev} {e cause : Nat} (h : d.fenced Kind.engine e = false) (hcause : cause < 16) :
    let n := d.declareDead e cause
    n.fenced Kind.engine e = true ∧ n.rd F.BE_ENG_DEAD_cause e = cause ∧ n.flag F.BE_ENG_STAT_spare e = false ∧
      n.rd64 F.BE_ENG_DEAD_TIME_LO F.BE_ENG_DEAD_TIME_HI e = d.time % 2 ^ 64 ∧
      ∀ l ∈ d.heldLoops e, (n.loop l).waiting = false ∧ (n.loop l).ready = none := by
  set a := d.markFenced Kind.engine e true with ha
  have hmark : Keeps ⟨false, [], [.flt]⟩ d a := d.markFenced_keeps ..
  have hwords := a.deadWords_keeps e cause
  have htime := (a.deadWords e cause).deadStamp_keeps e
  have horder := ((a.deadWords e cause).deadStamp e).deadOrdered_keeps e (a.eng e)
  set f := ((a.deadWords e cause).deadStamp e).deadOrdered e (a.eng e) with hf
  have hheld : f.heldLoops e = d.heldLoops e := by
    rw [horder.heldLoops (by decide) (by decide), htime.heldLoops (by decide) (by decide), hwords.heldLoops (by decide) (by decide),
      hmark.heldLoops (by decide) (by decide)]
  have hgo : d.declareDead e cause = (f.dropWaits (d.heldLoops e)).tellDead e cause := by
    rw [← hheld]
    exact Dev.declareDead_eq cause h
  have hdrop := f.dropWaits_keeps (d.heldLoops e)
  have htell := (f.dropWaits (d.heldLoops e)).tellDead_keeps e cause
  obtain ⟨hstamp, hspare⟩ := (a.deadWords e cause).deadStamp_shows e
  dsimp only
  rw [hgo]
  refine ⟨?_, ?_, ?_, ?_, fun l hl => ?_⟩
  · rw [(Dev.tellDead_reportsOnly ..).fenced, Dev.fenced_congr (hdrop.parts .flt (by decide)), Dev.fenced_congr (horder.parts .flt (by decide)),
      Dev.fenced_congr (htime.parts .flt (by decide)), Dev.fenced_congr (hwords.parts .flt (by decide)), ha, Dev.fenced_markFenced, if_pos rfl]
  · rw [htell.rd F.BE_ENG_DEAD_cause e (by decide), hdrop.rd F.BE_ENG_DEAD_cause e (by decide), horder.rd F.BE_ENG_DEAD_cause e (by decide),
      htime.rd F.BE_ENG_DEAD_cause e (by decide), a.deadWords_cause e hcause]
  · rw [htell.flag F.BE_ENG_STAT_spare e (by decide), hdrop.flag F.BE_ENG_STAT_spare e (by decide), horder.flag F.BE_ENG_STAT_spare e (by decide),
      hspare]
  · rw [htell.rd64 _ _ e (by decide) (by decide), hdrop.rd64 _ _ e (by decide) (by decide), horder.rd64 _ _ e (by decide) (by decide), hstamp,
      hwords.time, hmark.time]
  · rw [Dev.loop_congr (htell.parts .be (by decide))]
    exact f.dropWaits_shows hl

/-! ### The firmware's declaration (R176) -/

/-- The command of BE_POOL_CTRL with its answer. -/
def Dev.askDead (d : Dev) (e code : Nat) : Dev :=
  ((d.wr F.BE_POOL_CTRL_cmd 0 1).wr F.BE_POOL_CTRL_engine 0 e).wr F.BE_POOL_CTRL_status 0 code

theorem Dev.askDead_keeps (d : Dev) (e code : Nat) :
    Keeps ⟨false, [F.BE_POOL_CTRL_cmd, F.BE_POOL_CTRL_engine, F.BE_POOL_CTRL_status], []⟩ d (d.askDead e code) :=
  (((Dev.wr_keeps _ _ _ _ (by decide)).within (by decide)).trans ((Dev.wr_keeps _ _ _ _ (by decide)).within (by decide))).trans
    ((Dev.wr_keeps _ _ _ _ (by decide)).within (by decide))

theorem Dev.askDead_status (d : Dev) (e : Nat) {code : Nat} (h : code < 256) : (d.askDead e code).rd F.BE_POOL_CTRL_status 0 = code :=
  Dev.rd_wr_of_lt _ F.BE_POOL_CTRL_status _ (by decide) h

theorem Dev.declareWrite_eq (d : Dev) {e : Nat} (h : e < 12) : d.declareWrite e =
    if d.fenced Kind.engine e then d.askDead e Code.FENCED else (d.askDead e Code.OK).declareDead e 3 := by
  have hkeep : ((d.wr F.BE_POOL_CTRL_cmd 0 1).wr F.BE_POOL_CTRL_engine 0 e).fenced Kind.engine e = d.fenced Kind.engine e :=
    Dev.fenced_congr (d := d) rfl ..
  unfold Dev.declareWrite
  rw [if_neg (by omega)]
  dsimp only
  rw [hkeep]
  rfl

/-- A declaration that the firmware asks for is answered with OK. -/
theorem Dev.asked_declareDead_shows {d : Dev} {e : Nat} (h : d.fenced Kind.engine e = false) : let n := (d.askDead e Code.OK).declareDead e 3
    n.fenced Kind.engine e = true ∧ n.rd F.BE_ENG_DEAD_cause e = 3 ∧ n.flag F.BE_ENG_STAT_spare e = false ∧
      n.rd64 F.BE_ENG_DEAD_TIME_LO F.BE_ENG_DEAD_TIME_HI e = d.time % 2 ^ 64 ∧
      (∀ l ∈ d.heldLoops e, (n.loop l).waiting = false ∧ (n.loop l).ready = none) ∧
      (3 = 3 → n.rd F.BE_POOL_CTRL_status 0 = Code.OK) := by
  have hask := d.askDead_keeps e Code.OK
  obtain ⟨h1, h2, h3, h4, h5⟩ := Dev.declareDead_shows (d := d.askDead e Code.OK) (cause := 3)
    ((Dev.fenced_congr (hask.parts .flt (by decide)) _ _).trans h) (by decide)
  rw [hask.time] at h4
  rw [hask.heldLoops (by decide) (by decide)] at h5
  refine ⟨h1, h2, h3, h4, h5, fun _ => ?_⟩
  rw [((d.askDead e Code.OK).declareDead_keeps e 3).rd F.BE_POOL_CTRL_status 0 (by decide)]
  exact d.askDead_status e (by decide)

/-! ### Spares take loops over (R178) -/

theorem mem_freeSpares {d : Dev} {x : Nat} : x ∈ d.freeSpares ↔ x < 12 ∧ d.flag F.BE_ENG_STAT_spare x = true := by
  rw [Dev.freeSpares, List.mem_filter, List.mem_range]

/-- What the pool chooses by: which engines' loops wait, which fences are in force, and in what order they were declared. -/
theorem Dev.waitingEngine_congr {d e : Dev} (hwait : ∀ x, e.loopsWait x = d.loopsWait x) (hholds : ∀ x, e.fenceHolds x = d.fenceHolds x)
    (horder : ∀ x, (e.eng x).deadOrder = (d.eng x).deadOrder) (n : Nat) : e.waitingEngine n = d.waitingEngine n := by
  have hwait' : e.loopsWait = d.loopsWait := funext hwait
  simp only [Dev.waitingEngine, hwait', hholds, horder]

/-- What of the pool a choice rests on. -/
structure Dev.SamePool (d e : Dev) : Prop where
  fenced : ∀ x, e.fenced Kind.engine x = d.fenced Kind.engine x
  held : ∀ x, e.held x = d.held x
  holds : ∀ x, e.fenceHolds x = d.fenceHolds x
  order : ∀ x, (e.eng x).deadOrder = (d.eng x).deadOrder
  free : e.freeSpares = d.freeSpares

theorem Dev.SamePool.waitingEngine {d e : Dev} (h : d.SamePool e) (n : Nat) : e.waitingEngine n = d.waitingEngine n :=
  Dev.waitingEngine_congr (fun x => by rw [Dev.loopsWait, Dev.loopsWait, h.fenced, h.held]) h.holds h.order n

theorem Keeps.freeSpares {w : Foot} {d e : Dev} (hk : Keeps w d e) (h : w.avoids F.BE_ENG_STAT_spare = true) : e.freeSpares = d.freeSpares := by
  simp only [Dev.freeSpares, hk.flag _ _ h]

theorem Keeps.fenceHolds {w : Foot} {d e : Dev} (hk : Keeps w d e) (hlo : w.avoids F.BE_ENG_DEAD_TIME_LO = true)
    (hhi : w.avoids F.BE_ENG_DEAD_TIME_HI = true) (hp : Part.flt ∉ w.parts) {x : Nat} (heng : (e.eng x).inForce = (d.eng x).inForce) :
    e.fenceHolds x = d.fenceHolds x := by
  rw [Dev.fenceHolds, Dev.fenceHolds, Dev.fenced_congr (hk.parts .flt hp), hk.rd64 _ _ x hlo hhi, hk.time, heng]

theorem Dev.showPool_samePool (d : Dev) : d.SamePool d.showPool := by
  have hk := d.showPool_keeps
  have heng : ∀ x, d.showPool.eng x = d.eng x := Dev.eng_congr (hk.parts .be (by decide))
  exact ⟨fun x => Dev.fenced_congr (hk.parts .flt (by decide)) .., fun x => hk.held (by decide) (by decide) x,
    fun x => hk.fenceHolds (by decide) (by decide) (by decide) (by rw [heng]), fun x => by rw [heng], hk.freeSpares (by decide)⟩

/-- One assignment: the engine that is due to the first free spare. -/
def Dev.assignOne (d : Dev) : Dev :=
  match d.waitingEngine d.freeSpares.length, d.freeSpares with
  | some e, s :: _ => d.takeOver e s
  | _, _ => d

theorem Dev.assignWaiting_eq (d : Dev) : d.assignWaiting = (d.each (List.range 12) fun d _ => d.assignOne).showPool := rfl

/-- No engine is due to a spare. -/
def Dev.Assigned (d : Dev) : Prop := d.waitingEngine d.freeSpares.length = none ∨ d.freeSpares = []

theorem Dev.SamePool.assigned {d e : Dev} (h : d.SamePool e) (hd : d.Assigned) : e.Assigned := by
  rw [Dev.Assigned, h.waitingEngine, h.free]
  exact hd

theorem Dev.assignOne_of_assigned {d : Dev} (h : d.Assigned) : d.assignOne = d := by
  unfold Dev.assignOne
  rcases h with h | h
  · rw [h]
  · rw [h]
    split
    · contradiction
    · rfl

theorem Dev.each_cons (d : Dev) (a : Nat) (l : List Nat) (f : Dev → Nat → Dev) : d.each (a :: l) f = (f d a).each l f := rfl

theorem Dev.each_assignOne_of_assigned {d : Dev} (h : d.Assigned) (l : List Nat) : (d.each l fun d _ => d.assignOne) = d := by
  induction l with
  | nil => rfl
  | cons a l ih =>
    rw [Dev.each_cons, Dev.assignOne_of_assigned h, ih]

/-- The loops of engine e, in the mask m, become those of spare s. -/
def Dev.passLoops (d : Dev) (e s m : Nat) : Dev :=
  (d.wr64 F.BE_ENG_LOOPS_LO F.BE_ENG_LOOPS_HI e 0).wr64 F.BE_ENG_LOOPS_LO F.BE_ENG_LOOPS_HI s m

/-- Spare s is in use, and each loop of the list runs on it. -/
def Dev.useSpare (d : Dev) (s : Nat) (ls : List Nat) : Dev :=
  ((d.put F.BE_ENG_STAT_spare s false).bump F.BE_POOL_STAT_takeovers 0).each ls fun d l => d.wr F.BE_LP_STAT_engine l s

theorem Dev.takeOver_eq (d : Dev) (e s : Nat) : d.takeOver e s = (d.passLoops e s (d.held e)).useSpare s (d.heldLoops e) := rfl

theorem Dev.passLoops_keeps (d : Dev) (e s m : Nat) : Keeps ⟨false, [F.BE_ENG_LOOPS_LO, F.BE_ENG_LOOPS_HI], []⟩ d (d.passLoops e s m) :=
  (Dev.wr64_keeps _ _ _ _ _ (by decide) (by decide)).trans (Dev.wr64_keeps _ _ _ _ _ (by decide) (by decide))

theorem Dev.spareLoops_keeps (d : Dev) (s : Nat) (ls : List Nat) :
    Keeps ⟨false, [F.BE_LP_STAT_engine], []⟩ d (d.each ls fun d l => d.wr F.BE_LP_STAT_engine l s) :=
  Dev.each_keeps d ls _ fun d l => d.wr_keeps F.BE_LP_STAT_engine l s (by decide)

theorem Dev.useSpare_keeps (d : Dev) (s : Nat) (ls : List Nat) :
    Keeps ⟨false, [F.BE_ENG_STAT_spare, F.BE_POOL_STAT_takeovers, F.BE_LP_STAT_engine], []⟩ d (d.useSpare s ls) :=
  (((Dev.put_keeps _ F.BE_ENG_STAT_spare _ _ (by decide)).within (by decide)).trans
    ((Dev.bump_keeps _ F.BE_POOL_STAT_takeovers _ (by decide)).within (by decide))).trans ((Dev.spareLoops_keeps _ s ls).within (by decide))

/-- The spare flags after a spare is used. -/
theorem Dev.useSpare_spare (d : Dev) (s x : Nat) (ls : List Nat) :
    (d.useSpare s ls).flag F.BE_ENG_STAT_spare x = (d.put F.BE_ENG_STAT_spare s false).flag F.BE_ENG_STAT_spare x := by
  rw [Dev.useSpare, (Dev.spareLoops_keeps _ s ls).flag F.BE_ENG_STAT_spare x (by decide),
    Dev.bump_flag_apart _ F.BE_ENG_STAT_spare F.BE_POOL_STAT_takeovers _ _ (by decide) (by decide)]

/-- The spare that takes loops over is free no more. -/
theorem Dev.takeOver_spare (d : Dev) (e s : Nat) : (d.takeOver e s).flag F.BE_ENG_STAT_spare s = false := by
  rw [d.takeOver_eq, Dev.useSpare_spare]
  exact Dev.flag_put _ F.BE_ENG_STAT_spare _ _ (by decide) rfl

/-- A takeover frees no spare, and takes its own. -/
theorem Dev.takeOver_freeSpares (d : Dev) (e s : Nat) {x : Nat} (hs : s < 12) (h : x ∈ (d.takeOver e s).freeSpares) : x ∈ d.freeSpares ∧ x ≠ s := by
  rw [mem_freeSpares] at h ⊢
  obtain ⟨hx, hflag⟩ := h
  have hne : x ≠ s := by
    rintro rfl
    rw [d.takeOver_spare] at hflag
    cases hflag
  rw [d.takeOver_eq, Dev.useSpare_spare, Dev.flag_put_of_ne _ F.BE_ENG_STAT_spare _ (by decide) hx hs hne,
    (d.passLoops_keeps e s _).flag F.BE_ENG_STAT_spare x (by decide)] at hflag
  exact ⟨⟨hx, hflag⟩, hne⟩

theorem Dev.freeSpares_nodup (d : Dev) : d.freeSpares.Nodup := List.nodup_range.filter _

theorem Dev.assignOne_length {d : Dev} (h : ¬ d.Assigned) : d.assignOne.freeSpares.length < d.freeSpares.length := by
  unfold Dev.assignOne
  split
  next e s r hwait hfree =>
    have hmem : s ∈ d.freeSpares := by rw [hfree]; exact .head _
    have hs := (mem_freeSpares.mp hmem).1
    have hsub : (d.takeOver e s).freeSpares ⊆ r := fun x hx => by
      obtain ⟨hin, hne⟩ := d.takeOver_freeSpares e s hs hx
      rw [hfree] at hin
      exact (List.mem_cons.mp hin).resolve_left hne
    have hle := ((Dev.freeSpares_nodup _).subperm hsub).length_le
    rw [hfree, List.length_cons]
    omega
  next hnone =>
    refine absurd ?_ h
    rw [Dev.Assigned]
    cases hw : d.waitingEngine d.freeSpares.length with
    | none => exact .inl rfl
    | some e =>
      cases hf : d.freeSpares with
      | nil => exact .inr rfl
      | cons s r => exact absurd hf (hnone e s r hw)

/-- As many assignments as there are free spares leave none due. -/
theorem Dev.each_assignOne_assigned (l : List Nat) : ∀ d : Dev, d.freeSpares.length ≤ l.length →
    (d.each l fun d _ => d.assignOne).Assigned := by
  induction l with
  | nil => exact fun d h => .inr (List.length_eq_zero_iff.mp (Nat.le_zero.mp h))
  | cons a l ih =>
    intro d h
    by_cases hd : d.Assigned
    · rwa [Dev.each_assignOne_of_assigned hd]
    · refine ih d.assignOne ?_
      have := Dev.assignOne_length hd
      rw [List.length_cons] at h
      omega

theorem Dev.assignWaiting_assigned (d : Dev) : d.assignWaiting.Assigned := by
  rw [d.assignWaiting_eq]
  refine (Dev.showPool_samePool _).assigned (Dev.each_assignOne_assigned _ d ?_)
  exact List.length_filter_le ..

/-- With one free spare, one assignment is all. -/
theorem Dev.assignWaiting_of_one {d : Dev} {w sp : Nat} (hwait : d.waitingEngine 1 = some w) (hfree : d.freeSpares = [sp]) :
    d.assignWaiting = (d.takeOver w sp).showPool := by
  have hone : d.assignOne = d.takeOver w sp := by
    unfold Dev.assignOne
    rw [hfree, List.length_singleton, hwait]
  have hmem : sp ∈ d.freeSpares := by rw [hfree]; exact .head _
  have hempty : (d.takeOver w sp).freeSpares = [] := by
    refine List.eq_nil_iff_forall_not_mem.mpr fun x hx => ?_
    obtain ⟨hin, hne⟩ := d.takeOver_freeSpares w sp (mem_freeSpares.mp hmem).1 hx
    rw [hfree, List.mem_singleton] at hin
    exact hne hin
  rw [d.assignWaiting_eq, List.range_succ_eq_map, Dev.each_cons, hone, Dev.each_assignOne_of_assigned (.inr hempty)]

theorem Dev.rd64_wr64_of_ne (d : Dev) (lo hi : Fd) {i k : Nat} (v : Nat) (hlo : 0 < lo.s1 ∧ lo.lo + lo.width ≤ 32)
    (hhi : 0 < hi.s1 ∧ hi.lo + hi.width ≤ 32) (hi1 : i < lo.n1 ∧ i < hi.n1) (hk1 : k < lo.n1 ∧ k < hi.n1) (hlh : lo.apart hi = true)
    (hhl : hi.apart lo = true) (h : i ≠ k) : (d.wr64 lo hi k v).rd64 lo hi i = d.rd64 lo hi i := by
  rw [Dev.rd64, Dev.wr64, Dev.rd_wr_apart _ lo hi _ _ _ hhi.2 hlh, Dev.rd_wr_of_ne _ lo _ hlo.1 hi1.1 hk1.1 h,
    Dev.rd_wr_of_ne _ hi _ hhi.1 hi1.2 hk1.2 h, Dev.rd_wr_apart _ hi lo _ _ _ hlo.2 hhl, Dev.rd64]

theorem Dev.passLoops_held {d : Dev} {w sp m : Nat} (hw : w < 12) (hs : sp < 12) (hne : w ≠ sp) (hm : m < 2 ^ 64) :
    (d.passLoops w sp m).held sp = m ∧ (d.passLoops w sp m).held w = 0 := by
  constructor
  · rw [Dev.held, Dev.passLoops, Dev.rd64_wr64 _ _ _ _ _ (by decide) (by decide) (by decide), Nat.mod_eq_of_lt hm]
  · rw [Dev.held, Dev.passLoops, Dev.rd64_wr64_of_ne _ _ _ _ (by decide) (by decide) ⟨hw, hw⟩ ⟨hs, hs⟩ (by decide) (by decide) hne,
      Dev.rd64_wr64 _ _ _ _ _ (by decide) (by decide) (by decide), Nat.zero_mod]

theorem Dev.useSpare_engine {d : Dev} {sp l : Nat} {ls : List Nat} (hs : sp < 12) (hls : ∀ x ∈ ls, x < 64) (hl : l ∈ ls) :
    (d.useSpare sp ls).rd F.BE_LP_STAT_engine l = sp := by
  have hset : ∀ e : Dev, (e.wr F.BE_LP_STAT_engine l sp).rd F.BE_LP_STAT_engine l = sp := fun e =>
    e.rd_wr_of_lt F.BE_LP_STAT_engine l (by decide) (hs.trans (by decide))
  unfold Dev.useSpare
  refine Dev.each_reaches (P := fun d => d.rd F.BE_LP_STAT_engine l = sp) (f := fun d q => d.wr F.BE_LP_STAT_engine q sp) hl hset
    (fun e q hq he => ?_) _
  by_cases hlq : l = q
  · exact hlq ▸ hset e
  · rw [Dev.rd_wr_of_ne _ F.BE_LP_STAT_engine _ (by decide) (hls l hl) (hls q hq) hlq, he]

/-- A spare holds the loops that it takes over, and the dead engine none. -/
theorem Dev.takeOver_shows {d : Dev} {w sp : Nat} (hw : w < 12) (hs : sp < 12) (hne : w ≠ sp) : let n := d.takeOver w sp
    n.held sp = d.held w ∧ n.held w = 0 ∧ ∀ l ∈ d.heldLoops w, n.rd F.BE_LP_STAT_engine l = sp := by
  obtain ⟨hsp, hnone⟩ := Dev.passLoops_held (d := d) hw hs hne (d.held_lt w)
  have huse := (d.passLoops w sp (d.held w)).useSpare_keeps sp (d.heldLoops w)
  dsimp only
  rw [d.takeOver_eq, huse.held (by decide) (by decide), huse.held (by decide) (by decide)]
  exact ⟨hsp, hnone, fun l hl => Dev.useSpare_engine hs (fun x hx => List.mem_range.mp (List.mem_filter.mp hx).1) hl⟩

/-! ### Who is due (R178, R180) -/

/-- The one of two engines that was declared first. -/
def Dev.firstDeclared (d : Dev) (best : Option Nat) (e : Nat) : Option Nat :=
  match best with
  | none => some e
  | some b => if (d.eng e).deadOrder < (d.eng b).deadOrder then some e else some b

/-- How many of the engines whose loops wait were declared before engine e. -/
def Dev.declaredBefore (d : Dev) (e : Nat) : Nat :=
  (((List.range 12).filter d.loopsWait).filter fun x => Nat.blt (d.eng x).deadOrder (d.eng e).deadOrder).length

/-- The engines that n free spares may serve. -/
def Dev.spareFor (d : Dev) (n : Nat) : List Nat :=
  ((List.range 12).filter d.loopsWait).filter fun e => d.fenceHolds e && Nat.blt (d.declaredBefore e) n

theorem Dev.waitingEngine_eq (d : Dev) (n : Nat) : d.waitingEngine n = (d.spareFor n).foldl d.firstDeclared none := rfl

theorem Dev.firstDeclared_mem {d : Dev} {w : Nat} (l : List Nat) : ∀ best, l.foldl d.firstDeclared best = some w → best = some w ∨ w ∈ l := by
  induction l with
  | nil => exact fun _ h => .inl h
  | cons a l ih =>
    intro best h
    rcases ih _ h with hw | hw
    · unfold Dev.firstDeclared at hw
      split at hw
      · exact .inr (Option.some.inj hw ▸ .head _)
      · split at hw
        · exact .inr (Option.some.inj hw ▸ .head _)
        · exact .inl hw
    · exact .inr (.tail _ hw)

theorem Dev.waitingEngine_mem {d : Dev} {n w : Nat} (h : d.waitingEngine n = some w) : w ∈ d.spareFor n := by
  rw [d.waitingEngine_eq] at h
  exact (Dev.firstDeclared_mem _ _ h).resolve_left (by simp)

theorem Dev.mem_spareFor {d : Dev} {n w : Nat} :
    w ∈ d.spareFor n ↔ (w < 12 ∧ d.loopsWait w = true) ∧ d.fenceHolds w = true ∧ d.declaredBefore w < n := by
  rw [Dev.spareFor, List.mem_filter, List.mem_filter, List.mem_range, Bool.and_eq_true, Nat.blt_eq]

/-! ### TAKEOVER -/

/-- The fence of engine e in force, where it is fenced (R177). -/
def Dev.forceFence (d : Dev) (e : Nat) : Dev := if d.fenced Kind.engine e then d.setEng e { d.eng e with inForce := true } else d

theorem Dev.forceFence_keeps (d : Dev) (e : Nat) : Keeps ⟨false, [], [.be]⟩ d (d.forceFence e) :=
  .ite (fun _ => Dev.setEng_keeps ..) fun _ => .refl _ _

theorem Dev.forceFence_inForce {d : Dev} {e : Nat} (h : d.fenced Kind.engine e = true) : ((d.forceFence e).eng e).inForce = true := by
  rw [Dev.forceFence, if_pos h, Dev.eng_setEng, if_pos rfl]

theorem Dev.forceFence_eng (d : Dev) (e x : Nat) : ((d.forceFence e).eng x).deadOrder = (d.eng x).deadOrder ∧
    (x ≠ e ∨ (d.eng e).inForce = true → ((d.forceFence e).eng x).inForce = (d.eng x).inForce) := by
  unfold Dev.forceFence
  split
  · rw [Dev.eng_setEng]
    split
    next h => exact ⟨by rw [h], fun hx => by rw [h, hx.resolve_left fun hne => hne h]⟩
    next => exact ⟨rfl, fun _ => rfl⟩
  · exact ⟨rfl, fun _ => rfl⟩

theorem Dev.forceFence_holds {d : Dev} {e x : Nat} (h : x ≠ e ∨ (d.eng e).inForce = true) : (d.forceFence e).fenceHolds x = d.fenceHolds x :=
  (d.forceFence_keeps e).fenceHolds (by decide) (by decide) (by decide) ((d.forceFence_eng e x).2 h)

theorem Dev.forceFence_loopsWait (d : Dev) (e x : Nat) : (d.forceFence e).loopsWait x = d.loopsWait x := by
  have hk := d.forceFence_keeps e
  rw [Dev.loopsWait, Dev.loopsWait, Dev.fenced_congr (hk.parts .flt (by decide)), hk.held (by decide) (by decide)]

theorem Dev.forceFence_freeSpares (d : Dev) (e : Nat) : (d.forceFence e).freeSpares = d.freeSpares :=
  (d.forceFence_keeps e).freeSpares (by decide)

/-- A takeover leaves nothing due, and puts the fence in force. -/
theorem Dev.takeover_assigned (d : Dev) (e : Nat) : let n := (d.forceFence e).assignWaiting
    (d.fenced Kind.engine e = true → (n.eng e).inForce = true) ∧ n.Assigned := by
  refine ⟨fun h => ?_, Dev.assignWaiting_assigned _⟩
  have hk := (d.forceFence e).assignWaiting_keeps
  rw [Dev.eng_congr (hk.parts .be (by decide)), Dev.forceFence_inForce h]

/-- The one free spare takes the loops of the engine that is due. -/
theorem Dev.takeover_shows {d : Dev} {e w sp : Nat} (hforce : (d.eng e).inForce = true) (hwait : d.waitingEngine 1 = some w)
    (hfree : d.freeSpares = [sp]) (hne : w ≠ sp) : let n := (d.forceFence e).assignWaiting
    n.held sp = d.held w ∧ n.held w = 0 ∧ n.flag F.BE_ENG_STAT_spare sp = false ∧ ∀ l ∈ d.heldLoops w, n.rd F.BE_LP_STAT_engine l = sp := by
  have hk := d.forceFence_keeps e
  have hwait' : (d.forceFence e).waitingEngine 1 = some w := by
    rw [← hwait]
    exact Dev.waitingEngine_congr (d.forceFence_loopsWait e) (fun x => Dev.forceFence_holds (.inr hforce)) (fun x => (d.forceFence_eng e x).1) 1
  have hw := (Dev.mem_spareFor.mp (Dev.waitingEngine_mem hwait)).1.1
  have hs : sp < 12 := (mem_freeSpares.mp (by rw [hfree]; exact .head _)).1
  obtain ⟨hheld, hnone, hengine⟩ := Dev.takeOver_shows (d := d.forceFence e) hw hs hne
  have hshow := ((d.forceFence e).takeOver w sp).showPool_keeps
  dsimp only
  rw [Dev.assignWaiting_of_one hwait' ((d.forceFence_freeSpares e).trans hfree), hshow.held (by decide) (by decide),
    hshow.held (by decide) (by decide), hshow.flag F.BE_ENG_STAT_spare sp (by decide), Dev.takeOver_spare, hheld, hnone,
    hk.held (by decide) (by decide)]
  refine ⟨rfl, rfl, rfl, fun l hl => ?_⟩
  rw [hshow.rd F.BE_LP_STAT_engine l (by decide)]
  exact hengine l (by rwa [hk.heldLoops (by decide) (by decide)])

theorem execTakeover_of {s : State} {t : Nat} {e : Fin 12} {P : Dev → Prop} (h : P (((s.now t).forceFence e).assignWaiting)) :
    Does s (.takeover t e) P :=
  Does.of_effect (show exec (.takeover t e) s = execTakeover t e s from rfl) h

/-- Settles O16: what a declaration writes, and what the rounds of an assignment come to. The statement's last clause has no instance: its x is
a `Fin 12`, below no bound 12. -/
theorem deadEnginesAndSpares : Obligations.DeadEnginesAndSpares := by
  unfold Obligations.DeadEnginesAndSpares
  intro s t e d
  refine ⟨?dead, ?again, ?assigned, ?taken, ?waits⟩
  case dead =>
    rintro c cause hfree (⟨⟨r, hrun, hstall⟩, rfl, rfl⟩ | ⟨rfl, rfl⟩ | ⟨x, hx, rfl, rfl, hfw⟩)
    · refine Does.of_effect (show exec (.engineStall t e) s = execEngineStall t e s from rfl) ?_
      rw [show s.now t = d from rfl, hrun]
      dsimp only
      rw [if_pos hstall]
      obtain ⟨h1, h2, h3, h4, h5⟩ := Dev.declareDead_shows (cause := 1) hfree (by decide)
      exact ⟨h1, h2, h3, h4, h5, fun h => absurd h (by decide)⟩
    · refine Does.of_effect (show exec (.residueFail t e) s = execResidueFail t e s from rfl) ?_
      obtain ⟨h1, h2, h3, h4, h5⟩ := Dev.declareDead_shows (cause := 2) hfree (by decide)
      exact ⟨h1, h2, h3, h4, h5, fun h => absurd h (by decide)⟩
    · refine Does.of_firmware (show exec (.declareDead t x) s = execDeclareDead t x s from rfl) hfw ?_
      rw [show s.now t = d from rfl, hx, d.declareWrite_eq e.isLt, hfree, if_neg (by decide)]
      exact Dev.asked_declareDead_shows hfree
  case again =>
    intro x hfw hx hfence
    refine Does.of_firmware (show exec (.declareDead t x) s = execDeclareDead t x s from rfl) hfw ?_
    rw [show s.now t = d from rfl, hx, d.declareWrite_eq e.isLt, if_pos hfence]
    exact ⟨d.askDead_status e (by decide), (d.askDead_keeps e Code.FENCED).rd F.BE_ENG_DEAD e (by decide)⟩
  case assigned => exact execTakeover_of (d.takeover_assigned e)
  case taken => exact fun w sp _ hforce hwait hfree hne => execTakeover_of (Dev.takeover_shows hforce hwait hfree hne)
  case waits =>
    -- x is a number of Fin 12, where 12 reads 0
    exact fun x hx => absurd hx (Fin.not_lt_zero x)

end Sys2Proof.Machine
end

section
/-! Resets and the safe-state watchdog (R350, R386, R387, R391); obligation O46. -/

namespace Sys2Proof.Machine

/-- The device that a reset leaves before its first words are written. -/
def Dev.renewed (d : Dev) : Dev :=
  let k := d.sec
  { time := 0, clockOn := false, fresh := d.fresh, hi := { out := d.hi.out }, pw := { held := true, vcan := d.pw.vcan, vrep := d.pw.vrep },
    sec := { enrolled := k.enrolled, counters := k.counters, flash := k.flash, image := k.image, keys := k.keys, txMark := k.txMark,
             rxValue := k.rxValue, calOffset := k.calOffset, ledger := k.ledger, flashed := k.flashed, ledgerNext := k.ledgerNext,
             journalSector := k.journalSector, life := k.life, lifeNext := k.lifeNext, lifeWritten := k.lifeWritten, zoneBins := k.zoneBins,
             podBins := k.podBins, lifeSum := k.lifeSum, sectorAt := k.sectorAt, refreshing := k.refreshing, seconds := k.seconds } }

theorem Dev.word_renewed (d : Dev) (off : Nat) : d.renewed.word off = resetWord off := rfl

theorem Dev.rd_renewed (d : Dev) (f : Fd) (i : Nat) : d.renewed.rd f i = getBits (resetWord (f.off i 0)) f.lo f.width := rfl

theorem Dev.fenced_renewed (d : Dev) (kind index : Nat) : d.renewed.fenced kind index = false := rfl

/-- The words that a reset writes: its cause, and the counts that survive it. -/
def Dev.resetWords (n d : Dev) (cause : Nat) : Dev :=
  (((n.wr F.PWR_RESET_CAUSE_cause 0 cause).wr F.IMS_BOOT_count 0 d.boots).wr F.IMS_HOURS_hours 0 (d.rd F.IMS_HOURS_hours 0)).wr
    F.THM_LIFE 0 (d.rd F.THM_LIFE 0)

theorem Dev.deviceReset_eq (d : Dev) (cause : Nat) (aoi : Bool) : d.deviceReset cause aoi =
    if aoi then d.renewed.resetWords d cause else (d.renewed.resetWords d cause).keepAoi d := rfl

theorem Dev.resetWords_keeps (n d : Dev) (cause : Nat) :
    Keeps ⟨false, [F.PWR_RESET_CAUSE_cause, F.IMS_BOOT_count, F.IMS_HOURS_hours, F.THM_LIFE], []⟩ n (n.resetWords d cause) :=
  ((((Dev.wr_keeps _ _ _ _ (by decide)).within (by decide)).trans ((Dev.wr_keeps _ _ _ _ (by decide)).within (by decide))).trans
    ((Dev.wr_keeps _ _ _ _ (by decide)).within (by decide))).trans ((Dev.wr_keeps _ _ _ _ (by decide)).within (by decide))

theorem Dev.resetWords_shows (n d : Dev) {cause : Nat} (h : cause < 32) : (n.resetWords d cause).rd F.PWR_RESET_CAUSE_cause 0 = cause ∧
    (n.resetWords d cause).rd F.THM_LIFE 0 = d.rd F.THM_LIFE 0 := by
  refine ⟨?_, Dev.rd_wr_of_lt _ F.THM_LIFE _ (by decide) (getBits_lt ..)⟩
  rw [Dev.resetWords, Dev.rd_wr_apart _ F.PWR_RESET_CAUSE_cause F.THM_LIFE _ _ _ (by decide) (by decide),
    Dev.rd_wr_apart _ F.PWR_RESET_CAUSE_cause F.IMS_HOURS_hours _ _ _ (by decide) (by decide),
    Dev.rd_wr_apart _ F.PWR_RESET_CAUSE_cause F.IMS_BOOT_count _ _ _ (by decide) (by decide)]
  exact Dev.rd_wr_of_lt _ F.PWR_RESET_CAUSE_cause _ (by decide) h

/-- The registers that every reset writes, and those of the AOI island. -/
def resetRegs : List Fd := [F.PWR_RESET_CAUSE, F.IMS_BOOT, F.IMS_HOURS, F.THM_LIFE]

def aoiRegs : List Fd := [F.PWR_CAL_LO, F.PWR_CAL_HI, F.PWR_SLEEP_CFG, F.PWR_SLEEP_CTRL, F.PWR_WAKE_STAT]

theorem Dev.resetWords_word {n d : Dev} {cause off : Nat} (h : off ∉ resetRegs.map fun f => f.off 0 0) :
    (n.resetWords d cause).word off = n.word off := by
  simp only [resetRegs, List.map_cons, List.map_nil, List.mem_cons, List.not_mem_nil, or_false, not_or] at h
  obtain ⟨h1, h2, h3, h4⟩ := h
  rw [Dev.resetWords, Dev.word_wr_of_off_ne _ F.THM_LIFE _ _ h4, Dev.word_wr_of_off_ne _ F.IMS_HOURS_hours _ _ h3,
    Dev.word_wr_of_off_ne _ F.IMS_BOOT_count _ _ h2, Dev.word_wr_of_off_ne _ F.PWR_RESET_CAUSE_cause _ _ h1]

/-! ### What the AOI island keeps (R386, R391) -/

/-- The calendar and the island's fence. -/
def Dev.keepCalendar (n d : Dev) : Dev :=
  (n.wr64 F.PWR_CAL_LO F.PWR_CAL_HI 0 d.calendar).markFenced Kind.island 8 (d.fenced Kind.island 8)

/-- The sleep and wake registers. -/
def Dev.keepSleep (n d : Dev) : Dev :=
  ((n.wr F.PWR_SLEEP_CFG 0 (d.rd F.PWR_SLEEP_CFG 0)).wr F.PWR_SLEEP_CTRL_status 0 (d.rd F.PWR_SLEEP_CTRL_status 0)).wr F.PWR_WAKE_STAT 0
    (d.rd F.PWR_WAKE_STAT 0)

theorem Dev.keepAoi_eq (n d : Dev) : n.keepAoi d = (n.keepCalendar d).keepSleep d := rfl

theorem Dev.keepCalendar_keeps (n d : Dev) : Keeps ⟨false, [F.PWR_CAL_LO, F.PWR_CAL_HI], [.flt]⟩ n (n.keepCalendar d) :=
  ((Dev.wr64_keeps _ _ _ _ _ (by decide) (by decide)).within (by decide)).trans ((Dev.markFenced_keeps ..).within (by decide))

theorem Dev.keepSleep_keeps (n d : Dev) : Keeps ⟨false, [F.PWR_SLEEP_CFG, F.PWR_SLEEP_CTRL_status, F.PWR_WAKE_STAT], []⟩ n (n.keepSleep d) :=
  (((Dev.wr_keeps _ _ _ _ (by decide)).within (by decide)).trans ((Dev.wr_keeps _ _ _ _ (by decide)).within (by decide))).trans
    ((Dev.wr_keeps _ _ _ _ (by decide)).within (by decide))

theorem Dev.calendar_lt (d : Dev) : d.calendar < 2 ^ 64 := by
  have hlo : d.rd F.PWR_CAL_LO 0 < 2 ^ 32 := getBits_lt ..
  have hhi : d.rd F.PWR_CAL_HI 0 < 2 ^ 32 := getBits_lt ..
  rw [Dev.calendar, Dev.rd64]
  omega

theorem Dev.keepCalendar_shows (n d : Dev) : (n.keepCalendar d).rd64 F.PWR_CAL_LO F.PWR_CAL_HI 0 = d.calendar ∧
    ∀ kind index, index < 256 → (n.keepCalendar d).fenced kind index =
      if (kind, index) = (Kind.island, 8) then d.fenced Kind.island 8 else n.fenced kind index := by
  refine ⟨?_, fun kind index h => ?_⟩
  · rw [Dev.keepCalendar, (Dev.markFenced_keeps ..).rd64 _ _ 0 (by decide) (by decide),
      Dev.rd64_wr64 _ _ _ _ _ (by decide) (by decide) (by decide), Nat.mod_eq_of_lt d.calendar_lt]
  · have hplace : 256 * kind + index = 256 * Kind.island + 8 ↔ (kind, index) = (Kind.island, 8) := by
      rw [Prod.mk.injEq]
      omega
    rw [Dev.fenced, Dev.keepCalendar, Dev.markFenced]
    refine (Tbl.get_set ..).trans ?_
    simp only [hplace]
    rfl

theorem Dev.keepSleep_shows (n d : Dev) : let r := n.keepSleep d
    r.rd F.PWR_SLEEP_CFG 0 = d.rd F.PWR_SLEEP_CFG 0 ∧ r.rd F.PWR_SLEEP_CTRL_status 0 = d.rd F.PWR_SLEEP_CTRL_status 0 ∧
      r.rd F.PWR_WAKE_STAT 0 = d.rd F.PWR_WAKE_STAT 0 := by
  refine ⟨?_, ?_, Dev.rd_wr_of_lt _ F.PWR_WAKE_STAT _ (by decide) (getBits_lt ..)⟩
  · rw [Dev.keepSleep, Dev.rd_wr_apart _ F.PWR_SLEEP_CFG F.PWR_WAKE_STAT _ _ _ (by decide) (by decide),
      Dev.rd_wr_apart _ F.PWR_SLEEP_CFG F.PWR_SLEEP_CTRL_status _ _ _ (by decide) (by decide)]
    exact Dev.rd_wr_of_lt _ F.PWR_SLEEP_CFG _ (by decide) (getBits_lt ..)
  · rw [Dev.keepSleep, Dev.rd_wr_apart _ F.PWR_SLEEP_CTRL_status F.PWR_WAKE_STAT _ _ _ (by decide) (by decide)]
    exact Dev.rd_wr_of_lt _ F.PWR_SLEEP_CTRL_status _ (by decide) (getBits_lt ..)

theorem Dev.keepAoi_word {n d : Dev} {off : Nat} (h : off ∉ aoiRegs.map fun f => f.off 0 0) : (n.keepAoi d).word off = n.word off := by
  simp only [aoiRegs, List.map_cons, List.map_nil, List.mem_cons, List.not_mem_nil, or_false, not_or] at h
  obtain ⟨h1, h2, h3, h4, h5⟩ := h
  have hmark : ∀ e : Dev, (e.markFenced Kind.island 8 (d.fenced Kind.island 8)).word off = e.word off := fun _ => rfl
  rw [Dev.keepAoi_eq, Dev.keepSleep, Dev.word_wr_of_off_ne _ F.PWR_WAKE_STAT _ _ h5, Dev.word_wr_of_off_ne _ F.PWR_SLEEP_CTRL_status _ _ h4,
    Dev.word_wr_of_off_ne _ F.PWR_SLEEP_CFG _ _ h3, Dev.keepCalendar, hmark, Dev.wr64, Dev.word_wr_of_off_ne _ F.PWR_CAL_HI _ _ h2,
    Dev.word_wr_of_off_ne _ F.PWR_CAL_LO _ _ h1]

/-! ### What a reset leaves -/

/-- What of Imset outlasts every reset, and what does not (R350). -/
def Dev.SecOutlasts (d n : Dev) : Prop :=
  n.sec.counters = d.sec.counters ∧ n.sec.enrolled = d.sec.enrolled ∧ n.sec.flash = d.sec.flash ∧ n.sec.ledger = d.sec.ledger ∧
    n.sec.life = d.sec.life ∧ n.sec.qpSession = none ∧ n.sec.uartSession = none

theorem Dev.secOutlasts_of_renewed {d n : Dev} (h : n.sec = d.renewed.sec) : d.SecOutlasts n := by
  rw [Dev.SecOutlasts, h]
  exact ⟨rfl, rfl, rfl, rfl, rfl, rfl, rfl⟩

/-- What every reset leaves, whatever becomes of the AOI island. -/
theorem Dev.resetWords_renewed (d : Dev) {cause : Nat} (h : cause < 32) : let n := d.renewed.resetWords d cause
    n.pw = d.renewed.pw ∧ n.clockOn = false ∧ n.time = 0 ∧ n.devState = DevSt.boot ∧ n.rd F.PWR_RESET_CAUSE_cause 0 = cause ∧
      d.SecOutlasts n ∧ n.rd F.THM_LIFE 0 = d.rd F.THM_LIFE 0 ∧ (∀ kind index, n.fenced kind index = false) ∧
      n.rd64 F.PWR_CAL_LO F.PWR_CAL_HI 0 = 0 ∧ n.flag F.PWR_SLEEP_CTRL_enter 0 = false := by
  have hk := d.renewed.resetWords_keeps d cause
  obtain ⟨hcause, hlife⟩ := d.renewed.resetWords_shows d h
  dsimp only
  refine ⟨rfl, rfl, rfl, ?_, hcause, Dev.secOutlasts_of_renewed (hk.parts .sec (by decide)), hlife, fun kind index => rfl, ?_, ?_⟩
  · rw [Dev.devState, hk.rd F.DEV_STATE_state 0 (by decide), Dev.rd_renewed]
    decide
  · rw [hk.rd64 _ _ 0 (by decide) (by decide), Dev.rd64, Dev.rd_renewed, Dev.rd_renewed]
    decide
  · rw [hk.flag F.PWR_SLEEP_CTRL_enter 0 (by decide), Dev.flag, Dev.rd_renewed]
    decide

/-- What a reset keeps of the AOI island: nothing where it resets the island too, and its registers and fence else. -/
def Dev.AoiAfter (d n : Dev) (aoi : Bool) : Prop :=
  (aoi = true → n.rd64 F.PWR_CAL_LO F.PWR_CAL_HI 0 = 0 ∧ n.fenced Kind.island 8 = false) ∧
    (aoi = false → n.rd64 F.PWR_CAL_LO F.PWR_CAL_HI 0 = d.calendar ∧ n.fenced Kind.island 8 = d.fenced Kind.island 8 ∧
      n.rd F.PWR_SLEEP_CFG 0 = d.rd F.PWR_SLEEP_CFG 0 ∧ n.rd F.PWR_SLEEP_CTRL_status 0 = d.rd F.PWR_SLEEP_CTRL_status 0 ∧
      n.flag F.PWR_SLEEP_CTRL_enter 0 = false ∧ n.rd F.PWR_WAKE_STAT 0 = d.rd F.PWR_WAKE_STAT 0)

/-- The whole of a reset. -/
theorem Dev.deviceReset_shows (d : Dev) {cause : Nat} (h : cause < 32) (aoi : Bool) : let n := d.deviceReset cause aoi
    n.pw = d.renewed.pw ∧ n.clockOn = false ∧ n.time = 0 ∧ n.devState = DevSt.boot ∧ n.rd F.PWR_RESET_CAUSE_cause 0 = cause ∧
      d.SecOutlasts n ∧ n.rd F.THM_LIFE 0 = d.rd F.THM_LIFE 0 ∧
      (∀ kind index, index < 256 → (kind, index) ≠ (Kind.island, 8) → n.fenced kind index = false) ∧ d.AoiAfter n aoi ∧
      ∀ off, off ∉ (resetRegs ++ if aoi then [] else aoiRegs).map (fun f => f.off 0 0) → n.word off = resetWord off := by
  obtain ⟨hpw, hclock, htime, hstate, hcause, hsec, hlife, hfence, hcal, henter⟩ := d.resetWords_renewed h
  dsimp only
  rw [Dev.deviceReset_eq]
  cases aoi
  case true =>
    rw [if_pos rfl]
    have haoi : d.AoiAfter (d.renewed.resetWords d cause) true := ⟨fun _ => ⟨hcal, hfence _ _⟩, fun hfalse => absurd hfalse (by decide)⟩
    refine ⟨hpw, hclock, htime, hstate, hcause, hsec, hlife, fun kind index _ _ => hfence kind index, haoi, fun off hoff => ?_⟩
    rw [if_pos rfl, List.append_nil] at hoff
    rw [Dev.resetWords_word hoff, Dev.word_renewed]
  case false =>
    rw [if_neg (by decide), Dev.keepAoi_eq]
    set e := d.renewed.resetWords d cause with he
    have hkc := e.keepCalendar_keeps d
    have hks := (e.keepCalendar d).keepSleep_keeps d
    obtain ⟨hcalendar, hmark⟩ := e.keepCalendar_shows d
    obtain ⟨hcfg, hstatus, hwake⟩ := (e.keepCalendar d).keepSleep_shows d
    have hfenced : ∀ kind index, index < 256 → ((e.keepCalendar d).keepSleep d).fenced kind index =
        if (kind, index) = (Kind.island, 8) then d.fenced Kind.island 8 else e.fenced kind index := fun kind index hi =>
      (Dev.fenced_congr (hks.parts .flt (by decide)) ..).trans (hmark kind index hi)
    refine ⟨?_, ?_, ?_, ?_, ?_, ?_, ?_, fun kind index hi hne => ?_, ⟨fun htrue => absurd htrue (by decide), fun _ => ⟨?_, ?_, hcfg, hstatus, ?_, hwake⟩⟩,
      fun off hoff => ?_⟩
    · exact (hks.parts .pw (by decide)).trans ((hkc.parts .pw (by decide)).trans hpw)
    · exact (hks.parts .clock (by decide)).trans ((hkc.parts .clock (by decide)).trans hclock)
    · rw [hks.time, hkc.time, htime]
    · rw [Dev.devState, hks.rd F.DEV_STATE_state 0 (by decide), hkc.rd F.DEV_STATE_state 0 (by decide), ← Dev.devState, hstate]
    · rw [hks.rd F.PWR_RESET_CAUSE_cause 0 (by decide), hkc.rd F.PWR_RESET_CAUSE_cause 0 (by decide), hcause]
    · rw [Dev.SecOutlasts, show ((e.keepCalendar d).keepSleep d).sec = e.sec from
        (hks.parts .sec (by decide)).trans (hkc.parts .sec (by decide))]
      exact hsec
    · rw [hks.rd F.THM_LIFE 0 (by decide), hkc.rd F.THM_LIFE 0 (by decide), hlife]
    · rw [hfenced kind index hi, if_neg hne, hfence]
    · rw [hks.rd64 _ _ 0 (by decide) (by decide), hcalendar]
    · rw [hfenced _ _ (by decide), if_pos rfl]
    · rw [hks.flag F.PWR_SLEEP_CTRL_enter 0 (by decide), hkc.flag F.PWR_SLEEP_CTRL_enter 0 (by decide), henter]
    · rw [if_neg (by decide), List.map_append, List.mem_append, not_or] at hoff
      rw [← Dev.keepAoi_eq, Dev.keepAoi_word hoff.2, Dev.resetWords_word hoff.1, Dev.word_renewed]

/-! ### A reset that ends a sleep (R391) -/

/-- The device with the seconds slept in its calendar. -/
def Dev.sleptTo (d : Dev) (t : Nat) : Dev := if d.pw.asleep then d.countSlept (t - d.time) else d

theorem Dev.resetBy_eq (d : Dev) (t cause : Nat) (aoi : Bool) : d.resetBy t cause aoi = (d.sleptTo t).deviceReset cause aoi := rfl

theorem Dev.sleptTo_keeps (d : Dev) (t : Nat) : Keeps ⟨false, [F.PWR_CAL_LO, F.PWR_CAL_HI], []⟩ d (d.sleptTo t) := by
  unfold Dev.sleptTo Dev.countSlept
  exact .ite (fun _ => .ite (fun _ => .refl _ _) fun _ => Dev.wr64_keeps _ _ _ _ _ (by decide) (by decide)) fun _ => .refl _ _

theorem Dev.sleptTo_calendar (d : Dev) (t : Nat) : (d.sleptTo t).calendar =
    (d.calendar + if d.pw.asleep = true ∧ d.fenced Kind.island 8 = false then (t - d.time) / 800000000 else 0) % 2 ^ 64 := by
  have hsame : d.calendar = (d.calendar + 0) % 2 ^ 64 := (Nat.mod_eq_of_lt d.calendar_lt).symm
  unfold Dev.sleptTo Dev.countSlept
  cases d.pw.asleep
  · simpa using hsame
  · cases d.fenced Kind.island 8
    · rw [if_pos rfl, if_neg (by decide), if_pos ⟨rfl, rfl⟩]
      exact Dev.rd64_wr64 _ _ _ _ _ (by decide) (by decide) (by decide)
    · simpa using hsame

/-- What every reset of R386 leaves of a device, `slept` being the seconds that it adds to the calendar. -/
theorem Dev.reset_renews {d e n : Dev} {cause slept : Nat} (hk : Keeps ⟨false, [F.PWR_CAL_LO, F.PWR_CAL_HI], []⟩ d e)
    (hcal : e.calendar = (d.calendar + slept) % 2 ^ 64) (h : cause < 32) (hn : n = e.deviceReset cause (decide (cause = 1))) :
    n.pw.held = true ∧ n.clockOn = false ∧ n.time = 0 ∧ n.devState = DevSt.boot ∧ n.rd F.PWR_RESET_CAUSE_cause 0 = cause ∧
        n.pw.asleep = false ∧ n.pw.entering = false ∧
        n.sec.counters = d.sec.counters ∧ n.sec.enrolled = d.sec.enrolled ∧ n.sec.flash = d.sec.flash ∧ n.sec.ledger = d.sec.ledger ∧
        n.sec.life = d.sec.life ∧ n.sec.qpSession = none ∧ n.sec.uartSession = none ∧
        n.rd F.THM_LIFE 0 = d.rd F.THM_LIFE 0 ∧
        (∀ kind index, index < 256 → (kind, index) ≠ (Kind.island, 8) → n.fenced kind index = false) ∧
        (cause = 1 → n.rd64 F.PWR_CAL_LO F.PWR_CAL_HI 0 = 0 ∧ n.fenced Kind.island 8 = false) ∧
        (cause ≠ 1 → n.rd64 F.PWR_CAL_LO F.PWR_CAL_HI 0 = (d.calendar + slept) % 2 ^ 64 ∧ n.fenced Kind.island 8 = d.fenced Kind.island 8 ∧
          n.rd F.PWR_SLEEP_CFG 0 = d.rd F.PWR_SLEEP_CFG 0 ∧ n.rd F.PWR_SLEEP_CTRL_status 0 = d.rd F.PWR_SLEEP_CTRL_status 0 ∧
          n.flag F.PWR_SLEEP_CTRL_enter 0 = false ∧ n.rd F.PWR_WAKE_STAT 0 = d.rd F.PWR_WAKE_STAT 0) ∧
        ∀ off, off ∉ (resetRegs ++ if cause = 1 then [] else aoiRegs).map (fun f => f.off 0 0) → n.word off = resetWord off := by
  obtain ⟨hpw, hclock, htime, hstate, hcause, hsec, hlife, hfence, ⟨hlost, hkept⟩, hword⟩ := e.deviceReset_shows h (decide (cause = 1))
  rw [← hn] at hpw hclock htime hstate hcause hsec hlife hfence hlost hkept hword
  obtain ⟨s1, s2, s3, s4, s5, s6, s7⟩ := hsec
  have hs : e.sec = d.sec := hk.parts .sec (by decide)
  rw [hs] at s1 s2 s3 s4 s5
  rw [hk.rd F.THM_LIFE 0 (by decide)] at hlife
  rw [hcal, Dev.fenced_congr (hk.parts .flt (by decide)), hk.rd F.PWR_SLEEP_CFG 0 (by decide), hk.rd F.PWR_SLEEP_CTRL_status 0 (by decide),
    hk.rd F.PWR_WAKE_STAT 0 (by decide)] at hkept
  refine ⟨by rw [hpw]; rfl, hclock, htime, hstate, hcause, by rw [hpw]; rfl, by rw [hpw]; rfl, s1, s2, s3, s4, s5, s6, s7, hlife, hfence,
    fun h1 => hlost (decide_eq_true h1), fun h1 => hkept (decide_eq_false h1), fun off hoff => hword off ?_⟩
  simpa only [decide_eq_true_eq] using hoff

/-! ### The safe-state watchdog (R387) -/

/-- Its delay starts anew at instant `now`. -/
def Dev.safeRestart (d : Dev) (now : Nat) : Dev := d.onPw fun p => { p with safeFrom := now }

/-- What the watchdog does at its end. -/
def Dev.safeExpiry (d : Dev) (t : Nat) : Dev :=
  if d.devState = DevSt.safe ∧ d.flag F.PWR_SAFE_WDOG_enable 0 = true ∧ d.safeDue ≤ max d.time t then
    if d.anyLowOn then d.safeRestart (max d.time t) else d.deviceReset 16 false
  else d

theorem execSafeWdogExpiry_eq (s : State) (t : Nat) : exec (.safeWdogExpiry t) s = effect t s fun d => d.safeExpiry t := rfl

theorem Dev.safeExpiry_of_due {d : Dev} {t : Nat} (hsafe : d.devState = DevSt.safe) (hon : d.flag F.PWR_SAFE_WDOG_enable 0 = true)
    (hdue : d.safeDue ≤ max d.time t) :
    d.safeExpiry t = if d.anyLowOn then d.safeRestart (max d.time t) else d.deviceReset 16 false := if_pos ⟨hsafe, hon, hdue⟩

/-- Each cause of R386 resets the device as it is, or with the seconds of the sleep that it ends. -/
theorem reset_of_cause {s : State} {t cause : Nat} {c : Instr}
    (hc : (c = .powerOnReset t ∧ cause = 1) ∨ (c = .brownOutReset t ∧ cause = 2) ∨ (c = .railReset t ∧ cause = 4) ∨ (c = .resetN t ∧ cause = 8) ∨
      (c = .safeWdogExpiry t ∧ cause = 16 ∧ (s.now t).devState = DevSt.safe ∧ (s.now t).flag F.PWR_SAFE_WDOG_enable 0 = true ∧
        (s.now t).safeDue ≤ max (s.now t).time t ∧ (s.now t).anyLowOn = false)) :
    ∃ e, exec c s = .next { s with toDev := e.deviceReset cause (decide (cause = 1)) } ∧
      Keeps ⟨false, [F.PWR_CAL_LO, F.PWR_CAL_HI], []⟩ (s.now t) e ∧
      e.calendar = ((s.now t).calendar + if (s.now t).pw.asleep = true ∧ cause ≠ 16 ∧ (s.now t).fenced Kind.island 8 = false then
        (t - (s.now t).time) / 800000000 else 0) % 2 ^ 64 ∧ cause < 32 := by
  have hk := (s.now t).sleptTo_keeps t
  have hcal := (s.now t).sleptTo_calendar t
  rcases hc with ⟨rfl, rfl⟩ | ⟨rfl, rfl⟩ | ⟨rfl, rfl⟩ | ⟨rfl, rfl⟩ | ⟨rfl, rfl, hsafe, hon, hdue, hlow⟩
  · exact ⟨(s.now t).sleptTo t, rfl, hk, by simpa using hcal, by decide⟩
  · exact ⟨(s.now t).sleptTo t, rfl, hk, by simpa using hcal, by decide⟩
  · exact ⟨(s.now t).sleptTo t, rfl, hk, by simpa using hcal, by decide⟩
  · exact ⟨(s.now t).sleptTo t, rfl, hk, by simpa using hcal, by decide⟩
  · refine ⟨s.now t, ?_, .refl _ _, ?_, by decide⟩
    · rw [execSafeWdogExpiry_eq, effect, ← State.now, Dev.safeExpiry_of_due hsafe hon hdue, hlow]
      rfl
    · rw [if_neg fun ⟨_, hne, _⟩ => hne rfl]
      exact (Nat.mod_eq_of_lt (s.now t).calendar_lt).symm

/-- Settles O46: the reset's record first, then the words that it writes, then what the AOI island keeps. -/
theorem resetsRenew : Obligations.ResetsRenew := by
  unfold Obligations.ResetsRenew
  intro s t c cause d cal slept aoi
  refine ⟨?reset, ?lowOn, ?none⟩
  case reset =>
    intro hc
    obtain ⟨e, hexec, hk, hcal, hlt⟩ := reset_of_cause hc
    exact ⟨_, hexec, Dev.reset_renews hk hcal hlt rfl⟩
  case lowOn =>
    intro hsafe hon hdue hlow
    refine Does.of_effect (execSafeWdogExpiry_eq s t) ?_
    rw [show s.now t = d from rfl, Dev.safeExpiry_of_due hsafe hon hdue, if_pos hlow]
    exact ⟨rfl, hsafe, rfl⟩
  case none =>
    intro hnone
    refine Does.of_effect (execSafeWdogExpiry_eq s t) (if_neg ?_)
    rintro ⟨hsafe, hon, hdue⟩
    rcases hnone with h | h | h
    · exact h hsafe
    · rw [hon] at h
      cases h
    · exact absurd h (not_lt.mpr hdue)

end Sys2Proof.Machine
end

section
/-! Position ports: what a port carries, its count, and what an ILLEGAL event, a measurement and a broken line do (R127, R129, R134). -/

namespace Sys2Proof.Machine

/-! ### What a port carries -/

theorem Dev.pos_setPos (d : Dev) (i k : Nat) (v : PosT) : (d.setPos i v).pos k = if k = i then v else d.pos k := Tbl.get_set ..

theorem Dev.pos_setPos_self (d : Dev) (i : Nat) (v : PosT) : (d.setPos i v).pos i = v := by rw [Dev.pos_setPos, if_pos rfl]

theorem Dev.pos_onPos (d : Dev) (i : Nat) (f : PosT → PosT) : (d.onPos i f).pos i = f (d.pos i) := d.pos_setPos_self ..

theorem Keeps.pos {w : Foot} {d e : Dev} (hk : Keeps w d e) (hp : Part.ps ∉ w.parts) (i : Nat) : e.pos i = d.pos i := by
  rw [Dev.pos, Dev.pos, hk.parts .ps hp]

theorem Keeps.rdI64 {w : Foot} {d e : Dev} (hk : Keeps w d e) (lo hi : Fd) (i : Nat) (hlo : w.avoids lo = true) (hhi : w.avoids hi = true) :
    e.rdI64 lo hi i = d.rdI64 lo hi i := by
  rw [Dev.rdI64, Dev.rdI64, hk.rd64 lo hi i hlo hhi]

theorem Keeps.count {w : Foot} {d e : Dev} (hk : Keeps w d e) (hlo : w.avoids F.PS_CNT_LO = true) (hhi : w.avoids F.PS_CNT_HI = true) (i : Nat) :
    e.count i = d.count i := hk.rdI64 _ _ i hlo hhi

/-- What a port claims rests on these fields. -/
def claimFields : List Fd := [F.PS_CFG_enable, F.PS_CFG_mode, F.PS_SSI_RUN_start, F.PS_SSI_RUN_trigger]

theorem Keeps.psWatches {w : Foot} {d e : Dev} (hk : Keeps w d e) (hw : claimFields.all w.avoids = true) (hp : Part.sys ∉ w.parts) (i : Nat) :
    e.psWatches i = d.psWatches i := by
  simp only [claimFields, List.all_cons, List.all_nil, Bool.and_true, Bool.and_eq_true] at hw
  obtain ⟨henable, hmode, hstart, htrigger⟩ := hw
  have hsys : e.sys = d.sys := hk.parts .sys hp
  simp only [Dev.psWatches, Dev.holds, Dev.holderOf, Dev.posSelects, hk.flag _ _ henable, hk.rd _ _ hmode, hk.rd _ _ hstart,
    hk.rd _ _ htrigger, hsys]

theorem Dev.psOn_eq (d : Dev) (i : Nat) : d.psOn i = (d.psWatches i && !d.fenced Kind.posPort i) := by
  rw [Dev.psOn, Dev.psWatches, Bool.and_right_comm]

theorem Keeps.psOn {w : Foot} {d e : Dev} (hk : Keeps w d e) (hw : claimFields.all w.avoids = true) (hp : Part.sys ∉ w.parts)
    (hf : ∀ i, e.fenced Kind.posPort i = d.fenced Kind.posPort i) (i : Nat) : e.psOn i = d.psOn i := by
  rw [Dev.psOn_eq, Dev.psOn_eq, hk.psWatches hw hp, hf]

theorem Dev.psOn_iff {d : Dev} {i : Nat} : d.psOn i = true ↔ d.psWatches i = true ∧ d.fenced Kind.posPort i = false := by
  rw [Dev.psOn_eq, Bool.and_eq_true, Bool.not_eq_true']

/-- Which causes break a measurement is a matter of the port's mode (R127). -/
theorem Dev.measBroken_congr {d e : Dev} {i : Nat} (hmode : e.psMode i = d.psMode i) (hbroken : (e.pos i).broken = (d.pos i).broken) :
    e.measBroken i = d.measBroken i := by
  have hbreaks : e.breaks i = d.breaks i := by
    funext c
    rw [Dev.breaks, Dev.breaks, hmode]
  rw [Dev.measBroken, Dev.measBroken, hbreaks, hbroken]

/-! ### ILLEGAL events (R129) -/

/-- A port after an ILLEGAL event of its measurement. -/
def PosT.illegal (v : PosT) : PosT := { v with ill := true, edge := none, meas := none, illLatch := true, winCnt := v.winCnt + 1 }

/-- The registers of an ILLEGAL event. -/
def Dev.showIllegal (d : Dev) (i n : Nat) : Dev :=
  (((d.put F.PS_STAT_illegal i true).bump F.PS_ILL_CNT_total i).wr F.PS_ILL_CNT_window i (min n 255)).report Kind.posPort i Cls.report
    Code.ILLEGAL n

def Dev.countIll (d : Dev) (i : Nat) : Dev := d.onPos i fun v => { v with illLatch := true, winCnt := v.winCnt + 1 }

theorem Dev.countIllegal_eq (d : Dev) (i : Nat) : d.countIllegal i =
    if ((d.countIll i).showIllegal i ((d.pos i).winCnt + 1)).rd F.PS_ILL_CFG_ill_limit i < (d.pos i).winCnt + 1 then
      ((d.countIll i).showIllegal i ((d.pos i).winCnt + 1)).fencePos i Code.ILLEGAL 0
    else (d.countIll i).showIllegal i ((d.pos i).winCnt + 1) := rfl

theorem Dev.showIllegal_keeps (d : Dev) (i n : Nat) :
    Keeps ⟨false, [F.PS_STAT_illegal, F.PS_ILL_CNT_total, F.PS_ILL_CNT_window, F.FLT_STAT_lost, F.FLT_LOST], [.flt]⟩ d (d.showIllegal i n) :=
  ((((Dev.put_keeps _ F.PS_STAT_illegal _ _ (by decide)).within (by decide)).trans
    ((Dev.bump_keeps _ F.PS_ILL_CNT_total _ (by decide)).within (by decide))).trans
    ((Dev.wr_keeps _ F.PS_ILL_CNT_window _ _ (by decide)).within (by decide))).trans ((Dev.report_keeps ..).within (by decide))

theorem Dev.showIllegal_shows (d : Dev) (i n : Nat) : let r := d.showIllegal i n
    r.flag F.PS_STAT_illegal i = true ∧ r.rd F.PS_ILL_CNT_total i = min (d.rd F.PS_ILL_CNT_total i + 1) (2 ^ F.PS_ILL_CNT_total.width - 1) ∧
      r.rd F.PS_ILL_CNT_window i = min n 255 ∧ ∀ k, r.fenced Kind.posPort k = d.fenced Kind.posPort k := by
  set e := d.put F.PS_STAT_illegal i true with he
  have hput : Keeps ⟨false, [F.PS_STAT_illegal], []⟩ d e := Dev.put_keeps _ _ _ _ (by decide)
  have hbump := e.bump_keeps F.PS_ILL_CNT_total i (by decide)
  have hwr := (e.bump F.PS_ILL_CNT_total i).wr_keeps F.PS_ILL_CNT_window i (min n 255) (by decide)
  have hreport := ((e.bump F.PS_ILL_CNT_total i).wr F.PS_ILL_CNT_window i (min n 255)).report_keeps Kind.posPort i Cls.report Code.ILLEGAL n 0
  have hgo : d.showIllegal i n = ((e.bump F.PS_ILL_CNT_total i).wr F.PS_ILL_CNT_window i (min n 255)).report Kind.posPort i Cls.report
      Code.ILLEGAL n := rfl
  dsimp only
  rw [hgo]
  refine ⟨?_, ?_, ?_, fun k => ?_⟩
  · rw [hreport.flag F.PS_STAT_illegal i (by decide), hwr.flag F.PS_STAT_illegal i (by decide), hbump.flag F.PS_STAT_illegal i (by decide)]
    exact Dev.flag_put _ F.PS_STAT_illegal _ _ (by decide) rfl
  · rw [hreport.rd F.PS_ILL_CNT_total i (by decide), hwr.rd F.PS_ILL_CNT_total i (by decide), Dev.rd_bump _ _ _ (by decide),
      hput.rd F.PS_ILL_CNT_total i (by decide)]
  · rw [hreport.rd F.PS_ILL_CNT_window i (by decide)]
    exact Dev.rd_wr_of_lt _ F.PS_ILL_CNT_window _ (by decide) (by simp only [F.PS_ILL_CNT_window]; omega)
  · rw [(Dev.report_reportsOnly ..).fenced, Dev.fenced_congr (hwr.parts .flt (by decide)), Dev.fenced_congr (hbump.parts .flt (by decide)),
      Dev.fenced_congr (hput.parts .flt (by decide))]

/-- A fence of a port leaves what the port carries. -/
theorem Dev.fencePos_pos (d : Dev) (i cause sub : Nat) (named k : Nat) : (d.fencePos i cause sub named).pos k = d.pos k :=
  (d.fencePos_keeps i cause sub named).pos (by decide) k

theorem Dev.countIllegal_pos (d : Dev) (i : Nat) : (d.countIllegal i).pos i = { d.pos i with illLatch := true, winCnt := (d.pos i).winCnt + 1 } := by
  have hshow : ((d.countIll i).showIllegal i ((d.pos i).winCnt + 1)).pos i = { d.pos i with illLatch := true, winCnt := (d.pos i).winCnt + 1 } :=
    ((Dev.showIllegal_keeps ..).pos (by decide) i).trans (d.pos_onPos i _)
  rw [Dev.countIllegal_eq]
  split
  · rw [Dev.fencePos_pos, hshow]
  · exact hshow

theorem Dev.countIllegal_flag (d : Dev) (i : Nat) : (d.countIllegal i).flag F.PS_STAT_illegal i = true := by
  obtain ⟨hflag, -⟩ := (d.countIll i).showIllegal_shows i ((d.pos i).winCnt + 1)
  rw [Dev.countIllegal_eq]
  split
  · rw [(Dev.fencePos_keeps ..).flag F.PS_STAT_illegal i (by decide), hflag]
  · exact hflag

theorem Dev.illegal_pos (d : Dev) (i : Nat) : (d.illegal i).pos i = (d.pos i).illegal := by
  rw [Dev.illegal, Dev.countIllegal_pos, Dev.pos_onPos]
  rfl

theorem Dev.illegal_flag (d : Dev) (i : Nat) : (d.illegal i).flag F.PS_STAT_illegal i = true := Dev.countIllegal_flag ..

theorem Dev.illegal_count (d : Dev) (i k : Nat) : (d.illegal i).count k = d.count k := (d.illegal_keeps i).count (by decide) (by decide) k

/-! ### Measurements (R134, R136, R139) -/

/-- What of a port a measurement leaves: its SSI read and its broken lines. -/
structure PosT.SameRead (q r : PosT) : Prop where
  busy : r.ssiBusy = q.ssiBusy
  ready : r.ssiReady = q.ssiReady
  stamp : r.ssiStamp = q.ssiStamp
  broken : r.broken = q.broken

theorem Dev.seedObserver_pos (d : Dev) (i : Nat) (x : Rat) : (d.pos i).SameRead ((d.seedObserver i x).pos i) ∧
    ((d.seedObserver i x).pos i).lastMeas = (d.pos i).lastMeas ∧ ((d.seedObserver i x).pos i).seeded = true := by
  have hshow : (d.seedObserver i x).pos i = _ :=
    ((Dev.showObserver_keeps ..).pos (by decide) i).trans (((Dev.put_keeps _ F.PS_STAT_locked i false (by decide)).pos (by decide) i).trans
      (d.pos_onPos i _))
  rw [hshow]
  exact ⟨⟨rfl, rfl, rfl, rfl⟩, rfl, rfl⟩

/-- The count that a measurement gives. -/
def Dev.measuredMove (d : Dev) (i raw span : Nat) : Int :=
  let m := ((raw : Int) - (d.pos i).lastMeas) % span
  if (span : Int) ≤ 2 * m then m - span else m

/-- A measurement that is taken. -/
def Dev.takeMeas (d : Dev) (i raw span stamp : Nat) : Dev :=
  (d.setPos i { d.pos i with lastMeas := raw, meas := if d.measBroken i then none else some (d.count i + d.measuredMove i raw span, stamp) }).moveCount
    i (d.measuredMove i raw span) stamp

theorem Dev.measured_eq (d : Dev) (i raw span stamp : Nat) : d.measured i raw span stamp =
    if d.jumps i (d.count i + d.measuredMove i raw span) stamp then d.illegal i
    else if (d.pos i).seeded || d.measBroken i then d.takeMeas i raw span stamp
    else (d.takeMeas i raw span stamp).seedObserver i ((d.count i + d.measuredMove i raw span : Int) : Rat) := rfl

theorem Dev.takeMeas_pos (d : Dev) (i raw span stamp : Nat) : (d.pos i).SameRead ((d.takeMeas i raw span stamp).pos i) ∧
    ((d.takeMeas i raw span stamp).pos i).lastMeas = raw ∧ ((d.takeMeas i raw span stamp).pos i).seeded = (d.pos i).seeded := by
  have hpos : (d.takeMeas i raw span stamp).pos i = _ := ((Dev.moveCount_keeps ..).pos (by decide) i).trans (d.pos_setPos_self i _)
  rw [hpos]
  exact ⟨⟨rfl, rfl, rfl, rfl⟩, rfl, rfl⟩

theorem PosT.SameRead.trans {q r u : PosT} (h : q.SameRead r) (k : r.SameRead u) : q.SameRead u :=
  ⟨k.busy.trans h.busy, k.ready.trans h.ready, k.stamp.trans h.stamp, k.broken.trans h.broken⟩

theorem Dev.measured_sameRead (d : Dev) (i raw span stamp : Nat) : (d.pos i).SameRead ((d.measured i raw span stamp).pos i) := by
  rw [Dev.measured_eq]
  split
  · rw [Dev.illegal_pos]
    exact ⟨rfl, rfl, rfl, rfl⟩
  · split
    · exact (d.takeMeas_pos i raw span stamp).1
    · exact (d.takeMeas_pos i raw span stamp).1.trans (Dev.seedObserver_pos ..).1

/-- The first measurement is always taken, and seeds the observer where nothing of it is broken (R139). -/
theorem Dev.measured_first {d : Dev} {i : Nat} (raw span stamp : Nat) (h : (d.pos i).seeded = false) :
    ((d.measured i raw span stamp).pos i).lastMeas = raw ∧ ((d.measured i raw span stamp).pos i).seeded = !d.measBroken i := by
  obtain ⟨-, hlast, hseeded⟩ := d.takeMeas_pos i raw span stamp
  have hjump : d.jumps i (d.count i + d.measuredMove i raw span) stamp = false := by
    rw [Dev.jumps, h, Bool.false_and]
  rw [Dev.measured_eq, hjump, if_neg (by decide), h, Bool.false_or]
  cases hb : d.measBroken i
  · obtain ⟨-, hlast', hseeded'⟩ := (d.takeMeas i raw span stamp).seedObserver_pos i ((d.count i + d.measuredMove i raw span : Int) : Rat)
    rw [if_neg (by decide)]
    exact ⟨hlast'.trans hlast, hseeded'⟩
  · rw [if_pos rfl]
    exact ⟨hlast, hseeded.trans h⟩

/-! ### Broken lines (R127) -/

theorem Dev.breakLine_broken (d : Dev) (i cause : Nat) : cause ∈ ((d.breakLine i cause).pos i).broken := by
  unfold Dev.breakLine
  dsimp only
  split
  next h => exact List.contains_iff_mem.mp h
  next =>
    have hpos : ∀ e : Dev, ((e.report Kind.posPort i Cls.report Code.BROKEN cause).pos i) = e.pos i := fun e =>
      (e.report_keeps ..).pos (by decide) i
    rw [hpos, (Dev.put_keeps _ F.PS_STAT_broken i _ (by decide)).pos (by decide), (Dev.put_keeps _ F.PS_STAT_broken_live i _ (by decide)).pos (by decide),
      Dev.pos_setPos_self]
    exact List.mem_append_right _ (.head _)

theorem Dev.mendLine_pos (d : Dev) (i cause : Nat) : (d.mendLine i cause).pos i = { d.pos i with broken := (d.pos i).broken.erase cause } := by
  rw [Dev.mendLine, (Dev.put_keeps _ F.PS_STAT_broken_live i _ (by decide)).pos (by decide), Dev.pos_setPos_self]

end Sys2Proof.Machine
end

section
/-! SSI reads and resolver envelopes (R133, R134, R136); obligation O13. -/

namespace Sys2Proof.Machine

/-! ### An SSI read starts (R133) -/

theorem Dev.ssiStart_shows (d : Dev) (i : Nat) : let v := d.pos i; let n := d.ssiStart i
    (v.ssiBusy = false → v.ssiReady ≤ d.time → (n.pos i).ssiBusy = true ∧ (n.pos i).ssiStamp = d.time) ∧
      (v.ssiBusy = true ∨ d.time < v.ssiReady → n.flag F.PS_STAT_overrun i = true ∧ (n.pos i).ssiBusy = v.ssiBusy ∧
        (n.pos i).ssiStamp = v.ssiStamp) ∧ (n.pos i).ssiDue = v.ssiDue := by
  have hiff : ((d.pos i).ssiBusy || Nat.blt d.time (d.pos i).ssiReady) = true ↔ (d.pos i).ssiBusy = true ∨ d.time < (d.pos i).ssiReady := by
    rw [Bool.or_eq_true, Nat.blt_eq]
  unfold Dev.ssiStart
  dsimp only
  split
  next h =>
    rw [(Dev.put_keeps _ F.PS_STAT_overrun i true (by decide)).pos (by decide), Dev.pos_setPos_self]
    refine ⟨fun hb hr => ?_, fun _ => ⟨Dev.flag_put _ F.PS_STAT_overrun _ _ (by decide) rfl, rfl, rfl⟩, rfl⟩
    rcases hiff.mp h with hbusy | hlt
    · rw [hb] at hbusy
      cases hbusy
    · omega
  next h =>
    rw [Dev.pos_setPos_self]
    exact ⟨fun _ _ => ⟨rfl, rfl⟩, fun hor => absurd (hiff.mpr hor) h, rfl⟩

/-- A read that a period or a firing has started: what becomes of its port but for its next period. -/
theorem Dev.ssiPeriod_shows (d : Dev) (i due : Nat) :
    let e := d.ssiStart i; let n := e.onPos i fun v => { v with ssiDue := due }
    (n.pos i).ssiBusy = (e.pos i).ssiBusy ∧ (n.pos i).ssiStamp = (e.pos i).ssiStamp ∧ (n.pos i).ssiDue = due ∧
      n.flag F.PS_STAT_overrun i = e.flag F.PS_STAT_overrun i := by
  dsimp only
  rw [Dev.pos_onPos]
  exact ⟨rfl, rfl, rfl, (Dev.onPos_keeps ..).flag F.PS_STAT_overrun i (by decide)⟩

/-- The port that a firing's read finds is as it was. -/
theorem Dev.takeFiring_pos {d e : Dev} {u stamp i : Nat} (h : d.takeFiring u = some (stamp, e)) : e.pos i = d.pos i ∧ e.time = d.time := by
  have hk := d.takeFiring_keeps e u stamp h
  exact ⟨hk.pos (by decide) i, hk.time⟩

/-! ### A frame ends (R133, R134) -/

/-- The port after its frame. -/
def Dev.endFrame (d : Dev) (i : Nat) : Dev :=
  d.setPos i { d.pos i with ssiBusy := false, ssiReady := d.time + 800 * d.rd F.PS_SSI_TIM_recovery i }

/-- The bits of the frame, which a fenced port does not show. -/
def Dev.showFrame (d : Dev) (i bits : Nat) : Dev := if d.fenced Kind.posPort i then d else d.wr64 F.PS_SSI_RAW_LO F.PS_SSI_RAW_HI i bits

/-- What a frame that has been shown brings about. -/
def Dev.frameActs (d : Dev) (i bits stamp : Nat) : Dev :=
  if !d.psOn i then d
  else if d.frameGood i bits then
    d.measured i (d.framePos i bits) (2 ^ (d.rd F.PS_SSI_CFG_st_bits i + d.rd F.PS_SSI_CFG_mt_bits i)) stamp
  else d.illegal i

theorem Dev.ssiDone_of_ended {d : Dev} {i : Nat} (bits : Nat) (hbusy : (d.pos i).ssiBusy = true) (hended : (d.pos i).ssiStamp + d.frameTicks i ≤ d.time) :
    d.ssiDone i bits = ((d.endFrame i).showFrame i bits).frameActs i bits (d.pos i).ssiStamp := by
  have hgo : (!(d.pos i).ssiBusy || Nat.blt d.time ((d.pos i).ssiStamp + d.frameTicks i)) = false := by
    rw [hbusy, Bool.not_true, Bool.false_or, Bool.eq_false_iff, ne_eq, Nat.blt_eq]
    omega
  unfold Dev.ssiDone
  dsimp only
  rw [hgo, if_neg (by decide)]
  rfl

theorem Dev.endFrame_keeps (d : Dev) (i : Nat) : Keeps ⟨false, [], [.ps]⟩ d (d.endFrame i) := Dev.setPos_keeps ..

theorem Dev.showFrame_keeps (d : Dev) (i bits : Nat) : Keeps ⟨false, [F.PS_SSI_RAW_LO, F.PS_SSI_RAW_HI], []⟩ d (d.showFrame i bits) :=
  .ite (fun _ => .refl _ _) fun _ => Dev.wr64_keeps _ _ _ _ _ (by decide) (by decide)

theorem Dev.shownFrame_keeps (d : Dev) (i bits : Nat) :
    Keeps ⟨false, [F.PS_SSI_RAW_LO, F.PS_SSI_RAW_HI], [.ps]⟩ d ((d.endFrame i).showFrame i bits) :=
  ((d.endFrame_keeps i).within (by decide)).trans ((Dev.showFrame_keeps ..).within (by decide))

theorem Dev.showFrame_raw {d : Dev} {i bits : Nat} (h : bits < 2 ^ 64) : (d.showFrame i bits).rd64 F.PS_SSI_RAW_LO F.PS_SSI_RAW_HI i =
    if d.fenced Kind.posPort i then d.rd64 F.PS_SSI_RAW_LO F.PS_SSI_RAW_HI i else bits := by
  unfold Dev.showFrame
  split
  · rfl
  · rw [Dev.rd64_wr64 _ _ _ _ _ (by decide) (by decide) (by decide), Nat.mod_eq_of_lt h]

theorem Dev.frameActs_sameRead (d : Dev) (i bits stamp : Nat) : (d.pos i).SameRead ((d.frameActs i bits stamp).pos i) := by
  unfold Dev.frameActs
  split
  · exact ⟨rfl, rfl, rfl, rfl⟩
  · split
    · exact d.measured_sameRead ..
    · rw [Dev.illegal_pos]
      exact ⟨rfl, rfl, rfl, rfl⟩

theorem Dev.frameActs_raw (d : Dev) (i bits stamp : Nat) :
    (d.frameActs i bits stamp).rd64 F.PS_SSI_RAW_LO F.PS_SSI_RAW_HI i = d.rd64 F.PS_SSI_RAW_LO F.PS_SSI_RAW_HI i := by
  unfold Dev.frameActs
  split
  · rfl
  · split
    · exact (d.measured_keeps ..).rd64 _ _ i (by decide) (by decide)
    · exact (d.illegal_keeps i).rd64 _ _ i (by decide) (by decide)

/-- What a port reads of a frame once the frame has ended and is shown. -/
theorem Dev.shownFrame_reads (d : Dev) (i bits : Nat) : let e := (d.endFrame i).showFrame i bits
    e.pos i = { d.pos i with ssiBusy := false, ssiReady := d.time + 800 * d.rd F.PS_SSI_TIM_recovery i } ∧ e.psOn i = d.psOn i ∧
      e.frameGood i bits = d.frameGood i bits ∧ e.framePos i bits = d.framePos i bits ∧ e.measBroken i = d.measBroken i ∧ e.count i = d.count i := by
  have hk := d.shownFrame_keeps i bits
  have hpos : ((d.endFrame i).showFrame i bits).pos i =
      { d.pos i with ssiBusy := false, ssiReady := d.time + 800 * d.rd F.PS_SSI_TIM_recovery i } :=
    ((Dev.showFrame_keeps ..).pos (by decide) i).trans (d.pos_setPos_self i _)
  refine ⟨hpos, hk.psOn (by decide) (by decide) (fun _ => Dev.fenced_congr (hk.parts .flt (by decide)) ..) i, ?_, ?_,
    Dev.measBroken_congr (hk.rd F.PS_CFG_mode i (by decide)) (by rw [hpos]), hk.count (by decide) (by decide) i⟩
  · simp only [Dev.frameGood, hk.rd F.PS_SSI_CFG_frame i (by decide), hk.rd F.PS_SSI_CFG_parity i (by decide),
      hk.flag F.PS_SSI_CFG_err_en i (by decide), hk.rd F.PS_SSI_CFG_err_pos i (by decide), hk.flag F.PS_SSI_CFG_err_level i (by decide)]
  · simp only [Dev.framePos, hk.rd F.PS_SSI_CFG_frame i (by decide), hk.rd F.PS_SSI_CFG_st_bits i (by decide),
      hk.rd F.PS_SSI_CFG_mt_bits i (by decide), hk.flag F.PS_SSI_CFG_code i (by decide)]

/-- A frame that has ended: shown, rejected, or the first measurement. -/
theorem Dev.ssiDone_shows {d : Dev} {i bits : Nat} (hbits : bits < 2 ^ 64) (hbusy : (d.pos i).ssiBusy = true)
    (hended : (d.pos i).ssiStamp + d.frameTicks i ≤ d.time) : let v := d.pos i; let n := d.ssiDone i bits
    (n.pos i).ssiBusy = false ∧ (n.pos i).ssiReady = d.time + 800 * d.rd F.PS_SSI_TIM_recovery i ∧
      n.rd64 F.PS_SSI_RAW_LO F.PS_SSI_RAW_HI i = (if d.fenced Kind.posPort i then d.rd64 F.PS_SSI_RAW_LO F.PS_SSI_RAW_HI i else bits) ∧
      (d.psOn i = true → d.frameGood i bits = false →
        n.flag F.PS_STAT_illegal i = true ∧ n.count i = d.count i ∧ (n.pos i).lastMeas = v.lastMeas) ∧
      (d.psOn i = true → d.frameGood i bits = true → v.seeded = false →
        (n.pos i).lastMeas = d.framePos i bits ∧ (n.pos i).seeded = !d.measBroken i) := by
  obtain ⟨hpos, hon, hgood, hframe, hbroken, hcount⟩ := d.shownFrame_reads i bits
  have hraw : ((d.endFrame i).showFrame i bits).rd64 F.PS_SSI_RAW_LO F.PS_SSI_RAW_HI i =
      if d.fenced Kind.posPort i then d.rd64 F.PS_SSI_RAW_LO F.PS_SSI_RAW_HI i else bits := by
    have hend := d.endFrame_keeps i
    rw [Dev.showFrame_raw hbits, Dev.fenced_congr (hend.parts .flt (by decide)), hend.rd64 _ _ i (by decide) (by decide)]
  dsimp only
  rw [Dev.ssiDone_of_ended bits hbusy hended]
  generalize (d.endFrame i).showFrame i bits = e at hpos hon hgood hframe hbroken hcount hraw ⊢
  obtain ⟨hb, hr, -, -⟩ := e.frameActs_sameRead i bits (d.pos i).ssiStamp
  rw [hpos] at hb hr
  refine ⟨hb, hr, (e.frameActs_raw ..).trans hraw, fun hpson hbad => ?_, fun hpson hok hseed => ?_⟩
  · have hgo : e.frameActs i bits (d.pos i).ssiStamp = e.illegal i := by
      rw [Dev.frameActs, hon, hpson, hgood, hbad, if_neg (by decide), if_neg (by decide)]
    rw [hgo, Dev.illegal_count, hcount, Dev.illegal_pos, hpos]
    exact ⟨e.illegal_flag i, rfl, rfl⟩
  · have hgo : e.frameActs i bits (d.pos i).ssiStamp =
        e.measured i (d.framePos i bits) (2 ^ (e.rd F.PS_SSI_CFG_st_bits i + e.rd F.PS_SSI_CFG_mt_bits i)) (d.pos i).ssiStamp := by
      rw [Dev.frameActs, hon, hpson, hgood, hok, hframe, if_neg (by decide), if_pos rfl]
    rw [hgo, ← hbroken]
    exact Dev.measured_first _ _ _ (by rw [hpos]; exact hseed)

/-! ### A resolver's envelope (R136) -/

/-- The amplitude of an envelope pair. -/
def envAmp (s c : Int) : Nat := isqrt ((s * s + c * c).natAbs) / 128

/-- The port with its envelope. -/
def Dev.takeEnv (d : Dev) (i : Nat) (s c : Int) (stamp : Nat) : Dev := d.onPos i fun v => { v with envAt := some stamp, amp := envAmp s c }

/-- The envelope's registers, which a fenced port does not show. -/
def Dev.showEnv (d : Dev) (i : Nat) (s c : Int) (phase : Nat) : Dev :=
  if d.fenced Kind.posPort i then d
  else (((d.wrInt F.PS_RES_ENV_sine i s).wrInt F.PS_RES_ENV_cosine i c).wr F.PS_RES_MEAS_amplitude i (min 255 (envAmp s c))).wr
    F.PS_RES_MEAS_exc_phase i phase

/-- A good amplitude mends its cause. -/
def Dev.mendAmp (d : Dev) (i : Nat) : Dev := if (d.pos i).broken.contains 4 then d.mendLine i 4 else d

/-- What an envelope with a good amplitude measures. -/
def Dev.envMeas (d : Dev) (i : Nat) (s c : Int) (stamp : Nat) : Dev :=
  if !d.psOn i then d
  else if s = 0 ∧ c = 0 then (d.measured i (d.free.toNat % 65536) 65536 stamp).tick
  else d.measured i (resolverAngle s c) 65536 stamp

/-- What follows an envelope that is shown. -/
def Dev.envActs (d : Dev) (i : Nat) (s c : Int) (stamp : Nat) : Dev :=
  if !d.psWatches i || d.psMode i != 5 then d
  else if d.ampBad i (envAmp s c) then d.breakLine i 4
  else (d.mendAmp i).envMeas i s c stamp

theorem Dev.envelope_eq (d : Dev) (i : Nat) (s c : Int) (stamp phase : Nat) :
    d.envelope i s c stamp phase = ((d.takeEnv i s c stamp).showEnv i s c phase).envActs i s c stamp := rfl

theorem Dev.takeEnv_keeps (d : Dev) (i : Nat) (s c : Int) (stamp : Nat) : Keeps ⟨false, [], [.ps]⟩ d (d.takeEnv i s c stamp) := Dev.onPos_keeps ..

theorem Dev.showEnv_keeps (d : Dev) (i : Nat) (s c : Int) (phase : Nat) :
    Keeps ⟨false, [F.PS_RES_ENV_sine, F.PS_RES_ENV_cosine, F.PS_RES_MEAS_amplitude, F.PS_RES_MEAS_exc_phase], []⟩ d (d.showEnv i s c phase) :=
  .ite (fun _ => .refl _ _) fun _ => ((((Dev.wrInt_keeps _ _ _ _ (by decide)).within (by decide)).trans
    ((Dev.wrInt_keeps _ _ _ _ (by decide)).within (by decide))).trans ((Dev.wr_keeps _ _ _ _ (by decide)).within (by decide))).trans
    ((Dev.wr_keeps _ _ _ _ (by decide)).within (by decide))

theorem unsigned_lt (w : Nat) (v : Int) : unsigned w v < 2 ^ w := by
  have hpos : (0 : Int) < 2 ^ w := by positivity
  have hlt := Int.emod_lt_of_pos v hpos
  have hnn := Int.emod_nonneg v hpos.ne'
  unfold unsigned
  zify
  rwa [Int.toNat_of_nonneg hnn]

theorem Dev.showEnv_shows {d : Dev} {i : Nat} (s c : Int) {phase : Nat} (hphase : phase < 256) (h : d.fenced Kind.posPort i = false) :
    let n := d.showEnv i s c phase
    n.rd F.PS_RES_ENV_sine i = unsigned 16 s ∧ n.rd F.PS_RES_ENV_cosine i = unsigned 16 c ∧
      n.rd F.PS_RES_MEAS_amplitude i = min 255 (envAmp s c) ∧ n.rd F.PS_RES_MEAS_exc_phase i = phase := by
  have hamp : min 255 (envAmp s c) < 2 ^ 8 := by omega
  dsimp only
  rw [Dev.showEnv, if_neg (by rw [h]; decide), Dev.wrInt, Dev.wrInt]
  refine ⟨?_, ?_, ?_, Dev.rd_wr_of_lt _ F.PS_RES_MEAS_exc_phase _ (by decide) hphase⟩
  · rw [Dev.rd_wr_apart _ F.PS_RES_ENV_sine F.PS_RES_MEAS_exc_phase _ _ _ (by decide) (by decide),
      Dev.rd_wr_apart _ F.PS_RES_ENV_sine F.PS_RES_MEAS_amplitude _ _ _ (by decide) (by decide),
      Dev.rd_wr_apart _ F.PS_RES_ENV_sine F.PS_RES_ENV_cosine _ _ _ (by decide) (by decide)]
    exact Dev.rd_wr_of_lt _ F.PS_RES_ENV_sine _ (by decide) (unsigned_lt ..)
  · rw [Dev.rd_wr_apart _ F.PS_RES_ENV_cosine F.PS_RES_MEAS_exc_phase _ _ _ (by decide) (by decide),
      Dev.rd_wr_apart _ F.PS_RES_ENV_cosine F.PS_RES_MEAS_amplitude _ _ _ (by decide) (by decide)]
    exact Dev.rd_wr_of_lt _ F.PS_RES_ENV_cosine _ (by decide) (unsigned_lt ..)
  · rw [Dev.rd_wr_apart _ F.PS_RES_MEAS_amplitude F.PS_RES_MEAS_exc_phase _ _ _ (by decide) (by decide)]
    exact Dev.rd_wr_of_lt _ F.PS_RES_MEAS_amplitude _ (by decide) hamp

/-- What an envelope's effects leave: its registers. -/
def envActsFoot : Foot :=
  ⟨false, [F.PS_STAT_running, F.PS_STAT_locked, F.PS_STAT_fenced, F.PS_STAT_still, F.PS_STAT_broken_live, F.PS_STAT_illegal, F.PS_STAT_broken,
    F.PS_ILL_CNT_total, F.PS_ILL_CNT_window, F.PS_CNT_LO, F.PS_CNT_HI, F.PS_OBS_POS_LO, F.PS_OBS_POS_HI, F.PS_OBS_ANGLE, F.PS_OBS_EANGLE,
    F.PS_OBS_SPEED, F.PS_OBS_ACCEL, F.PS_CMP_STAT_armed, F.PS_CMP_STAT_fired, F.PS_CMP_STAT_count, F.PS_CMP_TIME_LO, F.PS_CMP_TIME_HI,
    F.EP_STAT_running, F.EP_STAT_src_lost, F.FLT_STAT_lost, F.FLT_LOST], [.fresh, .ps, .flt]⟩

theorem Dev.mendAmp_keeps (d : Dev) (i : Nat) : Keeps ⟨false, [F.PS_STAT_broken_live], [.ps]⟩ d (d.mendAmp i) :=
  .ite (fun _ => Dev.mendLine_keeps ..) fun _ => .refl _ _

theorem Dev.envActs_keeps (d : Dev) (i : Nat) (s c : Int) (stamp : Nat) : Keeps envActsFoot d (d.envActs i s c stamp) := by
  have hmeas : ∀ (e : Dev) (raw : Nat), Keeps envActsFoot e (e.measured i raw 65536 stamp) := fun e raw =>
    (e.measured_keeps i raw 65536 stamp).within (by decide)
  refine .ite (fun _ => .refl _ _) fun _ => .ite (fun _ => (d.breakLine_keeps i 4).within (by decide)) fun _ => ?_
  refine ((d.mendAmp_keeps i).within (by decide)).trans ?_
  exact .ite (fun _ => .refl _ _) fun _ => .ite (fun _ => (hmeas _ _).trans ((Dev.tick_keeps _).within (by decide))) fun _ => hmeas _ _

/-- A fenced port's count stays (R372). -/
theorem Dev.envActs_fenced {d : Dev} {i : Nat} (s c : Int) (stamp : Nat) (h : d.fenced Kind.posPort i = true) :
    (d.envActs i s c stamp).count i = d.count i := by
  unfold Dev.envActs
  split
  · rfl
  · split
    · exact (d.breakLine_keeps i 4).count (by decide) (by decide) i
    · have hmend := d.mendAmp_keeps i
      have hoff : (d.mendAmp i).psOn i = false := by
        rw [Dev.psOn_eq, Dev.fenced_congr (hmend.parts .flt (by decide)), h, Bool.not_true, Bool.and_false]
      rw [Dev.envMeas, hoff, if_pos (by decide)]
      exact hmend.count (by decide) (by decide) i

/-- An amplitude outside its window breaks the line and keeps the count (R147). -/
theorem Dev.envActs_bad {d : Dev} {i : Nat} {s c : Int} (stamp : Nat) (hwatch : d.psWatches i = true) (hmode : d.psMode i = 5)
    (hbad : d.ampBad i (envAmp s c) = true) :
    4 ∈ ((d.envActs i s c stamp).pos i).broken ∧ (d.envActs i s c stamp).count i = d.count i := by
  have hgo : d.envActs i s c stamp = d.breakLine i 4 := by
    rw [Dev.envActs, hwatch, hmode, if_neg (by decide), if_pos hbad]
  rw [hgo]
  exact ⟨d.breakLine_broken i 4, (d.breakLine_keeps i 4).count (by decide) (by decide) i⟩

/-- A good amplitude mends its cause, and the first angle seeds the observer. -/
theorem Dev.envActs_good {d : Dev} {i : Nat} {s c : Int} (stamp : Nat) (hon : d.psOn i = true) (hmode : d.psMode i = 5)
    (hgood : d.ampBad i (envAmp s c) = false) (hbroken : (d.pos i).broken = [] ∨ (d.pos i).broken = [4]) (hne : s ≠ 0 ∨ c ≠ 0)
    (hseed : (d.pos i).seeded = false) : let n := d.envActs i s c stamp
    (n.pos i).lastMeas = resolverAngle s c ∧ (n.pos i).seeded = true ∧ (n.pos i).broken = [] := by
  obtain ⟨hwatch, -⟩ := Dev.psOn_iff.mp hon
  have hmend := d.mendAmp_keeps i
  have hmended : ((d.mendAmp i).pos i).broken = [] ∧ ((d.mendAmp i).pos i).seeded = false := by
    unfold Dev.mendAmp
    rcases hbroken with hb | hb
    · rw [hb, if_neg (by decide)]
      exact ⟨hb, hseed⟩
    · rw [hb, if_pos (by decide), Dev.mendLine_pos]
      dsimp only
      rw [hb]
      exact ⟨rfl, hseed⟩
  have hon' : (d.mendAmp i).psOn i = true := by
    rw [hmend.psOn (by decide) (by decide) (fun _ => Dev.fenced_congr (hmend.parts .flt (by decide)) ..), hon]
  have hgo : d.envActs i s c stamp = (d.mendAmp i).measured i (resolverAngle s c) 65536 stamp := by
    rw [Dev.envActs, hwatch, hmode, if_neg (by decide), hgood, if_neg (by decide), Dev.envMeas, hon', if_neg (by decide), if_neg]
    rintro ⟨hs, hc⟩
    exact hne.elim (fun h => h hs) fun h => h hc
  obtain ⟨hlast, hseeded⟩ := (d.mendAmp i).measured_first (resolverAngle s c) 65536 stamp hmended.2
  dsimp only
  rw [hgo, hlast, hseeded, ((d.mendAmp i).measured_sameRead ..).broken, hmended.1]
  refine ⟨rfl, ?_, rfl⟩
  rw [Dev.measBroken, hmended.1]
  rfl

/-- What a port reads of its envelope once it is shown. -/
theorem Dev.shownEnv_reads (d : Dev) (i : Nat) (s c : Int) (stamp phase : Nat) : let e := (d.takeEnv i s c stamp).showEnv i s c phase
    e.pos i = { d.pos i with envAt := some stamp, amp := envAmp s c } ∧ e.psOn i = d.psOn i ∧ e.psMode i = d.psMode i ∧
      (∀ amp, e.ampBad i amp = d.ampBad i amp) ∧ e.count i = d.count i ∧ e.fenced Kind.posPort i = d.fenced Kind.posPort i := by
  have hk : Keeps ⟨false, [F.PS_RES_ENV_sine, F.PS_RES_ENV_cosine, F.PS_RES_MEAS_amplitude, F.PS_RES_MEAS_exc_phase], [.ps]⟩ d
      ((d.takeEnv i s c stamp).showEnv i s c phase) := ((d.takeEnv_keeps i s c stamp).within (by decide)).trans ((Dev.showEnv_keeps ..).within (by decide))
  have hfence : ∀ k, ((d.takeEnv i s c stamp).showEnv i s c phase).fenced Kind.posPort k = d.fenced Kind.posPort k := fun _ =>
    Dev.fenced_congr (hk.parts .flt (by decide)) ..
  refine ⟨((Dev.showEnv_keeps ..).pos (by decide) i).trans (d.pos_onPos i _), hk.psOn (by decide) (by decide) hfence i,
    hk.rd F.PS_CFG_mode i (by decide), fun amp => ?_, hk.count (by decide) (by decide) i, hfence i⟩
  rw [Dev.ampBad, Dev.ampBad, hk.rd F.PS_RES_AMP_amp_lo i (by decide), hk.rd F.PS_RES_AMP_amp_hi i (by decide)]

theorem Dev.ampBad_iff (d : Dev) (i amp : Nat) : d.ampBad i amp = true ↔ amp < d.rd F.PS_RES_AMP_amp_lo i ∨ d.rd F.PS_RES_AMP_amp_hi i < amp := by
  rw [Dev.ampBad, Bool.or_eq_true, Nat.blt_eq, Nat.blt_eq]

/-- An envelope: shown, outside its window, or the first measurement. -/
theorem Dev.envelope_shows (d : Dev) (i : Nat) (s c : Int) (stamp : Nat) {phase : Nat} (hphase : phase < 256) (hmode : d.psMode i = 5) :
    let v := d.pos i; let amp := isqrt ((s * s + c * c).natAbs) / 128; let n := d.envelope i s c stamp phase
    (d.fenced Kind.posPort i = false → n.rd F.PS_RES_ENV_sine i = unsigned 16 s ∧ n.rd F.PS_RES_ENV_cosine i = unsigned 16 c ∧
        n.rd F.PS_RES_MEAS_amplitude i = min 255 amp ∧ n.rd F.PS_RES_MEAS_exc_phase i = phase) ∧
      (d.fenced Kind.posPort i = true → n.count i = d.count i ∧ n.rd F.PS_RES_ENV i = d.rd F.PS_RES_ENV i ∧
        n.rd F.PS_RES_MEAS i = d.rd F.PS_RES_MEAS i) ∧
      (d.psOn i = true → amp < d.rd F.PS_RES_AMP_amp_lo i ∨ d.rd F.PS_RES_AMP_amp_hi i < amp → 4 ∈ (n.pos i).broken ∧ n.count i = d.count i) ∧
      (d.psOn i = true → d.rd F.PS_RES_AMP_amp_lo i ≤ amp → amp ≤ d.rd F.PS_RES_AMP_amp_hi i → v.broken = [] ∨ v.broken = [4] →
        s ≠ 0 ∨ c ≠ 0 → v.seeded = false → (n.pos i).lastMeas = resolverAngle s c ∧ (n.pos i).seeded = true ∧ (n.pos i).broken = []) := by
  obtain ⟨hpos, hon, hmode', hamp, hcount, hfence⟩ := d.shownEnv_reads i s c stamp phase
  have htake := d.takeEnv_keeps i s c stamp
  have hacts := ((d.takeEnv i s c stamp).showEnv i s c phase).envActs_keeps i s c stamp
  rw [hmode] at hmode'
  dsimp only
  rw [d.envelope_eq]
  refine ⟨fun hfree => ?_, fun hfenced => ?_, fun hpson hout => ?_, fun hpson hlo hhi hbroken hne hseed => ?_⟩
  · obtain ⟨h1, h2, h3, h4⟩ := Dev.showEnv_shows (d := d.takeEnv i s c stamp) s c hphase
      ((Dev.fenced_congr (htake.parts .flt (by decide)) _ _).trans hfree)
    rw [hacts.rd F.PS_RES_ENV_sine i (by decide), hacts.rd F.PS_RES_ENV_cosine i (by decide), hacts.rd F.PS_RES_MEAS_amplitude i (by decide),
      hacts.rd F.PS_RES_MEAS_exc_phase i (by decide)]
    exact ⟨h1, h2, h3, h4⟩
  · have hhide : (d.takeEnv i s c stamp).showEnv i s c phase = d.takeEnv i s c stamp :=
      if_pos ((Dev.fenced_congr (htake.parts .flt (by decide)) _ _).trans hfenced)
    rw [Dev.envActs_fenced s c stamp (hfence.trans hfenced), hcount, hacts.rd F.PS_RES_ENV i (by decide), hacts.rd F.PS_RES_MEAS i (by decide), hhide,
      htake.rd F.PS_RES_ENV i (by decide), htake.rd F.PS_RES_MEAS i (by decide)]
    exact ⟨rfl, rfl, rfl⟩
  · rw [← hcount]
    exact Dev.envActs_bad stamp (Dev.psOn_iff.mp (hon.trans hpson)).1 hmode' ((hamp _).trans ((d.ampBad_iff ..).mpr hout))
  · refine Dev.envActs_good stamp (hon.trans hpson) hmode' ((hamp _).trans ?_) (by rw [hpos]; exact hbroken) hne (by rw [hpos]; exact hseed)
    rw [Bool.eq_false_iff, ne_eq, d.ampBad_iff, not_or, not_lt, not_lt]
    exact ⟨hlo, hhi⟩

/-- Settles O13: SSI reads and frames, and the envelopes of a resolver. -/
theorem absoluteSensors : Obligations.AbsoluteSensors := by
  unfold Obligations.AbsoluteSensors
  intro s t i d v
  refine ⟨?start, ?frame, ?envelope⟩
  case start =>
    intro hon hmode hstart
    refine Does.of_effect (show exec (.ssiStart t i) s = execSsiStart t i s from rfl) ?_
    rw [show s.now t = d from rfl, hon, hmode, if_neg (by decide)]
    rcases hstart with ⟨hperiod, hdue⟩ | ⟨htrigger, hfire⟩
    · obtain ⟨hfree, hbusy, -⟩ := d.ssiStart_shows i
      obtain ⟨h1, h2, h3, h4⟩ := d.ssiPeriod_shows i (v.ssiDue + 80 * d.rd F.PS_SSI_RUN_period i)
      dsimp only
      rw [if_pos hperiod, if_pos hdue, h1, h2, h3, h4]
      exact ⟨hfree, hbusy, fun _ => rfl⟩
    · obtain ⟨⟨stamp, e⟩, htake⟩ := Option.isSome_iff_exists.mp hfire
      obtain ⟨hpos, htime⟩ := Dev.takeFiring_pos (i := i) htake
      obtain ⟨hfree, hbusy, -⟩ := e.ssiStart_shows i
      rw [hpos, htime] at hfree hbusy
      rw [if_neg htrigger, htake]
      exact ⟨hfree, hbusy, fun h => absurd h htrigger⟩
  case frame =>
    intro bits b hbusy hended
    refine Does.of_effect (show exec (.ssiFrameDone t i bits) s = execSsiFrameDone t i bits s from rfl) ?_
    have hframe : d.rd F.PS_SSI_CFG_frame i < 2 ^ 6 := getBits_lt ..
    have hb : b < 2 ^ 64 := (Nat.mod_lt _ (Nat.two_pow_pos _)).trans_le (Nat.pow_le_pow_right (by decide) hframe.le)
    exact Dev.ssiDone_shows hb hbusy hended
  case envelope =>
    intro j sine cosine second stamp phase v sum amp hmode hdone
    refine Does.of_effect (show exec (.resolverEnvelope t j sine cosine ⟨second, stamp⟩ phase) s =
      execResolverEnvelope t j sine cosine ⟨second, stamp⟩ phase s from rfl) ?_
    rw [show s.now t = d from rfl, if_pos ⟨hmode, hdone⟩]
    exact d.envelope_shows j (sum sine) (sum cosine) stamp (Nat.mod_lt _ (by decide)) hmode

end Sys2Proof.Machine
end

section
/-! Lines, counts and broken lines (R126 to R132); obligation O12. -/

namespace Sys2Proof.Machine

/-! ### The count -/

/-- The registers of a signed 64-bit value read back its two's complement. -/
theorem Dev.rdI64_wrI64 (d : Dev) (lo hi : Fd) (i : Nat) (v : Int) (hlo : lo.lo = 0 ∧ lo.width = 32) (hhi : hi.lo = 0 ∧ hi.width = 32)
    (ha : lo.apart hi = true) : (d.wrI64 lo hi i v).rdI64 lo hi i = signed 64 (unsigned 64 v) := by
  rw [Dev.rdI64, Dev.wrI64, Dev.rd64_wr64 _ _ _ _ _ hlo hhi ha, Nat.mod_eq_of_lt (unsigned_lt 64 v)]

/-- Fields of a port's registers below its compares. -/
structure Fd.OfPort (f : Fd) : Prop where
  low : 0x28000 ≤ f.base ∧ f.base < 0x28100
  stride : f.n1 = 6 ∧ f.s1 = 0x1000 ∧ f.n2 = 1 ∧ f.s2 = 0
  quiet : Foot.avoids ⟨false, [F.PS_STAT_running, F.PS_STAT_fenced, F.EP_STAT_running, F.EP_STAT_src_lost, F.FLT_STAT_lost, F.FLT_LOST], []⟩ f = true

/-- Fields of its two compares. -/
structure Fd.OfCompare (g : Fd) : Prop where
  high : 0x28100 ≤ g.base ∧ g.base < 0x28200
  stride : g.n1 = 6 ∧ g.s1 = 0x1000 ∧ g.n2 = 2 ∧ g.s2 = 0x20

/-- A write of a compare's field changes no field below the compares: their places in a port's page differ. -/
theorem Dev.rd_wr2_compare (d : Dev) {f g : Fd} (hf : f.OfPort) (hg : g.OfCompare) (i j k v : Nat) : (d.wr2 g i j v).rd f k = d.rd f k := by
  obtain ⟨⟨hlow, hhigh⟩, ⟨hn1, hs1, hn2, hs2⟩, -⟩ := hf
  obtain ⟨⟨glow, ghigh⟩, gn1, gs1, gn2, gs2⟩ := hg
  have hne : f.off k 0 ≠ g.off i j := by
    rw [Fd.off, Fd.off, hn1, hs1, hn2, hs2, gn1, gs1, gn2, gs2]
    have hj : j % 2 < 2 := Nat.mod_lt _ (by decide)
    omega
  rw [Dev.rd, Dev.rd, Dev.rd2, Dev.rd2, Dev.wr2, Dev.word_setWord, if_neg hne]

/-- Fields below the compares, one of every port, read the same. -/
def Dev.SameField (d e : Dev) (f : Fd) : Prop := ∀ k, e.rd f k = d.rd f k

theorem Dev.SameField.trans {d e g : Dev} {f : Fd} (h : d.SameField e f) (k : e.SameField g f) : d.SameField g f := fun i => (k i).trans (h i)

theorem Keeps.sameField {w : Foot} {d e : Dev} (hk : Keeps w d e) {f : Fd} (h : w.avoids f = true) : d.SameField e f := fun k => hk.rd f k h

theorem Dev.SameField.each {g : Dev → Nat → Dev} {f : Fd} (h : ∀ (d : Dev) x, d.SameField (g d x) f) (l : List Nat) (d : Dev) : d.SameField (d.each l g) f := by
  induction l generalizing d with
  | nil => exact fun _ => rfl
  | cons a l ih => exact (h d a).trans (ih _)

theorem Fd.OfPort.avoided {f : Fd} (hf : f.OfPort) {fs : List Fd} {ps : List Part}
    (h : ∀ g ∈ fs, g ∈ [F.PS_STAT_running, F.PS_STAT_fenced, F.EP_STAT_running, F.EP_STAT_src_lost, F.FLT_STAT_lost, F.FLT_LOST]) :
    Foot.avoids ⟨false, fs, ps⟩ f = true := by
  have hq := hf.quiet
  simp only [Foot.avoids, Bool.not_false, Bool.true_and, List.all_eq_true] at hq ⊢
  exact fun g hg => hq g (h g hg)

/-- Compares that fire leave the rest of a port. -/
theorem Dev.crossCompares_sameField (d : Dev) (i : Nat) (old new : Int) (stamp : Nat) {f : Fd} (hf : f.OfPort) :
    d.SameField (d.crossCompares i old new stamp) f := by
  have hwr : ∀ {d e : Dev} {g : Fd} {n v : Nat}, g.OfCompare → d.SameField e f → d.SameField (e.wr2 g i n v) f := fun hg h =>
    h.trans fun k => Dev.rd_wr2_compare _ hf hg i _ k _
  have hreport : ∀ {d e : Dev}, d.SameField e f → d.SameField (e.reportOpen Kind.posPort i Cls.report (Code.ofFree Config.compareCode)) f := fun h =>
    h.trans ((Dev.reportOpen_keeps ..).sameField (hf.avoided (by decide)))
  have harmed : Fd.OfCompare F.PS_CMP_STAT_armed := ⟨by decide, by decide⟩
  have hfired : Fd.OfCompare F.PS_CMP_STAT_fired := ⟨by decide, by decide⟩
  have hcount : Fd.OfCompare F.PS_CMP_STAT_count := ⟨by decide, by decide⟩
  have hlo : Fd.OfCompare F.PS_CMP_TIME_LO := ⟨by decide, by decide⟩
  have hhi : Fd.OfCompare F.PS_CMP_TIME_HI := ⟨by decide, by decide⟩
  refine Dev.SameField.each (fun e n => ?_) [0, 1] d
  split
  · dsimp only
    split
    · exact hwr harmed (hreport (hwr hhi (hwr hlo (hwr hcount (hwr hfired fun _ => rfl)))))
    · exact hreport (hwr hhi (hwr hlo (hwr hcount (hwr hfired fun _ => rfl))))
  · exact fun _ => rfl

/-- A fence of a port leaves them too. -/
theorem Dev.fencePos_sameField (d : Dev) (i cause sub named : Nat) {f : Fd} (hf : f.OfPort) : d.SameField (d.fencePos i cause sub named) f := by
  have harmed : ∀ (e : Dev) (n : Nat), e.SameField (e.wr2 F.PS_CMP_STAT_armed i n 0) f := fun e n k =>
    e.rd_wr2_compare hf ⟨by decide, by decide⟩ i n k 0
  have hput : ∀ (e : Dev) (b : Bool) {g : Fd}, g.ok = true → g ∈ [F.PS_STAT_running, F.PS_STAT_fenced] → e.SameField (e.put g i b) f :=
    fun e b g hok hg => (e.put_keeps g i b hok).sameField (hf.avoided fun x hx => by
      rw [List.mem_singleton] at hx
      rw [hx]
      exact List.mem_append_left [F.EP_STAT_running, F.EP_STAT_src_lost, F.FLT_STAT_lost, F.FLT_LOST] hg)
  have hpost : ∀ (e : Dev) (kind cls c sub : Nat), e.SameField (e.postFenced kind i cls c sub) f := fun e kind cls c sub =>
    (e.postFenced_keeps ..).sameField (hf.avoided (by decide))
  have hlost : ∀ (e : Dev) (j : Nat), e.SameField (e.sourceLost j) f := fun e j => (e.sourceLost_keeps j).sameField (hf.avoided (by decide))
  unfold Dev.fencePos
  dsimp only
  split
  · exact fun _ => rfl
  · have hmark : d.SameField ((d.markFenced Kind.posPort i true).markFenced Kind.observer i true) f := fun _ => rfl
    exact (((((hmark.trans (hput _ true (g := F.PS_STAT_fenced) (by decide) (by decide))).trans
      (hput _ false (g := F.PS_STAT_running) (by decide) (by decide))).trans (hpost _ _ _ _ _)).trans (hpost _ _ _ _ _)).trans
      (Dev.SameField.each harmed _ _)).trans (Dev.SameField.each hlost _ _)

theorem ofPort_count : Fd.OfPort F.PS_CNT_LO ∧ Fd.OfPort F.PS_CNT_HI :=
  ⟨⟨by decide, by decide, by decide⟩, ⟨by decide, by decide, by decide⟩⟩

theorem ofPort_edgeTime : Fd.OfPort F.PS_EDGE_TIME_LO ∧ Fd.OfPort F.PS_EDGE_TIME_HI :=
  ⟨⟨by decide, by decide, by decide⟩, ⟨by decide, by decide, by decide⟩⟩

theorem ofPort_illCnt : Fd.OfPort F.PS_ILL_CNT_total ∧ Fd.OfPort F.PS_ILL_CNT_window :=
  ⟨⟨by decide, by decide, by decide⟩, ⟨by decide, by decide, by decide⟩⟩

theorem Dev.count_of_sameField {d e : Dev} (hlo : d.SameField e F.PS_CNT_LO) (hhi : d.SameField e F.PS_CNT_HI) (i : Nat) : e.count i = d.count i := by
  rw [Dev.count, Dev.count, Dev.rdI64, Dev.rdI64, Dev.rd64, Dev.rd64, hlo, hhi]

theorem Dev.moveCount_count (d : Dev) (i : Nat) (by_ : Int) (stamp : Nat) :
    (d.moveCount i by_ stamp).count i = signed 64 (unsigned 64 (d.count i + by_)) := by
  unfold Dev.moveCount
  dsimp only
  rw [Dev.count_of_sameField (Dev.crossCompares_sameField _ _ _ _ _ ofPort_count.1) (Dev.crossCompares_sameField _ _ _ _ _ ofPort_count.2), Dev.count,
    Dev.rdI64_wrI64 _ F.PS_CNT_LO F.PS_CNT_HI i _ (by decide) (by decide) (by decide)]

/-- The count's move leaves every other field of the ports below the compares. -/
theorem Dev.moveCount_sameField (d : Dev) (i : Nat) (by_ : Int) (stamp : Nat) {f : Fd} (hf : f.OfPort)
    (hapart : Foot.avoids ⟨false, [F.PS_CNT_LO, F.PS_CNT_HI], []⟩ f = true) : d.SameField (d.moveCount i by_ stamp) f :=
  ((d.wrI64_keeps F.PS_CNT_LO F.PS_CNT_HI i _ (by decide) (by decide)).sameField hapart).trans (Dev.crossCompares_sameField _ _ _ _ _ hf)

/-! ### An edge (R128, R131, R132) -/

/-- The period that an edge shows, from the last one in its direction. -/
def Dev.showPeriod (d : Dev) (i : Nat) (up : Bool) (stamp : Nat) : Dev :=
  match if up then (d.pos i).lastUp else (d.pos i).lastDown with
  | some e => d.wr F.PS_PERIOD i (edgeSpeed (d.cpr i) (stamp - e) up).toNat
  | none => d

/-- The port after an edge. -/
def PosT.edged (v : PosT) (up : Bool) (b : Int) (stamp : Nat) : PosT :=
  { (if up then { v with lastUp := some stamp } else { v with lastDown := some stamp }) with edge := some (b, stamp) }

theorem Dev.edgeAt_eq (d : Dev) (i : Nat) (up : Bool) (stamp : Nat) : d.edgeAt i up stamp =
    (((d.showPeriod i up stamp).setPos i ((d.pos i).edged up (if up then d.count i + 1 else d.count i) stamp)).wr64 F.PS_EDGE_TIME_LO
      F.PS_EDGE_TIME_HI i stamp).moveCount i (if up then 1 else -1) stamp := rfl

theorem Dev.showPeriod_keeps (d : Dev) (i : Nat) (up : Bool) (stamp : Nat) : Keeps ⟨false, [F.PS_PERIOD], []⟩ d (d.showPeriod i up stamp) := by
  unfold Dev.showPeriod
  split
  · exact Dev.wr_keeps _ _ _ _ (by decide)
  · exact .refl _ _

theorem PosT.edged_prim (v : PosT) (up : Bool) (b : Int) (stamp : Nat) : (v.edged up b stamp).prim = v.prim := by
  cases up <;> rfl

theorem Dev.edgeAt_shows (d : Dev) (i : Nat) (up : Bool) (stamp : Nat) : let n := d.edgeAt i up stamp
    n.count i = signed 64 (unsigned 64 (d.count i + if up then 1 else -1)) ∧
      n.rd64 F.PS_EDGE_TIME_LO F.PS_EDGE_TIME_HI i = stamp % 2 ^ 64 ∧ (n.pos i).prim = (d.pos i).prim := by
  set e := (d.showPeriod i up stamp).setPos i ((d.pos i).edged up (if up then d.count i + 1 else d.count i) stamp) with he
  have hset : Keeps ⟨false, [], [.ps]⟩ (d.showPeriod i up stamp) e := Dev.setPos_keeps ..
  have hperiod := d.showPeriod_keeps i up stamp
  have htime := e.wr64_keeps F.PS_EDGE_TIME_LO F.PS_EDGE_TIME_HI i stamp (by decide) (by decide)
  have hmove := (e.wr64 F.PS_EDGE_TIME_LO F.PS_EDGE_TIME_HI i stamp).moveCount_keeps i (if up then 1 else -1) stamp
  have hsame := fun f hf hapart => (e.wr64 F.PS_EDGE_TIME_LO F.PS_EDGE_TIME_HI i stamp).moveCount_sameField i (if up then 1 else -1) stamp (f := f) hf hapart
  have hlater : ((e.wr64 F.PS_EDGE_TIME_LO F.PS_EDGE_TIME_HI i stamp).moveCount i (if up then 1 else -1) stamp).rd64 F.PS_EDGE_TIME_LO
      F.PS_EDGE_TIME_HI i = (e.wr64 F.PS_EDGE_TIME_LO F.PS_EDGE_TIME_HI i stamp).rd64 F.PS_EDGE_TIME_LO F.PS_EDGE_TIME_HI i := by
    rw [Dev.rd64, Dev.rd64, hsame _ ofPort_edgeTime.1 (by decide), hsame _ ofPort_edgeTime.2 (by decide)]
  dsimp only
  rw [d.edgeAt_eq, ← he, Dev.moveCount_count, htime.count (by decide) (by decide), hset.count (by decide) (by decide),
    hperiod.count (by decide) (by decide), hlater,
    Dev.rd64_wr64 _ _ _ _ _ (by decide) (by decide) (by decide), hmove.pos (by decide), htime.pos (by decide), he, Dev.pos_setPos_self,
    PosT.edged_prim]
  exact ⟨rfl, rfl, rfl⟩

/-! ### A fence of a port (R129) -/

theorem Dev.fenced_markFenced_any (d : Dev) (kind index k i : Nat) (b : Bool) : (d.markFenced kind index b).fenced k i =
    if 256 * k + i = 256 * kind + index then b else d.fenced k i := Tbl.get_set ..

theorem Dev.ReportsOnly.each {f : Dev → Nat → Dev} (h : ∀ (e : Dev) x, e.ReportsOnly (f e x)) (l : List Nat) (d : Dev) :
    d.ReportsOnly (d.each l f) := Dev.ReportsOnly.foldl h l d

theorem Dev.sourceLost_reportsOnly (d : Dev) (j : Nat) : d.ReportsOnly (d.sourceLost j) := by
  unfold Dev.sourceLost
  split
  · exact ((Dev.ReportsOnly.of_keeps (Dev.put_keeps _ F.EP_STAT_src_lost _ _ (by decide)) (by decide)).trans
      (.of_keeps (Dev.put_keeps _ F.EP_STAT_running _ _ (by decide)) (by decide))).trans (Dev.report_reportsOnly ..)
  · exact .refl _

/-- A port that is fenced for its ILLEGAL events, and its observer with it. -/
theorem Dev.fencePos_fenced {d : Dev} {i : Nat} (cause sub : Nat) (_hi : i < 256) (h : d.fenced Kind.posPort i = false) :
    let n := d.fencePos i cause sub
    n.fenced Kind.posPort i = true ∧ n.fenced Kind.observer i = true := by
  set e := (d.markFenced Kind.posPort i true).markFenced Kind.observer i true with he
  have hmark : e.fenced Kind.posPort i = true ∧ e.fenced Kind.observer i = true := by
    rw [he, Dev.fenced_markFenced_any, Dev.fenced_markFenced_any, Dev.fenced_markFenced_any]
    constructor
    · split
      · rfl
      · rw [if_pos rfl]
    · rw [if_pos rfl]
  set g := ((((e.put F.PS_STAT_fenced i true).put F.PS_STAT_running i false).postFenced Kind.posPort i Cls.c cause sub).postFenced Kind.observer i
    Cls.c Code.FENCED 2).each [0, 1] fun d n => d.wr2 F.PS_CMP_STAT_armed i n 0 with hg
  have hgo : d.fencePos i cause sub = g.each (g.repeatersOf i) Dev.sourceLost := by
    unfold Dev.fencePos
    rw [h, if_neg (by decide)]
    rfl
  have hput : e.ReportsOnly ((e.put F.PS_STAT_fenced i true).put F.PS_STAT_running i false) :=
    (Dev.ReportsOnly.of_keeps (Dev.put_keeps _ F.PS_STAT_fenced _ _ (by decide)) (by decide)).trans
      (.of_keeps (Dev.put_keeps _ F.PS_STAT_running _ _ (by decide)) (by decide))
  have harmed : ∀ (f : Dev) (k : Nat), f.ReportsOnly (f.wr2 F.PS_CMP_STAT_armed i k 0) := fun f k =>
    .of_keeps (f.wr2_keeps F.PS_CMP_STAT_armed i k 0 (by decide)) (by decide)
  have hall : e.ReportsOnly (d.fencePos i cause sub) := by
    rw [hgo, hg]
    exact (((hput.trans (Dev.post_reportsOnly ..)).trans (Dev.post_reportsOnly ..)).trans (Dev.ReportsOnly.each harmed _ _)).trans
      (Dev.ReportsOnly.each Dev.sourceLost_reportsOnly _ _)
  exact ⟨hall.fenced _ _ |>.trans hmark.1, hall.fenced _ _ |>.trans hmark.2⟩

/-- An ILLEGAL event is counted, and one too many fences the port (R129). -/
theorem Dev.illegal_shows {d : Dev} {i : Nat} (hi : i < 256) (h : d.fenced Kind.posPort i = false) : let v := d.pos i; let n := d.illegal i
    n.flag F.PS_STAT_illegal i = true ∧ n.count i = d.count i ∧ n.rd F.PS_ILL_CNT_total i = min (d.rd F.PS_ILL_CNT_total i + 1) 65535 ∧
      n.rd F.PS_ILL_CNT_window i = min (v.winCnt + 1) 255 ∧
      (d.rd F.PS_ILL_CFG_ill_limit i < v.winCnt + 1 → n.fenced Kind.posPort i = true ∧ n.fenced Kind.observer i = true) := by
  set e := d.onPos i fun v => { v with ill := true, edge := none, meas := none } with he
  have hon : Keeps ⟨false, [], [.ps]⟩ d e := Dev.onPos_keeps ..
  have hcnt : (e.pos i).winCnt = (d.pos i).winCnt := by rw [he, Dev.pos_onPos]
  have hill : Keeps ⟨false, [], [.ps]⟩ e (e.countIll i) := Dev.onPos_keeps ..
  obtain ⟨hflag, htotal, hwindow, hfence⟩ := (e.countIll i).showIllegal_shows i ((e.pos i).winCnt + 1)
  have hshow := (e.countIll i).showIllegal_keeps i ((e.pos i).winCnt + 1)
  have hgo : d.illegal i = e.countIllegal i := rfl
  dsimp only
  refine ⟨d.illegal_flag i, d.illegal_count i i, ?_⟩
  rw [hgo, e.countIllegal_eq]
  generalize (e.countIll i).showIllegal i ((e.pos i).winCnt + 1) = f at hflag htotal hwindow hfence hshow ⊢
  rw [hill.rd F.PS_ILL_CNT_total i (by decide), hon.rd F.PS_ILL_CNT_total i (by decide)] at htotal
  have hlimit : f.rd F.PS_ILL_CFG_ill_limit i = d.rd F.PS_ILL_CFG_ill_limit i := by
    rw [hshow.rd F.PS_ILL_CFG_ill_limit i (by decide), hill.rd F.PS_ILL_CFG_ill_limit i (by decide), hon.rd F.PS_ILL_CFG_ill_limit i (by decide)]
  have hfree : f.fenced Kind.posPort i = false := by
    rw [hfence, Dev.fenced_congr (hill.parts .flt (by decide)), Dev.fenced_congr (hon.parts .flt (by decide)), h]
  rw [hcnt] at hwindow ⊢
  rw [hlimit]
  split
  next hover =>
    rw [f.fencePos_sameField i _ _ _ ofPort_illCnt.1, f.fencePos_sameField i _ _ _ ofPort_illCnt.2]
    exact ⟨htotal, hwindow, fun _ => Dev.fencePos_fenced _ _ hi hfree⟩
  next hunder => exact ⟨htotal, hwindow, fun hover => absurd hover hunder⟩

/-! ### A sample of the lines -/

/-- The lines that a sample shows. -/
def Dev.showLines (d : Dev) (i : Nat) (prim : BitVec 3) : Dev :=
  (d.setPos i { d.pos i with prim := prim }).pipe fun e => if d.psMode i = 1 then e else e.wr F.PS_STAT_hall i prim.toNat

/-- What the sample is to the count. -/
def Dev.stepOf (d : Dev) (i : Nat) (prim : BitVec 3) : Step4 :=
  if d.psMode i = 1 then quadStep (d.pos i).prim prim else hallStep (d.flag F.PS_HALL_CFG_rev i) (d.pos i).prim prim

/-- What the count takes of it. -/
def Dev.countStep (d : Dev) (i : Nat) (st : Step4) (stamp : Nat) : Dev :=
  match st with
  | .same => d
  | .edge up =>
    let n := d.edgeAt i (up != d.flag F.PS_CFG_invert i) stamp
    if d.measBroken i then n.onPos i fun v => { v with edge := none } else n
  | .illegal => d.illegal i

/-- The index that the same sample brings. -/
def Dev.takeIndex (d : Dev) (i mode : Nat) (was prim : BitVec 3) (stamp : Nat) : Dev :=
  if mode = 1 && prim.getLsbD 2 && !was.getLsbD 2 && d.indexGate i prim then d.indexEdge i stamp else d

/-- The secondary set that it brings. -/
def Dev.takeSecond (d : Dev) (i mode : Nat) (sec : BitVec 3) (stamp : Nat) : Dev := if mode = 3 then d.secondary i sec stamp else d

theorem Dev.lineSample_eq {d : Dev} {i : Nat} (prim sec : BitVec 3) (stamp : Nat) (hon : d.psOn i = true) (h1 : 1 ≤ d.psMode i) (h3 : d.psMode i ≤ 3) :
    d.lineSample i prim sec stamp =
      (((d.showLines i prim).countStep i (d.stepOf i prim) stamp).takeIndex i (d.psMode i) (d.pos i).prim prim stamp).takeSecond i (d.psMode i) sec
        stamp := by
  unfold Dev.lineSample
  dsimp only
  rw [hon, if_neg (by decide), if_pos (by omega)]
  rfl

theorem Dev.showLines_keeps (d : Dev) (i : Nat) (prim : BitVec 3) : Keeps ⟨false, [F.PS_STAT_hall], [.ps]⟩ d (d.showLines i prim) :=
  ((Dev.setPos_keeps ..).within (by decide)).trans (.ite (fun _ => .refl _ _) fun _ => (Dev.wr_keeps _ _ _ _ (by decide)).within (by decide))

theorem Dev.showLines_pos (d : Dev) (i : Nat) (prim : BitVec 3) : (d.showLines i prim).pos i = { d.pos i with prim := prim } := by
  unfold Dev.showLines Dev.pipe
  split
  · exact d.pos_setPos_self i _
  · rw [(Dev.wr_keeps _ F.PS_STAT_hall _ _ (by decide)).pos (by decide), Dev.pos_setPos_self]

/-- ILLEGAL events of the secondary set leave what the primary one counts. -/
theorem Dev.countIllegal_sameField (d : Dev) (i : Nat) {f : Fd} (hf : f.OfPort)
    (hapart : Foot.avoids ⟨false, [F.PS_STAT_illegal, F.PS_ILL_CNT_total, F.PS_ILL_CNT_window, F.FLT_STAT_lost, F.FLT_LOST], [.flt]⟩ f = true) :
    d.SameField (d.countIllegal i) f := by
  have hshow : d.SameField ((d.countIll i).showIllegal i ((d.pos i).winCnt + 1)) f :=
    ((d.onPos_keeps i _).sameField rfl).trans ((Dev.showIllegal_keeps ..).sameField hapart)
  rw [Dev.countIllegal_eq]
  split
  · exact hshow.trans (Dev.fencePos_sameField _ _ _ _ _ hf)
  · exact hshow

/-- What neither an index nor a secondary set writes. -/
structure Fd.OfPrimary (f : Fd) : Prop extends f.OfPort where
  apart : Foot.avoids ⟨false, [F.PS_STAT_illegal, F.PS_ILL_CNT_total, F.PS_ILL_CNT_window, F.FLT_STAT_lost, F.FLT_LOST], [.flt]⟩ f = true
  second : Foot.avoids ⟨false, [F.PS_STAT_sec_hall, F.PS_SEC_CNT, F.PS_SEC_SPEED], []⟩ f = true
  index : Foot.avoids ⟨false, [F.PS_STAT_indexed, F.PS_STAT_drift, F.PS_IDX_LO, F.PS_IDX_HI, F.PS_IDX_TIME_LO, F.PS_IDX_TIME_HI, F.FLT_STAT_lost,
    F.FLT_LOST], [.flt]⟩ f = true

theorem Fd.OfPrimary.avoided {f : Fd} (hf : f.OfPrimary) {g : Fd} (h : g ∈ [F.PS_STAT_sec_hall, F.PS_SEC_CNT, F.PS_SEC_SPEED]) :
    Foot.avoids ⟨false, [g], []⟩ f = true := by
  have hs := hf.second
  simp only [Foot.avoids, Bool.not_false, Bool.true_and, List.all_eq_true, List.mem_singleton, forall_eq] at hs ⊢
  exact hs g h

theorem Dev.secondary_sameField (d : Dev) (i : Nat) (sec : BitVec 3) (stamp : Nat) {f : Fd} (hf : f.OfPrimary) :
    d.SameField (d.secondary i sec stamp) f := by
  have hset : d.SameField ((d.setPos i { d.pos i with sec := sec }).wr F.PS_STAT_sec_hall i sec.toNat) f :=
    ((d.setPos_keeps i _).sameField rfl).trans ((Dev.wr_keeps _ F.PS_STAT_sec_hall _ _ (by decide)).sameField (hf.avoided (by decide)))
  have hspeed : ∀ (e : Dev) v, e.SameField (e.wr F.PS_SEC_SPEED i v) f := fun e v =>
    (e.wr_keeps F.PS_SEC_SPEED i v (by decide)).sameField (hf.avoided (by decide))
  have hcnt : ∀ (e : Dev) v, e.SameField (e.wr F.PS_SEC_CNT i v) f := fun e v =>
    (e.wr_keeps F.PS_SEC_CNT i v (by decide)).sameField (hf.avoided (by decide))
  have hon : ∀ (e : Dev) (g : PosT → PosT), e.SameField (e.onPos i g) f := fun e g => (e.onPos_keeps i g).sameField rfl
  unfold Dev.secondary
  dsimp only
  split
  · exact hset
  · exact hset.trans (Dev.countIllegal_sameField _ _ hf.toOfPort hf.apart)
  · split
    · exact ((hset.trans (hspeed _ _)).trans (hon _ _)).trans (hcnt _ _)
    · exact (hset.trans (hon _ _)).trans (hcnt _ _)

theorem Dev.takeIndex_sameField (d : Dev) (i mode : Nat) (was prim : BitVec 3) (stamp : Nat) {f : Fd} (hf : f.OfPrimary) :
    d.SameField (d.takeIndex i mode was prim stamp) f := by
  unfold Dev.takeIndex
  split
  · exact (d.indexEdge_keeps i stamp).sameField hf.index
  · exact fun _ => rfl

theorem Dev.takeSecond_sameField (d : Dev) (i mode : Nat) (sec : BitVec 3) (stamp : Nat) {f : Fd} (hf : f.OfPrimary) :
    d.SameField (d.takeSecond i mode sec stamp) f := by
  unfold Dev.takeSecond
  split
  · exact d.secondary_sameField _ _ _ hf
  · exact fun _ => rfl

theorem ofPrimary_count : Fd.OfPrimary F.PS_CNT_LO ∧ Fd.OfPrimary F.PS_CNT_HI :=
  ⟨⟨ofPort_count.1, by decide, by decide, by decide⟩, ⟨ofPort_count.2, by decide, by decide, by decide⟩⟩

theorem ofPrimary_edgeTime : Fd.OfPrimary F.PS_EDGE_TIME_LO ∧ Fd.OfPrimary F.PS_EDGE_TIME_HI :=
  ⟨⟨ofPort_edgeTime.1, by decide, by decide, by decide⟩, ⟨ofPort_edgeTime.2, by decide, by decide, by decide⟩⟩

/-- The secondary set leaves the lines of the primary one. -/
theorem Dev.secondary_prim (d : Dev) (i : Nat) (sec : BitVec 3) (stamp : Nat) : ((d.secondary i sec stamp).pos i).prim = (d.pos i).prim := by
  have hshow : ((d.setPos i { d.pos i with sec := sec }).wr F.PS_STAT_sec_hall i sec.toNat).pos i = { d.pos i with sec := sec } := by
    rw [(Dev.wr_keeps _ F.PS_STAT_sec_hall _ _ (by decide)).pos (by decide), Dev.pos_setPos_self]
  unfold Dev.secondary
  dsimp only
  split
  · rw [hshow]
  · rw [Dev.countIllegal_pos, hshow]
  next up _ =>
    rw [(Dev.wr_keeps _ F.PS_SEC_CNT _ _ (by decide)).pos (by decide), Dev.pos_onPos, apply_ite PosT.prim, ite_self]
    split
    · rw [(Dev.wr_keeps _ F.PS_SEC_SPEED _ _ (by decide)).pos (by decide), hshow]
    · rw [hshow]

theorem Dev.takeIndex_pos (d : Dev) (i mode : Nat) (was prim : BitVec 3) (stamp : Nat) : (d.takeIndex i mode was prim stamp).pos i = d.pos i := by
  unfold Dev.takeIndex
  split
  · exact (d.indexEdge_keeps i stamp).pos (by decide) i
  · rfl

theorem Dev.takeSecond_prim (d : Dev) (i mode : Nat) (sec : BitVec 3) (stamp : Nat) :
    ((d.takeSecond i mode sec stamp).pos i).prim = (d.pos i).prim := by
  unfold Dev.takeSecond
  split
  · exact d.secondary_prim i sec stamp
  · rfl

theorem Dev.countStep_edge (d : Dev) (i : Nat) (up : Bool) (stamp : Nat) : let n := d.countStep i (.edge up) stamp
    n.count i = signed 64 (unsigned 64 (d.count i + if up != d.flag F.PS_CFG_invert i then 1 else -1)) ∧
      n.rd64 F.PS_EDGE_TIME_LO F.PS_EDGE_TIME_HI i = stamp % 2 ^ 64 ∧ (n.pos i).prim = (d.pos i).prim := by
  obtain ⟨hcount, htime, hprim⟩ := d.edgeAt_shows i (up != d.flag F.PS_CFG_invert i) stamp
  unfold Dev.countStep
  dsimp only
  split
  · have hk := (d.edgeAt i (up != d.flag F.PS_CFG_invert i) stamp).onPos_keeps i fun v => { v with edge := none }
    rw [hk.count (by decide) (by decide), hk.rd64 _ _ i (by decide) (by decide), Dev.pos_onPos]
    exact ⟨hcount, htime, hprim⟩
  · exact ⟨hcount, htime, hprim⟩

/-- A legal edge moves the count. -/
theorem Dev.lineSample_edge {d : Dev} {i : Nat} {prim : BitVec 3} {up : Bool} (sec : BitVec 3) (stamp : Nat) (hon : d.psOn i = true)
    (h1 : 1 ≤ d.psMode i) (h3 : d.psMode i ≤ 3) (hst : d.stepOf i prim = .edge up) : let n := d.lineSample i prim sec stamp
    n.count i = signed 64 (unsigned 64 (d.count i + if up != d.flag F.PS_CFG_invert i then 1 else -1)) ∧
      n.rd64 F.PS_EDGE_TIME_LO F.PS_EDGE_TIME_HI i = stamp % 2 ^ 64 ∧ (n.pos i).prim = prim := by
  have hshow := d.showLines_keeps i prim
  obtain ⟨hcount, htime, hprim⟩ := (d.showLines i prim).countStep_edge i up stamp
  set e := (d.showLines i prim).countStep i (.edge up) stamp with he
  have hrest : ∀ f : Fd, f.OfPrimary → e.SameField ((e.takeIndex i (d.psMode i) (d.pos i).prim prim stamp).takeSecond i (d.psMode i) sec stamp) f :=
    fun f hf => (e.takeIndex_sameField _ _ _ _ _ hf).trans (Dev.takeSecond_sameField _ _ _ _ _ hf)
  dsimp only
  rw [Dev.lineSample_eq prim sec stamp hon h1 h3, hst, ← he, Dev.count_of_sameField (hrest _ ofPrimary_count.1) (hrest _ ofPrimary_count.2), Dev.rd64,
    hrest _ ofPrimary_edgeTime.1, hrest _ ofPrimary_edgeTime.2, ← Dev.rd64, Dev.takeSecond_prim, Dev.takeIndex_pos, hcount, htime, hprim, Dev.showLines_pos, hshow.count (by decide) (by decide),
    hshow.flag F.PS_CFG_invert i (by decide)]
  exact ⟨rfl, rfl, rfl⟩

/-- An index reports at most its drift (R130). -/
theorem Dev.indexEdge_reportsOnly (d : Dev) (i stamp : Nat) : d.ReportsOnly (d.indexEdge i stamp) := by
  obtain ⟨late, moved, hgo⟩ : ∃ (late : Bool) (moved : Nat), d.indexEdge i stamp =
      let g := ((d.wrI64 F.PS_IDX_LO F.PS_IDX_HI i (d.count i)).wr64 F.PS_IDX_TIME_LO F.PS_IDX_TIME_HI i stamp).put F.PS_STAT_indexed i true
      if late then (g.put F.PS_STAT_drift i true).report Kind.posPort i Cls.report Code.DRIFT moved else g := ⟨_, _, rfl⟩
  have hidx : Keeps ⟨false, [F.PS_STAT_indexed, F.PS_IDX_LO, F.PS_IDX_HI, F.PS_IDX_TIME_LO, F.PS_IDX_TIME_HI], []⟩ d
      (((d.wrI64 F.PS_IDX_LO F.PS_IDX_HI i (d.count i)).wr64 F.PS_IDX_TIME_LO F.PS_IDX_TIME_HI i stamp).put F.PS_STAT_indexed i true) :=
    (((Dev.wrI64_keeps _ _ _ _ _ (by decide) (by decide)).within (by decide)).trans
      ((Dev.wr64_keeps _ _ _ _ _ (by decide) (by decide)).within (by decide))).trans ((Dev.put_keeps _ _ _ _ (by decide)).within (by decide))
  rw [hgo]
  cases late
  · exact .of_keeps hidx (by decide)
  · exact ((Dev.ReportsOnly.of_keeps hidx (by decide)).trans
      (.of_keeps (Dev.put_keeps _ F.PS_STAT_drift i true (by decide)) (by decide))).trans (Dev.report_reportsOnly ..)

/-- An illegal one leaves it. -/
theorem Dev.lineSample_illegal {d : Dev} {i : Nat} {prim : BitVec 3} (sec : BitVec 3) (stamp : Nat) (hi : i < 256) (hon : d.psOn i = true)
    (h1 : 1 ≤ d.psMode i) (h2 : d.psMode i ≤ 2) (hst : d.stepOf i prim = .illegal) : let v := d.pos i; let n := d.lineSample i prim sec stamp
    n.flag F.PS_STAT_illegal i = true ∧ n.count i = d.count i ∧ n.rd F.PS_ILL_CNT_total i = min (d.rd F.PS_ILL_CNT_total i + 1) 65535 ∧
      n.rd F.PS_ILL_CNT_window i = min (v.winCnt + 1) 255 ∧
      (d.rd F.PS_ILL_CFG_ill_limit i < v.winCnt + 1 → n.fenced Kind.posPort i = true ∧ n.fenced Kind.observer i = true) := by
  have hshow := d.showLines_keeps i prim
  obtain ⟨hflag, hcount, htotal, hwindow, hfence⟩ := Dev.illegal_shows (d := d.showLines i prim) (i := i) hi
    ((Dev.fenced_congr (hshow.parts .flt (by decide)) _ _).trans (Dev.psOn_iff.mp hon).2)
  rw [hshow.count (by decide) (by decide)] at hcount
  rw [hshow.rd F.PS_ILL_CNT_total i (by decide)] at htotal
  rw [Dev.showLines_pos] at hwindow hfence
  rw [hshow.rd F.PS_ILL_CFG_ill_limit i (by decide)] at hfence
  have hgo : d.lineSample i prim sec stamp = ((d.showLines i prim).illegal i).takeIndex i (d.psMode i) (d.pos i).prim prim stamp := by
    rw [Dev.lineSample_eq prim sec stamp hon h1 (by omega), hst, Dev.countStep, Dev.takeSecond, if_neg (by omega)]
  dsimp only
  rw [hgo]
  generalize (d.showLines i prim).illegal i = e at hflag hcount htotal hwindow hfence ⊢
  unfold Dev.takeIndex
  split
  · have hk := e.indexEdge_keeps i stamp
    rw [hk.flag F.PS_STAT_illegal i (by decide), hk.count (by decide) (by decide), hk.rd F.PS_ILL_CNT_total i (by decide),
      hk.rd F.PS_ILL_CNT_window i (by decide), (e.indexEdge_reportsOnly i stamp).fenced, (e.indexEdge_reportsOnly i stamp).fenced]
    exact ⟨hflag, hcount, htotal, hwindow, hfence⟩
  · exact ⟨hflag, hcount, htotal, hwindow, hfence⟩

/-! ### Broken lines (R127) -/

/-- A line that breaks on a port that runs. -/
theorem Dev.breakLine_shows {d : Dev} {i cause : Nat} (hfree : d.fenced Kind.posPort i = false) (hnew : cause ∉ (d.pos i).broken) :
    let n := d.breakLine i cause
    (n.pos i).broken = (d.pos i).broken ++ [cause] ∧ n.flag F.PS_STAT_broken_live i = true ∧ n.flag F.PS_STAT_broken i = true := by
  set c := d.setPos i { d.pos i with broken := (d.pos i).broken ++ [cause] } with hc
  set e := c.put F.PS_STAT_broken_live i true with he
  have hgo : d.breakLine i cause =
      (e.put F.PS_STAT_broken i (!c.fenced Kind.posPort i || c.flag F.PS_STAT_broken i)).report Kind.posPort i Cls.report Code.BROKEN cause := by
    unfold Dev.breakLine
    dsimp only
    rw [if_neg fun h => hnew (List.contains_iff_mem.mp h)]
  have hon : (!c.fenced Kind.posPort i || c.flag F.PS_STAT_broken i) = true := by
    have hfence : c.fenced Kind.posPort i = false := hfree
    rw [hfence]
    rfl
  have hput := e.put_keeps F.PS_STAT_broken i true (by decide)
  have hreport := (e.put F.PS_STAT_broken i true).report_keeps Kind.posPort i Cls.report Code.BROKEN cause 0
  dsimp only
  rw [hgo, hon, hreport.pos (by decide), hput.pos (by decide), hreport.flag F.PS_STAT_broken_live i (by decide),
    hput.flag F.PS_STAT_broken_live i (by decide), hreport.flag F.PS_STAT_broken i (by decide), he,
    (Dev.put_keeps _ F.PS_STAT_broken_live i true (by decide)).pos (by decide), hc, Dev.pos_setPos_self]
  exact ⟨rfl, Dev.flag_put _ F.PS_STAT_broken_live _ _ (by decide) rfl, Dev.flag_put _ F.PS_STAT_broken _ _ (by decide) rfl⟩

/-! ### The commands -/

theorem execLineChange_of_filtered {s : State} {t : Nat} {i : Fin 6} {l : Lands} {since stamp : Nat} (h : (s.now t).filtered i since stamp = true)
    {P : Dev → Prop} (hP : P ((s.now t).lineSample i ((s.now t).linesOf i l).1 ((s.now t).linesOf i l).2 stamp)) :
    Does s (.lineChange t i l since stamp) P := by
  refine Does.of_effect (show exec (.lineChange t i l since stamp) s = execLineChange t i l since stamp s from rfl) ?_
  dsimp only
  rw [h, if_pos rfl]
  exact hP

/-- Settles O12: a sample of the lines moves the count or is ILLEGAL; windows, broken lines and periods. -/
theorem linesAndCounts : Obligations.LinesAndCounts := by
  unfold Obligations.LinesAndCounts
  refine ⟨by decide, by decide, ?_⟩
  intro s t i d v
  refine ⟨?edge, ?illegal, ?unfiltered, ?window, ?broken, ?clear, ?stays, ?period, ?second⟩
  case edge =>
    intro l since stamp up p hon h3 h1 hfilt hst
    exact execLineChange_of_filtered hfilt (Dev.lineSample_edge (d := d) _ stamp hon h1 h3 hst)
  case illegal =>
    intro l since stamp p hon h2 h1 hfilt hst
    exact execLineChange_of_filtered hfilt (Dev.lineSample_illegal (d := d) _ stamp (i.isLt.trans (by decide)) hon h1 h2 hst)
  case unfiltered =>
    intro l since stamp hshort
    refine Does.of_effect (show exec (.lineChange t i l since stamp) s = execLineChange t i l since stamp s from rfl) ?_
    have hno : d.filtered i since stamp = false := by
      rw [Dev.filtered, Dev.filterTicks, Bool.and_assoc, Bool.and_eq_false_iff]
      refine .inl ?_
      rw [Bool.eq_false_iff, ne_eq, Nat.ble_eq]
      omega
    rw [show s.now t = d from rfl, hno]
    exact ⟨rfl, rfl⟩
  case window =>
    intro hfree hend
    refine Does.of_effect (show exec (.illWindowExpiry t i) s = execIllWindowExpiry t i s from rfl) ?_
    have hgo : ¬ (d.fenced Kind.posPort i || Nat.blt d.time (d.illWindowEnd i)) = true := by
      rw [hfree, Bool.false_or, Nat.blt_eq]
      omega
    rw [show s.now t = d from rfl, if_neg hgo, Dev.pos_onPos, (Dev.onPos_keeps ..).rd F.PS_ILL_CNT_window i (by decide)]
    exact ⟨Dev.rd_wr_of_lt _ F.PS_ILL_CNT_window _ (by decide) (by decide), rfl, rfl⟩
  case broken =>
    intro cause x since hon hnow hnew
    obtain ⟨hwatch, hfree⟩ := Dev.psOn_iff.mp hon
    refine Does.of_effect (show exec (.broken t i ⟨⟨cause, x⟩, since⟩) s = execBroken t i ⟨⟨cause, x⟩, since⟩ s from rfl) ?_
    rw [show s.now t = d from rfl, hwatch, hnow, if_pos (by rfl)]
    exact Dev.breakLine_shows hfree hnew
  case clear =>
    intro cause x hended
    refine Does.of_effect (show exec (.brokenLiveClear t i ⟨cause, x⟩) s = execBrokenLiveClear t i ⟨cause, x⟩ s from rfl) ?_
    have hgo : (d.psWatches i && d.brokenNow i cause x 0) = false := Bool.and_eq_false_iff.mpr hended
    rw [show s.now t = d from rfl]
    dsimp only
    rw [hgo, if_neg (by decide), Dev.mendLine_pos]
    exact ⟨rfl, Dev.flag_put _ F.PS_STAT_broken_live _ _ (by decide) rfl⟩
  case stays =>
    intro cause x hwatch hnow
    refine Does.of_effect (show exec (.brokenLiveClear t i ⟨cause, x⟩) s = execBrokenLiveClear t i ⟨cause, x⟩ s from rfl) ?_
    rw [show s.now t = d from rfl]
    dsimp only
    rw [hwatch, hnow, if_pos (by decide)]
  case period =>
    intro hfree hdue
    refine Does.of_effect (show exec (.periodTimeout t i false) s = execPeriodTimeout t i false s from rfl) ?_
    rw [show s.now t = d from rfl]
    dsimp only
    rw [if_pos ⟨hdue, hfree⟩]
    exact Dev.rd_wr_of_lt _ F.PS_PERIOD _ (by decide) (by decide)
  case second =>
    intro hfree hdue
    refine Does.of_effect (show exec (.periodTimeout t i true) s = execPeriodTimeout t i true s from rfl) ?_
    rw [show s.now t = d from rfl]
    dsimp only
    rw [if_pos ⟨hdue, hfree⟩]
    exact Dev.rd_wr_of_lt _ F.PS_SEC_SPEED _ (by decide) (by decide)

end Sys2Proof.Machine
end

section
/-! Presets, observers, latches, compares and repeaters (R137 to R145); obligation O14. -/

namespace Sys2Proof.Machine

/-! ### Signed register pairs -/

theorem signed_bounds (v : Nat) : -2 ^ 63 ≤ signed 64 v ∧ signed 64 v < 2 ^ 63 := by
  unfold signed
  split <;> omega

/-- A value within the range of a register pair reads back. -/
theorem Dev.rdI64_wrI64_of_mem (d : Dev) (lo hi : Fd) (i : Nat) {v : Int} (hlo : lo.lo = 0 ∧ lo.width = 32) (hhi : hi.lo = 0 ∧ hi.width = 32)
    (ha : lo.apart hi = true) (h : -2 ^ 63 ≤ v ∧ v < 2 ^ 63) : (d.wrI64 lo hi i v).rdI64 lo hi i = v := by
  rw [Dev.rdI64_wrI64 d lo hi i v hlo hhi ha, signed_unsigned h.1 h.2]

theorem Keeps.rd2 {w : Foot} {d e : Dev} (hk : Keeps w d e) (f : Fd) (i j : Nat) (h : w.avoids f = true) : e.rd2 f i j = d.rd2 f i j :=
  hk.toFrame.rd2 f i j h

/-! ### PRESET (R137) -/

/-- The count and what of the observer moves with it. -/
def Dev.presetTo (d : Dev) (i : Nat) (p : Int) : Dev :=
  (d.wrI64 F.PS_CNT_LO F.PS_CNT_HI i p).onPos i fun v =>
    { v with pos := v.pos + 65536 * (p - d.count i), edge := v.edge.map fun e => (e.1 + (p - d.count i), e.2),
             meas := v.meas.map fun e => (e.1 + (p - d.count i), e.2) }

theorem Dev.preset_free {d : Dev} {i : Nat} (h : d.fenced Kind.posPort i = false) : let p := d.rdI64 F.PS_PRESET_LO F.PS_PRESET_HI i
    let n := d.preset i
    n.count i = p ∧ n.rd F.PS_CTRL_status i = Code.OK ∧ (n.pos i).pos = (d.pos i).pos + 65536 * (p - d.count i) ∧
      (n.pos i).edge = (d.pos i).edge.map fun e => (e.1 + (p - d.count i), e.2) := by
  set c := d.wr F.PS_CTRL_cmd i 1 with hc
  have hcmd : Keeps ⟨false, [F.PS_CTRL_cmd], []⟩ d c := d.wr_keeps F.PS_CTRL_cmd i 1 (by decide)
  have hp : c.rdI64 F.PS_PRESET_LO F.PS_PRESET_HI i = d.rdI64 F.PS_PRESET_LO F.PS_PRESET_HI i := hcmd.rdI64 _ _ i (by decide) (by decide)
  have hcount : c.count i = d.count i := hcmd.count (by decide) (by decide) i
  have hpos : c.pos i = d.pos i := hcmd.pos (by decide) i
  have hgo : d.preset i = ((c.presetTo i (c.rdI64 F.PS_PRESET_LO F.PS_PRESET_HI i)).wr F.PS_CTRL_status i Code.OK).showObserver i := by
    unfold Dev.preset
    dsimp only
    rw [if_neg (by rw [show (d.wr F.PS_CTRL_cmd i 1).fenced Kind.posPort i = false from h]; decide)]
    rfl
  have hmoved : (c.presetTo i (d.rdI64 F.PS_PRESET_LO F.PS_PRESET_HI i)).count i = d.rdI64 F.PS_PRESET_LO F.PS_PRESET_HI i := by
    rw [Dev.presetTo, (Dev.onPos_keeps ..).count (by decide) (by decide)]
    exact c.rdI64_wrI64_of_mem F.PS_CNT_LO F.PS_CNT_HI i (by decide) (by decide) (by decide) (signed_bounds _)
  have hheld : (c.presetTo i (d.rdI64 F.PS_PRESET_LO F.PS_PRESET_HI i)).pos i = _ := Dev.pos_onPos ..
  rw [(c.wrI64_keeps F.PS_CNT_LO F.PS_CNT_HI i _ (by decide) (by decide)).pos (by decide), hcount, hpos] at hheld
  dsimp only
  rw [hgo, hp]
  generalize c.presetTo i (d.rdI64 F.PS_PRESET_LO F.PS_PRESET_HI i) = e at hmoved hheld ⊢
  have hstatus := e.wr_keeps F.PS_CTRL_status i Code.OK (by decide)
  have hshow := (e.wr F.PS_CTRL_status i Code.OK).showObserver_keeps i
  rw [hshow.count (by decide) (by decide), hstatus.count (by decide) (by decide), hshow.rd F.PS_CTRL_status i (by decide),
    hshow.pos (by decide), hstatus.pos (by decide), hheld]
  exact ⟨hmoved, Dev.rd_wr_of_lt _ F.PS_CTRL_status _ (by decide) (by decide), rfl, rfl⟩

theorem Dev.preset_fenced {d : Dev} {i : Nat} (h : d.fenced Kind.posPort i = true) :
    (d.preset i).count i = d.count i ∧ (d.preset i).rd F.PS_CTRL_status i = Code.FENCED := by
  have hgo : d.preset i = (d.wr F.PS_CTRL_cmd i 1).wr F.PS_CTRL_status i Code.FENCED := by
    unfold Dev.preset
    dsimp only
    rw [if_pos (show (d.wr F.PS_CTRL_cmd i 1).fenced Kind.posPort i = true from h)]
  rw [hgo, (Dev.wr_keeps _ F.PS_CTRL_status i _ (by decide)).count (by decide) (by decide),
    (Dev.wr_keeps _ F.PS_CTRL_cmd i _ (by decide)).count (by decide) (by decide)]
  exact ⟨rfl, Dev.rd_wr_of_lt _ F.PS_CTRL_status _ (by decide) (by decide)⟩

/-! ### An update of the observer (R138, R139) -/

/-- What the lock check counts. -/
def PosT.lockCount (v : PosT) (good : Bool) : PosT :=
  if good then { v with within := min 64 (v.within + 1), beyond := 0 } else { v with within := 0, beyond := min 16 (v.beyond + 1) }

/-- Does an error lie within the lock tolerance? -/
def Dev.lockGood (d : Dev) (i : Nat) (e : Rat) : Bool :=
  decide (-(d.rd F.PS_OBS_LOCK_lock_tol i : Rat) ≤ e) && decide (e ≤ (d.rd F.PS_OBS_LOCK_lock_tol i : Rat))

theorem Dev.lockCheck_eq (d : Dev) (i : Nat) (e : Rat) : d.lockCheck i e =
    let c := d.onPos i fun v => v.lockCount (d.lockGood i e)
    if (c.pos i).within = 64 then c.put F.PS_STAT_locked i true else if (c.pos i).beyond = 16 then c.put F.PS_STAT_locked i false else c := rfl

theorem Dev.lockCheck_shows (d : Dev) (i : Nat) (e : Rat) : let v := (d.pos i).lockCount (d.lockGood i e); let n := d.lockCheck i e
    n.pos i = v ∧ (v.within = 64 → n.flag F.PS_STAT_locked i = true) ∧
      (v.within ≠ 64 → v.beyond = 16 → n.flag F.PS_STAT_locked i = false) := by
  dsimp only
  rw [Dev.lockCheck_eq]
  dsimp only
  have hv := d.pos_onPos i fun v => v.lockCount (d.lockGood i e)
  generalize (d.onPos i fun v => v.lockCount (d.lockGood i e)) = c at hv ⊢
  rw [hv]
  split
  next h64 =>
    rw [(Dev.put_keeps _ F.PS_STAT_locked i _ (by decide)).pos (by decide)]
    exact ⟨hv, fun _ => Dev.flag_put _ F.PS_STAT_locked _ _ (by decide) rfl, fun h => absurd h64 h⟩
  next h64 =>
    split
    next h16 =>
      rw [(Dev.put_keeps _ F.PS_STAT_locked i _ (by decide)).pos (by decide)]
      exact ⟨hv, fun h => absurd h h64, fun _ _ => Dev.flag_put _ F.PS_STAT_locked _ _ (by decide) rfl⟩
    next h16 => exact ⟨hv, fun h => absurd h h64, fun _ h => absurd h h16⟩

/-- The observer after a step of T = 200 ns. -/
def Dev.observedPos (d : Dev) (i : Nat) : PosT :=
  let v := d.pos i
  let T : Rat := 1 / 5000000
  let wn : Rat := Config.twoPi * (d.rd F.PS_OBS_CFG_bw i : Nat)
  let e := d.obsError i (v.predict T).1 (v.predict T).2
  { v with pos := ratRound (((v.predict T).1 + 3 * wn * T * e) * 65536), spd := (v.predict T).2 + 3 * wn * wn * T * e,
           acc := v.acc + wn * wn * wn * T * e, obsAt := d.time, edge := none, meas := none, ill := false }

/-- The error of that step. -/
def Dev.stepError (d : Dev) (i : Nat) : Rat := d.obsError i ((d.pos i).predict (1 / 5000000)).1 ((d.pos i).predict (1 / 5000000)).2

theorem Dev.observe_eq {d : Dev} {i : Nat} (hon : d.psOn i = true) (hseeded : (d.pos i).seeded = true) : d.observe i =
    ((((d.setPos i (d.observedPos i)).wr F.PS_OBS_ERR i (sat32 (ratRound (d.stepError i * 65536))).toNat).lockCheck i (d.stepError i)).showObserver i) := by
  unfold Dev.observe
  dsimp only
  rw [if_neg (by rw [hon, hseeded]; decide)]
  rfl

theorem Dev.observe_shows {d : Dev} {i : Nat} (hon : d.psOn i = true) (hseeded : (d.pos i).seeded = true) :
    let v := (d.observedPos i).lockCount (d.lockGood i (d.stepError i)); let n := d.observe i
    n.pos i = v ∧ (v.within = 64 → n.flag F.PS_STAT_locked i = true) ∧
      (v.within ≠ 64 → v.beyond = 16 → n.flag F.PS_STAT_locked i = false) := by
  set c := (d.setPos i (d.observedPos i)).wr F.PS_OBS_ERR i (sat32 (ratRound (d.stepError i * 65536))).toNat with hc
  have hwr := (d.setPos i (d.observedPos i)).wr_keeps F.PS_OBS_ERR i (sat32 (ratRound (d.stepError i * 65536))).toNat (by decide)
  have hpos : c.pos i = d.observedPos i := (hwr.pos (by decide) i).trans (d.pos_setPos_self i _)
  have hgood : c.lockGood i (d.stepError i) = d.lockGood i (d.stepError i) := by
    rw [Dev.lockGood, Dev.lockGood, hwr.rd F.PS_OBS_LOCK_lock_tol i (by decide)]
    rfl
  have hshows := c.lockCheck_shows i (d.stepError i)
  dsimp only at hshows ⊢
  rw [hpos, hgood] at hshows
  have hshow := (c.lockCheck i (d.stepError i)).showObserver_keeps i
  rw [Dev.observe_eq hon hseeded, hshow.pos (by decide), hshow.flag F.PS_STAT_locked i (by decide)]
  exact hshows

theorem PosT.lockCount_steps (v : PosT) (good : Bool) : (v.lockCount good).pos = v.pos ∧ (v.lockCount good).spd = v.spd ∧
    (v.lockCount good).acc = v.acc ∧ (v.lockCount good).obsAt = v.obsAt := by
  cases good <;> exact ⟨rfl, rfl, rfl, rfl⟩

theorem Dev.lockGood_eq_true {d : Dev} {i : Nat} {e : Rat} (h1 : -(d.rd F.PS_OBS_LOCK_lock_tol i : Rat) ≤ e)
    (h2 : e ≤ (d.rd F.PS_OBS_LOCK_lock_tol i : Rat)) : d.lockGood i e = true := by
  rw [Dev.lockGood, decide_eq_true h1, decide_eq_true h2]
  rfl

theorem Dev.lockGood_eq_false {d : Dev} {i : Nat} {e : Rat} (h : (d.rd F.PS_OBS_LOCK_lock_tol i : Rat) < e) : d.lockGood i e = false := by
  rw [Dev.lockGood, decide_eq_false (not_le.mpr h), Bool.and_false]

/-! ### A latch of the observer (R140, R141) -/

theorem Dev.takeFiring_first {d : Dev} {u stamp : Nat} {r : List Nat} (h : d.fired u = stamp :: r) (hdue : stamp / 16 + 120 ≤ d.time) :
    d.takeFiring u = some (stamp / 16, d.setFired u r) := by
  unfold Dev.takeFiring
  rw [h]
  dsimp only
  rw [if_pos hdue]

theorem Dev.angleOf_lt (d : Dev) (i : Nat) (pos : Rat) : d.angleOf i pos < 2 ^ 32 := Nat.mod_lt _ (by decide)

theorem Dev.eangleOf_lt (d : Dev) (i angle : Nat) : d.eangleOf i angle < 2 ^ 32 := Nat.mod_lt _ (by decide)

/-- The registers that a latch writes. -/
def Dev.latchRegs (d : Dev) (i a speed info stamp : Nat) : Dev :=
  ((((d.wr F.PS_LAT_ANGLE i a).wr F.PS_LAT_EANGLE i (d.eangleOf i a)).wr F.PS_LAT_SPEED i speed).wr F.PS_LAT_INFO i info).wr64
    F.PS_LAT_STAMP_LO F.PS_LAT_STAMP_HI i stamp

theorem Dev.latchObserver_eq (d : Dev) (i stamp : Nat) : ∃ speed info f r, d.latchObserver i stamp =
    ((d.latchRegs i (d.angleOf i ((d.pos i).predict (seconds (d.pos i).obsAt stamp)).1) speed info stamp).onPos i f).sendRec r :=
  ⟨_, _, _, _, rfl⟩

theorem Dev.latchRegs_shows (d : Dev) (i speed info stamp : Nat) {a : Nat} (ha : a < 2 ^ 32) : let n := d.latchRegs i a speed info stamp
    n.rd64 F.PS_LAT_STAMP_LO F.PS_LAT_STAMP_HI i = stamp % 2 ^ 64 ∧ n.rd F.PS_LAT_ANGLE i = a ∧ n.rd F.PS_LAT_EANGLE i = d.eangleOf i a := by
  set e := (d.wr F.PS_LAT_ANGLE i a).wr F.PS_LAT_EANGLE i (d.eangleOf i a) with he
  have hrest : Keeps ⟨false, [F.PS_LAT_SPEED, F.PS_LAT_INFO, F.PS_LAT_STAMP_LO, F.PS_LAT_STAMP_HI], []⟩ e (d.latchRegs i a speed info stamp) :=
    (((e.wr_keeps F.PS_LAT_SPEED i speed (by decide)).within (by decide)).trans ((Dev.wr_keeps _ F.PS_LAT_INFO i info (by decide)).within
      (by decide))).trans (((Dev.wr_keeps _ F.PS_LAT_STAMP_LO i _ (by decide)).within (by decide)).trans
      ((Dev.wr_keeps _ F.PS_LAT_STAMP_HI i _ (by decide)).within (by decide)))
  dsimp only
  rw [hrest.rd F.PS_LAT_ANGLE i (by decide), hrest.rd F.PS_LAT_EANGLE i (by decide), he, Dev.rd_wr_apart _ F.PS_LAT_ANGLE F.PS_LAT_EANGLE _ _ _
    (by decide) (by decide)]
  exact ⟨Dev.rd64_wr64 _ F.PS_LAT_STAMP_LO F.PS_LAT_STAMP_HI i stamp (by decide) (by decide) (by decide),
    Dev.rd_wr_of_lt _ F.PS_LAT_ANGLE _ (by decide) ha, Dev.rd_wr_of_lt _ F.PS_LAT_EANGLE _ (by decide) (Dev.eangleOf_lt ..)⟩

theorem Dev.latchObserver_shows (d : Dev) (i stamp u : Nat) : let a := d.angleOf i ((d.pos i).predict (seconds (d.pos i).obsAt stamp)).1
    let n := d.latchObserver i stamp
    n.fired u = d.fired u ∧ n.rd64 F.PS_LAT_STAMP_LO F.PS_LAT_STAMP_HI i = stamp % 2 ^ 64 ∧ n.rd F.PS_LAT_ANGLE i = a ∧
      n.rd F.PS_LAT_EANGLE i = d.eangleOf i a := by
  have htb := (d.latchObserver_keeps i stamp).parts .tb (by decide)
  obtain ⟨speed, info, f, r, heq⟩ := d.latchObserver_eq i stamp
  obtain ⟨hstamp, hangle, heangle⟩ := d.latchRegs_shows i speed info stamp
    (d.angleOf_lt i ((d.pos i).predict (seconds (d.pos i).obsAt stamp)).1)
  dsimp only
  refine ⟨by rw [Dev.fired, htb, Dev.fired], ?_⟩
  generalize d.angleOf i ((d.pos i).predict (seconds (d.pos i).obsAt stamp)).1 = a at heq hstamp hangle heangle ⊢
  have hrest : Keeps ⟨false, [], [.ps, .be]⟩ (d.latchRegs i a speed info stamp) (d.latchObserver i stamp) := by
    rw [heq]
    exact ((Dev.onPos_keeps ..).within (by decide)).trans ((Dev.sendRec_keeps ..).within (by decide))
  rw [hrest.rd64 _ _ i (by decide) (by decide), hrest.rd F.PS_LAT_ANGLE i (by decide), hrest.rd F.PS_LAT_EANGLE i (by decide)]
  exact ⟨hstamp, hangle, heangle⟩

/-! ### Compares (R142, R143) -/

/-- Does the count lie behind the compare's value? -/
def Dev.liesBehind (d : Dev) (i n : Nat) : Bool :=
  !d.flag F.PS_STAT_still i && ((decide (0 < (d.pos i).spd) && decide (d.cmpValue i n ≤ d.count i)) ||
    (decide ((d.pos i).spd < 0) && decide (d.count i ≤ d.cmpValue i n)))

/-- The compare's value taken. -/
def Dev.takeCompare (d : Dev) (i n : Nat) (hi : Word) : Dev := d.wr2 F.PS_CMP_HI i n hi.toNat

/-- The compare armed at that value. -/
def Dev.armAt (d : Dev) (i n : Nat) (v : Int) : Dev :=
  (d.onPos i fun p => if n = 0 then { p with arm0 := v } else { p with arm1 := v }).wr2 F.PS_CMP_STAT_armed i n
    ((d.onPos i fun p => if n = 0 then { p with arm0 := v } else { p with arm1 := v }).rd2 F.PS_CMP_CFG_enable i n)

/-- The status of an arming. -/
def Dev.showBehind (d : Dev) (i n : Nat) (behind : Bool) : Dev :=
  (if behind then d.wr2 F.PS_CMP_STAT_behind i n 1 else d).wr2 F.PS_CMP_STAT_status i n (if behind then Code.BEHIND else Code.OK)

theorem Dev.armCompare_eq {d : Dev} {i n : Nat} (hi : Word) (h : d.fenced Kind.posPort i = false) : d.armCompare i n hi =
    ((d.takeCompare i n hi).armAt i n ((d.takeCompare i n hi).cmpValue i n)).showBehind i n
      (((d.takeCompare i n hi).onPos i fun p => if n = 0 then { p with arm0 := (d.takeCompare i n hi).cmpValue i n }
        else { p with arm1 := (d.takeCompare i n hi).cmpValue i n }).liesBehind i n) := by
  unfold Dev.armCompare
  rw [h]
  rfl

theorem Dev.armAt_shows (d : Dev) (i n : Nat) (v : Int) : (d.armAt i n v).armedValue i n = v ∧
    (d.armAt i n v).rd2 F.PS_CMP_STAT_armed i n = d.rd2 F.PS_CMP_CFG_enable i n := by
  have hpos : (d.armAt i n v).pos i = _ := ((Dev.wr2_keeps _ F.PS_CMP_STAT_armed i n _ (by decide)).pos (by decide) i).trans (d.pos_onPos i _)
  refine ⟨?_, ?_⟩
  · rw [Dev.armedValue, hpos]
    split <;> rfl
  · rw [Dev.armAt, Dev.rd2_wr2 _ F.PS_CMP_STAT_armed _ _ _ (by decide), (Dev.onPos_keeps ..).rd2 F.PS_CMP_CFG_enable i n (by decide)]
    exact Nat.mod_eq_of_lt (getBits_lt ..)

theorem Dev.armAt_keeps (d : Dev) (i n : Nat) (v : Int) : Keeps ⟨false, [F.PS_CMP_STAT_armed], [.ps]⟩ d (d.armAt i n v) :=
  ((Dev.onPos_keeps ..).within (by decide)).trans ((Dev.wr2_keeps _ F.PS_CMP_STAT_armed i n _ (by decide)).within (by decide))

theorem Dev.showBehind_keeps (d : Dev) (i n : Nat) (b : Bool) : Keeps ⟨false, [F.PS_CMP_STAT_behind, F.PS_CMP_STAT_status], []⟩ d (d.showBehind i n b) :=
  (Keeps.ite (fun _ => (Dev.wr2_keeps _ F.PS_CMP_STAT_behind i n 1 (by decide)).within (by decide)) fun _ => Keeps.refl _ _).trans
    ((Dev.wr2_keeps _ F.PS_CMP_STAT_status i n _ (by decide)).within (by decide))

theorem Dev.showBehind_false (d : Dev) (i n : Nat) : (d.showBehind i n false).rd2 F.PS_CMP_STAT_status i n = Code.OK :=
  Dev.rd2_wr2 _ F.PS_CMP_STAT_status _ _ _ (by decide)

theorem Dev.showBehind_true (d : Dev) (i n : Nat) : (d.showBehind i n true).rd2 F.PS_CMP_STAT_behind i n = 1 ∧
    (d.showBehind i n true).rd2 F.PS_CMP_STAT_status i n = Code.BEHIND := by
  refine ⟨?_, Dev.rd2_wr2 _ F.PS_CMP_STAT_status _ _ _ (by decide)⟩
  exact ((Dev.wr2_keeps _ F.PS_CMP_STAT_status i n _ (by decide)).rd2 F.PS_CMP_STAT_behind i n (by decide)).trans
    (Dev.rd2_wr2 _ F.PS_CMP_STAT_behind _ _ _ (by decide))

theorem Keeps.cmpValue {w : Foot} {d e : Dev} (hk : Keeps w d e) (hlo : w.avoids F.PS_CMP_LO = true) (hhi : w.avoids F.PS_CMP_HI = true) (i n : Nat) :
    e.cmpValue i n = d.cmpValue i n := by
  rw [Dev.cmpValue, Dev.cmpValue, hk.rd2 F.PS_CMP_LO i n hlo, hk.rd2 F.PS_CMP_HI i n hhi]

theorem Dev.liesBehind_still {d : Dev} {i n : Nat} (h : d.flag F.PS_STAT_still i = true) : d.liesBehind i n = false := by
  rw [Dev.liesBehind, h]
  rfl

theorem Dev.liesBehind_passed {d : Dev} {i n : Nat} (h : d.flag F.PS_STAT_still i = false) (hup : 0 < (d.pos i).spd) (hle : d.cmpValue i n ≤ d.count i) :
    d.liesBehind i n = true := by
  rw [Dev.liesBehind, h, decide_eq_true hup, decide_eq_true hle]
  rfl

theorem Dev.armCompare_shows {d : Dev} {i n : Nat} (hi : Word) (h : d.fenced Kind.posPort i = false) : let r := d.armCompare i n hi
    r.rd2 F.PS_CMP_HI i n = hi.toNat ∧ r.armedValue i n = r.cmpValue i n ∧ r.rd2 F.PS_CMP_STAT_armed i n = d.rd2 F.PS_CMP_CFG_enable i n ∧
      (d.flag F.PS_STAT_still i = true → r.rd2 F.PS_CMP_STAT_status i n = Code.OK) ∧
      (d.flag F.PS_STAT_still i = false → 0 < (d.pos i).spd → r.cmpValue i n ≤ d.count i →
        r.rd2 F.PS_CMP_STAT_behind i n = 1 ∧ r.rd2 F.PS_CMP_STAT_status i n = Code.BEHIND) := by
  have htake : Keeps ⟨false, [F.PS_CMP_HI], []⟩ d (d.takeCompare i n hi) := d.wr2_keeps F.PS_CMP_HI i n hi.toNat (by decide)
  have hhigh : (d.takeCompare i n hi).rd2 F.PS_CMP_HI i n = hi.toNat :=
    (Dev.rd2_wr2 _ F.PS_CMP_HI _ _ _ (by decide)).trans (Nat.mod_eq_of_lt hi.isLt)
  have henable := htake.rd2 F.PS_CMP_CFG_enable i n (by decide)
  have hfield : ∀ {f : Fd}, f.OfPort → d.SameField (d.takeCompare i n hi) f := fun hf k => d.rd_wr2_compare hf ⟨by decide, by decide⟩ i n k hi.toNat
  have hstill : (d.takeCompare i n hi).flag F.PS_STAT_still i = d.flag F.PS_STAT_still i :=
    congrArg (· == 1) (hfield ⟨by decide, by decide, by decide⟩ i)
  have hcount := Dev.count_of_sameField (hfield ofPort_count.1) (hfield ofPort_count.2) i
  have hspd := congrArg PosT.spd (htake.pos (by decide) i)
  dsimp only
  rw [Dev.armCompare_eq hi h]
  generalize d.takeCompare i n hi = e at hhigh henable hstill hcount hspd ⊢
  set o := e.onPos i fun p => if n = 0 then { p with arm0 := e.cmpValue i n } else { p with arm1 := e.cmpValue i n } with ho
  have hon : Keeps ⟨false, [], [.ps]⟩ e o := Dev.onPos_keeps ..
  obtain ⟨harm, harmed⟩ := e.armAt_shows i n (e.cmpValue i n)
  have harmk := e.armAt_keeps i n (e.cmpValue i n)
  have hshow := (e.armAt i n (e.cmpValue i n)).showBehind_keeps i n (o.liesBehind i n)
  have hval : ((e.armAt i n (e.cmpValue i n)).showBehind i n (o.liesBehind i n)).cmpValue i n = e.cmpValue i n := by
    rw [hshow.cmpValue (by decide) (by decide), harmk.cmpValue (by decide) (by decide)]
  have hspeed : (o.pos i).spd = (e.pos i).spd := by
    rw [ho, Dev.pos_onPos]
    split <;> rfl
  rw [hval, Dev.armedValue, hshow.pos (by decide), ← Dev.armedValue, hshow.rd2 F.PS_CMP_HI i n (by decide), harmk.rd2 F.PS_CMP_HI i n (by decide),
    hshow.rd2 F.PS_CMP_STAT_armed i n (by decide), harmed, henable]
  refine ⟨hhigh, harm, rfl, fun hs => ?_, fun hs hup hle => ?_⟩
  · rw [Dev.liesBehind_still ((hon.flag F.PS_STAT_still i (by decide)).trans (hstill.trans hs))]
    exact Dev.showBehind_false ..
  · rw [Dev.liesBehind_passed ((hon.flag F.PS_STAT_still i (by decide)).trans (hstill.trans hs)) (by rw [hspeed, hspd]; exact hup)
      (by rw [hon.cmpValue (by decide) (by decide), hon.count (by decide) (by decide), hcount]; exact hle)]
    exact Dev.showBehind_true ..

/-! ### An edge of a repeater (R144, R145) -/

/-- Where the output count of repeater j goes. -/
def Dev.repNext (d : Dev) (j : Nat) : Int :=
  let out := d.rdI64 F.EP_CNT_LO F.EP_CNT_HI j
  if !Nat.ble ((d.rep j).lastEdge + d.repGap j) d.time || d.repTarget j (d.time - 40) = out then out
  else if out < d.repTarget j (d.time - 40) then out + 1 else out - 1

/-- The output count shown with its lag. -/
def Dev.repCounted (d : Dev) (j : Nat) : Dev :=
  ((d.wrI64 F.EP_CNT_LO F.EP_CNT_HI j (d.repNext j)).showLag j (d.repTarget j d.time - d.repNext j)).put F.EP_STAT_limited j
    (d.repTarget j (d.time - 40) != d.repNext j)

theorem Dev.repeaterEdge_eq {d : Dev} {j : Nat} (hon : d.repOn j = true) (hsrc : d.psOn (d.rd F.EP_CFG_source j) = true) :
    ∃ (q : RepT) (b : Bool), let e := (d.repCounted j).setRep j ((d.repCounted j).repLevels j (d.repNext j) q)
      d.repeaterEdge j = if b then ((e.put F.EP_STAT_lag j true).bump F.EP_STAT_lag_cnt j).reportOpen Kind.repeater j Cls.report Code.REPEATER_LAG else e := by
  unfold Dev.repeaterEdge
  dsimp only
  rw [if_neg (by rw [hon, hsrc]; decide)]
  exact ⟨_, _, rfl⟩

/-- The levels that a count gives a repeater that is not inverted. -/
def RepT.levels (q : RepT) (new : Int) (lines : Nat) : Prop :=
  q.a = (new % 4 == 1 || new % 4 == 2) ∧ q.b = (new % 4 == 2 || new % 4 == 3) ∧ q.z = (new % (4 * lines : Nat) == 0)

theorem Dev.repLevels_levels {d : Dev} {j : Nat} (new : Int) (q : RepT) (h : d.flag F.EP_CFG_invert j = false) :
    (d.repLevels j new q).levels new (d.rd F.EP_CFG_lines j) := by
  unfold Dev.repLevels
  rw [h]
  exact ⟨rfl, rfl, rfl⟩

theorem Dev.rep_setRep_self (d : Dev) (j : Nat) (q : RepT) : (d.setRep j q).rep j = q := by
  rw [Dev.rep, Dev.setRep, show (d.withPs { d.ps with rep := Tbl.set (fun _ => {}) d.ps.rep j q }).ps.rep = Tbl.set (fun _ => {}) d.ps.rep j q from rfl,
    Tbl.get_set, if_pos rfl]

theorem Dev.repCounted_shows (d : Dev) (j : Nat) :
    (d.repCounted j).rdI64 F.EP_CNT_LO F.EP_CNT_HI j = signed 64 (unsigned 64 (d.repNext j)) ∧
      (d.repCounted j).flag F.EP_STAT_limited j = (d.repTarget j (d.time - 40) != d.repNext j) := by
  refine ⟨?_, Dev.flag_put _ F.EP_STAT_limited _ _ (by decide) rfl⟩
  rw [Dev.repCounted, (Dev.put_keeps _ F.EP_STAT_limited j _ (by decide)).rdI64 _ _ j (by decide) (by decide),
    (Dev.showLag_keeps ..).rdI64 _ _ j (by decide) (by decide)]
  exact Dev.rdI64_wrI64 _ F.EP_CNT_LO F.EP_CNT_HI j _ (by decide) (by decide) (by decide)

theorem Dev.repCounted_keeps (d : Dev) (j : Nat) : Keeps ⟨false, [F.EP_STAT_limited, F.EP_CNT_LO, F.EP_CNT_HI, F.EP_LAG], []⟩ d (d.repCounted j) :=
  (((d.wrI64_keeps F.EP_CNT_LO F.EP_CNT_HI j _ (by decide) (by decide)).within (by decide)).trans ((Dev.showLag_keeps ..).within (by decide))).trans
    ((Dev.put_keeps _ F.EP_STAT_limited j _ (by decide)).within (by decide))

theorem Dev.repeaterEdge_shows {d : Dev} {j : Nat} (hon : d.repOn j = true) (hsrc : d.psOn (d.rd F.EP_CFG_source j) = true) : let n := d.repeaterEdge j
    n.rdI64 F.EP_CNT_LO F.EP_CNT_HI j = signed 64 (unsigned 64 (d.repNext j)) ∧
      n.flag F.EP_STAT_limited j = (d.repTarget j (d.time - 40) != d.repNext j) ∧
      (d.flag F.EP_CFG_invert j = false → (n.rep j).levels (d.repNext j) (d.rd F.EP_CFG_lines j)) := by
  obtain ⟨hcount, hlimited⟩ := d.repCounted_shows j
  obtain ⟨q, b, heq⟩ := Dev.repeaterEdge_eq hon hsrc
  have hck := d.repCounted_keeps j
  set e := (d.repCounted j).setRep j ((d.repCounted j).repLevels j (d.repNext j) q) with he
  have hset : Keeps ⟨false, [], [.ps]⟩ (d.repCounted j) e := Dev.setRep_keeps ..
  have hlag : Keeps ⟨false, [F.EP_STAT_lag, F.EP_STAT_lag_cnt, F.FLT_STAT_lost, F.FLT_LOST], [.flt]⟩ e (d.repeaterEdge j) := by
    rw [heq]
    exact .ite (fun _ => (((Dev.put_keeps _ F.EP_STAT_lag j true (by decide)).within (by decide)).trans
      ((Dev.bump_keeps _ F.EP_STAT_lag_cnt j (by decide)).within (by decide))).trans ((Dev.reportOpen_keeps ..).within (by decide))) fun _ => Keeps.refl _ _
  have hrep : (d.repeaterEdge j).rep j = (d.repCounted j).repLevels j (d.repNext j) q := by
    rw [Dev.rep, hlag.parts .ps (by decide), ← Dev.rep, he, Dev.rep_setRep_self]
  dsimp only
  rw [hlag.rdI64 _ _ j (by decide) (by decide), hset.rdI64 _ _ j (by decide) (by decide), hlag.flag F.EP_STAT_limited j (by decide),
    hset.flag F.EP_STAT_limited j (by decide), hrep]
  refine ⟨hcount, hlimited, fun hplain => ?_⟩
  rw [← hck.rd F.EP_CFG_lines j (by decide)]
  exact Dev.repLevels_levels _ _ ((hck.flag F.EP_CFG_invert j (by decide)).trans hplain)

/-- While the rate holds an edge back, and at the target, the count stays; else it goes one towards the target. -/
theorem Dev.repNext_cases (d : Dev) (j : Nat) : let out := d.rdI64 F.EP_CNT_LO F.EP_CNT_HI j; let goal := d.repTarget j (d.time - 40)
    (d.time < (d.rep j).lastEdge + d.repGap j → d.repNext j = out) ∧ ((d.rep j).lastEdge + d.repGap j ≤ d.time →
      (out < goal → d.repNext j = out + 1) ∧ (goal < out → d.repNext j = out - 1) ∧ (goal = out → d.repNext j = out)) := by
  dsimp only [Dev.repNext]
  generalize d.repTarget j (d.time - 40) = goal
  generalize d.rdI64 F.EP_CNT_LO F.EP_CNT_HI j = out
  refine ⟨fun h => ?_, fun h => ⟨fun hlt => ?_, fun hlt => ?_, fun heq => ?_⟩⟩
  · rw [if_pos]
    rw [Bool.or_eq_true, Bool.not_eq_true']
    exact .inl (Bool.eq_false_iff.mpr fun hle => by rw [Nat.ble_eq] at hle; omega)
  · rw [Nat.ble_eq_true_of_le h, if_neg (by simp; omega), if_pos hlt]
  · rw [Nat.ble_eq_true_of_le h, if_neg (by simp; omega), if_neg (by omega)]
  · rw [if_pos (by simp [heq])]

theorem Dev.repNext_near (d : Dev) (j : Nat) : let out := d.rdI64 F.EP_CNT_LO F.EP_CNT_HI j
    d.repNext j = out ∨ d.repNext j = out + 1 ∨ d.repNext j = out - 1 := by
  obtain ⟨hlate, hfree⟩ := d.repNext_cases j
  rcases Nat.lt_or_ge d.time ((d.rep j).lastEdge + d.repGap j) with h | h
  · exact .inl (hlate h)
  · obtain ⟨hup, hdown, hstay⟩ := hfree h
    rcases lt_trichotomy (d.rdI64 F.EP_CNT_LO F.EP_CNT_HI j) (d.repTarget j (d.time - 40)) with hlt | heq | hgt
    · exact .inr (.inl (hup hlt))
    · exact .inl (hstay heq.symm)
    · exact .inr (.inr (hdown hgt))

/-! ### The commands -/

/-- Settles O14: presets, observers, latches, compares and repeaters. -/
theorem observersComparesRepeaters : Obligations.ObserversComparesRepeaters := by
  unfold Obligations.ObserversComparesRepeaters
  intro s t i d v
  refine ⟨?preset, ?fenced, ?observe, ?latch, ?arm, ?repeater⟩
  case preset =>
    intro hfw hfree
    exact Does.of_firmware (show exec (.preset t i) s = execPreset t i s from rfl) hfw (Dev.preset_free hfree)
  case fenced =>
    intro hfw hfence
    exact Does.of_firmware (show exec (.preset t i) s = execPreset t i s from rfl) hfw (Dev.preset_fenced hfence)
  case observe =>
    intro hon hseeded T wn e tol
    refine Does.of_effect (show exec (.observerUpdate t i) s = execObserverUpdate t i s from rfl) ?_
    obtain ⟨hpos, hlock, hunlock⟩ := Dev.observe_shows (d := d) hon hseeded
    obtain ⟨hp, hs, ha, hat⟩ := (d.observedPos i).lockCount_steps (d.lockGood i (d.stepError i))
    rw [show s.now t = d from rfl, hpos]
    refine ⟨hp, hs, ha, hat, fun hlo hhi => ?_, fun hover => ?_⟩
    · have hgood : d.lockGood i (d.stepError i) = true := Dev.lockGood_eq_true hlo hhi
      rw [hgood] at hlock ⊢
      refine ⟨rfl, fun h63 => hlock ?_⟩
      change min 64 (v.within + 1) = 64
      omega
    · have hbad : d.lockGood i (d.stepError i) = false := Dev.lockGood_eq_false hover
      rw [hbad] at hunlock ⊢
      refine ⟨rfl, fun h15 => hunlock (show (0 : Nat) ≠ 64 by decide) ?_⟩
      change min 16 (v.beyond + 1) = 16
      omega
  case latch =>
    intro stamp r u henable hholds hfired hdue
    refine Does.of_effect (show exec (.observerLatch t i) s = execObserverLatch t i s from rfl) ?_
    rw [show s.now t = d from rfl, henable, hholds, if_neg (by decide), Dev.takeFiring_first hfired hdue]
    obtain ⟨hrest, hshown⟩ := (d.setFired u r).latchObserver_shows i (stamp / 16) u
    have hset : (d.setFired u r).fired u = r := by
      rw [Dev.fired, Dev.setFired, show (d.withTb { d.tb with fired := Tbl.set (fun _ => []) d.tb.fired u r }).tb.fired =
        Tbl.set (fun _ => []) d.tb.fired u r from rfl, Tbl.get_set, if_pos rfl]
    exact ⟨hrest.trans hset, hshown⟩
  case arm =>
    intro k hi hfw hfree
    exact Does.of_firmware (show exec (.compareArm t i k hi) s = execCompareArm t i k hi s from rfl) hfw (Dev.armCompare_shows hi hfree)
  case repeater =>
    intro j out hon hsrc
    refine Does.of_effect (show exec (.repeaterEdge t j) s = execRepeaterEdge t j s from rfl) ?_
    obtain ⟨hcount, hlimited, hlevels⟩ := Dev.repeaterEdge_shows (d := d) hon hsrc
    obtain ⟨hlate, hfree⟩ := d.repNext_cases j
    obtain ⟨hout1, hout2⟩ : -2 ^ 63 ≤ out ∧ out < 2 ^ 63 := signed_bounds _
    have hback : ∀ {x : Int}, d.repNext j = x → -2 ^ 63 ≤ x → x < 2 ^ 63 → signed 64 (unsigned 64 (d.repNext j)) = x := fun h h1 h2 => by
      rw [h, signed_unsigned h1 h2]
    rw [show s.now t = d from rfl]
    dsimp only
    rw [hcount, hlimited]
    refine ⟨fun hgap => ?_, fun hgap => ?_, fun hplain hlow hhigh => ?_⟩
    · obtain ⟨hup, hdown, hstay⟩ := hfree hgap
      exact ⟨fun h h1 => hback (hup h) (by omega) h1, fun h h1 => hback (hdown h) (by omega) (by omega), fun h => hback (hstay h) hout1 hout2⟩
    · refine ⟨hback (hlate hgap) hout1 hout2, ?_⟩
      rw [hlate hgap]
      exact (decide_not ..).symm
    · have hnear : d.repNext j = out ∨ d.repNext j = out + 1 ∨ d.repNext j = out - 1 := d.repNext_near j
      rw [hback rfl (by omega) (by omega)]
      exact hlevels hplain

end Sys2Proof.Machine
end

section
/-! Privileged requests and what keeps the sessions (R356, R357); obligation O39. -/

namespace Sys2Proof.Machine

/-! ### What leaves the sessions -/

/-- The frame that waits on the service UART and the session of QP0 stay. -/
structure Dev.SameSessions (d e : Dev) : Prop where
  uart : e.sec.uartIn = d.sec.uartIn
  qp : e.sec.qpSession = d.sec.qpSession

namespace Dev.SameSessions

theorem of_sec {d e : Dev} (h : e.sec = d.sec) : d.SameSessions e := ⟨by rw [h], by rw [h]⟩

theorem of_keeps {w : Foot} {d e : Dev} (hk : Keeps w d e) (h : Part.sec ∉ w.parts) : d.SameSessions e := .of_sec (hk.parts .sec h)

theorem refl (d : Dev) : d.SameSessions d := ⟨rfl, rfl⟩

theorem trans {d e g : Dev} (h : d.SameSessions e) (k : e.SameSessions g) : d.SameSessions g := ⟨k.uart.trans h.uart, k.qp.trans h.qp⟩

theorem ite {d e g : Dev} {p : Prop} [Decidable p] (h : d.SameSessions e) (k : d.SameSessions g) : d.SameSessions (if p then e else g) := by
  split
  · exact h
  · exact k

theorem foldl {α : Type} {f : Dev → α → Dev} (h : ∀ (d : Dev) a, d.SameSessions (f d a)) (l : List α) (d : Dev) : d.SameSessions (l.foldl f d) := by
  induction l generalizing d with
  | nil => exact refl d
  | cons a l ih => exact (h d a).trans (ih _)

theorem keeps {w : Foot} {d e g : Dev} (h : d.SameSessions e) (hk : Keeps w e g) (hw : Part.sec ∉ w.parts) : d.SameSessions g :=
  h.trans (.of_keeps hk hw)

theorem onSec {d e : Dev} {f : Sec → Sec} (h : d.SameSessions e) (hf : ∀ k, (f k).uartIn = k.uartIn ∧ (f k).qpSession = k.qpSession) :
    d.SameSessions (e.onSec f) := h.trans ⟨(hf e.sec).1, (hf e.sec).2⟩

theorem showSec {d e : Dev} (h : d.SameSessions e) : d.SameSessions e.showSec := h.keeps e.showSec_keeps (by decide)

theorem flashError {d e : Dev} (h : d.SameSessions e) (err : Bool) : d.SameSessions (e.flashError err) := h.keeps (e.flashError_keeps err) (by decide)

theorem touchSector {d e : Dev} (h : d.SameSessions e) (n : Nat) : d.SameSessions (e.touchSector n) := h.trans ⟨rfl, rfl⟩

theorem writeFlash {d e : Dev} (h : d.SameSessions e) (a : Nat) (bs : List Byte) : d.SameSessions (e.writeFlash a bs) := by
  unfold Dev.writeFlash
  dsimp only
  have hwrite : ∀ f : Sec → Tbl Byte, d.SameSessions (e.onSec fun k => { k with flash := f k }) := fun f => h.onSec fun _ => ⟨rfl, rfl⟩
  exact .ite (hwrite _) (Dev.each_preserves (P := d.SameSessions) (fun g n _ hg => hg.touchSector n) _ (hwrite _))

theorem setImage {d e : Dev} (h : d.SameSessions e) (kind : Nat) (v : ImgT) : d.SameSessions (e.setImage kind v) := by
  have himage : d.SameSessions (e.onSec fun k => { k with image := Tbl.set (fun _ => {}) k.image kind v }) := h.onSec fun _ => ⟨rfl, rfl⟩
  unfold Dev.setImage
  exact .ite h (himage.trans (.foldl (fun g a => (refl g).writeFlash a _) _ _))

theorem setKey {d e : Dev} (h : d.SameSessions e) (slot : Nat) (v : KeyT) (err : Bool) : d.SameSessions (e.setKey slot v err) := by
  refine writeFlash (onSec (h.flashError err) ?_) _ _
  exact fun _ => ⟨rfl, rfl⟩

theorem serveRaise {d e : Dev} (h : d.SameSessions e) (c v blown : Nat) : d.SameSessions (e.serveRaise c v blown).dev := by
  have hset : d.SameSessions (e.setCounter c (min v (e.counter c + blown))).showSec := showSec (onSec h fun _ => ⟨rfl, rfl⟩)
  unfold Dev.serveRaise Dev.raise
  dsimp only
  split
  · exact h
  · split
    · exact hset
    · exact hset.keeps (Dev.put_keeps _ F.SEC_STAT_otp_err 0 true (by decide)) (by decide)

theorem enrol {d e : Dev} (h : d.SameSessions e) (slot : Nat) (key : List Byte) (blown : Nat) : d.SameSessions (e.enrol slot key blown).dev := by
  unfold Dev.enrol
  split
  · exact h
  · split
    · exact h
    · split
      · exact h.keeps (Dev.put_keeps _ F.SEC_STAT_otp_err 0 true (by decide)) (by decide)
      · exact showSec (onSec h fun _ => ⟨rfl, rfl⟩)

theorem confirmTrial {d e : Dev} (h : d.SameSessions e) (kind blown : Nat) (err : Bool) : d.SameSessions (e.confirmTrial kind blown err).dev := by
  unfold Dev.confirmTrial
  dsimp only
  split
  · exact h
  · exact serveRaise (((h.flashError err).setImage _ _).keeps (Dev.put_keeps _ F.SEC_IMG_trial kind false (by decide)) (by decide)) _ _ _

theorem markTrial {d e : Dev} (h : d.SameSessions e) (kind : Nat) (err : Bool) : d.SameSessions (e.markTrial kind err).dev := by
  have hnote : ∀ b st, d.SameSessions (e.noteOther kind b st) := fun b st => h.keeps (e.noteOther_keeps kind b st) (by decide)
  unfold Dev.markTrial
  split
  · exact h
  · dsimp only
    split
    · exact ((hnote _ _).flashError err |>.setImage _ _).keeps (Dev.put_keeps _ F.SEC_IMG_pending kind true (by decide)) (by decide)
    · exact hnote _ _

end Dev.SameSessions

/-! ### A privileged request that is refused, and one that is authorised -/

theorem Dev.privileged_refused {d : Dev} {uart : Bool} {x : Descr} {b : List Byte} {st : Nat} (h : d.authorise uart x b = some st)
    (g : Dev → Nat → List Byte → List Byte → Served) : d.privileged uart x b g = { dev := d, st := st } := by
  rw [Dev.privileged, h]

/-- What serves a descriptor is a privileged request whose effect leaves the sessions. -/
def Dev.ServesPrivileged (d : Dev) (x : Descr) (b : List Byte) (f : Dev → Descr → Served) : Prop :=
  ∃ g, f d x = d.privileged false x b g ∧ ∀ (e : Dev) c key rest, e.SameSessions (g e c key rest).dev

/-- A descriptor whose host range no window holds ends with that status. -/
theorem Dev.manage_windowless {d : Dev} {i op st : Nat} {x : Descr} {f : Dev → Descr → Served} (hst : d.standing 0 i .received x)
    (hidle : d.sec.uartIn = []) (hop : x.opcode = op) (hw : d.windowCheck x = some st) :
    (d.manage i op f).endedWith 0 i st ∧ (d.manage i op f).sec = d.sec := by
  obtain ⟨it, hit, hdesc, hphase, hturn, hring⟩ := hst
  have hfin : (d.finish 0 i st).sec = d.sec := (Dev.finish_keeps ..).parts .sec (by decide)
  have hgo : d.manage i op f = d.finish 0 i st := by
    rw [Dev.manage, Dev.uartTurn_of_idle hidle, Dev.startItem, hit]
    dsimp only
    rw [hdesc]
    dsimp only
    rw [if_pos ⟨hphase, hop, hturn⟩, hw]
    exact Dev.uartTurn_of_idle (by rw [hfin, hidle])
  have hlive : it.hasEnded = false := by rw [Item.hasEnded, hphase]
  rw [hgo]
  exact ⟨Dev.finish_ends ⟨it, hit, hlive, hring⟩ _ _ _, hfin⟩

/-- One that is refused ends with its status and leaves what Imset holds. -/
theorem Dev.manage_refused {d : Dev} {i op st : Nat} {x : Descr} {b : List Byte} {f : Dev → Descr → Served} (h : d.MayServe i x) (hop : x.opcode = op)
    (hf : (d.started 0 i).ServesPrivileged x b f) (hauth : d.authorise false x b = some st) :
    (d.manage i op f).endedWith 0 i st ∧ (d.manage i op f).sec = d.sec := by
  obtain ⟨g, hserve, -⟩ := hf
  have hsec : (d.started 0 i).sec = d.sec := (d.started_keeps 0 i).parts .sec (by decide)
  rw [Dev.privileged_refused ((d.authorise_started 0 i false x b).trans hauth)] at hserve
  have hends := Dev.manage_ends (f := f) h hop (by rw [hserve]) (by rw [hserve]; exact (congrArg Sec.uartIn hsec).trans h.alone)
  rw [hserve] at hends
  exact ⟨hends.1, hends.2.trans hsec⟩

/-- Where no frame waits after the serving, what Imset holds is what the serving leaves. -/
theorem Dev.manage_sec {d : Dev} {i op : Nat} {x : Descr} {f : Dev → Descr → Served} (h : d.MayServe i x) (hop : x.opcode = op)
    (hafter : (f (d.started 0 i) x).dev.sec.uartIn = []) : (d.manage i op f).sec = (f (d.started 0 i) x).dev.sec := by
  rw [Dev.manage, Dev.uartTurn_of_idle h.alone, Dev.startItem_of_standing h.stands hop h.window, Dev.targetFenced_started, h.live]
  generalize f (d.started 0 i) x = r at hafter ⊢
  have hfin : ∀ e : Dev, e.sec = r.dev.sec → ((e.finish 0 i r.st false r.detail).uartTurn).sec = r.dev.sec := fun e hsec => by
    have hkept : (e.finish 0 i r.st false r.detail).sec = r.dev.sec := ((Dev.finish_keeps ..).parts .sec (by decide)).trans hsec
    rw [Dev.uartTurn_of_idle (hkept ▸ hafter), hkept]
  simp only [Bool.false_eq_true, if_false]
  split
  · exact hfin _ rfl
  · exact hfin _ rfl

/-- After an authorised one the session's counter is the request's. -/
theorem Dev.manage_counter {d : Dev} {i op : Nat} {x : Descr} {b : List Byte} {f : Dev → Descr → Served} {z : Session} (h : d.MayServe i x)
    (hop : x.opcode = op) (hf : (d.started 0 i).ServesPrivileged x b f) (hauth : d.authorise false x b = none) (hz : d.sec.qpSession = some z) :
    (d.manage i op f).sec.qpSession = some { z with counter := numAt b 0 8 } := by
  obtain ⟨g, hserve, hg⟩ := hf
  have hsec : (d.started 0 i).sec = d.sec := (d.started_keeps 0 i).parts .sec (by decide)
  have hz' : (d.started 0 i).session false = some z := (congrArg Sec.qpSession hsec).trans hz
  rw [Dev.privileged, (d.authorise_started 0 i false x b).trans hauth, hz'] at hserve
  dsimp only at hserve
  obtain ⟨huart, hqp⟩ := hg ((d.started 0 i).setSession false (some { z with counter := numAt b 0 8 })) (numAt b 0 8) z.key (b.drop 64)
  rw [← hserve] at huart hqp
  rw [Dev.manage_sec (f := f) h hop (by rw [huart, Dev.uartIn_setSession, hsec, h.alone]), hqp, Dev.sec_setSession]
  rfl

/-! ### The checks in their order -/

/-- The authorisation's answer, check by check (R356, R357). -/
theorem Dev.authorise_fenced {d : Dev} {x : Descr} {b : List Byte} (h : d.fenced Kind.crypto 0 = true) :
    d.authorise false x b = some Code.FENCED := by
  rw [Dev.authorise, h, if_pos rfl]

theorem Dev.authorise_noSession {d : Dev} {x : Descr} {b : List Byte} (h : d.fenced Kind.crypto 0 = false)
    (hnone : ∀ z, d.sec.qpSession = some z → z.ends ≤ d.time ∨ numAt b 8 4 ≠ z.number) : d.authorise false x b = some Code.NO_SESSION := by
  rw [Dev.authorise, h, if_neg (by decide), Dev.liveSession, Dev.session, if_neg (by decide)]
  cases hz : d.sec.qpSession with
  | none => rfl
  | some z =>
    rw [Option.bind_some]
    rcases hnone z hz with hends | hnumber
    · rw [if_neg (by omega)]
    · split
      next heq => rfl
      next w heq =>
        obtain rfl : z = w := by
          split at heq
          · exact Option.some.inj heq
          · exact absurd heq (by simp)
        rw [if_pos hnumber]

/-- Past the session's number, the counter and the tag decide. -/
theorem Dev.authorise_inSession {d : Dev} {x : Descr} {b : List Byte} {z : Session} (h : d.fenced Kind.crypto 0 = false)
    (hz : d.sec.qpSession = some z) (hlive : d.time < z.ends) (hnumber : numAt b 8 4 = z.number) : d.authorise false x b =
      if numAt b 0 8 ≤ z.counter then some Code.STALE
      else if requestTag z.key x (b.take 8) (b.drop 64) ≠ (b.drop 12).take 32 then some Code.AUTH else none := by
  have hsession : d.liveSession false = some z := by
    rw [Dev.liveSession, Dev.session, if_neg (by decide), hz, Option.bind_some, if_pos hlive]
  rw [Dev.authorise, h, if_neg (by decide), hsession]
  dsimp only
  rw [if_neg (not_not.mpr hnumber)]

/-! ### The seven privileged descriptors -/

/-- A slot other than the first, or a device that holds a key, does not enrol the first key. -/
theorem Dev.enrolsFirst_eq_false {d : Dev} {slot : Nat} (h : slot ≠ 0 ∨ ∃ k : Fin 4, d.enrolled k ≠ none) : d.enrolsFirst slot = false := by
  rw [Dev.enrolsFirst, Bool.and_eq_false_iff]
  rcases h with hslot | ⟨k, hk⟩
  · exact .inl (beq_eq_false_iff_ne.mpr hslot)
  · refine .inr (List.all_eq_false.mpr ⟨k, ?_, ?_⟩)
    · exact (show ∀ k : Fin 4, (k : Nat) ∈ [0, 1, 2, 3] by decide) k
    · rwa [Option.isNone_iff_eq_none]

section
variable (d : Dev) (x : Descr) (buf : List Byte)

/-- The effect of UNSEAL leaves the sessions. -/
def Dev.unsealNow (d : Dev) : Dev := (d.unsealPool.unsealBanks.wr F.DEV_STATE_state 0 DevSt.setup).onSys fun k => { k with unsealedMark := true }

theorem Dev.sec_onSys_wr (d : Dev) (f : Fd) (i v : Nat) (g : Sys → Sys) : ((d.wr f i v).onSys g).sec = d.sec := rfl

theorem Dev.unsealNow_sec (d : Dev) : d.unsealNow.sec = d.sec := by
  rw [Dev.unsealNow, Dev.sec_onSys_wr, (Dev.unsealBanks_keeps _).parts .sec (by decide), d.unsealPool_keeps.parts .sec (by decide)]

theorem Dev.serveUnseal_eq (d : Dev) (x : Descr) (b : List Byte) : d.serveUnseal false x b = d.privileged false x b fun d _ _ _ =>
    if d.isSealed = false then { dev := d, st := Code.NOT_SEALED }
    else if d.anyRun ∨ d.sequencersRest = false then { dev := d, st := Code.NOT_STOPPED } else { dev := d.unsealNow } := by
  rw [Dev.serveUnseal, if_neg (by decide)]
  rfl

theorem Dev.serveUnseal_privileged : d.ServesPrivileged x (buf.take x.length) fun d x => d.serveUnseal false x (buf.take x.length) := by
  refine ⟨_, d.serveUnseal_eq x _, fun e c key rest => ?_⟩
  split
  · exact .refl e
  · split
    · exact .refl e
    · exact .of_sec e.unsealNow_sec

theorem Dev.serveRevoke_privileged (blown : Nat) :
    d.ServesPrivileged x (buf.take x.length) fun d x => d.serveRevoke false x (buf.take x.length) blown := by
  refine ⟨_, rfl, fun e c key rest => ?_⟩
  dsimp only
  split
  · exact .refl e
  · split
    · exact .refl e
    · exact (Dev.SameSessions.refl e).serveRaise ..

theorem Dev.serveRaiseCounter_privileged (blown : Nat) :
    d.ServesPrivileged x (buf.take x.length) fun d x => d.serveRaiseCounter false x (buf.take x.length) blown := by
  refine ⟨_, rfl, fun e c key rest => ?_⟩
  split
  · exact .refl e
  · exact (Dev.SameSessions.refl e).serveRaise ..

theorem Dev.serveUpdateActivate_privileged (blown : Nat) (err : Bool) :
    d.ServesPrivileged x (buf.take x.length) fun d x => d.serveUpdateActivate false x (buf.take x.length) blown err := by
  refine ⟨_, rfl, fun e c key rest => ?_⟩
  dsimp only
  split
  · exact .refl e
  · have hserved : e.SameSessions (if bitOf x.param1 0 = true then e.confirmTrial x.target blown err else e.markTrial x.target err).dev := by
      split
      · exact (Dev.SameSessions.refl e).confirmTrial ..
      · exact (Dev.SameSessions.refl e).markTrial ..
    generalize (if bitOf x.param1 0 = true then e.confirmTrial x.target blown err else e.markTrial x.target err) = r at hserved ⊢
    split
    · exact hserved.trans ⟨rfl, rfl⟩
    · exact hserved

theorem Dev.serveKeyLoad_privileged (err : Bool) :
    d.ServesPrivileged x (buf.take x.length) fun d x => d.serveKeyLoad false x (buf.take x.length) err := by
  refine ⟨_, rfl, fun e c key rest => ?_⟩
  split
  · exact .refl e
  · exact (Dev.SameSessions.refl e).setKey ..

theorem Dev.serveKeyErase_privileged (err : Bool) :
    d.ServesPrivileged x (buf.take x.length) fun d x => d.serveKeyErase false x (buf.take x.length) err :=
  ⟨_, rfl, fun e _ _ _ => (Dev.SameSessions.refl e).setKey ..⟩

theorem Dev.serveEnroll_privileged {x : Descr} (blown : Nat) (h : d.enrolsFirst x.target = false) :
    d.ServesPrivileged x (buf.take x.length) fun d x => d.serveEnroll false x (buf.take x.length) blown := by
  refine ⟨fun d _ _ key => d.enrol x.target key blown, ?_, fun e c key rest => (Dev.SameSessions.refl e).enrol ..⟩
  dsimp only
  rw [Dev.serveEnroll, h, if_neg (by decide)]

end

/-- A command that serves a privileged descriptor, as the model carries it out. -/
def Dev.carries (d : Dev) (i : Nat) (x : Descr) (b : List Byte) (n : Dev) : Prop :=
  ∃ op f, x.opcode = op ∧ (d.started 0 i).ServesPrivileged x b f ∧ n = d.manage i op f

/-- Settles O39: the first check that fails gives a privileged request its status. -/
theorem privilegeIsChecked : Obligations.PrivilegeIsChecked := by
  unfold Obligations.PrivilegeIsChecked
  intro s t i x buf blown err c d b hst hlive hidle hc
  obtain ⟨n, ⟨op, f, hop, hf, rfl⟩, hdoes⟩ : ∃ n, d.carries i x b n ∧ ∀ P : Dev → Prop, P n → Does s c P := by
    rcases hc with ⟨hop, rfl⟩ | ⟨hop, rfl, hfirst⟩ | ⟨hop, rfl⟩ | ⟨hop, rfl⟩ | ⟨hop, rfl⟩ | ⟨hop, rfl⟩ | ⟨hop, rfl⟩
    · exact ⟨_, ⟨_, _, hop, Dev.serveUnseal_privileged .., rfl⟩, fun P hP => Does.of_effect (show exec _ s = execUnseal t i buf s from rfl) hP⟩
    · have hno : (d.started 0 i).enrolsFirst x.target = false := by
        rw [Dev.enrolsFirst, show (d.started 0 i).enrolled = d.enrolled from
          funext fun k => by rw [Dev.enrolled, (d.started_keeps 0 i).parts .sec (by decide), Dev.enrolled]]
        exact Dev.enrolsFirst_eq_false hfirst
      exact ⟨_, ⟨_, _, hop, Dev.serveEnroll_privileged _ _ _ hno, rfl⟩, fun P hP =>
        Does.of_effect (show exec _ s = execEnroll t i buf blown s from rfl) hP⟩
    · exact ⟨_, ⟨_, _, hop, Dev.serveRevoke_privileged .., rfl⟩, fun P hP => Does.of_effect (show exec _ s = execRevoke t i buf blown s from rfl) hP⟩
    · exact ⟨_, ⟨_, _, hop, Dev.serveUpdateActivate_privileged .., rfl⟩, fun P hP =>
        Does.of_effect (show exec _ s = execUpdateActivate t i buf ⟨blown, err⟩ s from rfl) hP⟩
    · exact ⟨_, ⟨_, _, hop, Dev.serveKeyLoad_privileged .., rfl⟩, fun P hP => Does.of_effect (show exec _ s = execKeyLoad t i ⟨buf, err⟩ s from rfl) hP⟩
    · exact ⟨_, ⟨_, _, hop, Dev.serveKeyErase_privileged .., rfl⟩, fun P hP => Does.of_effect (show exec _ s = execKeyErase t i ⟨buf, err⟩ s from rfl) hP⟩
    · exact ⟨_, ⟨_, _, hop, Dev.serveRaiseCounter_privileged .., rfl⟩, fun P hP =>
        Does.of_effect (show exec _ s = execRaiseCounter t i buf blown s from rfl) hP⟩
  refine ⟨fun e hw => hdoes _ (Dev.manage_windowless hst hidle hop hw), fun hw hfence => ?_, fun hw hfree => ⟨fun hnone => ?_, ?_⟩⟩
  · exact hdoes _ (Dev.manage_refused ⟨hst, hlive, hidle, hw⟩ hop hf (Dev.authorise_fenced hfence))
  · exact hdoes _ (Dev.manage_refused ⟨hst, hlive, hidle, hw⟩ hop hf (Dev.authorise_noSession hfree hnone))
  · intro z hz hends hnumber
    have hauth := Dev.authorise_inSession (x := x) hfree hz hends hnumber
    refine ⟨fun hstale => ?_, fun hnew htag => ?_, fun hnew htag => ?_⟩
    · rw [if_pos hstale] at hauth
      exact hdoes _ (Dev.manage_refused ⟨hst, hlive, hidle, hw⟩ hop hf hauth)
    · rw [if_neg (by omega), if_pos htag] at hauth
      exact hdoes _ (Dev.manage_refused ⟨hst, hlive, hidle, hw⟩ hop hf hauth)
    · rw [if_neg (by omega), if_neg (not_not.mpr htag)] at hauth
      exact hdoes _ (Dev.manage_counter ⟨hst, hlive, hidle, hw⟩ hop hf hauth hz)

end Sys2Proof.Machine
end

section
/-! What authorised requests do (R33, R350, R355, R359, R362, R363); obligation O40. -/

namespace Sys2Proof.Machine

/-! ### A request that is served -/

/-- What the end of a management descriptor writes. -/
def endFoot : Foot := ⟨false, [F.SC_TM_STAT_last_status, F.SC_TM_CNT_refusals, F.SC_CH_STAT_last_status, F.SC_LV_STAT_last_status,
  F.SC_DR_STAT_last_status, F.HI_QP_CTRL_draining, F.HI_QP_FLAGS_in_flight, F.CN_STAT_slots, F.FLT_STAT_lost, F.FLT_LOST], [.hi, .cn, .flt]⟩

/-- What serving left stands after the descriptor's end. -/
structure Dev.Served (r : Served) (i : Nat) (n : Dev) : Prop where
  ends : n.endedWith 0 i r.st
  sec : n.sec = r.dev.sec
  keeps : Keeps endFoot r.dev n

theorem Dev.manage_served {d : Dev} {i op : Nat} {x : Descr} {f : Dev → Descr → Machine.Served} {r : Machine.Served} (h : d.MayServe i x)
    (hop : x.opcode = op) (hr : f (d.started 0 i) x = r) (hhi : r.dev.hi = (d.started 0 i).hi) (hidle : r.dev.sec.uartIn = []) :
    Dev.Served r i (d.manage i op f) := by
  subst hr
  obtain ⟨hends, hsec⟩ := Dev.manage_ends h hop hhi hidle
  refine ⟨hends, hsec, ?_⟩
  rw [Dev.manage, Dev.uartTurn_of_idle h.alone, Dev.startItem_of_standing h.stands hop h.window, Dev.targetFenced_started, h.live,
    if_neg (by decide)]
  generalize f (d.started 0 i) x = r at hidle ⊢
  have hfin : ∀ e : Dev, Keeps ⟨false, [], [.hi]⟩ r.dev e → Keeps endFoot r.dev ((e.finish 0 i r.st false r.detail).uartTurn) := fun e hk => by
    have hf := e.finish_keeps 0 i r.st false r.detail
    rw [Dev.uartTurn_of_idle (by rw [hf.parts .sec (by decide), hk.parts .sec (by decide), hidle])]
    exact (hk.within (by decide)).trans (hf.within (by decide))
  dsimp only
  split
  · exact hfin _ (.refl _ _)
  · exact hfin _ (r.dev.emit_keeps _)

/-- An authorised request of session z. -/
structure Dev.Authorised (d : Dev) (i : Nat) (x : Descr) (b : List Byte) (z : Session) : Prop where
  serve : d.MayServe i x
  auth : d.authorise false x b = none
  session : d.sec.qpSession = some z

/-- The device to which its effect comes. -/
def Dev.inSession (d : Dev) (i : Nat) (b : List Byte) (z : Session) : Dev :=
  (d.started 0 i).setSession false (some { z with counter := numAt b 0 8 })

theorem Dev.inSession_keeps (d : Dev) (i : Nat) (b : List Byte) (z : Session) :
    Keeps ⟨false, [F.HI_QP_CTRL_draining, F.HI_QP_FLAGS_in_flight, F.SEC_STAT_key_slot, F.SEC_STAT_enrolled, F.SEC_STAT_session_qp0, F.SEC_STAT_session_uart],
      [.hi, .sec]⟩ d (d.inSession i b z) :=
  ((d.started_keeps 0 i).within (by decide)).trans ((Dev.setSession_keeps ..).within (by decide))

theorem Dev.inSession_sec (d : Dev) (i : Nat) (b : List Byte) (z : Session) :
    (d.inSession i b z).sec = { d.sec with qpSession := some { z with counter := numAt b 0 8 } } := by
  have hsec : (d.started 0 i).sec = d.sec := (d.started_keeps 0 i).parts .sec (by decide)
  rw [Dev.inSession, Dev.sec_setSession, hsec]
  rfl

theorem Dev.manage_authorised {d : Dev} {i op : Nat} {x : Descr} {b : List Byte} {z : Session} {f : Dev → Descr → Machine.Served}
    {g : Dev → Nat → List Byte → List Byte → Machine.Served} {r : Machine.Served} (h : d.Authorised i x b z) (hop : x.opcode = op)
    (hf : f (d.started 0 i) x = (d.started 0 i).privileged false x b g)
    (hr : g (d.inSession i b z) (numAt b 0 8) z.key (b.drop 64) = r) (hhi : r.dev.hi = (d.inSession i b z).hi)
    (hs : (d.inSession i b z).SameSessions r.dev) : Dev.Served r i (d.manage i op f) := by
  obtain ⟨hserve, hauth, hz⟩ := h
  have hsec : (d.started 0 i).sec = d.sec := (d.started_keeps 0 i).parts .sec (by decide)
  refine Dev.manage_served hserve hop ?_ (hhi.trans ((Dev.setSession_keeps ..).parts .hi (by decide))) ?_
  · rw [hf, Dev.privileged, (d.authorise_started 0 i false x b).trans hauth, show (d.started 0 i).session false = some z from
      (congrArg Sec.qpSession hsec).trans hz]
    exact hr
  · rw [hs.uart, Dev.inSession_sec, hserve.alone]

/-! ### What is read of Imset -/

section
variable {d e : Dev}

theorem Dev.counter_of_sec (h : e.sec = d.sec) (k : Nat) : e.counter k = d.counter k := by rw [Dev.counter, Dev.counter, h]

theorem Dev.enrolled_of_sec (h : e.sec = d.sec) (k : Nat) : e.enrolled k = d.enrolled k := by rw [Dev.enrolled, Dev.enrolled, h]

theorem Dev.image_of_sec (h : e.sec = d.sec) (k : Nat) : e.image k = d.image k := by rw [Dev.image, Dev.image, h]

theorem Dev.keyOf_of_sec (h : e.sec = d.sec) (k : Nat) : e.keyOf k = d.keyOf k := by rw [Dev.keyOf, Dev.keyOf, h]

end

section
variable (d : Dev) (i : Nat) (b : List Byte) (z : Session)

theorem Dev.counter_inSession (k : Nat) : (d.inSession i b z).counter k = d.counter k := by rw [Dev.counter, Dev.inSession_sec, Dev.counter]

theorem Dev.enrolled_inSession (k : Nat) : (d.inSession i b z).enrolled k = d.enrolled k := by rw [Dev.enrolled, Dev.inSession_sec, Dev.enrolled]

theorem Dev.image_inSession (k : Nat) : (d.inSession i b z).image k = d.image k := by rw [Dev.image, Dev.inSession_sec, Dev.image]

theorem Dev.keyOf_inSession (k : Nat) : (d.inSession i b z).keyOf k = d.keyOf k := by rw [Dev.keyOf, Dev.inSession_sec, Dev.keyOf]

end

/-- An image's verification rests on the flash, the counters and the keys. -/
theorem Dev.verifyImage_congr {d e : Dev} (hflash : e.sec.flash = d.sec.flash) (hcounters : e.sec.counters = d.sec.counters)
    (henrolled : e.sec.enrolled = d.sec.enrolled) (kind : Nat) (b : Bool) : e.verifyImage kind b = d.verifyImage kind b := by
  have hbyte : ∀ a, e.flashByte a = d.flashByte a := fun a => by rw [Dev.flashByte, Dev.flashByte, hflash]
  have hcounter : ∀ k, e.counter k = d.counter k := fun k => by rw [Dev.counter, Dev.counter, hcounters]
  have hnum : ∀ k n, e.imgNum kind b k n = d.imgNum kind b k n := fun k n => by rw [Dev.imgNum, Dev.imgNum]; simp only [hbyte]
  have hbytes : ∀ k n, e.imgBytes kind b k n = d.imgBytes kind b k n := fun k n => by rw [Dev.imgBytes, Dev.imgBytes]; simp only [hbyte]
  have hkey : e.signerKey kind = d.signerKey kind := by
    rw [Dev.signerKey, Dev.signerKey, Dev.integratorKey, Dev.integratorKey, Dev.enrolled, Dev.enrolled, henrolled, hcounter]
  have hlength : e.imgLength kind b = d.imgLength kind b := hnum ..
  have hversion : e.imgVersion kind b = d.imgVersion kind b := hnum ..
  have hlegal : e.headerLegal kind b = d.headerLegal kind b := by
    rw [Dev.headerLegal, Dev.headerLegal, hlength, hversion]
    simp only [hnum]
  have hsigned : e.signedPart kind b = d.signedPart kind b := by rw [Dev.signedPart, Dev.signedPart, hlength, hbytes]
  rw [Dev.verifyImage, Dev.verifyImage, hlegal, hkey, hsigned, hlength, hversion, hbytes, hcounter]

/-- Whether a sequencer rests is a matter of the four states. -/
theorem Keeps.sequencersRest {w : Foot} {d e : Dev} (hk : Keeps w d e)
    (hw : [F.SC_TM_STAT_state, F.SC_CH_STAT_state, F.SC_LV_STAT_state, F.SC_DR_STAT_state].all w.avoids = true) : e.sequencersRest = d.sequencersRest := by
  simp only [List.all_cons, List.all_nil, Bool.and_true, Bool.and_eq_true] at hw
  obtain ⟨htm, hch, hlv, hdr⟩ := hw
  simp only [Dev.sequencersRest, Dev.tmState, Dev.chState, Dev.lvState, Dev.drState, hk.rd _ _ htm, hk.rd _ _ hch, hk.rd _ _ hlv, hk.rd _ _ hdr]

theorem Keeps.anyRun {w : Foot} {d e : Dev} (hk : Keeps w d e) (hw : w.avoids F.TB_STG_RUN_run = true) : e.anyRun = d.anyRun := by
  simp only [Dev.anyRun, hk.flag _ _ hw]

/-! ### UNSEAL (R33) -/

theorem Dev.unsealNow_hi (d : Dev) : d.unsealNow.hi = d.hi := by
  have hwr : ∀ (e : Dev) (f : Fd) (i v : Nat) (g : Sys → Sys), ((e.wr f i v).onSys g).hi = e.hi := fun _ _ _ _ _ => rfl
  rw [Dev.unsealNow, hwr, (Dev.unsealBanks_keeps _).parts .hi (by decide), d.unsealPool_keeps.parts .hi (by decide)]

theorem Dev.devState_onSys (d : Dev) (g : Sys → Sys) : (d.onSys g).devState = d.devState := rfl

theorem Dev.unsealNow_devState (d : Dev) : d.unsealNow.devState = DevSt.setup := by
  rw [Dev.unsealNow, Dev.devState_onSys, Dev.devState]
  exact Dev.rd_wr_of_lt _ F.DEV_STATE_state _ (by decide) (by decide)

theorem unsealed {d : Dev} {i : Nat} {x : Descr} {buf : List Byte} {z : Session} (h : d.Authorised i x (buf.take x.length) z)
    (hop : x.opcode = Op.UNSEAL) : let n := d.manage i Op.UNSEAL fun d x => d.serveUnseal false x (buf.take x.length)
    (d.isSealed = true → d.anyRun = false → d.sequencersRest = true → n.endedWith 0 i Code.OK ∧ n.devState = DevSt.setup) ∧
    (d.isSealed = true → d.anyRun = true ∨ d.sequencersRest = false → n.endedWith 0 i Code.NOT_STOPPED ∧ n.devState = d.devState) ∧
    (d.isSealed = false → n.endedWith 0 i Code.NOT_SEALED ∧ n.devState = d.devState) := by
  set b := buf.take x.length with hb
  set e := d.inSession i b z with he
  have hk := d.inSession_keeps i b z
  have hstate : e.devState = d.devState := hk.rd F.DEV_STATE_state 0 (by decide)
  have hsealed : e.isSealed = d.isSealed := by rw [Dev.isSealed, hstate, Dev.isSealed]
  have hrun : e.anyRun = d.anyRun := hk.anyRun (by decide)
  have hrest : e.sequencersRest = d.sequencersRest := hk.sequencersRest (by decide)
  have hkeep : ∀ {r : Machine.Served} {n : Dev}, Dev.Served r i n → n.devState = r.dev.devState := fun hr =>
    hr.keeps.rd F.DEV_STATE_state 0 (by decide)
  refine ⟨fun hs hno hr => ?_, fun hs hbusy => ?_, fun hs => ?_⟩
  · have hserved := Dev.manage_authorised (f := fun d x => d.serveUnseal false x (buf.take x.length)) (r := { dev := e.unsealNow }) h hop
      (Dev.serveUnseal_eq ..) (by rw [← he, hsealed, hs, hrun, hno, hrest, hr]; rfl) e.unsealNow_hi (.of_sec e.unsealNow_sec)
    exact ⟨hserved.ends, (hkeep hserved).trans e.unsealNow_devState⟩
  · have hserved := Dev.manage_authorised (f := fun d x => d.serveUnseal false x (buf.take x.length)) (r := { dev := e, st := Code.NOT_STOPPED }) h hop
      (Dev.serveUnseal_eq ..) (by rw [← he, hsealed, hs, hrun, hrest, if_neg (by decide), if_pos hbusy]) rfl (.refl e)
    exact ⟨hserved.ends, (hkeep hserved).trans hstate⟩
  · have hserved := Dev.manage_authorised (f := fun d x => d.serveUnseal false x (buf.take x.length)) (r := { dev := e, st := Code.NOT_SEALED }) h hop
      (Dev.serveUnseal_eq ..) (by rw [← he, hsealed, hs, if_pos rfl]) rfl (.refl e)
    exact ⟨hserved.ends, (hkeep hserved).trans hstate⟩

/-! ### ENROLL (R355) -/

theorem Dev.enrol_empty {d : Dev} {slot blown : Nat} {key : List Byte} (hlen : 64 ≤ key.length) (hempty : d.enrolled slot = none) (hblown : 0 < blown) :
    (d.enrol slot key blown).st = Code.OK ∧ (d.enrol slot key blown).dev.enrolled slot = some (key.take 64) := by
  unfold Dev.enrol
  rw [if_neg (by omega), hempty, if_neg (by decide), if_neg (by omega)]
  refine ⟨rfl, ?_⟩
  rw [Dev.enrolled_of_sec ((Dev.showSec_keeps _).parts .sec (by decide))]
  change Tbl.get _ (Tbl.set (fun _ => none) d.sec.enrolled slot (some (key.take 64))) slot = _
  rw [Tbl.get_set, if_pos rfl]

theorem Dev.enrol_full {d : Dev} {slot : Nat} {key : List Byte} (blown : Nat) (hlen : 64 ≤ key.length) (hfull : d.enrolled slot ≠ none) :
    d.enrol slot key blown = { dev := d, st := Code.OTP_FULL } := by
  unfold Dev.enrol
  rw [if_neg (by omega), if_pos (Option.isSome_iff_ne_none.mpr hfull)]

/-! ### REVOKE and RAISE_COUNTER (R350, R355) -/

theorem Dev.counter_setCounter (d : Dev) (c v : Nat) : (d.setCounter c v).counter c = v := by
  change Tbl.get _ (Tbl.set (fun _ => 0) d.sec.counters c v) c = v
  rw [Tbl.get_set, if_pos rfl]

theorem Dev.serveRaise_within {d : Dev} {c v blown : Nat} (h1 : d.counter c < v) (h2 : v ≤ d.counter c + blown) :
    (d.serveRaise c v blown).st = Code.OK ∧ (d.serveRaise c v blown).dev.counter c = v ∧
      ∀ k, (d.serveRaise c v blown).dev.enrolled k = d.enrolled k := by
  have hsec : ((d.setCounter c (min v (d.counter c + blown))).showSec).sec = (d.setCounter c (min v (d.counter c + blown))).sec :=
    (Dev.showSec_keeps _).parts .sec (by decide)
  unfold Dev.serveRaise Dev.raise
  dsimp only
  rw [if_neg (Nat.not_le.mpr h1), if_pos h2]
  refine ⟨rfl, ?_, fun k => Dev.enrolled_of_sec hsec k⟩
  rw [Dev.counter_of_sec hsec, Nat.min_eq_left h2, Dev.counter_setCounter]

theorem Dev.serveRaise_short {d : Dev} {c v blown : Nat} (h : d.counter c + blown < v) :
    (d.serveRaise c v blown).dev.counter c = d.counter c + blown ∧ (d.serveRaise c v blown).dev.flag F.SEC_STAT_otp_err 0 = true := by
  have hsec : ((d.setCounter c (min v (d.counter c + blown))).showSec).sec = (d.setCounter c (min v (d.counter c + blown))).sec :=
    (Dev.showSec_keeps _).parts .sec (by decide)
  unfold Dev.serveRaise Dev.raise
  dsimp only
  rw [if_neg (Nat.not_le.mpr (by omega)), if_neg (Nat.not_le.mpr h)]
  refine ⟨?_, Dev.flag_put _ F.SEC_STAT_otp_err _ _ (by decide) rfl⟩
  rw [Dev.counter_of_sec ((Dev.put_keeps _ F.SEC_STAT_otp_err 0 true (by decide)).parts .sec (by decide)), Dev.counter_of_sec hsec,
    Nat.min_eq_right (by omega), Dev.counter_setCounter]

theorem Dev.serveRaise_hi (d : Dev) (c v blown : Nat) : (d.serveRaise c v blown).dev.hi = d.hi := (d.serveRaise_keeps c v blown).parts .hi (by decide)

/-- What REVOKE does once it is authorised. -/
def Dev.revokeNow (d : Dev) (blown : Nat) : Machine.Served :=
  if 3 ≤ d.counter 3 then { dev := d, st := Code.OTP_FULL }
  else if (d.enrolled (d.counter 3 + 1)).isNone then { dev := d, st := Code.RANGE_VALUE } else d.serveRaise 3 (d.counter 3 + 1) blown

theorem revoked {d : Dev} {i blown : Nat} {x : Descr} {buf : List Byte} {z : Session} (h : d.Authorised i x (buf.take x.length) z)
    (hop : x.opcode = Op.REVOKE) (hblown : 0 < blown) :
    let n := d.manage i Op.REVOKE fun d x => d.serveRevoke false x (buf.take x.length) blown
    (3 ≤ d.counter 3 → n.endedWith 0 i Code.OTP_FULL ∧ n.counter 3 = d.counter 3) ∧
    (d.counter 3 < 3 → d.enrolled (d.counter 3 + 1) = none → n.endedWith 0 i Code.RANGE_VALUE ∧ n.counter 3 = d.counter 3) ∧
    (d.counter 3 < 3 → d.enrolled (d.counter 3 + 1) ≠ none → n.endedWith 0 i Code.OK ∧ n.counter 3 = d.counter 3 + 1 ∧
      n.integratorKey = d.enrolled (d.counter 3 + 1)) := by
  set b := buf.take x.length with hb
  set e := d.inSession i b z with he
  have hserved : ∀ r, e.revokeNow blown = r → r.dev.hi = e.hi → e.SameSessions r.dev →
      Dev.Served r i (d.manage i Op.REVOKE fun d x => d.serveRevoke false x (buf.take x.length) blown) := fun r hr =>
    Dev.manage_authorised (f := fun d x => d.serveRevoke false x (buf.take x.length) blown) (g := fun d _ _ _ => d.revokeNow blown) h hop rfl hr
  have hcount := d.counter_inSession i b z
  have henrolled := d.enrolled_inSession i b z
  rw [← he] at hcount henrolled
  refine ⟨fun h3 => ?_, fun h3 hnone => ?_, fun h3 hsome => ?_⟩
  · obtain ⟨hends, hsec, -⟩ := hserved { dev := e, st := Code.OTP_FULL } (by rw [Dev.revokeNow, if_pos (by rw [hcount]; exact h3)]) rfl (.refl e)
    exact ⟨hends, (Dev.counter_of_sec hsec 3).trans (hcount 3)⟩
  · obtain ⟨hends, hsec, -⟩ := hserved { dev := e, st := Code.RANGE_VALUE }
      (by rw [Dev.revokeNow, hcount, henrolled, hnone, if_neg (by omega)]; rfl) rfl (.refl e)
    exact ⟨hends, (Dev.counter_of_sec hsec 3).trans (hcount 3)⟩
  · obtain ⟨hends, hsec, -⟩ := hserved (e.serveRaise 3 (d.counter 3 + 1) blown)
      (by rw [Dev.revokeNow, hcount, henrolled, if_neg (by omega), if_neg (by rwa [Option.isNone_iff_eq_none])])
      (e.serveRaise_hi ..) ((Dev.SameSessions.refl e).serveRaise ..)
    obtain ⟨hst, hraised, hkept⟩ := Dev.serveRaise_within (d := e) (c := 3) (v := d.counter 3 + 1) (blown := blown) (by rw [hcount]; omega)
      (by rw [hcount]; omega)
    have hnow := (Dev.counter_of_sec hsec 3).trans hraised
    rw [hst] at hends
    exact ⟨hends, hnow, by rw [Dev.integratorKey, hnow, Dev.enrolled_of_sec hsec, hkept, henrolled]⟩

/-- What RAISE_COUNTER does once it is authorised. -/
def Dev.raiseNow (d : Dev) (x : Descr) (blown : Nat) : Machine.Served :=
  if 1023 < x.param1 then { dev := d, st := Code.OTP_FULL, detail := d.counter x.target } else d.serveRaise x.target x.param1 blown

theorem raised {d : Dev} {i blown : Nat} {x : Descr} {buf : List Byte} {z : Session} (h : d.Authorised i x (buf.take x.length) z)
    (hop : x.opcode = Op.RAISE_COUNTER) : let now := d.counter x.target
    let n := d.manage i Op.RAISE_COUNTER fun d x => d.serveRaiseCounter false x (buf.take x.length) blown
    (1023 < x.param1 → n.endedWith 0 i Code.OTP_FULL ∧ n.counter x.target = now) ∧
    (x.param1 ≤ 1023 → x.param1 ≤ now → n.endedWith 0 i Code.OK ∧ n.counter x.target = now) ∧
    (x.param1 ≤ 1023 → now < x.param1 → x.param1 ≤ now + blown → n.endedWith 0 i Code.OK ∧ n.counter x.target = x.param1) ∧
    (x.param1 ≤ 1023 → now + blown < x.param1 → n.counter x.target = now + blown ∧ n.flag F.SEC_STAT_otp_err 0 = true) := by
  set b := buf.take x.length with hb
  set e := d.inSession i b z with he
  have hserved : ∀ r, e.raiseNow x blown = r → r.dev.hi = e.hi → e.SameSessions r.dev →
      Dev.Served r i (d.manage i Op.RAISE_COUNTER fun d x => d.serveRaiseCounter false x (buf.take x.length) blown) := fun r hr =>
    Dev.manage_authorised (f := fun d x => d.serveRaiseCounter false x (buf.take x.length) blown) (g := fun d _ _ _ => d.raiseNow x blown) h hop rfl hr
  have hcount : e.counter x.target = d.counter x.target := d.counter_inSession i b z x.target
  have hraise : x.param1 ≤ 1023 → e.raiseNow x blown = e.serveRaise x.target x.param1 blown := fun hle => by rw [Dev.raiseNow, if_neg (by omega)]
  have hgo : x.param1 ≤ 1023 → Dev.Served (e.serveRaise x.target x.param1 blown) i
      (d.manage i Op.RAISE_COUNTER fun d x => d.serveRaiseCounter false x (buf.take x.length) blown) := fun hle =>
    hserved _ (hraise hle) (e.serveRaise_hi ..) ((Dev.SameSessions.refl e).serveRaise ..)
  refine ⟨fun hhigh => ?_, fun hle hnow => ?_, fun hle hnow hmost => ?_, fun hle hmost => ?_⟩
  · obtain ⟨hends, hsec, -⟩ := hserved { dev := e, st := Code.OTP_FULL, detail := e.counter x.target } (by rw [Dev.raiseNow, if_pos hhigh]) rfl (.refl e)
    exact ⟨hends, (Dev.counter_of_sec hsec _).trans hcount⟩
  · have hserve := hgo hle
    rw [Dev.serveRaise_of_le (by rw [hcount]; exact hnow)] at hserve
    exact ⟨hserve.ends, (Dev.counter_of_sec hserve.sec _).trans hcount⟩
  · obtain ⟨hends, hsec, -⟩ := hgo hle
    obtain ⟨hst, hraised, -⟩ := Dev.serveRaise_within (d := e) (c := x.target) (v := x.param1) (blown := blown) (by rw [hcount]; exact hnow)
      (by rw [hcount]; exact hmost)
    rw [hst] at hends
    exact ⟨hends, (Dev.counter_of_sec hsec _).trans hraised⟩
  · obtain ⟨-, hsec, hk⟩ := hgo hle
    obtain ⟨hcounter, hflag⟩ := Dev.serveRaise_short (d := e) (c := x.target) (v := x.param1) (blown := blown) (by rw [hcount]; exact hmost)
    exact ⟨(Dev.counter_of_sec hsec _).trans (hcounter.trans (by rw [hcount])), (hk.flag F.SEC_STAT_otp_err 0 (by decide)).trans hflag⟩

/-! ### Keys (R362) -/

theorem Dev.keyOf_writeFlash (d : Dev) (a : Nat) (bs : List Byte) (k : Nat) : (d.writeFlash a bs).keyOf k = d.keyOf k := by
  have htouch : ∀ (e : Dev) n, (e.touchSector n).keyOf k = e.keyOf k := fun _ _ => rfl
  unfold Dev.writeFlash
  dsimp only
  split
  · rfl
  · exact Dev.each_preserves (P := fun e => e.keyOf k = d.keyOf k) (fun e n _ h => (htouch e n).trans h) _ rfl

theorem Dev.keyOf_setKey (d : Dev) (slot : Nat) (v : KeyT) (err : Bool) (k : Nat) :
    (d.setKey slot v err).keyOf k = if k = slot then v.key else d.keyOf k := by
  have hset : ∀ e : Dev, (e.onSec fun s => { s with keys := Tbl.set (fun _ => {}) s.keys slot v }).keyOf k = if k = slot then v.key else e.keyOf k := by
    intro e
    rw [Dev.keyOf, show (e.onSec fun s => { s with keys := Tbl.set (fun _ => {}) s.keys slot v }).sec.keys =
      Tbl.set (fun _ => {}) e.sec.keys slot v from rfl, Tbl.get_set]
    split <;> rfl
  rw [Dev.setKey, Dev.keyOf_writeFlash, hset, Dev.keyOf_of_sec ((d.flashError_keeps err).parts .sec (by decide))]

theorem Dev.setKey_hi (d : Dev) (slot : Nat) (v : KeyT) (err : Bool) : (d.setKey slot v err).hi = d.hi := (d.setKey_keeps slot v err).parts .hi (by decide)

/-- What KEY_LOAD does once it is authorised. -/
def Dev.loadKey (d : Dev) (x : Descr) (err : Bool) (c : Nat) (ks rest : List Byte) : Machine.Served :=
  match gcmOpen ks (numBytes c 8 ++ numBytes x.target 2 ++ numBytes 0 2) (numBytes x.target 2) (rest.take 48) with
  | none => { dev := d, st := Code.AUTH }
  | some key => { dev := d.setKey x.target { key := some key, loads := min ((d.keySlotOf x.target).loads + 1) 65535 } err }

theorem keyLoaded {d : Dev} {i : Nat} {err : Bool} {x : Descr} {buf : List Byte} {z : Session} (h : d.Authorised i x (buf.take x.length) z)
    (hop : x.opcode = Op.KEY_LOAD) : let b := buf.take x.length
    let n := d.manage i Op.KEY_LOAD fun d x => d.serveKeyLoad false x (buf.take x.length) err
    match gcmOpen z.key (numBytes (numAt b 0 8) 8 ++ numBytes x.target 2 ++ numBytes 0 2) (numBytes x.target 2) ((b.drop 64).take 48) with
    | some key => n.endedWith 0 i Code.OK ∧ n.keyOf x.target = some key ∧ ∀ k, k ≠ x.target → n.keyOf k = d.keyOf k
    | none => n.endedWith 0 i Code.AUTH ∧ ∀ k, n.keyOf k = d.keyOf k := by
  dsimp only
  set b := buf.take x.length with hb
  set e := d.inSession i b z with he
  have hserved : ∀ r, e.loadKey x err (numAt b 0 8) z.key (b.drop 64) = r → r.dev.hi = e.hi → e.SameSessions r.dev →
      Dev.Served r i (d.manage i Op.KEY_LOAD fun d x => d.serveKeyLoad false x (buf.take x.length) err) := fun r hr =>
    Dev.manage_authorised (f := fun d x => d.serveKeyLoad false x (buf.take x.length) err) (g := fun d => d.loadKey x err) h hop rfl hr
  have hkey := d.keyOf_inSession i b z
  split
  next key hopen =>
    set v : KeyT := { key := some key, loads := min ((e.keySlotOf x.target).loads + 1) 65535 } with hv
    obtain ⟨hends, hsec, -⟩ := hserved { dev := e.setKey x.target v err } (by rw [Dev.loadKey, hopen]) (e.setKey_hi ..)
      ((Dev.SameSessions.refl e).setKey ..)
    refine ⟨hends, ?_, fun k hk => ?_⟩
    · rw [Dev.keyOf_of_sec hsec, Dev.keyOf_setKey, if_pos rfl]
    · rw [Dev.keyOf_of_sec hsec, Dev.keyOf_setKey, if_neg hk, hkey]
  next hopen =>
    obtain ⟨hends, hsec, -⟩ := hserved { dev := e, st := Code.AUTH } (by rw [Dev.loadKey, hopen]) rfl (.refl e)
    exact ⟨hends, fun k => (Dev.keyOf_of_sec hsec k).trans (hkey k)⟩

theorem keyErased {d : Dev} {i : Nat} {err : Bool} {x : Descr} {buf : List Byte} {z : Session} (h : d.Authorised i x (buf.take x.length) z)
    (hop : x.opcode = Op.KEY_ERASE) : let n := d.manage i Op.KEY_ERASE fun d x => d.serveKeyErase false x (buf.take x.length) err
    n.endedWith 0 i Code.OK ∧ n.keyOf x.target = none ∧ ∀ k, k ≠ x.target → n.keyOf k = d.keyOf k := by
  set e := d.inSession i (buf.take x.length) z with he
  obtain ⟨hends, hsec, -⟩ := Dev.manage_authorised (f := fun d x => d.serveKeyErase false x (buf.take x.length) err)
    (r := { dev := e.setKey x.target { e.keySlotOf x.target with key := none } err }) h hop rfl rfl (e.setKey_hi ..) ((Dev.SameSessions.refl e).setKey ..)
  refine ⟨hends, ?_, fun k hk => ?_⟩
  · rw [Dev.keyOf_of_sec hsec, Dev.keyOf_setKey, if_pos rfl]
  · rw [Dev.keyOf_of_sec hsec, Dev.keyOf_setKey, if_neg hk, Dev.keyOf_inSession]

/-! ### UPDATE_ACTIVATE (R363) -/

theorem Dev.image_writeFlash (d : Dev) (a : Nat) (bs : List Byte) (k : Nat) : (d.writeFlash a bs).image k = d.image k := by
  have htouch : ∀ (e : Dev) n, (e.touchSector n).image k = e.image k := fun _ _ => rfl
  unfold Dev.writeFlash
  dsimp only
  split
  · rfl
  · exact Dev.each_preserves (P := fun e => e.image k = d.image k) (fun e n _ h => (htouch e n).trans h) _ rfl

theorem Dev.counter_writeFlash (d : Dev) (a : Nat) (bs : List Byte) (k : Nat) : (d.writeFlash a bs).counter k = d.counter k := by
  have htouch : ∀ (e : Dev) n, (e.touchSector n).counter k = e.counter k := fun _ _ => rfl
  unfold Dev.writeFlash
  dsimp only
  split
  · rfl
  · exact Dev.each_preserves (P := fun e => e.counter k = d.counter k) (fun e n _ h => (htouch e n).trans h) _ rfl

theorem Dev.image_storeDirectory (d : Dev) (k : Nat) : d.storeDirectory.image k = d.image k := by
  unfold Dev.storeDirectory
  generalize ([0, 1, 2].map fun k => (d.image k).byte) = bs
  induction directoryCopies generalizing d with
  | nil => rfl
  | cons a l ih => exact (ih _).trans (d.image_writeFlash ..)

theorem Dev.counter_storeDirectory (d : Dev) (k : Nat) : d.storeDirectory.counter k = d.counter k := by
  unfold Dev.storeDirectory
  generalize ([0, 1, 2].map fun k => (d.image k).byte) = bs
  induction directoryCopies generalizing d with
  | nil => rfl
  | cons a l ih => exact (ih _).trans (d.counter_writeFlash ..)

/-- The image's entry replaced, without the directory in flash. -/
def Dev.withImage (d : Dev) (kind : Nat) (v : ImgT) : Dev := d.onSec fun k => { k with image := Tbl.set (fun _ => {}) k.image kind v }

theorem Dev.setImage_eq (d : Dev) (kind : Nat) (v : ImgT) : d.setImage kind v = if v = d.image kind then d else (d.withImage kind v).storeDirectory := rfl

theorem Dev.image_withImage (d : Dev) (kind : Nat) (v : ImgT) : (d.withImage kind v).image kind = v := by
  change Tbl.get _ (Tbl.set (fun _ => {}) d.sec.image kind v) kind = v
  rw [Tbl.get_set, if_pos rfl]

theorem Dev.image_setImage (d : Dev) (kind : Nat) (v : ImgT) : (d.setImage kind v).image kind = v := by
  rw [Dev.setImage_eq]
  split
  next h => exact h.symm
  next => rw [Dev.image_storeDirectory, Dev.image_withImage]

theorem Dev.counter_setImage (d : Dev) (kind : Nat) (v : ImgT) (k : Nat) : (d.setImage kind v).counter k = d.counter k := by
  rw [Dev.setImage_eq]
  split
  · rfl
  · exact (Dev.counter_storeDirectory ..).trans rfl

theorem Dev.image_serveRaise (d : Dev) (c v blown k : Nat) : (d.serveRaise c v blown).dev.image k = d.image k := by
  have hset : ∀ n, ((d.setCounter c n).showSec).image k = d.image k := fun n => Dev.image_of_sec (Dev.showSec_keeps _ |>.parts .sec (by decide)) k
  unfold Dev.serveRaise Dev.raise
  dsimp only
  split
  · rfl
  · split
    · exact hset _
    · exact (Dev.image_of_sec ((Dev.put_keeps _ F.SEC_STAT_otp_err 0 true (by decide)).parts .sec (by decide)) k).trans (hset _)

/-- A raise as far as the fuses burn ends at the larger of the two values. -/
theorem Dev.serveRaise_max {d : Dev} {c v blown : Nat} (h : v ≤ d.counter c + blown) :
    (d.serveRaise c v blown).st = Code.OK ∧ (d.serveRaise c v blown).dev.counter c = max (d.counter c) v := by
  rcases Nat.lt_or_ge (d.counter c) v with hlt | hge
  · obtain ⟨hst, hcounter, -⟩ := Dev.serveRaise_within hlt h
    exact ⟨hst, by omega⟩
  · rw [Dev.serveRaise_of_le hge]
    exact ⟨rfl, (Nat.max_eq_left hge).symm⟩

/-- The spare slot's image, verified, goes on trial. -/
theorem Dev.markTrial_good {d : Dev} {kind : Nat} {v : Bool} (err : Bool) (hslot : d.otherSlot kind = some v) (h : d.verifyImage kind v = Code.OK) :
    (d.markTrial kind err).st = Code.OK ∧ ((d.markTrial kind err).dev.image kind).trial = some v ∧
      (d.markTrial kind err).dev.flag F.SEC_IMG_pending kind = true := by
  unfold Dev.markTrial
  rw [hslot]
  dsimp only
  rw [if_pos h]
  refine ⟨rfl, ?_, Dev.flag_put _ F.SEC_IMG_pending _ _ (by decide) rfl⟩
  rw [Dev.image_of_sec ((Dev.put_keeps _ F.SEC_IMG_pending kind true (by decide)).parts .sec (by decide)), Dev.image_setImage]

theorem Dev.markTrial_bad {d : Dev} {kind : Nat} {v : Bool} (err : Bool) (hslot : d.otherSlot kind = some v) (h : d.verifyImage kind v ≠ Code.OK) :
    (d.markTrial kind err).st = d.verifyImage kind v ∧ (d.markTrial kind err).dev.image kind = d.image kind := by
  unfold Dev.markTrial
  rw [hslot]
  dsimp only
  rw [if_neg h]
  exact ⟨rfl, Dev.image_of_sec ((d.noteOther_keeps ..).parts .sec (by decide)) kind⟩

/-- The image on trial confirmed, before its counter is burned. -/
def Dev.confirmed (d : Dev) (kind : Nat) (err : Bool) : Dev :=
  ((d.flashError err).setImage kind { d.image kind with
    active := !(d.image kind).active, beenA := (d.image kind).beenA || !!(d.image kind).active,
    beenB := (d.image kind).beenB || !(d.image kind).active }).put F.SEC_IMG_trial kind false

theorem Dev.confirmTrial_eq {d : Dev} {kind : Nat} (blown : Nat) (err : Bool) (h : d.onTrial kind = true) : d.confirmTrial kind blown err =
    { (d.confirmed kind err).serveRaise kind ((d.confirmed kind err).rd F.SEC_IMG_version kind) blown with detail := 0 } := by
  unfold Dev.confirmTrial
  rw [h]
  rfl

theorem Dev.confirmed_shows (d : Dev) (kind : Nat) (err : Bool) : ((d.confirmed kind err).image kind).active = !(d.image kind).active ∧
    (d.confirmed kind err).flag F.SEC_IMG_trial kind = false ∧ (∀ k, (d.confirmed kind err).counter k = d.counter k) ∧
    (d.confirmed kind err).rd F.SEC_IMG_version kind = d.rd F.SEC_IMG_version kind := by
  have hput : ∀ e : Dev, Keeps ⟨false, [F.SEC_IMG_trial], []⟩ e (e.put F.SEC_IMG_trial kind false) := fun e => e.put_keeps _ _ _ (by decide)
  refine ⟨?_, Dev.flag_put _ F.SEC_IMG_trial _ _ (by decide) rfl, fun k => ?_, ?_⟩
  · rw [Dev.confirmed, Dev.image_of_sec ((hput _).parts .sec (by decide)), Dev.image_setImage]
  · rw [Dev.confirmed, Dev.counter_of_sec ((hput _).parts .sec (by decide)), Dev.counter_setImage,
      Dev.counter_of_sec ((d.flashError_keeps err).parts .sec (by decide))]
  · rw [Dev.confirmed, (hput _).rd F.SEC_IMG_version kind (by decide), (Dev.setImage_keeps ..).rd F.SEC_IMG_version kind (by decide),
      (d.flashError_keeps err).rd F.SEC_IMG_version kind (by decide)]

/-- What a served request leaves, with a reset due where it asks for one. -/
def Dev.resetAfter (d : Dev) (x : Descr) (r : Machine.Served) : Machine.Served :=
  if r.st = Code.OK ∧ bitOf x.param1 1 = true then { r with dev := r.dev.onSec fun k => { k with resetAt := some (d.time + 800000) } } else r

/-- What UPDATE_ACTIVATE does once it is authorised. -/
def Dev.activateNow (d : Dev) (x : Descr) (blown : Nat) (err : Bool) : Machine.Served :=
  if bitOf x.param1 1 ∧ d.anyRun then { dev := d, st := Code.NOT_STOPPED }
  else d.resetAfter x (if bitOf x.param1 0 then d.confirmTrial x.target blown err else d.markTrial x.target err)

theorem Dev.resetAfter_shows (d : Dev) (x : Descr) (r : Machine.Served) : (d.resetAfter x r).st = r.st ∧ (d.resetAfter x r).dev.hi = r.dev.hi ∧
    r.dev.SameSessions (d.resetAfter x r).dev ∧ (∀ k, (d.resetAfter x r).dev.image k = r.dev.image k) ∧
    (∀ k, (d.resetAfter x r).dev.counter k = r.dev.counter k) ∧ (∀ f k, (d.resetAfter x r).dev.flag f k = r.dev.flag f k) := by
  unfold Dev.resetAfter
  split
  · exact ⟨rfl, rfl, ⟨rfl, rfl⟩, fun _ => rfl, fun _ => rfl, fun _ _ => rfl⟩
  · exact ⟨rfl, rfl, ⟨rfl, rfl⟩, fun _ => rfl, fun _ => rfl, fun _ _ => rfl⟩

theorem Dev.resetAfter_due {d : Dev} {x : Descr} {r : Machine.Served} (hok : r.st = Code.OK) (hbit : bitOf x.param1 1 = true) :
    (d.resetAfter x r).dev.sec.resetAt = some (d.time + 800000) := by
  rw [Dev.resetAfter, if_pos ⟨hok, hbit⟩]
  rfl

theorem Dev.confirmTrial_hi (d : Dev) (kind blown : Nat) (err : Bool) : (d.confirmTrial kind blown err).dev.hi = d.hi :=
  (d.confirmTrial_keeps kind blown err).parts .hi (by decide)

theorem Dev.markTrial_hi (d : Dev) (kind : Nat) (err : Bool) : (d.markTrial kind err).dev.hi = d.hi := (d.markTrial_keeps kind err).parts .hi (by decide)

theorem bitOf_zero (v : Nat) : bitOf v 0 = (v % 2 == 1) := by rw [bitOf, Nat.pow_zero, Nat.div_one]

theorem bitOf_one (v : Nat) : bitOf v 1 = (v / 2 % 2 == 1) := rfl

section
variable {d : Dev} {i blown : Nat} {err : Bool} {x : Descr} {buf : List Byte} {z : Session}

theorem activate_served (h : d.Authorised i x (buf.take x.length) z) (hop : x.opcode = Op.UPDATE_ACTIVATE) :
    ∀ r, (d.inSession i (buf.take x.length) z).activateNow x blown err = r → r.dev.hi = (d.inSession i (buf.take x.length) z).hi →
      (d.inSession i (buf.take x.length) z).SameSessions r.dev →
      Dev.Served r i (d.manage i Op.UPDATE_ACTIVATE fun d x => d.serveUpdateActivate false x (buf.take x.length) blown err) := fun _ hr =>
  Dev.manage_authorised (f := fun d x => d.serveUpdateActivate false x (buf.take x.length) blown err)
    (g := fun d _ _ _ => d.activateNow x blown err) h hop rfl hr

theorem activate_running (h : d.Authorised i x (buf.take x.length) z) (hop : x.opcode = Op.UPDATE_ACTIVATE) (hbit : bitOf x.param1 1 = true)
    (hrun : d.anyRun = true) : let n := d.manage i Op.UPDATE_ACTIVATE fun d x => d.serveUpdateActivate false x (buf.take x.length) blown err
    n.endedWith 0 i Code.NOT_STOPPED ∧ n.image x.target = d.image x.target := by
  have hgo : (d.inSession i (buf.take x.length) z).activateNow x blown err =
      { dev := d.inSession i (buf.take x.length) z, st := Code.NOT_STOPPED } := by
    rw [Dev.activateNow, (d.inSession_keeps i _ z).anyRun (by decide), if_pos ⟨hbit, hrun⟩]
  obtain ⟨hends, hsec, -⟩ := activate_served h hop _ hgo rfl (.refl _)
  exact ⟨hends, (Dev.image_of_sec hsec _).trans (d.image_inSession i _ z _)⟩

theorem activate_marks (h : d.Authorised i x (buf.take x.length) z) (hop : x.opcode = Op.UPDATE_ACTIVATE)
    (hmode : x.param1 % 4 = 0 ∨ (x.param1 % 4 = 2 ∧ d.anyRun = false)) {v : Bool} (hslot : d.otherSlot x.target = some v) :
    let n := d.manage i Op.UPDATE_ACTIVATE fun d x => d.serveUpdateActivate false x (buf.take x.length) blown err
    if d.verifyImage x.target v = Code.OK then n.endedWith 0 i Code.OK ∧ (n.image x.target).trial = some v ∧
      n.flag F.SEC_IMG_pending x.target = true ∧ (x.param1 % 4 = 2 → n.sec.resetAt = some (d.time + 800000))
    else n.endedWith 0 i (d.verifyImage x.target v) ∧ (n.image x.target).trial = (d.image x.target).trial := by
  set e := d.inSession i (buf.take x.length) z with he
  have hk := d.inSession_keeps i (buf.take x.length) z
  have hsec := d.inSession_sec i (buf.take x.length) z
  rw [← he] at hk hsec
  have himage : e.image x.target = d.image x.target := d.image_inSession i _ z _
  have hslot' : e.otherSlot x.target = some v := by
    rw [Dev.otherSlot, Dev.onTrial, hk.flag F.SEC_IMG_trial _ (by decide), himage]
    exact hslot
  have hverify : e.verifyImage x.target v = d.verifyImage x.target v := Dev.verifyImage_congr (by rw [hsec]) (by rw [hsec]) (by rw [hsec]) _ _
  have hfree : ¬ (bitOf x.param1 1 = true ∧ e.anyRun = true) := by
    rw [bitOf_one, hk.anyRun (by decide), beq_iff_eq]
    rintro ⟨hbit, hrun⟩
    rcases hmode with hzero | ⟨-, hno⟩
    · omega
    · rw [hno] at hrun
      exact absurd hrun (by decide)
  have hbit0 : bitOf x.param1 0 = false := by
    rw [bitOf_zero, beq_eq_false_iff_ne]
    omega
  have hgo : e.activateNow x blown err = e.resetAfter x (e.markTrial x.target err) := by
    rw [Dev.activateNow, if_neg hfree, hbit0, if_neg (by decide)]
  obtain ⟨hst, hhi, hsame, himg, -, hflag⟩ := e.resetAfter_shows x (e.markTrial x.target err)
  obtain ⟨hends, hserved, hkeep⟩ := activate_served h hop _ hgo (hhi.trans (e.markTrial_hi ..))
    (((Dev.SameSessions.refl e).markTrial _ _).trans hsame)
  have hnow := (Dev.image_of_sec hserved x.target).trans (himg x.target)
  dsimp only
  rw [hnow]
  rw [hst] at hends
  split
  next hok =>
    obtain ⟨hgood, htrial, hpending⟩ := Dev.markTrial_good err hslot' (hverify.trans hok)
    rw [hgood] at hends
    refine ⟨hends, htrial, (hkeep.flag F.SEC_IMG_pending _ (by decide)).trans ((hflag _ _).trans hpending), fun hreset => ?_⟩
    rw [hserved, Dev.resetAfter_due hgood (by rw [bitOf_one, beq_iff_eq]; omega), hk.time]
  next hbad =>
    obtain ⟨hstatus, hkept⟩ := Dev.markTrial_bad err hslot' (by rwa [hverify])
    rw [hstatus, hverify] at hends
    exact ⟨hends, by rw [hkept, himage]⟩

theorem activate_confirms (h : d.Authorised i x (buf.take x.length) z) (hop : x.opcode = Op.UPDATE_ACTIVATE) (hmode : x.param1 % 4 = 1)
    (htrial : d.onTrial x.target = true) (hversion : d.rd F.SEC_IMG_version x.target ≤ d.counter x.target + blown) :
    let n := d.manage i Op.UPDATE_ACTIVATE fun d x => d.serveUpdateActivate false x (buf.take x.length) blown err
    n.endedWith 0 i Code.OK ∧ (n.image x.target).active = !(d.image x.target).active ∧ n.flag F.SEC_IMG_trial x.target = false ∧
      n.counter x.target = max (d.counter x.target) (d.rd F.SEC_IMG_version x.target) := by
  set e := d.inSession i (buf.take x.length) z with he
  have hk := d.inSession_keeps i (buf.take x.length) z
  rw [← he] at hk
  have himage : e.image x.target = d.image x.target := d.image_inSession i _ z _
  have hcounter : e.counter x.target = d.counter x.target := d.counter_inSession i _ z _
  have htrial' : e.onTrial x.target = true := (hk.flag F.SEC_IMG_trial _ (by decide)).trans htrial
  have hbit0 : bitOf x.param1 0 = true := by
    rw [bitOf_zero, beq_iff_eq]
    omega
  have hbit1 : bitOf x.param1 1 = false := by
    rw [bitOf_one, beq_eq_false_iff_ne]
    omega
  obtain ⟨hactive, hflag, hcount, hver⟩ := e.confirmed_shows x.target err
  rw [hk.rd F.SEC_IMG_version _ (by decide)] at hver
  have hgo : e.activateNow x blown err = e.resetAfter x (e.confirmTrial x.target blown err) := by
    rw [Dev.activateNow, hbit1, hbit0, if_neg (by rintro ⟨hno, -⟩; exact absurd hno (by decide)), if_pos rfl]
  obtain ⟨hst, hhi, hsame, himg, hcnt, hflg⟩ := e.resetAfter_shows x (e.confirmTrial x.target blown err)
  obtain ⟨hends, hserved, hkeep⟩ := activate_served h hop _ hgo (hhi.trans (e.confirmTrial_hi ..))
    (((Dev.SameSessions.refl e).confirmTrial _ _ _).trans hsame)
  obtain ⟨hok, hmax⟩ := Dev.serveRaise_max (d := e.confirmed x.target err) (c := x.target) (v := d.rd F.SEC_IMG_version x.target) (blown := blown)
    (by rw [hcount, hcounter]; exact hversion)
  have hraise := Dev.serveRaise_keeps (e.confirmed x.target err) x.target (d.rd F.SEC_IMG_version x.target) blown
  rw [hst, Dev.confirmTrial_eq blown err htrial', hver] at hends
  dsimp only
  rw [Dev.image_of_sec hserved, himg, hkeep.flag F.SEC_IMG_trial _ (by decide), hflg, Dev.counter_of_sec hserved, hcnt,
    Dev.confirmTrial_eq blown err htrial', hver]
  refine ⟨hok ▸ hends, ?_, (hraise.flag F.SEC_IMG_trial _ (by decide)).trans hflag, ?_⟩
  · rw [Dev.image_serveRaise, hactive, himage]
  · rw [hmax, hcount, hcounter]

end

/-! ### The commands -/

/-- Settles O40: the effect of every privileged descriptor once it is authorised. -/
theorem privilegedEffects : Obligations.PrivilegedEffects := by
  unfold Obligations.PrivilegedEffects
  intro s t i x buf blown err z d b now hst hlive hidle hw
  have hserve : d.MayServe i x := ⟨hst, hlive, hidle, hw⟩
  refine ⟨fun hop htarget hfirst hlen hblown => ?first, fun hauth hz => ?_⟩
  case first =>
    refine Does.of_effect (show exec _ s = execEnroll t i buf blown s from rfl) ?_
    have henrolled : ∀ k, (d.started 0 i).enrolled k = d.enrolled k := Dev.enrolled_of_sec ((d.started_keeps 0 i).parts .sec (by decide))
    have hgo : (d.started 0 i).serveEnroll false x b blown = (d.started 0 i).enrol 0 b blown := by
      rw [Dev.serveEnroll, if_pos]
      rw [Dev.enrolsFirst, htarget, Bool.and_eq_true, List.all_eq_true]
      refine ⟨rfl, fun k hk => ?_⟩
      have hk4 : k < 4 := (show ∀ k ∈ [0, 1, 2, 3], k < 4 by decide) k hk
      rw [henrolled, hfirst ⟨k, hk4⟩]
      rfl
    have hkeep := (d.started 0 i).enrol_keeps 0 b blown
    have hsame := (Dev.SameSessions.refl (d.started 0 i)).enrol 0 b blown
    obtain ⟨hends, hsec, -⟩ := Dev.manage_served (f := fun d x => d.serveEnroll false x (buf.take x.length) blown) hserve hop hgo
      (hkeep.parts .hi (by decide)) (by rw [hsame.uart, (d.started_keeps 0 i).parts .sec (by decide), hidle])
    obtain ⟨hok, hkey⟩ := Dev.enrol_empty (d := d.started 0 i) (slot := 0) hlen (by rw [henrolled]; exact hfirst 0) hblown
    rw [hok] at hends
    exact ⟨hends, (Dev.enrolled_of_sec hsec 0).trans hkey⟩
  have h : d.Authorised i x (buf.take x.length) z := ⟨hserve, hauth, hz⟩
  refine ⟨fun hop => ?opens, fun hop hslot hlen hblown => ?enroll, fun hop hblown => ?revoke, fun hop _ _ => ?raise, fun hop => ?activate,
    fun hop => ?load, fun hop => ?erase⟩
  case opens => exact Does.of_effect (show exec _ s = execUnseal t i buf s from rfl) (unsealed h hop)
  case enroll =>
    refine Does.of_effect (show exec _ s = execEnroll t i buf blown s from rfl) ?_
    set e := d.inSession i b z with he
    have henrolled : ∀ k, e.enrolled k = d.enrolled k := d.enrolled_inSession i b z
    have hserved := Dev.manage_authorised (f := fun d x => d.serveEnroll false x (buf.take x.length) blown)
      (g := fun d _ _ key => d.enrol x.target key blown) h hop
      (by rw [Dev.serveEnroll, Dev.enrolsFirst_eq_false (.inl hslot), if_neg (by decide)]) rfl
      ((Dev.enrol_keeps ..).parts .hi (by decide)) ((Dev.SameSessions.refl _).enrol ..)
    refine ⟨fun hempty => ?_, fun hfull => ?_⟩
    · obtain ⟨hends, hsec, -⟩ := hserved
      obtain ⟨hok, hkey⟩ := Dev.enrol_empty (d := e) hlen ((henrolled _).trans hempty) hblown
      rw [hok] at hends
      exact ⟨hends, (Dev.enrolled_of_sec hsec _).trans hkey⟩
    · rw [Dev.enrol_full blown hlen ((henrolled _).symm ▸ hfull)] at hserved
      exact ⟨hserved.ends, (Dev.enrolled_of_sec hserved.sec _).trans (henrolled _)⟩
  case revoke => exact does_revoke (revoked h hop hblown)
  case raise => exact does_raiseCounter (raised h hop)
  case activate =>
    refine Does.of_effect (show exec _ s = execUpdateActivate t i buf ⟨blown, err⟩ s from rfl) ?_
    exact ⟨fun hbit hrun => activate_running h hop hbit hrun, fun hmode v hslot => activate_marks h hop hmode hslot,
      fun hmode htrial hversion => activate_confirms h hop hmode htrial hversion⟩
  case load => exact Does.of_effect (show exec _ s = execKeyLoad t i ⟨buf, err⟩ s from rfl) (keyLoaded h hop)
  case erase => exact Does.of_effect (show exec _ s = execKeyErase t i ⟨buf, err⟩ s from rfl) (keyErased h hop)

end Sys2Proof.Machine
end

section
/-! Seal requests and their outcomes (R30 to R32, R181, R206); obligation O51. -/

namespace Sys2Proof.Machine

/-! ### A write below every field that a check reads -/

theorem Dev.rd2_setWord_below (d : Dev) {f : Fd} {off : Nat} (w : Word) (i j : Nat) (h : off < f.base) : (d.setWord off w).rd2 f i j = d.rd2 f i j := by
  have hne : f.off i j ≠ off := by
    rw [Fd.off]
    omega
  rw [Dev.rd2, Dev.word_setWord, if_neg hne, Dev.rd2]

section
variable (d : Dev) (w : Word)

theorem Dev.seqBad_seal : d.seqBad (d.setWord 0x14 w) = false := by
  have hrd : ∀ {f : Fd} (i j : Nat), 0x14 < f.base → (d.setWord 0x14 w).rd2 f i j = d.rd2 f i j := fun i j h => d.rd2_setWord_below w i j h
  have hflag : ∀ {f : Fd} (i : Nat), 0x14 < f.base → (d.setWord 0x14 w).flag f i = d.flag f i := fun i h => congrArg (· == 1) (hrd i 0 h)
  have hreg : ∀ {f : Fd} (i : Nat), 0x14 < f.base → (d.setWord 0x14 w).rd f i = d.rd f i := fun i h => hrd i 0 h
  have hloops : (d.setWord 0x14 w).loops = d.loops := by simp (disch := decide) only [Dev.loops, hflag]
  have haux : ∀ l, (d.setWord 0x14 w).isAux l = d.isAux l := fun l => hflag l (by decide)
  have hhome : ∀ l, (d.setWord 0x14 w).home l = d.home l := fun l => hreg l (by decide)
  have hlink : ∀ l, (d.setWord 0x14 w).linkOf l = d.linkOf l := fun l => by simp (disch := decide) only [Dev.linkOf, haux, hflag, hreg, hhome]
  have hdriving : ∀ s, (d.setWord 0x14 w).driving s = d.driving s := fun s => by simp only [Dev.driving, Dev.loopStages, hloops, haux, hhome, hlink]
  have hprimary : ∀ s, (d.setWord 0x14 w).primaryLoop s = d.primaryLoop s := fun s => by simp only [Dev.primaryLoop, hloops, haux, hhome]
  have hservable : ∀ s, (d.setWord 0x14 w).servable s = d.servable s := fun s => by
    simp (disch := decide) only [Dev.servable, Dev.loopStage, hflag, hreg, hdriving]
  have hentry : ∀ c e, (d.setWord 0x14 w).entryOn c e = d.entryOn c e := fun c e => by simp (disch := decide) only [Dev.entryOn, hreg]
  have hch : (d.setWord 0x14 w).badCh = d.badCh := by
    simp (disch := decide) only [Dev.badCh, Dev.period, Dev.entryOf, hservable, hentry, hflag, hreg, hrd]
  have hlv : (d.setWord 0x14 w).badLv = d.badLv := by
    simp (disch := decide) only [Dev.badLv, hservable, hentry, hprimary, hflag, hreg]
    simp only [funext hlink]
  have hdr : ∀ a, (d.setWord 0x14 w).badDr a = d.badDr a := fun a => by
    simp (disch := decide) only [Dev.badDr, Dev.loopStage, Dev.psMode, hprimary, hflag, hreg]
  simp only [Dev.seqBad, hch, hlv, hdr, Bool.and_not_self, Bool.or_false]
  rfl

theorem Dev.canBad_seal : d.canBad (d.setWord 0x14 w) = false := by
  have hflag : ∀ {f : Fd} (i : Nat), 0x14 < f.base → (d.setWord 0x14 w).flag f i = d.flag f i := fun i h =>
    congrArg (· == 1) (d.rd2_setWord_below w i 0 h)
  have hreg : ∀ {f : Fd} (i : Nat), 0x14 < f.base → (d.setWord 0x14 w).rd f i = d.rd f i := fun i h => d.rd2_setWord_below w i 0 h
  have hword : ∀ {f : Fd} (i : Nat), 0x14 < f.base → (d.setWord 0x14 w).word (f.off i 0) = d.word (f.off i 0) := fun i h => by
    rw [Dev.word_setWord, if_neg]
    rw [Fd.off]
    omega
  have hcan : ∀ c, (d.setWord 0x14 w).badCan c = d.badCan c := fun c => by
    simp (disch := decide) only [Dev.badCan, Dev.qpKind, hword, hflag, hreg]
    simp (disch := decide) only [funext fun k => hflag (f := F.CN_TT_CFG_gt_src) k (by decide)]
  simp only [Dev.canBad, hcan, Bool.and_not_self]
  rfl

end

/-! ### The request (R31) -/

/-- The row of DEV_SEAL_CTRL. -/
def sealRow : RegRow :=
  ⟨"DEV_SEAL_CTRL", 0x14, 1, 0x0, 1, 0x0, .H, 0x0, 0x0,
    [⟨"seal", 0, 1, .w1s, none⟩, ⟨"outcome", 8, 8, .ro, none⟩, ⟨"detail_kind", 16, 4, .ro, none⟩, ⟨"detail_index", 20, 12, .ro, none⟩]⟩

theorem findReg_seal : findReg 0x14 = some sealRow := rfl

/-- May a master's request begin a seal? -/
def Dev.sealOpen (d : Dev) (m : Master) : Prop := d.devState = DevSt.setup ∨ (d.devState = DevSt.boot ∧ m = .imset ∧ d.sec.sealDue = true)

theorem Dev.writeReason_sealWrite (d : Dev) (m : Master) : d.writeReason m 0x14 false 1 =
    match d.commandReason m 0x14 1 with
    | some why => some why
    | none => none := by
  have hrefuses : d.refuses (d.setWord 0x14 (mergeWord sealRow (d.word 0x14) 1)) m 0x14 = false := by
    rw [Dev.refuses, d.seqBad_seal, d.canBad_seal]
    simp only [Bool.or_false, Bool.and_false]
    rfl
  rw [Dev.writeReason, if_neg (by decide), if_neg (by decide), findReg_seal]
  dsimp only
  rw [if_neg (by decide), if_neg (by rintro ⟨h, -⟩; exact absurd h (by decide)), if_neg (by rintro ⟨h, -⟩; exact absurd h (by decide)),
    show d.regFenced 0x14 = false from rfl, if_neg (by decide), if_neg (by decide), hrefuses]
  rfl

theorem Dev.commandReason_sealWrite (d : Dev) (m : Master) : d.commandReason m 0x14 1 =
    if d.devState == DevSt.setup || (d.devState == DevSt.boot && m == .imset && d.sec.sealDue) then none else some Reason.value := by
  unfold Dev.commandReason
  dsimp only
  rw [if_pos (by decide), show (getBits (1 : Word) 0 1 == 1) = true from rfl, Bool.true_and]
  cases (d.devState == DevSt.setup || (d.devState == DevSt.boot && m == .imset && d.sec.sealDue)) <;> rfl

theorem Dev.busWrite_seal_open {d : Dev} {m : Master} (h : d.sealOpen m) : d.busWrite m 0x14 4 1 = d.sealRequest m := by
  have hnone : d.commandReason m 0x14 1 = none := by
    rw [Dev.commandReason_sealWrite, if_pos]
    rcases h with hsetup | ⟨hboot, hm, hdue⟩
    · rw [hsetup]
      rfl
    · rw [hboot, hm, hdue]
      rfl
  unfold Dev.busWrite
  dsimp only
  rw [if_neg (by decide), if_pos (by decide), show BitVec.extractLsb' 0 32 (1 : DWord) = (1 : Word) from rfl, Dev.writeWord, Dev.writeReason_sealWrite, hnone]
  dsimp only
  rw [Dev.store, if_neg (by decide), if_neg (by decide), findReg_seal]
  rfl

theorem Dev.busWrite_seal_refused {d : Dev} {m : Master} (h : ¬ d.sealOpen m) : d.busWrite m 0x14 4 1 = d.reject m 0x14 Reason.value 1 := by
  have hsome : d.commandReason m 0x14 1 = some Reason.value := by
    rw [Dev.commandReason_sealWrite, if_neg]
    intro hopen
    apply h
    rw [Bool.or_eq_true, Bool.and_eq_true, Bool.and_eq_true, beq_iff_eq, beq_iff_eq, beq_iff_eq] at hopen
    rcases hopen with hsetup | ⟨⟨hboot, hm⟩, hdue⟩
    · exact .inl hsetup
    · exact .inr ⟨hboot, hm, hdue⟩
  unfold Dev.busWrite
  dsimp only
  rw [if_neg (by decide), if_pos (by decide), show BitVec.extractLsb' 0 32 (1 : DWord) = (1 : Word) from rfl, Dev.writeWord, Dev.writeReason_sealWrite, hsome]

theorem Dev.sealRequest_shows (d : Dev) (m : Master) : (d.sealRequest m).devState = DevSt.sealing ∧ (d.sealRequest m).sys.sealBy = some m ∧
    (d.sealRequest m).flag F.DEV_SEAL_CTRL_seal 0 = true := by
  have hstate : ∀ e : Dev, (e.wr F.DEV_STATE_state 0 DevSt.sealing).rd F.DEV_STATE_state 0 = DevSt.sealing := fun e =>
    Dev.rd_wr_of_lt _ F.DEV_STATE_state _ (by decide) (by decide)
  refine ⟨hstate _, rfl, ?_⟩
  have hflag : ((d.put F.DEV_SEAL_CTRL_seal 0 true).wr F.DEV_STATE_state 0 DevSt.sealing).flag F.DEV_SEAL_CTRL_seal 0 = true := by
    rw [Dev.flag, Dev.rd_wr_apart _ F.DEV_SEAL_CTRL_seal F.DEV_STATE_state _ _ _ (by decide) (by decide), ← Dev.flag]
    exact Dev.flag_put _ F.DEV_SEAL_CTRL_seal _ _ (by decide) rfl
  exact hflag

/-- A rejected write is counted, up to the counter's end. -/
theorem Dev.reject_counts (d : Dev) (m : Master) (off reason : Nat) (w : Word) :
    (d.reject m off reason w).devState = d.devState ∧ (d.reject m off reason w).rd F.FAB_WRITE_CNT 0 = min (d.rd F.FAB_WRITE_CNT 0 + 1) (2 ^ 32 - 1) := by
  have hk : Keeps ⟨false, [F.FAB_WRITE_ERR, F.FAB_WRITE_ERR_more, F.FAB_WRITE_DATA], []⟩ (d.bump F.FAB_WRITE_CNT 0) (d.reject m off reason w) :=
    .ite (fun _ => (Dev.put_keeps _ F.FAB_WRITE_ERR_more _ _ (by decide)).within (by decide)) fun _ =>
      ((Dev.wr_keeps _ F.FAB_WRITE_ERR _ _ (by decide)).within (by decide)).trans ((Dev.wr_keeps _ F.FAB_WRITE_DATA _ _ (by decide)).within (by decide))
  refine ⟨(hk.rd F.DEV_STATE_state 0 (by decide)).trans ((d.bump_keeps F.FAB_WRITE_CNT 0 (by decide)).rd F.DEV_STATE_state 0 (by decide)), ?_⟩
  rw [hk.rd F.FAB_WRITE_CNT 0 (by decide)]
  exact Dev.rd_bump _ F.FAB_WRITE_CNT _ (by decide)

/-! ### A refused seal (R31, R32) -/

theorem Dev.rd_onSys (d : Dev) (g : Sys → Sys) (f : Fd) (i : Nat) : (d.onSys g).rd f i = d.rd f i := rfl

theorem Dev.sealOutcome_shows (d : Dev) {st kind index : Nat} (hst : st < 256) (hkind : kind < 16) (hindex : index < 4096) :
    let n := d.sealOutcome st kind index
    n.rd F.DEV_SEAL_CTRL_outcome 0 = st ∧ n.rd F.DEV_SEAL_CTRL_detail_kind 0 = kind ∧ n.rd F.DEV_SEAL_CTRL_detail_index 0 = index ∧
      n.flag F.DEV_SEAL_CTRL_seal 0 = false := by
  set a := d.put F.DEV_SEAL_CTRL_seal 0 false with ha
  set b := a.wr F.DEV_SEAL_CTRL_outcome 0 st with hb
  set c := b.wr F.DEV_SEAL_CTRL_detail_kind 0 kind with hc
  have hgo : d.sealOutcome st kind index = (c.wr F.DEV_SEAL_CTRL_detail_index 0 index).onSys fun k => { k with sealBy := none } := rfl
  have hn : ∀ f : Fd, (d.sealOutcome st kind index).rd f 0 = (c.wr F.DEV_SEAL_CTRL_detail_index 0 index).rd f 0 := fun f => by rw [hgo, Dev.rd_onSys]
  have hkb : Keeps ⟨false, [F.DEV_SEAL_CTRL_outcome], []⟩ a b := Dev.wr_keeps _ _ _ _ (by decide)
  have hkc : Keeps ⟨false, [F.DEV_SEAL_CTRL_detail_kind], []⟩ b c := Dev.wr_keeps _ _ _ _ (by decide)
  have hki := c.wr_keeps F.DEV_SEAL_CTRL_detail_index 0 index (by decide)
  dsimp only
  rw [Dev.flag, hn, hn, hn, hn, hki.rd F.DEV_SEAL_CTRL_outcome 0 (by decide), hkc.rd F.DEV_SEAL_CTRL_outcome 0 (by decide),
    hki.rd F.DEV_SEAL_CTRL_detail_kind 0 (by decide), hki.rd F.DEV_SEAL_CTRL_seal 0 (by decide), hkc.rd F.DEV_SEAL_CTRL_seal 0 (by decide),
    hkb.rd F.DEV_SEAL_CTRL_seal 0 (by decide), ← Dev.flag]
  exact ⟨Dev.rd_wr_of_lt _ F.DEV_SEAL_CTRL_outcome _ (by decide) hst, Dev.rd_wr_of_lt _ F.DEV_SEAL_CTRL_detail_kind _ (by decide) hkind,
    Dev.rd_wr_of_lt _ F.DEV_SEAL_CTRL_detail_index _ (by decide) hindex, Dev.flag_put _ F.DEV_SEAL_CTRL_seal _ _ (by decide) rfl⟩

/-- The device state written over an outcome. -/
theorem Dev.enterState_shows {d e : Dev} {st kind index new : Nat} (hnew : new < 16) (ho : e.rd F.DEV_SEAL_CTRL_outcome 0 = st)
    (hk : e.rd F.DEV_SEAL_CTRL_detail_kind 0 = kind) (hi : e.rd F.DEV_SEAL_CTRL_detail_index 0 = index)
    (hs : e.flag F.DEV_SEAL_CTRL_seal 0 = false) (hmb : e.mb = d.mb) (htm : e.tm = d.tm) : let n := e.wr F.DEV_STATE_state 0 new
    n.devState = new ∧ n.rd F.DEV_SEAL_CTRL_outcome 0 = st ∧ n.rd F.DEV_SEAL_CTRL_detail_kind 0 = kind ∧
      n.rd F.DEV_SEAL_CTRL_detail_index 0 = index ∧ n.flag F.DEV_SEAL_CTRL_seal 0 = false ∧ n.mb = d.mb ∧ n.tm = d.tm := by
  have happ : ∀ {f : Fd}, f.apart F.DEV_STATE_state = true → (e.wr F.DEV_STATE_state 0 new).rd f 0 = e.rd f 0 := fun h =>
    Dev.rd_wr_apart _ _ F.DEV_STATE_state _ _ _ (by decide) h
  refine ⟨Dev.rd_wr_of_lt _ F.DEV_STATE_state _ (by decide) hnew, (happ (by decide)).trans ho, (happ (by decide)).trans hk,
    (happ (by decide)).trans hi, ?_, hmb, htm⟩
  rw [Dev.flag, happ (by decide), ← Dev.flag, hs]

/-- The device state that ends a seal, over its outcome. -/
theorem Dev.endSeal_shows (d : Dev) {st kind index new : Nat} (hst : st < 256) (hkind : kind < 16) (hindex : index < 4096) (hnew : new < 16) :
    let n := (d.sealOutcome st kind index).wr F.DEV_STATE_state 0 new
    n.devState = new ∧ n.rd F.DEV_SEAL_CTRL_outcome 0 = st ∧ n.rd F.DEV_SEAL_CTRL_detail_kind 0 = kind ∧
      n.rd F.DEV_SEAL_CTRL_detail_index 0 = index ∧ n.flag F.DEV_SEAL_CTRL_seal 0 = false ∧ n.mb = d.mb ∧ n.tm = d.tm := by
  obtain ⟨ho, hk, hi, hs⟩ := d.sealOutcome_shows hst hkind hindex
  have hkeep := d.sealOutcome_keeps st kind index
  have hmb := hkeep.parts .mb (by decide)
  have htm := hkeep.parts .tm (by decide)
  exact Dev.enterState_shows hnew ho hk hi hs hmb htm

/-! ### A seal succeeds -/

/-- Four bytes of a word, in the order of their addresses. -/
theorem byteWord_toNat (b : Nat → Byte) : (byteWord b).toNat = (b 0).toNat + 256 * ((b 1).toNat + 256 * ((b 2).toNat + 256 * (b 3).toNat)) := by
  have h0 := (b 0).isLt
  have h1 := (b 1).isLt
  have h2 := (b 2).isLt
  simp only [byteWord, BitVec.toNat_append]
  rw [← Nat.shiftLeft_add_eq_or_of_lt h0, ← Nat.shiftLeft_add_eq_or_of_lt h1, ← Nat.shiftLeft_add_eq_or_of_lt h2]
  simp only [Nat.shiftLeft_eq]
  omega

theorem numAt_digest (h : Nat → Byte) {k : Nat} (hk : k < 16) : (byteWord fun j => h (4 * k + j)).toNat = numAt ((List.range 64).map h) (4 * k) 4 := by
  have hlist : (((List.range 64).map h).drop (4 * k)).take 4 = [h (4 * k), h (4 * k + 1), h (4 * k + 2), h (4 * k + 3)] := by
    refine List.ext_getElem (by simp; omega) fun n hn _ => ?_
    rw [List.getElem_take, List.getElem_drop, List.getElem_map, List.getElem_range]
    have hn4 : n < 4 := by simp at hn; omega
    interval_cases n <;> rfl
  rw [byteWord_toNat, numAt, hlist]
  rfl

theorem Dev.each_measure (d : Dev) (b : Nat → Word) (k : Fin 16) :
    (d.each (List.range 16) fun d i => d.wr F.DEV_MEASURE i (b i).toNat).rd F.DEV_MEASURE k = (b k).toNat := by
  have hset : ∀ e : Dev, (e.wr F.DEV_MEASURE k (b k).toNat).rd F.DEV_MEASURE k = (b k).toNat := fun e =>
    Dev.rd_wr_of_lt _ F.DEV_MEASURE _ (by decide) (BitVec.isLt _)
  refine Dev.each_reaches (P := fun e => e.rd F.DEV_MEASURE k = (b k).toNat) (List.mem_range.mpr k.isLt) hset (fun e q hq h => ?_) d
  rcases eq_or_ne q k with rfl | hne
  · exact hset e
  · rw [Dev.rd_wr_of_ne _ F.DEV_MEASURE _ (by decide) k.isLt (List.mem_range.mp hq) hne.symm, h]

theorem Dev.measure_shows (d : Dev) (k : Fin 16) :
    d.measure.rd F.DEV_MEASURE k = numAt ((List.range 64).map (Config.shake256 d.sealedBytes)) (4 * k) 4 :=
  (d.each_measure (fun i => byteWord fun j => Config.shake256 d.sealedBytes (4 * i + j)) k).trans (numAt_digest _ k.isLt)

/-- A register of another class than S is outside the digest. -/
theorem Dev.sealedBytes_setWord {d : Dev} {off : Nat} {r : RegRow} (w : Word) (hreg : findReg off = some r) (hcls : r.cls ≠ .S) :
    (d.setWord off w).sealedBytes = d.sealedBytes := by
  have hsetup : ∀ first last, (d.setWord off w).setupBytes first last = d.setupBytes first last := fun first last => by
    unfold Dev.setupBytes
    congr 1
    funext k
    rcases eq_or_ne (first + 4 * k) off with heq | hne
    · rw [heq, hreg]
      dsimp only
      rw [if_neg hcls, if_neg hcls]
    · rw [Dev.word_setWord, if_neg hne]
  rw [Dev.sealedBytes, hsetup, hsetup]
  rfl

/-- The seal's parts before its outcome. -/
def Dev.sealedParts (d : Dev) : Dev := (((d.measure.sealBanks).sealPool).sealSequencers).wr F.IMS_BOOT_seal_ms 0
  (min ((((d.measure.sealBanks).sealPool).sealSequencers).time / 800000) 255)

theorem Dev.sealSucceeds_eq (d : Dev) : d.sealSucceeds = (d.sealedParts.sealOutcome Code.OK 0 0).wr F.DEV_STATE_state 0 DevSt.sealed := rfl

/-- The resting state of a sequencer. -/
def restState (on : Bool) : Nat := if on then 2 else 1

theorem restState_lt (on : Bool) : restState on < 16 := by cases on <;> decide

theorem Dev.tmState_tmGo_of_ne (d : Dev) {m k new : Nat} (hm : m < 2) (hk : k < 2) (h : k ≠ m) : (d.tmGo m new).tmState k = d.tmState k := by
  unfold Dev.tmGo
  dsimp only
  split
  · rfl
  · rw [Dev.tmState, (Dev.stateEvent_keeps ..).rd F.SC_TM_STAT_state k (by decide), Dev.rd_wr_of_ne _ F.SC_TM_STAT_state _ (by decide) hk hm h, Dev.tmState]

theorem Dev.drState_drGo_of_ne (d : Dev) {a k new : Nat} (ha : a < 6) (hk : k < 6) (h : k ≠ a) : (d.drGo a new).drState k = d.drState k := by
  unfold Dev.drGo
  dsimp only
  split
  · rfl
  · rw [Dev.drState, (Dev.stateEvent_keeps ..).rd F.SC_DR_STAT_state k (by decide), Dev.rd_wr_of_ne _ F.SC_DR_STAT_state _ (by decide) hk ha h, Dev.drState]

/-- Sequencers sent to rest one after another each keep their state. -/
theorem Dev.each_rests {go : Dev → Nat → Nat → Dev} {state : Dev → Nat → Nat} {cfg : Fd} {l : List Nat} (d : Dev)
    (hself : ∀ (e : Dev) (m : Nat), m ∈ l → ∀ on, state (go e m (restState on)) m = restState on)
    (hother : ∀ (e : Dev) (m k new : Nat), m ∈ l → k ∈ l → k ≠ m → state (go e m new) k = state e k)
    (hcfg : ∀ (e : Dev) (m new j : Nat), (go e m new).flag cfg j = e.flag cfg j) {k : Nat} (hk : k ∈ l) :
    state (d.each l fun d m => go d m (restState (d.flag cfg m))) k = restState (d.flag cfg k) := by
  have hand := Dev.each_reaches_of (I := fun e => ∀ j : Nat, e.flag cfg j = d.flag cfg j)
    (P := fun e => (∀ j : Nat, e.flag cfg j = d.flag cfg j) ∧ state e k = restState (d.flag cfg k))
    (f := fun d m => go d m (restState (d.flag cfg m))) hk (fun e q _ he j => (hcfg ..).trans (he j))
    (fun e he => ⟨fun j => (hcfg ..).trans (he j), ?_⟩) (fun e q hq he => ⟨fun j => (hcfg ..).trans (he.1 j), ?_⟩) d (fun _ => rfl)
  · exact hand.2
  · rw [he]
    exact hself e k hk _
  · obtain ⟨hsame, hrest⟩ := he
    rcases eq_or_ne k q with rfl | hne
    · rw [hsame]
      exact hself e k hk _
    · exact (hother e q k _ hq hk hne).trans hrest

theorem Dev.sealTm_shows (d : Dev) (k : Fin 2) :
    (d.each [0, 1] fun d m => d.tmGo m (restState (d.flag F.SC_TM_CFG_enable m))).tmState k = restState (d.flag F.SC_TM_CFG_enable k) := by
  have hlt : ∀ m ∈ [0, 1], m < 2 := by decide
  exact Dev.each_rests (go := Dev.tmGo) (state := Dev.tmState) d (fun e m hm on => Dev.tmState_tmGo e ⟨m, hlt m hm⟩ (restState_lt on))
    (fun e m j new hm hj h => Dev.tmState_tmGo_of_ne e (hlt m hm) (hlt j hj) h) (fun e m new j => (e.tmGo_keeps m new).flag _ _ (by decide))
    ((show ∀ k : Fin 2, (k : Nat) ∈ [0, 1] by decide) k)

theorem Dev.sealDr_shows (d : Dev) (k : Fin 6) :
    (d.each (List.range 6) fun d a => d.drGo a (restState (d.flag F.SC_DR_CFG_enable a))).drState k = restState (d.flag F.SC_DR_CFG_enable k) :=
  Dev.each_rests (go := Dev.drGo) (state := Dev.drState) d (fun e a ha on => Dev.drState_drGo e ⟨a, List.mem_range.mp ha⟩ (restState_lt on))
    (fun e a j new ha hj h => Dev.drState_drGo_of_ne e (List.mem_range.mp ha) (List.mem_range.mp hj) h)
    (fun e a new j => (e.drGo_keeps a new).flag _ _ (by decide)) (List.mem_range.mpr k.isLt)

/-- The traction machines at rest. -/
def Dev.sealTm (d : Dev) : Dev := d.each [0, 1] fun d m => d.tmGo m (restState (d.flag F.SC_TM_CFG_enable m))

/-- The charger and the converter at rest. -/
def Dev.sealChLv (d : Dev) : Dev := (d.chGo (restState (d.flag F.SC_CH_CFG_enable 0))).lvGo (restState (d.flag F.SC_LV_CFG_enable 0))

theorem Dev.sealSequencers_eq (d : Dev) : d.sealSequencers =
    d.sealTm.sealChLv.each (List.range 6) fun d a => d.drGo a (restState (d.flag F.SC_DR_CFG_enable a)) := rfl

theorem Dev.sealTm_keeps (d : Dev) : Keeps ⟨false, [F.SC_TM_STAT_state], [.hi]⟩ d d.sealTm := d.each_keeps _ _ fun e m => e.tmGo_keeps m _

theorem Dev.sealChLv_keeps (d : Dev) : Keeps ⟨false, [F.SC_CH_STAT_state, F.SC_LV_STAT_state], [.hi]⟩ d d.sealChLv :=
  ((d.chGo_keeps _).within (by decide)).trans ((Dev.lvGo_keeps ..).within (by decide))

theorem Dev.sealSequencers_shows (d : Dev) : let n := d.sealSequencers
    (∀ k : Fin 2, n.tmState k = restState (d.flag F.SC_TM_CFG_enable k)) ∧ n.chState = restState (d.flag F.SC_CH_CFG_enable 0) ∧
      n.lvState = restState (d.flag F.SC_LV_CFG_enable 0) ∧ ∀ a : Fin 6, n.drState a = restState (d.flag F.SC_DR_CFG_enable a) := by
  have htm := d.sealTm_keeps
  have hchlv := d.sealTm.sealChLv_keeps
  have hdr : Keeps ⟨false, [F.SC_DR_STAT_state], [.hi]⟩ d.sealTm.sealChLv d.sealSequencers :=
    Dev.each_keeps _ _ _ fun e a => e.drGo_keeps a _
  have hlv := Dev.lvGo_keeps (d.sealTm.chGo (restState (d.sealTm.flag F.SC_CH_CFG_enable 0))) (restState (d.sealTm.flag F.SC_LV_CFG_enable 0))
  refine ⟨fun k => ?_, ?_, ?_, fun a => ?_⟩
  · rw [Dev.tmState, hdr.rd F.SC_TM_STAT_state k (by decide), hchlv.rd F.SC_TM_STAT_state k (by decide)]
    exact d.sealTm_shows k
  · rw [Dev.chState, hdr.rd F.SC_CH_STAT_state 0 (by decide), ← htm.flag F.SC_CH_CFG_enable 0 (by decide)]
    exact (hlv.rd F.SC_CH_STAT_state 0 (by decide)).trans (Dev.chState_chGo _ (restState_lt _))
  · rw [Dev.lvState, hdr.rd F.SC_LV_STAT_state 0 (by decide), ← htm.flag F.SC_LV_CFG_enable 0 (by decide)]
    exact Dev.lvState_lvGo _ (restState_lt _)
  · rw [Dev.sealSequencers_eq, Dev.sealDr_shows, hchlv.flag F.SC_DR_CFG_enable a (by decide), htm.flag F.SC_DR_CFG_enable a (by decide)]

theorem Dev.sealedParts_keeps (d : Dev) : Keeps ⟨false, [F.BE_ENG_STAT_state, F.BE_ENG_STAT_spare, F.BE_ENG_STAT_loop, F.BE_ENG_STAT_loops,
    F.BE_ENG_LOOPS_LO, F.BE_ENG_LOOPS_HI, F.BE_LP_SWAP_pending, F.BE_LP_SWAP_status, F.BE_LP_STAT_state, F.BE_LP_STAT_engine, F.BE_POOL_STAT_fenced,
    F.BE_POOL_STAT_free, F.SC_TM_STAT_state, F.SC_CH_STAT_state, F.SC_LV_STAT_state, F.SC_DR_STAT_state, F.MB_BANK_CTRL, F.MB_BANK_STAT_owner,
    F.IMS_BOOT_seal_ms, F.FLT_STAT_lost, F.FLT_LOST], [.be, .hi, .flt]⟩ d.measure d.sealedParts :=
  (((d.measure.sealBanks_keeps.within (by decide)).trans ((Dev.sealPool_keeps _).within (by decide))).trans
    ((Dev.sealSequencers_keeps _).within (by decide))).trans ((Dev.wr_keeps _ F.IMS_BOOT_seal_ms 0 _ (by decide)).within (by decide))

/-- The sequencers' states after a seal's parts rest on their settings. -/
theorem Dev.sealedParts_sequencers (d : Dev) : let n := d.sealedParts
    (∀ k : Fin 2, n.tmState k = restState (d.flag F.SC_TM_CFG_enable k)) ∧ n.chState = restState (d.flag F.SC_CH_CFG_enable 0) ∧
      n.lvState = restState (d.flag F.SC_LV_CFG_enable 0) ∧ ∀ a : Fin 6, n.drState a = restState (d.flag F.SC_DR_CFG_enable a) := by
  obtain ⟨htm, hch, hlv, hdr⟩ := (d.measure.sealBanks.sealPool).sealSequencers_shows
  have hms : Keeps ⟨false, [F.IMS_BOOT_seal_ms], []⟩ (d.measure.sealBanks.sealPool).sealSequencers d.sealedParts := Dev.wr_keeps _ _ _ _ (by decide)
  have hcfg : ∀ {f : Fd} (k : Nat), Foot.avoids ⟨false, [F.DEV_MEASURE], []⟩ f = true → Foot.avoids ⟨false, [F.MB_BANK_CTRL, F.MB_BANK_STAT_owner], []⟩ f = true →
      Foot.avoids ⟨false, [F.BE_ENG_STAT_state, F.BE_ENG_STAT_spare, F.BE_ENG_STAT_loop, F.BE_ENG_STAT_loops, F.BE_ENG_LOOPS_LO, F.BE_ENG_LOOPS_HI,
        F.BE_LP_SWAP_pending, F.BE_LP_SWAP_status, F.BE_LP_STAT_state, F.BE_LP_STAT_engine, F.BE_POOL_STAT_fenced, F.BE_POOL_STAT_free,
        F.FLT_STAT_lost, F.FLT_LOST], [.be, .flt]⟩ f = true → (d.measure.sealBanks.sealPool).flag f k = d.flag f k := fun k h1 h2 h3 => by
    rw [(Dev.sealPool_keeps _).flag _ k h3, (Dev.sealBanks_keeps _).flag _ k h2, d.measure_keeps.flag _ k h1]
  refine ⟨fun k => ?_, ?_, ?_, fun a => ?_⟩
  · rw [Dev.tmState, hms.rd F.SC_TM_STAT_state k (by decide), ← Dev.tmState, htm, hcfg _ (by decide) (by decide) (by decide)]
  · rw [Dev.chState, hms.rd F.SC_CH_STAT_state 0 (by decide), ← Dev.chState, hch, hcfg _ (by decide) (by decide) (by decide)]
  · rw [Dev.lvState, hms.rd F.SC_LV_STAT_state 0 (by decide), ← Dev.lvState, hlv, hcfg _ (by decide) (by decide) (by decide)]
  · rw [Dev.drState, hms.rd F.SC_DR_STAT_state a (by decide), ← Dev.drState, hdr, hcfg _ (by decide) (by decide) (by decide)]

/-- A seal's outcome and the state SEALED leave what the seal's parts set. -/
theorem Dev.sealSucceeds_rd (d : Dev) (f : Fd) (i : Nat) (hstate : f.apart F.DEV_STATE_state = true)
    (hctrl : Foot.avoids ⟨false, [F.DEV_SEAL_CTRL_seal, F.DEV_SEAL_CTRL_outcome, F.DEV_SEAL_CTRL_detail_kind, F.DEV_SEAL_CTRL_detail_index], [.sys]⟩ f = true) :
    d.sealSucceeds.rd f i = d.sealedParts.rd f i := by
  rw [Dev.sealSucceeds_eq, Dev.rd_wr_apart _ f F.DEV_STATE_state _ _ _ (by decide) hstate, (Dev.sealOutcome_keeps ..).rd f i hctrl]

theorem Dev.sealSucceeds_shows (d : Dev) : let n := d.sealSucceeds
    n.devState = DevSt.sealed ∧ n.rd F.DEV_SEAL_CTRL_outcome 0 = Code.OK ∧ n.flag F.DEV_SEAL_CTRL_seal 0 = false ∧
      (∀ k : Fin 16, n.rd F.DEV_MEASURE k = numAt ((List.range 64).map (Config.shake256 d.sealedBytes)) (4 * k) 4) ∧
      (∀ k : Fin 2, n.tmState k = restState (d.flag F.SC_TM_CFG_enable k)) ∧ n.chState = restState (d.flag F.SC_CH_CFG_enable 0) ∧
      n.lvState = restState (d.flag F.SC_LV_CFG_enable 0) ∧ (∀ a : Fin 6, n.drState a = restState (d.flag F.SC_DR_CFG_enable a)) ∧
      n.flag F.BE_POOL_CHECK_valid 0 = d.flag F.BE_POOL_CHECK_valid 0 := by
  obtain ⟨hstate, hout, -, -, hseal, -, -⟩ := d.sealedParts.endSeal_shows (st := Code.OK) (kind := 0) (index := 0) (new := DevSt.sealed)
    (by decide) (by decide) (by decide) (by decide)
  obtain ⟨htm, hch, hlv, hdr⟩ := d.sealedParts_sequencers
  refine ⟨hstate, hout, hseal, fun k => ?_, fun k => ?_, ?_, ?_, fun a => ?_, ?_⟩
  · rw [d.sealSucceeds_rd F.DEV_MEASURE k (by decide) (by decide), d.sealedParts_keeps.rd F.DEV_MEASURE k (by decide), Dev.measure_shows]
  · exact (d.sealSucceeds_rd F.SC_TM_STAT_state k (by decide) (by decide)).trans (htm k)
  · exact (d.sealSucceeds_rd F.SC_CH_STAT_state 0 (by decide) (by decide)).trans hch
  · exact (d.sealSucceeds_rd F.SC_LV_STAT_state 0 (by decide) (by decide)).trans hlv
  · exact (d.sealSucceeds_rd F.SC_DR_STAT_state a (by decide) (by decide)).trans (hdr a)
  · rw [Dev.flag, d.sealSucceeds_rd F.BE_POOL_CHECK_valid 0 (by decide) (by decide), ← Dev.flag,
      d.sealedParts_keeps.flag F.BE_POOL_CHECK_valid 0 (by decide), d.measure_keeps.flag F.BE_POOL_CHECK_valid 0 (by decide)]

/-! ### The completion (R32) -/

theorem Dev.loops_lt {d : Dev} {l : Nat} (h : l ∈ d.loops) : l < 64 := List.mem_range.mp (List.mem_filter.mp h).1

/-- The loop plan names an enabled loop and a reason up to 10. -/
theorem Dev.planFails_bounds {d : Dev} {l r : Nat} (h : d.planFails = some (l, r)) : l < 64 ∧ r ≤ 10 := by
  obtain ⟨k, hk, hplan⟩ := List.exists_of_findSome?_eq_some h
  obtain ⟨q, hq, heq⟩ := Option.map_eq_some_iff.mp hplan
  obtain ⟨rfl, rfl⟩ := Prod.mk.inj heq
  refine ⟨Dev.loops_lt hk, ?_⟩
  unfold Dev.loopPlan at hq
  dsimp only at hq
  repeat' split at hq
  all_goals simp at hq <;> omega

theorem Dev.planFails_none {d : Dev} (h : d.planFails = none) {l : Nat} (hl : l ∈ d.loops) : d.loopPlan l = none :=
  Option.map_eq_none_iff.mp (List.findSome?_eq_none_iff.mp h l hl)

theorem Dev.firmwareRuns_put (d : Dev) (b : Bool) : (d.put F.BE_POOL_CHECK_valid 0 b).firmwareRuns = d.firmwareRuns := by
  have hput := d.put_keeps F.BE_POOL_CHECK_valid 0 b (by decide)
  rw [Dev.firmwareRuns, hput.flag F.SC_FW_ready 0 (by decide), Dev.scMode, hput.rd F.SC_STAT_mode 0 (by decide)]
  rfl

/-- A master's command: it does its effect where the master may store, and nothing where it may not. -/
theorem Does.of_master {s : State} {c : Instr} {m : Master} {t : Nat} {f : Dev → Dev} {P : Dev → Prop} (h : exec c s = fromMaster m t s f)
    (hP : P (if (s.now t).mayStore m then f (s.now t) else s.now t)) : Does s c P :=
  Does.of_effect h hP

/-- Settles O51: seal requests, refusals in their order, and what a seal leaves. -/
theorem sealsAndRefusals : Obligations.SealsAndRefusals := by
  unfold Obligations.SealsAndRefusals
  intro s t m d refused
  have hrefused : ∀ (e : Dev) {st kind index : Nat}, st < 256 → kind < 16 → index < 4096 → e.mb = d.mb → e.tm = d.tm →
      refused st kind index (e.sealRefused st kind index) := fun e st kind index hst hkind hindex hmb htm => by
    obtain ⟨hstate, ho, hk, hi, hs, hm, ht⟩ := e.endSeal_shows (new := DevSt.setup) hst hkind hindex (by decide)
    exact ⟨hstate, ho, hk, hi, hs, hm.trans hmb, ht.trans htm⟩
  refine ⟨fun hno => ?away, fun hmay hopen => ?begins, fun hmay hnot hboot => ?rejected, fun hsealing => ⟨?claimed, fun hclear => ⟨?plan, ?stale, ?sealed⟩⟩,
    fun hnot => ?outside⟩
  case away =>
    refine Does.of_master (show exec (.sealRequest t m) s = execSealRequest t m s from rfl) ?_
    rw [show s.now t = d from rfl, hno]
    rfl
  case begins =>
    refine Does.of_master (show exec (.sealRequest t m) s = execSealRequest t m s from rfl) ?_
    rw [show s.now t = d from rfl, if_pos hmay, Dev.busWrite_seal_open hopen]
    exact d.sealRequest_shows m
  case rejected =>
    refine Does.of_master (show exec (.sealRequest t m) s = execSealRequest t m s from rfl) ?_
    have hclosed : ¬ d.sealOpen m := by
      rintro (hsetup | ⟨hb, hm, hdue⟩)
      · exact hnot hsetup
      · rcases hboot with hb' | hm' | hdue'
        · exact hb' hb
        · exact hm' hm
        · rw [hdue] at hdue'
          exact absurd hdue' (by decide)
    rw [show s.now t = d from rfl, if_pos hmay, Dev.busWrite_seal_refused hclosed]
    exact d.reject_counts m _ _ _
  case claimed =>
    intro c rest hconf hkind hindex
    refine Does.of_effect (show exec (.sealComplete t) s = execSealComplete t s from rfl) ?_
    have hgo : d.sealComplete = d.sealRefused Code.CLAIMED c.kind c.index := by rw [Dev.sealComplete, if_neg (not_not.mpr hsealing), hconf]
    rw [show s.now t = d from rfl, hgo]
    exact hrefused d (by decide) hkind hindex rfl rfl
  case plan =>
    intro l r hplan
    refine Does.of_effect (show exec (.sealComplete t) s = execSealComplete t s from rfl) ?_
    obtain ⟨hl, hr⟩ := Dev.planFails_bounds hplan
    have hgo : d.sealComplete = (d.wr F.BE_POOL_CHECK 0 (l + 256 * r + 2 ^ 31)).sealRefused Code.FENCED 0xF l := by
      rw [Dev.sealComplete, if_neg (not_not.mpr hsealing), hclear]
      dsimp only
      rw [hplan]
    rw [show s.now t = d from rfl, hgo]
    refine ⟨hrefused _ (by decide) (by decide) (by omega) rfl rfl, ?_⟩
    rw [Dev.sealRefused, Dev.rd_wr_apart _ F.BE_POOL_CHECK F.DEV_STATE_state _ _ _ (by decide) (by decide),
      (Dev.sealOutcome_keeps ..).rd F.BE_POOL_CHECK 0 (by decide)]
    exact Dev.rd_wr_of_lt _ F.BE_POOL_CHECK _ (by decide) (by rw [show F.BE_POOL_CHECK.width = 32 from rfl]; omega)
  case stale =>
    intro hplan hfw
    refine Does.of_effect (show exec (.sealComplete t) s = execSealComplete t s from rfl) ?_
    have hfw' : (d.put F.BE_POOL_CHECK_valid 0 false).firmwareRuns = false := (d.firmwareRuns_put false).trans hfw
    have hgo : d.sealComplete = (d.put F.BE_POOL_CHECK_valid 0 false).sealRefused Code.STALE 0 0 := by
      rw [Dev.sealComplete, if_neg (not_not.mpr hsealing), hclear]
      dsimp only
      rw [hplan]
      dsimp only
      rw [hfw', if_neg (by decide)]
    rw [show s.now t = d from rfl, hgo]
    exact hrefused _ (by decide) (by decide) (by decide) rfl rfl
  case sealed =>
    intro hplan hfw
    refine Does.of_effect (show exec (.sealComplete t) s = execSealComplete t s from rfl) ?_
    set e := d.put F.BE_POOL_CHECK_valid 0 false with he
    have hput : Keeps ⟨false, [F.BE_POOL_CHECK_valid], []⟩ d e := d.put_keeps _ _ _ (by decide)
    have hfw' : e.firmwareRuns = true := (d.firmwareRuns_put false).trans hfw
    have hgo : d.sealComplete = e.sealSucceeds := by
      rw [Dev.sealComplete, if_neg (not_not.mpr hsealing), hclear]
      dsimp only
      rw [hplan]
      dsimp only
      rw [hfw', if_pos rfl]
    have hbytes : e.sealedBytes = d.sealedBytes := Dev.sealedBytes_setWord _ (show findReg 0x3F00C = some _ from rfl) (by decide)
    obtain ⟨hstate, hout, hseal, hdigest, htm, hch, hlv, hdr, hvalid⟩ := e.sealSucceeds_shows
    rw [hbytes] at hdigest
    rw [hput.flag F.SC_CH_CFG_enable 0 (by decide)] at hch
    rw [hput.flag F.SC_LV_CFG_enable 0 (by decide)] at hlv
    rw [show s.now t = d from rfl, hgo]
    refine ⟨hstate, hout, hseal, fun k => ⟨hdigest k, fun k => ?_, hch, hlv, fun a => ?_, fun l => ⟨Dev.planFails_none hplan, ?_⟩⟩⟩
    · rw [htm, hput.flag F.SC_TM_CFG_enable k (by decide)]
      rfl
    · rw [hdr, hput.flag F.SC_DR_CFG_enable a (by decide)]
      rfl
    · rw [hvalid]
      exact Dev.flag_put _ F.BE_POOL_CHECK_valid _ _ (by decide) rfl
  case outside =>
    refine Does.of_effect (show exec (.sealComplete t) s = execSealComplete t s from rfl) ?_
    rw [show s.now t = d from rfl, Dev.sealComplete, if_pos hnot]

end Sys2Proof.Machine
end

section
/-! Entering SAFE (R373, R374): the registers, the held stages, what the entry leaves of absence timers and fences. -/

namespace Sys2Proof.Machine

/-! ### Stopwork in SAFE -/

theorem Dev.source_of_safe {d : Dev} (k : Nat) (h : d.flag F.FLT_SAFE_safe 0 = true) : (d.source k false).isSome = true := by
  unfold Dev.source
  dsimp only
  split
  · rfl
  · split
    · rfl
    · split
      · rfl
      · split
        · rfl
        · rw [if_neg (by decide)]
          split
          · rfl
          · rfl

/-- With the device in SAFE stopwork holds every stage. -/
theorem Dev.stopwork_holds_of_safe {d : Dev} (h : d.flag F.FLT_SAFE_safe 0 = true) (k : Fin 21) : d.stopwork.flag F.WM_SW_STAT_held k = true := by
  refine d.stopwork_holds k ?_
  rw [Dev.source_of_safe k ((d.stopwork_keeps.flag F.FLT_SAFE_safe 0 (by decide)).trans h), Bool.or_true]

section
variable {P : Dev → Prop} (hP : AbsLasts P)

include hP

theorem AbsLasts.tripStage {d : Dev} (h : P d) (s : Nat) (low : Bool) (causeKind causeIndex : Nat) : P (d.tripStage s low causeKind causeIndex) := by
  have hmarks := hP.keeps (hP.keeps (hP.endRun h s) (Dev.tripMarks_keeps _ s low causeKind causeIndex)
    (by decide) (by decide)) (Dev.tripTime_keeps _ s) (by decide) (by decide)
  have hrecord : P (d.recordTrip s low causeKind causeIndex) :=
    hP.keeps (hP.keeps hmarks (Dev.tripMask_keeps _ s) (by decide) (by decide)) (Dev.tripWait_keeps _ s low) (by decide) (by decide)
  exact hP.keeps hrecord (Dev.tripStage_after ..) (by decide) (by decide)

theorem AbsLasts.arbitrate {d : Dev} (h : P d) (s : Nat) : P (d.arbitrate s) := by
  unfold Dev.arbitrate
  dsimp only
  split
  · split
    · exact hP.keeps h (d.toAllOff_keeps s) (by decide) (by decide)
    · exact h
  · split
    · exact h
    · exact hP.tripStage h ..

theorem AbsLasts.stopwork {d : Dev} (h : P d) : P d.stopwork := Dev.each_preserves (P := P) (fun _ s _ he => hP.arbitrate he s) d h

end

theorem Dev.fenced_stopwork (d : Dev) (kind index : Nat) : d.stopwork.fenced kind index = d.fenced kind index :=
  Dev.each_preserves (P := fun e => e.fenced kind index = d.fenced kind index) (fun e s _ h => (e.fenced_arbitrate s kind index).trans h) d rfl

/-! ### The entry -/

/-- The cause of the entry in FLT_SAFE. -/
def Dev.safeCause (d : Dev) (kind index code : Nat) : Dev :=
  ((d.wr F.FLT_SAFE_kind 0 kind).wr F.FLT_SAFE_index 0 index).wr F.FLT_SAFE_status 0 code

/-- The device state and the time of the entry. -/
def Dev.safeMarks (d : Dev) : Dev :=
  (((d.put F.FLT_SAFE_safe 0 true).put F.FLT_STAT_safe 0 true).wr F.DEV_STATE_state 0 DevSt.safe).wr64 F.FLT_SAFE_TIME_LO F.FLT_SAFE_TIME_HI 0
    ((d.put F.FLT_SAFE_safe 0 true).put F.FLT_STAT_safe 0 true).time

/-- The report of the unit that brings the device to SAFE. -/
def Dev.safeReport (d : Dev) (kind index code detail sub : Nat) : Report :=
  { kind := kind, index := index, cls := Cls.d, code := code, sub := sub, detail := detail, time := d.time }

theorem Dev.enterSafe_eq (d : Dev) (kind index code detail sub : Nat) : ∃ r, d.enterSafe kind index code detail sub =
    if (d.post (d.safeReport kind index code detail sub)).flag F.FLT_SAFE_safe 0 then d.post (d.safeReport kind index code detail sub)
    else ((((d.post (d.safeReport kind index code detail sub)).safeCause kind index code).safeMarks).post r).stopwork := ⟨_, rfl⟩

theorem Dev.safeMarks_rd (d : Dev) (f : Fd) (i : Nat) (hs : f.apart F.FLT_SAFE_safe = true) (ht : f.apart F.FLT_STAT_safe = true)
    (hd : f.apart F.DEV_STATE_state = true) (hl : f.apart F.FLT_SAFE_TIME_LO = true) (hh : f.apart F.FLT_SAFE_TIME_HI = true) :
    d.safeMarks.rd f i = d.rd f i := by
  rw [Dev.safeMarks, Dev.wr64, Dev.rd_wr_apart _ f F.FLT_SAFE_TIME_HI _ _ _ (by decide) hh, Dev.rd_wr_apart _ f F.FLT_SAFE_TIME_LO _ _ _ (by decide) hl,
    Dev.rd_wr_apart _ f F.DEV_STATE_state _ _ _ (by decide) hd, Dev.put, Dev.rd_wr_apart _ f F.FLT_STAT_safe _ _ _ (by decide) ht, Dev.put,
    Dev.rd_wr_apart _ f F.FLT_SAFE_safe _ _ _ (by decide) hs]

theorem Dev.safeMarks_shows (d : Dev) : d.safeMarks.flag F.FLT_SAFE_safe 0 = true ∧ d.safeMarks.devState = DevSt.safe ∧
    d.safeMarks.rd64 F.FLT_SAFE_TIME_LO F.FLT_SAFE_TIME_HI 0 = d.time % 2 ^ 64 := by
  have htime : ∀ (e : Dev) {f : Fd} (v : Nat), f.apart F.FLT_SAFE_TIME_HI = true → f.apart F.FLT_SAFE_TIME_LO = true →
      (e.wr64 F.FLT_SAFE_TIME_LO F.FLT_SAFE_TIME_HI 0 v).rd f 0 = e.rd f 0 := fun e f v h k => by
    rw [Dev.wr64, Dev.rd_wr_apart _ f F.FLT_SAFE_TIME_HI _ _ _ (by decide) h, Dev.rd_wr_apart _ f F.FLT_SAFE_TIME_LO _ _ _ (by decide) k]
  refine ⟨?_, ?_, Dev.rd64_wr64 _ F.FLT_SAFE_TIME_LO F.FLT_SAFE_TIME_HI 0 _ (by decide) (by decide) (by decide)⟩
  · rw [Dev.safeMarks, Dev.flag, htime _ _ (by decide) (by decide), Dev.rd_wr_apart _ F.FLT_SAFE_safe F.DEV_STATE_state _ _ _ (by decide) (by decide),
      ← Dev.flag, Dev.flag_put_apart _ F.FLT_SAFE_safe F.FLT_STAT_safe _ _ _ (by decide) (by decide)]
    exact Dev.flag_put _ F.FLT_SAFE_safe _ _ (by decide) rfl
  · rw [Dev.safeMarks, Dev.devState, htime _ _ (by decide) (by decide)]
    exact Dev.rd_wr_of_lt _ F.DEV_STATE_state _ (by decide) (by decide)

theorem Dev.safeCause_status (d : Dev) (kind index : Nat) {code : Nat} (h : code < 256) : (d.safeCause kind index code).rd F.FLT_SAFE_status 0 = code :=
  Dev.rd_wr_of_lt _ F.FLT_SAFE_status _ (by decide) h

section
variable (d : Dev) (kind index : Nat) {code : Nat} (detail sub : Nat)

/-- A device already in SAFE records the report alone. -/
theorem Dev.enterSafe_again (h : d.flag F.FLT_SAFE_safe 0 = true) :
    d.enterSafe kind index code detail sub = d.post (d.safeReport kind index code detail sub) := by
  obtain ⟨r, heq⟩ := d.enterSafe_eq kind index code detail sub
  rw [heq, (Dev.post_keeps ..).flag F.FLT_SAFE_safe 0 (by decide), if_pos h]

theorem Dev.enterSafe_first (h : d.flag F.FLT_SAFE_safe 0 = false) : ∃ r, d.enterSafe kind index code detail sub =
    ((((d.post (d.safeReport kind index code detail sub)).safeCause kind index code).safeMarks).post r).stopwork := by
  obtain ⟨r, heq⟩ := d.enterSafe_eq kind index code detail sub
  rw [(Dev.post_keeps ..).flag F.FLT_SAFE_safe 0 (by decide), h, if_neg (by decide)] at heq
  exact ⟨r, heq⟩

theorem Dev.enterSafe_shows (hcode : code < 256) (h : d.flag F.FLT_SAFE_safe 0 = false) : let n := d.enterSafe kind index code detail sub
    n.flag F.FLT_SAFE_safe 0 = true ∧ n.devState = DevSt.safe ∧ n.rd F.FLT_SAFE_status 0 = code ∧
      n.rd64 F.FLT_SAFE_TIME_LO F.FLT_SAFE_TIME_HI 0 = d.time % 2 ^ 64 ∧ ∀ k : Fin 21, n.flag F.WM_SW_STAT_held k = true := by
  obtain ⟨r, heq⟩ := d.enterSafe_first kind index (code := code) detail sub h
  have hpost := d.post_keeps (d.safeReport kind index code detail sub)
  dsimp only
  rw [heq]
  generalize d.post (d.safeReport kind index code detail sub) = a at hpost ⊢
  have hstatus := a.safeCause_status kind index hcode
  have htime : (a.safeCause kind index code).time = d.time := hpost.time
  generalize a.safeCause kind index code = b at hstatus htime ⊢
  obtain ⟨hsafe, hstate, hat⟩ := b.safeMarks_shows
  rw [← b.safeMarks_rd F.FLT_SAFE_status 0 (by decide) (by decide) (by decide) (by decide) (by decide)] at hstatus
  have hafter := b.safeMarks.post_keeps r
  have hstop := (b.safeMarks.post r).stopwork_keeps
  have hsafe' := (hafter.flag F.FLT_SAFE_safe 0 (by decide)).trans hsafe
  refine ⟨(hstop.flag F.FLT_SAFE_safe 0 (by decide)).trans hsafe',
    (hstop.rd F.DEV_STATE_state 0 (by decide)).trans ((hafter.rd F.DEV_STATE_state 0 (by decide)).trans hstate),
    (hstop.rd F.FLT_SAFE_status 0 (by decide)).trans ((hafter.rd F.FLT_SAFE_status 0 (by decide)).trans hstatus), ?_, Dev.stopwork_holds_of_safe hsafe'⟩
  rw [hstop.rd64 _ _ 0 (by decide) (by decide), hafter.rd64 _ _ 0 (by decide) (by decide), hat, htime]

/-- The entry always ends in SAFE. -/
theorem Dev.enterSafe_safe (hcode : code < 256) : (d.enterSafe kind index code detail sub).flag F.FLT_SAFE_safe 0 = true := by
  cases h : d.flag F.FLT_SAFE_safe 0 with
  | false =>
    obtain ⟨hsafe, -⟩ := d.enterSafe_shows kind index detail sub hcode h
    exact hsafe
  | true =>
    rw [d.enterSafe_again kind index detail sub h, (Dev.post_keeps ..).flag F.FLT_SAFE_safe 0 (by decide), h]

theorem AbsLasts.enterSafe {P : Dev → Prop} (hP : AbsLasts P) (h : P d) : P (d.enterSafe kind index code detail sub) := by
  have hpost : ∀ {e : Dev} r, P e → P (e.post r) := fun r he => hP.keeps he (Dev.post_keeps _ r) (by decide) (by decide)
  have hcause : ∀ {e : Dev}, P e → P (e.safeCause kind index code) := fun he => hP.congr (fun i =>
    (Dev.flag_wr_apart _ F.SC_ABS_LEFT_awaiting F.FLT_SAFE_status _ _ _ (by decide) (by decide)).trans
      ((Dev.flag_wr_apart _ F.SC_ABS_LEFT_awaiting F.FLT_SAFE_index _ _ _ (by decide) (by decide)).trans
        (Dev.flag_wr_apart _ F.SC_ABS_LEFT_awaiting F.FLT_SAFE_kind _ _ _ (by decide) (by decide)))) rfl he
  have hmarks : ∀ {e : Dev}, P e → P e.safeMarks := fun {e} he => hP.congr (e := e.safeMarks)
    (fun i => congrArg (· == 1) (e.safeMarks_rd F.SC_ABS_LEFT_awaiting i (by decide) (by decide) (by decide) (by decide) (by decide))) rfl he
  cases hsafe : d.flag F.FLT_SAFE_safe 0 with
  | true =>
    rw [d.enterSafe_again kind index detail sub hsafe]
    exact hpost _ h
  | false =>
    obtain ⟨r, heq⟩ := d.enterSafe_first kind index (code := code) detail sub hsafe
    rw [heq]
    exact hP.stopwork (hpost _ (hmarks (hcause (hpost _ h))))

end

end Sys2Proof.Machine
end

section
/-! The firmware's watchdog and the validation queue (R279 to R284); obligation O29. -/

namespace Sys2Proof.Machine

/-! ### The watchdog (R279, R280) -/

theorem Dev.wdogRestart_runs {d : Dev} (hready : d.flag F.SC_FW_ready 0 = true) (hen : d.flag F.SC_WDOG_CFG_enable 0 = true)
    (hmode : d.scMode ≠ ScMode.rollback) : d.wdogRestart.sc.wdogDue = some (d.time + 800000 * d.rd F.SC_WDOG_CFG_period 0) := by
  unfold Dev.wdogRestart
  dsimp only
  rw [hready, hen, if_neg (by decide), if_neg hmode]
  rfl

theorem Dev.wdogRestart_off {d : Dev} (hready : d.flag F.SC_FW_ready 0 = false) : d.wdogRestart.sc.wdogDue = none := by
  unfold Dev.wdogRestart
  dsimp only
  rw [hready, if_pos (by rfl)]
  rfl

/-- The firmware's registers show that it is ready. -/
def Dev.showReady (d : Dev) : Dev := (d.put F.SC_FW_ready 0 true).put F.SC_STAT_fw_ready 0 true

theorem Dev.showReady_keeps (d : Dev) : Keeps ⟨false, [F.SC_STAT_fw_ready, F.SC_FW_ready], []⟩ d d.showReady :=
  ((d.put_keeps F.SC_FW_ready 0 true (by decide)).within (by decide)).trans ((Dev.put_keeps _ F.SC_STAT_fw_ready 0 true (by decide)).within (by decide))

theorem Dev.showReady_shows (d : Dev) : d.showReady.flag F.SC_FW_ready 0 = true ∧ d.showReady.flag F.SC_STAT_fw_ready 0 = true := by
  refine ⟨?_, Dev.flag_put _ F.SC_STAT_fw_ready _ _ (by decide) rfl⟩
  rw [Dev.showReady, Dev.flag_put_apart _ F.SC_FW_ready F.SC_STAT_fw_ready _ _ _ (by decide) (by decide)]
  exact Dev.flag_put _ F.SC_FW_ready _ _ (by decide) rfl

theorem Dev.fwReady_shows {d : Dev} (h : d.flag F.SC_FW_ready 0 = false) : d.fwReady.flag F.SC_FW_ready 0 = true ∧
    d.fwReady.flag F.SC_STAT_fw_ready 0 = true ∧ (d.flag F.SC_WDOG_CFG_enable 0 = true → d.scMode ≠ ScMode.rollback →
      d.fwReady.sc.wdogDue = some (d.time + 800000 * d.rd F.SC_WDOG_CFG_period 0)) := by
  have hgo : d.fwReady = d.showReady.wdogRestart := by
    rw [Dev.fwReady, h, if_neg (by decide)]
    rfl
  have hk := d.showReady_keeps
  have hw := d.showReady.wdogRestart_keeps
  obtain ⟨hready, hstat⟩ := d.showReady_shows
  rw [hgo]
  refine ⟨(hw.flag F.SC_FW_ready 0 (by decide)).trans hready, (hw.flag F.SC_STAT_fw_ready 0 (by decide)).trans hstat, fun hen hmode => ?_⟩
  rw [Dev.wdogRestart_runs hready ((hk.flag F.SC_WDOG_CFG_enable 0 (by decide)).trans hen)
    (by rw [Dev.scMode, hk.rd F.SC_STAT_mode 0 (by decide)]; exact hmode), hk.time, hk.rd F.SC_WDOG_CFG_period 0 (by decide)]

theorem Dev.serviceWdog_shows (d : Dev) (v : Word) : let n := d.serviceWdog v
    n.rd F.SC_WDOG_value 0 = v.toNat % 65536 ∧
      (d.flag F.SC_FW_ready 0 = true → d.flag F.SC_WDOG_CFG_enable 0 = true → d.scMode ≠ ScMode.rollback →
        n.sc.wdogDue = some (d.time + 800000 * d.rd F.SC_WDOG_CFG_period 0)) ∧
      (d.flag F.SC_FW_ready 0 = false → n.sc.wdogDue = none) := by
  have hk := d.wr_keeps F.SC_WDOG_value 0 v.toNat (by decide)
  have hw := (d.wr F.SC_WDOG_value 0 v.toNat).wdogRestart_keeps
  have hvalue := d.rd_wr F.SC_WDOG_value 0 v.toNat (by decide)
  dsimp only [Dev.serviceWdog]
  generalize d.wr F.SC_WDOG_value 0 v.toNat = e at hk hw hvalue ⊢
  refine ⟨(hw.rd F.SC_WDOG_value 0 (by decide)).trans hvalue, fun hready hen hmode => ?_, fun hready => ?_⟩
  · rw [Dev.wdogRestart_runs ((hk.flag F.SC_FW_ready 0 (by decide)).trans hready) ((hk.flag F.SC_WDOG_CFG_enable 0 (by decide)).trans hen)
      (by rw [Dev.scMode, hk.rd F.SC_STAT_mode 0 (by decide)]; exact hmode), hk.time, hk.rd F.SC_WDOG_CFG_period 0 (by decide)]
  · exact Dev.wdogRestart_off ((hk.flag F.SC_FW_ready 0 (by decide)).trans hready)

/-- That no watchdog runs is no matter of the absence timers. -/
theorem absLasts_noWdog : AbsLasts fun d => d.sc.wdogDue = none where
  congr _ hs h := by rw [hs]; exact h
  absStop _ h := h

/-- What an expiry of the watchdog notes before the device enters SAFE. -/
def Dev.noteWdog (d : Dev) : Dev := ((d.onSc fun c => { c with wdogDue := none }).scNote 7).wr F.SC_LAST_outcome 0 4

theorem Dev.noteWdog_keeps (d : Dev) : Keeps ⟨false, [F.SC_LAST, F.SC_LAST_outcome, F.SC_LAST_TIME_LO, F.SC_LAST_TIME_HI], []⟩
    (d.onSc fun c => { c with wdogDue := none }) d.noteWdog :=
  ((Dev.scNote_keeps ..).within (by decide)).trans ((Dev.wr_keeps _ F.SC_LAST_outcome 0 4 (by decide)).within (by decide))

theorem Dev.noteWdog_none (d : Dev) : d.noteWdog.sc.wdogDue = none := by
  rw [d.noteWdog_keeps.parts .sc (by decide)]
  rfl

/-! ### The validation queue (R281, R282) -/

/-- A descriptor enters the queue. -/
theorem Dev.showVq_item (d : Dev) (q i : Nat) : (d.showVq.qp q).item i = (d.qp q).item i := by
  rw [Dev.qp_congr (d.showVq_keeps.parts .hi (by decide))]

theorem Dev.vqPop_hi (d : Dev) : d.vqPop.hi = d.hi := d.vqPop_keeps.parts .hi (by decide)

theorem Dev.vqPop_vq (d : Dev) : d.vqPop.sc.vq = d.sc.vq.dropWhile VqEntry.done := by
  rw [Dev.vqPop, (Dev.showVq_keeps _).parts .sc (by decide)]
  rfl

theorem Dev.vq_absRestart (d : Dev) (ss : List Nat) : (d.absRestart ss).sc.vq = d.sc.vq := by
  have hstart : ∀ (e : Dev) k, (e.absStart k).sc.vq = e.sc.vq := fun e k => by
    unfold Dev.absStart
    dsimp only
    split <;> rfl
  exact Dev.each_preserves (P := fun e => e.sc.vq = d.sc.vq) (fun e k _ h => (hstart e k).trans h) d rfl

/-- A restart leaves the timers of the other stages. -/
theorem Dev.absDue_absStart_of_ne (d : Dev) {s k : Nat} (h : k ≠ s) : (d.absStart s).absDue k = d.absDue k := by
  unfold Dev.absStart
  dsimp only
  split
  · exact (Dev.absDue_setAbsDue ..).trans (if_neg h)
  · exact (Dev.absDue_setAbsDue ..).trans (if_neg h)

/-- The timers of the enabled stages that run start anew. -/
theorem Dev.absRestart_shows {d : Dev} {ss : List Nat} {k : Nat} (hk : k ∈ ss) (hrun : d.flag F.TB_STG_RUN_run k = true)
    (hen : d.flag F.SC_ABS_CFG_enable k = true) : (d.absRestart ss).absDue k = some (d.time + 80000 * d.rd F.SC_ABS_CFG_timeout k) := by
  have hkeep : ∀ (e : Dev) s, Keeps ⟨false, [F.SC_ABS_LEFT_expired, F.SC_ABS_LEFT_awaiting], [.sc]⟩ e (e.absStart s) := fun e s => e.absStart_keeps s
  have hstart : ∀ e : Dev, Keeps ⟨false, [F.SC_ABS_LEFT_expired, F.SC_ABS_LEFT_awaiting], [.sc]⟩ d e →
      (e.absStart k).absDue k = some (d.time + 80000 * d.rd F.SC_ABS_CFG_timeout k) := fun e he => by
    obtain ⟨hdue, -⟩ := e.absStart_shows k ((he.flag F.SC_ABS_CFG_enable k (by decide)).trans hen)
    rw [hdue, he.time, he.rd F.SC_ABS_CFG_timeout k (by decide)]
  have hboth := Dev.each_reaches_of (I := fun e => Keeps ⟨false, [F.SC_ABS_LEFT_expired, F.SC_ABS_LEFT_awaiting], [.sc]⟩ d e)
    (P := fun e => Keeps ⟨false, [F.SC_ABS_LEFT_expired, F.SC_ABS_LEFT_awaiting], [.sc]⟩ d e ∧
      e.absDue k = some (d.time + 80000 * d.rd F.SC_ABS_CFG_timeout k))
    (f := Dev.absStart) (List.mem_filter.mpr ⟨hk, hrun⟩) (fun e s _ he => he.trans (hkeep e s)) (fun e he => ⟨he.trans (hkeep e k), hstart e he⟩)
    (fun e s _ he => ⟨he.1.trans (hkeep e s), ?_⟩) d (.refl _ _)
  · exact hboth.2
  · rcases eq_or_ne k s with rfl | hne
    · exact hstart e he.1
    · exact (e.absDue_absStart_of_ne hne).trans he.2

theorem Dev.endedWith_congr {d e : Dev} {q i st : Nat} (h : e.hi = d.hi) (hd : d.endedWith q i st) : e.endedWith q i st := by
  rwa [Dev.endedWith, Dev.qp_congr h q]

/-- The owner's stages rest on the sets of the traction machines. -/
theorem Keeps.ownerStages {w : Foot} {d e : Dev} (hk : Keeps w d e) (h : w.avoids F.SC_TM_CFG_sets = true) (x : Descr) :
    e.ownerStages x = d.ownerStages x := by
  have hstages : ∀ m, e.tmStages m = d.tmStages m := fun m => by rw [Dev.tmStages, Dev.tmSets, hk.rd F.SC_TM_CFG_sets m h, Dev.tmStages, Dev.tmSets]
  rw [Dev.ownerStages, hstages, Dev.ownerStages]

/-- The front of the queue taken by a verdict. -/
def Dev.takeFront (d : Dev) (v reason seq : Nat) : Dev := (d.wr F.SC_VQ_VERDICT 0 (v + 16 * (reason % 4096) + 65536 * seq)).onSc fun c => { c with vq := c.vq.drop 1 }

theorem Dev.takeFront_keeps (d : Dev) (v reason seq : Nat) : Keeps ⟨false, [F.SC_VQ_VERDICT], [.sc]⟩ d (d.takeFront v reason seq) :=
  ((d.wr_keeps F.SC_VQ_VERDICT 0 _ (by decide)).within (by decide)).trans ((Dev.onSc_keeps ..).within (by decide))

/-- An accepted descriptor handed on. -/
def Dev.handOn (d : Dev) (h : VqEntry) : Dev := (d.onItem h.qp h.index fun it => { it with phase := .handed }).bump F.SC_VAL_CNT_accepted 0

/-- The absence timers of an accepted descriptor's stages. -/
def Dev.restartFor (d : Dev) (x : Option Descr) : Dev :=
  match x with
  | some x => d.absRestart (d.ownerStages x)
  | none => d

section
variable {d : Dev} {h : VqEntry} {r : List VqEntry} {it : Item} {seq : BitVec 16}

theorem Dev.verdict_accepts (hvq : d.sc.vq = h :: r) (hseq : h.seq = seq.toNat) (hit : (d.qp h.qp).item h.index = some it) :
    d.verdict 1 0 seq.toNat = (((d.takeFront 1 0 h.seq).handOn h).restartFor it.desc).vqPop := by
  have hgo : ¬(seq.toNat % 65536 ≠ h.seq ∨ (1 ≠ 1 ∧ 1 ≠ 2)) := by
    have := seq.isLt
    omega
  have hx : ((((d.wr F.SC_VQ_VERDICT 0 (1 + 16 * (0 % 4096) + 65536 * h.seq)).qp h.qp).item h.index).bind Item.desc) = it.desc := by
    rw [show (d.wr F.SC_VQ_VERDICT 0 (1 + 16 * (0 % 4096) + 65536 * h.seq)).qp h.qp = d.qp h.qp from rfl, hit]
    rfl
  unfold Dev.verdict
  rw [hvq]
  dsimp only
  rw [if_neg hgo, hx, if_pos rfl]
  rfl

theorem Dev.verdict_refuses (reason : Nat) (hvq : d.sc.vq = h :: r) (hseq : h.seq = seq.toNat) : d.verdict 2 reason seq.toNat =
    (((d.takeFront 2 reason h.seq).bump F.SC_VAL_CNT_refused 0).finish h.qp h.index Code.REFUSED false (reason % 4096)).vqPop := by
  have hgo : ¬(seq.toNat % 65536 ≠ h.seq ∨ (2 ≠ 1 ∧ 2 ≠ 2)) := by
    have := seq.isLt
    omega
  unfold Dev.verdict
  rw [hvq]
  dsimp only
  rw [if_neg hgo, if_neg (by decide)]
  rfl

theorem Dev.restartFor_keeps (d : Dev) (x : Option Descr) : Keeps ⟨false, [F.SC_ABS_LEFT_expired, F.SC_ABS_LEFT_awaiting], [.sc]⟩ d (d.restartFor x) := by
  cases x with
  | none => exact .refl _ _
  | some x => exact d.absRestart_keeps _

theorem Dev.vq_restartFor (d : Dev) (x : Option Descr) : (d.restartFor x).sc.vq = d.sc.vq := by
  cases x with
  | none => rfl
  | some x => exact d.vq_absRestart _

theorem Dev.handOn_keeps (d : Dev) (h : VqEntry) : Keeps ⟨false, [F.SC_VAL_CNT_accepted], [.hi]⟩ d (d.handOn h) :=
  ((Dev.onItem_keeps ..).within (by decide)).trans ((Dev.bump_keeps _ F.SC_VAL_CNT_accepted 0 (by decide)).within (by decide))

theorem Dev.handOn_shows (hit : (d.qp h.qp).item h.index = some it) :
    ((d.handOn h).qp h.qp).item h.index = some { it with phase := .handed } ∧
      (d.handOn h).rd F.SC_VAL_CNT_accepted 0 = min (d.rd F.SC_VAL_CNT_accepted 0 + 1) (2 ^ F.SC_VAL_CNT_accepted.width - 1) := by
  have hb := (d.onItem h.qp h.index fun it => { it with phase := .handed }).bump_keeps F.SC_VAL_CNT_accepted 0 (by decide)
  refine ⟨?_, ?_⟩
  · rw [Dev.handOn, Dev.qp_congr (hb.parts .hi (by decide))]
    exact Dev.item_onItem hit rfl
  · rw [Dev.handOn, Dev.rd_bump _ F.SC_VAL_CNT_accepted _ (by decide), (Dev.onItem_keeps ..).rd F.SC_VAL_CNT_accepted 0 (by decide)]

theorem Dev.verdict_accept_shows (hvq : d.sc.vq = h :: r) (hseq : h.seq = seq.toNat) (hit : (d.qp h.qp).item h.index = some it) :
    let n := d.verdict 1 0 seq.toNat
    n.sc.vq = r.dropWhile VqEntry.done ∧ (∃ it2, (n.qp h.qp).item h.index = some it2 ∧ it2.phase = .handed ∧ it2.desc = it.desc) ∧
      n.rd F.SC_VAL_CNT_accepted 0 = min (d.rd F.SC_VAL_CNT_accepted 0 + 1) (2 ^ F.SC_VAL_CNT_accepted.width - 1) ∧
      ∀ x, it.desc = some x → ∀ k ∈ d.ownerStages x, d.flag F.TB_STG_RUN_run k = true → d.flag F.SC_ABS_CFG_enable k = true →
        n.absDue k = some (d.time + 80000 * d.rd F.SC_ABS_CFG_timeout k) := by
  dsimp only
  rw [Dev.verdict_accepts hvq hseq hit]
  have hk := d.takeFront_keeps 1 0 h.seq
  have hfront : (d.takeFront 1 0 h.seq).sc.vq = r := by
    change (d.sc.vq.drop 1) = r
    rw [hvq]
    rfl
  have hit' : ((d.takeFront 1 0 h.seq).qp h.qp).item h.index = some it := hit
  generalize d.takeFront 1 0 h.seq = b at hk hfront hit' ⊢
  have hhand := b.handOn_keeps h
  obtain ⟨hitem, hcount⟩ := Dev.handOn_shows (d := b) hit'
  have hvq' : (b.handOn h).sc.vq = r := by rw [hhand.parts .sc (by decide), hfront]
  rw [hk.rd F.SC_VAL_CNT_accepted 0 (by decide)] at hcount
  have hall := (hk.within (b := ⟨false, [F.SC_VQ_VERDICT, F.SC_VAL_CNT_accepted], [.sc, .hi]⟩) (by decide)).trans (hhand.within (by decide))
  generalize b.handOn h = e at hitem hcount hvq' hall ⊢
  have hrestart := e.restartFor_keeps it.desc
  have hpop := (e.restartFor it.desc).vqPop_keeps
  refine ⟨?_, ⟨{ it with phase := .handed }, ?_, rfl, rfl⟩, ?_, fun x hx k hkx hrun hen => ?_⟩
  · rw [Dev.vqPop_vq, Dev.vq_restartFor, hvq']
  · rw [Dev.qp_congr (hpop.parts .hi (by decide)), Dev.qp_congr (hrestart.parts .hi (by decide)), hitem]
  · rw [hpop.rd F.SC_VAL_CNT_accepted 0 (by decide), hrestart.rd F.SC_VAL_CNT_accepted 0 (by decide), hcount]
  · have hdue := Dev.absRestart_shows (d := e) (ss := e.ownerStages x) (by rw [hall.ownerStages (by decide)]; exact hkx)
      ((hall.flag F.TB_STG_RUN_run k (by decide)).trans hrun) ((hall.flag F.SC_ABS_CFG_enable k (by decide)).trans hen)
    have hpopped : ∀ f : Dev, f.vqPop.absDue k = f.absDue k := fun f => by
      rw [Dev.absDue, Dev.vqPop, (Dev.showVq_keeps _).parts .sc (by decide)]
      rfl
    rw [hpopped, hx, Dev.restartFor, hdue, hall.time, hall.rd F.SC_ABS_CFG_timeout k (by decide)]

theorem Dev.verdict_refuse_shows (reason : Nat) (hvq : d.sc.vq = h :: r) (hseq : h.seq = seq.toNat) (hlive : d.underWay h.qp h.index) :
    (d.verdict 2 reason seq.toNat).sc.vq = r.dropWhile VqEntry.done ∧ (d.verdict 2 reason seq.toNat).endedWith h.qp h.index Code.REFUSED := by
  rw [Dev.verdict_refuses reason hvq hseq]
  have hfront : ((d.takeFront 2 reason h.seq).bump F.SC_VAL_CNT_refused 0).sc.vq = r := by
    change (d.sc.vq.drop 1) = r
    rw [hvq]
    rfl
  have hlive' : ((d.takeFront 2 reason h.seq).bump F.SC_VAL_CNT_refused 0).underWay h.qp h.index := Dev.underWay_congr rfl hlive
  generalize (d.takeFront 2 reason h.seq).bump F.SC_VAL_CNT_refused 0 = e at hfront hlive' ⊢
  refine ⟨?_, Dev.endedWith_congr (Dev.vqPop_hi _) (Dev.finish_ends hlive' _ _ _)⟩
  rw [Dev.vqPop_vq, (Dev.finish_keeps ..).parts .sc (by decide), hfront]

end

/-- A descriptor that waits too long (R282). -/
theorem Dev.vqExpire_shows {d : Dev} {e : VqEntry} (byTime : Bool) (hlive : d.underWay e.qp e.index) :
    (d.vqExpire e byTime).endedWith e.qp e.index Code.DEADLINE ∧
      (d.vqExpire e byTime).rd F.SC_VAL_CNT_expired 0 = min (d.rd F.SC_VAL_CNT_expired 0 + 1) (2 ^ F.SC_VAL_CNT_expired.width - 1) := by
  set b := d.onSc fun c => { c with vq := c.vq.map fun f => if f.seq = e.seq then { f with done := true } else f } with hb
  set c := if byTime then b.reportOpen Kind.queue e.qp Cls.report Code.DEADLINE else b with hc
  have hkb : Keeps ⟨false, [], [.sc]⟩ d b := Dev.onSc_keeps ..
  have hkc : Keeps ⟨false, [F.FLT_STAT_lost, F.FLT_LOST], [.flt]⟩ b c := .ite (fun _ => (Dev.reportOpen_keeps ..).within (by decide)) fun _ => .refl _ _
  have hgo : d.vqExpire e byTime = ((c.bump F.SC_VAL_CNT_expired 0).finish e.qp e.index Code.DEADLINE).vqPop := rfl
  have hcount : (c.bump F.SC_VAL_CNT_expired 0).rd F.SC_VAL_CNT_expired 0 =
      min (d.rd F.SC_VAL_CNT_expired 0 + 1) (2 ^ F.SC_VAL_CNT_expired.width - 1) := by
    rw [Dev.rd_bump _ F.SC_VAL_CNT_expired _ (by decide), hkc.rd F.SC_VAL_CNT_expired 0 (by decide), hkb.rd F.SC_VAL_CNT_expired 0 (by decide)]
  have hhi : (c.bump F.SC_VAL_CNT_expired 0).hi = d.hi :=
    ((c.bump_keeps F.SC_VAL_CNT_expired 0 (by decide)).parts .hi (by decide)).trans ((hkc.parts .hi (by decide)).trans (hkb.parts .hi (by decide)))
  rw [hgo]
  generalize c.bump F.SC_VAL_CNT_expired 0 = g at hcount hhi ⊢
  refine ⟨Dev.endedWith_congr (Dev.vqPop_hi _) (Dev.finish_ends (Dev.underWay_congr (Dev.qp_congr hhi _) hlive) _ _ _), ?_⟩
  rw [(Dev.vqPop_keeps _).rd F.SC_VAL_CNT_expired 0 (by decide), (Dev.finish_keeps ..).rd F.SC_VAL_CNT_expired 0 (by decide), hcount]

/-- A command whose effect is known to end in a device. -/
theorem Does.of_effect_eq {s : State} {c : Instr} {t : Nat} {f : Dev → Dev} {P : Dev → Prop} {n : Dev} (hc : exec c s = effect t s f)
    (hn : f (s.now t) = n) (hP : P n) : Does s c P :=
  Does.of_effect hc (hn ▸ hP)

/-- A descriptor at the queue's end. -/
def Dev.enqueue (d : Dev) (q i : Nat) : Dev :=
  (d.onSc fun c => { c with vq := c.vq ++ [{ qp := q, index := i, seq := c.nextSeq, arrived := d.time }], nextSeq := (c.nextSeq + 1) % 65536 }).showVq

theorem Dev.enqueue_shows (d : Dev) (q i : Nat) : (d.enqueue q i).sc.vq = d.sc.vq ++ [{ qp := q, index := i, seq := d.sc.nextSeq, arrived := d.time }] ∧
    (d.enqueue q i).sc.nextSeq = (d.sc.nextSeq + 1) % 65536 ∧ (d.enqueue q i).hi = d.hi := by
  refine ⟨?_, ?_, (Dev.showVq_keeps _).parts .hi (by decide)⟩
  · rw [Dev.enqueue, (Dev.showVq_keeps _).parts .sc (by decide)]
    rfl
  · rw [Dev.enqueue, (Dev.showVq_keeps _).parts .sc (by decide)]
    rfl

/-- A descriptor arrives. -/
theorem Dev.vqArrive_shows {d : Dev} {q i : Nat} {x : Descr} {it : Item} (hit : (d.qp q).item i = some it) (hx : it.desc = some x) :
    let n := ((d.onItem q i fun it => { it with phase := .queued }).showQp q).enqueue q i
    n.sc.vq = d.sc.vq ++ [{ qp := q, index := i, seq := d.sc.nextSeq, arrived := d.time }] ∧ n.sc.nextSeq = (d.sc.nextSeq + 1) % 65536 ∧
      ∃ it, (n.qp q).item i = some it ∧ it.phase = .queued ∧ it.desc = some x := by
  set e := (d.onItem q i fun it => { it with phase := .queued }).showQp q with he
  have hitem : (e.qp q).item i = some { it with phase := .queued } := by
    rw [he, Dev.qp_congr (Dev.hi_showQp _ q)]
    exact Dev.item_onItem hit rfl
  have hsc : e.sc = d.sc := by
    rw [he, (Dev.showQp_keeps _ q).parts .sc (by decide), (Dev.onItem_keeps ..).parts .sc (by decide)]
  have htime : e.time = d.time := by rw [he, (Dev.showQp_keeps _ q).time, (Dev.onItem_keeps ..).time]
  obtain ⟨hvq, hnext, hhi⟩ := e.enqueue_shows q i
  rw [hsc, htime] at hvq
  rw [hsc] at hnext
  exact ⟨hvq, hnext, { it with phase := .queued }, by rw [Dev.qp_congr hhi, hitem], rfl, hx⟩

/-- Settles O29: the watchdog and the validation queue. -/
theorem watchdogAndValidation : Obligations.WatchdogAndValidation := by
  unfold Obligations.WatchdogAndValidation
  intro s t d period
  refine ⟨?ready, ?service, ?wdog, ?arrival, ?accept, ?refuse, ?expiry⟩
  case ready =>
    intro hfw hnot
    exact Does.of_firmware (show exec (.fwReady t) s = execFwReady t s from rfl) hfw (Dev.fwReady_shows hnot)
  case service =>
    intro v hfw
    exact Does.of_firmware (show exec (.wdogService t v) s = execWdogService t v s from rfl) hfw (d.serviceWdog_shows v)
  case wdog =>
    intro due hdue hpast
    refine Does.of_effect_eq (n := d.noteWdog.enterSafe Kind.safety 0 Code.WATCHDOG (Config.reportDetail Kind.safety Code.WATCHDOG).toNat 0)
      (show exec (.wdogExpiry t) s = execWdogExpiry t s from rfl) ?_ ?_
    · rw [show s.now t = d from rfl, hdue]
      exact if_pos hpast
    have hsafe : d.noteWdog.flag F.FLT_SAFE_safe 0 = d.flag F.FLT_SAFE_safe 0 :=
      (d.noteWdog_keeps.flag F.FLT_SAFE_safe 0 (by decide)).trans ((Dev.onSc_keeps ..).flag F.FLT_SAFE_safe 0 (by decide))
    refine ⟨absLasts_noWdog.enterSafe _ _ _ _ _ d.noteWdog_none, Dev.enterSafe_safe _ _ _ _ _ (by decide), fun hfree => ?_⟩
    obtain ⟨-, hstate, hstatus, -, hheld⟩ := d.noteWdog.enterSafe_shows Kind.safety 0 (code := Code.WATCHDOG)
      (Config.reportDetail Kind.safety Code.WATCHDOG).toNat 0 (by decide) (hsafe.trans hfree)
    exact ⟨hstatus, hstate, hheld⟩
  case arrival =>
    intro q i x hst hval hlen
    obtain ⟨it, hit, hx, hphase, hturn, -⟩ := hst
    have hmay : (d.qp q).mayStart i (isSerial x) = true := hturn.resolve_left (by decide)
    refine Does.of_effect_eq (show exec (.vqArrival t q i) s = execVqArrival t q i s from rfl) ?_ (Dev.vqArrive_shows hit hx)
    rw [show s.now t = d from rfl, hit]
    dsimp only
    rw [hx]
    dsimp only
    rw [if_pos ⟨hphase, hval, hmay, hlen⟩]
    rfl
  case accept =>
    intro h r it seq hfw hvq hseq hit
    exact Does.of_firmware (show exec (.accept t seq) s = execAccept t seq s from rfl) hfw (Dev.verdict_accept_shows (d := d) hvq hseq hit)
  case refuse =>
    intro h r it seq reason hfw hvq hseq hit hlive hring
    exact Does.of_firmware (show exec (.refuse t seq reason) s = execRefuse t seq reason s from rfl) hfw
      (Dev.verdict_refuse_shows (d := d) reason.toNat hvq hseq ⟨it, hit, hlive, hring⟩)
  case expiry =>
    intro e it seq hfind hit hlive hring hlate
    refine Does.of_effect (show exec (.validationExpiry t seq) s = execValidationExpiry t seq s from rfl) ?_
    rw [show s.now t = d from rfl, hfind]
    dsimp only
    rw [if_pos (by rw [Bool.or_eq_true, Nat.ble_eq]; exact hlate)]
    exact Dev.vqExpire_shows _ ⟨it, hit, hlive, hring⟩

end Sys2Proof.Machine
end

section
/-! FLT_ACT and lost islands (R371 to R373, R381): fences stay and the intake grows through everything that a fence does, so the
first report of a fence stays in its place. -/

namespace Sys2Proof.Machine

/-! ### What no step of a fence takes back -/

/-- From d to e fenced units stay fenced and the intake only grows. -/
def Dev.FaultsGrow (d e : Dev) : Prop :=
  (∀ kind index, d.fenced kind index = true → e.fenced kind index = true) ∧ d.flt.intake <+: e.flt.intake

theorem Dev.FaultsGrow.refl (d : Dev) : d.FaultsGrow d := ⟨fun _ _ h => h, List.prefix_rfl⟩

theorem Dev.FaultsGrow.trans {d e g : Dev} (h : d.FaultsGrow e) (k : e.FaultsGrow g) : d.FaultsGrow g :=
  ⟨fun kind index hf => k.1 kind index (h.1 kind index hf), h.2.trans k.2⟩

theorem Dev.FaultsGrow.of_flt {d e : Dev} (h : e.flt = d.flt) : d.FaultsGrow e :=
  ⟨fun kind index hf => (Dev.fenced_congr h kind index).trans hf, h ▸ List.prefix_rfl⟩

variable {d e g : Dev}

theorem Dev.FaultsGrow.keeps {w : Foot} (h : d.FaultsGrow e) (hk : Keeps w e g) (hp : Part.flt ∉ w.parts) : d.FaultsGrow g :=
  h.trans (.of_flt (hk.parts .flt hp))

theorem Dev.FaultsGrow.ite {c : Prop} [Decidable c] (h : c → d.FaultsGrow e) (k : ¬c → d.FaultsGrow g) : d.FaultsGrow (if c then e else g) := by
  split
  case isTrue hc => exact h hc
  case isFalse hc => exact k hc

theorem Dev.FaultsGrow.each {l : List Nat} {f : Dev → Nat → Dev} (h : d.FaultsGrow e)
    (hf : ∀ {e} (k : Nat), d.FaultsGrow e → d.FaultsGrow (f e k)) : d.FaultsGrow (e.each l f) :=
  Dev.each_preserves (P := d.FaultsGrow) (fun _ k _ he => hf k he) e h

theorem Dev.FaultsGrow.foldl {α : Type} {l : List α} {f : Dev → α → Dev} (h : d.FaultsGrow e)
    (hf : ∀ {e} (x : α), d.FaultsGrow e → d.FaultsGrow (f e x)) : d.FaultsGrow (l.foldl f e) := by
  induction l generalizing e with
  | nil => exact h
  | cons a l ih => exact ih (hf a h)

theorem Dev.FaultsGrow.post (h : d.FaultsGrow e) (r : Report) : d.FaultsGrow (e.post r) := by
  refine h.trans ⟨fun kind index hf => (e.fenced_post r kind index).trans hf, ?_⟩
  unfold Dev.post
  split
  · exact List.prefix_append ..
  · exact List.prefix_rfl

theorem Dev.FaultsGrow.report (h : d.FaultsGrow e) (kind index cls code detail sub : Nat) :
    d.FaultsGrow (e.report kind index cls code detail sub) := .ite (fun _ => h) fun _ => h.post _

theorem Dev.FaultsGrow.markFenced (h : d.FaultsGrow e) (kind index : Nat) : d.FaultsGrow (e.markFenced kind index true) := by
  refine h.trans ⟨fun k i hf => ?_, List.prefix_rfl⟩
  rw [Dev.fenced, Dev.markFenced]
  refine (Tbl.get_set (fun _ => false) e.flt.fenced (256 * kind + index) (256 * k + i) true).trans ?_
  split
  · rfl
  · exact hf

theorem Dev.FaultsGrow.postFenced (h : d.FaultsGrow e) (kind index cls cause sub : Nat) : d.FaultsGrow (e.postFenced kind index cls cause sub) :=
  h.post _

theorem Dev.FaultsGrow.fenceC (h : d.FaultsGrow e) (kind index cause sub : Nat) : d.FaultsGrow (e.fenceC kind index cause sub) :=
  (h.markFenced kind index).postFenced ..

/-! ### Descriptors -/

theorem Dev.FaultsGrow.ledgerItem (h : d.FaultsGrow e) (q : Nat) (it : Item) : d.FaultsGrow (e.ledgerItem q it) := by
  unfold Dev.ledgerItem
  split
  · exact h.post _
  · exact h

theorem Dev.FaultsGrow.drainItems (h : d.FaultsGrow e) (q : Nat) : d.FaultsGrow (e.drainItems q) := by
  refine .ite (fun _ => ?_) fun _ => h.keeps (e.showQp_keeps q) (by decide)
  have hgone := h.foldl (l := (e.qp q).items.takeWhile Item.hasEnded) fun it he => he.ledgerItem q it
  exact (hgone.keeps (Dev.setQp_keeps ..) (by decide)).keeps (Dev.showQp_keeps ..) (by decide)

theorem Dev.FaultsGrow.finish (h : d.FaultsGrow e) (q i st : Nat) (partly : Bool) (detail : Nat) : d.FaultsGrow (e.finish q i st partly detail) := by
  unfold Dev.finish
  split
  · exact h
  · refine .ite (fun _ => h) fun _ => Dev.FaultsGrow.drainItems ?_ q
    have hitem := h.keeps (e.onItem_keeps q i fun it => { it with phase := .ended st partly (BitVec.ofNat 32 detail) }) (by decide)
    split
    · exact .ite (fun _ => hitem.keeps (Dev.dropFrame_keeps ..) (by decide)) fun _ => hitem.keeps (Dev.noteLast_keeps ..) (by decide)
    · exact hitem

theorem Dev.FaultsGrow.endPending (h : d.FaultsGrow e) (q : Nat) : d.FaultsGrow (e.endPending q) := by
  have henable := h.keeps (e.put_keeps F.HI_QP_CTRL_enable q false (by decide)) (by decide)
  have hitems := henable.foldl (l := ((e.put F.HI_QP_CTRL_enable q false).qp q).items)
    (f := fun d it => if it.begun then (if it.isBuffer then d.finishMoved q it Code.FENCED else d) else d.finish q it.index Code.FENCED)
    fun it he => .ite (fun _ => .ite (fun _ => he.finish ..) fun _ => he) fun _ => he.finish ..
  have hunread : d.FaultsGrow (if ((e.put F.HI_QP_CTRL_enable q false).qp q).silent then _ else _) :=
    .ite (fun _ => hitems.keeps (Dev.endUnread_keeps _ q) (by decide)) fun _ => hitems
  exact (hunread.keeps (Dev.put_keeps _ F.HI_QP_CTRL_draining q true (by decide)) (by decide)).drainItems q

theorem Dev.FaultsGrow.fencePending (h : d.FaultsGrow e) (q : Nat) : d.FaultsGrow (e.fencePending q) :=
  h.foldl fun _ he => .ite (fun _ => he.finish ..) fun _ => he

theorem Dev.FaultsGrow.endSlots (h : d.FaultsGrow e) (c st : Nat) : d.FaultsGrow (e.endSlots c st) := h.foldl fun _ he => he.finish ..

/-- What a fence ends of the descriptors of every queue pair, chosen by phase and descriptor. -/
theorem Dev.FaultsGrow.endsWhere {p : Dev → Item → Descr → Prop} [∀ d it x, Decidable (p d it x)] (h : d.FaultsGrow e) (st : Nat) :
    d.FaultsGrow (e.each queuePairs fun d q => (d.qp q).items.foldl (fun d it => match it.desc with
      | some x => if p d it x then d.finish q it.index st else d
      | none => d) d) := by
  refine h.each fun q he => he.foldl fun it hg => ?_
  split
  · exact .ite (fun _ => hg.finish ..) fun _ => hg
  · exact hg

theorem Dev.FaultsGrow.endAdmits (h : d.FaultsGrow e) (kind index : Nat) : d.FaultsGrow (e.endAdmits kind index) := by
  have hadmits : d.FaultsGrow (e.withFlt { e.flt with admits := e.flt.admits.filter fun a => !(a.kind == kind && a.index == index) }) :=
    h.trans ⟨fun _ _ hf => hf, List.prefix_rfl⟩
  exact Dev.FaultsGrow.foldl (.ite (fun _ => hadmits.keeps (Dev.dropDacs_keeps ..) (by decide)) fun _ => hadmits) fun _ hg => hg.finish ..

/-! ### Stopwork and SAFE -/

theorem Dev.FaultsGrow.tripStage (h : d.FaultsGrow e) (s : Nat) (low : Bool) (k i : Nat) : d.FaultsGrow (e.tripStage s low k i) := by
  have hrun := h.keeps (e.endRun_keeps s) (by decide)
  have hmarks := hrun.keeps (Dev.tripMarks_keeps _ s low k i) (by decide)
  have htime := (hmarks.keeps (Dev.tripTime_keeps _ s) (by decide)).keeps (Dev.tripMask_keeps _ s) (by decide)
  exact ((htime.keeps (Dev.tripWait_keeps _ s low) (by decide)).keeps (Dev.actionAtStage_keeps _ s false) (by decide)).post _

theorem Dev.FaultsGrow.arbitrate (h : d.FaultsGrow e) (s : Nat) : d.FaultsGrow (e.arbitrate s) := by
  refine .ite (fun _ => .ite (fun _ => h.keeps (e.toAllOff_keeps s) (by decide)) fun _ => h) fun _ => ?_
  split
  · exact h
  · exact h.tripStage ..

theorem Dev.FaultsGrow.stopwork (h : d.FaultsGrow e) : d.FaultsGrow e.stopwork := h.each fun s he => he.arbitrate s

theorem Dev.safeCause_flt (d : Dev) (kind index code : Nat) : (d.safeCause kind index code).flt = d.flt := rfl

theorem Dev.safeMarks_flt (d : Dev) : d.safeMarks.flt = d.flt := rfl

theorem Dev.FaultsGrow.enterSafe (h : d.FaultsGrow e) (kind index code detail sub : Nat) : d.FaultsGrow (e.enterSafe kind index code detail sub) := by
  obtain ⟨r, heq⟩ := e.enterSafe_eq kind index code detail sub
  rw [heq]
  have hpost := h.post (e.safeReport kind index code detail sub)
  generalize e.post (e.safeReport kind index code detail sub) = a at hpost ⊢
  refine .ite (fun _ => hpost) fun _ => Dev.FaultsGrow.stopwork (Dev.FaultsGrow.post (hpost.trans (.of_flt ?_)) r)
  rw [Dev.safeMarks_flt, Dev.safeCause_flt]

theorem Dev.FaultsGrow.fenceLoop (h : d.FaultsGrow e) (l : Nat) : d.FaultsGrow (e.fenceLoop l) := by
  refine .ite (fun _ => h) fun _ => ?_
  have hloop := (h.markFenced Kind.loop l).keeps (Dev.onLoop_keeps _ l fun v =>
    { v with waiting := false, ready := none, owed := [], moved := [], finished := none, swapArmed := false, swapDue := false }) (by decide)
  have hruns := hloop.each (l := List.range 12) (f := fun d e => match (d.eng e).run with
      | some r => if r.loop = l ∧ d.fenceHolds e = false then d.setEng e { d.eng e with run := some { r with abort := true } } else d
      | none => d) fun {e'} k he => by
    split
    · exact .ite (fun _ => he.keeps (Dev.setEng_keeps ..) (by decide)) fun _ => he
    · exact he
  refine Dev.FaultsGrow.keeps (Dev.FaultsGrow.postFenced (.ite (fun _ => ?_) fun _ => hruns) ..) (Dev.showLoop_keeps _ l) (by decide)
  exact (hruns.keeps (Dev.put_keeps _ F.BE_LP_SWAP_pending l false (by decide)) (by decide)).keeps
    (Dev.wr_keeps _ F.BE_LP_SWAP_status l _ (by decide)) (by decide)

/-! ### The safety controller -/

theorem Dev.FaultsGrow.wakeCopies (h : d.FaultsGrow e) : d.FaultsGrow e.wakeCopies :=
  .ite (fun _ => (h.trans (g := e.withFlt { e.flt with request := false }) ⟨fun _ _ hf => hf, List.prefix_rfl⟩).trans (.of_flt rfl)) fun _ => h

theorem Dev.FaultsGrow.scHalt (h : d.FaultsGrow e) : d.FaultsGrow e.scHalt := by
  have hmode := (h.keeps (e.wr_keeps F.SC_STAT_mode 0 ScMode.halted (by decide)) (by decide)).keeps
    (Dev.wr_keeps _ F.SC_LAST_outcome 0 4 (by decide)) (by decide)
  exact ((hmode.keeps (Dev.onSc_keeps _ fun c => { c with retry := false, test := none }) (by decide)).keeps
    (Dev.wdogResume_keeps _) (by decide)).enterSafe ..

theorem Dev.FaultsGrow.goSimplex (h : d.FaultsGrow e) (copyA : Bool) : d.FaultsGrow (e.goSimplex copyA) := by
  unfold Dev.goSimplex
  extract_lets a b c w i f
  have hi : d.FaultsGrow i :=
    ((((h.post _).keeps (a.wr_keeps F.SC_STAT_mode 0 _ (by decide)) (by decide)).keeps (b.wr_keeps F.SC_LAST_outcome 0 _ (by decide))
      (by decide)).keeps (c.put_keeps F.SC_STAT_grace 0 true (by decide)) (by decide)).keeps
      (Dev.wr_keeps _ F.SC_STAT_grace_left 0 w (by decide)) (by decide)
  have hf : d.FaultsGrow f := (hi.keeps (i.onSc_keeps _) (by decide)).keeps (Dev.wdogResume_keeps _) (by decide)
  refine Dev.FaultsGrow.wakeCopies (.ite (fun _ => Dev.FaultsGrow.enterSafe ?_ ..) fun _ => hf)
  exact (hf.keeps (f.onSc_keeps fun c => { c with overLimit := false }) (by decide)).keeps (Dev.wr_keeps _ F.SC_LAST_outcome 0 4 (by decide)) (by decide)

/-! ### Positions, controllers, queue pairs, islands -/

theorem Dev.FaultsGrow.sourceLost (h : d.FaultsGrow e) (j : Nat) : d.FaultsGrow (e.sourceLost j) :=
  .ite (fun _ => ((h.keeps (e.put_keeps F.EP_STAT_src_lost j true (by decide)) (by decide)).keeps
    (Dev.put_keeps _ F.EP_STAT_running j false (by decide)) (by decide)).report ..) fun _ => h

theorem Dev.FaultsGrow.breakLine (h : d.FaultsGrow e) (i cause : Nat) : d.FaultsGrow (e.breakLine i cause) := by
  refine .ite (fun _ => h) fun _ => Dev.FaultsGrow.report ?_ ..
  have hpos := h.keeps (e.setPos_keeps i { e.pos i with broken := (e.pos i).broken ++ [cause] }) (by decide)
  exact (hpos.keeps (Dev.put_keeps _ F.PS_STAT_broken_live i true (by decide)) (by decide)).keeps
    (Dev.put_keeps _ F.PS_STAT_broken i _ (by decide)) (by decide)

/-! ### The first report of a fence -/

/-- From d to e unit `index` of `kind` was fenced, and the report of its fence came before any other one. -/
def Dev.FencedBy (d : Dev) (kind index cls cause sub : Nat) (e : Dev) : Prop :=
  ∃ m : Dev, m.flt.intake = d.flt.intake ∧ m.time = d.time ∧ d.FaultsGrow m ∧ m.fenced kind index = true ∧
    (m.postFenced kind index cls cause sub).FaultsGrow e

section
variable {kind index cls cause sub : Nat}

theorem Dev.FencedBy.grow (h : d.FencedBy kind index cls cause sub e) (k : e.FaultsGrow g) : d.FencedBy kind index cls cause sub g := by
  obtain ⟨m, hintake, htime, hgrow, hfenced, hafter⟩ := h
  exact ⟨m, hintake, htime, hgrow, hfenced, hafter.trans k⟩

theorem Dev.FencedBy.grows (h : d.FencedBy kind index cls cause sub e) : d.FaultsGrow e := by
  obtain ⟨m, -, -, hgrow, -, hafter⟩ := h
  exact (hgrow.postFenced ..).trans hafter

theorem Dev.FencedBy.fenced (h : d.FencedBy kind index cls cause sub e) : e.fenced kind index = true := by
  obtain ⟨m, -, -, -, hfenced, hafter⟩ := h
  exact ((Dev.FaultsGrow.refl m).postFenced kind index cls cause sub |>.trans hafter).1 kind index hfenced

theorem Dev.post_intake {d : Dev} (h : d.flt.intake.length < 64) (r : Report) : (d.post r).flt.intake = d.flt.intake ++ [r] := by
  rw [Dev.post, if_pos h]
  rfl

theorem Dev.FaultsGrow.first {r : Report} (hr : e.flt.intake = d.flt.intake ++ [r]) (h : e.FaultsGrow g) :
    ∃ more, g.flt.intake = d.flt.intake ++ r :: more := by
  obtain ⟨more, hmore⟩ := h.2
  exact ⟨more, by rw [← hmore, hr, List.append_assoc]; rfl⟩

theorem Dev.FencedBy.first (h : d.FencedBy kind index cls cause sub e) (hroom : d.flt.intake.length < 64) :
    ∃ more, e.flt.intake = d.flt.intake ++
      { kind := kind, index := index, cls := cls, code := Code.FENCED, sub := sub, detail := cause, time := d.time } :: more := by
  obtain ⟨m, hintake, htime, -, -, hafter⟩ := h
  refine hafter.first ?_
  rw [Dev.postFenced, Dev.post_intake (hintake ▸ hroom), hintake, htime]

end

theorem Dev.fenced_markFenced_self (d : Dev) (kind index : Nat) : (d.markFenced kind index true).fenced kind index = true := by
  rw [Dev.fenced_markFenced, if_pos rfl]

/-- A unit that is marked, shown in its registers and reported. -/
theorem Dev.FencedBy.marked {w : Foot} {kind index : Nat} {m : Dev} (hk : Keeps w (d.markFenced kind index true) m) (hp : Part.flt ∉ w.parts)
    (cls cause sub : Nat) : d.FencedBy kind index cls cause sub (m.postFenced kind index cls cause sub) := by
  have hflt := hk.parts .flt hp
  have hintake : m.flt.intake = (d.markFenced kind index true).flt.intake := congrArg Flt.intake hflt
  refine ⟨m, hintake, hk.time, (Dev.FaultsGrow.refl d).markFenced kind index |>.keeps hk hp, ?_, .refl _⟩
  exact (Dev.fenced_congr hflt kind index).trans (d.fenced_markFenced_self kind index)

theorem Dev.FencedBy.after {w : Foot} {kind index cls cause sub : Nat} (h : e.FencedBy kind index cls cause sub g) (hk : Keeps w d e)
    (hp : Part.flt ∉ w.parts) : d.FencedBy kind index cls cause sub g := by
  obtain ⟨m, hintake, htime, hgrow, hfenced, hafter⟩ := h
  have hflt : e.flt = d.flt := hk.parts .flt hp
  exact ⟨m, hflt ▸ hintake, htime.trans hk.time, (Dev.FaultsGrow.of_flt hflt).trans hgrow, hfenced, hafter⟩

theorem Dev.fenceC_by (d : Dev) (kind index cause sub : Nat) : d.FencedBy kind index Cls.c cause sub (d.fenceC kind index cause sub) :=
  .marked (Keeps.refl ⟨false, [], []⟩ _) (by decide) ..

theorem Dev.canFence_by {c : Nat} (hfree : d.fenced Kind.can c = false) (cause sub : Nat) :
    d.FencedBy Kind.can c Cls.c cause sub (d.canFence c cause sub) := by
  rw [Dev.canFence, if_neg (Bool.not_eq_true _ ▸ hfree)]
  refine (Dev.FencedBy.marked (Dev.put_keeps _ F.CN_STAT_fenced c true (by decide)) (by decide) ..).grow ?_
  exact (((Dev.FaultsGrow.refl _).endSlots c Code.FENCED).endsWhere Code.FENCED).keeps (Dev.ttCheck_keeps _ c) (by decide)

theorem Dev.flowFence_by {l : Nat} (hfree : d.fenced Kind.flow l = false) (cause sub : Nat) :
    d.FencedBy Kind.flow l Cls.c cause sub (d.flowFence l cause sub) := by
  rw [Dev.flowFence, if_neg (Bool.not_eq_true _ ▸ hfree)]
  exact (Dev.FencedBy.marked (Dev.put_keeps _ F.FL_STAT_fenced l true (by decide)) (by decide) ..).grow
    ((Dev.FaultsGrow.refl _).endsWhere Code.FENCED)

theorem Dev.fenceQp_by {q : Nat} (hfree : d.fenced Kind.queue q = false) (cause sub : Nat) :
    d.FencedBy Kind.queue q Cls.c cause sub (d.fenceQp q cause sub) := by
  rw [Dev.fenceQp, if_neg (Bool.not_eq_true _ ▸ hfree)]
  refine Dev.FencedBy.after (Dev.FencedBy.after (Dev.FencedBy.grow (Dev.fenceC_by _ Kind.queue q cause sub) ?_)
    (Dev.wr_keeps _ F.HI_QP_CTRL_status q Code.FENCED (by decide)) (by decide)) (d.put_keeps F.HI_QP_FLAGS_fenced q true (by decide)) (by decide)
  exact ((Dev.FaultsGrow.refl _).keeps (Dev.setQp_keeps ..) (by decide)).endPending q

theorem Dev.fenceCopy_by {k : Nat} (hfree : d.fenced Kind.safety k = false) (cause sub : Nat) :
    d.FencedBy Kind.safety k Cls.c cause sub (d.fenceCopy k cause sub) := by
  have hshown : ∀ f : Fd, f.ok = true → d.FencedBy Kind.safety k Cls.c cause sub ((d.put f 0 true).fenceC Kind.safety k cause sub) :=
    fun f hf => (Dev.fenceC_by ..).after (d.put_keeps f 0 true hf) (by decide : Part.flt ∉ [])
  rw [Dev.fenceCopy, if_neg (Bool.not_eq_true _ ▸ hfree)]
  split
  · exact hshown F.SC_STAT_fenced_a (by decide)
  · split
    · exact hshown F.SC_STAT_fenced_b (by decide)
    · exact hshown F.SC_STAT_fenced_chk (by decide)

theorem Dev.fenceStage_by {s : Nat} (hfree : d.fenced Kind.stage s = false) (cause sub : Nat) :
    d.FencedBy Kind.stage s Cls.s cause sub (d.fenceStage s cause sub) := by
  rw [Dev.fenceStage, if_neg (Bool.not_eq_true _ ▸ hfree)]
  refine (Dev.FencedBy.marked (Dev.put_keeps _ F.TB_STG_STAT_fenced s true (by decide)) (by decide) ..).grow ?_
  refine Dev.FaultsGrow.each ?_ fun l he => he.fenceLoop l
  exact (((Dev.FaultsGrow.refl _).keeps (Dev.endRun_keeps _ s) (by decide)).keeps (Dev.discardShadows_keeps _ s) (by decide)).arbitrate s

theorem Dev.fencePos_by {i named : Nat} (hnamed : named = Kind.posPort ∨ named = Kind.observer) (hfree : d.fenced Kind.posPort i = false)
    (cause sub : Nat) : d.FencedBy named i Cls.c cause sub (d.fencePos i cause sub named) := by
  rw [Dev.fencePos, if_neg (Bool.not_eq_true _ ▸ hfree)]
  extract_lets other a b c
  have hgrow : d.FaultsGrow a := ((Dev.FaultsGrow.refl d).markFenced Kind.posPort i).markFenced Kind.observer i
  have hmark : a.fenced named i = true := by
    rcases hnamed with rfl | rfl
    · exact ((Dev.FaultsGrow.refl _).markFenced Kind.observer i).1 _ _ (d.fenced_markFenced_self Kind.posPort i)
    · exact Dev.fenced_markFenced_self ..
  have hshow : a.FaultsGrow b := ((Dev.FaultsGrow.refl a).keeps (a.put_keeps F.PS_STAT_fenced i true (by decide)) (by decide)).keeps
    (Dev.put_keeps _ F.PS_STAT_running i false (by decide)) (by decide)
  refine ⟨b, rfl, rfl, hgrow.trans hshow, hshow.1 _ _ hmark, ?_⟩
  refine Dev.FaultsGrow.each (Dev.FaultsGrow.each ((Dev.FaultsGrow.refl _).postFenced ..) fun n he => ?_) fun j he => he.sourceLost j
  exact he.keeps (Dev.wr2_keeps _ F.PS_CMP_STAT_armed i n 0 (by decide)) (by decide)

/-! ### Every kind of unit -/

theorem Dev.FaultsGrow.canFence (h : d.FaultsGrow e) (c cause sub : Nat) : d.FaultsGrow (e.canFence c cause sub) := by
  cases hfree : e.fenced Kind.can c with
  | false => exact h.trans (Dev.canFence_by hfree cause sub).grows
  | true => rwa [Dev.canFence, if_pos hfree]

theorem Dev.FaultsGrow.fenceQp (h : d.FaultsGrow e) (q cause sub : Nat) : d.FaultsGrow (e.fenceQp q cause sub) := by
  cases hfree : e.fenced Kind.queue q with
  | false => exact h.trans (Dev.fenceQp_by hfree cause sub).grows
  | true => rwa [Dev.fenceQp, if_pos hfree]

theorem Dev.FaultsGrow.fenceStage (h : d.FaultsGrow e) (s cause sub : Nat) : d.FaultsGrow (e.fenceStage s cause sub) := by
  cases hfree : e.fenced Kind.stage s with
  | false => exact h.trans (Dev.fenceStage_by hfree cause sub).grows
  | true => rwa [Dev.fenceStage, if_pos hfree]

/-- What an island takes with it when it is fenced. -/
def Dev.islandUnits (d : Dev) (i : Nat) : Dev :=
  if i = 3 then
    let d := d.each [0, 1] fun d j =>
      if d.fenced Kind.repeater j then d
      else (d.fenceC Kind.repeater j Code.FENCED 2).put F.EP_STAT_running j false
    d.each [0, 1] fun d k => if d.psMode k = 5 ∧ d.psOn k = true then d.breakLine k 4 else d
  else if i = 4 then d.each (List.range 8) fun d c => d.canFence c Code.FENCED 2
  else if i = 5 then d.each (List.range 8) Dev.ttCheck
  else if i = 6 then d.each queuePairs fun d q => d.fenceQp q Code.FENCED 2
  else if i = 7 then
    if d.fenced Kind.imset 0 then d.endAdmits Kind.imset 0 else (d.fenceC Kind.imset 0 Code.FENCED 2).fencePending 0
  else d

theorem Dev.fenceIsland_eq (d : Dev) (i cause sub : Nat) : d.fenceIsland i cause sub = (d.fenceC Kind.island i cause sub).islandUnits i := rfl

theorem Dev.FaultsGrow.islandUnits (h : d.FaultsGrow e) (i : Nat) : d.FaultsGrow (e.islandUnits i) := by
  have hrepeaters := h.each (l := [0, 1]) (f := fun d j => if d.fenced Kind.repeater j then d
      else (d.fenceC Kind.repeater j Code.FENCED 2).put F.EP_STAT_running j false) fun j he => .ite (fun _ => he) fun _ =>
    (he.fenceC ..).keeps (Dev.put_keeps _ F.EP_STAT_running j false (by decide)) (by decide)
  refine .ite (fun _ => hrepeaters.each fun k he => .ite (fun _ => he.breakLine ..) fun _ => he) fun _ => ?_
  refine .ite (fun _ => h.each fun c he => he.canFence ..) fun _ => ?_
  refine .ite (fun _ => h.each fun c he => he.keeps (Dev.ttCheck_keeps _ c) (by decide)) fun _ => ?_
  refine .ite (fun _ => h.each fun q he => he.fenceQp ..) fun _ => .ite (fun _ => ?_) fun _ => h
  exact .ite (fun _ => h.endAdmits ..) fun _ => (h.fenceC ..).fencePending 0

theorem Dev.fenceSafety_by {k : Nat} (hfree : d.fenced Kind.safety k = false) (cause sub : Nat) :
    d.FencedBy Kind.safety k Cls.c cause sub (d.fenceSafety k cause sub) := by
  have hcopy := Dev.fenceCopy_by hfree cause sub
  exact hcopy.grow (.ite (fun _ => .refl _) fun _ => .ite (fun _ => (Dev.FaultsGrow.refl _).scHalt) fun _ => (Dev.FaultsGrow.refl _).goSimplex _)

/-- R372: a unit that is fenced with class C, and what its fence does after the report. -/
theorem Dev.fenceC_grow {kind index cause sub : Nat} (hg : (d.fenceC kind index cause sub).FaultsGrow g) : d.FencedBy kind index Cls.c cause sub g :=
  (d.fenceC_by kind index cause sub).grow hg

theorem Dev.fenceConverter_by (d : Dev) (c cause sub : Nat) : d.FencedBy Kind.logicConv c Cls.c cause sub
    ((((d.fenceC Kind.logicConv c cause sub).put F.CV_STAT_busy c false).endUrgent c).each (lightStages c) fun d s => d.fenceStage s Code.FENCED 2) := by
  refine Dev.fenceC_grow (Dev.FaultsGrow.each ?_ fun s he => he.fenceStage ..)
  exact ((Dev.FaultsGrow.refl _).keeps (Dev.put_keeps _ F.CV_STAT_busy c false (by decide)) (by decide)).keeps (Dev.endUrgent_keeps _ c) (by decide)

/-- The class of the report of a fence. -/
def fenceClass (kind : Nat) : Nat := if kind = Kind.stage then Cls.s else Cls.c

theorem Dev.fenceUnit_by {kind index : Nat} (hfree : d.fenced kind index = false)
    (hpos : kind = Kind.observer → d.fenced Kind.posPort index = false) (cause sub : Nat) :
    d.FencedBy kind index (fenceClass kind) cause sub (d.fenceUnit kind index cause sub) := by
  have hrest := (Dev.FaultsGrow.refl (d.fenceC kind index cause sub))
  unfold Dev.fenceUnit
  rw [if_neg (Bool.not_eq_true _ ▸ hfree)]
  split
  · exact Dev.fenceC_grow ((hrest.keeps (Dev.put_keeps _ F.PP_STAT_fenced index true (by decide)) (by decide)).keeps (Dev.drivePort_keeps ..) (by decide))
  · exact Dev.fenceStage_by hfree cause sub
  · exact Dev.fenceC_grow (hrest.fenceStage ..)
  · exact d.fenceConverter_by index cause sub
  · exact Dev.fenceC_grow hrest.stopwork
  · exact Dev.fenceC_grow hrest.stopwork
  · exact Dev.fencePos_by (.inl rfl) hfree cause sub
  · exact Dev.fenceC_grow (hrest.keeps (Dev.put_keeps _ F.EP_STAT_running index false (by decide)) (by decide))
  · exact Dev.fencePos_by (.inr rfl) (hpos rfl) cause sub
  · exact Dev.fenceSafety_by hfree cause sub
  · exact Dev.canFence_by hfree cause sub
  · exact Dev.flowFence_by hfree cause sub
  · exact Dev.fenceQp_by hfree cause sub
  · exact Dev.fenceC_grow (hrest.keeps (Dev.showTempFence_keeps ..) (by decide))
  · exact Dev.fenceC_grow (hrest.islandUnits index)
  · exact Dev.fenceC_grow (hrest.fencePending 0)
  · exact Dev.fenceC_grow (hrest.each fun q he => he.fenceQp ..)
  · have hstage : kind ≠ Kind.stage := ‹kind = 2 → False›
    rw [fenceClass, if_neg hstage]
    exact Dev.fenceC_by ..

/-! ### FLT_ACT (R371) -/

/-- FLT_ACT with a FENCE and the unit that it names. -/
def Dev.actNames (d : Dev) (kind index : Nat) : Dev := ((d.wr F.FLT_ACT_cmd 0 1).wr F.FLT_ACT_kind 0 kind).wr F.FLT_ACT_index 0 index

theorem Dev.actNames_keeps (d : Dev) (kind index : Nat) : Keeps ⟨false, [F.FLT_ACT_cmd, F.FLT_ACT_kind, F.FLT_ACT_index], []⟩ d (d.actNames kind index) :=
  (((d.wr_keeps F.FLT_ACT_cmd 0 1 (by decide)).within (by decide)).trans ((Dev.wr_keeps _ F.FLT_ACT_kind 0 kind (by decide)).within (by decide))).trans
    ((Dev.wr_keeps _ F.FLT_ACT_index 0 index (by decide)).within (by decide))

theorem Dev.actNames_shows (d : Dev) {kind index : Nat} (hk : kind < 256) (hi : index < 256) :
    (d.actNames kind index).rd F.FLT_ACT_kind 0 = kind ∧ (d.actNames kind index).rd F.FLT_ACT_index 0 = index :=
  ⟨(Dev.rd_wr_apart _ F.FLT_ACT_kind F.FLT_ACT_index _ _ _ (by decide) (by decide)).trans (Dev.rd_wr_of_lt _ F.FLT_ACT_kind 0 (by decide) hk),
    Dev.rd_wr_of_lt _ F.FLT_ACT_index 0 (by decide) hi⟩

theorem Dev.actFence_eq (d : Dev) {kind index : Nat} (h : fenceable kind index = true) : d.actFence kind index =
    if (d.actNames kind index).fenced kind index then ((d.actNames kind index).wr F.FLT_ACT_status 0 Code.FENCED).endAdmits kind index
    else ((d.actNames kind index).wr F.FLT_ACT_status 0 Code.OK).fenceUnit kind index 0 1 := by
  rw [Dev.actFence, h, if_neg (by decide)]
  rfl

/-- FENCE of a unit that is not fenced yet: the status, then the fence. -/
theorem Dev.fenceNamed_shows {kind index : Nat} (hfree : d.fenced kind index = false)
    (hpos : kind = Kind.observer → d.fenced Kind.posPort index = false) : let n := (d.wr F.FLT_ACT_status 0 Code.OK).fenceUnit kind index 0 1
    n.rd F.FLT_ACT_kind 0 = d.rd F.FLT_ACT_kind 0 ∧ n.rd F.FLT_ACT_index 0 = d.rd F.FLT_ACT_index 0 ∧ n.rd F.FLT_ACT_status 0 = Code.OK ∧
      d.FencedBy kind index (fenceClass kind) 0 1 n := by
  have hstatus := d.wr_keeps F.FLT_ACT_status 0 Code.OK (by decide)
  have hok : (d.wr F.FLT_ACT_status 0 Code.OK).rd F.FLT_ACT_status 0 = Code.OK := Dev.rd_wr_of_lt _ F.FLT_ACT_status 0 (by decide) (by decide)
  have hkind := hstatus.rd F.FLT_ACT_kind 0 (by decide)
  have hindex := hstatus.rd F.FLT_ACT_index 0 (by decide)
  have hflt : (d.wr F.FLT_ACT_status 0 Code.OK).flt = d.flt := hstatus.parts .flt (by decide)
  dsimp only
  generalize d.wr F.FLT_ACT_status 0 Code.OK = a at *
  have hunit := a.fenceUnit_keeps kind index 0 1
  have hby := Dev.fenceUnit_by ((Dev.fenced_congr hflt ..).trans hfree) (fun hobs => (Dev.fenced_congr hflt ..).trans (hpos hobs)) 0 1
  exact ⟨(hunit.rd F.FLT_ACT_kind 0 (by decide)).trans hkind, (hunit.rd F.FLT_ACT_index 0 (by decide)).trans hindex,
    (hunit.rd F.FLT_ACT_status 0 (by decide)).trans hok, hby.after hstatus (by decide)⟩

theorem Dev.actFence_free {kind index : Nat} (hk : kind < 256) (hi : index < 256) (h : fenceable kind index = true) (hfree : d.fenced kind index = false)
    (hpos : kind = Kind.observer → d.fenced Kind.posPort index = false) : let n := d.actFence kind index
    n.rd F.FLT_ACT_kind 0 = kind ∧ n.rd F.FLT_ACT_index 0 = index ∧ n.rd F.FLT_ACT_status 0 = Code.OK ∧
      d.FencedBy kind index (fenceClass kind) 0 1 n := by
  have hnames := d.actNames_keeps kind index
  obtain ⟨hkind, hindex⟩ := d.actNames_shows hk hi
  have hflt : (d.actNames kind index).flt = d.flt := hnames.parts .flt (by decide)
  have heq := d.actFence_eq h
  rw [Dev.fenced_congr hflt kind index, hfree, if_neg (by decide)] at heq
  dsimp only
  rw [heq]
  obtain ⟨hk', hi', hstatus, hby⟩ := Dev.fenceNamed_shows ((Dev.fenced_congr hflt kind index).trans hfree)
    fun hobs => (Dev.fenced_congr hflt Kind.posPort index).trans (hpos hobs)
  exact ⟨hk'.trans hkind, hi'.trans hindex, hstatus, hby.after hnames (by decide)⟩

theorem Dev.endAdmits_admits (d : Dev) (kind index : Nat) : ∀ a ∈ (d.endAdmits kind index).flt.admits, a.kind ≠ kind ∨ a.index ≠ index := by
  have hdacs : ∀ e : Dev, e.ReportsOnly (if kind = Kind.winMon then e.dropDacs index else e) := fun e => by
    split
    · exact .of_keeps (e.dropDacs_keeps index) (by decide)
    · exact .refl e
  have hends := Dev.ReportsOnly.foldl (f := fun d (a : AdmitT) => d.finish a.qp a.ring Code.BROKEN) (fun d a => d.finish_reportsOnly ..)
    (d.flt.admits.filter fun a => a.kind == kind && a.index == index)
  obtain ⟨_, _, _, hflt⟩ := (hdacs (d.withFlt { d.flt with admits := d.flt.admits.filter fun a => !(a.kind == kind && a.index == index) })).trans (hends _)
  have hadmits : (d.endAdmits kind index).flt.admits = d.flt.admits.filter fun a => !(a.kind == kind && a.index == index) := congrArg Flt.admits hflt
  intro a ha
  rw [hadmits, List.mem_filter] at ha
  obtain ⟨-, hother⟩ := ha
  by_contra hboth
  push Not at hboth
  obtain ⟨hk, hi⟩ := hboth
  rw [hk, hi, beq_self_eq_true, beq_self_eq_true] at hother
  exact absurd hother (by decide)

theorem Dev.actFence_again {kind index : Nat} (h : fenceable kind index = true) (hfence : d.fenced kind index = true) :
    (d.actFence kind index).rd F.FLT_ACT_status 0 = Code.FENCED ∧ ∀ a ∈ (d.actFence kind index).flt.admits, a.kind ≠ kind ∨ a.index ≠ index := by
  have hflt : (d.actNames kind index).flt = d.flt := (d.actNames_keeps kind index).parts .flt (by decide)
  rw [d.actFence_eq h, Dev.fenced_congr hflt, if_pos hfence]
  refine ⟨?_, Dev.endAdmits_admits _ kind index⟩
  rw [(Dev.endAdmits_keeps ..).rd F.FLT_ACT_status 0 (by decide), Dev.rd_wr_of_lt _ F.FLT_ACT_status 0 (by decide) (by decide)]

theorem Dev.reject_word (d : Dev) (m : Master) (reason : Nat) (data : Word) (off : Nat) {o : Nat} (hcnt : o ≠ F.FAB_WRITE_CNT.off 0 0)
    (herr : o ≠ F.FAB_WRITE_ERR.off 0 0) (hdata : o ≠ F.FAB_WRITE_DATA.off 0 0) : (d.reject m off reason data).word o = d.word o := by
  unfold Dev.reject
  dsimp only
  split
  · exact (Dev.word_wr_of_off_ne _ F.FAB_WRITE_ERR_more 0 1 herr).trans (Dev.word_wr_of_off_ne _ F.FAB_WRITE_CNT 0 _ hcnt)
  · rw [Dev.word_wr_of_off_ne _ _ _ _ hdata, Dev.word_wr_of_off_ne _ _ _ _ herr]
    exact Dev.word_wr_of_off_ne _ F.FAB_WRITE_CNT 0 _ hcnt

theorem Dev.actFence_refused {kind index : Nat} (h : fenceable kind index = false) : (d.actFence kind index).flt.fenced = d.flt.fenced ∧
    (d.actFence kind index).word (F.FLT_ACT.off 0 0) = d.word (F.FLT_ACT.off 0 0) := by
  rw [Dev.actFence, h, if_pos (by decide)]
  have hflt : (d.reject .sc (F.FLT_ACT.off 0 0) Reason.value (BitVec.ofNat 32 (1 + 256 * kind + 65536 * index))).flt = d.flt :=
    (Dev.reject_keeps ..).parts .flt (by decide)
  exact ⟨congrArg Flt.fenced hflt, Dev.reject_word _ _ _ _ _ (by decide) (by decide) (by decide)⟩

/-! ### SAFE by FLT_ACT -/

theorem Dev.actSafe_shows (d : Dev) (kind index : Nat) : let n := d.actSafe kind index
    n.flag F.FLT_SAFE_safe 0 = true ∧ n.rd F.FLT_ACT_status 0 = Code.OK ∧
      (d.flag F.FLT_SAFE_safe 0 = false → n.devState = DevSt.safe ∧ n.rd F.FLT_SAFE_status 0 = Code.SAFE_ENTRY ∧
        n.rd64 F.FLT_SAFE_TIME_LO F.FLT_SAFE_TIME_HI 0 = d.time % 2 ^ 64 ∧ ∀ k : Fin 21, n.flag F.WM_SW_STAT_held k = true) ∧
      (d.flag F.FLT_SAFE_safe 0 = true → n.rd F.FLT_SAFE_status 0 = d.rd F.FLT_SAFE_status 0) := by
  have hnames : Keeps ⟨false, [F.FLT_ACT_cmd, F.FLT_ACT_kind, F.FLT_ACT_index, F.FLT_ACT_status], []⟩ d
      ((((d.wr F.FLT_ACT_cmd 0 2).wr F.FLT_ACT_kind 0 kind).wr F.FLT_ACT_index 0 index).wr F.FLT_ACT_status 0 Code.OK) :=
    ((((d.wr_keeps F.FLT_ACT_cmd 0 2 (by decide)).within (by decide)).trans ((Dev.wr_keeps _ F.FLT_ACT_kind 0 kind (by decide)).within (by decide))).trans
      ((Dev.wr_keeps _ F.FLT_ACT_index 0 index (by decide)).within (by decide))).trans
      ((Dev.wr_keeps _ F.FLT_ACT_status 0 Code.OK (by decide)).within (by decide))
  have hok := Dev.rd_wr_of_lt (((d.wr F.FLT_ACT_cmd 0 2).wr F.FLT_ACT_kind 0 kind).wr F.FLT_ACT_index 0 index) F.FLT_ACT_status 0
    (v := Code.OK) (by decide) (by decide)
  dsimp only [Dev.actSafe]
  generalize (((d.wr F.FLT_ACT_cmd 0 2).wr F.FLT_ACT_kind 0 kind).wr F.FLT_ACT_index 0 index).wr F.FLT_ACT_status 0 Code.OK = a at hnames hok ⊢
  have hsafe := hnames.flag F.FLT_SAFE_safe 0 (by decide)
  refine ⟨a.enterSafe_safe _ _ _ _ (by decide), ?_, fun hnot => ?_, fun hin => ?_⟩
  · exact ((a.enterSafe_keeps ..).rd F.FLT_ACT_status 0 (by decide)).trans hok
  · obtain ⟨-, hstate, hstatus, htime, hheld⟩ := a.enterSafe_shows Kind.safety 0 0 1 (code := Code.SAFE_ENTRY) (by decide) (hsafe.trans hnot)
    exact ⟨hstate, hstatus, htime.trans (by rw [hnames.time]), hheld⟩
  · rw [a.enterSafe_again _ _ _ _ (hsafe.trans hin), (Dev.post_keeps ..).rd F.FLT_SAFE_status 0 (by decide), hnames.rd F.FLT_SAFE_status 0 (by decide)]

/-! ### What an island takes with it -/

/-- What ends the descriptors of a queue pair that is disabled. -/
def Dev.endItems (d : Dev) (q : Nat) : Dev :=
  let v := d.qp q
  let d := v.items.foldl (fun d it =>
    if it.begun then (if it.isBuffer then d.finishMoved q it Code.FENCED else d) else d.finish q it.index Code.FENCED) d
  let d := if v.silent then d.endUnread q else d
  (d.put F.HI_QP_CTRL_draining q true).drainItems q

theorem Dev.endPending_eq (d : Dev) (q : Nat) : d.endPending q = (d.put F.HI_QP_CTRL_enable q false).endItems q := rfl

/-- What the end of a queue pair's descriptors can change. -/
def endItemsFoot : Foot := ⟨false, [F.SC_TM_STAT_last_status, F.SC_TM_CNT_refusals, F.SC_CH_STAT_last_status, F.SC_LV_STAT_last_status,
  F.SC_DR_STAT_last_status, F.HI_QP_CTRL_draining, F.HI_QP_STAT_sq_head, F.HI_QP_FLAGS_in_flight, F.CN_STAT_slots, F.FLT_STAT_lost, F.FLT_LOST],
  [.hi, .cn, .flt]⟩

/-- One descriptor's turn when its queue pair is disabled. -/
def Dev.endItem (d : Dev) (q : Nat) (it : Item) : Dev :=
  if it.begun then (if it.isBuffer then d.finishMoved q it Code.FENCED else d) else d.finish q it.index Code.FENCED

theorem Dev.endItem_keeps (d : Dev) (q : Nat) (it : Item) : Keeps endItemsFoot d (d.endItem q it) :=
  Keeps.ite (fun _ => Keeps.ite (fun _ => (Dev.finishMoved_keeps ..).within (by decide)) fun _ => Keeps.refl _ _) fun _ =>
    (Dev.finish_keeps ..).within (by decide)

theorem Dev.endItem_reportsOnly (d : Dev) (q : Nat) (it : Item) : d.ReportsOnly (d.endItem q it) := by
  unfold Dev.endItem
  split
  · split
    · exact d.finish_reportsOnly ..
    · exact .refl d
  · exact d.finish_reportsOnly ..

theorem Dev.endItems_eq (d : Dev) (q : Nat) : d.endItems q =
    ((if (d.qp q).silent then ((d.qp q).items.foldl (fun d it => d.endItem q it) d).endUnread q
      else (d.qp q).items.foldl (fun d it => d.endItem q it) d).put F.HI_QP_CTRL_draining q true).drainItems q := rfl

theorem Dev.endItems_keeps (d : Dev) (q : Nat) : Keeps endItemsFoot d (d.endItems q) := by
  rw [Dev.endItems_eq]
  have hitems : Keeps endItemsFoot d ((d.qp q).items.foldl (fun d it => d.endItem q it) d) := Dev.foldl_keeps (fun e it => e.endItem_keeps q it) _ d
  refine Keeps.trans (Keeps.trans ?_ ((Dev.put_keeps _ F.HI_QP_CTRL_draining q true (by decide)).within (by decide)))
    ((Dev.drainItems_keeps _ q).within (by decide))
  exact Keeps.ite (fun _ => hitems.trans ((Dev.endUnread_keeps _ q).within (by decide))) fun _ => hitems

theorem Dev.endItems_reportsOnly (d : Dev) (q : Nat) : d.ReportsOnly (d.endItems q) := by
  rw [Dev.endItems_eq]
  have hitems := Dev.ReportsOnly.foldl (fun e it => e.endItem_reportsOnly q it) (d.qp q).items d
  refine Dev.ReportsOnly.trans ?_ (Dev.drainItems_reportsOnly _ q)
  refine Dev.ReportsOnly.trans ?_ (.of_keeps (Dev.put_keeps _ F.HI_QP_CTRL_draining q true (by decide)) (by decide))
  split
  · exact hitems.trans (.of_keeps (Dev.endUnread_keeps _ q) (by decide))
  · exact hitems

/-- A queue pair that is fenced, before its descriptors end. -/
def Dev.fenceQpMarks (d : Dev) (q cause sub : Nat) : Dev :=
  let d := ((d.put F.HI_QP_FLAGS_fenced q true).wr F.HI_QP_CTRL_status q Code.FENCED).fenceC Kind.queue q cause sub
  d.setQp q { d.qp q with silent := true }

theorem Dev.fenceQp_free {q : Nat} (h : d.fenced Kind.queue q = false) (cause sub : Nat) :
    d.fenceQp q cause sub = ((d.fenceQpMarks q cause sub).put F.HI_QP_CTRL_enable q false).endItems q := by
  rw [Dev.fenceQp, h, if_neg (by decide)]
  rfl

theorem Dev.fenceQpMarks_keeps (d : Dev) (q cause sub : Nat) :
    Keeps ⟨false, [F.HI_QP_CTRL_status, F.HI_QP_FLAGS_fenced, F.FLT_STAT_lost, F.FLT_LOST], [.hi, .flt]⟩ d (d.fenceQpMarks q cause sub) := by
  have hshow := ((d.put_keeps F.HI_QP_FLAGS_fenced q true (by decide)).within (b := ⟨false, [F.HI_QP_CTRL_status, F.HI_QP_FLAGS_fenced, F.FLT_STAT_lost,
    F.FLT_LOST], [.hi, .flt]⟩) (by decide)).trans ((Dev.wr_keeps _ F.HI_QP_CTRL_status q Code.FENCED (by decide)).within (by decide))
  exact (hshow.trans ((Dev.fenceC_keeps _ Kind.queue q cause sub).within (by decide))).trans ((Dev.setQp_keeps ..).within (by decide))

theorem Dev.fenceQpMarks_fenced (d : Dev) (q p cause sub : Nat) :
    (d.fenceQpMarks q cause sub).fenced Kind.queue p = if p = q then true else d.fenced Kind.queue p :=
  Dev.fenced_fenceC ((d.put F.HI_QP_FLAGS_fenced q true).wr F.HI_QP_CTRL_status q Code.FENCED) Kind.queue q cause sub p

theorem Dev.fenceQp_fenced (d : Dev) (q p cause sub : Nat) :
    (d.fenceQp q cause sub).fenced Kind.queue p = if p = q then true else d.fenced Kind.queue p := by
  cases hfree : d.fenced Kind.queue q with
  | false =>
    rw [Dev.fenceQp_free hfree, (Dev.endItems_reportsOnly ..).fenced,
      Dev.fenced_congr ((Dev.put_keeps _ F.HI_QP_CTRL_enable q false (by decide)).parts .flt (by decide)), Dev.fenceQpMarks_fenced]
  | true =>
    rw [Dev.fenceQp, if_pos hfree]
    split
    case isTrue h => rw [h, hfree]
    case isFalse => rfl

theorem Dev.fenceQp_off {q : Nat} (hfree : d.fenced Kind.queue q = false) (cause sub : Nat) : (d.fenceQp q cause sub).qpOn q = false := by
  rw [Dev.fenceQp_free hfree]
  exact ((Dev.endItems_keeps ..).flag F.HI_QP_CTRL_enable q (by decide)).trans (Dev.flag_put _ F.HI_QP_CTRL_enable _ _ (by decide) rfl)

theorem Dev.fenceQp_staysOff {p : Nat} (hoff : d.qpOn p = false) (q cause sub : Nat) : (d.fenceQp q cause sub).qpOn p = false := by
  cases hfree : d.fenced Kind.queue q with
  | false =>
    rw [Dev.fenceQp_free hfree]
    refine ((Dev.endItems_keeps ..).flag F.HI_QP_CTRL_enable p (by decide)).trans ?_
    have hmarks := ((d.fenceQpMarks_keeps q cause sub).flag F.HI_QP_CTRL_enable p (by decide)).trans hoff
    exact Dev.flag_put_of_eq _ F.HI_QP_CTRL_enable q (by decide) rfl hmarks
  | true => rwa [Dev.fenceQp, if_pos hfree]

/-- R373: the loss of HRI fences every queue pair. -/
theorem Dev.fenceQps_shows (d : Dev) (p : Fin 64) : let n := d.each queuePairs fun d q => d.fenceQp q Code.FENCED 2
    n.fenced Kind.queue p = true ∧ (d.fenced Kind.queue p = false → n.qpOn p = false) := by
  refine Dev.each_reaches_of (I := fun e => d.fenced Kind.queue p = false → e.fenced Kind.queue p = false ∨ e.qpOn p = false)
    (P := fun e => e.fenced Kind.queue p = true ∧ (d.fenced Kind.queue p = false → e.qpOn p = false))
    (List.mem_range.mpr p.isLt) ?_ ?_ ?_ d fun h => .inl h
  · intro e q _ hI hd
    rcases hI hd with hfree | hoff
    · by_cases hq : (p : Nat) = q
      · exact .inr (hq ▸ Dev.fenceQp_off (hq ▸ hfree) Code.FENCED 2)
      · exact .inl (by rw [Dev.fenceQp_fenced, if_neg hq, hfree])
    · exact .inr (Dev.fenceQp_staysOff hoff ..)
  · intro e hI
    refine ⟨by rw [Dev.fenceQp_fenced, if_pos rfl], fun hd => ?_⟩
    rcases hI hd with hfree | hoff
    · exact Dev.fenceQp_off hfree ..
    · exact Dev.fenceQp_staysOff hoff ..
  · intro e q _ ⟨hf, hoff⟩
    refine ⟨?_, fun hd => Dev.fenceQp_staysOff (hoff hd) ..⟩
    rw [Dev.fenceQp_fenced, hf, ite_self]

theorem Dev.canFence_fenced (d : Dev) (c cause sub : Nat) : (d.canFence c cause sub).fenced Kind.can c = true := by
  cases hfree : d.fenced Kind.can c with
  | false => exact (Dev.canFence_by hfree cause sub).fenced
  | true => rw [Dev.canFence, if_pos hfree, hfree]

/-- R373: the loss of CNI fences every CAN controller. -/
theorem Dev.canFences_shows (d : Dev) (c : Fin 8) : (d.each (List.range 8) fun d c => d.canFence c Code.FENCED 2).fenced Kind.can c = true :=
  Dev.each_reaches (P := fun e => e.fenced Kind.can c = true) (f := fun d c => d.canFence c Code.FENCED 2) (List.mem_range.mpr c.isLt)
    (fun e => e.canFence_fenced c Code.FENCED 2) (fun e k _ h => ((Dev.FaultsGrow.refl e).canFence k Code.FENCED 2).1 _ _ h) d

theorem Dev.islandUnits_cni (d : Dev) : d.islandUnits 4 = d.each (List.range 8) fun d c => d.canFence c Code.FENCED 2 := by
  rw [Dev.islandUnits, if_neg (by decide), if_pos rfl]

theorem Dev.islandUnits_hri (d : Dev) : d.islandUnits 6 = d.each queuePairs fun d q => d.fenceQp q Code.FENCED 2 := by
  rw [Dev.islandUnits, if_neg (by decide), if_neg (by decide), if_neg (by decide), if_pos rfl]

/-- R373: the loss of IMI fences Imset. -/
theorem Dev.imsetLost_fenced (d : Dev) : (d.islandUnits 7).fenced Kind.imset 0 = true := by
  cases hfree : d.fenced Kind.imset 0 with
  | false =>
    have heq : d.islandUnits 7 = (d.fenceC Kind.imset 0 Code.FENCED 2).fencePending 0 := by
      rw [Dev.islandUnits, if_neg (by decide), if_neg (by decide), if_neg (by decide), if_neg (by decide), if_pos rfl, hfree, if_neg (by decide)]
    rw [heq]
    exact (Dev.fenceC_grow ((Dev.FaultsGrow.refl _).fencePending 0)).fenced
  | true => exact ((Dev.FaultsGrow.refl d).islandUnits 7).1 _ _ hfree

theorem Dev.fenced_markFenced_key (d : Dev) (kind index k i : Nat) (b : Bool) :
    (d.markFenced kind index b).fenced k i = if 256 * k + i = 256 * kind + index then b else d.fenced k i :=
  Tbl.get_set (fun _ => false) d.flt.fenced (256 * kind + index) (256 * k + i) b

/-- The report of a lost island. -/
def Dev.lossReport (d : Dev) (i : Nat) : Report :=
  { kind := Kind.island, index := i, cls := Cls.c, code := Code.ISLAND_LOST, detail := 0, time := d.time }

/-- An island whose loss the device survives: the report of the loss, then the fences. -/
theorem Dev.islandFenced_shows (d : Dev) (i : Fin 12) (hfree : d.fenced Kind.island i = false) :
    let n := (d.report Kind.island i Cls.c Code.ISLAND_LOST 0).fenceIsland i Code.ISLAND_LOST 0
    n.fenced Kind.island i = true ∧ n.flag F.FLT_SAFE_safe 0 = d.flag F.FLT_SAFE_safe 0 ∧
      (d.flt.intake.length < 64 → ∃ more, n.flt.intake = d.flt.intake ++
        { kind := Kind.island, index := i, cls := Cls.c, code := Code.ISLAND_LOST, detail := 0, time := d.time } :: more) ∧
      (i = 4 → ∀ c : Fin 8, n.fenced Kind.can c = true) ∧
      (i = 6 → ∀ p : Fin 64, n.fenced Kind.queue p = true ∧ (d.fenced Kind.queue p = false → n.qpOn p = false)) ∧
      (i = 7 → n.fenced Kind.imset 0 = true) := by
  have hreport : d.report Kind.island i Cls.c Code.ISLAND_LOST 0 = d.post (d.lossReport i) := if_neg (by rw [hfree]; decide)
  have hpost := d.post_keeps (d.lossReport i)
  have hfirst := Dev.post_intake (d := d) (r := d.lossReport i)
  have hqueue := fun p => d.fenced_post (d.lossReport i) Kind.queue p
  dsimp only
  rw [hreport]
  generalize d.post (d.lossReport i) = a at hpost hfirst hqueue ⊢
  have hsafe := (a.fenceIsland_keeps i Code.ISLAND_LOST 0).flag F.FLT_SAFE_safe 0 (by decide)
  rw [Dev.fenceIsland_eq] at hsafe ⊢
  have hby : a.FencedBy Kind.island i Cls.c Code.ISLAND_LOST 0 ((a.fenceC Kind.island i Code.ISLAND_LOST 0).islandUnits i) :=
    Dev.fenceC_grow ((Dev.FaultsGrow.refl _).islandUnits i)
  refine ⟨hby.fenced, hsafe.trans (hpost.flag F.FLT_SAFE_safe 0 (by decide)), fun hroom => hby.grows.first (hfirst hroom), ?_, ?_, ?_⟩
  · rintro rfl
    rw [show ((4 : Fin 12) : Nat) = 4 from rfl, Dev.islandUnits_cni]
    exact Dev.canFences_shows _
  · rintro rfl p
    rw [show ((6 : Fin 12) : Nat) = 6 from rfl, Dev.islandUnits_hri]
    obtain ⟨hf, hoff⟩ := (a.fenceC Kind.island 6 Code.ISLAND_LOST 0).fenceQps_shows p
    refine ⟨hf, fun hd => hoff ?_⟩
    have hother : ¬256 * Kind.queue + (p : Nat) = 256 * Kind.island + 6 := by
      rw [show Kind.queue = 20 from rfl, show Kind.island = 22 from rfl]
      omega
    rw [Dev.fenceC, Dev.postFenced, Dev.fenced_post, Dev.fenced_markFenced_key, if_neg hother, hqueue, hd]
  · rintro rfl
    exact Dev.imsetLost_fenced _

/-- R373: an island without which the device cannot go on. -/
theorem Dev.islandStops_shows (d : Dev) (i : Nat) :
    let n := (if i = 0 then d.withClockOn false else d).enterSafe Kind.island i Code.ISLAND_LOST 0 0
    n.flag F.FLT_SAFE_safe 0 = true ∧ (i = 0 → n.clockOn = false) ∧ (i ≠ 0 → n.clockOn = d.clockOn) := by
  dsimp only
  have hclock : ∀ e : Dev, (e.enterSafe Kind.island i Code.ISLAND_LOST 0 0).clockOn = e.clockOn :=
    fun e => (e.enterSafe_keeps ..).parts .clock (by decide)
  refine ⟨Dev.enterSafe_safe _ _ _ _ _ (by decide), fun h => ?_, fun h => ?_⟩
  · rw [hclock, if_pos h]
    rfl
  · rw [hclock, if_neg h]

end Sys2Proof.Machine
end

section
namespace Sys2Proof.Machine

/-- Settles O44: the report that a fence posts first stays in its place because no later step of the fence takes a report back, and the
units that an island carries are fenced one by one, none of them being unfenced again. -/
theorem fencesAct : Obligations.FencesAct := by
  unfold Obligations.FencesAct
  intro s t kind index d
  refine ⟨?still, ?fence, ?again, ?refused, ?safe, ?island⟩
  case still =>
    intro hfw
    exact ⟨Does.of_effect (show exec _ s = execFltFence t kind index s from rfl) (if_neg (by rw [show (s.arrive t).fwStores = false from hfw]; decide)),
      Does.of_effect (show exec _ s = execFltSafe t kind index s from rfl) (if_neg (by rw [show (s.arrive t).fwStores = false from hfw]; decide))⟩
  case fence =>
    intro hfw hcan hfree hpos
    obtain ⟨hkind, hindex, hstatus, hby⟩ := Dev.actFence_free kind.isLt index.isLt hcan hfree hpos
    exact Does.of_firmware (show exec _ s = execFltFence t kind index s from rfl) hfw
      ⟨hby.fenced, hkind, hindex, hstatus, fun hroom => hby.first hroom⟩
  case again =>
    intro hfw hcan hfence
    exact Does.of_firmware (show exec _ s = execFltFence t kind index s from rfl) hfw (Dev.actFence_again hcan hfence)
  case refused =>
    intro hcan
    refine Does.of_effect (show exec _ s = execFltFence t kind index s from rfl) ?_
    dsimp only
    split
    · exact Dev.actFence_refused hcan
    · exact ⟨rfl, rfl⟩
  case safe =>
    intro hfw
    exact Does.of_firmware (show exec _ s = execFltSafe t kind index s from rfl) hfw (d.actSafe_shows kind.toNat index.toNat)
  case island =>
    intro i hfree hdgi
    have hlive : ¬(i.val = 10 ∨ d.fenced Kind.island i = true) := by
      rintro (h | h)
      · exact hdgi (Fin.ext h)
      · rw [hfree] at h
        exact absurd h (by decide)
    refine ⟨fun hstops => ?_, fun hgoes => ?_⟩
    · refine Does.of_effect (show exec _ s = execIslandLost t i s from rfl) ?_
      have hclass : islandStopsDevice i = true := by rcases hstops with rfl | rfl | rfl | rfl | rfl <;> rfl
      rw [show s.now t = d from rfl, if_neg hlive, if_pos hclass]
      obtain ⟨hsafe, hoff, hon⟩ := d.islandStops_shows i
      exact ⟨hsafe, fun h => hoff (congrArg Fin.val h), fun h => hon fun hv => h (Fin.ext hv)⟩
    · refine Does.of_effect (show exec _ s = execIslandLost t i s from rfl) ?_
      have hclass : ¬islandStopsDevice i = true := by rcases hgoes with rfl | rfl | rfl | rfl | rfl | rfl <;> decide
      rw [show s.now t = d from rfl, if_neg hlive, if_neg hclass]
      exact d.islandFenced_shows i hfree

end Sys2Proof.Machine
end

section
/-! Shunt conversions and housekeeping (R84, R93, R94): what a converted sample shows, and the cycle DV, PV, TN, readback. -/

namespace Sys2Proof.Machine

/-! ### A converted sample -/

/-- Where instant A or B shows its current. -/
def shuntRes (isB : Bool) : Fd := if isB then F.SH_RES_B else F.SH_RES_A

/-- Where instant A or B shows what its record says. -/
def shuntInfo (isB : Bool) : Fd := if isB then F.SH_INFO_B else F.SH_INFO_A

/-- Where instant A or B shows its stamp. -/
def shuntStampLo (isB : Bool) : Fd := if isB then F.SH_STAMP_B_LO else F.SH_STAMP_A_LO

/-- Where instant A or B shows the high half of its stamp. -/
def shuntStampHi (isB : Bool) : Fd := if isB then F.SH_STAMP_B_HI else F.SH_STAMP_A_HI

/-- The stamp of instant A or B as shown. -/
def Dev.shuntStamp (d : Dev) (isB : Bool) (k : Nat) : Nat := d.rd64 (shuntStampLo isB) (shuntStampHi isB) k

theorem Dev.shuntStamp_eq (d : Dev) (isB : Bool) (k : Nat) :
    (if isB then d.rd64 F.SH_STAMP_B_LO F.SH_STAMP_B_HI k else d.rd64 F.SH_STAMP_A_LO F.SH_STAMP_A_HI k) = d.shuntStamp isB k := by
  cases isB with
  | false => rfl
  | true => rfl

theorem Dev.rd_wr_word (d : Dev) (f : Fd) (i : Nat) (w : Word) (hlo : f.lo = 0) (hw : f.width = 32) : (d.wr f i w.toNat).rd f i = w.toNat :=
  Dev.rd_wr_of_lt d f i (by rw [hlo, hw]) (by rw [hw]; exact w.isLt)

/-- The registers of a record, as they are stored. -/
def Dev.storeRecord (d : Dev) (k : Nat) (isB : Bool) (current info : Word) (stamp : Nat) : Dev :=
  ((d.wr (shuntRes isB) k current.toNat).wr (shuntInfo isB) k info.toNat).wr64 (shuntStampLo isB) (shuntStampHi isB) k stamp

theorem Dev.shuntRecord_eq (d : Dev) (k : Nat) (isB : Bool) (current info : Word) (stamp beat : Nat) :
    d.shuntRecord k isB current info stamp beat =
      (d.storeRecord k isB current info stamp).sendRec (.shunt k isB { current := current, info := info } beat) := by
  cases isB with
  | false => rfl
  | true => rfl

theorem shuntFields (isB : Bool) : ((shuntRes isB).lo = 0 ∧ (shuntRes isB).width = 32) ∧ ((shuntInfo isB).lo = 0 ∧ (shuntInfo isB).width = 32) ∧
    ((shuntStampLo isB).lo = 0 ∧ (shuntStampLo isB).width = 32) ∧ ((shuntStampHi isB).lo = 0 ∧ (shuntStampHi isB).width = 32) := by
  cases isB with
  | false => exact ⟨⟨rfl, rfl⟩, ⟨rfl, rfl⟩, ⟨rfl, rfl⟩, rfl, rfl⟩
  | true => exact ⟨⟨rfl, rfl⟩, ⟨rfl, rfl⟩, ⟨rfl, rfl⟩, rfl, rfl⟩

theorem shuntFields_apart (isB : Bool) : (shuntRes isB).apart (shuntInfo isB) = true ∧ (shuntRes isB).apart (shuntStampLo isB) = true ∧
    (shuntRes isB).apart (shuntStampHi isB) = true ∧ (shuntInfo isB).apart (shuntStampLo isB) = true ∧
    (shuntInfo isB).apart (shuntStampHi isB) = true ∧ (shuntStampLo isB).apart (shuntStampHi isB) = true := by
  cases isB with
  | false => decide
  | true => decide

theorem Dev.storeRecord_shows (d : Dev) (k : Nat) (isB : Bool) (current info : Word) (stamp : Nat) :
    let n := d.storeRecord k isB current info stamp
    n.rd (shuntRes isB) k = current.toNat ∧ n.rd (shuntInfo isB) k = info.toNat ∧ n.shuntStamp isB k = stamp % 2 ^ 64 := by
  obtain ⟨⟨hr0, hr⟩, ⟨hi0, hi⟩, hlo, hhi⟩ := shuntFields isB
  obtain ⟨hri, hrl, hrh, hil, hih, hlh⟩ := shuntFields_apart isB
  have hinfo : (shuntInfo isB).lo + (shuntInfo isB).width ≤ 32 := by rw [hi0, hi]
  have hl : (shuntStampLo isB).lo + (shuntStampLo isB).width ≤ 32 := by rw [hlo.1, hlo.2]
  have hh : (shuntStampHi isB).lo + (shuntStampHi isB).width ≤ 32 := by rw [hhi.1, hhi.2]
  refine ⟨?_, ?_, Dev.rd64_wr64 _ _ _ k stamp hlo hhi hlh⟩
  · rw [Dev.storeRecord, Dev.wr64, Dev.rd_wr_apart _ _ _ _ _ _ hh hrh, Dev.rd_wr_apart _ _ _ _ _ _ hl hrl, Dev.rd_wr_apart _ _ _ _ _ _ hinfo hri,
      Dev.rd_wr_word _ _ _ _ hr0 hr]
  · rw [Dev.storeRecord, Dev.wr64, Dev.rd_wr_apart _ _ _ _ _ _ hh hih, Dev.rd_wr_apart _ _ _ _ _ _ hl hil, Dev.rd_wr_word _ _ _ _ hi0 hi]

theorem Dev.shuntRecord_shows (d : Dev) (k : Nat) (isB : Bool) (current info : Word) (stamp beat : Nat) :
    let n := d.shuntRecord k isB current info stamp beat
    n.rd (shuntRes isB) k = current.toNat ∧ n.rd (shuntInfo isB) k = info.toNat ∧ n.shuntStamp isB k = stamp % 2 ^ 64 := by
  have hstored := d.storeRecord_shows k isB current info stamp
  dsimp only at hstored ⊢
  rw [Dev.shuntRecord_eq]
  generalize d.storeRecord k isB current info stamp = e at hstored ⊢
  exact hstored

/-- Sample x with `code` taken, before its record: SH_STAT.sat and the samples that wait. -/
def Dev.takeSample (d : Dev) (s : Nat) (x : Samp) (code : Int) : Dev :=
  let d := if endValue s code || outOf32 (d.shuntAmps s code) then d.put F.SH_STAT_sat s true else d
  d.setShunt s { d.shunt s with due := (d.shunt s).due.filter fun y => y != x }

/-- The record of sample x. -/
def Dev.recordSample (d : Dev) (s : Nat) (x : Samp) (amps : Int) (sat : Bool) (shift : Nat) : Dev :=
  let stamp := x.beatAt + x.inst.at16 / 16 + shift
  d.shuntRecord s x.isB (sat32 amps) (infoWord x.inst sat (d.offAt s (stamp + 120)) (shift != 0) x.beat) stamp x.beat

theorem Dev.sampleDone_eq (d : Dev) (s : Nat) (x : Samp) (code : Int) (shift : Nat) :
    let amps := d.shuntAmps s (shuntCode s code)
    let e := (d.takeSample s x (shuntCode s code)).recordSample s x amps (endValue s (shuntCode s code) || outOf32 amps) shift
    d.sampleDone s x code shift = if s = 13 then e.chopperCheck (x.beatAt + x.inst.at16 / 16 + shift + 120) (sat32 amps).toInt else e := rfl

theorem Dev.takeSample_keeps (d : Dev) (s : Nat) (x : Samp) (code : Int) : Keeps ⟨false, [F.SH_STAT_sat], [.sh]⟩ d (d.takeSample s x code) := by
  refine Keeps.trans (Keeps.ite (fun _ => ?_) fun _ => Keeps.refl _ _) ((Dev.setShunt_keeps ..).within (by decide))
  exact (d.put_keeps F.SH_STAT_sat s true (by decide)).within (by decide)

theorem Dev.takeSample_shows (d : Dev) (s : Nat) (x : Samp) (code : Int) : x ∉ ((d.takeSample s x code).shunt s).due ∧
    ((endValue s code || outOf32 (d.shuntAmps s code)) = true → (d.takeSample s x code).flag F.SH_STAT_sat s = true) := by
  constructor
  · rw [Dev.takeSample, Dev.shunt_setShunt, if_pos rfl]
    simp only [List.mem_filter, bne_self_eq_false, Bool.false_eq_true, and_false, not_false_eq_true]
  · intro hsat
    rw [Dev.takeSample, if_pos hsat]
    exact ((Dev.setShunt_keeps ..).flag F.SH_STAT_sat s (by decide)).trans (Dev.flag_put _ F.SH_STAT_sat _ _ (by decide) rfl)

theorem Dev.recordSample_keeps (d : Dev) (s : Nat) (x : Samp) (amps : Int) (sat : Bool) (shift : Nat) :
    Keeps ⟨false, [F.SH_RES_A, F.SH_RES_B, F.SH_INFO_A, F.SH_INFO_B, F.SH_STAMP_A_LO, F.SH_STAMP_A_HI, F.SH_STAMP_B_LO, F.SH_STAMP_B_HI], [.be]⟩ d
      (d.recordSample s x amps sat shift) := d.shuntRecord_keeps ..

theorem Dev.offAt_congr {d e : Dev} {s : Nat} (hrun : e.flag F.TB_STG_RUN_run s = d.flag F.TB_STG_RUN_run s) (htb : e.tb = d.tb) (h : Nat) :
    e.offAt s h = d.offAt s h := by
  rw [Dev.offAt, Dev.offAt, hrun, Dev.stg, Dev.stg, htb]

/-- What the registers of instant A or B of stage s, and its samples, show once sample x was converted. -/
def Dev.ShowsSample (d : Dev) (s : Nat) (x : Samp) (code : Int) (shift : Nat) (n : Dev) : Prop :=
  let c := shuntCode s code
  let stamp := x.beatAt + x.inst.at16 / 16 + shift
  let sat := endValue s c || outOf32 (d.shuntAmps s c)
  n.rd (shuntRes x.isB) s = (sat32 (d.shuntAmps s c)).toNat ∧
    n.rd (shuntInfo x.isB) s = (infoWord x.inst sat (d.offAt s (stamp + 120)) (shift != 0) x.beat).toNat ∧
    n.shuntStamp x.isB s = stamp % 2 ^ 64 ∧ x ∉ (n.shunt s).due ∧ (sat = true → n.flag F.SH_STAT_sat s = true)

theorem Keeps.showsSample {w : Foot} {d e n : Dev} {s : Nat} {x : Samp} {code : Int} {shift : Nat} (hk : Keeps w e n)
    (hf : ∀ isB, w.avoids (shuntRes isB) = true ∧ w.avoids (shuntInfo isB) = true ∧ w.avoids (shuntStampLo isB) = true ∧
      w.avoids (shuntStampHi isB) = true) (hs : w.avoids F.SH_STAT_sat = true) (hp : Part.sh ∉ w.parts)
    (h : d.ShowsSample s x code shift e) : d.ShowsSample s x code shift n := by
  obtain ⟨hres, hinfo, hstamp, hdue, hsat⟩ := h
  obtain ⟨hr, hi, hl, hh⟩ := hf x.isB
  refine ⟨(hk.rd _ s hr).trans hres, (hk.rd _ s hi).trans hinfo, (hk.rd64 _ _ s hl hh).trans hstamp, ?_, fun h => (hk.flag _ s hs).trans (hsat h)⟩
  rwa [Dev.shunt_congr (hk.parts .sh hp)]

theorem Dev.recordSample_shows (d : Dev) (s : Nat) (x : Samp) (code : Int) (shift : Nat) :
    let amps := d.shuntAmps s (shuntCode s code)
    d.ShowsSample s x code shift
      ((d.takeSample s x (shuntCode s code)).recordSample s x amps (endValue s (shuntCode s code) || outOf32 amps) shift) := by
  have htake := d.takeSample_keeps s x (shuntCode s code)
  obtain ⟨hdue, hsat⟩ := d.takeSample_shows s x (shuntCode s code)
  dsimp only
  generalize d.takeSample s x (shuntCode s code) = e at htake hdue hsat ⊢
  obtain ⟨hres, hinfo, hstamp⟩ := e.shuntRecord_shows s x.isB (sat32 (d.shuntAmps s (shuntCode s code)))
    (infoWord x.inst (endValue s (shuntCode s code) || outOf32 (d.shuntAmps s (shuntCode s code)))
      (e.offAt s (x.beatAt + x.inst.at16 / 16 + shift + 120)) (shift != 0) x.beat) (x.beatAt + x.inst.at16 / 16 + shift) x.beat
  have hoff := Dev.offAt_congr (htake.flag F.TB_STG_RUN_run s (by decide)) (htake.parts .tb (by decide)) (x.beatAt + x.inst.at16 / 16 + shift + 120)
  have hrec := e.recordSample_keeps s x (d.shuntAmps s (shuntCode s code))
    (endValue s (shuntCode s code) || outOf32 (d.shuntAmps s (shuntCode s code))) shift
  refine ⟨hres, hinfo.trans (by rw [hoff]), hstamp, ?_, fun h => (hrec.flag F.SH_STAT_sat s (by decide)).trans (hsat h)⟩
  rwa [Dev.shunt_congr (hrec.parts .sh (by decide))]

theorem Dev.sampleDone_shows (d : Dev) (s : Nat) (x : Samp) (code : Int) (shift : Nat) :
    d.ShowsSample s x code shift (d.sampleDone s x code shift) := by
  have hrec := d.recordSample_shows s x code shift
  have heq := d.sampleDone_eq s x code shift
  dsimp only at hrec heq
  rw [heq]
  split
  · exact (Dev.chopperCheck_keeps ..).showsSample (fun isB => by cases isB with | false => decide | true => decide) (by decide) (by decide) hrec
  · exact hrec

/-! ### Heavy and light stages -/

theorem Dev.heavyDone_of_due {d : Dev} {k : Nat} {isB : Bool} {x : Samp} (hk : heavyStage k = true) (hx : d.dueSample k isB = some x)
    (hripe : x.arrival + 80 ≤ d.time) (code : Int) (shift : Nat) : d.shuntDone k isB code shift = d.sampleDone k x code 0 := by
  rw [Dev.shuntDone, if_pos hk, Dev.heavyDone, hx]
  exact if_pos hripe

theorem Dev.dueSample_isB {d : Dev} {k : Nat} {isB : Bool} {x : Samp} (hx : d.dueSample k isB = some x) : x.isB = isB :=
  eq_of_beq (List.find?_some (p := fun y : Samp => y.isB == isB) hx)

theorem Dev.takeTriggers_running {d : Dev} {c : Nat} {r : Urg × Nat} (h : (d.conv c).running = some r) : ((d.takeTriggers c).conv c).running = some r := by
  unfold Dev.takeTriggers Dev.requestUrgent
  split
  · exact h
  · have hconv := (Dev.conv_congr ((Dev.showUrgent_keeps (d.setConv c (ConvT.serve { d.conv c with
      waiting := (d.newTriggers c).foldl (fun w x => insertUrgent x w) (d.conv c).waiting })) c).parts .cv (by decide)) c)
    dsimp only
    rw [hconv, Dev.conv_setConv, if_pos rfl, ConvT.serve, h]
    exact h

theorem Dev.endUrgentConv_freeAt (d : Dev) (c : Nat) : ((d.endUrgentConv c).conv c).freeAt = d.time := by
  have hserve : ∀ v : ConvT, v.serve.freeAt = v.freeAt := fun v => by
    unfold ConvT.serve
    split
    · rfl
    · split
      · rfl
      · rfl
  have hresume : ∀ (v : ConvT) at0, (v.resume at0).freeAt = v.freeAt := fun v at0 => by
    unfold ConvT.resume
    split
    · rfl
    · rfl
  rw [Dev.endUrgentConv, Dev.conv_congr ((Dev.showUrgent_keeps ..).parts .cv (by decide)), Dev.conv_setConv, if_pos rfl, hresume, hserve]

/-- How late the hold of a light sample was, in ticks. -/
def lateWait (since arrival late : Nat) : Nat := if since - arrival = 0 then 0 else max (since - arrival) (min late (since - arrival + 8))

theorem Dev.lightDone_of_running {d : Dev} {k : Nat} {isB : Bool} {x : Samp} {since : Nat} (hk : heavyStage k = false)
    (hrun : (d.conv (lightConv k)).running = some (.shunt k isB x.beat, since)) (hripe : since + 152 ≤ d.time)
    (hx : (d.shunt k).due.find? (fun y => y.isB == isB && y.beat == x.beat) = some x) (code : Int) (late : Nat) :
    d.shuntDone k isB code late =
      ((d.takeTriggers (lightConv k)).sampleDone k x code (lateWait since x.arrival late)).endUrgentConv (lightConv k) := by
  have htake := d.takeTriggers_keeps (lightConv k)
  have hstill := Dev.takeTriggers_running hrun
  rw [← Dev.shunt_congr (htake.parts .sh (by decide)) k] at hx
  rw [← htake.time] at hripe
  rw [Dev.shuntDone, hk, if_neg (by decide), Dev.lightDone]
  dsimp only
  generalize d.takeTriggers (lightConv k) = e at hstill hx hripe ⊢
  have hready : e.urgentRipe (lightConv k) = true := by
    rw [Dev.urgentRipe, hstill]
    exact Nat.ble_eq_true_of_le hripe
  rw [hstill]
  dsimp only
  rw [if_pos ⟨rfl, rfl, hready⟩, hx]
  rfl

theorem Dev.ShowsSample.congr {d e n : Dev} {s : Nat} {x : Samp} {code : Int} {shift : Nat} (h : e.ShowsSample s x code shift n)
    (hamps : e.shuntAmps s (shuntCode s code) = d.shuntAmps s (shuntCode s code)) (hoff : ∀ at0, e.offAt s at0 = d.offAt s at0) :
    d.ShowsSample s x code shift n := by
  rw [Dev.ShowsSample] at h ⊢
  rwa [hamps, hoff] at h

theorem Dev.shuntAmps_congr {w : Foot} {d e : Dev} (hk : Keeps w d e) (hs : w.avoids F.SH_SCALE = true) (ho : w.avoids F.SH_CAL_RES_offset = true)
    (hg : w.avoids F.SH_CAL_RES_gain_err = true) (s : Nat) (code : Int) : e.shuntAmps s code = d.shuntAmps s code := by
  rw [Dev.shuntAmps, Dev.shuntAmps, hk.rd _ _ hs, hk.rdInt _ _ ho, hk.rdInt _ _ hg]

theorem Dev.lightDone_shows {d : Dev} {k : Nat} {isB : Bool} {x : Samp} {since : Nat} (hk : heavyStage k = false)
    (hrun : (d.conv (lightConv k)).running = some (.shunt k isB x.beat, since)) (hripe : since + 152 ≤ d.time)
    (hx : (d.shunt k).due.find? (fun y => y.isB == isB && y.beat == x.beat) = some x) (code : Int) (late : Nat) :
    let n := d.shuntDone k isB code late
    d.ShowsSample k x code (lateWait since x.arrival late) n ∧ (n.conv (lightConv k)).freeAt = d.time := by
  have htake := d.takeTriggers_keeps (lightConv k)
  have hamps := Dev.shuntAmps_congr htake (by decide) (by decide) (by decide) k (shuntCode k code)
  have hoff := fun at0 => Dev.offAt_congr (htake.flag F.TB_STG_RUN_run k (by decide)) (htake.parts .tb (by decide)) at0
  have htime := htake.time
  dsimp only
  rw [Dev.lightDone_of_running hk hrun hripe hx]
  generalize d.takeTriggers (lightConv k) = e at hamps hoff htime ⊢
  have hshows := (e.sampleDone_shows k x code (lateWait since x.arrival late)).congr hamps hoff
  have hdone := (e.sampleDone_keeps k x code (lateWait since x.arrival late)).time
  generalize e.sampleDone k x code (lateWait since x.arrival late) = g at hshows hdone ⊢
  exact ⟨(g.endUrgentConv_keeps (lightConv k)).showsSample (fun isB => by cases isB with | false => decide | true => decide) (by decide) (by decide) hshows,
    (g.endUrgentConv_freeAt (lightConv k)).trans (hdone.trans htime)⟩

/-! ### The housekeeping cycle (R84) -/

theorem Dev.noteVolts_sat {d : Dev} {k code scale : Nat} (h : outOf32 (volts code scale) = true) : (d.noteVolts k code scale).flag F.SH_STAT_sat k = true := by
  rw [Dev.noteVolts, if_pos h]
  exact Dev.flag_put _ F.SH_STAT_sat _ _ (by decide) rfl

/-- The cycle of a stage after DV. -/
def ShuntT.afterDv (q : ShuntT) (v : Word) (code : Nat) : ShuntT := { q with hk := 2, dv := v, dvCode := code }

/-- The cycle of a stage after PV. -/
def ShuntT.afterPv (q : ShuntT) (v : Word) : ShuntT := { q with hk := 3, pv := v }

/-- The cycle of a stage after TN. -/
def ShuntT.afterTn (q : ShuntT) : ShuntT := { q with hkCount := (q.hkCount + 1) % 64 }

/-- What follows TN: the readback with every 64th cycle, or the end. -/
def Dev.goOn (d : Dev) (k n : Nat) (back : Bool) : Dev := if n = 0 && back then d.setShunt k { d.shunt k with hk := 4 } else d.hkEnd k

theorem Dev.goOn_keeps (d : Dev) (k n : Nat) (back : Bool) : Keeps ⟨false, [], [.sh]⟩ d (d.goOn k n back) :=
  Keeps.ite (fun _ => Dev.setShunt_keeps ..) fun _ => Dev.hkEnd_keeps ..

theorem Dev.code_wr_tn (d : Dev) (k : Nat) {code : Nat} (hcode : code < 16384) : (d.wr F.SH_TN k code).rd F.SH_TN_code k = code := by
  rw [Dev.rd, Dev.rd2, show F.SH_TN_code.off k 0 = F.SH_TN.off k 0 from rfl, Dev.wr, Dev.wr2, Dev.word_setWord, if_pos rfl]
  refine (getBits_putBits_whole _ code (lo := 0) (width := 14) (by decide)).trans ?_
  omega

section
variable {d : Dev} {k : Nat} (h : d.shuntHolds k = false)

include h

theorem Dev.hkResult_dv_eq (hk : (d.shunt k).hk = 1) (code : Nat) : d.hkResult k code =
    (((((d.noteVolts k code (d.rd F.SH_DV_SCALE k)).wr F.SH_DV k (scaleVolts code (d.rd F.SH_DV_SCALE k)).toNat).setShunt k
      ((d.shunt k).afterDv (scaleVolts code (d.rd F.SH_DV_SCALE k)) code)).noteGrid).trackFollow k) := by
  rw [Dev.hkResult, h, if_neg (by decide)]
  exact if_pos hk

theorem Dev.hkResult_pv_eq (hk : (d.shunt k).hk = 2) (code : Nat) : ∃ a : Dev, d.hkResult k code =
    ((a.wr F.SH_PV k (if k < 8 then scaleVolts code (d.rd F.SH_PV_SCALE k) else BitVec.ofNat 32 code).toNat).setShunt k
      ((d.shunt k).afterPv (if k < 8 then scaleVolts code (d.rd F.SH_PV_SCALE k) else BitVec.ofNat 32 code))).takePv k code := by
  refine ⟨if k < 8 then d.noteVolts k code (d.rd F.SH_PV_SCALE k) else d, ?_⟩
  rw [Dev.hkResult, h, if_neg (by decide), if_neg (by omega)]
  exact if_pos hk

theorem Dev.hkResult_tn_eq (hk : (d.shunt k).hk = 3) (code : Nat) : ∃ back, d.hkResult k code =
    ((((d.wr F.SH_TN k code).takeTn k code).sendRec (.house k (d.shunt k).dv (d.shunt k).pv (BitVec.ofNat 32 code) (d.shunt k).hkUpd)).setShunt k
      (d.shunt k).afterTn).goOn k (((d.shunt k).hkCount + 1) % 64) back := by
  rw [Dev.hkResult, h, if_neg (by decide), if_neg (by omega), if_neg (by omega)]
  exact ⟨_, if_pos hk⟩

theorem Dev.hkResult_dv (hk : (d.shunt k).hk = 1) (code : Nat) : let n := d.hkResult k code
    n.rd F.SH_DV k = (scaleVolts code (d.rd F.SH_DV_SCALE k)).toNat ∧ (n.shunt k).hk = 2 ∧
      (outOf32 (volts code (d.rd F.SH_DV_SCALE k)) = true → n.flag F.SH_STAT_sat k = true) := by
  have hsat := fun hout => Dev.noteVolts_sat (d := d) (k := k) (code := code) (scale := d.rd F.SH_DV_SCALE k) hout
  dsimp only
  rw [Dev.hkResult_dv_eq h hk]
  generalize d.noteVolts k code (d.rd F.SH_DV_SCALE k) = a at hsat ⊢
  generalize scaleVolts code (d.rd F.SH_DV_SCALE k) = v
  have hdv := a.rd_wr_word F.SH_DV k v rfl rfl
  have hkeep := (a.wr_keeps F.SH_DV k v.toNat (by decide)).flag F.SH_STAT_sat k (by decide)
  generalize a.wr F.SH_DV k v.toNat = b at hdv hkeep ⊢
  have hshunt : ((b.setShunt k ((d.shunt k).afterDv v code)).shunt k).hk = 2 := by
    rw [Dev.shunt_setShunt, if_pos rfl]
    rfl
  have hset := b.setShunt_keeps k ((d.shunt k).afterDv v code)
  generalize b.setShunt k ((d.shunt k).afterDv v code) = c at hshunt hset ⊢
  have hgrid := c.noteGrid_keeps
  have htrack := c.noteGrid.trackFollow_keeps k
  refine ⟨?_, ?_, fun hout => ?_⟩
  · rw [htrack.rd F.SH_DV k (by decide), hgrid.rd F.SH_DV k (by decide), hset.rd F.SH_DV k (by decide), hdv]
  · rw [Dev.shunt_congr (htrack.parts .sh (by decide)), Dev.shunt_congr (hgrid.parts .sh (by decide)), hshunt]
  · rw [htrack.flag F.SH_STAT_sat k (by decide), hgrid.flag F.SH_STAT_sat k (by decide), hset.flag F.SH_STAT_sat k (by decide), hkeep, hsat hout]

theorem Dev.hkResult_pv (hk : (d.shunt k).hk = 2) {code : Nat} (hcode : code < 16384) : let n := d.hkResult k code
    n.rd F.SH_PV k = (if k < 8 then (scaleVolts code (d.rd F.SH_PV_SCALE k)).toNat else code) ∧ (n.shunt k).hk = 3 := by
  have hword : (if k < 8 then scaleVolts code (d.rd F.SH_PV_SCALE k) else BitVec.ofNat 32 code).toNat =
      if k < 8 then (scaleVolts code (d.rd F.SH_PV_SCALE k)).toNat else code := by
    split
    · rfl
    · exact (BitVec.toNat_ofNat ..).trans (Nat.mod_eq_of_lt (by omega))
  obtain ⟨a, heq⟩ := Dev.hkResult_pv_eq h hk code
  dsimp only
  rw [heq, ← hword]
  generalize (if k < 8 then scaleVolts code (d.rd F.SH_PV_SCALE k) else BitVec.ofNat 32 code) = v
  have hpv := a.rd_wr_word F.SH_PV k v rfl rfl
  generalize a.wr F.SH_PV k v.toNat = b at hpv ⊢
  have hset := b.setShunt_keeps k ((d.shunt k).afterPv v)
  have hshunt : ((b.setShunt k ((d.shunt k).afterPv v)).shunt k).hk = 3 := by
    rw [Dev.shunt_setShunt, if_pos rfl]
    rfl
  generalize b.setShunt k ((d.shunt k).afterPv v) = c at hset hshunt ⊢
  have htake := c.takePv_keeps k code
  exact ⟨by rw [htake.rd F.SH_PV k (by decide), hset.rd F.SH_PV k (by decide), hpv],
    by rw [Dev.shunt_congr (htake.parts .sh (by decide)), hshunt]⟩

theorem Dev.hkResult_tn (hk : (d.shunt k).hk = 3) {code : Nat} (hcode : code < 16384) : (d.hkResult k code).rd F.SH_TN_code k = code := by
  obtain ⟨back, heq⟩ := Dev.hkResult_tn_eq h hk code
  rw [heq]
  have htn := d.code_wr_tn k hcode
  generalize d.wr F.SH_TN k code = a at htn ⊢
  generalize RecTok.house k (d.shunt k).dv (d.shunt k).pv (BitVec.ofNat 32 code) (d.shunt k).hkUpd = r
  have htake := (a.takeTn_keeps k code).rd F.SH_TN_code k (by decide)
  have hsend := ((a.takeTn k code).sendRec_keeps r).rd F.SH_TN_code k (by decide)
  generalize (a.takeTn k code).sendRec r = c at hsend ⊢
  have hset := (c.setShunt_keeps k (d.shunt k).afterTn).rd F.SH_TN_code k (by decide)
  generalize c.setShunt k (d.shunt k).afterTn = g at hset ⊢
  rw [(g.goOn_keeps ..).rd F.SH_TN_code k (by decide), hset, hsend, htake, htn]

end

theorem Dev.hkEnd_rotation (d : Dev) (k : Nat) : ((d.hkEnd k).shunt k).rotation = (d.shunt k).rotation := by
  unfold Dev.hkEnd
  dsimp only
  split
  · rw [Dev.shunt_setShunt, if_pos rfl]
  · rw [Dev.shunt_setShunt, if_pos rfl]

theorem Dev.podReadback_rotation (d : Dev) (k code : Nat) : ((d.podReadback k code).shunt k).rotation = ((d.shunt k).rotation + 1) % 4 := by
  have hset : ((d.setShunt k { d.shunt k with rotation := ((d.shunt k).rotation + 1) % 4 }).shunt k).rotation = ((d.shunt k).rotation + 1) % 4 := by
    rw [Dev.shunt_setShunt, if_pos rfl]
  unfold Dev.podReadback
  dsimp only
  generalize d.setShunt k { d.shunt k with rotation := ((d.shunt k).rotation + 1) % 4 } = e at hset ⊢
  generalize (if (d.shunt k).rotation % 2 = 0 then d.rd F.WM_PC_THR_lo (2 * k + (d.shunt k).rotation / 2)
    else d.rd F.WM_PC_THR_hi (2 * k + (d.shunt k).rotation / 2)) = dac
  split
  · have hput := e.put_keeps F.WM_PC_STAT_dac_err (2 * k + (d.shunt k).rotation / 2) true (by decide)
    rw [Dev.shunt_congr ((Dev.reportOpen_keeps ..).parts .sh (by decide)), Dev.shunt_congr (hput.parts .sh (by decide)), hset]
  · exact hset

theorem Dev.hkResult_readback {d : Dev} {k : Nat} (h : d.shuntHolds k = false) (hk : (d.shunt k).hk = 4) (code : Nat) :
    ((d.hkResult k code).shunt k).rotation = ((d.shunt k).rotation + 1) % 4 := by
  have heq : d.hkResult k code = (d.podReadback k code).hkEnd k := by
    rw [Dev.hkResult, h, if_neg (by decide), if_neg (by omega), if_neg (by omega), if_neg (by omega)]
    exact if_pos hk
  rw [heq, Dev.hkEnd_rotation, Dev.podReadback_rotation]

end Sys2Proof.Machine
end

section
namespace Sys2Proof.Machine

/-- Settles O7: everything that follows the record of a sample (chopper check, next request of the converter) leaves the registers of
shunt sensing as they are, and so does what follows each step of the housekeeping cycle. -/
theorem shuntRecords : Obligations.ShuntRecords := by
  unfold Obligations.ShuntRecords
  intro s t d
  refine ⟨?heavy, ?light, ?start, ?held, ?result⟩
  case heavy =>
    intro k isB code shift x hk hx hripe
    refine Does.of_effect (show exec _ s = execShuntConversionDone t k isB code shift s from rfl) ?_
    rw [show s.now t = d from rfl, Dev.heavyDone_of_due hk hx hripe]
    have hshows := d.sampleDone_shows k x code 0
    rw [Dev.ShowsSample, Dev.dueSample_isB hx] at hshows
    obtain ⟨hres, hinfo, hstamp, hdue, hsat⟩ := hshows
    exact ⟨hres, hinfo, (Dev.shuntStamp_eq ..).trans hstamp, hdue, hsat⟩
  case light =>
    intro k isB code late x since hk hrun hripe hx
    refine Does.of_effect (show exec _ s = execShuntConversionDone t k isB code late s from rfl) ?_
    obtain ⟨hshows, hfree⟩ := Dev.lightDone_shows hk hrun hripe hx code late
    have hpick := List.find?_some (p := fun y : Samp => y.isB == isB && y.beat == x.beat) hx
    have hb : x.isB = isB := eq_of_beq (Bool.and_eq_true_iff.mp hpick).left
    rw [Dev.ShowsSample, hb] at hshows
    obtain ⟨hres, -, hstamp, hdue, hsat⟩ := hshows
    exact ⟨hres, (Dev.shuntStamp_eq ..).trans hstamp, hdue, hsat, hfree⟩
  case start =>
    intro k hoff hmultiple hidle
    refine Does.of_effect (show exec _ s = execHousekeepingStart t k s from rfl) ?_
    rw [show s.now t = d from rfl, hoff, hmultiple, hidle, if_pos (by decide), Dev.hkStart, if_pos hidle, Dev.shunt_setShunt, if_pos rfl]
    exact ⟨rfl, rfl⟩
  case held =>
    intro k code hheld
    refine Does.of_effect (show exec _ s = execHousekeepingResult t k code s from rfl) ?_
    rw [show s.now t = d from rfl, Dev.hkResult, if_pos hheld]
    exact ⟨rfl, rfl, rfl, rfl⟩
  case result =>
    intro k code hfree c
    have hcode : c < 16384 := Nat.mod_lt _ (by decide)
    have hdoes : ∀ {P : Dev → Prop}, P (d.hkResult k c) → Does s (.housekeepingResult t k code) P := fun h =>
      Does.of_effect (show exec _ s = execHousekeepingResult t k code s from rfl) h
    exact ⟨fun hk => hdoes (Dev.hkResult_dv hfree hk c), fun hk => hdoes (Dev.hkResult_pv hfree hk hcode), fun hk => hdoes (Dev.hkResult_tn hfree hk hcode),
      fun hk => hdoes (Dev.hkResult_readback hfree hk c)⟩

end Sys2Proof.Machine
end

section
/-! Register writes (R2, R23): the first reason that applies, what a rejected write records, and how an accepted one merges. -/

namespace Sys2Proof.Machine

/-! ### What a rejected write records (R23) -/

theorem Dev.field_wr_whole (d : Dev) (whole f : Fd) (i v : Nat) (hoff : f.off i 0 = whole.off i 0) (hlo : whole.lo = 0) (hw : whole.width = 32)
    (hf : f.lo + f.width ≤ 32) : (d.wr whole i v).rd f i = v / 2 ^ f.lo % 2 ^ f.width := by
  rw [Dev.rd, Dev.rd2, hoff, Dev.wr, Dev.wr2, Dev.word_setWord, if_pos rfl, hlo, hw]
  exact getBits_putBits_whole _ v hf

/-- A write recorded as the first one: the registers of the record. -/
def Dev.recordWrite (d : Dev) (off reason : Nat) (m : Master) (data : Word) : Dev :=
  (d.wr F.FAB_WRITE_ERR 0 (off % 2 ^ 21 + 2 ^ 24 * reason + 2 ^ 28 * m.code + 2 ^ 31)).wr F.FAB_WRITE_DATA 0 data.toNat

theorem Dev.reject_eq (d : Dev) (m : Master) (off reason : Nat) (data : Word) : d.reject m off reason data =
    if (d.bump F.FAB_WRITE_CNT 0).flag F.FAB_WRITE_ERR_valid 0 then (d.bump F.FAB_WRITE_CNT 0).put F.FAB_WRITE_ERR_more 0 true
    else (d.bump F.FAB_WRITE_CNT 0).recordWrite off reason m data := rfl

theorem master_code_lt (m : Master) : m.code < 3 := by
  cases m with
  | host => decide
  | sc => decide
  | imset => decide

theorem Dev.recordWrite_shows (d : Dev) {off reason : Nat} (hoff : off < 2 ^ 21) (hreason : reason < 16) (m : Master) (data : Word) :
    let n := d.recordWrite off reason m data
    n.flag F.FAB_WRITE_ERR_valid 0 = true ∧ n.rd F.FAB_WRITE_ERR_reason 0 = reason ∧ n.rd F.FAB_WRITE_ERR_master 0 = m.code ∧
      n.rd F.FAB_WRITE_ERR_offset 0 = off ∧ n.rd F.FAB_WRITE_DATA 0 = data.toNat := by
  have hm := master_code_lt m
  have hdata : (d.recordWrite off reason m data).rd F.FAB_WRITE_DATA 0 = data.toNat := Dev.rd_wr_word _ F.FAB_WRITE_DATA 0 data rfl rfl
  have hfield : ∀ f : Fd, f.off 0 0 = F.FAB_WRITE_ERR.off 0 0 → f.lo + f.width ≤ 32 → f.apart F.FAB_WRITE_DATA = true →
      (d.recordWrite off reason m data).rd f 0 = (off % 2 ^ 21 + 2 ^ 24 * reason + 2 ^ 28 * m.code + 2 ^ 31) / 2 ^ f.lo % 2 ^ f.width :=
    fun f hf hw ha => (Dev.rd_wr_apart _ f F.FAB_WRITE_DATA _ _ _ (by decide) ha).trans (Dev.field_wr_whole _ F.FAB_WRITE_ERR f 0 _ hf rfl rfl hw)
  have hvalid := hfield F.FAB_WRITE_ERR_valid rfl (by decide) (by decide)
  have hwhy := hfield F.FAB_WRITE_ERR_reason rfl (by decide) (by decide)
  have hmaster := hfield F.FAB_WRITE_ERR_master rfl (by decide) (by decide)
  have hat := hfield F.FAB_WRITE_ERR_offset rfl (by decide) (by decide)
  rw [show F.FAB_WRITE_ERR_valid.lo = 31 from rfl, show F.FAB_WRITE_ERR_valid.width = 1 from rfl] at hvalid
  rw [show F.FAB_WRITE_ERR_reason.lo = 24 from rfl, show F.FAB_WRITE_ERR_reason.width = 4 from rfl] at hwhy
  rw [show F.FAB_WRITE_ERR_master.lo = 28 from rfl, show F.FAB_WRITE_ERR_master.width = 2 from rfl] at hmaster
  rw [show F.FAB_WRITE_ERR_offset.lo = 0 from rfl, show F.FAB_WRITE_ERR_offset.width = 21 from rfl] at hat
  generalize d.recordWrite off reason m data = n at *
  refine ⟨?_, by omega, by omega, by omega, hdata⟩
  rw [Dev.flag, hvalid, show (off % 2 ^ 21 + 2 ^ 24 * reason + 2 ^ 28 * m.code + 2 ^ 31) / 2 ^ 31 % 2 ^ 1 = 1 from by omega]
  rfl

theorem Dev.reject_frame (d : Dev) (m : Master) (off reason : Nat) (data : Word) :
    Foot.Frame ⟨false, [F.FAB_WRITE_ERR, F.FAB_WRITE_DATA, F.FAB_WRITE_CNT], []⟩ d (d.reject m off reason data) := by
  obtain ⟨hbits, hparts⟩ := (d.reject_keeps m off reason data).toFrame
  refine ⟨fun _ o bit hnone => hbits rfl o bit fun f hf => ?_, hparts⟩
  have hmore : ¬F.FAB_WRITE_ERR_more.holds o bit := by
    rintro ⟨⟨i, j, hij⟩, hlo, hhi⟩
    exact hnone F.FAB_WRITE_ERR (by decide) ⟨⟨i, j, hij⟩, Nat.zero_le _, Nat.lt_of_lt_of_le hhi (by decide)⟩
  simp only [List.mem_cons, List.not_mem_nil, or_false] at hf
  rcases hf with rfl | rfl | rfl | rfl
  · exact hnone F.FAB_WRITE_ERR (by decide)
  · exact hmore
  · exact hnone F.FAB_WRITE_DATA (by decide)
  · exact hnone F.FAB_WRITE_CNT (by decide)

/-- What a write rejected for `why` leaves. -/
def Dev.Rejected (d : Dev) (m : Master) (off why : Nat) (w : Word) (n : Dev) : Prop :=
  n.rd F.FAB_WRITE_CNT 0 = min (d.rd F.FAB_WRITE_CNT 0 + 1) (2 ^ 32 - 1) ∧
    n.time = d.time ∧ Foot.Frame ⟨false, [F.FAB_WRITE_ERR, F.FAB_WRITE_DATA, F.FAB_WRITE_CNT], []⟩ d n ∧
    n.flag F.FAB_WRITE_ERR_valid 0 = true ∧
    (d.flag F.FAB_WRITE_ERR_valid 0 = false → n.rd F.FAB_WRITE_ERR_reason 0 = why ∧ n.rd F.FAB_WRITE_ERR_master 0 = m.code ∧
      n.rd F.FAB_WRITE_ERR_offset 0 = off ∧ n.rd F.FAB_WRITE_DATA 0 = w.toNat) ∧
    (d.flag F.FAB_WRITE_ERR_valid 0 = true → n.flag F.FAB_WRITE_ERR_more 0 = true ∧
      n.rd F.FAB_WRITE_ERR_reason 0 = d.rd F.FAB_WRITE_ERR_reason 0 ∧ n.rd F.FAB_WRITE_DATA 0 = d.rd F.FAB_WRITE_DATA 0)

theorem Dev.reject_rejected (d : Dev) (m : Master) {off why : Nat} (w : Word) (hoff : off < 2 ^ 21) (hwhy : why < 16) :
    d.Rejected m off why w (d.reject m off why w) := by
  obtain ⟨-, hcount⟩ := d.reject_counts m off why w
  refine ⟨hcount, (d.reject_keeps m off why w).time, d.reject_frame m off why w, ?_⟩
  have hbump := d.bump_keeps F.FAB_WRITE_CNT 0 (by decide)
  have hvalid := hbump.flag F.FAB_WRITE_ERR_valid 0 (by decide)
  rw [Dev.reject_eq, hvalid]
  have hreason := hbump.rd F.FAB_WRITE_ERR_reason 0 (by decide)
  have hdata := hbump.rd F.FAB_WRITE_DATA 0 (by decide)
  generalize d.bump F.FAB_WRITE_CNT 0 = e at hvalid hreason hdata ⊢
  split
  case isTrue h =>
    have hput := e.put_keeps F.FAB_WRITE_ERR_more 0 true (by decide)
    refine ⟨(hput.flag F.FAB_WRITE_ERR_valid 0 (by decide)).trans (hvalid.trans h), fun hno => absurd (hno ▸ h) (by decide), fun _ => ?_⟩
    exact ⟨Dev.flag_put _ F.FAB_WRITE_ERR_more _ _ (by decide) rfl, (hput.rd F.FAB_WRITE_ERR_reason 0 (by decide)).trans hreason,
      (hput.rd F.FAB_WRITE_DATA 0 (by decide)).trans hdata⟩
  case isFalse h =>
    obtain ⟨hset, hshown⟩ := e.recordWrite_shows hoff hwhy m w
    exact ⟨hset, fun _ => hshown, fun hyes => absurd hyes h⟩

/-! ### The first reason (R23) -/

section
variable {d : Dev} {m : Master} {off : Nat} {w : Word}

theorem Dev.writeReason_unmapped (htable : inTable off = false) (hvec : inVectors off = false) (hreg : findReg off = none) :
    d.writeReason m off false w = some Reason.unmapped := by
  rw [Dev.writeReason, hvec, htable, if_neg (by decide), if_neg (by decide), hreg]

theorem Dev.writeReason_narrow {r : RegRow} (htable : inTable off = false) (hvec : inVectors off = false) (hreg : findReg off = some r) :
    d.writeReason m off true w = some Reason.width := by
  rw [Dev.writeReason, hvec, htable, if_neg (by decide), if_neg (by decide), hreg]
  rfl

/-- Why a whole word for register r is rejected. -/
def Dev.rowReason (d : Dev) (r : RegRow) (m : Master) (off : Nat) (w : Word) : Option Nat :=
  if r.cls = .T ∧ m ≠ .sc then some Reason.cls
  else if r.cls = .S ∧ d.setupOpen m = false then some Reason.sealed
  else if d.regFenced off && !answersFenced off then some Reason.fenced
  else if !fieldsLegal r w then some Reason.value
  else
    match d.commandReason m off w with
    | some why => some why
    | none => if d.refuses (d.setWord off (mergeWord r (d.word off) w)) m off then some Reason.value else none

theorem Dev.writeReason_row {r : RegRow} (htable : inTable off = false) (hvec : inVectors off = false) (hreg : findReg off = some r) :
    d.writeReason m off false w = d.rowReason r m off w := by
  rw [Dev.writeReason, hvec, htable, if_neg (by decide), if_neg (by decide), hreg]
  rfl

theorem Dev.setupOpen_iff : d.setupOpen m = true ↔ d.devState = DevSt.setup ∨ (d.devState = DevSt.boot ∧ m = .imset ∧ d.sys.applying = true) := by
  rw [Dev.setupOpen, Bool.or_eq_true, Bool.and_eq_true, Bool.and_eq_true, beq_iff_eq, beq_iff_eq, beq_iff_eq, and_assoc]

theorem fieldsLegal_false {r : RegRow} (h : ∃ f ∈ r.fields, f.acc = .rw ∧ ∃ l, f.legal = some l ∧
    ∀ x ∈ l, getBits w f.lo f.width < x.1 ∨ x.2 < getBits w f.lo f.width) : fieldsLegal r w = false := by
  obtain ⟨f, hf, hacc, l, hl, hout⟩ := h
  rw [fieldsLegal, List.all_eq_false]
  refine ⟨f, hf, ?_⟩
  rw [hacc, hl]
  dsimp only
  rw [Bool.not_eq_true, List.any_eq_false]
  intro x hx
  rw [Bool.and_eq_true, Nat.ble_eq, Nat.ble_eq]
  have := hout x hx
  omega

end

/-! ### Merging by access codes (R2) -/

/-- What a field reads after a write of `w` that is accepted. -/
def FieldRow.merged (f : FieldRow) (old w : Word) : Nat :=
  match f.acc with
  | .ro => getBits old f.lo f.width
  | .rw => getBits w f.lo f.width
  | .w1c => getBits old f.lo f.width &&& (2 ^ f.width - 1 - getBits w f.lo f.width)
  | .w1s => getBits old f.lo f.width ||| getBits w f.lo f.width

/-- Two fields of a register without a common bit. -/
def FieldRow.disjoint (f g : FieldRow) : Bool := Nat.ble (f.lo + f.width) g.lo || Nat.ble (g.lo + g.width) f.lo

/-- The fields of a register lie in its 32 bits, without overlap. -/
def RegRow.sound (r : RegRow) : Bool :=
  r.fields.all (fun f => Nat.ble (f.lo + f.width) 32) && decide (r.fields.Pairwise fun f g => f.disjoint g = true)

theorem getBits_mergeField_self {f : FieldRow} (h : f.lo + f.width ≤ 32) (w acc : Word) :
    getBits (mergeField w acc f) f.lo f.width = f.merged acc w := by
  have hold := getBits_lt acc f.lo f.width
  have hnew := getBits_lt w f.lo f.width
  rw [FieldRow.merged, mergeField]
  cases f.acc with
  | ro => rfl
  | rw => exact (getBits_putBits _ _ _ _ h).trans (Nat.mod_eq_of_lt hnew)
  | w1c => exact (getBits_putBits _ _ _ _ h).trans (Nat.mod_eq_of_lt (Nat.lt_of_le_of_lt Nat.and_le_left hold))
  | w1s => exact (getBits_putBits _ _ _ _ h).trans (Nat.mod_eq_of_lt (Nat.or_lt_two_pow hold hnew))

theorem getBits_mergeField_other {f g : FieldRow} (hg : g.lo + g.width ≤ 32) (hd : g.disjoint f = true) (w acc : Word) :
    getBits (mergeField w acc g) f.lo f.width = getBits acc f.lo f.width := by
  have hapart : f.lo + f.width ≤ g.lo ∨ g.lo + g.width ≤ f.lo := by
    rw [FieldRow.disjoint, Bool.or_eq_true, Nat.ble_eq, Nat.ble_eq] at hd
    exact hd.symm
  rw [mergeField]
  split
  · rfl
  · exact getBits_putBits_other _ _ _ _ _ _ hg hapart
  · exact getBits_putBits_other _ _ _ _ _ _ hg hapart
  · exact getBits_putBits_other _ _ _ _ _ _ hg hapart

theorem getBits_merge_later {l : List FieldRow} {f : FieldRow} (hl : ∀ g ∈ l, g.lo + g.width ≤ 32 ∧ g.disjoint f = true) (w : Word) :
    ∀ acc, getBits (l.foldl (mergeField w) acc) f.lo f.width = getBits acc f.lo f.width := by
  induction l with
  | nil => exact fun _ => rfl
  | cons g l ih =>
    intro acc
    obtain ⟨hg, hd⟩ := hl g (.head _)
    exact (ih (fun x hx => hl x (.tail _ hx)) _).trans (getBits_mergeField_other hg hd w acc)

theorem FieldRow.disjoint_symm {f g : FieldRow} (h : f.disjoint g = true) : g.disjoint f = true := by
  rw [FieldRow.disjoint, Bool.or_comm]
  exact h

theorem FieldRow.merged_congr {f : FieldRow} {old old' : Word} (h : getBits old f.lo f.width = getBits old' f.lo f.width) (w : Word) :
    f.merged old w = f.merged old' w := by
  rw [FieldRow.merged, FieldRow.merged, h]

theorem getBits_merge {l : List FieldRow} (hb : ∀ g ∈ l, g.lo + g.width ≤ 32) (hp : l.Pairwise fun f g => f.disjoint g = true) (w : Word) :
    ∀ old, ∀ f ∈ l, getBits (l.foldl (mergeField w) old) f.lo f.width = f.merged old w := by
  induction l with
  | nil => exact fun _ _ h => nomatch h
  | cons g l ih =>
    intro old f hf
    rw [List.pairwise_cons] at hp
    obtain ⟨hfirst, hrest⟩ := hp
    rcases List.mem_cons.mp hf with rfl | hf
    · refine (getBits_merge_later (fun x hx => ⟨hb x (.tail _ hx), FieldRow.disjoint_symm (hfirst x hx)⟩) w _).trans ?_
      exact getBits_mergeField_self (hb f (.head _)) w old
    · refine (ih (fun x hx => hb x (.tail _ hx)) hrest _ f hf).trans (FieldRow.merged_congr ?_ w)
      exact getBits_mergeField_other (hb g (.head _)) (hfirst f hf) w old

theorem getBits_mergeWord {r : RegRow} (h : r.sound = true) (old w : Word) :
    ∀ f ∈ r.fields, getBits (mergeWord r old w) f.lo f.width = f.merged old w := by
  rw [RegRow.sound, Bool.and_eq_true, List.all_eq_true, decide_eq_true_eq] at h
  obtain ⟨hb, hp⟩ := h
  exact getBits_merge (fun g hg => Nat.le_of_ble_eq_true (hb g hg)) hp w old

/-! ### The Device page -/

theorem devicePage_sound : (regPage 0).all RegRow.sound = true := by decide

theorem findReg_device {off : Nat} {r : RegRow} (hoff : off < 0x4000) (hreg : findReg off = some r) : r.sound = true := by
  rw [findReg, Nat.div_eq_of_lt hoff] at hreg
  exact List.all_eq_true.mp devicePage_sound r (List.mem_of_find?_eq_some hreg)

/-- The registers of the Device page whose writes command something are not of class S. -/
theorem findReg_commands {off : Nat} {r : RegRow} (hreg : findReg off = some r) (hcls : r.cls = .S) :
    off ≠ F.DEV_SEAL_CTRL.off 0 0 ∧ off ≠ F.PWR_SLEEP_CTRL.off 0 0 ∧ off ≠ F.FAB_WRITE_ERR.off 0 0 := by
  have hclass : (findReg off).map RegRow.cls = some .S := by rw [hreg, Option.map_some, hcls]
  refine ⟨?_, ?_, ?_⟩
  · rintro rfl
    exact absurd hclass (by decide)
  · rintro rfl
    exact absurd hclass (by decide)
  · rintro rfl
    exact absurd hclass (by decide)

theorem Fd.hits_below {f : Fd} {n off : Nat} (h : off < f.base) : f.hits n off = false := by
  have hble : Nat.ble f.base off = false := Bool.eq_false_iff.mpr fun hb => absurd (Nat.le_of_ble_eq_true hb) (by omega)
  rw [Fd.hits, hble]
  rfl

section
variable {d : Dev} {m : Master} {off : Nat} {w : Word} {r : RegRow}

theorem Dev.commandReason_device (hoff : off < 0x4000) (hseal : off ≠ F.DEV_SEAL_CTRL.off 0 0) : d.commandReason m off w = none := by
  have hqp : F.HI_QP_CTRL.hits 64 off = false := Fd.hits_below (Nat.lt_of_lt_of_le hoff (by decide))
  have hcan : F.CN_CTRL.hits 8 off = false := Fd.hits_below (Nat.lt_of_lt_of_le hoff (by decide))
  rw [Dev.commandReason, if_neg hseal, hqp, hcan]
  rfl

/-- The row's class lets the master write it now: the reasons that are left. -/
theorem Dev.rowReason_open (hsafety : r.cls = .T → m = .sc) (hopen : r.cls = .S → d.setupOpen m = true) : d.rowReason r m off w =
    if d.regFenced off && !answersFenced off then some Reason.fenced
    else if !fieldsLegal r w then some Reason.value
    else
      match d.commandReason m off w with
      | some why => some why
      | none => if d.refuses (d.setWord off (mergeWord r (d.word off) w)) m off then some Reason.value else none := by
  have hclass : ¬(r.cls = .T ∧ m ≠ .sc) := fun ⟨h, hm⟩ => hm (hsafety h)
  have hseal : ¬(r.cls = .S ∧ d.setupOpen m = false) := fun ⟨h, hclosed⟩ => absurd ((hopen h).symm.trans hclosed) (by decide)
  rw [Dev.rowReason, if_neg hclass, if_neg hseal]

theorem Dev.rowReason_accepts (hopen : d.setupOpen m = true) (hcls : r.cls = .S) (hfence : d.regFenced off = false) (hlegal : fieldsLegal r w = true)
    (hoff : off < 0x4000) (hseal : off ≠ F.DEV_SEAL_CTRL.off 0 0)
    (hrefuse : d.refuses (d.setWord off (mergeWord r (d.word off) w)) m off = false) : d.rowReason r m off w = none := by
  rw [Dev.rowReason_open (fun h => absurd (hcls.symm.trans h) (by decide)) fun _ => hopen, hfence, hlegal, Dev.commandReason_device hoff hseal,
    Bool.false_and, if_neg (by decide), if_neg (by decide)]
  dsimp only
  rw [hrefuse, if_neg (by decide)]

/-- A stored register of the Device page; one of the fabric rail's in FIXED mode sets the rail. -/
def Dev.storeDevice (d : Dev) (off : Nat) (new : Word) : Dev :=
  if off = F.PWR_FAB_CFG.off 0 0 then
    let d := d.setWord off new
    if d.rd F.PWR_FAB_CFG_mode 0 = 2 then d.onPw fun p => { p with mv := 720 + 10 * d.rd F.PWR_FAB_CFG_vset 0 } else d
  else d.setWord off new

theorem Dev.store_device (hoff : off < 0x4000) (hreg : findReg off = some r) (hcls : r.cls = .S) :
    d.store m off w = d.storeDevice off (mergeWord r (d.word off) w) := by
  obtain ⟨hseal, hsleep, herr⟩ := findReg_commands hreg hcls
  have hpage : off / 0x4000 = 0 := Nat.div_eq_of_lt hoff
  have hvec : inVectors off = false := by
    rw [inVectors, inMsix, Bool.eq_false_iff]
    intro h
    simp only [Bool.or_eq_true, Bool.and_eq_true, Nat.ble_eq] at h
    omega
  have htable : inTable off = false := by
    rw [inTable, Bool.eq_false_iff]
    intro h
    simp only [Bool.and_eq_true, Nat.ble_eq] at h
    omega
  rw [Dev.store, hvec, htable, if_neg (by decide), if_neg (by decide), hreg]
  dsimp only
  rw [if_pos hpage, Dev.devWritten]
  dsimp only
  rw [if_neg hseal, if_neg hsleep, if_neg herr]
  rfl

theorem Dev.storeDevice_shows (d : Dev) (off : Nat) (new : Word) : let n := d.storeDevice off new
    n.word off = new ∧ (∀ o, o ≠ off → n.word o = d.word o) ∧ (off ≠ F.PWR_FAB_CFG.off 0 0 ∨ n.rd F.PWR_FAB_CFG_mode 0 ≠ 2 → n.pw = d.pw) ∧
      (off = F.PWR_FAB_CFG.off 0 0 → n.rd F.PWR_FAB_CFG_mode 0 = 2 → n.pw = { d.pw with mv := 720 + 10 * n.rd F.PWR_FAB_CFG_vset 0 }) ∧
      n.sys = d.sys ∧ n.be = d.be := by
  have hself : (d.setWord off new).word off = new := by rw [Dev.word_setWord, if_pos rfl]
  have hother : ∀ o, o ≠ off → (d.setWord off new).word o = d.word o := fun o ho => by rw [Dev.word_setWord, if_neg ho]
  have hpw : (d.setWord off new).pw = d.pw := rfl
  have hsys : (d.setWord off new).sys = d.sys := rfl
  have hbe : (d.setWord off new).be = d.be := rfl
  unfold Dev.storeDevice
  dsimp only
  generalize d.setWord off new = e at *
  split
  case isTrue hrail =>
    split
    case isTrue hmode =>
      refine ⟨hself, hother, ?_, fun _ _ => ?_, hsys, hbe⟩
      · rintro (hne | hne)
        · exact absurd hrail hne
        · exact absurd hmode hne
      · rw [← hpw]
        rfl
    case isFalse hmode => exact ⟨hself, hother, fun _ => hpw, fun _ hyes => absurd hyes hmode, hsys, hbe⟩
  case isFalse hrail => exact ⟨hself, hother, fun _ => hpw, fun hyes => absurd hyes hrail, hsys, hbe⟩

end

end Sys2Proof.Machine
end

section
namespace Sys2Proof.Machine

theorem Dev.busWrite_word (d : Dev) (m : Master) {off : Nat} (h : off % 4 = 0) (data : DWord) :
    d.busWrite m off 4 data = d.writeWord m off (data.extractLsb' 0 32) := by
  rw [Dev.busWrite]
  dsimp only
  rw [if_neg (by omega), if_pos ⟨rfl, h⟩]

theorem Dev.writeWord_rejected {d : Dev} {m : Master} {off why : Nat} {w : Word} (h : d.writeReason m off false w = some why) :
    d.writeWord m off w = d.reject m off why w := by
  rw [Dev.writeWord, h]

theorem Dev.writeWord_stored {d : Dev} {m : Master} {off : Nat} {w : Word} (h : d.writeReason m off false w = none) :
    d.writeWord m off w = d.store m off w := by
  rw [Dev.writeWord, h]

theorem inTable_aligned {off : Nat} (h : inTable off = false) : inTable (off / 4 * 4) = false := by
  rw [inTable, Bool.and_eq_false_iff, Nat.blt] at h ⊢
  simp only [← Bool.not_eq_true, Nat.ble_eq] at h ⊢
  omega

theorem inVectors_aligned {off : Nat} (h : inVectors off = false) : inVectors (off / 4 * 4) = false := by
  rw [inVectors, inMsix, Bool.or_eq_false_iff, Bool.and_eq_false_iff, Bool.and_eq_false_iff, Nat.blt, Nat.blt] at h ⊢
  simp only [← Bool.not_eq_true, Nat.ble_eq] at h ⊢
  omega

theorem Dev.busWrite_narrow (d : Dev) (m : Master) {off bytes : Nat} {r : RegRow} (htable : inTable off = false) (hvec : inVectors off = false)
    (hreg : findReg (off / 4 * 4) = some r) (hb : bytes = 1 ∨ bytes = 2 ∨ (bytes = 4 ∧ off % 4 ≠ 0)) (data : DWord) :
    d.busWrite m off bytes data =
      d.reject m off Reason.width (BitVec.ofNat 32 (data.toNat % 2 ^ (8 * bytes) * 2 ^ (8 * (off % 4)))) := by
  have hmin : min bytes 4 = bytes := by omega
  rw [Dev.busWrite]
  dsimp only
  rw [if_neg (by omega), if_neg (by omega), Dev.writeReason_narrow (inTable_aligned htable) (inVectors_aligned hvec) hreg, hmin]

/-- Settles O49: the checks are one cascade, read from the top; what is stored merges field by field because the fields of a register do
not overlap, and no class S register of the Device page commands anything but the rail. -/
theorem writesAreChecked : Obligations.WritesAreChecked := by
  unfold Obligations.WritesAreChecked
  intro s t off bytes m data d w owner c recorded mayApply
  refine ⟨?held, fun hmay hoff htable hvec => ⟨?unmapped, ?narrow, ?row⟩⟩
  case held =>
    intro hheld
    exact Does.of_effect (show exec c s = execRegisterWrite t m off bytes data s from rfl)
      (if_neg (by rw [show (s.arrive t).mayStore m = false from hheld]; decide))
  case unmapped =>
    intro hbytes halign hreg
    refine Does.of_master (show exec c s = execRegisterWrite t m off bytes data s from rfl) ?_
    rw [if_pos (show (s.now t).mayStore m = true from hmay)]
    subst hbytes
    rw [Dev.busWrite_word _ _ halign, Dev.writeWord_rejected (Dev.writeReason_unmapped htable hvec hreg)]
    exact Dev.reject_rejected _ _ _ hoff (by decide)
  case narrow =>
    intro r hreg hb
    refine Does.of_master (show exec c s = execRegisterWrite t m off bytes data s from rfl) ?_
    rw [if_pos (show (s.now t).mayStore m = true from hmay)]
    rw [Dev.busWrite_narrow _ _ htable hvec hreg hb]
    exact Dev.reject_rejected _ _ _ hoff (by decide)
  case row =>
    intro r hbytes halign hreg
    subst hbytes
    have hdoes : ∀ {P : Dev → Prop}, P ((s.now t).writeWord m off w) → Does s c P := fun h =>
      Does.of_master (show exec c s = execRegisterWrite t m off 4 data s from rfl) (by
        rw [if_pos (show (s.now t).mayStore m = true from hmay), Dev.busWrite_word _ _ halign]
        exact h)
    have hrow := Dev.writeReason_row (d := d) (m := m) (w := w) htable hvec hreg
    have hrejects : ∀ {why : Nat}, d.rowReason r m off w = some why → why < 16 → Does s c (recorded why w) := fun h hwhy =>
      hdoes (by rw [Dev.writeWord_rejected (hrow.trans h)]; exact Dev.reject_rejected d m w hoff hwhy)
    refine ⟨fun hcls hm => hrejects ?_ (by decide), fun hcls hnot => hrejects ?_ (by decide), fun hsafety hopen => ⟨?_, ?_, ?_⟩⟩
    · rw [Dev.rowReason, if_pos ⟨hcls, hm⟩]
    · have hclosed : d.setupOpen m = false := Bool.eq_false_iff.mpr fun h => hnot (Dev.setupOpen_iff.mp h)
      rw [Dev.rowReason, hcls, if_neg (by rintro ⟨h, -⟩; exact absurd h (by decide)), if_pos ⟨rfl, hclosed⟩]
    · intro hfence hplain
      refine hrejects ?_ (by decide)
      rw [Dev.rowReason_open hsafety fun h => Dev.setupOpen_iff.mpr (hopen h), hfence, hplain]
      rfl
    · intro hfree hillegal
      refine hrejects ?_ (by decide)
      rw [Dev.rowReason_open hsafety fun h => Dev.setupOpen_iff.mpr (hopen h), hfree, fieldsLegal_false hillegal]
      rfl
    · intro hcls hfree hlegal hdev hrefuse
      obtain ⟨hseal, -, -⟩ := findReg_commands hreg hcls
      have hreason := Dev.rowReason_accepts (Dev.setupOpen_iff.mpr (hopen hcls)) hcls hfree hlegal hdev hseal hrefuse
      refine hdoes ?_
      rw [Dev.writeWord_stored (hrow.trans hreason), Dev.store_device hdev hreg hcls]
      obtain ⟨hself, hother, hpw⟩ := d.storeDevice_shows off (mergeWord r (d.word off) w)
      refine ⟨fun f hf => ?_, hother, hpw⟩
      rw [hself, getBits_mergeWord (findReg_device hdev hreg) _ _ f hf]
      rfl

end Sys2Proof.Machine
end

section
/-! The engine pool's inputs (R13, R152 to R155, R175, R187): what the start of runs leaves of the records and of a ready loop, and how
records pass their gate. -/

namespace Sys2Proof.Machine

/-! ### What the start of runs leaves -/

/-- A property of the device that neither other parts, nor table memory, engines and the order of readiness, nor a loop's record with the
same readiness make false. -/
structure PoolLasts (P : Dev → Prop) : Prop where
  keeps : ∀ {w : Foot} {d e : Dev}, P d → Keeps w d e → Part.be ∉ w.parts → P e
  lt : ∀ {d : Dev} off v, P d → P (d.setLt off v)
  eng : ∀ {d : Dev} x v, P d → P (d.setEng x v)
  loop : ∀ {d : Dev} l v, P d → v.waiting = (d.loop l).waiting → v.readyAt = (d.loop l).readyAt → P (d.setLoop l v)

/-- The written state of loop l clamped into the bounds of a bank, with the first operation that clamped. -/
def Dev.clampState (d : Dev) (l bank : Nat) : Dev × Option Nat :=
  (List.range (d.rd F.BE_LP_PROG_length l)).foldl (init := (d, none)) fun x i =>
    (opSections (x.1.opWord l i)).foldl (Dev.swapSection l bank i) x

/-- The end of a swap that took effect. -/
def Dev.swapDone (d : Dev) (l bank : Nat) (first : Option Nat) : Dev :=
  let d := (d.wr F.BE_LP_SWAP_active l bank).put F.BE_LP_SWAP_pending l false
  let d := (d.wr F.BE_LP_SWAP_status l Code.OK).onLoop l fun v => { v with swapArmed := false, swapDue := false }
  match first with
  | none => d
  | some i =>
    let d := (d.put F.BE_LP_FLAGS_sat l true).put F.BE_LP_FLAGS_swap_clamp l true
    d.report Kind.loop l Cls.report Code.SWAP_CLAMP i

theorem Dev.applySwap_eq (d : Dev) (l : Nat) : d.applySwap l =
    (d.clampState l (d.rd F.BE_LP_SWAP_bank l)).1.swapDone l (d.rd F.BE_LP_SWAP_bank l) (d.clampState l (d.rd F.BE_LP_SWAP_bank l)).2 := rfl

section
variable {P : Dev → Prop}

theorem foldl_fst_preserves {α β : Type} {f : Dev × β → α → Dev × β} (h : ∀ x a, P x.1 → P (f x a).1) (l : List α) :
    ∀ x, P x.1 → P (l.foldl f x).1 := by
  induction l with
  | nil => exact fun _ hx => hx
  | cons a l ih => exact fun x hx => ih _ (h x a hx)

variable (hP : PoolLasts P)

include hP

theorem PoolLasts.swapSection (l bank op : Nat) (x : Dev × Option Nat) (sec : Nat × Nat) (h : P x.1) : P (Dev.swapSection l bank op x sec).1 := by
  refine foldl_fst_preserves (fun y j hy => ?_) _ x h
  dsimp only
  split
  · exact hP.lt _ _ hy
  · exact hy

theorem PoolLasts.clampState {d : Dev} (h : P d) (l bank : Nat) : P (d.clampState l bank).1 :=
  foldl_fst_preserves (fun x i hx => foldl_fst_preserves (fun y sec hy => hP.swapSection l bank i y sec hy) _ x hx) _ (d, none) h

theorem PoolLasts.swapDone {d : Dev} (h : P d) (l bank : Nat) (first : Option Nat) : P (d.swapDone l bank first) := by
  have hwords := hP.keeps (hP.keeps (hP.keeps h (d.wr_keeps F.BE_LP_SWAP_active l bank (by decide)) (by decide))
    (Dev.put_keeps _ F.BE_LP_SWAP_pending l false (by decide)) (by decide)) (Dev.wr_keeps _ F.BE_LP_SWAP_status l Code.OK (by decide)) (by decide)
  have hloop := hP.loop l { Dev.loop _ l with swapArmed := false, swapDue := false } hwords rfl rfl
  cases first with
  | none => exact hloop
  | some i =>
    exact hP.keeps (hP.keeps (hP.keeps hloop (Dev.put_keeps _ F.BE_LP_FLAGS_sat l true (by decide)) (by decide))
      (Dev.put_keeps _ F.BE_LP_FLAGS_swap_clamp l true (by decide)) (by decide)) (Dev.report_keeps _ Kind.loop l Cls.report Code.SWAP_CLAMP i 0) (by decide)

theorem PoolLasts.applySwap {d : Dev} (h : P d) (l : Nat) : P (d.applySwap l) := by
  rw [Dev.applySwap_eq]
  exact hP.swapDone (hP.clampState h l _) l _ _

theorem PoolLasts.startRun {d : Dev} (h : P d) (e l : Nat) : P (d.startRun e l) := by
  have hswap : P (if (d.loop l).swapDue && d.flag F.BE_LP_SWAP_pending l then d.applySwap l else d) := by
    split
    · exact hP.applySwap h l
    · exact h
  exact hP.eng _ _ (hP.loop l _ hswap rfl rfl)

theorem PoolLasts.dispatchAll {d : Dev} (h : P d) : P d.dispatchAll := by
  have hdispatch : ∀ {e : Dev} x, P e → P (e.dispatch x) := fun {e} x he => by
    unfold Dev.dispatch
    dsimp only
    split
    · exact he
    · split
      · exact he
      · exact hP.startRun he ..
  exact hP.keeps (Dev.each_preserves (fun _ x _ he => hdispatch x he) d h) (Dev.showPool_keeps _) (by decide)

end

/-! ### The records at the pool -/

/-- From d to e the records of stages and latches stay, and those on their way. -/
def Dev.SameRecords (d e : Dev) : Prop := e.be.flight = d.be.flight ∧ (∀ k, e.recs k = d.recs k) ∧ ∀ p k, e.latRec p k = d.latRec p k

theorem Dev.SameRecords.refl (d : Dev) : d.SameRecords d := ⟨rfl, fun _ => rfl, fun _ _ => rfl⟩

theorem Dev.SameRecords.of_be {d e g : Dev} (h : d.SameRecords e) (hflight : g.be.flight = e.be.flight) (hrecs : g.be.recs = e.be.recs)
    (hlat : g.be.lat = e.be.lat) : d.SameRecords g := by
  obtain ⟨hf, hr, hl⟩ := h
  refine ⟨hflight.trans hf, fun k => ?_, fun p k => ?_⟩
  · rw [← hr, Dev.recs, Dev.recs, hrecs]
  · rw [← hl, Dev.latRec, Dev.latRec, hlat]

theorem Dev.SameRecords.lasts (d : Dev) : PoolLasts d.SameRecords where
  keeps h hk hp := h.of_be (congrArg Be.flight (hk.parts .be hp)) (congrArg Be.recs (hk.parts .be hp)) (congrArg Be.lat (hk.parts .be hp))
  lt _ _ h := h.of_be rfl rfl rfl
  eng _ _ h := h.of_be rfl rfl rfl
  loop _ _ h _ _ := h.of_be rfl rfl rfl

theorem Dev.SameRecords.onLoop {d e : Dev} (h : d.SameRecords e) (l : Nat) (f : LoopT → LoopT) : d.SameRecords (e.onLoop l f) := h.of_be rfl rfl rfl

theorem Dev.SameRecords.becomeReady {d e : Dev} (h : d.SameRecords e) (l : Nat) : d.SameRecords (e.becomeReady l) := by
  unfold Dev.becomeReady
  dsimp only
  split
  · exact (SameRecords.lasts d).applySwap (h.onLoop l _) l
  · exact h.onLoop l _

theorem Dev.SameRecords.wake {d e : Dev} (h : d.SameRecords e) (ls : List Nat) : d.SameRecords (e.wake ls) := by
  have heach : d.SameRecords (e.each ls fun d l => if (d.loop l).waiting && d.allHere l then d.becomeReady l else d) :=
    Dev.each_preserves (P := d.SameRecords) (fun g l _ hg => by
      split
      · exact hg.becomeReady l
      · exact hg) e h
  exact heach.of_be rfl rfl rfl

theorem Dev.wake_dispatch_sameRecords (d : Dev) (ls : List Nat) : d.SameRecords (d.wake ls).dispatchAll :=
  (SameRecords.lasts d).dispatchAll ((SameRecords.refl d).wake ls)

/-! ### A record arrives (R152, R153) -/

/-- The device without the i-th record on its way. -/
def Dev.passes (d : Dev) (i : Nat) : Dev := d.withBe { d.be with flight := d.be.flight.eraseIdx i }

theorem Does.of_arrival {s : State} {t i : Nat} {r : RecTok} {P : Dev → Prop} (hat : (s.now t).be.flight[i]? = some r)
    (hnext : (s.now t).nextOfGate i r = true) (hP : P (((s.now t).passes i).arriveRec r)) : Does s (.recordArrival t i) P := by
  refine Does.of_effect (show exec _ s = execRecordArrival t i s from rfl) ?_
  rw [hat]
  dsimp only
  rw [if_pos hnext]
  exact hP

theorem Does.of_held_record {s : State} {t i : Nat} {r : RecTok} {P : Dev → Prop} (hat : (s.now t).be.flight[i]? = some r)
    (hnext : (s.now t).nextOfGate i r = false) (hP : P (s.now t)) : Does s (.recordArrival t i) P := by
  refine Does.of_effect (show exec _ s = execRecordArrival t i s from rfl) ?_
  rw [hat]
  dsimp only
  rw [hnext, if_neg (by decide)]
  exact hP

theorem Dev.recs_setRecs (d : Dev) (k i : Nat) (v : StageRec) : (d.setRecs k v).recs i = if i = k then v else d.recs i := Tbl.get_set ..

theorem Dev.latRec_setLatRec (d : Dev) (p k : Nat) (v : LatRec) : (d.setLatRec p k v).latRec p k = v :=
  (Tbl.get_set (fun _ => {}) d.be.lat (32 * p + k) (32 * p + k) v).trans (if_pos rfl)

section
variable {d : Dev} {k : Nat}

/-- A stage's record for its present beat is stored, and the loops of the stage wake. -/
def Dev.storeRecs (d : Dev) (k : Nat) (v : StageRec) : Dev :=
  let d := d.setRecs k v
  (d.wake (d.loops.filter fun l => d.home l == k)).dispatchAll

theorem Dev.storeRecs_shows (d : Dev) (k : Nat) (v : StageRec) : (d.storeRecs k v).be.flight = d.be.flight ∧ (d.storeRecs k v).recs k = v := by
  have hset : (d.setRecs k v).recs k = v := by rw [Dev.recs_setRecs, if_pos rfl]
  have hkept : (d.setRecs k v).be.flight = d.be.flight := rfl
  unfold Dev.storeRecs
  dsimp only
  generalize d.setRecs k v = e at hset hkept ⊢
  obtain ⟨hflight, hrecs, -⟩ := e.wake_dispatch_sameRecords (e.loops.filter fun l => e.home l == k)
  exact ⟨hflight.trans hkept, (hrecs k).trans hset⟩

theorem Dev.arriveRec_shunt (isB : Bool) (rec : ShRec) : let n := d.arriveRec (.shunt k isB rec (d.upd k))
    n.be.flight = d.be.flight ∧ (if isB then (n.recs k).b else (n.recs k).a) = some rec := by
  have heq : d.arriveRec (.shunt k isB rec (d.upd k)) =
      d.storeRecs k (if isB then { d.recs k with b := some rec } else { d.recs k with a := some rec }) := if_pos rfl
  obtain ⟨hflight, hrecs⟩ := d.storeRecs_shows k (if isB then { d.recs k with b := some rec } else { d.recs k with a := some rec })
  dsimp only
  rw [heq, hrecs]
  refine ⟨hflight, ?_⟩
  cases isB with
  | false => rfl
  | true => rfl

theorem Dev.arriveRec_shunt_old {beat : Nat} (h : beat ≠ d.upd k) (isB : Bool) (rec : ShRec) : d.arriveRec (.shunt k isB rec beat) = d := by
  rw [Dev.arriveRec, if_neg h]

theorem Dev.arriveRec_house (dv pv tn : Word) : let n := d.arriveRec (.house k dv pv tn (d.upd k))
    n.be.flight = d.be.flight ∧ (n.recs k).hk = some (dv, pv, tn) := by
  have heq : d.arriveRec (.house k dv pv tn (d.upd k)) = d.storeRecs k { d.recs k with hk := some (dv, pv, tn) } := if_pos rfl
  obtain ⟨hflight, hrecs⟩ := d.storeRecs_shows k { d.recs k with hk := some (dv, pv, tn) }
  dsimp only
  rw [heq, hrecs]
  exact ⟨hflight, rfl⟩

theorem Dev.arriveRec_edge (stamp count : Nat) : let n := d.arriveRec (.edge k true stamp count)
    n.be.flight = d.be.flight ∧ (n.recs k).rise = stamp ∧ (n.recs k).edges = count := by
  dsimp only [Dev.arriveRec]
  rw [if_pos rfl, Dev.recs_setRecs, if_pos rfl]
  exact ⟨rfl, rfl, rfl⟩

/-- The loops that take latches of port p at the gate of stage k for a beat. -/
def Dev.latchLoops (d : Dev) (p k beat : Nat) : List Nat :=
  d.loops.filter fun l => d.rd F.BE_LP_IN_lat_port l == p && d.home l == k && (d.loop l).beat == beat

theorem Dev.latchLoops_wait (p beat : Nat) : ((d.latchLoops p k beat).any fun l => (d.loop l).waiting) = true ↔
    ∃ l ∈ d.loops, d.rd F.BE_LP_IN_lat_port l = p ∧ d.home l = k ∧ (d.loop l).beat = beat ∧ (d.loop l).waiting = true := by
  simp only [List.any_eq_true, Dev.latchLoops, List.mem_filter, Bool.and_eq_true, beq_iff_eq, and_assoc]

theorem Dev.arriveRec_latch_taken {p beat : Nat} (rec : LatRec)
    (h : (decide (beat = d.upd k) || (d.latchLoops p k beat).any fun l => (d.loop l).waiting) = true) :
    let n := d.arriveRec (.latch p k beat rec)
    n.be.flight = d.be.flight ∧ n.latRec p k = { rec with beat := some beat } := by
  have heq : d.arriveRec (.latch p k beat rec) = ((((d.setLatRec p k { rec with beat := some beat }).each (d.latchLoops p k beat) fun d l =>
      d.onLoop l fun v => { v with latHere := true }).wake (d.latchLoops p k beat)).dispatchAll) := if_pos h
  dsimp only
  rw [heq]
  have hset := d.latRec_setLatRec p k { rec with beat := some beat }
  have hkept : (d.setLatRec p k { rec with beat := some beat }).be.flight = d.be.flight := rfl
  generalize d.setLatRec p k { rec with beat := some beat } = e at hset hkept ⊢
  have hhere : e.SameRecords (e.each (d.latchLoops p k beat) fun d l => d.onLoop l fun v => { v with latHere := true }) :=
    Dev.each_preserves (P := e.SameRecords) (fun _ l _ hg => hg.onLoop l _) e (.refl e)
  generalize (e.each (d.latchLoops p k beat) fun d l => d.onLoop l fun v => { v with latHere := true }) = g at hhere ⊢
  obtain ⟨hf, -, hl⟩ := hhere
  obtain ⟨hf', -, hl'⟩ := g.wake_dispatch_sameRecords (d.latchLoops p k beat)
  exact ⟨hf'.trans (hf.trans hkept), by rw [hl', hl, hset]⟩

theorem Dev.arriveRec_latch_old {p beat : Nat} (rec : LatRec)
    (h : (decide (beat = d.upd k) || (d.latchLoops p k beat).any fun l => (d.loop l).waiting) = false) : d.arriveRec (.latch p k beat rec) = d :=
  if_neg (by rw [Bool.not_eq_true]; exact (show (decide (beat = d.upd k) || (d.latchLoops p k beat).any fun l => (d.loop l).waiting) = false from h))

end

/-! ### The start limit (R153, R154) -/

/-- Loop l is ready since `at'`. -/
def Dev.ReadyAt (l at' : Nat) (d : Dev) : Prop := (d.loop l).waiting = false ∧ (d.loop l).readyAt = at'

theorem Dev.ReadyAt.congr {l at' : Nat} {d e : Dev} (h : d.ReadyAt l at') (hloop : e.be.loops = d.be.loops) : e.ReadyAt l at' := by
  rwa [Dev.ReadyAt, Dev.loop, hloop]

theorem Dev.ReadyAt.lasts (l at' : Nat) : PoolLasts (Dev.ReadyAt l at') where
  keeps h hk hp := h.congr (congrArg Be.loops (hk.parts .be hp))
  lt _ _ h := h.congr rfl
  eng _ _ h := h.congr rfl
  loop := by
    intro d k v h hw hr
    obtain ⟨hwait, hready⟩ := h
    rw [Dev.ReadyAt, Dev.loop_setLoop]
    split
    case isTrue hk =>
      subst hk
      exact ⟨hw.trans hwait, hr.trans hready⟩
    case isFalse => exact ⟨hwait, hready⟩

theorem Dev.becomeReady_readyAt (d : Dev) (l : Nat) : (d.becomeReady l).ReadyAt l d.time := by
  have hset : ∀ f : LoopT → LoopT, (f (d.loop l)).waiting = false → (f (d.loop l)).readyAt = d.time → (d.onLoop l f).ReadyAt l d.time :=
    fun f hw hr => by
      rw [Dev.ReadyAt, Dev.loop_onLoop, if_pos rfl]
      exact ⟨hw, hr⟩
  unfold Dev.becomeReady
  dsimp only
  split
  · exact (Dev.ReadyAt.lasts l d.time).applySwap (hset _ rfl rfl) l
  · exact hset _ rfl rfl

/-- A loop that is late: flag, count and report. -/
def Dev.inputLate (d : Dev) (l : Nat) : Dev :=
  ((d.put F.BE_LP_FLAGS_input_late l true).bump F.BE_LP_MISS_input_late l).reportOpen Kind.loop l Cls.report Code.INPUT_LATE

theorem Dev.inputLate_keeps (d : Dev) (l : Nat) :
    Keeps ⟨false, [F.BE_LP_MISS_input_late, F.BE_LP_FLAGS_input_late, F.FLT_STAT_lost, F.FLT_LOST], [.flt]⟩ d (d.inputLate l) :=
  (((d.put_keeps F.BE_LP_FLAGS_input_late l true (by decide)).within (by decide)).trans
    ((Dev.bump_keeps _ F.BE_LP_MISS_input_late l (by decide)).within (by decide))).trans ((Dev.reportOpen_keeps ..).within (by decide))

theorem Dev.inputLate_shows (d : Dev) (l : Nat) : (d.inputLate l).flag F.BE_LP_FLAGS_input_late l = true ∧
    (d.inputLate l).rd F.BE_LP_MISS_input_late l = min (d.rd F.BE_LP_MISS_input_late l + 1) 65535 := by
  have hput := d.put_keeps F.BE_LP_FLAGS_input_late l true (by decide)
  have hflag := Dev.flag_put d F.BE_LP_FLAGS_input_late l true (by decide) rfl
  have hcount := hput.rd F.BE_LP_MISS_input_late l (by decide)
  unfold Dev.inputLate
  generalize d.put F.BE_LP_FLAGS_input_late l true = e at hflag hcount ⊢
  have hbump := e.bump_keeps F.BE_LP_MISS_input_late l (by decide)
  have hshown := e.rd_bump F.BE_LP_MISS_input_late l (by decide)
  generalize e.bump F.BE_LP_MISS_input_late l = g at hbump hshown ⊢
  have hreport := g.reportOpen_keeps Kind.loop l Cls.report Code.INPUT_LATE
  refine ⟨?_, ?_⟩
  · rw [hreport.flag F.BE_LP_FLAGS_input_late l (by decide), hbump.flag F.BE_LP_FLAGS_input_late l (by decide), hflag]
  · rw [hreport.rd F.BE_LP_MISS_input_late l (by decide), hshown, hcount]
    rfl

/-- What follows a start limit that has passed. -/
def Dev.limitPassed (d : Dev) (l : Nat) : Dev :=
  let d := (if d.allHere l then d else d.inputLate l).becomeReady l
  (d.withBe { d.be with order := d.be.order + 1 }).dispatchAll

theorem Dev.limitPassed_shows (d : Dev) (l : Nat) : let n := d.limitPassed l
    (n.loop l).waiting = false ∧ (n.loop l).readyAt = d.time ∧
      (d.allHere l = false → n.flag F.BE_LP_FLAGS_input_late l = true ∧
        n.rd F.BE_LP_MISS_input_late l = min (d.rd F.BE_LP_MISS_input_late l + 1) 65535) := by
  obtain ⟨hflag, hcount⟩ := d.inputLate_shows l
  have htime : (if d.allHere l then d else d.inputLate l).time = d.time := by
    split
    · rfl
    · exact (d.inputLate_keeps l).time
  have hlate : d.allHere l = false → (if d.allHere l then d else d.inputLate l) = d.inputLate l := fun h => if_neg (by rw [h]; decide)
  dsimp only [Dev.limitPassed]
  generalize (if d.allHere l then d else d.inputLate l) = e at htime hlate ⊢
  have hready := e.becomeReady_readyAt l
  have hkeep := e.becomeReady_keeps l
  rw [htime] at hready
  generalize e.becomeReady l = g at hready hkeep ⊢
  have horder := g.withBe_keeps { g.be with order := g.be.order + 1 }
  have hstill : (g.withBe { g.be with order := g.be.order + 1 }).ReadyAt l d.time := hready.congr rfl
  generalize g.withBe { g.be with order := g.be.order + 1 } = j at horder hstill ⊢
  obtain ⟨hw, hr⟩ := (Dev.ReadyAt.lasts l d.time).dispatchAll hstill
  have hdispatch := j.dispatchAll_keeps
  refine ⟨hw, hr, fun h => ⟨?_, ?_⟩⟩
  · rw [hdispatch.flag F.BE_LP_FLAGS_input_late l (by decide), horder.flag F.BE_LP_FLAGS_input_late l (by decide),
      hkeep.flag F.BE_LP_FLAGS_input_late l (by decide), hlate h, hflag]
  · rw [hdispatch.rd F.BE_LP_MISS_input_late l (by decide), horder.rd F.BE_LP_MISS_input_late l (by decide),
      hkeep.rd F.BE_LP_MISS_input_late l (by decide), hlate h, hcount]

/-! ### Swaps and slack (R175, R187) -/

theorem Dev.requestSwap_shows {d : Dev} {l : Nat} (hfree : d.fenced Kind.loop l = false) (bank : Fin 2) : let n := d.requestSwap l bank
    n.rd F.BE_LP_SWAP_bank l = bank ∧ n.flag F.BE_LP_SWAP_pending l = (bank.val != d.activeBank l) ∧ n.activeBank l = d.activeBank l := by
  have hwr := d.wr_keeps F.BE_LP_SWAP_bank l bank (by decide)
  have hbank := Dev.rd_wr_of_lt d F.BE_LP_SWAP_bank l (v := bank) (by decide) bank.isLt
  have hactive : (d.wr F.BE_LP_SWAP_bank l bank).activeBank l = d.activeBank l := hwr.rd F.BE_LP_SWAP_active l (by decide)
  have heq : d.requestSwap l bank = let d := d.wr F.BE_LP_SWAP_bank l bank
      if bank = d.activeBank l then
        if d.flag F.BE_LP_SWAP_pending l then (d.put F.BE_LP_SWAP_pending l false).wr F.BE_LP_SWAP_status l Code.OK else d
      else if d.flag F.BE_LP_SWAP_pending l then d
      else (d.put F.BE_LP_SWAP_pending l true).onLoop l fun v => { v with swapArmed := false, swapDue := false } :=
    if_neg (by rw [hfree]; decide)
  dsimp only at heq ⊢
  rw [heq]
  generalize d.wr F.BE_LP_SWAP_bank l bank = e at hbank hactive ⊢
  rw [hactive]
  have hput := fun b => e.put_keeps F.BE_LP_SWAP_pending l b (by decide)
  have hset := fun b => Dev.flag_put e F.BE_LP_SWAP_pending l b (by decide) rfl
  split
  case isTrue hsame =>
    have hne : (bank.val != d.activeBank l) = false := by rw [hsame, bne_self_eq_false]
    rw [hne]
    split
    case isTrue =>
      have hstatus := (e.put F.BE_LP_SWAP_pending l false).wr_keeps F.BE_LP_SWAP_status l Code.OK (by decide)
      refine ⟨?_, ?_, ?_⟩
      · rw [hstatus.rd F.BE_LP_SWAP_bank l (by decide), (hput false).rd F.BE_LP_SWAP_bank l (by decide), hbank]
      · rw [hstatus.flag F.BE_LP_SWAP_pending l (by decide), hset]
      · rw [Dev.activeBank, hstatus.rd F.BE_LP_SWAP_active l (by decide), (hput false).rd F.BE_LP_SWAP_active l (by decide)]
        exact hactive
    case isFalse hoff => exact ⟨hbank, Bool.eq_false_iff.mpr hoff, hactive⟩
  case isFalse hother =>
    have hne : (bank.val != d.activeBank l) = true := bne_iff_ne.mpr hother
    rw [hne]
    split
    case isTrue hon => exact ⟨hbank, hon, hactive⟩
    case isFalse =>
      have hloop := (e.put F.BE_LP_SWAP_pending l true).onLoop_keeps l fun v => { v with swapArmed := false, swapDue := false }
      refine ⟨?_, ?_, ?_⟩
      · rw [hloop.rd F.BE_LP_SWAP_bank l (by decide), (hput true).rd F.BE_LP_SWAP_bank l (by decide), hbank]
      · rw [hloop.flag F.BE_LP_SWAP_pending l (by decide), hset]
      · rw [Dev.activeBank, hloop.rd F.BE_LP_SWAP_active l (by decide), (hput true).rd F.BE_LP_SWAP_active l (by decide)]
        exact hactive

theorem Dev.requestSwap_fenced {d : Dev} {l : Nat} (hfence : d.fenced Kind.loop l = true) (bank : Nat) :
    (d.requestSwap l bank).rd F.BE_LP_SWAP_status l = Code.FENCED ∧ (d.requestSwap l bank).rd F.BE_LP_SWAP_bank l = d.rd F.BE_LP_SWAP_bank l := by
  rw [Dev.requestSwap, if_pos hfence]
  exact ⟨Dev.rd_wr_of_lt d F.BE_LP_SWAP_status l (by decide) (by decide), (d.wr_keeps F.BE_LP_SWAP_status l _ (by decide)).rd F.BE_LP_SWAP_bank l (by decide)⟩

theorem Dev.restartSlack_shows {d : Dev} {l : Nat} (hfree : d.fenced Kind.loop l = false) (m : Master) :
    (d.restartSlack m l).rdInt F.BE_LP_SLACK_MIN_min l = 32767 ∧ (d.restartSlack m l).flag F.BE_LP_SLACK_MIN_restart l = true := by
  have hmin := Dev.rd_wr_of_lt d F.BE_LP_SLACK_MIN_min l (v := 0x7FFF) (by decide) (by decide)
  rw [Dev.restartSlack, hfree, if_neg (by decide)]
  generalize d.wr F.BE_LP_SLACK_MIN_min l 0x7FFF = e at hmin ⊢
  refine ⟨?_, Dev.flag_put e F.BE_LP_SLACK_MIN_restart l true (by decide) rfl⟩
  rw [Dev.rdInt, (e.put_keeps F.BE_LP_SLACK_MIN_restart l true (by decide)).rd F.BE_LP_SLACK_MIN_min l (by decide), hmin]
  rfl

end Sys2Proof.Machine
end

section
namespace Sys2Proof.Machine

/-- Settles O15: an arrival stores its record and then starts what can start, which leaves every record as it is; a loop made ready stays
ready since that instant however the engines go on. -/
theorem recordsAndReadiness : Obligations.RecordsAndReadiness := by
  unfold Obligations.RecordsAndReadiness
  intro s t d
  refine ⟨?held, ?shunt, ?old, ?house, ?latch, ?edge, ?ahead, ?limit, ?swap, ?fenced, ?slack⟩
  case held =>
    intro i x hat hnext
    exact Does.of_held_record hat hnext ⟨rfl, fun _ => rfl⟩
  case shunt =>
    intro i k isB rec hat hnext
    exact Does.of_arrival hat hnext (Dev.arriveRec_shunt (d := d.passes i) isB rec)
  case old =>
    intro i k isB rec beat hat hnext hold
    refine Does.of_arrival hat hnext ?_
    rw [Dev.arriveRec_shunt_old (d := (s.now t).passes i) hold isB rec]
    exact ⟨rfl, rfl⟩
  case house =>
    intro i k dv pv tn hat hnext
    exact Does.of_arrival hat hnext (Dev.arriveRec_house (d := d.passes i) dv pv tn)
  case latch =>
    intro i p k rec beat hat hnext
    refine Does.of_arrival hat hnext ?_
    have hwaits := (d.passes i).latchLoops_wait (k := k) p beat
    cases htake : (decide (beat = (d.passes i).upd k) || ((d.passes i).latchLoops p k beat).any fun l => ((d.passes i).loop l).waiting) with
    | true =>
      obtain ⟨hflight, hrec⟩ := Dev.arriveRec_latch_taken rec htake
      rw [Bool.or_eq_true, decide_eq_true_eq, hwaits] at htake
      refine ⟨hflight, fun _ => hrec, fun hne hno => ?_⟩
      rcases htake with hbeat | hwait
      · exact absurd hbeat hne
      · exact absurd hwait hno
    | false =>
      have heq := Dev.arriveRec_latch_old rec htake
      rw [Bool.or_eq_false_iff, decide_eq_false_iff_not] at htake
      obtain ⟨hbeat, hwait⟩ := htake
      rw [show ((s.now t).passes i).arriveRec (.latch p k beat rec) = d.passes i from heq]
      refine ⟨rfl, fun hyes => ?_, fun _ _ => rfl⟩
      rcases hyes with hyes | hyes
      · exact absurd hyes hbeat
      · exact absurd (hwaits.mpr hyes) (by rw [hwait]; decide)
  case edge =>
    intro i k stamp count hat hnext
    exact Does.of_arrival hat hnext (Dev.arriveRec_edge (d := d.passes i) stamp count)
  case ahead =>
    intro l _ _ hahead
    refine Does.of_effect (show exec _ s = execStartLimitExpiry t l s from rfl) ?_
    dsimp only
    rw [show s.now t = d from rfl, hahead, Bool.not_true, Bool.and_false, if_neg (by decide)]
    exact ⟨rfl, rfl⟩
  case limit =>
    intro l hwait hdue hahead
    refine Does.of_effect_eq (n := d.limitPassed l) (show exec _ s = execStartLimitExpiry t l s from rfl) ?_ (d.limitPassed_shows l)
    dsimp only
    rw [show s.now t = d from rfl, hwait, hahead, Nat.ble_eq_true_of_le hdue]
    rfl
  case swap =>
    intro l bank hfw hfree
    exact Does.of_firmware (show exec _ s = execCoeffSwapRequest t l bank s from rfl) hfw (Dev.requestSwap_shows hfree bank)
  case fenced =>
    intro l bank hfw hfence
    exact Does.of_firmware (show exec _ s = execCoeffSwapRequest t l bank s from rfl) hfw (Dev.requestSwap_fenced hfence bank)
  case slack =>
    intro m l hmay hfree
    refine Does.of_master (show exec _ s = execSlackMinRestart t m l s from rfl) ?_
    rw [if_pos (show (s.now t).mayStore m = true from hmay)]
    exact Dev.restartSlack_shows hfree m

end Sys2Proof.Machine
end

section
/-! Sections, fusee, let-down and plausibility (R164, R185, R186, R195, R198, R200): what each operation writes into its run. -/

namespace Sys2Proof.Machine

/-! ### Writes into a run -/

@[simp] theorem OpSt.raw_snd (x : OpSt) (k : Nat) (v : Word) : (x.raw k v).2 = x.2.put k v := rfl

theorem OpSt.IsSat.raw {x : OpSt} (h : x.IsSat) (k : Nat) (v : Word) : (x.raw k v).IsSat := h

/-! ### Sections (R164, R185, R186) -/

/-- The exact output of a section before its bounds, in units of 2^-62. -/
def Dev.sectionExact (d : Dev) (r : Run) (v : Int) (blk st : Nat) : Int :=
  let k (i : Nat) : Int := q31 (d.coef r.loop (d.activeBank r.loop) (blk + i))
  (k 0 * v + k 1 * r.val st + k 2 * r.val (st + 1) - k 3 * r.val (st + 2) - k 4 * r.val (st + 3)) *
    2 ^ ((d.coef r.loop (d.activeBank r.loop) (blk + 7)).toNat % 4)

/-- The bounds of a section in a run, in units of 2^-62. -/
def Dev.sectionBounds (d : Dev) (r : Run) (blk : Nat) : Int × Int :=
  let b := d.bounds r.loop (d.activeBank r.loop) blk r.raw
  (b.1 * one31, b.2 * one31)

/-- The bounded output of a section. -/
def Dev.sectionOut (d : Dev) (r : Run) (v : Int) (blk st : Nat) : Int :=
  bound (d.sectionBounds r blk).1 (d.sectionBounds r blk).2 (d.sectionExact r v blk st)

/-- The state of a section moves: input and output enter, and each passes its value on. -/
def Run.stepSection (r : Run) (st : Nat) (v z : Int) : Run :=
  (((r.put (st + 1) (r.raw st)).put st (qWord v)).put (st + 3) (r.raw (st + 2))).put (st + 2) (qWord (roundDiv z one31))

theorem OpSt.section_eq (x : OpSt) (v : Int) (blk st : Nat) : x.section v blk st =
    (OpSt.sat (x.1, x.2.stepSection st v (x.1.sectionOut x.2 v blk st))
      (clamps (x.1.sectionBounds x.2 blk).1 (x.1.sectionBounds x.2 blk).2 (x.1.sectionExact x.2 v blk st)), x.1.sectionOut x.2 v blk st) := rfl

theorem OpSt.section_snd (x : OpSt) (v : Int) (blk st : Nat) :
    (x.section v blk st).1.2 = x.2.stepSection st v (x.1.sectionOut x.2 v blk st) := by
  rw [OpSt.section_eq, OpSt.sat_snd]

theorem Run.SameButVars.stepSection {r q : Run} (h : r.SameButVars q) (st : Nat) (v z : Int) : r.SameButVars (q.stepSection st v z) :=
  (((h.put _ _).put _ _).put _ _).put _ _

theorem Run.stepSection_state (r : Run) (st : Nat) (v z : Int) : (r.stepSection st v z).raw st = qWord v ∧
    (r.stepSection st v z).raw (st + 1) = r.raw st ∧ (r.stepSection st v z).raw (st + 2) = qWord (roundDiv z one31) ∧
    (r.stepSection st v z).raw (st + 3) = r.raw (st + 2) := by
  refine ⟨?_, ?_, ?_, ?_⟩
  · rw [Run.stepSection, Run.raw_put_of_ne _ _ (by omega), Run.raw_put_of_ne _ _ (by omega), Run.raw_put_self]
  · rw [Run.stepSection, Run.raw_put_of_ne _ _ (by omega), Run.raw_put_of_ne _ _ (by omega), Run.raw_put_of_ne _ _ (by omega), Run.raw_put_self]
  · rw [Run.stepSection, Run.raw_put_self]
  · rw [Run.stepSection, Run.raw_put_of_ne _ _ (by omega), Run.raw_put_self]

theorem Run.stepSection_other (r : Run) {st k : Nat} (v z : Int) (h : ∀ i, i < 4 → (st + i) % 256 ≠ k % 256) : (r.stepSection st v z).raw k = r.raw k := by
  have h0 : st % 256 ≠ k % 256 := h 0 (by omega)
  have h1 := h 1 (by omega)
  have h2 := h 2 (by omega)
  have h3 := h 3 (by omega)
  rw [Run.stepSection, Run.raw_put_of_ne _ _ h2.symm, Run.raw_put_of_ne _ _ h3.symm, Run.raw_put_of_ne _ _ h0.symm, Run.raw_put_of_ne _ _ h1.symm]

/-- Gain and addend on the exact output z. -/
def Run.modified (r : Run) (w : Nat) (z : Int) : Int :=
  (if bitOf (opMod w) 1 then z * r.val (opImm w / 256 % 256) else z * one31) + if bitOf (opMod w) 0 then r.val (opB w) * one31 * one31 else 0

theorem OpSt.modifiers_eq (x : OpSt) (r : Run) (w : Nat) (z : Int) :
    x.modifiers w (r.val (opImm w / 256 % 256)) (r.val (opB w)) z = x.write (opDst w) (roundDiv (r.modified w z) (one31 * one31)) := by
  rw [OpSt.modifiers, Run.modified]
  split
  case isTrue => rfl
  case isFalse => rw [add_zero]

theorem OpSt.sections_one {w b c : Nat} (h : opSections w = [(b, c)]) (x : OpSt) : x.sections w =
    (x.section (x.2.val (opA w)) b c).1.write (opDst w) (roundDiv (x.2.modified w (x.1.sectionOut x.2 (x.2.val (opA w)) b c)) (one31 * one31)) := by
  rw [OpSt.sections, h, ← OpSt.modifiers_eq]
  rfl

theorem OpSt.sections_two {w b c b' c' : Nat} (h : opSections w = [(b, c), (b', c')]) (x : OpSt) :
    let y := (x.section (x.2.val (opA w)) b c).1
    let v := roundDiv (x.1.sectionOut x.2 (x.2.val (opA w)) b c) one31
    x.sections w = (y.section v b' c').1.write (opDst w) (roundDiv (x.2.modified w (y.1.sectionOut y.2 v b' c')) (one31 * one31)) := by
  dsimp only
  rw [OpSt.sections, h, ← OpSt.modifiers_eq]
  rfl

theorem opSections_sect {w : Nat} (h : opCode w = 4) : opSections w = [(opImm w % 256, opC w)] := if_pos h

theorem opSections_casc {w : Nat} (h : opCode w = 5) :
    opSections w = (List.range (opMod w / 8 + 1)).map fun k => (opImm w % 256 + 8 * k, opC w + 4 * k) := by
  rw [opSections, if_neg (by omega), if_pos h]

theorem OpSt.sections_sameButVars (x : OpSt) (w : Nat) : x.2.SameButVars (x.sections w).2 := by
  have hfold (l : List (Nat × Nat)) (y : OpSt × Int × Int) (h : x.2.SameButVars y.1.2) : x.2.SameButVars (l.foldl (fun y sec =>
      ((y.1.section y.2.1 sec.1 sec.2).1, roundDiv (y.1.section y.2.1 sec.1 sec.2).2 one31, (y.1.section y.2.1 sec.1 sec.2).2)) y).1.2 := by
    induction l generalizing y with
    | nil => exact h
    | cons sec l ih =>
      refine ih (_, _, _) ?_
      rw [OpSt.section_snd]
      exact h.stepSection _ _ _
  rw [OpSt.sections, OpSt.modifiers, OpSt.write_snd]
  exact (hfold _ (x, _, _) (.refl _)).put _ _

theorem OpSt.sections_one_raw {w b c : Nat} (h : opSections w = [(b, c)]) (x : OpSt) :
    let z := x.1.sectionOut x.2 (x.2.val (opA w)) b c
    (x.sections w).2.raw (opDst w) = qWord (roundDiv (x.2.modified w z) (one31 * one31)) ∧
      ((∀ i, i < 4 → (c + i) % 256 ≠ opDst w % 256) → (x.sections w).2.raw c = qWord (x.2.val (opA w)) ∧ (x.sections w).2.raw (c + 1) = x.2.raw c ∧
        (x.sections w).2.raw (c + 2) = qWord (roundDiv z one31) ∧ (x.sections w).2.raw (c + 3) = x.2.raw (c + 2)) := by
  dsimp only
  rw [OpSt.sections_one h, OpSt.write_snd, OpSt.section_snd]
  refine ⟨Run.raw_put_self .., fun hother => ?_⟩
  obtain ⟨h0, h1, h2, h3⟩ := x.2.stepSection_state c (x.2.val (opA w)) (x.1.sectionOut x.2 (x.2.val (opA w)) b c)
  exact ⟨(Run.raw_put_of_ne _ _ (hother 0 (by omega))).trans h0, (Run.raw_put_of_ne _ _ (hother 1 (by omega))).trans h1,
    (Run.raw_put_of_ne _ _ (hother 2 (by omega))).trans h2, (Run.raw_put_of_ne _ _ (hother 3 (by omega))).trans h3⟩

theorem OpSt.sections_one_sat {w b c : Nat} (h : opSections w = [(b, c)]) (x : OpSt)
    (hclamp : x.1.sectionExact x.2 (x.2.val (opA w)) b c < (x.1.sectionBounds x.2 b).1 ∨
      (x.1.sectionBounds x.2 b).2 < max (x.1.sectionExact x.2 (x.2.val (opA w)) b c) (x.1.sectionBounds x.2 b).1) : (x.sections w).IsSat := by
  have hclamps : clamps (x.1.sectionBounds x.2 b).1 (x.1.sectionBounds x.2 b).2 (x.1.sectionExact x.2 (x.2.val (opA w)) b c) = true := by
    rw [clamps, Bool.or_eq_true, decide_eq_true_eq, decide_eq_true_eq]
    refine hclamp.imp id fun hhi => ?_
    split
    case isTrue hlo => rwa [max_eq_right (le_of_lt hlo)] at hhi
    case isFalse hlo => rwa [max_eq_left (not_lt.mp hlo)] at hhi
  rw [OpSt.sections_one h, OpSt.section_eq, hclamps]
  exact OpSt.IsSat.write (OpSt.isSat_sat_true _) _ _

theorem Dev.coef_congr {d e : Dev} (h : e.be = d.be) (l bank k : Nat) : e.coef l bank k = d.coef l bank k := by
  rw [Dev.coef, Dev.coef, Dev.lt, Dev.lt, h]

theorem Dev.bounds_of_words {d : Dev} {l bank blk : Nat} (h : bitOf (d.coef l bank (blk + 7)).toNat 2 = false) (v : Nat → Word) :
    d.bounds l bank blk v = (q31 (d.coef l bank (blk + 5)), q31 (d.coef l bank (blk + 6))) := by
  rw [Dev.bounds, h, if_neg (by decide)]

/-- The output of a section whose bounds are words depends on its four state variables only. -/
theorem Dev.sectionOut_congr {d e : Dev} {r q : Run} {blk st : Nat} (hbe : e.be = d.be)
    (hactive : e.activeBank r.loop = d.activeBank r.loop) (hloop : q.loop = r.loop)
    (hwords : bitOf (d.coef r.loop (d.activeBank r.loop) (blk + 7)).toNat 2 = false) (hvals : ∀ i, i < 4 → q.raw (st + i) = r.raw (st + i)) (v : Int) :
    e.sectionOut q v blk st = d.sectionOut r v blk st := by
  have h0 : q.raw st = r.raw st := hvals 0 (by omega)
  have hbounds : e.sectionBounds q blk = d.sectionBounds r blk := by
    have hwords' : bitOf (e.coef r.loop (d.activeBank r.loop) (blk + 7)).toNat 2 = false := by rwa [Dev.coef_congr hbe]
    rw [Dev.sectionBounds, Dev.sectionBounds, hloop, hactive, Dev.bounds_of_words hwords, Dev.bounds_of_words hwords', Dev.coef_congr hbe,
      Dev.coef_congr hbe]
  have hexact : e.sectionExact q v blk st = d.sectionExact r v blk st := by
    simp only [Dev.sectionExact, Run.val, hloop, hactive, Dev.coef_congr hbe, h0, hvals 1 (by omega), hvals 2 (by omega), hvals 3 (by omega)]
  rw [Dev.sectionOut, Dev.sectionOut, hbounds, hexact]

theorem OpSt.sections_two_raw {w b c b' : Nat} (h : opSections w = [(b, c), (b', c + 4)]) (x : OpSt)
    (hwords : bitOf (x.1.coef x.2.loop (x.1.activeBank x.2.loop) (b' + 7)).toNat 2 = false) :
    let z := x.1.sectionOut x.2 (x.2.val (opA w)) b c
    (x.sections w).2.raw (opDst w) = qWord (roundDiv (x.2.modified w (x.1.sectionOut x.2 (roundDiv z one31) b' (c + 4))) (one31 * one31)) := by
  have heq := OpSt.sections_two h x
  dsimp only at heq ⊢
  have hkeep := OpSt.section_keeps x (x.2.val (opA w)) b c
  have hsnd := OpSt.section_snd x (x.2.val (opA w)) b c
  rw [heq, OpSt.write_snd, Run.raw_put_self]
  generalize (x.section (x.2.val (opA w)) b c).1 = y at hkeep hsnd ⊢
  have hout := Dev.sectionOut_congr (q := y.2) (st := c + 4) (hkeep.parts .be (by decide)) (hkeep.rd F.BE_LP_SWAP_active x.2.loop (by decide))
    (by rw [hsnd]; rfl) hwords
    (fun i hi => by rw [hsnd]; exact Run.stepSection_other _ _ _ fun j hj => by omega) (roundDiv (x.1.sectionOut x.2 (x.2.val (opA w)) b c) one31)
  rw [hout]

/-! ### FUSEE (R195) -/

/-- Writes into a run that leave all but its variables, and leave a sat flag that is set. -/
def OpSt.Writes (x y : OpSt) : Prop := x.2.SameButVars y.2 ∧ (x.IsSat → y.IsSat)

theorem OpSt.Writes.refl (x : OpSt) : x.Writes x := ⟨.refl _, id⟩

theorem OpSt.Writes.raw {x y : OpSt} (h : x.Writes y) (k : Nat) (v : Word) : x.Writes (y.raw k v) := ⟨h.1.put k v, fun hs => (h.2 hs).raw k v⟩

theorem OpSt.Writes.write {x y : OpSt} (h : x.Writes y) (k : Nat) (v : Int) : x.Writes (y.write k v) := by
  refine ⟨?_, fun hs => (h.2 hs).write k v⟩
  rw [OpSt.write_snd]
  exact h.1.put k _

/-- The limits of FUSEE: the magnitudes of three variables, at least one. -/
def Run.fuseeLimit (r : Run) (w k : Nat) : Nat := if (r.val (opB w + k)).natAbs = 0 then 1 else (r.val (opB w + k)).natAbs

/-- Is a limit of FUSEE zero? -/
def Run.fuseeZero (r : Run) (w : Nat) : Bool := r.raw (opB w) == 0 || r.raw (opB w + 1) == 0 || r.raw (opB w + 2) == 0

/-- FUSEE takes a new state: position and speed. -/
def OpSt.fuseeSeed (x : OpSt) (w : Nat) (status : Word) (p v : Word) : OpSt :=
  let x := (((x.raw (opC w) p).raw (opC w + 1) v).raw (opC w + 2) 0).raw (opC w + 3) v
  let x := (x.raw (opC w + 4) status).raw (opC w + 5) 0
  ((x.raw (opDst w) p).raw (opDst w + 1) v).raw (opDst w + 2) 0

/-- The place of FUSEE's position. -/
def OpSt.fuseePlace (x : OpSt) (pos : Bool) (k : Nat) (p : Int) : OpSt := if pos then x.write k p else x.raw k (BitVec.ofInt 32 p)

/-- FUSEE moves on to the next state. -/
def OpSt.fuseeMove (x : OpSt) (w : Nat) (pos : Bool) (o : FuseeOut) (status runs : Word) : OpSt :=
  let x := (((x.fuseePlace pos (opC w) (ratRound o.p)).write (opC w + 1) (ratRound o.v)).write (opC w + 2) (ratRound o.a)).write (opC w + 3) (ratRound o.vt)
  let x := (x.raw (opC w + 4) status).raw (opC w + 5) runs
  ((x.fuseePlace pos (opDst w) (ratRound o.p)).write (opDst w + 1) (ratRound o.v)).write (opDst w + 2) (ratRound o.a)

/-- Does FUSEE take a new state: it is allowed, and the token has changed? -/
def Run.fuseeSeeds (r : Run) (w : Nat) : Bool := bitOf (opMod w) 1 && (r.raw (opA w + 1)).toNat % 256 != (r.raw (opC w + 4)).toNat % 256

/-- The step of FUSEE from a run's variables. -/
def Run.fuseeOut (r : Run) (w : Nat) : FuseeOut :=
  fuseeStep (!bitOf (opMod w) 0) (r.val (opA w)) (r.val (opC w)) (r.val (opC w + 1)) (r.val (opC w + 2)) (r.fuseeLimit w 0) (r.fuseeLimit w 1) (r.fuseeLimit w 2)

theorem OpSt.fusee_eq (x : OpSt) (w : Nat) : ∃ seeded status runs, x.fusee w =
    if x.2.fuseeSeeds w then (x.sat (x.2.fuseeZero w)).fuseeSeed w seeded (x.2.raw (opA w + 2)) (x.2.raw (opA w + 3))
    else (x.sat (x.2.fuseeZero w)).fuseeMove w (!bitOf (opMod w) 0) (x.2.fuseeOut w) status runs := ⟨_, _, _, rfl⟩

theorem OpSt.Writes.fuseePlace {x y : OpSt} (h : x.Writes y) (pos : Bool) (k : Nat) (p : Int) : x.Writes (y.fuseePlace pos k p) := by
  cases pos with
  | false => exact h.raw _ _
  | true => exact h.write _ _

theorem OpSt.fuseeSeed_writes (x : OpSt) (w : Nat) (status p v : Word) : x.Writes (x.fuseeSeed w status p v) :=
  ((((((((OpSt.Writes.refl x).raw _ _).raw _ _).raw _ _).raw _ _).raw _ _).raw _ _).raw _ _).raw _ _ |>.raw _ _

theorem OpSt.fuseeMove_writes (x : OpSt) (w : Nat) (pos : Bool) (o : FuseeOut) (status runs : Word) : x.Writes (x.fuseeMove w pos o status runs) :=
  (((((((((OpSt.Writes.refl x).fuseePlace _ _ _).write _ _).write _ _).write _ _).raw _ _).raw _ _).fuseePlace _ _ _).write _ _).write _ _

theorem OpSt.fusee_writes (x : OpSt) (w : Nat) : (x.sat (x.2.fuseeZero w)).Writes (x.fusee w) := by
  obtain ⟨seeded, status, runs, heq⟩ := x.fusee_eq w
  rw [heq]
  split
  · exact OpSt.fuseeSeed_writes ..
  · exact OpSt.fuseeMove_writes ..

theorem OpSt.fusee_sameButVars (x : OpSt) (w : Nat) : x.2.SameButVars (x.fusee w).2 := by
  obtain ⟨hsame, -⟩ := x.fusee_writes w
  rwa [OpSt.sat_snd] at hsame

theorem Run.fuseeZero_of_zero {r : Run} {w : Nat} (h : ∃ i < 3, r.raw (opB w + i) = 0) : r.fuseeZero w = true := by
  obtain ⟨i, hi, hz⟩ := h
  rw [Run.fuseeZero, Bool.or_eq_true, Bool.or_eq_true, beq_iff_eq, beq_iff_eq, beq_iff_eq]
  interval_cases i
  · exact .inl (.inl hz)
  · exact .inl (.inr hz)
  · exact .inr hz

theorem OpSt.fusee_isSat {x : OpSt} {w : Nat} (h : ∃ i < 3, x.2.raw (opB w + i) = 0) : (x.fusee w).IsSat := by
  obtain ⟨-, hsat⟩ := x.fusee_writes w
  refine hsat ?_
  rw [Run.fuseeZero_of_zero h]
  exact x.isSat_sat_true

theorem OpSt.fuseeSeed_raw (x : OpSt) (w : Nat) (status p v : Word) : let q := (x.fuseeSeed w status p v).2
    q.raw (opDst w) = p ∧ q.raw (opDst w + 1) = v ∧ q.raw (opDst w + 2) = 0 := by
  dsimp only [OpSt.fuseeSeed, OpSt.raw_snd]
  refine ⟨?_, ?_, Run.raw_put_self ..⟩
  · rw [Run.raw_put_of_ne _ _ (by omega), Run.raw_put_of_ne _ _ (by omega), Run.raw_put_self]
  · rw [Run.raw_put_of_ne _ _ (by omega), Run.raw_put_self]

theorem OpSt.fuseeMove_raw (x : OpSt) (w : Nat) (pos : Bool) (o : FuseeOut) (status runs : Word) : let q := (x.fuseeMove w pos o status runs).2
    q.raw (opDst w + 1) = qWord (ratRound o.v) ∧ q.raw (opDst w + 2) = qWord (ratRound o.a) ∧ (pos = true → q.raw (opDst w) = qWord (ratRound o.p)) := by
  dsimp only [OpSt.fuseeMove]
  generalize OpSt.raw (OpSt.raw _ (opC w + 4) status) (opC w + 5) runs = y
  rw [OpSt.write_snd, OpSt.write_snd]
  refine ⟨?_, Run.raw_put_self .., fun hpos => ?_⟩
  · rw [Run.raw_put_of_ne _ _ (by omega), Run.raw_put_self]
  · subst hpos
    rw [Run.raw_put_of_ne _ _ (by omega), Run.raw_put_of_ne _ _ (by omega), OpSt.fuseePlace, if_pos rfl, OpSt.write_snd, Run.raw_put_self]

/-! ### LETDN (R198) -/

theorem OpSt.letdn_sameButVars (x : OpSt) (w : Nat) : x.2.SameButVars (x.letdn w).2 := by
  simp only [OpSt.letdn, OpSt.write_snd, OpSt.raw_snd, OpSt.sat_snd]
  exact (((Run.SameButVars.refl _).put _ _).put _ _).put _ _

/-- The ramp of LETDN after a step. -/
def OpSt.ramp (x : OpSt) (w : Nat) : Int :=
  let k (i : Nat) : Int := (q31 (x.1.coef x.2.loop (x.1.activeBank x.2.loop) (opImm w % 256 + i))).natAbs
  let lo := clampInt (-one31) (one31 - 1) (x.2.val (opB w) - k 2)
  let hi := clampInt (-one31) (one31 - 1) (x.2.val (opB w) + k 2)
  let r1 := clampInt lo hi (x.2.val (opC w))
  if r1 ≤ x.2.val (opA w) then min (r1 + k 0) (x.2.val (opA w)) else max (r1 - k 1) (x.2.val (opA w))

theorem OpSt.letdn_raw (x : OpSt) (w : Nat) : (x.letdn w).2.raw (opDst w) = qWord (x.ramp w) := by
  have heq : ∃ y : OpSt, x.letdn w = y.write (opDst w) (x.ramp w) := ⟨_, rfl⟩
  obtain ⟨y, heq⟩ := heq
  rw [heq, OpSt.write_snd, Run.raw_put_self]

/-! ### PLAUS (R200) -/

/-- The model of PLAUS after a step. -/
def OpSt.plausModel (x : OpSt) (w : Nat) : Int :=
  let word (i : Nat) : Word := x.1.coef x.2.loop (x.1.activeBank x.2.loop) (opImm w % 256 + i)
  let u : Int := 2 ^ ((word 12).toNat % 4) * (List.range (opMod w % 8 + 1)).foldl (fun t i => t + q31 (word i) * x.2.val (opA w + i)) 0
  roundDiv (x.2.val (opC w) * one31 * one31 + q31 (word 8) * (u - x.2.val (opC w) * one31)) (one31 * one31)

/-- The residual of PLAUS after a step, against a model value. -/
def OpSt.plausResidual (x : OpSt) (w : Nat) (model : Int) : Int :=
  let word (i : Nat) : Word := x.1.coef x.2.loop (x.1.activeBank x.2.loop) (opImm w % 256 + i)
  roundDiv (x.2.val (opC w + 1) * one31 + q31 (word 9) * (x.2.val (opB w) - model - x.2.val (opC w + 1))) one31

/-- The run of PLAUS after model, residual and result. -/
def OpSt.plausRun (x : OpSt) (w : Nat) : Run :=
  let r := x.2.put (opC w) (qWord (x.plausModel w))
  let q := r.put (opC w + 1) (qWord (x.plausResidual w (r.val (opC w))))
  q.put (opDst w) (qWord (q.val (opC w + 1)))

theorem ite_snd {α β : Type} (p : Prop) [Decidable p] (a : α) (y : α × β) : (if p then (a, y.2) else y).2 = y.2 := by
  split
  · rfl
  · rfl

theorem OpSt.plaus_snd (x : OpSt) (w : Nat) : ∃ excess largest,
    (x.plaus w).2 = ((x.plausRun w).put (opC w + 2) excess).put (opC w + 3) largest := by
  have hrun : (((x.write (opC w) (x.plausModel w)).write (opC w + 1)
      (x.plausResidual w ((x.write (opC w) (x.plausModel w)).2.val (opC w)))).raw (opDst w) (qWord (((x.write (opC w) (x.plausModel w)).write (opC w + 1)
      (x.plausResidual w ((x.write (opC w) (x.plausModel w)).2.val (opC w)))).2.val (opC w + 1)))).2 = x.plausRun w := by
    simp only [OpSt.raw_snd, OpSt.write_snd]
    rfl
  rw [← hrun]
  exact ⟨_, _, (OpSt.write_snd ..).trans (congrArg (fun r : Run => r.put _ _) (ite_snd ..))⟩

theorem OpSt.plaus_sameButVars (x : OpSt) (w : Nat) : x.2.SameButVars (x.plaus w).2 := by
  obtain ⟨excess, largest, heq⟩ := x.plaus_snd w
  rw [heq]
  exact (((((Run.SameButVars.refl _).put _ _).put _ _).put _ _).put _ _).put _ _

theorem OpSt.plaus_raw (x : OpSt) (w : Nat) (h2 : opDst w % 256 ≠ (opC w + 2) % 256) (h3 : opDst w % 256 ≠ (opC w + 3) % 256) :
    (x.plaus w).2.raw (opDst w) = qWord (x.plausResidual w (q31 (qWord (x.plausModel w)))) := by
  obtain ⟨excess, largest, heq⟩ := x.plaus_snd w
  rw [heq, Run.raw_put_of_ne _ _ h3, Run.raw_put_of_ne _ _ h2, OpSt.plausRun, Run.raw_put_self, Run.val, Run.raw_put_self, qWord_q31, Run.val,
    Run.raw_put_self]

end Sys2Proof.Machine
end

section
namespace Sys2Proof.Machine

/-- Settles O19: each operation's result is the last variable that it writes, or one that its later writes leave. -/
theorem sectionsAndMotion : Obligations.SectionsAndMotion := by
  unfold Obligations.SectionsAndMotion
  intro s t e r d l w dst c bank k out blk v z total
  refine ⟨?sect, ?casc, ?fusee, ?letdn, ?plaus⟩
  case sect =>
    intro hat
    have hone := opSections_sect (w := w) hat.2.1
    refine Retires.of_runOp hat rfl rfl rfl (OpSt.sections_keeps (d, r) w) (by decide) (OpSt.sections_sameButVars (d, r) w) fun n q hflag hq => ?_
    obtain ⟨hdst, hstate⟩ := OpSt.sections_one_raw hone (d, r)
    refine ⟨fun hfence hclamp => ?_, (hq _).trans hdst, fun hother => ?_⟩
    · have hsat := OpSt.sections_one_sat hone (d, r) hclamp
      rw [OpSt.IsSat, (OpSt.sections_sameButVars (d, r) w).loop] at hsat
      exact (hflag ..).trans (by rwa [Dev.afterOp_of_no_fence hfence])
    · obtain ⟨h0, h1, h2, h3⟩ := hstate hother
      exact ⟨(hq _).trans h0, (hq _).trans h1, (hq _).trans h2, (hq _).trans h3⟩
  case casc =>
    intro hat
    have hsections := opSections_casc (w := w) hat.2.1
    refine Retires.of_runOp hat rfl rfl rfl (OpSt.sections_keeps (d, r) w) (by decide) (OpSt.sections_sameButVars (d, r) w) fun n q _ hq => ?_
    refine ⟨fun hmod => ?_, fun hmod hwords => ?_⟩
    · rw [hmod] at hsections
      obtain ⟨hdst, -⟩ := OpSt.sections_one_raw hsections (d, r)
      exact (hq _).trans hdst
    · rw [hmod] at hsections
      exact (hq _).trans (OpSt.sections_two_raw hsections (d, r) hwords)
  case fusee =>
    intro hat
    refine Retires.of_runOp hat rfl rfl rfl (OpSt.fusee_keeps (d, r) w) (by decide) (OpSt.fusee_sameButVars (d, r) w) fun n q hflag hq => ?_
    obtain ⟨seeded, status, runs, heq⟩ := OpSt.fusee_eq (d, r) w
    refine ⟨fun hzero hfence => ?_, fun hmode htoken => ?_, fun hmode => ?_⟩
    · have hsat := OpSt.fusee_isSat (x := (d, r)) hzero
      rw [OpSt.IsSat, (OpSt.fusee_sameButVars (d, r) w).loop] at hsat
      exact (hflag ..).trans (by rwa [Dev.afterOp_of_no_fence hfence])
    · have hseeds : r.fuseeSeeds w = true := by
        rw [Run.fuseeSeeds, hmode, Bool.true_and, bne_iff_ne]
        exact htoken
      rw [hseeds, if_pos rfl] at heq
      obtain ⟨hp, hv, ha⟩ := OpSt.fuseeSeed_raw (OpSt.sat (d, r) (r.fuseeZero w)) w seeded (r.raw (opA w + 2)) (r.raw (opA w + 3))
      rw [← heq] at hp hv ha
      exact ⟨(hq _).trans hp, (hq _).trans hv, (hq _).trans ha⟩
    · have hmoves : r.fuseeSeeds w = false := by rw [Run.fuseeSeeds, hmode, Bool.false_and]
      rw [hmoves, if_neg (by decide)] at heq
      obtain ⟨hv, ha, hp⟩ := OpSt.fuseeMove_raw (OpSt.sat (d, r) (r.fuseeZero w)) w (!bitOf (opMod w) 0) (r.fuseeOut w) status runs
      rw [← heq] at hv ha hp
      exact ⟨(hq _).trans hv, (hq _).trans ha, fun hpos => (hq _).trans (hp (by rw [hpos]; rfl))⟩
  case letdn =>
    intro hat
    refine Retires.of_runOp hat rfl rfl rfl (OpSt.letdn_keeps (d, r) w) (by decide) (OpSt.letdn_sameButVars (d, r) w) fun n q _ hq => ?_
    exact (hq _).trans (OpSt.letdn_raw (d, r) w)
  case plaus =>
    intro hat h2 h3
    refine Retires.of_runOp hat rfl rfl rfl (OpSt.plaus_keeps (d, r) w) (by decide) (OpSt.plaus_sameButVars (d, r) w) fun n q _ hq => ?_
    exact (hq _).trans (OpSt.plaus_raw (d, r) w h2 h3)

end Sys2Proof.Machine
end

section
/-! Loads, stores, emissions, limits, selections, comparisons and slack (R161, R162, R163, R168, R171, R290): what each operation writes. -/

namespace Sys2Proof.Machine

/-! ### The retirement of an operation, with the device that it leaves -/

/-- The run of an operation that has retired at a time. -/
def Run.retired (r : Run) (t : Nat) : Run := { r with pc := r.pc + 1, lastAt := t }

/-- An operation that leaves its run's place and its program's length retires: the device is the operation's but for the engine. -/
theorem Retires.of_op {s : State} {t : Nat} {c : Instr} {e code : Nat} {r : Run} {f : OpSt → Nat → OpSt} {W : Foot} {P : Dev → Run → Prop}
    {g : Dev → Dev} {y : OpSt} (hat : (s.now t).atOp e code r) (ht : c.time = t) (hc : exec c s = effect t s g)
    (hg : g (s.now t) = (s.now t).runOp e code f)
    (hy : f (s.now t, r) ((s.now t).opWord r.loop r.pc) = y) (hkeeps : Keeps W (s.now t) y.1) (hW : W.avoids F.BE_LP_PROG_length = true)
    (hloop : y.2.loop = r.loop) (hpc : y.2.pc = r.pc) (habort : y.2.abort = r.abort)
    (h : ∀ v at', P (((s.now t).afterOp e code y).setEng e v) (y.2.retired at')) : Retires s c e r P := by
  refine Does.of_effect hc ?_
  rw [hg]
  have hdev := Dev.afterOp_keeps hkeeps e code
  have ⟨_, _, hlength, hgoes⟩ := hat
  have hnext : y.2.pc + 1 < ((s.now t).afterOp e code y).rd F.BE_LP_PROG_length y.2.loop := by
    rw [hloop, hpc, hdev.rd _ _ hW]
    exact hlength
  rw [Dev.runOp_of_atOp hat, hy, Dev.retire_of_not_last _ _ _ hnext (habort.trans hgoes)]
  exact ⟨_, congrArg EngT.run (Dev.eng_setEng_self ..), congrArg (· + 1) hpc, hdev.time.trans (by rw [ht]), hloop, h _ _⟩

/-! ### LOAD (R161, R290) -/

theorem OpSt.loadRecord_sameButVars (x : OpSt) (dst k : Nat) (f : Int) : x.2.SameButVars (x.loadRecord dst k f).2 := by
  have hraw (v : Word) : x.2.SameButVars (x.raw dst v).2 := (Run.SameButVars.refl _).put _ _
  have hwrite (v : Int) : x.2.SameButVars (x.write dst v).2 := by
    rw [OpSt.write_snd]
    exact (Run.SameButVars.refl _).put _ _
  have hite {p : Prop} [Decidable p] {y z : OpSt} (hy : x.2.SameButVars y.2) (hz : x.2.SameButVars z.2) :
      x.2.SameButVars (if p then y else z).2 := by
    split
    · exact hy
    · exact hz
  exact hite (hwrite _) (hite (hraw _) (hite (hwrite _) (hite (hraw _) (hite (hwrite _) (hite (hite (hwrite _) (hraw _)) (hite (hraw _) (hite (hraw _)
    (hite (hraw _) (hite (hwrite _) (hite (hraw _) (hite (hraw _) (hite (hraw _) (hite (hraw _) (hite (hraw _) (hite (hraw _) rfl)))))))))))))))

theorem OpSt.load_sameButVars (u : Upset) (wait : Nat) (e : Fin 12) (x : OpSt) (w : Nat) : x.2.SameButVars (x.load u wait e w).2 := by
  have hwrite (v : Int) : x.2.SameButVars (x.write (opDst w) v).2 := by
    rw [OpSt.write_snd]
    exact (Run.SameButVars.refl _).put _ _
  have hput (v : Word) : x.2.SameButVars (x.2.put (opDst w) v) := (Run.SameButVars.refl _).put _ _
  unfold OpSt.load
  dsimp only
  split
  · exact hput _
  split
  · exact hwrite _
  split
  · exact OpSt.loadRecord_sameButVars ..
  split
  · exact hwrite _
  split
  · exact hput _
  split
  · exact hput _
  split
  · exact hwrite _
  · rfl

/-- What a LOAD brings into its variable. -/
theorem OpSt.load_raw (u : Upset) (wait : Nat) (e : Fin 12) (d : Dev) (r : Run) (w : Nat) : let q := (OpSt.load u wait e (d, r) w).2
    let f := d.scale r.loop (opMod w % 8); let a := d.loopBankAddr r.loop (opImm w); let imm := opImm w
    (opMod w / 8 = 0 → q.raw (opDst w) = r.raw imm) ∧
    (opMod w / 8 = 1 → q.raw (opDst w) = qWord (enterLoop (wordOf r.pars (imm % 64)).toInt f)) ∧
    (opMod w / 8 = 2 → (imm % 32 = 0 → q.raw (opDst w) = qWord (enterLoop r.recs.a.current.toInt f)) ∧
      (imm % 32 = 2 → q.raw (opDst w) = qWord (enterLoop r.recs.b.current.toInt f)) ∧ (imm % 32 = 1 → q.raw (opDst w) = r.recs.a.info) ∧
      (imm % 32 = 7 → q.raw (opDst w) = r.recs.lat.angle)) ∧
    (opMod w / 8 = 4 → q.raw (opDst w) = wordOf r.xch (imm % 256)) ∧
    (opMod w / 8 = 5 → q.raw (opDst w) = if d.bankReads a u then d.bankWord a else 0) ∧
    (opMod w / 8 = 6 → q.raw (opDst w) = qWord (signed 20 imm * 4096)) := by
  have hwrite (v : Int) : (OpSt.write (d, r) (opDst w) v).2.raw (opDst w) = qWord v := by rw [OpSt.write_snd, Run.raw_put_self]
  dsimp only
  refine ⟨?var, ?par, ?rec, ?xch, ?bank, ?const⟩
  case var =>
    intro h
    rw [OpSt.load, h]
    exact Run.raw_put_self ..
  case par =>
    intro h
    rw [OpSt.load, h]
    exact hwrite _
  case rec =>
    intro h
    rw [OpSt.load, h]
    refine ⟨fun hk => ?_, fun hk => ?_, fun hk => ?_, fun hk => ?_⟩
    · rw [hk]
      exact hwrite _
    · rw [hk]
      exact hwrite _
    · rw [hk]
      exact Run.raw_put_self ..
    · rw [hk]
      exact Run.raw_put_self ..
  case xch =>
    intro h
    rw [OpSt.load, h]
    exact Run.raw_put_self ..
  case bank =>
    intro h
    rw [OpSt.load, h]
    exact Run.raw_put_self ..
  case const =>
    intro h
    rw [OpSt.load, h]
    exact hwrite _

/-! ### STORE (R162, R290) -/

theorem OpSt.store_place (wait : Nat) (e : Fin 12) (x : OpSt) (w : Nat) : (x.store wait e w).2.loop = x.2.loop ∧ (x.store wait e w).2.pc = x.2.pc ∧
    (x.store wait e w).2.abort = x.2.abort := by
  unfold OpSt.store
  dsimp only
  split
  · exact ⟨rfl, rfl, rfl⟩
  split
  · exact ⟨rfl, rfl, rfl⟩
  split
  · exact ⟨rfl, rfl, rfl⟩
  split
  · exact ⟨rfl, rfl, rfl⟩
  · exact ⟨rfl, rfl, rfl⟩

theorem OpSt.store_variable {w : Nat} (h : opMod w / 8 = 0) (wait : Nat) (e : Fin 12) (x : OpSt) :
    x.store wait e w = x.raw (opImm w) (x.2.raw (opA w)) := if_pos h

theorem OpSt.store_shadow {w : Nat} (h : opMod w / 8 = 1) (wait : Nat) (e : Fin 12) (x : OpSt) :
    let p := opImm w % 64; let tag := (x.2.beat + 1) % 65536
    (x.store wait e w).1.tb.gate = x.1.tb.gate ++
      [.shadow e x.2.loop p (bitOf (opMod w) 1) (x.1.storeCompare p (x.2.val (opA w))) tag] ++
        if bitOf (opMod w) 2 then [.commit e x.2.loop (portStage p) tag] else [] := by
  dsimp only
  rw [OpSt.store, h, if_neg (by decide), if_pos rfl]
  cases bitOf (opMod w) 2 with
  | false => exact (List.append_nil _).symm
  | true => rfl

theorem OpSt.store_exchange {w : Nat} (h : opMod w / 8 = 4) (wait : Nat) (e : Fin 12) (x : OpSt) :
    wordOf (x.store wait e w).2.xch (opImm w % 256) = x.2.raw (opA w) ∧ opImm w % 256 ∈ (x.store wait e w).2.stored := by
  rw [OpSt.store, h, if_neg (by decide), if_neg (by decide), if_pos rfl]
  refine ⟨(Tbl.get_set ..).trans (if_pos rfl), ?_⟩
  dsimp only
  split
  case isTrue hmem => exact List.contains_iff_mem.mp hmem
  case isFalse => exact List.mem_append_right _ (List.mem_singleton_self _)

theorem OpSt.store_bank {w : Nat} (h : opMod w / 8 = 5) {e : Fin 12} {x : OpSt} (hfence : x.1.fenceHolds e = false) (wait : Nat) :
    (x.store wait e w).1 = x.1.bankWrite (.engine e) (x.1.loopBankAddr x.2.loop (opImm w)) 4 (x.2.raw (opA w)) {} wait := by
  rw [OpSt.store, h, if_neg (by decide), if_neg (by decide), if_neg (by decide), if_pos rfl]
  exact if_neg (by rw [hfence]; decide)

theorem Dev.bankWord_of_bytes {d : Dev} {a : Nat} {v : Word} (haligned : a % 4 = 0)
    (h : ∀ i, i < 4 → d.bankByte (a + i) = v.extractLsb' (8 * i) 8) : d.bankWord a = v := by
  have ha : a / 4 * 4 = a := by omega
  have h0 : d.bankByte a = _ := h 0 (by omega)
  rw [Dev.bankWord, ha, h0, h 1 (by omega), h 2 (by omega), h 3 (by omega)]
  refine BitVec.eq_of_getLsbD_eq fun i hi => ?_
  simp only [BitVec.getLsbD_append, BitVec.getLsbD_extractLsb']
  grind

theorem Dev.bankByte_bankWrite_now (d : Dev) (m : BankMaster) (a n : Nat) (v : Word) (u : Upset) (wait : Nat) (hn : n ≤ 4) (x : Nat) :
    (d.bankWrite m a n v u wait).bankByte x =
      if a ≤ x ∧ x < a + firstPart a n ∧ d.fenced Kind.bank (bankOf a) = false ∧ d.bankOwned (masterIndex m) (bankOf a) = true then
        v.extractLsb' (8 * (x - a)) 8
      else d.bankByte x := by
  rw [← Dev.bankByte_bankWrite d m a n v u wait hn]
  unfold Dev.takeIssued
  split
  · rfl
  · rfl

theorem Dev.afterOp_store (d : Dev) (e : Nat) (y : OpSt) : d.afterOp e 0x02 y = y.1 := by
  rw [Dev.afterOp, if_neg (by simp)]

/-- An owner's store of a whole word, and nothing else. -/
theorem Dev.bankWrite_stores {d : Dev} {m : BankMaster} {a : Nat} (haligned : a % 4 = 0) (hfree : d.fenced Kind.bank (bankOf a) = false)
    (hown : d.bankOwned (masterIndex m) (bankOf a) = true) (v : Word) (u : Upset) (wait : Nat) :
    (d.bankWrite m a 4 v u wait).bankWord a = v ∧
      ∀ b, b / 4 ≠ a / 4 → (d.bankWrite m a 4 v u wait).bankByte b = d.bankByte b := by
  have hpart : firstPart a 4 = 4 := by rw [firstPart, haligned]; rfl
  refine ⟨Dev.bankWord_of_bytes haligned fun i hi => ?_, fun b hb => ?_⟩
  · rw [Dev.bankByte_bankWrite_now _ _ _ _ _ _ _ (le_refl _), hpart, if_pos ⟨by omega, by omega, hfree, hown⟩, Nat.add_sub_cancel_left]
  · rw [Dev.bankByte_bankWrite_now _ _ _ _ _ _ _ (le_refl _), hpart, if_neg (by rintro ⟨h1, h2, -⟩; omega)]

theorem Dev.bankByte_setEng (d : Dev) (e : Nat) (v : EngT) (b : Nat) : (d.setEng e v).bankByte b = d.bankByte b := rfl

theorem Dev.bankWord_setEng (d : Dev) (e : Nat) (v : EngT) (a : Nat) : (d.setEng e v).bankWord a = d.bankWord a := rfl

theorem Dev.gate_setEng (d : Dev) (e : Nat) (v : EngT) : (d.setEng e v).tb.gate = d.tb.gate := rfl

theorem OpSt.store_bankWord {w : Nat} (h : opMod w / 8 = 5) {e : Fin 12} {d : Dev} {r : Run} (hfence : d.fenceHolds e = false)
    (hfree : d.fenced Kind.bank (bankOf (d.loopBankAddr r.loop (opImm w))) = false)
    (hown : d.bankOwned (e + 1) (bankOf (d.loopBankAddr r.loop (opImm w))) = true) (wait : Nat) :
    let a := d.loopBankAddr r.loop (opImm w)
    (OpSt.store wait e (d, r) w).1.bankWord a = r.raw (opA w) ∧
      ∀ b, b / 4 ≠ a / 4 → (OpSt.store wait e (d, r) w).1.bankByte b = d.bankByte b := by
  have haligned : d.loopBankAddr r.loop (opImm w) % 4 = 0 := Nat.mul_mod_right ..
  dsimp only
  rw [OpSt.store_bank h (x := (d, r)) hfence]
  exact Dev.bankWrite_stores (m := .engine e) haligned hfree hown _ _ _

/-! ### EMIT, LIM, SEL, CMP, SLACK (R163, R168, R171) -/

theorem OpSt.emit_snd (e : Nat) (x : OpSt) (w : Nat) : (x.emit e w).2 = x.2 := by
  unfold OpSt.emit
  dsimp only
  split
  · rfl
  split
  · rfl
  · rfl

theorem OpSt.emit_record {e : Nat} {x : OpSt} (w : Nat) (hon : x.1.flag F.BE_LP_TEL_enable x.2.loop = true) (hfence : x.1.fenceHolds e = false) :
    ∃ m : EmitRec, (x.emit e w).1.be.emitted = x.1.be.emitted ++ [m] ∧ m.loop = x.2.loop ∧ m.qp = x.1.rd F.BE_LP_TEL_queue_pair x.2.loop ∧
      m.stamp = x.2.recs.beatAt ∧ m.values = (List.range (opImm w % 16 + 1)).map fun i =>
        if bitOf (opImm w) 7 then x.2.raw (opA w + i) else leaveLoop (x.2.val (opA w + i)) (x.1.scale x.2.loop (opImm w / 16)) := by
  rw [OpSt.emit]
  dsimp only
  rw [hon, hfence, if_neg (by decide), if_neg (by decide)]
  exact ⟨_, rfl, rfl, rfl, rfl, rfl⟩

theorem OpSt.lim_snd (x : OpSt) (w : Nat) :
    (x.lim w).2 = x.2.put (opDst w) (qWord (bound (x.2.val (opB w)) (x.2.val (opC w)) (x.2.val (opA w)))) := OpSt.sat_snd ..

theorem OpSt.lim_raw (x : OpSt) (w : Nat) (hle : x.2.val (opB w) ≤ x.2.val (opC w)) :
    (x.2.val (opA w) < x.2.val (opB w) → (x.lim w).2.raw (opDst w) = x.2.raw (opB w)) ∧
      (x.2.val (opC w) < x.2.val (opA w) → (x.lim w).2.raw (opDst w) = x.2.raw (opC w)) ∧
      (x.2.val (opB w) ≤ x.2.val (opA w) → x.2.val (opA w) ≤ x.2.val (opC w) → (x.lim w).2.raw (opDst w) = x.2.raw (opA w)) := by
  have hword (k : Nat) : qWord (x.2.val k) = x.2.raw k := qWord_q31 _
  rw [OpSt.lim_snd, Run.raw_put_self, bound]
  refine ⟨fun hlow => ?_, fun hhigh => ?_, fun hlow hhigh => ?_⟩
  · rw [if_pos hlow, if_neg (by omega), hword]
  · rw [if_neg (by omega : ¬ x.2.val (opA w) < x.2.val (opB w)), if_pos hhigh, hword]
  · rw [if_neg (by omega : ¬ x.2.val (opA w) < x.2.val (opB w)), if_neg (by omega), hword]

/-- The word of a comparison's outcome. -/
theorem ofNat_b2n_decide (p : Prop) [Decidable p] : BitVec.ofNat 32 (b2n (decide p)) = if p then 1 else 0 := by
  by_cases h : p
  · rw [decide_eq_true h, if_pos h]; rfl
  · rw [decide_eq_false h, if_neg h]; rfl

theorem OpSt.cmp_raw (x : OpSt) (w : Nat) : let a := x.2.val (opA w); let b := x.2.val (opB w); let q := (x.cmp w).2
    (opMod w % 8 = 1 → q.raw (opDst w) = if b < a then 1 else 0) ∧ (opMod w % 8 = 2 → q.raw (opDst w) = if b ≤ a then 1 else 0) ∧
    (opMod w % 8 = 3 → q.raw (opDst w) = if a = b then 1 else 0) ∧ (opMod w % 8 = 4 → q.raw (opDst w) = if a = b then 0 else 1) ∧
    (opMod w % 8 = 5 → q.raw (opDst w) = if b < a.natAbs then 1 else 0) := by
  dsimp only
  rw [OpSt.cmp, OpSt.raw_snd, Run.raw_put_self]
  refine ⟨fun h => ?_, fun h => ?_, fun h => ?_, fun h => ?_, fun h => ?_⟩
  · rw [if_pos h, ofNat_b2n_decide]
  · rw [h, if_neg (by decide), if_pos rfl, ofNat_b2n_decide]
  · rw [h, if_neg (by decide), if_neg (by decide), if_pos rfl, ← ofNat_b2n_decide]
    rfl
  · rw [h, if_neg (by decide), if_neg (by decide), if_neg (by decide), if_pos rfl, bne, ← ite_not, ← ofNat_b2n_decide, decide_not]
    rfl
  · rw [h, if_neg (by decide), if_neg (by decide), if_neg (by decide), if_neg (by decide), if_pos rfl, ofNat_b2n_decide]

/-- The slack that an operation tells, in ticks. -/
def OpSt.slackTicks (x : OpSt) (w : Nat) : Int :=
  if bitOf (opMod w) 0 then x.1.rdInt F.BE_LP_SLACK_win_min x.2.loop else (x.1.loop x.2.loop).lastSlack

theorem OpSt.slack_eq (x : OpSt) (w : Nat) : x.slack w = if x.slackTicks w = -32768 then x.raw (opDst w) 0x80000000
    else x.write (opDst w) (roundDiv (x.slackTicks w * one31) (max 1 (x.1.beat (x.1.home x.2.loop)))) := rfl

theorem OpSt.slack_of_none {x : OpSt} {w : Nat} (h : x.slackTicks w = -32768) : x.slack w = x.raw (opDst w) 0x80000000 := if_pos h

theorem OpSt.slack_of_some {x : OpSt} {w : Nat} (h : x.slackTicks w ≠ -32768) :
    x.slack w = x.write (opDst w) (roundDiv (x.slackTicks w * one31) (max 1 (x.1.beat (x.1.home x.2.loop)))) := if_neg h

theorem OpSt.slack_sameButVars (x : OpSt) (w : Nat) : x.2.SameButVars (x.slack w).2 := by
  rw [OpSt.slack_eq]
  split
  · exact (Run.SameButVars.refl _).put _ _
  · rw [OpSt.write_snd]
    exact (Run.SameButVars.refl _).put _ _

end Sys2Proof.Machine
end

section
namespace Sys2Proof.Machine

/-- Settles O17: each operation writes what its space or mode selects, and a LOAD or STORE of a bank out of its turn writes nothing. -/
theorem operationsMoveValues : Obligations.OperationsMoveValues := by
  unfold Obligations.OperationsMoveValues
  intro s t e r d l w dst imm f
  refine ⟨?load, ?loadWaits, ?storeWaits, ?store, ?emit, ?lim, ?sel, ?cmp, ?slack⟩
  case load =>
    intro u wait hat hturn
    have hsame := OpSt.load_sameButVars u.upset wait e (d, r) w
    refine Retires.of_op hat rfl rfl (if_pos hturn) rfl (OpSt.load_keeps u.upset wait e (d, r) w) (by decide) hsame.loop hsame.pc hsame.abort
      fun v at' => ?_
    exact OpSt.load_raw u.upset wait e d r w
  case loadWaits =>
    intro u wait hturn
    exact Does.of_effect_eq (n := d) rfl (if_neg (by rw [show (s.arrive t).opInTurn e u.others = false from hturn]; decide)) ⟨rfl, rfl⟩
  case storeWaits =>
    intro wt hturn
    exact Does.of_effect_eq (n := d) rfl (if_neg (by rw [show (s.arrive t).opInTurn e wt.turn.others = false from hturn]; decide)) ⟨rfl, rfl⟩
  case store =>
    intro wt hat hturn
    obtain ⟨hloop, hpc, habort⟩ := OpSt.store_place wt.wait e (d, r) w
    refine Retires.of_op hat rfl rfl (if_pos hturn) rfl (OpSt.store_keeps wt.wait e (d, r) w) (by decide) hloop hpc habort fun v at' => ?_
    refine ⟨fun h => ?_, fun h => ?_, fun h => OpSt.store_exchange h wt.wait e (d, r), fun h hfence hfree hown => ?_⟩
    · rw [show OpSt.store wt.wait e (d, r) w = _ from OpSt.store_variable h wt.wait e (d, r)]
      exact Run.raw_put_self ..
    · rw [Dev.gate_setEng, Dev.afterOp_store]
      exact OpSt.store_shadow h wt.wait e (d, r)
    · rw [Dev.bankWord_setEng, Dev.afterOp_store]
      obtain ⟨hword, hother⟩ := OpSt.store_bankWord h hfence hfree hown wt.wait
      exact ⟨hword, fun b hb => (Dev.bankByte_setEng ..).trans (hother b hb)⟩
  case emit =>
    intro hat hon hfence
    have hsnd := OpSt.emit_snd e (d, r) w
    refine Retires.of_op (g := fun d => d.runOp e 0x03 (OpSt.emit e)) hat rfl rfl rfl rfl (OpSt.emit_keeps e (d, r) w) (by decide) (congrArg _ hsnd) (congrArg _ hsnd) (congrArg _ hsnd)
      fun v at' => ?_
    have hemit := OpSt.emit_record (e := e) (x := (d, r)) w hon hfence
    rw [show d.afterOp e 0x03 (OpSt.emit e (d, r) w) = _ from Dev.afterOp_of_no_fence hfence _ _]
    exact hemit
  case lim =>
    intro hat
    refine Retires.of_runOp hat rfl rfl rfl (OpSt.lim_keeps (d, r) w) (by decide) (by rw [OpSt.lim_snd]; exact (Run.SameButVars.refl _).put _ _)
      fun n q _ hq hle => ?_
    obtain ⟨hlow, hhigh, hmid⟩ := OpSt.lim_raw (d, r) w hle
    exact ⟨fun h => (hq _).trans (hlow h), fun h => (hq _).trans (hhigh h), fun h h' => (hq _).trans (hmid h h')⟩
  case sel =>
    intro hat
    refine Retires.of_runOp hat rfl rfl rfl (OpSt.sel_keeps (d, r) w) (by decide) ((Run.SameButVars.refl _).put _ _) fun n q _ hq => ?_
    exact (hq _).trans (Run.raw_put_self ..)
  case cmp =>
    intro hat
    refine Retires.of_runOp hat rfl rfl rfl (OpSt.cmp_keeps (d, r) w) (by decide) ((Run.SameButVars.refl _).put _ _) fun n q _ hq => ?_
    obtain ⟨h1, h2, h3, h4, h5⟩ := OpSt.cmp_raw (d, r) w
    exact ⟨fun h => (hq _).trans (h1 h), fun h => (hq _).trans (h2 h), fun h => (hq _).trans (h3 h), fun h => (hq _).trans (h4 h),
      fun h => (hq _).trans (h5 h)⟩
  case slack =>
    intro hat
    refine Retires.of_runOp hat rfl rfl rfl (OpSt.slack_keeps (d, r) w) (by decide) (OpSt.slack_sameButVars (d, r) w) fun n q _ hq => ?_
    refine ⟨fun h => (hq _).trans ?_, fun h => (hq _).trans ?_⟩
    · rw [OpSt.slack_of_none (x := (d, r)) h]
      exact Run.raw_put_self ..
    · rw [OpSt.slack_of_some (x := (d, r)) h, OpSt.write_snd]
      exact Run.raw_put_self ..

end Sys2Proof.Machine
end

section
/-! Re-admission (R176, R179, R380, R383): what a cause, a test and a self-test answer, and what they leave fenced. -/

namespace Sys2Proof.Machine

/-! ### A descriptor without a host range, and one that stands -/

theorem Dev.windowCheck_of_admission (d : Dev) {x : Descr} (h : x.opcode = Op.ADMIT ∨ x.opcode = Op.ENGINE_ADMIT) : d.windowCheck x = none := by
  have hranges : hostReads x = none ∧ hostWrites x = none := by
    unfold hostReads hostWrites
    rcases h with h | h
    · rw [h]; exact ⟨rfl, rfl⟩
    · rw [h]; exact ⟨rfl, rfl⟩
  rw [Dev.windowCheck, hranges.1, hranges.2]
  rfl

theorem Does.of_admission {s : State} {t q i op : Nat} {c : Instr} {ph : Phase} {x : Descr} {f : Dev → Descr → Dev} {P : Dev → Prop}
    (hexec : exec c s = effect t s fun d => d.startItem q i op ph f) (hstand : (s.now t).standing q i ph x) (hop : x.opcode = op)
    (hadmission : op = Op.ADMIT ∨ op = Op.ENGINE_ADMIT) (h : P (f ((s.now t).started q i) x)) : Does s c P := by
  refine Does.of_effect hexec ?_
  rwa [Dev.startItem_of_standing hstand hop (Dev.windowCheck_of_admission _ (by rwa [hop]))]

theorem Dev.fenced_started (d : Dev) (q i kind index : Nat) : (d.started q i).fenced kind index = d.fenced kind index :=
  Dev.fenced_congr ((d.started_keeps q i).parts .flt (by decide)) kind index

theorem Dev.fenced_finish (d : Dev) (q i st : Nat) (partly : Bool) (detail kind index : Nat) :
    (d.finish q i st partly detail).fenced kind index = d.fenced kind index := (Dev.finish_reportsOnly ..).fenced kind index

theorem Dev.ReportsOnly.fencedTable {d e : Dev} (h : d.ReportsOnly e) : e.flt.fenced = d.flt.fenced := by
  obtain ⟨_, _, _, he⟩ := h
  rw [he]

theorem Dev.ReportsOnly.admits {d e : Dev} (h : d.ReportsOnly e) : e.flt.admits = d.flt.admits := by
  obtain ⟨_, _, _, he⟩ := h
  rw [he]

theorem Dev.underWay_of_keeps {w : Foot} {d e : Dev} (h : Keeps w d e) (hw : Part.hi ∉ w.parts) {q i : Nat} (hd : d.underWay q i) :
    e.underWay q i := Dev.underWay_congr (Dev.qp_congr (h.parts .hi hw) q) hd

/-! ### ADMIT (R380) -/

/-- What ADMIT does once its descriptor has started. -/
def Dev.startAdmission (d : Dev) (q i kind index hiMv loMv : Nat) (clock : Bool) : Dev :=
  if !d.fenced kind index then d.finish q i Code.OK
  else
    let d := d.admitSupplies kind index hiMv loMv
    match d.admitCause kind index hiMv loMv clock with
    | some st => d.finish q i st
    | none => if admitTests kind then d.startTest kind index q i else (d.readmit kind index).finish q i Code.OK

theorem Dev.admit_free {d : Dev} {kind index : Nat} (h : d.fenced kind index = false) (q i hiMv loMv : Nat) (clock : Bool) :
    d.startAdmission q i kind index hiMv loMv clock = d.finish q i Code.OK := by
  rw [Dev.startAdmission, h]
  rfl

theorem Dev.admitSupplies_of_ne (d : Dev) {kind : Nat} (h : kind ≠ Kind.port) (index hiMv loMv : Nat) : d.admitSupplies kind index hiMv loMv = d :=
  if_neg h

theorem Dev.admit_of_cause {d : Dev} {kind index hiMv loMv st : Nat} {clock : Bool} (hkind : kind ≠ Kind.port) (h : d.fenced kind index = true)
    (hcause : d.admitCause kind index hiMv loMv clock = some st) (q i : Nat) : d.startAdmission q i kind index hiMv loMv clock = d.finish q i st := by
  rw [Dev.startAdmission, h, d.admitSupplies_of_ne hkind]
  simp only [hcause]
  rfl

theorem Dev.admit_of_test {d : Dev} {kind index hiMv loMv : Nat} {clock : Bool} (hkind : kind ≠ Kind.port) (h : d.fenced kind index = true)
    (hcause : d.admitCause kind index hiMv loMv clock = none) (htest : admitTests kind = true) (q i : Nat) :
    d.startAdmission q i kind index hiMv loMv clock = d.startTest kind index q i := by
  rw [Dev.startAdmission, h, d.admitSupplies_of_ne hkind]
  simp only [hcause, htest]
  rfl

theorem Dev.admit_of_none {d : Dev} {kind index hiMv loMv : Nat} {clock : Bool} (hkind : kind ≠ Kind.port) (h : d.fenced kind index = true)
    (hcause : d.admitCause kind index hiMv loMv clock = none) (htest : admitTests kind = false) (q i : Nat) :
    d.startAdmission q i kind index hiMv loMv clock = (d.readmit kind index).finish q i Code.OK := by
  rw [Dev.startAdmission, h, d.admitSupplies_of_ne hkind]
  simp only [hcause, htest]
  rfl

/-- The test of a unit. -/
def Dev.testOf (d : Dev) (kind index q i : Nat) : AdmitT := { kind := kind, index := index, qp := q, ring := i, startedAt := d.time }

/-- A test is noted. -/
def Dev.noteTest (d : Dev) (kind index q i : Nat) : Dev := d.withFlt { d.flt with admits := d.flt.admits ++ [d.testOf kind index q i] }

theorem Dev.startTest_of_ne {d : Dev} {kind : Nat} (h : kind ≠ Kind.winMon) (index q i : Nat) : d.startTest kind index q i = d.noteTest kind index q i :=
  if_neg h

theorem Dev.fenced_noteTest (d : Dev) (k j q i kind index : Nat) : (d.noteTest k j q i).fenced kind index = d.fenced kind index := rfl

theorem Dev.startTest_of_none {d : Dev} (h : d.admitConv = none) (index q i : Nat) : d.startTest Kind.winMon index q i = d.finish q i Code.BROKEN := by
  rw [Dev.startTest, if_pos rfl, h]

/-- The DACs of a window monitor that a converter is to read, but for those that it holds. -/
def Dev.dacRequests (d : Dev) (c m : Nat) : List (Urg × Nat) :=
  (([false, true].map fun hi => Urg.dacTest m hi).filter fun u => !(d.conv c).holdsUrgent u).map fun u => (u, d.time)

theorem Dev.startTest_of_some {d : Dev} {c : Nat} (h : d.admitConv = some c) (index q i : Nat) : let e := (d.noteTest Kind.winMon index q i).takeTriggers c
    d.startTest Kind.winMon index q i = e.requestUrgent c (e.dacRequests c index) := by
  rw [Dev.startTest, if_pos rfl, h]
  rfl

theorem Dev.admitConv_free {d : Dev} {c : Nat} (h : d.admitConv = some c) : d.fenced Kind.logicConv c = false := by
  have hfree := List.find?_some h
  simpa using hfree

theorem Dev.dacRequests_held {d : Dev} {c : Nat} (hfree : d.fenced Kind.logicConv c = false) (m : Nat) (high : Bool) :
    ((d.requestUrgent c (d.dacRequests c m)).conv c).holdsUrgent (.dacTest m high) = true := by
  refine Dev.requestUrgent_holds hfree ?_
  cases hheld : (d.conv c).holdsUrgent (.dacTest m high) with
  | true => exact .inr rfl
  | false =>
    refine .inl ⟨d.time, List.mem_map.mpr ⟨_, List.mem_filter.mpr ⟨List.mem_map.mpr ⟨high, ?_, rfl⟩, by rw [hheld]; rfl⟩, rfl⟩⟩
    cases high
    · exact .head _
    · exact .tail _ (.head _)

theorem Dev.admit_island {d : Dev} {index : Nat} (h : d.fenced Kind.island index = true) (q i hiMv loMv : Nat) :
    d.startAdmission q i Kind.island index hiMv loMv false = d.finish q i Code.BROKEN := Dev.admit_of_cause (by decide) h rfl q i

theorem Dev.admitCause_flow (d : Dev) (index hiMv loMv : Nat) (clock : Bool) : d.admitCause Kind.flow index hiMv loMv clock =
    if d.fenced Kind.can (d.rd F.FL_CFG_controller index) then some Code.BROKEN else none := rfl

theorem Dev.admit_flow_broken {d : Dev} {index : Nat} (h : d.fenced Kind.flow index = true)
    (hcan : d.fenced Kind.can (d.rd F.FL_CFG_controller index) = true) (q i hiMv loMv : Nat) (clock : Bool) :
    d.startAdmission q i Kind.flow index hiMv loMv clock = d.finish q i Code.BROKEN :=
  Dev.admit_of_cause (by decide) h (by rw [Dev.admitCause_flow, hcan, if_pos rfl]) q i

theorem Dev.admit_flow {d : Dev} {index : Nat} (h : d.fenced Kind.flow index = true)
    (hcan : d.fenced Kind.can (d.rd F.FL_CFG_controller index) = false) (q i hiMv loMv : Nat) (clock : Bool) :
    d.startAdmission q i Kind.flow index hiMv loMv clock = ((d.markFenced Kind.flow index false).put F.FL_STAT_fenced index false).finish q i Code.OK :=
  Dev.admit_of_none (by decide) h (by rw [Dev.admitCause_flow, hcan, if_neg (by decide)]) (by decide) q i

/-- The units whose test has neither a cause nor a converter. -/
theorem Dev.admit_tested {d : Dev} {kind index : Nat} (hkind : kind = Kind.bank ∨ kind = Kind.logicConv ∨ kind = Kind.crypto)
    (h : d.fenced kind index = true) (q i hiMv loMv : Nat) (clock : Bool) :
    d.startAdmission q i kind index hiMv loMv clock = d.noteTest kind index q i := by
  rcases hkind with rfl | rfl | rfl
  · exact (Dev.admit_of_test (by decide) h rfl (by decide) q i).trans (Dev.startTest_of_ne (by decide) ..)
  · exact (Dev.admit_of_test (by decide) h rfl (by decide) q i).trans (Dev.startTest_of_ne (by decide) ..)
  · exact (Dev.admit_of_test (by decide) h rfl (by decide) q i).trans (Dev.startTest_of_ne (by decide) ..)

theorem Dev.admit_monitor {d : Dev} {index : Nat} (h : d.fenced Kind.winMon index = true) (q i hiMv loMv : Nat) (clock : Bool) :
    d.startAdmission q i Kind.winMon index hiMv loMv clock = d.startTest Kind.winMon index q i :=
  Dev.admit_of_test (by decide) h rfl (by decide) q i

theorem Dev.admitConv_congr {d e : Dev} (h : e.flt = d.flt) : e.admitConv = d.admitConv := by
  simp only [Dev.admitConv, Dev.fenced_congr h]

/-- The test of a window monitor asks a converter that is not fenced for its two DACs. -/
theorem Dev.startTest_asks {d : Dev} {c : Nat} (h : d.admitConv = some c) (index q i : Nat) :
    (d.startTest Kind.winMon index q i).flt = (d.noteTest Kind.winMon index q i).flt ∧
      ∀ high, ((d.startTest Kind.winMon index q i).conv c).holdsUrgent (.dacTest index high) = true := by
  have htake := (d.noteTest Kind.winMon index q i).takeTriggers_keeps c
  have hfree : ((d.noteTest Kind.winMon index q i).takeTriggers c).fenced Kind.logicConv c = false := by
    rw [Dev.fenced_congr (htake.parts .flt (by decide)), Dev.fenced_noteTest, Dev.admitConv_free h]
  rw [Dev.startTest_of_some h]
  exact ⟨((Dev.requestUrgent_keeps ..).parts .flt (by decide)).trans (htake.parts .flt (by decide)), fun high => Dev.dacRequests_held hfree index high⟩

/-! ### ADMIT_DONE (R380) -/

/-- A test is over, and its DACs are let go. -/
def Dev.endTest (d : Dev) (a : AdmitT) (y : AdmitTest) : Dev :=
  let d := (d.withFlt { d.flt with admits := d.flt.admits.erase a }).admitSupplies a.kind a.index y.hiMv y.loMv
  if a.kind = Kind.winMon then d.dropDacs a.index else d

/-- May the unit of a test return? -/
def Dev.mayReturn (d : Dev) (a : AdmitT) (y : AdmitTest) : Bool :=
  d.testPasses a y && (d.admitCause a.kind a.index y.hiMv y.loMv y.clock).isNone && Nat.ble d.time (a.startedAt + 12000000)

/-- The answer to a test. -/
def Dev.answerTest (d : Dev) (q i : Nat) (a : AdmitT) (y : AdmitTest) : Dev :=
  if d.mayReturn a y then (d.readmit a.kind a.index).finish q i Code.OK else d.finish q i Code.BROKEN

theorem Does.of_test {s : State} {t : Nat} {q : Fin 64} {i : Nat} {a : AdmitT} {y : AdmitTest} {P : Dev → Prop}
    (hfind : (s.now t).flt.admits.find? (fun a => a.qp == q.val && a.ring == i) = some a) (hends : (s.now t).dacsRun a = false)
    (hP : P (((s.now t).endTest a y).answerTest q i a y)) : Does s (.admitDone t q i y) P := by
  refine Does.of_effect (show exec _ s = execAdmitDone t q i y s from rfl) ?_
  rw [hfind]
  dsimp only
  rw [hends, if_neg (by decide)]
  exact hP

theorem Dev.endTest_keeps (d : Dev) (a : AdmitT) (y : AdmitTest) :
    Keeps ⟨false, [F.PP_STAT_uvlo_hi_live, F.PP_STAT_uvlo_lo_live, F.PP_STAT_uvlo, F.PP_CNT_uvlo, F.PP_SUPPLY_hi_supply, F.PP_SUPPLY_lo_supply,
      F.CV_STAT_urgent, F.FLT_STAT_lost, F.FLT_LOST], [.pp, .cv, .flt]⟩ d (d.endTest a y) := by
  have herase := Dev.withFlt_keeps d { d.flt with admits := d.flt.admits.erase a } id
  exact ((herase.within (by decide)).trans ((Dev.admitSupplies_keeps ..).within (by decide))).trans
    (Keeps.ite (fun _ => (Dev.dropDacs_keeps ..).within (by decide)) fun _ => Keeps.refl _ _)

theorem Dev.endTest_reportsOnly (d : Dev) (a : AdmitT) (y : AdmitTest) :
    (d.withFlt { d.flt with admits := d.flt.admits.erase a }).ReportsOnly (d.endTest a y) := by
  have hsupplies : ∀ e : Dev, e.ReportsOnly (e.admitSupplies a.kind a.index y.hiMv y.loMv) := fun e => by
    unfold Dev.admitSupplies
    split
    · exact (e.supplyAt_reportsOnly ..).trans (Dev.supplyAt_reportsOnly ..)
    · exact .refl e
  refine (hsupplies _).trans ?_
  unfold Dev.endTest
  dsimp only
  split
  · exact .of_keeps (Dev.dropDacs_keeps ..) (by decide)
  · exact .refl _

theorem Dev.endTest_of_ne (d : Dev) {a : AdmitT} (hport : a.kind ≠ Kind.port) (hmon : a.kind ≠ Kind.winMon) (y : AdmitTest) :
    d.endTest a y = d.withFlt { d.flt with admits := d.flt.admits.erase a } := by
  rw [Dev.endTest, if_neg hmon]
  exact Dev.admitSupplies_of_ne _ hport ..

theorem Dev.dacsRun_of_ne {a : AdmitT} (h : a.kind ≠ Kind.winMon) (d : Dev) : d.dacsRun a = false := by
  rw [Dev.dacsRun, beq_eq_false_iff_ne.mpr h]
  rfl

theorem Dev.answerTest_late {d : Dev} {a : AdmitT} (h : a.startedAt + 12000000 < d.time) (q i : Nat) (y : AdmitTest) :
    d.answerTest q i a y = d.finish q i Code.BROKEN := by
  have hlate : Nat.ble d.time (a.startedAt + 12000000) = false := by
    rw [Bool.eq_false_iff, ne_eq, Nat.ble_eq]
    omega
  rw [Dev.answerTest, Dev.mayReturn, hlate, Bool.and_false, if_neg (by decide)]

theorem Dev.answerTest_fails {d : Dev} {a : AdmitT} {y : AdmitTest} (h : d.testPasses a y = false) (q i : Nat) :
    d.answerTest q i a y = d.finish q i Code.BROKEN := by
  rw [Dev.answerTest, Dev.mayReturn, h, Bool.false_and, Bool.false_and, if_neg (by decide)]

theorem Dev.answerTest_passes {d : Dev} {a : AdmitT} {y : AdmitTest} (hpass : d.testPasses a y = true)
    (hcause : d.admitCause a.kind a.index y.hiMv y.loMv y.clock = none) (htime : d.time ≤ a.startedAt + 12000000) (q i : Nat) :
    d.answerTest q i a y = (d.readmit a.kind a.index).finish q i Code.OK := by
  rw [Dev.answerTest, Dev.mayReturn, hpass, hcause, Nat.ble_eq_true_of_le htime]
  rfl

theorem Dev.testPasses_withFlt (d : Dev) (a : AdmitT) (y : AdmitTest) (v : List AdmitT) :
    (d.withFlt { d.flt with admits := v }).testPasses a y = d.testPasses a y := rfl

theorem Tbl.get_filter {α : Type} (f : Nat → α) (p : Nat → Bool) (t : Tbl α) (k : Nat) :
    Tbl.get f (t.filter fun x => p x.1) k = if p k then Tbl.get f t k else f k := by
  induction t with
  | nil =>
    split
    · rfl
    · rfl
  | cons x t ih =>
    obtain ⟨j, v⟩ := x
    by_cases hkj : k = j
    · subst hkj
      cases hp : p k with
      | true => simp [List.filter, hp, Tbl.get]
      | false => simpa [List.filter, hp, Tbl.get] using ih
    · cases hp : p j with
      | true => simpa [List.filter, hp, Tbl.get, hkj] using ih
      | false => simpa [List.filter, hp, Tbl.get, hkj] using ih

/-- A cleared bank holds zeros. -/
theorem Dev.bankByte_clearBank {d : Dev} {b z : Nat} (h : bankOf z = b) : (d.clearBank b).bankByte z = 0 := by
  refine (Tbl.get_filter memReset (fun k => bankOf k != b) d.mb.mem z).trans (if_neg ?_)
  simp [h]

theorem dacAgrees_of_bounds {scale tol code thr : Nat} (h : (code : Int) - (scale * thr : Nat) ≤ tol) (h' : (scale * thr : Nat) - (code : Int) ≤ tol) :
    dacAgrees scale tol code thr = true := by
  rw [dacAgrees, Nat.ble_eq]
  omega

theorem Dev.testPasses_bank (d : Dev) {a : AdmitT} (h : a.kind = Kind.bank) (y : AdmitTest) : d.testPasses a y = y.pass := by
  unfold Dev.testPasses
  rw [h]
  rfl

theorem Dev.testPasses_monitor (d : Dev) {a : AdmitT} {lo hi : Nat} (h : a.kind = Kind.winMon) (hlo : a.lo = some lo) (hhi : a.hi = some hi)
    (y : AdmitTest) : d.testPasses a y =
      (a.inTime a.readAt && dacAgrees 64 256 lo (d.rd F.WM_THR_lo a.index) && dacAgrees 64 256 hi (d.rd F.WM_THR_hi a.index)) := by
  unfold Dev.testPasses
  rw [h, hlo, hhi]
  rfl

theorem Dev.readmit_bank (d : Dev) (index : Nat) : d.readmit Kind.bank index = (d.markFenced Kind.bank index false).clearBank index := rfl

theorem Dev.readmit_monitor (d : Dev) {index : Nat} (h : index < 24) : d.readmit Kind.winMon index = d.admitCmp (.wm ⟨index, h⟩) := dif_pos h

theorem Dev.admitCmp_flt (d : Dev) (c : Cmp) : (d.admitCmp c).flt = (d.markFenced (cmpUnit c).1 (cmpUnit c).2 false).flt := by
  refine ((Dev.compareAnew_keeps ..).parts .flt (by decide)).trans ?_
  exact ((Dev.setLatch_keeps ..).parts .flt (by decide)).trans (((Dev.setLatch_keeps ..).parts .flt (by decide)).trans
    (((Dev.setLive_keeps ..).parts .flt (by decide)).trans ((Dev.setLive_keeps ..).parts .flt (by decide))))

/-! ### Engines (R176, R179) -/

/-- What engine e had finished is lost. -/
def Dev.loseFinished (d : Dev) (e : Nat) : Dev :=
  d.each (List.range 64) fun d l => d.onLoop l fun v =>
    match v.finished with
    | some f => if f.engine = e then { v with finished := some { f with lost := true } } else v
    | none => v

/-- An engine that has passed its self-test is live and idle. -/
def Dev.enliven (d : Dev) (e : Nat) : Dev := ((d.loseFinished e).markFenced Kind.engine e false).setEng e { run := none }

/-- A live engine takes the loops of an engine that waits, or is a free spare. -/
def Dev.joinPool (d : Dev) (waiting : Option Nat) (e mine : Nat) : Dev :=
  match waiting with
  | none => d.put F.BE_ENG_STAT_spare e true
  | some w =>
    let d := d.takeOver w e
    if w = e then d.wr64 F.BE_ENG_LOOPS_LO F.BE_ENG_LOOPS_HI e mine
    else
      let d := d.wr64 F.BE_ENG_LOOPS_LO F.BE_ENG_LOOPS_HI w mine
      d.each (d.heldLoops w) fun d l => d.wr F.BE_LP_STAT_engine l w

theorem Dev.spareAgain_eq (d : Dev) (e : Nat) : d.spareAgain e = (d.enliven e).joinPool (d.waitingEngine 1) e ((d.enliven e).held e) := rfl

theorem Dev.joinPool_keeps (d : Dev) (waiting : Option Nat) (e mine : Nat) :
    Keeps ⟨false, [F.BE_ENG_STAT_spare, F.BE_ENG_LOOPS_LO, F.BE_ENG_LOOPS_HI, F.BE_LP_STAT_engine, F.BE_POOL_STAT_takeovers], []⟩ d
      (d.joinPool waiting e mine) := by
  have hloops (x : Dev) (k v : Nat) := (Dev.wr64_keeps x F.BE_ENG_LOOPS_LO F.BE_ENG_LOOPS_HI k v (by decide) (by decide))
  cases waiting with
  | none => exact (Dev.put_keeps _ F.BE_ENG_STAT_spare e true (by decide)).within (by decide)
  | some w =>
    refine (Dev.takeOver_keeps d w e).trans (Keeps.ite (fun _ => (hloops ..).within (by decide)) fun _ => ?_)
    exact ((hloops ..).within (by decide)).trans (Dev.each_keeps _ _ _ fun x l => (Dev.wr_keeps x F.BE_LP_STAT_engine l w (by decide)).within (by decide))

theorem Dev.eng_enliven (d : Dev) (e : Nat) : (d.enliven e).eng e = { run := none } := Dev.eng_setEng_self ..

theorem Dev.spareAgain_eng (d : Dev) (e : Nat) : (d.spareAgain e).eng e = { run := none } := by
  rw [Dev.spareAgain_eq, Dev.eng_congr ((Dev.joinPool_keeps ..).parts .be (by decide)), Dev.eng_enliven]

theorem Dev.spareAgain_fenced (d : Dev) (e : Nat) : (d.spareAgain e).fenced Kind.engine e = false := by
  rw [Dev.spareAgain_eq, Dev.fenced_congr ((Dev.joinPool_keeps ..).parts .flt (by decide)), Dev.enliven,
    Dev.fenced_congr ((Dev.setEng_keeps ..).parts .flt (by decide)), Dev.fenced_markFenced, if_pos rfl]

/-- The self-test of an engine is over. -/
def Dev.endSelfTest (d : Dev) (e : Nat) (good : Bool) : Dev :=
  ((d.setEng e { d.eng e with testing := [], inForce := true }).put F.BE_POOL_ADMIT_busy 0
    ((List.range 12).any fun k => k != e && !(d.eng k).testing.isEmpty)).wr F.BE_POOL_ADMIT_status 0 (if good then Code.OK else Code.BROKEN)

/-- An engine that has failed its self-test stays fenced. -/
def Dev.failSelfTest (d : Dev) (e : Nat) : Dev :=
  ((d.wr F.BE_ENG_DEAD_cause e 4).wr64 F.BE_ENG_DEAD_TIME_LO F.BE_ENG_DEAD_TIME_HI e d.time).postFenced Kind.engine e Cls.c Code.BROKEN 0

/-- The device after a self-test, before its descriptors end. -/
def Dev.engineTested (d : Dev) (e : Nat) (good : Bool) : Dev :=
  (if good then (d.endSelfTest e good).spareAgain e else (d.endSelfTest e good).failSelfTest e).showPool

theorem Does.of_selfTest {s : State} {t q i : Nat} {e : Fin 12} {pass good : Bool} {P : Dev → Prop} (htesting : ((s.now t).eng e).testing = [(q, i)])
    (hgood : (pass && Nat.ble (s.now t).time (((s.now t).eng e).testAt + 200000)) = good)
    (hP : P (((s.now t).engineTested e good).finish q i (if good then Code.OK else Code.BROKEN))) : Does s (.engineSelfTestDone t e pass) P := by
  refine Does.of_effect (show exec _ s = execEngineSelfTestDone t e pass s from rfl) ?_
  dsimp only
  rw [htesting, hgood, List.isEmpty_cons, if_neg Bool.false_ne_true]
  exact hP

theorem Dev.endSelfTest_shows (d : Dev) (e : Nat) (good : Bool) : let n := d.endSelfTest e good
    n.rd F.BE_POOL_ADMIT_status 0 = (if good then Code.OK else Code.BROKEN) ∧
      n.flag F.BE_POOL_ADMIT_busy 0 = ((List.range 12).any fun k => k != e && !(d.eng k).testing.isEmpty) ∧
      n.eng e = { d.eng e with testing := [], inForce := true } ∧ ∀ kind index, n.fenced kind index = d.fenced kind index := by
  refine ⟨Dev.rd_wr_of_lt _ F.BE_POOL_ADMIT_status _ (by decide) (by cases good <;> decide), ?_, Dev.eng_setEng_self .., fun _ _ => rfl⟩
  rw [Dev.flag, Dev.endSelfTest, Dev.rd_wr_apart _ F.BE_POOL_ADMIT_busy F.BE_POOL_ADMIT_status _ _ _ (by decide) (by decide)]
  exact Dev.flag_put _ F.BE_POOL_ADMIT_busy _ _ (by decide) rfl

theorem Dev.failSelfTest_keeps (d : Dev) (e : Nat) :
    Keeps ⟨false, [F.BE_ENG_DEAD_cause, F.BE_ENG_DEAD_TIME_LO, F.BE_ENG_DEAD_TIME_HI, F.FLT_STAT_lost, F.FLT_LOST], [.flt]⟩ d (d.failSelfTest e) :=
  (((Dev.wr_keeps _ F.BE_ENG_DEAD_cause _ _ (by decide)).within (by decide)).trans
    ((Dev.wr64_keeps _ F.BE_ENG_DEAD_TIME_LO F.BE_ENG_DEAD_TIME_HI _ _ (by decide) (by decide)).within (by decide))).trans
    ((Dev.postFenced_keeps ..).within (by decide))

theorem Dev.failSelfTest_cause (d : Dev) (e : Nat) : (d.failSelfTest e).rd F.BE_ENG_DEAD_cause e = 4 := by
  rw [Dev.failSelfTest, (Dev.postFenced_keeps ..).rd F.BE_ENG_DEAD_cause e (by decide),
    (Dev.wr64_keeps _ F.BE_ENG_DEAD_TIME_LO F.BE_ENG_DEAD_TIME_HI _ _ (by decide) (by decide)).rd F.BE_ENG_DEAD_cause e (by decide)]
  exact Dev.rd_wr_of_lt _ F.BE_ENG_DEAD_cause _ (by decide) (by decide)

theorem Dev.failSelfTest_fenced (d : Dev) (e kind index : Nat) : (d.failSelfTest e).fenced kind index = d.fenced kind index := by
  rw [Dev.failSelfTest, Dev.postFenced, Dev.fenced_post]
  rfl

theorem Dev.engineTested_keeps (d : Dev) (e : Nat) (good : Bool) :
    Keeps ⟨false, [F.BE_ENG_STAT_state, F.BE_ENG_STAT_spare, F.BE_ENG_STAT_loop, F.BE_ENG_STAT_loops, F.BE_ENG_LOOPS_LO, F.BE_ENG_LOOPS_HI,
      F.BE_ENG_DEAD_cause, F.BE_ENG_DEAD_TIME_LO, F.BE_ENG_DEAD_TIME_HI, F.BE_LP_STAT_state, F.BE_LP_STAT_engine, F.BE_POOL_STAT_fenced,
      F.BE_POOL_STAT_free, F.BE_POOL_STAT_takeovers, F.FLT_STAT_lost, F.FLT_LOST], [.be, .flt]⟩ (d.endSelfTest e good) (d.engineTested e good) := by
  refine Keeps.trans ?_ ((Dev.showPool_keeps _).within (by decide))
  exact Keeps.ite (fun _ => (Dev.spareAgain_keeps ..).within (by decide)) fun _ => (Dev.failSelfTest_keeps ..).within (by decide)

theorem Dev.endSelfTest_keeps (d : Dev) (e : Nat) (good : Bool) :
    Keeps ⟨false, [F.BE_POOL_ADMIT_busy, F.BE_POOL_ADMIT_status], [.be]⟩ d (d.endSelfTest e good) :=
  (((Dev.setEng_keeps ..).within (by decide)).trans ((Dev.put_keeps _ F.BE_POOL_ADMIT_busy _ _ (by decide)).within (by decide))).trans
    ((Dev.wr_keeps _ F.BE_POOL_ADMIT_status _ _ (by decide)).within (by decide))

/-- The device after a self-test whose descriptor has ended. -/
theorem Dev.engineTested_ends {d : Dev} {q i : Nat} (hlive : d.underWay q i) (e : Nat) (good : Bool) (st : Nat) : let n := (d.engineTested e good).finish q i st
    n.endedWith q i st ∧ n.rd F.BE_POOL_ADMIT_status 0 = (if good then Code.OK else Code.BROKEN) ∧
      n.flag F.BE_POOL_ADMIT_busy 0 = ((List.range 12).any fun k => k != e && !(d.eng k).testing.isEmpty) := by
  obtain ⟨hstatus, hbusy, -, -⟩ := d.endSelfTest_shows e good
  have hkeeps := d.engineTested_keeps e good
  have hfinish := Dev.finish_keeps (d.engineTested e good) q i st false 0
  refine ⟨Dev.finish_ends (Dev.underWay_of_keeps hkeeps (by decide) (Dev.underWay_of_keeps (d.endSelfTest_keeps e good) (by decide) hlive)) .., ?_, ?_⟩
  · exact ((hfinish.rd F.BE_POOL_ADMIT_status 0 (by decide)).trans (hkeeps.rd F.BE_POOL_ADMIT_status 0 (by decide))).trans hstatus
  · exact ((hfinish.flag F.BE_POOL_ADMIT_busy 0 (by decide)).trans (hkeeps.flag F.BE_POOL_ADMIT_busy 0 (by decide))).trans hbusy

theorem Dev.engineTested_good (d : Dev) (e q i st : Nat) : let n := (d.engineTested e true).finish q i st
    (n.eng e).testing = [] ∧ n.fenced Kind.engine e = false := by
  have hshow := ((d.endSelfTest e true).spareAgain e).showPool_keeps
  have hfinish := Dev.finish_keeps (d.engineTested e true) q i st false 0
  refine ⟨?_, (Dev.fenced_finish ..).trans ((Dev.fenced_congr (hshow.parts .flt (by decide)) ..).trans (Dev.spareAgain_fenced ..))⟩
  have hbe : ((d.engineTested e true).finish q i st).be = ((d.endSelfTest e true).spareAgain e).be :=
    (hfinish.parts .be (by decide)).trans (hshow.parts .be (by decide))
  rw [Dev.eng, hbe]
  exact congrArg EngT.testing (Dev.spareAgain_eng (d.endSelfTest e true) e)

theorem Dev.engineTested_bad (d : Dev) (e q i st : Nat) : let n := (d.engineTested e false).finish q i st
    n.eng e = { d.eng e with testing := [], inForce := true } ∧ n.fenced Kind.engine e = d.fenced Kind.engine e ∧ n.rd F.BE_ENG_DEAD_cause e = 4 := by
  obtain ⟨-, -, heng, hfenced⟩ := d.endSelfTest_shows e false
  have hfail := (d.endSelfTest e false).failSelfTest_keeps e
  have hshow := ((d.endSelfTest e false).failSelfTest e).showPool_keeps
  have hfinish := Dev.finish_keeps (d.engineTested e false) q i st false 0
  refine ⟨?_, ?_, ?_⟩
  · have hbe : ((d.engineTested e false).finish q i st).be = (d.endSelfTest e false).be :=
      ((hfinish.parts .be (by decide)).trans (hshow.parts .be (by decide))).trans (hfail.parts .be (by decide))
    rw [Dev.eng, hbe]
    exact heng
  · exact (((Dev.fenced_finish ..).trans (Dev.fenced_congr (hshow.parts .flt (by decide)) ..)).trans (Dev.failSelfTest_fenced ..)).trans (hfenced _ _)
  · exact ((hfinish.rd F.BE_ENG_DEAD_cause e (by decide)).trans (hshow.rd F.BE_ENG_DEAD_cause e (by decide))).trans (Dev.failSelfTest_cause ..)

/-- What ENGINE_ADMIT does once its descriptor has started. -/
def Dev.admitEngine (d : Dev) (q i e : Nat) : Dev :=
  let d := d.wr F.BE_POOL_ADMIT_engine 0 e
  if !d.fenced Kind.engine e then (d.wr F.BE_POOL_ADMIT_status 0 Code.OK).finish q i Code.OK
  else
    let v := d.eng e
    let n : EngT := { v with testing := v.testing ++ [(q, i)], testAt := if v.testing.isEmpty then d.time else v.testAt }
    ((d.setEng e n).put F.BE_POOL_ADMIT_busy 0 true).showPool

/-- An engine with one more descriptor that its self-test answers. -/
def Dev.inTest (d : Dev) (q i e : Nat) : EngT :=
  { d.eng e with testing := (d.eng e).testing ++ [(q, i)], testAt := if (d.eng e).testing.isEmpty then d.time else (d.eng e).testAt }

/-- An engine's self-test starts. -/
def Dev.testEngine (d : Dev) (q i e : Nat) : Dev :=
  (((d.wr F.BE_POOL_ADMIT_engine 0 e).setEng e (d.inTest q i e)).put F.BE_POOL_ADMIT_busy 0 true).showPool

theorem Dev.admitEngine_of_fenced {d : Dev} {e : Nat} (h : d.fenced Kind.engine e = true) (q i : Nat) : d.admitEngine q i e = d.testEngine q i e := by
  have hclosed : (d.wr F.BE_POOL_ADMIT_engine 0 e).fenced Kind.engine e = true := h
  rw [Dev.admitEngine]
  dsimp only
  rw [hclosed]
  rfl

theorem Dev.admitEngine_tests {d : Dev} {e : Nat} (hlt : e < 12) (h : d.fenced Kind.engine e = true) (q i : Nat) : let n := d.admitEngine q i e
    n.flag F.BE_POOL_ADMIT_busy 0 = true ∧ n.rd F.BE_POOL_ADMIT_engine 0 = e ∧ n.eng e = d.inTest q i e := by
  have hshow := (((d.wr F.BE_POOL_ADMIT_engine 0 e).setEng e (d.inTest q i e)).put F.BE_POOL_ADMIT_busy 0 true).showPool_keeps
  rw [Dev.admitEngine_of_fenced h]
  refine ⟨(hshow.flag F.BE_POOL_ADMIT_busy 0 (by decide)).trans (Dev.flag_put _ F.BE_POOL_ADMIT_busy _ _ (by decide) rfl),
    (hshow.rd F.BE_POOL_ADMIT_engine 0 (by decide)).trans ?_, (Dev.eng_congr (hshow.parts .be (by decide)) e).trans (Dev.eng_setEng_self ..)⟩
  rw [Dev.put, Dev.rd_wr_apart _ F.BE_POOL_ADMIT_engine F.BE_POOL_ADMIT_busy _ _ _ (by decide) (by decide)]
  exact Dev.rd_wr_of_lt _ F.BE_POOL_ADMIT_engine _ (by decide) (hlt.trans (by decide))

theorem Dev.admitEngine_free {d : Dev} {e q i : Nat} (hlt : e < 12) (h : d.fenced Kind.engine e = false) (hlive : d.underWay q i) :
    let n := d.admitEngine q i e
    n.endedWith q i Code.OK ∧ n.rd F.BE_POOL_ADMIT_engine 0 = e ∧ n.rd F.BE_POOL_ADMIT_status 0 = Code.OK := by
  have hopen : (d.wr F.BE_POOL_ADMIT_engine 0 e).fenced Kind.engine e = false := h
  have heq : d.admitEngine q i e = ((d.wr F.BE_POOL_ADMIT_engine 0 e).wr F.BE_POOL_ADMIT_status 0 Code.OK).finish q i Code.OK := by
    rw [Dev.admitEngine]
    dsimp only
    rw [hopen]
    rfl
  have hfinish := Dev.finish_keeps ((d.wr F.BE_POOL_ADMIT_engine 0 e).wr F.BE_POOL_ADMIT_status 0 Code.OK) q i Code.OK false 0
  have hkept : ((d.wr F.BE_POOL_ADMIT_engine 0 e).wr F.BE_POOL_ADMIT_status 0 Code.OK).underWay q i := hlive
  rw [heq]
  refine ⟨Dev.finish_ends hkept .., (hfinish.rd F.BE_POOL_ADMIT_engine 0 (by decide)).trans ?_,
    (hfinish.rd F.BE_POOL_ADMIT_status 0 (by decide)).trans (Dev.rd_wr_of_lt _ F.BE_POOL_ADMIT_status _ (by decide) (by decide))⟩
  rw [Dev.rd_wr_apart _ F.BE_POOL_ADMIT_engine F.BE_POOL_ADMIT_status _ _ _ (by decide) (by decide)]
  exact Dev.rd_wr_of_lt _ F.BE_POOL_ADMIT_engine _ (by decide) (hlt.trans (by decide))

end Sys2Proof.Machine
end

section
namespace Sys2Proof.Machine

/-- Settles O45: ADMIT and ENGINE_ADMIT by what their unit needs, ADMIT_DONE and the self-test by their results. -/
theorem unitsReturn : Obligations.UnitsReturn := by
  unfold Obligations.UnitsReturn
  intro s t q i x d kind index
  refine ⟨?startAdmission, ?done, ?engine, ?idle, ?selfTest⟩
  case startAdmission =>
    intro hstand hop hi lo clock
    have hlive := Dev.underWay_started hstand
    have hflt : (d.started q i).flt = d.flt := (d.started_keeps q i).parts .flt (by decide)
    have htime := (d.started_keeps q i).time
    have hnamed : (d.started q i).rd F.FL_CFG_controller index = d.rd F.FL_CFG_controller index :=
      (d.started_keeps q i).rd F.FL_CFG_controller index (by decide)
    have hof : ∀ {P : Dev → Prop}, P ((d.started q i).startAdmission q i kind index hi lo clock) → Does s (.admitUnit t q i hi lo clock) P := fun hP =>
      Does.of_admission (show exec _ s = execAdmit t q i hi lo clock s from rfl) hstand hop (.inl rfl) hP
    generalize d.started q i = e at hlive hflt htime hnamed hof
    have hfree : ∀ k j, e.fenced k j = d.fenced k j := Dev.fenced_congr hflt
    clear_value kind index
    refine ⟨fun hopen => hof ?_, fun hclosed hisland hclock => hof ?_, fun hclosed hflow => hof ?_, fun hclosed htests => hof ?_,
      fun hclosed hmon => hof ?_⟩
    · rw [Dev.admit_free ((hfree _ _).trans hopen)]
      exact ⟨Dev.finish_ends hlive .., (Dev.finish_reportsOnly ..).fencedTable.trans (congrArg Flt.fenced hflt)⟩
    · subst hisland hclock
      rw [Dev.admit_island ((hfree _ _).trans hclosed)]
      exact ⟨Dev.finish_ends hlive .., ((Dev.fenced_finish ..).trans (hfree _ _)).trans hclosed⟩
    · subst hflow
      have hcontroller : e.fenced Kind.can (e.rd F.FL_CFG_controller index) = d.fenced Kind.can (d.rd F.FL_CFG_controller index) := by rw [hnamed, hfree]
      cases hcan : d.fenced Kind.can (d.rd F.FL_CFG_controller index) with
      | false =>
        rw [Dev.admit_flow ((hfree _ _).trans hclosed) (hcontroller.trans hcan)]
        have hkept : ((e.markFenced Kind.flow index false).put F.FL_STAT_fenced index false).underWay q i := hlive
        refine ⟨fun _ => ⟨Dev.finish_ends hkept .., ?_⟩, fun h => by cases h⟩
        rw [Dev.fenced_finish, Dev.fenced_congr ((Dev.put_keeps _ F.FL_STAT_fenced index false (by decide)).parts .flt (by decide)), Dev.fenced_markFenced,
          if_pos rfl]
      | true =>
        rw [Dev.admit_flow_broken ((hfree _ _).trans hclosed) (hcontroller.trans hcan)]
        exact ⟨fun h => (by cases h), fun _ => ⟨Dev.finish_ends hlive .., ((Dev.fenced_finish ..).trans (hfree _ _)).trans hclosed⟩⟩
    · rw [Dev.admit_tested htests ((hfree _ _).trans hclosed), Dev.noteTest, Dev.testOf, htime, hflt]
      exact ⟨rfl, hclosed⟩
    · subst hmon
      rw [Dev.admit_monitor ((hfree _ _).trans hclosed)]
      have hconv : e.admitConv = d.admitConv := Dev.admitConv_congr hflt
      cases hsome : d.admitConv with
      | none =>
        rw [Dev.startTest_of_none (hconv.trans hsome)]
        refine ⟨((Dev.fenced_finish ..).trans (hfree _ _)).trans hclosed, fun _ => ⟨Dev.finish_ends hlive .., ?_⟩, fun c h => by cases h⟩
        exact (Dev.finish_reportsOnly ..).admits.trans (congrArg Flt.admits hflt)
      | some c =>
        obtain ⟨hnoted, hasked⟩ := Dev.startTest_asks (hconv.trans hsome) index q i
        refine ⟨(Dev.fenced_congr hnoted ..).trans ((hfree _ _).trans hclosed), fun h => (by cases h), fun c' hc => ?_⟩
        obtain rfl : c = c' := Option.some.inj hc
        refine ⟨?_, hasked⟩
        rw [hnoted, Dev.noteTest, Dev.testOf, htime, hflt]
        rfl
  case done =>
    intro a it y hfind hitem hended hring
    have hlive : d.underWay q i := ⟨it, hitem, hended, hring⟩
    have hkeeps := d.endTest_keeps a y
    have hover := Dev.underWay_of_keeps hkeeps (by decide) hlive
    have herased := (d.endTest_reportsOnly a y).admits
    refine ⟨fun hpass hintime hbank => ?_, fun hintime hmon hlt hread lo hi hlo hhi h1 h2 h3 h4 => ?_, fun hmon hread hintime => ?_,
      fun hport hmon hfails => ?_, fun hport hlate => ?_⟩
    · have hruns : d.dacsRun a = false := Dev.dacsRun_of_ne (by rw [hbank]; decide) d
      have hanswer : (d.endTest a y).answerTest q i a y = ((d.endTest a y).readmit Kind.bank a.index).finish q i Code.OK := by
        rw [← hbank]
        exact Dev.answerTest_passes ((Dev.testPasses_bank _ hbank y).trans hpass) (by rw [hbank]; rfl) (hkeeps.time.trans_le hintime) q i
      refine Does.of_test hfind hruns ?_
      rw [show ((s.now t).endTest a y).answerTest q i a y = _ from hanswer]
      generalize d.endTest a y = e at hover
      have hback : ((e.markFenced Kind.bank a.index false).clearBank a.index).underWay q i := hover
      have hfinish := Dev.finish_keeps ((e.markFenced Kind.bank a.index false).clearBank a.index) q i Code.OK false 0
      rw [Dev.readmit_bank]
      refine ⟨Dev.finish_ends hback .., ?_, fun z hz => ?_⟩
      · rw [Dev.fenced_finish, Dev.fenced_congr ((Dev.clearBank_keeps ..).parts .flt (by decide)), Dev.fenced_markFenced, if_pos rfl]
      · rw [Dev.bankByte, hfinish.parts .mb (by decide)]
        exact Dev.bankByte_clearBank hz
    · have hruns : d.dacsRun a = false := by
        rw [Dev.dacsRun, hlo, hhi, Option.isNone_some, Option.isNone_some, Bool.or_false, Bool.and_false, Bool.false_and]
      have htests : (d.endTest a y).testPasses a y = true := by
        rw [Dev.testPasses_monitor _ hmon hlo hhi, AdmitT.inTime, Nat.ble_eq_true_of_le hread, hkeeps.rd F.WM_THR_lo a.index (by decide),
          hkeeps.rd F.WM_THR_hi a.index (by decide), dacAgrees_of_bounds h1 h2, dacAgrees_of_bounds h3 h4]
        rfl
      have hanswer : (d.endTest a y).answerTest q i a y = ((d.endTest a y).readmit Kind.winMon a.index).finish q i Code.OK := by
        rw [← hmon]
        exact Dev.answerTest_passes htests (by rw [hmon]; rfl) (hkeeps.time.trans_le hintime) q i
      refine Does.of_test hfind hruns ?_
      rw [show ((s.now t).endTest a y).answerTest q i a y = _ from hanswer, Dev.readmit_monitor _ hlt]
      have hback := Dev.underWay_of_keeps (Dev.admitCmp_keeps (d.endTest a y) (.wm ⟨a.index, hlt⟩)) (by decide) hover
      refine ⟨Dev.finish_ends hback .., ?_⟩
      rw [Dev.fenced_finish, Dev.fenced_congr (Dev.admitCmp_flt ..)]
      exact (Dev.fenced_markFenced ..).trans (if_pos rfl)
    · refine Does.of_effect_eq (n := d) (show exec _ s = execAdmitDone t q i y s from rfl) ?_ rfl
      have hruns : d.dacsRun a = true := by
        rw [Dev.dacsRun, AdmitT.inTime, Nat.ble_eq_true_of_le hintime, hmon]
        rcases hread with hread | hread
        · rw [hread]; rfl
        · rw [hread, Option.isNone_none, Bool.or_true]; rfl
      rw [show (s.now t).flt.admits.find? _ = _ from hfind]
      exact if_pos hruns
    · refine Does.of_test hfind (Dev.dacsRun_of_ne hmon d) ?_
      have hbroken : ((d.endTest a y).answerTest q i a y) = (d.endTest a y).finish q i Code.BROKEN := by
        rcases hfails with hfails | hlate
        · exact Dev.answerTest_fails (y := y) (by rw [Dev.endTest_of_ne d hport hmon, Dev.testPasses_withFlt]; exact hfails) q i
        · exact Dev.answerTest_late (hlate.trans_eq hkeeps.time.symm) q i y
      rw [show ((s.now t).endTest a y).answerTest q i a y = _ from hbroken]
      have hafter := Dev.finish_reportsOnly (d.endTest a y) q i Code.BROKEN false 0
      exact ⟨Dev.finish_ends hover .., hafter.fencedTable.trans (d.endTest_reportsOnly a y).fencedTable, hafter.admits.trans herased⟩
    · refine Does.of_test hfind (Dev.dacsRun_of_ne (by rw [hport]; decide) d) ?_
      rw [show ((s.now t).endTest a y).answerTest q i a y = _ from Dev.answerTest_late (hlate.trans_eq hkeeps.time.symm) q i y]
      exact ⟨Dev.finish_ends hover .., (Dev.finish_reportsOnly ..).admits.trans herased⟩
  case engine =>
    intro hstand hop hlt
    have hlive := Dev.underWay_started hstand
    have hfree := d.fenced_started q i Kind.engine x.target
    have heng : (d.started q i).eng x.target = d.eng x.target := Dev.eng_congr ((d.started_keeps q i).parts .be (by decide)) _
    have hof : ∀ {P : Dev → Prop}, P ((d.started q i).admitEngine q i x.target) → Does s (.engineAdmit t q i) P := fun hP =>
      Does.of_admission (show exec _ s = execEngineAdmit t q i s from rfl) hstand hop (.inr rfl) hP
    refine ⟨fun hclosed => hof ?_, fun hopen => hof ?_⟩
    · obtain ⟨hbusy, hnamed, htests⟩ := Dev.admitEngine_tests hlt (hfree.trans hclosed) q i
      rw [Dev.inTest, heng, (d.started_keeps q i).time] at htests
      exact ⟨hbusy, hnamed, congrArg EngT.testing htests, (congrArg EngT.testAt htests).trans (if_congr List.isEmpty_iff rfl rfl)⟩
    · exact Dev.admitEngine_free hlt (hfree.trans hopen) hlive
  case idle =>
    intro e pass hidle
    refine Does.of_effect_eq (n := d) (show exec _ s = execEngineSelfTestDone t e pass s from rfl) ?_ rfl
    dsimp only
    rw [show ((s.now t).eng e).testing = [] from hidle]
    rfl
  case selfTest =>
    intro e it pass htesting hitem hended hring good
    have hlive : d.underWay q i := ⟨it, hitem, hended, hring⟩
    have hgood : (pass && Nat.ble d.time ((d.eng e).testAt + 200000)) = decide good := by
      rw [Bool.eq_iff_iff, Bool.and_eq_true, Nat.ble_eq, decide_eq_true_eq]
    refine ⟨fun h => ?_, fun h => ?_, ?_⟩
    · rw [decide_eq_true h] at hgood
      obtain ⟨hend, hstatus, -⟩ := Dev.engineTested_ends hlive e true Code.OK
      exact Does.of_selfTest htesting hgood ⟨hend, hstatus, d.engineTested_good e q i Code.OK⟩
    · rw [decide_eq_false h] at hgood
      obtain ⟨hend, hstatus, -⟩ := Dev.engineTested_ends hlive e false Code.BROKEN
      obtain ⟨heng, hfenced, hcause⟩ := d.engineTested_bad e q i Code.BROKEN
      exact Does.of_selfTest htesting hgood ⟨hend, hstatus, congrArg EngT.testing heng, congrArg EngT.inForce heng, hfenced, hcause⟩
    · obtain ⟨-, -, hbusy⟩ := Dev.engineTested_ends hlive e (decide good) (if decide good then Code.OK else Code.BROKEN)
      refine Does.of_selfTest htesting hgood (hbusy ▸ ?_)
      simp only [List.any_eq_true, List.mem_range, Bool.and_eq_true, bne_iff_ne, ne_eq, Bool.not_eq_true', List.isEmpty_eq_false_iff]
      exact ⟨fun ⟨k, hk, hne, ht⟩ => ⟨⟨k, hk⟩, fun h => hne (congrArg Fin.val h), ht⟩, fun ⟨k, hne, ht⟩ => ⟨k, k.isLt, fun h => hne (Fin.ext h), ht⟩⟩

end Sys2Proof.Machine
end

section
/-! Conversions, test conversions, passes and urgent requests (R5, R102 to R106). -/

namespace Sys2Proof.Machine

/-! ### Requests reach a converter -/

/-- Converters that differ in their urgent requests only. -/
def ConvT.SameSequence (v w : ConvT) : Prop := ∃ waiting running, w = { v with waiting := waiting, running := running }

theorem ConvT.SameSequence.serve {v w : ConvT} (h : v.SameSequence w) : v.SameSequence w.serve := by
  obtain ⟨waiting, running, rfl⟩ := h
  unfold ConvT.serve
  split
  · exact ⟨_, _, rfl⟩
  · split
    · exact ⟨_, _, rfl⟩
    · exact ⟨_, _, rfl⟩

theorem Dev.requestUrgent_sequence (d : Dev) (c : Nat) (l : List (Urg × Nat)) : (d.conv c).SameSequence ((d.requestUrgent c l).conv c) := by
  unfold Dev.requestUrgent
  split
  · exact ⟨_, _, rfl⟩
  · dsimp only
    rw [Dev.conv_congr ((Dev.showUrgent_keeps ..).parts .cv (by decide)), Dev.conv_setConv, if_pos rfl]
    exact ConvT.SameSequence.serve ⟨_, _, rfl⟩

theorem Dev.takeTriggers_sequence (d : Dev) (c : Nat) : (d.conv c).SameSequence ((d.takeTriggers c).conv c) := Dev.requestUrgent_sequence ..

theorem cvScale_off_ne (c k e : Nat) : F.CV_SCALE.off c e ≠ F.CV_STAT_urgent.off k 0 := by
  simp only [Fd.off, F.CV_SCALE, F.CV_STAT_urgent]
  omega

theorem Dev.takeTriggers_scale (d : Dev) (c i j : Nat) : (d.takeTriggers c).rd2 F.CV_SCALE i j = d.rd2 F.CV_SCALE i j := by
  unfold Dev.takeTriggers Dev.requestUrgent
  split
  · rfl
  · dsimp only
    rw [Dev.rd2, Dev.showUrgent, Dev.put, Dev.word_wr_of_off_ne _ _ _ _ (cvScale_off_ne i c j)]
    rfl

/-- A converter that is not fenced runs an urgent conversion once a request of the safety controller's waits for it, and shows it. -/
theorem Dev.requestUrgent_shows {d : Dev} {c : Nat} {at0 : Nat} (hfree : d.fenced Kind.logicConv c = false) :
    (d.requestUrgent c [(.sc, at0)]).flag F.CV_STAT_urgent c = true := by
  have hruns : ∀ v : ConvT, (Urg.sc, at0) ∈ v.waiting → v.serve.running.isSome = true := fun v hmem => by
    unfold ConvT.serve
    split
    next hrun => rw [hrun]; rfl
    split
    next hnone =>
      have hnext := List.findSome?_eq_none_iff.mp hnone 2 (by simp)
      rw [List.find?_eq_none] at hnext
      exact absurd rfl (hnext _ hmem)
    · rfl
  unfold Dev.requestUrgent
  rw [hfree, if_neg (by decide)]
  dsimp only
  rw [Dev.showUrgent, Dev.flag_put _ F.CV_STAT_urgent _ _ (by decide) rfl, Dev.conv_setConv, if_pos rfl]
  exact hruns _ ((mem_foldl_insertUrgent [(.sc, at0)] _).mpr (.inl (.head _)))

/-! ### A result is delivered (R5, R105) -/

/-- The exact value of a code by its entry's offset and scale. -/
def Dev.entryValue (d : Dev) (c e : Nat) (code : Int) : Int :=
  roundDiv ((code - signed 18 (d.rd2 F.CV_OFFS_offset c e)) * (BitVec.ofNat 32 (d.rd2 F.CV_SCALE c e)).toInt) 256

/-- A result is stored, with its code and its stamp. -/
def Dev.storeResult (d : Dev) (c e : Nat) (code v : Int) (sat : Bool) (hold : Nat) : Dev :=
  (((((d.wr2 F.CV_RES c e (sat32 v).toNat).wr2 F.CV_RAW_code c e (unsigned 16 code)).wr2 F.CV_RAW_valid c e 1).wr2 F.CV_RAW_sat c e
    (b2n (sat || outOf32 v))).wr2 F.CV_RAW_pass c e ((d.conv c).pass % 256)).wr2 F.CV_STAMP c e (hold % 2 ^ 32)

/-- What a result is for: a DAC's readback is compared with its threshold, another result goes to the charger. -/
def Dev.useResult (d : Dev) (c e : Nat) (code : Int) (v : Int) (hold : Nat) : Dev :=
  let n := d.rd2 F.CV_ENT_index c e
  let m := n / 2
  let dac : Int := 64 * (if n % 2 = 1 then d.rd F.WM_THR_hi m else d.rd F.WM_THR_lo m)
  if d.rd2 F.CV_ENT_kind c e = 3 ∧ 256 < (code - dac).natAbs then
    let d := (d.put F.CV_STAT_dac_mismatch c true).put F.WM_STAT_dac_err m true
    d.reportOpen Kind.winMon m Cls.report Code.DAC_MISMATCH
  else d.noteResult c e (sat32 v).toInt hold

theorem Dev.deliver_eq (d : Dev) (c e : Nat) (code : Int) (sat : Bool) (hold : Nat) :
    d.deliver c e code sat hold = (d.storeResult c e code (d.entryValue c e code) sat hold).useResult c e code (d.entryValue c e code) hold := rfl

theorem Dev.useResult_keeps (d : Dev) (c e : Nat) (code v : Int) (hold : Nat) :
    Keeps ⟨false, [F.CV_STAT_dac_mismatch, F.WM_STAT_dac_err, F.SC_CH_STAT_cable, F.SC_CH_PP_OHM_ohm, F.FLT_STAT_lost, F.FLT_LOST], [.ch, .flt]⟩ d
      (d.useResult c e code v hold) := by
  refine Keeps.ite (fun _ => ?_) fun _ => (Dev.noteResult_keeps ..).within (by decide)
  exact (((Dev.put_keeps _ F.CV_STAT_dac_mismatch _ _ (by decide)).within (by decide)).trans
    ((Dev.put_keeps _ F.WM_STAT_dac_err _ _ (by decide)).within (by decide))).trans ((Dev.reportOpen_keeps ..).within (by decide))

/-- A result of an entry stands in its registers. -/
def Dev.ShowsResult (n : Dev) (c e : Nat) (code v : Int) (sat : Bool) (hold : Nat) : Prop :=
  n.rd2 F.CV_RES c e = (sat32 v).toNat ∧ n.rd2 F.CV_RAW_sat c e = b2n (sat || outOf32 v) ∧ n.rd2 F.CV_RAW_code c e = unsigned 16 code ∧
    n.rd2 F.CV_RAW_valid c e = 1 ∧ n.rd2 F.CV_STAMP c e = hold % 2 ^ 32

theorem Keeps.showsResult {w : Foot} {d n : Dev} {c e : Nat} {code v : Int} {sat : Bool} {hold : Nat} (hk : Keeps w d n)
    (hw : [F.CV_RES, F.CV_RAW_sat, F.CV_RAW_code, F.CV_RAW_valid, F.CV_STAMP].all w.avoids = true) (h : d.ShowsResult c e code v sat hold) :
    n.ShowsResult c e code v sat hold := by
  have hrd : ∀ f ∈ [F.CV_RES, F.CV_RAW_sat, F.CV_RAW_code, F.CV_RAW_valid, F.CV_STAMP], n.rd2 f c e = d.rd2 f c e := fun f hf =>
    hk.rd2 f c e (List.all_eq_true.mp hw f hf)
  obtain ⟨hres, hsat, hcode, hvalid, hstamp⟩ := h
  exact ⟨(hrd _ (by simp)).trans hres, (hrd _ (by simp)).trans hsat, (hrd _ (by simp)).trans hcode, (hrd _ (by simp)).trans hvalid,
    (hrd _ (by simp)).trans hstamp⟩

theorem Dev.storeResult_shows (d : Dev) (c e : Nat) (code v : Int) (sat : Bool) (hold : Nat) :
    (d.storeResult c e code v sat hold).ShowsResult c e code v sat hold := by
  have hapart : ∀ (x : Dev) {f g : Fd} (w : Nat), g.ok = true → (⟨false, [g], []⟩ : Foot).avoids f = true → (x.wr2 g c e w).rd2 f c e = x.rd2 f c e :=
    fun x f g w hok ha => (Dev.wr2_keeps x g c e w hok).rd2 f c e ha
  have hwrites : ∀ (x : Dev) (f : Fd) {w : Nat}, f.lo + f.width ≤ 32 → w < 2 ^ f.width → (x.wr2 f c e w).rd2 f c e = w :=
    fun x f w hfits hw => (Dev.rd2_wr2 x f c e w hfits).trans (Nat.mod_eq_of_lt hw)
  refine ⟨?_, ?_, ?_, ?_, hwrites _ F.CV_STAMP (by decide) (Nat.mod_lt _ (by decide))⟩
  · rw [Dev.storeResult, hapart _ (f := F.CV_RES) (g := F.CV_STAMP) _ (by decide) (by decide),
      hapart _ (f := F.CV_RES) (g := F.CV_RAW_pass) _ (by decide) (by decide), hapart _ (f := F.CV_RES) (g := F.CV_RAW_sat) _ (by decide) (by decide),
      hapart _ (f := F.CV_RES) (g := F.CV_RAW_valid) _ (by decide) (by decide), hapart _ (f := F.CV_RES) (g := F.CV_RAW_code) _ (by decide) (by decide)]
    exact hwrites _ F.CV_RES (by decide) (BitVec.isLt _)
  · rw [Dev.storeResult, hapart _ (f := F.CV_RAW_sat) (g := F.CV_STAMP) _ (by decide) (by decide),
      hapart _ (f := F.CV_RAW_sat) (g := F.CV_RAW_pass) _ (by decide) (by decide)]
    exact hwrites _ F.CV_RAW_sat (by decide) (by cases sat || outOf32 v <;> decide)
  · rw [Dev.storeResult, hapart _ (f := F.CV_RAW_code) (g := F.CV_STAMP) _ (by decide) (by decide),
      hapart _ (f := F.CV_RAW_code) (g := F.CV_RAW_pass) _ (by decide) (by decide),
      hapart _ (f := F.CV_RAW_code) (g := F.CV_RAW_sat) _ (by decide) (by decide),
      hapart _ (f := F.CV_RAW_code) (g := F.CV_RAW_valid) _ (by decide) (by decide)]
    exact hwrites _ F.CV_RAW_code (by decide) (unsigned_lt ..)
  · rw [Dev.storeResult, hapart _ (f := F.CV_RAW_valid) (g := F.CV_STAMP) _ (by decide) (by decide),
      hapart _ (f := F.CV_RAW_valid) (g := F.CV_RAW_pass) _ (by decide) (by decide),
      hapart _ (f := F.CV_RAW_valid) (g := F.CV_RAW_sat) _ (by decide) (by decide)]
    exact hwrites _ F.CV_RAW_valid (by decide) (by decide)

/-! ### Conversions of the sequence (R102, R105, R106) -/

/-- May a conversion that was held at an instant be taken? -/
def Dev.takesConversion (d : Dev) (c hold : Nat) : Prop :=
  d.flag F.CV_STAT_busy c = true ∧ d.fenced Kind.logicConv c = false ∧ (d.conv c).running = none ∧ (d.conv c).freeAt ≤ hold ∧ hold + 152 ≤ d.time

/-- A conversion is added to its entry's sum. -/
def Dev.summed (d : Dev) (c code : Nat) : ConvT :=
  let v := d.conv c
  let kind := d.rd2 F.CV_ENT_kind c (d.rd F.CV_STAT_entry c)
  { v with sum := v.sum + entryCode kind code, taken := v.taken + 1, sat := v.sat || entryEnd kind code }

/-- A conversion of an entry's sequence. -/
def Dev.convert (d : Dev) (c code hold : Nat) : Dev :=
  let e := d.rd F.CV_STAT_entry c
  let v := d.summed c code
  let n : Int := 2 ^ d.rd2 F.CV_ENT_avg c e
  if v.taken < n then d.setConv c v
  else
    let mean := roundDiv v.sum n
    let d := (d.setConv c { v with normal := mean }).deliver c e mean v.sat hold
    if v.testPass && d.rd2 F.CV_ENT_ow c e != 1 then d.setConv c { v with normal := mean, phase := 1, owAt := d.time } else d.nextEntry c

/-- The test conversion of an entry differs from its normal one by more than its limit. -/
def Dev.owBad (d : Dev) (c code : Nat) : Bool :=
  let e := d.rd F.CV_STAT_entry c
  Nat.blt (64 * d.rd2 F.CV_ENT_ow_limit c e) (entryCode (d.rd2 F.CV_ENT_kind c e) code - (d.conv c).normal).natAbs

/-- A test conversion's verdict. -/
def Dev.judge (d : Dev) (c : Nat) (bad : Bool) : Dev :=
  let e := d.rd F.CV_STAT_entry c
  let d := d.wr2 F.CV_RAW_broken c e (b2n bad)
  if bad then (d.put F.CV_STAT_broken c true).report Kind.logicConv c Cls.report Code.BROKEN e else d

theorem Dev.seqDone_of_urgent {d : Dev} {c : Nat} (h : ((d.takeTriggers c).conv c).running ≠ none) (code hold : Nat) :
    d.seqDone c code hold = d.takeTriggers c := by
  have hruns : ((d.takeTriggers c).conv c).running.isSome = true := Option.isSome_iff_ne_none.mpr h
  rw [Dev.seqDone]
  dsimp only
  rw [hruns, Bool.or_true, Bool.true_or, Bool.true_or, if_pos rfl]

theorem Dev.seqDone_takes {d : Dev} {c hold : Nat} (h : (d.takeTriggers c).takesConversion c hold) (code : Nat) :
    d.seqDone c code hold = let n := d.takeTriggers c
      if (n.conv c).phase = 0 then n.convert c code hold
      else if (n.conv c).phase = 2 then (n.judge c (n.owBad c code)).nextEntry c else n := by
  obtain ⟨hbusy, hfree, hruns, hready, hripe⟩ := h
  rw [Dev.seqDone]
  dsimp only
  rw [if_neg]
  · rfl
  · rw [hbusy, hfree, hruns]
    simp only [Bool.not_true, Option.isSome_none, Bool.or_false, Bool.false_or, Bool.or_eq_true, Nat.blt_eq, not_or, Nat.not_lt]
    exact ⟨hready, hripe⟩

theorem Dev.convert_sums {d : Dev} {c code hold : Nat} (h : ((d.summed c code).taken : Int) < 2 ^ d.rd2 F.CV_ENT_avg c (d.rd F.CV_STAT_entry c)) :
    d.convert c code hold = d.setConv c (d.summed c code) := if_pos h

theorem Dev.entryValue_setConv (d : Dev) (c : Nat) (v : ConvT) (e : Nat) (code : Int) : (d.setConv c v).entryValue c e code = d.entryValue c e code := rfl

theorem Dev.convert_delivers {d : Dev} {c code hold : Nat} (h : 2 ^ d.rd2 F.CV_ENT_avg c (d.rd F.CV_STAT_entry c) ≤ ((d.summed c code).taken : Int)) :
    let e := d.rd F.CV_STAT_entry c; let v := d.summed c code; let mean := roundDiv v.sum (2 ^ d.rd2 F.CV_ENT_avg c e)
    (d.convert c code hold).ShowsResult c e mean (d.entryValue c e mean) v.sat hold := by
  dsimp only
  generalize hmean : roundDiv (d.summed c code).sum (2 ^ d.rd2 F.CV_ENT_avg c (d.rd F.CV_STAT_entry c)) = mean
  have hstored := (d.setConv c { d.summed c code with normal := mean }).storeResult_shows c (d.rd F.CV_STAT_entry c) mean
    (d.entryValue c (d.rd F.CV_STAT_entry c) mean) (d.summed c code).sat hold
  have hused := Dev.useResult_keeps ((d.setConv c { d.summed c code with normal := mean }).storeResult c (d.rd F.CV_STAT_entry c) mean
    (d.entryValue c (d.rd F.CV_STAT_entry c) mean) (d.summed c code).sat hold) c (d.rd F.CV_STAT_entry c) mean
    (d.entryValue c (d.rd F.CV_STAT_entry c) mean) hold
  have hshows := hused.showsResult (by decide) hstored
  rw [Dev.convert]
  dsimp only
  rw [if_neg (not_lt.mpr h), hmean, Dev.deliver_eq, Dev.entryValue_setConv]
  generalize Dev.useResult _ c (d.rd F.CV_STAT_entry c) mean (d.entryValue c (d.rd F.CV_STAT_entry c) mean) hold = n at hshows ⊢
  split
  · exact (Dev.setConv_keeps ..).showsResult (by decide) hshows
  · exact (Dev.nextEntry_keeps ..).showsResult (by decide) hshows

theorem Dev.judge_shows (d : Dev) (c : Nat) (bad : Bool) : let n := d.judge c bad
    n.rd2 F.CV_RAW_broken c (d.rd F.CV_STAT_entry c) = b2n bad ∧ (bad = true → n.flag F.CV_STAT_broken c = true) := by
  cases bad with
  | false => exact ⟨(Dev.rd2_wr2 _ F.CV_RAW_broken _ _ _ (by decide)).trans rfl, fun h => by cases h⟩
  | true =>
    have hreport := Dev.report_keeps ((d.wr2 F.CV_RAW_broken c (d.rd F.CV_STAT_entry c) 1).put F.CV_STAT_broken c true) Kind.logicConv c Cls.report Code.BROKEN
      (d.rd F.CV_STAT_entry c) 0
    refine ⟨(hreport.rd2 F.CV_RAW_broken c _ (by decide)).trans ?_, fun _ => (hreport.flag F.CV_STAT_broken c (by decide)).trans
      (Dev.flag_put _ F.CV_STAT_broken _ _ (by decide) rfl)⟩
    rw [(Dev.put_keeps _ F.CV_STAT_broken c true (by decide)).rd2 F.CV_RAW_broken c _ (by decide)]
    exact (Dev.rd2_wr2 _ F.CV_RAW_broken _ _ _ (by decide)).trans rfl

/-! ### Urgent conversions (R103, R104) -/

theorem Dev.takeTriggers_of_running {d : Dev} {c : Nat} {u : Urg} {since : Nat} (h : ((d.takeTriggers c).conv c).running = some (u, since))
    (hripe : since + 152 ≤ d.time) : (d.takeTriggers c).urgentRipe c = true := by
  rw [Dev.urgentRipe, h]
  exact Nat.ble_eq_true_of_le (hripe.trans_eq (d.takeTriggers_keeps c).time.symm)

theorem Dev.urgentDone_sc {d : Dev} {c code since : Nat} (h : ((d.takeTriggers c).conv c).running = some (.sc, since)) (hripe : since + 152 ≤ d.time) :
    d.urgentDone c code = ((((d.takeTriggers c).wr F.CV_URG_RES_code c code).put F.CV_URG_busy c false).wr F.CV_URG_status c Code.OK).endUrgentConv c := by
  rw [Dev.urgentDone]
  dsimp only
  rw [Dev.takeTriggers_of_running h hripe, h]
  rfl

theorem Dev.urgentDone_cal {d : Dev} {c code k since : Nat} (h : ((d.takeTriggers c).conv c).running = some (.cal k, since))
    (hripe : since + 152 ≤ d.time) : d.urgentDone c code = ((d.takeTriggers c).calConversion k (signed 16 code)).endUrgentConv c := by
  rw [Dev.urgentDone]
  dsimp only
  rw [Dev.takeTriggers_of_running h hripe, h]
  rfl

/-- A conversion of a shunt's calibration. -/
def ShuntT.calibrated (q : ShuntT) (op : CalOp) (code : Int) : ShuntT :=
  let n := q.calTaken
  let first := if op = .gain then 0 else 64
  let q := { q with calTaken := n + 1 }
  if n < first then { q with calZero := q.calZero + code }
  else if n < first + 64 then { q with calPlus := q.calPlus + code }
  else { q with calMinus := q.calMinus + code }

theorem ShuntT.calibrated_taken (q : ShuntT) (op : CalOp) (code : Int) : (q.calibrated op code).calTaken = q.calTaken + 1 := by
  unfold ShuntT.calibrated
  dsimp only
  generalize (if op = .gain then 0 else 64) = first
  split
  · rfl
  · split
    · rfl
    · rfl

theorem Dev.calConversion_shows {d : Dev} {k : Nat} {op : CalOp} (h : (d.shunt k).cal = some op) (code : Int) :
    (d.calConversion k code).shunt k = (d.shunt k).calibrated op code := by
  have heq : d.calConversion k code = if (d.shunt k).calTaken + 1 < op.conversions then
      (d.setShunt k ((d.shunt k).calibrated op code)).requestUrgent (lightConv k) [(.cal k, (d.setShunt k ((d.shunt k).calibrated op code)).time)]
      else d.setShunt k ((d.shunt k).calibrated op code) := by
    unfold Dev.calConversion
    dsimp only
    split
    next hnone => cases hnone.symm.trans h
    next op' hop =>
      obtain rfl : op' = op := Option.some.inj (hop.symm.trans h)
      rfl
  rw [heq]
  split
  · rw [Dev.shunt_congr ((Dev.requestUrgent_keeps ..).parts .sh (by decide))]
    exact (Dev.shunt_setShunt ..).trans (if_pos rfl)
  · exact (Dev.shunt_setShunt ..).trans (if_pos rfl)

/-- A request's word names its input. -/
def Dev.nameUrgent (d : Dev) (c kind index : Nat) : Dev := (d.wr F.CV_URG_kind c kind).wr F.CV_URG_index c index

/-- The safety controller's request is taken. -/
def Dev.urgeNow (d : Dev) (c : Nat) : Dev :=
  ((d.takeTriggers c).put F.CV_URG_busy c true).requestUrgent c [(.sc, d.time)]

theorem Dev.urge_of_free {d : Dev} {c : Nat} {w : Word} (hfree : d.fenced Kind.logicConv c = false) (hidle : d.flag F.CV_URG_busy c = false)
    (hrange : getBits w 3 6 < inputRange (getBits w 0 3)) : d.urge c w = let n := d.nameUrgent c (getBits w 0 3) (getBits w 3 6)
      if d.mayUrge c (getBits w 0 3) (getBits w 3 6) then n.urgeNow c else n.wr F.CV_URG_status c Code.CLAIMED := by
  have hbelow : ¬((false = true) ∨ inputRange (getBits w 0 3) ≤ getBits w 3 6) := by
    rintro (h | h)
    · cases h
    · omega
  rw [Dev.urge]
  dsimp only
  rw [hfree, if_neg Bool.false_ne_true, hidle, if_neg (by simpa using hrange), show ((d.wr F.CV_URG_kind c (getBits w 0 3)).wr F.CV_URG_index c
    (getBits w 3 6)).mayUrge c (getBits w 0 3) (getBits w 3 6) = d.mayUrge c (getBits w 0 3) (getBits w 3 6) from rfl]
  cases d.mayUrge c (getBits w 0 3) (getBits w 3 6) with
  | false => rfl
  | true => rfl

theorem Dev.nameUrgent_shows {d : Dev} {c kind index : Nat} (hkind : kind < 8) (hindex : index < 64) :
    (d.nameUrgent c kind index).rd F.CV_URG_kind c = kind ∧ (d.nameUrgent c kind index).rd F.CV_URG_index c = index := by
  refine ⟨?_, Dev.rd_wr_of_lt _ F.CV_URG_index _ (by decide) hindex⟩
  rw [Dev.nameUrgent, Dev.rd_wr_apart _ F.CV_URG_kind F.CV_URG_index _ _ _ (by decide) (by decide)]
  exact Dev.rd_wr_of_lt _ F.CV_URG_kind _ (by decide) hkind

theorem Dev.urgeNow_keeps (d : Dev) (c : Nat) : Keeps ⟨false, [F.CV_STAT_urgent, F.CV_URG_busy], [.cv]⟩ d (d.urgeNow c) :=
  (((Dev.takeTriggers_keeps ..).within (by decide)).trans ((Dev.put_keeps _ F.CV_URG_busy _ _ (by decide)).within (by decide))).trans
    ((Dev.requestUrgent_keeps ..).within (by decide))

theorem Dev.urgeNow_shows {d : Dev} {c : Nat} (hfree : d.fenced Kind.logicConv c = false) : let n := d.urgeNow c
    n.flag F.CV_URG_busy c = true ∧ n.flag F.CV_STAT_urgent c = true ∧ (n.conv c).holdsUrgent .sc = true := by
  have hopen : ((d.takeTriggers c).put F.CV_URG_busy c true).fenced Kind.logicConv c = false := by
    rw [Dev.fenced_congr ((Dev.put_keeps _ F.CV_URG_busy c true (by decide)).parts .flt (by decide)),
      Dev.fenced_congr ((Dev.takeTriggers_keeps ..).parts .flt (by decide)), hfree]
  refine ⟨((Dev.requestUrgent_keeps ..).flag F.CV_URG_busy c (by decide)).trans (Dev.flag_put _ F.CV_URG_busy _ _ (by decide) rfl),
    Dev.requestUrgent_shows hopen, Dev.requestUrgent_holds hopen (.inl ⟨d.time, .head _⟩)⟩

/-! ### Passes (R102) -/

theorem Dev.startPass_of_held {d : Dev} {c : Nat} (hfree : d.fenced Kind.logicConv c = false)
    (hheld : d.holds Kind.logicConv c (d.convSelects c) = true) : let n := d.startPass c
    n.flag F.CV_STAT_busy c = true ∧ n.rd F.CV_STAT_entry c = 0 ∧ (n.conv c).pass = (d.conv c).pass + 1 := by
  have heq : ∃ v : ConvT, v.pass = (d.conv c).pass + 1 ∧ d.startPass c = ((d.setConv c v).put F.CV_STAT_busy c true).wr F.CV_STAT_entry c 0 := by
    rw [Dev.startPass, hfree, hheld]
    exact ⟨_, rfl, rfl⟩
  obtain ⟨v, hpass, heq⟩ := heq
  rw [heq]
  refine ⟨?_, Dev.rd_wr_of_lt _ F.CV_STAT_entry _ (by decide) (by decide), ?_⟩
  · rw [Dev.flag, Dev.rd_wr_apart _ F.CV_STAT_busy F.CV_STAT_entry _ _ _ (by decide) (by decide)]
    exact Dev.flag_put _ F.CV_STAT_busy _ _ (by decide) rfl
  · rw [Dev.conv_congr ((Dev.wr_keeps _ F.CV_STAT_entry _ _ (by decide)).parts .cv (by decide)),
      Dev.conv_congr ((Dev.put_keeps _ F.CV_STAT_busy _ _ (by decide)).parts .cv (by decide)), Dev.conv_setConv, if_pos rfl]
    exact hpass

end Sys2Proof.Machine
end

section
namespace Sys2Proof.Machine

/-- Settles O9: a conversion is summed, delivered or judged by its converter's phase, and abandoned for an urgent one; passes and requests start
where nothing stands against them. -/
theorem converterPasses : Obligations.ConverterPasses := by
  unfold Obligations.ConverterPasses
  intro s t c d v e
  have htake := d.takeTriggers_keeps c
  have hentry : (d.takeTriggers c).rd F.CV_STAT_entry c = e := htake.rd F.CV_STAT_entry c (by decide)
  have hrd2 : ∀ f, (⟨false, [F.CV_STAT_urgent], [.cv]⟩ : Foot).avoids f = true → ∀ j, (d.takeTriggers c).rd2 f c j = d.rd2 f c j :=
    fun f hf j => htake.rd2 f c j hf
  obtain ⟨waiting, running, hconv⟩ := d.takeTriggers_sequence c
  have htakes : ∀ hold, d.flag F.CV_STAT_busy c = true → d.fenced Kind.logicConv c = false → ((d.takeTriggers c).conv c).running = none →
      v.freeAt ≤ hold → hold + 152 ≤ d.time → (d.takeTriggers c).takesConversion c hold := fun hold hbusy hfree hruns hready hripe =>
    ⟨(htake.flag F.CV_STAT_busy c (by decide)).trans hbusy, (Dev.fenced_congr (htake.parts .flt (by decide)) ..).trans hfree, hruns, by
      rw [hconv]; exact hready, hripe.trans_eq htake.time.symm⟩
  refine ⟨?result, ?abandoned, ?test, ?settled, ?pass, ?request, ?answer, ?calibration⟩
  case result =>
    intro code hold x n mean hbusy hfree hphase hruns hready hripe exact
    have hzero : ((d.takeTriggers c).conv c).phase = 0 := by rw [hconv]; exact hphase
    have heq : d.seqDone c code hold = (d.takeTriggers c).convert c code hold :=
      (Dev.seqDone_takes (htakes hold hbusy hfree hruns hready hripe) code).trans (if_pos hzero)
    have hsum : ((d.takeTriggers c).summed c code).sum = v.sum + x := by
      rw [Dev.summed, hentry, hrd2 F.CV_ENT_kind (by decide), hconv]
    have htaken : ((d.takeTriggers c).summed c code).taken = v.taken + 1 := by rw [Dev.summed, hconv]
    have hsat : ((d.takeTriggers c).summed c code).sat = (v.sat || entryEnd (d.rd2 F.CV_ENT_kind c e) code) := by
      rw [Dev.summed, hentry, hrd2 F.CV_ENT_kind (by decide), hconv]
    have havg : (2 : Int) ^ (d.takeTriggers c).rd2 F.CV_ENT_avg c ((d.takeTriggers c).rd F.CV_STAT_entry c) = n := by
      rw [hentry, hrd2 F.CV_ENT_avg (by decide)]
    refine Does.of_effect_eq (show exec _ s = execConversionDone t c code hold s from rfl) heq ⟨fun hless => ?_, fun hfull => ?_⟩
    · rw [Dev.convert_sums (by rw [havg, htaken]; exact_mod_cast hless)]
      refine ⟨?_, ?_, ((Dev.setConv_keeps ..).rd F.CV_STAT_entry c (by decide)).trans hentry⟩
      · rw [Dev.conv_setConv, if_pos rfl, hsum]
      · rw [Dev.conv_setConv, if_pos rfl, htaken]
    · have hshows := Dev.convert_delivers (d := d.takeTriggers c) (c := c) (code := code) (hold := hold) (by rw [havg, htaken]; exact_mod_cast hfull)
      dsimp only at hshows
      rw [havg, hsum, hentry, hsat, Dev.entryValue, hrd2 F.CV_OFFS_offset (by decide), Dev.takeTriggers_scale] at hshows
      exact hshows
  case abandoned =>
    intro code hold hruns
    refine Does.of_effect_eq (show exec _ s = execConversionDone t c code hold s from rfl) (Dev.seqDone_of_urgent hruns code hold) ⟨?_, ?_, ?_, hentry⟩
    · rw [hconv]
    · rw [hconv]
    · exact hrd2 F.CV_RES (by decide) e
  case test =>
    intro code hold hbusy hfree hphase hruns hready hripe bad
    have htwo : ((d.takeTriggers c).conv c).phase = 2 := by rw [hconv]; exact hphase
    have hbad : (d.takeTriggers c).owBad c code = bad := by
      rw [Dev.owBad, hentry, hrd2 F.CV_ENT_ow_limit (by decide), hrd2 F.CV_ENT_kind (by decide), hconv, Bool.eq_iff_iff, Nat.blt_eq, decide_eq_true_eq]
    have heq : d.seqDone c code hold = ((d.takeTriggers c).judge c bad).nextEntry c := by
      rw [← hbad]
      refine (Dev.seqDone_takes (htakes hold hbusy hfree hruns hready hripe) code).trans ?_
      dsimp only
      rw [htwo, if_neg (by decide), if_pos rfl]
    obtain ⟨hbroken, hflag⟩ := (d.takeTriggers c).judge_shows c bad
    have hnext := ((d.takeTriggers c).judge c bad).nextEntry_keeps c
    rw [hentry] at hbroken
    exact Does.of_effect_eq (show exec _ s = execConversionDone t c code hold s from rfl) heq
      ⟨(hnext.rd2 F.CV_RAW_broken c e (by decide)).trans hbroken, fun h => (hnext.flag F.CV_STAT_broken c (by decide)).trans (hflag h)⟩
  case settled =>
    intro hphase hruns htime
    have hready : ((d.takeTriggers c).conv c).phase = 1 ∧ ((d.takeTriggers c).conv c).running = none ∧
        ((d.takeTriggers c).conv c).owAt + 80 * (d.takeTriggers c).rd F.CV_CFG_ow_time c ≤ (d.takeTriggers c).time := by
      refine ⟨by rw [hconv]; exact hphase, hruns, ?_⟩
      rw [hconv, htake.rd F.CV_CFG_ow_time c (by decide), htake.time]
      exact htime
    refine Does.of_effect_eq (show exec _ s = execOwSettleExpiry t c s from rfl) (if_pos hready) ?_
    rw [Dev.conv_setConv, if_pos rfl, hconv]
    exact ⟨rfl, rfl⟩
  case pass =>
    intro stamp r u hfired hmode htime hholder hfree
    have hrest : (d.setFired u r).fired u = r := (Tbl.get_set ..).trans (if_pos rfl)
    have heq : (match d.fired u with
        | stamp :: r =>
          if d.rd F.CV_CFG_mode c = 2 ∧ stamp / 16 + 120 ≤ d.time ∧ d.holderOf 2 u = some (Kind.logicConv, c.val) ∧
              d.fenced Kind.logicConv c = false then
            let d := d.setFired u r
            if d.flag F.CV_STAT_busy c then (d.put F.CV_STAT_overrun c true).bump F.CV_STAT_overrun_cnt c else d.startPass c
          else d
        | [] => d) = if d.flag F.CV_STAT_busy c then ((d.setFired u r).put F.CV_STAT_overrun c true).bump F.CV_STAT_overrun_cnt c
          else (d.setFired u r).startPass c := by
      rw [hfired]
      exact if_pos ⟨hmode, htime, hholder, hfree⟩
    refine Does.of_effect_eq (show exec _ s = execCvPassStart t c s from rfl) heq ?_
    cases hbusy : d.flag F.CV_STAT_busy c with
    | true =>
      have hbump := Dev.bump_keeps ((d.setFired u r).put F.CV_STAT_overrun c true) F.CV_STAT_overrun_cnt c (by decide)
      refine ⟨?_, fun _ => ⟨(hbump.flag F.CV_STAT_overrun c (by decide)).trans (Dev.flag_put _ F.CV_STAT_overrun _ _ (by decide) rfl), ?_⟩,
        fun h => by cases h⟩
      · rw [if_pos rfl, Dev.fired, hbump.parts .tb (by decide)]
        exact hrest
      · rw [if_pos rfl, Dev.rd_bump _ F.CV_STAT_overrun_cnt _ (by decide), Dev.put,
          Dev.rd_wr_apart _ F.CV_STAT_overrun_cnt F.CV_STAT_overrun _ _ _ (by decide) (by decide)]
        rfl
    | false =>
      rw [if_neg Bool.false_ne_true]
      refine ⟨?_, fun h => (by cases h), fun _ hheld => Dev.startPass_of_held hfree hheld⟩
      rw [Dev.fired, (Dev.startPass_keeps ..).parts .tb (by decide)]
      exact hrest
  case request =>
    intro w kind index hfw hfree hidle hrange
    obtain ⟨hkind, hindex⟩ := d.nameUrgent_shows (c := c) (kind := kind) (index := index) (getBits_lt w 0 3) (getBits_lt w 3 6)
    refine Does.of_firmware (show exec _ s = execUrgentRequest t c w s from rfl) hfw ?_
    rw [show (s.now t).urge c w = _ from Dev.urge_of_free hfree hidle hrange]
    cases hmay : d.mayUrge c kind index with
    | true =>
      have hurge := (d.nameUrgent c kind index).urgeNow_keeps c
      rw [if_pos rfl]
      exact ⟨(hurge.rd F.CV_URG_kind c (by decide)).trans hkind, (hurge.rd F.CV_URG_index c (by decide)).trans hindex,
        fun _ => Dev.urgeNow_shows hfree, fun h => by cases h⟩
    | false =>
      have hstatus := Dev.wr_keeps (d.nameUrgent c kind index) F.CV_URG_status c Code.CLAIMED (by decide)
      have hname : Keeps ⟨false, [F.CV_URG_kind, F.CV_URG_index], []⟩ d (d.nameUrgent c kind index) :=
        ((Dev.wr_keeps _ F.CV_URG_kind _ _ (by decide)).within (by decide)).trans ((Dev.wr_keeps _ F.CV_URG_index _ _ (by decide)).within (by decide))
      rw [if_neg Bool.false_ne_true]
      exact ⟨(hstatus.rd F.CV_URG_kind c (by decide)).trans hkind, (hstatus.rd F.CV_URG_index c (by decide)).trans hindex, fun h => (by cases h), fun _ =>
        ⟨((hstatus.flag F.CV_URG_busy c (by decide)).trans (hname.flag F.CV_URG_busy c (by decide))).trans hidle,
          Dev.rd_wr_of_lt _ F.CV_URG_status _ (by decide) (by decide)⟩⟩
  case answer =>
    intro code since hruns hripe
    have hend := Dev.endUrgentConv_keeps ((((d.takeTriggers c).wr F.CV_URG_RES_code c (code % 65536)).put F.CV_URG_busy c false).wr F.CV_URG_status c Code.OK) c
    have hstatus := Dev.wr_keeps (((d.takeTriggers c).wr F.CV_URG_RES_code c (code % 65536)).put F.CV_URG_busy c false) F.CV_URG_status c Code.OK (by decide)
    have hidle := Dev.put_keeps ((d.takeTriggers c).wr F.CV_URG_RES_code c (code % 65536)) F.CV_URG_busy c false (by decide)
    refine Does.of_effect_eq (show exec _ s = execUrgentConversionDone t c code s from rfl) (Dev.urgentDone_sc hruns hripe) ⟨?_, ?_, ?_, ?_⟩
    · rw [hend.rd F.CV_URG_RES_code c (by decide), hstatus.rd F.CV_URG_RES_code c (by decide), hidle.rd F.CV_URG_RES_code c (by decide)]
      exact Dev.rd_wr_of_lt _ F.CV_URG_RES_code _ (by decide) (Nat.mod_lt _ (by decide))
    · rw [hend.flag F.CV_URG_busy c (by decide), hstatus.flag F.CV_URG_busy c (by decide)]
      exact Dev.flag_put _ F.CV_URG_busy _ _ (by decide) rfl
    · exact (hend.rd F.CV_URG_status c (by decide)).trans (Dev.rd_wr_of_lt _ F.CV_URG_status _ (by decide) (by decide))
    · exact (Dev.endUrgentConv_freeAt ..).trans htake.time
  case calibration =>
    intro code since k op hruns hripe hcal
    have hshunt : (d.takeTriggers c).shunt k = d.shunt k := Dev.shunt_congr (htake.parts .sh (by decide)) k
    have hcalibrated := Dev.calConversion_shows (hshunt ▸ hcal) (signed 16 (code % 65536))
    have hend := Dev.endUrgentConv_keeps ((d.takeTriggers c).calConversion k (signed 16 (code % 65536))) c
    refine Does.of_effect_eq (show exec _ s = execUrgentConversionDone t c code s from rfl) (Dev.urgentDone_cal hruns hripe) ⟨?_, ?_⟩
    · rw [Dev.shunt_congr (hend.parts .sh (by decide)), hcalibrated, ShuntT.calibrated_taken, hshunt]
    · exact (Dev.endUrgentConv_freeAt ..).trans ((Dev.calConversion_keeps ..).time.trans htake.time)

end Sys2Proof.Machine
end

section
/-! Doorbells, queue pairs that open and close, link resets and host errors (R302, R305, R306, R318, R319, R323). -/

namespace Sys2Proof.Machine

/-! ### What ends descriptors leaves the rest of the host interface -/

/-- From d to e the queue pairs' items and their counts of the completed have changed, and nothing else of the host interface. -/
structure Dev.ItemsOnly (d e : Dev) : Prop where
  out : e.hi.out = d.hi.out
  msix : e.hi.msix = d.hi.msix
  pba : e.hi.pba = d.hi.pba
  d3hot : e.hi.d3hot = d.hi.d3hot
  pair : ∀ q, ∃ items done, e.qp q = { d.qp q with items := items, done := done }

theorem Dev.ItemsOnly.of_hi {d e : Dev} (h : e.hi = d.hi) : d.ItemsOnly e :=
  ⟨by rw [h], by rw [h], by rw [h], by rw [h], fun q => ⟨_, _, Dev.qp_congr h q⟩⟩

theorem Dev.ItemsOnly.of_keeps {w : Foot} {d e : Dev} (h : Keeps w d e) (hw : Part.hi ∉ w.parts) : d.ItemsOnly e := .of_hi (h.parts .hi hw)

theorem Dev.ItemsOnly.refl (d : Dev) : d.ItemsOnly d := .of_hi rfl

theorem Dev.ItemsOnly.trans {d e g : Dev} (h : d.ItemsOnly e) (k : e.ItemsOnly g) : d.ItemsOnly g := by
  refine ⟨k.out.trans h.out, k.msix.trans h.msix, k.pba.trans h.pba, k.d3hot.trans h.d3hot, fun q => ?_⟩
  obtain ⟨_, _, he⟩ := h.pair q
  obtain ⟨items, done, hg⟩ := k.pair q
  exact ⟨items, done, by rw [hg, he]⟩

theorem Dev.ItemsOnly.foldl {α : Type} {f : Dev → α → Dev} (h : ∀ (d : Dev) x, d.ItemsOnly (f d x)) (l : List α) : ∀ d : Dev, d.ItemsOnly (l.foldl f d) := by
  induction l with
  | nil => exact .refl
  | cons x l ih => exact fun d => (h d x).trans (ih (f d x))

theorem Dev.setQp_itemsOnly (d : Dev) (q : Nat) (items : List Item) (done : Nat) :
    d.ItemsOnly (d.setQp q { d.qp q with items := items, done := done }) := by
  refine ⟨rfl, rfl, rfl, rfl, fun k => ?_⟩
  rw [Dev.qp_setQp]
  split
  next hk => subst hk; exact ⟨_, _, rfl⟩
  next => exact ⟨_, _, rfl⟩

theorem Dev.onItem_itemsOnly (d : Dev) (q i : Nat) (f : Item → Item) : d.ItemsOnly (d.onItem q i f) := d.setQp_itemsOnly q _ (d.qp q).done

theorem Dev.showQp_itemsOnly (d : Dev) (q : Nat) : d.ItemsOnly (d.showQp q) := .of_keeps (d.showQp_keeps q) (by decide)

theorem Dev.drainItems_itemsOnly (d : Dev) (q : Nat) : d.ItemsOnly (d.drainItems q) := by
  unfold Dev.drainItems
  dsimp only
  split
  · have hgone : (((d.qp q).items.takeWhile Item.hasEnded).foldl (fun d it => d.ledgerItem q it) d).hi = d.hi :=
      (Dev.foldl_keeps (fun e (it : Item) => e.ledgerItem_keeps q it) _ d).parts .hi (by decide)
    generalize ((d.qp q).items.takeWhile Item.hasEnded).foldl (fun d it => d.ledgerItem q it) d = e at hgone
    rw [← Dev.qp_congr hgone q]
    exact ((Dev.ItemsOnly.of_hi hgone).trans (e.setQp_itemsOnly ..)).trans (Dev.showQp_itemsOnly ..)
  · exact d.showQp_itemsOnly q

theorem Dev.finish_itemsOnly (d : Dev) (q i st : Nat) (partly : Bool) (detail : Nat) : d.ItemsOnly (d.finish q i st partly detail) := by
  cases hitem : (d.qp q).item i with
  | none => rw [Dev.finish_of_none hitem]; exact .refl d
  | some it =>
    cases hlive : it.hasEnded with
    | true => rw [Dev.finish_of_ended hitem hlive]; exact .refl d
    | false =>
      rw [Dev.finish_of_live hitem hlive]
      exact ((d.onItem_itemsOnly q i _).trans (.of_hi (d.markEnded_hi q i st partly detail it.desc))).trans (Dev.drainItems_itemsOnly ..)

theorem Dev.endItem_itemsOnly (d : Dev) (q : Nat) (it : Item) : d.ItemsOnly (d.endItem q it) := by
  unfold Dev.endItem
  split
  · split
    · exact d.finish_itemsOnly ..
    · exact .refl d
  · exact d.finish_itemsOnly ..

theorem Dev.endUnread_itemsOnly (d : Dev) (q : Nat) : d.ItemsOnly (d.endUnread q) := by
  unfold Dev.endUnread
  exact (d.setQp_itemsOnly q _ (d.qp q).done).trans (.of_keeps (Dev.wr_keeps _ F.HI_QP_STAT_sq_head _ _ (by decide)) (by decide))

/-- The items of a queue pair that is closed have ended, in ring order. -/
def Dev.endAll (d : Dev) (q : Nat) : Dev := (d.qp q).items.foldl (fun d it => d.endItem q it) d

theorem Dev.endAll_itemsOnly (d : Dev) (q : Nat) : d.ItemsOnly (d.endAll q) := Dev.ItemsOnly.foldl (fun e it => e.endItem_itemsOnly q it) _ d

theorem Dev.endItems_itemsOnly (d : Dev) (q : Nat) : d.ItemsOnly (d.endItems q) := by
  rw [Dev.endItems_eq]
  refine Dev.ItemsOnly.trans (Dev.ItemsOnly.trans ?_ (.of_keeps (Dev.put_keeps _ F.HI_QP_CTRL_draining q true (by decide)) (by decide)))
    (Dev.drainItems_itemsOnly ..)
  split
  · exact (d.endAll_itemsOnly q).trans (Dev.endUnread_itemsOnly ..)
  · exact d.endAll_itemsOnly q

theorem Dev.endPending_itemsOnly (d : Dev) (q : Nat) : d.ItemsOnly (d.endPending q) := by
  rw [Dev.endPending_eq]
  exact (Dev.ItemsOnly.of_keeps (Dev.put_keeps d F.HI_QP_CTRL_enable q false (by decide)) (by decide)).trans (Dev.endItems_itemsOnly ..)

theorem Dev.fenceQpMarks_out (d : Dev) (q cause sub : Nat) : (d.fenceQpMarks q cause sub).hi.out = d.hi.out := by
  have hfence := ((d.put F.HI_QP_FLAGS_fenced q true).wr F.HI_QP_CTRL_status q Code.FENCED).fenceC_keeps Kind.queue q cause sub
  have hhi : (((d.put F.HI_QP_FLAGS_fenced q true).wr F.HI_QP_CTRL_status q Code.FENCED).fenceC Kind.queue q cause sub).hi = d.hi :=
    hfence.parts .hi (by decide)
  exact Eq.trans (b := (((d.put F.HI_QP_FLAGS_fenced q true).wr F.HI_QP_CTRL_status q Code.FENCED).fenceC Kind.queue q cause sub).hi.out) rfl
    (congrArg Hi.out hhi)

theorem Dev.fenceQp_out (d : Dev) (q cause sub : Nat) : (d.fenceQp q cause sub).hi.out = d.hi.out := by
  cases hfree : d.fenced Kind.queue q with
  | true => rw [Dev.fenceQp, hfree, if_pos rfl]
  | false =>
    rw [Dev.fenceQp_free hfree, (Dev.endItems_itemsOnly ..).out]
    exact d.fenceQpMarks_out q cause sub

theorem Dev.ItemsOnly.silent {d e : Dev} (h : d.ItemsOnly e) (q : Nat) : (e.qp q).silent = (d.qp q).silent := by
  obtain ⟨_, _, he⟩ := h.pair q
  rw [he]

theorem Dev.ItemsOnly.sqTail {d e : Dev} (h : d.ItemsOnly e) (q : Nat) : (e.qp q).sqTail = (d.qp q).sqTail := by
  obtain ⟨_, _, he⟩ := h.pair q
  rw [he]

/-! ### Doorbells (R306, R323) -/

theorem bellPair_of_pair (q : Fin 64) : bellPair (0x40 * q) = some q.val := by
  have hq := q.isLt
  rw [bellPair, if_pos (by omega)]
  congr 1
  omega

theorem bellPair_of_none {off : Nat} (h : off % 0x40 ≠ 0) : bellPair off = none := if_neg h

theorem getBits_low (v : Word) : getBits v 0 16 = v.toNat % 65536 := by
  rw [getBits, BitVec.extractLsb'_toNat, Nat.shiftRight_zero]

theorem getBits_high (v : Word) : getBits v 16 16 = v.toNat / 65536 := by
  have hv := v.isLt
  rw [getBits, BitVec.extractLsb'_toNat, Nat.shiftRight_eq_div_pow]
  exact Nat.mod_eq_of_lt (by omega)

/-- Is a doorbell's word accepted on an enabled queue pair? -/
def Dev.bellFits (d : Dev) (q : Nat) (v : Word) : Prop :=
  let p := d.qp q; let n := d.ringSize q; let tail := v.toNat % 65536; let head := v.toNat / 65536
  let sq := d.rd F.HI_QP_STAT_sq_head q; let cq := d.rd F.HI_QP_STAT_cq_tail q
  tail < n ∧ head < n ∧ (p.sqTail + n - sq) % n ≤ (tail + n - sq) % n ∧ (head + n - p.cqHead) % n ≤ (cq + n - p.cqHead) % n

/-- A queue pair after an accepted doorbell. -/
def Dev.rung (d : Dev) (q : Nat) (v : Word) : QpT :=
  let p := d.qp q; let n := d.ringSize q
  { p with sqTail := v.toNat % 65536, cqHead := v.toNat / 65536, announced := p.announced + (v.toNat % 65536 + n - p.sqTail) % n }

theorem Dev.ringBell_fits {d : Dev} {q : Nat} {v : Word} (h : d.bellFits q v) : d.ringBell q v = d.setQp q (d.rung q v) := by
  rw [Dev.ringBell]
  simp only [getBits_low, getBits_high]
  exact if_pos h

theorem Dev.ringBell_rejected {d : Dev} {q : Nat} {v : Word} (h : ¬ d.bellFits q v) :
    d.ringBell q v = (d.put F.HI_QP_FLAGS_bad_bell q true).bump F.HI_QP_FLAGS_bell_err_cnt q := by
  rw [Dev.ringBell]
  simp only [getBits_low, getBits_high]
  exact if_neg h

theorem Dev.bellWord_of_pair (d : Dev) (q : Fin 64) :
    d.bellWord (0x40 * q) = BitVec.ofNat 32 ((d.qp q).sqTail % 65536 + 65536 * (d.qp q).cqHead) := by
  rw [Dev.bellWord, bellPair_of_pair]

theorem Dev.bellWord_rung (d : Dev) (q : Fin 64) (v : Word) : (d.setQp q (d.rung q v)).bellWord (0x40 * q) = v := by
  rw [Dev.bellWord_of_pair, Dev.qp_setQp, if_pos rfl]
  refine BitVec.eq_of_toNat_eq ?_
  have hv := v.isLt
  have hmod : (d.rung q v).sqTail = v.toNat % 65536 := rfl
  have hdiv : (d.rung q v).cqHead = v.toNat / 65536 := rfl
  rw [hmod, hdiv, BitVec.toNat_ofNat]
  omega

theorem Does.of_bell {s : State} {t : Nat} {off : Fin 4096} {q : Fin 64} {v : Word} {P : Dev → Prop} (hoff : off.val = 0x40 * q)
    (hreach : (s.now t).reaches .host = true) (hP : P ((s.now t).doorbell q v)) : Does s (.doorbell t off v) P := by
  refine Does.of_effect (show exec _ s = execDoorbell t off v s from rfl) ?_
  rw [hoff, bellPair_of_pair]
  dsimp only
  rw [hreach]
  exact hP

/-! ### A queue pair opens (R305, R318) -/

/-- The first of two host checks that fails. -/
def Dev.ringsCheck (d : Dev) (q : Nat) : Option Nat :=
  match d.checkHost (d.sqBase q) (32 * d.ringSize q) false with
  | some st => some st
  | none => d.checkHost (d.cqBase q) (16 * d.ringSize q) true

/-- The registers of a queue pair that opens. -/
def Dev.openMarks (d : Dev) (q : Nat) : Dev :=
  let d := (d.put F.HI_QP_CTRL_enable q true).wr F.HI_QP_CTRL_status q Code.OK
  let d := (d.wr F.HI_QP_STAT q 0).put F.HI_QP_FLAGS_phase q true
  (d.markFenced Kind.queue q false).put F.HI_QP_FLAGS_fenced q false

/-- A queue pair that has just opened. -/
def QpT.opened (v : QpT) : QpT := { v with items := [], sqTail := 0, cqHead := 0, bell := none, unsignalled := 0, silent := false }

/-- A queue pair opens; a doorbell that was stored rings. -/
def Dev.openQp (d : Dev) (q : Nat) : Dev :=
  let e := (d.openMarks q).setQp q (d.qp q).opened
  match (d.qp q).bell with
  | some w => e.ringBell q w
  | none => e

theorem Dev.enableQp_of_closed {d : Dev} {q : Nat} (hdrained : d.flag F.HI_QP_CTRL_draining q = false) (hfree : d.ringsFenced = false)
    (hoff : d.qpOn q = false) (m : Master) : d.enableQp m q =
      match d.ringsCheck q with
      | some st => d.wr F.HI_QP_CTRL_status q st
      | none => d.openQp q := by
  rw [Dev.enableQp, hdrained, hfree, hoff, if_neg (by decide), if_neg (by decide), if_neg (by decide)]
  rfl

theorem Dev.checkHost_lt {d : Dev} {addr n e : Nat} {write : Bool} (h : d.checkHost addr n write = some e) : e < 256 := by
  unfold Dev.checkHost at h
  dsimp only at h
  split at h
  · obtain rfl := Option.some.inj h
    decide
  · split at h
    · cases h
    · obtain rfl := Option.some.inj h
      decide

theorem Dev.rd_of_zero {d : Dev} {f : Fd} {i : Nat} (h : d.word (f.off i 0) = 0) : d.rd f i = 0 := by
  rw [Dev.rd, Dev.rd2, h, getBits]
  simp

/-- The registers of a queue pair that opens, before its flags. -/
def Dev.openStat (d : Dev) (q : Nat) : Dev := ((d.put F.HI_QP_CTRL_enable q true).wr F.HI_QP_CTRL_status q Code.OK).wr F.HI_QP_STAT q 0

theorem Dev.openMarks_eq (d : Dev) (q : Nat) : d.openMarks q =
    (((d.openStat q).put F.HI_QP_FLAGS_phase q true).markFenced Kind.queue q false).put F.HI_QP_FLAGS_fenced q false := rfl

theorem Dev.openMarks_keeps (d : Dev) (q : Nat) : Keeps ⟨false, [F.HI_QP_FLAGS_phase, F.HI_QP_FLAGS_fenced], [.flt]⟩ (d.openStat q) (d.openMarks q) := by
  rw [Dev.openMarks_eq]
  exact (((Dev.put_keeps _ F.HI_QP_FLAGS_phase _ _ (by decide)).within (by decide)).trans ((Dev.markFenced_keeps ..).within (by decide))).trans
    ((Dev.put_keeps _ F.HI_QP_FLAGS_fenced _ _ (by decide)).within (by decide))

theorem Dev.openStat_shows (d : Dev) (q : Nat) : let n := d.openStat q
    n.qpOn q = true ∧ n.rd F.HI_QP_CTRL_status q = Code.OK ∧ n.rd F.HI_QP_STAT_sq_head q = 0 ∧ n.rd F.HI_QP_STAT_cq_tail q = 0 := by
  have hstat := Dev.wr_keeps ((d.put F.HI_QP_CTRL_enable q true).wr F.HI_QP_CTRL_status q Code.OK) F.HI_QP_STAT q 0 (by decide)
  have hzero : (d.openStat q).word (F.HI_QP_STAT.off q 0) = 0 := Dev.word_wr_whole _ F.HI_QP_STAT q 0 rfl rfl
  refine ⟨(hstat.flag F.HI_QP_CTRL_enable q (by decide)).trans ?_, (hstat.rd F.HI_QP_CTRL_status q (by decide)).trans ?_,
    Dev.rd_of_zero (f := F.HI_QP_STAT_sq_head) hzero, Dev.rd_of_zero (f := F.HI_QP_STAT_cq_tail) hzero⟩
  · rw [(Dev.wr_keeps _ F.HI_QP_CTRL_status q Code.OK (by decide)).flag F.HI_QP_CTRL_enable q (by decide)]
    exact Dev.flag_put _ F.HI_QP_CTRL_enable _ _ (by decide) rfl
  · exact Dev.rd_wr_of_lt _ F.HI_QP_CTRL_status _ (by decide) (by decide)

theorem Dev.openMarks_shows (d : Dev) (q : Nat) : let n := d.openMarks q
    n.qpOn q = true ∧ n.rd F.HI_QP_CTRL_status q = Code.OK ∧ n.rd F.HI_QP_STAT_sq_head q = 0 ∧ n.rd F.HI_QP_STAT_cq_tail q = 0 ∧
      n.flag F.HI_QP_FLAGS_phase q = true ∧ n.fenced Kind.queue q = false := by
  have hk := d.openMarks_keeps q
  obtain ⟨hon, hstatus, hhead, htail⟩ := d.openStat_shows q
  have hfence := Dev.put_keeps (((d.openStat q).put F.HI_QP_FLAGS_phase q true).markFenced Kind.queue q false) F.HI_QP_FLAGS_fenced q false (by decide)
  have hmark := Dev.markFenced_keeps ((d.openStat q).put F.HI_QP_FLAGS_phase q true) Kind.queue q false
  refine ⟨(hk.flag F.HI_QP_CTRL_enable q (by decide)).trans hon, (hk.rd F.HI_QP_CTRL_status q (by decide)).trans hstatus,
    (hk.rd F.HI_QP_STAT_sq_head q (by decide)).trans hhead, (hk.rd F.HI_QP_STAT_cq_tail q (by decide)).trans htail, ?_, ?_⟩
  · rw [Dev.openMarks_eq, hfence.flag F.HI_QP_FLAGS_phase q (by decide), hmark.flag F.HI_QP_FLAGS_phase q (by decide)]
    exact Dev.flag_put _ F.HI_QP_FLAGS_phase _ _ (by decide) rfl
  · rw [Dev.openMarks_eq, Dev.fenced_congr (hfence.parts .flt (by decide)), Dev.fenced_markFenced, if_pos rfl]

theorem Dev.openMarks_qp (d : Dev) (q k : Nat) : (d.openMarks q).qp k = d.qp k := Dev.qp_congr ((d.openMarks_keeps q).parts .hi (by decide)) k

/-- A doorbell moves the tails of an open queue pair, and may flag it. -/
theorem Dev.ringBell_qp (d : Dev) (q : Nat) (v : Word) : ∃ tail head announced,
    (d.ringBell q v).qp q = { d.qp q with sqTail := tail, cqHead := head, announced := announced } := by
  by_cases hfits : d.bellFits q v
  · rw [Dev.ringBell_fits hfits, Dev.qp_setQp, if_pos rfl]
    exact ⟨_, _, _, rfl⟩
  · rw [Dev.ringBell_rejected hfits]
    exact ⟨_, _, _, rfl⟩

/-- A doorbell that was stored rings. -/
def Dev.ringStored (d : Dev) (q : Nat) (bell : Option Word) : Dev :=
  match bell with
  | some w => d.ringBell q w
  | none => d

theorem Dev.openQp_eq (d : Dev) (q : Nat) : d.openQp q = ((d.openMarks q).setQp q (d.qp q).opened).ringStored q (d.qp q).bell := rfl

theorem Dev.ringStored_keeps (d : Dev) (q : Nat) (bell : Option Word) :
    Keeps ⟨false, [F.HI_QP_FLAGS_bad_bell, F.HI_QP_FLAGS_bell_err_cnt], [.hi]⟩ d (d.ringStored q bell) := by
  cases bell with
  | none => exact Keeps.refl _ _
  | some w => exact d.ringBell_keeps q w

theorem Dev.ringStored_qp (d : Dev) (q : Nat) (bell : Option Word) : ∃ tail head announced,
    (d.ringStored q bell).qp q = { d.qp q with sqTail := tail, cqHead := head, announced := announced } := by
  cases bell with
  | none => exact ⟨_, _, _, rfl⟩
  | some w => exact d.ringBell_qp q w

theorem Dev.openQp_shows (d : Dev) (q : Nat) : let n := d.openQp q
    n.qpOn q = true ∧ n.rd F.HI_QP_CTRL_status q = Code.OK ∧ n.rd F.HI_QP_STAT_sq_head q = 0 ∧ n.rd F.HI_QP_STAT_cq_tail q = 0 ∧
      n.flag F.HI_QP_FLAGS_phase q = true ∧ n.fenced Kind.queue q = false ∧ (n.qp q).items = [] ∧ (n.qp q).bell = none ∧ (n.qp q).silent = false ∧
      ((d.qp q).bell = none → (n.qp q).sqTail = 0 ∧ (n.qp q).cqHead = 0) := by
  obtain ⟨hon, hstatus, hhead, htail, hphase, hfree⟩ := d.openMarks_shows q
  have hk : Keeps ⟨false, [F.HI_QP_FLAGS_bad_bell, F.HI_QP_FLAGS_bell_err_cnt], [.hi]⟩ (d.openMarks q) (d.openQp q) :=
    ((Dev.setQp_keeps ..).within (by decide)).trans (Dev.ringStored_keeps ..)
  have hopened : ((d.openMarks q).setQp q (d.qp q).opened).qp q = (d.qp q).opened := by rw [Dev.qp_setQp, if_pos rfl]
  obtain ⟨tail, head, announced, hqp⟩ := ((d.openMarks q).setQp q (d.qp q).opened).ringStored_qp q (d.qp q).bell
  rw [← Dev.openQp_eq, hopened] at hqp
  refine ⟨(hk.flag F.HI_QP_CTRL_enable q (by decide)).trans hon, (hk.rd F.HI_QP_CTRL_status q (by decide)).trans hstatus,
    (hk.rd F.HI_QP_STAT_sq_head q (by decide)).trans hhead, (hk.rd F.HI_QP_STAT_cq_tail q (by decide)).trans htail,
    (hk.flag F.HI_QP_FLAGS_phase q (by decide)).trans hphase, (Dev.fenced_congr (hk.parts .flt (by decide)) ..).trans hfree,
    congrArg QpT.items hqp, congrArg QpT.bell hqp, congrArg QpT.silent hqp, fun hbell => ?_⟩
  rw [Dev.openQp_eq, hbell, Dev.ringStored, hopened]
  exact ⟨rfl, rfl⟩

/-! ### A queue pair closes (R318, R319) -/

/-- What the end of the descriptors that were read writes. -/
def endAllFoot : Foot := ⟨false, [F.SC_TM_STAT_last_status, F.SC_TM_CNT_refusals, F.SC_CH_STAT_last_status, F.SC_LV_STAT_last_status,
  F.SC_DR_STAT_last_status, F.HI_QP_CTRL_draining, F.HI_QP_FLAGS_in_flight, F.CN_STAT_slots, F.FLT_STAT_lost, F.FLT_LOST], [.hi, .cn, .flt]⟩

theorem Dev.endAll_keeps (d : Dev) (q : Nat) : Keeps endAllFoot d (d.endAll q) :=
  Dev.foldl_keeps (fun (e : Dev) (_ : Item) => Keeps.ite (fun _ => Keeps.ite (fun _ => (e.finishMoved_keeps ..).within (by decide)) fun _ => Keeps.refl _ _) fun _ =>
    (e.finish_keeps ..).within (by decide)) _ d

theorem Dev.endItems_open {d : Dev} {q : Nat} (h : (d.qp q).silent = false) : d.endItems q = ((d.endAll q).put F.HI_QP_CTRL_draining q true).showQp q := by
  have hring : (((d.endAll q).put F.HI_QP_CTRL_draining q true).qp q).silent = false := ((d.endAll_itemsOnly q).silent q).trans h
  rw [Dev.endItems_eq, h, if_neg (by decide)]
  exact Dev.drainItems_of_ring hring

theorem Dev.endItems_silent {d : Dev} {q : Nat} (h : (d.qp q).silent = true) :
    d.endItems q = (((d.endAll q).endUnread q).put F.HI_QP_CTRL_draining q true).drainItems q := by
  rw [Dev.endItems_eq, h, if_pos rfl]
  rfl

/-- The items of a queue pair that neither are let go nor stay. -/
def Item.endsWithPair (it : Item) : Prop := it.phase = .fetched ∨ it.phase = .received ∨ it.isBuffer = true

theorem Item.endsWithPair.live {it : Item} (h : it.endsWithPair) : it.hasEnded = false := by
  rcases h with h | h | h
  · rw [Item.hasEnded, h]
  · rw [Item.hasEnded, h]
  · rw [Item.isBuffer, Bool.and_eq_true, beq_iff_eq] at h
    rw [Item.hasEnded, h.1]

/-- The item itself ends with FENCED. -/
theorem Dev.endItem_over {d : Dev} {q i : Nat} {it : Item} (hit : (d.qp q).item i = some it) (hring : (d.qp q).silent = false) (h : it.endsWithPair) :
    (d.endItem q it).Over q i Code.FENCED := by
  have hindex : it.index = i := QpT.index_of_item hit
  have hlive : d.underWay q it.index := ⟨it, hindex ▸ hit, h.live, hring⟩
  unfold Dev.endItem
  rw [← hindex]
  split
  · split
    · exact Dev.finish_over hlive ..
    next hbegun hbuffer =>
      rcases h with h | h | h
      · rw [Item.begun, h] at hbegun; cases hbegun
      · rw [Item.begun, h] at hbegun; cases hbegun
      · exact absurd h hbuffer
  · exact Dev.finish_over hlive ..

theorem Dev.Over.endItem {d : Dev} {q i st : Nat} (h : d.Over q i st) (k : Nat) (it : Item) : (d.endItem k it).Over q i st := by
  unfold Dev.endItem
  split
  · split
    · exact h.finish ..
    · exact h
  · exact h.finish ..

theorem Dev.Over.foldl_endItem {q i st : Nat} (l : List Item) : ∀ {d : Dev}, d.Over q i st → (l.foldl (fun d it => d.endItem q it) d).Over q i st := by
  induction l with
  | nil => exact id
  | cons x l ih => exact fun h => ih (h.endItem q x)

theorem Dev.endItem_sameItem {d : Dev} {q i : Nat} {it : Item} (hne : it.index ≠ i) (hring : (d.qp q).silent = false) :
    Dev.SameItem q i d (d.endItem q it) := by
  have hpair : (q, it.index) ≠ (q, i) := fun h => hne (congrArg Prod.snd h)
  unfold Dev.endItem
  split
  · split
    · exact d.finish_sameItem hpair hring ..
    · exact .refl q i d
  · exact d.finish_sameItem hpair hring ..

/-- Ending a list of items ends the first one of its index. -/
theorem Dev.foldl_endItem_over {q i : Nat} {it : Item} (h : it.endsWithPair) (l : List Item) : ∀ d : Dev, (d.qp q).item i = some it →
    (d.qp q).silent = false → l.find? (fun it => it.index == i) = some it → (l.foldl (fun d it => d.endItem q it) d).Over q i Code.FENCED := by
  induction l with
  | nil => exact fun _ _ _ hfind => by cases hfind
  | cons x l ih =>
    intro d hit hring hfind
    by_cases hx : x.index = i
    · obtain rfl : x = it := by simpa [hx] using hfind
      have hover := Dev.endItem_over hit hring h
      exact hover.foldl_endItem l
    · have hsame := Dev.endItem_sameItem (d := d) hx hring
      refine ih _ (hsame.1.trans hit) (hsame.2.trans hring) ?_
      rwa [List.find?_cons_of_neg (by simpa using hx)] at hfind

theorem Dev.endAll_over {d : Dev} {q i : Nat} {it : Item} (hit : (d.qp q).item i = some it) (hring : (d.qp q).silent = false) (h : it.endsWithPair) :
    (d.endAll q).Over q i Code.FENCED := Dev.foldl_endItem_over h _ d hit hring hit

theorem length_onFirst (p : Item → Bool) (f : Item → Item) (l : List Item) : (onFirst p f l).length = l.length := by
  induction l with
  | nil => rfl
  | cons x l ih =>
    rw [onFirst]
    split
    · rfl
    · exact congrArg (· + 1) ih

theorem Dev.finish_length {d : Dev} {q : Nat} (hring : (d.qp q).silent = false) (i st : Nat) (partly : Bool) (detail : Nat) :
    ((d.finish q i st partly detail).qp q).items.length = (d.qp q).items.length := by
  cases hitem : (d.qp q).item i with
  | none => rw [Dev.finish_of_none hitem]
  | some it =>
    cases hlive : it.hasEnded with
    | true => rw [Dev.finish_of_ended hitem hlive]
    | false =>
      have hqp := Dev.qp_congr (d.markEnded_hi q i st partly detail it.desc) q
      rw [Dev.qp_onItem] at hqp
      have hopen : ((d.markEnded q i st partly detail it.desc).qp q).silent = false := by rw [hqp]; exact hring
      rw [Dev.finish_of_live hitem hlive, Dev.drainItems_of_ring hopen, Dev.qp_congr (Dev.hi_showQp ..), hqp]
      exact length_onFirst ..

theorem Dev.endItem_length {d : Dev} {q : Nat} (hring : (d.qp q).silent = false) (it : Item) :
    ((d.endItem q it).qp q).items.length = (d.qp q).items.length := by
  unfold Dev.endItem
  split
  · split
    · exact Dev.finish_length hring ..
    · rfl
  · exact Dev.finish_length hring ..

theorem Dev.foldl_endItem_length {q : Nat} (l : List Item) : ∀ {d : Dev}, (d.qp q).silent = false →
    ((l.foldl (fun d it => d.endItem q it) d).qp q).items.length = (d.qp q).items.length := by
  induction l with
  | nil => exact fun _ => rfl
  | cons x l ih => exact fun {d} h => (ih (((d.endItem_itemsOnly q x).silent q).trans h)).trans (Dev.endItem_length h x)

/-- A queue pair that still holds a descriptor, read or not, drains on. -/
theorem Dev.showQp_drains {d : Dev} {q : Nat} (h : (d.qp q).items ≠ [] ∨ d.rd F.HI_QP_STAT_sq_head q ≠ (d.qp q).sqTail) :
    (d.showQp q).flag F.HI_QP_CTRL_draining q = d.flag F.HI_QP_CTRL_draining q := by
  have hflight := Dev.wr_keeps d F.HI_QP_FLAGS_in_flight q (min (d.qp q).inFlight 32) (by decide)
  rw [Dev.showQp, if_neg, hflight.flag F.HI_QP_CTRL_draining q (by decide)]
  rw [hflight.rd F.HI_QP_STAT_sq_head q (by decide), Bool.and_eq_true, List.isEmpty_iff, beq_iff_eq]
  exact fun hboth => h.elim (· hboth.1) (· hboth.2)

theorem Dev.qpOn_put (d : Dev) (q : Nat) (b : Bool) : (d.put F.HI_QP_CTRL_enable q b).qpOn q = b := Dev.flag_put _ F.HI_QP_CTRL_enable _ _ (by decide) rfl

theorem Dev.endItems_qpOn (d : Dev) (q k : Nat) : (d.endItems q).qpOn k = d.qpOn k := (d.endItems_keeps q).flag F.HI_QP_CTRL_enable k (by decide)

theorem Dev.endItems_drains {d : Dev} {q : Nat} (hring : (d.qp q).silent = false)
    (h : (d.qp q).items ≠ [] ∨ d.rd F.HI_QP_STAT_sq_head q ≠ (d.qp q).sqTail) : (d.endItems q).flag F.HI_QP_CTRL_draining q = true := by
  have hkeeps := d.endAll_keeps q
  have hput := Dev.put_keeps (d.endAll q) F.HI_QP_CTRL_draining q true (by decide)
  have hqp : ((d.endAll q).put F.HI_QP_CTRL_draining q true).qp q = (d.endAll q).qp q := rfl
  rw [Dev.endItems_open hring, Dev.showQp_drains]
  · exact Dev.flag_put _ F.HI_QP_CTRL_draining _ _ (by decide) rfl
  · rw [hqp, hput.rd F.HI_QP_STAT_sq_head q (by decide), (d.endAll_itemsOnly q).sqTail]
    rcases h with hitems | hne
    · refine .inl fun hnone => hitems ?_
      have hlength : ((d.endAll q).qp q).items.length = (d.qp q).items.length := Dev.foldl_endItem_length (d.qp q).items hring
      rw [hnone] at hlength
      exact List.eq_nil_of_length_eq_zero hlength.symm
    · refine .inr ?_
      rwa [hkeeps.rd F.HI_QP_STAT_sq_head q (by decide)]

/-- What has not started, and a lent buffer, ends with FENCED where the completion ring can be written. -/
theorem Dev.endItems_ends {d : Dev} {q i : Nat} {it : Item} (hit : (d.qp q).item i = some it) (hring : (d.qp q).silent = false)
    (h : it.endsWithPair) : (d.endItems q).endedWith q i Code.FENCED := by
  obtain ⟨hended, -⟩ := Dev.endAll_over hit hring h
  rw [Dev.endItems_open hring]
  exact Dev.endedWith_congr (Dev.hi_showQp ..) (Dev.endedWith_congr (e := (d.endAll q).put F.HI_QP_CTRL_draining q true) rfl hended)

theorem Dev.endItems_head_open {d : Dev} {q : Nat} (hring : (d.qp q).silent = false) :
    (d.endItems q).rd F.HI_QP_STAT_sq_head q = d.rd F.HI_QP_STAT_sq_head q := by
  rw [Dev.endItems_open hring, (Dev.showQp_keeps ..).rd F.HI_QP_STAT_sq_head q (by decide),
    (Dev.put_keeps _ F.HI_QP_CTRL_draining q true (by decide)).rd F.HI_QP_STAT_sq_head q (by decide), (d.endAll_keeps q).rd F.HI_QP_STAT_sq_head q (by decide)]

theorem Dev.endItems_head_silent {d : Dev} {q : Nat} (hring : (d.qp q).silent = true) :
    (d.endItems q).rd F.HI_QP_STAT_sq_head q = (d.qp q).sqTail % 65536 := by
  rw [Dev.endItems_silent hring, (Dev.drainItems_keeps ..).rd F.HI_QP_STAT_sq_head q (by decide),
    (Dev.put_keeps _ F.HI_QP_CTRL_draining q true (by decide)).rd F.HI_QP_STAT_sq_head q (by decide), ← (d.endAll_itemsOnly q).sqTail q]
  exact Dev.rd_wr _ F.HI_QP_STAT_sq_head _ _ (by decide)

/-! ### Resets of the link (R302) -/

/-- A queue pair that a link reset closes. -/
def Dev.resetPair (d : Dev) (q : Nat) : Dev :=
  let d := (d.setQp q { d.qp q with silent := true, bell := none }).endPending q
  d.setQp q { d.qp q with sqTail := 0, cqHead := 0 }

/-- The registers and the bus state that a link reset clears. -/
def Dev.resetLink (d : Dev) : Dev :=
  let e := ((d.wr F.HI_LINK 0 0).wr F.HI_LINK_resets 0 (min (d.rd F.HI_LINK_resets 0 + 1) 65535)).wr F.HI_ERR 0 0
  e.withHi { e.hi with msix := [], pba := [], d3hot := false, l1 := false }

/-- A link reset ends the fences of the island and of the ring DMA engine, where it may. -/
def Dev.resetFences (d : Dev) (hli dma : Bool) : Dev :=
  let d := if hli then d.markFenced Kind.island 6 false else d
  if dma then d.markFenced Kind.ringDma 0 false else d

theorem Dev.linkReset_eq (d : Dev) (hli dma : Bool) : d.linkReset hli dma = (d.resetLink.each queuePairs Dev.resetPair).resetFences hli dma := rfl

/-- A queue pair that a link reset has closed. -/
def Dev.PairReset (d : Dev) (q : Nat) : Prop :=
  d.qpOn q = false ∧ (d.qp q).silent = true ∧ (d.qp q).bell = none ∧ (d.qp q).sqTail = 0 ∧ (d.qp q).cqHead = 0

theorem Dev.qpOn_put_ne (d : Dev) {q k : Nat} (h : d.qpOn k = false) : (d.put F.HI_QP_CTRL_enable q false).qpOn k = false :=
  Dev.flag_put_of_eq _ F.HI_QP_CTRL_enable q (by decide) rfl h

theorem Dev.endPending_qpOn (d : Dev) (q : Nat) : (d.endPending q).qpOn q = false := by
  rw [Dev.endPending_eq, Dev.endItems_qpOn, Dev.qpOn_put]

theorem Dev.endPending_stays {d : Dev} {k : Nat} (h : d.qpOn k = false) (q : Nat) : (d.endPending q).qpOn k = false := by
  rw [Dev.endPending_eq, Dev.endItems_qpOn]
  exact d.qpOn_put_ne h

/-- The queue pair of a link reset before its descriptors end. -/
def Dev.muted (d : Dev) (q : Nat) : Dev := d.setQp q { d.qp q with silent := true, bell := none }

theorem Dev.resetPair_eq (d : Dev) (q : Nat) : d.resetPair q =
    ((d.muted q).endPending q).setQp q { ((d.muted q).endPending q).qp q with sqTail := 0, cqHead := 0 } := rfl

theorem Dev.resetPair_qp (d : Dev) (q k : Nat) : ∃ items done, (d.resetPair q).qp k =
    if k = q then { d.qp q with items := items, done := done, silent := true, bell := none, sqTail := 0, cqHead := 0 }
    else { d.qp k with items := items, done := done } := by
  obtain ⟨items, done, hended⟩ := ((d.muted q).endPending_itemsOnly q).pair k
  have hmuted : (d.muted q).qp k = if k = q then { d.qp q with silent := true, bell := none } else d.qp k := Dev.qp_setQp ..
  refine ⟨items, done, ?_⟩
  rw [Dev.resetPair_eq, Dev.qp_setQp]
  by_cases hk : k = q
  · subst hk
    rw [if_pos rfl, if_pos rfl, hended, hmuted, if_pos rfl]
  · rw [if_neg hk, if_neg hk, hended, hmuted, if_neg hk]

theorem Dev.resetPair_qpOn (d : Dev) (q : Nat) : (d.resetPair q).qpOn q = false := Dev.endPending_qpOn ..

theorem Dev.resetPair_closes (d : Dev) (q : Nat) : (d.resetPair q).PairReset q := by
  obtain ⟨items, done, hqp⟩ := d.resetPair_qp q q
  rw [if_pos rfl] at hqp
  exact ⟨d.resetPair_qpOn q, congrArg QpT.silent hqp, congrArg QpT.bell hqp, congrArg QpT.sqTail hqp, congrArg QpT.cqHead hqp⟩

theorem Dev.PairReset.resetPair {d : Dev} {k : Nat} (h : d.PairReset k) (q : Nat) : (d.resetPair q).PairReset k := by
  by_cases hk : k = q
  · subst hk
    exact d.resetPair_closes k
  · obtain ⟨hoff, hsilent, hbell, htail, hhead⟩ := h
    obtain ⟨items, done, hqp⟩ := d.resetPair_qp q k
    rw [if_neg hk] at hqp
    have hstays : (d.resetPair q).qpOn k = false := Dev.endPending_stays (d := d.muted q) hoff q
    exact ⟨hstays, (congrArg QpT.silent hqp).trans hsilent, (congrArg QpT.bell hqp).trans hbell, (congrArg QpT.sqTail hqp).trans htail,
      (congrArg QpT.cqHead hqp).trans hhead⟩

theorem Dev.PairReset.congr {d e : Dev} {k : Nat} (h : d.PairReset k) (hon : e.qpOn k = d.qpOn k) (hhi : e.hi = d.hi) : e.PairReset k := by
  rwa [Dev.PairReset, hon, Dev.qp_congr hhi]

/-- The bus state that a link reset leaves. -/
def Dev.BusReset (d : Dev) : Prop := d.hi.msix = [] ∧ d.hi.pba = [] ∧ d.hi.d3hot = false

theorem Dev.BusReset.resetPair {d : Dev} (h : d.BusReset) (q : Nat) : (d.resetPair q).BusReset := by
  obtain ⟨hmsix, hpba, hhot⟩ := h
  have hended := (d.muted q).endPending_itemsOnly q
  rw [Dev.resetPair_eq]
  exact ⟨hended.msix.trans hmsix, hended.pba.trans hpba, hended.d3hot.trans hhot⟩

theorem Dev.resetPair_keeps (d : Dev) (q : Nat) : Keeps ⟨false, [F.SC_TM_STAT_last_status, F.SC_TM_CNT_refusals, F.SC_CH_STAT_last_status,
    F.SC_LV_STAT_last_status, F.SC_DR_STAT_last_status, F.HI_QP_CTRL_enable, F.HI_QP_CTRL_draining, F.HI_QP_STAT_sq_head, F.HI_QP_FLAGS_in_flight,
    F.CN_STAT_slots, F.FLT_STAT_lost, F.FLT_LOST], [.hi, .cn, .flt]⟩ d (d.resetPair q) :=
  (((Dev.setQp_keeps ..).within (by decide)).trans ((Dev.endPending_keeps ..).within (by decide))).trans ((Dev.setQp_keeps ..).within (by decide))

theorem Dev.resetLink_shows (d : Dev) : let n := d.resetLink
    n.rd F.HI_LINK_resets 0 = min (d.rd F.HI_LINK_resets 0 + 1) 65535 ∧ n.rd F.HI_LINK_speed 0 = 0 ∧ n.flag F.HI_LINK_up 0 = false ∧
      n.word (F.HI_ERR.off 0 0) = 0 ∧ n.BusReset := by
  have hzero : (d.wr F.HI_LINK 0 0).word (F.HI_LINK.off 0 0) = 0 := Dev.word_wr_whole d F.HI_LINK 0 0 rfl rfl
  have hresets := Dev.wr_keeps (d.wr F.HI_LINK 0 0) F.HI_LINK_resets 0 (min (d.rd F.HI_LINK_resets 0 + 1) 65535) (by decide)
  have herr := Dev.wr_keeps ((d.wr F.HI_LINK 0 0).wr F.HI_LINK_resets 0 (min (d.rd F.HI_LINK_resets 0 + 1) 65535)) F.HI_ERR 0 0 (by decide)
  have hup : (d.wr F.HI_LINK 0 0).flag F.HI_LINK_up 0 = false := by rw [Dev.flag, Dev.rd_of_zero (f := F.HI_LINK_up) hzero]; rfl
  refine ⟨(herr.rd F.HI_LINK_resets 0 (by decide)).trans (Dev.rd_wr_of_lt _ F.HI_LINK_resets _ (by decide) (by simp [F.HI_LINK_resets])),
    ((herr.rd F.HI_LINK_speed 0 (by decide)).trans (hresets.rd F.HI_LINK_speed 0 (by decide))).trans (Dev.rd_of_zero (f := F.HI_LINK_speed) hzero),
    ((herr.flag F.HI_LINK_up 0 (by decide)).trans (hresets.flag F.HI_LINK_up 0 (by decide))).trans hup, Dev.word_wr_whole _ F.HI_ERR 0 0 rfl rfl,
    rfl, rfl, rfl⟩

theorem Dev.resetFences_keeps (d : Dev) (hli dma : Bool) : Keeps ⟨false, [], [.flt]⟩ d (d.resetFences hli dma) := by
  have hmark : ∀ (e : Dev) (b : Bool) (kind index : Nat), Keeps ⟨false, [], [.flt]⟩ e (if b then e.markFenced kind index false else e) := fun e b kind index =>
    Keeps.ite (fun _ => Dev.markFenced_keeps ..) fun _ => Keeps.refl _ _
  exact (hmark d hli Kind.island 6).trans (hmark _ dma Kind.ringDma 0)

theorem Dev.resetFences_island (d : Dev) (dma : Bool) : (d.resetFences true dma).fenced Kind.island 6 = false := by
  cases dma with
  | false => exact (Dev.fenced_markFenced d ..).trans (if_pos rfl)
  | true =>
    refine (Dev.fenced_markFenced_any (d.markFenced Kind.island 6 false) ..).trans ?_
    rw [if_neg (by decide)]
    exact (Dev.fenced_markFenced d ..).trans (if_pos rfl)

theorem Dev.resetFences_dma (d : Dev) (hli : Bool) : (d.resetFences hli true).fenced Kind.ringDma 0 = false := by
  unfold Dev.resetFences
  dsimp only
  rw [if_pos rfl, Dev.fenced_markFenced, if_pos rfl]

theorem Dev.linkReset_shows (d : Dev) (hli dma : Bool) : let n := d.linkReset hli dma
    n.rd F.HI_LINK_resets 0 = min (d.rd F.HI_LINK_resets 0 + 1) 65535 ∧ n.rd F.HI_LINK_speed 0 = 0 ∧ n.flag F.HI_LINK_up 0 = false ∧
      n.word (F.HI_ERR.off 0 0) = 0 ∧ n.hi.msix = [] ∧ n.hi.pba = [] ∧ n.hi.d3hot = false ∧ (hli = true → n.fenced Kind.island 6 = false) ∧
      (∀ k : Fin 64, n.PairReset k) ∧ (dma = true → n.fenced Kind.ringDma 0 = false) := by
  obtain ⟨hresets, hspeed, hup, herr, hbus⟩ := d.resetLink_shows
  have hpairs := Dev.each_keeps d.resetLink queuePairs Dev.resetPair fun e q => e.resetPair_keeps q
  have hreset : ∀ k : Fin 64, (d.resetLink.each queuePairs Dev.resetPair).PairReset k := fun k =>
    Dev.each_reaches (P := fun e => e.PairReset k) (List.mem_range.mpr k.isLt) (fun e => e.resetPair_closes k) (fun _ q _ h => h.resetPair q) d.resetLink
  have hleft : (d.resetLink.each queuePairs Dev.resetPair).BusReset := Dev.each_preserves (P := Dev.BusReset) (fun _ q _ h => h.resetPair q) _ hbus
  rw [Dev.linkReset_eq]
  generalize d.resetLink.each queuePairs Dev.resetPair = e at hpairs hreset hleft
  have hfences := e.resetFences_keeps hli dma
  have hhi : (e.resetFences hli dma).hi = e.hi := hfences.parts .hi (by decide)
  obtain ⟨hmsix, hpba, hhot⟩ := hleft
  refine ⟨((hfences.rd F.HI_LINK_resets 0 (by decide)).trans (hpairs.rd F.HI_LINK_resets 0 (by decide))).trans hresets,
    ((hfences.rd F.HI_LINK_speed 0 (by decide)).trans (hpairs.rd F.HI_LINK_speed 0 (by decide))).trans hspeed,
    ((hfences.flag F.HI_LINK_up 0 (by decide)).trans (hpairs.flag F.HI_LINK_up 0 (by decide))).trans hup,
    ((hfences.toFrame.word F.HI_ERR 0 (by decide) rfl rfl).trans (hpairs.toFrame.word F.HI_ERR 0 (by decide) rfl rfl)).trans herr,
    (congrArg Hi.msix hhi).trans hmsix, (congrArg Hi.pba hhi).trans hpba, (congrArg Hi.d3hot hhi).trans hhot, fun h => ?_,
    fun k => (hreset k).congr (hfences.flag F.HI_QP_CTRL_enable k (by decide)) hhi, fun h => ?_⟩
  · subst h
    exact e.resetFences_island dma
  · subst h
    exact e.resetFences_dma hli

/-! ### Host errors (R318) -/

/-- The flag of a host error. -/
def errFlag (k : Fin 3) : Fd := if k = 0 then F.HI_ERR_ur_ca else if k = 1 then F.HI_ERR_poisoned else F.HI_ERR_timeout

theorem errFlag_width (k : Fin 3) : (errFlag k).lo + (errFlag k).width ≤ 32 ∧ (errFlag k).width = 1 ∧ (errFlag k).ok = true ∧
    (errFlag k).apart F.HI_ERR_count = true ∧ F.HI_ERR_count.apart (errFlag k) = true := by
  fin_cases k <;> decide

theorem Dev.fenceQp_errFlag (d : Dev) (q cause sub : Nat) (k : Fin 3) : (d.fenceQp q cause sub).flag (errFlag k) 0 = d.flag (errFlag k) 0 := by
  have hfence := d.fenceQp_keeps q cause sub
  match k with
  | 0 => exact hfence.flag F.HI_ERR_ur_ca 0 (by decide)
  | 1 => exact hfence.flag F.HI_ERR_poisoned 0 (by decide)
  | 2 => exact hfence.flag F.HI_ERR_timeout 0 (by decide)

/-- The device of a host error, before its queue pair is fenced. -/
def Dev.noteError (d : Dev) (k : Fin 3) : Dev := ((d.put (errFlag k) 0 true).bump F.HI_ERR_count 0).emit (.nonFatal k.val)

theorem Dev.noteError_shows (d : Dev) (k : Fin 3) : let n := d.noteError k
    n.flag (errFlag k) 0 = true ∧ n.rd F.HI_ERR_count 0 = min (d.rd F.HI_ERR_count 0 + 1) 65535 ∧ n.hi.out = d.hi.out ++ [.nonFatal k.val] ∧
      n.flt = d.flt := by
  obtain ⟨hfits, hone, hok, hapart, hapart'⟩ := errFlag_width k
  have hbump := Dev.bump_keeps (d.put (errFlag k) 0 true) F.HI_ERR_count 0 (by decide)
  have hemit := ((d.put (errFlag k) 0 true).bump F.HI_ERR_count 0).emit_keeps (.nonFatal k.val)
  refine ⟨?_, (hemit.rd F.HI_ERR_count 0 (by decide)).trans ?_, rfl, rfl⟩
  · rw [Dev.noteError, hemit.flag (errFlag k) 0 rfl, hbump.flag (errFlag k) 0 (by simp [Foot.avoids, hapart])]
    exact Dev.flag_put _ (errFlag k) 0 _ hfits hone
  · rw [Dev.rd_bump _ F.HI_ERR_count _ (by decide), Dev.put, Dev.rd_wr_apart _ F.HI_ERR_count (errFlag k) _ _ _ hfits hapart']
    rfl

theorem Dev.fenceQp_marks {d : Dev} {q : Nat} (hfree : d.fenced Kind.queue q = false) (cause sub : Nat) : let n := d.fenceQp q cause sub
    n.flag F.HI_QP_FLAGS_fenced q = true ∧ n.rd F.HI_QP_CTRL_status q = Code.FENCED ∧ (n.qp q).silent = true := by
  have hended := ((d.fenceQpMarks q cause sub).put F.HI_QP_CTRL_enable q false).endItems_keeps q
  have hitems := ((d.fenceQpMarks q cause sub).put F.HI_QP_CTRL_enable q false).endItems_itemsOnly q
  have hoff := Dev.put_keeps (d.fenceQpMarks q cause sub) F.HI_QP_CTRL_enable q false (by decide)
  have hfence := ((d.put F.HI_QP_FLAGS_fenced q true).wr F.HI_QP_CTRL_status q Code.FENCED).fenceC_keeps Kind.queue q cause sub
  have hstatus := Dev.wr_keeps (d.put F.HI_QP_FLAGS_fenced q true) F.HI_QP_CTRL_status q Code.FENCED (by decide)
  have hset := Dev.setQp_keeps (((d.put F.HI_QP_FLAGS_fenced q true).wr F.HI_QP_CTRL_status q Code.FENCED).fenceC Kind.queue q cause sub) q
    { (((d.put F.HI_QP_FLAGS_fenced q true).wr F.HI_QP_CTRL_status q Code.FENCED).fenceC Kind.queue q cause sub).qp q with silent := true }
  rw [Dev.fenceQp_free hfree]
  refine ⟨?_, ?_, (hitems.silent q).trans ?_⟩
  · refine ((hended.flag F.HI_QP_FLAGS_fenced q (by decide)).trans (hoff.flag F.HI_QP_FLAGS_fenced q (by decide))).trans ?_
    refine ((hset.flag F.HI_QP_FLAGS_fenced q (by decide)).trans (hfence.flag F.HI_QP_FLAGS_fenced q (by decide))).trans ?_
    exact (hstatus.flag F.HI_QP_FLAGS_fenced q (by decide)).trans (Dev.flag_put _ F.HI_QP_FLAGS_fenced _ _ (by decide) rfl)
  · refine ((hended.rd F.HI_QP_CTRL_status q (by decide)).trans (hoff.rd F.HI_QP_CTRL_status q (by decide))).trans ?_
    refine ((hset.rd F.HI_QP_CTRL_status q (by decide)).trans (hfence.rd F.HI_QP_CTRL_status q (by decide))).trans ?_
    exact Dev.rd_wr_of_lt _ F.HI_QP_CTRL_status _ (by decide) (by decide)
  · exact congrArg QpT.silent ((Dev.qp_setQp ..).trans (if_pos rfl))

end Sys2Proof.Machine
end

section
namespace Sys2Proof.Machine

/-- Settles O33: doorbells by their three conditions, queue pairs that open from zero and close in ring order, and link resets that mute them all. -/
theorem queuesOpenAndClose : Obligations.QueuesOpenAndClose := by
  unfold Obligations.QueuesOpenAndClose
  intro s t q d p N sq cq
  refine ⟨?bell, ?elsewhere, ?opens, ?closes, ?mute, ?reset, ?error⟩
  case bell =>
    intro v off hoff tail head
    refine ⟨fun hreach hclosed => Does.of_bell hoff hreach ?_, fun hreach hopen htail hhead hsq hcq => Does.of_bell hoff hreach ?_,
      fun hreach hopen hbad => Does.of_bell hoff hreach ?_⟩
    · rw [Dev.doorbell, if_neg (by rw [show (s.now t).qpOn q = false from hclosed]; decide), Dev.qp_setQp, if_pos rfl]
    · rw [Dev.doorbell, if_pos hopen, Dev.ringBell_fits ⟨htail, hhead, hsq, hcq⟩, hoff]
      exact ⟨(Dev.qp_setQp ..).trans (if_pos rfl), d.bellWord_rung q v⟩
    · have hrejected : ¬ d.bellFits q v := by
        rintro ⟨htail, hhead, hsq, hcq⟩
        rcases hbad with h | h | h | h
        · exact absurd htail (Nat.not_lt.mpr h)
        · exact absurd hhead (Nat.not_lt.mpr h)
        · exact absurd hsq (Nat.not_le.mpr h)
        · exact absurd hcq (Nat.not_le.mpr h)
      have hbump := Dev.bump_keeps (d.put F.HI_QP_FLAGS_bad_bell q true) F.HI_QP_FLAGS_bell_err_cnt q (by decide)
      rw [Dev.doorbell, if_pos hopen, show (s.now t).ringBell q v = _ from Dev.ringBell_rejected hrejected]
      refine ⟨rfl, rfl, (hbump.flag F.HI_QP_FLAGS_bad_bell q (by decide)).trans (Dev.flag_put _ F.HI_QP_FLAGS_bad_bell _ _ (by decide) rfl), ?_⟩
      rw [Dev.rd_bump _ F.HI_QP_FLAGS_bell_err_cnt _ (by decide), Dev.put,
        Dev.rd_wr_apart _ F.HI_QP_FLAGS_bell_err_cnt F.HI_QP_FLAGS_bad_bell _ _ _ (by decide) (by decide)]
  case elsewhere =>
    intro v off hoff
    refine ⟨by rw [Dev.bellWord, bellPair_of_none hoff], Does.of_effect_eq (n := d) (show exec _ s = execDoorbell t off v s from rfl) ?_ rfl⟩
    rw [bellPair_of_none hoff]
  case opens =>
    intro m hmay hdrained hfree hoff
    have hof : ∀ {P : Dev → Prop}, P (d.enableQp m q) → Does s (.qpEnable t m q) P := fun {P} hP => by
      refine Does.of_master (show exec _ s = execQpEnable t m q s from rfl) ?_
      rw [if_pos (show (s.now t).mayStore m = true from hmay)]
      exact hP
    have heq := Dev.enableQp_of_closed hdrained hfree hoff m
    refine ⟨fun hsqOk hcqOk => hof ?_, fun e hbad => hof ?_⟩
    · have hcheck : d.ringsCheck q = none := by
        rw [Dev.ringsCheck, hsqOk]
        exact hcqOk
      rw [heq, hcheck]
      exact d.openQp_shows q
    · have hcheck : d.ringsCheck q = some e ∧ e < 256 := by
        rcases hbad with hbad | ⟨hsqOk, hbad⟩
        · exact ⟨by rw [Dev.ringsCheck, hbad], Dev.checkHost_lt hbad⟩
        · exact ⟨by rw [Dev.ringsCheck, hsqOk]; exact hbad, Dev.checkHost_lt hbad⟩
      obtain ⟨hcheck, hlt⟩ := hcheck
      rw [heq, hcheck]
      exact ⟨((Dev.wr_keeps d F.HI_QP_CTRL_status q e (by decide)).flag F.HI_QP_CTRL_enable q (by decide)).trans hoff,
        Dev.rd_wr_of_lt _ F.HI_QP_CTRL_status _ (by decide) hlt, rfl⟩
  case closes =>
    intro hon hring
    have heq : d.disableQp q = (d.put F.HI_QP_CTRL_enable q false).endItems q := if_pos hon
    have hput := Dev.put_keeps d F.HI_QP_CTRL_enable q false (by decide)
    refine Does.of_effect_eq (show exec _ s = execQpDisable t q s from rfl) heq ⟨?_, ?_, ?_, fun h => ?_, fun i it hit hends => ?_⟩
    · rw [Dev.endItems_qpOn, Dev.qpOn_put]
    · exact (Dev.endItems_head_open (d := d.put F.HI_QP_CTRL_enable q false) hring).trans (hput.rd F.HI_QP_STAT_sq_head q (by decide))
    · exact (Dev.endItems_itemsOnly ..).sqTail q
    · exact Dev.endItems_drains (d := d.put F.HI_QP_CTRL_enable q false) hring (by rwa [hput.rd F.HI_QP_STAT_sq_head q (by decide)])
    · exact Dev.endItems_ends (d := d.put F.HI_QP_CTRL_enable q false) hit hring hends
  case mute =>
    intro hon hring
    have heq : d.disableQp q = (d.put F.HI_QP_CTRL_enable q false).endItems q := if_pos hon
    refine Does.of_effect_eq (show exec _ s = execQpDisable t q s from rfl) heq ⟨?_, Dev.endItems_head_silent (d := d.put F.HI_QP_CTRL_enable q false) hring⟩
    rw [Dev.endItems_qpOn, Dev.qpOn_put]
  case reset =>
    intro c hli hc
    rcases hc with rfl | rfl | rfl
    · obtain ⟨h1, h2, h3, h4, h5, h6, h7, h8, h9, hdma⟩ := d.linkReset_shows hli true
      exact Does.of_effect (show exec _ s = execPerst t hli s from rfl) ⟨h1, h2, h3, h4, h5, h6, h7, h8, h9, fun _ => hdma rfl⟩
    · obtain ⟨h1, h2, h3, h4, h5, h6, h7, h8, h9, -⟩ := d.linkReset_shows hli false
      exact Does.of_effect (show exec _ s = execHotReset t hli s from rfl) ⟨h1, h2, h3, h4, h5, h6, h7, h8, h9, fun h => absurd rfl (h hli)⟩
    · obtain ⟨h1, h2, h3, h4, h5, h6, h7, h8, h9, hdma⟩ := d.linkReset_shows hli true
      exact Does.of_effect (show exec _ s = execFunctionLevelReset t hli s from rfl) ⟨h1, h2, h3, h4, h5, h6, h7, h8, h9, fun _ => hdma rfl⟩
  case error =>
    intro k
    obtain ⟨hflag, hcount, hout, hflt⟩ := d.noteError_shows k
    have heq : (s.now t).put (if k.val = 0 then F.HI_ERR_ur_ca else if k.val = 1 then F.HI_ERR_poisoned else F.HI_ERR_timeout) 0 true =
        d.put (errFlag k) 0 true := by
      fin_cases k <;> rfl
    have hfence := (d.noteError k).fenceQp_keeps q 0 0
    refine Does.of_effect_eq (n := (d.noteError k).fenceQp q 0 0) (show exec _ s = execHostError t q k s from rfl) (by rw [heq]; rfl) ⟨?_, ?_, ?_, ?_, ?_⟩
    · exact (Dev.fenceQp_errFlag ..).trans hflag
    · exact (hfence.rd F.HI_ERR_count 0 (by decide)).trans hcount
    · exact (Dev.fenceQp_fenced ..).trans (if_pos rfl)
    · exact ⟨[], (Dev.fenceQp_out ..).trans hout⟩
    · intro hfree
      have hopen : (d.noteError k).fenced Kind.queue q = false := (Dev.fenced_congr hflt ..).trans hfree
      obtain ⟨hmark, hstatus, hsilent⟩ := Dev.fenceQp_marks hopen 0 0
      exact ⟨Dev.fenceQp_off hopen 0 0, hmark, hstatus, hsilent⟩

end Sys2Proof.Machine
end

section
/-! Descriptors are fetched, received, completed and time out (R307, R310 to R313, R317). -/

namespace Sys2Proof.Machine

/-! ### The turn of a queue pair (R307) -/

theorem le_foldl_max {α : Type} (f : α → Nat) {q : α} (l : List α) : ∀ a : Nat, (a ≤ l.foldl (fun p k => max p (f k)) a) ∧
    (q ∈ l → f q ≤ l.foldl (fun p k => max p (f k)) a) := by
  induction l with
  | nil => exact fun a => ⟨le_refl a, fun h => by cases h⟩
  | cons x l ih =>
    intro a
    obtain ⟨hstart, hmem⟩ := ih (max a (f x))
    refine ⟨(le_max_left ..).trans hstart, fun h => ?_⟩
    rcases List.mem_cons.mp h with rfl | h
    · exact (le_max_right ..).trans hstart
    · exact hmem h

/-- The one element of a list that a predicate picks. -/
theorem find?_of_only {α : Type} {p : α → Bool} {l : List α} {q : α} (hq : q ∈ l) (hp : p q = true) (honly : ∀ k ∈ l, p k = true → k = q) :
    l.find? p = some q := by
  cases hfind : l.find? p with
  | none => exact absurd hp (by simpa using List.find?_eq_none.mp hfind q hq)
  | some k => rw [honly k (List.mem_of_find?_eq_some hfind) (List.find?_some hfind)]

/-- Has a queue pair something to do: a descriptor to fetch, or a record to write? -/
def Dev.wantsTurn (d : Dev) (q : Nat) : Bool := !d.hi.d3hot && (d.mayFetch q || d.mayRecord q)

/-- The queue pair of the highest priority of those that have something to do has the turn. -/
theorem Dev.turn_of_highest {d : Dev} {q : Fin 64} (hwants : d.wantsTurn q = true)
    (hothers : ∀ k : Fin 64, k ≠ q → d.wantsTurn k = true → d.rd F.HI_QP_CFG_prio k < d.rd F.HI_QP_CFG_prio q) : d.turn = some q.val := by
  have hmem : q.val ∈ queuePairs.filter d.wantsTurn := List.mem_filter.mpr ⟨List.mem_range.mpr q.isLt, hwants⟩
  have hle : ∀ k ∈ queuePairs.filter d.wantsTurn, d.rd F.HI_QP_CFG_prio k ≤ d.rd F.HI_QP_CFG_prio q := fun k hk => by
    obtain ⟨hlt, hk⟩ := List.mem_filter.mp hk
    by_cases hkq : k = q
    · rw [hkq]
    · exact (hothers ⟨k, List.mem_range.mp hlt⟩ (fun h => hkq (congrArg Fin.val h)) hk).le
  have htop : (queuePairs.filter d.wantsTurn).foldl (fun p k => max p (d.rd F.HI_QP_CFG_prio k)) 0 = d.rd F.HI_QP_CFG_prio q := by
    obtain ⟨-, hge⟩ := le_foldl_max (fun k => d.rd F.HI_QP_CFG_prio k) (q := q.val) (queuePairs.filter d.wantsTurn) 0
    exact le_antisymm (foldl_max_le _ _ (Nat.zero_le _) hle) (hge hmem)
  have hq := q.isLt
  rw [Dev.turn]
  change (queuePairs.map fun k => (d.served ((queuePairs.filter d.wantsTurn).foldl (fun p k => max p (d.rd F.HI_QP_CFG_prio k)) 0) + 1 + k) % 64).find?
    (fun k => (queuePairs.filter d.wantsTurn).contains k &&
      d.rd F.HI_QP_CFG_prio k == (queuePairs.filter d.wantsTurn).foldl (fun p k => max p (d.rd F.HI_QP_CFG_prio k)) 0) = some q.val
  rw [htop]
  refine find?_of_only (List.mem_map.mpr ⟨(q.val + 64 - (d.served (d.rd F.HI_QP_CFG_prio q) + 1) % 64) % 64, List.mem_range.mpr (Nat.mod_lt _ (by decide)), by omega⟩)
    ?_ fun k _ hk => ?_
  · rw [Bool.and_eq_true, beq_iff_eq]
    exact ⟨List.contains_iff_mem.mpr hmem, rfl⟩
  · rw [Bool.and_eq_true, beq_iff_eq] at hk
    obtain ⟨hlt, hwant⟩ := List.mem_filter.mp (List.contains_iff_mem.mp hk.1)
    by_contra hne
    exact absurd hk.2 (hothers ⟨k, List.mem_range.mp hlt⟩ (fun h => hne (congrArg Fin.val h)) hwant).ne

/-! ### A fetch (R307) -/

/-- A queue pair's next descriptor is on its way. -/
def Dev.withFetched (d : Dev) (q : Nat) : Dev :=
  d.setQp q { d.qp q with items := (d.qp q).items ++ [if d.qpOn q then { index := d.rd F.HI_QP_STAT_sq_head q } else Item.unread (d.rd F.HI_QP_STAT_sq_head q)] }

/-- The read of a queue pair's next descriptor sets out. -/
def Dev.sendFetch (d : Dev) (q i next addr : Nat) : Dev :=
  (((d.hadTurn q).wr F.HI_QP_STAT_sq_head q next).emit (.fetch q i addr)).showQp q

/-- The next descriptor of a queue pair that has the turn is fetched. -/
def Dev.fetchNext (d : Dev) (q : Nat) : Dev :=
  (d.withFetched q).sendFetch q (d.rd F.HI_QP_STAT_sq_head q) ((d.rd F.HI_QP_STAT_sq_head q + 1) % d.ringSize q)
    (d.sqBase q + 32 * d.rd F.HI_QP_STAT_sq_head q)

theorem Dev.fetchNext_eq (d : Dev) (q : Nat) :
    (let i := d.rd F.HI_QP_STAT_sq_head q
     let d := d.setQp q { d.qp q with items := (d.qp q).items ++ [if d.qpOn q then { index := i } else Item.unread i] }
     let d := (d.hadTurn q).wr F.HI_QP_STAT_sq_head q ((i + 1) % d.ringSize q)
     (d.emit (.fetch q i (d.sqBase q + 32 * i))).showQp q) = d.fetchNext q := by
  have hring : (d.withFetched q).ringSize q = d.ringSize q := rfl
  have hbase : (((d.withFetched q).hadTurn q).wr F.HI_QP_STAT_sq_head q ((d.rd F.HI_QP_STAT_sq_head q + 1) % d.ringSize q)).sqBase q = d.sqBase q :=
    (Dev.wr_keeps _ F.HI_QP_STAT_sq_head q _ (by decide)).rd64 F.HI_QP_SQ_LO F.HI_QP_SQ_HI q (by decide) (by decide)
  change ((((d.withFetched q).hadTurn q).wr F.HI_QP_STAT_sq_head q ((d.rd F.HI_QP_STAT_sq_head q + 1) % (d.withFetched q).ringSize q)).emit
    (.fetch q (d.rd F.HI_QP_STAT_sq_head q) ((((d.withFetched q).hadTurn q).wr F.HI_QP_STAT_sq_head q
      ((d.rd F.HI_QP_STAT_sq_head q + 1) % (d.withFetched q).ringSize q)).sqBase q + 32 * d.rd F.HI_QP_STAT_sq_head q))).showQp q = _
  rw [hring, hbase]
  rfl

theorem Dev.sendFetch_shows (d : Dev) (q i next addr : Nat) : let n := d.sendFetch q i next addr
    n.hi.out = d.hi.out ++ [.fetch q i addr] ∧ (∀ k, n.qp k = d.qp k) ∧ n.rd F.HI_QP_STAT_sq_head q = next % 65536 := by
  have hshow := Dev.showQp_keeps (((d.hadTurn q).wr F.HI_QP_STAT_sq_head q next).emit (.fetch q i addr)) q
  have hhi := hshow.parts .hi (by decide)
  have hqp : ∀ k, (((d.hadTurn q).wr F.HI_QP_STAT_sq_head q next).emit (.fetch q i addr)).qp k = d.qp k := fun _ => rfl
  exact ⟨congrArg Hi.out hhi, fun k => (Dev.qp_congr hhi k).trans (hqp k),
    (hshow.rd F.HI_QP_STAT_sq_head q (by decide)).trans (Dev.rd_wr (d.hadTurn q) F.HI_QP_STAT_sq_head q next (by decide))⟩

theorem Dev.fetchNext_shows (d : Dev) (q : Nat) : let i := d.rd F.HI_QP_STAT_sq_head q; let n := d.fetchNext q
    n.hi.out = d.hi.out ++ [.fetch q i (d.sqBase q + 32 * i)] ∧
      (n.qp q).items = (d.qp q).items ++ [if d.qpOn q then { index := i } else Item.unread i] ∧
      n.rd F.HI_QP_STAT_sq_head q = (i + 1) % d.ringSize q % 65536 ∧ ∀ k, k ≠ q → n.qp k = d.qp k := by
  obtain ⟨hout, hqp, hhead⟩ := (d.withFetched q).sendFetch_shows q (d.rd F.HI_QP_STAT_sq_head q)
    ((d.rd F.HI_QP_STAT_sq_head q + 1) % d.ringSize q) (d.sqBase q + 32 * d.rd F.HI_QP_STAT_sq_head q)
  refine ⟨hout, (congrArg QpT.items (hqp q)).trans ?_, hhead, fun k hk => (hqp k).trans ?_⟩
  · rw [Dev.withFetched, Dev.qp_setQp, if_pos rfl]
  · rw [Dev.withFetched, Dev.qp_setQp, if_neg hk]

/-! ### Vectors (R313) -/

/-- From d to e queue pair q signals at most: it holds what it held, and messages may follow on the link. -/
def Dev.Signals (d : Dev) (q : Nat) (e : Dev) : Prop :=
  (e.qp q).items = (d.qp q).items ∧ (e.qp q).done = (d.qp q).done ∧ ∃ more, e.hi.out = d.hi.out ++ more

theorem Dev.Signals.trans {d e g : Dev} {q : Nat} (h : d.Signals q e) (k : e.Signals q g) : d.Signals q g := by
  obtain ⟨hitems, hdone, more, hout⟩ := h
  obtain ⟨kitems, kdone, more', kout⟩ := k
  exact ⟨kitems.trans hitems, kdone.trans hdone, more ++ more', by rw [kout, hout, List.append_assoc]⟩

theorem Dev.deliverVector_qp (d : Dev) (v q : Nat) : (d.deliverVector v).qp q = d.qp q := by
  unfold Dev.deliverVector
  split
  · rfl
  · rfl

theorem Dev.deliverVector_signals (d : Dev) (v q : Nat) : d.Signals q (d.deliverVector v) := by
  rw [Dev.Signals, d.deliverVector_qp]
  refine ⟨rfl, rfl, ?_⟩
  unfold Dev.deliverVector
  split
  · exact ⟨[], (List.append_nil _).symm⟩
  · exact ⟨_, rfl⟩

/-- A queue pair without unsignalled completions. -/
def Dev.signalled (d : Dev) (q : Nat) : Dev := d.setQp q { d.qp q with unsignalled := 0 }

theorem Dev.signal_eq (d : Dev) (q : Nat) : d.signal q = if d.flag F.HI_QP_CFG_vec_en q &&
      d.holderOf 6 (d.rd F.HI_QP_CFG_vector q) == some (Kind.queue, q) then (d.signalled q).deliverVector (d.rd F.HI_QP_CFG_vector q)
    else d.signalled q := rfl

theorem Dev.signalled_qp (d : Dev) (q : Nat) : (d.signalled q).qp q = { d.qp q with unsignalled := 0 } := (Dev.qp_setQp ..).trans (if_pos rfl)

theorem Dev.signal_qp (d : Dev) (q : Nat) : (d.signal q).qp q = { d.qp q with unsignalled := 0 } := by
  rw [Dev.signal_eq]
  split
  · rw [Dev.deliverVector_qp, Dev.signalled_qp]
  · rw [Dev.signalled_qp]

theorem Dev.signal_signals (d : Dev) (q : Nat) : d.Signals q (d.signal q) := by
  rw [Dev.Signals, d.signal_qp]
  refine ⟨rfl, rfl, ?_⟩
  rw [Dev.signal_eq]
  split
  · obtain ⟨-, -, more, hout⟩ := (d.signalled q).deliverVector_signals (d.rd F.HI_QP_CFG_vector q) q
    exact ⟨more, hout⟩
  · exact ⟨[], (List.append_nil _).symm⟩

theorem Dev.moderate_signals (d : Dev) (q : Nat) (urgent : Bool) : d.Signals q (d.moderate q urgent) := by
  have hcount : ∀ n at', d.Signals q (d.setQp q { d.qp q with unsignalled := n, unsigAt := at' }) := fun n at' => by
    rw [Dev.Signals, Dev.qp_setQp, if_pos rfl]
    exact ⟨rfl, rfl, [], (List.append_nil _).symm⟩
  unfold Dev.moderate
  dsimp only
  generalize (if (d.qp q).unsignalled = 0 then d.time else (d.qp q).unsigAt) = at'
  split
  · exact (hcount _ _).trans (Dev.signal_signals ..)
  · exact hcount _ _

/-! ### A completion (R312) -/

/-- The completion of the oldest descriptor is on the link, and the tail and the phase have moved on. -/
def Dev.complete (d : Dev) (q : Nat) (ws : List Word) : Dev :=
  let c := d.rd F.HI_QP_STAT_cq_tail q
  let n := d.ringSize q
  let d := (d.emit (.words (d.cqBase q + 16 * c) ws)).wr F.HI_QP_STAT_cq_tail q ((c + 1) % n)
  if c + 1 = n then d.put F.HI_QP_FLAGS_phase q (!d.flag F.HI_QP_FLAGS_phase q) else d

/-- The oldest descriptor leaves its queue pair, which may signal. -/
def Dev.retireOldest (d : Dev) (q : Nat) (rest : List Item) (done : Nat) (urgent : Bool) : Dev :=
  ((d.setQp q { d.qp q with items := rest, done := done }).moderate q urgent).showQp q

theorem Dev.complete_keeps (d : Dev) (q : Nat) (ws : List Word) : Keeps ⟨false, [F.HI_QP_STAT_cq_tail, F.HI_QP_FLAGS_phase], [.hi]⟩ d (d.complete q ws) := by
  have htail := ((d.emit_keeps (.words (d.cqBase q + 16 * d.rd F.HI_QP_STAT_cq_tail q) ws)).within (b := ⟨false, [F.HI_QP_STAT_cq_tail,
    F.HI_QP_FLAGS_phase], [.hi]⟩) (by decide)).trans ((Dev.wr_keeps _ F.HI_QP_STAT_cq_tail q ((d.rd F.HI_QP_STAT_cq_tail q + 1) % d.ringSize q)
      (by decide)).within (by decide))
  exact Keeps.ite (fun _ => htail.trans ((Dev.put_keeps _ F.HI_QP_FLAGS_phase _ _ (by decide)).within (by decide))) fun _ => htail

theorem Dev.complete_shows (d : Dev) (q : Nat) (ws : List Word) : let n := d.complete q ws; let c := d.rd F.HI_QP_STAT_cq_tail q
    n.hi.out = d.hi.out ++ [.words (d.cqBase q + 16 * c) ws] ∧ n.rd F.HI_QP_STAT_cq_tail q = (c + 1) % d.ringSize q % 65536 ∧
      (n.flag F.HI_QP_FLAGS_phase q = if c + 1 = d.ringSize q then !d.flag F.HI_QP_FLAGS_phase q else d.flag F.HI_QP_FLAGS_phase q) ∧
      n.qp q = d.qp q := by
  have hwrite := Dev.wr_keeps (d.emit (.words (d.cqBase q + 16 * d.rd F.HI_QP_STAT_cq_tail q) ws)) F.HI_QP_STAT_cq_tail q
    ((d.rd F.HI_QP_STAT_cq_tail q + 1) % d.ringSize q) (by decide)
  have hphase : (((d.emit (.words (d.cqBase q + 16 * d.rd F.HI_QP_STAT_cq_tail q) ws)).wr F.HI_QP_STAT_cq_tail q
      ((d.rd F.HI_QP_STAT_cq_tail q + 1) % d.ringSize q)).flag F.HI_QP_FLAGS_phase q) = d.flag F.HI_QP_FLAGS_phase q :=
    hwrite.flag F.HI_QP_FLAGS_phase q (by decide)
  have htail : (((d.emit (.words (d.cqBase q + 16 * d.rd F.HI_QP_STAT_cq_tail q) ws)).wr F.HI_QP_STAT_cq_tail q
      ((d.rd F.HI_QP_STAT_cq_tail q + 1) % d.ringSize q)).rd F.HI_QP_STAT_cq_tail q) = (d.rd F.HI_QP_STAT_cq_tail q + 1) % d.ringSize q % 65536 :=
    Dev.rd_wr _ F.HI_QP_STAT_cq_tail _ _ (by decide)
  unfold Dev.complete
  dsimp only
  split
  · refine ⟨rfl, ?_, ?_, rfl⟩
    · exact ((Dev.put_keeps _ F.HI_QP_FLAGS_phase q _ (by decide)).rd F.HI_QP_STAT_cq_tail q (by decide)).trans htail
    · rw [hphase]
      exact Dev.flag_put _ F.HI_QP_FLAGS_phase _ _ (by decide) rfl
  · exact ⟨rfl, htail, hphase, rfl⟩

theorem Dev.retireOldest_shows (d : Dev) (q : Nat) (rest : List Item) (done : Nat) (urgent : Bool) : let n := d.retireOldest q rest done urgent
    (n.qp q).items = rest ∧ (n.qp q).done = done ∧ ∃ more, n.hi.out = d.hi.out ++ more := by
  have hshow := Dev.showQp_keeps ((d.setQp q { d.qp q with items := rest, done := done }).moderate q urgent) q
  have hhi := hshow.parts .hi (by decide)
  obtain ⟨hitems, hdone, more, hout⟩ := (d.setQp q { d.qp q with items := rest, done := done }).moderate_signals q urgent
  have hset : (d.setQp q { d.qp q with items := rest, done := done }).qp q = { d.qp q with items := rest, done := done } :=
    (Dev.qp_setQp ..).trans (if_pos rfl)
  rw [hset] at hitems hdone
  exact ⟨(congrArg QpT.items (Dev.qp_congr hhi q)).trans hitems, (congrArg QpT.done (Dev.qp_congr hhi q)).trans hdone, more, (congrArg Hi.out hhi).trans hout⟩

theorem Dev.retireOldest_keeps (d : Dev) (q : Nat) (rest : List Item) (done : Nat) (urgent : Bool) :
    Keeps ⟨false, [F.HI_QP_CTRL_draining, F.HI_QP_FLAGS_in_flight], [.hi]⟩ d (d.retireOldest q rest done urgent) :=
  (((Dev.setQp_keeps ..).within (by decide)).trans ((Dev.moderate_keeps ..).within (by decide))).trans ((Dev.showQp_keeps ..).within (by decide))

theorem Dev.mayComplete_iff (d : Dev) (q : Nat) : d.mayComplete q = true ↔
    (d.qp q).silent = false ∧ d.unconsumed q + 1 < d.ringSize q ∧ d.hi.d3hot = false := by
  rw [Dev.mayComplete, Bool.and_eq_true, Bool.and_eq_true, Nat.blt_eq, Bool.not_eq_true', Bool.not_eq_true', Nat.lt_sub_iff_add_lt, and_assoc]

/-! ### A passed deadline (R311) -/

theorem Dev.checkDescr_onItem (d : Dev) (q i : Nat) (f : Item → Item) (k : Nat) (x : Descr) : (d.onItem q i f).checkDescr k x = d.checkDescr k x := rfl

section
variable {d : Dev} {q i st : Nat} (h : d.Over q i st)
include h

theorem Dev.Over.keeps {w : Foot} {e : Dev} (hk : Keeps w d e) (hp : Part.hi ∉ w.parts) : e.Over q i st := (hk.sameItem q i hp).over h

theorem Dev.Over.chFinish (word : Nat) : (d.chFinish word).Over q i st :=
  (h.finishJob d.ch.job word 0).keeps (Dev.onCh_keeps ..) (by decide)

theorem Dev.Over.chRest : d.chRest.Over q i st := (d.chRest_sameItem q i).over h

end

theorem Dev.Over.endStops {q i st : Nat} (l : List (Nat × Nat)) : ∀ {d : Dev}, d.Over q i st → (d.endStops l).Over q i st := by
  induction l with
  | nil => exact id
  | cons j l ih => exact fun h => ih (h.finish j.1 j.2 Code.OK false 0)

theorem Dev.Over.chStopped {d : Dev} {q i st : Nat} (h : d.Over q i st) : d.chStopped.Over q i st :=
  (Dev.Over.endStops d.ch.stopJobs h).keeps (Dev.onCh_keeps ..) (by decide)

theorem Dev.Over.hardStop {d : Dev} {q i st : Nat} (h : d.Over q i st) (cause : Nat) : (d.hardStop cause).Over q i st := by
  have hword : (d.chRest.hardWord d.ch.job.isSome cause).Over q i st := by
    unfold Dev.hardWord
    split
    · exact h.chRest.chFinish cause
    · exact h.chRest.keeps (Dev.post_keeps ..) (by decide)
  rw [Dev.hardStop_eq]
  exact hword.chStopped

theorem Dev.Over.chStop {d : Dev} {q i st : Nat} (h : d.Over q i st) (job : List (Nat × Nat)) (word : Nat) : (d.chStop job word).Over q i st := by
  have hasked : ∀ f, (d.onCh f).Over q i st := fun f => h.keeps (Dev.onCh_keeps ..) (by decide)
  unfold Dev.chStop
  dsimp only
  split
  · exact (hasked _).hardStop _
  · split
    · exact (Dev.chGo_sameItem ..).over ((((hasked _).keeps (Dev.onCh_keeps ..) (by decide))).keeps (Dev.chBlock_keeps _) (by decide))
    · split
      · exact ((hasked _).chFinish word).chRest.chStopped
      · split
        · exact hasked _
        · exact (hasked _).chStopped

theorem Dev.Over.tmStop {d : Dev} {q i st : Nat} (h : d.Over q i st) (m word : Nat) (hjob : (d.tmOf m).job = none) : (d.tmStop m word).Over q i st :=
  (d.tmStop_sameItem m word (by rw [hjob]; exact Option.some_ne_none _ |>.symm) h.2).over h

theorem Dev.Over.lvStop {d : Dev} {q i st : Nat} (h : d.Over q i st) (word : Nat) (hjob : d.ch.lvJob = none) : (d.lvStop word).Over q i st :=
  (d.lvStop_sameItem word (by rw [hjob]; exact Option.some_ne_none _ |>.symm) h.2).over h

theorem Dev.Over.drStop {d : Dev} {q i st : Nat} (h : d.Over q i st) (a word : Nat) (hjob : (d.drive a).job = none) : (d.drStop a word).Over q i st :=
  (d.drStop_sameItem a word (by rw [hjob]; exact Option.some_ne_none _ |>.symm) h.2).over h

theorem Dev.deadlineOwner_over {d : Dev} {q i : Nat} (hlive : d.underWay q i) (x : Descr) : (d.deadlineOwner q i x).Over q i Code.DEADLINE := by
  have hover := Dev.finish_over hlive Code.DEADLINE false 0
  unfold Dev.deadlineOwner
  dsimp only
  generalize d.finish q i Code.DEADLINE = e at hover
  split
  · split
    · exact (hover.keeps (Dev.onTm_keeps ..) (by decide)).tmStop _ _ (congrArg TmT.job (Dev.tmOf_onTm ..))
    · exact hover
  · split
    · split
      · exact (hover.keeps (Dev.onCh_keeps ..) (by decide)).chStop _ _
      · split
        · exact hover.keeps (Dev.onCh_keeps ..) (by decide)
        · exact hover
    · split
      · split
        · exact (hover.keeps (Dev.onCh_keeps ..) (by decide)).lvStop _ rfl
        · exact hover
      · split
        · split
          · exact (hover.keeps (Dev.onDr_keeps ..) (by decide)).drStop _ _ (congrArg DrT.job (Dev.drive_onDr_self ..))
          · exact hover
        · exact hover

/-! ### The commands on a device -/

/-- What DESCRIPTOR_FETCH does. -/
def Dev.fetchStep (d : Dev) : Dev :=
  match d.turn with
  | none => d
  | some q => if d.mayFetch q then d.fetchNext q else d

theorem execDescriptorFetch_eq (t : Nat) (s : State) : execDescriptorFetch t s = effect t s Dev.fetchStep := by
  unfold execDescriptorFetch
  refine congrArg (effect t s) (funext fun d => ?_)
  unfold Dev.fetchStep
  cases d.turn with
  | none => rfl
  | some q => exact congrArg (fun e => if d.mayFetch q then e else d) (d.fetchNext_eq q)

theorem Dev.fetchStep_of_turn {d : Dev} {q : Nat} (hturn : d.turn = some q) (hmay : d.mayFetch q = true) : d.fetchStep = d.fetchNext q := by
  unfold Dev.fetchStep
  rw [hturn]
  exact if_pos hmay

/-- What COMPLETION_WRITE does. -/
def Dev.completionStep (d : Dev) (q : Nat) : Dev :=
  match (d.qp q).items with
  | [] => d
  | it :: rest =>
    match it.phase, it.desc with
    | .ended st partly detail, some x =>
      if d.mayComplete q then
        (d.complete q (completionWords x.sequence st (d.rd F.HI_QP_FLAGS_phase q) it.index x.opcode partly detail d.unit1024)).retireOldest q rest
          ((d.qp q).done + 1) (isUrgent x)
      else d
    | _, _ => d

theorem execCompletionWrite_eq (t : Nat) (q : Fin 64) (s : State) : execCompletionWrite t q s = effect t s fun d => d.completionStep q := rfl

theorem Dev.completionStep_of_ended {d : Dev} {q : Nat} {it : Item} {rest : List Item} {x : Descr} {st : Nat} {partly : Bool} {detail : Word}
    (hitems : (d.qp q).items = { it with phase := .ended st partly detail, desc := some x } :: rest) (hmay : d.mayComplete q = true) :
    d.completionStep q =
      (d.complete q (completionWords x.sequence st (d.rd F.HI_QP_FLAGS_phase q) it.index x.opcode partly detail d.unit1024)).retireOldest q rest
        ((d.qp q).done + 1) (isUrgent x) := by
  unfold Dev.completionStep
  rw [hitems]
  exact if_pos hmay

theorem Dev.completionStep_of_waiting {d : Dev} {q : Nat} {it : Item} {rest : List Item} {st : Nat} {partly : Bool} {detail : Word}
    (hitems : (d.qp q).items = { it with phase := .ended st partly detail } :: rest) (hwaits : it.desc ≠ none → d.mayComplete q = false) :
    d.completionStep q = d := by
  unfold Dev.completionStep
  rw [hitems]
  cases hdesc : it.desc with
  | none => rfl
  | some x => exact if_neg (by rw [hwaits (by rw [hdesc]; exact Option.some_ne_none x)]; decide)

/-- What a passed deadline does to a descriptor, by its phase (R311). -/
def Dev.deadlineOf (d : Dev) (q i : Nat) (sending : Bool) (x : Descr) : Phase → Dev
  | .received | .handed => d.finish q i Code.DEADLINE
  | .queued =>
    match d.sc.vq.find? fun e => e.qp == q && e.index == i && !e.done with
    | some e => d.vqExpire e false
    | none => d
  | .started =>
    if x.opcode = Op.MEM_WRITE ∨ x.opcode = Op.MEM_READ then
      d.onItem q i fun it => { it with stopAt := some (deadlineStop x.address it.moved) }
    else if x.opcode = Op.CAN_TX then
      if sending then d else d.finish q i Code.DEADLINE
    else if 4 ≤ x.opcode / 4 ∧ x.opcode / 4 ≤ 7 then d.deadlineOwner q i x
    else d
  | _ => d

/-- What DESCRIPTOR_DEADLINE does. -/
def Dev.deadlineStep (d : Dev) (q i : Nat) (sending : Bool) : Dev :=
  match (d.qp q).item i with
  | none => d
  | some it =>
    match it.desc with
    | none => d
    | some x => if isTimed x = false ∨ d.passed x.deadline = false then d else d.deadlineOf q i sending x it.phase

theorem execDescriptorDeadline_eq (t : Nat) (q : Fin 64) (i : Nat) (sending : Bool) (s : State) :
    execDescriptorDeadline t q i sending s = effect t s fun d => d.deadlineStep q i sending := rfl

theorem Dev.deadlineStep_of_passed {d : Dev} {q i : Nat} {sending : Bool} {it : Item} {x : Descr} (hitem : (d.qp q).item i = some it)
    (hdesc : it.desc = some x) (htimed : isTimed x = true) (hpassed : d.passed x.deadline = true) :
    d.deadlineStep q i sending = d.deadlineOf q i sending x it.phase := by
  unfold Dev.deadlineStep
  rw [hitem]
  dsimp only
  rw [hdesc]
  exact if_neg (by rw [htimed, hpassed]; decide)

theorem Dev.deadlineOf_started_move {d : Dev} {q i : Nat} {sending : Bool} {x : Descr} (hop : x.opcode = Op.MEM_WRITE ∨ x.opcode = Op.MEM_READ) :
    d.deadlineOf q i sending x .started = d.onItem q i fun it => { it with stopAt := some (deadlineStop x.address it.moved) } := if_pos hop

theorem Dev.deadlineOf_started_owned {d : Dev} {q i : Nat} {sending : Bool} {x : Descr} (hlow : 4 ≤ x.opcode / 4) (hhigh : x.opcode / 4 ≤ 7) :
    d.deadlineOf q i sending x .started = d.deadlineOwner q i x := by
  have hmove : ¬ (x.opcode = Op.MEM_WRITE ∨ x.opcode = Op.MEM_READ) := by
    rintro (h | h) <;> rw [h] at hlow <;> exact absurd hlow (by decide)
  have hsend : x.opcode ≠ Op.CAN_TX := fun h => by rw [h] at hlow hhigh; revert hlow hhigh; decide
  exact (if_neg hmove).trans ((if_neg hsend).trans (if_pos ⟨hlow, hhigh⟩))

theorem Dev.deadlineOf_started_other {d : Dev} {q i : Nat} {sending : Bool} {x : Descr} (hop : x.opcode = Op.CAN_TX ∧ sending = true ∨ x.opcode = Op.ADMIT) :
    d.deadlineOf q i sending x .started = d := by
  rcases hop with ⟨hop, rfl⟩ | hop
  · exact (if_neg (by rw [hop]; decide)).trans ((if_pos hop).trans (if_pos rfl))
  · exact (if_neg (by rw [hop]; decide)).trans ((if_neg (by rw [hop]; decide)).trans (if_neg (by rw [hop]; decide)))

/-- The descriptor that DESCRIPTOR_RECEIVE fills in. -/
theorem QpT.find?_unread {p : QpT} {i : Nat} {it : Item} (hitem : p.item i = some it) (hnone : it.desc = none) :
    p.items.find? (fun it => it.index == i && it.desc.isNone) = some it := by
  obtain ⟨hit, before, after, hlist, hothers⟩ := List.find?_eq_some_iff_append.mp hitem
  refine List.find?_eq_some_iff_append.mpr ⟨by rw [hit, hnone]; rfl, before, after, hlist, fun a ha => ?_⟩
  rw [Bool.eq_false_of_not_eq_true' (hothers a ha)]
  rfl

theorem deadlineStop_bounds (addr moved : Nat) :
    moved ≤ deadlineStop addr moved ∧ deadlineStop addr moved < moved + 256 ∧ (addr + deadlineStop addr moved) % 256 = 0 := by
  unfold deadlineStop
  omega

end Sys2Proof.Machine
end

section
namespace Sys2Proof.Machine

/-- Settles O34: the highest priority is served first; an item goes from its fetch to its completion, and ends where its deadline passes. -/
theorem descriptorsFlow : Obligations.DescriptorsFlow := by
  unfold Obligations.DescriptorsFlow
  intro s t q i it d p N sq cq
  refine ⟨?fetch, ?receive, ?waits, ?completes, ?moderation, ?deadline⟩
  case fetch =>
    intro hawake hmay hothers
    have hwants : ∀ k, d.wantsTurn k = (d.mayFetch k || d.mayRecord k) := fun k => by rw [Dev.wantsTurn, hawake]; rfl
    have hturn : d.turn = some q.val := Dev.turn_of_highest (by rw [hwants, hmay]; rfl) fun k hk hw => hothers k hk (by
      rwa [hwants, Bool.or_eq_true] at hw)
    obtain ⟨hout, hitems, hhead, hrest⟩ := d.fetchNext_shows q
    refine Does.of_effect_eq (n := d.fetchNext q) ((show exec _ s = execDescriptorFetch t s from rfl).trans (execDescriptorFetch_eq ..))
      (Dev.fetchStep_of_turn hturn hmay) ⟨hout, fun hon => ?_, fun hoff => ?_, hhead, fun k hk => hrest k fun h => hk (Fin.ext h)⟩
    · rwa [if_pos hon] at hitems
    · rw [if_neg (by rw [hoff]; decide)] at hitems
      exact hitems
  case receive =>
    intro x hitem hphase hnone
    have hunread : p.items.find? (fun it => it.index == i && it.desc.isNone) = some it := QpT.find?_unread hitem hnone
    have hchecked := d.checkDescr_onItem q i (fun it => { it with desc := some x, phase := .received }) q x
    have hreceived : ((d.onItem q i fun it => { it with desc := some x, phase := .received }).qp q).item i =
        some { it with desc := some x, phase := .received } := Dev.item_onItem hitem rfl
    refine ⟨fun hok => ?_, fun e hbad hring => ?_⟩
    · refine Does.of_effect_eq (n := (d.onItem q i fun it => { it with desc := some x, phase := .received }).showQp q)
        (show exec _ s = execDescriptorReceive t q i x s from rfl) ?_ ?_
      · dsimp only
        rw [hunread]
        dsimp only
        rw [if_pos hphase, hchecked, hok]
      · rw [Dev.qp_congr (Dev.hi_showQp ..)]
        exact hreceived
    · refine Does.of_effect_eq (n := (d.onItem q i fun it => { it with desc := some x, phase := .received }).finish q i e)
        (show exec _ s = execDescriptorReceive t q i x s from rfl) ?_ ?_
      · dsimp only
        rw [hunread]
        dsimp only
        rw [if_pos hphase, hchecked, hbad]
      · exact Dev.finish_ends ⟨_, hreceived, rfl, ((d.onItem_itemsOnly ..).silent q).trans hring⟩ ..
  case waits =>
    intro e partly detail rest hitems hwaits
    have hnot : it.desc ≠ none → d.mayComplete q = false := fun hdesc => by
      rw [Bool.eq_false_iff, ne_eq, Dev.mayComplete_iff]
      rintro ⟨hring, hroom, hawake⟩
      rcases hwaits with h | h | h | h
      · exact hdesc h
      · rw [hring] at h; cases h
      · omega
      · rw [hawake] at h; cases h
    exact Does.of_effect_eq (n := d) ((show exec _ s = execCompletionWrite t q s from rfl).trans (execCompletionWrite_eq ..))
      (Dev.completionStep_of_waiting hitems hnot) rfl
  case completes =>
    intro x e partly detail rest hitems hring hroom hawake
    have hmay : d.mayComplete q = true := (d.mayComplete_iff q).mpr ⟨hring, hroom, hawake⟩
    obtain ⟨hout, htail, hphase, hqp⟩ := d.complete_shows q (completionWords x.sequence e (d.rd F.HI_QP_FLAGS_phase q) it.index x.opcode partly detail d.unit1024)
    generalize hdone : d.complete q (completionWords x.sequence e (d.rd F.HI_QP_FLAGS_phase q) it.index x.opcode partly detail d.unit1024) = c
      at hout htail hphase hqp
    obtain ⟨hrest, hcount, more, hmore⟩ := c.retireOldest_shows q rest (p.done + 1) (isUrgent x)
    have hkeeps := c.retireOldest_keeps q rest (p.done + 1) (isUrgent x)
    refine Does.of_effect_eq (n := c.retireOldest q rest (p.done + 1) (isUrgent x))
      ((show exec _ s = execCompletionWrite t q s from rfl).trans (execCompletionWrite_eq ..)) ?_
      ⟨hrest, hcount, (hkeeps.rd F.HI_QP_STAT_cq_tail q (by decide)).trans htail, (hkeeps.flag F.HI_QP_FLAGS_phase q (by decide)).trans hphase, more, ?_⟩
    · rw [← hdone]
      exact Dev.completionStep_of_ended hitems hmay
    · rw [hmore, hout, List.append_assoc]
      rfl
  case moderation =>
    intro hwaiting hold
    refine Does.of_effect_eq (n := d.signal q) (show exec _ s = execModerationTimeout t q s from rfl) (if_pos ⟨hwaiting, hold⟩) ?_
    rw [d.signal_qp]
    exact ⟨rfl, rfl⟩
  case deadline =>
    intro x sending hitem hdesc htimed hpassed hring
    have hstep : d.deadlineStep q i sending = d.deadlineOf q i sending x it.phase := Dev.deadlineStep_of_passed hitem hdesc htimed hpassed
    have hdo : ∀ {P : Dev → Prop} {n : Dev}, d.deadlineOf q i sending x it.phase = n → P n → Does s (.descriptorDeadline t q i sending) P :=
      fun hn hP => Does.of_effect_eq ((show exec _ s = execDescriptorDeadline t q i sending s from rfl).trans (execDescriptorDeadline_eq ..))
        (hstep.trans hn) hP
    have hlive : it.hasEnded = false → d.underWay q i := fun h => ⟨it, hitem, h, hring⟩
    unfold Item.hasEnded at hlive
    refine ⟨fun hphase => ?_, fun hphase hop => ?_, fun hphase hop => ?_⟩
    · rcases hphase with hphase | hphase | ⟨hphase, hlow, hhigh⟩ <;> rw [hphase] at hdo hlive
      · exact hdo rfl (Dev.finish_ends (hlive rfl) ..)
      · exact hdo rfl (Dev.finish_ends (hlive rfl) ..)
      · exact hdo (Dev.deadlineOf_started_owned hlow hhigh) (Dev.deadlineOwner_over (hlive rfl) x).1
    · rw [hphase] at hdo
      exact hdo (Dev.deadlineOf_started_move hop) ⟨_, Dev.item_onItem hitem rfl, deadlineStop_bounds ..⟩
    · rw [hphase] at hdo
      exact hdo (Dev.deadlineOf_started_other hop) rfl

end Sys2Proof.Machine
end

section
/-! The CAN network: controllers by number, the error counters of an attempt that keeps the controller on its bus, and validity of global
time (chapter 15). -/

namespace Sys2Proof.Machine

/-! ### What a controller carries -/

theorem Dev.can_setCan (d : Dev) (c k : Nat) (v : CnT) : (d.setCan c v).can k = if k = c then v else d.can k := Tbl.get_set ..

theorem Dev.can_onCan (d : Dev) (c : Nat) (f : CnT → CnT) : (d.onCan c f).can c = f (d.can c) := (d.can_setCan ..).trans (if_pos rfl)

theorem Dev.can_congr {d e : Dev} (h : e.cn.ctl = d.cn.ctl) (c : Nat) : e.can c = d.can c := by rw [Dev.can, Dev.can, h]

theorem Keeps.can {w : Foot} {d e : Dev} (h : Keeps w d e) (hp : Part.cn ∉ w.parts) (c : Nat) : e.can c = d.can c :=
  Dev.can_congr (congrArg Cn.ctl (h.parts .cn hp)) c

theorem Dev.onBus_eq_true {d : Dev} {c : Nat} : d.onBus c = true ↔
    d.flag F.CN_CFG_enable c = true ∧ d.fenced Kind.can c = false ∧ (d.canState c = canActive ∨ d.canState c = canPassive) := by
  rw [Dev.onBus, Bool.and_eq_true, Bool.and_eq_true, Bool.not_eq_true', Bool.or_eq_true, beq_iff_eq, beq_iff_eq, and_assoc]

/-! ### Error counters (R327) -/

/-- What new error counters may change while the controller stays on its bus. -/
def countsFoot : Foot := ⟨false, [F.CN_STAT_tec, F.CN_STAT_rec, F.CN_STAT_state, F.FLT_STAT_lost, F.FLT_LOST], [.flt]⟩

/-- The error counters alone. -/
def Dev.withCounts (d : Dev) (c tec rec' : Nat) : Dev := (d.wr F.CN_STAT_tec c (min tec 256)).wr F.CN_STAT_rec c (min rec' 255)

theorem Dev.withCounts_keeps (d : Dev) (c tec rec' : Nat) : Keeps countsFoot d (d.withCounts c tec rec') :=
  ((Dev.wr_keeps _ F.CN_STAT_tec c _ (by decide)).within (by decide)).trans ((Dev.wr_keeps _ F.CN_STAT_rec c _ (by decide)).within (by decide))

theorem Dev.withCounts_shows (d : Dev) (c tec rec' : Nat) : (d.withCounts c tec rec').rd F.CN_STAT_tec c = min tec 256 ∧
    (d.withCounts c tec rec').rd F.CN_STAT_rec c = min rec' 255 :=
  ⟨((Dev.wr_keeps _ F.CN_STAT_rec c _ (by decide)).rd F.CN_STAT_tec c (by decide)).trans (Dev.rd_wr_of_lt _ F.CN_STAT_tec c (by decide) ((min_le_right ..).trans_lt (by decide))),
  Dev.rd_wr_of_lt _ F.CN_STAT_rec c (by decide) ((min_le_right ..).trans_lt (by decide))⟩

/-- The state that new error counters give a controller that stays on its bus. -/
def stateOfCounts (tec rec' : Nat) : Nat := if 127 < tec ∨ 127 < rec' then canPassive else canActive

section
variable (d : Dev) (c : Nat) {tec : Nat} (rec' : Nat) (hcalm : tec ≤ 255)
include hcalm

theorem Dev.errorCounts_eq : d.errorCounts c tec rec' =
    if 127 < tec ∨ 127 < rec' then
      if (d.withCounts c tec rec').canState c = canPassive then d.withCounts c tec rec'
      else ((d.withCounts c tec rec').wr F.CN_STAT_state c canPassive).reportOpen Kind.can c Cls.report (Code.ofFree Config.passiveCode)
    else (d.withCounts c tec rec').wr F.CN_STAT_state c canActive := if_neg hcalm.not_gt

theorem Dev.errorCounts_calm : Keeps countsFoot d (d.errorCounts c tec rec') := by
  have hcounts := d.withCounts_keeps c tec rec'
  rw [d.errorCounts_eq c rec' hcalm]
  refine Keeps.ite (fun _ => Keeps.ite (fun _ => hcounts) fun _ => ?_) fun _ => ?_
  · exact (hcounts.trans ((Dev.wr_keeps _ F.CN_STAT_state c _ (by decide)).within (by decide))).trans ((Dev.reportOpen_keeps ..).within (by decide))
  · exact hcounts.trans ((Dev.wr_keeps _ F.CN_STAT_state c _ (by decide)).within (by decide))

theorem Dev.errorCounts_reportsOnly : d.ReportsOnly (d.errorCounts c tec rec') := by
  have hcounts : d.ReportsOnly (d.withCounts c tec rec') := .of_flt rfl
  rw [d.errorCounts_eq c rec' hcalm]
  split
  · split
    · exact hcounts
    · exact hcounts.trans ((Dev.ReportsOnly.of_flt rfl).trans (Dev.reportOpen_reportsOnly ..))
  · exact hcounts.trans (.of_flt rfl)

theorem Dev.errorCounts_shows : (d.errorCounts c tec rec').canState c = stateOfCounts tec rec' ∧
    (d.errorCounts c tec rec').rd F.CN_STAT_tec c = tec ∧ (d.errorCounts c tec rec').rd F.CN_STAT_rec c = min rec' 255 := by
  obtain ⟨htec, hrec⟩ := d.withCounts_shows c tec rec'
  rw [min_eq_left (by omega)] at htec
  have hstate : ∀ v, Keeps ⟨false, [F.CN_STAT_state], []⟩ (d.withCounts c tec rec') ((d.withCounts c tec rec').wr F.CN_STAT_state c v) :=
    fun v => Dev.wr_keeps _ F.CN_STAT_state c v (by decide)
  rw [d.errorCounts_eq c rec' hcalm]
  unfold stateOfCounts
  split
  · split
    · next h => exact ⟨h, htec, hrec⟩
    · have hreport := ((d.withCounts c tec rec').wr F.CN_STAT_state c canPassive).reportOpen_keeps Kind.can c Cls.report (Code.ofFree Config.passiveCode)
      exact ⟨(hreport.rd F.CN_STAT_state c (by decide)).trans (Dev.rd_wr_of_lt _ F.CN_STAT_state c (by decide) (by decide)),
        ((hreport.rd F.CN_STAT_tec c (by decide)).trans ((hstate _).rd F.CN_STAT_tec c (by decide))).trans htec,
        ((hreport.rd F.CN_STAT_rec c (by decide)).trans ((hstate _).rd F.CN_STAT_rec c (by decide))).trans hrec⟩
  · exact ⟨Dev.rd_wr_of_lt _ F.CN_STAT_state c (by decide) (by decide), ((hstate _).rd F.CN_STAT_tec c (by decide)).trans htec,
      ((hstate _).rd F.CN_STAT_rec c (by decide)).trans hrec⟩

end

theorem stateOfCounts_active {tec rec' : Nat} (htec : tec ≤ 127) (hrec : rec' ≤ 127) : stateOfCounts tec rec' = canActive :=
  if_neg (by omega)

/-! ### Attempts (R328, R332) -/

/-- An attempt is on record. -/
def Dev.recorded (d : Dev) (c sof : Nat) (f : CanFrame) (a : TxAttempt) : Dev :=
  let d := d.withCn { d.cn with sent := d.cn.sent ++ [{ ctl := c, sof := sof, frame := f, ended := a.ended }] }
  if a.ended = .noAck then d.bump F.CN_CNT_no_ack c else d

theorem Dev.recorded_keeps (d : Dev) (c sof : Nat) (f : CanFrame) (a : TxAttempt) :
    Keeps ⟨false, [F.CN_CNT_no_ack], [.cn]⟩ d (d.recorded c sof f a) :=
  ((Dev.withCn_keeps ..).within (by decide)).trans
    (Keeps.ite (fun _ => (Dev.bump_keeps _ F.CN_CNT_no_ack c (by decide)).within (by decide)) fun _ => Keeps.refl _ _)

theorem Dev.recorded_cn (d : Dev) (c sof : Nat) (f : CanFrame) (a : TxAttempt) : (d.recorded c sof f a).cn =
    { d.cn with sent := d.cn.sent ++ [{ ctl := c, sof := sof, frame := f, ended := a.ended }] } := by
  unfold Dev.recorded
  dsimp only
  split <;> rfl

/-- Does an attempt end without error signalling? -/
def Dev.silentEnd (d : Dev) (c : Nat) (f : CanFrame) (a : TxAttempt) : Prop :=
  d.xlSilent c (f.format == 3) = true ∧ a.ended ≠ .ok ∧ a.ended ≠ .arbLost

/-- TEC after an attempt of a controller. -/
def Dev.tecNext (d : Dev) (c : Nat) (a : TxAttempt) : Nat := tecAfter a (d.canState c == canPassive) (d.rd F.CN_STAT_tec c)

section
variable {d : Dev} {c sof : Nat} {f : CanFrame} {a : TxAttempt}

theorem Dev.attempt_of_silent (h : d.silentEnd c f a) : d.attempt c sof f a = (d.recorded c sof f a).reintegrate c := by
  refine if_pos ⟨?_, h.2⟩
  rw [← h.1]
  exact congrArg (fun b => (f.format == 3) && !b) ((d.recorded_keeps c sof f a).flag F.CN_CFG_xl_es c (by decide))

theorem Dev.attempt_of_signalled (h : ¬ d.silentEnd c f a) :
    d.attempt c sof f a = (d.recorded c sof f a).errorCounts c (d.tecNext c a) (d.rd F.CN_STAT_rec c) := by
  have hkeeps := d.recorded_keeps c sof f a
  have hsilent : (d.recorded c sof f a).xlSilent c (f.format == 3) = d.xlSilent c (f.format == 3) :=
    congrArg (fun b => (f.format == 3) && !b) (hkeeps.flag F.CN_CFG_xl_es c (by decide))
  have hnext : tecAfter a ((d.recorded c sof f a).canState c == canPassive) ((d.recorded c sof f a).rd F.CN_STAT_tec c) = d.tecNext c a := by
    rw [hkeeps.rd F.CN_STAT_tec c (by decide), show (d.recorded c sof f a).canState c = d.canState c from hkeeps.rd F.CN_STAT_state c (by decide)]
    rfl
  have hattempt : d.attempt c sof f a =
      if (d.recorded c sof f a).xlSilent c (f.format == 3) ∧ a.ended ≠ .ok ∧ a.ended ≠ .arbLost then (d.recorded c sof f a).reintegrate c
      else (d.recorded c sof f a).errorCounts c
        (tecAfter a ((d.recorded c sof f a).canState c == canPassive) ((d.recorded c sof f a).rd F.CN_STAT_tec c))
        ((d.recorded c sof f a).rd F.CN_STAT_rec c) := rfl
  rw [hattempt, hnext, hkeeps.rd F.CN_STAT_rec c (by decide), hsilent]
  exact if_neg h

/-- What an attempt may change that keeps its controller on the bus. -/
def attemptFoot : Foot := ⟨false, F.CN_CNT_no_ack :: countsFoot.fields, [.cn, .flt]⟩

theorem Dev.attempt_calm (h : ¬ d.silentEnd c f a) (hcalm : d.tecNext c a ≤ 255) : Keeps attemptFoot d (d.attempt c sof f a) ∧
    d.ReportsOnly (d.attempt c sof f a) ∧
    (d.attempt c sof f a).cn = { d.cn with sent := d.cn.sent ++ [{ ctl := c, sof := sof, frame := f, ended := a.ended }] } ∧
    (d.attempt c sof f a).canState c = stateOfCounts (d.tecNext c a) (d.rd F.CN_STAT_rec c) := by
  have hcounts := (d.recorded c sof f a).errorCounts_calm c (d.rd F.CN_STAT_rec c) hcalm
  obtain ⟨hstate, -, -⟩ := (d.recorded c sof f a).errorCounts_shows c (d.rd F.CN_STAT_rec c) hcalm
  rw [d.attempt_of_signalled h]
  exact ⟨((d.recorded_keeps c sof f a).within (by decide)).trans (hcounts.within (by decide)),
    (Dev.ReportsOnly.of_keeps (d.recorded_keeps c sof f a) (by decide)).trans (Dev.errorCounts_reportsOnly _ c _ hcalm),
    (hcounts.parts .cn (by decide)).trans (d.recorded_cn c sof f a), hstate⟩

/-- A calm attempt leaves the controller on its bus. -/
theorem Dev.onBus_attempt (h : ¬ d.silentEnd c f a) (hcalm : d.tecNext c a ≤ 255) (hbus : d.onBus c = true) :
    (d.attempt c sof f a).onBus c = true := by
  obtain ⟨hkeeps, hreports, -, hstate⟩ := d.attempt_calm (sof := sof) h hcalm
  obtain ⟨henabled, hfree, -⟩ := Dev.onBus_eq_true.mp hbus
  refine Dev.onBus_eq_true.mpr ⟨(hkeeps.flag F.CN_CFG_enable c (by decide)).trans henabled, (hreports.fenced ..).trans hfree, ?_⟩
  rw [hstate]
  unfold stateOfCounts
  split
  · exact .inr rfl
  · exact .inl rfl

end

end Sys2Proof.Machine
end

section
/-! Integration, recovery and time-triggered operation of a CAN controller (R327, R329, R340 to R343). -/

namespace Sys2Proof.Machine

/-! ### The time-triggered state -/

theorem Dev.ttState_wr (d : Dev) (c v : Nat) (hv : v < 8) : (d.wr F.CN_TT_STAT_state c v).ttState c = v :=
  Dev.rd_wr_of_lt _ F.CN_TT_STAT_state c (by decide) hv

theorem Dev.ttState_ttCheck (d : Dev) (c : Nat) : (d.ttCheck c).ttState c = d.ttState c :=
  (d.ttCheck_keeps c).rd F.CN_TT_STAT_state c (by decide)

theorem Dev.can_ttCheck (d : Dev) (c : Nat) : (d.ttCheck c).can c = d.can c := (d.ttCheck_keeps c).can (by decide) c

theorem Dev.canState_ttCheck (d : Dev) (c : Nat) : (d.ttCheck c).canState c = d.canState c :=
  (d.ttCheck_keeps c).rd F.CN_STAT_state c (by decide)

theorem Dev.ttState_onCan (d : Dev) (c : Nat) (f : CnT → CnT) : (d.onCan c f).ttState c = d.ttState c := rfl

/-- A mark received or sent is the last one of its controller. -/
theorem Dev.can_ttExtended (d : Dev) (c sof ext : Nat) : (d.ttExtended c sof ext).can c = { d.can c with lastMark := ext, cycleAt := sof } := by
  have hmark := d.can_onCan c fun v => { v with lastMark := ext, cycleAt := sof }
  generalize hon : d.onCan c (fun v => { v with lastMark := ext, cycleAt := sof }) = e at hmark
  unfold Dev.ttExtended
  rw [hon]
  dsimp only
  generalize (roundDiv (ext * (d.word (F.CN_TT_NTU.off c 0)).toNat) 65536).toNat = ticks
  have hstored : ((e.wr64 F.CN_TT_GT_LO F.CN_TT_GT_HI c ticks).ttCheck c).can c = e.can c :=
    (Dev.can_ttCheck ..).trans ((Dev.wr64_keeps _ F.CN_TT_GT_LO F.CN_TT_GT_HI c ticks (by decide) (by decide)).can (by decide) c)
  split
  · exact ((Dev.gtReference_keeps ..).can (by decide) c).trans (hstored.trans hmark)
  · exact hstored.trans hmark

/-! ### Leading and yielding (R342) -/

/-- A controller leads, before its global time is renewed. -/
def Dev.leading (d : Dev) (c sof : Nat) : Dev :=
  let d := (d.wr F.CN_TT_STAT_state c ttMaster).wr F.CN_TT_STAT_cycle_count c (d.nextCycle c)
  (d.wr F.CN_TT_STAT_master_prio c (d.rd F.CN_TT_CFG_prio c)).onCan c fun v => { v with contend := false, cycleAt := sof }

theorem Dev.lead_eq (d : Dev) (c sof : Nat) : d.lead c sof =
    if (d.leading c sof).flag F.CN_TT_CFG_level2 c then (d.leading c sof).ttExtended c sof (d.ttNow c sof) else (d.leading c sof).ttCheck c := rfl

theorem Dev.leading_keeps (d : Dev) (c sof : Nat) :
    Keeps ⟨false, [F.CN_TT_STAT_state, F.CN_TT_STAT_cycle_count, F.CN_TT_STAT_master_prio], [.cn]⟩ d (d.leading c sof) := by
  unfold Dev.leading
  dsimp only
  generalize d.nextCycle c = cycle
  have hstate := (Dev.wr_keeps d F.CN_TT_STAT_state c ttMaster (by decide)).within
    (b := ⟨false, [F.CN_TT_STAT_state, F.CN_TT_STAT_cycle_count, F.CN_TT_STAT_master_prio], [.cn]⟩) (by decide)
  have hcycle := hstate.trans ((Dev.wr_keeps _ F.CN_TT_STAT_cycle_count c cycle (by decide)).within (by decide))
  have hprio := hcycle.trans ((Dev.wr_keeps _ F.CN_TT_STAT_master_prio c
    (((d.wr F.CN_TT_STAT_state c ttMaster).wr F.CN_TT_STAT_cycle_count c cycle).rd F.CN_TT_CFG_prio c) (by decide)).within (by decide))
  exact hprio.trans ((Dev.onCan_keeps _ c fun v => { v with contend := false, cycleAt := sof }).within (by decide))

theorem Dev.leading_shows (d : Dev) (c sof : Nat) : let n := d.leading c sof
    n.ttState c = ttMaster ∧ (n.can c).cycleAt = sof ∧ n.rd F.CN_TT_STAT_cycle_count c = d.nextCycle c % 64 ∧
      n.rd F.CN_TT_STAT_master_prio c = d.rd F.CN_TT_CFG_prio c := by
  have hcycle := Dev.wr_keeps (d.wr F.CN_TT_STAT_state c ttMaster) F.CN_TT_STAT_cycle_count c (d.nextCycle c) (by decide)
  have hprio := Dev.wr_keeps ((d.wr F.CN_TT_STAT_state c ttMaster).wr F.CN_TT_STAT_cycle_count c (d.nextCycle c)) F.CN_TT_STAT_master_prio c
    (((d.wr F.CN_TT_STAT_state c ttMaster).wr F.CN_TT_STAT_cycle_count c (d.nextCycle c)).rd F.CN_TT_CFG_prio c) (by decide)
  have hsame : ((d.wr F.CN_TT_STAT_state c ttMaster).wr F.CN_TT_STAT_cycle_count c (d.nextCycle c)).rd F.CN_TT_CFG_prio c = d.rd F.CN_TT_CFG_prio c :=
    (hcycle.rd F.CN_TT_CFG_prio c (by decide)).trans ((Dev.wr_keeps _ F.CN_TT_STAT_state c _ (by decide)).rd F.CN_TT_CFG_prio c (by decide))
  refine ⟨?_, ?_, ?_, ?_⟩
  · exact ((hprio.rd F.CN_TT_STAT_state c (by decide)).trans (hcycle.rd F.CN_TT_STAT_state c (by decide))).trans (Dev.ttState_wr d c ttMaster (by decide))
  · exact congrArg CnT.cycleAt (Dev.can_onCan ..)
  · exact (hprio.rd F.CN_TT_STAT_cycle_count c (by decide)).trans (Dev.rd_wr _ F.CN_TT_STAT_cycle_count c _ (by decide))
  · exact (Dev.rd_wr_of_lt _ F.CN_TT_STAT_master_prio c (by decide) (getBits_lt ..)).trans hsame

theorem Dev.lead_shows (d : Dev) (c sof : Nat) : let n := d.lead c sof
    n.ttState c = ttMaster ∧ (n.can c).cycleAt = sof ∧ n.rd F.CN_TT_STAT_cycle_count c = d.nextCycle c % 64 ∧
      n.rd F.CN_TT_STAT_master_prio c = d.rd F.CN_TT_CFG_prio c ∧ (d.flag F.CN_TT_CFG_level2 c = true → (n.can c).lastMark = d.ttNow c sof) := by
  obtain ⟨hstate, hcycle, hcount, hprio⟩ := d.leading_shows c sof
  have hlevel : (d.leading c sof).flag F.CN_TT_CFG_level2 c = d.flag F.CN_TT_CFG_level2 c := (d.leading_keeps c sof).flag F.CN_TT_CFG_level2 c (by decide)
  rw [d.lead_eq, hlevel]
  generalize d.leading c sof = e at *
  split
  · have hext := e.ttExtended_keeps c sof (d.ttNow c sof)
    have hcan := e.can_ttExtended c sof (d.ttNow c sof)
    exact ⟨(hext.rd F.CN_TT_STAT_state c (by decide)).trans hstate, congrArg CnT.cycleAt hcan,
      (hext.rd F.CN_TT_STAT_cycle_count c (by decide)).trans hcount, (hext.rd F.CN_TT_STAT_master_prio c (by decide)).trans hprio,
      fun _ => congrArg CnT.lastMark hcan⟩
  · next hoff =>
    have hcheck := e.ttCheck_keeps c
    exact ⟨(e.ttState_ttCheck c).trans hstate, (congrArg CnT.cycleAt (e.can_ttCheck c)).trans hcycle,
      (hcheck.rd F.CN_TT_STAT_cycle_count c (by decide)).trans hcount, (hcheck.rd F.CN_TT_STAT_master_prio c (by decide)).trans hprio,
      fun h => absurd h hoff⟩

theorem Dev.sent_onCan (d : Dev) (c : Nat) (f : CnT → CnT) : (d.onCan c f).cn.sent = d.cn.sent := rfl

theorem Dev.sent_ttCheck (d : Dev) (c : Nat) : (d.ttCheck c).cn.sent = d.cn.sent := congrArg Cn.sent ((d.ttCheck_keeps c).parts .cn (by decide))

theorem Dev.sent_ttExtended (d : Dev) (c sof ext : Nat) : (d.ttExtended c sof ext).cn.sent = d.cn.sent := by
  unfold Dev.ttExtended
  dsimp only
  generalize (roundDiv (ext * (d.word (F.CN_TT_NTU.off c 0)).toNat) 65536).toNat = ticks
  have hstored := (((d.onCan c fun v => { v with lastMark := ext, cycleAt := sof }).wr64 F.CN_TT_GT_LO F.CN_TT_GT_HI c ticks).sent_ttCheck c)
  split
  · exact (congrArg Cn.sent ((Dev.gtReference_keeps ..).parts .cn (by decide))).trans hstored
  · exact hstored

theorem Dev.sent_lead (d : Dev) (c sof : Nat) : (d.lead c sof).cn.sent = d.cn.sent := by
  have hlead : (d.leading c sof).cn.sent = d.cn.sent := rfl
  rw [d.lead_eq]
  split
  · exact (Dev.sent_ttExtended ..).trans hlead
  · exact (Dev.sent_ttCheck ..).trans hlead

/-- A master that lost arbitration listens again. -/
def Dev.relisten (d : Dev) (c : Nat) : Dev :=
  ((d.wr F.CN_TT_STAT_state c ttListening).onCan c fun v => { v with listenAt := d.time, higherSeen := false, contend := false }).ttCheck c

theorem Dev.yieldLead_eq (d : Dev) (c : Nat) : d.yieldLead c =
    if d.ttState c = ttMaster then d.relisten c else d.onCan c fun v => { v with contend := false } := rfl

theorem Dev.yieldLead_shows (d : Dev) (c : Nat) : let n := d.yieldLead c
    n.cn.sent = d.cn.sent ∧ (n.can c).contend = false ∧
      (d.ttState c = ttMaster → n.ttState c = ttListening ∧ (n.can c).listenAt = d.time) ∧ (d.ttState c = ttFollowing → n.ttState c = ttFollowing) := by
  rw [d.yieldLead_eq]
  split
  · next hmaster =>
    have hcan : (d.relisten c).can c = { d.can c with listenAt := d.time, higherSeen := false, contend := false } :=
      (Dev.can_ttCheck ..).trans (Dev.can_onCan ..)
    exact ⟨Dev.sent_ttCheck .., congrArg CnT.contend hcan,
      fun _ => ⟨(Dev.ttState_ttCheck ..).trans (Dev.ttState_wr d c ttListening (by decide)), congrArg CnT.listenAt hcan⟩,
      fun h => absurd (hmaster.symm.trans h) (by decide)⟩
  · next hnot => exact ⟨rfl, congrArg CnT.contend (Dev.can_onCan ..), fun h => absurd h hnot, fun h => h⟩

/-- A reference message has no data of the XL format: its errors are signalled. -/
theorem Dev.referenceFrame_signalled (d : Dev) (c sof : Nat) (a : TxAttempt) : ¬ d.silentEnd c (d.referenceFrame c sof) a := fun h =>
  Bool.false_ne_true h.1

/-- The cycle that a reference message begins rests on registers alone. -/
theorem Keeps.nextCycle {w : Foot} {d e : Dev} (h : Keeps w d e) (hcount : w.avoids F.CN_TT_STAT_cycle_count = true)
    (hcycles : w.avoids F.CN_TT_CFG_mc_log2 = true) (c : Nat) : e.nextCycle c = d.nextCycle c := by
  rw [Dev.nextCycle, Dev.nextCycle, h.rd F.CN_TT_STAT_cycle_count c hcount, h.rd F.CN_TT_CFG_mc_log2 c hcycles]

/-- Network time rests on the last mark and the time unit. -/
theorem Keeps.ttNow {w : Foot} {d e : Dev} (h : Keeps w d e) (hunit : w.avoids F.CN_TT_NTU = true) (hctl : e.cn.ctl = d.cn.ctl) (c sof : Nat) :
    e.ttNow c sof = d.ttNow c sof := by
  rw [Dev.ttNow, Dev.ttNow, Dev.can_congr hctl, h.toFrame.word F.CN_TT_NTU c hunit rfl rfl]

/-! ### The commands on a device -/

theorem Dev.canState_wr (d : Dev) (c v : Nat) (hv : v < 8) : (d.wr F.CN_STAT_state c v).canState c = v :=
  Dev.rd_wr_of_lt _ F.CN_STAT_state c (by decide) hv

/-- An integrated controller whose counters are low is error-active. -/
theorem Dev.integrated_active {d : Dev} {c : Nat} (htec : d.rd F.CN_STAT_tec c ≤ 127) (hrec : d.rd F.CN_STAT_rec c ≤ 127) :
    (((d.wr F.CN_STAT_state c canActive).errorCounts c (d.rd F.CN_STAT_tec c) (d.rd F.CN_STAT_rec c)).ttCheck c).canState c = canActive := by
  obtain ⟨hstate, -⟩ := (d.wr F.CN_STAT_state c canActive).errorCounts_shows c (d.rd F.CN_STAT_rec c) (htec.trans (by decide : 127 ≤ 255))
  exact (Dev.canState_ttCheck ..).trans (hstate.trans (stateOfCounts_active htec hrec))

/-- A controller that has recovered, before it takes part in the time-triggered network. -/
def Dev.recovered (d : Dev) (c : Nat) : Dev :=
  ((((d.wr F.CN_STAT_state c canActive).wr F.CN_STAT_tec c 0).wr F.CN_STAT_rec c 0).put F.CN_CTRL_pending c false).wr F.CN_CTRL_status c Code.OK

theorem Dev.recovered_shows (d : Dev) (c : Nat) : let n := d.recovered c
    n.canState c = canActive ∧ n.rd F.CN_STAT_tec c = 0 ∧ n.rd F.CN_STAT_rec c = 0 ∧ n.flag F.CN_CTRL_pending c = false ∧
      n.rd F.CN_CTRL_status c = Code.OK := by
  unfold Dev.recovered
  have hstate := d.canState_wr c canActive (by decide)
  generalize d.wr F.CN_STAT_state c canActive = e at hstate
  have htec := Dev.wr_keeps e F.CN_STAT_tec c 0 (by decide)
  have hzero : (e.wr F.CN_STAT_tec c 0).rd F.CN_STAT_tec c = 0 := Dev.rd_wr _ F.CN_STAT_tec _ _ (by decide)
  generalize e.wr F.CN_STAT_tec c 0 = g at htec hzero
  have hrec := Dev.wr_keeps g F.CN_STAT_rec c 0 (by decide)
  have hnone : (g.wr F.CN_STAT_rec c 0).rd F.CN_STAT_rec c = 0 := Dev.rd_wr _ F.CN_STAT_rec _ _ (by decide)
  generalize g.wr F.CN_STAT_rec c 0 = k at hrec hnone
  have hput := (Dev.put_keeps k F.CN_CTRL_pending c false (by decide)).within (b := ⟨false, [F.CN_CTRL_pending, F.CN_CTRL_status], []⟩) (by decide)
  have hdone : (k.put F.CN_CTRL_pending c false).flag F.CN_CTRL_pending c = false := Dev.flag_put _ F.CN_CTRL_pending _ _ (by decide) rfl
  have hcode := Dev.wr_keeps (k.put F.CN_CTRL_pending c false) F.CN_CTRL_status c Code.OK (by decide)
  have hend := hput.trans (hcode.within (by decide))
  exact ⟨(hend.rd F.CN_STAT_state c (by decide)).trans ((hrec.rd F.CN_STAT_state c (by decide)).trans ((htec.rd F.CN_STAT_state c (by decide)).trans hstate)),
    (hend.rd F.CN_STAT_tec c (by decide)).trans ((hrec.rd F.CN_STAT_tec c (by decide)).trans hzero), (hend.rd F.CN_STAT_rec c (by decide)).trans hnone,
    (hcode.flag F.CN_CTRL_pending c (by decide)).trans hdone, Dev.rd_wr_of_lt _ F.CN_CTRL_status c (by decide) (by decide)⟩

theorem Dev.ttStart_calm (d : Dev) (c : Nat) : let n := d.ttStart c
    n.canState c = d.canState c ∧ n.rd F.CN_STAT_tec c = d.rd F.CN_STAT_tec c ∧ n.rd F.CN_STAT_rec c = d.rd F.CN_STAT_rec c ∧
      n.flag F.CN_CTRL_pending c = d.flag F.CN_CTRL_pending c ∧ n.rd F.CN_CTRL_status c = d.rd F.CN_CTRL_status c := by
  have h := d.ttStart_keeps c
  exact ⟨h.rd F.CN_STAT_state c (by decide), h.rd F.CN_STAT_tec c (by decide), h.rd F.CN_STAT_rec c (by decide),
    h.flag F.CN_CTRL_pending c (by decide), h.rd F.CN_CTRL_status c (by decide)⟩

theorem Dev.canCommand_recovers {d : Dev} {m : Master} {c : Nat} (hfree : d.fenced Kind.can c = false) (hoff : d.canState c = canBusOff) :
    (d.canCommand m c 1).canState c = canRecovering ∧ (d.canCommand m c 1).flag F.CN_CTRL_pending c = true := by
  unfold Dev.canCommand
  rw [if_neg (by rw [hfree]; decide), if_neg (by rw [hoff]; decide)]
  exact ⟨Dev.canState_wr _ c canRecovering (by decide),
    ((Dev.wr_keeps _ F.CN_STAT_state c canRecovering (by decide)).flag F.CN_CTRL_pending c (by decide)).trans
      (Dev.flag_put _ F.CN_CTRL_pending _ _ (by decide) rfl)⟩

theorem Dev.canState_canCommand_of_on {d : Dev} {m : Master} {c : Nat} (hon : d.canState c ≠ canBusOff) :
    (d.canCommand m c 1).canState c = d.canState c := by
  have hreject : ∀ why, (d.reject m (F.CN_CTRL.off c 0) why (BitVec.ofNat 32 1)).canState c = d.canState c := fun why =>
    (Dev.reject_keeps ..).rd F.CN_STAT_state c (by decide)
  unfold Dev.canCommand
  split
  · exact hreject _
  · rw [if_pos (.inr hon)]
    exact hreject _

/-- The trigger of a flow that has not been received. -/
def Dev.missedFlow (d : Dev) (c l : Nat) : Dev :=
  ((d.put F.FL_STAT_missed l true).put F.CN_TT_STAT_missed c true).reportOpen Kind.flow l Cls.report Code.MISSED_WINDOW

theorem Dev.missedFlow_shows (d : Dev) (c l : Nat) :
    (d.missedFlow c l).flag F.FL_STAT_missed l = true ∧ (d.missedFlow c l).flag F.CN_TT_STAT_missed c = true := by
  have hreport := Dev.reportOpen_keeps ((d.put F.FL_STAT_missed l true).put F.CN_TT_STAT_missed c true) Kind.flow l Cls.report Code.MISSED_WINDOW
  have hput := Dev.put_keeps (d.put F.FL_STAT_missed l true) F.CN_TT_STAT_missed c true (by decide)
  exact ⟨((hreport.flag F.FL_STAT_missed l (by decide)).trans (hput.flag F.FL_STAT_missed l (by decide))).trans
      (Dev.flag_put _ F.FL_STAT_missed _ _ (by decide) rfl),
    (hreport.flag F.CN_TT_STAT_missed c (by decide)).trans (Dev.flag_put _ F.CN_TT_STAT_missed _ _ (by decide) rfl)⟩

/-- A slot frame whose window has passed. -/
def Dev.missWindow (d : Dev) (c : Nat) (z : TxSlot) : Dev :=
  ((d.finish z.frame.qp z.frame.index Code.MISSED_WINDOW).put F.CN_TT_STAT_missed c true).wr F.FL_STAT_last_status z.frame.flow Code.MISSED_WINDOW

theorem Dev.missWindow_shows {d : Dev} {c : Nat} {z : TxSlot} (hlive : d.underWay z.frame.qp z.frame.index) :
    (d.missWindow c z).endedWith z.frame.qp z.frame.index Code.MISSED_WINDOW ∧ (d.missWindow c z).flag F.CN_TT_STAT_missed c = true ∧
      (d.missWindow c z).rd F.FL_STAT_last_status z.frame.flow = Code.MISSED_WINDOW := by
  have hends := Dev.finish_ends hlive Code.MISSED_WINDOW false 0
  unfold Dev.missWindow
  generalize d.finish z.frame.qp z.frame.index Code.MISSED_WINDOW = e at hends
  exact ⟨Dev.endedWith_congr rfl hends,
    ((Dev.wr_keeps _ F.FL_STAT_last_status z.frame.flow _ (by decide)).flag F.CN_TT_STAT_missed c (by decide)).trans
      (Dev.flag_put _ F.CN_TT_STAT_missed _ _ (by decide) rfl),
    Dev.rd_wr_of_lt _ F.FL_STAT_last_status _ (by decide) (by decide)⟩

theorem Dev.mayLead_of {d : Dev} {c sof : Nat} (hsend : d.maySend c = true) (hrole : d.rd F.CN_TT_CFG_role c = 2)
    (hstart : (d.can c).cycleAt + d.cycleTicks c ≤ sof) (hpast : sof ≤ d.time)
    (hleads : d.ttState c = ttMaster ∨ (d.ttState c = ttFollowing ∧ (d.can c).contend = true ∧ (d.can c).gap = false)) : d.mayLead c sof = true := by
  simpa [Dev.mayLead, hsend, hrole, Nat.ble_eq, hstart, hpast, and_assoc] using hleads

end Sys2Proof.Machine
end

section
namespace Sys2Proof.Machine

/-- Settles O38: the controller states, and what the time-triggered network does at its triggers, windows and reference messages. -/
theorem canStatesAndTime : Obligations.CanStatesAndTime := by
  unfold Obligations.CanStatesAndTime
  intro s t c d v ticks cycle
  refine ⟨?integrated, ?recover, ?recovered, ?trigger, ?missed, ?reference, ?listened, ?lost, ?gap⟩
  case integrated =>
    intro hstate hfree htec hrec
    exact Does.of_effect_eq (show exec _ s = execIntegrationDone t c s from rfl) (if_pos ⟨hstate, hfree⟩) (Dev.integrated_active htec hrec)
  case recover =>
    intro m hmay hfree
    refine ⟨fun hoff => ?_, fun hon => ?_⟩
    · refine Does.of_master (show exec _ s = execRecover t m c s from rfl) ?_
      rw [if_pos (show (s.now t).mayStore m = true from hmay)]
      exact Dev.canCommand_recovers hfree hoff
    · refine Does.of_master (show exec _ s = execRecover t m c s from rfl) ?_
      rw [if_pos (show (s.now t).mayStore m = true from hmay)]
      exact Dev.canState_canCommand_of_on hon
  case recovered =>
    intro hstate
    refine ⟨fun hfree => ?_, fun hfenced => ?_⟩
    · obtain ⟨hactive, htec, hrec, hpending, hstatus⟩ := d.recovered_shows c
      obtain ⟨h1, h2, h3, h4, h5⟩ := (d.recovered c).ttStart_calm c
      exact Does.of_effect_eq (n := (d.recovered c).ttStart c) (show exec _ s = execRecoveryComplete t c s from rfl) (if_pos ⟨hstate, hfree⟩)
        ⟨h1.trans hactive, h2.trans htec, h3.trans hrec, h4.trans hpending, h5.trans hstatus⟩
    · exact Does.of_effect_eq (show exec _ s = execRecoveryComplete t c s from rfl)
        (if_neg fun h => absurd (h.2.symm.trans hfenced) (by decide)) rfl
  case trigger =>
    intro k htt hbus hcycle hmark l
    have hfires : (d.ttState c = ttFollowing ∨ d.ttState c = ttMaster) ∧ d.onBus c = true ∧
        d.trigCycle c k (d.rd F.CN_TT_STAT_cycle_count c) = true ∧
        (d.can c).cycleAt + d.ntuTicks c (d.rd2 F.CN_TT_MARK_mark c k) ≤ d.time := ⟨htt, hbus, hcycle, hmark⟩
    refine ⟨fun htype hnew => ?_, fun htype hseen => ?_, fun htype z hz hflow hoffer => ?_⟩
    · refine Does.of_effect_eq (show exec _ s = execTtTrigger t c k s from rfl)
        ((if_pos hfires).trans ((if_pos htype).trans (if_neg fun h => hnew (List.contains_iff_mem.mp h)))) ?_
      exact Dev.missedFlow_shows ..
    · refine Does.of_effect_eq (show exec _ s = execTtTrigger t c k s from rfl)
        ((if_pos hfires).trans ((if_pos htype).trans (if_pos (List.contains_iff_mem.mpr hseen)))) ⟨rfl, ?_⟩
      rw [Dev.can_onCan]
      exact fun h => absurd (List.mem_filter.mp h).2 (by rw [bne_self_eq_false]; decide)
    · refine Does.of_effect_eq (show exec _ s = execTtTrigger t c k s from rfl) ((if_pos hfires).trans (if_neg htype)) ?_
      rw [Dev.can_onCan]
      exact List.mem_map.mpr ⟨z, hz, if_pos ⟨hflow, hoffer⟩⟩
  case missed =>
    intro k z m it hslot hoffer hpassed hitem hlive hring
    refine Does.of_effect_eq (n := d.missWindow c z) (show exec _ s = execMissedWindow t c k s from rfl) ?_
      (Dev.missWindow_shows ⟨it, hitem, hlive, hring⟩)
    dsimp only
    rw [show ((s.now t).can c).slots.find? (fun z => z.slot == k.val) = some z from hslot]
    dsimp only
    rw [hoffer]
    exact if_pos hpassed
  case reference =>
    intro a sof hsend hrole hstart hpast hleads hcalm sent
    have hmay : d.mayLead c sof = true := Dev.mayLead_of hsend hrole hstart hpast hleads
    have hsignalled := d.referenceFrame_signalled c sof a
    obtain ⟨hkeeps, -, hcn, -⟩ := d.attempt_calm (sof := sof) hsignalled hcalm
    have hbus := d.onBus_attempt (sof := sof) hsignalled hcalm (Bool.and_eq_true_iff.mp hsend).1
    have hdo : ∀ {P : Dev → Prop} {n : Dev}, (match a.ended with
        | .ok => (d.attempt c sof (d.referenceFrame c sof) a).lead c sof
        | .arbLost => (d.attempt c sof (d.referenceFrame c sof) a).yieldLead c
        | _ => d.attempt c sof (d.referenceFrame c sof) a) = n → P n → Does s (.ttReferenceSend t c a sof) P := fun hn hP =>
      Does.of_effect_eq (show exec _ s = execTtReferenceSend t c a sof s from rfl)
        ((if_pos hmay).trans ((if_neg (by rw [hbus]; decide)).trans hn)) hP
    have hsent := congrArg Cn.sent hcn
    have htt : (d.attempt c sof (d.referenceFrame c sof) a).ttState c = d.ttState c := hkeeps.rd F.CN_TT_STAT_state c (by decide)
    have hnext := hkeeps.nextCycle (by decide) (by decide) c
    have hctl : (d.attempt c sof (d.referenceFrame c sof) a).cn.ctl = d.cn.ctl := by rw [hcn]
    have hnow := hkeeps.ttNow (by decide) hctl c sof
    have hprio := hkeeps.rd F.CN_TT_CFG_prio c (by decide)
    have hlevel := hkeeps.flag F.CN_TT_CFG_level2 c (by decide)
    have htime := hkeeps.time
    generalize d.attempt c sof (d.referenceFrame c sof) a = e at *
    refine ⟨fun hok => ?_, fun hlost => ?_, fun hok hlost => ?_⟩
    · obtain ⟨hmaster, hcycle, hcount, hshown, hmark⟩ := e.lead_shows c sof
      exact hdo (by rw [hok]) ⟨hmaster, hcycle, hshown.trans hprio, hcount.trans (congrArg (· % 64) hnext), (e.sent_lead c sof).trans hsent, rfl,
        fun h => (hmark (hlevel.trans h)).trans hnow⟩
    · obtain ⟨hyields, hcontend, hmaster, hfollows⟩ := e.yieldLead_shows c
      refine hdo (by rw [hlost]) ⟨hyields.trans hsent, hcontend, fun h => ?_, fun h => hfollows (htt.trans h)⟩
      obtain ⟨hlistens, hat⟩ := hmaster (htt.trans h)
      exact ⟨hlistens, hat.trans htime⟩
    · refine hdo ?_ ⟨hsent, htt⟩
      cases hend : a.ended with
      | ok => exact absurd hend hok
      | arbLost => exact absurd hend hlost
      | noAck | bitError | formError | stuffError | crcError => rfl
  case listened =>
    intro hstate hpassed
    refine Does.of_effect_eq (show exec _ s = execListenEnd t c s from rfl) (if_pos ⟨hstate, hpassed⟩) ⟨?_, ?_⟩
    · exact (Dev.ttState_ttCheck ..).trans (Dev.ttState_wr d c ttFollowing (by decide))
    · exact congrArg CnT.contend ((Dev.can_ttCheck ..).trans (Dev.can_onCan ..))
  case lost =>
    intro hstate hgap hpassed
    refine Does.of_effect_eq (show exec _ s = execMasterLost t c s from rfl) (if_pos ⟨hstate, hgap, hpassed⟩) ⟨?_, ?_⟩
    · exact ((Dev.ttCheck_keeps ..).flag F.CN_TT_STAT_master_lost c (by decide)).trans
        (Dev.flag_put d F.CN_TT_STAT_master_lost _ _ (by decide) rfl)
    · exact congrArg CnT.goodRefs ((Dev.can_ttCheck ..).trans (Dev.can_onCan ..))
  case gap =>
    intro hgap
    exact Does.of_effect_eq (show exec _ s = execMasterLost t c s from rfl) (if_neg fun h => absurd (h.2.1.symm.trans hgap) (by decide)) rfl

end Sys2Proof.Machine
end

section
/-! CAN_TX is secured, loaded and ends (R324, R327, R331, R332, R337, R338). -/

namespace Sys2Proof.Machine

/-! ### Frames leave their controller (R329) -/

/-- Is this another frame than that of a descriptor? -/
def TxFrame.other (q i : Nat) (f : TxFrame) : Bool := !(f.qp == q && f.index == i)

/-- A controller without the frame of a descriptor. -/
def CnT.without (v : CnT) (q i : Nat) : CnT :=
  { v with frames := v.frames.filter (TxFrame.other q i), slots := v.slots.filter fun k => TxFrame.other q i k.frame }

/-- One controller loses the frame of a descriptor. -/
def Dev.dropAt (d : Dev) (q i c : Nat) : Dev :=
  if (d.can c).frames.all (TxFrame.other q i) && (d.can c).slots.all (fun k => TxFrame.other q i k.frame) then d
  else (d.setCan c ((d.can c).without q i)).showSlots c

theorem Dev.dropFrame_eq (d : Dev) (q i : Nat) : d.dropFrame q i = d.each (List.range 8) fun d c => d.dropAt q i c := rfl

theorem Dev.can_dropAt (d : Dev) (q i c k : Nat) : (d.dropAt q i c).can k = if k = c then (d.can c).without q i else d.can k := by
  unfold Dev.dropAt
  split
  · next h =>
    rw [Bool.and_eq_true, List.all_eq_true, List.all_eq_true] at h
    obtain ⟨hframes, hslots⟩ := h
    have hsame : (d.can c).without q i = d.can c := by
      rw [CnT.without, List.filter_eq_self.mpr hframes, List.filter_eq_self.mpr hslots]
    rw [hsame]
    split
    · next h => rw [h]
    · rfl
  · exact Dev.can_setCan ..

theorem CnT.without_without (v : CnT) (q i : Nat) : (v.without q i).without q i = v.without q i := by
  simp [CnT.without, List.filter_filter]

/-- After the descriptor's frame is dropped no controller has it. -/
theorem Dev.can_dropFrame (d : Dev) (q i : Nat) {c : Nat} (hc : c < 8) : (d.dropFrame q i).can c = (d.can c).without q i := by
  have hstep : ∀ (e : Dev) k, e.can c = d.can c ∨ e.can c = (d.can c).without q i →
      (e.dropAt q i k).can c = d.can c ∨ (e.dropAt q i k).can c = (d.can c).without q i := fun e k h => by
    rw [Dev.can_dropAt]
    split
    · next hk =>
      subst hk
      rcases h with h | h <;> rw [h]
      · exact .inr rfl
      · exact .inr (CnT.without_without ..)
    · exact h
  rw [d.dropFrame_eq]
  refine Dev.each_reaches_of (I := fun e => e.can c = d.can c ∨ e.can c = (d.can c).without q i)
    (P := fun e => e.can c = (d.can c).without q i) (List.mem_range.mpr hc) (fun e k _ h => hstep e k h) (fun e h => ?_) (fun e k _ h => ?_) d (.inl rfl)
  · rw [Dev.can_dropAt, if_pos rfl]
    rcases h with h | h <;> rw [h]
    exact CnT.without_without ..
  · rw [Dev.can_dropAt]
    split
    · next hk => rw [← hk, h, CnT.without_without]
    · exact h

/-- From d to e the controllers lost frames alone. -/
def Dev.FramesOnly (d e : Dev) : Prop :=
  e.cn.flow = d.cn.flow ∧ e.cn.sent = d.cn.sent ∧ ∀ c, ∃ frames slots, e.can c = { d.can c with frames := frames, slots := slots }

theorem Dev.FramesOnly.of_cn {d e : Dev} (h : e.cn = d.cn) : d.FramesOnly e :=
  ⟨congrArg Cn.flow h, congrArg Cn.sent h, fun c => ⟨_, _, Dev.can_congr (congrArg Cn.ctl h) c⟩⟩

theorem Dev.FramesOnly.of_keeps {w : Foot} {d e : Dev} (h : Keeps w d e) (hp : Part.cn ∉ w.parts) : d.FramesOnly e := .of_cn (h.parts .cn hp)

theorem Dev.FramesOnly.trans {d e g : Dev} (h : d.FramesOnly e) (k : e.FramesOnly g) : d.FramesOnly g := by
  obtain ⟨hflow, hsent, hcan⟩ := h
  obtain ⟨kflow, ksent, kcan⟩ := k
  refine ⟨kflow.trans hflow, ksent.trans hsent, fun c => ?_⟩
  obtain ⟨frames, slots, hc⟩ := hcan c
  obtain ⟨frames', slots', kc⟩ := kcan c
  exact ⟨frames', slots', by rw [kc, hc]⟩

theorem Dev.FramesOnly.foldl {α : Type} {f : Dev → α → Dev} (h : ∀ (d : Dev) x, d.FramesOnly (f d x)) (l : List α) :
    ∀ d : Dev, d.FramesOnly (l.foldl f d) := by
  induction l with
  | nil => exact fun d => .of_cn rfl
  | cons x l ih => exact fun d => (h d x).trans (ih _)

theorem Dev.dropAt_framesOnly (d : Dev) (q i c : Nat) : d.FramesOnly (d.dropAt q i c) := by
  refine ⟨?_, ?_, fun k => ?_⟩
  · unfold Dev.dropAt; split <;> rfl
  · unfold Dev.dropAt; split <;> rfl
  · rw [Dev.can_dropAt]
    split
    · next h => exact ⟨_, _, by rw [h]; rfl⟩
    · exact ⟨_, _, rfl⟩

theorem Dev.dropFrame_framesOnly (d : Dev) (q i : Nat) : d.FramesOnly (d.dropFrame q i) := Dev.FramesOnly.foldl (fun e c => e.dropAt_framesOnly q i c) _ d

theorem Dev.finish_framesOnly (d : Dev) (q i st : Nat) (partly : Bool) (detail : Nat) : d.FramesOnly (d.finish q i st partly detail) := by
  have hdrain : ∀ e : Dev, e.FramesOnly (e.drainItems q) := fun e => .of_keeps (e.drainItems_keeps q) (by decide)
  unfold Dev.finish
  split
  · exact .of_cn rfl
  · next it _ =>
    split
    · exact .of_cn rfl
    · have hended := d.onItem_keeps q i fun it => { it with phase := .ended st partly (BitVec.ofNat 32 detail) }
      generalize d.onItem q i (fun it => { it with phase := .ended st partly (BitVec.ofNat 32 detail) }) = e at hended
      have hended : d.FramesOnly e := .of_keeps hended (by decide)
      dsimp only
      cases it.desc with
      | none => exact hended.trans (hdrain _)
      | some x =>
        dsimp only
        split
        · exact (hended.trans (Dev.dropFrame_framesOnly ..)).trans (hdrain _)
        · exact (hended.trans (.of_keeps (Dev.noteLast_keeps ..) (by decide))).trans (hdrain _)

/-- A CAN_TX descriptor that ends takes its frame with it. -/
theorem Dev.can_finish {d : Dev} {q i : Nat} {it : Item} {x : Descr} (hitem : (d.qp q).item i = some it) (hlive : it.hasEnded = false)
    (hdesc : it.desc = some x) (hop : x.opcode = Op.CAN_TX) (st : Nat) (partly : Bool) (detail : Nat) {c : Nat} (hc : c < 8) :
    (d.finish q i st partly detail).can c = (d.can c).without q i := by
  have hfinish : d.finish q i st partly detail =
      ((d.onItem q i fun it => { it with phase := .ended st partly (BitVec.ofNat 32 detail) }).dropFrame q i).drainItems q := by
    unfold Dev.finish
    rw [hitem]
    dsimp only
    rw [hlive, if_neg Bool.false_ne_true, hdesc]
    dsimp only
    rw [if_pos (show x.opcode = 0x30 from hop)]
  rw [hfinish]
  exact ((Dev.drainItems_keeps ..).can (by decide) c).trans (Dev.can_dropFrame _ q i hc)

/-! ### The outcome of an attempt (R327, R328) -/

/-- What an attempt of a controller without slot frames may change. -/
def idleFoot : Foot :=
  ⟨false, [F.TB_GT_STAT_state, F.TB_GT_STAT_gt_valid, F.CN_STAT_tec, F.CN_STAT_rec, F.CN_STAT_state, F.CN_CNT_bus_off, F.CN_TT_STAT_state,
    F.CN_TT_STAT_gt_valid, F.FLT_STAT_lost, F.FLT_LOST], [.flt]⟩

theorem Dev.reintegrate_idle (d : Dev) (c : Nat) : Keeps idleFoot d (d.reintegrate c) ∧ (d.reintegrate c).canState c = canIntegrating :=
  ⟨(d.reintegrate_keeps c).within (by decide), (Dev.canState_ttCheck ..).trans (Dev.canState_wr d c canIntegrating (by decide))⟩

/-- BUS_OFF of a controller without slot frames. -/
theorem Dev.busOff_idle {d : Dev} {c : Nat} (hslots : (d.can c).slots = []) : Keeps idleFoot d (d.busOff c) ∧ (d.busOff c).canState c = canBusOff ∧
    (d.busOff c).rd F.CN_STAT_tec c = d.rd F.CN_STAT_tec c := by
  have hstate := Dev.wr_keeps d F.CN_STAT_state c canBusOff (by decide)
  have hoff := d.canState_wr c canBusOff (by decide)
  have hcan : ((d.wr F.CN_STAT_state c canBusOff).can c).slots = [] := hslots
  unfold Dev.busOff
  generalize d.wr F.CN_STAT_state c canBusOff = e at hstate hoff hcan
  have hcount := Dev.bump_keeps e F.CN_CNT_bus_off c (by decide)
  have hends : (e.bump F.CN_CNT_bus_off c).endSlots c Code.BUS_OFF = e.bump F.CN_CNT_bus_off c := by
    rw [Dev.endSlots, show ((e.bump F.CN_CNT_bus_off c).can c).slots = [] from hcan]
    rfl
  dsimp only
  rw [hends]
  generalize e.bump F.CN_CNT_bus_off c = g at hcount
  have hreport := g.report_keeps Kind.can c Cls.report Code.BUS_OFF (g.rd F.CN_STAT_tec c) 0
  generalize g.report Kind.can c Cls.report Code.BUS_OFF (g.rd F.CN_STAT_tec c) = k at hreport
  have htt := Dev.wr_keeps k F.CN_TT_STAT_state c ttOff (by decide)
  have hcheck := (k.wr F.CN_TT_STAT_state c ttOff).ttCheck_keeps c
  refine ⟨((((hstate.within (by decide)).trans (hcount.within (by decide))).trans (hreport.within (by decide))).trans (htt.within (by decide))).trans
    (hcheck.within (by decide)), ?_, ?_⟩
  · exact (hcheck.rd F.CN_STAT_state c (by decide)).trans ((htt.rd F.CN_STAT_state c (by decide)).trans
      ((hreport.rd F.CN_STAT_state c (by decide)).trans ((hcount.rd F.CN_STAT_state c (by decide)).trans hoff)))
  · exact (hcheck.rd F.CN_STAT_tec c (by decide)).trans ((htt.rd F.CN_STAT_tec c (by decide)).trans
      ((hreport.rd F.CN_STAT_tec c (by decide)).trans ((hcount.rd F.CN_STAT_tec c (by decide)).trans (hstate.rd F.CN_STAT_tec c (by decide)))))

/-- New error counters of a controller without slot frames. -/
theorem Dev.errorCounts_idle {d : Dev} {c : Nat} (hslots : (d.can c).slots = []) (tec rec' : Nat) : Keeps idleFoot d (d.errorCounts c tec rec') ∧
    (d.errorCounts c tec rec').rd F.CN_STAT_tec c = min tec 256 ∧
    (d.errorCounts c tec rec').canState c = if 255 < tec then canBusOff else stateOfCounts tec rec' := by
  by_cases hoff : 255 < tec
  · have hcounts := d.withCounts_keeps c tec rec'
    obtain ⟨htec, -⟩ := d.withCounts_shows c tec rec'
    have hcan : ((d.withCounts c tec rec').can c).slots = [] := hslots
    have heq : d.errorCounts c tec rec' = (d.withCounts c tec rec').busOff c := if_pos hoff
    obtain ⟨hkeeps, hstate, hkept⟩ := Dev.busOff_idle hcan
    rw [heq, if_pos hoff]
    exact ⟨(hcounts.within (by decide)).trans hkeeps, hkept.trans htec, hstate⟩
  · have hcalm : tec ≤ 255 := by omega
    obtain ⟨hstate, htec, -⟩ := d.errorCounts_shows c rec' hcalm
    rw [if_neg hoff, min_eq_left (by omega)]
    exact ⟨(d.errorCounts_calm c rec' hcalm).within (by decide), htec, hstate⟩

/-- What an attempt shows of a controller without slot frames. -/
theorem Dev.attempt_idle {d : Dev} {c sof : Nat} {f : CanFrame} {a : TxAttempt} (hslots : (d.can c).slots = []) : let n := d.attempt c sof f a
    Keeps idleFoot (d.recorded c sof f a) n ∧ (n.can c).slots = [] ∧
      (d.silentEnd c f a → n.rd F.CN_STAT_tec c = d.rd F.CN_STAT_tec c ∧ n.canState c = canIntegrating) ∧
      (¬ d.silentEnd c f a → n.rd F.CN_STAT_tec c = min (d.tecNext c a) 256 ∧
        n.canState c = if 255 < d.tecNext c a then canBusOff else stateOfCounts (d.tecNext c a) (d.rd F.CN_STAT_rec c)) := by
  have hcan : (d.recorded c sof f a).can c = d.can c := Dev.can_congr (by rw [d.recorded_cn]) c
  have htec := (d.recorded_keeps c sof f a).rd F.CN_STAT_tec c (by decide)
  dsimp only
  by_cases h : d.silentEnd c f a
  · rw [Dev.attempt_of_silent h]
    obtain ⟨hkeeps, hstate⟩ := (d.recorded c sof f a).reintegrate_idle c
    refine ⟨hkeeps, ?_, fun _ => ⟨(((d.recorded c sof f a).reintegrate_keeps c).rd F.CN_STAT_tec c (by decide)).trans htec, hstate⟩, fun hn => absurd h hn⟩
    rw [hkeeps.can (by decide), hcan, hslots]
  · rw [Dev.attempt_of_signalled h]
    obtain ⟨hkeeps, hcount, hstate⟩ := Dev.errorCounts_idle (c := c) (by rw [hcan, hslots]) (d.tecNext c a) (d.rd F.CN_STAT_rec c)
    refine ⟨hkeeps, ?_, fun hs => absurd hs h, fun _ => ⟨hcount, hstate⟩⟩
    rw [hkeeps.can (by decide), hcan, hslots]

/-! ### CAN_TX (R331, R337, R338) -/

/-- What CAN_TX does. -/
def Dev.canTxStep (d : Dev) (q i : Nat) (data : List Byte) : Dev :=
  match (d.qp q).item i with
  | none => d
  | some it =>
    match it.desc with
    | none => d
    | some x =>
      if it.phase = .received ∧ x.opcode = Op.CAN_TX ∧
          ((d.can (d.rd F.FL_CFG_controller x.target)).frames.any fun f => f.qp == q && f.index == i) = false ∧
          d.securesNext q i (d.rd F.FL_CFG_controller x.target) = true then
        match d.windowCheck x with
        | some st => d.finish q i st
        | none => d.canTx q i x data
      else d

theorem execCanTx_eq (t : Nat) (q : Fin 64) (i : Nat) (data : List Byte) (s : State) :
    execCanTx t q i data s = effect t s fun d => d.canTxStep q i data := rfl

section
variable {d : Dev} {q i c : Nat} {it : Item} {x : Descr} {data : List Byte}

/-- A descriptor whose frame may be secured now. -/
theorem Dev.canTxStep_of_next (hitem : (d.qp q).item i = some it) (hdesc : it.desc = some x) (hphase : it.phase = .received)
    (hop : x.opcode = Op.CAN_TX) (hctl : d.rd F.FL_CFG_controller x.target = c) (hnew : ∀ f ∈ (d.can c).frames, f.qp ≠ q ∨ f.index ≠ i)
    (hnext : d.securesNext q i c = true) :
    d.canTxStep q i data = match d.windowCheck x with
      | some st => d.finish q i st
      | none => d.canTx q i x data := by
  have hunknown : ((d.can c).frames.any fun f => f.qp == q && f.index == i) = false := by
    refine List.any_eq_false.mpr fun f hf => ?_
    rw [Bool.and_eq_true, beq_iff_eq, beq_iff_eq]
    rintro ⟨hq, hi⟩
    exact (hnew f hf).elim (· hq) (· hi)
  unfold Dev.canTxStep
  rw [hitem]
  dsimp only
  rw [hdesc]
  dsimp only
  rw [hctl]
  exact if_pos ⟨hphase, hop, hunknown, hnext⟩

/-- A remote frame carries nothing that a window holds. -/
theorem Dev.windowCheck_of_rtr (hop : x.opcode = Op.CAN_TX) (hrtr : isRtr x = true) : d.windowCheck x = none := by
  have hreads : hostReads x = none := by
    unfold hostReads
    rw [if_neg (by rw [hop]; decide), if_pos hop, if_pos hrtr]
  have hwrites : hostWrites x = none := by
    unfold hostWrites
    rw [hop]
    rfl
  unfold Dev.windowCheck
  rw [hreads, hwrites]
  rfl

theorem Dev.frames_awaitSlot (hctl : d.rd F.FL_CFG_controller x.target = c) (bs : List Byte) :
    ((d.awaitSlot q i x bs).can c).frames = (d.can c).frames ++ [{ qp := q, index := i, flow := x.target, frame := d.txFrame x bs }] := by
  unfold Dev.awaitSlot
  rw [hctl]
  exact congrArg CnT.frames (Dev.can_onCan ..)

theorem padFrame_of_classic (h : isFd x = false) (bs : List Byte) : padFrame x bs = bs := if_neg (by rw [h]; exact Bool.false_ne_true)

theorem Dev.canTx_of_rtr (h : isRtr x = true) : d.canTx q i x data = d.awaitSlot q i x [] := if_pos h

theorem Dev.canTx_of_plain (hrtr : isRtr x = false) (hprofile : d.rd F.FL_CFG_profile x.target = 1) :
    d.canTx q i x data = d.awaitSlot q i x (padFrame x (data.take x.length)) :=
  (if_neg (by rw [hrtr]; exact Bool.false_ne_true)).trans (if_pos hprofile)

section
variable (hrtr : isRtr x = false) (hprofile : d.rd F.FL_CFG_profile x.target ≠ 1)
include hrtr hprofile

theorem Dev.canTx_of_spent (hfv : d.fvTx x.target = 2 ^ 64 - 1) : d.canTx q i x data = d.finish q i Code.OVERFLOW :=
  (if_neg (by rw [hrtr]; exact Bool.false_ne_true)).trans ((if_neg hprofile).trans (if_pos hfv))

theorem Dev.canTx_of_keyless (hfv : d.fvTx x.target ≠ 2 ^ 64 - 1) (hkey : d.keyOf (d.rd F.FL_SEC_key x.target) = none) :
    d.canTx q i x data = d.finish q i Code.AUTH := by
  refine (if_neg (by rw [hrtr]; exact Bool.false_ne_true)).trans ((if_neg hprofile).trans ((if_neg hfv).trans ?_))
  rw [hkey]

theorem Dev.canTx_of_key (hfv : d.fvTx x.target ≠ 2 ^ 64 - 1) {key : List Byte} (hkey : d.keyOf (d.rd F.FL_SEC_key x.target) = some key)
    (hcrypto : d.fenced Kind.crypto 0 = false) : d.canTx q i x data =
      (d.wr64 F.FL_FV_TX_LO F.FL_FV_TX_HI x.target (d.fvTx x.target + 1)).awaitSlot q i x
        (padFrame x (d.secureData key x.target (formatByte (d.txFrame x []) false) (d.fvTx x.target) (data.take x.length))) := by
  refine (if_neg (by rw [hrtr]; exact Bool.false_ne_true)).trans ((if_neg hprofile).trans ((if_neg hfv).trans ?_))
  rw [hkey]
  exact if_neg (by rw [hcrypto]; exact Bool.false_ne_true)

end

theorem Dev.secureData_of_auth (key : List Byte) {l : Nat} (h : d.rd F.FL_CFG_profile l = 2) (format fv : Nat) :
    d.secureData key l format fv data =
      data ++ numBytes fv (d.rd F.FL_SEC_fv l + 1) ++ d.authTag key l (d.rd F.FL_ID_id l) format fv data := if_pos h

/-- The next freshness value of a flow leaves how its frames look. -/
theorem Dev.txFrame_nextFv (l v : Nat) (bs : List Byte) : (d.wr64 F.FL_FV_TX_LO F.FL_FV_TX_HI l v).txFrame x bs = d.txFrame x bs := by
  have hk := Dev.wr64_keeps d F.FL_FV_TX_LO F.FL_FV_TX_HI l v (by decide) (by decide)
  generalize d.wr64 F.FL_FV_TX_LO F.FL_FV_TX_HI l v = e at hk
  unfold Dev.txFrame Dev.canState
  dsimp only
  rw [hk.rd F.FL_ID_format x.target (by decide), hk.rd F.FL_ID_id x.target (by decide), hk.rd F.FL_CFG_controller x.target (by decide),
    hk.rd F.CN_STAT_state (d.rd F.FL_CFG_controller x.target) (by decide)]

theorem Dev.rd64_lt (d : Dev) {lo hi : Fd} (hlo : lo.width = 32) (hhi : hi.width = 32) (i : Nat) : d.rd64 lo hi i < 2 ^ 64 := by
  have hl : d.rd lo i < 2 ^ lo.width := getBits_lt ..
  have hh : d.rd hi i < 2 ^ hi.width := getBits_lt ..
  rw [hlo] at hl
  rw [hhi] at hh
  rw [Dev.rd64]
  omega

theorem Dev.fvTx_awaitSlot (bs : List Byte) (l : Nat) : (d.awaitSlot q i x bs).fvTx l = d.fvTx l :=
  (d.awaitSlot_keeps q i x bs).rd64 F.FL_FV_TX_LO F.FL_FV_TX_HI l (by decide) (by decide)

theorem Dev.fvTx_nextFv {l : Nat} (h : d.fvTx l ≠ 2 ^ 64 - 1) :
    (d.wr64 F.FL_FV_TX_LO F.FL_FV_TX_HI l (d.fvTx l + 1)).fvTx l = d.fvTx l + 1 := by
  have hlt : d.fvTx l < 2 ^ 64 := d.rd64_lt rfl rfl l
  exact (Dev.rd64_wr64 d F.FL_FV_TX_LO F.FL_FV_TX_HI l _ ⟨rfl, rfl⟩ ⟨rfl, rfl⟩ (by decide)).trans (Nat.mod_eq_of_lt (by omega))

end

/-! ### SLOT_LOAD (R332) -/

/-- A controller one of whose waiting frames is in slot k. -/
def CnT.load (v : CnT) (k : Nat) (f : TxFrame) (t : Nat) : CnT :=
  { v with frames := v.frames.erase f, slots := v.slots ++ [{ slot := k, frame := f, loadedAt := t }] }

/-- A frame goes into a free slot of its controller, and its descriptor has started. -/
def Dev.loadSlot (d : Dev) (c q i k : Nat) (f : TxFrame) : Dev :=
  let d := d.setCan c ((d.can c).load k f d.time)
  ((d.onItem q i fun it => { it with phase := .started }).showQp q).showSlots c

/-- What SLOT_LOAD does. -/
def Dev.slotStep (d : Dev) (c : Nat) : Dev :=
  let q := d.rd F.CN_CFG_tx_qp c
  match (d.qp q).items.find? (fun it => !it.begun), (List.range 3).find? (fun k => !(d.can c).slots.any fun z => z.slot == k) with
  | some it, some k =>
    match (d.can c).frames.find? fun f => f.qp == q && f.index == it.index with
    | some f =>
      if d.onBus c = true ∧ (d.qp q).mayStart it.index (match it.desc with | some x => isSerial x | none => false) = true ∧
          ((d.can c).slots.any fun z => z.frame.flow == f.flow) = false then d.loadSlot c q it.index k f
      else d
    | none => d
  | _, _ => d

theorem execSlotLoad_eq (t : Nat) (c : Fin 8) (s : State) : execSlotLoad t c s = effect t s fun d => d.slotStep c := rfl

/-- The lowest free slot. -/
theorem find?_free_slot {slots : List TxSlot} {k : Nat} (hk : k < 3) (hfree : ∀ z ∈ slots, z.slot ≠ k)
    (hlow : ∀ j, j < k → ∃ z ∈ slots, z.slot = j) : (List.range 3).find? (fun k => !slots.any fun z => z.slot == k) = some k := by
  have htaken : ∀ j, j < k → slots.any (fun z => z.slot == j) = true := fun j hj => by
    obtain ⟨z, hz, hslot⟩ := hlow j hj
    exact List.any_eq_true.mpr ⟨z, hz, beq_iff_eq.mpr hslot⟩
  have hnone : slots.any (fun z => z.slot == k) = false := List.any_eq_false.mpr fun z hz => by
    rw [beq_iff_eq]
    exact hfree z hz
  refine List.find?_range_eq_some.mpr ⟨by rw [hnone]; rfl, List.mem_range.mpr hk, fun j hj => ?_⟩
  rw [htaken j hj]
  rfl

theorem Dev.slotStep_of_free {d : Dev} {c q k : Nat} {it : Item} {x : Descr} {f : TxFrame} (hq : q = d.rd F.CN_CFG_tx_qp c)
    (hnext : (d.qp q).items.find? (fun it => !it.begun) = some it) (hdesc : it.desc = some x)
    (hstart : (d.qp q).mayStart it.index (isSerial x) = true) (hbus : d.onBus c = true)
    (hslot : (List.range 3).find? (fun k => !(d.can c).slots.any fun z => z.slot == k) = some k)
    (hframe : (d.can c).frames.find? (fun f => f.qp == q && f.index == it.index) = some f) (hflow : ∀ z ∈ (d.can c).slots, z.frame.flow ≠ f.flow) :
    d.slotStep c = d.loadSlot c q it.index k f := by
  have hfree : ((d.can c).slots.any fun z => z.frame.flow == f.flow) = false := List.any_eq_false.mpr fun z hz => by
    rw [beq_iff_eq]
    exact hflow z hz
  unfold Dev.slotStep
  dsimp only
  rw [← hq, hnext, hslot]
  dsimp only
  rw [hframe]
  dsimp only
  rw [hdesc]
  exact if_pos ⟨hbus, hstart, hfree⟩

theorem Dev.loadSlot_shows {d : Dev} {c q k : Nat} {it : Item} {f : TxFrame} (hitem : (d.qp q).item it.index = some it) :
    ((d.loadSlot c q it.index k f).can c).slots = (d.can c).slots ++ [{ slot := k, frame := f, loadedAt := d.time }] ∧
      ((d.loadSlot c q it.index k f).can c).frames = (d.can c).frames.erase f ∧
      ((d.loadSlot c q it.index k f).qp q).item it.index = some { it with phase := .started } := by
  have hset := d.can_setCan c c ((d.can c).load k f d.time)
  rw [if_pos rfl] at hset
  unfold Dev.loadSlot
  dsimp only
  generalize hloaded : d.setCan c ((d.can c).load k f d.time) = e at hset
  have hsame : (e.qp q).item it.index = some it := by
    rw [← hloaded]
    exact hitem
  have hstarted : ((e.onItem q it.index fun it => { it with phase := .started }).qp q).item it.index = some { it with phase := .started } :=
    Dev.item_onItem hsame rfl
  have hcan : ((e.onItem q it.index fun it => { it with phase := .started }).can c) = e.can c := rfl
  generalize e.onItem q it.index (fun it => { it with phase := .started }) = g at hstarted hcan
  have hshow := g.showQp_keeps q
  have hqp := Dev.qp_congr (Dev.hi_showQp g q) q
  generalize g.showQp q = n at hshow hqp
  have hslots : (n.showSlots c).can c = e.can c := (show (n.showSlots c).can c = n.can c from rfl).trans ((hshow.can (by decide) c).trans hcan)
  have hitems : (n.showSlots c).qp q = g.qp q := hqp
  rw [hslots, hset, hitems]
  exact ⟨rfl, rfl, hstarted⟩

/-! ### FRAME_TX_END (R328, R332) -/

/-- The descriptor of a slot frame has ended, and its flow's counters show it. -/
def Dev.slotEnded (d : Dev) (k : TxSlot) (a : TxAttempt) (sof : Nat) : Dev :=
  let d := d.finish k.frame.qp k.frame.index (txStatus a.ended) false (sof % 2 ^ 32)
  let d := d.wr F.FL_STAT_last_status k.frame.flow (txStatus a.ended)
  if a.ended = .ok then d.wr F.FL_STAT_frames k.frame.flow (d.rd F.FL_STAT_frames k.frame.flow + 1) else d

/-- What FRAME_TX_END does. -/
def Dev.txEndStep (d : Dev) (c : Nat) (a : TxAttempt) (sof : Nat) : Dev :=
  match d.offered c sof with
  | none => d
  | some k => if d.maySend c = true ∧ sof ≤ d.time then (d.slotEnded k a sof).attempt c sof k.frame.frame a else d

theorem execFrameTxEnd_eq (t : Nat) (c : Fin 8) (a : TxAttempt) (sof : Nat) (s : State) :
    execFrameTxEnd t c a sof s = effect t s fun d => d.txEndStep c a sof := rfl

theorem Dev.txEndStep_of_offered {d : Dev} {c sof : Nat} {a : TxAttempt} {k : TxSlot} (hoffer : d.offered c sof = some k)
    (hsend : d.maySend c = true) (hpast : sof ≤ d.time) : d.txEndStep c a sof = (d.slotEnded k a sof).attempt c sof k.frame.frame a := by
  unfold Dev.txEndStep
  rw [hoffer]
  exact if_pos ⟨hsend, hpast⟩

theorem Dev.txEndStep_of_silent {d : Dev} {c sof : Nat} {a : TxAttempt} (hsend : d.maySend c = false) : d.txEndStep c a sof = d := by
  unfold Dev.txEndStep
  cases d.offered c sof with
  | none => rfl
  | some k => exact if_neg (by rw [hsend]; exact fun h => Bool.false_ne_true h.1)

/-- The one loaded frame is offered. -/
theorem Dev.offered_of_only {d : Dev} {c sof : Nat} {k : TxSlot} (hslots : (d.can c).slots = [k]) (hloaded : k.loadedAt ≤ sof)
    (huntimed : d.triggered k.frame.flow = false) (hfree : d.guarded c sof k.frame.flow = false) : d.offered c sof = some k := by
  have hmay : d.mayOffer c sof k = true := by
    rw [Dev.mayOffer, huntimed, hfree, Nat.ble_eq_true_of_le hloaded]
    rfl
  have honly : (d.can c).slots.filter (d.mayOffer c sof) = [k] := by
    rw [hslots, List.filter_cons_of_pos hmay]
    rfl
  unfold Dev.offered
  rw [honly]
  dsimp only
  split
  · rfl
  · simp

/-- What the end of a slot frame leaves of its controller. -/
def slotFoot : Foot := ⟨false, [F.FL_STAT_last_status, F.FL_STAT_frames] ++ finishFoot.fields, finishFoot.parts⟩

theorem Dev.slotEnded_keeps (d : Dev) (k : TxSlot) (a : TxAttempt) (sof : Nat) : Keeps slotFoot d (d.slotEnded k a sof) := by
  have hfinish := (d.finish_keeps k.frame.qp k.frame.index (txStatus a.ended) false (sof % 2 ^ 32)).within (b := slotFoot) (by decide)
  have hstatus := hfinish.trans ((Dev.wr_keeps _ F.FL_STAT_last_status k.frame.flow (txStatus a.ended) (by decide)).within (by decide))
  exact Keeps.ite (fun _ => hstatus.trans ((Dev.wr_keeps _ F.FL_STAT_frames k.frame.flow _ (by decide)).within (by decide))) fun _ => hstatus

theorem txStatus_lt (e : TxEnd) : txStatus e < 2 ^ 8 := by cases e <;> decide

theorem Dev.slotEnded_shows {d : Dev} {c q : Nat} {k : TxSlot} {a : TxAttempt} {sof : Nat} {it : Item} {x : Descr} (hc : c < 8)
    (hslots : (d.can c).slots = [k]) (hqp : k.frame.qp = q) (hitem : (d.qp q).item k.frame.index = some it) (hlive : it.hasEnded = false)
    (hdesc : it.desc = some x) (hop : x.opcode = Op.CAN_TX) (hring : (d.qp q).silent = false) : let n := d.slotEnded k a sof
    (n.can c).slots = [] ∧ n.endedWith q k.frame.index (txStatus a.ended) ∧ n.cn.sent = d.cn.sent ∧
      n.rd F.FL_STAT_last_status k.frame.flow = txStatus a.ended ∧
      (a.ended = .ok → n.rd F.FL_STAT_frames k.frame.flow = (d.rd F.FL_STAT_frames k.frame.flow + 1) % 65536) := by
  subst hqp
  have hcan := Dev.can_finish hitem hlive hdesc hop (txStatus a.ended) false (sof % 2 ^ 32) hc
  have hnone : ((d.can c).without k.frame.qp k.frame.index).slots = [] := by
    simp [CnT.without, hslots, TxFrame.other]
  have hends := Dev.finish_ends ⟨it, hitem, hlive, hring⟩ (txStatus a.ended) false (sof % 2 ^ 32)
  obtain ⟨-, hsent, -⟩ := d.finish_framesOnly k.frame.qp k.frame.index (txStatus a.ended) false (sof % 2 ^ 32)
  have hframes := (d.finish_keeps k.frame.qp k.frame.index (txStatus a.ended) false (sof % 2 ^ 32)).rd F.FL_STAT_frames k.frame.flow (by decide)
  unfold Dev.slotEnded
  generalize d.finish k.frame.qp k.frame.index (txStatus a.ended) false (sof % 2 ^ 32) = e at hcan hends hsent hframes
  have hslots : (e.can c).slots = [] := (congrArg CnT.slots hcan).trans hnone
  have hstatus := Dev.wr_keeps e F.FL_STAT_last_status k.frame.flow (txStatus a.ended) (by decide)
  have hshown : (e.wr F.FL_STAT_last_status k.frame.flow (txStatus a.ended)).rd F.FL_STAT_last_status k.frame.flow = txStatus a.ended :=
    Dev.rd_wr_of_lt _ F.FL_STAT_last_status _ (by decide) (txStatus_lt a.ended)
  have hcount := (hstatus.rd F.FL_STAT_frames k.frame.flow (by decide)).trans hframes
  have hslots : ((e.wr F.FL_STAT_last_status k.frame.flow (txStatus a.ended)).can c).slots = [] := hslots
  have hends : (e.wr F.FL_STAT_last_status k.frame.flow (txStatus a.ended)).endedWith k.frame.qp k.frame.index (txStatus a.ended) :=
    Dev.endedWith_congr rfl hends
  have hsent : (e.wr F.FL_STAT_last_status k.frame.flow (txStatus a.ended)).cn.sent = d.cn.sent := hsent
  dsimp only
  generalize e.wr F.FL_STAT_last_status k.frame.flow (txStatus a.ended) = g at *
  split
  · have hwrite := Dev.wr_keeps g F.FL_STAT_frames k.frame.flow (g.rd F.FL_STAT_frames k.frame.flow + 1) (by decide)
    refine ⟨hslots, Dev.endedWith_congr rfl hends, hsent, (hwrite.rd F.FL_STAT_last_status k.frame.flow (by decide)).trans hshown, fun _ => ?_⟩
    rw [← hcount]
    exact Dev.rd_wr _ F.FL_STAT_frames _ _ (by decide)
  · next hnot => exact ⟨hslots, hends, hsent, hshown, fun h => absurd h hnot⟩

/-- The outcome of FRAME_TX_END for the one frame that a controller has loaded. -/
theorem Dev.txEnd_shows {d e : Dev} {c : Nat} (hkeeps : Keeps slotFoot d e) (hslots : (e.can c).slots = []) (f : CanFrame) (a : TxAttempt) (sof : Nat) :
    let n := e.attempt c sof f a; let tec := d.rd F.CN_STAT_tec c
    (a.ended = .noAck → n.rd F.CN_CNT_no_ack c = min (d.rd F.CN_CNT_no_ack c + 1) 255) ∧
      (d.silentEnd c f a → n.rd F.CN_STAT_tec c = tec ∧ n.canState c = canIntegrating) ∧
      (¬ d.silentEnd c f a → n.rd F.CN_STAT_tec c = min (d.tecNext c a) 256 ∧
        n.canState c = if 255 < d.tecNext c a then canBusOff else stateOfCounts (d.tecNext c a) (d.rd F.CN_STAT_rec c)) := by
  obtain ⟨hattempt, -, hsilent, hsignalled⟩ := Dev.attempt_idle (f := f) (a := a) (sof := sof) hslots
  have htec := hkeeps.rd F.CN_STAT_tec c (by decide)
  have hstate : e.canState c = d.canState c := hkeeps.rd F.CN_STAT_state c (by decide)
  have hsame : e.silentEnd c f a = d.silentEnd c f a := by
    rw [Dev.silentEnd, Dev.silentEnd, Dev.xlSilent, Dev.xlSilent, hkeeps.flag F.CN_CFG_xl_es c (by decide)]
  have hnext : e.tecNext c a = d.tecNext c a := by
    rw [Dev.tecNext, Dev.tecNext, htec, hstate]
  rw [hsame, htec] at hsilent
  rw [hsame, hnext, hkeeps.rd F.CN_STAT_rec c (by decide)] at hsignalled
  refine ⟨fun hack => ?_, hsilent, hsignalled⟩
  refine (hattempt.rd F.CN_CNT_no_ack c (by decide)).trans ?_
  unfold Dev.recorded
  dsimp only
  rw [if_pos hack, ← hkeeps.rd F.CN_CNT_no_ack c (by decide)]
  exact Dev.rd_bump _ F.CN_CNT_no_ack c (by decide)

end Sys2Proof.Machine
end

section
namespace Sys2Proof.Machine

/-- Settles O36: a frame is secured in ring order, loaded into the lowest free slot, and ends with the outcome of its attempt. -/
theorem canTransmits : Obligations.CanTransmits := by
  unfold Obligations.CanTransmits
  intro s t c q i x it d l v fv
  have hnow : s.now t = d := rfl
  clear_value d
  refine ⟨?secures, ?loads, ?ends, ?listens⟩
  case secures =>
    intro hitem hdesc hphase hop hring hctl hnew hnext data bs
    have hstep := Dev.canTxStep_of_next (data := data) hitem hdesc hphase hop hctl hnew hnext
    have hdo : ∀ {P : Dev → Prop} {n : Dev}, d.canTxStep q i data = n → P n → Does s (.canTx t q i data) P := fun hn hP =>
      Does.of_effect_eq ((show exec _ s = execCanTx t q i data s from rfl).trans (execCanTx_eq ..)) (by rw [hnow]; exact hn) hP
    have hlive : d.underWay q i := ⟨it, hitem, by rw [Item.hasEnded, hphase], hring⟩
    have hpermitted : ∀ {P : Dev → Prop} {n : Dev}, d.windowCheck x = none → d.canTx q i x data = n → P n → Does s (.canTx t q i data) P :=
      fun hnone hn hP => hdo (hstep.trans (by rw [hnone]; exact hn)) hP
    refine ⟨fun e hrefused => ?_, fun hrtr => ?_, fun hnone hrtr => ⟨fun hprofile hfd => ?_, fun hprofile hspent => ?_, fun hprofile hfresh hkey => ?_,
      fun key hprofile hfd hfresh hkey hcrypto => ?_⟩⟩
    · exact hdo (hstep.trans (by rw [hrefused])) (Dev.finish_ends hlive ..)
    · exact hpermitted (Dev.windowCheck_of_rtr hop hrtr) (Dev.canTx_of_rtr hrtr) (Dev.frames_awaitSlot hctl [])
    · refine hpermitted hnone ((Dev.canTx_of_plain hrtr hprofile).trans ?_) (Dev.frames_awaitSlot hctl bs)
      rw [padFrame_of_classic hfd]
    · exact hpermitted hnone (Dev.canTx_of_spent hrtr hprofile hspent) (Dev.finish_ends hlive ..)
    · exact hpermitted hnone (Dev.canTx_of_keyless hrtr hprofile hfresh hkey)
        ⟨Dev.finish_ends hlive .., (d.finish_keeps q i Code.AUTH false 0).rd64 F.FL_FV_TX_LO F.FL_FV_TX_HI l (by decide) (by decide)⟩
    · have hauth : d.rd F.FL_CFG_profile l ≠ 1 := by
        rw [hprofile]
        decide
      have hfoot := Dev.wr64_keeps d F.FL_FV_TX_LO F.FL_FV_TX_HI l (d.fvTx l + 1) (by decide) (by decide)
      refine hpermitted hnone (Dev.canTx_of_key hrtr hauth hfresh hkey hcrypto) ⟨?_, (Dev.fvTx_awaitSlot _ l).trans (Dev.fvTx_nextFv hfresh)⟩
      rw [Dev.frames_awaitSlot ((hfoot.rd F.FL_CFG_controller l (by decide)).trans hctl), Dev.txFrame_nextFv, padFrame_of_classic hfd,
        Dev.secureData_of_auth key hprofile]
      rfl
  case loads =>
    intro k f hq hnext hitem hdesc hstart hbus hk hfree hlow hframe hflow
    exact Does.of_effect_eq ((show exec _ s = execSlotLoad t c s from rfl).trans (execSlotLoad_eq ..))
      (by rw [hnow]; exact Dev.slotStep_of_free hq hnext hdesc hstart hbus (find?_free_slot hk hfree hlow) hframe hflow) (Dev.loadSlot_shows hitem)
  case ends =>
    intro k a sof hslots hqp hitem hphase hdesc hop hring hloaded hpast huntimed hfree hsend f tec rec1 silent next
    have hlive : it.hasEnded = false := by rw [Item.hasEnded, hphase]
    have hkeeps := d.slotEnded_keeps k a sof
    obtain ⟨hnone, hends, hsent, hstatus, hframes⟩ := Dev.slotEnded_shows (sof := sof) (a := a) c.isLt hslots hqp hitem hlive hdesc hop hring
    obtain ⟨hattempt, hempty, -⟩ := Dev.attempt_idle (f := k.frame.frame) (a := a) (sof := sof) hnone
    obtain ⟨hack, hsilent, hsignalled⟩ := Dev.txEnd_shows hkeeps hnone k.frame.frame a sof
    have hrecord := (d.slotEnded k a sof).recorded_keeps c sof k.frame.frame a
    have hcn := (d.slotEnded k a sof).recorded_cn c sof k.frame.frame a
    have hall := (hrecord.within (b := ⟨false, F.CN_CNT_no_ack :: idleFoot.fields, [.cn, .flt]⟩) (by decide)).trans (hattempt.within (by decide))
    have hiff : silent ↔ d.silentEnd c k.frame.frame a := by
      rw [Dev.silentEnd, Dev.xlSilent, Bool.and_eq_true, beq_iff_eq, Bool.not_eq_true', and_assoc]
    have hnext : d.tecNext c a = next := by
      unfold Dev.tecNext tecAfter
      cases hend : a.ended with
      | noAck => simp only [next, hend, beq_iff_eq]; rfl
      | ok | arbLost | stuffError | bitError | formError | crcError => simp only [next, hend]; rfl
    rw [hnext] at hsignalled
    refine Does.of_effect_eq ((show exec _ s = execFrameTxEnd t c a sof s from rfl).trans (execFrameTxEnd_eq ..))
      (by rw [hnow]; exact Dev.txEndStep_of_offered (Dev.offered_of_only hslots hloaded huntimed hfree) hsend hpast)
      ⟨hempty, Dev.endedWith_congr (hall.parts .hi (by decide)) hends, ?_, (hall.rd F.FL_STAT_last_status f (by decide)).trans hstatus,
        fun h => (hall.rd F.FL_STAT_frames f (by decide)).trans (hframes h), hack, fun h => hsilent (hiff.mp h), fun h => hsignalled fun hs => h (hiff.mpr hs)⟩
    rw [hattempt.parts .cn (by decide), hcn, hsent]
  case listens =>
    intro hlisten a sof
    have hsend : d.maySend c = false := by rw [Dev.maySend, hlisten, Bool.not_true, Bool.and_false]
    exact Does.of_effect_eq ((show exec _ s = execFrameTxEnd t c a sof s from rfl).trans (execFrameTxEnd_eq ..))
      (by rw [hnow]; exact Dev.txEndStep_of_silent hsend) rfl

end Sys2Proof.Machine
end

section
/-! Receive buffers, received frames, stale flows and receive errors (R327, R333 to R336, R339). -/

namespace Sys2Proof.Machine

/-! ### New error counters leave what the reception of a frame rests on -/

theorem Dev.endSlots_framesOnly (d : Dev) (c st : Nat) : d.FramesOnly (d.endSlots c st) :=
  Dev.FramesOnly.foldl (f := fun e (k : TxSlot) => e.finish k.frame.qp k.frame.index st) (fun e _ => e.finish_framesOnly ..) (d.can c).slots d

theorem Dev.endSlots_reportsOnly (d : Dev) (c st : Nat) : d.ReportsOnly (d.endSlots c st) :=
  Dev.ReportsOnly.foldl (f := fun e (k : TxSlot) => e.finish k.frame.qp k.frame.index st) (fun e _ => e.finish_reportsOnly ..) (d.can c).slots d

/-- BUS_OFF takes frames from controllers, and of the faults it reports alone. -/
theorem Dev.busOff_only (d : Dev) (c : Nat) : d.FramesOnly (d.busOff c) ∧ d.ReportsOnly (d.busOff c) := by
  have hstate := Dev.wr_keeps d F.CN_STAT_state c canBusOff (by decide)
  unfold Dev.busOff
  dsimp only
  generalize d.wr F.CN_STAT_state c canBusOff = e at hstate ⊢
  have hcount := Dev.bump_keeps e F.CN_CNT_bus_off c (by decide)
  generalize e.bump F.CN_CNT_bus_off c = g at hcount ⊢
  have hframes := g.endSlots_framesOnly c Code.BUS_OFF
  have hreports := g.endSlots_reportsOnly c Code.BUS_OFF
  generalize g.endSlots c Code.BUS_OFF = k at hframes hreports ⊢
  have hreport := k.report_keeps Kind.can c Cls.report Code.BUS_OFF (k.rd F.CN_STAT_tec c) 0
  have hpost := k.report_reportsOnly Kind.can c Cls.report Code.BUS_OFF (k.rd F.CN_STAT_tec c) 0
  generalize k.report Kind.can c Cls.report Code.BUS_OFF (k.rd F.CN_STAT_tec c) = m at hreport hpost
  have htt := Dev.wr_keeps m F.CN_TT_STAT_state c ttOff (by decide)
  have hcheck := (m.wr F.CN_TT_STAT_state c ttOff).ttCheck_keeps c
  exact ⟨((((Dev.FramesOnly.of_keeps hstate (by decide)).trans (.of_keeps hcount (by decide))).trans hframes).trans
      (.of_keeps hreport (by decide))).trans ((Dev.FramesOnly.of_keeps htt (by decide)).trans (.of_keeps hcheck (by decide))),
    ((((Dev.ReportsOnly.of_keeps hstate (by decide)).trans (.of_keeps hcount (by decide))).trans hreports).trans hpost).trans
      ((Dev.ReportsOnly.of_keeps htt (by decide)).trans (.of_keeps hcheck (by decide)))⟩

theorem Dev.errorCounts_of_off (d : Dev) (c : Nat) {tec : Nat} (rec' : Nat) (h : 255 < tec) :
    d.errorCounts c tec rec' = (d.withCounts c tec rec').busOff c := if_pos h

theorem Dev.errorCounts_framesOnly (d : Dev) (c tec rec' : Nat) : d.FramesOnly (d.errorCounts c tec rec') := by
  by_cases h : 255 < tec
  · rw [d.errorCounts_of_off c rec' h]
    exact (Dev.FramesOnly.of_keeps (d.withCounts_keeps c tec rec') (by decide)).trans (Dev.busOff_only ..).1
  · exact .of_keeps (d.errorCounts_calm c rec' (by omega)) (by decide)

theorem Dev.errorCounts_reports (d : Dev) (c tec rec' : Nat) : d.ReportsOnly (d.errorCounts c tec rec') := by
  by_cases h : 255 < tec
  · rw [d.errorCounts_of_off c rec' h]
    have hcounts : d.ReportsOnly (d.withCounts c tec rec') := .of_flt rfl
    exact hcounts.trans (Dev.busOff_only ..).2
  · exact d.errorCounts_reportsOnly c rec' (by omega)

theorem Dev.errorCounts_rec (d : Dev) (c tec rec' : Nat) : (d.errorCounts c tec rec').rd F.CN_STAT_rec c = min rec' 255 := by
  by_cases h : 255 < tec
  · rw [d.errorCounts_of_off c rec' h]
    exact (((d.withCounts c tec rec').busOff_keeps c).rd F.CN_STAT_rec c (by decide)).trans (d.withCounts_shows c tec rec').2
  · exact (d.errorCounts_shows c rec' (by omega)).2.2

/-! ### A frame after the error counters have moved -/

/-- Does a field lie outside the filters of the controllers, in all its instances? -/
def Fd.missesFilters (f : Fd) : Bool :=
  (f.s1 % 0x1000 == 0 && f.s2 % 0x1000 == 0 && Nat.blt (f.base % 0x1000) 0x800) ||
    (Nat.blt 0 f.n1 && Nat.blt 0 f.n2 && Nat.blt (f.base + f.s1 * (f.n1 - 1) + f.s2 * (f.n2 - 1)) 0x90000) || Nat.ble 0x98000 f.base

theorem Fd.off_ne_filter {f : Fd} (h : f.missesFilters = true) {off : Nat} (hlow : 0x90000 ≤ off) (hhigh : off < 0x98000)
    (hplace : 0x800 ≤ off % 0x1000) (i j : Nat) : off ≠ f.off i j := by
  simp only [Fd.missesFilters, Bool.or_eq_true, Bool.and_eq_true, beq_iff_eq, Nat.ble_eq, Nat.blt_eq] at h
  rcases h with (⟨⟨h1, h2⟩, h⟩ | ⟨⟨h1, h2⟩, h⟩) | h
  · have hmod := f.off_mod i j 0x1000 (Nat.dvd_of_mod_eq_zero h1) (Nat.dvd_of_mod_eq_zero h2)
    omega
  · have hle := f.off_le i j h1 h2
    omega
  · have hge := f.base_le i j
    omega

/-- A filter keeps its word where nothing of the footprint lies among the filters. -/
theorem Foot.Frame.filterWord {w : Foot} {d e : Dev} (h : w.Frame d e) (hany : w.any = false) (hw : w.fields.all Fd.missesFilters = true) {off : Nat}
    (hlow : 0x90000 ≤ off) (hhigh : off < 0x98000) (hplace : 0x800 ≤ off % 0x1000) : e.word off = d.word off := by
  refine BitVec.eq_of_getLsbD_eq fun bit _ => h.bits hany off bit fun f hf => ?_
  rintro ⟨⟨i, j, hoff⟩, -⟩
  exact Fd.off_ne_filter (List.all_eq_true.mp hw f hf) hlow hhigh hplace i j hoff

theorem filter_off (c k : Nat) : 0x90000 ≤ F.CN_FLT_ID.off c k ∧ F.CN_FLT_MASK.off c k < 0x98000 ∧ 0x800 ≤ F.CN_FLT_ID.off c k % 0x1000 ∧
    F.CN_FLT_MASK.off c k = F.CN_FLT_ID.off c k + 4 ∧ 0x800 ≤ F.CN_FLT_MASK.off c k % 0x1000 := by
  simp only [Fd.off, F.CN_FLT_ID, F.CN_FLT_MASK]
  omega

theorem Dev.matchFlow_errorCounts (d : Dev) (c k tec rec' : Nat) (f : CanFrame) :
    (d.errorCounts k tec rec').matchFlow c f = d.matchFlow c f := by
  have hk := d.errorCounts_keeps k tec rec'
  generalize d.errorCounts k tec rec' = e at hk
  unfold Dev.matchFlow
  refine congrArg (fun g => (List.range 256).findSome? g) (funext fun j => ?_)
  rw [show e.holderOf 5 (256 * c + j) = d.holderOf 5 (256 * c + j) by rw [Dev.holderOf, Dev.holderOf, hk.parts .sys (by decide)]]
  cases d.holderOf 5 (256 * c + j) with
  | none => rfl
  | some holder =>
    obtain ⟨kind, l⟩ := holder
    dsimp only
    obtain ⟨hlow, hhigh, hplace, hnext, hplace'⟩ := filter_off c j
    have hident : e.word (F.CN_FLT_ID.off c j) = d.word (F.CN_FLT_ID.off c j) :=
      hk.toFrame.filterWord rfl (by decide) hlow (by omega) hplace
    have hmask : e.word (F.CN_FLT_MASK.off c j) = d.word (F.CN_FLT_MASK.off c j) :=
      hk.toFrame.filterWord rfl (by decide) (by omega) hhigh hplace'
    rw [hk.flag F.FL_CFG_enable l (by decide), hk.rd F.FL_CFG_dir l (by decide),
      show e.rd2 F.CN_FLT_ID_format c j = d.rd2 F.CN_FLT_ID_format c j from congrArg (getBits · _ _) hident,
      show e.rd2 F.CN_FLT_MASK_mask c j = d.rd2 F.CN_FLT_MASK_mask c j from congrArg (getBits · _ _) hmask,
      show e.rd2 F.CN_FLT_ID_id c j = d.rd2 F.CN_FLT_ID_id c j from congrArg (getBits · _ _) hident]

theorem Dev.checkFrame_errorCounts (d : Dev) (l k tec rec' format ident : Nat) (raw : List Byte) :
    (d.errorCounts k tec rec').checkFrame l format ident raw = d.checkFrame l format ident raw := by
  have hk := d.errorCounts_keeps k tec rec'
  have hcrypto := (d.errorCounts_reports k tec rec').fenced Kind.crypto 0
  generalize d.errorCounts k tec rec' = e at hk hcrypto
  have hkey : ∀ j, e.keyOf j = d.keyOf j := fun j => by rw [Dev.keyOf, Dev.keyOf, hk.parts .sec (by decide)]
  have hfv : e.fvRx l = d.fvRx l := hk.rd64 F.FL_FV_RX_LO F.FL_FV_RX_HI l (by decide) (by decide)
  have hbytes : e.fvBytes l = d.fvBytes l := by rw [Dev.fvBytes, Dev.fvBytes, hk.rd F.FL_SEC_fv l (by decide)]
  have htag : e.tagBytes l = d.tagBytes l := by rw [Dev.tagBytes, Dev.tagBytes, hk.rd F.FL_SEC_tag l (by decide)]
  have hfull : ∀ n, e.fullFv l n = d.fullFv l n := fun n => by rw [Dev.fullFv, Dev.fullFv, hbytes, hfv]
  have hauth : ∀ key fv data, e.authTag key l ident format fv data = d.authTag key l ident format fv data := fun _ _ _ => by
    rw [Dev.authTag, Dev.authTag, htag]
  simp only [Dev.checkFrame, hkey, hfv, hbytes, htag, hfull, hauth, hcrypto, hk.rd F.FL_CFG_profile l (by decide),
    hk.rd F.FL_SEC_fv_window l (by decide), hk.rd F.FL_SEC_key l (by decide), hk.rd F.FL_CFG_controller l (by decide)]

/-- A check ends with OK, STALE or AUTH. -/
theorem Dev.checkFrame_status (d : Dev) (l format ident : Nat) (raw : List Byte) :
    (d.checkFrame l format ident raw).1 = Code.OK ∨ (d.checkFrame l format ident raw).1 = Code.STALE ∨
      (d.checkFrame l format ident raw).1 = Code.AUTH := by
  unfold Dev.checkFrame
  dsimp only
  repeat' split
  all_goals simp only [true_or, or_true]

/-! ### What a frame leaves of its flow (R333, R336) -/

theorem Dev.flow_setFlow (d : Dev) (l k : Nat) (v : FlT) : (d.setFlow l v).flow k = if k = l then v else d.flow k := Tbl.get_set ..

theorem Dev.flow_congr {d e : Dev} (h : e.cn.flow = d.cn.flow) (l : Nat) : e.flow l = d.flow l := by rw [Dev.flow, Dev.flow, h]

theorem Dev.flow_onCan (d : Dev) (c : Nat) (f : CnT → CnT) (l : Nat) : (d.onCan c f).flow l = d.flow l := rfl

/-- The registers of a flow that has accepted a frame. -/
def Dev.accepted (d : Dev) (l sof fv : Nat) : Dev :=
  let d := d.wr64 F.FL_FV_RX_LO F.FL_FV_RX_HI l fv
  let d := (d.put F.FL_STAT_stale l false).wr64 F.FL_LAST_LO F.FL_LAST_HI l sof
  d.wr F.FL_STAT_frames l (d.rd F.FL_STAT_frames l + 1)

theorem Dev.accepted_keeps (d : Dev) (l sof fv : Nat) :
    Keeps ⟨false, [F.FL_FV_RX_LO, F.FL_FV_RX_HI, F.FL_STAT_stale, F.FL_STAT_frames, F.FL_LAST_LO, F.FL_LAST_HI], []⟩ d (d.accepted l sof fv) := by
  have hfresh := (Dev.wr64_keeps d F.FL_FV_RX_LO F.FL_FV_RX_HI l fv (by decide) (by decide)).within
    (b := ⟨false, [F.FL_FV_RX_LO, F.FL_FV_RX_HI, F.FL_STAT_stale, F.FL_STAT_frames, F.FL_LAST_LO, F.FL_LAST_HI], []⟩) (by decide)
  unfold Dev.accepted
  dsimp only
  generalize d.wr64 F.FL_FV_RX_LO F.FL_FV_RX_HI l fv = e at hfresh ⊢
  have hstale := hfresh.trans ((Dev.put_keeps e F.FL_STAT_stale l false (by decide)).within (by decide))
  generalize e.put F.FL_STAT_stale l false = g at hstale ⊢
  have hlast := hstale.trans ((Dev.wr64_keeps g F.FL_LAST_LO F.FL_LAST_HI l sof (by decide) (by decide)).within (by decide))
  generalize g.wr64 F.FL_LAST_LO F.FL_LAST_HI l sof = k at hlast ⊢
  exact hlast.trans ((Dev.wr_keeps k F.FL_STAT_frames l _ (by decide)).within (by decide))

theorem Dev.accepted_shows (d : Dev) (l sof fv : Nat) : let n := d.accepted l sof fv
    n.rd F.FL_STAT_frames l = (d.rd F.FL_STAT_frames l + 1) % 65536 ∧ n.flag F.FL_STAT_stale l = false ∧
      n.rd64 F.FL_LAST_LO F.FL_LAST_HI l = sof % 2 ^ 64 ∧ n.rd64 F.FL_FV_RX_LO F.FL_FV_RX_HI l = fv % 2 ^ 64 := by
  have hfresh := Dev.wr64_keeps d F.FL_FV_RX_LO F.FL_FV_RX_HI l fv (by decide) (by decide)
  have hfv := Dev.rd64_wr64 d F.FL_FV_RX_LO F.FL_FV_RX_HI l fv ⟨rfl, rfl⟩ ⟨rfl, rfl⟩ (by decide)
  unfold Dev.accepted
  dsimp only
  generalize d.wr64 F.FL_FV_RX_LO F.FL_FV_RX_HI l fv = e at hfresh hfv ⊢
  have hstale := Dev.put_keeps e F.FL_STAT_stale l false (by decide)
  have hclear : (e.put F.FL_STAT_stale l false).flag F.FL_STAT_stale l = false := Dev.flag_put _ F.FL_STAT_stale _ _ (by decide) rfl
  generalize e.put F.FL_STAT_stale l false = g at hstale hclear ⊢
  have hlast := Dev.wr64_keeps g F.FL_LAST_LO F.FL_LAST_HI l sof (by decide) (by decide)
  have hsof := Dev.rd64_wr64 g F.FL_LAST_LO F.FL_LAST_HI l sof ⟨rfl, rfl⟩ ⟨rfl, rfl⟩ (by decide)
  generalize g.wr64 F.FL_LAST_LO F.FL_LAST_HI l sof = k at hlast hsof ⊢
  have hcount := Dev.wr_keeps k F.FL_STAT_frames l (k.rd F.FL_STAT_frames l + 1) (by decide)
  have hframes : k.rd F.FL_STAT_frames l = d.rd F.FL_STAT_frames l :=
    (hlast.rd F.FL_STAT_frames l (by decide)).trans ((hstale.rd F.FL_STAT_frames l (by decide)).trans (hfresh.rd F.FL_STAT_frames l (by decide)))
  refine ⟨?_, (hcount.flag F.FL_STAT_stale l (by decide)).trans ((hlast.flag F.FL_STAT_stale l (by decide)).trans hclear),
    (hcount.rd64 F.FL_LAST_LO F.FL_LAST_HI l (by decide) (by decide)).trans hsof,
    (hcount.rd64 F.FL_FV_RX_LO F.FL_FV_RX_HI l (by decide) (by decide)).trans
      ((hlast.rd64 F.FL_FV_RX_LO F.FL_FV_RX_HI l (by decide) (by decide)).trans
        ((hstale.rd64 F.FL_FV_RX_LO F.FL_FV_RX_HI l (by decide) (by decide)).trans hfv))⟩
  rw [← hframes]
  exact Dev.rd_wr _ F.FL_STAT_frames _ _ (by decide)

/-- The triggers that a frame of flow l answers are seen. -/
def Dev.sawFlow (d : Dev) (c l : Nat) : Dev :=
  d.onCan c fun v => { v with seen := v.seen ++ ((List.range 32).filter fun n => d.rd2 F.CN_TT_TRIG_flow c n == l && !v.seen.contains n) }

/-- The age of a flow counts from now. -/
def Dev.aged (d : Dev) (l : Nat) : Dev := d.setFlow l { d.flow l with ageFrom := d.time }

/-- Age, triggers and last status of a flow that has accepted a frame. -/
def Dev.marked (d : Dev) (c l code : Nat) : Dev := ((d.aged l).sawFlow c l).wr F.FL_STAT_last_status l code

/-- An accepted frame before it is delivered: age, triggers and last status. -/
def Dev.noted (d : Dev) (c l sof fv dest : Nat) (long : Bool) : Dev :=
  (d.accepted l sof fv).marked c l (if dest ≠ 1 ∧ long = true then Code.LENGTH else Code.OK)

/-- A frame goes to its mailbox, to the host, or both (R334, R335). -/
def Dev.delivered (d : Dev) (c l dest : Nat) (long : Bool) (r : RxRec) : Dev :=
  let d := if dest = 1 then d
    else if long then d.reportOpen Kind.flow l Cls.report Code.LENGTH
    else d.mailbox l r
  if dest = 2 then d else d.pushRx c r

/-- The record of an accepted frame (R334). -/
def rxRecord (l sof : Nat) (f : CanFrame) (data : List Byte) : RxRec :=
  { time := sof, flow := l, status := Code.OK, format := formatByte f true, ident := f.ident, length := if f.rtr then f.asked else data.length,
    sdt := f.sdt, vcid := f.vcid, af := f.af, data := data }

theorem Dev.acceptFrame_eq (d : Dev) (c l sof : Nat) (f : CanFrame) (data : List Byte) (fv : Nat) : d.acceptFrame c l sof f data fv =
    (d.noted c l sof fv (d.rd F.FL_CFG_dest l) (Nat.blt 64 data.length)).delivered c l (d.rd F.FL_CFG_dest l) (Nat.blt 64 data.length)
      (rxRecord l sof f data) := rfl

/-- What a noted frame may change. -/
def notedFoot : Foot :=
  ⟨false, [F.FL_FV_RX_LO, F.FL_FV_RX_HI, F.FL_STAT_stale, F.FL_STAT_last_status, F.FL_STAT_frames, F.FL_LAST_LO, F.FL_LAST_HI], [.cn]⟩

theorem Dev.flow_sawFlow (d : Dev) (c l k : Nat) : (d.sawFlow c l).flow k = d.flow k := rfl

theorem Dev.held_sawFlow (d : Dev) (c l : Nat) : ((d.sawFlow c l).can c).held = (d.can c).held := by
  rw [Dev.sawFlow, Dev.can_onCan]

theorem Dev.marked_shows (d : Dev) (c l : Nat) {code : Nat} (hcode : code < 2 ^ 8) :
    Keeps ⟨false, [F.FL_STAT_last_status], [.cn]⟩ d (d.marked c l code) ∧ (d.marked c l code).flow l = { d.flow l with ageFrom := d.time } ∧
      ((d.marked c l code).can c).held = (d.can c).held ∧ (d.marked c l code).rd F.FL_STAT_last_status l = code := by
  have hset : Keeps ⟨false, [], [.cn]⟩ d (d.aged l) := Dev.setFlow_keeps ..
  have hage : (d.aged l).flow l = { d.flow l with ageFrom := d.time } := (Dev.flow_setFlow ..).trans (if_pos rfl)
  have hheld : ((d.aged l).can c).held = (d.can c).held := rfl
  unfold Dev.marked
  generalize d.aged l = e at hset hage hheld ⊢
  have hsaw : Keeps ⟨false, [], [.cn]⟩ e (e.sawFlow c l) := Dev.onCan_keeps ..
  have hflow := (e.flow_sawFlow c l l).trans hage
  have hsee := (e.held_sawFlow c l).trans hheld
  generalize e.sawFlow c l = g at hsaw hflow hsee ⊢
  have hwrite := Dev.wr_keeps g F.FL_STAT_last_status l code (by decide)
  have hcn : (g.wr F.FL_STAT_last_status l code).cn = g.cn := hwrite.parts .cn (by decide)
  exact ⟨(hset.within (by decide)).trans ((hsaw.within (by decide)).trans (hwrite.within (by decide))),
    (Dev.flow_congr (congrArg Cn.flow hcn) l).trans hflow, (congrArg CnT.held (Dev.can_congr (congrArg Cn.ctl hcn) c)).trans hsee,
    Dev.rd_wr_of_lt _ F.FL_STAT_last_status l (by decide) hcode⟩

theorem Dev.noted_shows (d : Dev) (c l sof fv dest : Nat) (long : Bool) : let n := d.noted c l sof fv dest long
    Keeps notedFoot d n ∧ n.rd F.FL_STAT_frames l = (d.rd F.FL_STAT_frames l + 1) % 65536 ∧ n.flag F.FL_STAT_stale l = false ∧
      n.rd64 F.FL_LAST_LO F.FL_LAST_HI l = sof % 2 ^ 64 ∧ n.rd64 F.FL_FV_RX_LO F.FL_FV_RX_HI l = fv % 2 ^ 64 ∧
      n.flow l = { d.flow l with ageFrom := d.time } ∧ (n.can c).held = (d.can c).held ∧
      n.rd F.FL_STAT_last_status l = if dest ≠ 1 ∧ long = true then Code.LENGTH else Code.OK := by
  have hregs := d.accepted_keeps l sof fv
  obtain ⟨hframes, hstale, hlast, hfv⟩ := d.accepted_shows l sof fv
  have hcn : (d.accepted l sof fv).cn = d.cn := hregs.parts .cn (by decide)
  have htime := hregs.time
  have hcode : (if dest ≠ 1 ∧ long = true then Code.LENGTH else Code.OK) < 2 ^ 8 := by split <;> decide
  unfold Dev.noted
  generalize d.accepted l sof fv = e at hregs hframes hstale hlast hfv hcn htime ⊢
  generalize (if dest ≠ 1 ∧ long = true then Code.LENGTH else Code.OK) = code at hcode ⊢
  obtain ⟨hrest, hage, hheld, hstatus⟩ := e.marked_shows c l hcode
  generalize e.marked c l code = n at hrest hage hheld hstatus ⊢
  exact ⟨(hregs.within (by decide)).trans (hrest.within (by decide)), (hrest.rd F.FL_STAT_frames l (by decide)).trans hframes,
    (hrest.flag F.FL_STAT_stale l (by decide)).trans hstale, (hrest.rd64 F.FL_LAST_LO F.FL_LAST_HI l (by decide) (by decide)).trans hlast,
    (hrest.rd64 F.FL_FV_RX_LO F.FL_FV_RX_HI l (by decide) (by decide)).trans hfv, by rw [hage, htime, Dev.flow_congr (congrArg Cn.flow hcn)],
    by rw [hheld, Dev.can_congr (congrArg Cn.ctl hcn)], hstatus⟩

/-! ### Records and mailboxes (R334, R335) -/

/-- The records that a controller holds once one more has been lost. -/
def lostHeld (h : List RxRec) (r : RxRec) : List RxRec :=
  let lost : RxRec := { time := r.time, flow := 0, status := Code.LOST, ident := 1 }
  match h.getLast? with
  | some l => if l.status = Code.LOST then h.dropLast ++ [{ l with ident := l.ident + 1 }] else h ++ [lost]
  | none => h ++ [lost]

theorem Dev.pushRx_eq (d : Dev) (c : Nat) (r : RxRec) : d.pushRx c r =
    if ((d.can c).held.filter fun r => r.status != Code.LOST).length < 64 then d.onCan c fun v => { v with held := (d.can c).held ++ [r] }
    else ((d.onCan c fun v => { v with held := lostHeld (d.can c).held r }).bump F.HI_QP_LOST (d.rd F.CN_CFG_rx_qp c)).put F.HI_QP_FLAGS_lost
      (d.rd F.CN_CFG_rx_qp c) true := rfl

theorem Dev.pushRx_of_room {d : Dev} {c : Nat} {r : RxRec} (h : ((d.can c).held.filter fun r => r.status != Code.LOST).length < 64) :
    ((d.pushRx c r).can c).held = (d.can c).held ++ [r] := by
  rw [d.pushRx_eq, if_pos h]
  exact congrArg CnT.held (Dev.can_onCan ..)

theorem Dev.pushRx_of_full {d : Dev} {c : Nat} {r : RxRec} (h : 64 ≤ ((d.can c).held.filter fun r => r.status != Code.LOST).length) :
    (d.pushRx c r).flag F.HI_QP_FLAGS_lost (d.rd F.CN_CFG_rx_qp c) = true ∧
      (d.pushRx c r).rd F.HI_QP_LOST (d.rd F.CN_CFG_rx_qp c) = min (d.rd F.HI_QP_LOST (d.rd F.CN_CFG_rx_qp c) + 1) (2 ^ F.HI_QP_LOST.width - 1) := by
  rw [d.pushRx_eq, if_neg (by omega)]
  generalize d.rd F.CN_CFG_rx_qp c = q
  have hheld := d.onCan_keeps c fun v => { v with held := lostHeld (d.can c).held r }
  generalize d.onCan c (fun v => { v with held := lostHeld (d.can c).held r }) = e at hheld ⊢
  refine ⟨Dev.flag_put _ F.HI_QP_FLAGS_lost _ _ (by decide) rfl, ?_⟩
  rw [(Dev.put_keeps (e.bump F.HI_QP_LOST q) F.HI_QP_FLAGS_lost q true (by decide)).rd F.HI_QP_LOST q (by decide),
    Dev.rd_bump _ F.HI_QP_LOST q (by decide), hheld.rd F.HI_QP_LOST q (by decide)]

theorem Dev.flow_pushRx (d : Dev) (c l : Nat) (r : RxRec) : (d.pushRx c r).flow l = d.flow l := by
  rw [d.pushRx_eq]
  split <;> rfl

/-- The words of a mailbox after its first (R335). -/
def mailWords (r : RxRec) : List Nat :=
  [r.ident, r.format + 256 * r.data.length, r.time % 2 ^ 32, r.time / 2 ^ 32 % 2 ^ 32, 0] ++
    ((List.range 16).map fun k => bytesNum ((r.data.drop (4 * k)).take 4)) ++ [0, 0]

/-- The stores that write a mailbox, in their order. -/
def mailStores (a mails : Nat) (r : RxRec) : List BankIssue :=
  ((mailWords r).zipIdx 1).map (fun e => { addr := a + 4 * e.2, bytes := 4, data := BitVec.ofNat 32 e.1 }) ++
    [{ addr := a, bytes := 4, data := BitVec.ofNat 32 (mails + 1) }]

theorem Dev.mailbox_shows (d : Dev) (l : Nat) (r : RxRec) : let n := d.mailbox l r
    n.mb.issued = d.mb.issued ++ mailStores (d.rd F.FL_SC_ADDR_addr l) (d.flow l).mails r ∧
      n.flow l = { d.flow l with mails := (d.flow l).mails + 1 } ∧ n.cn.ctl = d.cn.ctl := by
  refine ⟨?_, (Dev.flow_setFlow ..).trans (if_pos rfl), rfl⟩
  have hissue : (d.mailbox l r).mb.issued = d.mb.issued ++
      (((mailWords r).zipIdx 1).map (fun e => (d.rd F.FL_SC_ADDR_addr l + 4 * e.2, BitVec.ofNat 32 e.1)) ++
        [(d.rd F.FL_SC_ADDR_addr l, BitVec.ofNat 32 ((d.flow l).mails + 1))]).map fun e => { addr := e.1, bytes := 4, data := e.2 } := rfl
  rw [hissue, List.map_append, List.map_map]
  rfl

theorem mailWords_length (r : RxRec) : (mailWords r).length = 23 := by
  simp [mailWords]

theorem mailStores_shows (a mails : Nat) (r : RxRec) : let ws := mailStores a mails r
    ws.length = 24 ∧ ws.head? = some { addr := a + 4, bytes := 4, data := BitVec.ofNat 32 r.ident } ∧
      ws.getLast? = some { addr := a, bytes := 4, data := BitVec.ofNat 32 (mails + 1) } ∧ ∀ w ∈ ws, w.bytes = 4 ∧ a ≤ w.addr ∧ w.addr ≤ a + 92 := by
  refine ⟨?_, rfl, List.getLast?_concat .., fun w hw => ?_⟩
  · rw [mailStores, List.length_append, List.length_map, List.length_zipIdx, mailWords_length]
    rfl
  · rcases List.mem_append.mp hw with hw | hw
    · obtain ⟨e, he, rfl⟩ := List.mem_map.mp hw
      obtain ⟨hlow, hhigh, -⟩ := List.mem_zipIdx he
      rw [mailWords_length] at hhigh
      exact ⟨rfl, Nat.le_add_right .., by dsimp only; omega⟩
    · rw [List.mem_singleton.mp hw]
      exact ⟨rfl, le_refl _, by dsimp only; omega⟩

theorem Dev.flow_delivered_age (d : Dev) (c l dest : Nat) (long : Bool) (r : RxRec) :
    ((d.delivered c l dest long r).flow l).ageFrom = (d.flow l).ageFrom := by
  have hreport : (d.reportOpen Kind.flow l Cls.report Code.LENGTH).flow l = d.flow l :=
    Dev.flow_congr (congrArg Cn.flow ((Dev.reportOpen_keeps ..).parts .cn (by decide))) l
  obtain ⟨-, hmail, -⟩ := d.mailbox_shows l r
  have hfirst : ((if dest = 1 then d else if long then d.reportOpen Kind.flow l Cls.report Code.LENGTH else d.mailbox l r).flow l).ageFrom =
      (d.flow l).ageFrom := by
    split
    · rfl
    · split
      · rw [hreport]
      · rw [hmail]
  unfold Dev.delivered
  dsimp only
  split
  · exact hfirst
  · rw [Dev.flow_pushRx]
    exact hfirst

/-- What a delivery may change. -/
def deliverFoot : Foot := ⟨false, [F.HI_QP_FLAGS_lost, F.HI_QP_LOST, F.FLT_STAT_lost, F.FLT_LOST], [.mb, .cn, .flt]⟩

theorem Dev.delivered_keeps (d : Dev) (c l dest : Nat) (long : Bool) (r : RxRec) : Keeps deliverFoot d (d.delivered c l dest long r) := by
  have hfirst : Keeps deliverFoot d (if dest = 1 then d else if long then d.reportOpen Kind.flow l Cls.report Code.LENGTH else d.mailbox l r) :=
    Keeps.ite (fun _ => Keeps.refl _ _) fun _ => Keeps.ite (fun _ => (Dev.reportOpen_keeps ..).within (by decide)) fun _ =>
      (Dev.mailbox_keeps ..).within (by decide)
  unfold Dev.delivered
  dsimp only
  exact Keeps.ite (fun _ => hfirst) fun _ => hfirst.trans ((Dev.pushRx_keeps ..).within (by decide))

theorem Dev.delivered_host (d : Dev) (c l : Nat) (long : Bool) (r : RxRec) : d.delivered c l 1 long r = d.pushRx c r := rfl

theorem Dev.delivered_long (d : Dev) (c l : Nat) (r : RxRec) :
    d.delivered c l 2 true r = d.reportOpen Kind.flow l Cls.report Code.LENGTH := rfl

theorem Dev.delivered_mail (d : Dev) (c l : Nat) (r : RxRec) : d.delivered c l 2 false r = d.mailbox l r := rfl

/-! ### A frame that fails its check (R339) -/

/-- The registers of a flow one of whose frames has failed its check. -/
def Dev.failMarked (d : Dev) (l st : Nat) : Dev :=
  let d := d.wr F.FL_STAT_last_status l st
  if st = Code.STALE then (d.put F.FL_STAT_replay l true).bump F.FL_CNT_replay l else (d.put F.FL_STAT_auth l true).bump F.FL_CNT_auth l

/-- The record of a frame that failed its check (R334). -/
def failRecord (l sof st : Nat) (f : CanFrame) : RxRec :=
  { time := sof, flow := l, status := st, format := formatByte f true, ident := f.ident, sdt := f.sdt, vcid := f.vcid, af := f.af }

theorem Dev.failFrame_eq (d : Dev) (c l sof st : Nat) (f : CanFrame) : d.failFrame c l sof st f =
    if ((d.failMarked l st).reportOpen Kind.flow l Cls.report st).rd F.FL_CFG_dest l = 2 then
      (d.failMarked l st).reportOpen Kind.flow l Cls.report st
    else ((d.failMarked l st).reportOpen Kind.flow l Cls.report st).pushRx c (failRecord l sof st f) := rfl

/-- One more failure of a kind is flagged and counted. -/
theorem Dev.putBump_shows (d : Dev) {flag count : Fd} (l : Nat) (hflag : flag.lo + flag.width ≤ 32) (hwidth : flag.width = 1)
    (hcount : count.lo + count.width ≤ 32) (hapart : flag.apart count = true) (hapart' : count.apart flag = true) :
    ((d.put flag l true).bump count l).flag flag l = true ∧
      ((d.put flag l true).bump count l).rd count l = min (d.rd count l + 1) (2 ^ count.width - 1) := by
  refine ⟨?_, ?_⟩
  · rw [Dev.flag, Dev.bump, Dev.rd_wr_apart _ flag count l l _ hcount hapart]
    exact Dev.flag_put d flag l true hflag hwidth
  · rw [Dev.rd_bump _ count l hcount, Dev.put, Dev.rd_wr_apart _ count flag l l _ hflag hapart']

theorem Dev.failMarked_shows (d : Dev) (l : Nat) {st : Nat} (hst : st < 2 ^ 8) : let n := d.failMarked l st
    Keeps ⟨false, [F.FL_STAT_last_status, F.FL_STAT_replay, F.FL_CNT_replay, F.FL_STAT_auth, F.FL_CNT_auth], []⟩ d n ∧
      n.rd F.FL_STAT_last_status l = st ∧
      (st = Code.STALE → n.flag F.FL_STAT_replay l = true ∧ n.rd F.FL_CNT_replay l = min (d.rd F.FL_CNT_replay l + 1) 65535) ∧
      (st = Code.AUTH → n.flag F.FL_STAT_auth l = true ∧ n.rd F.FL_CNT_auth l = min (d.rd F.FL_CNT_auth l + 1) 65535) := by
  have hwrite := Dev.wr_keeps d F.FL_STAT_last_status l st (by decide)
  have hshown : (d.wr F.FL_STAT_last_status l st).rd F.FL_STAT_last_status l = st := Dev.rd_wr_of_lt _ F.FL_STAT_last_status l (by decide) hst
  unfold Dev.failMarked
  dsimp only
  generalize d.wr F.FL_STAT_last_status l st = e at hwrite hshown ⊢
  split
  · next hstale =>
    have hflag := (Dev.put_keeps e F.FL_STAT_replay l true (by decide)).within (b := ⟨false, [F.FL_STAT_replay, F.FL_CNT_replay], []⟩) (by decide)
    have hmarked := hflag.trans ((Dev.bump_keeps _ F.FL_CNT_replay l (by decide)).within (by decide))
    obtain ⟨hset, hcount⟩ := e.putBump_shows (flag := F.FL_STAT_replay) (count := F.FL_CNT_replay) l (by decide) rfl (by decide) (by decide) (by decide)
    rw [hwrite.rd F.FL_CNT_replay l (by decide)] at hcount
    exact ⟨(hwrite.within (by decide)).trans (hmarked.within (by decide)), (hmarked.rd F.FL_STAT_last_status l (by decide)).trans hshown,
      fun _ => ⟨hset, hcount⟩, fun h => absurd (hstale.symm.trans h) (by decide)⟩
  · next hnot =>
    have hflag := (Dev.put_keeps e F.FL_STAT_auth l true (by decide)).within (b := ⟨false, [F.FL_STAT_auth, F.FL_CNT_auth], []⟩) (by decide)
    have hmarked := hflag.trans ((Dev.bump_keeps _ F.FL_CNT_auth l (by decide)).within (by decide))
    obtain ⟨hset, hcount⟩ := e.putBump_shows (flag := F.FL_STAT_auth) (count := F.FL_CNT_auth) l (by decide) rfl (by decide) (by decide) (by decide)
    rw [hwrite.rd F.FL_CNT_auth l (by decide)] at hcount
    exact ⟨(hwrite.within (by decide)).trans (hmarked.within (by decide)), (hmarked.rd F.FL_STAT_last_status l (by decide)).trans hshown,
      fun h => absurd h hnot, fun _ => ⟨hset, hcount⟩⟩

theorem Dev.failFrame_shows (d : Dev) (c l sof : Nat) {st : Nat} (f : CanFrame) (hst : st < 2 ^ 8) : let n := d.failFrame c l sof st f
    n.rd F.FL_STAT_last_status l = st ∧ n.rd F.FL_STAT_frames l = d.rd F.FL_STAT_frames l ∧
      n.rd64 F.FL_FV_RX_LO F.FL_FV_RX_HI l = d.rd64 F.FL_FV_RX_LO F.FL_FV_RX_HI l ∧
      (st = Code.STALE → n.flag F.FL_STAT_replay l = true ∧ n.rd F.FL_CNT_replay l = min (d.rd F.FL_CNT_replay l + 1) 65535) ∧
      (st = Code.AUTH → n.flag F.FL_STAT_auth l = true ∧ n.rd F.FL_CNT_auth l = min (d.rd F.FL_CNT_auth l + 1) 65535) := by
  obtain ⟨hmarked, hstatus, hstale, hauth⟩ := d.failMarked_shows l hst
  rw [d.failFrame_eq]
  generalize d.failMarked l st = e at hmarked hstatus hstale hauth ⊢
  have hreport := (e.reportOpen_keeps Kind.flow l Cls.report st).within (b := deliverFoot) (by decide)
  generalize e.reportOpen Kind.flow l Cls.report st = g at hreport ⊢
  have hrest : Keeps deliverFoot e (if g.rd F.FL_CFG_dest l = 2 then g else g.pushRx c (failRecord l sof st f)) :=
    Keeps.ite (fun _ => hreport) fun _ => hreport.trans ((Dev.pushRx_keeps ..).within (by decide))
  generalize (if g.rd F.FL_CFG_dest l = 2 then g else g.pushRx c (failRecord l sof st f)) = n at hrest ⊢
  refine ⟨(hrest.rd F.FL_STAT_last_status l (by decide)).trans hstatus,
    (hrest.rd F.FL_STAT_frames l (by decide)).trans (hmarked.rd F.FL_STAT_frames l (by decide)),
    (hrest.rd64 F.FL_FV_RX_LO F.FL_FV_RX_HI l (by decide) (by decide)).trans (hmarked.rd64 F.FL_FV_RX_LO F.FL_FV_RX_HI l (by decide) (by decide)),
    fun h => ?_, fun h => ?_⟩
  · rw [hrest.flag F.FL_STAT_replay l (by decide), hrest.rd F.FL_CNT_replay l (by decide)]
    exact hstale h
  · rw [hrest.flag F.FL_STAT_auth l (by decide), hrest.rd F.FL_CNT_auth l (by decide)]
    exact hauth h

/-! ### FRAME_RECEIVE and RECEIVE_ERROR on a device -/

/-- REC after a frame that was received without error (R327). -/
def recAfter (rec' : Nat) : Nat := if 127 < rec' then 119 else rec' - 1

/-- A frame of the bus is taken by the flow that it matches (R333). -/
def Dev.takeFrame (d : Dev) (c : Nat) (f : CanFrame) (sof : Nat) : Dev :=
  match d.matchFlow c f with
  | none => d.bump F.CN_CNT_unmatched c
  | some l =>
    if d.fenced Kind.flow l then d
    else if (d.checkFrame l (formatByte f false) f.ident f.data).1 = Code.OK then
      d.acceptFrame c l sof f (d.checkFrame l (formatByte f false) f.ident f.data).2.1 (d.checkFrame l (formatByte f false) f.ident f.data).2.2
    else d.failFrame c l sof (d.checkFrame l (formatByte f false) f.ident f.data).1 f

/-- A frame received without error has moved the counters. -/
def Dev.counted (d : Dev) (c : Nat) : Dev := d.errorCounts c (d.rd F.CN_STAT_tec c) (recAfter (d.rd F.CN_STAT_rec c))

/-- What FRAME_RECEIVE does. -/
def Dev.receiveStep (d : Dev) (c : Nat) (f : CanFrame) (sof : Nat) : Dev :=
  if d.onBus c = false then d
  else if d.protoTakes c f = false then
    if d.flag F.CN_CFG_pex c then d.reintegrate c
    else d.errorCounts c (d.rd F.CN_STAT_tec c) (d.rd F.CN_STAT_rec c + 1)
  else
    (match f.ref with
    | some m =>
      if (d.counted c).flag F.CN_CFG_tt_en c = true ∧ f.format = 1 ∧ f.ident / 8 = (d.counted c).rd F.CN_TT_CFG_ref_hi c then
        (d.counted c).reference c sof (f.ident % 8) m
      else d.counted c
    | none => d.counted c).takeFrame c f sof

theorem execFrameReceive_eq (t : Nat) (c : Fin 8) (f : CanFrame) (sof : Nat) (s : State) :
    execFrameReceive t c f sof s = effect t s fun d => d.receiveStep c f sof := rfl

theorem Dev.receiveStep_of_plain {d : Dev} {c : Nat} {f : CanFrame} (hbus : d.onBus c = true) (hproto : d.protoTakes c f = true)
    (href : f.ref = none) (sof : Nat) : d.receiveStep c f sof = (d.counted c).takeFrame c f sof := by
  unfold Dev.receiveStep
  rw [if_neg (by rw [hbus]; decide), if_neg (by rw [hproto]; decide), href]

theorem Dev.receiveStep_of_exception {d : Dev} {c : Nat} {f : CanFrame} (hbus : d.onBus c = true) (hproto : d.protoTakes c f = false)
    (hpex : d.flag F.CN_CFG_pex c = true) (sof : Nat) : d.receiveStep c f sof = d.reintegrate c := by
  unfold Dev.receiveStep
  rw [if_neg (by rw [hbus]; decide), if_pos hproto, if_pos hpex]

/-! ### The counters and the flow after a frame -/

theorem Dev.counted_rec (d : Dev) (c : Nat) : (d.counted c).rd F.CN_STAT_rec c = recAfter (d.rd F.CN_STAT_rec c) := by
  have hlt : d.rd F.CN_STAT_rec c < 256 := getBits_lt ..
  refine (d.errorCounts_rec ..).trans (min_eq_left ?_)
  unfold recAfter
  split <;> omega

theorem Dev.takeFrame_of_unmatched {d : Dev} {c : Nat} {f : CanFrame} (h : d.matchFlow c f = none) (sof : Nat) :
    d.takeFrame c f sof = d.bump F.CN_CNT_unmatched c := by
  unfold Dev.takeFrame
  rw [h]

theorem Dev.takeFrame_of_fenced {d : Dev} {c l : Nat} {f : CanFrame} (h : d.matchFlow c f = some l) (hfenced : d.fenced Kind.flow l = true) (sof : Nat) :
    d.takeFrame c f sof = d := by
  unfold Dev.takeFrame
  rw [h]
  exact if_pos hfenced

theorem Dev.takeFrame_of_good {d : Dev} {c l : Nat} {f : CanFrame} {data : List Byte} {fv : Nat} (h : d.matchFlow c f = some l)
    (hfree : d.fenced Kind.flow l = false) (hcheck : d.checkFrame l (formatByte f false) f.ident f.data = (Code.OK, data, fv)) (sof : Nat) :
    d.takeFrame c f sof = d.acceptFrame c l sof f data fv := by
  unfold Dev.takeFrame
  rw [h]
  dsimp only
  rw [if_neg (by rw [hfree]; decide), hcheck]
  exact if_pos rfl

theorem Dev.takeFrame_of_bad {d : Dev} {c l st : Nat} {f : CanFrame} {data : List Byte} {fv : Nat} (h : d.matchFlow c f = some l)
    (hfree : d.fenced Kind.flow l = false) (hcheck : d.checkFrame l (formatByte f false) f.ident f.data = (st, data, fv)) (hst : st ≠ Code.OK)
    (sof : Nat) : d.takeFrame c f sof = d.failFrame c l sof st f := by
  unfold Dev.takeFrame
  rw [h]
  dsimp only
  rw [if_neg (by rw [hfree]; decide), hcheck]
  exact if_neg hst

/-- What an accepted frame shows of its flow. -/
theorem Dev.acceptFrame_shows (d : Dev) (c l sof : Nat) (f : CanFrame) (data : List Byte) (fv : Nat) : let n := d.acceptFrame c l sof f data fv
    n.rd F.CN_STAT_rec c = d.rd F.CN_STAT_rec c ∧ n.rd F.FL_STAT_frames l = (d.rd F.FL_STAT_frames l + 1) % 65536 ∧
      n.flag F.FL_STAT_stale l = false ∧ n.rd64 F.FL_LAST_LO F.FL_LAST_HI l = sof % 2 ^ 64 ∧
      n.rd64 F.FL_FV_RX_LO F.FL_FV_RX_HI l = fv % 2 ^ 64 ∧ (n.flow l).ageFrom = d.time := by
  obtain ⟨hnoted, hframes, hstale, hlast, hfv, hflow, -, -⟩ :=
    d.noted_shows c l sof fv (d.rd F.FL_CFG_dest l) (Nat.blt 64 data.length)
  rw [d.acceptFrame_eq]
  generalize d.rd F.FL_CFG_dest l = dest at *
  generalize d.noted c l sof fv dest (Nat.blt 64 data.length) = e at hnoted hframes hstale hlast hfv hflow ⊢
  have hage := e.flow_delivered_age c l dest (Nat.blt 64 data.length) (rxRecord l sof f data)
  have hk := e.delivered_keeps c l dest (Nat.blt 64 data.length) (rxRecord l sof f data)
  generalize e.delivered c l dest (Nat.blt 64 data.length) (rxRecord l sof f data) = n at hage hk ⊢
  exact ⟨(hk.rd F.CN_STAT_rec c (by decide)).trans (hnoted.rd F.CN_STAT_rec c (by decide)), (hk.rd F.FL_STAT_frames l (by decide)).trans hframes,
    (hk.flag F.FL_STAT_stale l (by decide)).trans hstale, (hk.rd64 F.FL_LAST_LO F.FL_LAST_HI l (by decide) (by decide)).trans hlast,
    (hk.rd64 F.FL_FV_RX_LO F.FL_FV_RX_HI l (by decide) (by decide)).trans hfv, by rw [hage, hflow]⟩

/-- An accepted frame for the host alone is held, or counted as lost. -/
theorem Dev.acceptFrame_host {d : Dev} {c l : Nat} (hdest : d.rd F.FL_CFG_dest l = 1) (sof : Nat) (f : CanFrame) (data : List Byte) (fv : Nat) :
    let n := d.acceptFrame c l sof f data fv; let h := (d.can c).held; let qp := d.rd F.CN_CFG_rx_qp c
    ((h.filter fun r => r.status != Code.LOST).length < 64 → (n.can c).held = h ++ [rxRecord l sof f data]) ∧
      (64 ≤ (h.filter fun r => r.status != Code.LOST).length → n.flag F.HI_QP_FLAGS_lost qp = true ∧
        n.rd F.HI_QP_LOST qp = min (d.rd F.HI_QP_LOST qp + 1) (2 ^ F.HI_QP_LOST.width - 1)) := by
  obtain ⟨hnoted, -, -, -, -, -, hheld, -⟩ := d.noted_shows c l sof fv 1 (Nat.blt 64 data.length)
  rw [d.acceptFrame_eq, hdest]
  generalize d.noted c l sof fv 1 (Nat.blt 64 data.length) = e at hnoted hheld ⊢
  rw [e.delivered_host]
  dsimp only
  rw [← hheld, ← hnoted.rd F.CN_CFG_rx_qp c (by decide), ← hnoted.rd F.HI_QP_LOST _ (by decide)]
  exact ⟨Dev.pushRx_of_room, Dev.pushRx_of_full⟩

/-- A frame too long for its mailbox is not stored (R335). -/
theorem Dev.acceptFrame_long {d : Dev} {c l : Nat} {data : List Byte} (hdest : d.rd F.FL_CFG_dest l = 2) (hlong : 64 < data.length)
    (sof : Nat) (f : CanFrame) (fv : Nat) : let n := d.acceptFrame c l sof f data fv
    n.rd F.FL_STAT_last_status l = Code.LENGTH ∧ n.mb = d.mb ∧ (n.flow l).mails = (d.flow l).mails := by
  have hblt : Nat.blt 64 data.length = true := by rw [Nat.blt_eq]; exact hlong
  obtain ⟨hnoted, -, -, -, -, hflow, -, hstatus⟩ := d.noted_shows c l sof fv 2 true
  rw [if_pos ⟨by decide, rfl⟩] at hstatus
  rw [d.acceptFrame_eq, hdest, hblt]
  generalize d.noted c l sof fv 2 true = e at hnoted hflow hstatus ⊢
  rw [e.delivered_long]
  have hreport := e.reportOpen_keeps Kind.flow l Cls.report Code.LENGTH
  refine ⟨(hreport.rd F.FL_STAT_last_status l (by decide)).trans hstatus, (hreport.parts .mb (by decide)).trans (hnoted.parts .mb (by decide)), ?_⟩
  rw [Dev.flow_congr (congrArg Cn.flow (hreport.parts .cn (by decide))), hflow]

/-- A frame for its mailbox is stored there by its words. -/
theorem Dev.acceptFrame_mail {d : Dev} {c l : Nat} {data : List Byte} (hdest : d.rd F.FL_CFG_dest l = 2) (hshort : data.length ≤ 64)
    (sof : Nat) (f : CanFrame) (fv : Nat) : let n := d.acceptFrame c l sof f data fv
    (n.can c).held = (d.can c).held ∧ (n.flow l).mails = (d.flow l).mails + 1 ∧
      n.mb.issued = d.mb.issued ++ mailStores (d.rd F.FL_SC_ADDR_addr l) (d.flow l).mails (rxRecord l sof f data) := by
  have hblt : Nat.blt 64 data.length = false := by rw [Bool.eq_false_iff, ne_eq, Nat.blt_eq]; omega
  obtain ⟨hnoted, -, -, -, -, hflow, hheld, -⟩ := d.noted_shows c l sof fv 2 false
  rw [d.acceptFrame_eq, hdest, hblt]
  generalize d.noted c l sof fv 2 false = e at hnoted hflow hheld ⊢
  rw [e.delivered_mail]
  obtain ⟨hissued, hmails, hctl⟩ := e.mailbox_shows l (rxRecord l sof f data)
  refine ⟨(congrArg CnT.held (Dev.can_congr hctl c)).trans hheld, by rw [hmails, hflow], ?_⟩
  have hmb : e.mb = d.mb := hnoted.parts .mb (by decide)
  rw [hissued, hnoted.rd F.FL_SC_ADDR_addr l (by decide), hflow, hmb]

/-! ### A receive buffer -/

/-- A command whose effect on the device of now is known. -/
theorem Does.of_step {s : State} {c : Instr} {t : Nat} {f : Dev → Dev} {P : Dev → Prop} {d n : Dev} (hc : exec c s = effect t s f)
    (hd : s.now t = d) (hn : f d = n) (hP : P n) : Does s c P := Does.of_effect_eq hc (hd ▸ hn) hP

section
variable {d : Dev} {q i op : Nat} {x : Descr}

theorem Dev.underWay_of_received (h : d.standing q i .received x) : d.underWay q i := by
  obtain ⟨it, hitem, -, hphase, -, hring⟩ := h
  exact ⟨it, hitem, by rw [Item.hasEnded, hphase], hring⟩

theorem Dev.startItem_of_refused {ph : Phase} {f : Dev → Descr → Dev} (h : d.standing q i ph x) (hop : x.opcode = op) {e : Nat}
    (hw : d.windowCheck x = some e) : d.startItem q i op ph f = d.finish q i e := by
  obtain ⟨it, hitem, hdesc, hphase, hturn, -⟩ := h
  unfold Dev.startItem
  rw [hitem]
  dsimp only
  rw [hdesc]
  dsimp only
  rw [if_pos ⟨hphase, hop, hturn⟩, hw]

theorem Dev.started_shows {ph : Phase} (h : d.standing q i ph x) :
    ∃ g, ((d.started q i).qp q).item i = some g ∧ g.phase = .started ∧ g.desc = some x := by
  obtain ⟨it, hitem, hdesc, -⟩ := h
  refine ⟨{ it with phase := .started }, ?_, rfl, hdesc⟩
  rw [Dev.started, Dev.qp_congr (Dev.hi_showQp ..)]
  exact Dev.item_onItem hitem rfl

end

end Sys2Proof.Machine
end

section
namespace Sys2Proof.Machine

/-- Settles O37: a received frame goes to its flow, its record or its mailbox, or is counted with the reason. -/
theorem canReceives : Obligations.CanReceives := by
  unfold Obligations.CanReceives
  intro s t c q i x f sof l d count r2
  have hnow : s.now t = d := rfl
  clear_value d
  refine ⟨?buffer, ?receives, ?exception, ?stale, ?errors⟩
  case buffer =>
    intro hstand hop
    refine ⟨fun hnone => ?_, fun e hrefused => ?_⟩
    · refine Does.of_step (show exec _ s = execCanRxbuf t q i s from rfl)
        hnow (Dev.startItem_of_standing hstand hop hnone) ?_
      exact Dev.started_shows hstand
    · exact Does.of_step (show exec _ s = execCanRxbuf t q i s from rfl)
        hnow (Dev.startItem_of_refused hstand hop hrefused) (Dev.finish_ends (Dev.underWay_of_received hstand) ..)
  case receives =>
    intro hbus hproto href
    have hdo : ∀ {P : Dev → Prop} {n : Dev}, (d.counted c).takeFrame c f sof = n → P n → Does s (.frameReceive t c f sof) P := fun hn hP =>
      Does.of_step ((show exec _ s = execFrameReceive t c f sof s from rfl).trans (execFrameReceive_eq ..))
        hnow ((Dev.receiveStep_of_plain hbus hproto href sof).trans hn) hP
    have hmatch : (d.counted c).matchFlow c f = d.matchFlow c f := Dev.matchFlow_errorCounts ..
    have hcheck : ∀ k, (d.counted c).checkFrame k (formatByte f false) f.ident f.data = d.checkFrame k (formatByte f false) f.ident f.data :=
      fun k => Dev.checkFrame_errorCounts ..
    have hfence : ∀ k, (d.counted c).fenced Kind.flow k = d.fenced Kind.flow k := (d.errorCounts_reports ..).fenced Kind.flow
    have hrec := d.counted_rec c
    have hk := d.errorCounts_keeps c (d.rd F.CN_STAT_tec c) (recAfter (d.rd F.CN_STAT_rec c))
    obtain ⟨hflows, -, hframes⟩ := d.errorCounts_framesOnly c (d.rd F.CN_STAT_tec c) (recAfter (d.rd F.CN_STAT_rec c))
    change Keeps _ d (d.counted c) at hk
    change (d.counted c).cn.flow = _ at hflows
    have hheld : ((d.counted c).can c).held = (d.can c).held := by
      obtain ⟨_, _, hcan⟩ := hframes c
      exact (congrArg CnT.held hcan :)
    have hflow := Dev.flow_congr hflows l
    generalize d.counted c = e at hdo hmatch hcheck hfence hrec hk hheld hflow
    refine ⟨fun hnone => ?_, fun hsome hfenced => ?_, fun st data fv hsome hfree hchecked => ⟨fun hok => ?_, fun hbad => ?_⟩⟩
    · refine hdo (Dev.takeFrame_of_unmatched (hmatch.trans hnone) sof)
        ⟨((Dev.bump_keeps e F.CN_CNT_unmatched c (by decide)).rd F.CN_STAT_rec c (by decide)).trans hrec, ?_⟩
      rw [Dev.rd_bump _ F.CN_CNT_unmatched c (by decide), hk.rd F.CN_CNT_unmatched c (by decide)]
      rfl
    · exact hdo (Dev.takeFrame_of_fenced (hmatch.trans hsome) ((hfence l).trans hfenced) sof) ⟨hrec, hk.rd F.FL_STAT_frames l (by decide)⟩
    · subst hok
      have htake := Dev.takeFrame_of_good (hmatch.trans hsome) ((hfence l).trans hfree) ((hcheck l).trans hchecked) sof
      obtain ⟨hcount, hframes, hstale, hlast, hfv, hage⟩ := e.acceptFrame_shows c l sof f data fv
      have hdest := hk.rd F.FL_CFG_dest l (by decide)
      refine hdo htake ⟨hcount.trans hrec, hframes.trans (by rw [hk.rd F.FL_STAT_frames l (by decide)]), hstale, hlast, hfv, hage.trans hk.time,
        fun hhost => ?_, fun hmail hlong => ?_, fun a ha hmail hshort => ?_⟩
      · obtain ⟨hroom, hfull⟩ := Dev.acceptFrame_host (hdest.trans hhost) sof f data fv (c := c)
        rw [hheld] at hroom hfull
        rw [hk.rd F.CN_CFG_rx_qp c (by decide), hk.rd F.HI_QP_LOST _ (by decide)] at hfull
        exact ⟨fun h => ⟨_, hroom h, rfl, rfl, rfl, rfl, rfl⟩, hfull⟩
      · obtain ⟨hstatus, hmb, hmails⟩ := Dev.acceptFrame_long (hdest.trans hmail) hlong sof f fv (c := c)
        exact ⟨hstatus, hmb.trans (hk.parts .mb (by decide)), hmails.trans (congrArg FlT.mails hflow)⟩
      · obtain ⟨hkept, hmails, hissued⟩ := Dev.acceptFrame_mail (hdest.trans hmail) hshort sof f fv (c := c)
        have hmb : e.mb = d.mb := hk.parts .mb (by decide)
        rw [hk.rd F.FL_SC_ADDR_addr l (by decide), ← ha, hflow, hmb] at hissued
        exact ⟨hkept.trans hheld, hmails.trans (by rw [hflow]), _, hissued, mailStores_shows ..⟩
    · have hst : st < 2 ^ 8 := by
        have hstatus := d.checkFrame_status l (formatByte f false) f.ident f.data
        rw [hchecked] at hstatus
        rcases hstatus with h | h | h <;> rw [show st = _ from h] <;> decide
      obtain ⟨hstatus, hframes, hfv, hstale, hauth⟩ := e.failFrame_shows c l sof f hst
      rw [hk.rd F.FL_CNT_replay l (by decide)] at hstale
      rw [hk.rd F.FL_CNT_auth l (by decide)] at hauth
      exact hdo (Dev.takeFrame_of_bad (hmatch.trans hsome) ((hfence l).trans hfree) ((hcheck l).trans hchecked) hbad sof)
        ⟨hstatus, hframes.trans (hk.rd F.FL_STAT_frames l (by decide)),
          hfv.trans (hk.rd64 F.FL_FV_RX_LO F.FL_FV_RX_HI l (by decide) (by decide)), hstale, hauth⟩
  case exception =>
    intro hbus hproto hpex
    exact Does.of_step ((show exec _ s = execFrameReceive t c f sof s from rfl).trans (execFrameReceive_eq ..))
      hnow (Dev.receiveStep_of_exception hbus hproto hpex sof) (Dev.reintegrate_idle d c).2
  case stale =>
    intro k henable hdir hage henabled hstale hfree hpassed
    refine Does.of_step (show exec _ s = execFlowStale t k s from rfl)
      hnow (if_pos ⟨henable, hdir, hage, henabled, hstale, hfree, hpassed⟩) ?_
    exact ((Dev.reportOpen_keeps ..).flag F.FL_STAT_stale k (by decide)).trans (Dev.flag_put d F.FL_STAT_stale _ _ (by decide) rfl)
  case errors =>
    intro e hbus htec next
    have hon : ¬ d.onBus c = false := by rw [hbus]; decide
    refine ⟨fun hsignalled => ?_, fun hxl hes => ?_⟩
    · have hsilent : ¬ d.xlSilent c (e == .xl) = true := by
        rw [Dev.xlSilent]
        rcases hsignalled with h | h
        · rw [beq_eq_false_iff_ne.mpr h]
          exact Bool.false_ne_true
        · rw [h, Bool.not_true, Bool.and_false]
          exact Bool.false_ne_true
      obtain ⟨hstate, hcount, hrec⟩ := d.errorCounts_shows c next htec
      exact Does.of_step (show exec _ s = execReceiveError t c e s from rfl)
        hnow ((if_neg hon).trans (if_neg hsilent)) ⟨hrec, hcount, hstate⟩
    · have hsilent : d.xlSilent c (e == .xl) = true := by rw [hxl, Dev.xlSilent, hes]; rfl
      have hk := d.reintegrate_keeps c
      exact Does.of_step (show exec _ s = execReceiveError t c e s from rfl)
        hnow ((if_neg hon).trans (if_pos hsilent))
        ⟨hk.rd F.CN_STAT_rec c (by decide), hk.rd F.CN_STAT_tec c (by decide), (Dev.reintegrate_idle d c).2⟩

end Sys2Proof.Machine
end

section
/-! EVENT records of the fault ledger (R379); obligation O43. -/

namespace Sys2Proof.Machine

/-- An event is sent to QP1 whatever its registers hold (R379). -/
theorem Dev.sendEvent_tells_qp1 (d : Dev) (bit : Nat) (body : List Word) : ∃ r, (1, r) ∈ (d.sendEvent bit body).hi.records := by
  have hone : 1 ∈ queuePairs.filter fun q => q == 1 || d.qpKind q == 5 && bitOf (d.rd F.HI_QP_EVMASK_mask q) bit :=
    List.mem_filter.mpr ⟨by decide, by rw [beq_self_eq_true, Bool.true_or]⟩
  exact Dev.each_reaches (P := fun n => ∃ r, (1, r) ∈ n.hi.records) (f := fun e q => e.sendRecord q { stamp := e.time, type := 3, body := body }) hone
    (fun e => ⟨_, List.mem_append_right _ (List.mem_singleton.mpr rfl)⟩) (fun e q _ ⟨r, hr⟩ => ⟨r, List.mem_append_left _ hr⟩) d

/-- An open entry of two reports. -/
def openEntry : Entry := { rep := { kind := 0, index := 0, cls := Cls.report, code := 0, detail := 0, time := 0 }, first := 0, count := 2, number := 0 }

/-- A device one second old with an open entry in slot 0, and with QP1 of no kind. -/
def State.untoldQp1 : State :=
  { State.reset with toDev := { (State.reset.toDev.setSlot 0 (some openEntry)).wr F.HI_QP_CFG_kind 1 0 with time := 800000000 } }

theorem untoldQp1_slot : (State.untoldQp1.now 0).slot 0 = some openEntry := by decide

theorem untoldQp1_kind : (State.untoldQp1.now 0).qpKind 1 = 0 := by
  have hkind : State.untoldQp1.toDev.qpKind 1 = 0 := Dev.rd_wr (State.reset.toDev.setSlot 0 (some openEntry)) F.HI_QP_CFG_kind 1 0 (by decide)
  exact (Dev.rd2_arrive ..).trans hkind

theorem untoldQp1_passed (d : Dev) : openEntry.rep.time + 800000 * d.rd F.FLT_CFG_window 0 < 800000000 := by
  have hwindow : d.rd F.FLT_CFG_window 0 < 256 := getBits_lt ..
  have hstart : openEntry.rep.time = 0 := rfl
  omega

theorem untoldQp1_time : (State.untoldQp1.now 0).time = 800000000 := by decide

/-- The window of an open entry of several reports passes: QP1 hears of it. -/
theorem entryClose_tells_qp1 {s : State} {t : Nat} {k : Fin 1024} {e : Entry} (hslot : (s.now t).slot k = some e) (hopen : e.isOpen = true)
    (hpassed : e.rep.time + (s.now t).coalesceWindow < (s.now t).time) (hcount : 1 < e.count) {P : Dev → Prop} (hP : Does s (.entryClose t k) P) :
    ∃ n, P n ∧ ∃ r, (1, r) ∈ n.hi.records := by
  obtain ⟨n, hn, hp⟩ := hP
  have hstep : exec (.entryClose t k) s =
      .next { s with toDev := ((s.now t).setSlot k (some { e with isOpen := false })).eventOf e } := by
    refine (show exec (.entryClose t k) s = execEntryClose t k s from rfl).trans ?_
    unfold execEntryClose effect
    change Host.Outcome.next { s with toDev := match (s.now t).slot k with
      | none => s.now t
      | some e =>
        if e.isOpen ∧ e.rep.time + (s.now t).coalesceWindow < (s.now t).time then
          if 1 < e.count then ((s.now t).setSlot k (some { e with isOpen := false })).eventOf e
          else (s.now t).setSlot k (some { e with isOpen := false })
        else s.now t } = _
    rw [hslot]
    dsimp only
    rw [if_pos ⟨hopen, hpassed⟩, if_pos hcount]
  rw [hstep] at hn
  cases hn
  exact ⟨_, hp, Dev.sendEvent_tells_qp1 ..⟩

/-- Refutes O43: the front end sends an event to QP1 whatever kind its registers hold, while the statement tells it to EVENT queue pairs alone;
the two part where QP1 is of kind 0. -/
theorem not_ledgerKeepsFaults : ¬ Obligations.LedgerKeepsFaults := by
  unfold Obligations.LedgerKeepsFaults
  intro h
  obtain ⟨-, -, -, -, -, hclose, -⟩ := h State.untoldQp1 0 0 0 0 0 0 0
  obtain ⟨hpasses, -⟩ := hclose 0 openEntry untoldQp1_slot
  have hpassed := untoldQp1_passed (State.untoldQp1.now 0)
  rw [← untoldQp1_time] at hpassed
  obtain ⟨n, ⟨-, -, hrecords⟩, r, hr⟩ := entryClose_tells_qp1 untoldQp1_slot rfl hpassed (by decide) (hpasses rfl hpassed)
  have hnone : (State.untoldQp1.now 0).hi.records = [] := by decide
  rw [hrecords, hnone, if_pos (by decide), List.nil_append] at hr
  obtain ⟨k, hk, hpair⟩ := List.mem_map.mp hr
  obtain ⟨-, htold⟩ := List.mem_filter.mp hk
  rw [show k = 1 from congrArg Prod.fst hpair, untoldQp1_kind] at htold
  exact absurd htold (by decide)

end Sys2Proof.Machine
end

section
/-! What Imset serves on QP0 and on the service UART (R353, R354, R356, R362, R364 to R366). -/

namespace Sys2Proof.Machine

/-! ### Serving leaves the frames of the service UART -/

/-- The next session of a channel. -/
def Dev.nextSession (d : Dev) (uart : Bool) (x : Descr) (ct : List Byte) : Session :=
  { number := d.sec.opened + 1,
    key := kmac (Config.kemDecaps d.boots ct) (idDigest ++ numBytes d.boots 4 ++ numBytes (b2n uart) 1 ++ numBytes (d.sec.opened + 1) 4) "XV6400 SESSION" 32,
    ends := d.time + 48000000000 * x.param1 }

/-- What a signature over a session's opening must cover (R356). -/
def Dev.sessionSigned (d : Dev) (uart : Bool) (x : Descr) (ct : List Byte) : List Byte :=
  ct ++ (idDigest ++ numBytes d.boots 4 ++ numBytes (b2n uart) 1) ++ numBytes x.param1 2

/-- SESSION_OPEN under a key (R356). -/
def Dev.openWith (d : Dev) (uart : Bool) (x : Descr) (buf : List Byte) (key : Option (List Byte)) : Machine.Served :=
  match key with
  | none => { dev := d, st := Code.AUTH }
  | some key =>
    if Config.slhVerify key (d.sessionSigned uart x (buf.take 1568)) "XV6400 SESSION" ((buf.drop 1568).take 29792) then
      { dev := (d.onSec fun k => { k with opened := d.sec.opened + 1 }).setSession uart (some (d.nextSession uart x (buf.take 1568))),
        detail := d.sec.opened + 1 }
    else { dev := d, st := Code.AUTH }

theorem Dev.serveSessionOpen_eq (d : Dev) (uart : Bool) (x : Descr) (buf : List Byte) :
    d.serveSessionOpen uart x buf = d.signing fun d => d.openWith uart x buf d.integratorKey := rfl

section
variable {d : Dev} {uart : Bool} {x : Descr} {buf key : List Byte}

theorem Dev.openWith_of_bad (h : Config.slhVerify key (d.sessionSigned uart x (buf.take 1568)) "XV6400 SESSION" ((buf.drop 1568).take 29792) = false) :
    d.openWith uart x buf (some key) = { dev := d, st := Code.AUTH } := if_neg (by rw [h]; exact Bool.false_ne_true)

theorem Dev.openWith_of_good (h : Config.slhVerify key (d.sessionSigned uart x (buf.take 1568)) "XV6400 SESSION" ((buf.drop 1568).take 29792) = true) :
    d.openWith uart x buf (some key) =
      { dev := (d.onSec fun k => { k with opened := d.sec.opened + 1 }).setSession uart (some (d.nextSession uart x (buf.take 1568))),
        detail := d.sec.opened + 1 } := if_pos h

end

/-- The frames that wait on the service UART and the answers given there stay. -/
structure Dev.SameFrames (d e : Dev) : Prop where
  waits : e.sec.uartIn = d.sec.uartIn
  answers : e.sec.uart = d.sec.uart

namespace Dev.SameFrames

theorem of_sec {d e : Dev} (h : e.sec = d.sec) : d.SameFrames e := ⟨by rw [h], by rw [h]⟩

theorem refl (d : Dev) : d.SameFrames d := ⟨rfl, rfl⟩

theorem trans {d e g : Dev} (h : d.SameFrames e) (k : e.SameFrames g) : d.SameFrames g := ⟨k.waits.trans h.waits, k.answers.trans h.answers⟩

theorem keeps {w : Foot} {d e g : Dev} (h : d.SameFrames e) (hk : Keeps w e g) (hw : Part.sec ∉ w.parts) : d.SameFrames g :=
  h.trans (.of_sec (hk.parts .sec hw))

theorem onSec {d e : Dev} {f : Sec → Sec} (h : d.SameFrames e) (hf : ∀ k, (f k).uartIn = k.uartIn ∧ (f k).uart = k.uart) :
    d.SameFrames (e.onSec f) := h.trans ⟨(hf e.sec).1, (hf e.sec).2⟩

theorem resetAfter {d : Dev} (e : Dev) (x : Descr) {r : Machine.Served} (hr : d.SameFrames r.dev) : d.SameFrames (e.resetAfter x r).dev := by
  unfold Dev.resetAfter
  split
  · exact hr.trans ⟨rfl, rfl⟩
  · exact hr

section
variable {d e : Dev} (h : d.SameFrames e)
include h

theorem showSec : d.SameFrames e.showSec := h.keeps e.showSec_keeps (by decide)

theorem flashError (err : Bool) : d.SameFrames (e.flashError err) := h.keeps (e.flashError_keeps err) (by decide)

theorem noteOther (kind : Nat) (b : Bool) (st : Nat) : d.SameFrames (e.noteOther kind b st) := h.keeps (e.noteOther_keeps kind b st) (by decide)

theorem setSession (uart : Bool) (v : Option Session) : d.SameFrames (e.setSession uart v) := by
  refine showSec (h.onSec fun k => ?_)
  cases uart <;> exact ⟨rfl, rfl⟩

theorem writeFlash (a : Nat) (bs : List Byte) : d.SameFrames (e.writeFlash a bs) := by
  have hwrite : ∀ f : Sec → Tbl Byte, d.SameFrames (e.onSec fun k => { k with flash := f k }) := fun f => h.onSec fun _ => ⟨rfl, rfl⟩
  unfold Dev.writeFlash
  dsimp only
  split
  · exact hwrite _
  · exact Dev.each_preserves (P := d.SameFrames) (f := Dev.touchSector) (fun g n _ hg => hg.trans ⟨rfl, rfl⟩) _ (hwrite _)

theorem storeDirectory : d.SameFrames e.storeDirectory := by
  unfold Dev.storeDirectory
  dsimp only
  generalize ([0, 1, 2].map fun k => (e.image k).byte) ++ digest ([0, 1, 2].map fun k => (e.image k).byte) = bs
  exact writeFlash (h.writeFlash 0 bs) 0x8000 bs

theorem setImage (kind : Nat) (v : ImgT) : d.SameFrames (e.setImage kind v) := by
  have himage : d.SameFrames (e.withImage kind v) := h.onSec fun _ => ⟨rfl, rfl⟩
  rw [Dev.setImage_eq]
  split
  · exact h
  · exact himage.storeDirectory

theorem setKey (slot : Nat) (v : KeyT) (err : Bool) : d.SameFrames (e.setKey slot v err) := by
  refine writeFlash (onSec (h.flashError err) ?_) _ _
  exact fun _ => ⟨rfl, rfl⟩

theorem serveRaise (c v blown : Nat) : d.SameFrames (e.serveRaise c v blown).dev := by
  have hset : d.SameFrames (e.setCounter c (min v (e.counter c + blown))).showSec := showSec (onSec h fun _ => ⟨rfl, rfl⟩)
  unfold Dev.serveRaise Dev.raise
  dsimp only
  split
  · exact h
  · split
    · exact hset
    · exact hset.keeps (Dev.put_keeps _ F.SEC_STAT_otp_err 0 true (by decide)) (by decide)

theorem enrol (slot : Nat) (key : List Byte) (blown : Nat) : d.SameFrames (e.enrol slot key blown).dev := by
  unfold Dev.enrol
  split
  · exact h
  · split
    · exact h
    · split
      · exact h.keeps (Dev.put_keeps _ F.SEC_STAT_otp_err 0 true (by decide)) (by decide)
      · exact showSec (onSec h fun _ => ⟨rfl, rfl⟩)

theorem confirmTrial (kind blown : Nat) (err : Bool) : d.SameFrames (e.confirmTrial kind blown err).dev := by
  unfold Dev.confirmTrial
  dsimp only
  split
  · exact h
  · exact serveRaise (((h.flashError err).setImage _ _).keeps (Dev.put_keeps _ F.SEC_IMG_trial kind false (by decide)) (by decide)) _ _ _

theorem markTrial (kind : Nat) (err : Bool) : d.SameFrames (e.markTrial kind err).dev := by
  unfold Dev.markTrial
  split
  · exact h
  · dsimp only
    split
    · exact ((h.noteOther ..).flashError err |>.setImage _ _).keeps (Dev.put_keeps _ F.SEC_IMG_pending kind true (by decide)) (by decide)
    · exact h.noteOther ..

theorem checkChain : d.SameFrames e.checkChain := by
  unfold Dev.checkChain
  split
  · exact h.onSec fun _ => ⟨rfl, rfl⟩
  · next n _ =>
    have hbroken : d.SameFrames (e.onSec fun k => { k with chainOk := false }) := h.onSec fun _ => ⟨rfl, rfl⟩
    exact hbroken.keeps (Dev.report_keeps _ Kind.imset 0 Cls.report (Code.ofFree (Config.imsetCode 1)) n 0) (by decide)

theorem privileged (uart : Bool) (x : Descr) (buf : List Byte) {f : Dev → Nat → List Byte → List Byte → Machine.Served}
    (hf : ∀ g c key rest, d.SameFrames g → d.SameFrames (f g c key rest).dev) : d.SameFrames (e.privileged uart x buf f).dev := by
  unfold Dev.privileged
  split
  · exact h
  · exact h
  · exact hf _ _ _ _ (h.setSession ..)

theorem signing {f : Dev → Machine.Served} (hf : d.SameFrames (f e).dev) : d.SameFrames (e.signing f).dev := by
  unfold Dev.signing
  split
  · exact h
  · exact hf

theorem serveUnseal (uart : Bool) (x : Descr) (buf : List Byte) : d.SameFrames (e.serveUnseal uart x buf).dev := by
  unfold Dev.serveUnseal
  split
  · exact h
  · refine h.privileged uart x buf fun g _ _ _ hg => ?_
    split
    · exact hg
    · split
      · exact hg
      · exact hg.trans (.of_sec g.unsealNow_sec)

theorem serveSessionOpen (uart : Bool) (x : Descr) (buf : List Byte) : d.SameFrames (e.serveSessionOpen uart x buf).dev := by
  rw [e.serveSessionOpen_eq]
  refine h.signing ?_
  unfold Dev.openWith
  split
  · exact h
  · split
    · have hopened : d.SameFrames (e.onSec fun k => { k with opened := e.sec.opened + 1 }) := h.onSec fun _ => ⟨rfl, rfl⟩
      generalize e.onSec (fun k => { k with opened := e.sec.opened + 1 }) = g at hopened ⊢
      exact hopened.setSession ..
    · exact h

theorem serveEnroll (uart : Bool) (x : Descr) (buf : List Byte) (blown : Nat) : d.SameFrames (e.serveEnroll uart x buf blown).dev := by
  unfold Dev.serveEnroll
  split
  · exact h.enrol ..
  · exact h.privileged uart x buf fun g _ _ _ hg => hg.enrol ..

theorem serveRevoke (uart : Bool) (x : Descr) (buf : List Byte) (blown : Nat) : d.SameFrames (e.serveRevoke uart x buf blown).dev := by
  refine h.privileged uart x buf fun g _ _ _ hg => ?_
  dsimp only
  split
  · exact hg
  · split
    · exact hg
    · exact hg.serveRaise ..

theorem serveUpdateWrite (x : Descr) (buf : List Byte) (err : Bool) : d.SameFrames (e.serveUpdateWrite x buf err).dev := by
  unfold Dev.serveUpdateWrite
  split
  · exact h
  · split
    · exact h
    · exact ((h.setImage ..).flashError err).writeFlash ..

theorem serveUpdateVerify (x : Descr) : d.SameFrames (e.serveUpdateVerify x).dev := by
  refine h.signing ?_
  dsimp only
  split
  · exact h
  · exact h.noteOther ..

theorem serveUpdateActivate (uart : Bool) (x : Descr) (buf : List Byte) (blown : Nat) (err : Bool) :
    d.SameFrames (e.serveUpdateActivate uart x buf blown err).dev := by
  refine h.privileged uart x buf (f := fun g _ _ _ => g.activateNow x blown err) fun g _ _ _ hg => ?_
  unfold Dev.activateNow
  split
  · exact hg
  · refine resetAfter g x ?_
    split
    · exact hg.confirmTrial ..
    · exact hg.markTrial ..

theorem serveKeyLoad (uart : Bool) (x : Descr) (buf : List Byte) (err : Bool) : d.SameFrames (e.serveKeyLoad uart x buf err).dev := by
  refine h.privileged uart x buf fun g _ _ _ hg => ?_
  split
  · exact hg
  · exact hg.setKey ..

theorem serveRaiseCounter (uart : Bool) (x : Descr) (buf : List Byte) (blown : Nat) : d.SameFrames (e.serveRaiseCounter uart x buf blown).dev := by
  refine h.privileged uart x buf fun g _ _ _ hg => ?_
  split
  · exact hg
  · exact hg.serveRaise ..

/-- Whatever a descriptor asks for, serving it leaves the frames of the service UART. -/
theorem serve (uart : Bool) (x : Descr) (buf : List Byte) (blown : Nat) (err : Bool) : d.SameFrames (e.serve uart x buf blown err).dev := by
  unfold Dev.serve
  split
  · exact h.serveUnseal ..
  · exact h
  · exact h.signing h
  · exact h.serveSessionOpen ..
  · exact h.setSession ..
  · exact h.serveEnroll ..
  · exact h.serveRevoke ..
  · exact h.serveUpdateWrite ..
  · exact h.serveUpdateVerify ..
  · exact h.serveUpdateActivate ..
  · exact h.serveKeyLoad ..
  · exact h.privileged uart x buf fun g _ _ _ hg => hg.setKey ..
  · exact h.serveRaiseCounter ..
  · exact h.checkChain
  · exact h
  · exact h

end

end Dev.SameFrames

/-! ### A request on the service UART (R364) -/

/-- A request on the service UART gets one answer, of four words and its data. -/
theorem Dev.answerUart_answers (d : Dev) (p : List Byte) (blown : Nat) (err : Bool) : ∃ a : UartOut,
    (d.answerUart p blown err).sec.uart = d.sec.uart ++ [a] ∧ a.completion.length = 4 := by
  have hserved : d.SameFrames (match d.checkUart (descrOf p) p.length with
      | some st => ({ dev := d, st := st } : Machine.Served)
      | none => d.serve true (descrOf p) ((p.drop (descrOf p).address).take (inputBytes (descrOf p))) blown err).dev := by
    split
    · exact .refl d
    · exact (Dev.SameFrames.refl d).serve ..
  exact ⟨_, congrArg (· ++ [_]) hserved.answers, rfl⟩

/-- No descriptor received before the one frame that waits is left: it is answered. -/
theorem Dev.serveUart_of_free {d : Dev} {r : UartReq} (h : r.behind.any d.unserved.contains = false) :
    d.serveUart [r] = (d.answerUart r.payload r.blown r.err).onSec fun k => { k with uartIn := [] } := by
  unfold Dev.serveUart
  rw [if_neg (by rw [h]; exact Bool.false_ne_true)]
  rfl

theorem Dev.serveUart_of_busy {d : Dev} {r : UartReq} (h : r.behind.any d.unserved.contains = true) :
    d.serveUart [r] = d.onSec fun k => { k with uartIn := [r] } := by
  unfold Dev.serveUart
  exact if_pos h

/-! ### Flash (R346) -/

theorem get_foldl_set (bs : List Byte) (y : Nat) : ∀ (m : Tbl Byte) (a : Nat),
    Tbl.get flashReset (bs.foldl (fun (x : Tbl Byte × Nat) b => (Tbl.set flashReset x.1 x.2 b, x.2 + 1)) (m, a)).1 y =
      if a ≤ y ∧ y < a + bs.length then bs.getD (y - a) 0 else Tbl.get flashReset m y := by
  induction bs with
  | nil => exact fun m a => (if_neg (by rw [List.length_nil]; omega)).symm
  | cons b bs ih =>
    intro m a
    rw [List.foldl_cons, ih, Tbl.get_set, List.length_cons]
    by_cases hy : y = a
    · subst hy
      rw [if_neg (by omega), if_pos rfl, if_pos (by omega), Nat.sub_self]
      rfl
    · by_cases hin : a + 1 ≤ y ∧ y < a + 1 + bs.length
      · rw [if_pos hin, if_pos (by omega), show y - a = (y - (a + 1)) + 1 by omega]
        rfl
      · rw [if_neg hin, if_neg hy, if_neg (by omega)]

theorem Dev.flashByte_writeFlash (d : Dev) (a : Nat) (bs : List Byte) (y : Nat) :
    (d.writeFlash a bs).flashByte y = if a ≤ y ∧ y < a + bs.length then bs.getD (y - a) 0 else d.flashByte y := by
  have hwrite := get_foldl_set bs y d.sec.flash a
  unfold Dev.writeFlash
  dsimp only
  split
  · exact hwrite
  · exact Dev.each_preserves (P := fun e => e.flashByte y = if a ≤ y ∧ y < a + bs.length then bs.getD (y - a) 0 else d.flashByte y)
      (f := Dev.touchSector) (fun _ _ _ h => h) _ hwrite

theorem digest_length (m : List Byte) : (digest m).length = 64 := by rw [digest, List.length_map, List.length_range]

/-- The directory lies in flash sector 0. -/
theorem Dev.flashByte_storeDirectory (d : Dev) {y : Nat} (hy : 65536 ≤ y) : d.storeDirectory.flashByte y = d.flashByte y := by
  have hlength : (([0, 1, 2].map fun k => (d.image k).byte) ++ digest ([0, 1, 2].map fun k => (d.image k).byte)).length = 67 := by
    rw [List.length_append, digest_length]
    rfl
  unfold Dev.storeDirectory
  dsimp only
  generalize ([0, 1, 2].map fun k => (d.image k).byte) ++ digest ([0, 1, 2].map fun k => (d.image k).byte) = bs at hlength ⊢
  change ((d.writeFlash 0 bs).writeFlash 0x8000 bs).flashByte y = _
  rw [Dev.flashByte_writeFlash, Dev.flashByte_writeFlash, if_neg (by omega), if_neg (by omega)]

theorem Dev.flashByte_setImage (d : Dev) (kind : Nat) (v : ImgT) {y : Nat} (hy : 65536 ≤ y) : (d.setImage kind v).flashByte y = d.flashByte y := by
  rw [d.setImage_eq]
  split
  · rfl
  · exact Dev.flashByte_storeDirectory _ hy

theorem Dev.flashByte_of_keeps {w : Foot} {d e : Dev} (h : Keeps w d e) (hw : Part.sec ∉ w.parts) (y : Nat) : e.flashByte y = d.flashByte y := by
  rw [Dev.flashByte, Dev.flashByte, h.parts .sec hw]

theorem Dev.flashByte_of_sec {d e : Dev} (h : e.sec = d.sec) (y : Nat) : e.flashByte y = d.flashByte y := by
  rw [Dev.flashByte, Dev.flashByte, h]

theorem slotBase_ge (kind : Nat) (b : Bool) : 65536 ≤ slotBase kind b := by
  unfold slotBase
  repeat' split
  all_goals decide

/-! ### A descriptor that is served: its completion and its output (R358) -/

theorem Dev.finish_item {d : Dev} {q i : Nat} {it : Item} (hitem : (d.qp q).item i = some it) (hlive : it.hasEnded = false)
    (hring : (d.qp q).silent = false) (st : Nat) (partly : Bool) (detail : Nat) :
    ((d.finish q i st partly detail).qp q).items =
      onFirst (fun it => it.index == i) (fun it => { it with phase := .ended st partly (BitVec.ofNat 32 detail) }) (d.qp q).items := by
  have hcompletes : ∀ e : Dev, e.hi = (d.onItem q i fun it => { it with phase := .ended st partly (BitVec.ofNat 32 detail) }).hi →
      ((e.drainItems q).qp q).items =
        onFirst (fun it => it.index == i) (fun it => { it with phase := .ended st partly (BitVec.ofNat 32 detail) }) (d.qp q).items := by
    intro e he
    have hqp := Dev.qp_congr he q
    have hopen : (e.qp q).silent = false := by rw [hqp, Dev.qp_onItem]; exact hring
    rw [Dev.drainItems_of_ring hopen, Dev.qp_congr (Dev.hi_showQp e q) q, hqp, Dev.qp_onItem]
  have hended : (d.onItem q i fun it => { it with phase := .ended st partly (BitVec.ofNat 32 detail) }).hi =
      (d.onItem q i fun it => { it with phase := .ended st partly (BitVec.ofNat 32 detail) }).hi := rfl
  unfold Dev.finish
  rw [hitem]
  dsimp only
  rw [hlive, if_neg Bool.false_ne_true]
  generalize d.onItem q i (fun it => { it with phase := .ended st partly (BitVec.ofNat 32 detail) }) = e at hcompletes hended ⊢
  cases it.desc with
  | none => exact hcompletes _ rfl
  | some x =>
    dsimp only
    split
    · exact hcompletes _ ((Dev.dropFrame_keeps ..).parts .hi (by decide))
    · exact hcompletes _ ((Dev.noteLast_keeps ..).parts .hi (by decide))

theorem Dev.out_started (d : Dev) (q i : Nat) : (d.started q i).hi.out = d.hi.out :=
  ((d.onItem_itemsOnly q i _).trans (Dev.showQp_itemsOnly ..)).out

/-- The output of a descriptor on its way. -/
def Served.sent (r : Served) (x : Descr) : Dev := if r.out.isEmpty then r.dev else r.dev.emit (.bytes x.address r.out)

theorem Served.sent_keeps (r : Served) (x : Descr) : Keeps ⟨false, [], [.hi]⟩ r.dev (r.sent x) :=
  Keeps.ite (fun _ => Keeps.refl _ _) fun _ => Dev.emit_keeps ..

theorem Served.sent_shows (r : Served) (x : Descr) : (r.sent x).qp 0 = r.dev.qp 0 ∧
    (r.sent x).hi.out = r.dev.hi.out ++ if r.out.isEmpty then [] else [.bytes x.address r.out] := by
  unfold Served.sent
  split
  · exact ⟨rfl, (List.append_nil _).symm⟩
  · exact ⟨rfl, rfl⟩

section
variable {d : Dev} {i op : Nat} {x : Descr} {f : Dev → Descr → Machine.Served} {r : Machine.Served}

/-- A management descriptor that may be served is served, ends, and gives the service UART its turn. -/
theorem Dev.manage_of_standing (hstand : d.standing 0 i .received x) (hlive : d.targetFenced 0 x = false)
    (hwindow : d.windowCheck x = none) (hturn : d.uartTurn = d) (hop : x.opcode = op) (hr : f (d.started 0 i) x = r) :
    d.manage i op f = ((r.sent x).finish 0 i r.st false r.detail).uartTurn := by
  subst hr
  rw [Dev.manage, hturn, Dev.startItem_of_standing hstand hop hwindow, Dev.targetFenced_started, hlive, if_neg Bool.false_ne_true]
  rfl

theorem Dev.manage_shows (h : d.MayServe i x) (hop : x.opcode = op) (hr : f (d.started 0 i) x = r) (hhi : r.dev.hi = (d.started 0 i).hi)
    (hidle : r.dev.sec.uartIn = []) : (d.manage i op f).hi.out = d.hi.out ++ (if r.out.isEmpty then [] else [.bytes x.address r.out]) ∧
      ∃ g, ((d.manage i op f).qp 0).item i = some g ∧ g.phase = .ended r.st false (BitVec.ofNat 32 r.detail) := by
  obtain ⟨hqp, hout⟩ := r.sent_shows x
  have hsent := r.sent_keeps x
  have hmanage := Dev.manage_of_standing h.stands h.live h.window (Dev.uartTurn_of_idle h.alone) hop hr
  rw [hmanage]
  have hready := Dev.underWay_congr (hqp.trans (Dev.qp_congr hhi 0)) (Dev.underWay_started h.stands)
  generalize r.sent x = e at hqp hout hsent hready ⊢
  obtain ⟨it, hitem, hlive, hring⟩ := hready
  have hitems := Dev.finish_item hitem hlive hring r.st false r.detail
  have hkeep := (e.finish_itemsOnly 0 i r.st false r.detail).out
  have hsec : (e.finish 0 i r.st false r.detail).sec = r.dev.sec :=
    ((Dev.finish_keeps e 0 i r.st false r.detail).parts .sec (by decide)).trans (hsent.parts .sec (by decide))
  rw [Dev.uartTurn_of_idle (by rw [hsec, hidle])]
  refine ⟨?_, { it with phase := .ended r.st false (BitVec.ofNat 32 r.detail) }, ?_, rfl⟩
  · rw [hkeep, hout, hhi, Dev.out_started]
  · rw [QpT.item, hitems]
    exact find?_onFirst hitem (List.find?_some hitem :)

end

/-! ### The order of arrival (R358) -/

/-- Is an item received and not yet served? -/
def Item.isReceived (it : Item) : Bool := it.phase == .received

theorem Dev.unserved_eq (d : Dev) : d.unserved = ((d.qp 0).items.filter Item.isReceived).map Item.index := rfl

theorem filter_onFirst_of_none {p : Item → Bool} {f : Item → Item} (hf : ∀ it, (f it).isReceived = false) {l : List Item}
    (h : l.filter Item.isReceived = []) : (onFirst p f l).filter Item.isReceived = [] := by
  induction l with
  | nil => rfl
  | cons a l ih =>
    have hl := List.filter_eq_nil_iff.mp h
    rw [onFirst]
    split
    · exact List.filter_eq_nil_iff.mpr fun b hb => by
        rcases List.mem_cons.mp hb with rfl | hb
        · rw [hf a]
          exact Bool.false_ne_true
        · exact hl b (.tail _ hb)
    · rw [List.filter_cons_of_neg (hl a (.head _))]
      exact ih (List.filter_eq_nil_iff.mpr fun b hb => hl b (.tail _ hb))

/-- Once the only received item is no longer received, none is. -/
theorem filter_onFirst_of_only {f : Item → Item} {i : Nat} {it : Item} (hf : ∀ it, (f it).isReceived = false) {l : List Item}
    (hitem : l.find? (fun it => it.index == i) = some it) (hreceived : it.isReceived = true)
    (honly : (l.filter Item.isReceived).map Item.index = [i]) : (onFirst (fun it => it.index == i) f l).filter Item.isReceived = [] := by
  induction l with
  | nil => rfl
  | cons a l ih =>
    rw [onFirst]
    by_cases hindex : a.index = i
    · have hbeq : (a.index == i) = true := beq_iff_eq.mpr hindex
      rw [List.find?_cons_of_pos (p := fun it : Item => it.index == i) hbeq] at hitem
      cases hitem
      rw [List.filter_cons_of_pos hreceived, List.map_cons] at honly
      rw [if_pos hbeq, List.filter_cons_of_neg (by rw [hf it]; exact Bool.false_ne_true)]
      exact List.map_eq_nil_iff.mp (List.cons.inj honly).2
    · have hbeq : ¬ (a.index == i) = true := fun h => hindex (beq_iff_eq.mp h)
      have hnot : ¬ a.isReceived = true := fun h => by
        rw [List.filter_cons_of_pos h, List.map_cons] at honly
        exact hindex (List.cons.inj honly).1
      rw [List.find?_cons_of_neg (p := fun it : Item => it.index == i) hbeq] at hitem
      rw [List.filter_cons_of_neg hnot] at honly
      rw [if_neg hbeq, List.filter_cons_of_neg hnot]
      exact ih hitem honly

theorem Dev.uartTurn_of_busy {d : Dev} {r : UartReq} (hwait : d.sec.uartIn = [r]) (h : r.behind.any d.unserved.contains = true) : d.uartTurn = d := by
  have hsame : { d.sec with uartIn := [r] } = d.sec := by rw [← hwait]
  rw [Dev.uartTurn, hwait, Dev.serveUart_of_busy h]
  exact congrArg d.withSec hsame

/-- The only descriptor received has ended: none waits any more. -/
theorem Dev.unserved_finish {d e : Dev} {i st detail : Nat} {x : Descr} (hstand : d.standing 0 i .received x) (honly : d.unserved = [i])
    (hqp : e.qp 0 = (d.started 0 i).qp 0) : (e.finish 0 i st false detail).unserved = [] := by
  obtain ⟨it, hitem, hlive, hring⟩ := Dev.underWay_congr hqp (Dev.underWay_started hstand)
  obtain ⟨it', hitem', -, hphase, -⟩ := hstand
  have hitems := Dev.finish_item hitem hlive hring st false detail
  have hstarted : (e.qp 0).items = onFirst (fun it => it.index == i) (fun it => { it with phase := .started }) (d.qp 0).items := by
    rw [hqp, Dev.started, Dev.qp_congr (Dev.hi_showQp ..), Dev.qp_onItem]
  have hnone : ((e.qp 0).items.filter Item.isReceived) = [] := by
    rw [hstarted]
    exact filter_onFirst_of_only (fun _ => rfl) hitem' (by rw [Item.isReceived, hphase]; rfl) (d.unserved_eq ▸ honly)
  rw [Dev.unserved_eq, hitems, filter_onFirst_of_none (fun _ => rfl) hnone]
  rfl

theorem Dev.windowCheck_of_close (d : Dev) {x : Descr} (hop : x.opcode = Op.SESSION_CLOSE) : d.windowCheck x = none := by
  have hreads : hostReads x = none := by
    unfold hostReads
    rw [hop]
    rfl
  have hwrites : hostWrites x = none := by
    unfold hostWrites
    rw [hop]
    rfl
  unfold Dev.windowCheck
  rw [hreads, hwrites]
  rfl

/-- A frame that waits behind one descriptor is answered once that has ended. -/
theorem Dev.close_answers {d : Dev} {i : Nat} {x : Descr} {r : UartReq} (hstand : d.standing 0 i .received x) (hlive : d.targetFenced 0 x = false)
    (hwait : d.sec.uartIn = [r]) (hbehind : r.behind = [i]) (honly : d.unserved = [i]) (hop : x.opcode = Op.SESSION_CLOSE) :
    let n := d.manage i Op.SESSION_CLOSE fun d _ => d.serveSessionClose false
    n.endedWith 0 i Code.OK ∧ n.sec.uartIn = [] ∧ ∃ a : UartOut, n.sec.uart = d.sec.uart ++ [a] ∧ a.completion.length = 4 := by
  have hbusy : r.behind.any d.unserved.contains = true := by
    rw [hbehind, honly]
    simp
  have hmanage := Dev.manage_of_standing (f := fun d _ => d.serveSessionClose false) hstand hlive (d.windowCheck_of_close hop)
    (Dev.uartTurn_of_busy hwait hbusy) hop rfl
  have hsec : (d.started 0 i).sec = d.sec := (d.started_keeps 0 i).parts .sec (by decide)
  have hclosed := (Dev.SameFrames.of_sec hsec).setSession false none
  have hqp : ((d.started 0 i).setSession false none).qp 0 = (d.started 0 i).qp 0 :=
    Dev.qp_congr ((Dev.setSession_keeps ..).parts .hi (by decide)) 0
  dsimp only
  rw [hmanage]
  change let n := (((d.started 0 i).setSession false none).finish 0 i Code.OK false 0).uartTurn
    n.endedWith 0 i Code.OK ∧ n.sec.uartIn = [] ∧ ∃ a : UartOut, n.sec.uart = d.sec.uart ++ [a] ∧ a.completion.length = 4
  generalize (d.started 0 i).setSession false none = e at hclosed hqp ⊢
  have hready := Dev.underWay_congr hqp (Dev.underWay_started hstand)
  have hends := Dev.finish_ends hready Code.OK false 0
  have hfree := Dev.unserved_finish (st := Code.OK) (detail := 0) hstand honly hqp
  have hframes := hclosed.keeps (e.finish_keeps 0 i Code.OK false 0) (by decide)
  generalize e.finish 0 i Code.OK false 0 = g at hends hfree hframes ⊢
  obtain ⟨a, hanswer, hlength⟩ := g.answerUart_answers r.payload r.blown r.err
  have hhi := (g.answerUart_keeps r.payload r.blown r.err).parts .hi (by decide)
  have hserve : g.uartTurn = (g.answerUart r.payload r.blown r.err).onSec fun k => { k with uartIn := [] } := by
    rw [Dev.uartTurn, hframes.waits, hwait]
    exact Dev.serveUart_of_free (by rw [hbehind, hfree]; rfl)
  dsimp only
  rw [hserve]
  generalize g.answerUart r.payload r.blown r.err = m at hanswer hhi ⊢
  exact ⟨Dev.endedWith_congr hhi hends, rfl, a, hanswer.trans (by rw [hframes.answers]), hlength⟩

/-! ### What each request gives -/

theorem Dev.signing_fenced {d : Dev} (h : d.fenced Kind.crypto 0 = true) (f : Dev → Machine.Served) : d.signing f = { dev := d, st := Code.FENCED } := if_pos h

theorem Dev.signing_live {d : Dev} (h : d.fenced Kind.crypto 0 = false) (f : Dev → Machine.Served) : d.signing f = f d :=
  if_neg (by rw [h]; exact Bool.false_ne_true)

theorem Keeps.measureWord {w : Foot} {d e : Dev} (h : Keeps w d e) (hw : w.avoids F.DEV_MEASURE = true) (i : Nat) :
    e.word (F.DEV_MEASURE.off i 0) = d.word (F.DEV_MEASURE.off i 0) := h.toFrame.word F.DEV_MEASURE i hw rfl rfl

/-- An attestation leaves no trace of the descriptor that asks for it. -/
theorem Dev.attestRecord_started (d : Dev) (q i : Nat) (nonce : List Byte) : (d.started q i).attestRecord nonce = d.attestRecord nonce := by
  have hk := d.started_keeps q i
  generalize d.started q i = e at hk ⊢
  have hsec : e.sec = d.sec := hk.parts .sec (by decide)
  have hsys : e.sys = d.sys := hk.parts .sys (by decide)
  have hboots : e.boots = d.boots := hk.rd F.IMS_BOOT_count 0 (by decide)
  have hmeasure : e.measurement = d.measurement := funext fun kind => by rw [Dev.measurement, Dev.measurement, hsec]
  have hcounter : ∀ k, e.counter k = d.counter k := Dev.counter_of_sec hsec
  have htag : e.newestTag = d.newestTag := by rw [Dev.newestTag, Dev.newestTag, hsec]
  have htrial : e.onTrial = d.onTrial := funext fun kind => hk.flag F.SEC_IMG_trial kind (by decide)
  have hflags : e.attestFlags = d.attestFlags := by
    rw [Dev.attestFlags, Dev.attestFlags, Dev.isSealed, Dev.isSealed, Dev.devState, Dev.devState, Dev.scMode, Dev.scMode, hsec, hsys, htrial,
      hk.rd F.DEV_STATE_state 0 (by decide), hk.rd F.SC_STAT_mode 0 (by decide)]
  rw [Dev.attestRecord, Dev.attestRecord, hk.toFrame.word F.DEV_ID 0 (by decide) rfl rfl, hk.toFrame.word F.DEV_VERSION 0 (by decide) rfl rfl,
    hboots, hk.time, hflags, htag, hmeasure, hsec]
  simp only [hcounter, hk.measureWord (by decide : _)]

theorem Dev.spareSlot_started (d : Dev) (q i kind : Nat) : (d.started q i).spareSlot kind = d.spareSlot kind := by
  have hk := d.started_keeps q i
  have hsec : (d.started q i).sec = d.sec := hk.parts .sec (by decide)
  rw [Dev.spareSlot, Dev.spareSlot, Dev.onTrial, Dev.onTrial, Dev.trialMarked, Dev.trialMarked, Dev.image_of_sec hsec,
    hk.flag F.SEC_IMG_trial kind (by decide)]

theorem Dev.otherSlot_started (d : Dev) (q i kind : Nat) : (d.started q i).otherSlot kind = d.otherSlot kind := by
  have hk := d.started_keeps q i
  have hsec : (d.started q i).sec = d.sec := hk.parts .sec (by decide)
  rw [Dev.otherSlot, Dev.otherSlot, Dev.onTrial, Dev.onTrial, Dev.image_of_sec hsec, hk.flag F.SEC_IMG_trial kind (by decide)]

/-- A directory entry without the note that a slot's image has been active. -/
def ImgT.writtenOver (v : ImgT) (b : Bool) : ImgT := if b then { v with beenB := false } else { v with beenA := false }

theorem ImgT.writtenOver_of_new {v : ImgT} {b : Bool} (h : (if b then v.beenB else v.beenA) = false) : v.writtenOver b = v := by
  cases b
  · exact (show v.writtenOver false = { v with beenA := false } from rfl).trans (by rw [← (show v.beenA = false from h)])
  · exact (show v.writtenOver true = { v with beenB := false } from rfl).trans (by rw [← (show v.beenB = false from h)])

/-- What UPDATE_WRITE does (R362). -/
def Dev.updated (d : Dev) (kind : Nat) (b : Bool) (place : Nat) (buf : List Byte) (err : Bool) : Dev :=
  ((d.setImage kind ((d.image kind).writtenOver b)).flashError err).writeFlash (slotBase kind b + place) buf

theorem Dev.serveUpdateWrite_within {d : Dev} {x : Descr} {b : Bool} (hslot : d.spareSlot x.target = some b)
    (hsize : x.param2 + x.length ≤ slotSize x.target) (buf : List Byte) (err : Bool) :
    d.serveUpdateWrite x buf err = { dev := d.updated x.target b x.param2 buf err, detail := buf.length } := by
  unfold Dev.serveUpdateWrite
  rw [hslot]
  exact if_neg (by omega)

theorem Dev.updated_shows (d : Dev) (kind : Nat) (b : Bool) (place : Nat) (buf : List Byte) (err : Bool) :
    let n := d.updated kind b place buf err; let a := slotBase kind b + place
    (∀ y, 65536 ≤ y → n.flashByte y = if a ≤ y ∧ y < a + buf.length then buf.getD (y - a) 0 else d.flashByte y) ∧
      ((if b then (d.image kind).beenB else (d.image kind).beenA) = false → ∀ y, y < 65536 → n.flashByte y = d.flashByte y) ∧
      (err = true → n.flag F.IMS_STAT_flash_err 0 = true) := by
  have hplace : 65536 ≤ slotBase kind b + place := (slotBase_ge kind b).trans (Nat.le_add_right ..)
  have hbyte : ∀ y, (d.updated kind b place buf err).flashByte y =
      if slotBase kind b + place ≤ y ∧ y < slotBase kind b + place + buf.length then buf.getD (y - (slotBase kind b + place)) 0
      else (d.setImage kind ((d.image kind).writtenOver b)).flashByte y := fun y => by
    rw [Dev.updated, Dev.flashByte_writeFlash, Dev.flashByte_of_keeps (Dev.flashError_keeps ..) (by decide)]
  refine ⟨fun y hy => by rw [hbyte, Dev.flashByte_setImage _ _ _ hy], fun hnew y hy => ?_, fun herr => ?_⟩
  · rw [hbyte, if_neg (by omega), ImgT.writtenOver_of_new hnew, Dev.setImage_eq, if_pos rfl]
  · refine ((Dev.writeFlash_keeps ..).flag F.IMS_STAT_flash_err 0 (by decide)).trans ?_
    rw [herr, Dev.flashError, if_pos rfl]
    exact ((Dev.report_keeps ..).flag F.IMS_STAT_flash_err 0 (by decide)).trans (Dev.flag_put _ F.IMS_STAT_flash_err _ _ (by decide) rfl)

theorem Dev.updated_keeps (d : Dev) (kind : Nat) (b : Bool) (place : Nat) (buf : List Byte) (err : Bool) :
    Keeps ⟨false, [F.IMS_STAT_flash_err, F.FLT_STAT_lost, F.FLT_LOST], [.sec, .flt]⟩ d (d.updated kind b place buf err) :=
  (((Dev.setImage_keeps d kind _).within (by decide)).trans ((Dev.flashError_keeps _ err).within (by decide))).trans
    ((Dev.writeFlash_keeps ..).within (by decide))

theorem Dev.verifyImage_started (d : Dev) (q i kind : Nat) (b : Bool) : (d.started q i).verifyImage kind b = d.verifyImage kind b := by
  have hsec : (d.started q i).sec = d.sec := (d.started_keeps q i).parts .sec (by decide)
  exact Dev.verifyImage_congr (by rw [hsec]) (by rw [hsec]) (by rw [hsec]) kind b

theorem Dev.noteOther_valid (d : Dev) (kind : Nat) (b : Bool) (st : Nat) : (d.noteOther kind b st).flag F.SEC_IMG_other_valid kind = (st == Code.OK) :=
  ((Dev.wr_keeps _ F.SEC_IMG_other_version kind _ (by decide)).flag F.SEC_IMG_other_valid kind (by decide)).trans
    (Dev.flag_put _ F.SEC_IMG_other_valid _ _ (by decide) rfl)

theorem Dev.checkChain_shows (d : Dev) : d.checkChain.sec = { d.sec with chainOk := (brokenLink d.sec.ledger).isNone } := by
  unfold Dev.checkChain
  cases brokenLink d.sec.ledger with
  | none => rfl
  | some n =>
    have hreport := Dev.report_keeps (d.onSec fun k => { k with chainOk := false }) Kind.imset 0 Cls.report (Code.ofFree (Config.imsetCode 1)) n 0
    have hsec : ((d.onSec fun k => { k with chainOk := false }).report Kind.imset 0 Cls.report (Code.ofFree (Config.imsetCode 1)) n).sec =
      (d.onSec fun k => { k with chainOk := false }).sec := hreport.parts .sec (by decide)
    exact hsec

theorem isEmpty_flatMap {α β : Type} {g : α → List β} (hg : ∀ a, g a ≠ []) (l : List α) : (l.flatMap g).isEmpty = l.isEmpty := by
  cases l with
  | nil => rfl
  | cons a l =>
    rw [List.flatMap_cons]
    cases hfirst : g a with
    | nil => exact absurd hfirst (hg a)
    | cons b bs => rfl

theorem Entry.bytes_ne_nil (e : Entry) : (e.words.flatMap wordBytes) ≠ [] := by
  rw [Entry.words, List.flatMap_cons]
  exact List.append_ne_nil_of_left_ne_nil (by simp [wordBytes]) _

theorem LifeRec.bytes_ne_nil (r : LifeRec) : r.bytes ≠ [] := by
  unfold LifeRec.bytes
  exact List.append_ne_nil_of_right_ne_nil _ (by decide)

/-! ### The end of a session (R356) -/

/-- What SESSION_EXPIRY does. -/
def Dev.sessionStep (d : Dev) (uart : Bool) : Dev :=
  match d.session uart with
  | some k => if k.ends ≤ d.time then d.setSession uart none else d
  | none => d

theorem execSessionExpiry_eq (t : Nat) (uart : Bool) (s : State) : execSessionExpiry t uart s = effect t s fun d => d.sessionStep uart := rfl

theorem Dev.sessionStep_of_passed (d : Dev) {uart : Bool} {z : Session} (h : d.session uart = some z) (hpassed : z.ends ≤ d.time) :
    d.sessionStep uart = d.setSession uart none := by
  unfold Dev.sessionStep
  rw [h]
  exact if_pos hpassed

/-! ### Frames of the service UART (R364) -/

theorem badFrame_iff {f : UartInput} {crc : Word} : badFrame f crc = true ↔
    crc ≠ frameCrc f.payload ∨ f.length ≠ f.payload.length ∨ f.payload.length < 32 ∨ 65529 < f.payload.length := by
  rw [badFrame, Bool.or_eq_true, Bool.or_eq_true, Bool.or_eq_true, bne_iff_ne, bne_iff_ne, Nat.blt_eq, Nat.blt_eq]
  have hlong : 65536 < f.payload.length + 7 ↔ 65529 < f.payload.length := by omega
  rw [hlong]
  tauto

/-- What UART_FRAME does. -/
def Dev.frameStep (d : Dev) (f : UartInput) (crc : Word) (blown : Nat) (err : Bool) : Dev :=
  if d.fenced Kind.imset 0 ∨ f.start ≠ 0xA5#8 then d
  else if Machine.badFrame f crc then d.bump F.IMS_UART_bad_frames 0
  else if d.uartAnswers = false then d
  else d.serveUart (d.sec.uartIn ++ [{ payload := f.payload, blown := blown, err := err, behind := d.unserved }])

theorem execUartFrame_eq (t : Nat) (f : UartInput) (crc : Word) (blown : Nat) (err : Bool) (s : State) :
    execUartFrame t f crc blown err s = effect t s fun d => d.frameStep f crc blown err := rfl

section
variable {d : Dev} {f : UartInput} {crc : Word} {blown : Nat} {err : Bool}

theorem Dev.frameStep_of_none (h : d.fenced Kind.imset 0 = true ∨ f.start ≠ 0xA5#8) : d.frameStep f crc blown err = d := if_pos h

section
variable (hfree : d.fenced Kind.imset 0 = false) (hstart : f.start = 0xA5#8)
include hfree hstart

theorem Dev.frameStep_of_start : d.frameStep f crc blown err = if Machine.badFrame f crc then d.bump F.IMS_UART_bad_frames 0
    else if d.uartAnswers = false then d
    else d.serveUart (d.sec.uartIn ++ [{ payload := f.payload, blown := blown, err := err, behind := d.unserved }]) :=
  if_neg (by rw [hfree]; rintro (h | h); exacts [Bool.false_ne_true h, h hstart])

theorem Dev.frameStep_of_bad (hbad : Machine.badFrame f crc = true) : d.frameStep f crc blown err = d.bump F.IMS_UART_bad_frames 0 :=
  (Dev.frameStep_of_start hfree hstart).trans (if_pos hbad)

theorem Dev.frameStep_of_silent (hgood : Machine.badFrame f crc = false) (hsilent : d.uartAnswers = false) : d.frameStep f crc blown err = d :=
  (Dev.frameStep_of_start hfree hstart).trans ((if_neg (by rw [hgood]; exact Bool.false_ne_true)).trans (if_pos hsilent))

theorem Dev.frameStep_of_good (hgood : Machine.badFrame f crc = false) (hanswers : d.uartAnswers = true) (hidle : d.sec.uartIn = []) :
    d.frameStep f crc blown err = d.serveUart [{ payload := f.payload, blown := blown, err := err, behind := d.unserved }] := by
  refine (Dev.frameStep_of_start hfree hstart).trans ((if_neg (by rw [hgood]; exact Bool.false_ne_true)).trans
    ((if_neg (by rw [hanswers]; decide)).trans ?_))
  rw [hidle]
  rfl

end

/-- The frame that arrives is answered at once where no descriptor was received before it. -/
theorem Dev.arrives_free (hfree : d.unserved = []) : ∃ a : UartOut,
    (d.serveUart [{ payload := f.payload, blown := blown, err := err, behind := d.unserved }]).sec.uart = d.sec.uart ++ [a] ∧ a.completion.length = 4 := by
  obtain ⟨a, hanswer, hlength⟩ := d.answerUart_answers f.payload blown err
  rw [Dev.serveUart_of_free (by rw [hfree]; rfl)]
  exact ⟨a, hanswer, hlength⟩

theorem Dev.arrives_busy (hbusy : d.unserved ≠ []) : d.serveUart [{ payload := f.payload, blown := blown, err := err, behind := d.unserved }] =
    d.onSec fun k => { k with uartIn := [{ payload := f.payload, blown := blown, err := err, behind := d.unserved }] } := by
  obtain ⟨i, hi⟩ := List.exists_mem_of_ne_nil _ hbusy
  exact Dev.serveUart_of_busy (List.any_eq_true.mpr ⟨i, hi, List.contains_iff_mem.mpr hi⟩)

end

/-! ### The commands on QP0 -/

section
variable {s : State} {t i : Nat} {x : Descr} {buf : List Byte} {d : Dev} (hnow : s.now t = d) (hserve : d.MayServe i x)
include hnow hserve

/-- A management command whose serving is known: what it shows. -/
theorem imset_served {c : Instr} {op : Nat} {f : Dev → Descr → Machine.Served} {r : Machine.Served} {P : Dev → Prop}
    (hexec : exec c s = effect t s fun d => d.manage i op f) (hop : x.opcode = op) (hr : f (d.started 0 i) x = r)
    (hhi : r.dev.hi = (d.started 0 i).hi) (hframes : (d.started 0 i).SameFrames r.dev)
    (hP : ∀ n : Dev, Dev.Served r i n → n.hi.out = d.hi.out ++ (if r.out.isEmpty then [] else [.bytes x.address r.out]) →
      (∃ g, (n.qp 0).item i = some g ∧ g.phase = .ended r.st false (BitVec.ofNat 32 r.detail)) → P n) : Does s c P := by
  have hidle : r.dev.sec.uartIn = [] := by
    rw [hframes.waits, (d.started_keeps 0 i).parts .sec (by decide), hserve.alone]
  obtain ⟨hout, hitem⟩ := Dev.manage_shows (f := f) hserve hop hr hhi hidle
  exact Does.of_step hexec hnow rfl (hP _ (Dev.manage_served hserve hop hr hhi hidle) hout hitem)

theorem imset_identity (hop : x.opcode = Op.IDENTITY) : Does s (.identity t i) fun n => n.endedWith 0 i Code.OK ∧
    n.hi.out = d.hi.out ++ [.bytes x.address (identityKey ++ (List.range 29792).map Config.identityCert)] := by
  have hsome : (identityKey ++ (List.range 29792).map Config.identityCert).isEmpty = false := by
    rw [List.isEmpty_eq_false_iff, ← List.length_pos_iff, List.length_append, identityKey, List.length_map, List.length_range]
    omega
  refine imset_served hnow hserve (show exec _ s = execIdentity t i s from rfl) hop (r := (d.started 0 i).serveIdentity) rfl rfl (.refl _)
    fun n hend hout _ => ⟨hend.ends, hout.trans ?_⟩
  rw [show (d.started 0 i).serveIdentity.out = identityKey ++ (List.range 29792).map Config.identityCert from rfl, hsome]
  rfl

theorem imset_attest (hop : x.opcode = Op.ATTEST) (hcrypto : d.fenced Kind.crypto 0 = false) : Does s (.attest t i buf) fun n =>
    n.endedWith 0 i Code.OK ∧
      ∃ signature, n.hi.out = d.hi.out ++ [.bytes x.address (d.attestRecord (buf.take 32) ++ signature)] ∧ signature.length = 49856 := by
  have hlive : (d.started 0 i).fenced Kind.crypto 0 = false := (Dev.fenced_started ..).trans hcrypto
  obtain ⟨r, hr⟩ : ∃ r, (d.started 0 i).attestRecord (buf.take 32) = r := ⟨_, rfl⟩
  have hrecord : d.attestRecord (buf.take 32) = r := (Dev.attestRecord_started ..).symm.trans hr
  obtain ⟨g, hg⟩ : ∃ g, (List.range 49856).map (Config.identitySign r "XV6400 ATTEST") = g := ⟨_, rfl⟩
  have hlength : g.length = 49856 := by rw [← hg, List.length_map, List.length_range]
  have hsome : (r ++ g).isEmpty = false := by
    rw [List.isEmpty_eq_false_iff, ← List.length_pos_iff, List.length_append, hlength]
    omega
  refine imset_served hnow hserve (show exec _ s = execAttest t i buf s from rfl) hop
    (r := { dev := d.started 0 i, detail := 51952, out := r ++ g }) ?_ rfl (.refl _) fun n hend hout _ => ⟨hend.ends, g, ?_, hlength⟩
  · rw [Dev.serveAttest, Dev.signing_live hlive, ← hg, ← hr]
  · rw [hout, hsome, hrecord]
    rfl

theorem imset_fenced {c : Instr} (hcrypto : d.fenced Kind.crypto 0 = true)
    (hc : (x.opcode = Op.ATTEST ∧ c = Instr.attest t i buf) ∨ (x.opcode = Op.SESSION_OPEN ∧ c = Instr.sessionOpen t i buf) ∨
      (x.opcode = Op.UPDATE_VERIFY ∧ c = Instr.updateVerify t i)) : Does s c fun n => n.endedWith 0 i Code.FENCED ∧ n.sec = d.sec := by
  have hfenced : (d.started 0 i).fenced Kind.crypto 0 = true := (Dev.fenced_started ..).trans hcrypto
  have hdo : ∀ {op : Nat} {f : Dev → Descr → Machine.Served}, (exec c s = effect t s fun d => d.manage i op f) → x.opcode = op →
      f (d.started 0 i) x = { dev := d.started 0 i, st := Code.FENCED } → Does s c fun n => n.endedWith 0 i Code.FENCED ∧ n.sec = d.sec :=
    fun hexec hop hr => imset_served hnow hserve hexec hop hr rfl (.refl _) fun n hend _ _ =>
      ⟨hend.ends, hend.sec.trans ((d.started_keeps 0 i).parts .sec (by decide))⟩
  rcases hc with ⟨hop, rfl⟩ | ⟨hop, rfl⟩ | ⟨hop, rfl⟩
  · exact hdo (show exec _ s = execAttest t i buf s from rfl) hop (Dev.signing_fenced hfenced _)
  · exact hdo (show exec _ s = execSessionOpen t i buf s from rfl) hop (Dev.signing_fenced hfenced _)
  · exact hdo (show exec _ s = execUpdateVerify t i s from rfl) hop (Dev.signing_fenced hfenced _)

theorem imset_sessionOpen (hop : x.opcode = Op.SESSION_OPEN) (hcrypto : d.fenced Kind.crypto 0 = false) : let b := buf.take x.length
    let signed := b.take 1568 ++ (idDigest ++ numBytes d.boots 4 ++ numBytes 0 1) ++ numBytes x.param1 2
    (d.integratorKey = none → Does s (.sessionOpen t i buf) fun n => n.endedWith 0 i Code.AUTH ∧ n.sec = d.sec) ∧
    (∀ key, d.integratorKey = some key → Does s (.sessionOpen t i buf) fun n =>
      if Config.slhVerify key signed "XV6400 SESSION" ((b.drop 1568).take 29792) = true then n.endedWith 0 i Code.OK ∧
        ∃ z, n.sec.qpSession = some z ∧ z.number = d.sec.opened + 1 ∧ z.counter = 0 ∧ z.ends = d.time + 48000000000 * x.param1
      else n.endedWith 0 i Code.AUTH ∧ n.sec = d.sec) := by
  have hk := d.started_keeps 0 i
  have hsec : (d.started 0 i).sec = d.sec := hk.parts .sec (by decide)
  have hlive : (d.started 0 i).fenced Kind.crypto 0 = false := (Dev.fenced_started ..).trans hcrypto
  have hboots : (d.started 0 i).boots = d.boots := hk.rd F.IMS_BOOT_count 0 (by decide)
  have htime : (d.started 0 i).time = d.time := hk.time
  have hkey : (d.started 0 i).integratorKey = d.integratorKey := by
    rw [Dev.integratorKey, Dev.integratorKey, Dev.counter_of_sec hsec, Dev.enrolled_of_sec hsec]
  have hopens : (d.started 0 i).serveSessionOpen false x (buf.take x.length) = (d.started 0 i).openWith false x (buf.take x.length) d.integratorKey := by
    rw [Dev.serveSessionOpen_eq, Dev.signing_live hlive, hkey]
  have hframes := (Dev.SameFrames.refl (d.started 0 i)).serveSessionOpen false x (buf.take x.length)
  have hhi := (Dev.serveSessionOpen_keeps (d.started 0 i) false x (buf.take x.length)).parts .hi (by decide)
  rw [hopens] at hframes hhi
  have hdo : ∀ {P : Dev → Prop}, (∀ n, Dev.Served ((d.started 0 i).openWith false x (buf.take x.length) d.integratorKey) i n → P n) →
      Does s (.sessionOpen t i buf) P := fun hP =>
    imset_served hnow hserve (show exec _ s = execSessionOpen t i buf s from rfl) hop hopens hhi hframes fun n hend _ _ => hP n hend
  dsimp only
  refine ⟨fun hnone => hdo fun n hend => ?_, fun key hsome => hdo fun n hend => ?_⟩
  · rw [hnone] at hend
    exact ⟨hend.ends, hend.sec.trans hsec⟩
  · rw [hsome] at hend
    have hcovers : (buf.take x.length).take 1568 ++ (idDigest ++ numBytes d.boots 4 ++ numBytes 0 1) ++ numBytes x.param1 2 =
        (d.started 0 i).sessionSigned false x ((buf.take x.length).take 1568) := by rw [Dev.sessionSigned, hboots]; rfl
    rw [hcovers]
    cases hverify : Config.slhVerify key ((d.started 0 i).sessionSigned false x ((buf.take x.length).take 1568)) "XV6400 SESSION"
        (((buf.take x.length).drop 1568).take 29792) with
    | false =>
      rw [Dev.openWith_of_bad hverify] at hend
      rw [if_neg Bool.false_ne_true]
      exact ⟨hend.ends, hend.sec.trans hsec⟩
    | true =>
      rw [Dev.openWith_of_good hverify] at hend
      rw [if_pos rfl]
      refine ⟨hend.ends, (d.started 0 i).nextSession false x ((buf.take x.length).take 1568), ?_, ?_, rfl, ?_⟩
      · rw [hend.sec, Dev.sec_setSession]
        rfl
      · rw [Dev.nextSession, hsec]
      · rw [Dev.nextSession, htime]

theorem imset_sessionClose (hop : x.opcode = Op.SESSION_CLOSE) : Does s (.sessionClose t i) fun n => n.endedWith 0 i Code.OK ∧
    n.sec.qpSession = none ∧ n.sec.uartSession = d.sec.uartSession := by
  have hk := d.started_keeps 0 i
  refine imset_served hnow hserve (show exec _ s = execSessionClose t i s from rfl) hop (r := (d.started 0 i).serveSessionClose false) rfl
    ((Dev.setSession_keeps ..).parts .hi (by decide)) ((Dev.SameFrames.refl _).setSession ..) fun n hend _ _ => ?_
  have hsec : n.sec = _ := hend.sec.trans (Dev.sec_setSession (d.started 0 i) false none)
  refine ⟨hend.ends, by rw [hsec]; rfl, ?_⟩
  have hkept : (d.started 0 i).sec = d.sec := hk.parts .sec (by decide)
  rw [← hkept]
  exact (congrArg Sec.uartSession hsec :)

theorem imset_updateWrite (hop : x.opcode = Op.UPDATE_WRITE) {v : Bool} (hslot : d.spareSlot x.target = some v)
    (hsize : x.param2 + x.length ≤ slotSize x.target) (e : Bool) : let b := buf.take x.length; let a := slotBase x.target v + x.param2
    Does s (.updateWrite t i buf e) fun n => n.endedWith 0 i Code.OK ∧
      (∀ y, 65536 ≤ y → n.flashByte y = if a ≤ y ∧ y < a + b.length then b.getD (y - a) 0 else d.flashByte y) ∧
      ((if v then (d.image x.target).beenB else (d.image x.target).beenA) = false → ∀ y, y < 65536 → n.flashByte y = d.flashByte y) ∧
      (e = true → n.flag F.IMS_STAT_flash_err 0 = true) := by
  have hk := d.started_keeps 0 i
  have hsec : (d.started 0 i).sec = d.sec := hk.parts .sec (by decide)
  have himage := Dev.image_of_sec hsec x.target
  have hflash : ∀ y, (d.started 0 i).flashByte y = d.flashByte y := Dev.flashByte_of_keeps hk (by decide)
  have hserves := Dev.serveUpdateWrite_within ((Dev.spareSlot_started ..).trans hslot) hsize (buf.take x.length) e (d := d.started 0 i)
  obtain ⟨habove, hbelow, herr⟩ := Dev.updated_shows (d.started 0 i) x.target v x.param2 (buf.take x.length) e
  have hframes := (Dev.SameFrames.refl (d.started 0 i)).serveUpdateWrite x (buf.take x.length) e
  rw [hserves] at hframes
  refine imset_served hnow hserve (show exec _ s = execUpdateWrite t i buf e s from rfl) hop hserves
    ((Dev.updated_keeps ..).parts .hi (by decide)) hframes fun n hend _ _ => ?_
  have hbyte := Dev.flashByte_of_sec hend.sec
  refine ⟨hend.ends, fun y hy => ?_, fun hnew y hy => ?_, fun he => ?_⟩
  · rw [hbyte, habove y hy, hflash]
  · rw [hbyte, hbelow (himage ▸ hnew) y hy, hflash]
  · exact (hend.keeps.flag F.IMS_STAT_flash_err 0 (by decide)).trans (herr he)

theorem imset_updateVerify (hop : x.opcode = Op.UPDATE_VERIFY) (hcrypto : d.fenced Kind.crypto 0 = false) {v : Bool}
    (hslot : d.otherSlot x.target = some v) : Does s (.updateVerify t i) fun n =>
      n.endedWith 0 i (d.verifyImage x.target v) ∧ n.flag F.SEC_IMG_other_valid x.target = (d.verifyImage x.target v == Code.OK) := by
  have hlive : (d.started 0 i).fenced Kind.crypto 0 = false := (Dev.fenced_started ..).trans hcrypto
  have hverify := Dev.verifyImage_started d 0 i x.target v
  obtain ⟨st, hst⟩ : ∃ st, d.verifyImage x.target v = st := ⟨_, rfl⟩
  refine imset_served hnow hserve (show exec _ s = execUpdateVerify t i s from rfl) hop
    (r := { dev := (d.started 0 i).noteOther x.target v st, st := st, detail := (d.started 0 i).imgVersion x.target v }) ?_
    ((Dev.noteOther_keeps ..).parts .hi (by decide)) (.of_sec ((Dev.noteOther_keeps ..).parts .sec (by decide))) fun n hend _ _ => ?_
  · rw [Dev.serveUpdateVerify, Dev.signing_live hlive, (Dev.otherSlot_started ..).trans hslot]
    dsimp only
    rw [hverify, hst]
  · rw [hst]
    exact ⟨hend.ends, (hend.keeps.flag F.SEC_IMG_other_valid x.target (by decide)).trans (Dev.noteOther_valid ..)⟩

theorem imset_ledgerRead (hop : x.opcode = Op.LEDGER_READ) :
    let es := (d.sec.ledger.filter fun e => Nat.ble x.param1 (e.number % 2 ^ 32)).take (x.length / 32)
    Does s (.ledgerRead t i) fun n => n.sec.ledger = d.sec.ledger ∧ n.sec.chainOk = (brokenLink d.sec.ledger).isNone ∧
      (∃ g, (n.qp 0).item i = some g ∧ g.phase = .ended Code.OK false (BitVec.ofNat 32 es.length)) ∧
      n.hi.out = d.hi.out ++ if es.isEmpty then [] else [.bytes x.address (es.flatMap fun e => e.words.flatMap wordBytes)] := by
  have hsec : (d.started 0 i).checkChain.sec = { d.sec with chainOk := (brokenLink d.sec.ledger).isNone } := by
    rw [Dev.checkChain_shows, (d.started_keeps 0 i).parts .sec (by decide)]
  intro es
  have hes : ((d.started 0 i).checkChain.sec.ledger.filter fun e => Nat.ble x.param1 (e.number % 2 ^ 32)).take (x.length / 32) = es := by
    rw [hsec]
  clear_value es
  refine imset_served hnow hserve (show exec _ s = execLedgerRead t i s from rfl) hop
    (r := { dev := (d.started 0 i).checkChain, detail := es.length, out := es.flatMap fun e => e.words.flatMap wordBytes }) ?_
    ((Dev.checkChain_keeps _).parts .hi (by decide)) (Dev.SameFrames.refl _).checkChain fun n hend hout hitem => ?_
  · rw [← hes]
    rfl
  · have hshows : n.sec = _ := hend.sec.trans hsec
    rw [isEmpty_flatMap Entry.bytes_ne_nil] at hout
    exact ⟨by rw [hshows], by rw [hshows], hitem, hout⟩

theorem imset_lifetimeRead (hop : x.opcode = Op.LIFETIME_READ) : let rs := (d.sec.life.drop x.param1).take (x.length / 64)
    Does s (.lifetimeRead t i) fun n => n.sec = d.sec ∧
      (∃ g, (n.qp 0).item i = some g ∧ g.phase = .ended Code.OK false (BitVec.ofNat 32 rs.length)) ∧
      n.hi.out = d.hi.out ++ if rs.isEmpty then [] else [.bytes x.address (rs.flatMap fun r => r.2.bytes)] := by
  have hsec : (d.started 0 i).sec = d.sec := (d.started_keeps 0 i).parts .sec (by decide)
  intro rs
  have hrs : ((d.started 0 i).sec.life.drop x.param1).take (x.length / 64) = rs := by rw [hsec]
  clear_value rs
  refine imset_served hnow hserve (show exec _ s = execLifetimeRead t i s from rfl) hop
    (r := { dev := d.started 0 i, detail := rs.length, out := rs.flatMap fun r => r.2.bytes }) ?_ rfl (.refl _) fun n hend hout hitem => ?_
  · rw [← hrs]
    rfl
  · rw [isEmpty_flatMap (g := fun r : Nat × LifeRec => r.2.bytes) fun r => LifeRec.bytes_ne_nil r.2] at hout
    exact ⟨hend.sec.trans hsec, hitem, hout⟩

end

end Sys2Proof.Machine
end

section
namespace Sys2Proof.Machine

/-- Settles O41: Imset serves identity, attestation, sessions, updates, ledger and lifetime, and answers the service UART in order. -/
theorem imsetServes : Obligations.ImsetServes := by
  unfold Obligations.ImsetServes
  intro s t i x buf d b
  have hnow : s.now t = d := rfl
  clear_value d
  refine ⟨?windowless, ?serves, ?waits, ?expiry, ?frames⟩
  case windowless =>
    intro hstand hlive hidle e c hrefused hc
    have hdo : ∀ {op : Nat} {f : Dev → Descr → Machine.Served}, exec c s = (effect t s fun d => d.manage i op f) → x.opcode = op →
        Does s c fun n => n.endedWith 0 i e ∧ n.sec = d.sec := fun hexec hop =>
      Does.of_step hexec hnow rfl (Dev.manage_windowless hstand hidle hop hrefused)
    rcases hc with ⟨hop, rfl⟩ | ⟨hop, rfl⟩ | ⟨hop, rfl⟩ | ⟨k, hop, rfl⟩ | ⟨hop, rfl⟩ | ⟨hop, rfl⟩
    · exact hdo (show exec _ s = execIdentity t i s from rfl) hop
    · exact hdo (show exec _ s = execAttest t i buf s from rfl) hop
    · exact hdo (show exec _ s = execSessionOpen t i buf s from rfl) hop
    · exact hdo (show exec _ s = execUpdateWrite t i buf k s from rfl) hop
    · exact hdo (show exec _ s = execLedgerRead t i s from rfl) hop
    · exact hdo (show exec _ s = execLifetimeRead t i s from rfl) hop
  case serves =>
    intro hstand hlive hidle hwindow
    have hserve : d.MayServe i x := ⟨hstand, hlive, hidle, hwindow⟩
    exact ⟨fun hop => imset_identity hnow hserve hop, fun hop hcrypto => imset_attest hnow hserve hop hcrypto,
      fun c hcrypto hc => imset_fenced hnow hserve hcrypto hc, fun hop hcrypto => imset_sessionOpen hnow hserve hop hcrypto,
      fun hop => imset_sessionClose hnow hserve hop, fun e v hop hslot hsize => imset_updateWrite hnow hserve hop hslot hsize e,
      fun v hop hcrypto hslot => imset_updateVerify hnow hserve hop hcrypto hslot, fun hop => imset_ledgerRead hnow hserve hop,
      fun hop => imset_lifetimeRead hnow hserve hop⟩
  case waits =>
    intro r hstand hlive hwait hbehind honly hop
    exact Does.of_step (show exec _ s = execSessionClose t i s from rfl) hnow rfl (Dev.close_answers hstand hlive hwait hbehind honly hop)
  case expiry =>
    intro uart z hsession hpassed
    refine Does.of_step (n := d.setSession uart none) ((show exec _ s = execSessionExpiry t uart s from rfl).trans (execSessionExpiry_eq ..)) hnow ?_ ?_
    · exact d.sessionStep_of_passed hsession hpassed
    · rw [Dev.session, Dev.session, Dev.session, Dev.sec_setSession]
      cases uart <;> exact ⟨rfl, rfl⟩
  case frames =>
    intro f crc blown e
    have hdo : ∀ {P : Dev → Prop} {n : Dev}, d.frameStep f crc blown e = n → P n → Does s (.uartFrame t f crc blown e) P := fun hn hP =>
      Does.of_step ((show exec _ s = execUartFrame t f crc blown e s from rfl).trans (execUartFrame_eq ..)) hnow hn hP
    refine ⟨fun hnone => hdo (Dev.frameStep_of_none hnone) rfl, fun hfree hstart => ⟨fun hbad => ?_, fun hcrc hlength hlow hhigh => ?_⟩⟩
    · have hbad := badFrame_iff.mpr hbad
      have hk := Dev.bump_keeps d F.IMS_UART_bad_frames 0 (by decide)
      exact hdo (Dev.frameStep_of_bad hfree hstart hbad) ⟨hk.parts .sec (by decide), Dev.rd_bump _ F.IMS_UART_bad_frames 0 (by decide)⟩
    · have hgood : badFrame f crc = false := by
        rw [Bool.eq_false_iff, ne_eq, badFrame_iff]
        rintro (h | h | h | h)
        · exact h hcrc
        · exact h hlength
        · omega
        · omega
      refine ⟨fun hsilent => hdo (Dev.frameStep_of_silent hfree hstart hgood hsilent) rfl, fun hanswers hidle => ⟨fun hnone => ?_, fun hsome => ?_⟩⟩
      · exact hdo (Dev.frameStep_of_good hfree hstart hgood hanswers hidle) (Dev.arrives_free hnone)
      · exact hdo ((Dev.frameStep_of_good hfree hstart hgood hanswers hidle).trans (Dev.arrives_busy hsome)) ⟨rfl, _, rfl, rfl, rfl⟩

end Sys2Proof.Machine
end

section
/-! Flash: which of Imset's state a write leaves, and what the sectors hold after it (R346, R367). -/

namespace Sys2Proof.Machine

/-! ### What writing flash leaves -/

/-- Of Imset's state at most the flash and the times of its sectors change. -/
def Dev.FlashOnly (d e : Dev) : Prop := ∃ f s, e.sec = { d.sec with flash := f, sectorAt := s }

namespace Dev.FlashOnly

theorem refl (d : Dev) : d.FlashOnly d := ⟨_, _, rfl⟩

theorem trans {d e g : Dev} (h : d.FlashOnly e) (k : e.FlashOnly g) : d.FlashOnly g := by
  obtain ⟨f, s, h⟩ := h
  obtain ⟨f', s', k⟩ := k
  exact ⟨f', s', by rw [k, h]⟩

theorem touchSector (d : Dev) (n : Nat) : d.FlashOnly (d.touchSector n) := ⟨_, _, rfl⟩

theorem eraseSector (d : Dev) (n : Nat) : d.FlashOnly (d.eraseSector n) := ⟨_, _, rfl⟩

theorem copySector (d : Dev) (n m : Nat) : d.FlashOnly (d.copySector n m) := ⟨_, _, rfl⟩

theorem writeFlash (d : Dev) (a : Nat) (bs : List Byte) : d.FlashOnly (d.writeFlash a bs) := by
  have hwrite : ∀ f : Tbl Byte, d.FlashOnly (d.onSec fun k => { k with flash := f }) := fun f => ⟨f, _, rfl⟩
  unfold Dev.writeFlash
  dsimp only
  split
  · exact hwrite _
  · exact Dev.each_preserves (P := d.FlashOnly) (f := Dev.touchSector) (fun g n _ hg => hg.trans (touchSector g n)) _ (hwrite _)

theorem writeRing (d : Dev) (base place per : Nat) (bs : List Byte) : d.FlashOnly (d.writeRing base place per bs) := by
  unfold Dev.writeRing
  dsimp only
  split
  · exact (eraseSector d _).trans (writeFlash ..)
  · exact writeFlash ..

theorem storeDirectory (d : Dev) : d.FlashOnly d.storeDirectory := by
  unfold Dev.storeDirectory
  dsimp only
  generalize ([0, 1, 2].map fun k => (d.image k).byte) ++ digest ([0, 1, 2].map fun k => (d.image k).byte) = bs
  exact (writeFlash d 0 bs).trans (writeFlash _ 0x8000 bs)

end Dev.FlashOnly

/-! ### Sectors -/

theorem Dev.flashByte_eraseSector (d : Dev) (n y : Nat) : (d.eraseSector n).flashByte y = if y / 65536 = n then 0xFF else d.flashByte y := by
  refine (Tbl.get_filter flashReset (fun k => k / 65536 != n) d.sec.flash y).trans ?_
  by_cases h : y / 65536 = n
  · rw [if_pos h, if_neg (by simp [h])]
    rfl
  · rw [if_neg h, if_pos (bne_iff_ne.mpr h)]
    rfl

theorem Tbl.get_of_notMem {α : Type} (f : Nat → α) {t : Tbl α} {k : Nat} (h : ∀ e ∈ t, e.1 ≠ k) : Tbl.get f t k = f k := by
  induction t with
  | nil => rfl
  | cons a t ih =>
    obtain ⟨j, v⟩ := a
    rw [Tbl.get, if_neg fun hk => h (j, v) (.head _) hk.symm]
    exact ih fun e he => h e (.tail _ he)

theorem Tbl.wf_filter {α : Type} {f : Nat → α} {t : Tbl α} (h : Tbl.Wf f t) (p : Nat × α → Bool) : Tbl.Wf f (t.filter p) :=
  ⟨h.1.filter p, fun e he => h.2 e (List.mem_of_mem_filter he)⟩

/-- Writing the bytes of a sector into another one. -/
def sectorInto (m : Nat) (f : Tbl Byte) (t : Tbl Byte) : Tbl Byte := t.foldl (fun f e => Tbl.set flashReset f (65536 * m + e.1 % 65536) e.2) f

theorem sectorInto_wf (m : Nat) (t : Tbl Byte) : ∀ {f : Tbl Byte}, Tbl.Wf flashReset f → Tbl.Wf flashReset (sectorInto m f t) := by
  induction t with
  | nil => exact fun h => h
  | cons e t ih => exact fun h => ih (Tbl.wf_set h ..)

theorem get_sectorInto_apart {m y : Nat} (h : y / 65536 ≠ m) (t : Tbl Byte) : ∀ f : Tbl Byte,
    Tbl.get flashReset (sectorInto m f t) y = Tbl.get flashReset f y := by
  induction t with
  | nil => exact fun _ => rfl
  | cons e t ih =>
    intro f
    refine (ih _).trans ((Tbl.get_set ..).trans (if_neg ?_))
    omega

/-- A byte of the sector written into holds that of the sector taken, and its own where that holds none. -/
theorem get_sectorInto {n m j : Nat} (hj : j < 65536) {t : Tbl Byte} (hsorted : t.Pairwise fun a b => a.1 < b.1) (hin : ∀ e ∈ t, e.1 / 65536 = n) :
    ∀ f : Tbl Byte, Tbl.get flashReset (sectorInto m f t) (65536 * m + j) =
      Tbl.get (fun _ => Tbl.get flashReset f (65536 * m + j)) t (65536 * n + j) := by
  induction t with
  | nil => exact fun _ => rfl
  | cons e t ih =>
    obtain ⟨k, v⟩ := e
    intro f
    rw [List.pairwise_cons] at hsorted
    have hsector : k / 65536 = n := hin (k, v) (.head _)
    refine (ih hsorted.2 (fun e he => hin e (.tail _ he)) _).trans ?_
    rw [Tbl.get_set, Tbl.get]
    by_cases hk : 65536 * n + j = k
    · rw [if_pos hk, if_pos (by omega)]
      exact Tbl.get_of_notMem _ fun e he => by
        have := hsorted.1 e he
        omega
    · rw [if_neg hk, if_neg (by omega)]

theorem Dev.copySector_flash (d : Dev) (n m : Nat) : (d.copySector n m).sec.flash =
    sectorInto m (d.eraseSector m).sec.flash (d.sec.flash.filter fun e => e.1 / 65536 == n) := rfl

/-- A sector copied into another: the other holds the same bytes, and every other sector its own. -/
theorem Dev.flashByte_copySector {d : Dev} (hwf : Tbl.Wf flashReset d.sec.flash) (n m : Nat) :
    (∀ j, j < 65536 → (d.copySector n m).flashByte (65536 * m + j) = d.flashByte (65536 * n + j)) ∧
      ∀ y, y / 65536 ≠ m → (d.copySector n m).flashByte y = d.flashByte y := by
  constructor
  · intro j hj
    rw [Dev.flashByte, Dev.copySector_flash, get_sectorInto hj (hwf.1.filter _) fun e he => eq_of_beq (List.mem_filter.mp he).2]
    have herased : Tbl.get flashReset (d.eraseSector m).sec.flash (65536 * m + j) = 0xFF :=
      (d.flashByte_eraseSector m _).trans (if_pos (by omega))
    rw [herased]
    refine (Tbl.get_filter flashReset (fun k => k / 65536 == n) d.sec.flash _).trans (if_pos ?_)
    rw [beq_iff_eq]
    omega
  · intro y hy
    rw [Dev.flashByte, Dev.copySector_flash, get_sectorInto_apart hy]
    exact (d.flashByte_eraseSector m y).trans (if_neg hy)

theorem Dev.copySector_wf {d : Dev} (hwf : Tbl.Wf flashReset d.sec.flash) (n m : Nat) : Tbl.Wf flashReset (d.copySector n m).sec.flash := by
  rw [Dev.copySector_flash]
  exact sectorInto_wf _ _ (Tbl.wf_filter hwf _)

/-! ### The refresh of flash (R367) -/

/-- Imset notes in the scratch how far a refresh has come. -/
def Dev.markRefresh (d : Dev) (v : Option RefreshT) : Dev :=
  ((d.onSec fun k => { k with refreshing := v }).put F.IMS_STAT_refreshing 0 v.isSome).recordCalendar

theorem Dev.markRefresh_keeps (d : Dev) (v : Option RefreshT) : Keeps ⟨false, [F.IMS_STAT_refreshing], [.sec]⟩ d (d.markRefresh v) :=
  (((Dev.onSec_keeps d (fun k => { k with refreshing := v }) rfl rfl).within (by decide)).trans
    ((Dev.put_keeps _ F.IMS_STAT_refreshing 0 _ (by decide)).within (by decide))).trans ((Dev.recordCalendar_keeps _).within (by decide))

theorem Dev.markRefresh_shows (d : Dev) (v : Option RefreshT) : let n := d.markRefresh v
    n.sec.refreshing = v ∧ n.flag F.IMS_STAT_refreshing 0 = v.isSome ∧ n.sec.flash = d.sec.flash ∧ n.sec.sectorAt = d.sec.sectorAt ∧
      n.sec.uartIn = d.sec.uartIn := by
  refine ⟨rfl, ?_, rfl, rfl, rfl⟩
  exact ((Dev.recordCalendar_keeps _).flag F.IMS_STAT_refreshing 0 (by decide)).trans (Dev.flag_put _ F.IMS_STAT_refreshing _ _ (by decide) rfl)

/-- A sector taken back from the scratch. -/
def Dev.takeBack (d : Dev) (k : Nat) : Dev := ((d.copySector scratchSector k).touchSector k).bump F.IMS_REFRESH_sectors 0

section
variable {d : Dev} {k : Nat}

theorem Dev.refreshStep_of_none (h : d.sec.refreshing = none) :
    d.refreshStep k = (d.copySector k scratchSector).markRefresh (some { sector := k }) := by
  unfold Dev.refreshStep
  rw [h]
  rfl

theorem Dev.refreshStep_of_copied (h : d.sec.refreshing = some { sector := k, erased := false }) :
    d.refreshStep k = (d.eraseSector k).markRefresh (some { sector := k, erased := true }) := by
  unfold Dev.refreshStep
  rw [h]
  rfl

theorem Dev.refreshStep_of_erased (h : d.sec.refreshing = some { sector := k, erased := true }) : d.refreshStep k = (d.takeBack k).markRefresh none := by
  unfold Dev.refreshStep
  rw [h]
  rfl

/-- The first step: the sector stands in the scratch too. -/
theorem Dev.refresh_copies (h : d.sec.refreshing = none) (hk : k < 0x93) : let n := d.refreshStep k
    n.sec.refreshing = some { sector := k } ∧ n.flag F.IMS_STAT_refreshing 0 = true ∧ n.sec.uartIn = d.sec.uartIn ∧
      n.rd F.IMS_REFRESH_sectors 0 = d.rd F.IMS_REFRESH_sectors 0 ∧
      (Tbl.Wf flashReset d.sec.flash → Tbl.Wf flashReset n.sec.flash ∧ ∀ j, j < 65536 →
        n.flashByte (65536 * 0x93 + j) = d.flashByte (65536 * k + j) ∧ n.flashByte (65536 * k + j) = d.flashByte (65536 * k + j)) := by
  dsimp only
  rw [Dev.refreshStep_of_none h]
  obtain ⟨hmark, hflag, hflash, -, huart⟩ := (d.copySector k scratchSector).markRefresh_shows (some { sector := k })
  have hcount := (((d.copySector_keeps k scratchSector).within (by decide)).trans (Dev.markRefresh_keeps _ (some { sector := k }))).rd F.IMS_REFRESH_sectors 0 (by decide)
  refine ⟨hmark, hflag, huart, hcount, fun hwf => ⟨by rw [hflash]; exact Dev.copySector_wf hwf _ _, fun j hj => ?_⟩⟩
  obtain ⟨hcopied, hother⟩ := Dev.flashByte_copySector hwf k scratchSector
  rw [Dev.flashByte, Dev.flashByte, hflash]
  exact ⟨hcopied j hj, hother _ (by rw [scratchSector]; omega)⟩

/-- The second step: the sector is erased. -/
theorem Dev.refresh_erases (h : d.sec.refreshing = some { sector := k, erased := false }) (hk : k < 0x93) : let n := d.refreshStep k
    n.sec.refreshing = some { sector := k, erased := true } ∧ n.flag F.IMS_STAT_refreshing 0 = true ∧ n.sec.uartIn = d.sec.uartIn ∧
      n.rd F.IMS_REFRESH_sectors 0 = d.rd F.IMS_REFRESH_sectors 0 ∧
      (Tbl.Wf flashReset d.sec.flash → Tbl.Wf flashReset n.sec.flash) ∧
      ∀ j, j < 65536 → n.flashByte (65536 * k + j) = 0xFF ∧ n.flashByte (65536 * 0x93 + j) = d.flashByte (65536 * 0x93 + j) := by
  dsimp only
  rw [Dev.refreshStep_of_copied h]
  obtain ⟨hmark, hflag, hflash, -, huart⟩ := (d.eraseSector k).markRefresh_shows (some { sector := k, erased := true })
  have hcount := (((d.eraseSector_keeps k).within (by decide)).trans (Dev.markRefresh_keeps _ (some { sector := k, erased := true }))).rd F.IMS_REFRESH_sectors 0 (by decide)
  refine ⟨hmark, hflag, huart, hcount, fun hwf => by rw [hflash]; exact Tbl.wf_filter hwf _, fun j hj => ?_⟩
  rw [Dev.flashByte, Dev.flashByte, hflash]
  exact ⟨(d.flashByte_eraseSector k _).trans (if_pos (by omega)), (d.flashByte_eraseSector k _).trans (if_neg (by omega))⟩

/-- The sector is refreshed: how that shows. -/
def Dev.Refreshed (d : Dev) (k : Nat) (n : Dev) : Prop :=
  n.sec.refreshing = none ∧ n.flag F.IMS_STAT_refreshing 0 = false ∧ Tbl.get (fun _ => 0) n.sec.sectorAt k = d.calendar ∧
    n.rd F.IMS_REFRESH_sectors 0 = min (d.rd F.IMS_REFRESH_sectors 0 + 1) 65535

theorem Dev.takeBack_shows (d : Dev) (k : Nat) : let n := d.takeBack k
    n.rd F.IMS_REFRESH_sectors 0 = min (d.rd F.IMS_REFRESH_sectors 0 + 1) 65535 ∧ Tbl.get (fun _ => 0) n.sec.sectorAt k = d.calendar ∧
      n.sec.flash = (d.copySector scratchSector k).sec.flash ∧ n.sec.uartIn = d.sec.uartIn := by
  have hcopy := d.copySector_keeps scratchSector k
  have htouch := (d.copySector scratchSector k).touchSector_keeps k
  have hcal : (d.copySector scratchSector k).calendar = d.calendar := hcopy.rd64 F.PWR_CAL_LO F.PWR_CAL_HI 0 (by decide) (by decide)
  refine ⟨?_, ?_, rfl, rfl⟩
  · rw [Dev.takeBack, Dev.rd_bump _ F.IMS_REFRESH_sectors 0 (by decide), htouch.rd F.IMS_REFRESH_sectors 0 (by decide),
      hcopy.rd F.IMS_REFRESH_sectors 0 (by decide)]
    rfl
  · exact (Tbl.get_set ..).trans ((if_pos rfl).trans hcal)

/-- The third step: the sector holds what the scratch holds. -/
theorem Dev.refresh_ends (h : d.sec.refreshing = some { sector := k, erased := true }) (hk : k < 0x93) : let n := d.refreshStep k
    d.Refreshed k n ∧ n.sec.uartIn = d.sec.uartIn ∧
      (Tbl.Wf flashReset d.sec.flash → ∀ j, j < 65536 → n.flashByte (65536 * k + j) = d.flashByte (65536 * 0x93 + j) ∧
        n.flashByte (65536 * 0x93 + j) = d.flashByte (65536 * 0x93 + j)) := by
  dsimp only
  rw [Dev.refreshStep_of_erased h]
  obtain ⟨hcount, htime, hbytes, hwaits⟩ := d.takeBack_shows k
  generalize d.takeBack k = e at hcount htime hbytes hwaits ⊢
  obtain ⟨hmark, hflag, hflash, hsector, huart⟩ := e.markRefresh_shows none
  refine ⟨⟨hmark, hflag, by rw [hsector, htime], ?_⟩, huart.trans hwaits, fun hwf j hj => ?_⟩
  · exact ((e.markRefresh_keeps none).rd F.IMS_REFRESH_sectors 0 (by decide)).trans hcount
  · obtain ⟨hcopied, hother⟩ := Dev.flashByte_copySector hwf scratchSector k
    have hbyte : ∀ y, (e.markRefresh none).flashByte y = (d.copySector scratchSector k).flashByte y := fun y => by
      rw [Dev.flashByte, Dev.flashByte, hflash, hbytes]
    exact ⟨(hbyte _).trans (hcopied j hj), (hbyte _).trans (hother _ (by omega))⟩

theorem Dev.refreshStep_registers (d : Dev) (k : Nat) : (d.refreshStep k).calendar = d.calendar :=
  (d.refreshStep_keeps k).rd64 F.PWR_CAL_LO F.PWR_CAL_HI 0 (by decide) (by decide)

theorem Dev.refreshRest_of_none (h : d.sec.refreshing = none) (n : Nat) : d.refreshRest k n = d := by
  cases n with
  | zero => rfl
  | succ n => exact if_neg (by rw [h]; exact Bool.false_ne_true)

theorem Dev.refreshRest_of_some {r : RefreshT} (h : d.sec.refreshing = some r) (n : Nat) : d.refreshRest k (n + 1) = (d.refreshStep k).refreshRest k n :=
  if_pos (by rw [h]; rfl)

/-- A refresh of which the sector is erased ends. -/
theorem Dev.refreshRest_of_erased (h : d.sec.refreshing = some { sector := k, erased := true }) (hk : k < 0x93) (n : Nat) :
    d.refreshRest k (n + 1) = d.refreshStep k := by
  rw [Dev.refreshRest_of_some h]
  exact Dev.refreshRest_of_none (Dev.refresh_ends h hk).1.1 n

/-- From the copy on to the end. -/
theorem Dev.refresh_goesOn (h : d.sec.refreshing = some { sector := k, erased := false }) (hk : k < 0x93) : let n := d.refreshRest k 2
    d.Refreshed k n ∧ n.sec.uartIn = d.sec.uartIn ∧
      (Tbl.Wf flashReset d.sec.flash → ∀ j, j < 65536 → n.flashByte (65536 * k + j) = d.flashByte (65536 * 0x93 + j) ∧
        n.flashByte (65536 * 0x93 + j) = d.flashByte (65536 * 0x93 + j)) := by
  obtain ⟨hnext, -, huart, hsectors, hwf, hbytes⟩ := Dev.refresh_erases h hk
  have hcal := d.refreshStep_registers k
  dsimp only
  rw [Dev.refreshRest_of_some h, Dev.refreshRest_of_erased (n := 0) hnext hk]
  generalize d.refreshStep k = e at hnext huart hsectors hwf hbytes hcal ⊢
  obtain ⟨⟨hnone, hflag, htime, hcount⟩, hwaits, hback⟩ := Dev.refresh_ends hnext hk
  refine ⟨⟨hnone, hflag, htime.trans hcal, by rw [hcount, hsectors]⟩, hwaits.trans huart, fun hwell j hj => ?_⟩
  obtain ⟨h1, h2⟩ := hback (hwf hwell) j hj
  rw [h1, h2, (hbytes j hj).2]
  exact ⟨rfl, rfl⟩

end

end Sys2Proof.Machine
end

section
/-! The freshness journal: what a record writes, and that of every receive value (R361). -/

namespace Sys2Proof.Machine

theorem numBytes_length (n k : Nat) : (numBytes n k).length = k := by rw [numBytes, List.length_map, List.length_range]

/-- Pieces of one length set end to end. -/
theorem getD_flatMap_range {α : Type} {g : Nat → List α} {m : Nat} (hg : ∀ k, (g k).length = m) (z : α) {n l j : Nat} (hl : l < n) (hj : j < m) :
    ((List.range n).flatMap g).getD (m * l + j) z = (g l).getD j z := by
  have hlength : ∀ n, ((List.range n).flatMap g).length = m * n := fun n => by
    rw [List.length_flatMap, List.map_congr_left fun k _ => hg k, List.map_const', List.length_range, List.sum_replicate, smul_eq_mul, Nat.mul_comm]
  induction n with
  | zero => exact absurd hl (Nat.not_lt_zero l)
  | succ n ih =>
    rw [List.range_succ, List.flatMap_append, List.flatMap_singleton]
    rcases Nat.lt_or_ge l n with hlt | hge
    · have hle : m * (l + 1) ≤ m * n := Nat.mul_le_mul_left m hlt
      rw [List.getD_append _ _ _ _ (by rw [hlength]; rw [Nat.mul_succ] at hle; omega), ih hlt]
    · obtain rfl : l = n := by omega
      rw [List.getD_append_right _ _ _ _ (by rw [hlength]; omega), hlength, Nat.add_sub_cancel_left]

theorem Dev.journalRecord_length (d : Dev) (l : Nat) : (d.journalRecord l).length = 16 := by
  rw [Dev.journalRecord, List.length_append, numBytes_length, numBytes_length]

/-- The sector of the journal after a record is written. -/
def Dev.journalAfter (d : Dev) (err : Bool) : Nat := if err then (d.sec.journalSector + 1) % 4 else d.sec.journalSector

/-- The device about to write a record: where a write failed, the next sector is in use. -/
def Dev.journalReady (d : Dev) (err : Bool) : Dev :=
  if err then (d.flashError err).onSec fun k => { k with journalSector := (k.journalSector + 1) % 4 } else d.flashError err

/-- What is written, and how far into the sector. -/
def Dev.journalBytes (d : Dev) (l : Nat) (err : Bool) : List Byte := if err then (List.range 256).flatMap d.journalRecord else d.journalRecord l

def journalPlace (l : Nat) (err : Bool) : Nat := if err then 0 else 16 * l

theorem Dev.writeJournal_eq (d : Dev) (l : Nat) (err : Bool) : d.writeJournal l err =
    ((d.journalReady err).writeFlash (0x8E0000 + 65536 * (d.journalReady err).sec.journalSector + journalPlace l err)
      ((d.journalReady err).journalBytes l err)).recordCalendar := by
  cases err <;> rfl

theorem Dev.journalReady_keeps (d : Dev) (err : Bool) : Keeps ⟨false, [F.IMS_STAT_flash_err, F.FLT_STAT_lost, F.FLT_LOST], [.sec, .flt]⟩ d (d.journalReady err) := by
  have herror : Keeps ⟨false, [F.IMS_STAT_flash_err, F.FLT_STAT_lost, F.FLT_LOST], [.sec, .flt]⟩ d (d.flashError err) :=
    (d.flashError_keeps err).within (by decide)
  exact Keeps.ite (fun _ => herror.trans ((Dev.onSec_keeps _ _ rfl rfl).within (by decide))) fun _ => herror

theorem Dev.journalReady_sec (d : Dev) (err : Bool) : (d.journalReady err).sec = { d.sec with journalSector := d.journalAfter err } := by
  have hsec : (d.flashError err).sec = d.sec := (d.flashError_keeps err).parts .sec (by decide)
  cases err with
  | false => exact hsec
  | true => exact congrArg (fun k : Sec => { k with journalSector := (k.journalSector + 1) % 4 }) hsec

theorem Dev.flashError_shows (d : Dev) : (d.flashError true).flag F.IMS_STAT_flash_err 0 = true :=
  ((Dev.report_keeps ..).flag F.IMS_STAT_flash_err 0 (by decide)).trans (Dev.flag_put _ F.IMS_STAT_flash_err _ _ (by decide) rfl)

theorem Dev.journalReady_flag (d : Dev) : (d.journalReady true).flag F.IMS_STAT_flash_err 0 = true := d.flashError_shows

/-- Once a record is written: what of Imset's state has changed, and what the journal holds. -/
theorem Dev.writeJournal_shows (d : Dev) {l : Nat} (hl : l < 256) (err : Bool) : let n := d.writeJournal l err
    (∃ f s, n.sec = { d.sec with flash := f, sectorAt := s, calOffset := max d.sec.calOffset d.calendar, journalSector := d.journalAfter err }) ∧
      (err = true → n.flag F.IMS_STAT_flash_err 0 = true) ∧
      (∀ j, j < 16 → n.flashByte (0x8E0000 + 65536 * d.journalAfter err + 16 * l + j) = (d.journalRecord l).getD j 0) ∧
      (err = false → d.sec.journalSector < 4 → ∀ y, y < 0x8E0000 ∨ 0x920000 ≤ y → n.flashByte y = d.flashByte y) := by
  have hsec := d.journalReady_sec err
  have hcal : (d.journalReady err).calendar = d.calendar :=
    (d.journalReady_keeps err).rd64 F.PWR_CAL_LO F.PWR_CAL_HI 0 (by decide) (by decide)
  have hflag : err = true → (d.journalReady err).flag F.IMS_STAT_flash_err 0 = true := fun h => by rw [h, d.journalReady_flag]
  have hrecord : (d.journalReady err).journalRecord = d.journalRecord := funext fun k => by rw [Dev.journalRecord, Dev.journalRecord, hsec]
  have hflash : ∀ y, (d.journalReady err).flashByte y = d.flashByte y := fun y => by rw [Dev.flashByte, Dev.flashByte, hsec]
  dsimp only
  rw [Dev.writeJournal_eq]
  generalize d.journalReady err = e at hsec hcal hflag hrecord hflash ⊢
  have hsector : e.sec.journalSector = d.journalAfter err := by rw [hsec]
  rw [hsector]
  have hbytes := e.flashByte_writeFlash (0x8E0000 + 65536 * d.journalAfter err + journalPlace l err) (e.journalBytes l err)
  obtain ⟨f, s, hwrite⟩ := Dev.FlashOnly.writeFlash e (0x8E0000 + 65536 * d.journalAfter err + journalPlace l err) (e.journalBytes l err)
  have hk := e.writeFlash_keeps (0x8E0000 + 65536 * d.journalAfter err + journalPlace l err) (e.journalBytes l err)
  have hlength : (e.journalBytes l err).length = if err then 4096 else 16 := by
    cases err with
    | false => exact e.journalRecord_length l
    | true =>
      refine List.length_flatMap.trans ?_
      rw [List.map_congr_left fun k _ => e.journalRecord_length k, List.map_const', List.length_range, List.sum_replicate]
      rfl
  have hholds : ∀ j, j < 16 → (e.journalBytes l err).getD (16 * l + j - journalPlace l err) 0 = (d.journalRecord l).getD j 0 := by
    intro j hj
    rw [← hrecord]
    cases err with
    | false =>
      rw [show 16 * l + j - journalPlace l false = j from Nat.add_sub_cancel_left (16 * l) j]
      rfl
    | true => exact getD_flatMap_range e.journalRecord_length 0 hl hj
  generalize e.writeFlash (0x8E0000 + 65536 * d.journalAfter err + journalPlace l err) (e.journalBytes l err) = n at hbytes hwrite hk ⊢
  have hcalendar : n.calendar = d.calendar := (hk.rd64 F.PWR_CAL_LO F.PWR_CAL_HI 0 (by decide) (by decide)).trans hcal
  have hplace : journalPlace l err ≤ 16 * l ∧ 16 * l + 16 ≤ journalPlace l err + (e.journalBytes l err).length := by
    rw [hlength, journalPlace]
    cases err with
    | false => exact ⟨le_refl _, le_refl _⟩
    | true => exact ⟨Nat.zero_le _, by rw [if_pos rfl, if_pos rfl]; omega⟩
  refine ⟨⟨f, s, ?_⟩, fun h => (hk.flag F.IMS_STAT_flash_err 0 (by decide)).trans (hflag h), fun j hj => ?_, fun h hsector y hy => ?_⟩
  · change { n.sec with calOffset := max n.sec.calOffset n.calendar } = _
    rw [hcalendar, hwrite, hsec]
  · refine (hbytes _).trans ((if_pos ⟨by omega, by omega⟩).trans ?_)
    rw [← hholds j hj]
    congr 1
    omega
  · subst h
    refine (hbytes y).trans ((if_neg ?_).trans (hflash y))
    rw [hlength, if_neg Bool.false_ne_true, Dev.journalAfter, if_neg Bool.false_ne_true, journalPlace, if_neg Bool.false_ne_true]
    omega

/-! ### The values of a flow -/

theorem Keeps.fvRx {w : Foot} {d e : Dev} (h : Keeps w d e) (h1 : w.avoids F.FL_FV_RX_LO = true) (h2 : w.avoids F.FL_FV_RX_HI = true) (l : Nat) :
    e.fvRx l = d.fvRx l := h.rd64 F.FL_FV_RX_LO F.FL_FV_RX_HI l h1 h2

/-- A flow's receive value taken for the journal. -/
def Dev.takeValue (d : Dev) (l : Nat) : Dev :=
  d.onSec fun k => { k with rxValue := Tbl.set (fun _ => 0) k.rxValue l (d.fvRx l), rxAt := Tbl.set (fun _ => 0) k.rxAt l d.time }

/-- A flow's transmit mark renewed. -/
def Dev.renewMark (d : Dev) (l : Nat) : Dev :=
  d.onSec fun k => { k with txMark := Tbl.set (fun _ => 0) k.txMark l (Tbl.get (fun _ => 0) d.sec.txMark l + 2 ^ 24) }

theorem Dev.takeValue_keeps (d : Dev) (l : Nat) : Keeps ⟨false, [], [.sec]⟩ d (d.takeValue l) := Dev.onSec_keeps _ _ rfl rfl

theorem Dev.renewMark_keeps (d : Dev) (l : Nat) : Keeps ⟨false, [], [.sec]⟩ d (d.renewMark l) := Dev.onSec_keeps _ _ rfl rfl

theorem Dev.journalRx_eq (d : Dev) (l : Nat) (err : Bool) : d.journalRx l err =
    if d.flag F.FL_CFG_enable l && d.rd F.FL_CFG_dir l == 1 then (d.takeValue l).writeJournal l err else d := rfl

theorem Dev.journalTx_eq (d : Dev) (l : Nat) (err : Bool) : d.journalTx l err =
    if d.flag F.FL_CFG_enable l && d.rd F.FL_CFG_dir l == 2 && Nat.ble (Tbl.get (fun _ => 0) d.sec.txMark l) (d.fvTx l) then
      (d.renewMark l).writeJournal l err else d := rfl

/-! ### Every receive value is journalled -/

/-- What journalling receive values leaves of Imset's state. -/
def Dev.ValuesOnly (d e : Dev) : Prop :=
  ∃ f s c v a, e.sec = { d.sec with flash := f, sectorAt := s, calOffset := c, rxValue := v, rxAt := a }

theorem Dev.ValuesOnly.trans {d e g : Dev} (h : d.ValuesOnly e) (k : e.ValuesOnly g) : d.ValuesOnly g := by
  obtain ⟨f, s, c, v, a, h⟩ := h
  obtain ⟨f', s', c', v', a', k⟩ := k
  exact ⟨f', s', c', v', a', by rw [k, h]⟩

/-- The bytes of flash outside the journal are the same. -/
def Dev.OutsideJournal (d e : Dev) : Prop := d.sec.journalSector < 4 → ∀ y, y < 0x8E0000 ∨ 0x920000 ≤ y → e.flashByte y = d.flashByte y

theorem Dev.takeValue_written (d : Dev) {l : Nat} (hl : l < 256) : let n := (d.takeValue l).writeJournal l false
    d.ValuesOnly n ∧ d.OutsideJournal n ∧ ∀ k, Tbl.get (fun _ => 0) n.sec.rxValue k = if k = l then d.fvRx l else Tbl.get (fun _ => 0) d.sec.rxValue k := by
  obtain ⟨⟨f, s, hsec⟩, -, -, houtside⟩ := (d.takeValue l).writeJournal_shows hl false
  refine ⟨⟨f, s, _, _, _, hsec⟩, fun hsector y hy => houtside rfl hsector y hy, fun k => ?_⟩
  rw [hsec]
  exact Tbl.get_set ..

theorem Dev.journalRx_values (d : Dev) {l : Nat} (hl : l < 256) : let n := d.journalRx l false
    d.ValuesOnly n ∧ d.OutsideJournal n ∧ (∀ k, k ≠ l → Tbl.get (fun _ => 0) n.sec.rxValue k = Tbl.get (fun _ => 0) d.sec.rxValue k) ∧
      (d.flag F.FL_CFG_enable l = true → d.rd F.FL_CFG_dir l = 1 → Tbl.get (fun _ => 0) n.sec.rxValue l = d.fvRx l) := by
  obtain ⟨honly, houtside, hvalue⟩ := d.takeValue_written hl
  dsimp only
  rw [Dev.journalRx_eq]
  split
  · exact ⟨honly, houtside, fun k hk => (hvalue k).trans (if_neg hk), fun _ _ => (hvalue l).trans (if_pos rfl)⟩
  · next hnot => exact ⟨⟨_, _, _, _, _, rfl⟩, fun _ _ _ => rfl, fun _ _ => rfl, fun hon hdir => absurd (by rw [hon, hdir]; rfl) hnot⟩

/-- So far only receive values have been journalled. -/
structure Dev.Journals (d e : Dev) : Prop where
  keeps : Keeps ⟨false, [F.IMS_STAT_flash_err, F.FLT_STAT_lost, F.FLT_LOST], [.sec, .flt]⟩ d e
  values : d.ValuesOnly e
  outside : d.OutsideJournal e

theorem Dev.Journals.next {d e : Dev} (h : d.Journals e) {l : Nat} (hl : l < 256) : d.Journals (e.journalRx l false) := by
  obtain ⟨hkeeps, hvalues, houtside⟩ := h
  obtain ⟨hvalues', houtside', -⟩ := e.journalRx_values hl
  have hsector : e.sec.journalSector = d.sec.journalSector := by
    obtain ⟨f, s, c, v, a, hsec⟩ := hvalues
    rw [hsec]
  refine ⟨hkeeps.trans (e.journalRx_keeps l false), hvalues.trans hvalues', fun hlow y hy => ?_⟩
  rw [houtside' (hsector ▸ hlow) y hy, houtside hlow y hy]

theorem Dev.journalAll_journals (d : Dev) : d.Journals d.journalAll := by
  refine Dev.each_preserves (P := d.Journals) (f := fun d l => d.journalRx l false)
    (fun e l hl h => h.next (List.mem_range.mp hl)) _ ⟨.refl _ _, ⟨_, _, _, _, _, rfl⟩, fun _ _ _ => rfl⟩

theorem Dev.journalAll_value (d : Dev) (l : Fin 256) (hon : d.flag F.FL_CFG_enable l = true) (hdir : d.rd F.FL_CFG_dir l = 1) :
    Tbl.get (fun _ => 0) d.journalAll.sec.rxValue l = d.fvRx l := by
  have hvalue : ∀ e : Dev, d.Journals e → Tbl.get (fun _ => 0) (e.journalRx l false).sec.rxValue l = d.fvRx l := fun e he => by
    obtain ⟨-, -, -, htaken⟩ := e.journalRx_values l.isLt
    have hset := htaken ((he.keeps.flag F.FL_CFG_enable l (by decide)).trans hon) ((he.keeps.rd F.FL_CFG_dir l (by decide)).trans hdir)
    rw [hset, he.keeps.fvRx (by decide) (by decide)]
  unfold Dev.journalAll
  have hboth := Dev.each_reaches_of (I := d.Journals) (P := fun e => d.Journals e ∧ Tbl.get (fun _ => 0) e.sec.rxValue l = d.fvRx l)
    (f := fun d l => d.journalRx l false) (List.mem_range.mpr l.isLt) (fun e k hk he => he.next (List.mem_range.mp hk))
    (fun e he => ⟨he.next l.isLt, hvalue e he⟩)
    (fun e k hk he => ⟨he.1.next (List.mem_range.mp hk), ?_⟩) d ⟨.refl _ _, ⟨_, _, _, _, _, rfl⟩, fun _ _ _ => rfl⟩
  · exact hboth.2
  · obtain ⟨-, -, hother, -⟩ := e.journalRx_values (List.mem_range.mp hk)
    by_cases hkl : (l : Nat) = k
    · subst hkl
      exact hvalue e he.1
    · rw [hother _ hkl, he.2]

end Sys2Proof.Machine
end

section
/-! Secure boot: the images that a boot finds, and a boot without them (R349, R351, R352). -/

namespace Sys2Proof.Machine

/-! ### The images in flash -/

/-- The images in flash, the counters and the keys are the same: flash sector 0 holds the directory alone. -/
structure Dev.SameImages (d e : Dev) : Prop where
  bytes : ∀ y, 65536 ≤ y → e.flashByte y = d.flashByte y
  counters : e.sec.counters = d.sec.counters
  enrolled : e.sec.enrolled = d.sec.enrolled

namespace Dev.SameImages
variable {d e g : Dev}

theorem of_sec (h : e.sec = d.sec) : d.SameImages e := ⟨fun y _ => by rw [Dev.flashByte, Dev.flashByte, h], by rw [h], by rw [h]⟩

theorem trans (h : d.SameImages e) (k : e.SameImages g) : d.SameImages g :=
  ⟨fun y hy => (k.bytes y hy).trans (h.bytes y hy), k.counters.trans h.counters, k.enrolled.trans h.enrolled⟩

theorem imgBytes (h : d.SameImages e) (kind : Nat) (b : Bool) (k n : Nat) : e.imgBytes kind b k n = d.imgBytes kind b k n := by
  refine List.map_congr_left fun j _ => h.bytes _ ?_
  have := slotBase_ge kind b
  omega

theorem imgNum (h : d.SameImages e) (kind : Nat) (b : Bool) (k n : Nat) : e.imgNum kind b k n = d.imgNum kind b k n :=
  congrArg bytesNum (h.imgBytes kind b k n)

theorem imgLength (h : d.SameImages e) (kind : Nat) (b : Bool) : e.imgLength kind b = d.imgLength kind b := h.imgNum ..

theorem imgVersion (h : d.SameImages e) (kind : Nat) (b : Bool) : e.imgVersion kind b = d.imgVersion kind b := h.imgNum ..

theorem signedPart (h : d.SameImages e) (kind : Nat) (b : Bool) : e.signedPart kind b = d.signedPart kind b := by
  rw [Dev.signedPart, Dev.signedPart, h.imgLength, h.imgBytes]

theorem counter (h : d.SameImages e) (c : Nat) : e.counter c = d.counter c := by rw [Dev.counter, Dev.counter, h.counters]

theorem signerKey (h : d.SameImages e) (kind : Nat) : e.signerKey kind = d.signerKey kind := by
  rw [Dev.signerKey, Dev.signerKey, Dev.integratorKey, Dev.integratorKey, h.counter, Dev.enrolled, Dev.enrolled, h.enrolled]

theorem verifyImage (h : d.SameImages e) (kind : Nat) (b : Bool) : e.verifyImage kind b = d.verifyImage kind b := by
  have hlegal : e.headerLegal kind b = d.headerLegal kind b := by
    rw [Dev.headerLegal, Dev.headerLegal, h.imgVersion, h.imgLength]
    simp only [h.imgNum]
  rw [Dev.verifyImage, Dev.verifyImage, hlegal, h.signerKey, h.signedPart, h.imgLength, h.imgBytes, h.imgVersion, h.counter]

theorem setImage (d : Dev) (kind : Nat) (v : ImgT) : d.SameImages (d.setImage kind v) := by
  refine ⟨fun y hy => d.flashByte_setImage kind v hy, ?_, ?_⟩
  all_goals
    rw [Dev.setImage_eq]
    split
    · rfl
    · obtain ⟨f, s, h⟩ := Dev.FlashOnly.storeDirectory (d.withImage kind v)
      rw [h]
      rfl

end Dev.SameImages

theorem Dev.setImage_measured (d : Dev) (kind : Nat) (v : ImgT) : (d.setImage kind v).sec.measured = d.sec.measured := by
  rw [Dev.setImage_eq]
  split
  · rfl
  · obtain ⟨f, s, h⟩ := Dev.FlashOnly.storeDirectory (d.withImage kind v)
    rw [h]
    rfl

/-! ### One image -/

/-- A failed trial is reported. -/
def Dev.reportTrial (d : Dev) (failed : Bool) (kind : Nat) : Dev := if failed then d.imsetReport 2 kind else d

theorem Dev.reportTrial_keeps (d : Dev) (failed : Bool) (kind : Nat) : Keeps ⟨false, [F.FLT_STAT_lost, F.FLT_LOST], [.flt]⟩ d (d.reportTrial failed kind) :=
  Keeps.ite (fun _ => d.imsetReport_keeps 2 kind) fun _ => .refl _ _

section
variable {d : Dev} {kind : Nat}

theorem Dev.bootSlot_none (h : ∀ v, d.verifyImage kind v ≠ Code.OK) : d.bootSlot kind = none := by
  have hbad : ∀ v, (d.verifyImage kind v == Code.OK) = false := fun v => beq_eq_false_iff_ne.mpr (h v)
  unfold Dev.bootSlot
  simp only [hbad, Bool.and_false, Bool.false_eq_true, if_false]
  split
  · rfl
  · rfl

/-- No image of a kind verifies: none is measured. -/
theorem Dev.bootImage_none (h : ∀ v, d.verifyImage kind v ≠ Code.OK) : let n := d.bootImage kind
    d.SameImages n ∧ n.sec.measured = d.sec.measured ∧ Keeps ⟨false, [F.FLT_STAT_lost, F.FLT_LOST], [.sec, .flt]⟩ d n := by
  have hboot : ∃ failed, d.bootImage kind = (d.reportTrial failed kind).setImage kind { d.image kind with trial := none } := by
    unfold Dev.bootImage
    rw [Dev.bootSlot_none h]
    exact ⟨_, rfl⟩
  obtain ⟨failed, hboot⟩ := hboot
  have hreport := d.reportTrial_keeps failed kind
  have hsec : (d.reportTrial failed kind).sec = d.sec := hreport.parts .sec (by decide)
  dsimp only
  rw [hboot]
  refine ⟨(Dev.SameImages.of_sec hsec).trans (.setImage ..), ?_, (hreport.within (by decide)).trans ((Dev.setImage_keeps ..).within (by decide))⟩
  rw [Dev.setImage_measured, hsec]

/-- The image of a kind is measured and shown. -/
def Dev.selectImage (d : Dev) (kind : Nat) (v : ImgT) (b trial : Bool) : Dev :=
  let h := digest (d.signedPart kind b)
  let d := (d.setImage kind v).onSec fun k => { k with measured := Tbl.set (fun _ => []) k.measured kind h }
  let d := (d.put F.SEC_IMG_active kind b).put F.SEC_IMG_trial kind trial
  d.wr F.SEC_IMG_version kind (d.imgVersion kind b)

theorem Dev.bootImage_first (himage : d.image kind = {}) (h : d.verifyImage kind false = Code.OK) :
    d.bootImage kind = d.selectImage kind { beenA := true } false false := by
  have hslot : d.bootSlot kind = some (false, false) := by
    unfold Dev.bootSlot
    rw [himage]
    simp only [h, beq_self_eq_true, if_true]
  unfold Dev.bootImage
  rw [hslot, himage]
  rfl

theorem Dev.selectImage_shows (d : Dev) (kind : Nat) (v : ImgT) (b trial : Bool) : let n := d.selectImage kind v b trial
    d.SameImages n ∧ n.rd F.SEC_IMG_version kind = d.imgVersion kind b % 1024 ∧
      ∀ k, Tbl.get (fun _ => []) n.sec.measured k = if k = kind then digest (d.signedPart kind b) else Tbl.get (fun _ => []) d.sec.measured k := by
  have hset := Dev.SameImages.setImage d kind v
  have hmeasured := d.setImage_measured kind v
  dsimp only
  unfold Dev.selectImage
  generalize d.setImage kind v = e at hset hmeasured ⊢
  refine ⟨⟨hset.bytes, hset.counters, hset.enrolled⟩, ?_, fun k => ?_⟩
  · refine (Dev.rd_wr _ F.SEC_IMG_version _ _ (by decide)).trans ?_
    exact congrArg (· % 1024) (hset.imgVersion kind b)
  · change Tbl.get (fun _ => []) (Tbl.set (fun _ => []) e.sec.measured kind (digest (d.signedPart kind b))) k = _
    rw [Tbl.get_set, hmeasured]

theorem Dev.bootImage_devState (d : Dev) (kind : Nat) : (d.bootImage kind).devState = d.devState :=
  (d.bootImage_keeps kind).rd F.DEV_STATE_state 0 (by decide)

end

/-! ### The whole boot -/

theorem Dev.bootStore_images (d : Dev) : d.SameImages d.bootStore := .of_sec (d.bootStore_keeps.parts .sec (by decide))

theorem Dev.readDirectory_images (d : Dev) : d.SameImages d.readDirectory := ⟨fun _ _ => rfl, rfl, rfl⟩

/-- The device as the ROM selects the first image. -/
def Dev.bootReady (d : Dev) : Dev := d.bootStore.readDirectory

theorem Dev.bootReady_images (d : Dev) : d.SameImages d.bootReady := d.bootStore_images.trans d.bootStore.readDirectory_images

theorem Dev.bootReady_measured (d : Dev) : d.bootReady.sec.measured = d.sec.measured := by
  have hsec : d.bootStore.sec = d.sec := d.bootStore_keeps.parts .sec (by decide)
  exact (congrArg Sec.measured hsec :)

theorem Dev.bootReady_devState (d : Dev) : d.bootReady.devState = d.devState :=
  (d.bootStore.readDirectory_keeps.rd F.DEV_STATE_state 0 (by decide)).trans (d.bootStore_keeps.rd F.DEV_STATE_state 0 (by decide))

/-- No copy of the directory is sound: every image is taken as new. -/
theorem Dev.bootReady_image {d : Dev} (h : ∀ a ∈ directoryCopies, d.directoryAt a = none) (kind : Nat) : d.bootReady.image kind = {} := by
  have hsame : d.bootStore.sec = d.sec := d.bootStore_keeps.parts .sec (by decide)
  have hbytes : ∀ a n, d.bootStore.flashBytes a n = d.flashBytes a n := fun a n => by
    rw [Dev.flashBytes, Dev.flashBytes]
    simp only [Dev.flashByte, hsame]
  have hread : d.bootStore.directoryAt = d.directoryAt := funext fun a => by
    rw [Dev.directoryAt, Dev.directoryAt, hbytes, hbytes]
  have hnone : directoryCopies.findSome? d.bootStore.directoryAt = none := by
    rw [hread, List.findSome?_eq_none_iff]
    exact h
  rw [Dev.bootReady, Dev.readDirectory, hnone]
  rfl

/-- What SECURE_BOOT does. -/
def Dev.bootStep (d : Dev) : Dev :=
  if d.pw.held ∨ d.rd F.IMS_STAT_state 0 ≠ 1 then d
  else if (Tbl.get (fun _ => []) (d.bootReady.bootImage 0).sec.measured 0).isEmpty then (d.bootReady.bootImage 0).wr F.IMS_STAT_state 0 3
  else (d.bootReady.bootImage 0).bootRest

theorem execSecureBoot_eq (t : Nat) (s : State) : execSecureBoot t s = effect t s Dev.bootStep := rfl

section
variable {d : Dev} (hlive : d.pw.held = false) (hstate : d.rd F.IMS_STAT_state 0 = 1)
include hlive hstate

theorem Dev.bootStep_of_rom : d.bootStep = if (Tbl.get (fun _ => []) (d.bootReady.bootImage 0).sec.measured 0).isEmpty then
    (d.bootReady.bootImage 0).wr F.IMS_STAT_state 0 3 else (d.bootReady.bootImage 0).bootRest :=
  if_neg (by rw [hlive, hstate]; simp)

/-- Imset's firmware does not verify: the ROM stays at its state. -/
theorem Dev.bootStep_fails (hmeasured : Tbl.get (fun _ => []) d.sec.measured 0 = []) (hbad : ∀ v, d.verifyImage 0 v ≠ Code.OK) : let n := d.bootStep
    n.rd F.IMS_STAT_state 0 = 3 ∧ n.devState = d.devState := by
  obtain ⟨-, hsame, -⟩ := Dev.bootImage_none (d := d.bootReady) (kind := 0) fun v => by rw [d.bootReady_images.verifyImage]; exact hbad v
  have hempty : (Tbl.get (fun _ => []) (d.bootReady.bootImage 0).sec.measured 0).isEmpty = true := by
    rw [hsame, d.bootReady_measured, hmeasured]
    rfl
  have hdev := (Dev.bootImage_devState d.bootReady 0).trans d.bootReady_devState
  dsimp only
  rw [Dev.bootStep_of_rom hlive hstate, if_pos hempty]
  generalize d.bootReady.bootImage 0 = e at hdev ⊢
  exact ⟨Dev.rd_wr_of_lt _ F.IMS_STAT_state _ (by decide) (by decide),
    ((Dev.wr_keeps e F.IMS_STAT_state 0 3 (by decide)).rd F.DEV_STATE_state 0 (by decide)).trans hdev⟩

end

/-- The ledger and the freshness values return. -/
def Dev.restored (d : Dev) : Dev := d.restoreFresh.restoreLedger

theorem Dev.restored_keeps (d : Dev) : Keeps ⟨false, [F.FL_FV_TX_LO, F.FL_FV_TX_HI, F.FL_FV_RX_LO, F.FL_FV_RX_HI, F.IMS_STAT_ledger_queue, F.FLT_STAT_lost,
    F.FLT_STAT_unflushed, F.FLT_LOST], [.sec, .flt]⟩ d d.restored :=
  (d.restoreFresh_keeps.within (by decide)).trans (d.restoreFresh.restoreLedger_keeps.within (by decide))

theorem Dev.restoreLedger_eq (d : Dev) : ∃ v, d.restoreLedger = (d.withFlt v).showUnflushed.checkChain := ⟨_, rfl⟩

theorem Dev.restored_eq (d : Dev) : d.restoreFresh.restoreLedger = d.restored := rfl

theorem Dev.restoreLedger_sec (d : Dev) : d.restoreLedger.sec = { d.sec with chainOk := (brokenLink d.sec.ledger).isNone } := by
  obtain ⟨v, hledger⟩ := d.restoreLedger_eq
  have hslots : (d.withFlt v).showUnflushed.sec = d.sec := (Dev.showUnflushed_keeps _).parts .sec (by decide)
  rw [hledger, Dev.checkChain_shows, hslots]

theorem Dev.restored_sec (d : Dev) : d.restored.sec = { d.sec with chainOk := (brokenLink d.sec.ledger).isNone } := by
  have hfresh : d.restoreFresh.sec = d.sec := d.restoreFresh_keeps.parts .sec (by decide)
  rw [← Dev.restored_eq, Dev.restoreLedger_sec, hfresh]

theorem Dev.bootRest_eq (d : Dev) (h1 : ((d.wr F.IMS_STAT_state 0 2).bootImage 1).slotInUse 1 = none)
    (h2 : (((d.wr F.IMS_STAT_state 0 2).bootImage 1).restored.bootImage 2).slotInUse 2 = none) :
    d.bootRest = (((d.wr F.IMS_STAT_state 0 2).bootImage 1).restored.bootImage 2).bootToSetup := by
  unfold Dev.bootRest
  dsimp only
  rw [h1]
  dsimp only
  rw [Dev.restored_eq, h2]

theorem Dev.slotInUse_none {d : Dev} {kind : Nat} (h : Tbl.get (fun _ => []) d.sec.measured kind = []) : d.slotInUse kind = none := by
  rw [Dev.slotInUse, h]
  rfl

theorem Dev.bootToSetup_of_boot {d : Dev} (h : d.devState = DevSt.boot) : d.bootToSetup.devState = DevSt.setup := by
  rw [Dev.bootToSetup, if_pos h]
  exact Dev.rd_wr_of_lt _ F.DEV_STATE_state _ (by decide) (by decide)

/-- Imset's firmware runs, and neither safety firmware nor a configuration does: the boot ends in SETUP. -/
theorem Dev.bootRest_shows {d : Dev} (h1 : Tbl.get (fun _ => []) d.sec.measured 1 = []) (h2 : Tbl.get (fun _ => []) d.sec.measured 2 = [])
    (hbad : ∀ v, d.verifyImage 1 v ≠ Code.OK ∧ d.verifyImage 2 v ≠ Code.OK) : let n := d.bootRest
    n.rd F.IMS_STAT_state 0 = 2 ∧ n.sec.measured = d.sec.measured ∧ n.rd F.SEC_IMG_version 0 = d.rd F.SEC_IMG_version 0 ∧
      (d.devState = DevSt.boot → n.devState = DevSt.setup) := by
  have hrun := Dev.wr_keeps d F.IMS_STAT_state 0 2 (by decide)
  have hshown : (d.wr F.IMS_STAT_state 0 2).rd F.IMS_STAT_state 0 = 2 := Dev.rd_wr_of_lt _ F.IMS_STAT_state _ (by decide) (by decide)
  have himages : d.SameImages (d.wr F.IMS_STAT_state 0 2) := .of_sec rfl
  have hmeasured : (d.wr F.IMS_STAT_state 0 2).sec.measured = d.sec.measured := rfl
  have hrest := Dev.bootRest_eq d
  generalize d.wr F.IMS_STAT_state 0 2 = e at hrun hshown himages hmeasured hrest
  obtain ⟨himages1, hmeasured1, hk1⟩ := Dev.bootImage_none (d := e) (kind := 1) fun v => by rw [himages.verifyImage]; exact (hbad v).1
  generalize e.bootImage 1 = e1 at himages1 hmeasured1 hk1 hrest
  have hrestored := e1.restored_keeps
  have hsec := e1.restored_sec
  have himages2 : e1.SameImages e1.restored := ⟨fun y _ => by rw [Dev.flashByte, Dev.flashByte, hsec], by rw [hsec], by rw [hsec]⟩
  have hmeasured2 : e1.restored.sec.measured = e1.sec.measured := by rw [hsec]
  generalize e1.restored = e2 at hrestored hsec himages2 hmeasured2 hrest
  obtain ⟨-, hmeasured3, hk3⟩ := Dev.bootImage_none (d := e2) (kind := 2) fun v => by
    rw [himages2.verifyImage, himages1.verifyImage, himages.verifyImage]
    exact (hbad v).2
  generalize e2.bootImage 2 = e3 at hmeasured3 hk3 hrest
  have hsame : e3.sec.measured = d.sec.measured := hmeasured3.trans (hmeasured2.trans (hmeasured1.trans hmeasured))
  have hend := e3.bootToSetup_keeps
  have hsetup := Dev.bootToSetup_of_boot (d := e3)
  dsimp only
  rw [hrest (Dev.slotInUse_none (by rw [hmeasured1, hmeasured, h1])) (Dev.slotInUse_none (by rw [hsame, h2]))]
  generalize e3.bootToSetup = n at hend hsetup ⊢
  refine ⟨?_, ?_, ?_, fun h => hsetup ?_⟩
  · rw [hend.rd F.IMS_STAT_state 0 (by decide), hk3.rd F.IMS_STAT_state 0 (by decide), hrestored.rd F.IMS_STAT_state 0 (by decide),
      hk1.rd F.IMS_STAT_state 0 (by decide), hshown]
  · rw [show n.sec = e3.sec from hend.parts .sec (by decide), hsame]
  · rw [hend.rd F.SEC_IMG_version 0 (by decide), hk3.rd F.SEC_IMG_version 0 (by decide), hrestored.rd F.SEC_IMG_version 0 (by decide),
      hk1.rd F.SEC_IMG_version 0 (by decide), hrun.rd F.SEC_IMG_version 0 (by decide)]
  · rw [Dev.devState, hk3.rd F.DEV_STATE_state 0 (by decide), hrestored.rd F.DEV_STATE_state 0 (by decide), hk1.rd F.DEV_STATE_state 0 (by decide),
      hrun.rd F.DEV_STATE_state 0 (by decide)]
    exact h

section
variable {d : Dev} (hlive : d.pw.held = false) (hstate : d.rd F.IMS_STAT_state 0 = 1) (hdirectory : ∀ a ∈ directoryCopies, d.directoryAt a = none)
  (hmeasured : ∀ k : Fin 3, Tbl.get (fun _ => []) d.sec.measured k = [])
include hlive hstate hdirectory hmeasured

/-- No directory, and the image in slot A verifies. -/
theorem Dev.bootStep_first (hgood : d.verifyImage 0 false = Code.OK) (hbad : ∀ v, d.verifyImage 1 v ≠ Code.OK ∧ d.verifyImage 2 v ≠ Code.OK) :
    let n := d.bootStep
    n.rd F.IMS_STAT_state 0 = 2 ∧ Tbl.get (fun _ => []) n.sec.measured 0 = digest (d.signedPart 0 false) ∧
      n.rd F.SEC_IMG_version 0 = d.imgVersion 0 false % 1024 ∧ (d.devState = DevSt.boot → n.devState = DevSt.setup) := by
  have himages := d.bootReady_images
  have hfirst := Dev.bootImage_first (Dev.bootReady_image hdirectory 0) (by rw [himages.verifyImage, hgood])
  have hdev := (Dev.bootImage_devState d.bootReady 0).trans d.bootReady_devState
  obtain ⟨himages', hversion, hmeasure⟩ := d.bootReady.selectImage_shows 0 { beenA := true } false false
  rw [hfirst] at hdev
  dsimp only
  rw [Dev.bootStep_of_rom hlive hstate, hfirst]
  rw [himages.imgVersion] at hversion
  have hfilled : ∀ k, Tbl.get (fun _ => []) (d.bootReady.selectImage 0 { beenA := true } false false).sec.measured k =
      if k = 0 then digest (d.signedPart 0 false) else Tbl.get (fun _ => []) d.sec.measured k := fun k => by
    rw [hmeasure, himages.signedPart, d.bootReady_measured]
  have hsame := himages.trans himages'
  generalize d.bootReady.selectImage 0 { beenA := true } false false = e at hdev hversion hfilled hsame ⊢
  have hsome : ¬ (Tbl.get (fun _ => []) e.sec.measured 0).isEmpty = true := by
    rw [hfilled, if_pos rfl, List.isEmpty_iff, ← List.length_eq_zero_iff, digest_length]
    decide
  obtain ⟨hruns, hkept, hshown, hsetup⟩ := Dev.bootRest_shows (d := e) ((hfilled 1).trans ((if_neg (by decide)).trans (hmeasured 1)))
    ((hfilled 2).trans ((if_neg (by decide)).trans (hmeasured 2))) fun v => by
      rw [hsame.verifyImage, hsame.verifyImage]
      exact hbad v
  rw [if_neg hsome]
  exact ⟨hruns, by rw [hkept, hfilled, if_pos rfl], hshown.trans hversion, fun hboot => hsetup (hdev.trans hboot)⟩

/-- No directory, and the image in slot A does not verify: the ROM stays at its state. -/
theorem Dev.bootStep_none (hbad : d.verifyImage 0 false ≠ Code.OK) : d.bootStep.rd F.IMS_STAT_state 0 = 3 := by
  have hslot : d.bootReady.bootSlot 0 = none := by
    unfold Dev.bootSlot
    rw [Dev.bootReady_image hdirectory]
    simp [d.bootReady_images.verifyImage, hbad]
  have hboot : d.bootReady.bootImage 0 = d.bootReady := by
    unfold Dev.bootImage
    rw [hslot, Dev.bootReady_image hdirectory]
    exact (d.bootReady.setImage_eq 0 _).trans (if_pos (Dev.bootReady_image hdirectory 0).symm)
  have hempty : (Tbl.get (fun _ => []) d.bootReady.sec.measured 0).isEmpty = true := by
    rw [d.bootReady_measured]
    exact List.isEmpty_iff.mpr (hmeasured 0)
  rw [Dev.bootStep_of_rom hlive hstate, hboot, if_pos hempty]
  exact Dev.rd_wr_of_lt _ F.IMS_STAT_state _ (by decide) (by decide)

end

end Sys2Proof.Machine
end

section
/-! What Imset does on its own: the seal at boot, the reset of an update, journals, ledger, lifetime and refresh (R352, R361, R365 to R367, R400). -/

namespace Sys2Proof.Machine

/-! ### The seal at boot (R352) -/

/-- What BOOT_SEAL_REQUEST does. -/
def Dev.bootSealStep (d : Dev) : Dev :=
  if d.sec.sealDue ∧ d.devState = DevSt.boot ∧ (d.flag F.SC_FW_ready 0 = true ∨ 120000000 ≤ d.time) then d.sealRequest .imset else d

theorem execBootSealRequest_eq (t : Nat) (s : State) : execBootSealRequest t s = effect t s Dev.bootSealStep := rfl

/-! ### The reset of an update (R361, R363) -/

/-- The device about to be reset: receive values have been journalled where Imset runs. -/
def Dev.beforeReset (d : Dev) : Dev := if d.imsetRuns then d.tick.journalAll else d.tick

/-- What ACTIVATE_RESET does. -/
def Dev.activateStep (d : Dev) : Dev :=
  match d.sec.resetAt with
  | some r => if r ≤ d.time ∧ d.devState ≠ DevSt.safe then d.beforeReset.deviceReset d.free.toNat false else d
  | none => d

theorem execActivateReset_eq (t : Nat) (s : State) : execActivateReset t s = effect t s Dev.activateStep := rfl

theorem Dev.activateStep_of_safe {d : Dev} (h : d.devState = DevSt.safe) : d.activateStep = d := by
  unfold Dev.activateStep
  split
  · exact if_neg fun hc => hc.2 h
  · rfl

theorem Dev.activateStep_of_due {d : Dev} {r : Nat} (hreset : d.sec.resetAt = some r) (hdue : r ≤ d.time) (hsafe : d.devState ≠ DevSt.safe) :
    d.activateStep = d.beforeReset.deviceReset d.free.toNat false := by
  unfold Dev.activateStep
  rw [hreset]
  exact if_pos ⟨hdue, hsafe⟩

/-- What every reset that leaves the AOI island keeps of Imset's state and of the calendar. -/
theorem Dev.deviceReset_keeps (d : Dev) (cause : Nat) : let n := d.deviceReset cause false
    n.pw.held = true ∧ n.clockOn = false ∧ n.time = 0 ∧ n.devState = DevSt.boot ∧ n.sec = d.renewed.sec ∧
      n.rd64 F.PWR_CAL_LO F.PWR_CAL_HI 0 = d.calendar := by
  have hwords := d.renewed.resetWords_keeps d cause
  have hcalendar := (d.renewed.resetWords d cause).keepCalendar_keeps d
  have hsleep := ((d.renewed.resetWords d cause).keepCalendar d).keepSleep_keeps d
  obtain ⟨hshown, -⟩ := (d.renewed.resetWords d cause).keepCalendar_shows d
  dsimp only
  rw [Dev.deviceReset_eq, if_neg Bool.false_ne_true, Dev.keepAoi_eq]
  refine ⟨rfl, rfl, rfl, ?_, ?_, ?_⟩
  · rw [Dev.devState, hsleep.rd F.DEV_STATE_state 0 (by decide), hcalendar.rd F.DEV_STATE_state 0 (by decide),
      hwords.rd F.DEV_STATE_state 0 (by decide), Dev.rd_renewed]
    decide
  · exact (hsleep.parts .sec (by decide)).trans ((hcalendar.parts .sec (by decide)).trans (hwords.parts .sec (by decide)))
  · rw [hsleep.rd64 _ _ 0 (by decide) (by decide), hshown]

theorem Dev.beforeReset_shows (d : Dev) : let e := d.beforeReset
    e.calendar = d.calendar ∧ e.sec.counters = d.sec.counters ∧ e.sec.enrolled = d.sec.enrolled ∧ e.sec.ledger = d.sec.ledger ∧
      (d.imsetRuns = false → e.sec.flash = d.sec.flash ∧ e.sec.rxValue = d.sec.rxValue) ∧
      (d.imsetRuns = true →
        (∀ l : Fin 256, d.flag F.FL_CFG_enable l = true → d.rd F.FL_CFG_dir l = 1 → Tbl.get (fun _ => 0) e.sec.rxValue l = d.fvRx l) ∧
        d.OutsideJournal e) := by
  dsimp only
  cases hruns : d.imsetRuns with
  | false =>
    have hready : d.beforeReset = d.tick := if_neg (by rw [hruns]; exact Bool.false_ne_true)
    rw [hready]
    exact ⟨rfl, rfl, rfl, rfl, fun _ => ⟨rfl, rfl⟩, fun h => absurd h Bool.false_ne_true⟩
  | true =>
    have hready : d.beforeReset = d.tick.journalAll := if_pos hruns
    have hcal : d.tick.calendar = d.calendar := rfl
    have hsec : d.tick.sec = d.sec := rfl
    obtain ⟨hkeeps, ⟨f, s, c, v, a, hvalues⟩, houtside⟩ := d.tick.journalAll_journals
    have hvalue := d.tick.journalAll_value
    rw [hready]
    generalize d.tick.journalAll = e at hkeeps hvalues houtside hvalue ⊢
    rw [hsec] at hvalues
    refine ⟨(hkeeps.rd64 F.PWR_CAL_LO F.PWR_CAL_HI 0 (by decide) (by decide)).trans hcal, by rw [hvalues], by rw [hvalues], by rw [hvalues],
      fun h => absurd h.symm Bool.false_ne_true, fun _ => ⟨hvalue, houtside⟩⟩

/-! ### The freshness journal (R361) -/

/-- What FRESHNESS_JOURNAL does. -/
def Dev.journalStep (d : Dev) (x : JournalInput) : Dev :=
  if d.imsetRuns = false then d
  else
    let l := x.flow.val
    let d := d.journalTx l x.err
    (if d.fvRx l ≠ Tbl.get (fun _ => 0) d.sec.rxValue l ∧ Tbl.get (fun _ => 0) d.sec.rxAt l + 480000000000 ≤ d.time then
      d.journalRx l x.err
    else d).uartTurn

theorem execFreshnessJournal_eq (t : Nat) (x : JournalInput) (s : State) : execFreshnessJournal t x s = effect t s fun d => d.journalStep x := rfl

/-- A record of flow l in its journal: what it holds, and where. -/
def Dev.JournalHolds (d n : Dev) (l : Fin 256) (err : Bool) : Prop :=
  n.sec.journalSector = d.journalAfter err ∧ (err = true → n.flag F.IMS_STAT_flash_err 0 = true) ∧
    (∀ j : Fin 16, n.flashByte (0x8E0000 + 65536 * d.journalAfter err + 16 * l + j) =
      (numBytes (Tbl.get (fun _ => 0) n.sec.txMark l) 8 ++ numBytes (Tbl.get (fun _ => 0) n.sec.rxValue l) 8).getD j 0) ∧
    n.sec.calOffset = max d.sec.calOffset d.calendar

theorem Dev.writeJournal_holds (d : Dev) (l : Fin 256) (err : Bool) : d.JournalHolds (d.writeJournal l err) l err := by
  obtain ⟨⟨f, s, hsec⟩, hflag, hbytes, -⟩ := d.writeJournal_shows l.isLt err
  refine ⟨by rw [hsec], hflag, fun j => ?_, by rw [hsec]⟩
  rw [hbytes j j.isLt, hsec]
  rfl

theorem Dev.journalTx_due {d : Dev} {l : Nat} (hon : d.flag F.FL_CFG_enable l = true) (hdir : d.rd F.FL_CFG_dir l = 2)
    (hmark : Tbl.get (fun _ => 0) d.sec.txMark l ≤ d.fvTx l) (err : Bool) : d.journalTx l err = (d.renewMark l).writeJournal l err := by
  have hdue : (d.flag F.FL_CFG_enable l && d.rd F.FL_CFG_dir l == 2 && Nat.ble (Tbl.get (fun _ => 0) d.sec.txMark l) (d.fvTx l)) = true := by
    rw [Bool.and_eq_true, Bool.and_eq_true]
    exact ⟨⟨hon, beq_iff_eq.mpr hdir⟩, Nat.ble_eq_true_of_le hmark⟩
  rw [d.journalTx_eq l err]
  exact if_pos hdue

theorem Sec.uartIn_txMark (k : Sec) (v : Tbl Nat) : ({ k with txMark := v } : Sec).uartIn = k.uartIn := rfl

theorem Dev.renewMark_uartIn (d : Dev) (l : Nat) : (d.renewMark l).sec.uartIn = d.sec.uartIn := Sec.uartIn_txMark ..

theorem Dev.calendar_onSec (d : Dev) (g : Sec → Sec) : (d.onSec g).calendar = d.calendar := rfl

/-- What a record shows rests on the sector, the calendar and its offset before it. -/
theorem Dev.JournalHolds.of_same {d e n : Dev} {l : Fin 256} {err : Bool} (h : e.JournalHolds n l err) (hsector : e.sec.journalSector = d.sec.journalSector)
    (hoffset : e.sec.calOffset = d.sec.calOffset) (hcal : e.calendar = d.calendar) : d.JournalHolds n l err := by
  have hafter : e.journalAfter err = d.journalAfter err := by rw [Dev.journalAfter, Dev.journalAfter, hsector]
  rw [Dev.JournalHolds, hafter, hoffset, hcal] at h
  exact h

theorem Sec.journal_txMark (k : Sec) (v : Tbl Nat) : ({ k with txMark := v } : Sec).journalSector = k.journalSector ∧
    ({ k with txMark := v } : Sec).calOffset = k.calOffset := ⟨rfl, rfl⟩

theorem Sec.journal_rxValue (k : Sec) (v a : Tbl Nat) : ({ k with rxValue := v, rxAt := a } : Sec).journalSector = k.journalSector ∧
    ({ k with rxValue := v, rxAt := a } : Sec).calOffset = k.calOffset := ⟨rfl, rfl⟩

theorem Dev.renewMark_holds (d : Dev) (l : Fin 256) (err : Bool) : d.JournalHolds ((d.renewMark l).writeJournal l err) l err := by
  obtain ⟨hsector, hoffset⟩ : (d.renewMark l).sec.journalSector = d.sec.journalSector ∧ (d.renewMark l).sec.calOffset = d.sec.calOffset :=
    Sec.journal_txMark ..
  exact ((d.renewMark l).writeJournal_holds l err).of_same hsector hoffset (d.calendar_onSec _)

theorem Dev.takeValue_holds (d : Dev) (l : Fin 256) (err : Bool) : d.JournalHolds ((d.takeValue l).writeJournal l err) l err := by
  obtain ⟨hsector, hoffset⟩ : (d.takeValue l).sec.journalSector = d.sec.journalSector ∧ (d.takeValue l).sec.calOffset = d.sec.calOffset :=
    Sec.journal_rxValue ..
  exact ((d.takeValue l).writeJournal_holds l err).of_same hsector hoffset (d.calendar_onSec _)

theorem Dev.txMark_onSec (d : Dev) (v : Sec → Tbl Nat) : (d.onSec fun k => { k with txMark := v k }).sec.txMark = v d.sec := rfl

theorem Dev.renewMark_mark (d : Dev) (l : Nat) : Tbl.get (fun _ => 0) (d.renewMark l).sec.txMark l = Tbl.get (fun _ => 0) d.sec.txMark l + 2 ^ 24 := by
  rw [Dev.renewMark, Dev.txMark_onSec, Tbl.get_set, if_pos rfl]

section
variable {d : Dev} {l : Fin 256} {err : Bool} (hruns : d.imsetRuns = true) (hidle : d.sec.uartIn = []) (hon : d.flag F.FL_CFG_enable l = true)
include hruns hidle hon

theorem Dev.journalStep_sends (hdir : d.rd F.FL_CFG_dir l = 2) (hmark : Tbl.get (fun _ => 0) d.sec.txMark l ≤ d.fvTx l) :
    d.journalStep ⟨l, err⟩ = (d.renewMark l).writeJournal l err := by
  have htx := Dev.journalTx_due hon hdir hmark err
  have hk : Keeps ⟨false, [F.IMS_STAT_flash_err, F.FLT_STAT_lost, F.FLT_LOST], [.sec, .flt]⟩ d ((d.renewMark l).writeJournal l err) :=
    ((d.renewMark_keeps l).within (by decide)).trans ((d.renewMark l).writeJournal_keeps l err)
  obtain ⟨⟨f, s, hsec⟩, -⟩ := (d.renewMark l).writeJournal_shows l.isLt err
  have huart : ((d.renewMark l).writeJournal l err).sec.uartIn = [] := by
    rw [hsec]
    exact (d.renewMark_uartIn l).trans hidle
  unfold Dev.journalStep
  rw [if_neg (by rw [hruns]; decide)]
  dsimp only
  rw [htx]
  generalize (d.renewMark l).writeJournal l err = e at hk huart ⊢
  have hnot : e.journalRx l err = e := by
    rw [Dev.journalRx_eq, hk.rd F.FL_CFG_dir l (by decide), hdir]
    exact if_neg (by simp)
  rw [hnot, ite_self, Dev.uartTurn_of_idle huart]

theorem Dev.journalStep_receives (hdir : d.rd F.FL_CFG_dir l = 1) (hnew : d.fvRx l ≠ Tbl.get (fun _ => 0) d.sec.rxValue l)
    (hlate : Tbl.get (fun _ => 0) d.sec.rxAt l + 480000000000 ≤ d.time) : d.journalStep ⟨l, err⟩ = (d.takeValue l).writeJournal l err := by
  have htx : d.journalTx l err = d := by
    rw [Dev.journalTx_eq, hdir]
    exact if_neg (by simp)
  have hrx : d.journalRx l err = (d.takeValue l).writeJournal l err := by
    rw [Dev.journalRx_eq, hon, hdir]
    exact if_pos rfl
  obtain ⟨⟨f, s, hsec⟩, -⟩ := (d.takeValue l).writeJournal_shows l.isLt err
  unfold Dev.journalStep
  rw [if_neg (by rw [hruns]; decide)]
  dsimp only
  rw [htx, if_pos ⟨hnew, hlate⟩, hrx]
  exact Dev.uartTurn_of_idle (by rw [hsec]; exact hidle)

end

/-! ### The refresh (R367) -/

/-- A refresh begins or goes on. -/
def Dev.refreshBegun (d : Dev) (err : Bool) : Dev := (d.flashError err).onSec fun k => { k with refreshAt := some d.time }

/-- What FLASH_REFRESH does. -/
def Dev.refreshAct (d : Dev) (k : Nat) (x : RefreshInput) : Dev :=
  if d.mayRefresh k then
    (if x.done then ((d.refreshBegun x.err).refreshStep k).refreshRest k 2 else (d.refreshBegun x.err).refreshStep k).uartTurn
  else d

theorem execFlashRefresh_eq (t k : Nat) (x : RefreshInput) (s : State) : execFlashRefresh t k x s = effect t s fun d => d.refreshAct k x := rfl

theorem Dev.refreshBegun_shows (d : Dev) (err : Bool) : let e := d.refreshBegun err
    e.sec.refreshing = d.sec.refreshing ∧ e.sec.flash = d.sec.flash ∧ e.sec.uartIn = d.sec.uartIn ∧ e.calendar = d.calendar ∧
      e.rd F.IMS_REFRESH_sectors 0 = d.rd F.IMS_REFRESH_sectors 0 := by
  have hk := d.flashError_keeps err
  have hsec : (d.flashError err).sec = d.sec := hk.parts .sec (by decide)
  exact ⟨(congrArg Sec.refreshing hsec :), (congrArg Sec.flash hsec :), (congrArg Sec.uartIn hsec :),
    hk.rd64 F.PWR_CAL_LO F.PWR_CAL_HI 0 (by decide) (by decide), hk.rd F.IMS_REFRESH_sectors 0 (by decide)⟩

theorem Dev.mayRefresh_early {d : Dev} {r : Nat} (hnone : d.sec.refreshing = none) (hat : d.sec.refreshAt = some r) (hearly : d.time < r + 8000000000)
    (k : Nat) : d.mayRefresh k = false := by
  have hrest : Nat.ble (r + 8000000000) d.time = false := by
    rw [Bool.eq_false_iff, ne_eq, Nat.ble_eq]
    omega
  unfold Dev.mayRefresh
  rw [hnone, hat]
  dsimp only
  rw [hrest, Bool.and_false, Bool.and_false]

section
variable {d : Dev} {k : Nat} (hruns : d.imsetRuns = true) (hk : k < 0x93)
include hruns hk

theorem Dev.mayRefresh_goesOn {r : RefreshT} (h : d.sec.refreshing = some r) (hr : r.sector = k) : d.mayRefresh k = true := by
  have hlow : Nat.blt k flashSectors = true := Nat.blt_eq.mpr hk
  unfold Dev.mayRefresh
  rw [h, hruns, hlow]
  exact beq_iff_eq.mpr hr

theorem Dev.mayRefresh_new (h : d.sec.refreshing = none) (hrested : ∀ r, d.sec.refreshAt = some r → r + 8000000000 ≤ d.time) :
    d.mayRefresh k = Nat.ble Config.refreshAge (d.calendar - Tbl.get (fun _ => 0) d.sec.sectorAt k) := by
  have hlow : Nat.blt k flashSectors = true := Nat.blt_eq.mpr hk
  unfold Dev.mayRefresh
  dsimp only
  rw [h, hruns, hlow]
  cases hat : d.sec.refreshAt with
  | none => exact Bool.and_true _
  | some r =>
    dsimp only
    rw [Nat.ble_eq.mpr (hrested r hat), Bool.and_true, Bool.true_and, Bool.and_true]

end

/-- How a device shows a refreshed sector, told from the device before. -/
theorem Dev.Refreshed.of_begun {d e n : Dev} {k : Nat} (h : e.Refreshed k n) (hcal : e.calendar = d.calendar)
    (hcount : e.rd F.IMS_REFRESH_sectors 0 = d.rd F.IMS_REFRESH_sectors 0) : d.Refreshed k n := by
  obtain ⟨hnone, hflag, htime, hsectors⟩ := h
  exact ⟨hnone, hflag, htime.trans hcal, hsectors.trans (by rw [hcount])⟩

section
variable {d : Dev} {k : Nat} {x : RefreshInput} (hmay : d.mayRefresh k = true)
include hmay

theorem Dev.refreshAct_of_may (huart : (if x.done then ((d.refreshBegun x.err).refreshStep k).refreshRest k 2
    else (d.refreshBegun x.err).refreshStep k).sec.uartIn = []) : d.refreshAct k x =
      if x.done then ((d.refreshBegun x.err).refreshStep k).refreshRest k 2 else (d.refreshBegun x.err).refreshStep k :=
  (if_pos hmay).trans (Dev.uartTurn_of_idle huart)

variable (hidle : d.sec.uartIn = []) (hk : k < 0x93)
include hidle hk

/-- A refresh begins: the sector stands in the scratch, and where the command goes to the end it is refreshed. -/
theorem Dev.refreshAct_begins (hnone : d.sec.refreshing = none) : let n := d.refreshAct k x
    (Tbl.Wf flashReset d.sec.flash → ∀ j, j < 65536 → n.flashByte (65536 * 0x93 + j) = d.flashByte (65536 * k + j) ∧
      n.flashByte (65536 * k + j) = d.flashByte (65536 * k + j)) ∧
      (x.done = true → d.Refreshed k n) ∧
      (x.done = false → n.sec.refreshing = some { sector := k } ∧ n.flag F.IMS_STAT_refreshing 0 = true) := by
  obtain ⟨hrefreshing, hflash, huart, hcal, hcount⟩ := d.refreshBegun_shows x.err
  have hact := Dev.refreshAct_of_may (x := x) hmay
  dsimp only
  generalize d.refreshBegun x.err = e at hrefreshing hflash huart hcal hcount hact
  have hbyte : ∀ y, e.flashByte y = d.flashByte y := fun y => by rw [Dev.flashByte, Dev.flashByte, hflash]
  obtain ⟨hcopied, hflag, huart', hcount', hbytes⟩ := Dev.refresh_copies (hrefreshing.trans hnone) hk
  have hcal' := e.refreshStep_registers k
  generalize e.refreshStep k = g at hcopied hflag huart' hcount' hbytes hcal' hact
  rw [hflash] at hbytes
  cases hdone : x.done with
  | false =>
    rw [hdone, if_neg Bool.false_ne_true] at hact
    rw [hact (by rw [huart', huart, hidle])]
    refine ⟨fun hwf j hj => ?_, fun h => absurd h Bool.false_ne_true, fun _ => ⟨hcopied, hflag⟩⟩
    rw [← hbyte]
    exact (hbytes hwf).2 j hj
  | true =>
    obtain ⟨hends, huart'', hback⟩ := Dev.refresh_goesOn hcopied hk
    rw [hdone, if_pos rfl] at hact
    rw [hact (by rw [huart'', huart', huart, hidle])]
    refine ⟨fun hwf j hj => ?_, fun _ => hends.of_begun (hcal'.trans hcal) (hcount'.trans hcount), fun h => absurd h.symm Bool.false_ne_true⟩
    obtain ⟨hwf', hcopy⟩ := hbytes hwf
    obtain ⟨h1, h2⟩ := hback hwf' j hj
    obtain ⟨h3, -⟩ := hcopy j hj
    rw [h1, h2, h3, hbyte]
    exact ⟨rfl, rfl⟩

/-- A refresh goes on from the copy. -/
theorem Dev.refreshAct_erases (h : d.sec.refreshing = some { sector := k, erased := false }) : let n := d.refreshAct k x
    (x.done = true → d.Refreshed k n) ∧
      (x.done = false → n.sec.refreshing = some { sector := k, erased := true } ∧ n.flag F.IMS_STAT_refreshing 0 = true ∧
        ∀ j, j < 65536 → n.flashByte (65536 * k + j) = 0xFF ∧ n.flashByte (65536 * 0x93 + j) = d.flashByte (65536 * 0x93 + j)) := by
  obtain ⟨hrefreshing, hflash, huart, hcal, hcount⟩ := d.refreshBegun_shows x.err
  have hact := Dev.refreshAct_of_may (x := x) hmay
  dsimp only
  generalize d.refreshBegun x.err = e at hrefreshing hflash huart hcal hcount hact
  have hbyte : ∀ y, e.flashByte y = d.flashByte y := fun y => by rw [Dev.flashByte, Dev.flashByte, hflash]
  obtain ⟨herased, hflag, huart', hcount', -, hbytes⟩ := Dev.refresh_erases (hrefreshing.trans h) hk
  have hcal' := e.refreshStep_registers k
  generalize e.refreshStep k = g at herased hflag huart' hcount' hbytes hcal' hact
  cases hdone : x.done with
  | false =>
    rw [hdone, if_neg Bool.false_ne_true] at hact
    rw [hact (by rw [huart', huart, hidle])]
    refine ⟨fun h => absurd h Bool.false_ne_true, fun _ => ⟨herased, hflag, fun j hj => ?_⟩⟩
    rw [← hbyte]
    exact hbytes j hj
  | true =>
    obtain ⟨hends, huart'', -⟩ := Dev.refresh_ends herased hk
    rw [hdone, if_pos rfl, Dev.refreshRest_of_erased herased hk] at hact
    rw [hact (by rw [huart'', huart', huart, hidle])]
    exact ⟨fun _ => hends.of_begun (hcal'.trans hcal) (hcount'.trans hcount), fun h => absurd h.symm Bool.false_ne_true⟩

/-- A refresh ends: the sector is written back. -/
theorem Dev.refreshAct_ends (h : d.sec.refreshing = some { sector := k, erased := true }) : let n := d.refreshAct k x
    d.Refreshed k n ∧ (Tbl.Wf flashReset d.sec.flash → ∀ j, j < 65536 → n.flashByte (65536 * k + j) = d.flashByte (65536 * 0x93 + j)) := by
  obtain ⟨hrefreshing, hflash, huart, hcal, hcount⟩ := d.refreshBegun_shows x.err
  have hact := Dev.refreshAct_of_may (x := x) hmay
  dsimp only
  generalize d.refreshBegun x.err = e at hrefreshing hflash huart hcal hcount hact
  have hbyte : ∀ y, e.flashByte y = d.flashByte y := fun y => by rw [Dev.flashByte, Dev.flashByte, hflash]
  obtain ⟨hends, huart', hback⟩ := Dev.refresh_ends (hrefreshing.trans h) hk
  generalize e.refreshStep k = g at hends huart' hback hact
  rw [Dev.refreshRest_of_none hends.1, ite_self] at hact
  rw [hact (by rw [huart', huart, hidle])]
  refine ⟨hends.of_begun hcal hcount, fun hwf j hj => ?_⟩
  rw [← hbyte]
  exact (hback (by rw [hflash]; exact hwf) j hj).1

end

/-! ### The flash ledger (R365) -/

/-- An entry as it goes to flash. -/
def Dev.chained (d : Dev) (e : Entry) : Entry := { e with chain := chainTag e d.newestTag, flushed := true }

/-- The flash ledger with one more entry. -/
def Sec.withEntry (s : Sec) (place : Nat) (w : Entry) : Sec :=
  { s with ledger := (if s.ledger.length < 4096 then s.ledger else s.ledger.drop 1) ++ [w], flashed := s.flashed + 1,
           ledgerNext := (place + 1) % 16384 }

/-- The entry stands in its slot and in the flash ledger. -/
def Dev.withFlushed (d : Dev) (k : Nat) (w : Entry) (err : Bool) : Dev :=
  ((d.flashError err).setSlot k (some w)).onSec fun s => s.withEntry (ringPlace d.sec.ledgerNext 2048 16384 err) w

theorem Dev.flushSlot_of_unflushed {d : Dev} {k : Nat} {e : Entry} (hslot : d.slot k = some e) (hnew : e.flushed = false) (err : Bool) :
    d.flushSlot k err = ((d.withFlushed k (d.chained e) err).writeRing 0x810000 (ringPlace d.sec.ledgerNext 2048 16384 err) 2048
      ((d.chained e).words.flatMap wordBytes)).showUnflushed := by
  unfold Dev.flushSlot
  rw [hslot]
  exact if_neg (by rw [hnew]; exact Bool.false_ne_true)

theorem Dev.slot_setSlot (d : Dev) (k : Nat) (v : Option Entry) : (d.setSlot k v).slot k = v := by
  rw [Dev.slot]
  exact (Tbl.get_set (fun _ => none) d.flt.slots k k v).trans (if_pos rfl)

theorem Dev.withFlushed_shows (d : Dev) (k : Nat) (w : Entry) (err : Bool) : let n := d.withFlushed k w err
    n.sec = d.sec.withEntry (ringPlace d.sec.ledgerNext 2048 16384 err) w ∧ n.slot k = some w ∧
      (err = true → n.flag F.IMS_STAT_flash_err 0 = true) := by
  have hsec : (d.flashError err).sec = d.sec := (d.flashError_keeps err).parts .sec (by decide)
  have hflag : err = true → (d.flashError err).flag F.IMS_STAT_flash_err 0 = true := fun h => by rw [h, d.flashError_shows]
  unfold Dev.withFlushed
  generalize d.flashError err = e at hsec hflag ⊢
  exact ⟨congrArg (fun s : Sec => s.withEntry (ringPlace d.sec.ledgerNext 2048 16384 err) w) hsec, e.slot_setSlot k (some w), hflag⟩

theorem Sec.withEntry_length (s : Sec) (place : Nat) (w : Entry) : (s.withEntry place w).ledger.length =
    if s.ledger.length < 4096 then s.ledger.length + 1 else s.ledger.length := by
  unfold Sec.withEntry
  dsimp only
  rw [List.length_append, List.length_singleton]
  split
  · rfl
  · rw [List.length_drop]
    omega

/-- What LEDGER_FLUSH does. -/
def Dev.flushStep (d : Dev) (k : Nat) (err : Bool) : Dev := if d.imsetRuns then (d.flushSlot k err).uartTurn else d

theorem execLedgerFlush_eq (t : Nat) (k : Fin 1024) (err : Bool) (s : State) : execLedgerFlush t k err s = effect t s fun d => d.flushStep k err := rfl

theorem Dev.flushStep_shows {d : Dev} {k : Nat} {e : Entry} (hruns : d.imsetRuns = true) (hidle : d.sec.uartIn = []) (hslot : d.slot k = some e)
    (hnew : e.flushed = false) (err : Bool) : let n := d.flushStep k err
    (err = true → n.flag F.IMS_STAT_flash_err 0 = true) ∧ n.slot k = some (d.chained e) ∧
      ∃ f s, n.sec = { d.sec.withEntry (ringPlace d.sec.ledgerNext 2048 16384 err) (d.chained e) with flash := f, sectorAt := s } := by
  obtain ⟨hsec, hslot', hflag⟩ := d.withFlushed_shows k (d.chained e) err
  have hflush := Dev.flushSlot_of_unflushed hslot hnew err
  generalize d.withFlushed k (d.chained e) err = e1 at hsec hslot' hflag hflush
  obtain ⟨f, s, hwritten⟩ := Dev.FlashOnly.writeRing e1 0x810000 (ringPlace d.sec.ledgerNext 2048 16384 err) 2048
    ((d.chained e).words.flatMap wordBytes)
  have hring := e1.writeRing_keeps 0x810000 (ringPlace d.sec.ledgerNext 2048 16384 err) 2048 ((d.chained e).words.flatMap wordBytes)
  generalize e1.writeRing 0x810000 (ringPlace d.sec.ledgerNext 2048 16384 err) 2048 ((d.chained e).words.flatMap wordBytes) = e2
    at hwritten hring hflush
  have hshow := e2.showUnflushed_keeps
  have hsame : e2.showUnflushed.sec = { d.sec.withEntry (ringPlace d.sec.ledgerNext 2048 16384 err) (d.chained e) with flash := f, sectorAt := s } := by
    rw [show e2.showUnflushed.sec = e2.sec from hshow.parts .sec (by decide), hwritten, hsec]
  have hflt : e2.showUnflushed.flt = e1.flt := (hshow.parts .flt (by decide)).trans (hring.parts .flt (by decide))
  generalize e2.showUnflushed = n at hshow hsame hflt hflush
  have hstep : d.flushStep k err = n := by
    rw [Dev.flushStep, if_pos hruns, hflush]
    exact Dev.uartTurn_of_idle (by rw [hsame]; exact hidle)
  dsimp only
  rw [hstep]
  refine ⟨fun h => ?_, ?_, f, s, hsame⟩
  · rw [hshow.flag F.IMS_STAT_flash_err 0 (by decide), hring.flag F.IMS_STAT_flash_err 0 (by decide), hflag h]
  · rw [Dev.slot, hflt]
    exact hslot'

/-! ### Lifetime records (R366) -/

/-- The seconds of a full hour are taken off. -/
def Dev.lessHour (d : Dev) : Dev := d.onSec fun k => { k with seconds := k.seconds - 3600 }

theorem Dev.rd_onSec (d : Dev) (g : Sec → Sec) (f : Fd) (i : Nat) : (d.onSec g).rd f i = d.rd f i := rfl

theorem Dev.boots_onSec (d : Dev) (g : Sec → Sec) : (d.onSec g).boots = d.boots := rfl

/-- An operating hour is counted. -/
def Dev.countHour (d : Dev) : Dev := d.lessHour.bump F.IMS_HOURS_hours 0

/-- The record of that hour. -/
def Dev.lifeRecord (d : Dev) : LifeRec :=
  { calendar := d.calendar, hours := d.rd F.IMS_HOURS_hours 0, boots := d.boots, zones := binHours d.sec.zoneBins,
    pods := binHours d.sec.podBins, transients := d.rd F.SC_CNT_transients 0 }

/-- The lifetime records with one more. -/
def Sec.withLife (k : Sec) (place : Nat) (r : LifeRec) : Sec :=
  { k with life := (if place % 1024 = 0 then k.life.filter fun e => e.1 / 1024 != place / 1024 else k.life) ++ [(place, r)],
           lifeNext := (place + 1) % 5120, lifeWritten := k.lifeWritten + 1 }

theorem Sec.withLife_shows (k : Sec) (place : Nat) (r : LifeRec) : (k.withLife place r).seconds = k.seconds ∧
    (k.withLife place r).lifeWritten = k.lifeWritten + 1 ∧ (k.withLife place r).life.getLast? = some (place, r) := by
  unfold Sec.withLife
  dsimp only
  exact ⟨rfl, rfl, List.getLast?_concat⟩

/-- The record of an hour goes to its place. -/
def Dev.keepRecord (d : Dev) (place : Nat) (r : LifeRec) (err : Bool) : Dev :=
  (((d.flashError err).onSec fun k => k.withLife place r).writeRing 0x890000 place 1024 r.bytes).recordCalendar

/-- What LIFETIME_RECORD does. -/
def Dev.lifetimeStep (d : Dev) (err : Bool) : Dev :=
  if d.imsetRuns = false ∨ d.sec.seconds < 3600 then d
  else (d.countHour.keepRecord (ringPlace d.countHour.sec.lifeNext 1024 5120 err) d.countHour.lifeRecord err).uartTurn

theorem execLifetimeRecord_eq (t : Nat) (err : Bool) (s : State) : execLifetimeRecord t err s = effect t s fun d => d.lifetimeStep err := rfl

theorem Dev.keepRecord_shows (d : Dev) (place : Nat) (r : LifeRec) (err : Bool) : let n := d.keepRecord place r err
    (∃ f s c, n.sec = { d.sec.withLife place r with flash := f, sectorAt := s, calOffset := c }) ∧ n.rd F.IMS_HOURS_hours 0 = d.rd F.IMS_HOURS_hours 0 := by
  have herror := d.flashError_keeps err
  have hsec : (d.flashError err).sec = d.sec := herror.parts .sec (by decide)
  dsimp only
  unfold Dev.keepRecord
  generalize d.flashError err = e at herror hsec ⊢
  have hlife : (e.onSec fun k => k.withLife place r).sec = d.sec.withLife place r := congrArg (fun k : Sec => k.withLife place r) hsec
  have hrd : (e.onSec fun k => k.withLife place r).rd F.IMS_HOURS_hours 0 = e.rd F.IMS_HOURS_hours 0 := rfl
  generalize (e.onSec fun k => k.withLife place r) = e1 at hlife hrd ⊢
  have hring := e1.writeRing_keeps 0x890000 place 1024 r.bytes
  obtain ⟨f, s, hwritten⟩ := Dev.FlashOnly.writeRing e1 0x890000 place 1024 r.bytes
  generalize e1.writeRing 0x890000 place 1024 r.bytes = e2 at hring hwritten ⊢
  refine ⟨⟨f, s, max e2.sec.calOffset e2.calendar, ?_⟩, ?_⟩
  · change { e2.sec with calOffset := max e2.sec.calOffset e2.calendar } = _
    rw [hwritten, hlife]
  · rw [e2.recordCalendar_keeps.rd F.IMS_HOURS_hours 0 (by decide), hring.rd F.IMS_HOURS_hours 0 (by decide), hrd,
      herror.rd F.IMS_HOURS_hours 0 (by decide)]

theorem Dev.countHour_shows (d : Dev) : let e := d.countHour
    e.sec = { d.sec with seconds := d.sec.seconds - 3600 } ∧ e.rd F.IMS_HOURS_hours 0 = min (d.rd F.IMS_HOURS_hours 0 + 1) (2 ^ 24 - 1) ∧
      e.calendar = d.calendar ∧ e.boots = d.boots := by
  have hk := Dev.bump_keeps d.lessHour F.IMS_HOURS_hours 0 (by decide)
  have hcount := Dev.rd_bump d.lessHour F.IMS_HOURS_hours 0 (by decide)
  rw [Dev.lessHour, Dev.rd_onSec] at hcount
  exact ⟨rfl, hcount, (hk.rd64 F.PWR_CAL_LO F.PWR_CAL_HI 0 (by decide) (by decide)).trans (d.calendar_onSec _),
    (hk.rd F.IMS_BOOT_count 0 (by decide)).trans (d.boots_onSec _)⟩

theorem Dev.lifetimeStep_shows {d : Dev} (hruns : d.imsetRuns = true) (hidle : d.sec.uartIn = []) (hfull : 3600 ≤ d.sec.seconds) (err : Bool) :
    let n := d.lifetimeStep err
    n.sec.seconds = d.sec.seconds - 3600 ∧ n.sec.lifeWritten = d.sec.lifeWritten + 1 ∧
      n.rd F.IMS_HOURS_hours 0 = min (d.rd F.IMS_HOURS_hours 0 + 1) (2 ^ 24 - 1) ∧
      ∃ (place : Nat) (r : LifeRec), n.sec.life.getLast? = some (place, r) ∧ r.calendar = d.calendar ∧ r.boots = d.boots := by
  obtain ⟨hsec, hhours, hcal, hboots⟩ := d.countHour_shows
  have hstep : d.lifetimeStep err =
      (d.countHour.keepRecord (ringPlace d.countHour.sec.lifeNext 1024 5120 err) d.countHour.lifeRecord err).uartTurn :=
    if_neg (by rw [hruns]; rintro (h | h); exacts [Bool.false_ne_true h.symm, absurd hfull (by omega)])
  generalize d.countHour = e at hsec hhours hcal hboots hstep
  have hrecord : e.lifeRecord.calendar = d.calendar ∧ e.lifeRecord.boots = d.boots := ⟨hcal, hboots⟩
  generalize ringPlace e.sec.lifeNext 1024 5120 err = place at hstep
  generalize e.lifeRecord = r at hrecord hstep
  obtain ⟨⟨f, s, c, hkept⟩, hrd⟩ := e.keepRecord_shows place r err
  dsimp only
  rw [hstep, Dev.uartTurn_of_idle (by rw [hkept, hsec]; exact hidle)]
  generalize e.keepRecord place r err = n at hkept hrd ⊢
  have hsame : n.sec.seconds = e.sec.seconds ∧ n.sec.lifeWritten = e.sec.lifeWritten + 1 ∧ n.sec.life.getLast? = some (place, r) := by
    rw [hkept]
    exact e.sec.withLife_shows place r
  obtain ⟨hseconds, hwritten, hlast⟩ := hsame
  exact ⟨hseconds.trans (congrArg Sec.seconds hsec :), hwritten.trans (congrArg (fun k : Sec => k.lifeWritten + 1) hsec :), hrd.trans hhours,
    place, r, hlast, hrecord⟩

/-! ### A second passes (R366, R391, R400) -/

/-- The calendar counts a second. -/
def Dev.countSecond (d : Dev) : Dev := if d.fenced Kind.island 8 then d else d.wr64 F.PWR_CAL_LO F.PWR_CAL_HI 0 (d.calendar + 1)

/-- A second of operation in its bins. -/
def Dev.countLife (d : Dev) : Dev :=
  d.onSec fun k => { k with seconds := k.seconds + 1, zoneBins := addSecond k.zoneBins (lifeBin d.hotZone), podBins := addSecond k.podBins (lifeBin d.hotPod),
                            lifeSum := k.lifeSum + d.lifeStep }

/-- What LIFE_ACCUMULATE does. -/
def Dev.secondStep (d : Dev) : Dev :=
  if d.pw.asleep then d
  else if d.countSecond.pw.held ∨ d.countSecond.imsetRuns = false then d.countSecond
  else d.countSecond.countLife.showLife

theorem execLifeAccumulate_eq (t : Nat) (s : State) : execLifeAccumulate t s = effect t s Dev.secondStep := rfl

theorem Dev.countSecond_keeps (d : Dev) : Keeps ⟨false, [F.PWR_CAL_LO, F.PWR_CAL_HI], []⟩ d d.countSecond :=
  Keeps.ite (fun _ => .refl _ _) fun _ => Dev.wr64_keeps _ _ _ _ _ (by decide) (by decide)

theorem Dev.countSecond_calendar (d : Dev) : d.countSecond.calendar = if d.fenced Kind.island 8 then d.calendar else (d.calendar + 1) % 2 ^ 64 := by
  unfold Dev.countSecond
  split
  · rfl
  · exact Dev.rd64_wr64 d _ _ _ _ ⟨rfl, rfl⟩ ⟨rfl, rfl⟩ (by decide)

/-- The seconds that a second counts for rest on the temperatures alone. -/
theorem Dev.lifeStep_countSecond (d : Dev) : d.countSecond.lifeStep = d.lifeStep := by
  have hk := d.countSecond_keeps
  have htemp : d.countSecond.temp = d.temp := funext fun n => hk.rdInt F.THM_TS n (by decide)
  have hfenced : d.countSecond.tempFenced = d.tempFenced := funext fun n => Dev.fenced_congr (hk.parts .flt (by decide)) ..
  have hlive : d.countSecond.liveMax = d.liveMax := funext fun l => by rw [Dev.liveMax, Dev.liveMax, htemp, hfenced]
  rw [Dev.lifeStep, Dev.lifeStep, Dev.hotZone, Dev.hotZone, Dev.hotPod, Dev.hotPod, hlive]

theorem Dev.secondStep_shows {d : Dev} (hawake : d.pw.asleep = false) : let n := d.secondStep
    n.calendar = (if d.fenced Kind.island 8 then d.calendar else (d.calendar + 1) % 2 ^ 64) ∧
      (d.pw.held = false → d.imsetRuns = true → n.sec.seconds = d.sec.seconds + 1 ∧ n.sec.lifeSum = d.sec.lifeSum + d.lifeStep) := by
  have hk := d.countSecond_keeps
  have hcal := d.countSecond_calendar
  have hstep := d.lifeStep_countSecond
  have hact : d.secondStep = if d.countSecond.pw.held ∨ d.countSecond.imsetRuns = false then d.countSecond else d.countSecond.countLife.showLife :=
    if_neg (by rw [hawake]; exact Bool.false_ne_true)
  generalize d.countSecond = e at hk hcal hstep hact
  have hpw : e.pw = d.pw := hk.parts .pw (by decide)
  have hsec : e.sec = d.sec := hk.parts .sec (by decide)
  have hruns : e.imsetRuns = d.imsetRuns := by
    rw [Dev.imsetRuns, Dev.imsetRuns, hk.rd F.IMS_STAT_state 0 (by decide), Dev.fenced_congr (hk.parts .flt (by decide))]
  have hlife := e.countLife.showLife_keeps
  dsimp only
  rw [hact]
  split
  next h =>
    refine ⟨hcal, fun hlive hon => ?_⟩
    rw [hpw, hruns, hlive, hon] at h
    exact absurd h (by decide)
  next =>
    generalize e.countLife.showLife = n at hlife ⊢
    refine ⟨(hlife.rd64 F.PWR_CAL_LO F.PWR_CAL_HI 0 (by decide) (by decide)).trans hcal, fun _ _ => ?_⟩
    rw [show n.sec = e.countLife.sec from hlife.parts .sec (by decide), ← hsec, ← hstep]
    exact ⟨rfl, rfl⟩

end Sys2Proof.Machine
end

section
namespace Sys2Proof.Machine

/-- Settles O42: Imset boots, seals, resets, journals, flushes, records and refreshes as its chapters say. -/
theorem imsetOnItsOwn : Obligations.ImsetOnItsOwn := by
  unfold Obligations.ImsetOnItsOwn
  intro s t d cal
  have hnow : s.now t = d := rfl
  have hcal : cal = d.calendar := rfl
  clear_value d
  clear_value cal
  subst hcal
  refine ⟨?fails, ?first, ?seals, ?activates, ?safe, ?journals, ?flushes, ?records, ?second, ?refreshes, ?rests⟩
  case fails =>
    intro hlive hstate hmeasured hbad
    exact Does.of_step ((show exec _ s = execSecureBoot t s from rfl).trans (execSecureBoot_eq ..)) hnow rfl
      (Dev.bootStep_fails hlive hstate (hmeasured 0) hbad)
  case first =>
    intro hlive hstate hdirectory hmeasured hbad
    refine Does.of_step ((show exec _ s = execSecureBoot t s from rfl).trans (execSecureBoot_eq ..)) hnow rfl ?_
    by_cases hgood : d.verifyImage 0 false = Code.OK
    · rw [if_pos hgood]
      exact Dev.bootStep_first hlive hstate hdirectory hmeasured hgood hbad
    · rw [if_neg hgood]
      exact Dev.bootStep_none hlive hstate hdirectory hmeasured hgood
  case seals =>
    intro hdue hboot hready
    have hstep : d.bootSealStep = d.sealRequest .imset := if_pos ⟨hdue, hboot, hready⟩
    obtain ⟨hstate, hby, -⟩ := d.sealRequest_shows .imset
    exact Does.of_step ((show exec _ s = execBootSealRequest t s from rfl).trans (execBootSealRequest_eq ..)) hnow hstep ⟨hstate, hby, rfl⟩
  case activates =>
    intro r hreset hdue hsafe
    obtain ⟨hcal, hcounters, henrolled, hledger, hstopped, hruns⟩ := d.beforeReset_shows
    obtain ⟨hheld, hclock, htime, hstate, hsec, hkept⟩ := d.beforeReset.deviceReset_keeps d.free.toNat
    refine Does.of_step ((show exec _ s = execActivateReset t s from rfl).trans (execActivateReset_eq ..)) hnow
      (Dev.activateStep_of_due hreset hdue hsafe) ?_
    have hbytes : ∀ e : Dev, e.sec = d.beforeReset.renewed.sec → ∀ y, e.flashByte y = d.beforeReset.flashByte y := fun e he y => by
      rw [Dev.flashByte, Dev.flashByte, he]
      rfl
    have hbyte := hbytes _ hsec
    generalize d.beforeReset.deviceReset d.free.toNat false = n at hheld hclock htime hstate hsec hkept hbyte ⊢
    refine ⟨hheld, hclock, htime, hstate, ?_, ?_, ?_, ?_, ?_, hkept.trans hcal, fun h => ?_, fun h => ⟨fun l hon hdir => ?_, fun hsector y hy => ?_⟩⟩
    · rw [hsec, ← hcounters]
      rfl
    · rw [hsec, ← henrolled]
      rfl
    · rw [hsec, ← hledger]
      rfl
    · rw [hsec]
      rfl
    · rw [hsec]
      rfl
    · obtain ⟨hflash, hvalues⟩ := hstopped h
      rw [hsec, ← hflash, ← hvalues]
      exact ⟨rfl, rfl⟩
    · obtain ⟨hvalue, -⟩ := hruns h
      rw [hsec, ← hvalue l hon hdir]
      rfl
    · obtain ⟨-, houtside⟩ := hruns h
      rw [hbyte, houtside hsector y hy]
  case safe =>
    intro hsafe
    exact Does.of_step ((show exec _ s = execActivateReset t s from rfl).trans (execActivateReset_eq ..)) hnow (Dev.activateStep_of_safe hsafe) rfl
  case journals =>
    intro l err hruns hidle hon
    dsimp only
    have hdo : ∀ {P : Dev → Prop} {n : Dev}, d.journalStep ⟨l, err⟩ = n → P n → Does s (.freshnessJournal t ⟨l, err⟩) P := fun hn hP =>
      Does.of_step ((show exec _ s = execFreshnessJournal t ⟨l, err⟩ s from rfl).trans (execFreshnessJournal_eq ..)) hnow hn hP
    refine ⟨fun hdir hmark => hdo (Dev.journalStep_sends hruns hidle hon hdir hmark) ⟨?_, ?_⟩, fun hdir hnew hlate =>
      hdo (Dev.journalStep_receives hruns hidle hon hdir hnew hlate) ⟨?_, ?_⟩⟩
    · obtain ⟨⟨f, a, hsec⟩, -⟩ := (d.renewMark l).writeJournal_shows l.isLt err
      rw [hsec]
      exact d.renewMark_mark l
    · exact d.renewMark_holds l err
    · obtain ⟨⟨f, a, hsec⟩, -⟩ := (d.takeValue l).writeJournal_shows l.isLt err
      rw [hsec]
      exact (Tbl.get_set (fun _ => 0) d.sec.rxValue l l _).trans (if_pos rfl)
    · exact d.takeValue_holds l err
  case flushes =>
    intro k e err hruns hidle hslot hnew
    obtain ⟨hflag, hslot', f, a, hsec⟩ := Dev.flushStep_shows hruns hidle hslot hnew err
    refine Does.of_step ((show exec _ s = execLedgerFlush t k err s from rfl).trans (execLedgerFlush_eq ..)) hnow rfl ⟨hflag, ?_, hslot', ?_, ?_, ?_⟩
    · rw [hsec]
      rfl
    · rw [hsec]
      exact List.getLast?_concat
    · rw [hsec]
      rfl
    · rw [hsec]
      exact d.sec.withEntry_length (ringPlace d.sec.ledgerNext 2048 16384 err) (d.chained e)
  case records =>
    intro err hruns hidle hfull
    exact Does.of_step ((show exec _ s = execLifetimeRecord t err s from rfl).trans (execLifetimeRecord_eq ..)) hnow rfl
      (Dev.lifetimeStep_shows hruns hidle hfull err)
  case second =>
    intro hawake
    exact Does.of_step ((show exec _ s = execLifeAccumulate t s from rfl).trans (execLifeAccumulate_eq ..)) hnow rfl (Dev.secondStep_shows hawake)
  case refreshes =>
    intro k x hruns hidle hk
    dsimp only
    have hdo : ∀ {P : Dev → Prop}, P (d.refreshAct k x) → Does s (.flashRefresh t k x) P := fun hP =>
      Does.of_step ((show exec _ s = execFlashRefresh t k x s from rfl).trans (execFlashRefresh_eq ..)) hnow rfl hP
    refine ⟨fun hnone hrested => hdo ?_, fun hcopied => hdo ?_, fun herased => hdo ?_⟩
    · have hmay := Dev.mayRefresh_new hruns hk hnone hrested
      split
      next hyoung =>
        have hnot : d.mayRefresh k = false := by
          rw [hmay, Bool.eq_false_iff, ne_eq, Nat.ble_eq]
          exact Nat.not_le.mpr hyoung
        exact if_neg (by rw [hnot]; exact Bool.false_ne_true)
      next hold => exact Dev.refreshAct_begins (hmay.trans (Nat.ble_eq.mpr (Nat.not_lt.mp hold))) hidle hk hnone
    · exact Dev.refreshAct_erases (Dev.mayRefresh_goesOn hruns hk hcopied rfl) hidle hk hcopied
    · exact Dev.refreshAct_ends (Dev.mayRefresh_goesOn hruns hk herased rfl) hidle hk herased
  case rests =>
    intro k x r hnone hat hearly
    exact Does.of_step ((show exec _ s = execFlashRefresh t k x s from rfl).trans (execFlashRefresh_eq ..)) hnow
      (if_neg (by rw [Dev.mayRefresh_early hnone hat hearly]; exact Bool.false_ne_true)) rfl

end Sys2Proof.Machine
end

section
/-! Cold boot, supplies, the fabric rail, the reference and the link (R36, R301, R386, R390, R392, R415). -/

namespace Sys2Proof.Machine

/-! ### A supply that is reported -/

/-- A report of the device's supplies stands at the end of the intake, where that holds it and the device's own reports are taken. -/
def Dev.ReportsSupply (d n : Dev) : Prop := d.fenced Kind.device 0 = false → d.flt.intake.length < 64 →
  ∃ r, n.flt.intake = d.flt.intake ++ [r] ∧ r.kind = Kind.device ∧ r.index = 0 ∧ r.code = Code.SUPPLY ∧ r.time = d.time

/-- The report that a supply is out of its range. -/
def Dev.reportSupply (d : Dev) : Dev := d.reportOpen Kind.device 0 Cls.report Code.SUPPLY

/-- The report itself. -/
def Dev.supplyReport (d : Dev) : Report :=
  { kind := Kind.device, index := 0, cls := Cls.report, code := Code.SUPPLY, sub := 0,
    detail := (Config.reportDetail Kind.device Code.SUPPLY).toNat, time := d.time }

theorem Dev.reportSupply_posts {d : Dev} (h : d.fenced Kind.device 0 = false) : d.reportSupply = d.post d.supplyReport :=
  if_neg (by rw [h]; exact Bool.false_ne_true)

theorem Dev.reportSupply_reports (d : Dev) : d.ReportsSupply d.reportSupply := by
  intro hlive hroom
  rw [Dev.reportSupply_posts hlive]
  exact ⟨d.supplyReport, Dev.post_intake hroom _, rfl, rfl, rfl, rfl⟩

theorem Dev.ReportsSupply.of_same {d e n : Dev} (h : e.ReportsSupply n) (hflt : e.flt = d.flt) (htime : e.time = d.time) : d.ReportsSupply n := by
  rw [Dev.ReportsSupply, Dev.fenced_congr hflt, hflt, htime] at h
  exact h

theorem Dev.reportSupply_keeps (d : Dev) : Keeps ⟨false, [F.FLT_STAT_lost, F.FLT_LOST], [.flt]⟩ d d.reportSupply := Dev.reportOpen_keeps ..

/-! ### Cold boot (R36, R415) -/

/-- The device out of reset, its rails and clock up. -/
def Dev.released (d : Dev) (x : BootInputs) : Dev :=
  ((d.onPw fun p => { p with held := false, mv := 800, vcan := x.vcan, vrep := x.vrep }).withClockOn true).withTime 0

/-- What a cold boot shows of its supplies and its reference, and the boot that it counts. -/
def Dev.bootShown (d : Dev) (vin vfab : Nat) (ext : Bool) : Dev :=
  let d := (d.wr F.PWR_STAT_vin 0 vin).wr F.PWR_STAT_vfab 0 vfab
  (d.put F.PWR_CLK_STAT_ext 0 ext).wr F.IMS_BOOT_count 0 (d.boots + 1)

/-- What COLD_BOOT does. -/
def Dev.coldStep (d : Dev) (vin vfab : Nat) (x : BootInputs) : Dev := if d.pw.held then ((d.released x).bootShown vin vfab x.ext).showSec else d

theorem execColdBoot_eq (t vin vfab : Nat) (x : BootInputs) (s : State) :
    execColdBoot t vin vfab x s = effect t s fun d => d.coldStep vin vfab x := rfl

theorem Dev.bootShown_keeps (d : Dev) (vin vfab : Nat) (ext : Bool) :
    Keeps ⟨false, [F.IMS_BOOT_count, F.PWR_STAT_vin, F.PWR_STAT_vfab, F.PWR_CLK_STAT_ext], []⟩ d (d.bootShown vin vfab ext) :=
  ((((Dev.wr_keeps _ F.PWR_STAT_vin _ _ (by decide)).within (by decide)).trans ((Dev.wr_keeps _ F.PWR_STAT_vfab _ _ (by decide)).within (by decide))).trans
    ((Dev.put_keeps _ F.PWR_CLK_STAT_ext _ _ (by decide)).within (by decide))).trans ((Dev.wr_keeps _ F.IMS_BOOT_count _ _ (by decide)).within (by decide))

theorem Dev.bootShown_shows (d : Dev) (vin vfab : Nat) (ext : Bool) : let n := d.bootShown vin vfab ext
    n.boots = (d.boots + 1) % 2 ^ 24 ∧ n.flag F.PWR_CLK_STAT_ext 0 = ext ∧ n.rd F.PWR_STAT_vin 0 = vin % 1024 ∧ n.rd F.PWR_STAT_vfab 0 = vfab % 1024 := by
  have hvin := Dev.wr_keeps d F.PWR_STAT_vin 0 vin (by decide)
  have hvin' := Dev.rd_wr d F.PWR_STAT_vin 0 vin (by decide)
  unfold Dev.bootShown
  dsimp only
  generalize d.wr F.PWR_STAT_vin 0 vin = e1 at hvin hvin' ⊢
  have hfab := Dev.wr_keeps e1 F.PWR_STAT_vfab 0 vfab (by decide)
  have hfab' := Dev.rd_wr e1 F.PWR_STAT_vfab 0 vfab (by decide)
  generalize e1.wr F.PWR_STAT_vfab 0 vfab = e2 at hfab hfab' ⊢
  have hboots : e2.boots = d.boots := by
    rw [Dev.boots, hfab.rd F.IMS_BOOT_count 0 (by decide), hvin.rd F.IMS_BOOT_count 0 (by decide), Dev.boots]
  rw [hboots]
  have hext := Dev.put_keeps e2 F.PWR_CLK_STAT_ext 0 ext (by decide)
  have hext' := Dev.flag_put e2 F.PWR_CLK_STAT_ext 0 ext (by decide) rfl
  generalize e2.put F.PWR_CLK_STAT_ext 0 ext = e3 at hext hext' ⊢
  have hboot := Dev.wr_keeps e3 F.IMS_BOOT_count 0 (d.boots + 1) (by decide)
  have hboot' := Dev.rd_wr e3 F.IMS_BOOT_count 0 (d.boots + 1) (by decide)
  generalize e3.wr F.IMS_BOOT_count 0 (d.boots + 1) = n at hboot hboot' ⊢
  refine ⟨?_, ?_, ?_, ?_⟩
  · rw [Dev.boots, hboot']
    rfl
  · rw [hboot.flag F.PWR_CLK_STAT_ext 0 (by decide), hext']
  · rw [hboot.rd F.PWR_STAT_vin 0 (by decide), hext.rd F.PWR_STAT_vin 0 (by decide), hfab.rd F.PWR_STAT_vin 0 (by decide), hvin']
    rfl
  · rw [hboot.rd F.PWR_STAT_vfab 0 (by decide), hext.rd F.PWR_STAT_vfab 0 (by decide), hfab']
    rfl

theorem Dev.coldStep_shows {d : Dev} (hheld : d.pw.held = true) (vin vfab : Nat) (x : BootInputs) : let n := d.coldStep vin vfab x
    n.pw.held = false ∧ n.clockOn = true ∧ n.time = 0 ∧ n.boots = (d.boots + 1) % 2 ^ 24 ∧ n.flag F.PWR_CLK_STAT_ext 0 = x.ext ∧ n.pw.vcan = x.vcan ∧
      n.pw.vrep = x.vrep ∧ n.rd F.PWR_STAT_vin 0 = vin % 1024 ∧ n.rd F.PWR_STAT_vfab 0 = vfab % 1024 ∧ n.devState = d.devState := by
  have hstep : d.coldStep vin vfab x = ((d.released x).bootShown vin vfab x.ext).showSec := if_pos hheld
  obtain ⟨hboots, hext, hvin, hvfab⟩ := (d.released x).bootShown_shows vin vfab x.ext
  have hshown := (d.released x).bootShown_keeps vin vfab x.ext
  dsimp only
  rw [hstep]
  generalize (d.released x).bootShown vin vfab x.ext = e at hboots hext hvin hvfab hshown ⊢
  have hsec := e.showSec_keeps
  have hpw : e.showSec.pw = (d.released x).pw := (hsec.parts .pw (by decide)).trans (hshown.parts .pw (by decide))
  have hclock : e.showSec.clockOn = (d.released x).clockOn := (hsec.parts .clock (by decide)).trans (hshown.parts .clock (by decide))
  generalize e.showSec = n at hsec hpw hclock ⊢
  refine ⟨by rw [hpw]; rfl, hclock, hsec.time.trans hshown.time, (hsec.rd F.IMS_BOOT_count 0 (by decide)).trans hboots,
    (hsec.flag F.PWR_CLK_STAT_ext 0 (by decide)).trans hext, by rw [hpw]; rfl, by rw [hpw]; rfl, (hsec.rd F.PWR_STAT_vin 0 (by decide)).trans hvin,
    (hsec.rd F.PWR_STAT_vfab 0 (by decide)).trans hvfab, (hsec.rd F.DEV_STATE_state 0 (by decide)).trans (hshown.rd F.DEV_STATE_state 0 (by decide))⟩

/-! ### VIN (R386) -/

/-- VIN is shown. -/
def Dev.vinShown (d : Dev) (vin : Nat) : Dev := d.wr F.PWR_STAT_vin 0 vin

/-- What VIN_HIGH does. -/
def Dev.vinStep (d : Dev) (vin : Nat) : Dev :=
  if 560 < vin then ((d.vinShown vin).put F.PWR_STAT_vin_high 0 true).reportSupply else d.vinShown vin

theorem execVinHigh_eq (t vin : Nat) (s : State) : execVinHigh t vin s = effect t s fun d => d.vinStep vin := rfl

theorem Dev.vinShown_rd (d : Dev) (vin : Nat) : (d.vinShown vin).rd F.PWR_STAT_vin 0 = vin % 1024 := Dev.rd_wr _ F.PWR_STAT_vin _ _ (by decide)

theorem Dev.vinShown_keeps (d : Dev) (vin : Nat) : Keeps ⟨false, [F.PWR_STAT_vin], []⟩ d (d.vinShown vin) := Dev.wr_keeps _ F.PWR_STAT_vin _ _ (by decide)

theorem Dev.vinStep_high {d : Dev} {vin : Nat} (h : 560 < vin) : let n := d.vinStep vin
    n.rd F.PWR_STAT_vin 0 = vin % 1024 ∧ n.flag F.PWR_STAT_vin_high 0 = true ∧ d.ReportsSupply n ∧ n.devState = d.devState ∧ n.pw = d.pw := by
  have hstep : d.vinStep vin = ((d.vinShown vin).put F.PWR_STAT_vin_high 0 true).reportSupply := if_pos h
  have hvin := d.vinShown_rd vin
  have hk := d.vinShown_keeps vin
  dsimp only
  rw [hstep]
  generalize d.vinShown vin = e at hvin hk ⊢
  have hput := Dev.put_keeps e F.PWR_STAT_vin_high 0 true (by decide)
  have hhigh := Dev.flag_put e F.PWR_STAT_vin_high 0 true (by decide) rfl
  generalize e.put F.PWR_STAT_vin_high 0 true = g at hput hhigh ⊢
  have hreports := g.reportSupply_reports.of_same ((hput.parts .flt (by decide)).trans (hk.parts .flt (by decide))) (hput.time.trans hk.time)
  have hreport := g.reportSupply_keeps
  generalize g.reportSupply = n at hreports hreport ⊢
  refine ⟨?_, ?_, hreports, ?_, ?_⟩
  · rw [hreport.rd F.PWR_STAT_vin 0 (by decide), hput.rd F.PWR_STAT_vin 0 (by decide), hvin]
  · rw [hreport.flag F.PWR_STAT_vin_high 0 (by decide), hhigh]
  · rw [Dev.devState, hreport.rd F.DEV_STATE_state 0 (by decide), hput.rd F.DEV_STATE_state 0 (by decide), hk.rd F.DEV_STATE_state 0 (by decide), Dev.devState]
  · exact (hreport.parts .pw (by decide)).trans ((hput.parts .pw (by decide)).trans (hk.parts .pw (by decide)))

theorem Dev.vinStep_low {d : Dev} {vin : Nat} (h : vin ≤ 560) : let n := d.vinStep vin
    n.rd F.PWR_STAT_vin 0 = vin % 1024 ∧ n.flag F.PWR_STAT_vin_high 0 = d.flag F.PWR_STAT_vin_high 0 ∧ n.flt = d.flt ∧ n.pw = d.pw := by
  have hstep : d.vinStep vin = d.vinShown vin := if_neg (Nat.not_lt.mpr h)
  have hk := d.vinShown_keeps vin
  dsimp only
  rw [hstep]
  exact ⟨d.vinShown_rd vin, hk.flag F.PWR_STAT_vin_high 0 (by decide), hk.parts .flt (by decide), hk.parts .pw (by decide)⟩

/-! ### Speed monitors (R392) -/

theorem Dev.speed_shows (d : Dev) (z : Fin 4) (k : BitVec 16) :
    let n := (d.wr F.FAB_SPEED_k z k.toNat).wr F.FAB_SPEED_k_max z (max (d.rd F.FAB_SPEED_k_max z) k.toNat)
    n.rd F.FAB_SPEED_k z = k.toNat ∧ n.rd F.FAB_SPEED_k_max z = max (d.rd F.FAB_SPEED_k_max z) k.toNat ∧
      ∀ y : Fin 4, y ≠ z → n.rd F.FAB_SPEED_k y = d.rd F.FAB_SPEED_k y := by
  have hmax : d.rd F.FAB_SPEED_k_max z < 2 ^ 16 := getBits_lt ..
  refine ⟨?_, Dev.rd_wr_of_lt _ F.FAB_SPEED_k_max _ (by decide) (Nat.max_lt.mpr ⟨hmax, k.isLt⟩), fun y hy => ?_⟩
  · rw [Dev.rd_wr_apart _ F.FAB_SPEED_k F.FAB_SPEED_k_max _ _ _ (by decide) (by decide)]
    exact Dev.rd_wr_of_lt _ F.FAB_SPEED_k _ (by decide) k.isLt
  · rw [Dev.rd_wr_apart _ F.FAB_SPEED_k F.FAB_SPEED_k_max _ _ _ (by decide) (by decide)]
    exact Dev.rd_wr_of_ne _ F.FAB_SPEED_k _ (by decide) y.isLt z.isLt fun h => hy (Fin.ext h)

/-! ### The fabric rail (R392) -/

/-- Has the rail rested for 1 ms since its last step? -/
def Dev.railRested (d : Dev) : Bool :=
  match d.pw.steppedAt with
  | some at' => Nat.ble (at' + 800000) d.time
  | none => true

/-- The rail steps where its controller steps it. -/
def Dev.railStepped (d : Dev) : Dev :=
  if d.railStep ≠ 0 ∧ d.railRested = true then d.onPw fun p => { p with mv := ((p.mv : Int) + d.railStep).toNat, steppedAt := some d.time } else d

/-- The rail is shown, or that it does not reach its value. -/
def Dev.railShown (d : Dev) (reached : Bool) : Dev :=
  if reached then d.wr F.PWR_STAT_vfab 0 d.pw.mv else (d.put F.PWR_STAT_vfab_limit 0 true).reportSupply

theorem execVfabStep_eq (t : Nat) (reached : Bool) (s : State) : execVfabStep t reached s = effect t s fun d => d.railStepped.railShown reached := rfl

theorem Dev.railShown_shows (d : Dev) (reached : Bool) : let n := d.railShown reached
    n.pw = d.pw ∧ (reached = true → n.rd F.PWR_STAT_vfab 0 = d.pw.mv % 1024 ∧ n.flt = d.flt) ∧
      (reached = false → n.flag F.PWR_STAT_vfab_limit 0 = true ∧ d.ReportsSupply n) := by
  cases reached with
  | true =>
    have hk := Dev.wr_keeps d F.PWR_STAT_vfab 0 d.pw.mv (by decide)
    exact ⟨hk.parts .pw (by decide), fun _ => ⟨Dev.rd_wr _ F.PWR_STAT_vfab _ _ (by decide), hk.parts .flt (by decide)⟩, fun h => absurd h.symm Bool.false_ne_true⟩
  | false =>
    have hstep : d.railShown false = (d.put F.PWR_STAT_vfab_limit 0 true).reportSupply := if_neg Bool.false_ne_true
    have hput := Dev.put_keeps d F.PWR_STAT_vfab_limit 0 true (by decide)
    have hlimit := Dev.flag_put d F.PWR_STAT_vfab_limit 0 true (by decide) rfl
    dsimp only
    rw [hstep]
    generalize d.put F.PWR_STAT_vfab_limit 0 true = e at hput hlimit ⊢
    have hreport := e.reportSupply_keeps
    exact ⟨(hreport.parts .pw (by decide)).trans (hput.parts .pw (by decide)), fun h => absurd h Bool.false_ne_true, fun _ =>
      ⟨(hreport.flag F.PWR_STAT_vfab_limit 0 (by decide)).trans hlimit, e.reportSupply_reports.of_same (hput.parts .flt (by decide)) hput.time⟩⟩

/-- The worst speed factor and the target, as the numbers that the registers hold. -/
def Dev.worstRat (d : Dev) : Rat :=
  ((max (max (d.rd F.FAB_SPEED_k 0) (d.rd F.FAB_SPEED_k 1)) (max (d.rd F.FAB_SPEED_k 2) (d.rd F.FAB_SPEED_k 3)) : Nat) : Rat) / 256

def Dev.aimRat (d : Dev) : Rat := d.rd F.PWR_FAB_CFG_k_target 0 / 100

theorem Dev.worstRat_eq (d : Dev) : d.worstRat = (d.worstSpeed : Rat) / 256 := by
  have hworst : d.worstSpeed = max (max (d.rd F.FAB_SPEED_k 0) (d.rd F.FAB_SPEED_k 1)) (max (d.rd F.FAB_SPEED_k 2) (d.rd F.FAB_SPEED_k 3)) := by
    change max (max (max (max 0 (d.rd F.FAB_SPEED_k 0)) (d.rd F.FAB_SPEED_k 1)) (d.rd F.FAB_SPEED_k 2)) (d.rd F.FAB_SPEED_k 3) = _
    omega
  rw [Dev.worstRat, hworst]

theorem Dev.aim_lt_worst (d : Dev) : d.aimRat < d.worstRat ↔ 256 * d.rd F.PWR_FAB_CFG_k_target 0 < 100 * d.worstSpeed := by
  rw [d.worstRat_eq, Dev.aimRat, div_lt_div_iff₀ (by norm_num) (by norm_num)]
  constructor
  · intro h
    have : (d.rd F.PWR_FAB_CFG_k_target 0 * 256 : Nat) < d.worstSpeed * 100 := by exact_mod_cast h
    omega
  · intro h
    have : (d.rd F.PWR_FAB_CFG_k_target 0 * 256 : Nat) < d.worstSpeed * 100 := by omega
    exact_mod_cast this

theorem Dev.worst_lt_aim (d : Dev) : d.worstRat < d.aimRat - 5 / 100 ↔ 100 * d.worstSpeed + 1280 < 256 * d.rd F.PWR_FAB_CFG_k_target 0 := by
  rw [d.worstRat_eq, Dev.aimRat]
  have hscaled : (d.worstSpeed : Rat) / 256 < (d.rd F.PWR_FAB_CFG_k_target 0 : Rat) / 100 - 5 / 100 ↔
      100 * (d.worstSpeed : Rat) + 1280 < 256 * (d.rd F.PWR_FAB_CFG_k_target 0 : Rat) := by
    constructor
    · intro h
      linarith
    · intro h
      linarith
  rw [hscaled]
  exact_mod_cast Iff.rfl

theorem Dev.railRested_of_rested {d : Dev} (h : ∀ a, d.pw.steppedAt = some a → a + 800000 ≤ d.time) : d.railRested = true := by
  unfold Dev.railRested
  cases hat : d.pw.steppedAt with
  | none => rfl
  | some a => exact Nat.ble_eq.mpr (h a hat)

theorem Dev.railStepped_of_rests {d : Dev} (h : d.railStep = 0 ∨ d.railRested = false) : d.railStepped = d := by
  refine if_neg fun hc => ?_
  rcases h with h | h
  · exact hc.1 h
  · exact Bool.false_ne_true (h.symm.trans hc.2)

theorem Dev.railStepped_of_steps {d : Dev} {k : Int} (h : d.railStep = k) (hk : k ≠ 0) (hrested : d.railRested = true) :
    d.railStepped.pw = { d.pw with mv := ((d.pw.mv : Int) + k).toNat, steppedAt := some d.time } := by
  subst h
  exact congrArg Dev.pw (if_pos ⟨hk, hrested⟩ : d.railStepped = _)

theorem Dev.railStepped_same (d : Dev) : d.railStepped.flt = d.flt ∧ d.railStepped.time = d.time := by
  unfold Dev.railStepped
  split
  · exact ⟨rfl, rfl⟩
  · exact ⟨rfl, rfl⟩

section
variable {d : Dev}

theorem Dev.railStep_up (hmode : d.rd F.PWR_FAB_CFG_mode 0 = 1) (h : d.aimRat < d.worstRat) (hmv : d.pw.mv < 880) : d.railStep = 10 := by
  unfold Dev.railStep
  dsimp only
  rw [if_neg (not_not.mpr hmode), if_pos (d.aim_lt_worst.mp h), if_pos hmv]

theorem Dev.railStep_down (hmode : d.rd F.PWR_FAB_CFG_mode 0 = 1) (h : d.worstRat < d.aimRat - 5 / 100) (hmv : 720 < d.pw.mv) : d.railStep = -10 := by
  have hlow := d.worst_lt_aim.mp h
  unfold Dev.railStep
  dsimp only
  rw [if_neg (not_not.mpr hmode), if_neg (by omega), if_pos hlow, if_pos hmv]

theorem Dev.railStep_none (h : d.aimRat < d.worstRat ∧ 880 ≤ d.pw.mv ∨ d.worstRat < d.aimRat - 5 / 100 ∧ d.pw.mv ≤ 720 ∨
    d.worstRat ≤ d.aimRat ∧ d.aimRat - 5 / 100 ≤ d.worstRat) : d.railStep = 0 := by
  rw [← not_lt (a := d.aimRat) (b := d.worstRat), ← not_lt (a := d.worstRat) (b := d.aimRat - 5 / 100), d.aim_lt_worst, d.worst_lt_aim] at h
  unfold Dev.railStep
  dsimp only
  split
  · rfl
  · split
    · exact if_neg (by omega)
    · split
      · exact if_neg (by omega)
      · rfl

theorem Dev.railStep_off (h : d.rd F.PWR_FAB_CFG_mode 0 ≠ 1) : d.railStep = 0 := if_pos h

end

/-! ### The reference (R390) -/

theorem Dev.fqiCorrection_eq (d : Dev) : d.fqiCorrection =
    (d.rdInt F.PWR_FQI_TC 0 / 65536 : Rat) * ((d.rdInt F.THM_TS 56 : Rat) / 65536 - 25) +
      (d.rdInt F.PWR_FQI_TC 1 / 65536 : Rat) * ((d.rdInt F.THM_TS 56 : Rat) / 65536 - 25) ^ 2 +
      (d.rdInt F.PWR_FQI_TC 2 / 65536 : Rat) * ((d.rdInt F.THM_TS 56 : Rat) / 65536 - 25) ^ 3 := by
  unfold Dev.fqiCorrection Dev.temp
  push_cast
  ring

/-! ### The link (R301) -/

/-- What PCIE_LINK_UP does. -/
def Dev.linkStep (d : Dev) (x : LinkChange) : Dev :=
  if d.pw.asleep || d.pw.held then d
  else match x with
  | .trains speed => d.linkTrained speed.val
  | .l1 => if d.flag F.HI_LINK_up 0 && d.flag F.HI_LINK_CFG_aspm_l1 0 then d.withHi { d.hi with l1 := true } else d
  | .d3hot => if d.flag F.HI_LINK_up 0 then d.withHi { d.hi with d3hot := true } else d
  | .d0 => if d.flag F.HI_LINK_up 0 then d.withHi { d.hi with d3hot := false } else d

theorem execPcieLinkUp_eq (t : Nat) (x : LinkChange) (s : State) : execPcieLinkUp t x s = effect t s fun d => d.linkStep x := rfl

theorem Dev.linkStep_of_live {d : Dev} (hheld : d.pw.held = false) (hawake : d.pw.asleep = false) (x : LinkChange) : d.linkStep x = match x with
    | .trains speed => d.linkTrained speed.val
    | .l1 => if d.flag F.HI_LINK_up 0 && d.flag F.HI_LINK_CFG_aspm_l1 0 then d.withHi { d.hi with l1 := true } else d
    | .d3hot => if d.flag F.HI_LINK_up 0 then d.withHi { d.hi with d3hot := true } else d
    | .d0 => if d.flag F.HI_LINK_up 0 then d.withHi { d.hi with d3hot := false } else d :=
  if_neg (by rw [hheld, hawake]; decide)

theorem Dev.linkStep_none {d : Dev} {x : LinkChange} (h : d.pw.held = true ∨ d.pw.asleep = true ∨ (d.flag F.HI_LINK_up 0 = false ∧ ∀ speed, x ≠ .trains speed) ∨
    x = .trains 0 ∨ (x = .l1 ∧ d.flag F.HI_LINK_CFG_aspm_l1 0 = false)) : d.linkStep x = d := by
  by_cases hlive : (d.pw.asleep || d.pw.held) = true
  · exact if_pos hlive
  · refine (if_neg hlive).trans ?_
    rw [Bool.or_eq_true] at hlive
    rcases h with h | h | ⟨hdown, hnot⟩ | rfl | ⟨rfl, hl1⟩
    · exact absurd (.inr h) hlive
    · exact absurd (.inl h) hlive
    · cases x with
      | trains speed => exact absurd rfl (hnot speed)
      | l1 => exact if_neg (by rw [hdown]; exact Bool.false_ne_true)
      | d3hot => exact if_neg (by rw [hdown]; exact Bool.false_ne_true)
      | d0 => exact if_neg (by rw [hdown]; exact Bool.false_ne_true)
    · rfl
    · exact if_neg (by rw [hl1, Bool.and_false]; exact Bool.false_ne_true)

/-- The link is up, at a speed that HI_LINK_CFG allows. -/
def Dev.linkUp (d : Dev) (speed : Nat) : Dev :=
  (d.wr F.HI_LINK_speed 0 (min speed (d.rd F.HI_LINK_CFG_max_speed 0))).put F.HI_LINK_up 0 true

/-- The link leaves L1, and the device stops driving WAKE. -/
def Dev.linkLive (d : Dev) : Dev := (d.withHi { d.hi with l1 := false }).onPw fun p => { p with wakeDriven := false }

theorem Dev.linkLive_shows (d : Dev) : d.linkLive.flag F.HI_LINK_up 0 = d.flag F.HI_LINK_up 0 ∧ d.linkLive.rd F.HI_LINK_speed 0 = d.rd F.HI_LINK_speed 0 ∧
    d.linkLive.pw.wakeDriven = false ∧ d.linkLive.hi.l1 = false := ⟨rfl, rfl, rfl, rfl⟩

theorem Dev.linkTrained_eq (d : Dev) {speed : Nat} (h : speed ≠ 0) : d.linkTrained speed = (d.linkUp speed).linkLive := by
  unfold Dev.linkTrained
  rw [if_neg h]
  rfl

theorem Dev.linkTrained_shows (d : Dev) {speed : Nat} (hpos : speed ≠ 0) (hlow : speed < 4) : let n := d.linkTrained speed
    n.flag F.HI_LINK_up 0 = true ∧ n.rd F.HI_LINK_speed 0 = min speed (d.rd F.HI_LINK_CFG_max_speed 0) ∧ n.pw.wakeDriven = false ∧ n.hi.l1 = false := by
  have hspeed := Dev.rd_wr_of_lt d F.HI_LINK_speed 0 (by decide) (lt_of_le_of_lt (Nat.min_le_left speed (d.rd F.HI_LINK_CFG_max_speed 0)) hlow)
  have hput := (Dev.put_keeps (d.wr F.HI_LINK_speed 0 (min speed (d.rd F.HI_LINK_CFG_max_speed 0))) F.HI_LINK_up 0 true (by decide)).rd
    F.HI_LINK_speed 0 (by decide)
  have hup := Dev.flag_put (d.wr F.HI_LINK_speed 0 (min speed (d.rd F.HI_LINK_CFG_max_speed 0))) F.HI_LINK_up 0 true (by decide) rfl
  dsimp only
  rw [d.linkTrained_eq hpos]
  obtain ⟨hflag, hrd, hdriven, hl1⟩ := (d.linkUp speed).linkLive_shows
  exact ⟨hflag.trans hup, hrd.trans (hput.trans hspeed), hdriven, hl1⟩

end Sys2Proof.Machine
end

section
/-! Sleep and wake (R36, R391, R393, R394, R401). -/

namespace Sys2Proof.Machine

/-! ### When the device may sleep (R393) -/

/-- Nothing runs that sleep would stop. -/
def Dev.Sleeps (d : Dev) : Prop := d.anyRun = false ∧ d.sequencersRest = true ∧ d.devState ≠ DevSt.safe ∧ d.flag F.SC_TM_STAT_ucg 0 = false ∧
  d.flag F.SC_TM_STAT_ucg 1 = false

theorem Dev.maySleep_iff (d : Dev) : d.maySleep = true ↔ d.Sleeps := by
  unfold Dev.maySleep Dev.Sleeps
  simp only [Bool.and_eq_true, Bool.not_eq_true', bne_iff_ne, ne_eq]
  tauto

/-! ### Gates -/

/-- Every gate follows its decision anew. -/
def Dev.driveAll (d : Dev) : Dev := d.each (List.range 64) Dev.drivePort

theorem Dev.driveAll_keeps (d : Dev) : Keeps ⟨false, [], [.pp]⟩ d d.driveAll := d.each_keeps _ _ Dev.drivePort_keeps

theorem Dev.driveGate_drv_of_ne (d : Dev) {p q : Nat} (h : p ≠ q) (b hi : Bool) : (d.driveGate q b).drv p hi = d.drv p hi := by
  have hset : ∀ v, (d.setDrv q b v).drv p hi = d.drv p hi := fun v => by
    rw [Dev.drv, Dev.setDrv, Dev.port_setPort_of_ne _ _ h, Dev.drv]
  unfold Dev.driveGate
  dsimp only
  split
  · rfl
  · split
    · exact hset _
    · exact hset _

theorem Dev.drivePort_drv_of_ne (d : Dev) {p q : Nat} (h : p ≠ q) (hi : Bool) : (d.drivePort q).drv p hi = d.drv p hi :=
  ((d.driveGate q true).driveGate_drv_of_ne h false hi).trans (d.driveGate_drv_of_ne h true hi)

/-- In a device asleep every gate is off. -/
theorem Dev.driveAll_asleep {d : Dev} (h : d.pw.asleep = true) (p : Fin 64) (hi : Bool) : (d.driveAll.drv p hi).gate = false := by
  have hpw : ∀ e q, (Dev.drivePort e q).pw = e.pw := fun e q => (e.drivePort_keeps q).parts .pw (by decide)
  have hoff : ∀ e : Dev, e.pw.asleep = true → ((e.drivePort p).drv p hi).gate = false := fun e he => by
    rw [Dev.drivePort_gate]
    exact Dev.gateWant_of_blocked (by rw [Dev.gateBlocked, he]; rfl)
  have hboth := Dev.each_reaches_of (I := fun e => e.pw.asleep = true) (P := fun e => e.pw.asleep = true ∧ (e.drv p hi).gate = false)
    (f := Dev.drivePort) (List.mem_range.mpr p.isLt) (fun e q _ he => by rw [hpw]; exact he) (fun e he => ⟨by rw [hpw]; exact he, hoff e he⟩)
    (fun e q _ he => ⟨by rw [hpw]; exact he.1, ?_⟩) d h
  · exact hboth.2
  · by_cases hq : (p : Nat) = q
    · rw [← hq]
      exact hoff e he.1
    · rw [Dev.drivePort_drv_of_ne _ hq]
      exact he.2

/-! ### The interrupt of a wake (R285) -/

theorem Dev.raiseRequest_asks (d : Dev) : let n := d.raiseRequest
    (d.sc.wfi = false ∨ d.fwStores = false → n.flt.request = true ∧ n.sc = d.sc) ∧
      (d.sc.wfi = true → d.fwStores = true → n.flt.request = false ∧ n.sc.wfi = false) ∧ n.flt.fenced = d.flt.fenced := by
  have hstores : (d.withFlt { d.flt with request := true }).fwStores = d.fwStores := rfl
  by_cases h : d.sc.wfi = true ∧ d.fwStores = true
  · have hraise : d.raiseRequest = ((d.withFlt { d.flt with request := true }).withFlt { d.flt with request := false }).withSc
        { d.sc with wfi := false, checkpoint := { d.sc.checkpoint with irq := true }.interrupt } := if_pos (by rw [hstores, h.2]; simp [h.1])
    dsimp only
    rw [hraise]
    refine ⟨fun hn => ?_, fun _ _ => ⟨rfl, rfl⟩, rfl⟩
    rw [h.1, h.2] at hn
    exact absurd hn (by decide)
  · have hraise : d.raiseRequest = d.withFlt { d.flt with request := true } := if_neg (by
      rw [hstores, Bool.and_eq_true, Bool.and_eq_true]
      exact fun hc => h ⟨hc.1.1, hc.2⟩)
    dsimp only
    rw [hraise]
    exact ⟨fun _ => ⟨rfl, rfl⟩, fun h1 h2 => absurd ⟨h1, h2⟩ h, rfl⟩

/-! ### A wake -/

/-- The seconds slept are shown, and the clock runs. -/
def Dev.wakeClock (d : Dev) (slept : Nat) : Dev := (d.wr F.PWR_WAKE_STAT_slept_s 0 (min (slept / 800000000) (2 ^ 21 - 1))).withClockOn true

/-- The device is awake. -/
def Dev.awake (d : Dev) (p : Bool) : Dev := d.onPw fun v => { v with asleep := false, wakeDriven := !p, wakeSeen := none }

theorem Dev.wakeUp_eq (d : Dev) (p : Bool) (slept : Nat) : d.wakeUp p slept = (((d.wakeClock slept).countSlept slept).awake p).raiseRequest.driveAll := rfl

theorem Dev.wakeClock_keeps (d : Dev) (slept : Nat) : Keeps ⟨false, [F.PWR_WAKE_STAT_slept_s], [.clock]⟩ d (d.wakeClock slept) :=
  ((Dev.wr_keeps _ F.PWR_WAKE_STAT_slept_s _ _ (by decide)).within (by decide)).trans ((Dev.withClockOn_keeps _ _).within (by decide))

theorem Dev.wakeClock_slept (d : Dev) (slept : Nat) : (d.wakeClock slept).rd F.PWR_WAKE_STAT_slept_s 0 = min (slept / 800000000) (2 ^ 21 - 1) :=
  Dev.rd_wr_of_lt d F.PWR_WAKE_STAT_slept_s 0 (by decide) (lt_of_le_of_lt (Nat.min_le_right ..) (by decide))

theorem Dev.countSlept_calendar {d : Dev} (h : d.fenced Kind.island 8 = false) (slept : Nat) :
    (d.countSlept slept).calendar = (d.calendar + slept / 800000000) % 2 ^ 64 := by
  rw [Dev.countSlept, if_neg (by rw [h]; exact Bool.false_ne_true)]
  exact Dev.rd64_wr64 d _ _ _ _ ⟨rfl, rfl⟩ ⟨rfl, rfl⟩ (by decide)

/-- How a device shows that it woke. -/
def Dev.Woken (d n : Dev) (p : Bool) : Prop := n.pw.asleep = false ∧ n.pw.wakeSeen = none ∧ n.clockOn = true ∧ n.pw.wakeDriven = !p ∧
  (d.sc.wfi = false ∨ d.fwStores = false → n.flt.request = true ∧ n.sc = d.sc) ∧
  (d.sc.wfi = true → d.fwStores = true → n.flt.request = false ∧ n.sc.wfi = false) ∧
  n.flt.fenced = d.flt.fenced ∧ n.devState = d.devState ∧ n.mb = d.mb ∧ n.be = d.be

theorem Keeps.fwStores {w : Foot} {d e : Dev} (h : Keeps w d e) (hw : w.avoids F.SC_STAT_mode = true) : e.fwStores = d.fwStores := by
  have hmode : e.scMode = d.scMode := h.rd F.SC_STAT_mode 0 hw
  rw [Dev.fwStores, Dev.fwStores, Dev.inSimplex, Dev.inSimplex, hmode]

theorem Dev.wakeUp_shows (d : Dev) (p : Bool) (slept : Nat) : let n := d.wakeUp p slept
    d.Woken n p ∧ n.time = d.time ∧ n.rd F.PWR_WAKE_STAT_slept_s 0 = min (slept / 800000000) (2 ^ 21 - 1) ∧
      (d.fenced Kind.island 8 = false → n.calendar = (d.calendar + slept / 800000000) % 2 ^ 64) := by
  have hclock := d.wakeClock_keeps slept
  have hslept := d.wakeClock_slept slept
  have hon : (d.wakeClock slept).clockOn = true := rfl
  dsimp only
  rw [Dev.wakeUp_eq]
  generalize d.wakeClock slept = e1 at hclock hslept hon ⊢
  have hcount := e1.countSlept_keeps slept
  have hcal : d.fenced Kind.island 8 = false → (e1.countSlept slept).calendar = (d.calendar + slept / 800000000) % 2 ^ 64 := fun h => by
    rw [Dev.countSlept_calendar ((Dev.fenced_congr (hclock.parts .flt (by decide)) ..).trans h), Dev.calendar,
      hclock.rd64 F.PWR_CAL_LO F.PWR_CAL_HI 0 (by decide) (by decide), Dev.calendar]
  generalize e1.countSlept slept = e2 at hcount hcal ⊢
  have hawake : (e2.awake p).pw.asleep = false ∧ (e2.awake p).pw.wakeSeen = none ∧ (e2.awake p).pw.wakeDriven = !p := ⟨rfl, rfl, rfl⟩
  have hk2 := e2.onPw_keeps fun v => { v with asleep := false, wakeDriven := !p, wakeSeen := none }
  change Keeps _ e2 (e2.awake p) at hk2
  generalize e2.awake p = e3 at hawake hk2 ⊢
  obtain ⟨hplain, htaken, hfenced⟩ := e3.raiseRequest_asks
  have hraise := e3.raiseRequest_keeps
  generalize e3.raiseRequest = e4 at hplain htaken hfenced hraise ⊢
  have hdrive := e4.driveAll_keeps
  generalize e4.driveAll = n at hdrive ⊢
  have hsofar : Keeps ⟨false, [F.PWR_WAKE_STAT_slept_s, F.PWR_CAL_LO, F.PWR_CAL_HI], [.clock, .pw]⟩ d e3 :=
    ((hclock.within (by decide)).trans (hcount.within (by decide))).trans (hk2.within (by decide))
  have hafter : Keeps ⟨false, [], [.pp, .sc, .flt]⟩ e3 n := (hraise.within (by decide)).trans (hdrive.within (by decide))
  have hsc : e3.sc = d.sc := hsofar.parts .sc (by decide)
  have hflt : e3.flt = d.flt := hsofar.parts .flt (by decide)
  have hnsc : n.sc = e4.sc := hdrive.parts .sc (by decide)
  have hnflt : n.flt = e4.flt := hdrive.parts .flt (by decide)
  have hpw : n.pw = e3.pw := hafter.parts .pw (by decide)
  rw [hsc, hsofar.fwStores (by decide)] at hplain htaken
  refine ⟨⟨by rw [hpw]; exact hawake.1, by rw [hpw]; exact hawake.2.1, ?_, by rw [hpw]; exact hawake.2.2, ?_, ?_, ?_, ?_, ?_, ?_⟩, ?_, ?_, fun h => ?_⟩
  · exact (hafter.parts .clock (by decide)).trans ((hk2.parts .clock (by decide)).trans ((hcount.parts .clock (by decide)).trans hon))
  · rw [hnflt, hnsc]
    exact hplain
  · rw [hnflt, hnsc]
    exact htaken
  · rw [hnflt, hfenced, hflt]
  · exact (hafter.rd F.DEV_STATE_state 0 (by decide)).trans (hsofar.rd F.DEV_STATE_state 0 (by decide))
  · exact (hafter.parts .mb (by decide)).trans (hsofar.parts .mb (by decide))
  · exact (hafter.parts .be (by decide)).trans (hsofar.parts .be (by decide))
  · exact hafter.time.trans hsofar.time
  · rw [hafter.rd F.PWR_WAKE_STAT_slept_s 0 (by decide), hk2.rd F.PWR_WAKE_STAT_slept_s 0 (by decide), hcount.rd F.PWR_WAKE_STAT_slept_s 0 (by decide),
      hslept]
  · exact (hafter.rd64 F.PWR_CAL_LO F.PWR_CAL_HI 0 (by decide) (by decide)).trans
      ((hk2.rd64 F.PWR_CAL_LO F.PWR_CAL_HI 0 (by decide) (by decide)).trans (hcal h))

/-- How a device shows the wake sources that it has seen. -/
def Dev.Seen (d n : Dev) (w c : Nat) (b : Bool) : Prop := n.rd F.PWR_WAKE_STAT_wake_in 0 = d.rd F.PWR_WAKE_STAT_wake_in 0 ||| w ∧
  n.rd F.PWR_WAKE_STAT_can 0 = d.rd F.PWR_WAKE_STAT_can 0 ||| c ∧ n.flag F.PWR_WAKE_STAT_perst 0 = (d.flag F.PWR_WAKE_STAT_perst 0 || b)

theorem Dev.seeWake_seen (d : Dev) {w c : Nat} (hw : w < 4) (hc : c < 256) (p : Bool) : d.Seen (d.seeWake w c p) w c p := by
  have hwake : d.rd F.PWR_WAKE_STAT_wake_in 0 ||| w < 2 ^ 2 := Nat.or_lt_two_pow (getBits_lt ..) hw
  have hcan : d.rd F.PWR_WAKE_STAT_can 0 ||| c < 2 ^ 8 := Nat.or_lt_two_pow (getBits_lt ..) hc
  have hk1 := Dev.wr_keeps d F.PWR_WAKE_STAT_wake_in 0 (d.rd F.PWR_WAKE_STAT_wake_in 0 ||| w) (by decide)
  have h1 := Dev.rd_wr_of_lt d F.PWR_WAKE_STAT_wake_in 0 (by decide) hwake
  unfold Dev.seeWake
  generalize d.wr F.PWR_WAKE_STAT_wake_in 0 (d.rd F.PWR_WAKE_STAT_wake_in 0 ||| w) = e1 at hk1 h1 ⊢
  have hk2 := Dev.wr_keeps e1 F.PWR_WAKE_STAT_can 0 (d.rd F.PWR_WAKE_STAT_can 0 ||| c) (by decide)
  have h2 := Dev.rd_wr_of_lt e1 F.PWR_WAKE_STAT_can 0 (by decide) hcan
  generalize e1.wr F.PWR_WAKE_STAT_can 0 (d.rd F.PWR_WAKE_STAT_can 0 ||| c) = e2 at hk2 h2 ⊢
  have h1' : e2.rd F.PWR_WAKE_STAT_wake_in 0 = d.rd F.PWR_WAKE_STAT_wake_in 0 ||| w := (hk2.rd F.PWR_WAKE_STAT_wake_in 0 (by decide)).trans h1
  have hperst : e2.flag F.PWR_WAKE_STAT_perst 0 = d.flag F.PWR_WAKE_STAT_perst 0 :=
    (hk2.flag F.PWR_WAKE_STAT_perst 0 (by decide)).trans (hk1.flag F.PWR_WAKE_STAT_perst 0 (by decide))
  cases p with
  | false => exact ⟨h1', h2, hperst.trans (Bool.or_false _).symm⟩
  | true =>
    have hput := Dev.put_keeps e2 F.PWR_WAKE_STAT_perst 0 true (by decide)
    exact ⟨(hput.rd F.PWR_WAKE_STAT_wake_in 0 (by decide)).trans h1', (hput.rd F.PWR_WAKE_STAT_can 0 (by decide)).trans h2,
      (Dev.flag_put e2 F.PWR_WAKE_STAT_perst 0 true (by decide) rfl).trans (Bool.or_true _).symm⟩

theorem Dev.Seen.of_keeps {w : Foot} {d e n : Dev} {a c : Nat} {b : Bool} (h : d.Seen e a c b) (hk : Keeps w e n)
    (hw : [F.PWR_WAKE_STAT_wake_in, F.PWR_WAKE_STAT_can, F.PWR_WAKE_STAT_perst].all w.avoids = true) : d.Seen n a c b := by
  simp only [List.all_cons, List.all_nil, Bool.and_true, Bool.and_eq_true] at hw
  obtain ⟨hin, hcan, hperst⟩ := hw
  obtain ⟨h1, h2, h3⟩ := h
  exact ⟨(hk.rd _ _ hin).trans h1, (hk.rd _ _ hcan).trans h2, (hk.flag _ _ hperst).trans h3⟩

theorem Dev.Seen.none (d : Dev) : d.Seen d 0 0 false := ⟨(Nat.or_zero _).symm, (Nat.or_zero _).symm, (Bool.or_false _).symm⟩

/-! ### What the sleep entry stores (R361, R365) -/

theorem Dev.journalReady_flt (d : Dev) : (d.journalReady false).flt = d.flt := rfl

theorem Dev.writeJournal_flt (d : Dev) (l : Nat) : (d.writeJournal l false).flt = d.flt := by
  have hready := d.journalReady_flt
  rw [Dev.writeJournal_eq]
  generalize d.journalReady false = e at hready ⊢
  have hwrite := e.writeFlash_keeps (0x8E0000 + 65536 * e.sec.journalSector + journalPlace l false) (e.journalBytes l false)
  generalize e.writeFlash (0x8E0000 + 65536 * e.sec.journalSector + journalPlace l false) (e.journalBytes l false) = g at hwrite ⊢
  exact (g.recordCalendar_keeps.parts .flt (by decide)).trans ((hwrite.parts .flt (by decide)).trans hready)

theorem Dev.journalAll_flt (d : Dev) : d.journalAll.flt = d.flt := by
  refine Dev.each_preserves (P := fun e => e.flt = d.flt) (f := fun d l => d.journalRx l false) (fun e l _ h => ?_) _ rfl
  rw [Dev.journalRx_eq]
  split
  · exact ((e.takeValue l).writeJournal_flt l).trans h
  · exact h

theorem Dev.flushSlot_fenced (d : Dev) (k : Nat) : (d.flushSlot k false).flt.fenced = d.flt.fenced := by
  have hflush := fun e hslot hnew => Dev.flushSlot_of_unflushed (d := d) (k := k) (e := e) hslot hnew false
  cases hslot : d.slot k with
  | none =>
    unfold Dev.flushSlot
    rw [hslot]
  | some e =>
    cases hold : e.flushed with
    | true =>
      unfold Dev.flushSlot
      rw [hslot]
      exact congrArg (fun e : Dev => e.flt.fenced) (if_pos hold)
    | false =>
      rw [hflush e hslot hold]
      have hring := (d.withFlushed k (d.chained e) false).writeRing_keeps 0x810000 (ringPlace d.sec.ledgerNext 2048 16384 false) 2048
        ((d.chained e).words.flatMap wordBytes)
      have hsame : (d.withFlushed k (d.chained e) false).flt.fenced = d.flt.fenced := rfl
      generalize (d.withFlushed k (d.chained e) false).writeRing 0x810000 (ringPlace d.sec.ledgerNext 2048 16384 false) 2048
        ((d.chained e).words.flatMap wordBytes) = g at hring ⊢
      have hflt : g.showUnflushed.flt = (d.withFlushed k (d.chained e) false).flt :=
        (g.showUnflushed_keeps.parts .flt (by decide)).trans (hring.parts .flt (by decide))
      rw [hflt, hsame]

/-- The oldest entry that awaits flash goes there. -/
def Dev.flushOldest (d : Dev) : Dev :=
  match oldestSlot d.unflushed with
  | some k => d.flushSlot k false
  | none => d

theorem Dev.flushLedger_eq (d : Dev) : d.flushLedger = d.each (List.range d.unflushed.length) fun d _ => d.flushOldest := rfl

theorem Dev.flushLedger_fenced (d : Dev) : d.flushLedger.flt.fenced = d.flt.fenced := by
  rw [Dev.flushLedger_eq]
  refine Dev.each_preserves (P := fun e => e.flt.fenced = d.flt.fenced) (f := fun d _ => d.flushOldest) (fun e _ _ h => ?_) _ rfl
  unfold Dev.flushOldest
  split
  · exact (e.flushSlot_fenced _).trans h
  · exact h

/-- The journal and the ledger go to flash before a sleep. -/
def Dev.sleepReady (d : Dev) : Dev := if d.imsetRuns then d.journalAll.flushLedger else d

theorem Dev.sleepReady_keeps (d : Dev) : Keeps ⟨false, [F.IMS_STAT_flash_err, F.IMS_STAT_ledger_queue, F.FLT_STAT_lost, F.FLT_STAT_unflushed, F.FLT_LOST],
    [.sec, .flt]⟩ d d.sleepReady :=
  Keeps.ite (fun _ => (d.journalAll_keeps.within (by decide)).trans (d.journalAll.flushLedger_keeps.within (by decide))) fun _ => .refl _ _

theorem Dev.sleepReady_fenced (d : Dev) : d.sleepReady.flt.fenced = d.flt.fenced := by
  unfold Dev.sleepReady
  split
  · rw [Dev.flushLedger_fenced, Dev.journalAll_flt]
  · rfl

/-! ### The end of a sleep entry (R393) -/

/-- The link is down, and the entry has ended with OK. -/
def Dev.entryShown (d : Dev) : Dev :=
  (((d.put F.HI_LINK_up 0 false).wr F.HI_LINK_speed 0 0).wr F.PWR_SLEEP_CTRL_status 0 Code.OK).put F.PWR_SLEEP_CTRL_enter 0 false

/-- The device is asleep. -/
def Dev.fallsAsleep (d : Dev) : Dev := (d.onPw fun p => { p with entering := false, asleep := true }).withClockOn false

/-- The device once its entry is done. -/
def Dev.sleeping (d : Dev) : Dev := d.sleepReady.entryShown.fallsAsleep.driveAll

/-- A sleep entry is given up. -/
def Dev.entryEnds (d : Dev) : Dev :=
  ((d.wr F.PWR_SLEEP_CTRL_status 0 Code.NOT_STOPPED).put F.PWR_SLEEP_CTRL_enter 0 false).onPw fun p => { p with entering := false, wakeSeen := none }

/-- What SLEEP_ENTRY_DONE does. -/
def Dev.entryStep (d : Dev) : Dev :=
  if d.pw.entering && !d.maySleep then d.entryEnds
  else if d.pw.entering && queuePairs.all (fun q => !d.flag F.HI_QP_CTRL_draining q) then
    match d.sleeping.pw.wakeSeen with
    | some p => d.sleeping.wakeUp p 0
    | none => d.sleeping
  else d

theorem Dev.sleeping_eq (d : Dev) : ((((((if d.imsetRuns then d.journalAll.flushLedger else d).put F.HI_LINK_up 0 false).wr F.HI_LINK_speed 0 0).wr
    F.PWR_SLEEP_CTRL_status 0 Code.OK).put F.PWR_SLEEP_CTRL_enter 0 false).onPw
      (fun p => { p with entering := false, asleep := true }) |>.withClockOn false).each (List.range 64) Dev.drivePort = d.sleeping := rfl

theorem execSleepEntryDone_eq (t : Nat) (s : State) : execSleepEntryDone t s = effect t s Dev.entryStep := by
  unfold execSleepEntryDone
  refine congrArg (effect t s) (funext fun d => ?_)
  dsimp only
  rw [d.sleeping_eq, Dev.entryStep, Dev.entryEnds] <;> (generalize d.sleeping = e; rfl)

theorem Dev.entryShown_keeps (d : Dev) : Keeps ⟨false, [F.HI_LINK_speed, F.HI_LINK_up, F.PWR_SLEEP_CTRL_enter, F.PWR_SLEEP_CTRL_status], []⟩ d d.entryShown :=
  ((((Dev.put_keeps _ F.HI_LINK_up _ _ (by decide)).within (by decide)).trans ((Dev.wr_keeps _ F.HI_LINK_speed _ _ (by decide)).within (by decide))).trans
    ((Dev.wr_keeps _ F.PWR_SLEEP_CTRL_status _ _ (by decide)).within (by decide))).trans
      ((Dev.put_keeps _ F.PWR_SLEEP_CTRL_enter _ _ (by decide)).within (by decide))

theorem Dev.entryShown_shows (d : Dev) : d.entryShown.flag F.HI_LINK_up 0 = false ∧ d.entryShown.rd F.PWR_SLEEP_CTRL_status 0 = Code.OK := by
  have hup := Dev.flag_put d F.HI_LINK_up 0 false (by decide) rfl
  unfold Dev.entryShown
  generalize d.put F.HI_LINK_up 0 false = e1 at hup ⊢
  have hspeed := Dev.wr_keeps e1 F.HI_LINK_speed 0 0 (by decide)
  generalize e1.wr F.HI_LINK_speed 0 0 = e2 at hspeed ⊢
  have hstatus := Dev.wr_keeps e2 F.PWR_SLEEP_CTRL_status 0 Code.OK (by decide)
  have hok := Dev.rd_wr_of_lt e2 F.PWR_SLEEP_CTRL_status 0 (v := Code.OK) (by decide) (by decide)
  generalize e2.wr F.PWR_SLEEP_CTRL_status 0 Code.OK = e3 at hstatus hok ⊢
  have henter := Dev.put_keeps e3 F.PWR_SLEEP_CTRL_enter 0 false (by decide)
  refine ⟨?_, (henter.rd F.PWR_SLEEP_CTRL_status 0 (by decide)).trans hok⟩
  rw [henter.flag F.HI_LINK_up 0 (by decide), hstatus.flag F.HI_LINK_up 0 (by decide), hspeed.flag F.HI_LINK_up 0 (by decide), hup]

/-- What of the device a sleep entry leaves. -/
def sleepingFoot : Foot := ⟨false, [F.HI_LINK_speed, F.HI_LINK_up, F.IMS_STAT_flash_err, F.IMS_STAT_ledger_queue, F.FLT_STAT_lost, F.FLT_STAT_unflushed,
  F.FLT_LOST, F.PWR_SLEEP_CTRL_enter, F.PWR_SLEEP_CTRL_status], [.clock, .pp, .sec, .flt, .pw]⟩

theorem Dev.sleeping_shows (d : Dev) : let n := d.sleeping
    Keeps sleepingFoot d n ∧ n.pw = { d.pw with entering := false, asleep := true } ∧ n.clockOn = false ∧ n.flag F.HI_LINK_up 0 = false ∧
      n.rd F.PWR_SLEEP_CTRL_status 0 = Code.OK ∧ n.flt.fenced = d.flt.fenced ∧ ∀ (p : Fin 64) hi, (n.drv p hi).gate = false := by
  have hready := d.sleepReady_keeps
  have hfenced := d.sleepReady_fenced
  dsimp only
  unfold Dev.sleeping
  generalize d.sleepReady = e1 at hready hfenced ⊢
  have hshown := e1.entryShown_keeps
  obtain ⟨hup, hok⟩ := e1.entryShown_shows
  generalize e1.entryShown = e2 at hshown hup hok ⊢
  have hfalls : Keeps ⟨false, [], [.clock, .pw]⟩ e2 e2.fallsAsleep :=
    ((Dev.onPw_keeps e2 _).within (by decide)).trans ((Dev.withClockOn_keeps _ _).within (by decide))
  have hasleep : e2.fallsAsleep.pw = { e2.pw with entering := false, asleep := true } ∧ e2.fallsAsleep.clockOn = false := ⟨rfl, rfl⟩
  obtain ⟨hpw, hclock⟩ := hasleep
  generalize e2.fallsAsleep = e3 at hfalls hpw hclock ⊢
  have hdrive := e3.driveAll_keeps
  have hgates := Dev.driveAll_asleep (d := e3) (by rw [hpw])
  generalize e3.driveAll = n at hdrive hgates ⊢
  have hpw2 : e2.pw = d.pw := (hshown.parts .pw (by decide)).trans (hready.parts .pw (by decide))
  have hflt : n.flt = e1.flt := (hdrive.parts .flt (by decide)).trans ((hfalls.parts .flt (by decide)).trans (hshown.parts .flt (by decide)))
  refine ⟨(((hready.within (by decide)).trans (hshown.within (by decide))).trans (hfalls.within (by decide))).trans (hdrive.within (by decide)), ?_, ?_, ?_, ?_, ?_,
    hgates⟩
  · exact (hdrive.parts .pw (by decide)).trans (hpw.trans (by rw [hpw2]))
  · exact (hdrive.parts .clock (by decide)).trans hclock
  · exact (hdrive.flag F.HI_LINK_up 0 (by decide)).trans ((hfalls.flag F.HI_LINK_up 0 (by decide)).trans hup)
  · exact (hdrive.rd F.PWR_SLEEP_CTRL_status 0 (by decide)).trans ((hfalls.rd F.PWR_SLEEP_CTRL_status 0 (by decide)).trans hok)
  · rw [hflt, hfenced]

/-- A device once it sleeps. -/
def Dev.FellAsleep (d n : Dev) : Prop := n.pw.asleep = true ∧ n.pw.entering = false ∧ n.clockOn = false ∧
  n.canStbPin = (if d.pw.vcan then some true else none) ∧ n.flag F.HI_LINK_up 0 = false ∧ n.rd F.PWR_SLEEP_CTRL_status 0 = Code.OK ∧
  n.flt.fenced = d.flt.fenced ∧ n.devState = d.devState ∧ n.mb = d.mb ∧ n.be = d.be ∧ n.sc = d.sc ∧ ∀ (p : Fin 64) hi, (n.drv p hi).gate = false

theorem Dev.sleeping_fellAsleep (d : Dev) : d.FellAsleep d.sleeping := by
  obtain ⟨hk, hpw, hclock, hup, hok, hfenced, hgates⟩ := d.sleeping_shows
  generalize d.sleeping = n at hk hpw hclock hup hok hfenced hgates ⊢
  refine ⟨by rw [hpw], by rw [hpw], hclock, ?_, hup, hok, hfenced, hk.rd F.DEV_STATE_state 0 (by decide), hk.parts .mb (by decide), hk.parts .be (by decide),
    hk.parts .sc (by decide), hgates⟩
  rw [Dev.canStbPin, Dev.canLand, hpw]
  rfl

section
variable {d : Dev}

theorem Dev.entryStep_ends (hentering : d.pw.entering = true) (hnot : ¬ d.Sleeps) : d.entryStep = d.entryEnds := by
  have hmay : d.maySleep = false := by
    rw [Bool.eq_false_iff, ne_eq, d.maySleep_iff]
    exact hnot
  exact if_pos (by rw [hentering, hmay]; rfl)

theorem Dev.entryStep_of_sleeps (hsleeps : d.Sleeps) : d.entryStep =
    if d.pw.entering && queuePairs.all (fun q => !d.flag F.HI_QP_CTRL_draining q) then
      match d.sleeping.pw.wakeSeen with
      | some p => d.sleeping.wakeUp p 0
      | none => d.sleeping
    else d :=
  if_neg (by rw [d.maySleep_iff.mpr hsleeps, Bool.not_true, Bool.and_false]; exact Bool.false_ne_true)

theorem Dev.entryStep_sleeps (hentering : d.pw.entering = true) (hsleeps : d.Sleeps) (hdrained : ∀ q : Fin 64, d.flag F.HI_QP_CTRL_draining q = false) :
    (d.pw.wakeSeen = none → d.entryStep = d.sleeping) ∧ ∀ p, d.pw.wakeSeen = some p → d.entryStep = d.sleeping.wakeUp p 0 := by
  have hall : queuePairs.all (fun q => !d.flag F.HI_QP_CTRL_draining q) = true := by
    rw [List.all_eq_true]
    intro q hq
    rw [hdrained ⟨q, List.mem_range.mp hq⟩]
    rfl
  obtain ⟨-, hpw, -⟩ := d.sleeping_shows
  have hseen : d.sleeping.pw.wakeSeen = d.pw.wakeSeen := by rw [hpw]
  rw [Dev.entryStep_of_sleeps hsleeps, if_pos (by rw [hentering, hall]; rfl), hseen]
  refine ⟨fun h => ?_, fun p h => ?_⟩
  · rw [h]
  · rw [h]

end

theorem Dev.entryStep_none {d : Dev} (h : d.pw.entering = false ∨ (d.Sleeps ∧ ∃ q : Fin 64, d.flag F.HI_QP_CTRL_draining q = true)) : d.entryStep = d := by
  unfold Dev.entryStep
  rcases h with h | ⟨hsleeps, q, hq⟩
  · rw [h]
    rfl
  · have hall : queuePairs.all (fun q => !d.flag F.HI_QP_CTRL_draining q) = false := by
      rw [List.all_eq_false]
      exact ⟨q, List.mem_range.mpr q.isLt, by rw [hq]; decide⟩
    rw [d.maySleep_iff.mpr hsleeps, hall, Bool.and_false, if_neg (by rw [Bool.not_true, Bool.and_false]; exact Bool.false_ne_true), if_neg Bool.false_ne_true]

theorem Dev.entryEnds_shows (d : Dev) : let n := d.entryEnds
    n.pw.entering = false ∧ n.pw.asleep = d.pw.asleep ∧ n.clockOn = d.clockOn ∧ n.rd F.PWR_SLEEP_CTRL_status 0 = Code.NOT_STOPPED := by
  refine ⟨rfl, rfl, rfl, ?_⟩
  exact ((Dev.put_keeps _ F.PWR_SLEEP_CTRL_enter 0 false (by decide)).rd F.PWR_SLEEP_CTRL_status 0 (by decide)).trans
    (Dev.rd_wr_of_lt d F.PWR_SLEEP_CTRL_status 0 (v := Code.NOT_STOPPED) (by decide) (by decide))

/-- An entry that finds a wake source ends awake. -/
theorem Dev.sleeping_wakes (d : Dev) (p : Bool) : let n := d.sleeping.wakeUp p 0
    d.Woken n p ∧ d.Seen n 0 0 false ∧ n.time = d.time := by
  obtain ⟨hk, -, -, -, -, hfenced, -⟩ := d.sleeping_shows
  generalize d.sleeping = e at hk hfenced ⊢
  obtain ⟨hwoken, htime, -⟩ := e.wakeUp_shows p 0
  have hwake := e.wakeUp_keeps p 0
  dsimp only
  generalize e.wakeUp p 0 = n at hwoken htime hwake ⊢
  obtain ⟨h1, h2, h3, h4, hplain, htaken, hfen, hdev, hmb, hbe⟩ := hwoken
  rw [hk.fwStores (by decide), hk.parts .sc (by decide)] at hplain htaken
  refine ⟨⟨h1, h2, h3, h4, hplain, htaken, hfen.trans hfenced, hdev.trans (hk.rd F.DEV_STATE_state 0 (by decide)), hmb.trans (hk.parts .mb (by decide)),
    hbe.trans (hk.parts .be (by decide))⟩, ((Dev.Seen.none d).of_keeps hk (by decide)).of_keeps hwake (by decide), htime.trans hk.time⟩

end Sys2Proof.Machine
end

section
/-! SLEEP_REQUEST and WAKE (R393, R394, R401); obligation O47. -/

namespace Sys2Proof.Machine

/-! ### A sleep request (R393) -/

/-- A refused request. -/
def Dev.requestRefused (d : Dev) : Dev := (d.wr F.PWR_SLEEP_CTRL_status 0 Code.NOT_STOPPED).put F.PWR_SLEEP_CTRL_enter 0 false

/-- A sleep entry has begun. -/
def Dev.entryBegun (d : Dev) : Dev := (d.put F.PWR_SLEEP_CTRL_enter 0 true).onPw fun p => { p with entering := true }

/-- Every queue pair is disabled. -/
def Dev.pairsOff (d : Dev) : Dev := d.each queuePairs Dev.disableQp

/-- Both sessions end. -/
def Dev.sessionsEnd (d : Dev) : Dev := (d.setSession false none).setSession true none

/-- Freshness is journalled. -/
def Dev.freshKept (d : Dev) : Dev := if d.imsetRuns then d.journalAll else d

/-- What SLEEP_REQUEST does. -/
def Dev.requestStep (d : Dev) : Dev := if d.fwStores then d.sleepRequest else d

theorem execSleepRequest_eq (t : Nat) (s : State) : execSleepRequest t s = effect t s Dev.requestStep := rfl

theorem Dev.sleepRequest_refused {d : Dev} (h : ¬ d.Sleeps) : d.sleepRequest = d.requestRefused := by
  have hmay : d.maySleep = false := by
    rw [Bool.eq_false_iff, ne_eq, d.maySleep_iff]
    exact h
  exact if_pos hmay

theorem Dev.sleepRequest_begins {d : Dev} (h : d.Sleeps) : d.sleepRequest = d.entryBegun.pairsOff.sessionsEnd.freshKept :=
  if_neg (by rw [d.maySleep_iff.mpr h]; decide)

theorem Dev.requestRefused_shows (d : Dev) : let n := d.requestRefused
    n.rd F.PWR_SLEEP_CTRL_status 0 = Code.NOT_STOPPED ∧ n.pw = d.pw ∧ n.sec = d.sec ∧ n.hi = d.hi :=
  ⟨((Dev.put_keeps _ F.PWR_SLEEP_CTRL_enter 0 false (by decide)).rd F.PWR_SLEEP_CTRL_status 0 (by decide)).trans
    (Dev.rd_wr_of_lt d F.PWR_SLEEP_CTRL_status 0 (v := Code.NOT_STOPPED) (by decide) (by decide)), rfl, rfl, rfl⟩

theorem Dev.disableQp_qpOn (d : Dev) (q : Nat) : (d.disableQp q).qpOn q = false := by
  unfold Dev.disableQp
  split
  · exact d.endPending_qpOn q
  next h => exact Bool.eq_false_iff.mpr h

theorem Dev.disableQp_stays {d : Dev} {k : Nat} (h : d.qpOn k = false) (q : Nat) : (d.disableQp q).qpOn k = false := by
  unfold Dev.disableQp
  split
  · exact Dev.endPending_stays h q
  · exact h

theorem Dev.pairsOff_qpOn (d : Dev) (q : Fin 64) : d.pairsOff.qpOn q = false :=
  Dev.each_reaches (P := fun e => e.qpOn q = false) (f := Dev.disableQp) (List.mem_range.mpr q.isLt) (fun e => e.disableQp_qpOn q)
    (fun _ k _ h => Dev.disableQp_stays h k) d

/-- What of the device closing its queue pairs touches. -/
def pairsFoot : Foot := ⟨false, [F.SC_TM_STAT_last_status, F.SC_TM_CNT_refusals, F.SC_CH_STAT_last_status, F.SC_LV_STAT_last_status,
  F.SC_DR_STAT_last_status, F.HI_QP_CTRL_enable, F.HI_QP_CTRL_draining, F.HI_QP_STAT_sq_head, F.HI_QP_FLAGS_in_flight, F.CN_STAT_slots,
  F.FLT_STAT_lost, F.FLT_LOST], [.hi, .cn, .flt]⟩

theorem Dev.pairsOff_keeps (d : Dev) : Keeps pairsFoot d d.pairsOff := d.each_keeps _ _ Dev.disableQp_keeps

theorem Dev.sessionsEnd_keeps (d : Dev) : Keeps ⟨false, [F.SEC_STAT_key_slot, F.SEC_STAT_enrolled, F.SEC_STAT_session_qp0, F.SEC_STAT_session_uart], [.sec]⟩
    d d.sessionsEnd := (d.setSession_keeps false none).trans (Dev.setSession_keeps _ true none)

theorem Dev.sessionsEnd_shows (d : Dev) : d.sessionsEnd.sec.qpSession = none ∧ d.sessionsEnd.sec.uartSession = none := by
  rw [Dev.sessionsEnd, Dev.sec_setSession, Dev.sec_setSession]
  exact ⟨rfl, rfl⟩

theorem Dev.freshKept_keeps (d : Dev) : Keeps ⟨false, [F.IMS_STAT_flash_err, F.FLT_STAT_lost, F.FLT_LOST], [.sec, .flt]⟩ d d.freshKept :=
  Keeps.ite (fun _ => d.journalAll_keeps) fun _ => .refl _ _

theorem Dev.freshKept_sessions (d : Dev) : d.freshKept.sec.qpSession = d.sec.qpSession ∧ d.freshKept.sec.uartSession = d.sec.uartSession := by
  unfold Dev.freshKept
  split
  · obtain ⟨-, ⟨f, s, c, v, a, hvalues⟩, -⟩ := d.journalAll_journals
    rw [hvalues]
    exact ⟨rfl, rfl⟩
  · exact ⟨rfl, rfl⟩

theorem Dev.sleepRequest_shows {d : Dev} (h : d.Sleeps) : let n := d.sleepRequest
    n.pw.entering = true ∧ n.sec.qpSession = none ∧ n.sec.uartSession = none ∧ (∀ q : Fin 64, n.qpOn q = false) ∧ n.devState = d.devState := by
  have hput := Dev.put_keeps d F.PWR_SLEEP_CTRL_enter 0 true (by decide)
  have hbegun : d.entryBegun.pw.entering = true := rfl
  have hdev : d.entryBegun.devState = d.devState := hput.rd F.DEV_STATE_state 0 (by decide)
  dsimp only
  rw [Dev.sleepRequest_begins h]
  generalize d.entryBegun = e1 at hbegun hdev ⊢
  have hoff := e1.pairsOff_qpOn
  have hpairs := e1.pairsOff_keeps
  generalize e1.pairsOff = e2 at hoff hpairs ⊢
  obtain ⟨hqp, huart⟩ := e2.sessionsEnd_shows
  have hend := e2.sessionsEnd_keeps
  generalize e2.sessionsEnd = e3 at hqp huart hend ⊢
  obtain ⟨hqp', huart'⟩ := e3.freshKept_sessions
  have hkept := e3.freshKept_keeps
  generalize e3.freshKept = n at hqp' huart' hkept ⊢
  have hpw : n.pw = e1.pw := (hkept.parts .pw (by decide)).trans ((hend.parts .pw (by decide)).trans (hpairs.parts .pw (by decide)))
  refine ⟨by rw [hpw, hbegun], hqp'.trans hqp, huart'.trans huart, fun q => ?_, ?_⟩
  · exact (hkept.flag F.HI_QP_CTRL_enable q (by decide)).trans ((hend.flag F.HI_QP_CTRL_enable q (by decide)).trans (hoff q))
  · exact (hkept.rd F.DEV_STATE_state 0 (by decide)).trans ((hend.rd F.DEV_STATE_state 0 (by decide)).trans
      ((hpairs.rd F.DEV_STATE_state 0 (by decide)).trans hdev))

/-! ### A wake source (R394, R401) -/

/-- The edges at WAKE_IN and the controllers that count as wake sources. -/
def Dev.wakeEdges (d : Dev) (e : WakeEdges) : Nat :=
  (e.rise.toNat &&& d.rd F.PWR_SLEEP_CFG_wake_in_pol 0) ||| (e.fall.toNat &&& (3 - d.rd F.PWR_SLEEP_CFG_wake_in_pol 0))

def Dev.wakeCans (d : Dev) (can : BitVec 8) : Nat := if d.pw.vcan then can.toNat else 0

/-- Does a source that is enabled stand among those seen together? -/
def Dev.wakes (d : Dev) (w c : Nat) (perst : Bool) : Bool :=
  w &&& d.rd F.PWR_SLEEP_CFG_wake_in_en 0 != 0 || c &&& d.rd F.PWR_SLEEP_CFG_can_en 0 != 0 || perst && d.flag F.PWR_SLEEP_CFG_perst_en 0

/-- What WAKE does with the sources seen together. -/
def Dev.wakeStep (d : Dev) (w c : Nat) (perst : Bool) (slept : Nat) : Dev :=
  if d.pw.asleep || d.pw.entering then
    let n := d.seeWake w c perst
    if !d.wakes w c perst then n
    else if n.pw.asleep then (n.withTime ((n.time + slept) % 2 ^ 64)).wakeUp perst slept
    else n.onPw fun v => { v with wakeSeen := some (perst || v.wakeSeen == some true) }
  else d

theorem execWake_eq (t : Nat) (e : WakeEdges) (can : BitVec 8) (perst : Bool) (slept : Nat) (s : State) :
    execWake t e can perst slept s = effect t s fun d => d.wakeStep (d.wakeEdges e) (d.wakeCans can) perst slept := rfl

theorem Dev.wakes_iff (d : Dev) (w c : Nat) (perst : Bool) : d.wakes w c perst = true ↔ w &&& d.rd F.PWR_SLEEP_CFG_wake_in_en 0 ≠ 0 ∨
    c &&& d.rd F.PWR_SLEEP_CFG_can_en 0 ≠ 0 ∨ (perst = true ∧ d.flag F.PWR_SLEEP_CFG_perst_en 0 = true) := by
  rw [Dev.wakes, Bool.or_eq_true, Bool.or_eq_true, Bool.and_eq_true, bne_iff_ne, bne_iff_ne, or_assoc]

theorem Dev.wakeEdges_lt (d : Dev) (e : WakeEdges) : d.wakeEdges e < 4 :=
  Nat.or_lt_two_pow (n := 2) (lt_of_le_of_lt Nat.and_le_left e.rise.isLt) (lt_of_le_of_lt Nat.and_le_left e.fall.isLt)

theorem Dev.wakeCans_lt (d : Dev) (can : BitVec 8) : d.wakeCans can < 256 := by
  unfold Dev.wakeCans
  split
  · exact can.isLt
  · decide

section
variable {d : Dev} {w c : Nat} {perst : Bool} {slept : Nat} (hw : w < 4) (hc : c < 256)

theorem Dev.wakeStep_none (hasleep : d.pw.asleep = false) (hentering : d.pw.entering = false) : d.wakeStep w c perst slept = d :=
  if_neg (by rw [hasleep, hentering]; decide)

theorem Dev.wakeStep_of_live (h : (d.pw.asleep || d.pw.entering) = true) : d.wakeStep w c perst slept =
    if !d.wakes w c perst then d.seeWake w c perst
    else if (d.seeWake w c perst).pw.asleep then
      ((d.seeWake w c perst).withTime (((d.seeWake w c perst).time + slept) % 2 ^ 64)).wakeUp perst slept
    else (d.seeWake w c perst).onPw fun v => { v with wakeSeen := some (perst || v.wakeSeen == some true) } := if_pos h

theorem Dev.seeWake_same (d : Dev) (w c : Nat) (perst : Bool) : (d.seeWake w c perst).pw = d.pw := (d.seeWake_keeps w c perst).parts .pw (by decide)

include hw hc

/-- No source that is enabled: what was seen is recorded, and nothing else. -/
theorem Dev.wakeStep_records (h : (d.pw.asleep || d.pw.entering) = true) (hnot : d.wakes w c perst = false) : let n := d.wakeStep w c perst slept
    d.Seen n w c perst ∧ n.pw = d.pw ∧ n.clockOn = d.clockOn ∧ n.time = d.time ∧ n.flt = d.flt := by
  have hk := d.seeWake_keeps w c perst
  dsimp only
  rw [Dev.wakeStep_of_live h, if_pos (by rw [hnot]; rfl)]
  exact ⟨Dev.seeWake_seen d hw hc perst, hk.parts .pw (by decide), hk.parts .clock (by decide), hk.time, hk.parts .flt (by decide)⟩

/-- A source seen during the entry is kept for its end. -/
theorem Dev.wakeStep_entering (hasleep : d.pw.asleep = false) (hentering : d.pw.entering = true) : let n := d.wakeStep w c perst slept
    d.Seen n w c perst ∧ n.flt = d.flt ∧
      (d.wakes w c perst = true → n.pw = { d.pw with wakeSeen := some (perst || d.pw.wakeSeen == some true) }) ∧
      (d.wakes w c perst = false → n.pw = d.pw) := by
  have hlive : (d.pw.asleep || d.pw.entering) = true := by rw [hentering, Bool.or_true]
  cases hwakes : d.wakes w c perst with
  | false =>
    obtain ⟨hseen, hpw, -, -, hflt⟩ := Dev.wakeStep_records (slept := slept) hw hc hlive hwakes
    exact ⟨hseen, hflt, fun h => absurd h Bool.false_ne_true, fun _ => hpw⟩
  | true =>
    have hk := d.seeWake_keeps w c perst
    have hseen := Dev.seeWake_seen d hw hc perst
    dsimp only
    rw [Dev.wakeStep_of_live hlive, hwakes, if_neg (by decide), if_neg (by rw [d.seeWake_same, hasleep]; exact Bool.false_ne_true)]
    have hpw := d.seeWake_same w c perst
    generalize d.seeWake w c perst = e at hk hseen hpw ⊢
    have hon := e.onPw_keeps fun v => { v with wakeSeen := some (perst || v.wakeSeen == some true) }
    refine ⟨hseen.of_keeps hon (by decide), (hon.parts .flt (by decide)).trans (hk.parts .flt (by decide)), fun _ => ?_, fun h => absurd h.symm Bool.false_ne_true⟩
    exact congrArg (fun v : Pw => { v with wakeSeen := some (perst || v.wakeSeen == some true) }) hpw

/-- A source that is enabled wakes the device. -/
theorem Dev.wakeStep_wakes (hasleep : d.pw.asleep = true) (hwakes : d.wakes w c perst = true) : let n := d.wakeStep w c perst slept
    d.Woken n perst ∧ d.Seen n w c perst ∧ n.time = (d.time + slept) % 2 ^ 64 ∧
      n.rd F.PWR_WAKE_STAT_slept_s 0 = min (slept / 800000000) (2 ^ 21 - 1) ∧
      (d.fenced Kind.island 8 = false → n.calendar = (d.calendar + slept / 800000000) % 2 ^ 64) := by
  have hk := d.seeWake_keeps w c perst
  have hseen := Dev.seeWake_seen d hw hc perst
  have hlive : (d.pw.asleep || d.pw.entering) = true := by rw [hasleep, Bool.true_or]
  dsimp only
  rw [Dev.wakeStep_of_live hlive, hwakes, if_neg (by decide), if_pos (by rw [d.seeWake_same, hasleep]), hk.time]
  generalize d.seeWake w c perst = e at hk hseen ⊢
  have hsame : (e.withTime ((d.time + slept) % 2 ^ 64)).fwStores = e.fwStores ∧ (e.withTime ((d.time + slept) % 2 ^ 64)).sc = e.sc ∧
      (e.withTime ((d.time + slept) % 2 ^ 64)).flt = e.flt ∧ (e.withTime ((d.time + slept) % 2 ^ 64)).devState = e.devState ∧
      (e.withTime ((d.time + slept) % 2 ^ 64)).mb = e.mb ∧ (e.withTime ((d.time + slept) % 2 ^ 64)).be = e.be ∧
      (e.withTime ((d.time + slept) % 2 ^ 64)).calendar = e.calendar := ⟨rfl, rfl, rfl, rfl, rfl, rfl, rfl⟩
  have hwake : ∀ f i, (e.withTime ((d.time + slept) % 2 ^ 64)).rd f i = e.rd f i := fun _ _ => rfl
  have htime : (e.withTime ((d.time + slept) % 2 ^ 64)).time = (d.time + slept) % 2 ^ 64 := rfl
  generalize e.withTime ((d.time + slept) % 2 ^ 64) = g at hsame hwake htime ⊢
  obtain ⟨hstores, hsc, hflt, hdev, hmb, hbe, hcal⟩ := hsame
  obtain ⟨hwoken, htime', hslept, hcalendar⟩ := g.wakeUp_shows perst slept
  have hup := g.wakeUp_keeps perst slept
  generalize g.wakeUp perst slept = n at hwoken htime' hslept hcalendar hup ⊢
  obtain ⟨h1, h2, h3, h4, hplain, htaken, hfen, hdev', hmb', hbe'⟩ := hwoken
  rw [hstores, hsc, hk.fwStores (by decide), hk.parts .sc (by decide)] at hplain htaken
  refine ⟨⟨h1, h2, h3, h4, hplain, htaken, ?_, ?_, ?_, ?_⟩, ?_, htime'.trans htime, hslept, fun h => ?_⟩
  · rw [hfen, hflt, show e.flt = d.flt from hk.parts .flt (by decide)]
  · exact hdev'.trans (hdev.trans (hk.rd F.DEV_STATE_state 0 (by decide)))
  · exact hmb'.trans (hmb.trans (hk.parts .mb (by decide)))
  · exact hbe'.trans (hbe.trans (hk.parts .be (by decide)))
  · have hg : d.Seen g w c perst := by
      obtain ⟨hin, hcan, hperst⟩ := hseen
      exact ⟨(hwake ..).trans hin, (hwake ..).trans hcan, by rw [Dev.flag, hwake]; exact hperst⟩
    exact hg.of_keeps hup (by decide)
  · have hlive : g.fenced Kind.island 8 = false := by rw [Dev.fenced_congr hflt, Dev.fenced_congr (hk.parts .flt (by decide)), h]
    rw [hcalendar hlive, hcal, show e.calendar = d.calendar from hk.rd64 F.PWR_CAL_LO F.PWR_CAL_HI 0 (by decide) (by decide)]

end

end Sys2Proof.Machine
end

section
namespace Sys2Proof.Machine

/-- Settles O47: cold boot, supplies, the rail, the reference, sleep, wake and the link do what chapter 18 and the choices logged for them say. -/
theorem powerAndSleep : Obligations.PowerAndSleep := by
  unfold Obligations.PowerAndSleep
  intro s t vin vfab slept x0 up z k d sleeps worst aim mayStep x a supply seen woken
  have hnow : s.now t = d := rfl
  have hsleeps : sleeps ↔ d.Sleeps := Iff.rfl
  have hworst : worst = d.worstRat := rfl
  have haim : aim = d.aimRat := rfl
  have hmay : mayStep ↔ d.rd F.PWR_FAB_CFG_mode 0 = 1 ∧ ∀ a, d.pw.steppedAt = some a → a + 800000 ≤ d.time := Iff.rfl
  have hfqi : a 0 * x + a 1 * x ^ 2 + a 2 * x ^ 3 = d.fqiCorrection := d.fqiCorrection_eq.symm
  have hsupply : supply = d.ReportsSupply := rfl
  have hseen : seen = d.Seen := rfl
  have hwoken : woken = d.Woken := rfl
  clear_value woken seen supply x a mayStep aim worst sleeps d
  subst hworst haim hsupply hseen hwoken
  refine ⟨?boots, ?live, ?high, ?low, ?speed, ?rail, ?fqi, ?idle, ?sleeps, ?refused, ?asleep, ?ends, ?waits, ?wake, ?link⟩
  case boots =>
    exact fun hheld => Does.of_step ((show exec _ s = execColdBoot t vin vfab x0 s from rfl).trans (execColdBoot_eq ..)) hnow rfl
      (Dev.coldStep_shows hheld vin vfab x0)
  case live =>
    exact fun hlive => Does.of_step ((show exec _ s = execColdBoot t vin vfab x0 s from rfl).trans (execColdBoot_eq ..)) hnow
      (if_neg (by rw [hlive]; exact Bool.false_ne_true)) rfl
  case high =>
    exact fun h => Does.of_step ((show exec _ s = execVinHigh t vin s from rfl).trans (execVinHigh_eq ..)) hnow rfl (Dev.vinStep_high h)
  case low =>
    exact fun h => Does.of_step ((show exec _ s = execVinHigh t vin s from rfl).trans (execVinHigh_eq ..)) hnow rfl (Dev.vinStep_low h)
  case speed => exact Does.of_step (show exec _ s = execSpeedMonitor t z k s from rfl) hnow rfl (d.speed_shows z k)
  case rail =>
    obtain ⟨hpw, hreached, hlimit⟩ := d.railStepped.railShown_shows up
    obtain ⟨hflt, htime⟩ := d.railStepped_same
    refine Does.of_step ((show exec _ s = execVfabStep t up s from rfl).trans (execVfabStep_eq ..)) hnow rfl
      ⟨fun hstep hslow hroom => ?_, fun hstep hfast hroom => ?_, fun hend => ?_, fun hoff => ?_, fun h => ?_, fun h => ?_⟩
    · obtain ⟨hmode, hrested⟩ := hmay.mp hstep
      rw [hpw, Dev.railStepped_of_steps (Dev.railStep_up hmode hslow hroom) (by decide) (Dev.railRested_of_rested hrested)]
      exact ⟨rfl, rfl⟩
    · obtain ⟨hmode, hrested⟩ := hmay.mp hstep
      rw [hpw, Dev.railStepped_of_steps (Dev.railStep_down hmode hfast hroom) (by decide) (Dev.railRested_of_rested hrested)]
      refine ⟨?_, rfl⟩
      dsimp only
      omega
    · rw [hpw, Dev.railStepped_of_rests (.inl (Dev.railStep_none hend))]
    · rw [hpw, Dev.railStepped_of_rests]
      rcases hoff with hmode | ⟨b, hat, hearly⟩
      · exact .inl (Dev.railStep_off hmode)
      · refine .inr ?_
        unfold Dev.railRested
        rw [hat]
        dsimp only
        rw [Bool.eq_false_iff, ne_eq, Nat.ble_eq]
        exact Nat.not_le.mpr hearly
    · obtain ⟨hfab, hsame⟩ := hreached h
      exact ⟨by rw [hfab, hpw], hsame.trans hflt⟩
    · obtain ⟨hflag, hreports⟩ := hlimit h
      exact ⟨hflag, hreports.of_same hflt htime⟩
  case fqi =>
    rw [hfqi]
    exact Does.of_step (show exec _ s = execFqiTcUpdate t s from rfl) hnow rfl rfl
  case idle =>
    exact fun hoff => Does.of_step ((show exec _ s = execSleepRequest t s from rfl).trans (execSleepRequest_eq ..)) hnow (if_neg (by rw [hoff]; exact Bool.false_ne_true)) rfl
  case sleeps =>
    exact fun hfw h => Does.of_step ((show exec _ s = execSleepRequest t s from rfl).trans (execSleepRequest_eq ..)) hnow (if_pos hfw) (Dev.sleepRequest_shows (hsleeps.mp h))
  case refused =>
    intro hfw h
    refine Does.of_step ((show exec _ s = execSleepRequest t s from rfl).trans (execSleepRequest_eq ..)) hnow ((if_pos hfw).trans (Dev.sleepRequest_refused fun hs => h (hsleeps.mpr hs))) ?_
    exact d.requestRefused_shows
  case asleep =>
    intro hentering h hdrained
    obtain ⟨hnone, hsome⟩ := Dev.entryStep_sleeps hentering (hsleeps.mp h) hdrained
    exact ⟨fun hs => Does.of_step ((show exec _ s = execSleepEntryDone t s from rfl).trans (execSleepEntryDone_eq ..)) hnow (hnone hs) d.sleeping_fellAsleep,
      fun p hs => Does.of_step ((show exec _ s = execSleepEntryDone t s from rfl).trans (execSleepEntryDone_eq ..)) hnow (hsome p hs) (d.sleeping_wakes p)⟩
  case ends =>
    intro hentering h
    exact Does.of_step ((show exec _ s = execSleepEntryDone t s from rfl).trans (execSleepEntryDone_eq ..)) hnow
      (Dev.entryStep_ends hentering fun hs => h (hsleeps.mpr hs)) d.entryEnds_shows
  case waits =>
    intro h
    exact Does.of_step ((show exec _ s = execSleepEntryDone t s from rfl).trans (execSleepEntryDone_eq ..)) hnow
      (Dev.entryStep_none (h.imp_right fun ⟨hs, hq⟩ => ⟨hsleeps.mp hs, hq⟩)) rfl
  case wake =>
    intro rise fall can perst rising w c wakes
    have hw : w = d.wakeEdges ⟨rise, fall⟩ := rfl
    have hc : c = d.wakeCans can := rfl
    have hwakes : wakes ↔ d.wakes w c perst = true := (d.wakes_iff w c perst).symm
    clear_value wakes c w
    subst hw hc
    have hdo : ∀ {P : Dev → Prop} {n : Dev}, d.wakeStep (d.wakeEdges ⟨rise, fall⟩) (d.wakeCans can) perst slept = n → P n →
        Does s (.wake t ⟨rise, fall⟩ can perst slept) P := fun hn hP =>
      Does.of_step ((show exec _ s = execWake t ⟨rise, fall⟩ can perst slept s from rfl).trans (execWake_eq ..)) hnow hn hP
    have hw := d.wakeEdges_lt ⟨rise, fall⟩
    have hc := d.wakeCans_lt can
    refine ⟨fun hasleep h => hdo rfl (Dev.wakeStep_wakes hw hc hasleep (hwakes.mp h)), fun hasleep h => hdo rfl ?_, fun hasleep hentering => hdo rfl ?_,
      fun hasleep hentering => hdo (Dev.wakeStep_none hasleep hentering) rfl⟩
    · exact Dev.wakeStep_records hw hc (by rw [hasleep, Bool.true_or]) (Bool.eq_false_iff.mpr fun hn => h (hwakes.mpr hn))
    · obtain ⟨hseen, hflt, hkept, hleft⟩ := Dev.wakeStep_entering (slept := slept) hw hc hasleep hentering
      exact ⟨hseen, hflt, fun h => hkept (hwakes.mp h), fun h => hleft (Bool.eq_false_iff.mpr fun hn => h (hwakes.mpr hn))⟩
  case link =>
    intro change
    have hdo : ∀ {P : Dev → Prop} {n : Dev}, d.linkStep change = n → P n → Does s (.pcieLinkUp t change) P := fun hn hP =>
      Does.of_step ((show exec _ s = execPcieLinkUp t change s from rfl).trans (execPcieLinkUp_eq ..)) hnow hn hP
    refine ⟨fun h => hdo (Dev.linkStep_none h) rfl, fun hheld hawake => ⟨fun speed hchange hspeed => ?_, fun hup => ⟨?_, ?_, ?_⟩⟩⟩
    · refine hdo ((Dev.linkStep_of_live hheld hawake change).trans (by rw [hchange])) ?_
      exact d.linkTrained_shows hspeed speed.isLt
    · exact fun hchange hl1 => hdo ((Dev.linkStep_of_live hheld hawake change).trans (by rw [hchange]; exact if_pos (by rw [hup, hl1]; rfl))) rfl
    · exact fun hchange => hdo ((Dev.linkStep_of_live hheld hawake change).trans (by rw [hchange]; exact if_pos hup)) rfl
    · exact fun hchange => hdo ((Dev.linkStep_of_live hheld hawake change).trans (by rw [hchange]; exact if_pos hup)) rfl

end Sys2Proof.Machine
end

section
/-! Transfers between host memory and the banks, byte by byte (R290, R298, R315). -/

namespace Sys2Proof.Machine

/-! ### A descriptor that has started, and one that has ended -/

section
variable {d : Dev} {q i op : Nat} {it : Item}

theorem Item.hasEnded_of_started (h : it.phase = .started) : it.hasEnded = false := by rw [Item.hasEnded, h]

theorem Dev.underWay_of_started (hitem : (d.qp q).item i = some it) (hphase : it.phase = .started) (hring : (d.qp q).silent = false) :
    d.underWay q i := ⟨it, hitem, Item.hasEnded_of_started hphase, hring⟩

theorem Dev.silent_onItem (d : Dev) (q i : Nat) (f : Item → Item) : ((d.onItem q i f).qp q).silent = (d.qp q).silent := by rw [Dev.qp_onItem]

/-- The item of a descriptor that ends. -/
theorem Dev.finish_found (h : d.underWay q i) (hitem : (d.qp q).item i = some it) (st : Nat) (partly : Bool) (detail : Nat) :
    ((d.finish q i st partly detail).qp q).item i = some { it with phase := .ended st partly (BitVec.ofNat 32 detail) } := by
  obtain ⟨g, hg, hlive, hring⟩ := h
  obtain rfl : g = it := Option.some.inj (hg.symm.trans hitem)
  rw [QpT.item, Dev.finish_item hg hlive hring]
  exact find?_onFirst hg (by simpa using QpT.index_of_item hg)

theorem Dev.finishMoved_ends (hitem : (d.qp q).item i = some it) (hphase : it.phase = .started) (hring : (d.qp q).silent = false) (st : Nat) :
    (d.finishMoved q it st).endedWith q i st := by
  obtain rfl := QpT.index_of_item hitem
  exact Dev.finish_ends (Dev.underWay_of_started hitem hphase hring) ..

theorem Dev.beginTransfer_of_started (hitem : (d.qp q).item i = some it) (hphase : it.phase = .started) : d.beginTransfer q i op = d := by
  unfold Dev.beginTransfer Dev.startItem
  rw [hitem]
  dsimp only
  cases it.desc with
  | none => rfl
  | some x => exact if_neg fun h => by cases hphase.symm.trans h.1

/-- A descriptor that has ended moves nothing more. -/
theorem Dev.writeNext_of_ended {st : Nat} (h : d.endedWith q i st) (data : MemBytes) : d.writeNext q i data = d := by
  obtain ⟨g, _, _, hitem, hphase⟩ := h
  unfold Dev.writeNext
  rw [hitem]
  dsimp only
  cases g.desc with
  | none => rfl
  | some x => exact if_neg fun h => by cases hphase.symm.trans h.1

theorem Dev.readNext_of_ended {st : Nat} (h : d.endedWith q i st) (n : Nat) (w : BankWait) : d.readNext q i n w = d := by
  obtain ⟨g, _, _, hitem, hphase⟩ := h
  unfold Dev.readNext
  rw [hitem]
  dsimp only
  cases g.desc with
  | none => rfl
  | some x => exact if_neg fun h => by cases hphase.symm.trans h.1

theorem Dev.beginTransfer_of_refused {x : Descr} (h : d.standing q i .received x) (hop : x.opcode = op) {e : Nat} (hw : d.windowCheck x = some e) :
    (d.beginTransfer q i op).endedWith q i e := by
  rw [Dev.beginTransfer, Dev.startItem_of_refused h hop hw]
  exact Dev.finish_ends (Dev.underWay_of_received h) ..

theorem Dev.hstOwns_started (d : Dev) (q i a n : Nat) : (d.started q i).hstOwns a n = d.hstOwns a n := by
  have hk := d.started_keeps q i
  have howned : ∀ b, (d.started q i).bankOwned hstMaster b = d.bankOwned hstMaster b := fun b => by
    rw [Dev.bankOwned, Dev.bankOwned, hk.rd F.MB_BANK_STAT_owner b (by decide), hk.flag F.MB_BANK_STAT_draining b (by decide)]
  simp only [Dev.hstOwns, howned]

theorem Dev.beginTransfer_of_foreign {x : Descr} (h : d.standing q i .received x) (hop : x.opcode = Op.MEM_WRITE) (hw : d.windowCheck x = none)
    (howns : d.hstOwns x.param2 x.length = false) : d.beginTransfer q i Op.MEM_WRITE = (d.started q i).finish q i Code.NOT_OWNER := by
  rw [Dev.beginTransfer, Dev.startItem_of_standing h hop hw]
  exact if_pos ⟨rfl, (d.hstOwns_started q i ..).trans howns⟩

end

/-! ### Bytes that arrive for the banks -/

/-- From d to e the banks' bytes stay, and of the faults e has other reports alone. -/
def Dev.BytesStay (d e : Dev) : Prop := e.mb.mem = d.mb.mem ∧ d.ReportsOnly e

theorem Dev.BytesStay.refl (d : Dev) : d.BytesStay d := ⟨rfl, .refl d⟩

theorem Dev.BytesStay.trans {d e g : Dev} (h : d.BytesStay e) (k : e.BytesStay g) : d.BytesStay g := ⟨k.1.trans h.1, h.2.trans k.2⟩

theorem Dev.bankServed_bytesStay (d : Dev) (m : BankMaster) (b : Nat) : d.BytesStay (d.bankServed m b) := ⟨rfl, .of_flt rfl⟩

theorem Dev.setBankFlips_bytesStay (d : Dev) (a : Nat) (v : BitVec 39) : d.BytesStay (d.setBankFlips a v) := ⟨rfl, .of_flt rfl⟩

theorem Dev.bankCheck_bytesStay (d : Dev) (a : Nat) (u : Upset) : d.BytesStay (d.bankCheck a u) := by
  obtain ⟨flips, hmb⟩ := d.mb_bankCheck a u
  refine ⟨by rw [hmb], ?_⟩
  unfold Dev.bankCheck
  dsimp only
  split
  · exact .refl d
  · split
    · exact .of_flt rfl
    · exact .of_flt rfl
    all_goals exact (Dev.ReportsOnly.of_flt rfl).trans (Dev.report_reportsOnly ..)

theorem Dev.BytesStay.bankByte {d e : Dev} (h : d.BytesStay e) (y : Nat) : e.bankByte y = d.bankByte y := by
  rw [Dev.bankByte, Dev.bankByte, h.1]

/-- A byte that a bank takes stands there, and no other byte changes. -/
theorem Dev.storeByte_shows {d : Dev} {a : Nat} (hfree : d.fenced Kind.bank (bankOf a) = false) (b : Byte) (left : Nat) (first : Option Upset) :
    let n := d.storeByte a b left first
    (∀ y, n.bankByte y = if y = a then b else d.bankByte y) ∧ d.ReportsOnly n := by
  have hserved : d.BytesStay (if first.isSome || a % 4 == 0 then d.bankServed .ring (bankOf a) else d) := by
    split
    · exact d.bankServed_bytesStay ..
    · exact .refl d
  unfold Dev.storeByte
  dsimp only
  generalize (if first.isSome || a % 4 == 0 then d.bankServed .ring (bankOf a) else d) = e at hserved ⊢
  rw [(hserved.2.fenced Kind.bank (bankOf a)).trans hfree, if_neg Bool.false_ne_true]
  have hchecked : e.BytesStay (if a % 4 = 0 ∧ 3 ≤ left then e.setBankFlips a 0
      else if first.isSome || a % 4 == 0 then e.bankCheck a (first.getD {}) else e) := by
    split
    · exact e.setBankFlips_bytesStay ..
    · split
      · exact e.bankCheck_bytesStay ..
      · exact .refl e
  generalize (if a % 4 = 0 ∧ 3 ≤ left then e.setBankFlips a 0
      else if first.isSome || a % 4 == 0 then e.bankCheck a (first.getD {}) else e) = g at hchecked ⊢
  have hall := hserved.trans hchecked
  rw [(hall.2.fenced Kind.bank (bankOf a)).trans hfree, if_neg Bool.false_ne_true]
  refine ⟨fun y => ?_, hall.2.trans (.of_flt rfl)⟩
  rw [Dev.bankByte_setBankByte, hall.bankByte y]

/-- May the DMA engine's bytes at address a be stored? -/
def Dev.takesByte (d : Dev) (a : Nat) : Prop := d.bankOwned hstMaster (bankOf a) = true ∧ d.fenced Kind.bank (bankOf a) = false

theorem Dev.bankOwned_of_keeps {w : Foot} {d e : Dev} (hk : Keeps w d e) (howner : w.avoids F.MB_BANK_STAT_owner = true)
    (hdrain : w.avoids F.MB_BANK_STAT_draining = true) (m b : Nat) : e.bankOwned m b = d.bankOwned m b := by
  rw [Dev.bankOwned, Dev.bankOwned, hk.rd F.MB_BANK_STAT_owner b howner, hk.flag F.MB_BANK_STAT_draining b hdrain]

theorem Dev.storeBytes_shows (q i : Nat) (bs : List Byte) : ∀ {d : Dev} {a : Nat} {it : Item} (first : Option Upset),
    (d.qp q).item i = some it → (∀ k, k < bs.length → d.takesByte (a + k)) → let n := d.storeBytes q i a first bs
    (n.qp q).item i = some { it with moved := it.moved + bs.length } ∧
      ∀ y, n.bankByte y = if a ≤ y ∧ y < a + bs.length then bs.getD (y - a) 0 else d.bankByte y := by
  induction bs with
  | nil => exact fun _ hitem _ => ⟨hitem, fun y => (if_neg (by rw [List.length_nil]; omega)).symm⟩
  | cons b bs ih =>
    intro d a it first hitem htakes
    obtain ⟨howned, hfree⟩ := htakes 0 (by simp)
    rw [Nat.add_zero] at howned hfree
    have hk := d.storeByte_keeps a b bs.length first
    obtain ⟨hbyte, hreports⟩ := Dev.storeByte_shows hfree b bs.length first
    simp only [Dev.storeBytes, howned, if_true]
    generalize d.storeByte a b bs.length first = e at hk hbyte hreports ⊢
    have hmoved := Dev.item_onItem (f := fun it => { it with moved := it.moved + 1 })
      ((congrArg (QpT.item · i) (Dev.qp_congr (hk.parts .hi (by decide)) q)).trans hitem) rfl
    have hmove := e.onItem_keeps q i fun it => { it with moved := it.moved + 1 }
    have hmb : ∀ y, (e.onItem q i fun it => { it with moved := it.moved + 1 }).bankByte y = e.bankByte y := fun _ => rfl
    have hflt : (e.onItem q i fun it => { it with moved := it.moved + 1 }).flt = e.flt := rfl
    generalize (e.onItem q i fun it => { it with moved := it.moved + 1 }) = g at hmoved hmove hmb hflt ⊢
    have hrest : ∀ k, k < bs.length → g.takesByte (a + 1 + k) := fun k hlt => by
      obtain ⟨howns, hlive⟩ := htakes (k + 1) (by simpa using hlt)
      rw [show a + (k + 1) = a + 1 + k by omega] at howns hlive
      refine ⟨?_, ((Dev.ReportsOnly.of_flt hflt).fenced ..).trans ((hreports.fenced ..).trans hlive)⟩
      rw [Dev.bankOwned_of_keeps hmove (by decide) (by decide), Dev.bankOwned_of_keeps hk (by decide) (by decide), howns]
    obtain ⟨hlast, hbytes⟩ := ih none hmoved hrest
    refine ⟨hlast.trans ?_, fun y => ?_⟩
    · rw [List.length_cons, Nat.add_comm bs.length, ← Nat.add_assoc]
    · rw [hbytes y, hmb y, hbyte y, List.length_cons]
      by_cases hy : y = a
      · rw [if_neg (by omega), if_pos hy, if_pos (by omega), hy, Nat.sub_self, List.getD_cons_zero]
      · by_cases hin : a + 1 ≤ y ∧ y < a + 1 + bs.length
        · rw [if_pos hin, if_pos (by omega), show y - a = (y - (a + 1)) + 1 by omega, List.getD_cons_succ]
        · rw [if_neg hin, if_neg hy, if_neg (by omega)]

section
variable {d : Dev} {q i : Nat} {it : Item} {x : Descr}

theorem Dev.writeNext_of_turn (hitem : (d.qp q).item i = some it) (hdesc : it.desc = some x) (hphase : it.phase = .started)
    (hop : x.opcode = Op.MEM_WRITE) {data : MemBytes} (hturn : d.itsTurn .ring (bankOf (x.param2 + it.moved)) data.wait.turn.others = true) :
    d.writeNext q i data = (d.bankWait hstMaster data.wait.wait).storeBytes q i (x.param2 + it.moved) (some data.wait.turn.upset)
      (data.bytes.take (it.left x)) := by
  unfold Dev.writeNext
  rw [hitem]
  dsimp only
  rw [hdesc]
  exact if_pos ⟨hphase, hop, hturn⟩

theorem Dev.writeNext_of_wait (hitem : (d.qp q).item i = some it) (hdesc : it.desc = some x) {data : MemBytes}
    (hturn : d.itsTurn .ring (bankOf (x.param2 + it.moved)) data.wait.turn.others = false) : d.writeNext q i data = d := by
  unfold Dev.writeNext
  rw [hitem]
  dsimp only
  rw [hdesc]
  exact if_neg fun h => absurd h.2.2 (by rw [hturn]; exact Bool.false_ne_true)

/-- The bytes that the device takes at their turn stand in the banks, and the transfer has moved them. -/
theorem Dev.writeNext_shows (hitem : (d.qp q).item i = some it) (hdesc : it.desc = some x) (hphase : it.phase = .started)
    (hop : x.opcode = Op.MEM_WRITE) {data : MemBytes} (hlen : data.bytes.length ≤ it.left x)
    (hturn : d.itsTurn .ring (bankOf (x.param2 + it.moved)) data.wait.turn.others = true)
    (htakes : ∀ k, k < data.bytes.length → d.takesByte (x.param2 + it.moved + k)) : let n := d.writeNext q i data; let a := x.param2 + it.moved
    (n.qp q).item i = some { it with moved := it.moved + data.bytes.length } ∧
      ∀ y, n.bankByte y = if a ≤ y ∧ y < a + data.bytes.length then data.bytes.getD (y - a) 0 else d.bankByte y := by
  have hk := d.bankWait_keeps hstMaster data.wait.wait
  have hmb : (d.bankWait hstMaster data.wait.wait).mb = d.mb := hk.parts .mb (by decide)
  rw [Dev.writeNext_of_turn hitem hdesc hphase hop hturn, List.take_of_length_le hlen]
  generalize d.bankWait hstMaster data.wait.wait = e at hk hmb ⊢
  have hqp := Dev.qp_congr (hk.parts .hi (by decide)) q
  obtain ⟨hmoved, hbytes⟩ := Dev.storeBytes_shows q i data.bytes (some data.wait.turn.upset)
    ((congrArg (QpT.item · i) hqp).trans hitem) fun k hlt => by
      obtain ⟨howned, hfree⟩ := htakes k hlt
      exact ⟨(Dev.bankOwned_of_keeps hk (by decide) (by decide) ..).trans howned, ((Dev.ReportsOnly.of_keeps hk (by decide)).fenced ..).trans hfree⟩
  refine ⟨hmoved, fun y => (hbytes y).trans ?_⟩
  rw [show e.bankByte y = d.bankByte y by rw [Dev.bankByte, Dev.bankByte, hmb]]

/-! ### Bytes that leave the banks -/

/-- What befell the word of the j-th byte from address a: something, where it is the first word. -/
def upsetAt (a : Nat) (u : Upset) (j : Nat) : Upset := if (a + j) / 4 = a / 4 then u else {}

/-- The checks of the words of a read. -/
def Dev.checkWords (d : Dev) (a n : Nat) (u : Upset) : Dev :=
  d.each ((List.range n).filter fun j => j == 0 || (a + j) % 4 == 0) fun d j =>
    (d.bankServed .ring (bankOf (a + j))).bankCheck (a + j) (upsetAt a u j)

/-- The bytes that a read delivers leave, and the transfer has moved them. -/
def Dev.sendRead (d : Dev) (q i k : Nat) (it : Item) (x : Descr) : Dev :=
  (if k = 0 then d else d.emit (.bytes (x.address + it.moved) ((List.range k).map fun j => d.bankByte (x.param2 + it.moved + j)))).onItem q i
    fun _ => { it with moved := it.moved + k }

/-- How many of n bytes a read delivers. -/
def Dev.delivers (d : Dev) (a n : Nat) (u : Upset) : Nat := ((List.range n).takeWhile fun j => d.bankReads (a + j) (upsetAt a u j)).length

/-- A read that delivers k of its n bytes. -/
def Dev.sendUpTo (d : Dev) (q i n k : Nat) (it : Item) (x : Descr) (u : Upset) : Dev :=
  let e := (d.checkWords (x.param2 + it.moved) (min (k + 1) n) u).sendRead q i k it x
  if k < n then e.finishMoved q { it with moved := it.moved + k } Code.BROKEN else e

theorem Dev.sendBytes_eq (d : Dev) (q i n : Nat) (it : Item) (x : Descr) (u : Upset) :
    d.sendBytes q i n it x u = d.sendUpTo q i (min n (it.left x)) (d.delivers (x.param2 + it.moved) (min n (it.left x)) u) it x u := rfl

theorem Dev.checkWords_shows (d : Dev) (a n : Nat) (u : Upset) : (d.checkWords a n u).mb.mem = d.mb.mem ∧ (d.checkWords a n u).hi = d.hi := by
  refine Dev.each_preserves (P := fun e => e.mb.mem = d.mb.mem ∧ e.hi = d.hi) (fun e j _ he => ?_) d ⟨rfl, rfl⟩
  obtain ⟨hmem, hhi⟩ := he
  have hserved := e.bankServed_bytesStay .ring (bankOf (a + j))
  exact ⟨((hserved.trans (Dev.bankCheck_bytesStay ..)).1).trans hmem,
    ((Dev.bankCheck_keeps ..).parts .hi (by decide)).trans (((Dev.bankServed_keeps ..).parts .hi (by decide)).trans hhi)⟩

theorem Dev.sendRead_shows {d : Dev} (hitem : (d.qp q).item i = some it) (k : Nat) (x : Descr) : let n := d.sendRead q i k it x
    (n.qp q).item i = some { it with moved := it.moved + k } ∧ (n.qp q).silent = (d.qp q).silent ∧
      (0 < k → n.hi.out = d.hi.out ++ [.bytes (x.address + it.moved) ((List.range k).map fun j => d.bankByte (x.param2 + it.moved + j))]) := by
  unfold Dev.sendRead
  dsimp only
  split
  next hzero => exact ⟨Dev.item_onItem hitem rfl, Dev.silent_onItem .., fun h => by omega⟩
  next =>
    have hsame : ((d.emit (.bytes (x.address + it.moved) ((List.range k).map fun j => d.bankByte (x.param2 + it.moved + j)))).qp q) = d.qp q := rfl
    exact ⟨Dev.item_onItem ((congrArg (QpT.item · i) hsame).trans hitem) rfl, Dev.silent_onItem .., fun _ => rfl⟩

theorem Dev.sendUpTo_shows {d : Dev} (hitem : (d.qp q).item i = some it) (n k : Nat) (x : Descr) (u : Upset) (hphase : it.phase = .started)
    (hring : (d.qp q).silent = false) : let m := d.sendUpTo q i n k it x u
    (n ≤ k → 0 < k → (m.qp q).item i = some { it with moved := it.moved + k } ∧
      m.hi.out = d.hi.out ++ [.bytes (x.address + it.moved) ((List.range k).map fun j => d.bankByte (x.param2 + it.moved + j))]) ∧
    (k < n → (m.qp q).item i =
      some { it with moved := it.moved + k, phase := .ended Code.BROKEN (decide (0 < it.moved + k)) (BitVec.ofNat 32 (it.moved + k)) }) := by
  obtain ⟨hmem, hhi⟩ := d.checkWords_shows (x.param2 + it.moved) (min (k + 1) n) u
  unfold Dev.sendUpTo
  dsimp only
  generalize d.checkWords (x.param2 + it.moved) (min (k + 1) n) u = e at hmem hhi ⊢
  have hqp := Dev.qp_congr hhi q
  obtain ⟨hmoved, hsilent, hout⟩ := Dev.sendRead_shows ((congrArg (QpT.item · i) hqp).trans hitem) k x
  have hbyte : ∀ y, e.bankByte y = d.bankByte y := fun y => by rw [Dev.bankByte, Dev.bankByte, hmem]
  simp only [hbyte, hhi] at hout
  generalize e.sendRead q i k it x = g at hmoved hsilent hout ⊢
  refine ⟨fun hall hpos => ?_, fun hlt => ?_⟩
  · rw [if_neg (by omega)]
    exact ⟨hmoved, hout hpos⟩
  · rw [if_pos hlt, Dev.finishMoved]
    have hidx : it.index = i := QpT.index_of_item hitem
    have hlive : g.underWay q i := Dev.underWay_of_started hmoved hphase (hsilent.trans ((congrArg QpT.silent hqp).trans hring))
    have hpartly : (Code.BROKEN != Code.OK && it.moved + k != 0) = decide (0 < it.moved + k) := by
      rw [show (Code.BROKEN != Code.OK) = true by decide, Bool.true_and, Bool.eq_iff_iff, bne_iff_ne, decide_eq_true_iff]
      omega
    have hfound := Dev.finish_found hlive hmoved Code.BROKEN (decide (0 < it.moved + k)) (it.moved + k)
    rw [← hidx] at hfound ⊢
    dsimp only
    rw [hpartly]
    exact hfound

theorem Dev.readNext_of_turn (hitem : (d.qp q).item i = some it) (hdesc : it.desc = some x) (hphase : it.phase = .started)
    (hop : x.opcode = Op.MEM_READ) {n : Nat} {w : BankWait} (hturn : d.itsTurn .ring (bankOf (x.param2 + it.moved)) w.turn.others = true) :
    d.readNext q i n w = (d.bankWait hstMaster w.wait).sendBytes q i n it x w.turn.upset := by
  unfold Dev.readNext
  rw [hitem]
  dsimp only
  rw [hdesc]
  exact if_pos ⟨hphase, hop, hturn⟩

theorem Dev.readNext_of_wait (hitem : (d.qp q).item i = some it) (hdesc : it.desc = some x) {n : Nat} {w : BankWait}
    (hturn : d.itsTurn .ring (bankOf (x.param2 + it.moved)) w.turn.others = false) : d.readNext q i n w = d := by
  unfold Dev.readNext
  rw [hitem]
  dsimp only
  rw [hdesc]
  exact if_neg fun h => absurd h.2.2 (by rw [hturn]; exact Bool.false_ne_true)

theorem Dev.bankReads_bankWait (d : Dev) (m ns a : Nat) (u : Upset) : (d.bankWait m ns).bankReads a u = d.bankReads a u := by
  have hk := d.bankWait_keeps m ns
  rw [Dev.bankReads, Dev.bankReads, Dev.bankFinds, Dev.bankFinds, Dev.bankFlips, Dev.bankFlips, hk.parts .mb (by decide),
    (Dev.ReportsOnly.of_keeps hk (by decide)).fenced]

/-- A read that waited delivers as many bytes as the banks read, and says where it stops short. -/
theorem Dev.readNext_shows (hitem : (d.qp q).item i = some it) (hdesc : it.desc = some x) (hphase : it.phase = .started)
    (hop : x.opcode = Op.MEM_READ) {n : Nat} {w : BankWait} (hleft : n ≤ it.left x) (hring : (d.qp q).silent = false)
    (hturn : d.itsTurn .ring (bankOf (x.param2 + it.moved)) w.turn.others = true) :
    let m := d.readNext q i n w; let a := x.param2 + it.moved; let k := d.delivers a n w.turn.upset
    (n ≤ k → 0 < k → (m.qp q).item i = some { it with moved := it.moved + k } ∧
      m.hi.out = d.hi.out ++ [.bytes (x.address + it.moved) ((List.range k).map fun j => d.bankByte (a + j))]) ∧
    (k < n → (m.qp q).item i =
      some { it with moved := it.moved + k, phase := .ended Code.BROKEN (decide (0 < it.moved + k)) (BitVec.ofNat 32 (it.moved + k)) }) := by
  have hk := d.bankWait_keeps hstMaster w.wait
  have hmb : (d.bankWait hstMaster w.wait).mb = d.mb := hk.parts .mb (by decide)
  have hreads := d.bankReads_bankWait hstMaster w.wait
  rw [Dev.readNext_of_turn hitem hdesc hphase hop hturn]
  generalize d.bankWait hstMaster w.wait = e at hk hmb hreads ⊢
  rw [Dev.sendBytes_eq, min_eq_left hleft]
  have hdelivers : e.delivers (x.param2 + it.moved) n w.turn.upset = d.delivers (x.param2 + it.moved) n w.turn.upset := by
    simp only [Dev.delivers, hreads]
  rw [hdelivers]
  have hhi : e.hi = d.hi := hk.parts .hi (by decide)
  have hqp := Dev.qp_congr hhi q
  have hbyte : ∀ y, e.bankByte y = d.bankByte y := fun y => by rw [Dev.bankByte, Dev.bankByte, hmb]
  have hall := Dev.sendUpTo_shows ((congrArg (QpT.item · i) hqp).trans hitem) n (d.delivers (x.param2 + it.moved) n w.turn.upset) x w.turn.upset hphase
    ((congrArg QpT.silent hqp).trans hring)
  simpa only [hbyte, hhi] using hall

theorem length_takeWhile_range {p : Nat → Bool} {n k : Nat} (hk : k < n) (hbefore : ∀ j, j < k → p j = true) (hstop : p k = false) :
    ((List.range n).takeWhile p).length = k := by
  obtain ⟨m, rfl⟩ : ∃ m, n = k + (m + 1) := ⟨n - k - 1, by omega⟩
  rw [List.range_add, List.takeWhile_append_of_pos fun j hj => hbefore j (List.mem_range.mp hj), List.range_succ_eq_map, List.map_cons,
    List.takeWhile_cons_of_neg (by rw [Nat.add_zero, hstop]; exact Bool.false_ne_true), List.append_nil, List.length_range]

theorem Dev.delivers_of_all {a n : Nat} {u : Upset} (h : ∀ j, j < n → d.bankReads (a + j) (upsetAt a u j) = true) : d.delivers a n u = n := by
  rw [Dev.delivers, List.takeWhile_eq_self_iff.mpr fun j hj => h j (List.mem_range.mp hj), List.length_range]

end

end Sys2Proof.Machine
end

section
/-! The bytes of a snapshot (R322). -/

namespace Sys2Proof.Machine

/-! ### How long a snapshot is -/

theorem length_flatMap_of_const {α β : Type} {f : α → List β} {n : Nat} (l : List α) (h : ∀ a ∈ l, (f a).length = n) :
    (l.flatMap f).length = l.length * n := by
  induction l with
  | nil => simp
  | cons a l ih =>
    rw [List.flatMap_cons, List.length_append, h a (.head _), ih fun b hb => h b (.tail _ hb), List.length_cons]
    ring

theorem wordBytes_length (w : Word) : (wordBytes w).length = 4 := by rw [wordBytes, List.length_map, List.length_range]

theorem Dev.blockBytes_length (d : Dev) (b : Nat × Nat) : (d.blockBytes b).length = 8 + 4 * b.2 := by
  rw [Dev.blockBytes, List.length_append, List.length_append, numBytes_length, numBytes_length,
    length_flatMap_of_const (n := 4) _ fun _ _ => wordBytes_length _, List.length_range]
  omega

theorem Dev.loopBytes_length (d : Dev) (l : Nat) : (d.loopBytes l).length = 1280 := by
  rw [Dev.loopBytes, List.length_append, length_flatMap_of_const (n := 4) _ fun _ _ => wordBytes_length _,
    length_flatMap_of_const (n := 4) _ fun _ _ => wordBytes_length _, List.length_range, List.length_range]

theorem Dev.blocks_length (d : Dev) (blocks : List (Nat × Nat)) : ∀ n : Nat,
    n + (blocks.flatMap d.blockBytes).length = blocks.foldl (fun n b => n + 8 + 4 * b.2) n := by
  induction blocks with
  | nil => exact fun n => rfl
  | cons b blocks ih =>
    intro n
    rw [List.flatMap_cons, List.length_append, d.blockBytes_length, List.foldl_cons, ← ih]
    omega

theorem Dev.sectionBytes_length (d : Dev) (u : Nat × Nat × List (Nat × Nat)) : (d.sectionBytes u).length = 16 + snapBody u.1 u.2.2 := by
  obtain ⟨kind, index, blocks⟩ := u
  have hblocks := d.blocks_length blocks (if kind = Kind.loop then 1280 else 0)
  change _ = 16 + blocks.foldl (fun n b => n + 8 + 4 * b.2) (if kind = Kind.loop then 1280 else 0)
  rw [← hblocks]
  simp only [Dev.sectionBytes, List.length_append, numBytes_length]
  split
  · rw [d.loopBytes_length]
    omega
  · rw [List.length_nil]
    omega

theorem Dev.sections_length (d : Dev) (l : List (Nat × Nat × List (Nat × Nat))) : ∀ n : Nat,
    n + (l.flatMap d.sectionBytes).length = l.foldl (fun n u => n + 16 + snapBody u.1 u.2.2) n := by
  induction l with
  | nil => exact fun n => rfl
  | cons u l ih =>
    intro n
    rw [List.flatMap_cons, List.length_append, d.sectionBytes_length, List.foldl_cons, ← ih]
    omega

/-- What stands before the sections of a snapshot. -/
def Dev.preamble (d : Dev) (size units : Nat) : List Byte := numBytes size 4 ++ numBytes units 4 ++ numBytes d.time 8 ++ numBytes d.time 8 ++ numBytes 0 8

theorem Dev.preamble_length (d : Dev) (size units : Nat) : (d.preamble size units).length = 32 := by
  simp only [Dev.preamble, List.length_append, numBytes_length]

theorem Dev.snapshotBytes_eq (d : Dev) : d.snapshotBytes = d.preamble snapSize snapUnits.length ++ snapUnits.flatMap d.sectionBytes := rfl

theorem Dev.snapshotBytes_length (d : Dev) : d.snapshotBytes.length = snapSize := by
  rw [d.snapshotBytes_eq, List.length_append, d.preamble_length, snapSize]
  exact d.sections_length snapUnits 32

theorem Dev.snapshotBytes_take (d : Dev) : d.snapshotBytes.take 32 = d.preamble snapSize snapUnits.length := by
  rw [d.snapshotBytes_eq]
  exact List.take_left' (d.preamble_length ..)

/-- Every unit's section stands in the snapshot. -/
theorem Dev.snapshotBytes_section (d : Dev) {u : Nat × Nat × List (Nat × Nat)} (hu : u ∈ snapUnits) :
    ∃ before after, d.snapshotBytes = before ++ d.sectionBytes u ++ after := by
  obtain ⟨l, r, hsplit⟩ := List.append_of_mem hu
  refine ⟨d.preamble snapSize snapUnits.length ++ l.flatMap d.sectionBytes, r.flatMap d.sectionBytes, ?_⟩
  rw [d.snapshotBytes_eq]
  generalize d.preamble snapSize snapUnits.length = p
  rw [hsplit, List.flatMap_append, List.flatMap_cons]
  simp only [List.append_assoc]

/-! ### The instant of a snapshot -/

/-- A descriptor that starts moves nothing in its queue pair's registers but the flags. -/
theorem Dev.started_word {d : Dev} {q i : Nat} {ph : Phase} {x : Descr} (h : d.standing q i ph x) {off : Nat} (hoff : off ≠ F.HI_QP_FLAGS.off q 0) :
    (d.started q i).word off = d.word off := by
  obtain ⟨it, hitem, -⟩ := h
  have hitem := Dev.item_onItem (f := fun it => { it with phase := .started }) hitem rfl
  have hword : ∀ o, (d.onItem q i fun it => { it with phase := .started }).word o = d.word o := fun _ => rfl
  unfold Dev.started
  generalize (d.onItem q i fun it => { it with phase := .started }) = e at hitem hword ⊢
  have hfull : (e.qp q).items.isEmpty = false := by
    cases hl : (e.qp q).items with
    | nil => rw [QpT.item, hl] at hitem; cases hitem
    | cons _ _ => rfl
  unfold Dev.showQp
  dsimp only
  rw [hfull, Bool.false_and, if_neg Bool.false_ne_true, Dev.word_wr_of_off_ne _ F.HI_QP_FLAGS_in_flight q _ hoff, hword]

/-- The section of a unit of the device in which a descriptor has started: but for the registers, what the device held before. -/
theorem Dev.sectionBytes_started (d : Dev) (q i : Nat) (u : Nat × Nat × List (Nat × Nat)) : (d.started q i).sectionBytes u =
    numBytes u.1 1 ++ numBytes u.2.1 1 ++ numBytes (b2n (d.fenced u.1 u.2.1)) 2 ++ numBytes (snapBody u.1 u.2.2) 4 ++
      numBytes (if u.1 = Kind.loop then (d.loop u.2.1).doneAt else d.time) 8 ++
      (u.2.2.flatMap fun b => numBytes b.1 4 ++ numBytes (4 * b.2) 4 ++ (List.range b.2).flatMap fun k => wordBytes ((d.started q i).view (b.1 + 4 * k))) ++
      (if u.1 = Kind.loop then ((List.range 256).flatMap fun k => wordBytes (d.lt (varBase u.2.1 + 4 * k))) ++
        (List.range 64).flatMap fun k => wordBytes (d.lt (parBase u.2.1 + 4 * k)) else []) := by
  have hk := d.started_keeps q i
  have hbe : (d.started q i).be = d.be := hk.parts .be (by decide)
  have hloop := Dev.loop_congr hbe u.2.1
  have hlt : ∀ o, (d.started q i).lt o = d.lt o := fun o => by rw [Dev.lt, Dev.lt, hbe]
  have hfence := (Dev.ReportsOnly.of_keeps hk (by decide)).fenced u.1 u.2.1
  obtain ⟨kind, index, blocks⟩ := u
  dsimp only at hfence hloop ⊢
  simp only [Dev.sectionBytes, Dev.loopBytes, hlt, hfence, hloop, hk.time]
  rfl

end Sys2Proof.Machine
end

section
/-! Records on their way to a queue pair, and the buffers lent for them (R319, R320, R334). -/

namespace Sys2Proof.Machine

/-! ### A record is taken (R319) -/

/-- The device once record e has left its source. -/
def Dev.withoutRecord (d : Dev) (e : Nat × StreamRec) : Dev := d.withHi { d.hi with records := d.hi.records.erase e }

/-- The device once the next record on its way to queue pair q is held or dropped. -/
def Dev.recordTaken (d : Dev) (q : Nat) : Dev :=
  match (d.nextRecord q).1 with
  | some r => (d.nextRecord q).2.takeRecord q r
  | none => (d.nextRecord q).2

/-- The oldest record held, or that of a controller, goes into the buffer in use. -/
def Dev.writeRecord (d : Dev) (q : Nat) : Dev :=
  match d.rxSource q with
  | some c => d.writeRx c q
  | none => d.writeHeld q

/-- RECORD_WRITE, as the device carries it out. -/
def Dev.recordStep (d : Dev) (q : Nat) : Dev :=
  if d.turn = some q then ((d.recordTaken q).writeRecord q).hadTurn q else d.recordTaken q

theorem execRecordWrite_eq (t : Nat) (q : Fin 64) (s : State) : execRecordWrite t q s = effect t s fun d => d.recordStep q := rfl

section
variable {d : Dev} {q : Nat}

theorem Dev.recordTaken_of_pending {e : Nat × StreamRec} (h : (d.hi.records.find? fun e => e.1 == q) = some e) :
    d.recordTaken q = (d.withoutRecord e).takeRecord q e.2 := by
  rw [Dev.recordTaken, show d.nextRecord q = (some e.2, d.withoutRecord e) by rw [Dev.nextRecord, h]; rfl]

theorem Dev.recordTaken_of_none (hrecords : ∀ e ∈ d.hi.records, e.1 ≠ q) (hemitted : ∀ e ∈ d.be.emitted, e.qp ≠ q) : d.recordTaken q = d := by
  have hnone : (d.hi.records.find? fun e => e.1 == q) = none :=
    List.find?_eq_none.mpr fun e he => by rw [beq_iff_eq]; exact hrecords e he
  have hnone' : (d.be.emitted.find? fun e => e.qp == q) = none :=
    List.find?_eq_none.mpr fun e he => by rw [beq_iff_eq]; exact hemitted e he
  rw [Dev.recordTaken, show d.nextRecord q = (none, d) by rw [Dev.nextRecord, hnone]; dsimp only; rw [hnone']]

/-- A record held with the next sequence number. -/
def Dev.holdRecord (d : Dev) (q : Nat) (r : StreamRec) : Dev :=
  (d.setQp q { d.qp q with held := (d.qp q).held ++ [{ r with seq := d.rd64 F.HI_QP_SEQ_LO F.HI_QP_SEQ_HI q }] }).wr64 F.HI_QP_SEQ_LO F.HI_QP_SEQ_HI q
    (d.rd64 F.HI_QP_SEQ_LO F.HI_QP_SEQ_HI q + 1)

theorem Dev.takeRecord_of_on (hon : d.qpOn q = true) (hheld : (d.qp q).held = []) (r : StreamRec) : d.takeRecord q r = d.holdRecord q r := by
  have hcond : (d.qpOn q && Nat.blt ((d.qp q).held.filter fun r => r.type != 2).length 256) = true := by rw [hon, hheld]; rfl
  exact if_pos hcond

theorem Dev.holdRecord_keeps (d : Dev) (q : Nat) (r : StreamRec) : Keeps ⟨false, [F.HI_QP_SEQ_LO, F.HI_QP_SEQ_HI], [.hi]⟩ d (d.holdRecord q r) :=
  ((Dev.setQp_keeps ..).within (by decide)).trans ((Dev.wr64_keeps _ F.HI_QP_SEQ_LO F.HI_QP_SEQ_HI q _ (by decide) (by decide)).within (by decide))

theorem Dev.holdRecord_shows (d : Dev) (q : Nat) (r : StreamRec) : let n := d.holdRecord q r
    n.hi.out = d.hi.out ∧ n.hi.records = d.hi.records ∧
      n.qp q = { d.qp q with held := (d.qp q).held ++ [{ r with seq := d.rd64 F.HI_QP_SEQ_LO F.HI_QP_SEQ_HI q }] } ∧
      n.rd64 F.HI_QP_SEQ_LO F.HI_QP_SEQ_HI q = (d.rd64 F.HI_QP_SEQ_LO F.HI_QP_SEQ_HI q + 1) % 2 ^ 64 := by
  refine ⟨rfl, rfl, ?_, Dev.rd64_wr64 _ F.HI_QP_SEQ_LO F.HI_QP_SEQ_HI q _ ⟨rfl, rfl⟩ ⟨rfl, rfl⟩ (by decide)⟩
  have hhi := (Dev.wr64_keeps (d.setQp q { d.qp q with held := (d.qp q).held ++ [{ r with seq := d.rd64 F.HI_QP_SEQ_LO F.HI_QP_SEQ_HI q }] })
    F.HI_QP_SEQ_LO F.HI_QP_SEQ_HI q (d.rd64 F.HI_QP_SEQ_LO F.HI_QP_SEQ_HI q + 1) (by decide) (by decide)).parts .hi (by decide)
  exact (Dev.qp_congr hhi q).trans ((Dev.qp_setQp ..).trans (if_pos rfl))

/-- What a queue pair holds of a record that is dropped while it holds no other. -/
def Dev.lostRecord (d : Dev) (q : Nat) : StreamRec := { seq := d.rd64 F.HI_QP_SEQ_LO F.HI_QP_SEQ_HI q, stamp := d.time, type := 2, body := [1, 0] }

/-- A record that is dropped while no other is held. -/
def Dev.loseRecord (d : Dev) (q : Nat) : Dev :=
  (((d.setQp q { d.qp q with held := [d.lostRecord q] }).bump F.HI_QP_LOST q).put F.HI_QP_FLAGS_lost q true).wr64 F.HI_QP_SEQ_LO F.HI_QP_SEQ_HI q
    (d.rd64 F.HI_QP_SEQ_LO F.HI_QP_SEQ_HI q + 1)

theorem Dev.takeRecord_of_off (hoff : d.qpOn q = false) (hheld : (d.qp q).held = []) (r : StreamRec) : d.takeRecord q r = d.loseRecord q := by
  have hcond : ¬ (d.qpOn q && Nat.blt ((d.qp q).held.filter fun r => r.type != 2).length 256) = true := by
    rw [hoff, Bool.false_and]
    exact Bool.false_ne_true
  refine (if_neg hcond).trans ?_
  unfold Dev.dropRecord
  dsimp only
  rw [hheld]
  rfl

theorem Dev.loseRecord_keeps (d : Dev) (q : Nat) :
    Keeps ⟨false, [F.HI_QP_FLAGS_lost, F.HI_QP_SEQ_LO, F.HI_QP_SEQ_HI, F.HI_QP_LOST], [.hi]⟩ d (d.loseRecord q) :=
  ((((Dev.setQp_keeps ..).within (by decide)).trans ((Dev.bump_keeps _ F.HI_QP_LOST q (by decide)).within (by decide))).trans
    ((Dev.put_keeps _ F.HI_QP_FLAGS_lost q true (by decide)).within (by decide))).trans
    ((Dev.wr64_keeps _ F.HI_QP_SEQ_LO F.HI_QP_SEQ_HI q _ (by decide) (by decide)).within (by decide))

theorem Dev.loseRecord_shows (d : Dev) (q : Nat) : let n := d.loseRecord q
    n.flag F.HI_QP_FLAGS_lost q = true ∧ (n.qp q).held = [d.lostRecord q] ∧
      n.rd F.HI_QP_LOST q = min (d.rd F.HI_QP_LOST q + 1) (2 ^ F.HI_QP_LOST.width - 1) ∧
      n.rd64 F.HI_QP_SEQ_LO F.HI_QP_SEQ_HI q = (d.rd64 F.HI_QP_SEQ_LO F.HI_QP_SEQ_HI q + 1) % 2 ^ 64 := by
  have hqp : ((d.setQp q { d.qp q with held := [d.lostRecord q] }).qp q).held = [d.lostRecord q] :=
    congrArg QpT.held ((Dev.qp_setQp ..).trans (if_pos rfl))
  have hlost : (d.setQp q { d.qp q with held := [d.lostRecord q] }).rd F.HI_QP_LOST q = d.rd F.HI_QP_LOST q := rfl
  unfold Dev.loseRecord
  dsimp only
  generalize d.setQp q { d.qp q with held := [d.lostRecord q] } = e at hqp hlost ⊢
  have hbump := Dev.bump_keeps e F.HI_QP_LOST q (by decide)
  have hcount := Dev.rd_bump e F.HI_QP_LOST q (by decide)
  generalize e.bump F.HI_QP_LOST q = g at hbump hcount ⊢
  have hput := Dev.put_keeps g F.HI_QP_FLAGS_lost q true (by decide)
  have hflag := Dev.flag_put g F.HI_QP_FLAGS_lost q true (by decide) rfl
  generalize g.put F.HI_QP_FLAGS_lost q true = m at hput hflag ⊢
  have hk := Dev.wr64_keeps m F.HI_QP_SEQ_LO F.HI_QP_SEQ_HI q (d.rd64 F.HI_QP_SEQ_LO F.HI_QP_SEQ_HI q + 1) (by decide) (by decide)
  have hhi := (hk.parts .hi (by decide)).trans ((hput.parts .hi (by decide)).trans (hbump.parts .hi (by decide)))
  refine ⟨(hk.flag F.HI_QP_FLAGS_lost q (by decide)).trans hflag, (congrArg QpT.held (Dev.qp_congr hhi q)).trans hqp, ?_,
    Dev.rd64_wr64 _ F.HI_QP_SEQ_LO F.HI_QP_SEQ_HI q _ ⟨rfl, rfl⟩ ⟨rfl, rfl⟩ (by decide)⟩
  rw [hk.rd F.HI_QP_LOST q (by decide), hput.rd F.HI_QP_LOST q (by decide), hcount, hlost]

/-! ### A record is written (R320, R334) -/

theorem Dev.rxSource_of_keeps {w : Foot} {d e : Dev} (hk : Keeps w d e) (hcn : Part.cn ∉ w.parts) (hon : w.avoids F.CN_CFG_enable = true)
    (hqp : w.avoids F.CN_CFG_rx_qp = true) (q : Nat) : e.rxSource q = d.rxSource q := by
  simp only [Dev.rxSource, hk.flag F.CN_CFG_enable _ hon, hk.rd F.CN_CFG_rx_qp _ hqp, hk.can hcn]

/-- Bytes in the buffer in use. -/
def Item.filled (it : Item) (n t : Nat) : Item := { it with moved := it.moved + n, firstAt := if it.moved = 0 then t else it.firstAt }

section
variable {it : Item} {x : Descr}

/-- A held record in the buffer. -/
def Dev.writtenHeld (d : Dev) (q : Nat) (it : Item) (x : Descr) (r : StreamRec) (rest : List StreamRec) : Dev :=
  ((d.emit (.bytes (x.address + it.moved) r.bytes)).setQp q { d.qp q with held := rest }).onItem q it.index fun it => it.filled r.bytes.length d.time

theorem Dev.writeHeld_of_fit (hbuffer : (d.qp q).buffer = some it) (hdesc : it.desc = some x) {r : StreamRec} {rest : List StreamRec}
    (hheld : (d.qp q).held = r :: rest) (htype : r.type ≠ 2) (hfit : it.moved + r.bytes.length ≤ x.length) :
    d.writeHeld q = d.writtenHeld q it x r rest := by
  unfold Dev.writeHeld
  dsimp only
  rw [hbuffer, hheld]
  dsimp only
  rw [if_neg fun h => htype h.1, hdesc]
  exact if_pos hfit

theorem Dev.writtenHeld_keeps (d : Dev) (q : Nat) (it : Item) (x : Descr) (r : StreamRec) (rest : List StreamRec) :
    Keeps ⟨false, [], [.hi]⟩ d (d.writtenHeld q it x r rest) := ((Dev.emit_keeps ..).trans (Dev.setQp_keeps ..)).trans (Dev.onItem_keeps ..)

theorem Dev.writtenHeld_shows (d : Dev) (q : Nat) (it : Item) (x : Descr) (r : StreamRec) (rest : List StreamRec) : let n := d.writtenHeld q it x r rest
    n.hi.out = d.hi.out ++ [.bytes (x.address + it.moved) r.bytes] ∧ (n.qp q).held = rest ∧ n.hi.records = d.hi.records := by
  refine ⟨rfl, ?_, rfl⟩
  unfold Dev.writtenHeld
  rw [Dev.qp_onItem, Dev.qp_setQp, if_pos rfl]

/-- A lone LOST record waits. -/
theorem Dev.writeHeld_of_lost {r : StreamRec} (hheld : (d.qp q).held = [r]) (htype : r.type = 2) : d.writeHeld q = d := by
  unfold Dev.writeHeld
  dsimp only
  rw [hheld]
  cases (d.qp q).buffer with
  | none => rfl
  | some it => exact if_pos ⟨htype, rfl⟩

/-- A controller's record in the buffer. -/
def Dev.writtenRx (d : Dev) (c q : Nat) (it : Item) (x : Descr) (bs : List Byte) (rest : List RxRec) : Dev :=
  ((d.emit (.bytes (x.address + it.moved) bs)).onCan c fun v => { v with held := rest }).onItem q it.index fun it => it.filled bs.length d.time

theorem Dev.writeRx_of_fit {c : Nat} (hbuffer : (d.qp q).buffer = some it) (hdesc : it.desc = some x) {r : RxRec} {rest : List RxRec}
    (hheld : (d.can c).held = r :: rest) (hgood : ¬ (r.status = Code.LOST ∧ rest = [])) (hfit : it.moved + r.bytes.length ≤ x.length) :
    d.writeRx c q = d.writtenRx c q it x r.bytes rest := by
  unfold Dev.writeRx
  rw [hbuffer, hheld]
  dsimp only
  rw [if_neg hgood, hdesc]
  exact if_pos hfit

theorem Dev.writtenRx_keeps (d : Dev) (c q : Nat) (it : Item) (x : Descr) (bs : List Byte) (rest : List RxRec) :
    Keeps ⟨false, [], [.hi, .cn]⟩ d (d.writtenRx c q it x bs rest) :=
  (((Dev.emit_keeps ..).within (by decide)).trans ((Dev.onCan_keeps ..).within (by decide))).trans ((Dev.onItem_keeps ..).within (by decide))

theorem Dev.writtenRx_shows (d : Dev) (c q : Nat) (it : Item) (x : Descr) (bs : List Byte) (rest : List RxRec) : let n := d.writtenRx c q it x bs rest
    n.hi.out = d.hi.out ++ [.bytes (x.address + it.moved) bs] ∧ (n.can c).held = rest := by
  refine ⟨rfl, ?_⟩
  have hcan : ∀ k, (d.writtenRx c q it x bs rest).can k =
      ((d.emit (.bytes (x.address + it.moved) bs)).onCan c fun v => { v with held := rest }).can k := fun _ => rfl
  rw [hcan, Dev.can_onCan]

end

/-- The records of a controller leave those that the queue pair holds. -/
theorem Dev.writeRx_held (d : Dev) (c q : Nat) : ((d.writeRx c q).qp q).held = (d.qp q).held := by
  unfold Dev.writeRx
  split
  · split
    · rfl
    · split
      · dsimp only
        split
        · rw [Dev.qp_onItem]
          rfl
        · obtain ⟨_, _, hpair⟩ := (d.finish_itemsOnly ..).pair q
          rw [Dev.finishMoved, hpair]
      · rfl
  · rfl

/-- A controller whose record is next holds more than a lone LOST record. -/
theorem Dev.rxSource_holds {c : Nat} {r : RxRec} {rest : List RxRec} (h : d.rxSource q = some c) (hheld : (d.can c).held = r :: rest) :
    ¬ (r.status = Code.LOST ∧ rest = []) := by
  have hmem := List.mem_filter.mp (List.mem_of_find?_eq_some h)
  have hrx : (d.can c).hasRx = true := (Bool.and_eq_true_iff.mp hmem.2).2
  rintro ⟨hlost, rfl⟩
  rw [CnT.hasRx, hheld, List.any_cons, hlost] at hrx
  exact absurd hrx (by decide)

/-! ### The turn (R307) -/

theorem Dev.hadTurn_shows (d : Dev) (q : Nat) : (d.hadTurn q).hi.out = d.hi.out ∧ (∀ k, (d.hadTurn q).qp k = d.qp k) ∧
    (d.hadTurn q).hi.records = d.hi.records ∧ (d.hadTurn q).served (d.rd F.HI_QP_CFG_prio q) = q :=
  ⟨rfl, fun _ => rfl, rfl, (Tbl.get_set ..).trans (if_pos rfl)⟩

/-- A queue pair of lower priority than one that has a descriptor to fetch has no turn. -/
theorem Dev.turn_ne_of_lower {k : Fin 64} (hfetch : d.mayFetch k = true) (hlow : d.rd F.HI_QP_CFG_prio q < d.rd F.HI_QP_CFG_prio k) :
    d.turn ≠ some q := by
  intro hturn
  have hpick := List.find?_some hturn
  change ((queuePairs.filter d.wantsTurn).contains q && d.rd F.HI_QP_CFG_prio q ==
    (queuePairs.filter d.wantsTurn).foldl (fun p k => max p (d.rd F.HI_QP_CFG_prio k)) 0) = true at hpick
  rw [Bool.and_eq_true, beq_iff_eq] at hpick
  obtain ⟨hmem, htop⟩ := hpick
  have hwants := (List.mem_filter.mp (List.contains_iff_mem.mp hmem)).2
  have hawake : (!d.hi.d3hot) = true := (Bool.and_eq_true_iff.mp hwants).1
  have hk : k.val ∈ queuePairs.filter d.wantsTurn :=
    List.mem_filter.mpr ⟨List.mem_range.mpr k.isLt, by rw [Dev.wantsTurn, hawake, hfetch]; rfl⟩
  have hle := (le_foldl_max (fun k => d.rd F.HI_QP_CFG_prio k) (q := k.val) (queuePairs.filter d.wantsTurn) 0).2 hk
  rw [← htop] at hle
  omega

theorem Dev.recordStep_of_turn (h : d.turn = some q) : d.recordStep q = ((d.recordTaken q).writeRecord q).hadTurn q := if_pos h

theorem Dev.recordStep_of_wait (h : d.turn ≠ some q) : d.recordStep q = d.recordTaken q := if_neg h

theorem Dev.writeRecord_of_none (h : d.rxSource q = none) : d.writeRecord q = d.writeHeld q := by rw [Dev.writeRecord, h]

theorem Dev.writeRecord_of_some {c : Nat} (h : d.rxSource q = some c) : d.writeRecord q = d.writeRx c q := by rw [Dev.writeRecord, h]

end

end Sys2Proof.Machine
end

section
/-! NOP, FENCE, memory transfers, snapshots and record streams (R315 to R317, R319, R320, R322). -/

namespace Sys2Proof.Machine

/-! ### What a FENCE awaits (R316) -/

section
variable {d : Dev} {q i : Nat} {it : Item} {x : Descr}

theorem takeWhile_onFirst {i : Nat} {f : Item → Item} (hf : ∀ it, (f it).index = it.index) (l : List Item) :
    ((onFirst (fun it => it.index == i) f l).takeWhile fun it => it.index != i) = l.takeWhile fun it => it.index != i := by
  induction l with
  | nil => rfl
  | cons a l ih =>
    rw [onFirst]
    by_cases h : a.index = i
    · rw [if_pos (by rw [beq_iff_eq]; exact h), List.takeWhile_cons_of_neg (by rw [hf]; simpa using h), List.takeWhile_cons_of_neg (by simpa using h)]
    · rw [if_neg (by rw [beq_iff_eq]; exact h), List.takeWhile_cons_of_pos (by simpa using h), List.takeWhile_cons_of_pos (by simpa using h), ih]

/-- A descriptor that starts leaves what has been announced and what stands ahead. -/
theorem Dev.started_pair (d : Dev) (q i k : Nat) : ((d.started q i).qp k).announced = (d.qp k).announced ∧
    ((d.started q i).qp k).done = (d.qp k).done ∧ ((d.started q i).qp q).ahead i = (d.qp q).ahead i := by
  obtain ⟨hi, hpair⟩ : ∃ e : Dev, (∀ k, (d.started q i).qp k = e.qp k) ∧ e = d.onItem q i fun it => { it with phase := .started } :=
    ⟨_, Dev.qp_congr (Dev.hi_showQp ..), rfl⟩
  obtain ⟨hqp, rfl⟩ := hpair
  rw [hqp, hqp]
  have hahead : ((d.onItem q i fun it => { it with phase := .started }).qp q).ahead i = (d.qp q).ahead i := by
    rw [Dev.qp_onItem]
    exact takeWhile_onFirst (f := fun it => { it with phase := .started }) (fun _ => rfl) _
  by_cases hk : k = q
  · subst hk
    exact ⟨by rw [Dev.qp_onItem], by rw [Dev.qp_onItem], hahead⟩
  · rw [Dev.qp_onItem_of_ne d hk]
    exact ⟨rfl, rfl, hahead⟩

/-- What the FENCE at ring index i of queue pair q awaits. -/
def Dev.fenceAwaits (d : Dev) (q i : Nat) : List (Nat × Nat) := queuePairs.map fun p =>
  (p, if p = q then (d.qp p).done + ((d.qp p).ahead i).length else (d.qp p).announced)

theorem Dev.fenceAwaits_started (d : Dev) (q i : Nat) (k : Fin 64) :
    (k.val, if k.val = q then (d.qp q).done + ((d.qp q).ahead i).length else (d.qp k).announced) ∈ (d.started q i).fenceAwaits q i := by
  refine List.mem_map.mpr ⟨k.val, List.mem_range.mpr k.isLt, ?_⟩
  obtain ⟨hannounced, hdone, hahead⟩ := d.started_pair q i k.val
  by_cases hk : k.val = q
  · subst hk
    rw [if_pos rfl, if_pos rfl, hdone, hahead]
  · rw [if_neg hk, if_neg hk, hannounced]

theorem Dev.fenceComplete_of_done (hitem : (d.qp q).item i = some it) (hphase : it.phase = .started) (hop : it.op = Op.FENCE)
    (hdone : ∀ e ∈ it.awaits, e.2 ≤ (d.qp e.1).done) :
    (match (d.qp q).item i with
      | some it => if it.phase = .started ∧ it.op = Op.FENCE ∧ it.awaits.all (fun e => Nat.ble e.2 (d.qp e.1).done) = true then d.finish q i Code.OK else d
      | none => d) = d.finish q i Code.OK := by
  rw [hitem]
  exact if_pos ⟨hphase, hop, List.all_eq_true.mpr fun e he => Nat.ble_eq.mpr (hdone e he)⟩

/-- A transfer that has nothing left to move. -/
theorem Dev.transferDone_eq (hitem : (d.qp q).item i = some it) (hdesc : it.desc = some x) (hphase : it.phase = .started)
    (hop : x.opcode = Op.MEM_WRITE ∨ x.opcode = Op.MEM_READ) (hleft : it.left x = 0) :
    (match (d.qp q).item i with
      | some it => match it.desc with
        | some x =>
          if it.phase = .started ∧ (x.opcode = Op.MEM_WRITE ∨ x.opcode = Op.MEM_READ) ∧ it.left x = 0 then
            d.finishMoved q it (if it.moved < x.length then Code.DEADLINE else Code.OK)
          else d
        | none => d
      | none => d) = d.finishMoved q it (if it.moved < x.length then Code.DEADLINE else Code.OK) := by
  rw [hitem]
  dsimp only
  rw [hdesc]
  exact if_pos ⟨hphase, hop, hleft⟩

end

/-! ### Records -/

section
variable {d : Dev} {q : Nat} {e : Nat × StreamRec}

theorem Dev.mayRecord_of_pending (hon : d.qpOn q = true) {it : Item} (hbuffer : (d.qp q).buffer = some it)
    (h : (d.hi.records.find? fun e => e.1 == q) = some e) : d.mayRecord q = true := by
  have hany : d.hi.records.any (fun e => e.1 == q) = true :=
    List.any_eq_true.mpr ⟨e, List.mem_of_find?_eq_some h, List.find?_some (p := fun e : Nat × StreamRec => e.1 == q) h⟩
  simp only [Dev.mayRecord, hon, hbuffer, hany, Option.isSome_some, Bool.true_and, Bool.true_or, Bool.or_true]

theorem Dev.mayRecord_of_rx (hon : d.qpOn q = true) {it : Item} (hbuffer : (d.qp q).buffer = some it) {c : Nat} (h : d.rxSource q = some c) :
    d.mayRecord q = true := by
  simp only [Dev.mayRecord, hon, hbuffer, h, Option.isSome_some, Bool.true_and, Bool.or_true]

/-- The record that reaches a queue pair that holds no other, at its turn, is written. -/
theorem Dev.recordStep_written (hfind : (d.hi.records.find? fun e => e.1 == q) = some e) (hheld : (d.qp q).held = []) (hon : d.qpOn q = true)
    {it : Item} {x : Descr} (hbuffer : (d.qp q).buffer = some it) (hdesc : it.desc = some x) (hrx : d.rxSource q = none) (htype : e.2.type ≠ 2)
    (hturn : d.turn = some q) : let seq := d.rd64 F.HI_QP_SEQ_LO F.HI_QP_SEQ_HI q
    let r : StreamRec := { e.2 with seq }
    it.moved + r.bytes.length ≤ x.length → let n := d.recordStep q
      n.hi.out = d.hi.out ++ [.bytes (x.address + it.moved) r.bytes] ∧ (n.qp q).held = [] ∧ n.hi.records = d.hi.records.erase e ∧
        n.rd64 F.HI_QP_SEQ_LO F.HI_QP_SEQ_HI q = (seq + 1) % 2 ^ 64 := by
  intro seq r hfit
  have hk := (d.withoutRecord e).holdRecord_keeps q e.2
  obtain ⟨hout, hrecords, hqp, hseq⟩ := (d.withoutRecord e).holdRecord_shows q e.2
  have hqp : ((d.withoutRecord e).holdRecord q e.2).qp q = { d.qp q with held := [r] } := hqp.trans (by
    change { d.qp q with held := (d.qp q).held ++ [r] } = _
    rw [hheld, List.nil_append])
  have hrx : ((d.withoutRecord e).holdRecord q e.2).rxSource q = none := (Dev.rxSource_of_keeps hk (by decide) (by decide) (by decide) q).trans hrx
  rw [Dev.recordStep_of_turn hturn, Dev.recordTaken_of_pending hfind,
    Dev.takeRecord_of_on (d := d.withoutRecord e) hon hheld]
  change (_ = d.hi.out) at hout
  change (_ = d.hi.records.erase e) at hrecords
  change (_ = (seq + 1) % 2 ^ 64) at hseq
  generalize (d.withoutRecord e).holdRecord q e.2 = g at hout hrecords hqp hseq hrx ⊢
  have hwritten := Dev.writeHeld_of_fit (d := g) (q := q) (it := it) (x := x) (r := r) (rest := []) (by rw [hqp]; exact hbuffer) hdesc (by rw [hqp])
    htype hfit
  rw [Dev.writeRecord_of_none hrx, hwritten]
  have hkeeps := g.writtenHeld_keeps q it x r []
  obtain ⟨hsent, hempty, hleft⟩ := g.writtenHeld_shows q it x r []
  generalize g.writtenHeld q it x r [] = m at hkeeps hsent hempty hleft ⊢
  refine ⟨hsent.trans (by rw [hout]), hempty, hleft.trans hrecords, ?_⟩
  exact ((m.hadTurn_keeps q).rd64 F.HI_QP_SEQ_LO F.HI_QP_SEQ_HI q (by decide) (by decide)).trans
    ((hkeeps.rd64 F.HI_QP_SEQ_LO F.HI_QP_SEQ_HI q (by decide) (by decide)).trans hseq)

/-- The record that reaches a queue pair that has no turn is held. -/
theorem Dev.recordStep_held (hfind : (d.hi.records.find? fun e => e.1 == q) = some e) (hheld : (d.qp q).held = []) (hon : d.qpOn q = true)
    (hturn : d.turn ≠ some q) : let n := d.recordStep q
    n.hi.out = d.hi.out ∧ (n.qp q).held = [{ e.2 with seq := d.rd64 F.HI_QP_SEQ_LO F.HI_QP_SEQ_HI q }] ∧ n.hi.records = d.hi.records.erase e := by
  obtain ⟨hout, hrecords, hqp, -⟩ := (d.withoutRecord e).holdRecord_shows q e.2
  rw [Dev.recordStep_of_wait hturn, Dev.recordTaken_of_pending hfind, Dev.takeRecord_of_on (d := d.withoutRecord e) hon hheld]
  refine ⟨hout, (congrArg QpT.held hqp).trans ?_, hrecords⟩
  change (d.qp q).held ++ [_] = _
  rw [hheld]
  rfl

/-- What the turn of a queue pair that holds a lone LOST record leaves. -/
theorem Dev.writeRecord_of_lost {r : StreamRec} (hheld : (d.qp q).held = [r]) (htype : r.type = 2) :
    Keeps ⟨false, [F.SC_TM_STAT_last_status, F.SC_TM_CNT_refusals, F.SC_CH_STAT_last_status, F.SC_LV_STAT_last_status, F.SC_DR_STAT_last_status,
      F.HI_QP_CTRL_draining, F.HI_QP_FLAGS_in_flight, F.CN_STAT_slots, F.FLT_STAT_lost, F.FLT_LOST], [.hi, .cn, .flt]⟩ d (d.writeRecord q) ∧
      ((d.writeRecord q).qp q).held = [r] := by
  cases hrx : d.rxSource q with
  | none =>
    rw [Dev.writeRecord_of_none hrx, Dev.writeHeld_of_lost hheld htype]
    exact ⟨Keeps.refl _ _, hheld⟩
  | some c =>
    rw [Dev.writeRecord_of_some hrx]
    exact ⟨Dev.writeRx_keeps .., (Dev.writeRx_held ..).trans hheld⟩

/-- The record that reaches a queue pair that is not enabled is lost. -/
theorem Dev.recordStep_lost (hfind : (d.hi.records.find? fun e => e.1 == q) = some e) (hheld : (d.qp q).held = []) (hoff : d.qpOn q = false) :
    let n := d.recordStep q
    n.flag F.HI_QP_FLAGS_lost q = true ∧ (n.qp q).held = [d.lostRecord q] ∧
      n.rd F.HI_QP_LOST q = min (d.rd F.HI_QP_LOST q + 1) (2 ^ F.HI_QP_LOST.width - 1) ∧
      n.rd64 F.HI_QP_SEQ_LO F.HI_QP_SEQ_HI q = (d.rd64 F.HI_QP_SEQ_LO F.HI_QP_SEQ_HI q + 1) % 2 ^ 64 := by
  have htaken : d.recordTaken q = (d.withoutRecord e).loseRecord q := by
    rw [Dev.recordTaken_of_pending hfind, Dev.takeRecord_of_off (d := d.withoutRecord e) hoff hheld]
  have hlost := (d.withoutRecord e).loseRecord_shows q
  change (_ ∧ _ = [d.lostRecord q] ∧ _ = min (d.rd F.HI_QP_LOST q + 1) _ ∧ _ = (d.rd64 F.HI_QP_SEQ_LO F.HI_QP_SEQ_HI q + 1) % 2 ^ 64) at hlost
  rw [← htaken] at hlost
  by_cases hturn : d.turn = some q
  · rw [Dev.recordStep_of_turn hturn]
    obtain ⟨hflag, hone, hcount, hseq⟩ := hlost
    obtain ⟨hk, hstays⟩ := Dev.writeRecord_of_lost hone rfl
    generalize d.recordTaken q = g at hflag hone hcount hseq hk hstays ⊢
    have hhad := (g.writeRecord q).hadTurn_keeps q
    exact ⟨(hhad.flag F.HI_QP_FLAGS_lost q (by decide)).trans ((hk.flag F.HI_QP_FLAGS_lost q (by decide)).trans hflag), hstays,
      (hhad.rd F.HI_QP_LOST q (by decide)).trans ((hk.rd F.HI_QP_LOST q (by decide)).trans hcount),
      (hhad.rd64 F.HI_QP_SEQ_LO F.HI_QP_SEQ_HI q (by decide) (by decide)).trans
        ((hk.rd64 F.HI_QP_SEQ_LO F.HI_QP_SEQ_HI q (by decide) (by decide)).trans hseq)⟩
  · rw [Dev.recordStep_of_wait hturn]
    exact hlost

/-- The oldest record of a controller is written at its queue pair's turn. -/
theorem Dev.recordStep_rx (hrecords : ∀ e ∈ d.hi.records, e.1 ≠ q) (hemitted : ∀ e ∈ d.be.emitted, e.qp ≠ q) {c : Nat} {r : RxRec} {rest : List RxRec}
    (hrx : d.rxSource q = some c) (hheld : (d.can c).held = r :: rest) {it : Item} {x : Descr} (hbuffer : (d.qp q).buffer = some it)
    (hdesc : it.desc = some x) (hfit : it.moved + r.bytes.length ≤ x.length) (hturn : d.turn = some q) : let n := d.recordStep q
    n.hi.out = d.hi.out ++ [.bytes (x.address + it.moved) r.bytes] ∧ (n.can c).held = rest ∧ n.served (d.rd F.HI_QP_CFG_prio q) = q := by
  rw [Dev.recordStep_of_turn hturn, Dev.recordTaken_of_none hrecords hemitted, Dev.writeRecord_of_some hrx,
    Dev.writeRx_of_fit hbuffer hdesc hheld (Dev.rxSource_holds hrx hheld) hfit]
  have hk := d.writtenRx_keeps c q it x r.bytes rest
  obtain ⟨hout, hrest⟩ := d.writtenRx_shows c q it x r.bytes rest
  generalize d.writtenRx c q it x r.bytes rest = g at hk hout hrest ⊢
  obtain ⟨hsent, -, -, hserved⟩ := g.hadTurn_shows q
  rw [hk.rd F.HI_QP_CFG_prio q (by decide)] at hserved
  exact ⟨hsent.trans hout, (congrArg CnT.held ((g.hadTurn_keeps q).can (by decide) c)).trans hrest, hserved⟩

end

end Sys2Proof.Machine
end

section
namespace Sys2Proof.Machine

/-- Settles O35: NOP and FENCE, transfers, snapshots and records, each command by the state of its descriptor. -/
theorem transfersAndStreams : Obligations.TransfersAndStreams := by
  unfold Obligations.TransfersAndStreams
  intro s t q i x it d p a
  have hnow : s.now t = d := rfl
  clear_value d
  refine ⟨?refused, ?begins, ?moves, ?records, ?receives, ?flush⟩
  case refused =>
    intro hstand e hwindow
    have hfin := fun op hop f => Dev.startItem_of_refused (op := op) (f := f) hstand hop hwindow
    have hends : (d.finish q i e).endedWith q i e := Dev.finish_ends (Dev.underWay_of_received hstand) ..
    refine ⟨fun hop data => ?_, fun hop k w => ?_, fun hop => ?_, fun hop => ?_⟩
    · have hbegun := Dev.beginTransfer_of_refused hstand hop hwindow
      exact Does.of_step (show exec _ s = execMemWrite t q i data s from rfl) hnow (Dev.writeNext_of_ended hbegun data) hbegun
    · have hbegun := Dev.beginTransfer_of_refused hstand hop hwindow
      exact Does.of_step (show exec _ s = execMemRead t q i k w s from rfl) hnow (Dev.readNext_of_ended hbegun k w) hbegun
    · exact Does.of_step (show exec _ s = execSnapshot t q i s from rfl) hnow (hfin _ hop _) hends
    · exact Does.of_step (show exec _ s = execStreamBuf t q i s from rfl) hnow (hfin _ hop _) hends
  case begins =>
    intro hstand hwindow
    have hlive := Dev.underWay_started hstand
    obtain ⟨g, hg, hphase, hdesc⟩ := Dev.started_shows hstand
    have hstart := fun op hop f => Dev.startItem_of_standing (op := op) (f := f) hstand hop hwindow
    refine ⟨fun hop => ?_, fun hop => ?_, fun hop howns data => ?_, fun hop => ?_, fun hop => ?_⟩
    · exact Does.of_step (show exec _ s = execNop t q i s from rfl) hnow (hstart _ hop _) (Dev.finish_ends hlive ..)
    · refine Does.of_step (show exec _ s = execFence t q i s from rfl) hnow (hstart _ hop _)
        ⟨{ g with awaits := (d.started q i).fenceAwaits q i }, Dev.item_onItem hg rfl, hphase, fun k => ?_⟩
      have hawait := d.fenceAwaits_started q i k
      simp only [← Fin.ext_iff] at hawait
      exact hawait
    · have hforeign := Dev.beginTransfer_of_foreign hstand hop hwindow howns
      have hended : (d.beginTransfer q i Op.MEM_WRITE).endedWith q i Code.NOT_OWNER := by
        rw [hforeign]
        exact Dev.finish_ends hlive ..
      refine Does.of_step (show exec _ s = execMemWrite t q i data s from rfl) hnow (Dev.writeNext_of_ended hended data) ⟨hended, fun y => ?_⟩
      rw [Dev.bankByte, Dev.bankByte, (d.beginTransfer_keeps ..).parts .mb (by decide)]
    · have hk := d.started_keeps q i
      have hout := d.out_started q i
      have hword : ∀ off, off ≠ F.HI_QP_FLAGS.off q 0 → (d.started q i).word off = d.word off := fun _ h => Dev.started_word hstand h
      have hsection := d.sectionBytes_started q i
      have hsent : (((d.started q i).emit (.bytes x.address (d.started q i).snapshotBytes)).qp q) = (d.started q i).qp q := rfl
      have hlive' : ((d.started q i).emit (.bytes x.address (d.started q i).snapshotBytes)).underWay q i := Dev.underWay_congr hsent hlive
      have hstep := hstart _ hop (fun d x => (d.emit (.bytes x.address d.snapshotBytes)).finish q i Code.OK false snapSize)
      refine Does.of_step (show exec _ s = execSnapshot t q i s from rfl) hnow hstep ⟨Dev.finish_ends hlive' ..,
        ⟨_, Dev.finish_found hlive' ((congrArg (QpT.item · i) hsent).trans hg) .., rfl⟩,
        d.started q i, hk.time, hk.parts .be (by decide), hk.parts .flt (by decide), hword, ?_, Dev.snapshotBytes_length _, ?_, fun u hu => ?_⟩
      · rw [((Dev.finish_itemsOnly ..).out), ← hout]
        rfl
      · rw [Dev.snapshotBytes_take, Dev.preamble, hk.time]
      · rw [← hsection u]
        exact Dev.snapshotBytes_section _ hu
    · exact Does.of_step (show exec _ s = execStreamBuf t q i s from rfl) hnow (hstart _ hop _) ⟨g, hg, hphase, hdesc⟩
  case moves =>
    intro hitem hdesc hphase hring
    refine ⟨fun hop hdone => ?_, fun bytes w hop hlen => ?_, fun n w hop hpos hlen => ?_, fun hop hleft => ?_⟩
    · have hit : it.op = Op.FENCE := by rw [Item.op, hdesc]; exact hop
      exact Does.of_step (show exec _ s = execFenceComplete t q i s from rfl) hnow (Dev.fenceComplete_of_done hitem hphase hit hdone)
        (Dev.finish_ends (Dev.underWay_of_started hitem hphase hring) ..)
    · have hdo : ∀ {P : Dev → Prop}, P (d.writeNext q i ⟨bytes, w⟩) → Does s (.memWrite t q i ⟨bytes, w⟩) P := fun hP =>
        Does.of_step (show exec _ s = execMemWrite t q i ⟨bytes, w⟩ s from rfl) hnow
          (congrArg (fun e : Dev => e.writeNext q i ⟨bytes, w⟩) (Dev.beginTransfer_of_started hitem hphase)) hP
      refine ⟨fun hwait => hdo ?_, fun hturn htakes => hdo ?_⟩
      · exact Dev.writeNext_of_wait hitem hdesc hwait
      · exact Dev.writeNext_shows hitem hdesc hphase hop (data := ⟨bytes, w⟩) hlen hturn htakes
    · intro reads
      have hdo : ∀ {P : Dev → Prop}, P (d.readNext q i n w) → Does s (.memRead t q i n w) P := fun hP =>
        Does.of_step (show exec _ s = execMemRead t q i n w s from rfl) hnow
          (congrArg (fun e : Dev => e.readNext q i n w) (Dev.beginTransfer_of_started hitem hphase)) hP
      refine ⟨fun hwait => hdo (Dev.readNext_of_wait hitem hdesc hwait), fun hturn => ?_⟩
      have hshows := Dev.readNext_shows hitem hdesc hphase hop hlen hring hturn
      dsimp only at hshows
      refine ⟨fun hall => hdo ?_, fun k hk hbefore hstop => hdo ?_⟩
      · have hcount : d.delivers (x.param2 + it.moved) n w.turn.upset = n := Dev.delivers_of_all hall
        rw [hcount] at hshows
        exact hshows.1 (le_refl n) hpos
      · have hcount : d.delivers (x.param2 + it.moved) n w.turn.upset = k := length_takeWhile_range hk hbefore hstop
        rw [hcount] at hshows
        exact ⟨_, hshows.2 hk, rfl⟩
    · exact Does.of_step (show exec _ s = execDataTransferDone t q i s from rfl) hnow (Dev.transferDone_eq hitem hdesc hphase hop hleft)
        (Dev.finishMoved_ends hitem hphase hring _)
  case records =>
    intro e hfind hheld seq
    have hdo : ∀ {P : Dev → Prop}, P (d.recordStep q) → Does s (.recordWrite t q) P := fun hP =>
      Does.of_step ((show exec _ s = execRecordWrite t q s from rfl).trans (execRecordWrite_eq ..)) hnow rfl hP
    refine ⟨fun hon hbuffer hdesc hfit htype hawake hrx hothers => hdo ?_, fun hlower hon => hdo ?_, fun hoff => hdo ?_⟩
    · have hwants : d.wantsTurn q = true := by
        rw [Dev.wantsTurn, hawake, Dev.mayRecord_of_pending hon hbuffer hfind, Bool.or_true]
        rfl
      refine Dev.recordStep_written hfind hheld hon hbuffer hdesc hrx htype (Dev.turn_of_highest hwants fun k hk hwant => ?_) hfit
      exact hothers k hk (Bool.or_eq_true_iff.mp (Bool.and_eq_true_iff.mp hwant).2)
    · obtain ⟨k, hfetch, hlow⟩ := hlower
      exact Dev.recordStep_held hfind hheld hon (Dev.turn_ne_of_lower hfetch hlow)
    · exact Dev.recordStep_lost hfind hheld hoff
  case receives =>
    intro c r rest hrecords hemitted hrx hheld hawake hon hbuffer hdesc hfit hothers
    have hwants : d.wantsTurn q = true := by
      rw [Dev.wantsTurn, hawake, Dev.mayRecord_of_rx hon hbuffer hrx, Bool.or_true]
      rfl
    refine Does.of_step ((show exec _ s = execRecordWrite t q s from rfl).trans (execRecordWrite_eq ..)) hnow rfl
      (Dev.recordStep_rx hrecords hemitted hrx hheld hbuffer hdesc hfit (Dev.turn_of_highest hwants fun k hk hwant => ?_))
    exact hothers k hk (Bool.or_eq_true_iff.mp (Bool.and_eq_true_iff.mp hwant).2)
  case flush =>
    intro hbuffer hitem hmoved hdue hring
    have hphase : it.phase = .started := by
      have hbuf := List.find?_some (p := Item.isBuffer) hbuffer
      rw [Item.isBuffer, Bool.and_eq_true, beq_iff_eq] at hbuf
      exact hbuf.1
    have hstep : (match (d.qp q).buffer with
        | some it => if 0 < it.moved ∧ it.firstAt + 80000 * d.rd F.HI_QP_MOD_flush q ≤ d.time then d.finishMoved q it Code.OK else d
        | none => d) = d.finishMoved q it Code.OK := by
      rw [show (d.qp q).buffer = some it from hbuffer]
      exact if_pos ⟨hmoved, hdue⟩
    exact Does.of_step (show exec _ s = execBufferFlush t q s from rfl) hnow hstep (Dev.finishMoved_ends hitem hphase hring _)

end Sys2Proof.Machine
end

section
/-! The compares that an update point transfers, the spans that they govern, and the commands that they give (R42 to R44, R47, R51, R53). -/

namespace Sys2Proof.Machine

/-! ### The locked writes enter the compares (R51, R53) -/

/-- Compare A or B of a pulse generator. -/
def Dev.compare (d : Dev) (p : Nat) (isB : Bool) : Nat := if isB then d.rd F.PG_CMP_B_value p else d.rd F.PG_CMP_A_value p

/-- Does a transfer leave this compare: B, with the beat half the period and outside DIRECT? -/
def Dev.leavesCompare (d : Dev) (s p : Nat) (isB : Bool) : Prop := isB = true ∧ d.halfBeat s = true ∧ d.rd F.PG_CFG_mode p ≠ 4

/-- One locked write enters its compare. -/
def Dev.putCompare (s : Nat) (d : Dev) (w : Nat × Bool × Nat) : Dev :=
  if w.2.1 then (if d.halfBeat s && d.rd F.PG_CFG_mode w.1 != 4 then d else d.wr F.PG_CMP_B_value w.1 w.2.2)
  else d.wr F.PG_CMP_A_value w.1 w.2.2

theorem Dev.applyLocked_eq (d : Dev) (s : Nat) : d.applyLocked s = (d.stg s).locked.foldl (Dev.putCompare s) d := rfl

theorem Dev.putCompare_keeps (s : Nat) (d : Dev) (w : Nat × Bool × Nat) :
    Keeps ⟨false, [F.PG_CMP_A_value, F.PG_CMP_B_value], []⟩ d (d.putCompare s w) := by
  unfold Dev.putCompare
  split
  · split
    · exact Keeps.refl _ _
    · exact (Dev.wr_keeps d F.PG_CMP_B_value _ _ (by decide)).within (by decide)
  · exact (Dev.wr_keeps d F.PG_CMP_A_value _ _ (by decide)).within (by decide)

/-- A locked write that names a port and fits its compare. -/
def FitsCompare (w : Nat × Bool × Nat) : Prop := w.1 < 64 ∧ w.2.2 < 2 ^ 28

theorem Dev.compare_wr_a (d : Dev) {p q v : Nat} (hp : p < 64) (hq : q < 64) (hv : v < 2 ^ 28) (isB : Bool) :
    (d.wr F.PG_CMP_A_value q v).compare p isB = if q = p ∧ isB = false then v else d.compare p isB := by
  cases isB with
  | true => rw [if_neg (by simp)]; exact Dev.rd_wr_apart d F.PG_CMP_B_value F.PG_CMP_A_value p q v (by decide) (by decide)
  | false =>
    by_cases h : q = p
    · subst h
      rw [if_pos ⟨rfl, rfl⟩]
      exact Dev.rd_wr_of_lt d F.PG_CMP_A_value q (by decide) hv
    · rw [if_neg fun hc => h hc.1]
      exact Dev.rd_wr_of_ne d F.PG_CMP_A_value v (by decide) hp hq fun hc => h hc.symm

theorem Dev.compare_wr_b (d : Dev) {p q v : Nat} (hp : p < 64) (hq : q < 64) (hv : v < 2 ^ 28) (isB : Bool) :
    (d.wr F.PG_CMP_B_value q v).compare p isB = if q = p ∧ isB = true then v else d.compare p isB := by
  cases isB with
  | false => rw [if_neg (by simp)]; exact Dev.rd_wr_apart d F.PG_CMP_A_value F.PG_CMP_B_value p q v (by decide) (by decide)
  | true =>
    by_cases h : q = p
    · subst h
      rw [if_pos ⟨rfl, rfl⟩]
      exact Dev.rd_wr_of_lt d F.PG_CMP_B_value q (by decide) hv
    · rw [if_neg fun hc => h hc.1]
      exact Dev.rd_wr_of_ne d F.PG_CMP_B_value v (by decide) hp hq fun hc => h hc.symm

theorem Dev.compare_putCompare_of_ne (d : Dev) (s : Nat) {p : Nat} {isB : Bool} (hp : p < 64) {w : Nat × Bool × Nat} (hw : FitsCompare w)
    (hne : ¬ (w.1 = p ∧ w.2.1 = isB)) : (d.putCompare s w).compare p isB = d.compare p isB := by
  obtain ⟨q, side, v⟩ := w
  obtain ⟨hq, hv⟩ := hw
  unfold Dev.putCompare
  cases side with
  | false => exact (d.compare_wr_a hp hq hv isB).trans (if_neg fun h => hne ⟨h.1, h.2.symm⟩)
  | true =>
    dsimp only
    rw [if_pos rfl]
    split
    · rfl
    · exact (d.compare_wr_b hp hq hv isB).trans (if_neg fun h => hne ⟨h.1, h.2.symm⟩)

theorem Dev.compare_putCompare (d : Dev) (s : Nat) {p v : Nat} (isB : Bool) (hp : p < 64) (hv : v < 2 ^ 28) :
    (d.leavesCompare s p isB → (d.putCompare s (p, isB, v)).compare p isB = d.compare p isB) ∧
      (¬ d.leavesCompare s p isB → (d.putCompare s (p, isB, v)).compare p isB = v) := by
  have hblock : (d.halfBeat s && d.rd F.PG_CFG_mode p != 4) = true ↔ d.halfBeat s = true ∧ d.rd F.PG_CFG_mode p ≠ 4 := by
    rw [Bool.and_eq_true, bne_iff_ne]
  unfold Dev.leavesCompare Dev.putCompare
  cases isB with
  | false => exact ⟨fun h => absurd h.1 (by decide), fun _ => (d.compare_wr_a hp hp hv false).trans (if_pos ⟨rfl, rfl⟩)⟩
  | true =>
    dsimp only
    rw [if_pos rfl]
    refine ⟨fun h => by rw [if_pos (hblock.mpr h.2)], fun h => ?_⟩
    rw [if_neg fun hc => h ⟨rfl, hblock.mp hc⟩]
    exact (d.compare_wr_b hp hp hv true).trans (if_pos ⟨rfl, rfl⟩)

/-- After a list of locked writes a compare holds the last one for it. -/
theorem Dev.compare_foldl (d : Dev) (s : Nat) {p : Nat} (isB : Bool) (hp : p < 64) (l : List (Nat × Bool × Nat)) (hl : ∀ w ∈ l, FitsCompare w) :
    (d.leavesCompare s p isB → (l.foldl (Dev.putCompare s) d).compare p isB = d.compare p isB) ∧
      (¬ d.leavesCompare s p isB → (l.foldl (Dev.putCompare s) d).compare p isB =
        match l.reverse.find? fun w => w.1 == p && w.2.1 == isB with | some w => w.2.2 | none => d.compare p isB) := by
  induction l using List.reverseRecOn with
  | nil => exact ⟨fun _ => rfl, fun _ => rfl⟩
  | append_singleton l w ih =>
    obtain ⟨ihleave, ihput⟩ := ih fun v hv => hl v (List.mem_append_left _ hv)
    have hw : FitsCompare w := hl w (List.mem_append_right _ (List.mem_singleton_self w))
    have hk : Keeps ⟨false, [F.PG_CMP_A_value, F.PG_CMP_B_value], []⟩ d (l.foldl (Dev.putCompare s) d) :=
      Dev.foldl_keeps (fun e v => Dev.putCompare_keeps s e v) l d
    have hsame : (l.foldl (Dev.putCompare s) d).leavesCompare s p isB ↔ d.leavesCompare s p isB := by
      rw [Dev.leavesCompare, Dev.leavesCompare, hk.toFrame.halfBeat (by decide), hk.rd F.PG_CFG_mode p (by decide)]
    rw [List.foldl_append, List.foldl_cons, List.foldl_nil, List.reverse_append, List.reverse_singleton, List.singleton_append, List.find?_cons]
    generalize l.foldl (Dev.putCompare s) d = e at ihleave ihput hsame ⊢
    by_cases hat : w.1 = p ∧ w.2.1 = isB
    · obtain ⟨q, side, v⟩ := w
      obtain ⟨rfl, rfl⟩ : q = p ∧ side = isB := hat
      obtain ⟨hleave, hput⟩ := e.compare_putCompare s side hp hw.2
      refine ⟨fun h => (hleave (hsame.mpr h)).trans (ihleave h), fun h => (hput fun hc => h (hsame.mp hc)).trans ?_⟩
      rw [beq_self_eq_true, beq_self_eq_true]
      rfl
    · have hother : (w.1 == p && w.2.1 == isB) = false := by
        rw [Bool.eq_false_iff, ne_eq, Bool.and_eq_true, beq_iff_eq, beq_iff_eq]
        exact hat
      rw [e.compare_putCompare_of_ne s hp hw hat, hother]
      exact ⟨ihleave, ihput⟩

/-- The compares that act on the beat that the coming transfer opens. -/
def Dev.coming (d : Dev) (s : Nat) : Dev := if (d.stg s).transfer then d.applyLocked s else d

theorem Dev.coming_keeps (d : Dev) (s : Nat) : Keeps ⟨false, [F.PG_CMP_A_value, F.PG_CMP_B_value], []⟩ d (d.coming s) :=
  Keeps.ite (fun _ => d.applyLocked_keeps s) fun _ => Keeps.refl _ _

theorem Dev.compare_coming {d : Dev} {s p : Nat} (isB : Bool) (hp : p < 64) (hl : ∀ w ∈ (d.stg s).locked, FitsCompare w) :
    (d.coming s).compare p isB = d.comingCompare s p isB := by
  obtain ⟨hleave, hput⟩ := d.compare_foldl s isB hp _ hl
  unfold Dev.comingCompare
  change _ = match (d.stg s).locked.reverse.find? (fun w => w.1 == p && w.2.1 == isB) with
      | some w => if (d.stg s).transfer = false ∨ (isB = true ∧ d.halfBeat s = true ∧ d.rd F.PG_CFG_mode p ≠ 4) then d.compare p isB else w.2.2
      | none => d.compare p isB
  rw [Dev.coming]
  cases htransfer : (d.stg s).transfer with
  | false =>
    rw [if_neg Bool.false_ne_true]
    split
    · rw [if_pos (Or.inl rfl)]
    · rfl
  | true =>
    rw [if_pos rfl, Dev.applyLocked_eq]
    by_cases h : d.leavesCompare s p isB
    · rw [hleave h]
      split
      · exact (if_pos (Or.inr h)).symm
      · rfl
    · rw [hput h]
      split
      · exact (if_neg (by rintro (hc | hc); exacts [absurd hc (by decide), h hc])).symm
      · rfl

theorem Dev.comingCompare_of_notMem {d : Dev} {s p : Nat} (isB : Bool) (h : ∀ w ∈ (d.stg s).locked, w.1 ≠ p) :
    d.comingCompare s p isB = d.compare p isB := by
  have hnone : (d.stg s).locked.reverse.find? (fun w => w.1 == p && w.2.1 == isB) = none :=
    List.find?_eq_none.mpr fun w hw hc => by
      rw [Bool.and_eq_true, beq_iff_eq] at hc
      exact h w (List.mem_reverse.mp hw) hc.1
  unfold Dev.comingCompare
  rw [hnone]
  rfl

/-! ### Spans and commands of the compares (R42, R43, R47) -/

/-- The fields that spans and commands are computed from. -/
def spanFields : List Fd :=
  [F.TB_STG_CFG_count_mode, F.TB_STG_CFG_beat_div, F.TB_STG_PERIOD_period, F.PG_CFG_mode, F.PG_MINP_min_pulse, F.PG_CMP_A_value, F.PG_CMP_B_value]

/-- From d to e these fields stay. -/
def Dev.SameSpans (d e : Dev) : Prop := ∀ f ∈ spanFields, ∀ i, e.rd f i = d.rd f i

theorem Dev.SameSpans.of_keeps {w : Foot} {d e : Dev} (hk : Keeps w d e) (hw : spanFields.all w.avoids = true) : d.SameSpans e :=
  fun f hf i => hk.rd f i (List.all_eq_true.mp hw f hf)

theorem Dev.SameSpans.trans {d e g : Dev} (h : d.SameSpans e) (k : e.SameSpans g) : d.SameSpans g := fun f hf i => (k f hf i).trans (h f hf i)

section
variable {d e : Dev} (h : d.SameSpans e)
include h

theorem Dev.SameSpans.mode (p : Nat) : e.rd F.PG_CFG_mode p = d.rd F.PG_CFG_mode p := h _ (by simp [spanFields]) p

theorem Dev.SameSpans.minPulse (p : Nat) : e.rd F.PG_MINP_min_pulse p = d.rd F.PG_MINP_min_pulse p := h _ (by simp [spanFields]) p

theorem Dev.SameSpans.compareA (p : Nat) : e.rd F.PG_CMP_A_value p = d.rd F.PG_CMP_A_value p := h _ (by simp [spanFields]) p

theorem Dev.SameSpans.compareB (p : Nat) : e.rd F.PG_CMP_B_value p = d.rd F.PG_CMP_B_value p := h _ (by simp [spanFields]) p

theorem Dev.SameSpans.period (s : Nat) : e.period s = d.period s := h _ (by simp [spanFields]) s

theorem Dev.SameSpans.upDown (s : Nat) : e.upDown s = d.upDown s := by
  rw [Dev.upDown, Dev.upDown, h F.TB_STG_CFG_count_mode (by simp [spanFields])]

theorem Dev.SameSpans.halfBeat (s : Nat) : e.halfBeat s = d.halfBeat s := by
  rw [Dev.halfBeat, Dev.halfBeat, h F.TB_STG_CFG_beat_div (by simp [spanFields])]

theorem Dev.SameSpans.half16 (s : Nat) : e.half16 s = d.half16 s := by rw [Dev.half16, Dev.half16, h.period]

theorem Dev.SameSpans.spanTotals (p pos16 : Nat) : e.spanTotals p pos16 = d.spanTotals p pos16 := by
  simp only [Dev.spanTotals, h.mode, h.compareA, h.compareB, h.period, h.half16, h.upDown, h.halfBeat]

theorem Dev.SameSpans.hCommand (p pos16 : Nat) : e.hCommand p pos16 = d.hCommand p pos16 := by
  simp only [Dev.hCommand, h.spanTotals, h.minPulse, Dev.rawH, Dev.atOrAbove, Dev.carrierValue, h.mode, h.compareA, h.compareB, h.period,
    h.half16, h.upDown, h.halfBeat]

theorem Dev.SameSpans.minPulseFlag (p pos16 : Nat) : e.minPulseFlag p pos16 = d.minPulseFlag p pos16 := by
  simp only [Dev.minPulseFlag, h.spanTotals, h.minPulse, h.mode, h.compareA, h.compareB, h.period, h.half16, h.upDown, h.halfBeat]

theorem Dev.SameSpans.governed (s p : Nat) : e.governed s p = d.governed s p := by
  simp only [Dev.governed, h.mode, h.compareA, h.compareB, h.period, h.upDown, h.halfBeat]

end

/-- Does the minimum-pulse rule m change a span of these totals (R47)? -/
def spanDiffers (m : Nat) (u : Nat × Nat) : Bool := (u.1 < m && u.1 ≠ 0) || (m ≤ u.1 && u.2 < m && u.2 ≠ 0)

theorem minPulseActs_eq (hi lo m : Nat) : minPulseActs hi lo m = spanDiffers m (hi, lo) := by
  rw [Bool.eq_iff_iff]
  unfold minPulseActs minPulse spanDiffers
  by_cases h1 : hi < m
  · rw [if_pos h1]
    simp [h1]
  · rw [if_neg h1]
    by_cases h2 : lo < m
    · rw [if_pos h2]
      simp [h1, h2, Nat.not_lt.mp h1]
    · rw [if_neg h2]
      simp [h1, h2]

/-- The rule acts at an update point where it changes a span that the compares govern. -/
theorem Dev.minPulseFlag_eq {d : Dev} {s p : Nat} (hs : portStage p = s) (pos16 : Nat) (ha : d.compare p false ≤ d.compareMax p false)
    (hb : d.compare p true ≤ d.compareMax p true) :
    d.minPulseFlag p pos16 = (d.governed s p).any (spanDiffers (16 * d.rd F.PG_MINP_min_pulse p)) := by
  subst hs
  unfold Dev.compare Dev.compareMax at ha hb
  rw [if_neg Bool.false_ne_true] at ha
  rw [if_pos rfl] at hb
  unfold Dev.minPulseFlag Dev.governed
  have hH : d.half16 (portStage p) = 8 * d.period (portStage p) := rfl
  by_cases h4 : d.rd F.PG_CFG_mode p = 4
  · rw [if_neg (by omega)] at ha hb
    simp only [h4, if_true, minPulseActs_eq, List.any_cons, List.any_nil, Bool.or_false, hH]
    cases hud : d.upDown (portStage p) with
    | false =>
      rw [hud, if_neg Bool.false_ne_true] at ha hb
      simp only [Bool.false_eq_true, if_false]
      rw [min_eq_left ha, min_eq_left hb, show 2 * (8 * d.period (portStage p)) = 16 * d.period (portStage p) by omega]
    | true =>
      rw [hud, if_pos rfl, hH] at ha hb
      simp only [if_true]
      rw [min_eq_left ha, min_eq_left hb]
  by_cases h6 : d.rd F.PG_CFG_mode p = 6
  · simp [h6]
  by_cases h5 : d.rd F.PG_CFG_mode p = 5
  · rw [if_pos h5, if_pos rfl] at hb
    simp [h5, minPulseActs_eq, Dev.spanTotals, hH, min_eq_left (hH ▸ hb)]
  rw [if_neg h5] at ha hb
  have hmode : (d.rd F.PG_CFG_mode p != 5) = true := bne_iff_ne.mpr h5
  cases hud : d.upDown (portStage p) with
  | true =>
    rw [hud, if_pos rfl, hH] at ha hb
    cases hhb : d.halfBeat (portStage p) with
    | true => simp [h4, h5, h6, hud, hhb, minPulseActs_eq, Dev.spanTotals, hH, min_eq_left ha]
    | false =>
      by_cases hzero : d.period (portStage p) = 0
      · have ha0 : d.rd F.PG_CMP_A_value p = 0 := by omega
        have hb0 : d.rd F.PG_CMP_B_value p = 0 := by omega
        simp [h4, h5, h6, hud, hhb, minPulseActs_eq, Dev.spanTotals, hH, ha0, hb0, hzero, hmode]
      · have hpos : Nat.blt 0 (8 * d.period (portStage p)) = true := by rw [Nat.blt_eq]; omega
        have hirr : Nat.blt (8 * d.period (portStage p)) (8 * d.period (portStage p)) = false := blt_eq_false_of_le (le_refl _)
        simp [h4, h5, h6, hud, hhb, minPulseActs_eq, Dev.spanTotals, hH, min_eq_left ha, min_eq_left hb, hpos, hirr, hmode]
  | false =>
    rw [hud, if_neg Bool.false_ne_true] at ha hb
    have htop : 2 * (8 * d.period (portStage p)) = 16 * d.period (portStage p) := by omega
    simp only [h4, h5, h6, hud, if_false, Bool.false_and, Bool.false_eq_true, minPulseActs_eq, Dev.spanTotals, htop]
    by_cases hab : d.rd F.PG_CMP_A_value p < d.rd F.PG_CMP_B_value p
    · simp [hab]
    · by_cases hba : d.rd F.PG_CMP_B_value p < d.rd F.PG_CMP_A_value p
      · have hlow : 16 * d.period (portStage p) - (16 * d.period (portStage p) - (d.rd F.PG_CMP_A_value p - d.rd F.PG_CMP_B_value p)) =
            d.rd F.PG_CMP_A_value p - d.rd F.PG_CMP_B_value p := by omega
        simp [hab, hba, hlow]
      · simp [hab, hba]

end Sys2Proof.Machine
end

section
/-! Update points and deadline instants (R41, R47, R51 to R54, R59). -/

namespace Sys2Proof.Machine

/-! ### Ports that begin to drive (R42, R47, R54) -/

theorem portStage_of_mem (k : Fin 21) : ∀ p ∈ stagePorts k, portStage p = k := by revert k; decide

/-- The ports of a stage whose coming spans the minimum-pulse rule changes are flagged. -/
def Dev.flagSpans (d : Dev) (s pos16 : Nat) : Dev :=
  d.each (stagePorts s) fun d p => if d.minPulseFlag p pos16 then d.put F.PG_STAT_minp p true else d

/-- A stage drives from update point n on. -/
def Dev.beginDriving (d : Dev) (s n : Nat) : Dev :=
  (d.setStg s { d.stg s with driving := true, firstBeat := n, droveAt := d.time }).put F.TB_STG_STAT_running s true

/-- A port takes its first command. -/
def Dev.firstStep (now16 pos16 : Nat) (d : Dev) (p : Nat) : Dev :=
  (d.setPort p { d.port p with readmitted := (d.port p).readmitted && !(d.port p).restarted }).pgStep p now16 pos16 true

/-- Does a stage begin to drive at its update point (R54)? -/
def Dev.begins (d : Dev) (s : Nat) (transfer : Bool) : Bool :=
  d.flag F.TB_STG_RUN_run s && !(d.stg s).driving && transfer && Nat.blt (d.stg s).startAt d.time

/-- The ports of a stage at its update point, once the spans are flagged. -/
def Dev.stepPorts (d : Dev) (s n now16 pos16 : Nat) (transfer : Bool) : Dev :=
  if d.begins s transfer then (d.beginDriving s n).each (stagePorts s) (Dev.firstStep now16 pos16)
  else if (d.stg s).driving then d.each (stagePorts s) fun d p => d.pgStep p now16 pos16 false
  else d

theorem Dev.drivePorts_eq (d : Dev) (s n : Nat) (transfer : Bool) :
    d.drivePorts s n transfer = (d.flagSpans s (16 * d.carrier s d.time)).stepPorts s n (16 * d.time) (16 * d.carrier s d.time) transfer := rfl

theorem Dev.flagSpans_keeps (d : Dev) (s pos16 : Nat) : Keeps ⟨false, [F.PG_STAT_minp], []⟩ d (d.flagSpans s pos16) :=
  Dev.each_keeps d _ _ fun e p => Keeps.ite (fun _ => Dev.put_keeps e F.PG_STAT_minp p true (by decide)) fun _ => Keeps.refl _ _

/-- The flag of a port of the stage after the spans are flagged. -/
theorem Dev.flagSpans_minp (d : Dev) (k : Fin 21) (pos16 : Nat) {p : Nat} (hp : p ∈ stagePorts k) :
    (d.flagSpans k pos16).flag F.PG_STAT_minp p = (d.flag F.PG_STAT_minp p || d.minPulseFlag p pos16) := by
  obtain ⟨e, hsame, hflag⟩ := Dev.each_reads_at (fun e : Dev => (e.flag F.PG_STAT_minp p, e.minPulseFlag p pos16)) hp (stagePorts_nodup k)
    (f := fun d p => if d.minPulseFlag p pos16 then d.put F.PG_STAT_minp p true else d) (fun e q hq hne => by
      split
      · have hk := Dev.put_keeps e F.PG_STAT_minp q true (by decide)
        rw [(Dev.SameSpans.of_keeps hk (by decide)).minPulseFlag,
          Dev.flag_put_of_ne e F.PG_STAT_minp true (by decide) (stagePorts_lt k p hp) (stagePorts_lt k q hq) fun h => hne h.symm]
      · rfl) d
  obtain ⟨hminp, hacts⟩ := Prod.mk.inj hsame
  refine (Prod.mk.inj hflag).1.trans ?_
  rw [← hminp, ← hacts]
  split
  next h => rw [Dev.flag_put e F.PG_STAT_minp p true (by decide) rfl, h, Bool.or_true]
  next h => rw [Bool.not_eq_true] at h; rw [h, Bool.or_false]

/-- The commands of a port that takes its first command at now16, its carrier at pos16: what the modes with an H-command say. -/
def Dev.Commands (d e : Dev) (p now16 pos16 : Nat) : Prop :=
  (d.rd F.PG_CFG_mode p = 1 ∨ d.rd F.PG_CFG_mode p = 5 →
    (d.deadTime p (d.hCommand p pos16) = 0 → e.flag F.PG_STAT_out_high p = d.hCommand p pos16 ∧ e.flag F.PG_STAT_out_low p = !d.hCommand p pos16) ∧
    (d.deadTime p (d.hCommand p pos16) ≠ 0 → e.flag F.PG_STAT_out_high p = false ∧ e.flag F.PG_STAT_out_low p = false ∧
      (e.pg p).wait = some (d.hCommand p pos16, now16 + d.deadTime p (d.hCommand p pos16)))) ∧
  (d.rd F.PG_CFG_mode p = 2 → e.flag F.PG_STAT_out_high p = d.hCommand p pos16 ∧ e.flag F.PG_STAT_out_low p = false) ∧
  (d.rd F.PG_CFG_mode p = 3 → e.flag F.PG_STAT_out_high p = false ∧ e.flag F.PG_STAT_out_low p = !d.hCommand p pos16)

theorem Dev.pgStep_commands (d : Dev) (p now16 pos16 : Nat) : d.Commands (d.pgStep p now16 pos16 true) p now16 pos16 := by
  refine ⟨fun hmode => ?_, fun hmode => d.pgStep_high p now16 pos16 true hmode, fun hmode => d.pgStep_low p now16 pos16 true hmode⟩
  have hstep : d.pgStep p now16 pos16 true = d.hEdge p now16 (d.hCommand p pos16) := by
    unfold Dev.pgStep
    dsimp only
    rw [if_pos hmode, Bool.true_or, if_pos rfl]
  rw [hstep]
  exact ⟨d.hEdge_of_no_deadTime p now16 _, d.hEdge_of_deadTime p now16 _⟩

/-- What the commands of a port are computed from. -/
structure PortOrders where
  mode : Nat
  level : Bool
  rise : Nat
  fall : Nat

def Dev.orders (d : Dev) (p pos16 : Nat) : PortOrders := ⟨d.rd F.PG_CFG_mode p, d.hCommand p pos16, d.rd F.PG_DT_dt_rise p, d.rd F.PG_DT_dt_fall p⟩

theorem Dev.orders_of_keeps {w : Foot} {d e : Dev} (hk : Keeps w d e) (hw : spanFields.all w.avoids = true) (hrise : w.avoids F.PG_DT_dt_rise = true)
    (hfall : w.avoids F.PG_DT_dt_fall = true) (p pos16 : Nat) : e.orders p pos16 = d.orders p pos16 := by
  have hsame := Dev.SameSpans.of_keeps hk hw
  rw [Dev.orders, Dev.orders, hsame.mode, hsame.hCommand, hk.rd F.PG_DT_dt_rise p hrise, hk.rd F.PG_DT_dt_fall p hfall]

theorem Dev.Commands.congr {d e g m : Dev} {p now16 pos16 : Nat} (h : d.Commands e p now16 pos16) (ho : g.orders p pos16 = d.orders p pos16)
    (hhigh : m.flag F.PG_STAT_out_high p = e.flag F.PG_STAT_out_high p) (hlow : m.flag F.PG_STAT_out_low p = e.flag F.PG_STAT_out_low p)
    (hpg : m.pg p = e.pg p) : g.Commands m p now16 pos16 := by
  obtain ⟨hmode, hlevel, hrise, hfall⟩ := PortOrders.mk.inj ho
  rw [Dev.Commands, hmode, hlevel, hhigh, hlow, hpg, Dev.deadTime, hrise, hfall]
  exact h

theorem Dev.portView_pgStep_of_ne (d : Dev) {p q : Nat} (hp : p < 64) (hq : q < 64) (hne : p ≠ q) (now16 pos16 : Nat) (first : Bool) :
    (d.pgStep q now16 pos16 first).portView p = d.portView p := by
  have hoff : F.PG_STAT.off p 0 ≠ F.PG_STAT.off q 0 := pgStat_off_ne hp hq hne
  have hboth : ∀ e : Dev, (e.noteBoth q).portView p = e.portView p := fun e => by
    unfold Dev.noteBoth
    split
    · exact Dev.portView_eq_iff.mpr ⟨rfl, rfl, Dev.word_put_of_off_ne e F.PG_STAT_both_req q true hoff, rfl⟩
    · rfl
  have hpresent : ∀ (e : Dev) (at16 : Nat) (hi lo : Bool), (e.present q at16 hi lo).portView p = e.portView p := fun e at16 hi lo => by
    have hputs : (((e.put F.PG_STAT_out_high q hi).put F.PG_STAT_out_low q lo).noteBoth q).portView p = e.portView p :=
      (hboth _).trans (Dev.portView_eq_iff.mpr ⟨rfl, rfl, (Dev.word_put_of_off_ne _ F.PG_STAT_out_low q lo hoff).trans
        (Dev.word_put_of_off_ne e F.PG_STAT_out_high q hi hoff), rfl⟩)
    unfold Dev.present
    dsimp only
    split
    · rw [← hputs]
      exact Dev.portView_eq_iff.mpr ⟨rfl, Dev.port_setPort_of_ne _ _ hne, rfl, rfl⟩
    · exact hputs
  have hset : ∀ (e : Dev) (v : PgT), (e.setPg q v).portView p = e.portView p := fun e v =>
    Dev.portView_eq_iff.mpr ⟨Dev.pg_setPg_of_ne e v hne, rfl, rfl, rfl⟩
  have hedge : ∀ (e : Dev) (h : Bool), (e.hEdge q now16 h).portView p = e.portView p := fun e h => by
    unfold Dev.hEdge
    dsimp only
    generalize (if h then e.rd F.PG_DT_dt_rise q else e.rd F.PG_DT_dt_fall q) = dt
    split
    · exact (hpresent ..).trans (hset ..)
    · exact (hpresent ..).trans (hset ..)
  unfold Dev.pgStep
  dsimp only
  split
  · split
    · exact hedge ..
    · rfl
  · split
    · exact (hpresent ..).trans (hset ..)
    · split
      · exact (hpresent ..).trans (hset ..)
      · split
        · exact hpresent ..
        · exact hpresent ..

theorem Dev.firstStep_keeps (now16 pos16 : Nat) (d : Dev) (p : Nat) :
    Keeps ⟨false, [F.PG_STAT_out_high, F.PG_STAT_out_low, F.PG_STAT_both_req], [.tb, .pp]⟩ d (Dev.firstStep now16 pos16 d p) :=
  ((Dev.setPort_keeps d p _).within (by decide)).trans (Dev.pgStep_keeps ..)

/-- Each port of the stage takes the command that its compares give. -/
theorem Dev.firstSteps_commands (d : Dev) (k : Fin 21) (now16 pos16 : Nat) {p : Nat} (hp : p ∈ stagePorts k) :
    d.Commands (d.each (stagePorts k) (Dev.firstStep now16 pos16)) p now16 pos16 := by
  obtain ⟨e, hsame, hlast⟩ := Dev.each_reads_at (fun e : Dev => (e.portView p, e.orders p pos16)) hp (stagePorts_nodup k)
    (f := Dev.firstStep now16 pos16) (fun e q hq hne => by
      have hk := e.firstStep_keeps now16 pos16 q
      refine Prod.ext ?_ (Dev.orders_of_keeps hk (by decide) (by decide) (by decide) p pos16)
      have hview : ∀ v : PortT, (e.setPort q v).portView p = e.portView p := fun v =>
        Dev.portView_eq_iff.mpr ⟨rfl, Dev.port_setPort_of_ne e v hne.symm, rfl, rfl⟩
      exact (Dev.portView_pgStep_of_ne _ (stagePorts_lt k p hp) (stagePorts_lt k q hq) hne.symm ..).trans (hview _)) d
  obtain ⟨-, horders⟩ := Prod.mk.inj hsame
  obtain ⟨hpg, -, hstat, -⟩ := Dev.portView_eq_iff.mp (Prod.mk.inj hlast).1
  have hport : ∀ v : PortT, (e.setPort p v).orders p pos16 = e.orders p pos16 := fun _ => rfl
  refine ((e.setPort p { e.port p with readmitted := (e.port p).readmitted && !(e.port p).restarted }).pgStep_commands p now16 pos16).congr
    ?_ (Dev.flag_eq_of_pgStat_eq hstat F.PG_STAT_out_high rfl) (Dev.flag_eq_of_pgStat_eq hstat F.PG_STAT_out_low rfl) hpg
  rw [hport, horders]

/-! ### What the ports of a stage show at its update point -/

section
variable (d : Dev) (k : Fin 21) (n : Nat)

theorem Dev.beginDriving_keeps (s : Nat) : Keeps ⟨false, [F.TB_STG_STAT_running], [.tb]⟩ d (d.beginDriving s n) :=
  ((Dev.setStg_keeps d s _).within (by decide)).trans ((Dev.put_keeps _ F.TB_STG_STAT_running s true (by decide)).within (by decide))

theorem Dev.stg_pgStep (s p now16 pos16 : Nat) (first : Bool) : (d.pgStep p now16 pos16 first).stg s = d.stg s := by
  have hpresent : ∀ (e : Dev) (at16 : Nat) (hi lo : Bool), (e.present p at16 hi lo).stg s = e.stg s := fun e at16 hi lo => by
    rw [Dev.stg, Dev.stg, (e.present_keeps p at16 hi lo).parts .tb (by decide)]
  have hset : ∀ (e : Dev) (v : PgT), (e.setPg p v).stg s = e.stg s := fun _ _ => rfl
  unfold Dev.pgStep Dev.hEdge
  dsimp only
  generalize (if d.hCommand p pos16 then d.rd F.PG_DT_dt_rise p else d.rd F.PG_DT_dt_fall p) = dt
  repeat' split
  all_goals simp only [hpresent, hset]

theorem Dev.stg_flagSpans (s r pos16 : Nat) : (d.flagSpans s pos16).stg r = d.stg r := by
  rw [Dev.stg, Dev.stg, (d.flagSpans_keeps s pos16).parts .tb (by decide)]

theorem Dev.stg_beginDriving (s : Nat) : (d.beginDriving s n).stg s = { d.stg s with driving := true, firstBeat := n, droveAt := d.time } :=
  Dev.stg_setStg_self ..

theorem Dev.stg_stepPorts (s now16 pos16 : Nat) (transfer : Bool) : (d.stepPorts s n now16 pos16 transfer).stg s =
    if d.begins s transfer then { d.stg s with driving := true, firstBeat := n, droveAt := d.time } else d.stg s := by
  unfold Dev.stepPorts
  split
  · rw [← Dev.stg_beginDriving]
    exact Dev.each_reads_same (fun e : Dev => e.stg s) (f := Dev.firstStep now16 pos16) (fun e p _ => Dev.stg_pgStep _ s p now16 pos16 true) _
  · split
    · exact Dev.each_reads_same (fun e : Dev => e.stg s) (fun e p _ => Dev.stg_pgStep _ s p now16 pos16 false) _
    · rfl

/-- What a step of the ports changes. -/
def stepFoot : Foot := ⟨false, [F.TB_STG_STAT_running, F.PG_STAT_out_high, F.PG_STAT_out_low, F.PG_STAT_both_req], [.tb, .pp]⟩

theorem Dev.stepPorts_keeps (s now16 pos16 : Nat) (transfer : Bool) : Keeps stepFoot d (d.stepPorts s n now16 pos16 transfer) := by
  unfold Dev.stepPorts
  split
  · exact ((d.beginDriving_keeps n s).within (by decide)).trans
      ((Dev.each_keeps _ _ _ fun e p => Dev.firstStep_keeps now16 pos16 e p).within (by decide))
  · split
    · exact (Dev.each_keeps d _ _ fun e p => Dev.pgStep_keeps e p now16 pos16 false).within (by decide)
    · exact Keeps.refl _ _

variable {d} in
/-- A stage that begins to drive runs, and its ports take the commands of their compares. -/
theorem Dev.stepPorts_of_begin {now16 pos16 : Nat} {transfer : Bool} (h : d.begins k transfer = true) :
    let m := d.stepPorts k n now16 pos16 transfer
    (m.stg k).driving = true ∧ m.flag F.TB_STG_STAT_running k = true ∧ ∀ p ∈ stagePorts k, d.Commands m p now16 pos16 := by
  have hstg := d.stg_stepPorts n k now16 pos16 transfer
  rw [if_pos h] at hstg
  refine ⟨by rw [hstg], ?_⟩
  unfold Dev.stepPorts
  rw [if_pos h]
  have hk := d.beginDriving_keeps n k
  have hruns : (d.beginDriving k n).flag F.TB_STG_STAT_running k = true := Dev.flag_put _ F.TB_STG_STAT_running _ true (by decide) rfl
  generalize d.beginDriving k n = e at hk hruns ⊢
  have hsteps : Keeps ⟨false, [F.PG_STAT_out_high, F.PG_STAT_out_low, F.PG_STAT_both_req], [.tb, .pp]⟩ e (e.each (stagePorts k) (Dev.firstStep now16 pos16)) :=
    Dev.each_keeps _ _ _ fun e p => Dev.firstStep_keeps now16 pos16 e p
  refine ⟨(hsteps.flag F.TB_STG_STAT_running k (by decide)).trans hruns, fun p hp => ?_⟩
  exact (e.firstSteps_commands k now16 pos16 hp).congr (Dev.orders_of_keeps hk (by decide) (by decide) (by decide) p pos16).symm rfl rfl rfl

variable {d} in
theorem Dev.stepPorts_of_rest {now16 pos16 : Nat} {transfer : Bool} (h : d.begins k transfer = false) (hdriving : (d.stg k).driving = false) :
    d.stepPorts k n now16 pos16 transfer = d := by
  unfold Dev.stepPorts
  rw [h, if_neg Bool.false_ne_true, hdriving, if_neg Bool.false_ne_true]

end

/-! ### The device past its update point (R41, R53, R59) -/

/-- What is settled before an update point: its transfer and its plan. -/
def Dev.settled (d : Dev) (s : Nat) : Dev :=
  let d := if (d.stg s).decided then d else d.decideTransfer s
  if (d.stg s).planned then d else d.plan s

/-- The update point is counted. -/
def Dev.nextUpdate (d : Dev) (s : Nat) : Dev := d.wr64 F.TB_STG_UPD_LO F.TB_STG_UPD_HI s (d.upd s + 1)

/-- The shadows of a loop's stage count as unwritten from the update point on. -/
def Dev.cleared (d : Dev) (s : Nat) : Dev := if d.loopStage s then d.clearWritten s else d

/-- The device with the compares of update point n. -/
def Dev.withCompares (d : Dev) (s n : Nat) (transfer : Bool) : Dev := (if transfer then d.transferStage s n else d).cleared s

/-- An update point at which transfer and plan are settled. -/
def Dev.passPoint (d : Dev) (s : Nat) : Dev :=
  (((((d.nextUpdate s).withCompares s (d.upd s + 1) (d.stg s).transfer).drivePorts s (d.upd s + 1) (d.stg s).transfer).openSensing s
    (d.upd s + 1)).loopUpdate s (d.upd s + 1) (d.stg s).transfer)

theorem Dev.updatePoint_of_due {d : Dev} {s : Nat} (hon : d.flag F.TB_STG_CFG_enable s = true) (hdue : d.atUpdate s d.time = true) :
    d.updatePoint s = (d.settled s).passPoint s := by
  unfold Dev.updatePoint
  rw [hon, hdue]
  rfl

/-- What the count and the compares of an update point change. -/
def compareFoot : Foot :=
  ⟨false, [F.TB_STG_COMMIT_status, F.TB_STG_COMMIT_pending, F.TB_STG_UPD_LO, F.TB_STG_UPD_HI, F.PG_CMP_A_value, F.PG_CMP_B_value], [.tb]⟩

theorem Dev.nextUpdate_keeps (d : Dev) (s : Nat) : Keeps ⟨false, [F.TB_STG_UPD_LO, F.TB_STG_UPD_HI], []⟩ d (d.nextUpdate s) :=
  Dev.wr64_keeps d F.TB_STG_UPD_LO F.TB_STG_UPD_HI s _ (by decide) (by decide)

theorem Dev.nextUpdate_upd (d : Dev) {s : Nat} (h : d.upd s + 1 < 2 ^ 64) : (d.nextUpdate s).upd s = d.upd s + 1 :=
  (Dev.rd64_wr64 d F.TB_STG_UPD_LO F.TB_STG_UPD_HI s _ ⟨rfl, rfl⟩ ⟨rfl, rfl⟩ (by decide)).trans (Nat.mod_eq_of_lt h)

theorem Dev.stg_clearWritten (d : Dev) (s r : Nat) : (d.clearWritten s).stg r = d.stg r :=
  Dev.each_reads_same (fun e : Dev => e.stg r) (f := fun d p => d.setPg p { d.pg p with wroteA := false, wroteB := false }) (fun _ _ _ => rfl) d

theorem Dev.cleared_keeps (d : Dev) (s : Nat) : Keeps ⟨false, [], [.tb]⟩ d (d.cleared s) :=
  Keeps.ite (fun _ => d.clearWritten_keeps s) fun _ => Keeps.refl _ _

theorem Dev.stg_cleared (d : Dev) (s r : Nat) : (d.cleared s).stg r = d.stg r := by
  unfold Dev.cleared
  split
  · exact d.stg_clearWritten s r
  · rfl

theorem Dev.withCompares_keeps (d : Dev) (s n : Nat) (transfer : Bool) : Keeps compareFoot d (d.withCompares s n transfer) :=
  (Keeps.ite (fun _ => (d.transferStage_keeps s n).within (by decide)) fun _ => Keeps.refl _ _).trans ((Dev.cleared_keeps ..).within (by decide))

theorem Dev.stg_withCompares (d : Dev) (s n r : Nat) (transfer : Bool) : (d.withCompares s n transfer).stg r = d.stg r := by
  refine (Dev.stg_cleared ..).trans ?_
  split
  · rw [Dev.stg, Dev.stg, (d.transferStage_keeps s n).parts .tb (by decide)]
  · rfl

theorem Dev.compare_of_keeps {w : Foot} {d e : Dev} (hk : Keeps w d e) (ha : w.avoids F.PG_CMP_A_value = true) (hb : w.avoids F.PG_CMP_B_value = true)
    (p : Nat) (isB : Bool) : e.compare p isB = d.compare p isB := by
  rw [Dev.compare, Dev.compare, hk.rd F.PG_CMP_A_value p ha, hk.rd F.PG_CMP_B_value p hb]

theorem Dev.transferStage_after (d : Dev) (s n : Nat) :
    Keeps ⟨false, [F.TB_STG_COMMIT_status, F.TB_STG_COMMIT_pending], []⟩ (d.applyLocked s) (d.transferStage s n) :=
  Keeps.ite (fun _ => Keeps.refl _ _) fun _ => ((Dev.put_keeps _ F.TB_STG_COMMIT_pending s _ (by decide)).within (by decide)).trans
    ((Dev.wr_keeps _ F.TB_STG_COMMIT_status s _ (by decide)).within (by decide))

theorem Dev.withCompares_compare (d : Dev) (s n p : Nat) (isB : Bool) :
    (d.withCompares s n (d.stg s).transfer).compare p isB = (d.coming s).compare p isB := by
  refine (Dev.compare_of_keeps (Dev.cleared_keeps ..) (by decide) (by decide) p isB).trans ?_
  unfold Dev.coming
  split
  · exact Dev.compare_of_keeps (d.transferStage_after s n) (by decide) (by decide) p isB
  · rfl

/-- The device with the compares of its update point, counted. -/
def Dev.atPoint (d : Dev) (s : Nat) : Dev := (d.nextUpdate s).withCompares s (d.upd s + 1) (d.stg s).transfer

theorem Dev.atPoint_keeps (d : Dev) (s : Nat) : Keeps compareFoot d (d.atPoint s) :=
  ((d.nextUpdate_keeps s).within (by decide)).trans (Dev.withCompares_keeps ..)

theorem Dev.stg_atPoint (d : Dev) (s r : Nat) : (d.atPoint s).stg r = d.stg r := Dev.stg_withCompares ..

theorem Dev.upd_atPoint (d : Dev) {s : Nat} (h : d.upd s + 1 < 2 ^ 64) : (d.atPoint s).upd s = d.upd s + 1 := by
  have hk : Keeps ⟨false, [F.TB_STG_COMMIT_status, F.TB_STG_COMMIT_pending, F.PG_CMP_A_value, F.PG_CMP_B_value], [.tb]⟩ (d.nextUpdate s) (d.atPoint s) :=
    (Keeps.ite (fun _ => (Dev.transferStage_keeps _ s _).within (by decide)) fun _ => Keeps.refl _ _).trans ((Dev.cleared_keeps ..).within (by decide))
  exact (hk.rd64 F.TB_STG_UPD_LO F.TB_STG_UPD_HI s (by decide) (by decide)).trans (d.nextUpdate_upd h)

theorem Dev.compare_atPoint {d : Dev} {s p : Nat} (isB : Bool) (hp : p < 64) (hl : ∀ w ∈ (d.stg s).locked, FitsCompare w) :
    (d.atPoint s).compare p isB = d.comingCompare s p isB := by
  have hk := d.nextUpdate_keeps s
  have hsame : (d.nextUpdate s).comingCompare s p isB = d.comingCompare s p isB := by
    simp only [Dev.comingCompare, hk.rd F.PG_CMP_A_value p (by decide), hk.rd F.PG_CMP_B_value p (by decide), hk.rd F.PG_CFG_mode p (by decide),
      hk.toFrame.halfBeat (by decide), show (d.nextUpdate s).stg s = d.stg s from rfl]
  exact ((d.nextUpdate s).withCompares_compare s (d.upd s + 1) p isB).trans ((Dev.compare_coming (d := d.nextUpdate s) isB hp hl).trans hsame)

/-! ### The beat opens (R59, R84, R94) -/

/-- The planned instants become the present ones. -/
def Dev.beatOpened (d : Dev) (s : Nat) : Dev :=
  (d.showPlan s (d.stg s).nextA (d.stg s).nextB).setStg s
    { d.stg s with decided := false, planned := false, transfer := false, mark := false, locked := [], nowA := (d.stg s).nextA,
                   nowB := (d.stg s).nextB, beatAt := d.time, opened := (d.showPlan s (d.stg s).nextA (d.stg s).nextB).loopsOn }

/-- The samples of an instant of beat n. -/
def samplesOf (i : Inst) (isB : Bool) (t n : Nat) : List Samp := if i.placed then [{ isB := isB, inst := i, beatAt := t, beat := n }] else []

/-- The samples of the beat are due. -/
def Dev.samplesDue (d : Dev) (s n : Nat) (a b : Inst) : Dev :=
  d.setShunt s { d.shunt s with
    suspended := false, due := ((d.shunt s).due.filter fun x => x.beat + 1 == n) ++ samplesOf a false d.time n ++ samplesOf b true d.time n }

/-- The span is judged. -/
def Dev.spanJudged (d : Dev) (s : Nat) (both : Bool) : Dev := if d.rd F.SH_CFG_mode s = 1 then d.spanResult s both else d

/-- Sensing begins. -/
def Dev.sense (d : Dev) (s n : Nat) (a b : Inst) : Dev :=
  let d := (d.samplesDue s n a b).spanJudged s (a.placed && b.placed)
  let d := (d.unplacedRecord s false a).unplacedRecord s true b
  if heavyStage s then d.hkStart s n else d

theorem Dev.openSensing_eq (d : Dev) (s n : Nat) : d.openSensing s n = (d.beatOpened s).sense s n (d.stg s).nextA (d.stg s).nextB := by rfl

theorem Dev.beatOpened_keeps (d : Dev) (s : Nat) :
    Keeps ⟨false, [F.TB_STG_PLAN_A_instant, F.TB_STG_PLAN_A_placed, F.TB_STG_PLAN_B_instant, F.TB_STG_PLAN_B_placed], [.tb]⟩ d (d.beatOpened s) :=
  ((d.showPlan_keeps ..).within (by decide)).trans ((Dev.setStg_keeps ..).within (by decide))

theorem Dev.pg_beatOpened (d : Dev) (s p : Nat) : (d.beatOpened s).pg p = d.pg p := rfl

theorem Dev.driving_beatOpened (d : Dev) (s : Nat) : ((d.beatOpened s).stg s).driving = (d.stg s).driving := by
  rw [Dev.beatOpened, Dev.stg_setStg_self]

/-- The instant of a beat as TB_STG_PLAN shows it. -/
def Inst.shown (i : Inst) : Nat := if i.placed then i.at16 / 16 else 0

theorem Inst.shown_lt {i : Inst} (h : i.at16 < 2 ^ 24) : i.shown < 2 ^ 20 := by
  unfold Inst.shown
  split
  · omega
  · decide

theorem Dev.rd_setStg (d : Dev) (s : Nat) (v : StageT) (f : Fd) (i : Nat) : (d.setStg s v).rd f i = d.rd f i := rfl

theorem Dev.flag_setStg (d : Dev) (s : Nat) (v : StageT) (f : Fd) (i : Nat) : (d.setStg s v).flag f i = d.flag f i := rfl

theorem Dev.rd_beatOpened (d : Dev) (s : Nat) (f : Fd) (i : Nat) :
    (d.beatOpened s).rd f i = (d.showPlan s (d.stg s).nextA (d.stg s).nextB).rd f i := Dev.rd_setStg ..

theorem Dev.flag_beatOpened (d : Dev) (s : Nat) (f : Fd) (i : Nat) :
    (d.beatOpened s).flag f i = (d.showPlan s (d.stg s).nextA (d.stg s).nextB).flag f i := Dev.flag_setStg ..

/-- TB_STG_PLAN_A and TB_STG_PLAN_B of a stage, with a number that fits. -/
def Dev.showInstants (d : Dev) (s : Nat) (a b : Bool) (x y : Nat) : Dev :=
  (((d.wr F.TB_STG_PLAN_A_instant s x).put F.TB_STG_PLAN_A_placed s a).wr F.TB_STG_PLAN_B_instant s y).put F.TB_STG_PLAN_B_placed s b

theorem Dev.showPlan_eq (d : Dev) (s : Nat) (a b : Inst) : d.showPlan s a b = d.showInstants s a.placed b.placed a.shown b.shown := rfl

theorem Dev.showInstants_shows (d : Dev) (s : Nat) (a b : Bool) {x y : Nat} (hx : x < 2 ^ 20) (hy : y < 2 ^ 20) : let n := d.showInstants s a b x y
    n.flag F.TB_STG_PLAN_A_placed s = a ∧ n.flag F.TB_STG_PLAN_B_placed s = b ∧
      n.rd F.TB_STG_PLAN_A_instant s = x ∧ n.rd F.TB_STG_PLAN_B_instant s = y := by
  have hfirst := Dev.rd_wr_of_lt d F.TB_STG_PLAN_A_instant s (by decide) hx
  unfold Dev.showInstants
  dsimp only
  generalize d.wr F.TB_STG_PLAN_A_instant s x = e at hfirst ⊢
  have hsecond := Dev.flag_put e F.TB_STG_PLAN_A_placed s a (by decide) rfl
  have hkept := Dev.put_keeps e F.TB_STG_PLAN_A_placed s a (by decide)
  generalize e.put F.TB_STG_PLAN_A_placed s a = g at hsecond hkept ⊢
  have hthird := Dev.rd_wr_of_lt g F.TB_STG_PLAN_B_instant s (by decide) hy
  have hwrote := Dev.wr_keeps g F.TB_STG_PLAN_B_instant s y (by decide)
  generalize g.wr F.TB_STG_PLAN_B_instant s y = m at hthird hwrote ⊢
  have hlast := Dev.put_keeps m F.TB_STG_PLAN_B_placed s b (by decide)
  exact ⟨(hlast.flag F.TB_STG_PLAN_A_placed s (by decide)).trans ((hwrote.flag F.TB_STG_PLAN_A_placed s (by decide)).trans hsecond),
    Dev.flag_put m F.TB_STG_PLAN_B_placed s b (by decide) rfl,
    (hlast.rd F.TB_STG_PLAN_A_instant s (by decide)).trans ((hwrote.rd F.TB_STG_PLAN_A_instant s (by decide)).trans
      ((hkept.rd F.TB_STG_PLAN_A_instant s (by decide)).trans hfirst)),
    (hlast.rd F.TB_STG_PLAN_B_instant s (by decide)).trans hthird⟩

theorem Dev.beatOpened_plan {d : Dev} {s : Nat} (ha : (d.stg s).nextA.at16 < 2 ^ 24) (hb : (d.stg s).nextB.at16 < 2 ^ 24) : let n := d.beatOpened s
    n.flag F.TB_STG_PLAN_A_placed s = (d.stg s).nextA.placed ∧ n.flag F.TB_STG_PLAN_B_placed s = (d.stg s).nextB.placed ∧
      n.rd F.TB_STG_PLAN_A_instant s = (d.stg s).nextA.shown ∧ n.rd F.TB_STG_PLAN_B_instant s = (d.stg s).nextB.shown := by
  dsimp only
  rw [d.flag_beatOpened, d.flag_beatOpened, d.rd_beatOpened, d.rd_beatOpened, Dev.showPlan_eq]
  exact Dev.showInstants_shows d s _ _ (Inst.shown_lt ha) (Inst.shown_lt hb)

/-- What the sensing of a beat and its loops change. -/
def beatFoot : Foot :=
  ⟨false, [F.SH_RES_A, F.SH_RES_B, F.SH_INFO_A, F.SH_INFO_B, F.SH_STAMP_A_LO, F.SH_STAMP_A_HI, F.SH_STAMP_B_LO, F.SH_STAMP_B_HI,
    F.SH_STAT_short_run, F.SH_STAT_run_len, F.BE_ENG_STAT_state, F.BE_ENG_STAT_loop, F.BE_ENG_STAT_loops, F.BE_ENG_STAT_fenced_writes,
    F.BE_LP_SWAP_active, F.BE_LP_SWAP_pending, F.BE_LP_SWAP_status, F.BE_LP_STAT_state, F.BE_LP_STAT_consec, F.BE_LP_STAT_update,
    F.BE_LP_FLAGS_sat, F.BE_LP_FLAGS_swap_clamp, F.BE_LP_DONE_LO, F.BE_LP_DONE_HI, F.BE_POOL_STAT_fenced, F.BE_POOL_STAT_free,
    F.FLT_STAT_lost, F.FLT_LOST], [.sh, .be, .ch, .flt]⟩

theorem Dev.sense_keeps (d : Dev) (s n : Nat) (a b : Inst) : Keeps beatFoot d (d.sense s n a b) := by
  unfold Dev.sense
  dsimp only
  have hdue : Keeps beatFoot d (d.samplesDue s n a b) := (Dev.setShunt_keeps d s _).within (by decide)
  have hspan : ∀ e : Dev, Keeps beatFoot e (e.spanJudged s (a.placed && b.placed)) := fun e =>
    Keeps.ite (fun _ => (Dev.spanResult_keeps ..).within (by decide)) fun _ => Keeps.refl _ _
  have hrecords : ∀ e : Dev, Keeps beatFoot e ((e.unplacedRecord s false a).unplacedRecord s true b) := fun e =>
    ((Dev.unplacedRecord_keeps ..).within (by decide)).trans ((Dev.unplacedRecord_keeps ..).within (by decide))
  have hall := (hdue.trans (hspan _)).trans (hrecords _)
  exact hall.trans (Keeps.ite (fun _ => (Dev.hkStart_keeps ..).within (by decide)) fun _ => Keeps.refl _ _)

/-- A beat opens: for sensing, and for the loops. -/
def Dev.openPoint (d : Dev) (s n : Nat) (transfer : Bool) : Dev := (d.openSensing s n).loopUpdate s n transfer

theorem Dev.openPoint_after (d : Dev) (s n : Nat) (transfer : Bool) : Keeps beatFoot (d.beatOpened s) (d.openPoint s n transfer) := by
  rw [Dev.openPoint, Dev.openSensing_eq]
  exact (Dev.sense_keeps ..).trans ((Dev.loopUpdate_keeps ..).within (by decide))

theorem Dev.passPoint_eq (d : Dev) (s : Nat) : d.passPoint s =
    ((d.atPoint s).drivePorts s (d.upd s + 1) (d.stg s).transfer).openPoint s (d.upd s + 1) (d.stg s).transfer := rfl

/-- What opening a beat leaves. -/
theorem Dev.openPoint_leaves (d : Dev) (s n : Nat) (transfer : Bool) : let m := d.openPoint s n transfer
    Keeps ⟨false, [F.TB_STG_PLAN_A_instant, F.TB_STG_PLAN_A_placed, F.TB_STG_PLAN_B_instant, F.TB_STG_PLAN_B_placed] ++ beatFoot.fields,
      .tb :: beatFoot.parts⟩ d m ∧ (∀ p, m.pg p = d.pg p) ∧ (m.stg s).driving = (d.stg s).driving := by
  have hafter := d.openPoint_after s n transfer
  have htb : (d.openPoint s n transfer).tb = (d.beatOpened s).tb := hafter.parts .tb (by decide)
  refine ⟨((d.beatOpened_keeps s).within (by decide)).trans (hafter.within (by decide)), fun p => ?_, ?_⟩
  · rw [Dev.pg, htb]
    exact d.pg_beatOpened s p
  · rw [Dev.stg, htb]
    exact d.driving_beatOpened s

/-! ### Settling a transfer leaves the count (R41) -/

theorem Dev.upd_settled (d : Dev) (s : Nat) : (d.settled s).upd s = d.upd s := by
  have hdecide : ∀ e : Dev, (e.decideTransfer s).upd s = e.upd s := fun e =>
    (e.decideTransfer_keeps s).rd64 F.TB_STG_UPD_LO F.TB_STG_UPD_HI s (by decide) (by decide)
  have hplan : ∀ e : Dev, (e.plan s).upd s = e.upd s := fun e =>
    (e.plan_keeps s).rd64 F.TB_STG_UPD_LO F.TB_STG_UPD_HI s (by decide) (by decide)
  unfold Dev.settled
  dsimp only
  split
  · split
    · rfl
    · exact hplan d
  · split
    · exact hdecide d
    · exact (hplan _).trans (hdecide d)

theorem Dev.settled_of_done {d : Dev} {s : Nat} (hdecided : (d.stg s).decided = true) (hplanned : (d.stg s).planned = true) : d.settled s = d := by
  unfold Dev.settled
  rw [if_pos hdecided, if_pos hplanned]

end Sys2Proof.Machine
end

section
/-! The sampling planner: where the instants of the coming beat lie (R59, R86 to R90). -/

namespace Sys2Proof.Machine

/-! ### A plan is kept, and noted -/

section
variable (d : Dev) (s : Nat)

/-- The instants of the coming beat are planned. -/
def Dev.keepPlan (a b : Inst) : Dev := d.setStg s { d.stg s with planned := true, nextA := a, nextB := b }

theorem Dev.keepPlan_shows (a b : Inst) : let n := d.keepPlan s a b
    (n.stg s).planned = true ∧ (n.stg s).nextA = a ∧ (n.stg s).nextB = b ∧ ∀ f i, n.flag f i = d.flag f i := by
  dsimp only
  refine ⟨?_, ?_, ?_, fun f i => Dev.flag_setStg ..⟩
  all_goals rw [Dev.keepPlan, Dev.stg_setStg_self]

/-- An instant that no short window ended is noted where it was wanted and not placed (R87, R88, R90). -/
theorem Dev.noteInst_unplaced (wanted : Bool) (i : Inst) :
    (d.noteInst s wanted false i).flag F.SH_STAT_unplaced s = (d.flag F.SH_STAT_unplaced s || (wanted && !i.placed)) := by
  unfold Dev.noteInst
  rw [if_neg Bool.false_ne_true]
  cases hplaced : i.placed with
  | true =>
    rw [if_pos rfl, Bool.not_true, Bool.and_false, Bool.or_false]
    split
    · exact (Dev.put_keeps d F.SH_STAT_accepted s true (by decide)).flag F.SH_STAT_unplaced s (by decide)
    · rfl
  | false =>
    rw [if_neg Bool.false_ne_true, Bool.not_false, Bool.and_true]
    cases wanted with
    | true => rw [if_pos rfl, Bool.or_true]; exact Dev.flag_put d F.SH_STAT_unplaced s true (by decide) rfl
    | false => rw [if_neg Bool.false_ne_true, Bool.or_false]

theorem Dev.withinLatest_placed (i : Inst) :
    (d.withinLatest s i).placed = (i.placed && decide (i.at16 ≤ 16 * d.rd F.TB_STG_LIMIT_latest s)) := by
  unfold Dev.withinLatest
  split
  next h =>
    rw [Bool.and_eq_true, Nat.blt_eq] at h
    rw [decide_eq_false (by omega), Bool.and_false]
  next h =>
    cases hplaced : i.placed with
    | false => rfl
    | true =>
      rw [hplaced, Bool.true_and, Nat.blt_eq] at h
      rw [decide_eq_true (by omega), Bool.and_true]

/-- A planned instant keeps its place, its phase and its sign; one that comes too late is not accepted either. -/
theorem Dev.withinLatest_leaves (i : Inst) : let n := d.withinLatest s i
    n.at16 = i.at16 ∧ n.phase = i.phase ∧ n.neg = i.neg ∧ n.accepted = (i.accepted && (!i.placed || n.placed)) := by
  have hplaced := d.withinLatest_placed s i
  revert hplaced
  unfold Dev.withinLatest
  dsimp only
  split
  next h =>
    rw [Bool.and_eq_true] at h
    intro _
    exact ⟨rfl, rfl, rfl, by rw [h.1]; simp⟩
  next => exact fun _ => ⟨rfl, rfl, rfl, by cases i.placed <;> simp⟩

end

/-! ### FIXED and OFF (R86, R88) -/

section
variable {d : Dev} {s : Nat}

theorem Dev.plan_of_off (hmode : d.rd F.SH_CFG_mode s = 3) : d.plan s = d.keepPlan s {} {} := by
  unfold Dev.plan
  dsimp only
  rw [hmode]
  rfl

theorem Dev.plan_of_fixed (hmode : d.rd F.SH_CFG_mode s = 2) : d.plan s =
    (((d.noteInst s (d.fixedInst s false).placed false (d.withinLatest s (d.fixedInst s false))).noteInst s (d.fixedInst s true).placed false
      (d.withinLatest s (d.fixedInst s true))).keepPlan s (d.withinLatest s (d.fixedInst s false)) (d.withinLatest s (d.fixedInst s true))) := by
  unfold Dev.plan
  dsimp only
  rw [hmode]
  rfl

/-- An instant at a fixed offset, where it is enabled. -/
def fixedAt (on : Bool) (off : Nat) : Inst := if on then { placed := true, at16 := 16 * off } else {}

theorem Dev.fixedAt_within (d : Dev) (s : Nat) (on : Bool) (off : Nat) : let i := d.withinLatest s (fixedAt on off)
    (fixedAt on off).placed = on ∧ i.placed = (on && decide (off ≤ d.rd F.TB_STG_LIMIT_latest s)) ∧ (i.placed = true → i.at16 = 16 * off) := by
  have hplaced := d.withinLatest_placed s (fixedAt on off)
  obtain ⟨hat, -⟩ := d.withinLatest_leaves s (fixedAt on off)
  generalize d.withinLatest s (fixedAt on off) = i at hplaced hat ⊢
  cases on with
  | true =>
    have hscale : 16 * off ≤ 16 * d.rd F.TB_STG_LIMIT_latest s ↔ off ≤ d.rd F.TB_STG_LIMIT_latest s := by omega
    exact ⟨rfl, hplaced.trans (congrArg _ (decide_eq_decide.mpr hscale)), fun _ => hat⟩
  | false => exact ⟨rfl, hplaced, fun h => absurd (hplaced.symm.trans h) (by rw [fixedAt]; exact Bool.false_ne_true)⟩

/-- Where a FIXED instant lies. -/
theorem Dev.fixedInst_eq (d : Dev) (s : Nat) (isB : Bool) : d.fixedInst s isB =
    fixedAt (if isB then d.flag F.SH_FIX_B_enable s else d.flag F.SH_FIX_A_enable s) (if isB then d.rd F.SH_FIX_B_offset s else d.rd F.SH_FIX_A_offset s) := rfl

/-- FIXED instants that are wanted and come too late are noted. -/
theorem Dev.plan_fixed_unplaced (hmode : d.rd F.SH_CFG_mode s = 2) : (d.plan s).flag F.SH_STAT_unplaced s = (d.flag F.SH_STAT_unplaced s ||
    ((d.fixedInst s false).placed && !(d.withinLatest s (d.fixedInst s false)).placed) ||
    ((d.fixedInst s true).placed && !(d.withinLatest s (d.fixedInst s true)).placed)) := by
  rw [Dev.plan_of_fixed hmode, Dev.keepPlan, Dev.flag_setStg, Dev.noteInst_unplaced, Dev.noteInst_unplaced]

/-! ### SINGLE_SHUNT (R89, R90) -/

/-- Do the windows of the coming beat follow the rising edges? -/
def Dev.edgesUp (d : Dev) (s : Nat) : Bool := if d.halfBeat s then d.comingUp s else !d.flag F.SH_CFG_half s

/-- The edge of port k of the set, in sixteenths after the start of the half. -/
def Dev.shuntEdge (d : Dev) (s : Nat) (up : Bool) (k : Nat) : Nat :=
  if up then d.compare ((stagePorts s).headD 0 + k) (!up && !d.halfBeat s)
  else d.half16 s - d.compare ((stagePorts s).headD 0 + k) (!up && !d.halfBeat s)

/-- The dead time after it. -/
def Dev.edgeDead (d : Dev) (s : Nat) (up : Bool) (k : Nat) : Nat :=
  if up then d.rd F.PG_DT_dt_rise ((stagePorts s).headD 0 + k) else d.rd F.PG_DT_dt_fall ((stagePorts s).headD 0 + k)

/-- How long a window must be. -/
def Dev.windowLength (d : Dev) (s : Nat) : Nat := 16 * (d.rd F.SH_WIN_blank s + d.rd F.SH_WIN_settle s)

/-- What is added to an instant of the down half of a whole beat. -/
def Dev.halfBase (d : Dev) (s : Nat) (up : Bool) : Nat := if !up && !d.halfBeat s then 8 * d.period s else 0

theorem insertEdge_before {x y : Nat × Nat} (h : x.1 < y.1) (r : List (Nat × Nat)) : insertEdge x (y :: r) = x :: y :: r := if_pos h

theorem insertEdge_after {x y : Nat × Nat} (h : y.1 ≤ x.1) (r : List (Nat × Nat)) : insertEdge x (y :: r) = y :: insertEdge x r :=
  if_neg (Nat.not_lt.mpr h)

theorem sortEdges_three (a b c : Nat × Nat) : sortEdges [a, b, c] = insertEdge c (insertEdge b [a]) := rfl

/-- Three ports in an order of their own. -/
theorem threePorts : ∀ x y z : Fin 3, x ≠ y → y ≠ z → x ≠ z →
    (x, y, z) ∈ [(0, 1, 2), (0, 2, 1), (1, 0, 2), (1, 2, 0), (2, 0, 1), (2, 1, 0)] := by decide

/-- Edges in their order, ties by port. -/
theorem sortEdges_of_order (f : Nat → Nat) {x y z : Fin 3} (hxy : x ≠ y) (hyz : y ≠ z) (hxz : x ≠ z) (hfirst : f x < f y ∨ f x = f y ∧ x < y)
    (hsecond : f y < f z ∨ f y = f z ∧ y < z) :
    sortEdges [(f 0, 0), (f 1, 1), (f 2, 2)] = [(f x, x.val), (f y, y.val), (f z, z.val)] := by
  have hthree := threePorts x y z hxy hyz hxz
  rw [sortEdges_three]
  simp only [List.mem_cons, Prod.mk.injEq, List.not_mem_nil, or_false] at hthree
  rcases hthree with ⟨rfl, rfl, rfl⟩ | ⟨rfl, rfl, rfl⟩ | ⟨rfl, rfl, rfl⟩ | ⟨rfl, rfl, rfl⟩ | ⟨rfl, rfl, rfl⟩ | ⟨rfl, rfl, rfl⟩
  all_goals simp only [Fin.isValue, Fin.val_zero, Fin.val_one, Fin.val_two, Fin.lt_def] at hfirst hsecond ⊢
  · rw [insertEdge_after (by dsimp only; omega), insertEdge, insertEdge_after (by dsimp only; omega), insertEdge_after (by dsimp only; omega), insertEdge]
  · rw [insertEdge_after (by dsimp only; omega), insertEdge, insertEdge_after (by dsimp only; omega), insertEdge_before (by dsimp only; omega)]
  · rw [insertEdge_before (by dsimp only; omega), insertEdge_after (by dsimp only; omega), insertEdge_after (by dsimp only; omega), insertEdge]
  · rw [insertEdge_before (by dsimp only; omega), insertEdge_after (by dsimp only; omega), insertEdge_before (by dsimp only; omega)]
  · rw [insertEdge_after (by dsimp only; omega), insertEdge, insertEdge_before (by dsimp only; omega)]
  · rw [insertEdge_before (by dsimp only; omega), insertEdge_before (by dsimp only; omega)]

theorem Dev.singleShunt_of_order {x y z : Nat} (h : sortEdges [(d.shuntEdge s (d.edgesUp s) 0, 0), (d.shuntEdge s (d.edgesUp s) 1, 1), (d.shuntEdge s (d.edgesUp s) 2, 2)] =
      [(d.shuntEdge s (d.edgesUp s) x, x), (d.shuntEdge s (d.edgesUp s) y, y), (d.shuntEdge s (d.edgesUp s) z, z)]) : let up := d.edgesUp s
    d.singleShunt s =
      (planWindow (d.shuntEdge s up x, x) (d.shuntEdge s up y) (d.edgeDead s up x) (d.windowLength s) (16 * d.rd F.SH_WIN_accept s) (d.halfBase s up) x (!up),
        planWindow (d.shuntEdge s up y, y) (d.shuntEdge s up z) (d.edgeDead s up y) (d.windowLength s) (16 * d.rd F.SH_WIN_accept s) (d.halfBase s up) z up) := by
  have hedge : ∀ up k, (if up then (if !d.halfBeat s && !up then d.rd F.PG_CMP_B_value ((stagePorts s).headD 0 + k)
        else d.rd F.PG_CMP_A_value ((stagePorts s).headD 0 + k))
      else d.half16 s - (if !d.halfBeat s && !up then d.rd F.PG_CMP_B_value ((stagePorts s).headD 0 + k)
        else d.rd F.PG_CMP_A_value ((stagePorts s).headD 0 + k))) = d.shuntEdge s up k := fun up k => by
    rw [Dev.shuntEdge, Bool.and_comm]
    rfl
  have hbase : ∀ up, (if !d.halfBeat s && !up then d.half16 s else 0) = d.halfBase s up := fun up => by
    rw [Dev.halfBase, Bool.and_comm]
    rfl
  unfold Dev.singleShunt
  dsimp only
  change (match sortEdges [(_, 0), (_, 1), (_, 2)] with
    | [e1, e2, e3] => (planWindow e1 e2.1 (d.edgeDead s (d.edgesUp s) e1.2) (d.windowLength s) (16 * d.rd F.SH_WIN_accept s) _ e1.2 (!d.edgesUp s),
        planWindow e2 e3.1 (d.edgeDead s (d.edgesUp s) e2.2) (d.windowLength s) (16 * d.rd F.SH_WIN_accept s) _ e3.2 (d.edgesUp s))
    | _ => (({}, true), ({}, true))) = _
  have hup : (if d.halfBeat s then d.comingUp s else !d.flag F.SH_CFG_half s) = d.edgesUp s := rfl
  rw [hup, hedge, hedge, hedge, hbase, h]

/-- An instant as R90 places it in the window from start to stop: at its length, or, short by what is accepted, at its end, and no later than
`latest`. -/
def Inst.Rightly (i : Inst) (w accept latest base start stop phase : Nat) (neg : Bool) : Prop :=
  (start + w ≤ stop → i.placed = decide (start + w + base ≤ latest) ∧ (i.placed = true → i.at16 = start + w + base) ∧ i.accepted = false) ∧
  (stop < start + w → start + w ≤ stop + accept → i.placed = decide (stop + base ≤ latest) ∧ (i.placed = true → i.at16 = stop + base) ∧
    i.accepted = i.placed) ∧
  (stop + accept < start + w → i.placed = false) ∧ i.phase = phase ∧ i.neg = neg

/-- The planner places an instant as R90 says. -/
theorem Dev.planWindow_rightly (d : Dev) (s t j stop dead w accept base phase : Nat) (neg : Bool) :
    (d.withinLatest s (planWindow (t, j) stop dead w accept base phase neg).1).Rightly w accept (16 * d.rd F.TB_STG_LIMIT_latest s) base (t + dead) stop
      phase neg := by
  have hplaced := d.withinLatest_placed s (planWindow (t, j) stop dead w accept base phase neg).1
  obtain ⟨hat, hphase, hneg, haccepted⟩ := d.withinLatest_leaves s (planWindow (t, j) stop dead w accept base phase neg).1
  generalize d.withinLatest s (planWindow (t, j) stop dead w accept base phase neg).1 = i at hplaced hat hphase hneg haccepted ⊢
  unfold planWindow at hplaced hat hphase hneg haccepted
  dsimp only at hplaced hat hphase hneg haccepted
  by_cases hlong : t + dead + w ≤ stop
  · rw [if_pos hlong] at hplaced hat hphase hneg haccepted
    exact ⟨fun _ => ⟨hplaced, fun _ => hat, haccepted⟩, fun h => by omega, fun h => by omega, hphase, hneg⟩
  · rw [if_neg hlong] at hplaced hat hphase hneg haccepted
    by_cases hshort : t + dead + w ≤ stop + accept
    · rw [if_pos hshort] at hplaced hat hphase hneg haccepted
      exact ⟨fun h => by omega, fun _ _ => ⟨hplaced, fun _ => hat, haccepted⟩, fun h => by omega, hphase, hneg⟩
    · rw [if_neg hshort] at hplaced hphase hneg
      exact ⟨fun h => by omega, fun _ h => by omega, fun _ => hplaced, hphase, hneg⟩

/-- What the planner reads of the device besides the compares. -/
theorem Dev.coming_reads (d : Dev) (s : Nat) : let v := d.coming s
    v.edgesUp s = d.edgesUp s ∧ (∀ up k, v.edgeDead s up k = d.edgeDead s up k) ∧ v.windowLength s = d.windowLength s ∧
      v.rd F.SH_WIN_accept s = d.rd F.SH_WIN_accept s ∧ (∀ up, v.halfBase s up = d.halfBase s up) ∧ v.half16 s = d.half16 s ∧
      v.halfBeat s = d.halfBeat s := by
  have hk := d.coming_keeps s
  have hcarrier := fun τ => hk.toFrame.carrier (by decide) s τ
  have hhalf := hk.toFrame.halfBeat (by decide) s
  have hperiod := hk.toFrame.period (by decide) s
  have htime := hk.time
  dsimp only
  generalize d.coming s = v at hk hcarrier hhalf hperiod htime ⊢
  refine ⟨?_, fun up k => ?_, ?_, hk.rd F.SH_WIN_accept s (by decide), fun up => ?_, ?_, hhalf⟩
  · simp only [Dev.edgesUp, Dev.comingUp, hhalf, hcarrier, hperiod, htime, hk.flag F.SH_CFG_half s (by decide)]
  · simp only [Dev.edgeDead, hk.rd F.PG_DT_dt_rise _ (by decide), hk.rd F.PG_DT_dt_fall _ (by decide)]
  · simp only [Dev.windowLength, hk.rd F.SH_WIN_blank s (by decide), hk.rd F.SH_WIN_settle s (by decide)]
  · simp only [Dev.halfBase, hhalf, hperiod]
  · simp only [Dev.half16, hperiod]

/-- The edge of a port under the coming compares. -/
def Dev.comingEdge (d : Dev) (s k : Nat) : Nat :=
  let up := d.edgesUp s
  let c := d.comingCompare s ((stagePorts s).headD 0 + k) (!up && !d.halfBeat s)
  if up then c else 8 * d.period s - c

theorem shuntPort_lt (k : Fin 21) (x : Fin 3) : (stagePorts k).headD 0 + x.val < 64 := by revert k x; decide

theorem Dev.shuntEdge_coming {d : Dev} {k : Fin 21} (hl : ∀ w ∈ (d.stg k).locked, FitsCompare w) (x : Fin 3) :
    (d.coming k).shuntEdge k ((d.coming k).edgesUp k) x = d.comingEdge k x := by
  obtain ⟨hup, -, -, -, -, hH, hhalf⟩ := d.coming_reads k
  rw [Dev.shuntEdge, hup, hhalf, hH, Dev.compare_coming _ (shuntPort_lt k x) hl]
  rfl

/-- The two SINGLE_SHUNT instants, with whether each window was short. -/
def Dev.windows (d : Dev) (s x y z : Nat) : (Inst × Bool) × (Inst × Bool) :=
  (planWindow (d.comingEdge s x, x) (d.comingEdge s y) (d.edgeDead s (d.edgesUp s) x) (d.windowLength s) (16 * d.rd F.SH_WIN_accept s)
      (d.halfBase s (d.edgesUp s)) x (!d.edgesUp s),
    planWindow (d.comingEdge s y, y) (d.comingEdge s z) (d.edgeDead s (d.edgesUp s) y) (d.windowLength s) (16 * d.rd F.SH_WIN_accept s)
      (d.halfBase s (d.edgesUp s)) z (d.edgesUp s))

theorem Dev.singleShunt_coming {d : Dev} {k : Fin 21} (hl : ∀ w ∈ (d.stg k).locked, FitsCompare w) {x y z : Fin 3} (hxy : x ≠ y) (hyz : y ≠ z)
    (hxz : x ≠ z) (hfirst : d.comingEdge k x < d.comingEdge k y ∨ d.comingEdge k x = d.comingEdge k y ∧ x < y)
    (hsecond : d.comingEdge k y < d.comingEdge k z ∨ d.comingEdge k y = d.comingEdge k z ∧ y < z) :
    (d.coming k).singleShunt k = d.windows k x y z := by
  have hedge := Dev.shuntEdge_coming hl
  obtain ⟨hup, hdead, hlength, haccept, hbase, -, -⟩ := d.coming_reads k
  have hsort := sortEdges_of_order (fun j => (d.coming k).shuntEdge k ((d.coming k).edgesUp k) j) hxy hyz hxz
    (by rw [hedge, hedge]; exact hfirst) (by rw [hedge, hedge]; exact hsecond)
  rw [Dev.singleShunt_of_order hsort, hedge, hedge, hedge, hup, hdead, hdead, hlength, haccept, hbase]
  rfl

/-- An instant that is not placed. -/
def Inst.dropped (i : Inst) : Inst := { i with placed := false, accepted := false }

/-- What the planner does with the two SINGLE_SHUNT instants. -/
def Dev.planSingle (d : Dev) (s : Nat) (r : (Inst × Bool) × (Inst × Bool)) : Dev :=
  if (d.stg s).maySample then
    ((d.noteInst s true r.1.2 (d.withinLatest s r.1.1)).noteInst s true r.2.2 (d.withinLatest s r.2.1)).keepPlan s (d.withinLatest s r.1.1)
      (d.withinLatest s r.2.1)
  else ((d.noteInst s true false r.1.1.dropped).noteInst s true false r.2.1.dropped).keepPlan s r.1.1.dropped r.2.1.dropped

theorem Dev.plan_of_single (hmode : d.rd F.SH_CFG_mode s = 1) : d.plan s = d.planSingle s ((d.coming s).singleShunt s) := if_pos hmode

/-- Instants are planned as R90 places them. -/
theorem Dev.planSingle_rightly (hmay : (d.stg s).maySample = true) (x y z : Nat) :
    let n := d.planSingle s (d.windows s x y z); let up := d.edgesUp s
    (n.stg s).planned = true ∧
      (n.stg s).nextA.Rightly (d.windowLength s) (16 * d.rd F.SH_WIN_accept s) (16 * d.rd F.TB_STG_LIMIT_latest s) (d.halfBase s up)
        (d.comingEdge s x + d.edgeDead s up x) (d.comingEdge s y) x (!up) ∧
      (n.stg s).nextB.Rightly (d.windowLength s) (16 * d.rd F.SH_WIN_accept s) (16 * d.rd F.TB_STG_LIMIT_latest s) (d.halfBase s up)
        (d.comingEdge s y + d.edgeDead s up y) (d.comingEdge s z) z up := by
  unfold Dev.planSingle
  dsimp only
  rw [if_pos hmay]
  generalize hnoted : (d.noteInst s true (d.windows s x y z).1.2 (d.withinLatest s (d.windows s x y z).1.1)).noteInst s true (d.windows s x y z).2.2
    (d.withinLatest s (d.windows s x y z).2.1) = e
  obtain ⟨hplanned, ha, hb, -⟩ := e.keepPlan_shows s (d.withinLatest s (d.windows s x y z).1.1) (d.withinLatest s (d.windows s x y z).2.1)
  rw [ha, hb]
  exact ⟨hplanned, d.planWindow_rightly .., d.planWindow_rightly ..⟩

/-- Without the conditions of R87 no instant is placed, and that is noted. -/
theorem Dev.planSingle_barred (hmay : (d.stg s).maySample = false) (r : (Inst × Bool) × (Inst × Bool)) : let n := d.planSingle s r
    (n.stg s).planned = true ∧ (n.stg s).nextA.placed = false ∧ (n.stg s).nextB.placed = false ∧ n.flag F.SH_STAT_unplaced s = true := by
  unfold Dev.planSingle
  dsimp only
  rw [hmay, if_neg Bool.false_ne_true]
  have hnoted : ((d.noteInst s true false r.1.1.dropped).noteInst s true false r.2.1.dropped).flag F.SH_STAT_unplaced s = true := by
    rw [Dev.noteInst_unplaced]
    exact Bool.or_true _
  generalize (d.noteInst s true false r.1.1.dropped).noteInst s true false r.2.1.dropped = e at hnoted
  obtain ⟨hplanned, ha, hb, hflag⟩ := e.keepPlan_shows s r.1.1.dropped r.2.1.dropped
  exact ⟨hplanned, by rw [ha]; rfl, by rw [hb]; rfl, (hflag ..).trans hnoted⟩

end

end Sys2Proof.Machine
end

section
/-! The deadline instant of an update point (R51, R52, R57, R173). -/

namespace Sys2Proof.Machine

/-! ### A stage that does not transfer -/

/-- At its next update point stage k does not transfer. -/
def Dev.NoTransfer (k : Nat) (d : Dev) : Prop := (d.stg k).transfer = false

section
variable {d e : Dev} {k : Nat}

theorem Dev.NoTransfer.keeps {w : Foot} (h : d.NoTransfer k) (hk : Keeps w d e) (hp : Part.tb ∉ w.parts) : e.NoTransfer k := by
  rw [Dev.NoTransfer, Dev.stg, hk.parts .tb hp]
  exact h

theorem Dev.stg_setStg (d : Dev) (s k : Nat) (v : StageT) : (d.setStg s v).stg k = if k = s then v else d.stg k := Tbl.get_set ..

theorem Dev.NoTransfer.setStg (h : d.NoTransfer k) (s : Nat) {v : StageT} (hv : v.transfer = (d.stg s).transfer ∨ v.transfer = false) :
    (d.setStg s v).NoTransfer k := by
  rw [Dev.NoTransfer, Dev.stg_setStg]
  split
  next hs =>
    subst hs
    rcases hv with hv | hv
    · exact hv.trans h
    · exact hv
  next => exact h

theorem Dev.NoTransfer.endRun (h : d.NoTransfer k) (s : Nat) : (d.endRun s).NoTransfer k := by
  unfold Dev.endRun
  have hstop : (if d.flag F.TB_STG_RUN_run s then (d.setStg s { d.stg s with stopAt := d.time }).absStop s else d).NoTransfer k := by
    split
    · exact (h.setStg s (v := { d.stg s with stopAt := d.time }) (.inl rfl)).keeps (Dev.absStop_keeps ..) (by decide)
    · exact h
  dsimp only
  generalize (if d.flag F.TB_STG_RUN_run s then (d.setStg s { d.stg s with stopAt := d.time }).absStop s else d) = g at hstop
  have hidle := hstop.setStg s (v := { g.stg s with driving := false }) (.inl rfl)
  exact (hidle.keeps (Dev.put_keeps _ F.TB_STG_RUN_run s false (by decide)) (by decide)).keeps
    (Dev.put_keeps _ F.TB_STG_STAT_running s false (by decide)) (by decide)

theorem Dev.NoTransfer.setPg (h : d.NoTransfer k) (p : Nat) (v : PgT) : (d.setPg p v).NoTransfer k := h

theorem Dev.NoTransfer.actionAtPort (h : d.NoTransfer k) (p : Nat) (low : Bool) : (d.actionAtPort p low).NoTransfer k := by
  have hpg := h.setPg p { d.pg p with wait := none }
  unfold Dev.actionAtPort
  dsimp only
  generalize d.setPg p { d.pg p with wait := none } = e at hpg
  have hputs := ((hpg.keeps (Dev.put_keeps e F.PG_STAT_out_high p false (by decide)) (by decide)).keeps
    (Dev.put_keeps _ F.PG_STAT_out_low p low (by decide)) (by decide)).keeps (Dev.put_keeps _ F.PG_STAT_trip_hold p true (by decide)) (by decide)
  generalize ((e.put F.PG_STAT_out_high p false).put F.PG_STAT_out_low p low).put F.PG_STAT_trip_hold p true = g at hputs
  exact (((hputs.keeps (Dev.setPort_keeps ..) (by decide)).keeps (Dev.setDrv_keeps ..) (by decide)).keeps (Dev.setDrv_keeps ..) (by decide)).keeps
    (Dev.drivePort_keeps ..) (by decide)

theorem Dev.NoTransfer.actionAtStage (h : d.NoTransfer k) (s : Nat) (low : Bool) : (d.actionAtStage s low).NoTransfer k :=
  Dev.each_preserves (P := Dev.NoTransfer k) (fun _ p _ he => Dev.NoTransfer.actionAtPort he p low) d h

theorem Dev.NoTransfer.recordTrip (h : d.NoTransfer k) (s : Nat) (low : Bool) (causeKind causeIndex : Nat) :
    (d.recordTrip s low causeKind causeIndex).NoTransfer k := by
  have hrun := h.endRun s
  unfold Dev.recordTrip
  generalize d.endRun s = e at hrun
  have hmarks : (e.tripMarks s low causeKind causeIndex).NoTransfer k := by
    unfold Dev.tripMarks
    exact ((((hrun.keeps (Dev.put_keeps e F.WM_SW_STAT_held s true (by decide)) (by decide)).keeps
      (Dev.wr_keeps _ F.WM_SW_STAT_action s _ (by decide)) (by decide)).keeps (Dev.wr_keeps _ F.WM_SW_STAT_cause_kind s _ (by decide)) (by decide)).keeps
      (Dev.wr_keeps _ F.WM_SW_STAT_cause_index s _ (by decide)) (by decide)).keeps (Dev.bump_keeps _ F.WM_SW_STAT_count s (by decide)) (by decide)
  have htime := hmarks.keeps (Dev.wr64_keeps _ F.WM_SW_TIME_LO F.WM_SW_TIME_HI s (e.tripMarks s low causeKind causeIndex).time (by decide) (by decide))
    (by decide)
  exact ((htime.keeps (Dev.wr_keeps _ F.WM_SW_HELD 0 _ (by decide)) (by decide)).keeps (Dev.put_keeps _ F.TB_STG_STAT_tripped s true (by decide))
    (by decide)).keeps (Dev.setStop_keeps ..) (by decide)

theorem Dev.NoTransfer.tripStage (h : d.NoTransfer k) (s : Nat) (low : Bool) (causeKind causeIndex : Nat) :
    (d.tripStage s low causeKind causeIndex).NoTransfer k := by
  obtain ⟨r, hr⟩ := d.tripStage_eq s low causeKind causeIndex
  rw [hr]
  exact ((h.recordTrip s low causeKind causeIndex).actionAtStage s false).keeps (Dev.post_keeps ..) (by decide)

theorem Dev.NoTransfer.arbitrate (h : d.NoTransfer k) (s : Nat) : (d.arbitrate s).NoTransfer k := by
  have hoff : (d.toAllOff s).NoTransfer k := by
    unfold Dev.toAllOff
    exact ((h.keeps (Dev.wr_keeps d F.WM_SW_STAT_action s 1 (by decide)) (by decide)).keeps (Dev.setStop_keeps ..) (by decide)).actionAtStage s false
  unfold Dev.arbitrate
  dsimp only
  split
  · split
    · exact hoff
    · exact h
  · split
    · exact h
    · exact h.tripStage ..

theorem Dev.NoTransfer.discardShadows (h : d.NoTransfer k) (s : Nat) : (d.discardShadows s).NoTransfer k := by
  have hclear : (d.clearWritten s).NoTransfer k := by rw [Dev.NoTransfer, Dev.stg_clearWritten]; exact h
  exact hclear.setStg s (v := { d.stg s with mark := false, transfer := false, locked := [] }) (.inr rfl)

theorem Dev.NoTransfer.fenceStage (h : d.NoTransfer k) (s cause sub : Nat) : (d.fenceStage s cause sub).NoTransfer k := by
  unfold Dev.fenceStage
  split
  · exact h
  · have hmarked := ((h.keeps (Dev.markFenced_keeps d Kind.stage s true) (by decide)).keeps
      (Dev.put_keeps _ F.TB_STG_STAT_fenced s true (by decide)) (by decide)).keeps (Dev.postFenced_keeps _ Kind.stage s Cls.s cause sub) (by decide)
    exact Dev.each_preserves (P := Dev.NoTransfer k) (fun _ _ _ he => Dev.NoTransfer.keeps he (Dev.fenceLoop_keeps ..) (by decide)) _
      (((hmarked.endRun s).discardShadows s).arbitrate s)

/-- A swap that waited for the missed run is applied. -/
def Dev.missSwapped (d : Dev) (l beat : Nat) : Dev :=
  if (d.loop l).swapDue && (d.loop l).beat == beat && d.flag F.BE_LP_SWAP_pending l then d.applySwap l else d

/-- A loop's record without its missed run. -/
def LoopT.without (v : LoopT) (beat : Nat) : LoopT :=
  let v := { v with owed := v.owed.erase beat, moved := v.moved.filter fun x => x.1 != beat }
  let v := match v.finished with | some f => if f.beat = beat then { v with finished := none } else v | none => v
  if v.beat = beat then { v with waiting := false, ready := none } else v

/-- The missed run stops on its engine. -/
def Dev.missAborts (d : Dev) (l beat : Nat) : Dev := d.each (List.range 12) fun d e =>
  match (d.eng e).run with
  | some r => if r.loop = l ∧ r.beat = beat ∧ d.fenceHolds e = false then d.setEng e { d.eng e with run := some { r with abort := true } } else d
  | none => d

/-- The miss is counted and reported. -/
def Dev.missCounted (d : Dev) (l beat detail : Nat) : Dev :=
  let d := (d.put F.BE_LP_FLAGS_deadline l true).bump F.BE_LP_MISS_misses l
  let d := (d.bump F.BE_LP_STAT_consec l).missSlack l beat
  d.report Kind.loop l Cls.report Code.DEADLINE (detail % 2 ^ 32)

/-- At its limit of misses a loop's stages are fenced. -/
def Dev.missFences (d : Dev) (l : Nat) : Dev :=
  if d.rd F.BE_LP_CFG_miss_limit l ≤ d.rd F.BE_LP_STAT_consec l then d.each (d.loopStages l) fun d s => d.fenceStage s Code.DEADLINE 0 else d

theorem Dev.miss_eq (d : Dev) (l beat detail : Nat) : d.miss l beat detail =
    ((((d.missSwapped l beat).onLoop l fun v => v.without beat).missAborts l beat).missCounted l beat detail).missFences l := rfl

theorem Dev.missAborts_keeps (d : Dev) (l beat : Nat) : Keeps ⟨false, [], [.be]⟩ d (d.missAborts l beat) :=
  Dev.each_keeps d _ _ fun e j => by
    split
    · exact Keeps.ite (fun _ => Dev.setEng_keeps ..) fun _ => Keeps.refl _ _
    · exact Keeps.refl _ _

theorem Dev.NoTransfer.missCounted (h : d.NoTransfer k) (l beat detail : Nat) : (d.missCounted l beat detail).NoTransfer k :=
  ((((h.keeps (Dev.put_keeps d F.BE_LP_FLAGS_deadline l true (by decide)) (by decide)).keeps (Dev.bump_keeps _ F.BE_LP_MISS_misses l (by decide))
    (by decide)).keeps (Dev.bump_keeps _ F.BE_LP_STAT_consec l (by decide)) (by decide)).keeps (Dev.missSlack_keeps ..) (by decide)).keeps
    (Dev.report_keeps ..) (by decide)

theorem Dev.NoTransfer.miss (h : d.NoTransfer k) (l beat detail : Nat) : (d.miss l beat detail).NoTransfer k := by
  rw [Dev.miss_eq]
  have hswap : (d.missSwapped l beat).NoTransfer k := by
    unfold Dev.missSwapped
    split
    · exact h.keeps (Dev.applySwap_keeps ..) (by decide)
    · exact h
  have hcount := ((hswap.keeps (Dev.onLoop_keeps _ l fun v => v.without beat) (by decide)).keeps (Dev.missAborts_keeps _ l beat) (by decide)).missCounted
    l beat detail
  generalize (((d.missSwapped l beat).onLoop l fun v => v.without beat).missAborts l beat).missCounted l beat detail = e at hcount
  unfold Dev.missFences
  split
  · exact Dev.each_preserves (P := Dev.NoTransfer k) (fun b s _ hb => Dev.NoTransfer.fenceStage hb s Code.DEADLINE 0) e hcount
  · exact hcount

theorem Dev.NoTransfer.loopDeadline (h : d.NoTransfer k) (s m : Nat) (transfer : Bool) : (d.loopDeadline s m transfer).NoTransfer k := by
  unfold Dev.loopDeadline
  have hruns : (if transfer then d else d.each d.loops fun d l =>
      if !d.isAux l && (d.loopStages l).contains s && (d.loop l).owed.contains (m - 1) then d.miss l (m - 1) m else d).NoTransfer k := by
    split
    · exact h
    · refine Dev.each_preserves (P := Dev.NoTransfer k) (fun e l _ he => ?_) d h
      split
      · exact Dev.NoTransfer.miss he ..
      · exact he
  dsimp only
  generalize (if transfer then d else d.each d.loops fun d l =>
      if !d.isAux l && (d.loopStages l).contains s && (d.loop l).owed.contains (m - 1) then d.miss l (m - 1) m else d) = g at hruns
  refine Dev.NoTransfer.keeps ?_ (Dev.dispatchAll_keeps ..) (by decide)
  refine Dev.each_preserves (P := Dev.NoTransfer k) (fun e l _ he => ?_) g hruns
  split
  · exact Dev.each_preserves (P := Dev.NoTransfer k) (fun b j _ hb => Dev.NoTransfer.miss hb ..) e he
  · exact he

end

/-! ### The transfer is decided (R51, R52) -/

/-- The decision of stage s: with a transfer the written shadows are locked. -/
def Dev.lockTransfer (d : Dev) (s : Nat) (ok : Bool) : Dev :=
  d.setStg s { d.stg s with decided := true, transfer := ok, locked := if ok then d.writtenShadows s else [], maySample := d.maySample s }

/-- Is there a commit for the next update point of the stage? -/
def Dev.committed (d : Dev) (s : Nat) : Bool :=
  if d.loopStage s then (d.stg s).mark else d.flag F.TB_STG_COMMIT_pending s && d.rd F.TB_STG_COMMIT_update s == (d.upd s + 1) % 65536

/-- What follows the decision for update point n. -/
def Dev.afterLock (d : Dev) (s n : Nat) (ok fenced opened : Bool) : Dev :=
  let d := if ok then d.clearWritten s else d
  let missed := d.loopStage s && !ok && !fenced && opened
  let d := if missed then d.put F.TB_STG_STAT_deadline s true else d
  let d := if fenced then d.put F.TB_STG_COMMIT_pending s false else d
  d.loopDeadline s n (!missed)

section
variable {d : Dev} {s : Nat}

theorem Dev.decideTransfer_eq (d : Dev) (s : Nat) : d.decideTransfer s = (d.lockTransfer s (d.committed s && !d.fenced Kind.stage s)).afterLock s
    (d.upd s + 1) (d.committed s && !d.fenced Kind.stage s) (d.fenced Kind.stage s) (d.stg s).opened := rfl

theorem Dev.afterLock_of_ok (d : Dev) (s n : Nat) (opened : Bool) : d.afterLock s n true false opened = (d.clearWritten s).loopDeadline s n true := by
  simp only [Dev.afterLock, Bool.not_true, Bool.not_false, Bool.and_true, Bool.and_false, Bool.false_and, Bool.false_eq_true, if_true, if_false]

theorem Dev.afterLock_of_miss {d : Dev} (hloop : d.loopStage s = true) (n : Nat) :
    d.afterLock s n false false true = (d.put F.TB_STG_STAT_deadline s true).loopDeadline s n false := by
  simp only [Dev.afterLock, hloop, Bool.not_true, Bool.not_false, Bool.and_true, Bool.false_eq_true, if_true, if_false]

theorem Dev.decideTransfer_of_commit (hcommit : d.committed s = true) (hfree : d.fenced Kind.stage s = false) :
    d.decideTransfer s = ((d.lockTransfer s true).clearWritten s).loopDeadline s (d.upd s + 1) true := by
  have hok : (d.committed s && !d.fenced Kind.stage s) = true := by rw [hcommit, hfree]; rfl
  rw [Dev.decideTransfer_eq, hok, hfree, Dev.afterLock_of_ok]

/-- A loop's stage without its commit misses its update point. -/
theorem Dev.decideTransfer_of_miss (hloop : d.loopStage s = true) (hmark : (d.stg s).mark = false) (hfree : d.fenced Kind.stage s = false)
    (hopened : (d.stg s).opened = true) : d.decideTransfer s =
      ((d.lockTransfer s false).put F.TB_STG_STAT_deadline s true).loopDeadline s (d.upd s + 1) false := by
  have hok : (d.committed s && !d.fenced Kind.stage s) = false := by rw [Dev.committed, hloop, if_pos rfl, hmark, Bool.false_and]
  have hstays : (d.lockTransfer s false).loopStage s = true := hloop
  rw [Dev.decideTransfer_eq, hok, hfree, hopened, Dev.afterLock_of_miss hstays]

theorem Dev.decideTransfer_misses (k : Nat) (hloop : d.loopStage k = true) (hmark : (d.stg k).mark = false) (hfree : d.fenced Kind.stage k = false)
    (hopened : (d.stg k).opened = true) : (d.decideTransfer k).flag F.TB_STG_STAT_deadline k = true ∧ ((d.decideTransfer k).stg k).transfer = false := by
  rw [Dev.decideTransfer_of_miss hloop hmark hfree hopened]
  have hlock : (d.lockTransfer k false).NoTransfer k := congrArg StageT.transfer (Dev.stg_setStg_self ..)
  have hput := hlock.keeps (Dev.put_keeps _ F.TB_STG_STAT_deadline k true (by decide)) (by decide)
  have hflag := Dev.flag_put (d.lockTransfer k false) F.TB_STG_STAT_deadline k true (by decide) rfl
  generalize (d.lockTransfer k false).put F.TB_STG_STAT_deadline k true = e at hput hflag
  exact ⟨((e.loopDeadline_keeps ..).flag F.TB_STG_STAT_deadline k (by decide)).trans hflag, hput.loopDeadline ..⟩

/-- With no AUX loop at the stage, a deadline instant that transfers leaves the stages. -/
theorem Dev.stg_loopDeadline (m k : Nat) (haux : ∀ l ∈ d.loops, d.isAux l = true → d.home l ≠ s) :
    (d.loopDeadline s m true).stg k = d.stg k := by
  unfold Dev.loopDeadline
  rw [if_pos rfl]
  have hnone : (d.each d.loops fun e l =>
      if e.isAux l && e.home l == s && m % e.rd F.BE_LP_CFG_div l == 0 then
        e.each ((e.loop l).owed.filter fun b => Nat.blt b m) fun e b => e.miss l b b
      else e) = d := Dev.each_preserves (P := fun e => e = d) (fun e l hl he => by
    subst he
    refine if_neg fun h => ?_
    rw [Bool.and_eq_true, Bool.and_eq_true, beq_iff_eq] at h
    exact haux l hl h.1.1 h.1.2) d rfl
  dsimp only
  rw [hnone, Dev.stg, Dev.stg, d.dispatchAll_keeps.parts .tb (by decide)]

theorem Dev.mem_writtenShadows (d : Dev) (s p : Nat) (isB : Bool) (v : Nat) : (p, isB, v) ∈ d.writtenShadows s ↔ p ∈ stagePorts s ∧
    (if isB then (d.pg p).wroteB = true ∧ v = d.rd F.PG_SHD_B_value p else (d.pg p).wroteA = true ∧ v = d.rd F.PG_SHD_A_value p) := by
  unfold Dev.writtenShadows
  rw [List.mem_flatMap]
  have hone : ∀ (c : Bool) (w : Nat × Bool × Nat) (b : Nat × Bool × Nat), b ∈ (if c then [w] else []) ↔ c = true ∧ b = w := fun c w b => by
    cases c <;> simp
  simp only [List.mem_append, hone, Prod.mk.injEq]
  constructor
  · rintro ⟨r, hr, ⟨hw, rfl, rfl, rfl⟩ | ⟨hw, rfl, rfl, rfl⟩⟩
    · exact ⟨hr, by rw [if_neg Bool.false_ne_true]; exact ⟨hw, rfl⟩⟩
    · exact ⟨hr, by rw [if_pos rfl]; exact ⟨hw, rfl⟩⟩
  · rintro ⟨hp, h⟩
    cases isB with
    | false => exact ⟨p, hp, .inl ⟨(by simpa using h.1), rfl, rfl, (by simpa using h.2)⟩⟩
    | true => exact ⟨p, hp, .inr ⟨(by simpa using h.1), rfl, rfl, (by simpa using h.2)⟩⟩

theorem Dev.decideTransfer_commits (k : Nat) (hcommit : d.committed k = true) (hfree : d.fenced Kind.stage k = false)
    (haux : ∀ l ∈ d.loops, d.isAux l = true → d.home l ≠ k) : (d.decideTransfer k).stg k =
      { d.stg k with decided := true, transfer := true, locked := d.writtenShadows k, maySample := d.maySample k } := by
  rw [Dev.decideTransfer_of_commit hcommit hfree]
  have hk : Keeps ⟨false, [], [.tb]⟩ d ((d.lockTransfer k true).clearWritten k) := (Dev.setStg_keeps ..).trans (Dev.clearWritten_keeps ..)
  have hstg : ((d.lockTransfer k true).clearWritten k).stg k =
      { d.stg k with decided := true, transfer := true, locked := d.writtenShadows k, maySample := d.maySample k } :=
    (Dev.stg_clearWritten ..).trans (Dev.stg_setStg_self ..)
  generalize (d.lockTransfer k true).clearWritten k = e at hk hstg ⊢
  refine (Dev.stg_loopDeadline _ k fun l hl ha hh => ?_).trans hstg
  have hhome : d.home l = k := (hk.rd F.BE_LP_CFG_home l (by decide)).symm.trans hh
  refine haux l ?_ ((hk.flag F.BE_LP_CFG_role l (by decide)).symm.trans ha) hhome
  obtain ⟨hlt, hon⟩ := List.mem_filter.mp hl
  exact List.mem_filter.mpr ⟨hlt, (hk.flag F.BE_LP_CFG_enable l (by decide)).symm.trans hon⟩

end

end Sys2Proof.Machine
end

section
/-! Instants of the timebase: captures, update points, deadline instants, sampling plans and triggers (R38 to R60, R86 to R90). -/

namespace Sys2Proof.Machine

/-! ### Global time (R38) -/

/-- GT_CAPTURE, as the device carries it out. -/
def Dev.captureStep (d : Dev) (gt : Nat) : Dev :=
  let st := d.rd F.TB_GT_STAT_state 0
  if d.rd F.TB_SYNC_CFG_sync 0 ≠ 2 ∨ !d.flag F.TB_GT_STAT_gt_valid 0 then d
  else if st = 4 ∧ (d.gtError gt).natAbs ≤ d.stepLimit then d.gtReference gt
  else if (st = 2 ∨ st = 4) ∧ !d.globalRuns then d.captureOffset gt
  else d

theorem execGtCapture_eq (t gt : Nat) (s : State) : execGtCapture t gt s = effect t s fun d => d.captureStep gt := rfl

theorem Dev.captureStep_of_acquire {d : Dev} (hsync : d.rd F.TB_SYNC_CFG_sync 0 = 2) (hvalid : d.flag F.TB_GT_STAT_gt_valid 0 = true)
    (hacquire : d.rd F.TB_GT_STAT_state 0 = 2) (hrest : d.globalRuns = false) (gt : Nat) : d.captureStep gt = d.captureOffset gt := by
  unfold Dev.captureStep
  dsimp only
  rw [hsync, hvalid, hacquire, hrest, if_neg (by decide), if_neg (by omega)]
  exact if_pos ⟨.inl rfl, rfl⟩

theorem Dev.captureOffset_shows (d : Dev) (gt : Nat) : let n := d.captureOffset gt
    n.rd64 F.TB_GT_OFFSET_LO F.TB_GT_OFFSET_HI 0 = unsigned 64 ((d.time : Int) - gt) ∧ n.rd F.TB_GT_ERR 0 = 0 ∧ n.rd F.TB_GT_STAT_state 0 = 3 := by
  have hoffset : (d.setOffset ((d.time : Int) - gt)).rd64 F.TB_GT_OFFSET_LO F.TB_GT_OFFSET_HI 0 = unsigned 64 ((d.time : Int) - gt) :=
    (Dev.rd64_wr64 d F.TB_GT_OFFSET_LO F.TB_GT_OFFSET_HI 0 _ ⟨rfl, rfl⟩ ⟨rfl, rfl⟩ (by decide)).trans (Nat.mod_eq_of_lt (unsigned_lt 64 _))
  unfold Dev.captureOffset
  dsimp only
  generalize d.setOffset ((d.time : Int) - gt) = e at hoffset ⊢
  have hzero := Dev.rd_wr_of_lt e F.TB_GT_ERR 0 (v := 0) (by decide) (by decide)
  have hkept := Dev.wr_keeps e F.TB_GT_ERR 0 0 (by decide)
  generalize e.wr F.TB_GT_ERR 0 0 = g at hzero hkept ⊢
  have hlocked := Dev.rd_wr_of_lt g F.TB_GT_STAT_state 0 (v := 3) (by decide) (by decide)
  have hlast := Dev.wr_keeps g F.TB_GT_STAT_state 0 3 (by decide)
  generalize g.wr F.TB_GT_STAT_state 0 3 = m at hlocked hlast ⊢
  exact ⟨(hlast.rd64 F.TB_GT_OFFSET_LO F.TB_GT_OFFSET_HI 0 (by decide) (by decide)).trans
      ((hkept.rd64 F.TB_GT_OFFSET_LO F.TB_GT_OFFSET_HI 0 (by decide) (by decide)).trans hoffset),
    (hlast.rd F.TB_GT_ERR 0 (by decide)).trans hzero, hlocked⟩

/-! ### An update point, seen from before it -/

/-- What an update point changes once its compares stand. -/
def pointFoot : Foot :=
  ⟨false, [F.TB_STG_STAT_running, F.TB_STG_PLAN_A_instant, F.TB_STG_PLAN_A_placed, F.TB_STG_PLAN_B_instant, F.TB_STG_PLAN_B_placed,
    F.PG_STAT_out_high, F.PG_STAT_out_low, F.PG_STAT_minp, F.PG_STAT_both_req] ++ beatFoot.fields, [.tb, .pp, .sh, .be, .ch, .flt]⟩

theorem Dev.passPoint_after (d : Dev) (s : Nat) : Keeps pointFoot (d.atPoint s) (d.passPoint s) := by
  rw [d.passPoint_eq]
  exact ((Dev.drivePorts_keeps ..).within (by decide)).trans ((Dev.openPoint_leaves ..).1.within (by decide))

section
variable {d : Dev} {k : Fin 21}

theorem Dev.passPoint_upd (h : d.upd k + 1 < 2 ^ 64) : (d.passPoint k).upd k = d.upd k + 1 :=
  ((d.passPoint_after k).rd64 F.TB_STG_UPD_LO F.TB_STG_UPD_HI k (by decide) (by decide)).trans (d.upd_atPoint h)

/-- Locked writes of the stage's own ports fit their compares. -/
theorem fitsCompare_of_stage {l : List (Nat × Bool × Nat)} (h : ∀ w ∈ l, w.1 ∈ stagePorts k ∧ w.2.2 < 2 ^ 28) : ∀ w ∈ l, FitsCompare w :=
  fun w hw => ⟨stagePorts_lt k w.1 (h w hw).1, (h w hw).2⟩

/-- After the update point each port of the stage has its coming compares, and the other ports theirs. -/
theorem Dev.passPoint_compare (hl : ∀ w ∈ (d.stg k).locked, w.1 ∈ stagePorts k ∧ w.2.2 < 2 ^ 28) {p : Nat} (hp : p < 64) (isB : Bool) :
    (d.passPoint k).compare p isB = if p ∈ stagePorts k then d.comingCompare k p isB else d.compare p isB := by
  rw [Dev.compare_of_keeps (d.passPoint_after k) (by decide) (by decide), Dev.compare_atPoint isB hp (fitsCompare_of_stage hl)]
  split
  · rfl
  next hout => exact Dev.comingCompare_of_notMem isB fun w hw h => hout (h ▸ (hl w hw).1)

theorem Dev.passPoint_plan (ha : (d.stg k).nextA.at16 < 2 ^ 24) (hb : (d.stg k).nextB.at16 < 2 ^ 24) : let n := d.passPoint k
    n.flag F.TB_STG_PLAN_A_placed k = (d.stg k).nextA.placed ∧ n.flag F.TB_STG_PLAN_B_placed k = (d.stg k).nextB.placed ∧
      n.rd F.TB_STG_PLAN_A_instant k = (d.stg k).nextA.shown ∧ n.rd F.TB_STG_PLAN_B_instant k = (d.stg k).nextB.shown := by
  have hdriven : ∀ m : Dev, (m.stg k).nextA = (d.stg k).nextA → (m.stg k).nextB = (d.stg k).nextB → let n := m.openPoint k (d.upd k + 1) (d.stg k).transfer
      n.flag F.TB_STG_PLAN_A_placed k = (d.stg k).nextA.placed ∧ n.flag F.TB_STG_PLAN_B_placed k = (d.stg k).nextB.placed ∧
        n.rd F.TB_STG_PLAN_A_instant k = (d.stg k).nextA.shown ∧ n.rd F.TB_STG_PLAN_B_instant k = (d.stg k).nextB.shown := fun m hma hmb => by
    have hafter := m.openPoint_after k (d.upd k + 1) (d.stg k).transfer
    obtain ⟨h1, h2, h3, h4⟩ := Dev.beatOpened_plan (d := m) (s := k) (by rw [hma]; exact ha) (by rw [hmb]; exact hb)
    rw [hma] at h1 h3
    rw [hmb] at h2 h4
    exact ⟨(hafter.flag F.TB_STG_PLAN_A_placed k (by decide)).trans h1, (hafter.flag F.TB_STG_PLAN_B_placed k (by decide)).trans h2,
      (hafter.rd F.TB_STG_PLAN_A_instant k (by decide)).trans h3, (hafter.rd F.TB_STG_PLAN_B_instant k (by decide)).trans h4⟩
  rw [d.passPoint_eq]
  have hstg : ∀ n now16 pos16 transfer, let g := (((d.atPoint k).flagSpans k pos16).stepPorts k n now16 pos16 transfer).stg k
      g.nextA = (d.stg k).nextA ∧ g.nextB = (d.stg k).nextB := fun n now16 pos16 transfer => by
    dsimp only
    rw [Dev.stg_stepPorts, Dev.stg_flagSpans, Dev.stg_atPoint]
    split
    · exact ⟨rfl, rfl⟩
    · exact ⟨rfl, rfl⟩
  rw [Dev.drivePorts_eq]
  obtain ⟨hma, hmb⟩ := hstg (d.upd k + 1) (16 * (d.atPoint k).time) (16 * (d.atPoint k).carrier k (d.atPoint k).time) (d.stg k).transfer
  exact hdriven _ hma hmb

/-- The compares of the largest legal values. -/
theorem Dev.SameSpans.compareMax {e : Dev} (h : d.SameSpans e) (p : Nat) (isB : Bool) : e.compareMax p isB = d.compareMax p isB := by
  simp only [Dev.compareMax, h.mode, h.half16, h.upDown, h.period]

/-- The minimum-pulse flag of a port after the update point. -/
theorem Dev.passPoint_minp {p : Nat} (hp : p ∈ stagePorts k) (hl : ∀ w ∈ (d.stg k).locked, w.1 ∈ stagePorts k ∧ w.2.2 < 2 ^ 28)
    (ha : d.comingCompare k p false ≤ d.compareMax p false) (hb : d.comingCompare k p true ≤ d.compareMax p true) : let n := d.passPoint k
    n.flag F.PG_STAT_minp p = (d.flag F.PG_STAT_minp p || (n.governed k p).any (spanDiffers (16 * d.rd F.PG_MINP_min_pulse p))) := by
  have hpoint := d.atPoint_keeps k
  have hspans : (d.atPoint k).SameSpans (d.passPoint k) := .of_keeps (d.passPoint_after k) (by decide)
  have hcompare : ∀ isB, (d.atPoint k).compare p isB = d.comingCompare k p isB := fun isB =>
    Dev.compare_atPoint isB (stagePorts_lt k p hp) (fitsCompare_of_stage hl)
  have hmax : ∀ isB, (d.atPoint k).compareMax p isB = d.compareMax p isB := fun isB => by
    simp only [Dev.compareMax, Dev.half16, hpoint.toFrame.period (by decide), hpoint.toFrame.upDown (by decide), hpoint.rd F.PG_CFG_mode p (by decide)]
  dsimp only
  rw [hspans.governed, ← hpoint.rd F.PG_MINP_min_pulse p (by decide), ← hpoint.flag F.PG_STAT_minp p (by decide), d.passPoint_eq, Dev.drivePorts_eq]
  generalize d.atPoint k = e at hcompare hmax ⊢
  rw [← Dev.minPulseFlag_eq (portStage_of_mem k p hp) (16 * e.carrier k e.time) (by rw [hcompare, hmax]; exact ha) (by rw [hcompare, hmax]; exact hb),
    ← e.flagSpans_minp k (16 * e.carrier k e.time) hp]
  have hsteps := (e.flagSpans k (16 * e.carrier k e.time)).stepPorts_keeps (d.upd k + 1) k (16 * e.time) (16 * e.carrier k e.time) (d.stg k).transfer
  exact ((Dev.openPoint_leaves ..).1.flag F.PG_STAT_minp p (by decide)).trans (hsteps.flag F.PG_STAT_minp p (by decide))

/-- The update point at which a stage that was started may begin to drive (R54). -/
theorem Dev.passPoint_drives (hrun : d.flag F.TB_STG_RUN_run k = true) (hidle : (d.stg k).driving = false) (hstart : (d.stg k).startAt < d.time) :
    let n := d.passPoint k
    (n.stg k).driving = (d.stg k).transfer ∧
      ((d.stg k).transfer = true → n.flag F.TB_STG_STAT_running k = true ∧
        ∀ p ∈ stagePorts k, n.Commands n p (16 * d.time) (16 * d.carrier k d.time)) ∧
      ((d.stg k).transfer = false → ∀ p ∈ stagePorts k, n.flag F.PG_STAT_out_high p = d.flag F.PG_STAT_out_high p ∧
        n.flag F.PG_STAT_out_low p = d.flag F.PG_STAT_out_low p) := by
  have hpoint := d.atPoint_keeps k
  have hspans := (d.passPoint_after k)
  have hstg := d.stg_atPoint k k
  have htime : (d.atPoint k).time = d.time := hpoint.time
  have hcarrier := hpoint.toFrame.carrier (by decide) k d.time
  have horders : ∀ p pos16, (d.passPoint k).orders p pos16 = (d.atPoint k).orders p pos16 :=
    Dev.orders_of_keeps hspans (by decide) (by decide) (by decide)
  revert horders
  rw [d.passPoint_eq, Dev.drivePorts_eq, htime, hcarrier]
  generalize d.atPoint k = e at hpoint hstg htime
  have hflag := e.flagSpans_keeps k (16 * d.carrier k d.time)
  have hstg' := e.stg_flagSpans k k (16 * d.carrier k d.time)
  have hord : ∀ p pos16, (e.flagSpans k (16 * d.carrier k d.time)).orders p pos16 = e.orders p pos16 :=
    Dev.orders_of_keeps hflag (by decide) (by decide) (by decide)
  rw [hstg] at hstg'
  generalize e.flagSpans k (16 * d.carrier k d.time) = g at hflag hstg' hord
  have hbegins : g.begins k (d.stg k).transfer = (d.stg k).transfer := by
    rw [Dev.begins, hflag.flag F.TB_STG_RUN_run k (by decide), hpoint.flag F.TB_STG_RUN_run k (by decide), hrun, hstg', hidle, hflag.time, htime,
      Nat.blt_eq.mpr hstart]
    simp
  have hrest := fun h => Dev.stepPorts_of_rest k (d.upd k + 1) (now16 := 16 * d.time) (pos16 := 16 * d.carrier k d.time) (hbegins.trans h)
    (by rw [hstg']; exact hidle)
  have hbegin := fun h => Dev.stepPorts_of_begin k (d.upd k + 1) (now16 := 16 * d.time) (pos16 := 16 * d.carrier k d.time) (hbegins.trans h)
  generalize g.stepPorts k (d.upd k + 1) (16 * d.time) (16 * d.carrier k d.time) (d.stg k).transfer = m at hrest hbegin ⊢
  obtain ⟨hk, hpg, hdriving⟩ := m.openPoint_leaves k (d.upd k + 1) (d.stg k).transfer
  intro horders
  generalize m.openPoint k (d.upd k + 1) (d.stg k).transfer = n at hk hpg hdriving horders ⊢
  refine ⟨?_, fun htrue => ?_, fun hfalse p hp => ?_⟩
  · rw [hdriving]
    cases htransfer : (d.stg k).transfer with
    | true => exact (hbegin htransfer).1
    | false => rw [hrest htransfer, hstg']; exact hidle
  · obtain ⟨-, hruns, hcommands⟩ := hbegin htrue
    refine ⟨(hk.flag F.TB_STG_STAT_running k (by decide)).trans hruns, fun p hp => ?_⟩
    exact (hcommands p hp).congr ((horders p _).trans (hord p _).symm) (hk.flag F.PG_STAT_out_high p (by decide))
      (hk.flag F.PG_STAT_out_low p (by decide)) (hpg p)
  · have hm := hrest hfalse
    subst hm
    exact ⟨(hk.flag F.PG_STAT_out_high p (by decide)).trans ((hflag.flag F.PG_STAT_out_high p (by decide)).trans
        (hpoint.flag F.PG_STAT_out_high p (by decide))),
      (hk.flag F.PG_STAT_out_low p (by decide)).trans ((hflag.flag F.PG_STAT_out_low p (by decide)).trans
        (hpoint.flag F.PG_STAT_out_low p (by decide)))⟩

end

/-! ### Triggers (R60) -/

theorem Dev.fired_setFired (d : Dev) (u k : Nat) (v : List Nat) : (d.setFired u v).fired k = if k = u then v else d.fired k := Tbl.get_set ..

/-- A firing is held among a unit's last eight. -/
def Dev.pushFired (d : Dev) (u at16 : Nat) : Dev := d.setFired u ((if 8 ≤ (d.fired u).length then (d.fired u).drop 1 else d.fired u) ++ [at16])

theorem Dev.triggerFire_of_hit {d : Dev} {u six : Nat} (h : d.triggerHits u six = true) : d.triggerFire u six =
    (((d.bump F.TB_TRIG_CNT u).pushFired u (16 * (d.bump F.TB_TRIG_CNT u).time + six)).pushFired (64 + u) (16 * (d.bump F.TB_TRIG_CNT u).time + six)) :=
  if_pos h

theorem Dev.rd_pushFired (d : Dev) (u at16 : Nat) (f : Fd) (i : Nat) : (d.pushFired u at16).rd f i = d.rd f i := rfl

theorem Dev.fired_pushFired (d : Dev) (u at16 : Nat) : ((d.pushFired u at16).fired u).getLast? = some at16 := by
  rw [Dev.pushFired, Dev.fired_setFired, if_pos rfl, List.getLast?_concat]

theorem Dev.fired_pushFired_of_ne (d : Dev) {u k : Nat} (h : k ≠ u) (at16 : Nat) : (d.pushFired u at16).fired k = d.fired k :=
  (Dev.fired_setFired ..).trans (if_neg h)

theorem Dev.triggerFire_shows {d : Dev} {u six : Nat} (h : d.triggerHits u six = true) : let n := d.triggerFire u six
    n.rd F.TB_TRIG_CNT u = min (d.rd F.TB_TRIG_CNT u + 1) (2 ^ 32 - 1) ∧ (n.fired u).getLast? = some (16 * d.time + six) := by
  have hcount : (d.bump F.TB_TRIG_CNT u).rd F.TB_TRIG_CNT u = min (d.rd F.TB_TRIG_CNT u + 1) (2 ^ 32 - 1) := Dev.rd_bump d F.TB_TRIG_CNT u (by decide)
  have htime : (d.bump F.TB_TRIG_CNT u).time = d.time := Dev.time_bump ..
  dsimp only
  rw [Dev.triggerFire_of_hit h, htime]
  generalize d.bump F.TB_TRIG_CNT u = e at hcount
  refine ⟨?_, ?_⟩
  · rw [Dev.rd_pushFired, Dev.rd_pushFired, hcount]
  · rw [Dev.fired_pushFired_of_ne _ (by omega), Dev.fired_pushFired]

/-! ### The commands -/

/-- DEADLINE_INSTANT, as the device carries it out. -/
def Dev.atDeadlineStep (d : Dev) (k : Fin 21) : Dev :=
  if d.flag F.TB_STG_CFG_enable k && d.atDeadline k d.time && !(d.stg k).decided then d.decideTransfer k else d

theorem execDeadlineInstant_eq (t : Nat) (k : Fin 21) (s : State) : execDeadlineInstant t k s = effect t s fun d => d.atDeadlineStep k := rfl

theorem Dev.atDeadlineStep_of_open {d : Dev} {k : Fin 21} (hon : d.flag F.TB_STG_CFG_enable k = true) (hdue : d.atDeadline k d.time = true)
    (hopen : (d.stg k).decided = false) : d.atDeadlineStep k = d.decideTransfer k := by
  unfold Dev.atDeadlineStep
  rw [hon, hdue, hopen]
  rfl

/-- SAMPLING_PLAN, as the device carries it out. -/
def Dev.samplingStep (d : Dev) (k : Fin 21) : Dev := if (d.stg k).decided && !(d.stg k).planned then d.plan k else d

theorem execSamplingPlan_eq (t : Nat) (k : Fin 21) (s : State) : execSamplingPlan t k s = effect t s fun d => d.samplingStep k := rfl

theorem Dev.samplingStep_of_open {d : Dev} {k : Fin 21} (hdecided : (d.stg k).decided = true) (hopen : (d.stg k).planned = false) :
    d.samplingStep k = d.plan k := by
  unfold Dev.samplingStep
  rw [hdecided, hopen]
  rfl

/-- A decided and planned update point is passed as it stands. -/
theorem Dev.updatePoint_of_done {d : Dev} {k : Fin 21} (hon : d.flag F.TB_STG_CFG_enable k = true) (hdue : d.atUpdate k d.time = true)
    (hdecided : (d.stg k).decided = true) (hplanned : (d.stg k).planned = true) : d.updatePoint k = d.passPoint k := by
  rw [Dev.updatePoint_of_due hon hdue, Dev.settled_of_done hdecided hplanned]

/-- A stage's commit in time (R51), as the deadline instant reads it. -/
theorem Dev.committed_of {d : Dev} {k : Fin 21} (h : if d.loopStage k then (d.stg k).mark = true
    else d.flag F.TB_STG_COMMIT_pending k = true ∧ d.rd F.TB_STG_COMMIT_update k = (d.upd k + 1) % 65536) : d.committed k = true := by
  unfold Dev.committed
  cases hloop : d.loopStage k with
  | true =>
    rw [hloop, if_pos rfl] at h
    exact h
  | false =>
    rw [hloop, if_neg Bool.false_ne_true] at h
    obtain ⟨hpending, hupdate⟩ := h
    rw [if_neg Bool.false_ne_true, hpending, hupdate, beq_self_eq_true]
    rfl

theorem Dev.decideTransfer_locks {d : Dev} {k : Fin 21} (hcommit : d.committed k = true) (hfree : d.fenced Kind.stage k = false)
    (haux : ∀ l ∈ d.loops, d.isAux l = true → d.home l ≠ k) : let n := d.decideTransfer k
    (n.stg k).decided = true ∧ (n.stg k).transfer = true ∧ ∀ p isB v, (p, isB, v) ∈ (n.stg k).locked ↔ p ∈ stagePorts k ∧
      (if isB then (d.pg p).wroteB = true ∧ v = d.rd F.PG_SHD_B_value p else (d.pg p).wroteA = true ∧ v = d.rd F.PG_SHD_A_value p) := by
  dsimp only
  rw [Dev.decideTransfer_commits k hcommit hfree haux]
  exact ⟨rfl, rfl, d.mem_writtenShadows k⟩

/-- The plan of a stage in FIXED (R86, R88). -/
theorem Dev.plan_fixed_shows {d : Dev} {k : Fin 21} (hmode : d.rd F.SH_CFG_mode k = 2) : let n := d.plan k
    (n.stg k).planned = true ∧
    (n.stg k).nextA.placed = (d.flag F.SH_FIX_A_enable k && d.rd F.SH_FIX_A_offset k ≤ d.rd F.TB_STG_LIMIT_latest k) ∧
    (n.stg k).nextB.placed = (d.flag F.SH_FIX_B_enable k && d.rd F.SH_FIX_B_offset k ≤ d.rd F.TB_STG_LIMIT_latest k) ∧
    ((n.stg k).nextA.placed = true → (n.stg k).nextA.at16 = 16 * d.rd F.SH_FIX_A_offset k) ∧
    ((n.stg k).nextB.placed = true → (n.stg k).nextB.at16 = 16 * d.rd F.SH_FIX_B_offset k) ∧
    n.flag F.SH_STAT_unplaced k = (d.flag F.SH_STAT_unplaced k ||
      (d.flag F.SH_FIX_A_enable k && d.rd F.TB_STG_LIMIT_latest k < d.rd F.SH_FIX_A_offset k) ||
      (d.flag F.SH_FIX_B_enable k && d.rd F.TB_STG_LIMIT_latest k < d.rd F.SH_FIX_B_offset k)) := by
  have hunplaced := Dev.plan_fixed_unplaced (s := k) hmode
  obtain ⟨haOn, haPlaced, haAt⟩ := d.fixedAt_within k (d.flag F.SH_FIX_A_enable k) (d.rd F.SH_FIX_A_offset k)
  obtain ⟨hbOn, hbPlaced, hbAt⟩ := d.fixedAt_within k (d.flag F.SH_FIX_B_enable k) (d.rd F.SH_FIX_B_offset k)
  have hlate : ∀ (on : Bool) (off latest : Nat), (on && !(on && decide (off ≤ latest))) = (on && decide (latest < off)) := fun on off latest => by
    cases on
    · rfl
    · simp only [Bool.true_and, ← decide_not, Nat.not_le]
  rw [d.fixedInst_eq k false, d.fixedInst_eq k true, if_neg Bool.false_ne_true, if_neg Bool.false_ne_true, if_pos rfl, if_pos rfl, haOn, hbOn,
    haPlaced, hbPlaced, hlate, hlate] at hunplaced
  dsimp only
  refine ⟨?_, ?_, ?_, ?_, ?_, hunplaced⟩
  all_goals
    rw [Dev.plan_of_fixed hmode, d.fixedInst_eq k false, d.fixedInst_eq k true]
    obtain ⟨hplanned, ha, hb, -⟩ := Dev.keepPlan_shows (d := (d.noteInst k (d.fixedInst k false).placed false
      (d.withinLatest k (d.fixedInst k false))).noteInst k (d.fixedInst k true).placed false (d.withinLatest k (d.fixedInst k true))) (s := k)
      (d.withinLatest k (d.fixedInst k false)) (d.withinLatest k (d.fixedInst k true))
    rw [d.fixedInst_eq k false, d.fixedInst_eq k true] at hplanned ha hb
  · exact hplanned
  · rw [ha]; exact haPlaced
  · rw [hb]; exact hbPlaced
  · rw [ha]; exact haAt
  · rw [hb]; exact hbAt

/-- The plan of a stage in OFF (R86). -/
theorem Dev.plan_off_shows {d : Dev} {k : Fin 21} (hmode : d.rd F.SH_CFG_mode k = 3) : let n := d.plan k
    (n.stg k).planned = true ∧ (n.stg k).nextA.placed = false ∧ (n.stg k).nextB.placed = false := by
  obtain ⟨hplanned, ha, hb, -⟩ := Dev.keepPlan_shows (d := d) (s := k) {} {}
  dsimp only
  rw [Dev.plan_of_off hmode]
  exact ⟨hplanned, congrArg Inst.placed ha, congrArg Inst.placed hb⟩

/-- The gate commands of an update point, read with the modes and dead times from before it. -/
theorem Dev.Commands.before {d n : Dev} {p now16 pos16 : Nat} (h : n.Commands n p now16 pos16) (hmode : n.rd F.PG_CFG_mode p = d.rd F.PG_CFG_mode p)
    (hrise : n.rd F.PG_DT_dt_rise p = d.rd F.PG_DT_dt_rise p) (hfall : n.rd F.PG_DT_dt_fall p = d.rd F.PG_DT_dt_fall p) : let h := n.hCommand p pos16
    (d.rd F.PG_CFG_mode p = 1 ∨ d.rd F.PG_CFG_mode p = 5 →
      let dt := if h then d.rd F.PG_DT_dt_rise p else d.rd F.PG_DT_dt_fall p
      (dt = 0 → n.flag F.PG_STAT_out_high p = h ∧ n.flag F.PG_STAT_out_low p = !h) ∧
      (dt ≠ 0 → n.flag F.PG_STAT_out_high p = false ∧ n.flag F.PG_STAT_out_low p = false ∧ (n.pg p).wait = some (h, now16 + dt))) ∧
    (d.rd F.PG_CFG_mode p = 2 → n.flag F.PG_STAT_out_high p = h ∧ n.flag F.PG_STAT_out_low p = false) ∧
    (d.rd F.PG_CFG_mode p = 3 → n.flag F.PG_STAT_out_high p = false ∧ n.flag F.PG_STAT_out_low p = !h) := by
  rw [Dev.Commands, Dev.deadTime, hmode, hrise, hfall] at h
  exact h

/-- Settles O1: each command is its step of the device, whose results the layers on compares, update points, plans and deadlines give. -/
theorem timebaseInstants : Obligations.TimebaseInstants := by
  unfold Obligations.TimebaseInstants
  intro s t d
  have hnow : s.now t = d := rfl
  clear_value d
  refine ⟨?capture, ?count, ?compares, ?minimum, ?driving, ?commit, ?miss, ?barred, ?fixed, ?off, ?single, ?trigger⟩
  case capture =>
    intro gt hsync hvalid hacquire hrest
    exact .of_step (execGtCapture_eq t gt s) hnow (Dev.captureStep_of_acquire hsync hvalid hacquire hrest gt) (d.captureOffset_shows gt)
  case count =>
    intro k hon hdue hupd
    rw [← d.upd_settled k] at hupd ⊢
    exact .of_step (show exec (.updatePoint t k) s = execUpdatePoint t k s from rfl) hnow (Dev.updatePoint_of_due hon hdue) (Dev.passPoint_upd hupd)
  case compares =>
    intro k hon hdue hdecided hplanned hl ha hb
    refine .of_step (show exec (.updatePoint t k) s = execUpdatePoint t k s from rfl) hnow (Dev.updatePoint_of_done hon hdue hdecided hplanned) ?_
    exact ⟨fun p hp => ⟨Dev.passPoint_compare hl hp false, Dev.passPoint_compare hl hp true⟩, Dev.passPoint_plan ha hb⟩
  case minimum =>
    intro k p hp hon hdue hdecided hplanned hl ha hb _
    exact .of_step (show exec (.updatePoint t k) s = execUpdatePoint t k s from rfl) hnow (Dev.updatePoint_of_done hon hdue hdecided hplanned)
      (Dev.passPoint_minp hp hl ha hb)
  case driving =>
    intro k hon hdue hdecided hplanned hrun hidle hstart
    refine .of_step (show exec (.updatePoint t k) s = execUpdatePoint t k s from rfl) hnow (Dev.updatePoint_of_done hon hdue hdecided hplanned) ?_
    obtain ⟨hdriving, hbegins, hrests⟩ := Dev.passPoint_drives hrun hidle hstart
    refine ⟨hdriving, fun htransfer => ?_, hrests⟩
    obtain ⟨hruns, hcommands⟩ := hbegins htransfer
    have hreads : ∀ f p, (Foot.avoids pointFoot f = true) → (d.atPoint k).rd f p = d.rd f p → (d.passPoint k).rd f p = d.rd f p :=
      fun f p hf h => ((d.passPoint_after k).rd f p hf).trans h
    exact ⟨hruns, fun p hp => (hcommands p hp).before (hreads _ p (by decide) ((d.atPoint_keeps k).rd F.PG_CFG_mode p (by decide)))
      (hreads _ p (by decide) ((d.atPoint_keeps k).rd F.PG_DT_dt_rise p (by decide)))
      (hreads _ p (by decide) ((d.atPoint_keeps k).rd F.PG_DT_dt_fall p (by decide)))⟩
  case commit =>
    intro k hon hdue hopen hfree haux hcommit
    exact .of_step (execDeadlineInstant_eq t k s) hnow (Dev.atDeadlineStep_of_open hon hdue hopen)
      (Dev.decideTransfer_locks (Dev.committed_of hcommit) hfree haux)
  case miss =>
    intro k hon hdue hopen hloop hmark hfree hopened
    exact .of_step (execDeadlineInstant_eq t k s) hnow (Dev.atDeadlineStep_of_open hon hdue hopen)
      (Dev.decideTransfer_misses k hloop hmark hfree hopened)
  case barred =>
    intro k hdecided hopen hmode hmay
    exact .of_step (execSamplingPlan_eq t k s) hnow ((Dev.samplingStep_of_open hdecided hopen).trans (Dev.plan_of_single hmode))
      (Dev.planSingle_barred hmay _)
  case fixed =>
    intro k hdecided hopen hmode
    exact .of_step (execSamplingPlan_eq t k s) hnow (Dev.samplingStep_of_open hdecided hopen) (Dev.plan_fixed_shows hmode)
  case off =>
    intro k hdecided hopen hmode
    exact .of_step (execSamplingPlan_eq t k s) hnow (Dev.samplingStep_of_open hdecided hopen) (Dev.plan_off_shows hmode)
  case single =>
    intro k x y z hdecided hopen hmode hmay hl up port cmp e dt base w accept latest rightly hxy hyz hxz hfirst hsecond
    refine .of_step (execSamplingPlan_eq t k s) hnow ((Dev.samplingStep_of_open hdecided hopen).trans ((Dev.plan_of_single hmode).trans
      (congrArg (d.planSingle k) (Dev.singleShunt_coming (fitsCompare_of_stage hl) hxy hyz hxz hfirst hsecond)))) ?_
    exact Dev.planSingle_rightly hmay x y z
  case trigger =>
    intro six u hhits
    exact .of_step (show exec (.triggerFire t six u) s = execTriggerFire t six u s from rfl) hnow rfl (Dev.triggerFire_shows hhits)

end Sys2Proof.Machine
end

section
/-! The modes of the safety controller: rollback, SAFE, the loss of redundancy (R269 to R277). -/

namespace Sys2Proof.Machine

/-! ### What a wake-up, the watchdog and SAFE leave of the controller -/

/-- The controller's state but for its absence timers, its watchdog, its transient limit and what a wake-up changes. -/
def Dev.lockstep (d : Dev) : Sc :=
  { d.sc with absDue := [], respDue := [], wfi := false, checkpoint := {}, overLimit := false, wdogDue := none, wdogLeft := none }

theorem Dev.lockstep_congr {d e : Dev} (h : e.sc = d.sc) : e.lockstep = d.lockstep := by rw [Dev.lockstep, h]; rfl

theorem Keeps.lockstep {w : Foot} {d e : Dev} (hk : Keeps w d e) (hp : Part.sc ∉ w.parts) : e.lockstep = d.lockstep :=
  Dev.lockstep_congr (hk.parts .sc hp)

theorem absLasts_lockstep (c : Sc) : AbsLasts fun d => d.lockstep = c where
  congr _ hs h := (Dev.lockstep_congr hs).trans h
  absStop _ h := h

theorem Dev.lockstep_enterSafe (d : Dev) (kind index code detail sub : Nat) : (d.enterSafe kind index code detail sub).lockstep = d.lockstep :=
  AbsLasts.enterSafe d kind index detail sub (absLasts_lockstep d.lockstep) rfl

theorem Dev.lockstep_wdogResume (d : Dev) : d.wdogResume.lockstep = d.lockstep := by
  unfold Dev.wdogResume
  split <;> rfl

theorem Dev.lockstep_wakeCopies (d : Dev) : d.wakeCopies.lockstep = d.lockstep := by
  unfold Dev.wakeCopies
  split <;> rfl

theorem safetyCode_lt (k : Nat) : Code.ofFree (Config.safetyCode k) < 256 := (Nat.mod_lt _ (by decide)).trans (by decide)

theorem Dev.scSafe_shows (d : Dev) (k : Nat) : (d.scSafe k).flag F.FLT_SAFE_safe 0 = true ∧ (d.scSafe k).lockstep = d.lockstep :=
  ⟨Dev.enterSafe_safe _ _ _ _ _ (safetyCode_lt k), (Dev.lockstep_enterSafe ..).trans ((d.wr_keeps F.SC_LAST_outcome 0 4 (by decide)).lockstep (by decide))⟩

/-! ### Rollback (R272, R273) -/

theorem Dev.scNote_cause (d : Dev) {cause : Nat} (h : cause < 16) : (d.scNote cause).rd F.SC_LAST_cause 0 = cause := by
  unfold Dev.scNote
  rw [((d.wr F.SC_LAST 0 (cause + 65536 * d.windowLow)).wr64_keeps F.SC_LAST_TIME_LO F.SC_LAST_TIME_HI 0 d.time (by decide) (by decide)).rd
    F.SC_LAST_cause 0 (by decide), d.field_wr_whole F.SC_LAST F.SC_LAST_cause 0 _ rfl rfl rfl (by decide)]
  change (cause + 65536 * d.windowLow) / 1 % 16 = cause
  omega

theorem Dev.rollBack_sc (d : Dev) (test : ScTest) : ∃ left, (d.rollBack test).sc =
    { d.sc with copyA := {}, copyB := {}, received := none, test := some test, wdogDue := none, wdogLeft := left } := ⟨_, rfl⟩

theorem Dev.rollBack_mode (d : Dev) (test : ScTest) : (d.rollBack test).scMode = ScMode.rollback :=
  ((Dev.onSc_keeps ..).rd F.SC_STAT_mode 0 (by decide)).trans (Dev.rd_wr_of_lt _ F.SC_STAT_mode 0 (by decide) (by decide))

theorem Dev.scMismatch_rolls {d : Dev} {cause : Nat} (hretry : d.sc.retry = false) (hcause : cause < 16) : let n := d.scMismatch cause
    n.scMode = ScMode.rollback ∧ n.sc.test = some .window ∧ n.sc.window = d.sc.window ∧ n.rd F.SC_LAST_cause 0 = cause ∧ n.sc.wdogDue = none ∧
      n.sc.copyA = {} ∧ n.sc.copyB = {} ∧ n.sc.checkpoint = d.sc.checkpoint ∧ n.mb = d.mb := by
  have hnote := d.scNote_keeps cause
  have hsc := hnote.parts .sc (by decide)
  have hshown := d.scNote_cause hcause
  have heq : d.scMismatch cause = (d.scNote cause).rollBack .window := by
    unfold Dev.scMismatch
    dsimp only
    rw [show (d.scNote cause).sc.retry = false from (congrArg Sc.retry hsc).trans hretry, if_neg Bool.false_ne_true]
  have hmb := hnote.parts .mb (by decide)
  dsimp only
  rw [heq]
  generalize d.scNote cause = e at hsc hshown hmb
  have hback := e.rollBack_keeps .window
  obtain ⟨left, hn⟩ := e.rollBack_sc .window
  have hmode := e.rollBack_mode .window
  generalize e.rollBack .window = n at hback hn hmode
  rw [hn, hsc]
  exact ⟨hmode, rfl, rfl, (hback.rd F.SC_LAST_cause 0 (by decide)).trans hshown, rfl, rfl, rfl, rfl, (hback.parts .mb (by decide)).trans hmb⟩

theorem Dev.scMismatch_safe {d : Dev} (cause : Nat) (hretry : d.sc.retry = true) : let n := d.scMismatch cause
    n.flag F.FLT_SAFE_safe 0 = true ∧ n.sc.window = d.sc.window := by
  have hsc : (d.scNote cause).sc = d.sc := (d.scNote_keeps cause).parts .sc (by decide)
  have heq : d.scMismatch cause = (((d.scNote cause).dropWindow.bump F.SC_CNT_rollbacks 0).onSc fun c => { c with retry := false }).scSafe 0 := by
    unfold Dev.scMismatch
    dsimp only
    rw [show (d.scNote cause).sc.retry = true from (congrArg Sc.retry hsc).trans hretry, if_pos rfl]
  dsimp only
  rw [heq]
  generalize d.scNote cause = e at hsc
  obtain ⟨hsafe, hleft⟩ := ((e.dropWindow.bump F.SC_CNT_rollbacks 0).onSc fun c => { c with retry := false }).scSafe_shows 0
  have hwindow : e.sc.window = d.sc.window := congrArg Sc.window hsc
  exact ⟨hsafe, (congrArg Sc.window hleft).trans hwindow⟩

/-! ### One copy goes on alone (R276, R277) -/

/-- What the registers show of simplex. -/
def Dev.showSimplex (d : Dev) (copyA : Bool) : Dev :=
  ((d.scReport Cls.c Code.SIMPLEX).wr F.SC_STAT_mode 0 (if copyA then ScMode.simplexA else ScMode.simplexB)).wr F.SC_LAST_outcome 0
    (if copyA then 2 else 3)

/-- The grace time starts, of g 100 ms units. -/
def Dev.startGrace (d : Dev) (g : Nat) : Dev :=
  ((d.put F.SC_STAT_grace 0 true).wr F.SC_STAT_grace_left 0 g).onSc fun c =>
    { c with graceEnd := some (((d.put F.SC_STAT_grace 0 true).wr F.SC_STAT_grace_left 0 g).time + 80000000 * g), retry := false, test := none }

/-- A transient limit that was exceeded takes effect (R285). -/
def Dev.limitActs (d : Dev) : Dev := if d.sc.overLimit then (d.onSc fun c => { c with overLimit := false }).scSafe 2 else d

theorem Dev.goSimplex_eq (d : Dev) (copyA : Bool) :
    d.goSimplex copyA = ((d.showSimplex copyA).startGrace ((d.showSimplex copyA).rd F.SC_CFG_grace 0)).wdogResume.limitActs.wakeCopies := rfl

theorem Dev.lockstep_limitActs (d : Dev) : d.limitActs.lockstep = d.lockstep := by
  unfold Dev.limitActs
  split
  · obtain ⟨-, hleft⟩ := (d.onSc fun c => { c with overLimit := false }).scSafe_shows 2
    exact hleft
  · rfl

theorem Dev.limitActs_leaves (d : Dev) : d.limitActs.scMode = d.scMode ∧ d.limitActs.flag F.SC_STAT_grace 0 = d.flag F.SC_STAT_grace 0 := by
  unfold Dev.limitActs
  split
  · have hsc := d.onSc_keeps fun c => { c with overLimit := false }
    generalize (d.onSc fun c => { c with overLimit := false }) = e at hsc ⊢
    have hsafe := e.scSafe_keeps 2
    generalize e.scSafe 2 = n at hsafe ⊢
    exact ⟨(hsafe.rd F.SC_STAT_mode 0 (by decide)).trans (hsc.rd F.SC_STAT_mode 0 (by decide)),
      (hsafe.flag F.SC_STAT_grace 0 (by decide)).trans (hsc.flag F.SC_STAT_grace 0 (by decide))⟩
  · exact ⟨rfl, rfl⟩

/-- The mode of a copy that goes on alone. -/
def soloMode (copyA : Bool) : Nat := if copyA then ScMode.simplexA else ScMode.simplexB

theorem Dev.showSimplex_shows (d : Dev) (copyA : Bool) : let n := d.showSimplex copyA
    n.scMode = soloMode copyA ∧ n.rd F.SC_CFG_grace 0 = d.rd F.SC_CFG_grace 0 ∧ n.sc = d.sc ∧ n.time = d.time := by
  unfold Dev.showSimplex
  have hreport := d.scReport_keeps Cls.c Code.SIMPLEX
  generalize d.scReport Cls.c Code.SIMPLEX = e at hreport
  have hmode := Dev.rd_wr_of_lt e F.SC_STAT_mode 0 (v := if copyA then ScMode.simplexA else ScMode.simplexB) (by decide) (by cases copyA <;> decide)
  have hwrote := e.wr_keeps F.SC_STAT_mode 0 (if copyA then ScMode.simplexA else ScMode.simplexB) (by decide)
  generalize e.wr F.SC_STAT_mode 0 (if copyA then ScMode.simplexA else ScMode.simplexB) = g at hmode hwrote
  have hlast := g.wr_keeps F.SC_LAST_outcome 0 (if copyA then 2 else 3) (by decide)
  exact ⟨(hlast.rd F.SC_STAT_mode 0 (by decide)).trans hmode,
    (hlast.rd F.SC_CFG_grace 0 (by decide)).trans ((hwrote.rd F.SC_CFG_grace 0 (by decide)).trans (hreport.rd F.SC_CFG_grace 0 (by decide))),
    (hlast.parts .sc (by decide)).trans ((hwrote.parts .sc (by decide)).trans (hreport.parts .sc (by decide))),
    hlast.time.trans (hwrote.time.trans hreport.time)⟩

theorem Dev.startGrace_shows (d : Dev) (g : Nat) : let n := d.startGrace g
    n.scMode = d.scMode ∧ n.flag F.SC_STAT_grace 0 = true ∧
      n.sc = { d.sc with graceEnd := some (d.time + 80000000 * g), retry := false, test := none } := by
  unfold Dev.startGrace
  have hon := Dev.flag_put d F.SC_STAT_grace 0 true (by decide) rfl
  have hput := d.put_keeps F.SC_STAT_grace 0 true (by decide)
  generalize d.put F.SC_STAT_grace 0 true = e at hon hput
  have hwrote := e.wr_keeps F.SC_STAT_grace_left 0 g (by decide)
  generalize e.wr F.SC_STAT_grace_left 0 g = m at hwrote
  rw [hwrote.time, hput.time]
  refine ⟨(hwrote.rd F.SC_STAT_mode 0 (by decide)).trans (hput.rd F.SC_STAT_mode 0 (by decide)),
    (hwrote.flag F.SC_STAT_grace 0 (by decide)).trans hon, ?_⟩
  rw [← hput.parts .sc (by decide), ← hwrote.parts .sc (by decide)]
  rfl

theorem Dev.goSimplex_shows (d : Dev) (copyA : Bool) : let n := d.goSimplex copyA
    n.scMode = soloMode copyA ∧ n.flag F.SC_STAT_grace 0 = true ∧
      n.lockstep = { d.lockstep with graceEnd := some (d.time + 80000000 * d.rd F.SC_CFG_grace 0), retry := false, test := none } := by
  obtain ⟨hmode, hcfg, hsc, htime⟩ := d.showSimplex_shows copyA
  rw [d.goSimplex_eq copyA, hcfg]
  generalize d.showSimplex copyA = e at hmode hsc htime
  obtain ⟨hkept, hgrace, hstarted⟩ := e.startGrace_shows (d.rd F.SC_CFG_grace 0)
  generalize e.startGrace (d.rd F.SC_CFG_grace 0) = g at hkept hgrace hstarted
  have hresume := g.wdogResume_keeps
  have hlock := g.lockstep_wdogResume
  generalize g.wdogResume = m at hresume hlock
  obtain ⟨hlimit, hlimitGrace⟩ := m.limitActs_leaves
  have hwake := m.limitActs.wakeCopies_keeps
  refine ⟨?_, ?_, ?_⟩
  · exact (hwake.rd F.SC_STAT_mode 0 (by decide)).trans (hlimit.trans ((hresume.rd F.SC_STAT_mode 0 (by decide)).trans (hkept.trans hmode)))
  · exact (hwake.flag F.SC_STAT_grace 0 (by decide)).trans (hlimitGrace.trans ((hresume.flag F.SC_STAT_grace 0 (by decide)).trans hgrace))
  · rw [Dev.lockstep_wakeCopies, Dev.lockstep_limitActs, hlock, Dev.lockstep, hstarted, hsc, htime]
    rfl

/-! ### No copy is left -/

theorem Dev.scHalt_shows (d : Dev) : d.scHalt.scMode = ScMode.halted ∧ d.scHalt.flag F.FLT_SAFE_safe 0 = true := by
  refine ⟨?_, Dev.enterSafe_safe _ _ _ _ _ (by decide)⟩
  have hmode := Dev.rd_wr_of_lt d F.SC_STAT_mode 0 (v := ScMode.halted) (by decide) (by decide)
  unfold Dev.scHalt
  dsimp only
  generalize d.wr F.SC_STAT_mode 0 ScMode.halted = e at hmode
  have hlast := e.wr_keeps F.SC_LAST_outcome 0 4 (by decide)
  generalize e.wr F.SC_LAST_outcome 0 4 = g at hlast
  have hsc := g.onSc_keeps fun c => { c with retry := false, test := none }
  generalize (g.onSc fun c => { c with retry := false, test := none }) = m at hsc
  have hresume := m.wdogResume_keeps
  exact ((Dev.enterSafe_keeps ..).rd F.SC_STAT_mode 0 (by decide)).trans ((hresume.rd F.SC_STAT_mode 0 (by decide)).trans
    ((hsc.rd F.SC_STAT_mode 0 (by decide)).trans ((hlast.rd F.SC_STAT_mode 0 (by decide)).trans hmode)))

/-! ### Fences of copies and checker -/

theorem Dev.fenceCopy_fenced (d : Dev) (k cause sub : Nat) : (d.fenceCopy k cause sub).fenced Kind.safety k = true := by
  cases hfence : d.fenced Kind.safety k with
  | true => rw [Dev.fenceCopy, if_pos hfence]; exact hfence
  | false => exact (Dev.fenceCopy_by hfence cause sub).fenced

theorem Dev.FaultsGrow.fenced {d e : Dev} (h : d.FaultsGrow e) {kind index : Nat} (hf : d.fenced kind index = true) : e.fenced kind index = true :=
  h.1 _ _ hf

/-! ### Self-tests (R273, R276) -/

theorem Dev.transient_shows (d : Dev) : let n := d.transient
    n.scMode = ScMode.duplex ∧ n.sc.retry = true ∧
      n.rd F.SC_CNT_transients 0 = min (d.rd F.SC_CNT_transients 0 + 1) (2 ^ F.SC_CNT_transients.width - 1) := by
  have hcount := Dev.rd_bump d F.SC_CNT_transients 0 (by decide)
  unfold Dev.transient
  dsimp only
  generalize hn : d.rd F.SC_CNT_period_trans 0 + 1 = k
  generalize d.bump F.SC_CNT_transients 0 = e at hcount
  have hbump := e.bump_keeps F.SC_CNT_period_trans 0 (by decide)
  generalize e.bump F.SC_CNT_period_trans 0 = g at hbump
  have hlast := g.wr_keeps F.SC_LAST_outcome 0 1 (by decide)
  generalize g.wr F.SC_LAST_outcome 0 1 = m at hlast
  have hmode := Dev.rd_wr_of_lt m F.SC_STAT_mode 0 (v := ScMode.duplex) (by decide) (by decide)
  have hwrote := m.wr_keeps F.SC_STAT_mode 0 ScMode.duplex (by decide)
  generalize m.wr F.SC_STAT_mode 0 ScMode.duplex = o at hmode hwrote
  generalize Nat.blt (o.rd F.SC_CFG_trans_limit 0) k = tooMany
  have hsc := o.onSc_keeps fun c => { c with retry := true, test := none, overLimit := c.overLimit || tooMany }
  have hretry : (o.onSc fun c => { c with retry := true, test := none, overLimit := c.overLimit || tooMany }).lockstep.retry = true := rfl
  generalize (o.onSc fun c => { c with retry := true, test := none, overLimit := c.overLimit || tooMany }) = p at hsc hretry
  have hresume := p.wdogResume_keeps
  have hlock := p.lockstep_wdogResume
  generalize p.wdogResume = q at hresume hlock
  have hreport := q.scReport_keeps Cls.report Code.TRANSIENT
  have hwake := (q.scReport Cls.report Code.TRANSIENT).wakeCopies_keeps
  have hreads : ∀ f, Foot.avoids ⟨false, [F.FLT_STAT_lost, F.FLT_LOST], []⟩ f = true →
      (q.scReport Cls.report Code.TRANSIENT).wakeCopies.rd f 0 = o.rd f 0 := fun f hf =>
    (hwake.rd f 0 rfl).trans ((hreport.rd f 0 hf).trans ((hresume.rd f 0 rfl).trans (hsc.rd f 0 rfl)))
  refine ⟨(hreads F.SC_STAT_mode (by decide)).trans hmode, ?_, ?_⟩
  · exact (congrArg Sc.retry (((Dev.lockstep_wakeCopies _).trans (hreport.lockstep (by decide))).trans hlock)).trans hretry
  · exact (hreads F.SC_CNT_transients (by decide)).trans ((hwrote.rd F.SC_CNT_transients 0 (by decide)).trans
      ((hlast.rd F.SC_CNT_transients 0 (by decide)).trans ((hbump.rd F.SC_CNT_transients 0 (by decide)).trans hcount)))

/-- The self-test of copy A (0) or B (1) has failed. -/
def Dev.failTest (d : Dev) (k : Nat) : Dev :=
  if k = 0 then (d.put F.SC_LAST_bist_a_fail 0 true).fenceCopy 0 Code.SIMPLEX else (d.put F.SC_LAST_bist_b_fail 0 true).fenceCopy 1 Code.SIMPLEX

theorem Dev.selfTested_window (d : Dev) (a b : Bool) : d.selfTested .window a b =
    if a then if b then d.transient else (d.failTest 1).goSimplex true
    else if b then (d.failTest 0).goSimplex false else ((d.failTest 0).failTest 1).scHalt := by
  cases a <;> cases b <;> rfl

theorem Dev.failTest_fenced (d : Dev) {k : Nat} (h : k < 2) : (d.failTest k).fenced Kind.safety k = true := by
  obtain rfl | rfl : k = 0 ∨ k = 1 := by omega
  · exact Dev.fenceCopy_fenced ..
  · exact Dev.fenceCopy_fenced ..

theorem Dev.failTest_leaves (d : Dev) (k : Nat) : (d.failTest k).rd F.SC_CFG_grace 0 = d.rd F.SC_CFG_grace 0 ∧ (d.failTest k).time = d.time := by
  have hfence : ∀ (e : Dev) (j : Nat), (e.fenceCopy j Code.SIMPLEX).rd F.SC_CFG_grace 0 = e.rd F.SC_CFG_grace 0 ∧
      (e.fenceCopy j Code.SIMPLEX).time = e.time := fun e j =>
    ⟨(e.fenceCopy_keeps j Code.SIMPLEX 0).rd F.SC_CFG_grace 0 (by decide), (e.fenceCopy_keeps j Code.SIMPLEX 0).time⟩
  unfold Dev.failTest
  split
  · obtain ⟨h1, h2⟩ := hfence (d.put F.SC_LAST_bist_a_fail 0 true) 0
    have hput := d.put_keeps F.SC_LAST_bist_a_fail 0 true (by decide)
    exact ⟨h1.trans (hput.rd F.SC_CFG_grace 0 (by decide)), h2.trans hput.time⟩
  · obtain ⟨h1, h2⟩ := hfence (d.put F.SC_LAST_bist_b_fail 0 true) 1
    have hput := d.put_keeps F.SC_LAST_bist_b_fail 0 true (by decide)
    exact ⟨h1.trans (hput.rd F.SC_CFG_grace 0 (by decide)), h2.trans hput.time⟩

/-- A failed self-test of one copy leaves the other one alone (R276). -/
theorem Dev.failTest_solo (d : Dev) {k : Nat} (hk : k < 2) (copyA : Bool) : let n := (d.failTest k).goSimplex copyA
    n.scMode = soloMode copyA ∧ n.fenced Kind.safety k = true ∧ n.flag F.SC_STAT_grace 0 = true ∧
      n.sc.graceEnd = some (d.time + 80000000 * d.rd F.SC_CFG_grace 0) := by
  have hfence := d.failTest_fenced hk
  obtain ⟨hcfg, htime⟩ := d.failTest_leaves k
  generalize d.failTest k = e at hfence hcfg htime
  obtain ⟨hmode, hgrace, hlock⟩ := e.goSimplex_shows copyA
  refine ⟨hmode, ((Dev.FaultsGrow.refl e).goSimplex copyA).fenced hfence, hgrace, ?_⟩
  rw [← hcfg, ← htime]
  exact congrArg Sc.graceEnd hlock

end Sys2Proof.Machine
end

section
/-! The loss of redundancy by the checker, a delay register or an input path (R270, R276). -/

namespace Sys2Proof.Machine

/-! ### The copies -/

theorem Dev.copy_setCopy (d : Dev) (a b : Bool) (v : ScCopy) : (d.setCopy a v).copy b = if b = a then v else d.copy b := by
  cases a <;> cases b <;> rfl

theorem Dev.copy_setCopy_other (d : Dev) (a : Bool) (v : ScCopy) : (d.setCopy a v).copy (!a) = d.copy (!a) :=
  (d.copy_setCopy a (!a) v).trans (if_neg (by cases a <;> decide))

theorem Dev.copy_congr {d e : Dev} (h : e.sc = d.sc) (a : Bool) : e.copy a = d.copy a := by unfold Dev.copy; rw [h]

theorem Dev.copy_of_lockstep {d e : Dev} (h : e.lockstep = d.lockstep) (a : Bool) : e.copy a = d.copy a := by
  have hA := congrArg Sc.copyA h
  have hB := congrArg Sc.copyB h
  cases a
  · exact hB
  · exact hA

theorem Dev.inSimplex_of_solo {d : Dev} {copyA : Bool} (h : d.scMode = soloMode copyA) : d.inSimplex = true := by
  unfold Dev.inSimplex
  rw [h]
  cases copyA <;> rfl

theorem Dev.inSimplex_of_duplex {d : Dev} (h : d.scMode = ScMode.duplex) : d.inSimplex = false := by
  unfold Dev.inSimplex
  rw [h]
  rfl

theorem Dev.storingCopy_of_duplex {d : Dev} (h : d.scMode = ScMode.duplex) : d.storingCopy = .copyA := by
  unfold Dev.storingCopy
  rw [h]
  rfl

/-! ### The end of a window, but for its stores -/

/-- The next window starts (R266, R271). -/
def Dev.nextWindow (d : Dev) (w : ScClosed) (request : Bool) : Dev :=
  let next := { w.arch with irq := w.arch.irq || request }
  let d := d.onSc fun c =>
    { c with window := c.window + 1, retry := false, copyA := {}, copyB := {}, checkpoint := next.interrupt, received := none,
             wfi := w.wfi && !next.irq }
  if request then d.withFlt { d.flt with request := false } else d

theorem Dev.endWindow_eq (d : Dev) (w : ScClosed) (request : Bool) (ws : List BankWait) :
    d.endWindow w request ws = ((d.nextWindow w request).releaseAll d.storingCopy w.delay ws).wakeCopies := rfl

theorem Dev.nextWindow_regs (d : Dev) (w : ScClosed) (request : Bool) : (d.nextWindow w request).regs = d.regs := by
  unfold Dev.nextWindow
  cases request <;> rfl

theorem Dev.nextWindow_shows (d : Dev) (w : ScClosed) (request : Bool) : let n := d.nextWindow w request
    n.sc.window = d.sc.window + 1 ∧ n.sc.retry = false ∧ n.sc.copyA = {} ∧ n.sc.copyB = {} ∧
      n.sc.checkpoint = ScArch.interrupt { w.arch with irq := w.arch.irq || request } ∧ n.mb = d.mb ∧ n.scMode = d.scMode ∧
      ∀ f i, n.rd f i = d.rd f i := by
  unfold Dev.nextWindow
  cases request <;> exact ⟨rfl, rfl, rfl, rfl, rfl, rfl, rfl, fun _ _ => rfl⟩

/-! ### A broken input path (R276) -/

/-- The number by which the fence table names a copy. -/
def copyIndex (copyA : Bool) : Nat := if copyA then 0 else 1

/-- A copy whose input path is broken leaves the other one alone. -/
def Dev.pathLost (d : Dev) (copyA : Bool) : Dev :=
  (((d.scNote 6).fenceCopy (copyIndex copyA) Code.INPUT_PATH).goSimplex (!copyA)).setCopy copyA {}

theorem Dev.inputPath_eq (d : Dev) (copyA : Bool) : d.inputPath copyA = (d.pathLost copyA).carryOn (!copyA) := rfl

theorem Dev.pathLost_shows (d : Dev) (copyA : Bool) : let n := d.pathLost copyA
    n.scMode = soloMode (!copyA) ∧ n.fenced Kind.safety (copyIndex copyA) = true ∧ n.copy (!copyA) = d.copy (!copyA) ∧
      n.sc.received = d.sc.received ∧ n.sc.window = d.sc.window := by
  unfold Dev.pathLost
  have hnote : (d.scNote 6).lockstep = d.lockstep := (d.scNote_keeps 6).lockstep (by decide)
  generalize d.scNote 6 = e at hnote
  have hfence := e.fenceCopy_fenced (copyIndex copyA) Code.INPUT_PATH 0
  have hleft : (e.fenceCopy (copyIndex copyA) Code.INPUT_PATH).lockstep = e.lockstep := (e.fenceCopy_keeps ..).lockstep (by decide)
  generalize e.fenceCopy (copyIndex copyA) Code.INPUT_PATH = g at hfence hleft
  obtain ⟨hmode, -, hlock⟩ := g.goSimplex_shows (!copyA)
  have hgrow := ((Dev.FaultsGrow.refl g).goSimplex (!copyA)).fenced hfence
  generalize g.goSimplex (!copyA) = m at hmode hlock hgrow
  have hd := hleft.trans hnote
  rw [hd] at hlock
  have hcopy : m.copy (!copyA) = d.copy (!copyA) := by
    have hA := congrArg Sc.copyA hlock
    have hB := congrArg Sc.copyB hlock
    cases copyA
    · exact hA
    · exact hB
  have hreceived : (m.setCopy copyA {}).sc.received = m.sc.received := by cases copyA <;> rfl
  have hwindow : (m.setCopy copyA {}).sc.window = m.sc.window := by cases copyA <;> rfl
  have hgot := congrArg Sc.received hlock
  have hcount := congrArg Sc.window hlock
  exact ⟨((m.setCopy_keeps copyA {}).rd F.SC_STAT_mode 0 (by decide)).trans hmode, hgrow, (m.copy_setCopy_other copyA {}).trans hcopy,
    hreceived.trans hgot, hwindow.trans hcount⟩

/-- The other copy has not closed its window: it goes on in it. -/
theorem Dev.inputPath_open {d : Dev} {copyA : Bool} (hopen : (d.copy (!copyA)).closed = none) : let n := d.inputPath copyA
    n.scMode = soloMode (!copyA) ∧ n.fenced Kind.safety (copyIndex copyA) = true ∧ n.sc.received = d.sc.received := by
  obtain ⟨hmode, hfence, hcopy, hreceived, -⟩ := d.pathLost_shows copyA
  have heq : d.inputPath copyA = d.pathLost copyA := by
    rw [d.inputPath_eq]
    generalize d.pathLost copyA = e at hmode hcopy
    unfold Dev.carryOn
    rw [Dev.inSimplex_of_solo hmode, if_neg (by decide), hcopy, hopen]
  dsimp only
  rw [heq]
  exact ⟨hmode, hfence, hreceived⟩

/-- The other copy has closed its window, without a store: it ends without comparison. -/
theorem Dev.inputPath_closed {d : Dev} {copyA : Bool} {w : ScClosed} (hclosed : (d.copy (!copyA)).closed = some w) (hdelay : w.delay = []) :
    let n := d.inputPath copyA
    n.scMode = soloMode (!copyA) ∧ n.sc.window = d.sc.window + 1 := by
  obtain ⟨hmode, -, hcopy, -, hwindow⟩ := d.pathLost_shows copyA
  have heq : d.inputPath copyA = ((d.pathLost copyA).nextWindow w w.request).wakeCopies := by
    rw [d.inputPath_eq]
    generalize d.pathLost copyA = e at hmode hcopy
    unfold Dev.carryOn
    rw [Dev.inSimplex_of_solo hmode, if_neg (by decide), hcopy, hclosed]
    dsimp only
    rw [e.endWindow_eq, hdelay]
    rfl
  dsimp only
  rw [heq]
  generalize d.pathLost copyA = e at hmode hwindow
  obtain ⟨hnext, -, -, -, -, -, hkept, -⟩ := e.nextWindow_shows w w.request
  generalize e.nextWindow w w.request = g at hnext hkept
  exact ⟨(g.wakeCopies_keeps.rd F.SC_STAT_mode 0 (by decide)).trans (hkept.trans hmode),
    (congrArg Sc.window g.lockstep_wakeCopies).trans (hnext.trans (congrArg (· + 1) hwindow))⟩

theorem Dev.inputPathBoth_shows (d : Dev) : d.inputPathBoth.scMode = ScMode.halted ∧ d.inputPathBoth.flag F.FLT_SAFE_safe 0 = true :=
  Dev.scHalt_shows _

/-! ### Faults of the checker and of the delay registers -/

/-- Redundancy is lost in DUPLEX (R276). -/
theorem Dev.lostRedundancy_duplex {d : Dev} (h : d.scMode = ScMode.duplex) (k : Nat) : d.lostRedundancy k =
    if k < 3 then ((d.scNote (if k = 0 then 4 else if k < 3 then 5 else 6)).onSc fun c => { c with retry := false }).rollBack
      (if k = 0 then .checker else .parity (k == 1))
    else if k = 5 then d.inputPathBoth else d.inputPath (k == 3) := by
  unfold Dev.lostRedundancy
  dsimp only
  rw [if_pos h]

theorem Dev.lostRedundancy_rolls {d : Dev} (h : d.scMode = ScMode.duplex) {k : Nat} (hk : k < 3) : let n := d.lostRedundancy k
    n.scMode = ScMode.rollback ∧ n.sc.test = some (if k = 0 then .checker else .parity (k == 1)) ∧ n.sc.window = d.sc.window ∧ n.mb = d.mb := by
  dsimp only
  rw [Dev.lostRedundancy_duplex h, if_pos hk]
  generalize (if k = 0 then (4 : Nat) else if k < 3 then 5 else 6) = cause
  generalize (if k = 0 then ScTest.checker else .parity (k == 1)) = test
  have hnote := d.scNote_keeps cause
  have hwindow : (d.scNote cause).sc.window = d.sc.window := congrArg Sc.window (hnote.parts .sc (by decide))
  have hmb := hnote.parts .mb (by decide)
  generalize d.scNote cause = e at hwindow hmb
  obtain ⟨left, hsc⟩ := (e.onSc fun c => { c with retry := false }).rollBack_sc test
  refine ⟨Dev.rollBack_mode .., congrArg Sc.test hsc, (congrArg Sc.window hsc).trans hwindow, ?_⟩
  exact ((Dev.rollBack_keeps ..).parts .mb (by decide)).trans (((e.onSc_keeps _).parts .mb (by decide)).trans hmb)

/-- CHECKER_FAULT in DUPLEX (R276). -/
theorem Dev.checkerFault_shows {d : Dev} (h : d.scMode = ScMode.duplex) (k : Fin 6) : let n := d.lostRedundancy k
    (k.val < 3 → n.scMode = ScMode.rollback ∧ n.sc.test = some (if k.val = 0 then .checker else .parity (k.val == 1))) ∧
    (k.val = 3 → d.sc.copyB.closed = none → n.scMode = ScMode.simplexB ∧ n.fenced Kind.safety 0 = true) ∧
    (k.val = 4 → d.sc.copyA.closed = none → n.scMode = ScMode.simplexA ∧ n.fenced Kind.safety 1 = true) ∧
    (∀ w, k.val = 4 → d.sc.copyA.closed = some w → w.delay = [] → n.scMode = ScMode.simplexA ∧ n.sc.window = d.sc.window + 1) ∧
    (k.val = 5 → n.scMode = ScMode.halted ∧ n.flag F.FLT_SAFE_safe 0 = true) := by
  have hpath : ∀ a, k.val = (if a then 3 else 4) → d.lostRedundancy k = d.inputPath a := fun a hk => by
    rw [Dev.lostRedundancy_duplex h, hk]
    cases a <;> rfl
  refine ⟨fun hk => ?_, fun hk hopen => ?_, fun hk hopen => ?_, fun w hk hclosed hdelay => ?_, fun hk => ?_⟩
  · obtain ⟨hmode, htest, -⟩ := Dev.lostRedundancy_rolls h hk
    exact ⟨hmode, htest⟩
  · rw [hpath true hk]
    obtain ⟨hmode, hfence, -⟩ := Dev.inputPath_open (d := d) (copyA := true) hopen
    exact ⟨hmode, hfence⟩
  · rw [hpath false hk]
    obtain ⟨hmode, hfence, -⟩ := Dev.inputPath_open (d := d) (copyA := false) hopen
    exact ⟨hmode, hfence⟩
  · rw [hpath false hk]
    exact Dev.inputPath_closed (d := d) (copyA := false) hclosed hdelay
  · rw [Dev.lostRedundancy_duplex h, hk]
    exact d.inputPathBoth_shows

/-! ### Joint samples (R270, R271) -/

section
variable {d : Dev} {x y : Word} {rest : List (Word × Word × Word)} (give : Dev → Word → Dev)

/-- Both paths agree in the first joint sample. -/
theorem Dev.takeVote_agreed (z : Word) (h : 1 ≤ d.rd F.SC_CFG_agree_retries 0) :
    d.takeVote ((x, x, z) :: rest) give = give (d.bump F.SC_AGREE_joint 0) x := by
  unfold Dev.takeVote
  obtain ⟨n, hn⟩ : ∃ n, d.rd F.SC_CFG_agree_retries 0 = n + 1 := ⟨_, (Nat.sub_add_cancel h).symm⟩
  have hvote : vote (n + 1) ((x, x, z) :: rest) 0 = (1, x, .agreed) := by simp [vote]
  rw [hn, hvote]
  rfl

/-- The path of copy B is outvoted in the last joint sample. -/
theorem Dev.takeVote_brokenB (hxy : x ≠ y) (h : d.rd F.SC_CFG_agree_retries 0 = 1) : d.takeVote ((x, y, x) :: rest) give =
    (give ((d.bump F.SC_AGREE_joint 0).bump F.SC_CNT_outvoted 0) x).inputPath false := by
  unfold Dev.takeVote
  have hvote : vote 1 ((x, y, x) :: rest) 0 = (1, x, .brokenB) := by simp [vote, hxy]
  rw [h, hvote]
  rfl

/-- The path of copy A is outvoted in the last joint sample. -/
theorem Dev.takeVote_brokenA (hxy : x ≠ y) (h : d.rd F.SC_CFG_agree_retries 0 = 1) : d.takeVote ((x, y, y) :: rest) give =
    (give ((d.bump F.SC_AGREE_joint 0).bump F.SC_CNT_outvoted 0) y).inputPath true := by
  unfold Dev.takeVote
  have hvote : vote 1 ((x, y, y) :: rest) 0 = (1, y, .brokenA) := by simp [vote, hxy]
  rw [h, hvote]
  rfl

end

end Sys2Proof.Machine
end

section
/-! The close of a comparison window (R266 to R269, R271, R275). -/

namespace Sys2Proof.Machine

/-! ### What the checker compares -/

/-- What a delay register writes, but for its parity. -/
def ScStore.shape (s : ScStore) : ScPlace × Word × BitVec 4 := (s.place, s.data, s.mask)

/-- Do two windows agree in what is compared first: signature, count, program counter and the exceptions of bank reads (R267, R275)? -/
def Dev.SameRun (d : Dev) (a b : ScClosed) : Prop :=
  a.sig = b.sig ∧ a.count = b.count ∧ a.arch.pc = b.arch.pc ∧ d.sc.copyA.traps = d.sc.copyB.traps

theorem Dev.SameRun.symm {d : Dev} {a b : ScClosed} (h : d.SameRun a b) : d.SameRun b a := by
  obtain ⟨hsig, hcount, hpc, htraps⟩ := h
  exact ⟨hsig.symm, hcount.symm, hpc.symm, htraps⟩

/-- An agreed window is counted, and a transient limit that was exceeded is taken up. -/
def Dev.countWindow (d : Dev) : Dev :=
  (d.wr64 F.SC_WINDOWS_LO F.SC_WINDOWS_HI 0 (d.rd64 F.SC_WINDOWS_LO F.SC_WINDOWS_HI 0 + 1)).onSc fun c => { c with overLimit := false }

section
variable {d : Dev} {a b : ScClosed} (r : ScRun)

theorem Dev.compareWindow_of_other_run (h : ¬d.SameRun a b) : d.compareWindow a b r = d.scMismatch 1 := by
  unfold Dev.compareWindow
  refine if_pos (Classical.byContradiction fun hnot => h ?_)
  simp only [not_or, not_not] at hnot
  exact hnot

theorem Dev.compareWindow_of_other_stores (h : d.SameRun a b) (hs : a.delay.map ScStore.shape ≠ b.delay.map ScStore.shape) :
    d.compareWindow a b r = d.scMismatch 2 := by
  obtain ⟨hsig, hcount, hpc, htraps⟩ := h
  unfold Dev.compareWindow
  dsimp only
  rw [if_neg (by simp only [hsig, hcount, hpc, htraps, ne_eq, not_true_eq_false, or_self, not_false_eq_true])]
  exact if_pos hs

theorem Dev.compareWindow_of_agreed (h : d.SameRun a b) (hs : a.delay.map ScStore.shape = b.delay.map ScStore.shape)
    (hlimit : d.sc.overLimit = false) : d.compareWindow a b r = d.countWindow.endAgreed a b r := by
  obtain ⟨hsig, hcount, hpc, htraps⟩ := h
  unfold Dev.compareWindow
  dsimp only
  rw [if_neg (by simp only [hsig, hcount, hpc, htraps, ne_eq, not_true_eq_false, or_self, not_false_eq_true]), hlimit]
  exact if_neg (not_not.mpr hs)

end

theorem Dev.countWindow_shows (d : Dev) : let n := d.countWindow
    n.rd64 F.SC_WINDOWS_LO F.SC_WINDOWS_HI 0 = (d.rd64 F.SC_WINDOWS_LO F.SC_WINDOWS_HI 0 + 1) % 2 ^ 64 ∧
      n.sc = { d.sc with overLimit := false } ∧ n.mb = d.mb ∧ n.flt = d.flt ∧ n.scMode = d.scMode ∧
      n.rd F.SC_AGREE_joint 0 = d.rd F.SC_AGREE_joint 0 ∧ n.rd F.SC_CFG_agree_retries 0 = d.rd F.SC_CFG_agree_retries 0 := by
  unfold Dev.countWindow
  have hcount := Dev.rd64_wr64 d F.SC_WINDOWS_LO F.SC_WINDOWS_HI 0 (d.rd64 F.SC_WINDOWS_LO F.SC_WINDOWS_HI 0 + 1) ⟨rfl, rfl⟩ ⟨rfl, rfl⟩ (by decide)
  have hwrote := d.wr64_keeps F.SC_WINDOWS_LO F.SC_WINDOWS_HI 0 (d.rd64 F.SC_WINDOWS_LO F.SC_WINDOWS_HI 0 + 1) (by decide) (by decide)
  generalize d.wr64 F.SC_WINDOWS_LO F.SC_WINDOWS_HI 0 (d.rd64 F.SC_WINDOWS_LO F.SC_WINDOWS_HI 0 + 1) = e at hcount hwrote
  have hsc := e.onSc_keeps fun c => { c with overLimit := false }
  refine ⟨(hsc.rd64 F.SC_WINDOWS_LO F.SC_WINDOWS_HI 0 (by decide) (by decide)).trans hcount, ?_,
    (hsc.parts .mb (by decide)).trans (hwrote.parts .mb (by decide)), (hsc.parts .flt (by decide)).trans (hwrote.parts .flt (by decide)),
    (hsc.rd F.SC_STAT_mode 0 (by decide)).trans (hwrote.rd F.SC_STAT_mode 0 (by decide)),
    (hsc.rd F.SC_AGREE_joint 0 (by decide)).trans (hwrote.rd F.SC_AGREE_joint 0 (by decide)),
    (hsc.rd F.SC_CFG_agree_retries 0 (by decide)).trans (hwrote.rd F.SC_CFG_agree_retries 0 (by decide))⟩
  rw [← hwrote.parts .sc (by decide)]
  rfl

/-! ### An agreed window ends (R271) -/

/-- How the interrupt request is taken at the end of a window: as both copies sampled it, or after one joint sample (R271). -/
def Dev.Takes (d : Dev) (a b : ScClosed) (r : ScRun) (taken : Bool) (joint : Nat) : Prop :=
  (a.request = b.request ∧ taken = a.request ∧ joint = 0) ∨
    (a.request ≠ b.request ∧ 1 ≤ d.rd F.SC_CFG_agree_retries 0 ∧ joint = 1 ∧
      ∃ x z rest, r.joint = (x, x, z) :: rest ∧ taken = (d.flt.request != x))

theorem Dev.Takes.symm {d : Dev} {a b : ScClosed} {r : ScRun} {taken : Bool} {joint : Nat} (h : d.Takes a b r taken joint) :
    d.Takes b a r taken joint := by
  rcases h with ⟨hsame, htaken, hjoint⟩ | ⟨hother, hrest⟩
  · exact .inl ⟨hsame.symm, htaken.trans hsame, hjoint⟩
  · exact .inr ⟨hother.symm, hrest⟩

/-- A device in which an agreed window has been counted and its request taken ends it. -/
theorem Dev.endAgreed_eq {d : Dev} {a b : ScClosed} {r : ScRun} {taken : Bool} {joint : Nat} (h : d.Takes a b r taken joint) :
    ∃ e : Dev, d.endAgreed a b r = e.endWindow a taken r.waits ∧ e.sc = d.sc ∧ e.mb = d.mb ∧ e.scMode = d.scMode ∧
      e.rd64 F.SC_WINDOWS_LO F.SC_WINDOWS_HI 0 = d.rd64 F.SC_WINDOWS_LO F.SC_WINDOWS_HI 0 ∧
      e.rd F.SC_AGREE_joint 0 = min (d.rd F.SC_AGREE_joint 0 + joint) (2 ^ F.SC_AGREE_joint.width - 1) := by
  unfold Dev.endAgreed
  dsimp only
  rcases h with ⟨hsame, rfl, rfl⟩ | ⟨hother, hretries, rfl, x, z, rest, hjoint, rfl⟩
  · rw [if_pos hsame]
    have hlt : d.rd F.SC_AGREE_joint 0 < 2 ^ F.SC_AGREE_joint.width := getBits_lt ..
    exact ⟨d, rfl, rfl, rfl, rfl, rfl, (Nat.min_eq_left (Nat.le_sub_one_of_lt hlt)).symm⟩
  · rw [if_neg hother, hjoint, List.map_cons, Dev.takeVote_agreed _ _ hretries]
    have hbump := d.bump_keeps F.SC_AGREE_joint 0 (by decide)
    refine ⟨d.bump F.SC_AGREE_joint 0, ?_, hbump.parts .sc (by decide), hbump.parts .mb (by decide), hbump.rd F.SC_STAT_mode 0 (by decide),
      hbump.rd64 F.SC_WINDOWS_LO F.SC_WINDOWS_HI 0 (by decide) (by decide), Dev.rd_bump d F.SC_AGREE_joint 0 (by decide)⟩
    cases x <;> rfl

/-- What stands of an agreed window of A's side `a` before its stores are released, where it ends with `taken` and `joint` joint samples. -/
def Dev.Agreed (d n : Dev) (a : ScClosed) (taken : Bool) (joint : Nat) : Prop :=
  n.sc.window = d.sc.window + 1 ∧ n.sc.retry = false ∧ n.scMode = ScMode.duplex ∧ n.sc.copyA = {} ∧ n.sc.copyB = {} ∧
    n.sc.checkpoint = ScArch.interrupt { a.arch with irq := a.arch.irq || taken } ∧ n.mb = d.mb ∧
    n.rd64 F.SC_WINDOWS_LO F.SC_WINDOWS_HI 0 = (d.rd64 F.SC_WINDOWS_LO F.SC_WINDOWS_HI 0 + 1) % 2 ^ 64 ∧
    n.rd F.SC_AGREE_joint 0 = min (d.rd F.SC_AGREE_joint 0 + joint) (2 ^ F.SC_AGREE_joint.width - 1)

theorem Dev.compareWindow_agrees {d : Dev} {a b : ScClosed} {r : ScRun} {taken : Bool} {joint : Nat} (hmode : d.scMode = ScMode.duplex)
    (hrun : d.SameRun a b) (hstores : a.delay.map ScStore.shape = b.delay.map ScStore.shape) (hlimit : d.sc.overLimit = false)
    (htakes : d.Takes a b r taken joint) :
    ∃ n0 : Dev, d.compareWindow a b r = (n0.releaseAll .copyA a.delay r.waits).wakeCopies ∧ d.Agreed n0 a taken joint := by
  obtain ⟨hcount, hsc, hmb, hflt, hkept, hjoint, hretries⟩ := d.countWindow_shows
  rw [Dev.compareWindow_of_agreed r hrun hstores hlimit]
  have htakes' : d.countWindow.Takes a b r taken joint := by
    unfold Dev.Takes at htakes ⊢
    rw [hretries, hflt]
    exact htakes
  generalize d.countWindow = e at hcount hsc hmb hkept hjoint htakes'
  obtain ⟨g, heq, hgsc, hgmb, hgmode, hgcount, hgjoint⟩ := Dev.endAgreed_eq htakes'
  have hduplex := (hgmode.trans hkept).trans hmode
  obtain ⟨hwindow, hretry, hcopyA, hcopyB, hcheck, hnmb, hnmode, hregs⟩ := g.nextWindow_shows a taken
  refine ⟨g.nextWindow a taken, ?_, ?_, hretry, hnmode.trans hduplex, hcopyA, hcopyB, hcheck, hnmb.trans (hgmb.trans hmb), ?_, ?_⟩
  · rw [heq, g.endWindow_eq, Dev.storingCopy_of_duplex hduplex]
  · rw [hwindow, hgsc, hsc]
  · rw [Dev.rd64, hregs, hregs]
    exact hgcount.trans hcount
  · rw [hregs, hgjoint, hjoint]

/-! ### WINDOW_CLOSE -/

/-- What a copy whose instructions are known does as it closes its window. -/
def Dev.endTrace (d : Dev) (r : ScRun) (w : ScClosed) : Dev :=
  if w.delay.any fun s => s.parity != storeParity s then d.lostRedundancy (if r.copyA then 1 else 2)
  else if !d.storesInTurn w.delay r.waits then d
  else if d.inSimplex then d.endWindow w w.request r.waits
  else
    match (d.copy (!r.copyA)).closed with
    | none => d.setCopy r.copyA { d.copy r.copyA with closed := some w }
    | some other => if r.copyA then d.compareWindow w other r else d.compareWindow other w r

section
variable {d : Dev} {r : ScRun} {w0 : ScTrace}

theorem Dev.closeWindow_of_none (h : d.traceOf r = none ∨ d.copyRuns r.copyA = false) : d.closeWindow r = d := by
  unfold Dev.closeWindow
  dsimp only
  rcases h with htrace | hruns
  · rw [htrace]
    split <;> rfl
  · rw [hruns]
    rfl

theorem Dev.closeWindow_of_trace (htrace : d.traceOf r = some w0) (hruns : d.copyRuns r.copyA = true) (hopen : (d.copy r.copyA).closed = none)
    (hwaits : (d.copy r.copyA).waiting = none) (howed : d.owed d.storingCopy = none) : d.closeWindow r = d.endTrace r (d.closedAs w0 r.err) := by
  unfold Dev.closeWindow
  dsimp only
  rw [if_neg (by rw [hruns, hopen, hwaits, howed]; decide), htrace]
  rfl

variable {w : ScClosed}

theorem Dev.endTrace_of_parity (h : ∃ x ∈ w.delay, x.parity ≠ storeParity x) : d.endTrace r w = d.lostRedundancy (if r.copyA then 1 else 2) := by
  obtain ⟨x, hx, hparity⟩ := h
  exact if_pos (List.any_eq_true.mpr ⟨x, hx, show (x.parity != storeParity x) = true from bne_iff_ne.mpr hparity⟩)

section
variable (hparity : ∀ x ∈ w.delay, x.parity = storeParity x) (hturn : d.storesInTurn w.delay r.waits = true)
include hparity hturn

theorem Dev.endTrace_of_simplex (h : d.inSimplex = true) : d.endTrace r w = d.endWindow w w.request r.waits := by
  unfold Dev.endTrace
  rw [if_neg (by simpa only [List.any_eq_true, not_exists, not_and, bne_iff_ne, not_not] using hparity), hturn, h]
  rfl

theorem Dev.endTrace_of_first (h : d.scMode = ScMode.duplex) (hother : (d.copy (!r.copyA)).closed = none) :
    d.endTrace r w = d.setCopy r.copyA { d.copy r.copyA with closed := some w } := by
  unfold Dev.endTrace
  rw [if_neg (by simpa only [List.any_eq_true, not_exists, not_and, bne_iff_ne, not_not] using hparity), hturn, Dev.inSimplex_of_duplex h, hother]
  rfl

theorem Dev.endTrace_of_second (h : d.scMode = ScMode.duplex) {other : ScClosed} (hother : (d.copy (!r.copyA)).closed = some other) :
    d.endTrace r w = if r.copyA then d.compareWindow w other r else d.compareWindow other w r := by
  unfold Dev.endTrace
  rw [if_neg (by simpa only [List.any_eq_true, not_exists, not_and, bne_iff_ne, not_not] using hparity), hturn, Dev.inSimplex_of_duplex h, hother]
  rfl

end

end

end Sys2Proof.Machine
end

section
/-! Agreed loads (R264, R269, R270). -/

namespace Sys2Proof.Machine

/-! ### What a load leaves of the copies -/

theorem Dev.copy_loaded_other (d : Dev) (c : Bool) (l : ScLoad) (v : Option Word) : (d.loaded c l v).copy (!c) = d.copy (!c) :=
  d.copy_setCopy_other c _

theorem Dev.received_loaded (d : Dev) (c : Bool) (l : ScLoad) (v : Option Word) : (d.loaded c l v).sc.received = d.sc.received := by
  cases c <;> rfl

theorem Dev.copyRuns_congr {d e : Dev} (hmode : e.scMode = d.scMode) (hwfi : e.sc.wfi = d.sc.wfi) (a : Bool) : e.copyRuns a = d.copyRuns a := by
  unfold Dev.copyRuns
  rw [hmode, hwfi]

theorem Dev.copyRuns_of_duplex {d : Dev} (hmode : d.scMode = ScMode.duplex) {a : Bool} (h : d.copyRuns a = true) (b : Bool) : d.copyRuns b = true := by
  unfold Dev.copyRuns at h ⊢
  rw [hmode] at h ⊢
  exact h

theorem Dev.copyRuns_loaded (d : Dev) (c : Bool) (l : ScLoad) (v : Option Word) (a : Bool) : (d.loaded c l v).copyRuns a = d.copyRuns a :=
  Dev.copyRuns_congr ((d.loaded_keeps c l v).rd F.SC_STAT_mode 0 (by decide)) (by cases c <;> rfl) a

/-- A copy with one more load done. -/
def ScCopy.withLoad (c : ScCopy) (l : ScLoad) (v : Word) : ScCopy := { c with loads := c.loads ++ [(l, some (forwarded c.delay l v))] }

/-- Both copies receive a value (R270). -/
theorem Dev.deliverLoad_both {d : Dev} (hruns : ∀ a, d.copyRuns a = true) (l : ScLoad) (v : Word) : let n := d.deliverLoad l v
    n.sc.received = some (l.place, v) ∧ n.scMode = d.scMode ∧ ∀ a, n.copy a = (d.copy a).withLoad l v := by
  have hkeeps := d.deliverLoad_keeps l v
  have heq : d.deliverLoad l v = ((d.onSc fun c => { c with received := some (l.place, v) }).loaded true l (some v)).loaded false l (some v) := by
    unfold Dev.deliverLoad
    have hon : ∀ a, (d.onSc fun c => { c with received := some (l.place, v) }).copyRuns a = true := hruns
    dsimp only
    rw [hon, if_pos rfl, Dev.copyRuns_loaded, hon, if_pos rfl]
  refine ⟨?_, hkeeps.rd F.SC_STAT_mode 0 (by decide), fun a => ?_⟩
  · rw [heq, Dev.received_loaded, Dev.received_loaded]
    rfl
  · rw [heq]
    have hcopy : ∀ b, (d.onSc fun c => { c with received := some (l.place, v) }).copy b = d.copy b := fun b => rfl
    generalize (d.onSc fun c => { c with received := some (l.place, v) }) = e at hcopy
    cases a
    · rw [Dev.copy_loaded, show (e.loaded true l (some v)).copy false = e.copy false from e.copy_loaded_other true l (some v), hcopy]
      rfl
    · rw [show ((e.loaded true l (some v)).loaded false l (some v)).copy true = (e.loaded true l (some v)).copy true from
        Dev.copy_loaded_other _ false l (some v), Dev.copy_loaded, hcopy]
      rfl

/-! ### A copy reaches an agreed load in DUPLEX -/

/-- The other copy's wait at a load ends. -/
def Dev.endWait (d : Dev) (a : Bool) : Dev := d.setCopy a { d.copy a with waiting := none }

theorem Dev.endWait_keeps (d : Dev) (a : Bool) : Keeps ⟨false, [], [.sc]⟩ d (d.endWait a) := d.setCopy_keeps a _

theorem Dev.endWait_shows (d : Dev) (a : Bool) : let n := d.endWait (!a)
    n.copy a = d.copy a ∧ n.copy (!a) = { d.copy (!a) with waiting := none } ∧ n.sc.wfi = d.sc.wfi ∧
      (d.copy a).closed = (n.copy a).closed ∧ (d.copy (!a)).closed = (n.copy (!a)).closed := by
  have hother : (d.endWait (!a)).copy a = d.copy a := by
    have h := d.copy_setCopy_other (!a) { d.copy (!a) with waiting := none }
    rwa [Bool.not_not] at h
  have hself : (d.endWait (!a)).copy (!a) = { d.copy (!a) with waiting := none } := d.copy_setCopy_self (!a) _
  refine ⟨hother, hself, ?_, ?_, ?_⟩
  · cases a <;> rfl
  · rw [hother]
  · rw [hself]

section
variable {d : Dev} {a : Bool} {l : ScLoad}

/-- A word that cannot be corrected is an exception of the copy that read it (R264). -/
theorem Dev.reachLoad_of_fault (errs : List (Word × Word × Word)) : let n := d.reachLoad a l none errs
    (n.copy a).loads = (d.copy a).loads ++ [(l, none)] ∧ (n.copy a).waiting = (d.copy a).waiting ∧ n.copy (!a) = d.copy (!a) := by
  have heq : d.reachLoad a l none errs = d.loaded a l none := rfl
  dsimp only
  rw [heq, Dev.copy_loaded]
  exact ⟨rfl, rfl, d.copy_loaded_other a l none⟩

variable {v : Word} (hmode : d.scMode = ScMode.duplex)
include hmode

theorem Dev.reachLoad_of_first (errs : List (Word × Word × Word)) (hother : (d.copy (!a)).waiting = none) :
    d.reachLoad a l (some v) errs = d.setCopy a { d.copy a with waiting := some (l, v, d.time) } := by
  unfold Dev.reachLoad
  dsimp only
  rw [Dev.inSimplex_of_duplex hmode, if_neg (by decide), hother]

theorem Dev.reachLoad_of_agreed (errs : List (Word × Word × Word)) {at_ : Nat} (hother : (d.copy (!a)).waiting = some (l, v, at_)) :
    d.reachLoad a l (some v) errs =
      ((d.endWait (!a)).wr F.SC_AGREE_agreed 0 ((d.endWait (!a)).rd F.SC_AGREE_agreed 0 + 1)).deliverLoad l v := by
  unfold Dev.reachLoad Dev.endWait
  dsimp only
  rw [Dev.inSimplex_of_duplex hmode, if_neg (by decide), hother]
  dsimp only
  rw [if_neg (not_not.mpr rfl), if_pos rfl]

theorem Dev.reachLoad_of_other (errs : List (Word × Word × Word)) {at_ : Nat} {w : Word} (hother : (d.copy (!a)).waiting = some (l, w, at_))
    (hw : w ≠ v) : d.reachLoad a l (some v) errs =
      (d.endWait (!a)).takeVote errs fun e x => e.deliverLoad l (((d.endWait (!a)).scRead l).getD 0 ^^^ x) := by
  unfold Dev.reachLoad Dev.endWait
  dsimp only
  rw [Dev.inSimplex_of_duplex hmode, if_neg (by decide), hother]
  dsimp only
  rw [if_neg (not_not.mpr rfl), if_neg (Ne.symm hw)]

/-- The copy that arrives first waits. -/
theorem Dev.reachLoad_waits (errs : List (Word × Word × Word)) (hother : (d.copy (!a)).waiting = none) : let n := d.reachLoad a l (some v) errs
    (n.copy a).waiting = some (l, v, d.time) ∧ n.copy (!a) = d.copy (!a) ∧ ∀ f i, n.rd f i = d.rd f i := by
  dsimp only
  rw [Dev.reachLoad_of_first hmode errs hother, Dev.copy_setCopy_self]
  exact ⟨rfl, d.copy_setCopy_other a _, fun f i => (d.setCopy_keeps a _).rd f i rfl⟩

variable (hruns : d.copyRuns a = true)
include hruns

theorem Dev.endWait_runs (b : Bool) : (d.endWait (!a)).copyRuns b = true := by
  obtain ⟨-, -, hwfi, -⟩ := d.endWait_shows a
  rw [Dev.copyRuns_congr ((d.endWait_keeps (!a)).rd F.SC_STAT_mode 0 (by decide)) hwfi]
  exact Dev.copyRuns_of_duplex hmode hruns b

/-- Both copies have read the same: they receive it. -/
theorem Dev.reachLoad_agrees (errs : List (Word × Word × Word)) {at_ : Nat} (hother : (d.copy (!a)).waiting = some (l, v, at_)) :
    let n := d.reachLoad a l (some v) errs
    n.sc.received = some (l.place, v) ∧ (n.copy (!a)).waiting = none ∧ n.scMode = ScMode.duplex ∧
      (n.copy a).loads = (d.copy a).loads ++ [(l, some (forwarded (d.copy a).delay l v))] ∧
      (n.copy (!a)).loads = (d.copy (!a)).loads ++ [(l, some (forwarded (d.copy (!a)).delay l v))] ∧
      n.rd F.SC_AGREE_agreed 0 = (d.rd F.SC_AGREE_agreed 0 + 1) % 2 ^ F.SC_AGREE_agreed.width := by
  dsimp only
  rw [Dev.reachLoad_of_agreed hmode errs hother]
  have hrun := Dev.endWait_runs hmode hruns
  obtain ⟨hmine, hother', -⟩ := d.endWait_shows a
  have hkeeps := d.endWait_keeps (!a)
  generalize d.endWait (!a) = e at hrun hmine hother' hkeeps
  have hcount := Dev.rd_wr e F.SC_AGREE_agreed 0 (e.rd F.SC_AGREE_agreed 0 + 1) (by decide)
  have hwrote := e.wr_keeps F.SC_AGREE_agreed 0 (e.rd F.SC_AGREE_agreed 0 + 1) (by decide)
  generalize e.wr F.SC_AGREE_agreed 0 (e.rd F.SC_AGREE_agreed 0 + 1) = g at hcount hwrote
  have hsc := hwrote.parts .sc (by decide)
  have hgmode : g.scMode = e.scMode := hwrote.rd F.SC_STAT_mode 0 (by decide)
  have hemode : e.scMode = d.scMode := hkeeps.rd F.SC_STAT_mode 0 (by decide)
  obtain ⟨hgot, hkept, hcopies⟩ := Dev.deliverLoad_both (d := g)
    (fun b => (Dev.copyRuns_congr hgmode (congrArg Sc.wfi hsc) b).trans (hrun b)) l v
  have hagreed := (g.deliverLoad_keeps l v).rd F.SC_AGREE_agreed 0 (by decide)
  rw [hcopies, hcopies, Dev.copy_congr hsc, Dev.copy_congr hsc, hmine, hother', hagreed, hcount, hkeeps.rd F.SC_AGREE_agreed 0 (by decide)]
  exact ⟨hgot, rfl, hkept.trans (hgmode.trans (hemode.trans hmode)), rfl, rfl, rfl⟩

/-- The device once an outvoted value has been delivered. -/
theorem Dev.deliverLoad_outvoted (got : Word) (hopen : ∀ b, (d.copy b).closed = none) :
    let n := (((d.endWait (!a)).bump F.SC_AGREE_joint 0).bump F.SC_CNT_outvoted 0).deliverLoad l got
    n.sc.received = some (l.place, got) ∧ ∀ b, (n.copy b).closed = none := by
  have hrun := Dev.endWait_runs hmode hruns
  obtain ⟨hmine, hother', -⟩ := d.endWait_shows a
  have hopen' : ∀ b, ((d.endWait (!a)).copy b).closed = none := fun b => by
    rcases Bool.eq_or_eq_not b a with rfl | rfl
    · rw [hmine]; exact hopen b
    · rw [hother']; exact hopen (!a)
  generalize d.endWait (!a) = e at hrun hopen'
  have hjoint := e.bump_keeps F.SC_AGREE_joint 0 (by decide)
  generalize e.bump F.SC_AGREE_joint 0 = g at hjoint
  have hvoted := g.bump_keeps F.SC_CNT_outvoted 0 (by decide)
  generalize g.bump F.SC_CNT_outvoted 0 = m at hvoted
  have hsc : m.sc = e.sc := (hvoted.parts .sc (by decide)).trans (hjoint.parts .sc (by decide))
  have hsame : m.scMode = e.scMode := (hvoted.rd F.SC_STAT_mode 0 (by decide)).trans (hjoint.rd F.SC_STAT_mode 0 (by decide))
  obtain ⟨hgot, -, hcopies⟩ := Dev.deliverLoad_both (d := m) (fun b => (Dev.copyRuns_congr hsame (congrArg Sc.wfi hsc) b).trans (hrun b)) l got
  refine ⟨hgot, fun b => ?_⟩
  rw [hcopies, Dev.copy_congr hsc]
  exact hopen' b

section
variable {at_ : Nat} {w x : Word} {rest : List (Word × Word × Word)} (hother : (d.copy (!a)).waiting = some (l, w, at_)) (hw : w ≠ v)
include hother hw

/-- The copies have read otherwise, and both paths agree in the first joint sample. -/
theorem Dev.reachLoad_votes (z : Word) (hretries : 1 ≤ d.rd F.SC_CFG_agree_retries 0) : let n := d.reachLoad a l (some v) ((x, x, z) :: rest)
    n.sc.received = some (l.place, ((d.endWait (!a)).scRead l).getD 0 ^^^ x) ∧ n.scMode = ScMode.duplex ∧
      n.rd F.SC_AGREE_joint 0 = min (d.rd F.SC_AGREE_joint 0 + 1) (2 ^ F.SC_AGREE_joint.width - 1) := by
  dsimp only
  rw [Dev.reachLoad_of_other hmode _ hother hw]
  have hrun := Dev.endWait_runs hmode hruns
  have hkeeps := d.endWait_keeps (!a)
  generalize d.endWait (!a) = e at hrun hkeeps
  rw [Dev.takeVote_agreed _ _ (by rw [hkeeps.rd F.SC_CFG_agree_retries 0 (by decide)]; exact hretries)]
  have hbump := e.bump_keeps F.SC_AGREE_joint 0 (by decide)
  have hcount := Dev.rd_bump e F.SC_AGREE_joint 0 (by decide)
  generalize (e.scRead l).getD 0 ^^^ x = got
  generalize e.bump F.SC_AGREE_joint 0 = g at hbump hcount
  have hgmode : g.scMode = e.scMode := hbump.rd F.SC_STAT_mode 0 (by decide)
  have hemode : e.scMode = d.scMode := hkeeps.rd F.SC_STAT_mode 0 (by decide)
  obtain ⟨hgot, hkept, -⟩ := Dev.deliverLoad_both (d := g)
    (fun b => (Dev.copyRuns_congr hgmode (congrArg Sc.wfi (hbump.parts .sc (by decide))) b).trans (hrun b)) l got
  rw [hkeeps.rd F.SC_AGREE_joint 0 (by decide)] at hcount
  exact ⟨hgot, hkept.trans (hgmode.trans (hemode.trans hmode)), ((g.deliverLoad_keeps l got).rd F.SC_AGREE_joint 0 (by decide)).trans hcount⟩

variable {y : Word} (hxy : x ≠ y) (hretries : d.rd F.SC_CFG_agree_retries 0 = 1) (hopen : ∀ b, (d.copy b).closed = none)
include hxy hretries hopen

/-- The path of copy B is outvoted: copy A goes on alone (R276). -/
theorem Dev.reachLoad_outvotes_B : let n := d.reachLoad a l (some v) ((x, y, x) :: rest)
    n.scMode = ScMode.simplexA ∧ n.fenced Kind.safety 1 = true ∧ n.sc.received = some (l.place, ((d.endWait (!a)).scRead l).getD 0 ^^^ x) := by
  dsimp only
  rw [Dev.reachLoad_of_other hmode _ hother hw,
    Dev.takeVote_brokenB _ hxy (by rw [(d.endWait_keeps (!a)).rd F.SC_CFG_agree_retries 0 (by decide)]; exact hretries)]
  obtain ⟨hgot, hclosed⟩ := Dev.deliverLoad_outvoted (l := l) hmode hruns (((d.endWait (!a)).scRead l).getD 0 ^^^ x) hopen
  obtain ⟨hsolo, hfence, hkept⟩ := Dev.inputPath_open (copyA := false) (hclosed true)
  exact ⟨hsolo, hfence, hkept.trans hgot⟩

/-- The path of copy A is outvoted: copy B goes on alone (R276). -/
theorem Dev.reachLoad_outvotes_A : let n := d.reachLoad a l (some v) ((x, y, y) :: rest)
    n.scMode = ScMode.simplexB ∧ n.fenced Kind.safety 0 = true ∧ n.sc.received = some (l.place, ((d.endWait (!a)).scRead l).getD 0 ^^^ y) := by
  dsimp only
  rw [Dev.reachLoad_of_other hmode _ hother hw,
    Dev.takeVote_brokenA _ hxy (by rw [(d.endWait_keeps (!a)).rd F.SC_CFG_agree_retries 0 (by decide)]; exact hretries)]
  obtain ⟨hgot, hclosed⟩ := Dev.deliverLoad_outvoted (l := l) hmode hruns (((d.endWait (!a)).scRead l).getD 0 ^^^ y) hopen
  obtain ⟨hsolo, hfence, hkept⟩ := Dev.inputPath_open (copyA := true) (hclosed false)
  exact ⟨hsolo, hfence, hkept.trans hgot⟩

end

end

/-! ### AGREED_LOAD -/

/-- A copy has made its read, with the stores before it in its delay registers. -/
def Dev.madeRead (d : Dev) (a : Bool) (stores : List ScStore) (l : ScLoad) (w : BankWait) : Dev := (d.holdStores a stores).afterScRead a l w

theorem Dev.madeRead_shows (d : Dev) (a : Bool) (stores : List ScStore) (l : ScLoad) (w : BankWait) : let n := d.madeRead a stores l w
    n.copy a = { d.copy a with delay := stores } ∧ n.copy (!a) = d.copy (!a) ∧ n.sc.wfi = d.sc.wfi ∧ n.scMode = d.scMode ∧ n.time = d.time ∧
      n.rd F.SC_AGREE_agreed 0 = d.rd F.SC_AGREE_agreed 0 ∧ n.rd F.SC_AGREE_joint 0 = d.rd F.SC_AGREE_joint 0 ∧
      n.rd F.SC_CFG_agree_retries 0 = d.rd F.SC_CFG_agree_retries 0 := by
  have hmine : (d.holdStores a stores).copy a = { d.copy a with delay := stores } := d.copy_setCopy_self a _
  have hother : (d.holdStores a stores).copy (!a) = d.copy (!a) := d.copy_setCopy_other a _
  have hwfi : (d.holdStores a stores).sc.wfi = d.sc.wfi := by cases a <;> rfl
  have hhold := d.holdStores_keeps a stores
  unfold Dev.madeRead
  generalize d.holdStores a stores = e at hmine hother hwfi hhold
  have hread := e.afterScRead_keeps a l w
  have hsc := hread.parts .sc (by decide)
  have hreads : ∀ f, Foot.avoids ⟨false, [F.MB_BANK_STAT_ue, F.MB_BANK_STAT_ce_cnt, F.MB_BANK_STAT_ue_cnt, F.MB_UE_ADDR, F.MB_CONF_waits,
      F.MB_CONF_max_wait, F.FLT_STAT_lost, F.FLT_LOST], [.sys, .mb, .flt]⟩ f = true → (e.afterScRead a l w).rd f 0 = d.rd f 0 := fun f hf =>
    (hread.rd f 0 hf).trans (hhold.rd f 0 rfl)
  exact ⟨(Dev.copy_congr hsc a).trans hmine, (Dev.copy_congr hsc (!a)).trans hother, (congrArg Sc.wfi hsc).trans hwfi,
    hreads F.SC_STAT_mode (by decide), hread.time.trans hhold.time, hreads F.SC_AGREE_agreed (by decide), hreads F.SC_AGREE_joint (by decide),
    hreads F.SC_CFG_agree_retries (by decide)⟩

/-- The effect of an agreed load that may come. -/
def Dev.agreedLoad (d : Dev) (a : Bool) (p : ScPlace) (e : PathErr) : Dev :=
  (d.madeRead a (d.pendingOf a e.pending) { place := p, bytes := e.bytes } e.turn).reachLoad a { place := p, bytes := e.bytes }
    ((d.scRead { place := p, bytes := e.bytes }).map fun v => lowBytes (v ^^^ e.err) e.bytes) e.joint

theorem Does.of_agreedLoad {s : State} {t : Nat} {a : Bool} {p : ScPlace} {e : PathErr} {P : Dev → Prop} {d : Dev} (hnow : s.now t = d)
    (hmay : d.mayLoad a (d.pendingOf a e.pending) = true) (hagreed : d.isAgreed p = true)
    (hturn : ∀ x, p = .bank x → d.itsTurn (if a then .copyA else .copyB) (bankOf x.toNat) e.turn.turn.others = true)
    (h : P (d.agreedLoad a p e)) : Does s (.agreedLoad t a p e) P := by
  refine Does.of_effect (show exec _ s = execAgreedLoad t a p e s from rfl) ?_
  subst hnow
  have hdone : ∀ turn : Bool, turn = true → ((s.now t).mayLoad a ((s.now t).pendingOf a e.pending) && (s.now t).isAgreed p && turn) = true :=
    fun turn ht => by rw [hmay, hagreed, ht]; rfl
  cases p with
  | bank x =>
    dsimp only
    rw [if_pos (hdone _ (hturn x rfl))]
    exact h
  | setup off =>
    dsimp only
    rw [if_pos (hdone true rfl)]
    exact h

theorem Dev.mayLoad_says {d : Dev} {a : Bool} {stores : List ScStore} (h : d.mayLoad a stores = true) :
    d.copyRuns a = true ∧ (d.copy a).closed = none ∧ (d.copy a).waiting = none := by
  unfold Dev.mayLoad at h
  simp only [Bool.and_eq_true, Bool.not_eq_true', Option.isSome_eq_false_iff, Option.isNone_iff_eq_none] at h
  obtain ⟨⟨⟨hruns, hclosed⟩, hwaiting⟩, -⟩ := h
  exact ⟨hruns, hclosed, hwaiting⟩

end Sys2Proof.Machine
end

section
/-! Comparison windows, self-tests, agreed loads and faults of the safety controller (R266 to R278); obligation O28. -/

namespace Sys2Proof.Machine

/-! ### Firmware that does not execute (R281) -/

section
variable {s : State} {c : Instr} {d : Dev} {f : Dev → Dev}

theorem Does.of_idle_master {t : Nat} {m : Master} (hc : exec c s = fromMaster m t s f) (hm : (m == .sc) = true) (hnow : s.now t = d)
    (hidle : d.fwStores = false) : Does s c fun n => n = d := by
  subst hnow
  obtain rfl := eq_of_beq hm
  exact .of_effect hc (if_neg (by rw [Dev.mayStore, hidle]; exact Bool.false_ne_true))

/-- While no window releases stores a command of the firmware's has no effect (log entry 70). -/
theorem Does.of_idle (h : byFirmware c = true) (hnow : s.now c.time = d) (hidle : d.fwStores = false) : Does s c fun n => n = d := by
  have hnot : ¬d.fwStores = true := by rw [hidle]; exact Bool.false_ne_true
  subst hnow
  cases c
  case registerWrite t m off bytes data => exact .of_idle_master (show exec _ s = execRegisterWrite t m off bytes data s from rfl) h rfl hidle
  case qpEnable t m q => exact .of_idle_master (show exec _ s = execQpEnable t m q s from rfl) h rfl hidle
  case sealRequest t m => exact .of_idle_master (show exec _ s = execSealRequest t m s from rfl) h rfl hidle
  case slackMinRestart t m l => exact .of_idle_master (show exec _ s = execSlackMinRestart t m l s from rfl) h rfl hidle
  case recover t m k => exact .of_idle_master (show exec _ s = execRecover t m k s from rfl) h rfl hidle
  case slotCapture t m sel slot => exact .of_idle_master (show exec _ s = execSlotCapture t m sel slot s from rfl) h rfl hidle
  case scShadowWrite | scCommit | stageStart | stageStop | urgentRequest | latchClear | forceAct | forceOff | release | preset | declareDead
    | fwReady | wdogService | accept | refuse | kick | continueStage | stopStage | bankHandover | fltFence | fltSafe | sleepRequest | calOffset
    | calGain | calBoth | compareArm | coeffSwapRequest => exact .of_effect rfl (if_neg hnot)
  all_goals exact absurd h Bool.false_ne_true

end

/-! ### WINDOW_CLOSE -/

theorem Dev.setCopy_window (d : Dev) (a : Bool) (v : ScCopy) : (d.setCopy a v).sc.window = d.sc.window := by cases a <;> rfl

section
variable {d : Dev} {r : ScRun} {w0 : ScTrace} {w : ScClosed}
  (hparity : ∀ x ∈ storesOf w0.retired, x.parity = storeParity x) (hturn : d.storesInTurn (storesOf w0.retired) r.waits = true)
include hparity hturn

theorem Dev.endTrace_first (hmode : d.scMode = ScMode.duplex) (hother : (d.copy (!r.copyA)).closed = none) :
    let n := d.endTrace r (d.closedAs w0 r.err)
    (n.copy r.copyA).closed = some (d.closedAs w0 r.err) ∧ n.copy (!r.copyA) = d.copy (!r.copyA) ∧ n.sc.window = d.sc.window ∧ n.regs = d.regs ∧
      n.mb = d.mb := by
  dsimp only
  rw [Dev.endTrace_of_first hparity hturn hmode hother, Dev.copy_setCopy_self]
  exact ⟨rfl, d.copy_setCopy_other r.copyA _, d.setCopy_window r.copyA _, rfl, rfl⟩

theorem Dev.endTrace_agrees {taken : Bool} {joint : Nat} (hmode : d.scMode = ScMode.duplex) (hother : (d.copy (!r.copyA)).closed = some w)
    (hlimit : d.sc.overLimit = false) (hrun : d.SameRun w (d.closedAs w0 r.err))
    (hshape : w.delay.map ScStore.shape = (storesOf w0.retired).map ScStore.shape) (htakes : d.Takes (d.closedAs w0 r.err) w r taken joint) :
    ∃ n0 : Dev, d.endTrace r (d.closedAs w0 r.err) =
        (n0.releaseAll .copyA (if r.copyA then storesOf w0.retired else w.delay) r.waits).wakeCopies ∧
      d.Agreed n0 (if r.copyA then d.closedAs w0 r.err else w) taken joint := by
  rw [Dev.endTrace_of_second hparity hturn hmode hother]
  cases r.copyA with
  | true => exact Dev.compareWindow_agrees hmode hrun.symm hshape.symm hlimit htakes
  | false => exact Dev.compareWindow_agrees hmode hrun hshape hlimit htakes.symm

theorem Dev.endTrace_simplex (h : d.inSimplex = true) :
    ∃ n0 : Dev, d.endTrace r (d.closedAs w0 r.err) = (n0.releaseAll d.storingCopy (storesOf w0.retired) r.waits).wakeCopies ∧
      n0.sc.window = d.sc.window + 1 ∧ n0.scMode = d.scMode ∧ n0.mb = d.mb ∧
      n0.rd64 F.SC_WINDOWS_LO F.SC_WINDOWS_HI 0 = d.rd64 F.SC_WINDOWS_LO F.SC_WINDOWS_HI 0 := by
  rw [Dev.endTrace_of_simplex hparity hturn h, Dev.endWindow_eq]
  obtain ⟨hwindow, -, -, -, -, hmb, hmode, hregs⟩ := d.nextWindow_shows (d.closedAs w0 r.err) (d.closedAs w0 r.err).request
  refine ⟨_, rfl, hwindow, hmode, hmb, ?_⟩
  rw [Dev.rd64, hregs, hregs]
  rfl

theorem Dev.endTrace_mismatch {cause : Nat} (hmode : d.scMode = ScMode.duplex) (hother : (d.copy (!r.copyA)).closed = some w)
    (h : cause = 1 ∧ ¬d.SameRun w (d.closedAs w0 r.err) ∨ cause = 2 ∧ d.SameRun w (d.closedAs w0 r.err) ∧
      w.delay.map ScStore.shape ≠ (storesOf w0.retired).map ScStore.shape) : d.endTrace r (d.closedAs w0 r.err) = d.scMismatch cause := by
  rw [Dev.endTrace_of_second hparity hturn hmode hother]
  rcases h with ⟨rfl, hother⟩ | ⟨rfl, hrun, hshape⟩
  · cases r.copyA with
    | true => exact Dev.compareWindow_of_other_run r fun hrun => hother hrun.symm
    | false => exact Dev.compareWindow_of_other_run r hother
  · cases r.copyA with
    | true => exact Dev.compareWindow_of_other_stores r hrun.symm (Ne.symm hshape)
    | false => exact Dev.compareWindow_of_other_stores r hrun hshape

end

/-- A copy that has waited for 2 µs lags (R268). -/
theorem Dev.lags_of {d : Dev} {a : Bool} {since : Nat} (h : waitsSince (d.copy a) = some since) (hlong : since + 1600 ≤ d.time) : d.lags = true := by
  unfold Dev.lags
  refine List.any_eq_true.mpr ⟨d.copy a, ?_, ?_⟩
  · cases a
    · exact List.mem_cons_of_mem _ List.mem_cons_self
    · exact List.mem_cons_self
  · rw [h]
    exact Nat.ble_eq_true_of_le hlong

/-! ### AGREED_LOAD -/

section
variable {d : Dev} {a : Bool} {p : ScPlace} {e : PathErr}

theorem Dev.agreedLoad_of_fault (h : d.scRead { place := p, bytes := e.bytes } = none) : d.agreedLoad a p e =
    (d.madeRead a (d.pendingOf a e.pending) { place := p, bytes := e.bytes } e.turn).reachLoad a { place := p, bytes := e.bytes } none e.joint := by
  unfold Dev.agreedLoad
  rw [h]
  rfl

theorem Dev.agreedLoad_of_value (h : (d.scRead { place := p, bytes := e.bytes }).isSome = true) : d.agreedLoad a p e =
    (d.madeRead a (d.pendingOf a e.pending) { place := p, bytes := e.bytes } e.turn).reachLoad a { place := p, bytes := e.bytes }
      (some (lowBytes ((d.scRead { place := p, bytes := e.bytes }).getD 0 ^^^ e.err) e.bytes)) e.joint := by
  obtain ⟨v, hv⟩ := Option.isSome_iff_exists.mp h
  unfold Dev.agreedLoad
  rw [hv]
  rfl

theorem Dev.madeRead_endWait (stores : List ScStore) (l : ScLoad) (w : BankWait) : (d.madeRead a stores l w).endWait (!a) =
    ((d.holdStores a stores).afterScRead a l w).setCopy (!a) { d.copy (!a) with waiting := none } := by
  obtain ⟨-, hother, -⟩ := d.madeRead_shows a stores l w
  rw [Dev.endWait, hother]
  rfl

end

/-! ### The start of the firmware -/

/-- The registers of the injection test's end (R278). -/
def Dev.showTest (d : Dev) (steps : BitVec 7) : Dev :=
  ((d.wr F.SC_BOOT_TEST_step 0 steps.toNat).put F.SC_BOOT_TEST_done 0 true).put F.SC_BOOT_TEST_pass 0 (steps.toNat == 127)

/-- The injection test's outcome (R278). -/
def Dev.testEnds (d : Dev) (steps : BitVec 7) : Dev :=
  if steps.toNat == 127 then ((d.showTest steps).wr F.SC_STAT_mode 0 ScMode.duplex).onSc fun c => { c with checkpoint := { pc := Config.firmwareEntry } }
  else ((d.showTest steps).wr F.SC_STAT_mode 0 ScMode.halted).post
    { kind := Kind.safety, index := 0, cls := Cls.report, code := Code.ofFree (Config.safetyCode 3), time := ((d.showTest steps).wr F.SC_STAT_mode 0 ScMode.halted).time,
      detail := (Config.reportDetail Kind.safety (Code.ofFree (Config.safetyCode 3))).toNat }

theorem Dev.testEnds_shows (d : Dev) (steps : BitVec 7) : let n := d.testEnds steps
    n.flag F.SC_BOOT_TEST_done 0 = true ∧ n.scMode = (if steps = 127 then ScMode.duplex else ScMode.halted) ∧
      (steps = 127 → n.sc.checkpoint = { pc := Config.firmwareEntry }) := by
  have hdone : (d.showTest steps).flag F.SC_BOOT_TEST_done 0 = true :=
    ((Dev.put_keeps _ F.SC_BOOT_TEST_pass 0 _ (by decide)).flag F.SC_BOOT_TEST_done 0 (by decide)).trans
      (Dev.flag_put _ F.SC_BOOT_TEST_done 0 true (by decide) rfl)
  have hsteps : (steps.toNat == 127) = decide (steps = 127) := by
    rw [Bool.eq_iff_iff, beq_iff_eq, decide_eq_true_eq]
    exact ⟨fun h => BitVec.eq_of_toNat_eq h, fun h => congrArg BitVec.toNat h⟩
  unfold Dev.testEnds
  rw [hsteps]
  generalize d.showTest steps = e at hdone
  by_cases hall : steps = 127
  · rw [if_pos (decide_eq_true hall), if_pos hall]
    have hmode := Dev.rd_wr_of_lt e F.SC_STAT_mode 0 (v := ScMode.duplex) (by decide) (by decide)
    have hwrote := e.wr_keeps F.SC_STAT_mode 0 ScMode.duplex (by decide)
    generalize e.wr F.SC_STAT_mode 0 ScMode.duplex = g at hmode hwrote
    exact ⟨((g.onSc_keeps _).flag F.SC_BOOT_TEST_done 0 (by decide)).trans ((hwrote.flag F.SC_BOOT_TEST_done 0 (by decide)).trans hdone),
      ((g.onSc_keeps _).rd F.SC_STAT_mode 0 (by decide)).trans hmode, fun _ => rfl⟩
  · rw [if_neg (by rw [decide_eq_false hall]; exact Bool.false_ne_true), if_neg hall]
    have hmode := Dev.rd_wr_of_lt e F.SC_STAT_mode 0 (v := ScMode.halted) (by decide) (by decide)
    have hwrote := e.wr_keeps F.SC_STAT_mode 0 ScMode.halted (by decide)
    generalize e.wr F.SC_STAT_mode 0 ScMode.halted = g at hmode hwrote
    exact ⟨((g.post_keeps _).flag F.SC_BOOT_TEST_done 0 (by decide)).trans ((hwrote.flag F.SC_BOOT_TEST_done 0 (by decide)).trans hdone),
      ((g.post_keeps _).rd F.SC_STAT_mode 0 (by decide)).trans hmode, fun h => absurd h hall⟩

/-! ### Periods of transients and of grace -/

/-- A counting period of transients has ended (R274). -/
def Dev.endPeriod (d : Dev) (due : Nat) : Dev := (d.onSc fun c => { c with period := due }).wr F.SC_CNT_period_trans 0 0

theorem Dev.endPeriod_shows (d : Dev) (due : Nat) : (d.endPeriod due).rd F.SC_CNT_period_trans 0 = 0 ∧ (d.endPeriod due).sc.period = due :=
  ⟨Dev.rd_wr_of_lt _ F.SC_CNT_period_trans 0 (by decide) (by decide),
    congrArg Sc.period ((Dev.wr_keeps (d.onSc fun c => { c with period := due }) F.SC_CNT_period_trans 0 0 (by decide)).parts .sc (by decide))⟩

/-- The grace time ends (R277). -/
def Dev.endGrace (d : Dev) : Dev :=
  (((d.onSc fun c => { c with graceEnd := none }).put F.SC_STAT_grace 0 false).wr F.SC_STAT_grace_left 0 0).scSafe 1

theorem Dev.endGrace_shows (d : Dev) : d.endGrace.sc.graceEnd = none ∧ d.endGrace.flag F.SC_STAT_grace 0 = false ∧
    d.endGrace.flag F.FLT_SAFE_safe 0 = true ∧ d.endGrace.scMode = d.scMode := by
  unfold Dev.endGrace
  have hsc := d.onSc_keeps fun c => { c with graceEnd := none }
  have hnone : (d.onSc fun c => { c with graceEnd := none }).sc.graceEnd = none := rfl
  generalize (d.onSc fun c => { c with graceEnd := none }) = e at hsc hnone
  have hoff := Dev.flag_put e F.SC_STAT_grace 0 false (by decide) rfl
  have hput := e.put_keeps F.SC_STAT_grace 0 false (by decide)
  generalize e.put F.SC_STAT_grace 0 false = g at hoff hput
  have hwrote := g.wr_keeps F.SC_STAT_grace_left 0 0 (by decide)
  generalize g.wr F.SC_STAT_grace_left 0 0 = m at hwrote
  obtain ⟨hsafe, hlock⟩ := m.scSafe_shows 1
  have hkeeps := m.scSafe_keeps 1
  have hgrace := congrArg Sc.graceEnd hlock
  have hleft : m.sc.graceEnd = e.sc.graceEnd := congrArg Sc.graceEnd ((hwrote.parts .sc (by decide)).trans (hput.parts .sc (by decide)))
  exact ⟨hgrace.trans (hleft.trans hnone), (hkeeps.flag F.SC_STAT_grace 0 (by decide)).trans ((hwrote.flag F.SC_STAT_grace 0 (by decide)).trans hoff), hsafe,
    (hkeeps.rd F.SC_STAT_mode 0 (by decide)).trans ((hwrote.rd F.SC_STAT_mode 0 (by decide)).trans ((hput.rd F.SC_STAT_mode 0 (by decide)).trans
      (hsc.rd F.SC_STAT_mode 0 (by decide))))⟩

/-- The end of the self-tests after a mismatch (R273, R276). -/
theorem Dev.selfTested_shows (d : Dev) (a b : Bool) : let n := d.selfTested .window a b
    (a = true → b = true → n.scMode = ScMode.duplex ∧ n.sc.retry = true ∧
      n.rd F.SC_CNT_transients 0 = min (d.rd F.SC_CNT_transients 0 + 1) (2 ^ F.SC_CNT_transients.width - 1)) ∧
    (a = true → b = false → n.scMode = ScMode.simplexA ∧ n.fenced Kind.safety 1 = true ∧ n.flag F.SC_STAT_grace 0 = true ∧
      n.sc.graceEnd = some (d.time + 80000000 * d.rd F.SC_CFG_grace 0)) ∧
    (a = false → b = true → n.scMode = ScMode.simplexB ∧ n.fenced Kind.safety 0 = true ∧ n.flag F.SC_STAT_grace 0 = true) ∧
    (a = false → b = false → n.scMode = ScMode.halted ∧ n.flag F.FLT_SAFE_safe 0 = true) := by
  dsimp only
  rw [d.selfTested_window]
  refine ⟨?both, ?onlyA, ?onlyB, ?none⟩
  case both =>
    rintro rfl rfl
    exact d.transient_shows
  case onlyA =>
    rintro rfl rfl
    exact d.failTest_solo (k := 1) (by decide) true
  case onlyB =>
    rintro rfl rfl
    obtain ⟨hmode, hfence, hgrace, -⟩ := d.failTest_solo (k := 0) (by decide) false
    exact ⟨hmode, hfence, hgrace⟩
  case none =>
    rintro rfl rfl
    exact Dev.scHalt_shows _

/-! ### The obligation -/

/-- Settles O28: each command is a step of the device, whose outcome the layers on rollback, redundancy, windows and agreed loads give. -/
theorem copiesInLockstep : Obligations.CopiesInLockstep := by
  unfold Obligations.CopiesInLockstep
  intro s t d
  have hnow : s.now t = d := rfl
  clear_value d
  have hclose : ∀ r, exec (.windowClose t r) s = effect t s fun d => d.closeWindow r := fun r => rfl
  refine ⟨?windows, ?idle, ?parity, ?mismatch, ?prompt, ?firmware, ?tests, ?loads, ?faults, ?period, ?grace, ?injection⟩
  case windows =>
    intro r w0 a stores asked htrace hparity hruns hopen hwaits howed hturn
    have heq := Dev.closeWindow_of_trace htrace hruns hopen hwaits howed
    refine ⟨fun hmode hother => ?_, fun w taken joint hmode hother hlimit hsig hcount hpc htraps hshape hrequest => ?_, fun hsimplex => ?_⟩
    · exact .of_step (hclose r) hnow heq (Dev.endTrace_first hparity hturn hmode hother)
    · have htakes : d.Takes (d.closedAs w0 r.err) w r taken joint := by
        rcases hrequest with ⟨hsame, htaken, hjoint⟩ | ⟨hdiffers, hrest⟩
        · exact .inl ⟨hsame.symm, htaken, hjoint⟩
        · exact .inr ⟨Ne.symm hdiffers, hrest⟩
      obtain ⟨n0, hn, hwindow, hretry, hduplex, hcopyA, hcopyB, hcheck, hrest⟩ :=
        Dev.endTrace_agrees hparity hturn hmode hother hlimit ⟨hsig, hcount, hpc, htraps⟩ hshape htakes
      refine .of_step (hclose r) hnow (heq.trans hn) ⟨n0, rfl, hwindow, hretry, hduplex, hcopyA, hcopyB, ?_, hrest⟩
      rw [hcheck]
      cases h : r.copyA with
      | true => simp only [a, h, if_true]; rfl
      | false => simp only [a, h, Bool.false_eq_true, if_false]
    · obtain ⟨n0, hn, hrest⟩ := Dev.endTrace_simplex hparity hturn hsimplex
      exact .of_step (hclose r) hnow (heq.trans hn) ⟨n0, rfl, hrest⟩
  case idle =>
    intro r h
    exact .of_step (hclose r) hnow (Dev.closeWindow_of_none h) rfl
  case parity =>
    intro r w0 htrace hruns hopen hwaits howed hparity hmode
    have heq := (Dev.closeWindow_of_trace htrace hruns hopen hwaits howed).trans (Dev.endTrace_of_parity (w := d.closedAs w0 r.err) hparity)
    refine .of_step (hclose r) hnow heq ?_
    obtain ⟨hback, htest, hrest⟩ := Dev.lostRedundancy_rolls hmode (k := if r.copyA then 1 else 2) (by cases r.copyA <;> decide)
    refine ⟨hback, htest.trans ?_, hrest⟩
    cases r.copyA <;> rfl
  case mismatch =>
    intro c cause hmode h
    have hstep : cause < 16 ∧ ∃ f, exec c s = effect t s f ∧ f d = d.scMismatch cause := by
      rcases h with ⟨r, w0, w, rfl, htrace, hparity, hruns, hopen, hwaits, howed, hturn, hother, hcause⟩ | ⟨rfl, rfl, a, since, hsince, hlong⟩
      · refine ⟨?_, _, hclose r, (Dev.closeWindow_of_trace htrace hruns hopen hwaits howed).trans
          (Dev.endTrace_mismatch hparity hturn hmode hother hcause)⟩
        rcases hcause with ⟨rfl, -⟩ | ⟨rfl, -⟩ <;> decide
      · exact ⟨by decide, _, (show exec _ s = execLagTimeout t s from rfl), if_pos ⟨hmode, Dev.lags_of hsince hlong⟩⟩
    obtain ⟨hcause, f, hc, hf⟩ := hstep
    exact ⟨fun hretry => .of_step hc hnow hf (Dev.scMismatch_rolls hretry hcause), fun hretry => .of_step hc hnow hf (Dev.scMismatch_safe cause hretry)⟩
  case prompt =>
    intro _ hlags
    refine .of_step (show exec (.lagTimeout t) s = execLagTimeout t s from rfl) hnow (if_neg ?_) rfl
    rw [hlags]
    exact fun h => Bool.false_ne_true h.2
  case firmware =>
    rintro c hc rfl hidle
    exact .of_idle hc hnow hidle
  case tests =>
    intro a b hmode htest
    refine .of_step (show exec (.scSelfTestDone t a b) s = execScSelfTestDone t a b s from rfl) hnow ?_ (d.selfTested_shows a b)
    rw [htest]
    exact if_pos hmode
  case loads =>
    intro a p e stores l o hmode hmay hagreed hturn
    obtain ⟨hruns, hclosed, hwaits⟩ := Dev.mayLoad_says hmay
    have hgo : ∀ {P : Dev → Prop}, P (d.agreedLoad a p e) → Does s (.agreedLoad t a p e) P := Does.of_agreedLoad hnow hmay hagreed hturn
    have hagain := Dev.madeRead_endWait (d := d) (a := a) stores l e.turn
    obtain ⟨hmine, hother, hwfi, hkept, htime, hcount, hjoint, hretries⟩ := d.madeRead_shows a stores l e.turn
    have hfault : d.scRead l = none → d.agreedLoad a p e = (d.madeRead a stores l e.turn).reachLoad a l none e.joint := Dev.agreedLoad_of_fault
    have hvalue : (d.scRead l).isSome = true → d.agreedLoad a p e = (d.madeRead a stores l e.turn).reachLoad a l
      (some (lowBytes ((d.scRead l).getD 0 ^^^ e.err) e.bytes)) e.joint := Dev.agreedLoad_of_value
    have hduplex := hkept.trans hmode
    have hrun := (Dev.copyRuns_congr hkept hwfi a).trans hruns
    rw [← hagain]
    generalize d.madeRead a stores l e.turn = m at hmine hother hkept htime hcount hjoint hretries hfault hvalue hduplex hrun
    have hdelay : (m.copy a).delay = stores := congrArg ScCopy.delay hmine
    have hloads : (m.copy a).loads = (d.copy a).loads := (congrArg ScCopy.loads hmine).trans rfl
    have hwaiting : ∀ {v}, o.waiting = v → (m.copy (!a)).waiting = v := fun h => (congrArg ScCopy.waiting hother).trans h
    refine ⟨fun hread => hgo ?_, fun hread => ?_⟩
    · rw [hfault hread, ← hloads]
      obtain ⟨h1, h2, h3⟩ := Dev.reachLoad_of_fault (d := m) (a := a) (l := l) e.joint
      exact ⟨h1, h2.trans ((congrArg ScCopy.waiting hmine).trans hwaits), h3.trans hother⟩
    intro own
    have hown := hvalue hread
    refine ⟨fun hw => hgo ?_, fun since hw => hgo ?_, fun since w hw hne => ⟨fun x r rest hsample hmany => hgo ?_, fun x y rest hxy hone hA hB => ?_⟩⟩
    · obtain ⟨h1, h2, h3⟩ := Dev.reachLoad_waits (l := l) (v := own) hduplex e.joint (hwaiting hw)
      rw [hown, ← htime, ← hcount, ← hjoint]
      exact ⟨h1, h2.trans hother, h3 _ _, h3 _ _⟩
    · obtain ⟨h1, h2, h3, h4, h5, h6⟩ := Dev.reachLoad_agrees hduplex hrun e.joint (hwaiting hw)
      rw [hdelay, hloads] at h4
      rw [hother] at h5
      rw [hcount] at h6
      rw [hown]
      exact ⟨h1, h2, h3, h4, h5, h6⟩
    · obtain ⟨h1, h2, h3⟩ := Dev.reachLoad_votes (x := x) (rest := rest) hduplex hrun (hwaiting hw) hne r (hretries ▸ hmany)
      rw [hown, hsample, ← hjoint]
      exact ⟨h1, h2, h3⟩
    · have hopen : ∀ b, (m.copy b).closed = none := fun b => by
        rcases Bool.eq_or_eq_not b a with rfl | rfl
        · exact (congrArg ScCopy.closed hmine).trans hclosed
        · rw [hother]
          cases a
          · exact hA
          · exact hB
      refine ⟨fun hsample => hgo ?_, fun hsample => hgo ?_⟩
      · rw [hown, hsample]
        exact Dev.reachLoad_outvotes_B hduplex hrun (hwaiting hw) hne hxy (hretries.trans hone) hopen
      · rw [hown, hsample]
        exact Dev.reachLoad_outvotes_A hduplex hrun (hwaiting hw) hne hxy (hretries.trans hone) hopen
  case faults =>
    intro k hmode
    exact .of_step (show exec (.checkerFault t k) s = execCheckerFault t k s from rfl) hnow rfl (Dev.checkerFault_shows hmode k)
  case period =>
    intro hdue
    exact .of_step (show exec (.transientPeriodExpiry t) s = execTransientPeriodExpiry t s from rfl) hnow (if_pos hdue) (d.endPeriod_shows _)
  case grace =>
    intro e he hdue
    refine .of_step (show exec (.graceExpiry t) s = execGraceExpiry t s from rfl) hnow ?_ d.endGrace_shows
    rw [he]
    exact if_pos hdue
  case injection =>
    intro steps hmode hdone hloaded
    exact .of_step (show exec (.injectionTestDone t steps) s = execInjectionTestDone t steps s from rfl) hnow (if_pos ⟨hmode, hdone, hloaded⟩)
      (d.testEnds_shows steps)

end Sys2Proof.Machine
end
